-- ==== Sys2Proof/Word.lean ====
section
/-! DEFINITION. The words of the block: bytes, registers, addresses, Tack cells (R4, R26, R161). -/

namespace Sys2Proof

/-- One byte of memory (R4). -/
abbrev Byte := BitVec 8
/-- A register is 32 bits wide (R4). -/
abbrev Word := BitVec 32
/-- The internal address space is 40 bits wide (R26). -/
abbrev Addr := BitVec 40
/-- A 64-bit quantity: two registers (R5), a timebase count (R35), a Stitcher word (R116). -/
abbrev Dword := BitVec 64
/-- A Tack cell: 16 bytes (R161). -/
abbrev Cell := BitVec 128

end Sys2Proof
end

