-- ==== Sys2Proof/Machine/Registers.lean ====
section
/-! DEFINITION. The register file of the block (R4, R8, R413 and the register tables of every chapter).
One constructor of `Reg` per stored field, named PAGE_REGISTER_FIELD as the tables spell it (the fields of the common
layout R413 carry no page). A field that the tables repeat (an array of registers, or a bitmap with one bit a channel) is
one constructor, and its instances are told apart by the key: `inst` is the instance of the page (R414), `idx` the element
of a register array (or, for a field banked by master, the master), `sub` the element within a bitmap. The fields of the
common layout use `idx` for the page's type code (R414). Fields that the tables give as views of other state (PAGE_ID, NOW,
FREE, levels) are not stored; Machine/HostAccess.lean computes them. -/

namespace Sys2Proof.Machine

/-- The kinds of register page (R28, R414). -/
inductive Page where
  | sys | i3c | sec | tbase | harness | bench | tack | quarry | qphy | xspi | burnish | power | pat
  | stitch | out | cse | qclk | spare
deriving DecidableEq, Repr

/-- Access types (R8). -/
inductive Access where
  | rw | ro | w1c | w1s | wo | rc | sh | rws
deriving DecidableEq, Repr

/-- `PAGE_ID.TYPE` (R414). -/
def Page.code : Page → Nat
  | .sys => 0x01 | .i3c => 0x02 | .sec => 0x03 | .tbase => 0x04 | .harness => 0x05 | .bench => 0x06
  | .tack => 0x07 | .quarry => 0x08 | .qphy => 0x09 | .xspi => 0x0A | .burnish => 0x0B | .power => 0x0C
  | .pat => 0x0D | .stitch => 0x10 | .out => 0x11 | .cse => 0x12 | .qclk => 0x13 | .spare => 0x14

/-- How many instances of a page there are (R28, R414); QCLK instance 12 is the spare synthesizer. -/
def Page.count : Page → Nat
  | .i3c => 2 | .stitch => 12 | .out => 48 | .cse => 48 | .qclk => 13 | .spare => 4
  | _ => 1

/-- The base address of the first instance of a page (R28). -/
def Page.base0 : Page → Nat
  | .sys => 0x0020000000 | .i3c => 0x0020001000 | .sec => 0x0020003000 | .tbase => 0x0020004000
  | .harness => 0x0020005000 | .bench => 0x0020006000 | .tack => 0x0020007000 | .quarry => 0x0020008000
  | .qphy => 0x0020009000 | .xspi => 0x002000A000 | .burnish => 0x002000B000 | .power => 0x002000C000
  | .pat => 0x002000D000 | .stitch => 0x0020010000 | .out => 0x0020030000 | .cse => 0x0020060000
  | .qclk => 0x0020090000 | .spare => 0x00200A0000

/-- The base address of instance `i` of a page: pages are 4 KiB apart (R28). -/
def Page.base (p : Page) (i : Nat) : Nat := p.base0 + i * 0x1000

/-- Every kind of page. -/
def Page.all : List Page :=
  [.sys, .i3c, .sec, .tbase, .harness, .bench, .tack, .quarry, .qphy, .xspi, .burnish, .power, .pat,
   .stitch, .out, .cse, .qclk, .spare]

/-- Where a field stands and how it behaves: page (`none` for the common layout R413), offset of its first register,
array stride and count, least significant bit, width, number of repeated elements within the array element, how many of
them share one 32-bit register and how many bits apart they are, access type (R8), reset value, and whether each master
has its own copy. -/
structure RegInfo where
  page : Option Page
  off : Nat
  stride : Nat
  count : Nat
  lsb : Nat
  width : Nat
  subs : Nat
  perWord : Nat
  step : Nat
  acc : Access
  rst : Nat
  banked : Bool
deriving DecidableEq, Repr

/-- Every stored register field, page by page. -/
inductive Reg where
  | CTRL_ENABLE | CTRL_PWR_REQ | EVT_RAW_RAW | EVT_EN_EN
  | EVT_PEND_PEND | OWNER_MASTER | OWNER_LOCK | OWNER_SEC
  | ERR_CODE_CODE | ERR_CODE_MASTER | ERR_CODE_WRITE | ERR_CODE_OVF
  | ERR_CODE_WORD | SHADOW_CMD_MODE | SHADOW_CMD_LC | SHADOW_CMD_PENDING
  | SHADOW_CMD_REFUSED | SHADOW_CMD_LATE | TBASE_TB_CFG_REF_MODE | TBASE_TB_CFG_EPOCH_SRC
  | TBASE_TB_CFG_STEP_ALLOW | TBASE_TB_CFG_TALLY_EN | TBASE_TB_CFG_HOLD_RESYNC | TBASE_TB_STATUS_PLL_LOCKED
  | TBASE_TB_STATUS_REF_PRESENT | TBASE_TB_STATUS_HOLDOVER | TBASE_TB_STATUS_SLEWING | TBASE_TB_STATUS_EPOCH_VALID
  | TBASE_TB_STATUS_TALLY_SYNC | TBASE_TB_STATUS_EPOCH_ARMED | TBASE_TB_STATUS_PHASE_ERR | TBASE_TB_LOAD_LO_LOAD_LO
  | TBASE_TB_LOAD_HI_LOAD_HI | TBASE_TALLY_CFG_DEV_ID | TBASE_TALLY_CFG_DLY_EDGES | TBASE_TALLY_CFG_GROUPS
  | TBASE_TALLY_CNT_CRC_ERR | TBASE_TALLY_CNT_DROPPED | TBASE_TSPD_MAP | TBASE_LC_LATE
  | TBASE_GSTB_CFG_MODE | TBASE_GSTB_CFG_ALIGN_LC | TBASE_GSTB_CFG_ALIGN_ARM | TBASE_GSTB_CFG_SINGLE_LC
  | TBASE_GSTB_CFG_ALIGNED | TBASE_GSTB_N_N | TBASE_GSTB_STAT_STROBES | TBASE_GSTB_STAT_PENDING
  | TBASE_LC_TIME_LO_C_LO | TBASE_LC_TIME_HI_C_HI | TBASE_LC_CTRL_FRAC | TBASE_LC_CTRL_ARM
  | TBASE_LC_CTRL_PERIODIC | TBASE_LC_CTRL_SRC_TALLY | TBASE_LC_CTRL_TAG | TBASE_LC_CTRL_OWNER
  | TBASE_LC_CTRL_CLAIMED | TBASE_LC_PERIOD_PERIOD | QCLK_QCLK_N_N | QCLK_QCLK_CFG_IF_LOG2
  | QCLK_QCLK_CFG_ALIGN_LC | QCLK_QCLK_CFG_ALIGN_ARM | QCLK_QCLK_CFG_USE_SPARE | QCLK_QCLK_STATUS_LOCKED
  | QCLK_QCLK_STATUS_ALIGNED | QCLK_QCLK_STATUS_ON_SPARE | QCLK_QCLK_STATUS_SETTLING | QCLK_QCLK_STATUS_STOPPED
  | QCLK_QCLK_STATUS_READY | QCLK_ORIGIN_LO_ORIGIN_LO | QCLK_ORIGIN_HI_ORIGIN_HI | QCLK_ORIGIN_FRAC_FRAC
  | QCLK_SAMPLE_LO_N_LO | QCLK_SAMPLE_HI_N_HI | QCLK_MISSED_MISSED | QCLK_COVER_QUAD
  | QCLK_COVER_VALID | CSE_STATUS_RUNNING | CSE_STATUS_IDLE | CSE_STATUS_OPEN
  | CSE_STATUS_BUDGET_CLAMP | CSE_CSE_CFG_DITHER | CSE_CSE_CFG_NYQ_FADE | CSE_ALLOC_PART_MAX
  | CSE_ALLOC_PLAYERS | CSE_ALLOC_EFF_PART_EFF | CSE_ALLOC_EFF_PLAYERS_EFF | CSE_GAIN_GAIN
  | CSE_OFFSET_OFFSET | CSE_REST_REST | CSE_P0MOD_AM_SRC | CSE_P0MOD_AM_DEPTH
  | CSE_P0MOD_PM_SRC | CSE_P0MOD_PM_DEPTH | CSE_P1MOD_AM_SRC | CSE_P1MOD_AM_DEPTH
  | CSE_P1MOD_PM_SRC | CSE_P1MOD_PM_DEPTH | CSE_NMOD_AM_SRC | CSE_NMOD_AM_DEPTH
  | CSE_LMOD_AM_SRC | CSE_LMOD_AM_DEPTH | CSE_CUR_DESC_KIND | CSE_CUR_DESC_PRIO
  | CSE_CUR_DESC_SEQ | CSE_CLIP_CNT_CLIP | CSE_LATE_CNT_LATE | CSE_DISCARD_CNT_DISCARD
  | STITCH_STATUS_RUNNING | STITCH_STATUS_HALTED | STITCH_STATUS_FAULTED | STITCH_STATUS_WAIT_TIME
  | STITCH_STATUS_WAIT_EVENT | STITCH_STATUS_CREDIT_WAIT | STITCH_STATUS_GANG_WAIT | STITCH_STATUS_MC_PENDING
  | STITCH_STATUS_MC_BANK | STITCH_PROG_BASE_BASE | STITCH_PROG_LEN_LEN | STITCH_TPL_BASE_BASE
  | STITCH_START_PC_PC | STITCH_FAULT_CAUSE | STITCH_FAULT_PC | STITCH_WT_ADV_ADV
  | STITCH_LC_GRANT | STITCH_EVIN_CFG_LATCH | STITCH_EVIN_LATCHED_LATCHED | STITCH_EVIN_IGNORED_COUNT
  | STITCH_GANG_TMO_TMO | STITCH_GANG_STAT_FAIL_QUADS | STITCH_GANG_STAT_REASON | STITCH_GANG_STAT_GANG
  | STITCH_GANG_READY_READY | STITCH_PUSH_CNT_COUNT | STITCH_STALL_CNT_COUNT | STITCH_MC_VER_ACTIVE
  | STITCH_MC_VER_INACTIVE | TACK_STATUS_READY | TACK_STATUS_SWEEP | TACK_PUSH_SEL_CH
  | TACK_PUSH_STAT_OPEN | TACK_PUSH_STAT_DISCARDING | TACK_PUSH_STAT_TORN | TACK_PUSH_STAT_REFUSED
  | TACK_PUSH_STAT_WORDS_LEFT | TACK_PUSH_STAT_LAST_SEQ | TACK_CNT_POISON_COUNT | TACK_CNT_TORN_COUNT
  | TACK_CNT_LINK_CORRECTED | TACK_CNT_LINK_FAILED | TACK_FENCE_LAST_CH | TACK_UNDERRUN
  | TACK_SPILL | TACK_IDLE_CFG_MODE | TACK_QCFG_CRED_STITCH | TACK_QCFG_CRED_REG
  | TACK_QCFG_FMODE | TACK_QLEVEL_FLUSH_BUSY | TACK_QLEVEL_BROKEN | TACK_RING_BASE_BASE
  | TACK_RING_CFG_SIZE_LOG | TACK_RING_CFG_SPLIT | TACK_RING_CFG_EN | TACK_RING_UCNT_COUNT
  | OUT_STATUS_STAGE | OUT_STATUS_HIGHZ | OUT_STATUS_SPAN_BUSY | OUT_STATUS_GANG_ACTIVE
  | OUT_STATUS_IN_LIMIT | OUT_STATUS_FOLDBACK | OUT_STATUS_SENSE_LOCAL | OUT_STATUS_CORE_SPARE
  | OUT_STATUS_NVM_BAD | OUT_STATUS_FALLBACK | OUT_STATUS_OVERTEMP | OUT_STATUS_SPAN_NOW
  | OUT_SPANCTL_SPAN | OUT_UPDCTL_MODE | OUT_UPDCTL_GSTB | OUT_FILTCTL_CORNER
  | OUT_FILTCTL_SHAPE | OUT_FILTCTL_BYPASS | OUT_STAGECTL_PREFER | OUT_STAGECTL_AUTO_SWITCH
  | OUT_STAGECTL_SENSE_MODE | OUT_STAGECTL_AUTO_LOCAL | OUT_STAGE_STAT_A_FAILED | OUT_STAGE_STAT_B_FAILED
  | OUT_STAGE_STAT_REQ_REFUSED | OUT_STAGE_STAT_LAST_CAUSE | OUT_STAGE_STAT_SWITCH_CNT | OUT_PROTCFG_AUTO_RETRY
  | OUT_NV_WAKE_VAL | OUT_NV_WAKE_SPAN | OUT_NV_FAULT_VAL | OUT_NV_SAFE_VAL
  | OUT_NVM_STAT_BUSY | OUT_NVM_STAT_DONE | OUT_NVM_STAT_ERR | OUT_NVM_STAT_CYCLES
  | OUT_FAULT_CTL_FORCE | OUT_FAULT_CTL_WD_EN | OUT_FAULT_STAT_SQ_UNDERRUN | OUT_FAULT_STAT_REPEAT_FAIL
  | OUT_FAULT_STAT_CORE_LOST | OUT_FAULT_STAT_WATCHDOG | OUT_FAULT_STAT_FORCED | OUT_SQ_UCNT_COUNT
  | OUT_SC_CNT_SHORTS | OUT_SC_CNT_OVERTEMPS | BURNISH_STATUS_ROTATING | BURNISH_STATUS_CAPTURING
  | BURNISH_STATUS_NVM_SAVING | BURNISH_STATUS_REF_OK | BURNISH_BCFG_AUTO | BURNISH_BCFG_DITHER_EN
  | BURNISH_BCFG_TIER_EN | BURNISH_BCFG_SAVE_HOURS | BURNISH_INTERVAL_MS | BURNISH_WINDOWS_CAL_LOG2
  | BURNISH_WINDOWS_MATCH_LOG2 | BURNISH_WINDOWS_VERIFY_LOG2 | BURNISH_MATCH_TOL_LSB | BURNISH_ROT_CNT_COUNT
  | BURNISH_REF_DEV_PPM | BURNISH_CAP_CTRL_CAP_SRC | BURNISH_CAP_CTRL_AT_LC | BURNISH_CAP_CTRL_CAP_LC
  | BURNISH_CAP_CTRL_BUSY | BURNISH_CAP_CTRL_REFUSED | BURNISH_CAP_ADDR_LO_ADDR | BURNISH_CAP_ADDR_HI_ADDR
  | BURNISH_CAP_COUNT_COUNT | BURNISH_CAP_DONE_COUNT | SPARE_STATUS_PHASE | SPARE_STATUS_SPARE_CORE
  | SPARE_STATUS_CAL_CORE | SPARE_STATUS_VISIT_POS | SPARE_STATUS_SPARE_FREE | SPARE_STATUS_FAILOVER_BUSY
  | SPARE_CORE_MAP | SPARE_CORE_STATE_ROLE | SPARE_SKIP_EXCLUDE | SPARE_SKIP_SUSPECT
  | SPARE_LAST_FAIL_POS | SPARE_LAST_FAIL_CORE | SPARE_LAST_FAIL_CAUSE | SPARE_FAIL_CNT_FAILOVERS
  | SPARE_FAIL_CNT_RETIRES | SPARE_MATCH_RES_OFFSET | SPARE_MATCH_RES_GAIN | SPARE_RESIDUAL_INL_EST
  | SPARE_RESIDUAL_COVERAGE | SPARE_RESIDUAL_LADDER_COV | SPARE_MON_DEV_OFFSET | SPARE_MON_DEV_GAIN
  | SPARE_ELEM_TRIM_E | SPARE_LADDER_TRIM_L | SPARE_GO_TRIM_GAIN | SPARE_GO_TRIM_OFFSET
  | SPARE_CAL_AGE_HOURS | SPARE_CAL_COUNT_COUNT | SPARE_STAGE_TRIM_GAIN | SPARE_STAGE_TRIM_OFFSET
  | HARNESS_STATUS_LOOP_PRESENT | HARNESS_SVC_CTL_FORCE_HOLD | HARNESS_LCNT_SEL_LINE | HARNESS_LCNT_FIRED_FIRED
  | HARNESS_LCNT_MERGE_COINCIDENT | HARNESS_LCNT_MERGE_SUPPRESSED | HARNESS_LCNT_OVR_OVERRUN | HARNESS_STORM_PROF_THR
  | HARNESS_STORM_PROF_WIN_LOG2 | HARNESS_STATSEL_KIND | HARNESS_STATSEL_INST | HARNESS_GSTB_OVR_OVR
  | HARNESS_CAPU_CFG_LEVEL | HARNESS_CAPU_CFG_OVR | HARNESS_CAPU_CFG_OWNER | HARNESS_CAPU_CFG_CLAIMED
  | HARNESS_CAPU_INFO_FRAC | HARNESS_CAPU_INFO_SLOTS | HARNESS_CAPU_INFO_VALID | HARNESS_CAPU_INFO_PAT_STAMP
  | HARNESS_CAPU_TIME_LO_C_LO | HARNESS_CAPU_TIME_HI_C_HI | HARNESS_SOVR_OVR | HARNESS_LINE_CFG_DST
  | HARNESS_LINE_CFG_EN | HARNESS_LINE_CFG_SVC | HARNESS_LINE_CFG_SEC | HARNESS_LINE_CFG_REARM
  | HARNESS_LINE_CFG_OWNER | HARNESS_LINE_CFG_SPROF | HARNESS_LINE_CFG_CLAIMED | HARNESS_LINE_STAT_LAST_SLOTS
  | HARNESS_LINE_STAT_PENDING | HARNESS_LINE_STAT_STORM | HARNESS_LINE_STAT_LOOP | HARNESS_LINE_SRC_SLOT
  | PAT_STATUS_BANK_V | PAT_STATUS_BANK_OK | PAT_PAT_DROP_COUNT | PAT_PAT_OVR_OVR
  | PAT_PIN_CFG_FUNC | PAT_PIN_CFG_OMODE | PAT_PIN_CFG_INVERT | PAT_PIN_CFG_ODRAIN
  | PAT_PIN_CFG_DRIVE | PAT_PIN_CFG_EDGE | PAT_PIN_CFG_FILT | PAT_PIN_CFG_CH
  | PAT_PIN_CFG_GSTB | PAT_PIN_CFG_OWNER | PAT_PIN_CFG_CLAIMED | PAT_PIN_PULSE_PULSE
  | QUARRY_STATUS_READY | QUARRY_STATUS_DEGRADED | QUARRY_STATUS_MIGRATING | QUARRY_STATUS_OP_PENDING
  | QUARRY_STATUS_SELF_REFRESH | QUARRY_STATUS_OP_NOW | QUARRY_STATUS_RESHAPING | QUARRY_STATUS_INIT_DONE
  | QUARRY_QRY_CFG_PAGE_IDLE | QUARRY_QRY_CFG_ROWHIT_MAX | QUARRY_QRY_CFG_SCRUB_EN | QUARRY_OPCTL_TARGET
  | QUARRY_OPCTL_AT_LC | QUARRY_OPCTL_LC | QUARRY_OPCTL_ABORT_MAX | QUARRY_OP_STAT_ABORTS
  | QUARRY_OP_STAT_FORCED | QUARRY_OP_STAT_LAST_OUTAGE | QUARRY_LRMAP_MAP | QUARRY_LRMAP_SPARE
  | QUARRY_RANK_STATE_STATE | QUARRY_CAPACITY_N_ACTIVE | QUARRY_CAPACITY_WAVE_GIB | QUARRY_MIG_CTL_RATE
  | QUARRY_MIG_PTR_UNIT | QUARRY_MIG_PTR_LGRANK | QUARRY_MIG_PTR_CAUSE | QUARRY_UE_ADDR_LO_ADDR
  | QUARRY_UE_ADDR_HI_ADDR | QUARRY_UE_ADDR_HI_RANK | QUARRY_UE_ADDR_HI_BANK | QUARRY_ECC_CNT_CE
  | QUARRY_ECC_CNT_UE | QUARRY_ECC_CFG_CE_THR | QUARRY_ECC_CFG_SCRUB_HOURS | QUARRY_RD_CFG_RD_THR
  | QUARRY_RD_CFG_RD_GAP | QUARRY_RD_STAT_THROTTLED | QUARRY_RD_STAT_EVENTS | QUARRY_INIT_PROG_PERCENT
  | QUARRY_GEN_GEN | QUARRY_PORT_TGT_TGT | QUARRY_PORT_STAT_URG | QUARRY_PORT_STAT_THROTTLED
  | QUARRY_PORT_STAT_OUTSTANDING | QUARRY_PORT_LAT_MAX_LAT | QUARRY_PORT_MISS_COUNT | QPHY_STATUS_PLL0_LOCK
  | QPHY_STATUS_PLL1_LOCK | QPHY_STATUS_TRAINING | QPHY_TRN_SEL_CH | QPHY_TRN_SEL_CS
  | QPHY_TRN_SEL_OP | QPHY_TRN_SEL_SET | QPHY_TRN_CTL_MODE | QPHY_PAT_CFG_KIND
  | QPHY_PAT_CFG_BURSTS | QPHY_PAT_CFG_SEED | QPHY_PAT_USER_PATTERN | QPHY_CMP_STAT_FAIL
  | QPHY_CMP_STAT_DONE | QPHY_CMP_STAT_BUSY | QPHY_CMP_ERRCNT_COUNT | QPHY_DLY_SEL_KIND
  | QPHY_DLY_SEL_BIT | QPHY_TSET_CTL_ACTIVE | QPHY_TSET_CTL_A_OP | QPHY_TSET_CTL_A_VALID
  | QPHY_TSET_CTL_B_OP | QPHY_TSET_CTL_B_VALID | QPHY_DRIFT_CFG_MS | QPHY_DRIFT_STAT_MAX_STEP
  | BENCH_STATUS_READY | BENCH_STATUS_SPARE_FREE | BENCH_STATUS_BIST_BUSY | BENCH_STATUS_REPLACING
  | BENCH_STATUS_SPARE_COVER | BENCH_STATUS_THERMAL_DEEP | BENCH_BPWR_CFG_MODE | BENCH_BPWR_STAT_STATE
  | BENCH_AUTO_IDLE_US | BENCH_BENCH_HEALTH_HEALTH | BENCH_ECC_CNT_CE | BENCH_ECC_CNT_UE
  | BENCH_UE_ADDR_OFFSET | BENCH_UE_ADDR_IN_SPARE | BENCH_UE_THR_THR | BENCH_COLL_STAT_STREAMER
  | BENCH_COLL_CNT_COUNT | BENCH_ALIAS_LAST_PRIOR | BENCH_ALIAS_STAT_VALID | BENCH_ALIAS_STAT_POISON
  | BENCH_BIST_CTL_AUTO_REPLACE | BENCH_BIST_CTL_BENCH | BENCH_BIST_RANGE_FIRST | BENCH_BIST_RANGE_LAST
  | BENCH_BIST_STAT_PHASE | BENCH_BIST_STAT_FAIL_WORDS | BENCH_BIST_STAT_PASS | BENCH_BIST_STAT_FAIL
  | BENCH_BIST_FAIL_ADDR_OFFSET | BENCH_BIST_PTR_OFFSET | BENCH_RGN_BASE_BASE | BENCH_RGN_BASE_RD
  | BENCH_RGN_BASE_WR | BENCH_RGN_BASE_ALIAS | BENCH_RGN_BASE_EN | BENCH_RGN_LIMIT_LIMIT
  | I3C_STATUS_DA_VALID | I3C_STATUS_I2C_MODE | I3C_STATUS_HEALTHY | I3C_STATUS_HDR
  | I3C_STATUS_TUN_BUSY | I3C_STATUS_SECURE | I3C_LINK_CFG_EN | I3C_LINK_CFG_ALLOW_DEV_RESET
  | I3C_LINK_CFG_ALERT_EN | I3C_LINK_CFG_WD | I3C_ADDR_STAT_DA | I3C_ADDR_STAT_STATIC
  | I3C_PID_LO_PID | I3C_PID_HI_PID | I3C_PID_HI_BCR | I3C_PID_HI_DCR
  | I3C_LIMITS_MWL | I3C_LIMITS_MRL | I3C_IBI_CFG_HOLDOFF | I3C_IBI_CFG_EVENT_IBI
  | I3C_IBI_CFG_LINK_IBI | I3C_IBI_CNT_SENT | I3C_IBI_CNT_NACKS | I3C_FRAME_STAT_FRAME_ERR
  | I3C_FRAME_STAT_LAST_ERR | I3C_TUN_STAT_LAST | I3C_TUN_STAT_RETRY_CNT | I3C_PTR_LO_ADDR
  | I3C_PTR_HI_ADDR | I3C_PTR_HI_INC | XSPI_STATUS_VIO_18 | XSPI_STATUS_RAW_BUSY
  | XSPI_XSPI_CFG_MODE | XSPI_XSPI_CFG_DEVTYPE | XSPI_XSPI_CFG_EXT | XSPI_XSPI_CFG_ADDR4
  | XSPI_XSPI_CFG_DUMMY | XSPI_XSPI_CFG_CLKDIV | XSPI_XSPI_CFG_RD_OP | XSPI_XSPI_NAND_PAGE_OP
  | XSPI_XSPI_NAND_PAGE_LOG2 | XSPI_XSPI_NAND_ECC_MASK | XSPI_XSPI_NAND_ECC_BAD | XSPI_RAW_CMD_OP
  | XSPI_RAW_CMD_ALEN | XSPI_RAW_CMD_DLEN | XSPI_RAW_CMD_DIR | XSPI_RAW_CMD_DUMMY
  | XSPI_RAW_CMD_REFUSED | XSPI_RAW_ADDR_ADDR | XSPI_RAW_DATA_LO_DATA | XSPI_RAW_DATA_HI_DATA
  | XSPI_LD_SRC_OFFSET | XSPI_LD_DST_LO_ADDR | XSPI_LD_DST_HI_ADDR | XSPI_LD_LEN_BYTES
  | XSPI_LD_CTL_IMAGE | XSPI_LD_CTL_SIG_REQ | XSPI_LD_STAT_BUSY | XSPI_LD_STAT_DONE
  | XSPI_LD_STAT_RELEASED | XSPI_LD_STAT_REFUSED | XSPI_LD_STAT_STOP | XSPI_LD_STAT_ENTRY
  | XSPI_LD_DONE_BYTES | XSPI_LD_RESUME_POINT | XSPI_LD_ENTRIES_COUNT | XSPI_FLASH_STAT_STATUS
  | SEC_STATUS_BOOT_OK | SEC_STATUS_RECOVERY | SEC_STATUS_RUN_SRC | SEC_STATUS_PREF_SLOT
  | SEC_STATUS_SLOT_A_VALID | SEC_STATUS_SLOT_B_VALID | SEC_STATUS_STAGED | SEC_STATUS_HANDOFF_BUSY
  | SEC_STATUS_OWNER_SET | SEC_STATUS_POLICY_LOCKED | SEC_STATUS_VK_REVOKED | SEC_STATUS_VK_USED
  | SEC_FW_VER_VER | SEC_SVN_RUN_SVN | SEC_SVN_FUSE_COUNT | SEC_SVN_STAGED_SVN
  | SEC_WDT_CFG_MS | SEC_BOOT_TIME_US100 | SEC_SESSION_TMO_S | SEC_LIB_VER_MIN_VER
  | SEC_MR_CNT_CNT | SEC_UID_UID | SEC_MB_CMD_OP | SEC_MB_CMD_TAG
  | SEC_MB_STAT_BUSY | SEC_MB_STAT_DONE | SEC_MB_STAT_RESULT | SEC_MB_STAT_TAG
  | SEC_MB_ARG_ARG | SEC_MB_RES_RES | SEC_MR_VALUE | SYS_STATUS_READY
  | SYS_STATUS_DEGRADED | SYS_RESET_CAUSE_COLD | SYS_RESET_CAUSE_PIN | SYS_RESET_CAUSE_RSTACT_A
  | SYS_RESET_CAUSE_RSTACT_B | SYS_RESET_CAUSE_SOFT | SYS_RESET_CAUSE_FW_WDT | SYS_RESET_CAUSE_FW_FAULT
  | SYS_RESET_CNT_WARM | SYS_RESET_CNT_FW_RESTART | SYS_SPARE_SUM_STAGE | SYS_SPARE_SUM_CORE
  | SYS_SPARE_SUM_BENCH | SYS_SPARE_SUM_RANK | SYS_SPARE_SUM_SYNTH | SYS_SPARE_SUM_LINK
  | SYS_SPARE_SUM_FW | SYS_SPARE_SUM_CHANNEL_LOST | SYS_SPARE_SUM_CORE_LOST | SYS_SPARE_SUM_BENCH_OFFLINE
  | SYS_SPARE_SUM_RANK_OFFLINE | SYS_SPARE_SUM_SYNTH_LOST | SYS_ERR_ADDR_LO_ADDR | SYS_ERR_ADDR_HI_ADDR
  | SYS_ERR_ADDR_HI_MASTER | SYS_ERR_ADDR_HI_WRITE | SYS_SCRATCH_DATA | POWER_STATUS_DSTATE
  | POWER_STATUS_TARGET | POWER_STATUS_QUIET | POWER_STATUS_ENTERING | POWER_STATUS_EXITING
  | POWER_STATUS_THERM_WARN | POWER_STATUS_THERMAL_LIMIT | POWER_STATUS_THERM_CRIT | POWER_STATUS_BLOCK
  | POWER_PWR_CFG_MAX_STATE | POWER_ENTRY_IDLE_US | POWER_LTOL_HOST_US | POWER_LTOL_EVENT_US
  | POWER_LTOL_TALLY_US | POWER_TIME_LEAD_US | POWER_WAKE_STAT_CLASS | POWER_WAKE_STAT_FROM
  | POWER_WAKE_STAT_EXIT_US | POWER_RESIDENCY_MS | POWER_THERM_CFG_TWARN | POWER_THERM_CFG_TLIM
  | POWER_THERM_CFG_TCRIT | POWER_THERM_CFG_CRIT_ACT | POWER_THERM_STAT_TJ | POWER_THERM_STAT_PEAK
  | POWER_RAIL_STAT_IN_RANGE | POWER_RAIL_FAULT_LEFT | POWER_VCORE_MV_MV | POWER_PACE_RATIO
  | POWER_PACE_MIN | POWER_PACE_WARN_QUAD | POWER_LIFE_HOURS_HOURS | POWER_LIFE_CYCLES_PWRGD
  | POWER_LIFE_CYCLES_THERMAL
deriving DecidableEq, Repr

/-- The tables: R413 for the common layout, then the register tables of the chapters. -/
def Reg.info : Reg → RegInfo
  | .CTRL_ENABLE => ⟨none, 0x4, 0x0, 1, 0, 1, 1, 32, 1, .rw, 0, false⟩
  | .CTRL_PWR_REQ => ⟨none, 0x4, 0x0, 1, 2, 1, 1, 32, 1, .rw, 0, false⟩
  | .EVT_RAW_RAW => ⟨none, 0xC, 0x0, 1, 0, 1, 32, 32, 1, .w1c, 0, false⟩
  | .EVT_EN_EN => ⟨none, 0x10, 0x0, 1, 0, 1, 32, 32, 1, .rw, 0, false⟩
  | .EVT_PEND_PEND => ⟨none, 0x14, 0x0, 1, 0, 1, 32, 32, 1, .w1c, 0, false⟩
  | .OWNER_MASTER => ⟨none, 0x18, 0x0, 1, 0, 5, 1, 32, 1, .ro, 0, false⟩
  | .OWNER_LOCK => ⟨none, 0x18, 0x0, 1, 5, 1, 1, 32, 1, .rw, 0, false⟩
  | .OWNER_SEC => ⟨none, 0x18, 0x0, 1, 6, 1, 1, 32, 1, .rw, 0, false⟩
  | .ERR_CODE_CODE => ⟨none, 0x1C, 0x0, 1, 0, 8, 1, 32, 1, .rc, 0, false⟩
  | .ERR_CODE_MASTER => ⟨none, 0x1C, 0x0, 1, 8, 5, 1, 32, 1, .rc, 0, false⟩
  | .ERR_CODE_WRITE => ⟨none, 0x1C, 0x0, 1, 13, 1, 1, 32, 1, .rc, 0, false⟩
  | .ERR_CODE_OVF => ⟨none, 0x1C, 0x0, 1, 15, 1, 1, 32, 1, .rc, 0, false⟩
  | .ERR_CODE_WORD => ⟨none, 0x1C, 0x0, 1, 16, 10, 1, 32, 1, .rc, 0, false⟩
  | .SHADOW_CMD_MODE => ⟨none, 0x20, 0x0, 1, 0, 2, 1, 32, 1, .rw, 0, false⟩
  | .SHADOW_CMD_LC => ⟨none, 0x20, 0x0, 1, 2, 6, 1, 32, 1, .rw, 0, false⟩
  | .SHADOW_CMD_PENDING => ⟨none, 0x20, 0x0, 1, 12, 1, 1, 32, 1, .ro, 0, false⟩
  | .SHADOW_CMD_REFUSED => ⟨none, 0x20, 0x0, 1, 13, 1, 1, 32, 1, .w1c, 0, false⟩
  | .SHADOW_CMD_LATE => ⟨none, 0x20, 0x0, 1, 14, 1, 1, 32, 1, .w1c, 0, false⟩
  | .TBASE_TB_CFG_REF_MODE => ⟨(some .tbase), 0x40, 0x0, 1, 0, 2, 1, 1, 0, .rws, 0, false⟩
  | .TBASE_TB_CFG_EPOCH_SRC => ⟨(some .tbase), 0x40, 0x0, 1, 2, 2, 1, 1, 0, .rws, 0, false⟩
  | .TBASE_TB_CFG_STEP_ALLOW => ⟨(some .tbase), 0x40, 0x0, 1, 4, 1, 1, 1, 0, .rws, 0, false⟩
  | .TBASE_TB_CFG_TALLY_EN => ⟨(some .tbase), 0x40, 0x0, 1, 5, 1, 1, 1, 0, .rws, 0, false⟩
  | .TBASE_TB_CFG_HOLD_RESYNC => ⟨(some .tbase), 0x40, 0x0, 1, 6, 1, 1, 1, 0, .rws, 0, false⟩
  | .TBASE_TB_STATUS_PLL_LOCKED => ⟨(some .tbase), 0x44, 0x0, 1, 0, 1, 1, 1, 0, .ro, 0, false⟩
  | .TBASE_TB_STATUS_REF_PRESENT => ⟨(some .tbase), 0x44, 0x0, 1, 1, 1, 1, 1, 0, .ro, 0, false⟩
  | .TBASE_TB_STATUS_HOLDOVER => ⟨(some .tbase), 0x44, 0x0, 1, 2, 1, 1, 1, 0, .ro, 0, false⟩
  | .TBASE_TB_STATUS_SLEWING => ⟨(some .tbase), 0x44, 0x0, 1, 3, 1, 1, 1, 0, .ro, 0, false⟩
  | .TBASE_TB_STATUS_EPOCH_VALID => ⟨(some .tbase), 0x44, 0x0, 1, 4, 1, 1, 1, 0, .ro, 0, false⟩
  | .TBASE_TB_STATUS_TALLY_SYNC => ⟨(some .tbase), 0x44, 0x0, 1, 5, 1, 1, 1, 0, .ro, 0, false⟩
  | .TBASE_TB_STATUS_EPOCH_ARMED => ⟨(some .tbase), 0x44, 0x0, 1, 6, 1, 1, 1, 0, .ro, 0, false⟩
  | .TBASE_TB_STATUS_PHASE_ERR => ⟨(some .tbase), 0x44, 0x0, 1, 16, 16, 1, 1, 0, .ro, 0, false⟩
  | .TBASE_TB_LOAD_LO_LOAD_LO => ⟨(some .tbase), 0x50, 0x0, 1, 0, 32, 1, 1, 0, .rw, 0, false⟩
  | .TBASE_TB_LOAD_HI_LOAD_HI => ⟨(some .tbase), 0x54, 0x0, 1, 0, 32, 1, 1, 0, .rw, 0, false⟩
  | .TBASE_TALLY_CFG_DEV_ID => ⟨(some .tbase), 0x5C, 0x0, 1, 0, 8, 1, 1, 0, .rw, 0, false⟩
  | .TBASE_TALLY_CFG_DLY_EDGES => ⟨(some .tbase), 0x5C, 0x0, 1, 8, 4, 1, 1, 0, .rw, 0, false⟩
  | .TBASE_TALLY_CFG_GROUPS => ⟨(some .tbase), 0x5C, 0x0, 1, 16, 16, 1, 1, 0, .rw, 0, false⟩
  | .TBASE_TALLY_CNT_CRC_ERR => ⟨(some .tbase), 0x60, 0x0, 1, 0, 16, 1, 1, 0, .rc, 0, false⟩
  | .TBASE_TALLY_CNT_DROPPED => ⟨(some .tbase), 0x60, 0x0, 1, 16, 16, 1, 1, 0, .rc, 0, false⟩
  | .TBASE_TSPD_MAP => ⟨(some .tbase), 0x64, 0x0, 1, 0, 4, 12, 8, 4, .rw, 15, false⟩
  | .TBASE_LC_LATE => ⟨(some .tbase), 0x78, 0x0, 1, 0, 1, 64, 32, 1, .w1c, 0, false⟩
  | .TBASE_GSTB_CFG_MODE => ⟨(some .tbase), 0xC0, 0x10, 4, 0, 2, 1, 1, 0, .rw, 0, false⟩
  | .TBASE_GSTB_CFG_ALIGN_LC => ⟨(some .tbase), 0xC0, 0x10, 4, 8, 6, 1, 1, 0, .rw, 0, false⟩
  | .TBASE_GSTB_CFG_ALIGN_ARM => ⟨(some .tbase), 0xC0, 0x10, 4, 14, 1, 1, 1, 0, .rw, 0, false⟩
  | .TBASE_GSTB_CFG_SINGLE_LC => ⟨(some .tbase), 0xC0, 0x10, 4, 16, 6, 1, 1, 0, .rw, 0, false⟩
  | .TBASE_GSTB_CFG_ALIGNED => ⟨(some .tbase), 0xC0, 0x10, 4, 24, 1, 1, 1, 0, .ro, 0, false⟩
  | .TBASE_GSTB_N_N => ⟨(some .tbase), 0xC4, 0x10, 4, 0, 32, 1, 1, 0, .sh, 0x28f5c29, false⟩
  | .TBASE_GSTB_STAT_STROBES => ⟨(some .tbase), 0xC8, 0x10, 4, 0, 16, 1, 1, 0, .ro, 0, false⟩
  | .TBASE_GSTB_STAT_PENDING => ⟨(some .tbase), 0xC8, 0x10, 4, 16, 1, 1, 1, 0, .ro, 0, false⟩
  | .TBASE_LC_TIME_LO_C_LO => ⟨(some .tbase), 0x400, 0x10, 64, 0, 32, 1, 1, 0, .rw, 0, false⟩
  | .TBASE_LC_TIME_HI_C_HI => ⟨(some .tbase), 0x404, 0x10, 64, 0, 32, 1, 1, 0, .rw, 0, false⟩
  | .TBASE_LC_CTRL_FRAC => ⟨(some .tbase), 0x408, 0x10, 64, 0, 8, 1, 1, 0, .rw, 0, false⟩
  | .TBASE_LC_CTRL_ARM => ⟨(some .tbase), 0x408, 0x10, 64, 8, 1, 1, 1, 0, .rw, 0, false⟩
  | .TBASE_LC_CTRL_PERIODIC => ⟨(some .tbase), 0x408, 0x10, 64, 9, 1, 1, 1, 0, .rw, 0, false⟩
  | .TBASE_LC_CTRL_SRC_TALLY => ⟨(some .tbase), 0x408, 0x10, 64, 10, 1, 1, 1, 0, .rw, 0, false⟩
  | .TBASE_LC_CTRL_TAG => ⟨(some .tbase), 0x408, 0x10, 64, 12, 8, 1, 1, 0, .rw, 0, false⟩
  | .TBASE_LC_CTRL_OWNER => ⟨(some .tbase), 0x408, 0x10, 64, 24, 5, 1, 1, 0, .ro, 0, false⟩
  | .TBASE_LC_CTRL_CLAIMED => ⟨(some .tbase), 0x408, 0x10, 64, 31, 1, 1, 1, 0, .rw, 0, false⟩
  | .TBASE_LC_PERIOD_PERIOD => ⟨(some .tbase), 0x40C, 0x10, 64, 0, 32, 1, 1, 0, .rw, 0, false⟩
  | .QCLK_QCLK_N_N => ⟨(some .qclk), 0x40, 0x0, 1, 0, 32, 1, 1, 0, .sh, 0x28f5c29, false⟩
  | .QCLK_QCLK_CFG_IF_LOG2 => ⟨(some .qclk), 0x44, 0x0, 1, 0, 3, 1, 1, 0, .sh, 0, false⟩
  | .QCLK_QCLK_CFG_ALIGN_LC => ⟨(some .qclk), 0x44, 0x0, 1, 8, 6, 1, 1, 0, .rw, 0, false⟩
  | .QCLK_QCLK_CFG_ALIGN_ARM => ⟨(some .qclk), 0x44, 0x0, 1, 14, 1, 1, 1, 0, .rw, 0, false⟩
  | .QCLK_QCLK_CFG_USE_SPARE => ⟨(some .qclk), 0x44, 0x0, 1, 16, 1, 1, 1, 0, .rw, 0, false⟩
  | .QCLK_QCLK_STATUS_LOCKED => ⟨(some .qclk), 0x48, 0x0, 1, 0, 1, 1, 1, 0, .ro, 0, false⟩
  | .QCLK_QCLK_STATUS_ALIGNED => ⟨(some .qclk), 0x48, 0x0, 1, 1, 1, 1, 1, 0, .ro, 0, false⟩
  | .QCLK_QCLK_STATUS_ON_SPARE => ⟨(some .qclk), 0x48, 0x0, 1, 2, 1, 1, 1, 0, .ro, 0, false⟩
  | .QCLK_QCLK_STATUS_SETTLING => ⟨(some .qclk), 0x48, 0x0, 1, 3, 1, 1, 1, 0, .ro, 0, false⟩
  | .QCLK_QCLK_STATUS_STOPPED => ⟨(some .qclk), 0x48, 0x0, 1, 4, 1, 1, 1, 0, .ro, 0, false⟩
  | .QCLK_QCLK_STATUS_READY => ⟨(some .qclk), 0x48, 0x0, 1, 5, 1, 1, 1, 0, .ro, 0, false⟩
  | .QCLK_ORIGIN_LO_ORIGIN_LO => ⟨(some .qclk), 0x4C, 0x0, 1, 0, 32, 1, 1, 0, .ro, 0, false⟩
  | .QCLK_ORIGIN_HI_ORIGIN_HI => ⟨(some .qclk), 0x50, 0x0, 1, 0, 32, 1, 1, 0, .ro, 0, false⟩
  | .QCLK_ORIGIN_FRAC_FRAC => ⟨(some .qclk), 0x54, 0x0, 1, 0, 8, 1, 1, 0, .ro, 0, false⟩
  | .QCLK_SAMPLE_LO_N_LO => ⟨(some .qclk), 0x58, 0x0, 1, 0, 32, 1, 1, 0, .ro, 0, false⟩
  | .QCLK_SAMPLE_HI_N_HI => ⟨(some .qclk), 0x5C, 0x0, 1, 0, 32, 1, 1, 0, .ro, 0, false⟩
  | .QCLK_MISSED_MISSED => ⟨(some .qclk), 0x60, 0x0, 1, 0, 32, 1, 1, 0, .rc, 0, false⟩
  | .QCLK_COVER_QUAD => ⟨(some .qclk), 0x64, 0x0, 1, 0, 4, 1, 1, 0, .rw, 0, false⟩
  | .QCLK_COVER_VALID => ⟨(some .qclk), 0x64, 0x0, 1, 8, 1, 1, 1, 0, .rw, 0, false⟩
  | .CSE_STATUS_RUNNING => ⟨(some .cse), 0x8, 0x0, 1, 0, 1, 1, 1, 0, .ro, 0, false⟩
  | .CSE_STATUS_IDLE => ⟨(some .cse), 0x8, 0x0, 1, 1, 1, 1, 1, 0, .ro, 1, false⟩
  | .CSE_STATUS_OPEN => ⟨(some .cse), 0x8, 0x0, 1, 2, 1, 1, 1, 0, .ro, 0, false⟩
  | .CSE_STATUS_BUDGET_CLAMP => ⟨(some .cse), 0x8, 0x0, 1, 3, 1, 1, 1, 0, .ro, 0, false⟩
  | .CSE_CSE_CFG_DITHER => ⟨(some .cse), 0x40, 0x0, 1, 0, 1, 1, 1, 0, .rw, 0, false⟩
  | .CSE_CSE_CFG_NYQ_FADE => ⟨(some .cse), 0x40, 0x0, 1, 1, 1, 1, 1, 0, .rw, 1, false⟩
  | .CSE_ALLOC_PART_MAX => ⟨(some .cse), 0x44, 0x0, 1, 0, 6, 1, 1, 0, .rw, 8, false⟩
  | .CSE_ALLOC_PLAYERS => ⟨(some .cse), 0x44, 0x0, 1, 8, 2, 1, 1, 0, .rw, 1, false⟩
  | .CSE_ALLOC_EFF_PART_EFF => ⟨(some .cse), 0x48, 0x0, 1, 0, 6, 1, 1, 0, .ro, 8, false⟩
  | .CSE_ALLOC_EFF_PLAYERS_EFF => ⟨(some .cse), 0x48, 0x0, 1, 8, 2, 1, 1, 0, .ro, 1, false⟩
  | .CSE_GAIN_GAIN => ⟨(some .cse), 0x4C, 0x0, 1, 0, 24, 1, 1, 0, .sh, 0x400000, false⟩
  | .CSE_OFFSET_OFFSET => ⟨(some .cse), 0x50, 0x0, 1, 0, 24, 1, 1, 0, .sh, 0, false⟩
  | .CSE_REST_REST => ⟨(some .cse), 0x54, 0x0, 1, 0, 24, 1, 1, 0, .rw, 0, false⟩
  | .CSE_P0MOD_AM_SRC => ⟨(some .cse), 0x58, 0x0, 1, 0, 8, 1, 1, 0, .rw, 0, false⟩
  | .CSE_P0MOD_AM_DEPTH => ⟨(some .cse), 0x58, 0x0, 1, 8, 8, 1, 1, 0, .rw, 0, false⟩
  | .CSE_P0MOD_PM_SRC => ⟨(some .cse), 0x58, 0x0, 1, 16, 8, 1, 1, 0, .rw, 0, false⟩
  | .CSE_P0MOD_PM_DEPTH => ⟨(some .cse), 0x58, 0x0, 1, 24, 8, 1, 1, 0, .rw, 0, false⟩
  | .CSE_P1MOD_AM_SRC => ⟨(some .cse), 0x5C, 0x0, 1, 0, 8, 1, 1, 0, .rw, 0, false⟩
  | .CSE_P1MOD_AM_DEPTH => ⟨(some .cse), 0x5C, 0x0, 1, 8, 8, 1, 1, 0, .rw, 0, false⟩
  | .CSE_P1MOD_PM_SRC => ⟨(some .cse), 0x5C, 0x0, 1, 16, 8, 1, 1, 0, .rw, 0, false⟩
  | .CSE_P1MOD_PM_DEPTH => ⟨(some .cse), 0x5C, 0x0, 1, 24, 8, 1, 1, 0, .rw, 0, false⟩
  | .CSE_NMOD_AM_SRC => ⟨(some .cse), 0x60, 0x0, 1, 0, 8, 1, 1, 0, .rw, 0, false⟩
  | .CSE_NMOD_AM_DEPTH => ⟨(some .cse), 0x60, 0x0, 1, 8, 8, 1, 1, 0, .rw, 0, false⟩
  | .CSE_LMOD_AM_SRC => ⟨(some .cse), 0x64, 0x0, 1, 0, 8, 1, 1, 0, .rw, 0, false⟩
  | .CSE_LMOD_AM_DEPTH => ⟨(some .cse), 0x64, 0x0, 1, 8, 8, 1, 1, 0, .rw, 0, false⟩
  | .CSE_CUR_DESC_KIND => ⟨(some .cse), 0x68, 0x0, 1, 0, 4, 1, 1, 0, .ro, 0, false⟩
  | .CSE_CUR_DESC_PRIO => ⟨(some .cse), 0x68, 0x0, 1, 4, 2, 1, 1, 0, .ro, 0, false⟩
  | .CSE_CUR_DESC_SEQ => ⟨(some .cse), 0x68, 0x0, 1, 16, 16, 1, 1, 0, .ro, 0, false⟩
  | .CSE_CLIP_CNT_CLIP => ⟨(some .cse), 0x70, 0x0, 1, 0, 32, 1, 1, 0, .rc, 0, false⟩
  | .CSE_LATE_CNT_LATE => ⟨(some .cse), 0x74, 0x0, 1, 0, 32, 1, 1, 0, .rc, 0, false⟩
  | .CSE_DISCARD_CNT_DISCARD => ⟨(some .cse), 0x78, 0x0, 1, 0, 32, 1, 1, 0, .rc, 0, false⟩
  | .STITCH_STATUS_RUNNING => ⟨(some .stitch), 0x8, 0x0, 1, 0, 1, 1, 1, 0, .ro, 0, false⟩
  | .STITCH_STATUS_HALTED => ⟨(some .stitch), 0x8, 0x0, 1, 1, 1, 1, 1, 0, .ro, 0, false⟩
  | .STITCH_STATUS_FAULTED => ⟨(some .stitch), 0x8, 0x0, 1, 2, 1, 1, 1, 0, .ro, 0, false⟩
  | .STITCH_STATUS_WAIT_TIME => ⟨(some .stitch), 0x8, 0x0, 1, 3, 1, 1, 1, 0, .ro, 0, false⟩
  | .STITCH_STATUS_WAIT_EVENT => ⟨(some .stitch), 0x8, 0x0, 1, 4, 1, 1, 1, 0, .ro, 0, false⟩
  | .STITCH_STATUS_CREDIT_WAIT => ⟨(some .stitch), 0x8, 0x0, 1, 5, 1, 1, 1, 0, .ro, 0, false⟩
  | .STITCH_STATUS_GANG_WAIT => ⟨(some .stitch), 0x8, 0x0, 1, 6, 1, 1, 1, 0, .ro, 0, false⟩
  | .STITCH_STATUS_MC_PENDING => ⟨(some .stitch), 0x8, 0x0, 1, 7, 1, 1, 1, 0, .ro, 0, false⟩
  | .STITCH_STATUS_MC_BANK => ⟨(some .stitch), 0x8, 0x0, 1, 8, 1, 1, 1, 0, .ro, 0, false⟩
  | .STITCH_PROG_BASE_BASE => ⟨(some .stitch), 0x40, 0x0, 1, 0, 22, 1, 1, 0, .rw, 0, false⟩
  | .STITCH_PROG_LEN_LEN => ⟨(some .stitch), 0x44, 0x0, 1, 0, 15, 1, 1, 0, .rw, 0x4000, false⟩
  | .STITCH_TPL_BASE_BASE => ⟨(some .stitch), 0x48, 0x0, 1, 0, 22, 1, 1, 0, .rw, 0, false⟩
  | .STITCH_START_PC_PC => ⟨(some .stitch), 0x4C, 0x0, 1, 0, 14, 1, 1, 0, .rw, 0, false⟩
  | .STITCH_FAULT_CAUSE => ⟨(some .stitch), 0x54, 0x0, 1, 0, 8, 1, 1, 0, .ro, 0, false⟩
  | .STITCH_FAULT_PC => ⟨(some .stitch), 0x54, 0x0, 1, 8, 14, 1, 1, 0, .ro, 0, false⟩
  | .STITCH_WT_ADV_ADV => ⟨(some .stitch), 0x5C, 0x0, 1, 0, 32, 1, 1, 0, .rw, 0x2000, false⟩
  | .STITCH_LC_GRANT => ⟨(some .stitch), 0x60, 0x0, 1, 0, 1, 64, 32, 1, .rw, 0, false⟩
  | .STITCH_EVIN_CFG_LATCH => ⟨(some .stitch), 0x68, 0x0, 1, 0, 1, 16, 32, 1, .rw, 0, false⟩
  | .STITCH_EVIN_LATCHED_LATCHED => ⟨(some .stitch), 0x6C, 0x0, 1, 0, 1, 16, 32, 1, .w1c, 0, false⟩
  | .STITCH_EVIN_IGNORED_COUNT => ⟨(some .stitch), 0x70, 0x0, 1, 0, 32, 1, 1, 0, .rc, 0, false⟩
  | .STITCH_GANG_TMO_TMO => ⟨(some .stitch), 0x78, 0x0, 1, 0, 16, 1, 1, 0, .rw, 0, false⟩
  | .STITCH_GANG_STAT_FAIL_QUADS => ⟨(some .stitch), 0x7C, 0x0, 1, 0, 12, 1, 1, 0, .ro, 0, false⟩
  | .STITCH_GANG_STAT_REASON => ⟨(some .stitch), 0x7C, 0x0, 1, 12, 4, 1, 1, 0, .ro, 0, false⟩
  | .STITCH_GANG_STAT_GANG => ⟨(some .stitch), 0x7C, 0x0, 1, 16, 2, 1, 1, 0, .ro, 0, false⟩
  | .STITCH_GANG_READY_READY => ⟨(some .stitch), 0x80, 0x0, 1, 0, 1, 4, 4, 1, .ro, 0, false⟩
  | .STITCH_PUSH_CNT_COUNT => ⟨(some .stitch), 0x84, 0x0, 1, 0, 32, 1, 1, 0, .rc, 0, false⟩
  | .STITCH_STALL_CNT_COUNT => ⟨(some .stitch), 0x88, 0x0, 1, 0, 32, 1, 1, 0, .rc, 0, false⟩
  | .STITCH_MC_VER_ACTIVE => ⟨(some .stitch), 0x90, 0x0, 1, 0, 16, 1, 1, 0, .ro, 0, false⟩
  | .STITCH_MC_VER_INACTIVE => ⟨(some .stitch), 0x90, 0x0, 1, 16, 16, 1, 1, 0, .ro, 0, false⟩
  | .TACK_STATUS_READY => ⟨(some .tack), 0x8, 0x0, 1, 0, 1, 1, 1, 0, .ro, 0, false⟩
  | .TACK_STATUS_SWEEP => ⟨(some .tack), 0x8, 0x0, 1, 1, 1, 1, 1, 0, .ro, 0, false⟩
  | .TACK_PUSH_SEL_CH => ⟨(some .tack), 0x48, 0x0, 1, 0, 6, 1, 1, 0, .rw, 0, true⟩
  | .TACK_PUSH_STAT_OPEN => ⟨(some .tack), 0x4C, 0x0, 1, 0, 1, 1, 1, 0, .ro, 0, true⟩
  | .TACK_PUSH_STAT_DISCARDING => ⟨(some .tack), 0x4C, 0x0, 1, 1, 1, 1, 1, 0, .ro, 0, true⟩
  | .TACK_PUSH_STAT_TORN => ⟨(some .tack), 0x4C, 0x0, 1, 2, 1, 1, 1, 0, .w1c, 0, true⟩
  | .TACK_PUSH_STAT_REFUSED => ⟨(some .tack), 0x4C, 0x0, 1, 3, 1, 1, 1, 0, .w1c, 0, true⟩
  | .TACK_PUSH_STAT_WORDS_LEFT => ⟨(some .tack), 0x4C, 0x0, 1, 4, 6, 1, 1, 0, .ro, 0, true⟩
  | .TACK_PUSH_STAT_LAST_SEQ => ⟨(some .tack), 0x4C, 0x0, 1, 16, 16, 1, 1, 0, .ro, 0, true⟩
  | .TACK_CNT_POISON_COUNT => ⟨(some .tack), 0x54, 0x0, 1, 0, 32, 1, 1, 0, .rc, 0, false⟩
  | .TACK_CNT_TORN_COUNT => ⟨(some .tack), 0x58, 0x0, 1, 0, 32, 1, 1, 0, .rc, 0, false⟩
  | .TACK_CNT_LINK_CORRECTED => ⟨(some .tack), 0x5C, 0x0, 1, 0, 16, 1, 1, 0, .rc, 0, false⟩
  | .TACK_CNT_LINK_FAILED => ⟨(some .tack), 0x5C, 0x0, 1, 16, 16, 1, 1, 0, .rc, 0, false⟩
  | .TACK_FENCE_LAST_CH => ⟨(some .tack), 0x60, 0x0, 1, 0, 6, 1, 1, 0, .ro, 0, false⟩
  | .TACK_UNDERRUN => ⟨(some .tack), 0x68, 0x0, 1, 0, 1, 48, 32, 1, .w1c, 0, false⟩
  | .TACK_SPILL => ⟨(some .tack), 0x70, 0x0, 1, 0, 1, 48, 32, 1, .w1c, 0, false⟩
  | .TACK_IDLE_CFG_MODE => ⟨(some .tack), 0x100, 0x4, 48, 0, 2, 1, 1, 0, .rw, 0, false⟩
  | .TACK_QCFG_CRED_STITCH => ⟨(some .tack), 0x200, 0x4, 192, 0, 12, 1, 1, 0, .rw, 0, false⟩
  | .TACK_QCFG_CRED_REG => ⟨(some .tack), 0x200, 0x4, 192, 12, 12, 1, 1, 0, .rw, 0, false⟩
  | .TACK_QCFG_FMODE => ⟨(some .tack), 0x200, 0x4, 192, 24, 1, 1, 1, 0, .rw, 0, false⟩
  | .TACK_QLEVEL_FLUSH_BUSY => ⟨(some .tack), 0x500, 0x4, 192, 28, 1, 1, 1, 0, .ro, 0, false⟩
  | .TACK_QLEVEL_BROKEN => ⟨(some .tack), 0x500, 0x4, 192, 29, 1, 1, 1, 0, .ro, 0, false⟩
  | .TACK_RING_BASE_BASE => ⟨(some .tack), 0xB00, 0x10, 48, 0, 22, 1, 1, 0, .rw, 0, false⟩
  | .TACK_RING_CFG_SIZE_LOG => ⟨(some .tack), 0xB04, 0x10, 48, 0, 3, 1, 1, 0, .rw, 0, false⟩
  | .TACK_RING_CFG_SPLIT => ⟨(some .tack), 0xB04, 0x10, 48, 3, 1, 1, 1, 0, .rw, 0, false⟩
  | .TACK_RING_CFG_EN => ⟨(some .tack), 0xB04, 0x10, 48, 4, 1, 1, 1, 0, .rw, 0, false⟩
  | .TACK_RING_UCNT_COUNT => ⟨(some .tack), 0xB0C, 0x10, 48, 0, 32, 1, 1, 0, .rc, 0, false⟩
  | .OUT_STATUS_STAGE => ⟨(some .out), 0x8, 0x0, 1, 0, 1, 1, 1, 0, .ro, 0, false⟩
  | .OUT_STATUS_HIGHZ => ⟨(some .out), 0x8, 0x0, 1, 2, 1, 1, 1, 0, .ro, 1, false⟩
  | .OUT_STATUS_SPAN_BUSY => ⟨(some .out), 0x8, 0x0, 1, 3, 1, 1, 1, 0, .ro, 0, false⟩
  | .OUT_STATUS_GANG_ACTIVE => ⟨(some .out), 0x8, 0x0, 1, 6, 1, 1, 1, 0, .ro, 0, false⟩
  | .OUT_STATUS_IN_LIMIT => ⟨(some .out), 0x8, 0x0, 1, 7, 1, 1, 1, 0, .ro, 0, false⟩
  | .OUT_STATUS_FOLDBACK => ⟨(some .out), 0x8, 0x0, 1, 8, 1, 1, 1, 0, .ro, 0, false⟩
  | .OUT_STATUS_SENSE_LOCAL => ⟨(some .out), 0x8, 0x0, 1, 9, 1, 1, 1, 0, .ro, 0, false⟩
  | .OUT_STATUS_CORE_SPARE => ⟨(some .out), 0x8, 0x0, 1, 10, 1, 1, 1, 0, .ro, 0, false⟩
  | .OUT_STATUS_NVM_BAD => ⟨(some .out), 0x8, 0x0, 1, 11, 1, 1, 1, 0, .ro, 0, false⟩
  | .OUT_STATUS_FALLBACK => ⟨(some .out), 0x8, 0x0, 1, 12, 1, 1, 1, 0, .ro, 0, false⟩
  | .OUT_STATUS_OVERTEMP => ⟨(some .out), 0x8, 0x0, 1, 13, 1, 1, 1, 0, .ro, 0, false⟩
  | .OUT_STATUS_SPAN_NOW => ⟨(some .out), 0x8, 0x0, 1, 16, 3, 1, 1, 0, .ro, 0, false⟩
  | .OUT_SPANCTL_SPAN => ⟨(some .out), 0x40, 0x0, 1, 0, 3, 1, 1, 0, .sh, 0, false⟩
  | .OUT_UPDCTL_MODE => ⟨(some .out), 0x44, 0x0, 1, 0, 1, 1, 1, 0, .sh, 0, false⟩
  | .OUT_UPDCTL_GSTB => ⟨(some .out), 0x44, 0x0, 1, 1, 2, 1, 1, 0, .sh, 0, false⟩
  | .OUT_FILTCTL_CORNER => ⟨(some .out), 0x48, 0x0, 1, 0, 4, 1, 1, 0, .sh, 8, false⟩
  | .OUT_FILTCTL_SHAPE => ⟨(some .out), 0x48, 0x0, 1, 4, 1, 1, 1, 0, .sh, 0, false⟩
  | .OUT_FILTCTL_BYPASS => ⟨(some .out), 0x48, 0x0, 1, 5, 1, 1, 1, 0, .sh, 1, false⟩
  | .OUT_STAGECTL_PREFER => ⟨(some .out), 0x4C, 0x0, 1, 0, 1, 1, 1, 0, .rw, 0, false⟩
  | .OUT_STAGECTL_AUTO_SWITCH => ⟨(some .out), 0x4C, 0x0, 1, 2, 1, 1, 1, 0, .rw, 1, false⟩
  | .OUT_STAGECTL_SENSE_MODE => ⟨(some .out), 0x4C, 0x0, 1, 3, 1, 1, 1, 0, .rw, 0, false⟩
  | .OUT_STAGECTL_AUTO_LOCAL => ⟨(some .out), 0x4C, 0x0, 1, 4, 1, 1, 1, 0, .rw, 1, false⟩
  | .OUT_STAGE_STAT_A_FAILED => ⟨(some .out), 0x50, 0x0, 1, 0, 1, 1, 1, 0, .ro, 0, false⟩
  | .OUT_STAGE_STAT_B_FAILED => ⟨(some .out), 0x50, 0x0, 1, 1, 1, 1, 1, 0, .ro, 0, false⟩
  | .OUT_STAGE_STAT_REQ_REFUSED => ⟨(some .out), 0x50, 0x0, 1, 2, 1, 1, 1, 0, .w1c, 0, false⟩
  | .OUT_STAGE_STAT_LAST_CAUSE => ⟨(some .out), 0x50, 0x0, 1, 4, 2, 1, 1, 0, .ro, 0, false⟩
  | .OUT_STAGE_STAT_SWITCH_CNT => ⟨(some .out), 0x50, 0x0, 1, 16, 16, 1, 1, 0, .ro, 0, false⟩
  | .OUT_PROTCFG_AUTO_RETRY => ⟨(some .out), 0x54, 0x0, 1, 0, 1, 1, 1, 0, .rw, 0, false⟩
  | .OUT_NV_WAKE_VAL => ⟨(some .out), 0x58, 0x0, 1, 0, 21, 1, 1, 0, .rw, 0, false⟩
  | .OUT_NV_WAKE_SPAN => ⟨(some .out), 0x58, 0x0, 1, 24, 3, 1, 1, 0, .rw, 0, false⟩
  | .OUT_NV_FAULT_VAL => ⟨(some .out), 0x5C, 0x0, 1, 0, 21, 1, 1, 0, .rw, 0, false⟩
  | .OUT_NV_SAFE_VAL => ⟨(some .out), 0x60, 0x0, 1, 0, 21, 1, 1, 0, .rw, 0, false⟩
  | .OUT_NVM_STAT_BUSY => ⟨(some .out), 0x68, 0x0, 1, 0, 1, 1, 1, 0, .ro, 0, false⟩
  | .OUT_NVM_STAT_DONE => ⟨(some .out), 0x68, 0x0, 1, 1, 1, 1, 1, 0, .w1c, 0, false⟩
  | .OUT_NVM_STAT_ERR => ⟨(some .out), 0x68, 0x0, 1, 2, 2, 1, 1, 0, .ro, 0, false⟩
  | .OUT_NVM_STAT_CYCLES => ⟨(some .out), 0x68, 0x0, 1, 16, 16, 1, 1, 0, .ro, 0, false⟩
  | .OUT_FAULT_CTL_FORCE => ⟨(some .out), 0x6C, 0x0, 1, 0, 1, 1, 1, 0, .rw, 0, false⟩
  | .OUT_FAULT_CTL_WD_EN => ⟨(some .out), 0x6C, 0x0, 1, 2, 1, 1, 1, 0, .rw, 1, false⟩
  | .OUT_FAULT_STAT_SQ_UNDERRUN => ⟨(some .out), 0x70, 0x0, 1, 0, 1, 1, 1, 0, .ro, 0, false⟩
  | .OUT_FAULT_STAT_REPEAT_FAIL => ⟨(some .out), 0x70, 0x0, 1, 1, 1, 1, 1, 0, .ro, 0, false⟩
  | .OUT_FAULT_STAT_CORE_LOST => ⟨(some .out), 0x70, 0x0, 1, 2, 1, 1, 1, 0, .ro, 0, false⟩
  | .OUT_FAULT_STAT_WATCHDOG => ⟨(some .out), 0x70, 0x0, 1, 3, 1, 1, 1, 0, .ro, 0, false⟩
  | .OUT_FAULT_STAT_FORCED => ⟨(some .out), 0x70, 0x0, 1, 4, 1, 1, 1, 0, .ro, 0, false⟩
  | .OUT_SQ_UCNT_COUNT => ⟨(some .out), 0x74, 0x0, 1, 0, 32, 1, 1, 0, .rc, 0, false⟩
  | .OUT_SC_CNT_SHORTS => ⟨(some .out), 0x7C, 0x0, 1, 0, 16, 1, 1, 0, .rc, 0, false⟩
  | .OUT_SC_CNT_OVERTEMPS => ⟨(some .out), 0x7C, 0x0, 1, 16, 16, 1, 1, 0, .rc, 0, false⟩
  | .BURNISH_STATUS_ROTATING => ⟨(some .burnish), 0x8, 0x0, 1, 0, 1, 4, 4, 1, .ro, 0, false⟩
  | .BURNISH_STATUS_CAPTURING => ⟨(some .burnish), 0x8, 0x0, 1, 4, 1, 4, 4, 1, .ro, 0, false⟩
  | .BURNISH_STATUS_NVM_SAVING => ⟨(some .burnish), 0x8, 0x0, 1, 8, 1, 1, 1, 0, .ro, 0, false⟩
  | .BURNISH_STATUS_REF_OK => ⟨(some .burnish), 0x8, 0x0, 1, 9, 1, 1, 1, 0, .ro, 1, false⟩
  | .BURNISH_BCFG_AUTO => ⟨(some .burnish), 0x40, 0x0, 1, 0, 1, 1, 1, 0, .rw, 1, false⟩
  | .BURNISH_BCFG_DITHER_EN => ⟨(some .burnish), 0x40, 0x0, 1, 1, 1, 1, 1, 0, .rw, 1, false⟩
  | .BURNISH_BCFG_TIER_EN => ⟨(some .burnish), 0x40, 0x0, 1, 4, 1, 4, 4, 1, .rw, 1, false⟩
  | .BURNISH_BCFG_SAVE_HOURS => ⟨(some .burnish), 0x40, 0x0, 1, 8, 16, 1, 1, 0, .rw, 168, false⟩
  | .BURNISH_INTERVAL_MS => ⟨(some .burnish), 0x44, 0x0, 1, 0, 32, 1, 1, 0, .rw, 0x2710, false⟩
  | .BURNISH_WINDOWS_CAL_LOG2 => ⟨(some .burnish), 0x48, 0x0, 1, 0, 5, 1, 1, 0, .rw, 20, false⟩
  | .BURNISH_WINDOWS_MATCH_LOG2 => ⟨(some .burnish), 0x48, 0x0, 1, 8, 5, 1, 1, 0, .rw, 16, false⟩
  | .BURNISH_WINDOWS_VERIFY_LOG2 => ⟨(some .burnish), 0x48, 0x0, 1, 16, 5, 1, 1, 0, .rw, 18, false⟩
  | .BURNISH_MATCH_TOL_LSB => ⟨(some .burnish), 0x4C, 0x0, 1, 0, 8, 1, 1, 0, .rw, 4, false⟩
  | .BURNISH_ROT_CNT_COUNT => ⟨(some .burnish), 0x50, 0x0, 1, 0, 32, 1, 1, 0, .ro, 0, false⟩
  | .BURNISH_REF_DEV_PPM => ⟨(some .burnish), 0x54, 0x0, 1, 0, 16, 1, 1, 0, .ro, 0, false⟩
  | .BURNISH_CAP_CTRL_CAP_SRC => ⟨(some .burnish), 0x80, 0x20, 4, 0, 5, 1, 1, 0, .rw, 0, false⟩
  | .BURNISH_CAP_CTRL_AT_LC => ⟨(some .burnish), 0x80, 0x20, 4, 7, 1, 1, 1, 0, .rw, 0, false⟩
  | .BURNISH_CAP_CTRL_CAP_LC => ⟨(some .burnish), 0x80, 0x20, 4, 8, 6, 1, 1, 0, .rw, 0, false⟩
  | .BURNISH_CAP_CTRL_BUSY => ⟨(some .burnish), 0x80, 0x20, 4, 16, 1, 1, 1, 0, .ro, 0, false⟩
  | .BURNISH_CAP_CTRL_REFUSED => ⟨(some .burnish), 0x80, 0x20, 4, 17, 1, 1, 1, 0, .w1c, 0, false⟩
  | .BURNISH_CAP_ADDR_LO_ADDR => ⟨(some .burnish), 0x84, 0x20, 4, 0, 32, 1, 1, 0, .rw, 0, false⟩
  | .BURNISH_CAP_ADDR_HI_ADDR => ⟨(some .burnish), 0x88, 0x20, 4, 0, 8, 1, 1, 0, .rw, 0, false⟩
  | .BURNISH_CAP_COUNT_COUNT => ⟨(some .burnish), 0x8C, 0x20, 4, 0, 24, 1, 1, 0, .rw, 0, false⟩
  | .BURNISH_CAP_DONE_COUNT => ⟨(some .burnish), 0x90, 0x20, 4, 0, 24, 1, 1, 0, .ro, 0, false⟩
  | .SPARE_STATUS_PHASE => ⟨(some .spare), 0x8, 0x0, 1, 0, 4, 1, 1, 0, .ro, 0, false⟩
  | .SPARE_STATUS_SPARE_CORE => ⟨(some .spare), 0x8, 0x0, 1, 4, 4, 1, 1, 0, .ro, 0, false⟩
  | .SPARE_STATUS_CAL_CORE => ⟨(some .spare), 0x8, 0x0, 1, 8, 4, 1, 1, 0, .ro, 15, false⟩
  | .SPARE_STATUS_VISIT_POS => ⟨(some .spare), 0x8, 0x0, 1, 12, 4, 1, 1, 0, .ro, 15, false⟩
  | .SPARE_STATUS_SPARE_FREE => ⟨(some .spare), 0x8, 0x0, 1, 16, 1, 1, 1, 0, .ro, 0, false⟩
  | .SPARE_STATUS_FAILOVER_BUSY => ⟨(some .spare), 0x8, 0x0, 1, 17, 1, 1, 1, 0, .ro, 0, false⟩
  | .SPARE_CORE_MAP => ⟨(some .spare), 0x40, 0x0, 1, 0, 4, 12, 8, 4, .ro, 0, false⟩
  | .SPARE_CORE_STATE_ROLE => ⟨(some .spare), 0x48, 0x0, 1, 0, 2, 13, 16, 2, .ro, 0, false⟩
  | .SPARE_SKIP_EXCLUDE => ⟨(some .spare), 0x4C, 0x0, 1, 0, 1, 12, 32, 1, .rw, 0, false⟩
  | .SPARE_SKIP_SUSPECT => ⟨(some .spare), 0x4C, 0x0, 1, 16, 1, 12, 32, 1, .w1c, 0, false⟩
  | .SPARE_LAST_FAIL_POS => ⟨(some .spare), 0x58, 0x0, 1, 0, 4, 1, 1, 0, .ro, 0, false⟩
  | .SPARE_LAST_FAIL_CORE => ⟨(some .spare), 0x58, 0x0, 1, 4, 4, 1, 1, 0, .ro, 0, false⟩
  | .SPARE_LAST_FAIL_CAUSE => ⟨(some .spare), 0x58, 0x0, 1, 8, 2, 1, 1, 0, .ro, 0, false⟩
  | .SPARE_FAIL_CNT_FAILOVERS => ⟨(some .spare), 0x5C, 0x0, 1, 0, 16, 1, 1, 0, .rc, 0, false⟩
  | .SPARE_FAIL_CNT_RETIRES => ⟨(some .spare), 0x5C, 0x0, 1, 16, 16, 1, 1, 0, .rc, 0, false⟩
  | .SPARE_MATCH_RES_OFFSET => ⟨(some .spare), 0x60, 0x0, 1, 0, 16, 1, 1, 0, .ro, 0, false⟩
  | .SPARE_MATCH_RES_GAIN => ⟨(some .spare), 0x60, 0x0, 1, 16, 16, 1, 1, 0, .ro, 0, false⟩
  | .SPARE_RESIDUAL_INL_EST => ⟨(some .spare), 0x64, 0x0, 1, 0, 8, 1, 1, 0, .ro, 0, false⟩
  | .SPARE_RESIDUAL_COVERAGE => ⟨(some .spare), 0x64, 0x0, 1, 8, 6, 1, 1, 0, .ro, 0, false⟩
  | .SPARE_RESIDUAL_LADDER_COV => ⟨(some .spare), 0x64, 0x0, 1, 16, 4, 1, 1, 0, .ro, 0, false⟩
  | .SPARE_MON_DEV_OFFSET => ⟨(some .spare), 0x80, 0x4, 12, 0, 16, 1, 1, 0, .ro, 0, false⟩
  | .SPARE_MON_DEV_GAIN => ⟨(some .spare), 0x80, 0x4, 12, 16, 16, 1, 1, 0, .ro, 0, false⟩
  | .SPARE_ELEM_TRIM_E => ⟨(some .spare), 0x100, 0x60, 13, 0, 8, 64, 4, 8, .ro, 0, false⟩
  | .SPARE_LADDER_TRIM_L => ⟨(some .spare), 0x140, 0x60, 13, 0, 8, 16, 4, 8, .ro, 0, false⟩
  | .SPARE_GO_TRIM_GAIN => ⟨(some .spare), 0x150, 0x60, 13, 0, 16, 1, 1, 0, .ro, 0, false⟩
  | .SPARE_GO_TRIM_OFFSET => ⟨(some .spare), 0x150, 0x60, 13, 16, 16, 1, 1, 0, .ro, 0, false⟩
  | .SPARE_CAL_AGE_HOURS => ⟨(some .spare), 0x154, 0x60, 13, 0, 32, 1, 1, 0, .ro, 0, false⟩
  | .SPARE_CAL_COUNT_COUNT => ⟨(some .spare), 0x158, 0x60, 13, 0, 32, 1, 1, 0, .ro, 0, false⟩
  | .SPARE_STAGE_TRIM_GAIN => ⟨(some .spare), 0x700, 0x4, 96, 0, 16, 1, 1, 0, .ro, 0, false⟩
  | .SPARE_STAGE_TRIM_OFFSET => ⟨(some .spare), 0x700, 0x4, 96, 16, 16, 1, 1, 0, .ro, 0, false⟩
  | .HARNESS_STATUS_LOOP_PRESENT => ⟨(some .harness), 0x8, 0x0, 1, 0, 1, 1, 1, 0, .ro, 0, false⟩
  | .HARNESS_SVC_CTL_FORCE_HOLD => ⟨(some .harness), 0x40, 0x0, 1, 0, 1, 1, 1, 0, .rw, 1, false⟩
  | .HARNESS_LCNT_SEL_LINE => ⟨(some .harness), 0x48, 0x0, 1, 0, 7, 1, 1, 0, .rw, 0, true⟩
  | .HARNESS_LCNT_FIRED_FIRED => ⟨(some .harness), 0x4C, 0x0, 1, 0, 32, 1, 1, 0, .rc, 0, false⟩
  | .HARNESS_LCNT_MERGE_COINCIDENT => ⟨(some .harness), 0x50, 0x0, 1, 0, 16, 1, 1, 0, .rc, 0, false⟩
  | .HARNESS_LCNT_MERGE_SUPPRESSED => ⟨(some .harness), 0x50, 0x0, 1, 16, 16, 1, 1, 0, .rc, 0, false⟩
  | .HARNESS_LCNT_OVR_OVERRUN => ⟨(some .harness), 0x54, 0x0, 1, 0, 16, 1, 1, 0, .rc, 0, false⟩
  | .HARNESS_STORM_PROF_THR => ⟨(some .harness), 0x80, 0x4, 4, 0, 16, 1, 1, 0, .rw, 0, false⟩
  | .HARNESS_STORM_PROF_WIN_LOG2 => ⟨(some .harness), 0x80, 0x4, 4, 16, 5, 1, 1, 0, .rw, 16, false⟩
  | .HARNESS_STATSEL_KIND => ⟨(some .harness), 0x90, 0x4, 16, 0, 5, 1, 1, 0, .rw, 0, false⟩
  | .HARNESS_STATSEL_INST => ⟨(some .harness), 0x90, 0x4, 16, 8, 8, 1, 1, 0, .rw, 255, false⟩
  | .HARNESS_GSTB_OVR_OVR => ⟨(some .harness), 0xD0, 0x0, 1, 0, 1, 4, 32, 1, .w1c, 0, false⟩
  | .HARNESS_CAPU_CFG_LEVEL => ⟨(some .harness), 0x100, 0x10, 16, 0, 3, 1, 1, 0, .ro, 0, false⟩
  | .HARNESS_CAPU_CFG_OVR => ⟨(some .harness), 0x100, 0x10, 16, 3, 1, 1, 1, 0, .w1c, 0, false⟩
  | .HARNESS_CAPU_CFG_OWNER => ⟨(some .harness), 0x100, 0x10, 16, 24, 5, 1, 1, 0, .ro, 0, false⟩
  | .HARNESS_CAPU_CFG_CLAIMED => ⟨(some .harness), 0x100, 0x10, 16, 31, 1, 1, 1, 0, .rw, 0, false⟩
  | .HARNESS_CAPU_INFO_FRAC => ⟨(some .harness), 0x104, 0x10, 16, 0, 8, 1, 1, 0, .ro, 0, false⟩
  | .HARNESS_CAPU_INFO_SLOTS => ⟨(some .harness), 0x104, 0x10, 16, 8, 8, 1, 1, 0, .ro, 0, false⟩
  | .HARNESS_CAPU_INFO_VALID => ⟨(some .harness), 0x104, 0x10, 16, 16, 1, 1, 1, 0, .ro, 0, false⟩
  | .HARNESS_CAPU_INFO_PAT_STAMP => ⟨(some .harness), 0x104, 0x10, 16, 17, 1, 1, 1, 0, .ro, 0, false⟩
  | .HARNESS_CAPU_TIME_LO_C_LO => ⟨(some .harness), 0x108, 0x10, 16, 0, 32, 1, 1, 0, .ro, 0, true⟩
  | .HARNESS_CAPU_TIME_HI_C_HI => ⟨(some .harness), 0x10C, 0x10, 16, 0, 32, 1, 1, 0, .ro, 0, true⟩
  | .HARNESS_SOVR_OVR => ⟨(some .harness), 0x200, 0x4, 12, 0, 1, 16, 32, 1, .w1c, 0, false⟩
  | .HARNESS_LINE_CFG_DST => ⟨(some .harness), 0x400, 0x4, 128, 0, 9, 1, 1, 0, .rw, 0, false⟩
  | .HARNESS_LINE_CFG_EN => ⟨(some .harness), 0x400, 0x4, 128, 9, 1, 1, 1, 0, .rw, 0, false⟩
  | .HARNESS_LINE_CFG_SVC => ⟨(some .harness), 0x400, 0x4, 128, 10, 1, 1, 1, 0, .rw, 0, false⟩
  | .HARNESS_LINE_CFG_SEC => ⟨(some .harness), 0x400, 0x4, 128, 11, 1, 1, 1, 0, .rw, 0, false⟩
  | .HARNESS_LINE_CFG_REARM => ⟨(some .harness), 0x400, 0x4, 128, 12, 12, 1, 1, 0, .rw, 0, false⟩
  | .HARNESS_LINE_CFG_OWNER => ⟨(some .harness), 0x400, 0x4, 128, 24, 5, 1, 1, 0, .ro, 0, false⟩
  | .HARNESS_LINE_CFG_SPROF => ⟨(some .harness), 0x400, 0x4, 128, 29, 2, 1, 1, 0, .rw, 0, false⟩
  | .HARNESS_LINE_CFG_CLAIMED => ⟨(some .harness), 0x400, 0x4, 128, 31, 1, 1, 1, 0, .rw, 0, false⟩
  | .HARNESS_LINE_STAT_LAST_SLOTS => ⟨(some .harness), 0x600, 0x4, 128, 0, 8, 1, 1, 0, .ro, 0, false⟩
  | .HARNESS_LINE_STAT_PENDING => ⟨(some .harness), 0x600, 0x4, 128, 8, 1, 1, 1, 0, .ro, 0, false⟩
  | .HARNESS_LINE_STAT_STORM => ⟨(some .harness), 0x600, 0x4, 128, 9, 1, 1, 1, 0, .w1c, 0, false⟩
  | .HARNESS_LINE_STAT_LOOP => ⟨(some .harness), 0x600, 0x4, 128, 10, 1, 1, 1, 0, .ro, 0, false⟩
  | .HARNESS_LINE_SRC_SLOT => ⟨(some .harness), 0x800, 0x10, 128, 0, 9, 8, 2, 16, .rw, 0, false⟩
  | .PAT_STATUS_BANK_V => ⟨(some .pat), 0x8, 0x0, 1, 0, 1, 4, 4, 1, .ro, 0, false⟩
  | .PAT_STATUS_BANK_OK => ⟨(some .pat), 0x8, 0x0, 1, 4, 1, 4, 4, 1, .ro, 0, false⟩
  | .PAT_PAT_DROP_COUNT => ⟨(some .pat), 0x48, 0x0, 1, 0, 32, 1, 1, 0, .rc, 0, false⟩
  | .PAT_PAT_OVR_OVR => ⟨(some .pat), 0x4C, 0x0, 1, 0, 1, 32, 32, 1, .w1c, 0, false⟩
  | .PAT_PIN_CFG_FUNC => ⟨(some .pat), 0x100, 0x4, 32, 0, 2, 1, 1, 0, .rw, 0, false⟩
  | .PAT_PIN_CFG_OMODE => ⟨(some .pat), 0x100, 0x4, 32, 2, 1, 1, 1, 0, .rw, 0, false⟩
  | .PAT_PIN_CFG_INVERT => ⟨(some .pat), 0x100, 0x4, 32, 3, 1, 1, 1, 0, .rw, 0, false⟩
  | .PAT_PIN_CFG_ODRAIN => ⟨(some .pat), 0x100, 0x4, 32, 4, 1, 1, 1, 0, .rw, 0, false⟩
  | .PAT_PIN_CFG_DRIVE => ⟨(some .pat), 0x100, 0x4, 32, 5, 1, 1, 1, 0, .rw, 0, false⟩
  | .PAT_PIN_CFG_EDGE => ⟨(some .pat), 0x100, 0x4, 32, 6, 2, 1, 1, 0, .rw, 0, false⟩
  | .PAT_PIN_CFG_FILT => ⟨(some .pat), 0x100, 0x4, 32, 8, 4, 1, 1, 0, .rw, 0, false⟩
  | .PAT_PIN_CFG_CH => ⟨(some .pat), 0x100, 0x4, 32, 12, 6, 1, 1, 0, .rw, 0, false⟩
  | .PAT_PIN_CFG_GSTB => ⟨(some .pat), 0x100, 0x4, 32, 18, 2, 1, 1, 0, .rw, 0, false⟩
  | .PAT_PIN_CFG_OWNER => ⟨(some .pat), 0x100, 0x4, 32, 24, 5, 1, 1, 0, .ro, 0, false⟩
  | .PAT_PIN_CFG_CLAIMED => ⟨(some .pat), 0x100, 0x4, 32, 31, 1, 1, 1, 0, .rw, 0, false⟩
  | .PAT_PIN_PULSE_PULSE => ⟨(some .pat), 0x180, 0x4, 32, 0, 8, 1, 1, 0, .rw, 1, false⟩
  | .QUARRY_STATUS_READY => ⟨(some .quarry), 0x8, 0x0, 1, 0, 1, 1, 1, 0, .ro, 0, false⟩
  | .QUARRY_STATUS_DEGRADED => ⟨(some .quarry), 0x8, 0x0, 1, 1, 1, 1, 1, 0, .ro, 0, false⟩
  | .QUARRY_STATUS_MIGRATING => ⟨(some .quarry), 0x8, 0x0, 1, 2, 1, 1, 1, 0, .ro, 0, false⟩
  | .QUARRY_STATUS_OP_PENDING => ⟨(some .quarry), 0x8, 0x0, 1, 3, 1, 1, 1, 0, .ro, 0, false⟩
  | .QUARRY_STATUS_SELF_REFRESH => ⟨(some .quarry), 0x8, 0x0, 1, 4, 1, 1, 1, 0, .ro, 0, false⟩
  | .QUARRY_STATUS_OP_NOW => ⟨(some .quarry), 0x8, 0x0, 1, 5, 2, 1, 1, 0, .ro, 0, false⟩
  | .QUARRY_STATUS_RESHAPING => ⟨(some .quarry), 0x8, 0x0, 1, 7, 1, 1, 1, 0, .ro, 0, false⟩
  | .QUARRY_STATUS_INIT_DONE => ⟨(some .quarry), 0x8, 0x0, 1, 8, 1, 1, 1, 0, .ro, 0, false⟩
  | .QUARRY_QRY_CFG_PAGE_IDLE => ⟨(some .quarry), 0x40, 0x0, 1, 0, 8, 1, 1, 0, .rw, 20, false⟩
  | .QUARRY_QRY_CFG_ROWHIT_MAX => ⟨(some .quarry), 0x40, 0x0, 1, 8, 5, 1, 1, 0, .rw, 16, false⟩
  | .QUARRY_QRY_CFG_SCRUB_EN => ⟨(some .quarry), 0x40, 0x0, 1, 16, 1, 1, 1, 0, .rw, 1, false⟩
  | .QUARRY_OPCTL_TARGET => ⟨(some .quarry), 0x44, 0x0, 1, 0, 2, 1, 1, 0, .rw, 0, false⟩
  | .QUARRY_OPCTL_AT_LC => ⟨(some .quarry), 0x44, 0x0, 1, 3, 1, 1, 1, 0, .rw, 0, false⟩
  | .QUARRY_OPCTL_LC => ⟨(some .quarry), 0x44, 0x0, 1, 4, 6, 1, 1, 0, .rw, 0, false⟩
  | .QUARRY_OPCTL_ABORT_MAX => ⟨(some .quarry), 0x44, 0x0, 1, 16, 4, 1, 1, 0, .rw, 8, false⟩
  | .QUARRY_OP_STAT_ABORTS => ⟨(some .quarry), 0x48, 0x0, 1, 0, 8, 1, 1, 0, .ro, 0, false⟩
  | .QUARRY_OP_STAT_FORCED => ⟨(some .quarry), 0x48, 0x0, 1, 8, 1, 1, 1, 0, .ro, 0, false⟩
  | .QUARRY_OP_STAT_LAST_OUTAGE => ⟨(some .quarry), 0x48, 0x0, 1, 16, 16, 1, 1, 0, .ro, 0, false⟩
  | .QUARRY_LRMAP_MAP => ⟨(some .quarry), 0x4C, 0x0, 1, 0, 4, 7, 8, 4, .ro, 0, false⟩
  | .QUARRY_LRMAP_SPARE => ⟨(some .quarry), 0x4C, 0x0, 1, 28, 4, 1, 1, 0, .ro, 0, false⟩
  | .QUARRY_RANK_STATE_STATE => ⟨(some .quarry), 0x50, 0x0, 1, 0, 4, 8, 8, 4, .ro, 0, false⟩
  | .QUARRY_CAPACITY_N_ACTIVE => ⟨(some .quarry), 0x54, 0x0, 1, 0, 3, 1, 1, 0, .ro, 0, false⟩
  | .QUARRY_CAPACITY_WAVE_GIB => ⟨(some .quarry), 0x54, 0x0, 1, 8, 8, 1, 1, 0, .ro, 0, false⟩
  | .QUARRY_MIG_CTL_RATE => ⟨(some .quarry), 0x58, 0x0, 1, 8, 5, 1, 1, 0, .rw, 20, false⟩
  | .QUARRY_MIG_PTR_UNIT => ⟨(some .quarry), 0x5C, 0x0, 1, 0, 25, 1, 1, 0, .ro, 0, false⟩
  | .QUARRY_MIG_PTR_LGRANK => ⟨(some .quarry), 0x5C, 0x0, 1, 25, 3, 1, 1, 0, .ro, 0, false⟩
  | .QUARRY_MIG_PTR_CAUSE => ⟨(some .quarry), 0x5C, 0x0, 1, 28, 4, 1, 1, 0, .ro, 0, false⟩
  | .QUARRY_UE_ADDR_LO_ADDR => ⟨(some .quarry), 0x60, 0x0, 1, 0, 32, 1, 1, 0, .ro, 0, false⟩
  | .QUARRY_UE_ADDR_HI_ADDR => ⟨(some .quarry), 0x64, 0x0, 1, 0, 8, 1, 1, 0, .ro, 0, false⟩
  | .QUARRY_UE_ADDR_HI_RANK => ⟨(some .quarry), 0x64, 0x0, 1, 8, 3, 1, 1, 0, .ro, 0, false⟩
  | .QUARRY_UE_ADDR_HI_BANK => ⟨(some .quarry), 0x64, 0x0, 1, 11, 4, 1, 1, 0, .ro, 0, false⟩
  | .QUARRY_ECC_CNT_CE => ⟨(some .quarry), 0x68, 0x0, 1, 0, 16, 1, 1, 0, .rc, 0, false⟩
  | .QUARRY_ECC_CNT_UE => ⟨(some .quarry), 0x68, 0x0, 1, 16, 16, 1, 1, 0, .rc, 0, false⟩
  | .QUARRY_ECC_CFG_CE_THR => ⟨(some .quarry), 0x6C, 0x0, 1, 0, 16, 1, 1, 0, .rw, 1024, false⟩
  | .QUARRY_ECC_CFG_SCRUB_HOURS => ⟨(some .quarry), 0x6C, 0x0, 1, 16, 8, 1, 1, 0, .rw, 24, false⟩
  | .QUARRY_RD_CFG_RD_THR => ⟨(some .quarry), 0x74, 0x0, 1, 0, 16, 1, 1, 0, .rw, 0x1000, false⟩
  | .QUARRY_RD_CFG_RD_GAP => ⟨(some .quarry), 0x74, 0x0, 1, 16, 8, 1, 1, 0, .rw, 20, false⟩
  | .QUARRY_RD_STAT_THROTTLED => ⟨(some .quarry), 0x78, 0x0, 1, 0, 1, 8, 8, 1, .ro, 0, false⟩
  | .QUARRY_RD_STAT_EVENTS => ⟨(some .quarry), 0x78, 0x0, 1, 16, 16, 1, 1, 0, .rc, 0, false⟩
  | .QUARRY_INIT_PROG_PERCENT => ⟨(some .quarry), 0x7C, 0x0, 1, 0, 7, 1, 1, 0, .ro, 0, false⟩
  | .QUARRY_GEN_GEN => ⟨(some .quarry), 0x80, 0x0, 1, 0, 32, 1, 1, 0, .ro, 0, false⟩
  | .QUARRY_PORT_TGT_TGT => ⟨(some .quarry), 0x100, 0x10, 8, 0, 16, 1, 1, 0, .rw, 0, false⟩
  | .QUARRY_PORT_STAT_URG => ⟨(some .quarry), 0x104, 0x10, 8, 0, 2, 1, 1, 0, .ro, 0, false⟩
  | .QUARRY_PORT_STAT_THROTTLED => ⟨(some .quarry), 0x104, 0x10, 8, 2, 1, 1, 1, 0, .ro, 0, false⟩
  | .QUARRY_PORT_STAT_OUTSTANDING => ⟨(some .quarry), 0x104, 0x10, 8, 8, 8, 1, 1, 0, .ro, 0, false⟩
  | .QUARRY_PORT_LAT_MAX_LAT => ⟨(some .quarry), 0x108, 0x10, 8, 0, 32, 1, 1, 0, .rc, 0, false⟩
  | .QUARRY_PORT_MISS_COUNT => ⟨(some .quarry), 0x10C, 0x10, 8, 0, 32, 1, 1, 0, .rc, 0, false⟩
  | .QPHY_STATUS_PLL0_LOCK => ⟨(some .qphy), 0x8, 0x0, 1, 0, 1, 1, 1, 0, .ro, 0, false⟩
  | .QPHY_STATUS_PLL1_LOCK => ⟨(some .qphy), 0x8, 0x0, 1, 1, 1, 1, 1, 0, .ro, 0, false⟩
  | .QPHY_STATUS_TRAINING => ⟨(some .qphy), 0x8, 0x0, 1, 2, 1, 1, 1, 0, .ro, 0, false⟩
  | .QPHY_TRN_SEL_CH => ⟨(some .qphy), 0x40, 0x0, 1, 0, 2, 1, 1, 0, .rw, 0, false⟩
  | .QPHY_TRN_SEL_CS => ⟨(some .qphy), 0x40, 0x0, 1, 2, 1, 1, 1, 0, .rw, 0, false⟩
  | .QPHY_TRN_SEL_OP => ⟨(some .qphy), 0x40, 0x0, 1, 3, 2, 1, 1, 0, .rw, 0, false⟩
  | .QPHY_TRN_SEL_SET => ⟨(some .qphy), 0x40, 0x0, 1, 5, 1, 1, 1, 0, .rw, 0, false⟩
  | .QPHY_TRN_CTL_MODE => ⟨(some .qphy), 0x44, 0x0, 1, 0, 3, 1, 1, 0, .rw, 0, false⟩
  | .QPHY_PAT_CFG_KIND => ⟨(some .qphy), 0x48, 0x0, 1, 0, 2, 1, 1, 0, .rw, 1, false⟩
  | .QPHY_PAT_CFG_BURSTS => ⟨(some .qphy), 0x48, 0x0, 1, 8, 8, 1, 1, 0, .rw, 64, false⟩
  | .QPHY_PAT_CFG_SEED => ⟨(some .qphy), 0x48, 0x0, 1, 16, 16, 1, 1, 0, .rw, 1, false⟩
  | .QPHY_PAT_USER_PATTERN => ⟨(some .qphy), 0x4C, 0x0, 1, 0, 32, 1, 1, 0, .rw, 0x55aa33cc, false⟩
  | .QPHY_CMP_STAT_FAIL => ⟨(some .qphy), 0x50, 0x0, 1, 0, 16, 1, 1, 0, .ro, 0, false⟩
  | .QPHY_CMP_STAT_DONE => ⟨(some .qphy), 0x50, 0x0, 1, 16, 1, 1, 1, 0, .ro, 0, false⟩
  | .QPHY_CMP_STAT_BUSY => ⟨(some .qphy), 0x50, 0x0, 1, 17, 1, 1, 1, 0, .ro, 0, false⟩
  | .QPHY_CMP_ERRCNT_COUNT => ⟨(some .qphy), 0x54, 0x0, 1, 0, 32, 1, 1, 0, .rc, 0, false⟩
  | .QPHY_DLY_SEL_KIND => ⟨(some .qphy), 0x58, 0x0, 1, 0, 3, 1, 1, 0, .rw, 0, false⟩
  | .QPHY_DLY_SEL_BIT => ⟨(some .qphy), 0x58, 0x0, 1, 4, 4, 1, 1, 0, .rw, 0, false⟩
  | .QPHY_TSET_CTL_ACTIVE => ⟨(some .qphy), 0x60, 0x0, 1, 0, 1, 1, 1, 0, .ro, 0, false⟩
  | .QPHY_TSET_CTL_A_OP => ⟨(some .qphy), 0x60, 0x0, 1, 1, 2, 1, 1, 0, .rw, 0, false⟩
  | .QPHY_TSET_CTL_A_VALID => ⟨(some .qphy), 0x60, 0x0, 1, 3, 1, 1, 1, 0, .rw, 0, false⟩
  | .QPHY_TSET_CTL_B_OP => ⟨(some .qphy), 0x60, 0x0, 1, 4, 2, 1, 1, 0, .rw, 0, false⟩
  | .QPHY_TSET_CTL_B_VALID => ⟨(some .qphy), 0x60, 0x0, 1, 6, 1, 1, 1, 0, .rw, 0, false⟩
  | .QPHY_DRIFT_CFG_MS => ⟨(some .qphy), 0x64, 0x0, 1, 0, 16, 1, 1, 0, .rw, 100, false⟩
  | .QPHY_DRIFT_STAT_MAX_STEP => ⟨(some .qphy), 0x68, 0x0, 1, 0, 8, 1, 1, 0, .rc, 0, false⟩
  | .BENCH_STATUS_READY => ⟨(some .bench), 0x8, 0x0, 1, 0, 1, 1, 1, 0, .ro, 0, false⟩
  | .BENCH_STATUS_SPARE_FREE => ⟨(some .bench), 0x8, 0x0, 1, 1, 1, 1, 1, 0, .ro, 1, false⟩
  | .BENCH_STATUS_BIST_BUSY => ⟨(some .bench), 0x8, 0x0, 1, 2, 1, 1, 1, 0, .ro, 0, false⟩
  | .BENCH_STATUS_REPLACING => ⟨(some .bench), 0x8, 0x0, 1, 3, 1, 1, 1, 0, .ro, 0, false⟩
  | .BENCH_STATUS_SPARE_COVER => ⟨(some .bench), 0x8, 0x0, 1, 4, 5, 1, 1, 0, .ro, 0, false⟩
  | .BENCH_STATUS_THERMAL_DEEP => ⟨(some .bench), 0x8, 0x0, 1, 9, 1, 1, 1, 0, .ro, 0, false⟩
  | .BENCH_BPWR_CFG_MODE => ⟨(some .bench), 0x40, 0x0, 1, 0, 2, 16, 16, 2, .rw, 0, false⟩
  | .BENCH_BPWR_STAT_STATE => ⟨(some .bench), 0x44, 0x0, 1, 0, 2, 16, 16, 2, .ro, 0, false⟩
  | .BENCH_AUTO_IDLE_US => ⟨(some .bench), 0x48, 0x0, 1, 0, 16, 1, 1, 0, .rw, 100, false⟩
  | .BENCH_BENCH_HEALTH_HEALTH => ⟨(some .bench), 0x4C, 0x0, 1, 0, 2, 16, 16, 2, .ro, 0, false⟩
  | .BENCH_ECC_CNT_CE => ⟨(some .bench), 0x50, 0x0, 1, 0, 16, 1, 1, 0, .rc, 0, false⟩
  | .BENCH_ECC_CNT_UE => ⟨(some .bench), 0x50, 0x0, 1, 16, 16, 1, 1, 0, .rc, 0, false⟩
  | .BENCH_UE_ADDR_OFFSET => ⟨(some .bench), 0x54, 0x0, 1, 0, 22, 1, 1, 0, .ro, 0, false⟩
  | .BENCH_UE_ADDR_IN_SPARE => ⟨(some .bench), 0x54, 0x0, 1, 31, 1, 1, 1, 0, .ro, 0, false⟩
  | .BENCH_UE_THR_THR => ⟨(some .bench), 0x58, 0x0, 1, 0, 8, 1, 1, 0, .rw, 4, false⟩
  | .BENCH_COLL_STAT_STREAMER => ⟨(some .bench), 0x5C, 0x0, 1, 0, 1, 12, 32, 1, .w1c, 0, false⟩
  | .BENCH_COLL_CNT_COUNT => ⟨(some .bench), 0x60, 0x0, 1, 0, 32, 1, 1, 0, .rc, 0, false⟩
  | .BENCH_ALIAS_LAST_PRIOR => ⟨(some .bench), 0x64, 0x0, 1, 0, 32, 1, 1, 0, .ro, 0, true⟩
  | .BENCH_ALIAS_STAT_VALID => ⟨(some .bench), 0x68, 0x0, 1, 0, 1, 1, 1, 0, .rc, 0, true⟩
  | .BENCH_ALIAS_STAT_POISON => ⟨(some .bench), 0x68, 0x0, 1, 1, 1, 1, 1, 0, .rc, 0, true⟩
  | .BENCH_BIST_CTL_AUTO_REPLACE => ⟨(some .bench), 0x70, 0x0, 1, 3, 1, 1, 1, 0, .rw, 1, false⟩
  | .BENCH_BIST_CTL_BENCH => ⟨(some .bench), 0x70, 0x0, 1, 4, 5, 1, 1, 0, .rw, 0, false⟩
  | .BENCH_BIST_RANGE_FIRST => ⟨(some .bench), 0x74, 0x0, 1, 0, 6, 1, 1, 0, .rw, 0, false⟩
  | .BENCH_BIST_RANGE_LAST => ⟨(some .bench), 0x74, 0x0, 1, 8, 6, 1, 1, 0, .rw, 63, false⟩
  | .BENCH_BIST_STAT_PHASE => ⟨(some .bench), 0x78, 0x0, 1, 0, 3, 1, 1, 0, .ro, 0, false⟩
  | .BENCH_BIST_STAT_FAIL_WORDS => ⟨(some .bench), 0x78, 0x0, 1, 8, 8, 1, 1, 0, .ro, 0, false⟩
  | .BENCH_BIST_STAT_PASS => ⟨(some .bench), 0x78, 0x0, 1, 16, 1, 1, 1, 0, .ro, 0, false⟩
  | .BENCH_BIST_STAT_FAIL => ⟨(some .bench), 0x78, 0x0, 1, 17, 1, 1, 1, 0, .ro, 0, false⟩
  | .BENCH_BIST_FAIL_ADDR_OFFSET => ⟨(some .bench), 0x7C, 0x0, 1, 0, 22, 1, 1, 0, .ro, 0, false⟩
  | .BENCH_BIST_PTR_OFFSET => ⟨(some .bench), 0x80, 0x0, 1, 0, 18, 1, 1, 0, .ro, 0, false⟩
  | .BENCH_RGN_BASE_BASE => ⟨(some .bench), 0x800, 0x8, 256, 0, 28, 1, 1, 0, .rws, 0, false⟩
  | .BENCH_RGN_BASE_RD => ⟨(some .bench), 0x800, 0x8, 256, 28, 1, 1, 1, 0, .rws, 0, false⟩
  | .BENCH_RGN_BASE_WR => ⟨(some .bench), 0x800, 0x8, 256, 29, 1, 1, 1, 0, .rws, 0, false⟩
  | .BENCH_RGN_BASE_ALIAS => ⟨(some .bench), 0x800, 0x8, 256, 30, 1, 1, 1, 0, .rws, 0, false⟩
  | .BENCH_RGN_BASE_EN => ⟨(some .bench), 0x800, 0x8, 256, 31, 1, 1, 1, 0, .rws, 0, false⟩
  | .BENCH_RGN_LIMIT_LIMIT => ⟨(some .bench), 0x804, 0x8, 256, 0, 28, 1, 1, 0, .rws, 0, false⟩
  | .I3C_STATUS_DA_VALID => ⟨(some .i3c), 0x8, 0x0, 1, 0, 1, 1, 1, 0, .ro, 0, false⟩
  | .I3C_STATUS_I2C_MODE => ⟨(some .i3c), 0x8, 0x0, 1, 1, 1, 1, 1, 0, .ro, 1, false⟩
  | .I3C_STATUS_HEALTHY => ⟨(some .i3c), 0x8, 0x0, 1, 2, 1, 1, 1, 0, .ro, 1, false⟩
  | .I3C_STATUS_HDR => ⟨(some .i3c), 0x8, 0x0, 1, 3, 1, 1, 1, 0, .ro, 0, false⟩
  | .I3C_STATUS_TUN_BUSY => ⟨(some .i3c), 0x8, 0x0, 1, 4, 1, 1, 1, 0, .ro, 0, false⟩
  | .I3C_STATUS_SECURE => ⟨(some .i3c), 0x8, 0x0, 1, 5, 1, 1, 1, 0, .ro, 0, false⟩
  | .I3C_LINK_CFG_EN => ⟨(some .i3c), 0x40, 0x0, 1, 0, 1, 1, 1, 0, .rw, 1, false⟩
  | .I3C_LINK_CFG_ALLOW_DEV_RESET => ⟨(some .i3c), 0x40, 0x0, 1, 1, 1, 1, 1, 0, .rw, 0, false⟩
  | .I3C_LINK_CFG_ALERT_EN => ⟨(some .i3c), 0x40, 0x0, 1, 2, 1, 1, 1, 0, .rw, 1, false⟩
  | .I3C_LINK_CFG_WD => ⟨(some .i3c), 0x40, 0x0, 1, 8, 8, 1, 1, 0, .rw, 0, false⟩
  | .I3C_ADDR_STAT_DA => ⟨(some .i3c), 0x44, 0x0, 1, 0, 7, 1, 1, 0, .ro, 0, false⟩
  | .I3C_ADDR_STAT_STATIC => ⟨(some .i3c), 0x44, 0x0, 1, 8, 7, 1, 1, 0, .ro, 0, false⟩
  | .I3C_PID_LO_PID => ⟨(some .i3c), 0x48, 0x0, 1, 0, 32, 1, 1, 0, .ro, 0, false⟩
  | .I3C_PID_HI_PID => ⟨(some .i3c), 0x4C, 0x0, 1, 0, 16, 1, 1, 0, .ro, 0, false⟩
  | .I3C_PID_HI_BCR => ⟨(some .i3c), 0x4C, 0x0, 1, 16, 8, 1, 1, 0, .ro, 39, false⟩
  | .I3C_PID_HI_DCR => ⟨(some .i3c), 0x4C, 0x0, 1, 24, 8, 1, 1, 0, .ro, 0, false⟩
  | .I3C_LIMITS_MWL => ⟨(some .i3c), 0x50, 0x0, 1, 0, 16, 1, 1, 0, .ro, 72, false⟩
  | .I3C_LIMITS_MRL => ⟨(some .i3c), 0x50, 0x0, 1, 16, 16, 1, 1, 0, .ro, 68, false⟩
  | .I3C_IBI_CFG_HOLDOFF => ⟨(some .i3c), 0x54, 0x0, 1, 0, 16, 1, 1, 0, .rw, 1000, false⟩
  | .I3C_IBI_CFG_EVENT_IBI => ⟨(some .i3c), 0x54, 0x0, 1, 16, 1, 1, 1, 0, .rw, 1, false⟩
  | .I3C_IBI_CFG_LINK_IBI => ⟨(some .i3c), 0x54, 0x0, 1, 17, 1, 1, 1, 0, .rw, 1, false⟩
  | .I3C_IBI_CNT_SENT => ⟨(some .i3c), 0x58, 0x0, 1, 0, 16, 1, 1, 0, .rc, 0, false⟩
  | .I3C_IBI_CNT_NACKS => ⟨(some .i3c), 0x58, 0x0, 1, 16, 16, 1, 1, 0, .rc, 0, false⟩
  | .I3C_FRAME_STAT_FRAME_ERR => ⟨(some .i3c), 0x5C, 0x0, 1, 0, 16, 1, 1, 0, .rc, 0, false⟩
  | .I3C_FRAME_STAT_LAST_ERR => ⟨(some .i3c), 0x5C, 0x0, 1, 16, 3, 1, 1, 0, .ro, 0, false⟩
  | .I3C_TUN_STAT_LAST => ⟨(some .i3c), 0x60, 0x0, 1, 0, 8, 1, 1, 0, .ro, 0, false⟩
  | .I3C_TUN_STAT_RETRY_CNT => ⟨(some .i3c), 0x60, 0x0, 1, 16, 16, 1, 1, 0, .rc, 0, false⟩
  | .I3C_PTR_LO_ADDR => ⟨(some .i3c), 0x68, 0x0, 1, 0, 32, 1, 1, 0, .ro, 0x20001000, false⟩
  | .I3C_PTR_HI_ADDR => ⟨(some .i3c), 0x6C, 0x0, 1, 0, 8, 1, 1, 0, .ro, 0, false⟩
  | .I3C_PTR_HI_INC => ⟨(some .i3c), 0x6C, 0x0, 1, 8, 1, 1, 1, 0, .ro, 1, false⟩
  | .XSPI_STATUS_VIO_18 => ⟨(some .xspi), 0x8, 0x0, 1, 0, 1, 1, 1, 0, .ro, 0, false⟩
  | .XSPI_STATUS_RAW_BUSY => ⟨(some .xspi), 0x8, 0x0, 1, 1, 1, 1, 1, 0, .ro, 0, false⟩
  | .XSPI_XSPI_CFG_MODE => ⟨(some .xspi), 0x40, 0x0, 1, 0, 1, 1, 1, 0, .rw, 0, false⟩
  | .XSPI_XSPI_CFG_DEVTYPE => ⟨(some .xspi), 0x40, 0x0, 1, 1, 1, 1, 1, 0, .rw, 0, false⟩
  | .XSPI_XSPI_CFG_EXT => ⟨(some .xspi), 0x40, 0x0, 1, 2, 1, 1, 1, 0, .rw, 0, false⟩
  | .XSPI_XSPI_CFG_ADDR4 => ⟨(some .xspi), 0x40, 0x0, 1, 3, 1, 1, 1, 0, .rw, 1, false⟩
  | .XSPI_XSPI_CFG_DUMMY => ⟨(some .xspi), 0x40, 0x0, 1, 4, 5, 1, 1, 0, .rw, 8, false⟩
  | .XSPI_XSPI_CFG_CLKDIV => ⟨(some .xspi), 0x40, 0x0, 1, 9, 3, 1, 1, 0, .rw, 7, false⟩
  | .XSPI_XSPI_CFG_RD_OP => ⟨(some .xspi), 0x40, 0x0, 1, 16, 8, 1, 1, 0, .rw, 12, false⟩
  | .XSPI_XSPI_NAND_PAGE_OP => ⟨(some .xspi), 0x44, 0x0, 1, 0, 8, 1, 1, 0, .rw, 19, false⟩
  | .XSPI_XSPI_NAND_PAGE_LOG2 => ⟨(some .xspi), 0x44, 0x0, 1, 8, 4, 1, 1, 0, .rw, 11, false⟩
  | .XSPI_XSPI_NAND_ECC_MASK => ⟨(some .xspi), 0x44, 0x0, 1, 16, 8, 1, 1, 0, .rw, 48, false⟩
  | .XSPI_XSPI_NAND_ECC_BAD => ⟨(some .xspi), 0x44, 0x0, 1, 24, 8, 1, 1, 0, .rw, 32, false⟩
  | .XSPI_RAW_CMD_OP => ⟨(some .xspi), 0x48, 0x0, 1, 0, 8, 1, 1, 0, .rw, 0, false⟩
  | .XSPI_RAW_CMD_ALEN => ⟨(some .xspi), 0x48, 0x0, 1, 8, 2, 1, 1, 0, .rw, 0, false⟩
  | .XSPI_RAW_CMD_DLEN => ⟨(some .xspi), 0x48, 0x0, 1, 10, 4, 1, 1, 0, .rw, 0, false⟩
  | .XSPI_RAW_CMD_DIR => ⟨(some .xspi), 0x48, 0x0, 1, 14, 1, 1, 1, 0, .rw, 0, false⟩
  | .XSPI_RAW_CMD_DUMMY => ⟨(some .xspi), 0x48, 0x0, 1, 15, 5, 1, 1, 0, .rw, 0, false⟩
  | .XSPI_RAW_CMD_REFUSED => ⟨(some .xspi), 0x48, 0x0, 1, 21, 1, 1, 1, 0, .w1c, 0, false⟩
  | .XSPI_RAW_ADDR_ADDR => ⟨(some .xspi), 0x4C, 0x0, 1, 0, 32, 1, 1, 0, .rw, 0, false⟩
  | .XSPI_RAW_DATA_LO_DATA => ⟨(some .xspi), 0x50, 0x0, 1, 0, 32, 1, 1, 0, .rw, 0, false⟩
  | .XSPI_RAW_DATA_HI_DATA => ⟨(some .xspi), 0x54, 0x0, 1, 0, 32, 1, 1, 0, .rw, 0, false⟩
  | .XSPI_LD_SRC_OFFSET => ⟨(some .xspi), 0x58, 0x0, 1, 0, 32, 1, 1, 0, .rw, 0, false⟩
  | .XSPI_LD_DST_LO_ADDR => ⟨(some .xspi), 0x5C, 0x0, 1, 0, 32, 1, 1, 0, .rw, 0, false⟩
  | .XSPI_LD_DST_HI_ADDR => ⟨(some .xspi), 0x60, 0x0, 1, 0, 8, 1, 1, 0, .rw, 0, false⟩
  | .XSPI_LD_LEN_BYTES => ⟨(some .xspi), 0x64, 0x0, 1, 0, 32, 1, 1, 0, .rw, 0, false⟩
  | .XSPI_LD_CTL_IMAGE => ⟨(some .xspi), 0x68, 0x0, 1, 3, 1, 1, 1, 0, .rw, 0, false⟩
  | .XSPI_LD_CTL_SIG_REQ => ⟨(some .xspi), 0x68, 0x0, 1, 4, 1, 1, 1, 0, .ro, 0, false⟩
  | .XSPI_LD_STAT_BUSY => ⟨(some .xspi), 0x6C, 0x0, 1, 0, 1, 1, 1, 0, .ro, 0, false⟩
  | .XSPI_LD_STAT_DONE => ⟨(some .xspi), 0x6C, 0x0, 1, 1, 1, 1, 1, 0, .w1c, 0, false⟩
  | .XSPI_LD_STAT_RELEASED => ⟨(some .xspi), 0x6C, 0x0, 1, 2, 1, 1, 1, 0, .ro, 0, false⟩
  | .XSPI_LD_STAT_REFUSED => ⟨(some .xspi), 0x6C, 0x0, 1, 3, 1, 1, 1, 0, .w1c, 0, false⟩
  | .XSPI_LD_STAT_STOP => ⟨(some .xspi), 0x6C, 0x0, 1, 4, 4, 1, 1, 0, .ro, 0, false⟩
  | .XSPI_LD_STAT_ENTRY => ⟨(some .xspi), 0x6C, 0x0, 1, 16, 16, 1, 1, 0, .ro, 0, false⟩
  | .XSPI_LD_DONE_BYTES => ⟨(some .xspi), 0x70, 0x0, 1, 0, 32, 1, 1, 0, .rws, 0, false⟩
  | .XSPI_LD_RESUME_POINT => ⟨(some .xspi), 0x74, 0x0, 1, 0, 32, 1, 1, 0, .rws, 0, false⟩
  | .XSPI_LD_ENTRIES_COUNT => ⟨(some .xspi), 0x78, 0x0, 1, 0, 16, 1, 1, 0, .rws, 0, false⟩
  | .XSPI_FLASH_STAT_STATUS => ⟨(some .xspi), 0x7C, 0x0, 1, 0, 8, 1, 1, 0, .ro, 0, false⟩
  | .SEC_STATUS_BOOT_OK => ⟨(some .sec), 0x8, 0x0, 1, 0, 1, 1, 1, 0, .ro, 0, false⟩
  | .SEC_STATUS_RECOVERY => ⟨(some .sec), 0x8, 0x0, 1, 1, 1, 1, 1, 0, .ro, 0, false⟩
  | .SEC_STATUS_RUN_SRC => ⟨(some .sec), 0x8, 0x0, 1, 2, 2, 1, 1, 0, .ro, 0, false⟩
  | .SEC_STATUS_PREF_SLOT => ⟨(some .sec), 0x8, 0x0, 1, 4, 1, 1, 1, 0, .ro, 0, false⟩
  | .SEC_STATUS_SLOT_A_VALID => ⟨(some .sec), 0x8, 0x0, 1, 5, 1, 1, 1, 0, .ro, 0, false⟩
  | .SEC_STATUS_SLOT_B_VALID => ⟨(some .sec), 0x8, 0x0, 1, 6, 1, 1, 1, 0, .ro, 0, false⟩
  | .SEC_STATUS_STAGED => ⟨(some .sec), 0x8, 0x0, 1, 7, 1, 1, 1, 0, .ro, 0, false⟩
  | .SEC_STATUS_HANDOFF_BUSY => ⟨(some .sec), 0x8, 0x0, 1, 8, 1, 1, 1, 0, .ro, 0, false⟩
  | .SEC_STATUS_OWNER_SET => ⟨(some .sec), 0x8, 0x0, 1, 9, 1, 1, 1, 0, .ro, 0, false⟩
  | .SEC_STATUS_POLICY_LOCKED => ⟨(some .sec), 0x8, 0x0, 1, 10, 1, 1, 1, 0, .ro, 0, false⟩
  | .SEC_STATUS_VK_REVOKED => ⟨(some .sec), 0x8, 0x0, 1, 12, 1, 4, 4, 1, .ro, 0, false⟩
  | .SEC_STATUS_VK_USED => ⟨(some .sec), 0x8, 0x0, 1, 16, 2, 1, 1, 0, .ro, 0, false⟩
  | .SEC_FW_VER_VER => ⟨(some .sec), 0x40, 0x0, 1, 0, 32, 1, 1, 0, .ro, 0, false⟩
  | .SEC_SVN_RUN_SVN => ⟨(some .sec), 0x44, 0x0, 1, 0, 8, 1, 1, 0, .ro, 0, false⟩
  | .SEC_SVN_FUSE_COUNT => ⟨(some .sec), 0x44, 0x0, 1, 8, 8, 1, 1, 0, .ro, 0, false⟩
  | .SEC_SVN_STAGED_SVN => ⟨(some .sec), 0x44, 0x0, 1, 16, 8, 1, 1, 0, .ro, 0, false⟩
  | .SEC_WDT_CFG_MS => ⟨(some .sec), 0x48, 0x0, 1, 0, 16, 1, 1, 0, .rw, 200, false⟩
  | .SEC_BOOT_TIME_US100 => ⟨(some .sec), 0x50, 0x0, 1, 0, 16, 1, 1, 0, .ro, 0, false⟩
  | .SEC_SESSION_TMO_S => ⟨(some .sec), 0x54, 0x0, 1, 0, 12, 1, 1, 0, .rw, 600, false⟩
  | .SEC_LIB_VER_MIN_VER => ⟨(some .sec), 0x58, 0x0, 1, 0, 32, 1, 1, 0, .ro, 0, false⟩
  | .SEC_MR_CNT_CNT => ⟨(some .sec), 0x5C, 0x0, 1, 0, 32, 1, 1, 0, .ro, 0, false⟩
  | .SEC_UID_UID => ⟨(some .sec), 0x60, 0x0, 1, 0, 32, 4, 1, 0, .ro, 0, false⟩
  | .SEC_MB_CMD_OP => ⟨(some .sec), 0x80, 0x0, 1, 0, 8, 1, 1, 0, .rw, 0, true⟩
  | .SEC_MB_CMD_TAG => ⟨(some .sec), 0x80, 0x0, 1, 8, 8, 1, 1, 0, .rw, 0, true⟩
  | .SEC_MB_STAT_BUSY => ⟨(some .sec), 0x84, 0x0, 1, 0, 1, 1, 1, 0, .ro, 0, true⟩
  | .SEC_MB_STAT_DONE => ⟨(some .sec), 0x84, 0x0, 1, 1, 1, 1, 1, 0, .w1c, 0, true⟩
  | .SEC_MB_STAT_RESULT => ⟨(some .sec), 0x84, 0x0, 1, 8, 8, 1, 1, 0, .ro, 0, true⟩
  | .SEC_MB_STAT_TAG => ⟨(some .sec), 0x84, 0x0, 1, 16, 8, 1, 1, 0, .ro, 0, true⟩
  | .SEC_MB_ARG_ARG => ⟨(some .sec), 0x88, 0x0, 1, 0, 32, 8, 1, 0, .rw, 0, true⟩
  | .SEC_MB_RES_RES => ⟨(some .sec), 0xA8, 0x0, 1, 0, 32, 8, 1, 0, .ro, 0, true⟩
  | .SEC_MR_VALUE => ⟨(some .sec), 0x100, 0x30, 8, 0, 32, 12, 1, 0, .ro, 0, false⟩
  | .SYS_STATUS_READY => ⟨(some .sys), 0x8, 0x0, 1, 0, 1, 1, 1, 0, .ro, 0, false⟩
  | .SYS_STATUS_DEGRADED => ⟨(some .sys), 0x8, 0x0, 1, 1, 1, 1, 1, 0, .ro, 0, false⟩
  | .SYS_RESET_CAUSE_COLD => ⟨(some .sys), 0x40, 0x0, 1, 0, 1, 1, 1, 0, .w1c, 1, false⟩
  | .SYS_RESET_CAUSE_PIN => ⟨(some .sys), 0x40, 0x0, 1, 1, 1, 1, 1, 0, .w1c, 0, false⟩
  | .SYS_RESET_CAUSE_RSTACT_A => ⟨(some .sys), 0x40, 0x0, 1, 2, 1, 1, 1, 0, .w1c, 0, false⟩
  | .SYS_RESET_CAUSE_RSTACT_B => ⟨(some .sys), 0x40, 0x0, 1, 3, 1, 1, 1, 0, .w1c, 0, false⟩
  | .SYS_RESET_CAUSE_SOFT => ⟨(some .sys), 0x40, 0x0, 1, 4, 1, 1, 1, 0, .w1c, 0, false⟩
  | .SYS_RESET_CAUSE_FW_WDT => ⟨(some .sys), 0x40, 0x0, 1, 5, 1, 1, 1, 0, .w1c, 0, false⟩
  | .SYS_RESET_CAUSE_FW_FAULT => ⟨(some .sys), 0x40, 0x0, 1, 6, 1, 1, 1, 0, .w1c, 0, false⟩
  | .SYS_RESET_CNT_WARM => ⟨(some .sys), 0x44, 0x0, 1, 0, 16, 1, 1, 0, .ro, 0, false⟩
  | .SYS_RESET_CNT_FW_RESTART => ⟨(some .sys), 0x44, 0x0, 1, 16, 16, 1, 1, 0, .ro, 0, false⟩
  | .SYS_SPARE_SUM_STAGE => ⟨(some .sys), 0x4C, 0x0, 1, 0, 1, 1, 1, 0, .ro, 0, false⟩
  | .SYS_SPARE_SUM_CORE => ⟨(some .sys), 0x4C, 0x0, 1, 1, 1, 1, 1, 0, .ro, 0, false⟩
  | .SYS_SPARE_SUM_BENCH => ⟨(some .sys), 0x4C, 0x0, 1, 2, 1, 1, 1, 0, .ro, 0, false⟩
  | .SYS_SPARE_SUM_RANK => ⟨(some .sys), 0x4C, 0x0, 1, 3, 1, 1, 1, 0, .ro, 0, false⟩
  | .SYS_SPARE_SUM_SYNTH => ⟨(some .sys), 0x4C, 0x0, 1, 4, 1, 1, 1, 0, .ro, 0, false⟩
  | .SYS_SPARE_SUM_LINK => ⟨(some .sys), 0x4C, 0x0, 1, 5, 1, 1, 1, 0, .ro, 0, false⟩
  | .SYS_SPARE_SUM_FW => ⟨(some .sys), 0x4C, 0x0, 1, 6, 1, 1, 1, 0, .ro, 0, false⟩
  | .SYS_SPARE_SUM_CHANNEL_LOST => ⟨(some .sys), 0x4C, 0x0, 1, 16, 1, 1, 1, 0, .ro, 0, false⟩
  | .SYS_SPARE_SUM_CORE_LOST => ⟨(some .sys), 0x4C, 0x0, 1, 17, 1, 1, 1, 0, .ro, 0, false⟩
  | .SYS_SPARE_SUM_BENCH_OFFLINE => ⟨(some .sys), 0x4C, 0x0, 1, 18, 1, 1, 1, 0, .ro, 0, false⟩
  | .SYS_SPARE_SUM_RANK_OFFLINE => ⟨(some .sys), 0x4C, 0x0, 1, 19, 1, 1, 1, 0, .ro, 0, false⟩
  | .SYS_SPARE_SUM_SYNTH_LOST => ⟨(some .sys), 0x4C, 0x0, 1, 20, 1, 1, 1, 0, .ro, 0, false⟩
  | .SYS_ERR_ADDR_LO_ADDR => ⟨(some .sys), 0x50, 0x0, 1, 0, 32, 1, 1, 0, .ro, 0, false⟩
  | .SYS_ERR_ADDR_HI_ADDR => ⟨(some .sys), 0x54, 0x0, 1, 0, 8, 1, 1, 0, .ro, 0, false⟩
  | .SYS_ERR_ADDR_HI_MASTER => ⟨(some .sys), 0x54, 0x0, 1, 8, 5, 1, 1, 0, .ro, 0, false⟩
  | .SYS_ERR_ADDR_HI_WRITE => ⟨(some .sys), 0x54, 0x0, 1, 13, 1, 1, 1, 0, .ro, 0, false⟩
  | .SYS_SCRATCH_DATA => ⟨(some .sys), 0x58, 0x0, 1, 0, 32, 1, 1, 0, .rws, 0, false⟩
  | .POWER_STATUS_DSTATE => ⟨(some .power), 0x8, 0x0, 1, 0, 3, 1, 1, 0, .ro, 0, false⟩
  | .POWER_STATUS_TARGET => ⟨(some .power), 0x8, 0x0, 1, 3, 3, 1, 1, 0, .ro, 0, false⟩
  | .POWER_STATUS_QUIET => ⟨(some .power), 0x8, 0x0, 1, 6, 1, 1, 1, 0, .ro, 0, false⟩
  | .POWER_STATUS_ENTERING => ⟨(some .power), 0x8, 0x0, 1, 7, 1, 1, 1, 0, .ro, 0, false⟩
  | .POWER_STATUS_EXITING => ⟨(some .power), 0x8, 0x0, 1, 8, 1, 1, 1, 0, .ro, 0, false⟩
  | .POWER_STATUS_THERM_WARN => ⟨(some .power), 0x8, 0x0, 1, 9, 1, 1, 1, 0, .ro, 0, false⟩
  | .POWER_STATUS_THERMAL_LIMIT => ⟨(some .power), 0x8, 0x0, 1, 10, 1, 1, 1, 0, .ro, 0, false⟩
  | .POWER_STATUS_THERM_CRIT => ⟨(some .power), 0x8, 0x0, 1, 11, 1, 1, 1, 0, .ro, 0, false⟩
  | .POWER_STATUS_BLOCK => ⟨(some .power), 0x8, 0x0, 1, 12, 4, 1, 1, 0, .ro, 0, false⟩
  | .POWER_PWR_CFG_MAX_STATE => ⟨(some .power), 0x40, 0x0, 1, 0, 3, 1, 1, 0, .rw, 4, false⟩
  | .POWER_ENTRY_IDLE_US => ⟨(some .power), 0x44, 0x0, 1, 0, 32, 1, 1, 0, .rw, 100, false⟩
  | .POWER_LTOL_HOST_US => ⟨(some .power), 0x48, 0x0, 1, 0, 32, 1, 1, 0, .rw, 0, false⟩
  | .POWER_LTOL_EVENT_US => ⟨(some .power), 0x4C, 0x0, 1, 0, 32, 1, 1, 0, .rw, 0, false⟩
  | .POWER_LTOL_TALLY_US => ⟨(some .power), 0x50, 0x0, 1, 0, 32, 1, 1, 0, .rw, 0, false⟩
  | .POWER_TIME_LEAD_US => ⟨(some .power), 0x54, 0x0, 1, 0, 32, 1, 1, 0, .rw, 50, false⟩
  | .POWER_WAKE_STAT_CLASS => ⟨(some .power), 0x58, 0x0, 1, 0, 3, 1, 1, 0, .ro, 0, false⟩
  | .POWER_WAKE_STAT_FROM => ⟨(some .power), 0x58, 0x0, 1, 3, 3, 1, 1, 0, .ro, 0, false⟩
  | .POWER_WAKE_STAT_EXIT_US => ⟨(some .power), 0x58, 0x0, 1, 16, 16, 1, 1, 0, .ro, 0, false⟩
  | .POWER_RESIDENCY_MS => ⟨(some .power), 0x60, 0x4, 5, 0, 32, 1, 1, 0, .rc, 0, false⟩
  | .POWER_THERM_CFG_TWARN => ⟨(some .power), 0x80, 0x0, 1, 0, 8, 1, 1, 0, .rw, 110, false⟩
  | .POWER_THERM_CFG_TLIM => ⟨(some .power), 0x80, 0x0, 1, 8, 8, 1, 1, 0, .rw, 125, false⟩
  | .POWER_THERM_CFG_TCRIT => ⟨(some .power), 0x80, 0x0, 1, 16, 8, 1, 1, 0, .rw, 140, false⟩
  | .POWER_THERM_CFG_CRIT_ACT => ⟨(some .power), 0x80, 0x0, 1, 24, 1, 1, 1, 0, .rw, 0, false⟩
  | .POWER_THERM_STAT_TJ => ⟨(some .power), 0x84, 0x0, 1, 0, 12, 1, 1, 0, .ro, 0, false⟩
  | .POWER_THERM_STAT_PEAK => ⟨(some .power), 0x84, 0x0, 1, 16, 12, 1, 1, 0, .rc, 0, false⟩
  | .POWER_RAIL_STAT_IN_RANGE => ⟨(some .power), 0x90, 0x0, 1, 0, 1, 13, 32, 1, .ro, 0, false⟩
  | .POWER_RAIL_FAULT_LEFT => ⟨(some .power), 0x94, 0x0, 1, 0, 1, 13, 32, 1, .w1c, 0, false⟩
  | .POWER_VCORE_MV_MV => ⟨(some .power), 0x98, 0x0, 1, 0, 12, 1, 1, 0, .ro, 0, false⟩
  | .POWER_PACE_RATIO => ⟨(some .power), 0xA0, 0x4, 12, 0, 16, 1, 1, 0, .ro, 0xffff, false⟩
  | .POWER_PACE_MIN => ⟨(some .power), 0xA0, 0x4, 12, 16, 16, 1, 1, 0, .rc, 0xffff, false⟩
  | .POWER_PACE_WARN_QUAD => ⟨(some .power), 0xD0, 0x0, 1, 0, 1, 12, 32, 1, .w1c, 0, false⟩
  | .POWER_LIFE_HOURS_HOURS => ⟨(some .power), 0xE0, 0x4, 4, 0, 32, 1, 1, 0, .ro, 0, false⟩
  | .POWER_LIFE_CYCLES_PWRGD => ⟨(some .power), 0xF0, 0x0, 1, 0, 16, 1, 1, 0, .ro, 0, false⟩
  | .POWER_LIFE_CYCLES_THERMAL => ⟨(some .power), 0xF0, 0x0, 1, 16, 16, 1, 1, 0, .ro, 0, false⟩

/-- The stored fields of the common layout (R413). -/
def Reg.commonFields : List Reg :=
  [.CTRL_ENABLE, .CTRL_PWR_REQ, .EVT_RAW_RAW, .EVT_EN_EN,
   .EVT_PEND_PEND, .OWNER_MASTER, .OWNER_LOCK, .OWNER_SEC,
   .ERR_CODE_CODE, .ERR_CODE_MASTER, .ERR_CODE_WRITE, .ERR_CODE_OVF,
   .ERR_CODE_WORD, .SHADOW_CMD_MODE, .SHADOW_CMD_LC, .SHADOW_CMD_PENDING,
   .SHADOW_CMD_REFUSED, .SHADOW_CMD_LATE]

/-- The stored fields of a tbase page. -/
def Reg.tbaseFields : List Reg :=
  [.TBASE_TB_CFG_REF_MODE, .TBASE_TB_CFG_EPOCH_SRC, .TBASE_TB_CFG_STEP_ALLOW, .TBASE_TB_CFG_TALLY_EN,
   .TBASE_TB_CFG_HOLD_RESYNC, .TBASE_TB_STATUS_PLL_LOCKED, .TBASE_TB_STATUS_REF_PRESENT, .TBASE_TB_STATUS_HOLDOVER,
   .TBASE_TB_STATUS_SLEWING, .TBASE_TB_STATUS_EPOCH_VALID, .TBASE_TB_STATUS_TALLY_SYNC, .TBASE_TB_STATUS_EPOCH_ARMED,
   .TBASE_TB_STATUS_PHASE_ERR, .TBASE_TB_LOAD_LO_LOAD_LO, .TBASE_TB_LOAD_HI_LOAD_HI, .TBASE_TALLY_CFG_DEV_ID,
   .TBASE_TALLY_CFG_DLY_EDGES, .TBASE_TALLY_CFG_GROUPS, .TBASE_TALLY_CNT_CRC_ERR, .TBASE_TALLY_CNT_DROPPED,
   .TBASE_TSPD_MAP, .TBASE_LC_LATE, .TBASE_GSTB_CFG_MODE, .TBASE_GSTB_CFG_ALIGN_LC,
   .TBASE_GSTB_CFG_ALIGN_ARM, .TBASE_GSTB_CFG_SINGLE_LC, .TBASE_GSTB_CFG_ALIGNED, .TBASE_GSTB_N_N,
   .TBASE_GSTB_STAT_STROBES, .TBASE_GSTB_STAT_PENDING, .TBASE_LC_TIME_LO_C_LO, .TBASE_LC_TIME_HI_C_HI,
   .TBASE_LC_CTRL_FRAC, .TBASE_LC_CTRL_ARM, .TBASE_LC_CTRL_PERIODIC, .TBASE_LC_CTRL_SRC_TALLY,
   .TBASE_LC_CTRL_TAG, .TBASE_LC_CTRL_OWNER, .TBASE_LC_CTRL_CLAIMED, .TBASE_LC_PERIOD_PERIOD]

/-- The stored fields of a qclk page. -/
def Reg.qclkFields : List Reg :=
  [.QCLK_QCLK_N_N, .QCLK_QCLK_CFG_IF_LOG2, .QCLK_QCLK_CFG_ALIGN_LC, .QCLK_QCLK_CFG_ALIGN_ARM,
   .QCLK_QCLK_CFG_USE_SPARE, .QCLK_QCLK_STATUS_LOCKED, .QCLK_QCLK_STATUS_ALIGNED, .QCLK_QCLK_STATUS_ON_SPARE,
   .QCLK_QCLK_STATUS_SETTLING, .QCLK_QCLK_STATUS_STOPPED, .QCLK_QCLK_STATUS_READY, .QCLK_ORIGIN_LO_ORIGIN_LO,
   .QCLK_ORIGIN_HI_ORIGIN_HI, .QCLK_ORIGIN_FRAC_FRAC, .QCLK_SAMPLE_LO_N_LO, .QCLK_SAMPLE_HI_N_HI,
   .QCLK_MISSED_MISSED, .QCLK_COVER_QUAD, .QCLK_COVER_VALID]

/-- The stored fields of a cse page. -/
def Reg.cseFields : List Reg :=
  [.CSE_STATUS_RUNNING, .CSE_STATUS_IDLE, .CSE_STATUS_OPEN, .CSE_STATUS_BUDGET_CLAMP,
   .CSE_CSE_CFG_DITHER, .CSE_CSE_CFG_NYQ_FADE, .CSE_ALLOC_PART_MAX, .CSE_ALLOC_PLAYERS,
   .CSE_ALLOC_EFF_PART_EFF, .CSE_ALLOC_EFF_PLAYERS_EFF, .CSE_GAIN_GAIN, .CSE_OFFSET_OFFSET,
   .CSE_REST_REST, .CSE_P0MOD_AM_SRC, .CSE_P0MOD_AM_DEPTH, .CSE_P0MOD_PM_SRC,
   .CSE_P0MOD_PM_DEPTH, .CSE_P1MOD_AM_SRC, .CSE_P1MOD_AM_DEPTH, .CSE_P1MOD_PM_SRC,
   .CSE_P1MOD_PM_DEPTH, .CSE_NMOD_AM_SRC, .CSE_NMOD_AM_DEPTH, .CSE_LMOD_AM_SRC,
   .CSE_LMOD_AM_DEPTH, .CSE_CUR_DESC_KIND, .CSE_CUR_DESC_PRIO, .CSE_CUR_DESC_SEQ,
   .CSE_CLIP_CNT_CLIP, .CSE_LATE_CNT_LATE, .CSE_DISCARD_CNT_DISCARD]

/-- The stored fields of a stitch page. -/
def Reg.stitchFields : List Reg :=
  [.STITCH_STATUS_RUNNING, .STITCH_STATUS_HALTED, .STITCH_STATUS_FAULTED, .STITCH_STATUS_WAIT_TIME,
   .STITCH_STATUS_WAIT_EVENT, .STITCH_STATUS_CREDIT_WAIT, .STITCH_STATUS_GANG_WAIT, .STITCH_STATUS_MC_PENDING,
   .STITCH_STATUS_MC_BANK, .STITCH_PROG_BASE_BASE, .STITCH_PROG_LEN_LEN, .STITCH_TPL_BASE_BASE,
   .STITCH_START_PC_PC, .STITCH_FAULT_CAUSE, .STITCH_FAULT_PC, .STITCH_WT_ADV_ADV,
   .STITCH_LC_GRANT, .STITCH_EVIN_CFG_LATCH, .STITCH_EVIN_LATCHED_LATCHED, .STITCH_EVIN_IGNORED_COUNT,
   .STITCH_GANG_TMO_TMO, .STITCH_GANG_STAT_FAIL_QUADS, .STITCH_GANG_STAT_REASON, .STITCH_GANG_STAT_GANG,
   .STITCH_GANG_READY_READY, .STITCH_PUSH_CNT_COUNT, .STITCH_STALL_CNT_COUNT, .STITCH_MC_VER_ACTIVE,
   .STITCH_MC_VER_INACTIVE]

/-- The stored fields of a tack page. -/
def Reg.tackFields : List Reg :=
  [.TACK_STATUS_READY, .TACK_STATUS_SWEEP, .TACK_PUSH_SEL_CH, .TACK_PUSH_STAT_OPEN,
   .TACK_PUSH_STAT_DISCARDING, .TACK_PUSH_STAT_TORN, .TACK_PUSH_STAT_REFUSED, .TACK_PUSH_STAT_WORDS_LEFT,
   .TACK_PUSH_STAT_LAST_SEQ, .TACK_CNT_POISON_COUNT, .TACK_CNT_TORN_COUNT, .TACK_CNT_LINK_CORRECTED,
   .TACK_CNT_LINK_FAILED, .TACK_FENCE_LAST_CH, .TACK_UNDERRUN, .TACK_SPILL,
   .TACK_IDLE_CFG_MODE, .TACK_QCFG_CRED_STITCH, .TACK_QCFG_CRED_REG, .TACK_QCFG_FMODE,
   .TACK_QLEVEL_FLUSH_BUSY, .TACK_QLEVEL_BROKEN, .TACK_RING_BASE_BASE, .TACK_RING_CFG_SIZE_LOG,
   .TACK_RING_CFG_SPLIT, .TACK_RING_CFG_EN, .TACK_RING_UCNT_COUNT]

/-- The stored fields of a out page. -/
def Reg.outFields : List Reg :=
  [.OUT_STATUS_STAGE, .OUT_STATUS_HIGHZ, .OUT_STATUS_SPAN_BUSY, .OUT_STATUS_GANG_ACTIVE,
   .OUT_STATUS_IN_LIMIT, .OUT_STATUS_FOLDBACK, .OUT_STATUS_SENSE_LOCAL, .OUT_STATUS_CORE_SPARE,
   .OUT_STATUS_NVM_BAD, .OUT_STATUS_FALLBACK, .OUT_STATUS_OVERTEMP, .OUT_STATUS_SPAN_NOW,
   .OUT_SPANCTL_SPAN, .OUT_UPDCTL_MODE, .OUT_UPDCTL_GSTB, .OUT_FILTCTL_CORNER,
   .OUT_FILTCTL_SHAPE, .OUT_FILTCTL_BYPASS, .OUT_STAGECTL_PREFER, .OUT_STAGECTL_AUTO_SWITCH,
   .OUT_STAGECTL_SENSE_MODE, .OUT_STAGECTL_AUTO_LOCAL, .OUT_STAGE_STAT_A_FAILED, .OUT_STAGE_STAT_B_FAILED,
   .OUT_STAGE_STAT_REQ_REFUSED, .OUT_STAGE_STAT_LAST_CAUSE, .OUT_STAGE_STAT_SWITCH_CNT, .OUT_PROTCFG_AUTO_RETRY,
   .OUT_NV_WAKE_VAL, .OUT_NV_WAKE_SPAN, .OUT_NV_FAULT_VAL, .OUT_NV_SAFE_VAL,
   .OUT_NVM_STAT_BUSY, .OUT_NVM_STAT_DONE, .OUT_NVM_STAT_ERR, .OUT_NVM_STAT_CYCLES,
   .OUT_FAULT_CTL_FORCE, .OUT_FAULT_CTL_WD_EN, .OUT_FAULT_STAT_SQ_UNDERRUN, .OUT_FAULT_STAT_REPEAT_FAIL,
   .OUT_FAULT_STAT_CORE_LOST, .OUT_FAULT_STAT_WATCHDOG, .OUT_FAULT_STAT_FORCED, .OUT_SQ_UCNT_COUNT,
   .OUT_SC_CNT_SHORTS, .OUT_SC_CNT_OVERTEMPS]

/-- The stored fields of a burnish page. -/
def Reg.burnishFields : List Reg :=
  [.BURNISH_STATUS_ROTATING, .BURNISH_STATUS_CAPTURING, .BURNISH_STATUS_NVM_SAVING, .BURNISH_STATUS_REF_OK,
   .BURNISH_BCFG_AUTO, .BURNISH_BCFG_DITHER_EN, .BURNISH_BCFG_TIER_EN, .BURNISH_BCFG_SAVE_HOURS,
   .BURNISH_INTERVAL_MS, .BURNISH_WINDOWS_CAL_LOG2, .BURNISH_WINDOWS_MATCH_LOG2, .BURNISH_WINDOWS_VERIFY_LOG2,
   .BURNISH_MATCH_TOL_LSB, .BURNISH_ROT_CNT_COUNT, .BURNISH_REF_DEV_PPM, .BURNISH_CAP_CTRL_CAP_SRC,
   .BURNISH_CAP_CTRL_AT_LC, .BURNISH_CAP_CTRL_CAP_LC, .BURNISH_CAP_CTRL_BUSY, .BURNISH_CAP_CTRL_REFUSED,
   .BURNISH_CAP_ADDR_LO_ADDR, .BURNISH_CAP_ADDR_HI_ADDR, .BURNISH_CAP_COUNT_COUNT, .BURNISH_CAP_DONE_COUNT]

/-- The stored fields of a spare page. -/
def Reg.spareFields : List Reg :=
  [.SPARE_STATUS_PHASE, .SPARE_STATUS_SPARE_CORE, .SPARE_STATUS_CAL_CORE, .SPARE_STATUS_VISIT_POS,
   .SPARE_STATUS_SPARE_FREE, .SPARE_STATUS_FAILOVER_BUSY, .SPARE_CORE_MAP, .SPARE_CORE_STATE_ROLE,
   .SPARE_SKIP_EXCLUDE, .SPARE_SKIP_SUSPECT, .SPARE_LAST_FAIL_POS, .SPARE_LAST_FAIL_CORE,
   .SPARE_LAST_FAIL_CAUSE, .SPARE_FAIL_CNT_FAILOVERS, .SPARE_FAIL_CNT_RETIRES, .SPARE_MATCH_RES_OFFSET,
   .SPARE_MATCH_RES_GAIN, .SPARE_RESIDUAL_INL_EST, .SPARE_RESIDUAL_COVERAGE, .SPARE_RESIDUAL_LADDER_COV,
   .SPARE_MON_DEV_OFFSET, .SPARE_MON_DEV_GAIN, .SPARE_ELEM_TRIM_E, .SPARE_LADDER_TRIM_L,
   .SPARE_GO_TRIM_GAIN, .SPARE_GO_TRIM_OFFSET, .SPARE_CAL_AGE_HOURS, .SPARE_CAL_COUNT_COUNT,
   .SPARE_STAGE_TRIM_GAIN, .SPARE_STAGE_TRIM_OFFSET]

/-- The stored fields of a harness page. -/
def Reg.harnessFields : List Reg :=
  [.HARNESS_STATUS_LOOP_PRESENT, .HARNESS_SVC_CTL_FORCE_HOLD, .HARNESS_LCNT_SEL_LINE, .HARNESS_LCNT_FIRED_FIRED,
   .HARNESS_LCNT_MERGE_COINCIDENT, .HARNESS_LCNT_MERGE_SUPPRESSED, .HARNESS_LCNT_OVR_OVERRUN, .HARNESS_STORM_PROF_THR,
   .HARNESS_STORM_PROF_WIN_LOG2, .HARNESS_STATSEL_KIND, .HARNESS_STATSEL_INST, .HARNESS_GSTB_OVR_OVR,
   .HARNESS_CAPU_CFG_LEVEL, .HARNESS_CAPU_CFG_OVR, .HARNESS_CAPU_CFG_OWNER, .HARNESS_CAPU_CFG_CLAIMED,
   .HARNESS_CAPU_INFO_FRAC, .HARNESS_CAPU_INFO_SLOTS, .HARNESS_CAPU_INFO_VALID, .HARNESS_CAPU_INFO_PAT_STAMP,
   .HARNESS_CAPU_TIME_LO_C_LO, .HARNESS_CAPU_TIME_HI_C_HI, .HARNESS_SOVR_OVR, .HARNESS_LINE_CFG_DST,
   .HARNESS_LINE_CFG_EN, .HARNESS_LINE_CFG_SVC, .HARNESS_LINE_CFG_SEC, .HARNESS_LINE_CFG_REARM,
   .HARNESS_LINE_CFG_OWNER, .HARNESS_LINE_CFG_SPROF, .HARNESS_LINE_CFG_CLAIMED, .HARNESS_LINE_STAT_LAST_SLOTS,
   .HARNESS_LINE_STAT_PENDING, .HARNESS_LINE_STAT_STORM, .HARNESS_LINE_STAT_LOOP, .HARNESS_LINE_SRC_SLOT]

/-- The stored fields of a pat page. -/
def Reg.patFields : List Reg :=
  [.PAT_STATUS_BANK_V, .PAT_STATUS_BANK_OK, .PAT_PAT_DROP_COUNT, .PAT_PAT_OVR_OVR,
   .PAT_PIN_CFG_FUNC, .PAT_PIN_CFG_OMODE, .PAT_PIN_CFG_INVERT, .PAT_PIN_CFG_ODRAIN,
   .PAT_PIN_CFG_DRIVE, .PAT_PIN_CFG_EDGE, .PAT_PIN_CFG_FILT, .PAT_PIN_CFG_CH,
   .PAT_PIN_CFG_GSTB, .PAT_PIN_CFG_OWNER, .PAT_PIN_CFG_CLAIMED, .PAT_PIN_PULSE_PULSE]

/-- The stored fields of a quarry page. -/
def Reg.quarryFields : List Reg :=
  [.QUARRY_STATUS_READY, .QUARRY_STATUS_DEGRADED, .QUARRY_STATUS_MIGRATING, .QUARRY_STATUS_OP_PENDING,
   .QUARRY_STATUS_SELF_REFRESH, .QUARRY_STATUS_OP_NOW, .QUARRY_STATUS_RESHAPING, .QUARRY_STATUS_INIT_DONE,
   .QUARRY_QRY_CFG_PAGE_IDLE, .QUARRY_QRY_CFG_ROWHIT_MAX, .QUARRY_QRY_CFG_SCRUB_EN, .QUARRY_OPCTL_TARGET,
   .QUARRY_OPCTL_AT_LC, .QUARRY_OPCTL_LC, .QUARRY_OPCTL_ABORT_MAX, .QUARRY_OP_STAT_ABORTS,
   .QUARRY_OP_STAT_FORCED, .QUARRY_OP_STAT_LAST_OUTAGE, .QUARRY_LRMAP_MAP, .QUARRY_LRMAP_SPARE,
   .QUARRY_RANK_STATE_STATE, .QUARRY_CAPACITY_N_ACTIVE, .QUARRY_CAPACITY_WAVE_GIB, .QUARRY_MIG_CTL_RATE,
   .QUARRY_MIG_PTR_UNIT, .QUARRY_MIG_PTR_LGRANK, .QUARRY_MIG_PTR_CAUSE, .QUARRY_UE_ADDR_LO_ADDR,
   .QUARRY_UE_ADDR_HI_ADDR, .QUARRY_UE_ADDR_HI_RANK, .QUARRY_UE_ADDR_HI_BANK, .QUARRY_ECC_CNT_CE,
   .QUARRY_ECC_CNT_UE, .QUARRY_ECC_CFG_CE_THR, .QUARRY_ECC_CFG_SCRUB_HOURS, .QUARRY_RD_CFG_RD_THR,
   .QUARRY_RD_CFG_RD_GAP, .QUARRY_RD_STAT_THROTTLED, .QUARRY_RD_STAT_EVENTS, .QUARRY_INIT_PROG_PERCENT,
   .QUARRY_GEN_GEN, .QUARRY_PORT_TGT_TGT, .QUARRY_PORT_STAT_URG, .QUARRY_PORT_STAT_THROTTLED,
   .QUARRY_PORT_STAT_OUTSTANDING, .QUARRY_PORT_LAT_MAX_LAT, .QUARRY_PORT_MISS_COUNT]

/-- The stored fields of a qphy page. -/
def Reg.qphyFields : List Reg :=
  [.QPHY_STATUS_PLL0_LOCK, .QPHY_STATUS_PLL1_LOCK, .QPHY_STATUS_TRAINING, .QPHY_TRN_SEL_CH,
   .QPHY_TRN_SEL_CS, .QPHY_TRN_SEL_OP, .QPHY_TRN_SEL_SET, .QPHY_TRN_CTL_MODE,
   .QPHY_PAT_CFG_KIND, .QPHY_PAT_CFG_BURSTS, .QPHY_PAT_CFG_SEED, .QPHY_PAT_USER_PATTERN,
   .QPHY_CMP_STAT_FAIL, .QPHY_CMP_STAT_DONE, .QPHY_CMP_STAT_BUSY, .QPHY_CMP_ERRCNT_COUNT,
   .QPHY_DLY_SEL_KIND, .QPHY_DLY_SEL_BIT, .QPHY_TSET_CTL_ACTIVE, .QPHY_TSET_CTL_A_OP,
   .QPHY_TSET_CTL_A_VALID, .QPHY_TSET_CTL_B_OP, .QPHY_TSET_CTL_B_VALID, .QPHY_DRIFT_CFG_MS,
   .QPHY_DRIFT_STAT_MAX_STEP]

/-- The stored fields of a bench page. -/
def Reg.benchFields : List Reg :=
  [.BENCH_STATUS_READY, .BENCH_STATUS_SPARE_FREE, .BENCH_STATUS_BIST_BUSY, .BENCH_STATUS_REPLACING,
   .BENCH_STATUS_SPARE_COVER, .BENCH_STATUS_THERMAL_DEEP, .BENCH_BPWR_CFG_MODE, .BENCH_BPWR_STAT_STATE,
   .BENCH_AUTO_IDLE_US, .BENCH_BENCH_HEALTH_HEALTH, .BENCH_ECC_CNT_CE, .BENCH_ECC_CNT_UE,
   .BENCH_UE_ADDR_OFFSET, .BENCH_UE_ADDR_IN_SPARE, .BENCH_UE_THR_THR, .BENCH_COLL_STAT_STREAMER,
   .BENCH_COLL_CNT_COUNT, .BENCH_ALIAS_LAST_PRIOR, .BENCH_ALIAS_STAT_VALID, .BENCH_ALIAS_STAT_POISON,
   .BENCH_BIST_CTL_AUTO_REPLACE, .BENCH_BIST_CTL_BENCH, .BENCH_BIST_RANGE_FIRST, .BENCH_BIST_RANGE_LAST,
   .BENCH_BIST_STAT_PHASE, .BENCH_BIST_STAT_FAIL_WORDS, .BENCH_BIST_STAT_PASS, .BENCH_BIST_STAT_FAIL,
   .BENCH_BIST_FAIL_ADDR_OFFSET, .BENCH_BIST_PTR_OFFSET, .BENCH_RGN_BASE_BASE, .BENCH_RGN_BASE_RD,
   .BENCH_RGN_BASE_WR, .BENCH_RGN_BASE_ALIAS, .BENCH_RGN_BASE_EN, .BENCH_RGN_LIMIT_LIMIT]

/-- The stored fields of a i3c page. -/
def Reg.i3cFields : List Reg :=
  [.I3C_STATUS_DA_VALID, .I3C_STATUS_I2C_MODE, .I3C_STATUS_HEALTHY, .I3C_STATUS_HDR,
   .I3C_STATUS_TUN_BUSY, .I3C_STATUS_SECURE, .I3C_LINK_CFG_EN, .I3C_LINK_CFG_ALLOW_DEV_RESET,
   .I3C_LINK_CFG_ALERT_EN, .I3C_LINK_CFG_WD, .I3C_ADDR_STAT_DA, .I3C_ADDR_STAT_STATIC,
   .I3C_PID_LO_PID, .I3C_PID_HI_PID, .I3C_PID_HI_BCR, .I3C_PID_HI_DCR,
   .I3C_LIMITS_MWL, .I3C_LIMITS_MRL, .I3C_IBI_CFG_HOLDOFF, .I3C_IBI_CFG_EVENT_IBI,
   .I3C_IBI_CFG_LINK_IBI, .I3C_IBI_CNT_SENT, .I3C_IBI_CNT_NACKS, .I3C_FRAME_STAT_FRAME_ERR,
   .I3C_FRAME_STAT_LAST_ERR, .I3C_TUN_STAT_LAST, .I3C_TUN_STAT_RETRY_CNT, .I3C_PTR_LO_ADDR,
   .I3C_PTR_HI_ADDR, .I3C_PTR_HI_INC]

/-- The stored fields of a xspi page. -/
def Reg.xspiFields : List Reg :=
  [.XSPI_STATUS_VIO_18, .XSPI_STATUS_RAW_BUSY, .XSPI_XSPI_CFG_MODE, .XSPI_XSPI_CFG_DEVTYPE,
   .XSPI_XSPI_CFG_EXT, .XSPI_XSPI_CFG_ADDR4, .XSPI_XSPI_CFG_DUMMY, .XSPI_XSPI_CFG_CLKDIV,
   .XSPI_XSPI_CFG_RD_OP, .XSPI_XSPI_NAND_PAGE_OP, .XSPI_XSPI_NAND_PAGE_LOG2, .XSPI_XSPI_NAND_ECC_MASK,
   .XSPI_XSPI_NAND_ECC_BAD, .XSPI_RAW_CMD_OP, .XSPI_RAW_CMD_ALEN, .XSPI_RAW_CMD_DLEN,
   .XSPI_RAW_CMD_DIR, .XSPI_RAW_CMD_DUMMY, .XSPI_RAW_CMD_REFUSED, .XSPI_RAW_ADDR_ADDR,
   .XSPI_RAW_DATA_LO_DATA, .XSPI_RAW_DATA_HI_DATA, .XSPI_LD_SRC_OFFSET, .XSPI_LD_DST_LO_ADDR,
   .XSPI_LD_DST_HI_ADDR, .XSPI_LD_LEN_BYTES, .XSPI_LD_CTL_IMAGE, .XSPI_LD_CTL_SIG_REQ,
   .XSPI_LD_STAT_BUSY, .XSPI_LD_STAT_DONE, .XSPI_LD_STAT_RELEASED, .XSPI_LD_STAT_REFUSED,
   .XSPI_LD_STAT_STOP, .XSPI_LD_STAT_ENTRY, .XSPI_LD_DONE_BYTES, .XSPI_LD_RESUME_POINT,
   .XSPI_LD_ENTRIES_COUNT, .XSPI_FLASH_STAT_STATUS]

/-- The stored fields of a sec page. -/
def Reg.secFields : List Reg :=
  [.SEC_STATUS_BOOT_OK, .SEC_STATUS_RECOVERY, .SEC_STATUS_RUN_SRC, .SEC_STATUS_PREF_SLOT,
   .SEC_STATUS_SLOT_A_VALID, .SEC_STATUS_SLOT_B_VALID, .SEC_STATUS_STAGED, .SEC_STATUS_HANDOFF_BUSY,
   .SEC_STATUS_OWNER_SET, .SEC_STATUS_POLICY_LOCKED, .SEC_STATUS_VK_REVOKED, .SEC_STATUS_VK_USED,
   .SEC_FW_VER_VER, .SEC_SVN_RUN_SVN, .SEC_SVN_FUSE_COUNT, .SEC_SVN_STAGED_SVN,
   .SEC_WDT_CFG_MS, .SEC_BOOT_TIME_US100, .SEC_SESSION_TMO_S, .SEC_LIB_VER_MIN_VER,
   .SEC_MR_CNT_CNT, .SEC_UID_UID, .SEC_MB_CMD_OP, .SEC_MB_CMD_TAG,
   .SEC_MB_STAT_BUSY, .SEC_MB_STAT_DONE, .SEC_MB_STAT_RESULT, .SEC_MB_STAT_TAG,
   .SEC_MB_ARG_ARG, .SEC_MB_RES_RES, .SEC_MR_VALUE]

/-- The stored fields of a sys page. -/
def Reg.sysFields : List Reg :=
  [.SYS_STATUS_READY, .SYS_STATUS_DEGRADED, .SYS_RESET_CAUSE_COLD, .SYS_RESET_CAUSE_PIN,
   .SYS_RESET_CAUSE_RSTACT_A, .SYS_RESET_CAUSE_RSTACT_B, .SYS_RESET_CAUSE_SOFT, .SYS_RESET_CAUSE_FW_WDT,
   .SYS_RESET_CAUSE_FW_FAULT, .SYS_RESET_CNT_WARM, .SYS_RESET_CNT_FW_RESTART, .SYS_SPARE_SUM_STAGE,
   .SYS_SPARE_SUM_CORE, .SYS_SPARE_SUM_BENCH, .SYS_SPARE_SUM_RANK, .SYS_SPARE_SUM_SYNTH,
   .SYS_SPARE_SUM_LINK, .SYS_SPARE_SUM_FW, .SYS_SPARE_SUM_CHANNEL_LOST, .SYS_SPARE_SUM_CORE_LOST,
   .SYS_SPARE_SUM_BENCH_OFFLINE, .SYS_SPARE_SUM_RANK_OFFLINE, .SYS_SPARE_SUM_SYNTH_LOST, .SYS_ERR_ADDR_LO_ADDR,
   .SYS_ERR_ADDR_HI_ADDR, .SYS_ERR_ADDR_HI_MASTER, .SYS_ERR_ADDR_HI_WRITE, .SYS_SCRATCH_DATA]

/-- The stored fields of a power page. -/
def Reg.powerFields : List Reg :=
  [.POWER_STATUS_DSTATE, .POWER_STATUS_TARGET, .POWER_STATUS_QUIET, .POWER_STATUS_ENTERING,
   .POWER_STATUS_EXITING, .POWER_STATUS_THERM_WARN, .POWER_STATUS_THERMAL_LIMIT, .POWER_STATUS_THERM_CRIT,
   .POWER_STATUS_BLOCK, .POWER_PWR_CFG_MAX_STATE, .POWER_ENTRY_IDLE_US, .POWER_LTOL_HOST_US,
   .POWER_LTOL_EVENT_US, .POWER_LTOL_TALLY_US, .POWER_TIME_LEAD_US, .POWER_WAKE_STAT_CLASS,
   .POWER_WAKE_STAT_FROM, .POWER_WAKE_STAT_EXIT_US, .POWER_RESIDENCY_MS, .POWER_THERM_CFG_TWARN,
   .POWER_THERM_CFG_TLIM, .POWER_THERM_CFG_TCRIT, .POWER_THERM_CFG_CRIT_ACT, .POWER_THERM_STAT_TJ,
   .POWER_THERM_STAT_PEAK, .POWER_RAIL_STAT_IN_RANGE, .POWER_RAIL_FAULT_LEFT, .POWER_VCORE_MV_MV,
   .POWER_PACE_RATIO, .POWER_PACE_MIN, .POWER_PACE_WARN_QUAD, .POWER_LIFE_HOURS_HOURS,
   .POWER_LIFE_CYCLES_PWRGD, .POWER_LIFE_CYCLES_THERMAL]

/-- The stored fields on a page, the common layout first. -/
def Page.fields (p : Page) : List Reg :=
  Reg.commonFields ++ match p with
    | .tbase => Reg.tbaseFields
    | .qclk => Reg.qclkFields
    | .cse => Reg.cseFields
    | .stitch => Reg.stitchFields
    | .tack => Reg.tackFields
    | .out => Reg.outFields
    | .burnish => Reg.burnishFields
    | .spare => Reg.spareFields
    | .harness => Reg.harnessFields
    | .pat => Reg.patFields
    | .quarry => Reg.quarryFields
    | .qphy => Reg.qphyFields
    | .bench => Reg.benchFields
    | .i3c => Reg.i3cFields
    | .xspi => Reg.xspiFields
    | .sec => Reg.secFields
    | .sys => Reg.sysFields
    | .power => Reg.powerFields

end Sys2Proof.Machine
end

