-- ==== Sys2Proof/Syntax.lean ====
section
/-! DEFINITION. The commands of the block: one constructor per row of the opcode table. -/

namespace Sys2Proof

/-- A master ID (R21). -/
abbrev Master := Fin 32
/-- A channel (R3). -/
abbrev Chan := Fin 48
/-- A quad (R3). -/
abbrev Quad := Fin 12
/-- A synthesizer: the quads' own, and 12 the spare (R59). -/
abbrev Synth := Fin 13
/-- A tier (R3). -/
abbrev Tier := Fin 4
/-- A Harness line. -/
abbrev Line := Fin 128
/-- A launch comparator (R44). -/
abbrev Lc := Fin 64

/-- A conversion of a tier's sense ADC (R228): its result, the dither added before it in 2^-16 sense LSB, the codes of its update edge and
of the edge before, and how many reference frames were taken after it. -/
structure SenseSample where
  raw : BitVec 18
  dither : BitVec 16
  x : BitVec 20
  prev : BitVec 20
  age : BitVec 16
deriving DecidableEq, Repr

/-- The place of an ECC word of Quarry (R275, R289): physical rank, unit and word of the unit. -/
abbrev EccPlace := Fin 8 × Fin (7 * 2 ^ 22) × Fin 4

/-- A reference frame (R228): the tier's 16 results of V_REF and 16 of analog ground, each with its dither as in a `SenseSample`. -/
structure FrameSamples where
  tier : Tier
  ref : List (BitVec 18 × BitVec 16)
  agnd : List (BitVec 18 × BitVec 16)
deriving DecidableEq, Repr

/-- The commands, one constructor per row of the table, in its order. Operands are what a row's rule names: the master, the place, the
value written, or what the outside world brings. -/
inductive Instr where
  /-- R8 -/
  | registerWrite (m : Master) (a : BitVec 24) (v : Word)
  /-- R8 -/
  | readClear (m : Master) (a : BitVec 24)
  /-- R5 -/
  | read64Low (m : Master) (a : BitVec 24)
  /-- R5 -/
  | read64High (m : Master) (a : BitVec 24)
  /-- R23 -/
  | masterAccess (m : Master) (a : Addr) (data : Option (List Byte)) (n : BitVec 12)
  /-- R19 -/
  | quadSampleEdge (q : Quad)
  /-- R208 -/
  | sqUnderrunFault (c : Chan)
  /-- R20 -/
  | paceWindowEnd (q : Quad) (ratio : Word)
  /-- R37 -/
  | refModeWrite (m : Master) (v : Fin 4)
  /-- R37 -/
  | holdResyncClear (m : Master)
  /-- R64 -/
  | tallyEnWrite (m : Master) (en : Bool)
  /-- R36 -/
  | refLost
  /-- R37 -/
  | refReturn (phase : BitVec 16)
  /-- R37 -/
  | pllRelocked
  /-- R37 -/
  | slewDone
  /-- R36 -/
  | pllUnlock
  /-- R40 -/
  | epochArm (m : Master)
  /-- R38 -/
  | epochCancel (m : Master)
  /-- R39 -/
  | epochLoad (age : BitVec 8)
  /-- R50 -/
  | lcClaim (m : Master) (i : Lc) (v : Word)
  /-- R51 -/
  | lcRelease (m : Master) (i : Lc)
  /-- R44 -/
  | lcArm (m : Master) (i : Lc)
  /-- R48 -/
  | lcDisarm (m : Master) (i : Lc)
  /-- R45 -/
  | lcFire (i : Lc)
  /-- R58 -/
  | qclkStart (m : Master) (q : Quad)
  /-- R58 -/
  | qclkStop (m : Master) (q : Quad)
  /-- R58 -/
  | qclkLocked (y : Synth)
  /-- R56 -/
  | qclkResume (q : Quad)
  /-- R54 -/
  | qclkSettleDone (q : Quad)
  /-- R55 -/
  | lockLost (y : Synth)
  /-- R59 -/
  | spareCoverAssign (m : Master) (v : Word)
  /-- R59 -/
  | spareSynthReady
  /-- R59 -/
  | useSpareSet (m : Master) (q : Quad)
  /-- R59 -/
  | rehomed (q : Quad)
  /-- R59 -/
  | useSpareClear (m : Master) (q : Quad)
  /-- R59 -/
  | rehomeBack (q : Quad)
  /-- R62 -/
  | gstbModeWrite (m : Master) (k : Fin 4) (v : Word)
  /-- R62 -/
  | gstbStrobe (k : Fin 4)
  /-- R64 -/
  | tallySyncAcquire
  /-- R64 -/
  | tallyLos
  /-- R42 -/
  | tallyEpochFrame (fr : List Byte) (age : BitVec 16)
  /-- R67 -/
  | tallyLaunchFrame (fr : List Byte)
  /-- R68 -/
  | tallySpeedFrame (fr : List Byte)
  /-- R68 -/
  | tallySpeedDeferred (q : Quad)
  /-- R108 -/
  | synthesisSample (q : Quad)
  /-- R90 -/
  | rampDone (q : Quad)
  /-- R95 -/
  | slotDisable (c : Chan) (slot : Fin 32)
  /-- R81 -/
  | patternEntryAdvance (c : Chan)
  /-- R84 -/
  | markerPulseEnd (c : Chan)
  /-- R100 -/
  | playerFinish (c : Chan) (p : Fin 2)
  /-- R88 -/
  | channelIdleEnter (c : Chan)
  /-- R100 -/
  | playTime (c : Chan)
  /-- R101 -/
  | playAngle (c : Chan)
  /-- R95 -/
  | partials (c : Chan)
  /-- R104 -/
  | noise (c : Chan)
  /-- R105 -/
  | level (c : Chan)
  /-- R105 -/
  | descRamp (c : Chan)
  /-- R84 -/
  | pattern (c : Chan)
  /-- R90 -/
  | descSpeed (c : Chan)
  /-- R84 -/
  | descMark (c : Chan)
  /-- R161 -/
  | idle (c : Chan)
  /-- R162 -/
  | fence (c : Chan)
  /-- R113 -/
  | allocWrite (m : Master) (c : Chan) (v : Word)
  /-- R415 -/
  | cseEnableWrite (m : Master) (c : Chan) (en : Bool)
  /-- R96 -/
  | cseSoftReset (m : Master) (c : Chan)
  /-- R415 -/
  | pwrReqWrite (m : Master) (stitch : Bool) (i : Chan) (req : Bool)
  /-- R117 -/
  | stitchEnable (m : Master) (q : Quad)
  /-- R117 -/
  | stitchDisable (m : Master) (q : Quad)
  /-- R117 -/
  | stitchSoftReset (m : Master) (q : Quad)
  /-- R116 -/
  | instructionFetch (q : Quad)
  /-- R134 -/
  | nop (q : Quad)
  /-- R134 -/
  | halt (q : Quad)
  /-- R126 -/
  | play (q : Quad)
  /-- R126 -/
  | playa (q : Quad)
  /-- R125 -/
  | hold (q : Quad)
  /-- R125 -/
  | mark (q : Quad)
  /-- R125 -/
  | speed (q : Quad)
  /-- R124 -/
  | ramp (q : Quad)
  /-- R127 -/
  | creditWaitEnd (q : Quad)
  /-- R131 -/
  | loop (q : Quad)
  /-- R131 -/
  | endl (q : Quad)
  /-- R132 -/
  | call (q : Quad)
  /-- R132 -/
  | ret (q : Quad)
  /-- R133 -/
  | jev (q : Quad)
  /-- R135 -/
  | waitt (q : Quad)
  /-- R135 -/
  | waittResume (q : Quad)
  /-- R139 -/
  | waite (q : Quad)
  /-- R139 -/
  | waiteTimeout (q : Quad)
  /-- R141 -/
  | arm (q : Quad)
  /-- R143 -/
  | disarm (q : Quad)
  /-- R148 -/
  | emit (q : Quad)
  /-- R150 -/
  | gangReady (q : Quad)
  /-- R151 -/
  | gangCommit (q : Quad)
  /-- R152 -/
  | gangCommitPoint (q : Quad)
  /-- R153 -/
  | gangPrepareTimeout (q : Quad)
  /-- R154 -/
  | gangAbort (q : Quad)
  /-- R150 -/
  | gangWaitc (q : Quad)
  /-- R138 -/
  | stitcherEventInput (q : Quad) (e : Fin 16)
  /-- R145 -/
  | armedSwitch (q : Quad)
  /-- R135 -/
  | lcGrantWrite (m : Master) (q : Quad) (hi : Fin 2) (v : Word)
  /-- R258 -/
  | evinLatchClear (m : Master) (q : Quad) (v : Word)
  /-- R157 -/
  | mcSwitchReq (m : Master) (q : Quad)
  /-- R157 -/
  | mcSwitch (q : Quad)
  /-- R166 -/
  | pushWinWord (m : Master) (w : Word)
  /-- R168 -/
  | pushAbort (m : Master)
  /-- R164 -/
  | qcfgWrite (m : Master) (i : Fin 192) (v : Word)
  /-- R170 -/
  | headSlotFetch (i : Fin 192) (bad : BitVec 32) (link : Fin 3)
  /-- R175 -/
  | linkSweepDone
  /-- R176 -/
  | queueDrop (m : Master) (i : Fin 192) (seqMatch : Bool) (seq : BitVec 16)
  /-- R177 -/
  | queueFlush (m : Master) (i : Fin 192)
  /-- R178 -/
  | packetTorn (m : Fin 3)
  /-- R423 -/
  | tackSoftReset (m : Master)
  /-- R180 -/
  | ringEnable (m : Master) (c : Chan) (sizeLog : Fin 8) (split : Bool)
  /-- R179 -/
  | ringDisable (m : Master) (c : Chan)
  /-- R181 -/
  | ringRefill (c : Chan) (p : Fin 2) (alt : Bool) (n : BitVec 16)
  /-- R217 -/
  | outEnableWrite (m : Master) (c : Chan) (en : Bool)
  /-- R217 -/
  | outSoftReset (m : Master) (c : Chan)
  /-- R199 -/
  | stageTrackingFault (c : Chan)
  /-- R199 -/
  | stageBiasFault (c : Chan)
  /-- R199 -/
  | stageSwitchReq (m : Master) (c : Chan)
  /-- R199 -/
  | stageSwitchover (c : Chan)
  /-- R201 -/
  | senseFault (c : Chan)
  /-- R202 -/
  | currentLimitEnter (c : Chan)
  /-- R202 -/
  | foldback (c : Chan)
  /-- R203 -/
  | scClr (m : Master) (c : Chan)
  /-- R203 -/
  | foldbackRetry (c : Chan)
  /-- R203 -/
  | foldbackEnd (c : Chan)
  /-- R204 -/
  | overtemp (c : Chan)
  /-- R204 -/
  | overtempClear (c : Chan)
  /-- R206 -/
  | nvmProgram (m : Master) (c : Chan) (k : Byte)
  /-- R206 -/
  | nvmReload (m : Master) (c : Chan) (k : Byte)
  /-- R206 -/
  | nvmDone (c : Chan) (ok : Bool)
  /-- R207 -/
  | nvValueWrite (m : Master) (c : Chan) (which : Fin 3) (v : Word)
  /-- R208 -/
  | faultForceWrite (m : Master) (c : Chan) (f : Bool)
  /-- R208 -/
  | faultClear (m : Master) (c : Chan)
  /-- R208 -/
  | faultEnter (c : Chan)
  /-- R209 -/
  | faultExit (c : Chan)
  /-- R213 -/
  | spanSlewEnd (c : Chan)
  /-- R213 -/
  | spanHoldEnd (c : Chan)
  /-- R213 -/
  | spanSwitchDone (c : Chan)
  /-- R213 -/
  | spanSettleEnd (c : Chan)
  /-- R213 -/
  | spanRelease (c : Chan)
  /-- R216 -/
  | powerGoodRise (addr : BitVec 3) (vio18 : Bool)
  /-- R216 -/
  | powerupNvmLoaded (badOut : List (Fin 48)) (badCal : List (Fin 60))
  /-- R216 -/
  | powerupRefSettled
  /-- R216 -/
  | powerupStageBiased
  /-- R216 -/
  | powerupSwitchClose
  /-- R216 -/
  | powerupWakeReached
  /-- R215 -/
  | powerGoodFall
  /-- R227 -/
  | rotationStart (t : Tier) (mon : List (List SenseSample))
  /-- R227 -/
  | visitReq (m : Master) (t : Tier) (p : Fin 16)
  /-- R223 -/
  | shadowStart (t : Tier)
  /-- R223 -/
  | matchStart (t : Tier)
  /-- R224 -/
  | matchDecision (t : Tier) (taps : List (SenseSample × SenseSample)) (out : List SenseSample)
  /-- R223 -/
  | handover (t : Tier) (p : Fin 12) (k : Fin 13)
  /-- R226 -/
  | calMeasureDone (t : Tier) (taps : List SenseSample)
  /-- R229 -/
  | calSolveDone (t : Tier) (k : Fin 13)
  /-- R231 -/
  | calVerifyDone (t : Tier) (taps : List SenseSample)
  /-- R228 -/
  | referenceFrame (f : FrameSamples)
  /-- R233 -/
  | coreHealthFault (t : Tier) (k : Fin 13)
  /-- R233 -/
  | failoverReq (m : Master) (t : Tier) (p : Fin 16) (retire : Bool)
  /-- R233 -/
  | failoverSwitch (t : Tier)
  /-- R233 -/
  | calibrationAbandon (t : Tier)
  /-- R236 -/
  | captureStart (m : Master) (t : Tier) (src : Fin 32) (atLc : Bool) (lc : Lc)
  /-- R237 -/
  | captureAbort (m : Master) (t : Tier)
  /-- R237 -/
  | captureSample (t : Tier) (x : BitVec 18)
  /-- R237 -/
  | capEnd (t : Tier)
  /-- R239 -/
  | burnishSaveNow (m : Master)
  /-- R239 -/
  | coreMapWrite (t : Tier)
  /-- R239 -/
  | trimSaveTimer
  /-- R243 -/
  | lineFire (l : Line)
  /-- R244 -/
  | lineRearm (l : Line)
  /-- R260 -/
  | stormWindowStart (w : Fin 32)
  /-- R261 -/
  | stormClear (m : Master) (l : Line)
  /-- R258 -/
  | rememberedDeliver (l : Line)
  /-- R254 -/
  | lineClaim (m : Master) (l : Line) (v : Word)
  /-- R254 -/
  | lineRelease (m : Master) (l : Line)
  /-- R252 -/
  | lineCfgWrite (m : Master) (l : Line) (v : Word)
  /-- R247 -/
  | lineSrcWrite (m : Master) (l : Line) (w : Fin 4) (v : Word)
  /-- R259 -/
  | loopRecompute
  /-- R249 -/
  | hostTrig (m : Master) (v : Word)
  /-- R258 -/
  | svcModeWrite (m : Master) (hold : Bool)
  /-- R269 -/
  | patInputEdge (i : Fin 32) (rising half : Bool) (ago : Fin 256)
  /-- R264 -/
  | pinClaim (m : Master) (i : Fin 32) (v : Word)
  /-- R264 -/
  | pinRelease (m : Master) (i : Fin 32)
  /-- R266 -/
  | pinModeWrite (m : Master) (i : Fin 32) (omode invert : Bool)
  /-- R265 -/
  | patPulseEnd (i : Fin 32)
  /-- R270 -/
  | capuClaim (m : Master) (u : Fin 16)
  /-- R272 -/
  | capuInfoRead (m : Master) (u : Fin 16)
  /-- R280 -/
  | quarryRequestAccept (m : Master) (write : Bool) (addr : BitVec 40) (len : BitVec 12) (data : List Byte)
  /-- R282 -/
  | quarryCommandSlot (ch : Fin 4)
  /-- R280 -/
  | quarryRequestComplete (id : Nat) (ce ue : List EccPlace) (dead : Option (Fin 8))
  /-- R281 -/
  | urgencyRise (p : Fin 8)
  /-- R283 -/
  | rowIdleClose (rank : Fin 8) (bank : Fin 16)
  /-- R285 -/
  | refresh
  /-- R285 -/
  | refreshEnd
  /-- R288 -/
  | rdNeighborRefresh (rank : Fin 8) (bank : Fin 16)
  /-- R287 -/
  | rdWindowReset
  /-- R291 -/
  | quarryScrub (p : Fin 8) (v : Fin (7 * 2 ^ 22)) (w : Fin 4) (r : Fin 3)
  /-- R276 -/
  | initPass (p : Fin 8) (w : BitVec 22)
  /-- R276 -/
  | initDone
  /-- R293 -/
  | migrationStart (host : Option (Master × Fin 8))
  /-- R293 -/
  | migrationUnitCopy (dead : Bool) (flaws : List (Fin 4 × Bool))
  /-- R295 -/
  | migrationSwitchover
  /-- R298 -/
  | reshape (m : Master) (k : Byte)
  /-- R298 -/
  | reshapeDone
  /-- R300 -/
  | opChangeRequest (m : Master) (v : Word)
  /-- R300 -/
  | opCommit
  /-- R301 -/
  | opEntryRestart
  /-- R300 -/
  | opDone
  /-- R303 -/
  | trainingRun (m : Master) (mode : Fin 8)
  /-- R303 -/
  | trainingRunDone (fail : BitVec 16) (errs : Word)
  /-- R304 -/
  | driftUpdate (p : Fin 8) (steps : BitVec 12)
  /-- R310 -/
  | benchAccess (m : Master) (write : Bool) (off : BitVec 22) (len : Fin 65) (data : List Byte) (mark : Bool)
      (other : Option (Master × Fin 4 × BitVec 22 × List Byte)) (ce ue : List (BitVec 22))
  /-- R316 -/
  | benchAliasWrite (m : Master) (clear : Bool) (off : BitVec 22) (data : List Byte)
  /-- R308 -/
  | benchScrub (off : BitVec 22) (r : Fin 3)
  /-- R323 -/
  | benchPortTimeout (b : Fin 17)
  /-- R317 -/
  | benchAutoRetention (b : Fin 16)
  /-- R318 -/
  | benchWake (b : Fin 16)
  /-- R319 -/
  | benchModeWrite (m : Master) (v : Word)
  /-- R320 -/
  | bistStart (m : Master) (b : Fin 32) (auto : Bool)
  /-- R320 -/
  | bistCopyDone
  /-- R322 -/
  | bistTestDone (fails : List (BitVec 22))
  /-- R320 -/
  | bistRestoreDone
  /-- R322 -/
  | bistAbort (m : Master)
  /-- R324 -/
  | benchReplace (m : Master) (b : Fin 32)
  /-- R324 -/
  | benchReplaceDone (bad : List (BitVec 18))
  /-- R332 -/
  | enec (j : Fin 2) (events : Byte)
  /-- R332 -/
  | disec (j : Fin 2) (events : Byte)
  /-- R332 -/
  | entas (j : Fin 2) (n : Fin 4)
  /-- R332 -/
  | rstdaa (j : Fin 2)
  /-- R332 -/
  | entdaa (j : Fin 2) (won : Option (BitVec 7))
  /-- R332 -/
  | setmwl (j : Fin 2) (v : BitVec 16)
  /-- R332 -/
  | setmrl (j : Fin 2) (v : BitVec 16)
  /-- R332 -/
  | enthdr0 (j : Fin 2)
  /-- R332 -/
  | setaasa (j : Fin 2)
  /-- R332 -/
  | setdasa (j : Fin 2) (a : BitVec 7)
  /-- R332 -/
  | setnewda (j : Fin 2) (a : BitVec 7)
  /-- R333 -/
  | rstactPort (j : Fin 2) (b : Byte)
  /-- R333 -/
  | rstactDevice (j : Fin 2)
  /-- R333 -/
  | rstactQuery (j : Fin 2)
  /-- R332 -/
  | getmwl (j : Fin 2)
  /-- R332 -/
  | getmrl (j : Fin 2)
  /-- R334 -/
  | getpid (j : Fin 2)
  /-- R332 -/
  | getbcr (j : Fin 2)
  /-- R332 -/
  | getdcr (j : Fin 2)
  /-- R332 -/
  | getstatus (j : Fin 2)
  /-- R332 -/
  | getmxds (j : Fin 2)
  /-- R332 -/
  | getcaps (j : Fin 2)
  /-- R337 -/
  | regWrite (j : Fin 2) (fr : List Byte) (wire : Fin 3)
  /-- R342 -/
  | memWrite (j : Fin 2) (fr : List Byte) (wire : Fin 3)
  /-- R343 -/
  | memFetch (j : Fin 2) (fr : List Byte) (wire : Fin 3)
  /-- R343 -/
  | tunnelDone (j : Fin 2)
  /-- R338 -/
  | privateRead (j : Fin 2) (n : BitVec 12)
  /-- R343 -/
  | tunnelRead (j : Fin 2) (n : Fin 256)
  /-- R346 -/
  | ibiRequest (j : Fin 2) (ack : Bool)
  /-- R349 -/
  | portHealthLost (j : Fin 2) (wd : Bool)
  /-- R351 -/
  | adopt (m : Master) (j : Fin 2)
  /-- R351 -/
  | adopted (j : Fin 2)
  /-- R353 -/
  | rawCommand (m : Master) (v : Word)
  /-- R353 -/
  | rawDone (data : Dword)
  /-- R355 -/
  | loaderGo (m : Master) (image : Bool) (head : List Byte)
  /-- R360 -/
  | loaderResume (m : Master) (image : Bool) (head : List Byte)
  /-- R360 -/
  | loaderAbort (m : Master) (image : Bool) (data : List Byte)
  /-- R354 -/
  | nandStatusPoll (data : List Byte) (status : Byte)
  /-- R358 -/
  | loaderEntryDone (head data : List Byte)
  /-- R360 -/
  | flashTimeout (data : List Byte)
  /-- R359 -/
  | loaderDone (data image block : List Byte)
  /-- R368 -/
  | bootStart
  /-- R368 -/
  | bootDone (img : List Byte)
  /-- R369 -/
  | slotCheck (slot : Fin 2) (img : List Byte)
  /-- R373 -/
  | wdtKick (m : Master) (v : Word)
  /-- R373 -/
  | wdtExpired
  /-- R373 -/
  | firmwareRestart
  /-- R378 -/
  | getInfo (j : Fin 2)
  /-- R378 -/
  | getCert (j : Fin 2)
  /-- R376 -/
  | quote (j : Fin 2)
  /-- R375 -/
  | mrExtend (j : Fin 2)
  /-- R377 -/
  | sessionOpen (j : Fin 2)
  /-- R377 -/
  | sessionAuth (j : Fin 2)
  /-- R377 -/
  | sessionClose (j : Fin 2)
  /-- R377 -/
  | sessionTimeout (j : Fin 2)
  /-- R382 -/
  | fwStage (j : Fin 2)
  /-- R383 -/
  | fwInstall (j : Fin 2) (ok : Bool)
  /-- R384 -/
  | fwActivate (j : Fin 2)
  /-- R384 -/
  | handoffPoint
  /-- R384 -/
  | aliveMark
  /-- R385 -/
  | handoffRevert (returned : Bool)
  /-- R380 -/
  | svnCommit (j : Fin 2)
  /-- R378 -/
  | slotSelect (j : Fin 2)
  /-- R381 -/
  | policySet (j : Fin 2)
  /-- R381 -/
  | libkeySet (j : Fin 2)
  /-- R377 -/
  | ownerKeySet (j : Fin 2)
  /-- R381 -/
  | policyLock (j : Fin 2)
  /-- R372 -/
  | recoveryBoot (j : Fin 2)
  /-- R378 -/
  | mbDone (j : Fin 2)
  /-- R389 -/
  | railMonitorSample (ok : BitVec 13) (mv : BitVec 12) (high : BitVec 6)
  /-- R391 -/
  | resetPin
  /-- R391 -/
  | sysSoftReset (m : Master)
  /-- R392 -/
  | warmResetEnd (addr : BitVec 3)
  /-- R395 -/
  | ready (failed : List (Fin 8))
  /-- R400 -/
  | powerStateEntry
  /-- R398 -/
  | dEnter
  /-- R401 -/
  | wake (cls : Fin 6)
  /-- R400 -/
  | powerTimeWake
  /-- R398 -/
  | dExit
  /-- R404 -/
  | thermalSample (tj : BitVec 12)
  /-- R410 -/
  | lifeCountSave
  /-- R420 -/
  | shadowGo (m : Master) (p : Machine.Page) (inst : Chan) (mode : Fin 4) (lc : Lc)
  /-- R420 -/
  | shadowCancel (m : Master) (p : Machine.Page) (inst : Chan)
  /-- R422 -/
  | shadowCapture (p : Machine.Page) (inst : Chan)
  /-- R421 -/
  | shadowCommitApply (p : Machine.Page) (inst : Chan)
  /-- R416 -/
  | evtEnWrite (m : Master) (p : Machine.Page) (inst : Chan) (v : Word)
  /-- R416 -/
  | evtClear (m : Master) (p : Machine.Page) (inst : Chan) (pend : Bool) (v : Word)
  /-- R417 -/
  | ownerWrite (m : Master) (p : Machine.Page) (inst : Chan) (lock sec : Bool)
  /-- R202 -/
  | currentLimitExit (c : Chan)
  /-- R349 -/
  | portHealthReturn (j : Fin 2)
  /-- R331 -/
  | hdrExit (j : Fin 2)
  /-- R331 -/
  | targetResetPattern (j : Fin 2)
  /-- R394 -/
  | tackReady
deriving DecidableEq, Repr

end Sys2Proof
end

