-- ==== Sys2Proof/Decode.lean ====
section
/-! DEFINITION. Words of the opcode table. No row of the table has bits: the block takes register accesses, bus transfers and events,
not instruction words, so no word spells a command (log entry 2). -/

namespace Sys2Proof

/-- The command that a table word spells: none. -/
def decodeTableWord (_nbits _w : Nat) : Option Instr := none

end Sys2Proof
end

