-- ==== Sys2Proof/Config.lean ====
section
/-! DEFINITION. What the spec fixes for one part and what it leaves open. Every `opaque` constant below is a free value:
it has no body, nothing can evaluate it, and a statement about it holds whatever it is. -/

namespace Sys2Proof.Config

/-- The tick rate of the timebase (R38). -/
def ticksPerSecond : Nat := 400000000
/-- Ticks in 1 ms (R38). -/
def ticksPerMs : Nat := 400000

/-- Which of the two whole numbers next to a sine the part gives, by its 48-bit phase: the manual binds a computed sine to within one
unit of 2^-23 (R94), not to a value. -/
opaque sineUp : Nat → Bool
/-- Interpolator coefficient of a bank, phase (0 to 255) and tap, in units of 2^-23: the values are a data file that is not
part of the manual (R98). Phase 0 of bank 0 is stated there and is not taken from here. -/
opaque coefficient : Nat → Nat → Int → Int
/-- Coefficient of a half-band stage: the tap at offset 2i + 1 on either side of its centre, i = 0 to 11. The manual gives the number of
taps and the chain's response, not the values (R109). -/
opaque halfBandTap : Nat → Nat → Rat
/-- The check byte of a (72,64) SECDED code over eight data bytes: the manual does not state the code (R275). -/
opaque secded : List Byte → Byte
/-- A byte of a Quarry read that no rank answers, by a counter and its place: it is delivered poisoned (R292). -/
opaque lostByte : Nat → Nat → Byte
/-- A free value of 64 bits, drawn by a counter. -/
opaque freeValue : Nat → BitVec 64
/-- A byte of a Tack pool cell as the management core reads it, by a counter and the address: the manual does not say which cell holds
which packet (R158). -/
opaque poolByte : Nat → Nat → Byte

/-- Factory value of the internal reference in volts: the part's own (R228, R238). -/
opaque factoryVref : Unit → Rat

/-- A byte of the boot ROM: its contents are not part of the manual (R26). -/
opaque romByte : Nat → Byte
/-- The MIPI manufacturer ID and the die revision of the PID (R334). -/
opaque manufacturer : Unit → BitVec 15
opaque dieRevision : Unit → BitVec 12

/-- The check of an RSASSA-PSS signature: modulus, signature, message (R362). The manual names RFC 8017 and gives no part of it here. -/
opaque rsaVerify : List Byte → List Byte → List Byte → Bool
/-- The check of an SLH-DSA-SHA2-128s signature: public key, signature, message (R362, FIPS 205). -/
opaque slhVerify : List Byte → List Byte → List Byte → Bool
/-- The device's own signatures over a message, by a counter, since the schemes are randomised; the private keys are the part's own
(R374). -/
opaque rsaSign : Nat → List Byte → BitVec 3072
opaque slhSign : Nat → List Byte → BitVec 62848
/-- The four device certificates, DER (R374). -/
opaque certificate : Nat → List Byte
/-- Vendor key hash in a factory fuse slot, big-endian (R365). -/
opaque vendorKey : Nat → BitVec 384
/-- The device UID, byte 0 first (R374). -/
opaque uid : Unit → BitVec 128
/-- Digest that the boot ROM extends MR0 with, of the fuse count and the revocation fuses: the boot ROM version and the layout of what is
hashed are the part's own (R375). -/
opaque bootMeasure : Nat → Nat → BitVec 384
/-- Digest of the security policy record: SIG_REQ, LIB_VER_MIN, library key hashes, owner key hash; its layout is the part's own (R375,
R381). -/
opaque policyDigest : Nat → Nat → List (Nat × Option (List Byte)) → Option (List Byte) → BitVec 384
/-- Where FW_STAGE puts its copy in the firmware and log area, in units of 64 bytes: the manual does not say (R382). -/
opaque stageOffset : Unit → BitVec 20
/-- A delay or VREF that training number n finds for a PHY key: the centre of a window that only the part has (R303). -/
opaque trainedDelay : Nat → Nat → BitVec 10

end Sys2Proof.Config
end

