-- ==== Sys2Proof/Machine/Bits.lean ====
section
/-! DEFINITION. Bit-field, sign and byte-order helpers (R4, R5): fields of written words, two's complement at a stated
width, little-endian bytes, saturating counters and the CRCs that the spec names. -/

namespace Sys2Proof.Machine

/-- Bits [hi:lo] of a number. -/
def bits (v hi lo : Nat) : Nat := (v / 2 ^ lo) % 2 ^ (hi + 1 - lo)

/-- Bit n of a number, as 0 or 1. -/
def bit (v n : Nat) : Nat := (v / 2 ^ n) % 2

/-- The signed value of a `w`-bit two's-complement field. -/
def signed (w v : Nat) : Int := if v % 2 ^ w < 2 ^ (w - 1) then (v % 2 ^ w : Nat) else ((v % 2 ^ w : Nat) : Int) - 2 ^ w

/-- The `w`-bit two's-complement field that holds a signed value (the value taken modulo 2^w). -/
def unsigned (w : Nat) (v : Int) : Nat := (v % 2 ^ w).toNat

/-- Clamp a signed value to a range. -/
def clampI (lo hi v : Int) : Int := if v < lo then lo else if hi < v then hi else v

/-- A counter that saturates at its width. -/
def satAdd (w v d : Nat) : Nat := if v + d < 2 ^ w then v + d else 2 ^ w - 1

/-- Little-endian value of a byte list (R4). -/
def leValue : List Byte → Nat
  | [] => 0
  | b :: bs => b.toNat + 256 * leValue bs

/-- The `n` little-endian bytes of a value (R4). -/
def leBytes : Nat → Nat → List Byte
  | 0, _ => []
  | n + 1, v => BitVec.ofNat 8 v :: leBytes n (v / 256)

/-- Ceiling division. -/
def ceilDiv (a b : Nat) : Nat := (a + b - 1) / b

/-- One bit of a CRC shifted most significant bit first, width `w`, polynomial `poly`. -/
def crcShift (w poly crc : Nat) : Nat :=
  if crc.testBit (w - 1) then ((crc * 2) % 2 ^ w) ^^^ poly else (crc * 2) % 2 ^ w

/-- Shift `n` bits. -/
def crcShifts (w poly : Nat) : Nat → Nat → Nat
  | 0, crc => crc
  | n + 1, crc => crcShifts w poly n (crcShift w poly crc)

/-- Take one byte into an unreflected CRC of width `w`. -/
def crcByte (w poly crc : Nat) (b : Byte) : Nat := crcShifts w poly 8 (crc ^^^ (b.toNat * 2 ^ (w - 8)))

/-- CRC-16/CCITT: polynomial 0x1021, initial value 0xFFFF, no reflection, no final XOR (R64). -/
def crc16 (bs : List Byte) : Nat := bs.foldl (crcByte 16 0x1021) 0xFFFF

/-- One bit of a reflected CRC. -/
def crcShiftR (poly crc : Nat) : Nat := if crc.testBit 0 then (crc / 2) ^^^ poly else crc / 2

/-- Shift `n` bits of a reflected CRC. -/
def crcShiftsR (poly : Nat) : Nat → Nat → Nat
  | 0, crc => crc
  | n + 1, crc => crcShiftsR poly n (crcShiftR poly crc)

/-- The greatest common block size: `n` items from `start`, as a list. -/
def rangeFrom (start : Nat) : Nat → List Nat
  | 0 => []
  | n + 1 => start :: rangeFrom (start + 1) n

/-- The numbers 0 to n-1. -/
def upTo (n : Nat) : List Nat := rangeFrom 0 n

end Sys2Proof.Machine
end

