-- ==== Sys2Proof/Machine/Store.lean ====
section
/-! DEFINITION. Sparse storage in one canonical form. A store is a list of (key, value) pairs with strictly rising keys
that lists no key holding its default value, so equal contents are equal lists. Memory, the register file and every array
of engine states are stores. Laws are in Sys2Proof/Laws/Store.lean. -/

namespace Sys2Proof.Machine

/-- A sparse map from keys to values. -/
abbrev Store (α : Type) := List (Nat × α)

/-- The value listed at key `k`, or the default `d`. -/
def Store.get {α : Type} (d : α) : Store α → Nat → α
  | [], _ => d
  | (k', v) :: l, k => if k' = k then v else Store.get d l k

/-- The store without key `k`. -/
def Store.drop {α : Type} (l : Store α) (k : Nat) : Store α :=
  match l with
  | [] => []
  | (k', v) :: l => if k' = k then Store.drop l k else (k', v) :: Store.drop l k

/-- Insert a pair before the first greater key. -/
def Store.insert {α : Type} (k : Nat) (v : α) : Store α → Store α
  | [] => [(k, v)]
  | (k', v') :: l => if k < k' then (k, v) :: (k', v') :: l else (k', v') :: Store.insert k v l

/-- Write `v` at key `k`; writing the default removes the entry. -/
def Store.set {α : Type} [DecidableEq α] (d : α) (l : Store α) (k : Nat) (v : α) : Store α :=
  if v = d then Store.drop l k else Store.insert k v (Store.drop l k)

/-- Change every listed value; one that becomes the default is dropped. -/
def Store.mapValues {α : Type} [DecidableEq α] (d : α) (f : α → α) (l : Store α) : Store α :=
  (l.map (fun p => (p.1, f p.2))).filter (fun p => decide (p.2 ≠ d))

/-- The keys rise strictly. -/
def Store.sorted {α : Type} : Store α → Bool
  | [] => true
  | [_] => true
  | (k, _) :: (k', v') :: l => decide (k < k') && Store.sorted ((k', v') :: l)

/-- The canonical form: strictly rising keys and no entry equal to the default. -/
def Store.wf {α : Type} [DecidableEq α] (d : α) (l : Store α) : Bool :=
  Store.sorted l && l.all (fun p => decide (p.2 ≠ d))

end Sys2Proof.Machine
end

