-- ==== Sys2Proof/Machine/Types.lean ====
section
/-! DEFINITION. The typed engine states that stand behind the registers: what the manual gives each engine beside its
register fields. Every structure's `Inhabited`-like reset value is named `<structure>.reset` where it is used. -/

namespace Sys2Proof.Machine

/-- An instant, in ticks elapsed since the cold reset; exact, since edges fall at rational instants (R53). -/
abbrev Instant := Rat

/-- Hidden state of a launch comparator (R44–R49). The staged time, ARM, PERIODIC and the rest are register fields. -/
structure Comparator where
  /-- armed count C -/
  c : Nat := 0
  /-- armed fraction f -/
  f : Nat := 0
  /-- armed too late: fires at the next tick (R49) -/
  late : Bool := false
  /-- elapsed tick of the arming that was late -/
  lateAt : Nat := 0
  /-- the time that a late re-arm puts in after the old time fires (R48) -/
  rearm : Option (Nat × Nat) := none
  /-- a late cancel: fires once and then disarms (R48) -/
  cancelled : Bool := false
deriving DecidableEq, Repr

/-- A TALLY speed command that waits for its instant or its quad's clock (R68). -/
structure SpeedCmd where
  /-- first edge at or after this instant -/
  due : Instant
  /-- the frame arrived too late, or its quad's clock was stopped -/
  late : Bool
  /-- 0 STEP, 1 LINEAR, 2 S_CURVE -/
  mode : Nat
  /-- target speed V, 16.48 revolutions per second -/
  target : Nat
  /-- ramp and blend times in units of 256 ticks -/
  ramp : Nat
  blend : Nat
deriving DecidableEq, Repr

/-- Hidden state of a quad sample clock (R52–R59). -/
structure QuadClock where
  /-- the clock makes edges -/
  running : Bool := false
  /-- a restart waits for its first edge (R56, R58) -/
  resuming : Bool := false
  /-- instant of edge 0 of the timeline -/
  edge0 : Instant := 0
  /-- index of the next edge -/
  next : Nat := 0
  /-- its edges are suspended by a power state below D0 (R398) -/
  dark : Bool := false
  /-- ENABLE rose below D0: the start waits for D0 (R402) -/
  startDue : Bool := false
  /-- a move back to the own synthesizer waits (R59) -/
  moveBack : Bool := false
  /-- TALLY speed commands not yet applied, in order of arrival -/
  tally : List SpeedCmd := []
deriving DecidableEq, Repr

/-- Hidden state of a gang load strobe (R61–R63). -/
structure Gstb where
  /-- aligned at least once since the last reset: has candidate edges (R61) -/
  hasEdges : Bool := false
  /-- instant of its edge 0 -/
  edge0 : Instant := 0
  /-- origin in 1/256 ticks of the count (R61) -/
  origin : Nat := 0
  /-- earliest instant at which the pending strobe may issue -/
  due : Instant := 0
  /-- SINGLE_LC names a comparator (R50, R51) -/
  named : Bool := false
deriving DecidableEq, Repr

/-- An epoch load beside its registers (R38). -/
structure EpochLoad where
  /-- elapsed tick of the write of ARM -/
  armedAt : Nat := 0
  /-- value of an EPOCH frame that still waits for a SYNC_REF edge -/
  value : Option Nat := none
deriving DecidableEq, Repr

/-- A commit of a page's shadow copies that waits for its instant (R420–R422). -/
structure Commit where
  page : Page
  inst : Nat
  mode : Nat
  lc : Nat
  /-- the commit instant, once known -/
  due : Option Instant := none
  /-- the values are captured -/
  captured : Bool := false
  /-- its comparator fired late (R421) -/
  late : Bool := false
deriving DecidableEq, Repr

/-! ### Tack pool and stream rings -/

/-- How a descriptor's due sample is set (R128). -/
inductive Hold where
  /-- plain: R85 -/
  | plain
  /-- held by release at the launch instant `at`; `late` as R49 -/
  | release (at_ : Instant) (late : Bool)
  /-- held by gang k; the commit sample's instant once committed -/
  | gang (k : Nat) (commit : Option Instant)
  /-- immediate: the earliest sample not yet computed when the packet was complete, by the instant of its edge -/
  | immediate (at_ : Instant)
deriving DecidableEq, Repr

/-- A complete packet: its cells, the producer class that reserved them, how it is held, and its poison tags (R160, R174). -/
structure Packet where
  cells : List Nat
  stitch : Bool
  hold : Hold := .plain
  /-- side-band parity bits of its words, as written (R159) -/
  parity : List Bool := []
  /-- some word carries a poison tag -/
  poison : Bool := false
  /-- header word 1 (COUNT) carries a poison tag -/
  poison1 : Bool := false
  /-- elapsed tick of the notice: when the packet was complete in its queue (R169) -/
  noticed : Nat := 0
deriving DecidableEq, Repr

/-- An entry of the link table (R158): where the queue goes on, counted in cells from its oldest one, the end-of-packet mark, and the
producer class that owns the cell. -/
structure LinkEntry where
  next : Option Nat
  last : Bool
  stitch : Bool
deriving DecidableEq, Repr

/-- One Tack queue (R158, R170): the head slot, the complete packets behind it, and the cells lost to a broken link. -/
structure TackQueue where
  head : Option Packet := none
  cells : List Packet := []
  /-- lost cells of the Stitcher and of the register interface, returned at the end of the sweep (R175) -/
  lostStitch : Nat := 0
  lostReg : Nat := 0
deriving DecidableEq, Repr

/-- The open-packet buffer of a register producer (R166–R168, R178). The PUSH_STAT bits are register fields. -/
structure Staging where
  /-- words received so far, oldest first -/
  words : List Nat := []
  /-- cells reserved -/
  cells : Nat := 0
  queue : Nat := 0
  /-- open at a flush point: discarded at its close (R177) -/
  doomed : Bool := false
  /-- elapsed tick of that flush point (R178) -/
  doomedAt : Nat := 0
deriving DecidableEq, Repr

/-- A run of stream bytes that the mover wrote without a break: `n` bytes from stream byte `t` on, at place `pos` in the partition's order
of writes. -/
structure RingRun where
  t : Nat
  pos : Nat
  n : Nat
deriving DecidableEq, Repr

/-- One body in a stream-ring partition (R179–R183). Stream byte `t` of the body is body byte `(start + t) mod len`. -/
structure RingPart where
  /-- address of the body's first byte in Quarry; 0 when the partition holds nothing -/
  body : Nat := 0
  len : Nat := 0
  circular : Bool := false
  start : Nat := 0
  /-- stream byte that the mover writes next -/
  wr : Nat := 0
  /-- what it has written, latest first; a resident body's rewind mark is where its first byte stands -/
  runs : List RingRun := []
  /-- bytes written to the partition so far, for whatever body: byte `pos` stands at offset `pos mod size` until `size` more are written -/
  wp : Nat := 0
  /-- stream byte up to which the body must be written to be ready (R181) -/
  need : Nat := 0
  /-- the refill has overtaken the mark (R183) -/
  spilled : Bool := false
deriving DecidableEq, Repr

/-- A channel's two partitions, each with the body that plays and the one being made ready (R181). -/
structure Ring where
  cur0 : RingPart := {}
  nxt0 : RingPart := {}
  cur1 : RingPart := {}
  nxt1 : RingPart := {}
  /-- the body before the present one, for the taps of a JOIN (R100) -/
  prv0 : RingPart := {}
  prv1 : RingPart := {}
  /-- the resident body that the player's rewind mark stands at, while another body plays (R183) -/
  mark0 : RingPart := {}
  mark1 : RingPart := {}
  /-- bytes written to each partition so far -/
  wp0 : Nat := 0
  wp1 : Nat := 0
deriving DecidableEq, Repr

/-! ### Synthesis -/

/-- A decoded descriptor (R83, R160). -/
structure Descr where
  kind : Nat := 0
  prio : Nat := 0
  more : Nat := 0
  seq : Nat := 0
  count : Nat := 0
  segaddr : Nat := 0
  flags : Nat := 0
  rsv : Nat := 0
  c1 : Nat := 0
  c2 : Nat := 0
deriving DecidableEq, Repr

/-- A partial slot (R94–R97). Amplitudes are in units of 2^-23, phases in units of 2^-48 cycle. -/
structure Slot where
  order : Bool := false
  freq : Nat := 0
  /-- phase p of a HZ slot; offset φ of an ORDER slot -/
  p : Nat := 0
  /-- crossfade from a0 to a1 over xfade samples; j samples since it began -/
  a0 : Int := 0
  a1 : Int := 0
  xfade : Nat := 0
  j : Nat := 0
  on : Bool := false
  /-- disabled when its crossfade to zero ends -/
  off : Bool := false
  amSrc : Nat := 0
  amDepth : Nat := 0
  pmSrc : Nat := 0
  pmDepth : Nat := 0
  /-- Nyquist fade (R97): faded, and how far (0 to 64) -/
  muted : Bool := false
  nyq : Nat := 0
  /-- allocation fade (R113), 0 present to 64 gone -/
  alloc : Nat := 0
deriving DecidableEq, Repr

/-- A segment as a player reads it (R77, R78). -/
structure SegRef where
  addr : Nat := 0
  quarry : Bool := false
  width : Nat := 16
  n : Nat := 0
  srate : Nat := 0
  gain : Int := 0
  m : Nat := 1
  nrevLog : Nat := 0
deriving DecidableEq, Repr

/-- What a JOIN keeps of the play before it (R100). -/
structure PrevPlay where
  seg : SegRef
  gain : Int
  circular : Bool
  fin : Nat
deriving DecidableEq, Repr

/-- A sample player (R98–R101). Positions are 32.32 samples. -/
structure Player where
  active : Bool := false
  angle : Bool := false
  seg : SegRef := {}
  gain : Int := 0
  /-- END: 0 WRAP, 1 HOLD, 2 ZERO, 3 FINISH -/
  fin : Nat := 0
  rate : Nat := 0
  pos : Nat := 0
  thetaRef : Nat := 0
  bank : Nat := 0
  muted : Bool := false
  /-- delivers 0 until its window is in the ring again (R182) -/
  waiting : Bool := false
  /-- a FINISH play has completed (R100) -/
  finished : Bool := false
  prev : Option PrevPlay := none
  /-- it was active on the latest sample computed (R100) -/
  ran : Bool := false
deriving DecidableEq, Repr

/-- One biquad section (R80): coefficients s2.29 and stored x and y. -/
structure Biquad where
  b0 : Int := 0
  b1 : Int := 0
  b2 : Int := 0
  a1 : Int := 0
  a2 : Int := 0
deriving DecidableEq, Repr

/-- Stored samples of one biquad section. -/
structure BiquadState where
  x1 : Int := 0
  x2 : Int := 0
  y1 : Int := 0
  y2 : Int := 0
deriving DecidableEq, Repr

/-- The noise shaper (R103, R104). -/
structure Noise where
  seed : Nat := 1
  gauss : Bool := false
  level : Int := 0
  secs : List Biquad := []
  states : List BiquadState := []
deriving DecidableEq, Repr

/-- The level generator (R105): a ramp from a0 to a1 over len samples, j samples since it began; len = 0 is a steady level a1. -/
structure LevelGen where
  a0 : Int := 0
  a1 : Int := 0
  len : Nat := 0
  j : Nat := 0
deriving DecidableEq, Repr

/-- A running PATTERN descriptor (R81, R84). -/
structure PatRun where
  body : Nat
  count : Nat
  width : Nat
  wrap : Bool
  toMarkers : Bool
  toPins : Bool
  patBase : Nat
  /-- entry in effect, its bits and the samples it still stands -/
  idx : Nat
  bits : Nat
  hold : Nat
  /-- tells one PATTERN descriptor of the channel from every other (R268) -/
  id : Nat
deriving DecidableEq, Repr

/-- A complete set of a channel's sources: the main branch, or an alternate's (R111, R141). -/
structure Sources where
  slots : Store Slot := []
  p0 : Player := {}
  p1 : Player := {}
  noise : Noise := {}
  level : LevelGen := {}
  /-- delivered values of the last sample, by source code (R106, R107) -/
  mods : List Int := []
  pat : Option PatRun := none
  /-- PATTERN descriptors applied so far, and the branch that counts them: 0 for the first, one more for each alternate -/
  patCount : Nat := 0
  patGen : Nat := 0
  m0 : Bool := false
  m1 : Bool := false
  /-- markers in a PULSE (R84) -/
  pulse0 : Bool := false
  pulse1 : Bool := false
  /-- a pulse whose one sample has been computed -/
  ended0 : Bool := false
  ended1 : Bool := false
  /-- latest sums, newest first, for the interpolator (R109) -/
  hist : List Int := []
deriving DecidableEq, Repr

/-- The edge signals of one branch on a synthesis sample: marker levels, pin levels asked for, and the PATTERN descriptor they are of
(R84, R268). -/
structure Signals where
  marks : Bool × Bool := (false, false)
  pins : List (Nat × Bool) := []
  patId : Nat := 0
deriving DecidableEq, Repr

/-- A synthesis sample whose codes the interpolator still has to form (R109): its signals, and those of the alternate branch where one
ran on it (R111). -/
structure Waiting where
  main : Signals
  alt : Option Signals
deriving DecidableEq, Repr

/-- What the CSE delivers while the channel idles (R88, R172). -/
inductive IdleMode where
  | hold | rest | repeat_
deriving DecidableEq, Repr

/-- A Channel Synthesis Engine beside its registers. -/
structure Cse where
  src : Sources := {}
  /-- the alternate branch, its descriptor and the event input that arms it (R141) -/
  alt : Option Sources := none
  altDescr : Descr := {}
  /-- idle behaviour of an alternate that was discarded (R141) -/
  altIdle : Option IdleMode := none
  altRing : Ring := {}
  /-- an alternate that is not ready yet, and the sample on which it was taken (R87, R141) -/
  altPend : Option (Descr × Int) := none
  altInput : Nat := 0
  /-- sample at which a descriptor that the alternate branch repeats is due again (R141, R173) -/
  altRepeat : Int := 0
  /-- alternates loaded so far -/
  altCount : Nat := 0
  /-- synthesis samples whose codes are still to come, oldest first (R109) -/
  chain : List Waiting := []
  /-- the current descriptor's due sample, and the descriptor itself -/
  due : Int := 0
  cur : Descr := {}
  /-- no descriptor stands: idle under R88 -/
  vacant : Bool := true
  /-- due sample of the latest descriptor held by release (R130) -/
  lastRel : Option Int := none
  /-- the player that the current descriptor started (R184) -/
  curPlayer : Option Nat := none
  /-- idle behaviour in effect: none while sources deliver -/
  idle : Option IdleMode := some .hold
  /-- last descriptor applied, for REPEAT (R173) -/
  last : Option Descr := none
  /-- sample at which a repeated descriptor is due again -/
  repeatDue : Int := 0
  /-- value of the last synthesis sample, in 2^-23 -/
  lastVal : Int := 0
  /-- dither generator (R110) -/
  dither : Nat := 1
  /-- descriptors applied on sample `appliedK` (R82) -/
  appliedK : Int := 0
  applied : Nat := 0
  /-- codes to drop when produced (R19, R56) -/
  dropCodes : Nat := 0
  /-- self-timed logic switched off (R415) -/
  powered : Bool := true
deriving DecidableEq, Repr

/-- A speed ramp in progress (R90, R93). -/
structure SpeedRamp where
  sCurve : Bool
  d0 : Nat
  d1 : Nat
  v0 : Nat
  v1 : Nat
  k : Nat
  blend : Nat
  j : Nat
  /-- channel whose page raises RAMP_DONE -/
  chan : Nat
deriving DecidableEq, Repr

/-- A stretch of the wheel's path since its last speed command or rate change (R87, R89): the angle on sample `k`, and how it goes on. -/
structure Leg where
  k : Int
  theta : Nat
  dn : Nat
  ramp : Option SpeedRamp
deriving DecidableEq, Repr

/-- The Phase Wheel of a quad and its synthesis timeline (R71, R89–R93). -/
structure Wheel where
  theta : Nat := 0
  /-- D of the next sample to compute -/
  d : Nat := 0
  /-- D of the sample after it, while no ramp runs -/
  dn : Nat := 0
  /-- speed in effect, 16.48 -/
  v : Nat := 0
  target : Nat := 0
  ramp : Option SpeedRamp := none
  /-- index of the next synthesis sample to compute -/
  k : Nat := 0
  /-- angle and increment of the latest sample computed, for the registers -/
  lastTheta : Nat := 0
  lastD : Nat := 0
  /-- sample on which a SPEED descriptor or TALLY command has already applied (R68, R92) -/
  speedAt : Option (Int × Nat) := none
  /-- the path so far, latest stretch first -/
  legs : List Leg := []
deriving DecidableEq, Repr

/-! ### Stitcher -/

/-- What a Stitcher waits for. -/
inductive Wait where
  | none
  /-- WAITT on comparator lc with advance and channel mask (R135) -/
  | time (lc adv chmask : Nat)
  /-- WAITE on input e (R139) -/
  | event (e fmask toJump lpop target timeout : Nat)
  /-- a push waits for credit (R127) -/
  | credit
  /-- GANG COMMIT in prepare (R151) -/
  | commit
  /-- GANG WAITC (R150) -/
  | waitc (k fjump target : Nat)
deriving DecidableEq, Repr

/-- A jump armed on an event input (R141). -/
structure ArmedJump where
  target : Nat
  lpop : Nat
  loops : Nat
  calls : Nat
  chmask : Nat
  /-- edge index at which the switch is due, once the event has arrived (R145) -/
  switchAt : Option Nat := none
deriving DecidableEq, Repr

/-- A GANG COMMIT in prepare. -/
structure GangCommit where
  k : Nat
  atLc : Bool
  lc : Nat
  fjump : Bool
  target : Nat
  qmask : Nat
deriving DecidableEq, Repr

/-- A Stitcher beside its registers (R115–R157). -/
structure Stitcher where
  /-- gangs of which a flush has discarded staged packets of the quad since its last READY (R151) -/
  flushed : List Nat := []
  /-- fetched instruction word waiting to execute -/
  ir : Option Nat := none
  pc : Nat := 0
  /-- loop stack, top first: passes left and body address -/
  loops : List (Nat × Nat) := []
  /-- call stack, top first: return address and loop depth -/
  calls : List (Nat × Nat) := []
  wait : Wait := .none
  /-- packets pushed per queue since enable, for SEQ (R126) -/
  seqs : Store Nat := []
  /-- release instants recorded by WAITT, by channel position (R135) -/
  release : Store (Option (Instant × Bool)) := []
  /-- channel positions whose next push is immediate (R137) -/
  immediate : List Nat := []
  /-- channel positions of the push instruction still to be pushed -/
  todo : List Nat := []
  /-- armed jumps by event input -/
  armed : Store (Option ArmedJump) := []
  /-- comparator arm generations already used by a WAITT (R135) -/
  used : Store Nat := []
  /-- outcome of the latest READY per gang: 0 none, 1 outstanding, 2 committed, 3 aborted (R150) -/
  outcome : Store Nat := []
  gang : Option GangCommit := none
  /-- elapsed tick at which the present wait or prepare began (R139, R151) -/
  waitFrom : Nat := 0
  /-- words fetched ahead, by word index (R116) -/
  ahead : Store (Option Nat) := []
  /-- a PLAY or PLAYA has just completed (R157) -/
  played : Bool := false
  /-- elapsed tick of the microcode switch request (R157) -/
  mcFrom : Nat := 0
  /-- self-timed logic switched off (R415) -/
  powered : Bool := true
deriving DecidableEq, Repr

/-! ### Output channels -/

/-- One entry of a sample queue: the main code, the alternate code, and the marker and pin changes of its edge (R84, R111). -/
structure SqEntry where
  code : Nat
  alt : Option Nat := none
  marks : Option (Bool × Bool) := none
  pins : List (Nat × Bool) := []
  /-- which PATTERN descriptor the pin bits belong to (R268) -/
  patId : Nat := 0
  /-- the alternate branch's signals of the edge -/
  altSig : Option Signals := none
deriving DecidableEq, Repr

/-- Where a span-change sequence stands (R213). -/
inductive SpanPhase where
  | none | slew | hold | switch | settle | release
deriving DecidableEq, Repr

/-- A channel's non-volatile record (R205); `bad` when its CRC does not match. -/
structure NvRecord where
  wake : Nat := 0
  wakeSpan : Nat := 0
  fault : Nat := 0
  safe : Nat := 0
  prefer : Nat := 0
  programs : Nat := 0
  bad : Bool := false
deriving DecidableEq, Repr

/-- An output channel beside its registers (R186–R218). -/
structure OutChan where
  /-- the sample queue: at most 8 codes (R12, R19) -/
  sq : List SqEntry := []
  /-- codes of samples already computed that find no room in the sample queue yet -/
  inter : List SqEntry := []
  /-- input latch (R190) -/
  latch : Option SqEntry := none
  /-- levels of the markers M0 and M1 -/
  m0 : Bool := false
  m1 : Bool := false
  /-- pattern bits as last asked for, by pin number, and the descriptor that has raised PAT_UNCLAIMED -/
  patBits : Store Bool := []
  patSeen : Nat := 0
  /-- code taken by the DAC register -/
  dac : Nat := 0
  /-- consecutive underrun ticks (R19) -/
  underruns : Nat := 0
  /-- a switchover requested for the next sample edge, by cause (R199) -/
  switchReq : Option Nat := none
  /-- local sensing requested for the next sample edge (R201) -/
  localReq : Bool := false
  spanPhase : SpanPhase := .none
  /-- the fault value is shown: FAULT_ENTER has come and FAULT_EXIT has not -/
  faulted : Bool := false
  /-- span that the running sequence goes to -/
  spanTo : Nat := 0
  /-- span that waits: committed but not yet in effect (R212, R214) -/
  spanPend : Option Nat := none
  /-- safe value taken at the start of the sequence (R207) -/
  safe : Nat := 0
  /-- the sequence runs to the wake span and has no release (R217) -/
  toWake : Bool := false
  /-- elapsed ticks at which the 4 ms count and the foldback began (R202, R203) -/
  limitFrom : Nat := 0
  /-- elapsed tick at which the stage last left its limit -/
  limitOut : Option Nat := none
  foldFrom : Nat := 0
  /-- the foldback is one of over-temperature, and its clear is held (R204) -/
  foldTemp : Bool := false
  clearHeld : Bool := false
  /-- elapsed tick at which a slew to the wake value or of a span change is over at the latest (R199, R217) -/
  slewUntil : Nat := 0
  /-- a bound channel's DAC register takes its latch at the next sample edge, without a strobe (R209, R213) -/
  rejoin : Bool := false
  /-- code of the last gang strobe that fell in the running span-change sequence (R214) -/
  strobed : Option Nat := none
  /-- the end of foldback waits for the next sample edge (R203) -/
  foldEnd : Bool := false
  /-- entry to or exit from FORCED that waits for the next edge (R208) -/
  forceReq : Option Bool := none
  /-- CORE_LOST that becomes active at the next edge (R234) -/
  lostReq : Bool := false
  /-- NVM operation queued or running on this channel: 0 none, 1 PROGRAM, 2 RELOAD -/
  nvmOp : Nat := 0
  record : NvRecord := {}
  /-- a NV_FAULT or NV_SAFE value in effect for the fault display (R207) -/
  faultVal : Nat := 0
  /-- wake value and span in effect since the last reset of the channel (R207) -/
  wakeVal : Nat := 0
  wakeSpan : Nat := 0
deriving DecidableEq, Repr

/-! ### Harness and PAT pins -/

/-- A record of a capture unit (R270). -/
structure CapRecord where
  count : Nat
  frac : Nat
  slots : Nat
  pat : Bool
deriving DecidableEq, Repr

/-- A Harness line beside its registers (R241–R244, R260). -/
structure HarnessLine where
  /-- in its re-arm interval since a firing at this elapsed tick -/
  firedAt : Option Nat := none
  /-- presentations counted in the storm window -/
  count : Nat := 0
  /-- storm threshold and window in effect; none before the first window: those of the reset (R261) -/
  prof : Option (Nat × Nat) := none
  /-- elapsed tick, plus 1, whose presentations have been considered, and how many of them -/
  seen : Nat := 0
  seenLen : Nat := 0
  /-- the line itself claimed its pin or capture unit (R252) -/
  holds : Bool := false
  /-- slots that name no comparator since theirs was released (R51, R247) -/
  voids : List Nat := []
  /-- a firing below D0 whose event is held at the consumer: its record (R401) -/
  held : Option CapRecord := none
  /-- the record of the event remembered while PENDING = 1 (R258, R271) -/
  kept : Option CapRecord := none
  /-- lines that this one feeds on a cycle, as last computed (R259) -/
  loopTo : List Nat := []
deriving DecidableEq, Repr

/-- A PAT pin beside its registers (R263–R269). -/
structure PinState where
  /-- driven state before INVERT: active, or the pattern bit -/
  level : Bool := false
  /-- level that the outside puts on the pin -/
  ext : Bool := false
  /-- a pulse is in progress -/
  pulsing : Bool := false
  /-- elapsed tick at which the pulse and its inactive tick are over -/
  until_ : Nat := 0
  /-- last selected edge at the ball: count and half-tick (R271) -/
  edge : Nat × Bool := (0, false)
  /-- level past the filter; a level that has not held long enough yet: the level, the elapsed half-tick at which it has, and its edge's
  stamp (R269) -/
  filt : Bool := false
  wait : Option (Bool × Nat × Nat × Bool) := none
  /-- elapsed half-tick, plus 1, of the last edge that presented -/
  shown : Nat := 0
deriving DecidableEq, Repr


/-! ### Quarry -/

/-- A request in a QoS port (R280). -/
structure QReq where
  id : Nat
  port : Nat
  master : Nat
  write : Bool
  addr : Nat
  len : Nat
  /-- elapsed tick of its acceptance -/
  at_ : Nat
  /-- a read's bytes as every earlier write left them, and its poison mark (R279, R290) -/
  data : List Byte
  poison : Bool
deriving DecidableEq, Repr

/-- A unit access of a request that waits in a bank queue (R278, R282). -/
structure QUnit where
  id : Nat
  port : Nat
  rank : Nat
  bank : Nat
  row : Nat
  at_ : Nat
  /-- bytes that it reads: address and length; no length for a write -/
  addr : Nat
  len : Nat
deriving DecidableEq, Repr

/-- A memory access of a master that waits until Quarry serves again (R282, R285, R301). -/
structure BusWait where
  master : Nat
  addr : Nat
  len : Nat
  /-- the bytes of a write -/
  data : Option (List Byte)
  at_ : Nat
deriving DecidableEq, Repr

/-- Metadata of a Quarry row (R275): the generation of its initialisation, the poison bits of its 28 ECC words in three copies, and the
CRC. -/
structure RowMeta where
  gen : Nat := 0
  poison0 : Nat := 0
  poison1 : Nat := 0
  poison2 : Nat := 0
  crc : Nat := 0
deriving DecidableEq, Repr

/-- A DRAM bank: its open row, consecutive hits, last access, and its activate tracker (R282, R283, R287). -/
structure Bank where
  row : Option Nat := none
  hits : Nat := 0
  last : Nat := 0
  /-- tracker entries, row and count, oldest first, at most 16 -/
  entries : List (Nat × Nat) := []
  floor : Nat := 0
  /-- ports throttled until the end of the window, with the elapsed tick of their last activate (R288) -/
  throttled : List (Nat × Nat) := []
  /-- rows whose neighbours are to be refreshed (R288) -/
  mitigate : List Nat := []
deriving DecidableEq, Repr

/-- Where a change of operating point stands (R300, R301). -/
inductive OpPhase where
  | idle | waitLc | drain | aborted | outage
deriving DecidableEq, Repr

/-- Quarry beside its registers (R274–R304). -/
structure Quarry where
  reqs : List QReq := []
  units : List QUnit := []
  nextId : Nat := 0
  /-- banks by rank × 16 + bank -/
  banks : Store Bank := []
  /-- rotating pointer of each channel, over chip select × 16 + bank -/
  ptr : Store Nat := []
  refreshing : Bool := false
  /-- trained since the cold reset (R303) -/
  trained : Bool := false
  lastRefresh : Nat := 0
  /-- memory accesses that wait for the end of a refresh stall, a self-refresh or an outage, oldest first (R285, R301) -/
  waiting : List BusWait := []
  /-- rows that have been written in this generation, by physical rank × 2^22 + W (R275, R276) -/
  rows : Store (Option RowMeta) := []
  /-- the background pass has initialised every row -/
  initAll : Bool := false
  /-- ECC words whose cells hold an error, by physical rank, unit and word: 1 one that every lane corrects, 2 an uncorrectable one (R289) -/
  flaws : Store Nat := []
  /-- elapsed ticks of the migration's copies within the last 10 us (R293) -/
  copies : List Nat := []
  /-- rank failures that wait for their migration or retirement, with their cause (R292) -/
  fails : List (Nat × Nat) := []
  /-- corrected words per physical rank in the present hour, its start, and uncorrectable words since the cold reset -/
  ceHour : Store Nat := []
  hourFrom : Nat := 0
  ueCount : Store Nat := []
  op : OpPhase := .idle
  opTarget : Nat := 0
  /-- comparator that the request waits for (R300) -/
  opLc : Nat := 0
  /-- elapsed tick of the commit point -/
  opFrom : Nat := 0
  /-- the present entry ignores urgency (R301) -/
  opForced : Bool := false
  /-- PHY delays and VREFs: set, channel, chip select, operating point, kind, bit (R303) -/
  dly : Store (Option Nat) := []
  /-- elapsed tick of each rank's last drift measurement (R304) -/
  driftAt : Store (Option Nat) := []
  /-- number of the training whose results stand where nothing has been written since (R303) -/
  dlySeed : Option Nat := none
deriving DecidableEq, Repr

/-! ### Burnish -/

/-- The trims of a core (R230), as unsigned fields. -/
structure CoreTrim where
  elems : Store Nat := []
  ladder : Store Nat := []
  gain : Nat := 0
  offset : Nat := 0
deriving DecidableEq, Repr

/-- A copy of the core-map record (R238). -/
structure MapRecord where
  map : List Nat
  roles : List Nat
  suspect : List Nat
  gen : Nat
  bad : Bool := false
deriving DecidableEq, Repr

/-- A failover that waits for its switch (R233). -/
structure Failover where
  pos : Nat
  /-- 1 HEALTH, 2 DEVIATION, 3 HOST -/
  cause : Nat
  retire : Bool
  /-- edge of the position's quad, and elapsed tick, from which the spare is fed -/
  edge : Nat
  tick : Nat
deriving DecidableEq, Repr

/-- Means of a reference frame, in sense LSB (R228). -/
structure RefFrame where
  ref : Rat
  agnd : Rat
deriving DecidableEq, Repr

/-- A sense sample as the fit takes it (R228, R229): its code, the code of the edge before, and its error u − x in DAC LSB. -/
structure SensePoint where
  x : Nat
  prev : Nat
  err : Rat
deriving DecidableEq, Repr

/-- A tier's Burnish state beside the SPARE registers (R220–R239). -/
structure TierState where
  /-- first position considered for the next visit -/
  nextPos : Nat := 0
  /-- elapsed tick of the last RELEASE or cancellation -/
  since : Nat := 0
  /-- edge at which shadowing started -/
  n0 : Nat := 0
  /-- a match has failed once -/
  retried : Bool := false
  /-- elapsed tick of the match decision plus 2 us -/
  decided : Option Nat := none
  /-- stage gain and offset that the match window found, in trim steps (R230) -/
  stageFit : Rat × Rat := (0, 0)
  visitReq : Option Nat := none
  /-- the spare is recalibrated after a failed match (R224) -/
  offline : Bool := false
  /-- elapsed tick from which the window counts, ticks counted before its last pause, samples of the part before an extension -/
  windowFrom : Nat := 0
  windowDone : Nat := 0
  window : List SensePoint := []
  /-- reference frames since the visit began, the latest first, and the elapsed tick of the latest (R228) -/
  frames : List RefFrame := []
  frameAt : Option Nat := none
  /-- the measuring window has been extended -/
  extended : Bool := false
  /-- the core in CAL came from a HOST failover with RETIRE = 0 -/
  hostCal : Bool := false
  /-- calibration abandoned at this elapsed tick: the covered channel goes back 20 us later -/
  abandonFrom : Option Nat := none
  /-- the covering spare itself fails, with this cause and whether it is retired -/
  spareFails : Option (Nat × Bool) := none
  failovers : List Failover := []
  /-- phase paused by a capture or a power state, and since when -/
  paused : Option (Nat × Nat) := none
  /-- consecutive CAL_FAILs per core -/
  calFails : Store Nat := []
  /-- last-good trims per core -/
  good : Store CoreTrim := []
  /-- parameters of each core's model as its last VERIFY left them (R229, R230) -/
  models : Store (List Rat) := []
  /-- elapsed tick, plus 1, of each core's last VERIFY pass since the cold reset -/
  verified : Store Nat := []
  /-- NO_SPARE has been raised since the tier last had a core in SPARE -/
  noSpare : Bool := false
  /-- the core map has changed since its record; the change is not coalesced; tick of the last write -/
  mapDirty : Bool := false
  mapUrgent : Bool := false
  mapSaved : Nat := 0
  recA : Option MapRecord := none
  recB : Option MapRecord := none
  /-- non-volatile last-good trims and stage trims -/
  nvGood : Store CoreTrim := []
  nvStage : Store (Nat × Nat) := []
  /-- factory trims per core (R238) -/
  factory : Store CoreTrim := []
  /-- a capture waits for its comparator; its next address; it ends at the next sample -/
  capWait : Bool := false
  capAddr : Nat := 0
  capAbort : Bool := false
deriving DecidableEq, Repr

/-! ### Benches -/

/-- A bench access as it reaches its port (R310, R316). -/
structure BenchAccess where
  master : Nat
  /-- 0 read, 1 write, 2 bit-set alias, 3 bit-clear alias -/
  kind : Nat
  /-- bench offset of the first byte -/
  off : Nat
  len : Nat
  data : List Byte
  /-- the data carries a poison mark (R307) -/
  mark : Bool
  /-- a port A write of the same array cycle: master, kind, offset, data (R311) -/
  other : Option (Nat × Nat × Nat × List Byte)
deriving DecidableEq, Repr

/-- The benches beside their registers (R305–R327). -/
structure Benches where
  /-- elapsed tick of the last access of each bench -/
  last : Store Nat := []
  /-- accesses held while their bench wakes (R318), in order -/
  held : List BenchAccess := []
  /-- words whose cells hold an error, by offset / 4: 1 one that the code corrects, 2 an uncorrectable one (R306) -/
  flaws : Store Nat := []
  /-- bench whose replacement waits for the RESTORE of an ended test (R326) -/
  next : Option Nat := none
  /-- uncorrectable words per bench since the cold reset; 16 stands for the spare -/
  ueCount : Store Nat := []
  /-- bench and pages of the test or of the COVERED range; the test has been ended by ABORT (R320, R322) -/
  bist : Nat := 0
  first : Nat := 0
  stop : Nat := 0
  aborted : Bool := false
deriving DecidableEq, Repr

/-! ### Host ports -/

/-- What a port's tunnel does or has done (R341–R344). -/
inductive TunnelOp where
  | none | write | fetch
deriving DecidableEq, Repr

/-- A control port beside its registers (R328–R351). -/
structure Port where
  /-- IBIs enabled (ENINT) -/
  enint : Bool := true
  /-- protocol error since the last GETSTATUS (R336) -/
  protoErr : Bool := false
  /-- SCL or SDA is held low (R349) -/
  stuck : Bool := false
  /-- elapsed tick of the last transfer addressed to the port or broadcast CCC -/
  alive : Nat := 0
  /-- elapsed tick of the last frame (R377) -/
  frameAt : Nat := 0
  /-- elapsed tick, plus 1, of the last IBI acknowledged or NACKed -/
  lastIbi : Nat := 0
  /-- LINK and READY interrupts still to be sent (R346) -/
  linkIbi : Bool := false
  readyIbi : Bool := false
  /-- defining byte of the last RSTACT that sets a reset action -/
  rstByte : Nat := 1
  /-- the last frame was a MEM frame: a private read reads the tunnel -/
  memLast : Bool := false
  /-- the transfer of every ownership to this port has been accepted (R351) -/
  adopting : Bool := false
  tun : TunnelOp := .none
  tunAddr : Nat := 0
  tunLen : Nat := 0
  tunData : List Byte := []
  /-- POISON, DENIED and DROPPED of TSTAT -/
  tunPoison : Bool := false
  tunDenied : Bool := false
  tunDropped : Bool := false
deriving DecidableEq, Repr

/-! ### xSPI port and loader -/

/-- A Gamond directory entry (R357). -/
structure DirEntry where
  src : Nat
  len : Nat
  dest : Nat
  crc : Nat
  seg : Bool
  /-- reserved bytes 13 to 15 and 25 to 31 are 0 and TYPE is 0 or 1 -/
  formOk : Bool
deriving DecidableEq, Repr

/-- The loader beside its registers (R353–R361). -/
structure Loader where
  /-- the raw command under way reads data, and how many bytes -/
  rawRead : Bool := false
  rawLen : Nat := 0
  /-- the job loads an image; RAW destination and length as taken at its start -/
  image : Bool := false
  dst : Nat := 0
  len : Nat := 0
  src : Nat := 0
  /-- the header and the directory are still to be read -/
  headDue : Bool := false
  signed : Bool := false
  sigOff : Nat := 0
  libVer : Nat := 0
  dir : List DirEntry := []
  /-- bytes of the running entry copied so far -/
  got : List Byte := []
deriving DecidableEq, Repr

/-! ### Security and firmware -/

/-- What the device keeps of a firmware image that passed its checks (R366). -/
structure FwImage where
  ver : Nat
  svn : Nat
  /-- vendor key slot that signed it -/
  key : Nat
  handoffVer : Nat
  handoffMin : Nat
  mcVer : Nat
  live : Bool
  digest : List Byte
  /-- SHA-384 of its microcode -/
  mcDigest : List Byte
deriving DecidableEq, Repr

/-- What the boot ROM does (R368). -/
inductive BootPhase where
  /-- not booting: an image runs, or recovery, or power-up has not come so far -/
  | idle
  /-- the boot ROM is about to start -/
  | due
  /-- reads the preferred slot -/
  | first
  /-- the preferred slot failed: reads the other -/
  | second
deriving DecidableEq, Repr

/-- Where a live takeover stands (R384). -/
inductive Takeover where
  | none
  /-- step 1: the staged code is being copied -/
  | copy
  /-- steps 3 and 4: the new image runs on probation -/
  | probation
  /-- step 5: probation has passed, microcode switches are under way -/
  | switching
deriving DecidableEq, Repr

/-- A doorbell that waits: its port, operation and tag (R378). -/
structure MbCall where
  port : Nat
  op : Nat
  tag : Nat
deriving DecidableEq, Repr

/-- The result of a mailbox command that has been served and not yet reported (R378). -/
structure MbReply where
  op : Nat
  tag : Nat
  result : Nat
  res : List Nat := []
deriving DecidableEq, Repr

/-- The management core and its records beside the SEC registers (R362–R386). -/
structure Sec where
  running : Option FwImage := none
  /-- the image that ran before a takeover in progress, and its RUN_SRC -/
  old : Option (FwImage × Nat) := none
  staged : Option FwImage := none
  /-- bytes of the staged image in the firmware area -/
  stagedLen : Nat := 0
  boot : BootPhase := .idle
  /-- elapsed tick at which the boot ROM started -/
  bootFrom : Nat := 0
  /-- elapsed tick of the last watchdog kick -/
  wdtFrom : Nat := 0
  /-- challenge of each port with the elapsed tick of its issue (R377) -/
  challenges : Store (Option (List Byte × Nat)) := []
  /-- owner key hash and library key hashes of the policy record (R381) -/
  owner : Option (List Byte) := none
  libKeys : Store (Option (List Byte)) := []
  /-- slot that becomes the preferred one as the FW_INSTALL in progress ends (R383) -/
  prefer : Option Nat := none
  /-- what each slot holds, as last checked -/
  slots : Store (Option FwImage) := []
  /-- doorbells that wait, in order of arrival -/
  mail : List MbCall := []
  replies : Store (Option MbReply) := []
  takeover : Takeover := .none
  /-- the command that asked for the takeover, and the microcode switches it made -/
  caller : Option MbCall := none
  switches : Nat := 0
  /-- quads that firmware records as rehomed in the non-volatile store (R393) -/
  rehomed : Option Nat := none
deriving DecidableEq, Repr

/-! ### Power -/

/-- The power and reset supervision beside its registers (R387–R410). -/
structure Power where
  /-- elapsed tick since which the device has been quiet without a break (R400) -/
  quietFrom : Option Nat := none
  /-- elapsed tick at which the present entry or exit began -/
  phaseFrom : Nat := 0
  /-- ticks spent in each state beyond the whole milliseconds of RESIDENCY -/
  resid : Store Nat := []
  /-- steps of the outputs' power-up done: 1 records loaded, 2 references settled, 3 stages biased, 4 switches closed, 5 wake value (R216)
  -/
  step : Nat := 0
  /-- elapsed tick of the latest cause of the warm reset in progress -/
  warmFrom : Nat := 0
  /-- a field that restarts with its next sample: PACE.MIN of quad q by q, THERM_STAT.PEAK by 12 (R404, R405) -/
  fresh : Store Bool := []
  /-- SPARE_SUM as last judged (R407) -/
  spareSeen : Nat := 0
  /-- milliseconds in each temperature band, the extremes of Tj since the last counted swing, in 0.25 °C (R410) -/
  lifeMs : Store Nat := []
  tjLow : Int := 0
  tjHigh : Int := 0
  /-- a first temperature has been read -/
  tjRead : Bool := false
  /-- the saved counts: hours by band, PWRGD cycles, thermal swings; elapsed tick of the last save -/
  lifeSaved : List Nat := []
  lifeFrom : Nat := 0
deriving DecidableEq, Repr

end Sys2Proof.Machine
end

