-- ==== Sys2Proof/Machine/State.lean ====
section
/-! DEFINITION. The state of the block: registers, memory, engine states and the queue of waiting commands; its reset; and
the reasons a step can stop. -/

namespace Sys2Proof.Machine

/-- Why a command could fault. No meaning of this model raises one: the manual answers every command with an effect, a
refusal that it records in a register, or nothing. -/
inductive Fault where
  /-- raised by nobody; present because a closed type of reasons needs a member. Safe: it never occurs. -/
  | never
deriving DecidableEq, Repr

/-- Why a command could be refused by the model. -/
inductive Refusal where
  /-- a command whose meaning is not written; raised only by the dispatch. Safe: the step stops. -/
  | notModelled (mnemonic : String)
deriving DecidableEq, Repr

/-- The key of one stored field: register, page instance, array index, element. -/
def key (r : Reg) (inst idx sub : Nat) : Nat :=
  Nat.pair inst (Nat.pair idx sub) * 1024 + r.ctorIdx

/-- Reset values that differ between instances or elements: CTRL.ENABLE per page (R415, R423), the latency targets of R280,
the core map, roles and rank map as shipped (R222, R274). Every other field has the one value of its table. -/
def Reg.resetVal (r : Reg) (inst idx sub : Nat) : Nat :=
  match r with
  | .CTRL_ENABLE =>
    if idx = 0x10 ∨ idx = 0x11 ∨ idx = 0x12 then 0 else if idx = 0x13 then (if inst = 12 then 1 else 0) else 1
  | .QUARRY_PORT_TGT_TGT =>
    match idx with
    | 0 => 100 | 1 => 200 | 2 => 2000 | 3 => 5000 | 4 => 2000 | 5 => 400 | _ => 20000
  | .SPARE_CORE_MAP => sub % 16
  | .SPARE_CORE_STATE_ROLE => if sub = 12 then 1 else 0
  | .SPARE_STATUS_SPARE_CORE => 12
  | .SPARE_STATUS_SPARE_FREE => 1
  | .QUARRY_LRMAP_MAP => sub % 16
  | .QUARRY_LRMAP_SPARE => 7
  | .QUARRY_RANK_STATE_STATE => if sub = 7 then 1 else 0
  | .QUARRY_CAPACITY_N_ACTIVE => 7
  | .QUARRY_CAPACITY_WAVE_GIB => 48
  | .QUARRY_GEN_GEN => 1
  | .BENCH_STATUS_SPARE_COVER => 0x1F
  | .I3C_PTR_LO_ADDR => if inst = 1 then 0x20002000 else 0x20001000
  | _ => r.info.rst

/-- Where the device stands between power-off and operation (R9, R216, R391–R394). -/
inductive Dev where
  /-- PWRGD low -/
  | off
  /-- PWRGD high; the power-up sequence runs -/
  | powerup
  /-- held in a warm reset -/
  | warm
  /-- running -/
  | up
deriving DecidableEq, Repr

/-- The state of the block. -/
structure State where
  /-- commands that wait, first in first out -/
  pending : List Instr
  dev : Dev
  /-- timebase count (R38) -/
  now : Nat
  /-- 400 MHz ticks elapsed since the cold reset, whatever the count was loaded with -/
  osc : Nat
  /-- stored register fields that differ from their reset values -/
  regs : Store Nat
  /-- shadowed fields: the value in effect, where it differs from the reset value (R8) -/
  eff : Store Nat
  /-- shadowed fields: the value captured by a pending commit (R422) -/
  cap : Store Nat
  /-- the holding register of each master (R5): the address of the upper register and the held half -/
  held : Store (Option (Nat × Nat))
  /-- data answered by the last read -/
  readData : List Byte
  /-- producer codes presented in the present tick (R246) -/
  presented : List Nat
  /-- pending commits of shadow copies -/
  commits : List Commit
  /-- elapsed tick of the last raise of each event under a hold-off (R443) -/
  holdoff : Store Nat
  /-- bytes of the benches and of Quarry that are not zero (R276, R327) -/
  mem : Store Byte
  /-- poisoned words: bench words by address (R306), Quarry ECC words by address (R275) -/
  poison : Store Bool
  /-- the epoch load (R38) -/
  epoch : EpochLoad
  /-- the reference PLL has locked since the cold reset (R38, R394) -/
  pllStarted : Bool
  lcs : Store Comparator
  /-- how often each comparator has been armed; tells one armed time from the next (R135) -/
  lcGen : Store Nat
  clocks : Store QuadClock
  gstbs : Store Gstb
  wheels : Store Wheel
  cses : Store Cse
  stitchers : Store Stitcher
  queues : Store TackQueue
  staging : Store Staging
  rings : Store Ring
  outs : Store OutChan
  lines : Store HarnessLine
  pins : Store PinState
  capus : Store (List CapRecord)
  /-- events on their way to a Stitcher input: Stitcher and input -/
  evin : List (Nat × Nat)
  /-- NVM operations waiting in order, by channel (R206) -/
  nvmQueue : List Nat
  ports : Store Port
  /-- ADDR[2:0] as sampled (R329) -/
  addrPins : Nat
  /-- level of the TEST_EN pin, tied low by the board (R437) -/
  testEn : Bool
  ldr : Loader
  sec : Sec
  pwr : Power
  qry : Quarry
  ben : Benches
  /-- ring bytes whose refill met a write collision: not held until refilled (R180, R311) -/
  missed : Store Bool
  tiers : Store TierState
  /-- factory value of V_REF in volts, from the non-volatile trim (R228, R238) -/
  vref : Rat
  /-- elapsed tick of the last save of trims; a save is asked for (R239) -/
  trimSaved : Nat
  trimDue : Bool
  /-- firmware runs on the management core (R208, R373) -/
  fwUp : Bool
  /-- counter that the model's free values are drawn by; not the manual's -/
  free : Nat
deriving DecidableEq, Repr

/-- The machine after a cold reset, PWRGD low (R9, R393): every field at the Reset value of its table, nothing in memory, no
command waiting; the records of the non-volatile store as shipped (R222, R411), or empty where the manual states none. -/
def State.reset : State where
  pending := []
  dev := .off
  now := 0
  osc := 0
  regs := []
  eff := []
  cap := []
  held := []
  readData := []
  presented := []
  commits := []
  holdoff := []
  mem := []
  poison := []
  epoch := {}
  pllStarted := false
  lcs := []
  lcGen := []
  clocks := []
  gstbs := []
  wheels := []
  cses := []
  stitchers := []
  queues := []
  staging := []
  rings := []
  outs := []
  lines := []
  pins := []
  capus := []
  evin := []
  nvmQueue := []
  ports := []
  addrPins := 0
  testEn := false
  ldr := {}
  sec := {}
  pwr := {}
  qry := {}
  ben := {}
  missed := []
  tiers := []
  vref := Config.factoryVref ()
  trimSaved := 0
  trimDue := false
  fwUp := false
  free := 0

end Sys2Proof.Machine
end

