-- ==== Sys2Proof/Machine/Ops.lean ====
section
/-! DEFINITION. The named operations every command is written with: field reads and writes, engine-state access, events
(R416), error records (R418), the access checks of R23, and the bytes of memory with their region checks. -/

namespace Sys2Proof.Machine

/-- What a command answers. -/
abbrev Out := Host.Outcome State Fault Refusal

/-! ### Register fields -/

/-- Width of a field in bits. -/
def Reg.width (r : Reg) : Nat := r.info.width

/-- The value of a stored field. -/
def State.rd (s : State) (r : Reg) (inst : Nat := 0) (idx : Nat := 0) (sub : Nat := 0) : Nat :=
  Store.get (r.resetVal inst idx sub) s.regs (key r inst idx sub)

/-- Store a field, modulo its width. -/
def State.wr (s : State) (r : Reg) (v : Nat) (inst : Nat := 0) (idx : Nat := 0) (sub : Nat := 0) : State :=
  { s with regs := Store.set (r.resetVal inst idx sub) s.regs (key r inst idx sub) (v % 2 ^ r.width) }

/-- The value in effect of a shadowed field (R8). -/
def State.rdEff (s : State) (r : Reg) (inst : Nat := 0) (idx : Nat := 0) (sub : Nat := 0) : Nat :=
  Store.get (r.resetVal inst idx sub) s.eff (key r inst idx sub)

/-- Put a shadowed field into effect. -/
def State.wrEff (s : State) (r : Reg) (v : Nat) (inst : Nat := 0) (idx : Nat := 0) (sub : Nat := 0) : State :=
  { s with eff := Store.set (r.resetVal inst idx sub) s.eff (key r inst idx sub) (v % 2 ^ r.width) }

/-- The captured value of a shadowed field (R422). -/
def State.rdCap (s : State) (r : Reg) (inst : Nat := 0) (idx : Nat := 0) (sub : Nat := 0) : Nat :=
  Store.get (r.resetVal inst idx sub) s.cap (key r inst idx sub)

/-- Capture the shadow copy of a field. -/
def State.capture (s : State) (r : Reg) (inst : Nat := 0) (idx : Nat := 0) (sub : Nat := 0) : State :=
  { s with cap := Store.set (r.resetVal inst idx sub) s.cap (key r inst idx sub) (s.rd r inst idx sub) }

/-- Put the reset value back. -/
def State.rst (s : State) (r : Reg) (inst : Nat := 0) (idx : Nat := 0) (sub : Nat := 0) : State :=
  { s with regs := Store.set (r.resetVal inst idx sub) s.regs (key r inst idx sub) (r.resetVal inst idx sub) }

/-- Add to a counter field, saturating at its width. -/
def State.inc (s : State) (r : Reg) (inst : Nat := 0) (idx : Nat := 0) (sub : Nat := 0) : State :=
  s.wr r (satAdd r.width (s.rd r inst idx sub) 1) inst idx sub

/-- Write a field only under a condition. -/
def State.wrIf (s : State) (c : Bool) (r : Reg) (v : Nat) (inst : Nat := 0) (idx : Nat := 0) (sub : Nat := 0) : State :=
  if c then s.wr r v inst idx sub else s

/-- A 64-bit quantity in two 32-bit fields (R5). -/
def State.rd64 (s : State) (lo hi : Reg) (inst : Nat := 0) (idx : Nat := 0) : Nat :=
  s.rd lo inst idx + 2 ^ 32 * s.rd hi inst idx

/-- Store a 64-bit quantity in two fields (R5). -/
def State.wr64 (s : State) (lo hi : Reg) (v : Nat) (inst : Nat := 0) (idx : Nat := 0) : State :=
  (s.wr lo v inst idx).wr hi (v / 2 ^ 32) inst idx

/-- The bits of a bitmap field as one number, bit `b` from element `b`. -/
def State.bitmap (s : State) (r : Reg) (n : Nat) (inst : Nat := 0) (idx : Nat := 0) : Nat :=
  (upTo n).foldr (fun b acc => acc + s.rd r inst idx b * 2 ^ b) 0

/-- Apply a state change for each element of a list, in order. -/
def each {α : Type} (xs : List α) (f : α → State → State) (s : State) : State := xs.foldl (fun s x => f x s) s

/-! ### Engine states -/

def State.lc (s : State) (i : Nat) : Comparator := Store.get {} s.lcs i
def State.setLc (s : State) (i : Nat) (v : Comparator) : State := { s with lcs := Store.set {} s.lcs i v }
def State.clock (s : State) (q : Nat) : QuadClock := Store.get {} s.clocks q
def State.setClock (s : State) (q : Nat) (v : QuadClock) : State := { s with clocks := Store.set {} s.clocks q v }
def State.gstb (s : State) (k : Nat) : Gstb := Store.get {} s.gstbs k
def State.setGstb (s : State) (k : Nat) (v : Gstb) : State := { s with gstbs := Store.set {} s.gstbs k v }
def State.wheel (s : State) (q : Nat) : Wheel := Store.get {} s.wheels q
def State.setWheel (s : State) (q : Nat) (v : Wheel) : State := { s with wheels := Store.set {} s.wheels q v }
/-- The CSE of channel c; its dither generator starts at c + 1 (R110). -/
def State.cse (s : State) (c : Nat) : Cse := Store.get { dither := c + 1 } s.cses c
def State.setCse (s : State) (c : Nat) (v : Cse) : State := { s with cses := Store.set { dither := c + 1 } s.cses c v }
def State.stitcher (s : State) (q : Nat) : Stitcher := Store.get {} s.stitchers q
def State.setStitcher (s : State) (q : Nat) (v : Stitcher) : State := { s with stitchers := Store.set {} s.stitchers q v }
def State.queue (s : State) (i : Nat) : TackQueue := Store.get {} s.queues i
def State.setQueue (s : State) (i : Nat) (v : TackQueue) : State := { s with queues := Store.set {} s.queues i v }
def State.stage (s : State) (m : Nat) : Staging := Store.get {} s.staging m
def State.setStage (s : State) (m : Nat) (v : Staging) : State := { s with staging := Store.set {} s.staging m v }
def State.ring (s : State) (c : Nat) : Ring := Store.get {} s.rings c
def State.setRing (s : State) (c : Nat) (v : Ring) : State := { s with rings := Store.set {} s.rings c v }
def State.out (s : State) (c : Nat) : OutChan := Store.get {} s.outs c
def State.setOut (s : State) (c : Nat) (v : OutChan) : State := { s with outs := Store.set {} s.outs c v }
def State.line (s : State) (i : Nat) : HarnessLine := Store.get {} s.lines i
def State.setLine (s : State) (i : Nat) (v : HarnessLine) : State := { s with lines := Store.set {} s.lines i v }
def State.pin (s : State) (i : Nat) : PinState := Store.get {} s.pins i
def State.setPin (s : State) (i : Nat) (v : PinState) : State := { s with pins := Store.set {} s.pins i v }
def State.capu (s : State) (u : Nat) : List CapRecord := Store.get [] s.capus u
def State.setCapu (s : State) (u : Nat) (v : List CapRecord) : State := { s with capus := Store.set [] s.capus u v }
def State.tier (s : State) (t : Nat) : TierState := Store.get {} s.tiers t
def State.setTier (s : State) (t : Nat) (v : TierState) : State := { s with tiers := Store.set {} s.tiers t v }
def State.port (s : State) (j : Nat) : Port := Store.get {} s.ports j
def State.setPort (s : State) (j : Nat) (v : Port) : State := { s with ports := Store.set {} s.ports j v }
/-- A producer presents an event in this tick (R242). -/
def present (code : Nat) (s : State) : State := { s with presented := s.presented ++ [code] }

/-! ### Quads, channels, tiers (R3) -/

/-- The quad of a channel. -/
def quadOf (c : Nat) : Nat := c / 4
/-- The tier of a quad. -/
def tierOf (q : Nat) : Nat := q / 3
/-- The four channels of a quad. -/
def chansOf (q : Nat) : List Nat := rangeFrom (4 * q) 4

/-! ### Commands -/

/-- A command that needs a running device: off, in power-up or in reset it changes nothing. -/
def act (s : State) (f : State → State) : Out := .next (if s.dev = .up then f s else s)

/-- An event that happens only under its condition; otherwise nothing changes. -/
def on (c : Prop) [Decidable c] (f : State → State) (s : State) : State := if c then f s else s

/-! ### Events and status selectors (R248, R416, R443) -/

/-- The page index of a page (R248, kind 15). -/
def Page.index (p : Page) (inst : Nat) : Nat := (p.base inst - 0x0020000000) / 0x1000

/-- The event that a status selector of kinds 1 to 12 and 14 chooses: page and event bit (R248). -/
def selEvent (kind : Nat) : Option (Page × Nat) :=
  match kind with
  | 1 => some (.qclk, 0) | 2 => some (.cse, 0) | 3 => some (.cse, 7) | 4 => some (.stitch, 1)
  | 5 => some (.stitch, 3) | 6 => some (.tack, 2) | 7 => some (.tack, 4) | 8 => some (.out, 1)
  | 9 => some (.out, 2) | 10 => some (.out, 4) | 11 => some (.spare, 1) | 12 => some (.spare, 3)
  | 14 => some (.harness, 1)
  | _ => none

/-- Whether selector n presents when event `bit` of page p is raised for selector instance `sel`; `rise` when a pending bit
of page instance `inst` rises (R248). -/
def selHit (s : State) (n : Nat) (p : Page) (inst bit sel : Nat) (raised rise : Bool) : Bool :=
  let kind := s.rd .HARNESS_STATSEL_KIND 0 n
  let want := s.rd .HARNESS_STATSEL_INST 0 n
  (raised && (selEvent kind == some (p, bit) || (kind == 13 && p == .power && bit < 12)) && (want == 0xFF || want == sel)) ||
  (rise && kind == 15 && (want == 0xFF || want == p.index inst))

/-- The producers of the status selectors that present. -/
def selPresent (s : State) (p : Page) (inst bit sel : Nat) (raised rise : Bool) : List Nat :=
  ((upTo 16).filter (fun n => selHit s n p inst bit sel raised rise)).map (fun n => 0x140 + n)

/-- Raise event `bit` of a page; `sel` is the instance that a status selector compares (R248, R416). -/
def raiseFor (p : Page) (inst bit sel : Nat) (s : State) : State :=
  let en := s.rd .EVT_EN_EN inst p.code bit == 1
  let rise := en && s.rd .EVT_PEND_PEND inst p.code bit == 0
  let s1 := s.wr .EVT_RAW_RAW 1 inst p.code bit
  let s2 := if en then s1.wr .EVT_PEND_PEND 1 inst p.code bit else s1
  { s2 with presented := s.presented ++ selPresent s p inst bit sel true rise }

/-- Raise event `bit` of page instance `inst` (R416). -/
def raise (p : Page) (inst bit : Nat) (s : State) : State := raiseFor p inst bit inst s

/-- Raise an event at most once per 1 ms (R443). -/
def raiseHeld (p : Page) (inst bit : Nat) (s : State) : State :=
  let k := Nat.pair p.code (Nat.pair inst bit)
  let last := Store.get 0 s.holdoff k
  if last = 0 ∨ last - 1 + Config.ticksPerMs ≤ s.osc then
    { raise p inst bit s with holdoff := Store.set 0 s.holdoff k (s.osc + 1) }
  else s

/-! ### Error records (R418, R419) -/

def errPinBusy : Nat := 1
def errRingOverlap : Nat := 2
def errNoCredit : Nat := 3
def errOwnerDenied : Nat := 4
def errRegionDenied : Nat := 5
def errComparatorExhausted : Nat := 6
def errPrepareFailed : Nat := 7
def errRetry : Nat := 8
def errPoison : Nat := 9
def errSpareInUse : Nat := 10

/-- Record an error on a page: the first since the last read is kept, a further one sets OVF (R418). -/
def recordErr (p : Page) (inst code m : Nat) (write : Bool) (word : Nat) (s : State) : State :=
  if s.rd .ERR_CODE_CODE inst p.code = 0 then
    ((((s.wr .ERR_CODE_CODE code inst p.code).wr .ERR_CODE_MASTER m inst p.code).wr .ERR_CODE_WRITE
      (if write then 1 else 0) inst p.code).wr .ERR_CODE_WORD word inst p.code)
  else s.wr .ERR_CODE_OVF 1 inst p.code

/-- Record the refusal of an action (WORD 0, R413). -/
def actionErr (p : Page) (inst code m : Nat) (s : State) : State := recordErr p inst code m true 0 s

/-! ### Wake causes (R401) -/

/-- The power state in effect. -/
def dstate (s : State) : Nat := s.rd .POWER_STATUS_DSTATE

/-- Exit begins from the state in effect, or from the state being entered. -/
def beginExit (cls : Nat) (s : State) : State :=
  let d := if s.rd .POWER_STATUS_ENTERING = 1 then s.rd .POWER_STATUS_TARGET else dstate s
  { ((((s.wr .POWER_STATUS_ENTERING 0).wr .POWER_STATUS_EXITING 1).wr .POWER_WAKE_STAT_CLASS cls).wr .POWER_WAKE_STAT_FROM d) with
    pwr := { s.pwr with phaseFrom := s.osc } }

/-- A wake cause: below D0, or during an entry, the first one counts. -/
def wake (cls : Nat) (s : State) : State :=
  if s.rd .POWER_STATUS_EXITING = 0 ∧ (dstate s ≠ 0 ∨ s.rd .POWER_STATUS_ENTERING = 1) then beginExit cls s else s

/-- A register write by a host port is a wake cause of class HOST. -/
def hostWake (m : Nat) (s : State) : State := if m ≤ 1 then wake 1 s else s

/-! ### Access checks on registers (R23, R417) -/

/-- The secure masters: the management core, and a port master in a secure session (R23). -/
def secureMaster (s : State) (m : Nat) : Bool :=
  m == 2 || ((m == 0 || m == 1) && s.rd .I3C_STATUS_SECURE m == 1)

/-- Steps 2 and 3 of R23 pass. -/
def accessOk (s : State) (p : Page) (inst m : Nat) (write : Bool) : Bool :=
  !(write && s.rd .OWNER_LOCK inst p.code == 1 && s.rd .OWNER_MASTER inst p.code != m) &&
  !(s.rd .OWNER_SEC inst p.code == 1 && !secureMaster s m)

/-- A register access under steps 2 and 3 of R23: performed, or rejected with OWNER_DENIED and no effect (R24). -/
def gate (p : Page) (inst off m : Nat) (write : Bool) (f : State → State) (s : State) : State :=
  if accessOk s p inst m write then f (hostWake m s) else recordErr p inst errOwnerDenied m write (off / 4) (hostWake m s)

/-- A register-write command of master m. -/
def cmd (s : State) (p : Page) (inst off : Nat) (m : Master) (f : State → State) : Out :=
  act s (gate p inst off m.val true f)

/-- An access that only the masters of `ok` may make; others get OWNER_DENIED. -/
def gateBy (ok : Bool) (p : Page) (inst off m : Nat) (f : State → State) (s : State) : State :=
  if ok then gate p inst off m true f s else recordErr p inst errOwnerDenied m true (off / 4) (hostWake m s)

/-- The masters that a page or one of its registers lets write: POWER, XSPI and I3C pages, operating controls of QUARRY and BENCH by
masters 0 to 2 (R300, R314, R319, R324, R353, R387), QPHY by master 2 (R303), SEC by the mailbox's own master, firmware and a master
in a secure session (R373, R377, R378). -/
def writerOk (s : State) (p : Page) (off m : Nat) : Bool :=
  if off < 0x40 ∧ p ≠ .power ∧ p ≠ .xspi ∧ p ≠ .i3c then true
  else match p with
    | .power | .xspi | .i3c => m ≤ 2
    | .qphy => m == 2
    | .quarry => !(off == 0x44 || off == 0x58 || off == 0x70 || off == 0x6C || off == 0x74) || m ≤ 2
    | .bench => !(off == 0x40 || off == 0x48 || off == 0x58 || off == 0x70 || off == 0x74 || 0x800 ≤ off) || m ≤ 2
    | .sec =>
      if off = 0x48 ∨ off = 0x4C then m == 2
      else if off = 0x54 then (m == 0 || m == 1) && secureMaster s m
      else m ≤ 1
    | _ => true

/-- A comparator that the writer owns (R50). -/
def ownsLc (s : State) (m n : Nat) : Bool := s.rd .TBASE_LC_CTRL_CLAIMED 0 n == 1 && s.rd .TBASE_LC_CTRL_OWNER 0 n == m

/-! ### Memory (R22, R26, R278, R306, R312, R313) -/

def benchBase : Nat := 0x0010000000
def benchSize : Nat := 0x00400000
def quarryBase : Nat := 0x1000000000
def quarryEnd : Nat := 0x1C00000000
def firmwareEnd : Nat := 0x1C40000000

/-- All of [a, a+n) lies in bench space. -/
def inBench (a n : Nat) : Bool := benchBase ≤ a && a + n ≤ benchBase + benchSize
/-- All of [a, a+n) lies in the Quarry waveform space still in service (R26, R298). -/
def inWave (s : State) (a n : Nat) : Bool :=
  quarryBase ≤ a && a + n ≤ quarryBase + s.rd .QUARRY_CAPACITY_WAVE_GIB * 2 ^ 30
/-- All of [a, a+n) lies in the firmware and log area. -/
def inFirmware (a n : Nat) : Bool := quarryEnd ≤ a && a + n ≤ firmwareEnd

/-- Kinds of memory access for the region check (R312). -/
inductive Kind where
  | read | write | alias_
deriving DecidableEq, Repr

/-- The fixed-reach masters, to which no region check applies (R313). -/
def fixedReach (m : Nat) : Bool := m == 2 || m == 4 || m == 6 || m == 7

/-- One enabled region of master m grants the access kind on the byte at `a` (R312). -/
def regionGrants (s : State) (m : Nat) (k : Kind) (a : Nat) : Bool :=
  (rangeFrom (8 * m) 8).any fun i =>
    s.rd .BENCH_RGN_BASE_EN 0 i == 1 &&
    s.rd .BENCH_RGN_BASE_BASE 0 i * 4096 ≤ a && a < s.rd .BENCH_RGN_LIMIT_LIMIT 0 i * 4096 + 4096 &&
    (match k with
     | .read => s.rd .BENCH_RGN_BASE_RD 0 i == 1
     | .write => s.rd .BENCH_RGN_BASE_WR 0 i == 1
     | .alias_ => s.rd .BENCH_RGN_BASE_WR 0 i == 1 && s.rd .BENCH_RGN_BASE_ALIAS 0 i == 1)

/-- Master m may make an access of kind k to the byte at `a` of bench or Quarry space: the restrictions of R22 and R26, the
fixed reach of R21, then the regions of R312 and R313. -/
def byteAllowed (s : State) (m : Nat) (k : Kind) (a : Nat) : Bool :=
  if ¬ (inBench a 1 ∨ inWave s a 1 ∨ inFirmware a 1) then false
  else if a < benchBase + 0x80000 ∧ benchBase ≤ a then
    m == 7 || (m == 2 && k == .read)
  else if inFirmware a 1 then m == 2 || m == 4 || m == 6
  else if m == 7 then false
  else if m == 4 ∨ m == 6 then k != .alias_
  else if m == 2 then true
  else regionGrants s m k a

/-- The bench that holds the byte at `a`. -/
def benchOf (a : Nat) : Nat := (a - benchBase) / 0x40000

/-- The byte at `a` lies in a bench that is OFF (R318). -/
def State.benchOff (s : State) (a : Nat) : Bool := inBench a 1 && s.rd .BENCH_BPWR_STAT_STATE 0 0 (benchOf a) == 3

/-- Every byte of an access is allowed (R24, R312); an access to a bench in OFF is not (R318). -/
def memAllowed (s : State) (m : Nat) (k : Kind) (a n : Nat) : Bool :=
  (rangeFrom a n).all (fun b => byteAllowed s m k b && !s.benchOff b)

/-- The page that records a denied or poisoned memory access (R24). -/
def memPage (a : Nat) : Page := if quarryBase ≤ a then .quarry else .bench

/-- The word of the poison store that holds the byte at `a`: a 4-byte bench word or a 64-byte ECC word (R275, R305). -/
def poisonWord (a : Nat) : Nat := if inBench a 1 then a / 4 * 4 else a / 64 * 64

/-- The number N of logical ranks that the present layout of the address space has (R277, R298). -/
def State.logicalRanks (s : State) : Nat := (s.rd .QUARRY_CAPACITY_WAVE_GIB + 1) / 7

/-- The Quarry address of an address in the waveform space or the firmware area (R277). -/
def State.quarryAddr (s : State) (a : Nat) : Nat :=
  if a < quarryEnd then a - quarryBase else s.rd .QUARRY_CAPACITY_WAVE_GIB * 2 ^ 30 + (a - quarryEnd)

/-- Logical rank of a Quarry address (R277). -/
def State.logicalRank (s : State) (a : Nat) : Nat := s.quarryAddr a / 256 % max 1 s.logicalRanks

/-- The byte at `a` lies in an offline bench or an offline logical rank (R297, R325). -/
def State.offline (s : State) (a : Nat) : Bool :=
  if inBench a 1 then s.rd .BENCH_BENCH_HEALTH_HEALTH 0 0 ((a - benchBase) / 0x40000) == 3
  else s.rd .QUARRY_LRMAP_MAP 0 0 (s.logicalRank a) == 0xF

/-- A byte of memory; a word nothing has written reads 0 (R276, R327), and so does an offline one. -/
def State.byte (s : State) (a : Nat) : Byte := if s.offline a then 0 else Store.get 0 s.mem a
def State.setByte (s : State) (a : Nat) (b : Byte) : State := { s with mem := Store.set 0 s.mem a b }
/-- The `n` bytes from `a`. -/
def State.bytes (s : State) (a n : Nat) : List Byte := (rangeFrom a n).map s.byte
/-- A byte as master m reads it. A cell of the Tack pool reads to the management core as a free value: the manual does not say which
cell holds which packet (R22, R158). -/
def State.byteFor (s : State) (m a : Nat) : Byte :=
  if m = 2 ∧ benchBase ≤ a ∧ a < benchBase + 0x80000 then Config.poolByte s.free a else s.byte a
/-- The `n` bytes from `a` as master m reads them. -/
def State.bytesFor (s : State) (m a n : Nat) : List Byte := (rangeFrom a n).map (s.byteFor m)
/-- Store bytes from `a` on. -/
def State.setBytes (s : State) (a : Nat) : List Byte → State
  | [] => s
  | b :: bs => (s.setByte a b).setBytes (a + 1) bs

/-- A little-endian number of `n` bytes at `a` (R4). -/
def State.leAt (s : State) (a n : Nat) : Nat := leValue (s.bytes a n)

/-- A byte as master m reads it: 0 where a check rejects the read (R24). -/
def State.byteAs (s : State) (m a : Nat) : Byte := if byteAllowed s m .read a then s.byte a else 0

/-- A little-endian number of `n` bytes at `a` as master m reads it. -/
def State.leAs (s : State) (m a n : Nat) : Nat := leValue ((rangeFrom a n).map (s.byteAs m))

/-- The bytes of a range that fall in the poison word starting at `w`. -/
def wordSize (w : Nat) : Nat := if inBench w 1 then 4 else 64

/-- The row of Quarry that the byte at `a` lies in, by logical rank × 2^22 + W (R277). -/
def State.quarryRow (s : State) (a : Nat) : Nat :=
  s.logicalRank a * 2 ^ 22 + s.quarryAddr a / 256 / max 1 s.logicalRanks / 7

/-! ### Quad timing (R52–R54, R71, R72) -/

/-- QCLK_N in effect. -/
def State.qn (s : State) (q : Nat) : Nat := s.rdEff .QCLK_QCLK_N_N q
/-- IF_LOG2 in effect. -/
def State.ifLog (s : State) (q : Nat) : Nat := s.rdEff .QCLK_QCLK_CFG_IF_LOG2 q
/-- The interpolation factor. -/
def State.ifac (s : State) (q : Nat) : Nat := 2 ^ s.ifLog q
/-- The synthesis rate FS in samples per second (R52). -/
def State.fs (s : State) (q : Nat) : Rat := (Config.ticksPerSecond * s.qn q : Nat) / ((2 ^ 32 * s.ifac q : Nat) : Rat)
/-- Instant of edge n of a quad (R53). -/
def State.edgeAt (s : State) (q n : Nat) : Instant := (s.clock q).edge0 + (n * 2 ^ 32 : Nat) / ((s.qn q : Nat) : Rat)

/-- Round to nearest, ties towards plus infinity (R78, R444). -/
def roundQ (x : Rat) : Int := (x + 1 / 2).floor

/-- Natural ceiling of an instant difference. -/
def ceilNat (x : Rat) : Nat := x.ceil.toNat

/-- Index of the first edge of quad q at or after an instant (R46). -/
def State.firstEdge (s : State) (q : Nat) (t : Instant) : Nat :=
  ceilNat ((t - (s.clock q).edge0) * ((s.qn q : Nat) : Rat) / ((2 ^ 32 : Nat) : Rat))

/-- Index of the first synthesis sample whose edge is at or after an instant (R72). -/
def State.firstSample (s : State) (q : Nat) (t : Instant) : Nat := ceilDiv (s.firstEdge q t) (s.ifac q)

/-- The elapsed instant of a launch time C + f/256 of the present count (R44). -/
def State.launchInstant (s : State) (c f : Nat) : Instant :=
  (c : Rat) + ((f : Nat) : Rat) / 256 + ((s.osc : Rat) - (s.now : Rat))

/-- The launch instant of the armed comparator i (R44); of a late one the tick of its firing (R49). -/
def State.lcInstant (s : State) (i : Nat) : Instant :=
  let x := s.lc i
  if x.late then ((x.lateAt + 1 : Nat) : Rat) else s.launchInstant x.c x.f

/-- Pages whose commits act on a quad's edges, and that quad (R421). -/
def commitQuad (p : Page) (inst : Nat) : Option Nat :=
  match p with
  | .out | .cse => some (inst / 4)
  | .qclk => if inst < 12 then some inst else none
  | .stitch => some inst
  | _ => none

/-- The SH fields of a page (R8, R420). -/
def shadowFields (p : Page) : List (Reg × Nat) :=
  match p with
  | .cse => [(.CSE_GAIN_GAIN, 0), (.CSE_OFFSET_OFFSET, 0)]
  | .out => [(.OUT_SPANCTL_SPAN, 0), (.OUT_UPDCTL_MODE, 0), (.OUT_UPDCTL_GSTB, 0), (.OUT_FILTCTL_CORNER, 0),
             (.OUT_FILTCTL_SHAPE, 0), (.OUT_FILTCTL_BYPASS, 0)]
  | .qclk => [(.QCLK_QCLK_N_N, 0), (.QCLK_QCLK_CFG_IF_LOG2, 0)]
  | .tbase => [(.TBASE_GSTB_N_N, 0), (.TBASE_GSTB_N_N, 1), (.TBASE_GSTB_N_N, 2), (.TBASE_GSTB_N_N, 3)]
  | _ => []

/-- Capture the shadow copies of a page (R422). -/
def capturePage (p : Page) (inst : Nat) (s : State) : State :=
  each (shadowFields p) (fun f s => s.capture f.1 inst f.2) s

/-- A descriptor of channel c applies on the next sample k: it is the capture point and fixes the instant of the pending PACKET
commits of the channel's CSE and OUT pages (R421, R422). -/
def packetCommits (c : Nat) (s : State) : State :=
  let q := c / 4
  let t := s.edgeAt q ((s.wheel q).k * s.ifac q)
  let hit (x : Commit) : Bool := x.mode == 2 && x.inst == c && x.due.isNone && (x.page == .cse || x.page == .out)
  let s1 := each (s.commits.filter hit) (fun x s => capturePage x.page x.inst s) s
  { s1 with commits := s.commits.map (fun x => if hit x then { x with due := some t, captured := true } else x) }

/-- A free value of the model: the counter is advanced by whoever uses it. -/
def State.nextFree (s : State) : State := { s with free := s.free + 1 }

/-- A read by the management core draws a free value for what it may read of the Tack pool. -/
def drawPool (m : Nat) (s : State) : State := if m = 2 then s.nextFree else s

end Sys2Proof.Machine
end

