-- ==== Sys2Proof/Machine/Memory.lean ====
section
/-! DEFINITION. Memory as its controllers keep it: Quarry's physical ranks, their rows, check bits and poison, its failures and the ages
of its requests (R274–R281, R289–R292, R297), the errors of bench words (R306, R323), and the checked reads and writes of bench and Quarry
space (R23, R24, R27, R278, R307). -/

namespace Sys2Proof.Machine

/-! ### Ranks and units (R274, R277, R294) -/

/-- Units of a rank: 7 × 2^22 (R277). -/
def unitsPerRank : Nat := 7 * 2 ^ 22
def rankState (s : State) (p : Nat) : Nat := s.rd .QUARRY_RANK_STATE_STATE 0 0 p
def setRank (p v : Nat) (s : State) : State := s.wr .QUARRY_RANK_STATE_STATE v 0 0 p
/-- The physical rank that holds a logical rank, 15 when offline. -/
def lrMap (s : State) (lg : Nat) : Nat := s.rd .QUARRY_LRMAP_MAP 0 0 lg
def migrating (s : State) : Bool := s.rd .QUARRY_STATUS_MIGRATING == 1
/-- The logical rank that a physical rank holds. -/
def holds (s : State) (p : Nat) : Option Nat := (upTo 7).find? (fun lg => lrMap s lg == p)
/-- The target of the migration. -/
def migTarget (s : State) : Option Nat := (upTo 8).find? (fun p => rankState s p == 3)
/-- A spare that no failure has already asked for (R292). -/
def rankSpareFree (s : State) : Bool := s.rd .QUARRY_LRMAP_SPARE != 15 && s.qry.fails.isEmpty

/-- Unit in rank V of the byte at `a` (R277). -/
def unitV (s : State) (a : Nat) : Nat := s.quarryAddr a / 256 / max 1 s.logicalRanks

/-- The byte address of ECC word `w` of unit V of logical rank lg (R277 inverted). -/
def unitAddr (s : State) (lg v w : Nat) : Nat :=
  let qa := (v * max 1 s.logicalRanks + lg) * 256 + 64 * w
  let wave := s.rd .QUARRY_CAPACITY_WAVE_GIB * 2 ^ 30
  if qa < wave then quarryBase + qa else quarryEnd + (qa - wave)

/-- The physical ranks that an access to unit V of logical rank lg touches (R294). -/
def ranksFor (s : State) (lg v : Nat) (write : Bool) : List Nat :=
  let p := lrMap s lg
  if p = 15 then []
  else match migrating s && s.rd .QUARRY_MIG_PTR_LGRANK == lg, migTarget s with
    | true, some t => if write then [p, t] else if v < s.rd .QUARRY_MIG_PTR_UNIT then [t] else [p]
    | _, _ => [p]

/-- The physical rank that a read of the byte at `a` goes to. -/
def readRank (s : State) (a : Nat) : Nat := ((ranksFor s (s.logicalRank a) (unitV s a) false).head?).getD 15

/-- ECC word in its unit of the byte at `a`: QA[7:6] (R277). -/
def wordOf (s : State) (a : Nat) : Nat := s.quarryAddr a / 64 % 4

/-! ### Rows, metadata and poison (R275, R276) -/

/-- Bytes 2016 to 2045 of a row: GEN, the three copies of the poison bits, and reserved zeros. -/
def RowMeta.bytes (m : RowMeta) : List Byte :=
  leBytes 4 m.gen ++ leBytes 4 m.poison0 ++ leBytes 4 m.poison1 ++ leBytes 4 m.poison2 ++ List.replicate 14 0

/-- The metadata with its CRC, as the controller writes it. -/
def RowMeta.seal (m : RowMeta) : RowMeta := { m with crc := crc16 m.bytes }

/-- The metadata of a row initialised in the present generation, no word poisoned. -/
def freshRow (s : State) : RowMeta := ({ gen := s.rd .QUARRY_GEN_GEN } : RowMeta).seal

/-- At least two of the three copies have bit b set. -/
def RowMeta.marks (m : RowMeta) (b : Nat) : Bool :=
  (m.poison0.testBit b && m.poison1.testBit b) || (m.poison0.testBit b && m.poison2.testBit b) ||
  (m.poison1.testBit b && m.poison2.testBit b)

/-- A number with bit b as given. -/
def putBit (v b : Nat) (on : Bool) : Nat := v % 2 ^ b + (if on then 2 ^ b else 0) + v / 2 ^ (b + 1) * 2 ^ (b + 1)

/-- The metadata with the poison bit of word b as given in all three copies. -/
def RowMeta.mark (m : RowMeta) (b : Nat) (on : Bool) : RowMeta :=
  ({ m with poison0 := putBit m.poison0 b on, poison1 := putBit m.poison1 b on, poison2 := putBit m.poison2 b on } : RowMeta).seal

/-- The key of row W of physical rank p. -/
def rowKey (p row : Nat) : Nat := p * 2 ^ 22 + row

/-- The metadata that row W of physical rank p holds, none where nothing has been written since the cold reset. -/
def rowMeta (s : State) (p row : Nat) : Option RowMeta :=
  match Store.get none s.qry.rows (rowKey p row), s.qry.initAll with
  | some m, _ => some m
  | none, true => some (freshRow s)
  | none, false => none

/-- Row W of physical rank p is initialised: the current GEN and a CRC that matches (R276). -/
def rowReady (s : State) (p row : Nat) : Bool :=
  match rowMeta s p row with
  | some m => m.gen == s.rd .QUARRY_GEN_GEN && m.crc == crc16 m.bytes
  | none => false

/-- Bit of ECC word w of unit V in its row's poison bits. -/
def poisonBit (v w : Nat) : Nat := 4 * (v % 7) + w

/-- ECC word w of unit V of physical rank p counts as poisoned. -/
def wordPoisoned (s : State) (p v w : Nat) : Bool :=
  rowReady s p (v / 7) && ((rowMeta s p (v / 7)).getD {}).marks (poisonBit v w)

/-- Set or clear the poison bits of a word in its row. -/
def putPoison (p v w : Nat) (on : Bool) (s : State) : State :=
  let m := ((rowMeta s p (v / 7)).getD (freshRow s)).mark (poisonBit v w) on
  { s with qry := { s.qry with rows := Store.set none s.qry.rows (rowKey p (v / 7)) (some m) } }

/-- The key of ECC word w of unit V of physical rank p among the words with errors. -/
def flawKey (p v w : Nat) : Nat := (p * unitsPerRank + v) * 4 + w

/-- The word has been written with fresh check bytes. -/
def clearFlaw (p v w : Nat) (s : State) : State :=
  { s with qry := { s.qry with flaws := Store.set 0 s.qry.flaws (flawKey p v w) 0 } }

/-- A row is initialised, where it is not: zeros with check bytes, the current GEN and no poison (R276). -/
def initRow (p row : Nat) (s : State) : State :=
  if rowReady s p row then s
  else
    let within (k : Nat) : Bool := flawKey p (7 * row) 0 ≤ k && k < flawKey p (7 * row + 7) 0
    { s with qry := { s.qry with rows := Store.set none s.qry.rows (rowKey p row) (some (freshRow s))
                                 flaws := s.qry.flaws.filter (fun x => !within x.1) } }

/-- The word that holds the byte at `a` is poisoned; every word of an offline bench or rank reads so. -/
def State.poisoned (s : State) (a : Nat) : Bool :=
  s.offline a ||
  (if inBench a 1 then Store.get false s.poison (poisonWord a) else wordPoisoned s (readRank s a) (unitV s a) (wordOf s a))

/-- The mark of a bench word. -/
def State.setPoison (s : State) (a : Nat) (b : Bool) : State :=
  { s with poison := Store.set false s.poison (poisonWord a) b }

/-- Some byte of the range lies in a poisoned word. -/
def State.anyPoison (s : State) (a n : Nat) : Bool := (rangeFrom a n).any s.poisoned

/-- A byte of row W of physical rank p as R275 lays the row out: data units, check bytes, metadata, CRC. -/
def rowByte (s : State) (p row b : Nat) : Byte :=
  let data (i : Nat) : Byte := match holds s p with
    | some lg => if rowReady s p row then s.byte (unitAddr s lg (7 * row + i / 256) 0 + i % 256) else 0
    | none => 0
  let m := (rowMeta s p row).getD {}
  if b < 1792 then data b
  else if b < 2016 then Config.secded ((upTo 8).map (fun i => data (8 * (b - 1792) + i)))
  else if b < 2046 then m.bytes.getD (b - 2016) 0
  else (leBytes 2 m.crc).getD (b - 2046) 0

/-! ### Failures and errors (R289, R292, R296, R297) -/

/-- A rank is retired; the logical rank that it holds goes offline (R297). -/
def retireRank (p : Nat) (s : State) : State :=
  let s1 := setRank p 4 s
  let s2 := match holds s p with
    | some lg => ((s1.wr .QUARRY_LRMAP_MAP 15 0 0 lg).wr .QUARRY_STATUS_DEGRADED 1).wr .QUARRY_CAPACITY_N_ACTIVE
        (s1.rd .QUARRY_CAPACITY_N_ACTIVE - 1)
    | none => if s.rd .QUARRY_LRMAP_SPARE = p then s1.wr .QUARRY_LRMAP_SPARE 15 else s1
  raise .quarry 0 4 s2

/-- The target of a migration fails: the migration stops and the source keeps the logical rank (R296). -/
def targetFails (p : Nat) (s : State) : State :=
  let s1 := (setRank p 4 s).wr .QUARRY_STATUS_MIGRATING 0
  let s2 := match (upTo 8).find? (fun r => rankState s r == 2) with
    | some r => setRank r 0 s1
    | none => s1
  raise .quarry 0 4 s2

/-- Physical rank p fails (R292, R296): its migration is asked for, or it is retired. A retired rank and the source of a running
migration change nothing further. -/
def failRank (p cause : Nat) (s : State) : State :=
  match rankState s p with
  | 0 => if s.qry.fails.any (fun f => f.1 == p) then s
         else if rankSpareFree s && !migrating s then { s with qry := { s.qry with fails := s.qry.fails ++ [(p, cause)] } }
         else retireRank p s
  | 1 => retireRank p s
  | 3 => targetFails p s
  | _ => s

/-- Ticks in an hour. -/
def hourTicks : Nat := 3600 * Config.ticksPerSecond

/-- A new hour begins for the counts of corrected words. -/
def rollHour (s : State) : State :=
  if s.qry.hourFrom + hourTicks ≤ s.osc then { s with qry := { s.qry with hourFrom := s.osc, ceHour := [] } } else s

/-- A corrected word on physical rank p (R289, R292). -/
def corrected (p : Nat) (s0 : State) : State :=
  let s := rollHour s0
  let n := Store.get 0 s.qry.ceHour p + 1
  let s1 := raiseHeld .quarry 0 0 (({ s with qry := { s.qry with ceHour := Store.set 0 s.qry.ceHour p n } } : State).inc .QUARRY_ECC_CNT_CE)
  let thr := s.rd .QUARRY_ECC_CFG_CE_THR
  if thr ≠ 0 ∧ thr ≤ n then failRank p 2 s1 else s1

/-- The record of an uncorrectable word of physical rank p (R289): its address is a free value where no address reaches it. -/
def recordUe (p v w : Nat) (a : Option Nat) (s : State) : State :=
  let at_ := a.getD ((Config.freeValue s.free).toNat % 2 ^ 40 / 64 * 64)
  let s1 := putPoison p v w true (if a.isNone then s.nextFree else s)
  wake 5 <| raise .quarry 0 1 (((((s1.wr .QUARRY_UE_ADDR_LO_ADDR at_).wr .QUARRY_UE_ADDR_HI_ADDR (at_ / 2 ^ 32)).wr
    .QUARRY_UE_ADDR_HI_RANK p).wr .QUARRY_UE_ADDR_HI_BANK (v / 7 % 16)).inc .QUARRY_ECC_CNT_UE)

/-- ECC word w of unit V of physical rank p, at address `a` where one reaches it, is uncorrectable (R289, R292); one already poisoned
counts nothing further. -/
def uncorrectable (p v w : Nat) (a : Option Nat) (s : State) : State :=
  if wordPoisoned s p v w then s
  else
    let n := Store.get 0 s.qry.ueCount p + 1
    let s1 := recordUe p v w a { s with qry := { s.qry with ueCount := Store.set 0 s.qry.ueCount p n } }
    if rankState s p = 2 then s1
    else if rankSpareFree s then failRank p 1 s1
    else if 16 ≤ n then failRank p 5 s1
    else s1

/-- A read of ECC word w of unit V of physical rank p meets the errors that its cells hold (R289): a corrected word is written back. A row
that is not initialised makes no check (R276). -/
def eccWord (p v w : Nat) (a : Option Nat) (s : State) : State :=
  if rowReady s p (v / 7) = false then s
  else match Store.get 0 s.qry.flaws (flawKey p v w) with
    | 0 => s
    | 1 => if wordPoisoned s p v w then s else corrected p (clearFlaw p v w s)
    | _ => uncorrectable p v w a s

def benchHealth (s : State) (b : Nat) : Nat := s.rd .BENCH_BENCH_HEALTH_HEALTH 0 0 b
def benchState (s : State) (b : Nat) : Nat := s.rd .BENCH_BPWR_STAT_STATE 0 0 b
def setBenchState (b v : Nat) (s : State) : State := s.wr .BENCH_BPWR_STAT_STATE v 0 0 b
def benchMode (s : State) (b : Nat) : Nat := s.rd .BENCH_BPWR_CFG_MODE 0 0 b
def bistPhase (s : State) : Nat := s.rd .BENCH_BIST_STAT_PHASE
def setBistPhase (v : Nat) (s : State) : State := s.wr .BENCH_BIST_STAT_PHASE v
/-- Bench that the spare covers, 31 for none. -/
def spareBench (s : State) : Nat := s.rd .BENCH_STATUS_SPARE_COVER
def thermalLimit (s : State) : Bool := s.rd .POWER_STATUS_THERMAL_LIMIT == 1

/-! ### Benches: failure (R323, R325, R326) -/

/-- A bench goes offline. -/
def benchOffline (b : Nat) (s : State) : State := raise .bench 0 5 (s.wr .BENCH_BENCH_HEALTH_HEALTH 3 0 0 b)

/-- The spare is given up by a test of another bench, as by ABORT (R322, R326). -/
def endTest (s : State) : State :=
  match bistPhase s with
  | 1 => ((setBistPhase 0 s).wr .BENCH_STATUS_BIST_BUSY 0).wr .BENCH_STATUS_SPARE_FREE 1
  | 2 => setBistPhase 3 { s with ben := { s.ben with aborted := true } }
  | _ => s

/-- The spare bench holds another bench than b for good, by cover, replacement or a COVERED range. -/
def spareTaken (s : State) (b : Nat) : Bool :=
  (spareBench s != 31 && spareBench s != b) || ((bistPhase s == 4 || bistPhase s == 5) && s.ben.bist != b)

/-- The bench that the spare stands in for, by its cover or by a COVERED range; 31 for none. -/
def coveredBench (s : State) : Nat := if spareBench s < 16 then spareBench s else if bistPhase s = 5 then s.ben.bist else 31

/-- Bench b fails; 16 is the spare, whose failure takes its covered bench offline. -/
def benchFails (b : Nat) (s : State) : State :=
  if b = 16 then (if coveredBench s < 16 ∧ benchHealth s (coveredBench s) ≠ 3 then benchOffline (coveredBench s) s else s)
  else if benchHealth s b ≠ 0 then s
  else
    let s1 := wake 5 (raise .bench 0 2 (s.wr .BENCH_BENCH_HEALTH_HEALTH 1 0 0 b))
    if spareTaken s b then benchOffline b s1
    else if s.ben.bist ≠ b then endTest s1
    else s1

/-! ### Benches: errors (R306) -/

/-- The word at a bench offset is served by the spare bench. -/
def inSpare (s : State) (off : Nat) : Bool :=
  let b := off / 0x40000
  benchHealth s b == 2 || ((bistPhase s == 2 || bistPhase s == 3 || bistPhase s == 5) && s.ben.bist == b &&
    s.ben.first ≤ off % 0x40000 / 4096 && off % 0x40000 / 4096 ≤ s.ben.stop)

/-- A corrected word. -/
def benchCorrected (s : State) : State := raiseHeld .bench 0 0 (s.inc .BENCH_ECC_CNT_CE)

/-- An uncorrectable word at a bench offset: one already poisoned counts nothing further. -/
def benchUncorrectable (off : Nat) (s : State) : State :=
  if s.poisoned (benchBase + off) then s
  else
    let unit := if inSpare s off then 16 else off / 0x40000
    let n := Store.get 0 s.ben.ueCount unit + 1
    let s1 : State := { s with ben := { s.ben with ueCount := Store.set 0 s.ben.ueCount unit n } }
    let s2 := wake 5 <| raise .bench 0 1 ((((s1.setPoison (benchBase + off) true).wr .BENCH_UE_ADDR_OFFSET off).wr .BENCH_UE_ADDR_IN_SPARE
      (if inSpare s off then 1 else 0)).inc .BENCH_ECC_CNT_UE)
    if max 1 (s.rd .BENCH_UE_THR_THR) ≤ n then benchFails unit s2 else s2

/-- A read of the bench word at an offset meets the error that its cells hold (R306): a corrected word is written back, and a word whose
poison bit is set counts nothing further. -/
def benchWord (off : Nat) (s : State) : State :=
  match Store.get 0 s.ben.flaws (off / 4) with
  | 0 => s
  | f =>
    let s1 : State := { s with ben := { s.ben with flaws := Store.set 0 s.ben.flaws (off / 4) 0 } }
    if s.poisoned (benchBase + off) then s
    else if f = 1 then benchCorrected s1
    else benchUncorrectable (off / 4 * 4) s1

/-- Every bench word of a range of offsets that holds an error is read, as a copy engine reads them. -/
def benchSweep (lo hi : Nat) (s : State) : State :=
  each (s.ben.flaws.filter (fun x => decide (lo ≤ 4 * x.1) && decide (4 * x.1 < hi))) (fun x s => benchWord (4 * x.1) s) s

/-- A cell error comes to a bench word: one that the code corrects, or with `bad` one that it cannot. -/
def addBenchFlaw (bad : Bool) (off : Nat) (s : State) : State :=
  let worst := max (Store.get 0 s.ben.flaws (off / 4)) (if bad then 2 else 1)
  { s with ben := { s.ben with flaws := Store.set 0 s.ben.flaws (off / 4) worst } }

/-! ### Reads (R289, R306) -/

/-- The read of the ECC word that holds the byte at `a` of Quarry. -/
def eccAt (a : Nat) (s : State) : State :=
  if inBench a 1 ∨ s.offline a then s else eccWord (readRank s a) (unitV s a) (wordOf s a) (some (a / 64 * 64)) s

/-- A read of `n` bytes from `a` meets the errors of the bench words or ECC words it touches. -/
def eccRead (a n : Nat) (s : State) : State :=
  if n = 0 then s
  else if inBench a n then
    if s.ben.flaws = [] then s
    else each (rangeFrom ((a - benchBase) / 4) ((a - benchBase + n + 3) / 4 - (a - benchBase) / 4)) (fun w s => benchWord (4 * w) s) s
  else if s.qry.flaws = [] then s
  else each (rangeFrom (a / 64) ((a + n + 63) / 64 - a / 64)) (fun w s => eccAt (64 * w) s) s

/-! ### Ports and ages (R280, R281) -/

/-- The QoS port of a master (R21, R280). -/
def portOf (m : Nat) : Nat :=
  if m ≤ 1 then 2 else if m = 2 then 5 else if m = 3 then 3 else if m = 4 then 6 else if m = 5 then 4
  else if m = 6 then 7 else if m < 20 then 1 else 0

/-- A port's latency target in ticks; 0 acts as 1. -/
def targetTicks (s : State) (p : Nat) : Nat := 4 * max 1 (s.rd .QUARRY_PORT_TGT_TGT 0 p)

/-- Urgency of an age against a target (R281). -/
def urgencyOf (age tgt : Nat) : Nat :=
  if tgt ≤ age then 3 else if 3 * tgt ≤ 4 * age then 2 else if tgt ≤ 2 * age then 1 else 0

/-- Urgency of a queued unit access. -/
def urgency (s : State) (u : QUnit) : Nat := urgencyOf (s.osc - u.at_) (targetTicks s u.port)

/-- Refresh what the port's registers show of its queue (R281). -/
def refreshPort (p : Nat) (s : State) : State :=
  let late := s.qry.waiting.filter (fun x => portOf x.master == p)
  let urg := (s.qry.units.filter (fun u => u.port == p)).foldl (fun m u => max m (urgency s u)) 0
  let urg' := late.foldl (fun m x => max m (urgencyOf (s.osc - x.at_) (targetTicks s p))) urg
  (s.wr .QUARRY_PORT_STAT_URG urg' 0 p).wr .QUARRY_PORT_STAT_OUTSTANDING
    (min 255 ((s.qry.reqs.filter (fun r => r.port == p)).length + late.length)) 0 p

/-- No refresh stall, no self-refresh and no outage (R282, R300). -/
def quarryHeld (s : State) : Bool := s.qry.refreshing || s.rd .QUARRY_STATUS_SELF_REFRESH == 1 || s.qry.op == .outage

/-- Quarry is trained and serving (R395). -/
def quarryReady (s : State) : Bool := s.rd .QUARRY_STATUS_READY == 1

/-- Quarry serves requests now. -/
def served (s : State) : Bool := quarryReady s && !quarryHeld s

/-- The age of an access that completes goes into its port's registers (R280, R281). -/
def countAge (p age : Nat) (s : State) : State :=
  let s1 := s.wr .QUARRY_PORT_LAT_MAX_LAT (max (s.rd .QUARRY_PORT_LAT_MAX_LAT 0 p) (min (2 ^ 32 - 1) (age / 4))) 0 p
  if targetTicks s p < age then raiseHeld .quarry 0 8 (s1.inc .QUARRY_PORT_MISS_COUNT 0 p) else s1

/-! ### Checked reads and writes (R23, R24, R27, R278, R298, R307) -/

/-- A write of the Quarry word that holds the byte at `a` reaches every physical rank that the word has: rows are initialised, the check
bytes are fresh and the poison goes (R276, R278, R294). -/
def storeEcc (a : Nat) (s : State) : State :=
  let v := unitV s a
  let w := wordOf s a
  each (ranksFor s (s.logicalRank a) v true) (fun p s => clearFlaw p v w (putPoison p v w false (initRow p (v / 7) s))) s

/-- A bench word written has fresh check bits. -/
def storeBench (a : Nat) (s : State) : State :=
  { s with ben := { s.ben with flaws := Store.set 0 s.ben.flaws ((a - benchBase) / 4) 0 } }

/-- Write the bytes of one bench or ECC word: a whole word clears its poison; a partial one reads the word first, and is discarded where
that is poisoned; any write of an offline one is discarded. POISON is recorded (R278, R297, R307, R325). `m` is the master. -/
def writeWord (m a : Nat) (bs : List Byte) (s0 : State) : State :=
  let part := decide (bs.length < wordSize (poisonWord a))
  let s := if part then eccRead a bs.length s0 else s0
  if s.offline a ∨ (part = true ∧ s.poisoned a = true) then recordErr (memPage a) 0 errPoison m true 0 s
  else if inBench a 1 then storeBench a ((s.setBytes a bs).setPoison a false)
  else (storeEcc a s).setBytes a bs

/-- Write a list of bytes word by word, in ascending order (R278, R315). -/
def writeWords (m : Nat) : Nat → Nat → List Byte → State → State
  | 0, _, _, s => s
  | fuel + 1, a, bs, s =>
    match bs with
    | [] => s
    | _ =>
      let n := poisonWord a + wordSize a - a
      writeWords m fuel (a + n) (bs.drop n) (writeWord m a (bs.take n) s)

/-- Quarry rejects every access while it reshapes (R298). -/
def State.mustRetry (s : State) (a : Nat) : Bool := s.rd .QUARRY_STATUS_RESHAPING == 1 && !inBench a 1

/-- An access wakes the benches it touches and restarts their idle time (R318). -/
def touchBench (a n : Nat) (s : State) : State :=
  if inBench a n ∧ 0 < n then
    each (rangeFrom (benchOf a) (benchOf (a + n - 1) + 1 - benchOf a)) (fun b s =>
      ({ s with ben := { s.ben with last := Store.set 0 s.ben.last b s.osc } } : State).wr .BENCH_BPWR_STAT_STATE 0 0 0 b) s
  else s

/-- The byte at `a` lies in a bench, an alias of one, the register range or Quarry (R26). -/
def mapped (a : Nat) : Bool :=
  inBench a 1 || inBench (a - 0x01000000) 1 || inBench (a - 0x02000000) 1 || (0x0020000000 ≤ a && a < 0x0021000000) ||
  (quarryBase ≤ a && a < firmwareEnd)

/-- The record of an access that the address decode rejects (R27). -/
def mapError (m a : Nat) (write : Bool) (s : State) : State :=
  raise .sys 0 3 (recordErr .sys 0 errRegionDenied m write 0
    ((((s.wr .SYS_ERR_ADDR_LO_ADDR a).wr .SYS_ERR_ADDR_HI_ADDR (a / 2 ^ 32)).wr .SYS_ERR_ADDR_HI_MASTER m).wr
      .SYS_ERR_ADDR_HI_WRITE (if write then 1 else 0)))

/-- The record of a rejected memory access (R24, R27). -/
def denyMem (m a n : Nat) (write : Bool) (s : State) : State :=
  if (rangeFrom a n).all mapped then recordErr (memPage a) 0 errRegionDenied m write 0 s else mapError m a write s

/-- The effect of a read of master m beside its data: the record of one that a check rejects (R24, R27), the errors that one that passes
meets (R289). -/
def noteRead (m a n : Nat) (s : State) : State := if memAllowed s m .read a n then eccRead a n s else denyMem m a n false s

/-- A write of master m that the checks admit: RETRY during a reshape (R278, R298, R315). -/
def storeMem (m a : Nat) (bs : List Byte) (s : State) : State :=
  if s.mustRetry a then recordErr .quarry 0 errRetry m true 0 s else writeWords m bs.length a bs (touchBench a bs.length s)

/-- A checked write of master m to bench or Quarry space: performed, or rejected whole with REGION_DENIED (R23, R24). -/
def memWrite (m a : Nat) (bs : List Byte) (s : State) : State :=
  if memAllowed s m .write a bs.length then storeMem m a bs s else denyMem m a bs.length true s

/-- A read of master m that the checks admit: its bytes, or zeros with RETRY during a reshape (R298). -/
def loadMem (s : State) (m a n : Nat) : List Byte × State :=
  if s.mustRetry a then (List.replicate n 0, recordErr .quarry 0 errRetry m false 0 s)
  else (s.bytesFor m a n, eccRead a n (touchBench a n s))

/-- A checked read of master m: its bytes, or zeros and a record (R24). -/
def memRead (s : State) (m a n : Nat) : List Byte × State :=
  if memAllowed s m .read a n then loadMem s m a n else (List.replicate n 0, denyMem m a n false s)

end Sys2Proof.Machine
end

