-- ==== Sys2Proof/Machine/Synthesis.lean ====
section
/-! DEFINITION. The sources of a Channel Synthesis Engine and what they deliver on one synthesis sample (R78–R110): partials,
players with their stream rings, noise, level, patterns and markers, modulation, and the Phase Wheel. Sample values are
integers in units of 2^-23. -/

namespace Sys2Proof.Machine

/-- Saturate to s1.23: [-1, 1 - 2^-23]. -/
def sat23 (v : Int) : Int := clampI (-(2 ^ 23)) (2 ^ 23 - 1) v

/-- An s1.23 field as a number of 2^-23 units. -/
def s123 (v : Nat) : Int := signed 24 v

/-- m(k) of a source code (R106, R107): reserved codes are none. -/
def modulator (mods : List Int) (code : Nat) : Int := if code = 0 ∨ 0x24 < code then 0 else (mods.getD code 0)

/-- A product with 1 + d m, d = depth / 256 (R107), rounded (R444). -/
def amProduct (v : Int) (depth : Nat) (m : Int) : Int :=
  roundQ ((v : Rat) * (1 + (depth : Rat) / 256 * ((m : Rat) / (2 ^ 23 : Nat))))

/-! ### The Phase Wheel (R89–R93) -/

/-- DTH(V) for a 16.48 speed (R89). -/
def State.dth (s : State) (q v : Nat) : Nat :=
  (roundQ (((v * 2 ^ 24 * s.ifac q : Nat) : Rat) / ((Config.ticksPerSecond * s.qn q : Nat) : Rat))).toNat

/-- The 16.48 speed of an increment (R90). -/
def State.speedOf (s : State) (q d : Nat) : Nat := (roundQ ((d : Rat) * s.fs q * (2 ^ 8 : Nat))).toNat

/-- S(x) of R90 for beta = b/k. -/
def curveShape (x β : Rat) : Rat :=
  if x ≤ β then x * x / (2 * β * (1 - β))
  else if x ≤ 1 - β then (x - β / 2) / (1 - β)
  else 1 - (1 - x) * (1 - x) / (2 * β * (1 - β))

/-- The increment at step j of a ramp (R90). -/
def SpeedRamp.at_ (r : SpeedRamp) (j : Nat) : Nat :=
  if r.k ≤ j then r.d1
  else
    let x : Rat := (j : Rat) / (r.k : Rat)
    let b := min r.blend (r.k / 2)
    let f := if r.sCurve ∧ b ≠ 0 then curveShape x ((b : Rat) / (r.k : Rat)) else x
    ((r.d0 : Int) + roundQ ((((r.d1 : Int) - (r.d0 : Int) : Int) : Rat) * f)).toNat

/-- Advance the wheel by one synthesis sample (R89, R90): `theta` and `d` are those of sample k, and afterwards of k + 1. -/
def Wheel.advance (w : Wheel) : Wheel :=
  match w.ramp with
  | none => { w with lastTheta := w.theta, lastD := w.d, d := w.dn, theta := (w.theta + w.dn) % 2 ^ 64, k := w.k + 1 }
  | some r =>
    let j := min (r.j + 1) r.k
    let d := r.at_ j
    { w with lastTheta := w.theta, lastD := w.d, d := d, dn := d, theta := (w.theta + d) % 2 ^ 64, k := w.k + 1,
             ramp := some { r with j := j } }

/-- The angle that a ramp covers in its n steps after step `r.j`; past its last step it goes on at its target. -/
def SpeedRamp.covers (r : SpeedRamp) : Nat → Nat
  | 0 => 0
  | n + 1 => r.covers n + r.at_ (r.j + n + 1)

/-- The angle n samples into a stretch of the wheel's path (R89, R90). -/
def Leg.theta_ (g : Leg) (n : Nat) : Nat :=
  (g.theta + (match g.ramp with
    | some r => r.covers n
    | none => n * g.dn)) % 2 ^ 64

/-- The wheel's angle `miss` samples before its next one (R87): along the stretch that was in effect there. -/
def thetaBack (w : Wheel) (miss : Nat) : Nat :=
  let k : Int := (w.k : Int) - (miss : Int)
  if miss = 0 then w.theta
  else match w.legs.find? (fun g => decide (g.k ≤ k)) with
    | some g => g.theta_ (k - g.k).toNat
    | none => (w.theta + miss * 2 ^ 64 - miss * (w.d % 2 ^ 64)) % 2 ^ 64

/-- A new stretch of the path begins at the wheel's next sample. -/
def Wheel.mark (w : Wheel) : Wheel :=
  { w with legs := ⟨(w.k : Nat), w.theta, w.dn, w.ramp⟩ :: w.legs.filter (fun g => g.k < (w.k : Nat)) }

/-- A speed command on the wheel at its next sample (R90, R91): ANGLE_LOAD first, then STEP, LINEAR or S_CURVE. A command
that is `miss` samples late takes the ramp at its position, and a loaded angle as the wheel would have turned it (R87); an
angle that is not loaded never jumps. -/
def speedCommand (q chan mode target rlen blend : Nat) (angle : Option Nat) (miss : Nat) (s : State) : State :=
  let w := s.wheel q
  let s1 := match w.ramp with
    | some r => if r.j < r.k then raise .cse chan 6 s else raise .cse r.chan 10 s
    | none => s
  let d1 := s.dth q target
  let v0 := match w.ramp with
    | some _ => s.speedOf q w.d
    | none => w.v
  let r : SpeedRamp := ⟨mode == 2, w.d, d1, v0, target, rlen, min blend (rlen / 2), min miss rlen, chan⟩
  let step := mode = 0 ∨ rlen = 0
  let th := match angle with
    | some a => (a + (if step then miss * d1 else ({ r with j := 0 } : SpeedRamp).covers miss)) % 2 ^ 64
    | none => w.theta
  s1.setWheel q ({ w with
    theta := th, v := target, target := target, dn := if step then d1 else w.dn,
    ramp := if step then none else some r } : Wheel).mark

/-- Re-express the wheel at a new rate, `r` the ratio of the new FS to the old (R93). -/
def rerateWheel (q : Nat) (r : Rat) (s : State) : State :=
  let w := s.wheel q
  match w.ramp with
  | none => s.setWheel q ({ w with d := s.dth q w.v, dn := s.dth q w.v } : Wheel).mark
  | some p =>
    let k' := (roundQ ((p.k : Rat) * r)).toNat
    let b' := (roundQ ((p.blend : Rat) * r)).toNat
    let e' := (roundQ (((p.k - p.j : Nat) : Rat) * r)).toNat
    let p' : SpeedRamp := { p with d0 := s.dth q p.v0, d1 := s.dth q p.v1, k := k', blend := b', j := k' - e' }
    if e' = 0 then s.setWheel q ({ w with d := p'.d1, dn := p'.d1, ramp := some { p' with j := k' } } : Wheel).mark
    else s.setWheel q ({ w with d := p'.at_ p'.j, ramp := some p' } : Wheel).mark

/-! ### Partials (R94–R97) -/

/-- The phase increment of a slot in 2^-48 cycle per sample. -/
def Slot.increment (sl : Slot) (fs : Rat) (d : Nat) : Nat :=
  if sl.order then sl.freq * d / 2 ^ 16 else (roundQ (((sl.freq * 2 ^ 32 : Nat) : Rat) / fs)).toNat

/-- The phase of a slot at the wheel angle `theta` (R94). -/
def Slot.phase (sl : Slot) (theta : Nat) : Nat :=
  if sl.order then (sl.freq * theta / 2 ^ 16 + sl.p) % 2 ^ 48 else sl.p % 2 ^ 48

/-- The amplitude of the crossfade at its present step (R95). -/
def Slot.amplitude (sl : Slot) : Int :=
  if sl.xfade ≤ sl.j then sl.a1
  else roundQ ((sl.a0 : Rat) + ((sl.a1 - sl.a0 : Int) : Rat) * (sl.j : Rat) / (sl.xfade : Rat))

/-- Factors of the sine's Taylor series after its first term, from (2n)(2n + 1) for the n given down to `last`: 1 - x²/((2n)(2n+1)) × … -/
def sineSeries (xx : Rat) : Nat → Nat → Rat
  | 0, _ => 1
  | fuel + 1, n => 1 - xx / ((2 * n * (2 * n + 1) : Nat) : Rat) * sineSeries xx fuel (n + 1)

/-- sin(2π p) of a 48-bit phase p, in units of 2^-23, to far better than one unit: the series to x^27 on a quarter of the cycle. -/
def sineTrue (p : Nat) : Rat :=
  let quarter := p / 2 ^ 46 % 4
  let r := p % 2 ^ 46
  let part : Rat := ((if quarter % 2 = 1 then 2 ^ 46 - r else r : Nat) : Rat) / (2 ^ 46 : Nat)
  let x := part * (15707963267948966192313216916397514421 : Rat) / (10 ^ 37 : Nat)
  let y := x * sineSeries (x * x) 13 1 * (2 ^ 23 : Nat)
  if quarter < 2 then y else -y

/-- The sine that the part computes, in units of 2^-23: within one unit of the true one (R94), and within [-1, 1]. -/
def sine (p : Nat) : Int :=
  clampI (-(2 ^ 23)) (2 ^ 23) (if Config.sineUp p then (sineTrue p).ceil else (sineTrue p).floor)

/-- What a slot delivers (R94, R97, R107, R113). The Nyquist fade acts only while NYQ_FADE = 1. DESIGN CHOICE (log 125): the faded
amplitude is rounded to 2^-23 before the amplitude modulation. -/
def Slot.value (sl : Slot) (theta : Nat) (nyqOn : Bool) (mods : List Int) : Int :=
  if sl.on then
    let fade : Nat := if nyqOn then 64 - sl.nyq else 64
    let a := roundQ ((sl.amplitude : Rat) * (fade : Rat) / 64 * ((64 - sl.alloc : Nat) : Rat) / 64)
    let am := amProduct a sl.amDepth (modulator mods sl.amSrc)
    let pm := (sl.pmDepth : Int) * modulator mods sl.pmSrc * 2 ^ 9
    let ph := (((sl.phase theta : Nat) : Int) + pm) % 2 ^ 48
    roundQ ((am : Rat) * (sine ph.toNat : Rat) / (2 ^ 23 : Nat))
  else 0

/-- The Nyquist limit of R97 in 2^-48 cycle, times 100: 0.45 for IF = 1, 0.40 above. -/
def nyqLimit (ifLog : Nat) : Nat := if ifLog = 0 then 45 * 2 ^ 48 else 40 * 2 ^ 48

/-- One step of a slot after its sample: phase, crossfade position, Nyquist and allocation fades. -/
def Slot.step (sl : Slot) (fs : Rat) (d ifLog : Nat) (nyqOn allowed : Bool) : Slot :=
  let inc := sl.increment fs d
  let lim := nyqLimit ifLog
  let muted := if nyqOn then (if sl.muted then !decide (1600 * inc < 15 * lim) else decide (lim < 100 * inc)) else false
  { sl with
    p := if sl.order ∨ sl.on = false then sl.p else (sl.p + inc) % 2 ^ 48
    j := sl.j + 1
    muted := muted
    nyq := if muted then min 64 (sl.nyq + 1) else if nyqOn then sl.nyq - 1 else 0
    alloc := if allowed then sl.alloc - 1 else min 64 (sl.alloc + 1) }

/-! ### Stream rings and sample bodies (R78, R102, R179–R184) -/

/-- Size in bytes of a ring partition of player p of channel c; 0 when the player has none (R179). -/
def partSize (s : State) (c p : Nat) : Nat :=
  if s.rd .TACK_RING_CFG_EN 0 c = 0 then 0
  else
    let size := 4096 * 2 ^ min 4 (s.rd .TACK_RING_CFG_SIZE_LOG 0 c)
    if s.rd .TACK_RING_CFG_SPLIT 0 c = 1 then size / 2 else if p = 0 then size else 0

/-- Address of the first byte of a player's partition (R179). -/
def partBase (s : State) (c p : Nat) : Nat :=
  let size := 4096 * 2 ^ min 4 (s.rd .TACK_RING_CFG_SIZE_LOG 0 c)
  benchBase + s.rd .TACK_RING_BASE_BASE 0 c / size * size + p * (size / 2)

/-- Place in the order of writes of the latest stream byte of a run that is body byte `t0` past the start, if the run holds one (a linear
body passes only once). -/
def RingRun.find (x : RingRun) (len t0 : Nat) (circular : Bool) : Option Nat :=
  let t := x.t + (t0 + len - x.t % len) % len
  if x.t + x.n ≤ t then none
  else if circular then some (x.pos + (t + len * ((x.t + x.n - 1 - t) / len) - x.t))
  else if t = t0 then some (x.pos + (t - x.t))
  else none

/-- Bench address at which body byte b stands in a partition, if the partition holds it: its latest place in the order of writes, which
fewer than `size` further bytes have followed. -/
def ringByte (part : RingPart) (base size b : Nat) : Option Nat :=
  if part.len = 0 ∨ size = 0 then none
  else
    match part.runs.findSome? (fun x => x.find part.len ((b + part.len - part.start % part.len) % part.len) part.circular) with
    | some pos => if part.wp ≤ pos + size then some (base + pos % size) else none
    | none => none

/-- Where byte b of a player's body stands: in its segment in a bench, or in the ring, if the ring holds it (R13). -/
def bodyAddr (seg : SegRef) (part : RingPart) (base size b : Nat) : Option Nat :=
  if seg.quarry then ringByte part base size b else some (seg.addr + b)

/-- Byte b of a player's body, read under the identity of its quad's streamer m (R12): in place in a bench, or in the ring (R13). A
poisoned ring word counts as not held (R290), and so does a byte whose refill met a write collision (R311). -/
def bodyByte (s : State) (m : Nat) (seg : SegRef) (part : RingPart) (base size b : Nat) : Option Byte :=
  match bodyAddr seg part base size b with
  | some a => if seg.quarry && (s.poisoned a || Store.get false s.missed a) then none else some (s.byteAs m a)
  | none => none

/-- Collect bytes, if all are held. -/
def bodyBytes (s : State) (m : Nat) (seg : SegRef) (part : RingPart) (base size b : Nat) : Nat → Option (List Byte)
  | 0 => some []
  | n + 1 =>
    match bodyByte s m seg part base size b, bodyBytes s m seg part base size (b + 1) n with
    | some x, some xs => some (x :: xs)
    | _, _ => none

/-- Stored sample i of a body, left-justified and scaled by the header and descriptor gains (R78); none if the ring does not
hold it. -/
def storedSample (s : State) (m : Nat) (seg : SegRef) (gain : Int) (part : RingPart) (base size i : Nat) : Option Int :=
  let bitpos := seg.width * i
  match bodyBytes s m seg part base size (bitpos / 8) ((bitpos % 8 + seg.width + 7) / 8) with
  | none => none
  | some bs =>
    let raw := signed seg.width (leValue bs / 2 ^ (bitpos % 8)) * 2 ^ (24 - seg.width)
    let g1 := roundQ ((raw : Rat) * (seg.gain : Rat) / (2 ^ 23 : Nat))
    some (roundQ ((g1 : Rat) * (gain : Rat) / (2 ^ 23 : Nat)))

/-- The sample a tap reads at index x under the END rule of a play (R100, R101): 0 WRAP (or circular), 1 HOLD, 2 ZERO,
3 FINISH. -/
def tapIndex (n fin : Nat) (circular : Bool) (x : Int) : Option Nat :=
  if n = 0 then none
  else if circular ∨ fin = 0 then some ((x % (n : Int)).toNat)
  else if fin = 1 then some (if x < 0 then 0 else if (n : Int) ≤ x then n - 1 else x.toNat)
  else if x < 0 ∨ (n : Int) ≤ x then none
  else some x.toNat

/-- A tap of a player: samples before a carried start come from the play before (R100). -/
def tapValue (s : State) (m : Nat) (p : Player) (part prv : RingPart) (base size : Nat) (x : Int) : Option Int :=
  match p.prev with
  | some pr =>
    if x < 0 then
      match tapIndex pr.seg.n pr.fin pr.circular ((pr.seg.n : Int) + x) with
      | none => some 0
      | some i => storedSample s m pr.seg pr.gain prv base size i
    else
      match tapIndex p.seg.n p.fin p.angle x with
      | none => some 0
      | some i => storedSample s m p.seg p.gain part base size i
  | none =>
    match tapIndex p.seg.n p.fin p.angle x with
    | none => some 0
    | some i => storedSample s m p.seg p.gain part base size i

/-- Coefficient of a bank, phase 0 to 255 and tap (R98): there are 64 taps, -31 to 32, and phase 0 of bank 0 is a unit impulse. -/
def coeffSet (bank φ : Nat) (t : Int) : Int :=
  if t < -31 ∨ 32 < t then 0
  else if bank = 0 ∧ φ = 0 then (if t = 0 then 2 ^ 23 else 0)
  else Config.coefficient bank φ t

/-- Coefficient of phase 0 to 256: set 256 is set 0 shifted by one sample (R98). -/
def coeff (bank φ : Nat) (t : Int) : Int := if φ = 256 then coeffSet bank 0 (t - 1) else coeffSet bank φ t

/-- The interpolated coefficient for a 32-bit fraction (R98). -/
def coeffAt (bank frac : Nat) (t : Int) : Rat :=
  let φ : Nat := frac / 2 ^ 24
  let w : Nat := (frac / 2 ^ 8) % 2 ^ 16
  (coeff bank φ t : Rat) + ((coeff bank (φ + 1) t - coeff bank φ t : Int) : Rat) * (w : Rat) / (2 ^ 16 : Nat)

/-- The 64 taps of R98 summed from tap t on; none if a needed sample is not held. A tap of weight 0 in bank 0 at a whole
position is still needed (R102). -/
def tapSum (s : State) (m : Nat) (p : Player) (part prv : RingPart) (base size : Nat) (i : Int) (frac : Nat) :
    Nat → Int → Option Rat
  | 0, _ => some 0
  | n + 1, t =>
    match tapValue s m p part prv base size (i + t), tapSum s m p part prv base size i frac n (t + 1) with
    | some v, some acc => some (coeffAt p.bank frac t * (v : Rat) / (2 ^ 23 : Nat) + acc)
    | _, _ => none

/-- The step of a PLAY_TIME player in 2^-32 sample per synthesis sample (R100). -/
def Player.stepAt (p : Player) (fs : Rat) : Nat := (roundQ (((p.seg.srate * p.rate * 2 ^ 8 : Nat) : Rat) / fs)).toNat

/-- The step s of a player, exact, in 2^-40 sample per synthesis sample (R99, R101). -/
def Player.stepExact (p : Player) (fs : Rat) (d : Nat) : Nat := if p.angle then p.seg.m * d else p.stepAt fs * 2 ^ 8

/-- The stored position at the wheel angle `theta`, in 2^-32 samples (R100, R101). -/
def Player.position (p : Player) (theta : Nat) : Nat :=
  if p.angle then ((theta + 2 ^ 64 - p.thetaRef % 2 ^ 64) % 2 ^ (40 + p.seg.nrevLog)) * p.seg.m / 2 ^ 8 else p.pos

/-- The bank and mute that a step, in 2^-40 sample, selects (R99). -/
def Player.rebank (p : Player) (step : Nat) : Player :=
  let one := 2 ^ 40
  if 4 * one < step then { p with muted := true }
  else if p.muted ∧ 4 * one / 64 * 63 < step then p
  else
    let up : Nat := if 2 * one < step then 2 else if one < step then 1 else 0
    let down : Nat := if step < one / 64 * 63 then 0 else if step < 2 * one / 64 * 63 then 1 else 2
    { p with muted := false, waiting := p.waiting || p.muted
             bank := if p.muted then 2 else if p.bank < up then up else min p.bank down }

/-- What a player that its allocation lets run delivers (R98–R102, R107): none where its window is not held. DESIGN CHOICE (log 125): the
interpolated value is rounded to 2^-23 before the amplitude modulation. -/
def Player.output (s : State) (master : Nat) (p : Player) (part prv : RingPart) (base size theta : Nat) (amSrc amDepth pmSrc pmDepth : Nat)
    (mods : List Int) : Option Int :=
  if p.active = false ∨ p.muted then some 0
  else
    let m := modulator mods pmSrc
    let pos : Int :=
      if p.angle then
        let th := (((theta : Int) + (pmDepth : Int) * m * 2 ^ 5) % 2 ^ 64).toNat
        ((p.position th : Nat) : Int)
      else (p.pos : Int) + (pmDepth : Int) * m * 2 ^ 5
    match tapSum s master p part prv base size (pos / 2 ^ 32) ((pos % 2 ^ 32).toNat) 64 (-31) with
    | none => none
    | some x => some (amProduct (roundQ x) amDepth (modulator mods amSrc))

/-! ### Noise (R80, R103) -/

/-- The three steps of the 64-bit xorshift generator (R103). -/
def xorshift (s : Nat) : Nat :=
  let a := (s ^^^ (s * 2 ^ 13)) % 2 ^ 64
  let b := a ^^^ (a / 2 ^ 7)
  (b ^^^ (b * 2 ^ 17)) % 2 ^ 64

/-- x_0 of a generator value (R103). -/
def noiseSource (gauss : Bool) (s : Nat) : Int :=
  if gauss then
    let h (i : Nat) : Int := signed 16 (s / 2 ^ (16 * i)) * 2 ^ 8
    roundQ (((h 0 + h 1 + h 2 + h 3 : Int) : Rat) / 4)
  else signed 24 (s / 2 ^ 40)

/-- One section (R80): output, saturated, and whether it saturated. -/
def biquadOut (c : Biquad) (st : BiquadState) (x : Int) : Int :=
  roundQ (((c.b0 * x + c.b1 * st.x1 + c.b2 * st.x2 - c.a1 * st.y1 - c.a2 * st.y2 : Int) : Rat) / (2 ^ 29 : Nat))

/-- The sections in series: output, new stored samples, and whether any saturated. States beyond the sections stay. -/
def biquads : List Biquad → List BiquadState → Int → Int × List BiquadState × Bool
  | [], sts, x => (x, sts, false)
  | c :: cs, sts, x =>
    let st := sts.headD {}
    let y0 := biquadOut c st x
    let y := sat23 y0
    let (z, rest, f) := biquads cs sts.tail y
    (z, { x1 := x, x2 := st.x1, y1 := y, y2 := st.y1 } :: rest, f || decide (y ≠ y0))

/-! ### Level (R105) and patterns (R81, R84) -/

/-- L(k) of the level generator (R105). -/
def LevelGen.value (g : LevelGen) : Int :=
  if g.len ≤ g.j then g.a1
  else roundQ ((g.a0 : Rat) + ((g.a1 - g.a0 : Int) : Rat) * (g.j : Rat) / (g.len : Rat))

/-- The level generator one sample later. -/
def LevelGen.step (g : LevelGen) : LevelGen := { g with j := g.j + 1 }

/-- Marker levels of a branch: the standing TO_MARKERS pattern sets them when it takes an entry (R84). -/
def Sources.marks (src : Sources) : Bool × Bool := (src.m0, src.m1)

/-- Pin levels that a TO_PINS pattern asks for (R84). -/
def Sources.patPins (src : Sources) : List (Nat × Bool) :=
  match src.pat with
  | some p => if p.toPins then (upTo p.width).map (fun i => (p.patBase + i, p.bits.testBit i)) else []
  | none => []

/-- The pattern's next entry (R81). -/
def PatRun.next (s : State) (m : Nat) (p : PatRun) : PatRun :=
  if p.idx + 1 < p.count then
    let a := p.body + 8 * (p.idx + 1)
    { p with idx := p.idx + 1, bits := s.leAs m a 4 % 2 ^ p.width, hold := max 1 (s.leAs m (a + 4) 4) }
  else if p.wrap then { p with idx := 0, bits := s.leAs m p.body 4 % 2 ^ p.width, hold := max 1 (s.leAs m (p.body + 4) 4) }
  else p

/-- The markers after a pattern entry takes effect (R84). -/
def Sources.takeEntry (src : Sources) (p : PatRun) : Sources :=
  if p.toMarkers then { src with pat := some p, m0 := p.bits.testBit 0, m1 := p.bits.testBit 1,
                                 pulse0 := false, pulse1 := false, ended0 := false, ended1 := false }
  else { src with pat := some p }

/-! ### One sample of a branch -/

/-- What one synthesis sample of a branch gives: the sum of R108, the branch afterwards, and what it met. -/
structure SampleOut where
  sum : Int
  src : Sources
  underrun0 : Bool := false
  underrun1 : Bool := false
  noiseSat : Bool := false
  overspeed : Bool := false
  nyqFade : Bool := false
  trunc : Bool := false
deriving DecidableEq, Repr

/-- A player one sample later (R100). DESIGN CHOICE (log 125): a position past sample index 2^32 - 1 goes on without a bound. -/
def Player.step (p : Player) (fs : Rat) : Player :=
  { (if p.active ∧ p.angle = false then { p with pos := p.pos + p.stepAt fs } else p) with ran := p.active }

/-- A player on one sample: what it delivers, none on a ring underrun (R184), and the player afterwards. One that the allocation does not
let run is not evaluated (R113). After an overspeed it delivers 0 until its window is held again (R182). -/
def Player.run (p : Player) (allowed : Bool) (fs : Rat) (x : Option Int) : Option Int × Player :=
  if allowed = false then (some 0, p.step fs)
  else match x with
    | some v => (some v, { p.step fs with waiting := p.waiting && p.muted })
    | none => if p.waiting then (some 0, p.step fs) else (none, { p with active := false, ran := false })

/-- Evaluate a branch on the wheel's next sample and advance it (R94–R108). DESIGN CHOICE (log 126): the main branch and an alternate are
each tested by slot index and player number against the channel's whole allocation (R111, R113). -/
def evalSources (s : State) (c : Nat) (src : Sources) : SampleOut :=
  let q := quadOf c
  let w := s.wheel q
  let fs := s.fs q
  let mods := src.mods
  let nyqOn := s.rd .CSE_CSE_CFG_NYQ_FADE c == 1
  let partEff := s.rd .CSE_ALLOC_EFF_PART_EFF c
  let plEff := s.rd .CSE_ALLOC_EFF_PLAYERS_EFF c
  let slot (i : Nat) : Slot := Store.get {} src.slots i
  let parts := (upTo 32).map (fun i => (slot i).value w.theta nyqOn mods)
  let stepped := (upTo 32).map (fun i => (i, (slot i).step fs w.d (s.ifLog q) nyqOn (decide (i < partEff))))
  let slots' := stepped.foldl (fun st p => Store.set {} st p.1 p.2) src.slots
  let r := s.ring c
  let p0 := src.p0.rebank (src.p0.stepExact fs w.d)
  let p1 := src.p1.rebank (src.p1.stepExact fs w.d)
  let (x0, p0') := p0.run (decide (1 ≤ plEff)) fs <| p0.output s (20 + q) r.cur0 r.prv0 (partBase s c 0) (partSize s c 0) w.theta
    (s.rd .CSE_P0MOD_AM_SRC c) (s.rd .CSE_P0MOD_AM_DEPTH c) (s.rd .CSE_P0MOD_PM_SRC c) (s.rd .CSE_P0MOD_PM_DEPTH c) mods
  let (x1, p1') := p1.run (decide (2 ≤ plEff)) fs <| p1.output s (20 + q) r.cur1 r.prv1 (partBase s c 1) (partSize s c 1) w.theta
    (s.rd .CSE_P1MOD_AM_SRC c) (s.rd .CSE_P1MOD_AM_DEPTH c) (s.rd .CSE_P1MOD_PM_SRC c) (s.rd .CSE_P1MOD_PM_DEPTH c) mods
  let seed := xorshift src.noise.seed
  let (f, sts, nsat) := biquads src.noise.secs src.noise.states (noiseSource src.noise.gauss seed)
  let n := amProduct (roundQ ((f : Rat) * (src.noise.level : Rat) / (2 ^ 23 : Nat))) (s.rd .CSE_NMOD_AM_DEPTH c)
    (modulator mods (s.rd .CSE_NMOD_AM_SRC c))
  let l := amProduct src.level.value (s.rd .CSE_LMOD_AM_DEPTH c) (modulator mods (s.rd .CSE_LMOD_AM_SRC c))
  let v0 := x0.getD 0
  let v1 := x1.getD 0
  { sum := l + parts.foldl (· + ·) 0 + v0 + v1 + n
    src := { src with
      slots := slots'
      p0 := p0'
      p1 := p1'
      noise := { src.noise with seed := seed, states := sts }
      level := src.level.step
      mods := (0 :: parts ++ [v0, v1, n, l]).map sat23
      pat := src.pat.map (fun p => { p with hold := p.hold - 1 })
      pulse0 := false, pulse1 := false, ended0 := src.ended0 || src.pulse0, ended1 := src.ended1 || src.pulse1 }
    underrun0 := x0.isNone
    underrun1 := x1.isNone
    noiseSat := nsat
    overspeed := (p0.active && p0.muted && !src.p0.muted) || (p1.active && p1.muted && !src.p1.muted)
    nyqFade := stepped.any (fun p => p.2.on && p.2.muted && !(slot p.1).muted)
    trunc := (upTo 32).any (fun i => (slot i).on && decide (partEff ≤ i)) }

/-- The instant of a pending commit, where it is known: fixed, or the armed time of the comparator it waits for (R421). -/
def commitInstant? (s : State) (x : Commit) : Option Instant :=
  match x.due with
  | some t => some t
  | none => if x.mode = 1 ∧ s.rd .TBASE_LC_CTRL_ARM 0 x.lc = 1 then some (s.lcInstant x.lc) else none

/-- A commit of channel c's CSE page that is due on the next sample or before it: the CSE computes ahead of the sample's edge (R71, R72). -/
def cseCommit (s : State) (c : Nat) : Option Commit :=
  s.commits.find? fun x => x.page == .cse && x.inst == c &&
    (match commitInstant? s x with
     | some t => decide (s.firstSample (c / 4) t ≤ (s.wheel (c / 4)).k)
     | none => false)

/-- A CSE field as it acts on the next sample (R72): from the first sample at or after a known commit instant the committed value.
DESIGN CHOICE (log 127): a sample computed before the commit's capture point takes the shadow copy as it stands. -/
def cseField (s : State) (c : Nat) (r : Reg) : Nat :=
  match cseCommit s c with
  | some x => if x.captured then s.rdCap r c else s.rd r c
  | none => s.rdEff r c

/-- A sum through GAIN and OFFSET (R108), before the clamp. -/
def gained (s : State) (c : Nat) (sum : Int) : Int :=
  roundQ ((sum : Rat) * (signed 24 (cseField s c .CSE_GAIN_GAIN) : Rat) / (2 ^ 22 : Nat)) + s123 (cseField s c .CSE_OFFSET_OFFSET)

/-- The dither of a generator value, in code steps (R110). -/
def ditherOf (g : Nat) : Rat := (((g / 2 ^ 48) % 2 ^ 16 + (g / 2 ^ 32) % 2 ^ 16 : Nat) : Rat) / (2 ^ 16 : Nat) - 1

/-- The code of an interpolated value (R110). -/
def codeOf (v : Rat) (dither : Rat) : Nat :=
  (clampI 0 (2 ^ 20 - 1) (2 ^ 19 + roundQ (v / 16 + dither))).toNat

/-- One half-band stage on a stretch of values, oldest first (R109): a 47-tap linear-phase filter at the doubled rate. Every even tap but
the centre is 0, as in any half-band filter (DEDUCED), so an even output is the input itself, and an odd one comes from 12 inputs on
either side. The outputs begin at the one that falls on input 11. -/
def halfBandStage (stage : Nat) (xs : List Rat) : List Rat :=
  (upTo (xs.length - 23)).flatMap fun i =>
    [xs.getD (i + 11) 0,
     (upTo 12).foldl (fun acc j => acc + Config.halfBandTap stage j * (xs.getD (i + 11 - j) 0 + xs.getD (i + 12 + j) 0)) 0]

/-- The first n stages of the chain. -/
def halfBandChain : Nat → List Rat → List Rat
  | 0, xs => xs
  | n + 1, xs => halfBandStage n (halfBandChain n xs)

/-- Samples after sample k whose values the codes of its update periods need, for IF = 2^n (R71, R109): the CSE computes that far ahead of
the edge, 23 × (IF - 1) update periods in whole samples. -/
def chainLead (ifLog : Nat) : Nat :=
  match ifLog with
  | 0 => 0
  | 1 => 12
  | 2 => 18
  | 3 => 21
  | _ => 22

/-- The clamp of the interpolated value (R109). -/
def clampQ (v : Rat) : Rat := if v < -(2 ^ 23 : Nat) then -(2 ^ 23 : Nat) else if (2 ^ 23 - 1 : Nat) < v then (2 ^ 23 - 1 : Nat) else v

/-- The interpolated values at the IF update edges of a sample, in units of 2^-23 (R109): centred on it, from the samples around it.
`hist` are the sums so far, newest first, and `after` of them come after that sample; a sum that is not there yet is taken as the newest,
one from before the first as 0 (DESIGN CHOICE, log 128). For IF = 1 the value itself. -/
def interpolate (ifLog : Nat) (hist : List Int) (after : Nat) : List Rat :=
  if ifLog = 0 then [(hist.getD after 0 : Int)]
  else
    let window : List Rat := (upTo (chainLead ifLog + 24)).map (fun i =>
      let j : Int := (after : Int) + 22 - (i : Int)
      ((hist.getD j.toNat 0 : Int) : Rat))
    (((halfBandChain ifLog window).drop 22).take (2 ^ ifLog)).map clampQ

/-! ### Allocation (R112, R113) -/

/-- ALLOC values as they act: above 32 acts as 32, 3 players act as 2. -/
def allocOf (s : State) (c : Nat) : Nat × Nat :=
  (min 32 (s.rd .CSE_ALLOC_PART_MAX c), min 2 (s.rd .CSE_ALLOC_PLAYERS c))

/-- The product of a count and FS is within a budget per second (R113). -/
def withinBudget (s : State) (q n budget : Nat) : Bool := decide ((n : Rat) * s.fs q ≤ (budget : Rat))

/-- Recompute the effective allocation of a quad (R113). BUDGET is raised on the pages when the clamp sets in. -/
def recomputeAlloc (q : Nat) (s : State) : State :=
  let cs := chansOf q
  let sumP := (cs.map (fun c => (allocOf s c).1)).foldl (· + ·) 0
  let sumY := (cs.map (fun c => (allocOf s c).2)).foldl (· + ·) 0
  let okP := withinBudget s q sumP 512000000
  let okY := withinBudget s q sumY 64000000
  each cs (fun c t =>
    let (p, y) := allocOf s c
    let t1 := t.wr .CSE_ALLOC_EFF_PART_EFF (if okP then p else min p (128000000 / s.fs q).floor.toNat) c
    let t2 := t1.wr .CSE_ALLOC_EFF_PLAYERS_EFF (if okY then y else min y (16000000 / s.fs q).floor.toNat) c
    let clamp := !(okP && okY)
    let t3 := t2.wr .CSE_STATUS_BUDGET_CLAMP (if clamp then 1 else 0) c
    if clamp then raise .cse c 3 t3 else t3) s

end Sys2Proof.Machine
end

