-- ==== Sys2Proof/Machine/Tack.lean ====
section
/-! DEFINITION. The Tack pool (R158–R178): credits, the register push interface, head slots, drops and flushes, link faults.
TACK event bits: 0 POISON, 1 TORN, 2 LINK_FAIL, 3 RING_SPILL, 4 RING_UNDERRUN, 5 FENCE_DONE, 6 PUSH_REFUSED, 7 LINK_CORR. -/

namespace Sys2Proof.Machine

/-- The cells of a packet, as the descriptor they carry (R83, R160). -/
def decodePacket (cells : List Nat) : Descr :=
  let h := cells.headD 0
  { kind := bits h 3 0, prio := bits h 5 4, more := bits h 8 6, rsv := bits h 15 9, seq := bits h 31 16,
    count := bits h 63 32, segaddr := bits h 103 64, flags := bits h 127 104,
    c1 := cells.getD 1 0, c2 := cells.getD 2 0 }

/-- The descriptor of a packet. -/
def Packet.descr (p : Packet) : Descr := decodePacket p.cells

/-- Cells of the packets of one producer class still in the pool (R163, R165, R170). -/
def cellsOf (ps : List Packet) (stitch : Bool) : Nat :=
  (ps.filter (fun p => p.stitch == stitch)).foldl (fun n p => n + p.cells.length) 0

/-- Cells that the register producers have reserved for open packets of queue i (R166). -/
def openCells (s : State) (i : Nat) : Nat :=
  (upTo 3).foldl (fun n m =>
    if s.rd .TACK_PUSH_STAT_OPEN 0 m = 1 ∧ (s.stage m).queue = i then n + (s.stage m).cells else n) 0

/-- Cells in flight for a producer class on queue i (R163). -/
def inFlight (s : State) (i : Nat) (stitch : Bool) : Nat :=
  let t := s.queue i
  cellsOf t.cells stitch + (if stitch then t.lostStitch else t.lostReg + openCells s i)

/-- The allocation of a producer class on queue i (R163). -/
def allocation (s : State) (i : Nat) (stitch : Bool) : Nat :=
  if stitch then s.rd .TACK_QCFG_CRED_STITCH 0 i else s.rd .TACK_QCFG_CRED_REG 0 i

/-- QAVAIL: allocation minus cells in flight, or 0 (R163). -/
def available (s : State) (i : Nat) (stitch : Bool) : Nat := allocation s i stitch - inFlight s i stitch

/-- The sum of R164 over all queues: the larger of allocation and cells in flight, for both producers. -/
def creditSum (s : State) : Nat :=
  (upTo 192).foldl (fun n i => n + max (allocation s i true) (inFlight s i true) +
    max (allocation s i false) (inFlight s i false)) 0

/-- Cells neither reserved nor queued. -/
def poolFree (s : State) : Nat :=
  32768 - (upTo 192).foldl (fun n i => n + inFlight s i true + inFlight s i false) 0

/-- A write of QCFG (R164): refused with NO_CREDIT if it would overcommit the pool. -/
def writeQcfg (m i v : Nat) (s : State) : State :=
  let t := ((s.wr .TACK_QCFG_CRED_STITCH (bits v 11 0) 0 i).wr .TACK_QCFG_CRED_REG (bits v 23 12) 0 i).wr
    .TACK_QCFG_FMODE (bit v 24) 0 i
  if 32768 < creditSum t then actionErr .tack 0 errNoCredit m s else t

/-- `QCFG_WRITE`: a write of queue i's QCFG. -/
def execQcfgWrite (m : Master) (i : Fin 192) (v : Word) (s : State) : Out :=
  cmd s .tack 0 (0x200 + 4 * i.val) m (writeQcfg m.val i.val v.toNat)

/-- The XOR of the 32 bits of a word (R159). -/
def wordParity (w : Nat) : Bool := (upTo 32).foldl (fun b i => b ^^ w.testBit i) false

/-- The words of a packet's cells, word 0 of each first (R159). -/
def Packet.words (p : Packet) : List Nat := p.cells.flatMap (fun c => (upTo 4).map (fun w => bits c (32 * w + 31) (32 * w)))

/-- The links of a queue's packets (R158): each cell leads to the next, and the last of a packet carries the end mark. -/
def TackQueue.links (t : TackQueue) : List LinkEntry :=
  let marks := t.cells.flatMap (fun p => (upTo p.cells.length).map (fun i => (i + 1 == p.cells.length, p.stitch)))
  (upTo marks.length).zipWith (fun i m => ⟨if i + 1 < marks.length then some (i + 1) else none, m.1, m.2⟩) marks

/-- A packet becomes part of its queue: its notice (R169). The parity of its words was computed as they were written (R159). -/
def notice (i : Nat) (p : Packet) (s : State) : State :=
  s.setQueue i { s.queue i with cells := (s.queue i).cells ++ [{ p with noticed := s.osc, parity := p.words.map wordParity }] }

/-- The word w of a packet fails its parity check at the fetch, `bad` being the words of which a bit has changed since they were written
(R159, R174). -/
def Packet.parityFails (p : Packet) (bad w : Nat) : Bool := (wordParity (p.words.getD w 0) ^^ bad.testBit w) != p.parity.getD w false

/-- FLUSH_BUSY stands while an open packet of the queue is marked for discard (R177). -/
def refreshFlushBusy (i : Nat) (s : State) : State :=
  s.wr .TACK_QLEVEL_FLUSH_BUSY
    (if (upTo 3).any (fun m => s.rd .TACK_PUSH_STAT_OPEN 0 m == 1 && (s.stage m).queue == i && (s.stage m).doomed)
     then 1 else 0) 0 i

/-- Join four words to a cell, word 0 lowest (R159). -/
def joinCells : List Nat → List Nat
  | a :: b :: c :: d :: rest => (a + b * 2 ^ 32 + c * 2 ^ 64 + d * 2 ^ 96) :: joinCells rest
  | _ => []

/-- The last word of an open packet has arrived (R166, R177): the packet closes and, unless a flush marked it, joins its
queue. -/
def closePacket (m : Nat) (s : State) : State :=
  let st := s.stage m
  let cells := joinCells st.words
  let s1 := ((s.wr .TACK_PUSH_STAT_OPEN 0 0 m).wr .TACK_PUSH_STAT_LAST_SEQ (bits (cells.headD 0) 31 16) 0 m).setStage m {}
  if st.doomed then refreshFlushBusy st.queue s1
  else notice st.queue { cells := cells, stitch := false } s1

/-- Header word 0 of a packet (R166, R167): reserve its cells, or refuse the packet and absorb its words. -/
def beginPacket (m w : Nat) (s : State) : State :=
  let ch := s.rd .TACK_PUSH_SEL_CH 0 m
  let n := bits w 8 6 + 1
  let i := 4 * ch + bits w 5 4
  let s1 := s.wr .TACK_PUSH_STAT_WORDS_LEFT (4 * n - 1) 0 m
  if 48 ≤ ch ∨ available s i false < n then
    raise .tack 0 6 (actionErr .tack 0 errNoCredit m
      ((s1.wr .TACK_PUSH_STAT_REFUSED 1 0 m).wr .TACK_PUSH_STAT_DISCARDING 1 0 m))
  else (s1.wr .TACK_PUSH_STAT_OPEN 1 0 m).setStage m { words := [w], cells := n, queue := i }

/-- A word written to PUSH_WIN by a master with staging (R166–R168, R178). -/
def pushWord (m w : Nat) (s : State) : State :=
  let left := s.rd .TACK_PUSH_STAT_WORDS_LEFT 0 m
  if s.rd .TACK_PUSH_STAT_DISCARDING 0 m = 1 then
    (s.wr .TACK_PUSH_STAT_WORDS_LEFT (left - 1) 0 m).wr .TACK_PUSH_STAT_DISCARDING (if left ≤ 1 then 0 else 1) 0 m
  else if s.rd .TACK_PUSH_STAT_OPEN 0 m = 1 then
    let s1 := (s.wr .TACK_PUSH_STAT_WORDS_LEFT (left - 1) 0 m).setStage m
      { s.stage m with words := (s.stage m).words ++ [w] }
    if left ≤ 1 then closePacket m s1 else s1
  else beginPacket m w s

/-- Only masters 0, 1 and 2 have staging (R166). -/
def pushMaster (m off : Nat) (f : State → State) (s : State) : State :=
  if m ≤ 2 then f s else recordErr .tack 0 errOwnerDenied m true (off / 4) s

/-- `PUSH_WIN_WORD`. -/
def execPushWinWord (m : Master) (w : Word) (s : State) : Out :=
  cmd s .tack 0 0x80 m (pushMaster m.val 0x80 (pushWord m.val w.toNat))

/-- Abandon a master's open packet, or end its absorbing (R168). -/
def pushAbort (m : Nat) (s : State) : State :=
  refreshFlushBusy (s.stage m).queue ((((s.wr .TACK_PUSH_STAT_OPEN 0 0 m).wr .TACK_PUSH_STAT_DISCARDING 0 0 m).wr
    .TACK_PUSH_STAT_WORDS_LEFT 0 0 m).setStage m {})

/-- `PUSH_ABORT`: PUSH_SEL.ABORT = 1. -/
def execPushAbort (m : Master) (s : State) : Out :=
  cmd s .tack 0 0x48 m (pushMaster m.val 0x48 (pushAbort m.val))

/-- What a fetch meets in the link table (R175). -/
abbrev LinkState := Fin 3

/-- Fetch the oldest complete packet of queue i into its empty head slot (R170). `bad` marks the words whose parity fails
(R174); `link` is 0 for sound links, 1 for a corrected entry, 2 for an entry that cannot be corrected: the packet is cut and
delivered poisoned, and what follows it is lost (R175). -/
def headFetch (i : Nat) (bad : Nat) (link : Nat) (s : State) : State :=
  let t := s.queue i
  match t.head, t.cells with
  | none, p :: rest =>
    let tagged := (upTo (4 * p.cells.length)).any (p.parityFails bad) || decide (link = 2)
    let p' : Packet := { p with poison := p.poison || tagged, poison1 := p.poison1 || p.parityFails bad 1 }
    let s1 := if link = 2 then
        raise .tack 0 2 ((((s.wr .TACK_QLEVEL_BROKEN 1 0 i).inc .TACK_CNT_LINK_FAILED).wr .TACK_STATUS_SWEEP 1).setQueue i
          { t with head := some p', cells := [], lostStitch := t.lostStitch + cellsOf rest true,
                   lostReg := t.lostReg + cellsOf rest false })
      else s.setQueue i { t with head := some p', cells := rest }
    let s2 := if link = 1 then raise .tack 0 7 (s1.inc .TACK_CNT_LINK_CORRECTED) else s1
    if tagged then raise .tack 0 0 (s2.inc .TACK_CNT_POISON_COUNT) else s2
  | _, _ => s

/-- `HEAD_SLOT_FETCH`. -/
def execHeadSlotFetch (i : Fin 192) (bad : BitVec 32) (link : Fin 3) (s : State) : Out :=
  act s (headFetch i.val bad.toNat link.val)

/-- `LINK_SWEEP_DONE` (R175): every lost cell and its credit is returned, and BROKEN clears. -/
def execLinkSweepDone (s : State) : Out :=
  act s (on (s.rd .TACK_STATUS_SWEEP = 1) fun s =>
    each (upTo 192) (fun i s => on (s.rd .TACK_QLEVEL_BROKEN 0 i = 1)
      (fun s => (s.wr .TACK_QLEVEL_BROKEN 0 0 i).setQueue i { s.queue i with lostStitch := 0, lostReg := 0 }) s)
      (s.wr .TACK_STATUS_SWEEP 0))

/-- The head packet of a queue, in the head slot or still in cells (R170, R176). -/
def headPacket (t : TackQueue) : Option Packet :=
  match t.head with
  | some p => some p
  | none => t.cells.head?

/-- The queue without its head packet. -/
def dropHead (t : TackQueue) : TackQueue :=
  match t.head with
  | some _ => { t with head := none }
  | none => { t with cells := t.cells.tail }

/-- Held by release or by gang (R128). -/
def Packet.held (p : Packet) : Bool :=
  match p.hold with
  | .release _ _ => true
  | .gang _ _ => true
  | _ => false

/-- The current descriptor of channel c returns to its own COUNT; one whose COUNT has run out while it stood before a held descriptor ends
at the earliest synthesis sample not yet computed (R129, R177). -/
def endPredecessor (c : Nat) (s : State) : State :=
  let e := s.cse c
  let k : Int := ((s.wheel (quadOf c)).k : Nat)
  if e.vacant = false ∧ e.cur.count ≠ 0xFFFFFFFF ∧ e.due + e.cur.count < k then
    s.setCse c { e with cur := { e.cur with count := (k - e.due).toNat } }
  else s

/-- Change the head packet of a queue. -/
def mapHeadPacket (f : Packet → Packet) (t : TackQueue) : TackQueue :=
  match t.head, t.cells with
  | some p, _ => { t with head := some (f p) }
  | none, p :: rest => { t with cells := f p :: rest }
  | none, [] => t

/-- A plain packet that follows a dropped one takes its due sample (R176): its hold, and its notice for a due sample by the lead time. -/
def Packet.follow (p x : Packet) : Packet := if x.hold = .plain then { x with hold := p.hold, noticed := p.noticed } else x

/-- The queue whose head packet follows in queue order what has gone from the head of queue i: i itself, else the next lower priority of
its channel that holds a packet (R171). -/
def followQueue (s : State) (i : Nat) : Option Nat :=
  ((upTo (i % 4 + 1)).reverse.map (fun n => i / 4 * 4 + n)).find? (fun j => (headPacket (s.queue j)).isSome)

/-- F0 drop (R176): the head packet goes, if SEQ_MATCH is clear or its SEQ matches. -/
def dropQueue (i : Nat) (seqMatch : Bool) (seq : Nat) (s : State) : State :=
  match headPacket (s.queue i) with
  | none => s
  | some p =>
    if seqMatch ∧ p.descr.seq ≠ seq then s
    else
      let s1 := s.setQueue i (dropHead (s.queue i))
      match followQueue s1 i with
      | some j => s1.setQueue j (mapHeadPacket p.follow (s1.queue j))
      | none => if p.held then endPredecessor (i / 4) s1 else s1

/-- An open packet meets a flush point; the first counts (R177, R178). -/
def Staging.doom (x : Staging) (t : Nat) : Staging := if x.doomed then x else { x with doomed := true, doomedAt := t }

/-- The gang that a packet is staged for. -/
def Packet.gang? (p : Packet) : Option Nat :=
  match p.hold with
  | .gang k none => some k
  | _ => none

/-- The quad's Stitcher keeps the gangs of which a flush has discarded staged packets (R151). -/
def noteFlushed (q : Nat) (gone : List Packet) (s : State) : State :=
  let st := s.stitcher q
  match (gone.filterMap Packet.gang?).filter (fun k => !st.flushed.contains k) with
  | [] => s
  | ks => s.setStitcher q { st with flushed := st.flushed ++ ks.eraseDups }

/-- F1 flush (R177): every complete packet goes; open packets are marked for discard at their close. -/
def flushQueue (i : Nat) (s : State) : State :=
  let gone := (s.queue i).head.toList ++ (s.queue i).cells
  let s0 := if gone.any Packet.held then endPredecessor (i / 4) s else s
  let s1 := noteFlushed (i / 16) gone (s0.setQueue i { s.queue i with head := none, cells := [] })
  let s2 := each (upTo 3) (fun m t =>
    if t.rd .TACK_PUSH_STAT_OPEN 0 m = 1 ∧ (t.stage m).queue = i then t.setStage m (t.stage m |>.doom s.osc) else t) s1
  refreshFlushBusy i s2

/-- Flush all four queues of a channel (R137). -/
def flushChannel (c : Nat) (s : State) : State := each (rangeFrom (4 * c) 4) flushQueue s

/-- A write to Q_CMD: a drop or a flush by FMODE; queues 192 to 255 are ignored (R176, R177). -/
def writeQCmd (v : Nat) (s : State) : State :=
  let i := bits v 7 0
  if bit v 8 = 0 ∨ 192 ≤ i then s
  else if s.rd .TACK_QCFG_FMODE 0 i = 1 then flushQueue i s
  else dropQueue i (bit v 9 == 1) (bits v 31 16) s

/-- `QUEUE_DROP`: Q_CMD.DISCARD on queue i with FMODE = 0. -/
def execQueueDrop (m : Master) (i : Fin 192) (seqMatch : Bool) (seq : BitVec 16) (s : State) : Out :=
  cmd s .tack 0 0x50 m (on (s.rd .TACK_QCFG_FMODE 0 i.val = 0) (dropQueue i.val seqMatch seq.toNat))

/-- `QUEUE_FLUSH`: Q_CMD.DISCARD on queue i with FMODE = 1. -/
def execQueueFlush (m : Master) (i : Fin 192) (s : State) : Out :=
  cmd s .tack 0 0x50 m (on (s.rd .TACK_QCFG_FMODE 0 i.val = 1) (flushQueue i.val))

/-- `PACKET_TORN` (R178): the open packet of master m that a flush marked is torn, 1 ms after the flush point. -/
def execPacketTorn (m : Fin 3) (s : State) : Out :=
  act s (on (s.rd .TACK_PUSH_STAT_OPEN 0 m.val = 1 ∧ (s.stage m.val).doomed = true ∧ (s.stage m.val).doomedAt + 400000 ≤ s.osc) fun s =>
    let i := (s.stage m.val).queue
    raise .tack 0 1 (refreshFlushBusy i (((((s.wr .TACK_PUSH_STAT_OPEN 0 0 m.val).wr .TACK_PUSH_STAT_TORN 1 0 m.val).wr
      .TACK_PUSH_STAT_DISCARDING 1 0 m.val).setStage m.val {}).inc .TACK_CNT_TORN_COUNT)))

/-- Empty every queue, head slot and ring and return every credit (R423, TACK registers). -/
def tackReset (s : State) : State :=
  each (upTo 192) (fun i s => (s.wr .TACK_QLEVEL_FLUSH_BUSY 0 0 i).wr .TACK_QLEVEL_BROKEN 0 0 i)
    (each (upTo 3) (fun m s => ((s.wr .TACK_PUSH_STAT_OPEN 0 0 m).wr .TACK_PUSH_STAT_DISCARDING 0 0 m).wr
      .TACK_PUSH_STAT_WORDS_LEFT 0 0 m)
      (each (upTo 48) (fun c s => s.setCse c { s.cse c with altRing := {} })
        ({ s with queues := [], staging := [], rings := [] }.wr .TACK_STATUS_SWEEP 0)))

/-- `TACK_SOFT_RESET`. -/
def execTackSoftReset (m : Master) (s : State) : Out := cmd s .tack 0 4 m tackReset

end Sys2Proof.Machine
end

