-- ==== Sys2Proof/Machine/Segments.lean ====
section
/-! DEFINITION. Segment headers and their checks (R14, R74–R77), and what each descriptor kind does to the sources
(R79–R84, R95–R105). -/

namespace Sys2Proof.Machine

/-- CRC-32C (R75): reflected polynomial 0x82F63B78, initial value and final XOR all ones. -/
def crc32c (bs : List Byte) : Nat :=
  (bs.foldl (fun crc b => crcShiftsR 0x82F63B78 8 (crc ^^^ b.toNat)) 0xFFFFFFFF) ^^^ 0xFFFFFFFF

/-- A segment header (R75). -/
structure SegHeader where
  kind : Nat
  format : Nat
  version : Nat
  hflags : Nat
  blen : Nat
  count : Nat
  a : Nat
  b : Nat
  c : Nat
  hchk : Nat
  crc : Nat
deriving DecidableEq, Repr

/-- Read a header from its 32 bytes. -/
def parseHeader (bs : List Byte) : SegHeader :=
  let f (i n : Nat) := leValue ((bs.drop i).take n)
  { kind := f 0 1, format := f 1 1, version := f 2 1, hflags := f 3 1, blen := f 4 4, count := f 8 4, a := f 12 4,
    b := f 16 4, c := f 20 4, hchk := f 28 4, crc := crc32c (bs.take 28) }

/-- A 32-bit field that holds an s1.23 value copies bit 23 into bits 31 to 24 (R77). -/
def s123Ok (v : Nat) : Bool := signed 32 v == signed 24 v

/-- Sample width of a SAMPLE or ANGLE format (R77). -/
def formatWidth (f : Nat) : Nat := if f = 0 then 16 else if f = 1 then 20 else 24

/-- Body length in bytes before padding (R77). -/
def SegHeader.bodyBytes (h : SegHeader) : Nat :=
  match h.kind with
  | 1 => (h.count * formatWidth h.format + 7) / 8
  | 2 => (h.count * formatWidth h.format + 7) / 8
  | 3 => h.count * 16
  | 4 => h.count * 32
  | 7 => h.count * 8
  | _ => 0

/-- The ranges of R77. -/
def SegHeader.fieldsOk (h : SegHeader) : Bool :=
  match h.kind with
  | 1 => decide (h.format ≤ 2) && decide (1 ≤ h.count) && decide (1 ≤ h.a) && decide (h.a ≤ 64000000) && s123Ok h.b &&
         h.c == 0 && h.hflags == 0
  | 2 => decide (h.format ≤ 2) && decide (64 ≤ h.a) && decide (h.a ≤ 65536) && s123Ok h.b && decide (h.c ≤ 12) &&
         h.count == h.a * 2 ^ h.c && h.hflags == 0
  | 3 => h.format == 0 && decide (1 ≤ h.count) && decide (h.count ≤ 32) && decide (h.a ≤ 2 ^ 24) && h.b == 0 && h.c == 0 &&
         h.hflags == 0
  | 4 => h.format == 0 && decide (h.count ≤ 8) && s123Ok h.a && decide (h.hflags ≤ 1)
  | 5 => h.format == 0 && h.count == 0 && s123Ok h.a && h.b == 0 && h.c == 0 && h.hflags == 0
  | 6 => h.format == 0 && s123Ok h.a && s123Ok h.b && h.c == 0 && decide (h.hflags ≤ 1)
  | 7 => decide (1 ≤ h.format) && decide (h.format ≤ 32) && decide (1 ≤ h.count) && decide (h.count ≤ 2 ^ 28) && h.a == 0 &&
         h.b == 0 && h.c == 0 && decide (h.hflags ≤ 1)
  | _ => false

/-- A header is valid for the descriptor kind that names it (R76). -/
def SegHeader.ok (h : SegHeader) (kind : Nat) : Bool :=
  h.hchk == h.crc && h.version == 1 && h.kind == kind && h.fieldsOk && h.blen == (h.bodyBytes + 31) / 32

/-- A segment of `n` bytes at `a` lies wholly in one of the two spaces (R14). -/
def segInSpace (s : State) (a n : Nat) : Bool := inBench a n || inWave s a n

/-- Fetch and check the header of a descriptor's segment for channel c (R14, R74, R76, R174): the header, or the error code
of the discard. The read is made by the quad's streamer (R12); a denied read gives zeros, which fail the check. -/
def fetchHeader (s : State) (c : Nat) (d : Descr) : Except Nat SegHeader :=
  if d.segaddr % 32 ≠ 0 then .error errRegionDenied
  else if segInSpace s d.segaddr 32 = false then .error errRegionDenied
  else
    let r := memRead s (20 + quadOf c) d.segaddr 32
    if r.2.anyPoison d.segaddr 32 then .error errPoison
    else
      let h := parseHeader r.1
      if h.ok d.kind = false then .error errPoison
      else if segInSpace s d.segaddr (32 + 32 * h.blen) = false then .error errRegionDenied
      else .ok h

/-- The descriptor names a segment (R83). -/
def Descr.namesSegment (d : Descr) : Bool :=
  (1 ≤ d.kind && d.kind ≤ 4) || d.kind == 7 || ((d.kind == 5 || d.kind == 6) && bit d.flags 0 == 0)

/-- The checks of R83 and R160 on the descriptor itself. -/
def Descr.ok (d : Descr) : Bool :=
  d.rsv == 0 &&
  (match d.kind with
   | 0 => d.more == 0 && bits d.flags 23 2 == 0
   | 1 => d.more == 1 && bits d.flags 23 4 == 0 && bits d.c1 127 88 == 0
   | 2 => d.more == 1 && bits d.flags 23 2 == 0 && bits d.c1 127 88 == 0
   | 3 => d.more == 0 && bits d.flags 23 5 == 0
   | 4 => d.more == 0 && bits d.flags 23 2 == 0
   | 5 => d.more == 0 && bits d.flags 23 1 == 0
   | 6 => d.more == bit d.flags 0 && bits d.flags 23 2 == 0
   | 7 => d.more == 0 && bits d.flags 23 7 == 0
   | 8 => d.more == 1 + bit d.flags 2 && bits d.flags 23 3 == 0 && bits d.flags 1 0 != 3
   | 9 => d.more == 0 && bits d.flags 23 4 == 0
   | 15 => d.more == 0
   | _ => false)

/-- COUNT of an open descriptor (R82). -/
def openCount : Nat := 0xFFFFFFFF

/-! ### Effects on the sources. `miss` is by how many samples the descriptor is late (R87). -/

/-- One PARTIALS entry on its slot (R79, R95). -/
def applyEntry (s : State) (c slotIdx xfade miss e : Nat) (sl : Slot) : Slot :=
  let q := quadOf c
  let w := s.wheel q
  let fs := s.fs q
  let th0 := thetaBack w miss
  let oldInc := if sl.on then sl.increment fs w.d else 0
  let old : Nat :=
    if sl.order then sl.phase th0 else ((sl.p + miss * 2 ^ 48 - (miss * oldInc) % 2 ^ 48) % 2 ^ 48)
  let order := bit e 40 == 1
  let freq := bits e 39 0
  let fresh : Slot := { sl with order := order, freq := freq }
  let base := freq * th0 / 2 ^ 16 % 2 ^ 48
  let ph := bits e 87 72 * 2 ^ 32
  let pm := bits e 42 41
  let p0 : Nat :=
    if order then
      (if pm = 1 then (ph + 2 ^ 48 - base) % 2 ^ 48 else if pm = 2 then ph else (old + 2 ^ 48 - base) % 2 ^ 48)
    else (if pm = 1 ∨ pm = 2 then ph else old)
  let off := bit e 43 == 1
  let a1 : Int := if off then 0 else s123 (bits e 71 48)
  { fresh with
    p := if order then p0 else (p0 + miss * fresh.increment fs w.d) % 2 ^ 48
    a0 := ({ sl with j := sl.j - miss } : Slot).amplitude, a1 := a1, xfade := xfade, j := miss
    on := if off then sl.on else true
    off := off
    amSrc := bits e 95 88, amDepth := bits e 103 96, pmSrc := bits e 111 104, pmDepth := bits e 127 112
    alloc := if sl.on then sl.alloc else if s.rd .CSE_ALLOC_EFF_PART_EFF c ≤ slotIdx then 64 else 0 }

/-- A PARTIALS body on the slots from SLOT_BASE on; entries above slot 31 are ignored (R79). -/
def applyPartials (s : State) (c : Nat) (d : Descr) (h : SegHeader) (miss : Nat) (src : Sources) : Sources :=
  let base := bits d.flags 4 0
  { src with slots := (upTo h.count).foldl (fun st e =>
      if base + e ≤ 31 then
        Store.set {} st (base + e) (applyEntry s c (base + e) h.a miss (s.leAs (20 + quadOf c) (d.segaddr + 32 + 16 * e) 16)
          (Store.get {} st (base + e)))
      else st) src.slots }

/-- A section of a NOISE body (R80). -/
def readBiquad (s : State) (m a : Nat) : Biquad :=
  let f (i : Nat) : Int := signed 32 (s.leAs m (a + 4 * i) 4)
  ⟨f 0, f 1, f 2, f 3, f 4⟩

/-- One step of the noise shaper: its generator, and its sections on the generator's value (R80, R103). -/
def Noise.step (n : Noise) : Noise :=
  let seed := xorshift n.seed
  { n with seed := seed, states := (biquads n.secs n.states (noiseSource n.gauss seed)).2.1 }

/-- n steps of the noise shaper. -/
def Noise.steps : Nat → Noise → Noise
  | 0, n => n
  | k + 1, n => Noise.steps k n.step

/-- Undo `a ^^^ (a <<< k)` on 64 bits, `n` times k bits at once. -/
def unshiftLeft (k x : Nat) : Nat → Nat
  | 0 => x
  | n + 1 => (x ^^^ (unshiftLeft k x n * 2 ^ k)) % 2 ^ 64

/-- Undo `a ^^^ (a >>> k)`, k bits at once. -/
def unshiftRight (k x : Nat) : Nat → Nat
  | 0 => x
  | n + 1 => x ^^^ (unshiftRight k x n / 2 ^ k)

/-- The generator value before one step of R103: the three steps undone in reverse order. -/
def xorshiftBack (s : Nat) : Nat := unshiftLeft 13 (unshiftRight 7 (unshiftLeft 17 s 4) 10) 5

/-- The generator value n steps ago. -/
def seedBack : Nat → Nat → Nat
  | 0, s => s
  | n + 1, s => seedBack n (xorshiftBack s)

/-- A NOISE descriptor (R104). One that applies `miss` samples late has the generator and the sections run since its due sample (R87);
sections that are not cleared go on from the samples they hold (DESIGN CHOICE, log 129). -/
def applyNoise (s : State) (m : Nat) (d : Descr) (h : SegHeader) (miss : Nat) (src : Sources) : Sources :=
  let seed := h.b + h.c * 2 ^ 32
  let n : Noise :=
    { seed := if bit d.flags 0 = 1 then (if seed = 0 then 1 else seed) else seedBack miss src.noise.seed
      gauss := bit h.hflags 0 == 1
      level := s123 h.a
      secs := (upTo h.count).map (fun i => readBiquad s m (d.segaddr + 32 + 32 * i))
      states := if bit d.flags 1 = 1 then [] else src.noise.states }
  { src with noise := n.steps miss }

/-- The level generator `miss` samples ago. -/
def LevelGen.back (g : LevelGen) (miss : Nat) : LevelGen := { g with j := g.j - miss }

/-- A RAMP of the level generator (R105). -/
def applyRamp (start fin : Int) (len : Nat) (fromCurrent : Bool) (miss : Nat) (src : Sources) : Sources :=
  { src with level :=
    { a0 := if fromCurrent then (src.level.back miss).value else start, a1 := fin, len := len, j := miss } }

/-- Advance a pattern by the samples that a late descriptor missed (R81, R87). -/
def patForward (s : State) (m : Nat) : Nat → PatRun → PatRun
  | 0, p => p
  | n + 1, p => patForward s m n (if p.hold ≤ 1 then p.next s m else { p with hold := p.hold - 1 })

/-- A PATTERN descriptor (R81, R84). -/
def applyPattern (s : State) (m : Nat) (d : Descr) (h : SegHeader) (miss : Nat) (src : Sources) : Sources :=
  let body := d.segaddr + 32
  let p : PatRun :=
    { body := body, count := h.count, width := h.format, wrap := bit h.hflags 0 == 1, toMarkers := bit d.flags 0 == 1,
      toPins := bit d.flags 1 == 1, patBase := bits d.flags 6 2, idx := 0, bits := s.leAs m body 4 % 2 ^ h.format,
      hold := max 1 (s.leAs m (body + 4) 4), id := Nat.pair src.patGen (src.patCount + 1) }
  { src with patCount := src.patCount + 1 }.takeEntry (patForward s m miss p)

/-- A marker action (R84): 0 NONE, 1 SET, 2 CLEAR, 3 PULSE. -/
def markAction (a : Nat) (level pulse ended : Bool) : Bool × Bool × Bool :=
  match a with
  | 1 => (true, false, false)
  | 2 => (false, false, false)
  | 3 => (true, true, false)
  | _ => (level, pulse, ended)

/-- A MARK descriptor (R84). -/
def applyMark (d : Descr) (src : Sources) : Sources :=
  let a := markAction (bits d.flags 1 0) src.m0 src.pulse0 src.ended0
  let b := markAction (bits d.flags 3 2) src.m1 src.pulse1 src.ended1
  { src with m0 := a.1, pulse0 := a.2.1, ended0 := a.2.2, m1 := b.1, pulse1 := b.2.1, ended1 := b.2.2 }

/-- The segment of a player descriptor. -/
def segRef (d : Descr) (h : SegHeader) : SegRef :=
  { addr := d.segaddr + 32, quarry := !inBench d.segaddr 1, width := formatWidth h.format, n := h.count,
    srate := h.a, gain := s123 h.b, m := h.a, nrevLog := bits h.c 3 0 }

/-- Player of a PLAY descriptor. -/
def Descr.player (d : Descr) : Nat := bit d.flags 0

/-- The samples that the taps of a play's first synthesis sample read (R100, R101): the first one's index and their number, up to 64; a play
that is not circular reads none before its body or beyond it. -/
def firstWindow (s : State) (c : Nat) (d : Descr) (seg : SegRef) : Nat × Nat :=
  let i : Nat := if d.kind = 1 then bits d.c1 31 0
    else
      let th := (s.wheel (quadOf c)).theta
      let ref := if bit d.flags 1 = 1 then th else bits d.c1 63 0
      ((th + 2 ^ 64 - ref) % 2 ^ (40 + seg.nrevLog)) * seg.m / 2 ^ 40
  if d.kind = 2 ∨ bits d.flags 2 1 = 0 then ((i + 64 * seg.n - 31) % max 1 seg.n, 64)
  else (i - 31, min seg.n (i + 33) - (i - 31))

/-- Stream bytes from the start of a part to the end of a window, and 1024 further bytes of body or the rest of it (R181). -/
def readyBytes (part : RingPart) (width : Nat) (win : Nat × Nat) : Nat :=
  let b := width * win.1 / 8
  let lead := if part.circular then (b + part.len - part.start % max 1 part.len) % max 1 part.len else b - part.start
  let upto := lead + (width * win.2 + 14) / 8 + 1024
  if part.start = 0 then min upto part.len else if part.circular then upto else min upto (part.len - part.start)

/-- A body is resident in a partition of `size` bytes (R183). -/
def resident (part : RingPart) (size : Nat) : Bool := decide (0 < part.len) && decide (part.len + 2048 ≤ size)

/-- The ring body that a Quarry play needs, with nothing of it written yet (R181, R183): a resident body is written from its first byte on,
any other from the first sample that the play reads. -/
def wantedPart (s : State) (c : Nat) (d : Descr) (h : SegHeader) : RingPart :=
  let seg := segRef d h
  let win := firstWindow s c d seg
  let part : RingPart := { body := seg.addr, len := h.bodyBytes, circular := d.kind == 2 || bits d.flags 2 1 == 0 }
  let placed := if resident part (partSize s c d.player) ∨ seg.n ≤ win.1 then part else { part with start := seg.width * win.1 / 8 }
  { placed with need := readyBytes placed seg.width win }

/-- The whole body stands in a partition of `size` bytes, behind its mark (R183). -/
def partWhole (part : RingPart) (size : Nat) : Bool :=
  resident part size && part.start == 0 && decide (part.len ≤ part.wr) &&
  part.runs.any (fun x => x.t == 0 && decide (part.wp ≤ x.pos + size))

/-- The part holds the body named and comes to hold the samples that the play reads first (R181): filled from a place at or before them. -/
def partServes (part want : RingPart) : Bool :=
  part.body == want.body && part.len == want.len && part.len != 0 && part.circular == want.circular &&
  (part.start == want.start || part.circular)

/-- Partition p of a ring: the body that plays, the one being made ready, and the one at the rewind mark. -/
def Ring.parts (r : Ring) (p : Nat) : RingPart × RingPart × RingPart :=
  if p = 0 then (r.cur0, r.nxt0, r.mark0) else (r.cur1, r.nxt1, r.mark1)

/-- Put the bodies of partition p. -/
def Ring.setParts (r : Ring) (p : Nat) (cur nxt mark : RingPart) : Ring :=
  if p = 0 then { r with cur0 := cur, nxt0 := nxt, mark0 := mark } else { r with cur1 := cur, nxt1 := nxt, mark1 := mark }

/-- The body that player p has played so far stays at hand for the taps of a JOIN (R100). -/
def keepPlayed (r : Ring) (p : Nat) : Ring := if p = 0 then { r with prv0 := r.cur0 } else { r with prv1 := r.cur1 }

/-- The same body for another play: how it is read is the play's. A whole body serves any play of it (R183). -/
def RingPart.replayed (part want : RingPart) : RingPart := { part with circular := want.circular, need := 0 }

/-- Body and length are the ones wanted, and all of it is in the ring (R183). -/
def wholeServes (part want : RingPart) (size : Nat) : Bool :=
  part.body == want.body && part.len == want.len && partWhole part size

/-- Where the rewind mark stands once `cur` gives way to a body that is not resident: at `cur` if that is resident (R183). -/
def markAfter (cur mark : RingPart) (size : Nat) : RingPart := if resident cur size then cur else mark

/-- Choose the ring part for a play: none when the body is not ready. The ring afterwards has it as the playing body. -/
def takePart (s : State) (c : Nat) (d : Descr) (h : SegHeader) : Option Ring :=
  let r := s.ring c
  let want := wantedPart s c d h
  let size := partSize s c d.player
  let (cur, nxt, mark) := r.parts d.player
  let kept := keepPlayed r d.player
  if partServes nxt want ∧ readyBytes nxt (segRef d h).width (firstWindow s c d (segRef d h)) ≤ nxt.wr then
    some (kept.setParts d.player nxt {} (if resident nxt size then {} else markAfter cur mark size))
  else if wholeServes cur want size then some (kept.setParts d.player (cur.replayed want) nxt mark)
  else if wholeServes mark want size then some (kept.setParts d.player (mark.replayed want) nxt {})
  else none

/-- Start a player (R100, R101). -/
def startPlayer (s : State) (c : Nat) (d : Descr) (h : SegHeader) (miss : Nat) (old : Player) : Player :=
  let q := quadOf c
  let w := s.wheel q
  let fs := s.fs q
  let seg := segRef d h
  let fresh : Player :=
    { active := true, angle := d.kind == 2, seg := seg, gain := s123 (bits d.c1 87 64), fin := bits d.flags 2 1,
      rate := bits d.c1 63 32, bank := old.bank, muted := false, ran := old.ran }
  if d.kind = 2 then
    { fresh with fin := 0, rate := 0,
                 thetaRef := if bit d.flags 1 = 1 then thetaBack w miss else bits d.c1 63 0 }
  else
    let join := bit d.flags 3 == 1 && old.active && old.ran
    let oldPos := old.position (thetaBack w miss) + (if old.angle then 0 else miss * 2 ^ 64 - miss * old.stepAt fs)
    let frac := if join then oldPos % 2 ^ 32 else 0
    { fresh with
      pos := bits d.c1 31 0 * 2 ^ 32 + frac + miss * fresh.stepAt fs
      prev := if join then some ⟨old.seg, old.gain, old.angle, old.fin⟩ else none }

/-- The outcome of applying a descriptor's sources. -/
inductive Applied where
  /-- discarded with an error code (R174) -/
  | bad (code : Nat)
  /-- not ready on this sample (R87) -/
  | wait
  /-- the sources afterwards, the channel's ring, and whether entries were truncated (R79) -/
  | done (src : Sources) (ring : Ring) (trunc : Bool)
deriving DecidableEq, Repr

/-- Apply kinds 1 to 7 and 9 to a set of sources (R83): checks in the order of R83, R74, R14, R76 and R179. -/
def applySources (s : State) (c : Nat) (d : Descr) (miss : Nat) (src : Sources) : Applied :=
  if d.ok = false then .bad errPoison
  else if d.namesSegment then
    match fetchHeader s c d with
    | .error e => .bad e
    | .ok h =>
      if (d.kind = 3 ∨ d.kind = 4 ∨ d.kind = 7) ∧ s.anyPoison (d.segaddr + 32) h.bodyBytes then .bad errPoison
      else match d.kind with
      | 3 => .done (applyPartials s c d h miss src) (s.ring c) (decide (32 < bits d.flags 4 0 + h.count))
      | 4 => .done (applyNoise s (20 + quadOf c) d h miss src) (s.ring c) false
      | 5 => .done { src with level := { a1 := s123 h.a } } (s.ring c) false
      | 6 => .done (applyRamp (s123 h.a) (s123 h.b) h.count (bit d.flags 1 == 1 || bit h.hflags 0 == 1) miss src)
               (s.ring c) false
      | 7 => .done (applyPattern s (20 + quadOf c) d h miss src) (s.ring c) false
      | _ =>
        let put (r : Ring) : Applied :=
          if d.player = 0 then .done { src with p0 := startPlayer s c d h miss src.p0 } r false
          else .done { src with p1 := startPlayer s c d h miss src.p1 } r false
        if inBench d.segaddr 1 then put (keepPlayed (s.ring c) d.player)
        else if partSize s c d.player = 0 then .bad errRegionDenied
        else match takePart s c d h with
          | none => .wait
          | some r => put r
  else match d.kind with
    | 5 => .done { src with level := { a1 := s123 (bits d.segaddr 23 0) } } (s.ring c) false
    | 6 => .done (applyRamp (s123 (bits d.c1 23 0)) (s123 (bits d.c1 55 32)) (bits d.c1 95 64) (bit d.flags 1 == 1) miss src)
             (s.ring c) false
    | 9 => .done (applyMark d src) (s.ring c) false
    | _ => .done src (s.ring c) false

end Sys2Proof.Machine
end

