-- ==== Sys2Proof/Machine/Rings.lean ====
section
/-! DEFINITION. Stream rings (R179–R185). -/

namespace Sys2Proof.Machine

/-- Size of a channel's ring in bytes (R179). -/
def ringSize (s : State) (c : Nat) : Nat := 4096 * 2 ^ min 4 (s.rd .TACK_RING_CFG_SIZE_LOG 0 c)

/-- Bench offset of a channel's ring; base bits below the size are ignored (R179). -/
def ringOffset (s : State) (c : Nat) : Nat := s.rd .TACK_RING_BASE_BASE 0 c / ringSize s c * ringSize s c

/-- Two rings overlap. -/
def ringsOverlap (s : State) (c d : Nat) : Bool :=
  decide (ringOffset s c < ringOffset s d + ringSize s d) && decide (ringOffset s d < ringOffset s c + ringSize s c)

/-- The ring of channel c holds nothing, neither for its players nor for those of an alternate (R179). -/
def emptyRing (c : Nat) (s : State) : State := (s.setRing c {}).setCse c { s.cse c with altRing := {} }

/-- A write of RING_CFG (R179, R180). While EN = 1 only EN acts. EN = 1 is refused on overlap, or outside benches 2 to 15;
EN = 0 empties the ring at once. -/
def writeRingCfg (m c v : Nat) (s : State) : State :=
  if s.rd .TACK_RING_CFG_EN 0 c = 1 then
    if bit v 4 = 0 then emptyRing c (s.wr .TACK_RING_CFG_EN 0 0 c) else s
  else
    let s1 := (s.wr .TACK_RING_CFG_SIZE_LOG (bits v 2 0) 0 c).wr .TACK_RING_CFG_SPLIT (bit v 3) 0 c
    if bit v 4 = 0 then s1
    else if (upTo 48).any (fun d => d != c && s1.rd .TACK_RING_CFG_EN 0 d == 1 && ringsOverlap s1 c d) then
      actionErr .tack 0 errRingOverlap m s1
    else if ringOffset s1 c < 0x80000 ∨ benchSize < ringOffset s1 c + ringSize s1 c then
      actionErr .tack 0 errRegionDenied m s1
    else emptyRing c (s1.wr .TACK_RING_CFG_EN 1 0 c)

/-- `RING_ENABLE`: a write of RING_CFG with EN = 1. -/
def execRingEnable (m : Master) (c : Chan) (sizeLog : Fin 8) (split : Bool) (s : State) : Out :=
  cmd s .tack 0 (0xB04 + 16 * c.val) m
    (writeRingCfg m.val c.val (sizeLog.val + (if split then 8 else 0) + 16))

/-- `RING_DISABLE`: a write of RING_CFG with EN = 0. -/
def execRingDisable (m : Master) (c : Chan) (s : State) : Out :=
  cmd s .tack 0 (0xB04 + 16 * c.val) m (writeRingCfg m.val c.val 0)

/-- How many of `n` bytes the mover may write of a body: nothing for an empty part; a resident or linear body stops at its end (R183). -/
def refillCount (part : RingPart) (size n : Nat) : Nat :=
  if part.len = 0 then 0
  else if part.circular then (if resident part size then min n (part.len - part.wr) else n)
  else min n (part.len - part.start - part.wr)

/-- The next body is refilled rather than the one that plays: until it is ready (R181), and where the other needs nothing more. -/
def fillsNext (cur nxt : RingPart) (size n : Nat) : Bool :=
  nxt.len != 0 && (decide (nxt.wr < nxt.need) || refillCount cur size n == 0)

/-- Copy a stream byte from Quarry into a ring word, under the identity m of the quad's streamer (R21, R23). The word's poison mark is
that of its bytes together (R290). -/
def copyByte (m src dst : Nat) (s : State) : State :=
  let mark := (dst % 4 != 0 && s.poisoned dst) || (byteAllowed s m .read src && s.poisoned src)
  let s1 := (s.setByte dst (s.byteAs m src)).setPoison dst mark
  { s1 with missed := Store.set false s1.missed dst false }

/-- A part after the mover has written its next k bytes; runs that are wholly overwritten are forgotten. -/
def RingPart.wrote (part : RingPart) (wp k size : Nat) : RingPart :=
  let runs := match part.runs with
    | x :: xs => if x.t + x.n = part.wr ∧ x.pos + x.n = wp then { x with n := x.n + k } :: xs else ⟨part.wr, wp, k⟩ :: x :: xs
    | [] => [⟨part.wr, wp, k⟩]
  { part with wr := part.wr + k, runs := runs.filter (fun x => decide (wp + k < x.pos + x.n + size)) }

/-- `wp` bytes have been written to partition p. -/
def Ring.advance (r : Ring) (p wp : Nat) : Ring :=
  if p = 0 then
    { r with wp0 := wp, cur0 := { r.cur0 with wp := wp }, nxt0 := { r.nxt0 with wp := wp }, prv0 := { r.prv0 with wp := wp },
             mark0 := { r.mark0 with wp := wp } }
  else
    { r with wp1 := wp, cur1 := { r.cur1 with wp := wp }, nxt1 := { r.nxt1 with wp := wp }, prv1 := { r.prv1 with wp := wp },
             mark1 := { r.mark1 with wp := wp } }

/-- Bytes written to partition p so far. -/
def Ring.wp (r : Ring) (p : Nat) : Nat := if p = 0 then r.wp0 else r.wp1

/-- The mover skips forward with the position of a player that overspeed mutes (R182): to the first sample of its window, where the ring
does not hold that. -/
def skipMuted (s : State) (c n : Nat) (p : Player) (part : RingPart) : RingPart :=
  if p.muted = false ∨ p.active = false ∨ part.len = 0 then part
  else
    match tapIndex p.seg.n p.fin p.angle ((p.position (s.wheel (quadOf c)).theta / 2 ^ 32 : Nat) - 31 : Int) with
    | none => part
    | some i =>
      let b := p.seg.width * i / 8
      if (ringByte part 0 (partSize s c n) b).isSome then part
      else if part.circular then { part with wr := part.wr + (b + part.len - (part.start + part.wr) % part.len) % part.len }
      else { part with wr := max part.wr (b - part.start) }

/-- What a refill does to the parts of partition p of a ring, before any byte is copied: which body it is for, its bytes' Quarry and bench
addresses, and the ring afterwards with whether the refill overtakes the rewind mark (R181, R183). -/
structure RefillPlan where
  moves : List (Nat × Nat)
  ring : Ring
  spill : Bool

/-- The refill of up to `n` bytes of partition p of channel c for the player `pl`. -/
def planRefill (s : State) (c p n : Nat) (pl : Player) : RefillPlan :=
  let size := partSize s c p
  let r := s.ring c
  let (cur0, nxt, mark) := r.parts p
  let cur := skipMuted s c p pl cur0
  let next := fillsNext cur nxt size n
  let part := if next then nxt else cur
  let k := if size = 0 then 0 else refillCount part size n
  let wp := r.wp p
  let spill := decide (size < part.wr + k) && !part.spilled && decide (0 < k)
  let part' := { part.wrote wp k size with spilled := part.spilled || spill }
  { moves := (upTo k).map (fun i => (part.body + (part.start + part.wr + i) % part.len, partBase s c p + (wp + i) % size))
    ring := if k = 0 then r
      else (if next then r.setParts p cur part' (if resident nxt size then {} else mark) else r.setParts p part' nxt mark).advance p (wp + k)
    spill := spill }

/-- `n` bytes of refill for player p of channel c (R181, R183), into the body made ready or the one that plays: denied
writes are missed refills (R180); a refill that overtakes the mark of a body that is not resident sets SPILL once per
descriptor. A byte of Quarry that the region registers deny reads as 0 (R24). -/
def refill (c p n : Nat) (pl : Player) (s : State) : State :=
  let m := 20 + quadOf c
  let x := planRefill s c p n pl
  match x.moves.find? (fun v => !byteAllowed s m .write v.2 || s.benchOff v.2), x.moves.find? (fun v => !byteAllowed s m .read v.1) with
  | some v, _ => denyMem m v.2 1 true s
  | none, bad =>
    let s0 := each x.moves (fun v s => eccRead v.1 1 s) s
    let s1 := match bad with
      | some v => denyMem m v.1 1 false s0
      | none => s0
    let s2 := (each x.moves (fun v s => copyByte m v.1 v.2 s) s1).setRing c x.ring
    if x.spill then raiseFor .tack 0 3 c (s2.wr .TACK_SPILL 1 0 0 c) else s2

end Sys2Proof.Machine
end

