-- ==== Sys2Proof/Machine/Benches.lean ====
section
/-! DEFINITION. The benches: port accesses, collisions, aliases, power states, test, failure and replacement (R305–R327). BENCH
event bits: 0 CE, 1 UE, 2 BENCH_FAIL, 3 BIST_DONE, 4 REPLACED, 5 OFFLINE, 6 COLLISION, 7 THERMAL_DEEP. A word has one value
here whichever copy serves it: the routing of R321 keeps every copy that can be read equal. -/

namespace Sys2Proof.Machine

/-- Masters 0, 1 and 2 write the bench controls. -/
def benchWriter (m : Nat) : Bool := m ≤ 2

/-! ### Accesses (R307, R309–R316) -/

/-- The access goes through port B (R309). -/
def portB (x : BenchAccess) : Bool := (20 ≤ x.master && 2 ≤ x.off / 0x40000 && x.kind ≤ 1) || (x.master == 7 && x.kind == 0)

/-- Masters whose accesses the byte-lane rotate splits (R315). -/
def splits (m : Nat) : Bool := m == 0 || m == 1 || m == 3

/-- The alignment that the master's accesses have (R305, R315). -/
def benchAligned (x : BenchAccess) : Bool :=
  if 2 ≤ x.kind then (x.len == 1 || x.len == 2 || x.len == 4) && x.off % x.len == 0
  else if splits x.master then 1 ≤ x.len && x.len ≤ 64
  else (x.len == 1 || x.len == 2 || x.len == 4 || (portB x && x.len == 16)) && x.off % x.len == 0

/-- The kind that the region check judges. -/
def BenchAccess.access (x : BenchAccess) : Kind := if x.kind = 0 then .read else if x.kind = 1 then .write else .alias_

/-- The access is not aligned as its master's are, or a region check rejects it (R24, R310, R315). -/
def benchDenied (s : State) (x : BenchAccess) : Bool :=
  !benchAligned x || !memAllowed s x.master x.access (benchBase + x.off) x.len

/-- Masters that write poisoned words (R307). -/
def writesMarks (m : Nat) : Bool := m == 4 || m == 6 || 20 ≤ m

/-- What an alias write puts into its lanes (R316). -/
def aliasMerge (s : State) (x : BenchAccess) : List Byte :=
  (upTo x.len).map fun i =>
    let old := s.byte (benchBase + x.off + i)
    let d := x.data.getD i 0
    if x.kind = 2 then old ||| d else old &&& ~~~d

/-- An alias write: one read-modify-write, whose prior word the writer's ALIAS_LAST keeps (R316). -/
def aliasWrite (x : BenchAccess) (s0 : State) : State :=
  let a := benchBase + x.off
  let w := a / 4 * 4
  let s := eccRead w 4 s0
  if s.poisoned a then
    recordErr .bench 0 errPoison x.master true 0 (s.wr .BENCH_ALIAS_STAT_POISON 1 0 x.master)
  else
    (((storeBench a (s.setBytes a (aliasMerge s x))).wr .BENCH_ALIAS_LAST_PRIOR (s.leAt w 4) 0 x.master).wr
      .BENCH_ALIAS_STAT_VALID 1 0 x.master).wr .BENCH_ALIAS_STAT_POISON 0 0 x.master

/-- A streamer's write loses lanes to port A: WRITE_COLLISION, and the bytes count as a missed refill (R180, R311). -/
def collision (m off : Nat) (lost : List Nat) (s : State) : State :=
  if lost.isEmpty then s
  else
    let s1 := raise .bench 0 6 ((s.wr .BENCH_COLL_STAT_STREAMER 1 0 0 (m - 20)).inc .BENCH_COLL_CNT_COUNT)
    { s1 with missed := lost.foldl (fun l i => Store.set false l (benchBase + off + i) true) s1.missed }

/-- Lanes of port B's write that port A writes with different data (R311). -/
def lostLanes (off : Nat) (data : List Byte) (offA : Nat) (dataA : List Byte) : List Nat :=
  (upTo data.length).filter fun i =>
    offA ≤ off + i && off + i < offA + dataA.length && data.getD i 0 != dataA.getD (off + i - offA) 0

/-- A write reaches its words, with the poison mark of its data (R307). -/
def markedWrite (x : BenchAccess) (s : State) : State :=
  let a := benchBase + x.off
  let s1 := writeWords x.master x.len a x.data s
  if x.mark && writesMarks x.master then each (rangeFrom a x.len) (fun b s => if s.offline b then s else s.setPoison b true) s1 else s1

/-- A write by port B with a write of port A in the same array cycle, plain or through an alias: a lane that both write takes port A's data
(R311). -/
def collide (x y : BenchAccess) (s : State) : State :=
  let dataA := if y.kind = 1 then y.data else aliasMerge s y
  let discarded := decide (2 ≤ y.kind) && (eccRead (benchBase + y.off) y.len s).poisoned (benchBase + y.off)
  let s1 := markedWrite x s
  let s2 := if y.kind = 1 ∨ discarded then (if y.kind = 1 then markedWrite y s1 else aliasWrite y s1)
    else
      let before := aliasWrite y s
      ((((markedWrite { y with kind := 1, data := dataA } s1).wr .BENCH_ALIAS_LAST_PRIOR (before.rd .BENCH_ALIAS_LAST_PRIOR 0 y.master) 0
        y.master).wr .BENCH_ALIAS_STAT_VALID 1 0 y.master).wr .BENCH_ALIAS_STAT_POISON 0 0 y.master)
  if discarded then s2 else collision x.master x.off (lostLanes x.off x.data y.off dataA) s2

/-- A write reaches its words, alone or with the port A write of the same array cycle that its checks admit. -/
def benchWrite (x : BenchAccess) (s : State) : State :=
  match x.other with
  | some (m, kind, off, data) =>
    let y : BenchAccess := { master := m, kind := kind, off := off, len := data.length, data := data, mark := false, other := none }
    if portB x && 1 ≤ kind && !portB y && data != [] && !benchDenied s y then collide x y s else markedWrite x s
  | none => markedWrite x s

/-- An access is served. -/
def serveAccess (x : BenchAccess) (s0 : State) : State :=
  let s := touchBench (benchBase + x.off) x.len s0
  if x.kind = 0 then
    let s1 := eccRead (benchBase + x.off) x.len s
    { s1 with readData := s1.bytesFor x.master (benchBase + x.off) x.len }
  else if x.kind = 1 then benchWrite x s
  else aliasWrite x s

/-- Some bench that the access touches is in the state. -/
def meetsState (s : State) (x : BenchAccess) (v : Nat) : Bool :=
  benchState s (x.off / 0x40000) == v || benchState s ((x.off + x.len - 1) / 0x40000) == v

/-- A rejected access: a read gives zeros (R24). -/
def refuseAccess (x : BenchAccess) (s : State) : State :=
  let s1 := recordErr .bench 0 errRegionDenied x.master (0 < x.kind) 0 s
  if x.kind = 0 then { s1 with readData := List.replicate x.len 0 } else s1

/-- An access that its checks have admitted (R25, R314, R318): refused where its bench has been switched OFF, held while its bench wakes
or an earlier access of its master waits, at a bench or at Quarry, or served. -/
def benchArrive (x : BenchAccess) (s : State) : State :=
  if meetsState s x 3 then refuseAccess x s
  else if meetsState s x 1 ∨ meetsState s x 2 ∨ s.ben.held.any (fun y => y.master == x.master) ∨
      s.qry.waiting.any (fun y => y.master == x.master) then
    { s with ben := { s.ben with held := s.ben.held ++ [x] } }
  else serveAccess x s

/-- An access reaches its port (R310, R315). -/
def benchAccess (x : BenchAccess) (s : State) : State := if benchDenied s x then refuseAccess x s else benchArrive x s

/-- `BENCH_ACCESS`: a read of `len` bytes or a write of `data` at a bench offset. `mark` is the poison mark that goes with written data;
`other` a port A write of the same array cycle by its master, kind (1 plain, 2 bit-set alias, 3 bit-clear alias), offset and data; `ce`
and `ue` the offsets of words whose cells have come to hold an error that the code corrects, or one that it cannot: the manual gives
errors no command of their own (DESIGN CHOICE, log entry 142). -/
def execBenchAccess (m : Master) (write : Bool) (off : BitVec 22) (len : Fin 65) (data : List Byte) (mark : Bool)
    (other : Option (Master × Fin 4 × BitVec 22 × List Byte)) (ce ue : List (BitVec 22)) (s : State) : Out :=
  let n := if write then data.length else len.val
  act s fun s =>
    let s1 := each ue (fun o s => addBenchFlaw true o.toNat s) (each ce (fun o s => addBenchFlaw false o.toNat s) s)
    on (0 < n ∧ off.toNat + n ≤ benchSize) (fun s => drawPool m.val (benchAccess
      { master := m.val, kind := if write then 1 else 0, off := off.toNat, len := n, data := data, mark := mark
        other := other.map (fun o => (o.1.val, o.2.1.val, o.2.2.1.toNat, o.2.2.2)) } s)) s1

/-- `BENCH_ALIAS_WRITE`: a write of `data` to the bit-set or, with `clear`, the bit-clear alias of a bench offset. -/
def execBenchAliasWrite (m : Master) (clear : Bool) (off : BitVec 22) (data : List Byte) (s : State) : Out :=
  act s (on (0 < data.length ∧ off.toNat + data.length ≤ benchSize) (benchAccess
    { master := m.val, kind := if clear then 3 else 2, off := off.toNat, len := data.length, data := data, mark := false, other := none }))

/-- `BENCH_SCRUB`: the scrub reads one word, which meets an error that has come to it: `r` is 0 for none, 1 for one that the code corrects,
2 for one that it cannot. It pauses in retention states and under the thermal limit (R308, R404). -/
def execBenchScrub (off : BitVec 22) (r : Fin 3) (s : State) : Out :=
  act s (on (benchState s (off.toNat / 0x40000) = 0 ∧ benchHealth s (off.toNat / 0x40000) ≠ 3 ∧ thermalLimit s = false) fun s =>
    benchWord off.toNat (if r.val = 0 then s else addBenchFlaw (r.val == 2) off.toNat s))

/-- `BENCH_PORT_TIMEOUT`: bench b, or the spare (16), does not complete an access within 1 us. -/
def execBenchPortTimeout (b : Fin 17) (s : State) : Out := act s (benchFails b.val)

/-! ### Power states (R317–R319) -/

/-- A test or replacement runs on the bench and holds it ON (R320, R326). -/
def bistHolds (s : State) (b : Nat) : Bool := s.ben.bist == b && 1 ≤ bistPhase s && bistPhase s ≤ 4

/-- RETENTION, or DEEP under the thermal limit. -/
def retention (s : State) : Nat := if thermalLimit s then 2 else 1

/-- The idle time of the bench is over. -/
def benchIdle (s : State) (b : Nat) : Bool :=
  Store.get 0 s.ben.last b + 400 * max 1 (s.rd .BENCH_AUTO_IDLE_US) ≤ s.osc

/-- The state that R317 gives a bench, first row that applies. -/
def benchRest (s : State) (b : Nat) : Nat :=
  let d := s.rd .POWER_STATUS_DSTATE
  if bistHolds s b then 0
  else if benchMode s b = 2 then 3
  else if d = 3 ∨ d = 4 then 2
  else if d = 2 then retention s
  else if benchMode s b = 1 ∧ benchIdle s b then retention s
  else 0

/-- A bench loses its contents: every word reads 0 with valid check bits (R317). -/
def wipeBench (b : Nat) (s : State) : State :=
  let keep (a : Nat) : Bool := !(inBench a 1 && benchOf a == b)
  { s with mem := s.mem.filter (fun p => keep p.1), poison := s.poison.filter (fun p => keep p.1)
           missed := s.missed.filter (fun p => keep p.1)
           ben := { s.ben with flaws := s.ben.flaws.filter (fun p => keep (benchBase + 4 * p.1)) } }

/-- `BENCH_AUTO_RETENTION`. -/
def execBenchAutoRetention (b : Fin 16) (s : State) : Out :=
  act s (on (benchMode s b.val = 1 ∧ benchState s b.val = 0 ∧ (benchRest s b.val = 1 ∨ benchRest s b.val = 2))
    (setBenchState b.val (benchRest s b.val)))

/-- The access touches bench b. -/
def BenchAccess.touches (x : BenchAccess) (b : Nat) : Bool := x.off / 0x40000 == b || (x.off + x.len - 1) / 0x40000 == b

/-- The bench reaches ON; the accesses that waited arrive again in their order, and those that need wait for no bench and no earlier
access of their master are served (R25, R318). -/
def benchWake (b : Nat) (s : State) : State :=
  each s.ben.held benchArrive (setBenchState b 0 { s with ben := { s.ben with held := [], last := Store.set 0 s.ben.last b s.osc } })

/-- A bench leaves OFF for the state that R317 gives it; its idle time starts. -/
def leaveOff (b : Nat) (s : State) : State :=
  let s1 : State := { s with ben := { s.ben with last := Store.set 0 s.ben.last b s.osc } }
  setBenchState b (benchRest s1 b) s1

/-- `BENCH_WAKE`: a bench that an access wakes, that R317 gives ON, or whose mode is no longer OFF. -/
def execBenchWake (b : Fin 16) (s : State) : Out :=
  act s fun s =>
    if benchState s b.val = 3 then on (benchMode s b.val ≠ 2) (leaveOff b.val) s
    else on ((benchState s b.val ≠ 0 ∧ benchRest s b.val = 0) ∨ s.ben.held.any (fun x => x.touches b.val) = true) (benchWake b.val) s

/-- The accesses of master m that wait for a bench complete before a later access of that master (R25, R318). -/
def settleHeld (m : Nat) (s : State) : State :=
  each (s.ben.held.filter (fun x => x.master == m)) (fun x s => if meetsState s x 3 then refuseAccess x s else serveAccess x s)
    { s with ben := { s.ben with held := s.ben.held.filter (fun x => x.master != m) } }

/-- A byte range given by bench offset and length meets bench b. -/
def meetsBench (b off len : Nat) : Bool := off < (b + 1) * 0x40000 && b * 0x40000 < off + len

/-- Why a bench may not be switched OFF (R319). The templates of a Stitcher are the whole area that its TIDX reaches. -/
def offRefused (s : State) (b : Nat) : Bool :=
  b ≤ 1 ||
  (upTo 48).any (fun c => s.rd .TACK_RING_CFG_EN 0 c == 1 && meetsBench b (ringOffset s c) (ringSize s c)) ||
  (upTo 12).any (fun q => s.rd .CTRL_ENABLE q (Page.code .stitch) == 1 &&
    (meetsBench b (s.rd .STITCH_PROG_BASE_BASE q / 8 * 8) (8 * s.rd .STITCH_PROG_LEN_LEN q) ||
     meetsBench b (s.rd .STITCH_TPL_BASE_BASE q / 32 * 32) (32 * 2 ^ 14))) ||
  (s.ben.bist == b && 1 ≤ bistPhase s && bistPhase s ≤ 5) || spareBench s == b

/-- A new mode for one bench. -/
def setBenchMode (m b mode : Nat) (s : State) : State :=
  if mode = 2 ∧ benchMode s b ≠ 2 then
    if offRefused s b then actionErr .bench 0 errPrepareFailed m s
    else setBenchState b 3 (wipeBench b (s.wr .BENCH_BPWR_CFG_MODE 2 0 0 b))
  else s.wr .BENCH_BPWR_CFG_MODE mode 0 0 b

/-- A write of BPWR_CFG. -/
def writeBpwr (m v : Nat) (s : State) : State := each (upTo 16) (fun b => setBenchMode m b (bits v (2 * b + 1) (2 * b))) s

/-- `BENCH_MODE_WRITE`. -/
def execBenchModeWrite (m : Master) (v : Word) (s : State) : Out :=
  act s (gateBy (benchWriter m.val) .bench 0 0x40 m.val (writeBpwr m.val v.toNat))

/-- Every bench follows R317 at a change of power state or of the thermal limit; a bench ON under AUTO keeps its own time. -/
def restBenches (s : State) : State :=
  each (upTo 16) (fun b s => if benchState s b = 3 ∨ benchRest s b = 3 then s
    else if benchRest s b = 0 ∧ s.rd .POWER_STATUS_DSTATE < 2 then s
    else if benchState s b = 0 ∧ s.rd .POWER_STATUS_DSTATE < 2 then s
    else setBenchState b (benchRest s b) s) s

/-! ### BIST and replacement (R320–R324) -/

/-- A test starts, or is refused (R320). -/
def bistStart (m b : Nat) (s : State) : State :=
  let lo := s.rd .BENCH_BIST_RANGE_FIRST
  let hi := s.rd .BENCH_BIST_RANGE_LAST
  if s.rd .BENCH_STATUS_SPARE_FREE = 0 ∨ s.rd .BENCH_STATUS_BIST_BUSY = 1 then actionErr .bench 0 errSpareInUse m s
  else if 16 ≤ b ∨ hi < lo ∨ benchState s b = 3 ∨ 2 ≤ benchHealth s b then actionErr .bench 0 errPrepareFailed m s
  else
    let s1 := setBenchState b 0 { s with ben := { s.ben with bist := b, first := lo, stop := hi, aborted := false } }
    (((((((setBistPhase 1 s1).wr .BENCH_STATUS_BIST_BUSY 1).wr .BENCH_STATUS_SPARE_FREE 0).wr .BENCH_BIST_STAT_PASS 0).wr
      .BENCH_BIST_STAT_FAIL 0).wr .BENCH_BIST_STAT_FAIL_WORDS 0).wr .BENCH_BIST_PTR_OFFSET (4096 * lo))

/-- A replacement of bench b begins (R324): the copy of the whole bench. -/
def startReplace (b : Nat) (s : State) : State :=
  ((((setBistPhase 4 { s with ben := { s.ben with bist := b } }).wr .BENCH_STATUS_BIST_BUSY 1).wr .BENCH_STATUS_SPARE_FREE 0).wr
    .BENCH_STATUS_REPLACING 1).wr .BENCH_BIST_PTR_OFFSET 0

/-- A replacement is asked for, or is refused. That of a bench that has failed waits for the RESTORE of an ended test of another (R326). -/
def benchReplace (m b : Nat) (s : State) : State :=
  if 16 ≤ b then actionErr .bench 0 errPrepareFailed m s
  else if bistPhase s = 3 ∧ s.ben.aborted = true ∧ s.ben.bist ≠ b ∧ benchHealth s b = 1 then
    { s with ben := { s.ben with next := some (s.ben.next.getD b) } }
  else if spareTaken s b ∨ bistPhase s = 4 ∨ (1 ≤ bistPhase s ∧ bistPhase s ≤ 3 ∧ s.ben.bist ≠ b) then
    actionErr .bench 0 errSpareInUse m s
  else if benchState s b = 3 ∨ 2 ≤ benchHealth s b then actionErr .bench 0 errPrepareFailed m s
  else setBenchState b 0 (startReplace b s)

/-- A write of BIST_CTL: REPLACE is for master 2 only. -/
def writeBistCtl (m v : Nat) (s : State) : State :=
  if bit v 2 = 1 ∧ m ≠ 2 then recordErr .bench 0 errOwnerDenied m true (0x70 / 4) s
  else
    let s1 := (s.wr .BENCH_BIST_CTL_AUTO_REPLACE (bit v 3)).wr .BENCH_BIST_CTL_BENCH (bits v 8 4)
    let s2 := if bit v 0 = 1 then bistStart m (bits v 8 4) s1 else s1
    let s3 := if bit v 1 = 1 then endTest s2 else s2
    if bit v 2 = 1 then benchReplace m (bits v 8 4) s3 else s3

/-- A command of BIST_CTL. -/
def bistCmd (m v : Nat) (s : State) : Out := act s (gateBy (benchWriter m) .bench 0 0x70 m (writeBistCtl m v))

/-- `BIST_START`: a write of BIST_CTL with START = 1, BENCH and AUTO_REPLACE. -/
def execBistStart (m : Master) (b : Fin 32) (auto : Bool) (s : State) : Out :=
  bistCmd m.val (16 * b.val + (if auto then 8 else 0) + 1) s

/-- `BIST_ABORT`. -/
def execBistAbort (m : Master) (s : State) : Out :=
  bistCmd m.val (16 * s.rd .BENCH_BIST_CTL_BENCH + 8 * s.rd .BENCH_BIST_CTL_AUTO_REPLACE + 2) s

/-- `BENCH_REPLACE`. -/
def execBenchReplace (m : Master) (b : Fin 32) (s : State) : Out :=
  bistCmd m.val (16 * b.val + 8 * s.rd .BENCH_BIST_CTL_AUTO_REPLACE + 4) s

/-- `BIST_COPY_DONE`: every word of the range has been read, and the range is redirected. -/
def execBistCopyDone (s : State) : Out :=
  act s (on (bistPhase s = 1) fun s =>
    let base := s.ben.bist * 0x40000
    (setBistPhase 2 (benchSweep (base + 4096 * s.ben.first) (base + 4096 * (s.ben.stop + 1)) s)).wr .BENCH_BIST_PTR_OFFSET
      (4096 * (s.ben.stop + 1)))

/-- March C- ends: `fails` are the bench offsets of the failing words (R322). -/
def testDone (fails : List Nat) (s : State) : State :=
  match fails with
  | [] => (setBistPhase 3 s).wr .BENCH_BIST_PTR_OFFSET (4096 * s.ben.first)
  | f :: _ =>
    let b := s.ben.bist
    let s1 := (((((setBistPhase 5 s).wr .BENCH_STATUS_BIST_BUSY 0).wr .BENCH_BIST_STAT_FAIL 1).wr .BENCH_BIST_STAT_FAIL_WORDS
      (min 255 fails.length)).wr .BENCH_BIST_FAIL_ADDR_OFFSET f)
    let s2 := benchFails b (raise .bench 0 3 s1)
    if s.rd .BENCH_BIST_CTL_AUTO_REPLACE = 1 then startReplace b s2 else s2

/-- `BIST_TEST_DONE`. -/
def execBistTestDone (fails : List (BitVec 22)) (s : State) : Out :=
  act s (on (bistPhase s = 2) (testDone (fails.map BitVec.toNat)))

/-- The bench of a test or replacement takes its state of R317 below D1 (R326). -/
def letRest (b : Nat) (s : State) : State := if 2 ≤ s.rd .POWER_STATUS_DSTATE then setBenchState b (benchRest s b) s else s

/-- The redirect ends: PASS and BIST_DONE, unless the test was aborted; a replacement that waits starts (R326). -/
def restoreDone (s : State) : State :=
  let s1 := letRest s.ben.bist (((setBistPhase 0 s).wr .BENCH_STATUS_BIST_BUSY 0).wr .BENCH_STATUS_SPARE_FREE 1)
  let s2 := if s.ben.aborted then s1 else raise .bench 0 3 (s1.wr .BENCH_BIST_STAT_PASS 1)
  match s.ben.next with
  | some b => setBenchState b 0 (startReplace b { s2 with ben := { s2.ben with next := none } })
  | none => s2

/-- `BIST_RESTORE_DONE`. -/
def execBistRestoreDone (s : State) : Out := act s (on (bistPhase s = 3) restoreDone)

/-- Every access to the bench goes to the spare for good; words that could not be read are copied poisoned. -/
def replaceDone (bad : List Nat) (s : State) : State :=
  let b := s.ben.bist
  let s1 := each bad (fun o s => s.setPoison (benchBase + b * 0x40000 + o % 0x40000) true)
    (benchSweep (b * 0x40000) ((b + 1) * 0x40000) s)
  letRest b (raise .bench 0 4 (((((setBistPhase 0 s1).wr .BENCH_STATUS_BIST_BUSY 0).wr .BENCH_STATUS_REPLACING 0).wr
    .BENCH_BENCH_HEALTH_HEALTH 2 0 0 b).wr .BENCH_STATUS_SPARE_COVER b))

/-- `BENCH_REPLACE_DONE`: `bad` are the offsets of words that could not be read. -/
def execBenchReplaceDone (bad : List (BitVec 18)) (s : State) : Out :=
  act s (on (bistPhase s = 4) (replaceDone (bad.map BitVec.toNat)))

/-! ### Thermal limit (R317, R404) -/

/-- The thermal limit sets or clears: THERMAL_DEEP, and benches in RETENTION move to DEEP. -/
def benchThermal (limit : Bool) (s : State) : State :=
  if limit then
    let s1 := each (upTo 16) (fun b s => if benchState s b = 1 then setBenchState b 2 s else s) (s.wr .BENCH_STATUS_THERMAL_DEEP 1)
    if s.rd .BENCH_STATUS_THERMAL_DEEP = 0 then raise .bench 0 7 s1 else s1
  else s.wr .BENCH_STATUS_THERMAL_DEEP 0

end Sys2Proof.Machine
end

