-- ==== Sys2Proof/Machine/Calibration.lean ====
section
/-! DEFINITION. Burnish's calibration mathematics (R224, R228–R231): from results of the sense ADC to the parameters of a core and to the
lines of the match and the monitor. Exact rational arithmetic; DAC LSB unless stated. -/

namespace Sys2Proof.Machine

/-! ### Samples (R228) -/

/-- A core's LSB in volts. -/
def lsbCore : Rat := 20 / (2 ^ 20 : Nat)
/-- A step of the sense ADC in volts (R237). -/
def senseStep : Rat := 78125 / (10 ^ 9 : Nat)

/-- The mean of a list, 0 for none. -/
def mean (l : List Rat) : Rat := l.foldl (· + ·) 0 / (l.length : Rat)

/-- A result of the sense ADC less its dither, which is subtracted while DITHER_EN = 1. -/
def senseResult (dithered : Bool) (raw : BitVec 18) (dither : BitVec 16) : Rat :=
  (signed 18 raw.toNat : Rat) - (if dithered then (signed 16 dither.toNat : Rat) / (2 ^ 16 : Nat) else 0)

/-- A reference frame: the means of its VREF and of its AGND results. -/
def frameOf (dithered : Bool) (ref agnd : List (BitVec 18 × BitVec 16)) : RefFrame :=
  let m (l : List (BitVec 18 × BitVec 16)) : Rat := mean (l.map (fun p => senseResult dithered p.1 p.2))
  ⟨m ref, m agnd⟩

/-- What a part whose converter has no error would read, which stands where no frame has been taken yet (DESIGN CHOICE, log 138). -/
def idealFrame (vref : Rat) : RefFrame := ⟨vref / senseStep, 0⟩

/-- The deviation of a frame's reading of V_REF from the factory value, as a fraction (R240). -/
def frameDeviation (vref : Rat) (f : RefFrame) : Rat := (f.ref - f.agnd) * senseStep / vref - 1

/-- u of R228: a result in DAC LSB, by a frame. -/
def senseUnits (vref : Rat) (f : RefFrame) (r : Rat) : Rat := (r - f.agnd) * vref / ((f.ref - f.agnd) * lsbCore)

/-- A sample as the fit takes it, with the frame that was the latest when it was taken. -/
def sensePoint (vref : Rat) (dithered : Bool) (frames : List RefFrame) (a : SenseSample) : SensePoint :=
  let f := frames.getD a.age.toNat (idealFrame vref)
  ⟨a.x.toNat, a.prev.toNat, senseUnits vref f (senseResult dithered a.raw a.dither) - (a.x.toNat : Rat)⟩

/-! ### Least squares (R229) -/

/-- v vᵀ added to a matrix. -/
def addOuter (m : List (List Rat)) (v : List Rat) : List (List Rat) :=
  (m.zip v).map (fun p => (p.1.zip v).map (fun q => q.1 + p.2 * q.2))

/-- The square matrix of zeros. -/
def zeroMatrix (n : Nat) : List (List Rat) := List.replicate n (List.replicate n 0)

/-- The normal equations of rows a with right sides y, as the matrix of all products of (a, y). -/
def normalEquations (n : Nat) (rows : List (List Rat × Rat)) : List (List Rat) :=
  rows.foldl (fun m r => addOuter m (r.1 ++ [r.2])) (zeroMatrix (n + 1))

/-- Eliminate unknown k: its pivot row is scaled and cleared from every other, and the inverse is kept in place. An unknown whose pivot is 0
is not determined by the samples and is left out. -/
def eliminate (m : List (List Rat)) (k : Nat) : List (List Rat) :=
  let row := m.getD k []
  let d := row.getD k 0
  if d = 0 then m
  else
    let piv := row.map (· / d)
    m.zipIdx.map (fun p =>
      if p.2 = k then piv.set k (1 / d)
      else
        let b := p.1.getD k 0
        ((p.1.zip piv).map (fun q => q.1 - b * q.2)).set k (-b / d))

/-- The solved system: the inverse of N, the solution in its last column and the sum of squared residuals in its corner. -/
def solveNormal (n : Nat) (rows : List (List Rat × Rat)) : List (List Rat) := (upTo n).foldl eliminate (normalEquations n rows)

/-- Entry of a matrix. -/
def entry (m : List (List Rat)) (i j : Nat) : Rat := (m.getD i []).getD j 0

/-- The line y = a + b × x that fits points (x, y): (a, b). -/
def fitLine (pts : List (Rat × Rat)) : Rat × Rat :=
  let m := solveNormal 2 (pts.map (fun p => ([1, p.1], p.2)))
  (entry m 0 2, entry m 1 2)

/-! ### The core model (R229) -/

/-- The coefficients of the 80 unknowns at a sample: 63 elements (element i is on for m ≥ i), 14 ladder bits, γ, ω and ρ. -/
def coreRow (x prev : Nat) : List Rat :=
  (upTo 63).map (fun i => if i < x / 2 ^ 14 then 1 else 0) ++ (upTo 14).map (fun j => (bit x j : Rat)) ++
  [(x : Rat), 1, (x : Rat) - (prev : Rat)]

/-- Element i + 1 is observed: at least 256 samples on either side of its boundary. -/
def elementObserved (pts : List SensePoint) (i : Nat) : Bool :=
  decide (256 ≤ (pts.filter (fun p => p.x / 2 ^ 14 == i)).length) && decide (256 ≤ (pts.filter (fun p => p.x / 2 ^ 14 == i + 1)).length)

/-- Ladder bit j is observed. -/
def ladderObserved (pts : List SensePoint) (j : Nat) : Bool :=
  decide (256 ≤ (pts.filter (fun p => bit p.x j == 1)).length) && decide (256 ≤ (pts.filter (fun p => bit p.x j == 0)).length)

/-- A solved parameter: its number (0 to 62 elements, 63 to 76 ladder bits, 77 γ, 78 ω, 79 ρ), its estimate, and whether its standard
error is at or below 0.1 LSB. -/
structure Estimate where
  idx : Nat
  val : Rat
  sharp : Bool
deriving DecidableEq, Repr

/-- The elements observed. -/
def observedElements (pts : List SensePoint) : List Nat := (upTo 63).filter (elementObserved pts)
/-- The ladder bits observed, as parameter numbers. -/
def observedLadder (pts : List SensePoint) : List Nat := (rangeFrom 63 14).filter (fun p => ladderObserved pts (p - 63))

/-- A row over the observed elements but the last, which Σ ε = 0 gives as minus the sum of the others, and the other parameters. -/
def reducedRow (els others : List Nat) (row : List Rat) : List Rat :=
  let last := row.getD (els.getLastD 0) 0
  els.dropLast.map (fun i => row.getD i 0 - last) ++ others.map (fun i => row.getD i 0)

/-- Square of the weight of a standard error in LSB: γ counts at 2^19 codes, as b of R224 does (DESIGN CHOICE, log 138). -/
def errorWeight (idx : Nat) : Rat := if idx = 77 then (2 ^ 38 : Nat) else 1

/-- Fit the core model to a window: the observed elements and ladder bits, γ, ω and ρ, by least squares under Σ ε = 0; what is not observed
is fixed at 0. The variance of a sample is the mean squared residual over the degrees of freedom left; a parameter that the samples do not
determine is not sharp (DESIGN CHOICE, log 138). -/
def solveCore (pts : List SensePoint) : List Estimate :=
  let els := observedElements pts
  let others := observedLadder pts ++ [77, 78, 79]
  let n := els.length - 1 + others.length
  let m := solveNormal n (pts.map (fun p => (reducedRow els others (coreRow p.x p.prev), p.err)))
  let found := ((upTo n).filter (fun k => decide (entry m k k ≠ 0))).length
  let free := pts.length - found
  let sharpAt (idx : Nat) (c : Rat) : Bool :=
    decide (free ≠ 0) && decide (entry m n n * c * errorWeight idx * 100 ≤ (free : Rat))
  let est (k idx : Nat) : Estimate := ⟨idx, entry m k n, decide (entry m k k ≠ 0) && sharpAt idx (entry m k k)⟩
  let head := els.dropLast.zipIdx.map (fun p => est p.2 p.1)
  let tail := others.zipIdx.map (fun p => est (els.length - 1 + p.2) p.1)
  let ks := upTo (els.length - 1)
  let lastOne := els.getLast?.toList.map (fun i =>
    (⟨i, -(head.foldl (fun a e => a + e.val) 0),
      ks.all (fun k => decide (entry m k k ≠ 0)) && sharpAt i (ks.foldl (fun a k => ks.foldl (fun a l => a + entry m k l) a) 0)⟩ : Estimate))
  head ++ lastOne ++ tail

/-- The parameters that a calibration judges and applies: ρ is solved but never applied. -/
def applicable (es : List Estimate) : List Estimate := es.filter (fun e => decide (e.idx < 79))

/-- The window is extended: an observed parameter has a standard error above 0.1 LSB. -/
def needsExtension (es : List Estimate) : Bool := (applicable es).any (fun e => !e.sharp)

/-- The value of parameter i, 0 where it was not solved. -/
def paramOf (es : List Estimate) (i : Nat) : Rat := ((es.find? (fun e => e.idx == i)).map (fun e => e.val)).getD 0

/-- The 80 parameters as a list. -/
def paramList (es : List Estimate) : List Rat := (upTo 80).map (paramOf es)

/-- What a core with parameters ps gives for a code (R229). -/
def modelled (ps : List Rat) (x prev : Nat) : Rat :=
  let row := coreRow x prev
  let part := ((row.take 77).zip (ps.take 77)).foldl (fun a p => a + p.1 * p.2) 0
  (1 + ps.getD 77 0) * ((x : Rat) + part) + ps.getD 78 0 + ps.getD 79 0 * row.getD 79 0

/-! ### Trims and limits (R230, R231) -/

/-- The trim step of parameter i: 1/32 LSB, 1/64 LSB, 0.05 ppm, 0.25 µV. -/
def trimStep (i : Nat) : Rat :=
  if i < 63 then 1 / 32 else if i < 77 then 1 / 64 else if i = 77 then 5 / (10 ^ 8 : Nat) else 1 / (4 * 10 ^ 6 : Nat) / lsbCore

/-- A trim of `w` bits less an estimate, rounded to its step; none where the result is outside the field. -/
def trimLess (w v : Nat) (steps : Rat) : Option Nat :=
  let x := roundQ ((signed w v : Rat) - steps)
  if x < -(2 ^ (w - 1)) ∨ 2 ^ (w - 1) ≤ x then none else some (unsigned w x)

/-- Apply one estimate to trims; gain and offset stand while the reference is bad (R240). -/
def applyEstimate (refOk : Bool) (x : CoreTrim) (e : Estimate) : Option CoreTrim :=
  let i := e.idx
  let steps := e.val / trimStep i
  if i < 63 then (trimLess 8 (Store.get 0 x.elems i) steps).map (fun v => { x with elems := Store.set 0 x.elems i v })
  else if i < 77 then
    (trimLess 8 (Store.get 0 x.ladder (i - 63)) steps).map (fun v => { x with ladder := Store.set 0 x.ladder (i - 63) v })
  else if refOk = false then some x
  else if i = 77 then (trimLess 16 x.gain steps).map (fun v => { x with gain := v })
  else (trimLess 16 x.offset steps).map (fun v => { x with offset := v })

/-- Apply the sharp estimates; none if a trim would leave its range. -/
def applySolution (refOk : Bool) (x : CoreTrim) : List Estimate → Option CoreTrim
  | [] => some x
  | e :: es => (if e.sharp then applyEstimate refOk x e else some x).bind (fun y => applySolution refOk y es)

/-- The limits of VERIFY: 0.25 LSB, 0.125 LSB, 10 ppm, 10 µV. -/
def verifyLimit (i : Nat) : Rat :=
  if i < 63 then 1 / 4 else if i < 77 then 1 / 8 else if i = 77 then 1 / (10 ^ 5 : Nat) else 1 / (10 ^ 5 : Nat) / lsbCore

/-- VERIFY passes. -/
def verifyPasses (es : List Estimate) : Bool :=
  (applicable es).all (fun e => decide (-verifyLimit e.idx ≤ e.val) && decide (e.val ≤ verifyLimit e.idx))

/-- The largest observed cumulative element error in 1/16 LSB, saturating. -/
def inlEstimate (es : List Estimate) : Nat :=
  let run := (upTo 63).foldl (fun (a : Rat × Rat) i => let c := a.1 + paramOf es i; (c, max a.2 (max c (-c)))) ((0, 0) : Rat × Rat)
  min 255 (roundQ (run.2 * 16)).toNat

/-! ### Match, stage and monitor (R224, R230, R235) -/

/-- The line that the match window fits: a and b × 2^19, over paired points of the spare's and the own core's tap. -/
def matchFit (pts : List (SensePoint × SensePoint)) : Rat × Rat :=
  let f := fitLine (pts.map (fun p => ((p.1.x : Rat) - (2 ^ 19 : Nat), p.1.err - p.2.err)))
  (f.1, f.2 * (2 ^ 19 : Nat))

/-- Stage gain and offset in trim steps: the line of the output tap over what the spare's model gives. -/
def stageFit (ps : List Rat) (pts : List SensePoint) : Rat × Rat :=
  let f := fitLine (pts.map (fun p => let y := modelled ps p.x p.prev; (y, (p.x : Rat) + p.err - y)))
  (f.2 / trimStep 77, f.1 / trimStep 78)

/-- A stage trim less its estimate, rounded, moved by at most `lim` steps and kept in its field. -/
def stageLess (v lim : Nat) (steps : Rat) : Nat :=
  let old := signed 16 v
  unsigned 16 (clampI (-(2 ^ 15)) (2 ^ 15 - 1) (clampI (old - lim) (old + lim) (roundQ ((old : Rat) - steps))))

/-- Offset in 1/16 LSB and gain in 0.1 ppm of an output tap that is only monitored. -/
def monitorFit (pts : List SensePoint) : Rat × Rat :=
  let f := fitLine (pts.map (fun p => ((p.x : Rat), p.err)))
  (f.1 * 16, f.2 * (10 ^ 7 : Nat))

/-- A measured number in a signed field of 16 bits; the manual states no result for one outside it, which shows a free value. -/
def field16 (s : State) (v : Rat) : Nat :=
  let x := roundQ v
  if x < -(2 ^ 15) ∨ 2 ^ 15 ≤ x then (Config.freeValue s.free).toNat % 2 ^ 16 else unsigned 16 x

/-- Write a measured number to a field. -/
def writeField16 (r : Reg) (v : Rat) (inst idx : Nat) (s : State) : State :=
  { s with free := s.free + 1 }.wr r (field16 s v) inst idx

end Sys2Proof.Machine
end

