-- ==== Sys2Proof/Machine/Visits.lean ====
section
/-! DEFINITION. A tier's cores, trims and visit (R220–R227, R230, R236): what the output channels and the clocks need of Burnish, because a
change of theirs can cancel a visit. -/

namespace Sys2Proof.Machine

/-! ### Cores (R220–R222) -/

/-- Own core of position p of tier t. -/
def ownCore (s : State) (t p : Nat) : Nat := s.rd .SPARE_CORE_MAP t 0 p
/-- Role of core k: 0 LIVE, 1 SPARE, 2 CAL, 3 RETIRED. -/
def coreRole (s : State) (t k : Nat) : Nat := s.rd .SPARE_CORE_STATE_ROLE t 0 k
/-- The core in SPARE, 15 for none. -/
def spareCore (s : State) (t : Nat) : Nat := s.rd .SPARE_STATUS_SPARE_CORE t
/-- The core in CAL, 15 for none. -/
def calCore (s : State) (t : Nat) : Nat := s.rd .SPARE_STATUS_CAL_CORE t
/-- Position visited, 15 for none. -/
def visitPos (s : State) (t : Nat) : Nat := s.rd .SPARE_STATUS_VISIT_POS t
/-- Phase of the tier (R226): 1 SHADOW, 2 MATCH, 3 handover, 4 MEASURE, 5 SOLVE, 6 VERIFY; 8 paused, 9 monitoring. -/
def spPhase (s : State) (t : Nat) : Nat := s.rd .SPARE_STATUS_PHASE t

def setOwnCore (t p k : Nat) (s : State) : State := s.wr .SPARE_CORE_MAP k t 0 p
def setRole (t k r : Nat) (s : State) : State := s.wr .SPARE_CORE_STATE_ROLE r t 0 k
def setPhase (t v : Nat) (s : State) : State := s.wr .SPARE_STATUS_PHASE v t

/-! ### Trims (R230) -/

/-- The trims in force on core k. -/
def coreTrim (s : State) (t k : Nat) : CoreTrim :=
  { elems := (upTo 63).foldl (fun m i => Store.set 0 m i (s.rd .SPARE_ELEM_TRIM_E t k i)) []
    ladder := (upTo 14).foldl (fun m i => Store.set 0 m i (s.rd .SPARE_LADDER_TRIM_L t k i)) []
    gain := s.rd .SPARE_GO_TRIM_GAIN t k, offset := s.rd .SPARE_GO_TRIM_OFFSET t k }

/-- Put trims in force on core k. -/
def applyTrim (t k : Nat) (x : CoreTrim) (s : State) : State :=
  let s1 := each (upTo 63) (fun i s => s.wr .SPARE_ELEM_TRIM_E (Store.get 0 x.elems i) t k i) s
  let s2 := each (upTo 14) (fun i s => s.wr .SPARE_LADDER_TRIM_L (Store.get 0 x.ladder i) t k i) s1
  (s2.wr .SPARE_GO_TRIM_GAIN x.gain t k).wr .SPARE_GO_TRIM_OFFSET x.offset t k

/-- Last-good trims of core k. -/
def lastGood (s : State) (t k : Nat) : CoreTrim := Store.get {} (s.tier t).good k

/-- Restore core k to its last-good trims. -/
def restoreTrim (t k : Nat) (s : State) : State := applyTrim t k (lastGood s t k) s

/-! ### Visits (R223–R227) -/

/-- A capture runs on the tier. -/
def capturing (s : State) (t : Nat) : Bool := s.rd .BURNISH_STATUS_CAPTURING 0 0 t == 1

/-- Burnish acts: after READY, enabled, in D0 (R222, R235). -/
def burnishActs (s : State) : Bool :=
  s.rd .SYS_STATUS_READY == 1 && s.rd .CTRL_ENABLE 0 (Page.code .burnish) == 1 && s.rd .POWER_STATUS_DSTATE == 0

/-- The tier has a core in SPARE that covers nothing, and no failover waits. -/
def spareFree (s : State) (t : Nat) : Bool :=
  spareCore s t != 15 && calCore s t == 15 && (s.tier t).failovers.isEmpty && (s.tier t).abandonFrom.isNone

/-- The tier has a free spare and no visit. -/
def tierIdle (s : State) (t : Nat) : Bool := spareFree s t && visitPos s t == 15

/-- A visit to position p is due. -/
def startVisit (t p : Nat) (s : State) : State :=
  (((s.setTier t { s.tier t with nextPos := (p + 1) % 12, retried := false, decided := none, extended := false }).wr
    .SPARE_STATUS_VISIT_POS p t).wr .BURNISH_STATUS_ROTATING 1 0 0 t)

/-- A requested visit starts once the tier is idle and Burnish acts (R227). -/
def takeVisitReq (t : Nat) (s : State) : State :=
  match (s.tier t).visitReq with
  | some p => if tierIdle s t && burnishActs s then startVisit t p (s.setTier t { s.tier t with visitReq := none }) else s
  | none => s

/-- The visit ends: by RELEASE, a cancellation or a failover. A spare that was being recalibrated is back on its last-good trims. -/
def endVisit (t : Nat) (s : State) : State :=
  let s1 := if (s.tier t).offline then restoreTrim t (spareCore s t) s else s
  ((setPhase t 0 (s1.setTier t { s1.tier t with since := s.osc, decided := none, paused := none, extended := false, offline := false,
                                                retried := false, hostCal := false, window := [],
                                                frames := (s1.tier t).frames.take 1 })).wr .SPARE_STATUS_VISIT_POS 15 t).wr
    .BURNISH_STATUS_ROTATING 0 0 0 t

/-- Cancel a visit before its handover (R225). -/
def cancelVisit (t : Nat) (s : State) : State := takeVisitReq t (endVisit t s)

/-- The tier is between the start of shadowing and the handover. -/
def matching (s : State) (t : Nat) : Bool := spPhase s t == 1 || spPhase s t == 2 || spPhase s t == 3

/-- A condition of R225 has arisen on channel c: a visit of it that has not come to its handover is cancelled. -/
def disturb (c : Nat) (s : State) : State :=
  if matching s (c / 12) && visitPos s (c / 12) == c % 12 then cancelVisit (c / 12) s else s

/-! ### Windows (R223, R226, R228, R236) -/

/-- Ticks of a window of 2^n sense samples on the quad of channel c: at most one sample per 500 ns, and one per update edge (R228). -/
def windowTicks (s : State) (c n : Nat) : Nat := 2 ^ n * max 200 (2 ^ 32 / s.qn (quadOf c))

/-- The exponent of a window, or its default where the field is out of range. -/
def windowLog (v lo hi dflt : Nat) : Nat := if lo ≤ v ∧ v ≤ hi then v else dflt

/-- Ticks that the present window of the tier lasts, by its phase; an extended one lasts twice as long (R229). -/
def windowNeed (s : State) (t : Nat) : Nat :=
  let n := match spPhase s t with
    | 2 => windowLog (s.rd .BURNISH_WINDOWS_MATCH_LOG2) 12 20 16
    | 6 => windowLog (s.rd .BURNISH_WINDOWS_VERIFY_LOG2) 14 22 18
    | _ => windowLog (s.rd .BURNISH_WINDOWS_CAL_LOG2) 16 24 20
  windowTicks s (12 * t + visitPos s t) n * (if (s.tier t).extended then 2 else 1)

/-- The window has run its length, without the time it was paused. -/
def windowOver (s : State) (t : Nat) : Bool :=
  decide (windowNeed s t ≤ (s.tier t).windowDone + (s.osc - (s.tier t).windowFrom))

/-- A window of phase `ph` begins; paused at once while a capture runs or below D0 (R235, R236). -/
def enterWindow (t ph : Nat) (s : State) : State :=
  let s1 := s.setTier t { s.tier t with windowFrom := s.osc, windowDone := 0, window := [] }
  if capturing s t = true ∨ s.rd .POWER_STATUS_DSTATE ≠ 0 then setPhase t 8 (s1.setTier t { s1.tier t with paused := some (ph, s.osc) })
  else setPhase t ph s1

/-- A measuring or verifying window pauses and keeps what it has accumulated (R236). -/
def pauseWindow (t : Nat) (s : State) : State :=
  let ph := spPhase s t
  let x := s.tier t
  if ph = 4 ∨ ph = 6 then
    setPhase t 8 (s.setTier t { x with paused := some (ph, s.osc), windowDone := x.windowDone + (s.osc - x.windowFrom) })
  else s

/-- A paused window resumes; after a pause of more than 10 s it restarts (R236). -/
def resumeBurnish (t : Nat) (s : State) : State :=
  if capturing s t = true ∨ s.rd .POWER_STATUS_DSTATE ≠ 0 then s
  else match (s.tier t).paused with
    | some (ph, since) =>
      let s1 := setPhase t ph (s.setTier t { s.tier t with paused := none, windowFrom := s.osc })
      if since + 10 * Config.ticksPerSecond < s.osc then
        raise .burnish 0 6 (s1.setTier t { s1.tier t with windowDone := 0, window := [], extended := false })
      else s1
    | none => s

end Sys2Proof.Machine
end

