-- ==== Sys2Proof/Machine/Clocks.lean ====
section
/-! DEFINITION. Quad sample clocks and the spare synthesizer (R52–R60). QCLK event bits: 0 LOCK_LOST, 1 ALIGNED,
2 RATE_APPLIED, 3 REHOMED, 4 RESUMED, 5 GANG_LOST. Page instance 12 is the spare synthesizer. -/

namespace Sys2Proof.Machine

/-- The synthesizer that serves a quad: its own, or the spare while ON_SPARE = 1. -/
def serving (s : State) (q : Nat) : Nat := if s.rd .QCLK_QCLK_STATUS_ON_SPARE q = 1 then 12 else q

/-- The quad that the spare synthesizer covers, if any (R59). -/
def spareCovers (s : State) (q : Nat) : Bool :=
  s.rd .QCLK_COVER_VALID 12 == 1 && s.rd .QCLK_COVER_QUAD 12 == q

/-- Write ORIGIN: a count truncated to 1/256 tick (R53, R54). -/
def setOrigin (q : Nat) (sub : Nat) (s : State) : State :=
  (s.wr64 .QCLK_ORIGIN_LO_ORIGIN_LO .QCLK_ORIGIN_HI_ORIGIN_HI (sub / 256) q).wr .QCLK_ORIGIN_FRAC_FRAC (sub % 256) q

/-- ORIGIN in 1/256 ticks. -/
def originSub (s : State) (q : Nat) : Nat :=
  s.rd64 .QCLK_ORIGIN_LO_ORIGIN_LO .QCLK_ORIGIN_HI_ORIGIN_HI q * 256 + s.rd .QCLK_ORIGIN_FRAC_FRAC q

/-- SPEED frames that fell due while the clock was not running are kept as late commands (R68). -/
def lateTally (s : State) (c : QuadClock) : List SpeedCmd :=
  c.tally.map (fun t => { t with late := t.late || decide (t.due ≤ (s.osc : Rat)) })

/-- Gate a quad clock off (R55): LOCKED of its page clears and STOPPED is set; the timeline is kept. Visits of its channels that have not
come to their handover are cancelled (R225). -/
def stopClock (q : Nat) (s : State) : State :=
  let s1 := s.setClock q { s.clock q with running := false, resuming := false, dark := false }
  each (chansOf q) disturb ((s1.wr .QCLK_QCLK_STATUS_LOCKED 0 q).wr .QCLK_QCLK_STATUS_STOPPED 1 q)

/-- A write of ENABLE = 0 (R58): a running quad stops at its next edge, without LOCK_LOST; one whose edges a power state suspends stops
too (R402). -/
def qclkStop (q : Nat) (s : State) : State :=
  let c := s.clock q
  let s1 := s.wr .CTRL_ENABLE 0 q (Page.code .qclk)
  if c.running ∨ c.dark then stopClock q s1 else s1.setClock q { c with resuming := false, dark := false, startDue := false }

/-- `QCLK_STOP`. -/
def execQclkStop (m : Master) (q : Quad) (s : State) : Out := cmd s .qclk q.val 4 m (qclkStop q.val)

/-- `QCLK_LOCKED` (R58, R59): the cleanup loop of a synthesizer has locked. A quad's own synthesizer that locks while the
quad runs on the spare sets the quad page's READY. -/
def execQclkLocked (y : Synth) (s : State) : Out :=
  act s fun s =>
    if y.val = 12 then on (s.rd .QCLK_COVER_VALID 12 = 1) (fun s => s.wr .QCLK_QCLK_STATUS_LOCKED 1 12) s
    else if s.rd .QCLK_QCLK_STATUS_ON_SPARE y.val = 1 then
      on ((s.clock y.val).moveBack = true) (fun s => s.wr .QCLK_QCLK_STATUS_READY 1 y.val) s
    else on ((s.clock y.val).running = true ∨ (s.clock y.val).resuming = true)
      (fun s => s.wr .QCLK_QCLK_STATUS_LOCKED 1 y.val) s

/-- The synthesizer that serves the quad is locked. -/
def servingLocked (s : State) (q : Nat) : Bool :=
  if s.rd .QCLK_QCLK_STATUS_ON_SPARE q = 1 then s.rd .QCLK_QCLK_STATUS_READY 12 == 1
  else s.rd .QCLK_QCLK_STATUS_LOCKED q == 1

/-- Index of the first edge of the timeline not earlier than the present instant, and not earlier than the next one
(R56). -/
def resumeIndex (s : State) (q : Nat) : Nat := max (s.clock q).next (s.firstEdge q s.osc)

/-- `QCLK_SETTLE_DONE` (R54). -/
def execQclkSettleDone (q : Quad) (s : State) : Out := act s fun s => s.wr .QCLK_QCLK_STATUS_SETTLING 0 q.val

/-- The quad has a clock that can lose its lock: it runs, or its edges are suspended in D1 or D2 (R57, R398). -/
def clockOn (s : State) (q : Nat) : Bool := (s.clock q).running || ((s.clock q).dark && s.rd .POWER_STATUS_DSTATE ≤ 2)

/-- The lock monitor finds a failure of synthesizer y (R55): the quads it serves stop and each raises LOCK_LOST; the spare
reports its own loss on its page. -/
def lockLost (y : Nat) (s : State) : State :=
  if y = 12 then
    each (upTo 12) (fun q => on (s.rd .QCLK_QCLK_STATUS_ON_SPARE q = 1 ∧ clockOn s q = true)
      (fun s => wake 5 (raise .qclk q 0 (stopClock q s))))
      (wake 5 <| raise .qclk 12 0 (((s.wr .QCLK_QCLK_STATUS_LOCKED 0 12).wr .QCLK_QCLK_STATUS_READY 0 12).wr
        .QCLK_QCLK_STATUS_STOPPED 1 12))
  else if s.rd .QCLK_QCLK_STATUS_ON_SPARE y = 1 then s.wr .QCLK_QCLK_STATUS_READY 0 y
  else on (clockOn s y = true) (fun s => wake 5 (raise .qclk y 0 (stopClock y s))) s

/-- `LOCK_LOST`. -/
def execLockLost (y : Synth) (s : State) : Out := act s (lockLost y.val)

/-- The assigned spare takes QCLK_N, IF_LOG2 and ORIGIN of its quad (R59). -/
def takeTimeline (q : Nat) (s : State) : State :=
  setOrigin 12 (originSub s q) ((s.wrEff .QCLK_QCLK_N_N (s.qn q) 12).wrEff .QCLK_QCLK_CFG_IF_LOG2 (s.ifLog q) 12)

/-- The timeline of quad q has changed: the spare that covers it follows (R59). Unless the quad runs on it, its READY clears until it has
locked to the new edges (DESIGN CHOICE, log 134). -/
def spareFollows (q : Nat) (s : State) : State :=
  if spareCovers s q = false then s
  else
    let s1 := takeTimeline q s
    if s.rd .QCLK_QCLK_STATUS_ON_SPARE q = 1 then s1
    else (s1.wr .QCLK_QCLK_STATUS_READY 0 12).wr .QCLK_QCLK_STATUS_LOCKED 0 12

/-- A write of COVER on the spare page (R59): refused while a quad other than the one named has USE_SPARE = 1. A cover
of VALID = 0, or of no quad, leaves the spare unassigned. A new assignment takes QCLK_N, IF_LOG2 and ORIGIN of the quad and
clears READY until the spare has locked. -/
def writeCover (m v : Nat) (s : State) : State :=
  let q := bits v 3 0
  if (upTo 12).any (fun j => j != q && s.rd .QCLK_QCLK_CFG_USE_SPARE j == 1) then
    actionErr .qclk 12 errSpareInUse m s
  else
    let s1 := (s.wr .QCLK_COVER_QUAD q 12).wr .QCLK_COVER_VALID (bit v 8) 12
    takeTimeline q (((s1.wr .QCLK_QCLK_STATUS_READY 0 12).wr .QCLK_QCLK_STATUS_LOCKED 0 12).wr .QCLK_QCLK_STATUS_STOPPED 0 12)

/-- `SPARE_COVER_ASSIGN`. -/
def execSpareCoverAssign (m : Master) (v : Word) (s : State) : Out :=
  cmd s .qclk 12 0x64 m (writeCover m.val v.toNat)

/-- `SPARE_SYNTH_READY` (R59): the assigned spare has locked to the quad's ideal edges. -/
def execSpareSynthReady (s : State) : Out :=
  act s (on (s.rd .QCLK_COVER_VALID 12 = 1) fun s =>
    (s.wr .QCLK_QCLK_STATUS_READY 1 12).wr .QCLK_QCLK_STATUS_LOCKED 1 12)

/-- A write of USE_SPARE = 1 (R59): the move waits for READY and for the quad's next edge. -/
def useSpareSet (q : Nat) (s : State) : State :=
  (s.wr .QCLK_QCLK_CFG_USE_SPARE 1 q).setClock q { s.clock q with moveBack := false }

/-- `USE_SPARE_SET`. -/
def execUseSpareSet (m : Master) (q : Quad) (s : State) : Out := cmd s .qclk q.val 0x44 m (useSpareSet q.val)

/-- `REHOMED` (R59): at an edge with the spare READY the quad moves onto it. A quad stopped by a loss of lock restarts on
the spare under R56, and firmware records it (R393). -/
def rehome (q : Nat) (s : State) : State :=
  let c := s.clock q
  let s1 := if s.rd .QCLK_QCLK_STATUS_STOPPED q = 1 then { s with sec := { s.sec with rehomed := some q } } else s
  raise .qclk q 3 ((s1.wr .QCLK_QCLK_STATUS_ON_SPARE 1 q).setClock q
    { c with resuming := c.resuming || (!c.running && s.rd .CTRL_ENABLE q (Page.code .qclk) == 1) })

/-- `REHOMED`. -/
def execRehomed (q : Quad) (s : State) : Out :=
  act s (on (s.rd .QCLK_QCLK_CFG_USE_SPARE q.val = 1 ∧ s.rd .QCLK_QCLK_STATUS_ON_SPARE q.val = 0 ∧
    spareCovers s q.val = true ∧ s.rd .QCLK_QCLK_STATUS_READY 12 = 1) (rehome q.val))

/-- A write of USE_SPARE = 0 (R59): on the spare, the own synthesizer reacquires lock and the move back is requested. -/
def useSpareClear (q : Nat) (s : State) : State :=
  let s1 := s.wr .QCLK_QCLK_CFG_USE_SPARE 0 q
  if s.rd .QCLK_QCLK_STATUS_ON_SPARE q = 1 then s1.setClock q { s.clock q with moveBack := true } else s1

/-- `USE_SPARE_CLEAR`. -/
def execUseSpareClear (m : Master) (q : Quad) (s : State) : Out := cmd s .qclk q.val 0x44 m (useSpareClear q.val)

/-- The quad is back on its own synthesizer: firmware's record of it goes (R393). -/
def rehomeBack (q : Nat) (s : State) : State :=
  let s1 := if s.sec.rehomed = some q then { s with sec := { s.sec with rehomed := none } } else s
  raise .qclk q 3 ((((s1.setClock q { s1.clock q with moveBack := false }).wr .QCLK_QCLK_STATUS_ON_SPARE 0 q).wr
    .QCLK_QCLK_STATUS_READY 0 q).wr .QCLK_QCLK_STATUS_LOCKED 1 q)

/-- `REHOME_BACK` (R59): the first edge at which the own synthesizer's READY is set. -/
def execRehomeBack (q : Quad) (s : State) : Out :=
  act s (on ((s.clock q.val).running = true ∧ (s.clock q.val).moveBack = true ∧ s.rd .QCLK_QCLK_STATUS_ON_SPARE q.val = 1 ∧
    s.rd .QCLK_QCLK_STATUS_READY q.val = 1) (rehomeBack q.val))

/-- The host range of QCLK_N and GSTB_N (R52, R63). -/
def rateOk (n : Nat) : Bool := 10738 ≤ n && n ≤ 171798692

/-- Two origins in 1/256 ticks differ by a whole number of `mult` periods of increment n, within 1/256 tick (R61, R151). -/
def wholePeriods (o1 o2 n mult : Nat) : Bool :=
  let d := if o1 ≤ o2 then o2 - o1 else o1 - o2
  let p := mult * 2 ^ 40
  let r := (d * n) % p
  decide (r ≤ n) || decide (p ≤ r + n)

/-- Quad q is rate-matched to strobe k (R61). -/
def rateMatched (s : State) (q k : Nat) : Bool :=
  s.qn q == s.rdEff .TBASE_GSTB_N_N 0 k && s.rd .QCLK_QCLK_STATUS_ALIGNED q == 1 &&
  s.rd .TBASE_GSTB_CFG_ALIGNED 0 k == 1 && wholePeriods (originSub s q) (s.gstb k).origin (s.qn q) 1

end Sys2Proof.Machine
end

