-- ==== Sys2Proof/Machine/Pat.lean ====
section
/-! DEFINITION. PAT pins (R263–R269): claims, line outputs, pattern outputs, strobe outputs and inputs. PAT event bits:
0 PAT_UNCLAIMED, 1 OUT_OVERRUN. -/

namespace Sys2Proof.Machine

/-- Function of a pin (R264): 0 INPUT, 1 LINE_OUT, 2 PATTERN_OUT, 3 GSTB_OUT. An unclaimed pin is INPUT. -/
def pinFunc (s : State) (i : Nat) : Nat := s.rd .PAT_PIN_CFG_FUNC 0 i

/-- The pin's bank supply is in range (R263). -/
def bankOk (s : State) (i : Nat) : Bool := s.rd .PAT_STATUS_BANK_OK 0 0 (i / 8) == 1

/-- The CQ48 drives the pin: claimed with a driver function, on a bank in range. -/
def pinDriven (s : State) (i : Nat) : Bool := pinFunc s i != 0 && bankOk s i

/-- The level at the ball (R265, R266, R269): a driven pin shows its state under INVERT, and with ODRAIN only its low level;
otherwise what the outside puts there. The last tick of a pulse is its inactive one. -/
def pinLevel (s : State) (i : Nat) : Bool :=
  let p := s.pin i
  let active := p.level && (!p.pulsing || decide (s.osc + 1 < p.until_))
  let out := active != (s.rd .PAT_PIN_CFG_INVERT 0 i == 1)
  if pinDriven s i then (if out && s.rd .PAT_PIN_CFG_ODRAIN 0 i == 1 then p.ext else out) else p.ext

/-- Pulse width in ticks; 0 acts as 1. -/
def pulseTicks (s : State) (i : Nat) : Nat := max 1 (s.rd .PAT_PIN_PULSE_PULSE 0 i)

/-- Start a pulse: active for PULSE ticks and inactive for one (R265). -/
def startPulse (i : Nat) (s : State) : State :=
  s.setPin i { s.pin i with level := true, pulsing := true, until_ := s.osc + pulseTicks s i + 1 }

/-- A LINE_OUT pin is busy from the receipt of an event to the end of the inactive tick, in PULSE mode (R265). -/
def pinBusy (s : State) (i : Nat) : Bool :=
  pinFunc s i == 1 && s.rd .PAT_PIN_CFG_OMODE 0 i == 0 && (s.pin i).pulsing && decide (s.osc < (s.pin i).until_)

/-- A LINE_OUT pin takes an event (R265). -/
def pinEvent (i : Nat) (s : State) : State :=
  if pinFunc s i ≠ 1 then s
  else if s.rd .PAT_PIN_CFG_OMODE 0 i = 1 then s.setPin i { s.pin i with level := !(s.pin i).level }
  else startPulse i s

/-- A strobe reaches the GSTB_OUT pins bound to it (R264, R267). -/
def strobePins (k : Nat) (s : State) : State :=
  each (upTo 32) (fun i s => on (pinFunc s i = 3 ∧ s.rd .PAT_PIN_CFG_GSTB 0 i = k) (startPulse i) s) s

/-- The level at which a pin starts to drive, before INVERT (R266). -/
def claimLevel (s : State) (i : Nat) : Bool :=
  pinFunc s i == 2 && Store.get false (s.out (s.rd .PAT_PIN_CFG_CH 0 i)).patBits i

/-- Start driving anew: a pulse in progress ends, and the pin takes its level of R266. -/
def settlePin (i : Nat) (s : State) : State :=
  s.setPin i { s.pin i with level := claimLevel s i, pulsing := false, until_ := 0 }

/-- The fields of PIN_CFG below OWNER. -/
def setPinFields (i v : Nat) (s : State) : State :=
  ((((((((s.wr .PAT_PIN_CFG_FUNC (bits v 1 0) 0 i).wr .PAT_PIN_CFG_OMODE (bit v 2) 0 i).wr .PAT_PIN_CFG_INVERT (bit v 3) 0 i).wr
    .PAT_PIN_CFG_ODRAIN (bit v 4) 0 i).wr .PAT_PIN_CFG_DRIVE (bit v 5) 0 i).wr .PAT_PIN_CFG_EDGE (bits v 7 6) 0 i).wr
    .PAT_PIN_CFG_FILT (bits v 11 8) 0 i).wr .PAT_PIN_CFG_CH (bits v 17 12) 0 i).wr .PAT_PIN_CFG_GSTB (bits v 19 18) 0 i

/-- The present word of PIN_CFG. -/
def pinWord (s : State) (i : Nat) : Nat :=
  s.rd .PAT_PIN_CFG_FUNC 0 i + 4 * s.rd .PAT_PIN_CFG_OMODE 0 i + 8 * s.rd .PAT_PIN_CFG_INVERT 0 i +
  16 * s.rd .PAT_PIN_CFG_ODRAIN 0 i + 32 * s.rd .PAT_PIN_CFG_DRIVE 0 i + 64 * s.rd .PAT_PIN_CFG_EDGE 0 i +
  256 * s.rd .PAT_PIN_CFG_FILT 0 i + 4096 * s.rd .PAT_PIN_CFG_CH 0 i + 2 ^ 18 * s.rd .PAT_PIN_CFG_GSTB 0 i +
  2 ^ 24 * s.rd .PAT_PIN_CFG_OWNER 0 i + 2 ^ 31 * s.rd .PAT_PIN_CFG_CLAIMED 0 i

/-- A line names the pin as its consumer. -/
def pinNamed (s : State) (i : Nat) : Bool := (upTo 128).any (fun l => s.rd .HARNESS_LINE_CFG_DST 0 l == 0x100 + i)

/-- Claim a free pin for a master with a PIN_CFG value, and start driving (R264, R266). -/
def takePin (m i v : Nat) (s : State) : State :=
  settlePin i (((setPinFields i v s).wr .PAT_PIN_CFG_OWNER m 0 i).wr .PAT_PIN_CFG_CLAIMED 1 0 i)

/-- Return a pin to INPUT, every field of PIN_CFG and PIN_PULSE to its reset value (R264). -/
def freePin (i : Nat) (s : State) : State :=
  settlePin i ((((setPinFields i 0 s).wr .PAT_PIN_CFG_OWNER 0 0 i).wr .PAT_PIN_CFG_CLAIMED 0 0 i).wr .PAT_PIN_PULSE_PULSE 1 0 i)

/-- A write of PIN_CFG (R264, R266). -/
def writePinCfg (m i v : Nat) (s : State) : State :=
  let claimed := s.rd .PAT_PIN_CFG_CLAIMED 0 i == 1
  let mine := claimed && s.rd .PAT_PIN_CFG_OWNER 0 i == m
  if bit v 31 = 1 then
    if claimed = false then takePin m i v s
    else if mine = false then actionErr .pat 0 errPinBusy m s
    else if pinNamed s i ∧ bits v 1 0 ≠ pinFunc s i then actionErr .pat 0 errPinBusy m s
    else
      let again := bits v 1 0 ≠ pinFunc s i ∨ bit v 2 ≠ s.rd .PAT_PIN_CFG_OMODE 0 i ∨ bit v 3 ≠ s.rd .PAT_PIN_CFG_INVERT 0 i
      let s1 := setPinFields i v s
      if again then settlePin i s1
      else if pinFunc s i = 2 then s1.setPin i { s1.pin i with level := claimLevel s1 i }
      else s1
  else if mine = false then recordErr .pat 0 errOwnerDenied m true ((0x100 + 4 * i) / 4) s
  else if pinNamed s i then actionErr .pat 0 errPinBusy m s
  else freePin i s

/-- A write of PIN_PULSE (R264). -/
def writePinPulse (m i v : Nat) (s : State) : State :=
  if s.rd .PAT_PIN_CFG_CLAIMED 0 i = 1 ∧ s.rd .PAT_PIN_CFG_OWNER 0 i = m then s.wr .PAT_PIN_PULSE_PULSE v 0 i
  else recordErr .pat 0 errOwnerDenied m true ((0x180 + 4 * i) / 4) s

/-- `PIN_CLAIM`: a write of PIN_CFG with CLAIMED = 1. -/
def execPinClaim (m : Master) (i : Fin 32) (v : Word) (s : State) : Out :=
  cmd s .pat 0 (0x100 + 4 * i.val) m (writePinCfg m.val i.val (v.toNat ||| 2 ^ 31))

/-- `PIN_RELEASE`: a write of PIN_CFG with CLAIMED = 0. -/
def execPinRelease (m : Master) (i : Fin 32) (s : State) : Out :=
  cmd s .pat 0 (0x100 + 4 * i.val) m (writePinCfg m.val i.val 0)

/-- `PIN_MODE_WRITE`: a write of PIN_CFG that gives OMODE and INVERT and keeps the other fields (R266). -/
def execPinModeWrite (m : Master) (i : Fin 32) (omode invert : Bool) (s : State) : Out :=
  cmd s .pat 0 (0x100 + 4 * i.val) m fun s =>
    writePinCfg m.val i.val
      (pinWord s i.val - 4 * s.rd .PAT_PIN_CFG_OMODE 0 i.val - 8 * s.rd .PAT_PIN_CFG_INVERT 0 i.val +
        (if omode then 4 else 0) + (if invert then 8 else 0)) s

/-- The edge is one that EDGE selects (R269): 0 rising, 1 falling, 2 both, 3 as 0. -/
def edgeSelected (mode : Nat) (rising : Bool) : Bool :=
  if mode = 2 then true else if mode = 1 then !rising else rising

/-- An edge that has passed the filter (R269, R271): it presents if EDGE selects it, the bank is in range and no edge less than 2.5 ns
before it has presented. `half` is the elapsed half-tick at which it was at the ball, `stamp` the count and half-tick of its record. -/
def pinEdge (i : Nat) (rising : Bool) (half : Nat) (stamp : Nat × Bool) (s : State) : State :=
  let p := s.pin i
  let s1 := s.setPin i { p with filt := rising, wait := none }
  if bankOk s i ∧ edgeSelected (s.rd .PAT_PIN_CFG_EDGE 0 i) rising ∧ (p.shown = 0 ∨ p.shown + 1 ≤ half) then
    present (1 + i) (s1.setPin i { s1.pin i with edge := stamp, shown := half + 1 })
  else s1

/-- The level that waits in the filter of pin i has held long enough. -/
def passFilter (i : Nat) (s : State) : State :=
  match (s.pin i).wait with
  | some (v, due, c, h) =>
    if 2 * s.osc < due then s
    else if v = (s.pin i).filt then s.setPin i { s.pin i with wait := none }
    else pinEdge i v (due - s.rd .PAT_PIN_CFG_FILT 0 i) (c, h) s
  | none => s

/-- The filters of all pins, once a tick. -/
def passFilters (s : State) : State := each (upTo 32) passFilter s

/-- An edge at a ball (R269). `ago` is how many ticks before the present one the edge was at the ball, `half` the half tick of its 800 MHz
stamp (R271). With FILT ≠ 0 it must hold for FILT cycles of 800 MHz. -/
def patEdge (i : Nat) (rising half : Bool) (ago : Nat) (s : State) : State :=
  let n := 2 * (s.osc - ago) + (if half then 1 else 0)
  let s1 := passFilter i s
  let s2 := s1.setPin i { s1.pin i with ext := if pinDriven s i then (s.pin i).ext else rising }
  let f := s.rd .PAT_PIN_CFG_FILT 0 i
  if f = 0 then pinEdge i rising n (s.now - ago, half) s2
  else passFilter i (s2.setPin i { s2.pin i with wait := some (rising, n + f, s.now - ago, half) })

/-- `PAT_INPUT_EDGE`: an edge at the ball of pin i. A driven pin is its own input: its level is the one it drives. -/
def execPatInputEdge (i : Fin 32) (rising half : Bool) (ago : Fin 256) (s : State) : Out :=
  act s (patEdge i.val rising half ago.val)

/-- `PAT_PULSE_END` (R265): the pulse and its inactive tick are over. -/
def execPatPulseEnd (i : Fin 32) (s : State) : Out :=
  act s (on ((s.pin i.val).pulsing = true ∧ (s.pin i.val).until_ ≤ s.osc) fun s =>
    s.setPin i.val { s.pin i.val with level := false, pulsing := false, until_ := 0 })

/-- One pattern bit of channel c at its sample edge (R267, R268). `id` tells one PATTERN descriptor from the next. -/
def patternBit (c id n : Nat) (b : Bool) (s : State) : State :=
  let o := s.out c
  if Store.get false o.patBits n = b then s
  else
    let s1 := s.setOut c { o with patBits := Store.set false o.patBits n b }
    if n < 32 ∧ pinFunc s n = 2 ∧ s.rd .PAT_PIN_CFG_CH 0 n = c then s1.setPin n { s1.pin n with level := b }
    else
      let s2 := s1.inc .PAT_PAT_DROP_COUNT
      if o.patSeen = id then s2 else raise .pat 0 0 (s2.setOut c { s2.out c with patSeen := id })

/-- The pattern bits of an edge. -/
def patternBits (c id : Nat) (ps : List (Nat × Bool)) (s : State) : State :=
  each ps (fun p s => patternBit c id p.1 p.2 s) s

/-- The markers of a channel at a sample edge (R84, R246): a 0-to-1 change presents. -/
def setMarkers (c : Nat) (m0 m1 : Bool) (s : State) : State :=
  let o := s.out c
  let s1 := s.setOut c { o with m0 := m0, m1 := m1 }
  let s2 := if m0 && !o.m0 then present (0x80 + 2 * c) s1 else s1
  if m1 && !o.m1 then present (0x81 + 2 * c) s2 else s2

end Sys2Proof.Machine
end

