-- ==== Sys2Proof/Machine/Harness.lean ====
section
/-! DEFINITION. Harness lines (R241–R262) and capture units (R270–R272). HARNESS event bits: 0 OVERRUN, 1 STORM, 2 LOOP,
3 CAPTURE. -/

namespace Sys2Proof.Machine

/-! ### Consumers (R250) -/

/-- The consumer of a line. -/
inductive Consumer where
  | none
  | input (q e : Nat)
  | pat (i : Nat)
  | capu (u : Nat)
  | gstb (k : Nat)
deriving DecidableEq, Repr

/-- A consumer code (R250); a code outside the table acts as none. -/
def consumerOf (code : Nat) : Consumer :=
  if 1 ≤ code ∧ code < 0xC1 then .input ((code - 1) / 16) ((code - 1) % 16)
  else if 0x100 ≤ code ∧ code < 0x120 then .pat (code - 0x100)
  else if 0x120 ≤ code ∧ code < 0x130 then .capu (code - 0x120)
  else if 0x130 ≤ code ∧ code < 0x134 then .gstb (code - 0x130)
  else .none

/-- The consumer of line L. -/
def lineConsumer (s : State) (l : Nat) : Consumer := consumerOf (s.rd .HARNESS_LINE_CFG_DST 0 l)

/-- An input of a Stitcher is armed for a jump (R141). -/
def inputArmed (s : State) (q e : Nat) : Bool := (Store.get none (s.stitcher q).armed e).isSome

/-- A Stitcher waits in WAITE on input e (R139). -/
def waitsOn (s : State) (q e : Nat) : Bool :=
  match (s.stitcher q).wait with
  | .event e' _ _ _ _ _ => e' == e
  | _ => false

/-- The consumer is busy (R250). Events for a Stitcher input are judged when they reach it. -/
def consumerBusy (s : State) : Consumer → Bool
  | .none => false
  | .input q e => s.rd .STITCH_EVIN_LATCHED_LATCHED q 0 e == 1 && !inputArmed s q e && !waitsOn s q e
  | .pat i => pinBusy s i
  | .capu u => decide (4 ≤ (s.capu u).length)
  | .gstb k => s.rd .TBASE_GSTB_CFG_MODE 0 k == 3 && s.rd .TBASE_GSTB_STAT_PENDING 0 k == 1

/-- The overrun flag of a consumer (R257). -/
def flagOverrun (c : Consumer) (s : State) : State :=
  match c with
  | .none => s
  | .input q e => s.wr .HARNESS_SOVR_OVR 1 0 q e
  | .pat i => raise .pat 0 1 (s.wr .PAT_PAT_OVR_OVR 1 0 0 i)
  | .capu u => s.wr .HARNESS_CAPU_CFG_OVR 1 0 u
  | .gstb k => s.wr .HARNESS_GSTB_OVR_OVR 1 0 0 k

/-- An overrun of line L (R257). -/
def overrun (l : Nat) (s : State) : State :=
  raise .harness 0 0 (flagOverrun (lineConsumer s l) (s.inc .HARNESS_LCNT_OVR_OVERRUN 0 l))

/-- The line is in HOLD (R256). -/
def lineHold (s : State) (l : Nat) : Bool :=
  s.rd .HARNESS_LINE_CFG_SVC 0 l == 1 || s.rd .HARNESS_SVC_CTL_FORCE_HOLD == 1

/-- An event for a busy consumer (R257, R258): remembered in HOLD, with its record, if nothing is remembered yet, else an overrun. -/
def busyEvent (l : Nat) (r : Option CapRecord) (s : State) : State :=
  if lineHold s l ∧ s.rd .HARNESS_LINE_STAT_PENDING 0 l = 0 then
    (s.wr .HARNESS_LINE_STAT_PENDING 1 0 l).setLine l { s.line l with kept := r }
  else overrun l s

/-- PAT inputs among the slots that presented in line L: their edges (R271). -/
def patStamps (s : State) (l slots : Nat) : List (Nat × Bool) :=
  ((upTo 8).filter fun j => bit slots j == 1 && decide (1 ≤ s.rd .HARNESS_LINE_SRC_SLOT 0 l j) &&
    decide (s.rd .HARNESS_LINE_SRC_SLOT 0 l j ≤ 32)).map (fun j => (s.pin (s.rd .HARNESS_LINE_SRC_SLOT 0 l j - 1)).edge)

/-- The earlier of two edge stamps. -/
def earlier (a b : Nat × Bool) : Nat × Bool :=
  if a.1 < b.1 then a else if b.1 < a.1 then b else (a.1, a.2 && b.2)

/-- The record of a firing (R270, R271). -/
def capRecord (s : State) (l slots : Nat) : CapRecord :=
  match patStamps s l slots with
  | [] => ⟨s.now, 0, slots, false⟩
  | e :: es => let t := es.foldl earlier e; ⟨t.1, if t.2 then 0x80 else 0, slots, true⟩

/-- A capture unit stores a record. -/
def capture (u : Nat) (r : CapRecord) (s : State) : State :=
  let old := s.capu u
  let s1 := (s.setCapu u (old ++ [r])).wr .HARNESS_CAPU_CFG_LEVEL (old.length + 1) 0 u
  if old.isEmpty then raise .harness 0 3 s1 else s1

/-- The event reaches a consumer that is not busy. A Stitcher input takes it by the command STITCHER_EVENT_INPUT. -/
def deliver (l : Nat) (r : CapRecord) (s : State) : State :=
  match lineConsumer s l with
  | .none => s
  | .input q e => { s with evin := s.evin ++ [(q, e)] }
  | .pat i => pinEvent i s
  | .capu u => capture u r s
  | .gstb k =>
    if s.rd .TBASE_GSTB_CFG_MODE 0 k = 3 ∧ (s.gstb k).hasEdges then
      (s.wr .TBASE_GSTB_STAT_PENDING 1 0 k).setGstb k { s.gstb k with due := (s.osc + 2 : Nat) }
    else s

/-- A firing's event reaches its consumer (R243, R257, R258). -/
def passEvent (l : Nat) (r : CapRecord) (s : State) : State :=
  match lineConsumer s l with
  | .input _ _ => deliver l r s
  | c => if consumerBusy s c then busyEvent l (some r) s else deliver l r s

/-- A firing's event; one that has a consumer wakes the device. Below D0 the first event of a line is held at its consumer, a further one
meets a busy consumer (R401). -/
def fireEvent (l slots : Nat) (s0 : State) : State :=
  let r := capRecord s0 l slots
  let s := if lineConsumer s0 l = .none then s0 else wake 2 s0
  if s.rd .POWER_STATUS_DSTATE = 0 then passEvent l r s
  else if (s.line l).held.isSome then busyEvent l (some r) s
  else s.setLine l { s.line l with held := some r }

/-- The events held below D0 are delivered (R401). -/
def deliverHeld (s : State) : State :=
  each (upTo 128) (fun l s =>
    match (s.line l).held with
    | some r => passEvent l r (s.setLine l { s.line l with held := none })
    | none => s) s

/-! ### Firing (R242–R244, R260) -/

/-- How many of this tick's presentations line L has considered already. -/
def considered (s : State) (l : Nat) : Nat := if (s.line l).seen = s.osc + 1 then (s.line l).seenLen else 0

/-- Slot j of line L presents: its producer is named in no lower slot and presents in this tick, for the first time since the line has
looked; a host trigger of a non-secure master reaches only lines with SEC = 0 (R242, R249, R260). -/
def slotPresents (s : State) (l j : Nat) : Bool :=
  let code := s.rd .HARNESS_LINE_SRC_SLOT 0 l j
  let names (i : Nat) : Bool := s.rd .HARNESS_LINE_SRC_SLOT 0 l i == code && !(s.line l).voids.contains i
  let hit (p : Nat) : Bool := p == code || (p == code + 0x200 && s.rd .HARNESS_LINE_CFG_SEC 0 l == 0)
  let n := considered s l
  code != 0 && names j && !(upTo j).any names && (s.presented.drop n).any hit && !(s.presented.take n).any hit

/-- The storm threshold and window of a line (R260, R261). -/
def stormProfile (s : State) (l : Nat) : Nat × Nat :=
  let k := s.rd .HARNESS_LINE_CFG_SPROF 0 l
  (s.rd .HARNESS_STORM_PROF_THR 0 k, max 8 (s.rd .HARNESS_STORM_PROF_WIN_LOG2 0 k))

/-- The profile in effect: before its first window a line has the profile of the reset, with THR = 0. -/
def stormInEffect (s : State) (l : Nat) : Nat × Nat := (s.line l).prof.getD (0, 16)

/-- The line considers presentations: enabled, with a consumer, not muted (R241, R260). -/
def lineLive (s : State) (l : Nat) : Bool :=
  s.rd .HARNESS_LINE_CFG_EN 0 l == 1 && lineConsumer s l != .none && s.rd .HARNESS_LINE_STAT_STORM 0 l == 0

/-- The slots of line L that present in this tick, and how many. -/
def presentingSlots (s : State) (l : Nat) : List Nat := (upTo 8).filter (slotPresents s l)

/-- Line L meets `n` presentations of the slots `slots` (R243, R244): armed it fires; on its firing tick they merge into its event; within
its re-arm interval they are suppressed. -/
def meet (l slots n : Nat) (s : State) : State :=
  let last := s.rd .HARNESS_LINE_STAT_LAST_SLOTS 0 l
  match (s.line l).firedAt with
  | none =>
    let t := (s.setLine l { s.line l with firedAt := some s.osc }).wr .HARNESS_LINE_STAT_LAST_SLOTS slots 0 l
    let t1 := t.inc .HARNESS_LCNT_FIRED_FIRED 0 l
    fireEvent l slots (if 2 ≤ n then t1.inc .HARNESS_LCNT_MERGE_COINCIDENT 0 l else t1)
  | some f =>
    if f = s.osc then
      let t := s.wr .HARNESS_LINE_STAT_LAST_SLOTS (last ||| slots) 0 l
      if (upTo 8).any (fun j => last == 2 ^ j) then t.inc .HARNESS_LCNT_MERGE_COINCIDENT 0 l else t
    else s.wr .HARNESS_LCNT_MERGE_SUPPRESSED (satAdd 16 (s.rd .HARNESS_LCNT_MERGE_SUPPRESSED 0 l) n) 0 l

/-- Line L considers the presentations of this tick that it has not considered yet; the storm threshold mutes it (R260). -/
def lineTick (l : Nat) (s : State) : State :=
  let js := presentingSlots s l
  let x := s.line l
  let s1 := s.setLine l { x with seen := s.osc + 1, seenLen := s.presented.length, count := x.count + js.length }
  let s2 := meet l (js.foldl (fun n j => n + 2 ^ j) 0) js.length s1
  let thr := (stormInEffect s l).1
  if thr ≠ 0 ∧ thr ≤ x.count + js.length then raiseFor .harness 0 1 l (s2.wr .HARNESS_LINE_STAT_STORM 1 0 l) else s2

/-- `LINE_FIRE`: line L meets the presentations of the present tick, each producer's once; what its own firing raises it meets by a further
command in the tick. -/
def execLineFire (l : Line) (s : State) : Out :=
  act s (on (lineLive s l.val = true ∧ presentingSlots s l.val ≠ []) (lineTick l.val))

/-- The re-arm interval is over (R244). -/
def rearmDue (s : State) (l : Nat) : Bool :=
  match (s.line l).firedAt with
  | some t => decide (t + max 2 (s.rd .HARNESS_LINE_CFG_REARM 0 l) ≤ s.osc)
  | none => false

/-- `LINE_REARM`. -/
def execLineRearm (l : Line) (s : State) : Out :=
  act s (on (rearmDue s l.val = true) fun s => s.setLine l.val { s.line l.val with firedAt := none })

/-- `STORM_WINDOW_START`: a window of 2^w ticks begins; the lines whose window this is restart their counts and take their
profile (R260, R261). -/
def execStormWindowStart (w : Fin 32) (s : State) : Out :=
  act s (on (8 ≤ w.val ∧ s.now % 2 ^ w.val = 0) fun s =>
    each (upTo 128) (fun l s => on ((stormInEffect s l).2 = w.val)
      (fun s => s.setLine l { s.line l with count := 0, prof := some (stormProfile s l) }) s) s)

/-- `REMEMBERED_DELIVER` (R258): the consumer is no longer busy. -/
def execRememberedDeliver (l : Line) (s : State) : Out :=
  act s (on (s.rd .HARNESS_LINE_STAT_PENDING 0 l.val = 1 ∧ consumerBusy s (lineConsumer s l.val) = false ∧
    (s.line l.val).held = none) fun s =>
    deliver l.val ((s.line l.val).kept.getD (capRecord s l.val (s.rd .HARNESS_LINE_STAT_LAST_SLOTS 0 l.val)))
      ((s.wr .HARNESS_LINE_STAT_PENDING 0 0 l.val).setLine l.val { s.line l.val with kept := none }))

/-! ### Ownership and settings (R247, R252–R258) -/

/-- Line L is hidden from master m (R255). -/
def lineHidden (s : State) (l m : Nat) : Bool := s.rd .HARNESS_LINE_CFG_SEC 0 l == 1 && !secureMaster s m

/-- Master m owns line L and may reach it. -/
def ownsLine (s : State) (l m : Nat) : Bool :=
  s.rd .HARNESS_LINE_CFG_CLAIMED 0 l == 1 && s.rd .HARNESS_LINE_CFG_OWNER 0 l == m && !lineHidden s l m

/-- The consumer named cannot serve line L for master m (R252). -/
def consumerTaken (s : State) (l m code : Nat) : Bool :=
  consumerOf code != .none &&
  ((upTo 128).any (fun j => j != l && s.rd .HARNESS_LINE_CFG_DST 0 j == code) ||
   (match consumerOf code with
    | .pat i => s.rd .PAT_PIN_CFG_CLAIMED 0 i == 1 && (s.rd .PAT_PIN_CFG_OWNER 0 i != m || pinFunc s i != 1)
    | .capu u => s.rd .HARNESS_CAPU_CFG_CLAIMED 0 u == 1 && s.rd .HARNESS_CAPU_CFG_OWNER 0 u != m
    | _ => false))

/-- A capture unit that its owner releases is no longer held by a line (R252). -/
def dropHolds (u : Nat) (s : State) : State :=
  each (upTo 128) (fun l s => if s.rd .HARNESS_LINE_CFG_DST 0 l = 0x120 + u then s.setLine l { s.line l with holds := false } else s) s

/-- Release the pin or capture unit that the line claimed itself (R252). -/
def dropConsumer (l : Nat) (s : State) : State :=
  if (s.line l).holds then
    let s1 := s.setLine l { s.line l with holds := false }
    match lineConsumer s l with
    | .pat i => freePin i s1
    | .capu u => (((s1.setCapu u []).wr .HARNESS_CAPU_CFG_LEVEL 0 0 u).wr .HARNESS_CAPU_CFG_CLAIMED 0 0 u).wr
        .HARNESS_CAPU_CFG_OWNER 0 0 u
    | _ => s1
  else s

/-- Claim a free pin or capture unit that the line names (R252). -/
def takeConsumer (l m : Nat) (s : State) : State :=
  match lineConsumer s l with
  | .pat i => if s.rd .PAT_PIN_CFG_CLAIMED 0 i = 0 then (takePin m i 1 s).setLine l { s.line l with holds := true } else s
  | .capu u =>
    if s.rd .HARNESS_CAPU_CFG_CLAIMED 0 u = 0 then
      ((s.wr .HARNESS_CAPU_CFG_CLAIMED 1 0 u).wr .HARNESS_CAPU_CFG_OWNER m 0 u).setLine l { s.line l with holds := true }
    else s
  | _ => s

/-- Discard an event held below D0 with its line's setting. -/
def dropHeld (l : Nat) (s : State) : State := s.setLine l { s.line l with held := none }

/-- Discard a remembered event, counting it as an overrun if asked (R253, R258). -/
def forget (l : Nat) (counted : Bool) (s : State) : State :=
  if s.rd .HARNESS_LINE_STAT_PENDING 0 l = 1 then
    let s1 := (s.wr .HARNESS_LINE_STAT_PENDING 0 0 l).setLine l { s.line l with kept := none }
    if counted then overrun l s1 else s1
  else s

/-- The fields of a LINE_CFG value applied to line L of master m (R252, R253, R258). -/
def applyLineCfg (m l v : Nat) (s : State) : State :=
  let moved := decide (bits v 8 0 ≠ s.rd .HARNESS_LINE_CFG_DST 0 l)
  let normal := bit v 10 == 0 && s.rd .HARNESS_SVC_CTL_FORCE_HOLD == 0
  let s0 := if bit v 9 = 0 ∨ moved then dropHeld l s else s
  let s1 := if bit v 9 = 0 then forget l false s0
    else if moved ∨ (lineHold s l && normal) then forget l true s0 else s0
  let s2 := if moved then dropConsumer l s1 else s1
  let s3 := (((((s2.wr .HARNESS_LINE_CFG_DST (bits v 8 0) 0 l).wr .HARNESS_LINE_CFG_EN (bit v 9) 0 l).wr
    .HARNESS_LINE_CFG_SVC (bit v 10) 0 l).wr .HARNESS_LINE_CFG_SEC (bit v 11) 0 l).wr
    .HARNESS_LINE_CFG_REARM (bits v 23 12) 0 l).wr .HARNESS_LINE_CFG_SPROF (bits v 30 29) 0 l
  takeConsumer l m s3

/-- Release line L (R254): SEC is kept. -/
def releaseLine (l : Nat) (s : State) : State :=
  let s1 := dropConsumer l (forget l false (dropHeld l s))
  let s2 := each (upTo 8) (fun j s => s.wr .HARNESS_LINE_SRC_SLOT 0 0 l j)
    (((((s1.wr .HARNESS_LINE_CFG_DST 0 0 l).wr .HARNESS_LINE_CFG_EN 0 0 l).wr .HARNESS_LINE_CFG_CLAIMED 0 0 l).wr
      .HARNESS_LINE_CFG_OWNER 0 0 l).wr .HARNESS_LINE_STAT_STORM 0 0 l)
  s2

/-- OWNER_DENIED on the HARNESS page for a write at an offset. -/
def lineDenied (m off : Nat) (s : State) : State := recordErr .harness 0 errOwnerDenied m true (off / 4) s

/-- A write of LINE_CFG (R252–R255). -/
def writeLineCfg (m l v : Nat) (s : State) : State :=
  let off := 0x400 + 4 * l
  let free := s.rd .HARNESS_LINE_CFG_CLAIMED 0 l == 0
  if lineHidden s l m then lineDenied m off s
  else if bit v 31 = 0 then (if ownsLine s l m then releaseLine l s else lineDenied m off s)
  else if free = false ∧ ownsLine s l m = false then lineDenied m off s
  else if bit v 11 ≠ s.rd .HARNESS_LINE_CFG_SEC 0 l ∧ secureMaster s m = false then lineDenied m off s
  else if consumerTaken s l m (bits v 8 0) then
    actionErr .harness 0 errPinBusy m s
  else applyLineCfg m l v (if free then (s.wr .HARNESS_LINE_CFG_CLAIMED 1 0 l).wr .HARNESS_LINE_CFG_OWNER m 0 l else s)

/-- `LINE_CLAIM`: a write of LINE_CFG with CLAIMED = 1 to a line. -/
def execLineClaim (m : Master) (l : Line) (v : Word) (s : State) : Out :=
  cmd s .harness 0 (0x400 + 4 * l.val) m (writeLineCfg m.val l.val (v.toNat ||| 2 ^ 31))

/-- `LINE_RELEASE`: a write of LINE_CFG with CLAIMED = 0. -/
def execLineRelease (m : Master) (l : Line) (s : State) : Out :=
  cmd s .harness 0 (0x400 + 4 * l.val) m (writeLineCfg m.val l.val 0)

/-- `LINE_CFG_WRITE`: any write of LINE_CFG. -/
def execLineCfgWrite (m : Master) (l : Line) (v : Word) (s : State) : Out :=
  cmd s .harness 0 (0x400 + 4 * l.val) m (writeLineCfg m.val l.val v.toNat)

/-- A producer code that master m may name (R247): a launch comparator must be its own. -/
def producerOk (s : State) (m code : Nat) : Bool :=
  !(0x100 ≤ code && code < 0x140) ||
  (s.rd .TBASE_LC_CTRL_CLAIMED 0 (code - 0x100) == 1 && s.rd .TBASE_LC_CTRL_OWNER 0 (code - 0x100) == m)

/-- A write of word w of LINE_SRC (R247). -/
def writeLineSrc (m l w v : Nat) (s : State) : State :=
  if ownsLine s l m = false ∨ producerOk s m (bits v 8 0) = false ∨ producerOk s m (bits v 24 16) = false then
    lineDenied m (0x800 + 16 * l + 4 * w) s
  else
    let s1 := (s.wr .HARNESS_LINE_SRC_SLOT (bits v 8 0) 0 l (2 * w)).wr .HARNESS_LINE_SRC_SLOT (bits v 24 16) 0 l (2 * w + 1)
    s1.setLine l { s1.line l with voids := (s1.line l).voids.filter (fun j => j ≠ 2 * w ∧ j ≠ 2 * w + 1) }

/-- `LINE_SRC_WRITE`. -/
def execLineSrcWrite (m : Master) (l : Line) (w : Fin 4) (v : Word) (s : State) : Out :=
  cmd s .harness 0 (0x800 + 16 * l.val + 4 * w.val) m (writeLineSrc m.val l.val w.val v.toNat)

/-- A write of LINE_STAT (R261): the owner's STORM = 1 unmutes and arms the line; its count restarts. -/
def writeLineStat (m l v : Nat) (s : State) : State :=
  if ownsLine s l m = false then lineDenied m (0x600 + 4 * l) s
  else if bit v 9 = 1 ∧ s.rd .HARNESS_LINE_STAT_STORM 0 l = 1 then
    (s.wr .HARNESS_LINE_STAT_STORM 0 0 l).setLine l { s.line l with firedAt := none, count := 0 }
  else s

/-- `STORM_CLEAR`. -/
def execStormClear (m : Master) (l : Line) (s : State) : Out :=
  cmd s .harness 0 (0x600 + 4 * l.val) m (writeLineStat m.val l.val (2 ^ 9))

/-- A write of SVC_CTL: every line that leaves HOLD discards a remembered event and counts it (R256, R258). -/
def writeSvcCtl (v : Nat) (s : State) : State :=
  let hold := bit v 0 = 1
  let s1 := each (upTo 128) (fun l s =>
    on (¬ hold ∧ lineHold s l = true ∧ s.rd .HARNESS_LINE_CFG_SVC 0 l = 0) (forget l true) s) s
  s1.wr .HARNESS_SVC_CTL_FORCE_HOLD (bit v 0)

/-- `SVC_MODE_WRITE`: a write of SVC_CTL.FORCE_HOLD. -/
def execSvcModeWrite (m : Master) (hold : Bool) (s : State) : Out :=
  cmd s .harness 0 0x40 m (writeSvcCtl (if hold then 1 else 0))

/-- A write of HOST_TRIG (R249): triggers of a non-secure master reach only lines with SEC = 0. -/
def hostTrig (m v : Nat) (s : State) : State :=
  each (upTo 32) (fun j s => on (bit v j = 1)
    (present (if secureMaster s m then 0x180 + j else 0x380 + j)) s) s

/-- `HOST_TRIG`. -/
def execHostTrig (m : Master) (v : Word) (s : State) : Out := cmd s .harness 0 0x44 m (hostTrig m.val v.toNat)

/-! ### Loops (R259) -/

/-- A status selector of these kinds whose instance satisfies p, or is any. -/
def selectorCauses (s : State) (n : Nat) (kind : Nat → Bool) (p : Nat → Nat → Bool) : Bool :=
  let k := s.rd .HARNESS_STATSEL_KIND 0 n
  let i := s.rd .HARNESS_STATSEL_INST 0 n
  kind k && (i == 0xFF || p k i)

/-- A status selector instance belongs to quad q or its channels (R259). -/
def instOfQuad (q k i : Nat) : Bool :=
  if k = 4 ∨ k = 5 then i == q
  else if k = 15 then
    i == Page.index .stitch q || (chansOf q).any (fun c => i == Page.index .cse c || i == Page.index .out c)
  else (chansOf q).contains i

/-- The consumer may cause the producer code to present (R259). -/
def mayCause (s : State) (c : Consumer) (code : Nat) : Bool :=
  let patIn (p : Nat → Bool) : Bool := decide (1 ≤ code) && decide (code ≤ 32) && p (code - 1)
  let sel (kind : Nat → Bool) (p : Nat → Nat → Bool) : Bool :=
    decide (0x140 ≤ code) && decide (code < 0x150) && selectorCauses s (code - 0x140) kind p
  match c with
  | .none => false
  | .input q _ =>
    (decide (0x40 + 4 * q ≤ code) && decide (code < 0x44 + 4 * q)) ||
    (decide (0x80 + 8 * q ≤ code) && decide (code < 0x88 + 8 * q)) ||
    patIn (fun i => pinFunc s i == 2 && quadOf (s.rd .PAT_PIN_CFG_CH 0 i) == q) ||
    sel (fun k => (2 ≤ k && k ≤ 5) || (7 ≤ k && k ≤ 10) || k == 15) (instOfQuad q)
  | .pat i => code == 1 + i
  | .capu _ => sel (fun k => k == 15) (fun _ i => i == Page.index .harness 0)
  | .gstb k => patIn (fun i => pinFunc s i == 3 && s.rd .PAT_PIN_CFG_GSTB 0 i == k)

/-- Line a feeds line b. -/
def feeds (s : State) (a b : Nat) : Bool :=
  (upTo 8).any (fun j => s.rd .HARNESS_LINE_SRC_SLOT 0 b j != 0 &&
    mayCause s (lineConsumer s a) (s.rd .HARNESS_LINE_SRC_SLOT 0 b j))

/-- Lines reached from the lines of `from_` in at most n feeds. -/
def reachable (s : State) (all : List Nat) : Nat → List Nat → List Nat
  | 0, from_ => from_
  | n + 1, from_ =>
    let more := all.filter (fun b => !from_.contains b && from_.any (fun a => feeds s a b))
    if more.isEmpty then from_ else reachable s all n (from_ ++ more)

/-- The enabled lines that lie on a cycle (R259). -/
def loopLines (s : State) : List Nat :=
  let all := (upTo 128).filter (fun l => s.rd .HARNESS_LINE_CFG_EN 0 l == 1)
  all.filter (fun l => (reachable s all 128 (all.filter (feeds s l))).contains l)

/-- The lines on a cycle that line a feeds: those from which it is reached again. -/
def cycleFeeds (s : State) (ls : List Nat) (a : Nat) : List Nat :=
  if ls.contains a then ls.filter (fun b => feeds s a b && (reachable s ls 128 [b]).contains a) else []

/-- Recompute the feeds relation (R259): LOOP is raised when a cycle appears, that is, when some line feeds another on a cycle as it did not
before. -/
def recomputeLoops (s : State) : State :=
  let ls := loopLines s
  let fresh := ls.any (fun l => (cycleFeeds s ls l).any (fun b => !(s.line l).loopTo.contains b))
  let s1 := each (upTo 128) (fun l t =>
    (t.wr .HARNESS_LINE_STAT_LOOP (if ls.contains l then 1 else 0) 0 l).setLine l { t.line l with loopTo := cycleFeeds s ls l }) s
  let s2 := s1.wr .HARNESS_STATUS_LOOP_PRESENT (if ls.isEmpty then 0 else 1)
  if fresh then raise .harness 0 2 s2 else s2

/-- `LOOP_RECOMPUTE`. -/
def execLoopRecompute (s : State) : Out := act s recomputeLoops

/-! ### Capture units (R270, R272) -/

/-- A write of CAPU_CFG (R270): a claim, the owner's release, or a clear of OVR. -/
def writeCapuCfg (m u v : Nat) (s : State) : State :=
  let claimed := s.rd .HARNESS_CAPU_CFG_CLAIMED 0 u == 1
  let mine := claimed && s.rd .HARNESS_CAPU_CFG_OWNER 0 u == m
  let s1 := if bit v 3 = 1 then s.wr .HARNESS_CAPU_CFG_OVR 0 0 u else s
  if bit v 31 = 1 then
    if claimed = false then (s1.wr .HARNESS_CAPU_CFG_CLAIMED 1 0 u).wr .HARNESS_CAPU_CFG_OWNER m 0 u
    else if mine then s1 else actionErr .harness 0 errPinBusy m s
  else if mine then
    dropHolds u <| (((s1.setCapu u []).wr .HARNESS_CAPU_CFG_LEVEL 0 0 u).wr .HARNESS_CAPU_CFG_CLAIMED 0 0 u).wr .HARNESS_CAPU_CFG_OWNER 0 0 u
  else recordErr .harness 0 errOwnerDenied m true ((0x100 + 16 * u) / 4) s

/-- `CAPU_CLAIM`: a write of CAPU_CFG with CLAIMED = 1. -/
def execCapuClaim (m : Master) (u : Fin 16) (s : State) : Out :=
  cmd s .harness 0 (0x100 + 16 * u.val) m (writeCapuCfg m.val u.val (2 ^ 31))

/-- A read of CAPU_INFO (R272): the word, and the state with the record removed and its count held for the reader. -/
def readCapuInfo (m u : Nat) (s : State) : Nat × State :=
  match s.capu u with
  | [] => (0, s)
  | r :: rs =>
    (r.frac + 2 ^ 8 * r.slots + 2 ^ 16 + (if r.pat then 2 ^ 17 else 0),
     (((s.setCapu u rs).wr .HARNESS_CAPU_CFG_LEVEL rs.length 0 u).wr .HARNESS_CAPU_TIME_LO_C_LO r.count 0 m).wr
       .HARNESS_CAPU_TIME_HI_C_HI (r.count / 2 ^ 32) 0 m)

/-- A read answers zeros to a master that a check rejects (R24). -/
def gateRead (p : Page) (inst off m n : Nat) (f : State → Nat × State) (s : State) : State :=
  if accessOk s p inst m false then
    let (v, t) := f s
    { t with readData := leBytes n v }
  else { recordErr p inst errOwnerDenied m false (off / 4) s with readData := leBytes n 0 }

/-- `CAPU_INFO_READ`. -/
def execCapuInfoRead (m : Master) (u : Fin 16) (s : State) : Out :=
  act s (gateRead .harness 0 (0x104 + 16 * u.val) m.val 4 (readCapuInfo m.val u.val))

end Sys2Proof.Machine
end

