-- ==== Sys2Proof/Machine/Outputs.lean ====
section
/-! DEFINITION. Output channels (R186–R218): spans and volt values, updates, stages, protection, the record, fault values, span
changes, resets of a channel. OUT event bits: 0 SQ_UNDERRUN, 1 FAULT_ENTER, 2 SHORT, 3 STAGE_SWITCH, 4 CHANNEL_LOST,
5 SPAN_DONE, 6 SENSE_FAULT, 7 GANG_EXIT, 8 NVM_DONE, 9 OVERTEMP, 10 VALUE_CLAMP, 11 FAULT_EXIT. -/

namespace Sys2Proof.Machine

/-! ### Volt values (R188, R189) -/

/-- The columns A and B of R188. -/
def spanScale (span : Nat) : Int × Int :=
  match span with
  | 0 => (1, 2 ^ 19)
  | 1 => (2, 2 ^ 19)
  | 2 => (4, 2 ^ 19)
  | 3 => (2, 0)
  | 4 => (4, 0)
  | _ => (8, 2 ^ 19)

/-- A × VV + B before the clamp. -/
def voltRaw (span vv : Nat) : Int := (spanScale span).1 * signed 21 vv + (spanScale span).2

/-- The code that shows a volt value on a span (R189). -/
def voltCode (span vv : Nat) : Nat := (clampI 0 (2 ^ 20 - 1) (voltRaw span vv)).toNat

/-- The clamp changes the volt value. -/
def voltClamps (span vv : Nat) : Bool := decide (((voltCode span vv : Nat) : Int) ≠ voltRaw span vv)

/-- Span in effect (R188). -/
def spanNow (s : State) (c : Nat) : Nat := s.rd .OUT_STATUS_SPAN_NOW c

/-- Show a volt value on the span in effect; VALUE_CLAMP once per showing (R189). -/
def showVolt (c vv : Nat) (s : State) : State :=
  let s1 := s.setOut c { s.out c with dac := voltCode (spanNow s c) vv }
  if voltClamps (spanNow s c) vv then raise .out c 10 s1 else s1

/-! ### What the pin shows (R211) -/

/-- The channel is enabled (R217). -/
def outEnabled (s : State) (c : Nat) : Bool := s.rd .CTRL_ENABLE c (Page.code .out) == 1

/-- Some fault source is active (R208). -/
def anySource (s : State) (c : Nat) : Bool :=
  s.rd .OUT_FAULT_STAT_SQ_UNDERRUN c == 1 || s.rd .OUT_FAULT_STAT_REPEAT_FAIL c == 1 ||
  s.rd .OUT_FAULT_STAT_CORE_LOST c == 1 || s.rd .OUT_FAULT_STAT_WATCHDOG c == 1 || s.rd .OUT_FAULT_STAT_FORCED c == 1

/-- The rank of R211 that the pin shows, 1 to 5. -/
def rank (s : State) (c : Nat) : Nat :=
  if s.rd .OUT_STATUS_HIGHZ c = 1 then 1
  else if outEnabled s c = false then 2
  else if (s.out c).faulted then 3
  else if s.rd .OUT_STATUS_SPAN_BUSY c = 1 then 4
  else 5

/-- The DAC register takes codes (R209, R211, R213). -/
def takesCodes (s : State) (c : Nat) : Bool :=
  outEnabled s c && !(s.out c).faulted && !anySource s c && s.rd .OUT_STATUS_SPAN_BUSY c == 0

/-- CODE_NOW: the code in the DAC register, or the fallback code (R210, R211). -/
def codeNow (s : State) (c : Nat) : Nat :=
  if s.rd .OUT_STATUS_FALLBACK c = 1 then min 4095 ((s.out c).dac / 256 + (if 128 ≤ (s.out c).dac % 256 then 1 else 0))
  else (s.out c).dac

/-- The stage in standby is healthy (R200). -/
def standbyHealthy (s : State) (c : Nat) : Bool :=
  if s.rd .OUT_STATUS_STAGE c = 0 then s.rd .OUT_STAGE_STAT_B_FAILED c == 0 else s.rd .OUT_STAGE_STAT_A_FAILED c == 0

/-- The quad clock of channel c runs; without it what waits for a sample edge takes place within 2 µs (R199). -/
def quadRuns (s : State) (c : Nat) : Bool := (s.clock (quadOf c)).running

/-! ### Span changes (R212–R214) -/

/-- Start a span-change sequence to span v (R213). -/
def startSpan (c v : Nat) (s : State) : State :=
  let o : OutChan := { s.out c with
    spanPhase := .slew, spanTo := v, safe := s.rd .OUT_NV_SAFE_VAL c, toWake := false, strobed := none }
  disturb c ((s.setOut c o).wr .OUT_STATUS_SPAN_BUSY 1 c)

/-- A commit of SPANCTL.SPAN (R188, R212–R214). -/
def commitSpan (c v : Nat) (s : State) : State :=
  let o := s.out c
  if 6 ≤ v then s
  else if s.rd .OUT_STATUS_SPAN_BUSY c = 1 ∨ o.faulted then s.setOut c { o with spanPend := some v }
  else if v = spanNow s c then s
  else startSpan c v s

/-- Ticks that a slew from the code shown to a volt value takes at the least rate of 0.95 V/µs (R213, R217). -/
def slewTicks (span code vv : Nat) : Nat :=
  let gap : Int := (code : Int) - (spanScale span).2 - (spanScale span).1 * signed 21 vv
  ceilNat (((gap.natAbs * 4000 * 100 : Nat) : Rat) / ((2 ^ 19 * 95 * (spanScale span).1.toNat : Nat) : Rat))

/-- Slew to the wake value on the span in effect (R217 step 4). -/
def slewWake (c : Nat) (s : State) : State :=
  let o := s.out c
  showVolt c o.wakeVal (s.setOut c { o with slewUntil := s.osc + slewTicks (spanNow s c) o.dac o.wakeVal })

/-- Go to the wake value (R217 steps 3 and 4): over a span change to the wake span, without release, where it differs. A sequence that
runs is abandoned; a span that waits for its end goes with it, one that waits for a fault to leave stays (DEDUCED, log 137). -/
def goWake (c : Nat) (s : State) : State :=
  let o := s.out c
  let kept := if o.faulted then o.spanPend else none
  if o.wakeSpan ≠ spanNow s c then
    let o1 : OutChan := { o with
      spanPhase := .slew, spanTo := o.wakeSpan, safe := s.rd .OUT_NV_SAFE_VAL c, toWake := true, spanPend := kept }
    disturb c ((s.setOut c o1).wr .OUT_STATUS_SPAN_BUSY 1 c)
  else slewWake c ((s.setOut c { o with spanPhase := .none, toWake := false, spanPend := kept }).wr .OUT_STATUS_SPAN_BUSY 0 c)

/-- `SPAN_SLEW_END` (R213 step 2). -/
def execSpanSlewEnd (c : Chan) (s : State) : Out :=
  act s (on ((s.out c.val).spanPhase = .slew) fun s =>
    showVolt c.val (s.out c.val).safe (s.setOut c.val { s.out c.val with spanPhase := .hold, slewUntil := s.osc }))

/-- `SPAN_HOLD_END` (R213 step 3). -/
def execSpanHoldEnd (c : Chan) (s : State) : Out :=
  act s (on ((s.out c.val).spanPhase = .hold) fun s => s.setOut c.val { s.out c.val with spanPhase := .switch })

/-- `SPAN_SWITCH_DONE` (R213 step 4): the new span is in effect, still at the safe value. -/
def execSpanSwitchDone (c : Chan) (s : State) : Out :=
  act s (on ((s.out c.val).spanPhase = .switch) fun s =>
    showVolt c.val (s.out c.val).safe
      ((s.setOut c.val { s.out c.val with spanPhase := .settle }).wr .OUT_STATUS_SPAN_NOW (s.out c.val).spanTo c.val))

/-- A pending span that differs from the one in effect starts a new sequence at its hold, the pin being at the safe value already (R214). -/
def nextSpan (c v : Nat) (s : State) : State :=
  let safe := s.rd .OUT_NV_SAFE_VAL c
  showVolt c safe (s.setOut c { s.out c with spanPhase := .hold, spanTo := v, spanPend := none, safe := safe, toWake := false })

/-- The pending span, where it differs from the one in effect. -/
def pendingSpan (s : State) (c : Nat) : Option Nat := (s.out c).spanPend.filter (fun v => v != spanNow s c)

/-- `SPAN_SETTLE_END` (R213 step 5): a sequence to the wake span ends in the slew to the wake value (R217), or in a span committed in the
meantime (DEDUCED, log 137). -/
def execSpanSettleEnd (c : Chan) (s : State) : Out :=
  act s (on ((s.out c.val).spanPhase = .settle) fun s =>
    let o := s.out c.val
    if o.toWake then match pendingSpan s c.val with
      | some v => nextSpan c.val v s
      | none => slewWake c.val ((s.setOut c.val { o with spanPhase := .none, toWake := false, spanPend := none }).wr
          .OUT_STATUS_SPAN_BUSY 0 c.val)
    else s.setOut c.val { o with spanPhase := .release })

/-- The release (R213 step 6, R214): a pending span that differs starts a new sequence; otherwise the channel is released. A channel in a
gang takes the code of a strobe that fell in the sequence, else its latch at this edge (DEDUCED, log 137). A channel that is not
enabled goes back to its wake value. -/
def releaseSpan (c : Nat) (s : State) : State :=
  match pendingSpan s c with
  | some v => nextSpan c v s
  | none =>
    let o := s.out c
    let s1 := raise .out c 5 ((s.setOut c { o with spanPhase := .none, spanPend := none, strobed := none, rejoin := o.strobed.isNone }).wr
      .OUT_STATUS_SPAN_BUSY 0 c)
    if outEnabled s c = false then slewWake c s1
    else match o.strobed with
      | some code => if s.rd .OUT_STATUS_GANG_ACTIVE c = 1 then s1.setOut c { s1.out c with dac := code } else s1
      | none => s1

/-- `SPAN_RELEASE`: at a sample edge of a running quad. -/
def execSpanRelease (c : Chan) (s : State) : Out :=
  act s (on ((s.out c.val).spanPhase = .release ∧ quadRuns s c.val = true) (releaseSpan c.val))

/-! ### Fault value (R208–R210, R212) -/

/-- Whether the fallback DAC shows the fault value (R210): while an enabled channel shows it for want of a healthy core, whatever other
source is active too. -/
def refreshFallback (c : Nat) (s : State) : State :=
  s.wr .OUT_STATUS_FALLBACK (if (s.out c).faulted ∧ outEnabled s c ∧ s.rd .OUT_FAULT_STAT_CORE_LOST c = 1 then 1 else 0) c

/-- CORE_LOST of channel c becomes active or leaves (R208, R210). -/
def setCoreLost (c v : Nat) (s : State) : State := refreshFallback c (s.wr .OUT_FAULT_STAT_CORE_LOST v c)

/-- A sequence is abandoned; its span stays pending if it was committed and not switched yet (R212). -/
def abandonSpan (c : Nat) (s : State) : State :=
  let o := s.out c
  let pend := match o.spanPend with
    | some v => some v
    | none => if (o.spanPhase = .slew ∨ o.spanPhase = .hold ∨ o.spanPhase = .switch) ∧ o.toWake = false then some o.spanTo
              else none
  (s.setOut c { o with spanPhase := .none, spanPend := pend, toWake := false }).wr .OUT_STATUS_SPAN_BUSY 0 c

/-- An enabled channel with a fault source active shows its fault value on the span in effect (R208, R211). -/
def showFault (c : Nat) (s : State) : State :=
  let v := s.rd .OUT_NV_FAULT_VAL c
  let s1 := abandonSpan c s
  disturb c (refreshFallback c (showVolt c v (s1.setOut c { s1.out c with faultVal := v })))

/-- The first fault source has become active (R208, R212). A channel that is not enabled goes on showing its wake value, on the span then in
effect; its way to the wake span goes on. -/
def enterFault (c : Nat) (s : State) : State :=
  let o := s.out c
  let s1 := s.setOut c { o with faulted := true }
  wake 5 <| raise .out c 1 (if outEnabled s c then showFault c s1
    else if o.spanPhase = .none ∨ o.toWake then s1
    else slewWake c (abandonSpan c s1))

/-- `FAULT_ENTER`. -/
def execFaultEnter (c : Chan) (s : State) : Out :=
  act s (on (anySource s c.val = true ∧ (s.out c.val).faulted = false) (enterFault c.val))

/-- The last fault source has left (R209, R212): a pending span change restarts from its slew; otherwise the next sample edge
brings a code. -/
def exitFault (c : Nat) (s : State) : State :=
  let o := s.out c
  let s1 := raise .out c 11 (refreshFallback c (s.setOut c { o with faulted := false }))
  if o.toWake then s1
  else match pendingSpan s c with
    | some v => startSpan c v (s1.setOut c { s1.out c with spanPend := none })
    | none => s1.setOut c { s1.out c with spanPend := none, rejoin := true }

/-- `FAULT_EXIT`. -/
def execFaultExit (c : Chan) (s : State) : Out :=
  act s (on (anySource s c.val = false ∧ (s.out c.val).faulted = true) (exitFault c.val))

/-- `SQ_UNDERRUN_FAULT` (R19, R208): 64 consecutive underrun ticks. -/
def execSqUnderrunFault (c : Chan) (s : State) : Out :=
  act s (on (64 ≤ (s.out c.val).underruns) fun s =>
    (s.setOut c.val { s.out c.val with underruns := 0 }).wr .OUT_FAULT_STAT_SQ_UNDERRUN 1 c.val)

/-- A write of FAULT_CTL.FORCE (R208): FORCED changes at the next sample edge. -/
def writeForce (c : Nat) (f : Bool) (s : State) : State :=
  let s1 := s.wr .OUT_FAULT_CTL_FORCE (if f then 1 else 0) c
  if quadRuns s c then s1.setOut c { s1.out c with forceReq := some f }
  else s1.wr .OUT_FAULT_STAT_FORCED (if f then 1 else 0) c

/-- `FAULT_FORCE_WRITE`. -/
def execFaultForceWrite (m : Master) (c : Chan) (f : Bool) (s : State) : Out :=
  cmd s .out c.val 0x6C m (writeForce c.val f)

/-- A write of FAULT_CTL.CLEAR = 1 (R208): WATCHDOG leaves only once firmware has restarted. -/
def clearFaults (c : Nat) (s : State) : State :=
  let s1 := s.wr .OUT_FAULT_STAT_SQ_UNDERRUN 0 c
  if s.fwUp then s1.wr .OUT_FAULT_STAT_WATCHDOG 0 c else s1

/-- `FAULT_CLEAR`. -/
def execFaultClear (m : Master) (c : Chan) (s : State) : Out := cmd s .out c.val 0x6C m (clearFaults c.val)

/-! ### Stages and sensing (R198–R201) -/

/-- The active stage fails with a cause, 1 TRACKING or 2 BIAS (R199, R200). -/
def stageFails (c cause : Nat) (s : State) : State :=
  let s1 := if s.rd .OUT_STATUS_STAGE c = 0 then s.wr .OUT_STAGE_STAT_A_FAILED 1 c else s.wr .OUT_STAGE_STAT_B_FAILED 1 c
  if standbyHealthy s c then s1.setOut c { s1.out c with switchReq := some cause }
  else disturb c (raise .out c 4 (s1.wr .OUT_STATUS_HIGHZ 1 c))

/-- The active stage is not marked failed yet. -/
def activeHealthy (s : State) (c : Nat) : Bool :=
  if s.rd .OUT_STATUS_STAGE c = 0 then s.rd .OUT_STAGE_STAT_A_FAILED c == 0 else s.rd .OUT_STAGE_STAT_B_FAILED c == 0

/-- `STAGE_TRACKING_FAULT`: judged outside current limit, foldback and the slews of this chapter (R196, R213, R216, R217), over 20 µs. -/
def execStageTrackingFault (c : Chan) (s : State) : Out :=
  act s (on (s.rd .OUT_STAGECTL_AUTO_SWITCH c.val = 1 ∧ s.rd .OUT_STATUS_HIGHZ c.val = 0 ∧ activeHealthy s c.val = true ∧
    s.rd .OUT_STATUS_IN_LIMIT c.val = 0 ∧ s.rd .OUT_STATUS_FOLDBACK c.val = 0 ∧ (s.out c.val).spanPhase ≠ .slew ∧
    (s.out c.val).slewUntil + 8000 ≤ s.osc)
    (stageFails c.val 1))

/-- `STAGE_BIAS_FAULT`. -/
def execStageBiasFault (c : Chan) (s : State) : Out :=
  act s (on (s.rd .OUT_STAGECTL_AUTO_SWITCH c.val = 1 ∧ s.rd .OUT_STATUS_HIGHZ c.val = 0 ∧ activeHealthy s c.val = true)
    (stageFails c.val 2))

/-- A write of SWITCH_REQ = 1 (R199, R200). One that meets a switchover asked for already is part of it. -/
def hostSwitch (c : Nat) (s : State) : State :=
  if standbyHealthy s c then s.setOut c { s.out c with switchReq := some ((s.out c).switchReq.getD 3) }
  else s.wr .OUT_STAGE_STAT_REQ_REFUSED 1 c

/-- `STAGE_SWITCH_REQ`. -/
def execStageSwitchReq (m : Master) (c : Chan) (s : State) : Out := cmd s .out c.val 0x4C m (hostSwitch c.val)

/-- The pin moves to the standby stage (R199). -/
def switchover (c : Nat) (s : State) : State :=
  match (s.out c).switchReq with
  | none => s
  | some cause =>
    raise .out c 3 ((((s.setOut c { s.out c with switchReq := none }).wr .OUT_STATUS_STAGE
      (1 - s.rd .OUT_STATUS_STAGE c) c).wr .OUT_STAGE_STAT_LAST_CAUSE cause c).inc .OUT_STAGE_STAT_SWITCH_CNT c)

/-- `STAGE_SWITCHOVER`: at the next sample edge, or within 2 µs in a stopped quad. -/
def execStageSwitchover (c : Chan) (s : State) : Out := act s (switchover c.val)

/-- Local sensing takes effect at the next sample edge (R201). -/
def senseFault (c : Nat) (s : State) : State :=
  let s1 := raise .out c 6 s
  if s.rd .OUT_STAGECTL_AUTO_LOCAL c = 0 then s1
  else if quadRuns s c then s1.setOut c { s1.out c with localReq := true }
  else s1.wr .OUT_STATUS_SENSE_LOCAL 1 c

/-- `SENSE_FAULT`: in REMOTE, outside current limit. -/
def execSenseFault (c : Chan) (s : State) : Out :=
  act s (on (s.rd .OUT_STAGECTL_SENSE_MODE c.val = 0 ∧ s.rd .OUT_STATUS_SENSE_LOCAL c.val = 0 ∧
    s.rd .OUT_STATUS_IN_LIMIT c.val = 0) (senseFault c.val))

/-- A write of STAGECTL (R198–R201). -/
def writeStageCtl (c v : Nat) (s : State) : State :=
  let s1 := (((s.wr .OUT_STAGECTL_PREFER (bit v 0) c).wr .OUT_STAGECTL_AUTO_SWITCH (bit v 2) c).wr
    .OUT_STAGECTL_SENSE_MODE (bit v 3) c).wr .OUT_STAGECTL_AUTO_LOCAL (bit v 4) c
  let s2 := (s1.wr .OUT_STATUS_SENSE_LOCAL (bit v 3) c).setOut c { s1.out c with localReq := false }
  if bit v 1 = 1 then hostSwitch c s2 else s2

/-! ### Protection (R202–R204) -/

/-- `CURRENT_LIMIT_ENTER`: a break of less than 100 µs does not restart the 4 ms count. -/
def execCurrentLimitEnter (c : Chan) (s : State) : Out :=
  act s (on (s.rd .OUT_STATUS_HIGHZ c.val = 0 ∧ s.rd .OUT_STATUS_IN_LIMIT c.val = 0 ∧ s.rd .OUT_STATUS_FOLDBACK c.val = 0) fun s =>
    let o := s.out c.val
    let restart := match o.limitOut with
      | some t => decide (t + 40000 ≤ s.osc)
      | none => true
    (s.setOut c.val { o with limitFrom := if restart then s.osc else o.limitFrom }).wr .OUT_STATUS_IN_LIMIT 1 c.val)

/-- `CURRENT_LIMIT_EXIT`: the load releases. -/
def execCurrentLimitExit (c : Chan) (s : State) : Out :=
  act s (on (s.rd .OUT_STATUS_IN_LIMIT c.val = 1) fun s =>
    (s.setOut c.val { s.out c.val with limitOut := some s.osc }).wr .OUT_STATUS_IN_LIMIT 0 c.val)

/-- `FOLDBACK` (R202): 4 ms in limit, 3.8 ms at the least. -/
def execFoldback (c : Chan) (s : State) : Out :=
  act s (on (s.rd .OUT_STATUS_IN_LIMIT c.val = 1 ∧ s.rd .OUT_STATUS_FOLDBACK c.val = 0 ∧
      (s.out c.val).limitFrom + 1520000 ≤ s.osc) fun s =>
    raise .out c.val 2 (((s.setOut c.val { s.out c.val with foldFrom := s.osc, foldTemp := false }).wr
      .OUT_STATUS_FOLDBACK 1 c.val).inc .OUT_SC_CNT_SHORTS c.val))

/-- The end of foldback is requested (R203, R204): held while the stage is hot. -/
def requestFoldEnd (c : Nat) (s : State) : State :=
  let o := s.out c
  if s.rd .OUT_STATUS_FOLDBACK c = 0 then s
  else if o.foldTemp then s.setOut c { o with clearHeld := true }
  else s.setOut c { o with foldEnd := true }

/-- `SC_CLR`. -/
def execScClr (m : Master) (c : Chan) (s : State) : Out := cmd s .out c.val 0x54 m (requestFoldEnd c.val)

/-- A write of PROTCFG (R203). -/
def writeProtCfg (c v : Nat) (s : State) : State :=
  let s1 := s.wr .OUT_PROTCFG_AUTO_RETRY (bit v 0) c
  if bit v 1 = 1 then requestFoldEnd c s1 else s1

/-- `FOLDBACK_RETRY` (R203): 100 ms after the foldback began. -/
def execFoldbackRetry (c : Chan) (s : State) : Out :=
  act s (on (s.rd .OUT_PROTCFG_AUTO_RETRY c.val = 1 ∧ (s.out c.val).foldFrom + 40000000 ≤ s.osc) (requestFoldEnd c.val))

/-- `FOLDBACK_END` (R203): at the next sample edge the stage returns to its limit, and R202 applies afresh. -/
def execFoldbackEnd (c : Chan) (s : State) : Out :=
  act s (on ((s.out c.val).foldEnd = true) fun s =>
    (s.setOut c.val { s.out c.val with foldEnd := false, foldTemp := false, limitFrom := s.osc, limitOut := none }).wr
      .OUT_STATUS_FOLDBACK 0 c.val)

/-- `OVERTEMP` (R204). -/
def execOvertemp (c : Chan) (s : State) : Out :=
  act s (on (s.rd .OUT_STATUS_HIGHZ c.val = 0 ∧ s.rd .OUT_STATUS_OVERTEMP c.val = 0) fun s =>
    raise .out c.val 9 ((((s.setOut c.val { s.out c.val with foldFrom := s.osc, foldTemp := true, foldEnd := false }).wr
      .OUT_STATUS_FOLDBACK 1 c.val).wr .OUT_STATUS_OVERTEMP 1 c.val).inc .OUT_SC_CNT_OVERTEMPS c.val))

/-- `OVERTEMP_CLEAR` (R204): the stage is below 145 °C; a held clear acts. -/
def execOvertempClear (c : Chan) (s : State) : Out :=
  act s (on (s.rd .OUT_STATUS_OVERTEMP c.val = 1) fun s =>
    let o := s.out c.val
    (s.setOut c.val { o with foldTemp := false, clearHeld := false, foldEnd := o.foldEnd || o.clearHeld }).wr
      .OUT_STATUS_OVERTEMP 0 c.val)

/-! ### The record (R205–R207) -/

/-- Read channel c's record into its working copies and check it (R205, R206). -/
def loadRecord (c : Nat) (s : State) : State :=
  let r := (s.out c).record
  let z (n : Nat) : Nat := if r.bad then 0 else n
  let s1 := ((((s.wr .OUT_NV_WAKE_VAL (z r.wake) c).wr .OUT_NV_WAKE_SPAN (z r.wakeSpan) c).wr .OUT_NV_FAULT_VAL (z r.fault) c).wr
    .OUT_NV_SAFE_VAL (z r.safe) c).wr .OUT_STAGECTL_PREFER (z r.prefer) c
  let s2 := s1.setOut c { s1.out c with wakeVal := z r.wake % 2 ^ 21, wakeSpan := z r.wakeSpan % 8 }
  if r.bad then disturb c (raise .out c 8 (((s2.wr .OUT_STATUS_NVM_BAD 1 c).wr .OUT_STATUS_HIGHZ 1 c).wr .OUT_NVM_STAT_ERR 2 c)) else s2

/-- A write of NVM_CMD (R206). -/
def writeNvmCmd (m c v : Nat) (s : State) : State :=
  let op := bits v 1 0
  if 2 < m then recordErr .out c errOwnerDenied m true (0x64 / 4) s
  else if bits v 15 8 ≠ 0xA5 then s.wr .OUT_NVM_STAT_ERR 1 c
  else if op = 0 ∨ op = 3 ∨ s.rd .OUT_NVM_STAT_BUSY c = 1 then s
  else { (s.setOut c { s.out c with nvmOp := op }).wr .OUT_NVM_STAT_BUSY 1 c with nvmQueue := s.nvmQueue ++ [c] }

/-- `NVM_PROGRAM`: a write of NVM_CMD with OP = 1. -/
def execNvmProgram (m : Master) (c : Chan) (k : Byte) (s : State) : Out :=
  cmd s .out c.val 0x64 m (writeNvmCmd m.val c.val (1 + 256 * k.toNat))

/-- `NVM_RELOAD`: a write of NVM_CMD with OP = 2. -/
def execNvmReload (m : Master) (c : Chan) (k : Byte) (s : State) : Out :=
  cmd s .out c.val 0x64 m (writeNvmCmd m.val c.val (2 + 256 * k.toNat))

/-- The working copies as a record. -/
def workingRecord (s : State) (c : Nat) : NvRecord :=
  { wake := s.rd .OUT_NV_WAKE_VAL c, wakeSpan := s.rd .OUT_NV_WAKE_SPAN c, fault := s.rd .OUT_NV_FAULT_VAL c,
    safe := s.rd .OUT_NV_SAFE_VAL c, prefer := s.rd .OUT_STAGECTL_PREFER c, programs := (s.out c).record.programs + 1,
    bad := false }

/-- The end of a PROGRAM (R206); `ok` when the read-back verifies. -/
def programDone (c : Nat) (ok : Bool) (s : State) : State :=
  let r := (s.out c).record
  if 100000 ≤ r.programs then s.wr .OUT_NVM_STAT_ERR 3 c
  else
    let r' : NvRecord := if ok then workingRecord s c else { r with programs := r.programs + 1 }
    ((s.setOut c { s.out c with record := r' }).wr .OUT_NVM_STAT_CYCLES (min 65535 (r'.programs / 2)) c).wr
      .OUT_NVM_STAT_ERR (if ok then 0 else 2) c

/-- Both stages of channel c are marked failed (R200, R211). -/
def bothFailed (s : State) (c : Nat) : Bool := s.rd .OUT_STAGE_STAT_A_FAILED c == 1 && s.rd .OUT_STAGE_STAT_B_FAILED c == 1

/-- The output ramps from 0 V to the wake value (R216 steps 5 and 6). -/
def riseWake (c : Nat) (s : State) : State :=
  let span := spanNow s c
  showVolt c (s.out c).wakeVal
    (s.setOut c { s.out c with slewUntil := s.osc + slewTicks span (spanScale span).2.toNat (s.out c).wakeVal })

/-- The end of a RELOAD (R205, R206): after a good load a channel held by NVM_BAD leaves high impedance for its wake value. -/
def reloadDone (c : Nat) (ok : Bool) (s : State) : State :=
  let o := s.out c
  let wake := (o.wakeVal, o.wakeSpan)
  let s1 := loadRecord c (s.setOut c { o with record := { o.record with bad := o.record.bad || !ok } })
  if (s1.out c).record.bad then s1
  else
    let s2 := s1.wr .OUT_NVM_STAT_ERR 0 c
    if s.rd .OUT_STATUS_NVM_BAD c = 1 then
      riseWake c ((((s2.wr .OUT_STATUS_NVM_BAD 0 c).wrIf (!bothFailed s c) .OUT_STATUS_HIGHZ 0 c)).wr
        .OUT_STATUS_SPAN_NOW (s2.out c).wakeSpan c)
    else s2.setOut c { s2.out c with wakeVal := wake.1, wakeSpan := wake.2 }

/-- `NVM_DONE`: the operation at the front of the device's order ends. -/
def execNvmDone (c : Chan) (ok : Bool) (s : State) : Out :=
  act s (on (s.nvmQueue.head? = some c.val) fun s =>
    let op := (s.out c.val).nvmOp
    let s1 : State := { s.setOut c.val { s.out c.val with nvmOp := 0 } with nvmQueue := s.nvmQueue.tail }
    let s2 := if op = 1 then programDone c.val ok s1 else reloadDone c.val ok s1
    raise .out c.val 8 ((s2.wr .OUT_NVM_STAT_BUSY 0 c.val).wr .OUT_NVM_STAT_DONE 1 c.val))

/-- A write of NV_WAKE, NV_FAULT or NV_SAFE, by offset (R206, R207). -/
def writeNvValue (m c off v : Nat) (s : State) : State :=
  if 2 < m then recordErr .out c errOwnerDenied m true (off / 4) s
  else if off = 0x58 then
    let s1 := s.wr .OUT_NV_WAKE_VAL v c
    if 6 ≤ bits v 26 24 then s1 else s1.wr .OUT_NV_WAKE_SPAN (bits v 26 24) c
  else if off = 0x5C then
    let s1 := s.wr .OUT_NV_FAULT_VAL v c
    if (s.out c).faulted ∧ quadRuns s c = false ∧ outEnabled s c then
      showVolt c (bits v 20 0) (s1.setOut c { s1.out c with faultVal := bits v 20 0 })
    else s1
  else s.wr .OUT_NV_SAFE_VAL v c

/-- `NV_VALUE_WRITE`: 0 NV_WAKE, 1 NV_FAULT, 2 NV_SAFE. -/
def execNvValueWrite (m : Master) (c : Chan) (which : Fin 3) (v : Word) (s : State) : Out :=
  cmd s .out c.val (0x58 + 4 * which.val) m (writeNvValue m.val c.val (0x58 + 4 * which.val) v.toNat)

/-! ### Enable and reset of a channel (R217) -/

/-- The channel shows its wake value on the wake span, or is on the way there. -/
def atWake (s : State) (c : Nat) : Bool :=
  let o := s.out c
  !outEnabled s c && (o.toWake || (o.spanPhase == .none && o.wakeSpan == spanNow s c))

/-- A write of OUT CTRL.ENABLE (R211, R217): 0 takes the channel to its wake value, from wherever it is; 1 lets it show its fault value
where a source is active, or the codes of its edges from the next one on. -/
def writeOutEnable (c : Nat) (en : Bool) (s : State) : State :=
  let s1 := s.wr .CTRL_ENABLE (if en then 1 else 0) c (Page.code .out)
  if en then
    if outEnabled s c then s1
    else if (s.out c).faulted then showFault c s1
    else s1.setOut c { s1.out c with rejoin := true }
  else if atWake s c then s1
  else goWake c (refreshFallback c s1)

/-- `OUT_ENABLE_WRITE`. -/
def execOutEnableWrite (m : Master) (c : Chan) (en : Bool) (s : State) : Out :=
  cmd s .out c.val 4 m (writeOutEnable c.val en)

/-- The reset of a channel (R217): stage failure marks and protection are kept. -/
def resetOut (c : Nat) (s : State) : State :=
  let o := s.out c
  let s1 := (((((s.wr .CTRL_ENABLE 0 c (Page.code .out)).wr .OUT_FAULT_STAT_SQ_UNDERRUN 0 c).wr .OUT_FAULT_STAT_REPEAT_FAIL 0 c).wr
    .OUT_FAULT_STAT_CORE_LOST 0 c).wr .OUT_FAULT_STAT_WATCHDOG 0 c).wr .OUT_FAULT_STAT_FORCED 0 c
  let s2 := (s1.wr .OUT_FAULT_CTL_FORCE 0 c).setOut c { o with
    faulted := false, forceReq := none, lostReq := false, rejoin := false, strobed := none, spanPend := none, spanPhase := .none,
    toWake := false, underruns := 0 }
  let s3 := if o.faulted then raise .out c 11 (refreshFallback c s2) else s2
  goWake c (loadRecord c (s3.wr .OUT_STATUS_SPAN_BUSY 0 c))

/-- Cancel a pending commit of a page (R415, R422). -/
def dropCommits (p : Page) (inst : Nat) (s : State) : State :=
  { s.wr .SHADOW_CMD_PENDING 0 inst p.code with commits := s.commits.filter (fun x => !(x.page == p && x.inst == inst)) }

/-- `OUT_SOFT_RESET`. -/
def execOutSoftReset (m : Master) (c : Chan) (s : State) : Out :=
  cmd s .out c.val 4 m (fun s => resetOut c.val (dropCommits .out c.val s))

/-! ### Updates (R19, R190–R194) -/

/-- Take the oldest entry of the sample queue. -/
def popQueue (c : Nat) (s : State) : Option SqEntry × State :=
  match (s.out c).sq with
  | [] => (none, s)
  | e :: es => (some e, s.setOut c { s.out c with sq := es ++ (s.out c).inter.take 1, inter := (s.out c).inter.drop 1 })

/-- Codes move on into the sample queue as far as it has room (R12). The first goes into an empty input latch of a bound channel, which
holds the code of the next edge (R190). -/
def OutChan.fill (bound : Bool) (o : OutChan) : OutChan :=
  let all := o.sq ++ o.inter
  match bound && o.latch.isNone, all with
  | true, e :: es => { o with latch := some e, sq := es.take 8, inter := es.drop 8 }
  | _, _ => { o with sq := all.take 8, inter := all.drop 8 }

/-- Refill the sample queue of channel c from what has been computed. -/
def fillQueue (c : Nat) (s : State) : State := s.setOut c ((s.out c).fill (s.rd .OUT_STATUS_GANG_ACTIVE c == 1))

/-- Codes that channel c has produced. -/
def pushCodes (c : Nat) (es : List SqEntry) (s : State) : State :=
  fillQueue c (s.setOut c { s.out c with inter := (s.out c).inter ++ es })

/-- An underrun tick (R19, R194): the code that belonged to it is dropped when it is produced. -/
def underrunTick (c : Nat) (s : State) : State :=
  let e := s.cse c
  let s1 := s.setCse c { e with dropCodes := e.dropCodes + 1 }
  if outEnabled s c then
    raise .out c 0 ((s1.setOut c { s1.out c with underruns := (s1.out c).underruns + 1 }).inc .OUT_SQ_UCNT_COUNT c)
  else s1

/-- Markers and pattern pins of an entry at its edge (R84, R192). -/
def entrySignals (c : Nat) (e : SqEntry) (s : State) : State :=
  let s1 := match e.marks with
    | some (a, b) => setMarkers c a b s
    | none => s
  patternBits c e.patId e.pins s1

/-- The DAC register takes a code, where it takes codes. -/
def dacTake (c code : Nat) (s : State) : State :=
  if takesCodes s c then s.setOut c { s.out c with dac := code } else s

/-- Requests that wait for the sample edge: FORCED, local sensing, a new fault value (R201, R207, R208). -/
def edgeRequests (c : Nat) (s : State) : State :=
  let o := s.out c
  let s1 := match o.forceReq with
    | some f => s.wr .OUT_FAULT_STAT_FORCED (if f then 1 else 0) c
    | none => s
  let s2 := if o.localReq then s1.wr .OUT_STATUS_SENSE_LOCAL 1 c else s1
  let s2b := if o.lostReq then setCoreLost c 1 s2 else s2
  let s3 := s2b.setOut c { o with forceReq := none, localReq := false, lostReq := false }
  if o.faulted ∧ o.faultVal ≠ s.rd .OUT_NV_FAULT_VAL c ∧ outEnabled s c then
    showVolt c (s.rd .OUT_NV_FAULT_VAL c) (s3.setOut c { s3.out c with faultVal := s.rd .OUT_NV_FAULT_VAL c })
  else s3

/-- A bound channel whose DAC register has come back to codes takes its latch at this edge (R209, R213). -/
def takeLatch (c : Nat) (e : SqEntry) (s : State) : State :=
  if (s.out c).rejoin ∧ takesCodes s c then s.setOut c { s.out c with dac := e.code, rejoin := false } else s

/-- Channel c at an edge of its quad. In QUEUE mode the DAC register takes the code of this edge. In GANG mode the input latch
holds the code of this edge, and the code of the next one moves into it (R190). -/
def chanEdge (c : Nat) (s0 : State) : State :=
  let s := edgeRequests c s0
  let o := s.out c
  if s.rd .OUT_STATUS_GANG_ACTIVE c = 1 then
    let s1 := match o.latch with
      | some e => takeLatch c e (entrySignals c e s)
      | none => s
    match popQueue c s1 with
    | (some e, t) => t.setOut c { t.out c with latch := some e, underruns := 0 }
    | (none, t) => underrunTick c t
  else
    match o.latch with
    | some e => dacTake c e.code (entrySignals c e (s.setOut c { o with latch := none, underruns := 0, rejoin := false }))
    | none =>
      match popQueue c s with
      | (some e, t) => dacTake c e.code (entrySignals c e (t.setOut c { t.out c with underruns := 0, rejoin := false }))
      | (none, t) => underrunTick c t

/-- A sample edge of quad q. -/
def quadEdge (q : Nat) (s : State) : State :=
  let n := (s.clock q).next
  let s1 := each (chansOf q) chanEdge s
  (s1.wr64 .QCLK_SAMPLE_LO_N_LO .QCLK_SAMPLE_HI_N_HI n q).setClock q { s1.clock q with next := n + 1 }

/-- `QUAD_SAMPLE_EDGE` (R19): the next edge of a running quad clock. -/
def execQuadSampleEdge (q : Quad) (s : State) : Out := act s (on ((s.clock q.val).running = true) (quadEdge q.val))

/-- Bind a channel to its strobe at a commit of UPDCTL (R191): the input latch takes the code of this edge. -/
def bindUpdate (c mode k : Nat) (s : State) : State :=
  if mode = 0 then s.wr .OUT_STATUS_GANG_ACTIVE 0 c
  else if s.rd .TBASE_GSTB_CFG_MODE 0 k = 0 ∨ rateMatched s (quadOf c) k = false then
    raise .out c 7 (s.wr .OUT_STATUS_GANG_ACTIVE 0 c)
  else
    let s1 := s.wr .OUT_STATUS_GANG_ACTIVE 1 c
    match (s.out c).latch, popQueue c s1 with
    | some _, _ => s1
    | none, (some e, t) => t.setOut c { t.out c with latch := some e }
    | none, (none, t) => t

/-- Channel c leaves its gang (R63, R191). -/
def leaveGang (c : Nat) (s : State) : State :=
  if s.rd .OUT_STATUS_GANG_ACTIVE c = 1 then raise .out c 7 (s.wr .OUT_STATUS_GANG_ACTIVE 0 c) else s

/-- A quad that is no longer rate-matched leaves PERIODIC gang k (R63). -/
def checkGang (q k : Nat) (s : State) : State :=
  let bound (c : Nat) : Bool := s.rd .OUT_STATUS_GANG_ACTIVE c == 1 && s.rdEff .OUT_UPDCTL_GSTB c == k
  if s.rd .TBASE_GSTB_CFG_MODE 0 k = 1 ∧ (chansOf q).any bound ∧ rateMatched s q k = false then
    raise .qclk q 5 (each ((chansOf q).filter bound) leaveGang s)
  else s

/-- A strobe at a bound channel: the DAC register takes the input latch; in a span-change sequence the code is kept for its release
(R214). -/
def strobeChan (c code : Nat) (s : State) : State :=
  if s.rd .OUT_STATUS_SPAN_BUSY c = 1 ∧ outEnabled s c ∧ (s.out c).faulted = false then s.setOut c { s.out c with strobed := some code }
  else dacTake c code s

/-- Strobe k issues (R62, R190): every bound DAC register takes its input latch, and its pins pulse. The DAC registers of a quad whose clock
does not run hold their codes (R55, R218). -/
def issueStrobe (k : Nat) (s : State) : State :=
  let s1 := each (upTo 48) (fun c s =>
    if s.rd .OUT_STATUS_GANG_ACTIVE c = 1 ∧ s.rdEff .OUT_UPDCTL_GSTB c = k ∧ quadRuns s c then
      match (s.out c).latch with
      | some e => strobeChan c e.code s
      | none => s
    else s) s
  strobePins k (s1.wr .TBASE_GSTB_STAT_STROBES (s.rd .TBASE_GSTB_STAT_STROBES 0 k + 1) 0 k)

end Sys2Proof.Machine
end

