-- ==== Sys2Proof/Machine/Burnish.lean ====
section
/-! DEFINITION. Burnish (R220–R240): rotations, calibration, failover, host capture and the records. The results of the sense ADC are
operands of the commands that end a window. BURNISH event bits: 0 ROT_DONE, 1 CAL_FAIL, 2 MATCH_FAIL, 3 CAP_END, 4 NVM_SAVED, 5 REF_FAULT,
6 PAUSE_RESTART, 7 MAP_BAD. SPARE event bits: 0 HANDOVER, 1 FAILOVER, 2 RETIRED, 3 NO_SPARE. -/

namespace Sys2Proof.Machine

/-! ### Cores (R220–R222) -/

/-- The position of tier t whose selector connects the spare, if any (R221). -/
def covered (s : State) (t : Nat) : Option Nat := (upTo 12).find? (fun p => s.rd .OUT_STATUS_CORE_SPARE (12 * t + p) == 1)

/-- Write the SPARE fields of STATUS for a core in SPARE, or 15 for none. -/
def setSpare (t k : Nat) (s : State) : State :=
  let s1 := (s.wr .SPARE_STATUS_SPARE_CORE k t).wr .SPARE_STATUS_SPARE_FREE (if k = 15 then 0 else 1) t
  if k = 15 then s1 else s1.setTier t { s1.tier t with noSpare := false }

/-- The tier has no core in SPARE: NO_SPARE, once until it has one again (R235). -/
def noSpareEvent (t : Nat) (s : State) : State :=
  if (s.tier t).noSpare then s else raise .spare t 3 (s.setTier t { s.tier t with noSpare := true })

/-- Write CAL_CORE. -/
def setCal (t k : Nat) (s : State) : State := s.wr .SPARE_STATUS_CAL_CORE k t

/-- The core map has changed: written at once, or with the next coalesced write (R239). -/
def touchMap (t : Nat) (urgent : Bool) (s : State) : State :=
  s.setTier t { s.tier t with mapDirty := true, mapUrgent := (s.tier t).mapUrgent || urgent }

/-! ### Visits (R223–R227) -/

/-- A visit on position p can go on (R225); a capture is judged apart. -/
def visitOk (s : State) (t p : Nat) : Bool :=
  let c := 12 * t + p
  s.rd .OUT_STATUS_SPAN_BUSY c == 0 && rank s c != 3 && s.rd .OUT_STATUS_HIGHZ c == 0 && quadRuns s c

/-- The next position to visit (R227): in ascending order, skipping excluded and SUSPECT ones and those that R225 excludes. -/
def nextVisit (s : State) (t : Nat) : Option Nat :=
  (((upTo 12).map (fun i => ((s.tier t).nextPos + i) % 12))).find? (fun p =>
    s.rd .SPARE_SKIP_EXCLUDE t 0 p == 0 && s.rd .SPARE_SKIP_SUSPECT t 0 p == 0 && visitOk s t p && !capturing s t)

/-- A rotation of tier t is due (R227). -/
def rotationDue (s : State) (t : Nat) : Bool :=
  burnishActs s && s.rd .BURNISH_BCFG_AUTO == 1 && s.rd .BURNISH_BCFG_TIER_EN 0 0 t == 1 && visitPos s t == 15 &&
  decide ((s.tier t).since + s.rd .BURNISH_INTERVAL_MS * Config.ticksPerMs ≤ s.osc)

/-- A sense sample of tier t as the fit takes it (R228). -/
def sensed (s : State) (t : Nat) (a : SenseSample) : SensePoint :=
  sensePoint s.vref (s.rd .BURNISH_BCFG_DITHER_EN == 1) (s.tier t).frames a

/-- The deviations of the output taps that Burnish measures while it only monitors (R235). -/
def setMonitor (t : Nat) : Nat → List (List SenseSample) → State → State
  | _, [], s => s
  | p, tap :: rest, s =>
    let f := monitorFit (tap.map (sensed s t))
    setMonitor t (p + 1) rest (writeField16 .SPARE_MON_DEV_GAIN f.2 t p (writeField16 .SPARE_MON_DEV_OFFSET f.1 t p s))

/-- `ROTATION_START`: the rotation of tier t is due. Without a core in SPARE none starts: Burnish monitors, with the samples `mon` of the
output taps 0 to 11, and NO_SPARE is raised once (R235). -/
def execRotationStart (t : Tier) (mon : List (List SenseSample)) (s : State) : Out :=
  act s (on (rotationDue s t.val = true) fun s =>
    if spareCore s t.val = 15 then noSpareEvent t.val (setPhase t.val 9 (setMonitor t.val 0 (mon.take 12) s))
    else if tierIdle s t.val then
      match nextVisit s t.val with
      | some p => startVisit t.val p s
      | none => s
    else s)

/-- A write of VISIT_REQ with GO = 1. -/
def visitRequest (m t p : Nat) (s : State) : State :=
  if spareCore s t = 15 then actionErr .spare t errSpareInUse m s
  else if 12 ≤ p then s
  else takeVisitReq t (s.setTier t { s.tier t with visitReq := some p })

/-- `VISIT_REQ`. -/
def execVisitReq (m : Master) (t : Tier) (p : Fin 16) (s : State) : Out :=
  cmd s .spare t.val 0x54 m (visitRequest m.val t.val p.val)

/-- Quad of the position visited. -/
def visitQuad (s : State) (t : Nat) : Nat := quadOf (12 * t + visitPos s t)

/-- Shadowing starts (again) at the next edge of the channel's quad. -/
def shadow (t : Nat) (s : State) : State := setPhase t 1 (s.setTier t { s.tier t with n0 := (s.clock (visitQuad s t)).next })

/-- `SHADOW_START`: edge n0 is the next edge of the channel's quad. -/
def execShadowStart (t : Tier) (s : State) : Out :=
  act s (on (visitPos s t.val < 12 ∧ spPhase s t.val = 0 ∧ spareFree s t.val = true ∧ burnishActs s = true ∧
      capturing s t.val = false) fun s =>
    if visitOk s t.val (visitPos s t.val) then shadow t.val s else cancelVisit t.val s)

/-- `MATCH_START`: edge n0 + 1. -/
def execMatchStart (t : Tier) (s : State) : Out :=
  act s (on (spPhase s t.val = 1 ∧ capturing s t.val = false) fun s =>
    if visitOk s t.val (visitPos s t.val) = false then cancelVisit t.val s
    else if (s.tier t.val).n0 < (s.clock (visitQuad s t.val)).next then enterWindow t.val 2 s else s)

/-! ### Failover (R233–R235) -/

/-- CORE_LOST of a channel from its next edge; at once while its quad clock is stopped (R234). -/
def loseCore (c : Nat) (s : State) : State :=
  if quadRuns s c then s.setOut c { s.out c with lostReq := true } else setCoreLost c 1 s

/-- The covered channel's calibration is abandoned (R233): its core is on its last-good trims at once and goes back 20 µs later. -/
def abandonCal (t : Nat) (s : State) : State :=
  let s1 := restoreTrim t (calCore s t) (setPhase t 0 s)
  (s1.setTier t { s1.tier t with abandonFrom := some s.osc, paused := none, window := [] }).wr .BURNISH_STATUS_ROTATING 0 0 0 t

/-- A failover of the covered position: its spare fails. -/
def spareFailing (t cause : Nat) (retire : Bool) (s : State) : State :=
  let s1 := s.setTier t { s.tier t with spareFails := some (cause, retire) }
  if (s.tier t).abandonFrom.isNone then abandonCal t s1 else s1

/-- A failover joins those that wait, in the order of detection; a second one of a position is part of the first. -/
def queueFailover (t d cause : Nat) (retire : Bool) (s : State) : State :=
  let x := s.tier t
  if x.failovers.any (fun f => f.pos == d) then
    s.setTier t { x with failovers := x.failovers.map (fun f => if f.pos = d then { f with retire := f.retire || retire } else f) }
  else s.setTier t { x with failovers := x.failovers ++ [⟨d, cause, retire, (s.clock (quadOf (12 * t + d))).next, s.osc⟩] }

/-- A failover of position d with a cause (R233): last row without a core in SPARE; the spare is freed from a visit first. -/
def requestFailover (t d cause : Nat) (retire : Bool) (s : State) : State :=
  let c := 12 * t + d
  if spareCore s t = 15 then loseCore c (wake 5 s)
  else
    let s1 := (if cause = 1 then loseCore c (wake 5 s) else wake 5 s).wr .SPARE_STATUS_FAILOVER_BUSY 1 t
    if covered s t = some d then spareFailing t cause retire s1
    else
      let s2 := queueFailover t d cause retire s1
      if (covered s t).isSome then (if (s.tier t).abandonFrom.isNone then abandonCal t s2 else s2)
      else if calCore s t ≠ 15 then s2
      else endVisit t s2

/-- Retire core k (R231, R233). -/
def retireCore (t k : Nat) (s : State) : State :=
  raise .spare t 2 ((setRole t k 3 s).inc .SPARE_FAIL_CNT_RETIRES t)

/-- Failovers that find no core in SPARE show the fault value (R235). -/
def failLeft (t : Nat) (s : State) : State :=
  if spareCore s t = 15 then
    (each (s.tier t).failovers (fun f => loseCore (12 * t + f.pos)) (s.setTier t { s.tier t with failovers := [] })).wr
      .SPARE_STATUS_FAILOVER_BUSY 0 t
  else s.wr .SPARE_STATUS_FAILOVER_BUSY (if (s.tier t).failovers.isEmpty then 0 else 1) t

/-- The core in CAL is retired while it is covered: the spare stays the LIVE own core of the covered position, and the tier has none
(R231, R233). -/
def retireCal (t : Nat) (s : State) : State :=
  let k := calCore s t
  let p := visitPos s t
  let x := s.tier t
  let s1 := if x.hostCal then s
    else setSpare t 15 (setRole t (spareCore s t) 0 (setOwnCore t p (spareCore s t) (s.wr .OUT_STATUS_CORE_SPARE 0 (12 * t + p))))
  let s2 := endVisit t (setCal t 15 (retireCore t k s1))
  let s3 := s2.setTier t { s2.tier t with abandonFrom := none, spareFails := none }
  let s4 := failLeft t (noSpareEvent t (touchMap t true s3))
  if x.spareFails.isSome then loseCore (12 * t + p) s4 else s4

/-- A spare that drives no pin is retired. -/
def retireSpare (t : Nat) (s : State) : State :=
  let k := spareCore s t
  let s1 := if visitPos s t = 15 then s else endVisit t s
  failLeft t (noSpareEvent t (touchMap t true (setSpare t 15 (retireCore t k s1))))

/-- `CORE_HEALTH_FAULT`: the monitor of core k of tier t reports a fault. An idle or shadowing spare that fails is retired. -/
def coreFault (t k : Nat) (s : State) : State :=
  match coreRole s t k with
  | 0 => match (upTo 12).find? (fun p => ownCore s t p == k) with
    | some p => requestFailover t p 1 true s
    | none => s
  | 1 => match covered s t with
    | some p => requestFailover t p 1 true s
    | none => retireSpare t s
  | 2 => retireCal t s
  | _ => s

/-- `CORE_HEALTH_FAULT`. -/
def execCoreHealthFault (t : Tier) (k : Fin 13) (s : State) : Out := act s (coreFault t.val k.val)

/-- A write of FAILOVER_REQ with REQ = 1 (R233, R235). -/
def hostFailover (m t p : Nat) (retire : Bool) (s : State) : State :=
  if spareCore s t = 15 then actionErr .spare t errSpareInUse m s
  else if 12 ≤ p then s
  else requestFailover t p 3 retire s

/-- `FAILOVER_REQ`. -/
def execFailoverReq (m : Master) (t : Tier) (p : Fin 16) (retire : Bool) (s : State) : Out :=
  cmd s .spare t.val 0x50 m (hostFailover m.val t.val p.val retire)

/-- Count and record a failover of position p from core k. -/
def recordFailover (t p k cause : Nat) (s : State) : State :=
  raise .spare t 1 ((((s.inc .SPARE_FAIL_CNT_FAILOVERS t).wr .SPARE_LAST_FAIL_POS p t).wr .SPARE_LAST_FAIL_CORE k t).wr
    .SPARE_LAST_FAIL_CAUSE cause t)

/-- The displaced core k (R233): retired, or in CAL after a HOST failover with RETIRE = 0. -/
def displace (t p k : Nat) (retire : Bool) (s : State) : State :=
  if retire then retireCore t k s
  else enterWindow t 4 ((setCal t k (setRole t k 2 (s.setTier t { s.tier t with hostCal := true }))).wr .SPARE_STATUS_VISIT_POS p t)

/-- The edge or the step of 2 µs after the one on which the spare is fed (R233, R234). -/
def failoverReady (s : State) (t : Nat) (f : Failover) : Bool :=
  let q := quadOf (12 * t + f.pos)
  spareCore s t != 15 && (s.tier t).abandonFrom.isNone && (covered s t).isNone &&
  (if (s.clock q).running then decide (f.edge < (s.clock q).next) else decide (f.tick + 1600 ≤ s.osc))

/-- The selector of the failing position moves to the spare, which becomes its LIVE own core. -/
def failoverSwitch (t : Nat) (f : Failover) (s : State) : State :=
  let c := 12 * t + f.pos
  let k := ownCore s t f.pos
  let sp := spareCore s t
  let s1 := s.setTier t { s.tier t with failovers := (s.tier t).failovers.drop 1 }
  let s2 := setSpare t 15 (setRole t sp 0 (setOwnCore t f.pos sp s1))
  let s3 := displace t f.pos k f.retire ((setCoreLost c 0 s2).setOut c { (setCoreLost c 0 s2).out c with lostReq := false })
  failLeft t (touchMap t true (noSpareEvent t (recordFailover t f.pos k f.cause s3)))

/-- `FAILOVER_SWITCH`. -/
def execFailoverSwitch (t : Tier) (s : State) : Out :=
  act s fun s => match (s.tier t.val).failovers with
    | f :: _ => on (failoverReady s t.val f = true) (failoverSwitch t.val f) s
    | [] => s

/-- The first edge of the covered channel's quad at or after 20 µs; a step of 2 µs while it is stopped. -/
def abandonReady (s : State) (t : Nat) : Bool :=
  match (s.tier t).abandonFrom with
  | some a => decide (a + 8000 ≤ s.osc)
  | none => false

/-- The abandoned CAL core, on its last-good trims, takes its channel back; a covering spare that failed is displaced (R233). -/
def abandonEnd (t : Nat) (s : State) : State :=
  let p := visitPos s t
  let k := calCore s t
  let sp := spareCore s t
  let host := (s.tier t).hostCal
  let s1 := s.setTier t { s.tier t with abandonFrom := none, spareFails := none }
  let s2 := setCal t 15 (if host then setSpare t k (setRole t k 1 s1)
    else (setRole t k 0 s1).wr .OUT_STATUS_CORE_SPARE 0 (12 * t + p))
  let s3 := endVisit t (if host then s2 else setSpare t sp s2)
  match (s.tier t).spareFails with
  | some (cause, retire) =>
    let s4 := setCoreLost (12 * t + p) 0 (recordFailover t p sp cause s3)
    let s5 := s4.setOut (12 * t + p) { s4.out (12 * t + p) with lostReq := false }
    failLeft t (touchMap t true (noSpareEvent t (setSpare t 15 (displace t p sp retire s5))))
  | none =>
    let fed := (s3.tier t).failovers.map (fun f =>
      { f with edge := (s.clock (quadOf (12 * t + f.pos))).next, tick := s.osc })
    failLeft t (s3.setTier t { s3.tier t with failovers := fed })

/-- `CALIBRATION_ABANDON`. -/
def execCalibrationAbandon (t : Tier) (s : State) : Out := act s (on (abandonReady s t.val = true) (abandonEnd t.val))

/-- A write of BURNISH CTRL.ENABLE: 0 cancels visits and abandons calibrations; at 1 a visit that waits is taken. -/
def writeBurnishEnable (en : Bool) (s : State) : State :=
  let s1 := s.wr .CTRL_ENABLE (if en then 1 else 0) 0 (Page.code .burnish)
  if en then each (upTo 4) takeVisitReq s1
  else each (upTo 4) (fun t s =>
    if calCore s t ≠ 15 then (if (s.tier t).abandonFrom.isNone then abandonCal t s else s)
    else if visitPos s t ≠ 15 then endVisit t s else s) s1

/-! ### Match and calibration (R224, R226–R231) -/

/-- The spare is recalibrated after a failed fit: it measures on the position's codes while its role stays SPARE (R224; what PHASE shows is
DEDUCED, log 139). -/
def recalibrateSpare (t : Nat) (s : State) : State :=
  enterWindow t 4 (s.setTier t { s.tier t with retried := true, offline := true })

/-- The decision at the end of the match window on a and b × 2^19 in LSB, with the stage gain and offset found in steps (R224). -/
def matchDecision (t : Nat) (ab stage : Rat × Rat) (s : State) : State :=
  let p := visitPos s t
  let tol : Rat := max 1 (s.rd .BURNISH_MATCH_TOL_LSB)
  let worst := max (max ab.1 (-ab.1)) (max ab.2 (-ab.2))
  if visitOk s t p = false then cancelVisit t s
  else if worst ≤ tol then
    ((setPhase t 3 (s.setTier t { s.tier t with decided := some (s.osc + 800), stageFit := stage })).wr .SPARE_MATCH_RES_OFFSET
      (unsigned 16 (roundQ (ab.1 * 16))) t).wr .SPARE_MATCH_RES_GAIN (unsigned 16 (roundQ (ab.2 * 16))) t
  else if 64 * tol < worst then requestFailover t p 2 true (endVisit t s)
  else if (s.tier t).retried then cancelVisit t (raise .burnish 0 2 (s.wr .SPARE_SKIP_SUSPECT 1 t 0 p))
  else recalibrateSpare t s

/-- `MATCH_DECISION`: the match window is over; `taps` are its paired samples of the spare's and the own core's tap, `out` those of the
output tap. -/
def execMatchDecision (t : Tier) (taps : List (SenseSample × SenseSample)) (out : List SenseSample) (s : State) : Out :=
  act s (on (spPhase s t.val = 2 ∧ capturing s t.val = false ∧ windowOver s t.val = true) fun s =>
    matchDecision t.val (matchFit (taps.map (fun p => (sensed s t.val p.1, sensed s t.val p.2))))
      (stageFit (Store.get [] (s.tier t.val).models (spareCore s t.val)) (out.map (sensed s t.val))) s)

/-- The handover: the selector moves to the spare, the freed core enters CAL, and the stage trim of the span takes its step, at most 20 ppm
and 40 µV (R230). -/
def handover (t : Nat) (s : State) : State :=
  let p := visitPos s t
  let c := 12 * t + p
  let k := ownCore s t p
  let i := 8 * p + spanNow s c
  let fit := (s.tier t).stageFit
  let s1 := if s.rd .BURNISH_STATUS_REF_OK = 1 then
      (s.wr .SPARE_STAGE_TRIM_GAIN (stageLess (s.rd .SPARE_STAGE_TRIM_GAIN t i) 400 fit.1) t i).wr
        .SPARE_STAGE_TRIM_OFFSET (stageLess (s.rd .SPARE_STAGE_TRIM_OFFSET t i) 160 fit.2) t i
    else s
  let s2 := (setCal t k (setRole t k 2 s1)).wr .OUT_STATUS_CORE_SPARE 1 c
  raise .spare t 0 (enterWindow t 4 ((s2.wr .SPARE_STATUS_SPARE_FREE 0 t).setTier t
    { s2.tier t with decided := none, extended := false }))

/-- The next edge of the channel's quad is the first at or after the decision plus 2 µs, or a later one (R223 step 5). -/
def handoverDue (s : State) (t : Nat) : Bool :=
  let q := visitQuad s t
  match (s.tier t).decided with
  | some d => spPhase s t == 3 && decide (d ≤ s.osc) && decide (s.firstEdge q d ≤ (s.clock q).next) && !capturing s t
  | none => false

/-- `HANDOVER` of position p, whose own core is k. -/
def execHandover (t : Tier) (p : Fin 12) (k : Fin 13) (s : State) : Out :=
  act s (on (handoverDue s t.val = true ∧ visitPos s t.val = p.val ∧ ownCore s t.val p.val = k.val) fun s =>
    if visitOk s t.val (visitPos s t.val) then handover t.val s else cancelVisit t.val s)

/-- The core that the calibration loop works on: the one in CAL, or the spare of a failed match. -/
def calTarget (s : State) (t : Nat) : Nat := if (s.tier t).offline then spareCore s t else calCore s t

/-- The end of the MEASURE window: its samples join those of the part before an extension; extended once (R229). -/
def measureDone (t : Nat) (pts : List SensePoint) (s : State) : State :=
  let x := s.tier t
  let all := x.window ++ pts
  let s1 := s.setTier t { x with window := all, extended := true }
  if needsExtension (solveCore all) ∧ x.extended = false then s1 else setPhase t 5 (s1.setTier t { s1.tier t with extended := false })

/-- `CAL_MEASURE_DONE`: the window is over; `taps` are the samples of the core's tap in it. -/
def execCalMeasureDone (t : Tier) (taps : List SenseSample) (s : State) : Out :=
  act s (on (spPhase s t.val = 4 ∧ (s.tier t.val).abandonFrom.isNone ∧ windowOver s t.val = true) fun s =>
    measureDone t.val (taps.map (sensed s t.val)) s)

/-- RELEASE (R226): the roles swap. A core that came into CAL by a HOST failover becomes SPARE without a swap (R233). -/
def release (t : Nat) (s : State) : State :=
  let p := visitPos s t
  let k := calCore s t
  let sp := spareCore s t
  let s1 := if (s.tier t).hostCal then s
    else setRole t sp 0 (setOwnCore t p sp (s.wr .OUT_STATUS_CORE_SPARE 0 (12 * t + p)))
  let s2 := setSpare t k (setCal t 15 (setRole t k 1 s1))
  takeVisitReq t (raise .burnish 0 0 ((touchMap t false (endVisit t s2)).inc .BURNISH_ROT_CNT_COUNT))

/-- The recalibrated spare is back for the second match, unless a condition of R225 holds by now. -/
def matchAgain (t : Nat) (s : State) : State :=
  let s1 := setPhase t 0 (s.setTier t { s.tier t with offline := false, window := [], paused := none })
  if visitOk s1 t (visitPos s1 t) && !capturing s1 t && burnishActs s1 then shadow t s1 else cancelVisit t s1

/-- A failed calibration (R231, R233): last-good trims again; the second in a row, or one after a HOST failover, retires the core.
RELEASE follows. -/
def calFail (t : Nat) (s : State) : State :=
  let k := calTarget s t
  let x := s.tier t
  let n := Store.get 0 x.calFails k + 1
  let s1 := raise .burnish 0 1 ((restoreTrim t k s).setTier t { x with calFails := Store.set 0 x.calFails k n })
  if x.offline then (if 2 ≤ n then retireSpare t s1 else matchAgain t s1)
  else if 2 ≤ n ∨ x.hostCal then raise .burnish 0 0 ((retireCal t s1).inc .BURNISH_ROT_CNT_COUNT)
  else release t s1

/-- The end of SOLVE: the observed counts, and the trims of the core. -/
def calSolve (t : Nat) (s : State) : State :=
  let k := calTarget s t
  let pts := (s.tier t).window
  let es := applicable (solveCore pts)
  let s1 := (s.wr .SPARE_RESIDUAL_COVERAGE (observedElements pts).length t).wr .SPARE_RESIDUAL_LADDER_COV (observedLadder pts).length t
  match applySolution (s.rd .BURNISH_STATUS_REF_OK == 1) (lastGood s t k) es with
  | some x => enterWindow t 6 (applyTrim t k x s1)
  | none => calFail t s1

/-- `CAL_SOLVE_DONE` of core k: the normal equations of the window are solved. -/
def execCalSolveDone (t : Tier) (k : Fin 13) (s : State) : Out :=
  act s (on (spPhase s t.val = 5 ∧ calTarget s t.val = k.val ∧ (s.tier t.val).abandonFrom.isNone) (calSolve t.val))

/-- VERIFY on the errors that remain (R231). -/
def calVerify (t : Nat) (es : List Estimate) (s : State) : State :=
  let k := calTarget s t
  if verifyPasses es then
    let x := s.tier t
    let s1 := ((s.setTier t { x with
      good := Store.set {} x.good k (coreTrim s t k), models := Store.set [] x.models k (paramList es)
      verified := Store.set 0 x.verified k (s.osc + 1), calFails := Store.set 0 x.calFails k 0 }).wr
      .SPARE_RESIDUAL_INL_EST (inlEstimate es) t).inc .SPARE_CAL_COUNT_COUNT t k
    if x.offline then matchAgain t s1 else release t s1
  else calFail t s

/-- `CAL_VERIFY_DONE`: the window is over; `taps` are the samples of the core's tap in it. -/
def execCalVerifyDone (t : Tier) (taps : List SenseSample) (s : State) : Out :=
  act s (on (spPhase s t.val = 6 ∧ calTarget s t.val ≠ 15 ∧ (s.tier t.val).abandonFrom.isNone ∧ windowOver s t.val = true) fun s =>
    calVerify t.val (solveCore (taps.map (sensed s t.val))) s)

/-- A frame is due: 4096 samples of at least 500 ns after the one before, while the converter is Burnish's (R228, R236). -/
def frameDue (s : State) (t : Nat) : Bool :=
  burnishActs s && !capturing s t && (match (s.tier t).frameAt with | none => true | some a => decide (a + 4096 * 200 ≤ s.osc))

/-- The deviation d of V_REF from its factory value, as a fraction (R240). -/
def judgeReference (d : Rat) (s : State) : State :=
  let s1 := writeField16 .BURNISH_REF_DEV_PPM (d * (10 ^ 7 : Nat)) 0 0 s
  let mag := max d (-d)
  if 2 / (10 ^ 4 : Nat) < mag ∧ s.rd .BURNISH_STATUS_REF_OK = 1 then raise .burnish 0 5 (s1.wr .BURNISH_STATUS_REF_OK 0)
  else if mag ≤ 15 / (10 ^ 5 : Nat) then s1.wr .BURNISH_STATUS_REF_OK 1
  else s1

/-- A frame is taken: the samples from here on are converted by it. -/
def takeRefFrame (t : Nat) (f : RefFrame) (s : State) : State :=
  judgeReference (frameDeviation s.vref f)
    (s.setTier t { s.tier t with frames := f :: (s.tier t).frames, frameAt := some s.osc })

/-- `REFERENCE_FRAME` (R228, R240): 16 results of VREF and 16 of AGND, each with its dither. -/
def execReferenceFrame (f : FrameSamples) (s : State) : Out :=
  act s (on (frameDue s f.tier.val = true) fun s =>
    takeRefFrame f.tier.val (frameOf (s.rd .BURNISH_BCFG_DITHER_EN == 1) f.ref f.agnd) s)

/-! ### Host capture (R236, R237) -/

/-- The converter leaves Burnish for a capture (R225, R236): a visit in SHADOW is cancelled, a measuring window pauses, and a match
window, or the handover it led to, will start again from the window's beginning (DEDUCED, log 140). -/
def startCapture (t : Nat) (s : State) : State :=
  let s0 := if spPhase s t = 1 then cancelVisit t s else s
  let ph := spPhase s0 t
  let s1 := (s0.wr .BURNISH_STATUS_CAPTURING 1 0 0 t).wr .BURNISH_CAP_DONE_COUNT 0 0 t
  let s2 := s1.setTier t { s1.tier t with
    capWait := false, capAbort := false
    capAddr := s.rd .BURNISH_CAP_ADDR_LO_ADDR 0 t + 2 ^ 32 * s.rd .BURNISH_CAP_ADDR_HI_ADDR 0 t }
  if ph = 3 then setPhase t 2 (s2.setTier t { s2.tier t with decided := none }) else pauseWindow t s2

/-- A write of CAP_CTRL (R236, R237): one that names a comparator its writer does not own is rejected whole. -/
def writeCapCtrl (m t v : Nat) (s : State) : State :=
  if bit v 5 = 1 ∧ bit v 7 = 1 ∧ ownsLc s m (bits v 13 8) = false then
    recordErr .burnish 0 errOwnerDenied m true ((0x80 + 0x20 * t) / 4) s
  else
    let s1 := ((s.wr .BURNISH_CAP_CTRL_CAP_SRC (bits v 4 0) 0 t).wr .BURNISH_CAP_CTRL_AT_LC (bit v 7) 0 t).wr
      .BURNISH_CAP_CTRL_CAP_LC (bits v 13 8) 0 t
    let s2 := s1.wrIf (bit v 17 == 1) .BURNISH_CAP_CTRL_REFUSED 0 0 t
    let s3 := if bit v 5 = 0 then s2
      else if s.rd .BURNISH_CAP_CTRL_BUSY 0 t = 1 then s2.wr .BURNISH_CAP_CTRL_REFUSED 1 0 t
      else
        let b := s2.wr .BURNISH_CAP_CTRL_BUSY 1 0 t
        if bit v 7 = 1 then b.setTier t { b.tier t with capWait := true, capAbort := false } else startCapture t b
    if bit v 6 = 0 ∨ s3.rd .BURNISH_CAP_CTRL_BUSY 0 t = 0 then s3
    else if (s3.tier t).capWait then (s3.setTier t { s3.tier t with capWait := false }).wr .BURNISH_CAP_CTRL_BUSY 0 0 t
    else s3.setTier t { s3.tier t with capAbort := true }

/-- `CAPTURE_START`: a write of CAP_CTRL with START = 1; with AT_LC = 1 the capture begins when its comparator fires. -/
def execCaptureStart (m : Master) (t : Tier) (src : Fin 32) (atLc : Bool) (lc : Lc) (s : State) : Out :=
  cmd s .burnish 0 (0x80 + 0x20 * t.val) m
    (writeCapCtrl m.val t.val (src.val + 0x20 + (if atLc then 0x80 else 0) + 0x100 * lc.val))

/-- `CAPTURE_ABORT`: the capture ends at the next sample. -/
def captureAbort (t : Nat) (s : State) : State :=
  if s.rd .BURNISH_CAP_CTRL_BUSY 0 t = 0 then s
  else if (s.tier t).capWait then (s.setTier t { s.tier t with capWait := false }).wr .BURNISH_CAP_CTRL_BUSY 0 0 t
  else s.setTier t { s.tier t with capAbort := true }

/-- `CAPTURE_ABORT`. -/
def execCaptureAbort (m : Master) (t : Tier) (s : State) : Out := cmd s .burnish 0 (0x80 + 0x20 * t.val) m (captureAbort t.val)

/-- The capture ends (R237): a match window starts from its beginning, a paused window resumes (R236). -/
def endCapture (t : Nat) (s : State) : State :=
  let s1 := (s.wr .BURNISH_CAP_CTRL_BUSY 0 0 t).wr .BURNISH_STATUS_CAPTURING 0 0 0 t
  let s2 := if spPhase s t = 2 then s1.setTier t { s1.tier t with windowFrom := s.osc, windowDone := 0 } else s1
  raise .burnish 0 3 (resumeBurnish t s2)

/-- A capture sample is outstanding. -/
def captureMore (s : State) (t : Nat) : Bool :=
  capturing s t && !(s.tier t).capAbort && decide (s.rd .BURNISH_CAP_DONE_COUNT 0 t < s.rd .BURNISH_CAP_COUNT_COUNT 0 t)

/-- Write a sample under master 5; a denied write ends the capture (R237). -/
def captureSample (t : Nat) (x : BitVec 18) (s : State) : State :=
  let a := (s.tier t).capAddr
  if (inBench a 4 || inWave s a 4) && memAllowed s 5 .write a 4 then
    ((writeWords 5 4 a (leBytes 4 (x.signExtend 32).toNat) s).setTier t { s.tier t with capAddr := a + 4 }).wr
      .BURNISH_CAP_DONE_COUNT (s.rd .BURNISH_CAP_DONE_COUNT 0 t + 1) 0 t
  else endCapture t (recordErr .burnish 0 errRegionDenied 5 true 0 (denyMem 5 a 4 true s))

/-- `CAPTURE_SAMPLE`: the sense ADC of tier t converts `x`. -/
def execCaptureSample (t : Tier) (x : BitVec 18) (s : State) : Out :=
  act s (on (captureMore s t.val = true) (captureSample t.val x))

/-- `CAP_END`. -/
def execCapEnd (t : Tier) (s : State) : Out :=
  act s (on (capturing s t.val = true ∧ captureMore s t.val = false) (endCapture t.val))

/-! ### Records (R238, R239) -/

/-- A write of NVM_SAVE with SAVE_NOW = 1. -/
def saveNow (s : State) : State :=
  each (upTo 4) (fun t s => s.setTier t { s.tier t with mapUrgent := true })
    ({ s with trimDue := true }.wr .BURNISH_STATUS_NVM_SAVING 1)

/-- `BURNISH_SAVE_NOW`. -/
def execBurnishSaveNow (m : Master) (s : State) : Out := cmd s .burnish 0 0x58 m saveNow

/-- The map of a tier as a record of the next generation. -/
def mapRecord (s : State) (t gen : Nat) : MapRecord :=
  { map := (upTo 12).map (ownCore s t), roles := (upTo 13).map (coreRole s t),
    suspect := (upTo 12).map (fun p => s.rd .SPARE_SKIP_SUSPECT t 0 p), gen := gen % 2 ^ 16 }

/-- Generation b is not later than a, by serial number: a count of 16 bits wraps (R239; DEDUCED, log 141). -/
def genOrdered (b a : Nat) : Bool := decide ((a + 2 ^ 16 - b % 2 ^ 16) % 2 ^ 16 < 2 ^ 15)

/-- The copy of the record that counts (R238): the valid one of the later generation; true with copy A. -/
def validMap (x : TierState) : Option (Bool × MapRecord) :=
  let ok (r : Option MapRecord) : Option MapRecord := r.filter (fun y => !y.bad)
  match ok x.recA, ok x.recB with
  | some a, some b => some (if genOrdered b.gen a.gen then (true, a) else (false, b))
  | some a, none => some (true, a)
  | none, some b => some (false, b)
  | none, none => none

/-- Write the core-map record to the copy that does not count (R239). -/
def writeMap (t : Nat) (s : State) : State :=
  let x := s.tier t
  let last := validMap x
  let r := mapRecord s t ((last.map (fun p => p.2.gen)).getD 0 + 1)
  let toB := (last.map Prod.fst).getD false
  let s1 := s.setTier t { x with
    mapDirty := false, mapUrgent := false, mapSaved := s.osc
    recA := if toB then x.recA else some r
    recB := if toB then some r else x.recB }
  raise .burnish 0 4 s1

/-- `CORE_MAP_WRITE`: at once after a failover, a retirement or SAVE_NOW; otherwise at most once per 60 s; behind the OUT
operations (R239). -/
def execCoreMapWrite (t : Tier) (s : State) : Out :=
  act s (on (s.nvmQueue = [] ∧ ((s.tier t.val).mapUrgent = true ∨
    ((s.tier t.val).mapDirty = true ∧ (s.tier t.val).mapSaved + 60 * Config.ticksPerSecond ≤ s.osc))) (writeMap t.val))

/-- Save changed trims (R239). -/
def saveTrims (s : State) : State :=
  let s1 := each (upTo 4) (fun t s =>
    let x := s.tier t
    s.setTier t { x with
      nvGood := x.good
      nvStage := (upTo 96).foldl (fun m i =>
        Store.set (0, 0) m i (s.rd .SPARE_STAGE_TRIM_GAIN t i, s.rd .SPARE_STAGE_TRIM_OFFSET t i)) [] }) s
  raise .burnish 0 4 ({ s1 with trimSaved := s.osc, trimDue := false }.wr .BURNISH_STATUS_NVM_SAVING 0)

/-- `TRIM_SAVE_TIMER`: every SAVE_HOURS hours, or asked for by SAVE_NOW. -/
def execTrimSaveTimer (s : State) : Out :=
  act s (on (s.nvmQueue = [] ∧ (s.trimDue = true ∨ (s.rd .BURNISH_BCFG_SAVE_HOURS ≠ 0 ∧
    s.trimSaved + s.rd .BURNISH_BCFG_SAVE_HOURS * 3600 * Config.ticksPerSecond ≤ s.osc))) saveTrims)

/-- Roles and map of a record as a cold reset takes them (R220, R235): a core that was in CAL returns as SPARE, and the spare that covered
its position stays that position's own core. -/
def settled (r : MapRecord) : MapRecord :=
  match r.roles.findIdx? (· == 2), r.roles.findIdx? (· == 1) with
  | some k, some sp =>
    { r with map := r.map.map (fun x => if x = k then sp else x), roles := (r.roles.set k 1).set sp 0 }
  | some k, none => { r with roles := r.roles.set k 1 }
  | none, _ => r

/-- Put a record in force. -/
def putMap (t : Nat) (r : MapRecord) (s : State) : State :=
  let s1 := each (upTo 12) (fun p s => (setOwnCore t p (r.map.getD p p) s).wr .SPARE_SKIP_SUSPECT (r.suspect.getD p 0) t 0 p) s
  let s2 := each (upTo 13) (fun k s => setRole t k (r.roles.getD k 0) s) s1
  setSpare t ((r.roles.findIdx? (· == 1)).getD 15) s2

/-- The map of a device whose record has never been written (R222). -/
def shippedMap : MapRecord := { map := upTo 12, roles := (upTo 13).map (fun k => if k = 12 then 1 else 0), suspect := [], gen := 0 }

/-- Read the records of tier t (R222, R235, R238). MAP_BAD when a written record has no valid copy; a core in `badTrim` whose last-good
record fails uses its factory record. -/
def loadTier (badTrim : List Nat) (t : Nat) (s : State) : State :=
  let x := s.tier t
  let s1 := match validMap x with
    | some r => putMap t (settled r.2) s
    | none => if x.recA.isSome ∨ x.recB.isSome then raise .burnish 0 7 (putMap t shippedMap s) else putMap t shippedMap s
  let bad := (upTo 13).filter (fun k => badTrim.contains (13 * t + k))
  let s2 := s1.setTier t { s1.tier t with good := bad.foldl (fun g k => Store.set {} g k (Store.get {} x.factory k)) x.nvGood }
  let s3 := each (upTo 13) (fun k s => restoreTrim t k s) s2
  each (upTo 96) (fun i s =>
    let g := Store.get (0, 0) x.nvStage i
    (s.wr .SPARE_STAGE_TRIM_GAIN g.1 t i).wr .SPARE_STAGE_TRIM_OFFSET g.2 t i) s3

/-- A reset ends what a tier does; its roles and trims are kept (R393): a covered channel is back on its own core. -/
def resetTier (t : Nat) (s : State) : State :=
  let k := calCore s t
  let host := (s.tier t).hostCal
  let s1 := match covered s t with
    | some p => s.wr .OUT_STATUS_CORE_SPARE 0 (12 * t + p)
    | none => s
  let s2 := if k = 15 then s1
    else if host then setSpare t k (setRole t k 1 (restoreTrim t k s1))
    else setSpare t (spareCore s t) (setRole t k 0 (restoreTrim t k s1))
  let x := s2.tier t
  (endVisit t (setCal t 15 (s2.setTier t { x with
    failovers := [], abandonFrom := none, spareFails := none, visitReq := none, capWait := false, capAbort := false }))).wr
    .SPARE_STATUS_FAILOVER_BUSY 0 t

end Sys2Proof.Machine
end

