-- ==== Sys2Proof/Machine/Descriptors.lean ====
section
/-! DEFINITION. Which descriptor a CSE takes next, on which sample it applies, and what each kind does (R82–R92, R128–R130,
R160–R162, R170–R174). CSE event bits: 0 DESC_DISCARD, 1 DESC_LATE, 2 CLIP, 3 BUDGET, 4 OVERSPEED, 5 NYQ_FADE, 6 RAMP_PREEMPT,
7 IDLE_ENTER, 8 NOISE_SAT, 9 TRUNC, 10 RAMP_DONE. -/

namespace Sys2Proof.Machine

/-- The idle behaviour of a mode code (R172): 3 acts as 0. -/
def idleMode (v : Nat) : IdleMode :=
  match v with
  | 1 => .rest
  | 2 => .repeat_
  | _ => .hold

/-- The idle behaviour that IDLE_CFG selects for channel c. -/
def channelIdle (s : State) (c : Nat) : IdleMode := idleMode (s.rd .TACK_IDLE_CFG_MODE 0 c)

/-- REPEAT needs a descriptor whose COUNT is neither 0 nor open; otherwise it acts as HOLD (R173). A repeated IDLE descriptor gives its own
behaviour again, HOLD or REST. -/
def effectiveIdle (e : Cse) (m : IdleMode) : IdleMode :=
  match m, e.last with
  | .repeat_, some d =>
    if d.count = 0 ∨ d.count = openCount then .hold
    else if d.kind = 0 then (if bits d.flags 1 0 = 2 then .rest else .hold)
    else .repeat_
  | .repeat_, none => .hold
  | m, _ => m

/-! ### Which descriptor is next (R162, R171) -/

/-- A complete packet is in the queue. -/
def TackQueue.holds (t : TackQueue) : Bool := t.head.isSome || !t.cells.isEmpty

/-- A FENCE at priority p waits for a queue it names below it (R162). -/
def fenceWaits (s : State) (c p : Nat) (d : Descr) : Bool :=
  d.kind == 15 && (upTo p).any (fun j => bit d.flags j == 1 && (s.queue (4 * c + j)).holds)

/-- The packet that channel c takes next from the priorities below n, with its priority: a notice that is not fetched yet makes
the CSE wait, a FENCE that waits makes its queue count as empty. -/
def takeFrom (s : State) (c : Nat) : Nat → Option (Nat × Packet)
  | 0 => none
  | n + 1 =>
    let t := s.queue (4 * c + n)
    match t.head with
    | some p => if fenceWaits s c n p.descr then takeFrom s c n else some (n, p)
    | none => if t.cells.isEmpty then takeFrom s c n else none

/-- The packet that channel c takes next. -/
def nextTaken (s : State) (c : Nat) : Option (Nat × Packet) := takeFrom s c 4

/-- Some queue of the channel holds a packet. -/
def anyQueued (s : State) (c : Nat) : Bool := (upTo 4).any (fun p => (s.queue (4 * c + p)).holds)

/-! ### Due samples (R85, R86, R128–R130) -/

/-- The first synthesis sample at least the lead time after a packet was complete (R85, R86). -/
def leadDue (s : State) (q noticed : Nat) : Nat := s.firstSample q ((noticed + 1600 : Nat) : Instant) + 64

/-- The due sample of a held packet, where it is known (R128). -/
def heldDue (s : State) (q : Nat) (p : Packet) : Option Nat :=
  match p.hold with
  | .plain => none
  | .release t _ => some (s.firstSample q t)
  | .gang _ t => t.map (s.firstSample q)
  | .immediate t => some (s.firstSample q t)

/-- A release sample is never before that of the release-held descriptor before it (R130). -/
def releaseDue (e : Cse) (d : Nat) : Int :=
  match e.lastRel with
  | some r => max r d
  | none => d

/-- Due samples of the held descriptors that come later in queue order than the packet at priority n (R129). Of several held by release the
first is the earliest (R130). -/
def laterHeld (s : State) (c n : Nat) : List Int :=
  let q := quadOf c
  let later := (s.queue (4 * c + n)).cells ++
    ((upTo n).reverse.map fun j => (s.queue (4 * c + j)).head.toList ++ (s.queue (4 * c + j)).cells).flatten
  let gangs := later.filterMap fun p => match p.hold with
    | .gang _ _ => (heldDue s q p).map Int.ofNat
    | _ => none
  let release := later.findSome? fun p => match p.hold with
    | .release _ _ => (heldDue s q p).map (releaseDue (s.cse c))
    | _ => none
  release.toList ++ gangs

/-- The due sample of the packet that is taken next; none while its gang has not committed. -/
def dueOf (s : State) (c n : Nat) (p : Packet) : Option Int :=
  let q := quadOf c
  let e := s.cse c
  match p.hold with
  | .plain =>
    let base : Int := if e.vacant ∨ e.cur.count = openCount then (leadDue s q p.noticed : Nat) else e.due + e.cur.count
    some ((laterHeld s c n).foldl min base)
  | .release _ _ => (heldDue s q p).map (releaseDue e)
  | _ => (heldDue s q p).map Int.ofNat

/-! ### Applying -/

/-- A descriptor stands as the current one (R82, R87): `miss` samples late, with the idle behaviour it gives. -/
def stand (c : Nat) (p : Packet) (d : Descr) (due : Int) (miss : Nat) (idle : Option IdleMode) (last : Option Descr)
    (player : Option Nat) (s : State) : State :=
  let q := quadOf c
  let e := s.cse c
  let k : Int := ((s.wheel q).k : Nat)
  let held : Bool := match p.hold with
    | .release _ _ => true
    | _ => false
  let s1 := (packetCommits c s).setCse c { e with
    due := due, cur := d, vacant := false, idle := idle, last := last, lastRel := if held then some due else e.lastRel, curPlayer := player,
    repeatDue := due, appliedK := k, applied := if e.appliedK = k then e.applied + 1 else 1 }
  let s2 := ((((((s1.wr .CSE_STATUS_RUNNING 1 c).wr .CSE_STATUS_IDLE (if idle.isSome then 1 else 0) c).wr
    .CSE_STATUS_OPEN (if d.count = openCount then 1 else 0) c).wr .CSE_CUR_DESC_KIND d.kind c).wr
    .CSE_CUR_DESC_PRIO d.prio c).wr .CSE_CUR_DESC_SEQ d.seq c).wr .OUT_FAULT_STAT_REPEAT_FAIL 0 c
  let s3 := if miss = 0 then s2 else raise .cse c 1 (s2.inc .CSE_LATE_CNT_LATE c)
  if held ∧ due < (leadDue s q p.noticed : Nat) then raise .stitch q 7 s3 else s3

/-- Count and record a discarded descriptor (R174). -/
def countDiscard (c code : Nat) (s : State) : State :=
  raise .cse c 0 (recordErr .cse c code (20 + quadOf c) false 0 (s.inc .CSE_DISCARD_CNT_DISCARD c))

/-- Discard a descriptor and apply the substituted idle descriptor in its place (R174). -/
def discard (c : Nat) (p : Packet) (d : Descr) (due : Int) (miss code : Nat) (s : State) : State :=
  let e := s.cse c
  let sub : Descr := { prio := d.prio, seq := d.seq, count := if p.poison1 then openCount else d.count }
  stand c p sub due miss (some (effectiveIdle e (channelIdle s c))) e.last none (countDiscard c code s)

/-- A FENCE (R162): COUNT 0, and no source changes. It is the last descriptor applied, and under REPEAT a COUNT of 0 acts as HOLD (R173). -/
def takeFence (c : Nat) (p : Packet) (d : Descr) (due : Int) (miss : Nat) (s : State) : State :=
  let e := s.cse c
  let fence := { d with count := 0 }
  let s1 := stand c p fence due miss (e.idle.map (effectiveIdle { e with last := some fence })) (some fence) none s
  if bit d.flags 4 = 1 then raise .tack 0 5 (s1.wr .TACK_FENCE_LAST_CH c) else s1

/-- The FLAGS of an IDLE descriptor with its MODE resolved: 1 HOLD, 2 REST (R161). -/
def idleFlags (m : IdleMode) : Nat := if m = .rest then 2 else 1

/-- An IDLE descriptor (R161). It is the last descriptor applied (R173); one that repeats leaves what it repeats. -/
def takeIdle (c : Nat) (p : Packet) (d : Descr) (due : Int) (miss : Nat) (s : State) : State :=
  let e := s.cse c
  let m := effectiveIdle e (if bits d.flags 1 0 = 0 then channelIdle s c else idleMode (bits d.flags 1 0 - 1))
  stand c p d due miss (some m) (if m = .repeat_ then e.last else some { d with flags := idleFlags m }) none s

/-- A speed command of this sample already stands, from another channel of the quad, or a TALLY command is due on it (R68,
R92). -/
def speedTaken (s : State) (q c : Nat) : Bool :=
  let w := s.wheel q
  (match w.speedAt with
   | some (k, ch) => k == (w.k : Nat) && ch != c
   | none => false) ||
  (s.clock q).tally.any (fun t => decide (s.firstSample q t.due ≤ w.k))

/-- The effect of a SPEED descriptor on the wheel (R90). -/
def applySpeed (c : Nat) (d : Descr) (load : Bool) (miss : Nat) (s : State) : State :=
  speedCommand (quadOf c) c (bits d.flags 1 0) (bits d.c1 63 0) (bits d.c1 95 64) (bits d.c1 127 96)
    (if load ∧ bit d.flags 2 = 1 then some (bits d.c2 63 0) else none) miss s

/-- A SPEED descriptor: it applies to the quad's wheel, or is discarded in favour of another command (R68, R92). -/
def takeSpeed (c : Nat) (p : Packet) (d : Descr) (due : Int) (miss : Nat) (s : State) : State :=
  let q := quadOf c
  let w := s.wheel q
  if speedTaken s q c then raise .stitch q 2 (stand c p d due 0 none (s.cse c).last none s)
  else stand c p d due miss none (some d) none
    (applySpeed c d true miss (s.setWheel q { w with speedAt := some ((w.k : Nat), c) }))

/-- What the reads of a descriptor's header and, for PARTIALS, NOISE and PATTERN, of its body leave behind under the identity of the quad's
streamer: the record of one that a check rejects (R12, R24). -/
def noteSegment (c : Nat) (d : Descr) (s : State) : State :=
  let m := 20 + quadOf c
  if d.ok ∧ d.namesSegment ∧ d.segaddr % 32 = 0 ∧ segInSpace s d.segaddr 32 = true then
    let s1 := (memRead s m d.segaddr 32).2
    match fetchHeader s c d with
    | .ok h => if d.kind = 3 ∨ d.kind = 4 ∨ d.kind = 7 then noteRead m (d.segaddr + 32) h.bodyBytes s1 else s1
    | .error _ => s1
  else s

/-- A descriptor that sets sources (R83), on the main branch. -/
def takeSources (c : Nat) (p : Packet) (d : Descr) (due : Int) (miss : Nat) (s : State) : Option State :=
  let e := s.cse c
  let s1 := noteSegment c d s
  match applySources s1 c d miss e.src with
  | .wait => none
  | .bad code => some (discard c p d due miss code s1)
  | .done src ring trunc =>
    let s2 := (s1.setCse c { e with src := src }).setRing c ring
    let s3 := stand c p d due miss none (some d) (if d.kind = 1 ∨ d.kind = 2 then some d.player else none) s2
    some (if trunc then raise .cse c 9 s3 else s3)

/-- The CSE takes descriptors: enabled and its self-timed logic on (R415). -/
def cseTakes (s : State) (c : Nat) : Bool := s.rd .CTRL_ENABLE c (Page.code .cse) == 1 && (s.cse c).powered

/-- Take and apply the next descriptor of channel c on the next synthesis sample to be computed, other channels apart; none if there is
no descriptor to take on it. At most 16 apply on one sample (R82). -/
def takeAlone (s : State) (c : Nat) : Option State :=
  let e := s.cse c
  let k : Int := ((s.wheel (quadOf c)).k : Nat)
  if cseTakes s c = false ∨ (e.appliedK = k ∧ 16 ≤ e.applied) then none
  else match nextTaken s c with
  | none => none
  | some (n, p) =>
    match dueOf s c n p with
    | none => none
    | some due =>
      let d := p.descr
      let miss := (k - due).toNat
      if k < due then none
      else
        let s1 := s.setQueue (4 * c + n) { s.queue (4 * c + n) with head := none }
        if p.poison then some (discard c p d due miss errPoison s1)
        else match d.kind with
          | 0 => some (if d.ok then takeIdle c p d due miss s1 else discard c p d due miss errPoison s1)
          | 8 => some (if d.ok then takeSpeed c p d due miss s1 else discard c p d due miss errPoison s1)
          | 15 => some (if d.ok then takeFence c p d due miss s1 else discard c p d due miss errPoison s1)
          | _ => takeSources c p d due miss s1

/-- The KIND of the packet that channel c takes next. -/
def nextKind (s : State) (c : Nat) : Option Nat := (nextTaken s c).map (fun p => p.2.descr.kind)

/-- A SPEED of channel c waits while a lower channel position of the quad has a descriptor to take on the sample: of several SPEEDs on one
sample the lowest position's applies (R92). -/
def speedWaits (s : State) (c : Nat) : Bool :=
  nextKind s c == some 8 && (rangeFrom (4 * quadOf c) (c % 4)).any (fun j => (takeAlone s j).isSome)

/-- Take and apply the next descriptor of channel c on the next synthesis sample to be computed; none if there is none to take. -/
def takeStep (s : State) (c : Nat) : Option State := if speedWaits s c then none else takeAlone s c

/-- Take the next descriptor if it is of one of these kinds and is due. -/
def takeKind (kinds : List Nat) (c : Nat) (s : State) : State :=
  match nextKind s c with
  | some k => if k ∈ kinds then (takeStep s c).getD s else s
  | none => s

/-- `PLAY_TIME` (R100): the descriptor that channel c takes next, of this kind, applies on its sample. -/
def execPlayTime (c : Chan) (s : State) : Out := act s (takeKind [1] c.val)

/-- `PLAY_ANGLE` (R101). -/
def execPlayAngle (c : Chan) (s : State) : Out := act s (takeKind [2] c.val)

/-- `PARTIALS` (R95). -/
def execPartials (c : Chan) (s : State) : Out := act s (takeKind [3] c.val)

/-- `NOISE` (R104). -/
def execNoise (c : Chan) (s : State) : Out := act s (takeKind [4] c.val)

/-- `LEVEL` (R105). -/
def execLevel (c : Chan) (s : State) : Out := act s (takeKind [5] c.val)

/-- `DESC_RAMP` (R105). -/
def execDescRamp (c : Chan) (s : State) : Out := act s (takeKind [6] c.val)

/-- `PATTERN` (R84). -/
def execPattern (c : Chan) (s : State) : Out := act s (takeKind [7] c.val)

/-- `DESC_SPEED` (R90). -/
def execDescSpeed (c : Chan) (s : State) : Out := act s (takeKind [8] c.val)

/-- `DESC_MARK` (R84). -/
def execDescMark (c : Chan) (s : State) : Out := act s (takeKind [9] c.val)

/-- `IDLE` (R161). A descriptor of an invalid KIND, 10 to 14, is taken here too: the idle descriptor that is substituted for it
applies (R83, R174). -/
def execIdle (c : Chan) (s : State) : Out := act s (takeKind [0, 10, 11, 12, 13, 14] c.val)

/-- `FENCE` (R162). -/
def execFence (c : Chan) (s : State) : Out := act s (takeKind [15] c.val)

/-! ### What happens between descriptors -/

/-- The current COUNT has run out and no queue holds a further descriptor (R88, R129). -/
def idleDue (s : State) (c : Nat) : Bool :=
  let e := s.cse c
  !e.vacant && e.cur.count != openCount && decide (e.due + e.cur.count ≤ ((s.wheel (quadOf c)).k : Nat)) &&
  !anyQueued s c

/-- The channel becomes idle (R88, R172). -/
def enterIdle (c : Nat) (s : State) : State :=
  let e := s.cse c
  raise .cse c 7 (((s.setCse c { e with
    vacant := true, idle := some (effectiveIdle e (channelIdle s c)), repeatDue := ((s.wheel (quadOf c)).k : Nat),
    curPlayer := none }).wr .CSE_STATUS_IDLE 1 c).wr .CSE_STATUS_OPEN 0 c)

/-- `CHANNEL_IDLE_ENTER`. -/
def execChannelIdleEnter (c : Chan) (s : State) : Out := act s (on (idleDue s c.val = true) (enterIdle c.val))

/-- Change the main branch and the alternate branch of channel c. -/
def mapBranches (c : Nat) (f : Sources → Sources) (s : State) : State :=
  let e := s.cse c
  s.setCse c { e with src := f e.src, alt := e.alt.map f }

/-- Some branch of channel c satisfies p. -/
def someBranch (s : State) (c : Nat) (p : Sources → Bool) : Bool :=
  let e := s.cse c
  p e.src || (match e.alt with
    | some a => p a
    | none => false)

/-- A FINISH play has reached N + 32 (R100). -/
def Player.done (p : Player) : Bool :=
  p.active && !p.angle && p.fin == 3 && !p.finished && decide ((p.seg.n + 32) * 2 ^ 32 ≤ p.pos)

/-- Player n of a branch. -/
def Sources.player (src : Sources) (n : Nat) : Player := if n = 0 then src.p0 else src.p1

/-- Mark player n of a branch finished. -/
def Sources.finish (n : Nat) (src : Sources) : Sources :=
  if (src.player n).done then
    (if n = 0 then { src with p0 := { src.p0 with finished := true } } else { src with p1 := { src.p1 with finished := true } })
  else src

/-- A FINISH player completes (R100): the descriptor that started it ends, so the next is due on this sample. -/
def finishPlayer (c n : Nat) (s : State) : State :=
  let e := s.cse c
  let k : Int := ((s.wheel (quadOf c)).k : Nat)
  let ends := (e.src.player n).done && e.curPlayer == some n &&
    (e.cur.count == openCount || decide (k < e.due + e.cur.count))
  let s1 := mapBranches c (Sources.finish n) s
  let e1 := s1.cse c
  if ends then (s1.setCse c { e1 with cur := { e1.cur with count := (k - e1.due).toNat } }).wr .CSE_STATUS_OPEN 0 c else s1

/-- `PLAYER_FINISH`. -/
def execPlayerFinish (c : Chan) (p : Fin 2) (s : State) : Out :=
  act s (on (someBranch s c.val (fun src => (src.player p.val).done) = true) (finishPlayer c.val p.val))

/-- A slot set with OFF = 1 whose crossfade has ended (R95). -/
def Slot.offDue (sl : Slot) : Bool := sl.on && sl.off && decide (sl.xfade ≤ sl.j)

/-- Disable a slot of a branch whose fade has ended; its phase freezes (R96). -/
def Sources.disableSlot (i : Nat) (src : Sources) : Sources :=
  let sl : Slot := Store.get {} src.slots i
  if sl.offDue then
    { src with slots := Store.set {} src.slots i { sl with on := false, off := false, a0 := 0, a1 := 0, xfade := 0, j := 0 } }
  else src

/-- `SLOT_DISABLE`. -/
def execSlotDisable (c : Chan) (slot : Fin 32) (s : State) : Out :=
  act s (on (someBranch s c.val (fun src => (Store.get ({} : Slot) src.slots slot.val).offDue) = true)
    (mapBranches c.val (Sources.disableSlot slot.val)))

/-- A pattern whose entry's HOLD has run out and that has a next entry (R81). -/
def Sources.patDue (src : Sources) : Bool :=
  match src.pat with
  | some p => p.hold == 0 && (decide (p.idx + 1 < p.count) || p.wrap)
  | none => false

/-- Take the next pattern entry of a branch. -/
def Sources.advancePat (s : State) (m : Nat) (src : Sources) : Sources :=
  match src.pat with
  | some p => if src.patDue then src.takeEntry (p.next s m) else src
  | none => src

/-- The record of a rejected read of a pattern's next entry (R24). -/
def notePattern (m : Nat) (src : Sources) (s : State) : State :=
  match src.pat with
  | some p =>
    if src.patDue then noteRead m (if p.idx + 1 < p.count then p.body + 8 * (p.idx + 1) else p.body) 8 s else s
  | none => s

/-- `PATTERN_ENTRY_ADVANCE` (R81). -/
def execPatternEntryAdvance (c : Chan) (s : State) : Out :=
  act s (on (someBranch s c.val Sources.patDue = true) (fun s =>
    let m := 20 + quadOf c.val
    mapBranches c.val (Sources.advancePat s m) (notePattern m (((s.cse c.val).alt).getD {}) (notePattern m (s.cse c.val).src s))))

/-- Return the markers whose pulse has stood for its one sample (R84). -/
def Sources.endPulses (src : Sources) : Sources :=
  { src with m0 := src.m0 && !src.ended0, m1 := src.m1 && !src.ended1, ended0 := false, ended1 := false }

/-- `MARKER_PULSE_END`. -/
def execMarkerPulseEnd (c : Chan) (s : State) : Out :=
  act s (on (someBranch s c.val (fun src => src.ended0 || src.ended1) = true) (mapBranches c.val Sources.endPulses))

/-- A ramp has no step to come (R90). -/
def rampOver (s : State) (q : Nat) : Bool :=
  match (s.wheel q).ramp with
  | some r => decide (r.k ≤ r.j)
  | none => false

/-- RAMP_REMAIN has reached 0: the wheel holds the target increment (R90). -/
def rampDone (q : Nat) (s : State) : State :=
  let w := s.wheel q
  match w.ramp with
  | some r => raise .cse r.chan 10 (s.setWheel q { w with ramp := none, d := r.d1, dn := r.d1, v := r.v1 })
  | none => s

/-- `RAMP_DONE`. -/
def execRampDone (q : Quad) (s : State) : Out := act s (on (rampOver s q.val = true) (rampDone q.val))

/-! ### Refilling a ring (R181) -/

/-- The first Quarry play of player p in a list of packets, with its header. -/
def firstPlay (s : State) (c p : Nat) : List Packet → Option (Descr × SegHeader)
  | [] => none
  | x :: xs =>
    let d := x.descr
    if (d.kind = 1 ∨ d.kind = 2) ∧ d.player = p ∧ inBench d.segaddr 1 = false then
      match fetchHeader s c d with
      | .ok h => some (d, h)
      | .error _ => firstPlay s c p xs
    else firstPlay s c p xs

/-- The packets of channel c in queue order (R171). -/
def inOrder (s : State) (c : Nat) : List Packet :=
  ([3, 2, 1, 0].map fun n => (s.queue (4 * c + n)).head.toList ++ (s.queue (4 * c + n)).cells).flatten

/-- Aim the ready fetch of player p of a ring at a play (R181, R183): a body that is whole in the ring, or being made ready already, needs
no new fetch. A resident body that the mover begins takes the rewind mark. -/
def aimAt (s : State) (c : Nat) (d : Descr) (h : SegHeader) (r : Ring) : Ring :=
  let size := partSize s c d.player
  let (cur, nxt, mark) := r.parts d.player
  let want := wantedPart s c d h
  if partServes nxt want then
    r.setParts d.player cur { nxt with need := readyBytes nxt (segRef d h).width (firstWindow s c d (segRef d h)) } mark
  else if wholeServes cur want size ∨ wholeServes mark want size then r.setParts d.player cur {} mark
  else r.setParts d.player cur { want with wp := r.wp d.player } mark

/-- Point the ready fetch of player p at the next play that the player will take (R181); one whose descriptor is gone ends. -/
def aimFetch (c p : Nat) (s : State) : State :=
  let r := s.ring c
  match firstPlay s c p (inOrder s c) with
  | none => s.setRing c (r.setParts p (r.parts p).1 {} (r.parts p).2.2)
  | some (d, h) => s.setRing c (aimAt s c d h r)

/-- Refill a ring of the main branch; the alternate's parts lie in the same partitions. -/
def refillMain (c p n : Nat) (s : State) : State :=
  let s1 := refill c p n ((s.cse c).src.player p) (aimFetch c p s)
  s1.setCse c { s1.cse c with altRing := (s1.cse c).altRing.advance p ((s1.ring c).wp p) }

/-- Refill the rings of an alternate: its own parts, in the same partitions (R141). -/
def refillAlt (c p n : Nat) (s : State) : State :=
  let main := s.ring c
  let e := s.cse c
  let s1 := refill c p n ((e.alt.getD {}).player p) (s.setRing c e.altRing)
  (s1.setCse c { s1.cse c with altRing := s1.ring c }).setRing c (main.advance p ((s1.ring c).wp p))

end Sys2Proof.Machine
end

