-- ==== Sys2Proof/Machine/Samples.lean ====
section
/-! DEFINITION. The synthesis sample of a quad (R71, R87, R88, R108–R113, R172, R173, R184), the allocation, enable, reset and
power of a CSE (R96, R113, R415), and the restart of a quad on its timeline (R56). -/

namespace Sys2Proof.Machine

/-! ### When a sample may be computed -/

/-- Something of a branch still happens on the next sample before it is computed. -/
def Sources.unsettled (src : Sources) : Bool :=
  src.patDue || src.ended0 || src.ended1 || src.p0.done || src.p1.done ||
  (upTo 32).any (fun i => (Store.get ({} : Slot) src.slots i).offDue)

/-- Channel c is ready for the next sample: room in its sample queue (R12, R19), and no descriptor, idle entry or other event of this
sample outstanding. A switched-off CSE computes nothing. -/
def chanReady (s : State) (c : Nat) : Bool :=
  !(s.cse c).powered ||
  (decide ((s.out c).sq.length < 8) && (s.out c).inter.isEmpty && (takeStep s c).isNone && !(cseTakes s c && idleDue s c) &&
   !someBranch s c Sources.unsettled)

/-- A late SPEED frame waits for the quad's next sample (R68). -/
def lateWaits (s : State) (q : Nat) : Bool := (s.clock q).running && (s.clock q).tally.any (fun t => t.late)

/-- A commit of quad q's QCLK page changes its rate or its interpolation factor (R54). -/
def changesRate (s : State) (q : Nat) (x : Commit) : Bool :=
  let v (r : Reg) : Nat := if x.captured then s.rdCap r q else s.rd r q
  x.page == .qclk && x.inst == q &&
    ((rateOk (v .QCLK_QCLK_N_N) && v .QCLK_QCLK_N_N != s.qn q) || v .QCLK_QCLK_CFG_IF_LOG2 != s.ifLog q)

/-- The first edge of a new rate whose commit instant is known (R54, R71): samples from it on belong to the new rate. -/
def rateEdge (s : State) (q : Nat) : Option Nat :=
  match s.commits.find? (changesRate s q) with
  | some x => (commitInstant? s x).map (fun t => max (s.clock q).next (s.firstEdge q t))
  | none => none

/-- The next sample of quad q lies before the first edge of a known new rate. -/
def beforeRate (s : State) (q : Nat) : Bool :=
  match rateEdge s q with
  | some n => decide ((s.wheel q).k < ceilDiv n (s.ifac q))
  | none => true

/-- The next sample of a quad can be computed. -/
def sampleReady (s : State) (q : Nat) : Bool :=
  (chansOf q).all (chanReady s) && (chansOf q).any (fun c => (s.cse c).powered) && !rampOver s q && !lateWaits s q && beforeRate s q

/-! ### TALLY speed commands (R68) -/

/-- A time in units of 256 ticks as synthesis samples (R68, R90). -/
def tallySamples (s : State) (q x : Nat) : Nat :=
  (roundQ (((x * 256 : Nat) : Rat) * s.fs q / (Config.ticksPerSecond : Nat))).toNat

/-- A TALLY speed command on the wheel, on the quad's next sample. -/
def tallyApply (q miss : Nat) (t : SpeedCmd) (s : State) : State :=
  speedCommand q (4 * q) t.mode t.target (tallySamples s q t.ramp) (tallySamples s q t.blend) none miss s

/-- Apply the commands that are due on the next sample, in order of arrival. -/
def applyTally (q : Nat) (s : State) : State :=
  let c := s.clock q
  let k := (s.wheel q).k
  let due (t : SpeedCmd) : Bool := c.running && !t.late && decide (s.firstSample q t.due ≤ k)
  let s1 := s.setClock q { c with tally := c.tally.filter (fun t => !due t) }
  each (c.tally.filter due) (fun t s => tallyApply q (k - s.firstSample q t.due) t s) s1

/-! ### REPEAT (R88, R173) -/

/-- The repeated descriptor cannot be played: the channel shows its fault value until a further descriptor applies (R173). -/
def repeatFails (c : Nat) (s : State) : State :=
  (s.setCse c { s.cse c with idle := some .hold }).wr .OUT_FAULT_STAT_REPEAT_FAIL 1 c

/-- An underrun of a ring (R184), counted and recorded. -/
def countUnderrun (c : Nat) (s : State) : State :=
  raiseFor .tack 0 4 c ((s.inc .TACK_RING_UCNT_COUNT 0 c).wr .TACK_UNDERRUN 1 0 0 c)

/-- Re-apply the repeated descriptor where it is due on the next sample: a SPEED without ANGLE_LOAD, a play from its body. -/
def repeatStep (c : Nat) (s : State) : State :=
  let e := s.cse c
  let q := quadOf c
  let k : Int := ((s.wheel q).k : Nat)
  match e.idle, e.last with
  | some .repeat_, some d =>
    if k < e.repeatDue then s
    else
      let again (s : State) : State := s.setCse c { s.cse c with repeatDue := e.repeatDue + d.count }
      if d.kind = 8 then (if speedTaken s q c then again s else applySpeed c d false 0 (again s))
      else match applySources s c d 0 e.src with
        | .bad code => repeatFails c (countDiscard c code s)
        | .wait => repeatFails c (countUnderrun c s)
        | .done src ring trunc =>
          let s1 := again ((s.setCse c { e with src := src }).setRing c ring)
          if trunc then raise .cse c 9 s1 else s1
  | _, _ => s

/-! ### What a sample delivers and raises -/

/-- The value a branch delivers, before the next stage of the chain (R88, R108, R172): y(k), the value before idle, or REST. -/
def delivered (s : State) (c : Nat) (idle : Option IdleMode) (last y : Int) : Int :=
  if s.rd .CTRL_ENABLE c (Page.code .cse) = 0 then s123 (s.rd .CSE_REST_REST c)
  else match idle with
    | some .hold => last
    | some .rest => s123 (s.rd .CSE_REST_REST c)
    | _ => y

/-- The delivered value is y(k) itself. -/
def deliversSum (s : State) (c : Nat) (idle : Option IdleMode) : Bool :=
  s.rd .CTRL_ENABLE c (Page.code .cse) == 1 && (idle == none || idle == some .repeat_)

/-- The dither generator over the update edges of one sample: its states after each edge (R110). -/
def ditherRun : Nat → Nat → List Nat
  | 0, _ => []
  | n + 1, g => xorshift g :: ditherRun n (xorshift g)

/-- What a branch's sample raised on the CSE page. -/
def sampleEvents (c : Nat) (x : SampleOut) (s : State) : State :=
  let s1 := if x.noiseSat then raise .cse c 8 s else s
  let s2 := if x.overspeed then raise .cse c 4 s1 else s1
  let s3 := if x.nyqFade then raise .cse c 5 s2 else s2
  if x.trunc then raise .cse c 9 s3 else s3

/-- The effects of an underrun of player p on the main branch (R173, R184). The player is stopped by the evaluation; the
descriptor that started it is abandoned if it still stands, and a repeated one gives the fault value. -/
def underrunPlayer (c p : Nat) (s : State) : State :=
  let e := s.cse c
  let s1 := countUnderrun c s
  let repeats := match e.last with
    | some d => (d.kind == 1 || d.kind == 2) && d.player == p
    | none => false
  if e.idle = some .repeat_ then (if repeats then repeatFails c s1 else s1)
  else if e.curPlayer = some p then
    (s1.setCse c { s1.cse c with
      idle := some (effectiveIdle e (channelIdle s c)), repeatDue := ((s.wheel (quadOf c)).k : Nat) + 1 }).wr .CSE_STATUS_IDLE 1 c
  else s1

/-! ### From sums to codes (R109–R111) -/

/-- The edge signals of a branch. -/
def Sources.signals (src : Sources) : Signals :=
  { marks := src.marks, pins := src.patPins, patId := (src.pat.map (fun p => p.id)).getD 0 }

/-- The queue entries of the oldest waiting sample `w`, `after` samples later; `gs` are the dither generator's values at its update edges.
-/
def formEntries (s : State) (c after : Nat) (w : Waiting) (gs : List Nat) : List SqEntry :=
  let e := s.cse c
  let on := s.rd .CSE_CSE_CFG_DITHER c == 1
  let codes (hist : List Int) : List Nat :=
    (interpolate (s.ifLog (quadOf c)) hist after).zipWith (fun v g => codeOf v (if on then ditherOf g else 0)) gs
  let main := codes e.src.hist
  let alt : List (Option Nat) := match w.alt, e.alt with
    | some _, some a => (codes a.hist).map some
    | _, _ => main.map (fun _ => none)
  main.zipWith (fun code a =>
    { code := code, alt := a, marks := some w.main.marks, pins := w.main.pins, patId := w.main.patId, altSig := w.alt }) alt

/-- The oldest waiting sample of channel c leaves the interpolator, `after` samples later: its codes join the sample queue, less those of
update edges already past (R19), and the dither generator makes one step for each (R110). -/
def emitSample (c after : Nat) (s : State) : State :=
  let e := s.cse c
  match e.chain with
  | [] => s
  | w :: rest =>
    let gs := ditherRun (s.ifac (quadOf c)) e.dither
    let es := formEntries s c after w gs
    let drop := min e.dropCodes es.length
    pushCodes c (es.drop drop)
      (s.setCse c { e with chain := rest, dropCodes := e.dropCodes - drop, dither := gs.getLastD e.dither })

/-- Every waiting sample of channel c leaves the interpolator (R109). -/
def flushChain (c : Nat) (s : State) : State := each (upTo (s.cse c).chain.length).reverse (emitSample c) s

/-! ### The alternate branch (R111, R141) -/

/-- The alternate branch re-applies the descriptor that its idle mode repeats, where that is due on the next sample (R141, R173). A SPEED
changes no source. -/
def repeatAlternate (c : Nat) (s : State) : State :=
  let e := s.cse c
  let k : Int := ((s.wheel (quadOf c)).k : Nat)
  match e.alt, e.altIdle, e.last with
  | some a, some .repeat_, some d =>
    if k < e.altRepeat then s
    else
      let again (s : State) : State := s.setCse c { s.cse c with altRepeat := e.altRepeat + d.count }
      if d.kind = 8 then again s
      else match applySources (s.setRing c e.altRing) c d 0 a with
        | .done src ring _ => again (s.setCse c { e with alt := some src, altRing := ring })
        | .bad code => countDiscard c code (s.setCse c { e with altIdle := some .hold })
        | .wait => countUnderrun c (s.setCse c { e with altIdle := some .hold })
  | _, _, _ => s

/-- The record of a rejected read of a player's window (R12, R24). -/
def noteWindow (c n : Nat) (src : Sources) (s : State) : State :=
  let m := 20 + quadOf c
  let r := s.ring c
  let w := s.wheel (quadOf c)
  let (part, base, size) := (if n = 0 then r.cur0 else r.cur1, partBase s c n, partSize s c n)
  let p := src.player n
  if p.active = false ∨ p.muted ∨ s.rd .CSE_ALLOC_EFF_PLAYERS_EFF c ≤ n then s
  else
    let i : Int := ((p.position w.theta / 2 ^ 32 : Nat) : Int)
    let bytes := (upTo 64).flatMap fun t => match tapIndex p.seg.n p.fin p.angle (i + (t : Int) - 31) with
      | some j => (rangeFrom (p.seg.width * j / 8) ((p.seg.width * j % 8 + p.seg.width + 7) / 8)).filterMap (bodyAddr p.seg part base size)
      | none => []
    match bytes.find? (fun a => !byteAllowed s m .read a) with
    | some a => denyMem m a 1 false s
    | none => s

/-- The alternate branch of channel c on the next sample, with its own ring parts: the branch afterwards with what it delivers, its idle
behaviour, and what it met. -/
def alternateSample (s : State) (c : Nat) (src : Sources) : SampleOut × Option IdleMode :=
  let e := s.cse c
  let x := evalSources (s.setRing c e.altRing) c src
  let idle := if x.underrun0 || x.underrun1 then some (e.altIdle.getD (effectiveIdle e (channelIdle s c))) else e.altIdle
  let v := delivered s c idle (src.hist.headD 0) (sat23 (gained s c x.sum))
  ({ x with src := { x.src with hist := (v :: src.hist).take 64 } }, idle)

/-- Channel c's alternate branch computes the next sample, where one runs: its signals, and the state afterwards. -/
def altSample (c : Nat) (s0 : State) : Option Signals × State :=
  let s := repeatAlternate c s0
  match (s.cse c).alt with
  | none => (none, s)
  | some a =>
    let (x, idle) := alternateSample s c a
    let s1 := each [0, 1] (fun n t => noteWindow c n a t) s
    let s2 := s1.setCse c { s1.cse c with
      alt := some x.src, altIdle := idle
      altRepeat := if x.underrun0 || x.underrun1 then ((s.wheel (quadOf c)).k : Nat) + 1 else (s1.cse c).altRepeat }
    let s3 := if x.underrun0 then countUnderrun c s2 else s2
    let s4 := if x.underrun1 then countUnderrun c s3 else s3
    (some x.src.signals, sampleEvents c x s4)

/-! ### One sample of a channel -/

/-- The main branch of channel c computes the next synthesis sample (R108). -/
def mainSample (c : Nat) (s0 : State) : State :=
  let s := repeatStep c s0
  let e := s.cse c
  let x := evalSources s c e.src
  let y0 := gained s c x.sum
  let y := sat23 y0
  let s1 := each [0, 1] (fun n t => noteWindow c n e.src t) (s.setCse c { e with src := x.src })
  let s2 := if x.underrun0 then underrunPlayer c 0 s1 else s1
  let s3 := if x.underrun1 then underrunPlayer c 1 s2 else s2
  let e3 := s3.cse c
  let v := delivered s3 c e3.idle e.lastVal y
  let clips := deliversSum s3 c e3.idle && decide (y0 ≠ y)
  let s4 := sampleEvents c x (if clips then raiseHeld .cse c 2 (s3.inc .CSE_CLIP_CNT_CLIP c) else s3)
  s4.setCse c { s4.cse c with src := { x.src with hist := (v :: e.src.hist).take 64 }, lastVal := v }

/-- Channel c computes the next synthesis sample on its branches (R108, R111), and the sample that the interpolator now has whole gives its
codes (R71, R109). -/
def chanSample (c : Nat) (s : State) : State :=
  if (s.cse c).powered = false then s
  else
    let (alt, s1) := altSample c s
    let s2 := mainSample c s1
    let e := s2.cse c
    let s3 := s2.setCse c { e with chain := e.chain ++ [⟨e.src.signals, alt⟩] }
    let lead := chainLead (s.ifLog (quadOf c))
    if lead < (s3.cse c).chain.length then emitSample c lead s3 else s3

/-- The last sample before a known new rate: the interpolator gives every code up to the change (R54, R71). -/
def flushBefore (q : Nat) (s : State) : State :=
  if beforeRate s q then s else each (chansOf q) flushChain s

/-- The next synthesis sample of quad q. -/
def quadSample (q : Nat) (s : State) : State :=
  let s1 := each (chansOf q) chanSample (applyTally q s)
  flushBefore q (s1.setWheel q (s1.wheel q).advance)

/-- `SYNTHESIS_SAMPLE`: quad q computes its next synthesis sample on all four channels. -/
def execSynthesisSample (q : Quad) (s : State) : Out := act s (on (sampleReady s q.val = true) (quadSample q.val))

/-- `TALLY_SPEED_DEFERRED` (R68): the frames kept for quad q apply on its first sample, each as a late command; a Stitcher's SPEED on that
sample is discarded (48 stands for TALLY as the sender). -/
def tallyDeferred (q : Nat) (s : State) : State :=
  let c := s.clock q
  let k := (s.wheel q).k
  let w := s.wheel q
  let s1 := (s.setClock q { c with tally := c.tally.filter (fun t => !t.late) }).setWheel q { w with speedAt := some ((w.k : Nat), 48) }
  each (c.tally.filter (fun t => t.late))
    (fun t s => raise .tbase 0 8 (tallyApply q (k - s.firstSample q t.due) t s)) s1

/-- `TALLY_SPEED_DEFERRED`. -/
def execTallySpeedDeferred (q : Quad) (s : State) : Out := act s (on (lateWaits s q.val = true) (tallyDeferred q.val))

/-! ### Restart on the timeline (R56, R58) -/

/-- A branch advanced by one skipped sample: every source moves on and nothing is delivered. -/
def skipSources (s : State) (c : Nat) (src : Sources) : Sources :=
  let q := quadOf c
  let w := s.wheel q
  let settled := (upTo 32).foldl (fun x i => x.disableSlot i) ((src.advancePat s (20 + q)).endPulses)
  let x := (evalSources s c settled).src
  { x with
    p0 := (settled.p0.rebank (settled.p0.stepExact (s.fs q) w.d)).step (s.fs q)
    p1 := (settled.p1.rebank (settled.p1.stepExact (s.fs q) w.d)).step (s.fs q) }

/-- Every source of the quad and its wheel move on by one sample; the dither generators by its update edges (R56, R110). A switched-off CSE
stays in its soft-reset state (R415). -/
def skipSample (q : Nat) (s : State) : State :=
  let s0 := if rampOver s q then rampDone q s else s
  let s1 := each (chansOf q) (fun c s =>
    let e := s.cse c
    if e.powered = false then s
    else s.setCse c { e with src := skipSources s c e.src, alt := e.alt.map (skipSources s c),
                             dither := (ditherRun (s.ifac q) e.dither).getLastD e.dither }) s0
  s1.setWheel q (s1.wheel q).advance

/-- Skip n samples. -/
def skipSamples (q : Nat) : Nat → State → State
  | 0, s => s
  | n + 1, s => skipSamples q n (skipSample q s)

/-- The codes of channel c for the n edges to come are discarded (R19, R56): those in the input latch and the sample queue at once, the rest
when they are produced. -/
def dropEdges (c n : Nat) (s : State) : State :=
  if (s.cse c).powered = false ∨ n = 0 then s
  else
    let o := s.out c
    let all := o.latch.toList ++ o.sq ++ o.inter
    let s1 := s.setOut c { o with latch := none, sq := [], inter := all.drop n }
    fillQueue c (s1.setCse c { s1.cse c with dropCodes := (s1.cse c).dropCodes + (n - all.length) })

/-- The samples of channel c that still wait in the interpolator give no code; its generator makes their steps (R110). -/
def dropChain (c : Nat) (s : State) : State :=
  let e := s.cse c
  s.setCse c { e with chain := [], dither := (ditherRun (e.chain.length * s.ifac (quadOf c)) e.dither).getLastD e.dither }

/-- Renumber what channel c counts in samples: sample k becomes k - d. -/
def shiftCse (d : Int) (c : Nat) (s : State) : State :=
  let e := s.cse c
  s.setCse c { e with due := e.due - d, repeatDue := e.repeatDue - d, appliedK := e.appliedK - d, altRepeat := e.altRepeat - d,
                      lastRel := e.lastRel.map (· - d), altPend := e.altPend.map (fun p => (p.1, p.2 - d)) }

/-- Renumber what a wheel counts in samples. -/
def Wheel.shift (w : Wheel) (k : Nat) : Wheel :=
  let d : Int := (w.k : Int) - k
  { w with k := k, speedAt := w.speedAt.map (fun p => (p.1 - d, p.2)), legs := w.legs.map (fun l => { l with k := l.k - d }) }

/-- Every code of channel c leaves the interpolator, and n further ones repeat the last: the samples computed so far end on a sample of the
new timeline. -/
def padCodes (n c : Nat) (s : State) : State :=
  let s1 := flushChain c s
  let o := s1.out c
  match (o.latch.toList ++ o.sq ++ o.inter).getLast? with
  | some e => pushCodes c (List.replicate n { e with marks := none, pins := [] }) s1
  | none => s1

/-- The synthesis timeline restarts at sample 0 on the next edge of quad q, with `ifNew` edges a sample from then on (R54, R71). The codes
of a sample that the restart cuts are dropped; samples computed ahead are the first of the new numbering (DESIGN CHOICE, log 135: only a
change that the CSE could not know ahead finds any). -/
def restartSamples (q ifNew : Nat) (s : State) : State :=
  let w := s.wheel q
  let ifOld := s.ifac q
  let next := (s.clock q).next
  let ahead := w.k - ceilDiv next ifOld
  let kNew := ceilDiv (ahead * ifOld) ifNew
  let cut := if next % ifOld = 0 ∨ w.k * ifOld ≤ next then 0 else ifOld - next % ifOld
  let pad := kNew * ifNew - ahead * ifOld
  each (chansOf q) (fun c s =>
    let s1 := dropEdges c cut s
    shiftCse ((w.k : Int) - kNew) c (if ifNew = ifOld ∨ (s1.cse c).powered = false then s1 else padCodes pad c s1))
    (s.setWheel q (w.shift kNew))

/-- A rising edge of ENABLE (R58): an aligned quad restarts on its timeline; any other starts its accumulator at 0 on this
tick. The restart's first edge is the command QCLK_RESUME. Below D0 the start waits (R402). -/
def qclkStart (q : Nat) (s : State) : State :=
  let c := s.clock q
  let s1 := s.wr .CTRL_ENABLE 1 q (Page.code .qclk)
  if s.rd .CTRL_ENABLE q (Page.code .qclk) = 1 ∨ c.running then s1
  else if s.rd .POWER_STATUS_DSTATE ≠ 0 then s1.setClock q { c with startDue := true }
  else if s.rd .QCLK_QCLK_STATUS_ALIGNED q = 1 then s1.setClock q { c with resuming := true }
  else spareFollows q ((setOrigin q (s.now * 256) ((restartSamples q (s.ifac q) s1).setClock q
    { c with running := true, resuming := false, edge0 := s.osc, next := 0, tally := lateTally s c })).wr
      .QCLK_QCLK_STATUS_STOPPED 0 q)

/-- `QCLK_START`: a write of CTRL.ENABLE = 1 on quad q's page. -/
def execQclkStart (m : Master) (q : Quad) (s : State) : Out := cmd s .qclk q.val 4 m (qclkStart q.val)

/-- A commit of the quad that fell due while its clock was stopped applies as a late one (R56). -/
def lateCommit (s : State) (q : Nat) (x : Commit) : Commit :=
  match x.due with
  | some t => if x.mode = 1 ∧ commitQuad x.page x.inst = some q ∧ t < (s.osc : Rat) then { x with late := true } else x
  | none => x

/-- The restart of quad q at edge n' (R56): skipped edges are counted, their codes discarded, and sources that had not been
computed so far move on. -/
def resumeClock (q : Nat) (s : State) : State :=
  let c := s.clock q
  let n' := resumeIndex s q
  let gone := n' - c.next
  let ifac := s.ifac q
  let k := (s.wheel q).k
  let s1 := each (chansOf q) (fun ch => dropEdges ch gone) s
  let s2 := if k * ifac < n' then
      each (chansOf q) (fun ch s => if (s.cse ch).powered then s.setCse ch { s.cse ch with dropCodes := n' % ifac } else s)
        (skipSamples q (n' / ifac - k) (each (chansOf q) dropChain s1))
    else s1
  let s3 := (s2.wr .QCLK_MISSED_MISSED (satAdd 32 (s2.rd .QCLK_MISSED_MISSED q) gone) q).wr .QCLK_QCLK_STATUS_STOPPED 0 q
  raise .qclk q 4 (({ s3 with commits := s3.commits.map (lateCommit s q) } : State).setClock q
    { c with running := true, resuming := false, next := n', tally := lateTally s c })

/-- `QCLK_RESUME`: the first edge of a restart, once the serving synthesizer is locked. -/
def execQclkResume (q : Quad) (s : State) : Out :=
  act s (on ((s.clock q.val).resuming = true ∧ servingLocked s q.val = true) (resumeClock q.val))

/-! ### Registers of a CSE (R96, R104, R113, R415) -/

/-- A write of ALLOC. -/
def writeAlloc (c v : Nat) (s : State) : State :=
  recomputeAlloc (quadOf c) ((s.wr .CSE_ALLOC_PART_MAX (bits v 5 0) c).wr .CSE_ALLOC_PLAYERS (bits v 9 8) c)

/-- `ALLOC_WRITE`. -/
def execAllocWrite (m : Master) (c : Chan) (v : Word) (s : State) : Out := cmd s .cse c.val 0x44 m (writeAlloc c.val v.toNat)

/-- The soft-reset state of a CSE (R96, R104, R110): slots disabled, players stopped, noise and dither at their seeds, L = 0, and
the channel idle. Sums already formed and samples that wait in the interpolator give their codes (DESIGN CHOICE, log 128). -/
def resetCse (c : Nat) (s : State) : State :=
  let e := s.cse c
  let fresh : Cse :=
    { src := { hist := e.src.hist, patCount := e.src.patCount, patGen := e.src.patGen }, altCount := e.altCount
      chain := e.chain.map (fun w => { w with alt := none }), dither := c + 1, powered := e.powered, dropCodes := e.dropCodes }
  each [Reg.CSE_STATUS_RUNNING, .CSE_STATUS_OPEN, .CSE_CUR_DESC_KIND, .CSE_CUR_DESC_PRIO, .CSE_CUR_DESC_SEQ]
    (fun r s => s.wr r 0 c) ((s.setCse c fresh).wr .CSE_STATUS_IDLE 1 c)

/-- A CSE whose logic comes on again: its next code belongs to the next sample to be computed (R71), so the edges before it
take REST, with the dither of their edges (R110). -/
def powerUpCse (c : Nat) (s : State) : State :=
  let q := quadOf c
  let first := (s.wheel q).k * s.ifac q
  let n := (s.clock q).next
  let gs := ditherRun (first - n) (s.cse c).dither
  let on := s.rd .CSE_CSE_CFG_DITHER c == 1
  let entry (g : Nat) : SqEntry := { code := codeOf (s123 (s.rd .CSE_REST_REST c) : Int) (if on then ditherOf g else 0) }
  pushCodes c (gs.map entry)
    ((s.setCse c { s.cse c with powered := true, dropCodes := n - first, dither := gs.getLastD (s.cse c).dither }).setOut c
      { s.out c with sq := [], inter := [], latch := none })

/-- A write of CSE CTRL.ENABLE (R415): a rising edge powers the logic up and starts afresh for REPEAT (R173). -/
def writeCseEnable (c : Nat) (en : Bool) (s : State) : State :=
  let was := s.rd .CTRL_ENABLE c (Page.code .cse)
  let s1 := s.wr .CTRL_ENABLE (if en then 1 else 0) c (Page.code .cse)
  if en ∧ was = 0 then
    let s2 := if (s1.cse c).powered then s1 else powerUpCse c s1
    (s2.setCse c { s2.cse c with last := none }).wr .CSE_STATUS_RUNNING 0 c
  else s1

/-- `CSE_ENABLE_WRITE`. -/
def execCseEnableWrite (m : Master) (c : Chan) (en : Bool) (s : State) : Out :=
  cmd s .cse c.val 4 m (writeCseEnable c.val en)

/-- `CSE_SOFT_RESET`. -/
def execCseSoftReset (m : Master) (c : Chan) (s : State) : Out :=
  cmd s .cse c.val 4 m (fun s => resetCse c.val (dropCommits .cse c.val s))

/-- A write of PWR_REQ on a CSE page (R415): refused while its OUT page is enabled; it acts only on a disabled CSE. -/
def writeCsePower (c : Nat) (req : Bool) (s : State) : State :=
  if req ∧ outEnabled s c then s
  else
    let s1 := s.wr .CTRL_PWR_REQ (if req then 1 else 0) c (Page.code .cse)
    if s.rd .CTRL_ENABLE c (Page.code .cse) = 1 then s1
    else if req then
      let s2 := resetCse c s1
      (s2.setCse c { s2.cse c with powered := false, dropCodes := 0, chain := [] }).setOut c
        { s2.out c with sq := [], inter := [], latch := none }
    else if (s1.cse c).powered then s1 else powerUpCse c s1

end Sys2Proof.Machine
end

