-- ==== Sys2Proof/Machine/Stitcher.lean ====
section
/-! DEFINITION. Stitchers (R115–R139, R156, R157): fetch and decode, pushes, flow control, waits, faults and the microcode
switch. STITCH event bits: 0 HALTED, 1 FAULT, 2 SPEED_CONFLICT, 3 JUMP_TAKEN, 4 GANG_COMMIT, 5 GANG_FAIL, 6 WAIT_TIMEOUT,
7 RELEASE_LATE, 8 EVIN_DROP, 9 MC_SWITCHED, 10 JUMP_LOST. -/

namespace Sys2Proof.Machine

/-! ### Instruction words (R119–R121) -/

/-- The bits [hi:lo] of a word as a mask. -/
def maskOf (hi lo : Nat) : Nat := 2 ^ (hi + 1) - 2 ^ lo

/-- Bits of [55:0] that an opcode uses; none for an illegal opcode (R119–R121). -/
def usedBits (op : Nat) : Option Nat :=
  match op with
  | 0x00 | 0x01 | 0x21 | 0x23 => some 0
  | 0x10 | 0x11 | 0x15 => some (maskOf 55 0)
  | 0x12 => some (maskOf 55 47 + maskOf 31 0)
  | 0x13 => some (maskOf 55 47 + maskOf 35 0)
  | 0x14 => some (maskOf 55 47 + maskOf 45 0)
  | 0x20 => some (maskOf 45 0)
  | 0x22 => some (maskOf 45 32)
  | 0x24 => some (maskOf 55 48 + maskOf 45 28)
  | 0x28 => some (maskOf 55 46 + maskOf 31 0)
  | 0x29 => some (maskOf 55 48 + maskOf 45 0)
  | 0x30 => some (maskOf 55 48 + maskOf 45 14)
  | 0x31 => some (maskOf 49 48)
  | 0x38 => some (maskOf 55 50 + maskOf 45 26 + maskOf 11 0)
  | _ => none

/-- Opcode of an instruction word. -/
def opcode (w : Nat) : Nat := bits w 63 56

/-- The fault of decoding a word, if any: 1 ILLEGAL_OP, 2 RESERVED_SET (R119, R143). -/
def decodeFault (w : Nat) : Option Nat :=
  match usedBits (opcode w) with
  | none => some 1
  | some m =>
    if (w % 2 ^ 56) &&& m ≠ w % 2 ^ 56 then some 2
    else if opcode w = 0x30 ∧ bit w 51 = 1 ∧ (bits w 31 28 ≠ 0 ∨ bits w 27 14 ≠ 0) then some 2
    else none

/-! ### Alternates and stopping (R117, R143, R156) -/

/-- Take the alternate codes out of a channel's queue and latch. -/
def SqEntry.dropAlt (e : SqEntry) : SqEntry := { e with alt := none, altSig := none }

/-- Discard the alternate of channel c. -/
def dropAlternate (c : Nat) (s : State) : State :=
  let o := s.out c
  (s.setCse c { s.cse c with
    alt := none, altIdle := none, altPend := none, altRing := {}, altDescr := {}, altInput := 0
    chain := (s.cse c).chain.map (fun w => { w with alt := none }) }).setOut c
    { o with sq := o.sq.map SqEntry.dropAlt, inter := o.inter.map SqEntry.dropAlt, latch := o.latch.map SqEntry.dropAlt }

/-- The jump armed on input e of Stitcher q. -/
def armedJump (s : State) (q e : Nat) : Option ArmedJump := Store.get none (s.stitcher q).armed e

/-- Put an armed jump, or none, on an input. -/
def setArmed (q e : Nat) (j : Option ArmedJump) (s : State) : State :=
  s.setStitcher q { s.stitcher q with armed := Store.set none (s.stitcher q).armed e j }

/-- Channels of a quad named by a 4-bit mask, in ascending order. -/
def maskChans (q mask : Nat) : List Nat := ((upTo 4).filter (fun i => bit mask i == 1)).map (fun i => 4 * q + i)

/-- Disarm an input and discard its alternates (R143). -/
def disarmInput (q e : Nat) (s : State) : State :=
  match armedJump s q e with
  | some j => setArmed q e none (each (maskChans q j.chmask) dropAlternate s)
  | none => s

/-- Disarm every input. -/
def disarmAll (q : Nat) (s : State) : State := each (upTo 16) (disarmInput q) s

/-- Withdraw every READY of a Stitcher and leave a commit in prepare (R117, R156). -/
def withdraw (q : Nat) (s : State) : State :=
  each (upTo 4) (fun k s => s.wr .STITCH_GANG_READY_READY 0 q 0 k)
    (s.setStitcher q { s.stitcher q with gang := none })

/-- End a wait where it stands, with its status bits. -/
def endWait (q : Nat) (s : State) : State :=
  each [Reg.STITCH_STATUS_WAIT_TIME, .STITCH_STATUS_WAIT_EVENT, .STITCH_STATUS_CREDIT_WAIT, .STITCH_STATUS_GANG_WAIT]
    (fun r s => s.wr r 0 q) (s.setStitcher q { s.stitcher q with wait := .none })

/-- The Stitcher executes nothing more: its wait, its instruction and the rest of a push end. -/
def stopRun (q : Nat) (s : State) : State :=
  let s1 := endWait q s
  (s1.setStitcher q { s1.stitcher q with ir := none, todo := [], gang := none, played := false }).wr .STITCH_STATUS_RUNNING 0 q

/-- The error code that a fault cause records (R156). -/
def faultCode (cause : Nat) : Option Nat :=
  match cause with
  | 10 | 15 => some errRegionDenied
  | 12 => some errOwnerDenied
  | 13 => some errNoCredit
  | 16 => some errPoison
  | _ => none

/-- A fault stops the Stitcher at its instruction (R156). -/
def stitchFault (q cause : Nat) (s : State) : State :=
  let s1 := withdraw q (disarmAll q (stopRun q s))
  let s2 := ((s1.wr .STITCH_STATUS_FAULTED 1 q).wr .STITCH_FAULT_CAUSE cause q).wr .STITCH_FAULT_PC (s.stitcher q).pc q
  let s3 := match faultCode cause with
    | some e => recordErr .stitch q e (8 + q) false 0 s2
    | none => s2
  raise .stitch q 1 s3

/-- Words of the program as they act (R115). -/
def progLen (s : State) (q : Nat) : Nat := min 16384 (s.rd .STITCH_PROG_LEN_LEN q)

/-- Continue after the present instruction. -/
def nextPc (q : Nat) (s : State) : State :=
  s.setStitcher q { s.stitcher q with ir := none, todo := [], pc := (s.stitcher q).pc + 1 }

/-- Transfer control (R116, R122). -/
def goto (q t : Nat) (s : State) : State :=
  if progLen s q ≤ t then stitchFault q 3 s
  else s.setStitcher q { s.stitcher q with ir := none, todo := [], pc := t, ahead := [] }

/-! ### Start and stop (R117, R415) -/

/-- A rising edge of ENABLE. A switched-off Stitcher powers up first. Release times and immediate marks that no push has taken are dropped
(DESIGN CHOICE, log 136: the rule's list does not name them); the armed times that its WAITTs have used stay used (R135). -/
def startStitcher (q : Nat) (s : State) : State :=
  let st := s.stitcher q
  let s1 := withdraw q (disarmAll q (stopRun q s))
  let fresh : Stitcher := { pc := s.rd .STITCH_START_PC_PC q, mcFrom := st.mcFrom, used := st.used }
  let s2 := each (upTo 16) (fun e s => s.wr .STITCH_EVIN_LATCHED_LATCHED 0 q 0 e) (s1.setStitcher q fresh)
  (((s2.wr .STITCH_STATUS_RUNNING 1 q).wr .STITCH_STATUS_HALTED 0 q).wr .STITCH_STATUS_FAULTED 0 q)

/-- A write of ENABLE = 0. STATUS.HALTED clears with it (DESIGN CHOICE, log 136: the rule does not say whether it survives a stop). -/
def stopStitcher (q : Nat) (s : State) : State :=
  withdraw q (disarmAll q ((stopRun q s).wr .STITCH_STATUS_HALTED 0 q))

/-- A write of CTRL.ENABLE on a STITCH page. -/
def writeStitchEnable (q : Nat) (en : Bool) (s : State) : State :=
  let was := s.rd .CTRL_ENABLE q (Page.code .stitch)
  let s1 := s.wr .CTRL_ENABLE (if en then 1 else 0) q (Page.code .stitch)
  if en then (if was = 0 then startStitcher q s1 else s1) else if was = 1 then stopStitcher q s1 else s1

/-- `STITCH_ENABLE`. -/
def execStitchEnable (m : Master) (q : Quad) (s : State) : Out := cmd s .stitch q.val 4 m (writeStitchEnable q.val true)

/-- `STITCH_DISABLE`. -/
def execStitchDisable (m : Master) (q : Quad) (s : State) : Out := cmd s .stitch q.val 4 m (writeStitchEnable q.val false)

/-- SOFT_RESET: as ENABLE = 0, and STATUS, FAULT and the counters are cleared. -/
def resetStitcher (q : Nat) (s : State) : State :=
  let s1 := (stopStitcher q (dropCommits .stitch q s)).wr .CTRL_ENABLE 0 q (Page.code .stitch)
  each [Reg.STITCH_STATUS_RUNNING, .STITCH_STATUS_HALTED, .STITCH_STATUS_FAULTED, .STITCH_STATUS_MC_PENDING,
      .STITCH_STATUS_MC_BANK, .STITCH_FAULT_CAUSE, .STITCH_FAULT_PC, .STITCH_EVIN_IGNORED_COUNT, .STITCH_PUSH_CNT_COUNT,
      .STITCH_STALL_CNT_COUNT]
    (fun r s => s.wr r 0 q) s1

/-- `STITCH_SOFT_RESET`. -/
def execStitchSoftReset (m : Master) (q : Quad) (s : State) : Out := cmd s .stitch q.val 4 m (resetStitcher q.val)

/-- A write of PWR_REQ on a STITCH page (R415). -/
def writeStitchPower (q : Nat) (req : Bool) (s : State) : State :=
  let s1 := s.wr .CTRL_PWR_REQ (if req then 1 else 0) q (Page.code .stitch)
  if s.rd .CTRL_ENABLE q (Page.code .stitch) = 1 then s1
  else if req then
    let s2 := resetStitcher q s1
    s2.setStitcher q { s2.stitcher q with powered := false }
  else s1.setStitcher q { s1.stitcher q with powered := true }

/-- `PWR_REQ_WRITE`, on the CSE page of channel `i` or the STITCH page of quad `i`. -/
def execPwrReqWrite (m : Master) (stitch : Bool) (i : Chan) (req : Bool) (s : State) : Out :=
  if stitch then
    (if i.val < 12 then cmd s .stitch i.val 4 m (writeStitchPower i.val req) else .next s)
  else cmd s .cse i.val 4 m (writeCsePower i.val req)

/-! ### Fetch (R115, R116) -/

/-- The microcode switch comes before the next instruction (R157). -/
def mcDue (s : State) (q : Nat) : Bool :=
  s.rd .STITCH_STATUS_MC_PENDING q == 1 &&
  ((s.stitcher q).played || decide ((s.stitcher q).mcFrom + Config.ticksPerMs ≤ s.osc))

/-- The Stitcher is between two instructions and goes on. -/
def fetchReady (s : State) (q : Nat) : Bool :=
  s.rd .STITCH_STATUS_RUNNING q == 1 && (s.stitcher q).ir.isNone && (s.stitcher q).wait == .none && !mcDue s q

/-- Address of a program word. -/
def progAddr (s : State) (q w : Nat) : Nat := benchBase + s.rd .STITCH_PROG_BASE_BASE q / 8 * 8 + 8 * w

/-- The words fetched ahead after the word at pc: those already fetched stay as they were (R116). -/
def fetchAhead (s : State) (q : Nat) : Store (Option Nat) :=
  let st := s.stitcher q
  (rangeFrom (st.pc + 1) 4).foldl (fun m w =>
    Store.set none m w (match Store.get none st.ahead w with
      | some v => some v
      | none => some (s.leAs (8 + q) (progAddr s q w) 8))) []

/-- Fetch and decode the word at PC. A word that was fetched ahead and has been written since may be seen or not: a free
value says which (R116). -/
def fetchWord (q : Nat) (s : State) : State :=
  let st := s.stitcher q
  let a := progAddr s q st.pc
  if progLen s q ≤ st.pc then stitchFault q 3 s
  else if inBench a 8 = false ∨ memAllowed s (8 + q) .read a 8 = false then stitchFault q 15 (noteRead (8 + q) a 8 s)
  else if s.anyPoison a 8 then stitchFault q 16 s
  else
    let fresh := s.leAt a 8
    let old := (Store.get none st.ahead st.pc).getD fresh
    let w := if old = fresh then fresh else if (Config.freeValue s.free).getLsbD 0 then old else fresh
    let s1 := { s with free := if old = fresh then s.free else s.free + 1 }
    let s2 := s1.setStitcher q { st with ahead := fetchAhead s q, ir := some w, played := false }
    match decodeFault w with
    | some f => stitchFault q f s2
    | none => s2

/-- `INSTRUCTION_FETCH`. -/
def execInstructionFetch (q : Quad) (s : State) : Out := act s (on (fetchReady s q.val = true) (fetchWord q.val))

/-- Execute the fetched word of Stitcher q if its opcode is `op`. -/
def runOp (q op : Nat) (f : Nat → State → State) (s : State) : State :=
  match (s.stitcher q).ir with
  | some w => if s.rd .STITCH_STATUS_RUNNING q = 1 ∧ (s.stitcher q).wait = .none ∧ opcode w = op then f w s else s
  | none => s

/-! ### Pushes (R120, R123–R130) -/

/-- Address of a template (R123). -/
def templateAddr (s : State) (q tidx : Nat) : Nat := benchBase + s.rd .STITCH_TPL_BASE_BASE q / 32 * 32 + 32 * tidx

/-- The records of a template's reads that a check rejects (R24, R27). -/
def noteTemplate (q tidx : Nat) (s : State) : State :=
  let a := templateAddr s q tidx
  noteRead (8 + q) a (if memAllowed s (8 + q) .read a 16 then 16 * (bits (s.leAt a 16) 8 6 + 1) else 16) s

/-- The cells of a template (R123, R124): its cells, or a fault cause. -/
def readTemplate (s : State) (q tidx : Nat) (kinds : List Nat) : Except Nat (List Nat) :=
  let a := templateAddr s q tidx
  if inBench a 16 = false ∨ memAllowed s (8 + q) .read a 16 = false then .error 10
  else if s.anyPoison a 16 then .error 16
  else
    let h := s.leAt a 16
    let n := bits h 8 6 + 1
    if kinds.contains (bits h 3 0) = false then .error 9
    else if inBench a (16 * n) = false ∨ memAllowed s (8 + q) .read a (16 * n) = false then .error 10
    else if s.anyPoison a (16 * n) then .error 16
    else .ok ((upTo n).map (fun i => s.leAt (a + 16 * i) 16))

/-- Replace bits [hi:lo] of a number. -/
def setBits (v hi lo x : Nat) : Nat := v - bits v hi lo * 2 ^ lo + (x % 2 ^ (hi + 1 - lo)) * 2 ^ lo

/-- Change the header cell. -/
def mapHead (f : Nat → Nat) : List Nat → List Nat
  | [] => []
  | h :: t => f h :: t

/-- RLEN of a SPEED descriptor's cell 1. -/
def setRlen (x : Nat) : List Nat → List Nat
  | h :: c1 :: t => h :: setBits c1 95 64 x :: t
  | l => l

/-- The packet that a push instruction builds, before PRIO and SEQ (R124, R125). -/
def buildPacket (s : State) (q w : Nat) : Except Nat (List Nat) :=
  let imm := bits w 31 0
  match opcode w with
  | 0x10 => (readTemplate s q (bits w 45 32) [1, 3, 4, 5, 6, 7]).map
      (mapHead (fun h => if bit w 46 = 1 then setBits h 63 32 imm else h))
  | 0x11 => (readTemplate s q (bits w 45 32) [2]).map (mapHead (fun h => if bit w 46 = 1 then setBits h 63 32 imm else h))
  | 0x15 => (readTemplate s q (bits w 45 32) [8]).map (fun cs =>
      let cs := mapHead (fun h => setBits h 63 32 0) cs
      if bit w 46 = 1 then setRlen imm cs else cs)
  | 0x12 => .ok [9 + imm * 2 ^ 32]
  | 0x13 => .ok [9 + imm * 2 ^ 32 + bits w 35 32 * 2 ^ 104]
  | _ => .ok [8 + 2 ^ 6, bits w 45 0 * 2 ^ 18]

/-- SEQ of the next packet to queue i (R126). -/
def seqOf (s : State) (q i : Nat) : Nat := Store.get 0 (s.stitcher q).seqs i % 2 ^ 16

/-- Stamp PRIO and SEQ. -/
def stamp (prio seq : Nat) : List Nat → List Nat := mapHead (fun h => setBits (setBits h 5 4 prio) 31 16 seq)

/-- Whether a packet is held by gang k and its gang has not committed. -/
def Packet.stagedFor (p : Packet) (k : Nat) : Bool :=
  match p.hold with
  | .gang k' none => k' == k
  | _ => false

/-- The packets of a channel's four queues. -/
def chanPackets (s : State) (c : Nat) : List Packet :=
  ((upTo 4).map fun n => (s.queue (4 * c + n)).head.toList ++ (s.queue (4 * c + n)).cells).flatten

/-- Gang-held packets for gang k that wait in the queues of quad q. -/
def stagedCount (s : State) (q k : Nat) : Nat :=
  ((chansOf q).map (fun c => ((chanPackets s c).filter (fun p => p.stagedFor k)).length)).foldl (· + ·) 0

/-- How the next packet to channel position i is held (R128, R130): by its gang; else at once after a JEV or WAITE; else by the
release time of a WAITT. -/
def holdFor (s : State) (q i w : Nat) : Hold :=
  let st := s.stitcher q
  if bit w 49 = 1 then .gang (bits w 48 47) none
  else if st.immediate.contains i then .immediate (s.edgeAt q ((s.wheel q).k * s.ifac q))
  else match Store.get none st.release i with
    | some (t, late) => .release t late
    | none => .plain

/-- Push one packet to channel position i (R126). The first push after a JEV or WAITE uses up its mark, however the packet is held (R128).
-/
def pushPacket (q i w : Nat) (cells : List Nat) (s : State) : State :=
  let c := 4 * q + i
  let prio := bits w 51 50
  let st := s.stitcher q
  let qi := 4 * c + prio
  let hold := holdFor s q i w
  let s1 := notice qi { cells := stamp prio (seqOf s q qi) cells, stitch := true, hold := hold } s
  (s1.setStitcher q { st with
    seqs := Store.set 0 st.seqs qi (Store.get 0 st.seqs qi + 1)
    immediate := st.immediate.filter (· != i)
    release := match hold with
      | .release _ _ => Store.set none st.release i none
      | _ => st.release }).inc
    .STITCH_PUSH_CNT_COUNT q

/-- The push instruction is complete (R118, R157). -/
def pushDone (q w : Nat) (s : State) : State :=
  let s1 := nextPc q (endWait q s)
  s1.setStitcher q { s1.stitcher q with played := opcode w == 0x10 || opcode w == 0x11 }

/-- Wait for credit before a packet (R127): STALL_CNT counts once per wait. -/
def waitCredit (q : Nat) (rest : List Nat) (s : State) : State :=
  let st := s.stitcher q
  let s1 := if st.wait = .credit then s else s.inc .STITCH_STALL_CNT_COUNT q
  (s1.setStitcher q { st with wait := .credit, todo := rest }).wr .STITCH_STATUS_CREDIT_WAIT 1 q

/-- Push the packets to the remaining channel positions, in ascending order (R126, R127, R130). -/
def pushRest (q w : Nat) (cells : List Nat) : List Nat → State → State
  | [], s => pushDone q w s
  | i :: rest, s =>
    let c := 4 * q + i
    let qi := 4 * c + bits w 51 50
    if allocation s qi true = 0 then stitchFault q 13 s
    else if bit w 49 = 1 ∧ (chanPackets s c).any (fun p => p.stagedFor (bits w 48 47)) then stitchFault q 14 s
    else if available s qi true < cells.length then waitCredit q (i :: rest) s
    else pushRest q w cells rest (pushPacket q i w cells (endWait q s))

/-- A push instruction, from the channel positions still to be pushed. -/
def runPush (q w : Nat) (todo : List Nat) (s : State) : State :=
  match buildPacket s q w with
  | .error f => stitchFault q f (noteTemplate q (bits w 45 32) s)
  | .ok cells => pushRest q w cells todo s

/-- Execute a push instruction (R120): SPEED and RAMP name exactly one channel. -/
def startPush (q w : Nat) (s : State) : State :=
  let todo := (upTo 4).filter (fun i => bit (bits w 55 52) i == 1)
  if todo.isEmpty ∨ ((opcode w = 0x14 ∨ opcode w = 0x15) ∧ todo.length ≠ 1) then stitchFault q 11 s
  else runPush q w todo s

/-- `PLAY`. -/
def execPlay (q : Quad) (s : State) : Out := act s (runOp q.val 0x10 (startPush q.val))

/-- `PLAYA`. -/
def execPlaya (q : Quad) (s : State) : Out := act s (runOp q.val 0x11 (startPush q.val))

/-- `HOLD`. -/
def execHold (q : Quad) (s : State) : Out := act s (runOp q.val 0x12 (startPush q.val))

/-- `MARK`. -/
def execMark (q : Quad) (s : State) : Out := act s (runOp q.val 0x13 (startPush q.val))

/-- `SPEED`. -/
def execSpeed (q : Quad) (s : State) : Out := act s (runOp q.val 0x14 (startPush q.val))

/-- `RAMP`. -/
def execRamp (q : Quad) (s : State) : Out := act s (runOp q.val 0x15 (startPush q.val))

/-- The next packet of a push that waits for credit can be pushed. -/
def creditReady (s : State) (q : Nat) : Bool :=
  match (s.stitcher q).wait, (s.stitcher q).ir, (s.stitcher q).todo with
  | .credit, some w, i :: _ =>
    match buildPacket s q w with
    | .ok cells =>
      let qi := 4 * (4 * q + i) + bits w 51 50
      decide (cells.length ≤ available s qi true) || allocation s qi true == 0
    | .error _ => true
  | _, _, _ => false

/-- `CREDIT_WAIT_END`. -/
def execCreditWaitEnd (q : Quad) (s : State) : Out :=
  act s (on (creditReady s q.val = true) fun s =>
    runPush q.val ((s.stitcher q.val).ir.getD 0) (s.stitcher q.val).todo s)

/-! ### Flow control (R131–R134) -/

/-- `NOP`. -/
def execNop (q : Quad) (s : State) : Out := act s (runOp q.val 0x00 (fun _ => nextPc q.val))

/-- HALT. -/
def halt (q : Nat) (s : State) : State :=
  let s1 := nextPc q s
  raise .stitch q 0 ((s1.wr .STITCH_STATUS_HALTED 1 q).wr .STITCH_STATUS_RUNNING 0 q)

/-- `HALT`. -/
def execHalt (q : Quad) (s : State) : Out := act s (runOp q.val 0x01 (fun _ => halt q.val))

/-- LOOP (R131). -/
def loopOp (q w : Nat) (s : State) : State :=
  let st := s.stitcher q
  if bits w 31 0 = 0 then goto q (bits w 45 32) s
  else if 8 ≤ st.loops.length then stitchFault q 4 s
  else nextPc q (s.setStitcher q { st with loops := (bits w 31 0, st.pc + 1) :: st.loops })

/-- `LOOP`. -/
def execLoop (q : Quad) (s : State) : Out := act s (runOp q.val 0x20 (loopOp q.val))

/-- ENDL (R131). -/
def endLoop (q : Nat) (s : State) : State :=
  let st := s.stitcher q
  match st.loops with
  | [] => stitchFault q 5 s
  | (n, body) :: rest =>
    if n = 0xFFFFFFFF then goto q body s
    else if n - 1 = 0 then nextPc q (s.setStitcher q { st with loops := rest })
    else goto q body (s.setStitcher q { st with loops := (n - 1, body) :: rest })

/-- `ENDL`. -/
def execEndl (q : Quad) (s : State) : Out := act s (runOp q.val 0x21 (fun _ => endLoop q.val))

/-- CALL (R132). -/
def callOp (q w : Nat) (s : State) : State :=
  let st := s.stitcher q
  if 8 ≤ st.calls.length then stitchFault q 6 s
  else goto q (bits w 45 32) (s.setStitcher q { st with calls := (st.pc + 1, st.loops.length) :: st.calls })

/-- `CALL`. -/
def execCall (q : Quad) (s : State) : Out := act s (runOp q.val 0x22 (callOp q.val))

/-- RET (R132). -/
def retOp (q : Nat) (s : State) : State :=
  let st := s.stitcher q
  match st.calls with
  | [] => stitchFault q 7 s
  | (ret, depth) :: rest =>
    if depth ≠ st.loops.length then stitchFault q 8 s
    else goto q ret (s.setStitcher q { st with calls := rest })

/-- `RET`. -/
def execRet (q : Quad) (s : State) : Out := act s (runOp q.val 0x23 (fun _ => retOp q.val))

/-- The flush of R137 and R145 for channel positions of a mask: the queues of each channel, a release time no push has used,
and the mark of the next push. -/
def flushMask (q mask : Nat) (immediate : Bool) (s : State) : State :=
  let st := s.stitcher q
  let ps := (upTo 4).filter (fun i => bit mask i == 1)
  each (maskChans q mask) flushChannel (s.setStitcher q { st with
    release := ps.foldl (fun r i => Store.set none r i none) st.release
    immediate := if immediate then (upTo 4).filter (fun i => st.immediate.contains i || ps.contains i)
                 else st.immediate.filter (fun i => !ps.contains i) })

/-- A jump (R133): pop, flush, continue at the target. -/
def jump (q lpop fmask target : Nat) (s : State) : State :=
  let st := s.stitcher q
  if st.loops.length < lpop then stitchFault q 5 s
  else goto q target (flushMask q fmask true (s.setStitcher q { st with loops := st.loops.drop lpop }))

/-- JEV (R133). -/
def jevOp (q w : Nat) (s : State) : State :=
  let e := bits w 55 52
  if bit w 51 = 1 then jump q (bits w 50 48) (bits w 31 28) (bits w 45 32) s
  else if s.rd .STITCH_EVIN_LATCHED_LATCHED q 0 e = 1 then
    jump q (bits w 50 48) (bits w 31 28) (bits w 45 32) (s.wr .STITCH_EVIN_LATCHED_LATCHED 0 q 0 e)
  else nextPc q s

/-- `JEV`. -/
def execJev (q : Quad) (s : State) : Out := act s (runOp q.val 0x24 (jevOp q.val))

/-! ### Waits (R135, R139) -/

/-- A comparator granted to Stitcher q (R135). -/
def granted (s : State) (q n : Nat) : Bool := s.rd .STITCH_LC_GRANT q 0 n == 1

/-- WAITT begins its wait; it ends by WAITT_RESUME, at once where its tick has passed. -/
def waittOp (q w : Nat) (s : State) : State :=
  let lc := bits w 51 46
  if granted s q lc = false then stitchFault q 12 s
  else
    let adv := if bits w 31 0 = 0 then s.rd .STITCH_WT_ADV_ADV q else bits w 31 0
    (s.setStitcher q { s.stitcher q with wait := .time lc adv (bits w 55 52), waitFrom := s.osc }).wr
      .STITCH_STATUS_WAIT_TIME 1 q

/-- `WAITT`. -/
def execWaitt (q : Quad) (s : State) : Out := act s (runOp q.val 0x28 (waittOp q.val))

/-- Comparator n is armed. -/
def lcArmed (s : State) (n : Nat) : Bool := s.rd .TBASE_LC_CTRL_ARM 0 n == 1

/-- The WAITT of Stitcher q can resume: its comparator holds an armed time it has not used, and the count has reached C − A
(R135). -/
def waittReady (s : State) (q : Nat) : Bool :=
  match (s.stitcher q).wait with
  | .time lc adv _ =>
    lcArmed s lc && Store.get 0 (s.stitcher q).used lc != Store.get 0 s.lcGen lc && decide ((s.lc lc).c ≤ s.now + adv)
  | _ => false

/-- The wait ends and L becomes the release time of each channel named (R135); a later action than a flush supersedes its
mark. -/
def waittResume (q : Nat) (s : State) : State :=
  match (s.stitcher q).wait with
  | .time lc _ mask =>
    let x := s.lc lc
    let t := s.lcInstant lc
    let s1 := nextPc q (endWait q s)
    let st := s1.stitcher q
    let ps := (upTo 4).filter (fun i => bit mask i == 1)
    s1.setStitcher q { st with
      used := Store.set 0 st.used lc (Store.get 0 s.lcGen lc)
      release := ps.foldl (fun r i => Store.set none r i (some (t, x.late))) st.release
      immediate := st.immediate.filter (fun i => !ps.contains i) }
  | _ => s

/-- `WAITT_RESUME`. -/
def execWaittResume (q : Quad) (s : State) : Out := act s (on (waittReady s q.val = true) (waittResume q.val))

/-- WAITE (R139). -/
def waiteOp (q w : Nat) (s : State) : State :=
  let e := bits w 55 52
  if s.rd .STITCH_EVIN_LATCHED_LATCHED q 0 e = 1 then
    nextPc q (flushMask q (bits w 31 28) true (s.wr .STITCH_EVIN_LATCHED_LATCHED 0 q 0 e))
  else
    (s.setStitcher q { s.stitcher q with
      wait := .event e (bits w 31 28) (bit w 51) (bits w 50 48) (bits w 45 32) (bits w 27 0), waitFrom := s.osc }).wr
      .STITCH_STATUS_WAIT_EVENT 1 q

/-- `WAITE`. -/
def execWaite (q : Quad) (s : State) : Out := act s (runOp q.val 0x29 (waiteOp q.val))

/-- The WAITE has waited for its TIMEOUT, in units of 256 ticks (R121, R139). -/
def waiteOver (s : State) (q : Nat) : Bool :=
  match (s.stitcher q).wait with
  | .event _ _ _ _ _ t => t != 0 && decide ((s.stitcher q).waitFrom + 256 * t ≤ s.osc)
  | _ => false

/-- The timeout of a WAITE: no flush is issued (R139). -/
def waiteTimeout (q : Nat) (s : State) : State :=
  match (s.stitcher q).wait with
  | .event _ _ j lpop target _ =>
    let s1 := raise .stitch q 6 (endWait q s)
    if j = 1 then jump q lpop 0 target s1 else nextPc q s1
  | _ => s

/-- `WAITE_TIMEOUT`. -/
def execWaiteTimeout (q : Quad) (s : State) : Out := act s (on (waiteOver s q.val = true) (waiteTimeout q.val))

/-- `EMIT` (R148): the producer presents in this tick. -/
def execEmit (q : Quad) (s : State) : Out :=
  act s (runOp q.val 0x31 (fun w s => present (0x40 + 4 * q.val + bits w 49 48) (nextPc q.val s)))

/-! ### Grants, latches, microcode (R135, R157, R258) -/

/-- A write of LC_GRANT_LO (hi = 0) or LC_GRANT_HI: the bits of comparators that the writer owns apply; another bit written 1
is ignored with OWNER_DENIED (R50, R135). -/
def writeLcGrant (m q hi v : Nat) (s : State) : State :=
  let mine (n : Nat) : Bool := s.rd .TBASE_LC_CTRL_CLAIMED 0 n == 1 && s.rd .TBASE_LC_CTRL_OWNER 0 n == m
  let s1 := each (upTo 32) (fun j s => on (mine (32 * hi + j) = true)
    (fun s => s.wr .STITCH_LC_GRANT (bit v j) q 0 (32 * hi + j)) s) s
  if (upTo 32).any (fun j => bit v j == 1 && !mine (32 * hi + j)) then
    recordErr .stitch q errOwnerDenied m true ((0x60 + 4 * hi) / 4) s1
  else s1

/-- `LC_GRANT_WRITE`. -/
def execLcGrantWrite (m : Master) (q : Quad) (hi : Fin 2) (v : Word) (s : State) : Out :=
  cmd s .stitch q.val (0x60 + 4 * hi.val) m (writeLcGrant m.val q.val hi.val v.toNat)

/-- A write of EVIN_LATCHED: each bit written 1 clears its latch. -/
def clearLatches (q v : Nat) (s : State) : State :=
  each (upTo 16) (fun e s => on (bit v e = 1) (fun s => s.wr .STITCH_EVIN_LATCHED_LATCHED 0 q 0 e) s) s

/-- `EVIN_LATCH_CLEAR`. -/
def execEvinLatchClear (m : Master) (q : Quad) (v : Word) (s : State) : Out :=
  cmd s .stitch q.val 0x6C m (clearLatches q.val v.toNat)

/-- A write of MC_CTRL (R157): master 2 only. -/
def writeMcCtrl (m q v : Nat) (s : State) : State :=
  if m ≠ 2 then recordErr .stitch q errOwnerDenied m true (0x8C / 4) s
  else if bit v 0 = 1 then
    (s.setStitcher q { s.stitcher q with mcFrom := s.osc }).wr .STITCH_STATUS_MC_PENDING 1 q
  else s

/-- `MC_SWITCH_REQ`. -/
def execMcSwitchReq (m : Master) (q : Quad) (s : State) : Out := cmd s .stitch q.val 0x8C m (writeMcCtrl m.val q.val 1)

/-- A moment at which the switch may take place (R157). -/
def mcMoment (s : State) (q : Nat) : Bool :=
  let st := s.stitcher q
  s.rd .STITCH_STATUS_MC_PENDING q == 1 &&
  (s.rd .STITCH_STATUS_RUNNING q == 0 || (st.ir.isNone && mcDue s q) ||
   (match st.wait with
    | .time _ _ _ | .event _ _ _ _ _ _ | .waitc _ _ _ => true
    | _ => false))

/-- The switch to the other microcode bank: what the Stitcher holds carries over; words fetched ahead do not (R116, R157). -/
def mcSwitch (q : Nat) (s : State) : State :=
  let s1 := ((s.wr .STITCH_STATUS_MC_BANK (1 - s.rd .STITCH_STATUS_MC_BANK q) q).wr .STITCH_STATUS_MC_PENDING 0 q).setStitcher q
    { s.stitcher q with ahead := [], played := false }
  raise .stitch q 9 ((s1.wr .STITCH_MC_VER_ACTIVE (s.rd .STITCH_MC_VER_INACTIVE q) q).wr .STITCH_MC_VER_INACTIVE
    (s.rd .STITCH_MC_VER_ACTIVE q) q)

/-- `MC_SWITCH`. -/
def execMcSwitch (q : Quad) (s : State) : Out := act s (on (mcMoment s q.val = true) (mcSwitch q.val))

end Sys2Proof.Machine
end

