-- ==== Sys2Proof/Machine/Jumps.lean ====
section
/-! DEFINITION. Armed jumps and their alternates, events at Stitcher inputs, and gangs (R137–R155). -/

namespace Sys2Proof.Machine

/-! ### Arming (R141–R143) -/

/-- Aim the refill of an alternate's ring parts at its body in Quarry, if it has one (R141, R181). -/
def aimAlternate (c : Nat) (d : Descr) (s : State) : State :=
  if (d.kind = 1 ∨ d.kind = 2) ∧ inBench d.segaddr 1 = false then
    match fetchHeader s c d with
    | .error _ => s
    | .ok h =>
      s.setCse c { s.cse c with altRing := aimAt s c d h (s.cse c).altRing }
  else s

/-- Apply an alternate that is taken but not applied yet, to its branch, or after its promotion to the main branch: it applies
when its body is ready, as though on time (R87, R141). -/
def takeAlternate (c : Nat) (s0 : State) : State :=
  match (s0.cse c).altPend with
  | none => s0
  | some (d, k) =>
    let s := noteSegment c d s0
    let e := s.cse c
    let miss := (((s.wheel (quadOf c)).k : Int) - k).toNat
    let late (t : State) : State := if miss = 0 then t else raise .cse c 1 (t.inc .CSE_LATE_CNT_LATE c)
    match e.alt with
    | some a =>
      match applySources (s.setRing c e.altRing) c d miss a with
      | .wait => s
      | .bad code =>
        countDiscard c code (s.setCse c { e with
          altPend := none, altIdle := some (effectiveIdle e (channelIdle s c)), altRepeat := k,
          altDescr := { prio := d.prio, seq := d.seq, count := d.count } })
      | .done src ring _ => late (s.setCse c { e with alt := some src, altRing := ring, altPend := none })
    | none =>
      match applySources s c d miss e.src with
      | .wait => s
      | .bad code => countDiscard c code (s.setCse c { e with altPend := none })
      | .done src ring _ => late ((s.setCse c { e with src := src, altPend := none }).setRing c ring)

/-- `cells` become the alternate of channel c under input e: a copy of its source state on the next sample with the
descriptor applied (R141). -/
def loadAlternate (c e : Nat) (cells : List Nat) (s : State) : State :=
  let d := decodePacket cells
  let s1 := dropAlternate c s
  let x := s1.cse c
  takeAlternate c (aimAlternate c d (s1.setCse c { x with
    alt := some { x.src with patGen := x.altCount + 1 }, altCount := x.altCount + 1, altDescr := d, altInput := e, altRing := s.ring c
    altIdle := none
    altPend := some (d, ((s.wheel (quadOf c)).k : Nat)) }))

/-- A channel leaves whatever input it was armed under (R143). -/
def unnameChannel (q i : Nat) (s : State) : State :=
  each (upTo 16) (fun e s =>
    match armedJump s q e with
    | some j => setArmed q e (some { j with chmask := j.chmask - bit j.chmask i * 2 ^ i }) s
    | none => s) s

/-- ARM with DISARM = 0 (R141, R143). -/
def armInput (q w : Nat) (cells : List Nat) (s : State) : State :=
  let e := bits w 55 52
  let mask := bits w 31 28
  let ps := (upTo 4).filter (fun i => bit mask i == 1)
  let s1 := each ps (unnameChannel q) (disarmInput q e s)
  let st := s1.stitcher q
  let s2 := each ps (fun i s => loadAlternate (4 * q + i) e (stamp 0 (seqOf s q (4 * (4 * q + i))) cells) s) s1
  nextPc q (setArmed q e (some ⟨bits w 45 32, bits w 50 48, st.loops.length, st.calls.length, mask, none⟩) s2)

/-- ARM: the template is fetched first; a fault in it arms nothing. -/
def armOp (q w : Nat) (s : State) : State :=
  if bits w 31 28 = 0 then armInput q w [] s
  else match readTemplate s q (bits w 27 14) [1, 2, 3, 4, 5, 6, 7] with
    | .error f => stitchFault q f (noteTemplate q (bits w 27 14) s)
    | .ok cells => armInput q w cells s

/-- `ARM`. -/
def execArm (q : Quad) (s : State) : Out :=
  act s (runOp q.val 0x30 (fun w s => if bit w 51 = 0 then armOp q.val w s else s))

/-- `DISARM`. -/
def execDisarm (q : Quad) (s : State) : Out :=
  act s (runOp q.val 0x30 (fun w s => if bit w 51 = 1 then nextPc q.val (disarmInput q.val (bits w 55 52) s) else s))

/-- `RING_REFILL`: `n` bytes of Quarry reach player p's partition of channel c, for the main branch or for its alternate, while Quarry
serves (R282); an alternate that waited for its body applies when it is ready. -/
def execRingRefill (c : Chan) (p : Fin 2) (alt : Bool) (n : BitVec 16) (s : State) : Out :=
  act s (on (served s = true) fun s => takeAlternate c.val
    (if alt then refillAlt c.val p.val n.toNat s else refillMain c.val p.val n.toNat s))

/-! ### Events (R138) -/

/-- The line whose consumer is input e of Stitcher q, if any. -/
def lineOfInput (s : State) (q e : Nat) : Option Nat := (upTo 128).find? (fun l => lineConsumer s l == .input q e)

/-- An event reaches input e of Stitcher q. -/
def eventInput (q e : Nat) (s0 : State) : State :=
  let s : State := { s0 with evin := s0.evin.erase (q, e) }
  let st := s.stitcher q
  match armedJump s q e with
  | some j =>
    match j.switchAt with
    | some _ => s
    | none => setArmed q e (some { j with switchAt := some ((s.clock q).next + 2) }) s
  | none =>
    if waitsOn s q e then
      match st.wait with
      | .event _ fmask _ _ _ _ => nextPc q (flushMask q fmask true (endWait q s))
      | _ => s
    else if s.rd .STITCH_EVIN_CFG_LATCH q 0 e = 1 ∧ s.rd .STITCH_EVIN_LATCHED_LATCHED q 0 e = 0 then
      s.wr .STITCH_EVIN_LATCHED_LATCHED 1 q 0 e
    else if s.rd .STITCH_EVIN_CFG_LATCH q 0 e = 1 then
      match lineOfInput s q e with
      | some l => busyEvent l none s
      | none => s
    else raise .stitch q 8 (s.inc .STITCH_EVIN_IGNORED_COUNT q)

/-- `STITCHER_EVENT_INPUT`: an event that a Harness line has sent reaches the input. -/
def execStitcherEventInput (q : Quad) (e : Fin 16) (s : State) : Out :=
  act s (on ((q.val, e.val) ∈ s.evin) (eventInput q.val e.val))

/-! ### The switch (R145, R147) -/

/-- The alternate's code, markers and pins take the place of the main branch's. An entry of a sample before k_a holds no alternate code and
keeps the main branch's (DESIGN CHOICE, log 130). -/
def SqEntry.toAlt (e : SqEntry) : SqEntry :=
  match e.alt, e.altSig with
  | some a, some g => { code := a, marks := some g.marks, pins := g.pins, patId := g.patId }
  | _, _ => e

/-- Promote the alternate of channel c at update edge n (R145). A FINISH play that has ended in the alternate before the switch does not
end the promoted descriptor: it stands until its COUNT (DESIGN CHOICE, log 130). -/
def promote (c n : Nat) (s : State) : State :=
  let e := s.cse c
  match e.alt with
  | none => s
  | some a =>
    let d := e.altDescr
    let k : Int := (ceilDiv n (s.ifac (quadOf c)) : Nat)
    let s1 := packetCommits c s
    let o := s1.out c
    let s2 := (s1.setOut c { o with
        sq := o.sq.map SqEntry.toAlt, inter := o.inter.map SqEntry.toAlt, latch := o.latch.map SqEntry.toAlt }).setCse c { s1.cse c with
      src := a, alt := none, altDescr := {}, altInput := 0, altIdle := none, altRing := {}, lastVal := a.hist.headD 0
      chain := e.chain.map (fun w => { main := w.alt.getD w.main, alt := none })
      due := k, cur := d, vacant := false, lastRel := none, idle := e.altIdle
      repeatDue := if e.altIdle = some .repeat_ then e.altRepeat else k
      curPlayer := if e.altIdle.isNone ∧ (d.kind = 1 ∨ d.kind = 2) then some d.player else none
      last := if e.altIdle.isNone then some d else e.last }
    (((((((s2.setRing c e.altRing).wr .CSE_STATUS_RUNNING 1 c).wr .CSE_STATUS_IDLE (if e.altIdle.isSome then 1 else 0) c).wr
      .CSE_STATUS_OPEN (if d.count = openCount then 1 else 0) c).wr .CSE_CUR_DESC_KIND d.kind c).wr
      .CSE_CUR_DESC_PRIO d.prio c).wr .CSE_CUR_DESC_SEQ d.seq c).wr .OUT_FAULT_STAT_REPEAT_FAIL 0 c

/-- The inputs of Stitcher q whose switch is due at the next edge, lowest first. -/
def switchInputs (s : State) (q : Nat) : List (Nat × ArmedJump) :=
  ((upTo 16).map (fun e =>
    match armedJump s q e with
    | some j => (match j.switchAt with
      | some n => if n ≤ (s.clock q).next then [(e, j)] else []
      | none => [])
    | none => [])).flatten

/-- Channels named by the jumps of these inputs, as a mask. -/
def switchedMask (js : List (Nat × ArmedJump)) : Nat := js.foldl (fun m j => m ||| j.2.chmask) 0

/-- The program takes an armed jump (R145 step 4): stacks are cut back, queues of the switched channels flushed, and a wait, HALT
or GANG in progress is left. An LPOP larger than what the cut leaves faults with LOOP_UNF after the promotion, without the flush and
JUMP_TAKEN (DESIGN CHOICE, log 130). -/
def armedProgram (q : Nat) (j : ArmedJump) (mask : Nat) (s : State) : State :=
  let st := s.stitcher q
  let commit := st.gang.isSome
  let s1 := endWait q s
  let s2 := s1.setStitcher q { s1.stitcher q with
    ir := none, todo := [], gang := none, played := false,
    loops := st.loops.drop (st.loops.length - j.loops), calls := st.calls.drop (st.calls.length - j.calls) }
  let s3 := if commit then s2.wr .STITCH_GANG_STAT_REASON 7 q else s2
  let s4 := (s3.wr .STITCH_STATUS_HALTED 0 q).wr .STITCH_STATUS_RUNNING 1 q
  let st4 := s4.stitcher q
  if st4.loops.length < j.lpop then stitchFault q 5 s4
  else
    goto q j.target (raise .stitch q 3 (flushMask q mask false
      (s4.setStitcher q { st4 with loops := st4.loops.drop j.lpop })))

/-- The armed switches of quad q at its next edge. -/
def armedSwitch (q : Nat) (s : State) : State :=
  match switchInputs s q with
  | [] => s
  | (e, j) :: rest =>
    let js := (e, j) :: rest
    let mask := switchedMask js
    let n := (s.clock q).next
    let s1 := each (maskChans q mask) (fun c => promote c n) s
    let s2 := each js (fun x => setArmed q x.1 none) s1
    let s3 := if rest.isEmpty then s2 else raise .stitch q 10 s2
    armedProgram q j mask s3

/-- `ARMED_SWITCH`: before the sample edge n_s takes its codes. -/
def execArmedSwitch (q : Quad) (s : State) : Out := act s (on (switchInputs s q.val ≠ []) (armedSwitch q.val))

/-! ### Gangs (R150–R154) -/

/-- GANG READY (R150). -/
def gangReady (q w : Nat) (s : State) : State :=
  let k := bits w 55 54
  let st := s.stitcher q
  let st' : Stitcher := { st with outcome := Store.set 0 st.outcome k 1, flushed := st.flushed.filter (· != k) }
  nextPc q ((s.setStitcher q st').wr .STITCH_GANG_READY_READY 1 q 0 k)

/-- The GANG actions share one opcode; `action` names one. -/
def runGang (q action : Nat) (f : Nat → State → State) (s : State) : State :=
  runOp q 0x38 (fun w s => if bits w 53 52 = action then f w s else s) s

/-- `GANG_READY`. -/
def execGangReady (q : Quad) (s : State) : Out := act s (runGang q.val 0 (gangReady q.val))

/-- GANG COMMIT: the prepare begins (R151). AT_LC needs a granted comparator (R152). -/
def gangCommit (q w : Nat) (s : State) : State :=
  let lc := bits w 31 26
  if bit w 51 = 1 ∧ granted s q lc = false then stitchFault q 12 s
  else
    (s.setStitcher q { s.stitcher q with
      wait := .commit, waitFrom := s.osc
      gang := some ⟨bits w 55 54, bit w 51 == 1, lc, bit w 50 == 1, bits w 45 32, bits w 11 0⟩ }).wr
      .STITCH_STATUS_GANG_WAIT 1 q

/-- `GANG_COMMIT`. -/
def execGangCommit (q : Quad) (s : State) : Out := act s (runGang q.val 1 (gangCommit q.val))

/-- Members of a mask, in ascending order. -/
def gangMembers (mask : Nat) : List Nat := (upTo 12).filter (fun q => bit mask q == 1)

/-- The lead time of a quad in ticks (R86). -/
def leadTicks (s : State) (q : Nat) : Rat := 1600 + ((64 * s.ifac q * 2 ^ 32 : Nat) : Rat) / ((s.qn q : Nat) : Rat)

/-- The instant that fixes the commit sample (R152): the comparator's launch time, or the present plus the largest lead time; none
for a comparator that is not armed. -/
def commitInstant (s : State) (g : GangCommit) : Option Instant :=
  if g.atLc then
    (if lcArmed s g.lc then some (s.lcInstant g.lc) else none)
  else some ((gangMembers g.qmask).foldl (fun m q => max m ((s.osc : Rat) + leadTicks s q)) (s.osc : Rat))

/-- The answer of member m to the prepare of coordinator q: 0 READY, else the reason of its first failing check (R151). A staged packet
that a flush has discarded since the member's READY was flushed, though others are left. -/
def memberAnswer (s : State) (q : Nat) (g : GangCommit) (m : Nat) : Nat :=
  let first := (gangMembers g.qmask).headD m
  if s.rd .CTRL_ENABLE m (Page.code .stitch) = 0 ∨ s.rd .STITCH_STATUS_FAULTED m = 1 then 6
  else if s.rd .STITCH_GANG_READY_READY m 0 g.k = 0 then 1
  else if stagedCount s m g.k = 0 ∨ (s.stitcher m).flushed.contains g.k then 4
  else if s.rd .TBASE_GSTB_CFG_ALIGNED 0 g.k = 0 ∨ s.rd .TBASE_GSTB_CFG_MODE 0 g.k = 0 ∨ rateMatched s m g.k = false then 2
  else if s.ifLog m ≠ s.ifLog first ∨
      wholePeriods (originSub s m) (originSub s first) (s.qn m) (s.ifac m) = false then 2
  else if (upTo 12).any (fun c => c != q && (match (s.stitcher c).gang with
      | some x => bit x.qmask m == 1
      | none => false)) then 3
  else match commitInstant s g with
    | none => 5
    | some t => if s.firstSample m t < s.firstSample m (s.osc + leadTicks s m) then 5 else 0

/-- Every member of the prepare of Stitcher q answers READY. -/
def commitReady (s : State) (q : Nat) : Bool :=
  match (s.stitcher q).gang with
  | some g => (gangMembers g.qmask).all (fun m => memberAnswer s q g m == 0)
  | none => false

/-- A packet held by gang k takes its commit instant. -/
def Packet.commit (k : Nat) (t : Instant) (p : Packet) : Packet :=
  if p.stagedFor k then { p with hold := .gang k (some t) } else p

/-- Change every packet of queue i. -/
def mapQueue (i : Nat) (f : Packet → Packet) (s : State) : State :=
  s.setQueue i { s.queue i with head := (s.queue i).head.map f, cells := (s.queue i).cells.map f }

/-- The outcome of gang k reaches Stitcher m: 2 committed, 3 aborted. Its READY ends, and a WAITC goes on (R150, R154). -/
def gangOutcome (k o m : Nat) (s : State) : State :=
  let st := s.stitcher m
  let s1 := (s.setStitcher m { st with
    outcome := if Store.get 0 st.outcome k = 1 then Store.set 0 st.outcome k o else st.outcome }).wr .STITCH_GANG_READY_READY 0 m 0 k
  match st.wait with
  | .waitc k' fjump target =>
    if k' = k then (if o = 3 ∧ fjump = 1 then goto m target (endWait m s1) else nextPc m (endWait m s1)) else s1
  | _ => s1

/-- The commit point (R152): every member's gang-held packets take the commit sample. -/
def commitPoint (q : Nat) (s : State) : State :=
  match (s.stitcher q).gang with
  | none => s
  | some g =>
    let t := (commitInstant s g).getD 0
    let ms := gangMembers g.qmask
    let s1 := each ms (fun m s => each (rangeFrom (16 * m) 16) (fun i => mapQueue i (Packet.commit g.k t)) s) s
    let s2 := each ms (gangOutcome g.k 2) s1
    let s3 := endWait q (s2.setStitcher q { s2.stitcher q with gang := none })
    raise .stitch q 4 (nextPc q (s3.wr .STITCH_GANG_STAT_GANG g.k q))

/-- `GANG_COMMIT_POINT`. -/
def execGangCommitPoint (q : Quad) (s : State) : Out := act s (on (commitReady s q.val = true) (commitPoint q.val))

/-- The prepare has failed: some member is not READY and GANG_TMO has passed. -/
def prepareOver (s : State) (q : Nat) : Bool :=
  (s.stitcher q).gang.isSome && !commitReady s q &&
  decide ((s.stitcher q).waitFrom + 256 * s.rd .STITCH_GANG_TMO_TMO q ≤ s.osc)

/-- A failed commit (R153). -/
def prepareFails (q : Nat) (s : State) : State :=
  match (s.stitcher q).gang with
  | none => s
  | some g =>
    let fails := (gangMembers g.qmask).filter (fun m => memberAnswer s q g m != 0)
    let reason := match fails with
      | m :: _ => memberAnswer s q g m
      | [] => 0
    let s1 := endWait q (s.setStitcher q { s.stitcher q with gang := none })
    let s2 := ((s1.wr .STITCH_GANG_STAT_FAIL_QUADS (fails.foldl (fun n m => n + 2 ^ m) 0) q).wr
      .STITCH_GANG_STAT_REASON reason q).wr .STITCH_GANG_STAT_GANG g.k q
    let s3 := raise .stitch q 5 (recordErr .stitch q errPrepareFailed (8 + q) false 0 s2)
    if g.fjump then goto q g.target s3 else nextPc q s3

/-- `GANG_PREPARE_TIMEOUT`. -/
def execGangPrepareTimeout (q : Quad) (s : State) : Out := act s (on (prepareOver s q.val = true) (prepareFails q.val))

/-- Discard the gang-held packets for gang k in queue i (R154). -/
def dropStaged (k i : Nat) (s0 : State) : State :=
  let t := s0.queue i
  let s := if (t.head.toList ++ t.cells).any (fun p => p.stagedFor k) then endPredecessor (i / 4) s0 else s0
  s.setQueue i { t with head := t.head.filter (fun p => !p.stagedFor k), cells := t.cells.filter (fun p => !p.stagedFor k) }

/-- GANG ABORT (R154): with nothing staged it has no effect. -/
def gangAbort (q w : Nat) (s : State) : State :=
  let k := bits w 55 54
  let ms := gangMembers (bits w 11 0)
  if ms.all (fun m => stagedCount s m k == 0) then nextPc q s
  else
    let s1 := each ms (fun m s => each (rangeFrom (16 * m) 16) (dropStaged k) s) s
    nextPc q (each ms (gangOutcome k 3) s1)

/-- `GANG_ABORT`. -/
def execGangAbort (q : Quad) (s : State) : Out := act s (runGang q.val 2 (gangAbort q.val))

/-- GANG WAITC (R150). -/
def gangWaitc (q w : Nat) (s : State) : State :=
  let k := bits w 55 54
  match Store.get 0 (s.stitcher q).outcome k with
  | 1 => (s.setStitcher q { s.stitcher q with wait := .waitc k (bit w 50) (bits w 45 32), waitFrom := s.osc }).wr
      .STITCH_STATUS_GANG_WAIT 1 q
  | 3 => if bit w 50 = 1 then goto q (bits w 45 32) s else nextPc q s
  | _ => nextPc q s

/-- `GANG_WAITC`. -/
def execGangWaitc (q : Quad) (s : State) : Out := act s (runGang q.val 3 (gangWaitc q.val))

end Sys2Proof.Machine
end

