-- ==== Sys2Proof/Machine/Access.lean ====
section
/-! DEFINITION. Memory accesses as a master makes them over the whole address map beside the register range (R22–R27, R278, R307,
R315, R316): the boot ROM, the benches, their aliases and Quarry, with the outcome that the requester sees. -/

namespace Sys2Proof.Machine

/-- What the requester of a memory access sees. -/
structure Outcome where
  denied : Bool := false
  poison : Bool := false
deriving DecidableEq, Repr

/-- The whole access lies in the boot ROM (R26). -/
def inRom (a n : Nat) : Bool := a + n ≤ 0x40000

/-- The access lies in the register range (R26). -/
def inRegisters (a : Nat) : Bool := 0x0020000000 ≤ a && a < 0x0021000000

/-- The bench address behind an alias address, and 2 for a bit-set, 3 for a bit-clear alias, 0 for none. -/
def aliasOf (a n : Nat) : Nat × Nat :=
  if 0x01000000 ≤ a ∧ inBench (a - 0x01000000) n then (a - 0x01000000, 2)
  else if 0x02000000 ≤ a ∧ inBench (a - 0x02000000) n then (a - 0x02000000, 3)
  else (a, 0)

/-- The check of an access to memory (R23, R310, R315): of an alias on the word behind it, where a master may write it at all; of a plain
bench access also that it is aligned as its master's are. The masters of the boot ROM read it, and a write of it changes nothing. -/
def busAllowed (s : State) (m a n : Nat) (write : Bool) : Bool :=
  let (b, k) := aliasOf a n
  let x (kind : Nat) : BenchAccess := { master := m, kind := kind, off := b - benchBase, len := n, data := [], mark := false, other := none }
  if inRom a n ∧ (m = 2 ∨ m = 6) then true
  else if write ∧ k ≠ 0 then benchAligned (x k) && memAllowed s m .alias_ b n
  else memAllowed s m (if write then .write else .read) b n && (!inBench b n || n == 0 || splits m || benchAligned (x 0))

/-- The record of an access to memory that a check rejects (R24, R27). -/
def busDeny (m a n : Nat) (write : Bool) (s : State) : State :=
  if write ∧ (aliasOf a n).2 ≠ 0 then recordErr .bench 0 errRegionDenied m true 0 s else denyMem m (aliasOf a n).1 n write s

/-- A read that the checks admit. A read of an alias returns the bench word (R316). -/
def busLoad (m a n : Nat) (s : State) : List Byte × Outcome × State :=
  if inRom a n ∧ (m = 2 ∨ m = 6) then ((rangeFrom a n).map Config.romByte, {}, s)
  else
    let b := (aliasOf a n).1
    let r := loadMem s m b n
    (r.1, { denied := s.mustRetry b, poison := !s.mustRetry b && r.2.anyPoison b n }, r.2)

/-- A read of `n` bytes by master m. -/
def busReadNow (m a n : Nat) (s : State) : List Byte × Outcome × State :=
  if busAllowed s m a n false then busLoad m a n s else (List.replicate n 0, { denied := true }, busDeny m a n false s)

/-- Some word that a write touches is offline, or is poisoned and only partly covered: that part is discarded (R278, R307). -/
def writePoisoned (s : State) (a n : Nat) : Bool :=
  (rangeFrom a n).any fun b =>
    s.offline b || (s.poisoned b && (poisonWord b < a || a + n < poisonWord b + wordSize (poisonWord b)))

/-- A write that the checks admit. An alias write is one access per aligned item of 1, 2 or 4 bytes (R316). -/
def busStore (m a : Nat) (bs : List Byte) (s : State) : Outcome × State :=
  let n := bs.length
  let (b, k) := aliasOf a n
  if inRom a n ∧ (m = 2 ∨ m = 6) then ({}, s)
  else if k = 0 then ({ denied := s.mustRetry b, poison := writePoisoned (eccRead b n s) b n }, storeMem m b bs s)
  else
    let x : BenchAccess := { master := m, kind := k, off := b - benchBase, len := n, data := bs, mark := false, other := none }
    ({ poison := (eccRead b n s).poisoned b }, serveAccess x s)

/-- A write of `bs` by master m. -/
def busWriteNow (m a : Nat) (bs : List Byte) (s : State) : Outcome × State :=
  if busAllowed s m a bs.length true then busStore m a bs s else ({ denied := true }, busDeny m a bs.length true s)

/-! ### Accesses that wait for Quarry (R25, R282, R285, R301, R314) -/

/-- An access that the checks have admitted, with its data as the master's; a poisoned word read is recorded (R290, R306). -/
def busServe (x : BusWait) (s : State) : State :=
  match x.data with
  | some bs => (busStore x.master x.addr bs s).2
  | none =>
    let r := busLoad x.master x.addr x.len s
    let s1 := if r.2.1.poison then recordErr (memPage (aliasOf x.addr x.len).1) 0 errPoison x.master false 0 r.2.2 else r.2.2
    drawPool x.master { s1 with readData := r.1 }

/-- An access that a check rejects: a read gives zeros (R24). -/
def busRefuse (x : BusWait) (s : State) : State :=
  let s1 := busDeny x.master x.addr x.len x.data.isSome s
  if x.data.isNone then { s1 with readData := List.replicate x.len 0 } else s1

/-- The access waits: Quarry serves no request now, or an earlier access of the master waits for it. -/
def busWaits (s : State) (x : BusWait) : Bool :=
  s.qry.waiting.any (fun y => y.master == x.master) || (decide (quarryBase ≤ x.addr) && quarryHeld s && !s.mustRetry x.addr)

/-- An access that waited is served under the checks that admitted it (R314), and its age counted (R280, R281). -/
def serveWaiting (x : BusWait) (s : State) : State :=
  let s1 := busServe x s
  if quarryBase ≤ x.addr then refreshPort (portOf x.master) (countAge (portOf x.master) (s.osc - x.at_) s1) else s1

/-- The accesses of master m that wait complete before a later access of that master (R25). -/
def settleMaster (m : Nat) (s : State) : State :=
  settleHeld m (each (s.qry.waiting.filter (fun x => x.master == m)) serveWaiting
    { s with qry := { s.qry with waiting := s.qry.waiting.filter (fun x => x.master != m) } })

/-- Quarry serves again: what waited is served in its order, and the bench accesses behind it arrive again. -/
def releaseWaiting (s : State) : State :=
  let s1 := each s.qry.waiting serveWaiting { s with qry := { s.qry with waiting := [] } }
  each s1.ben.held benchArrive { s1 with ben := { s1.ben with held := [] } }

/-- A read of `n` bytes by master m, after the accesses of that master that still wait (R25). -/
def busRead (m a n : Nat) (s : State) : List Byte × Outcome × State := busReadNow m a n (settleMaster m s)

/-- A write of `bs` by master m, after the accesses of that master that still wait (R25). -/
def busWrite (m a : Nat) (bs : List Byte) (s : State) : Outcome × State := busWriteNow m a bs (settleMaster m s)

/-- An access that may wait: it is refused, joins those that wait, or is served after what its master has held at a bench. -/
def busOrWait (x : BusWait) (s : State) : State :=
  if busAllowed s x.master x.addr x.len x.data.isSome = false then busRefuse x s
  else if busWaits s x then
    let s1 : State := { s with qry := { s.qry with waiting := s.qry.waiting ++ [x] } }
    if quarryBase ≤ x.addr then refreshPort (portOf x.master) s1 else s1
  else busServe x (settleHeld x.master s)

/-- Every byte of a poisoned word reads 0 for the host window (R343). -/
def maskPoison (s : State) (a : Nat) (bs : List Byte) : List Byte :=
  let b := (aliasOf a bs.length).1
  (bs.zip (rangeFrom b bs.length)).map (fun p => if s.poisoned p.2 then 0 else p.1)

end Sys2Proof.Machine
end

