-- ==== Sys2Proof/Machine/Quarry.lean ====
section
/-! DEFINITION. Quarry: requests, the schedulers, refresh, row-disturb protection, errors, rank migration, reshape, operating
points and the training helpers (R274–R304). QUARRY event bits: 0 CE, 1 UE, 2 MIG_START, 3 MIG_DONE, 4 RANK_RETIRED, 5 OP_DONE,
6 OP_ABORT, 7 RD_THROTTLE, 8 LAT_MISS, 9 RESHAPE_DONE, 10 INIT_DONE. QPHY event bits: 0 TRN_DONE, 1 PLL_UNLOCK, 2 DRIFT_LIMIT.
A write takes its effect on memory when it is accepted, since that is its acknowledgement (R279). -/

namespace Sys2Proof.Machine

/-! ### Ports, urgency and the pick (R280–R283) -/

/-- First addresses of the 256-byte units that an access touches. -/
def unitStarts (a n : Nat) : List Nat := (rangeFrom (a / 256) ((a + n - 1) / 256 + 1 - a / 256)).map (· * 256)

/-- The unit accesses of a request (R278, R294). -/
def splitUnits (s : State) (r : QReq) : List QUnit :=
  (unitStarts r.addr r.len).flatMap fun a =>
    (ranksFor s (s.logicalRank a) (unitV s a) r.write).map fun p =>
      { id := r.id, port := r.port, rank := p, bank := s.quarryRow a % 16, row := s.quarryRow a % 2 ^ 22 / 16, at_ := r.at_
        addr := max a r.addr, len := if r.write then 0 else min (a + 256) (r.addr + r.len) - max a r.addr }

/-- A request is accepted at its port, after what its master has waiting (R25, R278–R280): a write's bytes take effect, a read takes its
bytes as the writes before it left them, and the unit accesses queue. -/
def acceptRequest (m : Nat) (write : Bool) (a len : Nat) (data : List Byte) (s0 : State) : State :=
  let s := settleHeld m s0
  let n := if write then data.length else len
  if memAllowed s m (if write then .write else .read) a n = false then denyMem m a n write s
  else if s.mustRetry a then recordErr .quarry 0 errRetry m write 0 s
  else
    let r : QReq :=
      { id := s.qry.nextId, port := portOf m, master := m, write := write, addr := a, len := n, at_ := s.osc
        data := if write then [] else s.bytes a n, poison := !write && s.anyPoison a n }
    let s1 := if write then memWrite m a data s else s
    refreshPort r.port { s1 with qry := { s1.qry with
      nextId := s.qry.nextId + 1, reqs := s1.qry.reqs ++ [r], units := s1.qry.units ++ splitUnits s r } }

/-- `QUARRY_REQUEST_ACCEPT`: a read of `len` bytes or a write of `data`. Addresses outside Quarry are no requests of Quarry, and a master
whose earlier access waits for Quarry brings none before that. -/
def execQuarryRequestAccept (m : Master) (write : Bool) (addr : BitVec 40) (len : BitVec 12) (data : List Byte) (s : State) : Out :=
  let n := if write then data.length else len.toNat
  act s (on (quarryReady s = true ∧ 0 < n ∧ quarryBase ≤ addr.toNat ∧ s.qry.waiting.any
      (fun y => y.master == m.val) = false) (acceptRequest m.val write addr.toNat len.toNat data))

def bankOf (s : State) (r b : Nat) : Bank := Store.get {} s.qry.banks (r * 16 + b)
def setBank (r b : Nat) (v : Bank) (s : State) : State :=
  { s with qry := { s.qry with banks := Store.set {} s.qry.banks (r * 16 + b) v } }

/-- Change every bank. -/
def eachBank (f : Bank → Bank) (s : State) : State := { s with qry := { s.qry with banks := Store.mapValues {} f s.qry.banks } }

/-- The unit's row is open. -/
def rowHit (s : State) (u : QUnit) : Bool := (bankOf s u.rank u.bank).row == some u.row

/-- A throttled port may activate in the bank again (R288). -/
def throttleOk (s : State) (u : QUnit) : Bool :=
  (bankOf s u.rank u.bank).throttled.all fun t => t.1 != u.port || t.2 + 40 * s.rd .QUARRY_RD_CFG_RD_GAP ≤ s.osc

/-- The unit access may proceed (R282 step 1, R300 step 2). -/
def unitMay (s : State) (u : QUnit) : Bool :=
  rowHit s u || (throttleOk s u && (s.qry.op != .drain || urgency s u == 3))

/-- The oldest of a list, by acceptance and then by order of queueing. -/
def oldest (us : List QUnit) : Option QUnit :=
  us.foldl (fun m u => match m with | none => some u | some x => if u.at_ < x.at_ then some u else m) none

/-- A bank has served its share of hits while this unit waits for another of its rows (R282 step 4). -/
def hitsSpent (s : State) (u : QUnit) : Bool :=
  let b := bankOf s u.rank u.bank
  b.row.isSome && b.row != some u.row && max 1 (s.rd .QUARRY_QRY_CFG_ROWHIT_MAX) ≤ b.hits

/-- Place of a unit's bank in the order (chip select, bank) of its channel. -/
def bankPlace (u : QUnit) : Nat := u.rank % 2 * 16 + u.bank

/-- The pick of channel ch (R282). -/
def pick (s : State) (ch : Nat) : Option QUnit :=
  let us := s.qry.units.filter (fun u => u.rank / 2 == ch && unitMay s u)
  let top := us.foldl (fun m u => max m (urgency s u)) 0
  let cs := us.filter (fun u => urgency s u == top)
  if top = 3 then
    let p := cs.foldl (fun m u => min m u.port) 7
    oldest (cs.filter (fun u => u.port == p))
  else match oldest (cs.filter (hitsSpent s)), oldest (cs.filter (rowHit s)) with
    | some u, _ => some u
    | none, some u => some u
    | none, none =>
      let ptr := Store.get 0 s.qry.ptr ch
      match (upTo 32).find? (fun i => cs.any (fun u => bankPlace u == (ptr + i) % 32)) with
      | some i => oldest (cs.filter (fun u => bankPlace u == (ptr + i) % 32))
      | none => none

/-- Count an activate of a row in its bank's tracker (R287): the count reached, and the tracker. -/
def Bank.count (b : Bank) (row : Nat) : Nat × Bank :=
  match b.entries.find? (fun e => e.1 == row) with
  | some e => (e.2 + 1, { b with entries := b.entries.map (fun x => if x.1 = row then (x.1, x.2 + 1) else x) })
  | none =>
    if b.entries.length < 16 then (b.floor + 1, { b with entries := b.entries ++ [(row, b.floor + 1)] })
    else
      let low := b.entries.foldl (fun m e => min m e.2) (2 ^ 32)
      (low + 1, { b with floor := low, entries := (b.entries.eraseP (fun e => e.2 == low)) ++ [(row, low + 1)] })

/-- An entry has reached RD_THR (R288). -/
def mitigate (u : QUnit) (b : Bank) (s : State) : State :=
  let b1 : Bank := { b with
    entries := b.entries.map (fun e => if e.1 = u.row then (e.1, b.floor) else e)
    mitigate := b.mitigate ++ [u.row]
    throttled := (b.throttled.filter (fun t => t.1 != u.port)) ++ [(u.port, s.osc)] }
  raise .quarry 0 7 ((((setBank u.rank u.bank b1 s).wr .QUARRY_RD_STAT_THROTTLED 1 0 0 u.port).wr
    .QUARRY_PORT_STAT_THROTTLED 1 0 u.port).inc .QUARRY_RD_STAT_EVENTS)

/-- An activate of the unit's row, closing another row first (R283, R287). -/
def activate (u : QUnit) (s : State) : State :=
  let (n, b) := (bankOf s u.rank u.bank).count u.row
  let b1 : Bank := { b with
    row := some u.row, hits := 0, last := s.osc
    throttled := b.throttled.map (fun t => if t.1 = u.port then (t.1, s.osc) else t) }
  let s1 : State := { s with qry := { s.qry with ptr := Store.set 0 s.qry.ptr (u.rank / 2) ((bankPlace u + 1) % 32) } }
  if max 1 (s.rd .QUARRY_RD_CFG_RD_THR) ≤ n then mitigate u b1 s1 else setBank u.rank u.bank b1 s1

/-- A unit access reads its ECC words on its rank (R289): a word found poisoned marks the request (R290). -/
def readUnit (u : QUnit) (s : State) : State :=
  let words := rangeFrom (u.addr / 64) ((u.addr + u.len + 63) / 64 - u.addr / 64)
  let s1 := each words (fun w s => eccWord u.rank (unitV s u.addr) (wordOf s (64 * w)) (some (64 * w)) s) s
  let bad := words.any (fun w => wordPoisoned s1 u.rank (unitV s1 u.addr) (wordOf s1 (64 * w)))
  { s1 with qry := { s1.qry with reqs := s1.qry.reqs.map (fun r => if r.id = u.id then { r with poison := r.poison || bad } else r) } }

/-- An access to an open row (R283): the unit leaves its queue. -/
def accessRow (u : QUnit) (s : State) : State :=
  let b := bankOf s u.rank u.bank
  let s1 := setBank u.rank u.bank { b with
    hits := b.hits + 1, last := s.osc, row := if s.rd .QUARRY_QRY_CFG_PAGE_IDLE = 0 then none else b.row } s
  let s2 := if u.len = 0 ∨ s1.offline u.addr then s1 else readUnit u s1
  refreshPort u.port { s2 with qry := { s2.qry with units := s2.qry.units.erase u } }

/-- The command that the pick calls for: the activate of its row, or the access. -/
def commandSlot (ch : Nat) (s : State) : State :=
  match pick s ch with
  | none => s
  | some u => if rowHit s u then accessRow u s else activate u s

/-- `QUARRY_COMMAND_SLOT` of channel ch. -/
def execQuarryCommandSlot (ch : Fin 4) (s : State) : Out := act s (on (served s = true) (commandSlot ch.val))

/-- An error comes to the cells of ECC word w of unit V of physical rank p: of grade 1, which every lane corrects, or 2, which a lane
cannot. A row that is not initialised holds nothing that it could reach, and an uncorrectable word stays one. The manual gives errors no
command of their own: they come with the rows that read (DESIGN CHOICE, log entry 142). -/
def addFlaw (grade p v w : Nat) (s : State) : State :=
  let k := flawKey p v w
  if rowReady s p (v / 7) then
    { s with qry := { s.qry with flaws := Store.set 0 s.qry.flaws k (max (Store.get 0 s.qry.flaws k) grade) } }
  else s

/-- An error of one grade comes to each word of a list. -/
def addFlaws (grade : Nat) (ws : List EccPlace) (s : State) : State :=
  each ws (fun x s => addFlaw grade x.1.val x.2.1.val x.2.2.val s) s

/-- A request completes (R278, R280, R290): a read delivers its bytes, those of a rank that did not respond as a free value, with the mark
of what was found poisoned. A write has been acknowledged at its acceptance. -/
def completeRequest (r : QReq) (dead : Option (Fin 8)) (s : State) : State :=
  let s1 := match dead with
    | some p => failRank p.val 4 s
    | none => s
  let s2 : State := { s1 with qry := { s1.qry with reqs := s1.qry.reqs.erase r } }
  let s3 := if r.write then s2
    else
      let p := countAge r.port (s2.osc - r.at_) (match dead with
        | some _ => { s2.nextFree with readData := (upTo r.len).map (Config.lostByte s2.free) }
        | none => { s2 with readData := r.data })
      if r.master ≤ 1 ∧ (r.poison = true ∨ dead.isSome = true) then recordErr .quarry 0 errPoison r.master false 0 p else p
  refreshPort r.port s3

/-- An earlier read of the master is still out: its data comes first (R279). -/
def readsBefore (s : State) (r : QReq) : Bool :=
  !r.write && s.qry.reqs.any (fun x => x.master == r.master && !x.write && decide (x.id < r.id))

/-- `QUARRY_REQUEST_COMPLETE`: request `id`, all of whose unit accesses have been served; `dead` is a rank that did not respond. Errors that
each lane corrects have come to the words `ce` by then, and errors that a lane cannot to the words `ue`: the next read of each meets them. -/
def execQuarryRequestComplete (id : Nat) (ce ue : List EccPlace) (dead : Option (Fin 8)) (s : State) : Out :=
  act s fun s =>
    match s.qry.reqs.find? (fun r => r.id == id) with
    | some r =>
      if s.qry.units.any (fun u => u.id == id) ∨ readsBefore s r then s else completeRequest r dead (addFlaws 2 ue (addFlaws 1 ce s))
    | none => s

/-! ### Operating points (R299–R301) -/

/-- Some queued access has at least this urgency. -/
def anyUrgent (s : State) (n : Nat) : Bool := s.qry.units.any (fun u => n ≤ urgency s u)

/-- A request at urgency 3 aborts the entry (R301). -/
def abortEntry (s : State) : State :=
  if s.qry.op = .drain ∧ s.qry.opForced = false ∧ anyUrgent s 3 = true then
    raise .quarry 0 6 (({ s with qry := { s.qry with op := .aborted } } : State).inc .QUARRY_OP_STAT_ABORTS)
  else s

/-- `URGENCY_RISE`: the registers of port p follow the ages of its queue (R281); an entry may be aborted (R301). -/
def execUrgencyRise (p : Fin 8) (s : State) : Out := act s fun s => abortEntry (refreshPort p.val s)

/-- The inactive timing set (R299). -/
def inactiveSetFor (s : State) (op : Nat) : Bool :=
  if s.rd .QPHY_TSET_CTL_ACTIVE = 0 then s.rd .QPHY_TSET_CTL_B_VALID == 1 && s.rd .QPHY_TSET_CTL_B_OP == op
  else s.rd .QPHY_TSET_CTL_A_VALID == 1 && s.rd .QPHY_TSET_CTL_A_OP == op

def State.setOp (s : State) (p : OpPhase) (t lc : Nat) (forced : Bool) : State :=
  { s with qry := { s.qry with op := p, opTarget := t, opLc := lc, opForced := forced } }

/-- A change of operating point is requested (R300). -/
def opRequest (m : Nat) (s : State) : State :=
  let t := s.rd .QUARRY_OPCTL_TARGET
  if s.rd .QUARRY_STATUS_OP_PENDING = 1 then s
  else if t = 3 then actionErr .quarry 0 errPrepareFailed m s
  else if t = s.rd .QUARRY_STATUS_OP_NOW then s
  else if inactiveSetFor s t = false then actionErr .quarry 0 errPrepareFailed m s
  else
    let forced := s.rd .QUARRY_OPCTL_ABORT_MAX = 0
    (((s.wr .QUARRY_STATUS_OP_PENDING 1).wr .QUARRY_OP_STAT_ABORTS 0).wr .QUARRY_OP_STAT_FORCED (if forced then 1 else 0)).setOp
      (if s.rd .QUARRY_OPCTL_AT_LC = 1 then .waitLc else .drain) t (s.rd .QUARRY_OPCTL_LC) forced

/-- A write of OPCTL (R50, R300): one that names a comparator its writer does not own is rejected whole. -/
def writeOpctl (m v : Nat) (s : State) : State :=
  if bit v 2 = 1 ∧ bit v 3 = 1 ∧ ownsLc s m (bits v 9 4) = false then recordErr .quarry 0 errOwnerDenied m true (0x44 / 4) s
  else
    let s1 := (((s.wr .QUARRY_OPCTL_TARGET (bits v 1 0)).wr .QUARRY_OPCTL_AT_LC (bit v 3)).wr .QUARRY_OPCTL_LC (bits v 9 4)).wr
      .QUARRY_OPCTL_ABORT_MAX (bits v 19 16)
    if bit v 2 = 1 then opRequest m s1 else s1

/-- Masters 0, 1 and 2 write OPCTL, MIG_CTL, RESHAPE, ECC_CFG and RD_CFG. -/
def quarryWriter (m : Nat) : Bool := m ≤ 2

/-- `OP_CHANGE_REQUEST`: a write of OPCTL. -/
def execOpChangeRequest (m : Master) (v : Word) (s : State) : Out :=
  act s (gateBy (quarryWriter m.val) .quarry 0 0x44 m.val (writeOpctl m.val v.toNat))

/-- Every row closes (R283). -/
def closeRows (s : State) : State := eachBank (fun b => { b with row := none, hits := 0 }) s

/-- Self-refresh entry (R300 step 3, R301): the write buffer has been written and every row is closed. -/
def enterSelfRefresh (s : State) : State :=
  let writes := (s.qry.reqs.filter (fun r => r.write)).map (fun r => r.id)
  let s1 := closeRows s
  ({ s1 with qry := { s1.qry with units := s1.qry.units.filter (fun u => !writes.contains u.id) } } : State).wr
    .QUARRY_STATUS_SELF_REFRESH 1

/-- The commit point (R300 step 3). -/
def opCommit (s : State) : State :=
  if s.qry.opForced = false ∧ anyUrgent s 3 = true then abortEntry s
  else
    let s1 := enterSelfRefresh s
    { s1 with qry := { s1.qry with op := .outage, opFrom := s.osc } }

/-- `OP_COMMIT`. -/
def execOpCommit (s : State) : Out := act s (on (served s = true ∧ s.qry.op = .drain) opCommit)

/-- The aborted entry restarts (R301): when no queued request has urgency 2 or 3, or at once when it is forced. -/
def opRestart (s : State) : State :=
  let forced := s.rd .QUARRY_OPCTL_ABORT_MAX ≤ s.rd .QUARRY_OP_STAT_ABORTS
  if forced ∨ anyUrgent s 2 = false then
    ({ s with qry := { s.qry with op := .drain, opForced := forced } } : State).wrIf forced .QUARRY_OP_STAT_FORCED 1
  else s

/-- `OP_ENTRY_RESTART`. -/
def execOpEntryRestart (s : State) : Out := act s (on (s.qry.op = .aborted) opRestart)

/-- The change is done (R300 steps 5 to 8). -/
def opDone (s : State) : State :=
  releaseWaiting <| raise .quarry 0 5
    (((((({ s with qry := { s.qry with op := .idle, lastRefresh := s.osc } } : State).wr .QUARRY_STATUS_OP_NOW s.qry.opTarget).wr
      .QPHY_TSET_CTL_ACTIVE (1 - s.rd .QPHY_TSET_CTL_ACTIVE)).wr .QUARRY_STATUS_SELF_REFRESH 0).wr .QUARRY_STATUS_OP_PENDING 0).wr
      .QUARRY_OP_STAT_LAST_OUTAGE (min 65535 ((s.osc - s.qry.opFrom) / 4)))

/-- Self-refresh ends beside a change of operating point: the refresh timer restarts (R285). -/
def endSelfRefresh (s : State) : State :=
  ({ s with qry := { s.qry with lastRefresh := s.osc } } : State).wr .QUARRY_STATUS_SELF_REFRESH 0

/-- `OP_DONE`. -/
def execOpDone (s : State) : Out := act s (on (s.qry.op = .outage) opDone)

/-! ### Rows and refresh (R283, R285, R287, R288) -/

/-- `ROW_IDLE_CLOSE`. -/
def execRowIdleClose (rank : Fin 8) (bank : Fin 16) (s : State) : Out :=
  let b := bankOf s rank.val bank.val
  act s (on (b.row.isSome = true ∧ b.last + 4 * s.rd .QUARRY_QRY_CFG_PAGE_IDLE ≤ s.osc)
    (setBank rank.val bank.val { b with row := none, hits := 0 }))

/-- `REFRESH`: one refresh interval, 1560 ticks, after the last; a refresh falling due in a drain is skipped (R300). -/
def execRefresh (s : State) : Out :=
  act s (on (served s = true ∧ s.qry.lastRefresh + 1560 ≤ s.osc) fun s =>
    if s.qry.op = .drain then { s with qry := { s.qry with lastRefresh := s.osc } }
    else
      let s1 := closeRows s
      { s1 with qry := { s1.qry with refreshing := true, lastRefresh := s.osc } })

/-- `REFRESH_END`. -/
def execRefreshEnd (s : State) : Out :=
  act s (on (s.qry.refreshing = true) fun s => releaseWaiting { s with qry := { s.qry with refreshing := false } })

/-- `RD_NEIGHBOR_REFRESH`: the neighbours of the longest-waiting hot row of the bank have been refreshed. -/
def execRdNeighborRefresh (rank : Fin 8) (bank : Fin 16) (s : State) : Out :=
  act s fun s =>
    let b := bankOf s rank.val bank.val
    setBank rank.val bank.val { b with mitigate := b.mitigate.drop 1 } s

/-- `RD_WINDOW_RESET`: at counts that are multiples of 12 800 000. -/
def execRdWindowReset (s : State) : Out :=
  act s (on (s.now % 12800000 = 0) fun s =>
    let clear (b : Bank) : Bank := { b with entries := [], floor := 0, throttled := [] }
    each (upTo 8) (fun p s => (s.wr .QUARRY_RD_STAT_THROTTLED 0 0 0 p).wr .QUARRY_PORT_STAT_THROTTLED 0 0 p) (eachBank clear s))

/-! ### Scrub and initialisation (R276, R291) -/

/-- The address of ECC word w of unit V of physical rank p, where its rank holds a logical one or is the target of the migration. -/
def physAddr (s : State) (p v w : Nat) : Option Nat :=
  match holds s p with
  | some lg => some (unitAddr s lg v w)
  | none => if rankState s p = 3 then some (unitAddr s (s.rd .QUARRY_MIG_PTR_LGRANK) v w) else none

/-- `QUARRY_SCRUB`: the mover reads ECC word `w` of unit V of physical rank p, whatever the rank holds; the word meets an error of grade `r`
that has come to it, 0 for none. -/
def execQuarryScrub (p : Fin 8) (v : Fin (7 * 2 ^ 22)) (w : Fin 4) (r : Fin 3) (s : State) : Out :=
  act s (on (served s = true ∧ s.rd .QUARRY_QRY_CFG_SCRUB_EN = 1) fun s =>
    eccWord p.val v.val w.val (physAddr s p.val v.val w.val) (if r.val = 0 then s else addFlaw r.val p.val v.val w.val s))

/-- `INIT_PASS`: the background pass initialises row W of physical rank p. -/
def execInitPass (p : Fin 8) (w : BitVec 22) (s : State) : Out :=
  act s (on (served s = true ∧ s.rd .QUARRY_STATUS_INIT_DONE = 0) fun s =>
    let s1 := initRow p.val w.toNat s
    s1.wr .QUARRY_INIT_PROG_PERCENT (min 100 (100 * s1.qry.rows.length / (8 * 2 ^ 22))))

/-- `INIT_DONE`: every row has been initialised. -/
def execInitDone (s : State) : Out :=
  act s (on (quarryReady s = true ∧ s.rd .QUARRY_STATUS_INIT_DONE = 0) fun s =>
    raise .quarry 0 10 ((({ s with qry := { s.qry with initAll := true } } : State).wr .QUARRY_STATUS_INIT_DONE 1).wr
      .QUARRY_INIT_PROG_PERCENT 100))

/-! ### Migration (R293–R296) -/

/-- A migration of logical rank lg starts. -/
def startMigration (lg cause : Nat) (s : State) : State :=
  let p := lrMap s lg
  let t := s.rd .QUARRY_LRMAP_SPARE
  raise .quarry 0 2 ((((((setRank t 3 (setRank p 2 s)).wr .QUARRY_LRMAP_SPARE 15).wr .QUARRY_MIG_PTR_UNIT 0).wr
    .QUARRY_MIG_PTR_LGRANK lg).wr .QUARRY_MIG_PTR_CAUSE cause).wr .QUARRY_STATUS_MIGRATING 1)

/-- A host start (R293): refused without a free spare or while a migration runs; a number that no logical rank in service has
is refused too (DESIGN CHOICE). -/
def hostMigration (m lg : Nat) (s : State) : State :=
  if rankSpareFree s = false ∨ migrating s then actionErr .quarry 0 errSpareInUse m s
  else if 7 ≤ lg ∨ lrMap s lg = 15 then actionErr .quarry 0 errPrepareFailed m s
  else startMigration lg 3 s

/-- A write of MIG_CTL. -/
def writeMigCtl (m v : Nat) (s : State) : State :=
  let s1 := s.wr .QUARRY_MIG_CTL_RATE (bits v 12 8)
  if bit v 3 = 1 then hostMigration m (bits v 2 0) s1 else s1

/-- The first rank failure that waits: its migration, or its retirement when the spare has gone (R292, R296). -/
def failureStart (s : State) : State :=
  match s.qry.fails with
  | [] => s
  | (p, cause) :: rest =>
    let s1 : State := { s with qry := { s.qry with fails := rest } }
    match holds s p with
    | some lg => if s.rd .QUARRY_LRMAP_SPARE = 15 ∨ migrating s then retireRank p s1 else startMigration lg cause s1
    | none => s1

/-- `MIGRATION_START`: a host start by master m of logical rank lg, or the migration of a failed rank. -/
def execMigrationStart (host : Option (Master × Fin 8)) (s : State) : Out :=
  act s fun s =>
    match host with
    | some (m, lg) => gateBy (quarryWriter m.val) .quarry 0 0x58 m.val (hostMigration m.val lg.val) s
    | none => failureStart s

/-- Bytes that the copy may move in 10 us: RATE % of the present peak of 51.2, 25.6 or 12.8 GB/s; RATE 0 acts as 1, above 20 as 20. -/
def copyBudget (s : State) : Nat :=
  512000 / 2 ^ s.rd .QUARRY_STATUS_OP_NOW * min 20 (max 1 (s.rd .QUARRY_MIG_CTL_RATE)) / 100

/-- The copies of the last 10 us. -/
def recentCopies (s : State) : List Nat := s.qry.copies.filter (fun t => decide (s.osc < t + 4000))

/-- The copy of the next unit, 256 bytes read and 256 written, stays within the rate (R293). -/
def copyMay (s : State) : Bool := decide (512 * ((recentCopies s).length + 1) ≤ copyBudget s)

/-- One word of the copy: read on the source, uncorrectable where that does not respond, and written to the target with its mark. -/
def copyWord (p t v w : Nat) (dead : Bool) (s : State) : State :=
  let a := some (unitAddr s (s.rd .QUARRY_MIG_PTR_LGRANK) v w)
  let s1 := if dead then uncorrectable p v w a s else eccWord p v w a s
  clearFlaw t v w (putPoison t v w (wordPoisoned s1 p v w) s1)

/-- The copy of the next unit (R293): a row that is not initialised on the source stays so on the target. -/
def copyUnit (dead : Bool) (flaws : List (Fin 4 × Bool)) (s : State) : State :=
  let lg := s.rd .QUARRY_MIG_PTR_LGRANK
  let v := s.rd .QUARRY_MIG_PTR_UNIT
  let p := lrMap s lg
  let s0 := each flaws (fun x s => addFlaw (if x.2 then 2 else 1) p v x.1.val s) s
  let s1 := ({ s0 with qry := { s0.qry with copies := recentCopies s ++ [s.osc] } } : State).wr .QUARRY_MIG_PTR_UNIT (v + 1)
  match rowReady s p (v / 7), migTarget s with
  | true, some t => each (upTo 4) (fun w s => copyWord p t v w dead s) (initRow t (v / 7) s1)
  | _, _ => s1

/-- `MIGRATION_UNIT_COPY`: `dead` where the source does not respond; `flaws` are errors that have come to the unit's words, true for one
that a lane cannot correct. -/
def execMigrationUnitCopy (dead : Bool) (flaws : List (Fin 4 × Bool)) (s : State) : Out :=
  act s (on (served s = true ∧ migrating s = true ∧ s.rd .QUARRY_MIG_PTR_UNIT < unitsPerRank ∧ copyMay s = true) (copyUnit dead flaws))

/-- The switch to the target (R295). -/
def migSwitch (s : State) : State :=
  let lg := s.rd .QUARRY_MIG_PTR_LGRANK
  match migTarget s with
  | some t => raise .quarry 0 3 (((setRank t 0 (setRank (lrMap s lg) 4 s)).wr .QUARRY_LRMAP_MAP t 0 0 lg).wr .QUARRY_STATUS_MIGRATING 0)
  | none => s

/-- `MIGRATION_SWITCHOVER`. -/
def execMigrationSwitchover (s : State) : Out :=
  act s (on (served s = true ∧ migrating s = true ∧ s.rd .QUARRY_MIG_PTR_UNIT = unitsPerRank) migSwitch)

/-- A cold reset cuts a migration: the target takes the logical rank by map alone (R296). -/
def finishByMap (s : State) : State :=
  match migrating s, migTarget s with
  | true, some t =>
    let lg := s.rd .QUARRY_MIG_PTR_LGRANK
    ((setRank t 0 (setRank (lrMap s lg) 4 s)).wr .QUARRY_LRMAP_MAP t 0 0 lg).wr .QUARRY_STATUS_MIGRATING 0
  | _, _ => s

/-! ### Reshape (R298) -/

/-- A new generation: no row is initialised and every content reads 0 (R276). -/
def newGeneration (s : State) : State :=
  ({ s with
      mem := s.mem.filter (fun p => p.1 < quarryBase)
      qry := { s.qry with rows := [], initAll := false, flaws := [] } } : State).wr .QUARRY_GEN_GEN (s.rd .QUARRY_GEN_GEN + 1)

/-- The ACTIVE physical ranks in ascending order. -/
def activeRanks (s : State) : List Nat := (upTo 8).filter (fun p => rankState s p == 0)

/-- The address space is laid out again over the surviving ranks. -/
def layOut (s : State) : State :=
  let rs := activeRanks s
  let n := rs.length
  let s1 := each (upTo 7) (fun i s => s.wr .QUARRY_LRMAP_MAP (rs.getD i 15) 0 0 i) (newGeneration s)
  let s2 := (((s1.wr .QUARRY_CAPACITY_N_ACTIVE n).wr .QUARRY_CAPACITY_WAVE_GIB (7 * n - 1)).wr .QUARRY_STATUS_DEGRADED 0).wr
    .QUARRY_STATUS_RESHAPING 1
  let s3 := (s2.wr .QUARRY_STATUS_INIT_DONE 0).wr .QUARRY_INIT_PROG_PERCENT 0
  each (upTo 8) refreshPort { s3 with qry := { s3.qry with reqs := [], units := [] } }

/-- A write of RESHAPE. -/
def writeReshape (m v : Nat) (s : State) : State :=
  if bit v 8 = 0 ∨ bits v 7 0 ≠ 0x5A then s
  else if s.rd .QUARRY_STATUS_DEGRADED = 0 ∨ migrating s ∨ s.rd .QUARRY_STATUS_RESHAPING = 1 ∨ activeRanks s = [] then
    actionErr .quarry 0 errPrepareFailed m s
  else layOut s

/-- `RESHAPE`: a write of RESHAPE with GO = 1. -/
def execReshape (m : Master) (k : Byte) (s : State) : Out :=
  act s (gateBy (quarryWriter m.val) .quarry 0 0x70 m.val (writeReshape m.val (k.toNat + 0x100)))

/-- `RESHAPE_DONE`. -/
def execReshapeDone (s : State) : Out :=
  act s (on (s.rd .QUARRY_STATUS_RESHAPING = 1) fun s => raise .quarry 0 9 (s.wr .QUARRY_STATUS_RESHAPING 0))

/-! ### Training helpers and drift (R303, R304) -/

/-- Key of a PHY entry: set, channel, chip select, operating point, kind and bit. -/
def dlyKey (set ch cs op kind b : Nat) : Nat := ((((set * 4 + ch) * 2 + cs) * 4 + op) * 8 + kind) * 16 + b

/-- The delay or VREF of a key: as written last, or as training found it. -/
def dlyAt (s : State) (k : Nat) : Nat :=
  match Store.get none s.qry.dly k, s.qry.dlySeed with
  | some v, _ => v
  | none, some n => (Config.trainedDelay n k).toNat
  | none, none => 0

/-- The entry that DLY_SEL and TRN_SEL name. -/
def dlySelected (s : State) : Nat :=
  dlyKey (s.rd .QPHY_TRN_SEL_SET) (s.rd .QPHY_TRN_SEL_CH) (s.rd .QPHY_TRN_SEL_CS) (s.rd .QPHY_TRN_SEL_OP) (s.rd .QPHY_DLY_SEL_KIND)
    (s.rd .QPHY_DLY_SEL_BIT)

/-- A write of DLY_VAL; the active set ignores it. -/
def writeDly (v : Nat) (s : State) : State :=
  if s.rd .QPHY_TRN_SEL_SET = s.rd .QPHY_TSET_CTL_ACTIVE then s
  else { s with qry := { s.qry with dly := Store.set none s.qry.dly (dlySelected s) (some (bits v 9 0)) } }

/-- A write of TSET_CTL: the fields of the active set ignore it. -/
def writeTset (v : Nat) (s : State) : State :=
  if s.rd .QPHY_TSET_CTL_ACTIVE = 0 then (s.wr .QPHY_TSET_CTL_B_OP (bits v 5 4)).wr .QPHY_TSET_CTL_B_VALID (bit v 6)
  else (s.wr .QPHY_TSET_CTL_A_OP (bits v 2 1)).wr .QPHY_TSET_CTL_A_VALID (bit v 3)

/-- A helper starts (R303): once Quarry is in service only on a rank that is SPARE or RETIRED. Modes outside 1 to 4 run nothing;
a start while one runs changes nothing (DESIGN CHOICE). -/
def startTraining (m : Nat) (s : State) : State :=
  let p := 2 * s.rd .QPHY_TRN_SEL_CH + s.rd .QPHY_TRN_SEL_CS
  let mode := s.rd .QPHY_TRN_CTL_MODE
  if quarryReady s ∧ rankState s p ≠ 1 ∧ rankState s p ≠ 4 then actionErr .qphy 0 errPrepareFailed m s
  else if mode = 0 ∨ 4 < mode ∨ s.rd .QPHY_CMP_STAT_BUSY = 1 then s
  else ((s.wr .QPHY_CMP_STAT_DONE 0).wr .QPHY_CMP_STAT_BUSY 1).wr .QPHY_STATUS_TRAINING 1

/-- A write of TRN_CTL. -/
def writeTrnCtl (m v : Nat) (s : State) : State :=
  let s1 := s.wr .QPHY_TRN_CTL_MODE (bits v 2 0)
  if bit v 8 = 1 then startTraining m s1 else s1

/-- `TRAINING_RUN`: a write of TRN_CTL with START = 1; only master 2 writes the page. -/
def execTrainingRun (m : Master) (mode : Fin 8) (s : State) : Out :=
  act s (gateBy (m.val == 2) .qphy 0 0x44 m.val (writeTrnCtl m.val (mode.val + 0x100)))

/-- `TRAINING_RUN_DONE`: the failing bits and the failing beats of the run. -/
def execTrainingRunDone (fail : BitVec 16) (errs : Word) (s : State) : Out :=
  act s (on (s.rd .QPHY_CMP_STAT_BUSY = 1) fun s =>
    raise .qphy 0 0 (((((s.wr .QPHY_CMP_STAT_FAIL fail.toNat).wr .QPHY_CMP_STAT_DONE 1).wr .QPHY_CMP_STAT_BUSY 0).wr
      .QPHY_STATUS_TRAINING 0).wr .QPHY_CMP_ERRCNT_COUNT errs.toNat))

/-- The drift of a rank corrects its read and write delays of the active set, by at most 8 steps. -/
def driftUpdate (p : Nat) (steps : Int) (s : State) : State :=
  let d := clampI (-8) 8 steps
  let set := s.rd .QPHY_TSET_CTL_ACTIVE
  let op := if set = 0 then s.rd .QPHY_TSET_CTL_A_OP else s.rd .QPHY_TSET_CTL_B_OP
  let move (kind b : Nat) (dly : Store (Option Nat)) : Store (Option Nat) :=
    let k := dlyKey set (p / 2) (p % 2) op kind b
    Store.set none dly k (some (clampI 0 1023 (dlyAt s k + d)).toNat)
  let dly := (upTo 16).foldl (fun l b => move 4 b (move 3 b l)) s.qry.dly
  let s1 := ({ s with qry := { s.qry with dly := dly, driftAt := Store.set none s.qry.driftAt p (some s.osc) } } : State).wr
    .QPHY_DRIFT_STAT_MAX_STEP
    (max (s.rd .QPHY_DRIFT_STAT_MAX_STEP) (min 255 steps.natAbs))
  if 8 < steps.natAbs then raise .qphy 0 2 s1 else s1

/-- Rank p's drift is due: tracking is enabled and DRIFT_CFG.MS milliseconds have passed since its last measurement. -/
def driftDue (s : State) (p : Nat) : Bool :=
  s.rd .QPHY_DRIFT_CFG_MS != 0 &&
  (match Store.get none s.qry.driftAt p with
   | some t => decide (t + Config.ticksPerMs * s.rd .QPHY_DRIFT_CFG_MS ≤ s.osc)
   | none => true)

/-- `DRIFT_UPDATE`: inside a refresh stall (R304). -/
def execDriftUpdate (p : Fin 8) (steps : BitVec 12) (s : State) : Out :=
  act s (on (s.qry.refreshing = true ∧ driftDue s p.val = true) (driftUpdate p.val (signed 12 steps.toNat)))

end Sys2Proof.Machine
end

