-- ==== Sys2Proof/Machine/Timebase.lean ====
section
/-! DEFINITION. The reference PLL, the count and the epoch (R34–R42). TBASE event bits: 0 PLL_UNLOCK, 1 REF_LOST,
2 REF_RETURN, 3 SLEW_DONE, 4 EPOCH_LOADED, 5 EPOCH_MISMATCH, 6 TALLY_LOS, 7 TALLY_CRC, 8 LC_LATE. -/

namespace Sys2Proof.Machine

/-- The steps of R36: the PLL freezes and enters holdover. A slew in progress ends with the freeze. -/
def enterHoldover (s : State) : State :=
  raise .tbase 0 1 ((((s.wr .TBASE_TB_STATUS_HOLDOVER 1).wr .TBASE_TB_STATUS_REF_PRESENT 0).wr
    .TBASE_TB_STATUS_PLL_LOCKED 0).wr .TBASE_TB_STATUS_SLEWING 0)

/-- The epoch source is one that R34 allows for the reference mode (R40). -/
def epochSourceOk (mode src : Nat) : Bool :=
  src == 0 || (src == 1 && mode == 1) || (src == 2 && mode == 2)

/-- A write of TB_CFG that leaves an armed load without an allowed source cancels it (R40). -/
def checkArmedSource (m : Nat) (s : State) : State :=
  if s.rd .TBASE_TB_STATUS_EPOCH_ARMED = 1 ∧
      epochSourceOk (s.rd .TBASE_TB_CFG_REF_MODE) (s.rd .TBASE_TB_CFG_EPOCH_SRC) = false then
    actionErr .tbase 0 errPrepareFailed m (s.wr .TBASE_TB_STATUS_EPOCH_ARMED 0)
  else s

/-- The reference's edges are detected (R37). -/
def refArrives (s : State) : State := raise .tbase 0 2 (s.wr .TBASE_TB_STATUS_REF_PRESENT 1)

/-- A write of REF_MODE (R34, R37): 3 changes nothing; a new value is a loss of the old reference at once, and INTERNAL arrives at once. -/
def writeRefMode (m v : Nat) (s : State) : State :=
  if v % 4 = 3 ∨ v % 4 = s.rd .TBASE_TB_CFG_REF_MODE then s
  else
    let s1 := checkArmedSource m (enterHoldover (s.wr .TBASE_TB_CFG_REF_MODE v))
    if v % 4 = 0 then refArrives s1 else s1

/-- `REF_MODE_WRITE`. -/
def execRefModeWrite (m : Master) (v : Fin 4) (s : State) : Out :=
  cmd s .tbase 0 0x40 m (writeRefMode m.val v.val)

/-- `HOLD_RESYNC_CLEAR`: the PLL may relock from now on (R37). -/
def execHoldResyncClear (m : Master) (s : State) : Out :=
  cmd s .tbase 0 0x40 m fun s => s.wr .TBASE_TB_CFG_HOLD_RESYNC 0

/-- A write of TALLY_EN (R64): 0 clears TALLY_SYNC without TALLY_LOS. -/
def writeTallyEn (v : Nat) (s : State) : State :=
  let s1 := s.wr .TBASE_TB_CFG_TALLY_EN v
  if v % 2 = 0 then s1.wr .TBASE_TB_STATUS_TALLY_SYNC 0 else s1

/-- `TALLY_EN_WRITE`. -/
def execTallyEnWrite (m : Master) (en : Bool) (s : State) : Out :=
  cmd s .tbase 0 0x40 m (writeTallyEn (if en then 1 else 0))

/-- `REF_LOST` (R36): only an external reference can lose its edges, and only while it is present. -/
def execRefLost (s : State) : Out :=
  act s (on (s.rd .TBASE_TB_CFG_REF_MODE ≠ 0 ∧ s.rd .TBASE_TB_STATUS_REF_PRESENT = 1) enterHoldover)

/-- `PLL_RELOCKED` (R37): frequency lock is regained and the phase slew begins. In holdover this needs the reference and
HOLD_RESYNC = 0; HOLDOVER clears at the relock (DEDUCED). The relock after a PLL_UNLOCK, whose reference never left, begins a slew too
(DESIGN CHOICE, log 131: the rule gives the slew for a returning reference). -/
def execPllRelocked (s : State) : Out :=
  act s (on (s.rd .TBASE_TB_STATUS_PLL_LOCKED = 0 ∧ s.rd .TBASE_TB_STATUS_REF_PRESENT = 1 ∧
      (s.rd .TBASE_TB_STATUS_HOLDOVER = 0 ∨ s.rd .TBASE_TB_CFG_HOLD_RESYNC = 0)) fun s =>
    ((s.wr .TBASE_TB_STATUS_PLL_LOCKED 1).wr .TBASE_TB_STATUS_HOLDOVER 0).wr .TBASE_TB_STATUS_SLEWING 1)

/-- `SLEW_DONE` (R37). -/
def execSlewDone (s : State) : Out :=
  act s (on (s.rd .TBASE_TB_STATUS_SLEWING = 1) fun s =>
    raise .tbase 0 3 ((s.wr .TBASE_TB_STATUS_SLEWING 0).wr .TBASE_TB_STATUS_PHASE_ERR 0))

/-- `PLL_UNLOCK` (R36): the PLL loses lock while its reference is present. -/
def execPllUnlock (s : State) : Out :=
  act s (on (s.rd .TBASE_TB_STATUS_PLL_LOCKED = 1 ∧ s.rd .TBASE_TB_STATUS_REF_PRESENT = 1) fun s =>
    raise .tbase 0 0 (s.wr .TBASE_TB_STATUS_PLL_LOCKED 0))

/-- A write of TB_EPOCH_CMD.ARM = 1 (R40). -/
def epochArm (m : Nat) (s : State) : State :=
  if epochSourceOk (s.rd .TBASE_TB_CFG_REF_MODE) (s.rd .TBASE_TB_CFG_EPOCH_SRC) then
    { s.wr .TBASE_TB_STATUS_EPOCH_ARMED 1 with epoch := { armedAt := s.osc } }
  else actionErr .tbase 0 errPrepareFailed m s

/-- `EPOCH_ARM`. -/
def execEpochArm (m : Master) (s : State) : Out := cmd s .tbase 0 0x58 m (epochArm m.val)

/-- `EPOCH_CANCEL` (R38). -/
def execEpochCancel (m : Master) (s : State) : Out :=
  cmd s .tbase 0 0x58 m fun s => s.wr .TBASE_TB_STATUS_EPOCH_ARMED 0

/-- Ticks from the first tick at least 100 ns after the write of ARM (R38), if it has come. -/
def sinceArm (s : State) : Option Nat := if s.epoch.armedAt + 40 ≤ s.osc then some (s.osc - (s.epoch.armedAt + 40)) else none

/-- The value that a host or PPS load sets (R39): rounded down to a multiple of 4 in REF100 and of 40 in REF10. -/
def hostEpoch (s : State) : Nat :=
  let v := s.rd64 .TBASE_TB_LOAD_LO_LOAD_LO .TBASE_TB_LOAD_HI_LOAD_HI
  match s.rd .TBASE_TB_CFG_REF_MODE with
  | 1 => v / 4 * 4
  | 2 => v / 40 * 40
  | _ => v

/-- `TALLY_SYNC_ACQUIRE` (R64): four consecutive idle characters after TALLY_EN rose. -/
def execTallySyncAcquire (s : State) : Out :=
  act s (on (s.rd .TBASE_TB_CFG_TALLY_EN = 1) fun s => s.wr .TBASE_TB_STATUS_TALLY_SYNC 1)

/-- `TALLY_LOS` (R64): 1 us without a comma while in sync. -/
def execTallyLos (s : State) : Out :=
  act s (on (s.rd .TBASE_TB_STATUS_TALLY_SYNC = 1) fun s =>
    raise .tbase 0 6 (s.wr .TBASE_TB_STATUS_TALLY_SYNC 0))

end Sys2Proof.Machine
end

