-- ==== Sys2Proof/Machine/Comparators.lean ====
section
/-! DEFINITION. Launch comparators, epoch loads, alignment, gang load strobes and TALLY frames (R38–R51, R53, R61–R68). -/

namespace Sys2Proof.Machine

/-! ### Alignment (R53, R61) -/

/-- An instant as a count in 1/256 ticks, truncated (R53, R54). -/
def countSub (s : State) (t : Instant) : Nat := ((t + (s.now : Rat) - (s.osc : Rat)) * 256).floor.toNat

/-- Edge 0 of quad q falls at instant t (R53). A stopped clock takes the timeline and stays stopped. -/
def alignQuad (q : Nat) (t : Instant) (s : State) : State :=
  let s1 := restartSamples q (s.ifac q) s
  let s2 := setOrigin q (countSub s t) (s1.setClock q { s1.clock q with edge0 := t, next := 0 })
  spareFollows q (raise .qclk q 1 ((s2.wr .QCLK_QCLK_STATUS_ALIGNED 1 q).wr .QCLK_QCLK_CFG_ALIGN_ARM 0 q))

/-- Candidate edge 0 of strobe k falls at instant t (R61). -/
def alignGstb (k : Nat) (t : Instant) (s : State) : State :=
  ((s.setGstb k { s.gstb k with hasEdges := true, edge0 := t, origin := countSub s t }).wr .TBASE_GSTB_CFG_ALIGNED 1 0 k).wr
    .TBASE_GSTB_CFG_ALIGN_ARM 0 0 k

/-- A firing asks strobe k for a single strobe at or after instant t; while one is pending it merges (R62). -/
def singleTime (k : Nat) (t : Instant) (s : State) : State :=
  if (s.gstb k).hasEdges = false ∨ s.rd .TBASE_GSTB_STAT_PENDING 0 k = 1 then s
  else (s.setGstb k { s.gstb k with due := t }).wr .TBASE_GSTB_STAT_PENDING 1 0 k

/-! ### Arming and firing (R44–R49) -/

/-- Comparator i is marked late (R49). -/
def markLate (i : Nat) (s : State) : State := raise .tbase 0 8 (s.wr .TBASE_LC_LATE 1 0 0 i)

/-- Put a time into effect (R44, R49). A C not later than the count plus 32 is late (DEDUCED at equality). -/
def putTime (i c f : Nat) (s : State) : State :=
  let late := decide (c ≤ s.now + 32)
  let s1 := (({ s with lcGen := Store.set 0 s.lcGen i (Store.get 0 s.lcGen i + 1) } : State).setLc i
    { c := c, f := f, late := late, lateAt := if late then s.osc else 0 }).wr .TBASE_LC_CTRL_ARM 1 0 i
  if late then markLate i s1 else s1

/-- The armed time of comparator i can still be replaced or cancelled (R48). -/
def canReplace (s : State) (i : Nat) : Bool := !(s.lc i).late && decide (s.now + 32 ≤ (s.lc i).c)

/-- A write of ARM = 1 (R44, R48). -/
def armTime (i c f : Nat) (s : State) : State :=
  if lcArmed s i = false ∨ canReplace s i = true then putTime i c f s
  else s.setLc i { s.lc i with rearm := some (c, f), cancelled := false }

/-- The staged time of comparator i. -/
def stagedTime (s : State) (i : Nat) : Nat := s.rd64 .TBASE_LC_TIME_LO_C_LO .TBASE_LC_TIME_HI_C_HI 0 i

/-- A write of ARM = 0 (R48). -/
def disarm (i : Nat) (s : State) : State :=
  if lcArmed s i = false then s
  else if canReplace s i then (s.setLc i {}).wr .TBASE_LC_CTRL_ARM 0 0 i
  else s.setLc i { s.lc i with rearm := none, cancelled := true }

/-- A commit that waits on comparator i gets its instant (R421): the capture point is past at the latest now. -/
def fireCommits (i : Nat) (t : Instant) (late : Bool) (s : State) : State :=
  let hit (x : Commit) : Bool := x.mode == 1 && x.lc == i && x.due.isNone
  let s1 := each (s.commits.filter (fun x => hit x && !x.captured)) (fun x s => capturePage x.page x.inst s) s
  { s1 with commits := s.commits.map (fun x => if hit x then { x with due := some t, captured := true, late := late } else x) }

/-- What becomes of comparator i after a firing (R45, R48). A periodic re-arm to a count that has passed fires at the next tick
(DEDUCED). -/
def afterFire (i : Nat) (s : State) : State :=
  let x := s.lc i
  if x.cancelled then (s.setLc i {}).wr .TBASE_LC_CTRL_ARM 0 0 i
  else match x.rearm with
    | some (c, f) => putTime i c f s
    | none =>
      if s.rd .TBASE_LC_CTRL_PERIODIC 0 i = 1 then
        let c := (x.c + s.rd .TBASE_LC_PERIOD_PERIOD 0 i) % 2 ^ 64
        let s1 : State := { s with lcGen := Store.set 0 s.lcGen i (Store.get 0 s.lcGen i + 1) }
        if c ≤ s.now then markLate i (s1.setLc i { c := c, f := x.f, late := true, lateAt := s.osc }) else s1.setLc i { c := c, f := x.f }
      else (s.setLc i {}).wr .TBASE_LC_CTRL_ARM 0 0 i

/-- Comparator i fires (R45, R46): its producer presents, and every function that names it acts. A late one acts from the tick of
firing (R49). -/
def fire (i : Nat) (s : State) : State :=
  let x := s.lc i
  let t : Instant := if x.late then (s.osc : Rat) else s.launchInstant x.c x.f
  let quads := (upTo 12).filter (fun q => s.rd .QCLK_QCLK_CFG_ALIGN_ARM q == 1 && s.rd .QCLK_QCLK_CFG_ALIGN_LC q == i)
  let strobes := (upTo 4).filter (fun k => s.rd .TBASE_GSTB_CFG_ALIGN_ARM 0 k == 1 && s.rd .TBASE_GSTB_CFG_ALIGN_LC 0 k == i)
  let singles := (upTo 4).filter (fun k => s.rd .TBASE_GSTB_CFG_MODE 0 k == 2 && s.rd .TBASE_GSTB_CFG_SINGLE_LC 0 k == i &&
    (s.gstb k).named)
  let caps := (upTo 4).filter (fun b => (s.tier b).capWait && s.rd .BURNISH_CAP_CTRL_CAP_LC 0 b == i)
  let s1 := each quads (fun q s => alignQuad q t s) (present (0x100 + i) s)
  let s2 := each singles (fun k s => singleTime k t s) (each strobes (fun k s => alignGstb k t s) s1)
  let s3 := each caps startCapture (fireCommits i t x.late s2)
  let s4 := if s.qry.op = .waitLc ∧ s.qry.opLc = i then { s3 with qry := { s3.qry with op := .drain } } else s3
  afterFire i s4

/-- Comparator i fires on this tick: its count has come, or it was late on an earlier tick (R45, R49). -/
def fireDue (s : State) (i : Nat) : Bool :=
  let x := s.lc i
  lcArmed s i && (if x.late then decide (x.lateAt < s.osc) else decide (x.c ≤ s.now))

/-- `LC_FIRE`. -/
def execLcFire (i : Lc) (s : State) : Out := act s (on (fireDue s i.val = true) (fire i.val))

/-! ### Claim and release (R50, R51) -/

/-- An alignment of QCLK page q that names a released comparator is disarmed (R51). -/
def alignReleased (i q : Nat) (s : State) : State :=
  if s.rd .QCLK_QCLK_CFG_ALIGN_LC q = i then s.wr .QCLK_QCLK_CFG_ALIGN_ARM 0 q else s

/-- The slots of every line that hold a released comparator's code name none from now on (R51, R247). -/
def voidSlots (i : Nat) (s : State) : State :=
  each (upTo 128) (fun l s =>
    match (upTo 8).filter (fun j => s.rd .HARNESS_LINE_SRC_SLOT 0 l j == 0x100 + i && !(s.line l).voids.contains j) with
    | [] => s
    | js => s.setLine l { s.line l with voids := (s.line l).voids ++ js }) s

/-- Functions inside a quad or a Stitcher that name a released comparator. -/
def releaseQuads (i : Nat) (s : State) : State :=
  let s1 := each (upTo 12) (fun q s =>
    let g := s.wr .STITCH_LC_GRANT 0 q 0 i
    let a := alignReleased i q g
    match (s.stitcher q).wait, (s.stitcher q).gang with
    | .time lc _ _, _ => if lc = i then stitchFault q 12 a else a
    | .commit, some x => if x.atLc ∧ x.lc = i then stitchFault q 12 a else a
    | _, _ => a) s
  each (upTo 4) (fun k s =>
    let a := if s.rd .TBASE_GSTB_CFG_ALIGN_LC 0 k = i then s.wr .TBASE_GSTB_CFG_ALIGN_ARM 0 0 k else s
    if s.rd .TBASE_GSTB_CFG_MODE 0 k = 2 ∧ s.rd .TBASE_GSTB_CFG_SINGLE_LC 0 k = i then
      (a.setGstb k { a.gstb k with named := false }).wr .TBASE_GSTB_STAT_PENDING 0 0 k
    else a) (alignReleased i 12 s1)

/-- Device-wide functions that name a released comparator: OPCTL, captures and commits. -/
def releaseUsers (m i : Nat) (s : State) : State :=
  let s1 := if s.qry.op = .waitLc ∧ s.qry.opLc = i then
      actionErr .quarry 0 errPrepareFailed m (({ s with qry := { s.qry with op := .idle } } : State).wr .QUARRY_STATUS_OP_PENDING 0)
    else s
  let s2 := each (upTo 4) (fun t s =>
    if (s.tier t).capWait ∧ s.rd .BURNISH_CAP_CTRL_CAP_LC 0 t = i then
      ((s.setTier t { s.tier t with capWait := false }).wr .BURNISH_CAP_CTRL_BUSY 0 0 t).wr .BURNISH_CAP_CTRL_REFUSED 1 0 t
    else s) s1
  let gone (x : Commit) : Bool := x.mode == 1 && x.lc == i && x.due.isNone
  let s3 := each (s2.commits.filter gone) (fun x s =>
    (s.wr .SHADOW_CMD_PENDING 0 x.inst x.page.code).wr .SHADOW_CMD_REFUSED 1 x.inst x.page.code) s2
  { s3 with commits := s3.commits.filter (fun x => !gone x) }

/-- The release of a comparator: it is disarmed, cleared and named by nothing. -/
def releaseLc (m i : Nat) (s : State) : State :=
  let s1 := (s.setLc i {}).wr .TBASE_LC_LATE 0 0 0 i
  let s2 := each [Reg.TBASE_LC_CTRL_ARM, .TBASE_LC_TIME_LO_C_LO, .TBASE_LC_TIME_HI_C_HI, .TBASE_LC_CTRL_FRAC,
    .TBASE_LC_CTRL_PERIODIC, .TBASE_LC_CTRL_SRC_TALLY, .TBASE_LC_CTRL_TAG, .TBASE_LC_PERIOD_PERIOD, .TBASE_LC_CTRL_OWNER,
    .TBASE_LC_CTRL_CLAIMED] (fun r s => s.wr r 0 0 i) s1
  voidSlots i (releaseUsers m i (releaseQuads i s2))

/-- The fields of a write of LC_CTRL by the owner. -/
def applyLcCtrl (i v : Nat) (s : State) : State :=
  let s1 := (((s.wr .TBASE_LC_CTRL_FRAC (bits v 7 0) 0 i).wr .TBASE_LC_CTRL_PERIODIC (bit v 9) 0 i).wr
    .TBASE_LC_CTRL_SRC_TALLY (bit v 10) 0 i).wr .TBASE_LC_CTRL_TAG (bits v 19 12) 0 i
  if bit v 8 = 1 then armTime i (stagedTime s1 i) (bits v 7 0) s1 else disarm i s1

/-- A write of LC_CTRL (R44, R48, R50, R51). -/
def writeLcCtrl (m i v : Nat) (s : State) : State :=
  let off := (0x408 + 0x10 * i) / 4
  if s.rd .TBASE_LC_CTRL_CLAIMED 0 i = 0 then
    if bit v 31 = 1 then applyLcCtrl i v ((s.wr .TBASE_LC_CTRL_CLAIMED 1 0 i).wr .TBASE_LC_CTRL_OWNER m 0 i)
    else recordErr .tbase 0 errOwnerDenied m true off s
  else if s.rd .TBASE_LC_CTRL_OWNER 0 i = m then (if bit v 31 = 1 then applyLcCtrl i v s else releaseLc m i s)
  else recordErr .tbase 0 (if bit v 31 = 1 then errComparatorExhausted else errOwnerDenied) m true off s

/-- A write of LC_TIME_LO, LC_TIME_HI or LC_PERIOD: the owner's only (R50). -/
def writeLcTime (m i off : Nat) (r : Reg) (v : Nat) (s : State) : State :=
  if ownsLc s m i then s.wr r v 0 i else recordErr .tbase 0 errOwnerDenied m true (off / 4) s

/-- LC_CTRL as it reads, with ARM and CLAIMED as given: the word that a field write writes. -/
def lcWord (s : State) (i arm claimed : Nat) : Nat :=
  s.rd .TBASE_LC_CTRL_FRAC 0 i + 2 ^ 8 * arm + 2 ^ 9 * s.rd .TBASE_LC_CTRL_PERIODIC 0 i + 2 ^ 10 * s.rd .TBASE_LC_CTRL_SRC_TALLY 0 i +
    2 ^ 12 * s.rd .TBASE_LC_CTRL_TAG 0 i + 2 ^ 31 * claimed

/-- A command that writes LC_CTRL of comparator i. -/
def lcCmd (m i v : Nat) (s : State) : Out := act s (gate .tbase 0 (0x408 + 0x10 * i) m true (writeLcCtrl m i v))

/-- `LC_CLAIM`: a write of LC_CTRL with CLAIMED = 1; `v` gives the other fields. -/
def execLcClaim (m : Master) (i : Lc) (v : Word) (s : State) : Out := lcCmd m.val i.val (v.toNat % 2 ^ 31 + 2 ^ 31) s

/-- `LC_RELEASE`: a write of LC_CTRL with CLAIMED = 0. -/
def execLcRelease (m : Master) (i : Lc) (s : State) : Out := lcCmd m.val i.val (lcWord s i.val 0 0) s

/-- `LC_ARM`: a write of LC_CTRL with ARM = 1. -/
def execLcArm (m : Master) (i : Lc) (s : State) : Out := lcCmd m.val i.val (lcWord s i.val 1 1) s

/-- `LC_DISARM`: a write of LC_CTRL with ARM = 0. -/
def execLcDisarm (m : Master) (i : Lc) (s : State) : Out := lcCmd m.val i.val (lcWord s i.val 0 1) s

/-! ### Epoch loads (R38–R43) -/

/-- A step moves the count to v (R43): skipped comparators fire at once as late; quads and strobes lose their alignment. -/
def stepCount (v : Nat) (s : State) : State :=
  let skipped := (upTo 64).filter (fun i => lcArmed s i && decide (s.now < (s.lc i).c) && decide ((s.lc i).c < v))
  let s1 : State := { s with now := v }
  let s2 := each skipped (fun i s => fire i (markLate i (s.setLc i { s.lc i with late := true }))) s1
  let s3 := each (upTo 12) (fun q s => s.wr .QCLK_QCLK_STATUS_ALIGNED 0 q) s2
  each (upTo 4) (fun k s => s.wr .TBASE_GSTB_CFG_ALIGNED 0 0 k) s3

/-- An armed load sets the count to v at this tick (R39, R42). -/
def loadEpoch (v : Nat) (s : State) : State :=
  let s1 := s.wr .TBASE_TB_STATUS_EPOCH_ARMED 0
  if v ≠ s.now ∧ s.rd .TBASE_TB_STATUS_EPOCH_VALID = 1 ∧ s.rd .TBASE_TB_CFG_STEP_ALLOW = 0 then raise .tbase 0 5 s1
  else
    let s2 := raise .tbase 0 4 (s1.wr .TBASE_TB_STATUS_EPOCH_VALID 1)
    if v = s.now then s2 else stepCount v s2

/-- Ticks since the source instant of an armed HOST or PPS load (R38), if it has come: in INTERNAL the first tick at least 100 ns after the
write of ARM; with a reference the edge of `age` ticks ago, in HOST not earlier than that. -/
def loadAge (age : Nat) (s : State) : Option Nat :=
  if s.rd .TBASE_TB_STATUS_EPOCH_ARMED = 0 ∨ s.rd .TBASE_TB_CFG_EPOCH_SRC = 1 then none
  else if s.rd .TBASE_TB_CFG_REF_MODE = 0 then sinceArm s
  else if s.rd .TBASE_TB_STATUS_REF_PRESENT = 0 then none
  else if s.rd .TBASE_TB_CFG_EPOCH_SRC = 2 then some age
  else match sinceArm s with
    | some n => if age ≤ n then some age else none
    | none => none

/-- `EPOCH_LOAD`: the source instant of a HOST or PPS load has come; with a reference it was `age` ticks ago. -/
def execEpochLoad (age : BitVec 8) (s : State) : Out :=
  act s fun s => match loadAge age.toNat s with
    | some n => loadEpoch ((hostEpoch s + n) % 2 ^ 64) s
    | none => s

/-- `REF_RETURN` (R37); `phase` is the phase error that the PLL measures then, in 1/256 tick. A TALLY load whose frame found no SYNC_REF
edge takes place now (R38). -/
def execRefReturn (phase : BitVec 16) (s : State) : Out :=
  act s (on (s.rd .TBASE_TB_STATUS_REF_PRESENT = 0) fun s =>
    let s1 := refArrives (s.wr .TBASE_TB_STATUS_PHASE_ERR phase.toNat)
    match s.epoch.value with
    | some v =>
      if s.rd .TBASE_TB_STATUS_EPOCH_ARMED = 1 ∧ s.rd .TBASE_TB_CFG_EPOCH_SRC = 1 then loadEpoch (v % 2 ^ 64) { s1 with epoch := {} }
      else s1
    | none => s1)

/-! ### Gang load strobes (R61, R62) -/

/-- A write of GSTB_CFG (R50, R62): rejected whole if it names a comparator that its writer does not own; a change of MODE cancels
a pending strobe. -/
def writeGstbCfg (m k v : Nat) (s : State) : State :=
  if (bit v 14 = 1 ∧ ownsLc s m (bits v 13 8) = false) ∨ (bits v 1 0 = 2 ∧ ownsLc s m (bits v 21 16) = false) then
    recordErr .tbase 0 errOwnerDenied m true ((0xC0 + 0x10 * k) / 4) s
  else
    let s1 := if bits v 1 0 ≠ s.rd .TBASE_GSTB_CFG_MODE 0 k then s.wr .TBASE_GSTB_STAT_PENDING 0 0 k else s
    let s2 := (((s1.wr .TBASE_GSTB_CFG_MODE (bits v 1 0) 0 k).wr .TBASE_GSTB_CFG_ALIGN_LC (bits v 13 8) 0 k).wr
      .TBASE_GSTB_CFG_ALIGN_ARM (bit v 14) 0 k).wr .TBASE_GSTB_CFG_SINGLE_LC (bits v 21 16) 0 k
    s2.setGstb k { s2.gstb k with named := bits v 1 0 == 2 }

/-- `GSTB_MODE_WRITE`: a write of GSTB_CFG of strobe k. -/
def execGstbModeWrite (m : Master) (k : Fin 4) (v : Word) (s : State) : Out :=
  cmd s .tbase 0 (0xC0 + 0x10 * k.val) m (writeGstbCfg m.val k.val v.toNat)

/-- A candidate edge of strobe k carries a strobe. -/
def strobeDue (s : State) (k : Nat) : Bool :=
  let mode := s.rd .TBASE_GSTB_CFG_MODE 0 k
  (s.gstb k).hasEdges && (mode == 1 || ((mode == 2 || mode == 3) && s.rd .TBASE_GSTB_STAT_PENDING 0 k == 1 &&
    decide ((s.gstb k).due ≤ (s.osc : Rat))))

/-- `GSTB_STROBE`: the present candidate edge of strobe k. -/
def execGstbStrobe (k : Fin 4) (s : State) : Out :=
  act s (on (strobeDue s k.val = true) fun s => (issueStrobe k.val s).wr .TBASE_GSTB_STAT_PENDING 0 0 k.val)

/-! ### TALLY frames (R64–R68) -/

/-- Little-endian field of a frame; the list begins after the comma, so frame byte n is element n - 1. -/
def frameLe (fr : List Byte) (n len : Nat) : Nat := leValue ((fr.drop (n - 1)).take len)

/-- Frame type. -/
def frameType (fr : List Byte) : Nat := frameLe fr 1 1 / 16

/-- Length that a type has, without the comma. -/
def frameLen (ty : Nat) : Nat := if ty = 1 then 13 else if ty = 2 then 15 else 30

/-- The CRC of the frame matches; its two bytes are little-endian (R65). -/
def frameCrcOk (fr : List Byte) : Bool :=
  decide (2 ≤ fr.length) && crc16 (fr.take (fr.length - 2)) == leValue (fr.drop (fr.length - 2))

/-- The device is the frame's target (R66). -/
def frameTarget (s : State) (fr : List Byte) : Bool :=
  if bit (frameLe fr 1 1) 3 = 1 then frameLe fr 2 1 == s.rd .TBASE_TALLY_CFG_DEV_ID
  else frameLe fr 2 2 &&& s.rd .TBASE_TALLY_CFG_GROUPS != 0

/-- An accepted frame is well formed (R66). -/
def frameForm (fr : List Byte) : Bool :=
  let ty := frameType fr
  (ty == 1 || ty == 2 || ty == 3) && fr.length == frameLen ty && bits (frameLe fr 1 1) 2 0 == 0 &&
  (bit (frameLe fr 1 1) 3 == 0 || frameLe fr 3 1 == 0) &&
  (ty != 3 || (bits (frameLe fr 4 1) 7 6 == 0 && bits (frameLe fr 4 1) 5 4 != 3))

/-- The three checks of a received frame, then its effect (R66); an accepted one wakes the device (R401). A frame of another valid type is
not the command's. -/
def receiveFrame (ty : Nat) (fr : List Byte) (f : State → State) (s : State) : State :=
  if s.rd .TBASE_TB_STATUS_TALLY_SYNC = 0 then s
  else if 1 ≤ frameType fr ∧ frameType fr ≤ 3 ∧ frameType fr ≠ ty then s
  else if frameCrcOk fr = false then raise .tbase 0 7 (s.inc .TBASE_TALLY_CNT_CRC_ERR)
  else if frameTarget s fr = false then s
  else if frameForm fr = false then (wake 3 s).inc .TBASE_TALLY_CNT_DROPPED
  else f (wake 3 s)

/-- An EPOCH frame whose SYNC_REF edge was `age` ticks ago (R38, R39, R42). While SYNC_REF has no edges an armed load keeps the value for
the first one (log 39). -/
def epochFrame (fr : List Byte) (age : Nat) (s : State) : State :=
  let e := frameLe fr 4 8
  let v := (e + 4 * s.rd .TBASE_TALLY_CFG_DLY_EDGES + age) % 2 ^ 64
  if e % 4 ≠ 0 then s.inc .TBASE_TALLY_CNT_DROPPED
  else if s.rd .TBASE_TB_STATUS_EPOCH_ARMED = 1 then
    (if s.rd .TBASE_TB_CFG_EPOCH_SRC ≠ 1 then s
     else if s.rd .TBASE_TB_STATUS_REF_PRESENT = 1 then loadEpoch v s
     else if s.epoch.value.isSome then s
     else { s with epoch := { s.epoch with value := some ((e + 4 * s.rd .TBASE_TALLY_CFG_DLY_EDGES) % 2 ^ 64) } })
  else if v ≠ s.now then raise .tbase 0 5 s
  else s

/-- `TALLY_EPOCH_FRAME`: the bytes after the comma. -/
def execTallyEpochFrame (fr : List Byte) (age : BitVec 16) (s : State) : Out :=
  act s (receiveFrame 1 fr (epochFrame fr age.toNat))

/-- A LAUNCH frame's time is staged and armed as though the owner had written it with ARM = 1 (R67). It lands in LC_TIME and FRAC too
(DEDUCED, log 132). -/
def launchArm (c f i : Nat) (s : State) : State :=
  armTime i c f ((s.wr64 .TBASE_LC_TIME_LO_C_LO .TBASE_LC_TIME_HI_C_HI c 0 i).wr .TBASE_LC_CTRL_FRAC f 0 i)

/-- A LAUNCH frame arms every claimed comparator with SRC_TALLY and its TAG (R67). -/
def launchFrame (fr : List Byte) (s : State) : State :=
  let hit (i : Nat) : Bool := s.rd .TBASE_LC_CTRL_CLAIMED 0 i == 1 && s.rd .TBASE_LC_CTRL_SRC_TALLY 0 i == 1 &&
    s.rd .TBASE_LC_CTRL_TAG 0 i == frameLe fr 4 1
  each ((upTo 64).filter hit) (launchArm (frameLe fr 5 8) (frameLe fr 13 1)) s

/-- `TALLY_LAUNCH_FRAME`. -/
def execTallyLaunchFrame (fr : List Byte) (s : State) : Out := act s (receiveFrame 2 fr (launchFrame fr))

/-- A SPEED frame joins the commands of every subscribed quad (R68). A late one raises LC_LATE also where no quad subscribes to it (DESIGN
CHOICE, log 133). -/
def speedFrame (fr : List Byte) (s : State) : State :=
  let ch := bits (frameLe fr 4 1) 3 0
  let c := frameLe fr 20 8
  let f := frameLe fr 28 1
  let late := decide (256 * c + f < 256 * (s.now + 120))
  let x : SpeedCmd := {
    due := if late then (s.osc : Rat) else s.launchInstant c f, late := false, mode := bits (frameLe fr 4 1) 5 4
    target := frameLe fr 5 8, ramp := frameLe fr 13 4, blend := frameLe fr 17 3 }
  let s1 := each ((upTo 12).filter (fun q => ch != 15 && s.rd .TBASE_TSPD_MAP 0 0 q == ch))
    (fun q s => s.setClock q { s.clock q with tally := (s.clock q).tally ++ [x] }) s
  if late then raise .tbase 0 8 s1 else s1

/-- `TALLY_SPEED_FRAME`. -/
def execTallySpeedFrame (fr : List Byte) (s : State) : Out := act s (receiveFrame 3 fr (speedFrame fr))

end Sys2Proof.Machine
end

