-- ==== Sys2Proof/Machine/Signatures.lean ====
section
/-! DEFINITION. SHA-384, key hashes and signature blocks (R362–R365), and the measurement registers (R375). The hash is that of FIPS 180-4
(PRESUMED: the manual names the standard); the two signature schemes are the uninterpreted checks of Sys2Proof/Config.lean. -/

namespace Sys2Proof.Machine

/-! ### SHA-384 -/

/-- A word of the hash. -/
abbrev HashWord := BitVec 64

/-- The k-th root of x, rounded down, found bit by bit from bit `n - 1` down, above what is found already. -/
def rootFrom (k x : Nat) : Nat → Nat → Nat
  | 0, r => r
  | n + 1, r => rootFrom k x n (if (r + 2 ^ n) ^ k ≤ x then r + 2 ^ n else r)

/-- The first 64 bits of the fraction of the k-th root of a prime below 2^9: the standard takes its constants from them. -/
def rootFraction (k p : Nat) : HashWord := BitVec.ofNat 64 (rootFrom k (p * 2 ^ (64 * k)) 67 0)

/-- The first 80 primes: 2 to 409. -/
def hashPrimes : List Nat := (rangeFrom 2 408).filter fun p => (rangeFrom 2 19).all fun d => p ≤ d || p % d != 0

/-- The constant of each of the 80 rounds: from cube roots. -/
def roundConstants : List HashWord := hashPrimes.map (rootFraction 3)

/-- Big-endian value of bytes. -/
def beValue (bs : List Byte) : Nat := bs.foldl (fun v b => v * 256 + b.toNat) 0

/-- The `n` big-endian bytes of a value. -/
def beBytes (n v : Nat) : List Byte := (leBytes n v).reverse

/-- Cut a list into `n` pieces of `k`. -/
def pieces {α : Type} (k : Nat) : Nat → List α → List (List α)
  | 0, _ => []
  | n + 1, xs => xs.take k :: pieces k n (xs.drop k)

/-- The exclusive or of three turns of a word to the right. -/
def turns (i j k : Nat) (x : HashWord) : HashWord := x.rotateRight i ^^^ x.rotateRight j ^^^ x.rotateRight k

/-- The exclusive or of two turns of a word to the right and one shift. -/
def turnsShift (i j k : Nat) (x : HashWord) : HashWord := x.rotateRight i ^^^ x.rotateRight j ^^^ x >>> k

/-- The hash value, and the working words of a block: the half that the majority mixes and the half that the choice mixes, oldest word
last. -/
structure HashValue where
  major : HashWord × HashWord × HashWord × HashWord
  choice : HashWord × HashWord × HashWord × HashWord
deriving DecidableEq, Repr

/-- The hash value at the start: from square roots of the ninth to the sixteenth prime. -/
def hashStart : HashValue :=
  let r := rootFraction 2
  { major := (r 23, r 29, r 31, r 37), choice := (r 41, r 43, r 47, r 53) }

/-- Add two hash values word by word. -/
def HashValue.add (x y : HashValue) : HashValue :=
  let sum (p q : HashWord × HashWord × HashWord × HashWord) := (p.1 + q.1, p.2.1 + q.2.1, p.2.2.1 + q.2.2.1, p.2.2.2 + q.2.2.2)
  { major := sum x.major y.major, choice := sum x.choice y.choice }

/-- One round; `kw` is the round's constant and message word together. -/
def HashValue.round (kw : HashWord) : HashValue → HashValue
  | ⟨(a, b, c, d), (e, f, g, h)⟩ =>
    let step := h + kw + turns 14 18 41 e + (g ^^^ (e &&& (f ^^^ g)))
    ⟨(step + turns 28 34 39 a + ((a &&& b) ||| (c &&& (a ||| b))), a, b, c), (d + step, e, f, g)⟩

/-- The message word that follows sixteen of them. -/
def nextWord (w : List HashWord) : HashWord :=
  w.headD 0 + turnsShift 1 8 7 (w.getD 1 0) + w.getD 9 0 + turnsShift 19 61 6 (w.getD 14 0)

/-- The rounds of a block, one for each constant, over a window of sixteen message words. -/
def rounds : List HashWord → List HashWord → HashValue → HashValue
  | [], _, v => v
  | k :: ks, w, v => rounds ks (w.tail ++ [nextWord w]) (v.round (k + w.headD 0))

/-- Take one block of 128 bytes into the hash value. -/
def takeBlock (v : HashValue) (block : List Byte) : HashValue :=
  v.add (rounds roundConstants ((pieces 8 16 block).map (fun b => BitVec.ofNat 64 (beValue b))) v)

/-- SHA-384, 48 bytes: the message is followed by the byte 0x80, by zeros up to whole blocks and by its length in bits, in the last 16
bytes. -/
def sha384 (m : List Byte) : List Byte :=
  let n := m.length / 128 + (if m.length % 128 < 112 then 1 else 2)
  let fill := List.replicate (128 * n - m.length - 17) 0
  let v := (pieces 128 n (m ++ 0x80 :: fill ++ beBytes 16 (8 * m.length))).foldl takeBlock hashStart
  [v.major.1, v.major.2.1, v.major.2.2.1, v.major.2.2.2, v.choice.1, v.choice.2.1].flatMap (fun x => beBytes 8 x.toNat)

/-! ### Key hashes and dual signatures (R362–R364) -/

/-- `n` bytes of a list from position `i`. -/
def slice (bs : List Byte) (i n : Nat) : List Byte := (bs.drop i).take n

/-- A little-endian field of `n` bytes at position `i` (R356, R364, R366). -/
def fieldLe (bs : List Byte) (i n : Nat) : Nat := leValue (slice bs i n)

/-- Key hash of an RSA modulus and an SLH-DSA public key (R362). -/
def keyHash (n pk : List Byte) : List Byte := sha384 (n ++ pk)

/-- A dual signature is valid only if both parts verify (R362). -/
def dualVerify (n pk rsa slh msg : List Byte) : Bool := Config.rsaVerify n rsa msg && Config.slhVerify pk slh msg

def labelFw : List Byte := [0x46, 0x57, 0x30, 0x31]
def labelLib : List Byte := [0x4C, 0x42, 0x30, 0x31]
def labelQuote : List Byte := [0x51, 0x54, 0x30, 0x31]
def labelSession : List Byte := [0x53, 0x45, 0x53, 0x31]

/-- Length of a signature block. -/
def sigLen : Nat := 8720

/-- KEY_INDEX of a signature block. -/
def sigKey (b : List Byte) : Nat := fieldLe b 6 2

/-- A signature block verifies for an image of digest `d` under a label; `slot` gives the hash in a valid key slot (R364). -/
def blockVerify (label b d : List Byte) (slot : Nat → Option (List Byte)) : Bool :=
  b.length == sigLen && fieldLe b 0 4 == 0x31474953 && fieldLe b 4 2 == 1 && decide (sigKey b < 4) && fieldLe b 8 4 == sigLen &&
  fieldLe b 12 4 == 0 && slice b 16 48 == d && slot (sigKey b) == some (keyHash (slice b 64 384) (slice b 448 32)) &&
  dualVerify (slice b 64 384) (slice b 448 32) (slice b 480 384) (slice b 864 7856) (label ++ d)

/-- The key hash in a vendor key slot that is not revoked (R365). -/
def vendorSlot (s : State) (i : Nat) : Option (List Byte) :=
  if s.rd .SEC_STATUS_VK_REVOKED 0 0 i = 0 then some (beBytes 48 (Config.vendorKey i).toNat) else none

/-- The key hash in a library key slot (R381). -/
def libSlot (s : State) (i : Nat) : Option (List Byte) := Store.get none s.sec.libKeys i

/-! ### Measurement registers (R375) -/

/-- The 48 bytes of a measurement register: word j holds bytes 4j to 4j + 3 (R4). -/
def mrBytes (s : State) (i : Nat) : List Byte := (upTo 12).flatMap (fun j => leBytes 4 (s.rd .SEC_MR_VALUE 0 i j))

/-- Extend a measurement register with a digest; its count saturates at 15. -/
def extendMr (i : Nat) (d : List Byte) (s : State) : State :=
  let v := sha384 (mrBytes s i ++ d)
  let cnt := s.rd .SEC_MR_CNT_CNT
  let c := bits cnt (4 * i + 3) (4 * i)
  (each (upTo 12) (fun j s => s.wr .SEC_MR_VALUE (fieldLe v (4 * j) 4) 0 i j) s).wr .SEC_MR_CNT_CNT
    (if c < 15 then cnt + 2 ^ (4 * i) else cnt)

end Sys2Proof.Machine
end

