-- ==== Sys2Proof/Machine/Loader.lean ====
section
/-! DEFINITION. The xSPI library port: raw commands and the loader (R352–R361, R381). XSPI event bits: 0 LD_DONE, 1 LD_STOP, 2 RAW_DONE,
3 RELEASED. The flash is outside the block: its bytes come with the commands that read them. -/

namespace Sys2Proof.Machine

/-- A write of the page: masters 0, 1 and 2 only. -/
def xspiWrite (m off : Nat) (f : State → State) (s : State) : State := gateBy (m ≤ 2) .xspi 0 off m f s

/-- The port acts in D0 only (R402, R403). -/
def xspiOn (s : State) : Bool := s.rd .POWER_STATUS_DSTATE == 0

/-! ### Raw commands (R353) -/

/-- A write of RAW_CMD. -/
def writeRawCmd (v : Nat) (s : State) : State :=
  let s1 := ((((s.wr .XSPI_RAW_CMD_OP (bits v 7 0)).wr .XSPI_RAW_CMD_ALEN (bits v 9 8)).wr .XSPI_RAW_CMD_DLEN
    (bits v 13 10)).wr .XSPI_RAW_CMD_DIR (bit v 14)).wr .XSPI_RAW_CMD_DUMMY (bits v 19 15)
  let s2 := s1.wrIf (bit v 21 == 1) .XSPI_RAW_CMD_REFUSED 0
  if bit v 20 = 0 then s2
  else if s.rd .XSPI_STATUS_RAW_BUSY = 1 ∨ s.rd .XSPI_LD_STAT_BUSY = 1 then s2.wr .XSPI_RAW_CMD_REFUSED 1
  else ({ s2 with ldr := { s2.ldr with rawRead := bit v 14 == 1, rawLen := min 8 (bits v 13 10) } } : State).wr
    .XSPI_STATUS_RAW_BUSY 1

/-- `RAW_COMMAND`: a write of RAW_CMD with GO = 1. -/
def execRawCommand (m : Master) (v : Word) (s : State) : Out :=
  act s (xspiWrite m.val 0x48 (writeRawCmd (v.toNat ||| 2 ^ 20)))

/-- A raw command completes; a read puts its bytes into RAW_DATA. -/
def rawDone (data : Nat) (s : State) : State :=
  let n := 2 ^ (8 * s.ldr.rawLen)
  let old := s.rd64 .XSPI_RAW_DATA_LO_DATA .XSPI_RAW_DATA_HI_DATA
  let s1 := if s.ldr.rawRead then s.wr64 .XSPI_RAW_DATA_LO_DATA .XSPI_RAW_DATA_HI_DATA (old / n * n + data % n) else s
  raise .xspi 0 2 (s1.wr .XSPI_STATUS_RAW_BUSY 0)

/-- `RAW_DONE`: `data` is what the flash answered, byte 0 lowest. -/
def execRawDone (data : Dword) (s : State) : Out :=
  act s (on (s.rd .XSPI_STATUS_RAW_BUSY = 1 ∧ xspiOn s = true) (rawDone data.toNat))

/-! ### Images (R356–R358) -/

/-- The directory entry in 32 bytes (R357). -/
def parseEntry (b : List Byte) : DirEntry :=
  { src := fieldLe b 0 4, len := fieldLe b 4 4, dest := fieldLe b 8 5, crc := fieldLe b 16 4, seg := fieldLe b 24 1 == 0
    formOk := fieldLe b 13 3 == 0 && fieldLe b 25 7 == 0 && decide (fieldLe b 24 1 ≤ 1) }

/-- The directory of an image from its first bytes. -/
def directory (h : List Byte) : List DirEntry :=
  (pieces 32 (min (fieldLe h 12 4) (h.length / 32)) (h.drop (fieldLe h 8 4))).map parseEntry

/-- SIGNED in GFLAGS. -/
def imageSigned (h : List Byte) : Bool := bit (fieldLe h 36 4) 0 == 1

/-- Two destination ranges overlap. -/
def overlaps (a b : DirEntry) : Bool := decide (a.dest < b.dest + b.len) && decide (b.dest < a.dest + a.len)

/-- An entry passes the checks that concern it alone (R358). -/
def entryOk (s : State) (h : List Byte) (e : DirEntry) : Bool :=
  e.formOk && decide (e.src + e.len ≤ fieldLe h 16 4) && (!imageSigned h || decide (e.src + e.len ≤ fieldLe h 20 4)) &&
  segInSpace s e.dest e.len && (!e.seg || e.dest % 32 == 0)

/-- No two entries of the list overlap. -/
def disjoint : List DirEntry → Bool
  | [] => true
  | e :: es => es.all (fun x => !overlaps e x) && disjoint es

/-- The header and the directory pass R358; `h` is the image up to the end of its directory. -/
def imageOk (s : State) (h : List Byte) : Bool :=
  fieldLe h 0 4 == 0x444E4D47 && fieldLe h 4 2 == 1 && fieldLe h 6 2 == 64 && fieldLe h 60 4 == crc32c (h.take 60) &&
  fieldLe h 56 4 == crc32c (slice h (fieldLe h 8 4) (32 * fieldLe h 12 4)) &&
  decide (fieldLe h 8 4 + 32 * fieldLe h 12 4 ≤ h.length) &&
  (directory h).all (entryOk s h) && disjoint (directory h)

/-! ### Jobs (R355, R360) -/

/-- A job stops with a cause. -/
def stopJob (cause : Nat) (s : State) : State :=
  raise .xspi 0 1 (({ s with ldr := { s.ldr with got := [] } } : State).wr .XSPI_LD_STAT_BUSY 0 |>.wr .XSPI_LD_STAT_STOP cause)

/-- Start a job, from the beginning or from LD_DONE and LD_RESUME. -/
def startJob (resume : Bool) (s : State) : State :=
  let image := s.rd .XSPI_LD_CTL_IMAGE == 1
  let src := s.rd .XSPI_LD_SRC_OFFSET
  let s1 := if resume then s else
    ((s.wr .XSPI_LD_DONE_BYTES 0).wr .XSPI_LD_RESUME_POINT (if image then 0 else src)).wr .XSPI_LD_ENTRIES_COUNT 0
  let s2 := (((s1.wr .XSPI_LD_STAT_STOP 0).wr .XSPI_LD_STAT_RELEASED 0).wr .XSPI_LD_STAT_BUSY 1).wr .XSPI_LD_STAT_ENTRY
    (if image then s1.rd .XSPI_LD_RESUME_POINT else 0)
  { s2 with ldr := { s2.ldr with
      image := image, src := src, len := s.rd .XSPI_LD_LEN_BYTES, headDue := image, got := [], dir := []
      dst := s.rd64 .XSPI_LD_DST_LO_ADDR .XSPI_LD_DST_HI_ADDR } }

/-- An IMAGE job reads and checks the header and the directory before it writes any byte (R358). -/
def readHead (head : List Byte) (s : State) : State :=
  if imageOk s head = false then stopJob 6 s
  else if s.rd .XSPI_LD_CTL_SIG_REQ = 1 ∧ imageSigned head = false then stopJob 8 s
  else { s with ldr := { s.ldr with
      headDue := false, signed := imageSigned head, sigOff := fieldLe head 20 4, libVer := fieldLe head 32 4
      dir := directory head } }

/-- A firmware install is under way (R383). -/
def installing (s : State) : Bool :=
  (upTo 2).any (fun j => match Store.get none s.sec.replies j with
    | some r => r.op == 0x21 && (r.result == 0 || r.result == 8)
    | none => false)

/-- GO or RESUME: refused while a job or an install runs. -/
def requestJob (resume : Bool) (s : State) : State :=
  if s.rd .XSPI_LD_STAT_BUSY = 1 ∨ installing s then s.wr .XSPI_LD_STAT_REFUSED 1 else startJob resume s

/-! ### Copying -/

/-- Write bytes as master 3 in accesses that end at 64-byte boundaries (R355): the stop cause or 0, and how many were written. -/
def copyOut : Nat → Nat → List Byte → State → Nat × Nat × State
  | 0, _, _, s => (0, 0, s)
  | fuel + 1, a, bs, s =>
    match bs with
    | [] => (0, 0, s)
    | _ =>
      let n := min (64 - a % 64) bs.length
      let r := busWrite 3 a (bs.take n) s
      if r.1.denied then (2, 0, recordErr .xspi 0 errRegionDenied 3 true 0 r.2)
      else if r.1.poison then (3, 0, recordErr .xspi 0 errPoison 3 true 0 r.2)
      else
        let t := copyOut fuel (a + n) (bs.drop n) r.2
        (t.1, t.2.1 + n, t.2.2)

/-- The running entry of an IMAGE job. -/
def currentEntry (s : State) : Option DirEntry := s.ldr.dir[s.rd .XSPI_LD_STAT_ENTRY]?

/-- Where the next byte goes, and how many bytes remain of the entry or the RAW job. -/
def jobRest (s : State) : Nat × Nat :=
  if s.ldr.image then
    match currentEntry s with
    | some e => (e.dest + s.ldr.got.length, e.len - s.ldr.got.length)
    | none => (0, 0)
  else (s.ldr.dst + s.rd .XSPI_LD_DONE_BYTES, s.ldr.len - s.rd .XSPI_LD_DONE_BYTES)

/-- The job copies the bytes that the flash has delivered. -/
def progress (data : List Byte) (s : State) : State :=
  let (a, n) := jobRest s
  let bs := data.take n
  let (cause, k, s1) := copyOut bs.length a bs s
  let s2 := if s.ldr.image then { s1 with ldr := { s1.ldr with got := s1.ldr.got ++ bs.take k } }
    else
      let d := s1.rd .XSPI_LD_DONE_BYTES + k
      (s1.wr .XSPI_LD_DONE_BYTES d).wr .XSPI_LD_RESUME_POINT (s.ldr.src + d)
  if cause = 0 then s2 else stopJob cause s2

/-- A job runs and is past its header. -/
def jobCopies (s : State) : Bool := s.rd .XSPI_LD_STAT_BUSY == 1 && !s.ldr.headDue && xspiOn s

/-- ABORT stops a job at its next access boundary, after `data`. -/
def abortJob (data : List Byte) (s : State) : State :=
  let s1 := if jobCopies s then progress data s else s
  if s1.rd .XSPI_LD_STAT_BUSY = 1 then stopJob 1 s1 else s1

/-- A write of LD_CTL. -/
def writeLdCtl (v : Nat) (s : State) : State :=
  let s1 := s.wr .XSPI_LD_CTL_IMAGE (bit v 3)
  let s2 := if bit v 0 = 1 then requestJob false s1 else if bit v 1 = 1 then requestJob true s1 else s1
  if bit v 2 = 1 then abortJob [] s2 else s2

/-- A job that has just started reads its header at once. -/
def startedJob (head : List Byte) (s0 s : State) : State :=
  if s0.rd .XSPI_LD_STAT_BUSY = 0 ∧ s.rd .XSPI_LD_STAT_BUSY = 1 ∧ s.ldr.headDue = true ∧ xspiOn s = true then readHead head s else s

/-- `LOADER_GO`: `head` is what the flash holds at LD_SRC, up to the end of the directory. -/
def execLoaderGo (m : Master) (image : Bool) (head : List Byte) (s : State) : Out :=
  act s (xspiWrite m.val 0x68 (fun s => startedJob head s (writeLdCtl (if image then 9 else 1) s)))

/-- `LOADER_RESUME`. -/
def execLoaderResume (m : Master) (image : Bool) (head : List Byte) (s : State) : Out :=
  act s (xspiWrite m.val 0x68 (fun s => startedJob head s (writeLdCtl (if image then 10 else 2) s)))

/-- `LOADER_ABORT`: `data` are the bytes copied up to the access boundary. LD_CTL.IMAGE is written as `image`. -/
def execLoaderAbort (m : Master) (image : Bool) (data : List Byte) (s : State) : Out :=
  act s (xspiWrite m.val 0x68 (fun s => abortJob data (s.wr .XSPI_LD_CTL_IMAGE (if image then 1 else 0))))

/-- `NAND_STATUS_POLL`: after `data` the loader polls the NAND status; a ready page whose masked status is ECC_BAD stops the job
(R354). -/
def execNandStatusPoll (data : List Byte) (status : Byte) (s : State) : Out :=
  act s (on (jobCopies s = true ∧ s.rd .XSPI_XSPI_CFG_DEVTYPE = 1) fun s =>
    let s1 := progress data s
    if s1.rd .XSPI_LD_STAT_BUSY = 0 then s1
    else
      let s2 := s1.wr .XSPI_FLASH_STAT_STATUS status.toNat
      if bit status.toNat 0 = 0 ∧ (status.toNat &&& s.rd .XSPI_XSPI_NAND_ECC_MASK) = s.rd .XSPI_XSPI_NAND_ECC_BAD then stopJob 5 s2
      else s2)

/-- The copied bytes of an entry pass their checks (R358). -/
def entryGood (e : DirEntry) (bs : List Byte) : Bool :=
  let h := parseHeader (bs.take 32)
  crc32c bs == e.crc && (!e.seg || (h.ok h.kind && e.len == 32 + 32 * h.blen))

/-- The running entry ends with `data`. -/
def endEntry (e : DirEntry) (data : List Byte) (s : State) : State :=
  let s1 := progress data s
  if s1.rd .XSPI_LD_STAT_BUSY = 0 then s1
  else if entryGood e s1.ldr.got = false then stopJob 7 s1
  else
    let s2 := (((s1.wr .XSPI_LD_DONE_BYTES (s1.rd .XSPI_LD_DONE_BYTES + e.len)).wr .XSPI_LD_ENTRIES_COUNT
      (s1.rd .XSPI_LD_ENTRIES_COUNT + 1)).wr .XSPI_LD_RESUME_POINT (s1.rd .XSPI_LD_STAT_ENTRY + 1)).wr .XSPI_LD_STAT_ENTRY
      (s1.rd .XSPI_LD_STAT_ENTRY + 1)
    { s2 with ldr := { s2.ldr with got := [] } }

/-- `LOADER_ENTRY_DONE`: the rest of the running entry arrives. A job whose header is still to be read reads it first, from
`head`. -/
def execLoaderEntryDone (head data : List Byte) (s : State) : Out :=
  act s (on (s.rd .XSPI_LD_STAT_BUSY = 1 ∧ s.ldr.image = true ∧ xspiOn s = true) fun s =>
    let s1 := if s.ldr.headDue then readHead head s else s
    match currentEntry s1 with
    | some e => if jobCopies s1 ∧ s1.ldr.got.length + data.length = e.len then endEntry e data s1 else s1
    | none => s1)

/-- `FLASH_TIMEOUT`: after `data`, nothing for 1 ms. -/
def execFlashTimeout (data : List Byte) (s : State) : Out :=
  act s (on (s.rd .XSPI_LD_STAT_BUSY = 1 ∧ xspiOn s = true) fun s =>
    let s1 := if s.ldr.headDue then s else progress data s
    if s1.rd .XSPI_LD_STAT_BUSY = 1 then stopJob 4 s1 else s1)

/-- The job ends. RELEASED is set where no signature is required or it has verified (R359). -/
def finishJob (released : Bool) (s : State) : State :=
  let s1 := (s.wr .XSPI_LD_STAT_BUSY 0).wr .XSPI_LD_STAT_DONE 1
  raise .xspi 0 0 (if released then raise .xspi 0 3 (s1.wr .XSPI_LD_STAT_RELEASED 1) else s1)

/-- Write zeros over a destination range, in whole words of its space (R359). -/
def zeroEntry (e : DirEntry) (s : State) : State :=
  let a := poisonWord e.dest
  let w := wordSize a
  let n := ceilDiv (e.dest + e.len - a) w * w
  (copyOut n a (List.replicate n 0) s).2.2

/-- The management core verifies the signature block of a loaded image (R359, R364, R381). -/
def verifyImage (image block : List Byte) (s : State) : State :=
  let d := sha384 image
  if blockVerify labelLib block d (libSlot s) ∧ s.rd .SEC_LIB_VER_MIN_VER ≤ s.ldr.libVer then finishJob true (extendMr 4 d s)
  else raise .sec 0 8 (stopJob 8 (each s.ldr.dir zeroEntry s))

/-- `LOADER_DONE`: a RAW job ends with `data`; an image, all of whose entries are loaded, is verified from its bytes up to SIG_OFF and
its signature block if it is signed. -/
def execLoaderDone (data image block : List Byte) (s : State) : Out :=
  act s (on (jobCopies s = true) fun s =>
    if s.ldr.image then
      if s.rd .XSPI_LD_STAT_ENTRY < s.ldr.dir.length then s
      else if s.ldr.signed = false then finishJob true s
      else if image.length = s.ldr.sigOff ∧ s.fwUp = true then verifyImage image block s
      else s
    else
      let s1 := progress data s
      if s1.rd .XSPI_LD_STAT_BUSY = 1 ∧ s1.rd .XSPI_LD_DONE_BYTES = s.ldr.len then
        finishJob (s.rd .XSPI_LD_CTL_SIG_REQ == 0) s1
      else s1)

end Sys2Proof.Machine
end

