-- ==== Sys2Proof/Machine/Ports.lean ====
section
/-! DEFINITION. The control ports I3C-A (0) and I3C-B (1): common command codes, tunnels, interrupts, health and adoption (R328–R351).
I3C event bits: 0 DAA_DONE, 1 FRAME_ERR, 2 LINK_LOST, 3 OTHER_LOST, 4 RSTACT, 5 IBI_NACK, 6 ADOPTED. Register frames are in
Machine/HostAccess.lean, device resets over a port in Machine/Power.lean. -/

namespace Sys2Proof.Machine

/-- The port answers: a disabled one acknowledges nothing (R349, DEDUCED). -/
def portOn (s : State) (j : Nat) : Bool := s.rd .I3C_LINK_CFG_EN j == 1

/-- A transfer addressed to the port, or a broadcast CCC, restarts its health watchdog (R349). -/
def touchPort (j : Nat) (s : State) : State := s.setPort j { s.port j with alive := s.osc }

/-- A transfer that the port takes. -/
def transfer (j : Nat) (f : State → State) (s : State) : Out := act s (on (portOn s j = true) (fun s => f (touchPort j s)))

/-- A CCC that may be direct: it wakes the device (R401). Where a CCC has a broadcast and a direct form, its row stands for both: a port
takes it with or without a dynamic address (DESIGN CHOICE, log 143). -/
def ccc (j : Nat) (f : State → State) (s : State) : Out := transfer j (fun s => f (wake 1 s)) s

/-- A direct CCC is answered at the dynamic address; a port without one is not addressed. -/
def direct (j : Nat) (f : State → State) (s : State) : Out :=
  act s (on (portOn s j = true ∧ s.rd .I3C_STATUS_DA_VALID j = 1) (fun s => f (wake 1 (touchPort j s))))

/-- Answer bytes of a read. -/
def answer (bs : List Nat) (s : State) : State := { s with readData := bs.map (BitVec.ofNat 8) }

/-! ### Addresses and limits (R332) -/

/-- The port takes a dynamic address. -/
def setDynamic (j a : Nat) (s : State) : State :=
  ((s.wr .I3C_ADDR_STAT_DA a j).wr .I3C_STATUS_DA_VALID 1 j).wr .I3C_STATUS_I2C_MODE 0 j

/-- A dynamic address is assigned: DAA_DONE. -/
def assign (j a : Nat) (s : State) : State := raise .i3c j 0 (setDynamic j a s)

/-- The dynamic address is cleared: the port answers I2C at its static address. -/
def clearDynamic (j : Nat) (s : State) : State :=
  ((s.wr .I3C_ADDR_STAT_DA 0 j).wr .I3C_STATUS_DA_VALID 0 j).wr .I3C_STATUS_I2C_MODE 1 j

/-- `ENEC`: bit 0 of the events byte is ENINT; ENHJ is ignored. -/
def execEnec (j : Fin 2) (events : Byte) (s : State) : Out :=
  ccc j.val (on (bit events.toNat 0 = 1) fun s => s.setPort j.val { s.port j.val with enint := true }) s

/-- `DISEC`. -/
def execDisec (j : Fin 2) (events : Byte) (s : State) : Out :=
  ccc j.val (on (bit events.toNat 0 = 1) fun s => s.setPort j.val { s.port j.val with enint := false }) s

/-- `ENTAS`: ENTAS0 to ENTAS3 are accepted and change nothing. -/
def execEntas (j : Fin 2) (_n : Fin 4) (s : State) : Out := transfer j.val id s

/-- `RSTDAA`. -/
def execRstdaa (j : Fin 2) (s : State) : Out := transfer j.val (clearDynamic j.val) s

/-- `ENTDAA`: a port without a dynamic address takes part with its PID; `won` is the address it is given when it wins. -/
def execEntdaa (j : Fin 2) (won : Option (BitVec 7)) (s : State) : Out :=
  transfer j.val (on (s.rd .I3C_STATUS_DA_VALID j.val = 0) fun s =>
    match won with
    | some a => assign j.val a.toNat s
    | none => s) s

/-- `SETMWL`. -/
def execSetmwl (j : Fin 2) (v : BitVec 16) (s : State) : Out := ccc j.val (fun s => s.wr .I3C_LIMITS_MWL v.toNat j.val) s

/-- `SETMRL`: an IBI payload size byte is ignored. -/
def execSetmrl (j : Fin 2) (v : BitVec 16) (s : State) : Out := ccc j.val (fun s => s.wr .I3C_LIMITS_MRL v.toNat j.val) s

/-- `ENTHDR0`: HDR-DDR. -/
def execEnthdr0 (j : Fin 2) (s : State) : Out := transfer j.val (fun s => s.wr .I3C_STATUS_HDR 1 j.val) s

/-- `HDR_EXIT`. -/
def execHdrExit (j : Fin 2) (s : State) : Out := transfer j.val (fun s => s.wr .I3C_STATUS_HDR 0 j.val) s

/-- The static address (R329). -/
def staticAddr (s : State) : Nat := 0x58 + s.addrPins

/-- `SETAASA`: the static address becomes the dynamic address. -/
def execSetaasa (j : Fin 2) (s : State) : Out := transfer j.val (fun s => assign j.val (staticAddr s) s) s

/-- `SETDASA`. -/
def execSetdasa (j : Fin 2) (a : BitVec 7) (s : State) : Out := ccc j.val (assign j.val a.toNat) s

/-- `SETNEWDA`. -/
def execSetnewda (j : Fin 2) (a : BitVec 7) (s : State) : Out := direct j.val (setDynamic j.val a.toNat) s

/-- `GETMWL`: most significant byte first (PRESUMED). -/
def execGetmwl (j : Fin 2) (s : State) : Out :=
  direct j.val (fun s => answer [s.rd .I3C_LIMITS_MWL j.val / 256, s.rd .I3C_LIMITS_MWL j.val] s) s

/-- `GETMRL`: MRL and the IBI payload size 3. -/
def execGetmrl (j : Fin 2) (s : State) : Out :=
  direct j.val (fun s => answer [s.rd .I3C_LIMITS_MRL j.val / 256, s.rd .I3C_LIMITS_MRL j.val, 3] s) s

/-- The 48-bit PID (R334): the manufacturer ID and the die revision are the part's own. -/
def pid (s : State) (j : Nat) : Nat :=
  (Config.manufacturer ()).toNat * 2 ^ 33 + 0xC048 * 2 ^ 16 + j * 2 ^ 15 + s.addrPins % 8 * 2 ^ 12 + (Config.dieRevision ()).toNat

/-- `GETPID`. -/
def execGetpid (j : Fin 2) (s : State) : Out :=
  direct j.val (fun s => answer ([40, 32, 24, 16, 8, 0].map (fun k => pid s j.val / 2 ^ k)) s) s

/-- `GETBCR`. -/
def execGetbcr (j : Fin 2) (s : State) : Out := direct j.val (fun s => answer [0x27] s) s

/-- `GETDCR`. -/
def execGetdcr (j : Fin 2) (s : State) : Out := direct j.val (fun s => answer [0x00] s) s

/-- `GETMXDS`. -/
def execGetmxds (j : Fin 2) (s : State) : Out := direct j.val (fun s => answer [0x00, 0x20] s) s

/-- `GETCAPS`. -/
def execGetcaps (j : Fin 2) (s : State) : Out := direct j.val (fun s => answer [0x01, 0x01] s) s

/-! ### Pending summary (R345) -/

/-- Some bit of the page's EVT_PEND is set. -/
def pagePending (s : State) (p : Page) (inst : Nat) : Bool := (upTo 32).any (fun b => s.rd .EVT_PEND_PEND inst p.code b == 1)

/-- Every page with its instance. -/
def allPages : List (Page × Nat) := Page.all.flatMap (fun p => (upTo p.count).map (fun i => (p, i)))

/-- Indexes of the pages with a pending event as port j's master sees them: secure pages only in a secure session. -/
def summary (s : State) (j : Nat) : List Nat :=
  (allPages.filter (fun x => pagePending s x.1 x.2 &&
    (s.rd .OWNER_SEC x.2 x.1.code == 0 || s.rd .I3C_STATUS_SECURE j == 1))).map (fun x => x.1.index x.2)

/-- ALERT_N is driven low (R347). -/
def alertLow (s : State) : Bool :=
  (allPages.any (fun x => pagePending s x.1 x.2) && (s.rd .I3C_LINK_CFG_ALERT_EN 0 == 1 || s.rd .I3C_LINK_CFG_ALERT_EN 1 == 1)) ||
  (s.rd .I3C_STATUS_HEALTHY 0 == 0 && s.rd .I3C_STATUS_HEALTHY 1 == 0)

/-- `GETSTATUS`: the summary's size, the protocol-error bit (then cleared), the other port's health and READY (R332). -/
def execGetstatus (j : Fin 2) (s : State) : Out :=
  direct j.val (fun s =>
    let v := min 15 (summary s j.val).length + (if (s.port j.val).protoErr then 2 ^ 5 else 0) +
      2 ^ 8 * s.rd .I3C_STATUS_HEALTHY (1 - j.val) + 2 ^ 9 * s.rd .SYS_STATUS_READY
    answer [v / 256, v] (s.setPort j.val { s.port j.val with protoErr := false })) s

/-! ### Port reset (R333) -/

/-- The open Tack packet of the port's master is abandoned (R168). -/
def dropOpenPacket (j : Nat) (s : State) : State :=
  if s.rd .TACK_PUSH_STAT_OPEN 0 j = 1 ∨ s.rd .TACK_PUSH_STAT_DISCARDING 0 j = 1 then pushAbort j s else s

/-- The port's secure session ends (R377). -/
def endSession (j : Nat) (s : State) : State :=
  if s.rd .I3C_STATUS_SECURE j = 1 then raise .sec 0 5 (s.wr .I3C_STATUS_SECURE 0 j) else s

/-- The port alone is reset: address, pointer, tunnel, open packet and session. -/
def resetPort (j : Nat) (s : State) : State :=
  let s1 := endSession j (dropOpenPacket j (clearDynamic j s))
  let s2 := (((s1.rst .I3C_PTR_LO_ADDR j).rst .I3C_PTR_HI_ADDR j).rst .I3C_PTR_HI_INC j).wr .I3C_STATUS_TUN_BUSY 0 j
  s2.setPort j { s2.port j with
    memLast := false, tun := .none, tunData := [], tunPoison := false, tunDenied := false, tunDropped := false }

/-- `RSTACT_PORT`: defining byte 0x01, or another that acts as it; 0x00 resets nothing. Bytes 0x02, 0x81 and 0x82 are other commands. -/
def execRstactPort (j : Fin 2) (b : Byte) (s : State) : Out :=
  ccc j.val (on (b.toNat ≠ 2 ∧ b.toNat ≠ 0x81 ∧ b.toNat ≠ 0x82) fun s =>
    let s1 := raise .i3c j.val 4 (s.setPort j.val { s.port j.val with rstByte := if b.toNat = 0 then 0 else 1 })
    if b.toNat = 0 then s1 else resetPort j.val s1) s

/-- `RSTACT_QUERY`: defining byte 0x81 or 0x82, answered by 1 ms. -/
def execRstactQuery (j : Fin 2) (s : State) : Out := ccc j.val (answer [1]) s

/-! ### Frames (R335, R336) -/

/-- CRC-8 of a frame (R335). -/
def crc8 (bs : List Byte) : Nat := bs.foldl (crcByte 8 0x07) 0

/-- A frame as it passes or fails the checks of R336, in the order of LAST_ERR. -/
structure Frame where
  op : Nat
  inc : Bool
  addr : Nat
  body : List Byte
deriving DecidableEq, Repr

/-- First byte of a frame. -/
def frameCmd (fr : List Byte) : Nat := (fr.headD 0).toNat

/-- The reason why a frame fails, 0 for none. -/
def frameError (s : State) (j : Nat) (fr : List Byte) (link : Bool) : Nat :=
  let cmd := frameCmd fr
  let chk := bit cmd 4
  let op := bits cmd 2 0
  let len := fr.length - 6 - chk
  let a := leValue ((fr.drop 1).take 5)
  if link then 7
  else if fr.length < 6 + chk ∨ (op = 2 ∧ len = 0) then 1
  else if 3 ≤ op ∨ bits cmd 7 5 ≠ 0 then 2
  else if op = 0 ∧ (a % 4 ≠ 0 ∨ len % 4 ≠ 0) then 3
  else if (op = 0 ∧ 64 < len) ∨ (op = 1 ∧ (len = 0 ∨ 64 < len)) ∨ (op = 2 ∧ 1 < len) then 4
  else if chk = 1 ∧ crc8 (fr.take (fr.length - 1)) ≠ ((fr.getLastD 0).toNat) then 5
  else if s.rd .I3C_LIMITS_MWL j < fr.length then 6
  else 0

/-- The fields of a frame that passes. -/
def parseFrame (fr : List Byte) : Frame :=
  let cmd := frameCmd fr
  { op := bits cmd 2 0, inc := bit cmd 3 == 1, addr := leValue ((fr.drop 1).take 5)
    body := (fr.drop 6).take (fr.length - 6 - bit cmd 4) }

/-- A frame fails: nothing of it applies. -/
def failFrame (j e : Nat) (s : State) : State :=
  raise .i3c j 1 (((s.setPort j { s.port j with protoErr := true }).inc .I3C_FRAME_STAT_FRAME_ERR j).wr .I3C_FRAME_STAT_LAST_ERR e j)

/-- A frame ends on port j (R336, R350); a private write wakes the device (R401). `wire` is 1 for a parity, CRC-5 or framing error, 2 for
an unknown HDR-DDR command code (R339). A frame of another OP is not the command's. -/
def takeFrame (j op : Nat) (fr : List Byte) (wire : Fin 3) (f : Frame → State → State) (s : State) : Out :=
  transfer j (fun s0 =>
    let s := wake 1 (s0.setPort j { s0.port j with frameAt := s0.osc })
    let e := if wire.val = 2 then 2 else frameError s j fr (wire.val == 1)
    if e ≠ 0 then failFrame j e s
    else if (parseFrame fr).op = op then f (parseFrame fr) s
    else s) s

/-! ### Tunnel (R341–R344) -/

/-- The port's tunnel operation is in progress. -/
def tunnelBusy (s : State) (j : Nat) : Bool := s.rd .I3C_STATUS_TUN_BUSY j == 1

/-- Start a tunnel operation; one that finds the tunnel busy is dropped. -/
def startTunnel (j : Nat) (op : TunnelOp) (a len : Nat) (data : List Byte) (s : State) : State :=
  let x := s.port j
  if tunnelBusy s j then s.setPort j { x with memLast := true, tunDropped := true }
  else (s.setPort j { x with memLast := true, tun := op, tunAddr := a, tunLen := len, tunData := data, tunPoison := false,
                             tunDenied := false, tunDropped := false }).wr .I3C_STATUS_TUN_BUSY 1 j

/-- `MEM_WRITE`: a frame with OP 1. -/
def execMemWrite (j : Fin 2) (fr : List Byte) (wire : Fin 3) (s : State) : Out :=
  takeFrame j.val 1 fr wire (fun x => startTunnel j.val .write x.addr x.body.length x.body) s

/-- `MEM_FETCH`: a frame with OP 2. -/
def execMemFetch (j : Fin 2) (fr : List Byte) (wire : Fin 3) (s : State) : Out :=
  takeFrame j.val 2 fr wire (fun x => startTunnel j.val .fetch x.addr ((x.body.headD 0).toNat % 64 + 1) []) s

/-- The outcome of a finished tunnel operation. -/
def endTunnel (j : Nat) (o : Outcome) (data : List Byte) (s : State) : State :=
  (s.setPort j { s.port j with tunPoison := o.poison, tunDenied := o.denied, tunData := data }).wr .I3C_STATUS_TUN_BUSY 0 j

/-- The tunnel makes its access as one access of master j (R342, R343); before READY Quarry answers RETRY (R396). The register range is no
memory: an access to it is denied and recorded on SYS. -/
def tunnelDone (j : Nat) (s : State) : State :=
  let x := s.port j
  if s.rd .SYS_STATUS_READY = 0 ∧ quarryBase ≤ x.tunAddr then
    endTunnel j { denied := true } (List.replicate x.tunLen 0) (recordErr .quarry 0 errRetry j (x.tun == .write) 0 s)
  else if inRegisters x.tunAddr then
    endTunnel j { denied := true } (List.replicate x.tunLen 0) (recordErr .sys 0 errRegionDenied j (x.tun == .write) 0 s)
  else match x.tun with
  | .write =>
    let r := busWrite j x.tunAddr x.tunData s
    endTunnel j r.1 [] r.2
  | .fetch =>
    let r := busRead j x.tunAddr x.tunLen s
    let s1 := if r.2.1.poison then recordErr (memPage (aliasOf x.tunAddr x.tunLen).1) 0 errPoison j false 0 r.2.2 else r.2.2
    endTunnel j r.2.1 (maskPoison s1 x.tunAddr r.1) s1
  | .none => s

/-- The tunnel can complete: in D0 (R402); for the benches, once they are ready (R396); for Quarry, while it serves or, before READY, with
RETRY (R285, R396). -/
def tunnelMay (s : State) (j : Nat) : Bool :=
  s.rd .POWER_STATUS_DSTATE == 0 &&
  (if quarryBase ≤ (s.port j).tunAddr then s.rd .SYS_STATUS_READY == 0 || !quarryHeld s else s.rd .BENCH_STATUS_READY == 1)

/-- `TUNNEL_DONE`. -/
def execTunnelDone (j : Fin 2) (s : State) : Out :=
  act s (on (tunnelBusy s j.val = true ∧ tunnelMay s j.val = true) (tunnelDone j.val))

/-- TSTAT (R341). -/
def tstat (s : State) (j : Nat) : Nat :=
  let x := s.port j
  if tunnelBusy s j then 1 + (if x.tunDropped then 8 else 0)
  else (if x.tunPoison then 2 else 0) + (if x.tunDenied then 4 else 0) + (if x.tunDropped then 8 else 0)

/-- A private read of up to `n` bytes after a MEM frame: TSTAT, then the fetched bytes once they are there. In I2C further bytes
read 0xFF; in I3C the port ends the read. -/
def tunnelRead (j n : Nat) (s : State) : State :=
  let x := s.port j
  let busy := tunnelBusy s j
  let t := tstat s j
  let data := BitVec.ofNat 8 t :: (if busy || x.tun != .fetch then [] else x.tunData)
  let fill := if s.rd .I3C_STATUS_I2C_MODE j = 1 then List.replicate (n - data.length) 0xFF else []
  let s1 := ({ s with readData := (data ++ fill).take n } : State).wr .I3C_TUN_STAT_LAST t j
  let s2 := s1.setPort j { s1.port j with tunDropped := false }
  if busy then s2.inc .I3C_TUN_STAT_RETRY_CNT j else s2

/-- `TUNNEL_READ`. -/
def execTunnelRead (j : Fin 2) (n : Fin 256) (s : State) : Out :=
  transfer j.val (on ((s.port j.val).memLast = true ∧ 0 < n.val) (tunnelRead j.val n.val)) s

/-! ### In-band interrupts (R346) -/

/-- The hold-off since the port's last IBI is over. -/
def holdoffOver (s : State) (j : Nat) : Bool :=
  let l := (s.port j).lastIbi
  l == 0 || l - 1 + 400 * max 1 (s.rd .I3C_IBI_CFG_HOLDOFF j) ≤ s.osc

/-- The interrupt that port j has to send: MDB and payload; LINK and READY go ahead of EVENT. -/
def ibiCause (s : State) (j : Nat) : Option (Nat × Nat) :=
  if (s.port j).linkIbi then some (2, 1 - j)
  else if (s.port j).readyIbi then some (3, 0xFFFF)
  else if s.rd .I3C_IBI_CFG_EVENT_IBI j = 1 then
    match (summary s j).foldl (fun m i => match m with | none => some i | some x => some (min x i)) none with
    | some i => some (1, i)
    | none => none
  else none

/-- The port may raise an IBI. -/
def ibiReady (s : State) (j : Nat) : Bool :=
  s.rd .I3C_STATUS_DA_VALID j == 1 && (s.port j).enint && holdoffOver s j && (ibiCause s j).isSome

/-- An IBI is acknowledged or NACKed. -/
def sendIbi (j : Nat) (ack : Bool) (s : State) : State :=
  let (mdb, load) := (ibiCause s j).getD (0, 0)
  let x := s.port j
  if ack then
    (answer [mdb, load, load / 256] (s.setPort j { x with
      lastIbi := s.osc + 1, linkIbi := x.linkIbi && mdb != 2, readyIbi := x.readyIbi && mdb != 3 })).inc .I3C_IBI_CNT_SENT j
  else raise .i3c j 5 ((s.setPort j { x with lastIbi := s.osc + 1 }).inc .I3C_IBI_CNT_NACKS j)

/-- `IBI_REQUEST`. -/
def execIbiRequest (j : Fin 2) (ack : Bool) (s : State) : Out :=
  act s (on (portOn s j.val = true ∧ ibiReady s j.val = true) (sendIbi j.val ack))

/-! ### Health (R349) -/

/-- A port stops being healthy; the other port is told and sends a LINK interrupt. -/
def loseHealth (j : Nat) (s : State) : State :=
  if s.rd .I3C_STATUS_HEALTHY j = 0 then s
  else
    let s1 := endSession j (raise .i3c (1 - j) 3 (raise .i3c j 2 (s.wr .I3C_STATUS_HEALTHY 0 j)))
    if s1.rd .I3C_IBI_CFG_LINK_IBI (1 - j) = 1 then s1.setPort (1 - j) { s1.port (1 - j) with linkIbi := true } else s1

/-- The health watchdog has expired. -/
def watchdogOver (s : State) (j : Nat) : Bool :=
  s.rd .I3C_LINK_CFG_WD j != 0 && (s.port j).alive + 10 * Config.ticksPerMs * s.rd .I3C_LINK_CFG_WD j < s.osc

/-- `PORT_HEALTH_LOST`: SCL or SDA held low for more than 1 ms, or, with `wd`, the watchdog's expiry. -/
def execPortHealthLost (j : Fin 2) (wd : Bool) (s : State) : Out :=
  act s (on (wd = false ∨ watchdogOver s j.val = true) fun s =>
    loseHealth j.val (if wd then s else s.setPort j.val { s.port j.val with stuck := true }))

/-- `PORT_HEALTH_RETURN`: the lines are released, or traffic arrives again. -/
def execPortHealthReturn (j : Fin 2) (s : State) : Out :=
  act s (on (portOn s j.val = true) fun s =>
    (s.setPort j.val { s.port j.val with stuck := false, alive := s.osc }).wr .I3C_STATUS_HEALTHY 1 j.val)

/-- A write of LINK_CFG: a port that is disabled is not healthy, one that is enabled is unless a line is stuck. -/
def writeLinkCfg (j v : Nat) (s : State) : State :=
  let s1 := (((s.wr .I3C_LINK_CFG_EN (bit v 0) j).wr .I3C_LINK_CFG_ALLOW_DEV_RESET (bit v 1) j).wr .I3C_LINK_CFG_ALERT_EN
    (bit v 2) j).wr .I3C_LINK_CFG_WD (bits v 15 8) j
  if bit v 0 = 0 then loseHealth j s1
  else if s.rd .I3C_LINK_CFG_EN j = 0 ∧ (s.port j).stuck = false then
    (s1.setPort j { s1.port j with alive := s.osc }).wr .I3C_STATUS_HEALTHY 1 j
  else s1

/-! ### Adoption (R351) -/

/-- A write of LINK_CTL.ADOPT = 1 by master m on port j's page: only the port's own master adopts, and only from a port that is
not healthy, or in a secure session. -/
def writeLinkCtl (m j v : Nat) (s : State) : State :=
  if bit v 0 = 0 then s
  else if m ≠ j ∨ (s.rd .I3C_STATUS_HEALTHY (1 - j) = 1 ∧ s.rd .I3C_STATUS_SECURE j = 0) then
    recordErr .i3c j errOwnerDenied m true (0x64 / 4) s
  else s.setPort j { s.port j with adopting := true }

/-- `ADOPT`. -/
def execAdopt (m : Master) (j : Fin 2) (s : State) : Out :=
  act s (gateBy (m.val ≤ 2) .i3c j.val 0x64 m.val (writeLinkCtl m.val j.val 1))

/-- One owner field moves from a master to another. -/
def moveOwner (r : Reg) (inst idx a b : Nat) (s : State) : State := if s.rd r inst idx = a then s.wr r b inst idx else s

/-- Every ownership of the other port's master goes to port j's (R351). -/
def adopt (j : Nat) (s : State) : State :=
  let a := 1 - j
  let s1 := each (allPages.filter (fun x => s.rd .OWNER_LOCK x.2 x.1.code == 1)) (fun x s => moveOwner .OWNER_MASTER x.2 x.1.code a j s) s
  let s2 := each ((upTo 64).filter (fun i => s.rd .TBASE_LC_CTRL_CLAIMED 0 i == 1)) (fun i s => moveOwner .TBASE_LC_CTRL_OWNER 0 i a j s) s1
  let s3 := each ((upTo 128).filter (fun i => s.rd .HARNESS_LINE_CFG_CLAIMED 0 i == 1))
      (fun i s => moveOwner .HARNESS_LINE_CFG_OWNER 0 i a j s) s2
  let s4 := each ((upTo 32).filter (fun i => s.rd .PAT_PIN_CFG_CLAIMED 0 i == 1)) (fun i s => moveOwner .PAT_PIN_CFG_OWNER 0 i a j s) s3
  let s5 := each ((upTo 16).filter (fun i => s.rd .HARNESS_CAPU_CFG_CLAIMED 0 i == 1))
      (fun i s => moveOwner .HARNESS_CAPU_CFG_OWNER 0 i a j s) s4
  raise .i3c 1 6 (raise .i3c 0 6 (s5.setPort j { s5.port j with adopting := false }))

/-- `ADOPTED`. -/
def execAdopted (j : Fin 2) (s : State) : Out := act s (on ((s.port j.val).adopting = true) (adopt j.val))

end Sys2Proof.Machine
end

