-- ==== Sys2Proof/Machine/Security.lean ====
section
/-! DEFINITION. Boot, firmware restarts, the mailbox and its commands, secure sessions and live takeover (R362–R386). SEC event bits:
0 BOOT_DONE, 1 SLOT_FAIL, 2 FW_SWITCHED, 3 HANDOFF_REVERT, 4 MB_DONE, 5 SESSION_END, 6 WDT_EXPIRED, 7 SVN_BLOWN, 8 LIB_SIG_FAIL. -/

namespace Sys2Proof.Machine

/-- RESULT codes (R379). -/
def mbOk : Nat := 0
def mbBadOp : Nat := 1
def mbBadArg : Nat := 2
def mbDenied : Nat := 3
def mbBusy : Nat := 4
def mbSigFail : Nat := 5
def mbRollback : Nat := 6
def mbFormat : Nat := 7
def mbFlash : Nat := 8
def mbHandoffRejected : Nat := 9
def mbRegion : Nat := 10
def mbRestarted : Nat := 11
def mbLocked : Nat := 12

/-- Change the hidden state of the page. -/
def State.setSec (s : State) (x : Sec) : State := { s with sec := x }

/-! ### Firmware images (R366, R367) -/

/-- Length of an image's code. -/
def fwCodeLen (b : List Byte) : Nat := fieldLe b 12 4
/-- Where its signature block begins. -/
def fwSigOff (b : List Byte) : Nat := fieldLe b 24 4

/-- Header fields, lengths and entry points (R367). -/
def fwFormatOk (b : List Byte) : Bool :=
  fieldLe b 0 4 == 0x57465143 && fieldLe b 4 2 == 1 && fieldLe b 6 2 == 128 && fieldLe b 30 2 == 0xC048 &&
  fieldLe b 124 4 == crc32c (b.take 124) && b.length == fieldLe b 8 4 && fieldLe b 8 4 == fwSigOff b + sigLen &&
  fwSigOff b == 128 + fwCodeLen b && decide (4 ≤ fwCodeLen b) && decide (fwCodeLen b ≤ 458752) && fwCodeLen b % 4 == 0 &&
  decide (fieldLe b 16 4 < fwCodeLen b) && decide (fieldLe b 20 4 < fwCodeLen b) &&
  decide (fieldLe b 40 4 + fieldLe b 44 4 ≤ fwCodeLen b)

/-- What the device keeps of an image. -/
def fwInfo (b : List Byte) : FwImage :=
  { ver := fieldLe b 36 4, svn := fieldLe b 28 2, key := sigKey (b.drop (fwSigOff b)), handoffVer := fieldLe b 32 2
    handoffMin := fieldLe b 34 2, mcVer := fieldLe b 48 2, live := bit (fieldLe b 50 2) 0 == 1
    digest := sha384 (b.take (fwSigOff b)), mcDigest := sha384 (slice b (128 + fieldLe b 40 4) (fieldLe b 44 4)) }

/-- The check of an image (R367): its record, or the RESULT code of the first check that fails, in the order of R367. -/
def fwCheck (s : State) (b : List Byte) : Except Nat FwImage :=
  if fwFormatOk b = false then .error mbFormat
  else if blockVerify labelFw (b.drop (fwSigOff b)) (sha384 (b.take (fwSigOff b))) (vendorSlot s) = false then .error mbSigFail
  else if fieldLe b 28 2 < s.rd .SEC_SVN_FUSE_COUNT then .error mbRollback
  else .ok (fwInfo b)

/-! ### Boot (R368–R372) -/

/-- Valid bit of a slot: 0 A, 1 B. -/
def setSlotValid (slot v : Nat) (s : State) : State :=
  if slot = 0 then s.wr .SEC_STATUS_SLOT_A_VALID v else s.wr .SEC_STATUS_SLOT_B_VALID v

/-- The result of a check of a slot: a slot found invalid sets SPARE_SUM.FW, which clears once both are valid (R369, R407). -/
def recordSlot (slot : Nat) (img : Option FwImage) (s : State) : State :=
  let s1 := setSlotValid slot (if img.isSome then 1 else 0)
    (s.setSec { s.sec with slots := Store.set none s.sec.slots slot img })
  if img.isNone then s1.wr .SYS_SPARE_SUM_FW 1
  else s1.wrIf (s1.rd .SEC_STATUS_SLOT_A_VALID == 1 && s1.rd .SEC_STATUS_SLOT_B_VALID == 1) .SYS_SPARE_SUM_FW 0

/-- `BOOT_START`: the boot ROM begins with the preferred slot. -/
def execBootStart (s : State) : Out :=
  act s (on (s.sec.boot = .due) fun s => s.setSec { s.sec with boot := .first, bootFrom := s.osc })

/-- The registers that describe the running image. -/
def showImage (i : FwImage) (src : Nat) (s : State) : State :=
  (((s.wr .SEC_FW_VER_VER i.ver).wr .SEC_SVN_RUN_SVN i.svn).wr .SEC_STATUS_VK_USED i.key).wr .SEC_STATUS_RUN_SRC src

/-- Measurements of an image that starts (R375): MR1 its digest, MR2 the key hash of its vendor slot. -/
def measureImage (i : FwImage) (s : State) : State :=
  extendMr 2 (beBytes 48 (Config.vendorKey i.key).toNat) (extendMr 1 i.digest s)

/-- The first image after a reset loads its Stitcher microcode into the active banks (R366). -/
def firstMicrocode (i : FwImage) (s : State) : State :=
  if (upTo 12).all (fun q => s.rd .STITCH_MC_VER_ACTIVE q == 0) then
    extendMr 3 i.mcDigest (each (upTo 12) (fun q s => s.wr .STITCH_MC_VER_ACTIVE i.mcVer q) s)
  else s

/-- XSPI_CFG at its reset values, after a boot (R368). -/
def restoreXspi (s : State) : State :=
  each [.XSPI_XSPI_CFG_MODE, .XSPI_XSPI_CFG_DEVTYPE, .XSPI_XSPI_CFG_EXT, .XSPI_XSPI_CFG_ADDR4, .XSPI_XSPI_CFG_DUMMY,
        .XSPI_XSPI_CFG_CLKDIV, .XSPI_XSPI_CFG_RD_OP] (fun r s => s.rst r) s

/-- An image starts at ENTRY (R368, R372). -/
def startImage (i : FwImage) (src : Nat) (s : State) : State :=
  let m0 := beBytes 48 (Config.bootMeasure (s.rd .SEC_SVN_FUSE_COUNT) (s.bitmap .SEC_STATUS_VK_REVOKED 4)).toNat
  let s1 := showImage i src (measureImage i (extendMr 0 m0 s))
  let s2 := ((s1.wr .SEC_STATUS_BOOT_OK 1).wr .SEC_STATUS_RECOVERY 0).wr .SEC_BOOT_TIME_US100
    (min 0xFFFF ((s.osc - s.sec.bootFrom) / 40000))
  let s3 := { s2 with fwUp := true, sec := { s2.sec with running := some i, boot := .idle, wdtFrom := s.osc } }
  raise .sec 0 0 (firstMicrocode i (restoreXspi s3))

/-- A slot fails (R368): the other is tried, or recovery is entered. -/
def slotFails (slot : Nat) (s : State) : State :=
  let s1 := raise .sec 0 1 (recordSlot slot none s)
  if s.sec.boot = .first then s1.setSec { s1.sec with boot := .second }
  else (restoreXspi (s1.setSec { s1.sec with boot := .idle })).wr .SEC_STATUS_RECOVERY 1

/-- The slot that the boot ROM reads. -/
def bootSlot (s : State) : Nat :=
  let p := s.rd .SEC_STATUS_PREF_SLOT
  if s.sec.boot = .first then p else 1 - p

/-- `BOOT_DONE`: the slot being tried has been read; `img` is its image. The valid bit of the slot that does not boot reads 0 until firmware
has checked it (R369). -/
def execBootDone (img : List Byte) (s : State) : Out :=
  act s (on (s.sec.boot = .first ∨ s.sec.boot = .second) fun s =>
    match fwCheck s img with
    | .ok i => startImage i (bootSlot s) (setSlotValid (1 - bootSlot s) 0 (recordSlot (bootSlot s) (some i) s))
    | .error _ => slotFails (bootSlot s) s)

/-- `SLOT_CHECK`: firmware checks a slot without starting it. -/
def execSlotCheck (slot : Fin 2) (img : List Byte) (s : State) : Out :=
  act s (on (s.fwUp = true) fun s => recordSlot slot.val (fwCheck s img).toOption s)

/-! ### Mailbox (R378, R379) -/

/-- A write of MB_CMD by a port master, in its own bank. -/
def writeMbCmd (m v : Nat) (s : State) : State :=
  let s1 := (s.wr .SEC_MB_CMD_OP (bits v 7 0) 0 m).wr .SEC_MB_CMD_TAG (bits v 15 8) 0 m
  if bit v 31 = 0 ∨ s.rd .SEC_MB_STAT_BUSY 0 m = 1 then s1
  else (s1.setSec { s1.sec with mail := s1.sec.mail ++ [⟨m, bits v 7 0, bits v 15 8⟩] }).wr .SEC_MB_STAT_BUSY 1 0 m

/-- The command is reported: RESULT, DONE, TAG, results, event. -/
def report (j : Nat) (r : MbReply) (s : State) : State :=
  let s1 := (((s.wr .SEC_MB_STAT_BUSY 0 0 j).wr .SEC_MB_STAT_DONE 1 0 j).wr .SEC_MB_STAT_RESULT r.result 0 j).wr
    .SEC_MB_STAT_TAG r.tag 0 j
  raise .sec 0 4 (each (r.res.zip (upTo r.res.length)) (fun x s => s.wr .SEC_MB_RES_RES x.1 0 j x.2) s1)

/-- Keep the outcome of a command until MB_DONE. -/
def reply (c : MbCall) (result : Nat) (res : List Nat) (s : State) : State :=
  s.setSec { s.sec with replies := Store.set none s.sec.replies c.port (some ⟨c.op, c.tag, result, res⟩) }

/-- Somebody serves the mailbox: firmware, or in recovery the boot ROM for its three commands; in D0 (R372, R402). -/
def mailServed (s : State) (op : Nat) : Bool :=
  s.rd .POWER_STATUS_DSTATE == 0 &&
  (s.fwUp || (s.rd .SEC_STATUS_RECOVERY == 1 && (op == 0x01 || op == 0x02 || op == 0x40)))

/-- The oldest doorbell, taken off the queue for a command of operation `op` on port j. -/
def serve (j op : Nat) (f : MbCall → State → State) (s : State) : State :=
  match s.sec.mail with
  | c :: rest => if c.port = j ∧ c.op = op ∧ mailServed s op then f c (s.setSec { s.sec with mail := rest }) else s
  | [] => s

/-- An argument of port j's mailbox. -/
def mbArg (s : State) (j i : Nat) : Nat := s.rd .SEC_MB_ARG_ARG 0 j i
/-- A 40-bit address in two arguments. -/
def mbAddr (s : State) (j i : Nat) : Nat := mbArg s j i + 2 ^ 32 * (mbArg s j (i + 1) % 256)

/-- A session is needed and missing (R379). -/
def sessionMissing (s : State) (j : Nat) : Bool := s.rd .SEC_STATUS_OWNER_SET == 1 && s.rd .I3C_STATUS_SECURE j == 0

/-- A buffer that firmware reads for port j: its bytes, or the RESULT code. -/
def readBuffer (s : State) (j a n : Nat) : Except Nat (List Byte) :=
  if memAllowed s j .read a n = false then .error mbRegion
  else if s.anyPoison a n then .error mbBadArg
  else .ok (s.bytes a n)

/-- Act on a buffer's bytes, or answer the code. -/
def withBuffer (c : MbCall) (a n : Nat) (f : List Byte → State → State) (s : State) : State :=
  let s1 := if memAllowed s c.port .read a n then eccRead a n s else s
  match readBuffer s1 c.port a n with
  | .ok bs => f bs (touchBench a n s1)
  | .error e => reply c e [] s1

/-- STATUS of the page as a word. -/
def secStatus (s : State) : Nat :=
  s.rd .SEC_STATUS_BOOT_OK + 2 * s.rd .SEC_STATUS_RECOVERY + 4 * s.rd .SEC_STATUS_RUN_SRC + 2 ^ 4 * s.rd .SEC_STATUS_PREF_SLOT +
  2 ^ 5 * s.rd .SEC_STATUS_SLOT_A_VALID + 2 ^ 6 * s.rd .SEC_STATUS_SLOT_B_VALID + 2 ^ 7 * s.rd .SEC_STATUS_STAGED +
  2 ^ 8 * s.rd .SEC_STATUS_HANDOFF_BUSY + 2 ^ 9 * s.rd .SEC_STATUS_OWNER_SET + 2 ^ 10 * s.rd .SEC_STATUS_POLICY_LOCKED +
  2 ^ 12 * s.bitmap .SEC_STATUS_VK_REVOKED 4 + 2 ^ 16 * s.rd .SEC_STATUS_VK_USED

/-- `GET_INFO`. -/
def getInfo (c : MbCall) (s : State) : State :=
  reply c mbOk [s.rd .SEC_FW_VER_VER, s.rd .SEC_SVN_RUN_SVN + 2 ^ 8 * s.rd .SEC_SVN_FUSE_COUNT +
    2 ^ 16 * s.rd .SEC_STATUS_RUN_SRC, secStatus s] s

/-- `GET_INFO`. -/
def execGetInfo (j : Fin 2) (s : State) : Out := act s (serve j.val 0x01 getInfo)

/-- Write bytes to a buffer for port j and answer their number. -/
def answerBuffer (c : MbCall) (a n : Nat) (bs : List Byte) (s : State) : State :=
  if memAllowed s c.port .write a n = false then reply c mbRegion [] s
  else reply c mbOk [bs.length] (memWrite 2 a bs s)

/-- A certificate to the host's buffer (R374). -/
def getCert (c : MbCall) (s : State) : State :=
  let i := mbArg s c.port 0
  let cert := Config.certificate i
  if 4 ≤ i ∨ mbArg s c.port 3 < cert.length then reply c mbBadArg [] s
  else answerBuffer c (mbAddr s c.port 1) (mbArg s c.port 3) cert s

/-- `GET_CERT`. -/
def execGetCert (j : Fin 2) (s : State) : Out := act s (serve j.val 0x02 getCert)

/-- UID bytes (R374). -/
def uidBytes : List Byte := leBytes 16 (Config.uid ()).toNat

/-- A quote without its signatures (R376). -/
def quoteBody (s : State) (mask : Nat) (nonce : List Byte) : List Byte :=
  [0x51, 0x55, 0x4F, 0x54] ++ leBytes 2 1 ++ leBytes 2 mask ++ uidBytes ++ nonce ++ leBytes 8 s.now ++
  leBytes 4 (s.rd .SEC_FW_VER_VER) ++ leBytes 1 (s.rd .SEC_SVN_RUN_SVN) ++ leBytes 1 (s.rd .SEC_SVN_FUSE_COUNT) ++
  leBytes 1 (s.rd .SEC_STATUS_RUN_SRC) ++ [0] ++ ((upTo 8).filter (fun i => bit mask i == 1)).flatMap (mrBytes s)

/-- A quote with both signatures; they are free values. -/
def makeQuote (s : State) (mask : Nat) (nonce : List Byte) : List Byte :=
  let b := quoteBody s mask nonce
  let m := labelQuote ++ sha384 b
  b ++ beBytes 384 (Config.rsaSign s.free m).toNat ++ beBytes 7856 (Config.slhSign s.free m).toNat

/-- Answer a quote to the host's buffer of 8696 bytes. -/
def quote (c : MbCall) (s : State) : State :=
  withBuffer c (mbAddr s c.port 1) 32 (fun nonce s =>
    answerBuffer c (mbAddr s c.port 3) 8696 (makeQuote s (mbArg s c.port 0 % 256) nonce) s.nextFree) s

/-- A QUOTE of the other port is not yet reported. -/
def quoteRuns (s : State) : Bool :=
  (upTo 2).any (fun j => match Store.get none s.sec.replies j with | some r => r.op == 0x03 | none => false)

/-- `QUOTE`: waits while another runs. -/
def execQuote (j : Fin 2) (s : State) : Out := act s (on (quoteRuns s = false) (serve j.val 0x03 quote))

/-- Extend MR6 or MR7 with a host digest. -/
def mrExtend (c : MbCall) (s : State) : State :=
  let i := mbArg s c.port 0
  if i ≠ 6 ∧ i ≠ 7 then reply c mbBadArg [] s
  else withBuffer c (mbAddr s c.port 1) 48 (fun d s => reply c mbOk [] (extendMr i d s)) s

/-- `MR_EXTEND`. -/
def execMrExtend (j : Fin 2) (s : State) : Out := act s (serve j.val 0x04 mrExtend)

/-! ### Secure sessions (R377) -/

/-- A fresh challenge: a free value of 32 bytes. -/
def challenge (s : State) : List Byte := (upTo 4).flatMap (fun i => leBytes 8 (Config.freeValue (s.free + i)).toNat)

/-- A challenge for port j; without an owner key no session can be opened. -/
def sessionOpen (c : MbCall) (s : State) : State :=
  if s.sec.owner = none then reply c mbDenied [] s
  else
    let x := challenge s
    reply c mbOk ((upTo 8).map (fun i => fieldLe x (4 * i) 4)) ({ s with
      free := s.free + 4, sec := { s.sec with challenges := Store.set none s.sec.challenges c.port (some (x, s.osc)) } })

/-- `SESSION_OPEN`. -/
def execSessionOpen (j : Fin 2) (s : State) : Out := act s (serve j.val 0x10 sessionOpen)

/-- The response verifies for port j (R377). -/
def responseOk (s : State) (j : Nat) (r : List Byte) : Bool :=
  match Store.get none s.sec.challenges j with
  | some (x, t) =>
    decide (s.osc ≤ t + 10 * Config.ticksPerSecond) && s.sec.owner == some (keyHash (r.take 384) (slice r 384 32)) &&
    dualVerify (r.take 384) (slice r 384 32) (slice r 416 384) (slice r 800 7856)
      (labelSession ++ sha384 (x ++ uidBytes ++ [BitVec.ofNat 8 j]))
  | none => false

/-- The owner's response; its challenge is used up. -/
def sessionAuth (c : MbCall) (s : State) : State :=
  withBuffer c (mbAddr s c.port 1) 8656 (fun r s =>
    let s1 := s.setSec { s.sec with challenges := Store.set none s.sec.challenges c.port none }
    if responseOk s c.port r then
      reply c mbOk [] ((s1.setPort c.port { s1.port c.port with frameAt := s1.osc }).wr .I3C_STATUS_SECURE 1 c.port)
    else reply c mbSigFail [] s1) s

/-- `SESSION_AUTH`. -/
def execSessionAuth (j : Fin 2) (s : State) : Out := act s (serve j.val 0x11 sessionAuth)

/-- `SESSION_CLOSE`. -/
def execSessionClose (j : Fin 2) (s : State) : Out :=
  act s (serve j.val 0x12 (fun c s => reply c mbOk [] (endSession c.port s)))

/-- SESSION_TMO in seconds, 1 to 3600. -/
def sessionTmo (s : State) : Nat := min 3600 (max 1 (s.rd .SEC_SESSION_TMO_S))

/-- `SESSION_TIMEOUT`. -/
def execSessionTimeout (j : Fin 2) (s : State) : Out :=
  act s (on ((s.port j.val).frameAt + sessionTmo s * Config.ticksPerSecond ≤ s.osc) (endSession j.val))

/-! ### Staging, installing, live takeover (R382–R386) -/

/-- One of FW_STAGE, FW_INSTALL, FW_ACTIVATE and SVN_COMMIT is not yet reported (R379). -/
def fwBusy (s : State) : Bool :=
  s.sec.takeover != .none ||
  (upTo 2).any (fun j => match Store.get none s.sec.replies j with
    | some r => decide (0x20 ≤ r.op) && decide (r.op ≤ 0x23)
    | none => false)

/-- Where the staged image lies in the firmware and log area. -/
def stageAddr : Nat := quarryEnd + 64 * (Config.stageOffset ()).toNat

/-- No image is staged: an FW_STAGE that runs and fails leaves none (R382). -/
def unstage (s : State) : State :=
  ((s.setSec { s.sec with staged := none, stagedLen := 0 }).wr .SEC_STATUS_STAGED 0).wr .SEC_SVN_STAGED_SVN 0

/-- Copy and check an image (R382). A length that no image has is not copied. -/
def fwStage (c : MbCall) (s : State) : State :=
  let n := mbArg s c.port 3
  if fwBusy s then reply c mbBusy [] s
  else if n < 128 + sigLen ∨ 524288 < n then reply c mbFormat [] (unstage s)
  else withBuffer c (mbAddr s c.port 1) n (fun b s =>
    let s1 := memWrite 2 stageAddr b s
    match fwCheck s b with
    | .ok i => reply c mbOk [i.ver, i.svn]
        (((s1.setSec { s1.sec with staged := some i, stagedLen := n }).wr .SEC_STATUS_STAGED 1).wr .SEC_SVN_STAGED_SVN i.svn)
    | .error e => reply c e [] s1) (unstage s)

/-- `FW_STAGE`. -/
def execFwStage (j : Fin 2) (s : State) : Out := act s (serve j.val 0x20 fwStage)

/-- The slot that an install writes: the one not running, or the one not preferred (R383). -/
def installSlot (s : State) : Nat :=
  if s.rd .SEC_STATUS_RUN_SRC < 2 then 1 - s.rd .SEC_STATUS_RUN_SRC else 1 - s.rd .SEC_STATUS_PREF_SLOT

/-- Program the staged image; `ok` when the flash programs and reads back. The preferred slot changes as the install ends (R383). -/
def fwInstall (ok : Bool) (c : MbCall) (s : State) : State :=
  let slot := installSlot s
  if sessionMissing s c.port then reply c mbDenied [] s
  else if fwBusy s then reply c mbBusy [] s
  else if s.sec.staged = none then reply c mbBadArg [] s
  else
    let s1 := setSlotValid slot 0 (s.setSec { s.sec with
      slots := Store.set none s.sec.slots slot none
      prefer := if ok ∧ bit (mbArg s c.port 0) 0 = 1 then some slot else none })
    if ok then reply c mbOk [slot] s1 else reply c mbFlash [] s1

/-- `FW_INSTALL`: waits for a loader job to end. -/
def execFwInstall (j : Fin 2) (ok : Bool) (s : State) : Out :=
  act s (on (s.rd .XSPI_LD_STAT_BUSY = 0) (serve j.val 0x21 (fwInstall ok)))

/-- The staged image can take over from the running one (R384). -/
def canTakeOver (run new : FwImage) : Bool :=
  new.live && decide (new.handoffMin ≤ run.handoffVer) && decide (run.handoffVer ≤ new.handoffVer)

/-- Start a live takeover. -/
def fwActivate (c : MbCall) (s : State) : State :=
  if sessionMissing s c.port then reply c mbDenied [] s
  else if fwBusy s then reply c mbBusy [] s
  else match s.sec.staged, s.sec.running with
    | some new, some run =>
      if new.digest = run.digest then reply c mbBadArg [] s
      else if canTakeOver run new = false then reply c mbHandoffRejected [] s
      else s.setSec { s.sec with takeover := .copy, caller := some c }
    | _, _ => reply c mbBadArg [] s

/-- `FW_ACTIVATE`. -/
def execFwActivate (j : Fin 2) (s : State) : Out := act s (serve j.val 0x22 fwActivate)

/-- A firmware action with a deadline is pending: a bench replacement or a rehoming (R384). -/
def deadlinePending (s : State) : Bool :=
  s.rd .BENCH_STATUS_REPLACING == 1 || (upTo 16).any (fun b => s.rd .BENCH_BENCH_HEALTH_HEALTH 0 0 b == 1) ||
  (upTo 12).any (fun q => s.rd .CTRL_ENABLE q (Page.code .qclk) == 1 && s.rd .QCLK_QCLK_STATUS_STOPPED q == 1 &&
    s.rd .QCLK_QCLK_STATUS_ON_SPARE q == 0 && (s.rd .QCLK_COVER_VALID 12 == 0 || spareCovers s q))

/-- `HANDOFF_POINT`: the new image starts; the old one stays in its code region. -/
def execHandoffPoint (s : State) : Out :=
  act s (on (s.sec.takeover = .copy ∧ deadlinePending s = false) fun s =>
    (s.setSec { s.sec with
      takeover := .probation, running := s.sec.staged
      old := s.sec.running.map (fun i => (i, s.rd .SEC_STATUS_RUN_SRC)) }).wr .SEC_STATUS_HANDOFF_BUSY 1)

/-- Microcode of a new version goes into every inactive bank, and each enabled Stitcher is asked to switch (R157, R384): the number
of switches asked for, and the state. -/
def loadMicrocode (i : FwImage) (s : State) : Nat × State :=
  if (upTo 12).any (fun q => s.rd .STITCH_MC_VER_ACTIVE q != i.mcVer) then
    let on_ := (upTo 12).filter (fun q => s.rd .CTRL_ENABLE q (Page.code .stitch) == 1)
    let s1 := extendMr 3 i.mcDigest (each (upTo 12) (fun q s => s.wr .STITCH_MC_VER_INACTIVE i.mcVer q) s)
    (on_.length, each on_ (fun q s => writeMcCtrl 2 q 1 s) s1)
  else (0, s)

/-- `ALIVE_MARK`: probation has passed. -/
def execAliveMark (s : State) : Out :=
  act s (on (s.sec.takeover = .probation) fun s =>
    match s.sec.running with
    | some i =>
      let r := loadMicrocode i (measureImage i s)
      r.2.setSec { r.2.sec with takeover := .switching, switches := r.1, old := none, wdtFrom := s.osc }
    | none => s)

/-- The microcode switches of a takeover have been made. -/
def takeoverDone (s : State) : Bool :=
  s.sec.takeover == .switching && (upTo 12).all (fun q => s.rd .STITCH_STATUS_MC_PENDING q == 0)

/-- The end of a takeover (R384 step 6). -/
def endTakeover (c : MbCall) (s : State) : State :=
  let s1 := match s.sec.running with | some i => showImage i 2 s | none => s
  let s2 := (s1.setSec { s1.sec with takeover := .none, caller := none }).wr .SEC_STATUS_HANDOFF_BUSY 0
  report c.port ⟨c.op, c.tag, mbOk, [s.sec.switches]⟩ (raise .sec 0 2 s2)

/-! ### Restarts (R373) -/

/-- A command in progress on port j ends with RESTARTED. -/
def abortMail (j : Nat) (s : State) : State :=
  if s.rd .SEC_MB_STAT_BUSY 0 j = 0 then s
  else
    let tag := match s.sec.mail.find? (fun c => c.port == j), Store.get none s.sec.replies j, s.sec.caller with
      | some c, _, _ => c.tag
      | none, some r, _ => r.tag
      | none, none, some c => c.tag
      | none, none, none => 0
    report j ⟨0, tag, mbRestarted, []⟩ s

/-- The management core alone restarts and the boot reruns; `cause` is its bit of RESET_CAUSE. -/
def firmwareRestart (cause : Reg) (s : State) : State :=
  let s1 := abortMail 1 (abortMail 0 (endSession 1 (endSession 0 s)))
  let s2 := (((s1.wr cause 1).inc .SYS_RESET_CNT_FW_RESTART).wr .SEC_STATUS_BOOT_OK 0).wr .SEC_STATUS_HANDOFF_BUSY 0
  { s2 with fwUp := false, sec := { s2.sec with
      running := none, old := none, prefer := none, boot := .due, mail := [], replies := [], challenges := [], takeover := .none,
      caller := none } }

/-- `HANDOFF_REVERT`: the new image rejects the record, or sets no alive mark; `returned` when the old image serves again. -/
def execHandoffRevert (returned : Bool) (s : State) : Out :=
  act s (on (s.sec.takeover = .probation) fun s =>
    if returned = false then firmwareRestart .SYS_RESET_CAUSE_FW_FAULT s
    else
      let s1 := (s.setSec { s.sec with
        takeover := .none, running := s.sec.old.map (fun x => x.1), old := none, caller := none, wdtFrom := s.osc }).wr
          .SEC_STATUS_HANDOFF_BUSY 0
      raise .sec 0 3 (match s.sec.caller with
        | some c => reply c mbHandoffRejected [] s1
        | none => s1))

/-- A write of WDT_KICK (R373). -/
def writeWdtKick (v : Nat) (s : State) : State :=
  if bits v 7 0 = 0x6B then s.setSec { s.sec with wdtFrom := s.osc } else s

/-- `WDT_KICK`: master 2 only. -/
def execWdtKick (m : Master) (v : Word) (s : State) : Out :=
  act s (gateBy (m.val == 2) .sec 0 0x4C m.val (writeWdtKick v.toNat))

/-- The watchdog's timeout is over; it is frozen in D4 (R398). -/
def wdtOver (s : State) : Bool :=
  s.fwUp && s.rd .POWER_STATUS_DSTATE != 4 &&
  decide (s.sec.wdtFrom + max 1 (s.rd .SEC_WDT_CFG_MS) * Config.ticksPerMs ≤ s.osc)

/-- The watchdog expires: the WATCHDOG source of every channel with WD_EN = 1, and a restart (R208, R373). -/
def wdtExpires (s : State) : State :=
  let s1 := each (upTo 48) (fun c s => s.wrIf (s.rd .OUT_FAULT_CTL_WD_EN c == 1) .OUT_FAULT_STAT_WATCHDOG 1 c) s
  firmwareRestart .SYS_RESET_CAUSE_FW_WDT (wake 5 (raise .sec 0 6 s1))

/-- `WDT_EXPIRED`. -/
def execWdtExpired (s : State) : Out := act s (on (wdtOver s = true) wdtExpires)

/-- `FIRMWARE_RESTART`: a fault of the management core. -/
def execFirmwareRestart (s : State) : Out :=
  act s (on (s.fwUp = true ∨ s.sec.boot ≠ .idle) (firmwareRestart .SYS_RESET_CAUSE_FW_FAULT))

/-! ### Rollback, slots and policy (R380, R381) -/

/-- A slot that the new count or a revocation rules out is marked invalid. -/
def judgeSlot (slot : Nat) (s : State) : State :=
  match Store.get none s.sec.slots slot with
  | some i => if i.svn < s.rd .SEC_SVN_FUSE_COUNT ∨ s.rd .SEC_STATUS_VK_REVOKED 0 0 i.key = 1 then recordSlot slot none s else s
  | none => s

/-- Blow anti-rollback fuses and revoke vendor slots. -/
def svnCommit (c : MbCall) (s : State) : State :=
  let rev := mbArg s c.port 1 % 16
  if sessionMissing s c.port then reply c mbDenied [] s
  else if fwBusy s then reply c mbBusy [] s
  else if bit rev (s.rd .SEC_STATUS_VK_USED) = 1 then reply c mbBadArg [] s
  else
    let n := max (s.rd .SEC_SVN_FUSE_COUNT) (min (mbArg s c.port 0) (s.rd .SEC_SVN_RUN_SVN))
    let s1 := each (upTo 4) (fun i s => s.wrIf (bit rev i == 1) .SEC_STATUS_VK_REVOKED 1 0 0 i) (s.wr .SEC_SVN_FUSE_COUNT n)
    reply c mbOk [n] (raise .sec 0 7 (judgeSlot 1 (judgeSlot 0 s1)))

/-- `SVN_COMMIT`. -/
def execSvnCommit (j : Fin 2) (s : State) : Out := act s (serve j.val 0x23 svnCommit)

/-- `SLOT_SELECT`. -/
def slotSelect (c : MbCall) (s : State) : State :=
  let slot := mbArg s c.port 0
  if sessionMissing s c.port then reply c mbDenied [] s
  else if 1 < slot then reply c mbBadArg [] s
  else reply c mbOk [] (s.wr .SEC_STATUS_PREF_SLOT slot)

/-- `SLOT_SELECT`. -/
def execSlotSelect (j : Fin 2) (s : State) : Out := act s (serve j.val 0x24 slotSelect)

/-- A change of the policy record extends MR5. -/
def policyChanged (s : State) : State :=
  extendMr 5 (beBytes 48 (Config.policyDigest (s.rd .XSPI_LD_CTL_SIG_REQ) (s.rd .SEC_LIB_VER_MIN_VER) s.sec.libKeys
    s.sec.owner).toNat) s

/-- A command that changes the policy record: a session where needed, and not locked. -/
def policyWrite (c : MbCall) (f : State → State) (s : State) : State :=
  if sessionMissing s c.port then reply c mbDenied [] s
  else if s.rd .SEC_STATUS_POLICY_LOCKED = 1 then reply c mbLocked [] s
  else f s

/-- `POLICY_SET`. -/
def policySet (c : MbCall) : State → State :=
  policyWrite c fun s =>
    reply c mbOk [] (policyChanged ((s.wr .XSPI_LD_CTL_SIG_REQ (bit (mbArg s c.port 0) 0)).wr .SEC_LIB_VER_MIN_VER
      (mbArg s c.port 1)))

/-- `POLICY_SET`. -/
def execPolicySet (j : Fin 2) (s : State) : Out := act s (serve j.val 0x30 policySet)

/-- Put a library key hash, or none, into a slot. -/
def putLibKey (c : MbCall) (i : Nat) (k : Option (List Byte)) (s : State) : State :=
  reply c mbOk [] (policyChanged (s.setSec { s.sec with libKeys := Store.set none s.sec.libKeys i k }))

/-- `LIBKEY_SET`. -/
def libkeySet (c : MbCall) : State → State :=
  policyWrite c fun s =>
    let i := mbArg s c.port 0
    if 4 ≤ i then reply c mbBadArg [] s
    else if mbArg s c.port 3 = 1 then putLibKey c i none s
    else withBuffer c (mbAddr s c.port 1) 48 (fun k s => putLibKey c i (some k) s) s

/-- `LIBKEY_SET`. -/
def execLibkeySet (j : Fin 2) (s : State) : Out := act s (serve j.val 0x31 libkeySet)

/-- `OWNER_KEY_SET`. -/
def ownerKeySet (c : MbCall) : State → State :=
  policyWrite c fun s =>
    withBuffer c (mbAddr s c.port 1) 48 (fun k s =>
      reply c mbOk [] (policyChanged ((s.setSec { s.sec with owner := some k }).wr .SEC_STATUS_OWNER_SET 1))) s

/-- `OWNER_KEY_SET`. -/
def execOwnerKeySet (j : Fin 2) (s : State) : Out := act s (serve j.val 0x32 ownerKeySet)

/-- `POLICY_LOCK`. -/
def policyLock (c : MbCall) (s : State) : State :=
  if sessionMissing s c.port then reply c mbDenied [] s
  else if mbArg s c.port 0 ≠ 0x4C4F434B then reply c mbBadArg [] s
  else reply c mbOk [] (s.wr .SEC_STATUS_POLICY_LOCKED 1)

/-- `POLICY_LOCK`. -/
def execPolicyLock (j : Fin 2) (s : State) : Out := act s (serve j.val 0x33 policyLock)

/-- Run an image from bench space (R372); only in recovery. -/
def recoveryBoot (c : MbCall) (s : State) : State :=
  let a := mbAddr s c.port 1
  let n := mbArg s c.port 3
  if s.rd .SEC_STATUS_RECOVERY = 0 then reply c mbBadOp [] s
  else if n < 128 + sigLen ∨ 524288 < n then reply c mbFormat [] s
  else if inBench a n = false then reply c mbBadArg [] s
  else withBuffer c a n (fun b s =>
    match fwCheck s b with
    | .ok i => startImage i 3 (reply c mbOk [] (s.setSec { s.sec with bootFrom := s.osc }))
    | .error e => reply c e [] s) s

/-- `RECOVERY_BOOT`. -/
def execRecoveryBoot (j : Fin 2) (s : State) : Out := act s (serve j.val 0x40 recoveryBoot)

/-- An operation of R378. -/
def mbKnown (op : Nat) : Bool :=
  [0x01, 0x02, 0x03, 0x04, 0x10, 0x11, 0x12, 0x20, 0x21, 0x22, 0x23, 0x24, 0x30, 0x31, 0x32, 0x33, 0x40].contains op

/-- The oldest doorbell names an operation that nobody serves: BAD_OP. -/
def refuseUnknown (j : Nat) (s : State) : State :=
  match s.sec.mail with
  | c :: rest =>
    if c.port = j ∧ s.rd .POWER_STATUS_DSTATE = 0 ∧ (s.fwUp ∧ mbKnown c.op = false ∨
        s.fwUp = false ∧ s.rd .SEC_STATUS_RECOVERY = 1 ∧ mailServed s c.op = false) then
      report j ⟨c.op, c.tag, mbBadOp, []⟩ (s.setSec { s.sec with mail := rest })
    else s
  | [] => s

/-- An FW_INSTALL with PREFER = 1 that has read its slot back makes it the preferred one. -/
def installEnds (op : Nat) (s : State) : State :=
  match s.sec.prefer with
  | some slot => if op = 0x21 then (s.setSec { s.sec with prefer := none }).wr .SEC_STATUS_PREF_SLOT slot else s
  | none => s

/-- `MB_DONE`: the command that port j's mailbox runs completes. -/
def mbDone (j : Nat) (s : State) : State :=
  match Store.get none s.sec.replies j, s.sec.caller with
  | some r, _ => report j r (installEnds r.op (s.setSec { s.sec with replies := Store.set none s.sec.replies j none }))
  | none, some c => if c.port = j then (if takeoverDone s then endTakeover c s else s) else refuseUnknown j s
  | none, none => refuseUnknown j s

/-- `MB_DONE`. -/
def execMbDone (j : Fin 2) (s : State) : Out := act s (mbDone j.val)

end Sys2Proof.Machine
end

