-- ==== Sys2Proof/Machine/Reset.lean ====
section
/-! DEFINITION. Power-up, cold and warm resets, and READY (R9, R215–R217, R302, R326, R329, R333, R390–R396). SYS event bits: 0 READY,
1 SPARE_USED, 2 UNIT_LOST, 3 MAP_ERR. -/

namespace Sys2Proof.Machine

/-! ### What a reset keeps (R393) -/

/-- Fields that the non-volatile store or the fuses hold and that the model keeps in place: a cold reset finds them again. The OUT
and Burnish records have stores of their own. -/
def nvmFields : List Reg :=
  [.QUARRY_LRMAP_MAP, .QUARRY_LRMAP_SPARE, .QUARRY_RANK_STATE_STATE, .QUARRY_CAPACITY_N_ACTIVE, .QUARRY_CAPACITY_WAVE_GIB,
   .QUARRY_GEN_GEN, .QUARRY_STATUS_DEGRADED, .BENCH_STATUS_SPARE_COVER, .BENCH_BENCH_HEALTH_HEALTH, .SEC_STATUS_PREF_SLOT,
   .SEC_STATUS_OWNER_SET, .SEC_STATUS_POLICY_LOCKED, .SEC_STATUS_VK_REVOKED, .SEC_SVN_FUSE_COUNT, .SEC_LIB_VER_MIN_VER,
   .XSPI_LD_CTL_SIG_REQ, .OUT_NVM_STAT_CYCLES]

/-- The RWS fields (R8). -/
def rwsFields : List Reg :=
  [.TBASE_TB_CFG_REF_MODE, .TBASE_TB_CFG_EPOCH_SRC, .TBASE_TB_CFG_STEP_ALLOW, .TBASE_TB_CFG_TALLY_EN, .TBASE_TB_CFG_HOLD_RESYNC,
   .BENCH_RGN_BASE_BASE, .BENCH_RGN_BASE_RD, .BENCH_RGN_BASE_WR, .BENCH_RGN_BASE_ALIAS, .BENCH_RGN_BASE_EN, .BENCH_RGN_LIMIT_LIMIT,
   .XSPI_LD_DONE_BYTES, .XSPI_LD_RESUME_POINT, .XSPI_LD_ENTRIES_COUNT, .SYS_SCRATCH_DATA]

/-- Fields of state that a warm reset keeps by the table of R393, by R217 for the outputs, by R302 for Quarry, by R327 and R394 for the
benches and by R38 for the reference PLL; the core maps and trims; the life counters; the sensed supply of the xSPI pins. -/
def keptFields : List Reg := List.flatten
  [[.TBASE_TB_STATUS_PLL_LOCKED, .TBASE_TB_STATUS_REF_PRESENT, .TBASE_TB_STATUS_HOLDOVER, .TBASE_TB_STATUS_SLEWING,
   .TBASE_TB_STATUS_EPOCH_VALID, .TBASE_TB_STATUS_PHASE_ERR],
   [.OUT_STATUS_STAGE, .OUT_STATUS_HIGHZ, .OUT_STATUS_SPAN_BUSY, .OUT_STATUS_SPAN_NOW, .OUT_STATUS_IN_LIMIT, .OUT_STATUS_FOLDBACK,
   .OUT_STATUS_OVERTEMP, .OUT_STATUS_NVM_BAD, .OUT_SPANCTL_SPAN, .OUT_STAGECTL_PREFER, .OUT_STAGE_STAT_A_FAILED,
   .OUT_STAGE_STAT_B_FAILED, .OUT_NV_WAKE_VAL, .OUT_NV_WAKE_SPAN, .OUT_NV_FAULT_VAL, .OUT_NV_SAFE_VAL],
   [.SPARE_STATUS_SPARE_CORE, .SPARE_STATUS_SPARE_FREE, .SPARE_CORE_MAP, .SPARE_CORE_STATE_ROLE, .SPARE_SKIP_SUSPECT,
   .SPARE_ELEM_TRIM_E, .SPARE_LADDER_TRIM_L, .SPARE_GO_TRIM_GAIN, .SPARE_GO_TRIM_OFFSET, .SPARE_STAGE_TRIM_GAIN,
   .SPARE_STAGE_TRIM_OFFSET],
   [.QUARRY_STATUS_MIGRATING, .QUARRY_STATUS_OP_NOW, .QUARRY_STATUS_RESHAPING, .QUARRY_STATUS_INIT_DONE, .QUARRY_INIT_PROG_PERCENT,
   .QUARRY_MIG_PTR_UNIT, .QUARRY_MIG_PTR_LGRANK, .QUARRY_MIG_PTR_CAUSE, .QPHY_TSET_CTL_ACTIVE, .QPHY_TSET_CTL_A_OP,
   .QPHY_TSET_CTL_A_VALID, .QPHY_TSET_CTL_B_OP, .QPHY_TSET_CTL_B_VALID],
   [.BENCH_STATUS_READY, .BENCH_STATUS_SPARE_FREE, .BENCH_BPWR_CFG_MODE, .BENCH_BPWR_STAT_STATE, .BENCH_BIST_STAT_PHASE],
   [.SEC_MR_VALUE, .SEC_MR_CNT_CNT, .XSPI_STATUS_VIO_18],
   [.SYS_RESET_CAUSE_COLD, .SYS_RESET_CAUSE_PIN, .SYS_RESET_CAUSE_RSTACT_A, .SYS_RESET_CAUSE_RSTACT_B, .SYS_RESET_CAUSE_SOFT,
   .SYS_RESET_CAUSE_FW_WDT, .SYS_RESET_CAUSE_FW_FAULT, .SYS_RESET_CNT_WARM, .SYS_RESET_CNT_FW_RESTART],
   [.POWER_LIFE_HOURS_HOURS, .POWER_LIFE_CYCLES_PWRGD, .POWER_LIFE_CYCLES_THERMAL]]

/-- Every field outside `keep` goes back to its Reset value. -/
def keepFields (keep : List Reg) (regs : Store Nat) : Store Nat :=
  let codes := keep.map Reg.ctorIdx
  regs.filter (fun p => codes.contains (p.1 % 1024))

/-! ### Cold reset (R215, R393) -/

/-- What a cold reset leaves of a tier: its records and non-volatile trims. -/
def TierState.cold (x : TierState) : TierState :=
  { recA := x.recA, recB := x.recB, nvGood := x.nvGood, nvStage := x.nvStage, factory := x.factory }

/-- PWRGD falls: only what the non-volatile store and the fuses hold is left. A migration under way is completed by map alone (R296),
and Quarry's contents belong to a new generation (R276). An operation on a record is lost and leaves it as it was (R390). -/
def coldReset (s : State) : State :=
  let s1 := newGeneration (finishByMap s)
  { State.reset with
    pending := s.pending
    regs := keepFields nvmFields s1.regs
    outs := s.outs.map (fun p => (p.1, ({ record := p.2.record } : OutChan))) |>.filter (fun p => p.2 != {})
    tiers := s.tiers.map (fun p => (p.1, p.2.cold)) |>.filter (fun p => p.2 != {})
    sec := { owner := s.sec.owner, libKeys := s.sec.libKeys, rehomed := s.sec.rehomed }
    pwr := { lifeSaved := s.pwr.lifeSaved }
    testEn := s.testEn
    vref := s.vref
    free := s.free }

/-- `POWER_GOOD_FALL`. -/
def execPowerGoodFall (s : State) : Out := .next (if s.dev = .off then s else coldReset s)

/-! ### Power-up (R216, R394) -/

/-- `POWER_GOOD_RISE`: ADDR[2:0] and the supply of the xSPI pins are sampled; `vio18` when VIO_B is at 1.8 V. TEST_EN high keeps the device
in cold reset (R437). -/
def execPowerGoodRise (addr : BitVec 3) (vio18 : Bool) (s : State) : Out :=
  .next (if s.dev = .off ∧ s.testEn = false then
      { s with dev := .powerup, addrPins := addr.toNat }.wr .XSPI_STATUS_VIO_18 (if vio18 then 1 else 0)
    else s)

/-- The life counters as saved last, with this PWRGD cycle (R410). -/
def loadLife (s : State) : State :=
  let v (i : Nat) : Nat := s.pwr.lifeSaved.getD i 0
  let s1 := each (upTo 4) (fun b s => s.wr .POWER_LIFE_HOURS_HOURS (v b) 0 b) s
  let s2 := (s1.wr .POWER_LIFE_CYCLES_PWRGD (min 0xFFFF (v 4 + 1))).wr .POWER_LIFE_CYCLES_THERMAL (v 5)
  if v 4 + 1 = 9000 then raise .power 0 18 s2 else s2

/-- A copy of a core-map record that fails its check (R238). -/
def spoilMap (i : Nat) (s : State) : State :=
  let x := s.tier (i / 2)
  s.setTier (i / 2) (if i % 2 = 0 then { x with recA := x.recA.map (fun r => { r with bad := true }) }
                     else { x with recB := x.recB.map (fun r => { r with bad := true }) })

/-- The non-volatile records are read (R205, R222, R238) and the boot ROM starts; the register pages and both ports answer from now on. -/
def nvmLoaded (badOut badMap badTrim : List Nat) (s : State) : State :=
  let s1 := each badOut (fun c s => s.setOut c { s.out c with record := { (s.out c).record with bad := true } }) s
  let s2 := each (upTo 48) loadRecord s1
  let s3 := each (upTo 4) (loadTier badTrim) (each badMap spoilMap s2)
  let cover := s.rd .BENCH_STATUS_SPARE_COVER
  let s4 := (loadLife s3).wr .BENCH_STATUS_SPARE_FREE (if cover = 31 then 1 else 0)
  { s4 with dev := .up, pwr := { s4.pwr with step := 1 }, sec := { s4.sec with boot := .due } }

/-- `POWERUP_NVM_LOADED` (R216 step 2): `badOut` are the channels whose record fails its check, `badCal` the Burnish records that do: 2t for
copy A of tier t's core map and 2t + 1 for its copy B, 8 + 13t + k for the last-good record of core k of tier t. -/
def execPowerupNvmLoaded (badOut : List (Fin 48)) (badCal : List (Fin 60)) (s : State) : Out :=
  .next (if s.dev = .powerup then
      nvmLoaded (badOut.map Fin.val) ((badCal.map Fin.val).filter (fun n => n < 8))
        (((badCal.map Fin.val).filter (fun n => 8 ≤ n)).map (fun n => n - 8)) s
    else s)

/-- A step of the outputs' power-up follows the one before. -/
def powerupStep (n : Nat) (f : State → State) (s : State) : Out :=
  act s (on (s.pwr.step + 1 = n) fun s => { f s with pwr := { (f s).pwr with step := n } })

/-- Each channel's core takes the code of the wake value on the wake span, and SPAN takes the wake span. -/
def wakeCodes (s : State) : State :=
  each (upTo 48) (fun c s =>
    let sp := (s.out c).wakeSpan
    showVolt c (s.out c).wakeVal (((s.wr .OUT_STATUS_SPAN_NOW sp c).wr .OUT_SPANCTL_SPAN sp c).wrEff .OUT_SPANCTL_SPAN sp c)) s

/-- `POWERUP_REF_SETTLED` (R216 step 3). -/
def execPowerupRefSettled (s : State) : Out := powerupStep 2 wakeCodes s

/-- `POWERUP_STAGE_BIASED` (R216 step 4): stage PREFER becomes the active one; the standby stage is biased with it. -/
def execPowerupStageBiased (s : State) : Out :=
  powerupStep 3 (each (upTo 48) (fun c s => s.wr .OUT_STATUS_STAGE (s.rd .OUT_STAGECTL_PREFER c) c)) s

/-- `POWERUP_SWITCH_CLOSE` (R216 step 5): a channel leaves high impedance unless its record failed its check (R205). -/
def execPowerupSwitchClose (s : State) : Out :=
  powerupStep 4 (each (upTo 48) (fun c s => on (s.rd .OUT_STATUS_NVM_BAD c = 0) (fun s => riseWake c (s.wr .OUT_STATUS_HIGHZ 0 c)) s)) s

/-- `POWERUP_WAKE_REACHED` (R216 step 6): the pins settle at what the DAC registers hold since step 3. -/
def execPowerupWakeReached (s : State) : Out := powerupStep 5 id s

/-- `TACK_READY` (R394 step 5): the pool is initialised and the benches are clear; after power-up the reference PLL has locked in INTERNAL.
A warm reset keeps the PLL as it is (R38). -/
def execTackReady (s : State) : Out :=
  act s fun s =>
    let s1 := (s.wr .BENCH_STATUS_READY 1).wr .TACK_STATUS_READY 1
    if s.pllStarted then s1
    else
      let s2 : State := { s1 with pllStarted := true }
      if s.rd .TBASE_TB_CFG_REF_MODE = 0 ∧ s.rd .TBASE_TB_STATUS_HOLDOVER = 0 ∧ s.rd .TBASE_TB_STATUS_SLEWING = 0 then
        (s2.wr .TBASE_TB_STATUS_PLL_LOCKED 1).wr .TBASE_TB_STATUS_REF_PRESENT 1
      else s2

/-! ### Warm reset (R217, R302, R326, R391–R393) -/

/-- A test or a replacement on the benches ends as R326 says: a test is restored, a replacement runs to its switch, and a COVERED range
stays. -/
def endBist (s : State) : State :=
  match bistPhase s with
  | 1 => ((setBistPhase 0 s).wr .BENCH_STATUS_BIST_BUSY 0).wr .BENCH_STATUS_SPARE_FREE 1
  | 2 => restoreDone { s with ben := { s.ben with aborted := true } }
  | 3 =>
    let s1 := restoreDone { s with ben := { s.ben with aborted := true } }
    if bistPhase s1 = 4 then replaceDone [] s1 else s1
  | 4 => replaceDone [] s
  | _ => s

/-- The state of an output channel's engine after a warm reset: queues and requests go, protection and the record stay. -/
def OutChan.warm (o : OutChan) : OutChan :=
  { o with
    sq := [], inter := [], latch := none, m0 := false, m1 := false, patBits := [], patSeen := 0, switchReq := none, localReq := false,
    nvmOp := 0 }

/-- Every bench that is not OFF takes its state of R317 at once. -/
def settleBenches (s : State) : State :=
  each (upTo 16) (fun b s => if benchState s b = 3 then s else setBenchState b (benchRest s b) s) s

/-- Quarry after the controller has entered self-refresh (R302): requests are discarded and rows closed. -/
def Quarry.warm (q : Quarry) : Quarry :=
  { q with
    reqs := [], units := [], waiting := [], copies := [], banks := [], ptr := [], refreshing := false, op := .idle, opForced := false }

/-- The life counts in the order of the non-volatile store. -/
def lifeCounts (s : State) : List Nat :=
  (upTo 4).map (fun b => s.rd .POWER_LIFE_HOURS_HOURS 0 b) ++ [s.rd .POWER_LIFE_CYCLES_PWRGD, s.rd .POWER_LIFE_CYCLES_THERMAL]

/-- What every warm reset does to the device (R217, R393): the channels' resets, the end of what runs, and the Reset values. -/
def clearWarm (s0 : State) : State :=
  let s := each (upTo 4) resetTier (each (upTo 48) resetOut (endBist s0))
  let s1 : State := { s with
    regs := keepFields (nvmFields ++ rwsFields ++ keptFields) s.regs
    eff := [], cap := [], held := [], presented := [], commits := [], holdoff := []
    epoch := {}, lcs := [], clocks := [], gstbs := [], wheels := [], cses := [], stitchers := [], queues := [], staging := [], rings := []
    outs := Store.mapValues {} OutChan.warm s.outs
    lines := [], pins := Store.mapValues {} (fun p => { ext := p.ext, filt := p.ext }) s.pins, capus := [], evin := [], nvmQueue := [],
    ports := [], ldr := {}
    sec := { owner := s.sec.owner, libKeys := s.sec.libKeys, rehomed := s.sec.rehomed }
    pwr := { step := s.pwr.step, warmFrom := s.pwr.warmFrom, spareSeen := s.pwr.spareSeen, lifeMs := s.pwr.lifeMs, tjLow := s.pwr.tjLow,
             tjHigh := s.pwr.tjHigh, tjRead := s.pwr.tjRead, lifeSaved := lifeCounts s, lifeFrom := s.osc }
    qry := s.qry.warm, ben := { s.ben with last := [], held := [] }
    missed := [], trimDue := false, fwUp := false }
  let s2 := each (upTo 48) (fun c s =>
    (s.wr .OUT_SPANCTL_SPAN (s.out c).wakeSpan c).wrEff .OUT_SPANCTL_SPAN (s.out c).wakeSpan c) s1
  settleBenches s2

/-- What the reset itself reports in the pages it has cleared: a record that fails its check (R205), a loader job that it stopped (R360). -/
def reportWarm (job : Bool) (s : State) : State :=
  let s1 := each (upTo 48) (fun c s => if (s.out c).record.bad then loadRecord c s else s) s
  if job then raise .xspi 0 1 (s1.wr .XSPI_LD_STAT_STOP 9) else s1

/-- Exit time of a power state to D0, in microseconds (R398). -/
def exitUs (d : Nat) : Nat := match d with | 1 => 2 | 2 => 12 | 3 => 150 | 4 => 2000 | _ => 0

/-- A warm reset of the device from a cause of R391. While one is held a further cause extends it. -/
def warmReset (cause : Reg) (s : State) : State :=
  if s.dev = .warm then { s with pwr := { s.pwr with warmFrom := max s.pwr.warmFrom s.osc } }
  else
    let from_ := s.osc + 400 * exitUs (s.rd .POWER_STATUS_DSTATE)
    let job := s.rd .XSPI_LD_STAT_BUSY == 1
    let s1 := reportWarm job (clearWarm s)
    { ((s1.wr .QUARRY_STATUS_SELF_REFRESH 1).wr cause 1).inc .SYS_RESET_CNT_WARM with
      dev := .warm, pwr := { s1.pwr with warmFrom := from_ } }

/-- `RESET_PIN`: during power-up the sequence of R216 goes on. -/
def execResetPin (s : State) : Out :=
  .next (if s.dev = .up ∨ s.dev = .warm then warmReset .SYS_RESET_CAUSE_PIN s else s)

/-- `SYS_SOFT_RESET`: masters 0, 1 and 2 only. -/
def execSysSoftReset (m : Master) (s : State) : Out :=
  act s (gateBy (m.val ≤ 2) .sys 0 4 m.val (warmReset .SYS_RESET_CAUSE_SOFT))

/-- The cause bit of a device reset by RSTACT on port j. -/
def rstactCause (j : Nat) : Reg := if j = 0 then .SYS_RESET_CAUSE_RSTACT_A else .SYS_RESET_CAUSE_RSTACT_B

/-- Defining byte 0x02 on port j (R333): a warm reset of the device where allowed, else a reset of the port. -/
def rstactDevice (j : Nat) (s : State) : State :=
  let s1 := raise .i3c j 4 (s.setPort j { s.port j with rstByte := 2 })
  if s.rd .I3C_LINK_CFG_ALLOW_DEV_RESET j = 1 then warmReset (rstactCause j) s1 else resetPort j s1

/-- `RSTACT_DEVICE`. -/
def execRstactDevice (j : Fin 2) (s : State) : Out := ccc j.val (rstactDevice j.val) s

/-- The target reset pattern (R331): the action that the port's last RSTACT set. -/
def resetPattern (j : Nat) (s : State) : State :=
  match (s.port j).rstByte with
  | 0 => s
  | 2 => rstactDevice j s
  | _ => resetPort j (raise .i3c j 4 s)

/-- `TARGET_RESET_PATTERN`. -/
def execTargetResetPattern (j : Fin 2) (s : State) : Out := act s (on (portOn s j.val = true) (resetPattern j.val))

/-- The reset ends (R302, R329, R392): ADDR[2:0] is sampled, Quarry leaves self-refresh and the boot ROM starts. -/
def warmEnd (addr : Nat) (s : State) : State :=
  let t := if s.qry.trained then 1 else 0
  let s1 := (((endSelfRefresh s).wr .QUARRY_STATUS_READY t).wr .QPHY_STATUS_PLL0_LOCK t).wr .QPHY_STATUS_PLL1_LOCK t
  { s1 with dev := .up, addrPins := addr, sec := { s1.sec with boot := .due } }

/-- `WARM_RESET_END`: at the earliest 10 us after the cause, and after the exit time of a power state below D0 (R392). -/
def execWarmResetEnd (addr : BitVec 3) (s : State) : Out :=
  .next (if s.dev = .warm ∧ s.pwr.warmFrom + 4000 ≤ s.osc then warmEnd addr.toNat s else s)

/-! ### READY (R303, R393–R396) -/

/-- A physical rank fails training (R303): it is RETIRED; the spare takes its logical rank, no copy needed. -/
def trainFails (p : Nat) (s : State) : State :=
  match rankState s p, holds s p with
  | 1, _ => retireRank p s
  | 0, some lg =>
    let sp := s.rd .QUARRY_LRMAP_SPARE
    if sp = 15 then retireRank p s
    else raise .quarry 0 4 (((setRank sp 0 (setRank p 4 s)).wr .QUARRY_LRMAP_MAP sp 0 0 lg).wr .QUARRY_LRMAP_SPARE 15)
  | _, _ => s

/-- Firmware trains Quarry: OP0 last, into set A, which becomes active. -/
def train (failed : List Nat) (s : State) : State :=
  let s1 := each failed trainFails s
  let s2 := ((((s1.wr .QPHY_TSET_CTL_ACTIVE 0).wr .QPHY_TSET_CTL_A_OP 0).wr .QPHY_TSET_CTL_A_VALID 1).wr .QPHY_STATUS_PLL0_LOCK 1).wr
    .QPHY_STATUS_PLL1_LOCK 1
  { s2 with qry := { s2.qry with trained := true, dlySeed := some s2.free, dly := [] } }.nextFree.wr .QUARRY_STATUS_READY 1

/-- Firmware gives the spare synthesizer back to the quad that it had rehomed (R393). -/
def restoreRehomed (s : State) : State :=
  match s.sec.rehomed with
  | some q => useSpareSet q (writeCover 2 (q + 0x100) s)
  | none => s

/-- READY is set: event and interrupts (R346, R395). -/
def becomeReady (s : State) : State :=
  let s1 := raise .sys 0 0 (s.wr .SYS_STATUS_READY 1)
  each (upTo 2) (fun j s => s.setPort j { s.port j with readyIbi := true }) s1

/-- `READY`: firmware runs, benches and Tack are ready; Quarry is trained now where it has not been since the cold reset, `failed` being the
ranks that fail. -/
def execReady (failed : List (Fin 8)) (s : State) : Out :=
  act s (on (s.rd .SEC_STATUS_BOOT_OK = 1 ∧ s.rd .BENCH_STATUS_READY = 1 ∧ s.rd .TACK_STATUS_READY = 1 ∧ s.rd .SYS_STATUS_READY = 0) fun s =>
    becomeReady (restoreRehomed (if s.qry.trained then s else train (failed.map Fin.val) s)))

end Sys2Proof.Machine
end

