-- ==== Sys2Proof/Machine/Power.lean ====
section
/-! DEFINITION. Power states, thermal and rail monitoring, pace, service life, the redundancy summary, and the tick (R16, R20, R57, R235,
R317, R389, R398–R410, R427). POWER event bits: 0–11 PACE_Qq, 12 D_ENTER, 13 D_EXIT, 14 THERM_WARN, 15 THERM_LIMIT, 16 THERM_CRIT, 17
RAIL_FAULT, 18 LIFE_WARN. -/

namespace Sys2Proof.Machine

/-- Entry time of a power state, in microseconds (R398). -/
def entryUs (d : Nat) : Nat := match d with | 1 => 1 | 2 => 5 | 3 => 20 | 4 => 200 | _ => 0

/-! ### Quiet (R399) -/

/-- A CSE is disabled, or idle with HOLD or REST in effect. -/
def cseQuiet (s : State) (c : Nat) : Bool :=
  s.rd .CTRL_ENABLE c (Page.code .cse) == 0 || (s.cse c).idle == some .hold || (s.cse c).idle == some .rest

/-- No complete or open packet in queue i. -/
def queueQuiet (s : State) (i : Nat) : Bool := (s.queue i).head.isNone && (s.queue i).cells.isEmpty && openCells s i == 0

/-- The Stitcher is disabled, halted, faulted, or waits in WAITT, WAITE or GANG WAITC. -/
def stitchQuiet (s : State) (q : Nat) : Bool :=
  s.rd .CTRL_ENABLE q (Page.code .stitch) == 0 || s.rd .STITCH_STATUS_HALTED q == 1 || s.rd .STITCH_STATUS_FAULTED q == 1 ||
  (match (s.stitcher q).wait with | .time _ _ _ => true | .event _ _ _ _ _ _ => true | .waitc _ _ _ => true | _ => false)

/-- No jump of the quad is armed, at its Stitcher or in a CSE. -/
def noneArmed (s : State) (q : Nat) : Bool :=
  (s.stitcher q).armed.all (fun p => p.2.isNone) && (chansOf q).all (fun c => (s.cse c).alt.isNone)

/-- Condition 1 for one quad. -/
def quadQuiet (s : State) (q : Nat) : Bool :=
  s.rd .CTRL_ENABLE q (Page.code .qclk) == 0 ||
  ((chansOf q).all (cseQuiet s) && (rangeFrom (16 * q) 16).all (queueQuiet s) && (s.wheel q).ramp.isNone && noneArmed s q &&
   stitchQuiet s q)

/-- The first condition that fails, or 0: the device is quiet. INIT_DONE, which only D2 to D4 need, is a condition of the target. -/
def quietBlock (s : State) : Nat :=
  if (upTo 12).any (fun q => !quadQuiet s q) then 1
  else if s.rd .QUARRY_STATUS_MIGRATING = 1 ∨ s.rd .QUARRY_STATUS_RESHAPING = 1 ∨ s.rd .QUARRY_STATUS_OP_PENDING = 1 ∨
      s.qry.op ≠ .idle then 2
  else if s.rd .XSPI_LD_STAT_BUSY = 1 ∨ s.rd .XSPI_STATUS_RAW_BUSY = 1 then 3
  else if s.rd .BENCH_STATUS_BIST_BUSY = 1 ∨ s.ben.held ≠ [] then 4
  else if (upTo 4).any (fun t => s.rd .BURNISH_CAP_CTRL_BUSY 0 t == 1 || capturing s t || matching s t) then 5
  else if (upTo 2).any (fun j => s.rd .SEC_MB_STAT_BUSY 0 j == 1) then 6
  else if (upTo 48).any (fun c => s.rd .OUT_STATUS_SPAN_BUSY c == 1) ∨ s.nvmQueue ≠ [] ∨ s.rd .BURNISH_STATUS_NVM_SAVING = 1 then 7
  else if (upTo 2).any (fun j => s.rd .I3C_STATUS_TUN_BUSY j == 1) then 8
  else 0

/-! ### Target state (R400) -/

/-- The wake times W of the armed comparators: C − A of each WAITT that waits for it, else C. -/
def wakeTimes (s : State) : List Int :=
  let armed := (upTo 64).filter (lcArmed s)
  armed.flatMap fun n =>
    let advs := (upTo 12).filterMap (fun q => match (s.stitcher q).wait with
      | .time lc a _ => if lc = n then some (a : Int) else none
      | _ => none)
    if advs.isEmpty then [((s.lc n).c : Int)] else advs.map (fun a => ((s.lc n).c : Int) - a)

/-- The earliest wake time. -/
def earliestWake (s : State) : Option Int :=
  (wakeTimes s).foldl (fun m w => match m with | none => some w | some x => some (min x w)) none

/-- The smallest latency tolerance. -/
def tolerance (s : State) : Nat := min (s.rd .POWER_LTOL_HOST_US) (min (s.rd .POWER_LTOL_EVENT_US) (s.rd .POWER_LTOL_TALLY_US))

/-- State d meets the conditions of R400; D2 to D4 need Quarry's initialisation done (R399). -/
def stateFits (s : State) (d : Nat) : Bool :=
  decide (d ≤ min 4 (s.rd .POWER_PWR_CFG_MAX_STATE)) && decide (exitUs d ≤ tolerance s) &&
  (match earliestWake s with
   | some w => decide ((400 * (entryUs d + exitUs d + s.rd .POWER_TIME_LEAD_US) : Nat) ≤ w - (s.now : Int))
   | none => true) &&
  (decide (d < 2) || s.rd .QUARRY_STATUS_INIT_DONE == 1)

/-- The target state: the deepest that fits, D0 where none does. -/
def targetState (s : State) : Nat := (([4, 3, 2, 1] : List Nat).find? (stateFits s)).getD 0

/-- The device has been quiet for ENTRY_IDLE; 0 acts as 1. -/
def idleOver (s : State) : Bool :=
  match s.pwr.quietFrom with
  | some t => decide (t + 400 * max 1 (s.rd .POWER_ENTRY_IDLE_US) ≤ s.osc)
  | none => false

/-- `POWER_STATE_ENTRY`. -/
def execPowerStateEntry (s : State) : Out :=
  act s (on (dstate s = 0 ∧ s.rd .POWER_STATUS_ENTERING = 0 ∧ s.rd .POWER_STATUS_EXITING = 0 ∧ quietBlock s = 0 ∧ idleOver s = true ∧
      targetState s ≠ 0) fun s =>
    { (s.wr .POWER_STATUS_ENTERING 1).wr .POWER_STATUS_TARGET (targetState s) with pwr := { s.pwr with phaseFrom := s.osc } })

/-! ### Entry (R57, R218, R235, R301, R317, R398) -/

/-- The sample edges of every quad stop; their timelines go on. -/
def darken (s : State) : State :=
  each (upTo 12) (fun q s =>
    if (s.clock q).running then s.setClock q { s.clock q with running := false, dark := true } else s) s

/-- Burnish pauses: a visit in SHADOW or MATCH is cancelled, a measuring or verifying window pauses (R235). -/
def pauseBurnish (s : State) : State :=
  each (upTo 4) (fun t s => if matching s t then endVisit t s else pauseWindow t s) s

/-- The quad synthesizers and the Quarry PHY PLLs are off. -/
def synthsOff (s : State) : State :=
  let s1 := each (upTo 13) (fun y s => s.wr .QCLK_QCLK_STATUS_LOCKED 0 y) s
  ((s1.wr .QCLK_QCLK_STATUS_READY 0 12).wr .QPHY_STATUS_PLL0_LOCK 0).wr .QPHY_STATUS_PLL1_LOCK 0

/-- Power state d takes effect. -/
def enterState (d : Nat) (s : State) : State :=
  let s1 := pauseBurnish (darken (((s.wr .POWER_STATUS_DSTATE d).wr .POWER_STATUS_ENTERING 0)))
  let s2 := if 2 ≤ d then restBenches (enterSelfRefresh s1) else s1
  raise .power 0 12 (if 3 ≤ d then synthsOff s2 else s2)

/-- `D_ENTER`. A request to Quarry at urgency 3 keeps D2 and the states below it from being entered (R301). -/
def execDEnter (s : State) : Out :=
  act s (on (s.rd .POWER_STATUS_ENTERING = 1 ∧ (s.rd .POWER_STATUS_TARGET < 2 ∨ anyUrgent s 3 = false))
    fun s => enterState (s.rd .POWER_STATUS_TARGET) s)

/-! ### Wake and exit (R400–R403) -/

/-- `WAKE` of class 1 HOST, 2 EVENT, 3 TALLY or 5 INTERNAL; class 4 is `POWER_TIME_WAKE`. -/
def execWake (cls : Fin 6) (s : State) : Out := act s (on (cls.val ≠ 0 ∧ cls.val ≠ 4) (wake cls.val))

/-- A scheduled exit must begin to reach D0 at W − TIME_LEAD. -/
def timeWakeDue (s : State) : Bool :=
  match earliestWake s with
  | some w => decide (w ≤ (s.now : Int) + (400 * (s.rd .POWER_TIME_LEAD_US + exitUs (dstate s)) : Nat))
  | none => false

/-- `POWER_TIME_WAKE`. -/
def execPowerTimeWake (s : State) : Out := act s (on (dstate s ≠ 0 ∧ timeWakeDue s = true) (wake 4))

/-- The synthesizers and PLLs that D3 and D4 switched off have locked again. -/
def synthsOn (s : State) : State :=
  let s1 := each (upTo 12) (fun q s =>
    if (s.clock q).dark then s.wr .QCLK_QCLK_STATUS_LOCKED (if s.rd .QCLK_QCLK_STATUS_ON_SPARE q = 1 then 0 else 1) q else s) s
  let v := s.rd .QCLK_COVER_VALID 12
  (((s1.wr .QCLK_QCLK_STATUS_LOCKED v 12).wr .QCLK_QCLK_STATUS_READY v 12).wr .QPHY_STATUS_PLL0_LOCK 1).wr .QPHY_STATUS_PLL1_LOCK 1

/-- Every suspended quad clock resumes on its timeline (R56), and a start asked for below D0 takes place (R402). -/
def lighten (s : State) : State :=
  each (upTo 12) (fun q s =>
    if (s.clock q).dark then resumeClock q (s.setClock q { s.clock q with dark := false })
    else if (s.clock q).startDue then
      qclkStart q ((s.setClock q { s.clock q with startDue := false }).wr .CTRL_ENABLE 0 q (Page.code .qclk))
    else s) s

/-- Every bench takes its state of R317; one that is ON serves what it held. -/
def wakeBenches (s : State) : State :=
  each (upTo 16) (fun b s =>
    if benchState s b = 3 then s else if benchRest s b = 0 then benchWake b s else setBenchState b (benchRest s b) s) s

/-- Exit to D0 completes. -/
def exitState (s : State) : State :=
  let d := dstate s
  let us := min 0xFFFF ((s.osc - s.pwr.phaseFrom) / 400)
  let s1 := ((s.wr .POWER_STATUS_DSTATE 0).wr .POWER_STATUS_EXITING 0).wr .POWER_WAKE_STAT_EXIT_US us
  let s2 := if 3 ≤ d then synthsOn s1 else s1
  let s3 := if 2 ≤ d then releaseWaiting (wakeBenches (endSelfRefresh s2)) else s2
  let s4 := each (upTo 4) (fun t s => takeVisitReq t (resumeBurnish t s)) (lighten s3)
  let s5 := deliverHeld s4
  raise .power 0 13 { s5 with pwr := { s5.pwr with quietFrom := none } }

/-- `D_EXIT`. -/
def execDExit (s : State) : Out := act s (on (s.rd .POWER_STATUS_EXITING = 1) exitState)

/-! ### Thermal monitor (R404, R410) -/

/-- A write of THERM_CFG: thresholds are clamped to their ranges. -/
def writeThermCfg (v : Nat) (s : State) : State :=
  let c (lo x : Nat) : Nat := min 150 (max lo x)
  (((s.wr .POWER_THERM_CFG_TWARN (c 60 (bits v 7 0))).wr .POWER_THERM_CFG_TLIM (c 60 (bits v 15 8))).wr .POWER_THERM_CFG_TCRIT
    (c 100 (bits v 23 16))).wr .POWER_THERM_CFG_CRIT_ACT (bit v 24)

/-- A threshold's status at a temperature in 0.25 °C: set at or above it, cleared 5 °C below it. -/
def judge (now thr : Nat) (tj : Int) : Nat :=
  if (4 * thr : Nat) ≤ tj then 1 else if tj ≤ (4 * thr : Nat) - 20 then 0 else now

/-- One threshold is judged: its event on a rise. -/
def judgeThreshold (st thr : Reg) (ev : Nat) (tj : Int) (s : State) : State :=
  let v := judge (s.rd st) (s.rd thr) tj
  let s1 := s.wr st v
  if s.rd st = 0 ∧ v = 1 then raise .power 0 ev s1 else s1

/-- The effects of the thermal limit on the benches (R317). -/
def applyLimit (before : Nat) (s : State) : State :=
  let v := s.rd .POWER_STATUS_THERMAL_LIMIT
  if before = v then s else if v = 1 then benchThermal true s else restBenches (benchThermal false s)

/-- The effects of a rise of TCRIT. -/
def applyCrit (before : Nat) (s : State) : State :=
  if before = 0 ∧ s.rd .POWER_STATUS_THERM_CRIT = 1 then
    let s1 := if s.rd .POWER_THERM_CFG_CRIT_ACT = 1 then
        each (upTo 48) (fun c s => if outEnabled s c then writeForce c true s else s) s
      else s
    wake 5 s1
  else s

/-- The temperature band of a reading in 0.25 °C. -/
def band (tj : Int) : Nat := if tj ≤ 340 then 0 else if tj ≤ 420 then 1 else if tj ≤ 500 then 2 else 3

/-- The hours at which band b has reached 90 % of its limit (R409, R410): none for the bands below 105 °C; above 125 °C any. -/
def bandWarn (b n : Nat) : Bool := (b == 2 && n == 18000) || (b == 3 && n == 1)

/-- One more millisecond in a band. -/
def countBand (b : Nat) (s : State) : State :=
  let ms := Store.get 0 s.pwr.lifeMs b + 1
  if ms < 3600000 then { s with pwr := { s.pwr with lifeMs := Store.set 0 s.pwr.lifeMs b ms } }
  else
    let s1 := ({ s with pwr := { s.pwr with lifeMs := Store.set 0 s.pwr.lifeMs b 0 } } : State).inc .POWER_LIFE_HOURS_HOURS 0 b
    if bandWarn b (s1.rd .POWER_LIFE_HOURS_HOURS 0 b) then raise .power 0 18 s1 else s1

/-- A swing of Tj of 40 °C or more since the last one counted. -/
def countSwing (tj : Int) (s : State) : State :=
  let lo := if s.pwr.tjRead then min s.pwr.tjLow tj else tj
  let hi := if s.pwr.tjRead then max s.pwr.tjHigh tj else tj
  if hi - lo < 160 then { s with pwr := { s.pwr with tjLow := lo, tjHigh := hi, tjRead := true } }
  else
    let s1 := ({ s with pwr := { s.pwr with tjLow := tj, tjHigh := tj, tjRead := true } } : State).inc .POWER_LIFE_CYCLES_THERMAL
    if s1.rd .POWER_LIFE_CYCLES_THERMAL = 18000 then raise .power 0 18 s1 else s1

/-- A field that was read restarts with this sample. -/
def restarts (s : State) (k : Nat) : Bool := Store.get true s.pwr.fresh k
/-- The sample has been taken into the field. -/
def taken (k : Nat) (s : State) : State := { s with pwr := { s.pwr with fresh := Store.set true s.pwr.fresh k false } }
/-- The field is read and restarts. -/
def restart (k : Nat) (s : State) : State := { s with pwr := { s.pwr with fresh := Store.set true s.pwr.fresh k true } }

/-- Tj as a signed number of 0.25 °C; the peak since the last read. -/
def recordTj (tj : Int) (s : State) : State :=
  let peak := signed 12 (s.rd .POWER_THERM_STAT_PEAK)
  taken 12 ((s.wr .POWER_THERM_STAT_TJ (unsigned 12 tj)).wr .POWER_THERM_STAT_PEAK
    (unsigned 12 (if restarts s 12 then tj else max peak tj)))

/-- The sensors are read: `tj` is the highest. -/
def thermal (tj : Int) (s : State) : State :=
  let s1 := countSwing tj (countBand (band tj) (recordTj tj s))
  let s2 := judgeThreshold .POWER_STATUS_THERM_WARN .POWER_THERM_CFG_TWARN 14 tj s1
  let s3 := judgeThreshold .POWER_STATUS_THERMAL_LIMIT .POWER_THERM_CFG_TLIM 15 tj s2
  let s4 := judgeThreshold .POWER_STATUS_THERM_CRIT .POWER_THERM_CFG_TCRIT 16 tj (applyLimit (s.rd .POWER_STATUS_THERMAL_LIMIT) s3)
  applyCrit (s.rd .POWER_STATUS_THERM_CRIT) s4

/-- `THERMAL_SAMPLE`. -/
def execThermalSample (tj : BitVec 12) (s : State) : Out := act s (thermal (signed 12 tj.toNat))

/-- `LIFE_COUNT_SAVE`: 24 h after the last save; a warm reset saves too, and LIFE_WARN is raised as a count reaches 90 %. -/
def execLifeCountSave (s : State) : Out :=
  act s (on (s.pwr.lifeFrom + 24 * 3600 * Config.ticksPerSecond ≤ s.osc) fun s =>
    { s with pwr := { s.pwr with lifeSaved := lifeCounts s, lifeFrom := s.osc } })

/-! ### Rails (R389, R427) -/

/-- One rail is compared with its range. -/
def judgeRail (r : Nat) (ok : Bool) (s : State) : State :=
  let was := s.rd .POWER_RAIL_STAT_IN_RANGE 0 0 r
  let s1 := s.wr .POWER_RAIL_STAT_IN_RANGE (if ok then 1 else 0) 0 0 r
  if was = 1 ∧ ok = false then wake 5 (raise .power 0 17 (s1.wr .POWER_RAIL_FAULT_LEFT 1 0 0 r)) else s1

/-- A PAT bank's supply: its level while it is in range (R263). -/
def judgeBank (b : Nat) (ok high : Bool) (s : State) : State :=
  let s1 := s.wr .PAT_STATUS_BANK_OK (if ok then 1 else 0) 0 0 b
  if ok then s1.wr .PAT_STATUS_BANK_V (if high then 1 else 0) 0 0 b else s1

/-- A sample of the monitor. -/
def rails (ok mv high : Nat) (s : State) : State :=
  let s1 := (each (upTo 13) (fun r s => judgeRail r (ok.testBit r) s) s).wr .POWER_VCORE_MV_MV mv
  let s2 := each (upTo 4) (fun b s => judgeBank b (ok.testBit (6 + b)) (high.testBit (2 + b)) s) s1
  if ok.testBit 5 then s2.wr .XSPI_STATUS_VIO_18 (if high.testBit 1 then 0 else 1) else s2

/-- `RAIL_MONITOR_SAMPLE`: which rails are in range, in the order of RAIL_STAT; VCORE in mV; which of VIO_A, VIO_B and VIO_PAT0 to 3 are at
3.3 V. -/
def execRailMonitorSample (ok : BitVec 13) (mv : BitVec 12) (high : BitVec 6) (s : State) : Out := act s (rails ok.toNat mv.toNat high.toNat)

/-! ### Pace (R20, R405) -/

/-- The quad has a demand. -/
def hasDemand (s : State) (q : Nat) : Bool :=
  s.rd .CTRL_ENABLE q (Page.code .qclk) == 1 && (chansOf q).any (fun c => s.rd .CTRL_ENABLE c (Page.code .cse) == 1) && dstate s == 0

/-- A 1 ms window of quad q ends with an exact ratio of r / 2^24. -/
def paceWindow (q r : Nat) (s : State) : State :=
  let v := min 0xFFFF (r / 2 ^ 16)
  let low := if restarts s q then v else min (s.rd .POWER_PACE_MIN 0 q) v
  let s1 := taken q ((s.wr .POWER_PACE_RATIO v 0 q).wr .POWER_PACE_MIN low 0 q)
  if 100 * r < 115 * 2 ^ 24 then raiseFor .power 0 q q (s1.wr .POWER_PACE_WARN_QUAD 1 0 0 q) else s1

/-- `PACE_WINDOW_END`: the ratio as u8.24. -/
def execPaceWindowEnd (q : Quad) (ratio : Word) (s : State) : Out := act s (on (hasDemand s q.val = true) (paceWindow q.val ratio.toNat))

/-! ### Redundancy (R407) -/

/-- A quad is stopped while the spare synthesizer covers another. -/
def synthLost (s : State) (q : Nat) : Bool :=
  s.rd .QCLK_QCLK_STATUS_STOPPED q == 1 && s.rd .CTRL_ENABLE q (Page.code .qclk) == 1 && s.rd .QCLK_COVER_VALID 12 == 1 &&
  s.rd .QCLK_COVER_QUAD 12 != q

/-- SPARE_SUM. -/
def spareSum (s : State) : Nat :=
  let b (n : Nat) (c : Bool) : Nat := if c then 2 ^ n else 0
  b 0 ((upTo 48).any (fun c => s.rd .OUT_STAGE_STAT_A_FAILED c == 1 || s.rd .OUT_STAGE_STAT_B_FAILED c == 1)) +
  b 1 ((upTo 4).any (fun t => spareCore s t == 15)) + b 2 (spareBench s != 31 || bistPhase s == 5) +
  b 3 (s.rd .QUARRY_LRMAP_SPARE == 15) + b 4 ((upTo 12).any (fun q => s.rd .QCLK_QCLK_STATUS_ON_SPARE q == 1)) +
  b 5 ((upTo 2).any (fun j => s.rd .I3C_STATUS_HEALTHY j == 0)) + b 6 (s.rd .SYS_SPARE_SUM_FW == 1) +
  b 16 ((upTo 48).any (bothFailed s)) + b 17 ((upTo 48).any (fun c => s.rd .OUT_FAULT_STAT_CORE_LOST c == 1)) +
  b 18 ((upTo 16).any (fun k => benchHealth s k == 3)) + b 19 (s.rd .QUARRY_STATUS_DEGRADED == 1) + b 20 ((upTo 12).any (synthLost s))

/-- Some bit of v is set that was not set in u. -/
def anyNew (u v lo hi : Nat) : Bool := (rangeFrom lo (hi - lo)).any (fun n => v.testBit n && !u.testBit n)

/-- Raise SPARE_USED and UNIT_LOST for the bits that have set. -/
def judgeSpares (s : State) : State :=
  let v := spareSum s
  let s1 : State := { s with pwr := { s.pwr with spareSeen := v } }
  let s2 := if anyNew s.pwr.spareSeen v 0 16 then raise .sys 0 1 s1 else s1
  if anyNew s.pwr.spareSeen v 16 32 then raise .sys 0 2 s2 else s2

/-! ### The tick -/

/-- One tick more in the state in effect: RESIDENCY counts whole milliseconds. -/
def countResidency (s : State) : State :=
  let d := dstate s
  let n := Store.get 0 s.pwr.resid d + 1
  if n < Config.ticksPerMs then { s with pwr := { s.pwr with resid := Store.set 0 s.pwr.resid d n } }
  else ({ s with pwr := { s.pwr with resid := Store.set 0 s.pwr.resid d 0 } } : State).inc .POWER_RESIDENCY_MS 0 d

/-- Since when the device has been quiet without a break. -/
def trackQuiet (s : State) : State :=
  let from_ := if dstate s = 0 ∧ quietBlock s = 0 then some (s.pwr.quietFrom.getD s.osc) else none
  { s with pwr := { s.pwr with quietFrom := from_ } }

/-- The watchdog is frozen in D4. -/
def freezeWatchdog (s : State) : State := if dstate s = 4 then { s with sec := { s.sec with wdtFrom := s.sec.wdtFrom + 1 } } else s

/-- One tick of the timebase (R35, R38): what happens with time alone. A device without power has no tick. -/
def tick (s : State) : State :=
  if s.dev = .off then s
  else
    let s1 : State := { s with now := (s.now + 1) % 2 ^ 64, osc := s.osc + 1, presented := [] }
    if s.dev = .up then judgeSpares (trackQuiet (countResidency (freezeWatchdog (passFilters s1)))) else s1

end Sys2Proof.Machine
end

