-- ==== Sys2Proof/Machine/Shadow.lean ====
section
/-! DEFINITION. Commits of shadow copies (R8, R54, R63, R191, R213, R420–R422). -/

namespace Sys2Proof.Machine

/-- The page exists. -/
def pageExists (p : Page) (inst : Nat) : Bool := decide (inst < p.count)

/-- GO (R420): refused, or a commit is pending. A commit in MODE 0 captures at once (R422). -/
def shadowGo (p : Page) (inst mode lc : Nat) (s : State) : State :=
  if mode = 3 ∨ (mode = 2 ∧ p ≠ .cse ∧ p ≠ .out) ∨ s.rd .SHADOW_CMD_PENDING inst p.code = 1 then
    s.wr .SHADOW_CMD_REFUSED 1 inst p.code
  else
    let x : Commit := { page := p, inst := inst, mode := mode, lc := lc }
    let s1 := s.wr .SHADOW_CMD_PENDING 1 inst p.code
    if mode = 0 then
      { capturePage p inst s1 with commits := s.commits ++ [{ x with due := some (s.osc : Rat), captured := true }] }
    else { s1 with commits := s.commits ++ [x] }

/-- CANCEL (R420, R422): no effect after the capture point. -/
def shadowCancel (p : Page) (inst : Nat) (s : State) : State :=
  let mine (x : Commit) : Bool := x.page == p && x.inst == inst
  if s.commits.any (fun x => mine x && !x.captured) then
    { s.wr .SHADOW_CMD_PENDING 0 inst p.code with commits := s.commits.filter (fun x => !mine x) }
  else s

/-- A write of SHADOW_CMD (R413, R420). CANCEL acts before GO (DESIGN CHOICE). -/
def writeShadowCmd (p : Page) (m inst v : Nat) (s : State) : State :=
  if bit v 8 = 1 ∧ bits v 1 0 = 1 ∧ ownsLc s m (bits v 7 2) = false then
    recordErr p inst errOwnerDenied m true (0x20 / 4) s
  else
    let s1 := (((s.wr .SHADOW_CMD_MODE (bits v 1 0) inst p.code).wr .SHADOW_CMD_LC (bits v 7 2) inst p.code).wrIf
      (bit v 13 == 1) .SHADOW_CMD_REFUSED 0 inst p.code).wrIf (bit v 14 == 1) .SHADOW_CMD_LATE 0 inst p.code
    let s2 := if bit v 9 = 1 then shadowCancel p inst s1 else s1
    if bit v 8 = 1 then shadowGo p inst (bits v 1 0) (bits v 7 2) s2 else s2

/-- A command that writes SHADOW_CMD of a page. -/
def shadowCmd (p : Page) (inst m v : Nat) (s : State) : Out :=
  act s (on (pageExists p inst = true) (gateBy (writerOk s p 0x20 m) p inst 0x20 m (writeShadowCmd p m inst v)))

/-- `SHADOW_GO`. -/
def execShadowGo (m : Master) (p : Page) (inst : Chan) (mode : Fin 4) (lc : Lc) (s : State) : Out :=
  shadowCmd p inst.val m.val (mode.val + 4 * lc.val + 0x100) s

/-- `SHADOW_CANCEL`: MODE and LC are written back as they read. -/
def execShadowCancel (m : Master) (p : Page) (inst : Chan) (s : State) : Out :=
  shadowCmd p inst.val m.val
    (s.rd .SHADOW_CMD_MODE inst.val p.code + 4 * s.rd .SHADOW_CMD_LC inst.val p.code + 0x200) s

/-- The capture point of a commit in MODE 1 (R422): 16 ticks before C on a quad page, 32 on TBASE. -/
def captureDue (s : State) (x : Commit) : Bool :=
  x.mode == 1 && !x.captured && lcArmed s x.lc &&
  ((s.lc x.lc).late || decide ((s.lc x.lc).c ≤ s.now + (if (commitQuad x.page x.inst).isSome then 16 else 32)))

/-- `SHADOW_CAPTURE`. -/
def execShadowCapture (p : Page) (inst : Chan) (s : State) : Out :=
  act s fun s =>
    let mine (x : Commit) : Bool := x.page == p && x.inst == inst.val && captureDue s x
    if s.commits.any mine then
      { capturePage p inst.val s with
        commits := s.commits.map (fun x => if mine x then { x with captured := true } else x) }
    else s

/-! ### Applying a commit (R421) -/

/-- A commit on an OUT page: span, binding and filter. -/
def applyOut (c : Nat) (s : State) : State :=
  let span := s.rdCap .OUT_SPANCTL_SPAN c
  let mode := s.rdCap .OUT_UPDCTL_MODE c
  let k := s.rdCap .OUT_UPDCTL_GSTB c
  let s1 := commitSpan c span (if span < 6 then s.wrEff .OUT_SPANCTL_SPAN span c else s)
  let s2 := bindUpdate c mode k ((s1.wrEff .OUT_UPDCTL_MODE mode c).wrEff .OUT_UPDCTL_GSTB k c)
  let corner := s.rdCap .OUT_FILTCTL_CORNER c
  let s3 := if corner ≤ 8 then s2.wrEff .OUT_FILTCTL_CORNER corner c else s2
  (s3.wrEff .OUT_FILTCTL_SHAPE (s.rdCap .OUT_FILTCTL_SHAPE c) c).wrEff .OUT_FILTCTL_BYPASS (s.rdCap .OUT_FILTCTL_BYPASS c) c

/-- A commit on a CSE page. -/
def applyCse (c : Nat) (s : State) : State :=
  (s.wrEff .CSE_GAIN_GAIN (s.rdCap .CSE_GAIN_GAIN c) c).wrEff .CSE_OFFSET_OFFSET (s.rdCap .CSE_OFFSET_OFFSET c) c

/-- A new rate of quad q from its next edge on (R54, R63, R93, R113). -/
def applyRate (q n ifl : Nat) (s : State) : State :=
  let x := s.clock q
  let t0 := s.edgeAt q x.next
  let fs0 := s.fs q
  let s1 := setOrigin q (countSub s t0) (restartSamples q (2 ^ ifl) s)
  let s2 := (((s1.setClock q { s1.clock q with edge0 := t0, next := 0 }).wrEff .QCLK_QCLK_N_N n q).wrEff
    .QCLK_QCLK_CFG_IF_LOG2 ifl q).wr .QCLK_QCLK_STATUS_SETTLING 1 q
  spareFollows q (raise .qclk q 2 (recomputeAlloc q (rerateWheel q (s2.fs q / fs0) s2)))

/-- A commit on a QCLK page: a value outside the range leaves the old one in effect (R52); without a change nothing happens. -/
def applyQclk (q : Nat) (s : State) : State :=
  let v := s.rdCap .QCLK_QCLK_N_N q
  let n := if rateOk v then v else s.qn q
  let ifl := s.rdCap .QCLK_QCLK_CFG_IF_LOG2 q
  if n = s.qn q ∧ ifl = s.ifLog q then s else applyRate q n ifl s

/-- A new period of strobe k from its first candidate edge at or after t (R63). -/
def applyGstbN (t : Instant) (k : Nat) (s : State) : State :=
  let v := s.rdCap .TBASE_GSTB_N_N 0 k
  let old := s.rdEff .TBASE_GSTB_N_N 0 k
  if rateOk v = false ∨ v = old then s
  else
    let g := s.gstb k
    let s1 := s.wrEff .TBASE_GSTB_N_N v 0 k
    if g.hasEdges = false then s1
    else
      let n0 := ceilNat ((t - g.edge0) * (old : Rat) / ((2 ^ 32 : Nat) : Rat))
      let t0 := g.edge0 + ((n0 * 2 ^ 32 : Nat) : Rat) / (old : Rat)
      s1.setGstb k { g with edge0 := t0, origin := countSub s t0 }

/-- The captured values of a page take effect. -/
def applyPage (x : Commit) (s : State) : State :=
  match x.page with
  | .out => applyOut x.inst s
  | .cse => applyCse x.inst s
  | .qclk => if x.inst < 12 then applyQclk x.inst s else s
  | .tbase => each (upTo 4) (applyGstbN (x.due.getD 0)) s
  | _ => s

/-- The edge, sample or tick of a commit has come (R421, R72). A quad whose clock does not run applies nothing. -/
def commitDue (s : State) (x : Commit) : Bool :=
  match x.due, commitQuad x.page x.inst with
  | some t, some q =>
    (s.clock q).running &&
      (if x.page = .cse then decide (s.firstSample q t ≤ (s.wheel q).k) else decide (s.firstEdge q t ≤ (s.clock q).next))
  | some t, none => decide (t.floor ≤ (s.osc : Int))
  | none, _ => false

/-- Two commits of clock rates that take effect at one launch time (R63). -/
def Commit.together (x y : Commit) : Bool :=
  (y.page == .qclk || y.page == .tbase) && x.mode == 1 && y.mode == 1 && x.lc == y.lc && y.due.isSome

/-- A commit of a clock rate has applied: quads that are no longer rate-matched leave their gang, once the commits that take effect at the
same launch time have all applied (R63). -/
def checkGangs (x : Commit) (s : State) : State :=
  if (x.page ≠ .qclk ∧ x.page ≠ .tbase) ∨ s.commits.any x.together then s
  else each (upTo 12) (fun q s => each (upTo 4) (checkGang q) s) s

/-- A commit applies: PENDING clears, and LATE is set if it is late. -/
def commitApply (x : Commit) (s : State) : State :=
  let s1 := (s.wr .SHADOW_CMD_PENDING 0 x.inst x.page.code).wrIf x.late .SHADOW_CMD_LATE 1 x.inst x.page.code
  checkGangs x (applyPage x { s1 with commits := s.commits.erase x })

/-- `SHADOW_COMMIT_APPLY`: on the edge, sample or tick of the page's pending commit, before that edge's own command. -/
def execShadowCommitApply (p : Page) (inst : Chan) (s : State) : Out :=
  act s fun s =>
    match s.commits.find? (fun x => x.page == p && x.inst == inst.val) with
    | some x => if commitDue s x then commitApply x s else s
    | none => s

end Sys2Proof.Machine
end

