-- ==== Sys2Proof/Machine/Views.lean ====
section
/-! DEFINITION. What a register reads (R4, R5, R7, R8, R413–R415): stored fields put together, and the registers and bits that show
other state. -/

namespace Sys2Proof.Machine

/-! ### Where an access lands -/

/-- The page instance that holds an address, if any (R28). -/
def pageAt (a : Nat) : Option (Page × Nat) :=
  Page.all.findSome? fun p =>
    if p.base0 ≤ a ∧ a < p.base0 + 0x1000 * p.count then some (p, (a - p.base0) / 0x1000) else none

/-- Element of a register array with its first register at `base`: `count` registers, `stride` bytes apart. -/
def arrayAt (off base stride count : Nat) : Option Nat :=
  if base ≤ off ∧ off < base + stride * count ∧ (off - base) % stride = 0 then some ((off - base) / stride) else none

/-- The elements of a field, as index and sub-index, that lie in the register at `off`. -/
def Reg.elements (r : Reg) (off : Nat) : List (Nat × Nat) :=
  let i := r.info
  let idx := if i.stride = 0 then 0 else (off - i.off) / i.stride
  let w := (off - i.off - idx * i.stride) / 4
  if off < i.off ∨ i.count ≤ idx then []
  else ((upTo i.perWord).map (fun n => (idx, w * i.perWord + n))).filter (fun x => decide (x.2 < i.subs))

/-- Lowest bit of element `sub` of a field in its register. -/
def Reg.lsbOf (r : Reg) (sub : Nat) : Nat := r.info.lsb + sub % r.info.perWord * r.info.step

/-- The line counters show the line that the master has selected (R245). -/
def lineCounter (r : Reg) : Bool :=
  r == .HARNESS_LCNT_FIRED_FIRED || r == .HARNESS_LCNT_MERGE_COINCIDENT || r == .HARNESS_LCNT_MERGE_SUPPRESSED ||
  r == .HARNESS_LCNT_OVR_OVERRUN

/-- The index under which an element is stored: the page type for the common layout, the master for a banked register (R166, R272,
R316, R378), the selected line for the line counters. -/
def Reg.homeIdx (s : State) (p : Page) (r : Reg) (m idx : Nat) : Nat :=
  if r.info.page.isNone then p.code
  else if r.info.banked then m
  else if lineCounter r then s.rd .HARNESS_LCNT_SEL_LINE 0 m
  else idx

/-- The fields of a page that lie in the register at `off`, each with its element. -/
def Page.fieldsAt (p : Page) (off : Nat) : List (Reg × Nat × Nat) :=
  p.fields.flatMap (fun r => (r.elements off).map (fun x => (r, x.1, x.2)))

/-- The fields of a register with an access type that `f` picks, in their places; every other bit is 0. -/
def fieldsWord (s : State) (f : Access → Bool) (p : Page) (inst off m : Nat) : Nat :=
  (p.fieldsAt off).foldl (fun n x =>
    if f x.1.info.acc then n + s.rd x.1 inst (x.1.homeIdx s p m x.2.1) x.2.2 * 2 ^ x.1.lsbOf x.2.2 else n) 0

/-- The stored value of a register: WO fields read 0 (R8), reserved bits read 0 (R6). -/
def storedWord (s : State) (p : Page) (inst off m : Nat) : Nat := fieldsWord s (· != .wo) p inst off m

/-! ### Views -/

/-- A bitmap of n bits. -/
def maskBits (n : Nat) (f : Nat → Bool) : Nat := (upTo n).foldl (fun v i => if f i then v + 2 ^ i else v) 0

/-- One bit at a position. -/
def flagAt (n : Nat) (b : Bool) : Nat := if b then 2 ^ n else 0

/-- Half of a 64-bit quantity: the lower register at `base`, the upper at base + 4 (R5). -/
def halfAt (off base v : Nat) : Option Nat :=
  if off = base then some (v % 2 ^ 32) else if off = base + 4 then some (v / 2 ^ 32 % 2 ^ 32) else none

/-- The PLAYER_STAT bits of a player. -/
def playerStat (p : Player) : Nat := p.bank + flagAt 2 p.active + flagAt 3 p.muted

/-- Position of a player on the latest synthesis sample, in 2^-32 samples. -/
def latestPos (s : State) (q : Nat) (p : Player) : Nat :=
  let w := s.wheel q
  if p.angle ∨ p.active = false ∨ w.k = 0 then p.position w.lastTheta else p.pos - p.stepAt (s.fs q)

/-- Synthesis samples from the latest one to the next due sample. -/
def curRemain (s : State) (c : Nat) : Nat :=
  let e := s.cse c
  if s.rd .CSE_STATUS_OPEN c = 1 then openCount
  else if e.vacant then 0
  else min (2 ^ 32 - 1) (e.due + (e.cur.count : Int) - (((s.wheel (quadOf c)).k : Int) - 1)).toNat

/-- Steps of a speed ramp still to come (R90). -/
def rampRemain (w : Wheel) : Nat := match w.ramp with | some r => r.k - r.j | none => 0

/-- Registers of a CSE page that show its sources and the Phase Wheel. -/
def cseView (s : State) (c off : Nat) : Option Nat :=
  let src := (s.cse c).src
  let q := quadOf c
  let w := s.wheel q
  let slot (i : Nat) : Slot := Store.get {} src.slots i
  if off = 0x6C then some (curRemain s c)
  else if off = 0x7C then some (maskBits 32 (fun i => (slot i).on))
  else if off = 0x80 then some (maskBits 32 (fun i => (slot i).muted))
  else if off = 0x84 then some (playerStat src.p0 + playerStat src.p1 * 2 ^ 8)
  else if off = 0x98 then some (unsigned 24 (src.mods.getD 0x24 0))
  else if off = 0xC0 then some (rampRemain w % 2 ^ 32)
  else (halfAt off 0x88 (latestPos s q src.p0)).or ((halfAt off 0x90 (latestPos s q src.p1)).or ((halfAt off 0xA0 w.lastTheta).or
    ((halfAt off 0xA8 (s.speedOf q w.lastD)).or ((halfAt off 0xB0 w.lastD).or ((halfAt off 0xB8 w.target).or
    (halfAt off 0xC8 (w.k - 1)))))))

/-- A packet staged for gang k by the Stitcher of its quad (R148). -/
def stagedFor (k : Nat) (p : Packet) : Bool :=
  p.stitch && (match p.hold with | .gang j none => j == k | _ => false)

/-- Stitcher q has packets staged for gang k. -/
def hasStaged (s : State) (q k : Nat) : Bool :=
  (rangeFrom (16 * q) 16).any (fun i => ((s.queue i).head.toList ++ (s.queue i).cells).any (stagedFor k))

/-- The opcode at the Stitcher's PC: of the word fetched, or as the program stands in the benches. -/
def pcOpcode (s : State) (q : Nat) : Nat :=
  match (s.stitcher q).ir with
  | some w => opcode w
  | none => (s.byteAs (8 + q) (benchBase + s.rd .STITCH_PROG_BASE_BASE q / 8 * 8 + 8 * (s.stitcher q).pc + 7)).toNat

/-- Registers of a STITCH page that show its run. -/
def stitchView (s : State) (q off : Nat) : Option Nat :=
  let st := s.stitcher q
  if off = 0x50 then some (st.pc % 2 ^ 14 + pcOpcode s q * 2 ^ 24)
  else if off = 0x58 then some (st.loops.length % 16 + st.calls.length % 16 * 2 ^ 4)
  else if off = 0x74 then
    some (maskBits 16 (fun e => (armedJump s q e).isSome) +
      maskBits 4 (fun i => (s.cse (4 * q + i)).alt.isSome) * 2 ^ 16)
  else match arrayAt off 0xA0 4 8 with
    | some i => some (((st.loops.reverse.getD i (0, 0)).1) % 2 ^ 32)
    | none => none

/-- Bytes that a partition holds ahead of body byte b (R181, R183). -/
def heldAhead (part : RingPart) (size b : Nat) : Nat :=
  if part.len = 0 then 0
  else if part.circular ∧ partWhole part size then part.len
  else
    let t0 := (b + part.len - part.start % part.len) % part.len
    let t := if part.circular then t0 + part.len * ((part.wr - 1 - t0) / part.len) else t0
    part.wr - t

/-- FILL of a player: data ahead of its read position in 256-byte units, saturating. -/
def ringFill (s : State) (c : Nat) (p : Player) (part : RingPart) (size : Nat) : Nat :=
  min 255 (heldAhead part size (p.seg.width * (latestPos s (quadOf c) p / 2 ^ 32) / 8 % max 1 part.len) / 256)

/-- RING_STAT of a channel; a disabled ring holds nothing (R179). -/
def ringStat (s : State) (c : Nat) : Nat :=
  let r := s.ring c
  let z (p : Nat) : Nat := partSize s c p
  let res (x : RingPart) (n : Nat) : Bool := resident x n && x.start == 0
  flagAt 0 (res r.cur0 (z 0)) + flagAt 1 (res r.cur1 (z 1)) + flagAt 2 (r.cur0.spilled || r.cur1.spilled) +
    ringFill s c (s.cse c).src.p0 r.cur0 (z 0) * 2 ^ 8 + ringFill s c (s.cse c).src.p1 r.cur1 (z 1) * 2 ^ 16

/-- Cells of complete and open packets of a queue. -/
def queueCells (s : State) (i : Nat) : Nat := cellsOf (s.queue i).cells true + cellsOf (s.queue i).cells false + openCells s i

/-- Complete packets of a queue, the head slot included. -/
def queuePackets (s : State) (i : Nat) : Nat := (s.queue i).head.toList.length + (s.queue i).cells.length

/-- Registers of the TACK page that show the pool and the rings. -/
def tackView (s : State) (off : Nat) : Option Nat :=
  if off = 0x40 then some (poolFree s % 2 ^ 16)
  else if off = 0x44 then some (creditSum s % 2 ^ 16)
  else match arrayAt off 0x800 4 192, arrayAt off 0xB08 16 48 with
    | some i, _ => some (available s i true + available s i false * 2 ^ 16)
    | none, some c => some (ringStat s c)
    | none, none => none

/-- Registers of the HARNESS page that show all lines (R254, R260), and a secure line hidden from the master (R255). -/
def harnessView (s : State) (m off : Nat) : Option Nat :=
  let hidden (l : Nat) : Option Nat := if lineHidden s l m then some 0 else none
  if off = 0x4C ∨ off = 0x50 ∨ off = 0x54 then hidden (s.rd .HARNESS_LCNT_SEL_LINE 0 m)
  else if off = 8 then
    let seen (r : Reg) : Bool := (upTo 128).any (fun l => s.rd r 0 l == 1 && !lineHidden s l m)
    some (flagAt 0 (s.rd .HARNESS_STATUS_LOOP_PRESENT == 1 && seen .HARNESS_LINE_STAT_LOOP) + flagAt 1 (seen .HARNESS_LINE_STAT_STORM))
  else match arrayAt off 0x60 4 4, arrayAt off 0x70 4 4, arrayAt off 0x400 4 128, arrayAt off 0x600 4 128, arrayAt off 0x800 4 512 with
    | some w, _, _, _, _ => some (maskBits 32 (fun i => s.rd .HARNESS_LINE_CFG_CLAIMED 0 (32 * w + i) == 0))
    | _, some w, _, _, _ =>
      some (maskBits 32 (fun i => s.rd .HARNESS_LINE_STAT_STORM 0 (32 * w + i) == 1 && !lineHidden s (32 * w + i) m))
    | _, _, some l, _, _ => hidden l
    | _, _, _, some l, _ => hidden l
    | _, _, _, _, some x => hidden (x / 4)
    | _, _, _, _, _ => none

/-- Hours since the last VERIFY pass of core k of tier t. -/
def calAge (s : State) (t k : Nat) : Nat :=
  let v := Store.get 0 (s.tier t).verified k
  if v = 0 then 2 ^ 32 - 1 else (s.osc - (v - 1)) / (3600 * Config.ticksPerSecond)

/-- POWER STATUS: QUIET, BLOCK and TARGET as they stand now; the stored TARGET during an entry and below D0 (R399, R400). -/
def powerStatus (s : State) : Nat :=
  let live := dstate s = 0 ∧ s.rd .POWER_STATUS_ENTERING = 0
  dstate s + (if live then targetState s else s.rd .POWER_STATUS_TARGET) * 2 ^ 3 + flagAt 6 (quietBlock s == 0) +
    s.rd .POWER_STATUS_ENTERING * 2 ^ 7 + s.rd .POWER_STATUS_EXITING * 2 ^ 8 + s.rd .POWER_STATUS_THERM_WARN * 2 ^ 9 +
    s.rd .POWER_STATUS_THERMAL_LIMIT * 2 ^ 10 + s.rd .POWER_STATUS_THERM_CRIT * 2 ^ 11 + quietBlock s * 2 ^ 12

/-- Registers that show other state than their stored fields. -/
def viewWord (s : State) (p : Page) (inst off m : Nat) : Option Nat :=
  if off = 0 then some (p.code + inst * 2 ^ 8 + 2 ^ 16)
  else match p with
    | .tbase =>
      (halfAt off 0x48 s.now).or (halfAt off 0x70 (maskBits 64 (fun i => s.rd .TBASE_LC_CTRL_CLAIMED 0 i == 0)))
    | .cse => cseView s inst off
    | .stitch => stitchView s inst off
    | .tack => tackView s off
    | .out => if off = 0x78 then some (codeNow s inst) else if off = 0x80 then some (s.out inst).sq.length else none
    | .harness => harnessView s m off
    | .pat =>
      if off = 0x40 then some (maskBits 32 (pinLevel s))
      else if off = 0x44 then some (maskBits 32 (fun i => s.rd .PAT_PIN_CFG_CLAIMED 0 i == 0)) else none
    | .i3c =>
      if off = 0x44 then some (s.rd .I3C_ADDR_STAT_DA inst + staticAddr s * 2 ^ 8)
      else if off = 0x48 then some (pid s inst % 2 ^ 32)
      else if off = 0x4C then some (pid s inst / 2 ^ 32 + 0x27 * 2 ^ 16)
      else match arrayAt off 0x80 4 6 with
        | some w => some (maskBits 32 (fun i => (summary s inst).contains (32 * w + i)))
        | none => none
    | .sec =>
      match arrayAt off 0x60 4 4 with
      | some j => some (leValue ((uidBytes.drop (4 * j)).take 4))
      | none => none
    | .sys =>
      if off = 0x08 then some (s.rd .SYS_STATUS_READY + flagAt 1 (spareSum s / 2 ^ 16 != 0))
      else if off = 0x48 then some (s.osc / Config.ticksPerSecond % 2 ^ 32)
      else if off = 0x4C then some (spareSum s) else none
    | .power =>
      if off = 0x08 then some (powerStatus s)
      else match arrayAt off 0xA0 4 12 with
        | some q => if hasDemand s q then none else some (2 ^ 32 - 1)
        | none => none
    | .spare =>
      match arrayAt off 0x154 0x60 13 with
      | some k => some (calAge s inst k)
      | none => none
    | .qphy => if off = 0x5C then some (dlyAt s (dlySelected s)) else none
    | _ => none

/-- Bits that stand beside the stored fields of a register. -/
def viewBits (s : State) (p : Page) (inst off : Nat) : Nat :=
  match p with
  | .cse =>
    if off = 8 then flagAt 4 (s.wheel (quadOf inst)).ramp.isSome +
      flagAt 5 (s.cse inst).alt.isSome else 0
  | .out =>
    if off = 8 then flagAt 1 (standbyHealthy s inst && decide (3 ≤ s.pwr.step)) + flagAt 4 (rank s inst == 3) +
      flagAt 5 (rank s inst == 2) else 0
  | .stitch => if off = 0x80 then maskBits 4 (hasStaged s inst) * 2 ^ 4 else 0
  | .tack =>
    match arrayAt off 0x500 4 192 with
    | some i => queueCells s i % 2 ^ 16 + queuePackets s i % 2 ^ 12 * 2 ^ 16
    | none => 0
  | _ => 0

/-- What a register reads as master m sees it, checks passed. -/
def wordAt (s : State) (p : Page) (inst off m : Nat) : Nat :=
  match viewWord s p inst off m with
  | some v => v
  | none => storedWord s p inst off m + viewBits s p inst off

/-! ### 64-bit pairs (R5) -/

/-- Lower registers of the 64-bit quantities of a page. -/
def pairLow (p : Page) (off : Nat) : Bool :=
  match p with
  | .tbase => off == 0x48 || off == 0x50 || off == 0x70 || off == 0x78 || (arrayAt off 0x400 16 64).isSome
  | .qclk => off == 0x4C || off == 0x58
  | .cse => off == 0x88 || off == 0x90 || off == 0xA0 || off == 0xA8 || off == 0xB0 || off == 0xB8 || off == 0xC8
  | .stitch => off == 0x60
  | .harness => (arrayAt off 0x108 16 16).isSome
  | _ => false

/-! ### Reads -/

/-- The fields of a register that a read clears (R8), but for the counters of a line that is hidden from the reader (R255); PACE.MIN and
THERM_STAT.PEAK restart with their next sample (R404, R405). -/
def clearOnRead (p : Page) (inst off m : Nat) (s : State) : State :=
  if p = .harness ∧ lineHidden s (s.rd .HARNESS_LCNT_SEL_LINE 0 m) m = true ∧ (off = 0x4C ∨ off = 0x50 ∨ off = 0x54) then s
  else each (p.fieldsAt off) (fun x s =>
    if x.1.info.acc = .rc then
      let t := s.wr x.1 0 inst (x.1.homeIdx s p m x.2.1) x.2.2
      if x.1 = .POWER_PACE_MIN then restart x.2.1 t else if x.1 = .POWER_THERM_STAT_PEAK then restart 12 t else t
    else s) s

/-- A read of one register that passes the checks: its value, and the state after the read's effects. -/
def readWord (p : Page) (inst off m : Nat) (s : State) : Nat × State :=
  let a := p.base inst + off
  match p, arrayAt off 0x104 16 16 with
  | .harness, some u => readCapuInfo m u s
  | _, _ =>
    if pairLow p off then
      (wordAt s p inst off m, { s with held := Store.set none s.held m (some (a + 4, wordAt s p inst (off + 4) m)) })
    else
      match pairLow p (off - 4), Store.get none s.held m with
      | true, some (b, v) => if b = a then (v, { s with held := Store.set none s.held m none }) else (wordAt s p inst off m, s)
      | _, _ => (wordAt s p inst off m, clearOnRead p inst off m s)

/-- The registers of a page whose fields are all WO: they store nothing (R8). -/
def writeOnly (p : Page) (off : Nat) : Bool :=
  match p with
  | .tbase => off == 0x58
  | .stitch => off == 0x8C
  | .tack => off == 0x50 || (0x80 ≤ off && off < 0x100)
  | .out => off == 0x64
  | .burnish => off == 0x58
  | .spare => off == 0x50 || off == 0x54
  | .harness => off == 0x44
  | .quarry => off == 0x70
  | .i3c => off == 0x64
  | .sec => off == 0x4C
  | _ => false

/-- A page defines a register at the offset (R7). -/
def assigned (s : State) (p : Page) (inst off m : Nat) : Bool :=
  off < 0x24 || !(p.fieldsAt off).isEmpty || (viewWord s p inst off m).isSome || writeOnly p off

/-- A read of the register that holds address a by master m (R7, R23, R24). -/
def readReg (m a : Nat) (s : State) : Nat × State :=
  match pageAt a with
  | none => (0, s)
  | some (p, inst) =>
    let off := a % 0x1000 / 4 * 4
    if assigned s p inst off m = false then (0, s)
    else if accessOk s p inst m false then
      let r := readWord p inst off m s
      (r.1 % 2 ^ 32, r.2)
    else (0, recordErr p inst errOwnerDenied m false (off / 4) s)

end Sys2Proof.Machine
end

