-- ==== Sys2Proof/Machine/HostAccess.lean ====
section
/-! DEFINITION. Register writes of a master over the whole register range (R7, R8, R23–R25, R413–R417), register frames and private
reads of a control port (R335–R340), and accesses of any master (R21–R27). -/

namespace Sys2Proof.Machine

/-! ### The common layout (R413–R417) -/

/-- A write of EVT_RAW or EVT_PEND: 1 clears the bit in both (R416). -/
def clearEvents (p : Page) (inst v : Nat) (s : State) : State :=
  each (upTo 32) (fun b s => on (bit v b = 1)
    (fun s => (s.wr .EVT_RAW_RAW 0 inst p.code b).wr .EVT_PEND_PEND 0 inst p.code b) s) s

/-- Bit b of EVT_EN is set: with EVT_RAW set, EVT_PEND rises, and its selectors present (R248, R416). -/
def enableEvent (p : Page) (inst b : Nat) (s : State) : State :=
  let s1 := s.wr .EVT_EN_EN 1 inst p.code b
  if s.rd .EVT_RAW_RAW inst p.code b = 1 ∧ s.rd .EVT_PEND_PEND inst p.code b = 0 then
    { s1.wr .EVT_PEND_PEND 1 inst p.code b with presented := s.presented ++ selPresent s p inst b inst false true }
  else s1

/-- A write of EVT_EN (R416); clearing a bit clears nothing else. -/
def writeEvtEn (p : Page) (inst v : Nat) (s : State) : State :=
  each (upTo 32) (fun b s =>
    if bit v b = 1 then (if s.rd .EVT_EN_EN inst p.code b = 1 then s else enableEvent p inst b s)
    else s.wr .EVT_EN_EN 0 inst p.code b) s

/-- A write of OWNER (R417). -/
def writeOwner (p : Page) (inst m v : Nat) (s : State) : State :=
  if bit v 6 ≠ s.rd .OWNER_SEC inst p.code ∧ secureMaster s m = false then
    recordErr p inst errOwnerDenied m true (0x18 / 4) s
  else
    let s1 := s.wr .OWNER_SEC (bit v 6) inst p.code
    if bit v 5 = 1 then
      (if s.rd .OWNER_LOCK inst p.code = 1 then s1 else (s1.wr .OWNER_LOCK 1 inst p.code).wr .OWNER_MASTER m inst p.code)
    else (s1.wr .OWNER_LOCK 0 inst p.code).wr .OWNER_MASTER 0 inst p.code

/-- The soft reset of a block, where one is defined (R415, R423). -/
def softReset (p : Page) (inst m : Nat) (s : State) : State :=
  match p with
  | .sys => if m ≤ 2 then warmReset .SYS_RESET_CAUSE_SOFT s else recordErr .sys 0 errOwnerDenied m true 1 s
  | .tack => tackReset (dropCommits .tack inst s)
  | .stitch => resetStitcher inst s
  | .out => resetOut inst (dropCommits .out inst s)
  | .cse => resetCse inst (dropCommits .cse inst s)
  | _ => s

/-- ENABLE where a page has it (R415, R423). -/
def writeEnable (p : Page) (inst : Nat) (en : Bool) (s : State) : State :=
  match p with
  | .burnish => writeBurnishEnable en s
  | .stitch => writeStitchEnable inst en s
  | .out => writeOutEnable inst en s
  | .cse => writeCseEnable inst en s
  | .qclk => if inst = 12 then s else if en then qclkStart inst s else qclkStop inst s
  | _ => s

/-- PWR_REQ of a CSE or STITCH page (R415). -/
def writePwrReq (p : Page) (inst : Nat) (req : Bool) (s : State) : State :=
  match p with
  | .cse => writeCsePower inst req s
  | .stitch => writeStitchPower inst req s
  | _ => s

/-- A write of CTRL (R415): the soft reset first, then ENABLE, then PWR_REQ. -/
def writeCtrl (p : Page) (inst m v : Nat) (s : State) : State :=
  let s1 := if bit v 1 = 1 then softReset p inst m s else s
  if p = .sys then s1 else writePwrReq p inst (bit v 2 == 1) (writeEnable p inst (bit v 0 == 1) s1)

/-! ### Registers without special effects (R8) -/

/-- The new value of a field from the bits written to it. -/
def fieldWrite (acc : Access) (old v : Nat) : Nat :=
  match acc with
  | .rw | .rws | .sh => v
  | .w1c => old - (old &&& v)
  | .w1s => old ||| v
  | _ => old

/-- A write to a register whose fields act by their access types alone. -/
def plainWrite (p : Page) (inst off m v : Nat) (s : State) : State :=
  each (p.fieldsAt off) (fun x s =>
    let r := x.1
    let i := r.homeIdx s p m x.2.1
    let b := v / 2 ^ r.lsbOf x.2.2 % 2 ^ r.width
    s.wr r (fieldWrite r.info.acc (s.rd r inst i x.2.2) b) inst i x.2.2) s

/-! ### Block registers with effects of their own -/

/-- TB_CFG (R34, R37, R38, R40, R64). -/
def writeTbCfg (m v : Nat) (s : State) : State :=
  let s1 := ((s.wr .TBASE_TB_CFG_EPOCH_SRC (bits v 3 2)).wr .TBASE_TB_CFG_STEP_ALLOW (bit v 4)).wr .TBASE_TB_CFG_HOLD_RESYNC (bit v 6)
  checkArmedSource m (writeTallyEn (bit v 5) (writeRefMode m (bits v 1 0) s1))

/-- TB_EPOCH_CMD (R38, R40): CANCEL acts before ARM. -/
def writeEpochCmd (m v : Nat) (s : State) : State :=
  let s1 := if bit v 1 = 1 then s.wr .TBASE_TB_STATUS_EPOCH_ARMED 0 else s
  if bit v 0 = 1 then epochArm m s1 else s1

/-- Registers of the TBASE page with effects of their own. -/
def writeTbase (m off v : Nat) (s : State) : Option State :=
  if off = 0x40 then some (writeTbCfg m v s)
  else if off = 0x58 then some (writeEpochCmd m v s)
  else match arrayAt off 0xC0 16 4, arrayAt off 0x400 16 64, arrayAt off 0x404 16 64, arrayAt off 0x408 16 64, arrayAt off 0x40C 16 64 with
    | some k, _, _, _, _ => some (writeGstbCfg m k v s)
    | _, some i, _, _, _ => some (writeLcTime m i off .TBASE_LC_TIME_LO_C_LO v s)
    | _, _, some i, _, _ => some (writeLcTime m i off .TBASE_LC_TIME_HI_C_HI v s)
    | _, _, _, some i, _ => some (writeLcCtrl m i v s)
    | _, _, _, _, some i => some (writeLcTime m i off .TBASE_LC_PERIOD_PERIOD v s)
    | _, _, _, _, _ => none

/-- QCLK_CFG (R50, R52, R53, R59): IF_LOG2 above 4 is ignored. -/
def writeQclkCfg (m q v : Nat) (s : State) : State :=
  if bit v 14 = 1 ∧ ownsLc s m (bits v 13 8) = false then recordErr .qclk q errOwnerDenied m true (0x44 / 4) s
  else
    let s1 := if bits v 2 0 ≤ 4 then s.wr .QCLK_QCLK_CFG_IF_LOG2 (bits v 2 0) q else s
    let s2 := (s1.wr .QCLK_QCLK_CFG_ALIGN_LC (bits v 13 8) q).wr .QCLK_QCLK_CFG_ALIGN_ARM (bit v 14) q
    if q = 12 ∨ bit v 16 = s.rd .QCLK_QCLK_CFG_USE_SPARE q then s2
    else if bit v 16 = 1 then useSpareSet q s2 else useSpareClear q s2

/-- Registers of a QCLK page with effects of their own; COVER exists on the spare page only (R59). -/
def writeQclk (m q off v : Nat) (s : State) : Option State :=
  if off = 0x44 then some (writeQclkCfg m q v s)
  else if off = 0x64 then some (if q = 12 then writeCover m v s else s)
  else none

/-- Registers of a STITCH page with effects of their own. -/
def writeStitch (m q off v : Nat) (s : State) : Option State :=
  if off = 0x60 then some (writeLcGrant m q 0 v s)
  else if off = 0x64 then some (writeLcGrant m q 1 v s)
  else if off = 0x6C then some (clearLatches q v s)
  else if off = 0x8C then some (writeMcCtrl m q v s)
  else none

/-- PUSH_SEL (R166, R168). -/
def writePushSel (m v : Nat) (s : State) : State :=
  let s1 := s.wr .TACK_PUSH_SEL_CH (bits v 5 0) 0 m
  if bit v 8 = 1 then pushAbort m s1 else s1

/-- Registers of the TACK page with effects of their own. -/
def writeTack (m off v : Nat) (s : State) : Option State :=
  if off = 0x48 then some (pushMaster m off (writePushSel m v) s)
  else if off = 0x50 then some (writeQCmd v s)
  else if 0x80 ≤ off ∧ off < 0x100 then some (pushMaster m off (pushWord m v) s)
  else match arrayAt off 0x200 4 192, arrayAt off 0xB00 16 48, arrayAt off 0xB04 16 48 with
    | some i, _, _ => some (writeQcfg m i v s)
    | _, some c, _ => if s.rd .TACK_RING_CFG_EN 0 c = 1 then some s else none
    | _, _, some c => some (writeRingCfg m c v s)
    | _, _, _ => none

/-- FAULT_CTL (R208). -/
def writeFaultCtl (c v : Nat) (s : State) : State :=
  let s1 := s.wr .OUT_FAULT_CTL_WD_EN (bit v 2) c
  let s2 := if bit v 0 = s.rd .OUT_FAULT_CTL_FORCE c then s1 else writeForce c (bit v 0 == 1) s1
  if bit v 1 = 1 then clearFaults c s2 else s2

/-- Registers of an OUT page with effects of their own. -/
def writeOut (m c off v : Nat) (s : State) : Option State :=
  if off = 0x4C then some (writeStageCtl c v s)
  else if off = 0x54 then some (writeProtCfg c v s)
  else if off = 0x58 ∨ off = 0x5C ∨ off = 0x60 then some (writeNvValue m c off v s)
  else if off = 0x64 then some (writeNvmCmd m c v s)
  else if off = 0x6C then some (writeFaultCtl c v s)
  else none

/-- Registers of the HARNESS page with effects of their own. -/
def writeHarness (m off v : Nat) (s : State) : Option State :=
  if off = 0x40 then some (writeSvcCtl v s)
  else if off = 0x44 then some (hostTrig m v s)
  else match arrayAt off 0x100 16 16, arrayAt off 0x400 4 128, arrayAt off 0x600 4 128, arrayAt off 0x800 4 512 with
    | some u, _, _, _ => some (writeCapuCfg m u v s)
    | _, some l, _, _ => some (writeLineCfg m l v s)
    | _, _, some l, _ => some (writeLineStat m l v s)
    | _, _, _, some x => some (writeLineSrc m (x / 4) (x % 4) v s)
    | _, _, _, _ => none

/-- Registers of the PAT page with effects of their own. -/
def writePat (m off v : Nat) (s : State) : Option State :=
  match arrayAt off 0x100 4 32, arrayAt off 0x180 4 32 with
  | some i, _ => some (writePinCfg m i v s)
  | _, some i => some (writePinPulse m i v s)
  | _, _ => none

/-- Registers of the BURNISH page with effects of their own. -/
def writeBurnish (m off v : Nat) (s : State) : Option State :=
  if off = 0x58 then some (if bit v 0 = 1 then saveNow s else s)
  else match arrayAt off 0x80 0x20 4 with
    | some t => some (writeCapCtrl m t v s)
    | none => none

/-- Registers of a SPARE page with effects of their own (R233, R223). -/
def writeSpare (m t off v : Nat) (s : State) : Option State :=
  if off = 0x50 then some (if bit v 8 = 1 then hostFailover m t (bits v 3 0) (bit v 9 == 1) s else s)
  else if off = 0x54 then some (if bit v 8 = 1 then visitRequest m t (bits v 3 0) s else s)
  else none

/-- Registers of the QUARRY page with effects of their own. -/
def writeQuarry (m off v : Nat) (s : State) : Option State :=
  if off = 0x44 then some (writeOpctl m v s)
  else if off = 0x58 then some (writeMigCtl m v s)
  else if off = 0x70 then some (writeReshape m v s)
  else none

/-- Registers of the QPHY page with effects of their own. -/
def writeQphy (m off v : Nat) (s : State) : Option State :=
  if off = 0x44 then some (writeTrnCtl m v s)
  else if off = 0x5C then some (writeDly v s)
  else if off = 0x60 then some (writeTset v s)
  else none

/-- The region register of a fixed-reach master: it reads 0 and ignores writes (R313). -/
def fixedRegion (off : Nat) : Bool :=
  match arrayAt off 0x800 4 512 with
  | some x => fixedReach (x / 16)
  | none => false

/-- Registers of the BENCH page with effects of their own. -/
def writeBench (m off v : Nat) (s : State) : Option State :=
  if off = 0x40 then some (writeBpwr m v s)
  else if off = 0x70 then some (writeBistCtl m v s)
  else if fixedRegion off then some s
  else none

/-- Registers of an I3C page with effects of their own. -/
def writeI3c (m j off v : Nat) (s : State) : Option State :=
  if off = 0x40 then some (writeLinkCfg j v s)
  else if off = 0x64 then some (writeLinkCtl m j v s)
  else none

/-- Registers of a page with effects of their own, and a write of them; none for a register that acts by its access types alone. -/
def specialWrite (p : Page) (inst off m v : Nat) (s : State) : Option State :=
  match p with
  | .tbase => writeTbase m off v s
  | .qclk => writeQclk m inst off v s
  | .cse => if off = 0x44 then some (writeAlloc inst v s) else none
  | .stitch => writeStitch m inst off v s
  | .tack => writeTack m off v s
  | .out => writeOut m inst off v s
  | .harness => writeHarness m off v s
  | .pat => writePat m off v s
  | .burnish => writeBurnish m off v s
  | .spare => writeSpare m inst off v s
  | .quarry => writeQuarry m off v s
  | .qphy => writeQphy m off v s
  | .bench => writeBench m off v s
  | .i3c => writeI3c m inst off v s
  | .xspi => if off = 0x48 then some (writeRawCmd v s) else if off = 0x68 then some (writeLdCtl v s) else none
  | .sec => if off = 0x80 then some (writeMbCmd m v s) else if off = 0x4C then some (writeWdtKick v s) else none
  | .power => if off = 0x80 then some (writeThermCfg v s) else none
  | .sys => none

/-! ### One register write -/

/-- A write of one register, locks and security passed. -/
def writeWordAt (p : Page) (inst off m v : Nat) (s : State) : State :=
  if writerOk s p off m = false then recordErr p inst errOwnerDenied m true (off / 4) s
  else if off = 4 then writeCtrl p inst m v s
  else if off = 0x0C ∨ off = 0x14 then clearEvents p inst v s
  else if off = 0x10 then writeEvtEn p inst v s
  else if off = 0x18 then writeOwner p inst m v s
  else if off = 0x20 then writeShadowCmd p m inst v s
  else if off < 0x40 then s
  else (specialWrite p inst off m v s).getD (plainWrite p inst off m v s)

/-- A write of the register that holds address a by master m: nothing happens at an unassigned offset (R7), and a check that fails
records OWNER_DENIED (R23, R24). -/
def writeReg (m a v : Nat) (s : State) : State :=
  match pageAt a with
  | none => s
  | some (p, inst) =>
    let off := a % 0x1000 / 4 * 4
    if assigned s p inst off m then gate p inst off m true (writeWordAt p inst off m v) s else s

/-- Address of a register offset in the register range. -/
def regAddr (a : BitVec 24) : Nat := 0x0020000000 + a.toNat / 4 * 4

/-- `REGISTER_WRITE`: a write of the register at offset `a` of the register range. -/
def execRegisterWrite (m : Master) (a : BitVec 24) (v : Word) (s : State) : Out := act s (writeReg m.val (regAddr a) v.toNat)

/-- A register read by master m: the answer is the register's four bytes. -/
def answerReg (m a : Nat) (s : State) : State :=
  let r := readReg m a s
  { r.2 with readData := leBytes 4 r.1 }

/-- `READ_CLEAR`: a read of the register at offset `a`; its RC fields clear in the same read. -/
def execReadClear (m : Master) (a : BitVec 24) (s : State) : Out := act s (answerReg m.val (regAddr a))

/-- The register at an address is the lower one of a 64-bit pair. -/
def isPairLow (a : Nat) : Bool :=
  match pageAt a with
  | some (p, _) => pairLow p (a % 0x1000)
  | none => false

/-- `READ_64_LOW`: a read of the lower register of a 64-bit pair; the upper half is held for the master. -/
def execRead64Low (m : Master) (a : BitVec 24) (s : State) : Out :=
  act s (on (isPairLow (regAddr a) = true) (answerReg m.val (regAddr a)))

/-- `READ_64_HIGH`: a read of the upper register of a 64-bit pair; the held half if the lower register was read before it. -/
def execRead64High (m : Master) (a : BitVec 24) (s : State) : Out :=
  act s (on (isPairLow (regAddr a - 4) = true) (answerReg m.val (regAddr a)))

/-! ### Accesses of any master (R21–R27) -/

/-- The words of a byte list, the last one filled up with zeros. -/
def wordsOf : Nat → List Byte → List Nat
  | 0, _ => []
  | n + 1, bs => if bs.isEmpty then [] else leValue (bs.take 4) :: wordsOf n (bs.drop 4)

/-- n registers read from a on, as bytes. -/
def readRegs (m : Nat) : Nat → Nat → State → List Byte × State
  | 0, _, s => ([], s)
  | n + 1, a, s =>
    let r := readReg m a s
    let t := readRegs m n (a + 4) r.2
    (leBytes 4 r.1 ++ t.1, t.2)

/-- The word written by bytes that begin at byte lane `lo` of a register: the lanes left out have the bits of `old`. -/
def laneWord (old lo : Nat) (bs : List Byte) : Nat :=
  leValue ((leBytes 4 old).take lo ++ bs ++ (leBytes 4 old).drop (lo + bs.length))

/-- A write of some bytes of the register that holds address a (R4). DESIGN CHOICE (log 24): the bytes left out keep what their RW,
RWS and SH fields hold, and are 0 for every other field. -/
def writeLanes (m a : Nat) (bs : List Byte) (s : State) : State :=
  let old := match pageAt a with
    | some (p, inst) => fieldsWord s (fun x => x == .rw || x == .rws || x == .sh) p inst (a % 0x1000 / 4 * 4) m
    | none => 0
  writeReg m a (laneWord old (a % 4) bs) s

/-- A write of a byte list in the register range, register by register in ascending order. -/
def writeRegBytes (m : Nat) : Nat → Nat → List Byte → State → State
  | 0, _, _, s => s
  | fuel + 1, a, bs, s =>
    if bs.isEmpty then s
    else writeRegBytes m fuel (a / 4 * 4 + 4) (bs.drop (4 - a % 4)) (writeLanes m a (bs.take (4 - a % 4)) s)

/-- The register range holds all of [a, a+n). -/
def allRegisters (a n : Nat) : Bool := 0x0020000000 ≤ a && a + n ≤ 0x0021000000

/-- A write access of master m: registers byte lane by byte lane, or memory. -/
def accessWrite (m a : Nat) (bs : List Byte) (s : State) : State :=
  if allRegisters a bs.length then writeRegBytes m bs.length a bs s
  else busOrWait { master := m, addr := a, len := bs.length, data := some bs, at_ := s.osc } s

/-- A read access of master m: registers byte lane by byte lane, or memory. -/
def accessRead (m a n : Nat) (s : State) : State :=
  if allRegisters a n then
    let r := readRegs m (if n = 0 then 0 else (a % 4 + n + 3) / 4) (a / 4 * 4) s
    drawPool m { r.2 with readData := (r.1.drop (a % 4)).take n }
  else busOrWait { master := m, addr := a, len := n, data := none, at_ := s.osc } s

/-- `MASTER_ACCESS`: a write of the bytes given, or a read of `n` bytes. -/
def execMasterAccess (m : Master) (a : Addr) (data : Option (List Byte)) (n : BitVec 12) (s : State) : Out :=
  act s fun s => match data with
    | some bs => accessWrite m.val a.toNat bs s
    | none => accessRead m.val a.toNat n.toNat s

/-! ### Rows of the common layout -/

/-- The address of a register of a page instance that exists, by its offset. -/
def onPage (p : Page) (inst : Nat) (f : State → State) (s : State) : State := on (pageExists p inst = true) f s

/-- `EVT_EN_WRITE`. -/
def execEvtEnWrite (m : Master) (p : Page) (inst : Chan) (v : Word) (s : State) : Out :=
  act s (onPage p inst.val (gate p inst.val 0x10 m.val true (writeWordAt p inst.val 0x10 m.val v.toNat)))

/-- `EVT_CLEAR`: a write of EVT_RAW, or of EVT_PEND. -/
def execEvtClear (m : Master) (p : Page) (inst : Chan) (pend : Bool) (v : Word) (s : State) : Out :=
  let off := if pend then 0x14 else 0x0C
  act s (onPage p inst.val (gate p inst.val off m.val true (writeWordAt p inst.val off m.val v.toNat)))

/-- `OWNER_WRITE`. -/
def execOwnerWrite (m : Master) (p : Page) (inst : Chan) (lock sec : Bool) (s : State) : Out :=
  act s (onPage p inst.val (gate p inst.val 0x18 m.val true
    (writeWordAt p inst.val 0x18 m.val ((if lock then 0x20 else 0) + (if sec then 0x40 else 0)))))

/-! ### Register frames and private reads (R337, R338, R340) -/

/-- The pointer of port j (R338). -/
def pointer (s : State) (j : Nat) : Nat := s.rd .I3C_PTR_LO_ADDR j + 2 ^ 32 * s.rd .I3C_PTR_HI_ADDR j

/-- Put the pointer and its INC. -/
def setPointer (j a inc : Nat) (s : State) : State :=
  ((s.wr .I3C_PTR_LO_ADDR a j).wr .I3C_PTR_HI_ADDR (a / 2 ^ 32) j).wr .I3C_PTR_HI_INC inc j

/-- One word of a REG_WRITE frame; outside the register range it is a word of memory (DEDUCED). -/
def frameWord (j a v : Nat) (s : State) : State :=
  if inRegisters a then writeReg j a v s else (busWrite j (a / 4 * 4) (leBytes 4 v) s).2

/-- The words of a REG_WRITE frame in order (R337). -/
def frameWords (j step : Nat) : Nat → List Nat → State → State
  | _, [], s => s
  | a, v :: vs, s => frameWords j step (a + step) vs (frameWord j a v s)

/-- A REG_WRITE frame that passes. -/
def regWrite (j : Nat) (x : Frame) (s : State) : State :=
  let s1 := s.setPort j { s.port j with memLast := false }
  frameWords j (if x.inc then 4 else 0) x.addr (wordsOf x.body.length x.body) (setPointer j x.addr (if x.inc then 1 else 0) s1)

/-- `REG_WRITE`: a frame with OP 0. -/
def execRegWrite (j : Fin 2) (fr : List Byte) (wire : Fin 3) (s : State) : Out :=
  takeFrame j.val 0 fr wire (regWrite j.val) s

/-- A register read at the pointer; outside the register range it reads a word of memory (DEDUCED). -/
def pointerRead (j : Nat) (s : State) : Nat × State :=
  let a := pointer s j
  if inRegisters a then readReg j a s
  else let r := busRead j (a / 4 * 4) 4 s; (leValue r.1, r.2.2)

/-- After a whole register the pointer advances under INC. -/
def advance (j : Nat) (s : State) : State :=
  if s.rd .I3C_PTR_HI_INC j = 1 then setPointer j ((pointer s j + 4) % 2 ^ 40) 1 s else s

/-- `n` whole registers read from the pointer, then `k` bytes of a further one: its read effects are completed, and the pointer stays
on it. -/
def pointerBytes (j : Nat) : Nat → Nat → State → List Byte × State
  | 0, k, s => if k = 0 then ([], s) else let r := pointerRead j s; ((leBytes 4 r.1).take k, r.2)
  | n + 1, k, s =>
    let r := pointerRead j s
    let t := pointerBytes j n k (advance j r.2)
    (leBytes 4 r.1 ++ t.1, t.2)

/-- Bytes of a private read: in I3C at most LIMITS.MRL, in whole registers (R338). -/
def readLimit (s : State) (j n : Nat) : Nat :=
  if s.rd .I3C_STATUS_I2C_MODE j = 1 then n else min n (s.rd .I3C_LIMITS_MRL j / 4 * 4)

/-- `PRIVATE_READ`: the host reads up to `n` bytes after a REG_WRITE frame. -/
def execPrivateRead (j : Fin 2) (n : BitVec 12) (s : State) : Out :=
  transfer j.val (on ((s.port j.val).memLast = false) fun s =>
    let k := readLimit s j.val n.toNat
    let r := pointerBytes j.val (k / 4) (k % 4) s
    { r.2 with readData := r.1 }) s

end Sys2Proof.Machine
end

