-- ==== Sys2Proof/Machine/Dispatch.lean ====
section
/-! DEFINITION. The meaning of every command: one arm per constructor of Instr, each one call. -/

namespace Sys2Proof.Machine

/-- The effect of a command on everything but the queue. -/
def exec (i : Instr) (s : State) : Host.Outcome State Fault Refusal :=
  match i with
  | .registerWrite m a v => Sys2Proof.Machine.execRegisterWrite m a v s
  | .readClear m a => Sys2Proof.Machine.execReadClear m a s
  | .read64Low m a => Sys2Proof.Machine.execRead64Low m a s
  | .read64High m a => Sys2Proof.Machine.execRead64High m a s
  | .masterAccess m a data n => Sys2Proof.Machine.execMasterAccess m a data n s
  | .quadSampleEdge q => Sys2Proof.Machine.execQuadSampleEdge q s
  | .sqUnderrunFault c => Sys2Proof.Machine.execSqUnderrunFault c s
  | .paceWindowEnd q ratio => Sys2Proof.Machine.execPaceWindowEnd q ratio s
  | .refModeWrite m v => Sys2Proof.Machine.execRefModeWrite m v s
  | .holdResyncClear m => Sys2Proof.Machine.execHoldResyncClear m s
  | .tallyEnWrite m en => Sys2Proof.Machine.execTallyEnWrite m en s
  | .refLost => Sys2Proof.Machine.execRefLost s
  | .refReturn phase => Sys2Proof.Machine.execRefReturn phase s
  | .pllRelocked => Sys2Proof.Machine.execPllRelocked s
  | .slewDone => Sys2Proof.Machine.execSlewDone s
  | .pllUnlock => Sys2Proof.Machine.execPllUnlock s
  | .epochArm m => Sys2Proof.Machine.execEpochArm m s
  | .epochCancel m => Sys2Proof.Machine.execEpochCancel m s
  | .epochLoad age => Sys2Proof.Machine.execEpochLoad age s
  | .lcClaim m x v => Sys2Proof.Machine.execLcClaim m x v s
  | .lcRelease m x => Sys2Proof.Machine.execLcRelease m x s
  | .lcArm m x => Sys2Proof.Machine.execLcArm m x s
  | .lcDisarm m x => Sys2Proof.Machine.execLcDisarm m x s
  | .lcFire x => Sys2Proof.Machine.execLcFire x s
  | .qclkStart m q => Sys2Proof.Machine.execQclkStart m q s
  | .qclkStop m q => Sys2Proof.Machine.execQclkStop m q s
  | .qclkLocked y => Sys2Proof.Machine.execQclkLocked y s
  | .qclkResume q => Sys2Proof.Machine.execQclkResume q s
  | .qclkSettleDone q => Sys2Proof.Machine.execQclkSettleDone q s
  | .lockLost y => Sys2Proof.Machine.execLockLost y s
  | .spareCoverAssign m v => Sys2Proof.Machine.execSpareCoverAssign m v s
  | .spareSynthReady => Sys2Proof.Machine.execSpareSynthReady s
  | .useSpareSet m q => Sys2Proof.Machine.execUseSpareSet m q s
  | .rehomed q => Sys2Proof.Machine.execRehomed q s
  | .useSpareClear m q => Sys2Proof.Machine.execUseSpareClear m q s
  | .rehomeBack q => Sys2Proof.Machine.execRehomeBack q s
  | .gstbModeWrite m k v => Sys2Proof.Machine.execGstbModeWrite m k v s
  | .gstbStrobe k => Sys2Proof.Machine.execGstbStrobe k s
  | .tallySyncAcquire => Sys2Proof.Machine.execTallySyncAcquire s
  | .tallyLos => Sys2Proof.Machine.execTallyLos s
  | .tallyEpochFrame fr age => Sys2Proof.Machine.execTallyEpochFrame fr age s
  | .tallyLaunchFrame fr => Sys2Proof.Machine.execTallyLaunchFrame fr s
  | .tallySpeedFrame fr => Sys2Proof.Machine.execTallySpeedFrame fr s
  | .tallySpeedDeferred q => Sys2Proof.Machine.execTallySpeedDeferred q s
  | .synthesisSample q => Sys2Proof.Machine.execSynthesisSample q s
  | .rampDone q => Sys2Proof.Machine.execRampDone q s
  | .slotDisable c slot => Sys2Proof.Machine.execSlotDisable c slot s
  | .patternEntryAdvance c => Sys2Proof.Machine.execPatternEntryAdvance c s
  | .markerPulseEnd c => Sys2Proof.Machine.execMarkerPulseEnd c s
  | .playerFinish c p => Sys2Proof.Machine.execPlayerFinish c p s
  | .channelIdleEnter c => Sys2Proof.Machine.execChannelIdleEnter c s
  | .playTime c => Sys2Proof.Machine.execPlayTime c s
  | .playAngle c => Sys2Proof.Machine.execPlayAngle c s
  | .partials c => Sys2Proof.Machine.execPartials c s
  | .noise c => Sys2Proof.Machine.execNoise c s
  | .level c => Sys2Proof.Machine.execLevel c s
  | .descRamp c => Sys2Proof.Machine.execDescRamp c s
  | .pattern c => Sys2Proof.Machine.execPattern c s
  | .descSpeed c => Sys2Proof.Machine.execDescSpeed c s
  | .descMark c => Sys2Proof.Machine.execDescMark c s
  | .idle c => Sys2Proof.Machine.execIdle c s
  | .fence c => Sys2Proof.Machine.execFence c s
  | .allocWrite m c v => Sys2Proof.Machine.execAllocWrite m c v s
  | .cseEnableWrite m c en => Sys2Proof.Machine.execCseEnableWrite m c en s
  | .cseSoftReset m c => Sys2Proof.Machine.execCseSoftReset m c s
  | .pwrReqWrite m stitch x req => Sys2Proof.Machine.execPwrReqWrite m stitch x req s
  | .stitchEnable m q => Sys2Proof.Machine.execStitchEnable m q s
  | .stitchDisable m q => Sys2Proof.Machine.execStitchDisable m q s
  | .stitchSoftReset m q => Sys2Proof.Machine.execStitchSoftReset m q s
  | .instructionFetch q => Sys2Proof.Machine.execInstructionFetch q s
  | .nop q => Sys2Proof.Machine.execNop q s
  | .halt q => Sys2Proof.Machine.execHalt q s
  | .play q => Sys2Proof.Machine.execPlay q s
  | .playa q => Sys2Proof.Machine.execPlaya q s
  | .hold q => Sys2Proof.Machine.execHold q s
  | .mark q => Sys2Proof.Machine.execMark q s
  | .speed q => Sys2Proof.Machine.execSpeed q s
  | .ramp q => Sys2Proof.Machine.execRamp q s
  | .creditWaitEnd q => Sys2Proof.Machine.execCreditWaitEnd q s
  | .loop q => Sys2Proof.Machine.execLoop q s
  | .endl q => Sys2Proof.Machine.execEndl q s
  | .call q => Sys2Proof.Machine.execCall q s
  | .ret q => Sys2Proof.Machine.execRet q s
  | .jev q => Sys2Proof.Machine.execJev q s
  | .waitt q => Sys2Proof.Machine.execWaitt q s
  | .waittResume q => Sys2Proof.Machine.execWaittResume q s
  | .waite q => Sys2Proof.Machine.execWaite q s
  | .waiteTimeout q => Sys2Proof.Machine.execWaiteTimeout q s
  | .arm q => Sys2Proof.Machine.execArm q s
  | .disarm q => Sys2Proof.Machine.execDisarm q s
  | .emit q => Sys2Proof.Machine.execEmit q s
  | .gangReady q => Sys2Proof.Machine.execGangReady q s
  | .gangCommit q => Sys2Proof.Machine.execGangCommit q s
  | .gangCommitPoint q => Sys2Proof.Machine.execGangCommitPoint q s
  | .gangPrepareTimeout q => Sys2Proof.Machine.execGangPrepareTimeout q s
  | .gangAbort q => Sys2Proof.Machine.execGangAbort q s
  | .gangWaitc q => Sys2Proof.Machine.execGangWaitc q s
  | .stitcherEventInput q e => Sys2Proof.Machine.execStitcherEventInput q e s
  | .armedSwitch q => Sys2Proof.Machine.execArmedSwitch q s
  | .lcGrantWrite m q hi v => Sys2Proof.Machine.execLcGrantWrite m q hi v s
  | .evinLatchClear m q v => Sys2Proof.Machine.execEvinLatchClear m q v s
  | .mcSwitchReq m q => Sys2Proof.Machine.execMcSwitchReq m q s
  | .mcSwitch q => Sys2Proof.Machine.execMcSwitch q s
  | .pushWinWord m w => Sys2Proof.Machine.execPushWinWord m w s
  | .pushAbort m => Sys2Proof.Machine.execPushAbort m s
  | .qcfgWrite m x v => Sys2Proof.Machine.execQcfgWrite m x v s
  | .headSlotFetch x bad link => Sys2Proof.Machine.execHeadSlotFetch x bad link s
  | .linkSweepDone => Sys2Proof.Machine.execLinkSweepDone s
  | .queueDrop m x seqMatch seq => Sys2Proof.Machine.execQueueDrop m x seqMatch seq s
  | .queueFlush m x => Sys2Proof.Machine.execQueueFlush m x s
  | .packetTorn m => Sys2Proof.Machine.execPacketTorn m s
  | .tackSoftReset m => Sys2Proof.Machine.execTackSoftReset m s
  | .ringEnable m c sizeLog split => Sys2Proof.Machine.execRingEnable m c sizeLog split s
  | .ringDisable m c => Sys2Proof.Machine.execRingDisable m c s
  | .ringRefill c p alt n => Sys2Proof.Machine.execRingRefill c p alt n s
  | .outEnableWrite m c en => Sys2Proof.Machine.execOutEnableWrite m c en s
  | .outSoftReset m c => Sys2Proof.Machine.execOutSoftReset m c s
  | .stageTrackingFault c => Sys2Proof.Machine.execStageTrackingFault c s
  | .stageBiasFault c => Sys2Proof.Machine.execStageBiasFault c s
  | .stageSwitchReq m c => Sys2Proof.Machine.execStageSwitchReq m c s
  | .stageSwitchover c => Sys2Proof.Machine.execStageSwitchover c s
  | .senseFault c => Sys2Proof.Machine.execSenseFault c s
  | .currentLimitEnter c => Sys2Proof.Machine.execCurrentLimitEnter c s
  | .foldback c => Sys2Proof.Machine.execFoldback c s
  | .scClr m c => Sys2Proof.Machine.execScClr m c s
  | .foldbackRetry c => Sys2Proof.Machine.execFoldbackRetry c s
  | .foldbackEnd c => Sys2Proof.Machine.execFoldbackEnd c s
  | .overtemp c => Sys2Proof.Machine.execOvertemp c s
  | .overtempClear c => Sys2Proof.Machine.execOvertempClear c s
  | .nvmProgram m c k => Sys2Proof.Machine.execNvmProgram m c k s
  | .nvmReload m c k => Sys2Proof.Machine.execNvmReload m c k s
  | .nvmDone c ok => Sys2Proof.Machine.execNvmDone c ok s
  | .nvValueWrite m c which v => Sys2Proof.Machine.execNvValueWrite m c which v s
  | .faultForceWrite m c f => Sys2Proof.Machine.execFaultForceWrite m c f s
  | .faultClear m c => Sys2Proof.Machine.execFaultClear m c s
  | .faultEnter c => Sys2Proof.Machine.execFaultEnter c s
  | .faultExit c => Sys2Proof.Machine.execFaultExit c s
  | .spanSlewEnd c => Sys2Proof.Machine.execSpanSlewEnd c s
  | .spanHoldEnd c => Sys2Proof.Machine.execSpanHoldEnd c s
  | .spanSwitchDone c => Sys2Proof.Machine.execSpanSwitchDone c s
  | .spanSettleEnd c => Sys2Proof.Machine.execSpanSettleEnd c s
  | .spanRelease c => Sys2Proof.Machine.execSpanRelease c s
  | .powerGoodRise addr vio18 => Sys2Proof.Machine.execPowerGoodRise addr vio18 s
  | .powerupNvmLoaded badOut badCal => Sys2Proof.Machine.execPowerupNvmLoaded badOut badCal s
  | .powerupRefSettled => Sys2Proof.Machine.execPowerupRefSettled s
  | .powerupStageBiased => Sys2Proof.Machine.execPowerupStageBiased s
  | .powerupSwitchClose => Sys2Proof.Machine.execPowerupSwitchClose s
  | .powerupWakeReached => Sys2Proof.Machine.execPowerupWakeReached s
  | .powerGoodFall => Sys2Proof.Machine.execPowerGoodFall s
  | .rotationStart t mon => Sys2Proof.Machine.execRotationStart t mon s
  | .visitReq m t p => Sys2Proof.Machine.execVisitReq m t p s
  | .shadowStart t => Sys2Proof.Machine.execShadowStart t s
  | .matchStart t => Sys2Proof.Machine.execMatchStart t s
  | .matchDecision t taps out => Sys2Proof.Machine.execMatchDecision t taps out s
  | .handover t p k => Sys2Proof.Machine.execHandover t p k s
  | .calMeasureDone t taps => Sys2Proof.Machine.execCalMeasureDone t taps s
  | .calSolveDone t k => Sys2Proof.Machine.execCalSolveDone t k s
  | .calVerifyDone t taps => Sys2Proof.Machine.execCalVerifyDone t taps s
  | .referenceFrame f => Sys2Proof.Machine.execReferenceFrame f s
  | .coreHealthFault t k => Sys2Proof.Machine.execCoreHealthFault t k s
  | .failoverReq m t p retire => Sys2Proof.Machine.execFailoverReq m t p retire s
  | .failoverSwitch t => Sys2Proof.Machine.execFailoverSwitch t s
  | .calibrationAbandon t => Sys2Proof.Machine.execCalibrationAbandon t s
  | .captureStart m t src atLc lc => Sys2Proof.Machine.execCaptureStart m t src atLc lc s
  | .captureAbort m t => Sys2Proof.Machine.execCaptureAbort m t s
  | .captureSample t x => Sys2Proof.Machine.execCaptureSample t x s
  | .capEnd t => Sys2Proof.Machine.execCapEnd t s
  | .burnishSaveNow m => Sys2Proof.Machine.execBurnishSaveNow m s
  | .coreMapWrite t => Sys2Proof.Machine.execCoreMapWrite t s
  | .trimSaveTimer => Sys2Proof.Machine.execTrimSaveTimer s
  | .lineFire l => Sys2Proof.Machine.execLineFire l s
  | .lineRearm l => Sys2Proof.Machine.execLineRearm l s
  | .stormWindowStart w => Sys2Proof.Machine.execStormWindowStart w s
  | .stormClear m l => Sys2Proof.Machine.execStormClear m l s
  | .rememberedDeliver l => Sys2Proof.Machine.execRememberedDeliver l s
  | .lineClaim m l v => Sys2Proof.Machine.execLineClaim m l v s
  | .lineRelease m l => Sys2Proof.Machine.execLineRelease m l s
  | .lineCfgWrite m l v => Sys2Proof.Machine.execLineCfgWrite m l v s
  | .lineSrcWrite m l w v => Sys2Proof.Machine.execLineSrcWrite m l w v s
  | .loopRecompute => Sys2Proof.Machine.execLoopRecompute s
  | .hostTrig m v => Sys2Proof.Machine.execHostTrig m v s
  | .svcModeWrite m hold => Sys2Proof.Machine.execSvcModeWrite m hold s
  | .patInputEdge x rising half ago => Sys2Proof.Machine.execPatInputEdge x rising half ago s
  | .pinClaim m x v => Sys2Proof.Machine.execPinClaim m x v s
  | .pinRelease m x => Sys2Proof.Machine.execPinRelease m x s
  | .pinModeWrite m x omode invert => Sys2Proof.Machine.execPinModeWrite m x omode invert s
  | .patPulseEnd x => Sys2Proof.Machine.execPatPulseEnd x s
  | .capuClaim m u => Sys2Proof.Machine.execCapuClaim m u s
  | .capuInfoRead m u => Sys2Proof.Machine.execCapuInfoRead m u s
  | .quarryRequestAccept m write addr len data => Sys2Proof.Machine.execQuarryRequestAccept m write addr len data s
  | .quarryCommandSlot ch => Sys2Proof.Machine.execQuarryCommandSlot ch s
  | .quarryRequestComplete id ce ue dead => Sys2Proof.Machine.execQuarryRequestComplete id ce ue dead s
  | .urgencyRise p => Sys2Proof.Machine.execUrgencyRise p s
  | .rowIdleClose rank bank => Sys2Proof.Machine.execRowIdleClose rank bank s
  | .refresh => Sys2Proof.Machine.execRefresh s
  | .refreshEnd => Sys2Proof.Machine.execRefreshEnd s
  | .rdNeighborRefresh rank bank => Sys2Proof.Machine.execRdNeighborRefresh rank bank s
  | .rdWindowReset => Sys2Proof.Machine.execRdWindowReset s
  | .quarryScrub p v w r => Sys2Proof.Machine.execQuarryScrub p v w r s
  | .initPass p w => Sys2Proof.Machine.execInitPass p w s
  | .initDone => Sys2Proof.Machine.execInitDone s
  | .migrationStart host => Sys2Proof.Machine.execMigrationStart host s
  | .migrationUnitCopy dead flaws => Sys2Proof.Machine.execMigrationUnitCopy dead flaws s
  | .migrationSwitchover => Sys2Proof.Machine.execMigrationSwitchover s
  | .reshape m k => Sys2Proof.Machine.execReshape m k s
  | .reshapeDone => Sys2Proof.Machine.execReshapeDone s
  | .opChangeRequest m v => Sys2Proof.Machine.execOpChangeRequest m v s
  | .opCommit => Sys2Proof.Machine.execOpCommit s
  | .opEntryRestart => Sys2Proof.Machine.execOpEntryRestart s
  | .opDone => Sys2Proof.Machine.execOpDone s
  | .trainingRun m mode => Sys2Proof.Machine.execTrainingRun m mode s
  | .trainingRunDone fail errs => Sys2Proof.Machine.execTrainingRunDone fail errs s
  | .driftUpdate p steps => Sys2Proof.Machine.execDriftUpdate p steps s
  | .benchAccess m write off len data mark other ce ue => Sys2Proof.Machine.execBenchAccess m write off len data mark other ce ue s
  | .benchAliasWrite m clear off data => Sys2Proof.Machine.execBenchAliasWrite m clear off data s
  | .benchScrub off r => Sys2Proof.Machine.execBenchScrub off r s
  | .benchPortTimeout b => Sys2Proof.Machine.execBenchPortTimeout b s
  | .benchAutoRetention b => Sys2Proof.Machine.execBenchAutoRetention b s
  | .benchWake b => Sys2Proof.Machine.execBenchWake b s
  | .benchModeWrite m v => Sys2Proof.Machine.execBenchModeWrite m v s
  | .bistStart m b auto => Sys2Proof.Machine.execBistStart m b auto s
  | .bistCopyDone => Sys2Proof.Machine.execBistCopyDone s
  | .bistTestDone fails => Sys2Proof.Machine.execBistTestDone fails s
  | .bistRestoreDone => Sys2Proof.Machine.execBistRestoreDone s
  | .bistAbort m => Sys2Proof.Machine.execBistAbort m s
  | .benchReplace m b => Sys2Proof.Machine.execBenchReplace m b s
  | .benchReplaceDone bad => Sys2Proof.Machine.execBenchReplaceDone bad s
  | .enec j events => Sys2Proof.Machine.execEnec j events s
  | .disec j events => Sys2Proof.Machine.execDisec j events s
  | .entas j n => Sys2Proof.Machine.execEntas j n s
  | .rstdaa j => Sys2Proof.Machine.execRstdaa j s
  | .entdaa j won => Sys2Proof.Machine.execEntdaa j won s
  | .setmwl j v => Sys2Proof.Machine.execSetmwl j v s
  | .setmrl j v => Sys2Proof.Machine.execSetmrl j v s
  | .enthdr0 j => Sys2Proof.Machine.execEnthdr0 j s
  | .setaasa j => Sys2Proof.Machine.execSetaasa j s
  | .setdasa j a => Sys2Proof.Machine.execSetdasa j a s
  | .setnewda j a => Sys2Proof.Machine.execSetnewda j a s
  | .rstactPort j b => Sys2Proof.Machine.execRstactPort j b s
  | .rstactDevice j => Sys2Proof.Machine.execRstactDevice j s
  | .rstactQuery j => Sys2Proof.Machine.execRstactQuery j s
  | .getmwl j => Sys2Proof.Machine.execGetmwl j s
  | .getmrl j => Sys2Proof.Machine.execGetmrl j s
  | .getpid j => Sys2Proof.Machine.execGetpid j s
  | .getbcr j => Sys2Proof.Machine.execGetbcr j s
  | .getdcr j => Sys2Proof.Machine.execGetdcr j s
  | .getstatus j => Sys2Proof.Machine.execGetstatus j s
  | .getmxds j => Sys2Proof.Machine.execGetmxds j s
  | .getcaps j => Sys2Proof.Machine.execGetcaps j s
  | .regWrite j fr wire => Sys2Proof.Machine.execRegWrite j fr wire s
  | .memWrite j fr wire => Sys2Proof.Machine.execMemWrite j fr wire s
  | .memFetch j fr wire => Sys2Proof.Machine.execMemFetch j fr wire s
  | .tunnelDone j => Sys2Proof.Machine.execTunnelDone j s
  | .privateRead j n => Sys2Proof.Machine.execPrivateRead j n s
  | .tunnelRead j n => Sys2Proof.Machine.execTunnelRead j n s
  | .ibiRequest j ack => Sys2Proof.Machine.execIbiRequest j ack s
  | .portHealthLost j wd => Sys2Proof.Machine.execPortHealthLost j wd s
  | .adopt m j => Sys2Proof.Machine.execAdopt m j s
  | .adopted j => Sys2Proof.Machine.execAdopted j s
  | .rawCommand m v => Sys2Proof.Machine.execRawCommand m v s
  | .rawDone data => Sys2Proof.Machine.execRawDone data s
  | .loaderGo m image head => Sys2Proof.Machine.execLoaderGo m image head s
  | .loaderResume m image head => Sys2Proof.Machine.execLoaderResume m image head s
  | .loaderAbort m image data => Sys2Proof.Machine.execLoaderAbort m image data s
  | .nandStatusPoll data status => Sys2Proof.Machine.execNandStatusPoll data status s
  | .loaderEntryDone head data => Sys2Proof.Machine.execLoaderEntryDone head data s
  | .flashTimeout data => Sys2Proof.Machine.execFlashTimeout data s
  | .loaderDone data image block => Sys2Proof.Machine.execLoaderDone data image block s
  | .bootStart => Sys2Proof.Machine.execBootStart s
  | .bootDone img => Sys2Proof.Machine.execBootDone img s
  | .slotCheck slot img => Sys2Proof.Machine.execSlotCheck slot img s
  | .wdtKick m v => Sys2Proof.Machine.execWdtKick m v s
  | .wdtExpired => Sys2Proof.Machine.execWdtExpired s
  | .firmwareRestart => Sys2Proof.Machine.execFirmwareRestart s
  | .getInfo j => Sys2Proof.Machine.execGetInfo j s
  | .getCert j => Sys2Proof.Machine.execGetCert j s
  | .quote j => Sys2Proof.Machine.execQuote j s
  | .mrExtend j => Sys2Proof.Machine.execMrExtend j s
  | .sessionOpen j => Sys2Proof.Machine.execSessionOpen j s
  | .sessionAuth j => Sys2Proof.Machine.execSessionAuth j s
  | .sessionClose j => Sys2Proof.Machine.execSessionClose j s
  | .sessionTimeout j => Sys2Proof.Machine.execSessionTimeout j s
  | .fwStage j => Sys2Proof.Machine.execFwStage j s
  | .fwInstall j ok => Sys2Proof.Machine.execFwInstall j ok s
  | .fwActivate j => Sys2Proof.Machine.execFwActivate j s
  | .handoffPoint => Sys2Proof.Machine.execHandoffPoint s
  | .aliveMark => Sys2Proof.Machine.execAliveMark s
  | .handoffRevert returned => Sys2Proof.Machine.execHandoffRevert returned s
  | .svnCommit j => Sys2Proof.Machine.execSvnCommit j s
  | .slotSelect j => Sys2Proof.Machine.execSlotSelect j s
  | .policySet j => Sys2Proof.Machine.execPolicySet j s
  | .libkeySet j => Sys2Proof.Machine.execLibkeySet j s
  | .ownerKeySet j => Sys2Proof.Machine.execOwnerKeySet j s
  | .policyLock j => Sys2Proof.Machine.execPolicyLock j s
  | .recoveryBoot j => Sys2Proof.Machine.execRecoveryBoot j s
  | .mbDone j => Sys2Proof.Machine.execMbDone j s
  | .railMonitorSample ok mv high => Sys2Proof.Machine.execRailMonitorSample ok mv high s
  | .resetPin => Sys2Proof.Machine.execResetPin s
  | .sysSoftReset m => Sys2Proof.Machine.execSysSoftReset m s
  | .warmResetEnd addr => Sys2Proof.Machine.execWarmResetEnd addr s
  | .ready failed => Sys2Proof.Machine.execReady failed s
  | .powerStateEntry => Sys2Proof.Machine.execPowerStateEntry s
  | .dEnter => Sys2Proof.Machine.execDEnter s
  | .wake cls => Sys2Proof.Machine.execWake cls s
  | .powerTimeWake => Sys2Proof.Machine.execPowerTimeWake s
  | .dExit => Sys2Proof.Machine.execDExit s
  | .thermalSample tj => Sys2Proof.Machine.execThermalSample tj s
  | .lifeCountSave => Sys2Proof.Machine.execLifeCountSave s
  | .shadowGo m p inst mode lc => Sys2Proof.Machine.execShadowGo m p inst mode lc s
  | .shadowCancel m p inst => Sys2Proof.Machine.execShadowCancel m p inst s
  | .shadowCapture p inst => Sys2Proof.Machine.execShadowCapture p inst s
  | .shadowCommitApply p inst => Sys2Proof.Machine.execShadowCommitApply p inst s
  | .evtEnWrite m p inst v => Sys2Proof.Machine.execEvtEnWrite m p inst v s
  | .evtClear m p inst pend v => Sys2Proof.Machine.execEvtClear m p inst pend v s
  | .ownerWrite m p inst lock sec => Sys2Proof.Machine.execOwnerWrite m p inst lock sec s
  | .currentLimitExit c => Sys2Proof.Machine.execCurrentLimitExit c s
  | .portHealthReturn j => Sys2Proof.Machine.execPortHealthReturn j s
  | .hdrExit j => Sys2Proof.Machine.execHdrExit j s
  | .targetResetPattern j => Sys2Proof.Machine.execTargetResetPattern j s
  | .tackReady => Sys2Proof.Machine.execTackReady s

end Sys2Proof.Machine
end

