-- ==== Sys2Proof/Safety.lean ====
section
/-! DEFINITION. What holds of every state that a run can be in, and how a statement says what a command leaves alone. -/

namespace Sys2Proof.Machine

/-! ### The invariant -/

/-- Every stored field holds a value of its width (R4, R8). -/
def fieldsFit (l : Store Nat) : Prop := ∀ p ∈ l, ∃ r : Reg, p.1 % 1024 = r.ctorIdx ∧ p.2 < 2 ^ r.width

/-- The invariant of the block: memory is in its canonical form, the count is a number of 64 bits (R38), and every register field,
shadow copy or value in effect fits its width (R4, R8). -/
def Inv (s : State) : Prop :=
  Store.wf 0 s.mem = true ∧ s.now < 2 ^ 64 ∧ fieldsFit s.regs ∧ fieldsFit s.eff ∧ fieldsFit s.cap

/-! ### Parts of the state -/

/-- The parts of the state that a command can change: a register field, in all its instances, or one of the engines' stores. The queue
is no part: no command touches it. -/
inductive Part where
  | reg (r : Reg)
  | dev | now | osc | eff | cap | held | readData | presented | commits | holdoff | mem | poison | epoch
  | pllStarted | lcs | lcGen | clocks | gstbs | wheels | cses | stitchers | queues | staging | rings
  | outs | lines | pins | capus | evin | nvmQueue | ports | addrPins | testEn | ldr | sec | pwr | qry
  | ben | missed | tiers | vref | trimSaved | trimDue | fwUp | free
deriving DecidableEq, Repr

/-- The part is the same in both states. -/
def Part.same (p : Part) (s t : State) : Prop :=
  match p with
  | .reg r => ∀ inst idx sub, t.rd r inst idx sub = s.rd r inst idx sub
  | .dev => t.dev = s.dev
  | .now => t.now = s.now
  | .osc => t.osc = s.osc
  | .eff => t.eff = s.eff
  | .cap => t.cap = s.cap
  | .held => t.held = s.held
  | .readData => t.readData = s.readData
  | .presented => t.presented = s.presented
  | .commits => t.commits = s.commits
  | .holdoff => t.holdoff = s.holdoff
  | .mem => t.mem = s.mem
  | .poison => t.poison = s.poison
  | .epoch => t.epoch = s.epoch
  | .pllStarted => t.pllStarted = s.pllStarted
  | .lcs => t.lcs = s.lcs
  | .lcGen => t.lcGen = s.lcGen
  | .clocks => t.clocks = s.clocks
  | .gstbs => t.gstbs = s.gstbs
  | .wheels => t.wheels = s.wheels
  | .cses => t.cses = s.cses
  | .stitchers => t.stitchers = s.stitchers
  | .queues => t.queues = s.queues
  | .staging => t.staging = s.staging
  | .rings => t.rings = s.rings
  | .outs => t.outs = s.outs
  | .lines => t.lines = s.lines
  | .pins => t.pins = s.pins
  | .capus => t.capus = s.capus
  | .evin => t.evin = s.evin
  | .nvmQueue => t.nvmQueue = s.nvmQueue
  | .ports => t.ports = s.ports
  | .addrPins => t.addrPins = s.addrPins
  | .testEn => t.testEn = s.testEn
  | .ldr => t.ldr = s.ldr
  | .sec => t.sec = s.sec
  | .pwr => t.pwr = s.pwr
  | .qry => t.qry = s.qry
  | .ben => t.ben = s.ben
  | .missed => t.missed = s.missed
  | .tiers => t.tiers = s.tiers
  | .vref => t.vref = s.vref
  | .trimSaved => t.trimSaved = s.trimSaved
  | .trimDue => t.trimDue = s.trimDue
  | .fwUp => t.fwUp = s.fwUp
  | .free => t.free = s.free

/-- From s to t nothing changes but the parts listed. -/
def OnlyChanges (l : List Part) (s t : State) : Prop := ∀ p : Part, p ∉ l → p.same s t

/-! ### What statements say of a command -/

/-- A register write of master m on a page reaches it: the device runs, and steps 2 and 3 of R23 pass. -/
abbrev MayWrite (s : State) (p : Page) (inst : Nat) (m : Master) : Prop :=
  s.dev = .up ∧ accessOk s p inst m.val true = true

/-- Event b of the page is raised (R416). -/
abbrev Raised (t : State) (p : Page) (inst b : Nat) : Prop := t.rd .EVT_RAW_RAW inst p.code b = 1

/-- From s to t the page records an error of master m: the code, or OVF where an earlier one still stands (R418). -/
abbrev Recorded (s t : State) (p : Page) (inst code m : Nat) : Prop :=
  if s.rd .ERR_CODE_CODE inst p.code = 0 then
    t.rd .ERR_CODE_CODE inst p.code = code ∧ t.rd .ERR_CODE_MASTER inst p.code = m
  else t.rd .ERR_CODE_CODE inst p.code = s.rd .ERR_CODE_CODE inst p.code ∧ t.rd .ERR_CODE_OVF inst p.code = 1

/-- No cell of a bench or of Quarry holds an error (R289, R306). -/
abbrev CleanCells (s : State) : Prop := s.ben.flaws = [] ∧ s.qry.flaws = []

/-- Channel c takes packet p, of priority n, on its next sample: it is next and due, its words are clean and its descriptor, of
this KIND, is in form (R83, R171, R174). -/
abbrev Takes (s : State) (c : Chan) (n : Nat) (p : Packet) (kind : Nat) : Prop :=
  s.dev = .up ∧ nextTaken s c.val = some (n, p) ∧ (takeStep s c.val).isSome = true ∧ p.poison = false ∧ p.descr.ok = true ∧
    p.descr.kind = kind

/-- The packet has left its head slot and its descriptor is the current one (R82, R170). -/
abbrev Stands (t : State) (c : Chan) (n : Nat) (p : Packet) : Prop :=
  (t.queue (4 * c.val + n)).head = none ∧ t.rd .CSE_STATUS_RUNNING c.val = 1 ∧
    t.rd .CSE_CUR_DESC_KIND c.val = p.descr.kind ∧ t.rd .CSE_CUR_DESC_SEQ c.val = p.descr.seq

/-- Stitcher q runs, waits for nothing and has fetched word w, whose opcode is op (R116, R118). -/
abbrev Executes (s : State) (q : Quad) (w op : Nat) : Prop :=
  s.dev = .up ∧ s.rd .STITCH_STATUS_RUNNING q.val = 1 ∧ (s.stitcher q.val).ir = some w ∧ (s.stitcher q.val).wait = .none ∧ opcode w = op

/-- Stitcher q goes on at pc: it runs, waits for nothing and is about to fetch (R116, R118). -/
abbrev GoesOn (t : State) (q : Quad) (pc : Nat) : Prop :=
  t.rd .STITCH_STATUS_RUNNING q.val = 1 ∧ (t.stitcher q.val).ir = none ∧ (t.stitcher q.val).wait = .none ∧ (t.stitcher q.val).pc = pc

/-- The push instruction w names channels that all have credit for its packet, `cells` before PRIO and SEQ, and no gang (R126,
R127). -/
abbrev PushFits (s : State) (q : Quad) (w : Nat) (cells : List Nat) : Prop :=
  buildPacket s q.val w = .ok cells ∧ bits w 55 52 ≠ 0 ∧ bit w 49 = 0 ∧
    ∀ i : Nat, i < 4 → bit (bits w 55 52) i = 1 →
      allocation s (4 * (4 * q.val + i) + bits w 51 50) true ≠ 0 ∧ cells.length ≤ available s (4 * (4 * q.val + i) + bits w 51 50) true

/-- Each channel that w names has received the packet at the end of its queue, with its PRIO and SEQ (R126). -/
abbrev Pushed (s t : State) (q : Quad) (w : Nat) (cells : List Nat) : Prop :=
  ∀ i : Nat, i < 4 → bit (bits w 55 52) i = 1 →
    (t.queue (4 * (4 * q.val + i) + bits w 51 50)).cells.map (·.cells) =
      (s.queue (4 * (4 * q.val + i) + bits w 51 50)).cells.map (·.cells) ++
        [stamp (bits w 51 50) (seqOf s q.val (4 * (4 * q.val + i) + bits w 51 50)) cells]

/-- The oldest doorbell is one of operation op on port j, and somebody serves it (R372, R378). -/
abbrev Serves (s : State) (j : Fin 2) (op tag : Nat) (rest : List MbCall) : Prop :=
  s.dev = .up ∧ s.sec.mail = ⟨j.val, op, tag⟩ :: rest ∧ mailServed s op = true

/-- It has been served, and its outcome waits to be reported (R379). -/
abbrev Replied (t : State) (j : Fin 2) (op tag result : Nat) (res : List Nat) (rest : List MbCall) : Prop :=
  t.sec.mail = rest ∧ Store.get none t.sec.replies j.val = some ⟨op, tag, result, res⟩

/-- The answer to a command that reads n bytes at a for port j: the code of the first check that fails, or `ok` (R374 to R379). -/
abbrev bufferCode (s : State) (j a n ok : Nat) : Nat :=
  if memAllowed s j .read a n = false then mbRegion else if s.anyPoison a n then mbBadArg else ok

/-- Where a byte written to address a is stored: at a, or, for a bit-set or bit-clear alias of a bench, at the byte behind it (R316). -/
abbrev storedAt (a : Nat) : Nat := (aliasOf a 1).1

/-- From s to t memory holds the same at every address but those that the n bytes written from address a on are stored at. -/
abbrev StoresAt (a n : Nat) (s t : State) : Prop :=
  ∀ b : Nat, (∀ d : Nat, d < n → b ≠ storedAt (a + d)) → Store.get 0 t.mem b = Store.get 0 s.mem b

/-- No access of master m waits, for Quarry or for a bench (R25). -/
abbrev Unwaited (s : State) (m : Nat) : Prop :=
  s.ben.held.any (fun y => y.master == m) = false ∧ s.qry.waiting.any (fun y => y.master == m) = false

/-- The range lies in the benches, or in the waveform space of a Quarry that has come up and does not reshape (R26, R298, R396). -/
abbrev InMemory (s : State) (a n : Nat) : Prop :=
  inBench a n = true ∨ (inWave s a n = true ∧ s.rd .SYS_STATUS_READY ≠ 0 ∧ s.mustRetry a = false)

/-- A bench access is aligned and allowed (R305, R310, R315). -/
abbrev BenchAllows (s : State) (x : BenchAccess) : Prop :=
  benchAligned x = true ∧ memAllowed s x.master x.access (benchBase + x.off) x.len = true

/-- It is served when it arrives: its bench needs no wake, and no earlier access of its master waits (R25, R318). -/
abbrev AtOnce (s : State) (x : BenchAccess) : Prop :=
  meetsState s x 1 = false ∧ meetsState s x 2 = false ∧ meetsState s x 3 = false ∧
    Unwaited s x.master

/-- The port that a transfer of the host is addressed to. -/
def portTransfer : Instr → Option Nat
  | .enec j _ | .disec j _ | .entas j _ | .rstdaa j | .entdaa j _ | .setmwl j _ | .setmrl j _ | .enthdr0 j | .hdrExit j | .setaasa j
  | .setdasa j _ | .setnewda j _ | .rstactPort j _ | .rstactQuery j | .getmwl j | .getmrl j | .getpid j | .getbcr j | .getdcr j
  | .getmxds j | .getcaps j | .getstatus j | .regWrite j _ _ | .memWrite j _ _ | .memFetch j _ _ | .privateRead j _
  | .tunnelRead j _ => some j.val
  | _ => none

/-- The bytes that a bench access can store to, its own and those of the port A write of the same cycle (R310, R311). -/
abbrev storesTo (x : BenchAccess) (b : Nat) : Prop :=
  0 < x.kind ∧ ((benchBase + x.off ≤ b ∧ b < benchBase + x.off + max x.len x.data.length) ∨
    ∃ o ∈ x.other, benchBase + o.2.2.1 ≤ b ∧ b < benchBase + o.2.2.1 + o.2.2.2.length)

/-- The bytes that an access which waits for Quarry can store to (R25, R314). -/
abbrev waitStores (x : BusWait) (b : Nat) : Prop := ∃ bs ∈ x.data, ∃ d : Nat, d < bs.length ∧ b = storedAt (x.addr + d)

/-- No access that master m has waiting, at a bench or for Quarry, can store to b: they complete before a later access of m (R25). -/
abbrev Unheld (s : State) (m b : Nat) : Prop :=
  (∀ x ∈ s.ben.held, x.master = m → ¬ storesTo x b) ∧ ∀ x ∈ s.qry.waiting, x.master = m → ¬ waitStores x b

/-- As StoresAt, but for what accesses that master m has waiting store. -/
abbrev StoresAtFor (m a n : Nat) (s t : State) : Prop :=
  ∀ b : Nat, Unheld s m b → (∀ d : Nat, d < n → b ≠ storedAt (a + d)) → Store.get 0 t.mem b = Store.get 0 s.mem b

/-- t is s held in a warm reset (R393): what it clears and what it keeps. -/
abbrev WarmHeld (s t : State) : Prop :=
  t.pwr.warmFrom = s.osc + 400 * exitUs (s.rd .POWER_STATUS_DSTATE) ∧ t.now = s.now ∧ t.lcs = [] ∧ t.cses = [] ∧ t.stitchers = [] ∧
    t.queues = [] ∧ t.rings = [] ∧ t.lines = [] ∧ t.commits = [] ∧ t.evin = [] ∧ t.rd .QUARRY_STATUS_SELF_REFRESH = 1 ∧
    t.rd .SYS_STATUS_READY = 0 ∧ t.rd .TACK_STATUS_READY = 0 ∧ (∀ i : Nat, i < 64 → t.rd .TBASE_LC_CTRL_CLAIMED 0 i = 0) ∧
    (∀ c : Nat, c < 48 → t.rd .OWNER_LOCK c (Page.code .cse) = 0) ∧ t.rd .TBASE_TB_CFG_REF_MODE = s.rd .TBASE_TB_CFG_REF_MODE ∧
    (∀ i : Nat, i < 192 → t.rd .BENCH_RGN_BASE_EN 0 i = s.rd .BENCH_RGN_BASE_EN 0 i ∧
      t.rd .BENCH_RGN_BASE_BASE 0 i = s.rd .BENCH_RGN_BASE_BASE 0 i) ∧
    (bistPhase s = 0 → t.mem = s.mem)

/-! ### Footprints -/

/-- Register fields as parts. -/
def fields (l : List Reg) : List Part := l.map Part.reg
/-- What raising an event changes (R416, R248). -/
def events : List Part := [.reg .EVT_PEND_PEND, .reg .EVT_RAW_RAW, .presented]
/-- What recording an error changes (R418). -/
def errors : List Part := fields [.ERR_CODE_CODE, .ERR_CODE_MASTER, .ERR_CODE_OVF, .ERR_CODE_WORD, .ERR_CODE_WRITE]
/-- From s to t the fields listed change at no instance and index but the one given, and errors are recorded on that page alone. -/
abbrev OnlyAt (p : Page) (inst idx : Nat) (l : List Reg) (s t : State) : Prop :=
  (∀ r ∈ l, ∀ i x u : Nat, ¬(i = inst ∧ x = idx) → t.rd r i x u = s.rd r i x u) ∧
    ∀ r : Reg, .reg r ∈ errors → ∀ i x u : Nat, ¬(i = inst ∧ x = p.code) → t.rd r i x u = s.rd r i x u

/-- What a wake cause changes (R401). -/
def wakes : List Part := fields [.POWER_STATUS_ENTERING, .POWER_STATUS_EXITING, .POWER_WAKE_STAT_CLASS, .POWER_WAKE_STAT_FROM] ++ [.pwr]
/-- What recording an unmapped access changes (R27). -/
def mapErrors : List Part := fields
  [.SYS_ERR_ADDR_HI_ADDR, .SYS_ERR_ADDR_HI_MASTER, .SYS_ERR_ADDR_HI_WRITE, .SYS_ERR_ADDR_LO_ADDR]
/-- The RC fields, which a read clears (R8). -/
def clearedByReads : List Part := fields
  [.TBASE_TALLY_CNT_CRC_ERR, .TBASE_TALLY_CNT_DROPPED, .QCLK_MISSED_MISSED, .CSE_CLIP_CNT_CLIP, .CSE_LATE_CNT_LATE,
   .CSE_DISCARD_CNT_DISCARD, .STITCH_EVIN_IGNORED_COUNT, .STITCH_PUSH_CNT_COUNT, .STITCH_STALL_CNT_COUNT, .TACK_CNT_POISON_COUNT,
   .TACK_CNT_TORN_COUNT, .TACK_CNT_LINK_CORRECTED, .TACK_CNT_LINK_FAILED, .TACK_RING_UCNT_COUNT, .OUT_SQ_UCNT_COUNT,
   .OUT_SC_CNT_SHORTS, .OUT_SC_CNT_OVERTEMPS, .SPARE_FAIL_CNT_FAILOVERS, .SPARE_FAIL_CNT_RETIRES, .HARNESS_LCNT_FIRED_FIRED,
   .HARNESS_LCNT_MERGE_COINCIDENT, .HARNESS_LCNT_MERGE_SUPPRESSED, .HARNESS_LCNT_OVR_OVERRUN, .PAT_PAT_DROP_COUNT,
   .QUARRY_ECC_CNT_CE, .QUARRY_ECC_CNT_UE, .QUARRY_RD_STAT_EVENTS, .QUARRY_PORT_LAT_MAX_LAT, .QUARRY_PORT_MISS_COUNT,
   .QPHY_CMP_ERRCNT_COUNT, .QPHY_DRIFT_STAT_MAX_STEP, .BENCH_ECC_CNT_CE, .BENCH_ECC_CNT_UE, .BENCH_COLL_CNT_COUNT,
   .BENCH_ALIAS_STAT_VALID, .BENCH_ALIAS_STAT_POISON, .I3C_IBI_CNT_SENT, .I3C_IBI_CNT_NACKS, .I3C_FRAME_STAT_FRAME_ERR,
   .I3C_TUN_STAT_RETRY_CNT, .POWER_RESIDENCY_MS, .POWER_THERM_STAT_PEAK, .POWER_PACE_MIN]

/-- What a calibration visit that is broken off changes (R225). -/
def visitEnds : List Part := fields [.BURNISH_STATUS_ROTATING, .SPARE_ELEM_TRIM_E, .SPARE_GO_TRIM_GAIN, .SPARE_GO_TRIM_OFFSET,
  .SPARE_LADDER_TRIM_L, .SPARE_STATUS_PHASE, .SPARE_STATUS_VISIT_POS] ++ [.tiers]
/-- What a span change that begins changes (R213). -/
def spanStarts : List Part := visitEnds ++ fields [.OUT_STATUS_SPAN_BUSY] ++ [.outs]
/-- What a quad that takes its sample edges anew changes (R45, R56). -/
def quadAligns : List Part := events ++ fields [.QCLK_ORIGIN_FRAC_FRAC, .QCLK_ORIGIN_HI_ORIGIN_HI, .QCLK_ORIGIN_LO_ORIGIN_LO,
  .QCLK_QCLK_CFG_ALIGN_ARM, .QCLK_QCLK_STATUS_ALIGNED, .QCLK_QCLK_STATUS_LOCKED, .QCLK_QCLK_STATUS_READY] ++ [.eff, .clocks, .wheels,
  .cses, .outs]
/-- What a gang commit or a fault of a Stitcher changes (R151, R156). -/
def gangCommits : List Part := errors ++ events ++ fields [.STITCH_FAULT_CAUSE, .STITCH_FAULT_PC, .STITCH_GANG_READY_READY,
  .STITCH_STATUS_CREDIT_WAIT, .STITCH_STATUS_FAULTED, .STITCH_STATUS_GANG_WAIT, .STITCH_STATUS_RUNNING, .STITCH_STATUS_WAIT_EVENT,
  .STITCH_STATUS_WAIT_TIME] ++ [.cses, .stitchers, .outs]
/-- What a gang that is given up changes (R153). -/
def gangAborts : List Part := gangCommits ++ [.queues]
/-- What a read that meets cell errors changes (R289, R306). -/
def eccReads : List Part := events ++ wakes ++ fields [.BENCH_BENCH_HEALTH_HEALTH, .BENCH_BIST_STAT_PHASE, .BENCH_ECC_CNT_CE,
  .BENCH_ECC_CNT_UE, .BENCH_STATUS_BIST_BUSY, .BENCH_STATUS_SPARE_FREE, .BENCH_UE_ADDR_IN_SPARE, .BENCH_UE_ADDR_OFFSET,
  .QUARRY_CAPACITY_N_ACTIVE, .QUARRY_ECC_CNT_CE, .QUARRY_ECC_CNT_UE, .QUARRY_LRMAP_MAP, .QUARRY_LRMAP_SPARE, .QUARRY_RANK_STATE_STATE,
  .QUARRY_STATUS_DEGRADED, .QUARRY_STATUS_MIGRATING, .QUARRY_UE_ADDR_HI_ADDR, .QUARRY_UE_ADDR_HI_BANK, .QUARRY_UE_ADDR_HI_RANK,
  .QUARRY_UE_ADDR_LO_ADDR] ++ [.holdoff, .poison, .qry, .ben, .free]
/-- What taking the sources of a descriptor notes (R94 to R98). -/
def patternNotes : List Part := eccReads ++ mapErrors ++ errors
/-- What a read of memory by an engine changes. -/
def memoryReads : List Part := patternNotes ++ fields [.BENCH_BPWR_STAT_STATE]
/-- What a write of memory by an engine changes (R278, R306). -/
def memoryWrites : List Part := memoryReads ++ [.mem]
/-- What a comparator given up changes at those who name it (R51, R422). -/
def comparatorReleases : List Part := gangCommits ++ fields [.BURNISH_CAP_CTRL_BUSY, .BURNISH_CAP_CTRL_REFUSED, .QCLK_QCLK_CFG_ALIGN_ARM,
  .QUARRY_STATUS_OP_PENDING, .SHADOW_CMD_PENDING, .SHADOW_CMD_REFUSED, .STITCH_LC_GRANT, .TBASE_GSTB_CFG_ALIGN_ARM,
  .TBASE_GSTB_STAT_PENDING, .TBASE_LC_CTRL_ARM, .TBASE_LC_CTRL_CLAIMED, .TBASE_LC_CTRL_FRAC, .TBASE_LC_CTRL_OWNER,
  .TBASE_LC_CTRL_PERIODIC, .TBASE_LC_CTRL_SRC_TALLY, .TBASE_LC_CTRL_TAG, .TBASE_LC_LATE, .TBASE_LC_PERIOD_PERIOD, .TBASE_LC_TIME_HI_C_HI,
  .TBASE_LC_TIME_LO_C_LO] ++ [.commits, .lcs, .gstbs, .lines, .qry, .tiers]
/-- What a write access of a master changes beside errors (R22 to R27, R278, R306, R316). -/
def busWrites : List Part := memoryWrites ++ fields [.BENCH_ALIAS_LAST_PRIOR, .BENCH_ALIAS_STAT_POISON, .BENCH_ALIAS_STAT_VALID,
  .BENCH_COLL_CNT_COUNT, .BENCH_COLL_STAT_STREAMER, .QUARRY_PORT_LAT_MAX_LAT, .QUARRY_PORT_MISS_COUNT, .QUARRY_PORT_STAT_OUTSTANDING,
  .QUARRY_PORT_STAT_URG] ++ [.readData, .missed]
/-- What a register write of a master changes at most (R7, R8). -/
def registerWrites : List Part := busWrites ++ comparatorReleases ++ spanStarts ++ fields [.BENCH_BIST_CTL_AUTO_REPLACE,
  .BENCH_BIST_CTL_BENCH, .BENCH_BIST_PTR_OFFSET, .BENCH_BIST_STAT_FAIL, .BENCH_BIST_STAT_FAIL_WORDS, .BENCH_BIST_STAT_PASS,
  .BENCH_BPWR_CFG_MODE, .BENCH_STATUS_REPLACING, .BENCH_STATUS_SPARE_COVER, .BURNISH_CAP_CTRL_AT_LC, .BURNISH_CAP_CTRL_CAP_LC,
  .BURNISH_CAP_CTRL_CAP_SRC, .BURNISH_CAP_DONE_COUNT, .BURNISH_STATUS_CAPTURING, .BURNISH_STATUS_NVM_SAVING, .CSE_ALLOC_EFF_PART_EFF,
  .CSE_ALLOC_EFF_PLAYERS_EFF, .CSE_ALLOC_PART_MAX, .CSE_ALLOC_PLAYERS, .CSE_CUR_DESC_KIND, .CSE_CUR_DESC_PRIO, .CSE_CUR_DESC_SEQ,
  .CSE_STATUS_BUDGET_CLAMP, .CSE_STATUS_IDLE, .CSE_STATUS_OPEN, .CSE_STATUS_RUNNING, .CTRL_ENABLE, .CTRL_PWR_REQ, .EVT_EN_EN,
  .HARNESS_CAPU_CFG_CLAIMED, .HARNESS_CAPU_CFG_LEVEL, .HARNESS_CAPU_CFG_OVR, .HARNESS_CAPU_CFG_OWNER, .HARNESS_GSTB_OVR_OVR,
  .HARNESS_LCNT_OVR_OVERRUN, .HARNESS_LINE_CFG_CLAIMED, .HARNESS_LINE_CFG_DST, .HARNESS_LINE_CFG_EN, .HARNESS_LINE_CFG_OWNER,
  .HARNESS_LINE_CFG_REARM, .HARNESS_LINE_CFG_SEC, .HARNESS_LINE_CFG_SPROF, .HARNESS_LINE_CFG_SVC, .HARNESS_LINE_SRC_SLOT,
  .HARNESS_LINE_STAT_PENDING, .HARNESS_LINE_STAT_STORM, .HARNESS_SOVR_OVR, .HARNESS_SVC_CTL_FORCE_HOLD, .I3C_LINK_CFG_ALERT_EN,
  .I3C_LINK_CFG_ALLOW_DEV_RESET, .I3C_LINK_CFG_EN, .I3C_LINK_CFG_WD, .I3C_STATUS_HEALTHY, .I3C_STATUS_SECURE, .OUT_FAULT_CTL_FORCE,
  .OUT_FAULT_CTL_WD_EN, .OUT_FAULT_STAT_CORE_LOST, .OUT_FAULT_STAT_FORCED, .OUT_FAULT_STAT_REPEAT_FAIL, .OUT_FAULT_STAT_SQ_UNDERRUN,
  .OUT_FAULT_STAT_WATCHDOG, .OUT_NVM_STAT_BUSY, .OUT_NVM_STAT_ERR, .OUT_NV_FAULT_VAL, .OUT_NV_SAFE_VAL, .OUT_NV_WAKE_SPAN,
  .OUT_NV_WAKE_VAL, .OUT_PROTCFG_AUTO_RETRY, .OUT_SPANCTL_SPAN, .OUT_STAGECTL_AUTO_LOCAL, .OUT_STAGECTL_AUTO_SWITCH, .OUT_STAGECTL_PREFER,
  .OUT_STAGECTL_SENSE_MODE, .OUT_STAGE_STAT_REQ_REFUSED, .OUT_STATUS_CORE_SPARE, .OUT_STATUS_FALLBACK, .OUT_STATUS_HIGHZ,
  .OUT_STATUS_NVM_BAD, .OUT_STATUS_SENSE_LOCAL, .OWNER_LOCK, .OWNER_MASTER, .OWNER_SEC, .PAT_PAT_OVR_OVR, .PAT_PIN_CFG_CH,
  .PAT_PIN_CFG_CLAIMED, .PAT_PIN_CFG_DRIVE, .PAT_PIN_CFG_EDGE, .PAT_PIN_CFG_FILT, .PAT_PIN_CFG_FUNC, .PAT_PIN_CFG_GSTB,
  .PAT_PIN_CFG_INVERT, .PAT_PIN_CFG_ODRAIN, .PAT_PIN_CFG_OMODE, .PAT_PIN_CFG_OWNER, .PAT_PIN_PULSE_PULSE, .POWER_STATUS_DSTATE,
  .POWER_THERM_CFG_CRIT_ACT, .POWER_THERM_CFG_TCRIT, .POWER_THERM_CFG_TLIM, .POWER_THERM_CFG_TWARN, .QCLK_COVER_QUAD, .QCLK_COVER_VALID,
  .QCLK_ORIGIN_FRAC_FRAC, .QCLK_ORIGIN_HI_ORIGIN_HI, .QCLK_ORIGIN_LO_ORIGIN_LO, .QCLK_QCLK_CFG_ALIGN_LC, .QCLK_QCLK_CFG_IF_LOG2,
  .QCLK_QCLK_CFG_USE_SPARE, .QCLK_QCLK_STATUS_LOCKED, .QCLK_QCLK_STATUS_READY, .QCLK_QCLK_STATUS_STOPPED, .QPHY_CMP_STAT_BUSY,
  .QPHY_CMP_STAT_DONE, .QPHY_STATUS_TRAINING, .QPHY_TRN_CTL_MODE, .QPHY_TSET_CTL_A_OP, .QPHY_TSET_CTL_A_VALID, .QPHY_TSET_CTL_B_OP,
  .QPHY_TSET_CTL_B_VALID, .QUARRY_CAPACITY_WAVE_GIB, .QUARRY_GEN_GEN, .QUARRY_INIT_PROG_PERCENT, .QUARRY_MIG_CTL_RATE,
  .QUARRY_MIG_PTR_CAUSE, .QUARRY_MIG_PTR_LGRANK, .QUARRY_MIG_PTR_UNIT, .QUARRY_OPCTL_ABORT_MAX, .QUARRY_OPCTL_AT_LC, .QUARRY_OPCTL_LC,
  .QUARRY_OPCTL_TARGET, .QUARRY_OP_STAT_ABORTS, .QUARRY_OP_STAT_FORCED, .QUARRY_STATUS_INIT_DONE, .QUARRY_STATUS_RESHAPING,
  .QUARRY_STATUS_SELF_REFRESH, .SEC_MB_CMD_OP, .SEC_MB_CMD_TAG, .SEC_MB_STAT_BUSY, .SHADOW_CMD_LATE, .SHADOW_CMD_LC, .SHADOW_CMD_MODE,
  .SPARE_CORE_STATE_ROLE, .SPARE_STATUS_CAL_CORE, .SPARE_STATUS_FAILOVER_BUSY, .SPARE_STATUS_SPARE_CORE, .SPARE_STATUS_SPARE_FREE,
  .STITCH_EVIN_IGNORED_COUNT, .STITCH_EVIN_LATCHED_LATCHED, .STITCH_PUSH_CNT_COUNT, .STITCH_STALL_CNT_COUNT, .STITCH_STATUS_HALTED,
  .STITCH_STATUS_MC_BANK, .STITCH_STATUS_MC_PENDING, .SYS_RESET_CNT_WARM, .TACK_PUSH_SEL_CH, .TACK_PUSH_STAT_DISCARDING,
  .TACK_PUSH_STAT_LAST_SEQ, .TACK_PUSH_STAT_OPEN, .TACK_PUSH_STAT_REFUSED, .TACK_PUSH_STAT_WORDS_LEFT, .TACK_QCFG_CRED_REG,
  .TACK_QCFG_CRED_STITCH, .TACK_QCFG_FMODE, .TACK_QLEVEL_BROKEN, .TACK_QLEVEL_FLUSH_BUSY, .TACK_RING_CFG_EN, .TACK_RING_CFG_SIZE_LOG,
  .TACK_RING_CFG_SPLIT, .TACK_STATUS_SWEEP, .TBASE_GSTB_CFG_ALIGN_LC, .TBASE_GSTB_CFG_MODE, .TBASE_GSTB_CFG_SINGLE_LC,
  .TBASE_TB_CFG_EPOCH_SRC, .TBASE_TB_CFG_HOLD_RESYNC, .TBASE_TB_CFG_REF_MODE, .TBASE_TB_CFG_STEP_ALLOW, .TBASE_TB_CFG_TALLY_EN,
  .TBASE_TB_STATUS_EPOCH_ARMED, .TBASE_TB_STATUS_HOLDOVER, .TBASE_TB_STATUS_PLL_LOCKED, .TBASE_TB_STATUS_REF_PRESENT,
  .TBASE_TB_STATUS_SLEWING, .TBASE_TB_STATUS_TALLY_SYNC, .XSPI_LD_CTL_IMAGE, .XSPI_LD_DONE_BYTES, .XSPI_LD_ENTRIES_COUNT,
  .XSPI_LD_RESUME_POINT, .XSPI_LD_STAT_BUSY, .XSPI_LD_STAT_ENTRY, .XSPI_LD_STAT_REFUSED, .XSPI_LD_STAT_RELEASED, .XSPI_LD_STAT_STOP,
  .XSPI_RAW_CMD_ALEN, .XSPI_RAW_CMD_DIR, .XSPI_RAW_CMD_DLEN, .XSPI_RAW_CMD_DUMMY, .XSPI_RAW_CMD_OP, .XSPI_RAW_CMD_REFUSED,
  .XSPI_STATUS_RAW_BUSY] ++ [.dev, .eff, .cap, .held, .epoch, .lcGen, .clocks, .wheels, .queues, .staging, .rings, .pins, .capus, .evin,
  .nvmQueue, .ports, .ldr, .sec, .trimDue, .fwUp]

end Sys2Proof.Machine

namespace Sys2Proof

open Sys2Proof.Machine

/-- Everything that a command may change; nothing where that is decided by an address it names, or by the page it resets. -/
def Instr.footprint (i : Instr) : Option (List Part) :=
  match i with
  | .readClear .. => some (clearedByReads ++ errors ++ fields [.HARNESS_CAPU_CFG_LEVEL, .HARNESS_CAPU_TIME_HI_C_HI,
      .HARNESS_CAPU_TIME_LO_C_LO] ++ [.held, .readData, .capus, .pwr])
  | .read64Low .. => some (clearedByReads ++ errors ++ fields [.HARNESS_CAPU_CFG_LEVEL, .HARNESS_CAPU_TIME_HI_C_HI,
      .HARNESS_CAPU_TIME_LO_C_LO] ++ [.held, .readData, .capus, .pwr])
  | .read64High .. => some (clearedByReads ++ errors ++ fields [.HARNESS_CAPU_CFG_LEVEL, .HARNESS_CAPU_TIME_HI_C_HI,
      .HARNESS_CAPU_TIME_LO_C_LO] ++ [.held, .readData, .capus, .pwr])
  | .quadSampleEdge .. => some (events ++ fields [.OUT_FAULT_STAT_CORE_LOST, .OUT_FAULT_STAT_FORCED, .OUT_SQ_UCNT_COUNT,
      .OUT_STATUS_FALLBACK, .OUT_STATUS_SENSE_LOCAL, .PAT_PAT_DROP_COUNT, .QCLK_SAMPLE_HI_N_HI, .QCLK_SAMPLE_LO_N_LO] ++ [.clocks, .cses, .outs,
      .pins])
  | .sqUnderrunFault .. => some (fields [.OUT_FAULT_STAT_SQ_UNDERRUN] ++ [.outs])
  | .paceWindowEnd .. => some (events ++ fields [.POWER_PACE_MIN, .POWER_PACE_RATIO, .POWER_PACE_WARN_QUAD] ++ [.pwr])
  | .refModeWrite .. => some (errors ++ events ++ wakes ++ fields [.TBASE_TB_CFG_REF_MODE, .TBASE_TB_STATUS_EPOCH_ARMED,
      .TBASE_TB_STATUS_HOLDOVER, .TBASE_TB_STATUS_PLL_LOCKED, .TBASE_TB_STATUS_REF_PRESENT, .TBASE_TB_STATUS_SLEWING])
  | .holdResyncClear .. => some (errors ++ wakes ++ fields [.TBASE_TB_CFG_HOLD_RESYNC])
  | .tallyEnWrite .. => some (errors ++ wakes ++ fields [.TBASE_TB_CFG_TALLY_EN, .TBASE_TB_STATUS_TALLY_SYNC])
  | .refLost => some (events ++ fields [.TBASE_TB_STATUS_HOLDOVER, .TBASE_TB_STATUS_PLL_LOCKED, .TBASE_TB_STATUS_REF_PRESENT,
      .TBASE_TB_STATUS_SLEWING])
  | .refReturn .. => some (quadAligns ++ visitEnds ++ fields [.BURNISH_CAP_DONE_COUNT, .BURNISH_STATUS_CAPTURING, .TBASE_GSTB_CFG_ALIGNED,
      .TBASE_GSTB_CFG_ALIGN_ARM, .TBASE_GSTB_STAT_PENDING, .TBASE_LC_CTRL_ARM, .TBASE_LC_LATE, .TBASE_TB_STATUS_EPOCH_ARMED,
      .TBASE_TB_STATUS_EPOCH_VALID, .TBASE_TB_STATUS_PHASE_ERR, .TBASE_TB_STATUS_REF_PRESENT] ++ [.now, .cap, .commits, .epoch, .lcs, .lcGen,
      .gstbs, .qry])
  | .pllRelocked => some (fields [.TBASE_TB_STATUS_HOLDOVER, .TBASE_TB_STATUS_PLL_LOCKED, .TBASE_TB_STATUS_SLEWING])
  | .slewDone => some (events ++ fields [.TBASE_TB_STATUS_PHASE_ERR, .TBASE_TB_STATUS_SLEWING])
  | .pllUnlock => some (events ++ fields [.TBASE_TB_STATUS_PLL_LOCKED])
  | .epochArm .. => some (errors ++ wakes ++ fields [.TBASE_TB_STATUS_EPOCH_ARMED] ++ [.epoch])
  | .epochCancel .. => some (errors ++ wakes ++ fields [.TBASE_TB_STATUS_EPOCH_ARMED])
  | .epochLoad .. => some (quadAligns ++ visitEnds ++ fields [.BURNISH_CAP_DONE_COUNT, .BURNISH_STATUS_CAPTURING, .TBASE_GSTB_CFG_ALIGNED,
      .TBASE_GSTB_CFG_ALIGN_ARM, .TBASE_GSTB_STAT_PENDING, .TBASE_LC_CTRL_ARM, .TBASE_LC_LATE, .TBASE_TB_STATUS_EPOCH_ARMED,
      .TBASE_TB_STATUS_EPOCH_VALID] ++ [.now, .cap, .commits, .lcs, .lcGen, .gstbs, .qry])
  | .lcClaim .. => some (comparatorReleases ++ wakes ++ [.lcGen])
  | .lcRelease .. => some (comparatorReleases ++ wakes ++ [.lcGen])
  | .lcArm .. => some (comparatorReleases ++ wakes ++ [.lcGen])
  | .lcDisarm .. => some (comparatorReleases ++ wakes ++ [.lcGen])
  | .lcFire .. => some (quadAligns ++ visitEnds ++ fields [.BURNISH_CAP_DONE_COUNT, .BURNISH_STATUS_CAPTURING, .TBASE_GSTB_CFG_ALIGNED,
      .TBASE_GSTB_CFG_ALIGN_ARM, .TBASE_GSTB_STAT_PENDING, .TBASE_LC_CTRL_ARM, .TBASE_LC_LATE] ++ [.cap, .commits, .lcs, .lcGen, .gstbs, .qry])
  | .qclkStart .. => some (errors ++ wakes ++ fields [.CTRL_ENABLE, .QCLK_ORIGIN_FRAC_FRAC, .QCLK_ORIGIN_HI_ORIGIN_HI,
      .QCLK_ORIGIN_LO_ORIGIN_LO, .QCLK_QCLK_STATUS_LOCKED, .QCLK_QCLK_STATUS_READY, .QCLK_QCLK_STATUS_STOPPED] ++ [.eff, .clocks, .wheels,
      .cses, .outs])
  | .qclkStop .. => some (visitEnds ++ errors ++ wakes ++ fields [.CTRL_ENABLE, .QCLK_QCLK_STATUS_LOCKED, .QCLK_QCLK_STATUS_STOPPED] ++
      [.clocks])
  | .qclkLocked .. => some (fields [.QCLK_QCLK_STATUS_LOCKED, .QCLK_QCLK_STATUS_READY])
  | .qclkResume .. => some (events ++ fields [.QCLK_MISSED_MISSED, .QCLK_QCLK_STATUS_STOPPED] ++ [.commits, .clocks, .wheels, .cses, .outs])
  | .qclkSettleDone .. => some (fields [.QCLK_QCLK_STATUS_SETTLING])
  | .lockLost .. => some (visitEnds ++ events ++ wakes ++ fields [.QCLK_QCLK_STATUS_LOCKED, .QCLK_QCLK_STATUS_READY,
      .QCLK_QCLK_STATUS_STOPPED] ++ [.clocks])
  | .spareCoverAssign .. => some (errors ++ wakes ++ fields [.QCLK_COVER_QUAD, .QCLK_COVER_VALID, .QCLK_ORIGIN_FRAC_FRAC,
      .QCLK_ORIGIN_HI_ORIGIN_HI, .QCLK_ORIGIN_LO_ORIGIN_LO, .QCLK_QCLK_STATUS_LOCKED, .QCLK_QCLK_STATUS_READY, .QCLK_QCLK_STATUS_STOPPED] ++
      [.eff])
  | .spareSynthReady => some (fields [.QCLK_QCLK_STATUS_LOCKED, .QCLK_QCLK_STATUS_READY])
  | .useSpareSet .. => some (errors ++ wakes ++ fields [.QCLK_QCLK_CFG_USE_SPARE] ++ [.clocks])
  | .rehomed .. => some (events ++ fields [.QCLK_QCLK_STATUS_ON_SPARE] ++ [.clocks, .sec])
  | .useSpareClear .. => some (errors ++ wakes ++ fields [.QCLK_QCLK_CFG_USE_SPARE] ++ [.clocks])
  | .rehomeBack .. => some (events ++ fields [.QCLK_QCLK_STATUS_LOCKED, .QCLK_QCLK_STATUS_ON_SPARE, .QCLK_QCLK_STATUS_READY] ++ [.clocks,
      .sec])
  | .gstbModeWrite .. => some (errors ++ wakes ++ fields [.TBASE_GSTB_CFG_ALIGN_ARM, .TBASE_GSTB_CFG_ALIGN_LC, .TBASE_GSTB_CFG_MODE,
      .TBASE_GSTB_CFG_SINGLE_LC, .TBASE_GSTB_STAT_PENDING] ++ [.gstbs])
  | .gstbStrobe .. => some (fields [.TBASE_GSTB_STAT_PENDING, .TBASE_GSTB_STAT_STROBES] ++ [.outs, .pins])
  | .tallySyncAcquire => some (fields [.TBASE_TB_STATUS_TALLY_SYNC])
  | .tallyLos => some (events ++ fields [.TBASE_TB_STATUS_TALLY_SYNC])
  | .tallyEpochFrame .. => some (quadAligns ++ visitEnds ++ wakes ++ fields [.BURNISH_CAP_DONE_COUNT, .BURNISH_STATUS_CAPTURING,
      .TBASE_GSTB_CFG_ALIGNED, .TBASE_GSTB_CFG_ALIGN_ARM, .TBASE_GSTB_STAT_PENDING, .TBASE_LC_CTRL_ARM, .TBASE_LC_LATE,
      .TBASE_TALLY_CNT_CRC_ERR, .TBASE_TALLY_CNT_DROPPED, .TBASE_TB_STATUS_EPOCH_ARMED, .TBASE_TB_STATUS_EPOCH_VALID] ++ [.now, .cap, .commits,
      .epoch, .lcs, .lcGen, .gstbs, .qry])
  | .tallyLaunchFrame .. => some (events ++ wakes ++ fields [.TBASE_LC_CTRL_ARM, .TBASE_LC_CTRL_FRAC, .TBASE_LC_LATE,
      .TBASE_LC_TIME_HI_C_HI, .TBASE_LC_TIME_LO_C_LO, .TBASE_TALLY_CNT_CRC_ERR, .TBASE_TALLY_CNT_DROPPED] ++ [.lcs, .lcGen])
  | .tallySpeedFrame .. => some (events ++ wakes ++ fields [.TBASE_TALLY_CNT_CRC_ERR, .TBASE_TALLY_CNT_DROPPED] ++ [.clocks])
  | .tallySpeedDeferred .. => some (events ++ [.clocks, .wheels])
  | .synthesisSample .. => some (mapErrors ++ errors ++ events ++ fields [.CSE_CLIP_CNT_CLIP, .CSE_DISCARD_CNT_DISCARD, .CSE_STATUS_IDLE,
      .OUT_FAULT_STAT_REPEAT_FAIL, .TACK_RING_UCNT_COUNT, .TACK_UNDERRUN] ++ [.holdoff, .clocks, .wheels, .cses, .rings, .outs])
  | .rampDone .. => some (events ++ [.wheels])
  | .slotDisable .. => some [.cses]
  | .patternEntryAdvance .. => some (patternNotes ++ [.cses])
  | .markerPulseEnd .. => some [.cses]
  | .playerFinish .. => some (fields [.CSE_STATUS_OPEN] ++ [.cses])
  | .channelIdleEnter .. => some (events ++ fields [.CSE_STATUS_IDLE, .CSE_STATUS_OPEN] ++ [.cses])
  | .playTime .. => some (memoryReads ++ fields [.CSE_CUR_DESC_KIND, .CSE_CUR_DESC_PRIO, .CSE_CUR_DESC_SEQ, .CSE_DISCARD_CNT_DISCARD,
      .CSE_LATE_CNT_LATE, .CSE_STATUS_IDLE, .CSE_STATUS_OPEN, .CSE_STATUS_RUNNING, .OUT_FAULT_STAT_REPEAT_FAIL, .TACK_FENCE_LAST_CH] ++ [.cap,
      .commits, .wheels, .cses, .queues, .rings])
  | .playAngle .. => some (memoryReads ++ fields [.CSE_CUR_DESC_KIND, .CSE_CUR_DESC_PRIO, .CSE_CUR_DESC_SEQ, .CSE_DISCARD_CNT_DISCARD,
      .CSE_LATE_CNT_LATE, .CSE_STATUS_IDLE, .CSE_STATUS_OPEN, .CSE_STATUS_RUNNING, .OUT_FAULT_STAT_REPEAT_FAIL, .TACK_FENCE_LAST_CH] ++ [.cap,
      .commits, .wheels, .cses, .queues, .rings])
  | .partials .. => some (memoryReads ++ fields [.CSE_CUR_DESC_KIND, .CSE_CUR_DESC_PRIO, .CSE_CUR_DESC_SEQ, .CSE_DISCARD_CNT_DISCARD,
      .CSE_LATE_CNT_LATE, .CSE_STATUS_IDLE, .CSE_STATUS_OPEN, .CSE_STATUS_RUNNING, .OUT_FAULT_STAT_REPEAT_FAIL, .TACK_FENCE_LAST_CH] ++ [.cap,
      .commits, .wheels, .cses, .queues, .rings])
  | .noise .. => some (memoryReads ++ fields [.CSE_CUR_DESC_KIND, .CSE_CUR_DESC_PRIO, .CSE_CUR_DESC_SEQ, .CSE_DISCARD_CNT_DISCARD,
      .CSE_LATE_CNT_LATE, .CSE_STATUS_IDLE, .CSE_STATUS_OPEN, .CSE_STATUS_RUNNING, .OUT_FAULT_STAT_REPEAT_FAIL, .TACK_FENCE_LAST_CH] ++ [.cap,
      .commits, .wheels, .cses, .queues, .rings])
  | .level .. => some (memoryReads ++ fields [.CSE_CUR_DESC_KIND, .CSE_CUR_DESC_PRIO, .CSE_CUR_DESC_SEQ, .CSE_DISCARD_CNT_DISCARD,
      .CSE_LATE_CNT_LATE, .CSE_STATUS_IDLE, .CSE_STATUS_OPEN, .CSE_STATUS_RUNNING, .OUT_FAULT_STAT_REPEAT_FAIL, .TACK_FENCE_LAST_CH] ++ [.cap,
      .commits, .wheels, .cses, .queues, .rings])
  | .descRamp .. => some (memoryReads ++ fields [.CSE_CUR_DESC_KIND, .CSE_CUR_DESC_PRIO, .CSE_CUR_DESC_SEQ, .CSE_DISCARD_CNT_DISCARD,
      .CSE_LATE_CNT_LATE, .CSE_STATUS_IDLE, .CSE_STATUS_OPEN, .CSE_STATUS_RUNNING, .OUT_FAULT_STAT_REPEAT_FAIL, .TACK_FENCE_LAST_CH] ++ [.cap,
      .commits, .wheels, .cses, .queues, .rings])
  | .pattern .. => some (memoryReads ++ fields [.CSE_CUR_DESC_KIND, .CSE_CUR_DESC_PRIO, .CSE_CUR_DESC_SEQ, .CSE_DISCARD_CNT_DISCARD,
      .CSE_LATE_CNT_LATE, .CSE_STATUS_IDLE, .CSE_STATUS_OPEN, .CSE_STATUS_RUNNING, .OUT_FAULT_STAT_REPEAT_FAIL, .TACK_FENCE_LAST_CH] ++ [.cap,
      .commits, .wheels, .cses, .queues, .rings])
  | .descSpeed .. => some (memoryReads ++ fields [.CSE_CUR_DESC_KIND, .CSE_CUR_DESC_PRIO, .CSE_CUR_DESC_SEQ, .CSE_DISCARD_CNT_DISCARD,
      .CSE_LATE_CNT_LATE, .CSE_STATUS_IDLE, .CSE_STATUS_OPEN, .CSE_STATUS_RUNNING, .OUT_FAULT_STAT_REPEAT_FAIL, .TACK_FENCE_LAST_CH] ++ [.cap,
      .commits, .wheels, .cses, .queues, .rings])
  | .descMark .. => some (memoryReads ++ fields [.CSE_CUR_DESC_KIND, .CSE_CUR_DESC_PRIO, .CSE_CUR_DESC_SEQ, .CSE_DISCARD_CNT_DISCARD,
      .CSE_LATE_CNT_LATE, .CSE_STATUS_IDLE, .CSE_STATUS_OPEN, .CSE_STATUS_RUNNING, .OUT_FAULT_STAT_REPEAT_FAIL, .TACK_FENCE_LAST_CH] ++ [.cap,
      .commits, .wheels, .cses, .queues, .rings])
  | .idle .. => some (memoryReads ++ fields [.CSE_CUR_DESC_KIND, .CSE_CUR_DESC_PRIO, .CSE_CUR_DESC_SEQ, .CSE_DISCARD_CNT_DISCARD,
      .CSE_LATE_CNT_LATE, .CSE_STATUS_IDLE, .CSE_STATUS_OPEN, .CSE_STATUS_RUNNING, .OUT_FAULT_STAT_REPEAT_FAIL, .TACK_FENCE_LAST_CH] ++ [.cap,
      .commits, .wheels, .cses, .queues, .rings])
  | .fence .. => some (memoryReads ++ fields [.CSE_CUR_DESC_KIND, .CSE_CUR_DESC_PRIO, .CSE_CUR_DESC_SEQ, .CSE_DISCARD_CNT_DISCARD,
      .CSE_LATE_CNT_LATE, .CSE_STATUS_IDLE, .CSE_STATUS_OPEN, .CSE_STATUS_RUNNING, .OUT_FAULT_STAT_REPEAT_FAIL, .TACK_FENCE_LAST_CH] ++ [.cap,
      .commits, .wheels, .cses, .queues, .rings])
  | .allocWrite .. => some (errors ++ events ++ wakes ++ fields [.CSE_ALLOC_EFF_PART_EFF, .CSE_ALLOC_EFF_PLAYERS_EFF, .CSE_ALLOC_PART_MAX,
      .CSE_ALLOC_PLAYERS, .CSE_STATUS_BUDGET_CLAMP])
  | .cseEnableWrite .. => some (errors ++ wakes ++ fields [.CSE_STATUS_RUNNING, .CTRL_ENABLE] ++ [.cses, .outs])
  | .cseSoftReset .. => some (errors ++ wakes ++ fields [.CSE_CUR_DESC_KIND, .CSE_CUR_DESC_PRIO, .CSE_CUR_DESC_SEQ, .CSE_STATUS_IDLE,
      .CSE_STATUS_OPEN, .CSE_STATUS_RUNNING, .SHADOW_CMD_PENDING] ++ [.commits, .cses])
  | .pwrReqWrite .. => some (errors ++ wakes ++ fields [.CSE_CUR_DESC_KIND, .CSE_CUR_DESC_PRIO, .CSE_CUR_DESC_SEQ, .CSE_STATUS_IDLE,
      .CSE_STATUS_OPEN, .CSE_STATUS_RUNNING, .CTRL_ENABLE, .CTRL_PWR_REQ, .SHADOW_CMD_PENDING, .STITCH_EVIN_IGNORED_COUNT, .STITCH_FAULT_CAUSE,
      .STITCH_FAULT_PC, .STITCH_GANG_READY_READY, .STITCH_PUSH_CNT_COUNT, .STITCH_STALL_CNT_COUNT, .STITCH_STATUS_CREDIT_WAIT,
      .STITCH_STATUS_FAULTED, .STITCH_STATUS_GANG_WAIT, .STITCH_STATUS_HALTED, .STITCH_STATUS_MC_BANK, .STITCH_STATUS_MC_PENDING,
      .STITCH_STATUS_RUNNING, .STITCH_STATUS_WAIT_EVENT, .STITCH_STATUS_WAIT_TIME] ++ [.commits, .cses, .stitchers, .outs])
  | .stitchEnable .. => some (errors ++ wakes ++ fields [.CTRL_ENABLE, .STITCH_EVIN_LATCHED_LATCHED, .STITCH_GANG_READY_READY,
      .STITCH_STATUS_CREDIT_WAIT, .STITCH_STATUS_FAULTED, .STITCH_STATUS_GANG_WAIT, .STITCH_STATUS_HALTED, .STITCH_STATUS_RUNNING,
      .STITCH_STATUS_WAIT_EVENT, .STITCH_STATUS_WAIT_TIME] ++ [.cses, .stitchers, .outs])
  | .stitchDisable .. => some (errors ++ wakes ++ fields [.CTRL_ENABLE, .STITCH_EVIN_LATCHED_LATCHED, .STITCH_GANG_READY_READY,
      .STITCH_STATUS_CREDIT_WAIT, .STITCH_STATUS_FAULTED, .STITCH_STATUS_GANG_WAIT, .STITCH_STATUS_HALTED, .STITCH_STATUS_RUNNING,
      .STITCH_STATUS_WAIT_EVENT, .STITCH_STATUS_WAIT_TIME] ++ [.cses, .stitchers, .outs])
  | .stitchSoftReset .. => some (errors ++ wakes ++ fields [.CTRL_ENABLE, .SHADOW_CMD_PENDING, .STITCH_EVIN_IGNORED_COUNT,
      .STITCH_FAULT_CAUSE, .STITCH_FAULT_PC, .STITCH_GANG_READY_READY, .STITCH_PUSH_CNT_COUNT, .STITCH_STALL_CNT_COUNT,
      .STITCH_STATUS_CREDIT_WAIT, .STITCH_STATUS_FAULTED, .STITCH_STATUS_GANG_WAIT, .STITCH_STATUS_HALTED, .STITCH_STATUS_MC_BANK,
      .STITCH_STATUS_MC_PENDING, .STITCH_STATUS_RUNNING, .STITCH_STATUS_WAIT_EVENT, .STITCH_STATUS_WAIT_TIME] ++ [.commits, .cses, .stitchers,
      .outs])
  | .instructionFetch .. => some (patternNotes ++ gangCommits)
  | .nop .. => some [.stitchers]
  | .halt .. => some (events ++ fields [.STITCH_STATUS_HALTED, .STITCH_STATUS_RUNNING] ++ [.stitchers])
  | .play .. => some (patternNotes ++ gangAborts ++ fields [.STITCH_PUSH_CNT_COUNT, .STITCH_STALL_CNT_COUNT])
  | .playa .. => some (patternNotes ++ gangAborts ++ fields [.STITCH_PUSH_CNT_COUNT, .STITCH_STALL_CNT_COUNT])
  | .hold .. => some (patternNotes ++ gangAborts ++ fields [.STITCH_PUSH_CNT_COUNT, .STITCH_STALL_CNT_COUNT])
  | .mark .. => some (patternNotes ++ gangAborts ++ fields [.STITCH_PUSH_CNT_COUNT, .STITCH_STALL_CNT_COUNT])
  | .speed .. => some (patternNotes ++ gangAborts ++ fields [.STITCH_PUSH_CNT_COUNT, .STITCH_STALL_CNT_COUNT])
  | .ramp .. => some (patternNotes ++ gangAborts ++ fields [.STITCH_PUSH_CNT_COUNT, .STITCH_STALL_CNT_COUNT])
  | .creditWaitEnd .. => some (patternNotes ++ gangAborts ++ fields [.STITCH_PUSH_CNT_COUNT, .STITCH_STALL_CNT_COUNT])
  | .loop .. => some gangCommits
  | .endl .. => some gangCommits
  | .call .. => some gangCommits
  | .ret .. => some gangCommits
  | .jev .. => some (gangAborts ++ fields [.STITCH_EVIN_LATCHED_LATCHED, .TACK_QLEVEL_FLUSH_BUSY] ++ [.staging])
  | .waitt .. => some gangCommits
  | .waittResume .. => some (fields [.STITCH_STATUS_CREDIT_WAIT, .STITCH_STATUS_GANG_WAIT, .STITCH_STATUS_WAIT_EVENT,
      .STITCH_STATUS_WAIT_TIME] ++ [.stitchers])
  | .waite .. => some (fields [.STITCH_EVIN_LATCHED_LATCHED, .STITCH_STATUS_WAIT_EVENT, .TACK_QLEVEL_FLUSH_BUSY] ++ [.cses, .stitchers,
      .queues, .staging])
  | .waiteTimeout .. => some (gangAborts ++ fields [.TACK_QLEVEL_FLUSH_BUSY] ++ [.staging])
  | .arm .. => some (memoryReads ++ gangCommits ++ fields [.CSE_DISCARD_CNT_DISCARD, .CSE_LATE_CNT_LATE] ++ [.rings])
  | .disarm .. => some [.cses, .stitchers, .outs]
  | .emit .. => some [.presented, .stitchers]
  | .gangReady .. => some (fields [.STITCH_GANG_READY_READY] ++ [.stitchers])
  | .gangCommit .. => some gangCommits
  | .gangCommitPoint .. => some (gangAborts ++ fields [.STITCH_GANG_STAT_GANG])
  | .gangPrepareTimeout .. => some (gangCommits ++ fields [.STITCH_GANG_STAT_FAIL_QUADS, .STITCH_GANG_STAT_GANG, .STITCH_GANG_STAT_REASON])
  | .gangAbort .. => some gangAborts
  | .gangWaitc .. => some gangCommits
  | .stitcherEventInput .. => some (events ++ fields [.HARNESS_CAPU_CFG_OVR, .HARNESS_GSTB_OVR_OVR, .HARNESS_LCNT_OVR_OVERRUN,
      .HARNESS_LINE_STAT_PENDING, .HARNESS_SOVR_OVR, .PAT_PAT_OVR_OVR, .STITCH_EVIN_IGNORED_COUNT, .STITCH_EVIN_LATCHED_LATCHED,
      .STITCH_STATUS_CREDIT_WAIT, .STITCH_STATUS_GANG_WAIT, .STITCH_STATUS_WAIT_EVENT, .STITCH_STATUS_WAIT_TIME, .TACK_QLEVEL_FLUSH_BUSY] ++
      [.cses, .stitchers, .queues, .staging, .lines, .evin])
  | .armedSwitch .. => some (gangAborts ++ fields [.CSE_CUR_DESC_KIND, .CSE_CUR_DESC_PRIO, .CSE_CUR_DESC_SEQ, .CSE_STATUS_IDLE,
      .CSE_STATUS_OPEN, .CSE_STATUS_RUNNING, .OUT_FAULT_STAT_REPEAT_FAIL, .STITCH_GANG_STAT_REASON, .STITCH_STATUS_HALTED,
      .TACK_QLEVEL_FLUSH_BUSY] ++ [.cap, .commits, .staging, .rings])
  | .lcGrantWrite .. => some (errors ++ wakes ++ fields [.STITCH_LC_GRANT])
  | .evinLatchClear .. => some (errors ++ wakes ++ fields [.STITCH_EVIN_LATCHED_LATCHED])
  | .mcSwitchReq .. => some (errors ++ wakes ++ fields [.STITCH_STATUS_MC_PENDING] ++ [.stitchers])
  | .mcSwitch .. => some (events ++ fields [.STITCH_MC_VER_ACTIVE, .STITCH_MC_VER_INACTIVE, .STITCH_STATUS_MC_BANK,
      .STITCH_STATUS_MC_PENDING] ++ [.stitchers])
  | .pushWinWord .. => some (errors ++ events ++ wakes ++ fields [.TACK_PUSH_STAT_DISCARDING, .TACK_PUSH_STAT_LAST_SEQ,
      .TACK_PUSH_STAT_OPEN, .TACK_PUSH_STAT_REFUSED, .TACK_PUSH_STAT_WORDS_LEFT, .TACK_QLEVEL_FLUSH_BUSY] ++ [.queues, .staging])
  | .pushAbort .. => some (errors ++ wakes ++ fields [.TACK_PUSH_STAT_DISCARDING, .TACK_PUSH_STAT_OPEN, .TACK_PUSH_STAT_WORDS_LEFT,
      .TACK_QLEVEL_FLUSH_BUSY] ++ [.staging])
  | .qcfgWrite .. => some (errors ++ wakes ++ fields [.TACK_QCFG_CRED_REG, .TACK_QCFG_CRED_STITCH, .TACK_QCFG_FMODE])
  | .headSlotFetch .. => some (events ++ fields [.TACK_CNT_LINK_CORRECTED, .TACK_CNT_LINK_FAILED, .TACK_CNT_POISON_COUNT,
      .TACK_QLEVEL_BROKEN, .TACK_STATUS_SWEEP] ++ [.queues])
  | .linkSweepDone => some (fields [.TACK_QLEVEL_BROKEN, .TACK_STATUS_SWEEP] ++ [.queues])
  | .queueDrop .. => some (errors ++ wakes ++ [.cses, .queues])
  | .queueFlush .. => some (errors ++ wakes ++ fields [.TACK_QLEVEL_FLUSH_BUSY] ++ [.cses, .stitchers, .queues, .staging])
  | .packetTorn .. => some (events ++ fields [.TACK_CNT_TORN_COUNT, .TACK_PUSH_STAT_DISCARDING, .TACK_PUSH_STAT_OPEN,
      .TACK_PUSH_STAT_TORN, .TACK_QLEVEL_FLUSH_BUSY] ++ [.staging])
  | .tackSoftReset .. => some (errors ++ wakes ++ fields [.TACK_PUSH_STAT_DISCARDING, .TACK_PUSH_STAT_OPEN, .TACK_PUSH_STAT_WORDS_LEFT,
      .TACK_QLEVEL_BROKEN, .TACK_QLEVEL_FLUSH_BUSY, .TACK_STATUS_SWEEP] ++ [.cses, .queues, .staging, .rings])
  | .ringEnable .. => some (errors ++ wakes ++ fields [.TACK_RING_CFG_EN, .TACK_RING_CFG_SIZE_LOG, .TACK_RING_CFG_SPLIT] ++ [.cses, .rings])
  | .ringDisable .. => some (errors ++ wakes ++ fields [.TACK_RING_CFG_EN, .TACK_RING_CFG_SIZE_LOG, .TACK_RING_CFG_SPLIT] ++ [.cses,
      .rings])
  | .ringRefill .. => some (memoryWrites ++ fields [.CSE_DISCARD_CNT_DISCARD, .CSE_LATE_CNT_LATE, .TACK_SPILL] ++ [.cses, .rings, .missed])
  | .outEnableWrite .. => some (spanStarts ++ errors ++ events ++ wakes ++ fields [.CTRL_ENABLE, .OUT_STATUS_FALLBACK])
  | .outSoftReset .. => some (spanStarts ++ errors ++ events ++ wakes ++ fields [.CTRL_ENABLE, .OUT_FAULT_CTL_FORCE,
      .OUT_FAULT_STAT_CORE_LOST, .OUT_FAULT_STAT_FORCED, .OUT_FAULT_STAT_REPEAT_FAIL, .OUT_FAULT_STAT_SQ_UNDERRUN, .OUT_FAULT_STAT_WATCHDOG,
      .OUT_NVM_STAT_ERR, .OUT_NV_FAULT_VAL, .OUT_NV_SAFE_VAL, .OUT_NV_WAKE_SPAN, .OUT_NV_WAKE_VAL, .OUT_STAGECTL_PREFER, .OUT_STATUS_FALLBACK,
      .OUT_STATUS_HIGHZ, .OUT_STATUS_NVM_BAD, .SHADOW_CMD_PENDING] ++ [.commits])
  | .stageTrackingFault .. => some (visitEnds ++ events ++ fields [.OUT_STAGE_STAT_A_FAILED, .OUT_STAGE_STAT_B_FAILED, .OUT_STATUS_HIGHZ]
      ++ [.outs])
  | .stageBiasFault .. => some (visitEnds ++ events ++ fields [.OUT_STAGE_STAT_A_FAILED, .OUT_STAGE_STAT_B_FAILED, .OUT_STATUS_HIGHZ] ++
      [.outs])
  | .stageSwitchReq .. => some (errors ++ wakes ++ fields [.OUT_STAGE_STAT_REQ_REFUSED] ++ [.outs])
  | .stageSwitchover .. => some (events ++ fields [.OUT_STAGE_STAT_LAST_CAUSE, .OUT_STAGE_STAT_SWITCH_CNT, .OUT_STATUS_STAGE] ++ [.outs])
  | .senseFault .. => some (events ++ fields [.OUT_STATUS_SENSE_LOCAL] ++ [.outs])
  | .currentLimitEnter .. => some (fields [.OUT_STATUS_IN_LIMIT] ++ [.outs])
  | .foldback .. => some (events ++ fields [.OUT_SC_CNT_SHORTS, .OUT_STATUS_FOLDBACK] ++ [.outs])
  | .scClr .. => some (errors ++ wakes ++ [.outs])
  | .foldbackRetry .. => some [.outs]
  | .foldbackEnd .. => some (fields [.OUT_STATUS_FOLDBACK] ++ [.outs])
  | .overtemp .. => some (events ++ fields [.OUT_SC_CNT_OVERTEMPS, .OUT_STATUS_FOLDBACK, .OUT_STATUS_OVERTEMP] ++ [.outs])
  | .overtempClear .. => some (fields [.OUT_STATUS_OVERTEMP] ++ [.outs])
  | .nvmProgram .. => some (errors ++ wakes ++ fields [.OUT_NVM_STAT_BUSY, .OUT_NVM_STAT_ERR] ++ [.outs, .nvmQueue])
  | .nvmReload .. => some (errors ++ wakes ++ fields [.OUT_NVM_STAT_BUSY, .OUT_NVM_STAT_ERR] ++ [.outs, .nvmQueue])
  | .nvmDone .. => some (visitEnds ++ events ++ wakes ++ fields [.OUT_NVM_STAT_BUSY, .OUT_NVM_STAT_CYCLES, .OUT_NVM_STAT_DONE,
      .OUT_NVM_STAT_ERR, .OUT_NV_FAULT_VAL, .OUT_NV_SAFE_VAL, .OUT_NV_WAKE_SPAN, .OUT_NV_WAKE_VAL, .OUT_STAGECTL_PREFER, .OUT_STATUS_HIGHZ,
      .OUT_STATUS_NVM_BAD, .OUT_STATUS_SPAN_NOW] ++ [.outs, .nvmQueue])
  | .nvValueWrite .. => some (errors ++ events ++ wakes ++ fields [.OUT_NV_FAULT_VAL, .OUT_NV_SAFE_VAL, .OUT_NV_WAKE_SPAN,
      .OUT_NV_WAKE_VAL] ++ [.outs])
  | .faultForceWrite .. => some (errors ++ wakes ++ fields [.OUT_FAULT_CTL_FORCE, .OUT_FAULT_STAT_FORCED] ++ [.outs])
  | .faultClear .. => some (errors ++ wakes ++ fields [.OUT_FAULT_STAT_SQ_UNDERRUN, .OUT_FAULT_STAT_WATCHDOG])
  | .faultEnter .. => some (spanStarts ++ events ++ wakes ++ fields [.OUT_STATUS_FALLBACK])
  | .faultExit .. => some (spanStarts ++ events ++ fields [.OUT_STATUS_FALLBACK])
  | .spanSlewEnd .. => some (events ++ [.outs])
  | .spanHoldEnd .. => some [.outs]
  | .spanSwitchDone .. => some (events ++ fields [.OUT_STATUS_SPAN_NOW] ++ [.outs])
  | .spanSettleEnd .. => some (events ++ fields [.OUT_STATUS_SPAN_BUSY] ++ [.outs])
  | .spanRelease .. => some (events ++ fields [.OUT_STATUS_SPAN_BUSY] ++ [.outs])
  | .powerGoodRise .. => some (fields [.XSPI_STATUS_VIO_18] ++ [.dev, .addrPins])
  | .powerupNvmLoaded .. => some (visitEnds ++ events ++ fields [.BENCH_STATUS_SPARE_FREE, .OUT_NVM_STAT_ERR, .OUT_NV_FAULT_VAL,
      .OUT_NV_SAFE_VAL, .OUT_NV_WAKE_SPAN, .OUT_NV_WAKE_VAL, .OUT_STAGECTL_PREFER, .OUT_STATUS_HIGHZ, .OUT_STATUS_NVM_BAD,
      .POWER_LIFE_CYCLES_PWRGD, .POWER_LIFE_CYCLES_THERMAL, .POWER_LIFE_HOURS_HOURS, .SPARE_CORE_MAP, .SPARE_CORE_STATE_ROLE,
      .SPARE_SKIP_SUSPECT, .SPARE_STAGE_TRIM_GAIN, .SPARE_STAGE_TRIM_OFFSET, .SPARE_STATUS_SPARE_CORE, .SPARE_STATUS_SPARE_FREE] ++ [.dev,
      .outs, .sec, .pwr])
  | .powerupRefSettled => some (events ++ fields [.OUT_SPANCTL_SPAN, .OUT_STATUS_SPAN_NOW] ++ [.eff, .outs, .pwr])
  | .powerupStageBiased => some (fields [.OUT_STATUS_STAGE] ++ [.pwr])
  | .powerupSwitchClose => some (events ++ fields [.OUT_STATUS_HIGHZ] ++ [.outs, .pwr])
  | .powerupWakeReached => some [.pwr]
  | .rotationStart .. => some (events ++ fields [.BURNISH_STATUS_ROTATING, .SPARE_MON_DEV_GAIN, .SPARE_MON_DEV_OFFSET,
      .SPARE_STATUS_PHASE, .SPARE_STATUS_VISIT_POS] ++ [.tiers, .free])
  | .visitReq .. => some (errors ++ wakes ++ fields [.BURNISH_STATUS_ROTATING, .SPARE_STATUS_VISIT_POS] ++ [.tiers])
  | .shadowStart .. => some visitEnds
  | .matchStart .. => some visitEnds
  | .matchDecision .. => some (visitEnds ++ events ++ wakes ++ fields [.OUT_FAULT_STAT_CORE_LOST, .OUT_STATUS_FALLBACK,
      .SPARE_MATCH_RES_GAIN, .SPARE_MATCH_RES_OFFSET, .SPARE_SKIP_SUSPECT, .SPARE_STATUS_FAILOVER_BUSY] ++ [.outs])
  | .handover .. => some (visitEnds ++ events ++ fields [.OUT_STATUS_CORE_SPARE, .SPARE_CORE_STATE_ROLE, .SPARE_STAGE_TRIM_GAIN,
      .SPARE_STAGE_TRIM_OFFSET, .SPARE_STATUS_CAL_CORE, .SPARE_STATUS_SPARE_FREE])
  | .calMeasureDone .. => some (fields [.SPARE_STATUS_PHASE] ++ [.tiers])
  | .calSolveDone .. => some (visitEnds ++ events ++ fields [.BURNISH_ROT_CNT_COUNT, .OUT_FAULT_STAT_CORE_LOST, .OUT_STATUS_CORE_SPARE,
      .OUT_STATUS_FALLBACK, .SPARE_CORE_MAP, .SPARE_CORE_STATE_ROLE, .SPARE_FAIL_CNT_RETIRES, .SPARE_RESIDUAL_COVERAGE,
      .SPARE_RESIDUAL_LADDER_COV, .SPARE_STATUS_CAL_CORE, .SPARE_STATUS_FAILOVER_BUSY, .SPARE_STATUS_SPARE_CORE, .SPARE_STATUS_SPARE_FREE] ++
      [.outs])
  | .calVerifyDone .. => some (visitEnds ++ events ++ fields [.BURNISH_ROT_CNT_COUNT, .OUT_FAULT_STAT_CORE_LOST, .OUT_STATUS_CORE_SPARE,
      .OUT_STATUS_FALLBACK, .SPARE_CAL_COUNT_COUNT, .SPARE_CORE_MAP, .SPARE_CORE_STATE_ROLE, .SPARE_FAIL_CNT_RETIRES, .SPARE_RESIDUAL_INL_EST,
      .SPARE_STATUS_CAL_CORE, .SPARE_STATUS_FAILOVER_BUSY, .SPARE_STATUS_SPARE_CORE, .SPARE_STATUS_SPARE_FREE] ++ [.outs])
  | .referenceFrame .. => some (events ++ fields [.BURNISH_REF_DEV_PPM, .BURNISH_STATUS_REF_OK] ++ [.tiers, .free])
  | .coreHealthFault .. => some (visitEnds ++ events ++ wakes ++ fields [.OUT_FAULT_STAT_CORE_LOST, .OUT_STATUS_CORE_SPARE,
      .OUT_STATUS_FALLBACK, .SPARE_CORE_MAP, .SPARE_CORE_STATE_ROLE, .SPARE_FAIL_CNT_RETIRES, .SPARE_STATUS_CAL_CORE,
      .SPARE_STATUS_FAILOVER_BUSY, .SPARE_STATUS_SPARE_CORE, .SPARE_STATUS_SPARE_FREE] ++ [.outs])
  | .failoverReq .. => some (visitEnds ++ errors ++ wakes ++ fields [.OUT_FAULT_STAT_CORE_LOST, .OUT_STATUS_FALLBACK,
      .SPARE_STATUS_FAILOVER_BUSY] ++ [.outs])
  | .failoverSwitch .. => some (events ++ fields [.OUT_FAULT_STAT_CORE_LOST, .OUT_STATUS_FALLBACK, .SPARE_CORE_MAP,
      .SPARE_CORE_STATE_ROLE, .SPARE_FAIL_CNT_FAILOVERS, .SPARE_FAIL_CNT_RETIRES, .SPARE_LAST_FAIL_CAUSE, .SPARE_LAST_FAIL_CORE,
      .SPARE_LAST_FAIL_POS, .SPARE_STATUS_CAL_CORE, .SPARE_STATUS_FAILOVER_BUSY, .SPARE_STATUS_PHASE, .SPARE_STATUS_SPARE_CORE,
      .SPARE_STATUS_SPARE_FREE, .SPARE_STATUS_VISIT_POS] ++ [.outs, .tiers])
  | .calibrationAbandon .. => some (visitEnds ++ events ++ fields [.OUT_FAULT_STAT_CORE_LOST, .OUT_STATUS_CORE_SPARE,
      .OUT_STATUS_FALLBACK, .SPARE_CORE_STATE_ROLE, .SPARE_FAIL_CNT_FAILOVERS, .SPARE_FAIL_CNT_RETIRES, .SPARE_LAST_FAIL_CAUSE,
      .SPARE_LAST_FAIL_CORE, .SPARE_LAST_FAIL_POS, .SPARE_STATUS_CAL_CORE, .SPARE_STATUS_FAILOVER_BUSY, .SPARE_STATUS_SPARE_CORE,
      .SPARE_STATUS_SPARE_FREE] ++ [.outs])
  | .captureStart .. => some (visitEnds ++ errors ++ wakes ++ fields [.BURNISH_CAP_CTRL_AT_LC, .BURNISH_CAP_CTRL_BUSY,
      .BURNISH_CAP_CTRL_CAP_LC, .BURNISH_CAP_CTRL_CAP_SRC, .BURNISH_CAP_CTRL_REFUSED, .BURNISH_CAP_DONE_COUNT, .BURNISH_STATUS_CAPTURING])
  | .captureAbort .. => some (errors ++ wakes ++ fields [.BURNISH_CAP_CTRL_BUSY] ++ [.tiers])
  | .captureSample .. => some (patternNotes ++ fields [.BURNISH_CAP_CTRL_BUSY, .BURNISH_CAP_DONE_COUNT, .BURNISH_STATUS_CAPTURING,
      .SPARE_STATUS_PHASE] ++ [.mem, .tiers])
  | .capEnd .. => some (events ++ fields [.BURNISH_CAP_CTRL_BUSY, .BURNISH_STATUS_CAPTURING, .SPARE_STATUS_PHASE] ++ [.tiers])
  | .burnishSaveNow .. => some (errors ++ wakes ++ fields [.BURNISH_STATUS_NVM_SAVING] ++ [.tiers, .trimDue])
  | .coreMapWrite .. => some (events ++ [.tiers])
  | .trimSaveTimer => some (events ++ fields [.BURNISH_STATUS_NVM_SAVING] ++ [.tiers, .trimSaved, .trimDue])
  | .lineFire .. => some (events ++ wakes ++ fields [.HARNESS_CAPU_CFG_LEVEL, .HARNESS_CAPU_CFG_OVR, .HARNESS_GSTB_OVR_OVR,
      .HARNESS_LCNT_FIRED_FIRED, .HARNESS_LCNT_MERGE_COINCIDENT, .HARNESS_LCNT_MERGE_SUPPRESSED, .HARNESS_LCNT_OVR_OVERRUN,
      .HARNESS_LINE_STAT_LAST_SLOTS, .HARNESS_LINE_STAT_PENDING, .HARNESS_LINE_STAT_STORM, .HARNESS_SOVR_OVR, .PAT_PAT_OVR_OVR,
      .TBASE_GSTB_STAT_PENDING] ++ [.gstbs, .lines, .pins, .capus, .evin])
  | .lineRearm .. => some [.lines]
  | .stormWindowStart .. => some [.lines]
  | .stormClear .. => some (errors ++ wakes ++ fields [.HARNESS_LINE_STAT_STORM] ++ [.lines])
  | .rememberedDeliver .. => some (events ++ fields [.HARNESS_CAPU_CFG_LEVEL, .HARNESS_LINE_STAT_PENDING, .TBASE_GSTB_STAT_PENDING] ++
      [.gstbs, .lines, .pins, .capus, .evin])
  | .lineClaim .. => some (errors ++ events ++ wakes ++ fields [.HARNESS_CAPU_CFG_CLAIMED, .HARNESS_CAPU_CFG_LEVEL, .HARNESS_CAPU_CFG_OVR,
      .HARNESS_CAPU_CFG_OWNER, .HARNESS_GSTB_OVR_OVR, .HARNESS_LCNT_OVR_OVERRUN, .HARNESS_LINE_CFG_CLAIMED, .HARNESS_LINE_CFG_DST,
      .HARNESS_LINE_CFG_EN, .HARNESS_LINE_CFG_OWNER, .HARNESS_LINE_CFG_REARM, .HARNESS_LINE_CFG_SEC, .HARNESS_LINE_CFG_SPROF,
      .HARNESS_LINE_CFG_SVC, .HARNESS_LINE_SRC_SLOT, .HARNESS_LINE_STAT_PENDING, .HARNESS_LINE_STAT_STORM, .HARNESS_SOVR_OVR, .PAT_PAT_OVR_OVR,
      .PAT_PIN_CFG_CH, .PAT_PIN_CFG_CLAIMED, .PAT_PIN_CFG_DRIVE, .PAT_PIN_CFG_EDGE, .PAT_PIN_CFG_FILT, .PAT_PIN_CFG_FUNC, .PAT_PIN_CFG_GSTB,
      .PAT_PIN_CFG_INVERT, .PAT_PIN_CFG_ODRAIN, .PAT_PIN_CFG_OMODE, .PAT_PIN_CFG_OWNER, .PAT_PIN_PULSE_PULSE] ++ [.lines, .pins, .capus])
  | .lineRelease .. => some (errors ++ events ++ wakes ++ fields [.HARNESS_CAPU_CFG_CLAIMED, .HARNESS_CAPU_CFG_LEVEL,
      .HARNESS_CAPU_CFG_OVR, .HARNESS_CAPU_CFG_OWNER, .HARNESS_GSTB_OVR_OVR, .HARNESS_LCNT_OVR_OVERRUN, .HARNESS_LINE_CFG_CLAIMED,
      .HARNESS_LINE_CFG_DST, .HARNESS_LINE_CFG_EN, .HARNESS_LINE_CFG_OWNER, .HARNESS_LINE_CFG_REARM, .HARNESS_LINE_CFG_SEC,
      .HARNESS_LINE_CFG_SPROF, .HARNESS_LINE_CFG_SVC, .HARNESS_LINE_SRC_SLOT, .HARNESS_LINE_STAT_PENDING, .HARNESS_LINE_STAT_STORM,
      .HARNESS_SOVR_OVR, .PAT_PAT_OVR_OVR, .PAT_PIN_CFG_CH, .PAT_PIN_CFG_CLAIMED, .PAT_PIN_CFG_DRIVE, .PAT_PIN_CFG_EDGE, .PAT_PIN_CFG_FILT,
      .PAT_PIN_CFG_FUNC, .PAT_PIN_CFG_GSTB, .PAT_PIN_CFG_INVERT, .PAT_PIN_CFG_ODRAIN, .PAT_PIN_CFG_OMODE, .PAT_PIN_CFG_OWNER,
      .PAT_PIN_PULSE_PULSE] ++ [.lines, .pins, .capus])
  | .lineCfgWrite .. => some (errors ++ events ++ wakes ++ fields [.HARNESS_CAPU_CFG_CLAIMED, .HARNESS_CAPU_CFG_LEVEL,
      .HARNESS_CAPU_CFG_OVR, .HARNESS_CAPU_CFG_OWNER, .HARNESS_GSTB_OVR_OVR, .HARNESS_LCNT_OVR_OVERRUN, .HARNESS_LINE_CFG_CLAIMED,
      .HARNESS_LINE_CFG_DST, .HARNESS_LINE_CFG_EN, .HARNESS_LINE_CFG_OWNER, .HARNESS_LINE_CFG_REARM, .HARNESS_LINE_CFG_SEC,
      .HARNESS_LINE_CFG_SPROF, .HARNESS_LINE_CFG_SVC, .HARNESS_LINE_SRC_SLOT, .HARNESS_LINE_STAT_PENDING, .HARNESS_LINE_STAT_STORM,
      .HARNESS_SOVR_OVR, .PAT_PAT_OVR_OVR, .PAT_PIN_CFG_CH, .PAT_PIN_CFG_CLAIMED, .PAT_PIN_CFG_DRIVE, .PAT_PIN_CFG_EDGE, .PAT_PIN_CFG_FILT,
      .PAT_PIN_CFG_FUNC, .PAT_PIN_CFG_GSTB, .PAT_PIN_CFG_INVERT, .PAT_PIN_CFG_ODRAIN, .PAT_PIN_CFG_OMODE, .PAT_PIN_CFG_OWNER,
      .PAT_PIN_PULSE_PULSE] ++ [.lines, .pins, .capus])
  | .lineSrcWrite .. => some (errors ++ wakes ++ fields [.HARNESS_LINE_SRC_SLOT] ++ [.lines])
  | .loopRecompute => some (events ++ fields [.HARNESS_LINE_STAT_LOOP, .HARNESS_STATUS_LOOP_PRESENT] ++ [.lines])
  | .hostTrig .. => some (errors ++ wakes ++ [.presented])
  | .svcModeWrite .. => some (errors ++ events ++ wakes ++ fields [.HARNESS_CAPU_CFG_OVR, .HARNESS_GSTB_OVR_OVR,
      .HARNESS_LCNT_OVR_OVERRUN, .HARNESS_LINE_STAT_PENDING, .HARNESS_SOVR_OVR, .HARNESS_SVC_CTL_FORCE_HOLD, .PAT_PAT_OVR_OVR] ++ [.lines])
  | .patInputEdge .. => some [.presented, .pins]
  | .pinClaim .. => some (errors ++ wakes ++ fields [.PAT_PIN_CFG_CH, .PAT_PIN_CFG_CLAIMED, .PAT_PIN_CFG_DRIVE, .PAT_PIN_CFG_EDGE,
      .PAT_PIN_CFG_FILT, .PAT_PIN_CFG_FUNC, .PAT_PIN_CFG_GSTB, .PAT_PIN_CFG_INVERT, .PAT_PIN_CFG_ODRAIN, .PAT_PIN_CFG_OMODE, .PAT_PIN_CFG_OWNER,
      .PAT_PIN_PULSE_PULSE] ++ [.pins])
  | .pinRelease .. => some (errors ++ wakes ++ fields [.PAT_PIN_CFG_CH, .PAT_PIN_CFG_CLAIMED, .PAT_PIN_CFG_DRIVE, .PAT_PIN_CFG_EDGE,
      .PAT_PIN_CFG_FILT, .PAT_PIN_CFG_FUNC, .PAT_PIN_CFG_GSTB, .PAT_PIN_CFG_INVERT, .PAT_PIN_CFG_ODRAIN, .PAT_PIN_CFG_OMODE, .PAT_PIN_CFG_OWNER,
      .PAT_PIN_PULSE_PULSE] ++ [.pins])
  | .pinModeWrite .. => some (errors ++ wakes ++ fields [.PAT_PIN_CFG_CH, .PAT_PIN_CFG_CLAIMED, .PAT_PIN_CFG_DRIVE, .PAT_PIN_CFG_EDGE,
      .PAT_PIN_CFG_FILT, .PAT_PIN_CFG_FUNC, .PAT_PIN_CFG_GSTB, .PAT_PIN_CFG_INVERT, .PAT_PIN_CFG_ODRAIN, .PAT_PIN_CFG_OMODE, .PAT_PIN_CFG_OWNER,
      .PAT_PIN_PULSE_PULSE] ++ [.pins])
  | .patPulseEnd .. => some [.pins]
  | .capuClaim .. => some (errors ++ wakes ++ fields [.HARNESS_CAPU_CFG_CLAIMED, .HARNESS_CAPU_CFG_LEVEL, .HARNESS_CAPU_CFG_OVR,
      .HARNESS_CAPU_CFG_OWNER] ++ [.lines, .capus])
  | .capuInfoRead .. => some (errors ++ fields [.HARNESS_CAPU_CFG_LEVEL, .HARNESS_CAPU_TIME_HI_C_HI, .HARNESS_CAPU_TIME_LO_C_LO] ++
      [.readData, .capus])
  | .quarryRequestAccept .. => some (memoryWrites ++ fields [.BENCH_ALIAS_LAST_PRIOR, .BENCH_ALIAS_STAT_POISON, .BENCH_ALIAS_STAT_VALID,
      .BENCH_COLL_CNT_COUNT, .BENCH_COLL_STAT_STREAMER, .QUARRY_PORT_STAT_OUTSTANDING, .QUARRY_PORT_STAT_URG] ++ [.readData, .missed])
  | .quarryCommandSlot .. => some (events ++ wakes ++ fields [.QUARRY_CAPACITY_N_ACTIVE, .QUARRY_ECC_CNT_CE, .QUARRY_ECC_CNT_UE,
      .QUARRY_LRMAP_MAP, .QUARRY_LRMAP_SPARE, .QUARRY_PORT_STAT_OUTSTANDING, .QUARRY_PORT_STAT_THROTTLED, .QUARRY_PORT_STAT_URG,
      .QUARRY_RANK_STATE_STATE, .QUARRY_RD_STAT_EVENTS, .QUARRY_RD_STAT_THROTTLED, .QUARRY_STATUS_DEGRADED, .QUARRY_STATUS_MIGRATING,
      .QUARRY_UE_ADDR_HI_ADDR, .QUARRY_UE_ADDR_HI_BANK, .QUARRY_UE_ADDR_HI_RANK, .QUARRY_UE_ADDR_LO_ADDR] ++ [.holdoff, .qry, .free])
  | .quarryRequestComplete .. => some (errors ++ events ++ fields [.QUARRY_CAPACITY_N_ACTIVE, .QUARRY_LRMAP_MAP, .QUARRY_LRMAP_SPARE,
      .QUARRY_PORT_LAT_MAX_LAT, .QUARRY_PORT_MISS_COUNT, .QUARRY_PORT_STAT_OUTSTANDING, .QUARRY_PORT_STAT_URG, .QUARRY_RANK_STATE_STATE,
      .QUARRY_STATUS_DEGRADED, .QUARRY_STATUS_MIGRATING] ++ [.readData, .holdoff, .qry, .free])
  | .urgencyRise .. => some (events ++ fields [.QUARRY_OP_STAT_ABORTS, .QUARRY_PORT_STAT_OUTSTANDING, .QUARRY_PORT_STAT_URG] ++ [.qry])
  | .rowIdleClose .. => some [.qry]
  | .refresh => some [.qry]
  | .refreshEnd => some (eccReads ++ errors ++ fields [.BENCH_ALIAS_LAST_PRIOR, .BENCH_ALIAS_STAT_POISON, .BENCH_ALIAS_STAT_VALID,
      .BENCH_BPWR_STAT_STATE, .BENCH_COLL_CNT_COUNT, .BENCH_COLL_STAT_STREAMER, .QUARRY_PORT_LAT_MAX_LAT, .QUARRY_PORT_MISS_COUNT,
      .QUARRY_PORT_STAT_OUTSTANDING, .QUARRY_PORT_STAT_URG] ++ [.readData, .mem, .missed])
  | .rdNeighborRefresh .. => some (events ++ fields [.QUARRY_PORT_STAT_THROTTLED, .QUARRY_RD_STAT_EVENTS, .QUARRY_RD_STAT_THROTTLED] ++
      [.qry])
  | .rdWindowReset => some (fields [.QUARRY_PORT_STAT_THROTTLED, .QUARRY_RD_STAT_THROTTLED] ++ [.qry])
  | .quarryScrub .. => some (events ++ wakes ++ fields [.QUARRY_CAPACITY_N_ACTIVE, .QUARRY_ECC_CNT_CE, .QUARRY_ECC_CNT_UE,
      .QUARRY_LRMAP_MAP, .QUARRY_LRMAP_SPARE, .QUARRY_RANK_STATE_STATE, .QUARRY_STATUS_DEGRADED, .QUARRY_STATUS_MIGRATING,
      .QUARRY_UE_ADDR_HI_ADDR, .QUARRY_UE_ADDR_HI_BANK, .QUARRY_UE_ADDR_HI_RANK, .QUARRY_UE_ADDR_LO_ADDR] ++ [.holdoff, .qry, .free])
  | .initPass .. => some (fields [.QUARRY_INIT_PROG_PERCENT] ++ [.qry])
  | .initDone => some (events ++ fields [.QUARRY_INIT_PROG_PERCENT, .QUARRY_STATUS_INIT_DONE] ++ [.qry])
  | .migrationStart .. => some (errors ++ events ++ wakes ++ fields [.QUARRY_CAPACITY_N_ACTIVE, .QUARRY_LRMAP_MAP, .QUARRY_LRMAP_SPARE,
      .QUARRY_MIG_PTR_CAUSE, .QUARRY_MIG_PTR_LGRANK, .QUARRY_MIG_PTR_UNIT, .QUARRY_RANK_STATE_STATE, .QUARRY_STATUS_DEGRADED,
      .QUARRY_STATUS_MIGRATING] ++ [.qry])
  | .migrationUnitCopy .. => some (events ++ wakes ++ fields [.QUARRY_CAPACITY_N_ACTIVE, .QUARRY_ECC_CNT_CE, .QUARRY_ECC_CNT_UE,
      .QUARRY_LRMAP_MAP, .QUARRY_LRMAP_SPARE, .QUARRY_MIG_PTR_UNIT, .QUARRY_RANK_STATE_STATE, .QUARRY_STATUS_DEGRADED, .QUARRY_STATUS_MIGRATING,
      .QUARRY_UE_ADDR_HI_ADDR, .QUARRY_UE_ADDR_HI_BANK, .QUARRY_UE_ADDR_HI_RANK, .QUARRY_UE_ADDR_LO_ADDR] ++ [.holdoff, .qry, .free])
  | .migrationSwitchover => some (events ++ fields [.QUARRY_LRMAP_MAP, .QUARRY_RANK_STATE_STATE, .QUARRY_STATUS_MIGRATING])
  | .reshape .. => some (errors ++ wakes ++ fields [.QUARRY_CAPACITY_N_ACTIVE, .QUARRY_CAPACITY_WAVE_GIB, .QUARRY_GEN_GEN,
      .QUARRY_INIT_PROG_PERCENT, .QUARRY_LRMAP_MAP, .QUARRY_PORT_STAT_OUTSTANDING, .QUARRY_PORT_STAT_URG, .QUARRY_STATUS_DEGRADED,
      .QUARRY_STATUS_INIT_DONE, .QUARRY_STATUS_RESHAPING] ++ [.mem, .qry])
  | .reshapeDone => some (events ++ fields [.QUARRY_STATUS_RESHAPING])
  | .opChangeRequest .. => some (errors ++ wakes ++ fields [.QUARRY_OPCTL_ABORT_MAX, .QUARRY_OPCTL_AT_LC, .QUARRY_OPCTL_LC,
      .QUARRY_OPCTL_TARGET, .QUARRY_OP_STAT_ABORTS, .QUARRY_OP_STAT_FORCED, .QUARRY_STATUS_OP_PENDING] ++ [.qry])
  | .opCommit => some (events ++ fields [.QUARRY_OP_STAT_ABORTS, .QUARRY_STATUS_SELF_REFRESH] ++ [.qry])
  | .opEntryRestart => some (fields [.QUARRY_OPCTL_ABORT_MAX, .QUARRY_OP_STAT_ABORTS, .QUARRY_OP_STAT_FORCED] ++ [.qry])
  | .opDone => some (eccReads ++ errors ++ fields [.BENCH_ALIAS_LAST_PRIOR, .BENCH_ALIAS_STAT_POISON, .BENCH_ALIAS_STAT_VALID,
      .BENCH_BPWR_STAT_STATE, .BENCH_COLL_CNT_COUNT, .BENCH_COLL_STAT_STREAMER, .QPHY_TSET_CTL_ACTIVE, .QUARRY_OP_STAT_LAST_OUTAGE,
      .QUARRY_PORT_LAT_MAX_LAT, .QUARRY_PORT_MISS_COUNT, .QUARRY_PORT_STAT_OUTSTANDING, .QUARRY_PORT_STAT_URG, .QUARRY_STATUS_OP_NOW,
      .QUARRY_STATUS_OP_PENDING, .QUARRY_STATUS_SELF_REFRESH] ++ [.readData, .mem, .missed])
  | .trainingRun .. => some (errors ++ wakes ++ fields [.QPHY_CMP_STAT_BUSY, .QPHY_CMP_STAT_DONE, .QPHY_STATUS_TRAINING,
      .QPHY_TRN_CTL_MODE])
  | .trainingRunDone .. => some (events ++ fields [.QPHY_CMP_ERRCNT_COUNT, .QPHY_CMP_STAT_BUSY, .QPHY_CMP_STAT_DONE, .QPHY_CMP_STAT_FAIL,
      .QPHY_STATUS_TRAINING])
  | .driftUpdate .. => some (events ++ fields [.QPHY_DRIFT_STAT_MAX_STEP] ++ [.qry])
  | .benchAccess .. => some (eccReads ++ errors ++ fields [.BENCH_ALIAS_LAST_PRIOR, .BENCH_ALIAS_STAT_POISON, .BENCH_ALIAS_STAT_VALID,
      .BENCH_BPWR_STAT_STATE, .BENCH_COLL_CNT_COUNT, .BENCH_COLL_STAT_STREAMER] ++ [.readData, .mem, .missed])
  | .benchAliasWrite .. => some (eccReads ++ errors ++ fields [.BENCH_ALIAS_LAST_PRIOR, .BENCH_ALIAS_STAT_POISON, .BENCH_ALIAS_STAT_VALID,
      .BENCH_BPWR_STAT_STATE, .BENCH_COLL_CNT_COUNT, .BENCH_COLL_STAT_STREAMER] ++ [.readData, .mem, .missed])
  | .benchScrub .. => some (events ++ wakes ++ fields [.BENCH_BENCH_HEALTH_HEALTH, .BENCH_BIST_STAT_PHASE, .BENCH_ECC_CNT_CE,
      .BENCH_ECC_CNT_UE, .BENCH_STATUS_BIST_BUSY, .BENCH_STATUS_SPARE_FREE, .BENCH_UE_ADDR_IN_SPARE, .BENCH_UE_ADDR_OFFSET] ++ [.holdoff,
      .poison, .ben])
  | .benchPortTimeout .. => some (events ++ wakes ++ fields [.BENCH_BENCH_HEALTH_HEALTH, .BENCH_BIST_STAT_PHASE, .BENCH_STATUS_BIST_BUSY,
      .BENCH_STATUS_SPARE_FREE] ++ [.ben])
  | .benchAutoRetention .. => some (fields [.BENCH_BPWR_STAT_STATE])
  | .benchWake .. => some (eccReads ++ errors ++ fields [.BENCH_ALIAS_LAST_PRIOR, .BENCH_ALIAS_STAT_POISON, .BENCH_ALIAS_STAT_VALID,
      .BENCH_BPWR_STAT_STATE, .BENCH_COLL_CNT_COUNT, .BENCH_COLL_STAT_STREAMER] ++ [.readData, .mem, .missed])
  | .benchModeWrite .. => some (errors ++ wakes ++ fields [.BENCH_BPWR_CFG_MODE, .BENCH_BPWR_STAT_STATE] ++ [.mem, .poison, .ben, .missed])
  | .bistStart .. => some (errors ++ wakes ++ fields [.BENCH_BIST_CTL_AUTO_REPLACE, .BENCH_BIST_CTL_BENCH, .BENCH_BIST_PTR_OFFSET,
      .BENCH_BIST_STAT_FAIL, .BENCH_BIST_STAT_FAIL_WORDS, .BENCH_BIST_STAT_PASS, .BENCH_BIST_STAT_PHASE, .BENCH_BPWR_STAT_STATE,
      .BENCH_STATUS_BIST_BUSY, .BENCH_STATUS_REPLACING, .BENCH_STATUS_SPARE_FREE] ++ [.ben])
  | .bistCopyDone => some (events ++ wakes ++ fields [.BENCH_BENCH_HEALTH_HEALTH, .BENCH_BIST_PTR_OFFSET, .BENCH_BIST_STAT_PHASE,
      .BENCH_ECC_CNT_CE, .BENCH_ECC_CNT_UE, .BENCH_STATUS_BIST_BUSY, .BENCH_STATUS_SPARE_FREE, .BENCH_UE_ADDR_IN_SPARE, .BENCH_UE_ADDR_OFFSET]
      ++ [.holdoff, .poison, .ben])
  | .bistTestDone .. => some (events ++ wakes ++ fields [.BENCH_BENCH_HEALTH_HEALTH, .BENCH_BIST_FAIL_ADDR_OFFSET, .BENCH_BIST_PTR_OFFSET,
      .BENCH_BIST_STAT_FAIL, .BENCH_BIST_STAT_FAIL_WORDS, .BENCH_BIST_STAT_PHASE, .BENCH_STATUS_BIST_BUSY, .BENCH_STATUS_REPLACING,
      .BENCH_STATUS_SPARE_FREE] ++ [.ben])
  | .bistRestoreDone => some (events ++ fields [.BENCH_BIST_PTR_OFFSET, .BENCH_BIST_STAT_PASS, .BENCH_BIST_STAT_PHASE,
      .BENCH_BPWR_STAT_STATE, .BENCH_STATUS_BIST_BUSY, .BENCH_STATUS_REPLACING, .BENCH_STATUS_SPARE_FREE] ++ [.ben])
  | .bistAbort .. => some (errors ++ wakes ++ fields [.BENCH_BIST_CTL_AUTO_REPLACE, .BENCH_BIST_CTL_BENCH, .BENCH_BIST_PTR_OFFSET,
      .BENCH_BIST_STAT_FAIL, .BENCH_BIST_STAT_FAIL_WORDS, .BENCH_BIST_STAT_PASS, .BENCH_BIST_STAT_PHASE, .BENCH_BPWR_STAT_STATE,
      .BENCH_STATUS_BIST_BUSY, .BENCH_STATUS_REPLACING, .BENCH_STATUS_SPARE_FREE] ++ [.ben])
  | .benchReplace .. => some (errors ++ wakes ++ fields [.BENCH_BIST_CTL_AUTO_REPLACE, .BENCH_BIST_CTL_BENCH, .BENCH_BIST_PTR_OFFSET,
      .BENCH_BIST_STAT_FAIL, .BENCH_BIST_STAT_FAIL_WORDS, .BENCH_BIST_STAT_PASS, .BENCH_BIST_STAT_PHASE, .BENCH_BPWR_STAT_STATE,
      .BENCH_STATUS_BIST_BUSY, .BENCH_STATUS_REPLACING, .BENCH_STATUS_SPARE_FREE] ++ [.ben])
  | .benchReplaceDone .. => some (events ++ wakes ++ fields [.BENCH_BENCH_HEALTH_HEALTH, .BENCH_BIST_STAT_PHASE, .BENCH_BPWR_STAT_STATE,
      .BENCH_ECC_CNT_CE, .BENCH_ECC_CNT_UE, .BENCH_STATUS_BIST_BUSY, .BENCH_STATUS_REPLACING, .BENCH_STATUS_SPARE_COVER,
      .BENCH_STATUS_SPARE_FREE, .BENCH_UE_ADDR_IN_SPARE, .BENCH_UE_ADDR_OFFSET] ++ [.holdoff, .poison, .ben])
  | .enec .. => some (wakes ++ [.ports])
  | .disec .. => some (wakes ++ [.ports])
  | .entas .. => some [.ports]
  | .rstdaa .. => some (fields [.I3C_ADDR_STAT_DA, .I3C_STATUS_DA_VALID, .I3C_STATUS_I2C_MODE] ++ [.ports])
  | .entdaa .. => some (events ++ fields [.I3C_ADDR_STAT_DA, .I3C_STATUS_DA_VALID, .I3C_STATUS_I2C_MODE] ++ [.ports])
  | .setmwl .. => some (wakes ++ fields [.I3C_LIMITS_MWL] ++ [.ports])
  | .setmrl .. => some (wakes ++ fields [.I3C_LIMITS_MRL] ++ [.ports])
  | .enthdr0 .. => some (fields [.I3C_STATUS_HDR] ++ [.ports])
  | .setaasa .. => some (events ++ fields [.I3C_ADDR_STAT_DA, .I3C_STATUS_DA_VALID, .I3C_STATUS_I2C_MODE] ++ [.ports])
  | .setdasa .. => some (events ++ wakes ++ fields [.I3C_ADDR_STAT_DA, .I3C_STATUS_DA_VALID, .I3C_STATUS_I2C_MODE] ++ [.ports])
  | .setnewda .. => some (wakes ++ fields [.I3C_ADDR_STAT_DA, .I3C_STATUS_DA_VALID, .I3C_STATUS_I2C_MODE] ++ [.ports])
  | .rstactPort .. => some (events ++ wakes ++ fields [.I3C_ADDR_STAT_DA, .I3C_PTR_HI_ADDR, .I3C_PTR_HI_INC, .I3C_PTR_LO_ADDR,
      .I3C_STATUS_DA_VALID, .I3C_STATUS_I2C_MODE, .I3C_STATUS_SECURE, .I3C_STATUS_TUN_BUSY, .TACK_PUSH_STAT_DISCARDING, .TACK_PUSH_STAT_OPEN,
      .TACK_PUSH_STAT_WORDS_LEFT, .TACK_QLEVEL_FLUSH_BUSY] ++ [.staging, .ports])
  | .rstactQuery .. => some (wakes ++ [.readData, .ports])
  | .getmwl .. => some (wakes ++ [.readData, .ports])
  | .getmrl .. => some (wakes ++ [.readData, .ports])
  | .getpid .. => some (wakes ++ [.readData, .ports])
  | .getbcr .. => some (wakes ++ [.readData, .ports])
  | .getdcr .. => some (wakes ++ [.readData, .ports])
  | .getstatus .. => some (wakes ++ [.readData, .ports])
  | .getmxds .. => some (wakes ++ [.readData, .ports])
  | .getcaps .. => some (wakes ++ [.readData, .ports])
  | .memWrite .. => some (events ++ wakes ++ fields [.I3C_FRAME_STAT_FRAME_ERR, .I3C_FRAME_STAT_LAST_ERR, .I3C_STATUS_TUN_BUSY] ++ [.ports])
  | .memFetch .. => some (events ++ wakes ++ fields [.I3C_FRAME_STAT_FRAME_ERR, .I3C_FRAME_STAT_LAST_ERR, .I3C_STATUS_TUN_BUSY] ++ [.ports])
  | .tunnelDone .. => some (busWrites ++ fields [.I3C_STATUS_TUN_BUSY] ++ [.ports])
  | .privateRead .. => some (busWrites ++ fields [.CSE_CLIP_CNT_CLIP, .CSE_DISCARD_CNT_DISCARD, .CSE_LATE_CNT_LATE,
      .HARNESS_CAPU_CFG_LEVEL, .HARNESS_CAPU_TIME_HI_C_HI, .HARNESS_CAPU_TIME_LO_C_LO, .HARNESS_LCNT_FIRED_FIRED,
      .HARNESS_LCNT_MERGE_COINCIDENT, .HARNESS_LCNT_MERGE_SUPPRESSED, .HARNESS_LCNT_OVR_OVERRUN, .I3C_FRAME_STAT_FRAME_ERR, .I3C_IBI_CNT_NACKS,
      .I3C_IBI_CNT_SENT, .I3C_PTR_HI_ADDR, .I3C_PTR_HI_INC, .I3C_PTR_LO_ADDR, .I3C_TUN_STAT_RETRY_CNT, .OUT_SC_CNT_OVERTEMPS,
      .OUT_SC_CNT_SHORTS, .OUT_SQ_UCNT_COUNT, .PAT_PAT_DROP_COUNT, .POWER_PACE_MIN, .POWER_RESIDENCY_MS, .POWER_THERM_STAT_PEAK,
      .QCLK_MISSED_MISSED, .QPHY_CMP_ERRCNT_COUNT, .QPHY_DRIFT_STAT_MAX_STEP, .QUARRY_RD_STAT_EVENTS, .SPARE_FAIL_CNT_FAILOVERS,
      .SPARE_FAIL_CNT_RETIRES, .STITCH_EVIN_IGNORED_COUNT, .STITCH_PUSH_CNT_COUNT, .STITCH_STALL_CNT_COUNT, .TACK_CNT_LINK_CORRECTED,
      .TACK_CNT_LINK_FAILED, .TACK_CNT_POISON_COUNT, .TACK_CNT_TORN_COUNT, .TACK_RING_UCNT_COUNT, .TBASE_TALLY_CNT_CRC_ERR,
      .TBASE_TALLY_CNT_DROPPED] ++ [.held, .capus, .ports])
  | .tunnelRead .. => some (fields [.I3C_TUN_STAT_LAST, .I3C_TUN_STAT_RETRY_CNT] ++ [.readData, .ports])
  | .ibiRequest .. => some (events ++ fields [.I3C_IBI_CNT_NACKS, .I3C_IBI_CNT_SENT] ++ [.readData, .ports])
  | .portHealthLost .. => some (events ++ fields [.I3C_STATUS_HEALTHY, .I3C_STATUS_SECURE] ++ [.ports])
  | .adopt .. => some (errors ++ wakes ++ [.ports])
  | .adopted .. => some (events ++ fields [.HARNESS_CAPU_CFG_OWNER, .HARNESS_LINE_CFG_OWNER, .OWNER_MASTER, .PAT_PIN_CFG_OWNER,
      .TBASE_LC_CTRL_OWNER] ++ [.ports])
  | .rawCommand .. => some (errors ++ wakes ++ fields [.XSPI_LD_STAT_BUSY, .XSPI_RAW_CMD_ALEN, .XSPI_RAW_CMD_DIR, .XSPI_RAW_CMD_DLEN,
      .XSPI_RAW_CMD_DUMMY, .XSPI_RAW_CMD_OP, .XSPI_RAW_CMD_REFUSED, .XSPI_STATUS_RAW_BUSY] ++ [.ldr])
  | .rawDone .. => some (events ++ fields [.XSPI_RAW_DATA_HI_DATA, .XSPI_RAW_DATA_LO_DATA, .XSPI_STATUS_RAW_BUSY])
  | .loaderGo .. => some (busWrites ++ fields [.XSPI_LD_CTL_IMAGE, .XSPI_LD_DONE_BYTES, .XSPI_LD_ENTRIES_COUNT, .XSPI_LD_RESUME_POINT,
      .XSPI_LD_STAT_BUSY, .XSPI_LD_STAT_ENTRY, .XSPI_LD_STAT_REFUSED, .XSPI_LD_STAT_RELEASED, .XSPI_LD_STAT_STOP] ++ [.ldr])
  | .loaderResume .. => some (busWrites ++ fields [.XSPI_LD_CTL_IMAGE, .XSPI_LD_DONE_BYTES, .XSPI_LD_ENTRIES_COUNT, .XSPI_LD_RESUME_POINT,
      .XSPI_LD_STAT_BUSY, .XSPI_LD_STAT_ENTRY, .XSPI_LD_STAT_REFUSED, .XSPI_LD_STAT_RELEASED, .XSPI_LD_STAT_STOP] ++ [.ldr])
  | .loaderAbort .. => some (busWrites ++ fields [.XSPI_LD_CTL_IMAGE, .XSPI_LD_DONE_BYTES, .XSPI_LD_RESUME_POINT, .XSPI_LD_STAT_BUSY,
      .XSPI_LD_STAT_STOP] ++ [.ldr])
  | .nandStatusPoll .. => some (busWrites ++ fields [.XSPI_FLASH_STAT_STATUS, .XSPI_LD_DONE_BYTES, .XSPI_LD_RESUME_POINT,
      .XSPI_LD_STAT_BUSY, .XSPI_LD_STAT_STOP] ++ [.ldr])
  | .loaderEntryDone .. => some (busWrites ++ fields [.XSPI_LD_DONE_BYTES, .XSPI_LD_ENTRIES_COUNT, .XSPI_LD_RESUME_POINT,
      .XSPI_LD_STAT_BUSY, .XSPI_LD_STAT_ENTRY, .XSPI_LD_STAT_STOP] ++ [.ldr])
  | .flashTimeout .. => some (busWrites ++ fields [.XSPI_LD_DONE_BYTES, .XSPI_LD_RESUME_POINT, .XSPI_LD_STAT_BUSY, .XSPI_LD_STAT_STOP] ++
      [.ldr])
  | .loaderDone .. => some (busWrites ++ fields [.SEC_MR_CNT_CNT, .SEC_MR_VALUE, .XSPI_LD_DONE_BYTES, .XSPI_LD_RESUME_POINT,
      .XSPI_LD_STAT_BUSY, .XSPI_LD_STAT_DONE, .XSPI_LD_STAT_RELEASED, .XSPI_LD_STAT_STOP] ++ [.ldr])
  | .bootStart => some [.sec]
  | .bootDone .. => some (events ++ fields [.SEC_BOOT_TIME_US100, .SEC_FW_VER_VER, .SEC_MR_CNT_CNT, .SEC_MR_VALUE, .SEC_STATUS_BOOT_OK,
      .SEC_STATUS_RECOVERY, .SEC_STATUS_RUN_SRC, .SEC_STATUS_SLOT_A_VALID, .SEC_STATUS_SLOT_B_VALID, .SEC_STATUS_VK_USED, .SEC_SVN_RUN_SVN,
      .STITCH_MC_VER_ACTIVE, .SYS_SPARE_SUM_FW, .XSPI_XSPI_CFG_ADDR4, .XSPI_XSPI_CFG_CLKDIV, .XSPI_XSPI_CFG_DEVTYPE, .XSPI_XSPI_CFG_DUMMY,
      .XSPI_XSPI_CFG_EXT, .XSPI_XSPI_CFG_MODE, .XSPI_XSPI_CFG_RD_OP] ++ [.sec, .fwUp])
  | .slotCheck .. => some (fields [.SEC_STATUS_SLOT_A_VALID, .SEC_STATUS_SLOT_B_VALID, .SYS_SPARE_SUM_FW] ++ [.sec])
  | .wdtKick .. => some (errors ++ wakes ++ [.sec])
  | .wdtExpired => some (events ++ wakes ++ fields [.I3C_STATUS_SECURE, .OUT_FAULT_CTL_WD_EN, .OUT_FAULT_STAT_WATCHDOG, .SEC_MB_RES_RES,
      .SEC_MB_STAT_BUSY, .SEC_MB_STAT_DONE, .SEC_MB_STAT_RESULT, .SEC_MB_STAT_TAG, .SEC_STATUS_BOOT_OK, .SEC_STATUS_HANDOFF_BUSY,
      .SYS_RESET_CAUSE_FW_FAULT, .SYS_RESET_CAUSE_FW_WDT, .SYS_RESET_CNT_FW_RESTART] ++ [.sec, .fwUp])
  | .firmwareRestart => some (events ++ fields [.I3C_STATUS_SECURE, .SEC_MB_RES_RES, .SEC_MB_STAT_BUSY, .SEC_MB_STAT_DONE,
      .SEC_MB_STAT_RESULT, .SEC_MB_STAT_TAG, .SEC_STATUS_BOOT_OK, .SEC_STATUS_HANDOFF_BUSY, .SYS_RESET_CAUSE_FW_FAULT, .SYS_RESET_CAUSE_FW_WDT,
      .SYS_RESET_CNT_FW_RESTART] ++ [.sec, .fwUp])
  | .getInfo .. => some [.sec]
  | .getCert .. => some (memoryWrites ++ [.sec])
  | .quote .. => some (memoryWrites ++ [.sec])
  | .mrExtend .. => some (eccReads ++ fields [.BENCH_BPWR_STAT_STATE, .SEC_MR_CNT_CNT, .SEC_MR_VALUE] ++ [.sec])
  | .sessionOpen .. => some [.sec, .free]
  | .sessionAuth .. => some (eccReads ++ fields [.BENCH_BPWR_STAT_STATE, .I3C_STATUS_SECURE] ++ [.ports, .sec])
  | .sessionClose .. => some (events ++ fields [.I3C_STATUS_SECURE] ++ [.sec])
  | .sessionTimeout .. => some (events ++ fields [.I3C_STATUS_SECURE])
  | .fwStage .. => some (memoryWrites ++ fields [.SEC_STATUS_STAGED, .SEC_SVN_STAGED_SVN] ++ [.sec])
  | .fwInstall .. => some (fields [.SEC_STATUS_SLOT_A_VALID, .SEC_STATUS_SLOT_B_VALID] ++ [.sec])
  | .fwActivate .. => some [.sec]
  | .handoffPoint => some (fields [.SEC_STATUS_HANDOFF_BUSY] ++ [.sec])
  | .aliveMark => some (errors ++ fields [.SEC_MR_CNT_CNT, .SEC_MR_VALUE, .STITCH_MC_VER_INACTIVE, .STITCH_STATUS_MC_PENDING] ++
      [.stitchers, .sec])
  | .handoffRevert .. => some (events ++ fields [.I3C_STATUS_SECURE, .SEC_MB_RES_RES, .SEC_MB_STAT_BUSY, .SEC_MB_STAT_DONE,
      .SEC_MB_STAT_RESULT, .SEC_MB_STAT_TAG, .SEC_STATUS_BOOT_OK, .SEC_STATUS_HANDOFF_BUSY, .SYS_RESET_CAUSE_FW_FAULT, .SYS_RESET_CAUSE_FW_WDT,
      .SYS_RESET_CNT_FW_RESTART] ++ [.sec, .fwUp])
  | .svnCommit .. => some (events ++ fields [.SEC_STATUS_SLOT_A_VALID, .SEC_STATUS_SLOT_B_VALID, .SEC_STATUS_VK_REVOKED,
      .SEC_STATUS_VK_USED, .SEC_SVN_FUSE_COUNT, .SEC_SVN_RUN_SVN, .SYS_SPARE_SUM_FW] ++ [.sec])
  | .slotSelect .. => some (fields [.SEC_STATUS_PREF_SLOT] ++ [.sec])
  | .policySet .. => some (fields [.SEC_LIB_VER_MIN_VER, .SEC_MR_CNT_CNT, .SEC_MR_VALUE, .XSPI_LD_CTL_SIG_REQ] ++ [.sec])
  | .libkeySet .. => some (eccReads ++ fields [.BENCH_BPWR_STAT_STATE, .SEC_MR_CNT_CNT, .SEC_MR_VALUE] ++ [.sec])
  | .ownerKeySet .. => some (eccReads ++ fields [.BENCH_BPWR_STAT_STATE, .SEC_MR_CNT_CNT, .SEC_MR_VALUE, .SEC_STATUS_OWNER_SET] ++ [.sec])
  | .policyLock .. => some (fields [.SEC_STATUS_POLICY_LOCKED] ++ [.sec])
  | .recoveryBoot .. => some (eccReads ++ fields [.BENCH_BPWR_STAT_STATE, .SEC_BOOT_TIME_US100, .SEC_FW_VER_VER, .SEC_MR_CNT_CNT,
      .SEC_MR_VALUE, .SEC_STATUS_BOOT_OK, .SEC_STATUS_RECOVERY, .SEC_STATUS_RUN_SRC, .SEC_STATUS_VK_USED, .SEC_SVN_RUN_SVN,
      .STITCH_MC_VER_ACTIVE, .XSPI_XSPI_CFG_ADDR4, .XSPI_XSPI_CFG_CLKDIV, .XSPI_XSPI_CFG_DEVTYPE, .XSPI_XSPI_CFG_DUMMY, .XSPI_XSPI_CFG_EXT,
      .XSPI_XSPI_CFG_MODE, .XSPI_XSPI_CFG_RD_OP] ++ [.sec, .fwUp])
  | .mbDone .. => some (events ++ fields [.SEC_FW_VER_VER, .SEC_MB_RES_RES, .SEC_MB_STAT_BUSY, .SEC_MB_STAT_DONE, .SEC_MB_STAT_RESULT,
      .SEC_MB_STAT_TAG, .SEC_STATUS_HANDOFF_BUSY, .SEC_STATUS_PREF_SLOT, .SEC_STATUS_RUN_SRC, .SEC_STATUS_VK_USED, .SEC_SVN_RUN_SVN] ++ [.sec])
  | .railMonitorSample .. => some (events ++ wakes ++ fields [.PAT_STATUS_BANK_OK, .PAT_STATUS_BANK_V, .POWER_RAIL_FAULT_LEFT,
      .POWER_RAIL_STAT_IN_RANGE, .POWER_VCORE_MV_MV, .XSPI_STATUS_VIO_18])
  | .warmResetEnd .. => some (fields [.QPHY_STATUS_PLL0_LOCK, .QPHY_STATUS_PLL1_LOCK, .QUARRY_STATUS_READY, .QUARRY_STATUS_SELF_REFRESH]
      ++ [.dev, .addrPins, .sec, .qry])
  | .ready .. => some (errors ++ events ++ fields [.QCLK_COVER_QUAD, .QCLK_COVER_VALID, .QCLK_ORIGIN_FRAC_FRAC, .QCLK_ORIGIN_HI_ORIGIN_HI,
      .QCLK_ORIGIN_LO_ORIGIN_LO, .QCLK_QCLK_CFG_USE_SPARE, .QCLK_QCLK_STATUS_LOCKED, .QCLK_QCLK_STATUS_READY, .QCLK_QCLK_STATUS_STOPPED,
      .QPHY_STATUS_PLL0_LOCK, .QPHY_STATUS_PLL1_LOCK, .QPHY_TSET_CTL_ACTIVE, .QPHY_TSET_CTL_A_OP, .QPHY_TSET_CTL_A_VALID,
      .QUARRY_CAPACITY_N_ACTIVE, .QUARRY_LRMAP_MAP, .QUARRY_LRMAP_SPARE, .QUARRY_RANK_STATE_STATE, .QUARRY_STATUS_DEGRADED,
      .QUARRY_STATUS_READY, .SYS_STATUS_READY] ++ [.eff, .clocks, .ports, .qry, .free])
  | .powerStateEntry => some (fields [.POWER_STATUS_ENTERING, .POWER_STATUS_TARGET] ++ [.pwr])
  | .dEnter => some (visitEnds ++ events ++ fields [.BENCH_BPWR_STAT_STATE, .POWER_STATUS_DSTATE, .POWER_STATUS_ENTERING,
      .QCLK_QCLK_STATUS_LOCKED, .QCLK_QCLK_STATUS_READY, .QPHY_STATUS_PLL0_LOCK, .QPHY_STATUS_PLL1_LOCK, .QUARRY_STATUS_SELF_REFRESH] ++
      [.clocks, .qry])
  | .wake .. => some wakes
  | .powerTimeWake => some wakes
  | .dExit => some (eccReads ++ errors ++ fields [.BENCH_ALIAS_LAST_PRIOR, .BENCH_ALIAS_STAT_POISON, .BENCH_ALIAS_STAT_VALID,
      .BENCH_BPWR_STAT_STATE, .BENCH_COLL_CNT_COUNT, .BENCH_COLL_STAT_STREAMER, .BURNISH_STATUS_ROTATING, .CTRL_ENABLE, .HARNESS_CAPU_CFG_LEVEL,
      .HARNESS_CAPU_CFG_OVR, .HARNESS_GSTB_OVR_OVR, .HARNESS_LCNT_OVR_OVERRUN, .HARNESS_LINE_STAT_PENDING, .HARNESS_SOVR_OVR, .PAT_PAT_OVR_OVR,
      .POWER_STATUS_DSTATE, .POWER_WAKE_STAT_EXIT_US, .QCLK_MISSED_MISSED, .QCLK_ORIGIN_FRAC_FRAC, .QCLK_ORIGIN_HI_ORIGIN_HI,
      .QCLK_ORIGIN_LO_ORIGIN_LO, .QCLK_QCLK_STATUS_LOCKED, .QCLK_QCLK_STATUS_READY, .QCLK_QCLK_STATUS_STOPPED, .QPHY_STATUS_PLL0_LOCK,
      .QPHY_STATUS_PLL1_LOCK, .QUARRY_PORT_LAT_MAX_LAT, .QUARRY_PORT_MISS_COUNT, .QUARRY_PORT_STAT_OUTSTANDING, .QUARRY_PORT_STAT_URG,
      .QUARRY_STATUS_SELF_REFRESH, .SPARE_STATUS_PHASE, .SPARE_STATUS_VISIT_POS, .TBASE_GSTB_STAT_PENDING] ++ [.eff, .readData, .commits, .mem,
      .clocks, .gstbs, .wheels, .cses, .outs, .lines, .pins, .capus, .evin, .missed, .tiers])
  | .thermalSample .. => some (events ++ wakes ++ fields [.BENCH_BPWR_STAT_STATE, .BENCH_STATUS_THERMAL_DEEP, .OUT_FAULT_CTL_FORCE,
      .OUT_FAULT_STAT_FORCED, .POWER_LIFE_CYCLES_THERMAL, .POWER_LIFE_HOURS_HOURS, .POWER_STATUS_THERMAL_LIMIT, .POWER_STATUS_THERM_CRIT,
      .POWER_STATUS_THERM_WARN, .POWER_THERM_STAT_PEAK, .POWER_THERM_STAT_TJ] ++ [.outs])
  | .lifeCountSave => some [.pwr]
  | .shadowGo .. => some (errors ++ wakes ++ fields [.SHADOW_CMD_LATE, .SHADOW_CMD_LC, .SHADOW_CMD_MODE, .SHADOW_CMD_PENDING,
      .SHADOW_CMD_REFUSED] ++ [.cap, .commits])
  | .shadowCancel .. => some (errors ++ wakes ++ fields [.SHADOW_CMD_LATE, .SHADOW_CMD_LC, .SHADOW_CMD_MODE, .SHADOW_CMD_PENDING,
      .SHADOW_CMD_REFUSED] ++ [.cap, .commits])
  | .shadowCapture .. => some [.cap, .commits]
  | .shadowCommitApply .. => some (spanStarts ++ events ++ fields [.CSE_ALLOC_EFF_PART_EFF, .CSE_ALLOC_EFF_PLAYERS_EFF,
      .CSE_STATUS_BUDGET_CLAMP, .OUT_STATUS_GANG_ACTIVE, .QCLK_ORIGIN_FRAC_FRAC, .QCLK_ORIGIN_HI_ORIGIN_HI, .QCLK_ORIGIN_LO_ORIGIN_LO,
      .QCLK_QCLK_STATUS_LOCKED, .QCLK_QCLK_STATUS_READY, .QCLK_QCLK_STATUS_SETTLING, .SHADOW_CMD_LATE, .SHADOW_CMD_PENDING] ++ [.eff, .commits,
      .clocks, .gstbs, .wheels, .cses])
  | .evtEnWrite .. => some registerWrites
  | .evtClear .. => some registerWrites
  | .ownerWrite .. => some registerWrites
  | .currentLimitExit .. => some (fields [.OUT_STATUS_IN_LIMIT] ++ [.outs])
  | .portHealthReturn .. => some (fields [.I3C_STATUS_HEALTHY] ++ [.ports])
  | .hdrExit .. => some (fields [.I3C_STATUS_HDR] ++ [.ports])
  | .tackReady => some (fields [.BENCH_STATUS_READY, .TACK_STATUS_READY, .TBASE_TB_STATUS_PLL_LOCKED, .TBASE_TB_STATUS_REF_PRESENT] ++
      [.pllStarted])
    | .registerWrite .. | .masterAccess .. | .powerGoodFall | .rstactDevice .. | .regWrite .. | .resetPin | .sysSoftReset .. |
  .targetResetPattern .. => none

end Sys2Proof
end

