-- ==== Sys2Proof/Certificates/Slice0/Obligations.lean ====
section
/-! DEFINITION. The statements for the provers, family by family of commands; OBLIGATIONS.json lists them. -/

open Sys2Proof Sys2Proof.Machine

/-- For every command c and state s, a step of s with c at the front of its queue is exec of c on s with the queue's rest. The queue is
the model's: it holds the commands that wait, first in, first out; R23 judges each access by itself. (Rests on 01_architecture.md R23.)
-/
def Obligations.StepRunsFrontCommand : Prop :=
  ∀ (c : Instr) (s : State) (rest : List Instr), step { s with pending := c :: rest } = exec c { s with pending := rest }

/-- That the empty queue lets a tick pass is the model's choice (log entry 4). While PWRGD is low a tick changes nothing. Otherwise the
64-bit count and the elapsed time advance by one, the count modulo 2^64, no event stays presented, and memory, the comparators, the
CSEs, the Stitchers, the queues and the outputs keep their states. (Rests on 01_architecture.md R16, 02_timebase_sync.md R38.) -/
def Obligations.IdleStepTicks : Prop :=
  (∀ s : State, s.pending = [] → s.dev = .off → step s = .next s) ∧
  (∀ s : State, s.pending = [] → s.dev ≠ .off →
    ∃ t, step s = .next t ∧ t.now = (s.now + 1) % 2 ^ 64 ∧ t.osc = s.osc + 1 ∧ t.mem = s.mem ∧ t.lcs = s.lcs ∧ t.cses = s.cses ∧
      t.stitchers = s.stitchers ∧ t.queues = s.queues ∧ t.outs = s.outs ∧ t.pending = [] ∧ t.dev = s.dev)

/-- After a cold reset, while PWRGD is low, the queue is empty, the count is 0, every stored register field reads the Reset value of its
table, the value in effect of a shadowed field reads the same, every byte of memory reads as nothing stored, and no engine holds a
state. Where a table gives no reset value, the value is the model's (log entries 6 and 7). (Rests on 00_scope.md R9, 01_architecture.md
R7, R26, 02_timebase_sync.md R38, 13_power_reset_availability.md R393.) -/
def Obligations.ResetState : Prop :=
  (∀ s : State, s = State.reset → s.pending = [] ∧ s.dev = .off ∧ s.now = 0 ∧ s.mem = [] ∧ s.poison = [] ∧ s.commits = [] ∧ s.lcs = [] ∧
    s.clocks = [] ∧ s.cses = [] ∧ s.stitchers = [] ∧ s.queues = [] ∧ s.rings = [] ∧ s.lines = [] ∧
    s.rd .EVT_EN_EN 0 Page.sys.code 0 = 0 ∧ s.rd .TBASE_TB_CFG_REF_MODE = 0 ∧ s.rd .TBASE_TB_STATUS_EPOCH_VALID = 0 ∧
    (∀ (r : Reg) (i x u : Nat), s.rd r i x u = r.resetVal i x u ∧ s.rdEff r i x u = r.resetVal i x u) ∧ ∀ a : Nat, s.byte a = 0)

/-- At reset memory is in its canonical form, the count is a number of 64 bits and every stored field fits its width. (Rests on
00_scope.md R4, R9, 01_architecture.md R8.) -/
def Obligations.ResetMeetsInvariant : Prop :=
  Inv State.reset

/-- From every state, reached by a run or not, whose memory is in canonical form, whose count is below 2^64 and in which every stored
register field, shadow copy and value in effect fits its width, a step of any command, and of the idle block, gives a state of which the
same holds. (Rests on 00_scope.md R4, 01_architecture.md R8, 02_timebase_sync.md R38.) -/
def Obligations.StepKeepsInvariant : Prop :=
  ∀ s t : State, Inv s → step s = .next t → Inv t

/-- Every command answers a next state with the same queue. In a device that is not running no command but the rise and fall of PWRGD,
the load of the records, the RESET_N pin and the end of a warm reset changes anything. Every command with a footprint leaves every
register field, memory, the count and every engine state outside its footprint as it was, for whatever operands. (Rests on
01_architecture.md R8, R23, 13_power_reset_availability.md R390, R393, 15_register_index.md R416, R418.) -/
def Obligations.CommandFrames : Prop :=
  (∀ (c : Instr) (s : State), ∃ t, exec c s = .next t ∧ t.pending = s.pending) ∧
  (∀ (c : Instr) (s : State), s.dev ≠ .up → (∀ (a : BitVec 3) (v : Bool), c ≠ .powerGoodRise a v) → c ≠ .powerGoodFall →
    (∀ (a : List (Fin 48)) (b : List (Fin 60)), c ≠ .powerupNvmLoaded a b) → c ≠ .resetPin →
      (∀ a : BitVec 3, c ≠ .warmResetEnd a) →
    exec c s = .next s) ∧
  (∀ (c : Instr) (l : List Part) (s t : State), c.footprint = some l → exec c s = .next t → OnlyChanges l s t)

/-- From the state before each of these commands to a next state, what memory holds stays at every address but these. A ring refill
stores in the partition of its ring; a capture in the word at its capture address; certificates, quotes and staged images in their
buffers. A Quarry request, a bench access, an alias write, a tunnel access and an access of a master outside the register range store in
their own bytes, a bench write also in those of a port A write of the same cycle. The loader stores in the bytes that its job or its
running entry still has to copy, and, when it verifies an image, in whole words about its entries. Where the commands of a master serve
its earlier accesses first, those that it has waiting at a bench or for Quarry store too. A wake serves the accesses held at benches;
the ends of a refresh, of a change of operating point and of a power state those and the ones that wait for Quarry. A change of bench
modes stores in the benches switched OFF, a reshape in Quarry. Reads of benches, starting and resuming a job, and writes of EVT_EN,
EVT_RAW, EVT_PEND and OWNER store nothing. (Rests on 05_tack_streams.md R179, R181, 07_burnish.md R236, 09_quarry.md R276, R279, R298,
10_benches.md R307, R309, R311, R316, R317, R318, 11_host_interface.md R342, R355, 12_security_firmware.md R374, 01_architecture.md
R25.) -/
def Obligations.StoresToMemory : Prop :=
  (∀ (s t : State) (c : Chan) (p : Fin 2) (alt : Bool) (n : BitVec 16), exec (.ringRefill c p alt n) s = .next t →
    ∀ b : Nat, b < partBase s c.val p.val ∨ partBase s c.val p.val + partSize s c.val p.val ≤ b →
      Store.get 0 t.mem b = Store.get 0 s.mem b) ∧
  (∀ (s t : State) (x : Tier) (v : BitVec 18), exec (.captureSample x v) s = .next t → StoresAt (s.tier x.val).capAddr 4 s t) ∧
  (∀ (s t : State) (m : Master) (write : Bool) (a : BitVec 40) (len : BitVec 12) (data : List Byte),
    exec (.quarryRequestAccept m write a len data) s = .next t → StoresAtFor m.val a.toNat (if write then data.length else 0) s t) ∧
  (∀ (s t : State) (m : Master) (off : BitVec 22) (len : Fin 65) (data : List Byte) (mark : Bool)
    (other : Option (Master × Fin 4 × BitVec 22 × List Byte)) (ce ue : List (BitVec 22)),
    exec (.benchAccess m false off len data mark other ce ue) s = .next t → t.mem = s.mem) ∧
  (∀ (s t : State) (m : Master) (off : BitVec 22) (len : Fin 65) (data : List Byte) (mark : Bool)
    (other : Option (Master × Fin 4 × BitVec 22 × List Byte)) (ce ue : List (BitVec 22)),
    exec (.benchAccess m true off len data mark other ce ue) s = .next t →
    ∀ b : Nat, b < benchBase + off.toNat ∨ benchBase + off.toNat + data.length ≤ b →
      (∀ o ∈ other, b < benchBase + o.2.2.1.toNat ∨ benchBase + o.2.2.1.toNat + o.2.2.2.length ≤ b) →
      Store.get 0 t.mem b = Store.get 0 s.mem b) ∧
  (∀ (s t : State) (m : Master) (clear : Bool) (off : BitVec 22) (data : List Byte),
    exec (.benchAliasWrite m clear off data) s = .next t → StoresAt (benchBase + off.toNat) data.length s t) ∧
  (∀ (s t : State) (i : Fin 16), exec (.benchWake i) s = .next t →
    ∀ b : Nat, (∀ x ∈ s.ben.held, ¬ storesTo x b) → Store.get 0 t.mem b = Store.get 0 s.mem b) ∧
  (∀ s t : State, exec .dExit s = .next t ∨ exec .refreshEnd s = .next t ∨ exec .opDone s = .next t →
    ∀ b : Nat, (∀ x ∈ s.ben.held, ¬ storesTo x b) → (∀ x ∈ s.qry.waiting, ¬ waitStores x b) →
      Store.get 0 t.mem b = Store.get 0 s.mem b) ∧
  (∀ (s t : State) (m : Master) (v : Word), exec (.benchModeWrite m v) s = .next t →
    ∀ b : Nat, (inBench b 1 = true → benchMode s (benchOf b) = 2 ∨ bits v.toNat (2 * benchOf b + 1) (2 * benchOf b) ≠ 2) →
      Store.get 0 t.mem b = Store.get 0 s.mem b) ∧
  (∀ (s t : State) (m : Master) (k : Byte), exec (.reshape m k) s = .next t →
    ∀ b : Nat, b < quarryBase → Store.get 0 t.mem b = Store.get 0 s.mem b) ∧
  (∀ (s t : State) (j : Fin 2), exec (.tunnelDone j) s = .next t →
    StoresAtFor j.val (s.port j.val).tunAddr (if (s.port j.val).tun = .write then (s.port j.val).tunData.length else 0) s t) ∧
  (∀ (s t : State) (j : Fin 2) (n : Fin 256), exec (.privateRead j n) s = .next t → StoresAtFor j.val 0 0 s t) ∧
  (∀ (s t : State) (m : Master) (a : Addr) (data : List Byte) (n : BitVec 12), allRegisters a.toNat data.length = false →
    exec (.masterAccess m a (some data) n) s = .next t → StoresAtFor m.val a.toNat data.length s t) ∧
  (∀ (s t : State) (m : Master) (a : Addr) (n : BitVec 12), exec (.masterAccess m a none n) s = .next t → StoresAtFor m.val 0 0 s t) ∧
  (∀ (s t : State) (m : Master) (image : Bool) (head : List Byte),
    exec (.loaderGo m image head) s = .next t ∨ exec (.loaderResume m image head) s = .next t → t.mem = s.mem) ∧
  (∀ (s t : State) (m : Master) (image : Bool) (data : List Byte), exec (.loaderAbort m image data) s = .next t →
    StoresAtFor 3 (jobRest s).1 (jobRest s).2 s t) ∧
  (∀ (s t : State) (data : List Byte) (status : Byte),
    exec (.nandStatusPoll data status) s = .next t ∨ exec (.flashTimeout data) s = .next t →
    StoresAtFor 3 (jobRest s).1 (jobRest s).2 s t) ∧
  (∀ (s t : State) (head data : List Byte), exec (.loaderEntryDone head data) s = .next t →
    StoresAtFor 3 (jobRest (if s.ldr.headDue then readHead head s else s)).1 (jobRest (if s.ldr.headDue then readHead head s else s)).2
      s t) ∧
  (∀ (s t : State) (data image block : List Byte), s.ldr.image = false → exec (.loaderDone data image block) s = .next t →
    StoresAtFor 3 (jobRest s).1 (jobRest s).2 s t) ∧
  (∀ (s t : State) (data image block : List Byte), s.ldr.image = true → exec (.loaderDone data image block) s = .next t →
    ∀ b : Nat, Unheld s 3 b → (∀ e ∈ s.ldr.dir, ∀ d : Nat,
        d < ceilDiv (e.dest + e.len - poisonWord e.dest) (wordSize (poisonWord e.dest)) * wordSize (poisonWord e.dest) →
        b ≠ storedAt (poisonWord e.dest + d)) → Store.get 0 t.mem b = Store.get 0 s.mem b) ∧
  (∀ (s t : State) (j : Fin 2), exec (.getCert j) s = .next t →
    StoresAt (mbAddr s j.val 1) (Config.certificate (mbArg s j.val 0)).length s t) ∧
  (∀ (s t : State) (j : Fin 2), exec (.quote j) s = .next t → StoresAt (mbAddr s j.val 3) 8696 s t) ∧
  (∀ (s t : State) (j : Fin 2), exec (.fwStage j) s = .next t → StoresAt stageAddr (mbArg s j.val 3) s t) ∧
  (∀ (s t : State) (m : Master) (p : Page) (inst : Chan) (pend lock sec : Bool) (v : Word),
    exec (.evtEnWrite m p inst v) s = .next t ∨ exec (.evtClear m p inst pend v) s = .next t ∨
      exec (.ownerWrite m p inst lock sec) s = .next t → t.mem = s.mem)

/-- Each of these commands changes the fields of its footprint at its own quad, channel, queue, strobe, line, pin, capture unit or port
alone, and records an error, if any, on its own page: what its rule gives the command is what it does to the others, nothing. (Rests on
02_timebase_sync.md R58, R61, 04_stitcher.md R135, R138, 05_tack_streams.md R163, 06_outputs.md R201, R208, 08_harness.md R247, R255,
R264, R270, 11_host_interface.md R331, 15_register_index.md R418.) -/
def Obligations.OwnInstances : Prop :=
  (∀ (s t : State) (y : Synth), exec (.qclkLocked y) s = .next t →
    OnlyAt .qclk y.val 0 [.QCLK_QCLK_STATUS_LOCKED, .QCLK_QCLK_STATUS_READY] s
    t) ∧
  (∀ (s t : State) (q : Quad), exec (.qclkSettleDone q) s = .next t → OnlyAt .qclk q.val 0 [.QCLK_QCLK_STATUS_SETTLING] s t) ∧
  (∀ (s t : State) (m : Master) (q : Quad), exec (.useSpareSet m q) s = .next t → OnlyAt .qclk q.val 0 [.QCLK_QCLK_CFG_USE_SPARE] s t) ∧
  (∀ (s t : State) (m : Master) (q : Quad), exec (.useSpareClear m q) s = .next t → OnlyAt .qclk q.val 0 [.QCLK_QCLK_CFG_USE_SPARE] s t) ∧
  (∀ (s t : State) (m : Master) (k : Fin 4) (v : Word), exec (.gstbModeWrite m k v) s = .next t → OnlyAt .tbase 0 k.val
    [.TBASE_GSTB_CFG_ALIGN_ARM, .TBASE_GSTB_CFG_ALIGN_LC, .TBASE_GSTB_CFG_MODE, .TBASE_GSTB_CFG_SINGLE_LC, .TBASE_GSTB_STAT_PENDING] s t) ∧
  (∀ (s t : State) (k : Fin 4), exec (.gstbStrobe k) s = .next t →
    OnlyAt .tbase 0 k.val [.TBASE_GSTB_STAT_PENDING, .TBASE_GSTB_STAT_STROBES]
    s t) ∧
  (∀ (s t : State) (c : Chan) (p : Fin 2), exec (.playerFinish c p) s = .next t → OnlyAt .cse c.val 0 [.CSE_STATUS_OPEN] s t) ∧
  (∀ (s t : State) (q : Quad), exec (.waittResume q) s = .next t → OnlyAt .stitch q.val 0 [.STITCH_STATUS_CREDIT_WAIT,
    .STITCH_STATUS_GANG_WAIT, .STITCH_STATUS_WAIT_EVENT, .STITCH_STATUS_WAIT_TIME] s t) ∧
  (∀ (s t : State) (m : Master) (q : Quad) (hi : Fin 2) (v : Word), exec (.lcGrantWrite m q hi v) s = .next t → OnlyAt .stitch q.val 0
    [.STITCH_LC_GRANT] s t) ∧
  (∀ (s t : State) (m : Master) (q : Quad) (v : Word), exec (.evinLatchClear m q v) s = .next t → OnlyAt .stitch q.val 0
    [.STITCH_EVIN_LATCHED_LATCHED] s t) ∧
  (∀ (s t : State) (m : Master) (q : Quad), exec (.mcSwitchReq m q) s = .next t → OnlyAt .stitch q.val 0 [.STITCH_STATUS_MC_PENDING] s t) ∧
  (∀ (s t : State) (q : Quad), exec (.gangReady q) s = .next t → OnlyAt .stitch q.val 0 [.STITCH_GANG_READY_READY] s t) ∧
  (∀ (s t : State) (m : Master) (i : Fin 192) (v : Word), exec (.qcfgWrite m i v) s = .next t → OnlyAt .tack 0 i.val [.TACK_QCFG_CRED_REG,
    .TACK_QCFG_CRED_STITCH, .TACK_QCFG_FMODE] s t) ∧
  (∀ (s t : State) (c : Chan), exec (.sqUnderrunFault c) s = .next t → OnlyAt .out c.val 0 [.OUT_FAULT_STAT_SQ_UNDERRUN] s t) ∧
  (∀ (s t : State) (m : Master) (c : Chan), exec (.stageSwitchReq m c) s = .next t →
    OnlyAt .out c.val 0 [.OUT_STAGE_STAT_REQ_REFUSED] s t) ∧
  (∀ (s t : State) (c : Chan), exec (.currentLimitEnter c) s = .next t → OnlyAt .out c.val 0 [.OUT_STATUS_IN_LIMIT] s t) ∧
  (∀ (s t : State) (c : Chan), exec (.currentLimitExit c) s = .next t → OnlyAt .out c.val 0 [.OUT_STATUS_IN_LIMIT] s t) ∧
  (∀ (s t : State) (c : Chan), exec (.foldbackEnd c) s = .next t → OnlyAt .out c.val 0 [.OUT_STATUS_FOLDBACK] s t) ∧
  (∀ (s t : State) (c : Chan), exec (.overtempClear c) s = .next t → OnlyAt .out c.val 0 [.OUT_STATUS_OVERTEMP] s t) ∧
  (∀ (s t : State) (m : Master) (c : Chan) (f : Bool), exec (.faultForceWrite m c f) s = .next t →
    OnlyAt .out c.val 0 [.OUT_FAULT_CTL_FORCE,
    .OUT_FAULT_STAT_FORCED] s t) ∧
  (∀ (s t : State) (m : Master) (c : Chan), exec (.faultClear m c) s = .next t → OnlyAt .out c.val 0 [.OUT_FAULT_STAT_SQ_UNDERRUN,
    .OUT_FAULT_STAT_WATCHDOG] s t) ∧
  (∀ (s t : State) (m : Master) (c : Chan) (k : Byte), exec (.nvmProgram m c k) s = .next t → OnlyAt .out c.val 0 [.OUT_NVM_STAT_BUSY,
    .OUT_NVM_STAT_ERR] s t) ∧
  (∀ (s t : State) (m : Master) (c : Chan) (k : Byte), exec (.nvmReload m c k) s = .next t → OnlyAt .out c.val 0 [.OUT_NVM_STAT_BUSY,
    .OUT_NVM_STAT_ERR] s t) ∧
  (∀ (s t : State) (m : Master) (l : Line), exec (.stormClear m l) s = .next t → OnlyAt .harness 0 l.val [.HARNESS_LINE_STAT_STORM] s t) ∧
  (∀ (s t : State) (m : Master) (l : Line) (w : Fin 4) (v : Word), exec (.lineSrcWrite m l w v) s = .next t → OnlyAt .harness 0 l.val
    [.HARNESS_LINE_SRC_SLOT] s t) ∧
  (∀ (s t : State) (m : Master) (i : Fin 32) (v : Word), exec (.pinClaim m i v) s = .next t → OnlyAt .pat 0 i.val [.PAT_PIN_CFG_CH,
    .PAT_PIN_CFG_CLAIMED, .PAT_PIN_CFG_DRIVE, .PAT_PIN_CFG_EDGE, .PAT_PIN_CFG_FILT, .PAT_PIN_CFG_FUNC, .PAT_PIN_CFG_GSTB,
    .PAT_PIN_CFG_INVERT, .PAT_PIN_CFG_ODRAIN, .PAT_PIN_CFG_OMODE, .PAT_PIN_CFG_OWNER, .PAT_PIN_PULSE_PULSE] s t) ∧
  (∀ (s t : State) (m : Master) (i : Fin 32), exec (.pinRelease m i) s = .next t →
    OnlyAt .pat 0 i.val [.PAT_PIN_CFG_CH, .PAT_PIN_CFG_CLAIMED,
    .PAT_PIN_CFG_DRIVE, .PAT_PIN_CFG_EDGE, .PAT_PIN_CFG_FILT, .PAT_PIN_CFG_FUNC, .PAT_PIN_CFG_GSTB, .PAT_PIN_CFG_INVERT,
    .PAT_PIN_CFG_ODRAIN, .PAT_PIN_CFG_OMODE, .PAT_PIN_CFG_OWNER, .PAT_PIN_PULSE_PULSE] s t) ∧
  (∀ (s t : State) (m : Master) (i : Fin 32) (omode invert : Bool), exec (.pinModeWrite m i omode invert) s = .next t → OnlyAt .pat 0 i.val
    [.PAT_PIN_CFG_CH, .PAT_PIN_CFG_CLAIMED, .PAT_PIN_CFG_DRIVE, .PAT_PIN_CFG_EDGE, .PAT_PIN_CFG_FILT, .PAT_PIN_CFG_FUNC, .PAT_PIN_CFG_GSTB,
    .PAT_PIN_CFG_INVERT, .PAT_PIN_CFG_ODRAIN, .PAT_PIN_CFG_OMODE, .PAT_PIN_CFG_OWNER, .PAT_PIN_PULSE_PULSE] s t) ∧
  (∀ (s t : State) (m : Master) (u : Fin 16), exec (.capuClaim m u) s = .next t → OnlyAt .harness 0 u.val [.HARNESS_CAPU_CFG_CLAIMED,
    .HARNESS_CAPU_CFG_LEVEL, .HARNESS_CAPU_CFG_OVR, .HARNESS_CAPU_CFG_OWNER] s t) ∧
  (∀ (s t : State) (m : Master) (u : Fin 16), exec (.capuInfoRead m u) s = .next t →
    OnlyAt .harness 0 u.val [.HARNESS_CAPU_CFG_LEVEL] s t) ∧
  (∀ (s t : State) (j : Fin 2), exec (.rstdaa j) s = .next t → OnlyAt .i3c j.val 0 [.I3C_ADDR_STAT_DA, .I3C_STATUS_DA_VALID,
    .I3C_STATUS_I2C_MODE] s t) ∧
  (∀ (s t : State) (j : Fin 2) (a : BitVec 7), exec (.setnewda j a) s = .next t → OnlyAt .i3c j.val 0 [.I3C_ADDR_STAT_DA,
    .I3C_STATUS_DA_VALID, .I3C_STATUS_I2C_MODE] s t) ∧
  (∀ (s t : State) (j : Fin 2) (v : BitVec 16), exec (.setmwl j v) s = .next t → OnlyAt .i3c j.val 0 [.I3C_LIMITS_MWL] s t) ∧
  (∀ (s t : State) (j : Fin 2) (v : BitVec 16), exec (.setmrl j v) s = .next t → OnlyAt .i3c j.val 0 [.I3C_LIMITS_MRL] s t) ∧
  (∀ (s t : State) (j : Fin 2), exec (.enthdr0 j) s = .next t → OnlyAt .i3c j.val 0 [.I3C_STATUS_HDR] s t) ∧
  (∀ (s t : State) (j : Fin 2), exec (.hdrExit j) s = .next t → OnlyAt .i3c j.val 0 [.I3C_STATUS_HDR] s t) ∧
  (∀ (s t : State) (j : Fin 2), exec (.portHealthReturn j) s = .next t → OnlyAt .i3c j.val 0 [.I3C_STATUS_HEALTHY] s t)

/-- The offsets +0x024 to +0x03C of every page are unassigned, and so is every offset that its page does not define and every address of
the register range outside the pages. A write there, by any master, leaves the whole state as it was, and so no error. A read there
answers 0 and changes nothing but the answer. (R7.) -/
def Obligations.UnassignedOffsets : Prop :=
  (∀ (s : State) (p : Page) (inst off m : Nat), 0x24 ≤ off → off < 0x40 → assigned s p inst off m = false) ∧
  (∀ (s : State) (m : Master) (a : BitVec 24) (v : Word) (p : Page) (inst : Nat), pageAt (regAddr a) = some (p, inst) →
    assigned s p inst (regAddr a % 0x1000 / 4 * 4) m.val = false → exec (.registerWrite m a v) s = .next s) ∧
  (∀ (s : State) (m : Master) (a : BitVec 24) (p : Page) (inst : Nat), s.dev = .up → pageAt (regAddr a) = some (p, inst) →
    assigned s p inst (regAddr a % 0x1000 / 4 * 4) m.val = false →
    exec (.readClear m a) s = .next { s with readData := leBytes 4 0 }) ∧
  (∀ (s : State) (m : Master) (a : BitVec 24) (v : Word), pageAt (regAddr a) = none → exec (.registerWrite m a v) s = .next s) ∧
  (∀ (s : State) (m : Master) (a : BitVec 24), s.dev = .up → pageAt (regAddr a) = none →
    exec (.readClear m a) s = .next { s with readData := leBytes 4 0 })

/-- HALT sets HALTED, ends RUNNING, raises HALTED and leaves every armed jump and every alternate as it was; a halted Stitcher's armed
jump that is due resumes execution at its target. NOP goes on at the next instruction and changes nothing else. (R134.) -/
def Obligations.HaltAndNop : Prop :=
  (∀ (s : State) (q : Quad) (w : Nat), Executes s q w 0x01 →
    ∃ t, exec (.halt q) s = .next t ∧ t.rd .STITCH_STATUS_HALTED q.val = 1 ∧ t.rd .STITCH_STATUS_RUNNING q.val = 0 ∧
      Raised t .stitch q.val 0 ∧ (t.stitcher q.val).armed = (s.stitcher q.val).armed ∧ t.cses = s.cses) ∧
  (∀ (s : State) (q : Quad) (e : Nat) (j : ArmedJump), s.dev = .up → s.rd .STITCH_STATUS_HALTED q.val = 1 →
    switchInputs s q.val = [(e, j)] → j.lpop ≤ min j.loops (s.stitcher q.val).loops.length → j.target < progLen s q.val →
    ∃ t, exec (.armedSwitch q) s = .next t ∧ GoesOn t q j.target ∧ t.rd .STITCH_STATUS_HALTED q.val = 0) ∧
  (∀ (s : State) (q : Quad) (w : Nat), Executes s q w 0x00 →
    ∃ t, exec (.nop q) s = .next t ∧ t = s.setStitcher q.val
      { s.stitcher q.val with ir := none, todo := [], pc := (s.stitcher q.val).pc + 1 })

/-- A write of a new REF_MODE other than 3 sets it, sets HOLDOVER, clears PLL_LOCKED and raises REF_LOST; REF_PRESENT is 0 after a write
of an external mode, and after one of INTERNAL it is 1 and REF_RETURN is raised. A write of 3 or of the present mode changes nothing,
but that a host master's write is a wake cause. A write of HOLD_RESYNC = 0 clears it. The loss of a present external reference sets
HOLDOVER, clears REF_PRESENT and PLL_LOCKED and raises REF_LOST. The return of an absent one sets REF_PRESENT, stores the phase error
measured and raises REF_RETURN. A relock with the reference present, out of holdover or with HOLD_RESYNC 0, sets PLL_LOCKED and SLEWING
and clears HOLDOVER (that HOLDOVER clears there is the model's reading, log entry 5; that a relock without holdover slews is its choice,
log entry 131). The end of a slew clears SLEWING and the phase error and raises SLEW_DONE. A lost lock with the reference present clears
PLL_LOCKED and raises PLL_UNLOCK. (Rests on 02_timebase_sync.md R34, R36, R37.) -/
def Obligations.ReferenceCommands : Prop :=
  (∀ (s : State) (m : Master) (v : Fin 4), MayWrite s .tbase 0 m → v.val ≠ 3 → v.val ≠ s.rd .TBASE_TB_CFG_REF_MODE →
    ∃ t, exec (.refModeWrite m v) s = .next t ∧ t.rd .TBASE_TB_CFG_REF_MODE = v.val ∧ t.rd .TBASE_TB_STATUS_HOLDOVER = 1 ∧
      t.rd .TBASE_TB_STATUS_PLL_LOCKED = 0 ∧ Raised t .tbase 0 1 ∧ (v.val ≠ 0 → t.rd .TBASE_TB_STATUS_REF_PRESENT = 0) ∧
      (v.val = 0 → t.rd .TBASE_TB_STATUS_REF_PRESENT = 1 ∧ Raised t .tbase 0 2)) ∧
  (∀ (s : State) (m : Master) (v : Fin 4), MayWrite s .tbase 0 m → v.val = 3 ∨ v.val = s.rd .TBASE_TB_CFG_REF_MODE →
    exec (.refModeWrite m v) s = .next (hostWake m.val s)) ∧
  (∀ (s : State) (m : Master), MayWrite s .tbase 0 m →
    ∃ t, exec (.holdResyncClear m) s = .next t ∧ t.rd .TBASE_TB_CFG_HOLD_RESYNC = 0) ∧
  (∀ s : State, s.dev = .up → s.rd .TBASE_TB_CFG_REF_MODE ≠ 0 → s.rd .TBASE_TB_STATUS_REF_PRESENT = 1 →
    ∃ t, exec .refLost s = .next t ∧ t.rd .TBASE_TB_STATUS_HOLDOVER = 1 ∧ t.rd .TBASE_TB_STATUS_REF_PRESENT = 0 ∧
      t.rd .TBASE_TB_STATUS_PLL_LOCKED = 0 ∧ Raised t .tbase 0 1) ∧
  (∀ (s : State) (e : BitVec 16), s.dev = .up → s.rd .TBASE_TB_STATUS_REF_PRESENT = 0 →
    ∃ t, exec (.refReturn e) s = .next t ∧ t.rd .TBASE_TB_STATUS_REF_PRESENT = 1 ∧
      t.rd .TBASE_TB_STATUS_PHASE_ERR = e.toNat ∧ Raised t .tbase 0 2) ∧
  (∀ s : State, s.dev = .up → s.rd .TBASE_TB_STATUS_PLL_LOCKED = 0 → s.rd .TBASE_TB_STATUS_REF_PRESENT = 1 →
    s.rd .TBASE_TB_STATUS_HOLDOVER = 0 ∨ s.rd .TBASE_TB_CFG_HOLD_RESYNC = 0 →
    ∃ t, exec .pllRelocked s = .next t ∧ t.rd .TBASE_TB_STATUS_PLL_LOCKED = 1 ∧ t.rd .TBASE_TB_STATUS_SLEWING = 1 ∧
      t.rd .TBASE_TB_STATUS_HOLDOVER = 0) ∧
  (∀ s : State, s.dev = .up → s.rd .TBASE_TB_STATUS_SLEWING = 1 →
    ∃ t, exec .slewDone s = .next t ∧ t.rd .TBASE_TB_STATUS_SLEWING = 0 ∧ t.rd .TBASE_TB_STATUS_PHASE_ERR = 0 ∧ Raised t .tbase 0 3) ∧
  (∀ s : State, s.dev = .up → s.rd .TBASE_TB_STATUS_PLL_LOCKED = 1 → s.rd .TBASE_TB_STATUS_REF_PRESENT = 1 →
    ∃ t, exec .pllUnlock s = .next t ∧ t.rd .TBASE_TB_STATUS_PLL_LOCKED = 0 ∧ Raised t .tbase 0 0)

/-- ARM with a source that the reference mode allows sets EPOCH_ARMED; with another it arms nothing and records PREPARE_FAILED. CANCEL
clears EPOCH_ARMED. The instant of an armed HOST or PPS load is in INTERNAL the first tick at least 100 ns (40 ticks) after ARM, and
with a present reference the edge that the command reports, for HOST one not earlier than that tick. At or after it the load sets the
count to the loaded value plus the n ticks since the instant, sets EPOCH_VALID, clears EPOCH_ARMED and raises EPOCH_LOADED; if that is a
step, every quad's ALIGNED clears. With a valid count and STEP_ALLOW 0 a load that would step leaves the count, clears EPOCH_ARMED and
raises EPOCH_MISMATCH. In INTERNAL a load before its instant changes nothing. (Rests on 02_timebase_sync.md R38, R39, R40, R42, R43.) -/
def Obligations.EpochLoads : Prop :=
  (∀ (s : State) (m : Master), MayWrite s .tbase 0 m →
    epochSourceOk (s.rd .TBASE_TB_CFG_REF_MODE) (s.rd .TBASE_TB_CFG_EPOCH_SRC) = true →
    ∃ t, exec (.epochArm m) s = .next t ∧ t.rd .TBASE_TB_STATUS_EPOCH_ARMED = 1) ∧
  (∀ (s : State) (m : Master), MayWrite s .tbase 0 m →
    epochSourceOk (s.rd .TBASE_TB_CFG_REF_MODE) (s.rd .TBASE_TB_CFG_EPOCH_SRC) = false →
    ∃ t, exec (.epochArm m) s = .next t ∧ t.rd .TBASE_TB_STATUS_EPOCH_ARMED = s.rd .TBASE_TB_STATUS_EPOCH_ARMED ∧
      Recorded s t .tbase 0 errPrepareFailed m.val) ∧
  (∀ (s : State) (m : Master), MayWrite s .tbase 0 m →
    ∃ t, exec (.epochCancel m) s = .next t ∧ t.rd .TBASE_TB_STATUS_EPOCH_ARMED = 0) ∧
  (∀ (s : State) (age : BitVec 8) (n : Nat), s.dev = .up → s.rd .TBASE_TB_STATUS_EPOCH_ARMED = 1 → s.rd .TBASE_TB_CFG_EPOCH_SRC ≠ 1 →
    (s.rd .TBASE_TB_CFG_REF_MODE = 0 ∧ s.epoch.armedAt + 40 + n = s.osc) ∨ (s.rd .TBASE_TB_CFG_REF_MODE ≠ 0 ∧
      s.rd .TBASE_TB_STATUS_REF_PRESENT = 1 ∧ n = age.toNat ∧ (s.rd .TBASE_TB_CFG_EPOCH_SRC = 2 ∨ s.epoch.armedAt + 40 + n ≤ s.osc)) →
    s.rd .TBASE_TB_STATUS_EPOCH_VALID = 0 ∨ s.rd .TBASE_TB_CFG_STEP_ALLOW = 1 →
    ∃ t, exec (.epochLoad age) s = .next t ∧ t.now = (hostEpoch s + n) % 2 ^ 64 ∧
      t.rd .TBASE_TB_STATUS_EPOCH_VALID = 1 ∧ t.rd .TBASE_TB_STATUS_EPOCH_ARMED = 0 ∧ Raised t .tbase 0 4 ∧
      ((hostEpoch s + n) % 2 ^ 64 ≠ s.now → ∀ q : Nat, q < 12 → t.rd .QCLK_QCLK_STATUS_ALIGNED q = 0)) ∧
  (∀ (s : State) (age : BitVec 8) (n : Nat), s.dev = .up → s.rd .TBASE_TB_STATUS_EPOCH_ARMED = 1 → s.rd .TBASE_TB_CFG_EPOCH_SRC ≠ 1 →
    (s.rd .TBASE_TB_CFG_REF_MODE = 0 ∧ s.epoch.armedAt + 40 + n = s.osc) ∨ (s.rd .TBASE_TB_CFG_REF_MODE ≠ 0 ∧
      s.rd .TBASE_TB_STATUS_REF_PRESENT = 1 ∧ n = age.toNat ∧ (s.rd .TBASE_TB_CFG_EPOCH_SRC = 2 ∨ s.epoch.armedAt + 40 + n ≤ s.osc)) →
    s.rd .TBASE_TB_STATUS_EPOCH_VALID = 1 → s.rd .TBASE_TB_CFG_STEP_ALLOW = 0 → (hostEpoch s + n) % 2 ^ 64 ≠ s.now →
    ∃ t, exec (.epochLoad age) s = .next t ∧ t.now = s.now ∧ t.rd .TBASE_TB_STATUS_EPOCH_ARMED = 0 ∧
      t.rd .TBASE_TB_STATUS_EPOCH_VALID = 1 ∧ Raised t .tbase 0 5) ∧
  (∀ (s : State) (age : BitVec 8), s.rd .TBASE_TB_CFG_REF_MODE = 0 → s.osc < s.epoch.armedAt + 40 →
    exec (.epochLoad age) s = .next s)

/-- TALLY_EN stores as written, and 0 also clears TALLY_SYNC; under TALLY_EN the acquisition of sync sets TALLY_SYNC; a loss of commas
in sync clears it and raises TALLY_LOS. In sync, an EPOCH frame with a bad CRC is counted and raises TALLY_CRC, one for another target
changes nothing, and a malformed one for this device is counted as dropped. A good EPOCH frame for this device with no load armed that
differs from the count raises EPOCH_MISMATCH and leaves the count; with a TALLY load armed that may step and the reference present it
loads the count and raises EPOCH_LOADED, and with the reference absent it keeps the value for the first edge (log entry 39). A good
LAUNCH frame for this device arms every claimed comparator with SRC_TALLY and its tag that was not armed, with its C and f, and stages
them (that it stages them is the model's reading, log entry 132). A good SPEED frame for this device joins the commands of each quad
subscribed to its channel. The late commands kept for a quad that are due leave it, and LC_LATE is raised. (Rests on 02_timebase_sync.md
R38, R42, R64, R66, R67, R68.) -/
def Obligations.TallyFrames : Prop :=
  (∀ (s : State) (m : Master) (en : Bool), MayWrite s .tbase 0 m →
    ∃ t, exec (.tallyEnWrite m en) s = .next t ∧ t.rd .TBASE_TB_CFG_TALLY_EN = (if en then 1 else 0) ∧
      t.rd .TBASE_TB_STATUS_TALLY_SYNC = (if en then s.rd .TBASE_TB_STATUS_TALLY_SYNC else 0)) ∧
  (∀ s : State, s.dev = .up → s.rd .TBASE_TB_CFG_TALLY_EN = 1 →
    ∃ t, exec .tallySyncAcquire s = .next t ∧ t.rd .TBASE_TB_STATUS_TALLY_SYNC = 1) ∧
  (∀ s : State, s.dev = .up → s.rd .TBASE_TB_STATUS_TALLY_SYNC = 1 →
    ∃ t, exec .tallyLos s = .next t ∧ t.rd .TBASE_TB_STATUS_TALLY_SYNC = 0 ∧ Raised t .tbase 0 6) ∧
  (∀ (s : State) (fr : List Byte) (age : BitVec 16), s.dev = .up → s.rd .TBASE_TB_STATUS_TALLY_SYNC = 1 → frameType fr = 1 →
    frameCrcOk fr = false →
    ∃ t, exec (.tallyEpochFrame fr age) s = .next t ∧ t.now = s.now ∧ Raised t .tbase 0 7 ∧
      t.rd .TBASE_TALLY_CNT_CRC_ERR = satAdd Reg.TBASE_TALLY_CNT_CRC_ERR.width (s.rd .TBASE_TALLY_CNT_CRC_ERR) 1) ∧
  (∀ (s : State) (fr : List Byte) (age : BitVec 16), s.dev = .up → s.rd .TBASE_TB_STATUS_TALLY_SYNC = 1 → frameType fr = 1 →
    frameCrcOk fr = true → frameTarget s fr = false → exec (.tallyEpochFrame fr age) s = .next s) ∧
  (∀ (s : State) (fr : List Byte) (age : BitVec 16), s.dev = .up → s.rd .TBASE_TB_STATUS_TALLY_SYNC = 1 → frameType fr = 1 →
    frameCrcOk fr = true → frameTarget s fr = true → frameForm fr = false →
    ∃ t, exec (.tallyEpochFrame fr age) s = .next t ∧ t.now = s.now ∧
      t.rd .TBASE_TALLY_CNT_DROPPED = satAdd Reg.TBASE_TALLY_CNT_DROPPED.width (s.rd .TBASE_TALLY_CNT_DROPPED) 1) ∧
  (∀ (s : State) (fr : List Byte) (age : BitVec 16), s.dev = .up → s.rd .TBASE_TB_STATUS_TALLY_SYNC = 1 → frameType fr = 1 →
    frameCrcOk fr = true → frameTarget s fr = true → frameForm fr = true → frameLe fr 4 8 % 4 = 0 →
    s.rd .TBASE_TB_STATUS_EPOCH_ARMED = 0 →
    (frameLe fr 4 8 + 4 * s.rd .TBASE_TALLY_CFG_DLY_EDGES + age.toNat) % 2 ^ 64 ≠ s.now →
    ∃ t, exec (.tallyEpochFrame fr age) s = .next t ∧ t.now = s.now ∧ Raised t .tbase 0 5) ∧
  (∀ (s : State) (fr : List Byte) (age : BitVec 16), s.dev = .up → s.rd .TBASE_TB_STATUS_TALLY_SYNC = 1 → frameType fr = 1 →
    frameCrcOk fr = true → frameTarget s fr = true → frameForm fr = true → frameLe fr 4 8 % 4 = 0 →
    s.rd .TBASE_TB_STATUS_EPOCH_ARMED = 1 → s.rd .TBASE_TB_CFG_EPOCH_SRC = 1 → s.rd .TBASE_TB_STATUS_REF_PRESENT = 1 →
    s.rd .TBASE_TB_STATUS_EPOCH_VALID = 0 ∨ s.rd .TBASE_TB_CFG_STEP_ALLOW = 1 →
    ∃ t, exec (.tallyEpochFrame fr age) s = .next t ∧ Raised t .tbase 0 4 ∧
      t.now = (frameLe fr 4 8 + 4 * s.rd .TBASE_TALLY_CFG_DLY_EDGES + age.toNat) % 2 ^ 64) ∧
  (∀ (s : State) (fr : List Byte) (age : BitVec 16), s.dev = .up → s.rd .TBASE_TB_STATUS_TALLY_SYNC = 1 → frameType fr = 1 →
    frameCrcOk fr = true → frameTarget s fr = true → frameForm fr = true → frameLe fr 4 8 % 4 = 0 →
    s.rd .TBASE_TB_STATUS_EPOCH_ARMED = 1 → s.rd .TBASE_TB_CFG_EPOCH_SRC = 1 → s.rd .TBASE_TB_STATUS_REF_PRESENT = 0 →
    s.epoch.value = none →
    ∃ t, exec (.tallyEpochFrame fr age) s = .next t ∧ t.now = s.now ∧
      t.epoch.value = some ((frameLe fr 4 8 + 4 * s.rd .TBASE_TALLY_CFG_DLY_EDGES) % 2 ^ 64)) ∧
  (∀ (s : State) (fr : List Byte), s.dev = .up → s.rd .TBASE_TB_STATUS_TALLY_SYNC = 1 → frameType fr = 2 → frameCrcOk fr = true →
    frameTarget s fr = true → frameForm fr = true →
    ∃ t, exec (.tallyLaunchFrame fr) s = .next t ∧ ∀ i : Nat, i < 64 → s.rd .TBASE_LC_CTRL_CLAIMED 0 i = 1 →
      s.rd .TBASE_LC_CTRL_SRC_TALLY 0 i = 1 → s.rd .TBASE_LC_CTRL_TAG 0 i = frameLe fr 4 1 → lcArmed s i = false →
      t.rd .TBASE_LC_CTRL_ARM 0 i = 1 ∧ (t.lc i).c = frameLe fr 5 8 ∧ (t.lc i).f = frameLe fr 13 1 ∧
      stagedTime t i = frameLe fr 5 8 ∧ t.rd .TBASE_LC_CTRL_FRAC 0 i = frameLe fr 13 1) ∧
  (∀ (s : State) (fr : List Byte), s.dev = .up → s.rd .TBASE_TB_STATUS_TALLY_SYNC = 1 → frameType fr = 3 → frameCrcOk fr = true →
    frameTarget s fr = true → frameForm fr = true → bits (frameLe fr 4 1) 3 0 ≠ 15 →
    ∃ t, exec (.tallySpeedFrame fr) s = .next t ∧ ∀ q : Nat, q < 12 → s.rd .TBASE_TSPD_MAP 0 0 q = bits (frameLe fr 4 1) 3 0 →
      ∃ x, (t.clock q).tally = (s.clock q).tally ++ [x] ∧ x.target = frameLe fr 5 8 ∧ x.mode = bits (frameLe fr 4 1) 5 4 ∧
        x.ramp = frameLe fr 13 4 ∧ x.blend = frameLe fr 17 3) ∧
  (∀ (s : State) (q : Quad), s.dev = .up → lateWaits s q.val = true →
    ∃ t, exec (.tallySpeedDeferred q) s = .next t ∧ (t.clock q.val).tally = (s.clock q.val).tally.filter (fun x => !x.late) ∧
      Raised t .tbase 0 8)

/-- A claim of a comparator that is free or the writer's own makes the writer its owner, writes FRAC, PERIODIC, SRC_TALLY and TAG, and
arms it where ARM is written 1; the claim of another's changes no comparator's time or owner and records COMPARATOR_EXHAUSTED. The
owner's ARM puts the staged time into effect while nothing is armed or the armed time can still be replaced (not late and 32 ticks or
more ahead), late where it is not later than the count plus 32 (at equality by the model's reading, log entry 8); later it waits for the
firing. The owner's disarm of a time that can still be replaced disarms; of another it cancels what follows the firing. A due firing
presents the comparator's producer; then a cancelled or single-shot comparator is disarmed, one armed anew holds that time and a
periodic one is armed PERIOD later. The owner's release clears ARM and every field of the comparator and leaves it unclaimed. A write of
GSTB_CFG that names no comparator, or only ones the writer owns, stores MODE, ALIGN_LC, ALIGN_ARM and SINGLE_LC, and a change of MODE
clears PENDING; one that names another changes none of them and records OWNER_DENIED. A candidate edge that carries a strobe clears
PENDING and advances STROBES. (Rests on 02_timebase_sync.md R44, R45, R48, R49, R50, R51, R62.) -/
def Obligations.ComparatorsAndStrobes : Prop :=
  (∀ (s : State) (m : Master) (i : Lc) (v : Word), MayWrite s .tbase 0 m →
    s.rd .TBASE_LC_CTRL_CLAIMED 0 i.val = 0 ∨ (s.rd .TBASE_LC_CTRL_CLAIMED 0 i.val = 1 ∧ s.rd .TBASE_LC_CTRL_OWNER 0 i.val = m.val) →
    ∃ t, exec (.lcClaim m i v) s = .next t ∧ t.rd .TBASE_LC_CTRL_CLAIMED 0 i.val = 1 ∧ t.rd .TBASE_LC_CTRL_OWNER 0 i.val = m.val ∧
      t.rd .TBASE_LC_CTRL_FRAC 0 i.val = bits v.toNat 7 0 ∧ t.rd .TBASE_LC_CTRL_PERIODIC 0 i.val = bit v.toNat 9 ∧
      t.rd .TBASE_LC_CTRL_SRC_TALLY 0 i.val = bit v.toNat 10 ∧ t.rd .TBASE_LC_CTRL_TAG 0 i.val = bits v.toNat 19 12 ∧
      (bit v.toNat 8 = 1 → t.rd .TBASE_LC_CTRL_ARM 0 i.val = 1)) ∧
  (∀ (s : State) (m : Master) (i : Lc) (v : Word), MayWrite s .tbase 0 m → s.rd .TBASE_LC_CTRL_CLAIMED 0 i.val = 1 →
    s.rd .TBASE_LC_CTRL_OWNER 0 i.val ≠ m.val →
    ∃ t, exec (.lcClaim m i v) s = .next t ∧ t.rd .TBASE_LC_CTRL_OWNER 0 i.val = s.rd .TBASE_LC_CTRL_OWNER 0 i.val ∧ t.lcs = s.lcs ∧
      Recorded s t .tbase 0 errComparatorExhausted m.val) ∧
  (∀ (s : State) (m : Master) (i : Lc), Inv s → MayWrite s .tbase 0 m → ownsLc s m.val i.val = true →
    lcArmed s i.val = false ∨ canReplace s i.val = true →
    ∃ t, exec (.lcArm m i) s = .next t ∧ t.rd .TBASE_LC_CTRL_ARM 0 i.val = 1 ∧ (t.lc i.val).c = stagedTime s i.val ∧
      (t.lc i.val).f = s.rd .TBASE_LC_CTRL_FRAC 0 i.val ∧
      (stagedTime s i.val ≤ s.now + 32 → (t.lc i.val).late = true ∧ t.rd .TBASE_LC_LATE 0 0 i.val = 1 ∧ Raised t .tbase 0 8) ∧
      (s.now + 32 < stagedTime s i.val → (t.lc i.val).late = false)) ∧
  (∀ (s : State) (m : Master) (i : Lc), Inv s → MayWrite s .tbase 0 m → ownsLc s m.val i.val = true → lcArmed s i.val = true →
    canReplace s i.val = false →
    ∃ t, exec (.lcArm m i) s = .next t ∧
      t.lc i.val = { s.lc i.val with rearm := some (stagedTime s i.val, s.rd .TBASE_LC_CTRL_FRAC 0 i.val), cancelled := false }) ∧
  (∀ (s : State) (m : Master) (i : Lc), Inv s → MayWrite s .tbase 0 m → ownsLc s m.val i.val = true → lcArmed s i.val = true →
    canReplace s i.val = true →
    ∃ t, exec (.lcDisarm m i) s = .next t ∧ t.rd .TBASE_LC_CTRL_ARM 0 i.val = 0 ∧ t.lc i.val = ({} : Comparator)) ∧
  (∀ (s : State) (m : Master) (i : Lc), Inv s → MayWrite s .tbase 0 m → ownsLc s m.val i.val = true → lcArmed s i.val = true →
    canReplace s i.val = false →
    ∃ t, exec (.lcDisarm m i) s = .next t ∧ t.lc i.val = { s.lc i.val with rearm := none, cancelled := true }) ∧
  (∀ (s : State) (i : Lc), s.dev = .up → fireDue s i.val = true → (s.lc i.val).cancelled = true ∨ ((s.lc i.val).rearm = none ∧
      s.rd .TBASE_LC_CTRL_PERIODIC 0 i.val = 0) →
    ∃ t, exec (.lcFire i) s = .next t ∧ t.rd .TBASE_LC_CTRL_ARM 0 i.val = 0 ∧ 0x100 + i.val ∈ t.presented) ∧
  (∀ (s : State) (i : Lc) (c f : Nat), s.dev = .up → fireDue s i.val = true → (s.lc i.val).cancelled = false →
    (s.lc i.val).rearm = some (c, f) →
    ∃ t, exec (.lcFire i) s = .next t ∧ t.rd .TBASE_LC_CTRL_ARM 0 i.val = 1 ∧ 0x100 + i.val ∈ t.presented ∧ (t.lc i.val).c = c ∧
      (t.lc i.val).f = f) ∧
  (∀ (s : State) (i : Lc), s.dev = .up → fireDue s i.val = true → (s.lc i.val).cancelled = false → (s.lc i.val).rearm = none →
    s.rd .TBASE_LC_CTRL_PERIODIC 0 i.val = 1 →
    ∃ t, exec (.lcFire i) s = .next t ∧ t.rd .TBASE_LC_CTRL_ARM 0 i.val = 1 ∧ 0x100 + i.val ∈ t.presented ∧
      (t.lc i.val).c = ((s.lc i.val).c + s.rd .TBASE_LC_PERIOD_PERIOD 0 i.val) % 2 ^ 64) ∧
  (∀ (s : State) (m : Master) (i : Lc), Inv s → MayWrite s .tbase 0 m → ownsLc s m.val i.val = true →
    ∃ t, exec (.lcRelease m i) s = .next t ∧ t.lc i.val = ({} : Comparator) ∧ t.rd .TBASE_LC_LATE 0 0 i.val = 0 ∧
      ∀ r ∈ ([.TBASE_LC_CTRL_CLAIMED, .TBASE_LC_CTRL_ARM, .TBASE_LC_CTRL_OWNER, .TBASE_LC_CTRL_FRAC, .TBASE_LC_CTRL_PERIODIC,
        .TBASE_LC_CTRL_SRC_TALLY, .TBASE_LC_CTRL_TAG, .TBASE_LC_TIME_LO_C_LO, .TBASE_LC_TIME_HI_C_HI, .TBASE_LC_PERIOD_PERIOD] : List Reg),
        t.rd r 0 i.val = 0) ∧
  (∀ (s : State) (m : Master) (k : Fin 4) (v : Word), MayWrite s .tbase 0 m →
    (bit v.toNat 14 = 1 → ownsLc s m.val (bits v.toNat 13 8) = true) → (bits v.toNat 1 0 = 2 → ownsLc s m.val (bits v.toNat 21 16) = true) →
    ∃ t, exec (.gstbModeWrite m k v) s = .next t ∧ t.rd .TBASE_GSTB_CFG_MODE 0 k.val = bits v.toNat 1 0 ∧
      t.rd .TBASE_GSTB_CFG_ALIGN_LC 0 k.val = bits v.toNat 13 8 ∧ t.rd .TBASE_GSTB_CFG_ALIGN_ARM 0 k.val = bit v.toNat 14 ∧
      t.rd .TBASE_GSTB_CFG_SINGLE_LC 0 k.val = bits v.toNat 21 16 ∧
      (bits v.toNat 1 0 ≠ s.rd .TBASE_GSTB_CFG_MODE 0 k.val → t.rd .TBASE_GSTB_STAT_PENDING 0 k.val = 0)) ∧
  (∀ (s : State) (m : Master) (k : Fin 4) (v : Word), MayWrite s .tbase 0 m →
    (bit v.toNat 14 = 1 ∧ ownsLc s m.val (bits v.toNat 13 8) = false) ∨
      (bits v.toNat 1 0 = 2 ∧ ownsLc s m.val (bits v.toNat 21 16) = false) →
    ∃ t, exec (.gstbModeWrite m k v) s = .next t ∧ Recorded s t .tbase 0 errOwnerDenied m.val ∧
      ∀ r ∈ ([.TBASE_GSTB_CFG_MODE, .TBASE_GSTB_CFG_ALIGN_LC, .TBASE_GSTB_CFG_ALIGN_ARM, .TBASE_GSTB_CFG_SINGLE_LC] : List Reg),
        t.rd r 0 k.val = s.rd r 0 k.val) ∧
  (∀ (s : State) (k : Fin 4), s.dev = .up → strobeDue s k.val = true →
    ∃ t, exec (.gstbStrobe k) s = .next t ∧ t.rd .TBASE_GSTB_STAT_PENDING 0 k.val = 0 ∧
      t.rd .TBASE_GSTB_STAT_STROBES 0 k.val = (s.rd .TBASE_GSTB_STAT_STROBES 0 k.val + 1) % 2 ^ Reg.TBASE_GSTB_STAT_STROBES.width)

/-- In D0 a rising ENABLE of a quad without a clock makes an unaligned one run with edge 0 on this tick and STOPPED clear; an aligned
one waits for the first edge of its restart. ENABLE 0 stops a running clock, sets STOPPED, keeps the timeline and raises no LOCK_LOST;
of a clock that does not run it withdraws a restart. A loop that locks sets LOCKED of a quad that runs or restarts on its own
synthesizer, READY of a quad that is to move back, and LOCKED of an assigned spare. The end of settling clears SETTLING. A lost lock of
a running quad's own synthesizer stops the quad, clears LOCKED, sets STOPPED and raises LOCK_LOST; of one whose quad runs on the spare
it clears READY; of the spare it clears its READY and LOCKED, raises LOCK_LOST on its page, and stops each running quad on it with
LOCK_LOST. A restart whose synthesizer is locked runs again from the first edge not before the present instant, counts the skipped edges
in MISSED, clears STOPPED and raises RESUMED. A write of COVER, no other quad using the spare, stores QUAD and VALID, takes the quad's
QCLK_N and IF_LOG2 and clears READY; while another quad uses it the cover stays and SPARE_IN_USE is recorded. An assigned spare that is
ready sets READY and LOCKED. USE_SPARE 1 stores; with the covering spare READY the quad moves onto it and REHOMED is raised. USE_SPARE 0
stores, and of a quad on the spare it requests the move back; at an edge with the own synthesizer ready the quad is on it again and
REHOMED is raised. (Rests on 02_timebase_sync.md R53, R54, R55, R56, R58, R59, 13_power_reset_availability.md R402.) -/
def Obligations.QuadAndSpareClocks : Prop :=
  (∀ (s : State) (m : Master) (q : Quad), MayWrite s .qclk q.val m → s.rd .CTRL_ENABLE q.val (Page.code .qclk) = 0 →
    (s.clock q.val).running = false → s.rd .POWER_STATUS_DSTATE = 0 → s.rd .QCLK_QCLK_STATUS_ALIGNED q.val = 0 →
    ∃ t, exec (.qclkStart m q) s = .next t ∧ t.rd .CTRL_ENABLE q.val (Page.code .qclk) = 1 ∧ (t.clock q.val).running = true ∧
      (t.clock q.val).edge0 = (s.osc : Rat) ∧ (t.clock q.val).next = 0 ∧ t.rd .QCLK_QCLK_STATUS_STOPPED q.val = 0) ∧
  (∀ (s : State) (m : Master) (q : Quad), MayWrite s .qclk q.val m → s.rd .CTRL_ENABLE q.val (Page.code .qclk) = 0 →
    (s.clock q.val).running = false → s.rd .POWER_STATUS_DSTATE = 0 → s.rd .QCLK_QCLK_STATUS_ALIGNED q.val = 1 →
    ∃ t, exec (.qclkStart m q) s = .next t ∧ t.rd .CTRL_ENABLE q.val (Page.code .qclk) = 1 ∧ (t.clock q.val).resuming = true ∧
      (t.clock q.val).edge0 = (s.clock q.val).edge0) ∧
  (∀ (s : State) (m : Master) (q : Quad), MayWrite s .qclk q.val m → (s.clock q.val).running = true →
    ∃ t, exec (.qclkStop m q) s = .next t ∧ t.rd .CTRL_ENABLE q.val (Page.code .qclk) = 0 ∧ (t.clock q.val).running = false ∧
      t.rd .QCLK_QCLK_STATUS_STOPPED q.val = 1 ∧ (t.clock q.val).edge0 = (s.clock q.val).edge0 ∧
      t.rd .EVT_RAW_RAW q.val (Page.code .qclk) 0 = s.rd .EVT_RAW_RAW q.val (Page.code .qclk) 0) ∧
  (∀ (s : State) (m : Master) (q : Quad), MayWrite s .qclk q.val m → (s.clock q.val).running = false →
    ∃ t, exec (.qclkStop m q) s = .next t ∧ t.rd .CTRL_ENABLE q.val (Page.code .qclk) = 0 ∧ (t.clock q.val).running = false ∧
      (t.clock q.val).resuming = false) ∧
  (∀ (s : State) (y : Synth), s.dev = .up → y.val ≠ 12 → s.rd .QCLK_QCLK_STATUS_ON_SPARE y.val = 0 →
    (s.clock y.val).running = true ∨ (s.clock y.val).resuming = true →
    ∃ t, exec (.qclkLocked y) s = .next t ∧ t.rd .QCLK_QCLK_STATUS_LOCKED y.val = 1) ∧
  (∀ (s : State) (y : Synth), s.dev = .up → y.val ≠ 12 → s.rd .QCLK_QCLK_STATUS_ON_SPARE y.val = 1 → (s.clock y.val).moveBack = true →
    ∃ t, exec (.qclkLocked y) s = .next t ∧ t.rd .QCLK_QCLK_STATUS_READY y.val = 1) ∧
  (∀ s : State, s.dev = .up → s.rd .QCLK_COVER_VALID 12 = 1 →
    ∃ t, exec (.qclkLocked 12) s = .next t ∧ t.rd .QCLK_QCLK_STATUS_LOCKED 12 = 1) ∧
  (∀ (s : State) (q : Quad), s.dev = .up →
    ∃ t, exec (.qclkSettleDone q) s = .next t ∧ t.rd .QCLK_QCLK_STATUS_SETTLING q.val = 0) ∧
  (∀ (s : State) (y : Synth), s.dev = .up → y.val ≠ 12 → s.rd .QCLK_QCLK_STATUS_ON_SPARE y.val = 0 → (s.clock y.val).running = true →
    ∃ t, exec (.lockLost y) s = .next t ∧ (t.clock y.val).running = false ∧ t.rd .QCLK_QCLK_STATUS_LOCKED y.val = 0 ∧
      t.rd .QCLK_QCLK_STATUS_STOPPED y.val = 1 ∧ Raised t .qclk y.val 0) ∧
  (∀ (s : State) (y : Synth), s.dev = .up → y.val ≠ 12 → s.rd .QCLK_QCLK_STATUS_ON_SPARE y.val = 1 →
    ∃ t, exec (.lockLost y) s = .next t ∧ t.rd .QCLK_QCLK_STATUS_READY y.val = 0 ∧ (t.clock y.val).running = (s.clock y.val).running) ∧
  (∀ (s : State) (q : Quad), s.dev = .up → (s.clock q.val).resuming = true → servingLocked s q.val = true →
    ∃ t, exec (.qclkResume q) s = .next t ∧ (t.clock q.val).running = true ∧ (t.clock q.val).next = resumeIndex s q.val ∧
      (t.clock q.val).edge0 = (s.clock q.val).edge0 ∧ t.rd .QCLK_QCLK_STATUS_STOPPED q.val = 0 ∧ Raised t .qclk q.val 4 ∧
      t.rd .QCLK_MISSED_MISSED q.val =
        satAdd 32 (s.rd .QCLK_MISSED_MISSED q.val) (resumeIndex s q.val - (s.clock q.val).next)) ∧
  (∀ (s : State) (m : Master) (v : Word), MayWrite s .qclk 12 m →
    (∀ j : Nat, j < 12 → j ≠ bits v.toNat 3 0 → s.rd .QCLK_QCLK_CFG_USE_SPARE j = 0) → Inv s →
    ∃ t, exec (.spareCoverAssign m v) s = .next t ∧ t.rd .QCLK_COVER_QUAD 12 = bits v.toNat 3 0 ∧
      t.rd .QCLK_COVER_VALID 12 = bit v.toNat 8 ∧ t.rd .QCLK_QCLK_STATUS_READY 12 = 0 ∧ t.qn 12 = s.qn (bits v.toNat 3 0) ∧
      t.ifLog 12 = s.ifLog (bits v.toNat 3 0)) ∧
  (∀ (s : State) (m : Master) (v : Word) (j : Quad), MayWrite s .qclk 12 m → j.val ≠ bits v.toNat 3 0 →
    s.rd .QCLK_QCLK_CFG_USE_SPARE j.val = 1 →
    ∃ t, exec (.spareCoverAssign m v) s = .next t ∧ t.rd .QCLK_COVER_QUAD 12 = s.rd .QCLK_COVER_QUAD 12 ∧
      t.rd .QCLK_COVER_VALID 12 = s.rd .QCLK_COVER_VALID 12 ∧ Recorded s t .qclk 12 errSpareInUse m.val) ∧
  (∀ s : State, s.dev = .up → s.rd .QCLK_COVER_VALID 12 = 1 →
    ∃ t, exec .spareSynthReady s = .next t ∧ t.rd .QCLK_QCLK_STATUS_READY 12 = 1 ∧ t.rd .QCLK_QCLK_STATUS_LOCKED 12 = 1) ∧
  (∀ (s : State) (m : Master) (q : Quad), MayWrite s .qclk q.val m →
    ∃ t, exec (.useSpareSet m q) s = .next t ∧ t.rd .QCLK_QCLK_CFG_USE_SPARE q.val = 1) ∧
  (∀ (s : State) (q : Quad), s.dev = .up → s.rd .QCLK_QCLK_CFG_USE_SPARE q.val = 1 → s.rd .QCLK_QCLK_STATUS_ON_SPARE q.val = 0 →
    spareCovers s q.val = true → s.rd .QCLK_QCLK_STATUS_READY 12 = 1 →
    ∃ t, exec (.rehomed q) s = .next t ∧ t.rd .QCLK_QCLK_STATUS_ON_SPARE q.val = 1 ∧ Raised t .qclk q.val 3) ∧
  (∀ (s : State) (m : Master) (q : Quad), MayWrite s .qclk q.val m → s.rd .QCLK_QCLK_STATUS_ON_SPARE q.val = 1 →
    ∃ t, exec (.useSpareClear m q) s = .next t ∧ t.rd .QCLK_QCLK_CFG_USE_SPARE q.val = 0 ∧ (t.clock q.val).moveBack = true ∧
      t.rd .QCLK_QCLK_STATUS_ON_SPARE q.val = 1) ∧
  (∀ (s : State) (q : Quad), s.dev = .up → (s.clock q.val).running = true → (s.clock q.val).moveBack = true →
    s.rd .QCLK_QCLK_STATUS_ON_SPARE q.val = 1 →
    s.rd .QCLK_QCLK_STATUS_READY q.val = 1 →
    ∃ t, exec (.rehomeBack q) s = .next t ∧ t.rd .QCLK_QCLK_STATUS_ON_SPARE q.val = 0 ∧ (t.clock q.val).moveBack = false ∧
      Raised t .qclk q.val 3) ∧
  (∀ s : State, s.dev = .up →
    ∃ t, exec (.lockLost 12) s = .next t ∧ t.rd .QCLK_QCLK_STATUS_READY 12 = 0 ∧ t.rd .QCLK_QCLK_STATUS_LOCKED 12 = 0 ∧
      Raised t .qclk 12 0 ∧ ∀ q : Nat, q < 12 → s.rd .QCLK_QCLK_STATUS_ON_SPARE q = 1 → (s.clock q).running = true →
        (t.clock q).running = false ∧ t.rd .QCLK_QCLK_STATUS_STOPPED q = 1 ∧ Raised t .qclk q 0)

/-- A quad whose next sample can be computed computes it: its wheel goes on to the next sample, the angle of the sample is the one the
wheel had, and every powered channel delivers one value, which its interpolator takes as the newest; a disabled CSE delivers REST. While
no new rate is known, a powered channel outside a gang that has no codes to drop and whose interpolator holds as many samples as it
looks ahead adds IF codes to its sample queue and to what waits behind it. A ramp with no step to come ends: the wheel holds the target
increment and RAMP_DONE is raised on the page of the channel that carried it. A slot of the main branch whose OFF crossfade has ended is
disabled and keeps its phase; a pattern whose entry has run out takes its next entry; marker pulses end, and a marker that has none
keeps its level; a FINISH player that has reached its end is finished. A channel whose COUNT has run out with nothing queued becomes
idle and raises IDLE_ENTER. (Rests on 03_segments_synthesis.md R71, R81, R84, R89, R90, R95, R100, R108, R109.) -/
def Obligations.SynthesisAdvances : Prop :=
  (∀ (s : State) (q : Quad), s.dev = .up → sampleReady s q.val = true →
    ∃ t, exec (.synthesisSample q) s = .next t ∧ (t.wheel q.val).k = (s.wheel q.val).k + 1 ∧
      (t.wheel q.val).lastTheta = (s.wheel q.val).theta ∧
      ∀ c : Nat, c ∈ chansOf q.val → (s.cse c).powered = true →
        (t.cse c).src.hist = ((t.cse c).lastVal :: (s.cse c).src.hist).take 64 ∧
        (s.rd .CTRL_ENABLE c (Page.code .cse) = 0 → (t.cse c).lastVal = s123 (s.rd .CSE_REST_REST c))) ∧
  (∀ (s : State) (q : Quad), s.dev = .up → sampleReady s q.val = true → rateEdge s q.val = none →
    ∃ t, exec (.synthesisSample q) s = .next t ∧ ∀ c : Nat, c ∈ chansOf q.val → (s.cse c).powered = true → (s.cse c).dropCodes = 0 →
      s.rd .OUT_STATUS_GANG_ACTIVE c = 0 → (s.cse c).chain.length = chainLead (s.ifLog q.val) →
      (t.out c).sq.length + (t.out c).inter.length = (s.out c).sq.length + s.ifac q.val) ∧
  (∀ (s : State) (q : Quad) (r : SpeedRamp), s.dev = .up → (s.wheel q.val).ramp = some r → r.k ≤ r.j →
    ∃ t, exec (.rampDone q) s = .next t ∧ (t.wheel q.val).ramp = none ∧ (t.wheel q.val).d = r.d1 ∧ (t.wheel q.val).v = r.v1 ∧
      Raised t .cse r.chan 10) ∧
  (∀ (s : State) (c : Chan) (i : Fin 32), s.dev = .up → (Store.get ({} : Slot) (s.cse c.val).src.slots i.val).offDue = true →
    ∃ t, exec (.slotDisable c i) s = .next t ∧ (Store.get ({} : Slot) (t.cse c.val).src.slots i.val).on = false ∧
      (Store.get ({} : Slot) (t.cse c.val).src.slots i.val).p = (Store.get ({} : Slot) (s.cse c.val).src.slots i.val).p) ∧
  (∀ (s : State) (c : Chan) (p : PatRun), s.dev = .up → (s.cse c.val).src.pat = some p → p.hold = 0 → p.idx + 1 < p.count →
    ∃ t, exec (.patternEntryAdvance c) s = .next t ∧ (t.cse c.val).src.pat = some (p.next s (20 + quadOf c.val)) ∧
      (p.next s (20 + quadOf c.val)).idx = p.idx + 1) ∧
  (∀ (s : State) (c : Chan), s.dev = .up → (s.cse c.val).src.ended0 = true →
    ∃ t, exec (.markerPulseEnd c) s = .next t ∧ (t.cse c.val).src.m0 = false ∧ (t.cse c.val).src.ended0 = false ∧
      ((s.cse c.val).src.ended1 = false → (t.cse c.val).src.m1 = (s.cse c.val).src.m1)) ∧
  (∀ (s : State) (c : Chan), s.dev = .up → (s.cse c.val).src.ended1 = true →
    ∃ t, exec (.markerPulseEnd c) s = .next t ∧ (t.cse c.val).src.m1 = false ∧ (t.cse c.val).src.ended1 = false ∧
      ((s.cse c.val).src.ended0 = false → (t.cse c.val).src.m0 = (s.cse c.val).src.m0)) ∧
  (∀ (s : State) (c : Chan) (p : Fin 2), s.dev = .up → ((s.cse c.val).src.player p.val).done = true →
    ∃ t, exec (.playerFinish c p) s = .next t ∧ ((t.cse c.val).src.player p.val).finished = true) ∧
  (∀ (s : State) (c : Chan), s.dev = .up → idleDue s c.val = true →
    ∃ t, exec (.channelIdleEnter c) s = .next t ∧ (t.cse c.val).vacant = true ∧ t.rd .CSE_STATUS_IDLE c.val = 1 ∧ Raised t .cse c.val 7)

/-- While no cell of bench or Quarry holds an error, a descriptor of one of these kinds that channel c takes on its next sample, in form
and with unpoisoned words, leaves its head slot and becomes the current one. PLAY_TIME and PLAY_ANGLE with a valid bench segment start
their player on it, in time or in angle, with the descriptor's gain. PARTIALS with a valid segment and a clean body makes the sources
those with its entries on their slots, PATTERN those with its pattern. NOISE with a valid segment and a clean body sets the level, the
distribution and as many sections as the segment has. LEVEL sets the level to its immediate value or to that of its valid segment. RAMP
sets the end of the level ramp and, unless it is to go on from the level it finds, its start, from the descriptor or from a valid
segment; the length is the one given there. MARK acts on the two markers: 0 leaves one as it is, 1 and 3 set it, 2 clears it. The plays,
NOISE, LEVEL and RAMP leave the slots as they were. (Rests on 03_segments_synthesis.md R76, R82, R83, R84, R95, R100, R101, R104, R105.)
-/
def Obligations.SourceDescriptors : Prop :=
  (∀ (s : State) (c : Chan) (n : Nat) (p : Packet) (h : SegHeader), Takes s c n p 1 → CleanCells s → fetchHeader s c.val p.descr = .ok h →
    inBench p.descr.segaddr 1 = true →
    ∃ t, exec (.playTime c) s = .next t ∧ Stands t c n p ∧ ((t.cse c.val).src.player p.descr.player).active = true ∧
      ((t.cse c.val).src.player p.descr.player).angle = false ∧ ((t.cse c.val).src.player p.descr.player).seg = segRef p.descr h ∧
      ((t.cse c.val).src.player p.descr.player).gain = s123 (bits p.descr.c1 87 64) ∧ (t.cse c.val).src.slots = (s.cse c.val).src.slots) ∧
  (∀ (s : State) (c : Chan) (n : Nat) (p : Packet) (h : SegHeader), Takes s c n p 2 → CleanCells s → fetchHeader s c.val p.descr = .ok h →
    inBench p.descr.segaddr 1 = true →
    ∃ t, exec (.playAngle c) s = .next t ∧ Stands t c n p ∧ ((t.cse c.val).src.player p.descr.player).active = true ∧
      ((t.cse c.val).src.player p.descr.player).angle = true ∧ ((t.cse c.val).src.player p.descr.player).seg = segRef p.descr h ∧
      ((t.cse c.val).src.player p.descr.player).gain = s123 (bits p.descr.c1 87 64) ∧ (t.cse c.val).src.slots = (s.cse c.val).src.slots) ∧
  (∀ (s : State) (c : Chan) (n : Nat) (p : Packet) (h : SegHeader) (due : Int), Takes s c n p 3 → CleanCells s →
    fetchHeader s c.val p.descr = .ok h → s.anyPoison (p.descr.segaddr + 32) h.bodyBytes = false → dueOf s c.val n p = some due →
    ∃ t, exec (.partials c) s = .next t ∧ Stands t c n p ∧
      (t.cse c.val).src = applyPartials s c.val p.descr h (((s.wheel (quadOf c.val)).k : Int) - due).toNat (s.cse c.val).src) ∧
  (∀ (s : State) (c : Chan) (n : Nat) (p : Packet) (h : SegHeader), Takes s c n p 4 → CleanCells s → fetchHeader s c.val p.descr = .ok h →
    s.anyPoison (p.descr.segaddr + 32) h.bodyBytes = false →
    ∃ t, exec (.noise c) s = .next t ∧ Stands t c n p ∧ (t.cse c.val).src.noise.level = s123 h.a ∧
      (t.cse c.val).src.noise.gauss = (bit h.hflags 0 == 1) ∧ (t.cse c.val).src.noise.secs.length = h.count ∧
      (t.cse c.val).src.slots = (s.cse c.val).src.slots) ∧
  (∀ (s : State) (c : Chan) (n : Nat) (p : Packet), Takes s c n p 5 → bit p.descr.flags 0 = 1 →
    ∃ t, exec (.level c) s = .next t ∧ Stands t c n p ∧ (t.cse c.val).src.level = { a1 := s123 (bits p.descr.segaddr 23 0) } ∧
      (t.cse c.val).src.slots = (s.cse c.val).src.slots) ∧
  (∀ (s : State) (c : Chan) (n : Nat) (p : Packet) (h : SegHeader), Takes s c n p 5 → CleanCells s → bit p.descr.flags 0 = 0 →
    fetchHeader s c.val p.descr = .ok h →
    ∃ t, exec (.level c) s = .next t ∧ Stands t c n p ∧ (t.cse c.val).src.level = { a1 := s123 h.a } ∧
      (t.cse c.val).src.slots = (s.cse c.val).src.slots) ∧
  (∀ (s : State) (c : Chan) (n : Nat) (p : Packet), Takes s c n p 6 → bit p.descr.flags 0 = 1 →
    ∃ t, exec (.descRamp c) s = .next t ∧ Stands t c n p ∧
      (bit p.descr.flags 1 = 0 → (t.cse c.val).src.level.a0 = s123 (bits p.descr.c1 23 0)) ∧
      (t.cse c.val).src.level.a1 = s123 (bits p.descr.c1 55 32) ∧ (t.cse c.val).src.level.len = bits p.descr.c1 95 64 ∧
      (t.cse c.val).src.slots = (s.cse c.val).src.slots) ∧
  (∀ (s : State) (c : Chan) (n : Nat) (p : Packet) (h : SegHeader), Takes s c n p 6 → CleanCells s → bit p.descr.flags 0 = 0 →
    fetchHeader s c.val p.descr = .ok h →
    ∃ t, exec (.descRamp c) s = .next t ∧ Stands t c n p ∧
      (bit p.descr.flags 1 = 0 → bit h.hflags 0 = 0 → (t.cse c.val).src.level.a0 = s123 h.a) ∧
      (t.cse c.val).src.level.a1 = s123 h.b ∧ (t.cse c.val).src.level.len = h.count ∧
      (t.cse c.val).src.slots = (s.cse c.val).src.slots) ∧
  (∀ (s : State) (c : Chan) (n : Nat) (p : Packet) (h : SegHeader) (due : Int), Takes s c n p 7 → CleanCells s →
    fetchHeader s c.val p.descr = .ok h → s.anyPoison (p.descr.segaddr + 32) h.bodyBytes = false → dueOf s c.val n p = some due →
    ∃ t, exec (.pattern c) s = .next t ∧ Stands t c n p ∧
      (t.cse c.val).src = applyPattern s (20 + quadOf c.val) p.descr h (((s.wheel (quadOf c.val)).k : Int) - due).toNat (s.cse c.val).src) ∧
  (∀ (s : State) (c : Chan) (n : Nat) (p : Packet), Takes s c n p 9 →
    ∃ t, exec (.descMark c) s = .next t ∧ Stands t c n p ∧
      (t.cse c.val).src.m0 = (if bits p.descr.flags 1 0 = 0 then (s.cse c.val).src.m0 else decide (bits p.descr.flags 1 0 ≠ 2)) ∧
      (t.cse c.val).src.m1 = (if bits p.descr.flags 3 2 = 0 then (s.cse c.val).src.m1 else decide (bits p.descr.flags 3 2 ≠ 2)))

/-- A SPEED descriptor that no other command of its sample displaces makes its target the wheel's; with MODE 0 no ramp is left, and
without ANGLE_LOAD the angle stays. A SPEED descriptor that another command displaces leaves the wheel and raises SPEED_CONFLICT. IDLE
sets STATUS.IDLE and ends no current player. A FENCE leaves every source as it is, and one that asks for it records its channel and
raises FENCE_DONE. A descriptor taken with a poisoned word is discarded: counted, raised as DESC_DISCARD, and the channel idles. (Rests
on 03_segments_synthesis.md R82, R90, R92, 05_tack_streams.md R161, R162, R174.) -/
def Obligations.QueueDescriptors : Prop :=
  (∀ (s : State) (c : Chan) (n : Nat) (p : Packet), Takes s c n p 8 → speedTaken s (quadOf c.val) c.val = false →
    ∃ t, exec (.descSpeed c) s = .next t ∧ Stands t c n p ∧ (t.wheel (quadOf c.val)).target = bits p.descr.c1 63 0 ∧
      (bits p.descr.flags 1 0 = 0 → (t.wheel (quadOf c.val)).ramp = none ∧
        (t.wheel (quadOf c.val)).dn = s.dth (quadOf c.val) (bits p.descr.c1 63 0)) ∧
      (bit p.descr.flags 2 = 0 → (t.wheel (quadOf c.val)).theta = (s.wheel (quadOf c.val)).theta)) ∧
  (∀ (s : State) (c : Chan) (n : Nat) (p : Packet), Takes s c n p 8 → speedTaken s (quadOf c.val) c.val = true →
    ∃ t, exec (.descSpeed c) s = .next t ∧ Stands t c n p ∧ t.wheel (quadOf c.val) = s.wheel (quadOf c.val) ∧
      Raised t .stitch (quadOf c.val) 2) ∧
  (∀ (s : State) (c : Chan) (n : Nat) (p : Packet), Takes s c n p 0 →
    ∃ t, exec (.idle c) s = .next t ∧ Stands t c n p ∧ t.rd .CSE_STATUS_IDLE c.val = 1 ∧ (t.cse c.val).src = (s.cse c.val).src) ∧
  (∀ (s : State) (c : Chan) (n : Nat) (p : Packet), Takes s c n p 15 →
    ∃ t, exec (.fence c) s = .next t ∧ Stands t c n p ∧ (t.cse c.val).src = (s.cse c.val).src ∧
      (bit p.descr.flags 4 = 1 → Raised t .tack 0 5 ∧ t.rd .TACK_FENCE_LAST_CH = c.val)) ∧
  (∀ (s : State) (c : Chan) (n : Nat) (p : Packet), s.dev = .up → nextTaken s c.val = some (n, p) →
    (takeStep s c.val).isSome = true → p.poison = true → p.descr.kind = 5 →
    ∃ t, exec (.level c) s = .next t ∧ (t.queue (4 * c.val + n)).head = none ∧ (t.cse c.val).src = (s.cse c.val).src ∧
      t.rd .CSE_STATUS_IDLE c.val = 1 ∧ Raised t .cse c.val 0 ∧
      t.rd .CSE_DISCARD_CNT_DISCARD c.val = satAdd Reg.CSE_DISCARD_CNT_DISCARD.width (s.rd .CSE_DISCARD_CNT_DISCARD c.val) 1)

/-- A write of ALLOC stores its fields; where even the largest counts stay within the quad's budgets the effective counts are those
written, at most 32 and 2, and BUDGET_CLAMP is 0. ENABLE stores as written; a rising edge powers the CSE and forgets the descriptor that
REPEAT would repeat. A soft reset leaves the channel idle and not RUNNING, its power as it was, with its dither generator and every
source at their start but for the sums already formed (log entry 128) and the number of patterns taken, and no commit pending. PWR_REQ 1
on a disabled CSE whose OUT page is disabled switches it off and empties its sample queue, PWR_REQ 0 on a disabled CSE switches it on;
on a disabled Stitcher PWR_REQ switches it off or on. (Rests on 03_segments_synthesis.md R96, R104, R110, R113, 15_register_index.md
R415, 04_stitcher.md R117.) -/
def Obligations.SynthesisControl : Prop :=
  (∀ (s : State) (m : Master) (c : Chan) (v : Word), MayWrite s .cse c.val m →
    withinBudget s (quadOf c.val) 128 512000000 = true → withinBudget s (quadOf c.val) 8 64000000 = true →
    ∃ t, exec (.allocWrite m c v) s = .next t ∧ t.rd .CSE_ALLOC_PART_MAX c.val = bits v.toNat 5 0 ∧
      t.rd .CSE_ALLOC_PLAYERS c.val = bits v.toNat 9 8 ∧ t.rd .CSE_ALLOC_EFF_PART_EFF c.val = min 32 (bits v.toNat 5 0) ∧
      t.rd .CSE_ALLOC_EFF_PLAYERS_EFF c.val = min 2 (bits v.toNat 9 8) ∧ t.rd .CSE_STATUS_BUDGET_CLAMP c.val = 0) ∧
  (∀ (s : State) (m : Master) (c : Chan) (en : Bool), MayWrite s .cse c.val m →
    ∃ t, exec (.cseEnableWrite m c en) s = .next t ∧ t.rd .CTRL_ENABLE c.val (Page.code .cse) = (if en then 1 else 0) ∧
      (en = true → s.rd .CTRL_ENABLE c.val (Page.code .cse) = 0 → (t.cse c.val).powered = true ∧ (t.cse c.val).last = none)) ∧
  (∀ (s : State) (m : Master) (c : Chan), MayWrite s .cse c.val m →
    ∃ t, exec (.cseSoftReset m c) s = .next t ∧ (t.cse c.val).vacant = true ∧
      (t.cse c.val).src = { hist := (s.cse c.val).src.hist, patCount := (s.cse c.val).src.patCount, patGen := (s.cse c.val).src.patGen } ∧
      (t.cse c.val).dither = c.val + 1 ∧ (t.cse c.val).powered = (s.cse c.val).powered ∧ t.rd .CSE_STATUS_IDLE c.val = 1 ∧
      t.rd .CSE_STATUS_RUNNING c.val = 0 ∧ t.rd .SHADOW_CMD_PENDING c.val (Page.code .cse) = 0) ∧
  (∀ (s : State) (m : Master) (c : Chan), MayWrite s .cse c.val m → outEnabled s c.val = false →
    s.rd .CTRL_ENABLE c.val (Page.code .cse) = 0 →
    ∃ t, exec (.pwrReqWrite m false c true) s = .next t ∧ (t.cse c.val).powered = false ∧
      t.rd .CTRL_PWR_REQ c.val (Page.code .cse) = 1 ∧ (t.out c.val).sq = []) ∧
  (∀ (s : State) (m : Master) (c : Chan), MayWrite s .cse c.val m → s.rd .CTRL_ENABLE c.val (Page.code .cse) = 0 →
    ∃ t, exec (.pwrReqWrite m false c false) s = .next t ∧ (t.cse c.val).powered = true ∧
      t.rd .CTRL_PWR_REQ c.val (Page.code .cse) = 0) ∧
  (∀ (s : State) (m : Master) (c : Chan) (req : Bool), c.val < 12 → MayWrite s .stitch c.val m →
    s.rd .CTRL_ENABLE c.val (Page.code .stitch) = 0 →
    ∃ t, exec (.pwrReqWrite m true c req) s = .next t ∧ (t.stitcher c.val).powered = !req ∧
      t.rd .CTRL_PWR_REQ c.val (Page.code .stitch) = (if req then 1 else 0))

/-- A rising ENABLE starts the Stitcher at START_PC with empty stacks, RUNNING set, HALTED and FAULTED clear, no input armed or latched
and no gang READY. A write of ENABLE 0 stops one: RUNNING and HALTED (log 136) clear, its instruction and wait end, no input stays armed
and no gang READY. A soft reset does this too, with ENABLE 0, and clears FAULTED, MC_PENDING, MC_BANK, FAULT and the three counters. A
fetch within the program, readable, clean, not fetched ahead and legal holds the word at PC; a PC at or past PROG_LEN stops the Stitcher
with FAULT cause 3 at that PC and raises FAULT. NOP goes on with the next word; HALT sets HALTED, clears RUNNING and raises HALTED.
(Rests on 04_stitcher.md R115, R116, R117, R119, R134, R156, 15_register_index.md R415.) -/
def Obligations.StitcherControl : Prop :=
  (∀ (s : State) (m : Master) (q : Quad), MayWrite s .stitch q.val m → s.rd .CTRL_ENABLE q.val (Page.code .stitch) = 0 →
    ∃ t, exec (.stitchEnable m q) s = .next t ∧ t.rd .CTRL_ENABLE q.val (Page.code .stitch) = 1 ∧
      GoesOn t q (s.rd .STITCH_START_PC_PC q.val) ∧ (t.stitcher q.val).loops = [] ∧ (t.stitcher q.val).calls = [] ∧
      t.rd .STITCH_STATUS_HALTED q.val = 0 ∧ t.rd .STITCH_STATUS_FAULTED q.val = 0 ∧
      (∀ e : Nat, e < 16 → armedJump t q.val e = none ∧ t.rd .STITCH_EVIN_LATCHED_LATCHED q.val 0 e = 0) ∧
      ∀ k : Nat, k < 4 → t.rd .STITCH_GANG_READY_READY q.val 0 k = 0) ∧
  (∀ (s : State) (m : Master) (q : Quad), MayWrite s .stitch q.val m → s.rd .CTRL_ENABLE q.val (Page.code .stitch) = 1 →
    ∃ t, exec (.stitchDisable m q) s = .next t ∧ t.rd .CTRL_ENABLE q.val (Page.code .stitch) = 0 ∧
      t.rd .STITCH_STATUS_RUNNING q.val = 0 ∧ t.rd .STITCH_STATUS_HALTED q.val = 0 ∧ (t.stitcher q.val).ir = none ∧
      (t.stitcher q.val).wait = .none ∧ (∀ e : Nat, e < 16 → armedJump t q.val e = none) ∧
      ∀ k : Nat, k < 4 → t.rd .STITCH_GANG_READY_READY q.val 0 k = 0) ∧
  (∀ (s : State) (m : Master) (q : Quad), MayWrite s .stitch q.val m →
    ∃ t, exec (.stitchSoftReset m q) s = .next t ∧ t.rd .CTRL_ENABLE q.val (Page.code .stitch) = 0 ∧
      t.rd .STITCH_STATUS_RUNNING q.val = 0 ∧ t.rd .STITCH_STATUS_HALTED q.val = 0 ∧ t.rd .STITCH_STATUS_FAULTED q.val = 0 ∧
      t.rd .STITCH_STATUS_MC_PENDING q.val = 0 ∧ t.rd .STITCH_STATUS_MC_BANK q.val = 0 ∧ t.rd .STITCH_FAULT_CAUSE q.val = 0 ∧
      t.rd .STITCH_FAULT_PC q.val = 0 ∧ t.rd .STITCH_PUSH_CNT_COUNT q.val = 0 ∧ t.rd .STITCH_STALL_CNT_COUNT q.val = 0 ∧
      t.rd .STITCH_EVIN_IGNORED_COUNT q.val = 0 ∧ (t.stitcher q.val).ir = none ∧ (t.stitcher q.val).wait = .none ∧
      (∀ e : Nat, e < 16 → armedJump t q.val e = none) ∧ ∀ k : Nat, k < 4 → t.rd .STITCH_GANG_READY_READY q.val 0 k = 0) ∧
  (∀ (s : State) (q : Quad), s.dev = .up → fetchReady s q.val = true → (s.stitcher q.val).pc < progLen s q.val →
    inBench (progAddr s q.val (s.stitcher q.val).pc) 8 = true →
    memAllowed s (8 + q.val) .read (progAddr s q.val (s.stitcher q.val).pc) 8 = true →
    s.anyPoison (progAddr s q.val (s.stitcher q.val).pc) 8 = false → Store.get none (s.stitcher q.val).ahead (s.stitcher q.val).pc = none →
    decodeFault (s.leAt (progAddr s q.val (s.stitcher q.val).pc) 8) = none →
    ∃ t, exec (.instructionFetch q) s = .next t ∧
      (t.stitcher q.val).ir = some (s.leAt (progAddr s q.val (s.stitcher q.val).pc) 8) ∧
      (t.stitcher q.val).pc = (s.stitcher q.val).pc ∧ t.rd .STITCH_STATUS_RUNNING q.val = 1) ∧
  (∀ (s : State) (q : Quad), s.dev = .up → fetchReady s q.val = true → progLen s q.val ≤ (s.stitcher q.val).pc →
    (s.stitcher q.val).pc < 2 ^ Reg.STITCH_FAULT_PC.width →
    ∃ t, exec (.instructionFetch q) s = .next t ∧ t.rd .STITCH_STATUS_RUNNING q.val = 0 ∧ t.rd .STITCH_STATUS_FAULTED q.val = 1 ∧
      t.rd .STITCH_FAULT_CAUSE q.val = 3 ∧ t.rd .STITCH_FAULT_PC q.val = (s.stitcher q.val).pc ∧ Raised t .stitch q.val 1) ∧
  (∀ (s : State) (q : Quad) (w : Nat), Executes s q w 0x00 →
    ∃ t, exec (.nop q) s = .next t ∧ GoesOn t q ((s.stitcher q.val).pc + 1)) ∧
  (∀ (s : State) (q : Quad) (w : Nat), Executes s q w 0x01 →
    ∃ t, exec (.halt q) s = .next t ∧ t.rd .STITCH_STATUS_HALTED q.val = 1 ∧ t.rd .STITCH_STATUS_RUNNING q.val = 0 ∧
      (t.stitcher q.val).pc = (s.stitcher q.val).pc + 1 ∧ Raised t .stitch q.val 0)

/-- A push instruction that names a channel (SPEED and RAMP exactly one) and no gang, whose channels all have credit for the packet it
builds, puts it at the end of each named channel's queue of its priority, stamped with PRIO and SEQ, and goes on. A HOLD of one channel
that lacks credit waits: CREDIT_WAIT is set, the stall counted, nothing pushed. The end of a wait for one channel, of any of these
instructions, adds its packet to that queue and goes on. (Rests on 04_stitcher.md R120, R123, R124, R125, R126, R127.) -/
def Obligations.StitcherPushes : Prop :=
  (∀ (s : State) (q : Quad) (w : Nat) (cells : List Nat), Executes s q w 0x10 → PushFits s q w cells →
    ∃ t, exec (.play q) s = .next t ∧ GoesOn t q ((s.stitcher q.val).pc + 1) ∧ Pushed s t q w cells) ∧
  (∀ (s : State) (q : Quad) (w : Nat) (cells : List Nat), Executes s q w 0x11 → PushFits s q w cells →
    ∃ t, exec (.playa q) s = .next t ∧ GoesOn t q ((s.stitcher q.val).pc + 1) ∧ Pushed s t q w cells) ∧
  (∀ (s : State) (q : Quad) (w : Nat) (cells : List Nat), Executes s q w 0x12 → PushFits s q w cells →
    ∃ t, exec (.hold q) s = .next t ∧ GoesOn t q ((s.stitcher q.val).pc + 1) ∧ Pushed s t q w cells) ∧
  (∀ (s : State) (q : Quad) (w : Nat) (cells : List Nat), Executes s q w 0x13 → PushFits s q w cells →
    ∃ t, exec (.mark q) s = .next t ∧ GoesOn t q ((s.stitcher q.val).pc + 1) ∧ Pushed s t q w cells) ∧
  (∀ (s : State) (q : Quad) (w : Nat) (cells : List Nat), Executes s q w 0x14 → PushFits s q w cells →
    ((upTo 4).filter (fun i => bit (bits w 55 52) i == 1)).length = 1 →
    ∃ t, exec (.speed q) s = .next t ∧ GoesOn t q ((s.stitcher q.val).pc + 1) ∧ Pushed s t q w cells) ∧
  (∀ (s : State) (q : Quad) (w : Nat) (cells : List Nat), Executes s q w 0x15 → PushFits s q w cells →
    ((upTo 4).filter (fun i => bit (bits w 55 52) i == 1)).length = 1 →
    ∃ t, exec (.ramp q) s = .next t ∧ GoesOn t q ((s.stitcher q.val).pc + 1) ∧ Pushed s t q w cells) ∧
  (∀ (s : State) (q : Quad) (w i : Nat) (cells : List Nat), Executes s q w 0x12 → buildPacket s q.val w = .ok cells → i < 4 →
    bits w 55 52 = 2 ^ i → bit w 49 = 0 → allocation s (4 * (4 * q.val + i) + bits w 51 50) true ≠ 0 →
    available s (4 * (4 * q.val + i) + bits w 51 50) true < cells.length →
    ∃ t, exec (.hold q) s = .next t ∧ (t.stitcher q.val).wait = .credit ∧ t.rd .STITCH_STATUS_CREDIT_WAIT q.val = 1 ∧
      t.queues = s.queues ∧ (t.stitcher q.val).pc = (s.stitcher q.val).pc ∧
      t.rd .STITCH_STALL_CNT_COUNT q.val = satAdd Reg.STITCH_STALL_CNT_COUNT.width (s.rd .STITCH_STALL_CNT_COUNT q.val) 1) ∧
  (∀ (s : State) (q : Quad) (w i : Nat) (cells : List Nat), s.dev = .up → s.rd .STITCH_STATUS_RUNNING q.val = 1 →
    (s.stitcher q.val).wait = .credit → (s.stitcher q.val).ir = some w → (s.stitcher q.val).todo = [i] → buildPacket s q.val w = .ok cells →
    bit w 49 = 0 → allocation s (4 * (4 * q.val + i) + bits w 51 50) true ≠ 0 →
    cells.length ≤ available s (4 * (4 * q.val + i) + bits w 51 50) true →
    ∃ t, exec (.creditWaitEnd q) s = .next t ∧ GoesOn t q ((s.stitcher q.val).pc + 1) ∧ t.rd .STITCH_STATUS_CREDIT_WAIT q.val = 0 ∧
      (t.queue (4 * (4 * q.val + i) + bits w 51 50)).cells.length = (s.queue (4 * (4 * q.val + i) + bits w 51 50)).cells.length + 1)

/-- LOOP with a count and room on the loop stack pushes the count and the address after it and goes on; with count 0 it goes to its
target. ENDL goes back to the body with one pass fewer, leaves the loop on its last pass, and goes back for ever with the count
FFFFFFFF. CALL with room pushes the return address and the loop depth; RET at that depth returns. A JEV with ALWAYS, or one whose input
is latched, pops its LPOP loops, marks the next push to each channel it flushes as immediate and goes to its target; without ALWAYS the
latch clears, with it the latch stays. Otherwise JEV goes on with the next word. (Rests on 04_stitcher.md R122, R131, R132, R133.) -/
def Obligations.StitcherFlow : Prop :=
  (∀ (s : State) (q : Quad) (w : Nat), Executes s q w 0x20 → bits w 31 0 ≠ 0 → (s.stitcher q.val).loops.length < 8 →
    ∃ t, exec (.loop q) s = .next t ∧ GoesOn t q ((s.stitcher q.val).pc + 1) ∧
      (t.stitcher q.val).loops = (bits w 31 0, (s.stitcher q.val).pc + 1) :: (s.stitcher q.val).loops) ∧
  (∀ (s : State) (q : Quad) (w : Nat), Executes s q w 0x20 → bits w 31 0 = 0 → bits w 45 32 < progLen s q.val →
    ∃ t, exec (.loop q) s = .next t ∧ GoesOn t q (bits w 45 32) ∧ (t.stitcher q.val).loops = (s.stitcher q.val).loops) ∧
  (∀ (s : State) (q : Quad) (w n body : Nat) (rest : List (Nat × Nat)), Executes s q w 0x21 →
    (s.stitcher q.val).loops = (n, body) :: rest → 1 < n → n ≠ 0xFFFFFFFF → body < progLen s q.val →
    ∃ t, exec (.endl q) s = .next t ∧ GoesOn t q body ∧ (t.stitcher q.val).loops = (n - 1, body) :: rest) ∧
  (∀ (s : State) (q : Quad) (w body : Nat) (rest : List (Nat × Nat)), Executes s q w 0x21 →
    (s.stitcher q.val).loops = (1, body) :: rest →
    ∃ t, exec (.endl q) s = .next t ∧ GoesOn t q ((s.stitcher q.val).pc + 1) ∧ (t.stitcher q.val).loops = rest) ∧
  (∀ (s : State) (q : Quad) (w body : Nat) (rest : List (Nat × Nat)), Executes s q w 0x21 →
    (s.stitcher q.val).loops = (0xFFFFFFFF, body) :: rest → body < progLen s q.val →
    ∃ t, exec (.endl q) s = .next t ∧ GoesOn t q body ∧ (t.stitcher q.val).loops = (0xFFFFFFFF, body) :: rest) ∧
  (∀ (s : State) (q : Quad) (w : Nat), Executes s q w 0x22 → (s.stitcher q.val).calls.length < 8 → bits w 45 32 < progLen s q.val →
    ∃ t, exec (.call q) s = .next t ∧ GoesOn t q (bits w 45 32) ∧
      (t.stitcher q.val).calls = ((s.stitcher q.val).pc + 1, (s.stitcher q.val).loops.length) :: (s.stitcher q.val).calls) ∧
  (∀ (s : State) (q : Quad) (w r : Nat) (rest : List (Nat × Nat)), Executes s q w 0x23 →
    (s.stitcher q.val).calls = (r, (s.stitcher q.val).loops.length) :: rest → r < progLen s q.val →
    ∃ t, exec (.ret q) s = .next t ∧ GoesOn t q r ∧ (t.stitcher q.val).calls = rest) ∧
  (∀ (s : State) (q : Quad) (w : Nat), Executes s q w 0x24 →
    bit w 51 = 1 ∨ s.rd .STITCH_EVIN_LATCHED_LATCHED q.val 0 (bits w 55 52) = 1 → bits w 50 48 ≤ (s.stitcher q.val).loops.length →
    bits w 45 32 < progLen s q.val →
    ∃ t, exec (.jev q) s = .next t ∧ GoesOn t q (bits w 45 32) ∧ (t.stitcher q.val).loops = (s.stitcher q.val).loops.drop (bits w 50 48) ∧
      (∀ i : Nat, i < 4 → bit (bits w 31 28) i = 1 → i ∈ (t.stitcher q.val).immediate) ∧
      t.rd .STITCH_EVIN_LATCHED_LATCHED q.val 0 (bits w 55 52) =
        (if bit w 51 = 1 then s.rd .STITCH_EVIN_LATCHED_LATCHED q.val 0 (bits w 55 52) else 0)) ∧
  (∀ (s : State) (q : Quad) (w : Nat), Executes s q w 0x24 → bit w 51 = 0 →
    s.rd .STITCH_EVIN_LATCHED_LATCHED q.val 0 (bits w 55 52) = 0 →
    ∃ t, exec (.jev q) s = .next t ∧ GoesOn t q ((s.stitcher q.val).pc + 1) ∧ t.queues = s.queues)

/-- WAITT on a granted comparator waits with WAIT_TIME set; on another the Stitcher faults with cause 12, stops and raises FAULT. Its
end records the comparator's instant, and whether it was late, as the release of each channel it names, and goes on. WAITE on a latched
input takes the latch and goes on; on another it waits from this tick with WAIT_EVENT set, and its timeout without a jump raises
WAIT_TIMEOUT, leaves the queues and goes on. EMIT presents its producer in this tick. A grant register takes the bits of comparators
that its writer owns and keeps the others. EVIN_LATCHED bits written 1 clear. Master 2 requests a microcode switch by MC_PENDING; the
switch exchanges MC_BANK and the two versions, clears MC_PENDING, drops the words fetched ahead and raises MC_SWITCHED. (Rests on
04_stitcher.md R135, R137, R139, R148, R157.) -/
def Obligations.StitcherWaits : Prop :=
  (∀ (s : State) (q : Quad) (w : Nat), Executes s q w 0x28 → granted s q.val (bits w 51 46) = true →
    ∃ t, exec (.waitt q) s = .next t ∧ t.rd .STITCH_STATUS_WAIT_TIME q.val = 1 ∧
      (t.stitcher q.val).wait = .time (bits w 51 46)
        (if bits w 31 0 = 0 then s.rd .STITCH_WT_ADV_ADV q.val else bits w 31 0) (bits w 55 52)) ∧
  (∀ (s : State) (q : Quad) (w : Nat), Executes s q w 0x28 → granted s q.val (bits w 51 46) = false →
    ∃ t, exec (.waitt q) s = .next t ∧ t.rd .STITCH_STATUS_FAULTED q.val = 1 ∧ t.rd .STITCH_FAULT_CAUSE q.val = 12 ∧
      t.rd .STITCH_STATUS_RUNNING q.val = 0 ∧ Raised t .stitch q.val 1) ∧
  (∀ (s : State) (q : Quad) (lc adv mask : Nat), s.dev = .up → (s.stitcher q.val).wait = .time lc adv mask → waittReady s q.val = true →
    ∃ t, exec (.waittResume q) s = .next t ∧ (t.stitcher q.val).wait = .none ∧ (t.stitcher q.val).pc = (s.stitcher q.val).pc + 1 ∧
      t.rd .STITCH_STATUS_WAIT_TIME q.val = 0 ∧ ∀ i : Nat, i < 4 → bit mask i = 1 →
        Store.get none (t.stitcher q.val).release i = some (s.lcInstant lc, (s.lc lc).late)) ∧
  (∀ (s : State) (q : Quad) (w : Nat), Executes s q w 0x29 → s.rd .STITCH_EVIN_LATCHED_LATCHED q.val 0 (bits w 55 52) = 1 →
    ∃ t, exec (.waite q) s = .next t ∧ GoesOn t q ((s.stitcher q.val).pc + 1) ∧
      t.rd .STITCH_EVIN_LATCHED_LATCHED q.val 0 (bits w 55 52) = 0) ∧
  (∀ (s : State) (q : Quad) (w : Nat), Executes s q w 0x29 → s.rd .STITCH_EVIN_LATCHED_LATCHED q.val 0 (bits w 55 52) = 0 →
    ∃ t, exec (.waite q) s = .next t ∧ t.rd .STITCH_STATUS_WAIT_EVENT q.val = 1 ∧ (t.stitcher q.val).waitFrom = s.osc ∧
      waitsOn t q.val (bits w 55 52) = true) ∧
  (∀ (s : State) (q : Quad) (e fmask lpop target n : Nat), s.dev = .up → (s.stitcher q.val).wait = .event e fmask 0 lpop target n → n ≠ 0 →
    (s.stitcher q.val).waitFrom + 256 * n ≤ s.osc →
    ∃ t, exec (.waiteTimeout q) s = .next t ∧ (t.stitcher q.val).wait = .none ∧ (t.stitcher q.val).pc = (s.stitcher q.val).pc + 1 ∧
      t.queues = s.queues ∧ Raised t .stitch q.val 6) ∧
  (∀ (s : State) (q : Quad) (w : Nat), Executes s q w 0x31 →
    ∃ t, exec (.emit q) s = .next t ∧ GoesOn t q ((s.stitcher q.val).pc + 1) ∧
      t.presented = s.presented ++ [0x40 + 4 * q.val + bits w 49 48]) ∧
  (∀ (s : State) (m : Master) (q : Quad) (hi : Fin 2) (v : Word), MayWrite s .stitch q.val m →
    ∃ t, exec (.lcGrantWrite m q hi v) s = .next t ∧ ∀ j : Nat, j < 32 → t.rd .STITCH_LC_GRANT q.val 0 (32 * hi.val + j) =
      (if ownsLc s m.val (32 * hi.val + j) = true then bit v.toNat j else s.rd .STITCH_LC_GRANT q.val 0 (32 * hi.val + j))) ∧
  (∀ (s : State) (m : Master) (q : Quad) (v : Word), MayWrite s .stitch q.val m →
    ∃ t, exec (.evinLatchClear m q v) s = .next t ∧ ∀ e : Nat, e < 16 → t.rd .STITCH_EVIN_LATCHED_LATCHED q.val 0 e =
      (if bit v.toNat e = 1 then 0 else s.rd .STITCH_EVIN_LATCHED_LATCHED q.val 0 e)) ∧
  (∀ (s : State) (q : Quad), MayWrite s .stitch q.val 2 →
    ∃ t, exec (.mcSwitchReq 2 q) s = .next t ∧ t.rd .STITCH_STATUS_MC_PENDING q.val = 1) ∧
  (∀ (s : State) (q : Quad), s.dev = .up → mcMoment s q.val = true → Inv s →
    ∃ t, exec (.mcSwitch q) s = .next t ∧ t.rd .STITCH_STATUS_MC_PENDING q.val = 0 ∧ (t.stitcher q.val).ahead = [] ∧
      t.rd .STITCH_STATUS_MC_BANK q.val = 1 - s.rd .STITCH_STATUS_MC_BANK q.val ∧
      t.rd .STITCH_MC_VER_ACTIVE q.val = s.rd .STITCH_MC_VER_INACTIVE q.val ∧
      t.rd .STITCH_MC_VER_INACTIVE q.val = s.rd .STITCH_MC_VER_ACTIVE q.val ∧ Raised t .stitch q.val 9)

/-- ARM of an input arms the jump with its target, pop count, channels and the present stack depths, and goes on, with no channels or
with a template that can be read; each channel it names then holds an alternate under that input. DISARM disarms the input and goes on.
An event at an armed input sets the switch two update edges ahead of the next; at an input a WAITE waits on it ends the wait; at a
latching input, unarmed and not waited on, it sets the latch; at any other it is counted and raises EVIN_DROP. The switch due of one
input takes the program to its target, cuts the loop stack back to at most its depth at the ARM, less the pop count, disarms the input
and raises JUMP_TAKEN. (Rests on 04_stitcher.md R138, R141, R143, R145, R147.) -/
def Obligations.ArmedJumps : Prop :=
  (∀ (s : State) (q : Quad) (w : Nat), Executes s q w 0x30 → bit w 51 = 0 →
    bits w 31 28 = 0 ∨ (readTemplate s q.val (bits w 27 14) [1, 2, 3, 4, 5, 6, 7]).isOk = true →
    ∃ t, exec (.arm q) s = .next t ∧ GoesOn t q ((s.stitcher q.val).pc + 1) ∧ armedJump t q.val (bits w 55 52) =
      some ⟨bits w 45 32, bits w 50 48, (s.stitcher q.val).loops.length, (s.stitcher q.val).calls.length, bits w 31 28, none⟩ ∧
      ∀ i : Nat, i < 4 → bit (bits w 31 28) i = 1 →
        (t.cse (4 * q.val + i)).alt.isSome = true ∧ (t.cse (4 * q.val + i)).altInput = bits w 55 52) ∧
  (∀ (s : State) (q : Quad) (w : Nat), Executes s q w 0x30 → bit w 51 = 1 →
    ∃ t, exec (.disarm q) s = .next t ∧ GoesOn t q ((s.stitcher q.val).pc + 1) ∧ armedJump t q.val (bits w 55 52) = none) ∧
  (∀ (s : State) (q : Quad) (e : Fin 16) (j : ArmedJump), s.dev = .up → (q.val, e.val) ∈ s.evin → armedJump s q.val e.val = some j →
    j.switchAt = none →
    ∃ t, exec (.stitcherEventInput q e) s = .next t ∧
      armedJump t q.val e.val = some { j with switchAt := some ((s.clock q.val).next + 2) }) ∧
  (∀ (s : State) (q : Quad) (e : Fin 16), s.dev = .up → (q.val, e.val) ∈ s.evin → armedJump s q.val e.val = none →
    waitsOn s q.val e.val = true →
    ∃ t, exec (.stitcherEventInput q e) s = .next t ∧ (t.stitcher q.val).wait = .none ∧
      (t.stitcher q.val).pc = (s.stitcher q.val).pc + 1 ∧ t.rd .STITCH_STATUS_WAIT_EVENT q.val = 0) ∧
  (∀ (s : State) (q : Quad) (e : Fin 16), s.dev = .up → (q.val, e.val) ∈ s.evin → armedJump s q.val e.val = none →
    waitsOn s q.val e.val = false → s.rd .STITCH_EVIN_CFG_LATCH q.val 0 e.val = 1 →
    s.rd .STITCH_EVIN_LATCHED_LATCHED q.val 0 e.val = 0 →
    ∃ t, exec (.stitcherEventInput q e) s = .next t ∧ t.rd .STITCH_EVIN_LATCHED_LATCHED q.val 0 e.val = 1 ∧
      t.stitcher q.val = s.stitcher q.val) ∧
  (∀ (s : State) (q : Quad) (e : Fin 16), s.dev = .up → (q.val, e.val) ∈ s.evin → armedJump s q.val e.val = none →
    waitsOn s q.val e.val = false → s.rd .STITCH_EVIN_CFG_LATCH q.val 0 e.val = 0 →
    ∃ t, exec (.stitcherEventInput q e) s = .next t ∧ t.stitcher q.val = s.stitcher q.val ∧ Raised t .stitch q.val 8 ∧
      t.rd .STITCH_EVIN_IGNORED_COUNT q.val = satAdd Reg.STITCH_EVIN_IGNORED_COUNT.width (s.rd .STITCH_EVIN_IGNORED_COUNT q.val) 1) ∧
  (∀ (s : State) (q : Quad) (e : Nat) (j : ArmedJump), s.dev = .up → switchInputs s q.val = [(e, j)] →
    j.lpop ≤ min j.loops (s.stitcher q.val).loops.length → j.target < progLen s q.val →
    ∃ t, exec (.armedSwitch q) s = .next t ∧ GoesOn t q j.target ∧ armedJump t q.val e = none ∧ Raised t .stitch q.val 3 ∧
      (t.stitcher q.val).loops.length = min j.loops (s.stitcher q.val).loops.length - j.lpop)

/-- READY sets the Stitcher's bit of the gang and goes on. COMMIT, without a comparator or with one granted, waits in prepare from this
tick with GANG_WAIT set. When every member answers READY the commit point gives each member's held packets the commit instant, ends each
member's READY and WAITC of that gang, raises GANG_COMMIT and goes on. A prepare whose time has passed with a member not ready records
PREPARE_FAILED, raises GANG_FAIL and, without FJUMP, goes on. ABORT discards each member's packets held by the gang and goes on. WAITC
waits while its READY is outstanding; where the gang was aborted and FJUMP is set it goes to its target; else it goes on. (Rests on
04_stitcher.md R150, R151, R152, R153, R154.) -/
def Obligations.Gangs : Prop :=
  (∀ (s : State) (q : Quad) (w : Nat), Executes s q w 0x38 → bits w 53 52 = 0 →
    ∃ t, exec (.gangReady q) s = .next t ∧ GoesOn t q ((s.stitcher q.val).pc + 1) ∧
      t.rd .STITCH_GANG_READY_READY q.val 0 (bits w 55 54) = 1) ∧
  (∀ (s : State) (q : Quad) (w : Nat), Executes s q w 0x38 → bits w 53 52 = 1 → bit w 51 = 0 ∨ granted s q.val (bits w 31 26) = true →
    ∃ t, exec (.gangCommit q) s = .next t ∧ (t.stitcher q.val).wait = .commit ∧ t.rd .STITCH_STATUS_GANG_WAIT q.val = 1 ∧
      (t.stitcher q.val).waitFrom = s.osc ∧
      (t.stitcher q.val).gang = some ⟨bits w 55 54, bit w 51 == 1, bits w 31 26, bit w 50 == 1, bits w 45 32, bits w 11 0⟩) ∧
  (∀ (s : State) (q : Quad) (g : GangCommit) (x : Instant), s.dev = .up → (s.stitcher q.val).gang = some g →
    (s.stitcher q.val).wait = .commit → commitReady s q.val = true → commitInstant s g = some x →
    ∃ t, exec (.gangCommitPoint q) s = .next t ∧ (t.stitcher q.val).wait = .none ∧ (t.stitcher q.val).gang = none ∧
      (t.stitcher q.val).pc = (s.stitcher q.val).pc + 1 ∧ Raised t .stitch q.val 4 ∧
      (∀ i : Nat, i < 192 → bit g.qmask (i / 16) = 1 → (t.queue i).cells = (s.queue i).cells.map (Packet.commit g.k x) ∧
        (t.queue i).head = (s.queue i).head.map (Packet.commit g.k x)) ∧
      ∀ m : Nat, m < 12 → bit g.qmask m = 1 → t.rd .STITCH_GANG_READY_READY m 0 g.k = 0 ∧
        ((match (s.stitcher m).wait with | .waitc k _ _ => k == g.k | _ => false) = true →
          (t.stitcher m).wait = .none ∧ (t.stitcher m).pc = (s.stitcher m).pc + 1)) ∧
  (∀ (s : State) (q : Quad) (g : GangCommit), s.dev = .up → (s.stitcher q.val).gang = some g → prepareOver s q.val = true →
    g.fjump = false →
    ∃ t, exec (.gangPrepareTimeout q) s = .next t ∧ (t.stitcher q.val).gang = none ∧ (t.stitcher q.val).pc = (s.stitcher q.val).pc + 1 ∧
      (t.stitcher q.val).wait = .none ∧ Raised t .stitch q.val 5 ∧ Recorded s t .stitch q.val errPrepareFailed (8 + q.val)) ∧
  (∀ (s : State) (q : Quad) (w : Nat), Executes s q w 0x38 → bits w 53 52 = 2 →
    ∃ t, exec (.gangAbort q) s = .next t ∧ GoesOn t q ((s.stitcher q.val).pc + 1) ∧
      ∀ i : Nat, i < 192 → bit (bits w 11 0) (i / 16) = 1 →
        (t.queue i).cells = (s.queue i).cells.filter (fun p => !p.stagedFor (bits w 55 54)) ∧
        (t.queue i).head = (s.queue i).head.filter (fun p => !p.stagedFor (bits w 55 54))) ∧
  (∀ (s : State) (q : Quad) (w : Nat), Executes s q w 0x38 → bits w 53 52 = 3 → Store.get 0 (s.stitcher q.val).outcome (bits w 55 54) = 1 →
    ∃ t, exec (.gangWaitc q) s = .next t ∧ (t.stitcher q.val).wait = .waitc (bits w 55 54) (bit w 50) (bits w 45 32) ∧
      t.rd .STITCH_STATUS_GANG_WAIT q.val = 1) ∧
  (∀ (s : State) (q : Quad) (w : Nat), Executes s q w 0x38 → bits w 53 52 = 3 → Store.get 0 (s.stitcher q.val).outcome (bits w 55 54) = 3 →
    bit w 50 = 1 → bits w 45 32 < progLen s q.val → ∃ t, exec (.gangWaitc q) s = .next t ∧ GoesOn t q (bits w 45 32)) ∧
  (∀ (s : State) (q : Quad) (w : Nat), Executes s q w 0x38 → bits w 53 52 = 3 → Store.get 0 (s.stitcher q.val).outcome (bits w 55 54) ≠ 1 →
    Store.get 0 (s.stitcher q.val).outcome (bits w 55 54) ≠ 3 ∨ bit w 50 = 0 →
    ∃ t, exec (.gangWaitc q) s = .next t ∧ GoesOn t q ((s.stitcher q.val).pc + 1))

/-- A header word of master 0, 1 or 2 to a channel with credit opens a packet of its cells; to one without credit the packet is refused
with NO_CREDIT, absorbed, and PUSH_REFUSED raised. A word of an open packet is appended, and the last one closes it and, unless a flush
has marked it, puts its cells at the end of the queue. A word of a refused packet is absorbed, and the last one ends the absorbing.
ABORT abandons the open packet and ends the absorbing. Other masters have no staging: their words and aborts change no queue and no
packet and record OWNER_DENIED. A QCFG write that keeps the pool within 32768 cells stores the allocations and FMODE; one that
overcommits it changes nothing and records NO_CREDIT. (Rests on 05_tack_streams.md R159, R163, R164, R166, R167, R168.) -/
def Obligations.TackPushes : Prop :=
  (∀ (s : State) (m : Master) (w : Word), MayWrite s .tack 0 m → m.val ≤ 2 → s.rd .TACK_PUSH_STAT_DISCARDING 0 m.val = 0 →
    s.rd .TACK_PUSH_STAT_OPEN 0 m.val = 0 → s.rd .TACK_PUSH_SEL_CH 0 m.val < 48 →
    bits w.toNat 8 6 + 1 ≤ available s (4 * s.rd .TACK_PUSH_SEL_CH 0 m.val + bits w.toNat 5 4) false →
    ∃ t, exec (.pushWinWord m w) s = .next t ∧ t.rd .TACK_PUSH_STAT_OPEN 0 m.val = 1 ∧
      t.rd .TACK_PUSH_STAT_WORDS_LEFT 0 m.val = 4 * (bits w.toNat 8 6 + 1) - 1 ∧
      t.stage m.val = { words := [w.toNat], cells := bits w.toNat 8 6 + 1, queue := 4 * s.rd .TACK_PUSH_SEL_CH 0 m.val + bits w.toNat 5 4 }) ∧
  (∀ (s : State) (m : Master) (w : Word), MayWrite s .tack 0 m → m.val ≤ 2 → s.rd .TACK_PUSH_STAT_DISCARDING 0 m.val = 0 →
    s.rd .TACK_PUSH_STAT_OPEN 0 m.val = 0 →
    48 ≤ s.rd .TACK_PUSH_SEL_CH 0 m.val ∨
      available s (4 * s.rd .TACK_PUSH_SEL_CH 0 m.val + bits w.toNat 5 4) false < bits w.toNat 8 6 + 1 →
    ∃ t, exec (.pushWinWord m w) s = .next t ∧ t.rd .TACK_PUSH_STAT_OPEN 0 m.val = 0 ∧
      t.rd .TACK_PUSH_STAT_REFUSED 0 m.val = 1 ∧ t.rd .TACK_PUSH_STAT_DISCARDING 0 m.val = 1 ∧ t.queues = s.queues ∧
      Recorded s t .tack 0 errNoCredit m.val ∧ Raised t .tack 0 6) ∧
  (∀ (s : State) (m : Master) (w : Word), MayWrite s .tack 0 m → m.val ≤ 2 → s.rd .TACK_PUSH_STAT_DISCARDING 0 m.val = 0 →
    s.rd .TACK_PUSH_STAT_OPEN 0 m.val = 1 → 1 < s.rd .TACK_PUSH_STAT_WORDS_LEFT 0 m.val → Inv s →
    ∃ t, exec (.pushWinWord m w) s = .next t ∧ (t.stage m.val).words = (s.stage m.val).words ++ [w.toNat] ∧
      t.rd .TACK_PUSH_STAT_WORDS_LEFT 0 m.val = s.rd .TACK_PUSH_STAT_WORDS_LEFT 0 m.val - 1 ∧ t.queues = s.queues) ∧
  (∀ (s : State) (m : Master) (w : Word), MayWrite s .tack 0 m → m.val ≤ 2 → s.rd .TACK_PUSH_STAT_DISCARDING 0 m.val = 0 →
    s.rd .TACK_PUSH_STAT_OPEN 0 m.val = 1 → s.rd .TACK_PUSH_STAT_WORDS_LEFT 0 m.val = 1 → (s.stage m.val).doomed = false →
    ∃ t, exec (.pushWinWord m w) s = .next t ∧ t.rd .TACK_PUSH_STAT_OPEN 0 m.val = 0 ∧
      (t.queue (s.stage m.val).queue).cells.map (·.cells) =
        (s.queue (s.stage m.val).queue).cells.map (·.cells) ++ [joinCells ((s.stage m.val).words ++ [w.toNat])]) ∧
  (∀ (s : State) (m : Master) (w : Word), MayWrite s .tack 0 m → m.val ≤ 2 → s.rd .TACK_PUSH_STAT_DISCARDING 0 m.val = 0 →
    s.rd .TACK_PUSH_STAT_OPEN 0 m.val = 1 → s.rd .TACK_PUSH_STAT_WORDS_LEFT 0 m.val = 1 → (s.stage m.val).doomed = true →
    ∃ t, exec (.pushWinWord m w) s = .next t ∧ t.rd .TACK_PUSH_STAT_OPEN 0 m.val = 0 ∧ t.queues = s.queues) ∧
  (∀ (s : State) (m : Master) (w : Word), MayWrite s .tack 0 m → m.val ≤ 2 → s.rd .TACK_PUSH_STAT_DISCARDING 0 m.val = 1 →
    Inv s → ∃ t, exec (.pushWinWord m w) s = .next t ∧ t.queues = s.queues ∧
      t.rd .TACK_PUSH_STAT_DISCARDING 0 m.val = (if s.rd .TACK_PUSH_STAT_WORDS_LEFT 0 m.val ≤ 1 then 0 else 1) ∧
      t.rd .TACK_PUSH_STAT_WORDS_LEFT 0 m.val = s.rd .TACK_PUSH_STAT_WORDS_LEFT 0 m.val - 1) ∧
  (∀ (s : State) (m : Master), MayWrite s .tack 0 m → m.val ≤ 2 →
    ∃ t, exec (.pushAbort m) s = .next t ∧ t.rd .TACK_PUSH_STAT_OPEN 0 m.val = 0 ∧ t.rd .TACK_PUSH_STAT_WORDS_LEFT 0 m.val = 0 ∧
      t.rd .TACK_PUSH_STAT_DISCARDING 0 m.val = 0 ∧ (t.stage m.val).words = [] ∧ t.queues = s.queues) ∧
  (∀ (s : State) (m : Master) (w : Word), MayWrite s .tack 0 m → 2 < m.val →
    ∃ t, exec (.pushWinWord m w) s = .next t ∧ t.queues = s.queues ∧ t.staging = s.staging ∧ Recorded s t .tack 0 errOwnerDenied m.val) ∧
  (∀ (s : State) (m : Master), MayWrite s .tack 0 m → 2 < m.val →
    ∃ t, exec (.pushAbort m) s = .next t ∧ t.queues = s.queues ∧ t.staging = s.staging ∧ Recorded s t .tack 0 errOwnerDenied m.val) ∧
  (∀ (s : State) (m : Master) (i : Fin 192) (v : Word), MayWrite s .tack 0 m →
    creditSum (((s.wr .TACK_QCFG_CRED_STITCH (bits v.toNat 11 0) 0 i.val).wr .TACK_QCFG_CRED_REG (bits v.toNat 23 12) 0 i.val).wr
      .TACK_QCFG_FMODE (bit v.toNat 24) 0 i.val) ≤ 32768 →
    ∃ t, exec (.qcfgWrite m i v) s = .next t ∧ t.rd .TACK_QCFG_CRED_STITCH 0 i.val = bits v.toNat 11 0 ∧
      t.rd .TACK_QCFG_CRED_REG 0 i.val = bits v.toNat 23 12 ∧ t.rd .TACK_QCFG_FMODE 0 i.val = bit v.toNat 24) ∧
  (∀ (s : State) (m : Master) (i : Fin 192) (v : Word), MayWrite s .tack 0 m →
    32768 < creditSum (((s.wr .TACK_QCFG_CRED_STITCH (bits v.toNat 11 0) 0 i.val).wr .TACK_QCFG_CRED_REG (bits v.toNat 23 12) 0 i.val).wr
      .TACK_QCFG_FMODE (bit v.toNat 24) 0 i.val) →
    ∃ t, exec (.qcfgWrite m i v) s = .next t ∧ t.rd .TACK_QCFG_CRED_STITCH 0 i.val = s.rd .TACK_QCFG_CRED_STITCH 0 i.val ∧
      t.rd .TACK_QCFG_CRED_REG 0 i.val = s.rd .TACK_QCFG_CRED_REG 0 i.val ∧
      t.rd .TACK_QCFG_FMODE 0 i.val = s.rd .TACK_QCFG_FMODE 0 i.val ∧ Recorded s t .tack 0 errNoCredit m.val)

/-- A fetch into an empty head slot moves the oldest packet there, poisoned where a word of it fails its parity; a corrected link entry
raises LINK_CORR; one that cannot be corrected delivers the packet poisoned, loses those behind it, marks the queue BROKEN, starts a
sweep and raises LINK_FAIL and POISON. The end of the sweep clears SWEEP and each BROKEN. A drop with FMODE 0, its SEQ matching where
asked, removes the head packet, and a plain one next in the queue takes its place in time; where SEQ does not match or the queue is
empty it changes no queue. A flush with FMODE 1 removes every packet and dooms an open one of that queue. A doomed packet is torn 1 ms
after its flush: it is absorbed, counted and raises TORN. A soft reset leaves every queue and ring empty, no packet open and no sweep.
(Rests on 05_tack_streams.md R159, R170, R174, R175, R176, R177, R178, 15_register_index.md R423.) -/
def Obligations.TackQueues : Prop :=
  (∀ (s : State) (i : Fin 192) (bad : BitVec 32) (link : Fin 3) (p : Packet) (rest : List Packet), s.dev = .up →
    (s.queue i.val).head = none → (s.queue i.val).cells = p :: rest → p.parity = p.words.map wordParity → link.val ≠ 2 →
    ∃ t, exec (.headSlotFetch i bad link) s = .next t ∧ (t.queue i.val).cells = rest ∧ (t.queue i.val).head =
      some { p with poison := p.poison || (upTo (4 * p.cells.length)).any (fun w => bad.toNat.testBit w),
                    poison1 := p.poison1 || bad.toNat.testBit 1 } ∧
      (link.val = 1 → Raised t .tack 0 7)) ∧
  (∀ (s : State) (i : Fin 192) (bad : BitVec 32) (p : Packet) (rest : List Packet), s.dev = .up → (s.queue i.val).head = none →
    (s.queue i.val).cells = p :: rest →
    ∃ t, exec (.headSlotFetch i bad 2) s = .next t ∧ (t.queue i.val).head.map (fun x => (x.cells, x.poison)) = some (p.cells, true) ∧
      (t.queue i.val).cells = [] ∧ t.rd .TACK_QLEVEL_BROKEN 0 i.val = 1 ∧ t.rd .TACK_STATUS_SWEEP = 1 ∧ Raised t .tack 0 2 ∧
      Raised t .tack 0 0) ∧
  (∀ s : State, s.dev = .up → s.rd .TACK_STATUS_SWEEP = 1 →
    (∀ i : Nat, i < 192 → s.rd .TACK_QLEVEL_BROKEN 0 i = 0 ∨ s.rd .TACK_QLEVEL_BROKEN 0 i = 1) →
    ∃ t, exec .linkSweepDone s = .next t ∧ t.rd .TACK_STATUS_SWEEP = 0 ∧ ∀ i : Nat, i < 192 → t.rd .TACK_QLEVEL_BROKEN 0 i = 0) ∧
  (∀ (s : State) (m : Master) (i : Fin 192) (mt : Bool) (seq : BitVec 16) (p : Packet), MayWrite s .tack 0 m →
    s.rd .TACK_QCFG_FMODE 0 i.val = 0 → headPacket (s.queue i.val) = some p → (mt = true → p.descr.seq = seq.toNat) →
    ∃ t, exec (.queueDrop m i mt seq) s = .next t ∧ t.queue i.val = mapHeadPacket p.follow (dropHead (s.queue i.val))) ∧
  (∀ (s : State) (m : Master) (i : Fin 192) (mt : Bool) (seq : BitVec 16), MayWrite s .tack 0 m → s.rd .TACK_QCFG_FMODE 0 i.val = 0 →
    headPacket (s.queue i.val) = none ∨ mt = true ∧ (headPacket (s.queue i.val)).map (·.descr.seq) ≠ some seq.toNat →
    ∃ t, exec (.queueDrop m i mt seq) s = .next t ∧ t.queues = s.queues) ∧
  (∀ (s : State) (m : Master) (i : Fin 192), MayWrite s .tack 0 m → s.rd .TACK_QCFG_FMODE 0 i.val = 1 →
    ∃ t, exec (.queueFlush m i) s = .next t ∧ (t.queue i.val).head = none ∧ (t.queue i.val).cells = [] ∧
      ∀ k : Nat, k < 3 → s.rd .TACK_PUSH_STAT_OPEN 0 k = 1 → (s.stage k).queue = i.val → (t.stage k).doomed = true) ∧
  (∀ (s : State) (m : Fin 3), s.dev = .up → s.rd .TACK_PUSH_STAT_OPEN 0 m.val = 1 → (s.stage m.val).doomed = true →
    (s.stage m.val).doomedAt + 400000 ≤ s.osc →
    ∃ t, exec (.packetTorn m) s = .next t ∧ t.rd .TACK_PUSH_STAT_OPEN 0 m.val = 0 ∧ t.rd .TACK_PUSH_STAT_TORN 0 m.val = 1 ∧
      t.rd .TACK_PUSH_STAT_DISCARDING 0 m.val = 1 ∧ Raised t .tack 0 1 ∧
      t.rd .TACK_CNT_TORN_COUNT = satAdd Reg.TACK_CNT_TORN_COUNT.width (s.rd .TACK_CNT_TORN_COUNT) 1) ∧
  (∀ (s : State) (m : Master), MayWrite s .tack 0 m →
    ∃ t, exec (.tackSoftReset m) s = .next t ∧ t.queues = [] ∧ t.rings = [] ∧ t.staging = [] ∧ t.rd .TACK_STATUS_SWEEP = 0 ∧
      ∀ k : Nat, k < 3 → t.rd .TACK_PUSH_STAT_OPEN 0 k = 0)

/-- A write of RING_CFG with EN 1 on a disabled ring that overlaps no enabled one and lies in benches 2 to 15 stores SIZE_LOG and SPLIT,
enables it and empties it; one that overlaps an enabled ring leaves EN clear and records RING_OVERLAP, and one that lies outside those
benches leaves it clear and records REGION_DENIED. EN 0 on an enabled ring disables and empties it. While Quarry serves, a refill of n
bytes for a circular body that plays and is not resident, with no next body, in a partition its streamer may write, advances the body's
written count by n. (Rests on 05_tack_streams.md R179, R180, R181, R183.) -/
def Obligations.StreamRings : Prop :=
  (∀ (s : State) (m : Master) (c : Chan) (z : Fin 8) (split : Bool), MayWrite s .tack 0 m → s.rd .TACK_RING_CFG_EN 0 c.val = 0 →
    (∀ d : Nat, d < 48 → d ≠ c.val → s.rd .TACK_RING_CFG_EN 0 d = 1 →
      ringsOverlap (s.wr .TACK_RING_CFG_SIZE_LOG z.val 0 c.val) c.val d = false) →
    0x80000 ≤ ringOffset (s.wr .TACK_RING_CFG_SIZE_LOG z.val 0 c.val) c.val →
    ringOffset (s.wr .TACK_RING_CFG_SIZE_LOG z.val 0 c.val) c.val + ringSize (s.wr .TACK_RING_CFG_SIZE_LOG z.val 0 c.val) c.val ≤ benchSize →
    ∃ t, exec (.ringEnable m c z split) s = .next t ∧ t.rd .TACK_RING_CFG_EN 0 c.val = 1 ∧
      t.rd .TACK_RING_CFG_SIZE_LOG 0 c.val = z.val ∧ t.rd .TACK_RING_CFG_SPLIT 0 c.val = (if split then 1 else 0) ∧
      t.ring c.val = ({} : Ring) ∧ (t.cse c.val).altRing = ({} : Ring)) ∧
  (∀ (s : State) (m : Master) (c : Chan) (z : Fin 8) (split : Bool), MayWrite s .tack 0 m → s.rd .TACK_RING_CFG_EN 0 c.val = 0 →
    (∀ d : Nat, d < 48 → d ≠ c.val → s.rd .TACK_RING_CFG_EN 0 d = 1 →
      ringsOverlap (s.wr .TACK_RING_CFG_SIZE_LOG z.val 0 c.val) c.val d = false) →
    ringOffset (s.wr .TACK_RING_CFG_SIZE_LOG z.val 0 c.val) c.val < 0x80000 ∨
      benchSize < ringOffset (s.wr .TACK_RING_CFG_SIZE_LOG z.val 0 c.val) c.val + ringSize (s.wr .TACK_RING_CFG_SIZE_LOG z.val 0 c.val) c.val →
    ∃ t, exec (.ringEnable m c z split) s = .next t ∧ t.rd .TACK_RING_CFG_EN 0 c.val = 0 ∧ Recorded s t .tack 0 errRegionDenied m.val) ∧
  (∀ (s : State) (m : Master) (c d : Chan) (z : Fin 8) (split : Bool), MayWrite s .tack 0 m → s.rd .TACK_RING_CFG_EN 0 c.val = 0 → d ≠ c →
    s.rd .TACK_RING_CFG_EN 0 d.val = 1 → ringsOverlap (s.wr .TACK_RING_CFG_SIZE_LOG z.val 0 c.val) c.val d.val = true →
    ∃ t, exec (.ringEnable m c z split) s = .next t ∧ t.rd .TACK_RING_CFG_EN 0 c.val = 0 ∧ Recorded s t .tack 0 errRingOverlap m.val) ∧
  (∀ (s : State) (m : Master) (c : Chan), MayWrite s .tack 0 m → s.rd .TACK_RING_CFG_EN 0 c.val = 1 →
    ∃ t, exec (.ringDisable m c) s = .next t ∧ t.rd .TACK_RING_CFG_EN 0 c.val = 0 ∧ t.ring c.val = ({} : Ring) ∧
      (t.cse c.val).altRing = ({} : Ring)) ∧
  (∀ (s : State) (c : Chan) (p : Fin 2) (n : BitVec 16) (cur mark : RingPart), s.dev = .up → served s = true →
    (s.cse c.val).altPend = none →
    firstPlay s c.val p.val (inOrder s c.val) = none → ((s.cse c.val).src.player p.val).muted = false →
    (s.ring c.val).parts p.val = (cur, {}, mark) → 0 < cur.len → cur.circular = true → resident cur (partSize s c.val p.val) = false →
    0 < partSize s c.val p.val →
    (∀ b : Nat, b < partSize s c.val p.val → byteAllowed s (20 + quadOf c.val) .write (partBase s c.val p.val + b) = true ∧
      s.benchOff (partBase s c.val p.val + b) = false) → 0 < n.toNat →
    ∃ t, exec (.ringRefill c p false n) s = .next t ∧ ((t.ring c.val).parts p.val).1.wr = cur.wr + n.toNat ∧
      ((t.ring c.val).parts p.val).1.body = cur.body) ∧
  (∀ (s : State) (c : Chan) (p : Fin 2) (n : BitVec 16) (cur mark : RingPart), s.dev = .up → served s = true →
    (s.cse c.val).altPend = none →
    (((s.cse c.val).alt.getD {}).player p.val).muted = false →
    (s.cse c.val).altRing.parts p.val = (cur, {}, mark) → 0 < cur.len → cur.circular = true →
      resident cur (partSize s c.val p.val) = false →
    0 < partSize s c.val p.val →
    (∀ b : Nat, b < partSize s c.val p.val → byteAllowed s (20 + quadOf c.val) .write (partBase s c.val p.val + b) = true ∧
      s.benchOff (partBase s c.val p.val + b) = false) → 0 < n.toNat →
    ∃ t, exec (.ringRefill c p true n) s = .next t ∧ ((t.cse c.val).altRing.parts p.val).1.wr = cur.wr + n.toNat ∧
      ((t.cse c.val).altRing.parts p.val).1.body = cur.body)

/-- A sample edge of a running quad goes on to the next edge index; a channel in QUEUE mode that takes codes takes the oldest code of
its sample queue, and in a gang that code moves into its input latch. An enabled channel with an empty queue counts an underrun and
raises SQ_UNDERRUN. 64 consecutive underruns make SQ_UNDERRUN a fault source. The first fault source raises FAULT_ENTER; an enabled
channel shows the fault value and ends its span sequence, a disabled one at its wake value keeps its code. The exit raises FAULT_EXIT
and starts a pending span change. FORCE in a stopped quad sets or clears FORCED at once, in a running one at the next edge. CLEAR ends
SQ_UNDERRUN, and WATCHDOG once firmware runs. Enabling stores ENABLE and shows the fault value where a fault stands; disabling shows the
wake value, over a span change where the wake span is not in effect (log 137 for one already on the way). A soft reset disables, clears
every fault source and pending change and keeps the marks of failed stages. (Rests on 01_architecture.md R12, R19, 06_outputs.md R190,
R194, R207, R208, R209, R210, R212, R217.) -/
def Obligations.OutputSamples : Prop :=
  (∀ (s : State) (q : Quad), s.dev = .up → (s.clock q.val).running = true →
    ∃ t, exec (.quadSampleEdge q) s = .next t ∧ (t.clock q.val).next = (s.clock q.val).next + 1 ∧
      (∀ c : Nat, c ∈ chansOf q.val → ∀ e, (s.out c).sq.head? = some e → s.rd .OUT_STATUS_GANG_ACTIVE c = 0 → (s.out c).latch = none →
        (s.out c).forceReq = none → (s.out c).lostReq = false → takesCodes s c = true →
        (t.out c).dac = e.code ∧ (t.out c).sq = (s.out c).sq.tail ++ (s.out c).inter.take 1) ∧
      (∀ c : Nat, c ∈ chansOf q.val → ∀ e, (s.out c).sq.head? = some e → s.rd .OUT_STATUS_GANG_ACTIVE c = 1 → (s.out c).rejoin = false →
        (s.out c).faulted = false →
        (t.out c).latch = some e ∧ (t.out c).dac = (s.out c).dac ∧ (t.out c).sq = (s.out c).sq.tail ++ (s.out c).inter.take 1) ∧
      (∀ c : Nat, c ∈ chansOf q.val → (s.out c).sq = [] → s.rd .OUT_STATUS_GANG_ACTIVE c = 1 ∨ (s.out c).latch = none →
        outEnabled s c = true → (t.out c).underruns = (s.out c).underruns + 1 ∧ Raised t .out c 0 ∧
        (t.cse c).dropCodes = (s.cse c).dropCodes + 1 ∧
        t.rd .OUT_SQ_UCNT_COUNT c = satAdd Reg.OUT_SQ_UCNT_COUNT.width (s.rd .OUT_SQ_UCNT_COUNT c) 1)) ∧
  (∀ (s : State) (c : Chan), s.dev = .up → 64 ≤ (s.out c.val).underruns →
    ∃ t, exec (.sqUnderrunFault c) s = .next t ∧ t.rd .OUT_FAULT_STAT_SQ_UNDERRUN c.val = 1 ∧ anySource t c.val = true) ∧
  (∀ (s : State) (c : Chan), s.dev = .up → anySource s c.val = true → (s.out c.val).faulted = false →
    ∃ t, exec (.faultEnter c) s = .next t ∧ (t.out c.val).faulted = true ∧ Raised t .out c.val 1 ∧
      (outEnabled s c.val = true → (t.out c.val).dac = voltCode (spanNow s c.val) (s.rd .OUT_NV_FAULT_VAL c.val) ∧
        (t.out c.val).spanPhase = .none ∧ t.rd .OUT_STATUS_SPAN_BUSY c.val = 0) ∧
      (outEnabled s c.val = false → (s.out c.val).spanPhase = .none → (t.out c.val).dac = (s.out c.val).dac)) ∧
  (∀ (s : State) (c : Chan), s.dev = .up → anySource s c.val = false → (s.out c.val).faulted = true →
    ∃ t, exec (.faultExit c) s = .next t ∧ (t.out c.val).faulted = false ∧ Raised t .out c.val 11 ∧
      ((s.out c.val).toWake = false → (t.out c.val).spanPend = none ∧ ∀ v, pendingSpan s c.val = some v →
        (t.out c.val).spanPhase = .slew ∧ (t.out c.val).spanTo = v ∧ t.rd .OUT_STATUS_SPAN_BUSY c.val = 1)) ∧
  (∀ (s : State) (m : Master) (c : Chan) (f : Bool), MayWrite s .out c.val m → quadRuns s c.val = false →
    ∃ t, exec (.faultForceWrite m c f) s = .next t ∧ t.rd .OUT_FAULT_CTL_FORCE c.val = (if f then 1 else 0) ∧
      t.rd .OUT_FAULT_STAT_FORCED c.val = (if f then 1 else 0)) ∧
  (∀ (s : State) (m : Master) (c : Chan) (f : Bool), MayWrite s .out c.val m → quadRuns s c.val = true →
    ∃ t, exec (.faultForceWrite m c f) s = .next t ∧ t.rd .OUT_FAULT_CTL_FORCE c.val = (if f then 1 else 0) ∧
      (t.out c.val).forceReq = some f ∧ t.rd .OUT_FAULT_STAT_FORCED c.val = s.rd .OUT_FAULT_STAT_FORCED c.val) ∧
  (∀ (s : State) (m : Master) (c : Chan), MayWrite s .out c.val m →
    ∃ t, exec (.faultClear m c) s = .next t ∧ t.rd .OUT_FAULT_STAT_SQ_UNDERRUN c.val = 0 ∧
      t.rd .OUT_FAULT_STAT_WATCHDOG c.val = (if s.fwUp then 0 else s.rd .OUT_FAULT_STAT_WATCHDOG c.val)) ∧
  (∀ (s : State) (m : Master) (c : Chan), MayWrite s .out c.val m →
    ∃ t, exec (.outEnableWrite m c true) s = .next t ∧ t.rd .CTRL_ENABLE c.val (Page.code .out) = 1 ∧
      (outEnabled s c.val = false → (s.out c.val).faulted = true →
        (t.out c.val).dac = voltCode (spanNow s c.val) (s.rd .OUT_NV_FAULT_VAL c.val))) ∧
  (∀ (s : State) (m : Master) (c : Chan), MayWrite s .out c.val m → atWake s c.val = false →
    ∃ t, exec (.outEnableWrite m c false) s = .next t ∧ t.rd .CTRL_ENABLE c.val (Page.code .out) = 0 ∧
      ((s.out c.val).wakeSpan = spanNow s c.val →
        (t.out c.val).dac = voltCode (spanNow s c.val) (s.out c.val).wakeVal ∧ t.rd .OUT_STATUS_SPAN_BUSY c.val = 0) ∧
      ((s.out c.val).wakeSpan ≠ spanNow s c.val → (t.out c.val).spanPhase = .slew ∧ (t.out c.val).spanTo = (s.out c.val).wakeSpan ∧
        (t.out c.val).toWake = true ∧ t.rd .OUT_STATUS_SPAN_BUSY c.val = 1)) ∧
  (∀ (s : State) (m : Master) (c : Chan), MayWrite s .out c.val m → atWake s c.val = true →
    ∃ t, exec (.outEnableWrite m c false) s = .next t ∧ t.rd .CTRL_ENABLE c.val (Page.code .out) = 0 ∧ t.outs = s.outs) ∧
  (∀ (s : State) (m : Master) (c : Chan), MayWrite s .out c.val m →
    ∃ t, exec (.outSoftReset m c) s = .next t ∧ t.rd .CTRL_ENABLE c.val (Page.code .out) = 0 ∧ anySource t c.val = false ∧
      (t.out c.val).faulted = false ∧ (t.out c.val).spanPend = none ∧ t.rd .SHADOW_CMD_PENDING c.val (Page.code .out) = 0 ∧
      t.rd .OUT_STAGE_STAT_A_FAILED c.val = s.rd .OUT_STAGE_STAT_A_FAILED c.val ∧
      t.rd .OUT_STAGE_STAT_B_FAILED c.val = s.rd .OUT_STAGE_STAT_B_FAILED c.val)

/-- A tracking fault of a healthy active stage, outside limit, foldback and slews, and a bias fault of one, mark it failed; with a
healthy standby the switchover is requested with its cause, with none the pin goes to high impedance and CHANNEL_LOST is raised. A host
request is granted with a healthy standby, as part of one asked for already, and refused without. The switchover changes STAGE, stores
its cause, counts and raises STAGE_SWITCH. A remote-sense fault raises SENSE_FAULT and, where AUTO_LOCAL asks, goes to local sensing, in
a running quad at the next edge. Entering the limit sets IN_LIMIT and, but after a break of less than 100 µs, starts its time; leaving
clears it. 3.8 ms in limit fold back: FOLDBACK set, counted, SHORT raised. SC_CLR and the retry of 100 ms ask for the end of a foldback,
held while it is one of heat; the end clears FOLDBACK. Over-temperature folds back, is counted and raises OVERTEMP; its clear ends
OVERTEMP and lets a held request act. (Rests on 06_outputs.md R199, R200, R201, R202, R203, R204.) -/
def Obligations.StagesAndProtection : Prop :=
  (∀ (s : State) (c : Chan), s.dev = .up → s.rd .OUT_STAGECTL_AUTO_SWITCH c.val = 1 → s.rd .OUT_STATUS_HIGHZ c.val = 0 →
    activeHealthy s c.val = true → s.rd .OUT_STATUS_IN_LIMIT c.val = 0 → s.rd .OUT_STATUS_FOLDBACK c.val = 0 →
    (s.out c.val).spanPhase ≠ .slew → (s.out c.val).slewUntil + 8000 ≤ s.osc →
    ∃ t, exec (.stageTrackingFault c) s = .next t ∧ activeHealthy t c.val = false ∧
      (standbyHealthy s c.val = true → (t.out c.val).switchReq = some 1) ∧
      (standbyHealthy s c.val = false → t.rd .OUT_STATUS_HIGHZ c.val = 1 ∧ Raised t .out c.val 4)) ∧
  (∀ (s : State) (c : Chan), s.dev = .up → s.rd .OUT_STAGECTL_AUTO_SWITCH c.val = 1 → s.rd .OUT_STATUS_HIGHZ c.val = 0 →
    activeHealthy s c.val = true → standbyHealthy s c.val = true →
    ∃ t, exec (.stageBiasFault c) s = .next t ∧ activeHealthy t c.val = false ∧ (t.out c.val).switchReq = some 2) ∧
  (∀ (s : State) (c : Chan), s.dev = .up → s.rd .OUT_STAGECTL_AUTO_SWITCH c.val = 1 → s.rd .OUT_STATUS_HIGHZ c.val = 0 →
    activeHealthy s c.val = true → standbyHealthy s c.val = false →
    ∃ t, exec (.stageBiasFault c) s = .next t ∧ activeHealthy t c.val = false ∧ t.rd .OUT_STATUS_HIGHZ c.val = 1 ∧ Raised t .out c.val 4) ∧
  (∀ (s : State) (m : Master) (c : Chan), MayWrite s .out c.val m →
    ∃ t, exec (.stageSwitchReq m c) s = .next t ∧
      (standbyHealthy s c.val = true → (t.out c.val).switchReq = some ((s.out c.val).switchReq.getD 3)) ∧
      (standbyHealthy s c.val = false → t.rd .OUT_STAGE_STAT_REQ_REFUSED c.val = 1 ∧ (t.out c.val).switchReq = (s.out c.val).switchReq)) ∧
  (∀ (s : State) (c : Chan) (k : Nat), s.dev = .up → (s.out c.val).switchReq = some k → k < 4 → Inv s →
    ∃ t, exec (.stageSwitchover c) s = .next t ∧ t.rd .OUT_STATUS_STAGE c.val = 1 - s.rd .OUT_STATUS_STAGE c.val ∧
      t.rd .OUT_STAGE_STAT_LAST_CAUSE c.val = k ∧ (t.out c.val).switchReq = none ∧ Raised t .out c.val 3 ∧
      t.rd .OUT_STAGE_STAT_SWITCH_CNT c.val = satAdd Reg.OUT_STAGE_STAT_SWITCH_CNT.width (s.rd .OUT_STAGE_STAT_SWITCH_CNT c.val) 1) ∧
  (∀ (s : State) (c : Chan), s.dev = .up → s.rd .OUT_STAGECTL_SENSE_MODE c.val = 0 → s.rd .OUT_STATUS_SENSE_LOCAL c.val = 0 →
    s.rd .OUT_STATUS_IN_LIMIT c.val = 0 →
    ∃ t, exec (.senseFault c) s = .next t ∧ Raised t .out c.val 6 ∧
      (s.rd .OUT_STAGECTL_AUTO_LOCAL c.val = 1 → quadRuns s c.val = false → t.rd .OUT_STATUS_SENSE_LOCAL c.val = 1) ∧
      (s.rd .OUT_STAGECTL_AUTO_LOCAL c.val = 1 → quadRuns s c.val = true → (t.out c.val).localReq = true) ∧
      (s.rd .OUT_STAGECTL_AUTO_LOCAL c.val = 0 → t.rd .OUT_STATUS_SENSE_LOCAL c.val = 0)) ∧
  (∀ (s : State) (c : Chan), s.dev = .up → s.rd .OUT_STATUS_HIGHZ c.val = 0 → s.rd .OUT_STATUS_IN_LIMIT c.val = 0 →
    s.rd .OUT_STATUS_FOLDBACK c.val = 0 →
    ∃ t, exec (.currentLimitEnter c) s = .next t ∧ t.rd .OUT_STATUS_IN_LIMIT c.val = 1 ∧ (t.out c.val).limitFrom =
      (if (s.out c.val).limitOut.all (fun x => decide (x + 40000 ≤ s.osc)) = true then s.osc else (s.out c.val).limitFrom)) ∧
  (∀ (s : State) (c : Chan), s.dev = .up → s.rd .OUT_STATUS_IN_LIMIT c.val = 1 →
    ∃ t, exec (.currentLimitExit c) s = .next t ∧ t.rd .OUT_STATUS_IN_LIMIT c.val = 0 ∧ (t.out c.val).limitOut = some s.osc) ∧
  (∀ (s : State) (c : Chan), s.dev = .up → s.rd .OUT_STATUS_IN_LIMIT c.val = 1 → s.rd .OUT_STATUS_FOLDBACK c.val = 0 →
    (s.out c.val).limitFrom + 1520000 ≤ s.osc →
    ∃ t, exec (.foldback c) s = .next t ∧ t.rd .OUT_STATUS_FOLDBACK c.val = 1 ∧ (t.out c.val).foldFrom = s.osc ∧ Raised t .out c.val 2 ∧
      t.rd .OUT_SC_CNT_SHORTS c.val = satAdd Reg.OUT_SC_CNT_SHORTS.width (s.rd .OUT_SC_CNT_SHORTS c.val) 1) ∧
  (∀ (s : State) (m : Master) (c : Chan), MayWrite s .out c.val m → s.rd .OUT_STATUS_FOLDBACK c.val = 1 →
    ∃ t, exec (.scClr m c) s = .next t ∧ ((s.out c.val).foldTemp = false → (t.out c.val).foldEnd = true) ∧
      ((s.out c.val).foldTemp = true → (t.out c.val).clearHeld = true)) ∧
  (∀ (s : State) (c : Chan), s.dev = .up → s.rd .OUT_PROTCFG_AUTO_RETRY c.val = 1 → (s.out c.val).foldFrom + 40000000 ≤ s.osc →
    s.rd .OUT_STATUS_FOLDBACK c.val = 1 →
    ∃ t, exec (.foldbackRetry c) s = .next t ∧ ((s.out c.val).foldTemp = false → (t.out c.val).foldEnd = true) ∧
      ((s.out c.val).foldTemp = true → (t.out c.val).clearHeld = true)) ∧
  (∀ (s : State) (c : Chan), s.dev = .up → (s.out c.val).foldEnd = true →
    ∃ t, exec (.foldbackEnd c) s = .next t ∧ t.rd .OUT_STATUS_FOLDBACK c.val = 0 ∧ (t.out c.val).foldEnd = false ∧
      (t.out c.val).limitFrom = s.osc) ∧
  (∀ (s : State) (c : Chan), s.dev = .up → s.rd .OUT_STATUS_HIGHZ c.val = 0 → s.rd .OUT_STATUS_OVERTEMP c.val = 0 →
    ∃ t, exec (.overtemp c) s = .next t ∧ t.rd .OUT_STATUS_OVERTEMP c.val = 1 ∧ t.rd .OUT_STATUS_FOLDBACK c.val = 1 ∧
      Raised t .out c.val 9 ∧
      (t.out c.val).foldTemp = true ∧
      t.rd .OUT_SC_CNT_OVERTEMPS c.val = satAdd Reg.OUT_SC_CNT_OVERTEMPS.width (s.rd .OUT_SC_CNT_OVERTEMPS c.val) 1) ∧
  (∀ (s : State) (c : Chan), s.dev = .up → s.rd .OUT_STATUS_OVERTEMP c.val = 1 →
    ∃ t, exec (.overtempClear c) s = .next t ∧ t.rd .OUT_STATUS_OVERTEMP c.val = 0 ∧ (t.out c.val).foldTemp = false ∧
      ((s.out c.val).clearHeld = true → (t.out c.val).foldEnd = true))

/-- At the end of the slew the pin shows the safe value on the old span and the hold begins; after the hold the span is switched; the
switch puts the new span into effect and shows the safe value on it; settling leads to the release, or, on the way to the wake span, to
the wake value with SPAN_BUSY clear, unless another span is pending (log 137). At a sample edge of a running quad the release of a
channel with no other span pending clears SPAN_BUSY and raises SPAN_DONE; an enabled one keeps its code, or in a gang takes that of a
strobe in the sequence (log 137), a disabled one shows its wake value. With another span pending the hold of its sequence begins at
once, at the safe value. (Rests on 06_outputs.md R189, R213, R214, R217.) -/
def Obligations.SpanChanges : Prop :=
  (∀ (s : State) (c : Chan), s.dev = .up → (s.out c.val).spanPhase = .slew →
    ∃ t, exec (.spanSlewEnd c) s = .next t ∧ (t.out c.val).spanPhase = .hold ∧
      (t.out c.val).dac = voltCode (spanNow s c.val) (s.out c.val).safe) ∧
  (∀ (s : State) (c : Chan), s.dev = .up → (s.out c.val).spanPhase = .hold →
    ∃ t, exec (.spanHoldEnd c) s = .next t ∧ (t.out c.val).spanPhase = .switch ∧ (t.out c.val).dac = (s.out c.val).dac) ∧
  (∀ (s : State) (c : Chan), s.dev = .up → (s.out c.val).spanPhase = .switch → (s.out c.val).spanTo < 8 →
    ∃ t, exec (.spanSwitchDone c) s = .next t ∧ (t.out c.val).spanPhase = .settle ∧
      t.rd .OUT_STATUS_SPAN_NOW c.val = (s.out c.val).spanTo ∧
      (t.out c.val).dac = voltCode (s.out c.val).spanTo (s.out c.val).safe) ∧
  (∀ (s : State) (c : Chan), s.dev = .up → (s.out c.val).spanPhase = .settle → (s.out c.val).toWake = false →
    ∃ t, exec (.spanSettleEnd c) s = .next t ∧ (t.out c.val).spanPhase = .release) ∧
  (∀ (s : State) (c : Chan), s.dev = .up → (s.out c.val).spanPhase = .settle → (s.out c.val).toWake = true →
    ∃ t, exec (.spanSettleEnd c) s = .next t ∧ (t.out c.val).toWake = false ∧ (t.out c.val).spanPend = none ∧
      (pendingSpan s c.val = none → (t.out c.val).spanPhase = .none ∧ t.rd .OUT_STATUS_SPAN_BUSY c.val = 0 ∧
        (t.out c.val).dac = voltCode (spanNow s c.val) (s.out c.val).wakeVal) ∧
      ∀ v, pendingSpan s c.val = some v → (t.out c.val).spanPhase = .hold ∧ (t.out c.val).spanTo = v) ∧
  (∀ (s : State) (c : Chan), s.dev = .up → (s.out c.val).spanPhase = .release → quadRuns s c.val = true →
    pendingSpan s c.val = none →
    ∃ t, exec (.spanRelease c) s = .next t ∧ (t.out c.val).spanPhase = .none ∧ t.rd .OUT_STATUS_SPAN_BUSY c.val = 0 ∧
      Raised t .out c.val 5 ∧ (t.out c.val).dac =
        (if outEnabled s c.val = false then voltCode (spanNow s c.val) (s.out c.val).wakeVal
         else if s.rd .OUT_STATUS_GANG_ACTIVE c.val = 1 then (s.out c.val).strobed.getD (s.out c.val).dac else (s.out c.val).dac)) ∧
  (∀ (s : State) (c : Chan) (v : Nat), s.dev = .up → (s.out c.val).spanPhase = .release → quadRuns s c.val = true →
    (s.out c.val).spanPend = some v → v ≠ spanNow s c.val →
    ∃ t, exec (.spanRelease c) s = .next t ∧ (t.out c.val).spanPhase = .hold ∧ (t.out c.val).spanTo = v ∧
      (t.out c.val).spanPend = none ∧ t.rd .OUT_STATUS_SPAN_BUSY c.val = s.rd .OUT_STATUS_SPAN_BUSY c.val ∧
      (t.out c.val).dac = voltCode (spanNow s c.val) (s.rd .OUT_NV_SAFE_VAL c.val))

/-- A write of NVM_CMD by master 0, 1 or 2 with the key A5h on an idle channel puts its operation, PROGRAM or RELOAD, at the end of the
device's order and sets BUSY; another key sets ERR 1. A PROGRAM that ends well, its cycles not used up, stores the working copies; one
that ends badly sets ERR 2, and one past the last cycle ERR 3. A RELOAD that ends well loads the record into the working copies; one of
a bad record sets NVM_BAD and HIGHZ. The end of an operation clears BUSY, sets DONE and raises NVM_DONE. Masters 0 to 2 write NV_WAKE,
its span where it is one, NV_FAULT and NV_SAFE; another master's write of these or of NVM_CMD records OWNER_DENIED and changes none.
(Rests on 06_outputs.md R205, R206, R207.) -/
def Obligations.OutputRecord : Prop :=
  (∀ (s : State) (m : Master) (c : Chan), MayWrite s .out c.val m → m.val ≤ 2 → s.rd .OUT_NVM_STAT_BUSY c.val = 0 →
    ∃ t, exec (.nvmProgram m c 0xA5) s = .next t ∧ t.rd .OUT_NVM_STAT_BUSY c.val = 1 ∧ (t.out c.val).nvmOp = 1 ∧
      t.nvmQueue = s.nvmQueue ++ [c.val]) ∧
  (∀ (s : State) (m : Master) (c : Chan) (k : Byte), MayWrite s .out c.val m → m.val ≤ 2 → k ≠ 0xA5 →
    ∃ t, exec (.nvmProgram m c k) s = .next t ∧ t.rd .OUT_NVM_STAT_ERR c.val = 1 ∧ t.nvmQueue = s.nvmQueue) ∧
  (∀ (s : State) (m : Master) (c : Chan) (k : Byte), MayWrite s .out c.val m → m.val ≤ 2 → k ≠ 0xA5 →
    ∃ t, exec (.nvmReload m c k) s = .next t ∧ t.rd .OUT_NVM_STAT_ERR c.val = 1 ∧ t.nvmQueue = s.nvmQueue) ∧
  (∀ (s : State) (m : Master) (c : Chan), MayWrite s .out c.val m → m.val ≤ 2 → s.rd .OUT_NVM_STAT_BUSY c.val = 0 →
    ∃ t, exec (.nvmReload m c 0xA5) s = .next t ∧ t.rd .OUT_NVM_STAT_BUSY c.val = 1 ∧ (t.out c.val).nvmOp = 2 ∧
      t.nvmQueue = s.nvmQueue ++ [c.val]) ∧
  (∀ (s : State) (c : Chan), s.dev = .up → s.nvmQueue.head? = some c.val → (s.out c.val).nvmOp = 1 →
    (s.out c.val).record.programs < 100000 →
    ∃ t, exec (.nvmDone c true) s = .next t ∧ (t.out c.val).record = workingRecord s c.val ∧ t.nvmQueue = s.nvmQueue.tail ∧
      t.rd .OUT_NVM_STAT_BUSY c.val = 0 ∧ t.rd .OUT_NVM_STAT_DONE c.val = 1 ∧ t.rd .OUT_NVM_STAT_ERR c.val = 0 ∧ Raised t .out c.val 8) ∧
  (∀ (s : State) (c : Chan) (ok : Bool), s.dev = .up → s.nvmQueue.head? = some c.val → (s.out c.val).nvmOp = 1 →
    ok = false ∨ 100000 ≤ (s.out c.val).record.programs →
    ∃ t, exec (.nvmDone c ok) s = .next t ∧ t.nvmQueue = s.nvmQueue.tail ∧ t.rd .OUT_NVM_STAT_BUSY c.val = 0 ∧
      t.rd .OUT_NVM_STAT_DONE c.val = 1 ∧ Raised t .out c.val 8 ∧
      t.rd .OUT_NVM_STAT_ERR c.val = (if 100000 ≤ (s.out c.val).record.programs then 3 else 2)) ∧
  (∀ (s : State) (c : Chan) (ok : Bool), s.dev = .up → s.nvmQueue.head? = some c.val → (s.out c.val).nvmOp = 2 →
    ok = false ∨ (s.out c.val).record.bad = true →
    ∃ t, exec (.nvmDone c ok) s = .next t ∧ t.nvmQueue = s.nvmQueue.tail ∧ t.rd .OUT_NVM_STAT_BUSY c.val = 0 ∧
      t.rd .OUT_NVM_STAT_DONE c.val = 1 ∧ Raised t .out c.val 8 ∧ t.rd .OUT_STATUS_NVM_BAD c.val = 1 ∧ t.rd .OUT_STATUS_HIGHZ c.val = 1) ∧
  (∀ (s : State) (c : Chan), s.dev = .up → s.nvmQueue.head? = some c.val → (s.out c.val).nvmOp = 2 →
    (s.out c.val).record.bad = false →
    ∃ t, exec (.nvmDone c true) s = .next t ∧ t.rd .OUT_NV_WAKE_VAL c.val = (s.out c.val).record.wake % 2 ^ 21 ∧
      t.rd .OUT_NV_FAULT_VAL c.val = (s.out c.val).record.fault % 2 ^ 21 ∧
        t.rd .OUT_NV_SAFE_VAL c.val = (s.out c.val).record.safe % 2 ^ 21 ∧
      t.rd .OUT_NVM_STAT_BUSY c.val = 0 ∧ t.rd .OUT_NVM_STAT_DONE c.val = 1 ∧ Raised t .out c.val 8) ∧
  (∀ (s : State) (m : Master) (c : Chan) (v : Word), MayWrite s .out c.val m → m.val ≤ 2 →
    ∃ t, exec (.nvValueWrite m c 0 v) s = .next t ∧ t.rd .OUT_NV_WAKE_VAL c.val = bits v.toNat 20 0 ∧
      t.rd .OUT_NV_WAKE_SPAN c.val = (if bits v.toNat 26 24 < 6 then bits v.toNat 26 24 else s.rd .OUT_NV_WAKE_SPAN c.val)) ∧
  (∀ (s : State) (m : Master) (c : Chan) (v : Word), MayWrite s .out c.val m → m.val ≤ 2 →
    ∃ t, exec (.nvValueWrite m c 1 v) s = .next t ∧ t.rd .OUT_NV_FAULT_VAL c.val = bits v.toNat 20 0) ∧
  (∀ (s : State) (m : Master) (c : Chan) (v : Word), MayWrite s .out c.val m → m.val ≤ 2 →
    ∃ t, exec (.nvValueWrite m c 2 v) s = .next t ∧ t.rd .OUT_NV_SAFE_VAL c.val = bits v.toNat 20 0) ∧
  (∀ (s : State) (m : Master) (c : Chan) (k : Byte), MayWrite s .out c.val m → 2 < m.val →
    ∃ t, exec (.nvmProgram m c k) s = .next t ∧ t.nvmQueue = s.nvmQueue ∧ Recorded s t .out c.val errOwnerDenied m.val) ∧
  (∀ (s : State) (m : Master) (c : Chan) (k : Byte), MayWrite s .out c.val m → 2 < m.val →
    ∃ t, exec (.nvmReload m c k) s = .next t ∧ t.nvmQueue = s.nvmQueue ∧ Recorded s t .out c.val errOwnerDenied m.val) ∧
  (∀ (s : State) (m : Master) (c : Chan) (which : Fin 3) (v : Word), MayWrite s .out c.val m → 2 < m.val →
    ∃ t, exec (.nvValueWrite m c which v) s = .next t ∧ t.rd .OUT_NV_WAKE_VAL c.val = s.rd .OUT_NV_WAKE_VAL c.val ∧
      t.rd .OUT_NV_WAKE_SPAN c.val = s.rd .OUT_NV_WAKE_SPAN c.val ∧ t.rd .OUT_NV_FAULT_VAL c.val = s.rd .OUT_NV_FAULT_VAL c.val ∧
      t.rd .OUT_NV_SAFE_VAL c.val = s.rd .OUT_NV_SAFE_VAL c.val ∧ Recorded s t .out c.val errOwnerDenied m.val)

/-- A due rotation of an idle tier visits the next position that may be visited; one of a tier with no core in SPARE monitors, and
raises NO_SPARE once. A visit request for a position of an idle tier visits it, on another tier it waits; without a spare it is refused
with SPARE_IN_USE. Shadowing starts at the next edge of the channel's quad, matching after it. At the end of the match window, a match
within tolerance is decided for 2 us later and stores its results; one beyond it, the first time, recalibrates the spare (in MEASURE,
log 139), the second time marks the position SUSPECT and raises MATCH_FAIL; one beyond 64 times the tolerance asks for a failover. The
handover of the decided visit connects the spare, puts the position's core into CAL, starts the measurement and raises HANDOVER; one not
due, or of another position or core, changes nothing. (Rests on 07_burnish.md R223, R224, R225, R226, R227, R235.) -/
def Obligations.BurnishVisits : Prop :=
  (∀ (s : State) (t : Tier) (mon : List (List SenseSample)) (p : Nat), s.dev = .up → rotationDue s t.val = true →
    tierIdle s t.val = true → nextVisit s t.val = some p →
    ∃ t', exec (.rotationStart t mon) s = .next t' ∧ visitPos t' t.val = p ∧ t'.rd .BURNISH_STATUS_ROTATING 0 0 t.val = 1) ∧
  (∀ (s : State) (t : Tier) (mon : List (List SenseSample)), s.dev = .up → rotationDue s t.val = true → spareCore s t.val = 15 →
    ∃ t', exec (.rotationStart t mon) s = .next t' ∧ spPhase t' t.val = 9 ∧ (t'.tier t.val).noSpare = true ∧
      ((s.tier t.val).noSpare = false → Raised t' .spare t.val 3)) ∧
  (∀ (s : State) (m : Master) (t : Tier) (p : Fin 16), MayWrite s .spare t.val m → p.val < 12 → tierIdle s t.val = true →
    burnishActs s = true →
    ∃ t', exec (.visitReq m t p) s = .next t' ∧ visitPos t' t.val = p.val ∧ t'.rd .BURNISH_STATUS_ROTATING 0 0 t.val = 1) ∧
  (∀ (s : State) (m : Master) (t : Tier) (p : Fin 16), MayWrite s .spare t.val m → p.val < 12 → spareCore s t.val ≠ 15 →
    tierIdle s t.val = false ∨ burnishActs s = false →
    ∃ t', exec (.visitReq m t p) s = .next t' ∧ visitPos t' t.val = visitPos s t.val ∧ (t'.tier t.val).visitReq = some p.val) ∧
  (∀ (s : State) (m : Master) (t : Tier) (p : Fin 16), MayWrite s .spare t.val m → spareCore s t.val = 15 →
    ∃ t', exec (.visitReq m t p) s = .next t' ∧ visitPos t' t.val = visitPos s t.val ∧ Recorded s t' .spare t.val errSpareInUse m.val) ∧
  (∀ (s : State) (t : Tier), s.dev = .up → visitPos s t.val < 12 → spPhase s t.val = 0 → spareFree s t.val = true →
    burnishActs s = true → capturing s t.val = false → visitOk s t.val (visitPos s t.val) = true →
    ∃ t', exec (.shadowStart t) s = .next t' ∧ spPhase t' t.val = 1 ∧ (t'.tier t.val).n0 = (s.clock (visitQuad s t.val)).next) ∧
  (∀ (s : State) (t : Tier), s.dev = .up → spPhase s t.val = 1 → capturing s t.val = false → s.rd .POWER_STATUS_DSTATE = 0 →
    visitOk s t.val (visitPos s t.val) = true → (s.tier t.val).n0 < (s.clock (visitQuad s t.val)).next →
    ∃ t', exec (.matchStart t) s = .next t' ∧ spPhase t' t.val = 2 ∧ (t'.tier t.val).windowFrom = s.osc) ∧
  (∀ (s : State) (t : Tier) (taps : List (SenseSample × SenseSample)) (out : List SenseSample) (a b : Rat), s.dev = .up →
    spPhase s t.val = 2 → capturing s t.val = false → windowOver s t.val = true → visitOk s t.val (visitPos s t.val) = true →
    matchFit (taps.map (fun p => (sensed s t.val p.1, sensed s t.val p.2))) = (a, b) →
    max (max a (-a)) (max b (-b)) ≤ ((max 1 (s.rd .BURNISH_MATCH_TOL_LSB) : Nat) : Rat) →
    ∃ t', exec (.matchDecision t taps out) s = .next t' ∧ (t'.tier t.val).decided = some (s.osc + 800) ∧ spPhase t' t.val = 3 ∧
      t'.rd .SPARE_MATCH_RES_OFFSET t.val = unsigned 16 (roundQ (a * 16)) ∧
      t'.rd .SPARE_MATCH_RES_GAIN t.val = unsigned 16 (roundQ (b * 16))) ∧
  (∀ (s : State) (t : Tier) (taps : List (SenseSample × SenseSample)) (out : List SenseSample) (a b : Rat), s.dev = .up →
    spPhase s t.val = 2 → capturing s t.val = false → windowOver s t.val = true → visitOk s t.val (visitPos s t.val) = true →
    matchFit (taps.map (fun p => (sensed s t.val p.1, sensed s t.val p.2))) = (a, b) →
    ((max 1 (s.rd .BURNISH_MATCH_TOL_LSB) : Nat) : Rat) < max (max a (-a)) (max b (-b)) →
    max (max a (-a)) (max b (-b)) ≤ 64 * ((max 1 (s.rd .BURNISH_MATCH_TOL_LSB) : Nat) : Rat) → (s.tier t.val).retried = false →
    s.rd .POWER_STATUS_DSTATE = 0 →
    ∃ t', exec (.matchDecision t taps out) s = .next t' ∧ spPhase t' t.val = 4 ∧ (t'.tier t.val).retried = true ∧
      (t'.tier t.val).offline = true) ∧
  (∀ (s : State) (t : Tier) (taps : List (SenseSample × SenseSample)) (out : List SenseSample) (a b : Rat), s.dev = .up →
    spPhase s t.val = 2 → capturing s t.val = false → windowOver s t.val = true → visitOk s t.val (visitPos s t.val) = true →
    matchFit (taps.map (fun p => (sensed s t.val p.1, sensed s t.val p.2))) = (a, b) →
    ((max 1 (s.rd .BURNISH_MATCH_TOL_LSB) : Nat) : Rat) < max (max a (-a)) (max b (-b)) →
    max (max a (-a)) (max b (-b)) ≤ 64 * ((max 1 (s.rd .BURNISH_MATCH_TOL_LSB) : Nat) : Rat) → (s.tier t.val).retried = true →
    ∃ t', exec (.matchDecision t taps out) s = .next t' ∧ t'.rd .SPARE_SKIP_SUSPECT t.val 0 (visitPos s t.val) = 1 ∧
      Raised t' .burnish 0 2) ∧
  (∀ (s : State) (t : Tier) (taps : List (SenseSample × SenseSample)) (out : List SenseSample) (a b : Rat), s.dev = .up →
    spPhase s t.val = 2 → capturing s t.val = false → windowOver s t.val = true → visitOk s t.val (visitPos s t.val) = true →
    matchFit (taps.map (fun p => (sensed s t.val p.1, sensed s t.val p.2))) = (a, b) →
    64 * ((max 1 (s.rd .BURNISH_MATCH_TOL_LSB) : Nat) : Rat) < max (max a (-a)) (max b (-b)) → spareCore s t.val ≠ 15 →
    ∃ t', exec (.matchDecision t taps out) s = .next t' ∧ t'.rd .SPARE_STATUS_FAILOVER_BUSY t.val = 1) ∧
  (∀ (s : State) (t : Tier) (p : Fin 12) (k : Fin 13), s.dev = .up → handoverDue s t.val = true → visitPos s t.val = p.val →
    ownCore s t.val p.val = k.val → s.rd .POWER_STATUS_DSTATE = 0 → visitOk s t.val p.val = true → Inv s →
    ∃ t', exec (.handover t p k) s = .next t' ∧ t'.rd .OUT_STATUS_CORE_SPARE (12 * t.val + p.val) = 1 ∧
      calCore t' t.val = k.val ∧ coreRole t' t.val k.val = 2 ∧ spPhase t' t.val = 4 ∧ Raised t' .spare t.val 0) ∧
  (∀ (s : State) (t : Tier) (p : Fin 12) (k : Fin 13), s.dev = .up →
    handoverDue s t.val = false ∨ visitPos s t.val ≠ p.val ∨ ownCore s t.val p.val ≠ k.val →
    exec (.handover t p k) s = .next s)

/-- At the end of its window a measurement that needs no extension, or has had one, goes on to the solution; another is extended once. A
solution within the trim ranges puts its trims in force and goes on to verification; one outside them, the first failure in a row of a
rotated core, raises CAL_FAIL and releases. A verification that passes on a rotated core makes the spare the position's own live core
and the calibrated core the spare, raises ROT_DONE and ends the visit; on a spare recalibrated after a failed match it shadows again;
one that fails, the first in a row of a rotated core, raises CAL_FAIL and counts it. A due reference frame is kept and stores the
deviation where its field holds it; beyond 200 ppm a good reference turns bad and raises REF_FAULT; within 150 ppm it is good; between
them it stays. (Rests on 07_burnish.md R224, R226, R228, R229, R230, R231, R240.) -/
def Obligations.BurnishCalibration : Prop :=
  (∀ (s : State) (t : Tier) (taps : List SenseSample), s.dev = .up → spPhase s t.val = 4 → (s.tier t.val).abandonFrom = none →
    windowOver s t.val = true →
    needsExtension (solveCore ((s.tier t.val).window ++ taps.map (sensed s t.val))) = false ∨ (s.tier t.val).extended = true →
    ∃ t', exec (.calMeasureDone t taps) s = .next t' ∧ spPhase t' t.val = 5 ∧
      (t'.tier t.val).window = (s.tier t.val).window ++ taps.map (sensed s t.val)) ∧
  (∀ (s : State) (t : Tier) (taps : List SenseSample), s.dev = .up → spPhase s t.val = 4 → (s.tier t.val).abandonFrom = none →
    windowOver s t.val = true → (s.tier t.val).extended = false →
    needsExtension (solveCore ((s.tier t.val).window ++ taps.map (sensed s t.val))) = true →
    ∃ t', exec (.calMeasureDone t taps) s = .next t' ∧ spPhase t' t.val = 4 ∧ (t'.tier t.val).extended = true) ∧
  (∀ (s : State) (t : Tier) (k : Fin 13) (x : CoreTrim), s.dev = .up → spPhase s t.val = 5 → calTarget s t.val = k.val →
    (s.tier t.val).abandonFrom = none → capturing s t.val = false → s.rd .POWER_STATUS_DSTATE = 0 →
    applySolution (s.rd .BURNISH_STATUS_REF_OK == 1) (lastGood s t.val k.val)
      (applicable (solveCore (s.tier t.val).window)) = some x →
    ∃ t', exec (.calSolveDone t k) s = .next t' ∧ spPhase t' t.val = 6 ∧
      t'.rd .SPARE_GO_TRIM_GAIN t.val k.val = x.gain % 2 ^ 16 ∧
      t'.rd .SPARE_GO_TRIM_OFFSET t.val k.val = x.offset % 2 ^ 16) ∧
  (∀ (s : State) (t : Tier) (k : Fin 13), s.dev = .up → spPhase s t.val = 5 → calCore s t.val = k.val →
    (s.tier t.val).abandonFrom = none → (s.tier t.val).offline = false → (s.tier t.val).hostCal = false →
    Store.get 0 (s.tier t.val).calFails k.val = 0 →
    applySolution (s.rd .BURNISH_STATUS_REF_OK == 1) (lastGood s t.val k.val)
      (applicable (solveCore (s.tier t.val).window)) = none →
    ∃ t', exec (.calSolveDone t k) s = .next t' ∧ calCore t' t.val = 15 ∧ Raised t' .burnish 0 1 ∧ Raised t' .burnish 0 0) ∧
  (∀ (s : State) (t : Tier) (taps : List SenseSample), s.dev = .up → spPhase s t.val = 6 → calCore s t.val ≠ 15 →
    (s.tier t.val).abandonFrom = none → windowOver s t.val = true → verifyPasses (solveCore (taps.map (sensed s t.val))) = true →
    (s.tier t.val).offline = false → (s.tier t.val).hostCal = false → visitPos s t.val < 12 → (s.tier t.val).visitReq = none → Inv s →
    ∃ t', exec (.calVerifyDone t taps) s = .next t' ∧ ownCore t' t.val (visitPos s t.val) = spareCore s t.val ∧
      spareCore t' t.val = calCore s t.val ∧ coreRole t' t.val (calCore s t.val) = 1 ∧ calCore t' t.val = 15 ∧ visitPos t' t.val = 15 ∧
      t'.rd .OUT_STATUS_CORE_SPARE (12 * t.val + visitPos s t.val) = 0 ∧ spPhase t' t.val = 0 ∧ Raised t' .burnish 0 0) ∧
  (∀ (s : State) (t : Tier) (taps : List SenseSample), s.dev = .up → spPhase s t.val = 6 → calTarget s t.val ≠ 15 →
    (s.tier t.val).abandonFrom = none → windowOver s t.val = true → verifyPasses (solveCore (taps.map (sensed s t.val))) = true →
    (s.tier t.val).offline = true → visitOk s t.val (visitPos s t.val) = true → capturing s t.val = false → burnishActs s = true →
    ∃ t', exec (.calVerifyDone t taps) s = .next t' ∧ spPhase t' t.val = 1 ∧ (t'.tier t.val).offline = false) ∧
  (∀ (s : State) (t : Tier) (taps : List SenseSample), s.dev = .up → spPhase s t.val = 6 → calCore s t.val ≠ 15 →
    (s.tier t.val).abandonFrom = none → windowOver s t.val = true → verifyPasses (solveCore (taps.map (sensed s t.val))) = false →
    (s.tier t.val).offline = false → (s.tier t.val).hostCal = false → Store.get 0 (s.tier t.val).calFails (calCore s t.val) = 0 →
    ∃ t', exec (.calVerifyDone t taps) s = .next t' ∧ Raised t' .burnish 0 1 ∧
      Store.get 0 (t'.tier t.val).calFails (calCore s t.val) = 1) ∧
  (∀ (s : State) (t : Tier) (ref agnd : List (BitVec 18 × BitVec 16)) (d : Rat), s.dev = .up → frameDue s t.val = true →
    frameDeviation s.vref (frameOf (s.rd .BURNISH_BCFG_DITHER_EN == 1) ref agnd) = d →
    ∃ t', exec (.referenceFrame ⟨t, ref, agnd⟩) s = .next t' ∧
      (t'.tier t.val).frames.head? = some (frameOf (s.rd .BURNISH_BCFG_DITHER_EN == 1) ref agnd) ∧
      (-(2 ^ 15) ≤ roundQ (d * (10 ^ 7 : Nat)) → roundQ (d * (10 ^ 7 : Nat)) < 2 ^ 15 →
        t'.rd .BURNISH_REF_DEV_PPM = unsigned 16 (roundQ (d * (10 ^ 7 : Nat)))) ∧
      (2 / (10 ^ 4 : Nat) < max d (-d) → s.rd .BURNISH_STATUS_REF_OK = 1 →
        t'.rd .BURNISH_STATUS_REF_OK = 0 ∧ Raised t' .burnish 0 5) ∧
      (max d (-d) ≤ 15 / (10 ^ 5 : Nat) → t'.rd .BURNISH_STATUS_REF_OK = 1) ∧
      (15 / (10 ^ 5 : Nat) < max d (-d) → max d (-d) ≤ 2 / (10 ^ 4 : Nat) →
        t'.rd .BURNISH_STATUS_REF_OK = s.rd .BURNISH_STATUS_REF_OK))

/-- A health fault of a live own core with a free spare and no visit in CAL asks for a failover of its position to be retired; with no
core in SPARE the channel shows CORE_LOST, at once in a stopped quad, in a running one from its next edge. A host request does the same
with its own cause; without a spare it is refused with SPARE_IN_USE, and one of no position asks for none. The switch of a failover
makes the spare the position's live own core, retires the failing core or, where that is not asked, puts it into CAL, leaves no spare
and raises FAILOVER. The end of an abandoned calibration with a sound spare leaves nothing in CAL: the calibrated core goes back in
service, or, after a HOST failover, becomes the spare. (Rests on 07_burnish.md R233, R234, R235.) -/
def Obligations.BurnishFailover : Prop :=
  (∀ (s : State) (t : Tier) (k : Fin 13) (p : Nat), s.dev = .up → coreRole s t.val k.val = 0 →
    (upTo 12).find? (fun p => ownCore s t.val p == k.val) = some p → spareCore s t.val ≠ 15 → covered s t.val = none →
    calCore s t.val = 15 → (∀ f ∈ (s.tier t.val).failovers, f.pos ≠ p) →
    ∃ t', exec (.coreHealthFault t k) s = .next t' ∧ t'.rd .SPARE_STATUS_FAILOVER_BUSY t.val = 1 ∧
      (t'.tier t.val).failovers = (s.tier t.val).failovers ++ [⟨p, 1, true, (s.clock (quadOf (12 * t.val + p))).next, s.osc⟩]) ∧
  (∀ (s : State) (t : Tier) (k : Fin 13) (p : Nat), s.dev = .up → coreRole s t.val k.val = 0 →
    (upTo 12).find? (fun p => ownCore s t.val p == k.val) = some p → spareCore s t.val = 15 →
    ∃ t', exec (.coreHealthFault t k) s = .next t' ∧
      (quadRuns s (12 * t.val + p) = false → t'.rd .OUT_FAULT_STAT_CORE_LOST (12 * t.val + p) = 1) ∧
      (quadRuns s (12 * t.val + p) = true → (t'.out (12 * t.val + p)).lostReq = true)) ∧
  (∀ (s : State) (m : Master) (t : Tier) (p : Fin 16) (r : Bool), MayWrite s .spare t.val m → spareCore s t.val ≠ 15 → p.val < 12 →
    covered s t.val = none → calCore s t.val = 15 → (∀ f ∈ (s.tier t.val).failovers, f.pos ≠ p.val) →
    ∃ t', exec (.failoverReq m t p r) s = .next t' ∧ t'.rd .SPARE_STATUS_FAILOVER_BUSY t.val = 1 ∧
      (t'.tier t.val).failovers = (s.tier t.val).failovers ++ [⟨p.val, 3, r, (s.clock (quadOf (12 * t.val + p.val))).next, s.osc⟩]) ∧
  (∀ (s : State) (m : Master) (t : Tier) (p : Fin 16) (r : Bool), MayWrite s .spare t.val m → spareCore s t.val ≠ 15 → 12 ≤ p.val →
    ∃ t', exec (.failoverReq m t p r) s = .next t' ∧ t'.tiers = s.tiers) ∧
  (∀ (s : State) (m : Master) (t : Tier) (p : Fin 16) (r : Bool), MayWrite s .spare t.val m → spareCore s t.val = 15 →
    ∃ t', exec (.failoverReq m t p r) s = .next t' ∧ (t'.tier t.val).failovers = (s.tier t.val).failovers ∧
      Recorded s t' .spare t.val errSpareInUse m.val) ∧
  (∀ (s : State) (t : Tier) (f : Failover) (rest : List Failover), s.dev = .up → (s.tier t.val).failovers = f :: rest →
    failoverReady s t.val f = true → f.pos < 12 → f.retire = true → spareCore s t.val ≠ ownCore s t.val f.pos → Inv s →
    ∃ t', exec (.failoverSwitch t) s = .next t' ∧ ownCore t' t.val f.pos = spareCore s t.val ∧
      coreRole t' t.val (spareCore s t.val) = 0 ∧ coreRole t' t.val (ownCore s t.val f.pos) = 3 ∧ spareCore t' t.val = 15 ∧
      t'.rd .SPARE_STATUS_SPARE_FREE t.val = 0 ∧ Raised t' .spare t.val 1 ∧ Raised t' .spare t.val 2) ∧
  (∀ (s : State) (t : Tier) (f : Failover) (rest : List Failover), s.dev = .up → (s.tier t.val).failovers = f :: rest →
    failoverReady s t.val f = true → f.pos < 12 → f.retire = false → spareCore s t.val ≠ ownCore s t.val f.pos → Inv s →
    ∃ t', exec (.failoverSwitch t) s = .next t' ∧ ownCore t' t.val f.pos = spareCore s t.val ∧
      coreRole t' t.val (spareCore s t.val) = 0 ∧ coreRole t' t.val (ownCore s t.val f.pos) = 2 ∧ spareCore t' t.val = 15 ∧
      calCore t' t.val = ownCore s t.val f.pos ∧ t'.rd .SPARE_STATUS_SPARE_FREE t.val = 0 ∧ Raised t' .spare t.val 1) ∧
  (∀ (s : State) (t : Tier), s.dev = .up → abandonReady s t.val = true → (s.tier t.val).hostCal = false → (s.tier t.val).spareFails = none →
    visitPos s t.val < 12 → Inv s →
    ∃ t', exec (.calibrationAbandon t) s = .next t' ∧ calCore t' t.val = 15 ∧ coreRole t' t.val (calCore s t.val) = 0 ∧
      t'.rd .OUT_STATUS_CORE_SPARE (12 * t.val + visitPos s t.val) = 0 ∧ spareCore t' t.val = spareCore s t.val ∧
      visitPos t' t.val = 15 ∧ (t'.tier t.val).abandonFrom = none) ∧
  (∀ (s : State) (t : Tier), s.dev = .up → abandonReady s t.val = true → (s.tier t.val).hostCal = true → (s.tier t.val).spareFails = none →
    Inv s →
    ∃ t', exec (.calibrationAbandon t) s = .next t' ∧ calCore t' t.val = 15 ∧ coreRole t' t.val (calCore s t.val) = 1 ∧
      spareCore t' t.val = calCore s t.val ∧ visitPos t' t.val = 15 ∧ (t'.tier t.val).abandonFrom = none)

/-- A capture started at once sets BUSY and CAPTURING, takes its address and its source; one at a comparator that its writer owns waits
for it, one that names a comparator not owned is rejected with OWNER_DENIED, and one while BUSY is refused. ABORT ends a running capture
at its next sample, a waiting one at once. An allowed sample in memory without errors stores its sign-extended 32-bit value at the
capture address, goes on by 4 and counts; a denied one ends the capture with REGION_DENIED. The end of a capture clears BUSY and
CAPTURING and raises CAP_END. SAVE_NOW asks for every record. A due write of the core map puts the map and roles in force, with the next
generation, into the copy that does not count, keeps the other and raises NVM_SAVED; a due save of trims stores the last-good trims and
raises NVM_SAVED. (Rests on 07_burnish.md R236, R237, R238, R239.) -/
def Obligations.BurnishCapture : Prop :=
  (∀ (s : State) (m : Master) (t : Tier) (src : Fin 32) (lc : Lc), MayWrite s .burnish 0 m → s.rd .BURNISH_CAP_CTRL_BUSY 0 t.val = 0 →
    ∃ t', exec (.captureStart m t src false lc) s = .next t' ∧ t'.rd .BURNISH_CAP_CTRL_BUSY 0 t.val = 1 ∧ capturing t' t.val = true ∧
      t'.rd .BURNISH_CAP_CTRL_CAP_SRC 0 t.val = src.val ∧ t'.rd .BURNISH_CAP_DONE_COUNT 0 t.val = 0 ∧
      (t'.tier t.val).capAddr = s.rd .BURNISH_CAP_ADDR_LO_ADDR 0 t.val + 2 ^ 32 * s.rd .BURNISH_CAP_ADDR_HI_ADDR 0 t.val) ∧
  (∀ (s : State) (m : Master) (t : Tier) (src : Fin 32) (lc : Lc), MayWrite s .burnish 0 m → s.rd .BURNISH_CAP_CTRL_BUSY 0 t.val = 0 →
    ownsLc s m.val lc.val = true →
    ∃ t', exec (.captureStart m t src true lc) s = .next t' ∧ t'.rd .BURNISH_CAP_CTRL_BUSY 0 t.val = 1 ∧
      (t'.tier t.val).capWait = true ∧ t'.rd .BURNISH_CAP_CTRL_CAP_LC 0 t.val = lc.val) ∧
  (∀ (s : State) (m : Master) (t : Tier) (src : Fin 32) (lc : Lc), MayWrite s .burnish 0 m → ownsLc s m.val lc.val = false →
    ∃ t', exec (.captureStart m t src true lc) s = .next t' ∧ t'.rd .BURNISH_CAP_CTRL_BUSY 0 t.val = s.rd .BURNISH_CAP_CTRL_BUSY 0 t.val ∧
      t'.tiers = s.tiers ∧ Recorded s t' .burnish 0 errOwnerDenied m.val) ∧
  (∀ (s : State) (m : Master) (t : Tier) (src : Fin 32) (atLc : Bool) (lc : Lc), MayWrite s .burnish 0 m →
    s.rd .BURNISH_CAP_CTRL_BUSY 0 t.val = 1 → atLc = false ∨ ownsLc s m.val lc.val = true →
    ∃ t', exec (.captureStart m t src atLc lc) s = .next t' ∧ t'.rd .BURNISH_CAP_CTRL_REFUSED 0 t.val = 1 ∧ t'.tiers = s.tiers) ∧
  (∀ (s : State) (m : Master) (t : Tier), MayWrite s .burnish 0 m → s.rd .BURNISH_CAP_CTRL_BUSY 0 t.val = 1 →
    (s.tier t.val).capWait = true →
    ∃ t', exec (.captureAbort m t) s = .next t' ∧ (t'.tier t.val).capWait = false ∧ t'.rd .BURNISH_CAP_CTRL_BUSY 0 t.val = 0) ∧
  (∀ (s : State) (m : Master) (t : Tier), MayWrite s .burnish 0 m → s.rd .BURNISH_CAP_CTRL_BUSY 0 t.val = 1 →
    (s.tier t.val).capWait = false →
    ∃ t', exec (.captureAbort m t) s = .next t' ∧ (t'.tier t.val).capAbort = true) ∧
  (∀ (s : State) (t : Tier) (x : BitVec 18), s.dev = .up → captureMore s t.val = true →
    inBench (s.tier t.val).capAddr 4 = true ∨ inWave s (s.tier t.val).capAddr 4 = true →
    memAllowed s 5 .write (s.tier t.val).capAddr 4 = true → s.anyPoison (s.tier t.val).capAddr 4 = false → CleanCells s → Inv s →
    ∃ t', exec (.captureSample t x) s = .next t' ∧
      t'.bytes (s.tier t.val).capAddr 4 = leBytes 4 (x.signExtend 32).toNat ∧ (t'.tier t.val).capAddr = (s.tier t.val).capAddr + 4 ∧
      t'.rd .BURNISH_CAP_DONE_COUNT 0 t.val = s.rd .BURNISH_CAP_DONE_COUNT 0 t.val + 1 ∧
      ∀ b : Nat, b < (s.tier t.val).capAddr ∨ (s.tier t.val).capAddr + 4 ≤ b → t'.byte b = s.byte b) ∧
  (∀ (s : State) (t : Tier) (x : BitVec 18), s.dev = .up → captureMore s t.val = true →
    memAllowed s 5 .write (s.tier t.val).capAddr 4 = false →
    ∃ t', exec (.captureSample t x) s = .next t' ∧ t'.mem = s.mem ∧ t'.rd .BURNISH_CAP_CTRL_BUSY 0 t.val = 0 ∧ capturing t' t.val = false ∧
      Raised t' .burnish 0 3 ∧ Recorded s t' .burnish 0 errRegionDenied 5) ∧
  (∀ (s : State) (t : Tier), s.dev = .up → capturing s t.val = true → captureMore s t.val = false →
    ∃ t', exec (.capEnd t) s = .next t' ∧ t'.rd .BURNISH_CAP_CTRL_BUSY 0 t.val = 0 ∧ capturing t' t.val = false ∧ Raised t' .burnish 0 3) ∧
  (∀ (s : State) (m : Master), MayWrite s .burnish 0 m →
    ∃ t', exec (.burnishSaveNow m) s = .next t' ∧ t'.trimDue = true ∧ t'.rd .BURNISH_STATUS_NVM_SAVING = 1 ∧
      ∀ t : Nat, t < 4 → (t'.tier t).mapUrgent = true) ∧
  (∀ (s : State) (t : Tier), s.dev = .up → s.nvmQueue = [] →
    (s.tier t.val).mapUrgent = true ∨ (s.tier t.val).mapDirty = true ∧ (s.tier t.val).mapSaved + 60 * Config.ticksPerSecond ≤ s.osc →
    ∃ t', exec (.coreMapWrite t) s = .next t' ∧ (t'.tier t.val).mapUrgent = false ∧ (t'.tier t.val).mapDirty = false ∧
      Raised t' .burnish 0 4 ∧
      ((validMap (s.tier t.val)).map Prod.fst = some true → (t'.tier t.val).recA = (s.tier t.val).recA ∧
        (t'.tier t.val).recB = some (mapRecord s t.val (((validMap (s.tier t.val)).map (fun x => x.2.gen)).getD 0 + 1))) ∧
      ((validMap (s.tier t.val)).map Prod.fst ≠ some true → (t'.tier t.val).recB = (s.tier t.val).recB ∧
        (t'.tier t.val).recA = some (mapRecord s t.val (((validMap (s.tier t.val)).map (fun x => x.2.gen)).getD 0 + 1)))) ∧
  (∀ s : State, s.dev = .up → s.nvmQueue = [] → s.trimDue = true ∨ s.rd .BURNISH_BCFG_SAVE_HOURS ≠ 0 ∧
      s.trimSaved + s.rd .BURNISH_BCFG_SAVE_HOURS * 3600 * Config.ticksPerSecond ≤ s.osc →
    ∃ t', exec .trimSaveTimer s = .next t' ∧ t'.trimDue = false ∧ t'.trimSaved = s.osc ∧ t'.rd .BURNISH_STATUS_NVM_SAVING = 0 ∧
      Raised t' .burnish 0 4 ∧ ∀ t : Nat, t < 4 → (t'.tier t).nvGood = (s.tier t).good)

/-- In D0 an armed line that meets presentations fires at this tick; with a capture unit that is not busy it counts the firing and
delivers one record of the slots that presented; with a Stitcher input it sends it one event. Further ones at its firing tick merge:
their slots join LAST_SLOTS and nothing more is delivered. Within the re-arm interval after it the presentations are suppressed, counted
one each, and deliver nothing. A busy capture unit makes an overrun in NORMAL, or in HOLD with an event remembered, with its flag, the
count and the event; in HOLD else the event is remembered. A line whose count reaches its threshold is muted and raises STORM. The end
of the interval arms the line; a storm window restarts the counts of its lines with their present profile; the owner's STORM clear
unmutes and arms. A remembered event leaves when the consumer is no longer busy, to a capture unit with its record. (Rests on
08_harness.md R242, R243, R244, R257, R258, R260, R261, R270, R271.) -/
def Obligations.HarnessFiring : Prop :=
  (∀ (s : State) (l : Line) (u : Nat), s.dev = .up → lineLive s l.val = true → presentingSlots s l.val ≠ [] →
    (s.line l.val).firedAt = none → lineConsumer s l.val = .capu u → (s.capu u).length < 4 →
    s.rd .POWER_STATUS_DSTATE = 0 →
    ∃ t, exec (.lineFire l) s = .next t ∧ (t.line l.val).firedAt = some s.osc ∧
      t.rd .HARNESS_LCNT_FIRED_FIRED 0 l.val =
        satAdd (Reg.width .HARNESS_LCNT_FIRED_FIRED) (s.rd .HARNESS_LCNT_FIRED_FIRED 0 l.val) 1 ∧
      t.capu u = s.capu u ++ [capRecord s l.val ((presentingSlots s l.val).foldl (fun n j => n + 2 ^ j) 0)]) ∧
  (∀ (s : State) (l : Line), s.dev = .up → lineLive s l.val = true → presentingSlots s l.val ≠ [] →
    (s.line l.val).firedAt ≠ none → (s.line l.val).firedAt ≠ some s.osc →
    ∃ t, exec (.lineFire l) s = .next t ∧ t.rd .HARNESS_LCNT_MERGE_SUPPRESSED 0 l.val =
        satAdd 16 (s.rd .HARNESS_LCNT_MERGE_SUPPRESSED 0 l.val) (presentingSlots s l.val).length ∧
      t.rd .HARNESS_LCNT_FIRED_FIRED 0 l.val = s.rd .HARNESS_LCNT_FIRED_FIRED 0 l.val ∧
      t.capus = s.capus ∧ t.pins = s.pins ∧ t.evin = s.evin ∧ t.gstbs = s.gstbs) ∧
  (∀ (s : State) (l : Line), s.dev = .up → lineLive s l.val = true → presentingSlots s l.val ≠ [] → (s.line l.val).firedAt = some s.osc →
    ∃ t, exec (.lineFire l) s = .next t ∧ t.rd .HARNESS_LCNT_FIRED_FIRED 0 l.val = s.rd .HARNESS_LCNT_FIRED_FIRED 0 l.val ∧
      t.rd .HARNESS_LINE_STAT_LAST_SLOTS 0 l.val = (s.rd .HARNESS_LINE_STAT_LAST_SLOTS 0 l.val |||
        (presentingSlots s l.val).foldl (fun n j => n + 2 ^ j) 0) % 2 ^ 8 ∧ t.capus = s.capus ∧ t.pins = s.pins ∧ t.evin = s.evin) ∧
  (∀ (s : State) (l : Line) (q e : Nat), s.dev = .up → lineLive s l.val = true → presentingSlots s l.val ≠ [] →
    (s.line l.val).firedAt = none → lineConsumer s l.val = .input q e → s.rd .POWER_STATUS_DSTATE = 0 →
    ∃ t, exec (.lineFire l) s = .next t ∧ (t.line l.val).firedAt = some s.osc ∧ t.evin = s.evin ++ [(q, e)]) ∧
  (∀ (s : State) (l : Line) (u : Nat), s.dev = .up → lineLive s l.val = true → presentingSlots s l.val ≠ [] →
    (s.line l.val).firedAt = none → lineConsumer s l.val = .capu u → (s.capu u).length = 4 →
    s.rd .POWER_STATUS_DSTATE = 0 → lineHold s l.val = false ∨ s.rd .HARNESS_LINE_STAT_PENDING 0 l.val = 1 →
    ∃ t, exec (.lineFire l) s = .next t ∧ t.capus = s.capus ∧ t.rd .HARNESS_CAPU_CFG_OVR 0 u = 1 ∧
      t.rd .HARNESS_LCNT_OVR_OVERRUN 0 l.val =
        satAdd (Reg.width .HARNESS_LCNT_OVR_OVERRUN) (s.rd .HARNESS_LCNT_OVR_OVERRUN 0 l.val) 1 ∧ Raised t .harness 0 0) ∧
  (∀ (s : State) (l : Line) (u : Nat), s.dev = .up → lineLive s l.val = true → presentingSlots s l.val ≠ [] →
    (s.line l.val).firedAt = none → lineConsumer s l.val = .capu u → (s.capu u).length = 4 →
    s.rd .POWER_STATUS_DSTATE = 0 → lineHold s l.val = true → s.rd .HARNESS_LINE_STAT_PENDING 0 l.val = 0 →
    ∃ t, exec (.lineFire l) s = .next t ∧ t.capus = s.capus ∧ t.rd .HARNESS_LINE_STAT_PENDING 0 l.val = 1 ∧
      t.rd .HARNESS_LCNT_OVR_OVERRUN 0 l.val = s.rd .HARNESS_LCNT_OVR_OVERRUN 0 l.val) ∧
  (∀ (s : State) (l : Line), s.dev = .up → lineLive s l.val = true → presentingSlots s l.val ≠ [] →
    (stormInEffect s l.val).1 ≠ 0 →
    (stormInEffect s l.val).1 ≤ (s.line l.val).count + (presentingSlots s l.val).length →
    ∃ t, exec (.lineFire l) s = .next t ∧ t.rd .HARNESS_LINE_STAT_STORM 0 l.val = 1 ∧ Raised t .harness 0 1) ∧
  (∀ (s : State) (l : Line) (n : Nat), s.dev = .up → (s.line l.val).firedAt = some n →
    n + max 2 (s.rd .HARNESS_LINE_CFG_REARM 0 l.val) ≤ s.osc →
    ∃ t, exec (.lineRearm l) s = .next t ∧ (t.line l.val).firedAt = none) ∧
  (∀ (s : State) (w : Fin 32), s.dev = .up → 8 ≤ w.val → s.now % 2 ^ w.val = 0 →
    ∃ t, exec (.stormWindowStart w) s = .next t ∧ ∀ l : Nat, l < 128 → (stormInEffect s l).2 = w.val →
      (t.line l).count = 0 ∧ (t.line l).prof = some (stormProfile s l)) ∧
  (∀ (s : State) (m : Master) (l : Line), MayWrite s .harness 0 m → ownsLine s l.val m.val = true →
    s.rd .HARNESS_LINE_STAT_STORM 0 l.val = 1 →
    ∃ t, exec (.stormClear m l) s = .next t ∧ t.rd .HARNESS_LINE_STAT_STORM 0 l.val = 0 ∧ (t.line l.val).firedAt = none ∧
      (t.line l.val).count = 0) ∧
  (∀ (s : State) (l : Line), s.dev = .up → s.rd .HARNESS_LINE_STAT_PENDING 0 l.val = 1 → consumerBusy s (lineConsumer s l.val) = false →
    (s.line l.val).held = none →
    ∃ t, exec (.rememberedDeliver l) s = .next t ∧ t.rd .HARNESS_LINE_STAT_PENDING 0 l.val = 0 ∧
      ∀ u : Nat, u < 16 → lineConsumer s l.val = .capu u → t.capu u = s.capu u ++
        [(s.line l.val).kept.getD (capRecord s l.val (s.rd .HARNESS_LINE_STAT_LAST_SLOTS 0 l.val))])

/-- A claim of a free line, SEC as it is or changed by a secure master, records its master and applies the fields written; the owner's
later writes apply theirs, and EN = 0 discards a remembered event without counting it. Another master's write is refused with
OWNER_DENIED and a consumer that cannot serve the line with PIN_BUSY, and neither changes the line. A release disables the line, clears
its consumer, slots and storm, leaves no event remembered and keeps SEC. The owner names producers; a write by another master, or one
that names a comparator its writer does not own, is refused with OWNER_DENIED. A host trigger presents each bit written as 1, to every
line for a secure master and to lines with SEC 0 for another. Leaving HOLD discards what lines remembered. The recomputation marks
exactly the lines on a cycle. (Rests on 08_harness.md R247, R249, R252, R253, R254, R256, R258, R259.) -/
def Obligations.HarnessOwnership : Prop :=
  (∀ (s : State) (m : Master) (l : Line) (v : Word), MayWrite s .harness 0 m → s.rd .HARNESS_LINE_CFG_CLAIMED 0 l.val = 0 →
    lineHidden s l.val m.val = false → bit v.toNat 11 = s.rd .HARNESS_LINE_CFG_SEC 0 l.val ∨ secureMaster s m.val = true →
    consumerTaken s l.val m.val (bits v.toNat 8 0) = false →
    ∃ t, exec (.lineClaim m l v) s = .next t ∧ t.rd .HARNESS_LINE_CFG_CLAIMED 0 l.val = 1 ∧
      t.rd .HARNESS_LINE_CFG_OWNER 0 l.val = m.val ∧ t.rd .HARNESS_LINE_CFG_DST 0 l.val = bits v.toNat 8 0 ∧
      t.rd .HARNESS_LINE_CFG_SEC 0 l.val = bit v.toNat 11 ∧
      t.rd .HARNESS_LINE_CFG_EN 0 l.val = bit v.toNat 9 ∧ t.rd .HARNESS_LINE_CFG_SVC 0 l.val = bit v.toNat 10 ∧
      t.rd .HARNESS_LINE_CFG_REARM 0 l.val = bits v.toNat 23 12 ∧ t.rd .HARNESS_LINE_CFG_SPROF 0 l.val = bits v.toNat 30 29) ∧
  (∀ (s : State) (m : Master) (l : Line) (v : Word), MayWrite s .harness 0 m → ownsLine s l.val m.val = true → bit v.toNat 31 = 1 →
    bit v.toNat 11 = s.rd .HARNESS_LINE_CFG_SEC 0 l.val ∨ secureMaster s m.val = true →
      consumerTaken s l.val m.val (bits v.toNat 8 0) = false →
    ∃ t, exec (.lineCfgWrite m l v) s = .next t ∧ t.rd .HARNESS_LINE_CFG_SEC 0 l.val = bit v.toNat 11 ∧
      t.rd .HARNESS_LINE_CFG_DST 0 l.val = bits v.toNat 8 0 ∧
      t.rd .HARNESS_LINE_CFG_EN 0 l.val = bit v.toNat 9 ∧ t.rd .HARNESS_LINE_CFG_SVC 0 l.val = bit v.toNat 10 ∧
      t.rd .HARNESS_LINE_CFG_REARM 0 l.val = bits v.toNat 23 12 ∧ t.rd .HARNESS_LINE_CFG_SPROF 0 l.val = bits v.toNat 30 29 ∧
      t.rd .HARNESS_LINE_CFG_OWNER 0 l.val = m.val ∧
      (bit v.toNat 9 = 0 → t.rd .HARNESS_LINE_STAT_PENDING 0 l.val = 0 ∧
        t.rd .HARNESS_LCNT_OVR_OVERRUN 0 l.val = s.rd .HARNESS_LCNT_OVR_OVERRUN 0 l.val)) ∧
  (∀ (s : State) (m : Master) (l : Line) (v : Word), MayWrite s .harness 0 m → s.rd .HARNESS_LINE_CFG_CLAIMED 0 l.val = 1 →
    s.rd .HARNESS_LINE_CFG_OWNER 0 l.val ≠ m.val →
    ∃ t, exec (.lineCfgWrite m l v) s = .next t ∧ Recorded s t .harness 0 errOwnerDenied m.val ∧
      t.rd .HARNESS_LINE_CFG_DST 0 l.val = s.rd .HARNESS_LINE_CFG_DST 0 l.val ∧
      t.rd .HARNESS_LINE_CFG_EN 0 l.val = s.rd .HARNESS_LINE_CFG_EN 0 l.val ∧
      t.rd .HARNESS_LINE_CFG_OWNER 0 l.val = s.rd .HARNESS_LINE_CFG_OWNER 0 l.val) ∧
  (∀ (s : State) (m : Master) (l : Line) (v : Word), MayWrite s .harness 0 m → ownsLine s l.val m.val = true → bit v.toNat 31 = 1 →
    bit v.toNat 11 = s.rd .HARNESS_LINE_CFG_SEC 0 l.val ∨ secureMaster s m.val = true →
    consumerTaken s l.val m.val (bits v.toNat 8 0) = true →
    ∃ t, exec (.lineCfgWrite m l v) s = .next t ∧ Recorded s t .harness 0 errPinBusy m.val ∧
      t.rd .HARNESS_LINE_CFG_DST 0 l.val = s.rd .HARNESS_LINE_CFG_DST 0 l.val ∧
      t.rd .HARNESS_LINE_CFG_EN 0 l.val = s.rd .HARNESS_LINE_CFG_EN 0 l.val) ∧
  (∀ (s : State) (m : Master) (l : Line), MayWrite s .harness 0 m → ownsLine s l.val m.val = true →
    ∃ t, exec (.lineRelease m l) s = .next t ∧ t.rd .HARNESS_LINE_CFG_CLAIMED 0 l.val = 0 ∧ t.rd .HARNESS_LINE_CFG_EN 0 l.val = 0 ∧
      t.rd .HARNESS_LINE_CFG_DST 0 l.val = 0 ∧ t.rd .HARNESS_LINE_STAT_STORM 0 l.val = 0 ∧
      t.rd .HARNESS_LINE_STAT_PENDING 0 l.val ≠ 1 ∧ t.rd .HARNESS_LINE_CFG_SEC 0 l.val = s.rd .HARNESS_LINE_CFG_SEC 0 l.val ∧
      ∀ j : Nat, j < 8 → t.rd .HARNESS_LINE_SRC_SLOT 0 l.val j = 0) ∧
  (∀ (s : State) (m : Master) (l : Line) (w : Fin 4) (v : Word), MayWrite s .harness 0 m → ownsLine s l.val m.val = true →
    producerOk s m.val (bits v.toNat 8 0) = true → producerOk s m.val (bits v.toNat 24 16) = true →
    ∃ t, exec (.lineSrcWrite m l w v) s = .next t ∧ t.rd .HARNESS_LINE_SRC_SLOT 0 l.val (2 * w.val) = bits v.toNat 8 0 ∧
      t.rd .HARNESS_LINE_SRC_SLOT 0 l.val (2 * w.val + 1) = bits v.toNat 24 16) ∧
  (∀ (s : State) (m : Master) (l : Line) (w : Fin 4) (v : Word), MayWrite s .harness 0 m →
    ownsLine s l.val m.val = false ∨ producerOk s m.val (bits v.toNat 8 0) = false ∨ producerOk s m.val (bits v.toNat 24 16) = false →
    ∃ t, exec (.lineSrcWrite m l w v) s = .next t ∧ Recorded s t .harness 0 errOwnerDenied m.val ∧
      ∀ j : Nat, j < 8 → t.rd .HARNESS_LINE_SRC_SLOT 0 l.val j = s.rd .HARNESS_LINE_SRC_SLOT 0 l.val j) ∧
  (∀ (s : State) (m : Master) (v : Word), MayWrite s .harness 0 m →
    ∃ t, exec (.hostTrig m v) s = .next t ∧ t.presented = s.presented ++
      ((upTo 32).filter (fun j => bit v.toNat j == 1)).map (fun j => (if secureMaster s m.val then 0x180 else 0x380) + j)) ∧
  (∀ (s : State) (m : Master) (hold : Bool), MayWrite s .harness 0 m →
    ∃ t, exec (.svcModeWrite m hold) s = .next t ∧ t.rd .HARNESS_SVC_CTL_FORCE_HOLD = (if hold then 1 else 0) ∧
      (hold = false → ∀ l : Nat, l < 128 → lineHold s l = true → s.rd .HARNESS_LINE_CFG_SVC 0 l = 0 →
        t.rd .HARNESS_LINE_STAT_PENDING 0 l ≠ 1)) ∧
  (∀ s : State, s.dev = .up →
    ∃ t, exec .loopRecompute s = .next t ∧ t.rd .HARNESS_STATUS_LOOP_PRESENT = (if (loopLines s).isEmpty then 0 else 1) ∧
      ∀ l : Nat, l < 128 → t.rd .HARNESS_LINE_STAT_LOOP 0 l = (if (loopLines s).contains l then 1 else 0))

/-- With FILT 0 a selected edge of a pin on a good bank, at least 2.5 ns after the last it presented, presents its producer and keeps
its stamp; one that EDGE does not select, or on a bank out of range, presents nothing. With FILT an edge waits in the filter first. A
free pin is claimed with the function written and starts at its level of R266; another master's pin gives PIN_BUSY. The owner's release
returns PIN_CFG to its reset value; while a line names the pin it is refused with PIN_BUSY. A write of OMODE and INVERT keeps the
function and, where one of them changes, ends a pulse and gives the pin its level of R266. A line that fires in D0 starts a pulse on an
idle PULSE pin and inverts a TOGGLE pin; the end of the pulse makes the pin inactive. A free capture unit is claimed for its master; a
unit held by another is not, and PIN_BUSY is recorded. A read of CAPU_INFO answers the fraction, slots and flags of the oldest record
with VALID, removes it and keeps its count for the reading master; of an empty unit it answers zero and changes nothing else. (Rests on
08_harness.md R243, R263, R264, R265, R266, R269, R270, R271, R272.) -/
def Obligations.PinsAndCaptureUnits : Prop :=
  (∀ (s : State) (i : Fin 32) (rising half : Bool) (ago : Fin 256), s.dev = .up → bankOk s i.val = true →
    edgeSelected (s.rd .PAT_PIN_CFG_EDGE 0 i.val) rising = true → s.rd .PAT_PIN_CFG_FILT 0 i.val = 0 → (s.pin i.val).wait = none →
    (s.pin i.val).shown = 0 ∨ (s.pin i.val).shown + 1 ≤ 2 * (s.osc - ago.val) + (if half then 1 else 0) →
    ∃ t, exec (.patInputEdge i rising half ago) s = .next t ∧ t.presented = s.presented ++ [1 + i.val] ∧
      (t.pin i.val).edge = (s.now - ago.val, half)) ∧
  (∀ (s : State) (i : Fin 32) (rising half : Bool) (ago : Fin 256), s.dev = .up →
    s.rd .PAT_PIN_CFG_FILT 0 i.val = 0 → (s.pin i.val).wait = none →
    bankOk s i.val = false ∨ edgeSelected (s.rd .PAT_PIN_CFG_EDGE 0 i.val) rising = false →
    ∃ t, exec (.patInputEdge i rising half ago) s = .next t ∧ t.presented = s.presented) ∧
  (∀ (s : State) (i : Fin 32) (rising half : Bool), s.dev = .up → s.rd .PAT_PIN_CFG_FILT 0 i.val ≠ 0 → (s.pin i.val).wait = none →
    ∃ t, exec (.patInputEdge i rising half 0) s = .next t ∧ t.presented = s.presented ∧ (t.pin i.val).wait =
      some (rising, 2 * s.osc + (if half then 1 else 0) + s.rd .PAT_PIN_CFG_FILT 0 i.val, s.now, half)) ∧
  (∀ (s : State) (m : Master) (i : Fin 32) (v : Word), MayWrite s .pat 0 m → s.rd .PAT_PIN_CFG_CLAIMED 0 i.val = 0 →
    ∃ t, exec (.pinClaim m i v) s = .next t ∧ t.rd .PAT_PIN_CFG_CLAIMED 0 i.val = 1 ∧ t.rd .PAT_PIN_CFG_OWNER 0 i.val = m.val ∧
      t.rd .PAT_PIN_CFG_FUNC 0 i.val = bits v.toNat 1 0 ∧ t.rd .PAT_PIN_CFG_OMODE 0 i.val = bit v.toNat 2 ∧
      t.rd .PAT_PIN_CFG_INVERT 0 i.val = bit v.toNat 3 ∧ t.rd .PAT_PIN_CFG_EDGE 0 i.val = bits v.toNat 7 6 ∧
      t.rd .PAT_PIN_CFG_CH 0 i.val = bits v.toNat 17 12 ∧ (t.pin i.val).level = claimLevel t i.val ∧ (t.pin i.val).pulsing = false) ∧
  (∀ (s : State) (m : Master) (i : Fin 32) (v : Word), MayWrite s .pat 0 m → s.rd .PAT_PIN_CFG_CLAIMED 0 i.val = 1 →
    s.rd .PAT_PIN_CFG_OWNER 0 i.val ≠ m.val →
    ∃ t, exec (.pinClaim m i v) s = .next t ∧ Recorded s t .pat 0 errPinBusy m.val ∧
      t.rd .PAT_PIN_CFG_FUNC 0 i.val = s.rd .PAT_PIN_CFG_FUNC 0 i.val ∧ t.pins = s.pins) ∧
  (∀ (s : State) (m : Master) (i : Fin 32), MayWrite s .pat 0 m → s.rd .PAT_PIN_CFG_CLAIMED 0 i.val = 1 →
    s.rd .PAT_PIN_CFG_OWNER 0 i.val = m.val → pinNamed s i.val = false →
    ∃ t, exec (.pinRelease m i) s = .next t ∧ pinWord t i.val = 0 ∧ t.rd .PAT_PIN_PULSE_PULSE 0 i.val = 1) ∧
  (∀ (s : State) (m : Master) (i : Fin 32), MayWrite s .pat 0 m → s.rd .PAT_PIN_CFG_CLAIMED 0 i.val = 1 →
    s.rd .PAT_PIN_CFG_OWNER 0 i.val = m.val → pinNamed s i.val = true →
    ∃ t, exec (.pinRelease m i) s = .next t ∧ pinWord t i.val = pinWord s i.val ∧ Recorded s t .pat 0 errPinBusy m.val) ∧
  (∀ (s : State) (m : Master) (i : Fin 32) (o v : Bool), MayWrite s .pat 0 m → s.rd .PAT_PIN_CFG_CLAIMED 0 i.val = 1 →
    s.rd .PAT_PIN_CFG_OWNER 0 i.val = m.val → Inv s →
    ∃ t, exec (.pinModeWrite m i o v) s = .next t ∧ t.rd .PAT_PIN_CFG_OMODE 0 i.val = (if o then 1 else 0) ∧
      t.rd .PAT_PIN_CFG_INVERT 0 i.val = (if v then 1 else 0) ∧ t.rd .PAT_PIN_CFG_FUNC 0 i.val = s.rd .PAT_PIN_CFG_FUNC 0 i.val ∧
      t.rd .PAT_PIN_CFG_CH 0 i.val = s.rd .PAT_PIN_CFG_CH 0 i.val ∧
      (s.rd .PAT_PIN_CFG_OMODE 0 i.val ≠ (if o then 1 else 0) → (t.pin i.val).pulsing = false ∧ (t.pin i.val).level = claimLevel s i.val) ∧
      (s.rd .PAT_PIN_CFG_INVERT 0 i.val ≠ (if v then 1 else 0) → (t.pin i.val).pulsing = false ∧
        (t.pin i.val).level = claimLevel s i.val)) ∧
  (∀ (s : State) (l : Line) (i : Nat), s.dev = .up → lineLive s l.val = true → presentingSlots s l.val ≠ [] →
    (s.line l.val).firedAt = none → lineConsumer s l.val = .pat i → pinFunc s i = 1 →
    s.rd .PAT_PIN_CFG_OMODE 0 i = 0 → (s.pin i).pulsing = false → s.rd .POWER_STATUS_DSTATE = 0 →
    ∃ t, exec (.lineFire l) s = .next t ∧ (t.pin i).level = true ∧ (t.pin i).pulsing = true ∧
      (t.pin i).until_ = s.osc + max 1 (s.rd .PAT_PIN_PULSE_PULSE 0 i) + 1) ∧
  (∀ (s : State) (l : Line) (i : Nat), s.dev = .up → lineLive s l.val = true → presentingSlots s l.val ≠ [] →
    (s.line l.val).firedAt = none → lineConsumer s l.val = .pat i → pinFunc s i = 1 →
    s.rd .PAT_PIN_CFG_OMODE 0 i = 1 → s.rd .POWER_STATUS_DSTATE = 0 →
    ∃ t, exec (.lineFire l) s = .next t ∧ (t.pin i).level = !(s.pin i).level) ∧
  (∀ (s : State) (i : Fin 32), s.dev = .up → (s.pin i.val).pulsing = true → (s.pin i.val).until_ ≤ s.osc →
    ∃ t, exec (.patPulseEnd i) s = .next t ∧ (t.pin i.val).level = false ∧ (t.pin i.val).pulsing = false) ∧
  (∀ (s : State) (m : Master) (u : Fin 16), MayWrite s .harness 0 m → s.rd .HARNESS_CAPU_CFG_CLAIMED 0 u.val = 0 →
    ∃ t, exec (.capuClaim m u) s = .next t ∧ t.rd .HARNESS_CAPU_CFG_CLAIMED 0 u.val = 1 ∧
      t.rd .HARNESS_CAPU_CFG_OWNER 0 u.val = m.val) ∧
  (∀ (s : State) (m : Master) (u : Fin 16), MayWrite s .harness 0 m → s.rd .HARNESS_CAPU_CFG_CLAIMED 0 u.val = 1 →
    s.rd .HARNESS_CAPU_CFG_OWNER 0 u.val ≠ m.val →
    ∃ t, exec (.capuClaim m u) s = .next t ∧ t.rd .HARNESS_CAPU_CFG_OWNER 0 u.val = s.rd .HARNESS_CAPU_CFG_OWNER 0 u.val ∧
      Recorded s t .harness 0 errPinBusy m.val) ∧
  (∀ (s : State) (m : Master) (u : Fin 16) (r : CapRecord) (rs : List CapRecord), s.dev = .up →
    accessOk s .harness 0 m.val false = true → s.capu u.val = r :: rs → rs.length < 4 →
    ∃ t, exec (.capuInfoRead m u) s = .next t ∧ t.capu u.val = rs ∧ t.rd .HARNESS_CAPU_CFG_LEVEL 0 u.val = rs.length ∧
      t.readData = leBytes 4 (r.frac + 2 ^ 8 * r.slots + 2 ^ 16 + (if r.pat then 2 ^ 17 else 0)) ∧
      t.rd .HARNESS_CAPU_TIME_LO_C_LO 0 m.val = r.count % 2 ^ 32 ∧
      t.rd .HARNESS_CAPU_TIME_HI_C_HI 0 m.val = r.count / 2 ^ 32 % 2 ^ 32) ∧
  (∀ (s : State) (m : Master) (u : Fin 16), s.dev = .up → accessOk s .harness 0 m.val false = true → s.capu u.val = [] →
    ∃ t, exec (.capuInfoRead m u) s = .next t ∧ t = { s with readData := leBytes 4 0 })

/-- With TEST_EN low, PWRGD samples ADDR and the supply of the xSPI pins; with TEST_EN high it has no effect. The loading of the records
brings the device up with the boot ROM due, marks the channels whose record fails, loads the others, and gives a core whose last-good
trims fail its factory ones. The reference settled, each core holds the wake span; the biased stages are the preferred ones; the
switches close but for a bad record; the wake values are reached. TACK_READY shows benches and Tack ready and, the first time since
power-up, the reference PLL locked in INTERNAL; after a warm reset the PLL stays as it is. READY, with firmware, benches and Tack ready,
raises its event and asks both ports for the interrupt, and trains Quarry if it is not. The fall of PWRGD leaves the device off, the
count at 0, no memory, comparators, CSE or Stitcher state, queues or commits, and each channel's record. (Rests on 06_outputs.md R205,
R215, R216, 13_power_reset_availability.md R390, R393, R394, R395, R410, 11_host_interface.md R329, R346, 09_quarry.md R303.) -/
def Obligations.PowerUp : Prop :=
  (∀ (s : State) (a : BitVec 3) (v : Bool), s.dev = .off → s.testEn = false →
    ∃ t, exec (.powerGoodRise a v) s = .next t ∧ t.dev = .powerup ∧ t.addrPins = a.toNat ∧
      t.rd .XSPI_STATUS_VIO_18 = (if v then 1 else 0)) ∧
  (∀ (s : State) (a : BitVec 3) (v : Bool), s.dev = .off → s.testEn = true → ∃ t, exec (.powerGoodRise a v) s = .next t ∧ t = s) ∧
  (∀ (s : State) (badOut : List (Fin 48)) (badCal : List (Fin 60)), s.dev = .powerup →
    ∃ t, exec (.powerupNvmLoaded badOut badCal) s = .next t ∧ t.dev = .up ∧ t.pwr.step = 1 ∧ t.sec.boot = .due ∧
      (∀ c : Fin 48, badOut.contains c = true → t.rd .OUT_STATUS_NVM_BAD c.val = 1 ∧ t.rd .OUT_NV_WAKE_VAL c.val = 0 ∧
        Raised t .out c.val 8) ∧
      (∀ c : Fin 48, badOut.contains c = false → (s.out c.val).record.bad = false →
        (t.out c.val).wakeVal = (s.out c.val).record.wake % 2 ^ 21 ∧ (t.out c.val).wakeSpan = (s.out c.val).record.wakeSpan % 8) ∧
      (∀ k : Fin 52, (badCal.map Fin.val).contains (8 + k.val) = true →
        lastGood t (k.val / 13) (k.val % 13) = Store.get {} (s.tier (k.val / 13)).factory (k.val % 13))) ∧
  (∀ s : State, s.dev = .up → s.pwr.step = 1 →
    ∃ t, exec .powerupRefSettled s = .next t ∧ t.pwr.step = 2 ∧ ∀ c : Nat, c < 48 →
      t.rd .OUT_STATUS_SPAN_NOW c = (s.out c).wakeSpan % 8 ∧ t.rdEff .OUT_SPANCTL_SPAN c = (s.out c).wakeSpan % 8 ∧
      (t.out c).dac = voltCode (spanNow t c) (s.out c).wakeVal) ∧
  (∀ s : State, s.dev = .up → s.pwr.step = 2 →
    ∃ t, exec .powerupStageBiased s = .next t ∧ t.pwr.step = 3 ∧ ∀ c : Nat, c < 48 →
      t.rd .OUT_STATUS_STAGE c = s.rd .OUT_STAGECTL_PREFER c % 2) ∧
  (∀ s : State, s.dev = .up → s.pwr.step = 3 →
    ∃ t, exec .powerupSwitchClose s = .next t ∧ t.pwr.step = 4 ∧ ∀ c : Nat, c < 48 →
      t.rd .OUT_STATUS_HIGHZ c = (if s.rd .OUT_STATUS_NVM_BAD c = 0 then 0 else s.rd .OUT_STATUS_HIGHZ c)) ∧
  (∀ s : State, s.dev = .up → s.pwr.step = 4 →
    ∃ t, exec .powerupWakeReached s = .next t ∧ t = { s with pwr := { s.pwr with step := 5 } }) ∧
  (∀ s : State, s.dev = .up →
    ∃ t, exec .tackReady s = .next t ∧ t.rd .BENCH_STATUS_READY = 1 ∧ t.rd .TACK_STATUS_READY = 1 ∧
      (s.pllStarted = true → t.rd .TBASE_TB_STATUS_PLL_LOCKED = s.rd .TBASE_TB_STATUS_PLL_LOCKED) ∧
      (s.pllStarted = false → s.rd .TBASE_TB_CFG_REF_MODE = 0 → s.rd .TBASE_TB_STATUS_HOLDOVER = 0 → s.rd .TBASE_TB_STATUS_SLEWING = 0 →
        t.rd .TBASE_TB_STATUS_PLL_LOCKED = 1 ∧ t.rd .TBASE_TB_STATUS_REF_PRESENT = 1)) ∧
  (∀ (s : State) (failed : List (Fin 8)), s.dev = .up → s.rd .SEC_STATUS_BOOT_OK = 1 → s.rd .BENCH_STATUS_READY = 1 →
    s.rd .TACK_STATUS_READY = 1 → s.rd .SYS_STATUS_READY = 0 →
    ∃ t, exec (.ready failed) s = .next t ∧ t.rd .SYS_STATUS_READY = 1 ∧ Raised t .sys 0 0 ∧
      (t.port 0).readyIbi = true ∧ (t.port 1).readyIbi = true ∧ t.qry.trained = true ∧
      (s.qry.trained = false → t.rd .QUARRY_STATUS_READY = 1 ∧ t.rd .QPHY_TSET_CTL_A_VALID = 1)) ∧
  (∀ s : State, s.dev ≠ .off →
    ∃ t, exec .powerGoodFall s = .next t ∧ t.dev = .off ∧ t.now = 0 ∧ t.mem = [] ∧ t.poison = [] ∧ t.lcs = [] ∧ t.cses = [] ∧
      t.stitchers = [] ∧ t.queues = [] ∧ t.commits = [] ∧ t.pending = s.pending ∧
      ∀ c : Nat, c < 48 → (t.out c).record = (s.out c).record)

/-- The RESET_N pin, a soft reset of SYS by masters 0 to 2 and an allowed device reset by RSTACT hold the device in a warm reset and
record their cause. Each clears comparators, CSEs, Stitchers, queues, rings, lines, commits, the claims of comparators, the locks of the
CSE pages and READY, puts Quarry into self-refresh and keeps the count, REF_MODE, the regions and, with no bench test running, memory. A
further one while it is held extends it. A soft reset by another master is refused. A device reset that the port does not allow resets
the port alone. The target reset pattern does what the port's last RSTACT named: nothing, a reset of the port, or an allowed one of the
device. After 10 us, and the exit time of the power state, the reset ends: ADDR is sampled and the boot ROM starts. (Rests on
13_power_reset_availability.md R391, R392, R393, 11_host_interface.md R329, R331, R333, 09_quarry.md R302, 15_register_index.md R415.)
-/
def Obligations.WarmResets : Prop :=
  (∀ s : State, s.dev = .up →
    ∃ t, exec .resetPin s = .next t ∧ t.dev = .warm ∧ t.rd .SYS_RESET_CAUSE_PIN = 1 ∧ WarmHeld s t) ∧
  (∀ s : State, s.dev = .warm →
    ∃ t, exec .resetPin s = .next t ∧ t = { s with pwr := { s.pwr with warmFrom := max s.pwr.warmFrom s.osc } }) ∧
  (∀ (s : State) (m : Master), MayWrite s .sys 0 m → m.val ≤ 2 →
    ∃ t, exec (.sysSoftReset m) s = .next t ∧ t.dev = .warm ∧ t.rd .SYS_RESET_CAUSE_SOFT = 1 ∧ WarmHeld s t) ∧
  (∀ (s : State) (m : Master), s.dev = .up → 2 < m.val →
    ∃ t, exec (.sysSoftReset m) s = .next t ∧ t.dev = .up ∧ Recorded s t .sys 0 errOwnerDenied m.val) ∧
  (∀ (s : State) (j : Fin 2), s.dev = .up → portOn s j.val = true → s.rd .I3C_LINK_CFG_ALLOW_DEV_RESET j.val = 1 →
    ∃ t, exec (.rstactDevice j) s = .next t ∧ t.dev = .warm ∧
      t.rd (if j.val = 0 then .SYS_RESET_CAUSE_RSTACT_A else .SYS_RESET_CAUSE_RSTACT_B) = 1 ∧ WarmHeld s t) ∧
  (∀ (s : State) (j : Fin 2), s.dev = .up → portOn s j.val = true → s.rd .I3C_LINK_CFG_ALLOW_DEV_RESET j.val ≠ 1 →
    ∃ t, exec (.rstactDevice j) s = .next t ∧ t.dev = .up ∧ Raised t .i3c j.val 4 ∧ t.rd .I3C_STATUS_DA_VALID j.val = 0 ∧
      t.rd .I3C_STATUS_TUN_BUSY j.val = 0 ∧ (t.port j.val).memLast = false ∧ t.lcs = s.lcs ∧ t.queues = s.queues ∧ t.mem = s.mem) ∧
  (∀ (s : State) (j : Fin 2), s.dev = .up → portOn s j.val = true → (s.port j.val).rstByte = 2 →
    s.rd .I3C_LINK_CFG_ALLOW_DEV_RESET j.val = 1 →
    ∃ t, exec (.targetResetPattern j) s = .next t ∧ t.dev = .warm ∧ WarmHeld s t) ∧
  (∀ (s : State) (j : Fin 2), s.dev = .up → portOn s j.val = true → (s.port j.val).rstByte = 1 →
    ∃ t, exec (.targetResetPattern j) s = .next t ∧ t.dev = .up ∧ Raised t .i3c j.val 4 ∧ t.rd .I3C_STATUS_DA_VALID j.val = 0 ∧
      t.rd .I3C_STATUS_TUN_BUSY j.val = 0) ∧
  (∀ (s : State) (j : Fin 2), s.dev = .up → portOn s j.val = true → (s.port j.val).rstByte = 0 →
    ∃ t, exec (.targetResetPattern j) s = .next t ∧ t = s) ∧
  (∀ (s : State) (a : BitVec 3), s.dev = .warm → s.pwr.warmFrom + 4000 ≤ s.osc →
    ∃ t, exec (.warmResetEnd a) s = .next t ∧ t.dev = .up ∧ t.addrPins = a.toNat ∧ t.sec.boot = .due ∧
      t.rd .QUARRY_STATUS_SELF_REFRESH = 0 ∧ t.rd .QUARRY_STATUS_READY = (if s.qry.trained then 1 else 0))

/-- A device that has been quiet for the entry idle time starts to enter its target state. The entry, but one to D2 or below with a
Quarry request at urgency 3, takes effect: the state is in force, every quad clock stands, Quarry rests in self-refresh from D2 on, and
D_ENTER is raised. A wake of a class below D0, or during an entry, begins the exit and records the class and the state; so does the time
wake for a comparator that comes near. The exit puts D0 in force, resumes the suspended clocks, delivers the held events, takes Quarry
out of self-refresh, records its time and raises D_EXIT. (Rests on 13_power_reset_availability.md R398, R399, R400, R401, R402, R403,
02_timebase_sync.md R57, 09_quarry.md R301.) -/
def Obligations.PowerStates : Prop :=
  (∀ s : State, s.dev = .up → s.rd .POWER_STATUS_DSTATE = 0 → s.rd .POWER_STATUS_ENTERING = 0 → s.rd .POWER_STATUS_EXITING = 0 →
    quietBlock s = 0 → idleOver s = true → targetState s ≠ 0 →
    ∃ t, exec .powerStateEntry s = .next t ∧ t.rd .POWER_STATUS_ENTERING = 1 ∧ t.rd .POWER_STATUS_TARGET = targetState s) ∧
  (∀ s : State, s.dev = .up → s.rd .POWER_STATUS_ENTERING = 1 → s.rd .POWER_STATUS_TARGET ≤ 4 →
    s.rd .POWER_STATUS_TARGET < 2 ∨ anyUrgent s 3 = false →
    ∃ t, exec .dEnter s = .next t ∧ t.rd .POWER_STATUS_DSTATE = s.rd .POWER_STATUS_TARGET ∧ t.rd .POWER_STATUS_ENTERING = 0 ∧
      (∀ q : Nat, q < 12 → (t.clock q).running = false) ∧ Raised t .power 0 12 ∧
      (2 ≤ s.rd .POWER_STATUS_TARGET → t.rd .QUARRY_STATUS_SELF_REFRESH = 1)) ∧
  (∀ (s : State) (cls : Fin 6), s.dev = .up → cls.val ≠ 0 → cls.val ≠ 4 → s.rd .POWER_STATUS_EXITING = 0 →
    s.rd .POWER_STATUS_ENTERING = 1 ∨ s.rd .POWER_STATUS_DSTATE ≠ 0 → s.rd .POWER_STATUS_DSTATE ≤ 4 → s.rd .POWER_STATUS_TARGET ≤ 4 →
    ∃ t, exec (.wake cls) s = .next t ∧ t.rd .POWER_STATUS_EXITING = 1 ∧ t.rd .POWER_WAKE_STAT_CLASS = cls.val ∧
      t.rd .POWER_WAKE_STAT_FROM =
        (if s.rd .POWER_STATUS_ENTERING = 1 then s.rd .POWER_STATUS_TARGET else s.rd .POWER_STATUS_DSTATE)) ∧
  (∀ s : State, s.dev = .up → s.rd .POWER_STATUS_EXITING = 0 → s.rd .POWER_STATUS_DSTATE ≠ 0 → timeWakeDue s = true →
    ∃ t, exec .powerTimeWake s = .next t ∧ t.rd .POWER_STATUS_EXITING = 1 ∧ t.rd .POWER_WAKE_STAT_CLASS = 4) ∧
  (∀ s : State, s.dev = .up → s.rd .POWER_STATUS_EXITING = 1 →
    ∃ t, exec .dExit s = .next t ∧ t.rd .POWER_STATUS_DSTATE = 0 ∧ t.rd .POWER_STATUS_EXITING = 0 ∧ Raised t .power 0 13 ∧
      t.rd .POWER_WAKE_STAT_EXIT_US = min 0xFFFF ((s.osc - s.pwr.phaseFrom) / 400) ∧
      (∀ q : Nat, q < 12 → (t.clock q).dark = false) ∧ (∀ l : Nat, l < 128 → (t.line l).held = none) ∧
      (2 ≤ s.rd .POWER_STATUS_DSTATE → t.rd .QUARRY_STATUS_SELF_REFRESH = 0))

/-- A sample gives TJ; a reading at or above TWARN, TLIM or TCRIT sets that status and raises its event where it was clear; one 5
degrees below clears it. A rise of TCRIT with CRIT_ACT sets FORCE on every enabled channel. A monitor sample shows which rails and PAT
banks are in range and the core voltage; a rail that leaves its range is marked and raises RAIL_FAULT. A pace window of a quad with a
demand shows its ratio, and below 1.15 warns. The life counts are saved 24 h after the last save. (Rests on
13_power_reset_availability.md R389, R404, R405, R410, R427, 08_harness.md R263, 01_architecture.md R20.) -/
def Obligations.PowerMonitors : Prop :=
  (∀ (s : State) (tj : BitVec 12), s.dev = .up →
    ∃ t, exec (.thermalSample tj) s = .next t ∧ t.rd .POWER_THERM_STAT_TJ = tj.toNat ∧
      ((4 * s.rd .POWER_THERM_CFG_TWARN : Nat) ≤ signed 12 tj.toNat → t.rd .POWER_STATUS_THERM_WARN = 1 ∧
        (s.rd .POWER_STATUS_THERM_WARN = 0 → Raised t .power 0 14)) ∧
      (signed 12 tj.toNat ≤ (4 * s.rd .POWER_THERM_CFG_TWARN : Nat) - (20 : Int) → t.rd .POWER_STATUS_THERM_WARN = 0) ∧
      ((4 * s.rd .POWER_THERM_CFG_TLIM : Nat) ≤ signed 12 tj.toNat → t.rd .POWER_STATUS_THERMAL_LIMIT = 1 ∧
        (s.rd .POWER_STATUS_THERMAL_LIMIT = 0 → Raised t .power 0 15)) ∧
      (signed 12 tj.toNat ≤ (4 * s.rd .POWER_THERM_CFG_TLIM : Nat) - (20 : Int) → t.rd .POWER_STATUS_THERMAL_LIMIT = 0) ∧
      ((4 * s.rd .POWER_THERM_CFG_TCRIT : Nat) ≤ signed 12 tj.toNat → t.rd .POWER_STATUS_THERM_CRIT = 1 ∧
        (s.rd .POWER_STATUS_THERM_CRIT = 0 → Raised t .power 0 16)) ∧
      (signed 12 tj.toNat ≤ (4 * s.rd .POWER_THERM_CFG_TCRIT : Nat) - (20 : Int) → t.rd .POWER_STATUS_THERM_CRIT = 0)) ∧
  (∀ (s : State) (tj : BitVec 12), s.dev = .up → (4 * s.rd .POWER_THERM_CFG_TCRIT : Nat) ≤ signed 12 tj.toNat →
    s.rd .POWER_STATUS_THERM_CRIT = 0 → s.rd .POWER_THERM_CFG_CRIT_ACT = 1 →
    ∃ t, exec (.thermalSample tj) s = .next t ∧ ∀ c : Nat, c < 48 → outEnabled s c = true → t.rd .OUT_FAULT_CTL_FORCE c = 1) ∧
  (∀ (s : State) (ok : BitVec 13) (mv : BitVec 12) (high : BitVec 6), s.dev = .up →
    ∃ t, exec (.railMonitorSample ok mv high) s = .next t ∧ t.rd .POWER_VCORE_MV_MV = mv.toNat ∧
      (∀ r : Nat, r < 13 → t.rd .POWER_RAIL_STAT_IN_RANGE 0 0 r = (if ok.toNat.testBit r then 1 else 0) ∧
        (s.rd .POWER_RAIL_STAT_IN_RANGE 0 0 r = 1 → ok.toNat.testBit r = false →
          t.rd .POWER_RAIL_FAULT_LEFT 0 0 r = 1 ∧ Raised t .power 0 17)) ∧
      (∀ k : Nat, k < 4 → t.rd .PAT_STATUS_BANK_OK 0 0 k = (if ok.toNat.testBit (6 + k) then 1 else 0))) ∧
  (∀ (s : State) (q : Quad) (r : Word), s.dev = .up → hasDemand s q.val = true →
    ∃ t, exec (.paceWindowEnd q r) s = .next t ∧ t.rd .POWER_PACE_RATIO 0 q.val = min 0xFFFF (r.toNat / 2 ^ 16) ∧
      (100 * r.toNat < 115 * 2 ^ 24 → t.rd .POWER_PACE_WARN_QUAD 0 0 q.val = 1 ∧ Raised t .power 0 q.val)) ∧
  (∀ s : State, s.dev = .up → s.pwr.lifeFrom + 24 * 3600 * Config.ticksPerSecond ≤ s.osc →
    ∃ t, exec .lifeCountSave s = .next t ∧ t.pwr.lifeSaved = lifeCounts s ∧ t.pwr.lifeFrom = s.osc)

/-- With no cell error, an aligned, allowed access that no wake and no earlier access of its master holds up is served. A read answers
the bytes, to the management core free values within the Tack pool (log entry 16), and leaves memory alone. A write to words that are
not poisoned stores its data and no other byte; a whole aligned word of an online bench loses its poison mark, and part of a poisoned
word changes nothing and records POISON; one with the poison mark, of a master that copies marks, leaves its first byte's word poisoned.
Two writes of one array cycle without a poisoned word store the port A bytes where they meet, and a lane that this changes counts, sets
the streamer's COLL_STAT bit and raises COLLISION. An alias write of a word that is not poisoned sets or clears exactly the bits given,
keeps the prior word for the writer with VALID, and leaves every other byte; of a poisoned word it changes no byte and records POISON.
An access that is not aligned or not allowed is refused with REGION_DENIED, a read with zeros. An access to a bench in retention, or
behind one of its master that waits, is held and changes no byte; the wake serves a read held alone. A word that turns out uncorrectable
in a read is poisoned, with its offset in UE_ADDR, the count and UE. (Rests on 10_benches.md R305, R306, R307, R309, R310, R311, R312,
R315, R316, R318.) -/
def Obligations.BenchAccesses : Prop :=
  (∀ (s : State) (m : Master) (off : BitVec 22) (len : Fin 65) (x : BenchAccess), s.dev = .up → CleanCells s → 0 < len.val →
    off.toNat + len.val ≤ benchSize →
    x = { master := m.val, kind := 0, off := off.toNat, len := len.val, data := [], mark := false, other := none } →
    BenchAllows s x → AtOnce s x →
    ∃ t, exec (.benchAccess m false off len [] false none [] []) s = .next t ∧
      t.readData = s.bytesFor m.val (benchBase + off.toNat) len.val ∧ t.mem = s.mem) ∧
  (∀ (s : State) (m : Master) (off : BitVec 22) (data : List Byte) (mark : Bool) (x : BenchAccess), s.dev = .up → CleanCells s →
    0 < data.length → off.toNat + data.length ≤ benchSize → mark = false ∨ writesMarks m.val = false →
    x = { master := m.val, kind := 1, off := off.toNat, len := data.length, data := data, mark := mark, other := none } →
    BenchAllows s x → AtOnce s x → s.anyPoison (benchBase + off.toNat) data.length = false →
    ∃ t, exec (.benchAccess m true off 0 data mark none [] []) s = .next t ∧
      t.bytes (benchBase + off.toNat) data.length = data ∧ t.anyPoison (benchBase + off.toNat) data.length = false ∧
      ∀ b : Nat, b < benchBase + off.toNat ∨ benchBase + off.toNat + data.length ≤ b → t.byte b = s.byte b) ∧
  (∀ (s : State) (m : Master) (off : BitVec 22) (data : List Byte) (x : BenchAccess), s.dev = .up → CleanCells s →
    data.length ≤ 4 → off.toNat / 4 = (off.toNat + data.length - 1) / 4 → off.toNat + data.length ≤ benchSize →
    x = { master := m.val, kind := 1, off := off.toNat, len := data.length, data := data, mark := false, other := none } →
    BenchAllows s x → AtOnce s x → s.poisoned (benchBase + off.toNat) = true → s.offline (benchBase + off.toNat) = false →
    ∃ t, exec (.benchAccess m true off 0 data false none [] []) s = .next t ∧
      (if data.length = 4 then t.bytes (benchBase + off.toNat) 4 = data ∧ t.poisoned (benchBase + off.toNat) = false
       else t.mem = s.mem ∧ t.poisoned (benchBase + off.toNat) = true ∧ Recorded s t .bench 0 errPoison m.val)) ∧
  (∀ (s : State) (m : Master) (off : BitVec 22) (data : List Byte) (x : BenchAccess), s.dev = .up → CleanCells s → 0 < data.length →
    off.toNat + data.length ≤ benchSize → writesMarks m.val = true →
    x = { master := m.val, kind := 1, off := off.toNat, len := data.length, data := data, mark := true, other := none } →
    BenchAllows s x → AtOnce s x →
    ∃ t, exec (.benchAccess m true off 0 data true none [] []) s = .next t ∧ t.poisoned (benchBase + off.toNat) = true ∧
      (s.anyPoison (benchBase + off.toNat) data.length = false → t.bytes (benchBase + off.toNat) data.length = data)) ∧
  (∀ (s : State) (m n : Master) (off off' : BitVec 22) (data data' : List Byte) (x y : BenchAccess), s.dev = .up → CleanCells s →
    0 < data.length → 0 < data'.length → off.toNat + data.length ≤ benchSize →
    x = { master := m.val, kind := 1, off := off.toNat, len := data.length, data := data, mark := false,
          other := some (n.val, 1, off'.toNat, data') } →
    y = { master := n.val, kind := 1, off := off'.toNat, len := data'.length, data := data', mark := false, other := none } →
    portB x = true → portB y = false → BenchAllows s x → AtOnce s x → BenchAllows s y →
    s.anyPoison (benchBase + off.toNat) data.length = false → s.anyPoison (benchBase + off'.toNat) data'.length = false →
    ∃ t, exec (.benchAccess m true off 0 data false (some (n, 1, off', data')) [] []) s = .next t ∧
      t.bytes (benchBase + off'.toNat) data'.length = data' ∧
      (∀ i : Nat, i < data.length → off.toNat + i < off'.toNat ∨ off'.toNat + data'.length ≤ off.toNat + i →
        t.byte (benchBase + off.toNat + i) = data.getD i 0) ∧
      (∀ b : Nat, (b < benchBase + off.toNat ∨ benchBase + off.toNat + data.length ≤ b) →
        (b < benchBase + off'.toNat ∨ benchBase + off'.toNat + data'.length ≤ b) → t.byte b = s.byte b) ∧
      (if lostLanes off.toNat data off'.toNat data' = [] then t.rd .BENCH_COLL_CNT_COUNT = s.rd .BENCH_COLL_CNT_COUNT
       else t.rd .BENCH_COLL_CNT_COUNT = satAdd (Reg.width .BENCH_COLL_CNT_COUNT) (s.rd .BENCH_COLL_CNT_COUNT) 1 ∧
         t.rd .BENCH_COLL_STAT_STREAMER 0 0 (m.val - 20) = 1 ∧ Raised t .bench 0 6)) ∧
  (∀ (s : State) (m : Master) (off : BitVec 22) (data : List Byte) (mark : Bool) (x : BenchAccess), s.dev = .up → 0 < data.length →
    off.toNat + data.length ≤ benchSize →
    x = { master := m.val, kind := 1, off := off.toNat, len := data.length, data := data, mark := mark, other := none } → ¬BenchAllows s x →
    ∃ t, exec (.benchAccess m true off 0 data mark none [] []) s = .next t ∧ t.mem = s.mem ∧ Recorded s t .bench 0 errRegionDenied m.val) ∧
  (∀ (s : State) (m : Master) (off : BitVec 22) (len : Fin 65) (x : BenchAccess), s.dev = .up → 0 < len.val →
    off.toNat + len.val ≤ benchSize →
    x = { master := m.val, kind := 0, off := off.toNat, len := len.val, data := [], mark := false, other := none } → ¬BenchAllows s x →
    ∃ t, exec (.benchAccess m false off len [] false none [] []) s = .next t ∧ t.mem = s.mem ∧
      t.readData = List.replicate len.val 0 ∧ Recorded s t .bench 0 errRegionDenied m.val) ∧
  (∀ (s : State) (m : Master) (clear : Bool) (off : BitVec 22) (data : List Byte) (x : BenchAccess), s.dev = .up →
    0 < data.length → off.toNat + data.length ≤ benchSize →
    x = { master := m.val, kind := if clear then 3 else 2, off := off.toNat, len := data.length, data, mark := false, other := none } →
    ¬BenchAllows s x →
    ∃ t, exec (.benchAliasWrite m clear off data) s = .next t ∧ t.mem = s.mem ∧ Recorded s t .bench 0 errRegionDenied m.val) ∧
  (∀ (s : State) (m : Master) (clear : Bool) (off : BitVec 22) (data : List Byte) (x : BenchAccess), s.dev = .up → CleanCells s →
    off.toNat + data.length ≤ benchSize →
    x = { master := m.val, kind := if clear then 3 else 2, off := off.toNat, len := data.length, data, mark := false, other := none } →
    BenchAllows s x → AtOnce s x → s.poisoned (benchBase + off.toNat) = false →
    ∃ t, exec (.benchAliasWrite m clear off data) s = .next t ∧
      (∀ i : Nat, i < data.length → t.byte (benchBase + off.toNat + i) =
        (if clear then s.byte (benchBase + off.toNat + i) &&& ~~~(data.getD i 0)
         else s.byte (benchBase + off.toNat + i) ||| data.getD i 0)) ∧
      t.rd .BENCH_ALIAS_LAST_PRIOR 0 m.val = s.leAt ((benchBase + off.toNat) / 4 * 4) 4 ∧
      t.rd .BENCH_ALIAS_STAT_VALID 0 m.val = 1 ∧ t.rd .BENCH_ALIAS_STAT_POISON 0 m.val = 0 ∧
      ∀ b : Nat, b < benchBase + off.toNat ∨ benchBase + off.toNat + data.length ≤ b → t.byte b = s.byte b) ∧
  (∀ (s : State) (m : Master) (clear : Bool) (off : BitVec 22) (data : List Byte) (x : BenchAccess), s.dev = .up → CleanCells s →
    off.toNat + data.length ≤ benchSize →
    x = { master := m.val, kind := if clear then 3 else 2, off := off.toNat, len := data.length, data, mark := false, other := none } →
    BenchAllows s x → AtOnce s x → s.poisoned (benchBase + off.toNat) = true →
    ∃ t, exec (.benchAliasWrite m clear off data) s = .next t ∧ t.mem = s.mem ∧ t.rd .BENCH_ALIAS_STAT_POISON 0 m.val = 1 ∧
      Recorded s t .bench 0 errPoison m.val) ∧
  (∀ (s : State) (m : Master) (off : BitVec 22) (len : Fin 65) (x : BenchAccess), s.dev = .up → 0 < len.val →
    off.toNat + len.val ≤ benchSize →
    x = { master := m.val, kind := 0, off := off.toNat, len := len.val, data := [], mark := false, other := none } →
    BenchAllows s x → ¬AtOnce s x → meetsState s x 3 = false →
    ∃ t, exec (.benchAccess m false off len [] false none [] []) s = .next t ∧ t.ben.held = s.ben.held ++ [x] ∧ t.mem = s.mem ∧
      t.readData = s.readData) ∧
  (∀ (s : State) (m : Master) (off : BitVec 22) (data : List Byte) (mark : Bool) (x : BenchAccess), s.dev = .up → 0 < data.length →
    off.toNat + data.length ≤ benchSize →
    x = { master := m.val, kind := 1, off := off.toNat, len := data.length, data := data, mark := mark, other := none } →
    BenchAllows s x → ¬AtOnce s x → meetsState s x 3 = false →
    ∃ t, exec (.benchAccess m true off 0 data mark none [] []) s = .next t ∧ t.ben.held = s.ben.held ++ [x] ∧ t.mem = s.mem) ∧
  (∀ (s : State) (m : Master) (clear : Bool) (off : BitVec 22) (data : List Byte) (x : BenchAccess), s.dev = .up →
    off.toNat + data.length ≤ benchSize →
    x = { master := m.val, kind := if clear then 3 else 2, off := off.toNat, len := data.length, data, mark := false, other := none } →
    BenchAllows s x → ¬AtOnce s x → meetsState s x 3 = false →
    ∃ t, exec (.benchAliasWrite m clear off data) s = .next t ∧ t.ben.held = s.ben.held ++ [x] ∧ t.mem = s.mem) ∧
  (∀ (s : State) (b : Fin 16) (x : BenchAccess), s.dev = .up → CleanCells s → benchState s b.val ≠ 0 → benchState s b.val ≠ 3 →
    s.ben.held = [x] → s.qry.waiting.any (fun y => y.master == x.master) = false →
    x.kind = 0 → 0 < x.len → x.off + x.len ≤ benchSize → x.off / 0x40000 = b.val → (x.off + x.len - 1) / 0x40000 = b.val →
    ∃ t, exec (.benchWake b) s = .next t ∧ benchState t b.val = 0 ∧ t.ben.held = [] ∧ t.mem = s.mem ∧
      t.readData = s.bytesFor x.master (benchBase + x.off) x.len) ∧
  (∀ (s : State) (m : Master) (off : BitVec 22) (len : Fin 65) (x : BenchAccess), s.dev = .up → CleanCells s → 0 < len.val →
    off.toNat + len.val ≤ benchSize → off.toNat % 4 + len.val ≤ 4 →
    x = { master := m.val, kind := 0, off := off.toNat, len := len.val, data := [], mark := false, other := none } →
    BenchAllows s x → AtOnce s x → s.poisoned (benchBase + off.toNat) = false →
    ∃ t, exec (.benchAccess m false off len [] false none [] [off]) s = .next t ∧ t.mem = s.mem ∧
      t.poisoned (benchBase + off.toNat) = true ∧ t.rd .BENCH_UE_ADDR_OFFSET = off.toNat / 4 * 4 ∧
      t.rd .BENCH_ECC_CNT_UE = satAdd (Reg.width .BENCH_ECC_CNT_UE) (s.rd .BENCH_ECC_CNT_UE) 1 ∧ Raised t .bench 0 1)

/-- The scrub of a word without error, of a poisoned word, or of a bench that is offline, not ON or under the thermal limit changes
nothing; of an error that the code corrects it mends the word and counts; of one that it cannot it poisons the word, keeps its address,
counts it and raises UE. A port timeout of a healthy bench fails it and raises BENCH_FAIL, and with the spare taken puts it offline; one
of the spare puts its covered bench offline; one of a bench that has failed changes nothing. An idle bench under AUTO takes its state of
R317. A mode write gives each bench the mode asked for, a bench that leaves service losing its contents, unless OFF is refused, when it
keeps mode and state; masters above 2 are refused. The wake of a bench that holds no access leaves memory alone; a bench whose mode is
no longer OFF comes back ON in D0 and D1. (Rests on 10_benches.md R306, R308, R314, R317, R318, R319, R323, R325.) -/
def Obligations.BenchHealthAndPower : Prop :=
  (∀ (s : State) (off : BitVec 22) (r : Fin 3), s.dev = .up →
    max (Store.get 0 s.ben.flaws (off.toNat / 4)) r.val = 0 ∨ benchState s (off.toNat / 0x40000) ≠ 0 ∨
      benchHealth s (off.toNat / 0x40000) = 3 ∨ thermalLimit s = true →
    exec (.benchScrub off r) s = .next s) ∧
  (∀ (s : State) (off : BitVec 22), s.dev = .up → s.poisoned (benchBase + off.toNat) = true →
    exec (.benchScrub off 0) s = .next s) ∧
  (∀ (s : State) (off : BitVec 22) (r : Fin 3), s.dev = .up → max (Store.get 0 s.ben.flaws (off.toNat / 4)) r.val = 1 →
    s.poisoned (benchBase + off.toNat) = false → benchState s (off.toNat / 0x40000) = 0 → benchHealth s (off.toNat / 0x40000) ≠ 3 →
    thermalLimit s = false →
    ∃ t, exec (.benchScrub off r) s = .next t ∧ t.mem = s.mem ∧ Store.get 0 t.ben.flaws (off.toNat / 4) = 0 ∧
      t.rd .BENCH_ECC_CNT_CE = satAdd (Reg.width .BENCH_ECC_CNT_CE) (s.rd .BENCH_ECC_CNT_CE) 1) ∧
  (∀ (s : State) (off : BitVec 22) (r : Fin 3), s.dev = .up → 2 ≤ max (Store.get 0 s.ben.flaws (off.toNat / 4)) r.val →
    s.poisoned (benchBase + off.toNat) = false → benchState s (off.toNat / 0x40000) = 0 → benchHealth s (off.toNat / 0x40000) ≠ 3 →
    thermalLimit s = false →
    ∃ t, exec (.benchScrub off r) s = .next t ∧ t.mem = s.mem ∧ t.poisoned (benchBase + off.toNat) = true ∧
      t.rd .BENCH_UE_ADDR_OFFSET = off.toNat / 4 * 4 ∧
      t.rd .BENCH_ECC_CNT_UE = satAdd (Reg.width .BENCH_ECC_CNT_UE) (s.rd .BENCH_ECC_CNT_UE) 1 ∧ Raised t .bench 0 1) ∧
  (∀ (s : State) (b : Fin 17), s.dev = .up → b.val < 16 → benchHealth s b.val = 0 →
    ∃ t, exec (.benchPortTimeout b) s = .next t ∧ benchHealth t b.val = (if spareTaken s b.val then 3 else 1) ∧
      Raised t .bench 0 2 ∧ (spareTaken s b.val = true → Raised t .bench 0 5)) ∧
  (∀ (s : State) (b : Fin 17), s.dev = .up → b.val < 16 → benchHealth s b.val ≠ 0 → exec (.benchPortTimeout b) s = .next s) ∧
  (∀ s : State, s.dev = .up → spareBench s < 16 → benchHealth s (spareBench s) ≠ 3 →
    ∃ t, exec (.benchPortTimeout 16) s = .next t ∧ benchHealth t (spareBench s) = 3 ∧ Raised t .bench 0 5) ∧
  (∀ (s : State) (b : Fin 16), s.dev = .up → benchMode s b.val = 1 → benchState s b.val = 0 →
    benchRest s b.val = 1 ∨ benchRest s b.val = 2 →
    ∃ t, exec (.benchAutoRetention b) s = .next t ∧ benchState t b.val = benchRest s b.val ∧ t.mem = s.mem) ∧
  (∀ (s : State) (m : Master) (v : Word), MayWrite s .bench 0 m → m.val ≤ 2 →
    ∃ t, exec (.benchModeWrite m v) s = .next t ∧ ∀ b : Nat, b < 16 →
      (bits v.toNat (2 * b + 1) (2 * b) ≠ 2 → benchMode t b = bits v.toNat (2 * b + 1) (2 * b)) ∧
      (bits v.toNat (2 * b + 1) (2 * b) = 2 → benchMode s b ≠ 2 → offRefused s b = false →
        benchMode t b = 2 ∧ benchState t b = 3 ∧ ∀ d : Nat, d < 0x40000 → t.byte (benchBase + 0x40000 * b + d) = 0) ∧
      (bits v.toNat (2 * b + 1) (2 * b) = 2 → benchMode s b ≠ 2 → offRefused s b = true →
        benchMode t b = benchMode s b ∧ benchState t b = benchState s b) ∧
      (bits v.toNat (2 * b + 1) (2 * b) = 2 → benchMode s b = 2 → benchMode t b = 2)) ∧
  (∀ (s : State) (m : Master) (v : Word), s.dev = .up → 2 < m.val →
    ∃ t, exec (.benchModeWrite m v) s = .next t ∧ Recorded s t .bench 0 errOwnerDenied m.val ∧ t.mem = s.mem ∧
      ∀ b : Nat, b < 16 → benchMode t b = benchMode s b) ∧
  (∀ (s : State) (b : Fin 16), s.dev = .up → benchState s b.val ≠ 0 → benchState s b.val ≠ 3 → benchRest s b.val = 0 → s.ben.held = [] →
    ∃ t, exec (.benchWake b) s = .next t ∧ benchState t b.val = 0 ∧ t.mem = s.mem) ∧
  (∀ (s : State) (b : Fin 16), s.dev = .up → benchState s b.val = 3 → benchMode s b.val ≠ 2 → s.rd .POWER_STATUS_DSTATE < 2 →
    ∃ t, exec (.benchWake b) s = .next t ∧ benchState t b.val = 0 ∧ t.mem = s.mem)

/-- A test of a range of a healthy bench with the spare free takes the spare, clears the results and starts its copy; without a free
spare it is refused with SPARE_IN_USE. The copy done, the range is redirected and tested; a clean test goes on to the restore, which
frees the spare and, unless it was aborted, reports PASS and BIST_DONE, or starts a replacement that waits; a failing one reports its
number of failing words, its first, FAIL and BIST_DONE, and goes on to the replacement if asked. An abort ends the copy at once and a
running test by its restore. Firmware alone may ask for a replacement, which waits for the restore of an aborted test of another bench
where its own has failed; done, the bench is served by the spare for good, and its words that could not be read are poisoned. (Rests on
10_benches.md R320, R321, R322, R324, R326.) -/
def Obligations.BenchTests : Prop :=
  (∀ (s : State) (m : Master) (b : Fin 32) (auto : Bool), MayWrite s .bench 0 m → m.val ≤ 2 → s.rd .BENCH_STATUS_SPARE_FREE ≠ 0 →
    s.rd .BENCH_STATUS_BIST_BUSY ≠ 1 → b.val < 16 → s.rd .BENCH_BIST_RANGE_FIRST ≤ s.rd .BENCH_BIST_RANGE_LAST →
    benchState s b.val ≠ 3 → benchHealth s b.val < 2 →
    ∃ t, exec (.bistStart m b auto) s = .next t ∧ bistPhase t = 1 ∧ t.rd .BENCH_STATUS_BIST_BUSY = 1 ∧
      t.rd .BENCH_STATUS_SPARE_FREE = 0 ∧ t.ben.bist = b.val ∧ t.ben.first = s.rd .BENCH_BIST_RANGE_FIRST ∧
      t.ben.stop = s.rd .BENCH_BIST_RANGE_LAST ∧ t.rd .BENCH_BIST_CTL_AUTO_REPLACE = (if auto then 1 else 0) ∧
      t.rd .BENCH_BIST_STAT_PASS = 0 ∧ t.rd .BENCH_BIST_STAT_FAIL = 0 ∧ t.rd .BENCH_BIST_STAT_FAIL_WORDS = 0) ∧
  (∀ (s : State) (m : Master) (b : Fin 32) (auto : Bool), MayWrite s .bench 0 m → m.val ≤ 2 → s.rd .BENCH_STATUS_SPARE_FREE = 0 →
    ∃ t, exec (.bistStart m b auto) s = .next t ∧ bistPhase t = bistPhase s ∧ Recorded s t .bench 0 errSpareInUse m.val) ∧
  (∀ s : State, s.dev = .up → bistPhase s = 1 → ∃ t, exec .bistCopyDone s = .next t ∧ bistPhase t = 2) ∧
  (∀ s : State, s.dev = .up → bistPhase s = 2 → ∃ t, exec (.bistTestDone []) s = .next t ∧ bistPhase t = 3) ∧
  (∀ (s : State) (f : BitVec 22) (fs : List (BitVec 22)), s.dev = .up → bistPhase s = 2 → s.ben.bist < 16 →
    ∃ t, exec (.bistTestDone (f :: fs)) s = .next t ∧ t.rd .BENCH_BIST_STAT_FAIL = 1 ∧
      t.rd .BENCH_BIST_STAT_FAIL_WORDS = min 255 (fs.length + 1) ∧ t.rd .BENCH_BIST_FAIL_ADDR_OFFSET = f.toNat ∧ Raised t .bench 0 3 ∧
      (if s.rd .BENCH_BIST_CTL_AUTO_REPLACE = 1 then bistPhase t = 4 ∧ t.rd .BENCH_STATUS_REPLACING = 1
       else bistPhase t = 5 ∧ t.rd .BENCH_STATUS_BIST_BUSY = 0)) ∧
  (∀ s : State, s.dev = .up → bistPhase s = 3 → s.ben.next = none →
    ∃ t, exec .bistRestoreDone s = .next t ∧ bistPhase t = 0 ∧ t.rd .BENCH_STATUS_BIST_BUSY = 0 ∧ t.rd .BENCH_STATUS_SPARE_FREE = 1 ∧
      (if s.ben.aborted then t.rd .BENCH_BIST_STAT_PASS = s.rd .BENCH_BIST_STAT_PASS
       else t.rd .BENCH_BIST_STAT_PASS = 1 ∧ Raised t .bench 0 3)) ∧
  (∀ (s : State) (b : Nat), s.dev = .up → bistPhase s = 3 → s.ben.next = some b →
    ∃ t, exec .bistRestoreDone s = .next t ∧ bistPhase t = 4 ∧ t.ben.bist = b ∧ t.ben.next = none ∧
      t.rd .BENCH_STATUS_REPLACING = 1 ∧ t.rd .BENCH_STATUS_BIST_BUSY = 1 ∧ t.rd .BENCH_STATUS_SPARE_FREE = 0) ∧
  (∀ (s : State) (m : Master), MayWrite s .bench 0 m → m.val ≤ 2 → bistPhase s = 1 →
    ∃ t, exec (.bistAbort m) s = .next t ∧ bistPhase t = 0 ∧ t.rd .BENCH_STATUS_BIST_BUSY = 0 ∧ t.rd .BENCH_STATUS_SPARE_FREE = 1) ∧
  (∀ (s : State) (m : Master), MayWrite s .bench 0 m → m.val ≤ 2 → bistPhase s = 2 →
    ∃ t, exec (.bistAbort m) s = .next t ∧ bistPhase t = 3 ∧ t.ben.aborted = true) ∧
  (∀ (s : State) (b : Fin 32), MayWrite s .bench 0 2 → b.val < 16 → spareTaken s b.val = false → bistPhase s ≠ 4 →
    bistPhase s = 0 ∨ 3 < bistPhase s ∨ s.ben.bist = b.val → benchState s b.val ≠ 3 → benchHealth s b.val < 2 →
    s.rd .BENCH_BIST_CTL_AUTO_REPLACE < 2 →
    ∃ t, exec (.benchReplace 2 b) s = .next t ∧ bistPhase t = 4 ∧ t.ben.bist = b.val ∧ t.rd .BENCH_STATUS_REPLACING = 1 ∧
      t.rd .BENCH_STATUS_BIST_BUSY = 1 ∧ t.rd .BENCH_STATUS_SPARE_FREE = 0) ∧
  (∀ (s : State) (b : Fin 32), MayWrite s .bench 0 2 → b.val < 16 → bistPhase s = 3 → s.ben.aborted = true → s.ben.bist ≠ b.val →
    benchHealth s b.val = 1 → s.ben.next = none → s.rd .BENCH_BIST_CTL_AUTO_REPLACE < 2 →
    ∃ t, exec (.benchReplace 2 b) s = .next t ∧ bistPhase t = 3 ∧ t.ben.next = some b.val) ∧
  (∀ (s : State) (m : Master) (b : Fin 32), MayWrite s .bench 0 m → m.val ≠ 2 →
    ∃ t, exec (.benchReplace m b) s = .next t ∧ bistPhase t = bistPhase s ∧ Recorded s t .bench 0 errOwnerDenied m.val) ∧
  (∀ (s : State) (bad : List (BitVec 18)), s.dev = .up → bistPhase s = 4 → s.ben.bist < 16 →
    ∃ t, exec (.benchReplaceDone bad) s = .next t ∧ bistPhase t = 0 ∧ benchHealth t s.ben.bist = 2 ∧ spareBench t = s.ben.bist ∧
      t.rd .BENCH_STATUS_REPLACING = 0 ∧ t.rd .BENCH_STATUS_BIST_BUSY = 0 ∧ Raised t .bench 0 4 ∧ t.mem = s.mem ∧
      ∀ o ∈ bad, t.poisoned (benchBase + s.ben.bist * 0x40000 + o.toNat) = true)

/-- ENEC and DISEC switch the interrupts if their ENINT bit is set; ENTAS changes nothing but the start of the watchdog, and the RSTACT
query answers 1; RSTDAA clears the address and goes back to I2C; ENTDAA, SETDASA and SETAASA assign an address and raise DAA_DONE,
ENTDAA only on a port without one that wins; SETNEWDA replaces it; SETMWL and SETMRL set the limits; ENTHDR0 and the HDR exit switch
HDR; RSTACT of a port raises its event and, but for byte 0, ends its address, tunnel, open packet and session and puts its pointer back.
The direct reads of a port with an address answer their bytes; GETSTATUS clears the protocol-error bit. A port that is not enabled
answers no transfer. The most significant byte goes first in answers of several bytes, which is the model's reading (log entry 74).
(Rests on 11_host_interface.md R329, R331, R332, R333, R334, R340, R349.) -/
def Obligations.PortCommandCodes : Prop :=
  (∀ (s : State) (j : Fin 2) (e : Byte), s.dev = .up → portOn s j.val = true →
    ∃ t, exec (.enec j e) s = .next t ∧ (t.port j.val).alive = s.osc ∧
      (t.port j.val).enint = (if bit e.toNat 0 = 1 then true else (s.port j.val).enint)) ∧
  (∀ (s : State) (j : Fin 2) (e : Byte), s.dev = .up → portOn s j.val = true →
    ∃ t, exec (.disec j e) s = .next t ∧ (t.port j.val).alive = s.osc ∧
      (t.port j.val).enint = (if bit e.toNat 0 = 1 then false else (s.port j.val).enint)) ∧
  (∀ (s : State) (j : Fin 2) (n : Fin 4), s.dev = .up → portOn s j.val = true →
    exec (.entas j n) s = .next (s.setPort j.val { s.port j.val with alive := s.osc })) ∧
  (∀ (s : State) (j : Fin 2), s.dev = .up → portOn s j.val = true →
    ∃ t, exec (.rstdaa j) s = .next t ∧ t.rd .I3C_ADDR_STAT_DA j.val = 0 ∧ t.rd .I3C_STATUS_DA_VALID j.val = 0 ∧
      t.rd .I3C_STATUS_I2C_MODE j.val = 1) ∧
  (∀ (s : State) (j : Fin 2) (a : BitVec 7), s.dev = .up → portOn s j.val = true → s.rd .I3C_STATUS_DA_VALID j.val = 0 →
    ∃ t, exec (.entdaa j (some a)) s = .next t ∧ t.rd .I3C_ADDR_STAT_DA j.val = a.toNat ∧ t.rd .I3C_STATUS_DA_VALID j.val = 1 ∧
      t.rd .I3C_STATUS_I2C_MODE j.val = 0 ∧ Raised t .i3c j.val 0) ∧
  (∀ (s : State) (j : Fin 2) (a : Option (BitVec 7)), s.dev = .up → portOn s j.val = true → s.rd .I3C_STATUS_DA_VALID j.val ≠ 0 ∨ a = none →
    exec (.entdaa j a) s = .next (s.setPort j.val { s.port j.val with alive := s.osc })) ∧
  (∀ (s : State) (j : Fin 2) (v : BitVec 16), s.dev = .up → portOn s j.val = true →
    ∃ t, exec (.setmwl j v) s = .next t ∧ t.rd .I3C_LIMITS_MWL j.val = v.toNat) ∧
  (∀ (s : State) (j : Fin 2) (v : BitVec 16), s.dev = .up → portOn s j.val = true →
    ∃ t, exec (.setmrl j v) s = .next t ∧ t.rd .I3C_LIMITS_MRL j.val = v.toNat) ∧
  (∀ (s : State) (j : Fin 2), s.dev = .up → portOn s j.val = true →
    ∃ t, exec (.enthdr0 j) s = .next t ∧ t.rd .I3C_STATUS_HDR j.val = 1) ∧
  (∀ (s : State) (j : Fin 2), s.dev = .up → portOn s j.val = true →
    ∃ t, exec (.hdrExit j) s = .next t ∧ t.rd .I3C_STATUS_HDR j.val = 0) ∧
  (∀ (s : State) (j : Fin 2), s.dev = .up → portOn s j.val = true → s.addrPins < 8 →
    ∃ t, exec (.setaasa j) s = .next t ∧ t.rd .I3C_ADDR_STAT_DA j.val = 0x58 + s.addrPins ∧
      t.rd .I3C_STATUS_DA_VALID j.val = 1 ∧ Raised t .i3c j.val 0) ∧
  (∀ (s : State) (j : Fin 2) (a : BitVec 7), s.dev = .up → portOn s j.val = true →
    ∃ t, exec (.setdasa j a) s = .next t ∧ t.rd .I3C_ADDR_STAT_DA j.val = a.toNat ∧ t.rd .I3C_STATUS_DA_VALID j.val = 1 ∧
      Raised t .i3c j.val 0) ∧
  (∀ (s : State) (j : Fin 2) (a : BitVec 7), s.dev = .up → portOn s j.val = true → s.rd .I3C_STATUS_DA_VALID j.val = 1 →
    ∃ t, exec (.setnewda j a) s = .next t ∧ t.rd .I3C_ADDR_STAT_DA j.val = a.toNat) ∧
  (∀ (s : State) (j : Fin 2) (b : Byte), s.dev = .up → portOn s j.val = true → b.toNat ≠ 2 → b.toNat ≠ 0x81 → b.toNat ≠ 0x82 →
    ∃ t, exec (.rstactPort j b) s = .next t ∧ Raised t .i3c j.val 4 ∧ (t.port j.val).rstByte = (if b.toNat = 0 then 0 else 1) ∧
      (b.toNat ≠ 0 → t.rd .I3C_STATUS_DA_VALID j.val = 0 ∧ t.rd .I3C_STATUS_I2C_MODE j.val = 1 ∧
        t.rd .I3C_STATUS_TUN_BUSY j.val = 0 ∧ t.rd .I3C_STATUS_SECURE j.val ≠ 1 ∧ t.rd .TACK_PUSH_STAT_OPEN 0 j.val ≠ 1 ∧
        t.rd .I3C_PTR_LO_ADDR j.val = (if j.val = 1 then 0x20002000 else 0x20001000))) ∧
  (∀ (s : State) (j : Fin 2), s.dev = .up → portOn s j.val = true →
    ∃ t, exec (.rstactQuery j) s = .next t ∧ t.readData = [1]) ∧
  (∀ (s : State) (j : Fin 2), s.dev = .up → portOn s j.val = true → s.rd .I3C_STATUS_DA_VALID j.val = 1 →
    ∃ t, exec (.getmwl j) s = .next t ∧
      t.readData = [BitVec.ofNat 8 (s.rd .I3C_LIMITS_MWL j.val / 256), BitVec.ofNat 8 (s.rd .I3C_LIMITS_MWL j.val)]) ∧
  (∀ (s : State) (j : Fin 2), s.dev = .up → portOn s j.val = true → s.rd .I3C_STATUS_DA_VALID j.val = 1 →
    ∃ t, exec (.getmrl j) s = .next t ∧
      t.readData = [BitVec.ofNat 8 (s.rd .I3C_LIMITS_MRL j.val / 256), BitVec.ofNat 8 (s.rd .I3C_LIMITS_MRL j.val), 3]) ∧
  (∀ (s : State) (j : Fin 2), s.dev = .up → portOn s j.val = true → s.rd .I3C_STATUS_DA_VALID j.val = 1 →
    ∃ t, exec (.getpid j) s = .next t ∧
      t.readData = [40, 32, 24, 16, 8, 0].map (fun k => BitVec.ofNat 8 (pid s j.val / 2 ^ k))) ∧
  (∀ (s : State) (j : Fin 2), s.dev = .up → portOn s j.val = true → s.rd .I3C_STATUS_DA_VALID j.val = 1 →
    ∃ t, exec (.getbcr j) s = .next t ∧ t.readData = [0x27]) ∧
  (∀ (s : State) (j : Fin 2), s.dev = .up → portOn s j.val = true → s.rd .I3C_STATUS_DA_VALID j.val = 1 →
    ∃ t, exec (.getdcr j) s = .next t ∧ t.readData = [0]) ∧
  (∀ (s : State) (j : Fin 2), s.dev = .up → portOn s j.val = true → s.rd .I3C_STATUS_DA_VALID j.val = 1 →
    ∃ t, exec (.getmxds j) s = .next t ∧ t.readData = [0, 0x20]) ∧
  (∀ (s : State) (j : Fin 2), s.dev = .up → portOn s j.val = true → s.rd .I3C_STATUS_DA_VALID j.val = 1 →
    ∃ t, exec (.getcaps j) s = .next t ∧ t.readData = [1, 1]) ∧
  (∀ (s : State) (j : Fin 2), s.dev = .up → portOn s j.val = true → s.rd .I3C_STATUS_DA_VALID j.val = 1 →
    ∃ t, exec (.getstatus j) s = .next t ∧ (t.port j.val).protoErr = false ∧
      leValue t.readData.reverse = (min 15 (summary s j.val).length + (if (s.port j.val).protoErr then 2 ^ 5 else 0) +
        2 ^ 8 * s.rd .I3C_STATUS_HEALTHY (1 - j.val) + 2 ^ 9 * s.rd .SYS_STATUS_READY) % 2 ^ 16) ∧
  (∀ (s : State) (i : Instr) (j : Nat), s.dev = .up → portTransfer i = some j → portOn s j = false → exec i s = .next s)

/-- A frame that fails a check or arrives damaged applies nothing: its error is counted and kept, the protocol-error bit set and
FRAME_ERR raised. A register frame sets the pointer and its INC; one to SCRATCH writes its word. A private read at SCRATCH answers the
register and, under INC, moves on. A memory frame on a free tunnel starts its operation, on a busy one is dropped. With no cell error
and no earlier access of the master waiting, a finished tunnel write to words that are not poisoned stores its bytes at its address and
no other byte, and a finished fetch of such words holds the bytes read. An operation on benches that is denied changes no byte and is
DENIED, as are one on the register range and, before READY, one on Quarry, each with its record; a fetch then holds zeros. A read of the
tunnel answers TSTAT and, once they are there, the fetched bytes, in I2C filled up with 0xFF; it clears DROPPED and counts a retry while
the tunnel is busy. (Rests on 11_host_interface.md R335, R336, R337, R338, R339, R341, R342, R343, 13_power_reset_availability.md R396.)
-/
def Obligations.PortFrames : Prop :=
  (∀ (s : State) (j : Fin 2) (fr : List Byte) (wire : Fin 3) (e : Nat), s.dev = .up → portOn s j.val = true →
    e = (if wire.val = 2 then 2 else frameError s j.val fr (wire.val == 1)) → e ≠ 0 →
    ∃ t, exec (.regWrite j fr wire) s = .next t ∧ t.rd .I3C_FRAME_STAT_LAST_ERR j.val = e ∧ t.rd .I3C_FRAME_STAT_FRAME_ERR j.val =
        satAdd (Reg.width .I3C_FRAME_STAT_FRAME_ERR) (s.rd .I3C_FRAME_STAT_FRAME_ERR j.val) 1 ∧
      (t.port j.val).protoErr = true ∧ Raised t .i3c j.val 1 ∧ pointer t j.val = pointer s j.val ∧ t.mem = s.mem) ∧
  (∀ (s : State) (j : Fin 2) (fr : List Byte) (wire : Fin 3) (e : Nat), s.dev = .up → portOn s j.val = true →
    e = (if wire.val = 2 then 2 else frameError s j.val fr (wire.val == 1)) → e ≠ 0 →
    ∃ t, exec (.memWrite j fr wire) s = .next t ∧ t.rd .I3C_FRAME_STAT_LAST_ERR j.val = e ∧ t.rd .I3C_FRAME_STAT_FRAME_ERR j.val =
        satAdd (Reg.width .I3C_FRAME_STAT_FRAME_ERR) (s.rd .I3C_FRAME_STAT_FRAME_ERR j.val) 1 ∧
      (t.port j.val).protoErr = true ∧ Raised t .i3c j.val 1 ∧ tunnelBusy t j.val = tunnelBusy s j.val ∧ t.mem = s.mem) ∧
  (∀ (s : State) (j : Fin 2) (fr : List Byte) (wire : Fin 3) (e : Nat), s.dev = .up → portOn s j.val = true →
    e = (if wire.val = 2 then 2 else frameError s j.val fr (wire.val == 1)) → e ≠ 0 →
    ∃ t, exec (.memFetch j fr wire) s = .next t ∧ t.rd .I3C_FRAME_STAT_LAST_ERR j.val = e ∧ t.rd .I3C_FRAME_STAT_FRAME_ERR j.val =
        satAdd (Reg.width .I3C_FRAME_STAT_FRAME_ERR) (s.rd .I3C_FRAME_STAT_FRAME_ERR j.val) 1 ∧
      (t.port j.val).protoErr = true ∧ Raised t .i3c j.val 1 ∧ tunnelBusy t j.val = tunnelBusy s j.val ∧ t.mem = s.mem) ∧
  (∀ (s : State) (j : Fin 2) (fr : List Byte), s.dev = .up → portOn s j.val = true → frameError s j.val fr false = 0 →
    (parseFrame fr).op = 0 → (parseFrame fr).body = [] →
    ∃ t, exec (.regWrite j fr 0) s = .next t ∧ pointer t j.val = (parseFrame fr).addr ∧
      t.rd .I3C_PTR_HI_INC j.val = (if (parseFrame fr).inc then 1 else 0) ∧ (t.port j.val).memLast = false) ∧
  (∀ (s : State) (j : Fin 2) (fr : List Byte), s.dev = .up → portOn s j.val = true → frameError s j.val fr false = 0 →
    (parseFrame fr).op = 0 → (parseFrame fr).addr = 0x20000058 → (parseFrame fr).body.length = 4 →
    accessOk s .sys 0 j.val true = true →
    ∃ t, exec (.regWrite j fr 0) s = .next t ∧ t.rd .SYS_SCRATCH_DATA = leValue (parseFrame fr).body ∧
      pointer t j.val = 0x20000058) ∧
  (∀ (s : State) (j : Fin 2), s.dev = .up → portOn s j.val = true → (s.port j.val).memLast = false → pointer s j.val = 0x20000058 →
    accessOk s .sys 0 j.val false = true → 4 ≤ s.rd .I3C_LIMITS_MRL j.val ∨ s.rd .I3C_STATUS_I2C_MODE j.val = 1 →
    ∃ t, exec (.privateRead j 4) s = .next t ∧ t.readData = leBytes 4 (s.rd .SYS_SCRATCH_DATA) ∧
      pointer t j.val = (if s.rd .I3C_PTR_HI_INC j.val = 1 then 0x2000005C else 0x20000058)) ∧
  (∀ (s : State) (j : Fin 2) (fr : List Byte), s.dev = .up → portOn s j.val = true → frameError s j.val fr false = 0 →
    (parseFrame fr).op = 1 → tunnelBusy s j.val = false →
    ∃ t, exec (.memWrite j fr 0) s = .next t ∧ tunnelBusy t j.val = true ∧ (t.port j.val).tun = .write ∧
      (t.port j.val).tunAddr = (parseFrame fr).addr ∧ (t.port j.val).tunData = (parseFrame fr).body ∧ (t.port j.val).memLast = true) ∧
  (∀ (s : State) (j : Fin 2) (fr : List Byte), s.dev = .up → portOn s j.val = true → frameError s j.val fr false = 0 →
    (parseFrame fr).op = 1 → tunnelBusy s j.val = true →
    ∃ t, exec (.memWrite j fr 0) s = .next t ∧ (t.port j.val).tunDropped = true ∧ (t.port j.val).tun = (s.port j.val).tun ∧
      (t.port j.val).tunData = (s.port j.val).tunData ∧ (t.port j.val).tunAddr = (s.port j.val).tunAddr) ∧
  (∀ (s : State) (j : Fin 2) (fr : List Byte), s.dev = .up → portOn s j.val = true → frameError s j.val fr false = 0 →
    (parseFrame fr).op = 2 → tunnelBusy s j.val = false →
    ∃ t, exec (.memFetch j fr 0) s = .next t ∧ tunnelBusy t j.val = true ∧ (t.port j.val).tun = .fetch ∧
      (t.port j.val).tunAddr = (parseFrame fr).addr ∧
      (t.port j.val).tunLen = ((parseFrame fr).body.headD 0).toNat % 64 + 1) ∧
  (∀ (s : State) (j : Fin 2) (fr : List Byte), s.dev = .up → portOn s j.val = true → frameError s j.val fr false = 0 →
    (parseFrame fr).op = 2 → tunnelBusy s j.val = true →
    ∃ t, exec (.memFetch j fr 0) s = .next t ∧ (t.port j.val).tunDropped = true ∧ (t.port j.val).tun = (s.port j.val).tun ∧
      (t.port j.val).tunLen = (s.port j.val).tunLen ∧ (t.port j.val).tunAddr = (s.port j.val).tunAddr) ∧
  (∀ (s : State) (j : Fin 2), s.dev = .up → CleanCells s → Unwaited s j.val → tunnelBusy s j.val = true → tunnelMay s j.val = true →
    (s.port j.val).tun = .write → 0 < (s.port j.val).tunData.length → InMemory s (s.port j.val).tunAddr (s.port j.val).tunData.length →
    memAllowed s j.val .write (s.port j.val).tunAddr (s.port j.val).tunData.length = true →
    s.anyPoison (s.port j.val).tunAddr (s.port j.val).tunData.length = false →
    ∃ t, exec (.tunnelDone j) s = .next t ∧ tunnelBusy t j.val = false ∧ (t.port j.val).tunDenied = false ∧
      t.bytes (s.port j.val).tunAddr (s.port j.val).tunData.length = (s.port j.val).tunData ∧
      ∀ b : Nat, b < (s.port j.val).tunAddr ∨ (s.port j.val).tunAddr + (s.port j.val).tunData.length ≤ b → t.byte b = s.byte b) ∧
  (∀ (s : State) (j : Fin 2), s.dev = .up → CleanCells s → Unwaited s j.val → tunnelBusy s j.val = true → tunnelMay s j.val = true →
    (s.port j.val).tun = .fetch → 0 < (s.port j.val).tunLen → InMemory s (s.port j.val).tunAddr (s.port j.val).tunLen →
    memAllowed s j.val .read (s.port j.val).tunAddr (s.port j.val).tunLen = true →
    s.anyPoison (s.port j.val).tunAddr (s.port j.val).tunLen = false →
    ∃ t, exec (.tunnelDone j) s = .next t ∧ tunnelBusy t j.val = false ∧ (t.port j.val).tunDenied = false ∧
      (t.port j.val).tunData = s.bytes (s.port j.val).tunAddr (s.port j.val).tunLen ∧ t.mem = s.mem) ∧
  (∀ (s : State) (j : Fin 2), s.dev = .up → Unwaited s j.val → tunnelBusy s j.val = true → tunnelMay s j.val = true →
    (s.port j.val).tun = .fetch → 0 < (s.port j.val).tunLen → inBench (s.port j.val).tunAddr (s.port j.val).tunLen = true →
    memAllowed s j.val .read (s.port j.val).tunAddr (s.port j.val).tunLen = false →
    ∃ t, exec (.tunnelDone j) s = .next t ∧ tunnelBusy t j.val = false ∧ (t.port j.val).tunDenied = true ∧
      (t.port j.val).tunData = List.replicate (s.port j.val).tunLen 0 ∧ Recorded s t .bench 0 errRegionDenied j.val ∧ t.mem = s.mem) ∧
  (∀ (s : State) (j : Fin 2), s.dev = .up → Unwaited s j.val → tunnelBusy s j.val = true → tunnelMay s j.val = true →
    (s.port j.val).tun = .write → 0 < (s.port j.val).tunData.length →
    inBench (s.port j.val).tunAddr (s.port j.val).tunData.length = true →
    memAllowed s j.val .write (s.port j.val).tunAddr (s.port j.val).tunData.length = false →
    ∃ t, exec (.tunnelDone j) s = .next t ∧ tunnelBusy t j.val = false ∧ (t.port j.val).tunDenied = true ∧
      Recorded s t .bench 0 errRegionDenied j.val ∧ t.mem = s.mem) ∧
  (∀ (s : State) (j : Fin 2), s.dev = .up → tunnelBusy s j.val = true → tunnelMay s j.val = true → (s.port j.val).tun = .fetch →
    inRegisters (s.port j.val).tunAddr = true ∨ (quarryBase ≤ (s.port j.val).tunAddr ∧ s.rd .SYS_STATUS_READY = 0) →
    ∃ t, exec (.tunnelDone j) s = .next t ∧ tunnelBusy t j.val = false ∧ (t.port j.val).tunDenied = true ∧
      (t.port j.val).tunData = List.replicate (s.port j.val).tunLen 0 ∧ t.mem = s.mem ∧
      (if inRegisters (s.port j.val).tunAddr then Recorded s t .sys 0 errRegionDenied j.val else Recorded s t .quarry 0 errRetry j.val)) ∧
  (∀ (s : State) (j : Fin 2), s.dev = .up → tunnelBusy s j.val = true → tunnelMay s j.val = true → (s.port j.val).tun = .write →
    inRegisters (s.port j.val).tunAddr = true ∨ (quarryBase ≤ (s.port j.val).tunAddr ∧ s.rd .SYS_STATUS_READY = 0) →
    ∃ t, exec (.tunnelDone j) s = .next t ∧ tunnelBusy t j.val = false ∧ (t.port j.val).tunDenied = true ∧ t.mem = s.mem ∧
      (if inRegisters (s.port j.val).tunAddr then Recorded s t .sys 0 errRegionDenied j.val else Recorded s t .quarry 0 errRetry j.val)) ∧
  (∀ (s : State) (j : Fin 2) (n : Fin 256), s.dev = .up → portOn s j.val = true → (s.port j.val).memLast = true → 0 < n.val →
    ∃ t, exec (.tunnelRead j n) s = .next t ∧ t.readData = (BitVec.ofNat 8 (tstat s j.val) ::
        (if tunnelBusy s j.val = true ∨ (s.port j.val).tun ≠ TunnelOp.fetch then [] else (s.port j.val).tunData) ++
        (if s.rd .I3C_STATUS_I2C_MODE j.val = 1 then List.replicate n.val 0xFF else [])).take n.val ∧
      (t.port j.val).tunDropped = false ∧ t.rd .I3C_TUN_STAT_LAST j.val = tstat s j.val ∧
      t.rd .I3C_TUN_STAT_RETRY_CNT j.val = (if tunnelBusy s j.val then
        satAdd (Reg.width .I3C_TUN_STAT_RETRY_CNT) (s.rd .I3C_TUN_STAT_RETRY_CNT j.val) 1 else s.rd .I3C_TUN_STAT_RETRY_CNT j.val))

/-- An interrupt that is acknowledged answers its byte and payload and is counted, and a LINK or READY one is then no longer due; a NACK
is counted and raises IBI_NACK, and what was due stays so. A healthy port that loses its health tells the other port and ends its secure
session; the watchdog of one that is not healthy changes nothing. Health returns to an enabled port. A port's own master adopts from the
other port when that is not healthy, and from a healthy one only in a secure session; another write of ADOPT is refused. Adoption moves
every locked page and every claimed comparator, line, pin and capture unit of the other master and no comparator of a third, and raises
ADOPTED on both. (Rests on 11_host_interface.md R346, R349, R351, 12_security_firmware.md R377.) -/
def Obligations.PortHealth : Prop :=
  (∀ (s : State) (j : Fin 2) (mdb load : Nat), s.dev = .up → portOn s j.val = true → ibiReady s j.val = true →
    ibiCause s j.val = some (mdb, load) →
    ∃ t, exec (.ibiRequest j true) s = .next t ∧
      t.readData = [BitVec.ofNat 8 mdb, BitVec.ofNat 8 load, BitVec.ofNat 8 (load / 256)] ∧ (t.port j.val).lastIbi = s.osc + 1 ∧
      t.rd .I3C_IBI_CNT_SENT j.val = satAdd (Reg.width .I3C_IBI_CNT_SENT) (s.rd .I3C_IBI_CNT_SENT j.val) 1 ∧
      (mdb = 2 → (t.port j.val).linkIbi = false) ∧ (mdb = 3 → (t.port j.val).readyIbi = false)) ∧
  (∀ (s : State) (j : Fin 2), s.dev = .up → portOn s j.val = true → ibiReady s j.val = true →
    ∃ t, exec (.ibiRequest j false) s = .next t ∧ Raised t .i3c j.val 5 ∧
      t.rd .I3C_IBI_CNT_NACKS j.val = satAdd (Reg.width .I3C_IBI_CNT_NACKS) (s.rd .I3C_IBI_CNT_NACKS j.val) 1 ∧
      (t.port j.val).linkIbi = (s.port j.val).linkIbi ∧ (t.port j.val).readyIbi = (s.port j.val).readyIbi) ∧
  (∀ (s : State) (j : Fin 2) (wd : Bool), s.dev = .up → wd = false ∨ watchdogOver s j.val = true → s.rd .I3C_STATUS_HEALTHY j.val ≠ 0 →
    ∃ t, exec (.portHealthLost j wd) s = .next t ∧ t.rd .I3C_STATUS_HEALTHY j.val = 0 ∧ Raised t .i3c j.val 2 ∧
      Raised t .i3c (1 - j.val) 3 ∧ t.rd .I3C_STATUS_SECURE j.val ≠ 1 ∧
      (s.rd .I3C_IBI_CFG_LINK_IBI (1 - j.val) = 1 → (t.port (1 - j.val)).linkIbi = true)) ∧
  (∀ (s : State) (j : Fin 2), s.dev = .up → s.rd .I3C_STATUS_HEALTHY j.val = 0 → exec (.portHealthLost j true) s = .next s) ∧
  (∀ (s : State) (j : Fin 2), s.dev = .up → portOn s j.val = true →
    ∃ t, exec (.portHealthReturn j) s = .next t ∧ t.rd .I3C_STATUS_HEALTHY j.val = 1 ∧ (t.port j.val).stuck = false) ∧
  (∀ (s : State) (m : Master) (j : Fin 2), MayWrite s .i3c j.val m → m.val = j.val →
    s.rd .I3C_STATUS_HEALTHY (1 - j.val) ≠ 1 ∨ s.rd .I3C_STATUS_SECURE j.val ≠ 0 →
    ∃ t, exec (.adopt m j) s = .next t ∧ (t.port j.val).adopting = true) ∧
  (∀ (s : State) (m : Master) (j : Fin 2), MayWrite s .i3c j.val m →
    m.val ≠ j.val ∨ (s.rd .I3C_STATUS_HEALTHY (1 - j.val) = 1 ∧ s.rd .I3C_STATUS_SECURE j.val = 0) →
    ∃ t, exec (.adopt m j) s = .next t ∧ (t.port j.val).adopting = (s.port j.val).adopting ∧
      Recorded s t .i3c j.val errOwnerDenied m.val) ∧
  (∀ (s : State) (j : Fin 2), s.dev = .up → (s.port j.val).adopting = true →
    ∃ t, exec (.adopted j) s = .next t ∧ Raised t .i3c 0 6 ∧ Raised t .i3c 1 6 ∧ (t.port j.val).adopting = false ∧
      (∀ n : Nat, n < 64 → s.rd .TBASE_LC_CTRL_CLAIMED 0 n = 1 → s.rd .TBASE_LC_CTRL_OWNER 0 n = 1 - j.val →
        t.rd .TBASE_LC_CTRL_OWNER 0 n = j.val) ∧
      (∀ n : Nat, n < 64 → s.rd .TBASE_LC_CTRL_OWNER 0 n ≠ 1 - j.val →
        t.rd .TBASE_LC_CTRL_OWNER 0 n = s.rd .TBASE_LC_CTRL_OWNER 0 n) ∧
      (∀ n : Nat, n < 128 → s.rd .HARNESS_LINE_CFG_CLAIMED 0 n = 1 → s.rd .HARNESS_LINE_CFG_OWNER 0 n = 1 - j.val →
        t.rd .HARNESS_LINE_CFG_OWNER 0 n = j.val) ∧
      (∀ n : Nat, n < 32 → s.rd .PAT_PIN_CFG_CLAIMED 0 n = 1 → s.rd .PAT_PIN_CFG_OWNER 0 n = 1 - j.val →
        t.rd .PAT_PIN_CFG_OWNER 0 n = j.val) ∧
      (∀ n : Nat, n < 16 → s.rd .HARNESS_CAPU_CFG_CLAIMED 0 n = 1 → s.rd .HARNESS_CAPU_CFG_OWNER 0 n = 1 - j.val →
        t.rd .HARNESS_CAPU_CFG_OWNER 0 n = j.val) ∧
      (∀ x ∈ allPages, s.rd .OWNER_LOCK x.2 x.1.code = 1 → s.rd .OWNER_MASTER x.2 x.1.code = 1 - j.val →
        t.rd .OWNER_MASTER x.2 x.1.code = j.val))

/-- A write to no page or to an unassigned offset changes nothing; one that the lock or the security of the page rejects changes nothing
but the page's error record and a wake of the device. A write of SCRATCH stores the word; a write of a CSE's GAIN stores the shadow copy
and leaves the value in effect. A read of ERR_CODE answers the record and clears all of it. A read of the lower half of TB_NOW holds the
upper half for the reader, whose next read of the upper half answers it; without it the live half is read. With no cell error, a
master's write of benches or waveform space that the checks admit and nothing holds up stores its bytes at words that are not poisoned
and no other, and its read answers the bytes, to the management core free values within the Tack pool (log entry 16); one that waits
changes no byte; one of benches that is denied changes no byte and is recorded, and a read gives zeros; of an unmapped address so,
recorded on SYS with MAP_ERR. A write of some bytes of SCRATCH changes those alone, a read answers them. (Rests on 01_architecture.md
R5, R7, R8, R23, R24, R27, 15_register_index.md R413, R418, 02_timebase_sync.md R38.) -/
def Obligations.RegisterAccesses : Prop :=
  (∀ (s : State) (m : Master) (a : BitVec 24) (v : Word) (p : Page) (inst : Nat), s.dev = .up → pageAt (regAddr a) = some (p, inst) →
    assigned s p inst (regAddr a % 0x1000 / 4 * 4) m.val = false → exec (.registerWrite m a v) s = .next s) ∧
  (∀ (s : State) (m : Master) (a : BitVec 24) (v : Word), s.dev = .up → pageAt (regAddr a) = none →
    exec (.registerWrite m a v) s = .next s) ∧
  (∀ (s : State) (m : Master) (a : BitVec 24) (v : Word) (p : Page) (inst : Nat), s.dev = .up → pageAt (regAddr a) = some (p, inst) →
    assigned s p inst (regAddr a % 0x1000 / 4 * 4) m.val = true → accessOk s p inst m.val true = false →
    ∃ t, exec (.registerWrite m a v) s = .next t ∧ Recorded s t p inst errOwnerDenied m.val ∧ OnlyChanges (errors ++ wakes) s t) ∧
  (∀ (s : State) (m : Master) (v : Word), MayWrite s .sys 0 m →
    ∃ t, exec (.registerWrite m 0x58 v) s = .next t ∧ t.rd .SYS_SCRATCH_DATA = v.toNat) ∧
  (∀ (s : State) (m : Master) (c : Chan) (a : BitVec 24) (v : Word), MayWrite s .cse c.val m → a.toNat = 0x6004C + 0x1000 * c.val →
    ∃ t, exec (.registerWrite m a v) s = .next t ∧ t.rd .CSE_GAIN_GAIN c.val = v.toNat % 2 ^ 24 ∧
      t.rdEff .CSE_GAIN_GAIN c.val = s.rdEff .CSE_GAIN_GAIN c.val) ∧
  (∀ (s : State) (m : Master) (a : BitVec 24) (p : Page) (inst : Nat), s.dev = .up → pageAt (regAddr a) = some (p, inst) →
    regAddr a % 0x1000 = 0x1C → accessOk s p inst m.val false = true →
    ∃ t, exec (.readClear m a) s = .next t ∧
      t.readData = leBytes 4 ((s.rd .ERR_CODE_CODE inst p.code + s.rd .ERR_CODE_MASTER inst p.code * 2 ^ 8 +
        s.rd .ERR_CODE_WRITE inst p.code * 2 ^ 13 + s.rd .ERR_CODE_OVF inst p.code * 2 ^ 15 +
        s.rd .ERR_CODE_WORD inst p.code * 2 ^ 16) % 2 ^ 32) ∧
      t.rd .ERR_CODE_CODE inst p.code = 0 ∧ t.rd .ERR_CODE_MASTER inst p.code = 0 ∧ t.rd .ERR_CODE_WRITE inst p.code = 0 ∧
      t.rd .ERR_CODE_OVF inst p.code = 0 ∧ t.rd .ERR_CODE_WORD inst p.code = 0) ∧
  (∀ (s : State) (m : Master), s.dev = .up → accessOk s .tbase 0 m.val false = true →
    ∃ t, exec (.read64Low m 0x4048) s = .next t ∧ t.readData = leBytes 4 (s.now % 2 ^ 32) ∧
      Store.get none t.held m.val = some (0x2000404C, s.now / 2 ^ 32 % 2 ^ 32)) ∧
  (∀ (s : State) (m : Master) (v : Nat), s.dev = .up → accessOk s .tbase 0 m.val false = true →
    Store.get none s.held m.val = some (0x2000404C, v) → v < 2 ^ 32 →
    ∃ t, exec (.read64High m 0x404C) s = .next t ∧ t.readData = leBytes 4 v ∧ Store.get none t.held m.val = none) ∧
  (∀ (s : State) (m : Master), s.dev = .up → accessOk s .tbase 0 m.val false = true → Store.get none s.held m.val = none →
    ∃ t, exec (.read64High m 0x404C) s = .next t ∧ t.readData = leBytes 4 (s.now / 2 ^ 32 % 2 ^ 32)) ∧
  (∀ (s : State) (m : Master) (a : Addr) (data : List Byte) (n : BitVec 12), s.dev = .up → CleanCells s → 0 < data.length →
    inBench a.toNat data.length = true ∨ (inWave s a.toNat data.length = true ∧ s.mustRetry a.toNat = false ∧ quarryHeld s = false) →
    busAllowed s m.val a.toNat data.length true = true → Unwaited s m.val → s.anyPoison a.toNat data.length = false →
    ∃ t, exec (.masterAccess m a (some data) n) s = .next t ∧ t.bytes a.toNat data.length = data ∧
      ∀ b : Nat, b < a.toNat ∨ a.toNat + data.length ≤ b → t.byte b = s.byte b) ∧
  (∀ (s : State) (m : Master) (a : Addr) (n : BitVec 12), s.dev = .up → CleanCells s → 0 < n.toNat →
    inBench a.toNat n.toNat = true ∨ (inWave s a.toNat n.toNat = true ∧ s.mustRetry a.toNat = false ∧ quarryHeld s = false) →
    busAllowed s m.val a.toNat n.toNat false = true → Unwaited s m.val → s.anyPoison a.toNat n.toNat = false →
    ∃ t, exec (.masterAccess m a none n) s = .next t ∧ t.readData = s.bytesFor m.val a.toNat n.toNat ∧ t.mem = s.mem) ∧
  (∀ (s : State) (m : Master) (a : Addr) (data : List Byte) (n : BitVec 12) (x : BusWait), s.dev = .up →
    x = { master := m.val, addr := a.toNat, len := data.length, data := some data, at_ := s.osc } →
    allRegisters a.toNat data.length = false → busAllowed s m.val a.toNat data.length true = true → busWaits s x = true →
    ∃ t, exec (.masterAccess m a (some data) n) s = .next t ∧ t.mem = s.mem ∧ t.qry.waiting = s.qry.waiting ++ [x]) ∧
  (∀ (s : State) (m : Master) (a : Addr) (n : BitVec 12) (x : BusWait), s.dev = .up →
    x = { master := m.val, addr := a.toNat, len := n.toNat, data := none, at_ := s.osc } →
    allRegisters a.toNat n.toNat = false → busAllowed s m.val a.toNat n.toNat false = true → busWaits s x = true →
    ∃ t, exec (.masterAccess m a none n) s = .next t ∧ t.mem = s.mem ∧ t.qry.waiting = s.qry.waiting ++ [x] ∧ t.readData = s.readData) ∧
  (∀ (s : State) (m : Master) (a : Addr) (data : List Byte) (n : BitVec 12), s.dev = .up → 0 < data.length →
    inBench a.toNat data.length = true → busAllowed s m.val a.toNat data.length true = false →
    ∃ t, exec (.masterAccess m a (some data) n) s = .next t ∧ t.mem = s.mem ∧ Recorded s t .bench 0 errRegionDenied m.val) ∧
  (∀ (s : State) (m : Master) (a : Addr) (n : BitVec 12), s.dev = .up → 0 < n.toNat →
    inBench a.toNat n.toNat = true → busAllowed s m.val a.toNat n.toNat false = false →
    ∃ t, exec (.masterAccess m a none n) s = .next t ∧ t.mem = s.mem ∧ t.readData = List.replicate n.toNat 0 ∧
      Recorded s t .bench 0 errRegionDenied m.val) ∧
  (∀ (s : State) (m : Master) (a : Addr) (n : BitVec 12), s.dev = .up → 0 < n.toNat → 0x40000 ≤ a.toNat → mapped a.toNat = false →
    s.rd .QUARRY_CAPACITY_WAVE_GIB ≤ 48 →
    ∃ t, exec (.masterAccess m a none n) s = .next t ∧ t.readData = List.replicate n.toNat 0 ∧ t.mem = s.mem ∧
      t.rd .SYS_ERR_ADDR_LO_ADDR = a.toNat % 2 ^ 32 ∧ t.rd .SYS_ERR_ADDR_HI_ADDR = a.toNat / 2 ^ 32 ∧
      t.rd .SYS_ERR_ADDR_HI_MASTER = m.val ∧ t.rd .SYS_ERR_ADDR_HI_WRITE = 0 ∧ Raised t .sys 0 3 ∧
      Recorded s t .sys 0 errRegionDenied m.val) ∧
  (∀ (s : State) (m : Master) (a : Addr) (data : List Byte) (n : BitVec 12), s.dev = .up → 0 < data.length → 0x40000 ≤ a.toNat →
    mapped a.toNat = false → s.rd .QUARRY_CAPACITY_WAVE_GIB ≤ 48 →
    ∃ t, exec (.masterAccess m a (some data) n) s = .next t ∧ t.mem = s.mem ∧
      t.rd .SYS_ERR_ADDR_LO_ADDR = a.toNat % 2 ^ 32 ∧ t.rd .SYS_ERR_ADDR_HI_ADDR = a.toNat / 2 ^ 32 ∧
      t.rd .SYS_ERR_ADDR_HI_MASTER = m.val ∧ t.rd .SYS_ERR_ADDR_HI_WRITE = 1 ∧ Raised t .sys 0 3 ∧
      Recorded s t .sys 0 errRegionDenied m.val) ∧
  (∀ (s : State) (m : Master) (lo : Fin 4) (a : Addr) (data : List Byte) (n : BitVec 12), MayWrite s .sys 0 m → Inv s →
    a.toNat = 0x20000058 + lo.val → 0 < data.length → lo.val + data.length ≤ 4 →
    ∃ t, exec (.masterAccess m a (some data) n) s = .next t ∧ t.mem = s.mem ∧
      leBytes 4 (t.rd .SYS_SCRATCH_DATA) = (leBytes 4 (s.rd .SYS_SCRATCH_DATA)).take lo.val ++ data ++
        (leBytes 4 (s.rd .SYS_SCRATCH_DATA)).drop (lo.val + data.length)) ∧
  (∀ (s : State) (m : Master) (lo : Fin 4) (a : Addr) (n : BitVec 12), s.dev = .up → accessOk s .sys 0 m.val false = true → Inv s →
    a.toNat = 0x20000058 + lo.val → 0 < n.toNat → lo.val + n.toNat ≤ 4 →
    ∃ t, exec (.masterAccess m a none n) s = .next t ∧ t.mem = s.mem ∧
      t.readData = ((leBytes 4 (s.rd .SYS_SCRATCH_DATA)).drop lo.val).take n.toNat)

/-- A write of EVT_EN stores every enable and makes a raised event pending where it sets one; a write of EVT_RAW or EVT_PEND clears both
bits of each bit written as 1 and no other. A write of OWNER with LOCK on an unlocked page locks it for its master, on a locked one
keeps it, one without LOCK releases it; SEC changes only for a secure master, and for another the whole write is refused with
OWNER_DENIED. So is each of these writes where the lock, the security or the page's list of writers excludes the master; it then changes
nothing but the error record and a wake. (Rests on 15_register_index.md R416, R417, R418, 01_architecture.md R23.) -/
def Obligations.CommonLayout : Prop :=
  (∀ (s : State) (m : Master) (p : Page) (inst : Chan) (v : Word), MayWrite s p inst.val m → pageExists p inst.val = true →
    writerOk s p 0x10 m.val = true →
    ∃ t, exec (.evtEnWrite m p inst v) s = .next t ∧ ∀ i : Nat, i < 32 → t.rd .EVT_EN_EN inst.val p.code i = bit v.toNat i ∧
      t.rd .EVT_RAW_RAW inst.val p.code i = s.rd .EVT_RAW_RAW inst.val p.code i ∧
      t.rd .EVT_PEND_PEND inst.val p.code i =
        (if bit v.toNat i = 1 ∧ s.rd .EVT_EN_EN inst.val p.code i ≠ 1 ∧ s.rd .EVT_RAW_RAW inst.val p.code i = 1 ∧
            s.rd .EVT_PEND_PEND inst.val p.code i = 0 then 1 else s.rd .EVT_PEND_PEND inst.val p.code i)) ∧
  (∀ (s : State) (m : Master) (p : Page) (inst : Chan) (pend : Bool) (v : Word), MayWrite s p inst.val m →
    pageExists p inst.val = true → writerOk s p (if pend then 0x14 else 0x0C) m.val = true →
    ∃ t, exec (.evtClear m p inst pend v) s = .next t ∧ ∀ i : Nat, i < 32 →
      t.rd .EVT_RAW_RAW inst.val p.code i = (if bit v.toNat i = 1 then 0 else s.rd .EVT_RAW_RAW inst.val p.code i) ∧
      t.rd .EVT_PEND_PEND inst.val p.code i = (if bit v.toNat i = 1 then 0 else s.rd .EVT_PEND_PEND inst.val p.code i)) ∧
  (∀ (s : State) (m : Master) (p : Page) (inst : Chan) (sec : Bool), MayWrite s p inst.val m → pageExists p inst.val = true →
    writerOk s p 0x18 m.val = true → s.rd .OWNER_SEC inst.val p.code = (if sec then 1 else 0) ∨ secureMaster s m.val = true →
    s.rd .OWNER_LOCK inst.val p.code ≠ 1 →
    ∃ t, exec (.ownerWrite m p inst true sec) s = .next t ∧ t.rd .OWNER_LOCK inst.val p.code = 1 ∧
      t.rd .OWNER_MASTER inst.val p.code = m.val ∧ t.rd .OWNER_SEC inst.val p.code = (if sec then 1 else 0)) ∧
  (∀ (s : State) (m : Master) (p : Page) (inst : Chan) (sec : Bool), MayWrite s p inst.val m → pageExists p inst.val = true →
    writerOk s p 0x18 m.val = true → s.rd .OWNER_SEC inst.val p.code = (if sec then 1 else 0) ∨ secureMaster s m.val = true →
    s.rd .OWNER_LOCK inst.val p.code = 1 →
    ∃ t, exec (.ownerWrite m p inst true sec) s = .next t ∧ t.rd .OWNER_LOCK inst.val p.code = 1 ∧
      t.rd .OWNER_MASTER inst.val p.code = m.val ∧ t.rd .OWNER_SEC inst.val p.code = (if sec then 1 else 0)) ∧
  (∀ (s : State) (m : Master) (p : Page) (inst : Chan) (sec : Bool), MayWrite s p inst.val m → pageExists p inst.val = true →
    writerOk s p 0x18 m.val = true → s.rd .OWNER_SEC inst.val p.code = (if sec then 1 else 0) ∨ secureMaster s m.val = true →
    ∃ t, exec (.ownerWrite m p inst false sec) s = .next t ∧ t.rd .OWNER_LOCK inst.val p.code = 0 ∧
      t.rd .OWNER_MASTER inst.val p.code = 0 ∧ t.rd .OWNER_SEC inst.val p.code = (if sec then 1 else 0)) ∧
  (∀ (s : State) (m : Master) (p : Page) (inst : Chan) (lock sec : Bool), MayWrite s p inst.val m → pageExists p inst.val = true →
    writerOk s p 0x18 m.val = true → s.rd .OWNER_SEC inst.val p.code ≠ (if sec then 1 else 0) → secureMaster s m.val = false →
    ∃ t, exec (.ownerWrite m p inst lock sec) s = .next t ∧ Recorded s t p inst.val errOwnerDenied m.val ∧
      OnlyChanges (errors ++ wakes) s t) ∧
  (∀ (s : State) (m : Master) (p : Page) (inst : Chan) (v : Word), s.dev = .up → pageExists p inst.val = true →
    accessOk s p inst.val m.val true = false ∨ writerOk s p 0x10 m.val = false →
    ∃ t, exec (.evtEnWrite m p inst v) s = .next t ∧ Recorded s t p inst.val errOwnerDenied m.val ∧ OnlyChanges (errors ++ wakes) s t) ∧
  (∀ (s : State) (m : Master) (p : Page) (inst : Chan) (pend : Bool) (v : Word), s.dev = .up → pageExists p inst.val = true →
    accessOk s p inst.val m.val true = false ∨ writerOk s p (if pend then 0x14 else 0x0C) m.val = false →
    ∃ t, exec (.evtClear m p inst pend v) s = .next t ∧ Recorded s t p inst.val errOwnerDenied m.val ∧
      OnlyChanges (errors ++ wakes) s t) ∧
  (∀ (s : State) (m : Master) (p : Page) (inst : Chan) (lock sec : Bool), s.dev = .up → pageExists p inst.val = true →
    accessOk s p inst.val m.val true = false ∨ writerOk s p 0x18 m.val = false →
    ∃ t, exec (.ownerWrite m p inst lock sec) s = .next t ∧ Recorded s t p inst.val errOwnerDenied m.val ∧
      OnlyChanges (errors ++ wakes) s t)

/-- An accepted GO makes one commit pending with its mode and comparator; in mode NOW the shadow copies are captured at once. Mode 3,
mode PACKET on a page other than CSE and OUT, and a GO while one is pending set REFUSED and leave the commits alone; mode LAUNCH with a
comparator that the writer does not own, and any write by a master that the page excludes, is refused with OWNER_DENIED. A cancel before
the capture point drops the commit, after it nothing is dropped. The capture point takes the shadow copies of a CSE page. A due commit
of a CSE page puts the captured GAIN and OFFSET into effect, of an OUT page the captured filter shape and update mode, and PENDING
clears; a late one sets LATE. (Rests on 15_register_index.md R420, R421, R422, 01_architecture.md R8.) -/
def Obligations.ShadowCommits : Prop :=
  (∀ (s : State) (m : Master) (p : Page) (inst : Chan) (mode : Fin 4) (lc : Lc), MayWrite s p inst.val m →
    pageExists p inst.val = true → writerOk s p 0x20 m.val = true → mode.val ≠ 0 → mode.val ≠ 3 → (mode.val = 2 → p = .cse ∨ p = .out) →
    (mode.val = 1 → ownsLc s m.val lc.val = true) → s.rd .SHADOW_CMD_PENDING inst.val p.code ≠ 1 →
    ∃ t, exec (.shadowGo m p inst mode lc) s = .next t ∧ t.rd .SHADOW_CMD_PENDING inst.val p.code = 1 ∧
      t.commits = s.commits ++ [{ page := p, inst := inst.val, mode := mode.val, lc := lc.val }]) ∧
  (∀ (s : State) (m : Master) (p : Page) (inst : Chan) (lc : Lc), MayWrite s p inst.val m → pageExists p inst.val = true →
    writerOk s p 0x20 m.val = true →
    s.rd .SHADOW_CMD_PENDING inst.val p.code ≠ 1 → Inv s →
    ∃ t, exec (.shadowGo m p inst 0 lc) s = .next t ∧ t.rd .SHADOW_CMD_PENDING inst.val p.code = 1 ∧
      t.commits = s.commits ++ [{ page := p, inst := inst.val, mode := 0, lc := lc.val, due := some (s.osc : Rat), captured := true }] ∧
      (p = .cse → t.rdCap .CSE_GAIN_GAIN inst.val = s.rd .CSE_GAIN_GAIN inst.val ∧
        t.rdCap .CSE_OFFSET_OFFSET inst.val = s.rd .CSE_OFFSET_OFFSET inst.val)) ∧
  (∀ (s : State) (m : Master) (p : Page) (inst : Chan) (mode : Fin 4) (lc : Lc), MayWrite s p inst.val m →
    pageExists p inst.val = true → writerOk s p 0x20 m.val = true → (mode.val = 1 → ownsLc s m.val lc.val = true) →
    mode.val = 3 ∨ (mode.val = 2 ∧ p ≠ .cse ∧ p ≠ .out) ∨ s.rd .SHADOW_CMD_PENDING inst.val p.code = 1 →
    ∃ t, exec (.shadowGo m p inst mode lc) s = .next t ∧ t.rd .SHADOW_CMD_REFUSED inst.val p.code = 1 ∧ t.commits = s.commits ∧
      t.rd .SHADOW_CMD_PENDING inst.val p.code = s.rd .SHADOW_CMD_PENDING inst.val p.code) ∧
  (∀ (s : State) (m : Master) (p : Page) (inst : Chan) (lc : Lc), MayWrite s p inst.val m → pageExists p inst.val = true →
    writerOk s p 0x20 m.val = true →
    ownsLc s m.val lc.val = false →
    ∃ t, exec (.shadowGo m p inst 1 lc) s = .next t ∧ Recorded s t p inst.val errOwnerDenied m.val ∧ OnlyChanges (errors ++ wakes) s t) ∧
  (∀ (s : State) (m : Master) (p : Page) (inst : Chan) (x : Commit), MayWrite s p inst.val m → pageExists p inst.val = true →
    writerOk s p 0x20 m.val = true →
    s.commits = [x] → x.page = p → x.inst = inst.val → x.captured = false → s.rd .SHADOW_CMD_MODE inst.val p.code < 4 →
    s.rd .SHADOW_CMD_LC inst.val p.code < 64 →
    ∃ t, exec (.shadowCancel m p inst) s = .next t ∧ t.commits = [] ∧ t.rd .SHADOW_CMD_PENDING inst.val p.code = 0) ∧
  (∀ (s : State) (m : Master) (p : Page) (inst : Chan) (x : Commit), MayWrite s p inst.val m → pageExists p inst.val = true →
    writerOk s p 0x20 m.val = true →
    s.commits = [x] → x.captured = true → s.rd .SHADOW_CMD_MODE inst.val p.code < 4 → s.rd .SHADOW_CMD_LC inst.val p.code < 64 →
    ∃ t, exec (.shadowCancel m p inst) s = .next t ∧ t.commits = [x] ∧
      t.rd .SHADOW_CMD_PENDING inst.val p.code = s.rd .SHADOW_CMD_PENDING inst.val p.code) ∧
  (∀ (s : State) (c : Chan) (x : Commit), s.dev = .up → s.commits = [x] → x.page = .cse → x.inst = c.val → captureDue s x = true →
    Inv s →
    ∃ t, exec (.shadowCapture .cse c) s = .next t ∧ t.commits = [{ x with captured := true }] ∧
      t.rdCap .CSE_GAIN_GAIN c.val = s.rd .CSE_GAIN_GAIN c.val ∧ t.rdCap .CSE_OFFSET_OFFSET c.val = s.rd .CSE_OFFSET_OFFSET c.val) ∧
  (∀ (s : State) (c : Chan) (x : Commit), s.dev = .up → s.commits = [x] → x.page = .cse → x.inst = c.val → commitDue s x = true →
    Inv s →
    ∃ t, exec (.shadowCommitApply .cse c) s = .next t ∧ t.commits = [] ∧ t.rd .SHADOW_CMD_PENDING c.val (Page.code .cse) = 0 ∧
      t.rdEff .CSE_GAIN_GAIN c.val = s.rdCap .CSE_GAIN_GAIN c.val ∧ t.rdEff .CSE_OFFSET_OFFSET c.val = s.rdCap .CSE_OFFSET_OFFSET c.val ∧
      (x.late = true → t.rd .SHADOW_CMD_LATE c.val (Page.code .cse) = 1)) ∧
  (∀ (s : State) (c : Chan) (x : Commit), s.dev = .up → s.commits = [x] → x.page = .out → x.inst = c.val → commitDue s x = true →
    Inv s →
    ∃ t, exec (.shadowCommitApply .out c) s = .next t ∧ t.commits = [] ∧ t.rd .SHADOW_CMD_PENDING c.val (Page.code .out) = 0 ∧
      t.rdEff .OUT_FILTCTL_SHAPE c.val = s.rdCap .OUT_FILTCTL_SHAPE c.val ∧
      t.rdEff .OUT_UPDCTL_MODE c.val = s.rdCap .OUT_UPDCTL_MODE c.val ∧
      (x.late = true → t.rd .SHADOW_CMD_LATE c.val (Page.code .out) = 1)) ∧
  (∀ (s : State) (m : Master) (p : Page) (inst : Chan) (mode : Fin 4) (lc : Lc), s.dev = .up → pageExists p inst.val = true →
    accessOk s p inst.val m.val true = false ∨ writerOk s p 0x20 m.val = false →
    ∃ t, exec (.shadowGo m p inst mode lc) s = .next t ∧ Recorded s t p inst.val errOwnerDenied m.val ∧
      OnlyChanges (errors ++ wakes) s t) ∧
  (∀ (s : State) (m : Master) (p : Page) (inst : Chan), s.dev = .up → pageExists p inst.val = true →
    accessOk s p inst.val m.val true = false ∨ writerOk s p 0x20 m.val = false →
    ∃ t, exec (.shadowCancel m p inst) s = .next t ∧ Recorded s t p inst.val errOwnerDenied m.val ∧ OnlyChanges (errors ++ wakes) s t)

/-- With no earlier access of its master waiting, an accepted request joins its port's queue with its master, its address, the tick and,
for a read, the bytes it finds, and its unit accesses join theirs; with no cell error a write to words that are not poisoned has stored
its bytes at its address and no other. A denied one, or during a reshape one sent to RETRY, is recorded and joins nothing. A slot serves
the pick: an access to an open row leaves its queue, another activates its row, and one that reaches RD_THR throttles its port and
raises RD_THROTTLE; without a pick it does nothing. A request whose units are served completes, a read after the earlier reads of its
master: it answers the bytes it found, or free values of a rank that did not respond, counts a miss above its target, and POISON for a
host; cell errors that come with it then stand in their words. The registers of a port follow its queue and what waits; one at urgency 3
aborts an entry. Idle rows close; a refresh closes all rows and stalls until it ends, and is skipped in a drain; hot rows are refreshed
in order; the window reset clears trackers and throttles. (Rests on 09_quarry.md R276, R278, R279, R280, R281, R282, R283, R285, R287,
R288, R290, R300, R301.) -/
def Obligations.QuarryRequests : Prop :=
  (∀ (s : State) (m : Master) (a : BitVec 40) (n : BitVec 12) (r : QReq), s.dev = .up → quarryReady s = true → Unwaited s m.val →
    0 < n.toNat → quarryBase ≤ a.toNat → memAllowed s m.val .read a.toNat n.toNat = true → s.mustRetry a.toNat = false →
    r = ⟨s.qry.nextId, portOf m.val, m.val, false, a.toNat, n.toNat, s.osc, s.bytes a.toNat n.toNat, s.anyPoison a.toNat n.toNat⟩ →
    ∃ t, exec (.quarryRequestAccept m false a n []) s = .next t ∧ t.mem = s.mem ∧ t.qry.nextId = s.qry.nextId + 1 ∧
      t.qry.reqs = s.qry.reqs ++ [r] ∧ t.qry.units = s.qry.units ++ splitUnits s r) ∧
  (∀ (s : State) (m : Master) (a : BitVec 40) (data : List Byte) (r : QReq), s.dev = .up → CleanCells s → quarryReady s = true →
    Unwaited s m.val → 0 < data.length → quarryBase ≤ a.toNat → memAllowed s m.val .write a.toNat data.length = true →
    s.mustRetry a.toNat = false → s.anyPoison a.toNat data.length = false →
    r = ⟨s.qry.nextId, portOf m.val, m.val, true, a.toNat, data.length, s.osc, [], false⟩ →
    ∃ t, exec (.quarryRequestAccept m true a 0 data) s = .next t ∧ t.bytes a.toNat data.length = data ∧
      t.qry.nextId = s.qry.nextId + 1 ∧ t.qry.reqs = s.qry.reqs ++ [r] ∧ t.qry.units = s.qry.units ++ splitUnits s r ∧
      ∀ b : Nat, b < a.toNat ∨ a.toNat + data.length ≤ b → t.byte b = s.byte b) ∧
  (∀ (s : State) (m : Master) (a : BitVec 40) (n : BitVec 12), s.dev = .up → quarryReady s = true → Unwaited s m.val → 0 < n.toNat →
    quarryBase ≤ a.toNat → a.toNat + n.toNat ≤ firmwareEnd →
    memAllowed s m.val .read a.toNat n.toNat = false ∨ s.mustRetry a.toNat = true →
    ∃ t, exec (.quarryRequestAccept m false a n []) s = .next t ∧ t.mem = s.mem ∧ t.qry = s.qry ∧
      Recorded s t .quarry 0 (if memAllowed s m.val .read a.toNat n.toNat then errRetry else errRegionDenied) m.val) ∧
  (∀ (s : State) (m : Master) (a : BitVec 40) (data : List Byte), s.dev = .up → quarryReady s = true → Unwaited s m.val →
    0 < data.length → quarryBase ≤ a.toNat → a.toNat + data.length ≤ firmwareEnd →
    memAllowed s m.val .write a.toNat data.length = false ∨ s.mustRetry a.toNat = true →
    ∃ t, exec (.quarryRequestAccept m true a 0 data) s = .next t ∧ t.mem = s.mem ∧ t.qry = s.qry ∧
      Recorded s t .quarry 0 (if memAllowed s m.val .write a.toNat data.length then errRetry else errRegionDenied) m.val) ∧
  (∀ (s : State) (ch : Fin 4), s.dev = .up → served s = false ∨ pick s ch.val = none → exec (.quarryCommandSlot ch) s = .next s) ∧
  (∀ (s : State) (ch : Fin 4) (u : QUnit), s.dev = .up → served s = true → pick s ch.val = some u → rowHit s u = true →
    ∃ t, exec (.quarryCommandSlot ch) s = .next t ∧ t.qry.units = s.qry.units.erase u ∧
      (bankOf t u.rank u.bank).hits = (bankOf s u.rank u.bank).hits + 1 ∧ (bankOf t u.rank u.bank).last = s.osc ∧ t.mem = s.mem) ∧
  (∀ (s : State) (ch : Fin 4) (u : QUnit), s.dev = .up → served s = true → pick s ch.val = some u → rowHit s u = false →
    ∃ t, exec (.quarryCommandSlot ch) s = .next t ∧ t.qry.units = s.qry.units ∧ (bankOf t u.rank u.bank).row = some u.row ∧
      (max 1 (s.rd .QUARRY_RD_CFG_RD_THR) ≤ ((bankOf s u.rank u.bank).count u.row).1 →
        t.rd .QUARRY_RD_STAT_THROTTLED 0 0 u.port = 1 ∧ Raised t .quarry 0 7 ∧
        t.rd .QUARRY_RD_STAT_EVENTS = satAdd (Reg.width .QUARRY_RD_STAT_EVENTS) (s.rd .QUARRY_RD_STAT_EVENTS) 1)) ∧
  (∀ (s : State) (r : QReq) (ce ue : List EccPlace) (dead : Option (Fin 8)), s.dev = .up →
    s.qry.reqs.find? (fun x => x.id == r.id) = some r →
    s.qry.units.any (fun u => u.id == r.id) = true ∨ readsBefore s r = true →
    exec (.quarryRequestComplete r.id ce ue dead) s = .next s) ∧
  (∀ (s : State) (r : QReq) (ce ue : List EccPlace), s.dev = .up →
    s.qry.reqs.find? (fun x => x.id == r.id) = some r →
    s.qry.units.any (fun u => u.id == r.id) = false → readsBefore s r = false → r.write = false →
    ∃ t, exec (.quarryRequestComplete r.id ce ue none) s = .next t ∧ t.readData = r.data ∧ t.qry.reqs = s.qry.reqs.erase r ∧ t.mem = s.mem ∧
      t.rd .QUARRY_PORT_MISS_COUNT 0 r.port = (if targetTicks s r.port < s.osc - r.at_ then
        satAdd (Reg.width .QUARRY_PORT_MISS_COUNT) (s.rd .QUARRY_PORT_MISS_COUNT 0 r.port) 1 else s.rd .QUARRY_PORT_MISS_COUNT 0 r.port) ∧
      (r.master ≤ 1 → r.poison = true → Recorded s t .quarry 0 errPoison r.master) ∧
      (∀ x ∈ ue, rowReady s x.1.val (x.2.1.val / 7) = true → 2 ≤ Store.get 0 t.qry.flaws (flawKey x.1.val x.2.1.val x.2.2.val)) ∧
      ∀ x ∈ ce, rowReady s x.1.val (x.2.1.val / 7) = true → 1 ≤ Store.get 0 t.qry.flaws (flawKey x.1.val x.2.1.val x.2.2.val)) ∧
  (∀ (s : State) (r : QReq) (ce ue : List EccPlace) (p : Fin 8), s.dev = .up →
    s.qry.reqs.find? (fun x => x.id == r.id) = some r →
    s.qry.units.any (fun u => u.id == r.id) = false → readsBefore s r = false → r.write = false →
    ∃ t, exec (.quarryRequestComplete r.id ce ue (some p)) s = .next t ∧ t.readData = (upTo r.len).map (Config.lostByte s.free) ∧
      t.qry.reqs = s.qry.reqs.erase r ∧ t.mem = s.mem ∧ (r.master ≤ 1 → Recorded s t .quarry 0 errPoison r.master)) ∧
  (∀ (s : State) (r : QReq) (ce ue : List EccPlace) (dead : Option (Fin 8)), s.dev = .up →
    s.qry.reqs.find? (fun x => x.id == r.id) = some r →
    s.qry.units.any (fun u => u.id == r.id) = false → r.write = true →
    ∃ t, exec (.quarryRequestComplete r.id ce ue dead) s = .next t ∧ t.qry.reqs = s.qry.reqs.erase r ∧ t.mem = s.mem ∧
      t.readData = s.readData) ∧
  (∀ (s : State) (p : Fin 8), s.dev = .up →
    ∃ t, exec (.urgencyRise p) s = .next t ∧ t.rd .QUARRY_PORT_STAT_URG 0 p.val =
        (s.qry.waiting.filter (fun x => portOf x.master == p.val)).foldl
          (fun m x => max m (urgencyOf (s.osc - x.at_) (targetTicks s p.val)))
          ((s.qry.units.filter (fun u => u.port == p.val)).foldl (fun m u => max m (urgency s u)) 0) ∧
      t.rd .QUARRY_PORT_STAT_OUTSTANDING 0 p.val = min 255 ((s.qry.reqs.filter (fun r => r.port == p.val)).length +
        (s.qry.waiting.filter (fun x => portOf x.master == p.val)).length) ∧
      (s.qry.op = .drain → s.qry.opForced = false → anyUrgent s 3 = true → t.qry.op = .aborted ∧ Raised t .quarry 0 6)) ∧
  (∀ (s : State) (r : Fin 8) (k : Fin 16), s.dev = .up → (bankOf s r.val k.val).row ≠ none →
    (bankOf s r.val k.val).last + 4 * s.rd .QUARRY_QRY_CFG_PAGE_IDLE ≤ s.osc →
    ∃ t, exec (.rowIdleClose r k) s = .next t ∧ (bankOf t r.val k.val).row = none) ∧
  (∀ s : State, s.dev = .up → served s = true → s.qry.lastRefresh + 1560 ≤ s.osc → s.qry.op ≠ .drain →
    ∃ t, exec .refresh s = .next t ∧ t.qry.refreshing = true ∧ t.qry.lastRefresh = s.osc ∧
      ∀ i : Nat, i < 8 → ∀ k : Nat, k < 16 → (bankOf t i k).row = none) ∧
  (∀ s : State, s.dev = .up → served s = true → s.qry.lastRefresh + 1560 ≤ s.osc → s.qry.op = .drain →
    ∃ t, exec .refresh s = .next t ∧ t = { s with qry := { s.qry with lastRefresh := s.osc } }) ∧
  (∀ s : State, s.dev = .up → s.qry.refreshing = true →
    ∃ t, exec .refreshEnd s = .next t ∧ t.qry.refreshing = false ∧ t.qry.waiting = [] ∧
      (s.qry.waiting = [] → s.ben.held = [] → t = { s with qry := { s.qry with refreshing := false } })) ∧
  (∀ (s : State) (r : Fin 8) (k : Fin 16), s.dev = .up →
    ∃ t, exec (.rdNeighborRefresh r k) s = .next t ∧
      (bankOf t r.val k.val).mitigate = (bankOf s r.val k.val).mitigate.drop 1) ∧
  (∀ s : State, s.dev = .up → s.now % 12800000 = 0 →
    ∃ t, exec .rdWindowReset s = .next t ∧
      (∀ i : Nat, i < 8 → ∀ k : Nat, k < 16 → (bankOf t i k).entries = [] ∧ (bankOf t i k).floor = 0 ∧
        (bankOf t i k).throttled = []) ∧
      ∀ p : Nat, p < 8 → t.rd .QUARRY_RD_STAT_THROTTLED 0 0 p = 0 ∧ t.rd .QUARRY_PORT_STAT_THROTTLED 0 p = 0)

/-- The scrub of a word without error, already poisoned or of a row not initialised changes nothing; an error that the code corrects is
mended and counted; one that it cannot makes the word poisoned, with its address, is counted and raises UE. The initialisation makes its
row ready; its end shows INIT_DONE. A host's migration of a rank in service with a free spare makes the spare the target and the rank
the source, at unit 0; without a spare it is refused with SPARE_IN_USE, of no such rank with PREPARE_FAILED, and by other masters with
OWNER_DENIED. A waiting failure starts its own, or retires its rank when the spare has gone. Each copy within the rate moves on one unit
and changes no byte; with no cell error the target's words of that unit are poisoned as the source's. After the last unit the target
holds the logical rank, the source is retired and MIG_DONE is raised. A keyed reshape of degraded Quarry lays the space out over the
active ranks, empty, and leaves the benches alone; one without the key changes nothing of Quarry, and one of Quarry not degraded is
refused; its end raises RESHAPE_DONE. (Rests on 09_quarry.md R276, R289, R291, R292, R293, R294, R295, R296, R298.) -/
def Obligations.QuarryRanks : Prop :=
  (∀ (s : State) (p : Fin 8) (v : Fin (7 * 2 ^ 22)) (w : Fin 4) (r : Fin 3), s.dev = .up →
    served s = false ∨ s.rd .QUARRY_QRY_CFG_SCRUB_EN ≠ 1 ∨ rowReady s p.val (v.val / 7) = false ∨
      max (Store.get 0 s.qry.flaws (flawKey p.val v.val w.val)) r.val = 0 ∨ (wordPoisoned s p.val v.val w.val = true ∧ r.val = 0) →
    exec (.quarryScrub p v w r) s = .next s) ∧
  (∀ (s : State) (p : Fin 8) (v : Fin (7 * 2 ^ 22)) (w : Fin 4) (r : Fin 3), s.dev = .up → served s = true →
    s.rd .QUARRY_QRY_CFG_SCRUB_EN = 1 → max (Store.get 0 s.qry.flaws (flawKey p.val v.val w.val)) r.val = 1 → rowReady s p.val (v.val / 7) = true →
    wordPoisoned s p.val v.val w.val = false →
    ∃ t, exec (.quarryScrub p v w r) s = .next t ∧ t.mem = s.mem ∧ Store.get 0 t.qry.flaws (flawKey p.val v.val w.val) = 0 ∧
      t.rd .QUARRY_ECC_CNT_CE = satAdd (Reg.width .QUARRY_ECC_CNT_CE) (s.rd .QUARRY_ECC_CNT_CE) 1) ∧
  (∀ (s : State) (p : Fin 8) (v : Fin (7 * 2 ^ 22)) (w : Fin 4) (r : Fin 3), s.dev = .up → served s = true →
    s.rd .QUARRY_QRY_CFG_SCRUB_EN = 1 → 2 ≤ max (Store.get 0 s.qry.flaws (flawKey p.val v.val w.val)) r.val → rowReady s p.val (v.val / 7) = true →
    wordPoisoned s p.val v.val w.val = false →
    ∃ t, exec (.quarryScrub p v w r) s = .next t ∧ t.mem = s.mem ∧ wordPoisoned t p.val v.val w.val = true ∧ Raised t .quarry 0 1 ∧
      t.rd .QUARRY_ECC_CNT_UE = satAdd (Reg.width .QUARRY_ECC_CNT_UE) (s.rd .QUARRY_ECC_CNT_UE) 1 ∧
      (holds s p.val ≠ none →
        t.rd .QUARRY_UE_ADDR_LO_ADDR = unitAddr s ((holds s p.val).getD 0) v.val w.val % 2 ^ 32)) ∧
  (∀ (s : State) (p : Fin 8) (w : BitVec 22), s.dev = .up → served s = true → s.rd .QUARRY_STATUS_INIT_DONE = 0 →
    ∃ t, exec (.initPass p w) s = .next t ∧ rowReady t p.val w.toNat = true ∧ t.mem = s.mem) ∧
  (∀ s : State, s.dev = .up → quarryReady s = true → s.rd .QUARRY_STATUS_INIT_DONE = 0 →
    ∃ t, exec .initDone s = .next t ∧ t.rd .QUARRY_STATUS_INIT_DONE = 1 ∧ t.rd .QUARRY_INIT_PROG_PERCENT = 100 ∧
      t.qry.initAll = true ∧ Raised t .quarry 0 10) ∧
  (∀ (s : State) (m : Master) (lg : Fin 8), MayWrite s .quarry 0 m → m.val ≤ 2 → rankSpareFree s = true → migrating s = false →
    lg.val < 7 → lrMap s lg.val ≠ 15 → lrMap s lg.val ≠ s.rd .QUARRY_LRMAP_SPARE →
    ∃ t, exec (.migrationStart (some (m, lg))) s = .next t ∧ migrating t = true ∧ rankState t (s.rd .QUARRY_LRMAP_SPARE) = 3 ∧
      rankState t (lrMap s lg.val) = 2 ∧ t.rd .QUARRY_LRMAP_SPARE = 15 ∧ t.rd .QUARRY_MIG_PTR_UNIT = 0 ∧
      t.rd .QUARRY_MIG_PTR_LGRANK = lg.val ∧ t.rd .QUARRY_MIG_PTR_CAUSE = 3 ∧ Raised t .quarry 0 2) ∧
  (∀ (s : State) (m : Master) (lg : Fin 8), MayWrite s .quarry 0 m → m.val ≤ 2 →
    rankSpareFree s = false ∨ migrating s = true →
    ∃ t, exec (.migrationStart (some (m, lg))) s = .next t ∧ t.qry = s.qry ∧ migrating t = migrating s ∧
      Recorded s t .quarry 0 errSpareInUse m.val) ∧
  (∀ (s : State) (m : Master) (lg : Fin 8), MayWrite s .quarry 0 m → m.val ≤ 2 → rankSpareFree s = true → migrating s = false →
    7 ≤ lg.val ∨ lrMap s lg.val = 15 →
    ∃ t, exec (.migrationStart (some (m, lg))) s = .next t ∧ t.qry = s.qry ∧ migrating t = false ∧
      Recorded s t .quarry 0 errPrepareFailed m.val) ∧
  (∀ (s : State) (m : Master) (lg : Fin 8), s.dev = .up → accessOk s .quarry 0 m.val true = false ∨ 2 < m.val →
    ∃ t, exec (.migrationStart (some (m, lg))) s = .next t ∧ Recorded s t .quarry 0 errOwnerDenied m.val ∧
      OnlyChanges (errors ++ wakes) s t) ∧
  (∀ (s : State) (p cause lg : Nat) (rest : List (Nat × Nat)), s.dev = .up → s.qry.fails = (p, cause) :: rest → holds s p = some lg →
    s.rd .QUARRY_LRMAP_SPARE ≠ 15 → migrating s = false →
    ∃ t, exec (.migrationStart none) s = .next t ∧ migrating t = true ∧ t.qry.fails = rest ∧
      t.rd .QUARRY_MIG_PTR_LGRANK = lg ∧ t.rd .QUARRY_MIG_PTR_UNIT = 0 ∧ Raised t .quarry 0 2) ∧
  (∀ (s : State) (p cause lg : Nat) (rest : List (Nat × Nat)), s.dev = .up → s.qry.fails = (p, cause) :: rest → holds s p = some lg →
    s.rd .QUARRY_LRMAP_SPARE = 15 ∨ migrating s = true →
    ∃ t, exec (.migrationStart none) s = .next t ∧ migrating t = migrating s ∧ t.qry.fails = rest ∧ rankState t p = 4 ∧
      lrMap t lg = 15 ∧ Raised t .quarry 0 4) ∧
  (∀ (s : State) (dead : Bool) (flaws : List (Fin 4 × Bool)), s.dev = .up → served s = true → migrating s = true →
    s.rd .QUARRY_MIG_PTR_UNIT < unitsPerRank → copyMay s = true →
    ∃ t, exec (.migrationUnitCopy dead flaws) s = .next t ∧ t.rd .QUARRY_MIG_PTR_UNIT = s.rd .QUARRY_MIG_PTR_UNIT + 1 ∧ t.mem = s.mem) ∧
  (∀ (s : State) (p r v : Nat), s.dev = .up → CleanCells s → served s = true → migrating s = true →
    v = s.rd .QUARRY_MIG_PTR_UNIT → v < unitsPerRank → copyMay s = true → p = lrMap s (s.rd .QUARRY_MIG_PTR_LGRANK) →
    migTarget s = some r → r ≠ p → rowReady s p (v / 7) = true →
    ∃ t, exec (.migrationUnitCopy false []) s = .next t ∧
      ∀ w : Nat, w < 4 → wordPoisoned t r v w = wordPoisoned s p v w) ∧
  (∀ (s : State) (dead : Bool) (flaws : List (Fin 4 × Bool)), s.dev = .up → served s = false ∨ migrating s = false ∨ copyMay s = false →
    exec (.migrationUnitCopy dead flaws) s = .next s) ∧
  (∀ (s : State) (r : Nat), s.dev = .up → served s = true → migrating s = true → s.rd .QUARRY_MIG_PTR_UNIT = unitsPerRank →
    migTarget s = some r → lrMap s (s.rd .QUARRY_MIG_PTR_LGRANK) ≠ r →
    ∃ t, exec .migrationSwitchover s = .next t ∧ migrating t = false ∧ lrMap t (s.rd .QUARRY_MIG_PTR_LGRANK) = r ∧
      rankState t r = 0 ∧ rankState t (lrMap s (s.rd .QUARRY_MIG_PTR_LGRANK)) = 4 ∧ Raised t .quarry 0 3 ∧ t.mem = s.mem) ∧
  (∀ (s : State) (m : Master), MayWrite s .quarry 0 m → m.val ≤ 2 → s.rd .QUARRY_STATUS_DEGRADED ≠ 0 → migrating s = false →
    s.rd .QUARRY_STATUS_RESHAPING ≠ 1 → activeRanks s ≠ [] →
    ∃ t, exec (.reshape m 0x5A) s = .next t ∧ t.rd .QUARRY_STATUS_RESHAPING = 1 ∧ t.rd .QUARRY_STATUS_DEGRADED = 0 ∧
      t.rd .QUARRY_CAPACITY_N_ACTIVE = (activeRanks s).length ∧
      t.rd .QUARRY_CAPACITY_WAVE_GIB = 7 * (activeRanks s).length - 1 ∧ t.rd .QUARRY_STATUS_INIT_DONE = 0 ∧
      t.qry.reqs = [] ∧ t.qry.units = [] ∧ (∀ b : Nat, quarryBase ≤ b → t.byte b = 0) ∧
      (∀ b : Nat, inBench b 1 = true → t.byte b = s.byte b)) ∧
  (∀ (s : State) (m : Master), MayWrite s .quarry 0 m → m.val ≤ 2 → s.rd .QUARRY_STATUS_DEGRADED = 0 →
    ∃ t, exec (.reshape m 0x5A) s = .next t ∧ Recorded s t .quarry 0 errPrepareFailed m.val ∧ t.mem = s.mem ∧ t.qry = s.qry) ∧
  (∀ (s : State) (m : Master) (k : Byte), MayWrite s .quarry 0 m → m.val ≤ 2 → k.toNat ≠ 0x5A →
    ∃ t, exec (.reshape m k) s = .next t ∧ t.mem = s.mem ∧ t.qry = s.qry ∧
      t.rd .QUARRY_STATUS_RESHAPING = s.rd .QUARRY_STATUS_RESHAPING) ∧
  (∀ s : State, s.dev = .up → s.rd .QUARRY_STATUS_RESHAPING = 1 →
    ∃ t, exec .reshapeDone s = .next t ∧ t.rd .QUARRY_STATUS_RESHAPING = 0 ∧ Raised t .quarry 0 9)

/-- A request for another point whose inactive set is valid becomes pending and starts to drain at once, or waits for a comparator that
its writer owns; one for point 3 or whose set is not valid is refused with PREPARE_FAILED, one that names another's comparator with
OWNER_DENIED; one while another is pending, or for the present point, changes no phase. The commit enters self-refresh with all rows
closed; an urgent request aborts the entry instead, with OP_ABORT. An aborted entry restarts once nothing is urgent or its aborts are
spent, and not before. The change done, the new point and set are in effect and OP_DONE is raised. Firmware's training run shows BUSY
and its end the result; in modes that do not exist, or while one runs, it only stores MODE; on a rank in service it is refused, and
other masters are denied. A drift that is due moves the read and write delays of the active set by at most 8 steps and keeps the
largest; a larger one raises DRIFT_LIMIT. (Rests on 02_timebase_sync.md R50, 09_quarry.md R299, R300, R301, R303, R304.) -/
def Obligations.QuarryOperatingPoints : Prop :=
  (∀ (s : State) (m : Master) (v : Word), MayWrite s .quarry 0 m → m.val ≤ 2 → bit v.toNat 2 = 1 → bit v.toNat 3 = 0 →
    s.rd .QUARRY_STATUS_OP_PENDING ≠ 1 → bits v.toNat 1 0 ≠ 3 → bits v.toNat 1 0 ≠ s.rd .QUARRY_STATUS_OP_NOW →
    inactiveSetFor s (bits v.toNat 1 0) = true →
    ∃ t, exec (.opChangeRequest m v) s = .next t ∧ t.rd .QUARRY_STATUS_OP_PENDING = 1 ∧ t.qry.op = .drain ∧
      t.qry.opTarget = bits v.toNat 1 0 ∧ t.qry.opForced = decide (bits v.toNat 19 16 = 0)) ∧
  (∀ (s : State) (m : Master) (v : Word), MayWrite s .quarry 0 m → m.val ≤ 2 → bit v.toNat 2 = 1 → bit v.toNat 3 = 1 →
    ownsLc s m.val (bits v.toNat 9 4) = true → s.rd .QUARRY_STATUS_OP_PENDING ≠ 1 → bits v.toNat 1 0 ≠ 3 →
    bits v.toNat 1 0 ≠ s.rd .QUARRY_STATUS_OP_NOW → inactiveSetFor s (bits v.toNat 1 0) = true →
    ∃ t, exec (.opChangeRequest m v) s = .next t ∧ t.rd .QUARRY_STATUS_OP_PENDING = 1 ∧ t.qry.op = .waitLc ∧
      t.qry.opLc = bits v.toNat 9 4) ∧
  (∀ (s : State) (m : Master) (v : Word), MayWrite s .quarry 0 m → m.val ≤ 2 → bit v.toNat 2 = 1 → bit v.toNat 3 = 0 →
    s.rd .QUARRY_STATUS_OP_PENDING ≠ 1 → bits v.toNat 1 0 ≠ s.rd .QUARRY_STATUS_OP_NOW ∨ bits v.toNat 1 0 = 3 →
    bits v.toNat 1 0 = 3 ∨ inactiveSetFor s (bits v.toNat 1 0) = false →
    ∃ t, exec (.opChangeRequest m v) s = .next t ∧ t.qry = s.qry ∧ Recorded s t .quarry 0 errPrepareFailed m.val) ∧
  (∀ (s : State) (m : Master) (v : Word), MayWrite s .quarry 0 m → m.val ≤ 2 → bit v.toNat 2 = 1 → bit v.toNat 3 = 1 →
    ownsLc s m.val (bits v.toNat 9 4) = false →
    ∃ t, exec (.opChangeRequest m v) s = .next t ∧ t.qry = s.qry ∧ Recorded s t .quarry 0 errOwnerDenied m.val) ∧
  (∀ (s : State) (m : Master) (v : Word), MayWrite s .quarry 0 m → m.val ≤ 2 → bit v.toNat 3 = 0 →
    bit v.toNat 2 = 0 ∨ s.rd .QUARRY_STATUS_OP_PENDING = 1 ∨
      (bits v.toNat 1 0 = s.rd .QUARRY_STATUS_OP_NOW ∧ bits v.toNat 1 0 ≠ 3) →
    ∃ t, exec (.opChangeRequest m v) s = .next t ∧ t.qry = s.qry ∧
      t.rd .QUARRY_STATUS_OP_PENDING = s.rd .QUARRY_STATUS_OP_PENDING) ∧
  (∀ s : State, s.dev = .up → served s = true → s.qry.op = .drain → s.qry.opForced = true ∨ anyUrgent s 3 = false →
    ∃ t, exec .opCommit s = .next t ∧ t.qry.op = .outage ∧ t.rd .QUARRY_STATUS_SELF_REFRESH = 1 ∧
      ∀ i : Nat, i < 8 → ∀ k : Nat, k < 16 → (bankOf t i k).row = none) ∧
  (∀ s : State, s.dev = .up → served s = true → s.qry.op = .drain → s.qry.opForced = false → anyUrgent s 3 = true →
    ∃ t, exec .opCommit s = .next t ∧ t.qry.op = .aborted ∧ Raised t .quarry 0 6 ∧
      t.rd .QUARRY_OP_STAT_ABORTS = satAdd (Reg.width .QUARRY_OP_STAT_ABORTS) (s.rd .QUARRY_OP_STAT_ABORTS) 1) ∧
  (∀ s : State, s.dev = .up → s.qry.op = .aborted → s.rd .QUARRY_OP_STAT_ABORTS < s.rd .QUARRY_OPCTL_ABORT_MAX → anyUrgent s 2 = true →
    exec .opEntryRestart s = .next s) ∧
  (∀ s : State, s.dev = .up → s.qry.op = .aborted →
    anyUrgent s 2 = false ∨ s.rd .QUARRY_OPCTL_ABORT_MAX ≤ s.rd .QUARRY_OP_STAT_ABORTS →
    ∃ t, exec .opEntryRestart s = .next t ∧ t.qry.op = .drain ∧
      (s.rd .QUARRY_OPCTL_ABORT_MAX ≤ s.rd .QUARRY_OP_STAT_ABORTS → t.rd .QUARRY_OP_STAT_FORCED = 1 ∧ t.qry.opForced = true)) ∧
  (∀ s : State, s.dev = .up → s.qry.op = .outage →
    ∃ t, exec .opDone s = .next t ∧ t.qry.op = .idle ∧ t.rd .QUARRY_STATUS_OP_NOW = s.qry.opTarget % 4 ∧
      t.rd .QUARRY_STATUS_OP_PENDING = 0 ∧ t.rd .QUARRY_STATUS_SELF_REFRESH = 0 ∧
      t.rd .QPHY_TSET_CTL_ACTIVE = 1 - s.rd .QPHY_TSET_CTL_ACTIVE ∧ Raised t .quarry 0 5) ∧
  (∀ (s : State) (mode : Fin 8), MayWrite s .qphy 0 2 →
    quarryReady s = false ∨ rankState s (2 * s.rd .QPHY_TRN_SEL_CH + s.rd .QPHY_TRN_SEL_CS) = 1 ∨
      rankState s (2 * s.rd .QPHY_TRN_SEL_CH + s.rd .QPHY_TRN_SEL_CS) = 4 → 1 ≤ mode.val → mode.val ≤ 4 →
    s.rd .QPHY_CMP_STAT_BUSY ≠ 1 →
    ∃ t, exec (.trainingRun 2 mode) s = .next t ∧ t.rd .QPHY_CMP_STAT_BUSY = 1 ∧ t.rd .QPHY_CMP_STAT_DONE = 0 ∧
      t.rd .QPHY_STATUS_TRAINING = 1 ∧ t.rd .QPHY_TRN_CTL_MODE = mode.val) ∧
  (∀ (s : State) (mode : Fin 8), MayWrite s .qphy 0 2 → quarryReady s = true →
    rankState s (2 * s.rd .QPHY_TRN_SEL_CH + s.rd .QPHY_TRN_SEL_CS) ≠ 1 →
    rankState s (2 * s.rd .QPHY_TRN_SEL_CH + s.rd .QPHY_TRN_SEL_CS) ≠ 4 →
    ∃ t, exec (.trainingRun 2 mode) s = .next t ∧ Recorded s t .qphy 0 errPrepareFailed 2 ∧
      t.rd .QPHY_CMP_STAT_BUSY = s.rd .QPHY_CMP_STAT_BUSY) ∧
  (∀ (s : State) (m : Master) (mode : Fin 8), s.dev = .up → m.val ≠ 2 →
    ∃ t, exec (.trainingRun m mode) s = .next t ∧ Recorded s t .qphy 0 errOwnerDenied m.val ∧ OnlyChanges (errors ++ wakes) s t) ∧
  (∀ (s : State) (mode : Fin 8), MayWrite s .qphy 0 2 → quarryReady s = false →
    mode.val = 0 ∨ 4 < mode.val ∨ s.rd .QPHY_CMP_STAT_BUSY = 1 →
    ∃ t, exec (.trainingRun 2 mode) s = .next t ∧ t.rd .QPHY_CMP_STAT_BUSY = s.rd .QPHY_CMP_STAT_BUSY ∧
      t.rd .QPHY_TRN_CTL_MODE = mode.val) ∧
  (∀ (s : State) (fail : BitVec 16) (errs : Word), s.dev = .up → s.rd .QPHY_CMP_STAT_BUSY = 1 →
    ∃ t, exec (.trainingRunDone fail errs) s = .next t ∧ t.rd .QPHY_CMP_STAT_FAIL = fail.toNat ∧ t.rd .QPHY_CMP_STAT_DONE = 1 ∧
      t.rd .QPHY_CMP_STAT_BUSY = 0 ∧ t.rd .QPHY_STATUS_TRAINING = 0 ∧ t.rd .QPHY_CMP_ERRCNT_COUNT = errs.toNat ∧
      Raised t .qphy 0 0) ∧
  (∀ (s : State) (p : Fin 8) (steps : BitVec 12) (op : Nat), s.dev = .up → s.qry.refreshing = true → driftDue s p.val = true →
    op = (if s.rd .QPHY_TSET_CTL_ACTIVE = 0 then s.rd .QPHY_TSET_CTL_A_OP else s.rd .QPHY_TSET_CTL_B_OP) →
    ∃ t, exec (.driftUpdate p steps) s = .next t ∧
      t.rd .QPHY_DRIFT_STAT_MAX_STEP = max (s.rd .QPHY_DRIFT_STAT_MAX_STEP) (min 255 (signed 12 steps.toNat).natAbs) % 2 ^ 8 ∧
      (8 < (signed 12 steps.toNat).natAbs → Raised t .qphy 0 2) ∧ ∀ kind : Nat, kind < 5 → 3 ≤ kind → ∀ i : Nat, i < 16 →
        dlyAt t (dlyKey (s.rd .QPHY_TSET_CTL_ACTIVE) (p.val / 2) (p.val % 2) op kind i) =
          (clampI 0 1023 (dlyAt s (dlyKey (s.rd .QPHY_TSET_CTL_ACTIVE) (p.val / 2) (p.val % 2) op kind i) +
            clampI (-8) 8 (signed 12 steps.toNat))).toNat) ∧
  (∀ (s : State) (p : Fin 8) (steps : BitVec 12), s.dev = .up → s.qry.refreshing = false ∨ driftDue s p.val = false →
    exec (.driftUpdate p steps) s = .next s)

/-- A raw command on a free port becomes busy with its opcode and direction; on a busy one it is refused. Its end takes a read's bytes
into RAW_DATA and raises RAW_DONE. A GO starts a RAW job with its destination and length, or in D0 an IMAGE job whose header and
directory pass; a head that fails stops the job with cause 6, one without a required signature with 8; while a job or an install runs a
GO or RESUME is refused. A resume keeps what is done. An abort ends a running job, with cause 1 where no further byte is copied, and
changes nothing of one that has ended; a bad NAND page stops with 5, a silent flash with 4 likewise, a bad entry with 7. An entry that
passes is counted. The last bytes of a RAW job, with no cell error, no earlier access waiting and no poisoned word, are stored in the
benches at their address, no other byte changes, and the job is done and, with no signature required, released; a denied access stops
with cause 2. An unsigned image is released; a signed one where its block verifies and its version reaches the floor, else it stops with
cause 8 and raises an event of SEC. (Rests on 11_host_interface.md R353, R354, R355, R357, R358, R359, R360, 12_security_firmware.md
R381.) -/
def Obligations.LibraryPort : Prop :=
  (∀ (s : State) (m : Master) (v : Word), MayWrite s .xspi 0 m → m.val ≤ 2 → s.rd .XSPI_STATUS_RAW_BUSY ≠ 1 →
    s.rd .XSPI_LD_STAT_BUSY ≠ 1 →
    ∃ t, exec (.rawCommand m v) s = .next t ∧ t.rd .XSPI_STATUS_RAW_BUSY = 1 ∧ t.rd .XSPI_RAW_CMD_OP = bits v.toNat 7 0 ∧
      t.ldr.rawRead = (bit v.toNat 14 == 1) ∧ t.ldr.rawLen = min 8 (bits v.toNat 13 10)) ∧
  (∀ (s : State) (m : Master) (v : Word), MayWrite s .xspi 0 m → m.val ≤ 2 →
    s.rd .XSPI_STATUS_RAW_BUSY = 1 ∨ s.rd .XSPI_LD_STAT_BUSY = 1 →
    ∃ t, exec (.rawCommand m v) s = .next t ∧ t.rd .XSPI_RAW_CMD_REFUSED = 1 ∧ t.ldr = s.ldr ∧
      t.rd .XSPI_STATUS_RAW_BUSY = s.rd .XSPI_STATUS_RAW_BUSY) ∧
  (∀ (s : State) (d : Dword), s.dev = .up → s.rd .XSPI_STATUS_RAW_BUSY = 1 → xspiOn s = true → s.ldr.rawRead = true → s.ldr.rawLen ≤ 8 →
    Inv s →
    ∃ t, exec (.rawDone d) s = .next t ∧ t.rd64 .XSPI_RAW_DATA_LO_DATA .XSPI_RAW_DATA_HI_DATA =
        s.rd64 .XSPI_RAW_DATA_LO_DATA .XSPI_RAW_DATA_HI_DATA / 2 ^ (8 * s.ldr.rawLen) * 2 ^ (8 * s.ldr.rawLen) +
          d.toNat % 2 ^ (8 * s.ldr.rawLen) ∧
      t.rd .XSPI_STATUS_RAW_BUSY = 0 ∧ Raised t .xspi 0 2) ∧
  (∀ (s : State) (d : Dword), s.dev = .up → s.rd .XSPI_STATUS_RAW_BUSY = 1 → xspiOn s = true → s.ldr.rawRead = false →
    ∃ t, exec (.rawDone d) s = .next t ∧ t.rd .XSPI_RAW_DATA_LO_DATA = s.rd .XSPI_RAW_DATA_LO_DATA ∧
      t.rd .XSPI_RAW_DATA_HI_DATA = s.rd .XSPI_RAW_DATA_HI_DATA ∧ t.rd .XSPI_STATUS_RAW_BUSY = 0 ∧ Raised t .xspi 0 2) ∧
  (∀ (s : State) (m : Master) (head : List Byte), MayWrite s .xspi 0 m → m.val ≤ 2 → s.rd .XSPI_LD_STAT_BUSY = 0 →
    installing s = false →
    ∃ t, exec (.loaderGo m false head) s = .next t ∧ t.rd .XSPI_LD_STAT_BUSY = 1 ∧ t.rd .XSPI_LD_STAT_STOP = 0 ∧
      t.rd .XSPI_LD_DONE_BYTES = 0 ∧ t.ldr.image = false ∧ t.ldr.len = s.rd .XSPI_LD_LEN_BYTES ∧
      t.ldr.dst = s.rd64 .XSPI_LD_DST_LO_ADDR .XSPI_LD_DST_HI_ADDR ∧ t.mem = s.mem) ∧
  (∀ (s : State) (m : Master) (head : List Byte), MayWrite s .xspi 0 m → m.val ≤ 2 → s.rd .XSPI_LD_STAT_BUSY = 0 →
    installing s = false → xspiOn s = true → imageOk s head = true → s.rd .XSPI_LD_CTL_SIG_REQ ≠ 1 ∨ imageSigned head = true →
    ∃ t, exec (.loaderGo m true head) s = .next t ∧ t.rd .XSPI_LD_STAT_BUSY = 1 ∧ t.ldr.headDue = false ∧
      t.ldr.dir = directory head ∧ t.rd .XSPI_LD_ENTRIES_COUNT = 0 ∧ t.mem = s.mem) ∧
  (∀ (s : State) (m : Master) (head : List Byte), MayWrite s .xspi 0 m → m.val ≤ 2 → s.rd .XSPI_LD_STAT_BUSY = 0 →
    installing s = false → xspiOn s = true → imageOk s head = false →
    ∃ t, exec (.loaderGo m true head) s = .next t ∧ t.rd .XSPI_LD_STAT_BUSY = 0 ∧ t.rd .XSPI_LD_STAT_STOP = 6 ∧
      Raised t .xspi 0 1 ∧ t.mem = s.mem) ∧
  (∀ (s : State) (m : Master) (head : List Byte), MayWrite s .xspi 0 m → m.val ≤ 2 → s.rd .XSPI_LD_STAT_BUSY = 0 →
    installing s = false → xspiOn s = true → imageOk s head = true → s.rd .XSPI_LD_CTL_SIG_REQ = 1 → imageSigned head = false →
    ∃ t, exec (.loaderGo m true head) s = .next t ∧ t.rd .XSPI_LD_STAT_BUSY = 0 ∧ t.rd .XSPI_LD_STAT_STOP = 8 ∧
      Raised t .xspi 0 1 ∧ t.mem = s.mem) ∧
  (∀ (s : State) (m : Master) (image : Bool) (head : List Byte), MayWrite s .xspi 0 m → m.val ≤ 2 →
    s.rd .XSPI_LD_STAT_BUSY = 1 ∨ installing s = true →
    ∃ t, exec (.loaderGo m image head) s = .next t ∧ t.rd .XSPI_LD_STAT_REFUSED = 1 ∧ t.ldr = s.ldr ∧
      t.rd .XSPI_LD_STAT_BUSY = s.rd .XSPI_LD_STAT_BUSY ∧ t.mem = s.mem) ∧
  (∀ (s : State) (m : Master) (image : Bool) (head : List Byte), MayWrite s .xspi 0 m → m.val ≤ 2 →
    s.rd .XSPI_LD_STAT_BUSY = 1 ∨ installing s = true →
    ∃ t, exec (.loaderResume m image head) s = .next t ∧ t.rd .XSPI_LD_STAT_REFUSED = 1 ∧ t.ldr = s.ldr ∧
      t.rd .XSPI_LD_STAT_BUSY = s.rd .XSPI_LD_STAT_BUSY ∧ t.mem = s.mem) ∧
  (∀ (s : State) (m : Master) (head : List Byte), MayWrite s .xspi 0 m → m.val ≤ 2 → s.rd .XSPI_LD_STAT_BUSY = 0 →
    installing s = false → xspiOn s = true → imageOk s head = true → s.rd .XSPI_LD_CTL_SIG_REQ ≠ 1 ∨ imageSigned head = true →
    ∃ t, exec (.loaderResume m true head) s = .next t ∧ t.rd .XSPI_LD_STAT_BUSY = 1 ∧ t.ldr.dir = directory head ∧
      t.rd .XSPI_LD_STAT_ENTRY = s.rd .XSPI_LD_RESUME_POINT % 2 ^ Reg.width .XSPI_LD_STAT_ENTRY ∧
      t.rd .XSPI_LD_ENTRIES_COUNT = s.rd .XSPI_LD_ENTRIES_COUNT ∧ t.rd .XSPI_LD_DONE_BYTES = s.rd .XSPI_LD_DONE_BYTES ∧
      t.mem = s.mem) ∧
  (∀ (s : State) (m : Master) (head : List Byte), MayWrite s .xspi 0 m → m.val ≤ 2 → s.rd .XSPI_LD_STAT_BUSY = 0 →
    installing s = false →
    ∃ t, exec (.loaderResume m false head) s = .next t ∧ t.rd .XSPI_LD_STAT_BUSY = 1 ∧ t.rd .XSPI_LD_STAT_STOP = 0 ∧
      t.rd .XSPI_LD_DONE_BYTES = s.rd .XSPI_LD_DONE_BYTES ∧ t.mem = s.mem) ∧
  (∀ (s : State) (m : Master) (image : Bool) (data : List Byte), MayWrite s .xspi 0 m → m.val ≤ 2 → s.rd .XSPI_LD_STAT_BUSY = 1 →
    ∃ t, exec (.loaderAbort m image data) s = .next t ∧ t.rd .XSPI_LD_STAT_BUSY ≠ 1 ∧ Raised t .xspi 0 1 ∧
      (data = [] → t.rd .XSPI_LD_STAT_STOP = 1 ∧ t.mem = s.mem)) ∧
  (∀ (s : State) (m : Master) (image : Bool) (data : List Byte), MayWrite s .xspi 0 m → m.val ≤ 2 → s.rd .XSPI_LD_STAT_BUSY ≠ 1 →
    ∃ t, exec (.loaderAbort m image data) s = .next t ∧ t.rd .XSPI_LD_STAT_BUSY = s.rd .XSPI_LD_STAT_BUSY ∧
      t.rd .XSPI_LD_STAT_STOP = s.rd .XSPI_LD_STAT_STOP ∧ t.ldr = s.ldr ∧ t.mem = s.mem) ∧
  (∀ (s : State) (data : List Byte) (st : Byte), s.dev = .up → jobCopies s = true → s.rd .XSPI_XSPI_CFG_DEVTYPE = 1 →
    (progress data s).rd .XSPI_LD_STAT_BUSY = 1 →
    ∃ t, exec (.nandStatusPoll data st) s = .next t ∧ t.rd .XSPI_FLASH_STAT_STATUS = st.toNat ∧
      (if bit st.toNat 0 = 0 ∧ (st.toNat &&& s.rd .XSPI_XSPI_NAND_ECC_MASK) = s.rd .XSPI_XSPI_NAND_ECC_BAD
       then t.rd .XSPI_LD_STAT_BUSY = 0 ∧ t.rd .XSPI_LD_STAT_STOP = 5 ∧ Raised t .xspi 0 1 else t.rd .XSPI_LD_STAT_BUSY = 1)) ∧
  (∀ (s : State) (data : List Byte), s.dev = .up → s.rd .XSPI_LD_STAT_BUSY = 1 → xspiOn s = true →
    ∃ t, exec (.flashTimeout data) s = .next t ∧ t.rd .XSPI_LD_STAT_BUSY ≠ 1 ∧ Raised t .xspi 0 1 ∧
      (data = [] → t.rd .XSPI_LD_STAT_STOP = 4)) ∧
  (∀ (s : State) (e : DirEntry) (head data : List Byte), s.dev = .up → jobCopies s = true → s.ldr.image = true →
    currentEntry s = some e → s.ldr.got.length + data.length = e.len → (progress data s).rd .XSPI_LD_STAT_BUSY = 1 →
    entryGood e (progress data s).ldr.got = true →
    ∃ t, exec (.loaderEntryDone head data) s = .next t ∧ t.rd .XSPI_LD_STAT_BUSY = 1 ∧ t.ldr.got = [] ∧
      t.rd .XSPI_LD_ENTRIES_COUNT = (s.rd .XSPI_LD_ENTRIES_COUNT + 1) % 2 ^ Reg.width .XSPI_LD_ENTRIES_COUNT ∧
      t.rd .XSPI_LD_STAT_ENTRY = (s.rd .XSPI_LD_STAT_ENTRY + 1) % 2 ^ Reg.width .XSPI_LD_STAT_ENTRY) ∧
  (∀ (s : State) (e : DirEntry) (head data : List Byte), s.dev = .up → jobCopies s = true → s.ldr.image = true →
    currentEntry s = some e → s.ldr.got.length + data.length = e.len → (progress data s).rd .XSPI_LD_STAT_BUSY = 1 →
    entryGood e (progress data s).ldr.got = false →
    ∃ t, exec (.loaderEntryDone head data) s = .next t ∧ t.rd .XSPI_LD_STAT_BUSY = 0 ∧ t.rd .XSPI_LD_STAT_STOP = 7 ∧ Raised t .xspi 0 1) ∧
  (∀ (s : State) (a : Nat) (data : List Byte), s.dev = .up → jobCopies s = true → s.ldr.image = false → jobRest s = (a, data.length) →
    CleanCells s → Unwaited s 3 → 0 < data.length → inBench a data.length = true → memAllowed s 3 .write a data.length = true →
    s.anyPoison a data.length = false → s.rd .XSPI_LD_DONE_BYTES + data.length = s.ldr.len → s.ldr.len < 2 ^ 32 →
    ∃ t, exec (.loaderDone data [] []) s = .next t ∧ t.bytes a data.length = data ∧ t.rd .XSPI_LD_STAT_BUSY = 0 ∧
      t.rd .XSPI_LD_STAT_DONE = 1 ∧ Raised t .xspi 0 0 ∧
      (if s.rd .XSPI_LD_CTL_SIG_REQ = 0 then t.rd .XSPI_LD_STAT_RELEASED = 1 ∧ Raised t .xspi 0 3
       else t.rd .XSPI_LD_STAT_RELEASED = s.rd .XSPI_LD_STAT_RELEASED) ∧
      ∀ b : Nat, b < a ∨ a + data.length ≤ b → t.byte b = s.byte b) ∧
  (∀ (s : State) (a : Nat) (data : List Byte), s.dev = .up → jobCopies s = true → s.ldr.image = false → jobRest s = (a, data.length) →
    Unwaited s 3 → 0 < data.length → a % 64 + data.length ≤ 64 → inBench a data.length = true →
    memAllowed s 3 .write a data.length = false →
    ∃ t, exec (.loaderDone data [] []) s = .next t ∧ t.mem = s.mem ∧ t.rd .XSPI_LD_STAT_BUSY = 0 ∧ t.rd .XSPI_LD_STAT_STOP = 2 ∧
      Raised t .xspi 0 1) ∧
  (∀ (s : State) (data image block : List Byte), s.dev = .up → jobCopies s = true → s.ldr.image = true →
    s.ldr.dir.length ≤ s.rd .XSPI_LD_STAT_ENTRY → s.ldr.signed = false →
    ∃ t, exec (.loaderDone data image block) s = .next t ∧ t.rd .XSPI_LD_STAT_BUSY = 0 ∧ t.rd .XSPI_LD_STAT_DONE = 1 ∧
      t.rd .XSPI_LD_STAT_RELEASED = 1 ∧ Raised t .xspi 0 0 ∧ Raised t .xspi 0 3 ∧ t.mem = s.mem) ∧
  (∀ (s : State) (data image block : List Byte), s.dev = .up → jobCopies s = true → s.ldr.image = true →
    s.ldr.dir.length ≤ s.rd .XSPI_LD_STAT_ENTRY → s.ldr.signed = true → image.length = s.ldr.sigOff → s.fwUp = true →
    ∃ t, exec (.loaderDone data image block) s = .next t ∧ t.rd .XSPI_LD_STAT_BUSY = 0 ∧
      (if blockVerify labelLib block (sha384 image) (libSlot s) ∧ s.rd .SEC_LIB_VER_MIN_VER ≤ s.ldr.libVer then
        t.rd .XSPI_LD_STAT_RELEASED = 1 ∧ Raised t .xspi 0 0 ∧ Raised t .xspi 0 3 ∧ t.mem = s.mem
       else t.rd .XSPI_LD_STAT_STOP = 8 ∧ t.rd .XSPI_LD_STAT_RELEASED = s.rd .XSPI_LD_STAT_RELEASED ∧ Raised t .xspi 0 1 ∧
         Raised t .sec 0 8))

/-- A due boot begins with the preferred slot. An image that passes its checks runs: firmware is up, BOOT_OK set and BOOT_DONE raised;
one that fails marks its slot invalid, raises SLOT_FAIL and leads to the other slot, and after that to recovery. A slot check records
what the slot holds and whether it is valid. The right key kicks the watchdog, another changes nothing, and another master is denied.
The watchdog's expiry, and a fault, stop the firmware with their cause, end the sessions and the mailbox, after a fault answering
RESTARTED to what was in progress, and make the boot due; the expiry also faults each channel that asks for it. (Rests on
12_security_firmware.md R367, R368, R369, R372, R373, 06_outputs.md R208.) -/
def Obligations.BootAndRestarts : Prop :=
  (∀ s : State, s.dev = .up → s.sec.boot = .due →
    ∃ t, exec .bootStart s = .next t ∧ t = { s with sec := { s.sec with boot := .first, bootFrom := s.osc } }) ∧
  (∀ (s : State) (img : List Byte), s.dev = .up → s.sec.boot = .first →
    ∃ t, exec (.bootDone img) s = .next t ∧
      ((fwCheck s img).toOption ≠ none → t.fwUp = true ∧ t.sec.boot = .idle ∧ t.sec.running = (fwCheck s img).toOption ∧
        t.rd .SEC_STATUS_BOOT_OK = 1 ∧ t.rd .SEC_STATUS_RECOVERY = 0 ∧ Raised t .sec 0 0) ∧
      ((fwCheck s img).toOption = none → t.fwUp = s.fwUp ∧ t.sec.boot = .second ∧ Raised t .sec 0 1 ∧
        (if s.rd .SEC_STATUS_PREF_SLOT = 0 then t.rd .SEC_STATUS_SLOT_A_VALID = 0 else t.rd .SEC_STATUS_SLOT_B_VALID = 0))) ∧
  (∀ (s : State) (img : List Byte), s.dev = .up → s.sec.boot = .second →
    ∃ t, exec (.bootDone img) s = .next t ∧
      ((fwCheck s img).toOption ≠ none → t.fwUp = true ∧ t.sec.boot = .idle ∧ t.sec.running = (fwCheck s img).toOption ∧
        t.rd .SEC_STATUS_BOOT_OK = 1 ∧ t.rd .SEC_STATUS_RECOVERY = 0 ∧ Raised t .sec 0 0) ∧
      ((fwCheck s img).toOption = none → t.fwUp = s.fwUp ∧ t.sec.boot = .idle ∧ t.rd .SEC_STATUS_RECOVERY = 1 ∧ Raised t .sec 0 1 ∧
        (if s.rd .SEC_STATUS_PREF_SLOT = 1 then t.rd .SEC_STATUS_SLOT_A_VALID = 0 else
          s.rd .SEC_STATUS_PREF_SLOT = 0 → t.rd .SEC_STATUS_SLOT_B_VALID = 0))) ∧
  (∀ (s : State) (slot : Fin 2) (img : List Byte), s.dev = .up → s.fwUp = true →
    ∃ t, exec (.slotCheck slot img) s = .next t ∧ Store.get none t.sec.slots slot.val = (fwCheck s img).toOption ∧
      t.rd (if slot.val = 0 then .SEC_STATUS_SLOT_A_VALID else .SEC_STATUS_SLOT_B_VALID) =
        (if (fwCheck s img).toOption.isSome then 1 else 0)) ∧
  (∀ (s : State) (v : Word), MayWrite s .sec 0 2 →
    ∃ t, exec (.wdtKick 2 v) s = .next t ∧
      t = (if bits v.toNat 7 0 = 0x6B then { s with sec := { s.sec with wdtFrom := s.osc } } else s)) ∧
  (∀ (s : State) (m : Master) (v : Word), s.dev = .up → m.val ≠ 2 →
    ∃ t, exec (.wdtKick m v) s = .next t ∧ Recorded s t .sec 0 errOwnerDenied m.val ∧ OnlyChanges (errors ++ wakes) s t) ∧
  (∀ s : State, s.dev = .up → wdtOver s = true →
    ∃ t, exec .wdtExpired s = .next t ∧ t.fwUp = false ∧ t.sec.boot = .due ∧ t.rd .SYS_RESET_CAUSE_FW_WDT = 1 ∧
      t.rd .SEC_STATUS_BOOT_OK = 0 ∧ t.sec.mail = [] ∧ t.sec.replies = [] ∧ t.sec.challenges = [] ∧
      t.rd .I3C_STATUS_SECURE 0 ≠ 1 ∧ t.rd .I3C_STATUS_SECURE 1 ≠ 1 ∧ Raised t .sec 0 6 ∧
      (∀ c : Nat, c < 48 → s.rd .OUT_FAULT_CTL_WD_EN c = 1 → t.rd .OUT_FAULT_STAT_WATCHDOG c = 1)) ∧
  (∀ s : State, s.dev = .up → s.fwUp = true ∨ s.sec.boot ≠ .idle →
    ∃ t, exec .firmwareRestart s = .next t ∧ t.fwUp = false ∧ t.sec.boot = .due ∧ t.sec.mail = [] ∧ t.sec.replies = [] ∧
      t.sec.challenges = [] ∧ t.rd .SYS_RESET_CAUSE_FW_FAULT = 1 ∧ t.rd .SEC_STATUS_BOOT_OK = 0 ∧
      t.rd .I3C_STATUS_SECURE 0 ≠ 1 ∧ t.rd .I3C_STATUS_SECURE 1 ≠ 1 ∧
      (∀ j : Nat, j < 2 → s.rd .SEC_MB_STAT_BUSY 0 j ≠ 0 → t.rd .SEC_MB_STAT_BUSY 0 j = 0 ∧ t.rd .SEC_MB_STAT_DONE 0 j = 1 ∧
        t.rd .SEC_MB_STAT_RESULT 0 j = mbRestarted) ∧
      t.rd .SYS_RESET_CNT_FW_RESTART = satAdd (Reg.width .SYS_RESET_CNT_FW_RESTART) (s.rd .SYS_RESET_CNT_FW_RESTART) 1)

/-- A served GET_INFO answers version, counts and status. With no cell error, a certificate, a quote and an extension answer the first
code that applies of a bad argument, a buffer out of the port's regions or a poisoned one, and else OK; the extension chains the digest
into its register. A challenge is issued only with an owner key; a response that can be read is judged once, uses its challenge up, and
only a verified one makes the port secure. A close, and the timeout, end the session. MB_DONE reports the outcome with its code, tag and
results and raises its event, an install's with its preferred slot; an operation that does not exist is reported BAD_OP. (Rests on
12_security_firmware.md R374, R375, R376, R377, R378, R379.) -/
def Obligations.MailboxServices : Prop :=
  (∀ (s : State) (j : Fin 2) (tag : Nat) (rest : List MbCall), Serves s j 0x01 tag rest →
    ∃ t, exec (.getInfo j) s = .next t ∧ Replied t j 0x01 tag mbOk [s.rd .SEC_FW_VER_VER, s.rd .SEC_SVN_RUN_SVN +
      2 ^ 8 * s.rd .SEC_SVN_FUSE_COUNT + 2 ^ 16 * s.rd .SEC_STATUS_RUN_SRC, secStatus s] rest) ∧
  (∀ (s : State) (j : Fin 2) (tag : Nat) (rest : List MbCall), Serves s j 0x02 tag rest →
    ∃ t, exec (.getCert j) s = .next t ∧ t.sec.mail = rest ∧ (Store.get none t.sec.replies j.val).map (fun r => r.result) =
      some (if 4 ≤ mbArg s j.val 0 ∨ mbArg s j.val 3 < (Config.certificate (mbArg s j.val 0)).length then mbBadArg
        else if memAllowed s j.val .write (mbAddr s j.val 1) (mbArg s j.val 3) then mbOk else mbRegion)) ∧
  (∀ (s : State) (j : Fin 2) (tag : Nat) (rest : List MbCall), Serves s j 0x03 tag rest → quoteRuns s = false → CleanCells s →
    ∃ t, exec (.quote j) s = .next t ∧ t.sec.mail = rest ∧ (Store.get none t.sec.replies j.val).map (fun r => r.result) =
      some (if memAllowed s j.val .read (mbAddr s j.val 1) 32 = false then mbRegion
        else if s.anyPoison (mbAddr s j.val 1) 32 then mbBadArg
        else if memAllowed s j.val .write (mbAddr s j.val 3) 8696 then mbOk else mbRegion)) ∧
  (∀ (s : State) (j : Fin 2) (tag : Nat) (rest : List MbCall), Serves s j 0x04 tag rest → mbArg s j.val 0 ≠ 6 → mbArg s j.val 0 ≠ 7 →
    ∃ t, exec (.mrExtend j) s = .next t ∧ Replied t j 0x04 tag mbBadArg [] rest ∧ t.regs = s.regs) ∧
  (∀ (s : State) (j : Fin 2) (tag : Nat) (rest : List MbCall), Serves s j 0x04 tag rest → mbArg s j.val 0 = 6 ∨ mbArg s j.val 0 = 7 →
    CleanCells s →
    ∃ t, exec (.mrExtend j) s = .next t ∧ Replied t j 0x04 tag (bufferCode s j.val (mbAddr s j.val 1) 48 mbOk) [] rest ∧
      mrBytes t (mbArg s j.val 0) = (if bufferCode s j.val (mbAddr s j.val 1) 48 mbOk = mbOk then
        sha384 (mrBytes s (mbArg s j.val 0) ++ s.bytes (mbAddr s j.val 1) 48) else mrBytes s (mbArg s j.val 0))) ∧
  (∀ (s : State) (j : Fin 2) (tag : Nat) (rest : List MbCall), Serves s j 0x10 tag rest → s.sec.owner = none →
    ∃ t, exec (.sessionOpen j) s = .next t ∧ Replied t j 0x10 tag mbDenied [] rest ∧ t.sec.challenges = s.sec.challenges) ∧
  (∀ (s : State) (j : Fin 2) (tag : Nat) (rest : List MbCall), Serves s j 0x10 tag rest → s.sec.owner ≠ none →
    ∃ t, exec (.sessionOpen j) s = .next t ∧ t.sec.mail = rest ∧
      Store.get none t.sec.challenges j.val = some (challenge s, s.osc) ∧
      Replied t j 0x10 tag mbOk ((upTo 8).map (fun i => fieldLe (challenge s) (4 * i) 4)) rest) ∧
  (∀ (s : State) (j : Fin 2) (tag : Nat) (rest : List MbCall), Serves s j 0x11 tag rest → CleanCells s →
    bufferCode s j.val (mbAddr s j.val 1) 8656 mbOk ≠ mbOk →
    ∃ t, exec (.sessionAuth j) s = .next t ∧ Replied t j 0x11 tag (bufferCode s j.val (mbAddr s j.val 1) 8656 mbOk) [] rest ∧
      t.sec.challenges = s.sec.challenges ∧ t.rd .I3C_STATUS_SECURE j.val = s.rd .I3C_STATUS_SECURE j.val) ∧
  (∀ (s : State) (j : Fin 2) (tag : Nat) (rest : List MbCall), Serves s j 0x11 tag rest → CleanCells s →
    memAllowed s j.val .read (mbAddr s j.val 1) 8656 = true → s.anyPoison (mbAddr s j.val 1) 8656 = false →
    ∃ t, exec (.sessionAuth j) s = .next t ∧ Store.get none t.sec.challenges j.val = none ∧
      (responseOk s j.val (s.bytes (mbAddr s j.val 1) 8656) = true →
        t.rd .I3C_STATUS_SECURE j.val = 1 ∧ Replied t j 0x11 tag mbOk [] rest) ∧
      (responseOk s j.val (s.bytes (mbAddr s j.val 1) 8656) = false →
        t.rd .I3C_STATUS_SECURE j.val = s.rd .I3C_STATUS_SECURE j.val ∧ Replied t j 0x11 tag mbSigFail [] rest)) ∧
  (∀ (s : State) (j : Fin 2) (tag : Nat) (rest : List MbCall), Serves s j 0x12 tag rest →
    ∃ t, exec (.sessionClose j) s = .next t ∧ Replied t j 0x12 tag mbOk [] rest ∧ t.rd .I3C_STATUS_SECURE j.val ≠ 1 ∧
      (s.rd .I3C_STATUS_SECURE j.val = 1 → Raised t .sec 0 5)) ∧
  (∀ (s : State) (j : Fin 2), s.dev = .up → (s.port j.val).frameAt + sessionTmo s * Config.ticksPerSecond ≤ s.osc →
    s.rd .I3C_STATUS_SECURE j.val = 1 →
    ∃ t, exec (.sessionTimeout j) s = .next t ∧ t.rd .I3C_STATUS_SECURE j.val = 0 ∧ Raised t .sec 0 5) ∧
  (∀ (s : State) (j : Fin 2) (r : MbReply), s.dev = .up → Store.get none s.sec.replies j.val = some r →
    ∃ t, exec (.mbDone j) s = .next t ∧ t.rd .SEC_MB_STAT_BUSY 0 j.val = 0 ∧ t.rd .SEC_MB_STAT_DONE 0 j.val = 1 ∧
      t.rd .SEC_MB_STAT_RESULT 0 j.val = r.result % 2 ^ 8 ∧ t.rd .SEC_MB_STAT_TAG 0 j.val = r.tag % 2 ^ 8 ∧
      (∀ i : Nat, i < r.res.length → t.rd .SEC_MB_RES_RES 0 j.val i = r.res.getD i 0 % 2 ^ 32) ∧
      Store.get none t.sec.replies j.val = none ∧ Raised t .sec 0 4 ∧
      (∀ slot : Fin 2, r.op = 0x21 → s.sec.prefer = some slot.val → t.rd .SEC_STATUS_PREF_SLOT = slot.val)) ∧
  (∀ (s : State) (j : Fin 2) (op tag : Nat) (rest : List MbCall), s.dev = .up → Store.get none s.sec.replies j.val = none →
    s.sec.caller = none → s.sec.mail = ⟨j.val, op, tag⟩ :: rest → mbKnown op = false → s.fwUp = true →
    s.rd .POWER_STATUS_DSTATE = 0 →
    ∃ t, exec (.mbDone j) s = .next t ∧ t.sec.mail = rest ∧ t.rd .SEC_MB_STAT_BUSY 0 j.val = 0 ∧ t.rd .SEC_MB_STAT_DONE 0 j.val = 1 ∧
      t.rd .SEC_MB_STAT_RESULT 0 j.val = mbBadOp ∧ Raised t .sec 0 4)

/-- With no cell error, a readable buffer of a possible length is staged exactly if its image passes the checks; a bad length is
answered FORMAT, a buffer that cannot be read its code, each leaving nothing staged; a second firmware command BUSY. An install of a
staged image invalidates its slot and answers it, to prefer it at its end if asked, or FLASH where the flash fails; nothing staged is a
bad argument. A takeover starts for another image that may take over from the running one, and is refused else. Installs and takeovers
are DENIED without the session that the owner key asks for, and BUSY during another. At the handoff point the staged image runs on
probation; its alive mark ends probation; MB_DONE ends a takeover whose microcode has switched, with its event; a revert that returns
puts the old image back and raises its event, one that does not restarts the firmware. In recovery a readable image of a possible length
from the benches that passes its checks runs, another buffer is answered its code; outside recovery the operation is unknown. (Rests on
12_security_firmware.md R372, R379, R382, R383, R384, R385, R386.) -/
def Obligations.FirmwareUpdates : Prop :=
  (∀ (s : State) (j : Fin 2) (tag : Nat) (rest : List MbCall), Serves s j 0x20 tag rest → fwBusy s = false → CleanCells s →
    128 + sigLen ≤ mbArg s j.val 3 → mbArg s j.val 3 ≤ 524288 → memAllowed s j.val .read (mbAddr s j.val 1) (mbArg s j.val 3) = true →
    s.anyPoison (mbAddr s j.val 1) (mbArg s j.val 3) = false →
    ∃ t, exec (.fwStage j) s = .next t ∧ t.sec.mail = rest ∧
      t.sec.staged = (fwCheck s (s.bytes (mbAddr s j.val 1) (mbArg s j.val 3))).toOption ∧
      t.rd .SEC_STATUS_STAGED = (if t.sec.staged.isSome then 1 else 0)) ∧
  (∀ (s : State) (j : Fin 2) (tag : Nat) (rest : List MbCall), Serves s j 0x20 tag rest →
    fwBusy s = true ∨ mbArg s j.val 3 < 128 + sigLen ∨ 524288 < mbArg s j.val 3 →
    ∃ t, exec (.fwStage j) s = .next t ∧ Replied t j 0x20 tag (if fwBusy s then mbBusy else mbFormat) [] rest ∧ t.mem = s.mem ∧
      t.sec.staged = (if fwBusy s then s.sec.staged else none)) ∧
  (∀ (s : State) (j : Fin 2) (tag : Nat) (rest : List MbCall), Serves s j 0x20 tag rest → fwBusy s = false → CleanCells s →
    128 + sigLen ≤ mbArg s j.val 3 → mbArg s j.val 3 ≤ 524288 →
    bufferCode s j.val (mbAddr s j.val 1) (mbArg s j.val 3) mbOk ≠ mbOk →
    ∃ t, exec (.fwStage j) s = .next t ∧ t.mem = s.mem ∧ t.sec.staged = none ∧
      Replied t j 0x20 tag (bufferCode s j.val (mbAddr s j.val 1) (mbArg s j.val 3) mbOk) [] rest) ∧
  (∀ (s : State) (j : Fin 2) (tag : Nat) (rest : List MbCall), Serves s j 0x21 tag rest → s.rd .XSPI_LD_STAT_BUSY = 0 →
    sessionMissing s j.val = false → fwBusy s = false → s.sec.staged ≠ none →
    ∃ t, exec (.fwInstall j true) s = .next t ∧ Replied t j 0x21 tag mbOk [installSlot s] rest ∧
      t.sec.prefer = (if bit (mbArg s j.val 0) 0 = 1 then some (installSlot s) else none) ∧
      t.rd (if installSlot s = 0 then .SEC_STATUS_SLOT_A_VALID else .SEC_STATUS_SLOT_B_VALID) = 0) ∧
  (∀ (s : State) (j : Fin 2) (tag : Nat) (rest : List MbCall), Serves s j 0x21 tag rest → s.rd .XSPI_LD_STAT_BUSY = 0 →
    sessionMissing s j.val = false → fwBusy s = false → s.sec.staged ≠ none →
    ∃ t, exec (.fwInstall j false) s = .next t ∧ Replied t j 0x21 tag mbFlash [] rest ∧ t.sec.prefer = none ∧
      t.rd (if installSlot s = 0 then .SEC_STATUS_SLOT_A_VALID else .SEC_STATUS_SLOT_B_VALID) = 0 ∧
      t.rd .SEC_STATUS_PREF_SLOT = s.rd .SEC_STATUS_PREF_SLOT) ∧
  (∀ (s : State) (j : Fin 2) (tag : Nat) (rest : List MbCall) (ok : Bool), Serves s j 0x21 tag rest → s.rd .XSPI_LD_STAT_BUSY = 0 →
    sessionMissing s j.val = true ∨ fwBusy s = true ∨ s.sec.staged = none →
    ∃ t, exec (.fwInstall j ok) s = .next t ∧ t.regs = s.regs ∧
      Replied t j 0x21 tag (if sessionMissing s j.val then mbDenied else if fwBusy s then mbBusy else mbBadArg) [] rest) ∧
  (∀ (s : State) (j : Fin 2) (tag : Nat) (rest : List MbCall) (new run : FwImage), Serves s j 0x22 tag rest →
    sessionMissing s j.val = false → fwBusy s = false → s.sec.staged = some new → s.sec.running = some run → new.digest ≠ run.digest →
    canTakeOver run new = true →
    ∃ t, exec (.fwActivate j) s = .next t ∧ t.sec.mail = rest ∧ t.sec.takeover = .copy ∧ t.sec.caller = some ⟨j.val, 0x22, tag⟩) ∧
  (∀ (s : State) (j : Fin 2) (tag : Nat) (rest : List MbCall) (new run : FwImage), Serves s j 0x22 tag rest →
    sessionMissing s j.val = false → fwBusy s = false → s.sec.staged = some new → s.sec.running = some run →
    new.digest = run.digest ∨ canTakeOver run new = false →
    ∃ t, exec (.fwActivate j) s = .next t ∧ t.sec.takeover = s.sec.takeover ∧
      Replied t j 0x22 tag (if new.digest = run.digest then mbBadArg else mbHandoffRejected) [] rest) ∧
  (∀ (s : State) (j : Fin 2) (tag : Nat) (rest : List MbCall), Serves s j 0x22 tag rest →
    sessionMissing s j.val = true ∨ fwBusy s = true ∨ s.sec.staged = none ∨ s.sec.running = none →
    ∃ t, exec (.fwActivate j) s = .next t ∧ t.regs = s.regs ∧ t.sec.takeover = s.sec.takeover ∧
      Replied t j 0x22 tag (if sessionMissing s j.val then mbDenied else if fwBusy s then mbBusy else mbBadArg) [] rest) ∧
  (∀ (s : State) (j : Fin 2) (op tag : Nat), s.dev = .up → Store.get none s.sec.replies j.val = none →
    s.sec.caller = some ⟨j.val, op, tag⟩ → takeoverDone s = true →
    ∃ t, exec (.mbDone j) s = .next t ∧ t.sec.takeover = .none ∧ t.sec.caller = none ∧ t.rd .SEC_STATUS_HANDOFF_BUSY = 0 ∧
      t.rd .SEC_MB_STAT_RESULT 0 j.val = mbOk ∧ t.rd .SEC_MB_RES_RES 0 j.val 0 = s.sec.switches % 2 ^ 32 ∧ Raised t .sec 0 2 ∧
      Raised t .sec 0 4) ∧
  (∀ s : State, s.dev = .up → s.sec.takeover = .copy → deadlinePending s = false →
    ∃ t, exec .handoffPoint s = .next t ∧ t.sec.takeover = .probation ∧ t.sec.running = s.sec.staged ∧
      t.rd .SEC_STATUS_HANDOFF_BUSY = 1 ∧ t.sec.old = s.sec.running.map (fun i => (i, s.rd .SEC_STATUS_RUN_SRC))) ∧
  (∀ (s : State) (i : FwImage), s.dev = .up → s.sec.takeover = .probation → s.sec.running = some i →
    ∃ t, exec .aliveMark s = .next t ∧ t.sec.takeover = .switching ∧ t.sec.old = none ∧ t.sec.wdtFrom = s.osc ∧
      t.sec.running = some i) ∧
  (∀ s : State, s.dev = .up → s.sec.takeover = .probation →
    ∃ t, exec (.handoffRevert true) s = .next t ∧ t.sec.takeover = .none ∧ t.sec.running = s.sec.old.map (fun x => x.1) ∧
      t.rd .SEC_STATUS_HANDOFF_BUSY = 0 ∧ Raised t .sec 0 3 ∧
      (∀ c : MbCall, s.sec.caller = some c → Store.get none t.sec.replies c.port = some ⟨c.op, c.tag, mbHandoffRejected, []⟩)) ∧
  (∀ s : State, s.dev = .up → s.sec.takeover = .probation →
    ∃ t, exec (.handoffRevert false) s = .next t ∧ t.fwUp = false ∧ t.sec.boot = .due ∧ t.rd .SYS_RESET_CAUSE_FW_FAULT = 1) ∧
  (∀ (s : State) (j : Fin 2) (tag : Nat) (rest : List MbCall), Serves s j 0x40 tag rest → s.rd .SEC_STATUS_RECOVERY = 0 →
    ∃ t, exec (.recoveryBoot j) s = .next t ∧ Replied t j 0x40 tag mbBadOp [] rest) ∧
  (∀ (s : State) (j : Fin 2) (tag : Nat) (rest : List MbCall), Serves s j 0x40 tag rest → s.rd .SEC_STATUS_RECOVERY ≠ 0 → CleanCells s →
    128 + sigLen ≤ mbArg s j.val 3 → mbArg s j.val 3 ≤ 524288 → inBench (mbAddr s j.val 1) (mbArg s j.val 3) = true →
    memAllowed s j.val .read (mbAddr s j.val 1) (mbArg s j.val 3) = true →
    s.anyPoison (mbAddr s j.val 1) (mbArg s j.val 3) = false →
    ∃ t, exec (.recoveryBoot j) s = .next t ∧ t.sec.mail = rest ∧
      ((fwCheck s (s.bytes (mbAddr s j.val 1) (mbArg s j.val 3))).toOption ≠ none → t.fwUp = true ∧
        t.rd .SEC_STATUS_BOOT_OK = 1 ∧ t.rd .SEC_STATUS_RECOVERY = 0 ∧ t.rd .SEC_STATUS_RUN_SRC = 3 ∧ Raised t .sec 0 0) ∧
      ((fwCheck s (s.bytes (mbAddr s j.val 1) (mbArg s j.val 3))).toOption = none → t.fwUp = s.fwUp ∧
        t.rd .SEC_STATUS_RECOVERY = s.rd .SEC_STATUS_RECOVERY)) ∧
  (∀ (s : State) (j : Fin 2) (tag : Nat) (rest : List MbCall), Serves s j 0x40 tag rest → s.rd .SEC_STATUS_RECOVERY ≠ 0 → CleanCells s →
    mbArg s j.val 3 < 128 + sigLen ∨ 524288 < mbArg s j.val 3 ∨ inBench (mbAddr s j.val 1) (mbArg s j.val 3) = false ∨
      bufferCode s j.val (mbAddr s j.val 1) (mbArg s j.val 3) mbOk ≠ mbOk →
    ∃ t, exec (.recoveryBoot j) s = .next t ∧ t.fwUp = s.fwUp ∧ t.regs = s.regs ∧
      Replied t j 0x40 tag (if mbArg s j.val 3 < 128 + sigLen ∨ 524288 < mbArg s j.val 3 then mbFormat
        else if inBench (mbAddr s j.val 1) (mbArg s j.val 3) = false then mbBadArg
        else bufferCode s j.val (mbAddr s j.val 1) (mbArg s j.val 3) mbOk) [] rest)

/-- With the session that the owner key asks for, SVN_COMMIT raises the fuse count to the number asked for but not beyond the running
image's, revokes the vendor slots named and raises its event; revoking the slot in use is a bad argument. SLOT_SELECT sets the preferred
slot or answers a bad argument. POLICY_SET, LIBKEY_SET and OWNER_KEY_SET store their values in an unlocked record and are answered
LOCKED by a locked one; a slot that does not exist is a bad argument, and, with no cell error, a key that cannot be read is answered its
code and not stored. POLICY_LOCK locks with its key word and answers a bad argument without. A missing session is answered DENIED, a
second firmware command BUSY, and no register changes. (Rests on 12_security_firmware.md R379, R380, R381.) -/
def Obligations.SecurityPolicy : Prop :=
  (∀ (s : State) (j : Fin 2) (tag : Nat) (rest : List MbCall), Serves s j 0x23 tag rest → sessionMissing s j.val = false →
    fwBusy s = false → bit (mbArg s j.val 1 % 16) (s.rd .SEC_STATUS_VK_USED) ≠ 1 → s.rd .SEC_SVN_FUSE_COUNT < 256 →
    s.rd .SEC_SVN_RUN_SVN < 256 →
    ∃ t, exec (.svnCommit j) s = .next t ∧
      t.rd .SEC_SVN_FUSE_COUNT = max (s.rd .SEC_SVN_FUSE_COUNT) (min (mbArg s j.val 0) (s.rd .SEC_SVN_RUN_SVN)) ∧
      (∀ i : Nat, i < 4 → bit (mbArg s j.val 1 % 16) i = 1 → t.rd .SEC_STATUS_VK_REVOKED 0 0 i = 1) ∧ Raised t .sec 0 7 ∧
      Replied t j 0x23 tag mbOk [max (s.rd .SEC_SVN_FUSE_COUNT) (min (mbArg s j.val 0) (s.rd .SEC_SVN_RUN_SVN))] rest) ∧
  (∀ (s : State) (j : Fin 2) (tag : Nat) (rest : List MbCall), Serves s j 0x23 tag rest → sessionMissing s j.val = false →
    fwBusy s = false → bit (mbArg s j.val 1 % 16) (s.rd .SEC_STATUS_VK_USED) = 1 →
    ∃ t, exec (.svnCommit j) s = .next t ∧ Replied t j 0x23 tag mbBadArg [] rest ∧ t.regs = s.regs) ∧
  (∀ (s : State) (j : Fin 2) (tag : Nat) (rest : List MbCall), Serves s j 0x24 tag rest → sessionMissing s j.val = false →
    ∃ t, exec (.slotSelect j) s = .next t ∧ Replied t j 0x24 tag (if mbArg s j.val 0 ≤ 1 then mbOk else mbBadArg) [] rest ∧
      t.rd .SEC_STATUS_PREF_SLOT = (if mbArg s j.val 0 ≤ 1 then mbArg s j.val 0 else s.rd .SEC_STATUS_PREF_SLOT)) ∧
  (∀ (s : State) (j : Fin 2) (tag : Nat) (rest : List MbCall), Serves s j 0x23 tag rest →
    sessionMissing s j.val = true ∨ fwBusy s = true →
    ∃ t, exec (.svnCommit j) s = .next t ∧ t.regs = s.regs ∧
      Replied t j 0x23 tag (if sessionMissing s j.val then mbDenied else mbBusy) [] rest) ∧
  (∀ (s : State) (j : Fin 2) (tag : Nat) (rest : List MbCall), Serves s j 0x24 tag rest → sessionMissing s j.val = true →
    ∃ t, exec (.slotSelect j) s = .next t ∧ Replied t j 0x24 tag mbDenied [] rest ∧ t.regs = s.regs) ∧
  (∀ (s : State) (j : Fin 2) (tag : Nat) (rest : List MbCall), Serves s j 0x30 tag rest → sessionMissing s j.val = false →
    s.rd .SEC_STATUS_POLICY_LOCKED ≠ 1 →
    ∃ t, exec (.policySet j) s = .next t ∧ Replied t j 0x30 tag mbOk [] rest ∧
      t.rd .XSPI_LD_CTL_SIG_REQ = bit (mbArg s j.val 0) 0 ∧ t.rd .SEC_LIB_VER_MIN_VER = mbArg s j.val 1 % 2 ^ 32) ∧
  (∀ (s : State) (j : Fin 2) (tag : Nat) (rest : List MbCall), Serves s j 0x30 tag rest →
    sessionMissing s j.val = true ∨ s.rd .SEC_STATUS_POLICY_LOCKED = 1 →
    ∃ t, exec (.policySet j) s = .next t ∧ t.regs = s.regs ∧
      Replied t j 0x30 tag (if sessionMissing s j.val then mbDenied else mbLocked) [] rest) ∧
  (∀ (s : State) (j : Fin 2) (tag : Nat) (rest : List MbCall), Serves s j 0x31 tag rest →
    sessionMissing s j.val = true ∨ s.rd .SEC_STATUS_POLICY_LOCKED = 1 ∨ 4 ≤ mbArg s j.val 0 →
    ∃ t, exec (.libkeySet j) s = .next t ∧ t.regs = s.regs ∧ t.sec.libKeys = s.sec.libKeys ∧ Replied t j 0x31 tag
      (if sessionMissing s j.val then mbDenied else if s.rd .SEC_STATUS_POLICY_LOCKED = 1 then mbLocked else mbBadArg) [] rest) ∧
  (∀ (s : State) (j : Fin 2) (tag : Nat) (rest : List MbCall), Serves s j 0x31 tag rest → sessionMissing s j.val = false →
    s.rd .SEC_STATUS_POLICY_LOCKED ≠ 1 → mbArg s j.val 0 < 4 → mbArg s j.val 3 ≠ 1 → CleanCells s →
    bufferCode s j.val (mbAddr s j.val 1) 48 mbOk ≠ mbOk →
    ∃ t, exec (.libkeySet j) s = .next t ∧ t.regs = s.regs ∧ t.sec.libKeys = s.sec.libKeys ∧
      Replied t j 0x31 tag (bufferCode s j.val (mbAddr s j.val 1) 48 mbOk) [] rest) ∧
  (∀ (s : State) (j : Fin 2) (tag : Nat) (rest : List MbCall), Serves s j 0x31 tag rest → sessionMissing s j.val = false →
    s.rd .SEC_STATUS_POLICY_LOCKED ≠ 1 → mbArg s j.val 0 < 4 → mbArg s j.val 3 ≠ 1 → CleanCells s →
    memAllowed s j.val .read (mbAddr s j.val 1) 48 = true → s.anyPoison (mbAddr s j.val 1) 48 = false →
    ∃ t, exec (.libkeySet j) s = .next t ∧ Replied t j 0x31 tag mbOk [] rest ∧
      Store.get none t.sec.libKeys (mbArg s j.val 0) = some (s.bytes (mbAddr s j.val 1) 48)) ∧
  (∀ (s : State) (j : Fin 2) (tag : Nat) (rest : List MbCall), Serves s j 0x31 tag rest → sessionMissing s j.val = false →
    s.rd .SEC_STATUS_POLICY_LOCKED ≠ 1 → mbArg s j.val 0 < 4 → mbArg s j.val 3 = 1 →
    ∃ t, exec (.libkeySet j) s = .next t ∧ Replied t j 0x31 tag mbOk [] rest ∧
      Store.get none t.sec.libKeys (mbArg s j.val 0) = none) ∧
  (∀ (s : State) (j : Fin 2) (tag : Nat) (rest : List MbCall), Serves s j 0x32 tag rest → sessionMissing s j.val = false →
    s.rd .SEC_STATUS_POLICY_LOCKED ≠ 1 → CleanCells s → memAllowed s j.val .read (mbAddr s j.val 1) 48 = true →
    s.anyPoison (mbAddr s j.val 1) 48 = false →
    ∃ t, exec (.ownerKeySet j) s = .next t ∧ Replied t j 0x32 tag mbOk [] rest ∧
      t.sec.owner = some (s.bytes (mbAddr s j.val 1) 48) ∧ t.rd .SEC_STATUS_OWNER_SET = 1) ∧
  (∀ (s : State) (j : Fin 2) (tag : Nat) (rest : List MbCall), Serves s j 0x32 tag rest → CleanCells s →
    sessionMissing s j.val = true ∨ s.rd .SEC_STATUS_POLICY_LOCKED = 1 ∨ bufferCode s j.val (mbAddr s j.val 1) 48 mbOk ≠ mbOk →
    ∃ t, exec (.ownerKeySet j) s = .next t ∧ t.regs = s.regs ∧ t.sec.owner = s.sec.owner ∧
      Replied t j 0x32 tag (if sessionMissing s j.val then mbDenied else if s.rd .SEC_STATUS_POLICY_LOCKED = 1 then mbLocked
        else bufferCode s j.val (mbAddr s j.val 1) 48 mbOk) [] rest) ∧
  (∀ (s : State) (j : Fin 2) (tag : Nat) (rest : List MbCall), Serves s j 0x33 tag rest → sessionMissing s j.val = true →
    ∃ t, exec (.policyLock j) s = .next t ∧ Replied t j 0x33 tag mbDenied [] rest ∧ t.regs = s.regs) ∧
  (∀ (s : State) (j : Fin 2) (tag : Nat) (rest : List MbCall), Serves s j 0x33 tag rest → sessionMissing s j.val = false →
    ∃ t, exec (.policyLock j) s = .next t ∧
      Replied t j 0x33 tag (if mbArg s j.val 0 = 0x4C4F434B then mbOk else mbBadArg) [] rest ∧
      t.rd .SEC_STATUS_POLICY_LOCKED = (if mbArg s j.val 0 = 0x4C4F434B then 1 else s.rd .SEC_STATUS_POLICY_LOCKED))
end

