-- ==== Sys2Proof/Laws/Store.lean ====
section
/-! SUPPORT. Laws of sparse storage: a read after a write, and the canonical form is kept by every write. -/

namespace Sys2Proof.Machine

variable {α : Type}

theorem Store.get_drop_ne (d : α) (l : Store α) {k k' : Nat} (h : k ≠ k') :
    Store.get d (Store.drop l k) k' = Store.get d l k' := by
  induction l with
  | nil => rfl
  | cons p l ih =>
    obtain ⟨a, v⟩ := p
    by_cases ha : a = k
    · subst ha; simp [Store.drop, Store.get, h, ih]
    · by_cases hk : a = k'
      · subst hk; simp [Store.drop, Store.get, ha]
      · simp [Store.drop, Store.get, ha, hk, ih]

theorem Store.get_drop_same (d : α) (l : Store α) (k : Nat) : Store.get d (Store.drop l k) k = d := by
  induction l with
  | nil => rfl
  | cons p l ih =>
    obtain ⟨a, v⟩ := p
    by_cases ha : a = k <;> simp [Store.drop, Store.get, ha, ih]

theorem Store.get_insert_ne (d : α) (l : Store α) {k k' : Nat} (v : α) (h : k ≠ k') :
    Store.get d (Store.insert k v l) k' = Store.get d l k' := by
  induction l with
  | nil => simp [Store.insert, Store.get, h]
  | cons p l ih =>
    obtain ⟨a, w⟩ := p
    by_cases hk : k < a
    · simp [Store.insert, Store.get, hk, h]
    · by_cases ha : a = k'
      · subst ha; simp [Store.insert, Store.get, hk]
      · simp [Store.insert, Store.get, hk, ha, ih]

theorem Store.get_insert_same (d : α) (l : Store α) (k : Nat) (v : α)
    (h : ∀ p ∈ l, p.1 ≠ k) : Store.get d (Store.insert k v l) k = v := by
  induction l with
  | nil => simp [Store.insert, Store.get]
  | cons p l ih =>
    obtain ⟨a, w⟩ := p
    have ha : a ≠ k := h (a, w) (by simp)
    by_cases hk : k < a
    · simp [Store.insert, Store.get, hk]
    · simp [Store.insert, Store.get, hk, ha, ih (fun p hp => h p (by simp [hp]))]

theorem Store.mem_drop {l : Store α} {k : Nat} {p : Nat × α} (h : p ∈ Store.drop l k) : p ∈ l ∧ p.1 ≠ k := by
  induction l with
  | nil => simp [Store.drop] at h
  | cons q l ih =>
    obtain ⟨a, w⟩ := q
    by_cases ha : a = k
    · simp only [Store.drop, ha, if_true] at h
      exact ⟨by simp [(ih h).1], (ih h).2⟩
    · simp only [Store.drop, ha, if_false, List.mem_cons] at h
      rcases h with rfl | h
      · exact ⟨by simp, ha⟩
      · exact ⟨by simp [(ih h).1], (ih h).2⟩

/-- Reading the key just written gives the value written. -/
@[simp] theorem Store.get_set_same [DecidableEq α] (d : α) (l : Store α) (k : Nat) (v : α) :
    Store.get d (Store.set d l k v) k = v := by
  unfold Store.set
  split
  · rename_i h; rw [Store.get_drop_same, h]
  · exact Store.get_insert_same d _ k v (fun p hp => (Store.mem_drop hp).2)

/-- A write leaves every other key alone. -/
theorem Store.get_set_ne [DecidableEq α] (d : α) (l : Store α) {k k' : Nat} (v : α) (h : k ≠ k') :
    Store.get d (Store.set d l k v) k' = Store.get d l k' := by
  unfold Store.set
  split
  · exact Store.get_drop_ne d l h
  · rw [Store.get_insert_ne d _ v h, Store.get_drop_ne d l h]

/-- The same with another default on reading. -/
theorem Store.get_set_ne' [DecidableEq α] (d d' : α) (l : Store α) {k k' : Nat} (v : α) (h : k ≠ k') :
    Store.get d' (Store.set d l k v) k' = Store.get d' l k' := by
  unfold Store.set
  split
  · exact Store.get_drop_ne d' l h
  · rw [Store.get_insert_ne d' _ v h, Store.get_drop_ne d' l h]

/-- Strictly rising keys, as a relation on the whole list. -/
theorem Store.sorted_iff (l : Store α) : Store.sorted l = true ↔ l.Pairwise (fun p q => p.1 < q.1) := by
  induction l with
  | nil => simp [Store.sorted]
  | cons p l ih =>
    cases l with
    | nil => simp [Store.sorted]
    | cons q l =>
      obtain ⟨a, v⟩ := p; obtain ⟨b, w⟩ := q
      simp only [Store.sorted, Bool.and_eq_true, decide_eq_true_eq, ih, List.pairwise_cons, List.mem_cons]
      constructor
      · rintro ⟨hab, hb, hl⟩
        refine ⟨?_, hb, hl⟩
        rintro x (rfl | hx)
        · exact hab
        · exact Nat.lt_trans hab (hb x hx)
      · rintro ⟨ha, hb, hl⟩
        exact ⟨ha _ (Or.inl rfl), hb, hl⟩

theorem Store.drop_eq_filter (l : Store α) (k : Nat) : Store.drop l k = l.filter (fun p => decide (p.1 ≠ k)) := by
  induction l with
  | nil => rfl
  | cons p l ih =>
    obtain ⟨a, v⟩ := p
    by_cases ha : a = k <;> simp [Store.drop, ha, ih]

theorem Store.mem_insert {l : Store α} {k : Nat} {v : α} {p : Nat × α} :
    p ∈ Store.insert k v l ↔ p = (k, v) ∨ p ∈ l := by
  induction l with
  | nil => simp [Store.insert]
  | cons q l ih =>
    obtain ⟨a, w⟩ := q
    by_cases hk : k < a
    · simp [Store.insert, hk]
    · simp only [Store.insert, hk, if_false, List.mem_cons, ih]; tauto

theorem Store.pairwise_insert {l : Store α} {k : Nat} {v : α} (h : l.Pairwise (fun p q => p.1 < q.1))
    (hk : ∀ p ∈ l, p.1 ≠ k) : (Store.insert k v l).Pairwise (fun p q => p.1 < q.1) := by
  induction l with
  | nil => simp [Store.insert]
  | cons q l ih =>
    obtain ⟨a, w⟩ := q
    rw [List.pairwise_cons] at h
    have hne : a ≠ k := hk (a, w) (by simp)
    by_cases hka : k < a
    · simp only [Store.insert, hka, if_true, List.pairwise_cons, List.mem_cons]
      refine ⟨?_, h.1, h.2⟩
      rintro x (rfl | hx)
      · exact hka
      · exact Nat.lt_trans hka (h.1 x hx)
    · simp only [Store.insert, hka, if_false, List.pairwise_cons]
      refine ⟨?_, ih h.2 (fun p hp => hk p (by simp [hp]))⟩
      intro x hx
      rcases Store.mem_insert.mp hx with rfl | hx
      · show a < k; omega
      · exact h.1 x hx

/-- Every write keeps the canonical form. -/
theorem Store.wf_set [DecidableEq α] {d : α} {l : Store α} (h : Store.wf d l = true) (k : Nat) (v : α) :
    Store.wf d (Store.set d l k v) = true := by
  simp only [Store.wf, Bool.and_eq_true, Store.sorted_iff, List.all_eq_true, decide_eq_true_eq] at h ⊢
  have hd : (Store.drop l k).Pairwise (fun p q => p.1 < q.1) := by
    rw [Store.drop_eq_filter]; exact h.1.filter _
  unfold Store.set
  split
  · exact ⟨hd, fun p hp => h.2 p (Store.mem_drop hp).1⟩
  · rename_i hv
    refine ⟨Store.pairwise_insert hd (fun p hp => (Store.mem_drop hp).2), fun p hp => ?_⟩
    rcases Store.mem_insert.mp hp with rfl | hp
    · exact hv
    · exact h.2 p (Store.mem_drop hp).1

/-- A part of a store in canonical form is in canonical form. -/
theorem Store.wf_filter [DecidableEq α] {d : α} {l : Store α} (h : Store.wf d l = true) (f : Nat × α → Bool) :
    Store.wf d (l.filter f) = true := by
  simp only [Store.wf, Bool.and_eq_true, Store.sorted_iff, List.all_eq_true, decide_eq_true_eq] at h ⊢
  exact ⟨h.1.filter _, fun p hp => h.2 p (List.mem_filter.mp hp).1⟩

end Sys2Proof.Machine
end

