-- ==== Sys2Proof/Laws/Keeps.lean ====
section
/-! SUPPORT. How a chain of operations keeps the queue, the invariant and every part outside a footprint. A footprint is a number with
one bit a part, so that one footprint lies within another is one evaluation. The files Laws/<Family>Keeps.lean hold one lemma for each operation. -/

namespace Sys2Proof.Machine

/-- The bit of a part. -/
def Part.bit : Part → Nat
  | .reg r => r.ctorIdx
  | .dev => 1024
  | .now => 1025
  | .osc => 1026
  | .eff => 1027
  | .cap => 1028
  | .held => 1029
  | .readData => 1030
  | .presented => 1031
  | .commits => 1032
  | .holdoff => 1033
  | .mem => 1034
  | .poison => 1035
  | .epoch => 1036
  | .pllStarted => 1037
  | .lcs => 1038
  | .lcGen => 1039
  | .clocks => 1040
  | .gstbs => 1041
  | .wheels => 1042
  | .cses => 1043
  | .stitchers => 1044
  | .queues => 1045
  | .staging => 1046
  | .rings => 1047
  | .outs => 1048
  | .lines => 1049
  | .pins => 1050
  | .capus => 1051
  | .evin => 1052
  | .nvmQueue => 1053
  | .ports => 1054
  | .addrPins => 1055
  | .testEn => 1056
  | .ldr => 1057
  | .sec => 1058
  | .pwr => 1059
  | .qry => 1060
  | .ben => 1061
  | .missed => 1062
  | .tiers => 1063
  | .vref => 1064
  | .trimSaved => 1065
  | .trimDue => 1066
  | .fwUp => 1067
  | .free => 1068

/-- 2 to the n, by two small powers, so that every part of an evaluation stays small. -/
def twoTo (n : Nat) : Nat := Nat.mul (Nat.pow 2 (Nat.mod n 128)) (Nat.pow 340282366920938463463374607431768211456 (Nat.div n 128))

theorem twoTo_eq (n : Nat) : twoTo n = 2 ^ n := by
  show 2 ^ (n % 128) * (2 ^ 128) ^ (n / 128) = 2 ^ n
  rw [← Nat.pow_mul, ← Nat.pow_add, Nat.mod_add_div]

/-- The footprint of a list of parts. -/
def mask : List Part → Nat
  | [] => 0
  | p :: l => Nat.lor (twoTo p.bit) (mask l)

/-- The footprint of these parts lies within `m`. -/
def Within (l : List Part) (m : Nat) : Prop := Nat.land (mask l) m = mask l

theorem Within.test {l : List Part} {m : Nat} (h : Within l m) {p : Part} (hp : p ∈ l) : m.testBit p.bit = true := by
  have hm : (mask l).testBit p.bit = true := by
    clear h
    induction l with
    | nil => cases hp
    | cons q l ih =>
      have e : mask (q :: l) = twoTo q.bit ||| mask l := rfl
      rw [e, Nat.testBit_or, twoTo_eq]
      rcases List.mem_cons.mp hp with rfl | hp
      · rw [Nat.testBit_two_pow_self]; rfl
      · rw [ih hp, Bool.or_true]
  have e : (mask l &&& m).testBit p.bit = (mask l).testBit p.bit := congrArg (fun n => Nat.testBit n p.bit) h
  rw [Nat.testBit_and, hm, Bool.true_and] at e
  exact e

theorem Within.trans {l k : List Part} {m : Nat} (h : Nat.land (mask l) (mask k) = mask l) (hk : Within k m) : Within l m := by
  have h1 : mask l &&& mask k = mask l := h
  have h2 : mask k &&& m = mask k := hk
  show mask l &&& m = mask l
  rw [← h1, Nat.land_assoc, h2]

/-- The footprint of everything. -/
structure Whole (m : Nat) : Prop where
  all : ∀ p : Part, m.testBit p.bit = true

/-- From s0 to s: the queue is the same, the invariant is kept, and nothing outside the footprint `m` changes. -/
structure Keeps (m : Nat) (s0 s : State) : Prop where
  pending : s.pending = s0.pending
  inv : Inv s0 → Inv s
  same : ∀ p : Part, m.testBit p.bit = false → p.same s0 s

theorem Part.same_refl (p : Part) (s : State) : p.same s s := by cases p <;> first
  | rfl
  | exact fun _ _ _ => rfl

theorem Keeps.refl (m : Nat) (s : State) : Keeps m s s := ⟨rfl, id, fun p _ => p.same_refl s⟩

theorem Keeps.ite {m : Nat} {s0 a b : State} {c : Prop} [Decidable c] (ha : Keeps m s0 a) (hb : Keeps m s0 b) :
    Keeps m s0 (if c then a else b) := by
  split
  · exact ha
  · exact hb

theorem Keeps.dite {m : Nat} {s0 : State} {c : Prop} [Decidable c] {a : c → State} {b : ¬c → State} (ha : ∀ h, Keeps m s0 (a h))
    (hb : ∀ h, Keeps m s0 (b h)) : Keeps m s0 (if h : c then a h else b h) := by
  split
  · exact ha _
  · exact hb _

/-! ### Keys -/

theorem Reg.ctorIdx_lt (r : Reg) : r.ctorIdx < 1024 := by cases r <;> decide

theorem Reg.ctorIdx_inj {r r' : Reg} (h : r.ctorIdx = r'.ctorIdx) : r = r' := by
  have hr := Reg.ofNat_ctorIdx r
  have hr' := Reg.ofNat_ctorIdx r'
  rw [← hr, ← hr', h]

theorem key_mod (r : Reg) (inst idx sub : Nat) : key r inst idx sub % 1024 = r.ctorIdx := by
  have h := r.ctorIdx_lt
  unfold key
  omega

theorem key_ne {r r' : Reg} (h : r ≠ r') (i x u i' x' u' : Nat) : key r i x u ≠ key r' i' x' u' := fun e : key r i x u = key r' i' x' u' =>
  h (Reg.ctorIdx_inj (by rw [← key_mod r i x u, e, key_mod]))

/-- Keys tell places apart. -/
theorem key_inj {r : Reg} {i x u i' x' u' : Nat} (h : key r i x u = key r i' x' u') : i = i' ∧ x = x' ∧ u = u' := by
  unfold key at h
  have h1 : Nat.pair i (Nat.pair x u) = Nat.pair i' (Nat.pair x' u') := by omega
  obtain ⟨a, b⟩ := Nat.pair_eq_pair.mp h1
  obtain ⟨c, d⟩ := Nat.pair_eq_pair.mp b
  exact ⟨a, c, d⟩

/-! ### Fields that fit -/

theorem fieldsFit_drop {l : Store Nat} (h : fieldsFit l) (k : Nat) : fieldsFit (Store.drop l k) :=
  fun p hp => h p (Store.mem_drop hp).1

theorem fieldsFit_set {l : Store Nat} (h : fieldsFit l) (r : Reg) (d v i x u : Nat) (hv : v ≠ d → v < 2 ^ r.width) :
    fieldsFit (Store.set d l (key r i x u) v) := by
  unfold Store.set
  split
  · exact fieldsFit_drop h _
  · rename_i hd
    intro p hp
    rcases Store.mem_insert.mp hp with rfl | hp
    · exact ⟨r, key_mod .., hv hd⟩
    · exact fieldsFit_drop h _ p hp

theorem Reg.rst_fits (r : Reg) : r.info.rst < 2 ^ r.width := by cases r <;> decide

theorem Reg.resetVal_fits (r : Reg) (i x u : Nat) : r.resetVal i x u < 2 ^ r.width := by
  unfold Reg.resetVal
  split
  all_goals first
    | exact Reg.rst_fits _
    | decide
    | exact Nat.mod_lt u (by decide)
    | (split <;> first | decide | (split <;> first | decide | (split <;> decide)))

theorem fits_get {l : Store Nat} (h : fieldsFit l) (r : Reg) (i x u : Nat) :
    Store.get (r.resetVal i x u) l (key r i x u) < 2 ^ r.width := by
  induction l with
  | nil => exact r.resetVal_fits i x u
  | cons p l ih =>
    obtain ⟨k, v⟩ := p
    unfold Store.get
    split
    · rename_i hk
      obtain ⟨r', h1, h2⟩ := h (k, v) (by simp)
      have e : r' = r := Reg.ctorIdx_inj (by rw [← h1, ← key_mod r i x u, hk])
      rw [← e]; exact h2
    · exact ih (fun p hp => h p (by simp [hp]))

/-- A register field reads below 2 to its width. -/
theorem rd_lt {s : State} (h : fieldsFit s.regs) (r : Reg) (i x u : Nat) : s.rd r i x u < 2 ^ r.width := fits_get h r i x u

/-! ### The leaves -/

theorem Part.same_trans {p : Part} {a b c : State} (h : p.same a b) (k : p.same b c) : p.same a c := by
  cases p <;> first
    | exact fun i x u => (k i x u).trans (h i x u)
    | exact Eq.trans k h

variable {m : Nat} {s0 s : State}

/-- A step that keeps the queue and the invariant, and changes only parts of the footprint. -/
theorem Keeps.next (h : Keeps m s0 s) {t : State} (hp : t.pending = s.pending) (hi : Inv s → Inv t)
    (hs : ∀ p : Part, m.testBit p.bit = false → p.same s t) : Keeps m s0 t :=
  ⟨hp.trans h.pending, fun h0 => hi (h.inv h0), fun p hm => Part.same_trans (h.same p hm) (hs p hm)⟩

theorem Within.absurd {p : Part} {m : Nat} (h : Within [p] m) (hp : m.testBit p.bit = false) : False := by
  rw [h.test (List.mem_singleton.mpr rfl)] at hp; cases hp

/-- Writing a register field. -/
theorem Keeps.setReg (h : Keeps m s0 s) {r : Reg} (hw : Within [.reg r] m) (v i x u : Nat) (hv : v ≠ r.resetVal i x u → v < 2 ^ r.width) :
    Keeps m s0 { s with regs := Store.set (r.resetVal i x u) s.regs (key r i x u) v } := by
  refine h.next rfl (fun hi => ⟨hi.1, hi.2.1, fieldsFit_set hi.2.2.1 r _ v i x u hv, hi.2.2.2⟩) (fun p hp => ?_)
  cases p <;> first
    | rfl
    | skip
  rename_i r'
  have hne : r ≠ r' := fun e => hw.absurd (by rw [e]; exact hp)
  intro i' x' u'
  exact Store.get_set_ne' _ _ s.regs v (key_ne hne i x u i' x' u')

theorem wr_keeps (h : Keeps m s0 s) {r : Reg} (hw : Within [.reg r] m) (v i x u : Nat) : Keeps m s0 (s.wr r v i x u) :=
  h.setReg hw _ i x u (fun _ => Nat.mod_lt _ (Nat.two_pow_pos _))

theorem rst_keeps (h : Keeps m s0 s) {r : Reg} (hw : Within [.reg r] m) (i x u : Nat) : Keeps m s0 (s.rst r i x u) :=
  h.setReg hw _ i x u (fun hv => absurd rfl hv)

theorem inc_keeps (h : Keeps m s0 s) {r : Reg} (hw : Within [.reg r] m) (i x u : Nat) : Keeps m s0 (s.inc r i x u) := wr_keeps h hw ..

theorem wrIf_keeps (h : Keeps m s0 s) {r : Reg} (hw : Within [.reg r] m) (c : Bool) (v i x u : Nat) :
    Keeps m s0 (s.wrIf c r v i x u) := Keeps.ite (wr_keeps h hw ..) h

theorem wr64_keeps (h : Keeps m s0 s) {lo hi : Reg} (hl : Within [.reg lo] m) (hh : Within [.reg hi] m) (v i x : Nat) :
    Keeps m s0 (s.wr64 lo hi v i x) := wr_keeps (wr_keeps h hl ..) hh ..

theorem wrEff_keeps (h : Keeps m s0 s) (hw : Within [.eff] m) (r : Reg) (v i x u : Nat) : Keeps m s0 (s.wrEff r v i x u) := by
  refine h.next rfl (fun hi => ⟨hi.1, hi.2.1, hi.2.2.1, fieldsFit_set hi.2.2.2.1 r _ _ i x u
    (fun _ => Nat.mod_lt _ (Nat.two_pow_pos _)), hi.2.2.2.2⟩) (fun p hp => ?_)
  cases p <;> first
    | rfl
    | exact fun _ _ _ => rfl
    | exact (hw.absurd hp).elim

theorem State.capture_keeps (h : Keeps m s0 s) (hw : Within [.cap] m) (r : Reg) (i x u : Nat) : Keeps m s0 (s.capture r i x u) := by
  refine h.next rfl (fun hi => ⟨hi.1, hi.2.1, hi.2.2.1, hi.2.2.2.1, fieldsFit_set hi.2.2.2.2 r _ _ i x u
    (fun _ => rd_lt hi.2.2.1 ..)⟩) (fun p hp => ?_)
  cases p <;> first
    | rfl
    | exact fun _ _ _ => rfl
    | exact (hw.absurd hp).elim

theorem Keeps.upd_mem (h : Keeps m s0 s) (hw : Within [.mem] m) {v : Store Byte} (hv : Store.wf 0 s.mem = true → Store.wf 0 v = true) :
    Keeps m s0 { s with mem := v } := by
  refine h.next rfl (fun hi => ⟨hv hi.1, hi.2⟩) (fun p hp => ?_)
  cases p <;> first
    | rfl
    | exact fun _ _ _ => rfl
    | exact (hw.absurd hp).elim

theorem Keeps.upd_now (h : Keeps m s0 s) (hw : Within [.now] m) {v : Nat} (hv : Inv s → v < 2 ^ 64) : Keeps m s0 { s with now := v } := by
  refine h.next rfl (fun hi => ⟨hi.1, hv hi, hi.2.2⟩) (fun p hp => ?_)
  cases p <;> first
    | rfl
    | exact fun _ _ _ => rfl
    | exact (hw.absurd hp).elim

theorem Keeps.upd_dev (h : Keeps m s0 s) (hw : Within [.dev] m) (v) : Keeps m s0 { s with dev := v } := by
  refine h.next rfl id (fun p hp => ?_)
  cases p <;> first
    | rfl
    | exact fun _ _ _ => rfl
    | exact (hw.absurd hp).elim

theorem Keeps.upd_osc (h : Keeps m s0 s) (hw : Within [.osc] m) (v) : Keeps m s0 { s with osc := v } := by
  refine h.next rfl id (fun p hp => ?_)
  cases p <;> first
    | rfl
    | exact fun _ _ _ => rfl
    | exact (hw.absurd hp).elim

theorem Keeps.upd_held (h : Keeps m s0 s) (hw : Within [.held] m) (v) : Keeps m s0 { s with held := v } := by
  refine h.next rfl id (fun p hp => ?_)
  cases p <;> first
    | rfl
    | exact fun _ _ _ => rfl
    | exact (hw.absurd hp).elim

theorem Keeps.upd_readData (h : Keeps m s0 s) (hw : Within [.readData] m) (v) : Keeps m s0 { s with readData := v } := by
  refine h.next rfl id (fun p hp => ?_)
  cases p <;> first
    | rfl
    | exact fun _ _ _ => rfl
    | exact (hw.absurd hp).elim

theorem Keeps.upd_presented (h : Keeps m s0 s) (hw : Within [.presented] m) (v) : Keeps m s0 { s with presented := v } := by
  refine h.next rfl id (fun p hp => ?_)
  cases p <;> first
    | rfl
    | exact fun _ _ _ => rfl
    | exact (hw.absurd hp).elim

theorem Keeps.upd_commits (h : Keeps m s0 s) (hw : Within [.commits] m) (v) : Keeps m s0 { s with commits := v } := by
  refine h.next rfl id (fun p hp => ?_)
  cases p <;> first
    | rfl
    | exact fun _ _ _ => rfl
    | exact (hw.absurd hp).elim

theorem Keeps.upd_holdoff (h : Keeps m s0 s) (hw : Within [.holdoff] m) (v) : Keeps m s0 { s with holdoff := v } := by
  refine h.next rfl id (fun p hp => ?_)
  cases p <;> first
    | rfl
    | exact fun _ _ _ => rfl
    | exact (hw.absurd hp).elim

theorem Keeps.upd_poison (h : Keeps m s0 s) (hw : Within [.poison] m) (v) : Keeps m s0 { s with poison := v } := by
  refine h.next rfl id (fun p hp => ?_)
  cases p <;> first
    | rfl
    | exact fun _ _ _ => rfl
    | exact (hw.absurd hp).elim

theorem Keeps.upd_epoch (h : Keeps m s0 s) (hw : Within [.epoch] m) (v) : Keeps m s0 { s with epoch := v } := by
  refine h.next rfl id (fun p hp => ?_)
  cases p <;> first
    | rfl
    | exact fun _ _ _ => rfl
    | exact (hw.absurd hp).elim

theorem Keeps.upd_pllStarted (h : Keeps m s0 s) (hw : Within [.pllStarted] m) (v) : Keeps m s0 { s with pllStarted := v } := by
  refine h.next rfl id (fun p hp => ?_)
  cases p <;> first
    | rfl
    | exact fun _ _ _ => rfl
    | exact (hw.absurd hp).elim

theorem Keeps.upd_lcs (h : Keeps m s0 s) (hw : Within [.lcs] m) (v) : Keeps m s0 { s with lcs := v } := by
  refine h.next rfl id (fun p hp => ?_)
  cases p <;> first
    | rfl
    | exact fun _ _ _ => rfl
    | exact (hw.absurd hp).elim

theorem Keeps.upd_lcGen (h : Keeps m s0 s) (hw : Within [.lcGen] m) (v) : Keeps m s0 { s with lcGen := v } := by
  refine h.next rfl id (fun p hp => ?_)
  cases p <;> first
    | rfl
    | exact fun _ _ _ => rfl
    | exact (hw.absurd hp).elim

theorem Keeps.upd_clocks (h : Keeps m s0 s) (hw : Within [.clocks] m) (v) : Keeps m s0 { s with clocks := v } := by
  refine h.next rfl id (fun p hp => ?_)
  cases p <;> first
    | rfl
    | exact fun _ _ _ => rfl
    | exact (hw.absurd hp).elim

theorem Keeps.upd_gstbs (h : Keeps m s0 s) (hw : Within [.gstbs] m) (v) : Keeps m s0 { s with gstbs := v } := by
  refine h.next rfl id (fun p hp => ?_)
  cases p <;> first
    | rfl
    | exact fun _ _ _ => rfl
    | exact (hw.absurd hp).elim

theorem Keeps.upd_wheels (h : Keeps m s0 s) (hw : Within [.wheels] m) (v) : Keeps m s0 { s with wheels := v } := by
  refine h.next rfl id (fun p hp => ?_)
  cases p <;> first
    | rfl
    | exact fun _ _ _ => rfl
    | exact (hw.absurd hp).elim

theorem Keeps.upd_cses (h : Keeps m s0 s) (hw : Within [.cses] m) (v) : Keeps m s0 { s with cses := v } := by
  refine h.next rfl id (fun p hp => ?_)
  cases p <;> first
    | rfl
    | exact fun _ _ _ => rfl
    | exact (hw.absurd hp).elim

theorem Keeps.upd_stitchers (h : Keeps m s0 s) (hw : Within [.stitchers] m) (v) : Keeps m s0 { s with stitchers := v } := by
  refine h.next rfl id (fun p hp => ?_)
  cases p <;> first
    | rfl
    | exact fun _ _ _ => rfl
    | exact (hw.absurd hp).elim

theorem Keeps.upd_queues (h : Keeps m s0 s) (hw : Within [.queues] m) (v) : Keeps m s0 { s with queues := v } := by
  refine h.next rfl id (fun p hp => ?_)
  cases p <;> first
    | rfl
    | exact fun _ _ _ => rfl
    | exact (hw.absurd hp).elim

theorem Keeps.upd_staging (h : Keeps m s0 s) (hw : Within [.staging] m) (v) : Keeps m s0 { s with staging := v } := by
  refine h.next rfl id (fun p hp => ?_)
  cases p <;> first
    | rfl
    | exact fun _ _ _ => rfl
    | exact (hw.absurd hp).elim

theorem Keeps.upd_rings (h : Keeps m s0 s) (hw : Within [.rings] m) (v) : Keeps m s0 { s with rings := v } := by
  refine h.next rfl id (fun p hp => ?_)
  cases p <;> first
    | rfl
    | exact fun _ _ _ => rfl
    | exact (hw.absurd hp).elim

theorem Keeps.upd_outs (h : Keeps m s0 s) (hw : Within [.outs] m) (v) : Keeps m s0 { s with outs := v } := by
  refine h.next rfl id (fun p hp => ?_)
  cases p <;> first
    | rfl
    | exact fun _ _ _ => rfl
    | exact (hw.absurd hp).elim

theorem Keeps.upd_lines (h : Keeps m s0 s) (hw : Within [.lines] m) (v) : Keeps m s0 { s with lines := v } := by
  refine h.next rfl id (fun p hp => ?_)
  cases p <;> first
    | rfl
    | exact fun _ _ _ => rfl
    | exact (hw.absurd hp).elim

theorem Keeps.upd_pins (h : Keeps m s0 s) (hw : Within [.pins] m) (v) : Keeps m s0 { s with pins := v } := by
  refine h.next rfl id (fun p hp => ?_)
  cases p <;> first
    | rfl
    | exact fun _ _ _ => rfl
    | exact (hw.absurd hp).elim

theorem Keeps.upd_capus (h : Keeps m s0 s) (hw : Within [.capus] m) (v) : Keeps m s0 { s with capus := v } := by
  refine h.next rfl id (fun p hp => ?_)
  cases p <;> first
    | rfl
    | exact fun _ _ _ => rfl
    | exact (hw.absurd hp).elim

theorem Keeps.upd_evin (h : Keeps m s0 s) (hw : Within [.evin] m) (v) : Keeps m s0 { s with evin := v } := by
  refine h.next rfl id (fun p hp => ?_)
  cases p <;> first
    | rfl
    | exact fun _ _ _ => rfl
    | exact (hw.absurd hp).elim

theorem Keeps.upd_nvmQueue (h : Keeps m s0 s) (hw : Within [.nvmQueue] m) (v) : Keeps m s0 { s with nvmQueue := v } := by
  refine h.next rfl id (fun p hp => ?_)
  cases p <;> first
    | rfl
    | exact fun _ _ _ => rfl
    | exact (hw.absurd hp).elim

theorem Keeps.upd_ports (h : Keeps m s0 s) (hw : Within [.ports] m) (v) : Keeps m s0 { s with ports := v } := by
  refine h.next rfl id (fun p hp => ?_)
  cases p <;> first
    | rfl
    | exact fun _ _ _ => rfl
    | exact (hw.absurd hp).elim

theorem Keeps.upd_addrPins (h : Keeps m s0 s) (hw : Within [.addrPins] m) (v) : Keeps m s0 { s with addrPins := v } := by
  refine h.next rfl id (fun p hp => ?_)
  cases p <;> first
    | rfl
    | exact fun _ _ _ => rfl
    | exact (hw.absurd hp).elim

theorem Keeps.upd_testEn (h : Keeps m s0 s) (hw : Within [.testEn] m) (v) : Keeps m s0 { s with testEn := v } := by
  refine h.next rfl id (fun p hp => ?_)
  cases p <;> first
    | rfl
    | exact fun _ _ _ => rfl
    | exact (hw.absurd hp).elim

theorem Keeps.upd_ldr (h : Keeps m s0 s) (hw : Within [.ldr] m) (v) : Keeps m s0 { s with ldr := v } := by
  refine h.next rfl id (fun p hp => ?_)
  cases p <;> first
    | rfl
    | exact fun _ _ _ => rfl
    | exact (hw.absurd hp).elim

theorem Keeps.upd_sec (h : Keeps m s0 s) (hw : Within [.sec] m) (v) : Keeps m s0 { s with sec := v } := by
  refine h.next rfl id (fun p hp => ?_)
  cases p <;> first
    | rfl
    | exact fun _ _ _ => rfl
    | exact (hw.absurd hp).elim

theorem Keeps.upd_pwr (h : Keeps m s0 s) (hw : Within [.pwr] m) (v) : Keeps m s0 { s with pwr := v } := by
  refine h.next rfl id (fun p hp => ?_)
  cases p <;> first
    | rfl
    | exact fun _ _ _ => rfl
    | exact (hw.absurd hp).elim

theorem Keeps.upd_qry (h : Keeps m s0 s) (hw : Within [.qry] m) (v) : Keeps m s0 { s with qry := v } := by
  refine h.next rfl id (fun p hp => ?_)
  cases p <;> first
    | rfl
    | exact fun _ _ _ => rfl
    | exact (hw.absurd hp).elim

theorem Keeps.upd_ben (h : Keeps m s0 s) (hw : Within [.ben] m) (v) : Keeps m s0 { s with ben := v } := by
  refine h.next rfl id (fun p hp => ?_)
  cases p <;> first
    | rfl
    | exact fun _ _ _ => rfl
    | exact (hw.absurd hp).elim

theorem Keeps.upd_missed (h : Keeps m s0 s) (hw : Within [.missed] m) (v) : Keeps m s0 { s with missed := v } := by
  refine h.next rfl id (fun p hp => ?_)
  cases p <;> first
    | rfl
    | exact fun _ _ _ => rfl
    | exact (hw.absurd hp).elim

theorem Keeps.upd_tiers (h : Keeps m s0 s) (hw : Within [.tiers] m) (v) : Keeps m s0 { s with tiers := v } := by
  refine h.next rfl id (fun p hp => ?_)
  cases p <;> first
    | rfl
    | exact fun _ _ _ => rfl
    | exact (hw.absurd hp).elim

theorem Keeps.upd_vref (h : Keeps m s0 s) (hw : Within [.vref] m) (v) : Keeps m s0 { s with vref := v } := by
  refine h.next rfl id (fun p hp => ?_)
  cases p <;> first
    | rfl
    | exact fun _ _ _ => rfl
    | exact (hw.absurd hp).elim

theorem Keeps.upd_trimSaved (h : Keeps m s0 s) (hw : Within [.trimSaved] m) (v) : Keeps m s0 { s with trimSaved := v } := by
  refine h.next rfl id (fun p hp => ?_)
  cases p <;> first
    | rfl
    | exact fun _ _ _ => rfl
    | exact (hw.absurd hp).elim

theorem Keeps.upd_trimDue (h : Keeps m s0 s) (hw : Within [.trimDue] m) (v) : Keeps m s0 { s with trimDue := v } := by
  refine h.next rfl id (fun p hp => ?_)
  cases p <;> first
    | rfl
    | exact fun _ _ _ => rfl
    | exact (hw.absurd hp).elim

theorem Keeps.upd_fwUp (h : Keeps m s0 s) (hw : Within [.fwUp] m) (v) : Keeps m s0 { s with fwUp := v } := by
  refine h.next rfl id (fun p hp => ?_)
  cases p <;> first
    | rfl
    | exact fun _ _ _ => rfl
    | exact (hw.absurd hp).elim

theorem Keeps.upd_free (h : Keeps m s0 s) (hw : Within [.free] m) (v) : Keeps m s0 { s with free := v } := by
  refine h.next rfl id (fun p hp => ?_)
  cases p <;> first
    | rfl
    | exact fun _ _ _ => rfl
    | exact (hw.absurd hp).elim

theorem fieldsFit_filter {l : Store Nat} (h : fieldsFit l) (f : Nat × Nat → Bool) : fieldsFit (l.filter f) :=
  fun p hp => h p (List.mem_filter.mp hp).1

theorem fieldsFit_nil : fieldsFit [] := fun p hp => by cases hp

/-- A step that may change every part. -/
theorem Keeps.whole (h : Keeps m s0 s) (hm : Whole m) {t : State} (hp : t.pending = s.pending) (hi : Inv s → Inv t) : Keeps m s0 t :=
  h.next hp hi (fun p hf => by rw [hm.all p] at hf; cases hf)

/-! ### Combinators -/

theorem foldl_keeps {α : Type} {f : State → α → State} (xs : List α) (hf : ∀ t x, Keeps m s0 t → Keeps m s0 (f t x))
    (h : Keeps m s0 s) : Keeps m s0 (xs.foldl f s) := by
  induction xs generalizing s with
  | nil => exact h
  | cons x xs ih => exact ih (hf s x h)

theorem each_keeps {α : Type} {xs : List α} {f : α → State → State} (hf : ∀ x t, Keeps m s0 t → Keeps m s0 (f x t))
    (h : Keeps m s0 s) : Keeps m s0 (each xs f s) := foldl_keeps xs (fun t x => hf x t) h

theorem Within.of_test {l : List Part} {m : Nat} (h : ∀ p ∈ l, m.testBit p.bit = true) : Within l m := by
  have key : mask l &&& m = mask l := by
    induction l with
    | nil => exact Nat.zero_and m
    | cons p l ih =>
      have e : mask (p :: l) = twoTo p.bit ||| mask l := rfl
      rw [e, Nat.and_comm, Nat.and_or_distrib_left, Nat.and_comm m (mask l), ih (fun q hq => h q (List.mem_cons_of_mem p hq)), twoTo_eq]
      congr 1
      apply Nat.eq_of_testBit_eq
      intro i
      rw [Nat.testBit_and]
      by_cases hi : p.bit = i
      · rw [← hi, h p List.mem_cons_self, Bool.true_and]
      · rw [Nat.testBit_two_pow_of_ne hi, Bool.and_false]
  exact key

theorem Whole.within {m : Nat} (h : Whole m) (l : List Part) : Within l m := Within.of_test (fun p _ => h.all p)

/-- A loop over named registers. -/
theorem eachReg_keeps {rs : List Reg} (hw : Within (rs.map Part.reg) m) {f : Reg → State → State}
    (hf : ∀ r t, Within [.reg r] m → Keeps m s0 t → Keeps m s0 (f r t)) (h : Keeps m s0 s) : Keeps m s0 (each rs f s) := by
  have key : ∀ r ∈ rs, Within [.reg r] m := fun r hr => Within.of_test (fun p hp => by
    rw [List.mem_singleton.mp hp]; exact hw.test (List.mem_map_of_mem hr))
  clear hw
  induction rs generalizing s with
  | nil => exact h
  | cons r rs ih =>
    exact ih (hf r s (key r List.mem_cons_self) h) (fun q hq => key q (List.mem_cons_of_mem r hq))

theorem on_keeps {c : Prop} [Decidable c] {f : State → State} (hf : ∀ t, Keeps m s0 t → Keeps m s0 (f t)) (h : Keeps m s0 s) :
    Keeps m s0 (on c f s) := Keeps.ite (hf s h) h

/-- Any state that an optional result holds is kept. -/
structure KeepsOpt (m : Nat) (s0 : State) (o : Option State) : Prop where
  keeps : ∀ t, o = some t → Keeps m s0 t

theorem KeepsOpt.none : KeepsOpt m s0 none := ⟨fun _ h => by cases h⟩

theorem KeepsOpt.some (h : Keeps m s0 s) : KeepsOpt m s0 (some s) := ⟨fun t e => by cases e; exact h⟩

theorem KeepsOpt.ite {a b : Option State} {c : Prop} [Decidable c] (ha : KeepsOpt m s0 a) (hb : KeepsOpt m s0 b) :
    KeepsOpt m s0 (if c then a else b) := by
  split
  · exact ha
  · exact hb

theorem KeepsOpt.getD {o : Option State} (ho : KeepsOpt m s0 o) (h : Keeps m s0 s) : Keeps m s0 (o.getD s) := by
  cases o with
  | none => exact h
  | some t => exact ho.keeps t rfl

theorem Keeps.of_snd {α : Type} {p : α × State} {a : α} {t : State} (e : p = (a, t)) (h : Keeps m s0 p.2) : Keeps m s0 t := by
  rw [e] at h; exact h

/-- A command answers a next state, and keeps it. -/
def Ends (m : Nat) (s0 : State) (o : Out) : Prop := ∃ t, o = .next t ∧ Keeps m s0 t

theorem Ends.next (h : Keeps m s0 s) : Ends m s0 (.next s) := ⟨s, rfl, h⟩

theorem Ends.ite {a b : Out} {c : Prop} [Decidable c] (ha : Ends m s0 a) (hb : Ends m s0 b) : Ends m s0 (if c then a else b) := by
  split
  · exact ha
  · exact hb

theorem act_keeps {f : State → State} (hf : ∀ t, Keeps m s0 t → Keeps m s0 (f t)) (h : Keeps m s0 s) : Ends m s0 (act s f) :=
  Ends.next (Keeps.ite (hf s h) h)

/-- A state written out from another: each part is the same or in the footprint. -/
theorem Keeps.of_fields {x_pending : List Instr} {x_dev : Dev} {x_now : Nat} {x_osc : Nat} {x_regs : Store Nat} {x_eff : Store Nat}
    {x_cap : Store Nat} {x_held : Store (Option (Nat × Nat))} {x_readData : List Byte} {x_presented : List Nat} {x_commits : List
    Commit} {x_holdoff : Store Nat} {x_mem : Store Byte} {x_poison : Store Bool} {x_epoch : EpochLoad} {x_pllStarted : Bool} {x_lcs :
    Store Comparator} {x_lcGen : Store Nat} {x_clocks : Store QuadClock} {x_gstbs : Store Gstb} {x_wheels : Store Wheel} {x_cses : Store
    Cse} {x_stitchers : Store Stitcher} {x_queues : Store TackQueue} {x_staging : Store Staging} {x_rings : Store Ring} {x_outs : Store
    OutChan} {x_lines : Store HarnessLine} {x_pins : Store PinState} {x_capus : Store (List CapRecord)} {x_evin : List (Nat × Nat)}
    {x_nvmQueue : List Nat} {x_ports : Store Port} {x_addrPins : Nat} {x_testEn : Bool} {x_ldr : Loader} {x_sec : Sec} {x_pwr : Power}
    {x_qry : Quarry} {x_ben : Benches} {x_missed : Store Bool} {x_tiers : Store TierState} {x_vref : Rat} {x_trimSaved : Nat} {x_trimDue
    : Bool} {x_fwUp : Bool} {x_free : Nat} (e0 : x_pending = s.pending) (e_dev : x_dev = s.dev ∨ Within [.dev] m) (e_now : x_now =
    s.now) (e_osc : x_osc = s.osc ∨ Within [.osc] m) (e_regs : x_regs = s.regs) (e_eff : x_eff = s.eff) (e_cap : x_cap = s.cap) (e_held
    : x_held = s.held ∨ Within [.held] m) (e_readData : x_readData = s.readData ∨ Within [.readData] m) (e_presented : x_presented =
    s.presented ∨ Within [.presented] m) (e_commits : x_commits = s.commits ∨ Within [.commits] m) (e_holdoff : x_holdoff = s.holdoff ∨
    Within [.holdoff] m) (e_mem : x_mem = s.mem) (e_poison : x_poison = s.poison ∨ Within [.poison] m) (e_epoch : x_epoch = s.epoch ∨
    Within [.epoch] m) (e_pllStarted : x_pllStarted = s.pllStarted ∨ Within [.pllStarted] m) (e_lcs : x_lcs = s.lcs ∨ Within [.lcs] m)
    (e_lcGen : x_lcGen = s.lcGen ∨ Within [.lcGen] m) (e_clocks : x_clocks = s.clocks ∨ Within [.clocks] m) (e_gstbs : x_gstbs = s.gstbs
    ∨ Within [.gstbs] m) (e_wheels : x_wheels = s.wheels ∨ Within [.wheels] m) (e_cses : x_cses = s.cses ∨ Within [.cses] m)
    (e_stitchers : x_stitchers = s.stitchers ∨ Within [.stitchers] m) (e_queues : x_queues = s.queues ∨ Within [.queues] m) (e_staging :
    x_staging = s.staging ∨ Within [.staging] m) (e_rings : x_rings = s.rings ∨ Within [.rings] m) (e_outs : x_outs = s.outs ∨ Within
    [.outs] m) (e_lines : x_lines = s.lines ∨ Within [.lines] m) (e_pins : x_pins = s.pins ∨ Within [.pins] m) (e_capus : x_capus =
    s.capus ∨ Within [.capus] m) (e_evin : x_evin = s.evin ∨ Within [.evin] m) (e_nvmQueue : x_nvmQueue = s.nvmQueue ∨ Within
    [.nvmQueue] m) (e_ports : x_ports = s.ports ∨ Within [.ports] m) (e_addrPins : x_addrPins = s.addrPins ∨ Within [.addrPins] m)
    (e_testEn : x_testEn = s.testEn ∨ Within [.testEn] m) (e_ldr : x_ldr = s.ldr ∨ Within [.ldr] m) (e_sec : x_sec = s.sec ∨ Within
    [.sec] m) (e_pwr : x_pwr = s.pwr ∨ Within [.pwr] m) (e_qry : x_qry = s.qry ∨ Within [.qry] m) (e_ben : x_ben = s.ben ∨ Within [.ben]
    m) (e_missed : x_missed = s.missed ∨ Within [.missed] m) (e_tiers : x_tiers = s.tiers ∨ Within [.tiers] m) (e_vref : x_vref = s.vref
    ∨ Within [.vref] m) (e_trimSaved : x_trimSaved = s.trimSaved ∨ Within [.trimSaved] m) (e_trimDue : x_trimDue = s.trimDue ∨ Within
    [.trimDue] m) (e_fwUp : x_fwUp = s.fwUp ∨ Within [.fwUp] m) (e_free : x_free = s.free ∨ Within [.free] m) (h : Keeps m s0 s) : Keeps
    m s0 (State.mk x_pending x_dev x_now x_osc x_regs x_eff x_cap x_held x_readData x_presented x_commits x_holdoff x_mem x_poison
    x_epoch x_pllStarted x_lcs x_lcGen x_clocks x_gstbs x_wheels x_cses x_stitchers x_queues x_staging x_rings x_outs x_lines x_pins
    x_capus x_evin x_nvmQueue x_ports x_addrPins x_testEn x_ldr x_sec x_pwr x_qry x_ben x_missed x_tiers x_vref x_trimSaved x_trimDue
    x_fwUp x_free) := by
  subst e0 e_now e_regs e_eff e_cap e_mem
  refine h.next rfl id (fun p hp => ?_)
  cases p with
  | reg r => exact fun _ _ _ => rfl
  | now => exact rfl
  | eff => exact rfl
  | cap => exact rfl
  | mem => exact rfl
  | dev => exact e_dev.resolve_right (fun hw => hw.absurd hp)
  | osc => exact e_osc.resolve_right (fun hw => hw.absurd hp)
  | held => exact e_held.resolve_right (fun hw => hw.absurd hp)
  | readData => exact e_readData.resolve_right (fun hw => hw.absurd hp)
  | presented => exact e_presented.resolve_right (fun hw => hw.absurd hp)
  | commits => exact e_commits.resolve_right (fun hw => hw.absurd hp)
  | holdoff => exact e_holdoff.resolve_right (fun hw => hw.absurd hp)
  | poison => exact e_poison.resolve_right (fun hw => hw.absurd hp)
  | epoch => exact e_epoch.resolve_right (fun hw => hw.absurd hp)
  | pllStarted => exact e_pllStarted.resolve_right (fun hw => hw.absurd hp)
  | lcs => exact e_lcs.resolve_right (fun hw => hw.absurd hp)
  | lcGen => exact e_lcGen.resolve_right (fun hw => hw.absurd hp)
  | clocks => exact e_clocks.resolve_right (fun hw => hw.absurd hp)
  | gstbs => exact e_gstbs.resolve_right (fun hw => hw.absurd hp)
  | wheels => exact e_wheels.resolve_right (fun hw => hw.absurd hp)
  | cses => exact e_cses.resolve_right (fun hw => hw.absurd hp)
  | stitchers => exact e_stitchers.resolve_right (fun hw => hw.absurd hp)
  | queues => exact e_queues.resolve_right (fun hw => hw.absurd hp)
  | staging => exact e_staging.resolve_right (fun hw => hw.absurd hp)
  | rings => exact e_rings.resolve_right (fun hw => hw.absurd hp)
  | outs => exact e_outs.resolve_right (fun hw => hw.absurd hp)
  | lines => exact e_lines.resolve_right (fun hw => hw.absurd hp)
  | pins => exact e_pins.resolve_right (fun hw => hw.absurd hp)
  | capus => exact e_capus.resolve_right (fun hw => hw.absurd hp)
  | evin => exact e_evin.resolve_right (fun hw => hw.absurd hp)
  | nvmQueue => exact e_nvmQueue.resolve_right (fun hw => hw.absurd hp)
  | ports => exact e_ports.resolve_right (fun hw => hw.absurd hp)
  | addrPins => exact e_addrPins.resolve_right (fun hw => hw.absurd hp)
  | testEn => exact e_testEn.resolve_right (fun hw => hw.absurd hp)
  | ldr => exact e_ldr.resolve_right (fun hw => hw.absurd hp)
  | sec => exact e_sec.resolve_right (fun hw => hw.absurd hp)
  | pwr => exact e_pwr.resolve_right (fun hw => hw.absurd hp)
  | qry => exact e_qry.resolve_right (fun hw => hw.absurd hp)
  | ben => exact e_ben.resolve_right (fun hw => hw.absurd hp)
  | missed => exact e_missed.resolve_right (fun hw => hw.absurd hp)
  | tiers => exact e_tiers.resolve_right (fun hw => hw.absurd hp)
  | vref => exact e_vref.resolve_right (fun hw => hw.absurd hp)
  | trimSaved => exact e_trimSaved.resolve_right (fun hw => hw.absurd hp)
  | trimDue => exact e_trimDue.resolve_right (fun hw => hw.absurd hp)
  | fwUp => exact e_fwUp.resolve_right (fun hw => hw.absurd hp)
  | free => exact e_free.resolve_right (fun hw => hw.absurd hp)

/-! ### From footprints to lists of parts -/

theorem Part.bit_inj {p q : Part} (h : p.bit = q.bit) : p = q := by
  cases p with
  | reg r =>
    cases q with
    | reg r' => rw [Reg.ctorIdx_inj h]
    | _ => exact absurd r.ctorIdx_lt (by rw [show r.ctorIdx = _ from h]; decide)
  | _ =>
    cases q with
    | reg r' => exact absurd r'.ctorIdx_lt (by rw [show r'.ctorIdx = _ from h.symm]; decide)
    | _ => first | rfl | (exact absurd h (by decide))

theorem mask_test_of_not_mem {p : Part} {l : List Part} (h : p ∉ l) : (mask l).testBit p.bit = false := by
  induction l with
  | nil => exact Nat.zero_testBit _
  | cons q l ih =>
    have e : mask (q :: l) = twoTo q.bit ||| mask l := rfl
    rw [List.mem_cons, not_or] at h
    rw [e, Nat.testBit_or, ih h.2, Bool.or_false, twoTo_eq]
    exact Nat.testBit_two_pow_of_ne (fun hb => h.1 (Part.bit_inj hb.symm))

/-- A footprint as a list of parts. -/
theorem Keeps.only {l : List Part} {a b : State} (h : Keeps (mask l) a b) : OnlyChanges l a b :=
  fun p hp => h.same p (mask_test_of_not_mem hp)

/-- What a command that answers a next state leaves alone. -/
theorem Ends.only {l : List Part} {a b : State} {o : Out} (k : Ends (mask l) a o) (h : o = .next b) : OnlyChanges l a b := by
  obtain ⟨u, e, k⟩ := k
  cases e.symm.trans h
  exact k.only

end Sys2Proof.Machine
end

