-- ==== Sys2Proof/Laws/OpsKeeps.lean ====
section
/-! SUPPORT. What the operations of Machine/Ops.lean keep: the queue, the invariant, and every part outside their footprint. -/

set_option maxRecDepth 4000
set_option linter.unusedTactic false
set_option linter.unreachableTactic false

namespace Sys2Proof.Machine

variable {m : Nat} {s0 s : State}

theorem State.setLc_keeps (h : Keeps m s0 s) (hw : Within [.lcs] m) (a1 : Nat) (a2 : Comparator) : Keeps m s0 (State.setLc s a1 a2) :=
    by
  unfold State.setLc
  try dsimp only
  repeat' first
    | with_reducible assumption
    | exact Within.trans (Eq.refl _) hw
    | (with_reducible apply Keeps.of_fields <;>
        first | with_reducible exact rfl | with_reducible exact Or.inl rfl | exact Or.inr (Within.trans (Eq.refl _) hw) | skip)

theorem State.setClock_keeps (h : Keeps m s0 s) (hw : Within [.clocks] m) (a1 : Nat) (a2 : QuadClock) : Keeps m s0 (State.setClock s a1
    a2) := by
  unfold State.setClock
  try dsimp only
  repeat' first
    | with_reducible assumption
    | exact Within.trans (Eq.refl _) hw
    | (with_reducible apply Keeps.of_fields <;>
        first | with_reducible exact rfl | with_reducible exact Or.inl rfl | exact Or.inr (Within.trans (Eq.refl _) hw) | skip)

theorem State.setGstb_keeps (h : Keeps m s0 s) (hw : Within [.gstbs] m) (a1 : Nat) (a2 : Gstb) : Keeps m s0 (State.setGstb s a1 a2) :=
    by
  unfold State.setGstb
  try dsimp only
  repeat' first
    | with_reducible assumption
    | exact Within.trans (Eq.refl _) hw
    | (with_reducible apply Keeps.of_fields <;>
        first | with_reducible exact rfl | with_reducible exact Or.inl rfl | exact Or.inr (Within.trans (Eq.refl _) hw) | skip)

theorem State.setWheel_keeps (h : Keeps m s0 s) (hw : Within [.wheels] m) (a1 : Nat) (a2 : Wheel) : Keeps m s0 (State.setWheel s a1 a2)
    := by
  unfold State.setWheel
  try dsimp only
  repeat' first
    | with_reducible assumption
    | exact Within.trans (Eq.refl _) hw
    | (with_reducible apply Keeps.of_fields <;>
        first | with_reducible exact rfl | with_reducible exact Or.inl rfl | exact Or.inr (Within.trans (Eq.refl _) hw) | skip)

theorem State.setCse_keeps (h : Keeps m s0 s) (hw : Within [.cses] m) (a1 : Nat) (a2 : Cse) : Keeps m s0 (State.setCse s a1 a2) := by
  unfold State.setCse
  try dsimp only
  repeat' first
    | with_reducible assumption
    | exact Within.trans (Eq.refl _) hw
    | (with_reducible apply Keeps.of_fields <;>
        first | with_reducible exact rfl | with_reducible exact Or.inl rfl | exact Or.inr (Within.trans (Eq.refl _) hw) | skip)

theorem State.setStitcher_keeps (h : Keeps m s0 s) (hw : Within [.stitchers] m) (a1 : Nat) (a2 : Stitcher) : Keeps m s0
    (State.setStitcher s a1 a2) := by
  unfold State.setStitcher
  try dsimp only
  repeat' first
    | with_reducible assumption
    | exact Within.trans (Eq.refl _) hw
    | (with_reducible apply Keeps.of_fields <;>
        first | with_reducible exact rfl | with_reducible exact Or.inl rfl | exact Or.inr (Within.trans (Eq.refl _) hw) | skip)

theorem State.setQueue_keeps (h : Keeps m s0 s) (hw : Within [.queues] m) (a1 : Nat) (a2 : TackQueue) : Keeps m s0 (State.setQueue s a1
    a2) := by
  unfold State.setQueue
  try dsimp only
  repeat' first
    | with_reducible assumption
    | exact Within.trans (Eq.refl _) hw
    | (with_reducible apply Keeps.of_fields <;>
        first | with_reducible exact rfl | with_reducible exact Or.inl rfl | exact Or.inr (Within.trans (Eq.refl _) hw) | skip)

theorem State.setStage_keeps (h : Keeps m s0 s) (hw : Within [.staging] m) (a1 : Nat) (a2 : Staging) : Keeps m s0 (State.setStage s a1
    a2) := by
  unfold State.setStage
  try dsimp only
  repeat' first
    | with_reducible assumption
    | exact Within.trans (Eq.refl _) hw
    | (with_reducible apply Keeps.of_fields <;>
        first | with_reducible exact rfl | with_reducible exact Or.inl rfl | exact Or.inr (Within.trans (Eq.refl _) hw) | skip)

theorem State.setRing_keeps (h : Keeps m s0 s) (hw : Within [.rings] m) (a1 : Nat) (a2 : Ring) : Keeps m s0 (State.setRing s a1 a2) :=
    by
  unfold State.setRing
  try dsimp only
  repeat' first
    | with_reducible assumption
    | exact Within.trans (Eq.refl _) hw
    | (with_reducible apply Keeps.of_fields <;>
        first | with_reducible exact rfl | with_reducible exact Or.inl rfl | exact Or.inr (Within.trans (Eq.refl _) hw) | skip)

theorem State.setOut_keeps (h : Keeps m s0 s) (hw : Within [.outs] m) (a1 : Nat) (a2 : OutChan) : Keeps m s0 (State.setOut s a1 a2) :=
    by
  unfold State.setOut
  try dsimp only
  repeat' first
    | with_reducible assumption
    | exact Within.trans (Eq.refl _) hw
    | (with_reducible apply Keeps.of_fields <;>
        first | with_reducible exact rfl | with_reducible exact Or.inl rfl | exact Or.inr (Within.trans (Eq.refl _) hw) | skip)

theorem State.setLine_keeps (h : Keeps m s0 s) (hw : Within [.lines] m) (a1 : Nat) (a2 : HarnessLine) : Keeps m s0 (State.setLine s a1
    a2) := by
  unfold State.setLine
  try dsimp only
  repeat' first
    | with_reducible assumption
    | exact Within.trans (Eq.refl _) hw
    | (with_reducible apply Keeps.of_fields <;>
        first | with_reducible exact rfl | with_reducible exact Or.inl rfl | exact Or.inr (Within.trans (Eq.refl _) hw) | skip)

theorem State.setPin_keeps (h : Keeps m s0 s) (hw : Within [.pins] m) (a1 : Nat) (a2 : PinState) : Keeps m s0 (State.setPin s a1 a2) :=
    by
  unfold State.setPin
  try dsimp only
  repeat' first
    | with_reducible assumption
    | exact Within.trans (Eq.refl _) hw
    | (with_reducible apply Keeps.of_fields <;>
        first | with_reducible exact rfl | with_reducible exact Or.inl rfl | exact Or.inr (Within.trans (Eq.refl _) hw) | skip)

theorem State.setCapu_keeps (h : Keeps m s0 s) (hw : Within [.capus] m) (a1 : Nat) (a2 : List CapRecord) : Keeps m s0 (State.setCapu s
    a1 a2) := by
  unfold State.setCapu
  try dsimp only
  repeat' first
    | with_reducible assumption
    | exact Within.trans (Eq.refl _) hw
    | (with_reducible apply Keeps.of_fields <;>
        first | with_reducible exact rfl | with_reducible exact Or.inl rfl | exact Or.inr (Within.trans (Eq.refl _) hw) | skip)

theorem State.setTier_keeps (h : Keeps m s0 s) (hw : Within [.tiers] m) (a1 : Nat) (a2 : TierState) : Keeps m s0 (State.setTier s a1 a2)
    := by
  unfold State.setTier
  try dsimp only
  repeat' first
    | with_reducible assumption
    | exact Within.trans (Eq.refl _) hw
    | (with_reducible apply Keeps.of_fields <;>
        first | with_reducible exact rfl | with_reducible exact Or.inl rfl | exact Or.inr (Within.trans (Eq.refl _) hw) | skip)

theorem State.setPort_keeps (h : Keeps m s0 s) (hw : Within [.ports] m) (a1 : Nat) (a2 : Port) : Keeps m s0 (State.setPort s a1 a2) :=
    by
  unfold State.setPort
  try dsimp only
  repeat' first
    | with_reducible assumption
    | exact Within.trans (Eq.refl _) hw
    | (with_reducible apply Keeps.of_fields <;>
        first | with_reducible exact rfl | with_reducible exact Or.inl rfl | exact Or.inr (Within.trans (Eq.refl _) hw) | skip)

theorem present_keeps (h : Keeps m s0 s) (hw : Within [.presented] m) (a1 : Nat) : Keeps m s0 (present a1 s) := by
  unfold present
  try dsimp only
  repeat' first
    | with_reducible assumption
    | exact Within.trans (Eq.refl _) hw
    | (with_reducible apply Keeps.of_fields <;>
        first | with_reducible exact rfl | with_reducible exact Or.inl rfl | exact Or.inr (Within.trans (Eq.refl _) hw) | skip)

theorem raiseFor_keeps (h : Keeps m s0 s) (hw : Within [.reg .EVT_PEND_PEND, .reg .EVT_RAW_RAW, .presented] m) (a1 : Page) (a2 : Nat)
    (a3 : Nat) (a4 : Nat) : Keeps m s0 (raiseFor a1 a2 a3 a4 s) := by
  unfold raiseFor
  try dsimp only
  repeat' first
    | with_reducible assumption
    | exact Within.trans (Eq.refl _) hw
    | with_reducible apply wr_keeps
    | with_reducible apply Keeps.ite
    | split
    | (with_reducible apply Keeps.of_fields <;>
        first | with_reducible exact rfl | with_reducible exact Or.inl rfl | exact Or.inr (Within.trans (Eq.refl _) hw) | skip)

theorem raise_keeps (h : Keeps m s0 s) (hw : Within [.reg .EVT_PEND_PEND, .reg .EVT_RAW_RAW, .presented] m) (a1 : Page) (a2 : Nat) (a3 :
    Nat) : Keeps m s0 (raise a1 a2 a3 s) := by
  unfold raise
  try dsimp only
  repeat' first
    | with_reducible assumption
    | exact Within.trans (Eq.refl _) hw
    | with_reducible apply raiseFor_keeps

theorem raiseHeld_keeps (h : Keeps m s0 s) (hw : Within [.reg .EVT_PEND_PEND, .reg .EVT_RAW_RAW, .presented, .holdoff] m) (a1 : Page)
    (a2 : Nat) (a3 : Nat) : Keeps m s0 (raiseHeld a1 a2 a3 s) := by
  unfold raiseHeld
  try dsimp only
  repeat' first
    | with_reducible assumption
    | exact Within.trans (Eq.refl _) hw
    | with_reducible apply raise_keeps
    | with_reducible apply Keeps.ite
    | split
    | (with_reducible apply Keeps.of_fields <;>
        first | with_reducible exact rfl | with_reducible exact Or.inl rfl | exact Or.inr (Within.trans (Eq.refl _) hw) | skip)

theorem recordErr_keeps (h : Keeps m s0 s) (hw : Within [.reg .ERR_CODE_CODE, .reg .ERR_CODE_MASTER, .reg .ERR_CODE_OVF, .reg
    .ERR_CODE_WORD, .reg .ERR_CODE_WRITE] m) (a1 : Page) (a2 : Nat) (a3 : Nat) (a4 : Nat) (a5 : Bool) (a6 : Nat) : Keeps m s0 (recordErr a1
    a2 a3 a4 a5 a6 s) := by
  unfold recordErr
  try dsimp only
  repeat' first
    | with_reducible assumption
    | exact Within.trans (Eq.refl _) hw
    | with_reducible apply wr_keeps
    | with_reducible apply Keeps.ite
    | split

theorem actionErr_keeps (h : Keeps m s0 s) (hw : Within [.reg .ERR_CODE_CODE, .reg .ERR_CODE_MASTER, .reg .ERR_CODE_OVF, .reg
    .ERR_CODE_WORD, .reg .ERR_CODE_WRITE] m) (a1 : Page) (a2 : Nat) (a3 : Nat) (a4 : Nat) : Keeps m s0 (actionErr a1 a2 a3 a4 s) := by
  unfold actionErr
  try dsimp only
  repeat' first
    | with_reducible assumption
    | exact Within.trans (Eq.refl _) hw
    | with_reducible apply recordErr_keeps

theorem beginExit_keeps (h : Keeps m s0 s) (hw : Within [.reg .POWER_STATUS_ENTERING, .reg .POWER_STATUS_EXITING, .reg
    .POWER_WAKE_STAT_CLASS, .reg .POWER_WAKE_STAT_FROM, .pwr] m) (a1 : Nat) : Keeps m s0 (beginExit a1 s) := by
  unfold beginExit
  try dsimp only
  repeat' first
    | with_reducible assumption
    | exact Within.trans (Eq.refl _) hw
    | with_reducible apply wr_keeps
    | with_reducible apply Keeps.ite
    | split
    | (with_reducible apply Keeps.of_fields <;>
        first | with_reducible exact rfl | with_reducible exact Or.inl rfl | exact Or.inr (Within.trans (Eq.refl _) hw) | skip)

theorem wake_keeps (h : Keeps m s0 s) (hw : Within [.reg .POWER_STATUS_ENTERING, .reg .POWER_STATUS_EXITING, .reg
    .POWER_WAKE_STAT_CLASS, .reg .POWER_WAKE_STAT_FROM, .pwr] m) (a1 : Nat) : Keeps m s0 (wake a1 s) := by
  unfold wake
  try dsimp only
  repeat' first
    | with_reducible assumption
    | exact Within.trans (Eq.refl _) hw
    | with_reducible apply beginExit_keeps
    | with_reducible apply Keeps.ite
    | split

theorem hostWake_keeps (h : Keeps m s0 s) (hw : Within [.reg .POWER_STATUS_ENTERING, .reg .POWER_STATUS_EXITING, .reg
    .POWER_WAKE_STAT_CLASS, .reg .POWER_WAKE_STAT_FROM, .pwr] m) (a1 : Nat) : Keeps m s0 (hostWake a1 s) := by
  unfold hostWake
  try dsimp only
  repeat' first
    | with_reducible assumption
    | exact Within.trans (Eq.refl _) hw
    | with_reducible apply wake_keeps
    | with_reducible apply Keeps.ite
    | split

theorem gate_keeps (h : Keeps m s0 s) (hw : Within [.reg .ERR_CODE_CODE, .reg .ERR_CODE_MASTER, .reg .ERR_CODE_OVF, .reg .ERR_CODE_WORD,
    .reg .ERR_CODE_WRITE, .reg .POWER_STATUS_ENTERING, .reg .POWER_STATUS_EXITING, .reg .POWER_WAKE_STAT_CLASS, .reg .POWER_WAKE_STAT_FROM,
    .pwr] m) (a1 : Page) (a2 : Nat) (a3 : Nat) (a4 : Nat) (a5 : Bool) (a6 : State → State) (k6 : ∀ t, Keeps m s0 t → Keeps m s0 (a6 t)) :
    Keeps m s0 (gate a1 a2 a3 a4 a5 a6 s) := by
  unfold gate
  try dsimp only
  repeat' first
    | with_reducible assumption
    | exact Within.trans (Eq.refl _) hw
    | (intro _)
    | with_reducible apply hostWake_keeps
    | with_reducible apply recordErr_keeps
    | with_reducible apply k6
    | with_reducible apply Keeps.ite
    | split

theorem cmd_keeps (h : Keeps m s0 s) (hw : Within [.reg .ERR_CODE_CODE, .reg .ERR_CODE_MASTER, .reg .ERR_CODE_OVF, .reg .ERR_CODE_WORD,
    .reg .ERR_CODE_WRITE, .reg .POWER_STATUS_ENTERING, .reg .POWER_STATUS_EXITING, .reg .POWER_WAKE_STAT_CLASS, .reg .POWER_WAKE_STAT_FROM,
    .pwr] m) (a1 : Page) (a2 : Nat) (a3 : Nat) (a4 : Master) (a5 : State → State) (k5 : ∀ t, Keeps m s0 t → Keeps m s0 (a5 t)) : Ends m s0
    (cmd s a1 a2 a3 a4 a5) := by
  unfold cmd
  try dsimp only
  repeat' first
    | with_reducible assumption
    | exact Within.trans (Eq.refl _) hw
    | (intro _)
    | with_reducible apply act_keeps
    | with_reducible apply gate_keeps
    | with_reducible apply k5
    | with_reducible apply Ends.ite
    | with_reducible apply Ends.next
    | split

theorem gateBy_keeps (h : Keeps m s0 s) (hw : Within [.reg .ERR_CODE_CODE, .reg .ERR_CODE_MASTER, .reg .ERR_CODE_OVF, .reg
    .ERR_CODE_WORD, .reg .ERR_CODE_WRITE, .reg .POWER_STATUS_ENTERING, .reg .POWER_STATUS_EXITING, .reg .POWER_WAKE_STAT_CLASS, .reg
    .POWER_WAKE_STAT_FROM, .pwr] m) (a1 : Bool) (a2 : Page) (a3 : Nat) (a4 : Nat) (a5 : Nat) (a6 : State → State) (k6 : ∀ t, Keeps m s0 t →
    Keeps m s0 (a6 t)) : Keeps m s0 (gateBy a1 a2 a3 a4 a5 a6 s) := by
  unfold gateBy
  try dsimp only
  repeat' first
    | with_reducible assumption
    | exact Within.trans (Eq.refl _) hw
    | (intro _)
    | with_reducible apply gate_keeps
    | with_reducible apply hostWake_keeps
    | with_reducible apply recordErr_keeps
    | with_reducible apply k6
    | with_reducible apply Keeps.ite
    | split

theorem State.setByte_keeps (h : Keeps m s0 s) (hw : Within [.mem] m) (a1 : Nat) (a2 : Byte) : Keeps m s0 (s.setByte a1 a2) :=
  h.upd_mem hw (fun hm => Store.wf_set hm a1 a2)

theorem State.setBytes_keeps (h : Keeps m s0 s) (hw : Within [.mem] m) (a1 : Nat) (a2 : List Byte) : Keeps m s0 (s.setBytes a1 a2) := by
  induction a2 generalizing s a1 with
  | nil => exact h
  | cons b bs ih => exact ih (State.setByte_keeps h hw a1 b) (a1 + 1)

theorem capturePage_keeps (h : Keeps m s0 s) (hw : Within [.cap] m) (a1 : Page) (a2 : Nat) : Keeps m s0 (capturePage a1 a2 s) := by
  unfold capturePage
  try dsimp only
  repeat' first
    | with_reducible assumption
    | exact Within.trans (Eq.refl _) hw
    | (intro _)
    | with_reducible apply State.capture_keeps
    | with_reducible apply each_keeps

theorem packetCommits_keeps (h : Keeps m s0 s) (hw : Within [.cap, .commits] m) (a1 : Nat) : Keeps m s0 (packetCommits a1 s) := by
  unfold packetCommits
  try dsimp only
  repeat' first
    | with_reducible assumption
    | exact Within.trans (Eq.refl _) hw
    | (intro _)
    | with_reducible apply each_keeps
    | with_reducible apply capturePage_keeps
    | with_reducible apply Keeps.ite
    | split
    | (with_reducible apply Keeps.of_fields <;>
        first | with_reducible exact rfl | with_reducible exact Or.inl rfl | exact Or.inr (Within.trans (Eq.refl _) hw) | skip)

theorem State.nextFree_keeps (h : Keeps m s0 s) (hw : Within [.free] m)  : Keeps m s0 (State.nextFree s) := by
  unfold State.nextFree
  try dsimp only
  repeat' first
    | with_reducible assumption
    | exact Within.trans (Eq.refl _) hw
    | (with_reducible apply Keeps.of_fields <;>
        first | with_reducible exact rfl | with_reducible exact Or.inl rfl | exact Or.inr (Within.trans (Eq.refl _) hw) | skip)

theorem drawPool_keeps (h : Keeps m s0 s) (hw : Within [.free] m) (a1 : Nat) : Keeps m s0 (drawPool a1 s) := by
  unfold drawPool
  try dsimp only
  repeat' first
    | with_reducible assumption
    | exact Within.trans (Eq.refl _) hw
    | with_reducible apply State.nextFree_keeps
    | with_reducible apply Keeps.ite
    | split

end Sys2Proof.Machine
end

