-- ==== Sys2Proof/Laws/MemoryKeeps.lean ====
section
/-! SUPPORT. What the operations of Machine/Memory.lean keep: the queue, the invariant, and every part outside their footprint. -/

set_option maxRecDepth 4000
set_option linter.unusedTactic false
set_option linter.unreachableTactic false

namespace Sys2Proof.Machine

variable {m : Nat} {s0 s : State}

theorem setRank_keeps (h : Keeps m s0 s) (hw : Within [.reg .QUARRY_RANK_STATE_STATE] m) (a1 : Nat) (a2 : Nat) : Keeps m s0 (setRank a1
    a2 s) := by
  unfold setRank
  try dsimp only
  repeat' first
    | with_reducible assumption
    | exact Within.trans (Eq.refl _) hw
    | with_reducible apply wr_keeps

theorem putPoison_keeps (h : Keeps m s0 s) (hw : Within [.qry] m) (a1 : Nat) (a2 : Nat) (a3 : Nat) (a4 : Bool) : Keeps m s0 (putPoison
    a1 a2 a3 a4 s) := by
  unfold putPoison
  try dsimp only
  repeat' first
    | with_reducible assumption
    | exact Within.trans (Eq.refl _) hw
    | (intro _)
    | with_reducible apply on_keeps
    | with_reducible apply KeepsOpt.getD
    | (with_reducible apply Keeps.of_fields <;>
        first | with_reducible exact rfl | with_reducible exact Or.inl rfl | exact Or.inr (Within.trans (Eq.refl _) hw) | skip)

theorem clearFlaw_keeps (h : Keeps m s0 s) (hw : Within [.qry] m) (a1 : Nat) (a2 : Nat) (a3 : Nat) : Keeps m s0 (clearFlaw a1 a2 a3 s)
    := by
  unfold clearFlaw
  try dsimp only
  repeat' first
    | with_reducible assumption
    | exact Within.trans (Eq.refl _) hw
    | (with_reducible apply Keeps.of_fields <;>
        first | with_reducible exact rfl | with_reducible exact Or.inl rfl | exact Or.inr (Within.trans (Eq.refl _) hw) | skip)

theorem initRow_keeps (h : Keeps m s0 s) (hw : Within [.qry] m) (a1 : Nat) (a2 : Nat) : Keeps m s0 (initRow a1 a2 s) := by
  unfold initRow
  try dsimp only
  repeat' first
    | with_reducible assumption
    | exact Within.trans (Eq.refl _) hw
    | (intro _)
    | with_reducible apply Keeps.ite
    | split
    | (with_reducible apply Keeps.of_fields <;>
        first | with_reducible exact rfl | with_reducible exact Or.inl rfl | exact Or.inr (Within.trans (Eq.refl _) hw) | skip)

theorem State.setPoison_keeps (h : Keeps m s0 s) (hw : Within [.poison] m) (a1 : Nat) (a2 : Bool) : Keeps m s0 (State.setPoison s a1 a2)
    := by
  unfold State.setPoison
  try dsimp only
  repeat' first
    | with_reducible assumption
    | exact Within.trans (Eq.refl _) hw
    | (with_reducible apply Keeps.of_fields <;>
        first | with_reducible exact rfl | with_reducible exact Or.inl rfl | exact Or.inr (Within.trans (Eq.refl _) hw) | skip)

theorem retireRank_keeps (h : Keeps m s0 s) (hw : Within [.reg .EVT_PEND_PEND, .reg .EVT_RAW_RAW, .reg .QUARRY_CAPACITY_N_ACTIVE, .reg
    .QUARRY_LRMAP_MAP, .reg .QUARRY_LRMAP_SPARE, .reg .QUARRY_RANK_STATE_STATE, .reg .QUARRY_STATUS_DEGRADED, .presented] m) (a1 : Nat) :
    Keeps m s0 (retireRank a1 s) := by
  unfold retireRank
  try dsimp only
  repeat' first
    | with_reducible assumption
    | exact Within.trans (Eq.refl _) hw
    | with_reducible apply wr_keeps
    | with_reducible apply raise_keeps
    | with_reducible apply setRank_keeps
    | with_reducible apply Keeps.ite
    | split

theorem targetFails_keeps (h : Keeps m s0 s) (hw : Within [.reg .EVT_PEND_PEND, .reg .EVT_RAW_RAW, .reg .QUARRY_RANK_STATE_STATE, .reg
    .QUARRY_STATUS_MIGRATING, .presented] m) (a1 : Nat) : Keeps m s0 (targetFails a1 s) := by
  unfold targetFails
  try dsimp only
  repeat' first
    | with_reducible assumption
    | exact Within.trans (Eq.refl _) hw
    | (intro _)
    | with_reducible apply wr_keeps
    | with_reducible apply raise_keeps
    | with_reducible apply setRank_keeps
    | split

theorem failRank_keeps (h : Keeps m s0 s) (hw : Within [.reg .EVT_PEND_PEND, .reg .EVT_RAW_RAW, .reg .QUARRY_CAPACITY_N_ACTIVE, .reg
    .QUARRY_LRMAP_MAP, .reg .QUARRY_LRMAP_SPARE, .reg .QUARRY_RANK_STATE_STATE, .reg .QUARRY_STATUS_DEGRADED, .reg .QUARRY_STATUS_MIGRATING,
    .presented, .qry] m) (a1 : Nat) (a2 : Nat) : Keeps m s0 (failRank a1 a2 s) := by
  unfold failRank
  try dsimp only
  repeat' first
    | with_reducible assumption
    | exact Within.trans (Eq.refl _) hw
    | (intro _)
    | with_reducible apply retireRank_keeps
    | with_reducible apply targetFails_keeps
    | with_reducible apply Keeps.ite
    | split
    | (with_reducible apply Keeps.of_fields <;>
        first | with_reducible exact rfl | with_reducible exact Or.inl rfl | exact Or.inr (Within.trans (Eq.refl _) hw) | skip)

theorem rollHour_keeps (h : Keeps m s0 s) (hw : Within [.qry] m)  : Keeps m s0 (rollHour s) := by
  unfold rollHour
  try dsimp only
  repeat' first
    | with_reducible assumption
    | exact Within.trans (Eq.refl _) hw
    | with_reducible apply Keeps.ite
    | split
    | (with_reducible apply Keeps.of_fields <;>
        first | with_reducible exact rfl | with_reducible exact Or.inl rfl | exact Or.inr (Within.trans (Eq.refl _) hw) | skip)

theorem corrected_keeps (h : Keeps m s0 s) (hw : Within [.reg .EVT_PEND_PEND, .reg .EVT_RAW_RAW, .reg .QUARRY_CAPACITY_N_ACTIVE, .reg
    .QUARRY_ECC_CNT_CE, .reg .QUARRY_LRMAP_MAP, .reg .QUARRY_LRMAP_SPARE, .reg .QUARRY_RANK_STATE_STATE, .reg .QUARRY_STATUS_DEGRADED, .reg
    .QUARRY_STATUS_MIGRATING, .presented, .holdoff, .qry] m) (a1 : Nat) : Keeps m s0 (corrected a1 s) := by
  unfold corrected
  try dsimp only
  repeat' first
    | with_reducible assumption
    | exact Within.trans (Eq.refl _) hw
    | with_reducible apply inc_keeps
    | with_reducible apply failRank_keeps
    | with_reducible apply raiseHeld_keeps
    | with_reducible apply rollHour_keeps
    | with_reducible apply Keeps.ite
    | split
    | (with_reducible apply Keeps.of_fields <;>
        first | with_reducible exact rfl | with_reducible exact Or.inl rfl | exact Or.inr (Within.trans (Eq.refl _) hw) | skip)

theorem recordUe_keeps (h : Keeps m s0 s) (hw : Within [.reg .EVT_PEND_PEND, .reg .EVT_RAW_RAW, .reg .POWER_STATUS_ENTERING, .reg
    .POWER_STATUS_EXITING, .reg .POWER_WAKE_STAT_CLASS, .reg .POWER_WAKE_STAT_FROM, .reg .QUARRY_ECC_CNT_UE, .reg .QUARRY_UE_ADDR_HI_ADDR,
    .reg .QUARRY_UE_ADDR_HI_BANK, .reg .QUARRY_UE_ADDR_HI_RANK, .reg .QUARRY_UE_ADDR_LO_ADDR, .presented, .pwr, .qry, .free] m) (a1 : Nat)
    (a2 : Nat) (a3 : Nat) (a4 : Option Nat) : Keeps m s0 (recordUe a1 a2 a3 a4 s) := by
  unfold recordUe
  try dsimp only
  repeat' first
    | with_reducible assumption
    | exact Within.trans (Eq.refl _) hw
    | with_reducible apply wr_keeps
    | with_reducible apply inc_keeps
    | with_reducible apply State.nextFree_keeps
    | with_reducible apply putPoison_keeps
    | with_reducible apply raise_keeps
    | with_reducible apply wake_keeps
    | with_reducible apply Keeps.ite
    | split
    | with_reducible apply KeepsOpt.getD

theorem uncorrectable_keeps (h : Keeps m s0 s) (hw : Within [.reg .EVT_PEND_PEND, .reg .EVT_RAW_RAW, .reg .POWER_STATUS_ENTERING, .reg
    .POWER_STATUS_EXITING, .reg .POWER_WAKE_STAT_CLASS, .reg .POWER_WAKE_STAT_FROM, .reg .QUARRY_CAPACITY_N_ACTIVE, .reg .QUARRY_ECC_CNT_UE,
    .reg .QUARRY_LRMAP_MAP, .reg .QUARRY_LRMAP_SPARE, .reg .QUARRY_RANK_STATE_STATE, .reg .QUARRY_STATUS_DEGRADED, .reg
    .QUARRY_STATUS_MIGRATING, .reg .QUARRY_UE_ADDR_HI_ADDR, .reg .QUARRY_UE_ADDR_HI_BANK, .reg .QUARRY_UE_ADDR_HI_RANK, .reg
    .QUARRY_UE_ADDR_LO_ADDR, .presented, .pwr, .qry, .free] m) (a1 : Nat) (a2 : Nat) (a3 : Nat) (a4 : Option Nat) : Keeps m s0
    (uncorrectable a1 a2 a3 a4 s) := by
  unfold uncorrectable
  try dsimp only
  repeat' first
    | with_reducible assumption
    | exact Within.trans (Eq.refl _) hw
    | with_reducible apply failRank_keeps
    | with_reducible apply recordUe_keeps
    | with_reducible apply Keeps.ite
    | split
    | (with_reducible apply Keeps.of_fields <;>
        first | with_reducible exact rfl | with_reducible exact Or.inl rfl | exact Or.inr (Within.trans (Eq.refl _) hw) | skip)

theorem eccWord_keeps (h : Keeps m s0 s) (hw : Within [.reg .EVT_PEND_PEND, .reg .EVT_RAW_RAW, .reg .POWER_STATUS_ENTERING, .reg
    .POWER_STATUS_EXITING, .reg .POWER_WAKE_STAT_CLASS, .reg .POWER_WAKE_STAT_FROM, .reg .QUARRY_CAPACITY_N_ACTIVE, .reg .QUARRY_ECC_CNT_CE,
    .reg .QUARRY_ECC_CNT_UE, .reg .QUARRY_LRMAP_MAP, .reg .QUARRY_LRMAP_SPARE, .reg .QUARRY_RANK_STATE_STATE, .reg .QUARRY_STATUS_DEGRADED,
    .reg .QUARRY_STATUS_MIGRATING, .reg .QUARRY_UE_ADDR_HI_ADDR, .reg .QUARRY_UE_ADDR_HI_BANK, .reg .QUARRY_UE_ADDR_HI_RANK, .reg
    .QUARRY_UE_ADDR_LO_ADDR, .presented, .holdoff, .pwr, .qry, .free] m) (a1 : Nat) (a2 : Nat) (a3 : Nat) (a4 : Option Nat) : Keeps m s0
    (eccWord a1 a2 a3 a4 s) := by
  unfold eccWord
  try dsimp only
  repeat' first
    | with_reducible assumption
    | exact Within.trans (Eq.refl _) hw
    | with_reducible apply clearFlaw_keeps
    | with_reducible apply corrected_keeps
    | with_reducible apply uncorrectable_keeps
    | with_reducible apply Keeps.ite
    | split

theorem setBenchState_keeps (h : Keeps m s0 s) (hw : Within [.reg .BENCH_BPWR_STAT_STATE] m) (a1 : Nat) (a2 : Nat) : Keeps m s0
    (setBenchState a1 a2 s) := by
  unfold setBenchState
  try dsimp only
  repeat' first
    | with_reducible assumption
    | exact Within.trans (Eq.refl _) hw
    | with_reducible apply wr_keeps

theorem setBistPhase_keeps (h : Keeps m s0 s) (hw : Within [.reg .BENCH_BIST_STAT_PHASE] m) (a1 : Nat) : Keeps m s0 (setBistPhase a1 s)
    := by
  unfold setBistPhase
  try dsimp only
  repeat' first
    | with_reducible assumption
    | exact Within.trans (Eq.refl _) hw
    | with_reducible apply wr_keeps

theorem benchOffline_keeps (h : Keeps m s0 s) (hw : Within [.reg .BENCH_BENCH_HEALTH_HEALTH, .reg .EVT_PEND_PEND, .reg .EVT_RAW_RAW,
    .presented] m) (a1 : Nat) : Keeps m s0 (benchOffline a1 s) := by
  unfold benchOffline
  try dsimp only
  repeat' first
    | with_reducible assumption
    | exact Within.trans (Eq.refl _) hw
    | with_reducible apply wr_keeps
    | with_reducible apply raise_keeps

theorem endTest_keeps (h : Keeps m s0 s) (hw : Within [.reg .BENCH_BIST_STAT_PHASE, .reg .BENCH_STATUS_BIST_BUSY, .reg
    .BENCH_STATUS_SPARE_FREE, .ben] m)  : Keeps m s0 (endTest s) := by
  unfold endTest
  try dsimp only
  repeat' first
    | with_reducible assumption
    | exact Within.trans (Eq.refl _) hw
    | with_reducible apply wr_keeps
    | with_reducible apply setBistPhase_keeps
    | split
    | (with_reducible apply Keeps.of_fields <;>
        first | with_reducible exact rfl | with_reducible exact Or.inl rfl | exact Or.inr (Within.trans (Eq.refl _) hw) | skip)

theorem benchFails_keeps (h : Keeps m s0 s) (hw : Within [.reg .BENCH_BENCH_HEALTH_HEALTH, .reg .BENCH_BIST_STAT_PHASE, .reg
    .BENCH_STATUS_BIST_BUSY, .reg .BENCH_STATUS_SPARE_FREE, .reg .EVT_PEND_PEND, .reg .EVT_RAW_RAW, .reg .POWER_STATUS_ENTERING, .reg
    .POWER_STATUS_EXITING, .reg .POWER_WAKE_STAT_CLASS, .reg .POWER_WAKE_STAT_FROM, .presented, .pwr, .ben] m) (a1 : Nat) : Keeps m s0
    (benchFails a1 s) := by
  unfold benchFails
  try dsimp only
  repeat' first
    | with_reducible assumption
    | exact Within.trans (Eq.refl _) hw
    | with_reducible apply wr_keeps
    | with_reducible apply benchOffline_keeps
    | with_reducible apply endTest_keeps
    | with_reducible apply raise_keeps
    | with_reducible apply wake_keeps
    | with_reducible apply Keeps.ite
    | split

theorem benchCorrected_keeps (h : Keeps m s0 s) (hw : Within [.reg .BENCH_ECC_CNT_CE, .reg .EVT_PEND_PEND, .reg .EVT_RAW_RAW,
    .presented, .holdoff] m)  : Keeps m s0 (benchCorrected s) := by
  unfold benchCorrected
  try dsimp only
  repeat' first
    | with_reducible assumption
    | exact Within.trans (Eq.refl _) hw
    | with_reducible apply inc_keeps
    | with_reducible apply raiseHeld_keeps

theorem benchUncorrectable_keeps (h : Keeps m s0 s) (hw : Within [.reg .BENCH_BENCH_HEALTH_HEALTH, .reg .BENCH_BIST_STAT_PHASE, .reg
    .BENCH_ECC_CNT_UE, .reg .BENCH_STATUS_BIST_BUSY, .reg .BENCH_STATUS_SPARE_FREE, .reg .BENCH_UE_ADDR_IN_SPARE, .reg
    .BENCH_UE_ADDR_OFFSET, .reg .EVT_PEND_PEND, .reg .EVT_RAW_RAW, .reg .POWER_STATUS_ENTERING, .reg .POWER_STATUS_EXITING, .reg
    .POWER_WAKE_STAT_CLASS, .reg .POWER_WAKE_STAT_FROM, .presented, .poison, .pwr, .ben] m) (a1 : Nat) : Keeps m s0 (benchUncorrectable a1
    s) := by
  unfold benchUncorrectable
  try dsimp only
  repeat' first
    | with_reducible assumption
    | exact Within.trans (Eq.refl _) hw
    | with_reducible apply wr_keeps
    | with_reducible apply inc_keeps
    | with_reducible apply State.setPoison_keeps
    | with_reducible apply benchFails_keeps
    | with_reducible apply raise_keeps
    | with_reducible apply wake_keeps
    | with_reducible apply Keeps.ite
    | split
    | (with_reducible apply Keeps.of_fields <;>
        first | with_reducible exact rfl | with_reducible exact Or.inl rfl | exact Or.inr (Within.trans (Eq.refl _) hw) | skip)

theorem benchWord_keeps (h : Keeps m s0 s) (hw : Within [.reg .BENCH_BENCH_HEALTH_HEALTH, .reg .BENCH_BIST_STAT_PHASE, .reg
    .BENCH_ECC_CNT_CE, .reg .BENCH_ECC_CNT_UE, .reg .BENCH_STATUS_BIST_BUSY, .reg .BENCH_STATUS_SPARE_FREE, .reg .BENCH_UE_ADDR_IN_SPARE,
    .reg .BENCH_UE_ADDR_OFFSET, .reg .EVT_PEND_PEND, .reg .EVT_RAW_RAW, .reg .POWER_STATUS_ENTERING, .reg .POWER_STATUS_EXITING, .reg
    .POWER_WAKE_STAT_CLASS, .reg .POWER_WAKE_STAT_FROM, .presented, .holdoff, .poison, .pwr, .ben] m) (a1 : Nat) : Keeps m s0 (benchWord a1
    s) := by
  unfold benchWord
  try dsimp only
  repeat' first
    | with_reducible assumption
    | exact Within.trans (Eq.refl _) hw
    | with_reducible apply benchCorrected_keeps
    | with_reducible apply benchUncorrectable_keeps
    | with_reducible apply Keeps.ite
    | split
    | (with_reducible apply Keeps.of_fields <;>
        first | with_reducible exact rfl | with_reducible exact Or.inl rfl | exact Or.inr (Within.trans (Eq.refl _) hw) | skip)

theorem benchSweep_keeps (h : Keeps m s0 s) (hw : Within [.reg .BENCH_BENCH_HEALTH_HEALTH, .reg .BENCH_BIST_STAT_PHASE, .reg
    .BENCH_ECC_CNT_CE, .reg .BENCH_ECC_CNT_UE, .reg .BENCH_STATUS_BIST_BUSY, .reg .BENCH_STATUS_SPARE_FREE, .reg .BENCH_UE_ADDR_IN_SPARE,
    .reg .BENCH_UE_ADDR_OFFSET, .reg .EVT_PEND_PEND, .reg .EVT_RAW_RAW, .reg .POWER_STATUS_ENTERING, .reg .POWER_STATUS_EXITING, .reg
    .POWER_WAKE_STAT_CLASS, .reg .POWER_WAKE_STAT_FROM, .presented, .holdoff, .poison, .pwr, .ben] m) (a1 : Nat) (a2 : Nat) : Keeps m s0
    (benchSweep a1 a2 s) := by
  unfold benchSweep
  try dsimp only
  repeat' first
    | with_reducible assumption
    | exact Within.trans (Eq.refl _) hw
    | (intro _)
    | with_reducible apply each_keeps
    | with_reducible apply benchWord_keeps

theorem addBenchFlaw_keeps (h : Keeps m s0 s) (hw : Within [.ben] m) (a1 : Bool) (a2 : Nat) : Keeps m s0 (addBenchFlaw a1 a2 s) := by
  unfold addBenchFlaw
  try dsimp only
  repeat' first
    | with_reducible assumption
    | exact Within.trans (Eq.refl _) hw
    | with_reducible apply Keeps.ite
    | split
    | (with_reducible apply Keeps.of_fields <;>
        first | with_reducible exact rfl | with_reducible exact Or.inl rfl | exact Or.inr (Within.trans (Eq.refl _) hw) | skip)

theorem eccAt_keeps (h : Keeps m s0 s) (hw : Within [.reg .EVT_PEND_PEND, .reg .EVT_RAW_RAW, .reg .POWER_STATUS_ENTERING, .reg
    .POWER_STATUS_EXITING, .reg .POWER_WAKE_STAT_CLASS, .reg .POWER_WAKE_STAT_FROM, .reg .QUARRY_CAPACITY_N_ACTIVE, .reg .QUARRY_ECC_CNT_CE,
    .reg .QUARRY_ECC_CNT_UE, .reg .QUARRY_LRMAP_MAP, .reg .QUARRY_LRMAP_SPARE, .reg .QUARRY_RANK_STATE_STATE, .reg .QUARRY_STATUS_DEGRADED,
    .reg .QUARRY_STATUS_MIGRATING, .reg .QUARRY_UE_ADDR_HI_ADDR, .reg .QUARRY_UE_ADDR_HI_BANK, .reg .QUARRY_UE_ADDR_HI_RANK, .reg
    .QUARRY_UE_ADDR_LO_ADDR, .presented, .holdoff, .pwr, .qry, .free] m) (a1 : Nat) : Keeps m s0 (eccAt a1 s) := by
  unfold eccAt
  try dsimp only
  repeat' first
    | with_reducible assumption
    | exact Within.trans (Eq.refl _) hw
    | with_reducible apply eccWord_keeps
    | with_reducible apply Keeps.ite
    | split

theorem eccRead_keeps (h : Keeps m s0 s) (hw : Within [.reg .BENCH_BENCH_HEALTH_HEALTH, .reg .BENCH_BIST_STAT_PHASE, .reg
    .BENCH_ECC_CNT_CE, .reg .BENCH_ECC_CNT_UE, .reg .BENCH_STATUS_BIST_BUSY, .reg .BENCH_STATUS_SPARE_FREE, .reg .BENCH_UE_ADDR_IN_SPARE,
    .reg .BENCH_UE_ADDR_OFFSET, .reg .EVT_PEND_PEND, .reg .EVT_RAW_RAW, .reg .POWER_STATUS_ENTERING, .reg .POWER_STATUS_EXITING, .reg
    .POWER_WAKE_STAT_CLASS, .reg .POWER_WAKE_STAT_FROM, .reg .QUARRY_CAPACITY_N_ACTIVE, .reg .QUARRY_ECC_CNT_CE, .reg .QUARRY_ECC_CNT_UE,
    .reg .QUARRY_LRMAP_MAP, .reg .QUARRY_LRMAP_SPARE, .reg .QUARRY_RANK_STATE_STATE, .reg .QUARRY_STATUS_DEGRADED, .reg
    .QUARRY_STATUS_MIGRATING, .reg .QUARRY_UE_ADDR_HI_ADDR, .reg .QUARRY_UE_ADDR_HI_BANK, .reg .QUARRY_UE_ADDR_HI_RANK, .reg
    .QUARRY_UE_ADDR_LO_ADDR, .presented, .holdoff, .poison, .pwr, .qry, .ben, .free] m) (a1 : Nat) (a2 : Nat) : Keeps m s0 (eccRead a1 a2 s)
    := by
  unfold eccRead
  try dsimp only
  repeat' first
    | with_reducible assumption
    | exact Within.trans (Eq.refl _) hw
    | (intro _)
    | with_reducible apply each_keeps
    | with_reducible apply benchWord_keeps
    | with_reducible apply eccAt_keeps
    | with_reducible apply Keeps.ite
    | split

theorem refreshPort_keeps (h : Keeps m s0 s) (hw : Within [.reg .QUARRY_PORT_STAT_OUTSTANDING, .reg .QUARRY_PORT_STAT_URG] m) (a1 : Nat)
    : Keeps m s0 (refreshPort a1 s) := by
  unfold refreshPort
  try dsimp only
  repeat' first
    | with_reducible assumption
    | exact Within.trans (Eq.refl _) hw
    | (intro _)
    | with_reducible apply wr_keeps

theorem countAge_keeps (h : Keeps m s0 s) (hw : Within [.reg .EVT_PEND_PEND, .reg .EVT_RAW_RAW, .reg .QUARRY_PORT_LAT_MAX_LAT, .reg
    .QUARRY_PORT_MISS_COUNT, .presented, .holdoff] m) (a1 : Nat) (a2 : Nat) : Keeps m s0 (countAge a1 a2 s) := by
  unfold countAge
  try dsimp only
  repeat' first
    | with_reducible assumption
    | exact Within.trans (Eq.refl _) hw
    | with_reducible apply wr_keeps
    | with_reducible apply inc_keeps
    | with_reducible apply raiseHeld_keeps
    | with_reducible apply Keeps.ite
    | split

theorem storeEcc_keeps (h : Keeps m s0 s) (hw : Within [.qry] m) (a1 : Nat) : Keeps m s0 (storeEcc a1 s) := by
  unfold storeEcc
  try dsimp only
  repeat' first
    | with_reducible assumption
    | exact Within.trans (Eq.refl _) hw
    | (intro _)
    | with_reducible apply each_keeps
    | with_reducible apply clearFlaw_keeps
    | with_reducible apply initRow_keeps
    | with_reducible apply putPoison_keeps

theorem storeBench_keeps (h : Keeps m s0 s) (hw : Within [.ben] m) (a1 : Nat) : Keeps m s0 (storeBench a1 s) := by
  unfold storeBench
  try dsimp only
  repeat' first
    | with_reducible assumption
    | exact Within.trans (Eq.refl _) hw
    | (with_reducible apply Keeps.of_fields <;>
        first | with_reducible exact rfl | with_reducible exact Or.inl rfl | exact Or.inr (Within.trans (Eq.refl _) hw) | skip)

theorem writeWord_keeps (h : Keeps m s0 s) (hw : Within [.reg .BENCH_BENCH_HEALTH_HEALTH, .reg .BENCH_BIST_STAT_PHASE, .reg
    .BENCH_ECC_CNT_CE, .reg .BENCH_ECC_CNT_UE, .reg .BENCH_STATUS_BIST_BUSY, .reg .BENCH_STATUS_SPARE_FREE, .reg .BENCH_UE_ADDR_IN_SPARE,
    .reg .BENCH_UE_ADDR_OFFSET, .reg .ERR_CODE_CODE, .reg .ERR_CODE_MASTER, .reg .ERR_CODE_OVF, .reg .ERR_CODE_WORD, .reg .ERR_CODE_WRITE,
    .reg .EVT_PEND_PEND, .reg .EVT_RAW_RAW, .reg .POWER_STATUS_ENTERING, .reg .POWER_STATUS_EXITING, .reg .POWER_WAKE_STAT_CLASS, .reg
    .POWER_WAKE_STAT_FROM, .reg .QUARRY_CAPACITY_N_ACTIVE, .reg .QUARRY_ECC_CNT_CE, .reg .QUARRY_ECC_CNT_UE, .reg .QUARRY_LRMAP_MAP, .reg
    .QUARRY_LRMAP_SPARE, .reg .QUARRY_RANK_STATE_STATE, .reg .QUARRY_STATUS_DEGRADED, .reg .QUARRY_STATUS_MIGRATING, .reg
    .QUARRY_UE_ADDR_HI_ADDR, .reg .QUARRY_UE_ADDR_HI_BANK, .reg .QUARRY_UE_ADDR_HI_RANK, .reg .QUARRY_UE_ADDR_LO_ADDR, .presented, .holdoff,
    .mem, .poison, .pwr, .qry, .ben, .free] m) (a1 : Nat) (a2 : Nat) (a3 : List Byte) : Keeps m s0 (writeWord a1 a2 a3 s) := by
  unfold writeWord
  try dsimp only
  repeat' first
    | with_reducible assumption
    | exact Within.trans (Eq.refl _) hw
    | with_reducible apply State.setBytes_keeps
    | with_reducible apply State.setPoison_keeps
    | with_reducible apply eccRead_keeps
    | with_reducible apply recordErr_keeps
    | with_reducible apply storeBench_keeps
    | with_reducible apply storeEcc_keeps
    | with_reducible apply Keeps.ite
    | split
    | with_reducible refine Keeps.of_snd (by assumption) ?_

theorem writeWords_keeps (h : Keeps m s0 s) (hw : Within [.reg .BENCH_BENCH_HEALTH_HEALTH, .reg .BENCH_BIST_STAT_PHASE, .reg
    .BENCH_ECC_CNT_CE, .reg .BENCH_ECC_CNT_UE, .reg .BENCH_STATUS_BIST_BUSY, .reg .BENCH_STATUS_SPARE_FREE, .reg .BENCH_UE_ADDR_IN_SPARE,
    .reg .BENCH_UE_ADDR_OFFSET, .reg .ERR_CODE_CODE, .reg .ERR_CODE_MASTER, .reg .ERR_CODE_OVF, .reg .ERR_CODE_WORD, .reg .ERR_CODE_WRITE,
    .reg .EVT_PEND_PEND, .reg .EVT_RAW_RAW, .reg .POWER_STATUS_ENTERING, .reg .POWER_STATUS_EXITING, .reg .POWER_WAKE_STAT_CLASS, .reg
    .POWER_WAKE_STAT_FROM, .reg .QUARRY_CAPACITY_N_ACTIVE, .reg .QUARRY_ECC_CNT_CE, .reg .QUARRY_ECC_CNT_UE, .reg .QUARRY_LRMAP_MAP, .reg
    .QUARRY_LRMAP_SPARE, .reg .QUARRY_RANK_STATE_STATE, .reg .QUARRY_STATUS_DEGRADED, .reg .QUARRY_STATUS_MIGRATING, .reg
    .QUARRY_UE_ADDR_HI_ADDR, .reg .QUARRY_UE_ADDR_HI_BANK, .reg .QUARRY_UE_ADDR_HI_RANK, .reg .QUARRY_UE_ADDR_LO_ADDR, .presented, .holdoff,
    .mem, .poison, .pwr, .qry, .ben, .free] m) (a1 a2 a3 : Nat) (a4 : List Byte) :
    Keeps m s0 (writeWords a1 a2 a3 a4 s) := by
  induction a2 generalizing s a3 a4 with
  | zero => exact h
  | succ n ih =>
    unfold writeWords
    split
    · exact h
    · exact ih (writeWord_keeps h (Within.trans (Eq.refl _) hw) ..) _ _

theorem touchBench_keeps (h : Keeps m s0 s) (hw : Within [.reg .BENCH_BPWR_STAT_STATE, .ben] m) (a1 : Nat) (a2 : Nat) : Keeps m s0
    (touchBench a1 a2 s) := by
  unfold touchBench
  try dsimp only
  repeat' first
    | with_reducible assumption
    | exact Within.trans (Eq.refl _) hw
    | (intro _)
    | with_reducible apply wr_keeps
    | with_reducible apply each_keeps
    | with_reducible apply Keeps.ite
    | split
    | (with_reducible apply Keeps.of_fields <;>
        first | with_reducible exact rfl | with_reducible exact Or.inl rfl | exact Or.inr (Within.trans (Eq.refl _) hw) | skip)

theorem mapError_keeps (h : Keeps m s0 s) (hw : Within [.reg .ERR_CODE_CODE, .reg .ERR_CODE_MASTER, .reg .ERR_CODE_OVF, .reg
    .ERR_CODE_WORD, .reg .ERR_CODE_WRITE, .reg .EVT_PEND_PEND, .reg .EVT_RAW_RAW, .reg .SYS_ERR_ADDR_HI_ADDR, .reg .SYS_ERR_ADDR_HI_MASTER,
    .reg .SYS_ERR_ADDR_HI_WRITE, .reg .SYS_ERR_ADDR_LO_ADDR, .presented] m) (a1 : Nat) (a2 : Nat) (a3 : Bool) : Keeps m s0 (mapError a1 a2
    a3 s) := by
  unfold mapError
  try dsimp only
  repeat' first
    | with_reducible assumption
    | exact Within.trans (Eq.refl _) hw
    | with_reducible apply wr_keeps
    | with_reducible apply raise_keeps
    | with_reducible apply recordErr_keeps
    | with_reducible apply Keeps.ite
    | split

theorem denyMem_keeps (h : Keeps m s0 s) (hw : Within [.reg .ERR_CODE_CODE, .reg .ERR_CODE_MASTER, .reg .ERR_CODE_OVF, .reg
    .ERR_CODE_WORD, .reg .ERR_CODE_WRITE, .reg .EVT_PEND_PEND, .reg .EVT_RAW_RAW, .reg .SYS_ERR_ADDR_HI_ADDR, .reg .SYS_ERR_ADDR_HI_MASTER,
    .reg .SYS_ERR_ADDR_HI_WRITE, .reg .SYS_ERR_ADDR_LO_ADDR, .presented] m) (a1 : Nat) (a2 : Nat) (a3 : Nat) (a4 : Bool) : Keeps m s0
    (denyMem a1 a2 a3 a4 s) := by
  unfold denyMem
  try dsimp only
  repeat' first
    | with_reducible assumption
    | exact Within.trans (Eq.refl _) hw
    | with_reducible apply mapError_keeps
    | with_reducible apply recordErr_keeps
    | with_reducible apply Keeps.ite
    | split

theorem noteRead_keeps (h : Keeps m s0 s) (hw : Within [.reg .BENCH_BENCH_HEALTH_HEALTH, .reg .BENCH_BIST_STAT_PHASE, .reg
    .BENCH_ECC_CNT_CE, .reg .BENCH_ECC_CNT_UE, .reg .BENCH_STATUS_BIST_BUSY, .reg .BENCH_STATUS_SPARE_FREE, .reg .BENCH_UE_ADDR_IN_SPARE,
    .reg .BENCH_UE_ADDR_OFFSET, .reg .ERR_CODE_CODE, .reg .ERR_CODE_MASTER, .reg .ERR_CODE_OVF, .reg .ERR_CODE_WORD, .reg .ERR_CODE_WRITE,
    .reg .EVT_PEND_PEND, .reg .EVT_RAW_RAW, .reg .POWER_STATUS_ENTERING, .reg .POWER_STATUS_EXITING, .reg .POWER_WAKE_STAT_CLASS, .reg
    .POWER_WAKE_STAT_FROM, .reg .QUARRY_CAPACITY_N_ACTIVE, .reg .QUARRY_ECC_CNT_CE, .reg .QUARRY_ECC_CNT_UE, .reg .QUARRY_LRMAP_MAP, .reg
    .QUARRY_LRMAP_SPARE, .reg .QUARRY_RANK_STATE_STATE, .reg .QUARRY_STATUS_DEGRADED, .reg .QUARRY_STATUS_MIGRATING, .reg
    .QUARRY_UE_ADDR_HI_ADDR, .reg .QUARRY_UE_ADDR_HI_BANK, .reg .QUARRY_UE_ADDR_HI_RANK, .reg .QUARRY_UE_ADDR_LO_ADDR, .reg
    .SYS_ERR_ADDR_HI_ADDR, .reg .SYS_ERR_ADDR_HI_MASTER, .reg .SYS_ERR_ADDR_HI_WRITE, .reg .SYS_ERR_ADDR_LO_ADDR, .presented, .holdoff,
    .poison, .pwr, .qry, .ben, .free] m) (a1 : Nat) (a2 : Nat) (a3 : Nat) : Keeps m s0 (noteRead a1 a2 a3 s) := by
  unfold noteRead
  try dsimp only
  repeat' first
    | with_reducible assumption
    | exact Within.trans (Eq.refl _) hw
    | with_reducible apply denyMem_keeps
    | with_reducible apply eccRead_keeps
    | with_reducible apply Keeps.ite
    | split

theorem storeMem_keeps (h : Keeps m s0 s) (hw : Within [.reg .BENCH_BENCH_HEALTH_HEALTH, .reg .BENCH_BIST_STAT_PHASE, .reg
    .BENCH_BPWR_STAT_STATE, .reg .BENCH_ECC_CNT_CE, .reg .BENCH_ECC_CNT_UE, .reg .BENCH_STATUS_BIST_BUSY, .reg .BENCH_STATUS_SPARE_FREE,
    .reg .BENCH_UE_ADDR_IN_SPARE, .reg .BENCH_UE_ADDR_OFFSET, .reg .ERR_CODE_CODE, .reg .ERR_CODE_MASTER, .reg .ERR_CODE_OVF, .reg
    .ERR_CODE_WORD, .reg .ERR_CODE_WRITE, .reg .EVT_PEND_PEND, .reg .EVT_RAW_RAW, .reg .POWER_STATUS_ENTERING, .reg .POWER_STATUS_EXITING,
    .reg .POWER_WAKE_STAT_CLASS, .reg .POWER_WAKE_STAT_FROM, .reg .QUARRY_CAPACITY_N_ACTIVE, .reg .QUARRY_ECC_CNT_CE, .reg
    .QUARRY_ECC_CNT_UE, .reg .QUARRY_LRMAP_MAP, .reg .QUARRY_LRMAP_SPARE, .reg .QUARRY_RANK_STATE_STATE, .reg .QUARRY_STATUS_DEGRADED, .reg
    .QUARRY_STATUS_MIGRATING, .reg .QUARRY_UE_ADDR_HI_ADDR, .reg .QUARRY_UE_ADDR_HI_BANK, .reg .QUARRY_UE_ADDR_HI_RANK, .reg
    .QUARRY_UE_ADDR_LO_ADDR, .presented, .holdoff, .mem, .poison, .pwr, .qry, .ben, .free] m) (a1 : Nat) (a2 : Nat) (a3 : List Byte) : Keeps
    m s0 (storeMem a1 a2 a3 s) := by
  unfold storeMem
  try dsimp only
  repeat' first
    | with_reducible assumption
    | exact Within.trans (Eq.refl _) hw
    | with_reducible apply recordErr_keeps
    | with_reducible apply touchBench_keeps
    | with_reducible apply writeWords_keeps
    | with_reducible apply Keeps.ite
    | split
    | with_reducible refine Keeps.of_snd (by assumption) ?_

theorem memWrite_keeps (h : Keeps m s0 s) (hw : Within [.reg .BENCH_BENCH_HEALTH_HEALTH, .reg .BENCH_BIST_STAT_PHASE, .reg
    .BENCH_BPWR_STAT_STATE, .reg .BENCH_ECC_CNT_CE, .reg .BENCH_ECC_CNT_UE, .reg .BENCH_STATUS_BIST_BUSY, .reg .BENCH_STATUS_SPARE_FREE,
    .reg .BENCH_UE_ADDR_IN_SPARE, .reg .BENCH_UE_ADDR_OFFSET, .reg .ERR_CODE_CODE, .reg .ERR_CODE_MASTER, .reg .ERR_CODE_OVF, .reg
    .ERR_CODE_WORD, .reg .ERR_CODE_WRITE, .reg .EVT_PEND_PEND, .reg .EVT_RAW_RAW, .reg .POWER_STATUS_ENTERING, .reg .POWER_STATUS_EXITING,
    .reg .POWER_WAKE_STAT_CLASS, .reg .POWER_WAKE_STAT_FROM, .reg .QUARRY_CAPACITY_N_ACTIVE, .reg .QUARRY_ECC_CNT_CE, .reg
    .QUARRY_ECC_CNT_UE, .reg .QUARRY_LRMAP_MAP, .reg .QUARRY_LRMAP_SPARE, .reg .QUARRY_RANK_STATE_STATE, .reg .QUARRY_STATUS_DEGRADED, .reg
    .QUARRY_STATUS_MIGRATING, .reg .QUARRY_UE_ADDR_HI_ADDR, .reg .QUARRY_UE_ADDR_HI_BANK, .reg .QUARRY_UE_ADDR_HI_RANK, .reg
    .QUARRY_UE_ADDR_LO_ADDR, .reg .SYS_ERR_ADDR_HI_ADDR, .reg .SYS_ERR_ADDR_HI_MASTER, .reg .SYS_ERR_ADDR_HI_WRITE, .reg
    .SYS_ERR_ADDR_LO_ADDR, .presented, .holdoff, .mem, .poison, .pwr, .qry, .ben, .free] m) (a1 : Nat) (a2 : Nat) (a3 : List Byte) : Keeps m
    s0 (memWrite a1 a2 a3 s) := by
  unfold memWrite
  try dsimp only
  repeat' first
    | with_reducible assumption
    | exact Within.trans (Eq.refl _) hw
    | with_reducible apply denyMem_keeps
    | with_reducible apply storeMem_keeps
    | with_reducible apply Keeps.ite
    | split

theorem loadMem_keeps (h : Keeps m s0 s) (hw : Within [.reg .BENCH_BENCH_HEALTH_HEALTH, .reg .BENCH_BIST_STAT_PHASE, .reg
    .BENCH_BPWR_STAT_STATE, .reg .BENCH_ECC_CNT_CE, .reg .BENCH_ECC_CNT_UE, .reg .BENCH_STATUS_BIST_BUSY, .reg .BENCH_STATUS_SPARE_FREE,
    .reg .BENCH_UE_ADDR_IN_SPARE, .reg .BENCH_UE_ADDR_OFFSET, .reg .ERR_CODE_CODE, .reg .ERR_CODE_MASTER, .reg .ERR_CODE_OVF, .reg
    .ERR_CODE_WORD, .reg .ERR_CODE_WRITE, .reg .EVT_PEND_PEND, .reg .EVT_RAW_RAW, .reg .POWER_STATUS_ENTERING, .reg .POWER_STATUS_EXITING,
    .reg .POWER_WAKE_STAT_CLASS, .reg .POWER_WAKE_STAT_FROM, .reg .QUARRY_CAPACITY_N_ACTIVE, .reg .QUARRY_ECC_CNT_CE, .reg
    .QUARRY_ECC_CNT_UE, .reg .QUARRY_LRMAP_MAP, .reg .QUARRY_LRMAP_SPARE, .reg .QUARRY_RANK_STATE_STATE, .reg .QUARRY_STATUS_DEGRADED, .reg
    .QUARRY_STATUS_MIGRATING, .reg .QUARRY_UE_ADDR_HI_ADDR, .reg .QUARRY_UE_ADDR_HI_BANK, .reg .QUARRY_UE_ADDR_HI_RANK, .reg
    .QUARRY_UE_ADDR_LO_ADDR, .presented, .holdoff, .poison, .pwr, .qry, .ben, .free] m) (a1 : Nat) (a2 : Nat) (a3 : Nat) : Keeps m s0
    (loadMem s a1 a2 a3).2 := by
  unfold loadMem
  try dsimp only
  repeat' first
    | with_reducible assumption
    | exact Within.trans (Eq.refl _) hw
    | with_reducible apply eccRead_keeps
    | with_reducible apply recordErr_keeps
    | with_reducible apply touchBench_keeps
    | with_reducible apply Keeps.ite
    | split

theorem memRead_keeps (h : Keeps m s0 s) (hw : Within [.reg .BENCH_BENCH_HEALTH_HEALTH, .reg .BENCH_BIST_STAT_PHASE, .reg
    .BENCH_BPWR_STAT_STATE, .reg .BENCH_ECC_CNT_CE, .reg .BENCH_ECC_CNT_UE, .reg .BENCH_STATUS_BIST_BUSY, .reg .BENCH_STATUS_SPARE_FREE,
    .reg .BENCH_UE_ADDR_IN_SPARE, .reg .BENCH_UE_ADDR_OFFSET, .reg .ERR_CODE_CODE, .reg .ERR_CODE_MASTER, .reg .ERR_CODE_OVF, .reg
    .ERR_CODE_WORD, .reg .ERR_CODE_WRITE, .reg .EVT_PEND_PEND, .reg .EVT_RAW_RAW, .reg .POWER_STATUS_ENTERING, .reg .POWER_STATUS_EXITING,
    .reg .POWER_WAKE_STAT_CLASS, .reg .POWER_WAKE_STAT_FROM, .reg .QUARRY_CAPACITY_N_ACTIVE, .reg .QUARRY_ECC_CNT_CE, .reg
    .QUARRY_ECC_CNT_UE, .reg .QUARRY_LRMAP_MAP, .reg .QUARRY_LRMAP_SPARE, .reg .QUARRY_RANK_STATE_STATE, .reg .QUARRY_STATUS_DEGRADED, .reg
    .QUARRY_STATUS_MIGRATING, .reg .QUARRY_UE_ADDR_HI_ADDR, .reg .QUARRY_UE_ADDR_HI_BANK, .reg .QUARRY_UE_ADDR_HI_RANK, .reg
    .QUARRY_UE_ADDR_LO_ADDR, .reg .SYS_ERR_ADDR_HI_ADDR, .reg .SYS_ERR_ADDR_HI_MASTER, .reg .SYS_ERR_ADDR_HI_WRITE, .reg
    .SYS_ERR_ADDR_LO_ADDR, .presented, .holdoff, .poison, .pwr, .qry, .ben, .free] m) (a1 : Nat) (a2 : Nat) (a3 : Nat) : Keeps m s0 (memRead
    s a1 a2 a3).2 := by
  unfold memRead
  try dsimp only
  repeat' first
    | with_reducible assumption
    | exact Within.trans (Eq.refl _) hw
    | with_reducible apply denyMem_keeps
    | with_reducible apply loadMem_keeps
    | with_reducible apply Keeps.ite
    | split
    | with_reducible refine Keeps.of_snd (by assumption) ?_

end Sys2Proof.Machine
end

