-- ==== Sys2Proof/Laws/BenchesKeeps.lean ====
section
/-! SUPPORT. What the operations of Machine/Benches.lean keep: the queue, the invariant, and every part outside their footprint. -/

set_option maxRecDepth 4000
set_option linter.unusedTactic false
set_option linter.unreachableTactic false

namespace Sys2Proof.Machine

variable {m : Nat} {s0 s : State}

theorem aliasWrite_keeps (h : Keeps m s0 s) (hw : Within [.reg .BENCH_ALIAS_LAST_PRIOR, .reg .BENCH_ALIAS_STAT_POISON, .reg
    .BENCH_ALIAS_STAT_VALID, .reg .BENCH_BENCH_HEALTH_HEALTH, .reg .BENCH_BIST_STAT_PHASE, .reg .BENCH_ECC_CNT_CE, .reg .BENCH_ECC_CNT_UE,
    .reg .BENCH_STATUS_BIST_BUSY, .reg .BENCH_STATUS_SPARE_FREE, .reg .BENCH_UE_ADDR_IN_SPARE, .reg .BENCH_UE_ADDR_OFFSET, .reg
    .ERR_CODE_CODE, .reg .ERR_CODE_MASTER, .reg .ERR_CODE_OVF, .reg .ERR_CODE_WORD, .reg .ERR_CODE_WRITE, .reg .EVT_PEND_PEND, .reg
    .EVT_RAW_RAW, .reg .POWER_STATUS_ENTERING, .reg .POWER_STATUS_EXITING, .reg .POWER_WAKE_STAT_CLASS, .reg .POWER_WAKE_STAT_FROM, .reg
    .QUARRY_CAPACITY_N_ACTIVE, .reg .QUARRY_ECC_CNT_CE, .reg .QUARRY_ECC_CNT_UE, .reg .QUARRY_LRMAP_MAP, .reg .QUARRY_LRMAP_SPARE, .reg
    .QUARRY_RANK_STATE_STATE, .reg .QUARRY_STATUS_DEGRADED, .reg .QUARRY_STATUS_MIGRATING, .reg .QUARRY_UE_ADDR_HI_ADDR, .reg
    .QUARRY_UE_ADDR_HI_BANK, .reg .QUARRY_UE_ADDR_HI_RANK, .reg .QUARRY_UE_ADDR_LO_ADDR, .presented, .holdoff, .mem, .poison, .pwr, .qry,
    .ben, .free] m) (a1 : BenchAccess) : Keeps m s0 (aliasWrite a1 s) := by
  unfold aliasWrite
  try dsimp only
  repeat' first
    | with_reducible assumption
    | exact Within.trans (Eq.refl _) hw
    | with_reducible apply wr_keeps
    | with_reducible apply State.setBytes_keeps
    | with_reducible apply eccRead_keeps
    | with_reducible apply recordErr_keeps
    | with_reducible apply storeBench_keeps
    | with_reducible apply Keeps.ite
    | split
    | with_reducible refine Keeps.of_snd (by assumption) ?_

theorem collision_keeps (h : Keeps m s0 s) (hw : Within [.reg .BENCH_COLL_CNT_COUNT, .reg .BENCH_COLL_STAT_STREAMER, .reg
    .EVT_PEND_PEND, .reg .EVT_RAW_RAW, .presented, .missed] m) (a1 : Nat) (a2 : Nat) (a3 : List Nat) : Keeps m s0 (collision a1 a2 a3 s) :=
    by
  unfold collision
  try dsimp only
  repeat' first
    | with_reducible assumption
    | exact Within.trans (Eq.refl _) hw
    | (intro _)
    | with_reducible apply wr_keeps
    | with_reducible apply inc_keeps
    | with_reducible apply raise_keeps
    | with_reducible apply Keeps.ite
    | split
    | (with_reducible apply Keeps.of_fields <;>
        first | with_reducible exact rfl | with_reducible exact Or.inl rfl | exact Or.inr (Within.trans (Eq.refl _) hw) | skip)

theorem markedWrite_keeps (h : Keeps m s0 s) (hw : Within [.reg .BENCH_BENCH_HEALTH_HEALTH, .reg .BENCH_BIST_STAT_PHASE, .reg
    .BENCH_ECC_CNT_CE, .reg .BENCH_ECC_CNT_UE, .reg .BENCH_STATUS_BIST_BUSY, .reg .BENCH_STATUS_SPARE_FREE, .reg .BENCH_UE_ADDR_IN_SPARE,
    .reg .BENCH_UE_ADDR_OFFSET, .reg .ERR_CODE_CODE, .reg .ERR_CODE_MASTER, .reg .ERR_CODE_OVF, .reg .ERR_CODE_WORD, .reg .ERR_CODE_WRITE,
    .reg .EVT_PEND_PEND, .reg .EVT_RAW_RAW, .reg .POWER_STATUS_ENTERING, .reg .POWER_STATUS_EXITING, .reg .POWER_WAKE_STAT_CLASS, .reg
    .POWER_WAKE_STAT_FROM, .reg .QUARRY_CAPACITY_N_ACTIVE, .reg .QUARRY_ECC_CNT_CE, .reg .QUARRY_ECC_CNT_UE, .reg .QUARRY_LRMAP_MAP, .reg
    .QUARRY_LRMAP_SPARE, .reg .QUARRY_RANK_STATE_STATE, .reg .QUARRY_STATUS_DEGRADED, .reg .QUARRY_STATUS_MIGRATING, .reg
    .QUARRY_UE_ADDR_HI_ADDR, .reg .QUARRY_UE_ADDR_HI_BANK, .reg .QUARRY_UE_ADDR_HI_RANK, .reg .QUARRY_UE_ADDR_LO_ADDR, .presented, .holdoff,
    .mem, .poison, .pwr, .qry, .ben, .free] m) (a1 : BenchAccess) : Keeps m s0 (markedWrite a1 s) := by
  unfold markedWrite
  try dsimp only
  repeat' first
    | with_reducible assumption
    | exact Within.trans (Eq.refl _) hw
    | (intro _)
    | with_reducible apply each_keeps
    | with_reducible apply State.setPoison_keeps
    | with_reducible apply writeWords_keeps
    | with_reducible apply Keeps.ite
    | split
    | with_reducible refine Keeps.of_snd (by assumption) ?_

theorem collide_keeps (h : Keeps m s0 s) (hw : Within [.reg .BENCH_ALIAS_LAST_PRIOR, .reg .BENCH_ALIAS_STAT_POISON, .reg
    .BENCH_ALIAS_STAT_VALID, .reg .BENCH_BENCH_HEALTH_HEALTH, .reg .BENCH_BIST_STAT_PHASE, .reg .BENCH_COLL_CNT_COUNT, .reg
    .BENCH_COLL_STAT_STREAMER, .reg .BENCH_ECC_CNT_CE, .reg .BENCH_ECC_CNT_UE, .reg .BENCH_STATUS_BIST_BUSY, .reg .BENCH_STATUS_SPARE_FREE,
    .reg .BENCH_UE_ADDR_IN_SPARE, .reg .BENCH_UE_ADDR_OFFSET, .reg .ERR_CODE_CODE, .reg .ERR_CODE_MASTER, .reg .ERR_CODE_OVF, .reg
    .ERR_CODE_WORD, .reg .ERR_CODE_WRITE, .reg .EVT_PEND_PEND, .reg .EVT_RAW_RAW, .reg .POWER_STATUS_ENTERING, .reg .POWER_STATUS_EXITING,
    .reg .POWER_WAKE_STAT_CLASS, .reg .POWER_WAKE_STAT_FROM, .reg .QUARRY_CAPACITY_N_ACTIVE, .reg .QUARRY_ECC_CNT_CE, .reg
    .QUARRY_ECC_CNT_UE, .reg .QUARRY_LRMAP_MAP, .reg .QUARRY_LRMAP_SPARE, .reg .QUARRY_RANK_STATE_STATE, .reg .QUARRY_STATUS_DEGRADED, .reg
    .QUARRY_STATUS_MIGRATING, .reg .QUARRY_UE_ADDR_HI_ADDR, .reg .QUARRY_UE_ADDR_HI_BANK, .reg .QUARRY_UE_ADDR_HI_RANK, .reg
    .QUARRY_UE_ADDR_LO_ADDR, .presented, .holdoff, .mem, .poison, .pwr, .qry, .ben, .missed, .free] m) (a1 : BenchAccess) (a2 : BenchAccess)
    : Keeps m s0 (collide a1 a2 s) := by
  unfold collide
  try dsimp only
  repeat' first
    | with_reducible assumption
    | exact Within.trans (Eq.refl _) hw
    | with_reducible apply wr_keeps
    | with_reducible apply aliasWrite_keeps
    | with_reducible apply collision_keeps
    | with_reducible apply eccRead_keeps
    | with_reducible apply markedWrite_keeps
    | with_reducible apply Keeps.ite
    | split

theorem benchWrite_keeps (h : Keeps m s0 s) (hw : Within [.reg .BENCH_ALIAS_LAST_PRIOR, .reg .BENCH_ALIAS_STAT_POISON, .reg
    .BENCH_ALIAS_STAT_VALID, .reg .BENCH_BENCH_HEALTH_HEALTH, .reg .BENCH_BIST_STAT_PHASE, .reg .BENCH_COLL_CNT_COUNT, .reg
    .BENCH_COLL_STAT_STREAMER, .reg .BENCH_ECC_CNT_CE, .reg .BENCH_ECC_CNT_UE, .reg .BENCH_STATUS_BIST_BUSY, .reg .BENCH_STATUS_SPARE_FREE,
    .reg .BENCH_UE_ADDR_IN_SPARE, .reg .BENCH_UE_ADDR_OFFSET, .reg .ERR_CODE_CODE, .reg .ERR_CODE_MASTER, .reg .ERR_CODE_OVF, .reg
    .ERR_CODE_WORD, .reg .ERR_CODE_WRITE, .reg .EVT_PEND_PEND, .reg .EVT_RAW_RAW, .reg .POWER_STATUS_ENTERING, .reg .POWER_STATUS_EXITING,
    .reg .POWER_WAKE_STAT_CLASS, .reg .POWER_WAKE_STAT_FROM, .reg .QUARRY_CAPACITY_N_ACTIVE, .reg .QUARRY_ECC_CNT_CE, .reg
    .QUARRY_ECC_CNT_UE, .reg .QUARRY_LRMAP_MAP, .reg .QUARRY_LRMAP_SPARE, .reg .QUARRY_RANK_STATE_STATE, .reg .QUARRY_STATUS_DEGRADED, .reg
    .QUARRY_STATUS_MIGRATING, .reg .QUARRY_UE_ADDR_HI_ADDR, .reg .QUARRY_UE_ADDR_HI_BANK, .reg .QUARRY_UE_ADDR_HI_RANK, .reg
    .QUARRY_UE_ADDR_LO_ADDR, .presented, .holdoff, .mem, .poison, .pwr, .qry, .ben, .missed, .free] m) (a1 : BenchAccess) : Keeps m s0
    (benchWrite a1 s) := by
  unfold benchWrite
  try dsimp only
  repeat' first
    | with_reducible assumption
    | exact Within.trans (Eq.refl _) hw
    | with_reducible apply collide_keeps
    | with_reducible apply markedWrite_keeps
    | with_reducible apply Keeps.ite
    | split

theorem serveAccess_keeps (h : Keeps m s0 s) (hw : Within [.reg .BENCH_ALIAS_LAST_PRIOR, .reg .BENCH_ALIAS_STAT_POISON, .reg
    .BENCH_ALIAS_STAT_VALID, .reg .BENCH_BENCH_HEALTH_HEALTH, .reg .BENCH_BIST_STAT_PHASE, .reg .BENCH_BPWR_STAT_STATE, .reg
    .BENCH_COLL_CNT_COUNT, .reg .BENCH_COLL_STAT_STREAMER, .reg .BENCH_ECC_CNT_CE, .reg .BENCH_ECC_CNT_UE, .reg .BENCH_STATUS_BIST_BUSY,
    .reg .BENCH_STATUS_SPARE_FREE, .reg .BENCH_UE_ADDR_IN_SPARE, .reg .BENCH_UE_ADDR_OFFSET, .reg .ERR_CODE_CODE, .reg .ERR_CODE_MASTER,
    .reg .ERR_CODE_OVF, .reg .ERR_CODE_WORD, .reg .ERR_CODE_WRITE, .reg .EVT_PEND_PEND, .reg .EVT_RAW_RAW, .reg .POWER_STATUS_ENTERING, .reg
    .POWER_STATUS_EXITING, .reg .POWER_WAKE_STAT_CLASS, .reg .POWER_WAKE_STAT_FROM, .reg .QUARRY_CAPACITY_N_ACTIVE, .reg .QUARRY_ECC_CNT_CE,
    .reg .QUARRY_ECC_CNT_UE, .reg .QUARRY_LRMAP_MAP, .reg .QUARRY_LRMAP_SPARE, .reg .QUARRY_RANK_STATE_STATE, .reg .QUARRY_STATUS_DEGRADED,
    .reg .QUARRY_STATUS_MIGRATING, .reg .QUARRY_UE_ADDR_HI_ADDR, .reg .QUARRY_UE_ADDR_HI_BANK, .reg .QUARRY_UE_ADDR_HI_RANK, .reg
    .QUARRY_UE_ADDR_LO_ADDR, .readData, .presented, .holdoff, .mem, .poison, .pwr, .qry, .ben, .missed, .free] m) (a1 : BenchAccess) : Keeps
    m s0 (serveAccess a1 s) := by
  unfold serveAccess
  try dsimp only
  repeat' first
    | with_reducible assumption
    | exact Within.trans (Eq.refl _) hw
    | with_reducible apply aliasWrite_keeps
    | with_reducible apply benchWrite_keeps
    | with_reducible apply eccRead_keeps
    | with_reducible apply touchBench_keeps
    | with_reducible apply Keeps.ite
    | split
    | (with_reducible apply Keeps.of_fields <;>
        first | with_reducible exact rfl | with_reducible exact Or.inl rfl | exact Or.inr (Within.trans (Eq.refl _) hw) | skip)

theorem refuseAccess_keeps (h : Keeps m s0 s) (hw : Within [.reg .ERR_CODE_CODE, .reg .ERR_CODE_MASTER, .reg .ERR_CODE_OVF, .reg
    .ERR_CODE_WORD, .reg .ERR_CODE_WRITE, .readData] m) (a1 : BenchAccess) : Keeps m s0 (refuseAccess a1 s) := by
  unfold refuseAccess
  try dsimp only
  repeat' first
    | with_reducible assumption
    | exact Within.trans (Eq.refl _) hw
    | with_reducible apply recordErr_keeps
    | with_reducible apply Keeps.ite
    | split
    | (with_reducible apply Keeps.of_fields <;>
        first | with_reducible exact rfl | with_reducible exact Or.inl rfl | exact Or.inr (Within.trans (Eq.refl _) hw) | skip)

theorem benchArrive_keeps (h : Keeps m s0 s) (hw : Within [.reg .BENCH_ALIAS_LAST_PRIOR, .reg .BENCH_ALIAS_STAT_POISON, .reg
    .BENCH_ALIAS_STAT_VALID, .reg .BENCH_BENCH_HEALTH_HEALTH, .reg .BENCH_BIST_STAT_PHASE, .reg .BENCH_BPWR_STAT_STATE, .reg
    .BENCH_COLL_CNT_COUNT, .reg .BENCH_COLL_STAT_STREAMER, .reg .BENCH_ECC_CNT_CE, .reg .BENCH_ECC_CNT_UE, .reg .BENCH_STATUS_BIST_BUSY,
    .reg .BENCH_STATUS_SPARE_FREE, .reg .BENCH_UE_ADDR_IN_SPARE, .reg .BENCH_UE_ADDR_OFFSET, .reg .ERR_CODE_CODE, .reg .ERR_CODE_MASTER,
    .reg .ERR_CODE_OVF, .reg .ERR_CODE_WORD, .reg .ERR_CODE_WRITE, .reg .EVT_PEND_PEND, .reg .EVT_RAW_RAW, .reg .POWER_STATUS_ENTERING, .reg
    .POWER_STATUS_EXITING, .reg .POWER_WAKE_STAT_CLASS, .reg .POWER_WAKE_STAT_FROM, .reg .QUARRY_CAPACITY_N_ACTIVE, .reg .QUARRY_ECC_CNT_CE,
    .reg .QUARRY_ECC_CNT_UE, .reg .QUARRY_LRMAP_MAP, .reg .QUARRY_LRMAP_SPARE, .reg .QUARRY_RANK_STATE_STATE, .reg .QUARRY_STATUS_DEGRADED,
    .reg .QUARRY_STATUS_MIGRATING, .reg .QUARRY_UE_ADDR_HI_ADDR, .reg .QUARRY_UE_ADDR_HI_BANK, .reg .QUARRY_UE_ADDR_HI_RANK, .reg
    .QUARRY_UE_ADDR_LO_ADDR, .readData, .presented, .holdoff, .mem, .poison, .pwr, .qry, .ben, .missed, .free] m) (a1 : BenchAccess) : Keeps
    m s0 (benchArrive a1 s) := by
  unfold benchArrive
  try dsimp only
  repeat' first
    | with_reducible assumption
    | exact Within.trans (Eq.refl _) hw
    | (intro _)
    | with_reducible apply refuseAccess_keeps
    | with_reducible apply serveAccess_keeps
    | with_reducible apply Keeps.ite
    | split
    | (with_reducible apply Keeps.of_fields <;>
        first | with_reducible exact rfl | with_reducible exact Or.inl rfl | exact Or.inr (Within.trans (Eq.refl _) hw) | skip)

theorem benchAccess_keeps (h : Keeps m s0 s) (hw : Within [.reg .BENCH_ALIAS_LAST_PRIOR, .reg .BENCH_ALIAS_STAT_POISON, .reg
    .BENCH_ALIAS_STAT_VALID, .reg .BENCH_BENCH_HEALTH_HEALTH, .reg .BENCH_BIST_STAT_PHASE, .reg .BENCH_BPWR_STAT_STATE, .reg
    .BENCH_COLL_CNT_COUNT, .reg .BENCH_COLL_STAT_STREAMER, .reg .BENCH_ECC_CNT_CE, .reg .BENCH_ECC_CNT_UE, .reg .BENCH_STATUS_BIST_BUSY,
    .reg .BENCH_STATUS_SPARE_FREE, .reg .BENCH_UE_ADDR_IN_SPARE, .reg .BENCH_UE_ADDR_OFFSET, .reg .ERR_CODE_CODE, .reg .ERR_CODE_MASTER,
    .reg .ERR_CODE_OVF, .reg .ERR_CODE_WORD, .reg .ERR_CODE_WRITE, .reg .EVT_PEND_PEND, .reg .EVT_RAW_RAW, .reg .POWER_STATUS_ENTERING, .reg
    .POWER_STATUS_EXITING, .reg .POWER_WAKE_STAT_CLASS, .reg .POWER_WAKE_STAT_FROM, .reg .QUARRY_CAPACITY_N_ACTIVE, .reg .QUARRY_ECC_CNT_CE,
    .reg .QUARRY_ECC_CNT_UE, .reg .QUARRY_LRMAP_MAP, .reg .QUARRY_LRMAP_SPARE, .reg .QUARRY_RANK_STATE_STATE, .reg .QUARRY_STATUS_DEGRADED,
    .reg .QUARRY_STATUS_MIGRATING, .reg .QUARRY_UE_ADDR_HI_ADDR, .reg .QUARRY_UE_ADDR_HI_BANK, .reg .QUARRY_UE_ADDR_HI_RANK, .reg
    .QUARRY_UE_ADDR_LO_ADDR, .readData, .presented, .holdoff, .mem, .poison, .pwr, .qry, .ben, .missed, .free] m) (a1 : BenchAccess) : Keeps
    m s0 (benchAccess a1 s) := by
  unfold benchAccess
  try dsimp only
  repeat' first
    | with_reducible assumption
    | exact Within.trans (Eq.refl _) hw
    | with_reducible apply benchArrive_keeps
    | with_reducible apply refuseAccess_keeps
    | with_reducible apply Keeps.ite
    | split

theorem execBenchAccess_keeps (h : Keeps m s0 s) (hw : Within [.reg .BENCH_ALIAS_LAST_PRIOR, .reg .BENCH_ALIAS_STAT_POISON, .reg
    .BENCH_ALIAS_STAT_VALID, .reg .BENCH_BENCH_HEALTH_HEALTH, .reg .BENCH_BIST_STAT_PHASE, .reg .BENCH_BPWR_STAT_STATE, .reg
    .BENCH_COLL_CNT_COUNT, .reg .BENCH_COLL_STAT_STREAMER, .reg .BENCH_ECC_CNT_CE, .reg .BENCH_ECC_CNT_UE, .reg .BENCH_STATUS_BIST_BUSY,
    .reg .BENCH_STATUS_SPARE_FREE, .reg .BENCH_UE_ADDR_IN_SPARE, .reg .BENCH_UE_ADDR_OFFSET, .reg .ERR_CODE_CODE, .reg .ERR_CODE_MASTER,
    .reg .ERR_CODE_OVF, .reg .ERR_CODE_WORD, .reg .ERR_CODE_WRITE, .reg .EVT_PEND_PEND, .reg .EVT_RAW_RAW, .reg .POWER_STATUS_ENTERING, .reg
    .POWER_STATUS_EXITING, .reg .POWER_WAKE_STAT_CLASS, .reg .POWER_WAKE_STAT_FROM, .reg .QUARRY_CAPACITY_N_ACTIVE, .reg .QUARRY_ECC_CNT_CE,
    .reg .QUARRY_ECC_CNT_UE, .reg .QUARRY_LRMAP_MAP, .reg .QUARRY_LRMAP_SPARE, .reg .QUARRY_RANK_STATE_STATE, .reg .QUARRY_STATUS_DEGRADED,
    .reg .QUARRY_STATUS_MIGRATING, .reg .QUARRY_UE_ADDR_HI_ADDR, .reg .QUARRY_UE_ADDR_HI_BANK, .reg .QUARRY_UE_ADDR_HI_RANK, .reg
    .QUARRY_UE_ADDR_LO_ADDR, .readData, .presented, .holdoff, .mem, .poison, .pwr, .qry, .ben, .missed, .free] m) (a1 : Master) (a2 : Bool)
    (a3 : BitVec 22) (a4 : Fin 65) (a5 : List Byte) (a6 : Bool) (a7 : Option (Master × Fin 4 × BitVec 22 × List Byte)) (a8 : List (BitVec
    22)) (a9 : List (BitVec 22)) : Ends m s0 (execBenchAccess a1 a2 a3 a4 a5 a6 a7 a8 a9 s) := by
  unfold execBenchAccess
  try dsimp only
  repeat' first
    | with_reducible assumption
    | exact Within.trans (Eq.refl _) hw
    | (intro _)
    | with_reducible apply each_keeps
    | with_reducible apply on_keeps
    | with_reducible apply act_keeps
    | with_reducible apply addBenchFlaw_keeps
    | with_reducible apply benchAccess_keeps
    | with_reducible apply drawPool_keeps
    | with_reducible apply Keeps.ite
    | with_reducible apply Ends.ite
    | with_reducible apply Ends.next
    | split

theorem execBenchAliasWrite_keeps (h : Keeps m s0 s) (hw : Within [.reg .BENCH_ALIAS_LAST_PRIOR, .reg .BENCH_ALIAS_STAT_POISON, .reg
    .BENCH_ALIAS_STAT_VALID, .reg .BENCH_BENCH_HEALTH_HEALTH, .reg .BENCH_BIST_STAT_PHASE, .reg .BENCH_BPWR_STAT_STATE, .reg
    .BENCH_COLL_CNT_COUNT, .reg .BENCH_COLL_STAT_STREAMER, .reg .BENCH_ECC_CNT_CE, .reg .BENCH_ECC_CNT_UE, .reg .BENCH_STATUS_BIST_BUSY,
    .reg .BENCH_STATUS_SPARE_FREE, .reg .BENCH_UE_ADDR_IN_SPARE, .reg .BENCH_UE_ADDR_OFFSET, .reg .ERR_CODE_CODE, .reg .ERR_CODE_MASTER,
    .reg .ERR_CODE_OVF, .reg .ERR_CODE_WORD, .reg .ERR_CODE_WRITE, .reg .EVT_PEND_PEND, .reg .EVT_RAW_RAW, .reg .POWER_STATUS_ENTERING, .reg
    .POWER_STATUS_EXITING, .reg .POWER_WAKE_STAT_CLASS, .reg .POWER_WAKE_STAT_FROM, .reg .QUARRY_CAPACITY_N_ACTIVE, .reg .QUARRY_ECC_CNT_CE,
    .reg .QUARRY_ECC_CNT_UE, .reg .QUARRY_LRMAP_MAP, .reg .QUARRY_LRMAP_SPARE, .reg .QUARRY_RANK_STATE_STATE, .reg .QUARRY_STATUS_DEGRADED,
    .reg .QUARRY_STATUS_MIGRATING, .reg .QUARRY_UE_ADDR_HI_ADDR, .reg .QUARRY_UE_ADDR_HI_BANK, .reg .QUARRY_UE_ADDR_HI_RANK, .reg
    .QUARRY_UE_ADDR_LO_ADDR, .readData, .presented, .holdoff, .mem, .poison, .pwr, .qry, .ben, .missed, .free] m) (a1 : Master) (a2 : Bool)
    (a3 : BitVec 22) (a4 : List Byte) : Ends m s0 (execBenchAliasWrite a1 a2 a3 a4 s) := by
  unfold execBenchAliasWrite
  try dsimp only
  repeat' first
    | with_reducible assumption
    | exact Within.trans (Eq.refl _) hw
    | (intro _)
    | with_reducible apply on_keeps
    | with_reducible apply act_keeps
    | with_reducible apply benchAccess_keeps
    | with_reducible apply Keeps.ite
    | with_reducible apply Ends.ite
    | with_reducible apply Ends.next
    | split

theorem execBenchScrub_keeps (h : Keeps m s0 s) (hw : Within [.reg .BENCH_BENCH_HEALTH_HEALTH, .reg .BENCH_BIST_STAT_PHASE, .reg
    .BENCH_ECC_CNT_CE, .reg .BENCH_ECC_CNT_UE, .reg .BENCH_STATUS_BIST_BUSY, .reg .BENCH_STATUS_SPARE_FREE, .reg .BENCH_UE_ADDR_IN_SPARE,
    .reg .BENCH_UE_ADDR_OFFSET, .reg .EVT_PEND_PEND, .reg .EVT_RAW_RAW, .reg .POWER_STATUS_ENTERING, .reg .POWER_STATUS_EXITING, .reg
    .POWER_WAKE_STAT_CLASS, .reg .POWER_WAKE_STAT_FROM, .presented, .holdoff, .poison, .pwr, .ben] m) (a1 : BitVec 22) (a2 : Fin 3) : Ends m
    s0 (execBenchScrub a1 a2 s) := by
  unfold execBenchScrub
  try dsimp only
  repeat' first
    | with_reducible assumption
    | exact Within.trans (Eq.refl _) hw
    | (intro _)
    | with_reducible apply on_keeps
    | with_reducible apply act_keeps
    | with_reducible apply addBenchFlaw_keeps
    | with_reducible apply benchWord_keeps
    | with_reducible apply Keeps.ite
    | with_reducible apply Ends.ite
    | with_reducible apply Ends.next
    | split

theorem execBenchPortTimeout_keeps (h : Keeps m s0 s) (hw : Within [.reg .BENCH_BENCH_HEALTH_HEALTH, .reg .BENCH_BIST_STAT_PHASE, .reg
    .BENCH_STATUS_BIST_BUSY, .reg .BENCH_STATUS_SPARE_FREE, .reg .EVT_PEND_PEND, .reg .EVT_RAW_RAW, .reg .POWER_STATUS_ENTERING, .reg
    .POWER_STATUS_EXITING, .reg .POWER_WAKE_STAT_CLASS, .reg .POWER_WAKE_STAT_FROM, .presented, .pwr, .ben] m) (a1 : Fin 17) : Ends m s0
    (execBenchPortTimeout a1 s) := by
  unfold execBenchPortTimeout
  try dsimp only
  repeat' first
    | with_reducible assumption
    | exact Within.trans (Eq.refl _) hw
    | (intro _)
    | with_reducible apply act_keeps
    | with_reducible apply benchFails_keeps
    | with_reducible apply Ends.ite
    | with_reducible apply Ends.next
    | split

theorem wipeBench_keeps (h : Keeps m s0 s) (hw : Within [.mem, .poison, .ben, .missed] m) (a1 : Nat) : Keeps m s0 (wipeBench a1 s) :=
  Keeps.upd_ben (Keeps.upd_missed (Keeps.upd_poison (h.upd_mem (Within.trans (Eq.refl _) hw) (fun hm => Store.wf_filter hm _))
    (Within.trans (Eq.refl _) hw) _) (Within.trans (Eq.refl _) hw) _) (Within.trans (Eq.refl _) hw) _

theorem execBenchAutoRetention_keeps (h : Keeps m s0 s) (hw : Within [.reg .BENCH_BPWR_STAT_STATE] m) (a1 : Fin 16) : Ends m s0
    (execBenchAutoRetention a1 s) := by
  unfold execBenchAutoRetention
  try dsimp only
  repeat' first
    | with_reducible assumption
    | exact Within.trans (Eq.refl _) hw
    | (intro _)
    | with_reducible apply on_keeps
    | with_reducible apply act_keeps
    | with_reducible apply setBenchState_keeps
    | with_reducible apply Ends.ite
    | with_reducible apply Ends.next
    | split

theorem benchWake_keeps (h : Keeps m s0 s) (hw : Within [.reg .BENCH_ALIAS_LAST_PRIOR, .reg .BENCH_ALIAS_STAT_POISON, .reg
    .BENCH_ALIAS_STAT_VALID, .reg .BENCH_BENCH_HEALTH_HEALTH, .reg .BENCH_BIST_STAT_PHASE, .reg .BENCH_BPWR_STAT_STATE, .reg
    .BENCH_COLL_CNT_COUNT, .reg .BENCH_COLL_STAT_STREAMER, .reg .BENCH_ECC_CNT_CE, .reg .BENCH_ECC_CNT_UE, .reg .BENCH_STATUS_BIST_BUSY,
    .reg .BENCH_STATUS_SPARE_FREE, .reg .BENCH_UE_ADDR_IN_SPARE, .reg .BENCH_UE_ADDR_OFFSET, .reg .ERR_CODE_CODE, .reg .ERR_CODE_MASTER,
    .reg .ERR_CODE_OVF, .reg .ERR_CODE_WORD, .reg .ERR_CODE_WRITE, .reg .EVT_PEND_PEND, .reg .EVT_RAW_RAW, .reg .POWER_STATUS_ENTERING, .reg
    .POWER_STATUS_EXITING, .reg .POWER_WAKE_STAT_CLASS, .reg .POWER_WAKE_STAT_FROM, .reg .QUARRY_CAPACITY_N_ACTIVE, .reg .QUARRY_ECC_CNT_CE,
    .reg .QUARRY_ECC_CNT_UE, .reg .QUARRY_LRMAP_MAP, .reg .QUARRY_LRMAP_SPARE, .reg .QUARRY_RANK_STATE_STATE, .reg .QUARRY_STATUS_DEGRADED,
    .reg .QUARRY_STATUS_MIGRATING, .reg .QUARRY_UE_ADDR_HI_ADDR, .reg .QUARRY_UE_ADDR_HI_BANK, .reg .QUARRY_UE_ADDR_HI_RANK, .reg
    .QUARRY_UE_ADDR_LO_ADDR, .readData, .presented, .holdoff, .mem, .poison, .pwr, .qry, .ben, .missed, .free] m) (a1 : Nat) : Keeps m s0
    (benchWake a1 s) := by
  unfold benchWake
  try dsimp only
  repeat' first
    | with_reducible assumption
    | exact Within.trans (Eq.refl _) hw
    | (intro _)
    | with_reducible apply each_keeps
    | with_reducible apply benchArrive_keeps
    | with_reducible apply setBenchState_keeps
    | (with_reducible apply Keeps.of_fields <;>
        first | with_reducible exact rfl | with_reducible exact Or.inl rfl | exact Or.inr (Within.trans (Eq.refl _) hw) | skip)

theorem leaveOff_keeps (h : Keeps m s0 s) (hw : Within [.reg .BENCH_BPWR_STAT_STATE, .ben] m) (a1 : Nat) : Keeps m s0 (leaveOff a1 s) :=
    by
  unfold leaveOff
  try dsimp only
  repeat' first
    | with_reducible assumption
    | exact Within.trans (Eq.refl _) hw
    | with_reducible apply setBenchState_keeps
    | (with_reducible apply Keeps.of_fields <;>
        first | with_reducible exact rfl | with_reducible exact Or.inl rfl | exact Or.inr (Within.trans (Eq.refl _) hw) | skip)

theorem execBenchWake_keeps (h : Keeps m s0 s) (hw : Within [.reg .BENCH_ALIAS_LAST_PRIOR, .reg .BENCH_ALIAS_STAT_POISON, .reg
    .BENCH_ALIAS_STAT_VALID, .reg .BENCH_BENCH_HEALTH_HEALTH, .reg .BENCH_BIST_STAT_PHASE, .reg .BENCH_BPWR_STAT_STATE, .reg
    .BENCH_COLL_CNT_COUNT, .reg .BENCH_COLL_STAT_STREAMER, .reg .BENCH_ECC_CNT_CE, .reg .BENCH_ECC_CNT_UE, .reg .BENCH_STATUS_BIST_BUSY,
    .reg .BENCH_STATUS_SPARE_FREE, .reg .BENCH_UE_ADDR_IN_SPARE, .reg .BENCH_UE_ADDR_OFFSET, .reg .ERR_CODE_CODE, .reg .ERR_CODE_MASTER,
    .reg .ERR_CODE_OVF, .reg .ERR_CODE_WORD, .reg .ERR_CODE_WRITE, .reg .EVT_PEND_PEND, .reg .EVT_RAW_RAW, .reg .POWER_STATUS_ENTERING, .reg
    .POWER_STATUS_EXITING, .reg .POWER_WAKE_STAT_CLASS, .reg .POWER_WAKE_STAT_FROM, .reg .QUARRY_CAPACITY_N_ACTIVE, .reg .QUARRY_ECC_CNT_CE,
    .reg .QUARRY_ECC_CNT_UE, .reg .QUARRY_LRMAP_MAP, .reg .QUARRY_LRMAP_SPARE, .reg .QUARRY_RANK_STATE_STATE, .reg .QUARRY_STATUS_DEGRADED,
    .reg .QUARRY_STATUS_MIGRATING, .reg .QUARRY_UE_ADDR_HI_ADDR, .reg .QUARRY_UE_ADDR_HI_BANK, .reg .QUARRY_UE_ADDR_HI_RANK, .reg
    .QUARRY_UE_ADDR_LO_ADDR, .readData, .presented, .holdoff, .mem, .poison, .pwr, .qry, .ben, .missed, .free] m) (a1 : Fin 16) : Ends m s0
    (execBenchWake a1 s) := by
  unfold execBenchWake
  try dsimp only
  repeat' first
    | with_reducible assumption
    | exact Within.trans (Eq.refl _) hw
    | (intro _)
    | with_reducible apply on_keeps
    | with_reducible apply act_keeps
    | with_reducible apply benchWake_keeps
    | with_reducible apply leaveOff_keeps
    | with_reducible apply Keeps.ite
    | with_reducible apply Ends.ite
    | with_reducible apply Ends.next
    | split

theorem settleHeld_keeps (h : Keeps m s0 s) (hw : Within [.reg .BENCH_ALIAS_LAST_PRIOR, .reg .BENCH_ALIAS_STAT_POISON, .reg
    .BENCH_ALIAS_STAT_VALID, .reg .BENCH_BENCH_HEALTH_HEALTH, .reg .BENCH_BIST_STAT_PHASE, .reg .BENCH_BPWR_STAT_STATE, .reg
    .BENCH_COLL_CNT_COUNT, .reg .BENCH_COLL_STAT_STREAMER, .reg .BENCH_ECC_CNT_CE, .reg .BENCH_ECC_CNT_UE, .reg .BENCH_STATUS_BIST_BUSY,
    .reg .BENCH_STATUS_SPARE_FREE, .reg .BENCH_UE_ADDR_IN_SPARE, .reg .BENCH_UE_ADDR_OFFSET, .reg .ERR_CODE_CODE, .reg .ERR_CODE_MASTER,
    .reg .ERR_CODE_OVF, .reg .ERR_CODE_WORD, .reg .ERR_CODE_WRITE, .reg .EVT_PEND_PEND, .reg .EVT_RAW_RAW, .reg .POWER_STATUS_ENTERING, .reg
    .POWER_STATUS_EXITING, .reg .POWER_WAKE_STAT_CLASS, .reg .POWER_WAKE_STAT_FROM, .reg .QUARRY_CAPACITY_N_ACTIVE, .reg .QUARRY_ECC_CNT_CE,
    .reg .QUARRY_ECC_CNT_UE, .reg .QUARRY_LRMAP_MAP, .reg .QUARRY_LRMAP_SPARE, .reg .QUARRY_RANK_STATE_STATE, .reg .QUARRY_STATUS_DEGRADED,
    .reg .QUARRY_STATUS_MIGRATING, .reg .QUARRY_UE_ADDR_HI_ADDR, .reg .QUARRY_UE_ADDR_HI_BANK, .reg .QUARRY_UE_ADDR_HI_RANK, .reg
    .QUARRY_UE_ADDR_LO_ADDR, .readData, .presented, .holdoff, .mem, .poison, .pwr, .qry, .ben, .missed, .free] m) (a1 : Nat) : Keeps m s0
    (settleHeld a1 s) := by
  unfold settleHeld
  try dsimp only
  repeat' first
    | with_reducible assumption
    | exact Within.trans (Eq.refl _) hw
    | (intro _)
    | with_reducible apply each_keeps
    | with_reducible apply refuseAccess_keeps
    | with_reducible apply serveAccess_keeps
    | with_reducible apply Keeps.ite
    | split
    | (with_reducible apply Keeps.of_fields <;>
        first | with_reducible exact rfl | with_reducible exact Or.inl rfl | exact Or.inr (Within.trans (Eq.refl _) hw) | skip)

theorem setBenchMode_keeps (h : Keeps m s0 s) (hw : Within [.reg .BENCH_BPWR_CFG_MODE, .reg .BENCH_BPWR_STAT_STATE, .reg .ERR_CODE_CODE,
    .reg .ERR_CODE_MASTER, .reg .ERR_CODE_OVF, .reg .ERR_CODE_WORD, .reg .ERR_CODE_WRITE, .mem, .poison, .ben, .missed] m) (a1 : Nat) (a2 :
    Nat) (a3 : Nat) : Keeps m s0 (setBenchMode a1 a2 a3 s) := by
  unfold setBenchMode
  try dsimp only
  repeat' first
    | with_reducible assumption
    | exact Within.trans (Eq.refl _) hw
    | with_reducible apply wr_keeps
    | with_reducible apply actionErr_keeps
    | with_reducible apply setBenchState_keeps
    | with_reducible apply wipeBench_keeps
    | with_reducible apply Keeps.ite
    | split

theorem writeBpwr_keeps (h : Keeps m s0 s) (hw : Within [.reg .BENCH_BPWR_CFG_MODE, .reg .BENCH_BPWR_STAT_STATE, .reg .ERR_CODE_CODE,
    .reg .ERR_CODE_MASTER, .reg .ERR_CODE_OVF, .reg .ERR_CODE_WORD, .reg .ERR_CODE_WRITE, .mem, .poison, .ben, .missed] m) (a1 : Nat) (a2 :
    Nat) : Keeps m s0 (writeBpwr a1 a2 s) := by
  unfold writeBpwr
  try dsimp only
  repeat' first
    | with_reducible assumption
    | exact Within.trans (Eq.refl _) hw
    | (intro _)
    | with_reducible apply each_keeps
    | with_reducible apply setBenchMode_keeps

theorem execBenchModeWrite_keeps (h : Keeps m s0 s) (hw : Within [.reg .BENCH_BPWR_CFG_MODE, .reg .BENCH_BPWR_STAT_STATE, .reg
    .ERR_CODE_CODE, .reg .ERR_CODE_MASTER, .reg .ERR_CODE_OVF, .reg .ERR_CODE_WORD, .reg .ERR_CODE_WRITE, .reg .POWER_STATUS_ENTERING, .reg
    .POWER_STATUS_EXITING, .reg .POWER_WAKE_STAT_CLASS, .reg .POWER_WAKE_STAT_FROM, .mem, .poison, .pwr, .ben, .missed] m) (a1 : Master) (a2
    : Word) : Ends m s0 (execBenchModeWrite a1 a2 s) := by
  unfold execBenchModeWrite
  try dsimp only
  repeat' first
    | with_reducible assumption
    | exact Within.trans (Eq.refl _) hw
    | (intro _)
    | with_reducible apply act_keeps
    | with_reducible apply gateBy_keeps
    | with_reducible apply writeBpwr_keeps
    | with_reducible apply Ends.ite
    | with_reducible apply Ends.next
    | split

theorem restBenches_keeps (h : Keeps m s0 s) (hw : Within [.reg .BENCH_BPWR_STAT_STATE] m)  : Keeps m s0 (restBenches s) := by
  unfold restBenches
  try dsimp only
  repeat' first
    | with_reducible assumption
    | exact Within.trans (Eq.refl _) hw
    | (intro _)
    | with_reducible apply each_keeps
    | with_reducible apply setBenchState_keeps
    | with_reducible apply Keeps.ite
    | split

theorem bistStart_keeps (h : Keeps m s0 s) (hw : Within [.reg .BENCH_BIST_PTR_OFFSET, .reg .BENCH_BIST_STAT_FAIL, .reg
    .BENCH_BIST_STAT_FAIL_WORDS, .reg .BENCH_BIST_STAT_PASS, .reg .BENCH_BIST_STAT_PHASE, .reg .BENCH_BPWR_STAT_STATE, .reg
    .BENCH_STATUS_BIST_BUSY, .reg .BENCH_STATUS_SPARE_FREE, .reg .ERR_CODE_CODE, .reg .ERR_CODE_MASTER, .reg .ERR_CODE_OVF, .reg
    .ERR_CODE_WORD, .reg .ERR_CODE_WRITE, .ben] m) (a1 : Nat) (a2 : Nat) : Keeps m s0 (bistStart a1 a2 s) := by
  unfold bistStart
  try dsimp only
  repeat' first
    | with_reducible assumption
    | exact Within.trans (Eq.refl _) hw
    | with_reducible apply wr_keeps
    | with_reducible apply actionErr_keeps
    | with_reducible apply setBenchState_keeps
    | with_reducible apply setBistPhase_keeps
    | with_reducible apply Keeps.ite
    | split
    | (with_reducible apply Keeps.of_fields <;>
        first | with_reducible exact rfl | with_reducible exact Or.inl rfl | exact Or.inr (Within.trans (Eq.refl _) hw) | skip)

theorem startReplace_keeps (h : Keeps m s0 s) (hw : Within [.reg .BENCH_BIST_PTR_OFFSET, .reg .BENCH_BIST_STAT_PHASE, .reg
    .BENCH_STATUS_BIST_BUSY, .reg .BENCH_STATUS_REPLACING, .reg .BENCH_STATUS_SPARE_FREE, .ben] m) (a1 : Nat) : Keeps m s0 (startReplace a1
    s) := by
  unfold startReplace
  try dsimp only
  repeat' first
    | with_reducible assumption
    | exact Within.trans (Eq.refl _) hw
    | with_reducible apply wr_keeps
    | with_reducible apply setBistPhase_keeps
    | (with_reducible apply Keeps.of_fields <;>
        first | with_reducible exact rfl | with_reducible exact Or.inl rfl | exact Or.inr (Within.trans (Eq.refl _) hw) | skip)

theorem benchReplace_keeps (h : Keeps m s0 s) (hw : Within [.reg .BENCH_BIST_PTR_OFFSET, .reg .BENCH_BIST_STAT_PHASE, .reg
    .BENCH_BPWR_STAT_STATE, .reg .BENCH_STATUS_BIST_BUSY, .reg .BENCH_STATUS_REPLACING, .reg .BENCH_STATUS_SPARE_FREE, .reg .ERR_CODE_CODE,
    .reg .ERR_CODE_MASTER, .reg .ERR_CODE_OVF, .reg .ERR_CODE_WORD, .reg .ERR_CODE_WRITE, .ben] m) (a1 : Nat) (a2 : Nat) : Keeps m s0
    (benchReplace a1 a2 s) := by
  unfold benchReplace
  try dsimp only
  repeat' first
    | with_reducible assumption
    | exact Within.trans (Eq.refl _) hw
    | with_reducible apply actionErr_keeps
    | with_reducible apply setBenchState_keeps
    | with_reducible apply startReplace_keeps
    | with_reducible apply Keeps.ite
    | split
    | with_reducible apply KeepsOpt.getD
    | (with_reducible apply Keeps.of_fields <;>
        first | with_reducible exact rfl | with_reducible exact Or.inl rfl | exact Or.inr (Within.trans (Eq.refl _) hw) | skip)

theorem writeBistCtl_keeps (h : Keeps m s0 s) (hw : Within [.reg .BENCH_BIST_CTL_AUTO_REPLACE, .reg .BENCH_BIST_CTL_BENCH, .reg
    .BENCH_BIST_PTR_OFFSET, .reg .BENCH_BIST_STAT_FAIL, .reg .BENCH_BIST_STAT_FAIL_WORDS, .reg .BENCH_BIST_STAT_PASS, .reg
    .BENCH_BIST_STAT_PHASE, .reg .BENCH_BPWR_STAT_STATE, .reg .BENCH_STATUS_BIST_BUSY, .reg .BENCH_STATUS_REPLACING, .reg
    .BENCH_STATUS_SPARE_FREE, .reg .ERR_CODE_CODE, .reg .ERR_CODE_MASTER, .reg .ERR_CODE_OVF, .reg .ERR_CODE_WORD, .reg .ERR_CODE_WRITE,
    .ben] m) (a1 : Nat) (a2 : Nat) : Keeps m s0 (writeBistCtl a1 a2 s) := by
  unfold writeBistCtl
  try dsimp only
  repeat' first
    | with_reducible assumption
    | exact Within.trans (Eq.refl _) hw
    | with_reducible apply wr_keeps
    | with_reducible apply benchReplace_keeps
    | with_reducible apply bistStart_keeps
    | with_reducible apply endTest_keeps
    | with_reducible apply recordErr_keeps
    | with_reducible apply Keeps.ite
    | split

theorem bistCmd_keeps (h : Keeps m s0 s) (hw : Within [.reg .BENCH_BIST_CTL_AUTO_REPLACE, .reg .BENCH_BIST_CTL_BENCH, .reg
    .BENCH_BIST_PTR_OFFSET, .reg .BENCH_BIST_STAT_FAIL, .reg .BENCH_BIST_STAT_FAIL_WORDS, .reg .BENCH_BIST_STAT_PASS, .reg
    .BENCH_BIST_STAT_PHASE, .reg .BENCH_BPWR_STAT_STATE, .reg .BENCH_STATUS_BIST_BUSY, .reg .BENCH_STATUS_REPLACING, .reg
    .BENCH_STATUS_SPARE_FREE, .reg .ERR_CODE_CODE, .reg .ERR_CODE_MASTER, .reg .ERR_CODE_OVF, .reg .ERR_CODE_WORD, .reg .ERR_CODE_WRITE,
    .reg .POWER_STATUS_ENTERING, .reg .POWER_STATUS_EXITING, .reg .POWER_WAKE_STAT_CLASS, .reg .POWER_WAKE_STAT_FROM, .pwr, .ben] m) (a1 :
    Nat) (a2 : Nat) : Ends m s0 (bistCmd a1 a2 s) := by
  unfold bistCmd
  try dsimp only
  repeat' first
    | with_reducible assumption
    | exact Within.trans (Eq.refl _) hw
    | (intro _)
    | with_reducible apply act_keeps
    | with_reducible apply gateBy_keeps
    | with_reducible apply writeBistCtl_keeps
    | with_reducible apply Ends.ite
    | with_reducible apply Ends.next
    | split

theorem execBistStart_keeps (h : Keeps m s0 s) (hw : Within [.reg .BENCH_BIST_CTL_AUTO_REPLACE, .reg .BENCH_BIST_CTL_BENCH, .reg
    .BENCH_BIST_PTR_OFFSET, .reg .BENCH_BIST_STAT_FAIL, .reg .BENCH_BIST_STAT_FAIL_WORDS, .reg .BENCH_BIST_STAT_PASS, .reg
    .BENCH_BIST_STAT_PHASE, .reg .BENCH_BPWR_STAT_STATE, .reg .BENCH_STATUS_BIST_BUSY, .reg .BENCH_STATUS_REPLACING, .reg
    .BENCH_STATUS_SPARE_FREE, .reg .ERR_CODE_CODE, .reg .ERR_CODE_MASTER, .reg .ERR_CODE_OVF, .reg .ERR_CODE_WORD, .reg .ERR_CODE_WRITE,
    .reg .POWER_STATUS_ENTERING, .reg .POWER_STATUS_EXITING, .reg .POWER_WAKE_STAT_CLASS, .reg .POWER_WAKE_STAT_FROM, .pwr, .ben] m) (a1 :
    Master) (a2 : Fin 32) (a3 : Bool) : Ends m s0 (execBistStart a1 a2 a3 s) := by
  unfold execBistStart
  try dsimp only
  repeat' first
    | with_reducible assumption
    | exact Within.trans (Eq.refl _) hw
    | with_reducible apply bistCmd_keeps
    | with_reducible apply Keeps.ite
    | with_reducible apply Ends.ite
    | with_reducible apply Ends.next
    | split

theorem execBistAbort_keeps (h : Keeps m s0 s) (hw : Within [.reg .BENCH_BIST_CTL_AUTO_REPLACE, .reg .BENCH_BIST_CTL_BENCH, .reg
    .BENCH_BIST_PTR_OFFSET, .reg .BENCH_BIST_STAT_FAIL, .reg .BENCH_BIST_STAT_FAIL_WORDS, .reg .BENCH_BIST_STAT_PASS, .reg
    .BENCH_BIST_STAT_PHASE, .reg .BENCH_BPWR_STAT_STATE, .reg .BENCH_STATUS_BIST_BUSY, .reg .BENCH_STATUS_REPLACING, .reg
    .BENCH_STATUS_SPARE_FREE, .reg .ERR_CODE_CODE, .reg .ERR_CODE_MASTER, .reg .ERR_CODE_OVF, .reg .ERR_CODE_WORD, .reg .ERR_CODE_WRITE,
    .reg .POWER_STATUS_ENTERING, .reg .POWER_STATUS_EXITING, .reg .POWER_WAKE_STAT_CLASS, .reg .POWER_WAKE_STAT_FROM, .pwr, .ben] m) (a1 :
    Master) : Ends m s0 (execBistAbort a1 s) := by
  unfold execBistAbort
  try dsimp only
  repeat' first
    | with_reducible assumption
    | exact Within.trans (Eq.refl _) hw
    | with_reducible apply bistCmd_keeps
    | with_reducible apply Ends.ite
    | with_reducible apply Ends.next
    | split

theorem execBenchReplace_keeps (h : Keeps m s0 s) (hw : Within [.reg .BENCH_BIST_CTL_AUTO_REPLACE, .reg .BENCH_BIST_CTL_BENCH, .reg
    .BENCH_BIST_PTR_OFFSET, .reg .BENCH_BIST_STAT_FAIL, .reg .BENCH_BIST_STAT_FAIL_WORDS, .reg .BENCH_BIST_STAT_PASS, .reg
    .BENCH_BIST_STAT_PHASE, .reg .BENCH_BPWR_STAT_STATE, .reg .BENCH_STATUS_BIST_BUSY, .reg .BENCH_STATUS_REPLACING, .reg
    .BENCH_STATUS_SPARE_FREE, .reg .ERR_CODE_CODE, .reg .ERR_CODE_MASTER, .reg .ERR_CODE_OVF, .reg .ERR_CODE_WORD, .reg .ERR_CODE_WRITE,
    .reg .POWER_STATUS_ENTERING, .reg .POWER_STATUS_EXITING, .reg .POWER_WAKE_STAT_CLASS, .reg .POWER_WAKE_STAT_FROM, .pwr, .ben] m) (a1 :
    Master) (a2 : Fin 32) : Ends m s0 (execBenchReplace a1 a2 s) := by
  unfold execBenchReplace
  try dsimp only
  repeat' first
    | with_reducible assumption
    | exact Within.trans (Eq.refl _) hw
    | with_reducible apply bistCmd_keeps
    | with_reducible apply Ends.ite
    | with_reducible apply Ends.next
    | split

theorem execBistCopyDone_keeps (h : Keeps m s0 s) (hw : Within [.reg .BENCH_BENCH_HEALTH_HEALTH, .reg .BENCH_BIST_PTR_OFFSET, .reg
    .BENCH_BIST_STAT_PHASE, .reg .BENCH_ECC_CNT_CE, .reg .BENCH_ECC_CNT_UE, .reg .BENCH_STATUS_BIST_BUSY, .reg .BENCH_STATUS_SPARE_FREE,
    .reg .BENCH_UE_ADDR_IN_SPARE, .reg .BENCH_UE_ADDR_OFFSET, .reg .EVT_PEND_PEND, .reg .EVT_RAW_RAW, .reg .POWER_STATUS_ENTERING, .reg
    .POWER_STATUS_EXITING, .reg .POWER_WAKE_STAT_CLASS, .reg .POWER_WAKE_STAT_FROM, .presented, .holdoff, .poison, .pwr, .ben] m)  : Ends m
    s0 (execBistCopyDone s) := by
  unfold execBistCopyDone
  try dsimp only
  repeat' first
    | with_reducible assumption
    | exact Within.trans (Eq.refl _) hw
    | (intro _)
    | with_reducible apply wr_keeps
    | with_reducible apply on_keeps
    | with_reducible apply act_keeps
    | with_reducible apply benchSweep_keeps
    | with_reducible apply setBistPhase_keeps
    | with_reducible apply Ends.ite
    | with_reducible apply Ends.next
    | split

theorem testDone_keeps (h : Keeps m s0 s) (hw : Within [.reg .BENCH_BENCH_HEALTH_HEALTH, .reg .BENCH_BIST_FAIL_ADDR_OFFSET, .reg
    .BENCH_BIST_PTR_OFFSET, .reg .BENCH_BIST_STAT_FAIL, .reg .BENCH_BIST_STAT_FAIL_WORDS, .reg .BENCH_BIST_STAT_PHASE, .reg
    .BENCH_STATUS_BIST_BUSY, .reg .BENCH_STATUS_REPLACING, .reg .BENCH_STATUS_SPARE_FREE, .reg .EVT_PEND_PEND, .reg .EVT_RAW_RAW, .reg
    .POWER_STATUS_ENTERING, .reg .POWER_STATUS_EXITING, .reg .POWER_WAKE_STAT_CLASS, .reg .POWER_WAKE_STAT_FROM, .presented, .pwr, .ben] m)
    (a1 : List Nat) : Keeps m s0 (testDone a1 s) := by
  unfold testDone
  try dsimp only
  repeat' first
    | with_reducible assumption
    | exact Within.trans (Eq.refl _) hw
    | with_reducible apply wr_keeps
    | with_reducible apply benchFails_keeps
    | with_reducible apply raise_keeps
    | with_reducible apply setBistPhase_keeps
    | with_reducible apply startReplace_keeps
    | with_reducible apply Keeps.ite
    | split

theorem execBistTestDone_keeps (h : Keeps m s0 s) (hw : Within [.reg .BENCH_BENCH_HEALTH_HEALTH, .reg .BENCH_BIST_FAIL_ADDR_OFFSET, .reg
    .BENCH_BIST_PTR_OFFSET, .reg .BENCH_BIST_STAT_FAIL, .reg .BENCH_BIST_STAT_FAIL_WORDS, .reg .BENCH_BIST_STAT_PHASE, .reg
    .BENCH_STATUS_BIST_BUSY, .reg .BENCH_STATUS_REPLACING, .reg .BENCH_STATUS_SPARE_FREE, .reg .EVT_PEND_PEND, .reg .EVT_RAW_RAW, .reg
    .POWER_STATUS_ENTERING, .reg .POWER_STATUS_EXITING, .reg .POWER_WAKE_STAT_CLASS, .reg .POWER_WAKE_STAT_FROM, .presented, .pwr, .ben] m)
    (a1 : List (BitVec 22)) : Ends m s0 (execBistTestDone a1 s) := by
  unfold execBistTestDone
  try dsimp only
  repeat' first
    | with_reducible assumption
    | exact Within.trans (Eq.refl _) hw
    | (intro _)
    | with_reducible apply on_keeps
    | with_reducible apply act_keeps
    | with_reducible apply testDone_keeps
    | with_reducible apply Ends.ite
    | with_reducible apply Ends.next
    | split

theorem letRest_keeps (h : Keeps m s0 s) (hw : Within [.reg .BENCH_BPWR_STAT_STATE] m) (a1 : Nat) : Keeps m s0 (letRest a1 s) := by
  unfold letRest
  try dsimp only
  repeat' first
    | with_reducible assumption
    | exact Within.trans (Eq.refl _) hw
    | with_reducible apply setBenchState_keeps
    | with_reducible apply Keeps.ite
    | split

theorem restoreDone_keeps (h : Keeps m s0 s) (hw : Within [.reg .BENCH_BIST_PTR_OFFSET, .reg .BENCH_BIST_STAT_PASS, .reg
    .BENCH_BIST_STAT_PHASE, .reg .BENCH_BPWR_STAT_STATE, .reg .BENCH_STATUS_BIST_BUSY, .reg .BENCH_STATUS_REPLACING, .reg
    .BENCH_STATUS_SPARE_FREE, .reg .EVT_PEND_PEND, .reg .EVT_RAW_RAW, .presented, .ben] m)  : Keeps m s0 (restoreDone s) := by
  unfold restoreDone
  try dsimp only
  repeat' first
    | with_reducible assumption
    | exact Within.trans (Eq.refl _) hw
    | with_reducible apply wr_keeps
    | with_reducible apply letRest_keeps
    | with_reducible apply raise_keeps
    | with_reducible apply setBenchState_keeps
    | with_reducible apply setBistPhase_keeps
    | with_reducible apply startReplace_keeps
    | with_reducible apply Keeps.ite
    | split
    | (with_reducible apply Keeps.of_fields <;>
        first | with_reducible exact rfl | with_reducible exact Or.inl rfl | exact Or.inr (Within.trans (Eq.refl _) hw) | skip)

theorem execBistRestoreDone_keeps (h : Keeps m s0 s) (hw : Within [.reg .BENCH_BIST_PTR_OFFSET, .reg .BENCH_BIST_STAT_PASS, .reg
    .BENCH_BIST_STAT_PHASE, .reg .BENCH_BPWR_STAT_STATE, .reg .BENCH_STATUS_BIST_BUSY, .reg .BENCH_STATUS_REPLACING, .reg
    .BENCH_STATUS_SPARE_FREE, .reg .EVT_PEND_PEND, .reg .EVT_RAW_RAW, .presented, .ben] m)  : Ends m s0 (execBistRestoreDone s) := by
  unfold execBistRestoreDone
  try dsimp only
  repeat' first
    | with_reducible assumption
    | exact Within.trans (Eq.refl _) hw
    | (intro _)
    | with_reducible apply on_keeps
    | with_reducible apply act_keeps
    | with_reducible apply restoreDone_keeps
    | with_reducible apply Ends.ite
    | with_reducible apply Ends.next
    | split

theorem replaceDone_keeps (h : Keeps m s0 s) (hw : Within [.reg .BENCH_BENCH_HEALTH_HEALTH, .reg .BENCH_BIST_STAT_PHASE, .reg
    .BENCH_BPWR_STAT_STATE, .reg .BENCH_ECC_CNT_CE, .reg .BENCH_ECC_CNT_UE, .reg .BENCH_STATUS_BIST_BUSY, .reg .BENCH_STATUS_REPLACING, .reg
    .BENCH_STATUS_SPARE_COVER, .reg .BENCH_STATUS_SPARE_FREE, .reg .BENCH_UE_ADDR_IN_SPARE, .reg .BENCH_UE_ADDR_OFFSET, .reg .EVT_PEND_PEND,
    .reg .EVT_RAW_RAW, .reg .POWER_STATUS_ENTERING, .reg .POWER_STATUS_EXITING, .reg .POWER_WAKE_STAT_CLASS, .reg .POWER_WAKE_STAT_FROM,
    .presented, .holdoff, .poison, .pwr, .ben] m) (a1 : List Nat) : Keeps m s0 (replaceDone a1 s) := by
  unfold replaceDone
  try dsimp only
  repeat' first
    | with_reducible assumption
    | exact Within.trans (Eq.refl _) hw
    | (intro _)
    | with_reducible apply wr_keeps
    | with_reducible apply each_keeps
    | with_reducible apply State.setPoison_keeps
    | with_reducible apply benchSweep_keeps
    | with_reducible apply letRest_keeps
    | with_reducible apply raise_keeps
    | with_reducible apply setBistPhase_keeps

theorem execBenchReplaceDone_keeps (h : Keeps m s0 s) (hw : Within [.reg .BENCH_BENCH_HEALTH_HEALTH, .reg .BENCH_BIST_STAT_PHASE, .reg
    .BENCH_BPWR_STAT_STATE, .reg .BENCH_ECC_CNT_CE, .reg .BENCH_ECC_CNT_UE, .reg .BENCH_STATUS_BIST_BUSY, .reg .BENCH_STATUS_REPLACING, .reg
    .BENCH_STATUS_SPARE_COVER, .reg .BENCH_STATUS_SPARE_FREE, .reg .BENCH_UE_ADDR_IN_SPARE, .reg .BENCH_UE_ADDR_OFFSET, .reg .EVT_PEND_PEND,
    .reg .EVT_RAW_RAW, .reg .POWER_STATUS_ENTERING, .reg .POWER_STATUS_EXITING, .reg .POWER_WAKE_STAT_CLASS, .reg .POWER_WAKE_STAT_FROM,
    .presented, .holdoff, .poison, .pwr, .ben] m) (a1 : List (BitVec 18)) : Ends m s0 (execBenchReplaceDone a1 s) := by
  unfold execBenchReplaceDone
  try dsimp only
  repeat' first
    | with_reducible assumption
    | exact Within.trans (Eq.refl _) hw
    | (intro _)
    | with_reducible apply on_keeps
    | with_reducible apply act_keeps
    | with_reducible apply replaceDone_keeps
    | with_reducible apply Ends.ite
    | with_reducible apply Ends.next
    | split

theorem benchThermal_keeps (h : Keeps m s0 s) (hw : Within [.reg .BENCH_BPWR_STAT_STATE, .reg .BENCH_STATUS_THERMAL_DEEP, .reg
    .EVT_PEND_PEND, .reg .EVT_RAW_RAW, .presented] m) (a1 : Bool) : Keeps m s0 (benchThermal a1 s) := by
  unfold benchThermal
  try dsimp only
  repeat' first
    | with_reducible assumption
    | exact Within.trans (Eq.refl _) hw
    | (intro _)
    | with_reducible apply wr_keeps
    | with_reducible apply each_keeps
    | with_reducible apply raise_keeps
    | with_reducible apply setBenchState_keeps
    | with_reducible apply Keeps.ite
    | split

end Sys2Proof.Machine
end

