-- ==== Sys2Proof/Laws/AccessKeeps.lean ====
section
/-! SUPPORT. What the operations of Machine/Access.lean keep: the queue, the invariant, and every part outside their footprint. -/

set_option maxRecDepth 4000
set_option linter.unusedTactic false
set_option linter.unreachableTactic false

namespace Sys2Proof.Machine

variable {m : Nat} {s0 s : State}

theorem busDeny_keeps (h : Keeps m s0 s) (hw : Within [.reg .ERR_CODE_CODE, .reg .ERR_CODE_MASTER, .reg .ERR_CODE_OVF, .reg
    .ERR_CODE_WORD, .reg .ERR_CODE_WRITE, .reg .EVT_PEND_PEND, .reg .EVT_RAW_RAW, .reg .SYS_ERR_ADDR_HI_ADDR, .reg .SYS_ERR_ADDR_HI_MASTER,
    .reg .SYS_ERR_ADDR_HI_WRITE, .reg .SYS_ERR_ADDR_LO_ADDR, .presented] m) (a1 : Nat) (a2 : Nat) (a3 : Nat) (a4 : Bool) : Keeps m s0
    (busDeny a1 a2 a3 a4 s) := by
  unfold busDeny
  try dsimp only
  repeat' first
    | with_reducible assumption
    | exact Within.trans (Eq.refl _) hw
    | with_reducible apply denyMem_keeps
    | with_reducible apply recordErr_keeps
    | with_reducible apply Keeps.ite
    | split

theorem busLoad_keeps (h : Keeps m s0 s) (hw : Within [.reg .BENCH_BENCH_HEALTH_HEALTH, .reg .BENCH_BIST_STAT_PHASE, .reg
    .BENCH_BPWR_STAT_STATE, .reg .BENCH_ECC_CNT_CE, .reg .BENCH_ECC_CNT_UE, .reg .BENCH_STATUS_BIST_BUSY, .reg .BENCH_STATUS_SPARE_FREE,
    .reg .BENCH_UE_ADDR_IN_SPARE, .reg .BENCH_UE_ADDR_OFFSET, .reg .ERR_CODE_CODE, .reg .ERR_CODE_MASTER, .reg .ERR_CODE_OVF, .reg
    .ERR_CODE_WORD, .reg .ERR_CODE_WRITE, .reg .EVT_PEND_PEND, .reg .EVT_RAW_RAW, .reg .POWER_STATUS_ENTERING, .reg .POWER_STATUS_EXITING,
    .reg .POWER_WAKE_STAT_CLASS, .reg .POWER_WAKE_STAT_FROM, .reg .QUARRY_CAPACITY_N_ACTIVE, .reg .QUARRY_ECC_CNT_CE, .reg
    .QUARRY_ECC_CNT_UE, .reg .QUARRY_LRMAP_MAP, .reg .QUARRY_LRMAP_SPARE, .reg .QUARRY_RANK_STATE_STATE, .reg .QUARRY_STATUS_DEGRADED, .reg
    .QUARRY_STATUS_MIGRATING, .reg .QUARRY_UE_ADDR_HI_ADDR, .reg .QUARRY_UE_ADDR_HI_BANK, .reg .QUARRY_UE_ADDR_HI_RANK, .reg
    .QUARRY_UE_ADDR_LO_ADDR, .presented, .holdoff, .poison, .pwr, .qry, .ben, .free] m) (a1 : Nat) (a2 : Nat) (a3 : Nat) : Keeps m s0
    (busLoad a1 a2 a3 s).2.2 := by
  unfold busLoad
  try dsimp only
  repeat' first
    | with_reducible assumption
    | exact Within.trans (Eq.refl _) hw
    | with_reducible apply loadMem_keeps
    | with_reducible apply Keeps.ite
    | split
    | with_reducible refine Keeps.of_snd (by assumption) ?_

theorem busReadNow_keeps (h : Keeps m s0 s) (hw : Within [.reg .BENCH_BENCH_HEALTH_HEALTH, .reg .BENCH_BIST_STAT_PHASE, .reg
    .BENCH_BPWR_STAT_STATE, .reg .BENCH_ECC_CNT_CE, .reg .BENCH_ECC_CNT_UE, .reg .BENCH_STATUS_BIST_BUSY, .reg .BENCH_STATUS_SPARE_FREE,
    .reg .BENCH_UE_ADDR_IN_SPARE, .reg .BENCH_UE_ADDR_OFFSET, .reg .ERR_CODE_CODE, .reg .ERR_CODE_MASTER, .reg .ERR_CODE_OVF, .reg
    .ERR_CODE_WORD, .reg .ERR_CODE_WRITE, .reg .EVT_PEND_PEND, .reg .EVT_RAW_RAW, .reg .POWER_STATUS_ENTERING, .reg .POWER_STATUS_EXITING,
    .reg .POWER_WAKE_STAT_CLASS, .reg .POWER_WAKE_STAT_FROM, .reg .QUARRY_CAPACITY_N_ACTIVE, .reg .QUARRY_ECC_CNT_CE, .reg
    .QUARRY_ECC_CNT_UE, .reg .QUARRY_LRMAP_MAP, .reg .QUARRY_LRMAP_SPARE, .reg .QUARRY_RANK_STATE_STATE, .reg .QUARRY_STATUS_DEGRADED, .reg
    .QUARRY_STATUS_MIGRATING, .reg .QUARRY_UE_ADDR_HI_ADDR, .reg .QUARRY_UE_ADDR_HI_BANK, .reg .QUARRY_UE_ADDR_HI_RANK, .reg
    .QUARRY_UE_ADDR_LO_ADDR, .reg .SYS_ERR_ADDR_HI_ADDR, .reg .SYS_ERR_ADDR_HI_MASTER, .reg .SYS_ERR_ADDR_HI_WRITE, .reg
    .SYS_ERR_ADDR_LO_ADDR, .presented, .holdoff, .poison, .pwr, .qry, .ben, .free] m) (a1 : Nat) (a2 : Nat) (a3 : Nat) : Keeps m s0
    (busReadNow a1 a2 a3 s).2.2 := by
  unfold busReadNow
  try dsimp only
  repeat' first
    | with_reducible assumption
    | exact Within.trans (Eq.refl _) hw
    | with_reducible apply busDeny_keeps
    | with_reducible apply busLoad_keeps
    | with_reducible apply Keeps.ite
    | split
    | with_reducible refine Keeps.of_snd (by assumption) ?_

theorem busStore_keeps (h : Keeps m s0 s) (hw : Within [.reg .BENCH_ALIAS_LAST_PRIOR, .reg .BENCH_ALIAS_STAT_POISON, .reg
    .BENCH_ALIAS_STAT_VALID, .reg .BENCH_BENCH_HEALTH_HEALTH, .reg .BENCH_BIST_STAT_PHASE, .reg .BENCH_BPWR_STAT_STATE, .reg
    .BENCH_COLL_CNT_COUNT, .reg .BENCH_COLL_STAT_STREAMER, .reg .BENCH_ECC_CNT_CE, .reg .BENCH_ECC_CNT_UE, .reg .BENCH_STATUS_BIST_BUSY,
    .reg .BENCH_STATUS_SPARE_FREE, .reg .BENCH_UE_ADDR_IN_SPARE, .reg .BENCH_UE_ADDR_OFFSET, .reg .ERR_CODE_CODE, .reg .ERR_CODE_MASTER,
    .reg .ERR_CODE_OVF, .reg .ERR_CODE_WORD, .reg .ERR_CODE_WRITE, .reg .EVT_PEND_PEND, .reg .EVT_RAW_RAW, .reg .POWER_STATUS_ENTERING, .reg
    .POWER_STATUS_EXITING, .reg .POWER_WAKE_STAT_CLASS, .reg .POWER_WAKE_STAT_FROM, .reg .QUARRY_CAPACITY_N_ACTIVE, .reg .QUARRY_ECC_CNT_CE,
    .reg .QUARRY_ECC_CNT_UE, .reg .QUARRY_LRMAP_MAP, .reg .QUARRY_LRMAP_SPARE, .reg .QUARRY_RANK_STATE_STATE, .reg .QUARRY_STATUS_DEGRADED,
    .reg .QUARRY_STATUS_MIGRATING, .reg .QUARRY_UE_ADDR_HI_ADDR, .reg .QUARRY_UE_ADDR_HI_BANK, .reg .QUARRY_UE_ADDR_HI_RANK, .reg
    .QUARRY_UE_ADDR_LO_ADDR, .readData, .presented, .holdoff, .mem, .poison, .pwr, .qry, .ben, .missed, .free] m) (a1 : Nat) (a2 : Nat) (a3
    : List Byte) : Keeps m s0 (busStore a1 a2 a3 s).2 := by
  unfold busStore
  try dsimp only
  repeat' first
    | with_reducible assumption
    | exact Within.trans (Eq.refl _) hw
    | with_reducible apply eccRead_keeps
    | with_reducible apply serveAccess_keeps
    | with_reducible apply storeMem_keeps
    | with_reducible apply Keeps.ite
    | split

theorem busWriteNow_keeps (h : Keeps m s0 s) (hw : Within [.reg .BENCH_ALIAS_LAST_PRIOR, .reg .BENCH_ALIAS_STAT_POISON, .reg
    .BENCH_ALIAS_STAT_VALID, .reg .BENCH_BENCH_HEALTH_HEALTH, .reg .BENCH_BIST_STAT_PHASE, .reg .BENCH_BPWR_STAT_STATE, .reg
    .BENCH_COLL_CNT_COUNT, .reg .BENCH_COLL_STAT_STREAMER, .reg .BENCH_ECC_CNT_CE, .reg .BENCH_ECC_CNT_UE, .reg .BENCH_STATUS_BIST_BUSY,
    .reg .BENCH_STATUS_SPARE_FREE, .reg .BENCH_UE_ADDR_IN_SPARE, .reg .BENCH_UE_ADDR_OFFSET, .reg .ERR_CODE_CODE, .reg .ERR_CODE_MASTER,
    .reg .ERR_CODE_OVF, .reg .ERR_CODE_WORD, .reg .ERR_CODE_WRITE, .reg .EVT_PEND_PEND, .reg .EVT_RAW_RAW, .reg .POWER_STATUS_ENTERING, .reg
    .POWER_STATUS_EXITING, .reg .POWER_WAKE_STAT_CLASS, .reg .POWER_WAKE_STAT_FROM, .reg .QUARRY_CAPACITY_N_ACTIVE, .reg .QUARRY_ECC_CNT_CE,
    .reg .QUARRY_ECC_CNT_UE, .reg .QUARRY_LRMAP_MAP, .reg .QUARRY_LRMAP_SPARE, .reg .QUARRY_RANK_STATE_STATE, .reg .QUARRY_STATUS_DEGRADED,
    .reg .QUARRY_STATUS_MIGRATING, .reg .QUARRY_UE_ADDR_HI_ADDR, .reg .QUARRY_UE_ADDR_HI_BANK, .reg .QUARRY_UE_ADDR_HI_RANK, .reg
    .QUARRY_UE_ADDR_LO_ADDR, .reg .SYS_ERR_ADDR_HI_ADDR, .reg .SYS_ERR_ADDR_HI_MASTER, .reg .SYS_ERR_ADDR_HI_WRITE, .reg
    .SYS_ERR_ADDR_LO_ADDR, .readData, .presented, .holdoff, .mem, .poison, .pwr, .qry, .ben, .missed, .free] m) (a1 : Nat) (a2 : Nat) (a3 :
    List Byte) : Keeps m s0 (busWriteNow a1 a2 a3 s).2 := by
  unfold busWriteNow
  try dsimp only
  repeat' first
    | with_reducible assumption
    | exact Within.trans (Eq.refl _) hw
    | with_reducible apply busDeny_keeps
    | with_reducible apply busStore_keeps
    | with_reducible apply Keeps.ite
    | split
    | with_reducible refine Keeps.of_snd (by assumption) ?_

theorem busServe_keeps (h : Keeps m s0 s) (hw : Within [.reg .BENCH_ALIAS_LAST_PRIOR, .reg .BENCH_ALIAS_STAT_POISON, .reg
    .BENCH_ALIAS_STAT_VALID, .reg .BENCH_BENCH_HEALTH_HEALTH, .reg .BENCH_BIST_STAT_PHASE, .reg .BENCH_BPWR_STAT_STATE, .reg
    .BENCH_COLL_CNT_COUNT, .reg .BENCH_COLL_STAT_STREAMER, .reg .BENCH_ECC_CNT_CE, .reg .BENCH_ECC_CNT_UE, .reg .BENCH_STATUS_BIST_BUSY,
    .reg .BENCH_STATUS_SPARE_FREE, .reg .BENCH_UE_ADDR_IN_SPARE, .reg .BENCH_UE_ADDR_OFFSET, .reg .ERR_CODE_CODE, .reg .ERR_CODE_MASTER,
    .reg .ERR_CODE_OVF, .reg .ERR_CODE_WORD, .reg .ERR_CODE_WRITE, .reg .EVT_PEND_PEND, .reg .EVT_RAW_RAW, .reg .POWER_STATUS_ENTERING, .reg
    .POWER_STATUS_EXITING, .reg .POWER_WAKE_STAT_CLASS, .reg .POWER_WAKE_STAT_FROM, .reg .QUARRY_CAPACITY_N_ACTIVE, .reg .QUARRY_ECC_CNT_CE,
    .reg .QUARRY_ECC_CNT_UE, .reg .QUARRY_LRMAP_MAP, .reg .QUARRY_LRMAP_SPARE, .reg .QUARRY_RANK_STATE_STATE, .reg .QUARRY_STATUS_DEGRADED,
    .reg .QUARRY_STATUS_MIGRATING, .reg .QUARRY_UE_ADDR_HI_ADDR, .reg .QUARRY_UE_ADDR_HI_BANK, .reg .QUARRY_UE_ADDR_HI_RANK, .reg
    .QUARRY_UE_ADDR_LO_ADDR, .readData, .presented, .holdoff, .mem, .poison, .pwr, .qry, .ben, .missed, .free] m) (a1 : BusWait) : Keeps m
    s0 (busServe a1 s) := by
  unfold busServe
  try dsimp only
  repeat' first
    | with_reducible assumption
    | exact Within.trans (Eq.refl _) hw
    | with_reducible apply busLoad_keeps
    | with_reducible apply busStore_keeps
    | with_reducible apply drawPool_keeps
    | with_reducible apply recordErr_keeps
    | with_reducible apply Keeps.ite
    | split
    | with_reducible refine Keeps.of_snd (by assumption) ?_
    | (with_reducible apply Keeps.of_fields <;>
        first | with_reducible exact rfl | with_reducible exact Or.inl rfl | exact Or.inr (Within.trans (Eq.refl _) hw) | skip)

theorem busRefuse_keeps (h : Keeps m s0 s) (hw : Within [.reg .ERR_CODE_CODE, .reg .ERR_CODE_MASTER, .reg .ERR_CODE_OVF, .reg
    .ERR_CODE_WORD, .reg .ERR_CODE_WRITE, .reg .EVT_PEND_PEND, .reg .EVT_RAW_RAW, .reg .SYS_ERR_ADDR_HI_ADDR, .reg .SYS_ERR_ADDR_HI_MASTER,
    .reg .SYS_ERR_ADDR_HI_WRITE, .reg .SYS_ERR_ADDR_LO_ADDR, .readData, .presented] m) (a1 : BusWait) : Keeps m s0 (busRefuse a1 s) := by
  unfold busRefuse
  try dsimp only
  repeat' first
    | with_reducible assumption
    | exact Within.trans (Eq.refl _) hw
    | with_reducible apply busDeny_keeps
    | with_reducible apply Keeps.ite
    | split
    | (with_reducible apply Keeps.of_fields <;>
        first | with_reducible exact rfl | with_reducible exact Or.inl rfl | exact Or.inr (Within.trans (Eq.refl _) hw) | skip)

theorem serveWaiting_keeps (h : Keeps m s0 s) (hw : Within [.reg .BENCH_ALIAS_LAST_PRIOR, .reg .BENCH_ALIAS_STAT_POISON, .reg
    .BENCH_ALIAS_STAT_VALID, .reg .BENCH_BENCH_HEALTH_HEALTH, .reg .BENCH_BIST_STAT_PHASE, .reg .BENCH_BPWR_STAT_STATE, .reg
    .BENCH_COLL_CNT_COUNT, .reg .BENCH_COLL_STAT_STREAMER, .reg .BENCH_ECC_CNT_CE, .reg .BENCH_ECC_CNT_UE, .reg .BENCH_STATUS_BIST_BUSY,
    .reg .BENCH_STATUS_SPARE_FREE, .reg .BENCH_UE_ADDR_IN_SPARE, .reg .BENCH_UE_ADDR_OFFSET, .reg .ERR_CODE_CODE, .reg .ERR_CODE_MASTER,
    .reg .ERR_CODE_OVF, .reg .ERR_CODE_WORD, .reg .ERR_CODE_WRITE, .reg .EVT_PEND_PEND, .reg .EVT_RAW_RAW, .reg .POWER_STATUS_ENTERING, .reg
    .POWER_STATUS_EXITING, .reg .POWER_WAKE_STAT_CLASS, .reg .POWER_WAKE_STAT_FROM, .reg .QUARRY_CAPACITY_N_ACTIVE, .reg .QUARRY_ECC_CNT_CE,
    .reg .QUARRY_ECC_CNT_UE, .reg .QUARRY_LRMAP_MAP, .reg .QUARRY_LRMAP_SPARE, .reg .QUARRY_PORT_LAT_MAX_LAT, .reg .QUARRY_PORT_MISS_COUNT,
    .reg .QUARRY_PORT_STAT_OUTSTANDING, .reg .QUARRY_PORT_STAT_URG, .reg .QUARRY_RANK_STATE_STATE, .reg .QUARRY_STATUS_DEGRADED, .reg
    .QUARRY_STATUS_MIGRATING, .reg .QUARRY_UE_ADDR_HI_ADDR, .reg .QUARRY_UE_ADDR_HI_BANK, .reg .QUARRY_UE_ADDR_HI_RANK, .reg
    .QUARRY_UE_ADDR_LO_ADDR, .readData, .presented, .holdoff, .mem, .poison, .pwr, .qry, .ben, .missed, .free] m) (a1 : BusWait) : Keeps m
    s0 (serveWaiting a1 s) := by
  unfold serveWaiting
  try dsimp only
  repeat' first
    | with_reducible assumption
    | exact Within.trans (Eq.refl _) hw
    | with_reducible apply busServe_keeps
    | with_reducible apply countAge_keeps
    | with_reducible apply refreshPort_keeps
    | with_reducible apply Keeps.ite
    | split

theorem settleMaster_keeps (h : Keeps m s0 s) (hw : Within [.reg .BENCH_ALIAS_LAST_PRIOR, .reg .BENCH_ALIAS_STAT_POISON, .reg
    .BENCH_ALIAS_STAT_VALID, .reg .BENCH_BENCH_HEALTH_HEALTH, .reg .BENCH_BIST_STAT_PHASE, .reg .BENCH_BPWR_STAT_STATE, .reg
    .BENCH_COLL_CNT_COUNT, .reg .BENCH_COLL_STAT_STREAMER, .reg .BENCH_ECC_CNT_CE, .reg .BENCH_ECC_CNT_UE, .reg .BENCH_STATUS_BIST_BUSY,
    .reg .BENCH_STATUS_SPARE_FREE, .reg .BENCH_UE_ADDR_IN_SPARE, .reg .BENCH_UE_ADDR_OFFSET, .reg .ERR_CODE_CODE, .reg .ERR_CODE_MASTER,
    .reg .ERR_CODE_OVF, .reg .ERR_CODE_WORD, .reg .ERR_CODE_WRITE, .reg .EVT_PEND_PEND, .reg .EVT_RAW_RAW, .reg .POWER_STATUS_ENTERING, .reg
    .POWER_STATUS_EXITING, .reg .POWER_WAKE_STAT_CLASS, .reg .POWER_WAKE_STAT_FROM, .reg .QUARRY_CAPACITY_N_ACTIVE, .reg .QUARRY_ECC_CNT_CE,
    .reg .QUARRY_ECC_CNT_UE, .reg .QUARRY_LRMAP_MAP, .reg .QUARRY_LRMAP_SPARE, .reg .QUARRY_PORT_LAT_MAX_LAT, .reg .QUARRY_PORT_MISS_COUNT,
    .reg .QUARRY_PORT_STAT_OUTSTANDING, .reg .QUARRY_PORT_STAT_URG, .reg .QUARRY_RANK_STATE_STATE, .reg .QUARRY_STATUS_DEGRADED, .reg
    .QUARRY_STATUS_MIGRATING, .reg .QUARRY_UE_ADDR_HI_ADDR, .reg .QUARRY_UE_ADDR_HI_BANK, .reg .QUARRY_UE_ADDR_HI_RANK, .reg
    .QUARRY_UE_ADDR_LO_ADDR, .readData, .presented, .holdoff, .mem, .poison, .pwr, .qry, .ben, .missed, .free] m) (a1 : Nat) : Keeps m s0
    (settleMaster a1 s) := by
  unfold settleMaster
  try dsimp only
  repeat' first
    | with_reducible assumption
    | exact Within.trans (Eq.refl _) hw
    | (intro _)
    | with_reducible apply each_keeps
    | with_reducible apply serveWaiting_keeps
    | with_reducible apply settleHeld_keeps
    | (with_reducible apply Keeps.of_fields <;>
        first | with_reducible exact rfl | with_reducible exact Or.inl rfl | exact Or.inr (Within.trans (Eq.refl _) hw) | skip)

theorem releaseWaiting_keeps (h : Keeps m s0 s) (hw : Within [.reg .BENCH_ALIAS_LAST_PRIOR, .reg .BENCH_ALIAS_STAT_POISON, .reg
    .BENCH_ALIAS_STAT_VALID, .reg .BENCH_BENCH_HEALTH_HEALTH, .reg .BENCH_BIST_STAT_PHASE, .reg .BENCH_BPWR_STAT_STATE, .reg
    .BENCH_COLL_CNT_COUNT, .reg .BENCH_COLL_STAT_STREAMER, .reg .BENCH_ECC_CNT_CE, .reg .BENCH_ECC_CNT_UE, .reg .BENCH_STATUS_BIST_BUSY,
    .reg .BENCH_STATUS_SPARE_FREE, .reg .BENCH_UE_ADDR_IN_SPARE, .reg .BENCH_UE_ADDR_OFFSET, .reg .ERR_CODE_CODE, .reg .ERR_CODE_MASTER,
    .reg .ERR_CODE_OVF, .reg .ERR_CODE_WORD, .reg .ERR_CODE_WRITE, .reg .EVT_PEND_PEND, .reg .EVT_RAW_RAW, .reg .POWER_STATUS_ENTERING, .reg
    .POWER_STATUS_EXITING, .reg .POWER_WAKE_STAT_CLASS, .reg .POWER_WAKE_STAT_FROM, .reg .QUARRY_CAPACITY_N_ACTIVE, .reg .QUARRY_ECC_CNT_CE,
    .reg .QUARRY_ECC_CNT_UE, .reg .QUARRY_LRMAP_MAP, .reg .QUARRY_LRMAP_SPARE, .reg .QUARRY_PORT_LAT_MAX_LAT, .reg .QUARRY_PORT_MISS_COUNT,
    .reg .QUARRY_PORT_STAT_OUTSTANDING, .reg .QUARRY_PORT_STAT_URG, .reg .QUARRY_RANK_STATE_STATE, .reg .QUARRY_STATUS_DEGRADED, .reg
    .QUARRY_STATUS_MIGRATING, .reg .QUARRY_UE_ADDR_HI_ADDR, .reg .QUARRY_UE_ADDR_HI_BANK, .reg .QUARRY_UE_ADDR_HI_RANK, .reg
    .QUARRY_UE_ADDR_LO_ADDR, .readData, .presented, .holdoff, .mem, .poison, .pwr, .qry, .ben, .missed, .free] m)  : Keeps m s0
    (releaseWaiting s) := by
  unfold releaseWaiting
  try dsimp only
  repeat' first
    | with_reducible assumption
    | exact Within.trans (Eq.refl _) hw
    | (intro _)
    | with_reducible apply each_keeps
    | with_reducible apply benchArrive_keeps
    | with_reducible apply serveWaiting_keeps
    | (with_reducible apply Keeps.of_fields <;>
        first | with_reducible exact rfl | with_reducible exact Or.inl rfl | exact Or.inr (Within.trans (Eq.refl _) hw) | skip)

theorem busRead_keeps (h : Keeps m s0 s) (hw : Within [.reg .BENCH_ALIAS_LAST_PRIOR, .reg .BENCH_ALIAS_STAT_POISON, .reg
    .BENCH_ALIAS_STAT_VALID, .reg .BENCH_BENCH_HEALTH_HEALTH, .reg .BENCH_BIST_STAT_PHASE, .reg .BENCH_BPWR_STAT_STATE, .reg
    .BENCH_COLL_CNT_COUNT, .reg .BENCH_COLL_STAT_STREAMER, .reg .BENCH_ECC_CNT_CE, .reg .BENCH_ECC_CNT_UE, .reg .BENCH_STATUS_BIST_BUSY,
    .reg .BENCH_STATUS_SPARE_FREE, .reg .BENCH_UE_ADDR_IN_SPARE, .reg .BENCH_UE_ADDR_OFFSET, .reg .ERR_CODE_CODE, .reg .ERR_CODE_MASTER,
    .reg .ERR_CODE_OVF, .reg .ERR_CODE_WORD, .reg .ERR_CODE_WRITE, .reg .EVT_PEND_PEND, .reg .EVT_RAW_RAW, .reg .POWER_STATUS_ENTERING, .reg
    .POWER_STATUS_EXITING, .reg .POWER_WAKE_STAT_CLASS, .reg .POWER_WAKE_STAT_FROM, .reg .QUARRY_CAPACITY_N_ACTIVE, .reg .QUARRY_ECC_CNT_CE,
    .reg .QUARRY_ECC_CNT_UE, .reg .QUARRY_LRMAP_MAP, .reg .QUARRY_LRMAP_SPARE, .reg .QUARRY_PORT_LAT_MAX_LAT, .reg .QUARRY_PORT_MISS_COUNT,
    .reg .QUARRY_PORT_STAT_OUTSTANDING, .reg .QUARRY_PORT_STAT_URG, .reg .QUARRY_RANK_STATE_STATE, .reg .QUARRY_STATUS_DEGRADED, .reg
    .QUARRY_STATUS_MIGRATING, .reg .QUARRY_UE_ADDR_HI_ADDR, .reg .QUARRY_UE_ADDR_HI_BANK, .reg .QUARRY_UE_ADDR_HI_RANK, .reg
    .QUARRY_UE_ADDR_LO_ADDR, .reg .SYS_ERR_ADDR_HI_ADDR, .reg .SYS_ERR_ADDR_HI_MASTER, .reg .SYS_ERR_ADDR_HI_WRITE, .reg
    .SYS_ERR_ADDR_LO_ADDR, .readData, .presented, .holdoff, .mem, .poison, .pwr, .qry, .ben, .missed, .free] m) (a1 : Nat) (a2 : Nat) (a3 :
    Nat) : Keeps m s0 (busRead a1 a2 a3 s).2.2 := by
  unfold busRead
  try dsimp only
  repeat' first
    | with_reducible assumption
    | exact Within.trans (Eq.refl _) hw
    | with_reducible apply busReadNow_keeps
    | with_reducible apply settleMaster_keeps
    | split
    | with_reducible refine Keeps.of_snd (by assumption) ?_

theorem busWrite_keeps (h : Keeps m s0 s) (hw : Within [.reg .BENCH_ALIAS_LAST_PRIOR, .reg .BENCH_ALIAS_STAT_POISON, .reg
    .BENCH_ALIAS_STAT_VALID, .reg .BENCH_BENCH_HEALTH_HEALTH, .reg .BENCH_BIST_STAT_PHASE, .reg .BENCH_BPWR_STAT_STATE, .reg
    .BENCH_COLL_CNT_COUNT, .reg .BENCH_COLL_STAT_STREAMER, .reg .BENCH_ECC_CNT_CE, .reg .BENCH_ECC_CNT_UE, .reg .BENCH_STATUS_BIST_BUSY,
    .reg .BENCH_STATUS_SPARE_FREE, .reg .BENCH_UE_ADDR_IN_SPARE, .reg .BENCH_UE_ADDR_OFFSET, .reg .ERR_CODE_CODE, .reg .ERR_CODE_MASTER,
    .reg .ERR_CODE_OVF, .reg .ERR_CODE_WORD, .reg .ERR_CODE_WRITE, .reg .EVT_PEND_PEND, .reg .EVT_RAW_RAW, .reg .POWER_STATUS_ENTERING, .reg
    .POWER_STATUS_EXITING, .reg .POWER_WAKE_STAT_CLASS, .reg .POWER_WAKE_STAT_FROM, .reg .QUARRY_CAPACITY_N_ACTIVE, .reg .QUARRY_ECC_CNT_CE,
    .reg .QUARRY_ECC_CNT_UE, .reg .QUARRY_LRMAP_MAP, .reg .QUARRY_LRMAP_SPARE, .reg .QUARRY_PORT_LAT_MAX_LAT, .reg .QUARRY_PORT_MISS_COUNT,
    .reg .QUARRY_PORT_STAT_OUTSTANDING, .reg .QUARRY_PORT_STAT_URG, .reg .QUARRY_RANK_STATE_STATE, .reg .QUARRY_STATUS_DEGRADED, .reg
    .QUARRY_STATUS_MIGRATING, .reg .QUARRY_UE_ADDR_HI_ADDR, .reg .QUARRY_UE_ADDR_HI_BANK, .reg .QUARRY_UE_ADDR_HI_RANK, .reg
    .QUARRY_UE_ADDR_LO_ADDR, .reg .SYS_ERR_ADDR_HI_ADDR, .reg .SYS_ERR_ADDR_HI_MASTER, .reg .SYS_ERR_ADDR_HI_WRITE, .reg
    .SYS_ERR_ADDR_LO_ADDR, .readData, .presented, .holdoff, .mem, .poison, .pwr, .qry, .ben, .missed, .free] m) (a1 : Nat) (a2 : Nat) (a3 :
    List Byte) : Keeps m s0 (busWrite a1 a2 a3 s).2 := by
  unfold busWrite
  try dsimp only
  repeat' first
    | with_reducible assumption
    | exact Within.trans (Eq.refl _) hw
    | with_reducible apply busWriteNow_keeps
    | with_reducible apply settleMaster_keeps
    | split
    | with_reducible refine Keeps.of_snd (by assumption) ?_

theorem busOrWait_keeps (h : Keeps m s0 s) (hw : Within [.reg .BENCH_ALIAS_LAST_PRIOR, .reg .BENCH_ALIAS_STAT_POISON, .reg
    .BENCH_ALIAS_STAT_VALID, .reg .BENCH_BENCH_HEALTH_HEALTH, .reg .BENCH_BIST_STAT_PHASE, .reg .BENCH_BPWR_STAT_STATE, .reg
    .BENCH_COLL_CNT_COUNT, .reg .BENCH_COLL_STAT_STREAMER, .reg .BENCH_ECC_CNT_CE, .reg .BENCH_ECC_CNT_UE, .reg .BENCH_STATUS_BIST_BUSY,
    .reg .BENCH_STATUS_SPARE_FREE, .reg .BENCH_UE_ADDR_IN_SPARE, .reg .BENCH_UE_ADDR_OFFSET, .reg .ERR_CODE_CODE, .reg .ERR_CODE_MASTER,
    .reg .ERR_CODE_OVF, .reg .ERR_CODE_WORD, .reg .ERR_CODE_WRITE, .reg .EVT_PEND_PEND, .reg .EVT_RAW_RAW, .reg .POWER_STATUS_ENTERING, .reg
    .POWER_STATUS_EXITING, .reg .POWER_WAKE_STAT_CLASS, .reg .POWER_WAKE_STAT_FROM, .reg .QUARRY_CAPACITY_N_ACTIVE, .reg .QUARRY_ECC_CNT_CE,
    .reg .QUARRY_ECC_CNT_UE, .reg .QUARRY_LRMAP_MAP, .reg .QUARRY_LRMAP_SPARE, .reg .QUARRY_PORT_STAT_OUTSTANDING, .reg
    .QUARRY_PORT_STAT_URG, .reg .QUARRY_RANK_STATE_STATE, .reg .QUARRY_STATUS_DEGRADED, .reg .QUARRY_STATUS_MIGRATING, .reg
    .QUARRY_UE_ADDR_HI_ADDR, .reg .QUARRY_UE_ADDR_HI_BANK, .reg .QUARRY_UE_ADDR_HI_RANK, .reg .QUARRY_UE_ADDR_LO_ADDR, .reg
    .SYS_ERR_ADDR_HI_ADDR, .reg .SYS_ERR_ADDR_HI_MASTER, .reg .SYS_ERR_ADDR_HI_WRITE, .reg .SYS_ERR_ADDR_LO_ADDR, .readData, .presented,
    .holdoff, .mem, .poison, .pwr, .qry, .ben, .missed, .free] m) (a1 : BusWait) : Keeps m s0 (busOrWait a1 s) := by
  unfold busOrWait
  try dsimp only
  repeat' first
    | with_reducible assumption
    | exact Within.trans (Eq.refl _) hw
    | with_reducible apply busRefuse_keeps
    | with_reducible apply busServe_keeps
    | with_reducible apply refreshPort_keeps
    | with_reducible apply settleHeld_keeps
    | with_reducible apply Keeps.ite
    | split
    | (with_reducible apply Keeps.of_fields <;>
        first | with_reducible exact rfl | with_reducible exact Or.inl rfl | exact Or.inr (Within.trans (Eq.refl _) hw) | skip)

end Sys2Proof.Machine
end

