-- ==== Sys2Proof/Laws/CalibrationKeeps.lean ====
section
/-! SUPPORT. What the operations of Machine/Calibration.lean keep: the queue, the invariant, and every part outside their footprint. -/

set_option maxRecDepth 4000
set_option linter.unusedTactic false
set_option linter.unreachableTactic false

namespace Sys2Proof.Machine

variable {m : Nat} {s0 s : State}

theorem writeField16_keeps (h : Keeps m s0 s) (a1 : Reg) (hr : Within [.reg a1] m) (hw : Within [.free] m) (a2 : Rat) (a3 a4 : Nat) :
    Keeps m s0 (writeField16 a1 a2 a3 a4 s) := wr_keeps (Keeps.upd_free h hw _) hr ..

end Sys2Proof.Machine
end

