-- ==== Sys2Proof/Laws/PatKeeps.lean ====
section
/-! SUPPORT. What the operations of Machine/Pat.lean keep: the queue, the invariant, and every part outside their footprint. -/

set_option maxRecDepth 4000
set_option linter.unusedTactic false
set_option linter.unreachableTactic false

namespace Sys2Proof.Machine

variable {m : Nat} {s0 s : State}

theorem startPulse_keeps (h : Keeps m s0 s) (hw : Within [.pins] m) (a1 : Nat) : Keeps m s0 (startPulse a1 s) := by
  unfold startPulse
  try dsimp only
  repeat' first
    | with_reducible assumption
    | exact Within.trans (Eq.refl _) hw
    | with_reducible apply State.setPin_keeps

theorem pinEvent_keeps (h : Keeps m s0 s) (hw : Within [.pins] m) (a1 : Nat) : Keeps m s0 (pinEvent a1 s) := by
  unfold pinEvent
  try dsimp only
  repeat' first
    | with_reducible assumption
    | exact Within.trans (Eq.refl _) hw
    | with_reducible apply State.setPin_keeps
    | with_reducible apply startPulse_keeps
    | with_reducible apply Keeps.ite
    | split

theorem strobePins_keeps (h : Keeps m s0 s) (hw : Within [.pins] m) (a1 : Nat) : Keeps m s0 (strobePins a1 s) := by
  unfold strobePins
  try dsimp only
  repeat' first
    | with_reducible assumption
    | exact Within.trans (Eq.refl _) hw
    | (intro _)
    | with_reducible apply each_keeps
    | with_reducible apply on_keeps
    | with_reducible apply startPulse_keeps

theorem settlePin_keeps (h : Keeps m s0 s) (hw : Within [.pins] m) (a1 : Nat) : Keeps m s0 (settlePin a1 s) := by
  unfold settlePin
  try dsimp only
  repeat' first
    | with_reducible assumption
    | exact Within.trans (Eq.refl _) hw
    | with_reducible apply State.setPin_keeps

theorem setPinFields_keeps (h : Keeps m s0 s) (hw : Within [.reg .PAT_PIN_CFG_CH, .reg .PAT_PIN_CFG_DRIVE, .reg .PAT_PIN_CFG_EDGE, .reg
    .PAT_PIN_CFG_FILT, .reg .PAT_PIN_CFG_FUNC, .reg .PAT_PIN_CFG_GSTB, .reg .PAT_PIN_CFG_INVERT, .reg .PAT_PIN_CFG_ODRAIN, .reg
    .PAT_PIN_CFG_OMODE] m) (a1 : Nat) (a2 : Nat) : Keeps m s0 (setPinFields a1 a2 s) := by
  unfold setPinFields
  try dsimp only
  repeat' first
    | with_reducible assumption
    | exact Within.trans (Eq.refl _) hw
    | with_reducible apply wr_keeps

theorem takePin_keeps (h : Keeps m s0 s) (hw : Within [.reg .PAT_PIN_CFG_CH, .reg .PAT_PIN_CFG_CLAIMED, .reg .PAT_PIN_CFG_DRIVE, .reg
    .PAT_PIN_CFG_EDGE, .reg .PAT_PIN_CFG_FILT, .reg .PAT_PIN_CFG_FUNC, .reg .PAT_PIN_CFG_GSTB, .reg .PAT_PIN_CFG_INVERT, .reg
    .PAT_PIN_CFG_ODRAIN, .reg .PAT_PIN_CFG_OMODE, .reg .PAT_PIN_CFG_OWNER, .pins] m) (a1 : Nat) (a2 : Nat) (a3 : Nat) : Keeps m s0 (takePin
    a1 a2 a3 s) := by
  unfold takePin
  try dsimp only
  repeat' first
    | with_reducible assumption
    | exact Within.trans (Eq.refl _) hw
    | with_reducible apply wr_keeps
    | with_reducible apply setPinFields_keeps
    | with_reducible apply settlePin_keeps

theorem freePin_keeps (h : Keeps m s0 s) (hw : Within [.reg .PAT_PIN_CFG_CH, .reg .PAT_PIN_CFG_CLAIMED, .reg .PAT_PIN_CFG_DRIVE, .reg
    .PAT_PIN_CFG_EDGE, .reg .PAT_PIN_CFG_FILT, .reg .PAT_PIN_CFG_FUNC, .reg .PAT_PIN_CFG_GSTB, .reg .PAT_PIN_CFG_INVERT, .reg
    .PAT_PIN_CFG_ODRAIN, .reg .PAT_PIN_CFG_OMODE, .reg .PAT_PIN_CFG_OWNER, .reg .PAT_PIN_PULSE_PULSE, .pins] m) (a1 : Nat) : Keeps m s0
    (freePin a1 s) := by
  unfold freePin
  try dsimp only
  repeat' first
    | with_reducible assumption
    | exact Within.trans (Eq.refl _) hw
    | with_reducible apply wr_keeps
    | with_reducible apply setPinFields_keeps
    | with_reducible apply settlePin_keeps

theorem writePinCfg_keeps (h : Keeps m s0 s) (hw : Within [.reg .ERR_CODE_CODE, .reg .ERR_CODE_MASTER, .reg .ERR_CODE_OVF, .reg
    .ERR_CODE_WORD, .reg .ERR_CODE_WRITE, .reg .PAT_PIN_CFG_CH, .reg .PAT_PIN_CFG_CLAIMED, .reg .PAT_PIN_CFG_DRIVE, .reg .PAT_PIN_CFG_EDGE,
    .reg .PAT_PIN_CFG_FILT, .reg .PAT_PIN_CFG_FUNC, .reg .PAT_PIN_CFG_GSTB, .reg .PAT_PIN_CFG_INVERT, .reg .PAT_PIN_CFG_ODRAIN, .reg
    .PAT_PIN_CFG_OMODE, .reg .PAT_PIN_CFG_OWNER, .reg .PAT_PIN_PULSE_PULSE, .pins] m) (a1 : Nat) (a2 : Nat) (a3 : Nat) : Keeps m s0
    (writePinCfg a1 a2 a3 s) := by
  unfold writePinCfg
  try dsimp only
  repeat' first
    | with_reducible assumption
    | exact Within.trans (Eq.refl _) hw
    | with_reducible apply State.setPin_keeps
    | with_reducible apply actionErr_keeps
    | with_reducible apply freePin_keeps
    | with_reducible apply recordErr_keeps
    | with_reducible apply setPinFields_keeps
    | with_reducible apply settlePin_keeps
    | with_reducible apply takePin_keeps
    | with_reducible apply Keeps.ite
    | split

theorem writePinPulse_keeps (h : Keeps m s0 s) (hw : Within [.reg .ERR_CODE_CODE, .reg .ERR_CODE_MASTER, .reg .ERR_CODE_OVF, .reg
    .ERR_CODE_WORD, .reg .ERR_CODE_WRITE, .reg .PAT_PIN_PULSE_PULSE] m) (a1 : Nat) (a2 : Nat) (a3 : Nat) : Keeps m s0 (writePinPulse a1 a2
    a3 s) := by
  unfold writePinPulse
  try dsimp only
  repeat' first
    | with_reducible assumption
    | exact Within.trans (Eq.refl _) hw
    | with_reducible apply wr_keeps
    | with_reducible apply recordErr_keeps
    | with_reducible apply Keeps.ite
    | split

theorem execPinClaim_keeps (h : Keeps m s0 s) (hw : Within [.reg .ERR_CODE_CODE, .reg .ERR_CODE_MASTER, .reg .ERR_CODE_OVF, .reg
    .ERR_CODE_WORD, .reg .ERR_CODE_WRITE, .reg .PAT_PIN_CFG_CH, .reg .PAT_PIN_CFG_CLAIMED, .reg .PAT_PIN_CFG_DRIVE, .reg .PAT_PIN_CFG_EDGE,
    .reg .PAT_PIN_CFG_FILT, .reg .PAT_PIN_CFG_FUNC, .reg .PAT_PIN_CFG_GSTB, .reg .PAT_PIN_CFG_INVERT, .reg .PAT_PIN_CFG_ODRAIN, .reg
    .PAT_PIN_CFG_OMODE, .reg .PAT_PIN_CFG_OWNER, .reg .PAT_PIN_PULSE_PULSE, .reg .POWER_STATUS_ENTERING, .reg .POWER_STATUS_EXITING, .reg
    .POWER_WAKE_STAT_CLASS, .reg .POWER_WAKE_STAT_FROM, .pins, .pwr] m) (a1 : Master) (a2 : Fin 32) (a3 : Word) : Ends m s0 (execPinClaim a1
    a2 a3 s) := by
  unfold execPinClaim
  try dsimp only
  repeat' first
    | with_reducible assumption
    | exact Within.trans (Eq.refl _) hw
    | (intro _)
    | with_reducible apply cmd_keeps
    | with_reducible apply writePinCfg_keeps
    | with_reducible apply Ends.ite
    | with_reducible apply Ends.next
    | split

theorem execPinRelease_keeps (h : Keeps m s0 s) (hw : Within [.reg .ERR_CODE_CODE, .reg .ERR_CODE_MASTER, .reg .ERR_CODE_OVF, .reg
    .ERR_CODE_WORD, .reg .ERR_CODE_WRITE, .reg .PAT_PIN_CFG_CH, .reg .PAT_PIN_CFG_CLAIMED, .reg .PAT_PIN_CFG_DRIVE, .reg .PAT_PIN_CFG_EDGE,
    .reg .PAT_PIN_CFG_FILT, .reg .PAT_PIN_CFG_FUNC, .reg .PAT_PIN_CFG_GSTB, .reg .PAT_PIN_CFG_INVERT, .reg .PAT_PIN_CFG_ODRAIN, .reg
    .PAT_PIN_CFG_OMODE, .reg .PAT_PIN_CFG_OWNER, .reg .PAT_PIN_PULSE_PULSE, .reg .POWER_STATUS_ENTERING, .reg .POWER_STATUS_EXITING, .reg
    .POWER_WAKE_STAT_CLASS, .reg .POWER_WAKE_STAT_FROM, .pins, .pwr] m) (a1 : Master) (a2 : Fin 32) : Ends m s0 (execPinRelease a1 a2 s) :=
    by
  unfold execPinRelease
  try dsimp only
  repeat' first
    | with_reducible assumption
    | exact Within.trans (Eq.refl _) hw
    | (intro _)
    | with_reducible apply cmd_keeps
    | with_reducible apply writePinCfg_keeps
    | with_reducible apply Ends.ite
    | with_reducible apply Ends.next
    | split

theorem execPinModeWrite_keeps (h : Keeps m s0 s) (hw : Within [.reg .ERR_CODE_CODE, .reg .ERR_CODE_MASTER, .reg .ERR_CODE_OVF, .reg
    .ERR_CODE_WORD, .reg .ERR_CODE_WRITE, .reg .PAT_PIN_CFG_CH, .reg .PAT_PIN_CFG_CLAIMED, .reg .PAT_PIN_CFG_DRIVE, .reg .PAT_PIN_CFG_EDGE,
    .reg .PAT_PIN_CFG_FILT, .reg .PAT_PIN_CFG_FUNC, .reg .PAT_PIN_CFG_GSTB, .reg .PAT_PIN_CFG_INVERT, .reg .PAT_PIN_CFG_ODRAIN, .reg
    .PAT_PIN_CFG_OMODE, .reg .PAT_PIN_CFG_OWNER, .reg .PAT_PIN_PULSE_PULSE, .reg .POWER_STATUS_ENTERING, .reg .POWER_STATUS_EXITING, .reg
    .POWER_WAKE_STAT_CLASS, .reg .POWER_WAKE_STAT_FROM, .pins, .pwr] m) (a1 : Master) (a2 : Fin 32) (a3 : Bool) (a4 : Bool) : Ends m s0
    (execPinModeWrite a1 a2 a3 a4 s) := by
  unfold execPinModeWrite
  try dsimp only
  repeat' first
    | with_reducible assumption
    | exact Within.trans (Eq.refl _) hw
    | (intro _)
    | with_reducible apply cmd_keeps
    | with_reducible apply writePinCfg_keeps
    | with_reducible apply Keeps.ite
    | with_reducible apply Ends.ite
    | with_reducible apply Ends.next
    | split

theorem pinEdge_keeps (h : Keeps m s0 s) (hw : Within [.presented, .pins] m) (a1 : Nat) (a2 : Bool) (a3 : Nat) (a4 : Nat × Bool) : Keeps
    m s0 (pinEdge a1 a2 a3 a4 s) := by
  unfold pinEdge
  try dsimp only
  repeat' first
    | with_reducible assumption
    | exact Within.trans (Eq.refl _) hw
    | with_reducible apply State.setPin_keeps
    | with_reducible apply present_keeps
    | with_reducible apply Keeps.ite
    | split

theorem passFilter_keeps (h : Keeps m s0 s) (hw : Within [.presented, .pins] m) (a1 : Nat) : Keeps m s0 (passFilter a1 s) := by
  unfold passFilter
  try dsimp only
  repeat' first
    | with_reducible assumption
    | exact Within.trans (Eq.refl _) hw
    | with_reducible apply State.setPin_keeps
    | with_reducible apply pinEdge_keeps
    | with_reducible apply Keeps.ite
    | split

theorem passFilters_keeps (h : Keeps m s0 s) (hw : Within [.presented, .pins] m)  : Keeps m s0 (passFilters s) := by
  unfold passFilters
  try dsimp only
  repeat' first
    | with_reducible assumption
    | exact Within.trans (Eq.refl _) hw
    | (intro _)
    | with_reducible apply each_keeps
    | with_reducible apply passFilter_keeps

theorem patEdge_keeps (h : Keeps m s0 s) (hw : Within [.presented, .pins] m) (a1 : Nat) (a2 : Bool) (a3 : Bool) (a4 : Nat) : Keeps m s0
    (patEdge a1 a2 a3 a4 s) := by
  unfold patEdge
  try dsimp only
  repeat' first
    | with_reducible assumption
    | exact Within.trans (Eq.refl _) hw
    | with_reducible apply State.setPin_keeps
    | with_reducible apply passFilter_keeps
    | with_reducible apply pinEdge_keeps
    | with_reducible apply Keeps.ite
    | split

theorem execPatInputEdge_keeps (h : Keeps m s0 s) (hw : Within [.presented, .pins] m) (a1 : Fin 32) (a2 : Bool) (a3 : Bool) (a4 : Fin
    256) : Ends m s0 (execPatInputEdge a1 a2 a3 a4 s) := by
  unfold execPatInputEdge
  try dsimp only
  repeat' first
    | with_reducible assumption
    | exact Within.trans (Eq.refl _) hw
    | (intro _)
    | with_reducible apply act_keeps
    | with_reducible apply patEdge_keeps
    | with_reducible apply Ends.ite
    | with_reducible apply Ends.next
    | split

theorem execPatPulseEnd_keeps (h : Keeps m s0 s) (hw : Within [.pins] m) (a1 : Fin 32) : Ends m s0 (execPatPulseEnd a1 s) := by
  unfold execPatPulseEnd
  try dsimp only
  repeat' first
    | with_reducible assumption
    | exact Within.trans (Eq.refl _) hw
    | (intro _)
    | with_reducible apply on_keeps
    | with_reducible apply act_keeps
    | with_reducible apply State.setPin_keeps
    | with_reducible apply Ends.ite
    | with_reducible apply Ends.next
    | split

theorem patternBit_keeps (h : Keeps m s0 s) (hw : Within [.reg .EVT_PEND_PEND, .reg .EVT_RAW_RAW, .reg .PAT_PAT_DROP_COUNT, .presented,
    .outs, .pins] m) (a1 : Nat) (a2 : Nat) (a3 : Nat) (a4 : Bool) : Keeps m s0 (patternBit a1 a2 a3 a4 s) := by
  unfold patternBit
  try dsimp only
  repeat' first
    | with_reducible assumption
    | exact Within.trans (Eq.refl _) hw
    | with_reducible apply inc_keeps
    | with_reducible apply State.setOut_keeps
    | with_reducible apply State.setPin_keeps
    | with_reducible apply raise_keeps
    | with_reducible apply Keeps.ite
    | split
    | (unfold id; with_reducible assumption)

theorem patternBits_keeps (h : Keeps m s0 s) (hw : Within [.reg .EVT_PEND_PEND, .reg .EVT_RAW_RAW, .reg .PAT_PAT_DROP_COUNT, .presented,
    .outs, .pins] m) (a1 : Nat) (a2 : Nat) (a3 : List (Nat × Bool)) : Keeps m s0 (patternBits a1 a2 a3 s) := by
  unfold patternBits
  try dsimp only
  repeat' first
    | with_reducible assumption
    | exact Within.trans (Eq.refl _) hw
    | (intro _)
    | with_reducible apply each_keeps
    | with_reducible apply patternBit_keeps
    | (unfold id; with_reducible assumption)

theorem setMarkers_keeps (h : Keeps m s0 s) (hw : Within [.presented, .outs] m) (a1 : Nat) (a2 : Bool) (a3 : Bool) : Keeps m s0
    (setMarkers a1 a2 a3 s) := by
  unfold setMarkers
  try dsimp only
  repeat' first
    | with_reducible assumption
    | exact Within.trans (Eq.refl _) hw
    | with_reducible apply State.setOut_keeps
    | with_reducible apply present_keeps
    | with_reducible apply Keeps.ite
    | split

end Sys2Proof.Machine
end

