-- ==== Sys2Proof/Laws/VisitsKeeps.lean ====
section
/-! SUPPORT. What the operations of Machine/Visits.lean keep: the queue, the invariant, and every part outside their footprint. -/

set_option maxRecDepth 4000
set_option linter.unusedTactic false
set_option linter.unreachableTactic false

namespace Sys2Proof.Machine

variable {m : Nat} {s0 s : State}

theorem setOwnCore_keeps (h : Keeps m s0 s) (hw : Within [.reg .SPARE_CORE_MAP] m) (a1 : Nat) (a2 : Nat) (a3 : Nat) : Keeps m s0
    (setOwnCore a1 a2 a3 s) := by
  unfold setOwnCore
  try dsimp only
  repeat' first
    | with_reducible assumption
    | exact Within.trans (Eq.refl _) hw
    | with_reducible apply wr_keeps

theorem setRole_keeps (h : Keeps m s0 s) (hw : Within [.reg .SPARE_CORE_STATE_ROLE] m) (a1 : Nat) (a2 : Nat) (a3 : Nat) : Keeps m s0
    (setRole a1 a2 a3 s) := by
  unfold setRole
  try dsimp only
  repeat' first
    | with_reducible assumption
    | exact Within.trans (Eq.refl _) hw
    | with_reducible apply wr_keeps

theorem setPhase_keeps (h : Keeps m s0 s) (hw : Within [.reg .SPARE_STATUS_PHASE] m) (a1 : Nat) (a2 : Nat) : Keeps m s0 (setPhase a1 a2
    s) := by
  unfold setPhase
  try dsimp only
  repeat' first
    | with_reducible assumption
    | exact Within.trans (Eq.refl _) hw
    | with_reducible apply wr_keeps

theorem applyTrim_keeps (h : Keeps m s0 s) (hw : Within [.reg .SPARE_ELEM_TRIM_E, .reg .SPARE_GO_TRIM_GAIN, .reg .SPARE_GO_TRIM_OFFSET,
    .reg .SPARE_LADDER_TRIM_L] m) (a1 : Nat) (a2 : Nat) (a3 : CoreTrim) : Keeps m s0 (applyTrim a1 a2 a3 s) := by
  unfold applyTrim
  try dsimp only
  repeat' first
    | with_reducible assumption
    | exact Within.trans (Eq.refl _) hw
    | (intro _)
    | with_reducible apply wr_keeps
    | with_reducible apply each_keeps

theorem restoreTrim_keeps (h : Keeps m s0 s) (hw : Within [.reg .SPARE_ELEM_TRIM_E, .reg .SPARE_GO_TRIM_GAIN, .reg
    .SPARE_GO_TRIM_OFFSET, .reg .SPARE_LADDER_TRIM_L] m) (a1 : Nat) (a2 : Nat) : Keeps m s0 (restoreTrim a1 a2 s) := by
  unfold restoreTrim
  try dsimp only
  repeat' first
    | with_reducible assumption
    | exact Within.trans (Eq.refl _) hw
    | with_reducible apply applyTrim_keeps

theorem startVisit_keeps (h : Keeps m s0 s) (hw : Within [.reg .BURNISH_STATUS_ROTATING, .reg .SPARE_STATUS_VISIT_POS, .tiers] m) (a1 :
    Nat) (a2 : Nat) : Keeps m s0 (startVisit a1 a2 s) := by
  unfold startVisit
  try dsimp only
  repeat' first
    | with_reducible assumption
    | exact Within.trans (Eq.refl _) hw
    | with_reducible apply wr_keeps
    | with_reducible apply State.setTier_keeps

theorem takeVisitReq_keeps (h : Keeps m s0 s) (hw : Within [.reg .BURNISH_STATUS_ROTATING, .reg .SPARE_STATUS_VISIT_POS, .tiers] m) (a1
    : Nat) : Keeps m s0 (takeVisitReq a1 s) := by
  unfold takeVisitReq
  try dsimp only
  repeat' first
    | with_reducible assumption
    | exact Within.trans (Eq.refl _) hw
    | with_reducible apply State.setTier_keeps
    | with_reducible apply startVisit_keeps
    | with_reducible apply Keeps.ite
    | split

theorem endVisit_keeps (h : Keeps m s0 s) (hw : Within [.reg .BURNISH_STATUS_ROTATING, .reg .SPARE_ELEM_TRIM_E, .reg
    .SPARE_GO_TRIM_GAIN, .reg .SPARE_GO_TRIM_OFFSET, .reg .SPARE_LADDER_TRIM_L, .reg .SPARE_STATUS_PHASE, .reg .SPARE_STATUS_VISIT_POS,
    .tiers] m) (a1 : Nat) : Keeps m s0 (endVisit a1 s) := by
  unfold endVisit
  try dsimp only
  repeat' first
    | with_reducible assumption
    | exact Within.trans (Eq.refl _) hw
    | with_reducible apply wr_keeps
    | with_reducible apply State.setTier_keeps
    | with_reducible apply restoreTrim_keeps
    | with_reducible apply setPhase_keeps
    | with_reducible apply Keeps.ite
    | split

theorem cancelVisit_keeps (h : Keeps m s0 s) (hw : Within [.reg .BURNISH_STATUS_ROTATING, .reg .SPARE_ELEM_TRIM_E, .reg
    .SPARE_GO_TRIM_GAIN, .reg .SPARE_GO_TRIM_OFFSET, .reg .SPARE_LADDER_TRIM_L, .reg .SPARE_STATUS_PHASE, .reg .SPARE_STATUS_VISIT_POS,
    .tiers] m) (a1 : Nat) : Keeps m s0 (cancelVisit a1 s) := by
  unfold cancelVisit
  try dsimp only
  repeat' first
    | with_reducible assumption
    | exact Within.trans (Eq.refl _) hw
    | with_reducible apply endVisit_keeps
    | with_reducible apply takeVisitReq_keeps

theorem disturb_keeps (h : Keeps m s0 s) (hw : Within [.reg .BURNISH_STATUS_ROTATING, .reg .SPARE_ELEM_TRIM_E, .reg .SPARE_GO_TRIM_GAIN,
    .reg .SPARE_GO_TRIM_OFFSET, .reg .SPARE_LADDER_TRIM_L, .reg .SPARE_STATUS_PHASE, .reg .SPARE_STATUS_VISIT_POS, .tiers] m) (a1 : Nat) :
    Keeps m s0 (disturb a1 s) := by
  unfold disturb
  try dsimp only
  repeat' first
    | with_reducible assumption
    | exact Within.trans (Eq.refl _) hw
    | with_reducible apply cancelVisit_keeps
    | with_reducible apply Keeps.ite
    | split

theorem enterWindow_keeps (h : Keeps m s0 s) (hw : Within [.reg .SPARE_STATUS_PHASE, .tiers] m) (a1 : Nat) (a2 : Nat) : Keeps m s0
    (enterWindow a1 a2 s) := by
  unfold enterWindow
  try dsimp only
  repeat' first
    | with_reducible assumption
    | exact Within.trans (Eq.refl _) hw
    | with_reducible apply State.setTier_keeps
    | with_reducible apply setPhase_keeps
    | with_reducible apply Keeps.ite
    | split

theorem pauseWindow_keeps (h : Keeps m s0 s) (hw : Within [.reg .SPARE_STATUS_PHASE, .tiers] m) (a1 : Nat) : Keeps m s0 (pauseWindow a1
    s) := by
  unfold pauseWindow
  try dsimp only
  repeat' first
    | with_reducible assumption
    | exact Within.trans (Eq.refl _) hw
    | with_reducible apply State.setTier_keeps
    | with_reducible apply setPhase_keeps
    | with_reducible apply Keeps.ite
    | split

theorem resumeBurnish_keeps (h : Keeps m s0 s) (hw : Within [.reg .EVT_PEND_PEND, .reg .EVT_RAW_RAW, .reg .SPARE_STATUS_PHASE,
    .presented, .tiers] m) (a1 : Nat) : Keeps m s0 (resumeBurnish a1 s) := by
  unfold resumeBurnish
  try dsimp only
  repeat' first
    | with_reducible assumption
    | exact Within.trans (Eq.refl _) hw
    | with_reducible apply State.setTier_keeps
    | with_reducible apply raise_keeps
    | with_reducible apply setPhase_keeps
    | with_reducible apply Keeps.ite
    | split

end Sys2Proof.Machine
end

