-- ==== Sys2Proof/Laws/OutputsKeeps.lean ====
section
/-! SUPPORT. What the operations of Machine/Outputs.lean keep: the queue, the invariant, and every part outside their footprint. -/

set_option maxRecDepth 4000
set_option linter.unusedTactic false
set_option linter.unreachableTactic false

namespace Sys2Proof.Machine

variable {m : Nat} {s0 s : State}

theorem showVolt_keeps (h : Keeps m s0 s) (hw : Within [.reg .EVT_PEND_PEND, .reg .EVT_RAW_RAW, .presented, .outs] m) (a1 : Nat) (a2 :
    Nat) : Keeps m s0 (showVolt a1 a2 s) := by
  unfold showVolt
  try dsimp only
  repeat' first
    | with_reducible assumption
    | exact Within.trans (Eq.refl _) hw
    | with_reducible apply State.setOut_keeps
    | with_reducible apply raise_keeps
    | with_reducible apply Keeps.ite
    | split

theorem startSpan_keeps (h : Keeps m s0 s) (hw : Within [.reg .BURNISH_STATUS_ROTATING, .reg .OUT_STATUS_SPAN_BUSY, .reg
    .SPARE_ELEM_TRIM_E, .reg .SPARE_GO_TRIM_GAIN, .reg .SPARE_GO_TRIM_OFFSET, .reg .SPARE_LADDER_TRIM_L, .reg .SPARE_STATUS_PHASE, .reg
    .SPARE_STATUS_VISIT_POS, .outs, .tiers] m) (a1 : Nat) (a2 : Nat) : Keeps m s0 (startSpan a1 a2 s) := by
  unfold startSpan
  try dsimp only
  repeat' first
    | with_reducible assumption
    | exact Within.trans (Eq.refl _) hw
    | with_reducible apply wr_keeps
    | with_reducible apply State.setOut_keeps
    | with_reducible apply disturb_keeps

theorem commitSpan_keeps (h : Keeps m s0 s) (hw : Within [.reg .BURNISH_STATUS_ROTATING, .reg .OUT_STATUS_SPAN_BUSY, .reg
    .SPARE_ELEM_TRIM_E, .reg .SPARE_GO_TRIM_GAIN, .reg .SPARE_GO_TRIM_OFFSET, .reg .SPARE_LADDER_TRIM_L, .reg .SPARE_STATUS_PHASE, .reg
    .SPARE_STATUS_VISIT_POS, .outs, .tiers] m) (a1 : Nat) (a2 : Nat) : Keeps m s0 (commitSpan a1 a2 s) := by
  unfold commitSpan
  try dsimp only
  repeat' first
    | with_reducible assumption
    | exact Within.trans (Eq.refl _) hw
    | with_reducible apply State.setOut_keeps
    | with_reducible apply startSpan_keeps
    | with_reducible apply Keeps.ite
    | split

theorem slewWake_keeps (h : Keeps m s0 s) (hw : Within [.reg .EVT_PEND_PEND, .reg .EVT_RAW_RAW, .presented, .outs] m) (a1 : Nat) : Keeps
    m s0 (slewWake a1 s) := by
  unfold slewWake
  try dsimp only
  repeat' first
    | with_reducible assumption
    | exact Within.trans (Eq.refl _) hw
    | with_reducible apply State.setOut_keeps
    | with_reducible apply showVolt_keeps

theorem goWake_keeps (h : Keeps m s0 s) (hw : Within [.reg .BURNISH_STATUS_ROTATING, .reg .EVT_PEND_PEND, .reg .EVT_RAW_RAW, .reg
    .OUT_STATUS_SPAN_BUSY, .reg .SPARE_ELEM_TRIM_E, .reg .SPARE_GO_TRIM_GAIN, .reg .SPARE_GO_TRIM_OFFSET, .reg .SPARE_LADDER_TRIM_L, .reg
    .SPARE_STATUS_PHASE, .reg .SPARE_STATUS_VISIT_POS, .presented, .outs, .tiers] m) (a1 : Nat) : Keeps m s0 (goWake a1 s) := by
  unfold goWake
  try dsimp only
  repeat' first
    | with_reducible assumption
    | exact Within.trans (Eq.refl _) hw
    | with_reducible apply wr_keeps
    | with_reducible apply State.setOut_keeps
    | with_reducible apply disturb_keeps
    | with_reducible apply slewWake_keeps
    | with_reducible apply Keeps.ite
    | split

theorem execSpanSlewEnd_keeps (h : Keeps m s0 s) (hw : Within [.reg .EVT_PEND_PEND, .reg .EVT_RAW_RAW, .presented, .outs] m) (a1 : Chan)
    : Ends m s0 (execSpanSlewEnd a1 s) := by
  unfold execSpanSlewEnd
  try dsimp only
  repeat' first
    | with_reducible assumption
    | exact Within.trans (Eq.refl _) hw
    | (intro _)
    | with_reducible apply on_keeps
    | with_reducible apply act_keeps
    | with_reducible apply State.setOut_keeps
    | with_reducible apply showVolt_keeps
    | with_reducible apply Ends.ite
    | with_reducible apply Ends.next
    | split

theorem execSpanHoldEnd_keeps (h : Keeps m s0 s) (hw : Within [.outs] m) (a1 : Chan) : Ends m s0 (execSpanHoldEnd a1 s) := by
  unfold execSpanHoldEnd
  try dsimp only
  repeat' first
    | with_reducible assumption
    | exact Within.trans (Eq.refl _) hw
    | (intro _)
    | with_reducible apply on_keeps
    | with_reducible apply act_keeps
    | with_reducible apply State.setOut_keeps
    | with_reducible apply Ends.ite
    | with_reducible apply Ends.next
    | split

theorem execSpanSwitchDone_keeps (h : Keeps m s0 s) (hw : Within [.reg .EVT_PEND_PEND, .reg .EVT_RAW_RAW, .reg .OUT_STATUS_SPAN_NOW,
    .presented, .outs] m) (a1 : Chan) : Ends m s0 (execSpanSwitchDone a1 s) := by
  unfold execSpanSwitchDone
  try dsimp only
  repeat' first
    | with_reducible assumption
    | exact Within.trans (Eq.refl _) hw
    | (intro _)
    | with_reducible apply wr_keeps
    | with_reducible apply on_keeps
    | with_reducible apply act_keeps
    | with_reducible apply State.setOut_keeps
    | with_reducible apply showVolt_keeps
    | with_reducible apply Ends.ite
    | with_reducible apply Ends.next
    | split

theorem nextSpan_keeps (h : Keeps m s0 s) (hw : Within [.reg .EVT_PEND_PEND, .reg .EVT_RAW_RAW, .presented, .outs] m) (a1 : Nat) (a2 :
    Nat) : Keeps m s0 (nextSpan a1 a2 s) := by
  unfold nextSpan
  try dsimp only
  repeat' first
    | with_reducible assumption
    | exact Within.trans (Eq.refl _) hw
    | with_reducible apply State.setOut_keeps
    | with_reducible apply showVolt_keeps

theorem execSpanSettleEnd_keeps (h : Keeps m s0 s) (hw : Within [.reg .EVT_PEND_PEND, .reg .EVT_RAW_RAW, .reg .OUT_STATUS_SPAN_BUSY,
    .presented, .outs] m) (a1 : Chan) : Ends m s0 (execSpanSettleEnd a1 s) := by
  unfold execSpanSettleEnd
  try dsimp only
  repeat' first
    | with_reducible assumption
    | exact Within.trans (Eq.refl _) hw
    | (intro _)
    | with_reducible apply wr_keeps
    | with_reducible apply on_keeps
    | with_reducible apply act_keeps
    | with_reducible apply State.setOut_keeps
    | with_reducible apply nextSpan_keeps
    | with_reducible apply slewWake_keeps
    | with_reducible apply Keeps.ite
    | with_reducible apply Ends.ite
    | with_reducible apply Ends.next
    | split

theorem releaseSpan_keeps (h : Keeps m s0 s) (hw : Within [.reg .EVT_PEND_PEND, .reg .EVT_RAW_RAW, .reg .OUT_STATUS_SPAN_BUSY,
    .presented, .outs] m) (a1 : Nat) : Keeps m s0 (releaseSpan a1 s) := by
  unfold releaseSpan
  try dsimp only
  repeat' first
    | with_reducible assumption
    | exact Within.trans (Eq.refl _) hw
    | with_reducible apply wr_keeps
    | with_reducible apply State.setOut_keeps
    | with_reducible apply nextSpan_keeps
    | with_reducible apply raise_keeps
    | with_reducible apply slewWake_keeps
    | with_reducible apply Keeps.ite
    | split

theorem execSpanRelease_keeps (h : Keeps m s0 s) (hw : Within [.reg .EVT_PEND_PEND, .reg .EVT_RAW_RAW, .reg .OUT_STATUS_SPAN_BUSY,
    .presented, .outs] m) (a1 : Chan) : Ends m s0 (execSpanRelease a1 s) := by
  unfold execSpanRelease
  try dsimp only
  repeat' first
    | with_reducible assumption
    | exact Within.trans (Eq.refl _) hw
    | (intro _)
    | with_reducible apply on_keeps
    | with_reducible apply act_keeps
    | with_reducible apply releaseSpan_keeps
    | with_reducible apply Ends.ite
    | with_reducible apply Ends.next
    | split

theorem refreshFallback_keeps (h : Keeps m s0 s) (hw : Within [.reg .OUT_STATUS_FALLBACK] m) (a1 : Nat) : Keeps m s0 (refreshFallback a1
    s) := by
  unfold refreshFallback
  try dsimp only
  repeat' first
    | with_reducible assumption
    | exact Within.trans (Eq.refl _) hw
    | with_reducible apply wr_keeps
    | with_reducible apply Keeps.ite
    | split

theorem setCoreLost_keeps (h : Keeps m s0 s) (hw : Within [.reg .OUT_FAULT_STAT_CORE_LOST, .reg .OUT_STATUS_FALLBACK] m) (a1 : Nat) (a2
    : Nat) : Keeps m s0 (setCoreLost a1 a2 s) := by
  unfold setCoreLost
  try dsimp only
  repeat' first
    | with_reducible assumption
    | exact Within.trans (Eq.refl _) hw
    | with_reducible apply wr_keeps
    | with_reducible apply refreshFallback_keeps

theorem abandonSpan_keeps (h : Keeps m s0 s) (hw : Within [.reg .OUT_STATUS_SPAN_BUSY, .outs] m) (a1 : Nat) : Keeps m s0 (abandonSpan a1
    s) := by
  unfold abandonSpan
  try dsimp only
  repeat' first
    | with_reducible assumption
    | exact Within.trans (Eq.refl _) hw
    | with_reducible apply wr_keeps
    | with_reducible apply State.setOut_keeps
    | with_reducible apply Keeps.ite
    | split

theorem showFault_keeps (h : Keeps m s0 s) (hw : Within [.reg .BURNISH_STATUS_ROTATING, .reg .EVT_PEND_PEND, .reg .EVT_RAW_RAW, .reg
    .OUT_STATUS_FALLBACK, .reg .OUT_STATUS_SPAN_BUSY, .reg .SPARE_ELEM_TRIM_E, .reg .SPARE_GO_TRIM_GAIN, .reg .SPARE_GO_TRIM_OFFSET, .reg
    .SPARE_LADDER_TRIM_L, .reg .SPARE_STATUS_PHASE, .reg .SPARE_STATUS_VISIT_POS, .presented, .outs, .tiers] m) (a1 : Nat) : Keeps m s0
    (showFault a1 s) := by
  unfold showFault
  try dsimp only
  repeat' first
    | with_reducible assumption
    | exact Within.trans (Eq.refl _) hw
    | with_reducible apply State.setOut_keeps
    | with_reducible apply abandonSpan_keeps
    | with_reducible apply disturb_keeps
    | with_reducible apply refreshFallback_keeps
    | with_reducible apply showVolt_keeps

theorem enterFault_keeps (h : Keeps m s0 s) (hw : Within [.reg .BURNISH_STATUS_ROTATING, .reg .EVT_PEND_PEND, .reg .EVT_RAW_RAW, .reg
    .OUT_STATUS_FALLBACK, .reg .OUT_STATUS_SPAN_BUSY, .reg .POWER_STATUS_ENTERING, .reg .POWER_STATUS_EXITING, .reg .POWER_WAKE_STAT_CLASS,
    .reg .POWER_WAKE_STAT_FROM, .reg .SPARE_ELEM_TRIM_E, .reg .SPARE_GO_TRIM_GAIN, .reg .SPARE_GO_TRIM_OFFSET, .reg .SPARE_LADDER_TRIM_L,
    .reg .SPARE_STATUS_PHASE, .reg .SPARE_STATUS_VISIT_POS, .presented, .outs, .pwr, .tiers] m) (a1 : Nat) : Keeps m s0 (enterFault a1 s) :=
    by
  unfold enterFault
  try dsimp only
  repeat' first
    | with_reducible assumption
    | exact Within.trans (Eq.refl _) hw
    | with_reducible apply State.setOut_keeps
    | with_reducible apply abandonSpan_keeps
    | with_reducible apply raise_keeps
    | with_reducible apply showFault_keeps
    | with_reducible apply slewWake_keeps
    | with_reducible apply wake_keeps
    | with_reducible apply Keeps.ite
    | split

theorem execFaultEnter_keeps (h : Keeps m s0 s) (hw : Within [.reg .BURNISH_STATUS_ROTATING, .reg .EVT_PEND_PEND, .reg .EVT_RAW_RAW,
    .reg .OUT_STATUS_FALLBACK, .reg .OUT_STATUS_SPAN_BUSY, .reg .POWER_STATUS_ENTERING, .reg .POWER_STATUS_EXITING, .reg
    .POWER_WAKE_STAT_CLASS, .reg .POWER_WAKE_STAT_FROM, .reg .SPARE_ELEM_TRIM_E, .reg .SPARE_GO_TRIM_GAIN, .reg .SPARE_GO_TRIM_OFFSET, .reg
    .SPARE_LADDER_TRIM_L, .reg .SPARE_STATUS_PHASE, .reg .SPARE_STATUS_VISIT_POS, .presented, .outs, .pwr, .tiers] m) (a1 : Chan) : Ends m
    s0 (execFaultEnter a1 s) := by
  unfold execFaultEnter
  try dsimp only
  repeat' first
    | with_reducible assumption
    | exact Within.trans (Eq.refl _) hw
    | (intro _)
    | with_reducible apply on_keeps
    | with_reducible apply act_keeps
    | with_reducible apply enterFault_keeps
    | with_reducible apply Ends.ite
    | with_reducible apply Ends.next
    | split

theorem exitFault_keeps (h : Keeps m s0 s) (hw : Within [.reg .BURNISH_STATUS_ROTATING, .reg .EVT_PEND_PEND, .reg .EVT_RAW_RAW, .reg
    .OUT_STATUS_FALLBACK, .reg .OUT_STATUS_SPAN_BUSY, .reg .SPARE_ELEM_TRIM_E, .reg .SPARE_GO_TRIM_GAIN, .reg .SPARE_GO_TRIM_OFFSET, .reg
    .SPARE_LADDER_TRIM_L, .reg .SPARE_STATUS_PHASE, .reg .SPARE_STATUS_VISIT_POS, .presented, .outs, .tiers] m) (a1 : Nat) : Keeps m s0
    (exitFault a1 s) := by
  unfold exitFault
  try dsimp only
  repeat' first
    | with_reducible assumption
    | exact Within.trans (Eq.refl _) hw
    | with_reducible apply State.setOut_keeps
    | with_reducible apply raise_keeps
    | with_reducible apply refreshFallback_keeps
    | with_reducible apply startSpan_keeps
    | with_reducible apply Keeps.ite
    | split

theorem execFaultExit_keeps (h : Keeps m s0 s) (hw : Within [.reg .BURNISH_STATUS_ROTATING, .reg .EVT_PEND_PEND, .reg .EVT_RAW_RAW, .reg
    .OUT_STATUS_FALLBACK, .reg .OUT_STATUS_SPAN_BUSY, .reg .SPARE_ELEM_TRIM_E, .reg .SPARE_GO_TRIM_GAIN, .reg .SPARE_GO_TRIM_OFFSET, .reg
    .SPARE_LADDER_TRIM_L, .reg .SPARE_STATUS_PHASE, .reg .SPARE_STATUS_VISIT_POS, .presented, .outs, .tiers] m) (a1 : Chan) : Ends m s0
    (execFaultExit a1 s) := by
  unfold execFaultExit
  try dsimp only
  repeat' first
    | with_reducible assumption
    | exact Within.trans (Eq.refl _) hw
    | (intro _)
    | with_reducible apply on_keeps
    | with_reducible apply act_keeps
    | with_reducible apply exitFault_keeps
    | with_reducible apply Ends.ite
    | with_reducible apply Ends.next
    | split

theorem execSqUnderrunFault_keeps (h : Keeps m s0 s) (hw : Within [.reg .OUT_FAULT_STAT_SQ_UNDERRUN, .outs] m) (a1 : Chan) : Ends m s0
    (execSqUnderrunFault a1 s) := by
  unfold execSqUnderrunFault
  try dsimp only
  repeat' first
    | with_reducible assumption
    | exact Within.trans (Eq.refl _) hw
    | (intro _)
    | with_reducible apply wr_keeps
    | with_reducible apply on_keeps
    | with_reducible apply act_keeps
    | with_reducible apply State.setOut_keeps
    | with_reducible apply Ends.ite
    | with_reducible apply Ends.next
    | split

theorem writeForce_keeps (h : Keeps m s0 s) (hw : Within [.reg .OUT_FAULT_CTL_FORCE, .reg .OUT_FAULT_STAT_FORCED, .outs] m) (a1 : Nat)
    (a2 : Bool) : Keeps m s0 (writeForce a1 a2 s) := by
  unfold writeForce
  try dsimp only
  repeat' first
    | with_reducible assumption
    | exact Within.trans (Eq.refl _) hw
    | with_reducible apply wr_keeps
    | with_reducible apply State.setOut_keeps
    | with_reducible apply Keeps.ite
    | split

theorem execFaultForceWrite_keeps (h : Keeps m s0 s) (hw : Within [.reg .ERR_CODE_CODE, .reg .ERR_CODE_MASTER, .reg .ERR_CODE_OVF, .reg
    .ERR_CODE_WORD, .reg .ERR_CODE_WRITE, .reg .OUT_FAULT_CTL_FORCE, .reg .OUT_FAULT_STAT_FORCED, .reg .POWER_STATUS_ENTERING, .reg
    .POWER_STATUS_EXITING, .reg .POWER_WAKE_STAT_CLASS, .reg .POWER_WAKE_STAT_FROM, .outs, .pwr] m) (a1 : Master) (a2 : Chan) (a3 : Bool) :
    Ends m s0 (execFaultForceWrite a1 a2 a3 s) := by
  unfold execFaultForceWrite
  try dsimp only
  repeat' first
    | with_reducible assumption
    | exact Within.trans (Eq.refl _) hw
    | (intro _)
    | with_reducible apply cmd_keeps
    | with_reducible apply writeForce_keeps
    | with_reducible apply Ends.ite
    | with_reducible apply Ends.next
    | split

theorem clearFaults_keeps (h : Keeps m s0 s) (hw : Within [.reg .OUT_FAULT_STAT_SQ_UNDERRUN, .reg .OUT_FAULT_STAT_WATCHDOG] m) (a1 :
    Nat) : Keeps m s0 (clearFaults a1 s) := by
  unfold clearFaults
  try dsimp only
  repeat' first
    | with_reducible assumption
    | exact Within.trans (Eq.refl _) hw
    | with_reducible apply wr_keeps
    | with_reducible apply Keeps.ite
    | split

theorem execFaultClear_keeps (h : Keeps m s0 s) (hw : Within [.reg .ERR_CODE_CODE, .reg .ERR_CODE_MASTER, .reg .ERR_CODE_OVF, .reg
    .ERR_CODE_WORD, .reg .ERR_CODE_WRITE, .reg .OUT_FAULT_STAT_SQ_UNDERRUN, .reg .OUT_FAULT_STAT_WATCHDOG, .reg .POWER_STATUS_ENTERING, .reg
    .POWER_STATUS_EXITING, .reg .POWER_WAKE_STAT_CLASS, .reg .POWER_WAKE_STAT_FROM, .pwr] m) (a1 : Master) (a2 : Chan) : Ends m s0
    (execFaultClear a1 a2 s) := by
  unfold execFaultClear
  try dsimp only
  repeat' first
    | with_reducible assumption
    | exact Within.trans (Eq.refl _) hw
    | (intro _)
    | with_reducible apply clearFaults_keeps
    | with_reducible apply cmd_keeps
    | with_reducible apply Ends.ite
    | with_reducible apply Ends.next
    | split

theorem stageFails_keeps (h : Keeps m s0 s) (hw : Within [.reg .BURNISH_STATUS_ROTATING, .reg .EVT_PEND_PEND, .reg .EVT_RAW_RAW, .reg
    .OUT_STAGE_STAT_A_FAILED, .reg .OUT_STAGE_STAT_B_FAILED, .reg .OUT_STATUS_HIGHZ, .reg .SPARE_ELEM_TRIM_E, .reg .SPARE_GO_TRIM_GAIN, .reg
    .SPARE_GO_TRIM_OFFSET, .reg .SPARE_LADDER_TRIM_L, .reg .SPARE_STATUS_PHASE, .reg .SPARE_STATUS_VISIT_POS, .presented, .outs, .tiers] m)
    (a1 : Nat) (a2 : Nat) : Keeps m s0 (stageFails a1 a2 s) := by
  unfold stageFails
  try dsimp only
  repeat' first
    | with_reducible assumption
    | exact Within.trans (Eq.refl _) hw
    | with_reducible apply wr_keeps
    | with_reducible apply State.setOut_keeps
    | with_reducible apply disturb_keeps
    | with_reducible apply raise_keeps
    | with_reducible apply Keeps.ite
    | split

theorem execStageTrackingFault_keeps (h : Keeps m s0 s) (hw : Within [.reg .BURNISH_STATUS_ROTATING, .reg .EVT_PEND_PEND, .reg
    .EVT_RAW_RAW, .reg .OUT_STAGE_STAT_A_FAILED, .reg .OUT_STAGE_STAT_B_FAILED, .reg .OUT_STATUS_HIGHZ, .reg .SPARE_ELEM_TRIM_E, .reg
    .SPARE_GO_TRIM_GAIN, .reg .SPARE_GO_TRIM_OFFSET, .reg .SPARE_LADDER_TRIM_L, .reg .SPARE_STATUS_PHASE, .reg .SPARE_STATUS_VISIT_POS,
    .presented, .outs, .tiers] m) (a1 : Chan) : Ends m s0 (execStageTrackingFault a1 s) := by
  unfold execStageTrackingFault
  try dsimp only
  repeat' first
    | with_reducible assumption
    | exact Within.trans (Eq.refl _) hw
    | (intro _)
    | with_reducible apply on_keeps
    | with_reducible apply act_keeps
    | with_reducible apply stageFails_keeps
    | with_reducible apply Ends.ite
    | with_reducible apply Ends.next
    | split

theorem execStageBiasFault_keeps (h : Keeps m s0 s) (hw : Within [.reg .BURNISH_STATUS_ROTATING, .reg .EVT_PEND_PEND, .reg .EVT_RAW_RAW,
    .reg .OUT_STAGE_STAT_A_FAILED, .reg .OUT_STAGE_STAT_B_FAILED, .reg .OUT_STATUS_HIGHZ, .reg .SPARE_ELEM_TRIM_E, .reg .SPARE_GO_TRIM_GAIN,
    .reg .SPARE_GO_TRIM_OFFSET, .reg .SPARE_LADDER_TRIM_L, .reg .SPARE_STATUS_PHASE, .reg .SPARE_STATUS_VISIT_POS, .presented, .outs,
    .tiers] m) (a1 : Chan) : Ends m s0 (execStageBiasFault a1 s) := by
  unfold execStageBiasFault
  try dsimp only
  repeat' first
    | with_reducible assumption
    | exact Within.trans (Eq.refl _) hw
    | (intro _)
    | with_reducible apply on_keeps
    | with_reducible apply act_keeps
    | with_reducible apply stageFails_keeps
    | with_reducible apply Ends.ite
    | with_reducible apply Ends.next
    | split

theorem hostSwitch_keeps (h : Keeps m s0 s) (hw : Within [.reg .OUT_STAGE_STAT_REQ_REFUSED, .outs] m) (a1 : Nat) : Keeps m s0
    (hostSwitch a1 s) := by
  unfold hostSwitch
  try dsimp only
  repeat' first
    | with_reducible assumption
    | exact Within.trans (Eq.refl _) hw
    | with_reducible apply wr_keeps
    | with_reducible apply State.setOut_keeps
    | with_reducible apply Keeps.ite
    | split
    | with_reducible apply KeepsOpt.getD

theorem execStageSwitchReq_keeps (h : Keeps m s0 s) (hw : Within [.reg .ERR_CODE_CODE, .reg .ERR_CODE_MASTER, .reg .ERR_CODE_OVF, .reg
    .ERR_CODE_WORD, .reg .ERR_CODE_WRITE, .reg .OUT_STAGE_STAT_REQ_REFUSED, .reg .POWER_STATUS_ENTERING, .reg .POWER_STATUS_EXITING, .reg
    .POWER_WAKE_STAT_CLASS, .reg .POWER_WAKE_STAT_FROM, .outs, .pwr] m) (a1 : Master) (a2 : Chan) : Ends m s0 (execStageSwitchReq a1 a2 s)
    := by
  unfold execStageSwitchReq
  try dsimp only
  repeat' first
    | with_reducible assumption
    | exact Within.trans (Eq.refl _) hw
    | (intro _)
    | with_reducible apply cmd_keeps
    | with_reducible apply hostSwitch_keeps
    | with_reducible apply Ends.ite
    | with_reducible apply Ends.next
    | split

theorem switchover_keeps (h : Keeps m s0 s) (hw : Within [.reg .EVT_PEND_PEND, .reg .EVT_RAW_RAW, .reg .OUT_STAGE_STAT_LAST_CAUSE, .reg
    .OUT_STAGE_STAT_SWITCH_CNT, .reg .OUT_STATUS_STAGE, .presented, .outs] m) (a1 : Nat) : Keeps m s0 (switchover a1 s) := by
  unfold switchover
  try dsimp only
  repeat' first
    | with_reducible assumption
    | exact Within.trans (Eq.refl _) hw
    | with_reducible apply wr_keeps
    | with_reducible apply inc_keeps
    | with_reducible apply State.setOut_keeps
    | with_reducible apply raise_keeps
    | split

theorem execStageSwitchover_keeps (h : Keeps m s0 s) (hw : Within [.reg .EVT_PEND_PEND, .reg .EVT_RAW_RAW, .reg
    .OUT_STAGE_STAT_LAST_CAUSE, .reg .OUT_STAGE_STAT_SWITCH_CNT, .reg .OUT_STATUS_STAGE, .presented, .outs] m) (a1 : Chan) : Ends m s0
    (execStageSwitchover a1 s) := by
  unfold execStageSwitchover
  try dsimp only
  repeat' first
    | with_reducible assumption
    | exact Within.trans (Eq.refl _) hw
    | (intro _)
    | with_reducible apply act_keeps
    | with_reducible apply switchover_keeps
    | with_reducible apply Ends.ite
    | with_reducible apply Ends.next
    | split

theorem senseFault_keeps (h : Keeps m s0 s) (hw : Within [.reg .EVT_PEND_PEND, .reg .EVT_RAW_RAW, .reg .OUT_STATUS_SENSE_LOCAL,
    .presented, .outs] m) (a1 : Nat) : Keeps m s0 (senseFault a1 s) := by
  unfold senseFault
  try dsimp only
  repeat' first
    | with_reducible assumption
    | exact Within.trans (Eq.refl _) hw
    | with_reducible apply wr_keeps
    | with_reducible apply State.setOut_keeps
    | with_reducible apply raise_keeps
    | with_reducible apply Keeps.ite
    | split

theorem execSenseFault_keeps (h : Keeps m s0 s) (hw : Within [.reg .EVT_PEND_PEND, .reg .EVT_RAW_RAW, .reg .OUT_STATUS_SENSE_LOCAL,
    .presented, .outs] m) (a1 : Chan) : Ends m s0 (execSenseFault a1 s) := by
  unfold execSenseFault
  try dsimp only
  repeat' first
    | with_reducible assumption
    | exact Within.trans (Eq.refl _) hw
    | (intro _)
    | with_reducible apply on_keeps
    | with_reducible apply act_keeps
    | with_reducible apply senseFault_keeps
    | with_reducible apply Ends.ite
    | with_reducible apply Ends.next
    | split

theorem writeStageCtl_keeps (h : Keeps m s0 s) (hw : Within [.reg .OUT_STAGECTL_AUTO_LOCAL, .reg .OUT_STAGECTL_AUTO_SWITCH, .reg
    .OUT_STAGECTL_PREFER, .reg .OUT_STAGECTL_SENSE_MODE, .reg .OUT_STAGE_STAT_REQ_REFUSED, .reg .OUT_STATUS_SENSE_LOCAL, .outs] m) (a1 :
    Nat) (a2 : Nat) : Keeps m s0 (writeStageCtl a1 a2 s) := by
  unfold writeStageCtl
  try dsimp only
  repeat' first
    | with_reducible assumption
    | exact Within.trans (Eq.refl _) hw
    | with_reducible apply wr_keeps
    | with_reducible apply State.setOut_keeps
    | with_reducible apply hostSwitch_keeps
    | with_reducible apply Keeps.ite
    | split

theorem execCurrentLimitEnter_keeps (h : Keeps m s0 s) (hw : Within [.reg .OUT_STATUS_IN_LIMIT, .outs] m) (a1 : Chan) : Ends m s0
    (execCurrentLimitEnter a1 s) := by
  unfold execCurrentLimitEnter
  try dsimp only
  repeat' first
    | with_reducible assumption
    | exact Within.trans (Eq.refl _) hw
    | (intro _)
    | with_reducible apply wr_keeps
    | with_reducible apply on_keeps
    | with_reducible apply act_keeps
    | with_reducible apply State.setOut_keeps
    | with_reducible apply Keeps.ite
    | with_reducible apply Ends.ite
    | with_reducible apply Ends.next
    | split

theorem execCurrentLimitExit_keeps (h : Keeps m s0 s) (hw : Within [.reg .OUT_STATUS_IN_LIMIT, .outs] m) (a1 : Chan) : Ends m s0
    (execCurrentLimitExit a1 s) := by
  unfold execCurrentLimitExit
  try dsimp only
  repeat' first
    | with_reducible assumption
    | exact Within.trans (Eq.refl _) hw
    | (intro _)
    | with_reducible apply wr_keeps
    | with_reducible apply on_keeps
    | with_reducible apply act_keeps
    | with_reducible apply State.setOut_keeps
    | with_reducible apply Ends.ite
    | with_reducible apply Ends.next
    | split

theorem execFoldback_keeps (h : Keeps m s0 s) (hw : Within [.reg .EVT_PEND_PEND, .reg .EVT_RAW_RAW, .reg .OUT_SC_CNT_SHORTS, .reg
    .OUT_STATUS_FOLDBACK, .presented, .outs] m) (a1 : Chan) : Ends m s0 (execFoldback a1 s) := by
  unfold execFoldback
  try dsimp only
  repeat' first
    | with_reducible assumption
    | exact Within.trans (Eq.refl _) hw
    | (intro _)
    | with_reducible apply wr_keeps
    | with_reducible apply inc_keeps
    | with_reducible apply on_keeps
    | with_reducible apply act_keeps
    | with_reducible apply State.setOut_keeps
    | with_reducible apply raise_keeps
    | with_reducible apply Ends.ite
    | with_reducible apply Ends.next
    | split

theorem requestFoldEnd_keeps (h : Keeps m s0 s) (hw : Within [.outs] m) (a1 : Nat) : Keeps m s0 (requestFoldEnd a1 s) := by
  unfold requestFoldEnd
  try dsimp only
  repeat' first
    | with_reducible assumption
    | exact Within.trans (Eq.refl _) hw
    | with_reducible apply State.setOut_keeps
    | with_reducible apply Keeps.ite
    | split

theorem execScClr_keeps (h : Keeps m s0 s) (hw : Within [.reg .ERR_CODE_CODE, .reg .ERR_CODE_MASTER, .reg .ERR_CODE_OVF, .reg
    .ERR_CODE_WORD, .reg .ERR_CODE_WRITE, .reg .POWER_STATUS_ENTERING, .reg .POWER_STATUS_EXITING, .reg .POWER_WAKE_STAT_CLASS, .reg
    .POWER_WAKE_STAT_FROM, .outs, .pwr] m) (a1 : Master) (a2 : Chan) : Ends m s0 (execScClr a1 a2 s) := by
  unfold execScClr
  try dsimp only
  repeat' first
    | with_reducible assumption
    | exact Within.trans (Eq.refl _) hw
    | (intro _)
    | with_reducible apply cmd_keeps
    | with_reducible apply requestFoldEnd_keeps
    | with_reducible apply Ends.ite
    | with_reducible apply Ends.next
    | split

theorem writeProtCfg_keeps (h : Keeps m s0 s) (hw : Within [.reg .OUT_PROTCFG_AUTO_RETRY, .outs] m) (a1 : Nat) (a2 : Nat) : Keeps m s0
    (writeProtCfg a1 a2 s) := by
  unfold writeProtCfg
  try dsimp only
  repeat' first
    | with_reducible assumption
    | exact Within.trans (Eq.refl _) hw
    | with_reducible apply wr_keeps
    | with_reducible apply requestFoldEnd_keeps
    | with_reducible apply Keeps.ite
    | split

theorem execFoldbackRetry_keeps (h : Keeps m s0 s) (hw : Within [.outs] m) (a1 : Chan) : Ends m s0 (execFoldbackRetry a1 s) := by
  unfold execFoldbackRetry
  try dsimp only
  repeat' first
    | with_reducible assumption
    | exact Within.trans (Eq.refl _) hw
    | (intro _)
    | with_reducible apply on_keeps
    | with_reducible apply act_keeps
    | with_reducible apply requestFoldEnd_keeps
    | with_reducible apply Ends.ite
    | with_reducible apply Ends.next
    | split

theorem execFoldbackEnd_keeps (h : Keeps m s0 s) (hw : Within [.reg .OUT_STATUS_FOLDBACK, .outs] m) (a1 : Chan) : Ends m s0
    (execFoldbackEnd a1 s) := by
  unfold execFoldbackEnd
  try dsimp only
  repeat' first
    | with_reducible assumption
    | exact Within.trans (Eq.refl _) hw
    | (intro _)
    | with_reducible apply wr_keeps
    | with_reducible apply on_keeps
    | with_reducible apply act_keeps
    | with_reducible apply State.setOut_keeps
    | with_reducible apply Ends.ite
    | with_reducible apply Ends.next
    | split

theorem execOvertemp_keeps (h : Keeps m s0 s) (hw : Within [.reg .EVT_PEND_PEND, .reg .EVT_RAW_RAW, .reg .OUT_SC_CNT_OVERTEMPS, .reg
    .OUT_STATUS_FOLDBACK, .reg .OUT_STATUS_OVERTEMP, .presented, .outs] m) (a1 : Chan) : Ends m s0 (execOvertemp a1 s) := by
  unfold execOvertemp
  try dsimp only
  repeat' first
    | with_reducible assumption
    | exact Within.trans (Eq.refl _) hw
    | (intro _)
    | with_reducible apply wr_keeps
    | with_reducible apply inc_keeps
    | with_reducible apply on_keeps
    | with_reducible apply act_keeps
    | with_reducible apply State.setOut_keeps
    | with_reducible apply raise_keeps
    | with_reducible apply Ends.ite
    | with_reducible apply Ends.next
    | split

theorem execOvertempClear_keeps (h : Keeps m s0 s) (hw : Within [.reg .OUT_STATUS_OVERTEMP, .outs] m) (a1 : Chan) : Ends m s0
    (execOvertempClear a1 s) := by
  unfold execOvertempClear
  try dsimp only
  repeat' first
    | with_reducible assumption
    | exact Within.trans (Eq.refl _) hw
    | (intro _)
    | with_reducible apply wr_keeps
    | with_reducible apply on_keeps
    | with_reducible apply act_keeps
    | with_reducible apply State.setOut_keeps
    | with_reducible apply Ends.ite
    | with_reducible apply Ends.next
    | split

theorem loadRecord_keeps (h : Keeps m s0 s) (hw : Within [.reg .BURNISH_STATUS_ROTATING, .reg .EVT_PEND_PEND, .reg .EVT_RAW_RAW, .reg
    .OUT_NVM_STAT_ERR, .reg .OUT_NV_FAULT_VAL, .reg .OUT_NV_SAFE_VAL, .reg .OUT_NV_WAKE_SPAN, .reg .OUT_NV_WAKE_VAL, .reg
    .OUT_STAGECTL_PREFER, .reg .OUT_STATUS_HIGHZ, .reg .OUT_STATUS_NVM_BAD, .reg .SPARE_ELEM_TRIM_E, .reg .SPARE_GO_TRIM_GAIN, .reg
    .SPARE_GO_TRIM_OFFSET, .reg .SPARE_LADDER_TRIM_L, .reg .SPARE_STATUS_PHASE, .reg .SPARE_STATUS_VISIT_POS, .presented, .outs, .tiers] m)
    (a1 : Nat) : Keeps m s0 (loadRecord a1 s) := by
  unfold loadRecord
  try dsimp only
  repeat' first
    | with_reducible assumption
    | exact Within.trans (Eq.refl _) hw
    | with_reducible apply wr_keeps
    | with_reducible apply State.setOut_keeps
    | with_reducible apply disturb_keeps
    | with_reducible apply raise_keeps
    | with_reducible apply Keeps.ite
    | split

theorem writeNvmCmd_keeps (h : Keeps m s0 s) (hw : Within [.reg .ERR_CODE_CODE, .reg .ERR_CODE_MASTER, .reg .ERR_CODE_OVF, .reg
    .ERR_CODE_WORD, .reg .ERR_CODE_WRITE, .reg .OUT_NVM_STAT_BUSY, .reg .OUT_NVM_STAT_ERR, .outs, .nvmQueue] m) (a1 : Nat) (a2 : Nat) (a3 :
    Nat) : Keeps m s0 (writeNvmCmd a1 a2 a3 s) := by
  unfold writeNvmCmd
  try dsimp only
  repeat' first
    | with_reducible assumption
    | exact Within.trans (Eq.refl _) hw
    | with_reducible apply wr_keeps
    | with_reducible apply State.setOut_keeps
    | with_reducible apply recordErr_keeps
    | with_reducible apply Keeps.ite
    | split
    | (with_reducible apply Keeps.of_fields <;>
        first | with_reducible exact rfl | with_reducible exact Or.inl rfl | exact Or.inr (Within.trans (Eq.refl _) hw) | skip)

theorem execNvmProgram_keeps (h : Keeps m s0 s) (hw : Within [.reg .ERR_CODE_CODE, .reg .ERR_CODE_MASTER, .reg .ERR_CODE_OVF, .reg
    .ERR_CODE_WORD, .reg .ERR_CODE_WRITE, .reg .OUT_NVM_STAT_BUSY, .reg .OUT_NVM_STAT_ERR, .reg .POWER_STATUS_ENTERING, .reg
    .POWER_STATUS_EXITING, .reg .POWER_WAKE_STAT_CLASS, .reg .POWER_WAKE_STAT_FROM, .outs, .nvmQueue, .pwr] m) (a1 : Master) (a2 : Chan) (a3
    : Byte) : Ends m s0 (execNvmProgram a1 a2 a3 s) := by
  unfold execNvmProgram
  try dsimp only
  repeat' first
    | with_reducible assumption
    | exact Within.trans (Eq.refl _) hw
    | (intro _)
    | with_reducible apply cmd_keeps
    | with_reducible apply writeNvmCmd_keeps
    | with_reducible apply Ends.ite
    | with_reducible apply Ends.next
    | split

theorem execNvmReload_keeps (h : Keeps m s0 s) (hw : Within [.reg .ERR_CODE_CODE, .reg .ERR_CODE_MASTER, .reg .ERR_CODE_OVF, .reg
    .ERR_CODE_WORD, .reg .ERR_CODE_WRITE, .reg .OUT_NVM_STAT_BUSY, .reg .OUT_NVM_STAT_ERR, .reg .POWER_STATUS_ENTERING, .reg
    .POWER_STATUS_EXITING, .reg .POWER_WAKE_STAT_CLASS, .reg .POWER_WAKE_STAT_FROM, .outs, .nvmQueue, .pwr] m) (a1 : Master) (a2 : Chan) (a3
    : Byte) : Ends m s0 (execNvmReload a1 a2 a3 s) := by
  unfold execNvmReload
  try dsimp only
  repeat' first
    | with_reducible assumption
    | exact Within.trans (Eq.refl _) hw
    | (intro _)
    | with_reducible apply cmd_keeps
    | with_reducible apply writeNvmCmd_keeps
    | with_reducible apply Ends.ite
    | with_reducible apply Ends.next
    | split

theorem programDone_keeps (h : Keeps m s0 s) (hw : Within [.reg .OUT_NVM_STAT_CYCLES, .reg .OUT_NVM_STAT_ERR, .outs] m) (a1 : Nat) (a2 :
    Bool) : Keeps m s0 (programDone a1 a2 s) := by
  unfold programDone
  try dsimp only
  repeat' first
    | with_reducible assumption
    | exact Within.trans (Eq.refl _) hw
    | with_reducible apply wr_keeps
    | with_reducible apply State.setOut_keeps
    | with_reducible apply Keeps.ite
    | split

theorem riseWake_keeps (h : Keeps m s0 s) (hw : Within [.reg .EVT_PEND_PEND, .reg .EVT_RAW_RAW, .presented, .outs] m) (a1 : Nat) : Keeps
    m s0 (riseWake a1 s) := by
  unfold riseWake
  try dsimp only
  repeat' first
    | with_reducible assumption
    | exact Within.trans (Eq.refl _) hw
    | with_reducible apply State.setOut_keeps
    | with_reducible apply showVolt_keeps

theorem reloadDone_keeps (h : Keeps m s0 s) (hw : Within [.reg .BURNISH_STATUS_ROTATING, .reg .EVT_PEND_PEND, .reg .EVT_RAW_RAW, .reg
    .OUT_NVM_STAT_ERR, .reg .OUT_NV_FAULT_VAL, .reg .OUT_NV_SAFE_VAL, .reg .OUT_NV_WAKE_SPAN, .reg .OUT_NV_WAKE_VAL, .reg
    .OUT_STAGECTL_PREFER, .reg .OUT_STATUS_HIGHZ, .reg .OUT_STATUS_NVM_BAD, .reg .OUT_STATUS_SPAN_NOW, .reg .POWER_STATUS_ENTERING, .reg
    .POWER_STATUS_EXITING, .reg .POWER_WAKE_STAT_CLASS, .reg .POWER_WAKE_STAT_FROM, .reg .SPARE_ELEM_TRIM_E, .reg .SPARE_GO_TRIM_GAIN, .reg
    .SPARE_GO_TRIM_OFFSET, .reg .SPARE_LADDER_TRIM_L, .reg .SPARE_STATUS_PHASE, .reg .SPARE_STATUS_VISIT_POS, .presented, .outs, .pwr,
    .tiers] m) (a1 : Nat) (a2 : Bool) : Keeps m s0 (reloadDone a1 a2 s) := by
  unfold reloadDone
  try dsimp only
  repeat' first
    | with_reducible assumption
    | exact Within.trans (Eq.refl _) hw
    | with_reducible apply wr_keeps
    | with_reducible apply wrIf_keeps
    | with_reducible apply State.setOut_keeps
    | with_reducible apply loadRecord_keeps
    | with_reducible apply riseWake_keeps
    | with_reducible apply wake_keeps
    | with_reducible apply Keeps.ite
    | split

theorem execNvmDone_keeps (h : Keeps m s0 s) (hw : Within [.reg .BURNISH_STATUS_ROTATING, .reg .EVT_PEND_PEND, .reg .EVT_RAW_RAW, .reg
    .OUT_NVM_STAT_BUSY, .reg .OUT_NVM_STAT_CYCLES, .reg .OUT_NVM_STAT_DONE, .reg .OUT_NVM_STAT_ERR, .reg .OUT_NV_FAULT_VAL, .reg
    .OUT_NV_SAFE_VAL, .reg .OUT_NV_WAKE_SPAN, .reg .OUT_NV_WAKE_VAL, .reg .OUT_STAGECTL_PREFER, .reg .OUT_STATUS_HIGHZ, .reg
    .OUT_STATUS_NVM_BAD, .reg .OUT_STATUS_SPAN_NOW, .reg .POWER_STATUS_ENTERING, .reg .POWER_STATUS_EXITING, .reg .POWER_WAKE_STAT_CLASS,
    .reg .POWER_WAKE_STAT_FROM, .reg .SPARE_ELEM_TRIM_E, .reg .SPARE_GO_TRIM_GAIN, .reg .SPARE_GO_TRIM_OFFSET, .reg .SPARE_LADDER_TRIM_L,
    .reg .SPARE_STATUS_PHASE, .reg .SPARE_STATUS_VISIT_POS, .presented, .outs, .nvmQueue, .pwr, .tiers] m) (a1 : Chan) (a2 : Bool) : Ends m
    s0 (execNvmDone a1 a2 s) := by
  unfold execNvmDone
  try dsimp only
  repeat' first
    | with_reducible assumption
    | exact Within.trans (Eq.refl _) hw
    | (intro _)
    | with_reducible apply wr_keeps
    | with_reducible apply on_keeps
    | with_reducible apply act_keeps
    | with_reducible apply State.setOut_keeps
    | with_reducible apply programDone_keeps
    | with_reducible apply raise_keeps
    | with_reducible apply reloadDone_keeps
    | with_reducible apply Keeps.ite
    | with_reducible apply Ends.ite
    | with_reducible apply Ends.next
    | split
    | (with_reducible apply Keeps.of_fields <;>
        first | with_reducible exact rfl | with_reducible exact Or.inl rfl | exact Or.inr (Within.trans (Eq.refl _) hw) | skip)

theorem writeNvValue_keeps (h : Keeps m s0 s) (hw : Within [.reg .ERR_CODE_CODE, .reg .ERR_CODE_MASTER, .reg .ERR_CODE_OVF, .reg
    .ERR_CODE_WORD, .reg .ERR_CODE_WRITE, .reg .EVT_PEND_PEND, .reg .EVT_RAW_RAW, .reg .OUT_NV_FAULT_VAL, .reg .OUT_NV_SAFE_VAL, .reg
    .OUT_NV_WAKE_SPAN, .reg .OUT_NV_WAKE_VAL, .presented, .outs] m) (a1 : Nat) (a2 : Nat) (a3 : Nat) (a4 : Nat) : Keeps m s0 (writeNvValue
    a1 a2 a3 a4 s) := by
  unfold writeNvValue
  try dsimp only
  repeat' first
    | with_reducible assumption
    | exact Within.trans (Eq.refl _) hw
    | with_reducible apply wr_keeps
    | with_reducible apply State.setOut_keeps
    | with_reducible apply recordErr_keeps
    | with_reducible apply showVolt_keeps
    | with_reducible apply Keeps.ite
    | split

theorem execNvValueWrite_keeps (h : Keeps m s0 s) (hw : Within [.reg .ERR_CODE_CODE, .reg .ERR_CODE_MASTER, .reg .ERR_CODE_OVF, .reg
    .ERR_CODE_WORD, .reg .ERR_CODE_WRITE, .reg .EVT_PEND_PEND, .reg .EVT_RAW_RAW, .reg .OUT_NV_FAULT_VAL, .reg .OUT_NV_SAFE_VAL, .reg
    .OUT_NV_WAKE_SPAN, .reg .OUT_NV_WAKE_VAL, .reg .POWER_STATUS_ENTERING, .reg .POWER_STATUS_EXITING, .reg .POWER_WAKE_STAT_CLASS, .reg
    .POWER_WAKE_STAT_FROM, .presented, .outs, .pwr] m) (a1 : Master) (a2 : Chan) (a3 : Fin 3) (a4 : Word) : Ends m s0 (execNvValueWrite a1
    a2 a3 a4 s) := by
  unfold execNvValueWrite
  try dsimp only
  repeat' first
    | with_reducible assumption
    | exact Within.trans (Eq.refl _) hw
    | (intro _)
    | with_reducible apply cmd_keeps
    | with_reducible apply writeNvValue_keeps
    | with_reducible apply Ends.ite
    | with_reducible apply Ends.next
    | split

theorem writeOutEnable_keeps (h : Keeps m s0 s) (hw : Within [.reg .BURNISH_STATUS_ROTATING, .reg .CTRL_ENABLE, .reg .EVT_PEND_PEND,
    .reg .EVT_RAW_RAW, .reg .OUT_STATUS_FALLBACK, .reg .OUT_STATUS_SPAN_BUSY, .reg .SPARE_ELEM_TRIM_E, .reg .SPARE_GO_TRIM_GAIN, .reg
    .SPARE_GO_TRIM_OFFSET, .reg .SPARE_LADDER_TRIM_L, .reg .SPARE_STATUS_PHASE, .reg .SPARE_STATUS_VISIT_POS, .presented, .outs, .tiers] m)
    (a1 : Nat) (a2 : Bool) : Keeps m s0 (writeOutEnable a1 a2 s) := by
  unfold writeOutEnable
  try dsimp only
  repeat' first
    | with_reducible assumption
    | exact Within.trans (Eq.refl _) hw
    | with_reducible apply wr_keeps
    | with_reducible apply State.setOut_keeps
    | with_reducible apply goWake_keeps
    | with_reducible apply refreshFallback_keeps
    | with_reducible apply showFault_keeps
    | with_reducible apply Keeps.ite
    | split

theorem execOutEnableWrite_keeps (h : Keeps m s0 s) (hw : Within [.reg .BURNISH_STATUS_ROTATING, .reg .CTRL_ENABLE, .reg .ERR_CODE_CODE,
    .reg .ERR_CODE_MASTER, .reg .ERR_CODE_OVF, .reg .ERR_CODE_WORD, .reg .ERR_CODE_WRITE, .reg .EVT_PEND_PEND, .reg .EVT_RAW_RAW, .reg
    .OUT_STATUS_FALLBACK, .reg .OUT_STATUS_SPAN_BUSY, .reg .POWER_STATUS_ENTERING, .reg .POWER_STATUS_EXITING, .reg .POWER_WAKE_STAT_CLASS,
    .reg .POWER_WAKE_STAT_FROM, .reg .SPARE_ELEM_TRIM_E, .reg .SPARE_GO_TRIM_GAIN, .reg .SPARE_GO_TRIM_OFFSET, .reg .SPARE_LADDER_TRIM_L,
    .reg .SPARE_STATUS_PHASE, .reg .SPARE_STATUS_VISIT_POS, .presented, .outs, .pwr, .tiers] m) (a1 : Master) (a2 : Chan) (a3 : Bool) : Ends
    m s0 (execOutEnableWrite a1 a2 a3 s) := by
  unfold execOutEnableWrite
  try dsimp only
  repeat' first
    | with_reducible assumption
    | exact Within.trans (Eq.refl _) hw
    | (intro _)
    | with_reducible apply cmd_keeps
    | with_reducible apply writeOutEnable_keeps
    | with_reducible apply Ends.ite
    | with_reducible apply Ends.next
    | split

theorem resetOut_keeps (h : Keeps m s0 s) (hw : Within [.reg .BURNISH_STATUS_ROTATING, .reg .CTRL_ENABLE, .reg .EVT_PEND_PEND, .reg
    .EVT_RAW_RAW, .reg .OUT_FAULT_CTL_FORCE, .reg .OUT_FAULT_STAT_CORE_LOST, .reg .OUT_FAULT_STAT_FORCED, .reg .OUT_FAULT_STAT_REPEAT_FAIL,
    .reg .OUT_FAULT_STAT_SQ_UNDERRUN, .reg .OUT_FAULT_STAT_WATCHDOG, .reg .OUT_NVM_STAT_ERR, .reg .OUT_NV_FAULT_VAL, .reg .OUT_NV_SAFE_VAL,
    .reg .OUT_NV_WAKE_SPAN, .reg .OUT_NV_WAKE_VAL, .reg .OUT_STAGECTL_PREFER, .reg .OUT_STATUS_FALLBACK, .reg .OUT_STATUS_HIGHZ, .reg
    .OUT_STATUS_NVM_BAD, .reg .OUT_STATUS_SPAN_BUSY, .reg .SPARE_ELEM_TRIM_E, .reg .SPARE_GO_TRIM_GAIN, .reg .SPARE_GO_TRIM_OFFSET, .reg
    .SPARE_LADDER_TRIM_L, .reg .SPARE_STATUS_PHASE, .reg .SPARE_STATUS_VISIT_POS, .presented, .outs, .tiers] m) (a1 : Nat) : Keeps m s0
    (resetOut a1 s) := by
  unfold resetOut
  try dsimp only
  repeat' first
    | with_reducible assumption
    | exact Within.trans (Eq.refl _) hw
    | with_reducible apply wr_keeps
    | with_reducible apply State.setOut_keeps
    | with_reducible apply goWake_keeps
    | with_reducible apply loadRecord_keeps
    | with_reducible apply raise_keeps
    | with_reducible apply refreshFallback_keeps
    | with_reducible apply Keeps.ite
    | split

theorem dropCommits_keeps (h : Keeps m s0 s) (hw : Within [.reg .SHADOW_CMD_PENDING, .commits] m) (a1 : Page) (a2 : Nat) : Keeps m s0
    (dropCommits a1 a2 s) := by
  unfold dropCommits
  try dsimp only
  repeat' first
    | with_reducible assumption
    | exact Within.trans (Eq.refl _) hw
    | (intro _)
    | with_reducible apply wr_keeps
    | (with_reducible apply Keeps.of_fields <;>
        first | with_reducible exact rfl | with_reducible exact Or.inl rfl | exact Or.inr (Within.trans (Eq.refl _) hw) | skip)

theorem execOutSoftReset_keeps (h : Keeps m s0 s) (hw : Within [.reg .BURNISH_STATUS_ROTATING, .reg .CTRL_ENABLE, .reg .ERR_CODE_CODE,
    .reg .ERR_CODE_MASTER, .reg .ERR_CODE_OVF, .reg .ERR_CODE_WORD, .reg .ERR_CODE_WRITE, .reg .EVT_PEND_PEND, .reg .EVT_RAW_RAW, .reg
    .OUT_FAULT_CTL_FORCE, .reg .OUT_FAULT_STAT_CORE_LOST, .reg .OUT_FAULT_STAT_FORCED, .reg .OUT_FAULT_STAT_REPEAT_FAIL, .reg
    .OUT_FAULT_STAT_SQ_UNDERRUN, .reg .OUT_FAULT_STAT_WATCHDOG, .reg .OUT_NVM_STAT_ERR, .reg .OUT_NV_FAULT_VAL, .reg .OUT_NV_SAFE_VAL, .reg
    .OUT_NV_WAKE_SPAN, .reg .OUT_NV_WAKE_VAL, .reg .OUT_STAGECTL_PREFER, .reg .OUT_STATUS_FALLBACK, .reg .OUT_STATUS_HIGHZ, .reg
    .OUT_STATUS_NVM_BAD, .reg .OUT_STATUS_SPAN_BUSY, .reg .POWER_STATUS_ENTERING, .reg .POWER_STATUS_EXITING, .reg .POWER_WAKE_STAT_CLASS,
    .reg .POWER_WAKE_STAT_FROM, .reg .SHADOW_CMD_PENDING, .reg .SPARE_ELEM_TRIM_E, .reg .SPARE_GO_TRIM_GAIN, .reg .SPARE_GO_TRIM_OFFSET,
    .reg .SPARE_LADDER_TRIM_L, .reg .SPARE_STATUS_PHASE, .reg .SPARE_STATUS_VISIT_POS, .presented, .commits, .outs, .pwr, .tiers] m) (a1 :
    Master) (a2 : Chan) : Ends m s0 (execOutSoftReset a1 a2 s) := by
  unfold execOutSoftReset
  try dsimp only
  repeat' first
    | with_reducible assumption
    | exact Within.trans (Eq.refl _) hw
    | (intro _)
    | with_reducible apply cmd_keeps
    | with_reducible apply dropCommits_keeps
    | with_reducible apply resetOut_keeps
    | with_reducible apply Ends.ite
    | with_reducible apply Ends.next
    | split

theorem popQueue_keeps (h : Keeps m s0 s) (hw : Within [.outs] m) (a1 : Nat) : Keeps m s0 (popQueue a1 s).2 := by
  unfold popQueue
  try dsimp only
  repeat' first
    | with_reducible assumption
    | exact Within.trans (Eq.refl _) hw
    | with_reducible apply State.setOut_keeps
    | split

theorem fillQueue_keeps (h : Keeps m s0 s) (hw : Within [.outs] m) (a1 : Nat) : Keeps m s0 (fillQueue a1 s) := by
  unfold fillQueue
  try dsimp only
  repeat' first
    | with_reducible assumption
    | exact Within.trans (Eq.refl _) hw
    | with_reducible apply State.setOut_keeps

theorem pushCodes_keeps (h : Keeps m s0 s) (hw : Within [.outs] m) (a1 : Nat) (a2 : List SqEntry) : Keeps m s0 (pushCodes a1 a2 s) := by
  unfold pushCodes
  try dsimp only
  repeat' first
    | with_reducible assumption
    | exact Within.trans (Eq.refl _) hw
    | with_reducible apply State.setOut_keeps
    | with_reducible apply fillQueue_keeps

theorem underrunTick_keeps (h : Keeps m s0 s) (hw : Within [.reg .EVT_PEND_PEND, .reg .EVT_RAW_RAW, .reg .OUT_SQ_UCNT_COUNT, .presented,
    .cses, .outs] m) (a1 : Nat) : Keeps m s0 (underrunTick a1 s) := by
  unfold underrunTick
  try dsimp only
  repeat' first
    | with_reducible assumption
    | exact Within.trans (Eq.refl _) hw
    | with_reducible apply inc_keeps
    | with_reducible apply State.setCse_keeps
    | with_reducible apply State.setOut_keeps
    | with_reducible apply raise_keeps
    | with_reducible apply Keeps.ite
    | split

theorem entrySignals_keeps (h : Keeps m s0 s) (hw : Within [.reg .EVT_PEND_PEND, .reg .EVT_RAW_RAW, .reg .PAT_PAT_DROP_COUNT,
    .presented, .outs, .pins] m) (a1 : Nat) (a2 : SqEntry) : Keeps m s0 (entrySignals a1 a2 s) := by
  unfold entrySignals
  try dsimp only
  repeat' first
    | with_reducible assumption
    | exact Within.trans (Eq.refl _) hw
    | with_reducible apply patternBits_keeps
    | with_reducible apply setMarkers_keeps
    | split

theorem dacTake_keeps (h : Keeps m s0 s) (hw : Within [.outs] m) (a1 : Nat) (a2 : Nat) : Keeps m s0 (dacTake a1 a2 s) := by
  unfold dacTake
  try dsimp only
  repeat' first
    | with_reducible assumption
    | exact Within.trans (Eq.refl _) hw
    | with_reducible apply State.setOut_keeps
    | with_reducible apply Keeps.ite
    | split

theorem edgeRequests_keeps (h : Keeps m s0 s) (hw : Within [.reg .EVT_PEND_PEND, .reg .EVT_RAW_RAW, .reg .OUT_FAULT_STAT_CORE_LOST, .reg
    .OUT_FAULT_STAT_FORCED, .reg .OUT_STATUS_FALLBACK, .reg .OUT_STATUS_SENSE_LOCAL, .presented, .outs] m) (a1 : Nat) : Keeps m s0
    (edgeRequests a1 s) := by
  unfold edgeRequests
  try dsimp only
  repeat' first
    | with_reducible assumption
    | exact Within.trans (Eq.refl _) hw
    | with_reducible apply wr_keeps
    | with_reducible apply State.setOut_keeps
    | with_reducible apply setCoreLost_keeps
    | with_reducible apply showVolt_keeps
    | with_reducible apply Keeps.ite
    | split

theorem takeLatch_keeps (h : Keeps m s0 s) (hw : Within [.outs] m) (a1 : Nat) (a2 : SqEntry) : Keeps m s0 (takeLatch a1 a2 s) := by
  unfold takeLatch
  try dsimp only
  repeat' first
    | with_reducible assumption
    | exact Within.trans (Eq.refl _) hw
    | with_reducible apply State.setOut_keeps
    | with_reducible apply Keeps.ite
    | split

theorem chanEdge_keeps (h : Keeps m s0 s) (hw : Within [.reg .EVT_PEND_PEND, .reg .EVT_RAW_RAW, .reg .OUT_FAULT_STAT_CORE_LOST, .reg
    .OUT_FAULT_STAT_FORCED, .reg .OUT_SQ_UCNT_COUNT, .reg .OUT_STATUS_FALLBACK, .reg .OUT_STATUS_SENSE_LOCAL, .reg .PAT_PAT_DROP_COUNT,
    .presented, .cses, .outs, .pins] m) (a1 : Nat) : Keeps m s0 (chanEdge a1 s) := by
  unfold chanEdge
  try dsimp only
  repeat' first
    | with_reducible assumption
    | exact Within.trans (Eq.refl _) hw
    | with_reducible apply State.setOut_keeps
    | with_reducible apply dacTake_keeps
    | with_reducible apply edgeRequests_keeps
    | with_reducible apply entrySignals_keeps
    | with_reducible apply popQueue_keeps
    | with_reducible apply takeLatch_keeps
    | with_reducible apply underrunTick_keeps
    | with_reducible apply Keeps.ite
    | split
    | with_reducible refine Keeps.of_snd (by assumption) ?_

theorem quadEdge_keeps (h : Keeps m s0 s) (hw : Within [.reg .EVT_PEND_PEND, .reg .EVT_RAW_RAW, .reg .OUT_FAULT_STAT_CORE_LOST, .reg
    .OUT_FAULT_STAT_FORCED, .reg .OUT_SQ_UCNT_COUNT, .reg .OUT_STATUS_FALLBACK, .reg .OUT_STATUS_SENSE_LOCAL, .reg .PAT_PAT_DROP_COUNT, .reg
    .QCLK_SAMPLE_HI_N_HI, .reg .QCLK_SAMPLE_LO_N_LO, .presented, .clocks, .cses, .outs, .pins] m) (a1 : Nat) : Keeps m s0 (quadEdge a1 s) :=
    by
  unfold quadEdge
  try dsimp only
  repeat' first
    | with_reducible assumption
    | exact Within.trans (Eq.refl _) hw
    | (intro _)
    | with_reducible apply wr64_keeps
    | with_reducible apply each_keeps
    | with_reducible apply State.setClock_keeps
    | with_reducible apply chanEdge_keeps

theorem execQuadSampleEdge_keeps (h : Keeps m s0 s) (hw : Within [.reg .EVT_PEND_PEND, .reg .EVT_RAW_RAW, .reg
    .OUT_FAULT_STAT_CORE_LOST, .reg .OUT_FAULT_STAT_FORCED, .reg .OUT_SQ_UCNT_COUNT, .reg .OUT_STATUS_FALLBACK, .reg
    .OUT_STATUS_SENSE_LOCAL, .reg .PAT_PAT_DROP_COUNT, .reg .QCLK_SAMPLE_HI_N_HI, .reg .QCLK_SAMPLE_LO_N_LO, .presented, .clocks, .cses,
    .outs, .pins] m) (a1 : Quad) : Ends m s0 (execQuadSampleEdge a1 s) := by
  unfold execQuadSampleEdge
  try dsimp only
  repeat' first
    | with_reducible assumption
    | exact Within.trans (Eq.refl _) hw
    | (intro _)
    | with_reducible apply on_keeps
    | with_reducible apply act_keeps
    | with_reducible apply quadEdge_keeps
    | with_reducible apply Ends.ite
    | with_reducible apply Ends.next
    | split

theorem bindUpdate_keeps (h : Keeps m s0 s) (hw : Within [.reg .EVT_PEND_PEND, .reg .EVT_RAW_RAW, .reg .OUT_STATUS_GANG_ACTIVE,
    .presented, .outs] m) (a1 : Nat) (a2 : Nat) (a3 : Nat) : Keeps m s0 (bindUpdate a1 a2 a3 s) := by
  unfold bindUpdate
  try dsimp only
  repeat' first
    | with_reducible assumption
    | exact Within.trans (Eq.refl _) hw
    | with_reducible apply wr_keeps
    | with_reducible apply State.setOut_keeps
    | with_reducible apply popQueue_keeps
    | with_reducible apply raise_keeps
    | with_reducible apply Keeps.ite
    | split
    | with_reducible refine Keeps.of_snd (by assumption) ?_

theorem leaveGang_keeps (h : Keeps m s0 s) (hw : Within [.reg .EVT_PEND_PEND, .reg .EVT_RAW_RAW, .reg .OUT_STATUS_GANG_ACTIVE,
    .presented] m) (a1 : Nat) : Keeps m s0 (leaveGang a1 s) := by
  unfold leaveGang
  try dsimp only
  repeat' first
    | with_reducible assumption
    | exact Within.trans (Eq.refl _) hw
    | with_reducible apply wr_keeps
    | with_reducible apply raise_keeps
    | with_reducible apply Keeps.ite
    | split

theorem checkGang_keeps (h : Keeps m s0 s) (hw : Within [.reg .EVT_PEND_PEND, .reg .EVT_RAW_RAW, .reg .OUT_STATUS_GANG_ACTIVE,
    .presented] m) (a1 : Nat) (a2 : Nat) : Keeps m s0 (checkGang a1 a2 s) := by
  unfold checkGang
  try dsimp only
  repeat' first
    | with_reducible assumption
    | exact Within.trans (Eq.refl _) hw
    | (intro _)
    | with_reducible apply each_keeps
    | with_reducible apply leaveGang_keeps
    | with_reducible apply raise_keeps
    | with_reducible apply Keeps.ite
    | split

theorem strobeChan_keeps (h : Keeps m s0 s) (hw : Within [.outs] m) (a1 : Nat) (a2 : Nat) : Keeps m s0 (strobeChan a1 a2 s) := by
  unfold strobeChan
  try dsimp only
  repeat' first
    | with_reducible assumption
    | exact Within.trans (Eq.refl _) hw
    | with_reducible apply State.setOut_keeps
    | with_reducible apply dacTake_keeps
    | with_reducible apply Keeps.ite
    | split

theorem issueStrobe_keeps (h : Keeps m s0 s) (hw : Within [.reg .TBASE_GSTB_STAT_STROBES, .outs, .pins] m) (a1 : Nat) : Keeps m s0
    (issueStrobe a1 s) := by
  unfold issueStrobe
  try dsimp only
  repeat' first
    | with_reducible assumption
    | exact Within.trans (Eq.refl _) hw
    | (intro _)
    | with_reducible apply wr_keeps
    | with_reducible apply each_keeps
    | with_reducible apply strobeChan_keeps
    | with_reducible apply strobePins_keeps
    | with_reducible apply Keeps.ite
    | split

end Sys2Proof.Machine
end

