-- ==== Sys2Proof/Laws/BurnishKeeps.lean ====
section
/-! SUPPORT. What the operations of Machine/Burnish.lean keep: the queue, the invariant, and every part outside their footprint. -/

set_option maxRecDepth 4000
set_option linter.unusedTactic false
set_option linter.unreachableTactic false

namespace Sys2Proof.Machine

variable {m : Nat} {s0 s : State}

theorem setSpare_keeps (h : Keeps m s0 s) (hw : Within [.reg .SPARE_STATUS_SPARE_CORE, .reg .SPARE_STATUS_SPARE_FREE, .tiers] m) (a1 :
    Nat) (a2 : Nat) : Keeps m s0 (setSpare a1 a2 s) := by
  unfold setSpare
  try dsimp only
  repeat' first
    | with_reducible assumption
    | exact Within.trans (Eq.refl _) hw
    | with_reducible apply wr_keeps
    | with_reducible apply State.setTier_keeps
    | with_reducible apply Keeps.ite
    | split

theorem noSpareEvent_keeps (h : Keeps m s0 s) (hw : Within [.reg .EVT_PEND_PEND, .reg .EVT_RAW_RAW, .presented, .tiers] m) (a1 : Nat) :
    Keeps m s0 (noSpareEvent a1 s) := by
  unfold noSpareEvent
  try dsimp only
  repeat' first
    | with_reducible assumption
    | exact Within.trans (Eq.refl _) hw
    | with_reducible apply State.setTier_keeps
    | with_reducible apply raise_keeps
    | with_reducible apply Keeps.ite
    | split

theorem setCal_keeps (h : Keeps m s0 s) (hw : Within [.reg .SPARE_STATUS_CAL_CORE] m) (a1 : Nat) (a2 : Nat) : Keeps m s0 (setCal a1 a2
    s) := by
  unfold setCal
  try dsimp only
  repeat' first
    | with_reducible assumption
    | exact Within.trans (Eq.refl _) hw
    | with_reducible apply wr_keeps

theorem touchMap_keeps (h : Keeps m s0 s) (hw : Within [.tiers] m) (a1 : Nat) (a2 : Bool) : Keeps m s0 (touchMap a1 a2 s) := by
  unfold touchMap
  try dsimp only
  repeat' first
    | with_reducible assumption
    | exact Within.trans (Eq.refl _) hw
    | with_reducible apply State.setTier_keeps

theorem setMonitor_keeps (h : Keeps m s0 s) (hw : Within [.reg .SPARE_MON_DEV_GAIN, .reg .SPARE_MON_DEV_OFFSET, .free] m) (a1 a2 : Nat)
    (a3 : List (List SenseSample)) :
    Keeps m s0 (setMonitor a1 a2 a3 s) := by
  induction a3 generalizing s a2 with
  | nil => exact h
  | cons x xs ih =>
    exact ih (writeField16_keeps (writeField16_keeps h _ (Within.trans (Eq.refl _) hw) (Within.trans (Eq.refl _) hw) ..) _
      (Within.trans (Eq.refl _) hw) (Within.trans (Eq.refl _) hw) ..) _

theorem execRotationStart_keeps (h : Keeps m s0 s) (hw : Within [.reg .BURNISH_STATUS_ROTATING, .reg .EVT_PEND_PEND, .reg .EVT_RAW_RAW,
    .reg .SPARE_MON_DEV_GAIN, .reg .SPARE_MON_DEV_OFFSET, .reg .SPARE_STATUS_PHASE, .reg .SPARE_STATUS_VISIT_POS, .presented, .tiers, .free]
    m) (a1 : Tier) (a2 : List (List SenseSample)) : Ends m s0 (execRotationStart a1 a2 s) := by
  unfold execRotationStart
  try dsimp only
  repeat' first
    | with_reducible assumption
    | exact Within.trans (Eq.refl _) hw
    | (intro _)
    | with_reducible apply on_keeps
    | with_reducible apply act_keeps
    | with_reducible apply noSpareEvent_keeps
    | with_reducible apply setMonitor_keeps
    | with_reducible apply setPhase_keeps
    | with_reducible apply startVisit_keeps
    | with_reducible apply Keeps.ite
    | with_reducible apply Ends.ite
    | with_reducible apply Ends.next
    | split
    | with_reducible refine Keeps.of_snd (by assumption) ?_

theorem visitRequest_keeps (h : Keeps m s0 s) (hw : Within [.reg .BURNISH_STATUS_ROTATING, .reg .ERR_CODE_CODE, .reg .ERR_CODE_MASTER,
    .reg .ERR_CODE_OVF, .reg .ERR_CODE_WORD, .reg .ERR_CODE_WRITE, .reg .SPARE_STATUS_VISIT_POS, .tiers] m) (a1 : Nat) (a2 : Nat) (a3 : Nat)
    : Keeps m s0 (visitRequest a1 a2 a3 s) := by
  unfold visitRequest
  try dsimp only
  repeat' first
    | with_reducible assumption
    | exact Within.trans (Eq.refl _) hw
    | with_reducible apply State.setTier_keeps
    | with_reducible apply actionErr_keeps
    | with_reducible apply takeVisitReq_keeps
    | with_reducible apply Keeps.ite
    | split

theorem execVisitReq_keeps (h : Keeps m s0 s) (hw : Within [.reg .BURNISH_STATUS_ROTATING, .reg .ERR_CODE_CODE, .reg .ERR_CODE_MASTER,
    .reg .ERR_CODE_OVF, .reg .ERR_CODE_WORD, .reg .ERR_CODE_WRITE, .reg .POWER_STATUS_ENTERING, .reg .POWER_STATUS_EXITING, .reg
    .POWER_WAKE_STAT_CLASS, .reg .POWER_WAKE_STAT_FROM, .reg .SPARE_STATUS_VISIT_POS, .pwr, .tiers] m) (a1 : Master) (a2 : Tier) (a3 : Fin
    16) : Ends m s0 (execVisitReq a1 a2 a3 s) := by
  unfold execVisitReq
  try dsimp only
  repeat' first
    | with_reducible assumption
    | exact Within.trans (Eq.refl _) hw
    | (intro _)
    | with_reducible apply cmd_keeps
    | with_reducible apply visitRequest_keeps
    | with_reducible apply Ends.ite
    | with_reducible apply Ends.next
    | split

theorem shadow_keeps (h : Keeps m s0 s) (hw : Within [.reg .SPARE_STATUS_PHASE, .tiers] m) (a1 : Nat) : Keeps m s0 (shadow a1 s) := by
  unfold shadow
  try dsimp only
  repeat' first
    | with_reducible assumption
    | exact Within.trans (Eq.refl _) hw
    | with_reducible apply State.setTier_keeps
    | with_reducible apply setPhase_keeps

theorem execShadowStart_keeps (h : Keeps m s0 s) (hw : Within [.reg .BURNISH_STATUS_ROTATING, .reg .SPARE_ELEM_TRIM_E, .reg
    .SPARE_GO_TRIM_GAIN, .reg .SPARE_GO_TRIM_OFFSET, .reg .SPARE_LADDER_TRIM_L, .reg .SPARE_STATUS_PHASE, .reg .SPARE_STATUS_VISIT_POS,
    .tiers] m) (a1 : Tier) : Ends m s0 (execShadowStart a1 s) := by
  unfold execShadowStart
  try dsimp only
  repeat' first
    | with_reducible assumption
    | exact Within.trans (Eq.refl _) hw
    | (intro _)
    | with_reducible apply on_keeps
    | with_reducible apply act_keeps
    | with_reducible apply cancelVisit_keeps
    | with_reducible apply shadow_keeps
    | with_reducible apply Keeps.ite
    | with_reducible apply Ends.ite
    | with_reducible apply Ends.next
    | split

theorem execMatchStart_keeps (h : Keeps m s0 s) (hw : Within [.reg .BURNISH_STATUS_ROTATING, .reg .SPARE_ELEM_TRIM_E, .reg
    .SPARE_GO_TRIM_GAIN, .reg .SPARE_GO_TRIM_OFFSET, .reg .SPARE_LADDER_TRIM_L, .reg .SPARE_STATUS_PHASE, .reg .SPARE_STATUS_VISIT_POS,
    .tiers] m) (a1 : Tier) : Ends m s0 (execMatchStart a1 s) := by
  unfold execMatchStart
  try dsimp only
  repeat' first
    | with_reducible assumption
    | exact Within.trans (Eq.refl _) hw
    | (intro _)
    | with_reducible apply on_keeps
    | with_reducible apply act_keeps
    | with_reducible apply cancelVisit_keeps
    | with_reducible apply enterWindow_keeps
    | with_reducible apply Keeps.ite
    | with_reducible apply Ends.ite
    | with_reducible apply Ends.next
    | split

theorem loseCore_keeps (h : Keeps m s0 s) (hw : Within [.reg .OUT_FAULT_STAT_CORE_LOST, .reg .OUT_STATUS_FALLBACK, .outs] m) (a1 : Nat)
    : Keeps m s0 (loseCore a1 s) := by
  unfold loseCore
  try dsimp only
  repeat' first
    | with_reducible assumption
    | exact Within.trans (Eq.refl _) hw
    | with_reducible apply State.setOut_keeps
    | with_reducible apply setCoreLost_keeps
    | with_reducible apply Keeps.ite
    | split

theorem abandonCal_keeps (h : Keeps m s0 s) (hw : Within [.reg .BURNISH_STATUS_ROTATING, .reg .SPARE_ELEM_TRIM_E, .reg
    .SPARE_GO_TRIM_GAIN, .reg .SPARE_GO_TRIM_OFFSET, .reg .SPARE_LADDER_TRIM_L, .reg .SPARE_STATUS_PHASE, .tiers] m) (a1 : Nat) : Keeps m s0
    (abandonCal a1 s) := by
  unfold abandonCal
  try dsimp only
  repeat' first
    | with_reducible assumption
    | exact Within.trans (Eq.refl _) hw
    | with_reducible apply wr_keeps
    | with_reducible apply State.setTier_keeps
    | with_reducible apply restoreTrim_keeps
    | with_reducible apply setPhase_keeps

theorem spareFailing_keeps (h : Keeps m s0 s) (hw : Within [.reg .BURNISH_STATUS_ROTATING, .reg .SPARE_ELEM_TRIM_E, .reg
    .SPARE_GO_TRIM_GAIN, .reg .SPARE_GO_TRIM_OFFSET, .reg .SPARE_LADDER_TRIM_L, .reg .SPARE_STATUS_PHASE, .tiers] m) (a1 : Nat) (a2 : Nat)
    (a3 : Bool) : Keeps m s0 (spareFailing a1 a2 a3 s) := by
  unfold spareFailing
  try dsimp only
  repeat' first
    | with_reducible assumption
    | exact Within.trans (Eq.refl _) hw
    | with_reducible apply State.setTier_keeps
    | with_reducible apply abandonCal_keeps
    | with_reducible apply Keeps.ite
    | split

theorem queueFailover_keeps (h : Keeps m s0 s) (hw : Within [.tiers] m) (a1 : Nat) (a2 : Nat) (a3 : Nat) (a4 : Bool) : Keeps m s0
    (queueFailover a1 a2 a3 a4 s) := by
  unfold queueFailover
  try dsimp only
  repeat' first
    | with_reducible assumption
    | exact Within.trans (Eq.refl _) hw
    | (intro _)
    | with_reducible apply State.setTier_keeps
    | with_reducible apply Keeps.ite
    | split

theorem requestFailover_keeps (h : Keeps m s0 s) (hw : Within [.reg .BURNISH_STATUS_ROTATING, .reg .OUT_FAULT_STAT_CORE_LOST, .reg
    .OUT_STATUS_FALLBACK, .reg .POWER_STATUS_ENTERING, .reg .POWER_STATUS_EXITING, .reg .POWER_WAKE_STAT_CLASS, .reg .POWER_WAKE_STAT_FROM,
    .reg .SPARE_ELEM_TRIM_E, .reg .SPARE_GO_TRIM_GAIN, .reg .SPARE_GO_TRIM_OFFSET, .reg .SPARE_LADDER_TRIM_L, .reg
    .SPARE_STATUS_FAILOVER_BUSY, .reg .SPARE_STATUS_PHASE, .reg .SPARE_STATUS_VISIT_POS, .outs, .pwr, .tiers] m) (a1 : Nat) (a2 : Nat) (a3 :
    Nat) (a4 : Bool) : Keeps m s0 (requestFailover a1 a2 a3 a4 s) := by
  unfold requestFailover
  try dsimp only
  repeat' first
    | with_reducible assumption
    | exact Within.trans (Eq.refl _) hw
    | with_reducible apply wr_keeps
    | with_reducible apply abandonCal_keeps
    | with_reducible apply endVisit_keeps
    | with_reducible apply loseCore_keeps
    | with_reducible apply queueFailover_keeps
    | with_reducible apply spareFailing_keeps
    | with_reducible apply wake_keeps
    | with_reducible apply Keeps.ite
    | split

theorem retireCore_keeps (h : Keeps m s0 s) (hw : Within [.reg .EVT_PEND_PEND, .reg .EVT_RAW_RAW, .reg .SPARE_CORE_STATE_ROLE, .reg
    .SPARE_FAIL_CNT_RETIRES, .presented] m) (a1 : Nat) (a2 : Nat) : Keeps m s0 (retireCore a1 a2 s) := by
  unfold retireCore
  try dsimp only
  repeat' first
    | with_reducible assumption
    | exact Within.trans (Eq.refl _) hw
    | with_reducible apply inc_keeps
    | with_reducible apply raise_keeps
    | with_reducible apply setRole_keeps

theorem failLeft_keeps (h : Keeps m s0 s) (hw : Within [.reg .OUT_FAULT_STAT_CORE_LOST, .reg .OUT_STATUS_FALLBACK, .reg
    .SPARE_STATUS_FAILOVER_BUSY, .outs, .tiers] m) (a1 : Nat) : Keeps m s0 (failLeft a1 s) := by
  unfold failLeft
  try dsimp only
  repeat' first
    | with_reducible assumption
    | exact Within.trans (Eq.refl _) hw
    | (intro _)
    | with_reducible apply wr_keeps
    | with_reducible apply each_keeps
    | with_reducible apply State.setTier_keeps
    | with_reducible apply loseCore_keeps
    | with_reducible apply Keeps.ite
    | split

theorem retireCal_keeps (h : Keeps m s0 s) (hw : Within [.reg .BURNISH_STATUS_ROTATING, .reg .EVT_PEND_PEND, .reg .EVT_RAW_RAW, .reg
    .OUT_FAULT_STAT_CORE_LOST, .reg .OUT_STATUS_CORE_SPARE, .reg .OUT_STATUS_FALLBACK, .reg .SPARE_CORE_MAP, .reg .SPARE_CORE_STATE_ROLE,
    .reg .SPARE_ELEM_TRIM_E, .reg .SPARE_FAIL_CNT_RETIRES, .reg .SPARE_GO_TRIM_GAIN, .reg .SPARE_GO_TRIM_OFFSET, .reg .SPARE_LADDER_TRIM_L,
    .reg .SPARE_STATUS_CAL_CORE, .reg .SPARE_STATUS_FAILOVER_BUSY, .reg .SPARE_STATUS_PHASE, .reg .SPARE_STATUS_SPARE_CORE, .reg
    .SPARE_STATUS_SPARE_FREE, .reg .SPARE_STATUS_VISIT_POS, .presented, .outs, .tiers] m) (a1 : Nat) : Keeps m s0 (retireCal a1 s) := by
  unfold retireCal
  try dsimp only
  repeat' first
    | with_reducible assumption
    | exact Within.trans (Eq.refl _) hw
    | with_reducible apply wr_keeps
    | with_reducible apply State.setTier_keeps
    | with_reducible apply endVisit_keeps
    | with_reducible apply failLeft_keeps
    | with_reducible apply loseCore_keeps
    | with_reducible apply noSpareEvent_keeps
    | with_reducible apply retireCore_keeps
    | with_reducible apply setCal_keeps
    | with_reducible apply setOwnCore_keeps
    | with_reducible apply setRole_keeps
    | with_reducible apply setSpare_keeps
    | with_reducible apply touchMap_keeps
    | with_reducible apply Keeps.ite
    | split

theorem retireSpare_keeps (h : Keeps m s0 s) (hw : Within [.reg .BURNISH_STATUS_ROTATING, .reg .EVT_PEND_PEND, .reg .EVT_RAW_RAW, .reg
    .OUT_FAULT_STAT_CORE_LOST, .reg .OUT_STATUS_FALLBACK, .reg .SPARE_CORE_STATE_ROLE, .reg .SPARE_ELEM_TRIM_E, .reg
    .SPARE_FAIL_CNT_RETIRES, .reg .SPARE_GO_TRIM_GAIN, .reg .SPARE_GO_TRIM_OFFSET, .reg .SPARE_LADDER_TRIM_L, .reg
    .SPARE_STATUS_FAILOVER_BUSY, .reg .SPARE_STATUS_PHASE, .reg .SPARE_STATUS_SPARE_CORE, .reg .SPARE_STATUS_SPARE_FREE, .reg
    .SPARE_STATUS_VISIT_POS, .presented, .outs, .tiers] m) (a1 : Nat) : Keeps m s0 (retireSpare a1 s) := by
  unfold retireSpare
  try dsimp only
  repeat' first
    | with_reducible assumption
    | exact Within.trans (Eq.refl _) hw
    | with_reducible apply endVisit_keeps
    | with_reducible apply failLeft_keeps
    | with_reducible apply noSpareEvent_keeps
    | with_reducible apply retireCore_keeps
    | with_reducible apply setSpare_keeps
    | with_reducible apply touchMap_keeps
    | with_reducible apply Keeps.ite
    | split

theorem coreFault_keeps (h : Keeps m s0 s) (hw : Within [.reg .BURNISH_STATUS_ROTATING, .reg .EVT_PEND_PEND, .reg .EVT_RAW_RAW, .reg
    .OUT_FAULT_STAT_CORE_LOST, .reg .OUT_STATUS_CORE_SPARE, .reg .OUT_STATUS_FALLBACK, .reg .POWER_STATUS_ENTERING, .reg
    .POWER_STATUS_EXITING, .reg .POWER_WAKE_STAT_CLASS, .reg .POWER_WAKE_STAT_FROM, .reg .SPARE_CORE_MAP, .reg .SPARE_CORE_STATE_ROLE, .reg
    .SPARE_ELEM_TRIM_E, .reg .SPARE_FAIL_CNT_RETIRES, .reg .SPARE_GO_TRIM_GAIN, .reg .SPARE_GO_TRIM_OFFSET, .reg .SPARE_LADDER_TRIM_L, .reg
    .SPARE_STATUS_CAL_CORE, .reg .SPARE_STATUS_FAILOVER_BUSY, .reg .SPARE_STATUS_PHASE, .reg .SPARE_STATUS_SPARE_CORE, .reg
    .SPARE_STATUS_SPARE_FREE, .reg .SPARE_STATUS_VISIT_POS, .presented, .outs, .pwr, .tiers] m) (a1 : Nat) (a2 : Nat) : Keeps m s0
    (coreFault a1 a2 s) := by
  unfold coreFault
  try dsimp only
  repeat' first
    | with_reducible assumption
    | exact Within.trans (Eq.refl _) hw
    | (intro _)
    | with_reducible apply requestFailover_keeps
    | with_reducible apply retireCal_keeps
    | with_reducible apply retireSpare_keeps
    | split

theorem execCoreHealthFault_keeps (h : Keeps m s0 s) (hw : Within [.reg .BURNISH_STATUS_ROTATING, .reg .EVT_PEND_PEND, .reg
    .EVT_RAW_RAW, .reg .OUT_FAULT_STAT_CORE_LOST, .reg .OUT_STATUS_CORE_SPARE, .reg .OUT_STATUS_FALLBACK, .reg .POWER_STATUS_ENTERING, .reg
    .POWER_STATUS_EXITING, .reg .POWER_WAKE_STAT_CLASS, .reg .POWER_WAKE_STAT_FROM, .reg .SPARE_CORE_MAP, .reg .SPARE_CORE_STATE_ROLE, .reg
    .SPARE_ELEM_TRIM_E, .reg .SPARE_FAIL_CNT_RETIRES, .reg .SPARE_GO_TRIM_GAIN, .reg .SPARE_GO_TRIM_OFFSET, .reg .SPARE_LADDER_TRIM_L, .reg
    .SPARE_STATUS_CAL_CORE, .reg .SPARE_STATUS_FAILOVER_BUSY, .reg .SPARE_STATUS_PHASE, .reg .SPARE_STATUS_SPARE_CORE, .reg
    .SPARE_STATUS_SPARE_FREE, .reg .SPARE_STATUS_VISIT_POS, .presented, .outs, .pwr, .tiers] m) (a1 : Tier) (a2 : Fin 13) : Ends m s0
    (execCoreHealthFault a1 a2 s) := by
  unfold execCoreHealthFault
  try dsimp only
  repeat' first
    | with_reducible assumption
    | exact Within.trans (Eq.refl _) hw
    | (intro _)
    | with_reducible apply act_keeps
    | with_reducible apply coreFault_keeps
    | with_reducible apply Ends.ite
    | with_reducible apply Ends.next
    | split

theorem hostFailover_keeps (h : Keeps m s0 s) (hw : Within [.reg .BURNISH_STATUS_ROTATING, .reg .ERR_CODE_CODE, .reg .ERR_CODE_MASTER,
    .reg .ERR_CODE_OVF, .reg .ERR_CODE_WORD, .reg .ERR_CODE_WRITE, .reg .OUT_FAULT_STAT_CORE_LOST, .reg .OUT_STATUS_FALLBACK, .reg
    .POWER_STATUS_ENTERING, .reg .POWER_STATUS_EXITING, .reg .POWER_WAKE_STAT_CLASS, .reg .POWER_WAKE_STAT_FROM, .reg .SPARE_ELEM_TRIM_E,
    .reg .SPARE_GO_TRIM_GAIN, .reg .SPARE_GO_TRIM_OFFSET, .reg .SPARE_LADDER_TRIM_L, .reg .SPARE_STATUS_FAILOVER_BUSY, .reg
    .SPARE_STATUS_PHASE, .reg .SPARE_STATUS_VISIT_POS, .outs, .pwr, .tiers] m) (a1 : Nat) (a2 : Nat) (a3 : Nat) (a4 : Bool) : Keeps m s0
    (hostFailover a1 a2 a3 a4 s) := by
  unfold hostFailover
  try dsimp only
  repeat' first
    | with_reducible assumption
    | exact Within.trans (Eq.refl _) hw
    | with_reducible apply actionErr_keeps
    | with_reducible apply requestFailover_keeps
    | with_reducible apply Keeps.ite
    | split

theorem execFailoverReq_keeps (h : Keeps m s0 s) (hw : Within [.reg .BURNISH_STATUS_ROTATING, .reg .ERR_CODE_CODE, .reg
    .ERR_CODE_MASTER, .reg .ERR_CODE_OVF, .reg .ERR_CODE_WORD, .reg .ERR_CODE_WRITE, .reg .OUT_FAULT_STAT_CORE_LOST, .reg
    .OUT_STATUS_FALLBACK, .reg .POWER_STATUS_ENTERING, .reg .POWER_STATUS_EXITING, .reg .POWER_WAKE_STAT_CLASS, .reg .POWER_WAKE_STAT_FROM,
    .reg .SPARE_ELEM_TRIM_E, .reg .SPARE_GO_TRIM_GAIN, .reg .SPARE_GO_TRIM_OFFSET, .reg .SPARE_LADDER_TRIM_L, .reg
    .SPARE_STATUS_FAILOVER_BUSY, .reg .SPARE_STATUS_PHASE, .reg .SPARE_STATUS_VISIT_POS, .outs, .pwr, .tiers] m) (a1 : Master) (a2 : Tier)
    (a3 : Fin 16) (a4 : Bool) : Ends m s0 (execFailoverReq a1 a2 a3 a4 s) := by
  unfold execFailoverReq
  try dsimp only
  repeat' first
    | with_reducible assumption
    | exact Within.trans (Eq.refl _) hw
    | (intro _)
    | with_reducible apply cmd_keeps
    | with_reducible apply hostFailover_keeps
    | with_reducible apply Ends.ite
    | with_reducible apply Ends.next
    | split

theorem recordFailover_keeps (h : Keeps m s0 s) (hw : Within [.reg .EVT_PEND_PEND, .reg .EVT_RAW_RAW, .reg .SPARE_FAIL_CNT_FAILOVERS,
    .reg .SPARE_LAST_FAIL_CAUSE, .reg .SPARE_LAST_FAIL_CORE, .reg .SPARE_LAST_FAIL_POS, .presented] m) (a1 : Nat) (a2 : Nat) (a3 : Nat) (a4
    : Nat) : Keeps m s0 (recordFailover a1 a2 a3 a4 s) := by
  unfold recordFailover
  try dsimp only
  repeat' first
    | with_reducible assumption
    | exact Within.trans (Eq.refl _) hw
    | with_reducible apply wr_keeps
    | with_reducible apply inc_keeps
    | with_reducible apply raise_keeps

theorem displace_keeps (h : Keeps m s0 s) (hw : Within [.reg .EVT_PEND_PEND, .reg .EVT_RAW_RAW, .reg .SPARE_CORE_STATE_ROLE, .reg
    .SPARE_FAIL_CNT_RETIRES, .reg .SPARE_STATUS_CAL_CORE, .reg .SPARE_STATUS_PHASE, .reg .SPARE_STATUS_VISIT_POS, .presented, .tiers] m) (a1
    : Nat) (a2 : Nat) (a3 : Nat) (a4 : Bool) : Keeps m s0 (displace a1 a2 a3 a4 s) := by
  unfold displace
  try dsimp only
  repeat' first
    | with_reducible assumption
    | exact Within.trans (Eq.refl _) hw
    | with_reducible apply wr_keeps
    | with_reducible apply State.setTier_keeps
    | with_reducible apply enterWindow_keeps
    | with_reducible apply retireCore_keeps
    | with_reducible apply setCal_keeps
    | with_reducible apply setRole_keeps
    | with_reducible apply Keeps.ite
    | split

theorem failoverSwitch_keeps (h : Keeps m s0 s) (hw : Within [.reg .EVT_PEND_PEND, .reg .EVT_RAW_RAW, .reg .OUT_FAULT_STAT_CORE_LOST,
    .reg .OUT_STATUS_FALLBACK, .reg .SPARE_CORE_MAP, .reg .SPARE_CORE_STATE_ROLE, .reg .SPARE_FAIL_CNT_FAILOVERS, .reg
    .SPARE_FAIL_CNT_RETIRES, .reg .SPARE_LAST_FAIL_CAUSE, .reg .SPARE_LAST_FAIL_CORE, .reg .SPARE_LAST_FAIL_POS, .reg
    .SPARE_STATUS_CAL_CORE, .reg .SPARE_STATUS_FAILOVER_BUSY, .reg .SPARE_STATUS_PHASE, .reg .SPARE_STATUS_SPARE_CORE, .reg
    .SPARE_STATUS_SPARE_FREE, .reg .SPARE_STATUS_VISIT_POS, .presented, .outs, .tiers] m) (a1 : Nat) (a2 : Failover) : Keeps m s0
    (failoverSwitch a1 a2 s) := by
  unfold failoverSwitch
  try dsimp only
  repeat' first
    | with_reducible assumption
    | exact Within.trans (Eq.refl _) hw
    | with_reducible apply State.setOut_keeps
    | with_reducible apply State.setTier_keeps
    | with_reducible apply displace_keeps
    | with_reducible apply failLeft_keeps
    | with_reducible apply noSpareEvent_keeps
    | with_reducible apply recordFailover_keeps
    | with_reducible apply setCoreLost_keeps
    | with_reducible apply setOwnCore_keeps
    | with_reducible apply setRole_keeps
    | with_reducible apply setSpare_keeps
    | with_reducible apply touchMap_keeps

theorem execFailoverSwitch_keeps (h : Keeps m s0 s) (hw : Within [.reg .EVT_PEND_PEND, .reg .EVT_RAW_RAW, .reg
    .OUT_FAULT_STAT_CORE_LOST, .reg .OUT_STATUS_FALLBACK, .reg .SPARE_CORE_MAP, .reg .SPARE_CORE_STATE_ROLE, .reg .SPARE_FAIL_CNT_FAILOVERS,
    .reg .SPARE_FAIL_CNT_RETIRES, .reg .SPARE_LAST_FAIL_CAUSE, .reg .SPARE_LAST_FAIL_CORE, .reg .SPARE_LAST_FAIL_POS, .reg
    .SPARE_STATUS_CAL_CORE, .reg .SPARE_STATUS_FAILOVER_BUSY, .reg .SPARE_STATUS_PHASE, .reg .SPARE_STATUS_SPARE_CORE, .reg
    .SPARE_STATUS_SPARE_FREE, .reg .SPARE_STATUS_VISIT_POS, .presented, .outs, .tiers] m) (a1 : Tier) : Ends m s0 (execFailoverSwitch a1 s)
    := by
  unfold execFailoverSwitch
  try dsimp only
  repeat' first
    | with_reducible assumption
    | exact Within.trans (Eq.refl _) hw
    | (intro _)
    | with_reducible apply on_keeps
    | with_reducible apply act_keeps
    | with_reducible apply failoverSwitch_keeps
    | with_reducible apply Ends.ite
    | with_reducible apply Ends.next
    | split

theorem abandonEnd_keeps (h : Keeps m s0 s) (hw : Within [.reg .BURNISH_STATUS_ROTATING, .reg .EVT_PEND_PEND, .reg .EVT_RAW_RAW, .reg
    .OUT_FAULT_STAT_CORE_LOST, .reg .OUT_STATUS_CORE_SPARE, .reg .OUT_STATUS_FALLBACK, .reg .SPARE_CORE_STATE_ROLE, .reg .SPARE_ELEM_TRIM_E,
    .reg .SPARE_FAIL_CNT_FAILOVERS, .reg .SPARE_FAIL_CNT_RETIRES, .reg .SPARE_GO_TRIM_GAIN, .reg .SPARE_GO_TRIM_OFFSET, .reg
    .SPARE_LADDER_TRIM_L, .reg .SPARE_LAST_FAIL_CAUSE, .reg .SPARE_LAST_FAIL_CORE, .reg .SPARE_LAST_FAIL_POS, .reg .SPARE_STATUS_CAL_CORE,
    .reg .SPARE_STATUS_FAILOVER_BUSY, .reg .SPARE_STATUS_PHASE, .reg .SPARE_STATUS_SPARE_CORE, .reg .SPARE_STATUS_SPARE_FREE, .reg
    .SPARE_STATUS_VISIT_POS, .presented, .outs, .tiers] m) (a1 : Nat) : Keeps m s0 (abandonEnd a1 s) := by
  unfold abandonEnd
  try dsimp only
  repeat' first
    | with_reducible assumption
    | exact Within.trans (Eq.refl _) hw
    | (intro _)
    | with_reducible apply wr_keeps
    | with_reducible apply State.setOut_keeps
    | with_reducible apply State.setTier_keeps
    | with_reducible apply displace_keeps
    | with_reducible apply endVisit_keeps
    | with_reducible apply failLeft_keeps
    | with_reducible apply noSpareEvent_keeps
    | with_reducible apply recordFailover_keeps
    | with_reducible apply setCal_keeps
    | with_reducible apply setCoreLost_keeps
    | with_reducible apply setRole_keeps
    | with_reducible apply setSpare_keeps
    | with_reducible apply touchMap_keeps
    | with_reducible apply Keeps.ite
    | split

theorem execCalibrationAbandon_keeps (h : Keeps m s0 s) (hw : Within [.reg .BURNISH_STATUS_ROTATING, .reg .EVT_PEND_PEND, .reg
    .EVT_RAW_RAW, .reg .OUT_FAULT_STAT_CORE_LOST, .reg .OUT_STATUS_CORE_SPARE, .reg .OUT_STATUS_FALLBACK, .reg .SPARE_CORE_STATE_ROLE, .reg
    .SPARE_ELEM_TRIM_E, .reg .SPARE_FAIL_CNT_FAILOVERS, .reg .SPARE_FAIL_CNT_RETIRES, .reg .SPARE_GO_TRIM_GAIN, .reg .SPARE_GO_TRIM_OFFSET,
    .reg .SPARE_LADDER_TRIM_L, .reg .SPARE_LAST_FAIL_CAUSE, .reg .SPARE_LAST_FAIL_CORE, .reg .SPARE_LAST_FAIL_POS, .reg
    .SPARE_STATUS_CAL_CORE, .reg .SPARE_STATUS_FAILOVER_BUSY, .reg .SPARE_STATUS_PHASE, .reg .SPARE_STATUS_SPARE_CORE, .reg
    .SPARE_STATUS_SPARE_FREE, .reg .SPARE_STATUS_VISIT_POS, .presented, .outs, .tiers] m) (a1 : Tier) : Ends m s0 (execCalibrationAbandon a1
    s) := by
  unfold execCalibrationAbandon
  try dsimp only
  repeat' first
    | with_reducible assumption
    | exact Within.trans (Eq.refl _) hw
    | (intro _)
    | with_reducible apply on_keeps
    | with_reducible apply act_keeps
    | with_reducible apply abandonEnd_keeps
    | with_reducible apply Ends.ite
    | with_reducible apply Ends.next
    | split

theorem writeBurnishEnable_keeps (h : Keeps m s0 s) (hw : Within [.reg .BURNISH_STATUS_ROTATING, .reg .CTRL_ENABLE, .reg
    .SPARE_ELEM_TRIM_E, .reg .SPARE_GO_TRIM_GAIN, .reg .SPARE_GO_TRIM_OFFSET, .reg .SPARE_LADDER_TRIM_L, .reg .SPARE_STATUS_PHASE, .reg
    .SPARE_STATUS_VISIT_POS, .tiers] m) (a1 : Bool) : Keeps m s0 (writeBurnishEnable a1 s) := by
  unfold writeBurnishEnable
  try dsimp only
  repeat' first
    | with_reducible assumption
    | exact Within.trans (Eq.refl _) hw
    | (intro _)
    | with_reducible apply wr_keeps
    | with_reducible apply each_keeps
    | with_reducible apply abandonCal_keeps
    | with_reducible apply endVisit_keeps
    | with_reducible apply takeVisitReq_keeps
    | with_reducible apply Keeps.ite
    | split

theorem recalibrateSpare_keeps (h : Keeps m s0 s) (hw : Within [.reg .SPARE_STATUS_PHASE, .tiers] m) (a1 : Nat) : Keeps m s0
    (recalibrateSpare a1 s) := by
  unfold recalibrateSpare
  try dsimp only
  repeat' first
    | with_reducible assumption
    | exact Within.trans (Eq.refl _) hw
    | with_reducible apply State.setTier_keeps
    | with_reducible apply enterWindow_keeps

theorem matchDecision_keeps (h : Keeps m s0 s) (hw : Within [.reg .BURNISH_STATUS_ROTATING, .reg .EVT_PEND_PEND, .reg .EVT_RAW_RAW, .reg
    .OUT_FAULT_STAT_CORE_LOST, .reg .OUT_STATUS_FALLBACK, .reg .POWER_STATUS_ENTERING, .reg .POWER_STATUS_EXITING, .reg
    .POWER_WAKE_STAT_CLASS, .reg .POWER_WAKE_STAT_FROM, .reg .SPARE_ELEM_TRIM_E, .reg .SPARE_GO_TRIM_GAIN, .reg .SPARE_GO_TRIM_OFFSET, .reg
    .SPARE_LADDER_TRIM_L, .reg .SPARE_MATCH_RES_GAIN, .reg .SPARE_MATCH_RES_OFFSET, .reg .SPARE_SKIP_SUSPECT, .reg
    .SPARE_STATUS_FAILOVER_BUSY, .reg .SPARE_STATUS_PHASE, .reg .SPARE_STATUS_VISIT_POS, .presented, .outs, .pwr, .tiers] m) (a1 : Nat) (a2
    : Rat × Rat) (a3 : Rat × Rat) : Keeps m s0 (matchDecision a1 a2 a3 s) := by
  unfold matchDecision
  try dsimp only
  repeat' first
    | with_reducible assumption
    | exact Within.trans (Eq.refl _) hw
    | with_reducible apply wr_keeps
    | with_reducible apply State.setTier_keeps
    | with_reducible apply cancelVisit_keeps
    | with_reducible apply endVisit_keeps
    | with_reducible apply raise_keeps
    | with_reducible apply recalibrateSpare_keeps
    | with_reducible apply requestFailover_keeps
    | with_reducible apply setPhase_keeps
    | with_reducible apply Keeps.ite
    | split

theorem execMatchDecision_keeps (h : Keeps m s0 s) (hw : Within [.reg .BURNISH_STATUS_ROTATING, .reg .EVT_PEND_PEND, .reg .EVT_RAW_RAW,
    .reg .OUT_FAULT_STAT_CORE_LOST, .reg .OUT_STATUS_FALLBACK, .reg .POWER_STATUS_ENTERING, .reg .POWER_STATUS_EXITING, .reg
    .POWER_WAKE_STAT_CLASS, .reg .POWER_WAKE_STAT_FROM, .reg .SPARE_ELEM_TRIM_E, .reg .SPARE_GO_TRIM_GAIN, .reg .SPARE_GO_TRIM_OFFSET, .reg
    .SPARE_LADDER_TRIM_L, .reg .SPARE_MATCH_RES_GAIN, .reg .SPARE_MATCH_RES_OFFSET, .reg .SPARE_SKIP_SUSPECT, .reg
    .SPARE_STATUS_FAILOVER_BUSY, .reg .SPARE_STATUS_PHASE, .reg .SPARE_STATUS_VISIT_POS, .presented, .outs, .pwr, .tiers] m) (a1 : Tier) (a2
    : List (SenseSample × SenseSample)) (a3 : List SenseSample) : Ends m s0 (execMatchDecision a1 a2 a3 s) := by
  unfold execMatchDecision
  try dsimp only
  repeat' first
    | with_reducible assumption
    | exact Within.trans (Eq.refl _) hw
    | (intro _)
    | with_reducible apply on_keeps
    | with_reducible apply act_keeps
    | with_reducible apply matchDecision_keeps
    | with_reducible apply Ends.ite
    | with_reducible apply Ends.next
    | split

theorem handover_keeps (h : Keeps m s0 s) (hw : Within [.reg .EVT_PEND_PEND, .reg .EVT_RAW_RAW, .reg .OUT_STATUS_CORE_SPARE, .reg
    .SPARE_CORE_STATE_ROLE, .reg .SPARE_STAGE_TRIM_GAIN, .reg .SPARE_STAGE_TRIM_OFFSET, .reg .SPARE_STATUS_CAL_CORE, .reg
    .SPARE_STATUS_PHASE, .reg .SPARE_STATUS_SPARE_FREE, .presented, .tiers] m) (a1 : Nat) : Keeps m s0 (handover a1 s) := by
  unfold handover
  try dsimp only
  repeat' first
    | with_reducible assumption
    | exact Within.trans (Eq.refl _) hw
    | with_reducible apply wr_keeps
    | with_reducible apply State.setTier_keeps
    | with_reducible apply enterWindow_keeps
    | with_reducible apply raise_keeps
    | with_reducible apply setCal_keeps
    | with_reducible apply setRole_keeps
    | with_reducible apply Keeps.ite
    | split

theorem execHandover_keeps (h : Keeps m s0 s) (hw : Within [.reg .BURNISH_STATUS_ROTATING, .reg .EVT_PEND_PEND, .reg .EVT_RAW_RAW, .reg
    .OUT_STATUS_CORE_SPARE, .reg .SPARE_CORE_STATE_ROLE, .reg .SPARE_ELEM_TRIM_E, .reg .SPARE_GO_TRIM_GAIN, .reg .SPARE_GO_TRIM_OFFSET, .reg
    .SPARE_LADDER_TRIM_L, .reg .SPARE_STAGE_TRIM_GAIN, .reg .SPARE_STAGE_TRIM_OFFSET, .reg .SPARE_STATUS_CAL_CORE, .reg .SPARE_STATUS_PHASE,
    .reg .SPARE_STATUS_SPARE_FREE, .reg .SPARE_STATUS_VISIT_POS, .presented, .tiers] m) (a1 : Tier) (a2 : Fin 12) (a3 : Fin 13) : Ends m s0
    (execHandover a1 a2 a3 s) := by
  unfold execHandover
  try dsimp only
  repeat' first
    | with_reducible assumption
    | exact Within.trans (Eq.refl _) hw
    | (intro _)
    | with_reducible apply on_keeps
    | with_reducible apply act_keeps
    | with_reducible apply cancelVisit_keeps
    | with_reducible apply handover_keeps
    | with_reducible apply Keeps.ite
    | with_reducible apply Ends.ite
    | with_reducible apply Ends.next
    | split

theorem measureDone_keeps (h : Keeps m s0 s) (hw : Within [.reg .SPARE_STATUS_PHASE, .tiers] m) (a1 : Nat) (a2 : List SensePoint) :
    Keeps m s0 (measureDone a1 a2 s) := by
  unfold measureDone
  try dsimp only
  repeat' first
    | with_reducible assumption
    | exact Within.trans (Eq.refl _) hw
    | with_reducible apply State.setTier_keeps
    | with_reducible apply setPhase_keeps
    | with_reducible apply Keeps.ite
    | split

theorem execCalMeasureDone_keeps (h : Keeps m s0 s) (hw : Within [.reg .SPARE_STATUS_PHASE, .tiers] m) (a1 : Tier) (a2 : List
    SenseSample) : Ends m s0 (execCalMeasureDone a1 a2 s) := by
  unfold execCalMeasureDone
  try dsimp only
  repeat' first
    | with_reducible assumption
    | exact Within.trans (Eq.refl _) hw
    | (intro _)
    | with_reducible apply on_keeps
    | with_reducible apply act_keeps
    | with_reducible apply measureDone_keeps
    | with_reducible apply Ends.ite
    | with_reducible apply Ends.next
    | split

theorem release_keeps (h : Keeps m s0 s) (hw : Within [.reg .BURNISH_ROT_CNT_COUNT, .reg .BURNISH_STATUS_ROTATING, .reg .EVT_PEND_PEND,
    .reg .EVT_RAW_RAW, .reg .OUT_STATUS_CORE_SPARE, .reg .SPARE_CORE_MAP, .reg .SPARE_CORE_STATE_ROLE, .reg .SPARE_ELEM_TRIM_E, .reg
    .SPARE_GO_TRIM_GAIN, .reg .SPARE_GO_TRIM_OFFSET, .reg .SPARE_LADDER_TRIM_L, .reg .SPARE_STATUS_CAL_CORE, .reg .SPARE_STATUS_PHASE, .reg
    .SPARE_STATUS_SPARE_CORE, .reg .SPARE_STATUS_SPARE_FREE, .reg .SPARE_STATUS_VISIT_POS, .presented, .tiers] m) (a1 : Nat) : Keeps m s0
    (release a1 s) := by
  unfold release
  try dsimp only
  repeat' first
    | with_reducible assumption
    | exact Within.trans (Eq.refl _) hw
    | with_reducible apply wr_keeps
    | with_reducible apply inc_keeps
    | with_reducible apply endVisit_keeps
    | with_reducible apply raise_keeps
    | with_reducible apply setCal_keeps
    | with_reducible apply setOwnCore_keeps
    | with_reducible apply setRole_keeps
    | with_reducible apply setSpare_keeps
    | with_reducible apply takeVisitReq_keeps
    | with_reducible apply touchMap_keeps
    | with_reducible apply Keeps.ite
    | split

theorem matchAgain_keeps (h : Keeps m s0 s) (hw : Within [.reg .BURNISH_STATUS_ROTATING, .reg .SPARE_ELEM_TRIM_E, .reg
    .SPARE_GO_TRIM_GAIN, .reg .SPARE_GO_TRIM_OFFSET, .reg .SPARE_LADDER_TRIM_L, .reg .SPARE_STATUS_PHASE, .reg .SPARE_STATUS_VISIT_POS,
    .tiers] m) (a1 : Nat) : Keeps m s0 (matchAgain a1 s) := by
  unfold matchAgain
  try dsimp only
  repeat' first
    | with_reducible assumption
    | exact Within.trans (Eq.refl _) hw
    | with_reducible apply State.setTier_keeps
    | with_reducible apply cancelVisit_keeps
    | with_reducible apply setPhase_keeps
    | with_reducible apply shadow_keeps
    | with_reducible apply Keeps.ite
    | split

theorem calFail_keeps (h : Keeps m s0 s) (hw : Within [.reg .BURNISH_ROT_CNT_COUNT, .reg .BURNISH_STATUS_ROTATING, .reg .EVT_PEND_PEND,
    .reg .EVT_RAW_RAW, .reg .OUT_FAULT_STAT_CORE_LOST, .reg .OUT_STATUS_CORE_SPARE, .reg .OUT_STATUS_FALLBACK, .reg .SPARE_CORE_MAP, .reg
    .SPARE_CORE_STATE_ROLE, .reg .SPARE_ELEM_TRIM_E, .reg .SPARE_FAIL_CNT_RETIRES, .reg .SPARE_GO_TRIM_GAIN, .reg .SPARE_GO_TRIM_OFFSET,
    .reg .SPARE_LADDER_TRIM_L, .reg .SPARE_STATUS_CAL_CORE, .reg .SPARE_STATUS_FAILOVER_BUSY, .reg .SPARE_STATUS_PHASE, .reg
    .SPARE_STATUS_SPARE_CORE, .reg .SPARE_STATUS_SPARE_FREE, .reg .SPARE_STATUS_VISIT_POS, .presented, .outs, .tiers] m) (a1 : Nat) : Keeps
    m s0 (calFail a1 s) := by
  unfold calFail
  try dsimp only
  repeat' first
    | with_reducible assumption
    | exact Within.trans (Eq.refl _) hw
    | with_reducible apply inc_keeps
    | with_reducible apply State.setTier_keeps
    | with_reducible apply matchAgain_keeps
    | with_reducible apply raise_keeps
    | with_reducible apply release_keeps
    | with_reducible apply restoreTrim_keeps
    | with_reducible apply retireCal_keeps
    | with_reducible apply retireSpare_keeps
    | with_reducible apply Keeps.ite
    | split

theorem calSolve_keeps (h : Keeps m s0 s) (hw : Within [.reg .BURNISH_ROT_CNT_COUNT, .reg .BURNISH_STATUS_ROTATING, .reg .EVT_PEND_PEND,
    .reg .EVT_RAW_RAW, .reg .OUT_FAULT_STAT_CORE_LOST, .reg .OUT_STATUS_CORE_SPARE, .reg .OUT_STATUS_FALLBACK, .reg .SPARE_CORE_MAP, .reg
    .SPARE_CORE_STATE_ROLE, .reg .SPARE_ELEM_TRIM_E, .reg .SPARE_FAIL_CNT_RETIRES, .reg .SPARE_GO_TRIM_GAIN, .reg .SPARE_GO_TRIM_OFFSET,
    .reg .SPARE_LADDER_TRIM_L, .reg .SPARE_RESIDUAL_COVERAGE, .reg .SPARE_RESIDUAL_LADDER_COV, .reg .SPARE_STATUS_CAL_CORE, .reg
    .SPARE_STATUS_FAILOVER_BUSY, .reg .SPARE_STATUS_PHASE, .reg .SPARE_STATUS_SPARE_CORE, .reg .SPARE_STATUS_SPARE_FREE, .reg
    .SPARE_STATUS_VISIT_POS, .presented, .outs, .tiers] m) (a1 : Nat) : Keeps m s0 (calSolve a1 s) := by
  unfold calSolve
  try dsimp only
  repeat' first
    | with_reducible assumption
    | exact Within.trans (Eq.refl _) hw
    | with_reducible apply wr_keeps
    | with_reducible apply applyTrim_keeps
    | with_reducible apply calFail_keeps
    | with_reducible apply enterWindow_keeps
    | split

theorem execCalSolveDone_keeps (h : Keeps m s0 s) (hw : Within [.reg .BURNISH_ROT_CNT_COUNT, .reg .BURNISH_STATUS_ROTATING, .reg
    .EVT_PEND_PEND, .reg .EVT_RAW_RAW, .reg .OUT_FAULT_STAT_CORE_LOST, .reg .OUT_STATUS_CORE_SPARE, .reg .OUT_STATUS_FALLBACK, .reg
    .SPARE_CORE_MAP, .reg .SPARE_CORE_STATE_ROLE, .reg .SPARE_ELEM_TRIM_E, .reg .SPARE_FAIL_CNT_RETIRES, .reg .SPARE_GO_TRIM_GAIN, .reg
    .SPARE_GO_TRIM_OFFSET, .reg .SPARE_LADDER_TRIM_L, .reg .SPARE_RESIDUAL_COVERAGE, .reg .SPARE_RESIDUAL_LADDER_COV, .reg
    .SPARE_STATUS_CAL_CORE, .reg .SPARE_STATUS_FAILOVER_BUSY, .reg .SPARE_STATUS_PHASE, .reg .SPARE_STATUS_SPARE_CORE, .reg
    .SPARE_STATUS_SPARE_FREE, .reg .SPARE_STATUS_VISIT_POS, .presented, .outs, .tiers] m) (a1 : Tier) (a2 : Fin 13) : Ends m s0
    (execCalSolveDone a1 a2 s) := by
  unfold execCalSolveDone
  try dsimp only
  repeat' first
    | with_reducible assumption
    | exact Within.trans (Eq.refl _) hw
    | (intro _)
    | with_reducible apply on_keeps
    | with_reducible apply act_keeps
    | with_reducible apply calSolve_keeps
    | with_reducible apply Ends.ite
    | with_reducible apply Ends.next
    | split

theorem calVerify_keeps (h : Keeps m s0 s) (hw : Within [.reg .BURNISH_ROT_CNT_COUNT, .reg .BURNISH_STATUS_ROTATING, .reg
    .EVT_PEND_PEND, .reg .EVT_RAW_RAW, .reg .OUT_FAULT_STAT_CORE_LOST, .reg .OUT_STATUS_CORE_SPARE, .reg .OUT_STATUS_FALLBACK, .reg
    .SPARE_CAL_COUNT_COUNT, .reg .SPARE_CORE_MAP, .reg .SPARE_CORE_STATE_ROLE, .reg .SPARE_ELEM_TRIM_E, .reg .SPARE_FAIL_CNT_RETIRES, .reg
    .SPARE_GO_TRIM_GAIN, .reg .SPARE_GO_TRIM_OFFSET, .reg .SPARE_LADDER_TRIM_L, .reg .SPARE_RESIDUAL_INL_EST, .reg .SPARE_STATUS_CAL_CORE,
    .reg .SPARE_STATUS_FAILOVER_BUSY, .reg .SPARE_STATUS_PHASE, .reg .SPARE_STATUS_SPARE_CORE, .reg .SPARE_STATUS_SPARE_FREE, .reg
    .SPARE_STATUS_VISIT_POS, .presented, .outs, .tiers] m) (a1 : Nat) (a2 : List Estimate) : Keeps m s0 (calVerify a1 a2 s) := by
  unfold calVerify
  try dsimp only
  repeat' first
    | with_reducible assumption
    | exact Within.trans (Eq.refl _) hw
    | with_reducible apply wr_keeps
    | with_reducible apply inc_keeps
    | with_reducible apply State.setTier_keeps
    | with_reducible apply calFail_keeps
    | with_reducible apply matchAgain_keeps
    | with_reducible apply release_keeps
    | with_reducible apply Keeps.ite
    | split

theorem execCalVerifyDone_keeps (h : Keeps m s0 s) (hw : Within [.reg .BURNISH_ROT_CNT_COUNT, .reg .BURNISH_STATUS_ROTATING, .reg
    .EVT_PEND_PEND, .reg .EVT_RAW_RAW, .reg .OUT_FAULT_STAT_CORE_LOST, .reg .OUT_STATUS_CORE_SPARE, .reg .OUT_STATUS_FALLBACK, .reg
    .SPARE_CAL_COUNT_COUNT, .reg .SPARE_CORE_MAP, .reg .SPARE_CORE_STATE_ROLE, .reg .SPARE_ELEM_TRIM_E, .reg .SPARE_FAIL_CNT_RETIRES, .reg
    .SPARE_GO_TRIM_GAIN, .reg .SPARE_GO_TRIM_OFFSET, .reg .SPARE_LADDER_TRIM_L, .reg .SPARE_RESIDUAL_INL_EST, .reg .SPARE_STATUS_CAL_CORE,
    .reg .SPARE_STATUS_FAILOVER_BUSY, .reg .SPARE_STATUS_PHASE, .reg .SPARE_STATUS_SPARE_CORE, .reg .SPARE_STATUS_SPARE_FREE, .reg
    .SPARE_STATUS_VISIT_POS, .presented, .outs, .tiers] m) (a1 : Tier) (a2 : List SenseSample) : Ends m s0 (execCalVerifyDone a1 a2 s) := by
  unfold execCalVerifyDone
  try dsimp only
  repeat' first
    | with_reducible assumption
    | exact Within.trans (Eq.refl _) hw
    | (intro _)
    | with_reducible apply on_keeps
    | with_reducible apply act_keeps
    | with_reducible apply calVerify_keeps
    | with_reducible apply Ends.ite
    | with_reducible apply Ends.next
    | split

theorem judgeReference_keeps (h : Keeps m s0 s) (hw : Within [.reg .BURNISH_REF_DEV_PPM, .reg .BURNISH_STATUS_REF_OK, .reg
    .EVT_PEND_PEND, .reg .EVT_RAW_RAW, .presented, .free] m) (a1 : Rat) : Keeps m s0 (judgeReference a1 s) := by
  unfold judgeReference
  try dsimp only
  repeat' first
    | with_reducible assumption
    | exact Within.trans (Eq.refl _) hw
    | with_reducible apply wr_keeps
    | with_reducible apply raise_keeps
    | with_reducible apply writeField16_keeps
    | with_reducible apply Keeps.ite
    | split

theorem takeRefFrame_keeps (h : Keeps m s0 s) (hw : Within [.reg .BURNISH_REF_DEV_PPM, .reg .BURNISH_STATUS_REF_OK, .reg .EVT_PEND_PEND,
    .reg .EVT_RAW_RAW, .presented, .tiers, .free] m) (a1 : Nat) (a2 : RefFrame) : Keeps m s0 (takeRefFrame a1 a2 s) := by
  unfold takeRefFrame
  try dsimp only
  repeat' first
    | with_reducible assumption
    | exact Within.trans (Eq.refl _) hw
    | with_reducible apply State.setTier_keeps
    | with_reducible apply judgeReference_keeps

theorem execReferenceFrame_keeps (h : Keeps m s0 s) (hw : Within [.reg .BURNISH_REF_DEV_PPM, .reg .BURNISH_STATUS_REF_OK, .reg
    .EVT_PEND_PEND, .reg .EVT_RAW_RAW, .presented, .tiers, .free] m) (a1 : FrameSamples) : Ends m s0 (execReferenceFrame a1 s) := by
  unfold execReferenceFrame
  try dsimp only
  repeat' first
    | with_reducible assumption
    | exact Within.trans (Eq.refl _) hw
    | (intro _)
    | with_reducible apply on_keeps
    | with_reducible apply act_keeps
    | with_reducible apply takeRefFrame_keeps
    | with_reducible apply Ends.ite
    | with_reducible apply Ends.next
    | split

theorem startCapture_keeps (h : Keeps m s0 s) (hw : Within [.reg .BURNISH_CAP_DONE_COUNT, .reg .BURNISH_STATUS_CAPTURING, .reg
    .BURNISH_STATUS_ROTATING, .reg .SPARE_ELEM_TRIM_E, .reg .SPARE_GO_TRIM_GAIN, .reg .SPARE_GO_TRIM_OFFSET, .reg .SPARE_LADDER_TRIM_L, .reg
    .SPARE_STATUS_PHASE, .reg .SPARE_STATUS_VISIT_POS, .tiers] m) (a1 : Nat) : Keeps m s0 (startCapture a1 s) := by
  unfold startCapture
  try dsimp only
  repeat' first
    | with_reducible assumption
    | exact Within.trans (Eq.refl _) hw
    | with_reducible apply wr_keeps
    | with_reducible apply State.setTier_keeps
    | with_reducible apply cancelVisit_keeps
    | with_reducible apply pauseWindow_keeps
    | with_reducible apply setPhase_keeps
    | with_reducible apply Keeps.ite
    | split

theorem writeCapCtrl_keeps (h : Keeps m s0 s) (hw : Within [.reg .BURNISH_CAP_CTRL_AT_LC, .reg .BURNISH_CAP_CTRL_BUSY, .reg
    .BURNISH_CAP_CTRL_CAP_LC, .reg .BURNISH_CAP_CTRL_CAP_SRC, .reg .BURNISH_CAP_CTRL_REFUSED, .reg .BURNISH_CAP_DONE_COUNT, .reg
    .BURNISH_STATUS_CAPTURING, .reg .BURNISH_STATUS_ROTATING, .reg .ERR_CODE_CODE, .reg .ERR_CODE_MASTER, .reg .ERR_CODE_OVF, .reg
    .ERR_CODE_WORD, .reg .ERR_CODE_WRITE, .reg .SPARE_ELEM_TRIM_E, .reg .SPARE_GO_TRIM_GAIN, .reg .SPARE_GO_TRIM_OFFSET, .reg
    .SPARE_LADDER_TRIM_L, .reg .SPARE_STATUS_PHASE, .reg .SPARE_STATUS_VISIT_POS, .tiers] m) (a1 : Nat) (a2 : Nat) (a3 : Nat) : Keeps m s0
    (writeCapCtrl a1 a2 a3 s) := by
  unfold writeCapCtrl
  try dsimp only
  repeat' first
    | with_reducible assumption
    | exact Within.trans (Eq.refl _) hw
    | with_reducible apply wr_keeps
    | with_reducible apply wrIf_keeps
    | with_reducible apply State.setTier_keeps
    | with_reducible apply recordErr_keeps
    | with_reducible apply startCapture_keeps
    | with_reducible apply Keeps.ite
    | split

theorem execCaptureStart_keeps (h : Keeps m s0 s) (hw : Within [.reg .BURNISH_CAP_CTRL_AT_LC, .reg .BURNISH_CAP_CTRL_BUSY, .reg
    .BURNISH_CAP_CTRL_CAP_LC, .reg .BURNISH_CAP_CTRL_CAP_SRC, .reg .BURNISH_CAP_CTRL_REFUSED, .reg .BURNISH_CAP_DONE_COUNT, .reg
    .BURNISH_STATUS_CAPTURING, .reg .BURNISH_STATUS_ROTATING, .reg .ERR_CODE_CODE, .reg .ERR_CODE_MASTER, .reg .ERR_CODE_OVF, .reg
    .ERR_CODE_WORD, .reg .ERR_CODE_WRITE, .reg .POWER_STATUS_ENTERING, .reg .POWER_STATUS_EXITING, .reg .POWER_WAKE_STAT_CLASS, .reg
    .POWER_WAKE_STAT_FROM, .reg .SPARE_ELEM_TRIM_E, .reg .SPARE_GO_TRIM_GAIN, .reg .SPARE_GO_TRIM_OFFSET, .reg .SPARE_LADDER_TRIM_L, .reg
    .SPARE_STATUS_PHASE, .reg .SPARE_STATUS_VISIT_POS, .pwr, .tiers] m) (a1 : Master) (a2 : Tier) (a3 : Fin 32) (a4 : Bool) (a5 : Lc) : Ends
    m s0 (execCaptureStart a1 a2 a3 a4 a5 s) := by
  unfold execCaptureStart
  try dsimp only
  repeat' first
    | with_reducible assumption
    | exact Within.trans (Eq.refl _) hw
    | (intro _)
    | with_reducible apply cmd_keeps
    | with_reducible apply writeCapCtrl_keeps
    | with_reducible apply Keeps.ite
    | with_reducible apply Ends.ite
    | with_reducible apply Ends.next
    | split

theorem captureAbort_keeps (h : Keeps m s0 s) (hw : Within [.reg .BURNISH_CAP_CTRL_BUSY, .tiers] m) (a1 : Nat) : Keeps m s0
    (captureAbort a1 s) := by
  unfold captureAbort
  try dsimp only
  repeat' first
    | with_reducible assumption
    | exact Within.trans (Eq.refl _) hw
    | with_reducible apply wr_keeps
    | with_reducible apply State.setTier_keeps
    | with_reducible apply Keeps.ite
    | split

theorem execCaptureAbort_keeps (h : Keeps m s0 s) (hw : Within [.reg .BURNISH_CAP_CTRL_BUSY, .reg .ERR_CODE_CODE, .reg .ERR_CODE_MASTER,
    .reg .ERR_CODE_OVF, .reg .ERR_CODE_WORD, .reg .ERR_CODE_WRITE, .reg .POWER_STATUS_ENTERING, .reg .POWER_STATUS_EXITING, .reg
    .POWER_WAKE_STAT_CLASS, .reg .POWER_WAKE_STAT_FROM, .pwr, .tiers] m) (a1 : Master) (a2 : Tier) : Ends m s0 (execCaptureAbort a1 a2 s) :=
    by
  unfold execCaptureAbort
  try dsimp only
  repeat' first
    | with_reducible assumption
    | exact Within.trans (Eq.refl _) hw
    | (intro _)
    | with_reducible apply captureAbort_keeps
    | with_reducible apply cmd_keeps
    | with_reducible apply Ends.ite
    | with_reducible apply Ends.next
    | split

theorem endCapture_keeps (h : Keeps m s0 s) (hw : Within [.reg .BURNISH_CAP_CTRL_BUSY, .reg .BURNISH_STATUS_CAPTURING, .reg
    .EVT_PEND_PEND, .reg .EVT_RAW_RAW, .reg .SPARE_STATUS_PHASE, .presented, .tiers] m) (a1 : Nat) : Keeps m s0 (endCapture a1 s) := by
  unfold endCapture
  try dsimp only
  repeat' first
    | with_reducible assumption
    | exact Within.trans (Eq.refl _) hw
    | with_reducible apply wr_keeps
    | with_reducible apply State.setTier_keeps
    | with_reducible apply raise_keeps
    | with_reducible apply resumeBurnish_keeps
    | with_reducible apply Keeps.ite
    | split

theorem captureSample_keeps (h : Keeps m s0 s) (hw : Within [.reg .BENCH_BENCH_HEALTH_HEALTH, .reg .BENCH_BIST_STAT_PHASE, .reg
    .BENCH_ECC_CNT_CE, .reg .BENCH_ECC_CNT_UE, .reg .BENCH_STATUS_BIST_BUSY, .reg .BENCH_STATUS_SPARE_FREE, .reg .BENCH_UE_ADDR_IN_SPARE,
    .reg .BENCH_UE_ADDR_OFFSET, .reg .BURNISH_CAP_CTRL_BUSY, .reg .BURNISH_CAP_DONE_COUNT, .reg .BURNISH_STATUS_CAPTURING, .reg
    .ERR_CODE_CODE, .reg .ERR_CODE_MASTER, .reg .ERR_CODE_OVF, .reg .ERR_CODE_WORD, .reg .ERR_CODE_WRITE, .reg .EVT_PEND_PEND, .reg
    .EVT_RAW_RAW, .reg .POWER_STATUS_ENTERING, .reg .POWER_STATUS_EXITING, .reg .POWER_WAKE_STAT_CLASS, .reg .POWER_WAKE_STAT_FROM, .reg
    .QUARRY_CAPACITY_N_ACTIVE, .reg .QUARRY_ECC_CNT_CE, .reg .QUARRY_ECC_CNT_UE, .reg .QUARRY_LRMAP_MAP, .reg .QUARRY_LRMAP_SPARE, .reg
    .QUARRY_RANK_STATE_STATE, .reg .QUARRY_STATUS_DEGRADED, .reg .QUARRY_STATUS_MIGRATING, .reg .QUARRY_UE_ADDR_HI_ADDR, .reg
    .QUARRY_UE_ADDR_HI_BANK, .reg .QUARRY_UE_ADDR_HI_RANK, .reg .QUARRY_UE_ADDR_LO_ADDR, .reg .SPARE_STATUS_PHASE, .reg
    .SYS_ERR_ADDR_HI_ADDR, .reg .SYS_ERR_ADDR_HI_MASTER, .reg .SYS_ERR_ADDR_HI_WRITE, .reg .SYS_ERR_ADDR_LO_ADDR, .presented, .holdoff,
    .mem, .poison, .pwr, .qry, .ben, .tiers, .free] m) (a1 : Nat) (a2 : BitVec 18) : Keeps m s0 (captureSample a1 a2 s) := by
  unfold captureSample
  try dsimp only
  repeat' first
    | with_reducible assumption
    | exact Within.trans (Eq.refl _) hw
    | with_reducible apply wr_keeps
    | with_reducible apply State.setTier_keeps
    | with_reducible apply denyMem_keeps
    | with_reducible apply endCapture_keeps
    | with_reducible apply recordErr_keeps
    | with_reducible apply writeWords_keeps
    | with_reducible apply Keeps.ite
    | split
    | with_reducible refine Keeps.of_snd (by assumption) ?_

theorem execCaptureSample_keeps (h : Keeps m s0 s) (hw : Within [.reg .BENCH_BENCH_HEALTH_HEALTH, .reg .BENCH_BIST_STAT_PHASE, .reg
    .BENCH_ECC_CNT_CE, .reg .BENCH_ECC_CNT_UE, .reg .BENCH_STATUS_BIST_BUSY, .reg .BENCH_STATUS_SPARE_FREE, .reg .BENCH_UE_ADDR_IN_SPARE,
    .reg .BENCH_UE_ADDR_OFFSET, .reg .BURNISH_CAP_CTRL_BUSY, .reg .BURNISH_CAP_DONE_COUNT, .reg .BURNISH_STATUS_CAPTURING, .reg
    .ERR_CODE_CODE, .reg .ERR_CODE_MASTER, .reg .ERR_CODE_OVF, .reg .ERR_CODE_WORD, .reg .ERR_CODE_WRITE, .reg .EVT_PEND_PEND, .reg
    .EVT_RAW_RAW, .reg .POWER_STATUS_ENTERING, .reg .POWER_STATUS_EXITING, .reg .POWER_WAKE_STAT_CLASS, .reg .POWER_WAKE_STAT_FROM, .reg
    .QUARRY_CAPACITY_N_ACTIVE, .reg .QUARRY_ECC_CNT_CE, .reg .QUARRY_ECC_CNT_UE, .reg .QUARRY_LRMAP_MAP, .reg .QUARRY_LRMAP_SPARE, .reg
    .QUARRY_RANK_STATE_STATE, .reg .QUARRY_STATUS_DEGRADED, .reg .QUARRY_STATUS_MIGRATING, .reg .QUARRY_UE_ADDR_HI_ADDR, .reg
    .QUARRY_UE_ADDR_HI_BANK, .reg .QUARRY_UE_ADDR_HI_RANK, .reg .QUARRY_UE_ADDR_LO_ADDR, .reg .SPARE_STATUS_PHASE, .reg
    .SYS_ERR_ADDR_HI_ADDR, .reg .SYS_ERR_ADDR_HI_MASTER, .reg .SYS_ERR_ADDR_HI_WRITE, .reg .SYS_ERR_ADDR_LO_ADDR, .presented, .holdoff,
    .mem, .poison, .pwr, .qry, .ben, .tiers, .free] m) (a1 : Tier) (a2 : BitVec 18) : Ends m s0 (execCaptureSample a1 a2 s) := by
  unfold execCaptureSample
  try dsimp only
  repeat' first
    | with_reducible assumption
    | exact Within.trans (Eq.refl _) hw
    | (intro _)
    | with_reducible apply on_keeps
    | with_reducible apply act_keeps
    | with_reducible apply captureSample_keeps
    | with_reducible apply Ends.ite
    | with_reducible apply Ends.next
    | split

theorem execCapEnd_keeps (h : Keeps m s0 s) (hw : Within [.reg .BURNISH_CAP_CTRL_BUSY, .reg .BURNISH_STATUS_CAPTURING, .reg
    .EVT_PEND_PEND, .reg .EVT_RAW_RAW, .reg .SPARE_STATUS_PHASE, .presented, .tiers] m) (a1 : Tier) : Ends m s0 (execCapEnd a1 s) := by
  unfold execCapEnd
  try dsimp only
  repeat' first
    | with_reducible assumption
    | exact Within.trans (Eq.refl _) hw
    | (intro _)
    | with_reducible apply on_keeps
    | with_reducible apply act_keeps
    | with_reducible apply endCapture_keeps
    | with_reducible apply Ends.ite
    | with_reducible apply Ends.next
    | split

theorem saveNow_keeps (h : Keeps m s0 s) (hw : Within [.reg .BURNISH_STATUS_NVM_SAVING, .tiers, .trimDue] m)  : Keeps m s0 (saveNow s)
    := by
  unfold saveNow
  try dsimp only
  repeat' first
    | with_reducible assumption
    | exact Within.trans (Eq.refl _) hw
    | (intro _)
    | with_reducible apply wr_keeps
    | with_reducible apply each_keeps
    | with_reducible apply State.setTier_keeps
    | (with_reducible apply Keeps.of_fields <;>
        first | with_reducible exact rfl | with_reducible exact Or.inl rfl | exact Or.inr (Within.trans (Eq.refl _) hw) | skip)

theorem execBurnishSaveNow_keeps (h : Keeps m s0 s) (hw : Within [.reg .BURNISH_STATUS_NVM_SAVING, .reg .ERR_CODE_CODE, .reg
    .ERR_CODE_MASTER, .reg .ERR_CODE_OVF, .reg .ERR_CODE_WORD, .reg .ERR_CODE_WRITE, .reg .POWER_STATUS_ENTERING, .reg
    .POWER_STATUS_EXITING, .reg .POWER_WAKE_STAT_CLASS, .reg .POWER_WAKE_STAT_FROM, .pwr, .tiers, .trimDue] m) (a1 : Master) : Ends m s0
    (execBurnishSaveNow a1 s) := by
  unfold execBurnishSaveNow
  try dsimp only
  repeat' first
    | with_reducible assumption
    | exact Within.trans (Eq.refl _) hw
    | (intro _)
    | with_reducible apply cmd_keeps
    | with_reducible apply saveNow_keeps
    | with_reducible apply Ends.ite
    | with_reducible apply Ends.next
    | split

theorem writeMap_keeps (h : Keeps m s0 s) (hw : Within [.reg .EVT_PEND_PEND, .reg .EVT_RAW_RAW, .presented, .tiers] m) (a1 : Nat) :
    Keeps m s0 (writeMap a1 s) := by
  unfold writeMap
  try dsimp only
  repeat' first
    | with_reducible assumption
    | exact Within.trans (Eq.refl _) hw
    | (intro _)
    | with_reducible apply State.setTier_keeps
    | with_reducible apply raise_keeps
    | with_reducible apply Keeps.ite
    | split
    | with_reducible apply KeepsOpt.getD

theorem execCoreMapWrite_keeps (h : Keeps m s0 s) (hw : Within [.reg .EVT_PEND_PEND, .reg .EVT_RAW_RAW, .presented, .tiers] m) (a1 :
    Tier) : Ends m s0 (execCoreMapWrite a1 s) := by
  unfold execCoreMapWrite
  try dsimp only
  repeat' first
    | with_reducible assumption
    | exact Within.trans (Eq.refl _) hw
    | (intro _)
    | with_reducible apply on_keeps
    | with_reducible apply act_keeps
    | with_reducible apply writeMap_keeps
    | with_reducible apply Ends.ite
    | with_reducible apply Ends.next
    | split

theorem saveTrims_keeps (h : Keeps m s0 s) (hw : Within [.reg .BURNISH_STATUS_NVM_SAVING, .reg .EVT_PEND_PEND, .reg .EVT_RAW_RAW,
    .presented, .tiers, .trimSaved, .trimDue] m)  : Keeps m s0 (saveTrims s) := by
  unfold saveTrims
  try dsimp only
  repeat' first
    | with_reducible assumption
    | exact Within.trans (Eq.refl _) hw
    | (intro _)
    | with_reducible apply wr_keeps
    | with_reducible apply each_keeps
    | with_reducible apply State.setTier_keeps
    | with_reducible apply raise_keeps
    | (with_reducible apply Keeps.of_fields <;>
        first | with_reducible exact rfl | with_reducible exact Or.inl rfl | exact Or.inr (Within.trans (Eq.refl _) hw) | skip)

theorem execTrimSaveTimer_keeps (h : Keeps m s0 s) (hw : Within [.reg .BURNISH_STATUS_NVM_SAVING, .reg .EVT_PEND_PEND, .reg
    .EVT_RAW_RAW, .presented, .tiers, .trimSaved, .trimDue] m)  : Ends m s0 (execTrimSaveTimer s) := by
  unfold execTrimSaveTimer
  try dsimp only
  repeat' first
    | with_reducible assumption
    | exact Within.trans (Eq.refl _) hw
    | (intro _)
    | with_reducible apply on_keeps
    | with_reducible apply act_keeps
    | with_reducible apply saveTrims_keeps
    | with_reducible apply Ends.ite
    | with_reducible apply Ends.next
    | split

theorem putMap_keeps (h : Keeps m s0 s) (hw : Within [.reg .SPARE_CORE_MAP, .reg .SPARE_CORE_STATE_ROLE, .reg .SPARE_SKIP_SUSPECT, .reg
    .SPARE_STATUS_SPARE_CORE, .reg .SPARE_STATUS_SPARE_FREE, .tiers] m) (a1 : Nat) (a2 : MapRecord) : Keeps m s0 (putMap a1 a2 s) := by
  unfold putMap
  try dsimp only
  repeat' first
    | with_reducible assumption
    | exact Within.trans (Eq.refl _) hw
    | (intro _)
    | with_reducible apply wr_keeps
    | with_reducible apply each_keeps
    | with_reducible apply setOwnCore_keeps
    | with_reducible apply setRole_keeps
    | with_reducible apply setSpare_keeps
    | with_reducible apply KeepsOpt.getD

theorem loadTier_keeps (h : Keeps m s0 s) (hw : Within [.reg .EVT_PEND_PEND, .reg .EVT_RAW_RAW, .reg .SPARE_CORE_MAP, .reg
    .SPARE_CORE_STATE_ROLE, .reg .SPARE_ELEM_TRIM_E, .reg .SPARE_GO_TRIM_GAIN, .reg .SPARE_GO_TRIM_OFFSET, .reg .SPARE_LADDER_TRIM_L, .reg
    .SPARE_SKIP_SUSPECT, .reg .SPARE_STAGE_TRIM_GAIN, .reg .SPARE_STAGE_TRIM_OFFSET, .reg .SPARE_STATUS_SPARE_CORE, .reg
    .SPARE_STATUS_SPARE_FREE, .presented, .tiers] m) (a1 : List Nat) (a2 : Nat) : Keeps m s0 (loadTier a1 a2 s) := by
  unfold loadTier
  try dsimp only
  repeat' first
    | with_reducible assumption
    | exact Within.trans (Eq.refl _) hw
    | (intro _)
    | with_reducible apply wr_keeps
    | with_reducible apply each_keeps
    | with_reducible apply State.setTier_keeps
    | with_reducible apply putMap_keeps
    | with_reducible apply raise_keeps
    | with_reducible apply restoreTrim_keeps
    | with_reducible apply Keeps.ite
    | split

theorem resetTier_keeps (h : Keeps m s0 s) (hw : Within [.reg .BURNISH_STATUS_ROTATING, .reg .OUT_STATUS_CORE_SPARE, .reg
    .SPARE_CORE_STATE_ROLE, .reg .SPARE_ELEM_TRIM_E, .reg .SPARE_GO_TRIM_GAIN, .reg .SPARE_GO_TRIM_OFFSET, .reg .SPARE_LADDER_TRIM_L, .reg
    .SPARE_STATUS_CAL_CORE, .reg .SPARE_STATUS_FAILOVER_BUSY, .reg .SPARE_STATUS_PHASE, .reg .SPARE_STATUS_SPARE_CORE, .reg
    .SPARE_STATUS_SPARE_FREE, .reg .SPARE_STATUS_VISIT_POS, .tiers] m) (a1 : Nat) : Keeps m s0 (resetTier a1 s) := by
  unfold resetTier
  try dsimp only
  repeat' first
    | with_reducible assumption
    | exact Within.trans (Eq.refl _) hw
    | with_reducible apply wr_keeps
    | with_reducible apply State.setTier_keeps
    | with_reducible apply endVisit_keeps
    | with_reducible apply restoreTrim_keeps
    | with_reducible apply setCal_keeps
    | with_reducible apply setRole_keeps
    | with_reducible apply setSpare_keeps
    | with_reducible apply Keeps.ite
    | split

end Sys2Proof.Machine
end

