-- ==== Sys2Proof/Laws/ClocksKeeps.lean ====
section
/-! SUPPORT. What the operations of Machine/Clocks.lean keep: the queue, the invariant, and every part outside their footprint. -/

set_option maxRecDepth 4000
set_option linter.unusedTactic false
set_option linter.unreachableTactic false

namespace Sys2Proof.Machine

variable {m : Nat} {s0 s : State}

theorem setOrigin_keeps (h : Keeps m s0 s) (hw : Within [.reg .QCLK_ORIGIN_FRAC_FRAC, .reg .QCLK_ORIGIN_HI_ORIGIN_HI, .reg
    .QCLK_ORIGIN_LO_ORIGIN_LO] m) (a1 : Nat) (a2 : Nat) : Keeps m s0 (setOrigin a1 a2 s) := by
  unfold setOrigin
  try dsimp only
  repeat' first
    | with_reducible assumption
    | exact Within.trans (Eq.refl _) hw
    | with_reducible apply wr_keeps
    | with_reducible apply wr64_keeps

theorem stopClock_keeps (h : Keeps m s0 s) (hw : Within [.reg .BURNISH_STATUS_ROTATING, .reg .QCLK_QCLK_STATUS_LOCKED, .reg
    .QCLK_QCLK_STATUS_STOPPED, .reg .SPARE_ELEM_TRIM_E, .reg .SPARE_GO_TRIM_GAIN, .reg .SPARE_GO_TRIM_OFFSET, .reg .SPARE_LADDER_TRIM_L,
    .reg .SPARE_STATUS_PHASE, .reg .SPARE_STATUS_VISIT_POS, .clocks, .tiers] m) (a1 : Nat) : Keeps m s0 (stopClock a1 s) := by
  unfold stopClock
  try dsimp only
  repeat' first
    | with_reducible assumption
    | exact Within.trans (Eq.refl _) hw
    | (intro _)
    | with_reducible apply wr_keeps
    | with_reducible apply each_keeps
    | with_reducible apply State.setClock_keeps
    | with_reducible apply disturb_keeps

theorem qclkStop_keeps (h : Keeps m s0 s) (hw : Within [.reg .BURNISH_STATUS_ROTATING, .reg .CTRL_ENABLE, .reg .QCLK_QCLK_STATUS_LOCKED,
    .reg .QCLK_QCLK_STATUS_STOPPED, .reg .SPARE_ELEM_TRIM_E, .reg .SPARE_GO_TRIM_GAIN, .reg .SPARE_GO_TRIM_OFFSET, .reg
    .SPARE_LADDER_TRIM_L, .reg .SPARE_STATUS_PHASE, .reg .SPARE_STATUS_VISIT_POS, .clocks, .tiers] m) (a1 : Nat) : Keeps m s0 (qclkStop a1
    s) := by
  unfold qclkStop
  try dsimp only
  repeat' first
    | with_reducible assumption
    | exact Within.trans (Eq.refl _) hw
    | with_reducible apply wr_keeps
    | with_reducible apply State.setClock_keeps
    | with_reducible apply stopClock_keeps
    | with_reducible apply Keeps.ite
    | split

theorem execQclkStop_keeps (h : Keeps m s0 s) (hw : Within [.reg .BURNISH_STATUS_ROTATING, .reg .CTRL_ENABLE, .reg .ERR_CODE_CODE, .reg
    .ERR_CODE_MASTER, .reg .ERR_CODE_OVF, .reg .ERR_CODE_WORD, .reg .ERR_CODE_WRITE, .reg .POWER_STATUS_ENTERING, .reg
    .POWER_STATUS_EXITING, .reg .POWER_WAKE_STAT_CLASS, .reg .POWER_WAKE_STAT_FROM, .reg .QCLK_QCLK_STATUS_LOCKED, .reg
    .QCLK_QCLK_STATUS_STOPPED, .reg .SPARE_ELEM_TRIM_E, .reg .SPARE_GO_TRIM_GAIN, .reg .SPARE_GO_TRIM_OFFSET, .reg .SPARE_LADDER_TRIM_L,
    .reg .SPARE_STATUS_PHASE, .reg .SPARE_STATUS_VISIT_POS, .clocks, .pwr, .tiers] m) (a1 : Master) (a2 : Quad) : Ends m s0 (execQclkStop a1
    a2 s) := by
  unfold execQclkStop
  try dsimp only
  repeat' first
    | with_reducible assumption
    | exact Within.trans (Eq.refl _) hw
    | (intro _)
    | with_reducible apply cmd_keeps
    | with_reducible apply qclkStop_keeps
    | with_reducible apply Ends.ite
    | with_reducible apply Ends.next
    | split

theorem execQclkLocked_keeps (h : Keeps m s0 s) (hw : Within [.reg .QCLK_QCLK_STATUS_LOCKED, .reg .QCLK_QCLK_STATUS_READY] m) (a1 :
    Synth) : Ends m s0 (execQclkLocked a1 s) := by
  unfold execQclkLocked
  try dsimp only
  repeat' first
    | with_reducible assumption
    | exact Within.trans (Eq.refl _) hw
    | (intro _)
    | with_reducible apply wr_keeps
    | with_reducible apply on_keeps
    | with_reducible apply act_keeps
    | with_reducible apply Keeps.ite
    | with_reducible apply Ends.ite
    | with_reducible apply Ends.next
    | split

theorem execQclkSettleDone_keeps (h : Keeps m s0 s) (hw : Within [.reg .QCLK_QCLK_STATUS_SETTLING] m) (a1 : Quad) : Ends m s0
    (execQclkSettleDone a1 s) := by
  unfold execQclkSettleDone
  try dsimp only
  repeat' first
    | with_reducible assumption
    | exact Within.trans (Eq.refl _) hw
    | (intro _)
    | with_reducible apply wr_keeps
    | with_reducible apply act_keeps
    | with_reducible apply Ends.ite
    | with_reducible apply Ends.next
    | split

theorem lockLost_keeps (h : Keeps m s0 s) (hw : Within [.reg .BURNISH_STATUS_ROTATING, .reg .EVT_PEND_PEND, .reg .EVT_RAW_RAW, .reg
    .POWER_STATUS_ENTERING, .reg .POWER_STATUS_EXITING, .reg .POWER_WAKE_STAT_CLASS, .reg .POWER_WAKE_STAT_FROM, .reg
    .QCLK_QCLK_STATUS_LOCKED, .reg .QCLK_QCLK_STATUS_READY, .reg .QCLK_QCLK_STATUS_STOPPED, .reg .SPARE_ELEM_TRIM_E, .reg
    .SPARE_GO_TRIM_GAIN, .reg .SPARE_GO_TRIM_OFFSET, .reg .SPARE_LADDER_TRIM_L, .reg .SPARE_STATUS_PHASE, .reg .SPARE_STATUS_VISIT_POS,
    .presented, .clocks, .pwr, .tiers] m) (a1 : Nat) : Keeps m s0 (lockLost a1 s) := by
  unfold lockLost
  try dsimp only
  repeat' first
    | with_reducible assumption
    | exact Within.trans (Eq.refl _) hw
    | (intro _)
    | with_reducible apply wr_keeps
    | with_reducible apply each_keeps
    | with_reducible apply on_keeps
    | with_reducible apply raise_keeps
    | with_reducible apply stopClock_keeps
    | with_reducible apply wake_keeps
    | with_reducible apply Keeps.ite
    | split

theorem execLockLost_keeps (h : Keeps m s0 s) (hw : Within [.reg .BURNISH_STATUS_ROTATING, .reg .EVT_PEND_PEND, .reg .EVT_RAW_RAW, .reg
    .POWER_STATUS_ENTERING, .reg .POWER_STATUS_EXITING, .reg .POWER_WAKE_STAT_CLASS, .reg .POWER_WAKE_STAT_FROM, .reg
    .QCLK_QCLK_STATUS_LOCKED, .reg .QCLK_QCLK_STATUS_READY, .reg .QCLK_QCLK_STATUS_STOPPED, .reg .SPARE_ELEM_TRIM_E, .reg
    .SPARE_GO_TRIM_GAIN, .reg .SPARE_GO_TRIM_OFFSET, .reg .SPARE_LADDER_TRIM_L, .reg .SPARE_STATUS_PHASE, .reg .SPARE_STATUS_VISIT_POS,
    .presented, .clocks, .pwr, .tiers] m) (a1 : Synth) : Ends m s0 (execLockLost a1 s) := by
  unfold execLockLost
  try dsimp only
  repeat' first
    | with_reducible assumption
    | exact Within.trans (Eq.refl _) hw
    | (intro _)
    | with_reducible apply act_keeps
    | with_reducible apply lockLost_keeps
    | with_reducible apply Ends.ite
    | with_reducible apply Ends.next
    | split

theorem takeTimeline_keeps (h : Keeps m s0 s) (hw : Within [.reg .QCLK_ORIGIN_FRAC_FRAC, .reg .QCLK_ORIGIN_HI_ORIGIN_HI, .reg
    .QCLK_ORIGIN_LO_ORIGIN_LO, .eff] m) (a1 : Nat) : Keeps m s0 (takeTimeline a1 s) := by
  unfold takeTimeline
  try dsimp only
  repeat' first
    | with_reducible assumption
    | exact Within.trans (Eq.refl _) hw
    | with_reducible apply wrEff_keeps
    | with_reducible apply setOrigin_keeps

theorem spareFollows_keeps (h : Keeps m s0 s) (hw : Within [.reg .QCLK_ORIGIN_FRAC_FRAC, .reg .QCLK_ORIGIN_HI_ORIGIN_HI, .reg
    .QCLK_ORIGIN_LO_ORIGIN_LO, .reg .QCLK_QCLK_STATUS_LOCKED, .reg .QCLK_QCLK_STATUS_READY, .eff] m) (a1 : Nat) : Keeps m s0 (spareFollows
    a1 s) := by
  unfold spareFollows
  try dsimp only
  repeat' first
    | with_reducible assumption
    | exact Within.trans (Eq.refl _) hw
    | with_reducible apply wr_keeps
    | with_reducible apply takeTimeline_keeps
    | with_reducible apply Keeps.ite
    | split

theorem writeCover_keeps (h : Keeps m s0 s) (hw : Within [.reg .ERR_CODE_CODE, .reg .ERR_CODE_MASTER, .reg .ERR_CODE_OVF, .reg
    .ERR_CODE_WORD, .reg .ERR_CODE_WRITE, .reg .QCLK_COVER_QUAD, .reg .QCLK_COVER_VALID, .reg .QCLK_ORIGIN_FRAC_FRAC, .reg
    .QCLK_ORIGIN_HI_ORIGIN_HI, .reg .QCLK_ORIGIN_LO_ORIGIN_LO, .reg .QCLK_QCLK_STATUS_LOCKED, .reg .QCLK_QCLK_STATUS_READY, .reg
    .QCLK_QCLK_STATUS_STOPPED, .eff] m) (a1 : Nat) (a2 : Nat) : Keeps m s0 (writeCover a1 a2 s) := by
  unfold writeCover
  try dsimp only
  repeat' first
    | with_reducible assumption
    | exact Within.trans (Eq.refl _) hw
    | (intro _)
    | with_reducible apply wr_keeps
    | with_reducible apply actionErr_keeps
    | with_reducible apply takeTimeline_keeps
    | with_reducible apply Keeps.ite
    | split

theorem execSpareCoverAssign_keeps (h : Keeps m s0 s) (hw : Within [.reg .ERR_CODE_CODE, .reg .ERR_CODE_MASTER, .reg .ERR_CODE_OVF, .reg
    .ERR_CODE_WORD, .reg .ERR_CODE_WRITE, .reg .POWER_STATUS_ENTERING, .reg .POWER_STATUS_EXITING, .reg .POWER_WAKE_STAT_CLASS, .reg
    .POWER_WAKE_STAT_FROM, .reg .QCLK_COVER_QUAD, .reg .QCLK_COVER_VALID, .reg .QCLK_ORIGIN_FRAC_FRAC, .reg .QCLK_ORIGIN_HI_ORIGIN_HI, .reg
    .QCLK_ORIGIN_LO_ORIGIN_LO, .reg .QCLK_QCLK_STATUS_LOCKED, .reg .QCLK_QCLK_STATUS_READY, .reg .QCLK_QCLK_STATUS_STOPPED, .eff, .pwr] m)
    (a1 : Master) (a2 : Word) : Ends m s0 (execSpareCoverAssign a1 a2 s) := by
  unfold execSpareCoverAssign
  try dsimp only
  repeat' first
    | with_reducible assumption
    | exact Within.trans (Eq.refl _) hw
    | (intro _)
    | with_reducible apply cmd_keeps
    | with_reducible apply writeCover_keeps
    | with_reducible apply Ends.ite
    | with_reducible apply Ends.next
    | split

theorem execSpareSynthReady_keeps (h : Keeps m s0 s) (hw : Within [.reg .QCLK_QCLK_STATUS_LOCKED, .reg .QCLK_QCLK_STATUS_READY] m)  :
    Ends m s0 (execSpareSynthReady s) := by
  unfold execSpareSynthReady
  try dsimp only
  repeat' first
    | with_reducible assumption
    | exact Within.trans (Eq.refl _) hw
    | (intro _)
    | with_reducible apply wr_keeps
    | with_reducible apply on_keeps
    | with_reducible apply act_keeps
    | with_reducible apply Ends.ite
    | with_reducible apply Ends.next
    | split

theorem useSpareSet_keeps (h : Keeps m s0 s) (hw : Within [.reg .QCLK_QCLK_CFG_USE_SPARE, .clocks] m) (a1 : Nat) : Keeps m s0
    (useSpareSet a1 s) := by
  unfold useSpareSet
  try dsimp only
  repeat' first
    | with_reducible assumption
    | exact Within.trans (Eq.refl _) hw
    | with_reducible apply wr_keeps
    | with_reducible apply State.setClock_keeps

theorem execUseSpareSet_keeps (h : Keeps m s0 s) (hw : Within [.reg .ERR_CODE_CODE, .reg .ERR_CODE_MASTER, .reg .ERR_CODE_OVF, .reg
    .ERR_CODE_WORD, .reg .ERR_CODE_WRITE, .reg .POWER_STATUS_ENTERING, .reg .POWER_STATUS_EXITING, .reg .POWER_WAKE_STAT_CLASS, .reg
    .POWER_WAKE_STAT_FROM, .reg .QCLK_QCLK_CFG_USE_SPARE, .clocks, .pwr] m) (a1 : Master) (a2 : Quad) : Ends m s0 (execUseSpareSet a1 a2 s)
    := by
  unfold execUseSpareSet
  try dsimp only
  repeat' first
    | with_reducible assumption
    | exact Within.trans (Eq.refl _) hw
    | (intro _)
    | with_reducible apply cmd_keeps
    | with_reducible apply useSpareSet_keeps
    | with_reducible apply Ends.ite
    | with_reducible apply Ends.next
    | split

theorem rehome_keeps (h : Keeps m s0 s) (hw : Within [.reg .EVT_PEND_PEND, .reg .EVT_RAW_RAW, .reg .QCLK_QCLK_STATUS_ON_SPARE,
    .presented, .clocks, .sec] m) (a1 : Nat) : Keeps m s0 (rehome a1 s) := by
  unfold rehome
  try dsimp only
  repeat' first
    | with_reducible assumption
    | exact Within.trans (Eq.refl _) hw
    | with_reducible apply wr_keeps
    | with_reducible apply State.setClock_keeps
    | with_reducible apply raise_keeps
    | with_reducible apply Keeps.ite
    | split
    | (with_reducible apply Keeps.of_fields <;>
        first | with_reducible exact rfl | with_reducible exact Or.inl rfl | exact Or.inr (Within.trans (Eq.refl _) hw) | skip)

theorem execRehomed_keeps (h : Keeps m s0 s) (hw : Within [.reg .EVT_PEND_PEND, .reg .EVT_RAW_RAW, .reg .QCLK_QCLK_STATUS_ON_SPARE,
    .presented, .clocks, .sec] m) (a1 : Quad) : Ends m s0 (execRehomed a1 s) := by
  unfold execRehomed
  try dsimp only
  repeat' first
    | with_reducible assumption
    | exact Within.trans (Eq.refl _) hw
    | (intro _)
    | with_reducible apply on_keeps
    | with_reducible apply act_keeps
    | with_reducible apply rehome_keeps
    | with_reducible apply Ends.ite
    | with_reducible apply Ends.next
    | split

theorem useSpareClear_keeps (h : Keeps m s0 s) (hw : Within [.reg .QCLK_QCLK_CFG_USE_SPARE, .clocks] m) (a1 : Nat) : Keeps m s0
    (useSpareClear a1 s) := by
  unfold useSpareClear
  try dsimp only
  repeat' first
    | with_reducible assumption
    | exact Within.trans (Eq.refl _) hw
    | with_reducible apply wr_keeps
    | with_reducible apply State.setClock_keeps
    | with_reducible apply Keeps.ite
    | split

theorem execUseSpareClear_keeps (h : Keeps m s0 s) (hw : Within [.reg .ERR_CODE_CODE, .reg .ERR_CODE_MASTER, .reg .ERR_CODE_OVF, .reg
    .ERR_CODE_WORD, .reg .ERR_CODE_WRITE, .reg .POWER_STATUS_ENTERING, .reg .POWER_STATUS_EXITING, .reg .POWER_WAKE_STAT_CLASS, .reg
    .POWER_WAKE_STAT_FROM, .reg .QCLK_QCLK_CFG_USE_SPARE, .clocks, .pwr] m) (a1 : Master) (a2 : Quad) : Ends m s0 (execUseSpareClear a1 a2
    s) := by
  unfold execUseSpareClear
  try dsimp only
  repeat' first
    | with_reducible assumption
    | exact Within.trans (Eq.refl _) hw
    | (intro _)
    | with_reducible apply cmd_keeps
    | with_reducible apply useSpareClear_keeps
    | with_reducible apply Ends.ite
    | with_reducible apply Ends.next
    | split

theorem rehomeBack_keeps (h : Keeps m s0 s) (hw : Within [.reg .EVT_PEND_PEND, .reg .EVT_RAW_RAW, .reg .QCLK_QCLK_STATUS_LOCKED, .reg
    .QCLK_QCLK_STATUS_ON_SPARE, .reg .QCLK_QCLK_STATUS_READY, .presented, .clocks, .sec] m) (a1 : Nat) : Keeps m s0 (rehomeBack a1 s) := by
  unfold rehomeBack
  try dsimp only
  repeat' first
    | with_reducible assumption
    | exact Within.trans (Eq.refl _) hw
    | with_reducible apply wr_keeps
    | with_reducible apply State.setClock_keeps
    | with_reducible apply raise_keeps
    | with_reducible apply Keeps.ite
    | split
    | (with_reducible apply Keeps.of_fields <;>
        first | with_reducible exact rfl | with_reducible exact Or.inl rfl | exact Or.inr (Within.trans (Eq.refl _) hw) | skip)

theorem execRehomeBack_keeps (h : Keeps m s0 s) (hw : Within [.reg .EVT_PEND_PEND, .reg .EVT_RAW_RAW, .reg .QCLK_QCLK_STATUS_LOCKED,
    .reg .QCLK_QCLK_STATUS_ON_SPARE, .reg .QCLK_QCLK_STATUS_READY, .presented, .clocks, .sec] m) (a1 : Quad) : Ends m s0 (execRehomeBack a1
    s) := by
  unfold execRehomeBack
  try dsimp only
  repeat' first
    | with_reducible assumption
    | exact Within.trans (Eq.refl _) hw
    | (intro _)
    | with_reducible apply on_keeps
    | with_reducible apply act_keeps
    | with_reducible apply rehomeBack_keeps
    | with_reducible apply Ends.ite
    | with_reducible apply Ends.next
    | split

end Sys2Proof.Machine
end

