-- ==== Sys2Proof/Laws/RingsKeeps.lean ====
section
/-! SUPPORT. What the operations of Machine/Rings.lean keep: the queue, the invariant, and every part outside their footprint. -/

set_option maxRecDepth 4000
set_option linter.unusedTactic false
set_option linter.unreachableTactic false

namespace Sys2Proof.Machine

variable {m : Nat} {s0 s : State}

theorem emptyRing_keeps (h : Keeps m s0 s) (hw : Within [.cses, .rings] m) (a1 : Nat) : Keeps m s0 (emptyRing a1 s) := by
  unfold emptyRing
  try dsimp only
  repeat' first
    | with_reducible assumption
    | exact Within.trans (Eq.refl _) hw
    | with_reducible apply State.setCse_keeps
    | with_reducible apply State.setRing_keeps

theorem writeRingCfg_keeps (h : Keeps m s0 s) (hw : Within [.reg .ERR_CODE_CODE, .reg .ERR_CODE_MASTER, .reg .ERR_CODE_OVF, .reg
    .ERR_CODE_WORD, .reg .ERR_CODE_WRITE, .reg .TACK_RING_CFG_EN, .reg .TACK_RING_CFG_SIZE_LOG, .reg .TACK_RING_CFG_SPLIT, .cses, .rings] m)
    (a1 : Nat) (a2 : Nat) (a3 : Nat) : Keeps m s0 (writeRingCfg a1 a2 a3 s) := by
  unfold writeRingCfg
  try dsimp only
  repeat' first
    | with_reducible assumption
    | exact Within.trans (Eq.refl _) hw
    | (intro _)
    | with_reducible apply wr_keeps
    | with_reducible apply actionErr_keeps
    | with_reducible apply emptyRing_keeps
    | with_reducible apply Keeps.ite
    | split

theorem execRingEnable_keeps (h : Keeps m s0 s) (hw : Within [.reg .ERR_CODE_CODE, .reg .ERR_CODE_MASTER, .reg .ERR_CODE_OVF, .reg
    .ERR_CODE_WORD, .reg .ERR_CODE_WRITE, .reg .POWER_STATUS_ENTERING, .reg .POWER_STATUS_EXITING, .reg .POWER_WAKE_STAT_CLASS, .reg
    .POWER_WAKE_STAT_FROM, .reg .TACK_RING_CFG_EN, .reg .TACK_RING_CFG_SIZE_LOG, .reg .TACK_RING_CFG_SPLIT, .cses, .rings, .pwr] m) (a1 :
    Master) (a2 : Chan) (a3 : Fin 8) (a4 : Bool) : Ends m s0 (execRingEnable a1 a2 a3 a4 s) := by
  unfold execRingEnable
  try dsimp only
  repeat' first
    | with_reducible assumption
    | exact Within.trans (Eq.refl _) hw
    | (intro _)
    | with_reducible apply cmd_keeps
    | with_reducible apply writeRingCfg_keeps
    | with_reducible apply Keeps.ite
    | with_reducible apply Ends.ite
    | with_reducible apply Ends.next
    | split

theorem execRingDisable_keeps (h : Keeps m s0 s) (hw : Within [.reg .ERR_CODE_CODE, .reg .ERR_CODE_MASTER, .reg .ERR_CODE_OVF, .reg
    .ERR_CODE_WORD, .reg .ERR_CODE_WRITE, .reg .POWER_STATUS_ENTERING, .reg .POWER_STATUS_EXITING, .reg .POWER_WAKE_STAT_CLASS, .reg
    .POWER_WAKE_STAT_FROM, .reg .TACK_RING_CFG_EN, .reg .TACK_RING_CFG_SIZE_LOG, .reg .TACK_RING_CFG_SPLIT, .cses, .rings, .pwr] m) (a1 :
    Master) (a2 : Chan) : Ends m s0 (execRingDisable a1 a2 s) := by
  unfold execRingDisable
  try dsimp only
  repeat' first
    | with_reducible assumption
    | exact Within.trans (Eq.refl _) hw
    | (intro _)
    | with_reducible apply cmd_keeps
    | with_reducible apply writeRingCfg_keeps
    | with_reducible apply Ends.ite
    | with_reducible apply Ends.next
    | split

theorem copyByte_keeps (h : Keeps m s0 s) (hw : Within [.mem, .poison, .missed] m) (a1 : Nat) (a2 : Nat) (a3 : Nat) : Keeps m s0
    (copyByte a1 a2 a3 s) := by
  unfold copyByte
  try dsimp only
  repeat' first
    | with_reducible assumption
    | exact Within.trans (Eq.refl _) hw
    | with_reducible apply State.setByte_keeps
    | with_reducible apply State.setPoison_keeps
    | (with_reducible apply Keeps.of_fields <;>
        first | with_reducible exact rfl | with_reducible exact Or.inl rfl | exact Or.inr (Within.trans (Eq.refl _) hw) | skip)

theorem refill_keeps (h : Keeps m s0 s) (hw : Within [.reg .BENCH_BENCH_HEALTH_HEALTH, .reg .BENCH_BIST_STAT_PHASE, .reg
    .BENCH_ECC_CNT_CE, .reg .BENCH_ECC_CNT_UE, .reg .BENCH_STATUS_BIST_BUSY, .reg .BENCH_STATUS_SPARE_FREE, .reg .BENCH_UE_ADDR_IN_SPARE,
    .reg .BENCH_UE_ADDR_OFFSET, .reg .ERR_CODE_CODE, .reg .ERR_CODE_MASTER, .reg .ERR_CODE_OVF, .reg .ERR_CODE_WORD, .reg .ERR_CODE_WRITE,
    .reg .EVT_PEND_PEND, .reg .EVT_RAW_RAW, .reg .POWER_STATUS_ENTERING, .reg .POWER_STATUS_EXITING, .reg .POWER_WAKE_STAT_CLASS, .reg
    .POWER_WAKE_STAT_FROM, .reg .QUARRY_CAPACITY_N_ACTIVE, .reg .QUARRY_ECC_CNT_CE, .reg .QUARRY_ECC_CNT_UE, .reg .QUARRY_LRMAP_MAP, .reg
    .QUARRY_LRMAP_SPARE, .reg .QUARRY_RANK_STATE_STATE, .reg .QUARRY_STATUS_DEGRADED, .reg .QUARRY_STATUS_MIGRATING, .reg
    .QUARRY_UE_ADDR_HI_ADDR, .reg .QUARRY_UE_ADDR_HI_BANK, .reg .QUARRY_UE_ADDR_HI_RANK, .reg .QUARRY_UE_ADDR_LO_ADDR, .reg
    .SYS_ERR_ADDR_HI_ADDR, .reg .SYS_ERR_ADDR_HI_MASTER, .reg .SYS_ERR_ADDR_HI_WRITE, .reg .SYS_ERR_ADDR_LO_ADDR, .reg .TACK_SPILL,
    .presented, .holdoff, .mem, .poison, .rings, .pwr, .qry, .ben, .missed, .free] m) (a1 : Nat) (a2 : Nat) (a3 : Nat) (a4 : Player) : Keeps
    m s0 (refill a1 a2 a3 a4 s) := by
  unfold refill
  try dsimp only
  repeat' first
    | with_reducible assumption
    | exact Within.trans (Eq.refl _) hw
    | (intro _)
    | with_reducible apply wr_keeps
    | with_reducible apply each_keeps
    | with_reducible apply State.setRing_keeps
    | with_reducible apply copyByte_keeps
    | with_reducible apply denyMem_keeps
    | with_reducible apply eccRead_keeps
    | with_reducible apply raiseFor_keeps
    | with_reducible apply Keeps.ite
    | split

end Sys2Proof.Machine
end

