-- ==== Sys2Proof/Laws/SynthesisKeeps.lean ====
section
/-! SUPPORT. What the operations of Machine/Synthesis.lean keep: the queue, the invariant, and every part outside their footprint. -/

set_option maxRecDepth 4000
set_option linter.unusedTactic false
set_option linter.unreachableTactic false

namespace Sys2Proof.Machine

variable {m : Nat} {s0 s : State}

theorem speedCommand_keeps (h : Keeps m s0 s) (hw : Within [.reg .EVT_PEND_PEND, .reg .EVT_RAW_RAW, .presented, .wheels] m) (a1 : Nat)
    (a2 : Nat) (a3 : Nat) (a4 : Nat) (a5 : Nat) (a6 : Nat) (a7 : Option Nat) (a8 : Nat) : Keeps m s0 (speedCommand a1 a2 a3 a4 a5 a6 a7 a8
    s) := by
  unfold speedCommand
  try dsimp only
  repeat' first
    | with_reducible assumption
    | exact Within.trans (Eq.refl _) hw
    | with_reducible apply State.setWheel_keeps
    | with_reducible apply raise_keeps
    | with_reducible apply Keeps.ite
    | split
    | exact Nat.mod_lt _ (Nat.two_pow_pos 64)

theorem rerateWheel_keeps (h : Keeps m s0 s) (hw : Within [.wheels] m) (a1 : Nat) (a2 : Rat) : Keeps m s0 (rerateWheel a1 a2 s) := by
  unfold rerateWheel
  try dsimp only
  repeat' first
    | with_reducible assumption
    | exact Within.trans (Eq.refl _) hw
    | with_reducible apply State.setWheel_keeps
    | with_reducible apply Keeps.ite
    | split

theorem recomputeAlloc_keeps (h : Keeps m s0 s) (hw : Within [.reg .CSE_ALLOC_EFF_PART_EFF, .reg .CSE_ALLOC_EFF_PLAYERS_EFF, .reg
    .CSE_STATUS_BUDGET_CLAMP, .reg .EVT_PEND_PEND, .reg .EVT_RAW_RAW, .presented] m) (a1 : Nat) : Keeps m s0 (recomputeAlloc a1 s) := by
  unfold recomputeAlloc
  try dsimp only
  repeat' first
    | with_reducible assumption
    | exact Within.trans (Eq.refl _) hw
    | (intro _)
    | with_reducible apply wr_keeps
    | with_reducible apply each_keeps
    | with_reducible apply raise_keeps
    | with_reducible apply Keeps.ite
    | split

end Sys2Proof.Machine
end

