-- ==== Sys2Proof/Laws/DescriptorsKeeps.lean ====
section
/-! SUPPORT. What the operations of Machine/Descriptors.lean keep: the queue, the invariant, and every part outside their footprint. -/

set_option maxRecDepth 4000
set_option linter.unusedTactic false
set_option linter.unreachableTactic false

namespace Sys2Proof.Machine

variable {m : Nat} {s0 s : State}

theorem stand_keeps (h : Keeps m s0 s) (hw : Within [.reg .CSE_CUR_DESC_KIND, .reg .CSE_CUR_DESC_PRIO, .reg .CSE_CUR_DESC_SEQ, .reg
    .CSE_LATE_CNT_LATE, .reg .CSE_STATUS_IDLE, .reg .CSE_STATUS_OPEN, .reg .CSE_STATUS_RUNNING, .reg .EVT_PEND_PEND, .reg .EVT_RAW_RAW, .reg
    .OUT_FAULT_STAT_REPEAT_FAIL, .cap, .presented, .commits, .cses] m) (a1 : Nat) (a2 : Packet) (a3 : Descr) (a4 : Int) (a5 : Nat) (a6 :
    Option IdleMode) (a7 : Option Descr) (a8 : Option Nat) : Keeps m s0 (stand a1 a2 a3 a4 a5 a6 a7 a8 s) := by
  unfold stand
  try dsimp only
  repeat' first
    | with_reducible assumption
    | exact Within.trans (Eq.refl _) hw
    | with_reducible apply wr_keeps
    | with_reducible apply inc_keeps
    | with_reducible apply State.setCse_keeps
    | with_reducible apply packetCommits_keeps
    | with_reducible apply raise_keeps
    | with_reducible apply Keeps.ite
    | split

theorem countDiscard_keeps (h : Keeps m s0 s) (hw : Within [.reg .CSE_DISCARD_CNT_DISCARD, .reg .ERR_CODE_CODE, .reg .ERR_CODE_MASTER,
    .reg .ERR_CODE_OVF, .reg .ERR_CODE_WORD, .reg .ERR_CODE_WRITE, .reg .EVT_PEND_PEND, .reg .EVT_RAW_RAW, .presented] m) (a1 : Nat) (a2 :
    Nat) : Keeps m s0 (countDiscard a1 a2 s) := by
  unfold countDiscard
  try dsimp only
  repeat' first
    | with_reducible assumption
    | exact Within.trans (Eq.refl _) hw
    | with_reducible apply inc_keeps
    | with_reducible apply raise_keeps
    | with_reducible apply recordErr_keeps

theorem discard_keeps (h : Keeps m s0 s) (hw : Within [.reg .CSE_CUR_DESC_KIND, .reg .CSE_CUR_DESC_PRIO, .reg .CSE_CUR_DESC_SEQ, .reg
    .CSE_DISCARD_CNT_DISCARD, .reg .CSE_LATE_CNT_LATE, .reg .CSE_STATUS_IDLE, .reg .CSE_STATUS_OPEN, .reg .CSE_STATUS_RUNNING, .reg
    .ERR_CODE_CODE, .reg .ERR_CODE_MASTER, .reg .ERR_CODE_OVF, .reg .ERR_CODE_WORD, .reg .ERR_CODE_WRITE, .reg .EVT_PEND_PEND, .reg
    .EVT_RAW_RAW, .reg .OUT_FAULT_STAT_REPEAT_FAIL, .cap, .presented, .commits, .cses] m) (a1 : Nat) (a2 : Packet) (a3 : Descr) (a4 : Int)
    (a5 : Nat) (a6 : Nat) : Keeps m s0 (discard a1 a2 a3 a4 a5 a6 s) := by
  unfold discard
  try dsimp only
  repeat' first
    | with_reducible assumption
    | exact Within.trans (Eq.refl _) hw
    | with_reducible apply countDiscard_keeps
    | with_reducible apply stand_keeps
    | with_reducible apply Keeps.ite
    | split

theorem takeFence_keeps (h : Keeps m s0 s) (hw : Within [.reg .CSE_CUR_DESC_KIND, .reg .CSE_CUR_DESC_PRIO, .reg .CSE_CUR_DESC_SEQ, .reg
    .CSE_LATE_CNT_LATE, .reg .CSE_STATUS_IDLE, .reg .CSE_STATUS_OPEN, .reg .CSE_STATUS_RUNNING, .reg .EVT_PEND_PEND, .reg .EVT_RAW_RAW, .reg
    .OUT_FAULT_STAT_REPEAT_FAIL, .reg .TACK_FENCE_LAST_CH, .cap, .presented, .commits, .cses] m) (a1 : Nat) (a2 : Packet) (a3 : Descr) (a4 :
    Int) (a5 : Nat) : Keeps m s0 (takeFence a1 a2 a3 a4 a5 s) := by
  unfold takeFence
  try dsimp only
  repeat' first
    | with_reducible assumption
    | exact Within.trans (Eq.refl _) hw
    | with_reducible apply wr_keeps
    | with_reducible apply raise_keeps
    | with_reducible apply stand_keeps
    | with_reducible apply Keeps.ite
    | split

theorem takeIdle_keeps (h : Keeps m s0 s) (hw : Within [.reg .CSE_CUR_DESC_KIND, .reg .CSE_CUR_DESC_PRIO, .reg .CSE_CUR_DESC_SEQ, .reg
    .CSE_LATE_CNT_LATE, .reg .CSE_STATUS_IDLE, .reg .CSE_STATUS_OPEN, .reg .CSE_STATUS_RUNNING, .reg .EVT_PEND_PEND, .reg .EVT_RAW_RAW, .reg
    .OUT_FAULT_STAT_REPEAT_FAIL, .cap, .presented, .commits, .cses] m) (a1 : Nat) (a2 : Packet) (a3 : Descr) (a4 : Int) (a5 : Nat) : Keeps m
    s0 (takeIdle a1 a2 a3 a4 a5 s) := by
  unfold takeIdle
  try dsimp only
  repeat' first
    | with_reducible assumption
    | exact Within.trans (Eq.refl _) hw
    | with_reducible apply stand_keeps
    | with_reducible apply Keeps.ite
    | split

theorem applySpeed_keeps (h : Keeps m s0 s) (hw : Within [.reg .EVT_PEND_PEND, .reg .EVT_RAW_RAW, .presented, .wheels] m) (a1 : Nat) (a2
    : Descr) (a3 : Bool) (a4 : Nat) : Keeps m s0 (applySpeed a1 a2 a3 a4 s) := by
  unfold applySpeed
  try dsimp only
  repeat' first
    | with_reducible assumption
    | exact Within.trans (Eq.refl _) hw
    | with_reducible apply speedCommand_keeps
    | with_reducible apply Keeps.ite
    | split

theorem takeSpeed_keeps (h : Keeps m s0 s) (hw : Within [.reg .CSE_CUR_DESC_KIND, .reg .CSE_CUR_DESC_PRIO, .reg .CSE_CUR_DESC_SEQ, .reg
    .CSE_LATE_CNT_LATE, .reg .CSE_STATUS_IDLE, .reg .CSE_STATUS_OPEN, .reg .CSE_STATUS_RUNNING, .reg .EVT_PEND_PEND, .reg .EVT_RAW_RAW, .reg
    .OUT_FAULT_STAT_REPEAT_FAIL, .cap, .presented, .commits, .wheels, .cses] m) (a1 : Nat) (a2 : Packet) (a3 : Descr) (a4 : Int) (a5 : Nat)
    : Keeps m s0 (takeSpeed a1 a2 a3 a4 a5 s) := by
  unfold takeSpeed
  try dsimp only
  repeat' first
    | with_reducible assumption
    | exact Within.trans (Eq.refl _) hw
    | with_reducible apply State.setWheel_keeps
    | with_reducible apply applySpeed_keeps
    | with_reducible apply raise_keeps
    | with_reducible apply stand_keeps
    | with_reducible apply Keeps.ite
    | split

theorem noteSegment_keeps (h : Keeps m s0 s) (hw : Within [.reg .BENCH_BENCH_HEALTH_HEALTH, .reg .BENCH_BIST_STAT_PHASE, .reg
    .BENCH_BPWR_STAT_STATE, .reg .BENCH_ECC_CNT_CE, .reg .BENCH_ECC_CNT_UE, .reg .BENCH_STATUS_BIST_BUSY, .reg .BENCH_STATUS_SPARE_FREE,
    .reg .BENCH_UE_ADDR_IN_SPARE, .reg .BENCH_UE_ADDR_OFFSET, .reg .ERR_CODE_CODE, .reg .ERR_CODE_MASTER, .reg .ERR_CODE_OVF, .reg
    .ERR_CODE_WORD, .reg .ERR_CODE_WRITE, .reg .EVT_PEND_PEND, .reg .EVT_RAW_RAW, .reg .POWER_STATUS_ENTERING, .reg .POWER_STATUS_EXITING,
    .reg .POWER_WAKE_STAT_CLASS, .reg .POWER_WAKE_STAT_FROM, .reg .QUARRY_CAPACITY_N_ACTIVE, .reg .QUARRY_ECC_CNT_CE, .reg
    .QUARRY_ECC_CNT_UE, .reg .QUARRY_LRMAP_MAP, .reg .QUARRY_LRMAP_SPARE, .reg .QUARRY_RANK_STATE_STATE, .reg .QUARRY_STATUS_DEGRADED, .reg
    .QUARRY_STATUS_MIGRATING, .reg .QUARRY_UE_ADDR_HI_ADDR, .reg .QUARRY_UE_ADDR_HI_BANK, .reg .QUARRY_UE_ADDR_HI_RANK, .reg
    .QUARRY_UE_ADDR_LO_ADDR, .reg .SYS_ERR_ADDR_HI_ADDR, .reg .SYS_ERR_ADDR_HI_MASTER, .reg .SYS_ERR_ADDR_HI_WRITE, .reg
    .SYS_ERR_ADDR_LO_ADDR, .presented, .holdoff, .poison, .pwr, .qry, .ben, .free] m) (a1 : Nat) (a2 : Descr) : Keeps m s0 (noteSegment a1
    a2 s) := by
  unfold noteSegment
  try dsimp only
  repeat' first
    | with_reducible assumption
    | exact Within.trans (Eq.refl _) hw
    | with_reducible apply memRead_keeps
    | with_reducible apply noteRead_keeps
    | with_reducible apply Keeps.ite
    | split
    | with_reducible refine Keeps.of_snd (by assumption) ?_

theorem takeSources_keeps (h : Keeps m s0 s) (hw : Within [.reg .BENCH_BENCH_HEALTH_HEALTH, .reg .BENCH_BIST_STAT_PHASE, .reg
    .BENCH_BPWR_STAT_STATE, .reg .BENCH_ECC_CNT_CE, .reg .BENCH_ECC_CNT_UE, .reg .BENCH_STATUS_BIST_BUSY, .reg .BENCH_STATUS_SPARE_FREE,
    .reg .BENCH_UE_ADDR_IN_SPARE, .reg .BENCH_UE_ADDR_OFFSET, .reg .CSE_CUR_DESC_KIND, .reg .CSE_CUR_DESC_PRIO, .reg .CSE_CUR_DESC_SEQ, .reg
    .CSE_DISCARD_CNT_DISCARD, .reg .CSE_LATE_CNT_LATE, .reg .CSE_STATUS_IDLE, .reg .CSE_STATUS_OPEN, .reg .CSE_STATUS_RUNNING, .reg
    .ERR_CODE_CODE, .reg .ERR_CODE_MASTER, .reg .ERR_CODE_OVF, .reg .ERR_CODE_WORD, .reg .ERR_CODE_WRITE, .reg .EVT_PEND_PEND, .reg
    .EVT_RAW_RAW, .reg .OUT_FAULT_STAT_REPEAT_FAIL, .reg .POWER_STATUS_ENTERING, .reg .POWER_STATUS_EXITING, .reg .POWER_WAKE_STAT_CLASS,
    .reg .POWER_WAKE_STAT_FROM, .reg .QUARRY_CAPACITY_N_ACTIVE, .reg .QUARRY_ECC_CNT_CE, .reg .QUARRY_ECC_CNT_UE, .reg .QUARRY_LRMAP_MAP,
    .reg .QUARRY_LRMAP_SPARE, .reg .QUARRY_RANK_STATE_STATE, .reg .QUARRY_STATUS_DEGRADED, .reg .QUARRY_STATUS_MIGRATING, .reg
    .QUARRY_UE_ADDR_HI_ADDR, .reg .QUARRY_UE_ADDR_HI_BANK, .reg .QUARRY_UE_ADDR_HI_RANK, .reg .QUARRY_UE_ADDR_LO_ADDR, .reg
    .SYS_ERR_ADDR_HI_ADDR, .reg .SYS_ERR_ADDR_HI_MASTER, .reg .SYS_ERR_ADDR_HI_WRITE, .reg .SYS_ERR_ADDR_LO_ADDR, .cap, .presented,
    .commits, .holdoff, .poison, .cses, .rings, .pwr, .qry, .ben, .free] m) (a1 : Nat) (a2 : Packet) (a3 : Descr) (a4 : Int) (a5 : Nat) :
    KeepsOpt m s0 (takeSources a1 a2 a3 a4 a5 s) := by
  unfold takeSources
  try dsimp only
  repeat' first
    | with_reducible assumption
    | exact Within.trans (Eq.refl _) hw
    | with_reducible apply State.setCse_keeps
    | with_reducible apply State.setRing_keeps
    | with_reducible apply discard_keeps
    | with_reducible apply noteSegment_keeps
    | with_reducible apply raise_keeps
    | with_reducible apply stand_keeps
    | with_reducible apply Keeps.ite
    | with_reducible apply KeepsOpt.ite
    | with_reducible apply KeepsOpt.none
    | with_reducible apply KeepsOpt.some
    | split

theorem takeAlone_keeps (h : Keeps m s0 s) (hw : Within [.reg .BENCH_BENCH_HEALTH_HEALTH, .reg .BENCH_BIST_STAT_PHASE, .reg
    .BENCH_BPWR_STAT_STATE, .reg .BENCH_ECC_CNT_CE, .reg .BENCH_ECC_CNT_UE, .reg .BENCH_STATUS_BIST_BUSY, .reg .BENCH_STATUS_SPARE_FREE,
    .reg .BENCH_UE_ADDR_IN_SPARE, .reg .BENCH_UE_ADDR_OFFSET, .reg .CSE_CUR_DESC_KIND, .reg .CSE_CUR_DESC_PRIO, .reg .CSE_CUR_DESC_SEQ, .reg
    .CSE_DISCARD_CNT_DISCARD, .reg .CSE_LATE_CNT_LATE, .reg .CSE_STATUS_IDLE, .reg .CSE_STATUS_OPEN, .reg .CSE_STATUS_RUNNING, .reg
    .ERR_CODE_CODE, .reg .ERR_CODE_MASTER, .reg .ERR_CODE_OVF, .reg .ERR_CODE_WORD, .reg .ERR_CODE_WRITE, .reg .EVT_PEND_PEND, .reg
    .EVT_RAW_RAW, .reg .OUT_FAULT_STAT_REPEAT_FAIL, .reg .POWER_STATUS_ENTERING, .reg .POWER_STATUS_EXITING, .reg .POWER_WAKE_STAT_CLASS,
    .reg .POWER_WAKE_STAT_FROM, .reg .QUARRY_CAPACITY_N_ACTIVE, .reg .QUARRY_ECC_CNT_CE, .reg .QUARRY_ECC_CNT_UE, .reg .QUARRY_LRMAP_MAP,
    .reg .QUARRY_LRMAP_SPARE, .reg .QUARRY_RANK_STATE_STATE, .reg .QUARRY_STATUS_DEGRADED, .reg .QUARRY_STATUS_MIGRATING, .reg
    .QUARRY_UE_ADDR_HI_ADDR, .reg .QUARRY_UE_ADDR_HI_BANK, .reg .QUARRY_UE_ADDR_HI_RANK, .reg .QUARRY_UE_ADDR_LO_ADDR, .reg
    .SYS_ERR_ADDR_HI_ADDR, .reg .SYS_ERR_ADDR_HI_MASTER, .reg .SYS_ERR_ADDR_HI_WRITE, .reg .SYS_ERR_ADDR_LO_ADDR, .reg .TACK_FENCE_LAST_CH,
    .cap, .presented, .commits, .holdoff, .poison, .wheels, .cses, .queues, .rings, .pwr, .qry, .ben, .free] m) (a1 : Nat) : KeepsOpt m s0
    (takeAlone s a1) := by
  unfold takeAlone
  try dsimp only
  repeat' first
    | with_reducible assumption
    | exact Within.trans (Eq.refl _) hw
    | with_reducible apply State.setQueue_keeps
    | with_reducible apply discard_keeps
    | with_reducible apply takeFence_keeps
    | with_reducible apply takeIdle_keeps
    | with_reducible apply takeSources_keeps
    | with_reducible apply takeSpeed_keeps
    | with_reducible apply Keeps.ite
    | with_reducible apply KeepsOpt.ite
    | with_reducible apply KeepsOpt.none
    | with_reducible apply KeepsOpt.some
    | split

theorem takeStep_keeps (h : Keeps m s0 s) (hw : Within [.reg .BENCH_BENCH_HEALTH_HEALTH, .reg .BENCH_BIST_STAT_PHASE, .reg
    .BENCH_BPWR_STAT_STATE, .reg .BENCH_ECC_CNT_CE, .reg .BENCH_ECC_CNT_UE, .reg .BENCH_STATUS_BIST_BUSY, .reg .BENCH_STATUS_SPARE_FREE,
    .reg .BENCH_UE_ADDR_IN_SPARE, .reg .BENCH_UE_ADDR_OFFSET, .reg .CSE_CUR_DESC_KIND, .reg .CSE_CUR_DESC_PRIO, .reg .CSE_CUR_DESC_SEQ, .reg
    .CSE_DISCARD_CNT_DISCARD, .reg .CSE_LATE_CNT_LATE, .reg .CSE_STATUS_IDLE, .reg .CSE_STATUS_OPEN, .reg .CSE_STATUS_RUNNING, .reg
    .ERR_CODE_CODE, .reg .ERR_CODE_MASTER, .reg .ERR_CODE_OVF, .reg .ERR_CODE_WORD, .reg .ERR_CODE_WRITE, .reg .EVT_PEND_PEND, .reg
    .EVT_RAW_RAW, .reg .OUT_FAULT_STAT_REPEAT_FAIL, .reg .POWER_STATUS_ENTERING, .reg .POWER_STATUS_EXITING, .reg .POWER_WAKE_STAT_CLASS,
    .reg .POWER_WAKE_STAT_FROM, .reg .QUARRY_CAPACITY_N_ACTIVE, .reg .QUARRY_ECC_CNT_CE, .reg .QUARRY_ECC_CNT_UE, .reg .QUARRY_LRMAP_MAP,
    .reg .QUARRY_LRMAP_SPARE, .reg .QUARRY_RANK_STATE_STATE, .reg .QUARRY_STATUS_DEGRADED, .reg .QUARRY_STATUS_MIGRATING, .reg
    .QUARRY_UE_ADDR_HI_ADDR, .reg .QUARRY_UE_ADDR_HI_BANK, .reg .QUARRY_UE_ADDR_HI_RANK, .reg .QUARRY_UE_ADDR_LO_ADDR, .reg
    .SYS_ERR_ADDR_HI_ADDR, .reg .SYS_ERR_ADDR_HI_MASTER, .reg .SYS_ERR_ADDR_HI_WRITE, .reg .SYS_ERR_ADDR_LO_ADDR, .reg .TACK_FENCE_LAST_CH,
    .cap, .presented, .commits, .holdoff, .poison, .wheels, .cses, .queues, .rings, .pwr, .qry, .ben, .free] m) (a1 : Nat) : KeepsOpt m s0
    (takeStep s a1) := by
  unfold takeStep
  try dsimp only
  repeat' first
    | with_reducible assumption
    | exact Within.trans (Eq.refl _) hw
    | with_reducible apply takeAlone_keeps
    | with_reducible apply Keeps.ite
    | with_reducible apply KeepsOpt.ite
    | with_reducible apply KeepsOpt.none
    | with_reducible apply KeepsOpt.some
    | split

theorem takeKind_keeps (h : Keeps m s0 s) (hw : Within [.reg .BENCH_BENCH_HEALTH_HEALTH, .reg .BENCH_BIST_STAT_PHASE, .reg
    .BENCH_BPWR_STAT_STATE, .reg .BENCH_ECC_CNT_CE, .reg .BENCH_ECC_CNT_UE, .reg .BENCH_STATUS_BIST_BUSY, .reg .BENCH_STATUS_SPARE_FREE,
    .reg .BENCH_UE_ADDR_IN_SPARE, .reg .BENCH_UE_ADDR_OFFSET, .reg .CSE_CUR_DESC_KIND, .reg .CSE_CUR_DESC_PRIO, .reg .CSE_CUR_DESC_SEQ, .reg
    .CSE_DISCARD_CNT_DISCARD, .reg .CSE_LATE_CNT_LATE, .reg .CSE_STATUS_IDLE, .reg .CSE_STATUS_OPEN, .reg .CSE_STATUS_RUNNING, .reg
    .ERR_CODE_CODE, .reg .ERR_CODE_MASTER, .reg .ERR_CODE_OVF, .reg .ERR_CODE_WORD, .reg .ERR_CODE_WRITE, .reg .EVT_PEND_PEND, .reg
    .EVT_RAW_RAW, .reg .OUT_FAULT_STAT_REPEAT_FAIL, .reg .POWER_STATUS_ENTERING, .reg .POWER_STATUS_EXITING, .reg .POWER_WAKE_STAT_CLASS,
    .reg .POWER_WAKE_STAT_FROM, .reg .QUARRY_CAPACITY_N_ACTIVE, .reg .QUARRY_ECC_CNT_CE, .reg .QUARRY_ECC_CNT_UE, .reg .QUARRY_LRMAP_MAP,
    .reg .QUARRY_LRMAP_SPARE, .reg .QUARRY_RANK_STATE_STATE, .reg .QUARRY_STATUS_DEGRADED, .reg .QUARRY_STATUS_MIGRATING, .reg
    .QUARRY_UE_ADDR_HI_ADDR, .reg .QUARRY_UE_ADDR_HI_BANK, .reg .QUARRY_UE_ADDR_HI_RANK, .reg .QUARRY_UE_ADDR_LO_ADDR, .reg
    .SYS_ERR_ADDR_HI_ADDR, .reg .SYS_ERR_ADDR_HI_MASTER, .reg .SYS_ERR_ADDR_HI_WRITE, .reg .SYS_ERR_ADDR_LO_ADDR, .reg .TACK_FENCE_LAST_CH,
    .cap, .presented, .commits, .holdoff, .poison, .wheels, .cses, .queues, .rings, .pwr, .qry, .ben, .free] m) (a1 : List Nat) (a2 : Nat) :
    Keeps m s0 (takeKind a1 a2 s) := by
  unfold takeKind
  try dsimp only
  repeat' first
    | with_reducible assumption
    | exact Within.trans (Eq.refl _) hw
    | exact (takeStep_keeps (by with_reducible assumption) (Within.trans (Eq.refl _) hw) ..).keeps _ (by assumption)
    | with_reducible apply takeStep_keeps
    | with_reducible apply Keeps.ite
    | split
    | with_reducible apply KeepsOpt.getD

theorem execPlayTime_keeps (h : Keeps m s0 s) (hw : Within [.reg .BENCH_BENCH_HEALTH_HEALTH, .reg .BENCH_BIST_STAT_PHASE, .reg
    .BENCH_BPWR_STAT_STATE, .reg .BENCH_ECC_CNT_CE, .reg .BENCH_ECC_CNT_UE, .reg .BENCH_STATUS_BIST_BUSY, .reg .BENCH_STATUS_SPARE_FREE,
    .reg .BENCH_UE_ADDR_IN_SPARE, .reg .BENCH_UE_ADDR_OFFSET, .reg .CSE_CUR_DESC_KIND, .reg .CSE_CUR_DESC_PRIO, .reg .CSE_CUR_DESC_SEQ, .reg
    .CSE_DISCARD_CNT_DISCARD, .reg .CSE_LATE_CNT_LATE, .reg .CSE_STATUS_IDLE, .reg .CSE_STATUS_OPEN, .reg .CSE_STATUS_RUNNING, .reg
    .ERR_CODE_CODE, .reg .ERR_CODE_MASTER, .reg .ERR_CODE_OVF, .reg .ERR_CODE_WORD, .reg .ERR_CODE_WRITE, .reg .EVT_PEND_PEND, .reg
    .EVT_RAW_RAW, .reg .OUT_FAULT_STAT_REPEAT_FAIL, .reg .POWER_STATUS_ENTERING, .reg .POWER_STATUS_EXITING, .reg .POWER_WAKE_STAT_CLASS,
    .reg .POWER_WAKE_STAT_FROM, .reg .QUARRY_CAPACITY_N_ACTIVE, .reg .QUARRY_ECC_CNT_CE, .reg .QUARRY_ECC_CNT_UE, .reg .QUARRY_LRMAP_MAP,
    .reg .QUARRY_LRMAP_SPARE, .reg .QUARRY_RANK_STATE_STATE, .reg .QUARRY_STATUS_DEGRADED, .reg .QUARRY_STATUS_MIGRATING, .reg
    .QUARRY_UE_ADDR_HI_ADDR, .reg .QUARRY_UE_ADDR_HI_BANK, .reg .QUARRY_UE_ADDR_HI_RANK, .reg .QUARRY_UE_ADDR_LO_ADDR, .reg
    .SYS_ERR_ADDR_HI_ADDR, .reg .SYS_ERR_ADDR_HI_MASTER, .reg .SYS_ERR_ADDR_HI_WRITE, .reg .SYS_ERR_ADDR_LO_ADDR, .reg .TACK_FENCE_LAST_CH,
    .cap, .presented, .commits, .holdoff, .poison, .wheels, .cses, .queues, .rings, .pwr, .qry, .ben, .free] m) (a1 : Chan) : Ends m s0
    (execPlayTime a1 s) := by
  unfold execPlayTime
  try dsimp only
  repeat' first
    | with_reducible assumption
    | exact Within.trans (Eq.refl _) hw
    | (intro _)
    | with_reducible apply act_keeps
    | with_reducible apply takeKind_keeps
    | with_reducible apply Ends.ite
    | with_reducible apply Ends.next
    | split

theorem execPlayAngle_keeps (h : Keeps m s0 s) (hw : Within [.reg .BENCH_BENCH_HEALTH_HEALTH, .reg .BENCH_BIST_STAT_PHASE, .reg
    .BENCH_BPWR_STAT_STATE, .reg .BENCH_ECC_CNT_CE, .reg .BENCH_ECC_CNT_UE, .reg .BENCH_STATUS_BIST_BUSY, .reg .BENCH_STATUS_SPARE_FREE,
    .reg .BENCH_UE_ADDR_IN_SPARE, .reg .BENCH_UE_ADDR_OFFSET, .reg .CSE_CUR_DESC_KIND, .reg .CSE_CUR_DESC_PRIO, .reg .CSE_CUR_DESC_SEQ, .reg
    .CSE_DISCARD_CNT_DISCARD, .reg .CSE_LATE_CNT_LATE, .reg .CSE_STATUS_IDLE, .reg .CSE_STATUS_OPEN, .reg .CSE_STATUS_RUNNING, .reg
    .ERR_CODE_CODE, .reg .ERR_CODE_MASTER, .reg .ERR_CODE_OVF, .reg .ERR_CODE_WORD, .reg .ERR_CODE_WRITE, .reg .EVT_PEND_PEND, .reg
    .EVT_RAW_RAW, .reg .OUT_FAULT_STAT_REPEAT_FAIL, .reg .POWER_STATUS_ENTERING, .reg .POWER_STATUS_EXITING, .reg .POWER_WAKE_STAT_CLASS,
    .reg .POWER_WAKE_STAT_FROM, .reg .QUARRY_CAPACITY_N_ACTIVE, .reg .QUARRY_ECC_CNT_CE, .reg .QUARRY_ECC_CNT_UE, .reg .QUARRY_LRMAP_MAP,
    .reg .QUARRY_LRMAP_SPARE, .reg .QUARRY_RANK_STATE_STATE, .reg .QUARRY_STATUS_DEGRADED, .reg .QUARRY_STATUS_MIGRATING, .reg
    .QUARRY_UE_ADDR_HI_ADDR, .reg .QUARRY_UE_ADDR_HI_BANK, .reg .QUARRY_UE_ADDR_HI_RANK, .reg .QUARRY_UE_ADDR_LO_ADDR, .reg
    .SYS_ERR_ADDR_HI_ADDR, .reg .SYS_ERR_ADDR_HI_MASTER, .reg .SYS_ERR_ADDR_HI_WRITE, .reg .SYS_ERR_ADDR_LO_ADDR, .reg .TACK_FENCE_LAST_CH,
    .cap, .presented, .commits, .holdoff, .poison, .wheels, .cses, .queues, .rings, .pwr, .qry, .ben, .free] m) (a1 : Chan) : Ends m s0
    (execPlayAngle a1 s) := by
  unfold execPlayAngle
  try dsimp only
  repeat' first
    | with_reducible assumption
    | exact Within.trans (Eq.refl _) hw
    | (intro _)
    | with_reducible apply act_keeps
    | with_reducible apply takeKind_keeps
    | with_reducible apply Ends.ite
    | with_reducible apply Ends.next
    | split

theorem execPartials_keeps (h : Keeps m s0 s) (hw : Within [.reg .BENCH_BENCH_HEALTH_HEALTH, .reg .BENCH_BIST_STAT_PHASE, .reg
    .BENCH_BPWR_STAT_STATE, .reg .BENCH_ECC_CNT_CE, .reg .BENCH_ECC_CNT_UE, .reg .BENCH_STATUS_BIST_BUSY, .reg .BENCH_STATUS_SPARE_FREE,
    .reg .BENCH_UE_ADDR_IN_SPARE, .reg .BENCH_UE_ADDR_OFFSET, .reg .CSE_CUR_DESC_KIND, .reg .CSE_CUR_DESC_PRIO, .reg .CSE_CUR_DESC_SEQ, .reg
    .CSE_DISCARD_CNT_DISCARD, .reg .CSE_LATE_CNT_LATE, .reg .CSE_STATUS_IDLE, .reg .CSE_STATUS_OPEN, .reg .CSE_STATUS_RUNNING, .reg
    .ERR_CODE_CODE, .reg .ERR_CODE_MASTER, .reg .ERR_CODE_OVF, .reg .ERR_CODE_WORD, .reg .ERR_CODE_WRITE, .reg .EVT_PEND_PEND, .reg
    .EVT_RAW_RAW, .reg .OUT_FAULT_STAT_REPEAT_FAIL, .reg .POWER_STATUS_ENTERING, .reg .POWER_STATUS_EXITING, .reg .POWER_WAKE_STAT_CLASS,
    .reg .POWER_WAKE_STAT_FROM, .reg .QUARRY_CAPACITY_N_ACTIVE, .reg .QUARRY_ECC_CNT_CE, .reg .QUARRY_ECC_CNT_UE, .reg .QUARRY_LRMAP_MAP,
    .reg .QUARRY_LRMAP_SPARE, .reg .QUARRY_RANK_STATE_STATE, .reg .QUARRY_STATUS_DEGRADED, .reg .QUARRY_STATUS_MIGRATING, .reg
    .QUARRY_UE_ADDR_HI_ADDR, .reg .QUARRY_UE_ADDR_HI_BANK, .reg .QUARRY_UE_ADDR_HI_RANK, .reg .QUARRY_UE_ADDR_LO_ADDR, .reg
    .SYS_ERR_ADDR_HI_ADDR, .reg .SYS_ERR_ADDR_HI_MASTER, .reg .SYS_ERR_ADDR_HI_WRITE, .reg .SYS_ERR_ADDR_LO_ADDR, .reg .TACK_FENCE_LAST_CH,
    .cap, .presented, .commits, .holdoff, .poison, .wheels, .cses, .queues, .rings, .pwr, .qry, .ben, .free] m) (a1 : Chan) : Ends m s0
    (execPartials a1 s) := by
  unfold execPartials
  try dsimp only
  repeat' first
    | with_reducible assumption
    | exact Within.trans (Eq.refl _) hw
    | (intro _)
    | with_reducible apply act_keeps
    | with_reducible apply takeKind_keeps
    | with_reducible apply Ends.ite
    | with_reducible apply Ends.next
    | split

theorem execNoise_keeps (h : Keeps m s0 s) (hw : Within [.reg .BENCH_BENCH_HEALTH_HEALTH, .reg .BENCH_BIST_STAT_PHASE, .reg
    .BENCH_BPWR_STAT_STATE, .reg .BENCH_ECC_CNT_CE, .reg .BENCH_ECC_CNT_UE, .reg .BENCH_STATUS_BIST_BUSY, .reg .BENCH_STATUS_SPARE_FREE,
    .reg .BENCH_UE_ADDR_IN_SPARE, .reg .BENCH_UE_ADDR_OFFSET, .reg .CSE_CUR_DESC_KIND, .reg .CSE_CUR_DESC_PRIO, .reg .CSE_CUR_DESC_SEQ, .reg
    .CSE_DISCARD_CNT_DISCARD, .reg .CSE_LATE_CNT_LATE, .reg .CSE_STATUS_IDLE, .reg .CSE_STATUS_OPEN, .reg .CSE_STATUS_RUNNING, .reg
    .ERR_CODE_CODE, .reg .ERR_CODE_MASTER, .reg .ERR_CODE_OVF, .reg .ERR_CODE_WORD, .reg .ERR_CODE_WRITE, .reg .EVT_PEND_PEND, .reg
    .EVT_RAW_RAW, .reg .OUT_FAULT_STAT_REPEAT_FAIL, .reg .POWER_STATUS_ENTERING, .reg .POWER_STATUS_EXITING, .reg .POWER_WAKE_STAT_CLASS,
    .reg .POWER_WAKE_STAT_FROM, .reg .QUARRY_CAPACITY_N_ACTIVE, .reg .QUARRY_ECC_CNT_CE, .reg .QUARRY_ECC_CNT_UE, .reg .QUARRY_LRMAP_MAP,
    .reg .QUARRY_LRMAP_SPARE, .reg .QUARRY_RANK_STATE_STATE, .reg .QUARRY_STATUS_DEGRADED, .reg .QUARRY_STATUS_MIGRATING, .reg
    .QUARRY_UE_ADDR_HI_ADDR, .reg .QUARRY_UE_ADDR_HI_BANK, .reg .QUARRY_UE_ADDR_HI_RANK, .reg .QUARRY_UE_ADDR_LO_ADDR, .reg
    .SYS_ERR_ADDR_HI_ADDR, .reg .SYS_ERR_ADDR_HI_MASTER, .reg .SYS_ERR_ADDR_HI_WRITE, .reg .SYS_ERR_ADDR_LO_ADDR, .reg .TACK_FENCE_LAST_CH,
    .cap, .presented, .commits, .holdoff, .poison, .wheels, .cses, .queues, .rings, .pwr, .qry, .ben, .free] m) (a1 : Chan) : Ends m s0
    (execNoise a1 s) := by
  unfold execNoise
  try dsimp only
  repeat' first
    | with_reducible assumption
    | exact Within.trans (Eq.refl _) hw
    | (intro _)
    | with_reducible apply act_keeps
    | with_reducible apply takeKind_keeps
    | with_reducible apply Ends.ite
    | with_reducible apply Ends.next
    | split

theorem execLevel_keeps (h : Keeps m s0 s) (hw : Within [.reg .BENCH_BENCH_HEALTH_HEALTH, .reg .BENCH_BIST_STAT_PHASE, .reg
    .BENCH_BPWR_STAT_STATE, .reg .BENCH_ECC_CNT_CE, .reg .BENCH_ECC_CNT_UE, .reg .BENCH_STATUS_BIST_BUSY, .reg .BENCH_STATUS_SPARE_FREE,
    .reg .BENCH_UE_ADDR_IN_SPARE, .reg .BENCH_UE_ADDR_OFFSET, .reg .CSE_CUR_DESC_KIND, .reg .CSE_CUR_DESC_PRIO, .reg .CSE_CUR_DESC_SEQ, .reg
    .CSE_DISCARD_CNT_DISCARD, .reg .CSE_LATE_CNT_LATE, .reg .CSE_STATUS_IDLE, .reg .CSE_STATUS_OPEN, .reg .CSE_STATUS_RUNNING, .reg
    .ERR_CODE_CODE, .reg .ERR_CODE_MASTER, .reg .ERR_CODE_OVF, .reg .ERR_CODE_WORD, .reg .ERR_CODE_WRITE, .reg .EVT_PEND_PEND, .reg
    .EVT_RAW_RAW, .reg .OUT_FAULT_STAT_REPEAT_FAIL, .reg .POWER_STATUS_ENTERING, .reg .POWER_STATUS_EXITING, .reg .POWER_WAKE_STAT_CLASS,
    .reg .POWER_WAKE_STAT_FROM, .reg .QUARRY_CAPACITY_N_ACTIVE, .reg .QUARRY_ECC_CNT_CE, .reg .QUARRY_ECC_CNT_UE, .reg .QUARRY_LRMAP_MAP,
    .reg .QUARRY_LRMAP_SPARE, .reg .QUARRY_RANK_STATE_STATE, .reg .QUARRY_STATUS_DEGRADED, .reg .QUARRY_STATUS_MIGRATING, .reg
    .QUARRY_UE_ADDR_HI_ADDR, .reg .QUARRY_UE_ADDR_HI_BANK, .reg .QUARRY_UE_ADDR_HI_RANK, .reg .QUARRY_UE_ADDR_LO_ADDR, .reg
    .SYS_ERR_ADDR_HI_ADDR, .reg .SYS_ERR_ADDR_HI_MASTER, .reg .SYS_ERR_ADDR_HI_WRITE, .reg .SYS_ERR_ADDR_LO_ADDR, .reg .TACK_FENCE_LAST_CH,
    .cap, .presented, .commits, .holdoff, .poison, .wheels, .cses, .queues, .rings, .pwr, .qry, .ben, .free] m) (a1 : Chan) : Ends m s0
    (execLevel a1 s) := by
  unfold execLevel
  try dsimp only
  repeat' first
    | with_reducible assumption
    | exact Within.trans (Eq.refl _) hw
    | (intro _)
    | with_reducible apply act_keeps
    | with_reducible apply takeKind_keeps
    | with_reducible apply Ends.ite
    | with_reducible apply Ends.next
    | split

theorem execDescRamp_keeps (h : Keeps m s0 s) (hw : Within [.reg .BENCH_BENCH_HEALTH_HEALTH, .reg .BENCH_BIST_STAT_PHASE, .reg
    .BENCH_BPWR_STAT_STATE, .reg .BENCH_ECC_CNT_CE, .reg .BENCH_ECC_CNT_UE, .reg .BENCH_STATUS_BIST_BUSY, .reg .BENCH_STATUS_SPARE_FREE,
    .reg .BENCH_UE_ADDR_IN_SPARE, .reg .BENCH_UE_ADDR_OFFSET, .reg .CSE_CUR_DESC_KIND, .reg .CSE_CUR_DESC_PRIO, .reg .CSE_CUR_DESC_SEQ, .reg
    .CSE_DISCARD_CNT_DISCARD, .reg .CSE_LATE_CNT_LATE, .reg .CSE_STATUS_IDLE, .reg .CSE_STATUS_OPEN, .reg .CSE_STATUS_RUNNING, .reg
    .ERR_CODE_CODE, .reg .ERR_CODE_MASTER, .reg .ERR_CODE_OVF, .reg .ERR_CODE_WORD, .reg .ERR_CODE_WRITE, .reg .EVT_PEND_PEND, .reg
    .EVT_RAW_RAW, .reg .OUT_FAULT_STAT_REPEAT_FAIL, .reg .POWER_STATUS_ENTERING, .reg .POWER_STATUS_EXITING, .reg .POWER_WAKE_STAT_CLASS,
    .reg .POWER_WAKE_STAT_FROM, .reg .QUARRY_CAPACITY_N_ACTIVE, .reg .QUARRY_ECC_CNT_CE, .reg .QUARRY_ECC_CNT_UE, .reg .QUARRY_LRMAP_MAP,
    .reg .QUARRY_LRMAP_SPARE, .reg .QUARRY_RANK_STATE_STATE, .reg .QUARRY_STATUS_DEGRADED, .reg .QUARRY_STATUS_MIGRATING, .reg
    .QUARRY_UE_ADDR_HI_ADDR, .reg .QUARRY_UE_ADDR_HI_BANK, .reg .QUARRY_UE_ADDR_HI_RANK, .reg .QUARRY_UE_ADDR_LO_ADDR, .reg
    .SYS_ERR_ADDR_HI_ADDR, .reg .SYS_ERR_ADDR_HI_MASTER, .reg .SYS_ERR_ADDR_HI_WRITE, .reg .SYS_ERR_ADDR_LO_ADDR, .reg .TACK_FENCE_LAST_CH,
    .cap, .presented, .commits, .holdoff, .poison, .wheels, .cses, .queues, .rings, .pwr, .qry, .ben, .free] m) (a1 : Chan) : Ends m s0
    (execDescRamp a1 s) := by
  unfold execDescRamp
  try dsimp only
  repeat' first
    | with_reducible assumption
    | exact Within.trans (Eq.refl _) hw
    | (intro _)
    | with_reducible apply act_keeps
    | with_reducible apply takeKind_keeps
    | with_reducible apply Ends.ite
    | with_reducible apply Ends.next
    | split

theorem execPattern_keeps (h : Keeps m s0 s) (hw : Within [.reg .BENCH_BENCH_HEALTH_HEALTH, .reg .BENCH_BIST_STAT_PHASE, .reg
    .BENCH_BPWR_STAT_STATE, .reg .BENCH_ECC_CNT_CE, .reg .BENCH_ECC_CNT_UE, .reg .BENCH_STATUS_BIST_BUSY, .reg .BENCH_STATUS_SPARE_FREE,
    .reg .BENCH_UE_ADDR_IN_SPARE, .reg .BENCH_UE_ADDR_OFFSET, .reg .CSE_CUR_DESC_KIND, .reg .CSE_CUR_DESC_PRIO, .reg .CSE_CUR_DESC_SEQ, .reg
    .CSE_DISCARD_CNT_DISCARD, .reg .CSE_LATE_CNT_LATE, .reg .CSE_STATUS_IDLE, .reg .CSE_STATUS_OPEN, .reg .CSE_STATUS_RUNNING, .reg
    .ERR_CODE_CODE, .reg .ERR_CODE_MASTER, .reg .ERR_CODE_OVF, .reg .ERR_CODE_WORD, .reg .ERR_CODE_WRITE, .reg .EVT_PEND_PEND, .reg
    .EVT_RAW_RAW, .reg .OUT_FAULT_STAT_REPEAT_FAIL, .reg .POWER_STATUS_ENTERING, .reg .POWER_STATUS_EXITING, .reg .POWER_WAKE_STAT_CLASS,
    .reg .POWER_WAKE_STAT_FROM, .reg .QUARRY_CAPACITY_N_ACTIVE, .reg .QUARRY_ECC_CNT_CE, .reg .QUARRY_ECC_CNT_UE, .reg .QUARRY_LRMAP_MAP,
    .reg .QUARRY_LRMAP_SPARE, .reg .QUARRY_RANK_STATE_STATE, .reg .QUARRY_STATUS_DEGRADED, .reg .QUARRY_STATUS_MIGRATING, .reg
    .QUARRY_UE_ADDR_HI_ADDR, .reg .QUARRY_UE_ADDR_HI_BANK, .reg .QUARRY_UE_ADDR_HI_RANK, .reg .QUARRY_UE_ADDR_LO_ADDR, .reg
    .SYS_ERR_ADDR_HI_ADDR, .reg .SYS_ERR_ADDR_HI_MASTER, .reg .SYS_ERR_ADDR_HI_WRITE, .reg .SYS_ERR_ADDR_LO_ADDR, .reg .TACK_FENCE_LAST_CH,
    .cap, .presented, .commits, .holdoff, .poison, .wheels, .cses, .queues, .rings, .pwr, .qry, .ben, .free] m) (a1 : Chan) : Ends m s0
    (execPattern a1 s) := by
  unfold execPattern
  try dsimp only
  repeat' first
    | with_reducible assumption
    | exact Within.trans (Eq.refl _) hw
    | (intro _)
    | with_reducible apply act_keeps
    | with_reducible apply takeKind_keeps
    | with_reducible apply Ends.ite
    | with_reducible apply Ends.next
    | split

theorem execDescSpeed_keeps (h : Keeps m s0 s) (hw : Within [.reg .BENCH_BENCH_HEALTH_HEALTH, .reg .BENCH_BIST_STAT_PHASE, .reg
    .BENCH_BPWR_STAT_STATE, .reg .BENCH_ECC_CNT_CE, .reg .BENCH_ECC_CNT_UE, .reg .BENCH_STATUS_BIST_BUSY, .reg .BENCH_STATUS_SPARE_FREE,
    .reg .BENCH_UE_ADDR_IN_SPARE, .reg .BENCH_UE_ADDR_OFFSET, .reg .CSE_CUR_DESC_KIND, .reg .CSE_CUR_DESC_PRIO, .reg .CSE_CUR_DESC_SEQ, .reg
    .CSE_DISCARD_CNT_DISCARD, .reg .CSE_LATE_CNT_LATE, .reg .CSE_STATUS_IDLE, .reg .CSE_STATUS_OPEN, .reg .CSE_STATUS_RUNNING, .reg
    .ERR_CODE_CODE, .reg .ERR_CODE_MASTER, .reg .ERR_CODE_OVF, .reg .ERR_CODE_WORD, .reg .ERR_CODE_WRITE, .reg .EVT_PEND_PEND, .reg
    .EVT_RAW_RAW, .reg .OUT_FAULT_STAT_REPEAT_FAIL, .reg .POWER_STATUS_ENTERING, .reg .POWER_STATUS_EXITING, .reg .POWER_WAKE_STAT_CLASS,
    .reg .POWER_WAKE_STAT_FROM, .reg .QUARRY_CAPACITY_N_ACTIVE, .reg .QUARRY_ECC_CNT_CE, .reg .QUARRY_ECC_CNT_UE, .reg .QUARRY_LRMAP_MAP,
    .reg .QUARRY_LRMAP_SPARE, .reg .QUARRY_RANK_STATE_STATE, .reg .QUARRY_STATUS_DEGRADED, .reg .QUARRY_STATUS_MIGRATING, .reg
    .QUARRY_UE_ADDR_HI_ADDR, .reg .QUARRY_UE_ADDR_HI_BANK, .reg .QUARRY_UE_ADDR_HI_RANK, .reg .QUARRY_UE_ADDR_LO_ADDR, .reg
    .SYS_ERR_ADDR_HI_ADDR, .reg .SYS_ERR_ADDR_HI_MASTER, .reg .SYS_ERR_ADDR_HI_WRITE, .reg .SYS_ERR_ADDR_LO_ADDR, .reg .TACK_FENCE_LAST_CH,
    .cap, .presented, .commits, .holdoff, .poison, .wheels, .cses, .queues, .rings, .pwr, .qry, .ben, .free] m) (a1 : Chan) : Ends m s0
    (execDescSpeed a1 s) := by
  unfold execDescSpeed
  try dsimp only
  repeat' first
    | with_reducible assumption
    | exact Within.trans (Eq.refl _) hw
    | (intro _)
    | with_reducible apply act_keeps
    | with_reducible apply takeKind_keeps
    | with_reducible apply Ends.ite
    | with_reducible apply Ends.next
    | split

theorem execDescMark_keeps (h : Keeps m s0 s) (hw : Within [.reg .BENCH_BENCH_HEALTH_HEALTH, .reg .BENCH_BIST_STAT_PHASE, .reg
    .BENCH_BPWR_STAT_STATE, .reg .BENCH_ECC_CNT_CE, .reg .BENCH_ECC_CNT_UE, .reg .BENCH_STATUS_BIST_BUSY, .reg .BENCH_STATUS_SPARE_FREE,
    .reg .BENCH_UE_ADDR_IN_SPARE, .reg .BENCH_UE_ADDR_OFFSET, .reg .CSE_CUR_DESC_KIND, .reg .CSE_CUR_DESC_PRIO, .reg .CSE_CUR_DESC_SEQ, .reg
    .CSE_DISCARD_CNT_DISCARD, .reg .CSE_LATE_CNT_LATE, .reg .CSE_STATUS_IDLE, .reg .CSE_STATUS_OPEN, .reg .CSE_STATUS_RUNNING, .reg
    .ERR_CODE_CODE, .reg .ERR_CODE_MASTER, .reg .ERR_CODE_OVF, .reg .ERR_CODE_WORD, .reg .ERR_CODE_WRITE, .reg .EVT_PEND_PEND, .reg
    .EVT_RAW_RAW, .reg .OUT_FAULT_STAT_REPEAT_FAIL, .reg .POWER_STATUS_ENTERING, .reg .POWER_STATUS_EXITING, .reg .POWER_WAKE_STAT_CLASS,
    .reg .POWER_WAKE_STAT_FROM, .reg .QUARRY_CAPACITY_N_ACTIVE, .reg .QUARRY_ECC_CNT_CE, .reg .QUARRY_ECC_CNT_UE, .reg .QUARRY_LRMAP_MAP,
    .reg .QUARRY_LRMAP_SPARE, .reg .QUARRY_RANK_STATE_STATE, .reg .QUARRY_STATUS_DEGRADED, .reg .QUARRY_STATUS_MIGRATING, .reg
    .QUARRY_UE_ADDR_HI_ADDR, .reg .QUARRY_UE_ADDR_HI_BANK, .reg .QUARRY_UE_ADDR_HI_RANK, .reg .QUARRY_UE_ADDR_LO_ADDR, .reg
    .SYS_ERR_ADDR_HI_ADDR, .reg .SYS_ERR_ADDR_HI_MASTER, .reg .SYS_ERR_ADDR_HI_WRITE, .reg .SYS_ERR_ADDR_LO_ADDR, .reg .TACK_FENCE_LAST_CH,
    .cap, .presented, .commits, .holdoff, .poison, .wheels, .cses, .queues, .rings, .pwr, .qry, .ben, .free] m) (a1 : Chan) : Ends m s0
    (execDescMark a1 s) := by
  unfold execDescMark
  try dsimp only
  repeat' first
    | with_reducible assumption
    | exact Within.trans (Eq.refl _) hw
    | (intro _)
    | with_reducible apply act_keeps
    | with_reducible apply takeKind_keeps
    | with_reducible apply Ends.ite
    | with_reducible apply Ends.next
    | split

theorem execIdle_keeps (h : Keeps m s0 s) (hw : Within [.reg .BENCH_BENCH_HEALTH_HEALTH, .reg .BENCH_BIST_STAT_PHASE, .reg
    .BENCH_BPWR_STAT_STATE, .reg .BENCH_ECC_CNT_CE, .reg .BENCH_ECC_CNT_UE, .reg .BENCH_STATUS_BIST_BUSY, .reg .BENCH_STATUS_SPARE_FREE,
    .reg .BENCH_UE_ADDR_IN_SPARE, .reg .BENCH_UE_ADDR_OFFSET, .reg .CSE_CUR_DESC_KIND, .reg .CSE_CUR_DESC_PRIO, .reg .CSE_CUR_DESC_SEQ, .reg
    .CSE_DISCARD_CNT_DISCARD, .reg .CSE_LATE_CNT_LATE, .reg .CSE_STATUS_IDLE, .reg .CSE_STATUS_OPEN, .reg .CSE_STATUS_RUNNING, .reg
    .ERR_CODE_CODE, .reg .ERR_CODE_MASTER, .reg .ERR_CODE_OVF, .reg .ERR_CODE_WORD, .reg .ERR_CODE_WRITE, .reg .EVT_PEND_PEND, .reg
    .EVT_RAW_RAW, .reg .OUT_FAULT_STAT_REPEAT_FAIL, .reg .POWER_STATUS_ENTERING, .reg .POWER_STATUS_EXITING, .reg .POWER_WAKE_STAT_CLASS,
    .reg .POWER_WAKE_STAT_FROM, .reg .QUARRY_CAPACITY_N_ACTIVE, .reg .QUARRY_ECC_CNT_CE, .reg .QUARRY_ECC_CNT_UE, .reg .QUARRY_LRMAP_MAP,
    .reg .QUARRY_LRMAP_SPARE, .reg .QUARRY_RANK_STATE_STATE, .reg .QUARRY_STATUS_DEGRADED, .reg .QUARRY_STATUS_MIGRATING, .reg
    .QUARRY_UE_ADDR_HI_ADDR, .reg .QUARRY_UE_ADDR_HI_BANK, .reg .QUARRY_UE_ADDR_HI_RANK, .reg .QUARRY_UE_ADDR_LO_ADDR, .reg
    .SYS_ERR_ADDR_HI_ADDR, .reg .SYS_ERR_ADDR_HI_MASTER, .reg .SYS_ERR_ADDR_HI_WRITE, .reg .SYS_ERR_ADDR_LO_ADDR, .reg .TACK_FENCE_LAST_CH,
    .cap, .presented, .commits, .holdoff, .poison, .wheels, .cses, .queues, .rings, .pwr, .qry, .ben, .free] m) (a1 : Chan) : Ends m s0
    (execIdle a1 s) := by
  unfold execIdle
  try dsimp only
  repeat' first
    | with_reducible assumption
    | exact Within.trans (Eq.refl _) hw
    | (intro _)
    | with_reducible apply act_keeps
    | with_reducible apply takeKind_keeps
    | with_reducible apply Ends.ite
    | with_reducible apply Ends.next
    | split

theorem execFence_keeps (h : Keeps m s0 s) (hw : Within [.reg .BENCH_BENCH_HEALTH_HEALTH, .reg .BENCH_BIST_STAT_PHASE, .reg
    .BENCH_BPWR_STAT_STATE, .reg .BENCH_ECC_CNT_CE, .reg .BENCH_ECC_CNT_UE, .reg .BENCH_STATUS_BIST_BUSY, .reg .BENCH_STATUS_SPARE_FREE,
    .reg .BENCH_UE_ADDR_IN_SPARE, .reg .BENCH_UE_ADDR_OFFSET, .reg .CSE_CUR_DESC_KIND, .reg .CSE_CUR_DESC_PRIO, .reg .CSE_CUR_DESC_SEQ, .reg
    .CSE_DISCARD_CNT_DISCARD, .reg .CSE_LATE_CNT_LATE, .reg .CSE_STATUS_IDLE, .reg .CSE_STATUS_OPEN, .reg .CSE_STATUS_RUNNING, .reg
    .ERR_CODE_CODE, .reg .ERR_CODE_MASTER, .reg .ERR_CODE_OVF, .reg .ERR_CODE_WORD, .reg .ERR_CODE_WRITE, .reg .EVT_PEND_PEND, .reg
    .EVT_RAW_RAW, .reg .OUT_FAULT_STAT_REPEAT_FAIL, .reg .POWER_STATUS_ENTERING, .reg .POWER_STATUS_EXITING, .reg .POWER_WAKE_STAT_CLASS,
    .reg .POWER_WAKE_STAT_FROM, .reg .QUARRY_CAPACITY_N_ACTIVE, .reg .QUARRY_ECC_CNT_CE, .reg .QUARRY_ECC_CNT_UE, .reg .QUARRY_LRMAP_MAP,
    .reg .QUARRY_LRMAP_SPARE, .reg .QUARRY_RANK_STATE_STATE, .reg .QUARRY_STATUS_DEGRADED, .reg .QUARRY_STATUS_MIGRATING, .reg
    .QUARRY_UE_ADDR_HI_ADDR, .reg .QUARRY_UE_ADDR_HI_BANK, .reg .QUARRY_UE_ADDR_HI_RANK, .reg .QUARRY_UE_ADDR_LO_ADDR, .reg
    .SYS_ERR_ADDR_HI_ADDR, .reg .SYS_ERR_ADDR_HI_MASTER, .reg .SYS_ERR_ADDR_HI_WRITE, .reg .SYS_ERR_ADDR_LO_ADDR, .reg .TACK_FENCE_LAST_CH,
    .cap, .presented, .commits, .holdoff, .poison, .wheels, .cses, .queues, .rings, .pwr, .qry, .ben, .free] m) (a1 : Chan) : Ends m s0
    (execFence a1 s) := by
  unfold execFence
  try dsimp only
  repeat' first
    | with_reducible assumption
    | exact Within.trans (Eq.refl _) hw
    | (intro _)
    | with_reducible apply act_keeps
    | with_reducible apply takeKind_keeps
    | with_reducible apply Ends.ite
    | with_reducible apply Ends.next
    | split

theorem enterIdle_keeps (h : Keeps m s0 s) (hw : Within [.reg .CSE_STATUS_IDLE, .reg .CSE_STATUS_OPEN, .reg .EVT_PEND_PEND, .reg
    .EVT_RAW_RAW, .presented, .cses] m) (a1 : Nat) : Keeps m s0 (enterIdle a1 s) := by
  unfold enterIdle
  try dsimp only
  repeat' first
    | with_reducible assumption
    | exact Within.trans (Eq.refl _) hw
    | with_reducible apply wr_keeps
    | with_reducible apply State.setCse_keeps
    | with_reducible apply raise_keeps

theorem execChannelIdleEnter_keeps (h : Keeps m s0 s) (hw : Within [.reg .CSE_STATUS_IDLE, .reg .CSE_STATUS_OPEN, .reg .EVT_PEND_PEND,
    .reg .EVT_RAW_RAW, .presented, .cses] m) (a1 : Chan) : Ends m s0 (execChannelIdleEnter a1 s) := by
  unfold execChannelIdleEnter
  try dsimp only
  repeat' first
    | with_reducible assumption
    | exact Within.trans (Eq.refl _) hw
    | (intro _)
    | with_reducible apply on_keeps
    | with_reducible apply act_keeps
    | with_reducible apply enterIdle_keeps
    | with_reducible apply Ends.ite
    | with_reducible apply Ends.next
    | split

theorem mapBranches_keeps (h : Keeps m s0 s) (hw : Within [.cses] m) (a1 : Nat) (a2 : Sources → Sources) : Keeps m s0 (mapBranches a1 a2
    s) := by
  unfold mapBranches
  try dsimp only
  repeat' first
    | with_reducible assumption
    | exact Within.trans (Eq.refl _) hw
    | with_reducible apply State.setCse_keeps

theorem finishPlayer_keeps (h : Keeps m s0 s) (hw : Within [.reg .CSE_STATUS_OPEN, .cses] m) (a1 : Nat) (a2 : Nat) : Keeps m s0
    (finishPlayer a1 a2 s) := by
  unfold finishPlayer
  try dsimp only
  repeat' first
    | with_reducible assumption
    | exact Within.trans (Eq.refl _) hw
    | (intro _)
    | with_reducible apply wr_keeps
    | with_reducible apply State.setCse_keeps
    | with_reducible apply mapBranches_keeps
    | with_reducible apply Keeps.ite
    | split

theorem execPlayerFinish_keeps (h : Keeps m s0 s) (hw : Within [.reg .CSE_STATUS_OPEN, .cses] m) (a1 : Chan) (a2 : Fin 2) : Ends m s0
    (execPlayerFinish a1 a2 s) := by
  unfold execPlayerFinish
  try dsimp only
  repeat' first
    | with_reducible assumption
    | exact Within.trans (Eq.refl _) hw
    | (intro _)
    | with_reducible apply on_keeps
    | with_reducible apply act_keeps
    | with_reducible apply finishPlayer_keeps
    | with_reducible apply Ends.ite
    | with_reducible apply Ends.next
    | split

theorem execSlotDisable_keeps (h : Keeps m s0 s) (hw : Within [.cses] m) (a1 : Chan) (a2 : Fin 32) : Ends m s0 (execSlotDisable a1 a2 s)
    := by
  unfold execSlotDisable
  try dsimp only
  repeat' first
    | with_reducible assumption
    | exact Within.trans (Eq.refl _) hw
    | (intro _)
    | with_reducible apply on_keeps
    | with_reducible apply act_keeps
    | with_reducible apply mapBranches_keeps
    | with_reducible apply Ends.ite
    | with_reducible apply Ends.next
    | split

theorem notePattern_keeps (h : Keeps m s0 s) (hw : Within [.reg .BENCH_BENCH_HEALTH_HEALTH, .reg .BENCH_BIST_STAT_PHASE, .reg
    .BENCH_ECC_CNT_CE, .reg .BENCH_ECC_CNT_UE, .reg .BENCH_STATUS_BIST_BUSY, .reg .BENCH_STATUS_SPARE_FREE, .reg .BENCH_UE_ADDR_IN_SPARE,
    .reg .BENCH_UE_ADDR_OFFSET, .reg .ERR_CODE_CODE, .reg .ERR_CODE_MASTER, .reg .ERR_CODE_OVF, .reg .ERR_CODE_WORD, .reg .ERR_CODE_WRITE,
    .reg .EVT_PEND_PEND, .reg .EVT_RAW_RAW, .reg .POWER_STATUS_ENTERING, .reg .POWER_STATUS_EXITING, .reg .POWER_WAKE_STAT_CLASS, .reg
    .POWER_WAKE_STAT_FROM, .reg .QUARRY_CAPACITY_N_ACTIVE, .reg .QUARRY_ECC_CNT_CE, .reg .QUARRY_ECC_CNT_UE, .reg .QUARRY_LRMAP_MAP, .reg
    .QUARRY_LRMAP_SPARE, .reg .QUARRY_RANK_STATE_STATE, .reg .QUARRY_STATUS_DEGRADED, .reg .QUARRY_STATUS_MIGRATING, .reg
    .QUARRY_UE_ADDR_HI_ADDR, .reg .QUARRY_UE_ADDR_HI_BANK, .reg .QUARRY_UE_ADDR_HI_RANK, .reg .QUARRY_UE_ADDR_LO_ADDR, .reg
    .SYS_ERR_ADDR_HI_ADDR, .reg .SYS_ERR_ADDR_HI_MASTER, .reg .SYS_ERR_ADDR_HI_WRITE, .reg .SYS_ERR_ADDR_LO_ADDR, .presented, .holdoff,
    .poison, .pwr, .qry, .ben, .free] m) (a1 : Nat) (a2 : Sources) : Keeps m s0 (notePattern a1 a2 s) := by
  unfold notePattern
  try dsimp only
  repeat' first
    | with_reducible assumption
    | exact Within.trans (Eq.refl _) hw
    | with_reducible apply noteRead_keeps
    | with_reducible apply Keeps.ite
    | split

theorem execPatternEntryAdvance_keeps (h : Keeps m s0 s) (hw : Within [.reg .BENCH_BENCH_HEALTH_HEALTH, .reg .BENCH_BIST_STAT_PHASE,
    .reg .BENCH_ECC_CNT_CE, .reg .BENCH_ECC_CNT_UE, .reg .BENCH_STATUS_BIST_BUSY, .reg .BENCH_STATUS_SPARE_FREE, .reg
    .BENCH_UE_ADDR_IN_SPARE, .reg .BENCH_UE_ADDR_OFFSET, .reg .ERR_CODE_CODE, .reg .ERR_CODE_MASTER, .reg .ERR_CODE_OVF, .reg
    .ERR_CODE_WORD, .reg .ERR_CODE_WRITE, .reg .EVT_PEND_PEND, .reg .EVT_RAW_RAW, .reg .POWER_STATUS_ENTERING, .reg .POWER_STATUS_EXITING,
    .reg .POWER_WAKE_STAT_CLASS, .reg .POWER_WAKE_STAT_FROM, .reg .QUARRY_CAPACITY_N_ACTIVE, .reg .QUARRY_ECC_CNT_CE, .reg
    .QUARRY_ECC_CNT_UE, .reg .QUARRY_LRMAP_MAP, .reg .QUARRY_LRMAP_SPARE, .reg .QUARRY_RANK_STATE_STATE, .reg .QUARRY_STATUS_DEGRADED, .reg
    .QUARRY_STATUS_MIGRATING, .reg .QUARRY_UE_ADDR_HI_ADDR, .reg .QUARRY_UE_ADDR_HI_BANK, .reg .QUARRY_UE_ADDR_HI_RANK, .reg
    .QUARRY_UE_ADDR_LO_ADDR, .reg .SYS_ERR_ADDR_HI_ADDR, .reg .SYS_ERR_ADDR_HI_MASTER, .reg .SYS_ERR_ADDR_HI_WRITE, .reg
    .SYS_ERR_ADDR_LO_ADDR, .presented, .holdoff, .poison, .cses, .pwr, .qry, .ben, .free] m) (a1 : Chan) : Ends m s0
    (execPatternEntryAdvance a1 s) := by
  unfold execPatternEntryAdvance
  try dsimp only
  repeat' first
    | with_reducible assumption
    | exact Within.trans (Eq.refl _) hw
    | (intro _)
    | with_reducible apply on_keeps
    | with_reducible apply act_keeps
    | with_reducible apply mapBranches_keeps
    | with_reducible apply notePattern_keeps
    | with_reducible apply Ends.ite
    | with_reducible apply Ends.next
    | split
    | with_reducible apply KeepsOpt.getD

theorem execMarkerPulseEnd_keeps (h : Keeps m s0 s) (hw : Within [.cses] m) (a1 : Chan) : Ends m s0 (execMarkerPulseEnd a1 s) := by
  unfold execMarkerPulseEnd
  try dsimp only
  repeat' first
    | with_reducible assumption
    | exact Within.trans (Eq.refl _) hw
    | (intro _)
    | with_reducible apply on_keeps
    | with_reducible apply act_keeps
    | with_reducible apply mapBranches_keeps
    | with_reducible apply Ends.ite
    | with_reducible apply Ends.next
    | split

theorem rampDone_keeps (h : Keeps m s0 s) (hw : Within [.reg .EVT_PEND_PEND, .reg .EVT_RAW_RAW, .presented, .wheels] m) (a1 : Nat) :
    Keeps m s0 (rampDone a1 s) := by
  unfold rampDone
  try dsimp only
  repeat' first
    | with_reducible assumption
    | exact Within.trans (Eq.refl _) hw
    | with_reducible apply State.setWheel_keeps
    | with_reducible apply raise_keeps
    | split

theorem execRampDone_keeps (h : Keeps m s0 s) (hw : Within [.reg .EVT_PEND_PEND, .reg .EVT_RAW_RAW, .presented, .wheels] m) (a1 : Quad)
    : Ends m s0 (execRampDone a1 s) := by
  unfold execRampDone
  try dsimp only
  repeat' first
    | with_reducible assumption
    | exact Within.trans (Eq.refl _) hw
    | (intro _)
    | with_reducible apply on_keeps
    | with_reducible apply act_keeps
    | with_reducible apply rampDone_keeps
    | with_reducible apply Ends.ite
    | with_reducible apply Ends.next
    | split

theorem aimFetch_keeps (h : Keeps m s0 s) (hw : Within [.rings] m) (a1 : Nat) (a2 : Nat) : Keeps m s0 (aimFetch a1 a2 s) := by
  unfold aimFetch
  try dsimp only
  repeat' first
    | with_reducible assumption
    | exact Within.trans (Eq.refl _) hw
    | with_reducible apply State.setRing_keeps
    | split

theorem refillMain_keeps (h : Keeps m s0 s) (hw : Within [.reg .BENCH_BENCH_HEALTH_HEALTH, .reg .BENCH_BIST_STAT_PHASE, .reg
    .BENCH_ECC_CNT_CE, .reg .BENCH_ECC_CNT_UE, .reg .BENCH_STATUS_BIST_BUSY, .reg .BENCH_STATUS_SPARE_FREE, .reg .BENCH_UE_ADDR_IN_SPARE,
    .reg .BENCH_UE_ADDR_OFFSET, .reg .ERR_CODE_CODE, .reg .ERR_CODE_MASTER, .reg .ERR_CODE_OVF, .reg .ERR_CODE_WORD, .reg .ERR_CODE_WRITE,
    .reg .EVT_PEND_PEND, .reg .EVT_RAW_RAW, .reg .POWER_STATUS_ENTERING, .reg .POWER_STATUS_EXITING, .reg .POWER_WAKE_STAT_CLASS, .reg
    .POWER_WAKE_STAT_FROM, .reg .QUARRY_CAPACITY_N_ACTIVE, .reg .QUARRY_ECC_CNT_CE, .reg .QUARRY_ECC_CNT_UE, .reg .QUARRY_LRMAP_MAP, .reg
    .QUARRY_LRMAP_SPARE, .reg .QUARRY_RANK_STATE_STATE, .reg .QUARRY_STATUS_DEGRADED, .reg .QUARRY_STATUS_MIGRATING, .reg
    .QUARRY_UE_ADDR_HI_ADDR, .reg .QUARRY_UE_ADDR_HI_BANK, .reg .QUARRY_UE_ADDR_HI_RANK, .reg .QUARRY_UE_ADDR_LO_ADDR, .reg
    .SYS_ERR_ADDR_HI_ADDR, .reg .SYS_ERR_ADDR_HI_MASTER, .reg .SYS_ERR_ADDR_HI_WRITE, .reg .SYS_ERR_ADDR_LO_ADDR, .reg .TACK_SPILL,
    .presented, .holdoff, .mem, .poison, .cses, .rings, .pwr, .qry, .ben, .missed, .free] m) (a1 : Nat) (a2 : Nat) (a3 : Nat) : Keeps m s0
    (refillMain a1 a2 a3 s) := by
  unfold refillMain
  try dsimp only
  repeat' first
    | with_reducible assumption
    | exact Within.trans (Eq.refl _) hw
    | with_reducible apply State.setCse_keeps
    | with_reducible apply aimFetch_keeps
    | with_reducible apply refill_keeps

theorem refillAlt_keeps (h : Keeps m s0 s) (hw : Within [.reg .BENCH_BENCH_HEALTH_HEALTH, .reg .BENCH_BIST_STAT_PHASE, .reg
    .BENCH_ECC_CNT_CE, .reg .BENCH_ECC_CNT_UE, .reg .BENCH_STATUS_BIST_BUSY, .reg .BENCH_STATUS_SPARE_FREE, .reg .BENCH_UE_ADDR_IN_SPARE,
    .reg .BENCH_UE_ADDR_OFFSET, .reg .ERR_CODE_CODE, .reg .ERR_CODE_MASTER, .reg .ERR_CODE_OVF, .reg .ERR_CODE_WORD, .reg .ERR_CODE_WRITE,
    .reg .EVT_PEND_PEND, .reg .EVT_RAW_RAW, .reg .POWER_STATUS_ENTERING, .reg .POWER_STATUS_EXITING, .reg .POWER_WAKE_STAT_CLASS, .reg
    .POWER_WAKE_STAT_FROM, .reg .QUARRY_CAPACITY_N_ACTIVE, .reg .QUARRY_ECC_CNT_CE, .reg .QUARRY_ECC_CNT_UE, .reg .QUARRY_LRMAP_MAP, .reg
    .QUARRY_LRMAP_SPARE, .reg .QUARRY_RANK_STATE_STATE, .reg .QUARRY_STATUS_DEGRADED, .reg .QUARRY_STATUS_MIGRATING, .reg
    .QUARRY_UE_ADDR_HI_ADDR, .reg .QUARRY_UE_ADDR_HI_BANK, .reg .QUARRY_UE_ADDR_HI_RANK, .reg .QUARRY_UE_ADDR_LO_ADDR, .reg
    .SYS_ERR_ADDR_HI_ADDR, .reg .SYS_ERR_ADDR_HI_MASTER, .reg .SYS_ERR_ADDR_HI_WRITE, .reg .SYS_ERR_ADDR_LO_ADDR, .reg .TACK_SPILL,
    .presented, .holdoff, .mem, .poison, .cses, .rings, .pwr, .qry, .ben, .missed, .free] m) (a1 : Nat) (a2 : Nat) (a3 : Nat) : Keeps m s0
    (refillAlt a1 a2 a3 s) := by
  unfold refillAlt
  try dsimp only
  repeat' first
    | with_reducible assumption
    | exact Within.trans (Eq.refl _) hw
    | with_reducible apply State.setCse_keeps
    | with_reducible apply State.setRing_keeps
    | with_reducible apply refill_keeps
    | with_reducible apply KeepsOpt.getD

end Sys2Proof.Machine
end

