-- ==== Sys2Proof/Laws/SamplesKeeps.lean ====
section
/-! SUPPORT. What the operations of Machine/Samples.lean keep: the queue, the invariant, and every part outside their footprint. -/

set_option maxRecDepth 4000
set_option linter.unusedTactic false
set_option linter.unreachableTactic false

namespace Sys2Proof.Machine

variable {m : Nat} {s0 s : State}

theorem tallyApply_keeps (h : Keeps m s0 s) (hw : Within [.reg .EVT_PEND_PEND, .reg .EVT_RAW_RAW, .presented, .wheels] m) (a1 : Nat) (a2
    : Nat) (a3 : SpeedCmd) : Keeps m s0 (tallyApply a1 a2 a3 s) := by
  unfold tallyApply
  try dsimp only
  repeat' first
    | with_reducible assumption
    | exact Within.trans (Eq.refl _) hw
    | with_reducible apply speedCommand_keeps

theorem applyTally_keeps (h : Keeps m s0 s) (hw : Within [.reg .EVT_PEND_PEND, .reg .EVT_RAW_RAW, .presented, .clocks, .wheels] m) (a1 :
    Nat) : Keeps m s0 (applyTally a1 s) := by
  unfold applyTally
  try dsimp only
  repeat' first
    | with_reducible assumption
    | exact Within.trans (Eq.refl _) hw
    | (intro _)
    | with_reducible apply each_keeps
    | with_reducible apply State.setClock_keeps
    | with_reducible apply tallyApply_keeps

theorem repeatFails_keeps (h : Keeps m s0 s) (hw : Within [.reg .OUT_FAULT_STAT_REPEAT_FAIL, .cses] m) (a1 : Nat) : Keeps m s0
    (repeatFails a1 s) := by
  unfold repeatFails
  try dsimp only
  repeat' first
    | with_reducible assumption
    | exact Within.trans (Eq.refl _) hw
    | with_reducible apply wr_keeps
    | with_reducible apply State.setCse_keeps

theorem countUnderrun_keeps (h : Keeps m s0 s) (hw : Within [.reg .EVT_PEND_PEND, .reg .EVT_RAW_RAW, .reg .TACK_RING_UCNT_COUNT, .reg
    .TACK_UNDERRUN, .presented] m) (a1 : Nat) : Keeps m s0 (countUnderrun a1 s) := by
  unfold countUnderrun
  try dsimp only
  repeat' first
    | with_reducible assumption
    | exact Within.trans (Eq.refl _) hw
    | with_reducible apply wr_keeps
    | with_reducible apply inc_keeps
    | with_reducible apply raiseFor_keeps

theorem repeatStep_keeps (h : Keeps m s0 s) (hw : Within [.reg .CSE_DISCARD_CNT_DISCARD, .reg .ERR_CODE_CODE, .reg .ERR_CODE_MASTER,
    .reg .ERR_CODE_OVF, .reg .ERR_CODE_WORD, .reg .ERR_CODE_WRITE, .reg .EVT_PEND_PEND, .reg .EVT_RAW_RAW, .reg .OUT_FAULT_STAT_REPEAT_FAIL,
    .reg .TACK_RING_UCNT_COUNT, .reg .TACK_UNDERRUN, .presented, .wheels, .cses, .rings] m) (a1 : Nat) : Keeps m s0 (repeatStep a1 s) := by
  unfold repeatStep
  try dsimp only
  repeat' first
    | with_reducible assumption
    | exact Within.trans (Eq.refl _) hw
    | with_reducible apply State.setCse_keeps
    | with_reducible apply State.setRing_keeps
    | with_reducible apply applySpeed_keeps
    | with_reducible apply countDiscard_keeps
    | with_reducible apply countUnderrun_keeps
    | with_reducible apply raise_keeps
    | with_reducible apply repeatFails_keeps
    | with_reducible apply Keeps.ite
    | split

theorem sampleEvents_keeps (h : Keeps m s0 s) (hw : Within [.reg .EVT_PEND_PEND, .reg .EVT_RAW_RAW, .presented] m) (a1 : Nat) (a2 :
    SampleOut) : Keeps m s0 (sampleEvents a1 a2 s) := by
  unfold sampleEvents
  try dsimp only
  repeat' first
    | with_reducible assumption
    | exact Within.trans (Eq.refl _) hw
    | with_reducible apply raise_keeps
    | with_reducible apply Keeps.ite
    | split

theorem underrunPlayer_keeps (h : Keeps m s0 s) (hw : Within [.reg .CSE_STATUS_IDLE, .reg .EVT_PEND_PEND, .reg .EVT_RAW_RAW, .reg
    .OUT_FAULT_STAT_REPEAT_FAIL, .reg .TACK_RING_UCNT_COUNT, .reg .TACK_UNDERRUN, .presented, .cses] m) (a1 : Nat) (a2 : Nat) : Keeps m s0
    (underrunPlayer a1 a2 s) := by
  unfold underrunPlayer
  try dsimp only
  repeat' first
    | with_reducible assumption
    | exact Within.trans (Eq.refl _) hw
    | with_reducible apply wr_keeps
    | with_reducible apply State.setCse_keeps
    | with_reducible apply countUnderrun_keeps
    | with_reducible apply repeatFails_keeps
    | with_reducible apply Keeps.ite
    | split

theorem emitSample_keeps (h : Keeps m s0 s) (hw : Within [.cses, .outs] m) (a1 : Nat) (a2 : Nat) : Keeps m s0 (emitSample a1 a2 s) := by
  unfold emitSample
  try dsimp only
  repeat' first
    | with_reducible assumption
    | exact Within.trans (Eq.refl _) hw
    | with_reducible apply State.setCse_keeps
    | with_reducible apply pushCodes_keeps
    | split

theorem flushChain_keeps (h : Keeps m s0 s) (hw : Within [.cses, .outs] m) (a1 : Nat) : Keeps m s0 (flushChain a1 s) := by
  unfold flushChain
  try dsimp only
  repeat' first
    | with_reducible assumption
    | exact Within.trans (Eq.refl _) hw
    | (intro _)
    | with_reducible apply each_keeps
    | with_reducible apply emitSample_keeps

theorem repeatAlternate_keeps (h : Keeps m s0 s) (hw : Within [.reg .CSE_DISCARD_CNT_DISCARD, .reg .ERR_CODE_CODE, .reg
    .ERR_CODE_MASTER, .reg .ERR_CODE_OVF, .reg .ERR_CODE_WORD, .reg .ERR_CODE_WRITE, .reg .EVT_PEND_PEND, .reg .EVT_RAW_RAW, .reg
    .TACK_RING_UCNT_COUNT, .reg .TACK_UNDERRUN, .presented, .cses, .rings] m) (a1 : Nat) : Keeps m s0 (repeatAlternate a1 s) := by
  unfold repeatAlternate
  try dsimp only
  repeat' first
    | with_reducible assumption
    | exact Within.trans (Eq.refl _) hw
    | with_reducible apply State.setCse_keeps
    | with_reducible apply State.setRing_keeps
    | with_reducible apply countDiscard_keeps
    | with_reducible apply countUnderrun_keeps
    | with_reducible apply Keeps.ite
    | split

theorem noteWindow_keeps (h : Keeps m s0 s) (hw : Within [.reg .ERR_CODE_CODE, .reg .ERR_CODE_MASTER, .reg .ERR_CODE_OVF, .reg
    .ERR_CODE_WORD, .reg .ERR_CODE_WRITE, .reg .EVT_PEND_PEND, .reg .EVT_RAW_RAW, .reg .SYS_ERR_ADDR_HI_ADDR, .reg .SYS_ERR_ADDR_HI_MASTER,
    .reg .SYS_ERR_ADDR_HI_WRITE, .reg .SYS_ERR_ADDR_LO_ADDR, .presented] m) (a1 : Nat) (a2 : Nat) (a3 : Sources) : Keeps m s0 (noteWindow a1
    a2 a3 s) := by
  unfold noteWindow
  try dsimp only
  repeat' first
    | with_reducible assumption
    | exact Within.trans (Eq.refl _) hw
    | (intro _)
    | with_reducible apply denyMem_keeps
    | with_reducible apply Keeps.ite
    | split

theorem altSample_keeps (h : Keeps m s0 s) (hw : Within [.reg .CSE_DISCARD_CNT_DISCARD, .reg .ERR_CODE_CODE, .reg .ERR_CODE_MASTER, .reg
    .ERR_CODE_OVF, .reg .ERR_CODE_WORD, .reg .ERR_CODE_WRITE, .reg .EVT_PEND_PEND, .reg .EVT_RAW_RAW, .reg .SYS_ERR_ADDR_HI_ADDR, .reg
    .SYS_ERR_ADDR_HI_MASTER, .reg .SYS_ERR_ADDR_HI_WRITE, .reg .SYS_ERR_ADDR_LO_ADDR, .reg .TACK_RING_UCNT_COUNT, .reg .TACK_UNDERRUN,
    .presented, .cses, .rings] m) (a1 : Nat) : Keeps m s0 (altSample a1 s).2 := by
  unfold altSample
  try dsimp only
  repeat' first
    | with_reducible assumption
    | exact Within.trans (Eq.refl _) hw
    | (intro _)
    | with_reducible apply each_keeps
    | with_reducible apply State.setCse_keeps
    | with_reducible apply countUnderrun_keeps
    | with_reducible apply noteWindow_keeps
    | with_reducible apply repeatAlternate_keeps
    | with_reducible apply sampleEvents_keeps
    | with_reducible apply Keeps.ite
    | split

theorem mainSample_keeps (h : Keeps m s0 s) (hw : Within [.reg .CSE_CLIP_CNT_CLIP, .reg .CSE_DISCARD_CNT_DISCARD, .reg .CSE_STATUS_IDLE,
    .reg .ERR_CODE_CODE, .reg .ERR_CODE_MASTER, .reg .ERR_CODE_OVF, .reg .ERR_CODE_WORD, .reg .ERR_CODE_WRITE, .reg .EVT_PEND_PEND, .reg
    .EVT_RAW_RAW, .reg .OUT_FAULT_STAT_REPEAT_FAIL, .reg .SYS_ERR_ADDR_HI_ADDR, .reg .SYS_ERR_ADDR_HI_MASTER, .reg .SYS_ERR_ADDR_HI_WRITE,
    .reg .SYS_ERR_ADDR_LO_ADDR, .reg .TACK_RING_UCNT_COUNT, .reg .TACK_UNDERRUN, .presented, .holdoff, .wheels, .cses, .rings] m) (a1 : Nat)
    : Keeps m s0 (mainSample a1 s) := by
  unfold mainSample
  try dsimp only
  repeat' first
    | with_reducible assumption
    | exact Within.trans (Eq.refl _) hw
    | (intro _)
    | with_reducible apply inc_keeps
    | with_reducible apply each_keeps
    | with_reducible apply State.setCse_keeps
    | with_reducible apply noteWindow_keeps
    | with_reducible apply raiseHeld_keeps
    | with_reducible apply repeatStep_keeps
    | with_reducible apply sampleEvents_keeps
    | with_reducible apply underrunPlayer_keeps
    | with_reducible apply Keeps.ite
    | split

theorem chanSample_keeps (h : Keeps m s0 s) (hw : Within [.reg .CSE_CLIP_CNT_CLIP, .reg .CSE_DISCARD_CNT_DISCARD, .reg .CSE_STATUS_IDLE,
    .reg .ERR_CODE_CODE, .reg .ERR_CODE_MASTER, .reg .ERR_CODE_OVF, .reg .ERR_CODE_WORD, .reg .ERR_CODE_WRITE, .reg .EVT_PEND_PEND, .reg
    .EVT_RAW_RAW, .reg .OUT_FAULT_STAT_REPEAT_FAIL, .reg .SYS_ERR_ADDR_HI_ADDR, .reg .SYS_ERR_ADDR_HI_MASTER, .reg .SYS_ERR_ADDR_HI_WRITE,
    .reg .SYS_ERR_ADDR_LO_ADDR, .reg .TACK_RING_UCNT_COUNT, .reg .TACK_UNDERRUN, .presented, .holdoff, .wheels, .cses, .rings, .outs] m) (a1
    : Nat) : Keeps m s0 (chanSample a1 s) := by
  unfold chanSample
  try dsimp only
  repeat' first
    | with_reducible assumption
    | exact Within.trans (Eq.refl _) hw
    | with_reducible apply State.setCse_keeps
    | with_reducible apply altSample_keeps
    | with_reducible apply emitSample_keeps
    | with_reducible apply mainSample_keeps
    | with_reducible apply Keeps.ite
    | split
    | with_reducible refine Keeps.of_snd (by assumption) ?_

theorem flushBefore_keeps (h : Keeps m s0 s) (hw : Within [.cses, .outs] m) (a1 : Nat) : Keeps m s0 (flushBefore a1 s) := by
  unfold flushBefore
  try dsimp only
  repeat' first
    | with_reducible assumption
    | exact Within.trans (Eq.refl _) hw
    | (intro _)
    | with_reducible apply each_keeps
    | with_reducible apply flushChain_keeps
    | with_reducible apply Keeps.ite
    | split

theorem quadSample_keeps (h : Keeps m s0 s) (hw : Within [.reg .CSE_CLIP_CNT_CLIP, .reg .CSE_DISCARD_CNT_DISCARD, .reg .CSE_STATUS_IDLE,
    .reg .ERR_CODE_CODE, .reg .ERR_CODE_MASTER, .reg .ERR_CODE_OVF, .reg .ERR_CODE_WORD, .reg .ERR_CODE_WRITE, .reg .EVT_PEND_PEND, .reg
    .EVT_RAW_RAW, .reg .OUT_FAULT_STAT_REPEAT_FAIL, .reg .SYS_ERR_ADDR_HI_ADDR, .reg .SYS_ERR_ADDR_HI_MASTER, .reg .SYS_ERR_ADDR_HI_WRITE,
    .reg .SYS_ERR_ADDR_LO_ADDR, .reg .TACK_RING_UCNT_COUNT, .reg .TACK_UNDERRUN, .presented, .holdoff, .clocks, .wheels, .cses, .rings,
    .outs] m) (a1 : Nat) : Keeps m s0 (quadSample a1 s) := by
  unfold quadSample
  try dsimp only
  repeat' first
    | with_reducible assumption
    | exact Within.trans (Eq.refl _) hw
    | (intro _)
    | with_reducible apply each_keeps
    | with_reducible apply State.setWheel_keeps
    | with_reducible apply applyTally_keeps
    | with_reducible apply chanSample_keeps
    | with_reducible apply flushBefore_keeps

theorem execSynthesisSample_keeps (h : Keeps m s0 s) (hw : Within [.reg .CSE_CLIP_CNT_CLIP, .reg .CSE_DISCARD_CNT_DISCARD, .reg
    .CSE_STATUS_IDLE, .reg .ERR_CODE_CODE, .reg .ERR_CODE_MASTER, .reg .ERR_CODE_OVF, .reg .ERR_CODE_WORD, .reg .ERR_CODE_WRITE, .reg
    .EVT_PEND_PEND, .reg .EVT_RAW_RAW, .reg .OUT_FAULT_STAT_REPEAT_FAIL, .reg .SYS_ERR_ADDR_HI_ADDR, .reg .SYS_ERR_ADDR_HI_MASTER, .reg
    .SYS_ERR_ADDR_HI_WRITE, .reg .SYS_ERR_ADDR_LO_ADDR, .reg .TACK_RING_UCNT_COUNT, .reg .TACK_UNDERRUN, .presented, .holdoff, .clocks,
    .wheels, .cses, .rings, .outs] m) (a1 : Quad) : Ends m s0 (execSynthesisSample a1 s) := by
  unfold execSynthesisSample
  try dsimp only
  repeat' first
    | with_reducible assumption
    | exact Within.trans (Eq.refl _) hw
    | (intro _)
    | with_reducible apply on_keeps
    | with_reducible apply act_keeps
    | with_reducible apply quadSample_keeps
    | with_reducible apply Ends.ite
    | with_reducible apply Ends.next
    | split

theorem tallyDeferred_keeps (h : Keeps m s0 s) (hw : Within [.reg .EVT_PEND_PEND, .reg .EVT_RAW_RAW, .presented, .clocks, .wheels] m)
    (a1 : Nat) : Keeps m s0 (tallyDeferred a1 s) := by
  unfold tallyDeferred
  try dsimp only
  repeat' first
    | with_reducible assumption
    | exact Within.trans (Eq.refl _) hw
    | (intro _)
    | with_reducible apply each_keeps
    | with_reducible apply State.setClock_keeps
    | with_reducible apply State.setWheel_keeps
    | with_reducible apply raise_keeps
    | with_reducible apply tallyApply_keeps

theorem execTallySpeedDeferred_keeps (h : Keeps m s0 s) (hw : Within [.reg .EVT_PEND_PEND, .reg .EVT_RAW_RAW, .presented, .clocks,
    .wheels] m) (a1 : Quad) : Ends m s0 (execTallySpeedDeferred a1 s) := by
  unfold execTallySpeedDeferred
  try dsimp only
  repeat' first
    | with_reducible assumption
    | exact Within.trans (Eq.refl _) hw
    | (intro _)
    | with_reducible apply on_keeps
    | with_reducible apply act_keeps
    | with_reducible apply tallyDeferred_keeps
    | with_reducible apply Ends.ite
    | with_reducible apply Ends.next
    | split

theorem skipSample_keeps (h : Keeps m s0 s) (hw : Within [.reg .EVT_PEND_PEND, .reg .EVT_RAW_RAW, .presented, .wheels, .cses] m) (a1 :
    Nat) : Keeps m s0 (skipSample a1 s) := by
  unfold skipSample
  try dsimp only
  repeat' first
    | with_reducible assumption
    | exact Within.trans (Eq.refl _) hw
    | (intro _)
    | with_reducible apply each_keeps
    | with_reducible apply State.setCse_keeps
    | with_reducible apply State.setWheel_keeps
    | with_reducible apply rampDone_keeps
    | with_reducible apply Keeps.ite
    | split

theorem skipSamples_keeps (h : Keeps m s0 s) (hw : Within [.reg .EVT_PEND_PEND, .reg .EVT_RAW_RAW, .presented, .wheels, .cses] m) (a1 a2
    : Nat) : Keeps m s0 (skipSamples a1 a2 s) := by
  induction a2 generalizing s with
  | zero => exact h
  | succ n ih => exact ih (skipSample_keeps h (Within.trans (Eq.refl _) hw) ..)

theorem dropEdges_keeps (h : Keeps m s0 s) (hw : Within [.cses, .outs] m) (a1 : Nat) (a2 : Nat) : Keeps m s0 (dropEdges a1 a2 s) := by
  unfold dropEdges
  try dsimp only
  repeat' first
    | with_reducible assumption
    | exact Within.trans (Eq.refl _) hw
    | with_reducible apply State.setCse_keeps
    | with_reducible apply State.setOut_keeps
    | with_reducible apply fillQueue_keeps
    | with_reducible apply Keeps.ite
    | split

theorem dropChain_keeps (h : Keeps m s0 s) (hw : Within [.cses] m) (a1 : Nat) : Keeps m s0 (dropChain a1 s) := by
  unfold dropChain
  try dsimp only
  repeat' first
    | with_reducible assumption
    | exact Within.trans (Eq.refl _) hw
    | with_reducible apply State.setCse_keeps

theorem shiftCse_keeps (h : Keeps m s0 s) (hw : Within [.cses] m) (a1 : Int) (a2 : Nat) : Keeps m s0 (shiftCse a1 a2 s) := by
  unfold shiftCse
  try dsimp only
  repeat' first
    | with_reducible assumption
    | exact Within.trans (Eq.refl _) hw
    | (intro _)
    | with_reducible apply State.setCse_keeps

theorem padCodes_keeps (h : Keeps m s0 s) (hw : Within [.cses, .outs] m) (a1 : Nat) (a2 : Nat) : Keeps m s0 (padCodes a1 a2 s) := by
  unfold padCodes
  try dsimp only
  repeat' first
    | with_reducible assumption
    | exact Within.trans (Eq.refl _) hw
    | with_reducible apply flushChain_keeps
    | with_reducible apply pushCodes_keeps
    | split

theorem restartSamples_keeps (h : Keeps m s0 s) (hw : Within [.wheels, .cses, .outs] m) (a1 : Nat) (a2 : Nat) : Keeps m s0
    (restartSamples a1 a2 s) := by
  unfold restartSamples
  try dsimp only
  repeat' first
    | with_reducible assumption
    | exact Within.trans (Eq.refl _) hw
    | (intro _)
    | with_reducible apply each_keeps
    | with_reducible apply State.setWheel_keeps
    | with_reducible apply dropEdges_keeps
    | with_reducible apply padCodes_keeps
    | with_reducible apply shiftCse_keeps
    | with_reducible apply Keeps.ite
    | split

theorem qclkStart_keeps (h : Keeps m s0 s) (hw : Within [.reg .CTRL_ENABLE, .reg .QCLK_ORIGIN_FRAC_FRAC, .reg .QCLK_ORIGIN_HI_ORIGIN_HI,
    .reg .QCLK_ORIGIN_LO_ORIGIN_LO, .reg .QCLK_QCLK_STATUS_LOCKED, .reg .QCLK_QCLK_STATUS_READY, .reg .QCLK_QCLK_STATUS_STOPPED, .eff,
    .clocks, .wheels, .cses, .outs] m) (a1 : Nat) : Keeps m s0 (qclkStart a1 s) := by
  unfold qclkStart
  try dsimp only
  repeat' first
    | with_reducible assumption
    | exact Within.trans (Eq.refl _) hw
    | with_reducible apply wr_keeps
    | with_reducible apply State.setClock_keeps
    | with_reducible apply restartSamples_keeps
    | with_reducible apply setOrigin_keeps
    | with_reducible apply spareFollows_keeps
    | with_reducible apply Keeps.ite
    | split

theorem execQclkStart_keeps (h : Keeps m s0 s) (hw : Within [.reg .CTRL_ENABLE, .reg .ERR_CODE_CODE, .reg .ERR_CODE_MASTER, .reg
    .ERR_CODE_OVF, .reg .ERR_CODE_WORD, .reg .ERR_CODE_WRITE, .reg .POWER_STATUS_ENTERING, .reg .POWER_STATUS_EXITING, .reg
    .POWER_WAKE_STAT_CLASS, .reg .POWER_WAKE_STAT_FROM, .reg .QCLK_ORIGIN_FRAC_FRAC, .reg .QCLK_ORIGIN_HI_ORIGIN_HI, .reg
    .QCLK_ORIGIN_LO_ORIGIN_LO, .reg .QCLK_QCLK_STATUS_LOCKED, .reg .QCLK_QCLK_STATUS_READY, .reg .QCLK_QCLK_STATUS_STOPPED, .eff, .clocks,
    .wheels, .cses, .outs, .pwr] m) (a1 : Master) (a2 : Quad) : Ends m s0 (execQclkStart a1 a2 s) := by
  unfold execQclkStart
  try dsimp only
  repeat' first
    | with_reducible assumption
    | exact Within.trans (Eq.refl _) hw
    | (intro _)
    | with_reducible apply cmd_keeps
    | with_reducible apply qclkStart_keeps
    | with_reducible apply Ends.ite
    | with_reducible apply Ends.next
    | split

theorem resumeClock_keeps (h : Keeps m s0 s) (hw : Within [.reg .EVT_PEND_PEND, .reg .EVT_RAW_RAW, .reg .QCLK_MISSED_MISSED, .reg
    .QCLK_QCLK_STATUS_STOPPED, .presented, .commits, .clocks, .wheels, .cses, .outs] m) (a1 : Nat) : Keeps m s0 (resumeClock a1 s) := by
  unfold resumeClock
  try dsimp only
  repeat' first
    | with_reducible assumption
    | exact Within.trans (Eq.refl _) hw
    | (intro _)
    | with_reducible apply wr_keeps
    | with_reducible apply each_keeps
    | with_reducible apply State.setClock_keeps
    | with_reducible apply State.setCse_keeps
    | with_reducible apply dropChain_keeps
    | with_reducible apply dropEdges_keeps
    | with_reducible apply raise_keeps
    | with_reducible apply skipSamples_keeps
    | with_reducible apply Keeps.ite
    | split
    | with_reducible refine Keeps.of_snd (by assumption) ?_
    | (with_reducible apply Keeps.of_fields <;>
        first | with_reducible exact rfl | with_reducible exact Or.inl rfl | exact Or.inr (Within.trans (Eq.refl _) hw) | skip)

theorem execQclkResume_keeps (h : Keeps m s0 s) (hw : Within [.reg .EVT_PEND_PEND, .reg .EVT_RAW_RAW, .reg .QCLK_MISSED_MISSED, .reg
    .QCLK_QCLK_STATUS_STOPPED, .presented, .commits, .clocks, .wheels, .cses, .outs] m) (a1 : Quad) : Ends m s0 (execQclkResume a1 s) := by
  unfold execQclkResume
  try dsimp only
  repeat' first
    | with_reducible assumption
    | exact Within.trans (Eq.refl _) hw
    | (intro _)
    | with_reducible apply on_keeps
    | with_reducible apply act_keeps
    | with_reducible apply resumeClock_keeps
    | with_reducible apply Ends.ite
    | with_reducible apply Ends.next
    | split

theorem writeAlloc_keeps (h : Keeps m s0 s) (hw : Within [.reg .CSE_ALLOC_EFF_PART_EFF, .reg .CSE_ALLOC_EFF_PLAYERS_EFF, .reg
    .CSE_ALLOC_PART_MAX, .reg .CSE_ALLOC_PLAYERS, .reg .CSE_STATUS_BUDGET_CLAMP, .reg .EVT_PEND_PEND, .reg .EVT_RAW_RAW, .presented] m) (a1
    : Nat) (a2 : Nat) : Keeps m s0 (writeAlloc a1 a2 s) := by
  unfold writeAlloc
  try dsimp only
  repeat' first
    | with_reducible assumption
    | exact Within.trans (Eq.refl _) hw
    | with_reducible apply wr_keeps
    | with_reducible apply recomputeAlloc_keeps

theorem execAllocWrite_keeps (h : Keeps m s0 s) (hw : Within [.reg .CSE_ALLOC_EFF_PART_EFF, .reg .CSE_ALLOC_EFF_PLAYERS_EFF, .reg
    .CSE_ALLOC_PART_MAX, .reg .CSE_ALLOC_PLAYERS, .reg .CSE_STATUS_BUDGET_CLAMP, .reg .ERR_CODE_CODE, .reg .ERR_CODE_MASTER, .reg
    .ERR_CODE_OVF, .reg .ERR_CODE_WORD, .reg .ERR_CODE_WRITE, .reg .EVT_PEND_PEND, .reg .EVT_RAW_RAW, .reg .POWER_STATUS_ENTERING, .reg
    .POWER_STATUS_EXITING, .reg .POWER_WAKE_STAT_CLASS, .reg .POWER_WAKE_STAT_FROM, .presented, .pwr] m) (a1 : Master) (a2 : Chan) (a3 :
    Word) : Ends m s0 (execAllocWrite a1 a2 a3 s) := by
  unfold execAllocWrite
  try dsimp only
  repeat' first
    | with_reducible assumption
    | exact Within.trans (Eq.refl _) hw
    | (intro _)
    | with_reducible apply cmd_keeps
    | with_reducible apply writeAlloc_keeps
    | with_reducible apply Ends.ite
    | with_reducible apply Ends.next
    | split

theorem resetCse_keeps (h : Keeps m s0 s) (hw : Within [.reg .CSE_CUR_DESC_KIND, .reg .CSE_CUR_DESC_PRIO, .reg .CSE_CUR_DESC_SEQ, .reg
    .CSE_STATUS_IDLE, .reg .CSE_STATUS_OPEN, .reg .CSE_STATUS_RUNNING, .cses] m) (a1 : Nat) : Keeps m s0 (resetCse a1 s) := by
  unfold resetCse
  try dsimp only
  repeat' first
    | with_reducible assumption
    | exact Within.trans (Eq.refl _) hw
    | (intro _)
    | with_reducible apply wr_keeps
    | with_reducible apply eachReg_keeps
    | with_reducible apply each_keeps
    | with_reducible apply State.setCse_keeps

theorem powerUpCse_keeps (h : Keeps m s0 s) (hw : Within [.cses, .outs] m) (a1 : Nat) : Keeps m s0 (powerUpCse a1 s) := by
  unfold powerUpCse
  try dsimp only
  repeat' first
    | with_reducible assumption
    | exact Within.trans (Eq.refl _) hw
    | (intro _)
    | with_reducible apply on_keeps
    | with_reducible apply State.setCse_keeps
    | with_reducible apply State.setOut_keeps
    | with_reducible apply pushCodes_keeps
    | with_reducible apply Keeps.ite
    | split

theorem writeCseEnable_keeps (h : Keeps m s0 s) (hw : Within [.reg .CSE_STATUS_RUNNING, .reg .CTRL_ENABLE, .cses, .outs] m) (a1 : Nat)
    (a2 : Bool) : Keeps m s0 (writeCseEnable a1 a2 s) := by
  unfold writeCseEnable
  try dsimp only
  repeat' first
    | with_reducible assumption
    | exact Within.trans (Eq.refl _) hw
    | with_reducible apply wr_keeps
    | with_reducible apply State.setCse_keeps
    | with_reducible apply powerUpCse_keeps
    | with_reducible apply Keeps.ite
    | split

theorem execCseEnableWrite_keeps (h : Keeps m s0 s) (hw : Within [.reg .CSE_STATUS_RUNNING, .reg .CTRL_ENABLE, .reg .ERR_CODE_CODE, .reg
    .ERR_CODE_MASTER, .reg .ERR_CODE_OVF, .reg .ERR_CODE_WORD, .reg .ERR_CODE_WRITE, .reg .POWER_STATUS_ENTERING, .reg
    .POWER_STATUS_EXITING, .reg .POWER_WAKE_STAT_CLASS, .reg .POWER_WAKE_STAT_FROM, .cses, .outs, .pwr] m) (a1 : Master) (a2 : Chan) (a3 :
    Bool) : Ends m s0 (execCseEnableWrite a1 a2 a3 s) := by
  unfold execCseEnableWrite
  try dsimp only
  repeat' first
    | with_reducible assumption
    | exact Within.trans (Eq.refl _) hw
    | (intro _)
    | with_reducible apply cmd_keeps
    | with_reducible apply writeCseEnable_keeps
    | with_reducible apply Ends.ite
    | with_reducible apply Ends.next
    | split

theorem execCseSoftReset_keeps (h : Keeps m s0 s) (hw : Within [.reg .CSE_CUR_DESC_KIND, .reg .CSE_CUR_DESC_PRIO, .reg
    .CSE_CUR_DESC_SEQ, .reg .CSE_STATUS_IDLE, .reg .CSE_STATUS_OPEN, .reg .CSE_STATUS_RUNNING, .reg .ERR_CODE_CODE, .reg .ERR_CODE_MASTER,
    .reg .ERR_CODE_OVF, .reg .ERR_CODE_WORD, .reg .ERR_CODE_WRITE, .reg .POWER_STATUS_ENTERING, .reg .POWER_STATUS_EXITING, .reg
    .POWER_WAKE_STAT_CLASS, .reg .POWER_WAKE_STAT_FROM, .reg .SHADOW_CMD_PENDING, .commits, .cses, .pwr] m) (a1 : Master) (a2 : Chan) : Ends
    m s0 (execCseSoftReset a1 a2 s) := by
  unfold execCseSoftReset
  try dsimp only
  repeat' first
    | with_reducible assumption
    | exact Within.trans (Eq.refl _) hw
    | (intro _)
    | with_reducible apply cmd_keeps
    | with_reducible apply dropCommits_keeps
    | with_reducible apply resetCse_keeps
    | with_reducible apply Ends.ite
    | with_reducible apply Ends.next
    | split

theorem writeCsePower_keeps (h : Keeps m s0 s) (hw : Within [.reg .CSE_CUR_DESC_KIND, .reg .CSE_CUR_DESC_PRIO, .reg .CSE_CUR_DESC_SEQ,
    .reg .CSE_STATUS_IDLE, .reg .CSE_STATUS_OPEN, .reg .CSE_STATUS_RUNNING, .reg .CTRL_PWR_REQ, .cses, .outs] m) (a1 : Nat) (a2 : Bool) :
    Keeps m s0 (writeCsePower a1 a2 s) := by
  unfold writeCsePower
  try dsimp only
  repeat' first
    | with_reducible assumption
    | exact Within.trans (Eq.refl _) hw
    | with_reducible apply wr_keeps
    | with_reducible apply State.setCse_keeps
    | with_reducible apply State.setOut_keeps
    | with_reducible apply powerUpCse_keeps
    | with_reducible apply resetCse_keeps
    | with_reducible apply Keeps.ite
    | split

end Sys2Proof.Machine
end

