-- ==== Sys2Proof/Laws/TackKeeps.lean ====
section
/-! SUPPORT. What the operations of Machine/Tack.lean keep: the queue, the invariant, and every part outside their footprint. -/

set_option maxRecDepth 4000
set_option linter.unusedTactic false
set_option linter.unreachableTactic false

namespace Sys2Proof.Machine

variable {m : Nat} {s0 s : State}

theorem writeQcfg_keeps (h : Keeps m s0 s) (hw : Within [.reg .ERR_CODE_CODE, .reg .ERR_CODE_MASTER, .reg .ERR_CODE_OVF, .reg
    .ERR_CODE_WORD, .reg .ERR_CODE_WRITE, .reg .TACK_QCFG_CRED_REG, .reg .TACK_QCFG_CRED_STITCH, .reg .TACK_QCFG_FMODE] m) (a1 : Nat) (a2 :
    Nat) (a3 : Nat) : Keeps m s0 (writeQcfg a1 a2 a3 s) := by
  unfold writeQcfg
  try dsimp only
  repeat' first
    | with_reducible assumption
    | exact Within.trans (Eq.refl _) hw
    | with_reducible apply wr_keeps
    | with_reducible apply actionErr_keeps
    | with_reducible apply Keeps.ite
    | split

theorem execQcfgWrite_keeps (h : Keeps m s0 s) (hw : Within [.reg .ERR_CODE_CODE, .reg .ERR_CODE_MASTER, .reg .ERR_CODE_OVF, .reg
    .ERR_CODE_WORD, .reg .ERR_CODE_WRITE, .reg .POWER_STATUS_ENTERING, .reg .POWER_STATUS_EXITING, .reg .POWER_WAKE_STAT_CLASS, .reg
    .POWER_WAKE_STAT_FROM, .reg .TACK_QCFG_CRED_REG, .reg .TACK_QCFG_CRED_STITCH, .reg .TACK_QCFG_FMODE, .pwr] m) (a1 : Master) (a2 : Fin
    192) (a3 : Word) : Ends m s0 (execQcfgWrite a1 a2 a3 s) := by
  unfold execQcfgWrite
  try dsimp only
  repeat' first
    | with_reducible assumption
    | exact Within.trans (Eq.refl _) hw
    | (intro _)
    | with_reducible apply cmd_keeps
    | with_reducible apply writeQcfg_keeps
    | with_reducible apply Ends.ite
    | with_reducible apply Ends.next
    | split

theorem notice_keeps (h : Keeps m s0 s) (hw : Within [.queues] m) (a1 : Nat) (a2 : Packet) : Keeps m s0 (notice a1 a2 s) := by
  unfold notice
  try dsimp only
  repeat' first
    | with_reducible assumption
    | exact Within.trans (Eq.refl _) hw
    | with_reducible apply State.setQueue_keeps

theorem refreshFlushBusy_keeps (h : Keeps m s0 s) (hw : Within [.reg .TACK_QLEVEL_FLUSH_BUSY] m) (a1 : Nat) : Keeps m s0
    (refreshFlushBusy a1 s) := by
  unfold refreshFlushBusy
  try dsimp only
  repeat' first
    | with_reducible assumption
    | exact Within.trans (Eq.refl _) hw
    | (intro _)
    | with_reducible apply wr_keeps
    | with_reducible apply Keeps.ite
    | split

theorem closePacket_keeps (h : Keeps m s0 s) (hw : Within [.reg .TACK_PUSH_STAT_LAST_SEQ, .reg .TACK_PUSH_STAT_OPEN, .reg
    .TACK_QLEVEL_FLUSH_BUSY, .queues, .staging] m) (a1 : Nat) : Keeps m s0 (closePacket a1 s) := by
  unfold closePacket
  try dsimp only
  repeat' first
    | with_reducible assumption
    | exact Within.trans (Eq.refl _) hw
    | with_reducible apply wr_keeps
    | with_reducible apply State.setStage_keeps
    | with_reducible apply notice_keeps
    | with_reducible apply refreshFlushBusy_keeps
    | with_reducible apply Keeps.ite
    | split

theorem beginPacket_keeps (h : Keeps m s0 s) (hw : Within [.reg .ERR_CODE_CODE, .reg .ERR_CODE_MASTER, .reg .ERR_CODE_OVF, .reg
    .ERR_CODE_WORD, .reg .ERR_CODE_WRITE, .reg .EVT_PEND_PEND, .reg .EVT_RAW_RAW, .reg .TACK_PUSH_STAT_DISCARDING, .reg
    .TACK_PUSH_STAT_OPEN, .reg .TACK_PUSH_STAT_REFUSED, .reg .TACK_PUSH_STAT_WORDS_LEFT, .presented, .staging] m) (a1 : Nat) (a2 : Nat) :
    Keeps m s0 (beginPacket a1 a2 s) := by
  unfold beginPacket
  try dsimp only
  repeat' first
    | with_reducible assumption
    | exact Within.trans (Eq.refl _) hw
    | with_reducible apply wr_keeps
    | with_reducible apply State.setStage_keeps
    | with_reducible apply actionErr_keeps
    | with_reducible apply raise_keeps
    | with_reducible apply Keeps.ite
    | split

theorem pushWord_keeps (h : Keeps m s0 s) (hw : Within [.reg .ERR_CODE_CODE, .reg .ERR_CODE_MASTER, .reg .ERR_CODE_OVF, .reg
    .ERR_CODE_WORD, .reg .ERR_CODE_WRITE, .reg .EVT_PEND_PEND, .reg .EVT_RAW_RAW, .reg .TACK_PUSH_STAT_DISCARDING, .reg
    .TACK_PUSH_STAT_LAST_SEQ, .reg .TACK_PUSH_STAT_OPEN, .reg .TACK_PUSH_STAT_REFUSED, .reg .TACK_PUSH_STAT_WORDS_LEFT, .reg
    .TACK_QLEVEL_FLUSH_BUSY, .presented, .queues, .staging] m) (a1 : Nat) (a2 : Nat) : Keeps m s0 (pushWord a1 a2 s) := by
  unfold pushWord
  try dsimp only
  repeat' first
    | with_reducible assumption
    | exact Within.trans (Eq.refl _) hw
    | with_reducible apply wr_keeps
    | with_reducible apply State.setStage_keeps
    | with_reducible apply beginPacket_keeps
    | with_reducible apply closePacket_keeps
    | with_reducible apply Keeps.ite
    | split

theorem pushMaster_keeps (h : Keeps m s0 s) (hw : Within [.reg .ERR_CODE_CODE, .reg .ERR_CODE_MASTER, .reg .ERR_CODE_OVF, .reg
    .ERR_CODE_WORD, .reg .ERR_CODE_WRITE] m) (a1 : Nat) (a2 : Nat) (a3 : State → State) (k3 : ∀ t, Keeps m s0 t → Keeps m s0 (a3 t)) : Keeps
    m s0 (pushMaster a1 a2 a3 s) := by
  unfold pushMaster
  try dsimp only
  repeat' first
    | with_reducible assumption
    | exact Within.trans (Eq.refl _) hw
    | (intro _)
    | with_reducible apply recordErr_keeps
    | with_reducible apply k3
    | with_reducible apply Keeps.ite
    | split

theorem execPushWinWord_keeps (h : Keeps m s0 s) (hw : Within [.reg .ERR_CODE_CODE, .reg .ERR_CODE_MASTER, .reg .ERR_CODE_OVF, .reg
    .ERR_CODE_WORD, .reg .ERR_CODE_WRITE, .reg .EVT_PEND_PEND, .reg .EVT_RAW_RAW, .reg .POWER_STATUS_ENTERING, .reg .POWER_STATUS_EXITING,
    .reg .POWER_WAKE_STAT_CLASS, .reg .POWER_WAKE_STAT_FROM, .reg .TACK_PUSH_STAT_DISCARDING, .reg .TACK_PUSH_STAT_LAST_SEQ, .reg
    .TACK_PUSH_STAT_OPEN, .reg .TACK_PUSH_STAT_REFUSED, .reg .TACK_PUSH_STAT_WORDS_LEFT, .reg .TACK_QLEVEL_FLUSH_BUSY, .presented, .queues,
    .staging, .pwr] m) (a1 : Master) (a2 : Word) : Ends m s0 (execPushWinWord a1 a2 s) := by
  unfold execPushWinWord
  try dsimp only
  repeat' first
    | with_reducible assumption
    | exact Within.trans (Eq.refl _) hw
    | (intro _)
    | with_reducible apply cmd_keeps
    | with_reducible apply pushMaster_keeps
    | with_reducible apply pushWord_keeps
    | with_reducible apply Ends.ite
    | with_reducible apply Ends.next
    | split

theorem pushAbort_keeps (h : Keeps m s0 s) (hw : Within [.reg .TACK_PUSH_STAT_DISCARDING, .reg .TACK_PUSH_STAT_OPEN, .reg
    .TACK_PUSH_STAT_WORDS_LEFT, .reg .TACK_QLEVEL_FLUSH_BUSY, .staging] m) (a1 : Nat) : Keeps m s0 (pushAbort a1 s) := by
  unfold pushAbort
  try dsimp only
  repeat' first
    | with_reducible assumption
    | exact Within.trans (Eq.refl _) hw
    | with_reducible apply wr_keeps
    | with_reducible apply State.setStage_keeps
    | with_reducible apply refreshFlushBusy_keeps

theorem execPushAbort_keeps (h : Keeps m s0 s) (hw : Within [.reg .ERR_CODE_CODE, .reg .ERR_CODE_MASTER, .reg .ERR_CODE_OVF, .reg
    .ERR_CODE_WORD, .reg .ERR_CODE_WRITE, .reg .POWER_STATUS_ENTERING, .reg .POWER_STATUS_EXITING, .reg .POWER_WAKE_STAT_CLASS, .reg
    .POWER_WAKE_STAT_FROM, .reg .TACK_PUSH_STAT_DISCARDING, .reg .TACK_PUSH_STAT_OPEN, .reg .TACK_PUSH_STAT_WORDS_LEFT, .reg
    .TACK_QLEVEL_FLUSH_BUSY, .staging, .pwr] m) (a1 : Master) : Ends m s0 (execPushAbort a1 s) := by
  unfold execPushAbort
  try dsimp only
  repeat' first
    | with_reducible assumption
    | exact Within.trans (Eq.refl _) hw
    | (intro _)
    | with_reducible apply cmd_keeps
    | with_reducible apply pushAbort_keeps
    | with_reducible apply pushMaster_keeps
    | with_reducible apply Ends.ite
    | with_reducible apply Ends.next
    | split

theorem headFetch_keeps (h : Keeps m s0 s) (hw : Within [.reg .EVT_PEND_PEND, .reg .EVT_RAW_RAW, .reg .TACK_CNT_LINK_CORRECTED, .reg
    .TACK_CNT_LINK_FAILED, .reg .TACK_CNT_POISON_COUNT, .reg .TACK_QLEVEL_BROKEN, .reg .TACK_STATUS_SWEEP, .presented, .queues] m) (a1 :
    Nat) (a2 : Nat) (a3 : Nat) : Keeps m s0 (headFetch a1 a2 a3 s) := by
  unfold headFetch
  try dsimp only
  repeat' first
    | with_reducible assumption
    | exact Within.trans (Eq.refl _) hw
    | with_reducible apply wr_keeps
    | with_reducible apply inc_keeps
    | with_reducible apply State.setQueue_keeps
    | with_reducible apply raise_keeps
    | with_reducible apply Keeps.ite
    | split

theorem execHeadSlotFetch_keeps (h : Keeps m s0 s) (hw : Within [.reg .EVT_PEND_PEND, .reg .EVT_RAW_RAW, .reg .TACK_CNT_LINK_CORRECTED,
    .reg .TACK_CNT_LINK_FAILED, .reg .TACK_CNT_POISON_COUNT, .reg .TACK_QLEVEL_BROKEN, .reg .TACK_STATUS_SWEEP, .presented, .queues] m) (a1
    : Fin 192) (a2 : BitVec 32) (a3 : Fin 3) : Ends m s0 (execHeadSlotFetch a1 a2 a3 s) := by
  unfold execHeadSlotFetch
  try dsimp only
  repeat' first
    | with_reducible assumption
    | exact Within.trans (Eq.refl _) hw
    | (intro _)
    | with_reducible apply act_keeps
    | with_reducible apply headFetch_keeps
    | with_reducible apply Ends.ite
    | with_reducible apply Ends.next
    | split

theorem execLinkSweepDone_keeps (h : Keeps m s0 s) (hw : Within [.reg .TACK_QLEVEL_BROKEN, .reg .TACK_STATUS_SWEEP, .queues] m)  : Ends
    m s0 (execLinkSweepDone s) := by
  unfold execLinkSweepDone
  try dsimp only
  repeat' first
    | with_reducible assumption
    | exact Within.trans (Eq.refl _) hw
    | (intro _)
    | with_reducible apply wr_keeps
    | with_reducible apply each_keeps
    | with_reducible apply on_keeps
    | with_reducible apply act_keeps
    | with_reducible apply State.setQueue_keeps
    | with_reducible apply Ends.ite
    | with_reducible apply Ends.next
    | split

theorem endPredecessor_keeps (h : Keeps m s0 s) (hw : Within [.cses] m) (a1 : Nat) : Keeps m s0 (endPredecessor a1 s) := by
  unfold endPredecessor
  try dsimp only
  repeat' first
    | with_reducible assumption
    | exact Within.trans (Eq.refl _) hw
    | with_reducible apply State.setCse_keeps
    | with_reducible apply Keeps.ite
    | split

theorem dropQueue_keeps (h : Keeps m s0 s) (hw : Within [.cses, .queues] m) (a1 : Nat) (a2 : Bool) (a3 : Nat) : Keeps m s0 (dropQueue a1
    a2 a3 s) := by
  unfold dropQueue
  try dsimp only
  repeat' first
    | with_reducible assumption
    | exact Within.trans (Eq.refl _) hw
    | with_reducible apply State.setQueue_keeps
    | with_reducible apply endPredecessor_keeps
    | with_reducible apply Keeps.ite
    | split

theorem noteFlushed_keeps (h : Keeps m s0 s) (hw : Within [.stitchers] m) (a1 : Nat) (a2 : List Packet) : Keeps m s0 (noteFlushed a1 a2
    s) := by
  unfold noteFlushed
  try dsimp only
  repeat' first
    | with_reducible assumption
    | exact Within.trans (Eq.refl _) hw
    | (intro _)
    | with_reducible apply State.setStitcher_keeps
    | split

theorem flushQueue_keeps (h : Keeps m s0 s) (hw : Within [.reg .TACK_QLEVEL_FLUSH_BUSY, .cses, .stitchers, .queues, .staging] m) (a1 :
    Nat) : Keeps m s0 (flushQueue a1 s) := by
  unfold flushQueue
  try dsimp only
  repeat' first
    | with_reducible assumption
    | exact Within.trans (Eq.refl _) hw
    | (intro _)
    | with_reducible apply each_keeps
    | with_reducible apply State.setQueue_keeps
    | with_reducible apply State.setStage_keeps
    | with_reducible apply endPredecessor_keeps
    | with_reducible apply noteFlushed_keeps
    | with_reducible apply refreshFlushBusy_keeps
    | with_reducible apply Keeps.ite
    | split

theorem flushChannel_keeps (h : Keeps m s0 s) (hw : Within [.reg .TACK_QLEVEL_FLUSH_BUSY, .cses, .stitchers, .queues, .staging] m) (a1 :
    Nat) : Keeps m s0 (flushChannel a1 s) := by
  unfold flushChannel
  try dsimp only
  repeat' first
    | with_reducible assumption
    | exact Within.trans (Eq.refl _) hw
    | (intro _)
    | with_reducible apply each_keeps
    | with_reducible apply flushQueue_keeps

theorem writeQCmd_keeps (h : Keeps m s0 s) (hw : Within [.reg .TACK_QLEVEL_FLUSH_BUSY, .cses, .stitchers, .queues, .staging] m) (a1 :
    Nat) : Keeps m s0 (writeQCmd a1 s) := by
  unfold writeQCmd
  try dsimp only
  repeat' first
    | with_reducible assumption
    | exact Within.trans (Eq.refl _) hw
    | with_reducible apply dropQueue_keeps
    | with_reducible apply flushQueue_keeps
    | with_reducible apply Keeps.ite
    | split

theorem execQueueDrop_keeps (h : Keeps m s0 s) (hw : Within [.reg .ERR_CODE_CODE, .reg .ERR_CODE_MASTER, .reg .ERR_CODE_OVF, .reg
    .ERR_CODE_WORD, .reg .ERR_CODE_WRITE, .reg .POWER_STATUS_ENTERING, .reg .POWER_STATUS_EXITING, .reg .POWER_WAKE_STAT_CLASS, .reg
    .POWER_WAKE_STAT_FROM, .cses, .queues, .pwr] m) (a1 : Master) (a2 : Fin 192) (a3 : Bool) (a4 : BitVec 16) : Ends m s0 (execQueueDrop a1
    a2 a3 a4 s) := by
  unfold execQueueDrop
  try dsimp only
  repeat' first
    | with_reducible assumption
    | exact Within.trans (Eq.refl _) hw
    | (intro _)
    | with_reducible apply on_keeps
    | with_reducible apply cmd_keeps
    | with_reducible apply dropQueue_keeps
    | with_reducible apply Ends.ite
    | with_reducible apply Ends.next
    | split

theorem execQueueFlush_keeps (h : Keeps m s0 s) (hw : Within [.reg .ERR_CODE_CODE, .reg .ERR_CODE_MASTER, .reg .ERR_CODE_OVF, .reg
    .ERR_CODE_WORD, .reg .ERR_CODE_WRITE, .reg .POWER_STATUS_ENTERING, .reg .POWER_STATUS_EXITING, .reg .POWER_WAKE_STAT_CLASS, .reg
    .POWER_WAKE_STAT_FROM, .reg .TACK_QLEVEL_FLUSH_BUSY, .cses, .stitchers, .queues, .staging, .pwr] m) (a1 : Master) (a2 : Fin 192) : Ends
    m s0 (execQueueFlush a1 a2 s) := by
  unfold execQueueFlush
  try dsimp only
  repeat' first
    | with_reducible assumption
    | exact Within.trans (Eq.refl _) hw
    | (intro _)
    | with_reducible apply on_keeps
    | with_reducible apply cmd_keeps
    | with_reducible apply flushQueue_keeps
    | with_reducible apply Ends.ite
    | with_reducible apply Ends.next
    | split

theorem execPacketTorn_keeps (h : Keeps m s0 s) (hw : Within [.reg .EVT_PEND_PEND, .reg .EVT_RAW_RAW, .reg .TACK_CNT_TORN_COUNT, .reg
    .TACK_PUSH_STAT_DISCARDING, .reg .TACK_PUSH_STAT_OPEN, .reg .TACK_PUSH_STAT_TORN, .reg .TACK_QLEVEL_FLUSH_BUSY, .presented, .staging] m)
    (a1 : Fin 3) : Ends m s0 (execPacketTorn a1 s) := by
  unfold execPacketTorn
  try dsimp only
  repeat' first
    | with_reducible assumption
    | exact Within.trans (Eq.refl _) hw
    | (intro _)
    | with_reducible apply wr_keeps
    | with_reducible apply inc_keeps
    | with_reducible apply on_keeps
    | with_reducible apply act_keeps
    | with_reducible apply State.setStage_keeps
    | with_reducible apply raise_keeps
    | with_reducible apply refreshFlushBusy_keeps
    | with_reducible apply Ends.ite
    | with_reducible apply Ends.next
    | split

theorem tackReset_keeps (h : Keeps m s0 s) (hw : Within [.reg .TACK_PUSH_STAT_DISCARDING, .reg .TACK_PUSH_STAT_OPEN, .reg
    .TACK_PUSH_STAT_WORDS_LEFT, .reg .TACK_QLEVEL_BROKEN, .reg .TACK_QLEVEL_FLUSH_BUSY, .reg .TACK_STATUS_SWEEP, .cses, .queues, .staging,
    .rings] m)  : Keeps m s0 (tackReset s) := by
  unfold tackReset
  try dsimp only
  repeat' first
    | with_reducible assumption
    | exact Within.trans (Eq.refl _) hw
    | (intro _)
    | with_reducible apply wr_keeps
    | with_reducible apply each_keeps
    | with_reducible apply State.setCse_keeps
    | (with_reducible apply Keeps.of_fields <;>
        first | with_reducible exact rfl | with_reducible exact Or.inl rfl | exact Or.inr (Within.trans (Eq.refl _) hw) | skip)

theorem execTackSoftReset_keeps (h : Keeps m s0 s) (hw : Within [.reg .ERR_CODE_CODE, .reg .ERR_CODE_MASTER, .reg .ERR_CODE_OVF, .reg
    .ERR_CODE_WORD, .reg .ERR_CODE_WRITE, .reg .POWER_STATUS_ENTERING, .reg .POWER_STATUS_EXITING, .reg .POWER_WAKE_STAT_CLASS, .reg
    .POWER_WAKE_STAT_FROM, .reg .TACK_PUSH_STAT_DISCARDING, .reg .TACK_PUSH_STAT_OPEN, .reg .TACK_PUSH_STAT_WORDS_LEFT, .reg
    .TACK_QLEVEL_BROKEN, .reg .TACK_QLEVEL_FLUSH_BUSY, .reg .TACK_STATUS_SWEEP, .cses, .queues, .staging, .rings, .pwr] m) (a1 : Master) :
    Ends m s0 (execTackSoftReset a1 s) := by
  unfold execTackSoftReset
  try dsimp only
  repeat' first
    | with_reducible assumption
    | exact Within.trans (Eq.refl _) hw
    | (intro _)
    | with_reducible apply cmd_keeps
    | with_reducible apply tackReset_keeps
    | with_reducible apply Ends.ite
    | with_reducible apply Ends.next
    | split

end Sys2Proof.Machine
end

