-- ==== Sys2Proof/Laws/StitcherKeeps.lean ====
section
/-! SUPPORT. What the operations of Machine/Stitcher.lean keep: the queue, the invariant, and every part outside their footprint. -/

set_option maxRecDepth 4000
set_option linter.unusedTactic false
set_option linter.unreachableTactic false

namespace Sys2Proof.Machine

variable {m : Nat} {s0 s : State}

theorem dropAlternate_keeps (h : Keeps m s0 s) (hw : Within [.cses, .outs] m) (a1 : Nat) : Keeps m s0 (dropAlternate a1 s) := by
  unfold dropAlternate
  try dsimp only
  repeat' first
    | with_reducible assumption
    | exact Within.trans (Eq.refl _) hw
    | (intro _)
    | with_reducible apply State.setCse_keeps
    | with_reducible apply State.setOut_keeps

theorem setArmed_keeps (h : Keeps m s0 s) (hw : Within [.stitchers] m) (a1 : Nat) (a2 : Nat) (a3 : Option ArmedJump) : Keeps m s0
    (setArmed a1 a2 a3 s) := by
  unfold setArmed
  try dsimp only
  repeat' first
    | with_reducible assumption
    | exact Within.trans (Eq.refl _) hw
    | with_reducible apply State.setStitcher_keeps

theorem disarmInput_keeps (h : Keeps m s0 s) (hw : Within [.cses, .stitchers, .outs] m) (a1 : Nat) (a2 : Nat) : Keeps m s0 (disarmInput
    a1 a2 s) := by
  unfold disarmInput
  try dsimp only
  repeat' first
    | with_reducible assumption
    | exact Within.trans (Eq.refl _) hw
    | (intro _)
    | with_reducible apply each_keeps
    | with_reducible apply dropAlternate_keeps
    | with_reducible apply setArmed_keeps
    | split

theorem disarmAll_keeps (h : Keeps m s0 s) (hw : Within [.cses, .stitchers, .outs] m) (a1 : Nat) : Keeps m s0 (disarmAll a1 s) := by
  unfold disarmAll
  try dsimp only
  repeat' first
    | with_reducible assumption
    | exact Within.trans (Eq.refl _) hw
    | (intro _)
    | with_reducible apply each_keeps
    | with_reducible apply disarmInput_keeps

theorem withdraw_keeps (h : Keeps m s0 s) (hw : Within [.reg .STITCH_GANG_READY_READY, .stitchers] m) (a1 : Nat) : Keeps m s0 (withdraw
    a1 s) := by
  unfold withdraw
  try dsimp only
  repeat' first
    | with_reducible assumption
    | exact Within.trans (Eq.refl _) hw
    | (intro _)
    | with_reducible apply wr_keeps
    | with_reducible apply each_keeps
    | with_reducible apply State.setStitcher_keeps

theorem endWait_keeps (h : Keeps m s0 s) (hw : Within [.reg .STITCH_STATUS_CREDIT_WAIT, .reg .STITCH_STATUS_GANG_WAIT, .reg
    .STITCH_STATUS_WAIT_EVENT, .reg .STITCH_STATUS_WAIT_TIME, .stitchers] m) (a1 : Nat) : Keeps m s0 (endWait a1 s) := by
  unfold endWait
  try dsimp only
  repeat' first
    | with_reducible assumption
    | exact Within.trans (Eq.refl _) hw
    | (intro _)
    | with_reducible apply wr_keeps
    | with_reducible apply eachReg_keeps
    | with_reducible apply each_keeps
    | with_reducible apply State.setStitcher_keeps

theorem stopRun_keeps (h : Keeps m s0 s) (hw : Within [.reg .STITCH_STATUS_CREDIT_WAIT, .reg .STITCH_STATUS_GANG_WAIT, .reg
    .STITCH_STATUS_RUNNING, .reg .STITCH_STATUS_WAIT_EVENT, .reg .STITCH_STATUS_WAIT_TIME, .stitchers] m) (a1 : Nat) : Keeps m s0 (stopRun
    a1 s) := by
  unfold stopRun
  try dsimp only
  repeat' first
    | with_reducible assumption
    | exact Within.trans (Eq.refl _) hw
    | with_reducible apply wr_keeps
    | with_reducible apply State.setStitcher_keeps
    | with_reducible apply endWait_keeps

theorem stitchFault_keeps (h : Keeps m s0 s) (hw : Within [.reg .ERR_CODE_CODE, .reg .ERR_CODE_MASTER, .reg .ERR_CODE_OVF, .reg
    .ERR_CODE_WORD, .reg .ERR_CODE_WRITE, .reg .EVT_PEND_PEND, .reg .EVT_RAW_RAW, .reg .STITCH_FAULT_CAUSE, .reg .STITCH_FAULT_PC, .reg
    .STITCH_GANG_READY_READY, .reg .STITCH_STATUS_CREDIT_WAIT, .reg .STITCH_STATUS_FAULTED, .reg .STITCH_STATUS_GANG_WAIT, .reg
    .STITCH_STATUS_RUNNING, .reg .STITCH_STATUS_WAIT_EVENT, .reg .STITCH_STATUS_WAIT_TIME, .presented, .cses, .stitchers, .outs] m) (a1 :
    Nat) (a2 : Nat) : Keeps m s0 (stitchFault a1 a2 s) := by
  unfold stitchFault
  try dsimp only
  repeat' first
    | with_reducible assumption
    | exact Within.trans (Eq.refl _) hw
    | with_reducible apply wr_keeps
    | with_reducible apply disarmAll_keeps
    | with_reducible apply raise_keeps
    | with_reducible apply recordErr_keeps
    | with_reducible apply stopRun_keeps
    | with_reducible apply withdraw_keeps
    | split

theorem nextPc_keeps (h : Keeps m s0 s) (hw : Within [.stitchers] m) (a1 : Nat) : Keeps m s0 (nextPc a1 s) := by
  unfold nextPc
  try dsimp only
  repeat' first
    | with_reducible assumption
    | exact Within.trans (Eq.refl _) hw
    | with_reducible apply State.setStitcher_keeps

theorem goto_keeps (h : Keeps m s0 s) (hw : Within [.reg .ERR_CODE_CODE, .reg .ERR_CODE_MASTER, .reg .ERR_CODE_OVF, .reg .ERR_CODE_WORD,
    .reg .ERR_CODE_WRITE, .reg .EVT_PEND_PEND, .reg .EVT_RAW_RAW, .reg .STITCH_FAULT_CAUSE, .reg .STITCH_FAULT_PC, .reg
    .STITCH_GANG_READY_READY, .reg .STITCH_STATUS_CREDIT_WAIT, .reg .STITCH_STATUS_FAULTED, .reg .STITCH_STATUS_GANG_WAIT, .reg
    .STITCH_STATUS_RUNNING, .reg .STITCH_STATUS_WAIT_EVENT, .reg .STITCH_STATUS_WAIT_TIME, .presented, .cses, .stitchers, .outs] m) (a1 :
    Nat) (a2 : Nat) : Keeps m s0 (goto a1 a2 s) := by
  unfold goto
  try dsimp only
  repeat' first
    | with_reducible assumption
    | exact Within.trans (Eq.refl _) hw
    | with_reducible apply State.setStitcher_keeps
    | with_reducible apply stitchFault_keeps
    | with_reducible apply Keeps.ite
    | split

theorem startStitcher_keeps (h : Keeps m s0 s) (hw : Within [.reg .STITCH_EVIN_LATCHED_LATCHED, .reg .STITCH_GANG_READY_READY, .reg
    .STITCH_STATUS_CREDIT_WAIT, .reg .STITCH_STATUS_FAULTED, .reg .STITCH_STATUS_GANG_WAIT, .reg .STITCH_STATUS_HALTED, .reg
    .STITCH_STATUS_RUNNING, .reg .STITCH_STATUS_WAIT_EVENT, .reg .STITCH_STATUS_WAIT_TIME, .cses, .stitchers, .outs] m) (a1 : Nat) : Keeps m
    s0 (startStitcher a1 s) := by
  unfold startStitcher
  try dsimp only
  repeat' first
    | with_reducible assumption
    | exact Within.trans (Eq.refl _) hw
    | (intro _)
    | with_reducible apply wr_keeps
    | with_reducible apply each_keeps
    | with_reducible apply State.setStitcher_keeps
    | with_reducible apply disarmAll_keeps
    | with_reducible apply stopRun_keeps
    | with_reducible apply withdraw_keeps

theorem stopStitcher_keeps (h : Keeps m s0 s) (hw : Within [.reg .STITCH_GANG_READY_READY, .reg .STITCH_STATUS_CREDIT_WAIT, .reg
    .STITCH_STATUS_GANG_WAIT, .reg .STITCH_STATUS_HALTED, .reg .STITCH_STATUS_RUNNING, .reg .STITCH_STATUS_WAIT_EVENT, .reg
    .STITCH_STATUS_WAIT_TIME, .cses, .stitchers, .outs] m) (a1 : Nat) : Keeps m s0 (stopStitcher a1 s) := by
  unfold stopStitcher
  try dsimp only
  repeat' first
    | with_reducible assumption
    | exact Within.trans (Eq.refl _) hw
    | with_reducible apply wr_keeps
    | with_reducible apply disarmAll_keeps
    | with_reducible apply stopRun_keeps
    | with_reducible apply withdraw_keeps

theorem writeStitchEnable_keeps (h : Keeps m s0 s) (hw : Within [.reg .CTRL_ENABLE, .reg .STITCH_EVIN_LATCHED_LATCHED, .reg
    .STITCH_GANG_READY_READY, .reg .STITCH_STATUS_CREDIT_WAIT, .reg .STITCH_STATUS_FAULTED, .reg .STITCH_STATUS_GANG_WAIT, .reg
    .STITCH_STATUS_HALTED, .reg .STITCH_STATUS_RUNNING, .reg .STITCH_STATUS_WAIT_EVENT, .reg .STITCH_STATUS_WAIT_TIME, .cses, .stitchers,
    .outs] m) (a1 : Nat) (a2 : Bool) : Keeps m s0 (writeStitchEnable a1 a2 s) := by
  unfold writeStitchEnable
  try dsimp only
  repeat' first
    | with_reducible assumption
    | exact Within.trans (Eq.refl _) hw
    | with_reducible apply wr_keeps
    | with_reducible apply startStitcher_keeps
    | with_reducible apply stopStitcher_keeps
    | with_reducible apply Keeps.ite
    | split

theorem execStitchEnable_keeps (h : Keeps m s0 s) (hw : Within [.reg .CTRL_ENABLE, .reg .ERR_CODE_CODE, .reg .ERR_CODE_MASTER, .reg
    .ERR_CODE_OVF, .reg .ERR_CODE_WORD, .reg .ERR_CODE_WRITE, .reg .POWER_STATUS_ENTERING, .reg .POWER_STATUS_EXITING, .reg
    .POWER_WAKE_STAT_CLASS, .reg .POWER_WAKE_STAT_FROM, .reg .STITCH_EVIN_LATCHED_LATCHED, .reg .STITCH_GANG_READY_READY, .reg
    .STITCH_STATUS_CREDIT_WAIT, .reg .STITCH_STATUS_FAULTED, .reg .STITCH_STATUS_GANG_WAIT, .reg .STITCH_STATUS_HALTED, .reg
    .STITCH_STATUS_RUNNING, .reg .STITCH_STATUS_WAIT_EVENT, .reg .STITCH_STATUS_WAIT_TIME, .cses, .stitchers, .outs, .pwr] m) (a1 : Master)
    (a2 : Quad) : Ends m s0 (execStitchEnable a1 a2 s) := by
  unfold execStitchEnable
  try dsimp only
  repeat' first
    | with_reducible assumption
    | exact Within.trans (Eq.refl _) hw
    | (intro _)
    | with_reducible apply cmd_keeps
    | with_reducible apply writeStitchEnable_keeps
    | with_reducible apply Ends.ite
    | with_reducible apply Ends.next
    | split

theorem execStitchDisable_keeps (h : Keeps m s0 s) (hw : Within [.reg .CTRL_ENABLE, .reg .ERR_CODE_CODE, .reg .ERR_CODE_MASTER, .reg
    .ERR_CODE_OVF, .reg .ERR_CODE_WORD, .reg .ERR_CODE_WRITE, .reg .POWER_STATUS_ENTERING, .reg .POWER_STATUS_EXITING, .reg
    .POWER_WAKE_STAT_CLASS, .reg .POWER_WAKE_STAT_FROM, .reg .STITCH_EVIN_LATCHED_LATCHED, .reg .STITCH_GANG_READY_READY, .reg
    .STITCH_STATUS_CREDIT_WAIT, .reg .STITCH_STATUS_FAULTED, .reg .STITCH_STATUS_GANG_WAIT, .reg .STITCH_STATUS_HALTED, .reg
    .STITCH_STATUS_RUNNING, .reg .STITCH_STATUS_WAIT_EVENT, .reg .STITCH_STATUS_WAIT_TIME, .cses, .stitchers, .outs, .pwr] m) (a1 : Master)
    (a2 : Quad) : Ends m s0 (execStitchDisable a1 a2 s) := by
  unfold execStitchDisable
  try dsimp only
  repeat' first
    | with_reducible assumption
    | exact Within.trans (Eq.refl _) hw
    | (intro _)
    | with_reducible apply cmd_keeps
    | with_reducible apply writeStitchEnable_keeps
    | with_reducible apply Ends.ite
    | with_reducible apply Ends.next
    | split

theorem resetStitcher_keeps (h : Keeps m s0 s) (hw : Within [.reg .CTRL_ENABLE, .reg .SHADOW_CMD_PENDING, .reg
    .STITCH_EVIN_IGNORED_COUNT, .reg .STITCH_FAULT_CAUSE, .reg .STITCH_FAULT_PC, .reg .STITCH_GANG_READY_READY, .reg .STITCH_PUSH_CNT_COUNT,
    .reg .STITCH_STALL_CNT_COUNT, .reg .STITCH_STATUS_CREDIT_WAIT, .reg .STITCH_STATUS_FAULTED, .reg .STITCH_STATUS_GANG_WAIT, .reg
    .STITCH_STATUS_HALTED, .reg .STITCH_STATUS_MC_BANK, .reg .STITCH_STATUS_MC_PENDING, .reg .STITCH_STATUS_RUNNING, .reg
    .STITCH_STATUS_WAIT_EVENT, .reg .STITCH_STATUS_WAIT_TIME, .commits, .cses, .stitchers, .outs] m) (a1 : Nat) : Keeps m s0 (resetStitcher
    a1 s) := by
  unfold resetStitcher
  try dsimp only
  repeat' first
    | with_reducible assumption
    | exact Within.trans (Eq.refl _) hw
    | (intro _)
    | with_reducible apply wr_keeps
    | with_reducible apply eachReg_keeps
    | with_reducible apply each_keeps
    | with_reducible apply dropCommits_keeps
    | with_reducible apply stopStitcher_keeps

theorem execStitchSoftReset_keeps (h : Keeps m s0 s) (hw : Within [.reg .CTRL_ENABLE, .reg .ERR_CODE_CODE, .reg .ERR_CODE_MASTER, .reg
    .ERR_CODE_OVF, .reg .ERR_CODE_WORD, .reg .ERR_CODE_WRITE, .reg .POWER_STATUS_ENTERING, .reg .POWER_STATUS_EXITING, .reg
    .POWER_WAKE_STAT_CLASS, .reg .POWER_WAKE_STAT_FROM, .reg .SHADOW_CMD_PENDING, .reg .STITCH_EVIN_IGNORED_COUNT, .reg .STITCH_FAULT_CAUSE,
    .reg .STITCH_FAULT_PC, .reg .STITCH_GANG_READY_READY, .reg .STITCH_PUSH_CNT_COUNT, .reg .STITCH_STALL_CNT_COUNT, .reg
    .STITCH_STATUS_CREDIT_WAIT, .reg .STITCH_STATUS_FAULTED, .reg .STITCH_STATUS_GANG_WAIT, .reg .STITCH_STATUS_HALTED, .reg
    .STITCH_STATUS_MC_BANK, .reg .STITCH_STATUS_MC_PENDING, .reg .STITCH_STATUS_RUNNING, .reg .STITCH_STATUS_WAIT_EVENT, .reg
    .STITCH_STATUS_WAIT_TIME, .commits, .cses, .stitchers, .outs, .pwr] m) (a1 : Master) (a2 : Quad) : Ends m s0 (execStitchSoftReset a1 a2
    s) := by
  unfold execStitchSoftReset
  try dsimp only
  repeat' first
    | with_reducible assumption
    | exact Within.trans (Eq.refl _) hw
    | (intro _)
    | with_reducible apply cmd_keeps
    | with_reducible apply resetStitcher_keeps
    | with_reducible apply Ends.ite
    | with_reducible apply Ends.next
    | split

theorem writeStitchPower_keeps (h : Keeps m s0 s) (hw : Within [.reg .CTRL_ENABLE, .reg .CTRL_PWR_REQ, .reg .SHADOW_CMD_PENDING, .reg
    .STITCH_EVIN_IGNORED_COUNT, .reg .STITCH_FAULT_CAUSE, .reg .STITCH_FAULT_PC, .reg .STITCH_GANG_READY_READY, .reg .STITCH_PUSH_CNT_COUNT,
    .reg .STITCH_STALL_CNT_COUNT, .reg .STITCH_STATUS_CREDIT_WAIT, .reg .STITCH_STATUS_FAULTED, .reg .STITCH_STATUS_GANG_WAIT, .reg
    .STITCH_STATUS_HALTED, .reg .STITCH_STATUS_MC_BANK, .reg .STITCH_STATUS_MC_PENDING, .reg .STITCH_STATUS_RUNNING, .reg
    .STITCH_STATUS_WAIT_EVENT, .reg .STITCH_STATUS_WAIT_TIME, .commits, .cses, .stitchers, .outs] m) (a1 : Nat) (a2 : Bool) : Keeps m s0
    (writeStitchPower a1 a2 s) := by
  unfold writeStitchPower
  try dsimp only
  repeat' first
    | with_reducible assumption
    | exact Within.trans (Eq.refl _) hw
    | with_reducible apply wr_keeps
    | with_reducible apply State.setStitcher_keeps
    | with_reducible apply resetStitcher_keeps
    | with_reducible apply Keeps.ite
    | split

theorem execPwrReqWrite_keeps (h : Keeps m s0 s) (hw : Within [.reg .CSE_CUR_DESC_KIND, .reg .CSE_CUR_DESC_PRIO, .reg .CSE_CUR_DESC_SEQ,
    .reg .CSE_STATUS_IDLE, .reg .CSE_STATUS_OPEN, .reg .CSE_STATUS_RUNNING, .reg .CTRL_ENABLE, .reg .CTRL_PWR_REQ, .reg .ERR_CODE_CODE, .reg
    .ERR_CODE_MASTER, .reg .ERR_CODE_OVF, .reg .ERR_CODE_WORD, .reg .ERR_CODE_WRITE, .reg .POWER_STATUS_ENTERING, .reg
    .POWER_STATUS_EXITING, .reg .POWER_WAKE_STAT_CLASS, .reg .POWER_WAKE_STAT_FROM, .reg .SHADOW_CMD_PENDING, .reg
    .STITCH_EVIN_IGNORED_COUNT, .reg .STITCH_FAULT_CAUSE, .reg .STITCH_FAULT_PC, .reg .STITCH_GANG_READY_READY, .reg .STITCH_PUSH_CNT_COUNT,
    .reg .STITCH_STALL_CNT_COUNT, .reg .STITCH_STATUS_CREDIT_WAIT, .reg .STITCH_STATUS_FAULTED, .reg .STITCH_STATUS_GANG_WAIT, .reg
    .STITCH_STATUS_HALTED, .reg .STITCH_STATUS_MC_BANK, .reg .STITCH_STATUS_MC_PENDING, .reg .STITCH_STATUS_RUNNING, .reg
    .STITCH_STATUS_WAIT_EVENT, .reg .STITCH_STATUS_WAIT_TIME, .commits, .cses, .stitchers, .outs, .pwr] m) (a1 : Master) (a2 : Bool) (a3 :
    Chan) (a4 : Bool) : Ends m s0 (execPwrReqWrite a1 a2 a3 a4 s) := by
  unfold execPwrReqWrite
  try dsimp only
  repeat' first
    | with_reducible assumption
    | exact Within.trans (Eq.refl _) hw
    | (intro _)
    | with_reducible apply cmd_keeps
    | with_reducible apply writeCsePower_keeps
    | with_reducible apply writeStitchPower_keeps
    | with_reducible apply Keeps.ite
    | with_reducible apply Ends.ite
    | with_reducible apply Ends.next
    | split

theorem fetchWord_keeps (h : Keeps m s0 s) (hw : Within [.reg .BENCH_BENCH_HEALTH_HEALTH, .reg .BENCH_BIST_STAT_PHASE, .reg
    .BENCH_ECC_CNT_CE, .reg .BENCH_ECC_CNT_UE, .reg .BENCH_STATUS_BIST_BUSY, .reg .BENCH_STATUS_SPARE_FREE, .reg .BENCH_UE_ADDR_IN_SPARE,
    .reg .BENCH_UE_ADDR_OFFSET, .reg .ERR_CODE_CODE, .reg .ERR_CODE_MASTER, .reg .ERR_CODE_OVF, .reg .ERR_CODE_WORD, .reg .ERR_CODE_WRITE,
    .reg .EVT_PEND_PEND, .reg .EVT_RAW_RAW, .reg .POWER_STATUS_ENTERING, .reg .POWER_STATUS_EXITING, .reg .POWER_WAKE_STAT_CLASS, .reg
    .POWER_WAKE_STAT_FROM, .reg .QUARRY_CAPACITY_N_ACTIVE, .reg .QUARRY_ECC_CNT_CE, .reg .QUARRY_ECC_CNT_UE, .reg .QUARRY_LRMAP_MAP, .reg
    .QUARRY_LRMAP_SPARE, .reg .QUARRY_RANK_STATE_STATE, .reg .QUARRY_STATUS_DEGRADED, .reg .QUARRY_STATUS_MIGRATING, .reg
    .QUARRY_UE_ADDR_HI_ADDR, .reg .QUARRY_UE_ADDR_HI_BANK, .reg .QUARRY_UE_ADDR_HI_RANK, .reg .QUARRY_UE_ADDR_LO_ADDR, .reg
    .STITCH_FAULT_CAUSE, .reg .STITCH_FAULT_PC, .reg .STITCH_GANG_READY_READY, .reg .STITCH_STATUS_CREDIT_WAIT, .reg .STITCH_STATUS_FAULTED,
    .reg .STITCH_STATUS_GANG_WAIT, .reg .STITCH_STATUS_RUNNING, .reg .STITCH_STATUS_WAIT_EVENT, .reg .STITCH_STATUS_WAIT_TIME, .reg
    .SYS_ERR_ADDR_HI_ADDR, .reg .SYS_ERR_ADDR_HI_MASTER, .reg .SYS_ERR_ADDR_HI_WRITE, .reg .SYS_ERR_ADDR_LO_ADDR, .presented, .holdoff,
    .poison, .cses, .stitchers, .outs, .pwr, .qry, .ben, .free] m) (a1 : Nat) : Keeps m s0 (fetchWord a1 s) := by
  unfold fetchWord
  try dsimp only
  repeat' first
    | with_reducible assumption
    | exact Within.trans (Eq.refl _) hw
    | with_reducible apply State.setStitcher_keeps
    | with_reducible apply noteRead_keeps
    | with_reducible apply stitchFault_keeps
    | with_reducible apply Keeps.ite
    | split
    | with_reducible apply KeepsOpt.getD
    | (with_reducible apply Keeps.of_fields <;>
        first | with_reducible exact rfl | with_reducible exact Or.inl rfl | exact Or.inr (Within.trans (Eq.refl _) hw) | skip)

theorem execInstructionFetch_keeps (h : Keeps m s0 s) (hw : Within [.reg .BENCH_BENCH_HEALTH_HEALTH, .reg .BENCH_BIST_STAT_PHASE, .reg
    .BENCH_ECC_CNT_CE, .reg .BENCH_ECC_CNT_UE, .reg .BENCH_STATUS_BIST_BUSY, .reg .BENCH_STATUS_SPARE_FREE, .reg .BENCH_UE_ADDR_IN_SPARE,
    .reg .BENCH_UE_ADDR_OFFSET, .reg .ERR_CODE_CODE, .reg .ERR_CODE_MASTER, .reg .ERR_CODE_OVF, .reg .ERR_CODE_WORD, .reg .ERR_CODE_WRITE,
    .reg .EVT_PEND_PEND, .reg .EVT_RAW_RAW, .reg .POWER_STATUS_ENTERING, .reg .POWER_STATUS_EXITING, .reg .POWER_WAKE_STAT_CLASS, .reg
    .POWER_WAKE_STAT_FROM, .reg .QUARRY_CAPACITY_N_ACTIVE, .reg .QUARRY_ECC_CNT_CE, .reg .QUARRY_ECC_CNT_UE, .reg .QUARRY_LRMAP_MAP, .reg
    .QUARRY_LRMAP_SPARE, .reg .QUARRY_RANK_STATE_STATE, .reg .QUARRY_STATUS_DEGRADED, .reg .QUARRY_STATUS_MIGRATING, .reg
    .QUARRY_UE_ADDR_HI_ADDR, .reg .QUARRY_UE_ADDR_HI_BANK, .reg .QUARRY_UE_ADDR_HI_RANK, .reg .QUARRY_UE_ADDR_LO_ADDR, .reg
    .STITCH_FAULT_CAUSE, .reg .STITCH_FAULT_PC, .reg .STITCH_GANG_READY_READY, .reg .STITCH_STATUS_CREDIT_WAIT, .reg .STITCH_STATUS_FAULTED,
    .reg .STITCH_STATUS_GANG_WAIT, .reg .STITCH_STATUS_RUNNING, .reg .STITCH_STATUS_WAIT_EVENT, .reg .STITCH_STATUS_WAIT_TIME, .reg
    .SYS_ERR_ADDR_HI_ADDR, .reg .SYS_ERR_ADDR_HI_MASTER, .reg .SYS_ERR_ADDR_HI_WRITE, .reg .SYS_ERR_ADDR_LO_ADDR, .presented, .holdoff,
    .poison, .cses, .stitchers, .outs, .pwr, .qry, .ben, .free] m) (a1 : Quad) : Ends m s0 (execInstructionFetch a1 s) := by
  unfold execInstructionFetch
  try dsimp only
  repeat' first
    | with_reducible assumption
    | exact Within.trans (Eq.refl _) hw
    | (intro _)
    | with_reducible apply on_keeps
    | with_reducible apply act_keeps
    | with_reducible apply fetchWord_keeps
    | with_reducible apply Ends.ite
    | with_reducible apply Ends.next
    | split

theorem runOp_keeps (h : Keeps m s0 s) (hw : Within [] m) (a1 : Nat) (a2 : Nat) (a3 : Nat → State → State) (k3 : ∀ x t, Keeps m s0 t →
    Keeps m s0 (a3 x t)) : Keeps m s0 (runOp a1 a2 a3 s) := by
  unfold runOp
  try dsimp only
  repeat' first
    | with_reducible assumption
    | exact Within.trans (Eq.refl _) hw
    | (intro _)
    | with_reducible apply k3
    | with_reducible apply Keeps.ite
    | split

theorem noteTemplate_keeps (h : Keeps m s0 s) (hw : Within [.reg .BENCH_BENCH_HEALTH_HEALTH, .reg .BENCH_BIST_STAT_PHASE, .reg
    .BENCH_ECC_CNT_CE, .reg .BENCH_ECC_CNT_UE, .reg .BENCH_STATUS_BIST_BUSY, .reg .BENCH_STATUS_SPARE_FREE, .reg .BENCH_UE_ADDR_IN_SPARE,
    .reg .BENCH_UE_ADDR_OFFSET, .reg .ERR_CODE_CODE, .reg .ERR_CODE_MASTER, .reg .ERR_CODE_OVF, .reg .ERR_CODE_WORD, .reg .ERR_CODE_WRITE,
    .reg .EVT_PEND_PEND, .reg .EVT_RAW_RAW, .reg .POWER_STATUS_ENTERING, .reg .POWER_STATUS_EXITING, .reg .POWER_WAKE_STAT_CLASS, .reg
    .POWER_WAKE_STAT_FROM, .reg .QUARRY_CAPACITY_N_ACTIVE, .reg .QUARRY_ECC_CNT_CE, .reg .QUARRY_ECC_CNT_UE, .reg .QUARRY_LRMAP_MAP, .reg
    .QUARRY_LRMAP_SPARE, .reg .QUARRY_RANK_STATE_STATE, .reg .QUARRY_STATUS_DEGRADED, .reg .QUARRY_STATUS_MIGRATING, .reg
    .QUARRY_UE_ADDR_HI_ADDR, .reg .QUARRY_UE_ADDR_HI_BANK, .reg .QUARRY_UE_ADDR_HI_RANK, .reg .QUARRY_UE_ADDR_LO_ADDR, .reg
    .SYS_ERR_ADDR_HI_ADDR, .reg .SYS_ERR_ADDR_HI_MASTER, .reg .SYS_ERR_ADDR_HI_WRITE, .reg .SYS_ERR_ADDR_LO_ADDR, .presented, .holdoff,
    .poison, .pwr, .qry, .ben, .free] m) (a1 : Nat) (a2 : Nat) : Keeps m s0 (noteTemplate a1 a2 s) := by
  unfold noteTemplate
  try dsimp only
  repeat' first
    | with_reducible assumption
    | exact Within.trans (Eq.refl _) hw
    | with_reducible apply noteRead_keeps
    | with_reducible apply Keeps.ite
    | split

theorem pushPacket_keeps (h : Keeps m s0 s) (hw : Within [.reg .STITCH_PUSH_CNT_COUNT, .stitchers, .queues] m) (a1 : Nat) (a2 : Nat) (a3
    : Nat) (a4 : List Nat) : Keeps m s0 (pushPacket a1 a2 a3 a4 s) := by
  unfold pushPacket
  try dsimp only
  repeat' first
    | with_reducible assumption
    | exact Within.trans (Eq.refl _) hw
    | with_reducible apply inc_keeps
    | with_reducible apply State.setStitcher_keeps
    | with_reducible apply notice_keeps
    | split

theorem pushDone_keeps (h : Keeps m s0 s) (hw : Within [.reg .STITCH_STATUS_CREDIT_WAIT, .reg .STITCH_STATUS_GANG_WAIT, .reg
    .STITCH_STATUS_WAIT_EVENT, .reg .STITCH_STATUS_WAIT_TIME, .stitchers] m) (a1 : Nat) (a2 : Nat) : Keeps m s0 (pushDone a1 a2 s) := by
  unfold pushDone
  try dsimp only
  repeat' first
    | with_reducible assumption
    | exact Within.trans (Eq.refl _) hw
    | with_reducible apply State.setStitcher_keeps
    | with_reducible apply endWait_keeps
    | with_reducible apply nextPc_keeps

theorem waitCredit_keeps (h : Keeps m s0 s) (hw : Within [.reg .STITCH_STALL_CNT_COUNT, .reg .STITCH_STATUS_CREDIT_WAIT, .stitchers] m)
    (a1 : Nat) (a2 : List Nat) : Keeps m s0 (waitCredit a1 a2 s) := by
  unfold waitCredit
  try dsimp only
  repeat' first
    | with_reducible assumption
    | exact Within.trans (Eq.refl _) hw
    | with_reducible apply wr_keeps
    | with_reducible apply inc_keeps
    | with_reducible apply State.setStitcher_keeps
    | with_reducible apply Keeps.ite
    | split

theorem pushRest_keeps (h : Keeps m s0 s) (hw : Within [.reg .ERR_CODE_CODE, .reg .ERR_CODE_MASTER, .reg .ERR_CODE_OVF, .reg
    .ERR_CODE_WORD, .reg .ERR_CODE_WRITE, .reg .EVT_PEND_PEND, .reg .EVT_RAW_RAW, .reg .STITCH_FAULT_CAUSE, .reg .STITCH_FAULT_PC, .reg
    .STITCH_GANG_READY_READY, .reg .STITCH_PUSH_CNT_COUNT, .reg .STITCH_STALL_CNT_COUNT, .reg .STITCH_STATUS_CREDIT_WAIT, .reg
    .STITCH_STATUS_FAULTED, .reg .STITCH_STATUS_GANG_WAIT, .reg .STITCH_STATUS_RUNNING, .reg .STITCH_STATUS_WAIT_EVENT, .reg
    .STITCH_STATUS_WAIT_TIME, .presented, .cses, .stitchers, .queues, .outs] m) (a1 a2 : Nat) (a3 a4 : List Nat) :
    Keeps m s0 (pushRest a1 a2 a3 a4 s) := by
  induction a4 generalizing s with
  | nil => exact pushDone_keeps h (Within.trans (Eq.refl _) hw) ..
  | cons i rest ih =>
    refine Keeps.ite (stitchFault_keeps h (Within.trans (Eq.refl _) hw) ..) (Keeps.ite (stitchFault_keeps h (Within.trans (Eq.refl _)
    hw) ..)
      (Keeps.ite (waitCredit_keeps h (Within.trans (Eq.refl _) hw) ..) (ih ?_)))
    exact pushPacket_keeps (endWait_keeps h (Within.trans (Eq.refl _) hw) ..) (Within.trans (Eq.refl _) hw) ..

theorem runPush_keeps (h : Keeps m s0 s) (hw : Within [.reg .BENCH_BENCH_HEALTH_HEALTH, .reg .BENCH_BIST_STAT_PHASE, .reg
    .BENCH_ECC_CNT_CE, .reg .BENCH_ECC_CNT_UE, .reg .BENCH_STATUS_BIST_BUSY, .reg .BENCH_STATUS_SPARE_FREE, .reg .BENCH_UE_ADDR_IN_SPARE,
    .reg .BENCH_UE_ADDR_OFFSET, .reg .ERR_CODE_CODE, .reg .ERR_CODE_MASTER, .reg .ERR_CODE_OVF, .reg .ERR_CODE_WORD, .reg .ERR_CODE_WRITE,
    .reg .EVT_PEND_PEND, .reg .EVT_RAW_RAW, .reg .POWER_STATUS_ENTERING, .reg .POWER_STATUS_EXITING, .reg .POWER_WAKE_STAT_CLASS, .reg
    .POWER_WAKE_STAT_FROM, .reg .QUARRY_CAPACITY_N_ACTIVE, .reg .QUARRY_ECC_CNT_CE, .reg .QUARRY_ECC_CNT_UE, .reg .QUARRY_LRMAP_MAP, .reg
    .QUARRY_LRMAP_SPARE, .reg .QUARRY_RANK_STATE_STATE, .reg .QUARRY_STATUS_DEGRADED, .reg .QUARRY_STATUS_MIGRATING, .reg
    .QUARRY_UE_ADDR_HI_ADDR, .reg .QUARRY_UE_ADDR_HI_BANK, .reg .QUARRY_UE_ADDR_HI_RANK, .reg .QUARRY_UE_ADDR_LO_ADDR, .reg
    .STITCH_FAULT_CAUSE, .reg .STITCH_FAULT_PC, .reg .STITCH_GANG_READY_READY, .reg .STITCH_PUSH_CNT_COUNT, .reg .STITCH_STALL_CNT_COUNT,
    .reg .STITCH_STATUS_CREDIT_WAIT, .reg .STITCH_STATUS_FAULTED, .reg .STITCH_STATUS_GANG_WAIT, .reg .STITCH_STATUS_RUNNING, .reg
    .STITCH_STATUS_WAIT_EVENT, .reg .STITCH_STATUS_WAIT_TIME, .reg .SYS_ERR_ADDR_HI_ADDR, .reg .SYS_ERR_ADDR_HI_MASTER, .reg
    .SYS_ERR_ADDR_HI_WRITE, .reg .SYS_ERR_ADDR_LO_ADDR, .presented, .holdoff, .poison, .cses, .stitchers, .queues, .outs, .pwr, .qry, .ben,
    .free] m) (a1 : Nat) (a2 : Nat) (a3 : List Nat) : Keeps m s0 (runPush a1 a2 a3 s) := by
  unfold runPush
  try dsimp only
  repeat' first
    | with_reducible assumption
    | exact Within.trans (Eq.refl _) hw
    | with_reducible apply noteTemplate_keeps
    | with_reducible apply pushRest_keeps
    | with_reducible apply stitchFault_keeps
    | split
    | with_reducible refine Keeps.of_snd (by assumption) ?_

theorem startPush_keeps (h : Keeps m s0 s) (hw : Within [.reg .BENCH_BENCH_HEALTH_HEALTH, .reg .BENCH_BIST_STAT_PHASE, .reg
    .BENCH_ECC_CNT_CE, .reg .BENCH_ECC_CNT_UE, .reg .BENCH_STATUS_BIST_BUSY, .reg .BENCH_STATUS_SPARE_FREE, .reg .BENCH_UE_ADDR_IN_SPARE,
    .reg .BENCH_UE_ADDR_OFFSET, .reg .ERR_CODE_CODE, .reg .ERR_CODE_MASTER, .reg .ERR_CODE_OVF, .reg .ERR_CODE_WORD, .reg .ERR_CODE_WRITE,
    .reg .EVT_PEND_PEND, .reg .EVT_RAW_RAW, .reg .POWER_STATUS_ENTERING, .reg .POWER_STATUS_EXITING, .reg .POWER_WAKE_STAT_CLASS, .reg
    .POWER_WAKE_STAT_FROM, .reg .QUARRY_CAPACITY_N_ACTIVE, .reg .QUARRY_ECC_CNT_CE, .reg .QUARRY_ECC_CNT_UE, .reg .QUARRY_LRMAP_MAP, .reg
    .QUARRY_LRMAP_SPARE, .reg .QUARRY_RANK_STATE_STATE, .reg .QUARRY_STATUS_DEGRADED, .reg .QUARRY_STATUS_MIGRATING, .reg
    .QUARRY_UE_ADDR_HI_ADDR, .reg .QUARRY_UE_ADDR_HI_BANK, .reg .QUARRY_UE_ADDR_HI_RANK, .reg .QUARRY_UE_ADDR_LO_ADDR, .reg
    .STITCH_FAULT_CAUSE, .reg .STITCH_FAULT_PC, .reg .STITCH_GANG_READY_READY, .reg .STITCH_PUSH_CNT_COUNT, .reg .STITCH_STALL_CNT_COUNT,
    .reg .STITCH_STATUS_CREDIT_WAIT, .reg .STITCH_STATUS_FAULTED, .reg .STITCH_STATUS_GANG_WAIT, .reg .STITCH_STATUS_RUNNING, .reg
    .STITCH_STATUS_WAIT_EVENT, .reg .STITCH_STATUS_WAIT_TIME, .reg .SYS_ERR_ADDR_HI_ADDR, .reg .SYS_ERR_ADDR_HI_MASTER, .reg
    .SYS_ERR_ADDR_HI_WRITE, .reg .SYS_ERR_ADDR_LO_ADDR, .presented, .holdoff, .poison, .cses, .stitchers, .queues, .outs, .pwr, .qry, .ben,
    .free] m) (a1 : Nat) (a2 : Nat) : Keeps m s0 (startPush a1 a2 s) := by
  unfold startPush
  try dsimp only
  repeat' first
    | with_reducible assumption
    | exact Within.trans (Eq.refl _) hw
    | (intro _)
    | with_reducible apply runPush_keeps
    | with_reducible apply stitchFault_keeps
    | with_reducible apply Keeps.ite
    | split

theorem execPlay_keeps (h : Keeps m s0 s) (hw : Within [.reg .BENCH_BENCH_HEALTH_HEALTH, .reg .BENCH_BIST_STAT_PHASE, .reg
    .BENCH_ECC_CNT_CE, .reg .BENCH_ECC_CNT_UE, .reg .BENCH_STATUS_BIST_BUSY, .reg .BENCH_STATUS_SPARE_FREE, .reg .BENCH_UE_ADDR_IN_SPARE,
    .reg .BENCH_UE_ADDR_OFFSET, .reg .ERR_CODE_CODE, .reg .ERR_CODE_MASTER, .reg .ERR_CODE_OVF, .reg .ERR_CODE_WORD, .reg .ERR_CODE_WRITE,
    .reg .EVT_PEND_PEND, .reg .EVT_RAW_RAW, .reg .POWER_STATUS_ENTERING, .reg .POWER_STATUS_EXITING, .reg .POWER_WAKE_STAT_CLASS, .reg
    .POWER_WAKE_STAT_FROM, .reg .QUARRY_CAPACITY_N_ACTIVE, .reg .QUARRY_ECC_CNT_CE, .reg .QUARRY_ECC_CNT_UE, .reg .QUARRY_LRMAP_MAP, .reg
    .QUARRY_LRMAP_SPARE, .reg .QUARRY_RANK_STATE_STATE, .reg .QUARRY_STATUS_DEGRADED, .reg .QUARRY_STATUS_MIGRATING, .reg
    .QUARRY_UE_ADDR_HI_ADDR, .reg .QUARRY_UE_ADDR_HI_BANK, .reg .QUARRY_UE_ADDR_HI_RANK, .reg .QUARRY_UE_ADDR_LO_ADDR, .reg
    .STITCH_FAULT_CAUSE, .reg .STITCH_FAULT_PC, .reg .STITCH_GANG_READY_READY, .reg .STITCH_PUSH_CNT_COUNT, .reg .STITCH_STALL_CNT_COUNT,
    .reg .STITCH_STATUS_CREDIT_WAIT, .reg .STITCH_STATUS_FAULTED, .reg .STITCH_STATUS_GANG_WAIT, .reg .STITCH_STATUS_RUNNING, .reg
    .STITCH_STATUS_WAIT_EVENT, .reg .STITCH_STATUS_WAIT_TIME, .reg .SYS_ERR_ADDR_HI_ADDR, .reg .SYS_ERR_ADDR_HI_MASTER, .reg
    .SYS_ERR_ADDR_HI_WRITE, .reg .SYS_ERR_ADDR_LO_ADDR, .presented, .holdoff, .poison, .cses, .stitchers, .queues, .outs, .pwr, .qry, .ben,
    .free] m) (a1 : Quad) : Ends m s0 (execPlay a1 s) := by
  unfold execPlay
  try dsimp only
  repeat' first
    | with_reducible assumption
    | exact Within.trans (Eq.refl _) hw
    | (intro _)
    | with_reducible apply act_keeps
    | with_reducible apply runOp_keeps
    | with_reducible apply startPush_keeps
    | with_reducible apply Ends.ite
    | with_reducible apply Ends.next
    | split

theorem execPlaya_keeps (h : Keeps m s0 s) (hw : Within [.reg .BENCH_BENCH_HEALTH_HEALTH, .reg .BENCH_BIST_STAT_PHASE, .reg
    .BENCH_ECC_CNT_CE, .reg .BENCH_ECC_CNT_UE, .reg .BENCH_STATUS_BIST_BUSY, .reg .BENCH_STATUS_SPARE_FREE, .reg .BENCH_UE_ADDR_IN_SPARE,
    .reg .BENCH_UE_ADDR_OFFSET, .reg .ERR_CODE_CODE, .reg .ERR_CODE_MASTER, .reg .ERR_CODE_OVF, .reg .ERR_CODE_WORD, .reg .ERR_CODE_WRITE,
    .reg .EVT_PEND_PEND, .reg .EVT_RAW_RAW, .reg .POWER_STATUS_ENTERING, .reg .POWER_STATUS_EXITING, .reg .POWER_WAKE_STAT_CLASS, .reg
    .POWER_WAKE_STAT_FROM, .reg .QUARRY_CAPACITY_N_ACTIVE, .reg .QUARRY_ECC_CNT_CE, .reg .QUARRY_ECC_CNT_UE, .reg .QUARRY_LRMAP_MAP, .reg
    .QUARRY_LRMAP_SPARE, .reg .QUARRY_RANK_STATE_STATE, .reg .QUARRY_STATUS_DEGRADED, .reg .QUARRY_STATUS_MIGRATING, .reg
    .QUARRY_UE_ADDR_HI_ADDR, .reg .QUARRY_UE_ADDR_HI_BANK, .reg .QUARRY_UE_ADDR_HI_RANK, .reg .QUARRY_UE_ADDR_LO_ADDR, .reg
    .STITCH_FAULT_CAUSE, .reg .STITCH_FAULT_PC, .reg .STITCH_GANG_READY_READY, .reg .STITCH_PUSH_CNT_COUNT, .reg .STITCH_STALL_CNT_COUNT,
    .reg .STITCH_STATUS_CREDIT_WAIT, .reg .STITCH_STATUS_FAULTED, .reg .STITCH_STATUS_GANG_WAIT, .reg .STITCH_STATUS_RUNNING, .reg
    .STITCH_STATUS_WAIT_EVENT, .reg .STITCH_STATUS_WAIT_TIME, .reg .SYS_ERR_ADDR_HI_ADDR, .reg .SYS_ERR_ADDR_HI_MASTER, .reg
    .SYS_ERR_ADDR_HI_WRITE, .reg .SYS_ERR_ADDR_LO_ADDR, .presented, .holdoff, .poison, .cses, .stitchers, .queues, .outs, .pwr, .qry, .ben,
    .free] m) (a1 : Quad) : Ends m s0 (execPlaya a1 s) := by
  unfold execPlaya
  try dsimp only
  repeat' first
    | with_reducible assumption
    | exact Within.trans (Eq.refl _) hw
    | (intro _)
    | with_reducible apply act_keeps
    | with_reducible apply runOp_keeps
    | with_reducible apply startPush_keeps
    | with_reducible apply Ends.ite
    | with_reducible apply Ends.next
    | split

theorem execHold_keeps (h : Keeps m s0 s) (hw : Within [.reg .BENCH_BENCH_HEALTH_HEALTH, .reg .BENCH_BIST_STAT_PHASE, .reg
    .BENCH_ECC_CNT_CE, .reg .BENCH_ECC_CNT_UE, .reg .BENCH_STATUS_BIST_BUSY, .reg .BENCH_STATUS_SPARE_FREE, .reg .BENCH_UE_ADDR_IN_SPARE,
    .reg .BENCH_UE_ADDR_OFFSET, .reg .ERR_CODE_CODE, .reg .ERR_CODE_MASTER, .reg .ERR_CODE_OVF, .reg .ERR_CODE_WORD, .reg .ERR_CODE_WRITE,
    .reg .EVT_PEND_PEND, .reg .EVT_RAW_RAW, .reg .POWER_STATUS_ENTERING, .reg .POWER_STATUS_EXITING, .reg .POWER_WAKE_STAT_CLASS, .reg
    .POWER_WAKE_STAT_FROM, .reg .QUARRY_CAPACITY_N_ACTIVE, .reg .QUARRY_ECC_CNT_CE, .reg .QUARRY_ECC_CNT_UE, .reg .QUARRY_LRMAP_MAP, .reg
    .QUARRY_LRMAP_SPARE, .reg .QUARRY_RANK_STATE_STATE, .reg .QUARRY_STATUS_DEGRADED, .reg .QUARRY_STATUS_MIGRATING, .reg
    .QUARRY_UE_ADDR_HI_ADDR, .reg .QUARRY_UE_ADDR_HI_BANK, .reg .QUARRY_UE_ADDR_HI_RANK, .reg .QUARRY_UE_ADDR_LO_ADDR, .reg
    .STITCH_FAULT_CAUSE, .reg .STITCH_FAULT_PC, .reg .STITCH_GANG_READY_READY, .reg .STITCH_PUSH_CNT_COUNT, .reg .STITCH_STALL_CNT_COUNT,
    .reg .STITCH_STATUS_CREDIT_WAIT, .reg .STITCH_STATUS_FAULTED, .reg .STITCH_STATUS_GANG_WAIT, .reg .STITCH_STATUS_RUNNING, .reg
    .STITCH_STATUS_WAIT_EVENT, .reg .STITCH_STATUS_WAIT_TIME, .reg .SYS_ERR_ADDR_HI_ADDR, .reg .SYS_ERR_ADDR_HI_MASTER, .reg
    .SYS_ERR_ADDR_HI_WRITE, .reg .SYS_ERR_ADDR_LO_ADDR, .presented, .holdoff, .poison, .cses, .stitchers, .queues, .outs, .pwr, .qry, .ben,
    .free] m) (a1 : Quad) : Ends m s0 (execHold a1 s) := by
  unfold execHold
  try dsimp only
  repeat' first
    | with_reducible assumption
    | exact Within.trans (Eq.refl _) hw
    | (intro _)
    | with_reducible apply act_keeps
    | with_reducible apply runOp_keeps
    | with_reducible apply startPush_keeps
    | with_reducible apply Ends.ite
    | with_reducible apply Ends.next
    | split

theorem execMark_keeps (h : Keeps m s0 s) (hw : Within [.reg .BENCH_BENCH_HEALTH_HEALTH, .reg .BENCH_BIST_STAT_PHASE, .reg
    .BENCH_ECC_CNT_CE, .reg .BENCH_ECC_CNT_UE, .reg .BENCH_STATUS_BIST_BUSY, .reg .BENCH_STATUS_SPARE_FREE, .reg .BENCH_UE_ADDR_IN_SPARE,
    .reg .BENCH_UE_ADDR_OFFSET, .reg .ERR_CODE_CODE, .reg .ERR_CODE_MASTER, .reg .ERR_CODE_OVF, .reg .ERR_CODE_WORD, .reg .ERR_CODE_WRITE,
    .reg .EVT_PEND_PEND, .reg .EVT_RAW_RAW, .reg .POWER_STATUS_ENTERING, .reg .POWER_STATUS_EXITING, .reg .POWER_WAKE_STAT_CLASS, .reg
    .POWER_WAKE_STAT_FROM, .reg .QUARRY_CAPACITY_N_ACTIVE, .reg .QUARRY_ECC_CNT_CE, .reg .QUARRY_ECC_CNT_UE, .reg .QUARRY_LRMAP_MAP, .reg
    .QUARRY_LRMAP_SPARE, .reg .QUARRY_RANK_STATE_STATE, .reg .QUARRY_STATUS_DEGRADED, .reg .QUARRY_STATUS_MIGRATING, .reg
    .QUARRY_UE_ADDR_HI_ADDR, .reg .QUARRY_UE_ADDR_HI_BANK, .reg .QUARRY_UE_ADDR_HI_RANK, .reg .QUARRY_UE_ADDR_LO_ADDR, .reg
    .STITCH_FAULT_CAUSE, .reg .STITCH_FAULT_PC, .reg .STITCH_GANG_READY_READY, .reg .STITCH_PUSH_CNT_COUNT, .reg .STITCH_STALL_CNT_COUNT,
    .reg .STITCH_STATUS_CREDIT_WAIT, .reg .STITCH_STATUS_FAULTED, .reg .STITCH_STATUS_GANG_WAIT, .reg .STITCH_STATUS_RUNNING, .reg
    .STITCH_STATUS_WAIT_EVENT, .reg .STITCH_STATUS_WAIT_TIME, .reg .SYS_ERR_ADDR_HI_ADDR, .reg .SYS_ERR_ADDR_HI_MASTER, .reg
    .SYS_ERR_ADDR_HI_WRITE, .reg .SYS_ERR_ADDR_LO_ADDR, .presented, .holdoff, .poison, .cses, .stitchers, .queues, .outs, .pwr, .qry, .ben,
    .free] m) (a1 : Quad) : Ends m s0 (execMark a1 s) := by
  unfold execMark
  try dsimp only
  repeat' first
    | with_reducible assumption
    | exact Within.trans (Eq.refl _) hw
    | (intro _)
    | with_reducible apply act_keeps
    | with_reducible apply runOp_keeps
    | with_reducible apply startPush_keeps
    | with_reducible apply Ends.ite
    | with_reducible apply Ends.next
    | split

theorem execSpeed_keeps (h : Keeps m s0 s) (hw : Within [.reg .BENCH_BENCH_HEALTH_HEALTH, .reg .BENCH_BIST_STAT_PHASE, .reg
    .BENCH_ECC_CNT_CE, .reg .BENCH_ECC_CNT_UE, .reg .BENCH_STATUS_BIST_BUSY, .reg .BENCH_STATUS_SPARE_FREE, .reg .BENCH_UE_ADDR_IN_SPARE,
    .reg .BENCH_UE_ADDR_OFFSET, .reg .ERR_CODE_CODE, .reg .ERR_CODE_MASTER, .reg .ERR_CODE_OVF, .reg .ERR_CODE_WORD, .reg .ERR_CODE_WRITE,
    .reg .EVT_PEND_PEND, .reg .EVT_RAW_RAW, .reg .POWER_STATUS_ENTERING, .reg .POWER_STATUS_EXITING, .reg .POWER_WAKE_STAT_CLASS, .reg
    .POWER_WAKE_STAT_FROM, .reg .QUARRY_CAPACITY_N_ACTIVE, .reg .QUARRY_ECC_CNT_CE, .reg .QUARRY_ECC_CNT_UE, .reg .QUARRY_LRMAP_MAP, .reg
    .QUARRY_LRMAP_SPARE, .reg .QUARRY_RANK_STATE_STATE, .reg .QUARRY_STATUS_DEGRADED, .reg .QUARRY_STATUS_MIGRATING, .reg
    .QUARRY_UE_ADDR_HI_ADDR, .reg .QUARRY_UE_ADDR_HI_BANK, .reg .QUARRY_UE_ADDR_HI_RANK, .reg .QUARRY_UE_ADDR_LO_ADDR, .reg
    .STITCH_FAULT_CAUSE, .reg .STITCH_FAULT_PC, .reg .STITCH_GANG_READY_READY, .reg .STITCH_PUSH_CNT_COUNT, .reg .STITCH_STALL_CNT_COUNT,
    .reg .STITCH_STATUS_CREDIT_WAIT, .reg .STITCH_STATUS_FAULTED, .reg .STITCH_STATUS_GANG_WAIT, .reg .STITCH_STATUS_RUNNING, .reg
    .STITCH_STATUS_WAIT_EVENT, .reg .STITCH_STATUS_WAIT_TIME, .reg .SYS_ERR_ADDR_HI_ADDR, .reg .SYS_ERR_ADDR_HI_MASTER, .reg
    .SYS_ERR_ADDR_HI_WRITE, .reg .SYS_ERR_ADDR_LO_ADDR, .presented, .holdoff, .poison, .cses, .stitchers, .queues, .outs, .pwr, .qry, .ben,
    .free] m) (a1 : Quad) : Ends m s0 (execSpeed a1 s) := by
  unfold execSpeed
  try dsimp only
  repeat' first
    | with_reducible assumption
    | exact Within.trans (Eq.refl _) hw
    | (intro _)
    | with_reducible apply act_keeps
    | with_reducible apply runOp_keeps
    | with_reducible apply startPush_keeps
    | with_reducible apply Ends.ite
    | with_reducible apply Ends.next
    | split

theorem execRamp_keeps (h : Keeps m s0 s) (hw : Within [.reg .BENCH_BENCH_HEALTH_HEALTH, .reg .BENCH_BIST_STAT_PHASE, .reg
    .BENCH_ECC_CNT_CE, .reg .BENCH_ECC_CNT_UE, .reg .BENCH_STATUS_BIST_BUSY, .reg .BENCH_STATUS_SPARE_FREE, .reg .BENCH_UE_ADDR_IN_SPARE,
    .reg .BENCH_UE_ADDR_OFFSET, .reg .ERR_CODE_CODE, .reg .ERR_CODE_MASTER, .reg .ERR_CODE_OVF, .reg .ERR_CODE_WORD, .reg .ERR_CODE_WRITE,
    .reg .EVT_PEND_PEND, .reg .EVT_RAW_RAW, .reg .POWER_STATUS_ENTERING, .reg .POWER_STATUS_EXITING, .reg .POWER_WAKE_STAT_CLASS, .reg
    .POWER_WAKE_STAT_FROM, .reg .QUARRY_CAPACITY_N_ACTIVE, .reg .QUARRY_ECC_CNT_CE, .reg .QUARRY_ECC_CNT_UE, .reg .QUARRY_LRMAP_MAP, .reg
    .QUARRY_LRMAP_SPARE, .reg .QUARRY_RANK_STATE_STATE, .reg .QUARRY_STATUS_DEGRADED, .reg .QUARRY_STATUS_MIGRATING, .reg
    .QUARRY_UE_ADDR_HI_ADDR, .reg .QUARRY_UE_ADDR_HI_BANK, .reg .QUARRY_UE_ADDR_HI_RANK, .reg .QUARRY_UE_ADDR_LO_ADDR, .reg
    .STITCH_FAULT_CAUSE, .reg .STITCH_FAULT_PC, .reg .STITCH_GANG_READY_READY, .reg .STITCH_PUSH_CNT_COUNT, .reg .STITCH_STALL_CNT_COUNT,
    .reg .STITCH_STATUS_CREDIT_WAIT, .reg .STITCH_STATUS_FAULTED, .reg .STITCH_STATUS_GANG_WAIT, .reg .STITCH_STATUS_RUNNING, .reg
    .STITCH_STATUS_WAIT_EVENT, .reg .STITCH_STATUS_WAIT_TIME, .reg .SYS_ERR_ADDR_HI_ADDR, .reg .SYS_ERR_ADDR_HI_MASTER, .reg
    .SYS_ERR_ADDR_HI_WRITE, .reg .SYS_ERR_ADDR_LO_ADDR, .presented, .holdoff, .poison, .cses, .stitchers, .queues, .outs, .pwr, .qry, .ben,
    .free] m) (a1 : Quad) : Ends m s0 (execRamp a1 s) := by
  unfold execRamp
  try dsimp only
  repeat' first
    | with_reducible assumption
    | exact Within.trans (Eq.refl _) hw
    | (intro _)
    | with_reducible apply act_keeps
    | with_reducible apply runOp_keeps
    | with_reducible apply startPush_keeps
    | with_reducible apply Ends.ite
    | with_reducible apply Ends.next
    | split

theorem execCreditWaitEnd_keeps (h : Keeps m s0 s) (hw : Within [.reg .BENCH_BENCH_HEALTH_HEALTH, .reg .BENCH_BIST_STAT_PHASE, .reg
    .BENCH_ECC_CNT_CE, .reg .BENCH_ECC_CNT_UE, .reg .BENCH_STATUS_BIST_BUSY, .reg .BENCH_STATUS_SPARE_FREE, .reg .BENCH_UE_ADDR_IN_SPARE,
    .reg .BENCH_UE_ADDR_OFFSET, .reg .ERR_CODE_CODE, .reg .ERR_CODE_MASTER, .reg .ERR_CODE_OVF, .reg .ERR_CODE_WORD, .reg .ERR_CODE_WRITE,
    .reg .EVT_PEND_PEND, .reg .EVT_RAW_RAW, .reg .POWER_STATUS_ENTERING, .reg .POWER_STATUS_EXITING, .reg .POWER_WAKE_STAT_CLASS, .reg
    .POWER_WAKE_STAT_FROM, .reg .QUARRY_CAPACITY_N_ACTIVE, .reg .QUARRY_ECC_CNT_CE, .reg .QUARRY_ECC_CNT_UE, .reg .QUARRY_LRMAP_MAP, .reg
    .QUARRY_LRMAP_SPARE, .reg .QUARRY_RANK_STATE_STATE, .reg .QUARRY_STATUS_DEGRADED, .reg .QUARRY_STATUS_MIGRATING, .reg
    .QUARRY_UE_ADDR_HI_ADDR, .reg .QUARRY_UE_ADDR_HI_BANK, .reg .QUARRY_UE_ADDR_HI_RANK, .reg .QUARRY_UE_ADDR_LO_ADDR, .reg
    .STITCH_FAULT_CAUSE, .reg .STITCH_FAULT_PC, .reg .STITCH_GANG_READY_READY, .reg .STITCH_PUSH_CNT_COUNT, .reg .STITCH_STALL_CNT_COUNT,
    .reg .STITCH_STATUS_CREDIT_WAIT, .reg .STITCH_STATUS_FAULTED, .reg .STITCH_STATUS_GANG_WAIT, .reg .STITCH_STATUS_RUNNING, .reg
    .STITCH_STATUS_WAIT_EVENT, .reg .STITCH_STATUS_WAIT_TIME, .reg .SYS_ERR_ADDR_HI_ADDR, .reg .SYS_ERR_ADDR_HI_MASTER, .reg
    .SYS_ERR_ADDR_HI_WRITE, .reg .SYS_ERR_ADDR_LO_ADDR, .presented, .holdoff, .poison, .cses, .stitchers, .queues, .outs, .pwr, .qry, .ben,
    .free] m) (a1 : Quad) : Ends m s0 (execCreditWaitEnd a1 s) := by
  unfold execCreditWaitEnd
  try dsimp only
  repeat' first
    | with_reducible assumption
    | exact Within.trans (Eq.refl _) hw
    | (intro _)
    | with_reducible apply on_keeps
    | with_reducible apply act_keeps
    | with_reducible apply runPush_keeps
    | with_reducible apply Ends.ite
    | with_reducible apply Ends.next
    | split
    | with_reducible apply KeepsOpt.getD

theorem execNop_keeps (h : Keeps m s0 s) (hw : Within [.stitchers] m) (a1 : Quad) : Ends m s0 (execNop a1 s) := by
  unfold execNop
  try dsimp only
  repeat' first
    | with_reducible assumption
    | exact Within.trans (Eq.refl _) hw
    | (intro _)
    | with_reducible apply act_keeps
    | with_reducible apply nextPc_keeps
    | with_reducible apply runOp_keeps
    | with_reducible apply Ends.ite
    | with_reducible apply Ends.next
    | split

theorem halt_keeps (h : Keeps m s0 s) (hw : Within [.reg .EVT_PEND_PEND, .reg .EVT_RAW_RAW, .reg .STITCH_STATUS_HALTED, .reg
    .STITCH_STATUS_RUNNING, .presented, .stitchers] m) (a1 : Nat) : Keeps m s0 (halt a1 s) := by
  unfold halt
  try dsimp only
  repeat' first
    | with_reducible assumption
    | exact Within.trans (Eq.refl _) hw
    | with_reducible apply wr_keeps
    | with_reducible apply nextPc_keeps
    | with_reducible apply raise_keeps

theorem execHalt_keeps (h : Keeps m s0 s) (hw : Within [.reg .EVT_PEND_PEND, .reg .EVT_RAW_RAW, .reg .STITCH_STATUS_HALTED, .reg
    .STITCH_STATUS_RUNNING, .presented, .stitchers] m) (a1 : Quad) : Ends m s0 (execHalt a1 s) := by
  unfold execHalt
  try dsimp only
  repeat' first
    | with_reducible assumption
    | exact Within.trans (Eq.refl _) hw
    | (intro _)
    | with_reducible apply act_keeps
    | with_reducible apply halt_keeps
    | with_reducible apply runOp_keeps
    | with_reducible apply Ends.ite
    | with_reducible apply Ends.next
    | split

theorem loopOp_keeps (h : Keeps m s0 s) (hw : Within [.reg .ERR_CODE_CODE, .reg .ERR_CODE_MASTER, .reg .ERR_CODE_OVF, .reg
    .ERR_CODE_WORD, .reg .ERR_CODE_WRITE, .reg .EVT_PEND_PEND, .reg .EVT_RAW_RAW, .reg .STITCH_FAULT_CAUSE, .reg .STITCH_FAULT_PC, .reg
    .STITCH_GANG_READY_READY, .reg .STITCH_STATUS_CREDIT_WAIT, .reg .STITCH_STATUS_FAULTED, .reg .STITCH_STATUS_GANG_WAIT, .reg
    .STITCH_STATUS_RUNNING, .reg .STITCH_STATUS_WAIT_EVENT, .reg .STITCH_STATUS_WAIT_TIME, .presented, .cses, .stitchers, .outs] m) (a1 :
    Nat) (a2 : Nat) : Keeps m s0 (loopOp a1 a2 s) := by
  unfold loopOp
  try dsimp only
  repeat' first
    | with_reducible assumption
    | exact Within.trans (Eq.refl _) hw
    | with_reducible apply State.setStitcher_keeps
    | with_reducible apply goto_keeps
    | with_reducible apply nextPc_keeps
    | with_reducible apply stitchFault_keeps
    | with_reducible apply Keeps.ite
    | split

theorem execLoop_keeps (h : Keeps m s0 s) (hw : Within [.reg .ERR_CODE_CODE, .reg .ERR_CODE_MASTER, .reg .ERR_CODE_OVF, .reg
    .ERR_CODE_WORD, .reg .ERR_CODE_WRITE, .reg .EVT_PEND_PEND, .reg .EVT_RAW_RAW, .reg .STITCH_FAULT_CAUSE, .reg .STITCH_FAULT_PC, .reg
    .STITCH_GANG_READY_READY, .reg .STITCH_STATUS_CREDIT_WAIT, .reg .STITCH_STATUS_FAULTED, .reg .STITCH_STATUS_GANG_WAIT, .reg
    .STITCH_STATUS_RUNNING, .reg .STITCH_STATUS_WAIT_EVENT, .reg .STITCH_STATUS_WAIT_TIME, .presented, .cses, .stitchers, .outs] m) (a1 :
    Quad) : Ends m s0 (execLoop a1 s) := by
  unfold execLoop
  try dsimp only
  repeat' first
    | with_reducible assumption
    | exact Within.trans (Eq.refl _) hw
    | (intro _)
    | with_reducible apply act_keeps
    | with_reducible apply loopOp_keeps
    | with_reducible apply runOp_keeps
    | with_reducible apply Ends.ite
    | with_reducible apply Ends.next
    | split

theorem endLoop_keeps (h : Keeps m s0 s) (hw : Within [.reg .ERR_CODE_CODE, .reg .ERR_CODE_MASTER, .reg .ERR_CODE_OVF, .reg
    .ERR_CODE_WORD, .reg .ERR_CODE_WRITE, .reg .EVT_PEND_PEND, .reg .EVT_RAW_RAW, .reg .STITCH_FAULT_CAUSE, .reg .STITCH_FAULT_PC, .reg
    .STITCH_GANG_READY_READY, .reg .STITCH_STATUS_CREDIT_WAIT, .reg .STITCH_STATUS_FAULTED, .reg .STITCH_STATUS_GANG_WAIT, .reg
    .STITCH_STATUS_RUNNING, .reg .STITCH_STATUS_WAIT_EVENT, .reg .STITCH_STATUS_WAIT_TIME, .presented, .cses, .stitchers, .outs] m) (a1 :
    Nat) : Keeps m s0 (endLoop a1 s) := by
  unfold endLoop
  try dsimp only
  repeat' first
    | with_reducible assumption
    | exact Within.trans (Eq.refl _) hw
    | with_reducible apply State.setStitcher_keeps
    | with_reducible apply goto_keeps
    | with_reducible apply nextPc_keeps
    | with_reducible apply stitchFault_keeps
    | with_reducible apply Keeps.ite
    | split

theorem execEndl_keeps (h : Keeps m s0 s) (hw : Within [.reg .ERR_CODE_CODE, .reg .ERR_CODE_MASTER, .reg .ERR_CODE_OVF, .reg
    .ERR_CODE_WORD, .reg .ERR_CODE_WRITE, .reg .EVT_PEND_PEND, .reg .EVT_RAW_RAW, .reg .STITCH_FAULT_CAUSE, .reg .STITCH_FAULT_PC, .reg
    .STITCH_GANG_READY_READY, .reg .STITCH_STATUS_CREDIT_WAIT, .reg .STITCH_STATUS_FAULTED, .reg .STITCH_STATUS_GANG_WAIT, .reg
    .STITCH_STATUS_RUNNING, .reg .STITCH_STATUS_WAIT_EVENT, .reg .STITCH_STATUS_WAIT_TIME, .presented, .cses, .stitchers, .outs] m) (a1 :
    Quad) : Ends m s0 (execEndl a1 s) := by
  unfold execEndl
  try dsimp only
  repeat' first
    | with_reducible assumption
    | exact Within.trans (Eq.refl _) hw
    | (intro _)
    | with_reducible apply act_keeps
    | with_reducible apply endLoop_keeps
    | with_reducible apply runOp_keeps
    | with_reducible apply Ends.ite
    | with_reducible apply Ends.next
    | split

theorem callOp_keeps (h : Keeps m s0 s) (hw : Within [.reg .ERR_CODE_CODE, .reg .ERR_CODE_MASTER, .reg .ERR_CODE_OVF, .reg
    .ERR_CODE_WORD, .reg .ERR_CODE_WRITE, .reg .EVT_PEND_PEND, .reg .EVT_RAW_RAW, .reg .STITCH_FAULT_CAUSE, .reg .STITCH_FAULT_PC, .reg
    .STITCH_GANG_READY_READY, .reg .STITCH_STATUS_CREDIT_WAIT, .reg .STITCH_STATUS_FAULTED, .reg .STITCH_STATUS_GANG_WAIT, .reg
    .STITCH_STATUS_RUNNING, .reg .STITCH_STATUS_WAIT_EVENT, .reg .STITCH_STATUS_WAIT_TIME, .presented, .cses, .stitchers, .outs] m) (a1 :
    Nat) (a2 : Nat) : Keeps m s0 (callOp a1 a2 s) := by
  unfold callOp
  try dsimp only
  repeat' first
    | with_reducible assumption
    | exact Within.trans (Eq.refl _) hw
    | with_reducible apply State.setStitcher_keeps
    | with_reducible apply goto_keeps
    | with_reducible apply stitchFault_keeps
    | with_reducible apply Keeps.ite
    | split

theorem execCall_keeps (h : Keeps m s0 s) (hw : Within [.reg .ERR_CODE_CODE, .reg .ERR_CODE_MASTER, .reg .ERR_CODE_OVF, .reg
    .ERR_CODE_WORD, .reg .ERR_CODE_WRITE, .reg .EVT_PEND_PEND, .reg .EVT_RAW_RAW, .reg .STITCH_FAULT_CAUSE, .reg .STITCH_FAULT_PC, .reg
    .STITCH_GANG_READY_READY, .reg .STITCH_STATUS_CREDIT_WAIT, .reg .STITCH_STATUS_FAULTED, .reg .STITCH_STATUS_GANG_WAIT, .reg
    .STITCH_STATUS_RUNNING, .reg .STITCH_STATUS_WAIT_EVENT, .reg .STITCH_STATUS_WAIT_TIME, .presented, .cses, .stitchers, .outs] m) (a1 :
    Quad) : Ends m s0 (execCall a1 s) := by
  unfold execCall
  try dsimp only
  repeat' first
    | with_reducible assumption
    | exact Within.trans (Eq.refl _) hw
    | (intro _)
    | with_reducible apply act_keeps
    | with_reducible apply callOp_keeps
    | with_reducible apply runOp_keeps
    | with_reducible apply Ends.ite
    | with_reducible apply Ends.next
    | split

theorem retOp_keeps (h : Keeps m s0 s) (hw : Within [.reg .ERR_CODE_CODE, .reg .ERR_CODE_MASTER, .reg .ERR_CODE_OVF, .reg
    .ERR_CODE_WORD, .reg .ERR_CODE_WRITE, .reg .EVT_PEND_PEND, .reg .EVT_RAW_RAW, .reg .STITCH_FAULT_CAUSE, .reg .STITCH_FAULT_PC, .reg
    .STITCH_GANG_READY_READY, .reg .STITCH_STATUS_CREDIT_WAIT, .reg .STITCH_STATUS_FAULTED, .reg .STITCH_STATUS_GANG_WAIT, .reg
    .STITCH_STATUS_RUNNING, .reg .STITCH_STATUS_WAIT_EVENT, .reg .STITCH_STATUS_WAIT_TIME, .presented, .cses, .stitchers, .outs] m) (a1 :
    Nat) : Keeps m s0 (retOp a1 s) := by
  unfold retOp
  try dsimp only
  repeat' first
    | with_reducible assumption
    | exact Within.trans (Eq.refl _) hw
    | with_reducible apply State.setStitcher_keeps
    | with_reducible apply goto_keeps
    | with_reducible apply stitchFault_keeps
    | with_reducible apply Keeps.ite
    | split

theorem execRet_keeps (h : Keeps m s0 s) (hw : Within [.reg .ERR_CODE_CODE, .reg .ERR_CODE_MASTER, .reg .ERR_CODE_OVF, .reg
    .ERR_CODE_WORD, .reg .ERR_CODE_WRITE, .reg .EVT_PEND_PEND, .reg .EVT_RAW_RAW, .reg .STITCH_FAULT_CAUSE, .reg .STITCH_FAULT_PC, .reg
    .STITCH_GANG_READY_READY, .reg .STITCH_STATUS_CREDIT_WAIT, .reg .STITCH_STATUS_FAULTED, .reg .STITCH_STATUS_GANG_WAIT, .reg
    .STITCH_STATUS_RUNNING, .reg .STITCH_STATUS_WAIT_EVENT, .reg .STITCH_STATUS_WAIT_TIME, .presented, .cses, .stitchers, .outs] m) (a1 :
    Quad) : Ends m s0 (execRet a1 s) := by
  unfold execRet
  try dsimp only
  repeat' first
    | with_reducible assumption
    | exact Within.trans (Eq.refl _) hw
    | (intro _)
    | with_reducible apply act_keeps
    | with_reducible apply retOp_keeps
    | with_reducible apply runOp_keeps
    | with_reducible apply Ends.ite
    | with_reducible apply Ends.next
    | split

theorem flushMask_keeps (h : Keeps m s0 s) (hw : Within [.reg .TACK_QLEVEL_FLUSH_BUSY, .cses, .stitchers, .queues, .staging] m) (a1 :
    Nat) (a2 : Nat) (a3 : Bool) : Keeps m s0 (flushMask a1 a2 a3 s) := by
  unfold flushMask
  try dsimp only
  repeat' first
    | with_reducible assumption
    | exact Within.trans (Eq.refl _) hw
    | (intro _)
    | with_reducible apply each_keeps
    | with_reducible apply State.setStitcher_keeps
    | with_reducible apply flushChannel_keeps
    | with_reducible apply Keeps.ite
    | split

theorem jump_keeps (h : Keeps m s0 s) (hw : Within [.reg .ERR_CODE_CODE, .reg .ERR_CODE_MASTER, .reg .ERR_CODE_OVF, .reg .ERR_CODE_WORD,
    .reg .ERR_CODE_WRITE, .reg .EVT_PEND_PEND, .reg .EVT_RAW_RAW, .reg .STITCH_FAULT_CAUSE, .reg .STITCH_FAULT_PC, .reg
    .STITCH_GANG_READY_READY, .reg .STITCH_STATUS_CREDIT_WAIT, .reg .STITCH_STATUS_FAULTED, .reg .STITCH_STATUS_GANG_WAIT, .reg
    .STITCH_STATUS_RUNNING, .reg .STITCH_STATUS_WAIT_EVENT, .reg .STITCH_STATUS_WAIT_TIME, .reg .TACK_QLEVEL_FLUSH_BUSY, .presented, .cses,
    .stitchers, .queues, .staging, .outs] m) (a1 : Nat) (a2 : Nat) (a3 : Nat) (a4 : Nat) : Keeps m s0 (jump a1 a2 a3 a4 s) := by
  unfold jump
  try dsimp only
  repeat' first
    | with_reducible assumption
    | exact Within.trans (Eq.refl _) hw
    | with_reducible apply State.setStitcher_keeps
    | with_reducible apply flushMask_keeps
    | with_reducible apply goto_keeps
    | with_reducible apply stitchFault_keeps
    | with_reducible apply Keeps.ite
    | split

theorem jevOp_keeps (h : Keeps m s0 s) (hw : Within [.reg .ERR_CODE_CODE, .reg .ERR_CODE_MASTER, .reg .ERR_CODE_OVF, .reg
    .ERR_CODE_WORD, .reg .ERR_CODE_WRITE, .reg .EVT_PEND_PEND, .reg .EVT_RAW_RAW, .reg .STITCH_EVIN_LATCHED_LATCHED, .reg
    .STITCH_FAULT_CAUSE, .reg .STITCH_FAULT_PC, .reg .STITCH_GANG_READY_READY, .reg .STITCH_STATUS_CREDIT_WAIT, .reg .STITCH_STATUS_FAULTED,
    .reg .STITCH_STATUS_GANG_WAIT, .reg .STITCH_STATUS_RUNNING, .reg .STITCH_STATUS_WAIT_EVENT, .reg .STITCH_STATUS_WAIT_TIME, .reg
    .TACK_QLEVEL_FLUSH_BUSY, .presented, .cses, .stitchers, .queues, .staging, .outs] m) (a1 : Nat) (a2 : Nat) : Keeps m s0 (jevOp a1 a2 s)
    := by
  unfold jevOp
  try dsimp only
  repeat' first
    | with_reducible assumption
    | exact Within.trans (Eq.refl _) hw
    | with_reducible apply wr_keeps
    | with_reducible apply jump_keeps
    | with_reducible apply nextPc_keeps
    | with_reducible apply Keeps.ite
    | split

theorem execJev_keeps (h : Keeps m s0 s) (hw : Within [.reg .ERR_CODE_CODE, .reg .ERR_CODE_MASTER, .reg .ERR_CODE_OVF, .reg
    .ERR_CODE_WORD, .reg .ERR_CODE_WRITE, .reg .EVT_PEND_PEND, .reg .EVT_RAW_RAW, .reg .STITCH_EVIN_LATCHED_LATCHED, .reg
    .STITCH_FAULT_CAUSE, .reg .STITCH_FAULT_PC, .reg .STITCH_GANG_READY_READY, .reg .STITCH_STATUS_CREDIT_WAIT, .reg .STITCH_STATUS_FAULTED,
    .reg .STITCH_STATUS_GANG_WAIT, .reg .STITCH_STATUS_RUNNING, .reg .STITCH_STATUS_WAIT_EVENT, .reg .STITCH_STATUS_WAIT_TIME, .reg
    .TACK_QLEVEL_FLUSH_BUSY, .presented, .cses, .stitchers, .queues, .staging, .outs] m) (a1 : Quad) : Ends m s0 (execJev a1 s) := by
  unfold execJev
  try dsimp only
  repeat' first
    | with_reducible assumption
    | exact Within.trans (Eq.refl _) hw
    | (intro _)
    | with_reducible apply act_keeps
    | with_reducible apply jevOp_keeps
    | with_reducible apply runOp_keeps
    | with_reducible apply Ends.ite
    | with_reducible apply Ends.next
    | split

theorem waittOp_keeps (h : Keeps m s0 s) (hw : Within [.reg .ERR_CODE_CODE, .reg .ERR_CODE_MASTER, .reg .ERR_CODE_OVF, .reg
    .ERR_CODE_WORD, .reg .ERR_CODE_WRITE, .reg .EVT_PEND_PEND, .reg .EVT_RAW_RAW, .reg .STITCH_FAULT_CAUSE, .reg .STITCH_FAULT_PC, .reg
    .STITCH_GANG_READY_READY, .reg .STITCH_STATUS_CREDIT_WAIT, .reg .STITCH_STATUS_FAULTED, .reg .STITCH_STATUS_GANG_WAIT, .reg
    .STITCH_STATUS_RUNNING, .reg .STITCH_STATUS_WAIT_EVENT, .reg .STITCH_STATUS_WAIT_TIME, .presented, .cses, .stitchers, .outs] m) (a1 :
    Nat) (a2 : Nat) : Keeps m s0 (waittOp a1 a2 s) := by
  unfold waittOp
  try dsimp only
  repeat' first
    | with_reducible assumption
    | exact Within.trans (Eq.refl _) hw
    | with_reducible apply wr_keeps
    | with_reducible apply State.setStitcher_keeps
    | with_reducible apply stitchFault_keeps
    | with_reducible apply Keeps.ite
    | split

theorem execWaitt_keeps (h : Keeps m s0 s) (hw : Within [.reg .ERR_CODE_CODE, .reg .ERR_CODE_MASTER, .reg .ERR_CODE_OVF, .reg
    .ERR_CODE_WORD, .reg .ERR_CODE_WRITE, .reg .EVT_PEND_PEND, .reg .EVT_RAW_RAW, .reg .STITCH_FAULT_CAUSE, .reg .STITCH_FAULT_PC, .reg
    .STITCH_GANG_READY_READY, .reg .STITCH_STATUS_CREDIT_WAIT, .reg .STITCH_STATUS_FAULTED, .reg .STITCH_STATUS_GANG_WAIT, .reg
    .STITCH_STATUS_RUNNING, .reg .STITCH_STATUS_WAIT_EVENT, .reg .STITCH_STATUS_WAIT_TIME, .presented, .cses, .stitchers, .outs] m) (a1 :
    Quad) : Ends m s0 (execWaitt a1 s) := by
  unfold execWaitt
  try dsimp only
  repeat' first
    | with_reducible assumption
    | exact Within.trans (Eq.refl _) hw
    | (intro _)
    | with_reducible apply act_keeps
    | with_reducible apply runOp_keeps
    | with_reducible apply waittOp_keeps
    | with_reducible apply Ends.ite
    | with_reducible apply Ends.next
    | split

theorem waittResume_keeps (h : Keeps m s0 s) (hw : Within [.reg .STITCH_STATUS_CREDIT_WAIT, .reg .STITCH_STATUS_GANG_WAIT, .reg
    .STITCH_STATUS_WAIT_EVENT, .reg .STITCH_STATUS_WAIT_TIME, .stitchers] m) (a1 : Nat) : Keeps m s0 (waittResume a1 s) := by
  unfold waittResume
  try dsimp only
  repeat' first
    | with_reducible assumption
    | exact Within.trans (Eq.refl _) hw
    | (intro _)
    | with_reducible apply State.setStitcher_keeps
    | with_reducible apply endWait_keeps
    | with_reducible apply nextPc_keeps
    | split

theorem execWaittResume_keeps (h : Keeps m s0 s) (hw : Within [.reg .STITCH_STATUS_CREDIT_WAIT, .reg .STITCH_STATUS_GANG_WAIT, .reg
    .STITCH_STATUS_WAIT_EVENT, .reg .STITCH_STATUS_WAIT_TIME, .stitchers] m) (a1 : Quad) : Ends m s0 (execWaittResume a1 s) := by
  unfold execWaittResume
  try dsimp only
  repeat' first
    | with_reducible assumption
    | exact Within.trans (Eq.refl _) hw
    | (intro _)
    | with_reducible apply on_keeps
    | with_reducible apply act_keeps
    | with_reducible apply waittResume_keeps
    | with_reducible apply Ends.ite
    | with_reducible apply Ends.next
    | split

theorem waiteOp_keeps (h : Keeps m s0 s) (hw : Within [.reg .STITCH_EVIN_LATCHED_LATCHED, .reg .STITCH_STATUS_WAIT_EVENT, .reg
    .TACK_QLEVEL_FLUSH_BUSY, .cses, .stitchers, .queues, .staging] m) (a1 : Nat) (a2 : Nat) : Keeps m s0 (waiteOp a1 a2 s) := by
  unfold waiteOp
  try dsimp only
  repeat' first
    | with_reducible assumption
    | exact Within.trans (Eq.refl _) hw
    | with_reducible apply wr_keeps
    | with_reducible apply State.setStitcher_keeps
    | with_reducible apply flushMask_keeps
    | with_reducible apply nextPc_keeps
    | with_reducible apply Keeps.ite
    | split

theorem execWaite_keeps (h : Keeps m s0 s) (hw : Within [.reg .STITCH_EVIN_LATCHED_LATCHED, .reg .STITCH_STATUS_WAIT_EVENT, .reg
    .TACK_QLEVEL_FLUSH_BUSY, .cses, .stitchers, .queues, .staging] m) (a1 : Quad) : Ends m s0 (execWaite a1 s) := by
  unfold execWaite
  try dsimp only
  repeat' first
    | with_reducible assumption
    | exact Within.trans (Eq.refl _) hw
    | (intro _)
    | with_reducible apply act_keeps
    | with_reducible apply runOp_keeps
    | with_reducible apply waiteOp_keeps
    | with_reducible apply Ends.ite
    | with_reducible apply Ends.next
    | split

theorem waiteTimeout_keeps (h : Keeps m s0 s) (hw : Within [.reg .ERR_CODE_CODE, .reg .ERR_CODE_MASTER, .reg .ERR_CODE_OVF, .reg
    .ERR_CODE_WORD, .reg .ERR_CODE_WRITE, .reg .EVT_PEND_PEND, .reg .EVT_RAW_RAW, .reg .STITCH_FAULT_CAUSE, .reg .STITCH_FAULT_PC, .reg
    .STITCH_GANG_READY_READY, .reg .STITCH_STATUS_CREDIT_WAIT, .reg .STITCH_STATUS_FAULTED, .reg .STITCH_STATUS_GANG_WAIT, .reg
    .STITCH_STATUS_RUNNING, .reg .STITCH_STATUS_WAIT_EVENT, .reg .STITCH_STATUS_WAIT_TIME, .reg .TACK_QLEVEL_FLUSH_BUSY, .presented, .cses,
    .stitchers, .queues, .staging, .outs] m) (a1 : Nat) : Keeps m s0 (waiteTimeout a1 s) := by
  unfold waiteTimeout
  try dsimp only
  repeat' first
    | with_reducible assumption
    | exact Within.trans (Eq.refl _) hw
    | with_reducible apply endWait_keeps
    | with_reducible apply jump_keeps
    | with_reducible apply nextPc_keeps
    | with_reducible apply raise_keeps
    | with_reducible apply Keeps.ite
    | split

theorem execWaiteTimeout_keeps (h : Keeps m s0 s) (hw : Within [.reg .ERR_CODE_CODE, .reg .ERR_CODE_MASTER, .reg .ERR_CODE_OVF, .reg
    .ERR_CODE_WORD, .reg .ERR_CODE_WRITE, .reg .EVT_PEND_PEND, .reg .EVT_RAW_RAW, .reg .STITCH_FAULT_CAUSE, .reg .STITCH_FAULT_PC, .reg
    .STITCH_GANG_READY_READY, .reg .STITCH_STATUS_CREDIT_WAIT, .reg .STITCH_STATUS_FAULTED, .reg .STITCH_STATUS_GANG_WAIT, .reg
    .STITCH_STATUS_RUNNING, .reg .STITCH_STATUS_WAIT_EVENT, .reg .STITCH_STATUS_WAIT_TIME, .reg .TACK_QLEVEL_FLUSH_BUSY, .presented, .cses,
    .stitchers, .queues, .staging, .outs] m) (a1 : Quad) : Ends m s0 (execWaiteTimeout a1 s) := by
  unfold execWaiteTimeout
  try dsimp only
  repeat' first
    | with_reducible assumption
    | exact Within.trans (Eq.refl _) hw
    | (intro _)
    | with_reducible apply on_keeps
    | with_reducible apply act_keeps
    | with_reducible apply waiteTimeout_keeps
    | with_reducible apply Ends.ite
    | with_reducible apply Ends.next
    | split

theorem execEmit_keeps (h : Keeps m s0 s) (hw : Within [.presented, .stitchers] m) (a1 : Quad) : Ends m s0 (execEmit a1 s) := by
  unfold execEmit
  try dsimp only
  repeat' first
    | with_reducible assumption
    | exact Within.trans (Eq.refl _) hw
    | (intro _)
    | with_reducible apply act_keeps
    | with_reducible apply nextPc_keeps
    | with_reducible apply present_keeps
    | with_reducible apply runOp_keeps
    | with_reducible apply Ends.ite
    | with_reducible apply Ends.next
    | split

theorem writeLcGrant_keeps (h : Keeps m s0 s) (hw : Within [.reg .ERR_CODE_CODE, .reg .ERR_CODE_MASTER, .reg .ERR_CODE_OVF, .reg
    .ERR_CODE_WORD, .reg .ERR_CODE_WRITE, .reg .STITCH_LC_GRANT] m) (a1 : Nat) (a2 : Nat) (a3 : Nat) (a4 : Nat) : Keeps m s0 (writeLcGrant
    a1 a2 a3 a4 s) := by
  unfold writeLcGrant
  try dsimp only
  repeat' first
    | with_reducible assumption
    | exact Within.trans (Eq.refl _) hw
    | (intro _)
    | with_reducible apply wr_keeps
    | with_reducible apply each_keeps
    | with_reducible apply on_keeps
    | with_reducible apply recordErr_keeps
    | with_reducible apply Keeps.ite
    | split

theorem execLcGrantWrite_keeps (h : Keeps m s0 s) (hw : Within [.reg .ERR_CODE_CODE, .reg .ERR_CODE_MASTER, .reg .ERR_CODE_OVF, .reg
    .ERR_CODE_WORD, .reg .ERR_CODE_WRITE, .reg .POWER_STATUS_ENTERING, .reg .POWER_STATUS_EXITING, .reg .POWER_WAKE_STAT_CLASS, .reg
    .POWER_WAKE_STAT_FROM, .reg .STITCH_LC_GRANT, .pwr] m) (a1 : Master) (a2 : Quad) (a3 : Fin 2) (a4 : Word) : Ends m s0 (execLcGrantWrite
    a1 a2 a3 a4 s) := by
  unfold execLcGrantWrite
  try dsimp only
  repeat' first
    | with_reducible assumption
    | exact Within.trans (Eq.refl _) hw
    | (intro _)
    | with_reducible apply cmd_keeps
    | with_reducible apply writeLcGrant_keeps
    | with_reducible apply Ends.ite
    | with_reducible apply Ends.next
    | split

theorem clearLatches_keeps (h : Keeps m s0 s) (hw : Within [.reg .STITCH_EVIN_LATCHED_LATCHED] m) (a1 : Nat) (a2 : Nat) : Keeps m s0
    (clearLatches a1 a2 s) := by
  unfold clearLatches
  try dsimp only
  repeat' first
    | with_reducible assumption
    | exact Within.trans (Eq.refl _) hw
    | (intro _)
    | with_reducible apply wr_keeps
    | with_reducible apply each_keeps
    | with_reducible apply on_keeps

theorem execEvinLatchClear_keeps (h : Keeps m s0 s) (hw : Within [.reg .ERR_CODE_CODE, .reg .ERR_CODE_MASTER, .reg .ERR_CODE_OVF, .reg
    .ERR_CODE_WORD, .reg .ERR_CODE_WRITE, .reg .POWER_STATUS_ENTERING, .reg .POWER_STATUS_EXITING, .reg .POWER_WAKE_STAT_CLASS, .reg
    .POWER_WAKE_STAT_FROM, .reg .STITCH_EVIN_LATCHED_LATCHED, .pwr] m) (a1 : Master) (a2 : Quad) (a3 : Word) : Ends m s0 (execEvinLatchClear
    a1 a2 a3 s) := by
  unfold execEvinLatchClear
  try dsimp only
  repeat' first
    | with_reducible assumption
    | exact Within.trans (Eq.refl _) hw
    | (intro _)
    | with_reducible apply clearLatches_keeps
    | with_reducible apply cmd_keeps
    | with_reducible apply Ends.ite
    | with_reducible apply Ends.next
    | split

theorem writeMcCtrl_keeps (h : Keeps m s0 s) (hw : Within [.reg .ERR_CODE_CODE, .reg .ERR_CODE_MASTER, .reg .ERR_CODE_OVF, .reg
    .ERR_CODE_WORD, .reg .ERR_CODE_WRITE, .reg .STITCH_STATUS_MC_PENDING, .stitchers] m) (a1 : Nat) (a2 : Nat) (a3 : Nat) : Keeps m s0
    (writeMcCtrl a1 a2 a3 s) := by
  unfold writeMcCtrl
  try dsimp only
  repeat' first
    | with_reducible assumption
    | exact Within.trans (Eq.refl _) hw
    | with_reducible apply wr_keeps
    | with_reducible apply State.setStitcher_keeps
    | with_reducible apply recordErr_keeps
    | with_reducible apply Keeps.ite
    | split

theorem execMcSwitchReq_keeps (h : Keeps m s0 s) (hw : Within [.reg .ERR_CODE_CODE, .reg .ERR_CODE_MASTER, .reg .ERR_CODE_OVF, .reg
    .ERR_CODE_WORD, .reg .ERR_CODE_WRITE, .reg .POWER_STATUS_ENTERING, .reg .POWER_STATUS_EXITING, .reg .POWER_WAKE_STAT_CLASS, .reg
    .POWER_WAKE_STAT_FROM, .reg .STITCH_STATUS_MC_PENDING, .stitchers, .pwr] m) (a1 : Master) (a2 : Quad) : Ends m s0 (execMcSwitchReq a1 a2
    s) := by
  unfold execMcSwitchReq
  try dsimp only
  repeat' first
    | with_reducible assumption
    | exact Within.trans (Eq.refl _) hw
    | (intro _)
    | with_reducible apply cmd_keeps
    | with_reducible apply writeMcCtrl_keeps
    | with_reducible apply Ends.ite
    | with_reducible apply Ends.next
    | split

theorem mcSwitch_keeps (h : Keeps m s0 s) (hw : Within [.reg .EVT_PEND_PEND, .reg .EVT_RAW_RAW, .reg .STITCH_MC_VER_ACTIVE, .reg
    .STITCH_MC_VER_INACTIVE, .reg .STITCH_STATUS_MC_BANK, .reg .STITCH_STATUS_MC_PENDING, .presented, .stitchers] m) (a1 : Nat) : Keeps m s0
    (mcSwitch a1 s) := by
  unfold mcSwitch
  try dsimp only
  repeat' first
    | with_reducible assumption
    | exact Within.trans (Eq.refl _) hw
    | with_reducible apply wr_keeps
    | with_reducible apply State.setStitcher_keeps
    | with_reducible apply raise_keeps

theorem execMcSwitch_keeps (h : Keeps m s0 s) (hw : Within [.reg .EVT_PEND_PEND, .reg .EVT_RAW_RAW, .reg .STITCH_MC_VER_ACTIVE, .reg
    .STITCH_MC_VER_INACTIVE, .reg .STITCH_STATUS_MC_BANK, .reg .STITCH_STATUS_MC_PENDING, .presented, .stitchers] m) (a1 : Quad) : Ends m s0
    (execMcSwitch a1 s) := by
  unfold execMcSwitch
  try dsimp only
  repeat' first
    | with_reducible assumption
    | exact Within.trans (Eq.refl _) hw
    | (intro _)
    | with_reducible apply on_keeps
    | with_reducible apply act_keeps
    | with_reducible apply mcSwitch_keeps
    | with_reducible apply Ends.ite
    | with_reducible apply Ends.next
    | split

end Sys2Proof.Machine
end

