-- ==== Sys2Proof/Laws/TimebaseKeeps.lean ====
section
/-! SUPPORT. What the operations of Machine/Timebase.lean keep: the queue, the invariant, and every part outside their footprint. -/

set_option maxRecDepth 4000
set_option linter.unusedTactic false
set_option linter.unreachableTactic false

namespace Sys2Proof.Machine

variable {m : Nat} {s0 s : State}

theorem enterHoldover_keeps (h : Keeps m s0 s) (hw : Within [.reg .EVT_PEND_PEND, .reg .EVT_RAW_RAW, .reg .TBASE_TB_STATUS_HOLDOVER,
    .reg .TBASE_TB_STATUS_PLL_LOCKED, .reg .TBASE_TB_STATUS_REF_PRESENT, .reg .TBASE_TB_STATUS_SLEWING, .presented] m)  : Keeps m s0
    (enterHoldover s) := by
  unfold enterHoldover
  try dsimp only
  repeat' first
    | with_reducible assumption
    | exact Within.trans (Eq.refl _) hw
    | with_reducible apply wr_keeps
    | with_reducible apply raise_keeps

theorem checkArmedSource_keeps (h : Keeps m s0 s) (hw : Within [.reg .ERR_CODE_CODE, .reg .ERR_CODE_MASTER, .reg .ERR_CODE_OVF, .reg
    .ERR_CODE_WORD, .reg .ERR_CODE_WRITE, .reg .TBASE_TB_STATUS_EPOCH_ARMED] m) (a1 : Nat) : Keeps m s0 (checkArmedSource a1 s) := by
  unfold checkArmedSource
  try dsimp only
  repeat' first
    | with_reducible assumption
    | exact Within.trans (Eq.refl _) hw
    | with_reducible apply wr_keeps
    | with_reducible apply actionErr_keeps
    | with_reducible apply Keeps.ite
    | split

theorem refArrives_keeps (h : Keeps m s0 s) (hw : Within [.reg .EVT_PEND_PEND, .reg .EVT_RAW_RAW, .reg .TBASE_TB_STATUS_REF_PRESENT,
    .presented] m)  : Keeps m s0 (refArrives s) := by
  unfold refArrives
  try dsimp only
  repeat' first
    | with_reducible assumption
    | exact Within.trans (Eq.refl _) hw
    | with_reducible apply wr_keeps
    | with_reducible apply raise_keeps

theorem writeRefMode_keeps (h : Keeps m s0 s) (hw : Within [.reg .ERR_CODE_CODE, .reg .ERR_CODE_MASTER, .reg .ERR_CODE_OVF, .reg
    .ERR_CODE_WORD, .reg .ERR_CODE_WRITE, .reg .EVT_PEND_PEND, .reg .EVT_RAW_RAW, .reg .TBASE_TB_CFG_REF_MODE, .reg
    .TBASE_TB_STATUS_EPOCH_ARMED, .reg .TBASE_TB_STATUS_HOLDOVER, .reg .TBASE_TB_STATUS_PLL_LOCKED, .reg .TBASE_TB_STATUS_REF_PRESENT, .reg
    .TBASE_TB_STATUS_SLEWING, .presented] m) (a1 : Nat) (a2 : Nat) : Keeps m s0 (writeRefMode a1 a2 s) := by
  unfold writeRefMode
  try dsimp only
  repeat' first
    | with_reducible assumption
    | exact Within.trans (Eq.refl _) hw
    | with_reducible apply wr_keeps
    | with_reducible apply checkArmedSource_keeps
    | with_reducible apply enterHoldover_keeps
    | with_reducible apply refArrives_keeps
    | with_reducible apply Keeps.ite
    | split

theorem execRefModeWrite_keeps (h : Keeps m s0 s) (hw : Within [.reg .ERR_CODE_CODE, .reg .ERR_CODE_MASTER, .reg .ERR_CODE_OVF, .reg
    .ERR_CODE_WORD, .reg .ERR_CODE_WRITE, .reg .EVT_PEND_PEND, .reg .EVT_RAW_RAW, .reg .POWER_STATUS_ENTERING, .reg .POWER_STATUS_EXITING,
    .reg .POWER_WAKE_STAT_CLASS, .reg .POWER_WAKE_STAT_FROM, .reg .TBASE_TB_CFG_REF_MODE, .reg .TBASE_TB_STATUS_EPOCH_ARMED, .reg
    .TBASE_TB_STATUS_HOLDOVER, .reg .TBASE_TB_STATUS_PLL_LOCKED, .reg .TBASE_TB_STATUS_REF_PRESENT, .reg .TBASE_TB_STATUS_SLEWING,
    .presented, .pwr] m) (a1 : Master) (a2 : Fin 4) : Ends m s0 (execRefModeWrite a1 a2 s) := by
  unfold execRefModeWrite
  try dsimp only
  repeat' first
    | with_reducible assumption
    | exact Within.trans (Eq.refl _) hw
    | (intro _)
    | with_reducible apply cmd_keeps
    | with_reducible apply writeRefMode_keeps
    | with_reducible apply Ends.ite
    | with_reducible apply Ends.next
    | split

theorem execHoldResyncClear_keeps (h : Keeps m s0 s) (hw : Within [.reg .ERR_CODE_CODE, .reg .ERR_CODE_MASTER, .reg .ERR_CODE_OVF, .reg
    .ERR_CODE_WORD, .reg .ERR_CODE_WRITE, .reg .POWER_STATUS_ENTERING, .reg .POWER_STATUS_EXITING, .reg .POWER_WAKE_STAT_CLASS, .reg
    .POWER_WAKE_STAT_FROM, .reg .TBASE_TB_CFG_HOLD_RESYNC, .pwr] m) (a1 : Master) : Ends m s0 (execHoldResyncClear a1 s) := by
  unfold execHoldResyncClear
  try dsimp only
  repeat' first
    | with_reducible assumption
    | exact Within.trans (Eq.refl _) hw
    | (intro _)
    | with_reducible apply wr_keeps
    | with_reducible apply cmd_keeps
    | with_reducible apply Ends.ite
    | with_reducible apply Ends.next
    | split

theorem writeTallyEn_keeps (h : Keeps m s0 s) (hw : Within [.reg .TBASE_TB_CFG_TALLY_EN, .reg .TBASE_TB_STATUS_TALLY_SYNC] m) (a1 : Nat)
    : Keeps m s0 (writeTallyEn a1 s) := by
  unfold writeTallyEn
  try dsimp only
  repeat' first
    | with_reducible assumption
    | exact Within.trans (Eq.refl _) hw
    | with_reducible apply wr_keeps
    | with_reducible apply Keeps.ite
    | split

theorem execTallyEnWrite_keeps (h : Keeps m s0 s) (hw : Within [.reg .ERR_CODE_CODE, .reg .ERR_CODE_MASTER, .reg .ERR_CODE_OVF, .reg
    .ERR_CODE_WORD, .reg .ERR_CODE_WRITE, .reg .POWER_STATUS_ENTERING, .reg .POWER_STATUS_EXITING, .reg .POWER_WAKE_STAT_CLASS, .reg
    .POWER_WAKE_STAT_FROM, .reg .TBASE_TB_CFG_TALLY_EN, .reg .TBASE_TB_STATUS_TALLY_SYNC, .pwr] m) (a1 : Master) (a2 : Bool) : Ends m s0
    (execTallyEnWrite a1 a2 s) := by
  unfold execTallyEnWrite
  try dsimp only
  repeat' first
    | with_reducible assumption
    | exact Within.trans (Eq.refl _) hw
    | (intro _)
    | with_reducible apply cmd_keeps
    | with_reducible apply writeTallyEn_keeps
    | with_reducible apply Keeps.ite
    | with_reducible apply Ends.ite
    | with_reducible apply Ends.next
    | split

theorem execRefLost_keeps (h : Keeps m s0 s) (hw : Within [.reg .EVT_PEND_PEND, .reg .EVT_RAW_RAW, .reg .TBASE_TB_STATUS_HOLDOVER, .reg
    .TBASE_TB_STATUS_PLL_LOCKED, .reg .TBASE_TB_STATUS_REF_PRESENT, .reg .TBASE_TB_STATUS_SLEWING, .presented] m)  : Ends m s0 (execRefLost
    s) := by
  unfold execRefLost
  try dsimp only
  repeat' first
    | with_reducible assumption
    | exact Within.trans (Eq.refl _) hw
    | (intro _)
    | with_reducible apply on_keeps
    | with_reducible apply act_keeps
    | with_reducible apply enterHoldover_keeps
    | with_reducible apply Ends.ite
    | with_reducible apply Ends.next
    | split

theorem execPllRelocked_keeps (h : Keeps m s0 s) (hw : Within [.reg .TBASE_TB_STATUS_HOLDOVER, .reg .TBASE_TB_STATUS_PLL_LOCKED, .reg
    .TBASE_TB_STATUS_SLEWING] m)  : Ends m s0 (execPllRelocked s) := by
  unfold execPllRelocked
  try dsimp only
  repeat' first
    | with_reducible assumption
    | exact Within.trans (Eq.refl _) hw
    | (intro _)
    | with_reducible apply wr_keeps
    | with_reducible apply on_keeps
    | with_reducible apply act_keeps
    | with_reducible apply Ends.ite
    | with_reducible apply Ends.next
    | split

theorem execSlewDone_keeps (h : Keeps m s0 s) (hw : Within [.reg .EVT_PEND_PEND, .reg .EVT_RAW_RAW, .reg .TBASE_TB_STATUS_PHASE_ERR,
    .reg .TBASE_TB_STATUS_SLEWING, .presented] m)  : Ends m s0 (execSlewDone s) := by
  unfold execSlewDone
  try dsimp only
  repeat' first
    | with_reducible assumption
    | exact Within.trans (Eq.refl _) hw
    | (intro _)
    | with_reducible apply wr_keeps
    | with_reducible apply on_keeps
    | with_reducible apply act_keeps
    | with_reducible apply raise_keeps
    | with_reducible apply Ends.ite
    | with_reducible apply Ends.next
    | split

theorem execPllUnlock_keeps (h : Keeps m s0 s) (hw : Within [.reg .EVT_PEND_PEND, .reg .EVT_RAW_RAW, .reg .TBASE_TB_STATUS_PLL_LOCKED,
    .presented] m)  : Ends m s0 (execPllUnlock s) := by
  unfold execPllUnlock
  try dsimp only
  repeat' first
    | with_reducible assumption
    | exact Within.trans (Eq.refl _) hw
    | (intro _)
    | with_reducible apply wr_keeps
    | with_reducible apply on_keeps
    | with_reducible apply act_keeps
    | with_reducible apply raise_keeps
    | with_reducible apply Ends.ite
    | with_reducible apply Ends.next
    | split

theorem epochArm_keeps (h : Keeps m s0 s) (hw : Within [.reg .ERR_CODE_CODE, .reg .ERR_CODE_MASTER, .reg .ERR_CODE_OVF, .reg
    .ERR_CODE_WORD, .reg .ERR_CODE_WRITE, .reg .TBASE_TB_STATUS_EPOCH_ARMED, .epoch] m) (a1 : Nat) : Keeps m s0 (epochArm a1 s) := by
  unfold epochArm
  try dsimp only
  repeat' first
    | with_reducible assumption
    | exact Within.trans (Eq.refl _) hw
    | with_reducible apply wr_keeps
    | with_reducible apply actionErr_keeps
    | with_reducible apply Keeps.ite
    | split
    | (with_reducible apply Keeps.of_fields <;>
        first | with_reducible exact rfl | with_reducible exact Or.inl rfl | exact Or.inr (Within.trans (Eq.refl _) hw) | skip)

theorem execEpochArm_keeps (h : Keeps m s0 s) (hw : Within [.reg .ERR_CODE_CODE, .reg .ERR_CODE_MASTER, .reg .ERR_CODE_OVF, .reg
    .ERR_CODE_WORD, .reg .ERR_CODE_WRITE, .reg .POWER_STATUS_ENTERING, .reg .POWER_STATUS_EXITING, .reg .POWER_WAKE_STAT_CLASS, .reg
    .POWER_WAKE_STAT_FROM, .reg .TBASE_TB_STATUS_EPOCH_ARMED, .epoch, .pwr] m) (a1 : Master) : Ends m s0 (execEpochArm a1 s) := by
  unfold execEpochArm
  try dsimp only
  repeat' first
    | with_reducible assumption
    | exact Within.trans (Eq.refl _) hw
    | (intro _)
    | with_reducible apply cmd_keeps
    | with_reducible apply epochArm_keeps
    | with_reducible apply Ends.ite
    | with_reducible apply Ends.next
    | split

theorem execEpochCancel_keeps (h : Keeps m s0 s) (hw : Within [.reg .ERR_CODE_CODE, .reg .ERR_CODE_MASTER, .reg .ERR_CODE_OVF, .reg
    .ERR_CODE_WORD, .reg .ERR_CODE_WRITE, .reg .POWER_STATUS_ENTERING, .reg .POWER_STATUS_EXITING, .reg .POWER_WAKE_STAT_CLASS, .reg
    .POWER_WAKE_STAT_FROM, .reg .TBASE_TB_STATUS_EPOCH_ARMED, .pwr] m) (a1 : Master) : Ends m s0 (execEpochCancel a1 s) := by
  unfold execEpochCancel
  try dsimp only
  repeat' first
    | with_reducible assumption
    | exact Within.trans (Eq.refl _) hw
    | (intro _)
    | with_reducible apply wr_keeps
    | with_reducible apply cmd_keeps
    | with_reducible apply Ends.ite
    | with_reducible apply Ends.next
    | split

theorem execTallySyncAcquire_keeps (h : Keeps m s0 s) (hw : Within [.reg .TBASE_TB_STATUS_TALLY_SYNC] m)  : Ends m s0
    (execTallySyncAcquire s) := by
  unfold execTallySyncAcquire
  try dsimp only
  repeat' first
    | with_reducible assumption
    | exact Within.trans (Eq.refl _) hw
    | (intro _)
    | with_reducible apply wr_keeps
    | with_reducible apply on_keeps
    | with_reducible apply act_keeps
    | with_reducible apply Ends.ite
    | with_reducible apply Ends.next
    | split

theorem execTallyLos_keeps (h : Keeps m s0 s) (hw : Within [.reg .EVT_PEND_PEND, .reg .EVT_RAW_RAW, .reg .TBASE_TB_STATUS_TALLY_SYNC,
    .presented] m)  : Ends m s0 (execTallyLos s) := by
  unfold execTallyLos
  try dsimp only
  repeat' first
    | with_reducible assumption
    | exact Within.trans (Eq.refl _) hw
    | (intro _)
    | with_reducible apply wr_keeps
    | with_reducible apply on_keeps
    | with_reducible apply act_keeps
    | with_reducible apply raise_keeps
    | with_reducible apply Ends.ite
    | with_reducible apply Ends.next
    | split

end Sys2Proof.Machine
end

