-- ==== Sys2Proof/Laws/ComparatorsKeeps.lean ====
section
/-! SUPPORT. What the operations of Machine/Comparators.lean keep: the queue, the invariant, and every part outside their footprint. -/

set_option maxRecDepth 4000
set_option linter.unusedTactic false
set_option linter.unreachableTactic false

namespace Sys2Proof.Machine

variable {m : Nat} {s0 s : State}

theorem alignQuad_keeps (h : Keeps m s0 s) (hw : Within [.reg .EVT_PEND_PEND, .reg .EVT_RAW_RAW, .reg .QCLK_ORIGIN_FRAC_FRAC, .reg
    .QCLK_ORIGIN_HI_ORIGIN_HI, .reg .QCLK_ORIGIN_LO_ORIGIN_LO, .reg .QCLK_QCLK_CFG_ALIGN_ARM, .reg .QCLK_QCLK_STATUS_ALIGNED, .reg
    .QCLK_QCLK_STATUS_LOCKED, .reg .QCLK_QCLK_STATUS_READY, .eff, .presented, .clocks, .wheels, .cses, .outs] m) (a1 : Nat) (a2 : Instant) :
    Keeps m s0 (alignQuad a1 a2 s) := by
  unfold alignQuad
  try dsimp only
  repeat' first
    | with_reducible assumption
    | exact Within.trans (Eq.refl _) hw
    | with_reducible apply wr_keeps
    | with_reducible apply State.setClock_keeps
    | with_reducible apply raise_keeps
    | with_reducible apply restartSamples_keeps
    | with_reducible apply setOrigin_keeps
    | with_reducible apply spareFollows_keeps

theorem alignGstb_keeps (h : Keeps m s0 s) (hw : Within [.reg .TBASE_GSTB_CFG_ALIGNED, .reg .TBASE_GSTB_CFG_ALIGN_ARM, .gstbs] m) (a1 :
    Nat) (a2 : Instant) : Keeps m s0 (alignGstb a1 a2 s) := by
  unfold alignGstb
  try dsimp only
  repeat' first
    | with_reducible assumption
    | exact Within.trans (Eq.refl _) hw
    | with_reducible apply wr_keeps
    | with_reducible apply State.setGstb_keeps

theorem singleTime_keeps (h : Keeps m s0 s) (hw : Within [.reg .TBASE_GSTB_STAT_PENDING, .gstbs] m) (a1 : Nat) (a2 : Instant) : Keeps m
    s0 (singleTime a1 a2 s) := by
  unfold singleTime
  try dsimp only
  repeat' first
    | with_reducible assumption
    | exact Within.trans (Eq.refl _) hw
    | with_reducible apply wr_keeps
    | with_reducible apply State.setGstb_keeps
    | with_reducible apply Keeps.ite
    | split

theorem markLate_keeps (h : Keeps m s0 s) (hw : Within [.reg .EVT_PEND_PEND, .reg .EVT_RAW_RAW, .reg .TBASE_LC_LATE, .presented] m) (a1
    : Nat) : Keeps m s0 (markLate a1 s) := by
  unfold markLate
  try dsimp only
  repeat' first
    | with_reducible assumption
    | exact Within.trans (Eq.refl _) hw
    | with_reducible apply wr_keeps
    | with_reducible apply raise_keeps

theorem putTime_keeps (h : Keeps m s0 s) (hw : Within [.reg .EVT_PEND_PEND, .reg .EVT_RAW_RAW, .reg .TBASE_LC_CTRL_ARM, .reg
    .TBASE_LC_LATE, .presented, .lcs, .lcGen] m) (a1 : Nat) (a2 : Nat) (a3 : Nat) : Keeps m s0 (putTime a1 a2 a3 s) := by
  unfold putTime
  try dsimp only
  repeat' first
    | with_reducible assumption
    | exact Within.trans (Eq.refl _) hw
    | with_reducible apply wr_keeps
    | with_reducible apply State.setLc_keeps
    | with_reducible apply markLate_keeps
    | with_reducible apply Keeps.ite
    | split
    | (with_reducible apply Keeps.of_fields <;>
        first | with_reducible exact rfl | with_reducible exact Or.inl rfl | exact Or.inr (Within.trans (Eq.refl _) hw) | skip)

theorem armTime_keeps (h : Keeps m s0 s) (hw : Within [.reg .EVT_PEND_PEND, .reg .EVT_RAW_RAW, .reg .TBASE_LC_CTRL_ARM, .reg
    .TBASE_LC_LATE, .presented, .lcs, .lcGen] m) (a1 : Nat) (a2 : Nat) (a3 : Nat) : Keeps m s0 (armTime a1 a2 a3 s) := by
  unfold armTime
  try dsimp only
  repeat' first
    | with_reducible assumption
    | exact Within.trans (Eq.refl _) hw
    | with_reducible apply State.setLc_keeps
    | with_reducible apply putTime_keeps
    | with_reducible apply Keeps.ite
    | split

theorem disarm_keeps (h : Keeps m s0 s) (hw : Within [.reg .TBASE_LC_CTRL_ARM, .lcs] m) (a1 : Nat) : Keeps m s0 (disarm a1 s) := by
  unfold disarm
  try dsimp only
  repeat' first
    | with_reducible assumption
    | exact Within.trans (Eq.refl _) hw
    | with_reducible apply wr_keeps
    | with_reducible apply State.setLc_keeps
    | with_reducible apply Keeps.ite
    | split

theorem fireCommits_keeps (h : Keeps m s0 s) (hw : Within [.cap, .commits] m) (a1 : Nat) (a2 : Instant) (a3 : Bool) : Keeps m s0
    (fireCommits a1 a2 a3 s) := by
  unfold fireCommits
  try dsimp only
  repeat' first
    | with_reducible assumption
    | exact Within.trans (Eq.refl _) hw
    | (intro _)
    | with_reducible apply each_keeps
    | with_reducible apply capturePage_keeps
    | with_reducible apply Keeps.ite
    | split
    | (with_reducible apply Keeps.of_fields <;>
        first | with_reducible exact rfl | with_reducible exact Or.inl rfl | exact Or.inr (Within.trans (Eq.refl _) hw) | skip)

theorem afterFire_keeps (h : Keeps m s0 s) (hw : Within [.reg .EVT_PEND_PEND, .reg .EVT_RAW_RAW, .reg .TBASE_LC_CTRL_ARM, .reg
    .TBASE_LC_LATE, .presented, .lcs, .lcGen] m) (a1 : Nat) : Keeps m s0 (afterFire a1 s) := by
  unfold afterFire
  try dsimp only
  repeat' first
    | with_reducible assumption
    | exact Within.trans (Eq.refl _) hw
    | with_reducible apply wr_keeps
    | with_reducible apply State.setLc_keeps
    | with_reducible apply markLate_keeps
    | with_reducible apply putTime_keeps
    | with_reducible apply Keeps.ite
    | split
    | exact Nat.mod_lt _ (Nat.two_pow_pos 64)
    | (with_reducible apply Keeps.of_fields <;>
        first | with_reducible exact rfl | with_reducible exact Or.inl rfl | exact Or.inr (Within.trans (Eq.refl _) hw) | skip)

theorem fire_keeps (h : Keeps m s0 s) (hw : Within [.reg .BURNISH_CAP_DONE_COUNT, .reg .BURNISH_STATUS_CAPTURING, .reg
    .BURNISH_STATUS_ROTATING, .reg .EVT_PEND_PEND, .reg .EVT_RAW_RAW, .reg .QCLK_ORIGIN_FRAC_FRAC, .reg .QCLK_ORIGIN_HI_ORIGIN_HI, .reg
    .QCLK_ORIGIN_LO_ORIGIN_LO, .reg .QCLK_QCLK_CFG_ALIGN_ARM, .reg .QCLK_QCLK_STATUS_ALIGNED, .reg .QCLK_QCLK_STATUS_LOCKED, .reg
    .QCLK_QCLK_STATUS_READY, .reg .SPARE_ELEM_TRIM_E, .reg .SPARE_GO_TRIM_GAIN, .reg .SPARE_GO_TRIM_OFFSET, .reg .SPARE_LADDER_TRIM_L, .reg
    .SPARE_STATUS_PHASE, .reg .SPARE_STATUS_VISIT_POS, .reg .TBASE_GSTB_CFG_ALIGNED, .reg .TBASE_GSTB_CFG_ALIGN_ARM, .reg
    .TBASE_GSTB_STAT_PENDING, .reg .TBASE_LC_CTRL_ARM, .reg .TBASE_LC_LATE, .eff, .cap, .presented, .commits, .lcs, .lcGen, .clocks, .gstbs,
    .wheels, .cses, .outs, .qry, .tiers] m) (a1 : Nat) : Keeps m s0 (fire a1 s) := by
  unfold fire
  try dsimp only
  repeat' first
    | with_reducible assumption
    | exact Within.trans (Eq.refl _) hw
    | (intro _)
    | with_reducible apply each_keeps
    | with_reducible apply afterFire_keeps
    | with_reducible apply alignGstb_keeps
    | with_reducible apply alignQuad_keeps
    | with_reducible apply fireCommits_keeps
    | with_reducible apply present_keeps
    | with_reducible apply singleTime_keeps
    | with_reducible apply startCapture_keeps
    | with_reducible apply Keeps.ite
    | split
    | (with_reducible apply Keeps.of_fields <;>
        first | with_reducible exact rfl | with_reducible exact Or.inl rfl | exact Or.inr (Within.trans (Eq.refl _) hw) | skip)

theorem execLcFire_keeps (h : Keeps m s0 s) (hw : Within [.reg .BURNISH_CAP_DONE_COUNT, .reg .BURNISH_STATUS_CAPTURING, .reg
    .BURNISH_STATUS_ROTATING, .reg .EVT_PEND_PEND, .reg .EVT_RAW_RAW, .reg .QCLK_ORIGIN_FRAC_FRAC, .reg .QCLK_ORIGIN_HI_ORIGIN_HI, .reg
    .QCLK_ORIGIN_LO_ORIGIN_LO, .reg .QCLK_QCLK_CFG_ALIGN_ARM, .reg .QCLK_QCLK_STATUS_ALIGNED, .reg .QCLK_QCLK_STATUS_LOCKED, .reg
    .QCLK_QCLK_STATUS_READY, .reg .SPARE_ELEM_TRIM_E, .reg .SPARE_GO_TRIM_GAIN, .reg .SPARE_GO_TRIM_OFFSET, .reg .SPARE_LADDER_TRIM_L, .reg
    .SPARE_STATUS_PHASE, .reg .SPARE_STATUS_VISIT_POS, .reg .TBASE_GSTB_CFG_ALIGNED, .reg .TBASE_GSTB_CFG_ALIGN_ARM, .reg
    .TBASE_GSTB_STAT_PENDING, .reg .TBASE_LC_CTRL_ARM, .reg .TBASE_LC_LATE, .eff, .cap, .presented, .commits, .lcs, .lcGen, .clocks, .gstbs,
    .wheels, .cses, .outs, .qry, .tiers] m) (a1 : Lc) : Ends m s0 (execLcFire a1 s) := by
  unfold execLcFire
  try dsimp only
  repeat' first
    | with_reducible assumption
    | exact Within.trans (Eq.refl _) hw
    | (intro _)
    | with_reducible apply on_keeps
    | with_reducible apply act_keeps
    | with_reducible apply fire_keeps
    | with_reducible apply Ends.ite
    | with_reducible apply Ends.next
    | split

theorem alignReleased_keeps (h : Keeps m s0 s) (hw : Within [.reg .QCLK_QCLK_CFG_ALIGN_ARM] m) (a1 : Nat) (a2 : Nat) : Keeps m s0
    (alignReleased a1 a2 s) := by
  unfold alignReleased
  try dsimp only
  repeat' first
    | with_reducible assumption
    | exact Within.trans (Eq.refl _) hw
    | with_reducible apply wr_keeps
    | with_reducible apply Keeps.ite
    | split

theorem voidSlots_keeps (h : Keeps m s0 s) (hw : Within [.lines] m) (a1 : Nat) : Keeps m s0 (voidSlots a1 s) := by
  unfold voidSlots
  try dsimp only
  repeat' first
    | with_reducible assumption
    | exact Within.trans (Eq.refl _) hw
    | (intro _)
    | with_reducible apply each_keeps
    | with_reducible apply State.setLine_keeps
    | split

theorem releaseQuads_keeps (h : Keeps m s0 s) (hw : Within [.reg .ERR_CODE_CODE, .reg .ERR_CODE_MASTER, .reg .ERR_CODE_OVF, .reg
    .ERR_CODE_WORD, .reg .ERR_CODE_WRITE, .reg .EVT_PEND_PEND, .reg .EVT_RAW_RAW, .reg .QCLK_QCLK_CFG_ALIGN_ARM, .reg .STITCH_FAULT_CAUSE,
    .reg .STITCH_FAULT_PC, .reg .STITCH_GANG_READY_READY, .reg .STITCH_LC_GRANT, .reg .STITCH_STATUS_CREDIT_WAIT, .reg
    .STITCH_STATUS_FAULTED, .reg .STITCH_STATUS_GANG_WAIT, .reg .STITCH_STATUS_RUNNING, .reg .STITCH_STATUS_WAIT_EVENT, .reg
    .STITCH_STATUS_WAIT_TIME, .reg .TBASE_GSTB_CFG_ALIGN_ARM, .reg .TBASE_GSTB_STAT_PENDING, .presented, .gstbs, .cses, .stitchers, .outs]
    m) (a1 : Nat) : Keeps m s0 (releaseQuads a1 s) := by
  unfold releaseQuads
  try dsimp only
  repeat' first
    | with_reducible assumption
    | exact Within.trans (Eq.refl _) hw
    | (intro _)
    | with_reducible apply wr_keeps
    | with_reducible apply each_keeps
    | with_reducible apply State.setGstb_keeps
    | with_reducible apply alignReleased_keeps
    | with_reducible apply stitchFault_keeps
    | with_reducible apply Keeps.ite
    | split

theorem releaseUsers_keeps (h : Keeps m s0 s) (hw : Within [.reg .BURNISH_CAP_CTRL_BUSY, .reg .BURNISH_CAP_CTRL_REFUSED, .reg
    .ERR_CODE_CODE, .reg .ERR_CODE_MASTER, .reg .ERR_CODE_OVF, .reg .ERR_CODE_WORD, .reg .ERR_CODE_WRITE, .reg .QUARRY_STATUS_OP_PENDING,
    .reg .SHADOW_CMD_PENDING, .reg .SHADOW_CMD_REFUSED, .commits, .qry, .tiers] m) (a1 : Nat) (a2 : Nat) : Keeps m s0 (releaseUsers a1 a2 s)
    := by
  unfold releaseUsers
  extract_lets q s1 s2 gone s3
  have k_s1 : Keeps m s0 s1 := by
    dsimp only [s1]
    repeat' first
      | with_reducible assumption
      | exact Within.trans (Eq.refl _) hw
      | (intro _)
      | with_reducible apply wr_keeps
      | with_reducible apply each_keeps
      | with_reducible apply State.setTier_keeps
      | with_reducible apply actionErr_keeps
      | with_reducible apply Keeps.ite
      | split
      | (with_reducible apply Keeps.of_fields <;>
          first | with_reducible exact rfl | with_reducible exact Or.inl rfl | exact Or.inr (Within.trans (Eq.refl _) hw) | skip)
  clear_value s1
  have k_s2 : Keeps m s0 s2 := by
    dsimp only [s2]
    repeat' first
      | with_reducible assumption
      | exact Within.trans (Eq.refl _) hw
      | (intro _)
      | with_reducible apply wr_keeps
      | with_reducible apply each_keeps
      | with_reducible apply State.setTier_keeps
      | with_reducible apply actionErr_keeps
      | with_reducible apply Keeps.ite
      | split
      | (with_reducible apply Keeps.of_fields <;>
          first | with_reducible exact rfl | with_reducible exact Or.inl rfl | exact Or.inr (Within.trans (Eq.refl _) hw) | skip)
  clear_value s2
  have k_s3 : Keeps m s0 s3 := by
    dsimp only [s3]
    repeat' first
      | with_reducible assumption
      | exact Within.trans (Eq.refl _) hw
      | (intro _)
      | with_reducible apply wr_keeps
      | with_reducible apply each_keeps
      | with_reducible apply State.setTier_keeps
      | with_reducible apply actionErr_keeps
      | with_reducible apply Keeps.ite
      | split
      | (with_reducible apply Keeps.of_fields <;>
          first | with_reducible exact rfl | with_reducible exact Or.inl rfl | exact Or.inr (Within.trans (Eq.refl _) hw) | skip)
  clear_value s3
  repeat' first
    | with_reducible assumption
    | exact Within.trans (Eq.refl _) hw
    | (intro _)
    | with_reducible apply wr_keeps
    | with_reducible apply each_keeps
    | with_reducible apply State.setTier_keeps
    | with_reducible apply actionErr_keeps
    | with_reducible apply Keeps.ite
    | split
    | (with_reducible apply Keeps.of_fields <;>
        first | with_reducible exact rfl | with_reducible exact Or.inl rfl | exact Or.inr (Within.trans (Eq.refl _) hw) | skip)

theorem releaseLc_keeps (h : Keeps m s0 s) (hw : Within [.reg .BURNISH_CAP_CTRL_BUSY, .reg .BURNISH_CAP_CTRL_REFUSED, .reg
    .ERR_CODE_CODE, .reg .ERR_CODE_MASTER, .reg .ERR_CODE_OVF, .reg .ERR_CODE_WORD, .reg .ERR_CODE_WRITE, .reg .EVT_PEND_PEND, .reg
    .EVT_RAW_RAW, .reg .QCLK_QCLK_CFG_ALIGN_ARM, .reg .QUARRY_STATUS_OP_PENDING, .reg .SHADOW_CMD_PENDING, .reg .SHADOW_CMD_REFUSED, .reg
    .STITCH_FAULT_CAUSE, .reg .STITCH_FAULT_PC, .reg .STITCH_GANG_READY_READY, .reg .STITCH_LC_GRANT, .reg .STITCH_STATUS_CREDIT_WAIT, .reg
    .STITCH_STATUS_FAULTED, .reg .STITCH_STATUS_GANG_WAIT, .reg .STITCH_STATUS_RUNNING, .reg .STITCH_STATUS_WAIT_EVENT, .reg
    .STITCH_STATUS_WAIT_TIME, .reg .TBASE_GSTB_CFG_ALIGN_ARM, .reg .TBASE_GSTB_STAT_PENDING, .reg .TBASE_LC_CTRL_ARM, .reg
    .TBASE_LC_CTRL_CLAIMED, .reg .TBASE_LC_CTRL_FRAC, .reg .TBASE_LC_CTRL_OWNER, .reg .TBASE_LC_CTRL_PERIODIC, .reg
    .TBASE_LC_CTRL_SRC_TALLY, .reg .TBASE_LC_CTRL_TAG, .reg .TBASE_LC_LATE, .reg .TBASE_LC_PERIOD_PERIOD, .reg .TBASE_LC_TIME_HI_C_HI, .reg
    .TBASE_LC_TIME_LO_C_LO, .presented, .commits, .lcs, .gstbs, .cses, .stitchers, .outs, .lines, .qry, .tiers] m) (a1 : Nat) (a2 : Nat) :
    Keeps m s0 (releaseLc a1 a2 s) := by
  unfold releaseLc
  try dsimp only
  repeat' first
    | with_reducible assumption
    | exact Within.trans (Eq.refl _) hw
    | (intro _)
    | with_reducible apply wr_keeps
    | with_reducible apply eachReg_keeps
    | with_reducible apply each_keeps
    | with_reducible apply State.setLc_keeps
    | with_reducible apply releaseQuads_keeps
    | with_reducible apply releaseUsers_keeps
    | with_reducible apply voidSlots_keeps

theorem applyLcCtrl_keeps (h : Keeps m s0 s) (hw : Within [.reg .EVT_PEND_PEND, .reg .EVT_RAW_RAW, .reg .TBASE_LC_CTRL_ARM, .reg
    .TBASE_LC_CTRL_FRAC, .reg .TBASE_LC_CTRL_PERIODIC, .reg .TBASE_LC_CTRL_SRC_TALLY, .reg .TBASE_LC_CTRL_TAG, .reg .TBASE_LC_LATE,
    .presented, .lcs, .lcGen] m) (a1 : Nat) (a2 : Nat) : Keeps m s0 (applyLcCtrl a1 a2 s) := by
  unfold applyLcCtrl
  try dsimp only
  repeat' first
    | with_reducible assumption
    | exact Within.trans (Eq.refl _) hw
    | with_reducible apply wr_keeps
    | with_reducible apply armTime_keeps
    | with_reducible apply disarm_keeps
    | with_reducible apply Keeps.ite
    | split

theorem writeLcCtrl_keeps (h : Keeps m s0 s) (hw : Within [.reg .BURNISH_CAP_CTRL_BUSY, .reg .BURNISH_CAP_CTRL_REFUSED, .reg
    .ERR_CODE_CODE, .reg .ERR_CODE_MASTER, .reg .ERR_CODE_OVF, .reg .ERR_CODE_WORD, .reg .ERR_CODE_WRITE, .reg .EVT_PEND_PEND, .reg
    .EVT_RAW_RAW, .reg .QCLK_QCLK_CFG_ALIGN_ARM, .reg .QUARRY_STATUS_OP_PENDING, .reg .SHADOW_CMD_PENDING, .reg .SHADOW_CMD_REFUSED, .reg
    .STITCH_FAULT_CAUSE, .reg .STITCH_FAULT_PC, .reg .STITCH_GANG_READY_READY, .reg .STITCH_LC_GRANT, .reg .STITCH_STATUS_CREDIT_WAIT, .reg
    .STITCH_STATUS_FAULTED, .reg .STITCH_STATUS_GANG_WAIT, .reg .STITCH_STATUS_RUNNING, .reg .STITCH_STATUS_WAIT_EVENT, .reg
    .STITCH_STATUS_WAIT_TIME, .reg .TBASE_GSTB_CFG_ALIGN_ARM, .reg .TBASE_GSTB_STAT_PENDING, .reg .TBASE_LC_CTRL_ARM, .reg
    .TBASE_LC_CTRL_CLAIMED, .reg .TBASE_LC_CTRL_FRAC, .reg .TBASE_LC_CTRL_OWNER, .reg .TBASE_LC_CTRL_PERIODIC, .reg
    .TBASE_LC_CTRL_SRC_TALLY, .reg .TBASE_LC_CTRL_TAG, .reg .TBASE_LC_LATE, .reg .TBASE_LC_PERIOD_PERIOD, .reg .TBASE_LC_TIME_HI_C_HI, .reg
    .TBASE_LC_TIME_LO_C_LO, .presented, .commits, .lcs, .lcGen, .gstbs, .cses, .stitchers, .outs, .lines, .qry, .tiers] m) (a1 : Nat) (a2 :
    Nat) (a3 : Nat) : Keeps m s0 (writeLcCtrl a1 a2 a3 s) := by
  unfold writeLcCtrl
  try dsimp only
  repeat' first
    | with_reducible assumption
    | exact Within.trans (Eq.refl _) hw
    | with_reducible apply wr_keeps
    | with_reducible apply applyLcCtrl_keeps
    | with_reducible apply recordErr_keeps
    | with_reducible apply releaseLc_keeps
    | with_reducible apply Keeps.ite
    | split

theorem writeLcTime_keeps (h : Keeps m s0 s) (hw : Within [.reg .ERR_CODE_CODE, .reg .ERR_CODE_MASTER, .reg .ERR_CODE_OVF, .reg
    .ERR_CODE_WORD, .reg .ERR_CODE_WRITE, .reg .TBASE_LC_PERIOD_PERIOD, .reg .TBASE_LC_TIME_HI_C_HI, .reg .TBASE_LC_TIME_LO_C_LO] m) (a1 a2
    a3 : Nat) (a4 : Reg) (hr : Within [.reg a4] m) (a5 : Nat) :
    Keeps m s0 (writeLcTime a1 a2 a3 a4 a5 s) := Keeps.ite (wr_keeps h hr ..) (recordErr_keeps h (Within.trans (Eq.refl _) hw) ..)

theorem lcCmd_keeps (h : Keeps m s0 s) (hw : Within [.reg .BURNISH_CAP_CTRL_BUSY, .reg .BURNISH_CAP_CTRL_REFUSED, .reg .ERR_CODE_CODE,
    .reg .ERR_CODE_MASTER, .reg .ERR_CODE_OVF, .reg .ERR_CODE_WORD, .reg .ERR_CODE_WRITE, .reg .EVT_PEND_PEND, .reg .EVT_RAW_RAW, .reg
    .POWER_STATUS_ENTERING, .reg .POWER_STATUS_EXITING, .reg .POWER_WAKE_STAT_CLASS, .reg .POWER_WAKE_STAT_FROM, .reg
    .QCLK_QCLK_CFG_ALIGN_ARM, .reg .QUARRY_STATUS_OP_PENDING, .reg .SHADOW_CMD_PENDING, .reg .SHADOW_CMD_REFUSED, .reg .STITCH_FAULT_CAUSE,
    .reg .STITCH_FAULT_PC, .reg .STITCH_GANG_READY_READY, .reg .STITCH_LC_GRANT, .reg .STITCH_STATUS_CREDIT_WAIT, .reg
    .STITCH_STATUS_FAULTED, .reg .STITCH_STATUS_GANG_WAIT, .reg .STITCH_STATUS_RUNNING, .reg .STITCH_STATUS_WAIT_EVENT, .reg
    .STITCH_STATUS_WAIT_TIME, .reg .TBASE_GSTB_CFG_ALIGN_ARM, .reg .TBASE_GSTB_STAT_PENDING, .reg .TBASE_LC_CTRL_ARM, .reg
    .TBASE_LC_CTRL_CLAIMED, .reg .TBASE_LC_CTRL_FRAC, .reg .TBASE_LC_CTRL_OWNER, .reg .TBASE_LC_CTRL_PERIODIC, .reg
    .TBASE_LC_CTRL_SRC_TALLY, .reg .TBASE_LC_CTRL_TAG, .reg .TBASE_LC_LATE, .reg .TBASE_LC_PERIOD_PERIOD, .reg .TBASE_LC_TIME_HI_C_HI, .reg
    .TBASE_LC_TIME_LO_C_LO, .presented, .commits, .lcs, .lcGen, .gstbs, .cses, .stitchers, .outs, .lines, .pwr, .qry, .tiers] m) (a1 : Nat)
    (a2 : Nat) (a3 : Nat) : Ends m s0 (lcCmd a1 a2 a3 s) := by
  unfold lcCmd
  try dsimp only
  repeat' first
    | with_reducible assumption
    | exact Within.trans (Eq.refl _) hw
    | (intro _)
    | with_reducible apply act_keeps
    | with_reducible apply gate_keeps
    | with_reducible apply writeLcCtrl_keeps
    | with_reducible apply Ends.ite
    | with_reducible apply Ends.next
    | split

theorem execLcClaim_keeps (h : Keeps m s0 s) (hw : Within [.reg .BURNISH_CAP_CTRL_BUSY, .reg .BURNISH_CAP_CTRL_REFUSED, .reg
    .ERR_CODE_CODE, .reg .ERR_CODE_MASTER, .reg .ERR_CODE_OVF, .reg .ERR_CODE_WORD, .reg .ERR_CODE_WRITE, .reg .EVT_PEND_PEND, .reg
    .EVT_RAW_RAW, .reg .POWER_STATUS_ENTERING, .reg .POWER_STATUS_EXITING, .reg .POWER_WAKE_STAT_CLASS, .reg .POWER_WAKE_STAT_FROM, .reg
    .QCLK_QCLK_CFG_ALIGN_ARM, .reg .QUARRY_STATUS_OP_PENDING, .reg .SHADOW_CMD_PENDING, .reg .SHADOW_CMD_REFUSED, .reg .STITCH_FAULT_CAUSE,
    .reg .STITCH_FAULT_PC, .reg .STITCH_GANG_READY_READY, .reg .STITCH_LC_GRANT, .reg .STITCH_STATUS_CREDIT_WAIT, .reg
    .STITCH_STATUS_FAULTED, .reg .STITCH_STATUS_GANG_WAIT, .reg .STITCH_STATUS_RUNNING, .reg .STITCH_STATUS_WAIT_EVENT, .reg
    .STITCH_STATUS_WAIT_TIME, .reg .TBASE_GSTB_CFG_ALIGN_ARM, .reg .TBASE_GSTB_STAT_PENDING, .reg .TBASE_LC_CTRL_ARM, .reg
    .TBASE_LC_CTRL_CLAIMED, .reg .TBASE_LC_CTRL_FRAC, .reg .TBASE_LC_CTRL_OWNER, .reg .TBASE_LC_CTRL_PERIODIC, .reg
    .TBASE_LC_CTRL_SRC_TALLY, .reg .TBASE_LC_CTRL_TAG, .reg .TBASE_LC_LATE, .reg .TBASE_LC_PERIOD_PERIOD, .reg .TBASE_LC_TIME_HI_C_HI, .reg
    .TBASE_LC_TIME_LO_C_LO, .presented, .commits, .lcs, .lcGen, .gstbs, .cses, .stitchers, .outs, .lines, .pwr, .qry, .tiers] m) (a1 :
    Master) (a2 : Lc) (a3 : Word) : Ends m s0 (execLcClaim a1 a2 a3 s) := by
  unfold execLcClaim
  try dsimp only
  repeat' first
    | with_reducible assumption
    | exact Within.trans (Eq.refl _) hw
    | with_reducible apply lcCmd_keeps
    | with_reducible apply Ends.ite
    | with_reducible apply Ends.next
    | split

theorem execLcRelease_keeps (h : Keeps m s0 s) (hw : Within [.reg .BURNISH_CAP_CTRL_BUSY, .reg .BURNISH_CAP_CTRL_REFUSED, .reg
    .ERR_CODE_CODE, .reg .ERR_CODE_MASTER, .reg .ERR_CODE_OVF, .reg .ERR_CODE_WORD, .reg .ERR_CODE_WRITE, .reg .EVT_PEND_PEND, .reg
    .EVT_RAW_RAW, .reg .POWER_STATUS_ENTERING, .reg .POWER_STATUS_EXITING, .reg .POWER_WAKE_STAT_CLASS, .reg .POWER_WAKE_STAT_FROM, .reg
    .QCLK_QCLK_CFG_ALIGN_ARM, .reg .QUARRY_STATUS_OP_PENDING, .reg .SHADOW_CMD_PENDING, .reg .SHADOW_CMD_REFUSED, .reg .STITCH_FAULT_CAUSE,
    .reg .STITCH_FAULT_PC, .reg .STITCH_GANG_READY_READY, .reg .STITCH_LC_GRANT, .reg .STITCH_STATUS_CREDIT_WAIT, .reg
    .STITCH_STATUS_FAULTED, .reg .STITCH_STATUS_GANG_WAIT, .reg .STITCH_STATUS_RUNNING, .reg .STITCH_STATUS_WAIT_EVENT, .reg
    .STITCH_STATUS_WAIT_TIME, .reg .TBASE_GSTB_CFG_ALIGN_ARM, .reg .TBASE_GSTB_STAT_PENDING, .reg .TBASE_LC_CTRL_ARM, .reg
    .TBASE_LC_CTRL_CLAIMED, .reg .TBASE_LC_CTRL_FRAC, .reg .TBASE_LC_CTRL_OWNER, .reg .TBASE_LC_CTRL_PERIODIC, .reg
    .TBASE_LC_CTRL_SRC_TALLY, .reg .TBASE_LC_CTRL_TAG, .reg .TBASE_LC_LATE, .reg .TBASE_LC_PERIOD_PERIOD, .reg .TBASE_LC_TIME_HI_C_HI, .reg
    .TBASE_LC_TIME_LO_C_LO, .presented, .commits, .lcs, .lcGen, .gstbs, .cses, .stitchers, .outs, .lines, .pwr, .qry, .tiers] m) (a1 :
    Master) (a2 : Lc) : Ends m s0 (execLcRelease a1 a2 s) := by
  unfold execLcRelease
  try dsimp only
  repeat' first
    | with_reducible assumption
    | exact Within.trans (Eq.refl _) hw
    | with_reducible apply lcCmd_keeps
    | with_reducible apply Ends.ite
    | with_reducible apply Ends.next
    | split

theorem execLcArm_keeps (h : Keeps m s0 s) (hw : Within [.reg .BURNISH_CAP_CTRL_BUSY, .reg .BURNISH_CAP_CTRL_REFUSED, .reg
    .ERR_CODE_CODE, .reg .ERR_CODE_MASTER, .reg .ERR_CODE_OVF, .reg .ERR_CODE_WORD, .reg .ERR_CODE_WRITE, .reg .EVT_PEND_PEND, .reg
    .EVT_RAW_RAW, .reg .POWER_STATUS_ENTERING, .reg .POWER_STATUS_EXITING, .reg .POWER_WAKE_STAT_CLASS, .reg .POWER_WAKE_STAT_FROM, .reg
    .QCLK_QCLK_CFG_ALIGN_ARM, .reg .QUARRY_STATUS_OP_PENDING, .reg .SHADOW_CMD_PENDING, .reg .SHADOW_CMD_REFUSED, .reg .STITCH_FAULT_CAUSE,
    .reg .STITCH_FAULT_PC, .reg .STITCH_GANG_READY_READY, .reg .STITCH_LC_GRANT, .reg .STITCH_STATUS_CREDIT_WAIT, .reg
    .STITCH_STATUS_FAULTED, .reg .STITCH_STATUS_GANG_WAIT, .reg .STITCH_STATUS_RUNNING, .reg .STITCH_STATUS_WAIT_EVENT, .reg
    .STITCH_STATUS_WAIT_TIME, .reg .TBASE_GSTB_CFG_ALIGN_ARM, .reg .TBASE_GSTB_STAT_PENDING, .reg .TBASE_LC_CTRL_ARM, .reg
    .TBASE_LC_CTRL_CLAIMED, .reg .TBASE_LC_CTRL_FRAC, .reg .TBASE_LC_CTRL_OWNER, .reg .TBASE_LC_CTRL_PERIODIC, .reg
    .TBASE_LC_CTRL_SRC_TALLY, .reg .TBASE_LC_CTRL_TAG, .reg .TBASE_LC_LATE, .reg .TBASE_LC_PERIOD_PERIOD, .reg .TBASE_LC_TIME_HI_C_HI, .reg
    .TBASE_LC_TIME_LO_C_LO, .presented, .commits, .lcs, .lcGen, .gstbs, .cses, .stitchers, .outs, .lines, .pwr, .qry, .tiers] m) (a1 :
    Master) (a2 : Lc) : Ends m s0 (execLcArm a1 a2 s) := by
  unfold execLcArm
  try dsimp only
  repeat' first
    | with_reducible assumption
    | exact Within.trans (Eq.refl _) hw
    | with_reducible apply lcCmd_keeps
    | with_reducible apply Ends.ite
    | with_reducible apply Ends.next
    | split

theorem execLcDisarm_keeps (h : Keeps m s0 s) (hw : Within [.reg .BURNISH_CAP_CTRL_BUSY, .reg .BURNISH_CAP_CTRL_REFUSED, .reg
    .ERR_CODE_CODE, .reg .ERR_CODE_MASTER, .reg .ERR_CODE_OVF, .reg .ERR_CODE_WORD, .reg .ERR_CODE_WRITE, .reg .EVT_PEND_PEND, .reg
    .EVT_RAW_RAW, .reg .POWER_STATUS_ENTERING, .reg .POWER_STATUS_EXITING, .reg .POWER_WAKE_STAT_CLASS, .reg .POWER_WAKE_STAT_FROM, .reg
    .QCLK_QCLK_CFG_ALIGN_ARM, .reg .QUARRY_STATUS_OP_PENDING, .reg .SHADOW_CMD_PENDING, .reg .SHADOW_CMD_REFUSED, .reg .STITCH_FAULT_CAUSE,
    .reg .STITCH_FAULT_PC, .reg .STITCH_GANG_READY_READY, .reg .STITCH_LC_GRANT, .reg .STITCH_STATUS_CREDIT_WAIT, .reg
    .STITCH_STATUS_FAULTED, .reg .STITCH_STATUS_GANG_WAIT, .reg .STITCH_STATUS_RUNNING, .reg .STITCH_STATUS_WAIT_EVENT, .reg
    .STITCH_STATUS_WAIT_TIME, .reg .TBASE_GSTB_CFG_ALIGN_ARM, .reg .TBASE_GSTB_STAT_PENDING, .reg .TBASE_LC_CTRL_ARM, .reg
    .TBASE_LC_CTRL_CLAIMED, .reg .TBASE_LC_CTRL_FRAC, .reg .TBASE_LC_CTRL_OWNER, .reg .TBASE_LC_CTRL_PERIODIC, .reg
    .TBASE_LC_CTRL_SRC_TALLY, .reg .TBASE_LC_CTRL_TAG, .reg .TBASE_LC_LATE, .reg .TBASE_LC_PERIOD_PERIOD, .reg .TBASE_LC_TIME_HI_C_HI, .reg
    .TBASE_LC_TIME_LO_C_LO, .presented, .commits, .lcs, .lcGen, .gstbs, .cses, .stitchers, .outs, .lines, .pwr, .qry, .tiers] m) (a1 :
    Master) (a2 : Lc) : Ends m s0 (execLcDisarm a1 a2 s) := by
  unfold execLcDisarm
  try dsimp only
  repeat' first
    | with_reducible assumption
    | exact Within.trans (Eq.refl _) hw
    | with_reducible apply lcCmd_keeps
    | with_reducible apply Ends.ite
    | with_reducible apply Ends.next
    | split

theorem stepCount_keeps (h : Keeps m s0 s) (hw : Within [.reg .BURNISH_CAP_DONE_COUNT, .reg .BURNISH_STATUS_CAPTURING, .reg
    .BURNISH_STATUS_ROTATING, .reg .EVT_PEND_PEND, .reg .EVT_RAW_RAW, .reg .QCLK_ORIGIN_FRAC_FRAC, .reg .QCLK_ORIGIN_HI_ORIGIN_HI, .reg
    .QCLK_ORIGIN_LO_ORIGIN_LO, .reg .QCLK_QCLK_CFG_ALIGN_ARM, .reg .QCLK_QCLK_STATUS_ALIGNED, .reg .QCLK_QCLK_STATUS_LOCKED, .reg
    .QCLK_QCLK_STATUS_READY, .reg .SPARE_ELEM_TRIM_E, .reg .SPARE_GO_TRIM_GAIN, .reg .SPARE_GO_TRIM_OFFSET, .reg .SPARE_LADDER_TRIM_L, .reg
    .SPARE_STATUS_PHASE, .reg .SPARE_STATUS_VISIT_POS, .reg .TBASE_GSTB_CFG_ALIGNED, .reg .TBASE_GSTB_CFG_ALIGN_ARM, .reg
    .TBASE_GSTB_STAT_PENDING, .reg .TBASE_LC_CTRL_ARM, .reg .TBASE_LC_LATE, .now, .eff, .cap, .presented, .commits, .lcs, .lcGen, .clocks,
    .gstbs, .wheels, .cses, .outs, .qry, .tiers] m) (a1 : Nat) (ha : Inv s → a1 < 2 ^ 64) :
    Keeps m s0 (stepCount a1 s) := by
  unfold stepCount
  extract_lets k s1 s2 s3
  have k_1 : Keeps m s0 s1 := h.upd_now (Within.trans (Eq.refl _) hw) ha
  clear_value s1
  have k_2 : Keeps m s0 s2 := each_keeps (fun i t ht => fire_keeps (markLate_keeps (State.setLc_keeps ht (Within.trans (Eq.refl _) hw) ..)
    (Within.trans (Eq.refl _) hw) ..) (Within.trans (Eq.refl _) hw) ..) k_1
  clear_value s2
  exact each_keeps (fun i t ht => wr_keeps ht (Within.trans (Eq.refl _) hw) ..)
    (each_keeps (fun i t ht => wr_keeps ht (Within.trans (Eq.refl _) hw) ..) k_2)

theorem loadEpoch_keeps (h : Keeps m s0 s) (hw : Within [.reg .BURNISH_CAP_DONE_COUNT, .reg .BURNISH_STATUS_CAPTURING, .reg
    .BURNISH_STATUS_ROTATING, .reg .EVT_PEND_PEND, .reg .EVT_RAW_RAW, .reg .QCLK_ORIGIN_FRAC_FRAC, .reg .QCLK_ORIGIN_HI_ORIGIN_HI, .reg
    .QCLK_ORIGIN_LO_ORIGIN_LO, .reg .QCLK_QCLK_CFG_ALIGN_ARM, .reg .QCLK_QCLK_STATUS_ALIGNED, .reg .QCLK_QCLK_STATUS_LOCKED, .reg
    .QCLK_QCLK_STATUS_READY, .reg .SPARE_ELEM_TRIM_E, .reg .SPARE_GO_TRIM_GAIN, .reg .SPARE_GO_TRIM_OFFSET, .reg .SPARE_LADDER_TRIM_L, .reg
    .SPARE_STATUS_PHASE, .reg .SPARE_STATUS_VISIT_POS, .reg .TBASE_GSTB_CFG_ALIGNED, .reg .TBASE_GSTB_CFG_ALIGN_ARM, .reg
    .TBASE_GSTB_STAT_PENDING, .reg .TBASE_LC_CTRL_ARM, .reg .TBASE_LC_LATE, .reg .TBASE_TB_STATUS_EPOCH_ARMED, .reg
    .TBASE_TB_STATUS_EPOCH_VALID, .now, .eff, .cap, .presented, .commits, .lcs, .lcGen, .clocks, .gstbs, .wheels, .cses, .outs, .qry,
    .tiers] m) (a1 : Nat) (ha : a1 < 2 ^ 64) : Keeps m s0 (loadEpoch a1 s) := by
  unfold loadEpoch
  extract_lets s1 s2
  have k_1 : Keeps m s0 s1 := wr_keeps h (Within.trans (Eq.refl _) hw) ..
  clear_value s1
  have k_2 : Keeps m s0 s2 := raise_keeps (wr_keeps k_1 (Within.trans (Eq.refl _) hw) ..) (Within.trans (Eq.refl _) hw) ..
  clear_value s2
  exact Keeps.ite (raise_keeps k_1 (Within.trans (Eq.refl _) hw) ..)
    (Keeps.ite k_2 (stepCount_keeps k_2 (Within.trans (Eq.refl _) hw) _ (fun _ => ha)))

theorem execEpochLoad_keeps (h : Keeps m s0 s) (hw : Within [.reg .BURNISH_CAP_DONE_COUNT, .reg .BURNISH_STATUS_CAPTURING, .reg
    .BURNISH_STATUS_ROTATING, .reg .EVT_PEND_PEND, .reg .EVT_RAW_RAW, .reg .QCLK_ORIGIN_FRAC_FRAC, .reg .QCLK_ORIGIN_HI_ORIGIN_HI, .reg
    .QCLK_ORIGIN_LO_ORIGIN_LO, .reg .QCLK_QCLK_CFG_ALIGN_ARM, .reg .QCLK_QCLK_STATUS_ALIGNED, .reg .QCLK_QCLK_STATUS_LOCKED, .reg
    .QCLK_QCLK_STATUS_READY, .reg .SPARE_ELEM_TRIM_E, .reg .SPARE_GO_TRIM_GAIN, .reg .SPARE_GO_TRIM_OFFSET, .reg .SPARE_LADDER_TRIM_L, .reg
    .SPARE_STATUS_PHASE, .reg .SPARE_STATUS_VISIT_POS, .reg .TBASE_GSTB_CFG_ALIGNED, .reg .TBASE_GSTB_CFG_ALIGN_ARM, .reg
    .TBASE_GSTB_STAT_PENDING, .reg .TBASE_LC_CTRL_ARM, .reg .TBASE_LC_LATE, .reg .TBASE_TB_STATUS_EPOCH_ARMED, .reg
    .TBASE_TB_STATUS_EPOCH_VALID, .now, .eff, .cap, .presented, .commits, .lcs, .lcGen, .clocks, .gstbs, .wheels, .cses, .outs, .qry,
    .tiers] m) (a1 : BitVec 8) : Ends m s0 (execEpochLoad a1 s) := by
  unfold execEpochLoad
  try dsimp only
  repeat' first
    | with_reducible assumption
    | exact Within.trans (Eq.refl _) hw
    | (intro _)
    | with_reducible apply act_keeps
    | with_reducible apply loadEpoch_keeps
    | with_reducible apply Ends.ite
    | with_reducible apply Ends.next
    | split
    | exact Nat.mod_lt _ (Nat.two_pow_pos 64)

theorem execRefReturn_keeps (h : Keeps m s0 s) (hw : Within [.reg .BURNISH_CAP_DONE_COUNT, .reg .BURNISH_STATUS_CAPTURING, .reg
    .BURNISH_STATUS_ROTATING, .reg .EVT_PEND_PEND, .reg .EVT_RAW_RAW, .reg .QCLK_ORIGIN_FRAC_FRAC, .reg .QCLK_ORIGIN_HI_ORIGIN_HI, .reg
    .QCLK_ORIGIN_LO_ORIGIN_LO, .reg .QCLK_QCLK_CFG_ALIGN_ARM, .reg .QCLK_QCLK_STATUS_ALIGNED, .reg .QCLK_QCLK_STATUS_LOCKED, .reg
    .QCLK_QCLK_STATUS_READY, .reg .SPARE_ELEM_TRIM_E, .reg .SPARE_GO_TRIM_GAIN, .reg .SPARE_GO_TRIM_OFFSET, .reg .SPARE_LADDER_TRIM_L, .reg
    .SPARE_STATUS_PHASE, .reg .SPARE_STATUS_VISIT_POS, .reg .TBASE_GSTB_CFG_ALIGNED, .reg .TBASE_GSTB_CFG_ALIGN_ARM, .reg
    .TBASE_GSTB_STAT_PENDING, .reg .TBASE_LC_CTRL_ARM, .reg .TBASE_LC_LATE, .reg .TBASE_TB_STATUS_EPOCH_ARMED, .reg
    .TBASE_TB_STATUS_EPOCH_VALID, .reg .TBASE_TB_STATUS_PHASE_ERR, .reg .TBASE_TB_STATUS_REF_PRESENT, .now, .eff, .cap, .presented,
    .commits, .epoch, .lcs, .lcGen, .clocks, .gstbs, .wheels, .cses, .outs, .qry, .tiers] m) (a1 : BitVec 16) : Ends m s0 (execRefReturn a1
    s) := by
  unfold execRefReturn
  try dsimp only
  repeat' first
    | with_reducible assumption
    | exact Within.trans (Eq.refl _) hw
    | (intro _)
    | with_reducible apply wr_keeps
    | with_reducible apply on_keeps
    | with_reducible apply act_keeps
    | with_reducible apply loadEpoch_keeps
    | with_reducible apply refArrives_keeps
    | with_reducible apply Keeps.ite
    | with_reducible apply Ends.ite
    | with_reducible apply Ends.next
    | split
    | exact Nat.mod_lt _ (Nat.two_pow_pos 64)
    | (with_reducible apply Keeps.of_fields <;>
        first | with_reducible exact rfl | with_reducible exact Or.inl rfl | exact Or.inr (Within.trans (Eq.refl _) hw) | skip)

theorem writeGstbCfg_keeps (h : Keeps m s0 s) (hw : Within [.reg .ERR_CODE_CODE, .reg .ERR_CODE_MASTER, .reg .ERR_CODE_OVF, .reg
    .ERR_CODE_WORD, .reg .ERR_CODE_WRITE, .reg .TBASE_GSTB_CFG_ALIGN_ARM, .reg .TBASE_GSTB_CFG_ALIGN_LC, .reg .TBASE_GSTB_CFG_MODE, .reg
    .TBASE_GSTB_CFG_SINGLE_LC, .reg .TBASE_GSTB_STAT_PENDING, .gstbs] m) (a1 : Nat) (a2 : Nat) (a3 : Nat) : Keeps m s0 (writeGstbCfg a1 a2
    a3 s) := by
  unfold writeGstbCfg
  try dsimp only
  repeat' first
    | with_reducible assumption
    | exact Within.trans (Eq.refl _) hw
    | with_reducible apply wr_keeps
    | with_reducible apply State.setGstb_keeps
    | with_reducible apply recordErr_keeps
    | with_reducible apply Keeps.ite
    | split

theorem execGstbModeWrite_keeps (h : Keeps m s0 s) (hw : Within [.reg .ERR_CODE_CODE, .reg .ERR_CODE_MASTER, .reg .ERR_CODE_OVF, .reg
    .ERR_CODE_WORD, .reg .ERR_CODE_WRITE, .reg .POWER_STATUS_ENTERING, .reg .POWER_STATUS_EXITING, .reg .POWER_WAKE_STAT_CLASS, .reg
    .POWER_WAKE_STAT_FROM, .reg .TBASE_GSTB_CFG_ALIGN_ARM, .reg .TBASE_GSTB_CFG_ALIGN_LC, .reg .TBASE_GSTB_CFG_MODE, .reg
    .TBASE_GSTB_CFG_SINGLE_LC, .reg .TBASE_GSTB_STAT_PENDING, .gstbs, .pwr] m) (a1 : Master) (a2 : Fin 4) (a3 : Word) : Ends m s0
    (execGstbModeWrite a1 a2 a3 s) := by
  unfold execGstbModeWrite
  try dsimp only
  repeat' first
    | with_reducible assumption
    | exact Within.trans (Eq.refl _) hw
    | (intro _)
    | with_reducible apply cmd_keeps
    | with_reducible apply writeGstbCfg_keeps
    | with_reducible apply Ends.ite
    | with_reducible apply Ends.next
    | split

theorem execGstbStrobe_keeps (h : Keeps m s0 s) (hw : Within [.reg .TBASE_GSTB_STAT_PENDING, .reg .TBASE_GSTB_STAT_STROBES, .outs,
    .pins] m) (a1 : Fin 4) : Ends m s0 (execGstbStrobe a1 s) := by
  unfold execGstbStrobe
  try dsimp only
  repeat' first
    | with_reducible assumption
    | exact Within.trans (Eq.refl _) hw
    | (intro _)
    | with_reducible apply wr_keeps
    | with_reducible apply on_keeps
    | with_reducible apply act_keeps
    | with_reducible apply issueStrobe_keeps
    | with_reducible apply Ends.ite
    | with_reducible apply Ends.next
    | split

theorem receiveFrame_keeps (h : Keeps m s0 s) (hw : Within [.reg .EVT_PEND_PEND, .reg .EVT_RAW_RAW, .reg .POWER_STATUS_ENTERING, .reg
    .POWER_STATUS_EXITING, .reg .POWER_WAKE_STAT_CLASS, .reg .POWER_WAKE_STAT_FROM, .reg .TBASE_TALLY_CNT_CRC_ERR, .reg
    .TBASE_TALLY_CNT_DROPPED, .presented, .pwr] m) (a1 : Nat) (a2 : List Byte) (a3 : State → State) (k3 : ∀ t, Keeps m s0 t → Keeps m s0 (a3
    t)) : Keeps m s0 (receiveFrame a1 a2 a3 s) := by
  unfold receiveFrame
  try dsimp only
  repeat' first
    | with_reducible assumption
    | exact Within.trans (Eq.refl _) hw
    | (intro _)
    | with_reducible apply inc_keeps
    | with_reducible apply raise_keeps
    | with_reducible apply wake_keeps
    | with_reducible apply k3
    | with_reducible apply Keeps.ite
    | split

theorem epochFrame_keeps (h : Keeps m s0 s) (hw : Within [.reg .BURNISH_CAP_DONE_COUNT, .reg .BURNISH_STATUS_CAPTURING, .reg
    .BURNISH_STATUS_ROTATING, .reg .EVT_PEND_PEND, .reg .EVT_RAW_RAW, .reg .QCLK_ORIGIN_FRAC_FRAC, .reg .QCLK_ORIGIN_HI_ORIGIN_HI, .reg
    .QCLK_ORIGIN_LO_ORIGIN_LO, .reg .QCLK_QCLK_CFG_ALIGN_ARM, .reg .QCLK_QCLK_STATUS_ALIGNED, .reg .QCLK_QCLK_STATUS_LOCKED, .reg
    .QCLK_QCLK_STATUS_READY, .reg .SPARE_ELEM_TRIM_E, .reg .SPARE_GO_TRIM_GAIN, .reg .SPARE_GO_TRIM_OFFSET, .reg .SPARE_LADDER_TRIM_L, .reg
    .SPARE_STATUS_PHASE, .reg .SPARE_STATUS_VISIT_POS, .reg .TBASE_GSTB_CFG_ALIGNED, .reg .TBASE_GSTB_CFG_ALIGN_ARM, .reg
    .TBASE_GSTB_STAT_PENDING, .reg .TBASE_LC_CTRL_ARM, .reg .TBASE_LC_LATE, .reg .TBASE_TALLY_CNT_DROPPED, .reg
    .TBASE_TB_STATUS_EPOCH_ARMED, .reg .TBASE_TB_STATUS_EPOCH_VALID, .now, .eff, .cap, .presented, .commits, .epoch, .lcs, .lcGen, .clocks,
    .gstbs, .wheels, .cses, .outs, .qry, .tiers] m) (a1 : List Byte) (a2 : Nat) : Keeps m s0 (epochFrame a1 a2 s) := by
  unfold epochFrame
  try dsimp only
  repeat' first
    | with_reducible assumption
    | exact Within.trans (Eq.refl _) hw
    | with_reducible apply inc_keeps
    | with_reducible apply loadEpoch_keeps
    | with_reducible apply raise_keeps
    | with_reducible apply Keeps.ite
    | split
    | exact Nat.mod_lt _ (Nat.two_pow_pos 64)
    | (with_reducible apply Keeps.of_fields <;>
        first | with_reducible exact rfl | with_reducible exact Or.inl rfl | exact Or.inr (Within.trans (Eq.refl _) hw) | skip)

theorem execTallyEpochFrame_keeps (h : Keeps m s0 s) (hw : Within [.reg .BURNISH_CAP_DONE_COUNT, .reg .BURNISH_STATUS_CAPTURING, .reg
    .BURNISH_STATUS_ROTATING, .reg .EVT_PEND_PEND, .reg .EVT_RAW_RAW, .reg .POWER_STATUS_ENTERING, .reg .POWER_STATUS_EXITING, .reg
    .POWER_WAKE_STAT_CLASS, .reg .POWER_WAKE_STAT_FROM, .reg .QCLK_ORIGIN_FRAC_FRAC, .reg .QCLK_ORIGIN_HI_ORIGIN_HI, .reg
    .QCLK_ORIGIN_LO_ORIGIN_LO, .reg .QCLK_QCLK_CFG_ALIGN_ARM, .reg .QCLK_QCLK_STATUS_ALIGNED, .reg .QCLK_QCLK_STATUS_LOCKED, .reg
    .QCLK_QCLK_STATUS_READY, .reg .SPARE_ELEM_TRIM_E, .reg .SPARE_GO_TRIM_GAIN, .reg .SPARE_GO_TRIM_OFFSET, .reg .SPARE_LADDER_TRIM_L, .reg
    .SPARE_STATUS_PHASE, .reg .SPARE_STATUS_VISIT_POS, .reg .TBASE_GSTB_CFG_ALIGNED, .reg .TBASE_GSTB_CFG_ALIGN_ARM, .reg
    .TBASE_GSTB_STAT_PENDING, .reg .TBASE_LC_CTRL_ARM, .reg .TBASE_LC_LATE, .reg .TBASE_TALLY_CNT_CRC_ERR, .reg .TBASE_TALLY_CNT_DROPPED,
    .reg .TBASE_TB_STATUS_EPOCH_ARMED, .reg .TBASE_TB_STATUS_EPOCH_VALID, .now, .eff, .cap, .presented, .commits, .epoch, .lcs, .lcGen,
    .clocks, .gstbs, .wheels, .cses, .outs, .pwr, .qry, .tiers] m) (a1 : List Byte) (a2 : BitVec 16) : Ends m s0 (execTallyEpochFrame a1 a2
    s) := by
  unfold execTallyEpochFrame
  try dsimp only
  repeat' first
    | with_reducible assumption
    | exact Within.trans (Eq.refl _) hw
    | (intro _)
    | with_reducible apply act_keeps
    | with_reducible apply epochFrame_keeps
    | with_reducible apply receiveFrame_keeps
    | with_reducible apply Ends.ite
    | with_reducible apply Ends.next
    | split

theorem launchArm_keeps (h : Keeps m s0 s) (hw : Within [.reg .EVT_PEND_PEND, .reg .EVT_RAW_RAW, .reg .TBASE_LC_CTRL_ARM, .reg
    .TBASE_LC_CTRL_FRAC, .reg .TBASE_LC_LATE, .reg .TBASE_LC_TIME_HI_C_HI, .reg .TBASE_LC_TIME_LO_C_LO, .presented, .lcs, .lcGen] m) (a1 :
    Nat) (a2 : Nat) (a3 : Nat) : Keeps m s0 (launchArm a1 a2 a3 s) := by
  unfold launchArm
  try dsimp only
  repeat' first
    | with_reducible assumption
    | exact Within.trans (Eq.refl _) hw
    | with_reducible apply wr_keeps
    | with_reducible apply wr64_keeps
    | with_reducible apply armTime_keeps

theorem launchFrame_keeps (h : Keeps m s0 s) (hw : Within [.reg .EVT_PEND_PEND, .reg .EVT_RAW_RAW, .reg .TBASE_LC_CTRL_ARM, .reg
    .TBASE_LC_CTRL_FRAC, .reg .TBASE_LC_LATE, .reg .TBASE_LC_TIME_HI_C_HI, .reg .TBASE_LC_TIME_LO_C_LO, .presented, .lcs, .lcGen] m) (a1 :
    List Byte) : Keeps m s0 (launchFrame a1 s) := by
  unfold launchFrame
  try dsimp only
  repeat' first
    | with_reducible assumption
    | exact Within.trans (Eq.refl _) hw
    | (intro _)
    | with_reducible apply each_keeps
    | with_reducible apply launchArm_keeps

theorem execTallyLaunchFrame_keeps (h : Keeps m s0 s) (hw : Within [.reg .EVT_PEND_PEND, .reg .EVT_RAW_RAW, .reg .POWER_STATUS_ENTERING,
    .reg .POWER_STATUS_EXITING, .reg .POWER_WAKE_STAT_CLASS, .reg .POWER_WAKE_STAT_FROM, .reg .TBASE_LC_CTRL_ARM, .reg .TBASE_LC_CTRL_FRAC,
    .reg .TBASE_LC_LATE, .reg .TBASE_LC_TIME_HI_C_HI, .reg .TBASE_LC_TIME_LO_C_LO, .reg .TBASE_TALLY_CNT_CRC_ERR, .reg
    .TBASE_TALLY_CNT_DROPPED, .presented, .lcs, .lcGen, .pwr] m) (a1 : List Byte) : Ends m s0 (execTallyLaunchFrame a1 s) := by
  unfold execTallyLaunchFrame
  try dsimp only
  repeat' first
    | with_reducible assumption
    | exact Within.trans (Eq.refl _) hw
    | (intro _)
    | with_reducible apply act_keeps
    | with_reducible apply launchFrame_keeps
    | with_reducible apply receiveFrame_keeps
    | with_reducible apply Ends.ite
    | with_reducible apply Ends.next
    | split

theorem speedFrame_keeps (h : Keeps m s0 s) (hw : Within [.reg .EVT_PEND_PEND, .reg .EVT_RAW_RAW, .presented, .clocks] m) (a1 : List
    Byte) : Keeps m s0 (speedFrame a1 s) := by
  unfold speedFrame
  try dsimp only
  repeat' first
    | with_reducible assumption
    | exact Within.trans (Eq.refl _) hw
    | (intro _)
    | with_reducible apply each_keeps
    | with_reducible apply State.setClock_keeps
    | with_reducible apply raise_keeps
    | with_reducible apply Keeps.ite
    | split

theorem execTallySpeedFrame_keeps (h : Keeps m s0 s) (hw : Within [.reg .EVT_PEND_PEND, .reg .EVT_RAW_RAW, .reg .POWER_STATUS_ENTERING,
    .reg .POWER_STATUS_EXITING, .reg .POWER_WAKE_STAT_CLASS, .reg .POWER_WAKE_STAT_FROM, .reg .TBASE_TALLY_CNT_CRC_ERR, .reg
    .TBASE_TALLY_CNT_DROPPED, .presented, .clocks, .pwr] m) (a1 : List Byte) : Ends m s0 (execTallySpeedFrame a1 s) := by
  unfold execTallySpeedFrame
  try dsimp only
  repeat' first
    | with_reducible assumption
    | exact Within.trans (Eq.refl _) hw
    | (intro _)
    | with_reducible apply act_keeps
    | with_reducible apply receiveFrame_keeps
    | with_reducible apply speedFrame_keeps
    | with_reducible apply Ends.ite
    | with_reducible apply Ends.next
    | split

end Sys2Proof.Machine
end

