-- ==== Sys2Proof/Laws/HarnessKeeps.lean ====
section
/-! SUPPORT. What the operations of Machine/Harness.lean keep: the queue, the invariant, and every part outside their footprint. -/

set_option maxRecDepth 4000
set_option linter.unusedTactic false
set_option linter.unreachableTactic false

namespace Sys2Proof.Machine

variable {m : Nat} {s0 s : State}

theorem flagOverrun_keeps (h : Keeps m s0 s) (hw : Within [.reg .EVT_PEND_PEND, .reg .EVT_RAW_RAW, .reg .HARNESS_CAPU_CFG_OVR, .reg
    .HARNESS_GSTB_OVR_OVR, .reg .HARNESS_SOVR_OVR, .reg .PAT_PAT_OVR_OVR, .presented] m) (a1 : Consumer) : Keeps m s0 (flagOverrun a1 s) :=
    by
  unfold flagOverrun
  try dsimp only
  repeat' first
    | with_reducible assumption
    | exact Within.trans (Eq.refl _) hw
    | with_reducible apply wr_keeps
    | with_reducible apply raise_keeps
    | split

theorem overrun_keeps (h : Keeps m s0 s) (hw : Within [.reg .EVT_PEND_PEND, .reg .EVT_RAW_RAW, .reg .HARNESS_CAPU_CFG_OVR, .reg
    .HARNESS_GSTB_OVR_OVR, .reg .HARNESS_LCNT_OVR_OVERRUN, .reg .HARNESS_SOVR_OVR, .reg .PAT_PAT_OVR_OVR, .presented] m) (a1 : Nat) : Keeps
    m s0 (overrun a1 s) := by
  unfold overrun
  try dsimp only
  repeat' first
    | with_reducible assumption
    | exact Within.trans (Eq.refl _) hw
    | with_reducible apply inc_keeps
    | with_reducible apply flagOverrun_keeps
    | with_reducible apply raise_keeps

theorem busyEvent_keeps (h : Keeps m s0 s) (hw : Within [.reg .EVT_PEND_PEND, .reg .EVT_RAW_RAW, .reg .HARNESS_CAPU_CFG_OVR, .reg
    .HARNESS_GSTB_OVR_OVR, .reg .HARNESS_LCNT_OVR_OVERRUN, .reg .HARNESS_LINE_STAT_PENDING, .reg .HARNESS_SOVR_OVR, .reg .PAT_PAT_OVR_OVR,
    .presented, .lines] m) (a1 : Nat) (a2 : Option CapRecord) : Keeps m s0 (busyEvent a1 a2 s) := by
  unfold busyEvent
  try dsimp only
  repeat' first
    | with_reducible assumption
    | exact Within.trans (Eq.refl _) hw
    | with_reducible apply wr_keeps
    | with_reducible apply State.setLine_keeps
    | with_reducible apply overrun_keeps
    | with_reducible apply Keeps.ite
    | split

theorem capture_keeps (h : Keeps m s0 s) (hw : Within [.reg .EVT_PEND_PEND, .reg .EVT_RAW_RAW, .reg .HARNESS_CAPU_CFG_LEVEL, .presented,
    .capus] m) (a1 : Nat) (a2 : CapRecord) : Keeps m s0 (capture a1 a2 s) := by
  unfold capture
  try dsimp only
  repeat' first
    | with_reducible assumption
    | exact Within.trans (Eq.refl _) hw
    | with_reducible apply wr_keeps
    | with_reducible apply State.setCapu_keeps
    | with_reducible apply raise_keeps
    | with_reducible apply Keeps.ite
    | split

theorem deliver_keeps (h : Keeps m s0 s) (hw : Within [.reg .EVT_PEND_PEND, .reg .EVT_RAW_RAW, .reg .HARNESS_CAPU_CFG_LEVEL, .reg
    .TBASE_GSTB_STAT_PENDING, .presented, .gstbs, .pins, .capus, .evin] m) (a1 : Nat) (a2 : CapRecord) : Keeps m s0 (deliver a1 a2 s) := by
  unfold deliver
  try dsimp only
  repeat' first
    | with_reducible assumption
    | exact Within.trans (Eq.refl _) hw
    | with_reducible apply wr_keeps
    | with_reducible apply State.setGstb_keeps
    | with_reducible apply capture_keeps
    | with_reducible apply pinEvent_keeps
    | with_reducible apply Keeps.ite
    | split
    | (with_reducible apply Keeps.of_fields <;>
        first | with_reducible exact rfl | with_reducible exact Or.inl rfl | exact Or.inr (Within.trans (Eq.refl _) hw) | skip)

theorem passEvent_keeps (h : Keeps m s0 s) (hw : Within [.reg .EVT_PEND_PEND, .reg .EVT_RAW_RAW, .reg .HARNESS_CAPU_CFG_LEVEL, .reg
    .HARNESS_CAPU_CFG_OVR, .reg .HARNESS_GSTB_OVR_OVR, .reg .HARNESS_LCNT_OVR_OVERRUN, .reg .HARNESS_LINE_STAT_PENDING, .reg
    .HARNESS_SOVR_OVR, .reg .PAT_PAT_OVR_OVR, .reg .TBASE_GSTB_STAT_PENDING, .presented, .gstbs, .lines, .pins, .capus, .evin] m) (a1 : Nat)
    (a2 : CapRecord) : Keeps m s0 (passEvent a1 a2 s) := by
  unfold passEvent
  try dsimp only
  repeat' first
    | with_reducible assumption
    | exact Within.trans (Eq.refl _) hw
    | with_reducible apply busyEvent_keeps
    | with_reducible apply deliver_keeps
    | with_reducible apply Keeps.ite
    | split

theorem fireEvent_keeps (h : Keeps m s0 s) (hw : Within [.reg .EVT_PEND_PEND, .reg .EVT_RAW_RAW, .reg .HARNESS_CAPU_CFG_LEVEL, .reg
    .HARNESS_CAPU_CFG_OVR, .reg .HARNESS_GSTB_OVR_OVR, .reg .HARNESS_LCNT_OVR_OVERRUN, .reg .HARNESS_LINE_STAT_PENDING, .reg
    .HARNESS_SOVR_OVR, .reg .PAT_PAT_OVR_OVR, .reg .POWER_STATUS_ENTERING, .reg .POWER_STATUS_EXITING, .reg .POWER_WAKE_STAT_CLASS, .reg
    .POWER_WAKE_STAT_FROM, .reg .TBASE_GSTB_STAT_PENDING, .presented, .gstbs, .lines, .pins, .capus, .evin, .pwr] m) (a1 : Nat) (a2 : Nat) :
    Keeps m s0 (fireEvent a1 a2 s) := by
  unfold fireEvent
  try dsimp only
  repeat' first
    | with_reducible assumption
    | exact Within.trans (Eq.refl _) hw
    | with_reducible apply State.setLine_keeps
    | with_reducible apply busyEvent_keeps
    | with_reducible apply passEvent_keeps
    | with_reducible apply wake_keeps
    | with_reducible apply Keeps.ite
    | split

theorem deliverHeld_keeps (h : Keeps m s0 s) (hw : Within [.reg .EVT_PEND_PEND, .reg .EVT_RAW_RAW, .reg .HARNESS_CAPU_CFG_LEVEL, .reg
    .HARNESS_CAPU_CFG_OVR, .reg .HARNESS_GSTB_OVR_OVR, .reg .HARNESS_LCNT_OVR_OVERRUN, .reg .HARNESS_LINE_STAT_PENDING, .reg
    .HARNESS_SOVR_OVR, .reg .PAT_PAT_OVR_OVR, .reg .TBASE_GSTB_STAT_PENDING, .presented, .gstbs, .lines, .pins, .capus, .evin] m)  : Keeps m
    s0 (deliverHeld s) := by
  unfold deliverHeld
  try dsimp only
  repeat' first
    | with_reducible assumption
    | exact Within.trans (Eq.refl _) hw
    | (intro _)
    | with_reducible apply each_keeps
    | with_reducible apply State.setLine_keeps
    | with_reducible apply passEvent_keeps
    | split

theorem meet_keeps (h : Keeps m s0 s) (hw : Within [.reg .EVT_PEND_PEND, .reg .EVT_RAW_RAW, .reg .HARNESS_CAPU_CFG_LEVEL, .reg
    .HARNESS_CAPU_CFG_OVR, .reg .HARNESS_GSTB_OVR_OVR, .reg .HARNESS_LCNT_FIRED_FIRED, .reg .HARNESS_LCNT_MERGE_COINCIDENT, .reg
    .HARNESS_LCNT_MERGE_SUPPRESSED, .reg .HARNESS_LCNT_OVR_OVERRUN, .reg .HARNESS_LINE_STAT_LAST_SLOTS, .reg .HARNESS_LINE_STAT_PENDING,
    .reg .HARNESS_SOVR_OVR, .reg .PAT_PAT_OVR_OVR, .reg .POWER_STATUS_ENTERING, .reg .POWER_STATUS_EXITING, .reg .POWER_WAKE_STAT_CLASS,
    .reg .POWER_WAKE_STAT_FROM, .reg .TBASE_GSTB_STAT_PENDING, .presented, .gstbs, .lines, .pins, .capus, .evin, .pwr] m) (a1 : Nat) (a2 :
    Nat) (a3 : Nat) : Keeps m s0 (meet a1 a2 a3 s) := by
  unfold meet
  try dsimp only
  repeat' first
    | with_reducible assumption
    | exact Within.trans (Eq.refl _) hw
    | (intro _)
    | with_reducible apply wr_keeps
    | with_reducible apply inc_keeps
    | with_reducible apply State.setLine_keeps
    | with_reducible apply fireEvent_keeps
    | with_reducible apply Keeps.ite
    | split

theorem lineTick_keeps (h : Keeps m s0 s) (hw : Within [.reg .EVT_PEND_PEND, .reg .EVT_RAW_RAW, .reg .HARNESS_CAPU_CFG_LEVEL, .reg
    .HARNESS_CAPU_CFG_OVR, .reg .HARNESS_GSTB_OVR_OVR, .reg .HARNESS_LCNT_FIRED_FIRED, .reg .HARNESS_LCNT_MERGE_COINCIDENT, .reg
    .HARNESS_LCNT_MERGE_SUPPRESSED, .reg .HARNESS_LCNT_OVR_OVERRUN, .reg .HARNESS_LINE_STAT_LAST_SLOTS, .reg .HARNESS_LINE_STAT_PENDING,
    .reg .HARNESS_LINE_STAT_STORM, .reg .HARNESS_SOVR_OVR, .reg .PAT_PAT_OVR_OVR, .reg .POWER_STATUS_ENTERING, .reg .POWER_STATUS_EXITING,
    .reg .POWER_WAKE_STAT_CLASS, .reg .POWER_WAKE_STAT_FROM, .reg .TBASE_GSTB_STAT_PENDING, .presented, .gstbs, .lines, .pins, .capus,
    .evin, .pwr] m) (a1 : Nat) : Keeps m s0 (lineTick a1 s) := by
  unfold lineTick
  try dsimp only
  repeat' first
    | with_reducible assumption
    | exact Within.trans (Eq.refl _) hw
    | (intro _)
    | with_reducible apply wr_keeps
    | with_reducible apply State.setLine_keeps
    | with_reducible apply meet_keeps
    | with_reducible apply raiseFor_keeps
    | with_reducible apply Keeps.ite
    | split

theorem execLineFire_keeps (h : Keeps m s0 s) (hw : Within [.reg .EVT_PEND_PEND, .reg .EVT_RAW_RAW, .reg .HARNESS_CAPU_CFG_LEVEL, .reg
    .HARNESS_CAPU_CFG_OVR, .reg .HARNESS_GSTB_OVR_OVR, .reg .HARNESS_LCNT_FIRED_FIRED, .reg .HARNESS_LCNT_MERGE_COINCIDENT, .reg
    .HARNESS_LCNT_MERGE_SUPPRESSED, .reg .HARNESS_LCNT_OVR_OVERRUN, .reg .HARNESS_LINE_STAT_LAST_SLOTS, .reg .HARNESS_LINE_STAT_PENDING,
    .reg .HARNESS_LINE_STAT_STORM, .reg .HARNESS_SOVR_OVR, .reg .PAT_PAT_OVR_OVR, .reg .POWER_STATUS_ENTERING, .reg .POWER_STATUS_EXITING,
    .reg .POWER_WAKE_STAT_CLASS, .reg .POWER_WAKE_STAT_FROM, .reg .TBASE_GSTB_STAT_PENDING, .presented, .gstbs, .lines, .pins, .capus,
    .evin, .pwr] m) (a1 : Line) : Ends m s0 (execLineFire a1 s) := by
  unfold execLineFire
  try dsimp only
  repeat' first
    | with_reducible assumption
    | exact Within.trans (Eq.refl _) hw
    | (intro _)
    | with_reducible apply on_keeps
    | with_reducible apply act_keeps
    | with_reducible apply lineTick_keeps
    | with_reducible apply Ends.ite
    | with_reducible apply Ends.next
    | split

theorem execLineRearm_keeps (h : Keeps m s0 s) (hw : Within [.lines] m) (a1 : Line) : Ends m s0 (execLineRearm a1 s) := by
  unfold execLineRearm
  try dsimp only
  repeat' first
    | with_reducible assumption
    | exact Within.trans (Eq.refl _) hw
    | (intro _)
    | with_reducible apply on_keeps
    | with_reducible apply act_keeps
    | with_reducible apply State.setLine_keeps
    | with_reducible apply Ends.ite
    | with_reducible apply Ends.next
    | split

theorem execStormWindowStart_keeps (h : Keeps m s0 s) (hw : Within [.lines] m) (a1 : Fin 32) : Ends m s0 (execStormWindowStart a1 s) :=
    by
  unfold execStormWindowStart
  try dsimp only
  repeat' first
    | with_reducible assumption
    | exact Within.trans (Eq.refl _) hw
    | (intro _)
    | with_reducible apply each_keeps
    | with_reducible apply on_keeps
    | with_reducible apply act_keeps
    | with_reducible apply State.setLine_keeps
    | with_reducible apply Ends.ite
    | with_reducible apply Ends.next
    | split

theorem execRememberedDeliver_keeps (h : Keeps m s0 s) (hw : Within [.reg .EVT_PEND_PEND, .reg .EVT_RAW_RAW, .reg
    .HARNESS_CAPU_CFG_LEVEL, .reg .HARNESS_LINE_STAT_PENDING, .reg .TBASE_GSTB_STAT_PENDING, .presented, .gstbs, .lines, .pins, .capus,
    .evin] m) (a1 : Line) : Ends m s0 (execRememberedDeliver a1 s) := by
  unfold execRememberedDeliver
  try dsimp only
  repeat' first
    | with_reducible assumption
    | exact Within.trans (Eq.refl _) hw
    | (intro _)
    | with_reducible apply wr_keeps
    | with_reducible apply on_keeps
    | with_reducible apply act_keeps
    | with_reducible apply State.setLine_keeps
    | with_reducible apply deliver_keeps
    | with_reducible apply Ends.ite
    | with_reducible apply Ends.next
    | split
    | with_reducible apply KeepsOpt.getD

theorem dropHolds_keeps (h : Keeps m s0 s) (hw : Within [.lines] m) (a1 : Nat) : Keeps m s0 (dropHolds a1 s) := by
  unfold dropHolds
  try dsimp only
  repeat' first
    | with_reducible assumption
    | exact Within.trans (Eq.refl _) hw
    | (intro _)
    | with_reducible apply each_keeps
    | with_reducible apply State.setLine_keeps
    | with_reducible apply Keeps.ite
    | split

theorem dropConsumer_keeps (h : Keeps m s0 s) (hw : Within [.reg .HARNESS_CAPU_CFG_CLAIMED, .reg .HARNESS_CAPU_CFG_LEVEL, .reg
    .HARNESS_CAPU_CFG_OWNER, .reg .PAT_PIN_CFG_CH, .reg .PAT_PIN_CFG_CLAIMED, .reg .PAT_PIN_CFG_DRIVE, .reg .PAT_PIN_CFG_EDGE, .reg
    .PAT_PIN_CFG_FILT, .reg .PAT_PIN_CFG_FUNC, .reg .PAT_PIN_CFG_GSTB, .reg .PAT_PIN_CFG_INVERT, .reg .PAT_PIN_CFG_ODRAIN, .reg
    .PAT_PIN_CFG_OMODE, .reg .PAT_PIN_CFG_OWNER, .reg .PAT_PIN_PULSE_PULSE, .lines, .pins, .capus] m) (a1 : Nat) : Keeps m s0 (dropConsumer
    a1 s) := by
  unfold dropConsumer
  try dsimp only
  repeat' first
    | with_reducible assumption
    | exact Within.trans (Eq.refl _) hw
    | with_reducible apply wr_keeps
    | with_reducible apply State.setCapu_keeps
    | with_reducible apply State.setLine_keeps
    | with_reducible apply freePin_keeps
    | with_reducible apply Keeps.ite
    | split

theorem takeConsumer_keeps (h : Keeps m s0 s) (hw : Within [.reg .HARNESS_CAPU_CFG_CLAIMED, .reg .HARNESS_CAPU_CFG_OWNER, .reg
    .PAT_PIN_CFG_CH, .reg .PAT_PIN_CFG_CLAIMED, .reg .PAT_PIN_CFG_DRIVE, .reg .PAT_PIN_CFG_EDGE, .reg .PAT_PIN_CFG_FILT, .reg
    .PAT_PIN_CFG_FUNC, .reg .PAT_PIN_CFG_GSTB, .reg .PAT_PIN_CFG_INVERT, .reg .PAT_PIN_CFG_ODRAIN, .reg .PAT_PIN_CFG_OMODE, .reg
    .PAT_PIN_CFG_OWNER, .lines, .pins] m) (a1 : Nat) (a2 : Nat) : Keeps m s0 (takeConsumer a1 a2 s) := by
  unfold takeConsumer
  try dsimp only
  repeat' first
    | with_reducible assumption
    | exact Within.trans (Eq.refl _) hw
    | with_reducible apply wr_keeps
    | with_reducible apply State.setLine_keeps
    | with_reducible apply takePin_keeps
    | with_reducible apply Keeps.ite
    | split

theorem dropHeld_keeps (h : Keeps m s0 s) (hw : Within [.lines] m) (a1 : Nat) : Keeps m s0 (dropHeld a1 s) := by
  unfold dropHeld
  try dsimp only
  repeat' first
    | with_reducible assumption
    | exact Within.trans (Eq.refl _) hw
    | with_reducible apply State.setLine_keeps

theorem forget_keeps (h : Keeps m s0 s) (hw : Within [.reg .EVT_PEND_PEND, .reg .EVT_RAW_RAW, .reg .HARNESS_CAPU_CFG_OVR, .reg
    .HARNESS_GSTB_OVR_OVR, .reg .HARNESS_LCNT_OVR_OVERRUN, .reg .HARNESS_LINE_STAT_PENDING, .reg .HARNESS_SOVR_OVR, .reg .PAT_PAT_OVR_OVR,
    .presented, .lines] m) (a1 : Nat) (a2 : Bool) : Keeps m s0 (forget a1 a2 s) := by
  unfold forget
  try dsimp only
  repeat' first
    | with_reducible assumption
    | exact Within.trans (Eq.refl _) hw
    | with_reducible apply wr_keeps
    | with_reducible apply State.setLine_keeps
    | with_reducible apply overrun_keeps
    | with_reducible apply Keeps.ite
    | split

theorem applyLineCfg_keeps (h : Keeps m s0 s) (hw : Within [.reg .EVT_PEND_PEND, .reg .EVT_RAW_RAW, .reg .HARNESS_CAPU_CFG_CLAIMED, .reg
    .HARNESS_CAPU_CFG_LEVEL, .reg .HARNESS_CAPU_CFG_OVR, .reg .HARNESS_CAPU_CFG_OWNER, .reg .HARNESS_GSTB_OVR_OVR, .reg
    .HARNESS_LCNT_OVR_OVERRUN, .reg .HARNESS_LINE_CFG_DST, .reg .HARNESS_LINE_CFG_EN, .reg .HARNESS_LINE_CFG_REARM, .reg
    .HARNESS_LINE_CFG_SEC, .reg .HARNESS_LINE_CFG_SPROF, .reg .HARNESS_LINE_CFG_SVC, .reg .HARNESS_LINE_STAT_PENDING, .reg
    .HARNESS_SOVR_OVR, .reg .PAT_PAT_OVR_OVR, .reg .PAT_PIN_CFG_CH, .reg .PAT_PIN_CFG_CLAIMED, .reg .PAT_PIN_CFG_DRIVE, .reg
    .PAT_PIN_CFG_EDGE, .reg .PAT_PIN_CFG_FILT, .reg .PAT_PIN_CFG_FUNC, .reg .PAT_PIN_CFG_GSTB, .reg .PAT_PIN_CFG_INVERT, .reg
    .PAT_PIN_CFG_ODRAIN, .reg .PAT_PIN_CFG_OMODE, .reg .PAT_PIN_CFG_OWNER, .reg .PAT_PIN_PULSE_PULSE, .presented, .lines, .pins, .capus] m)
    (a1 : Nat) (a2 : Nat) (a3 : Nat) : Keeps m s0 (applyLineCfg a1 a2 a3 s) := by
  unfold applyLineCfg
  try dsimp only
  repeat' first
    | with_reducible assumption
    | exact Within.trans (Eq.refl _) hw
    | with_reducible apply wr_keeps
    | with_reducible apply dropConsumer_keeps
    | with_reducible apply dropHeld_keeps
    | with_reducible apply forget_keeps
    | with_reducible apply takeConsumer_keeps
    | with_reducible apply Keeps.ite
    | split

theorem releaseLine_keeps (h : Keeps m s0 s) (hw : Within [.reg .EVT_PEND_PEND, .reg .EVT_RAW_RAW, .reg .HARNESS_CAPU_CFG_CLAIMED, .reg
    .HARNESS_CAPU_CFG_LEVEL, .reg .HARNESS_CAPU_CFG_OVR, .reg .HARNESS_CAPU_CFG_OWNER, .reg .HARNESS_GSTB_OVR_OVR, .reg
    .HARNESS_LCNT_OVR_OVERRUN, .reg .HARNESS_LINE_CFG_CLAIMED, .reg .HARNESS_LINE_CFG_DST, .reg .HARNESS_LINE_CFG_EN, .reg
    .HARNESS_LINE_CFG_OWNER, .reg .HARNESS_LINE_SRC_SLOT, .reg .HARNESS_LINE_STAT_PENDING, .reg .HARNESS_LINE_STAT_STORM, .reg
    .HARNESS_SOVR_OVR, .reg .PAT_PAT_OVR_OVR, .reg .PAT_PIN_CFG_CH, .reg .PAT_PIN_CFG_CLAIMED, .reg .PAT_PIN_CFG_DRIVE, .reg
    .PAT_PIN_CFG_EDGE, .reg .PAT_PIN_CFG_FILT, .reg .PAT_PIN_CFG_FUNC, .reg .PAT_PIN_CFG_GSTB, .reg .PAT_PIN_CFG_INVERT, .reg
    .PAT_PIN_CFG_ODRAIN, .reg .PAT_PIN_CFG_OMODE, .reg .PAT_PIN_CFG_OWNER, .reg .PAT_PIN_PULSE_PULSE, .presented, .lines, .pins, .capus] m)
    (a1 : Nat) : Keeps m s0 (releaseLine a1 s) := by
  unfold releaseLine
  try dsimp only
  repeat' first
    | with_reducible assumption
    | exact Within.trans (Eq.refl _) hw
    | (intro _)
    | with_reducible apply wr_keeps
    | with_reducible apply each_keeps
    | with_reducible apply dropConsumer_keeps
    | with_reducible apply dropHeld_keeps
    | with_reducible apply forget_keeps

theorem lineDenied_keeps (h : Keeps m s0 s) (hw : Within [.reg .ERR_CODE_CODE, .reg .ERR_CODE_MASTER, .reg .ERR_CODE_OVF, .reg
    .ERR_CODE_WORD, .reg .ERR_CODE_WRITE] m) (a1 : Nat) (a2 : Nat) : Keeps m s0 (lineDenied a1 a2 s) := by
  unfold lineDenied
  try dsimp only
  repeat' first
    | with_reducible assumption
    | exact Within.trans (Eq.refl _) hw
    | with_reducible apply recordErr_keeps

theorem writeLineCfg_keeps (h : Keeps m s0 s) (hw : Within [.reg .ERR_CODE_CODE, .reg .ERR_CODE_MASTER, .reg .ERR_CODE_OVF, .reg
    .ERR_CODE_WORD, .reg .ERR_CODE_WRITE, .reg .EVT_PEND_PEND, .reg .EVT_RAW_RAW, .reg .HARNESS_CAPU_CFG_CLAIMED, .reg
    .HARNESS_CAPU_CFG_LEVEL, .reg .HARNESS_CAPU_CFG_OVR, .reg .HARNESS_CAPU_CFG_OWNER, .reg .HARNESS_GSTB_OVR_OVR, .reg
    .HARNESS_LCNT_OVR_OVERRUN, .reg .HARNESS_LINE_CFG_CLAIMED, .reg .HARNESS_LINE_CFG_DST, .reg .HARNESS_LINE_CFG_EN, .reg
    .HARNESS_LINE_CFG_OWNER, .reg .HARNESS_LINE_CFG_REARM, .reg .HARNESS_LINE_CFG_SEC, .reg .HARNESS_LINE_CFG_SPROF, .reg
    .HARNESS_LINE_CFG_SVC, .reg .HARNESS_LINE_SRC_SLOT, .reg .HARNESS_LINE_STAT_PENDING, .reg .HARNESS_LINE_STAT_STORM, .reg
    .HARNESS_SOVR_OVR, .reg .PAT_PAT_OVR_OVR, .reg .PAT_PIN_CFG_CH, .reg .PAT_PIN_CFG_CLAIMED, .reg .PAT_PIN_CFG_DRIVE, .reg
    .PAT_PIN_CFG_EDGE, .reg .PAT_PIN_CFG_FILT, .reg .PAT_PIN_CFG_FUNC, .reg .PAT_PIN_CFG_GSTB, .reg .PAT_PIN_CFG_INVERT, .reg
    .PAT_PIN_CFG_ODRAIN, .reg .PAT_PIN_CFG_OMODE, .reg .PAT_PIN_CFG_OWNER, .reg .PAT_PIN_PULSE_PULSE, .presented, .lines, .pins, .capus] m)
    (a1 : Nat) (a2 : Nat) (a3 : Nat) : Keeps m s0 (writeLineCfg a1 a2 a3 s) := by
  unfold writeLineCfg
  try dsimp only
  repeat' first
    | with_reducible assumption
    | exact Within.trans (Eq.refl _) hw
    | with_reducible apply wr_keeps
    | with_reducible apply actionErr_keeps
    | with_reducible apply applyLineCfg_keeps
    | with_reducible apply lineDenied_keeps
    | with_reducible apply releaseLine_keeps
    | with_reducible apply Keeps.ite
    | split

theorem execLineClaim_keeps (h : Keeps m s0 s) (hw : Within [.reg .ERR_CODE_CODE, .reg .ERR_CODE_MASTER, .reg .ERR_CODE_OVF, .reg
    .ERR_CODE_WORD, .reg .ERR_CODE_WRITE, .reg .EVT_PEND_PEND, .reg .EVT_RAW_RAW, .reg .HARNESS_CAPU_CFG_CLAIMED, .reg
    .HARNESS_CAPU_CFG_LEVEL, .reg .HARNESS_CAPU_CFG_OVR, .reg .HARNESS_CAPU_CFG_OWNER, .reg .HARNESS_GSTB_OVR_OVR, .reg
    .HARNESS_LCNT_OVR_OVERRUN, .reg .HARNESS_LINE_CFG_CLAIMED, .reg .HARNESS_LINE_CFG_DST, .reg .HARNESS_LINE_CFG_EN, .reg
    .HARNESS_LINE_CFG_OWNER, .reg .HARNESS_LINE_CFG_REARM, .reg .HARNESS_LINE_CFG_SEC, .reg .HARNESS_LINE_CFG_SPROF, .reg
    .HARNESS_LINE_CFG_SVC, .reg .HARNESS_LINE_SRC_SLOT, .reg .HARNESS_LINE_STAT_PENDING, .reg .HARNESS_LINE_STAT_STORM, .reg
    .HARNESS_SOVR_OVR, .reg .PAT_PAT_OVR_OVR, .reg .PAT_PIN_CFG_CH, .reg .PAT_PIN_CFG_CLAIMED, .reg .PAT_PIN_CFG_DRIVE, .reg
    .PAT_PIN_CFG_EDGE, .reg .PAT_PIN_CFG_FILT, .reg .PAT_PIN_CFG_FUNC, .reg .PAT_PIN_CFG_GSTB, .reg .PAT_PIN_CFG_INVERT, .reg
    .PAT_PIN_CFG_ODRAIN, .reg .PAT_PIN_CFG_OMODE, .reg .PAT_PIN_CFG_OWNER, .reg .PAT_PIN_PULSE_PULSE, .reg .POWER_STATUS_ENTERING, .reg
    .POWER_STATUS_EXITING, .reg .POWER_WAKE_STAT_CLASS, .reg .POWER_WAKE_STAT_FROM, .presented, .lines, .pins, .capus, .pwr] m) (a1 :
    Master) (a2 : Line) (a3 : Word) : Ends m s0 (execLineClaim a1 a2 a3 s) := by
  unfold execLineClaim
  try dsimp only
  repeat' first
    | with_reducible assumption
    | exact Within.trans (Eq.refl _) hw
    | (intro _)
    | with_reducible apply cmd_keeps
    | with_reducible apply writeLineCfg_keeps
    | with_reducible apply Ends.ite
    | with_reducible apply Ends.next
    | split

theorem execLineRelease_keeps (h : Keeps m s0 s) (hw : Within [.reg .ERR_CODE_CODE, .reg .ERR_CODE_MASTER, .reg .ERR_CODE_OVF, .reg
    .ERR_CODE_WORD, .reg .ERR_CODE_WRITE, .reg .EVT_PEND_PEND, .reg .EVT_RAW_RAW, .reg .HARNESS_CAPU_CFG_CLAIMED, .reg
    .HARNESS_CAPU_CFG_LEVEL, .reg .HARNESS_CAPU_CFG_OVR, .reg .HARNESS_CAPU_CFG_OWNER, .reg .HARNESS_GSTB_OVR_OVR, .reg
    .HARNESS_LCNT_OVR_OVERRUN, .reg .HARNESS_LINE_CFG_CLAIMED, .reg .HARNESS_LINE_CFG_DST, .reg .HARNESS_LINE_CFG_EN, .reg
    .HARNESS_LINE_CFG_OWNER, .reg .HARNESS_LINE_CFG_REARM, .reg .HARNESS_LINE_CFG_SEC, .reg .HARNESS_LINE_CFG_SPROF, .reg
    .HARNESS_LINE_CFG_SVC, .reg .HARNESS_LINE_SRC_SLOT, .reg .HARNESS_LINE_STAT_PENDING, .reg .HARNESS_LINE_STAT_STORM, .reg
    .HARNESS_SOVR_OVR, .reg .PAT_PAT_OVR_OVR, .reg .PAT_PIN_CFG_CH, .reg .PAT_PIN_CFG_CLAIMED, .reg .PAT_PIN_CFG_DRIVE, .reg
    .PAT_PIN_CFG_EDGE, .reg .PAT_PIN_CFG_FILT, .reg .PAT_PIN_CFG_FUNC, .reg .PAT_PIN_CFG_GSTB, .reg .PAT_PIN_CFG_INVERT, .reg
    .PAT_PIN_CFG_ODRAIN, .reg .PAT_PIN_CFG_OMODE, .reg .PAT_PIN_CFG_OWNER, .reg .PAT_PIN_PULSE_PULSE, .reg .POWER_STATUS_ENTERING, .reg
    .POWER_STATUS_EXITING, .reg .POWER_WAKE_STAT_CLASS, .reg .POWER_WAKE_STAT_FROM, .presented, .lines, .pins, .capus, .pwr] m) (a1 :
    Master) (a2 : Line) : Ends m s0 (execLineRelease a1 a2 s) := by
  unfold execLineRelease
  try dsimp only
  repeat' first
    | with_reducible assumption
    | exact Within.trans (Eq.refl _) hw
    | (intro _)
    | with_reducible apply cmd_keeps
    | with_reducible apply writeLineCfg_keeps
    | with_reducible apply Ends.ite
    | with_reducible apply Ends.next
    | split

theorem execLineCfgWrite_keeps (h : Keeps m s0 s) (hw : Within [.reg .ERR_CODE_CODE, .reg .ERR_CODE_MASTER, .reg .ERR_CODE_OVF, .reg
    .ERR_CODE_WORD, .reg .ERR_CODE_WRITE, .reg .EVT_PEND_PEND, .reg .EVT_RAW_RAW, .reg .HARNESS_CAPU_CFG_CLAIMED, .reg
    .HARNESS_CAPU_CFG_LEVEL, .reg .HARNESS_CAPU_CFG_OVR, .reg .HARNESS_CAPU_CFG_OWNER, .reg .HARNESS_GSTB_OVR_OVR, .reg
    .HARNESS_LCNT_OVR_OVERRUN, .reg .HARNESS_LINE_CFG_CLAIMED, .reg .HARNESS_LINE_CFG_DST, .reg .HARNESS_LINE_CFG_EN, .reg
    .HARNESS_LINE_CFG_OWNER, .reg .HARNESS_LINE_CFG_REARM, .reg .HARNESS_LINE_CFG_SEC, .reg .HARNESS_LINE_CFG_SPROF, .reg
    .HARNESS_LINE_CFG_SVC, .reg .HARNESS_LINE_SRC_SLOT, .reg .HARNESS_LINE_STAT_PENDING, .reg .HARNESS_LINE_STAT_STORM, .reg
    .HARNESS_SOVR_OVR, .reg .PAT_PAT_OVR_OVR, .reg .PAT_PIN_CFG_CH, .reg .PAT_PIN_CFG_CLAIMED, .reg .PAT_PIN_CFG_DRIVE, .reg
    .PAT_PIN_CFG_EDGE, .reg .PAT_PIN_CFG_FILT, .reg .PAT_PIN_CFG_FUNC, .reg .PAT_PIN_CFG_GSTB, .reg .PAT_PIN_CFG_INVERT, .reg
    .PAT_PIN_CFG_ODRAIN, .reg .PAT_PIN_CFG_OMODE, .reg .PAT_PIN_CFG_OWNER, .reg .PAT_PIN_PULSE_PULSE, .reg .POWER_STATUS_ENTERING, .reg
    .POWER_STATUS_EXITING, .reg .POWER_WAKE_STAT_CLASS, .reg .POWER_WAKE_STAT_FROM, .presented, .lines, .pins, .capus, .pwr] m) (a1 :
    Master) (a2 : Line) (a3 : Word) : Ends m s0 (execLineCfgWrite a1 a2 a3 s) := by
  unfold execLineCfgWrite
  try dsimp only
  repeat' first
    | with_reducible assumption
    | exact Within.trans (Eq.refl _) hw
    | (intro _)
    | with_reducible apply cmd_keeps
    | with_reducible apply writeLineCfg_keeps
    | with_reducible apply Ends.ite
    | with_reducible apply Ends.next
    | split

theorem writeLineSrc_keeps (h : Keeps m s0 s) (hw : Within [.reg .ERR_CODE_CODE, .reg .ERR_CODE_MASTER, .reg .ERR_CODE_OVF, .reg
    .ERR_CODE_WORD, .reg .ERR_CODE_WRITE, .reg .HARNESS_LINE_SRC_SLOT, .lines] m) (a1 : Nat) (a2 : Nat) (a3 : Nat) (a4 : Nat) : Keeps m s0
    (writeLineSrc a1 a2 a3 a4 s) := by
  unfold writeLineSrc
  try dsimp only
  repeat' first
    | with_reducible assumption
    | exact Within.trans (Eq.refl _) hw
    | (intro _)
    | with_reducible apply wr_keeps
    | with_reducible apply State.setLine_keeps
    | with_reducible apply lineDenied_keeps
    | with_reducible apply Keeps.ite
    | split

theorem execLineSrcWrite_keeps (h : Keeps m s0 s) (hw : Within [.reg .ERR_CODE_CODE, .reg .ERR_CODE_MASTER, .reg .ERR_CODE_OVF, .reg
    .ERR_CODE_WORD, .reg .ERR_CODE_WRITE, .reg .HARNESS_LINE_SRC_SLOT, .reg .POWER_STATUS_ENTERING, .reg .POWER_STATUS_EXITING, .reg
    .POWER_WAKE_STAT_CLASS, .reg .POWER_WAKE_STAT_FROM, .lines, .pwr] m) (a1 : Master) (a2 : Line) (a3 : Fin 4) (a4 : Word) : Ends m s0
    (execLineSrcWrite a1 a2 a3 a4 s) := by
  unfold execLineSrcWrite
  try dsimp only
  repeat' first
    | with_reducible assumption
    | exact Within.trans (Eq.refl _) hw
    | (intro _)
    | with_reducible apply cmd_keeps
    | with_reducible apply writeLineSrc_keeps
    | with_reducible apply Ends.ite
    | with_reducible apply Ends.next
    | split

theorem writeLineStat_keeps (h : Keeps m s0 s) (hw : Within [.reg .ERR_CODE_CODE, .reg .ERR_CODE_MASTER, .reg .ERR_CODE_OVF, .reg
    .ERR_CODE_WORD, .reg .ERR_CODE_WRITE, .reg .HARNESS_LINE_STAT_STORM, .lines] m) (a1 : Nat) (a2 : Nat) (a3 : Nat) : Keeps m s0
    (writeLineStat a1 a2 a3 s) := by
  unfold writeLineStat
  try dsimp only
  repeat' first
    | with_reducible assumption
    | exact Within.trans (Eq.refl _) hw
    | with_reducible apply wr_keeps
    | with_reducible apply State.setLine_keeps
    | with_reducible apply lineDenied_keeps
    | with_reducible apply Keeps.ite
    | split

theorem execStormClear_keeps (h : Keeps m s0 s) (hw : Within [.reg .ERR_CODE_CODE, .reg .ERR_CODE_MASTER, .reg .ERR_CODE_OVF, .reg
    .ERR_CODE_WORD, .reg .ERR_CODE_WRITE, .reg .HARNESS_LINE_STAT_STORM, .reg .POWER_STATUS_ENTERING, .reg .POWER_STATUS_EXITING, .reg
    .POWER_WAKE_STAT_CLASS, .reg .POWER_WAKE_STAT_FROM, .lines, .pwr] m) (a1 : Master) (a2 : Line) : Ends m s0 (execStormClear a1 a2 s) :=
    by
  unfold execStormClear
  try dsimp only
  repeat' first
    | with_reducible assumption
    | exact Within.trans (Eq.refl _) hw
    | (intro _)
    | with_reducible apply cmd_keeps
    | with_reducible apply writeLineStat_keeps
    | with_reducible apply Ends.ite
    | with_reducible apply Ends.next
    | split

theorem writeSvcCtl_keeps (h : Keeps m s0 s) (hw : Within [.reg .EVT_PEND_PEND, .reg .EVT_RAW_RAW, .reg .HARNESS_CAPU_CFG_OVR, .reg
    .HARNESS_GSTB_OVR_OVR, .reg .HARNESS_LCNT_OVR_OVERRUN, .reg .HARNESS_LINE_STAT_PENDING, .reg .HARNESS_SOVR_OVR, .reg
    .HARNESS_SVC_CTL_FORCE_HOLD, .reg .PAT_PAT_OVR_OVR, .presented, .lines] m) (a1 : Nat) : Keeps m s0 (writeSvcCtl a1 s) := by
  unfold writeSvcCtl
  try dsimp only
  repeat' first
    | with_reducible assumption
    | exact Within.trans (Eq.refl _) hw
    | (intro _)
    | with_reducible apply wr_keeps
    | with_reducible apply each_keeps
    | with_reducible apply on_keeps
    | with_reducible apply forget_keeps

theorem execSvcModeWrite_keeps (h : Keeps m s0 s) (hw : Within [.reg .ERR_CODE_CODE, .reg .ERR_CODE_MASTER, .reg .ERR_CODE_OVF, .reg
    .ERR_CODE_WORD, .reg .ERR_CODE_WRITE, .reg .EVT_PEND_PEND, .reg .EVT_RAW_RAW, .reg .HARNESS_CAPU_CFG_OVR, .reg .HARNESS_GSTB_OVR_OVR,
    .reg .HARNESS_LCNT_OVR_OVERRUN, .reg .HARNESS_LINE_STAT_PENDING, .reg .HARNESS_SOVR_OVR, .reg .HARNESS_SVC_CTL_FORCE_HOLD, .reg
    .PAT_PAT_OVR_OVR, .reg .POWER_STATUS_ENTERING, .reg .POWER_STATUS_EXITING, .reg .POWER_WAKE_STAT_CLASS, .reg .POWER_WAKE_STAT_FROM,
    .presented, .lines, .pwr] m) (a1 : Master) (a2 : Bool) : Ends m s0 (execSvcModeWrite a1 a2 s) := by
  unfold execSvcModeWrite
  try dsimp only
  repeat' first
    | with_reducible assumption
    | exact Within.trans (Eq.refl _) hw
    | (intro _)
    | with_reducible apply cmd_keeps
    | with_reducible apply writeSvcCtl_keeps
    | with_reducible apply Keeps.ite
    | with_reducible apply Ends.ite
    | with_reducible apply Ends.next
    | split

theorem hostTrig_keeps (h : Keeps m s0 s) (hw : Within [.presented] m) (a1 : Nat) (a2 : Nat) : Keeps m s0 (hostTrig a1 a2 s) := by
  unfold hostTrig
  try dsimp only
  repeat' first
    | with_reducible assumption
    | exact Within.trans (Eq.refl _) hw
    | (intro _)
    | with_reducible apply each_keeps
    | with_reducible apply on_keeps
    | with_reducible apply present_keeps
    | with_reducible apply Keeps.ite
    | split

theorem execHostTrig_keeps (h : Keeps m s0 s) (hw : Within [.reg .ERR_CODE_CODE, .reg .ERR_CODE_MASTER, .reg .ERR_CODE_OVF, .reg
    .ERR_CODE_WORD, .reg .ERR_CODE_WRITE, .reg .POWER_STATUS_ENTERING, .reg .POWER_STATUS_EXITING, .reg .POWER_WAKE_STAT_CLASS, .reg
    .POWER_WAKE_STAT_FROM, .presented, .pwr] m) (a1 : Master) (a2 : Word) : Ends m s0 (execHostTrig a1 a2 s) := by
  unfold execHostTrig
  try dsimp only
  repeat' first
    | with_reducible assumption
    | exact Within.trans (Eq.refl _) hw
    | (intro _)
    | with_reducible apply cmd_keeps
    | with_reducible apply hostTrig_keeps
    | with_reducible apply Ends.ite
    | with_reducible apply Ends.next
    | split

theorem recomputeLoops_keeps (h : Keeps m s0 s) (hw : Within [.reg .EVT_PEND_PEND, .reg .EVT_RAW_RAW, .reg .HARNESS_LINE_STAT_LOOP, .reg
    .HARNESS_STATUS_LOOP_PRESENT, .presented, .lines] m)  : Keeps m s0 (recomputeLoops s) := by
  unfold recomputeLoops
  try dsimp only
  repeat' first
    | with_reducible assumption
    | exact Within.trans (Eq.refl _) hw
    | (intro _)
    | with_reducible apply wr_keeps
    | with_reducible apply each_keeps
    | with_reducible apply State.setLine_keeps
    | with_reducible apply raise_keeps
    | with_reducible apply Keeps.ite
    | split

theorem execLoopRecompute_keeps (h : Keeps m s0 s) (hw : Within [.reg .EVT_PEND_PEND, .reg .EVT_RAW_RAW, .reg .HARNESS_LINE_STAT_LOOP,
    .reg .HARNESS_STATUS_LOOP_PRESENT, .presented, .lines] m)  : Ends m s0 (execLoopRecompute s) := by
  unfold execLoopRecompute
  try dsimp only
  repeat' first
    | with_reducible assumption
    | exact Within.trans (Eq.refl _) hw
    | (intro _)
    | with_reducible apply act_keeps
    | with_reducible apply recomputeLoops_keeps
    | with_reducible apply Ends.ite
    | with_reducible apply Ends.next
    | split

theorem writeCapuCfg_keeps (h : Keeps m s0 s) (hw : Within [.reg .ERR_CODE_CODE, .reg .ERR_CODE_MASTER, .reg .ERR_CODE_OVF, .reg
    .ERR_CODE_WORD, .reg .ERR_CODE_WRITE, .reg .HARNESS_CAPU_CFG_CLAIMED, .reg .HARNESS_CAPU_CFG_LEVEL, .reg .HARNESS_CAPU_CFG_OVR, .reg
    .HARNESS_CAPU_CFG_OWNER, .lines, .capus] m) (a1 : Nat) (a2 : Nat) (a3 : Nat) : Keeps m s0 (writeCapuCfg a1 a2 a3 s) := by
  unfold writeCapuCfg
  try dsimp only
  repeat' first
    | with_reducible assumption
    | exact Within.trans (Eq.refl _) hw
    | with_reducible apply wr_keeps
    | with_reducible apply State.setCapu_keeps
    | with_reducible apply actionErr_keeps
    | with_reducible apply dropHolds_keeps
    | with_reducible apply recordErr_keeps
    | with_reducible apply Keeps.ite
    | split

theorem execCapuClaim_keeps (h : Keeps m s0 s) (hw : Within [.reg .ERR_CODE_CODE, .reg .ERR_CODE_MASTER, .reg .ERR_CODE_OVF, .reg
    .ERR_CODE_WORD, .reg .ERR_CODE_WRITE, .reg .HARNESS_CAPU_CFG_CLAIMED, .reg .HARNESS_CAPU_CFG_LEVEL, .reg .HARNESS_CAPU_CFG_OVR, .reg
    .HARNESS_CAPU_CFG_OWNER, .reg .POWER_STATUS_ENTERING, .reg .POWER_STATUS_EXITING, .reg .POWER_WAKE_STAT_CLASS, .reg
    .POWER_WAKE_STAT_FROM, .lines, .capus, .pwr] m) (a1 : Master) (a2 : Fin 16) : Ends m s0 (execCapuClaim a1 a2 s) := by
  unfold execCapuClaim
  try dsimp only
  repeat' first
    | with_reducible assumption
    | exact Within.trans (Eq.refl _) hw
    | (intro _)
    | with_reducible apply cmd_keeps
    | with_reducible apply writeCapuCfg_keeps
    | with_reducible apply Ends.ite
    | with_reducible apply Ends.next
    | split

theorem readCapuInfo_keeps (h : Keeps m s0 s) (hw : Within [.reg .HARNESS_CAPU_CFG_LEVEL, .reg .HARNESS_CAPU_TIME_HI_C_HI, .reg
    .HARNESS_CAPU_TIME_LO_C_LO, .capus] m) (a1 : Nat) (a2 : Nat) : Keeps m s0 (readCapuInfo a1 a2 s).2 := by
  unfold readCapuInfo
  try dsimp only
  repeat' first
    | with_reducible assumption
    | exact Within.trans (Eq.refl _) hw
    | with_reducible apply wr_keeps
    | with_reducible apply State.setCapu_keeps
    | with_reducible apply Keeps.ite
    | split

theorem gateRead_keeps (h : Keeps m s0 s) (hw : Within [.reg .ERR_CODE_CODE, .reg .ERR_CODE_MASTER, .reg .ERR_CODE_OVF, .reg
    .ERR_CODE_WORD, .reg .ERR_CODE_WRITE, .readData] m) (a1 : Page) (a2 a3 a4 a5 : Nat) (a6 : State → Nat × State)
    (k6 : ∀ t, Keeps m s0 t → Keeps m s0 (a6 t).2) : Keeps m s0 (gateRead a1 a2 a3 a4 a5 a6 s) := by
  unfold gateRead
  refine Keeps.ite ?_ (Keeps.upd_readData (recordErr_keeps h (Within.trans (Eq.refl _) hw) ..) (Within.trans (Eq.refl _) hw) _)
  exact Keeps.upd_readData (k6 s h) (Within.trans (Eq.refl _) hw) _

theorem execCapuInfoRead_keeps (h : Keeps m s0 s) (hw : Within [.reg .ERR_CODE_CODE, .reg .ERR_CODE_MASTER, .reg .ERR_CODE_OVF, .reg
    .ERR_CODE_WORD, .reg .ERR_CODE_WRITE, .reg .HARNESS_CAPU_CFG_LEVEL, .reg .HARNESS_CAPU_TIME_HI_C_HI, .reg .HARNESS_CAPU_TIME_LO_C_LO,
    .readData, .capus] m) (a1 : Master) (a2 : Fin 16) : Ends m s0 (execCapuInfoRead a1 a2 s) := by
  unfold execCapuInfoRead
  try dsimp only
  repeat' first
    | with_reducible assumption
    | exact Within.trans (Eq.refl _) hw
    | (intro _)
    | with_reducible apply act_keeps
    | with_reducible apply gateRead_keeps
    | with_reducible apply readCapuInfo_keeps
    | with_reducible apply Ends.ite
    | with_reducible apply Ends.next
    | split
    | with_reducible refine Keeps.of_snd (by assumption) ?_

end Sys2Proof.Machine
end

