-- ==== Sys2Proof/Laws/SignaturesKeeps.lean ====
section
/-! SUPPORT. What the operations of Machine/Signatures.lean keep: the queue, the invariant, and every part outside their footprint. -/

set_option maxRecDepth 4000
set_option linter.unusedTactic false
set_option linter.unreachableTactic false

namespace Sys2Proof.Machine

variable {m : Nat} {s0 s : State}

theorem extendMr_keeps (h : Keeps m s0 s) (hw : Within [.reg .SEC_MR_CNT_CNT, .reg .SEC_MR_VALUE] m) (a1 : Nat) (a2 : List Byte) : Keeps
    m s0 (extendMr a1 a2 s) := by
  unfold extendMr
  try dsimp only
  repeat' first
    | with_reducible assumption
    | exact Within.trans (Eq.refl _) hw
    | (intro _)
    | with_reducible apply wr_keeps
    | with_reducible apply each_keeps
    | with_reducible apply Keeps.ite
    | split

end Sys2Proof.Machine
end

