-- ==== Sys2Proof/Laws/LoaderKeeps.lean ====
section
/-! SUPPORT. What the operations of Machine/Loader.lean keep: the queue, the invariant, and every part outside their footprint. -/

set_option maxRecDepth 4000
set_option linter.unusedTactic false
set_option linter.unreachableTactic false

namespace Sys2Proof.Machine

variable {m : Nat} {s0 s : State}

theorem xspiWrite_keeps (h : Keeps m s0 s) (hw : Within [.reg .ERR_CODE_CODE, .reg .ERR_CODE_MASTER, .reg .ERR_CODE_OVF, .reg
    .ERR_CODE_WORD, .reg .ERR_CODE_WRITE, .reg .POWER_STATUS_ENTERING, .reg .POWER_STATUS_EXITING, .reg .POWER_WAKE_STAT_CLASS, .reg
    .POWER_WAKE_STAT_FROM, .pwr] m) (a1 : Nat) (a2 : Nat) (a3 : State → State) (k3 : ∀ t, Keeps m s0 t → Keeps m s0 (a3 t)) : Keeps m s0
    (xspiWrite a1 a2 a3 s) := by
  unfold xspiWrite
  try dsimp only
  repeat' first
    | with_reducible assumption
    | exact Within.trans (Eq.refl _) hw
    | (intro _)
    | with_reducible apply gateBy_keeps
    | with_reducible apply k3

theorem writeRawCmd_keeps (h : Keeps m s0 s) (hw : Within [.reg .XSPI_LD_STAT_BUSY, .reg .XSPI_RAW_CMD_ALEN, .reg .XSPI_RAW_CMD_DIR,
    .reg .XSPI_RAW_CMD_DLEN, .reg .XSPI_RAW_CMD_DUMMY, .reg .XSPI_RAW_CMD_OP, .reg .XSPI_RAW_CMD_REFUSED, .reg .XSPI_STATUS_RAW_BUSY, .ldr]
    m) (a1 : Nat) : Keeps m s0 (writeRawCmd a1 s) := by
  unfold writeRawCmd
  try dsimp only
  repeat' first
    | with_reducible assumption
    | exact Within.trans (Eq.refl _) hw
    | with_reducible apply wr_keeps
    | with_reducible apply wrIf_keeps
    | with_reducible apply Keeps.ite
    | split
    | (with_reducible apply Keeps.of_fields <;>
        first | with_reducible exact rfl | with_reducible exact Or.inl rfl | exact Or.inr (Within.trans (Eq.refl _) hw) | skip)

theorem execRawCommand_keeps (h : Keeps m s0 s) (hw : Within [.reg .ERR_CODE_CODE, .reg .ERR_CODE_MASTER, .reg .ERR_CODE_OVF, .reg
    .ERR_CODE_WORD, .reg .ERR_CODE_WRITE, .reg .POWER_STATUS_ENTERING, .reg .POWER_STATUS_EXITING, .reg .POWER_WAKE_STAT_CLASS, .reg
    .POWER_WAKE_STAT_FROM, .reg .XSPI_LD_STAT_BUSY, .reg .XSPI_RAW_CMD_ALEN, .reg .XSPI_RAW_CMD_DIR, .reg .XSPI_RAW_CMD_DLEN, .reg
    .XSPI_RAW_CMD_DUMMY, .reg .XSPI_RAW_CMD_OP, .reg .XSPI_RAW_CMD_REFUSED, .reg .XSPI_STATUS_RAW_BUSY, .ldr, .pwr] m) (a1 : Master) (a2 :
    Word) : Ends m s0 (execRawCommand a1 a2 s) := by
  unfold execRawCommand
  try dsimp only
  repeat' first
    | with_reducible assumption
    | exact Within.trans (Eq.refl _) hw
    | (intro _)
    | with_reducible apply act_keeps
    | with_reducible apply writeRawCmd_keeps
    | with_reducible apply xspiWrite_keeps
    | with_reducible apply Ends.ite
    | with_reducible apply Ends.next
    | split

theorem rawDone_keeps (h : Keeps m s0 s) (hw : Within [.reg .EVT_PEND_PEND, .reg .EVT_RAW_RAW, .reg .XSPI_RAW_DATA_HI_DATA, .reg
    .XSPI_RAW_DATA_LO_DATA, .reg .XSPI_STATUS_RAW_BUSY, .presented] m) (a1 : Nat) : Keeps m s0 (rawDone a1 s) := by
  unfold rawDone
  try dsimp only
  repeat' first
    | with_reducible assumption
    | exact Within.trans (Eq.refl _) hw
    | with_reducible apply wr_keeps
    | with_reducible apply wr64_keeps
    | with_reducible apply raise_keeps
    | with_reducible apply Keeps.ite
    | split

theorem execRawDone_keeps (h : Keeps m s0 s) (hw : Within [.reg .EVT_PEND_PEND, .reg .EVT_RAW_RAW, .reg .XSPI_RAW_DATA_HI_DATA, .reg
    .XSPI_RAW_DATA_LO_DATA, .reg .XSPI_STATUS_RAW_BUSY, .presented] m) (a1 : Dword) : Ends m s0 (execRawDone a1 s) := by
  unfold execRawDone
  try dsimp only
  repeat' first
    | with_reducible assumption
    | exact Within.trans (Eq.refl _) hw
    | (intro _)
    | with_reducible apply on_keeps
    | with_reducible apply act_keeps
    | with_reducible apply rawDone_keeps
    | with_reducible apply Ends.ite
    | with_reducible apply Ends.next
    | split

theorem stopJob_keeps (h : Keeps m s0 s) (hw : Within [.reg .EVT_PEND_PEND, .reg .EVT_RAW_RAW, .reg .XSPI_LD_STAT_BUSY, .reg
    .XSPI_LD_STAT_STOP, .presented, .ldr] m) (a1 : Nat) : Keeps m s0 (stopJob a1 s) := by
  unfold stopJob
  try dsimp only
  repeat' first
    | with_reducible assumption
    | exact Within.trans (Eq.refl _) hw
    | with_reducible apply wr_keeps
    | with_reducible apply raise_keeps
    | (with_reducible apply Keeps.of_fields <;>
        first | with_reducible exact rfl | with_reducible exact Or.inl rfl | exact Or.inr (Within.trans (Eq.refl _) hw) | skip)

theorem startJob_keeps (h : Keeps m s0 s) (hw : Within [.reg .XSPI_LD_DONE_BYTES, .reg .XSPI_LD_ENTRIES_COUNT, .reg
    .XSPI_LD_RESUME_POINT, .reg .XSPI_LD_STAT_BUSY, .reg .XSPI_LD_STAT_ENTRY, .reg .XSPI_LD_STAT_RELEASED, .reg .XSPI_LD_STAT_STOP, .ldr] m)
    (a1 : Bool) : Keeps m s0 (startJob a1 s) := by
  unfold startJob
  try dsimp only
  repeat' first
    | with_reducible assumption
    | exact Within.trans (Eq.refl _) hw
    | with_reducible apply wr_keeps
    | with_reducible apply Keeps.ite
    | split
    | (with_reducible apply Keeps.of_fields <;>
        first | with_reducible exact rfl | with_reducible exact Or.inl rfl | exact Or.inr (Within.trans (Eq.refl _) hw) | skip)

theorem readHead_keeps (h : Keeps m s0 s) (hw : Within [.reg .EVT_PEND_PEND, .reg .EVT_RAW_RAW, .reg .XSPI_LD_STAT_BUSY, .reg
    .XSPI_LD_STAT_STOP, .presented, .ldr] m) (a1 : List Byte) : Keeps m s0 (readHead a1 s) := by
  unfold readHead
  try dsimp only
  repeat' first
    | with_reducible assumption
    | exact Within.trans (Eq.refl _) hw
    | with_reducible apply stopJob_keeps
    | with_reducible apply Keeps.ite
    | split
    | (with_reducible apply Keeps.of_fields <;>
        first | with_reducible exact rfl | with_reducible exact Or.inl rfl | exact Or.inr (Within.trans (Eq.refl _) hw) | skip)

theorem requestJob_keeps (h : Keeps m s0 s) (hw : Within [.reg .XSPI_LD_DONE_BYTES, .reg .XSPI_LD_ENTRIES_COUNT, .reg
    .XSPI_LD_RESUME_POINT, .reg .XSPI_LD_STAT_BUSY, .reg .XSPI_LD_STAT_ENTRY, .reg .XSPI_LD_STAT_REFUSED, .reg .XSPI_LD_STAT_RELEASED, .reg
    .XSPI_LD_STAT_STOP, .ldr] m) (a1 : Bool) : Keeps m s0 (requestJob a1 s) := by
  unfold requestJob
  try dsimp only
  repeat' first
    | with_reducible assumption
    | exact Within.trans (Eq.refl _) hw
    | with_reducible apply wr_keeps
    | with_reducible apply startJob_keeps
    | with_reducible apply Keeps.ite
    | split

theorem copyOut_keeps (h : Keeps m s0 s) (hw : Within [.reg .BENCH_ALIAS_LAST_PRIOR, .reg .BENCH_ALIAS_STAT_POISON, .reg
    .BENCH_ALIAS_STAT_VALID, .reg .BENCH_BENCH_HEALTH_HEALTH, .reg .BENCH_BIST_STAT_PHASE, .reg .BENCH_BPWR_STAT_STATE, .reg
    .BENCH_COLL_CNT_COUNT, .reg .BENCH_COLL_STAT_STREAMER, .reg .BENCH_ECC_CNT_CE, .reg .BENCH_ECC_CNT_UE, .reg .BENCH_STATUS_BIST_BUSY,
    .reg .BENCH_STATUS_SPARE_FREE, .reg .BENCH_UE_ADDR_IN_SPARE, .reg .BENCH_UE_ADDR_OFFSET, .reg .ERR_CODE_CODE, .reg .ERR_CODE_MASTER,
    .reg .ERR_CODE_OVF, .reg .ERR_CODE_WORD, .reg .ERR_CODE_WRITE, .reg .EVT_PEND_PEND, .reg .EVT_RAW_RAW, .reg .POWER_STATUS_ENTERING, .reg
    .POWER_STATUS_EXITING, .reg .POWER_WAKE_STAT_CLASS, .reg .POWER_WAKE_STAT_FROM, .reg .QUARRY_CAPACITY_N_ACTIVE, .reg .QUARRY_ECC_CNT_CE,
    .reg .QUARRY_ECC_CNT_UE, .reg .QUARRY_LRMAP_MAP, .reg .QUARRY_LRMAP_SPARE, .reg .QUARRY_PORT_LAT_MAX_LAT, .reg .QUARRY_PORT_MISS_COUNT,
    .reg .QUARRY_PORT_STAT_OUTSTANDING, .reg .QUARRY_PORT_STAT_URG, .reg .QUARRY_RANK_STATE_STATE, .reg .QUARRY_STATUS_DEGRADED, .reg
    .QUARRY_STATUS_MIGRATING, .reg .QUARRY_UE_ADDR_HI_ADDR, .reg .QUARRY_UE_ADDR_HI_BANK, .reg .QUARRY_UE_ADDR_HI_RANK, .reg
    .QUARRY_UE_ADDR_LO_ADDR, .reg .SYS_ERR_ADDR_HI_ADDR, .reg .SYS_ERR_ADDR_HI_MASTER, .reg .SYS_ERR_ADDR_HI_WRITE, .reg
    .SYS_ERR_ADDR_LO_ADDR, .readData, .presented, .holdoff, .mem, .poison, .pwr, .qry, .ben, .missed, .free] m) (a1 a2 : Nat) (a3 : List
    Byte) :
    Keeps m s0 (copyOut a1 a2 a3 s).2.2 := by
  induction a1 generalizing s a2 a3 with
  | zero => exact h
  | succ n ih =>
    unfold copyOut
    dsimp only
    split
    · exact h
    · split
      · exact recordErr_keeps (busWrite_keeps h (Within.trans (Eq.refl _) hw) ..) (Within.trans (Eq.refl _) hw) ..
      · split
        · exact recordErr_keeps (busWrite_keeps h (Within.trans (Eq.refl _) hw) ..) (Within.trans (Eq.refl _) hw) ..
        · exact ih (busWrite_keeps h (Within.trans (Eq.refl _) hw) ..) _ _

theorem progress_keeps (h : Keeps m s0 s) (hw : Within [.reg .BENCH_ALIAS_LAST_PRIOR, .reg .BENCH_ALIAS_STAT_POISON, .reg
    .BENCH_ALIAS_STAT_VALID, .reg .BENCH_BENCH_HEALTH_HEALTH, .reg .BENCH_BIST_STAT_PHASE, .reg .BENCH_BPWR_STAT_STATE, .reg
    .BENCH_COLL_CNT_COUNT, .reg .BENCH_COLL_STAT_STREAMER, .reg .BENCH_ECC_CNT_CE, .reg .BENCH_ECC_CNT_UE, .reg .BENCH_STATUS_BIST_BUSY,
    .reg .BENCH_STATUS_SPARE_FREE, .reg .BENCH_UE_ADDR_IN_SPARE, .reg .BENCH_UE_ADDR_OFFSET, .reg .ERR_CODE_CODE, .reg .ERR_CODE_MASTER,
    .reg .ERR_CODE_OVF, .reg .ERR_CODE_WORD, .reg .ERR_CODE_WRITE, .reg .EVT_PEND_PEND, .reg .EVT_RAW_RAW, .reg .POWER_STATUS_ENTERING, .reg
    .POWER_STATUS_EXITING, .reg .POWER_WAKE_STAT_CLASS, .reg .POWER_WAKE_STAT_FROM, .reg .QUARRY_CAPACITY_N_ACTIVE, .reg .QUARRY_ECC_CNT_CE,
    .reg .QUARRY_ECC_CNT_UE, .reg .QUARRY_LRMAP_MAP, .reg .QUARRY_LRMAP_SPARE, .reg .QUARRY_PORT_LAT_MAX_LAT, .reg .QUARRY_PORT_MISS_COUNT,
    .reg .QUARRY_PORT_STAT_OUTSTANDING, .reg .QUARRY_PORT_STAT_URG, .reg .QUARRY_RANK_STATE_STATE, .reg .QUARRY_STATUS_DEGRADED, .reg
    .QUARRY_STATUS_MIGRATING, .reg .QUARRY_UE_ADDR_HI_ADDR, .reg .QUARRY_UE_ADDR_HI_BANK, .reg .QUARRY_UE_ADDR_HI_RANK, .reg
    .QUARRY_UE_ADDR_LO_ADDR, .reg .SYS_ERR_ADDR_HI_ADDR, .reg .SYS_ERR_ADDR_HI_MASTER, .reg .SYS_ERR_ADDR_HI_WRITE, .reg
    .SYS_ERR_ADDR_LO_ADDR, .reg .XSPI_LD_DONE_BYTES, .reg .XSPI_LD_RESUME_POINT, .reg .XSPI_LD_STAT_BUSY, .reg .XSPI_LD_STAT_STOP,
    .readData, .presented, .holdoff, .mem, .poison, .ldr, .pwr, .qry, .ben, .missed, .free] m) (a1 : List Byte) : Keeps m s0 (progress a1 s)
    := by
  unfold progress
  try dsimp only
  repeat' first
    | with_reducible assumption
    | exact Within.trans (Eq.refl _) hw
    | with_reducible apply wr_keeps
    | with_reducible apply copyOut_keeps
    | with_reducible apply stopJob_keeps
    | with_reducible apply Keeps.ite
    | split
    | with_reducible refine Keeps.of_snd (by assumption) ?_
    | (with_reducible apply Keeps.of_fields <;>
        first | with_reducible exact rfl | with_reducible exact Or.inl rfl | exact Or.inr (Within.trans (Eq.refl _) hw) | skip)

theorem abortJob_keeps (h : Keeps m s0 s) (hw : Within [.reg .BENCH_ALIAS_LAST_PRIOR, .reg .BENCH_ALIAS_STAT_POISON, .reg
    .BENCH_ALIAS_STAT_VALID, .reg .BENCH_BENCH_HEALTH_HEALTH, .reg .BENCH_BIST_STAT_PHASE, .reg .BENCH_BPWR_STAT_STATE, .reg
    .BENCH_COLL_CNT_COUNT, .reg .BENCH_COLL_STAT_STREAMER, .reg .BENCH_ECC_CNT_CE, .reg .BENCH_ECC_CNT_UE, .reg .BENCH_STATUS_BIST_BUSY,
    .reg .BENCH_STATUS_SPARE_FREE, .reg .BENCH_UE_ADDR_IN_SPARE, .reg .BENCH_UE_ADDR_OFFSET, .reg .ERR_CODE_CODE, .reg .ERR_CODE_MASTER,
    .reg .ERR_CODE_OVF, .reg .ERR_CODE_WORD, .reg .ERR_CODE_WRITE, .reg .EVT_PEND_PEND, .reg .EVT_RAW_RAW, .reg .POWER_STATUS_ENTERING, .reg
    .POWER_STATUS_EXITING, .reg .POWER_WAKE_STAT_CLASS, .reg .POWER_WAKE_STAT_FROM, .reg .QUARRY_CAPACITY_N_ACTIVE, .reg .QUARRY_ECC_CNT_CE,
    .reg .QUARRY_ECC_CNT_UE, .reg .QUARRY_LRMAP_MAP, .reg .QUARRY_LRMAP_SPARE, .reg .QUARRY_PORT_LAT_MAX_LAT, .reg .QUARRY_PORT_MISS_COUNT,
    .reg .QUARRY_PORT_STAT_OUTSTANDING, .reg .QUARRY_PORT_STAT_URG, .reg .QUARRY_RANK_STATE_STATE, .reg .QUARRY_STATUS_DEGRADED, .reg
    .QUARRY_STATUS_MIGRATING, .reg .QUARRY_UE_ADDR_HI_ADDR, .reg .QUARRY_UE_ADDR_HI_BANK, .reg .QUARRY_UE_ADDR_HI_RANK, .reg
    .QUARRY_UE_ADDR_LO_ADDR, .reg .SYS_ERR_ADDR_HI_ADDR, .reg .SYS_ERR_ADDR_HI_MASTER, .reg .SYS_ERR_ADDR_HI_WRITE, .reg
    .SYS_ERR_ADDR_LO_ADDR, .reg .XSPI_LD_DONE_BYTES, .reg .XSPI_LD_RESUME_POINT, .reg .XSPI_LD_STAT_BUSY, .reg .XSPI_LD_STAT_STOP,
    .readData, .presented, .holdoff, .mem, .poison, .ldr, .pwr, .qry, .ben, .missed, .free] m) (a1 : List Byte) : Keeps m s0 (abortJob a1 s)
    := by
  unfold abortJob
  try dsimp only
  repeat' first
    | with_reducible assumption
    | exact Within.trans (Eq.refl _) hw
    | with_reducible apply progress_keeps
    | with_reducible apply stopJob_keeps
    | with_reducible apply Keeps.ite
    | split

theorem writeLdCtl_keeps (h : Keeps m s0 s) (hw : Within [.reg .BENCH_ALIAS_LAST_PRIOR, .reg .BENCH_ALIAS_STAT_POISON, .reg
    .BENCH_ALIAS_STAT_VALID, .reg .BENCH_BENCH_HEALTH_HEALTH, .reg .BENCH_BIST_STAT_PHASE, .reg .BENCH_BPWR_STAT_STATE, .reg
    .BENCH_COLL_CNT_COUNT, .reg .BENCH_COLL_STAT_STREAMER, .reg .BENCH_ECC_CNT_CE, .reg .BENCH_ECC_CNT_UE, .reg .BENCH_STATUS_BIST_BUSY,
    .reg .BENCH_STATUS_SPARE_FREE, .reg .BENCH_UE_ADDR_IN_SPARE, .reg .BENCH_UE_ADDR_OFFSET, .reg .ERR_CODE_CODE, .reg .ERR_CODE_MASTER,
    .reg .ERR_CODE_OVF, .reg .ERR_CODE_WORD, .reg .ERR_CODE_WRITE, .reg .EVT_PEND_PEND, .reg .EVT_RAW_RAW, .reg .POWER_STATUS_ENTERING, .reg
    .POWER_STATUS_EXITING, .reg .POWER_WAKE_STAT_CLASS, .reg .POWER_WAKE_STAT_FROM, .reg .QUARRY_CAPACITY_N_ACTIVE, .reg .QUARRY_ECC_CNT_CE,
    .reg .QUARRY_ECC_CNT_UE, .reg .QUARRY_LRMAP_MAP, .reg .QUARRY_LRMAP_SPARE, .reg .QUARRY_PORT_LAT_MAX_LAT, .reg .QUARRY_PORT_MISS_COUNT,
    .reg .QUARRY_PORT_STAT_OUTSTANDING, .reg .QUARRY_PORT_STAT_URG, .reg .QUARRY_RANK_STATE_STATE, .reg .QUARRY_STATUS_DEGRADED, .reg
    .QUARRY_STATUS_MIGRATING, .reg .QUARRY_UE_ADDR_HI_ADDR, .reg .QUARRY_UE_ADDR_HI_BANK, .reg .QUARRY_UE_ADDR_HI_RANK, .reg
    .QUARRY_UE_ADDR_LO_ADDR, .reg .SYS_ERR_ADDR_HI_ADDR, .reg .SYS_ERR_ADDR_HI_MASTER, .reg .SYS_ERR_ADDR_HI_WRITE, .reg
    .SYS_ERR_ADDR_LO_ADDR, .reg .XSPI_LD_CTL_IMAGE, .reg .XSPI_LD_DONE_BYTES, .reg .XSPI_LD_ENTRIES_COUNT, .reg .XSPI_LD_RESUME_POINT, .reg
    .XSPI_LD_STAT_BUSY, .reg .XSPI_LD_STAT_ENTRY, .reg .XSPI_LD_STAT_REFUSED, .reg .XSPI_LD_STAT_RELEASED, .reg .XSPI_LD_STAT_STOP,
    .readData, .presented, .holdoff, .mem, .poison, .ldr, .pwr, .qry, .ben, .missed, .free] m) (a1 : Nat) : Keeps m s0 (writeLdCtl a1 s) :=
    by
  unfold writeLdCtl
  try dsimp only
  repeat' first
    | with_reducible assumption
    | exact Within.trans (Eq.refl _) hw
    | with_reducible apply wr_keeps
    | with_reducible apply abortJob_keeps
    | with_reducible apply requestJob_keeps
    | with_reducible apply Keeps.ite
    | split

theorem startedJob_keeps (h : Keeps m s0 s) (hw : Within [.reg .EVT_PEND_PEND, .reg .EVT_RAW_RAW, .reg .XSPI_LD_STAT_BUSY, .reg
    .XSPI_LD_STAT_STOP, .presented, .ldr] m) (a1 : List Byte) (a2 : State) : Keeps m s0 (startedJob a1 a2 s) :=
  Keeps.ite (readHead_keeps h (Within.trans (Eq.refl _) hw) ..) h

theorem execLoaderGo_keeps (h : Keeps m s0 s) (hw : Within [.reg .BENCH_ALIAS_LAST_PRIOR, .reg .BENCH_ALIAS_STAT_POISON, .reg
    .BENCH_ALIAS_STAT_VALID, .reg .BENCH_BENCH_HEALTH_HEALTH, .reg .BENCH_BIST_STAT_PHASE, .reg .BENCH_BPWR_STAT_STATE, .reg
    .BENCH_COLL_CNT_COUNT, .reg .BENCH_COLL_STAT_STREAMER, .reg .BENCH_ECC_CNT_CE, .reg .BENCH_ECC_CNT_UE, .reg .BENCH_STATUS_BIST_BUSY,
    .reg .BENCH_STATUS_SPARE_FREE, .reg .BENCH_UE_ADDR_IN_SPARE, .reg .BENCH_UE_ADDR_OFFSET, .reg .ERR_CODE_CODE, .reg .ERR_CODE_MASTER,
    .reg .ERR_CODE_OVF, .reg .ERR_CODE_WORD, .reg .ERR_CODE_WRITE, .reg .EVT_PEND_PEND, .reg .EVT_RAW_RAW, .reg .POWER_STATUS_ENTERING, .reg
    .POWER_STATUS_EXITING, .reg .POWER_WAKE_STAT_CLASS, .reg .POWER_WAKE_STAT_FROM, .reg .QUARRY_CAPACITY_N_ACTIVE, .reg .QUARRY_ECC_CNT_CE,
    .reg .QUARRY_ECC_CNT_UE, .reg .QUARRY_LRMAP_MAP, .reg .QUARRY_LRMAP_SPARE, .reg .QUARRY_PORT_LAT_MAX_LAT, .reg .QUARRY_PORT_MISS_COUNT,
    .reg .QUARRY_PORT_STAT_OUTSTANDING, .reg .QUARRY_PORT_STAT_URG, .reg .QUARRY_RANK_STATE_STATE, .reg .QUARRY_STATUS_DEGRADED, .reg
    .QUARRY_STATUS_MIGRATING, .reg .QUARRY_UE_ADDR_HI_ADDR, .reg .QUARRY_UE_ADDR_HI_BANK, .reg .QUARRY_UE_ADDR_HI_RANK, .reg
    .QUARRY_UE_ADDR_LO_ADDR, .reg .SYS_ERR_ADDR_HI_ADDR, .reg .SYS_ERR_ADDR_HI_MASTER, .reg .SYS_ERR_ADDR_HI_WRITE, .reg
    .SYS_ERR_ADDR_LO_ADDR, .reg .XSPI_LD_CTL_IMAGE, .reg .XSPI_LD_DONE_BYTES, .reg .XSPI_LD_ENTRIES_COUNT, .reg .XSPI_LD_RESUME_POINT, .reg
    .XSPI_LD_STAT_BUSY, .reg .XSPI_LD_STAT_ENTRY, .reg .XSPI_LD_STAT_REFUSED, .reg .XSPI_LD_STAT_RELEASED, .reg .XSPI_LD_STAT_STOP,
    .readData, .presented, .holdoff, .mem, .poison, .ldr, .pwr, .qry, .ben, .missed, .free] m) (a1 : Master) (a2 : Bool) (a3 : List Byte) :
    Ends m s0 (execLoaderGo a1 a2 a3 s) := by
  unfold execLoaderGo
  try dsimp only
  repeat' first
    | with_reducible assumption
    | exact Within.trans (Eq.refl _) hw
    | (intro _)
    | with_reducible apply act_keeps
    | with_reducible apply startedJob_keeps
    | with_reducible apply writeLdCtl_keeps
    | with_reducible apply xspiWrite_keeps
    | with_reducible apply Keeps.ite
    | with_reducible apply Ends.ite
    | with_reducible apply Ends.next
    | split

theorem execLoaderResume_keeps (h : Keeps m s0 s) (hw : Within [.reg .BENCH_ALIAS_LAST_PRIOR, .reg .BENCH_ALIAS_STAT_POISON, .reg
    .BENCH_ALIAS_STAT_VALID, .reg .BENCH_BENCH_HEALTH_HEALTH, .reg .BENCH_BIST_STAT_PHASE, .reg .BENCH_BPWR_STAT_STATE, .reg
    .BENCH_COLL_CNT_COUNT, .reg .BENCH_COLL_STAT_STREAMER, .reg .BENCH_ECC_CNT_CE, .reg .BENCH_ECC_CNT_UE, .reg .BENCH_STATUS_BIST_BUSY,
    .reg .BENCH_STATUS_SPARE_FREE, .reg .BENCH_UE_ADDR_IN_SPARE, .reg .BENCH_UE_ADDR_OFFSET, .reg .ERR_CODE_CODE, .reg .ERR_CODE_MASTER,
    .reg .ERR_CODE_OVF, .reg .ERR_CODE_WORD, .reg .ERR_CODE_WRITE, .reg .EVT_PEND_PEND, .reg .EVT_RAW_RAW, .reg .POWER_STATUS_ENTERING, .reg
    .POWER_STATUS_EXITING, .reg .POWER_WAKE_STAT_CLASS, .reg .POWER_WAKE_STAT_FROM, .reg .QUARRY_CAPACITY_N_ACTIVE, .reg .QUARRY_ECC_CNT_CE,
    .reg .QUARRY_ECC_CNT_UE, .reg .QUARRY_LRMAP_MAP, .reg .QUARRY_LRMAP_SPARE, .reg .QUARRY_PORT_LAT_MAX_LAT, .reg .QUARRY_PORT_MISS_COUNT,
    .reg .QUARRY_PORT_STAT_OUTSTANDING, .reg .QUARRY_PORT_STAT_URG, .reg .QUARRY_RANK_STATE_STATE, .reg .QUARRY_STATUS_DEGRADED, .reg
    .QUARRY_STATUS_MIGRATING, .reg .QUARRY_UE_ADDR_HI_ADDR, .reg .QUARRY_UE_ADDR_HI_BANK, .reg .QUARRY_UE_ADDR_HI_RANK, .reg
    .QUARRY_UE_ADDR_LO_ADDR, .reg .SYS_ERR_ADDR_HI_ADDR, .reg .SYS_ERR_ADDR_HI_MASTER, .reg .SYS_ERR_ADDR_HI_WRITE, .reg
    .SYS_ERR_ADDR_LO_ADDR, .reg .XSPI_LD_CTL_IMAGE, .reg .XSPI_LD_DONE_BYTES, .reg .XSPI_LD_ENTRIES_COUNT, .reg .XSPI_LD_RESUME_POINT, .reg
    .XSPI_LD_STAT_BUSY, .reg .XSPI_LD_STAT_ENTRY, .reg .XSPI_LD_STAT_REFUSED, .reg .XSPI_LD_STAT_RELEASED, .reg .XSPI_LD_STAT_STOP,
    .readData, .presented, .holdoff, .mem, .poison, .ldr, .pwr, .qry, .ben, .missed, .free] m) (a1 : Master) (a2 : Bool) (a3 : List Byte) :
    Ends m s0 (execLoaderResume a1 a2 a3 s) := by
  unfold execLoaderResume
  try dsimp only
  repeat' first
    | with_reducible assumption
    | exact Within.trans (Eq.refl _) hw
    | (intro _)
    | with_reducible apply act_keeps
    | with_reducible apply startedJob_keeps
    | with_reducible apply writeLdCtl_keeps
    | with_reducible apply xspiWrite_keeps
    | with_reducible apply Keeps.ite
    | with_reducible apply Ends.ite
    | with_reducible apply Ends.next
    | split

theorem execLoaderAbort_keeps (h : Keeps m s0 s) (hw : Within [.reg .BENCH_ALIAS_LAST_PRIOR, .reg .BENCH_ALIAS_STAT_POISON, .reg
    .BENCH_ALIAS_STAT_VALID, .reg .BENCH_BENCH_HEALTH_HEALTH, .reg .BENCH_BIST_STAT_PHASE, .reg .BENCH_BPWR_STAT_STATE, .reg
    .BENCH_COLL_CNT_COUNT, .reg .BENCH_COLL_STAT_STREAMER, .reg .BENCH_ECC_CNT_CE, .reg .BENCH_ECC_CNT_UE, .reg .BENCH_STATUS_BIST_BUSY,
    .reg .BENCH_STATUS_SPARE_FREE, .reg .BENCH_UE_ADDR_IN_SPARE, .reg .BENCH_UE_ADDR_OFFSET, .reg .ERR_CODE_CODE, .reg .ERR_CODE_MASTER,
    .reg .ERR_CODE_OVF, .reg .ERR_CODE_WORD, .reg .ERR_CODE_WRITE, .reg .EVT_PEND_PEND, .reg .EVT_RAW_RAW, .reg .POWER_STATUS_ENTERING, .reg
    .POWER_STATUS_EXITING, .reg .POWER_WAKE_STAT_CLASS, .reg .POWER_WAKE_STAT_FROM, .reg .QUARRY_CAPACITY_N_ACTIVE, .reg .QUARRY_ECC_CNT_CE,
    .reg .QUARRY_ECC_CNT_UE, .reg .QUARRY_LRMAP_MAP, .reg .QUARRY_LRMAP_SPARE, .reg .QUARRY_PORT_LAT_MAX_LAT, .reg .QUARRY_PORT_MISS_COUNT,
    .reg .QUARRY_PORT_STAT_OUTSTANDING, .reg .QUARRY_PORT_STAT_URG, .reg .QUARRY_RANK_STATE_STATE, .reg .QUARRY_STATUS_DEGRADED, .reg
    .QUARRY_STATUS_MIGRATING, .reg .QUARRY_UE_ADDR_HI_ADDR, .reg .QUARRY_UE_ADDR_HI_BANK, .reg .QUARRY_UE_ADDR_HI_RANK, .reg
    .QUARRY_UE_ADDR_LO_ADDR, .reg .SYS_ERR_ADDR_HI_ADDR, .reg .SYS_ERR_ADDR_HI_MASTER, .reg .SYS_ERR_ADDR_HI_WRITE, .reg
    .SYS_ERR_ADDR_LO_ADDR, .reg .XSPI_LD_CTL_IMAGE, .reg .XSPI_LD_DONE_BYTES, .reg .XSPI_LD_RESUME_POINT, .reg .XSPI_LD_STAT_BUSY, .reg
    .XSPI_LD_STAT_STOP, .readData, .presented, .holdoff, .mem, .poison, .ldr, .pwr, .qry, .ben, .missed, .free] m) (a1 : Master) (a2 : Bool)
    (a3 : List Byte) : Ends m s0 (execLoaderAbort a1 a2 a3 s) := by
  unfold execLoaderAbort
  try dsimp only
  repeat' first
    | with_reducible assumption
    | exact Within.trans (Eq.refl _) hw
    | (intro _)
    | with_reducible apply wr_keeps
    | with_reducible apply act_keeps
    | with_reducible apply abortJob_keeps
    | with_reducible apply xspiWrite_keeps
    | with_reducible apply Keeps.ite
    | with_reducible apply Ends.ite
    | with_reducible apply Ends.next
    | split

theorem execNandStatusPoll_keeps (h : Keeps m s0 s) (hw : Within [.reg .BENCH_ALIAS_LAST_PRIOR, .reg .BENCH_ALIAS_STAT_POISON, .reg
    .BENCH_ALIAS_STAT_VALID, .reg .BENCH_BENCH_HEALTH_HEALTH, .reg .BENCH_BIST_STAT_PHASE, .reg .BENCH_BPWR_STAT_STATE, .reg
    .BENCH_COLL_CNT_COUNT, .reg .BENCH_COLL_STAT_STREAMER, .reg .BENCH_ECC_CNT_CE, .reg .BENCH_ECC_CNT_UE, .reg .BENCH_STATUS_BIST_BUSY,
    .reg .BENCH_STATUS_SPARE_FREE, .reg .BENCH_UE_ADDR_IN_SPARE, .reg .BENCH_UE_ADDR_OFFSET, .reg .ERR_CODE_CODE, .reg .ERR_CODE_MASTER,
    .reg .ERR_CODE_OVF, .reg .ERR_CODE_WORD, .reg .ERR_CODE_WRITE, .reg .EVT_PEND_PEND, .reg .EVT_RAW_RAW, .reg .POWER_STATUS_ENTERING, .reg
    .POWER_STATUS_EXITING, .reg .POWER_WAKE_STAT_CLASS, .reg .POWER_WAKE_STAT_FROM, .reg .QUARRY_CAPACITY_N_ACTIVE, .reg .QUARRY_ECC_CNT_CE,
    .reg .QUARRY_ECC_CNT_UE, .reg .QUARRY_LRMAP_MAP, .reg .QUARRY_LRMAP_SPARE, .reg .QUARRY_PORT_LAT_MAX_LAT, .reg .QUARRY_PORT_MISS_COUNT,
    .reg .QUARRY_PORT_STAT_OUTSTANDING, .reg .QUARRY_PORT_STAT_URG, .reg .QUARRY_RANK_STATE_STATE, .reg .QUARRY_STATUS_DEGRADED, .reg
    .QUARRY_STATUS_MIGRATING, .reg .QUARRY_UE_ADDR_HI_ADDR, .reg .QUARRY_UE_ADDR_HI_BANK, .reg .QUARRY_UE_ADDR_HI_RANK, .reg
    .QUARRY_UE_ADDR_LO_ADDR, .reg .SYS_ERR_ADDR_HI_ADDR, .reg .SYS_ERR_ADDR_HI_MASTER, .reg .SYS_ERR_ADDR_HI_WRITE, .reg
    .SYS_ERR_ADDR_LO_ADDR, .reg .XSPI_FLASH_STAT_STATUS, .reg .XSPI_LD_DONE_BYTES, .reg .XSPI_LD_RESUME_POINT, .reg .XSPI_LD_STAT_BUSY, .reg
    .XSPI_LD_STAT_STOP, .readData, .presented, .holdoff, .mem, .poison, .ldr, .pwr, .qry, .ben, .missed, .free] m) (a1 : List Byte) (a2 :
    Byte) : Ends m s0 (execNandStatusPoll a1 a2 s) := by
  unfold execNandStatusPoll
  try dsimp only
  repeat' first
    | with_reducible assumption
    | exact Within.trans (Eq.refl _) hw
    | (intro _)
    | with_reducible apply wr_keeps
    | with_reducible apply on_keeps
    | with_reducible apply act_keeps
    | with_reducible apply progress_keeps
    | with_reducible apply stopJob_keeps
    | with_reducible apply Keeps.ite
    | with_reducible apply Ends.ite
    | with_reducible apply Ends.next
    | split

theorem endEntry_keeps (h : Keeps m s0 s) (hw : Within [.reg .BENCH_ALIAS_LAST_PRIOR, .reg .BENCH_ALIAS_STAT_POISON, .reg
    .BENCH_ALIAS_STAT_VALID, .reg .BENCH_BENCH_HEALTH_HEALTH, .reg .BENCH_BIST_STAT_PHASE, .reg .BENCH_BPWR_STAT_STATE, .reg
    .BENCH_COLL_CNT_COUNT, .reg .BENCH_COLL_STAT_STREAMER, .reg .BENCH_ECC_CNT_CE, .reg .BENCH_ECC_CNT_UE, .reg .BENCH_STATUS_BIST_BUSY,
    .reg .BENCH_STATUS_SPARE_FREE, .reg .BENCH_UE_ADDR_IN_SPARE, .reg .BENCH_UE_ADDR_OFFSET, .reg .ERR_CODE_CODE, .reg .ERR_CODE_MASTER,
    .reg .ERR_CODE_OVF, .reg .ERR_CODE_WORD, .reg .ERR_CODE_WRITE, .reg .EVT_PEND_PEND, .reg .EVT_RAW_RAW, .reg .POWER_STATUS_ENTERING, .reg
    .POWER_STATUS_EXITING, .reg .POWER_WAKE_STAT_CLASS, .reg .POWER_WAKE_STAT_FROM, .reg .QUARRY_CAPACITY_N_ACTIVE, .reg .QUARRY_ECC_CNT_CE,
    .reg .QUARRY_ECC_CNT_UE, .reg .QUARRY_LRMAP_MAP, .reg .QUARRY_LRMAP_SPARE, .reg .QUARRY_PORT_LAT_MAX_LAT, .reg .QUARRY_PORT_MISS_COUNT,
    .reg .QUARRY_PORT_STAT_OUTSTANDING, .reg .QUARRY_PORT_STAT_URG, .reg .QUARRY_RANK_STATE_STATE, .reg .QUARRY_STATUS_DEGRADED, .reg
    .QUARRY_STATUS_MIGRATING, .reg .QUARRY_UE_ADDR_HI_ADDR, .reg .QUARRY_UE_ADDR_HI_BANK, .reg .QUARRY_UE_ADDR_HI_RANK, .reg
    .QUARRY_UE_ADDR_LO_ADDR, .reg .SYS_ERR_ADDR_HI_ADDR, .reg .SYS_ERR_ADDR_HI_MASTER, .reg .SYS_ERR_ADDR_HI_WRITE, .reg
    .SYS_ERR_ADDR_LO_ADDR, .reg .XSPI_LD_DONE_BYTES, .reg .XSPI_LD_ENTRIES_COUNT, .reg .XSPI_LD_RESUME_POINT, .reg .XSPI_LD_STAT_BUSY, .reg
    .XSPI_LD_STAT_ENTRY, .reg .XSPI_LD_STAT_STOP, .readData, .presented, .holdoff, .mem, .poison, .ldr, .pwr, .qry, .ben, .missed, .free] m)
    (a1 : DirEntry) (a2 : List Byte) : Keeps m s0 (endEntry a1 a2 s) := by
  unfold endEntry
  try dsimp only
  repeat' first
    | with_reducible assumption
    | exact Within.trans (Eq.refl _) hw
    | with_reducible apply wr_keeps
    | with_reducible apply progress_keeps
    | with_reducible apply stopJob_keeps
    | with_reducible apply Keeps.ite
    | split
    | (with_reducible apply Keeps.of_fields <;>
        first | with_reducible exact rfl | with_reducible exact Or.inl rfl | exact Or.inr (Within.trans (Eq.refl _) hw) | skip)

theorem execLoaderEntryDone_keeps (h : Keeps m s0 s) (hw : Within [.reg .BENCH_ALIAS_LAST_PRIOR, .reg .BENCH_ALIAS_STAT_POISON, .reg
    .BENCH_ALIAS_STAT_VALID, .reg .BENCH_BENCH_HEALTH_HEALTH, .reg .BENCH_BIST_STAT_PHASE, .reg .BENCH_BPWR_STAT_STATE, .reg
    .BENCH_COLL_CNT_COUNT, .reg .BENCH_COLL_STAT_STREAMER, .reg .BENCH_ECC_CNT_CE, .reg .BENCH_ECC_CNT_UE, .reg .BENCH_STATUS_BIST_BUSY,
    .reg .BENCH_STATUS_SPARE_FREE, .reg .BENCH_UE_ADDR_IN_SPARE, .reg .BENCH_UE_ADDR_OFFSET, .reg .ERR_CODE_CODE, .reg .ERR_CODE_MASTER,
    .reg .ERR_CODE_OVF, .reg .ERR_CODE_WORD, .reg .ERR_CODE_WRITE, .reg .EVT_PEND_PEND, .reg .EVT_RAW_RAW, .reg .POWER_STATUS_ENTERING, .reg
    .POWER_STATUS_EXITING, .reg .POWER_WAKE_STAT_CLASS, .reg .POWER_WAKE_STAT_FROM, .reg .QUARRY_CAPACITY_N_ACTIVE, .reg .QUARRY_ECC_CNT_CE,
    .reg .QUARRY_ECC_CNT_UE, .reg .QUARRY_LRMAP_MAP, .reg .QUARRY_LRMAP_SPARE, .reg .QUARRY_PORT_LAT_MAX_LAT, .reg .QUARRY_PORT_MISS_COUNT,
    .reg .QUARRY_PORT_STAT_OUTSTANDING, .reg .QUARRY_PORT_STAT_URG, .reg .QUARRY_RANK_STATE_STATE, .reg .QUARRY_STATUS_DEGRADED, .reg
    .QUARRY_STATUS_MIGRATING, .reg .QUARRY_UE_ADDR_HI_ADDR, .reg .QUARRY_UE_ADDR_HI_BANK, .reg .QUARRY_UE_ADDR_HI_RANK, .reg
    .QUARRY_UE_ADDR_LO_ADDR, .reg .SYS_ERR_ADDR_HI_ADDR, .reg .SYS_ERR_ADDR_HI_MASTER, .reg .SYS_ERR_ADDR_HI_WRITE, .reg
    .SYS_ERR_ADDR_LO_ADDR, .reg .XSPI_LD_DONE_BYTES, .reg .XSPI_LD_ENTRIES_COUNT, .reg .XSPI_LD_RESUME_POINT, .reg .XSPI_LD_STAT_BUSY, .reg
    .XSPI_LD_STAT_ENTRY, .reg .XSPI_LD_STAT_STOP, .readData, .presented, .holdoff, .mem, .poison, .ldr, .pwr, .qry, .ben, .missed, .free] m)
    (a1 : List Byte) (a2 : List Byte) : Ends m s0 (execLoaderEntryDone a1 a2 s) := by
  unfold execLoaderEntryDone
  try dsimp only
  repeat' first
    | with_reducible assumption
    | exact Within.trans (Eq.refl _) hw
    | (intro _)
    | with_reducible apply on_keeps
    | with_reducible apply act_keeps
    | with_reducible apply endEntry_keeps
    | with_reducible apply readHead_keeps
    | with_reducible apply Keeps.ite
    | with_reducible apply Ends.ite
    | with_reducible apply Ends.next
    | split

theorem execFlashTimeout_keeps (h : Keeps m s0 s) (hw : Within [.reg .BENCH_ALIAS_LAST_PRIOR, .reg .BENCH_ALIAS_STAT_POISON, .reg
    .BENCH_ALIAS_STAT_VALID, .reg .BENCH_BENCH_HEALTH_HEALTH, .reg .BENCH_BIST_STAT_PHASE, .reg .BENCH_BPWR_STAT_STATE, .reg
    .BENCH_COLL_CNT_COUNT, .reg .BENCH_COLL_STAT_STREAMER, .reg .BENCH_ECC_CNT_CE, .reg .BENCH_ECC_CNT_UE, .reg .BENCH_STATUS_BIST_BUSY,
    .reg .BENCH_STATUS_SPARE_FREE, .reg .BENCH_UE_ADDR_IN_SPARE, .reg .BENCH_UE_ADDR_OFFSET, .reg .ERR_CODE_CODE, .reg .ERR_CODE_MASTER,
    .reg .ERR_CODE_OVF, .reg .ERR_CODE_WORD, .reg .ERR_CODE_WRITE, .reg .EVT_PEND_PEND, .reg .EVT_RAW_RAW, .reg .POWER_STATUS_ENTERING, .reg
    .POWER_STATUS_EXITING, .reg .POWER_WAKE_STAT_CLASS, .reg .POWER_WAKE_STAT_FROM, .reg .QUARRY_CAPACITY_N_ACTIVE, .reg .QUARRY_ECC_CNT_CE,
    .reg .QUARRY_ECC_CNT_UE, .reg .QUARRY_LRMAP_MAP, .reg .QUARRY_LRMAP_SPARE, .reg .QUARRY_PORT_LAT_MAX_LAT, .reg .QUARRY_PORT_MISS_COUNT,
    .reg .QUARRY_PORT_STAT_OUTSTANDING, .reg .QUARRY_PORT_STAT_URG, .reg .QUARRY_RANK_STATE_STATE, .reg .QUARRY_STATUS_DEGRADED, .reg
    .QUARRY_STATUS_MIGRATING, .reg .QUARRY_UE_ADDR_HI_ADDR, .reg .QUARRY_UE_ADDR_HI_BANK, .reg .QUARRY_UE_ADDR_HI_RANK, .reg
    .QUARRY_UE_ADDR_LO_ADDR, .reg .SYS_ERR_ADDR_HI_ADDR, .reg .SYS_ERR_ADDR_HI_MASTER, .reg .SYS_ERR_ADDR_HI_WRITE, .reg
    .SYS_ERR_ADDR_LO_ADDR, .reg .XSPI_LD_DONE_BYTES, .reg .XSPI_LD_RESUME_POINT, .reg .XSPI_LD_STAT_BUSY, .reg .XSPI_LD_STAT_STOP,
    .readData, .presented, .holdoff, .mem, .poison, .ldr, .pwr, .qry, .ben, .missed, .free] m) (a1 : List Byte) : Ends m s0
    (execFlashTimeout a1 s) := by
  unfold execFlashTimeout
  try dsimp only
  repeat' first
    | with_reducible assumption
    | exact Within.trans (Eq.refl _) hw
    | (intro _)
    | with_reducible apply on_keeps
    | with_reducible apply act_keeps
    | with_reducible apply progress_keeps
    | with_reducible apply stopJob_keeps
    | with_reducible apply Keeps.ite
    | with_reducible apply Ends.ite
    | with_reducible apply Ends.next
    | split

theorem finishJob_keeps (h : Keeps m s0 s) (hw : Within [.reg .EVT_PEND_PEND, .reg .EVT_RAW_RAW, .reg .XSPI_LD_STAT_BUSY, .reg
    .XSPI_LD_STAT_DONE, .reg .XSPI_LD_STAT_RELEASED, .presented] m) (a1 : Bool) : Keeps m s0 (finishJob a1 s) := by
  unfold finishJob
  try dsimp only
  repeat' first
    | with_reducible assumption
    | exact Within.trans (Eq.refl _) hw
    | with_reducible apply wr_keeps
    | with_reducible apply raise_keeps
    | with_reducible apply Keeps.ite
    | split

theorem zeroEntry_keeps (h : Keeps m s0 s) (hw : Within [.reg .BENCH_ALIAS_LAST_PRIOR, .reg .BENCH_ALIAS_STAT_POISON, .reg
    .BENCH_ALIAS_STAT_VALID, .reg .BENCH_BENCH_HEALTH_HEALTH, .reg .BENCH_BIST_STAT_PHASE, .reg .BENCH_BPWR_STAT_STATE, .reg
    .BENCH_COLL_CNT_COUNT, .reg .BENCH_COLL_STAT_STREAMER, .reg .BENCH_ECC_CNT_CE, .reg .BENCH_ECC_CNT_UE, .reg .BENCH_STATUS_BIST_BUSY,
    .reg .BENCH_STATUS_SPARE_FREE, .reg .BENCH_UE_ADDR_IN_SPARE, .reg .BENCH_UE_ADDR_OFFSET, .reg .ERR_CODE_CODE, .reg .ERR_CODE_MASTER,
    .reg .ERR_CODE_OVF, .reg .ERR_CODE_WORD, .reg .ERR_CODE_WRITE, .reg .EVT_PEND_PEND, .reg .EVT_RAW_RAW, .reg .POWER_STATUS_ENTERING, .reg
    .POWER_STATUS_EXITING, .reg .POWER_WAKE_STAT_CLASS, .reg .POWER_WAKE_STAT_FROM, .reg .QUARRY_CAPACITY_N_ACTIVE, .reg .QUARRY_ECC_CNT_CE,
    .reg .QUARRY_ECC_CNT_UE, .reg .QUARRY_LRMAP_MAP, .reg .QUARRY_LRMAP_SPARE, .reg .QUARRY_PORT_LAT_MAX_LAT, .reg .QUARRY_PORT_MISS_COUNT,
    .reg .QUARRY_PORT_STAT_OUTSTANDING, .reg .QUARRY_PORT_STAT_URG, .reg .QUARRY_RANK_STATE_STATE, .reg .QUARRY_STATUS_DEGRADED, .reg
    .QUARRY_STATUS_MIGRATING, .reg .QUARRY_UE_ADDR_HI_ADDR, .reg .QUARRY_UE_ADDR_HI_BANK, .reg .QUARRY_UE_ADDR_HI_RANK, .reg
    .QUARRY_UE_ADDR_LO_ADDR, .reg .SYS_ERR_ADDR_HI_ADDR, .reg .SYS_ERR_ADDR_HI_MASTER, .reg .SYS_ERR_ADDR_HI_WRITE, .reg
    .SYS_ERR_ADDR_LO_ADDR, .readData, .presented, .holdoff, .mem, .poison, .pwr, .qry, .ben, .missed, .free] m) (a1 : DirEntry) : Keeps m s0
    (zeroEntry a1 s) := by
  unfold zeroEntry
  try dsimp only
  repeat' first
    | with_reducible assumption
    | exact Within.trans (Eq.refl _) hw
    | with_reducible apply copyOut_keeps
    | with_reducible refine Keeps.of_snd (by assumption) ?_

theorem verifyImage_keeps (h : Keeps m s0 s) (hw : Within [.reg .BENCH_ALIAS_LAST_PRIOR, .reg .BENCH_ALIAS_STAT_POISON, .reg
    .BENCH_ALIAS_STAT_VALID, .reg .BENCH_BENCH_HEALTH_HEALTH, .reg .BENCH_BIST_STAT_PHASE, .reg .BENCH_BPWR_STAT_STATE, .reg
    .BENCH_COLL_CNT_COUNT, .reg .BENCH_COLL_STAT_STREAMER, .reg .BENCH_ECC_CNT_CE, .reg .BENCH_ECC_CNT_UE, .reg .BENCH_STATUS_BIST_BUSY,
    .reg .BENCH_STATUS_SPARE_FREE, .reg .BENCH_UE_ADDR_IN_SPARE, .reg .BENCH_UE_ADDR_OFFSET, .reg .ERR_CODE_CODE, .reg .ERR_CODE_MASTER,
    .reg .ERR_CODE_OVF, .reg .ERR_CODE_WORD, .reg .ERR_CODE_WRITE, .reg .EVT_PEND_PEND, .reg .EVT_RAW_RAW, .reg .POWER_STATUS_ENTERING, .reg
    .POWER_STATUS_EXITING, .reg .POWER_WAKE_STAT_CLASS, .reg .POWER_WAKE_STAT_FROM, .reg .QUARRY_CAPACITY_N_ACTIVE, .reg .QUARRY_ECC_CNT_CE,
    .reg .QUARRY_ECC_CNT_UE, .reg .QUARRY_LRMAP_MAP, .reg .QUARRY_LRMAP_SPARE, .reg .QUARRY_PORT_LAT_MAX_LAT, .reg .QUARRY_PORT_MISS_COUNT,
    .reg .QUARRY_PORT_STAT_OUTSTANDING, .reg .QUARRY_PORT_STAT_URG, .reg .QUARRY_RANK_STATE_STATE, .reg .QUARRY_STATUS_DEGRADED, .reg
    .QUARRY_STATUS_MIGRATING, .reg .QUARRY_UE_ADDR_HI_ADDR, .reg .QUARRY_UE_ADDR_HI_BANK, .reg .QUARRY_UE_ADDR_HI_RANK, .reg
    .QUARRY_UE_ADDR_LO_ADDR, .reg .SEC_MR_CNT_CNT, .reg .SEC_MR_VALUE, .reg .SYS_ERR_ADDR_HI_ADDR, .reg .SYS_ERR_ADDR_HI_MASTER, .reg
    .SYS_ERR_ADDR_HI_WRITE, .reg .SYS_ERR_ADDR_LO_ADDR, .reg .XSPI_LD_STAT_BUSY, .reg .XSPI_LD_STAT_DONE, .reg .XSPI_LD_STAT_RELEASED, .reg
    .XSPI_LD_STAT_STOP, .readData, .presented, .holdoff, .mem, .poison, .ldr, .pwr, .qry, .ben, .missed, .free] m) (a1 : List Byte) (a2 :
    List Byte) : Keeps m s0 (verifyImage a1 a2 s) := by
  unfold verifyImage
  try dsimp only
  repeat' first
    | with_reducible assumption
    | exact Within.trans (Eq.refl _) hw
    | (intro _)
    | with_reducible apply each_keeps
    | with_reducible apply extendMr_keeps
    | with_reducible apply finishJob_keeps
    | with_reducible apply raise_keeps
    | with_reducible apply stopJob_keeps
    | with_reducible apply zeroEntry_keeps
    | with_reducible apply Keeps.ite
    | split

theorem execLoaderDone_keeps (h : Keeps m s0 s) (hw : Within [.reg .BENCH_ALIAS_LAST_PRIOR, .reg .BENCH_ALIAS_STAT_POISON, .reg
    .BENCH_ALIAS_STAT_VALID, .reg .BENCH_BENCH_HEALTH_HEALTH, .reg .BENCH_BIST_STAT_PHASE, .reg .BENCH_BPWR_STAT_STATE, .reg
    .BENCH_COLL_CNT_COUNT, .reg .BENCH_COLL_STAT_STREAMER, .reg .BENCH_ECC_CNT_CE, .reg .BENCH_ECC_CNT_UE, .reg .BENCH_STATUS_BIST_BUSY,
    .reg .BENCH_STATUS_SPARE_FREE, .reg .BENCH_UE_ADDR_IN_SPARE, .reg .BENCH_UE_ADDR_OFFSET, .reg .ERR_CODE_CODE, .reg .ERR_CODE_MASTER,
    .reg .ERR_CODE_OVF, .reg .ERR_CODE_WORD, .reg .ERR_CODE_WRITE, .reg .EVT_PEND_PEND, .reg .EVT_RAW_RAW, .reg .POWER_STATUS_ENTERING, .reg
    .POWER_STATUS_EXITING, .reg .POWER_WAKE_STAT_CLASS, .reg .POWER_WAKE_STAT_FROM, .reg .QUARRY_CAPACITY_N_ACTIVE, .reg .QUARRY_ECC_CNT_CE,
    .reg .QUARRY_ECC_CNT_UE, .reg .QUARRY_LRMAP_MAP, .reg .QUARRY_LRMAP_SPARE, .reg .QUARRY_PORT_LAT_MAX_LAT, .reg .QUARRY_PORT_MISS_COUNT,
    .reg .QUARRY_PORT_STAT_OUTSTANDING, .reg .QUARRY_PORT_STAT_URG, .reg .QUARRY_RANK_STATE_STATE, .reg .QUARRY_STATUS_DEGRADED, .reg
    .QUARRY_STATUS_MIGRATING, .reg .QUARRY_UE_ADDR_HI_ADDR, .reg .QUARRY_UE_ADDR_HI_BANK, .reg .QUARRY_UE_ADDR_HI_RANK, .reg
    .QUARRY_UE_ADDR_LO_ADDR, .reg .SEC_MR_CNT_CNT, .reg .SEC_MR_VALUE, .reg .SYS_ERR_ADDR_HI_ADDR, .reg .SYS_ERR_ADDR_HI_MASTER, .reg
    .SYS_ERR_ADDR_HI_WRITE, .reg .SYS_ERR_ADDR_LO_ADDR, .reg .XSPI_LD_DONE_BYTES, .reg .XSPI_LD_RESUME_POINT, .reg .XSPI_LD_STAT_BUSY, .reg
    .XSPI_LD_STAT_DONE, .reg .XSPI_LD_STAT_RELEASED, .reg .XSPI_LD_STAT_STOP, .readData, .presented, .holdoff, .mem, .poison, .ldr, .pwr,
    .qry, .ben, .missed, .free] m) (a1 : List Byte) (a2 : List Byte) (a3 : List Byte) : Ends m s0 (execLoaderDone a1 a2 a3 s) := by
  unfold execLoaderDone
  try dsimp only
  repeat' first
    | with_reducible assumption
    | exact Within.trans (Eq.refl _) hw
    | (intro _)
    | with_reducible apply on_keeps
    | with_reducible apply act_keeps
    | with_reducible apply finishJob_keeps
    | with_reducible apply progress_keeps
    | with_reducible apply verifyImage_keeps
    | with_reducible apply Keeps.ite
    | with_reducible apply Ends.ite
    | with_reducible apply Ends.next
    | split

end Sys2Proof.Machine
end

