-- ==== Sys2Proof/Laws/PortsKeeps.lean ====
section
/-! SUPPORT. What the operations of Machine/Ports.lean keep: the queue, the invariant, and every part outside their footprint. -/

set_option maxRecDepth 4000
set_option linter.unusedTactic false
set_option linter.unreachableTactic false

namespace Sys2Proof.Machine

variable {m : Nat} {s0 s : State}

theorem touchPort_keeps (h : Keeps m s0 s) (hw : Within [.ports] m) (a1 : Nat) : Keeps m s0 (touchPort a1 s) := by
  unfold touchPort
  try dsimp only
  repeat' first
    | with_reducible assumption
    | exact Within.trans (Eq.refl _) hw
    | with_reducible apply State.setPort_keeps

theorem transfer_keeps (h : Keeps m s0 s) (hw : Within [.ports] m) (a1 : Nat) (a2 : State → State) (k2 : ∀ t, Keeps m s0 t → Keeps m s0
    (a2 t)) : Ends m s0 (transfer a1 a2 s) := by
  unfold transfer
  try dsimp only
  repeat' first
    | with_reducible assumption
    | exact Within.trans (Eq.refl _) hw
    | (intro _)
    | with_reducible apply on_keeps
    | with_reducible apply act_keeps
    | with_reducible apply touchPort_keeps
    | with_reducible apply k2
    | with_reducible apply Ends.ite
    | with_reducible apply Ends.next
    | split

theorem ccc_keeps (h : Keeps m s0 s) (hw : Within [.reg .POWER_STATUS_ENTERING, .reg .POWER_STATUS_EXITING, .reg .POWER_WAKE_STAT_CLASS,
    .reg .POWER_WAKE_STAT_FROM, .ports, .pwr] m) (a1 : Nat) (a2 : State → State) (k2 : ∀ t, Keeps m s0 t → Keeps m s0 (a2 t)) : Ends m s0
    (ccc a1 a2 s) := by
  unfold ccc
  try dsimp only
  repeat' first
    | with_reducible assumption
    | exact Within.trans (Eq.refl _) hw
    | (intro _)
    | with_reducible apply transfer_keeps
    | with_reducible apply wake_keeps
    | with_reducible apply k2
    | with_reducible apply Ends.ite
    | with_reducible apply Ends.next
    | split

theorem direct_keeps (h : Keeps m s0 s) (hw : Within [.reg .POWER_STATUS_ENTERING, .reg .POWER_STATUS_EXITING, .reg
    .POWER_WAKE_STAT_CLASS, .reg .POWER_WAKE_STAT_FROM, .ports, .pwr] m) (a1 : Nat) (a2 : State → State) (k2 : ∀ t, Keeps m s0 t → Keeps m
    s0 (a2 t)) : Ends m s0 (direct a1 a2 s) := by
  unfold direct
  try dsimp only
  repeat' first
    | with_reducible assumption
    | exact Within.trans (Eq.refl _) hw
    | (intro _)
    | with_reducible apply on_keeps
    | with_reducible apply act_keeps
    | with_reducible apply touchPort_keeps
    | with_reducible apply wake_keeps
    | with_reducible apply k2
    | with_reducible apply Ends.ite
    | with_reducible apply Ends.next
    | split

theorem answer_keeps (h : Keeps m s0 s) (hw : Within [.readData] m) (a1 : List Nat) : Keeps m s0 (answer a1 s) := by
  unfold answer
  try dsimp only
  repeat' first
    | with_reducible assumption
    | exact Within.trans (Eq.refl _) hw
    | (with_reducible apply Keeps.of_fields <;>
        first | with_reducible exact rfl | with_reducible exact Or.inl rfl | exact Or.inr (Within.trans (Eq.refl _) hw) | skip)

theorem setDynamic_keeps (h : Keeps m s0 s) (hw : Within [.reg .I3C_ADDR_STAT_DA, .reg .I3C_STATUS_DA_VALID, .reg .I3C_STATUS_I2C_MODE]
    m) (a1 : Nat) (a2 : Nat) : Keeps m s0 (setDynamic a1 a2 s) := by
  unfold setDynamic
  try dsimp only
  repeat' first
    | with_reducible assumption
    | exact Within.trans (Eq.refl _) hw
    | with_reducible apply wr_keeps

theorem assign_keeps (h : Keeps m s0 s) (hw : Within [.reg .EVT_PEND_PEND, .reg .EVT_RAW_RAW, .reg .I3C_ADDR_STAT_DA, .reg
    .I3C_STATUS_DA_VALID, .reg .I3C_STATUS_I2C_MODE, .presented] m) (a1 : Nat) (a2 : Nat) : Keeps m s0 (assign a1 a2 s) := by
  unfold assign
  try dsimp only
  repeat' first
    | with_reducible assumption
    | exact Within.trans (Eq.refl _) hw
    | with_reducible apply raise_keeps
    | with_reducible apply setDynamic_keeps

theorem clearDynamic_keeps (h : Keeps m s0 s) (hw : Within [.reg .I3C_ADDR_STAT_DA, .reg .I3C_STATUS_DA_VALID, .reg
    .I3C_STATUS_I2C_MODE] m) (a1 : Nat) : Keeps m s0 (clearDynamic a1 s) := by
  unfold clearDynamic
  try dsimp only
  repeat' first
    | with_reducible assumption
    | exact Within.trans (Eq.refl _) hw
    | with_reducible apply wr_keeps

theorem execEnec_keeps (h : Keeps m s0 s) (hw : Within [.reg .POWER_STATUS_ENTERING, .reg .POWER_STATUS_EXITING, .reg
    .POWER_WAKE_STAT_CLASS, .reg .POWER_WAKE_STAT_FROM, .ports, .pwr] m) (a1 : Fin 2) (a2 : Byte) : Ends m s0 (execEnec a1 a2 s) := by
  unfold execEnec
  try dsimp only
  repeat' first
    | with_reducible assumption
    | exact Within.trans (Eq.refl _) hw
    | (intro _)
    | with_reducible apply on_keeps
    | with_reducible apply State.setPort_keeps
    | with_reducible apply ccc_keeps
    | with_reducible apply Ends.ite
    | with_reducible apply Ends.next
    | split

theorem execDisec_keeps (h : Keeps m s0 s) (hw : Within [.reg .POWER_STATUS_ENTERING, .reg .POWER_STATUS_EXITING, .reg
    .POWER_WAKE_STAT_CLASS, .reg .POWER_WAKE_STAT_FROM, .ports, .pwr] m) (a1 : Fin 2) (a2 : Byte) : Ends m s0 (execDisec a1 a2 s) := by
  unfold execDisec
  try dsimp only
  repeat' first
    | with_reducible assumption
    | exact Within.trans (Eq.refl _) hw
    | (intro _)
    | with_reducible apply on_keeps
    | with_reducible apply State.setPort_keeps
    | with_reducible apply ccc_keeps
    | with_reducible apply Ends.ite
    | with_reducible apply Ends.next
    | split

theorem execEntas_keeps (h : Keeps m s0 s) (hw : Within [.ports] m) (a1 : Fin 2) (a2 : Fin 4) : Ends m s0 (execEntas a1 a2 s) := by
  unfold execEntas
  try dsimp only
  repeat' first
    | with_reducible assumption
    | exact Within.trans (Eq.refl _) hw
    | (intro _)
    | with_reducible apply transfer_keeps
    | with_reducible apply Ends.ite
    | with_reducible apply Ends.next
    | split
    | (unfold id; with_reducible assumption)

theorem execRstdaa_keeps (h : Keeps m s0 s) (hw : Within [.reg .I3C_ADDR_STAT_DA, .reg .I3C_STATUS_DA_VALID, .reg .I3C_STATUS_I2C_MODE,
    .ports] m) (a1 : Fin 2) : Ends m s0 (execRstdaa a1 s) := by
  unfold execRstdaa
  try dsimp only
  repeat' first
    | with_reducible assumption
    | exact Within.trans (Eq.refl _) hw
    | (intro _)
    | with_reducible apply clearDynamic_keeps
    | with_reducible apply transfer_keeps
    | with_reducible apply Ends.ite
    | with_reducible apply Ends.next
    | split

theorem execEntdaa_keeps (h : Keeps m s0 s) (hw : Within [.reg .EVT_PEND_PEND, .reg .EVT_RAW_RAW, .reg .I3C_ADDR_STAT_DA, .reg
    .I3C_STATUS_DA_VALID, .reg .I3C_STATUS_I2C_MODE, .presented, .ports] m) (a1 : Fin 2) (a2 : Option (BitVec 7)) : Ends m s0 (execEntdaa a1
    a2 s) := by
  unfold execEntdaa
  try dsimp only
  repeat' first
    | with_reducible assumption
    | exact Within.trans (Eq.refl _) hw
    | (intro _)
    | with_reducible apply on_keeps
    | with_reducible apply assign_keeps
    | with_reducible apply transfer_keeps
    | with_reducible apply Ends.ite
    | with_reducible apply Ends.next
    | split

theorem execSetmwl_keeps (h : Keeps m s0 s) (hw : Within [.reg .I3C_LIMITS_MWL, .reg .POWER_STATUS_ENTERING, .reg .POWER_STATUS_EXITING,
    .reg .POWER_WAKE_STAT_CLASS, .reg .POWER_WAKE_STAT_FROM, .ports, .pwr] m) (a1 : Fin 2) (a2 : BitVec 16) : Ends m s0 (execSetmwl a1 a2 s)
    := by
  unfold execSetmwl
  try dsimp only
  repeat' first
    | with_reducible assumption
    | exact Within.trans (Eq.refl _) hw
    | (intro _)
    | with_reducible apply wr_keeps
    | with_reducible apply ccc_keeps
    | with_reducible apply Ends.ite
    | with_reducible apply Ends.next
    | split

theorem execSetmrl_keeps (h : Keeps m s0 s) (hw : Within [.reg .I3C_LIMITS_MRL, .reg .POWER_STATUS_ENTERING, .reg .POWER_STATUS_EXITING,
    .reg .POWER_WAKE_STAT_CLASS, .reg .POWER_WAKE_STAT_FROM, .ports, .pwr] m) (a1 : Fin 2) (a2 : BitVec 16) : Ends m s0 (execSetmrl a1 a2 s)
    := by
  unfold execSetmrl
  try dsimp only
  repeat' first
    | with_reducible assumption
    | exact Within.trans (Eq.refl _) hw
    | (intro _)
    | with_reducible apply wr_keeps
    | with_reducible apply ccc_keeps
    | with_reducible apply Ends.ite
    | with_reducible apply Ends.next
    | split

theorem execEnthdr0_keeps (h : Keeps m s0 s) (hw : Within [.reg .I3C_STATUS_HDR, .ports] m) (a1 : Fin 2) : Ends m s0 (execEnthdr0 a1 s)
    := by
  unfold execEnthdr0
  try dsimp only
  repeat' first
    | with_reducible assumption
    | exact Within.trans (Eq.refl _) hw
    | (intro _)
    | with_reducible apply wr_keeps
    | with_reducible apply transfer_keeps
    | with_reducible apply Ends.ite
    | with_reducible apply Ends.next
    | split

theorem execHdrExit_keeps (h : Keeps m s0 s) (hw : Within [.reg .I3C_STATUS_HDR, .ports] m) (a1 : Fin 2) : Ends m s0 (execHdrExit a1 s)
    := by
  unfold execHdrExit
  try dsimp only
  repeat' first
    | with_reducible assumption
    | exact Within.trans (Eq.refl _) hw
    | (intro _)
    | with_reducible apply wr_keeps
    | with_reducible apply transfer_keeps
    | with_reducible apply Ends.ite
    | with_reducible apply Ends.next
    | split

theorem execSetaasa_keeps (h : Keeps m s0 s) (hw : Within [.reg .EVT_PEND_PEND, .reg .EVT_RAW_RAW, .reg .I3C_ADDR_STAT_DA, .reg
    .I3C_STATUS_DA_VALID, .reg .I3C_STATUS_I2C_MODE, .presented, .ports] m) (a1 : Fin 2) : Ends m s0 (execSetaasa a1 s) := by
  unfold execSetaasa
  try dsimp only
  repeat' first
    | with_reducible assumption
    | exact Within.trans (Eq.refl _) hw
    | (intro _)
    | with_reducible apply assign_keeps
    | with_reducible apply transfer_keeps
    | with_reducible apply Ends.ite
    | with_reducible apply Ends.next
    | split

theorem execSetdasa_keeps (h : Keeps m s0 s) (hw : Within [.reg .EVT_PEND_PEND, .reg .EVT_RAW_RAW, .reg .I3C_ADDR_STAT_DA, .reg
    .I3C_STATUS_DA_VALID, .reg .I3C_STATUS_I2C_MODE, .reg .POWER_STATUS_ENTERING, .reg .POWER_STATUS_EXITING, .reg .POWER_WAKE_STAT_CLASS,
    .reg .POWER_WAKE_STAT_FROM, .presented, .ports, .pwr] m) (a1 : Fin 2) (a2 : BitVec 7) : Ends m s0 (execSetdasa a1 a2 s) := by
  unfold execSetdasa
  try dsimp only
  repeat' first
    | with_reducible assumption
    | exact Within.trans (Eq.refl _) hw
    | (intro _)
    | with_reducible apply assign_keeps
    | with_reducible apply ccc_keeps
    | with_reducible apply Ends.ite
    | with_reducible apply Ends.next
    | split

theorem execSetnewda_keeps (h : Keeps m s0 s) (hw : Within [.reg .I3C_ADDR_STAT_DA, .reg .I3C_STATUS_DA_VALID, .reg
    .I3C_STATUS_I2C_MODE, .reg .POWER_STATUS_ENTERING, .reg .POWER_STATUS_EXITING, .reg .POWER_WAKE_STAT_CLASS, .reg .POWER_WAKE_STAT_FROM,
    .ports, .pwr] m) (a1 : Fin 2) (a2 : BitVec 7) : Ends m s0 (execSetnewda a1 a2 s) := by
  unfold execSetnewda
  try dsimp only
  repeat' first
    | with_reducible assumption
    | exact Within.trans (Eq.refl _) hw
    | (intro _)
    | with_reducible apply direct_keeps
    | with_reducible apply setDynamic_keeps
    | with_reducible apply Ends.ite
    | with_reducible apply Ends.next
    | split

theorem execGetmwl_keeps (h : Keeps m s0 s) (hw : Within [.reg .POWER_STATUS_ENTERING, .reg .POWER_STATUS_EXITING, .reg
    .POWER_WAKE_STAT_CLASS, .reg .POWER_WAKE_STAT_FROM, .readData, .ports, .pwr] m) (a1 : Fin 2) : Ends m s0 (execGetmwl a1 s) := by
  unfold execGetmwl
  try dsimp only
  repeat' first
    | with_reducible assumption
    | exact Within.trans (Eq.refl _) hw
    | (intro _)
    | with_reducible apply answer_keeps
    | with_reducible apply direct_keeps
    | with_reducible apply Ends.ite
    | with_reducible apply Ends.next
    | split

theorem execGetmrl_keeps (h : Keeps m s0 s) (hw : Within [.reg .POWER_STATUS_ENTERING, .reg .POWER_STATUS_EXITING, .reg
    .POWER_WAKE_STAT_CLASS, .reg .POWER_WAKE_STAT_FROM, .readData, .ports, .pwr] m) (a1 : Fin 2) : Ends m s0 (execGetmrl a1 s) := by
  unfold execGetmrl
  try dsimp only
  repeat' first
    | with_reducible assumption
    | exact Within.trans (Eq.refl _) hw
    | (intro _)
    | with_reducible apply answer_keeps
    | with_reducible apply direct_keeps
    | with_reducible apply Ends.ite
    | with_reducible apply Ends.next
    | split

theorem execGetpid_keeps (h : Keeps m s0 s) (hw : Within [.reg .POWER_STATUS_ENTERING, .reg .POWER_STATUS_EXITING, .reg
    .POWER_WAKE_STAT_CLASS, .reg .POWER_WAKE_STAT_FROM, .readData, .ports, .pwr] m) (a1 : Fin 2) : Ends m s0 (execGetpid a1 s) := by
  unfold execGetpid
  try dsimp only
  repeat' first
    | with_reducible assumption
    | exact Within.trans (Eq.refl _) hw
    | (intro _)
    | with_reducible apply answer_keeps
    | with_reducible apply direct_keeps
    | with_reducible apply Ends.ite
    | with_reducible apply Ends.next
    | split

theorem execGetbcr_keeps (h : Keeps m s0 s) (hw : Within [.reg .POWER_STATUS_ENTERING, .reg .POWER_STATUS_EXITING, .reg
    .POWER_WAKE_STAT_CLASS, .reg .POWER_WAKE_STAT_FROM, .readData, .ports, .pwr] m) (a1 : Fin 2) : Ends m s0 (execGetbcr a1 s) := by
  unfold execGetbcr
  try dsimp only
  repeat' first
    | with_reducible assumption
    | exact Within.trans (Eq.refl _) hw
    | (intro _)
    | with_reducible apply answer_keeps
    | with_reducible apply direct_keeps
    | with_reducible apply Ends.ite
    | with_reducible apply Ends.next
    | split

theorem execGetdcr_keeps (h : Keeps m s0 s) (hw : Within [.reg .POWER_STATUS_ENTERING, .reg .POWER_STATUS_EXITING, .reg
    .POWER_WAKE_STAT_CLASS, .reg .POWER_WAKE_STAT_FROM, .readData, .ports, .pwr] m) (a1 : Fin 2) : Ends m s0 (execGetdcr a1 s) := by
  unfold execGetdcr
  try dsimp only
  repeat' first
    | with_reducible assumption
    | exact Within.trans (Eq.refl _) hw
    | (intro _)
    | with_reducible apply answer_keeps
    | with_reducible apply direct_keeps
    | with_reducible apply Ends.ite
    | with_reducible apply Ends.next
    | split

theorem execGetmxds_keeps (h : Keeps m s0 s) (hw : Within [.reg .POWER_STATUS_ENTERING, .reg .POWER_STATUS_EXITING, .reg
    .POWER_WAKE_STAT_CLASS, .reg .POWER_WAKE_STAT_FROM, .readData, .ports, .pwr] m) (a1 : Fin 2) : Ends m s0 (execGetmxds a1 s) := by
  unfold execGetmxds
  try dsimp only
  repeat' first
    | with_reducible assumption
    | exact Within.trans (Eq.refl _) hw
    | (intro _)
    | with_reducible apply answer_keeps
    | with_reducible apply direct_keeps
    | with_reducible apply Ends.ite
    | with_reducible apply Ends.next
    | split

theorem execGetcaps_keeps (h : Keeps m s0 s) (hw : Within [.reg .POWER_STATUS_ENTERING, .reg .POWER_STATUS_EXITING, .reg
    .POWER_WAKE_STAT_CLASS, .reg .POWER_WAKE_STAT_FROM, .readData, .ports, .pwr] m) (a1 : Fin 2) : Ends m s0 (execGetcaps a1 s) := by
  unfold execGetcaps
  try dsimp only
  repeat' first
    | with_reducible assumption
    | exact Within.trans (Eq.refl _) hw
    | (intro _)
    | with_reducible apply answer_keeps
    | with_reducible apply direct_keeps
    | with_reducible apply Ends.ite
    | with_reducible apply Ends.next
    | split

theorem execGetstatus_keeps (h : Keeps m s0 s) (hw : Within [.reg .POWER_STATUS_ENTERING, .reg .POWER_STATUS_EXITING, .reg
    .POWER_WAKE_STAT_CLASS, .reg .POWER_WAKE_STAT_FROM, .readData, .ports, .pwr] m) (a1 : Fin 2) : Ends m s0 (execGetstatus a1 s) := by
  unfold execGetstatus
  try dsimp only
  repeat' first
    | with_reducible assumption
    | exact Within.trans (Eq.refl _) hw
    | (intro _)
    | with_reducible apply State.setPort_keeps
    | with_reducible apply answer_keeps
    | with_reducible apply direct_keeps
    | with_reducible apply Keeps.ite
    | with_reducible apply Ends.ite
    | with_reducible apply Ends.next
    | split

theorem dropOpenPacket_keeps (h : Keeps m s0 s) (hw : Within [.reg .TACK_PUSH_STAT_DISCARDING, .reg .TACK_PUSH_STAT_OPEN, .reg
    .TACK_PUSH_STAT_WORDS_LEFT, .reg .TACK_QLEVEL_FLUSH_BUSY, .staging] m) (a1 : Nat) : Keeps m s0 (dropOpenPacket a1 s) := by
  unfold dropOpenPacket
  try dsimp only
  repeat' first
    | with_reducible assumption
    | exact Within.trans (Eq.refl _) hw
    | with_reducible apply pushAbort_keeps
    | with_reducible apply Keeps.ite
    | split

theorem endSession_keeps (h : Keeps m s0 s) (hw : Within [.reg .EVT_PEND_PEND, .reg .EVT_RAW_RAW, .reg .I3C_STATUS_SECURE, .presented]
    m) (a1 : Nat) : Keeps m s0 (endSession a1 s) := by
  unfold endSession
  try dsimp only
  repeat' first
    | with_reducible assumption
    | exact Within.trans (Eq.refl _) hw
    | with_reducible apply wr_keeps
    | with_reducible apply raise_keeps
    | with_reducible apply Keeps.ite
    | split

theorem resetPort_keeps (h : Keeps m s0 s) (hw : Within [.reg .EVT_PEND_PEND, .reg .EVT_RAW_RAW, .reg .I3C_ADDR_STAT_DA, .reg
    .I3C_PTR_HI_ADDR, .reg .I3C_PTR_HI_INC, .reg .I3C_PTR_LO_ADDR, .reg .I3C_STATUS_DA_VALID, .reg .I3C_STATUS_I2C_MODE, .reg
    .I3C_STATUS_SECURE, .reg .I3C_STATUS_TUN_BUSY, .reg .TACK_PUSH_STAT_DISCARDING, .reg .TACK_PUSH_STAT_OPEN, .reg
    .TACK_PUSH_STAT_WORDS_LEFT, .reg .TACK_QLEVEL_FLUSH_BUSY, .presented, .staging, .ports] m) (a1 : Nat) : Keeps m s0 (resetPort a1 s) :=
    by
  unfold resetPort
  try dsimp only
  repeat' first
    | with_reducible assumption
    | exact Within.trans (Eq.refl _) hw
    | with_reducible apply wr_keeps
    | with_reducible apply rst_keeps
    | with_reducible apply State.setPort_keeps
    | with_reducible apply clearDynamic_keeps
    | with_reducible apply dropOpenPacket_keeps
    | with_reducible apply endSession_keeps

theorem execRstactPort_keeps (h : Keeps m s0 s) (hw : Within [.reg .EVT_PEND_PEND, .reg .EVT_RAW_RAW, .reg .I3C_ADDR_STAT_DA, .reg
    .I3C_PTR_HI_ADDR, .reg .I3C_PTR_HI_INC, .reg .I3C_PTR_LO_ADDR, .reg .I3C_STATUS_DA_VALID, .reg .I3C_STATUS_I2C_MODE, .reg
    .I3C_STATUS_SECURE, .reg .I3C_STATUS_TUN_BUSY, .reg .POWER_STATUS_ENTERING, .reg .POWER_STATUS_EXITING, .reg .POWER_WAKE_STAT_CLASS,
    .reg .POWER_WAKE_STAT_FROM, .reg .TACK_PUSH_STAT_DISCARDING, .reg .TACK_PUSH_STAT_OPEN, .reg .TACK_PUSH_STAT_WORDS_LEFT, .reg
    .TACK_QLEVEL_FLUSH_BUSY, .presented, .staging, .ports, .pwr] m) (a1 : Fin 2) (a2 : Byte) : Ends m s0 (execRstactPort a1 a2 s) := by
  unfold execRstactPort
  try dsimp only
  repeat' first
    | with_reducible assumption
    | exact Within.trans (Eq.refl _) hw
    | (intro _)
    | with_reducible apply on_keeps
    | with_reducible apply State.setPort_keeps
    | with_reducible apply ccc_keeps
    | with_reducible apply raise_keeps
    | with_reducible apply resetPort_keeps
    | with_reducible apply Keeps.ite
    | with_reducible apply Ends.ite
    | with_reducible apply Ends.next
    | split

theorem execRstactQuery_keeps (h : Keeps m s0 s) (hw : Within [.reg .POWER_STATUS_ENTERING, .reg .POWER_STATUS_EXITING, .reg
    .POWER_WAKE_STAT_CLASS, .reg .POWER_WAKE_STAT_FROM, .readData, .ports, .pwr] m) (a1 : Fin 2) : Ends m s0 (execRstactQuery a1 s) := by
  unfold execRstactQuery
  try dsimp only
  repeat' first
    | with_reducible assumption
    | exact Within.trans (Eq.refl _) hw
    | (intro _)
    | with_reducible apply answer_keeps
    | with_reducible apply ccc_keeps
    | with_reducible apply Ends.ite
    | with_reducible apply Ends.next
    | split

theorem failFrame_keeps (h : Keeps m s0 s) (hw : Within [.reg .EVT_PEND_PEND, .reg .EVT_RAW_RAW, .reg .I3C_FRAME_STAT_FRAME_ERR, .reg
    .I3C_FRAME_STAT_LAST_ERR, .presented, .ports] m) (a1 : Nat) (a2 : Nat) : Keeps m s0 (failFrame a1 a2 s) := by
  unfold failFrame
  try dsimp only
  repeat' first
    | with_reducible assumption
    | exact Within.trans (Eq.refl _) hw
    | with_reducible apply wr_keeps
    | with_reducible apply inc_keeps
    | with_reducible apply State.setPort_keeps
    | with_reducible apply raise_keeps

theorem takeFrame_keeps (h : Keeps m s0 s) (hw : Within [.reg .EVT_PEND_PEND, .reg .EVT_RAW_RAW, .reg .I3C_FRAME_STAT_FRAME_ERR, .reg
    .I3C_FRAME_STAT_LAST_ERR, .reg .POWER_STATUS_ENTERING, .reg .POWER_STATUS_EXITING, .reg .POWER_WAKE_STAT_CLASS, .reg
    .POWER_WAKE_STAT_FROM, .presented, .ports, .pwr] m) (a1 : Nat) (a2 : Nat) (a3 : List Byte) (a4 : Fin 3) (a5 : Frame → State → State) (k5
    : ∀ x t, Keeps m s0 t → Keeps m s0 (a5 x t)) : Ends m s0 (takeFrame a1 a2 a3 a4 a5 s) := by
  unfold takeFrame
  try dsimp only
  repeat' first
    | with_reducible assumption
    | exact Within.trans (Eq.refl _) hw
    | (intro _)
    | with_reducible apply State.setPort_keeps
    | with_reducible apply failFrame_keeps
    | with_reducible apply transfer_keeps
    | with_reducible apply wake_keeps
    | with_reducible apply k5
    | with_reducible apply Keeps.ite
    | with_reducible apply Ends.ite
    | with_reducible apply Ends.next
    | split

theorem startTunnel_keeps (h : Keeps m s0 s) (hw : Within [.reg .I3C_STATUS_TUN_BUSY, .ports] m) (a1 : Nat) (a2 : TunnelOp) (a3 : Nat)
    (a4 : Nat) (a5 : List Byte) : Keeps m s0 (startTunnel a1 a2 a3 a4 a5 s) := by
  unfold startTunnel
  try dsimp only
  repeat' first
    | with_reducible assumption
    | exact Within.trans (Eq.refl _) hw
    | with_reducible apply wr_keeps
    | with_reducible apply State.setPort_keeps
    | with_reducible apply Keeps.ite
    | split

theorem execMemWrite_keeps (h : Keeps m s0 s) (hw : Within [.reg .EVT_PEND_PEND, .reg .EVT_RAW_RAW, .reg .I3C_FRAME_STAT_FRAME_ERR, .reg
    .I3C_FRAME_STAT_LAST_ERR, .reg .I3C_STATUS_TUN_BUSY, .reg .POWER_STATUS_ENTERING, .reg .POWER_STATUS_EXITING, .reg
    .POWER_WAKE_STAT_CLASS, .reg .POWER_WAKE_STAT_FROM, .presented, .ports, .pwr] m) (a1 : Fin 2) (a2 : List Byte) (a3 : Fin 3) : Ends m s0
    (execMemWrite a1 a2 a3 s) := by
  unfold execMemWrite
  try dsimp only
  repeat' first
    | with_reducible assumption
    | exact Within.trans (Eq.refl _) hw
    | (intro _)
    | with_reducible apply startTunnel_keeps
    | with_reducible apply takeFrame_keeps
    | with_reducible apply Ends.ite
    | with_reducible apply Ends.next
    | split

theorem execMemFetch_keeps (h : Keeps m s0 s) (hw : Within [.reg .EVT_PEND_PEND, .reg .EVT_RAW_RAW, .reg .I3C_FRAME_STAT_FRAME_ERR, .reg
    .I3C_FRAME_STAT_LAST_ERR, .reg .I3C_STATUS_TUN_BUSY, .reg .POWER_STATUS_ENTERING, .reg .POWER_STATUS_EXITING, .reg
    .POWER_WAKE_STAT_CLASS, .reg .POWER_WAKE_STAT_FROM, .presented, .ports, .pwr] m) (a1 : Fin 2) (a2 : List Byte) (a3 : Fin 3) : Ends m s0
    (execMemFetch a1 a2 a3 s) := by
  unfold execMemFetch
  try dsimp only
  repeat' first
    | with_reducible assumption
    | exact Within.trans (Eq.refl _) hw
    | (intro _)
    | with_reducible apply startTunnel_keeps
    | with_reducible apply takeFrame_keeps
    | with_reducible apply Ends.ite
    | with_reducible apply Ends.next
    | split

theorem endTunnel_keeps (h : Keeps m s0 s) (hw : Within [.reg .I3C_STATUS_TUN_BUSY, .ports] m) (a1 : Nat) (a2 : Outcome) (a3 : List
    Byte) : Keeps m s0 (endTunnel a1 a2 a3 s) := by
  unfold endTunnel
  try dsimp only
  repeat' first
    | with_reducible assumption
    | exact Within.trans (Eq.refl _) hw
    | with_reducible apply wr_keeps
    | with_reducible apply State.setPort_keeps

theorem tunnelDone_keeps (h : Keeps m s0 s) (hw : Within [.reg .BENCH_ALIAS_LAST_PRIOR, .reg .BENCH_ALIAS_STAT_POISON, .reg
    .BENCH_ALIAS_STAT_VALID, .reg .BENCH_BENCH_HEALTH_HEALTH, .reg .BENCH_BIST_STAT_PHASE, .reg .BENCH_BPWR_STAT_STATE, .reg
    .BENCH_COLL_CNT_COUNT, .reg .BENCH_COLL_STAT_STREAMER, .reg .BENCH_ECC_CNT_CE, .reg .BENCH_ECC_CNT_UE, .reg .BENCH_STATUS_BIST_BUSY,
    .reg .BENCH_STATUS_SPARE_FREE, .reg .BENCH_UE_ADDR_IN_SPARE, .reg .BENCH_UE_ADDR_OFFSET, .reg .ERR_CODE_CODE, .reg .ERR_CODE_MASTER,
    .reg .ERR_CODE_OVF, .reg .ERR_CODE_WORD, .reg .ERR_CODE_WRITE, .reg .EVT_PEND_PEND, .reg .EVT_RAW_RAW, .reg .I3C_STATUS_TUN_BUSY, .reg
    .POWER_STATUS_ENTERING, .reg .POWER_STATUS_EXITING, .reg .POWER_WAKE_STAT_CLASS, .reg .POWER_WAKE_STAT_FROM, .reg
    .QUARRY_CAPACITY_N_ACTIVE, .reg .QUARRY_ECC_CNT_CE, .reg .QUARRY_ECC_CNT_UE, .reg .QUARRY_LRMAP_MAP, .reg .QUARRY_LRMAP_SPARE, .reg
    .QUARRY_PORT_LAT_MAX_LAT, .reg .QUARRY_PORT_MISS_COUNT, .reg .QUARRY_PORT_STAT_OUTSTANDING, .reg .QUARRY_PORT_STAT_URG, .reg
    .QUARRY_RANK_STATE_STATE, .reg .QUARRY_STATUS_DEGRADED, .reg .QUARRY_STATUS_MIGRATING, .reg .QUARRY_UE_ADDR_HI_ADDR, .reg
    .QUARRY_UE_ADDR_HI_BANK, .reg .QUARRY_UE_ADDR_HI_RANK, .reg .QUARRY_UE_ADDR_LO_ADDR, .reg .SYS_ERR_ADDR_HI_ADDR, .reg
    .SYS_ERR_ADDR_HI_MASTER, .reg .SYS_ERR_ADDR_HI_WRITE, .reg .SYS_ERR_ADDR_LO_ADDR, .readData, .presented, .holdoff, .mem, .poison,
    .ports, .pwr, .qry, .ben, .missed, .free] m) (a1 : Nat) : Keeps m s0 (tunnelDone a1 s) := by
  unfold tunnelDone
  try dsimp only
  repeat' first
    | with_reducible assumption
    | exact Within.trans (Eq.refl _) hw
    | with_reducible apply busRead_keeps
    | with_reducible apply busWrite_keeps
    | with_reducible apply endTunnel_keeps
    | with_reducible apply recordErr_keeps
    | with_reducible apply Keeps.ite
    | split
    | with_reducible refine Keeps.of_snd (by assumption) ?_

theorem execTunnelDone_keeps (h : Keeps m s0 s) (hw : Within [.reg .BENCH_ALIAS_LAST_PRIOR, .reg .BENCH_ALIAS_STAT_POISON, .reg
    .BENCH_ALIAS_STAT_VALID, .reg .BENCH_BENCH_HEALTH_HEALTH, .reg .BENCH_BIST_STAT_PHASE, .reg .BENCH_BPWR_STAT_STATE, .reg
    .BENCH_COLL_CNT_COUNT, .reg .BENCH_COLL_STAT_STREAMER, .reg .BENCH_ECC_CNT_CE, .reg .BENCH_ECC_CNT_UE, .reg .BENCH_STATUS_BIST_BUSY,
    .reg .BENCH_STATUS_SPARE_FREE, .reg .BENCH_UE_ADDR_IN_SPARE, .reg .BENCH_UE_ADDR_OFFSET, .reg .ERR_CODE_CODE, .reg .ERR_CODE_MASTER,
    .reg .ERR_CODE_OVF, .reg .ERR_CODE_WORD, .reg .ERR_CODE_WRITE, .reg .EVT_PEND_PEND, .reg .EVT_RAW_RAW, .reg .I3C_STATUS_TUN_BUSY, .reg
    .POWER_STATUS_ENTERING, .reg .POWER_STATUS_EXITING, .reg .POWER_WAKE_STAT_CLASS, .reg .POWER_WAKE_STAT_FROM, .reg
    .QUARRY_CAPACITY_N_ACTIVE, .reg .QUARRY_ECC_CNT_CE, .reg .QUARRY_ECC_CNT_UE, .reg .QUARRY_LRMAP_MAP, .reg .QUARRY_LRMAP_SPARE, .reg
    .QUARRY_PORT_LAT_MAX_LAT, .reg .QUARRY_PORT_MISS_COUNT, .reg .QUARRY_PORT_STAT_OUTSTANDING, .reg .QUARRY_PORT_STAT_URG, .reg
    .QUARRY_RANK_STATE_STATE, .reg .QUARRY_STATUS_DEGRADED, .reg .QUARRY_STATUS_MIGRATING, .reg .QUARRY_UE_ADDR_HI_ADDR, .reg
    .QUARRY_UE_ADDR_HI_BANK, .reg .QUARRY_UE_ADDR_HI_RANK, .reg .QUARRY_UE_ADDR_LO_ADDR, .reg .SYS_ERR_ADDR_HI_ADDR, .reg
    .SYS_ERR_ADDR_HI_MASTER, .reg .SYS_ERR_ADDR_HI_WRITE, .reg .SYS_ERR_ADDR_LO_ADDR, .readData, .presented, .holdoff, .mem, .poison,
    .ports, .pwr, .qry, .ben, .missed, .free] m) (a1 : Fin 2) : Ends m s0 (execTunnelDone a1 s) := by
  unfold execTunnelDone
  try dsimp only
  repeat' first
    | with_reducible assumption
    | exact Within.trans (Eq.refl _) hw
    | (intro _)
    | with_reducible apply on_keeps
    | with_reducible apply act_keeps
    | with_reducible apply tunnelDone_keeps
    | with_reducible apply Ends.ite
    | with_reducible apply Ends.next
    | split

theorem tunnelRead_keeps (h : Keeps m s0 s) (hw : Within [.reg .I3C_TUN_STAT_LAST, .reg .I3C_TUN_STAT_RETRY_CNT, .readData, .ports] m)
    (a1 : Nat) (a2 : Nat) : Keeps m s0 (tunnelRead a1 a2 s) := by
  unfold tunnelRead
  try dsimp only
  repeat' first
    | with_reducible assumption
    | exact Within.trans (Eq.refl _) hw
    | with_reducible apply wr_keeps
    | with_reducible apply inc_keeps
    | with_reducible apply State.setPort_keeps
    | with_reducible apply Keeps.ite
    | split
    | (with_reducible apply Keeps.of_fields <;>
        first | with_reducible exact rfl | with_reducible exact Or.inl rfl | exact Or.inr (Within.trans (Eq.refl _) hw) | skip)

theorem execTunnelRead_keeps (h : Keeps m s0 s) (hw : Within [.reg .I3C_TUN_STAT_LAST, .reg .I3C_TUN_STAT_RETRY_CNT, .readData, .ports]
    m) (a1 : Fin 2) (a2 : Fin 256) : Ends m s0 (execTunnelRead a1 a2 s) := by
  unfold execTunnelRead
  try dsimp only
  repeat' first
    | with_reducible assumption
    | exact Within.trans (Eq.refl _) hw
    | (intro _)
    | with_reducible apply on_keeps
    | with_reducible apply transfer_keeps
    | with_reducible apply tunnelRead_keeps
    | with_reducible apply Ends.ite
    | with_reducible apply Ends.next
    | split

theorem sendIbi_keeps (h : Keeps m s0 s) (hw : Within [.reg .EVT_PEND_PEND, .reg .EVT_RAW_RAW, .reg .I3C_IBI_CNT_NACKS, .reg
    .I3C_IBI_CNT_SENT, .readData, .presented, .ports] m) (a1 : Nat) (a2 : Bool) : Keeps m s0 (sendIbi a1 a2 s) := by
  unfold sendIbi
  try dsimp only
  repeat' first
    | with_reducible assumption
    | exact Within.trans (Eq.refl _) hw
    | with_reducible apply inc_keeps
    | with_reducible apply State.setPort_keeps
    | with_reducible apply answer_keeps
    | with_reducible apply raise_keeps
    | with_reducible apply Keeps.ite
    | split
    | with_reducible apply KeepsOpt.getD

theorem execIbiRequest_keeps (h : Keeps m s0 s) (hw : Within [.reg .EVT_PEND_PEND, .reg .EVT_RAW_RAW, .reg .I3C_IBI_CNT_NACKS, .reg
    .I3C_IBI_CNT_SENT, .readData, .presented, .ports] m) (a1 : Fin 2) (a2 : Bool) : Ends m s0 (execIbiRequest a1 a2 s) := by
  unfold execIbiRequest
  try dsimp only
  repeat' first
    | with_reducible assumption
    | exact Within.trans (Eq.refl _) hw
    | (intro _)
    | with_reducible apply on_keeps
    | with_reducible apply act_keeps
    | with_reducible apply sendIbi_keeps
    | with_reducible apply Ends.ite
    | with_reducible apply Ends.next
    | split

theorem loseHealth_keeps (h : Keeps m s0 s) (hw : Within [.reg .EVT_PEND_PEND, .reg .EVT_RAW_RAW, .reg .I3C_STATUS_HEALTHY, .reg
    .I3C_STATUS_SECURE, .presented, .ports] m) (a1 : Nat) : Keeps m s0 (loseHealth a1 s) := by
  unfold loseHealth
  try dsimp only
  repeat' first
    | with_reducible assumption
    | exact Within.trans (Eq.refl _) hw
    | with_reducible apply wr_keeps
    | with_reducible apply State.setPort_keeps
    | with_reducible apply endSession_keeps
    | with_reducible apply raise_keeps
    | with_reducible apply Keeps.ite
    | split

theorem execPortHealthLost_keeps (h : Keeps m s0 s) (hw : Within [.reg .EVT_PEND_PEND, .reg .EVT_RAW_RAW, .reg .I3C_STATUS_HEALTHY, .reg
    .I3C_STATUS_SECURE, .presented, .ports] m) (a1 : Fin 2) (a2 : Bool) : Ends m s0 (execPortHealthLost a1 a2 s) := by
  unfold execPortHealthLost
  try dsimp only
  repeat' first
    | with_reducible assumption
    | exact Within.trans (Eq.refl _) hw
    | (intro _)
    | with_reducible apply on_keeps
    | with_reducible apply act_keeps
    | with_reducible apply State.setPort_keeps
    | with_reducible apply loseHealth_keeps
    | with_reducible apply Keeps.ite
    | with_reducible apply Ends.ite
    | with_reducible apply Ends.next
    | split

theorem execPortHealthReturn_keeps (h : Keeps m s0 s) (hw : Within [.reg .I3C_STATUS_HEALTHY, .ports] m) (a1 : Fin 2) : Ends m s0
    (execPortHealthReturn a1 s) := by
  unfold execPortHealthReturn
  try dsimp only
  repeat' first
    | with_reducible assumption
    | exact Within.trans (Eq.refl _) hw
    | (intro _)
    | with_reducible apply wr_keeps
    | with_reducible apply on_keeps
    | with_reducible apply act_keeps
    | with_reducible apply State.setPort_keeps
    | with_reducible apply Ends.ite
    | with_reducible apply Ends.next
    | split

theorem writeLinkCfg_keeps (h : Keeps m s0 s) (hw : Within [.reg .EVT_PEND_PEND, .reg .EVT_RAW_RAW, .reg .I3C_LINK_CFG_ALERT_EN, .reg
    .I3C_LINK_CFG_ALLOW_DEV_RESET, .reg .I3C_LINK_CFG_EN, .reg .I3C_LINK_CFG_WD, .reg .I3C_STATUS_HEALTHY, .reg .I3C_STATUS_SECURE,
    .presented, .ports] m) (a1 : Nat) (a2 : Nat) : Keeps m s0 (writeLinkCfg a1 a2 s) := by
  unfold writeLinkCfg
  try dsimp only
  repeat' first
    | with_reducible assumption
    | exact Within.trans (Eq.refl _) hw
    | with_reducible apply wr_keeps
    | with_reducible apply State.setPort_keeps
    | with_reducible apply loseHealth_keeps
    | with_reducible apply Keeps.ite
    | split

theorem writeLinkCtl_keeps (h : Keeps m s0 s) (hw : Within [.reg .ERR_CODE_CODE, .reg .ERR_CODE_MASTER, .reg .ERR_CODE_OVF, .reg
    .ERR_CODE_WORD, .reg .ERR_CODE_WRITE, .ports] m) (a1 : Nat) (a2 : Nat) (a3 : Nat) : Keeps m s0 (writeLinkCtl a1 a2 a3 s) := by
  unfold writeLinkCtl
  try dsimp only
  repeat' first
    | with_reducible assumption
    | exact Within.trans (Eq.refl _) hw
    | with_reducible apply State.setPort_keeps
    | with_reducible apply recordErr_keeps
    | with_reducible apply Keeps.ite
    | split

theorem execAdopt_keeps (h : Keeps m s0 s) (hw : Within [.reg .ERR_CODE_CODE, .reg .ERR_CODE_MASTER, .reg .ERR_CODE_OVF, .reg
    .ERR_CODE_WORD, .reg .ERR_CODE_WRITE, .reg .POWER_STATUS_ENTERING, .reg .POWER_STATUS_EXITING, .reg .POWER_WAKE_STAT_CLASS, .reg
    .POWER_WAKE_STAT_FROM, .ports, .pwr] m) (a1 : Master) (a2 : Fin 2) : Ends m s0 (execAdopt a1 a2 s) := by
  unfold execAdopt
  try dsimp only
  repeat' first
    | with_reducible assumption
    | exact Within.trans (Eq.refl _) hw
    | (intro _)
    | with_reducible apply act_keeps
    | with_reducible apply gateBy_keeps
    | with_reducible apply writeLinkCtl_keeps
    | with_reducible apply Ends.ite
    | with_reducible apply Ends.next
    | split

theorem moveOwner_keeps (h : Keeps m s0 s) (a1 : Reg) (hw : Within [.reg a1] m) (a2 a3 a4 a5 : Nat) :
    Keeps m s0 (moveOwner a1 a2 a3 a4 a5 s) := Keeps.ite (wr_keeps h hw ..) h

theorem adopt_keeps (h : Keeps m s0 s) (hw : Within [.reg .EVT_PEND_PEND, .reg .EVT_RAW_RAW, .reg .HARNESS_CAPU_CFG_OWNER, .reg
    .HARNESS_LINE_CFG_OWNER, .reg .OWNER_MASTER, .reg .PAT_PIN_CFG_OWNER, .reg .TBASE_LC_CTRL_OWNER, .presented, .ports] m) (a1 : Nat) :
    Keeps m s0 (adopt a1 s) := by
  unfold adopt
  try dsimp only
  repeat' first
    | with_reducible assumption
    | exact Within.trans (Eq.refl _) hw
    | (intro _)
    | with_reducible apply each_keeps
    | with_reducible apply State.setPort_keeps
    | with_reducible apply moveOwner_keeps
    | with_reducible apply raise_keeps

theorem execAdopted_keeps (h : Keeps m s0 s) (hw : Within [.reg .EVT_PEND_PEND, .reg .EVT_RAW_RAW, .reg .HARNESS_CAPU_CFG_OWNER, .reg
    .HARNESS_LINE_CFG_OWNER, .reg .OWNER_MASTER, .reg .PAT_PIN_CFG_OWNER, .reg .TBASE_LC_CTRL_OWNER, .presented, .ports] m) (a1 : Fin 2) :
    Ends m s0 (execAdopted a1 s) := by
  unfold execAdopted
  try dsimp only
  repeat' first
    | with_reducible assumption
    | exact Within.trans (Eq.refl _) hw
    | (intro _)
    | with_reducible apply on_keeps
    | with_reducible apply act_keeps
    | with_reducible apply adopt_keeps
    | with_reducible apply Ends.ite
    | with_reducible apply Ends.next
    | split

end Sys2Proof.Machine
end

