-- ==== Sys2Proof/Laws/QuarryKeeps.lean ====
section
/-! SUPPORT. What the operations of Machine/Quarry.lean keep: the queue, the invariant, and every part outside their footprint. -/

set_option maxRecDepth 4000
set_option linter.unusedTactic false
set_option linter.unreachableTactic false

namespace Sys2Proof.Machine

variable {m : Nat} {s0 s : State}

theorem acceptRequest_keeps (h : Keeps m s0 s) (hw : Within [.reg .BENCH_ALIAS_LAST_PRIOR, .reg .BENCH_ALIAS_STAT_POISON, .reg
    .BENCH_ALIAS_STAT_VALID, .reg .BENCH_BENCH_HEALTH_HEALTH, .reg .BENCH_BIST_STAT_PHASE, .reg .BENCH_BPWR_STAT_STATE, .reg
    .BENCH_COLL_CNT_COUNT, .reg .BENCH_COLL_STAT_STREAMER, .reg .BENCH_ECC_CNT_CE, .reg .BENCH_ECC_CNT_UE, .reg .BENCH_STATUS_BIST_BUSY,
    .reg .BENCH_STATUS_SPARE_FREE, .reg .BENCH_UE_ADDR_IN_SPARE, .reg .BENCH_UE_ADDR_OFFSET, .reg .ERR_CODE_CODE, .reg .ERR_CODE_MASTER,
    .reg .ERR_CODE_OVF, .reg .ERR_CODE_WORD, .reg .ERR_CODE_WRITE, .reg .EVT_PEND_PEND, .reg .EVT_RAW_RAW, .reg .POWER_STATUS_ENTERING, .reg
    .POWER_STATUS_EXITING, .reg .POWER_WAKE_STAT_CLASS, .reg .POWER_WAKE_STAT_FROM, .reg .QUARRY_CAPACITY_N_ACTIVE, .reg .QUARRY_ECC_CNT_CE,
    .reg .QUARRY_ECC_CNT_UE, .reg .QUARRY_LRMAP_MAP, .reg .QUARRY_LRMAP_SPARE, .reg .QUARRY_PORT_STAT_OUTSTANDING, .reg
    .QUARRY_PORT_STAT_URG, .reg .QUARRY_RANK_STATE_STATE, .reg .QUARRY_STATUS_DEGRADED, .reg .QUARRY_STATUS_MIGRATING, .reg
    .QUARRY_UE_ADDR_HI_ADDR, .reg .QUARRY_UE_ADDR_HI_BANK, .reg .QUARRY_UE_ADDR_HI_RANK, .reg .QUARRY_UE_ADDR_LO_ADDR, .reg
    .SYS_ERR_ADDR_HI_ADDR, .reg .SYS_ERR_ADDR_HI_MASTER, .reg .SYS_ERR_ADDR_HI_WRITE, .reg .SYS_ERR_ADDR_LO_ADDR, .readData, .presented,
    .holdoff, .mem, .poison, .pwr, .qry, .ben, .missed, .free] m) (a1 : Nat) (a2 : Bool) (a3 : Nat) (a4 : Nat) (a5 : List Byte) : Keeps m s0
    (acceptRequest a1 a2 a3 a4 a5 s) := by
  unfold acceptRequest
  try dsimp only
  repeat' first
    | with_reducible assumption
    | exact Within.trans (Eq.refl _) hw
    | with_reducible apply denyMem_keeps
    | with_reducible apply memWrite_keeps
    | with_reducible apply recordErr_keeps
    | with_reducible apply refreshPort_keeps
    | with_reducible apply settleHeld_keeps
    | with_reducible apply Keeps.ite
    | split
    | (unfold id; with_reducible assumption)
    | (with_reducible apply Keeps.of_fields <;>
        first | with_reducible exact rfl | with_reducible exact Or.inl rfl | exact Or.inr (Within.trans (Eq.refl _) hw) | skip)

theorem execQuarryRequestAccept_keeps (h : Keeps m s0 s) (hw : Within [.reg .BENCH_ALIAS_LAST_PRIOR, .reg .BENCH_ALIAS_STAT_POISON, .reg
    .BENCH_ALIAS_STAT_VALID, .reg .BENCH_BENCH_HEALTH_HEALTH, .reg .BENCH_BIST_STAT_PHASE, .reg .BENCH_BPWR_STAT_STATE, .reg
    .BENCH_COLL_CNT_COUNT, .reg .BENCH_COLL_STAT_STREAMER, .reg .BENCH_ECC_CNT_CE, .reg .BENCH_ECC_CNT_UE, .reg .BENCH_STATUS_BIST_BUSY,
    .reg .BENCH_STATUS_SPARE_FREE, .reg .BENCH_UE_ADDR_IN_SPARE, .reg .BENCH_UE_ADDR_OFFSET, .reg .ERR_CODE_CODE, .reg .ERR_CODE_MASTER,
    .reg .ERR_CODE_OVF, .reg .ERR_CODE_WORD, .reg .ERR_CODE_WRITE, .reg .EVT_PEND_PEND, .reg .EVT_RAW_RAW, .reg .POWER_STATUS_ENTERING, .reg
    .POWER_STATUS_EXITING, .reg .POWER_WAKE_STAT_CLASS, .reg .POWER_WAKE_STAT_FROM, .reg .QUARRY_CAPACITY_N_ACTIVE, .reg .QUARRY_ECC_CNT_CE,
    .reg .QUARRY_ECC_CNT_UE, .reg .QUARRY_LRMAP_MAP, .reg .QUARRY_LRMAP_SPARE, .reg .QUARRY_PORT_STAT_OUTSTANDING, .reg
    .QUARRY_PORT_STAT_URG, .reg .QUARRY_RANK_STATE_STATE, .reg .QUARRY_STATUS_DEGRADED, .reg .QUARRY_STATUS_MIGRATING, .reg
    .QUARRY_UE_ADDR_HI_ADDR, .reg .QUARRY_UE_ADDR_HI_BANK, .reg .QUARRY_UE_ADDR_HI_RANK, .reg .QUARRY_UE_ADDR_LO_ADDR, .reg
    .SYS_ERR_ADDR_HI_ADDR, .reg .SYS_ERR_ADDR_HI_MASTER, .reg .SYS_ERR_ADDR_HI_WRITE, .reg .SYS_ERR_ADDR_LO_ADDR, .readData, .presented,
    .holdoff, .mem, .poison, .pwr, .qry, .ben, .missed, .free] m) (a1 : Master) (a2 : Bool) (a3 : BitVec 40) (a4 : BitVec 12) (a5 : List
    Byte) : Ends m s0 (execQuarryRequestAccept a1 a2 a3 a4 a5 s) := by
  unfold execQuarryRequestAccept
  try dsimp only
  repeat' first
    | with_reducible assumption
    | exact Within.trans (Eq.refl _) hw
    | (intro _)
    | with_reducible apply on_keeps
    | with_reducible apply act_keeps
    | with_reducible apply acceptRequest_keeps
    | with_reducible apply Keeps.ite
    | with_reducible apply Ends.ite
    | with_reducible apply Ends.next
    | split

theorem setBank_keeps (h : Keeps m s0 s) (hw : Within [.qry] m) (a1 : Nat) (a2 : Nat) (a3 : Bank) : Keeps m s0 (setBank a1 a2 a3 s) :=
    by
  unfold setBank
  try dsimp only
  repeat' first
    | with_reducible assumption
    | exact Within.trans (Eq.refl _) hw
    | (with_reducible apply Keeps.of_fields <;>
        first | with_reducible exact rfl | with_reducible exact Or.inl rfl | exact Or.inr (Within.trans (Eq.refl _) hw) | skip)

theorem eachBank_keeps (h : Keeps m s0 s) (hw : Within [.qry] m) (a1 : Bank → Bank) : Keeps m s0 (eachBank a1 s) := by
  unfold eachBank
  try dsimp only
  repeat' first
    | with_reducible assumption
    | exact Within.trans (Eq.refl _) hw
    | (with_reducible apply Keeps.of_fields <;>
        first | with_reducible exact rfl | with_reducible exact Or.inl rfl | exact Or.inr (Within.trans (Eq.refl _) hw) | skip)

theorem mitigate_keeps (h : Keeps m s0 s) (hw : Within [.reg .EVT_PEND_PEND, .reg .EVT_RAW_RAW, .reg .QUARRY_PORT_STAT_THROTTLED, .reg
    .QUARRY_RD_STAT_EVENTS, .reg .QUARRY_RD_STAT_THROTTLED, .presented, .qry] m) (a1 : QUnit) (a2 : Bank) : Keeps m s0 (mitigate a1 a2 s) :=
    by
  unfold mitigate
  try dsimp only
  repeat' first
    | with_reducible assumption
    | exact Within.trans (Eq.refl _) hw
    | (intro _)
    | with_reducible apply wr_keeps
    | with_reducible apply inc_keeps
    | with_reducible apply raise_keeps
    | with_reducible apply setBank_keeps
    | with_reducible apply Keeps.ite
    | split

theorem activate_keeps (h : Keeps m s0 s) (hw : Within [.reg .EVT_PEND_PEND, .reg .EVT_RAW_RAW, .reg .QUARRY_PORT_STAT_THROTTLED, .reg
    .QUARRY_RD_STAT_EVENTS, .reg .QUARRY_RD_STAT_THROTTLED, .presented, .qry] m) (a1 : QUnit) : Keeps m s0 (activate a1 s) := by
  unfold activate
  try dsimp only
  repeat' first
    | with_reducible assumption
    | exact Within.trans (Eq.refl _) hw
    | (intro _)
    | with_reducible apply mitigate_keeps
    | with_reducible apply setBank_keeps
    | with_reducible apply Keeps.ite
    | split
    | (with_reducible apply Keeps.of_fields <;>
        first | with_reducible exact rfl | with_reducible exact Or.inl rfl | exact Or.inr (Within.trans (Eq.refl _) hw) | skip)

theorem readUnit_keeps (h : Keeps m s0 s) (hw : Within [.reg .EVT_PEND_PEND, .reg .EVT_RAW_RAW, .reg .POWER_STATUS_ENTERING, .reg
    .POWER_STATUS_EXITING, .reg .POWER_WAKE_STAT_CLASS, .reg .POWER_WAKE_STAT_FROM, .reg .QUARRY_CAPACITY_N_ACTIVE, .reg .QUARRY_ECC_CNT_CE,
    .reg .QUARRY_ECC_CNT_UE, .reg .QUARRY_LRMAP_MAP, .reg .QUARRY_LRMAP_SPARE, .reg .QUARRY_RANK_STATE_STATE, .reg .QUARRY_STATUS_DEGRADED,
    .reg .QUARRY_STATUS_MIGRATING, .reg .QUARRY_UE_ADDR_HI_ADDR, .reg .QUARRY_UE_ADDR_HI_BANK, .reg .QUARRY_UE_ADDR_HI_RANK, .reg
    .QUARRY_UE_ADDR_LO_ADDR, .presented, .holdoff, .pwr, .qry, .free] m) (a1 : QUnit) : Keeps m s0 (readUnit a1 s) := by
  unfold readUnit
  try dsimp only
  repeat' first
    | with_reducible assumption
    | exact Within.trans (Eq.refl _) hw
    | (intro _)
    | with_reducible apply each_keeps
    | with_reducible apply eccWord_keeps
    | with_reducible apply Keeps.ite
    | split
    | (unfold id; with_reducible assumption)
    | (with_reducible apply Keeps.of_fields <;>
        first | with_reducible exact rfl | with_reducible exact Or.inl rfl | exact Or.inr (Within.trans (Eq.refl _) hw) | skip)

theorem accessRow_keeps (h : Keeps m s0 s) (hw : Within [.reg .EVT_PEND_PEND, .reg .EVT_RAW_RAW, .reg .POWER_STATUS_ENTERING, .reg
    .POWER_STATUS_EXITING, .reg .POWER_WAKE_STAT_CLASS, .reg .POWER_WAKE_STAT_FROM, .reg .QUARRY_CAPACITY_N_ACTIVE, .reg .QUARRY_ECC_CNT_CE,
    .reg .QUARRY_ECC_CNT_UE, .reg .QUARRY_LRMAP_MAP, .reg .QUARRY_LRMAP_SPARE, .reg .QUARRY_PORT_STAT_OUTSTANDING, .reg
    .QUARRY_PORT_STAT_URG, .reg .QUARRY_RANK_STATE_STATE, .reg .QUARRY_STATUS_DEGRADED, .reg .QUARRY_STATUS_MIGRATING, .reg
    .QUARRY_UE_ADDR_HI_ADDR, .reg .QUARRY_UE_ADDR_HI_BANK, .reg .QUARRY_UE_ADDR_HI_RANK, .reg .QUARRY_UE_ADDR_LO_ADDR, .presented, .holdoff,
    .pwr, .qry, .free] m) (a1 : QUnit) : Keeps m s0 (accessRow a1 s) := by
  unfold accessRow
  try dsimp only
  repeat' first
    | with_reducible assumption
    | exact Within.trans (Eq.refl _) hw
    | with_reducible apply readUnit_keeps
    | with_reducible apply refreshPort_keeps
    | with_reducible apply setBank_keeps
    | with_reducible apply Keeps.ite
    | split
    | (with_reducible apply Keeps.of_fields <;>
        first | with_reducible exact rfl | with_reducible exact Or.inl rfl | exact Or.inr (Within.trans (Eq.refl _) hw) | skip)

theorem commandSlot_keeps (h : Keeps m s0 s) (hw : Within [.reg .EVT_PEND_PEND, .reg .EVT_RAW_RAW, .reg .POWER_STATUS_ENTERING, .reg
    .POWER_STATUS_EXITING, .reg .POWER_WAKE_STAT_CLASS, .reg .POWER_WAKE_STAT_FROM, .reg .QUARRY_CAPACITY_N_ACTIVE, .reg .QUARRY_ECC_CNT_CE,
    .reg .QUARRY_ECC_CNT_UE, .reg .QUARRY_LRMAP_MAP, .reg .QUARRY_LRMAP_SPARE, .reg .QUARRY_PORT_STAT_OUTSTANDING, .reg
    .QUARRY_PORT_STAT_THROTTLED, .reg .QUARRY_PORT_STAT_URG, .reg .QUARRY_RANK_STATE_STATE, .reg .QUARRY_RD_STAT_EVENTS, .reg
    .QUARRY_RD_STAT_THROTTLED, .reg .QUARRY_STATUS_DEGRADED, .reg .QUARRY_STATUS_MIGRATING, .reg .QUARRY_UE_ADDR_HI_ADDR, .reg
    .QUARRY_UE_ADDR_HI_BANK, .reg .QUARRY_UE_ADDR_HI_RANK, .reg .QUARRY_UE_ADDR_LO_ADDR, .presented, .holdoff, .pwr, .qry, .free] m) (a1 :
    Nat) : Keeps m s0 (commandSlot a1 s) := by
  unfold commandSlot
  try dsimp only
  repeat' first
    | with_reducible assumption
    | exact Within.trans (Eq.refl _) hw
    | with_reducible apply accessRow_keeps
    | with_reducible apply activate_keeps
    | with_reducible apply Keeps.ite
    | split

theorem execQuarryCommandSlot_keeps (h : Keeps m s0 s) (hw : Within [.reg .EVT_PEND_PEND, .reg .EVT_RAW_RAW, .reg
    .POWER_STATUS_ENTERING, .reg .POWER_STATUS_EXITING, .reg .POWER_WAKE_STAT_CLASS, .reg .POWER_WAKE_STAT_FROM, .reg
    .QUARRY_CAPACITY_N_ACTIVE, .reg .QUARRY_ECC_CNT_CE, .reg .QUARRY_ECC_CNT_UE, .reg .QUARRY_LRMAP_MAP, .reg .QUARRY_LRMAP_SPARE, .reg
    .QUARRY_PORT_STAT_OUTSTANDING, .reg .QUARRY_PORT_STAT_THROTTLED, .reg .QUARRY_PORT_STAT_URG, .reg .QUARRY_RANK_STATE_STATE, .reg
    .QUARRY_RD_STAT_EVENTS, .reg .QUARRY_RD_STAT_THROTTLED, .reg .QUARRY_STATUS_DEGRADED, .reg .QUARRY_STATUS_MIGRATING, .reg
    .QUARRY_UE_ADDR_HI_ADDR, .reg .QUARRY_UE_ADDR_HI_BANK, .reg .QUARRY_UE_ADDR_HI_RANK, .reg .QUARRY_UE_ADDR_LO_ADDR, .presented, .holdoff,
    .pwr, .qry, .free] m) (a1 : Fin 4) : Ends m s0 (execQuarryCommandSlot a1 s) := by
  unfold execQuarryCommandSlot
  try dsimp only
  repeat' first
    | with_reducible assumption
    | exact Within.trans (Eq.refl _) hw
    | (intro _)
    | with_reducible apply on_keeps
    | with_reducible apply act_keeps
    | with_reducible apply commandSlot_keeps
    | with_reducible apply Ends.ite
    | with_reducible apply Ends.next
    | split

theorem addFlaw_keeps (h : Keeps m s0 s) (hw : Within [.qry] m) (a1 : Nat) (a2 : Nat) (a3 : Nat) (a4 : Nat) : Keeps m s0 (addFlaw a1 a2
    a3 a4 s) := by
  unfold addFlaw
  try dsimp only
  repeat' first
    | with_reducible assumption
    | exact Within.trans (Eq.refl _) hw
    | with_reducible apply Keeps.ite
    | split
    | (with_reducible apply Keeps.of_fields <;>
        first | with_reducible exact rfl | with_reducible exact Or.inl rfl | exact Or.inr (Within.trans (Eq.refl _) hw) | skip)

theorem addFlaws_keeps (h : Keeps m s0 s) (hw : Within [.qry] m) (a1 : Nat) (a2 : List EccPlace) : Keeps m s0 (addFlaws a1 a2 s) := by
  unfold addFlaws
  try dsimp only
  repeat' first
    | with_reducible assumption
    | exact Within.trans (Eq.refl _) hw
    | (intro _)
    | with_reducible apply each_keeps
    | with_reducible apply addFlaw_keeps

theorem completeRequest_keeps (h : Keeps m s0 s) (hw : Within [.reg .ERR_CODE_CODE, .reg .ERR_CODE_MASTER, .reg .ERR_CODE_OVF, .reg
    .ERR_CODE_WORD, .reg .ERR_CODE_WRITE, .reg .EVT_PEND_PEND, .reg .EVT_RAW_RAW, .reg .QUARRY_CAPACITY_N_ACTIVE, .reg .QUARRY_LRMAP_MAP,
    .reg .QUARRY_LRMAP_SPARE, .reg .QUARRY_PORT_LAT_MAX_LAT, .reg .QUARRY_PORT_MISS_COUNT, .reg .QUARRY_PORT_STAT_OUTSTANDING, .reg
    .QUARRY_PORT_STAT_URG, .reg .QUARRY_RANK_STATE_STATE, .reg .QUARRY_STATUS_DEGRADED, .reg .QUARRY_STATUS_MIGRATING, .readData,
    .presented, .holdoff, .qry, .free] m) (a1 : QReq) (a2 : Option (Fin 8)) : Keeps m s0 (completeRequest a1 a2 s) := by
  unfold completeRequest
  try dsimp only
  repeat' first
    | with_reducible assumption
    | exact Within.trans (Eq.refl _) hw
    | with_reducible apply State.nextFree_keeps
    | with_reducible apply countAge_keeps
    | with_reducible apply failRank_keeps
    | with_reducible apply recordErr_keeps
    | with_reducible apply refreshPort_keeps
    | with_reducible apply Keeps.ite
    | split
    | (with_reducible apply Keeps.of_fields <;>
        first | with_reducible exact rfl | with_reducible exact Or.inl rfl | exact Or.inr (Within.trans (Eq.refl _) hw) | skip)

theorem execQuarryRequestComplete_keeps (h : Keeps m s0 s) (hw : Within [.reg .ERR_CODE_CODE, .reg .ERR_CODE_MASTER, .reg .ERR_CODE_OVF,
    .reg .ERR_CODE_WORD, .reg .ERR_CODE_WRITE, .reg .EVT_PEND_PEND, .reg .EVT_RAW_RAW, .reg .QUARRY_CAPACITY_N_ACTIVE, .reg
    .QUARRY_LRMAP_MAP, .reg .QUARRY_LRMAP_SPARE, .reg .QUARRY_PORT_LAT_MAX_LAT, .reg .QUARRY_PORT_MISS_COUNT, .reg
    .QUARRY_PORT_STAT_OUTSTANDING, .reg .QUARRY_PORT_STAT_URG, .reg .QUARRY_RANK_STATE_STATE, .reg .QUARRY_STATUS_DEGRADED, .reg
    .QUARRY_STATUS_MIGRATING, .readData, .presented, .holdoff, .qry, .free] m) (a1 : Nat) (a2 : List EccPlace) (a3 : List EccPlace) (a4 :
    Option (Fin 8)) : Ends m s0 (execQuarryRequestComplete a1 a2 a3 a4 s) := by
  unfold execQuarryRequestComplete
  try dsimp only
  repeat' first
    | with_reducible assumption
    | exact Within.trans (Eq.refl _) hw
    | (intro _)
    | with_reducible apply act_keeps
    | with_reducible apply addFlaws_keeps
    | with_reducible apply completeRequest_keeps
    | with_reducible apply Keeps.ite
    | with_reducible apply Ends.ite
    | with_reducible apply Ends.next
    | split
    | (unfold id; with_reducible assumption)

theorem abortEntry_keeps (h : Keeps m s0 s) (hw : Within [.reg .EVT_PEND_PEND, .reg .EVT_RAW_RAW, .reg .QUARRY_OP_STAT_ABORTS,
    .presented, .qry] m)  : Keeps m s0 (abortEntry s) := by
  unfold abortEntry
  try dsimp only
  repeat' first
    | with_reducible assumption
    | exact Within.trans (Eq.refl _) hw
    | with_reducible apply inc_keeps
    | with_reducible apply raise_keeps
    | with_reducible apply Keeps.ite
    | split
    | (with_reducible apply Keeps.of_fields <;>
        first | with_reducible exact rfl | with_reducible exact Or.inl rfl | exact Or.inr (Within.trans (Eq.refl _) hw) | skip)

theorem execUrgencyRise_keeps (h : Keeps m s0 s) (hw : Within [.reg .EVT_PEND_PEND, .reg .EVT_RAW_RAW, .reg .QUARRY_OP_STAT_ABORTS, .reg
    .QUARRY_PORT_STAT_OUTSTANDING, .reg .QUARRY_PORT_STAT_URG, .presented, .qry] m) (a1 : Fin 8) : Ends m s0 (execUrgencyRise a1 s) := by
  unfold execUrgencyRise
  try dsimp only
  repeat' first
    | with_reducible assumption
    | exact Within.trans (Eq.refl _) hw
    | (intro _)
    | with_reducible apply act_keeps
    | with_reducible apply abortEntry_keeps
    | with_reducible apply refreshPort_keeps
    | with_reducible apply Ends.ite
    | with_reducible apply Ends.next
    | split

theorem State.setOp_keeps (h : Keeps m s0 s) (hw : Within [.qry] m) (a1 : OpPhase) (a2 : Nat) (a3 : Nat) (a4 : Bool) : Keeps m s0
    (State.setOp s a1 a2 a3 a4) := by
  unfold State.setOp
  try dsimp only
  repeat' first
    | with_reducible assumption
    | exact Within.trans (Eq.refl _) hw
    | (with_reducible apply Keeps.of_fields <;>
        first | with_reducible exact rfl | with_reducible exact Or.inl rfl | exact Or.inr (Within.trans (Eq.refl _) hw) | skip)

theorem opRequest_keeps (h : Keeps m s0 s) (hw : Within [.reg .ERR_CODE_CODE, .reg .ERR_CODE_MASTER, .reg .ERR_CODE_OVF, .reg
    .ERR_CODE_WORD, .reg .ERR_CODE_WRITE, .reg .QUARRY_OP_STAT_ABORTS, .reg .QUARRY_OP_STAT_FORCED, .reg .QUARRY_STATUS_OP_PENDING, .qry] m)
    (a1 : Nat) : Keeps m s0 (opRequest a1 s) := by
  unfold opRequest
  try dsimp only
  repeat' first
    | with_reducible assumption
    | exact Within.trans (Eq.refl _) hw
    | with_reducible apply wr_keeps
    | with_reducible apply State.setOp_keeps
    | with_reducible apply actionErr_keeps
    | with_reducible apply Keeps.ite
    | split

theorem writeOpctl_keeps (h : Keeps m s0 s) (hw : Within [.reg .ERR_CODE_CODE, .reg .ERR_CODE_MASTER, .reg .ERR_CODE_OVF, .reg
    .ERR_CODE_WORD, .reg .ERR_CODE_WRITE, .reg .QUARRY_OPCTL_ABORT_MAX, .reg .QUARRY_OPCTL_AT_LC, .reg .QUARRY_OPCTL_LC, .reg
    .QUARRY_OPCTL_TARGET, .reg .QUARRY_OP_STAT_ABORTS, .reg .QUARRY_OP_STAT_FORCED, .reg .QUARRY_STATUS_OP_PENDING, .qry] m) (a1 : Nat) (a2
    : Nat) : Keeps m s0 (writeOpctl a1 a2 s) := by
  unfold writeOpctl
  try dsimp only
  repeat' first
    | with_reducible assumption
    | exact Within.trans (Eq.refl _) hw
    | with_reducible apply wr_keeps
    | with_reducible apply opRequest_keeps
    | with_reducible apply recordErr_keeps
    | with_reducible apply Keeps.ite
    | split

theorem execOpChangeRequest_keeps (h : Keeps m s0 s) (hw : Within [.reg .ERR_CODE_CODE, .reg .ERR_CODE_MASTER, .reg .ERR_CODE_OVF, .reg
    .ERR_CODE_WORD, .reg .ERR_CODE_WRITE, .reg .POWER_STATUS_ENTERING, .reg .POWER_STATUS_EXITING, .reg .POWER_WAKE_STAT_CLASS, .reg
    .POWER_WAKE_STAT_FROM, .reg .QUARRY_OPCTL_ABORT_MAX, .reg .QUARRY_OPCTL_AT_LC, .reg .QUARRY_OPCTL_LC, .reg .QUARRY_OPCTL_TARGET, .reg
    .QUARRY_OP_STAT_ABORTS, .reg .QUARRY_OP_STAT_FORCED, .reg .QUARRY_STATUS_OP_PENDING, .pwr, .qry] m) (a1 : Master) (a2 : Word) : Ends m
    s0 (execOpChangeRequest a1 a2 s) := by
  unfold execOpChangeRequest
  try dsimp only
  repeat' first
    | with_reducible assumption
    | exact Within.trans (Eq.refl _) hw
    | (intro _)
    | with_reducible apply act_keeps
    | with_reducible apply gateBy_keeps
    | with_reducible apply writeOpctl_keeps
    | with_reducible apply Ends.ite
    | with_reducible apply Ends.next
    | split

theorem closeRows_keeps (h : Keeps m s0 s) (hw : Within [.qry] m)  : Keeps m s0 (closeRows s) := by
  unfold closeRows
  try dsimp only
  repeat' first
    | with_reducible assumption
    | exact Within.trans (Eq.refl _) hw
    | (intro _)
    | with_reducible apply eachBank_keeps

theorem enterSelfRefresh_keeps (h : Keeps m s0 s) (hw : Within [.reg .QUARRY_STATUS_SELF_REFRESH, .qry] m)  : Keeps m s0
    (enterSelfRefresh s) := by
  unfold enterSelfRefresh
  try dsimp only
  repeat' first
    | with_reducible assumption
    | exact Within.trans (Eq.refl _) hw
    | (intro _)
    | with_reducible apply wr_keeps
    | with_reducible apply closeRows_keeps
    | (unfold id; with_reducible assumption)
    | (with_reducible apply Keeps.of_fields <;>
        first | with_reducible exact rfl | with_reducible exact Or.inl rfl | exact Or.inr (Within.trans (Eq.refl _) hw) | skip)

theorem opCommit_keeps (h : Keeps m s0 s) (hw : Within [.reg .EVT_PEND_PEND, .reg .EVT_RAW_RAW, .reg .QUARRY_OP_STAT_ABORTS, .reg
    .QUARRY_STATUS_SELF_REFRESH, .presented, .qry] m)  : Keeps m s0 (opCommit s) := by
  unfold opCommit
  try dsimp only
  repeat' first
    | with_reducible assumption
    | exact Within.trans (Eq.refl _) hw
    | with_reducible apply abortEntry_keeps
    | with_reducible apply enterSelfRefresh_keeps
    | with_reducible apply Keeps.ite
    | split
    | (with_reducible apply Keeps.of_fields <;>
        first | with_reducible exact rfl | with_reducible exact Or.inl rfl | exact Or.inr (Within.trans (Eq.refl _) hw) | skip)

theorem execOpCommit_keeps (h : Keeps m s0 s) (hw : Within [.reg .EVT_PEND_PEND, .reg .EVT_RAW_RAW, .reg .QUARRY_OP_STAT_ABORTS, .reg
    .QUARRY_STATUS_SELF_REFRESH, .presented, .qry] m)  : Ends m s0 (execOpCommit s) := by
  unfold execOpCommit
  try dsimp only
  repeat' first
    | with_reducible assumption
    | exact Within.trans (Eq.refl _) hw
    | (intro _)
    | with_reducible apply on_keeps
    | with_reducible apply act_keeps
    | with_reducible apply opCommit_keeps
    | with_reducible apply Ends.ite
    | with_reducible apply Ends.next
    | split

theorem opRestart_keeps (h : Keeps m s0 s) (hw : Within [.reg .QUARRY_OPCTL_ABORT_MAX, .reg .QUARRY_OP_STAT_ABORTS, .reg
    .QUARRY_OP_STAT_FORCED, .qry] m)  : Keeps m s0 (opRestart s) := by
  unfold opRestart
  try dsimp only
  repeat' first
    | with_reducible assumption
    | exact Within.trans (Eq.refl _) hw
    | with_reducible apply wrIf_keeps
    | with_reducible apply Keeps.ite
    | split
    | (with_reducible apply Keeps.of_fields <;>
        first | with_reducible exact rfl | with_reducible exact Or.inl rfl | exact Or.inr (Within.trans (Eq.refl _) hw) | skip)

theorem execOpEntryRestart_keeps (h : Keeps m s0 s) (hw : Within [.reg .QUARRY_OPCTL_ABORT_MAX, .reg .QUARRY_OP_STAT_ABORTS, .reg
    .QUARRY_OP_STAT_FORCED, .qry] m)  : Ends m s0 (execOpEntryRestart s) := by
  unfold execOpEntryRestart
  try dsimp only
  repeat' first
    | with_reducible assumption
    | exact Within.trans (Eq.refl _) hw
    | (intro _)
    | with_reducible apply on_keeps
    | with_reducible apply act_keeps
    | with_reducible apply opRestart_keeps
    | with_reducible apply Ends.ite
    | with_reducible apply Ends.next
    | split

theorem opDone_keeps (h : Keeps m s0 s) (hw : Within [.reg .BENCH_ALIAS_LAST_PRIOR, .reg .BENCH_ALIAS_STAT_POISON, .reg
    .BENCH_ALIAS_STAT_VALID, .reg .BENCH_BENCH_HEALTH_HEALTH, .reg .BENCH_BIST_STAT_PHASE, .reg .BENCH_BPWR_STAT_STATE, .reg
    .BENCH_COLL_CNT_COUNT, .reg .BENCH_COLL_STAT_STREAMER, .reg .BENCH_ECC_CNT_CE, .reg .BENCH_ECC_CNT_UE, .reg .BENCH_STATUS_BIST_BUSY,
    .reg .BENCH_STATUS_SPARE_FREE, .reg .BENCH_UE_ADDR_IN_SPARE, .reg .BENCH_UE_ADDR_OFFSET, .reg .ERR_CODE_CODE, .reg .ERR_CODE_MASTER,
    .reg .ERR_CODE_OVF, .reg .ERR_CODE_WORD, .reg .ERR_CODE_WRITE, .reg .EVT_PEND_PEND, .reg .EVT_RAW_RAW, .reg .POWER_STATUS_ENTERING, .reg
    .POWER_STATUS_EXITING, .reg .POWER_WAKE_STAT_CLASS, .reg .POWER_WAKE_STAT_FROM, .reg .QPHY_TSET_CTL_ACTIVE, .reg
    .QUARRY_CAPACITY_N_ACTIVE, .reg .QUARRY_ECC_CNT_CE, .reg .QUARRY_ECC_CNT_UE, .reg .QUARRY_LRMAP_MAP, .reg .QUARRY_LRMAP_SPARE, .reg
    .QUARRY_OP_STAT_LAST_OUTAGE, .reg .QUARRY_PORT_LAT_MAX_LAT, .reg .QUARRY_PORT_MISS_COUNT, .reg .QUARRY_PORT_STAT_OUTSTANDING, .reg
    .QUARRY_PORT_STAT_URG, .reg .QUARRY_RANK_STATE_STATE, .reg .QUARRY_STATUS_DEGRADED, .reg .QUARRY_STATUS_MIGRATING, .reg
    .QUARRY_STATUS_OP_NOW, .reg .QUARRY_STATUS_OP_PENDING, .reg .QUARRY_STATUS_SELF_REFRESH, .reg .QUARRY_UE_ADDR_HI_ADDR, .reg
    .QUARRY_UE_ADDR_HI_BANK, .reg .QUARRY_UE_ADDR_HI_RANK, .reg .QUARRY_UE_ADDR_LO_ADDR, .readData, .presented, .holdoff, .mem, .poison,
    .pwr, .qry, .ben, .missed, .free] m)  : Keeps m s0 (opDone s) := by
  unfold opDone
  try dsimp only
  repeat' first
    | with_reducible assumption
    | exact Within.trans (Eq.refl _) hw
    | with_reducible apply wr_keeps
    | with_reducible apply raise_keeps
    | with_reducible apply releaseWaiting_keeps
    | (with_reducible apply Keeps.of_fields <;>
        first | with_reducible exact rfl | with_reducible exact Or.inl rfl | exact Or.inr (Within.trans (Eq.refl _) hw) | skip)

theorem endSelfRefresh_keeps (h : Keeps m s0 s) (hw : Within [.reg .QUARRY_STATUS_SELF_REFRESH, .qry] m)  : Keeps m s0 (endSelfRefresh
    s) := by
  unfold endSelfRefresh
  try dsimp only
  repeat' first
    | with_reducible assumption
    | exact Within.trans (Eq.refl _) hw
    | with_reducible apply wr_keeps
    | (with_reducible apply Keeps.of_fields <;>
        first | with_reducible exact rfl | with_reducible exact Or.inl rfl | exact Or.inr (Within.trans (Eq.refl _) hw) | skip)

theorem execOpDone_keeps (h : Keeps m s0 s) (hw : Within [.reg .BENCH_ALIAS_LAST_PRIOR, .reg .BENCH_ALIAS_STAT_POISON, .reg
    .BENCH_ALIAS_STAT_VALID, .reg .BENCH_BENCH_HEALTH_HEALTH, .reg .BENCH_BIST_STAT_PHASE, .reg .BENCH_BPWR_STAT_STATE, .reg
    .BENCH_COLL_CNT_COUNT, .reg .BENCH_COLL_STAT_STREAMER, .reg .BENCH_ECC_CNT_CE, .reg .BENCH_ECC_CNT_UE, .reg .BENCH_STATUS_BIST_BUSY,
    .reg .BENCH_STATUS_SPARE_FREE, .reg .BENCH_UE_ADDR_IN_SPARE, .reg .BENCH_UE_ADDR_OFFSET, .reg .ERR_CODE_CODE, .reg .ERR_CODE_MASTER,
    .reg .ERR_CODE_OVF, .reg .ERR_CODE_WORD, .reg .ERR_CODE_WRITE, .reg .EVT_PEND_PEND, .reg .EVT_RAW_RAW, .reg .POWER_STATUS_ENTERING, .reg
    .POWER_STATUS_EXITING, .reg .POWER_WAKE_STAT_CLASS, .reg .POWER_WAKE_STAT_FROM, .reg .QPHY_TSET_CTL_ACTIVE, .reg
    .QUARRY_CAPACITY_N_ACTIVE, .reg .QUARRY_ECC_CNT_CE, .reg .QUARRY_ECC_CNT_UE, .reg .QUARRY_LRMAP_MAP, .reg .QUARRY_LRMAP_SPARE, .reg
    .QUARRY_OP_STAT_LAST_OUTAGE, .reg .QUARRY_PORT_LAT_MAX_LAT, .reg .QUARRY_PORT_MISS_COUNT, .reg .QUARRY_PORT_STAT_OUTSTANDING, .reg
    .QUARRY_PORT_STAT_URG, .reg .QUARRY_RANK_STATE_STATE, .reg .QUARRY_STATUS_DEGRADED, .reg .QUARRY_STATUS_MIGRATING, .reg
    .QUARRY_STATUS_OP_NOW, .reg .QUARRY_STATUS_OP_PENDING, .reg .QUARRY_STATUS_SELF_REFRESH, .reg .QUARRY_UE_ADDR_HI_ADDR, .reg
    .QUARRY_UE_ADDR_HI_BANK, .reg .QUARRY_UE_ADDR_HI_RANK, .reg .QUARRY_UE_ADDR_LO_ADDR, .readData, .presented, .holdoff, .mem, .poison,
    .pwr, .qry, .ben, .missed, .free] m)  : Ends m s0 (execOpDone s) := by
  unfold execOpDone
  try dsimp only
  repeat' first
    | with_reducible assumption
    | exact Within.trans (Eq.refl _) hw
    | (intro _)
    | with_reducible apply on_keeps
    | with_reducible apply act_keeps
    | with_reducible apply opDone_keeps
    | with_reducible apply Ends.ite
    | with_reducible apply Ends.next
    | split

theorem execRowIdleClose_keeps (h : Keeps m s0 s) (hw : Within [.qry] m) (a1 : Fin 8) (a2 : Fin 16) : Ends m s0 (execRowIdleClose a1 a2
    s) := by
  unfold execRowIdleClose
  try dsimp only
  repeat' first
    | with_reducible assumption
    | exact Within.trans (Eq.refl _) hw
    | (intro _)
    | with_reducible apply on_keeps
    | with_reducible apply act_keeps
    | with_reducible apply setBank_keeps
    | with_reducible apply Ends.ite
    | with_reducible apply Ends.next
    | split

theorem execRefresh_keeps (h : Keeps m s0 s) (hw : Within [.qry] m)  : Ends m s0 (execRefresh s) := by
  unfold execRefresh
  try dsimp only
  repeat' first
    | with_reducible assumption
    | exact Within.trans (Eq.refl _) hw
    | (intro _)
    | with_reducible apply on_keeps
    | with_reducible apply act_keeps
    | with_reducible apply closeRows_keeps
    | with_reducible apply Keeps.ite
    | with_reducible apply Ends.ite
    | with_reducible apply Ends.next
    | split
    | (with_reducible apply Keeps.of_fields <;>
        first | with_reducible exact rfl | with_reducible exact Or.inl rfl | exact Or.inr (Within.trans (Eq.refl _) hw) | skip)

theorem execRefreshEnd_keeps (h : Keeps m s0 s) (hw : Within [.reg .BENCH_ALIAS_LAST_PRIOR, .reg .BENCH_ALIAS_STAT_POISON, .reg
    .BENCH_ALIAS_STAT_VALID, .reg .BENCH_BENCH_HEALTH_HEALTH, .reg .BENCH_BIST_STAT_PHASE, .reg .BENCH_BPWR_STAT_STATE, .reg
    .BENCH_COLL_CNT_COUNT, .reg .BENCH_COLL_STAT_STREAMER, .reg .BENCH_ECC_CNT_CE, .reg .BENCH_ECC_CNT_UE, .reg .BENCH_STATUS_BIST_BUSY,
    .reg .BENCH_STATUS_SPARE_FREE, .reg .BENCH_UE_ADDR_IN_SPARE, .reg .BENCH_UE_ADDR_OFFSET, .reg .ERR_CODE_CODE, .reg .ERR_CODE_MASTER,
    .reg .ERR_CODE_OVF, .reg .ERR_CODE_WORD, .reg .ERR_CODE_WRITE, .reg .EVT_PEND_PEND, .reg .EVT_RAW_RAW, .reg .POWER_STATUS_ENTERING, .reg
    .POWER_STATUS_EXITING, .reg .POWER_WAKE_STAT_CLASS, .reg .POWER_WAKE_STAT_FROM, .reg .QUARRY_CAPACITY_N_ACTIVE, .reg .QUARRY_ECC_CNT_CE,
    .reg .QUARRY_ECC_CNT_UE, .reg .QUARRY_LRMAP_MAP, .reg .QUARRY_LRMAP_SPARE, .reg .QUARRY_PORT_LAT_MAX_LAT, .reg .QUARRY_PORT_MISS_COUNT,
    .reg .QUARRY_PORT_STAT_OUTSTANDING, .reg .QUARRY_PORT_STAT_URG, .reg .QUARRY_RANK_STATE_STATE, .reg .QUARRY_STATUS_DEGRADED, .reg
    .QUARRY_STATUS_MIGRATING, .reg .QUARRY_UE_ADDR_HI_ADDR, .reg .QUARRY_UE_ADDR_HI_BANK, .reg .QUARRY_UE_ADDR_HI_RANK, .reg
    .QUARRY_UE_ADDR_LO_ADDR, .readData, .presented, .holdoff, .mem, .poison, .pwr, .qry, .ben, .missed, .free] m)  : Ends m s0
    (execRefreshEnd s) := by
  unfold execRefreshEnd
  try dsimp only
  repeat' first
    | with_reducible assumption
    | exact Within.trans (Eq.refl _) hw
    | (intro _)
    | with_reducible apply on_keeps
    | with_reducible apply act_keeps
    | with_reducible apply releaseWaiting_keeps
    | with_reducible apply Ends.ite
    | with_reducible apply Ends.next
    | split
    | (with_reducible apply Keeps.of_fields <;>
        first | with_reducible exact rfl | with_reducible exact Or.inl rfl | exact Or.inr (Within.trans (Eq.refl _) hw) | skip)

theorem execRdNeighborRefresh_keeps (h : Keeps m s0 s) (hw : Within [.reg .EVT_PEND_PEND, .reg .EVT_RAW_RAW, .reg
    .QUARRY_PORT_STAT_THROTTLED, .reg .QUARRY_RD_STAT_EVENTS, .reg .QUARRY_RD_STAT_THROTTLED, .presented, .qry] m) (a1 : Fin 8) (a2 : Fin
    16) : Ends m s0 (execRdNeighborRefresh a1 a2 s) := by
  unfold execRdNeighborRefresh
  try dsimp only
  repeat' first
    | with_reducible assumption
    | exact Within.trans (Eq.refl _) hw
    | (intro _)
    | with_reducible apply act_keeps
    | with_reducible apply mitigate_keeps
    | with_reducible apply setBank_keeps
    | with_reducible apply Ends.ite
    | with_reducible apply Ends.next
    | split

theorem execRdWindowReset_keeps (h : Keeps m s0 s) (hw : Within [.reg .QUARRY_PORT_STAT_THROTTLED, .reg .QUARRY_RD_STAT_THROTTLED, .qry]
    m)  : Ends m s0 (execRdWindowReset s) := by
  unfold execRdWindowReset
  try dsimp only
  repeat' first
    | with_reducible assumption
    | exact Within.trans (Eq.refl _) hw
    | (intro _)
    | with_reducible apply wr_keeps
    | with_reducible apply each_keeps
    | with_reducible apply on_keeps
    | with_reducible apply act_keeps
    | with_reducible apply eachBank_keeps
    | with_reducible apply Ends.ite
    | with_reducible apply Ends.next
    | split

theorem execQuarryScrub_keeps (h : Keeps m s0 s) (hw : Within [.reg .EVT_PEND_PEND, .reg .EVT_RAW_RAW, .reg .POWER_STATUS_ENTERING, .reg
    .POWER_STATUS_EXITING, .reg .POWER_WAKE_STAT_CLASS, .reg .POWER_WAKE_STAT_FROM, .reg .QUARRY_CAPACITY_N_ACTIVE, .reg .QUARRY_ECC_CNT_CE,
    .reg .QUARRY_ECC_CNT_UE, .reg .QUARRY_LRMAP_MAP, .reg .QUARRY_LRMAP_SPARE, .reg .QUARRY_RANK_STATE_STATE, .reg .QUARRY_STATUS_DEGRADED,
    .reg .QUARRY_STATUS_MIGRATING, .reg .QUARRY_UE_ADDR_HI_ADDR, .reg .QUARRY_UE_ADDR_HI_BANK, .reg .QUARRY_UE_ADDR_HI_RANK, .reg
    .QUARRY_UE_ADDR_LO_ADDR, .presented, .holdoff, .pwr, .qry, .free] m) (a1 : Fin 8) (a2 : Fin (7 * 2 ^ 22)) (a3 : Fin 4) (a4 : Fin 3) :
    Ends m s0 (execQuarryScrub a1 a2 a3 a4 s) := by
  unfold execQuarryScrub
  try dsimp only
  repeat' first
    | with_reducible assumption
    | exact Within.trans (Eq.refl _) hw
    | (intro _)
    | with_reducible apply on_keeps
    | with_reducible apply act_keeps
    | with_reducible apply addFlaw_keeps
    | with_reducible apply eccWord_keeps
    | with_reducible apply Keeps.ite
    | with_reducible apply Ends.ite
    | with_reducible apply Ends.next
    | split

theorem execInitPass_keeps (h : Keeps m s0 s) (hw : Within [.reg .QUARRY_INIT_PROG_PERCENT, .qry] m) (a1 : Fin 8) (a2 : BitVec 22) :
    Ends m s0 (execInitPass a1 a2 s) := by
  unfold execInitPass
  try dsimp only
  repeat' first
    | with_reducible assumption
    | exact Within.trans (Eq.refl _) hw
    | (intro _)
    | with_reducible apply wr_keeps
    | with_reducible apply on_keeps
    | with_reducible apply act_keeps
    | with_reducible apply initRow_keeps
    | with_reducible apply Ends.ite
    | with_reducible apply Ends.next
    | split

theorem execInitDone_keeps (h : Keeps m s0 s) (hw : Within [.reg .EVT_PEND_PEND, .reg .EVT_RAW_RAW, .reg .QUARRY_INIT_PROG_PERCENT, .reg
    .QUARRY_STATUS_INIT_DONE, .presented, .qry] m)  : Ends m s0 (execInitDone s) := by
  unfold execInitDone
  try dsimp only
  repeat' first
    | with_reducible assumption
    | exact Within.trans (Eq.refl _) hw
    | (intro _)
    | with_reducible apply wr_keeps
    | with_reducible apply on_keeps
    | with_reducible apply act_keeps
    | with_reducible apply raise_keeps
    | with_reducible apply Ends.ite
    | with_reducible apply Ends.next
    | split
    | (with_reducible apply Keeps.of_fields <;>
        first | with_reducible exact rfl | with_reducible exact Or.inl rfl | exact Or.inr (Within.trans (Eq.refl _) hw) | skip)

theorem startMigration_keeps (h : Keeps m s0 s) (hw : Within [.reg .EVT_PEND_PEND, .reg .EVT_RAW_RAW, .reg .QUARRY_LRMAP_SPARE, .reg
    .QUARRY_MIG_PTR_CAUSE, .reg .QUARRY_MIG_PTR_LGRANK, .reg .QUARRY_MIG_PTR_UNIT, .reg .QUARRY_RANK_STATE_STATE, .reg
    .QUARRY_STATUS_MIGRATING, .presented] m) (a1 : Nat) (a2 : Nat) : Keeps m s0 (startMigration a1 a2 s) := by
  unfold startMigration
  try dsimp only
  repeat' first
    | with_reducible assumption
    | exact Within.trans (Eq.refl _) hw
    | with_reducible apply wr_keeps
    | with_reducible apply raise_keeps
    | with_reducible apply setRank_keeps

theorem hostMigration_keeps (h : Keeps m s0 s) (hw : Within [.reg .ERR_CODE_CODE, .reg .ERR_CODE_MASTER, .reg .ERR_CODE_OVF, .reg
    .ERR_CODE_WORD, .reg .ERR_CODE_WRITE, .reg .EVT_PEND_PEND, .reg .EVT_RAW_RAW, .reg .QUARRY_LRMAP_SPARE, .reg .QUARRY_MIG_PTR_CAUSE, .reg
    .QUARRY_MIG_PTR_LGRANK, .reg .QUARRY_MIG_PTR_UNIT, .reg .QUARRY_RANK_STATE_STATE, .reg .QUARRY_STATUS_MIGRATING, .presented] m) (a1 :
    Nat) (a2 : Nat) : Keeps m s0 (hostMigration a1 a2 s) := by
  unfold hostMigration
  try dsimp only
  repeat' first
    | with_reducible assumption
    | exact Within.trans (Eq.refl _) hw
    | with_reducible apply actionErr_keeps
    | with_reducible apply startMigration_keeps
    | with_reducible apply Keeps.ite
    | split

theorem writeMigCtl_keeps (h : Keeps m s0 s) (hw : Within [.reg .ERR_CODE_CODE, .reg .ERR_CODE_MASTER, .reg .ERR_CODE_OVF, .reg
    .ERR_CODE_WORD, .reg .ERR_CODE_WRITE, .reg .EVT_PEND_PEND, .reg .EVT_RAW_RAW, .reg .QUARRY_LRMAP_SPARE, .reg .QUARRY_MIG_CTL_RATE, .reg
    .QUARRY_MIG_PTR_CAUSE, .reg .QUARRY_MIG_PTR_LGRANK, .reg .QUARRY_MIG_PTR_UNIT, .reg .QUARRY_RANK_STATE_STATE, .reg
    .QUARRY_STATUS_MIGRATING, .presented] m) (a1 : Nat) (a2 : Nat) : Keeps m s0 (writeMigCtl a1 a2 s) := by
  unfold writeMigCtl
  try dsimp only
  repeat' first
    | with_reducible assumption
    | exact Within.trans (Eq.refl _) hw
    | with_reducible apply wr_keeps
    | with_reducible apply hostMigration_keeps
    | with_reducible apply Keeps.ite
    | split

theorem failureStart_keeps (h : Keeps m s0 s) (hw : Within [.reg .EVT_PEND_PEND, .reg .EVT_RAW_RAW, .reg .QUARRY_CAPACITY_N_ACTIVE, .reg
    .QUARRY_LRMAP_MAP, .reg .QUARRY_LRMAP_SPARE, .reg .QUARRY_MIG_PTR_CAUSE, .reg .QUARRY_MIG_PTR_LGRANK, .reg .QUARRY_MIG_PTR_UNIT, .reg
    .QUARRY_RANK_STATE_STATE, .reg .QUARRY_STATUS_DEGRADED, .reg .QUARRY_STATUS_MIGRATING, .presented, .qry] m)  : Keeps m s0 (failureStart
    s) := by
  unfold failureStart
  try dsimp only
  repeat' first
    | with_reducible assumption
    | exact Within.trans (Eq.refl _) hw
    | with_reducible apply retireRank_keeps
    | with_reducible apply startMigration_keeps
    | with_reducible apply Keeps.ite
    | split
    | (with_reducible apply Keeps.of_fields <;>
        first | with_reducible exact rfl | with_reducible exact Or.inl rfl | exact Or.inr (Within.trans (Eq.refl _) hw) | skip)

theorem execMigrationStart_keeps (h : Keeps m s0 s) (hw : Within [.reg .ERR_CODE_CODE, .reg .ERR_CODE_MASTER, .reg .ERR_CODE_OVF, .reg
    .ERR_CODE_WORD, .reg .ERR_CODE_WRITE, .reg .EVT_PEND_PEND, .reg .EVT_RAW_RAW, .reg .POWER_STATUS_ENTERING, .reg .POWER_STATUS_EXITING,
    .reg .POWER_WAKE_STAT_CLASS, .reg .POWER_WAKE_STAT_FROM, .reg .QUARRY_CAPACITY_N_ACTIVE, .reg .QUARRY_LRMAP_MAP, .reg
    .QUARRY_LRMAP_SPARE, .reg .QUARRY_MIG_PTR_CAUSE, .reg .QUARRY_MIG_PTR_LGRANK, .reg .QUARRY_MIG_PTR_UNIT, .reg .QUARRY_RANK_STATE_STATE,
    .reg .QUARRY_STATUS_DEGRADED, .reg .QUARRY_STATUS_MIGRATING, .presented, .pwr, .qry] m) (a1 : Option (Master × Fin 8)) : Ends m s0
    (execMigrationStart a1 s) := by
  unfold execMigrationStart
  try dsimp only
  repeat' first
    | with_reducible assumption
    | exact Within.trans (Eq.refl _) hw
    | (intro _)
    | with_reducible apply act_keeps
    | with_reducible apply failureStart_keeps
    | with_reducible apply gateBy_keeps
    | with_reducible apply hostMigration_keeps
    | with_reducible apply Ends.ite
    | with_reducible apply Ends.next
    | split

theorem copyWord_keeps (h : Keeps m s0 s) (hw : Within [.reg .EVT_PEND_PEND, .reg .EVT_RAW_RAW, .reg .POWER_STATUS_ENTERING, .reg
    .POWER_STATUS_EXITING, .reg .POWER_WAKE_STAT_CLASS, .reg .POWER_WAKE_STAT_FROM, .reg .QUARRY_CAPACITY_N_ACTIVE, .reg .QUARRY_ECC_CNT_CE,
    .reg .QUARRY_ECC_CNT_UE, .reg .QUARRY_LRMAP_MAP, .reg .QUARRY_LRMAP_SPARE, .reg .QUARRY_RANK_STATE_STATE, .reg .QUARRY_STATUS_DEGRADED,
    .reg .QUARRY_STATUS_MIGRATING, .reg .QUARRY_UE_ADDR_HI_ADDR, .reg .QUARRY_UE_ADDR_HI_BANK, .reg .QUARRY_UE_ADDR_HI_RANK, .reg
    .QUARRY_UE_ADDR_LO_ADDR, .presented, .holdoff, .pwr, .qry, .free] m) (a1 : Nat) (a2 : Nat) (a3 : Nat) (a4 : Nat) (a5 : Bool) : Keeps m
    s0 (copyWord a1 a2 a3 a4 a5 s) := by
  unfold copyWord
  try dsimp only
  repeat' first
    | with_reducible assumption
    | exact Within.trans (Eq.refl _) hw
    | with_reducible apply clearFlaw_keeps
    | with_reducible apply eccWord_keeps
    | with_reducible apply putPoison_keeps
    | with_reducible apply uncorrectable_keeps
    | with_reducible apply Keeps.ite
    | split

theorem copyUnit_keeps (h : Keeps m s0 s) (hw : Within [.reg .EVT_PEND_PEND, .reg .EVT_RAW_RAW, .reg .POWER_STATUS_ENTERING, .reg
    .POWER_STATUS_EXITING, .reg .POWER_WAKE_STAT_CLASS, .reg .POWER_WAKE_STAT_FROM, .reg .QUARRY_CAPACITY_N_ACTIVE, .reg .QUARRY_ECC_CNT_CE,
    .reg .QUARRY_ECC_CNT_UE, .reg .QUARRY_LRMAP_MAP, .reg .QUARRY_LRMAP_SPARE, .reg .QUARRY_MIG_PTR_UNIT, .reg .QUARRY_RANK_STATE_STATE,
    .reg .QUARRY_STATUS_DEGRADED, .reg .QUARRY_STATUS_MIGRATING, .reg .QUARRY_UE_ADDR_HI_ADDR, .reg .QUARRY_UE_ADDR_HI_BANK, .reg
    .QUARRY_UE_ADDR_HI_RANK, .reg .QUARRY_UE_ADDR_LO_ADDR, .presented, .holdoff, .pwr, .qry, .free] m) (a1 : Bool) (a2 : List (Fin 4 ×
    Bool)) : Keeps m s0 (copyUnit a1 a2 s) := by
  unfold copyUnit
  try dsimp only
  repeat' first
    | with_reducible assumption
    | exact Within.trans (Eq.refl _) hw
    | (intro _)
    | with_reducible apply wr_keeps
    | with_reducible apply each_keeps
    | with_reducible apply addFlaw_keeps
    | with_reducible apply copyWord_keeps
    | with_reducible apply initRow_keeps
    | with_reducible apply Keeps.ite
    | split
    | (with_reducible apply Keeps.of_fields <;>
        first | with_reducible exact rfl | with_reducible exact Or.inl rfl | exact Or.inr (Within.trans (Eq.refl _) hw) | skip)

theorem execMigrationUnitCopy_keeps (h : Keeps m s0 s) (hw : Within [.reg .EVT_PEND_PEND, .reg .EVT_RAW_RAW, .reg
    .POWER_STATUS_ENTERING, .reg .POWER_STATUS_EXITING, .reg .POWER_WAKE_STAT_CLASS, .reg .POWER_WAKE_STAT_FROM, .reg
    .QUARRY_CAPACITY_N_ACTIVE, .reg .QUARRY_ECC_CNT_CE, .reg .QUARRY_ECC_CNT_UE, .reg .QUARRY_LRMAP_MAP, .reg .QUARRY_LRMAP_SPARE, .reg
    .QUARRY_MIG_PTR_UNIT, .reg .QUARRY_RANK_STATE_STATE, .reg .QUARRY_STATUS_DEGRADED, .reg .QUARRY_STATUS_MIGRATING, .reg
    .QUARRY_UE_ADDR_HI_ADDR, .reg .QUARRY_UE_ADDR_HI_BANK, .reg .QUARRY_UE_ADDR_HI_RANK, .reg .QUARRY_UE_ADDR_LO_ADDR, .presented, .holdoff,
    .pwr, .qry, .free] m) (a1 : Bool) (a2 : List (Fin 4 × Bool)) : Ends m s0 (execMigrationUnitCopy a1 a2 s) := by
  unfold execMigrationUnitCopy
  try dsimp only
  repeat' first
    | with_reducible assumption
    | exact Within.trans (Eq.refl _) hw
    | (intro _)
    | with_reducible apply on_keeps
    | with_reducible apply act_keeps
    | with_reducible apply copyUnit_keeps
    | with_reducible apply Ends.ite
    | with_reducible apply Ends.next
    | split

theorem migSwitch_keeps (h : Keeps m s0 s) (hw : Within [.reg .EVT_PEND_PEND, .reg .EVT_RAW_RAW, .reg .QUARRY_LRMAP_MAP, .reg
    .QUARRY_RANK_STATE_STATE, .reg .QUARRY_STATUS_MIGRATING, .presented] m)  : Keeps m s0 (migSwitch s) := by
  unfold migSwitch
  try dsimp only
  repeat' first
    | with_reducible assumption
    | exact Within.trans (Eq.refl _) hw
    | with_reducible apply wr_keeps
    | with_reducible apply raise_keeps
    | with_reducible apply setRank_keeps
    | split

theorem execMigrationSwitchover_keeps (h : Keeps m s0 s) (hw : Within [.reg .EVT_PEND_PEND, .reg .EVT_RAW_RAW, .reg .QUARRY_LRMAP_MAP,
    .reg .QUARRY_RANK_STATE_STATE, .reg .QUARRY_STATUS_MIGRATING, .presented] m)  : Ends m s0 (execMigrationSwitchover s) := by
  unfold execMigrationSwitchover
  try dsimp only
  repeat' first
    | with_reducible assumption
    | exact Within.trans (Eq.refl _) hw
    | (intro _)
    | with_reducible apply on_keeps
    | with_reducible apply act_keeps
    | with_reducible apply migSwitch_keeps
    | with_reducible apply Ends.ite
    | with_reducible apply Ends.next
    | split

theorem finishByMap_keeps (h : Keeps m s0 s) (hw : Within [.reg .QUARRY_LRMAP_MAP, .reg .QUARRY_RANK_STATE_STATE, .reg
    .QUARRY_STATUS_MIGRATING] m)  : Keeps m s0 (finishByMap s) := by
  unfold finishByMap
  try dsimp only
  repeat' first
    | with_reducible assumption
    | exact Within.trans (Eq.refl _) hw
    | with_reducible apply wr_keeps
    | with_reducible apply setRank_keeps
    | split

theorem newGeneration_keeps (h : Keeps m s0 s) (hw : Within [.reg .QUARRY_GEN_GEN, .mem, .qry] m) : Keeps m s0 (newGeneration s) := by
  unfold newGeneration
  apply wr_keeps _ (Within.trans (Eq.refl _) hw)
  exact Keeps.upd_qry (h.upd_mem (Within.trans (Eq.refl _) hw) (fun hm => Store.wf_filter hm _)) (Within.trans (Eq.refl _) hw) _

theorem layOut_keeps (h : Keeps m s0 s) (hw : Within [.reg .QUARRY_CAPACITY_N_ACTIVE, .reg .QUARRY_CAPACITY_WAVE_GIB, .reg
    .QUARRY_GEN_GEN, .reg .QUARRY_INIT_PROG_PERCENT, .reg .QUARRY_LRMAP_MAP, .reg .QUARRY_PORT_STAT_OUTSTANDING, .reg .QUARRY_PORT_STAT_URG,
    .reg .QUARRY_STATUS_DEGRADED, .reg .QUARRY_STATUS_INIT_DONE, .reg .QUARRY_STATUS_RESHAPING, .mem, .qry] m)  : Keeps m s0 (layOut s) :=
    by
  unfold layOut
  try dsimp only
  repeat' first
    | with_reducible assumption
    | exact Within.trans (Eq.refl _) hw
    | (intro _)
    | with_reducible apply wr_keeps
    | with_reducible apply each_keeps
    | with_reducible apply newGeneration_keeps
    | with_reducible apply refreshPort_keeps
    | with_reducible apply KeepsOpt.getD
    | (with_reducible apply Keeps.of_fields <;>
        first | with_reducible exact rfl | with_reducible exact Or.inl rfl | exact Or.inr (Within.trans (Eq.refl _) hw) | skip)

theorem writeReshape_keeps (h : Keeps m s0 s) (hw : Within [.reg .ERR_CODE_CODE, .reg .ERR_CODE_MASTER, .reg .ERR_CODE_OVF, .reg
    .ERR_CODE_WORD, .reg .ERR_CODE_WRITE, .reg .QUARRY_CAPACITY_N_ACTIVE, .reg .QUARRY_CAPACITY_WAVE_GIB, .reg .QUARRY_GEN_GEN, .reg
    .QUARRY_INIT_PROG_PERCENT, .reg .QUARRY_LRMAP_MAP, .reg .QUARRY_PORT_STAT_OUTSTANDING, .reg .QUARRY_PORT_STAT_URG, .reg
    .QUARRY_STATUS_DEGRADED, .reg .QUARRY_STATUS_INIT_DONE, .reg .QUARRY_STATUS_RESHAPING, .mem, .qry] m) (a1 : Nat) (a2 : Nat) : Keeps m s0
    (writeReshape a1 a2 s) := by
  unfold writeReshape
  try dsimp only
  repeat' first
    | with_reducible assumption
    | exact Within.trans (Eq.refl _) hw
    | with_reducible apply actionErr_keeps
    | with_reducible apply layOut_keeps
    | with_reducible apply Keeps.ite
    | split

theorem execReshape_keeps (h : Keeps m s0 s) (hw : Within [.reg .ERR_CODE_CODE, .reg .ERR_CODE_MASTER, .reg .ERR_CODE_OVF, .reg
    .ERR_CODE_WORD, .reg .ERR_CODE_WRITE, .reg .POWER_STATUS_ENTERING, .reg .POWER_STATUS_EXITING, .reg .POWER_WAKE_STAT_CLASS, .reg
    .POWER_WAKE_STAT_FROM, .reg .QUARRY_CAPACITY_N_ACTIVE, .reg .QUARRY_CAPACITY_WAVE_GIB, .reg .QUARRY_GEN_GEN, .reg
    .QUARRY_INIT_PROG_PERCENT, .reg .QUARRY_LRMAP_MAP, .reg .QUARRY_PORT_STAT_OUTSTANDING, .reg .QUARRY_PORT_STAT_URG, .reg
    .QUARRY_STATUS_DEGRADED, .reg .QUARRY_STATUS_INIT_DONE, .reg .QUARRY_STATUS_RESHAPING, .mem, .pwr, .qry] m) (a1 : Master) (a2 : Byte) :
    Ends m s0 (execReshape a1 a2 s) := by
  unfold execReshape
  try dsimp only
  repeat' first
    | with_reducible assumption
    | exact Within.trans (Eq.refl _) hw
    | (intro _)
    | with_reducible apply act_keeps
    | with_reducible apply gateBy_keeps
    | with_reducible apply writeReshape_keeps
    | with_reducible apply Ends.ite
    | with_reducible apply Ends.next
    | split

theorem execReshapeDone_keeps (h : Keeps m s0 s) (hw : Within [.reg .EVT_PEND_PEND, .reg .EVT_RAW_RAW, .reg .QUARRY_STATUS_RESHAPING,
    .presented] m)  : Ends m s0 (execReshapeDone s) := by
  unfold execReshapeDone
  try dsimp only
  repeat' first
    | with_reducible assumption
    | exact Within.trans (Eq.refl _) hw
    | (intro _)
    | with_reducible apply wr_keeps
    | with_reducible apply on_keeps
    | with_reducible apply act_keeps
    | with_reducible apply raise_keeps
    | with_reducible apply Ends.ite
    | with_reducible apply Ends.next
    | split

theorem writeDly_keeps (h : Keeps m s0 s) (hw : Within [.qry] m) (a1 : Nat) : Keeps m s0 (writeDly a1 s) := by
  unfold writeDly
  try dsimp only
  repeat' first
    | with_reducible assumption
    | exact Within.trans (Eq.refl _) hw
    | with_reducible apply Keeps.ite
    | split
    | (with_reducible apply Keeps.of_fields <;>
        first | with_reducible exact rfl | with_reducible exact Or.inl rfl | exact Or.inr (Within.trans (Eq.refl _) hw) | skip)

theorem writeTset_keeps (h : Keeps m s0 s) (hw : Within [.reg .QPHY_TSET_CTL_A_OP, .reg .QPHY_TSET_CTL_A_VALID, .reg
    .QPHY_TSET_CTL_B_OP, .reg .QPHY_TSET_CTL_B_VALID] m) (a1 : Nat) : Keeps m s0 (writeTset a1 s) := by
  unfold writeTset
  try dsimp only
  repeat' first
    | with_reducible assumption
    | exact Within.trans (Eq.refl _) hw
    | with_reducible apply wr_keeps
    | with_reducible apply Keeps.ite
    | split

theorem startTraining_keeps (h : Keeps m s0 s) (hw : Within [.reg .ERR_CODE_CODE, .reg .ERR_CODE_MASTER, .reg .ERR_CODE_OVF, .reg
    .ERR_CODE_WORD, .reg .ERR_CODE_WRITE, .reg .QPHY_CMP_STAT_BUSY, .reg .QPHY_CMP_STAT_DONE, .reg .QPHY_STATUS_TRAINING] m) (a1 : Nat) :
    Keeps m s0 (startTraining a1 s) := by
  unfold startTraining
  try dsimp only
  repeat' first
    | with_reducible assumption
    | exact Within.trans (Eq.refl _) hw
    | with_reducible apply wr_keeps
    | with_reducible apply actionErr_keeps
    | with_reducible apply Keeps.ite
    | split

theorem writeTrnCtl_keeps (h : Keeps m s0 s) (hw : Within [.reg .ERR_CODE_CODE, .reg .ERR_CODE_MASTER, .reg .ERR_CODE_OVF, .reg
    .ERR_CODE_WORD, .reg .ERR_CODE_WRITE, .reg .QPHY_CMP_STAT_BUSY, .reg .QPHY_CMP_STAT_DONE, .reg .QPHY_STATUS_TRAINING, .reg
    .QPHY_TRN_CTL_MODE] m) (a1 : Nat) (a2 : Nat) : Keeps m s0 (writeTrnCtl a1 a2 s) := by
  unfold writeTrnCtl
  try dsimp only
  repeat' first
    | with_reducible assumption
    | exact Within.trans (Eq.refl _) hw
    | with_reducible apply wr_keeps
    | with_reducible apply startTraining_keeps
    | with_reducible apply Keeps.ite
    | split

theorem execTrainingRun_keeps (h : Keeps m s0 s) (hw : Within [.reg .ERR_CODE_CODE, .reg .ERR_CODE_MASTER, .reg .ERR_CODE_OVF, .reg
    .ERR_CODE_WORD, .reg .ERR_CODE_WRITE, .reg .POWER_STATUS_ENTERING, .reg .POWER_STATUS_EXITING, .reg .POWER_WAKE_STAT_CLASS, .reg
    .POWER_WAKE_STAT_FROM, .reg .QPHY_CMP_STAT_BUSY, .reg .QPHY_CMP_STAT_DONE, .reg .QPHY_STATUS_TRAINING, .reg .QPHY_TRN_CTL_MODE, .pwr] m)
    (a1 : Master) (a2 : Fin 8) : Ends m s0 (execTrainingRun a1 a2 s) := by
  unfold execTrainingRun
  try dsimp only
  repeat' first
    | with_reducible assumption
    | exact Within.trans (Eq.refl _) hw
    | (intro _)
    | with_reducible apply act_keeps
    | with_reducible apply gateBy_keeps
    | with_reducible apply writeTrnCtl_keeps
    | with_reducible apply Ends.ite
    | with_reducible apply Ends.next
    | split

theorem execTrainingRunDone_keeps (h : Keeps m s0 s) (hw : Within [.reg .EVT_PEND_PEND, .reg .EVT_RAW_RAW, .reg .QPHY_CMP_ERRCNT_COUNT,
    .reg .QPHY_CMP_STAT_BUSY, .reg .QPHY_CMP_STAT_DONE, .reg .QPHY_CMP_STAT_FAIL, .reg .QPHY_STATUS_TRAINING, .presented] m) (a1 : BitVec
    16) (a2 : Word) : Ends m s0 (execTrainingRunDone a1 a2 s) := by
  unfold execTrainingRunDone
  try dsimp only
  repeat' first
    | with_reducible assumption
    | exact Within.trans (Eq.refl _) hw
    | (intro _)
    | with_reducible apply wr_keeps
    | with_reducible apply on_keeps
    | with_reducible apply act_keeps
    | with_reducible apply raise_keeps
    | with_reducible apply Ends.ite
    | with_reducible apply Ends.next
    | split

theorem driftUpdate_keeps (h : Keeps m s0 s) (hw : Within [.reg .EVT_PEND_PEND, .reg .EVT_RAW_RAW, .reg .QPHY_DRIFT_STAT_MAX_STEP,
    .presented, .qry] m) (a1 : Nat) (a2 : Int) : Keeps m s0 (driftUpdate a1 a2 s) := by
  refine Keeps.ite (raise_keeps ?_ (Within.trans (Eq.refl _) hw) ..) ?_ <;>
    exact wr_keeps (Keeps.upd_qry h (Within.trans (Eq.refl _) hw) _) (Within.trans (Eq.refl _) hw) ..

theorem execDriftUpdate_keeps (h : Keeps m s0 s) (hw : Within [.reg .EVT_PEND_PEND, .reg .EVT_RAW_RAW, .reg .QPHY_DRIFT_STAT_MAX_STEP,
    .presented, .qry] m) (a1 : Fin 8) (a2 : BitVec 12) : Ends m s0 (execDriftUpdate a1 a2 s) := by
  unfold execDriftUpdate
  try dsimp only
  repeat' first
    | with_reducible assumption
    | exact Within.trans (Eq.refl _) hw
    | (intro _)
    | with_reducible apply on_keeps
    | with_reducible apply act_keeps
    | with_reducible apply driftUpdate_keeps
    | with_reducible apply Ends.ite
    | with_reducible apply Ends.next
    | split

end Sys2Proof.Machine
end

