-- ==== Sys2Proof/Laws/PowerKeeps.lean ====
section
/-! SUPPORT. What the operations of Machine/Power.lean keep: the queue, the invariant, and every part outside their footprint. -/

set_option maxRecDepth 4000
set_option linter.unusedTactic false
set_option linter.unreachableTactic false

namespace Sys2Proof.Machine

variable {m : Nat} {s0 s : State}

theorem execPowerStateEntry_keeps (h : Keeps m s0 s) (hw : Within [.reg .POWER_STATUS_ENTERING, .reg .POWER_STATUS_TARGET, .pwr] m)  :
    Ends m s0 (execPowerStateEntry s) := by
  unfold execPowerStateEntry
  try dsimp only
  repeat' first
    | with_reducible assumption
    | exact Within.trans (Eq.refl _) hw
    | (intro _)
    | with_reducible apply wr_keeps
    | with_reducible apply on_keeps
    | with_reducible apply act_keeps
    | with_reducible apply Ends.ite
    | with_reducible apply Ends.next
    | split
    | (with_reducible apply Keeps.of_fields <;>
        first | with_reducible exact rfl | with_reducible exact Or.inl rfl | exact Or.inr (Within.trans (Eq.refl _) hw) | skip)

theorem darken_keeps (h : Keeps m s0 s) (hw : Within [.clocks] m)  : Keeps m s0 (darken s) := by
  unfold darken
  try dsimp only
  repeat' first
    | with_reducible assumption
    | exact Within.trans (Eq.refl _) hw
    | (intro _)
    | with_reducible apply each_keeps
    | with_reducible apply State.setClock_keeps
    | with_reducible apply Keeps.ite
    | split

theorem pauseBurnish_keeps (h : Keeps m s0 s) (hw : Within [.reg .BURNISH_STATUS_ROTATING, .reg .SPARE_ELEM_TRIM_E, .reg
    .SPARE_GO_TRIM_GAIN, .reg .SPARE_GO_TRIM_OFFSET, .reg .SPARE_LADDER_TRIM_L, .reg .SPARE_STATUS_PHASE, .reg .SPARE_STATUS_VISIT_POS,
    .tiers] m)  : Keeps m s0 (pauseBurnish s) := by
  unfold pauseBurnish
  try dsimp only
  repeat' first
    | with_reducible assumption
    | exact Within.trans (Eq.refl _) hw
    | (intro _)
    | with_reducible apply each_keeps
    | with_reducible apply endVisit_keeps
    | with_reducible apply pauseWindow_keeps
    | with_reducible apply Keeps.ite
    | split

theorem synthsOff_keeps (h : Keeps m s0 s) (hw : Within [.reg .QCLK_QCLK_STATUS_LOCKED, .reg .QCLK_QCLK_STATUS_READY, .reg
    .QPHY_STATUS_PLL0_LOCK, .reg .QPHY_STATUS_PLL1_LOCK] m)  : Keeps m s0 (synthsOff s) := by
  unfold synthsOff
  try dsimp only
  repeat' first
    | with_reducible assumption
    | exact Within.trans (Eq.refl _) hw
    | (intro _)
    | with_reducible apply wr_keeps
    | with_reducible apply each_keeps

theorem enterState_keeps (h : Keeps m s0 s) (hw : Within [.reg .BENCH_BPWR_STAT_STATE, .reg .BURNISH_STATUS_ROTATING, .reg
    .EVT_PEND_PEND, .reg .EVT_RAW_RAW, .reg .POWER_STATUS_DSTATE, .reg .POWER_STATUS_ENTERING, .reg .QCLK_QCLK_STATUS_LOCKED, .reg
    .QCLK_QCLK_STATUS_READY, .reg .QPHY_STATUS_PLL0_LOCK, .reg .QPHY_STATUS_PLL1_LOCK, .reg .QUARRY_STATUS_SELF_REFRESH, .reg
    .SPARE_ELEM_TRIM_E, .reg .SPARE_GO_TRIM_GAIN, .reg .SPARE_GO_TRIM_OFFSET, .reg .SPARE_LADDER_TRIM_L, .reg .SPARE_STATUS_PHASE, .reg
    .SPARE_STATUS_VISIT_POS, .presented, .clocks, .qry, .tiers] m) (a1 : Nat) : Keeps m s0 (enterState a1 s) := by
  unfold enterState
  try dsimp only
  repeat' first
    | with_reducible assumption
    | exact Within.trans (Eq.refl _) hw
    | with_reducible apply wr_keeps
    | with_reducible apply darken_keeps
    | with_reducible apply enterSelfRefresh_keeps
    | with_reducible apply pauseBurnish_keeps
    | with_reducible apply raise_keeps
    | with_reducible apply restBenches_keeps
    | with_reducible apply synthsOff_keeps
    | with_reducible apply Keeps.ite
    | split

theorem execDEnter_keeps (h : Keeps m s0 s) (hw : Within [.reg .BENCH_BPWR_STAT_STATE, .reg .BURNISH_STATUS_ROTATING, .reg
    .EVT_PEND_PEND, .reg .EVT_RAW_RAW, .reg .POWER_STATUS_DSTATE, .reg .POWER_STATUS_ENTERING, .reg .QCLK_QCLK_STATUS_LOCKED, .reg
    .QCLK_QCLK_STATUS_READY, .reg .QPHY_STATUS_PLL0_LOCK, .reg .QPHY_STATUS_PLL1_LOCK, .reg .QUARRY_STATUS_SELF_REFRESH, .reg
    .SPARE_ELEM_TRIM_E, .reg .SPARE_GO_TRIM_GAIN, .reg .SPARE_GO_TRIM_OFFSET, .reg .SPARE_LADDER_TRIM_L, .reg .SPARE_STATUS_PHASE, .reg
    .SPARE_STATUS_VISIT_POS, .presented, .clocks, .qry, .tiers] m)  : Ends m s0 (execDEnter s) := by
  unfold execDEnter
  try dsimp only
  repeat' first
    | with_reducible assumption
    | exact Within.trans (Eq.refl _) hw
    | (intro _)
    | with_reducible apply on_keeps
    | with_reducible apply act_keeps
    | with_reducible apply enterState_keeps
    | with_reducible apply Ends.ite
    | with_reducible apply Ends.next
    | split

theorem execWake_keeps (h : Keeps m s0 s) (hw : Within [.reg .POWER_STATUS_ENTERING, .reg .POWER_STATUS_EXITING, .reg
    .POWER_WAKE_STAT_CLASS, .reg .POWER_WAKE_STAT_FROM, .pwr] m) (a1 : Fin 6) : Ends m s0 (execWake a1 s) := by
  unfold execWake
  try dsimp only
  repeat' first
    | with_reducible assumption
    | exact Within.trans (Eq.refl _) hw
    | (intro _)
    | with_reducible apply on_keeps
    | with_reducible apply act_keeps
    | with_reducible apply wake_keeps
    | with_reducible apply Ends.ite
    | with_reducible apply Ends.next
    | split

theorem execPowerTimeWake_keeps (h : Keeps m s0 s) (hw : Within [.reg .POWER_STATUS_ENTERING, .reg .POWER_STATUS_EXITING, .reg
    .POWER_WAKE_STAT_CLASS, .reg .POWER_WAKE_STAT_FROM, .pwr] m)  : Ends m s0 (execPowerTimeWake s) := by
  unfold execPowerTimeWake
  try dsimp only
  repeat' first
    | with_reducible assumption
    | exact Within.trans (Eq.refl _) hw
    | (intro _)
    | with_reducible apply on_keeps
    | with_reducible apply act_keeps
    | with_reducible apply wake_keeps
    | with_reducible apply Ends.ite
    | with_reducible apply Ends.next
    | split

theorem synthsOn_keeps (h : Keeps m s0 s) (hw : Within [.reg .QCLK_QCLK_STATUS_LOCKED, .reg .QCLK_QCLK_STATUS_READY, .reg
    .QPHY_STATUS_PLL0_LOCK, .reg .QPHY_STATUS_PLL1_LOCK] m)  : Keeps m s0 (synthsOn s) := by
  unfold synthsOn
  try dsimp only
  repeat' first
    | with_reducible assumption
    | exact Within.trans (Eq.refl _) hw
    | (intro _)
    | with_reducible apply wr_keeps
    | with_reducible apply each_keeps
    | with_reducible apply Keeps.ite
    | split

theorem lighten_keeps (h : Keeps m s0 s) (hw : Within [.reg .CTRL_ENABLE, .reg .EVT_PEND_PEND, .reg .EVT_RAW_RAW, .reg
    .QCLK_MISSED_MISSED, .reg .QCLK_ORIGIN_FRAC_FRAC, .reg .QCLK_ORIGIN_HI_ORIGIN_HI, .reg .QCLK_ORIGIN_LO_ORIGIN_LO, .reg
    .QCLK_QCLK_STATUS_LOCKED, .reg .QCLK_QCLK_STATUS_READY, .reg .QCLK_QCLK_STATUS_STOPPED, .eff, .presented, .commits, .clocks, .wheels,
    .cses, .outs] m)  : Keeps m s0 (lighten s) := by
  unfold lighten
  try dsimp only
  repeat' first
    | with_reducible assumption
    | exact Within.trans (Eq.refl _) hw
    | (intro _)
    | with_reducible apply wr_keeps
    | with_reducible apply each_keeps
    | with_reducible apply State.setClock_keeps
    | with_reducible apply qclkStart_keeps
    | with_reducible apply resumeClock_keeps
    | with_reducible apply Keeps.ite
    | split

theorem wakeBenches_keeps (h : Keeps m s0 s) (hw : Within [.reg .BENCH_ALIAS_LAST_PRIOR, .reg .BENCH_ALIAS_STAT_POISON, .reg
    .BENCH_ALIAS_STAT_VALID, .reg .BENCH_BENCH_HEALTH_HEALTH, .reg .BENCH_BIST_STAT_PHASE, .reg .BENCH_BPWR_STAT_STATE, .reg
    .BENCH_COLL_CNT_COUNT, .reg .BENCH_COLL_STAT_STREAMER, .reg .BENCH_ECC_CNT_CE, .reg .BENCH_ECC_CNT_UE, .reg .BENCH_STATUS_BIST_BUSY,
    .reg .BENCH_STATUS_SPARE_FREE, .reg .BENCH_UE_ADDR_IN_SPARE, .reg .BENCH_UE_ADDR_OFFSET, .reg .ERR_CODE_CODE, .reg .ERR_CODE_MASTER,
    .reg .ERR_CODE_OVF, .reg .ERR_CODE_WORD, .reg .ERR_CODE_WRITE, .reg .EVT_PEND_PEND, .reg .EVT_RAW_RAW, .reg .POWER_STATUS_ENTERING, .reg
    .POWER_STATUS_EXITING, .reg .POWER_WAKE_STAT_CLASS, .reg .POWER_WAKE_STAT_FROM, .reg .QUARRY_CAPACITY_N_ACTIVE, .reg .QUARRY_ECC_CNT_CE,
    .reg .QUARRY_ECC_CNT_UE, .reg .QUARRY_LRMAP_MAP, .reg .QUARRY_LRMAP_SPARE, .reg .QUARRY_RANK_STATE_STATE, .reg .QUARRY_STATUS_DEGRADED,
    .reg .QUARRY_STATUS_MIGRATING, .reg .QUARRY_UE_ADDR_HI_ADDR, .reg .QUARRY_UE_ADDR_HI_BANK, .reg .QUARRY_UE_ADDR_HI_RANK, .reg
    .QUARRY_UE_ADDR_LO_ADDR, .readData, .presented, .holdoff, .mem, .poison, .pwr, .qry, .ben, .missed, .free] m)  : Keeps m s0 (wakeBenches
    s) := by
  unfold wakeBenches
  try dsimp only
  repeat' first
    | with_reducible assumption
    | exact Within.trans (Eq.refl _) hw
    | (intro _)
    | with_reducible apply each_keeps
    | with_reducible apply benchWake_keeps
    | with_reducible apply setBenchState_keeps
    | with_reducible apply Keeps.ite
    | split

theorem exitState_keeps (h : Keeps m s0 s) (hw : Within [.reg .BENCH_ALIAS_LAST_PRIOR, .reg .BENCH_ALIAS_STAT_POISON, .reg
    .BENCH_ALIAS_STAT_VALID, .reg .BENCH_BENCH_HEALTH_HEALTH, .reg .BENCH_BIST_STAT_PHASE, .reg .BENCH_BPWR_STAT_STATE, .reg
    .BENCH_COLL_CNT_COUNT, .reg .BENCH_COLL_STAT_STREAMER, .reg .BENCH_ECC_CNT_CE, .reg .BENCH_ECC_CNT_UE, .reg .BENCH_STATUS_BIST_BUSY,
    .reg .BENCH_STATUS_SPARE_FREE, .reg .BENCH_UE_ADDR_IN_SPARE, .reg .BENCH_UE_ADDR_OFFSET, .reg .BURNISH_STATUS_ROTATING, .reg
    .CTRL_ENABLE, .reg .ERR_CODE_CODE, .reg .ERR_CODE_MASTER, .reg .ERR_CODE_OVF, .reg .ERR_CODE_WORD, .reg .ERR_CODE_WRITE, .reg
    .EVT_PEND_PEND, .reg .EVT_RAW_RAW, .reg .HARNESS_CAPU_CFG_LEVEL, .reg .HARNESS_CAPU_CFG_OVR, .reg .HARNESS_GSTB_OVR_OVR, .reg
    .HARNESS_LCNT_OVR_OVERRUN, .reg .HARNESS_LINE_STAT_PENDING, .reg .HARNESS_SOVR_OVR, .reg .PAT_PAT_OVR_OVR, .reg .POWER_STATUS_DSTATE,
    .reg .POWER_STATUS_ENTERING, .reg .POWER_STATUS_EXITING, .reg .POWER_WAKE_STAT_CLASS, .reg .POWER_WAKE_STAT_EXIT_US, .reg
    .POWER_WAKE_STAT_FROM, .reg .QCLK_MISSED_MISSED, .reg .QCLK_ORIGIN_FRAC_FRAC, .reg .QCLK_ORIGIN_HI_ORIGIN_HI, .reg
    .QCLK_ORIGIN_LO_ORIGIN_LO, .reg .QCLK_QCLK_STATUS_LOCKED, .reg .QCLK_QCLK_STATUS_READY, .reg .QCLK_QCLK_STATUS_STOPPED, .reg
    .QPHY_STATUS_PLL0_LOCK, .reg .QPHY_STATUS_PLL1_LOCK, .reg .QUARRY_CAPACITY_N_ACTIVE, .reg .QUARRY_ECC_CNT_CE, .reg .QUARRY_ECC_CNT_UE,
    .reg .QUARRY_LRMAP_MAP, .reg .QUARRY_LRMAP_SPARE, .reg .QUARRY_PORT_LAT_MAX_LAT, .reg .QUARRY_PORT_MISS_COUNT, .reg
    .QUARRY_PORT_STAT_OUTSTANDING, .reg .QUARRY_PORT_STAT_URG, .reg .QUARRY_RANK_STATE_STATE, .reg .QUARRY_STATUS_DEGRADED, .reg
    .QUARRY_STATUS_MIGRATING, .reg .QUARRY_STATUS_SELF_REFRESH, .reg .QUARRY_UE_ADDR_HI_ADDR, .reg .QUARRY_UE_ADDR_HI_BANK, .reg
    .QUARRY_UE_ADDR_HI_RANK, .reg .QUARRY_UE_ADDR_LO_ADDR, .reg .SPARE_STATUS_PHASE, .reg .SPARE_STATUS_VISIT_POS, .reg
    .TBASE_GSTB_STAT_PENDING, .eff, .readData, .presented, .commits, .holdoff, .mem, .poison, .clocks, .gstbs, .wheels, .cses, .outs,
    .lines, .pins, .capus, .evin, .pwr, .qry, .ben, .missed, .tiers, .free] m)  : Keeps m s0 (exitState s) := by
  unfold exitState
  extract_lets d us s1 s2 s3 s4 s5
  have k_s1 : Keeps m s0 s1 := by
    dsimp only [s1]
    repeat' first
      | with_reducible assumption
      | exact Within.trans (Eq.refl _) hw
      | (intro _)
      | with_reducible apply wr_keeps
      | with_reducible apply each_keeps
      | with_reducible apply deliverHeld_keeps
      | with_reducible apply endSelfRefresh_keeps
      | with_reducible apply lighten_keeps
      | with_reducible apply raise_keeps
      | with_reducible apply releaseWaiting_keeps
      | with_reducible apply resumeBurnish_keeps
      | with_reducible apply synthsOn_keeps
      | with_reducible apply takeVisitReq_keeps
      | with_reducible apply wakeBenches_keeps
      | with_reducible apply Keeps.ite
      | split
      | (with_reducible apply Keeps.of_fields <;>
          first | with_reducible exact rfl | with_reducible exact Or.inl rfl | exact Or.inr (Within.trans (Eq.refl _) hw) | skip)
  clear_value s1
  have k_s2 : Keeps m s0 s2 := by
    dsimp only [s2]
    repeat' first
      | with_reducible assumption
      | exact Within.trans (Eq.refl _) hw
      | (intro _)
      | with_reducible apply wr_keeps
      | with_reducible apply each_keeps
      | with_reducible apply deliverHeld_keeps
      | with_reducible apply endSelfRefresh_keeps
      | with_reducible apply lighten_keeps
      | with_reducible apply raise_keeps
      | with_reducible apply releaseWaiting_keeps
      | with_reducible apply resumeBurnish_keeps
      | with_reducible apply synthsOn_keeps
      | with_reducible apply takeVisitReq_keeps
      | with_reducible apply wakeBenches_keeps
      | with_reducible apply Keeps.ite
      | split
      | (with_reducible apply Keeps.of_fields <;>
          first | with_reducible exact rfl | with_reducible exact Or.inl rfl | exact Or.inr (Within.trans (Eq.refl _) hw) | skip)
  clear_value s2
  have k_s3 : Keeps m s0 s3 := by
    dsimp only [s3]
    repeat' first
      | with_reducible assumption
      | exact Within.trans (Eq.refl _) hw
      | (intro _)
      | with_reducible apply wr_keeps
      | with_reducible apply each_keeps
      | with_reducible apply deliverHeld_keeps
      | with_reducible apply endSelfRefresh_keeps
      | with_reducible apply lighten_keeps
      | with_reducible apply raise_keeps
      | with_reducible apply releaseWaiting_keeps
      | with_reducible apply resumeBurnish_keeps
      | with_reducible apply synthsOn_keeps
      | with_reducible apply takeVisitReq_keeps
      | with_reducible apply wakeBenches_keeps
      | with_reducible apply Keeps.ite
      | split
      | (with_reducible apply Keeps.of_fields <;>
          first | with_reducible exact rfl | with_reducible exact Or.inl rfl | exact Or.inr (Within.trans (Eq.refl _) hw) | skip)
  clear_value s3
  have k_s4 : Keeps m s0 s4 := by
    dsimp only [s4]
    repeat' first
      | with_reducible assumption
      | exact Within.trans (Eq.refl _) hw
      | (intro _)
      | with_reducible apply wr_keeps
      | with_reducible apply each_keeps
      | with_reducible apply deliverHeld_keeps
      | with_reducible apply endSelfRefresh_keeps
      | with_reducible apply lighten_keeps
      | with_reducible apply raise_keeps
      | with_reducible apply releaseWaiting_keeps
      | with_reducible apply resumeBurnish_keeps
      | with_reducible apply synthsOn_keeps
      | with_reducible apply takeVisitReq_keeps
      | with_reducible apply wakeBenches_keeps
      | with_reducible apply Keeps.ite
      | split
      | (with_reducible apply Keeps.of_fields <;>
          first | with_reducible exact rfl | with_reducible exact Or.inl rfl | exact Or.inr (Within.trans (Eq.refl _) hw) | skip)
  clear_value s4
  have k_s5 : Keeps m s0 s5 := by
    dsimp only [s5]
    repeat' first
      | with_reducible assumption
      | exact Within.trans (Eq.refl _) hw
      | (intro _)
      | with_reducible apply wr_keeps
      | with_reducible apply each_keeps
      | with_reducible apply deliverHeld_keeps
      | with_reducible apply endSelfRefresh_keeps
      | with_reducible apply lighten_keeps
      | with_reducible apply raise_keeps
      | with_reducible apply releaseWaiting_keeps
      | with_reducible apply resumeBurnish_keeps
      | with_reducible apply synthsOn_keeps
      | with_reducible apply takeVisitReq_keeps
      | with_reducible apply wakeBenches_keeps
      | with_reducible apply Keeps.ite
      | split
      | (with_reducible apply Keeps.of_fields <;>
          first | with_reducible exact rfl | with_reducible exact Or.inl rfl | exact Or.inr (Within.trans (Eq.refl _) hw) | skip)
  clear_value s5
  repeat' first
    | with_reducible assumption
    | exact Within.trans (Eq.refl _) hw
    | (intro _)
    | with_reducible apply wr_keeps
    | with_reducible apply each_keeps
    | with_reducible apply deliverHeld_keeps
    | with_reducible apply endSelfRefresh_keeps
    | with_reducible apply lighten_keeps
    | with_reducible apply raise_keeps
    | with_reducible apply releaseWaiting_keeps
    | with_reducible apply resumeBurnish_keeps
    | with_reducible apply synthsOn_keeps
    | with_reducible apply takeVisitReq_keeps
    | with_reducible apply wakeBenches_keeps
    | with_reducible apply Keeps.ite
    | split
    | (with_reducible apply Keeps.of_fields <;>
        first | with_reducible exact rfl | with_reducible exact Or.inl rfl | exact Or.inr (Within.trans (Eq.refl _) hw) | skip)

theorem execDExit_keeps (h : Keeps m s0 s) (hw : Within [.reg .BENCH_ALIAS_LAST_PRIOR, .reg .BENCH_ALIAS_STAT_POISON, .reg
    .BENCH_ALIAS_STAT_VALID, .reg .BENCH_BENCH_HEALTH_HEALTH, .reg .BENCH_BIST_STAT_PHASE, .reg .BENCH_BPWR_STAT_STATE, .reg
    .BENCH_COLL_CNT_COUNT, .reg .BENCH_COLL_STAT_STREAMER, .reg .BENCH_ECC_CNT_CE, .reg .BENCH_ECC_CNT_UE, .reg .BENCH_STATUS_BIST_BUSY,
    .reg .BENCH_STATUS_SPARE_FREE, .reg .BENCH_UE_ADDR_IN_SPARE, .reg .BENCH_UE_ADDR_OFFSET, .reg .BURNISH_STATUS_ROTATING, .reg
    .CTRL_ENABLE, .reg .ERR_CODE_CODE, .reg .ERR_CODE_MASTER, .reg .ERR_CODE_OVF, .reg .ERR_CODE_WORD, .reg .ERR_CODE_WRITE, .reg
    .EVT_PEND_PEND, .reg .EVT_RAW_RAW, .reg .HARNESS_CAPU_CFG_LEVEL, .reg .HARNESS_CAPU_CFG_OVR, .reg .HARNESS_GSTB_OVR_OVR, .reg
    .HARNESS_LCNT_OVR_OVERRUN, .reg .HARNESS_LINE_STAT_PENDING, .reg .HARNESS_SOVR_OVR, .reg .PAT_PAT_OVR_OVR, .reg .POWER_STATUS_DSTATE,
    .reg .POWER_STATUS_ENTERING, .reg .POWER_STATUS_EXITING, .reg .POWER_WAKE_STAT_CLASS, .reg .POWER_WAKE_STAT_EXIT_US, .reg
    .POWER_WAKE_STAT_FROM, .reg .QCLK_MISSED_MISSED, .reg .QCLK_ORIGIN_FRAC_FRAC, .reg .QCLK_ORIGIN_HI_ORIGIN_HI, .reg
    .QCLK_ORIGIN_LO_ORIGIN_LO, .reg .QCLK_QCLK_STATUS_LOCKED, .reg .QCLK_QCLK_STATUS_READY, .reg .QCLK_QCLK_STATUS_STOPPED, .reg
    .QPHY_STATUS_PLL0_LOCK, .reg .QPHY_STATUS_PLL1_LOCK, .reg .QUARRY_CAPACITY_N_ACTIVE, .reg .QUARRY_ECC_CNT_CE, .reg .QUARRY_ECC_CNT_UE,
    .reg .QUARRY_LRMAP_MAP, .reg .QUARRY_LRMAP_SPARE, .reg .QUARRY_PORT_LAT_MAX_LAT, .reg .QUARRY_PORT_MISS_COUNT, .reg
    .QUARRY_PORT_STAT_OUTSTANDING, .reg .QUARRY_PORT_STAT_URG, .reg .QUARRY_RANK_STATE_STATE, .reg .QUARRY_STATUS_DEGRADED, .reg
    .QUARRY_STATUS_MIGRATING, .reg .QUARRY_STATUS_SELF_REFRESH, .reg .QUARRY_UE_ADDR_HI_ADDR, .reg .QUARRY_UE_ADDR_HI_BANK, .reg
    .QUARRY_UE_ADDR_HI_RANK, .reg .QUARRY_UE_ADDR_LO_ADDR, .reg .SPARE_STATUS_PHASE, .reg .SPARE_STATUS_VISIT_POS, .reg
    .TBASE_GSTB_STAT_PENDING, .eff, .readData, .presented, .commits, .holdoff, .mem, .poison, .clocks, .gstbs, .wheels, .cses, .outs,
    .lines, .pins, .capus, .evin, .pwr, .qry, .ben, .missed, .tiers, .free] m)  : Ends m s0 (execDExit s) := by
  unfold execDExit
  try dsimp only
  repeat' first
    | with_reducible assumption
    | exact Within.trans (Eq.refl _) hw
    | (intro _)
    | with_reducible apply on_keeps
    | with_reducible apply act_keeps
    | with_reducible apply exitState_keeps
    | with_reducible apply Ends.ite
    | with_reducible apply Ends.next
    | split

theorem writeThermCfg_keeps (h : Keeps m s0 s) (hw : Within [.reg .POWER_THERM_CFG_CRIT_ACT, .reg .POWER_THERM_CFG_TCRIT, .reg
    .POWER_THERM_CFG_TLIM, .reg .POWER_THERM_CFG_TWARN] m) (a1 : Nat) : Keeps m s0 (writeThermCfg a1 s) := by
  unfold writeThermCfg
  try dsimp only
  repeat' first
    | with_reducible assumption
    | exact Within.trans (Eq.refl _) hw
    | with_reducible apply wr_keeps

theorem judgeThreshold_keeps (h : Keeps m s0 s) (hw : Within [.reg .EVT_PEND_PEND, .reg .EVT_RAW_RAW, .reg .POWER_STATUS_THERMAL_LIMIT,
    .reg .POWER_STATUS_THERM_CRIT, .reg .POWER_STATUS_THERM_WARN, .presented] m) (a1 a2 : Reg) (hr : Within [.reg a1] m) (a3 : Nat)
    (a4 : Int) : Keeps m s0 (judgeThreshold a1 a2 a3 a4 s) := by
  have k := wr_keeps h hr (judge (s.rd a1) (s.rd a2) a4) 0 0 0
  exact Keeps.ite (raise_keeps k (Within.trans (Eq.refl _) hw) ..) k

theorem applyLimit_keeps (h : Keeps m s0 s) (hw : Within [.reg .BENCH_BPWR_STAT_STATE, .reg .BENCH_STATUS_THERMAL_DEEP, .reg
    .EVT_PEND_PEND, .reg .EVT_RAW_RAW, .presented] m) (a1 : Nat) : Keeps m s0 (applyLimit a1 s) := by
  unfold applyLimit
  try dsimp only
  repeat' first
    | with_reducible assumption
    | exact Within.trans (Eq.refl _) hw
    | with_reducible apply benchThermal_keeps
    | with_reducible apply restBenches_keeps
    | with_reducible apply Keeps.ite
    | split

theorem applyCrit_keeps (h : Keeps m s0 s) (hw : Within [.reg .OUT_FAULT_CTL_FORCE, .reg .OUT_FAULT_STAT_FORCED, .reg
    .POWER_STATUS_ENTERING, .reg .POWER_STATUS_EXITING, .reg .POWER_WAKE_STAT_CLASS, .reg .POWER_WAKE_STAT_FROM, .outs, .pwr] m) (a1 : Nat)
    : Keeps m s0 (applyCrit a1 s) := by
  unfold applyCrit
  try dsimp only
  repeat' first
    | with_reducible assumption
    | exact Within.trans (Eq.refl _) hw
    | (intro _)
    | with_reducible apply each_keeps
    | with_reducible apply wake_keeps
    | with_reducible apply writeForce_keeps
    | with_reducible apply Keeps.ite
    | split

theorem countBand_keeps (h : Keeps m s0 s) (hw : Within [.reg .EVT_PEND_PEND, .reg .EVT_RAW_RAW, .reg .POWER_LIFE_HOURS_HOURS,
    .presented, .pwr] m) (a1 : Nat) : Keeps m s0 (countBand a1 s) := by
  unfold countBand
  try dsimp only
  repeat' first
    | with_reducible assumption
    | exact Within.trans (Eq.refl _) hw
    | with_reducible apply inc_keeps
    | with_reducible apply raise_keeps
    | with_reducible apply Keeps.ite
    | split
    | (with_reducible apply Keeps.of_fields <;>
        first | with_reducible exact rfl | with_reducible exact Or.inl rfl | exact Or.inr (Within.trans (Eq.refl _) hw) | skip)

theorem countSwing_keeps (h : Keeps m s0 s) (hw : Within [.reg .EVT_PEND_PEND, .reg .EVT_RAW_RAW, .reg .POWER_LIFE_CYCLES_THERMAL,
    .presented, .pwr] m) (a1 : Int) : Keeps m s0 (countSwing a1 s) := by
  unfold countSwing
  try dsimp only
  repeat' first
    | with_reducible assumption
    | exact Within.trans (Eq.refl _) hw
    | with_reducible apply inc_keeps
    | with_reducible apply raise_keeps
    | with_reducible apply Keeps.ite
    | split
    | (with_reducible apply Keeps.of_fields <;>
        first | with_reducible exact rfl | with_reducible exact Or.inl rfl | exact Or.inr (Within.trans (Eq.refl _) hw) | skip)

theorem taken_keeps (h : Keeps m s0 s) (hw : Within [.pwr] m) (a1 : Nat) : Keeps m s0 (taken a1 s) := by
  unfold taken
  try dsimp only
  repeat' first
    | with_reducible assumption
    | exact Within.trans (Eq.refl _) hw
    | (with_reducible apply Keeps.of_fields <;>
        first | with_reducible exact rfl | with_reducible exact Or.inl rfl | exact Or.inr (Within.trans (Eq.refl _) hw) | skip)

theorem restart_keeps (h : Keeps m s0 s) (hw : Within [.pwr] m) (a1 : Nat) : Keeps m s0 (restart a1 s) := by
  unfold restart
  try dsimp only
  repeat' first
    | with_reducible assumption
    | exact Within.trans (Eq.refl _) hw
    | (with_reducible apply Keeps.of_fields <;>
        first | with_reducible exact rfl | with_reducible exact Or.inl rfl | exact Or.inr (Within.trans (Eq.refl _) hw) | skip)

theorem recordTj_keeps (h : Keeps m s0 s) (hw : Within [.reg .POWER_THERM_STAT_PEAK, .reg .POWER_THERM_STAT_TJ, .pwr] m) (a1 : Int) :
    Keeps m s0 (recordTj a1 s) := by
  unfold recordTj
  try dsimp only
  repeat' first
    | with_reducible assumption
    | exact Within.trans (Eq.refl _) hw
    | with_reducible apply wr_keeps
    | with_reducible apply taken_keeps
    | with_reducible apply Keeps.ite
    | split

theorem thermal_keeps (h : Keeps m s0 s) (hw : Within [.reg .BENCH_BPWR_STAT_STATE, .reg .BENCH_STATUS_THERMAL_DEEP, .reg
    .EVT_PEND_PEND, .reg .EVT_RAW_RAW, .reg .OUT_FAULT_CTL_FORCE, .reg .OUT_FAULT_STAT_FORCED, .reg .POWER_LIFE_CYCLES_THERMAL, .reg
    .POWER_LIFE_HOURS_HOURS, .reg .POWER_STATUS_ENTERING, .reg .POWER_STATUS_EXITING, .reg .POWER_STATUS_THERMAL_LIMIT, .reg
    .POWER_STATUS_THERM_CRIT, .reg .POWER_STATUS_THERM_WARN, .reg .POWER_THERM_STAT_PEAK, .reg .POWER_THERM_STAT_TJ, .reg
    .POWER_WAKE_STAT_CLASS, .reg .POWER_WAKE_STAT_FROM, .presented, .outs, .pwr] m) (a1 : Int) : Keeps m s0 (thermal a1 s) := by
  unfold thermal
  try dsimp only
  repeat' first
    | with_reducible assumption
    | exact Within.trans (Eq.refl _) hw
    | with_reducible apply applyCrit_keeps
    | with_reducible apply applyLimit_keeps
    | with_reducible apply countBand_keeps
    | with_reducible apply countSwing_keeps
    | with_reducible apply judgeThreshold_keeps
    | with_reducible apply recordTj_keeps

theorem execThermalSample_keeps (h : Keeps m s0 s) (hw : Within [.reg .BENCH_BPWR_STAT_STATE, .reg .BENCH_STATUS_THERMAL_DEEP, .reg
    .EVT_PEND_PEND, .reg .EVT_RAW_RAW, .reg .OUT_FAULT_CTL_FORCE, .reg .OUT_FAULT_STAT_FORCED, .reg .POWER_LIFE_CYCLES_THERMAL, .reg
    .POWER_LIFE_HOURS_HOURS, .reg .POWER_STATUS_ENTERING, .reg .POWER_STATUS_EXITING, .reg .POWER_STATUS_THERMAL_LIMIT, .reg
    .POWER_STATUS_THERM_CRIT, .reg .POWER_STATUS_THERM_WARN, .reg .POWER_THERM_STAT_PEAK, .reg .POWER_THERM_STAT_TJ, .reg
    .POWER_WAKE_STAT_CLASS, .reg .POWER_WAKE_STAT_FROM, .presented, .outs, .pwr] m) (a1 : BitVec 12) : Ends m s0 (execThermalSample a1 s) :=
    by
  unfold execThermalSample
  try dsimp only
  repeat' first
    | with_reducible assumption
    | exact Within.trans (Eq.refl _) hw
    | (intro _)
    | with_reducible apply act_keeps
    | with_reducible apply thermal_keeps
    | with_reducible apply Ends.ite
    | with_reducible apply Ends.next
    | split

theorem execLifeCountSave_keeps (h : Keeps m s0 s) (hw : Within [.pwr] m)  : Ends m s0 (execLifeCountSave s) := by
  unfold execLifeCountSave
  try dsimp only
  repeat' first
    | with_reducible assumption
    | exact Within.trans (Eq.refl _) hw
    | (intro _)
    | with_reducible apply on_keeps
    | with_reducible apply act_keeps
    | with_reducible apply Ends.ite
    | with_reducible apply Ends.next
    | split
    | (with_reducible apply Keeps.of_fields <;>
        first | with_reducible exact rfl | with_reducible exact Or.inl rfl | exact Or.inr (Within.trans (Eq.refl _) hw) | skip)

theorem judgeRail_keeps (h : Keeps m s0 s) (hw : Within [.reg .EVT_PEND_PEND, .reg .EVT_RAW_RAW, .reg .POWER_RAIL_FAULT_LEFT, .reg
    .POWER_RAIL_STAT_IN_RANGE, .reg .POWER_STATUS_ENTERING, .reg .POWER_STATUS_EXITING, .reg .POWER_WAKE_STAT_CLASS, .reg
    .POWER_WAKE_STAT_FROM, .presented, .pwr] m) (a1 : Nat) (a2 : Bool) : Keeps m s0 (judgeRail a1 a2 s) := by
  unfold judgeRail
  try dsimp only
  repeat' first
    | with_reducible assumption
    | exact Within.trans (Eq.refl _) hw
    | with_reducible apply wr_keeps
    | with_reducible apply raise_keeps
    | with_reducible apply wake_keeps
    | with_reducible apply Keeps.ite
    | split

theorem judgeBank_keeps (h : Keeps m s0 s) (hw : Within [.reg .PAT_STATUS_BANK_OK, .reg .PAT_STATUS_BANK_V] m) (a1 : Nat) (a2 : Bool)
    (a3 : Bool) : Keeps m s0 (judgeBank a1 a2 a3 s) := by
  unfold judgeBank
  try dsimp only
  repeat' first
    | with_reducible assumption
    | exact Within.trans (Eq.refl _) hw
    | with_reducible apply wr_keeps
    | with_reducible apply Keeps.ite
    | split

theorem rails_keeps (h : Keeps m s0 s) (hw : Within [.reg .EVT_PEND_PEND, .reg .EVT_RAW_RAW, .reg .PAT_STATUS_BANK_OK, .reg
    .PAT_STATUS_BANK_V, .reg .POWER_RAIL_FAULT_LEFT, .reg .POWER_RAIL_STAT_IN_RANGE, .reg .POWER_STATUS_ENTERING, .reg
    .POWER_STATUS_EXITING, .reg .POWER_VCORE_MV_MV, .reg .POWER_WAKE_STAT_CLASS, .reg .POWER_WAKE_STAT_FROM, .reg .XSPI_STATUS_VIO_18,
    .presented, .pwr] m) (a1 : Nat) (a2 : Nat) (a3 : Nat) : Keeps m s0 (rails a1 a2 a3 s) := by
  unfold rails
  try dsimp only
  repeat' first
    | with_reducible assumption
    | exact Within.trans (Eq.refl _) hw
    | (intro _)
    | with_reducible apply wr_keeps
    | with_reducible apply each_keeps
    | with_reducible apply judgeBank_keeps
    | with_reducible apply judgeRail_keeps
    | with_reducible apply Keeps.ite
    | split

theorem execRailMonitorSample_keeps (h : Keeps m s0 s) (hw : Within [.reg .EVT_PEND_PEND, .reg .EVT_RAW_RAW, .reg .PAT_STATUS_BANK_OK,
    .reg .PAT_STATUS_BANK_V, .reg .POWER_RAIL_FAULT_LEFT, .reg .POWER_RAIL_STAT_IN_RANGE, .reg .POWER_STATUS_ENTERING, .reg
    .POWER_STATUS_EXITING, .reg .POWER_VCORE_MV_MV, .reg .POWER_WAKE_STAT_CLASS, .reg .POWER_WAKE_STAT_FROM, .reg .XSPI_STATUS_VIO_18,
    .presented, .pwr] m) (a1 : BitVec 13) (a2 : BitVec 12) (a3 : BitVec 6) : Ends m s0 (execRailMonitorSample a1 a2 a3 s) := by
  unfold execRailMonitorSample
  try dsimp only
  repeat' first
    | with_reducible assumption
    | exact Within.trans (Eq.refl _) hw
    | (intro _)
    | with_reducible apply act_keeps
    | with_reducible apply rails_keeps
    | with_reducible apply Ends.ite
    | with_reducible apply Ends.next
    | split

theorem paceWindow_keeps (h : Keeps m s0 s) (hw : Within [.reg .EVT_PEND_PEND, .reg .EVT_RAW_RAW, .reg .POWER_PACE_MIN, .reg
    .POWER_PACE_RATIO, .reg .POWER_PACE_WARN_QUAD, .presented, .pwr] m) (a1 : Nat) (a2 : Nat) : Keeps m s0 (paceWindow a1 a2 s) := by
  unfold paceWindow
  try dsimp only
  repeat' first
    | with_reducible assumption
    | exact Within.trans (Eq.refl _) hw
    | with_reducible apply wr_keeps
    | with_reducible apply raiseFor_keeps
    | with_reducible apply taken_keeps
    | with_reducible apply Keeps.ite
    | split

theorem execPaceWindowEnd_keeps (h : Keeps m s0 s) (hw : Within [.reg .EVT_PEND_PEND, .reg .EVT_RAW_RAW, .reg .POWER_PACE_MIN, .reg
    .POWER_PACE_RATIO, .reg .POWER_PACE_WARN_QUAD, .presented, .pwr] m) (a1 : Quad) (a2 : Word) : Ends m s0 (execPaceWindowEnd a1 a2 s) :=
    by
  unfold execPaceWindowEnd
  try dsimp only
  repeat' first
    | with_reducible assumption
    | exact Within.trans (Eq.refl _) hw
    | (intro _)
    | with_reducible apply on_keeps
    | with_reducible apply act_keeps
    | with_reducible apply paceWindow_keeps
    | with_reducible apply Ends.ite
    | with_reducible apply Ends.next
    | split

theorem judgeSpares_keeps (h : Keeps m s0 s) (hw : Within [.reg .EVT_PEND_PEND, .reg .EVT_RAW_RAW, .presented, .pwr] m)  : Keeps m s0
    (judgeSpares s) := by
  unfold judgeSpares
  try dsimp only
  repeat' first
    | with_reducible assumption
    | exact Within.trans (Eq.refl _) hw
    | with_reducible apply raise_keeps
    | with_reducible apply Keeps.ite
    | split
    | (with_reducible apply Keeps.of_fields <;>
        first | with_reducible exact rfl | with_reducible exact Or.inl rfl | exact Or.inr (Within.trans (Eq.refl _) hw) | skip)

theorem countResidency_keeps (h : Keeps m s0 s) (hw : Within [.reg .POWER_RESIDENCY_MS, .pwr] m)  : Keeps m s0 (countResidency s) := by
  unfold countResidency
  try dsimp only
  repeat' first
    | with_reducible assumption
    | exact Within.trans (Eq.refl _) hw
    | with_reducible apply inc_keeps
    | with_reducible apply Keeps.ite
    | split
    | (with_reducible apply Keeps.of_fields <;>
        first | with_reducible exact rfl | with_reducible exact Or.inl rfl | exact Or.inr (Within.trans (Eq.refl _) hw) | skip)

theorem trackQuiet_keeps (h : Keeps m s0 s) (hw : Within [.pwr] m)  : Keeps m s0 (trackQuiet s) := by
  unfold trackQuiet
  try dsimp only
  repeat' first
    | with_reducible assumption
    | exact Within.trans (Eq.refl _) hw
    | with_reducible apply Keeps.ite
    | split
    | with_reducible apply KeepsOpt.getD
    | (with_reducible apply Keeps.of_fields <;>
        first | with_reducible exact rfl | with_reducible exact Or.inl rfl | exact Or.inr (Within.trans (Eq.refl _) hw) | skip)

theorem freezeWatchdog_keeps (h : Keeps m s0 s) (hw : Within [.sec] m)  : Keeps m s0 (freezeWatchdog s) := by
  unfold freezeWatchdog
  try dsimp only
  repeat' first
    | with_reducible assumption
    | exact Within.trans (Eq.refl _) hw
    | with_reducible apply Keeps.ite
    | split
    | (with_reducible apply Keeps.of_fields <;>
        first | with_reducible exact rfl | with_reducible exact Or.inl rfl | exact Or.inr (Within.trans (Eq.refl _) hw) | skip)

theorem tick_keeps (h : Keeps m s0 s) (hw : Within [.reg .EVT_PEND_PEND, .reg .EVT_RAW_RAW, .reg .POWER_RESIDENCY_MS, .now, .osc,
    .presented, .pins, .sec, .pwr] m) : Keeps m s0 (tick s) := by
  unfold tick
  refine Keeps.ite h ?_
  extract_lets s1
  have k_1 : Keeps m s0 s1 :=
    Keeps.upd_presented (Keeps.upd_osc (h.upd_now (Within.trans (Eq.refl _) hw) (fun _ => Nat.mod_lt _ (Nat.two_pow_pos 64)))
      (Within.trans (Eq.refl _) hw) _) (Within.trans (Eq.refl _) hw) _
  clear_value s1
  refine Keeps.ite (judgeSpares_keeps (trackQuiet_keeps (countResidency_keeps (freezeWatchdog_keeps (passFilters_keeps k_1 ?_) ?_) ?_)
    ?_) ?_) k_1 <;>
    exact Within.trans (Eq.refl _) hw

end Sys2Proof.Machine
end

