-- ==== Sys2Proof/Laws/ResetKeeps.lean ====
section
/-! SUPPORT. What the operations of Machine/Reset.lean keep: the queue, the invariant, and every part outside their footprint. -/

set_option maxRecDepth 4000
set_option linter.unusedTactic false
set_option linter.unreachableTactic false

namespace Sys2Proof.Machine

variable {m : Nat} {s0 s : State}

theorem coldReset_keeps (h : Keeps m s0 s) (hw : Whole m) : Keeps m s0 (coldReset s) := by
  have h1 := newGeneration_keeps (finishByMap_keeps (Keeps.refl m s) (hw.within _)) (hw.within _)
  refine h.whole hw rfl (fun hi => ⟨rfl, Nat.two_pow_pos 64, ?_, fieldsFit_nil, fieldsFit_nil⟩)
  exact fieldsFit_filter (h1.inv hi).2.2.1 _

theorem execPowerGoodFall_keeps (h : Keeps m s0 s) (hw : Whole m)  : Ends m s0
    (execPowerGoodFall s) := by
  unfold execPowerGoodFall
  try dsimp only
  repeat' first
    | with_reducible assumption
    | exact hw
    | exact hw.within _
    | with_reducible apply coldReset_keeps
    | with_reducible apply Keeps.ite
    | with_reducible apply Ends.ite
    | with_reducible apply Ends.next
    | split

theorem execPowerGoodRise_keeps (h : Keeps m s0 s) (hw : Within [.reg .XSPI_STATUS_VIO_18, .dev, .addrPins] m) (a1 : BitVec 3) (a2 :
    Bool) : Ends m s0 (execPowerGoodRise a1 a2 s) := by
  unfold execPowerGoodRise
  try dsimp only
  repeat' first
    | with_reducible assumption
    | exact Within.trans (Eq.refl _) hw
    | with_reducible apply wr_keeps
    | with_reducible apply Keeps.ite
    | with_reducible apply Ends.ite
    | with_reducible apply Ends.next
    | split
    | (with_reducible apply Keeps.of_fields <;>
        first | with_reducible exact rfl | with_reducible exact Or.inl rfl | exact Or.inr (Within.trans (Eq.refl _) hw) | skip)

theorem loadLife_keeps (h : Keeps m s0 s) (hw : Within [.reg .EVT_PEND_PEND, .reg .EVT_RAW_RAW, .reg .POWER_LIFE_CYCLES_PWRGD, .reg
    .POWER_LIFE_CYCLES_THERMAL, .reg .POWER_LIFE_HOURS_HOURS, .presented] m)  : Keeps m s0 (loadLife s) := by
  unfold loadLife
  try dsimp only
  repeat' first
    | with_reducible assumption
    | exact Within.trans (Eq.refl _) hw
    | (intro _)
    | with_reducible apply wr_keeps
    | with_reducible apply each_keeps
    | with_reducible apply raise_keeps
    | with_reducible apply Keeps.ite
    | split
    | with_reducible apply KeepsOpt.getD

theorem spoilMap_keeps (h : Keeps m s0 s) (hw : Within [.tiers] m) (a1 : Nat) : Keeps m s0 (spoilMap a1 s) := by
  unfold spoilMap
  try dsimp only
  repeat' first
    | with_reducible assumption
    | exact Within.trans (Eq.refl _) hw
    | (intro _)
    | with_reducible apply State.setTier_keeps
    | with_reducible apply Keeps.ite
    | split

theorem nvmLoaded_keeps (h : Keeps m s0 s) (hw : Within [.reg .BENCH_STATUS_SPARE_FREE, .reg .BURNISH_STATUS_ROTATING, .reg
    .EVT_PEND_PEND, .reg .EVT_RAW_RAW, .reg .OUT_NVM_STAT_ERR, .reg .OUT_NV_FAULT_VAL, .reg .OUT_NV_SAFE_VAL, .reg .OUT_NV_WAKE_SPAN, .reg
    .OUT_NV_WAKE_VAL, .reg .OUT_STAGECTL_PREFER, .reg .OUT_STATUS_HIGHZ, .reg .OUT_STATUS_NVM_BAD, .reg .POWER_LIFE_CYCLES_PWRGD, .reg
    .POWER_LIFE_CYCLES_THERMAL, .reg .POWER_LIFE_HOURS_HOURS, .reg .SPARE_CORE_MAP, .reg .SPARE_CORE_STATE_ROLE, .reg .SPARE_ELEM_TRIM_E,
    .reg .SPARE_GO_TRIM_GAIN, .reg .SPARE_GO_TRIM_OFFSET, .reg .SPARE_LADDER_TRIM_L, .reg .SPARE_SKIP_SUSPECT, .reg .SPARE_STAGE_TRIM_GAIN,
    .reg .SPARE_STAGE_TRIM_OFFSET, .reg .SPARE_STATUS_PHASE, .reg .SPARE_STATUS_SPARE_CORE, .reg .SPARE_STATUS_SPARE_FREE, .reg
    .SPARE_STATUS_VISIT_POS, .dev, .presented, .outs, .sec, .pwr, .tiers] m) (a1 : List Nat) (a2 : List Nat) (a3 : List Nat) : Keeps m s0
    (nvmLoaded a1 a2 a3 s) := by
  unfold nvmLoaded
  extract_lets s1 s2 s3 cover s4
  have k_s1 : Keeps m s0 s1 := by
    dsimp only [s1]
    repeat' first
      | with_reducible assumption
      | exact Within.trans (Eq.refl _) hw
      | (intro _)
      | with_reducible apply wr_keeps
      | with_reducible apply each_keeps
      | with_reducible apply State.setOut_keeps
      | with_reducible apply loadLife_keeps
      | with_reducible apply loadRecord_keeps
      | with_reducible apply loadTier_keeps
      | with_reducible apply spoilMap_keeps
      | with_reducible apply Keeps.ite
      | split
      | (with_reducible apply Keeps.of_fields <;>
          first | with_reducible exact rfl | with_reducible exact Or.inl rfl | exact Or.inr (Within.trans (Eq.refl _) hw) | skip)
  clear_value s1
  have k_s2 : Keeps m s0 s2 := by
    dsimp only [s2]
    repeat' first
      | with_reducible assumption
      | exact Within.trans (Eq.refl _) hw
      | (intro _)
      | with_reducible apply wr_keeps
      | with_reducible apply each_keeps
      | with_reducible apply State.setOut_keeps
      | with_reducible apply loadLife_keeps
      | with_reducible apply loadRecord_keeps
      | with_reducible apply loadTier_keeps
      | with_reducible apply spoilMap_keeps
      | with_reducible apply Keeps.ite
      | split
      | (with_reducible apply Keeps.of_fields <;>
          first | with_reducible exact rfl | with_reducible exact Or.inl rfl | exact Or.inr (Within.trans (Eq.refl _) hw) | skip)
  clear_value s2
  have k_s3 : Keeps m s0 s3 := by
    dsimp only [s3]
    repeat' first
      | with_reducible assumption
      | exact Within.trans (Eq.refl _) hw
      | (intro _)
      | with_reducible apply wr_keeps
      | with_reducible apply each_keeps
      | with_reducible apply State.setOut_keeps
      | with_reducible apply loadLife_keeps
      | with_reducible apply loadRecord_keeps
      | with_reducible apply loadTier_keeps
      | with_reducible apply spoilMap_keeps
      | with_reducible apply Keeps.ite
      | split
      | (with_reducible apply Keeps.of_fields <;>
          first | with_reducible exact rfl | with_reducible exact Or.inl rfl | exact Or.inr (Within.trans (Eq.refl _) hw) | skip)
  clear_value s3
  have k_s4 : Keeps m s0 s4 := by
    dsimp only [s4]
    repeat' first
      | with_reducible assumption
      | exact Within.trans (Eq.refl _) hw
      | (intro _)
      | with_reducible apply wr_keeps
      | with_reducible apply each_keeps
      | with_reducible apply State.setOut_keeps
      | with_reducible apply loadLife_keeps
      | with_reducible apply loadRecord_keeps
      | with_reducible apply loadTier_keeps
      | with_reducible apply spoilMap_keeps
      | with_reducible apply Keeps.ite
      | split
      | (with_reducible apply Keeps.of_fields <;>
          first | with_reducible exact rfl | with_reducible exact Or.inl rfl | exact Or.inr (Within.trans (Eq.refl _) hw) | skip)
  clear_value s4
  repeat' first
    | with_reducible assumption
    | exact Within.trans (Eq.refl _) hw
    | (intro _)
    | with_reducible apply wr_keeps
    | with_reducible apply each_keeps
    | with_reducible apply State.setOut_keeps
    | with_reducible apply loadLife_keeps
    | with_reducible apply loadRecord_keeps
    | with_reducible apply loadTier_keeps
    | with_reducible apply spoilMap_keeps
    | with_reducible apply Keeps.ite
    | split
    | (with_reducible apply Keeps.of_fields <;>
        first | with_reducible exact rfl | with_reducible exact Or.inl rfl | exact Or.inr (Within.trans (Eq.refl _) hw) | skip)

theorem execPowerupNvmLoaded_keeps (h : Keeps m s0 s) (hw : Within [.reg .BENCH_STATUS_SPARE_FREE, .reg .BURNISH_STATUS_ROTATING, .reg
    .EVT_PEND_PEND, .reg .EVT_RAW_RAW, .reg .OUT_NVM_STAT_ERR, .reg .OUT_NV_FAULT_VAL, .reg .OUT_NV_SAFE_VAL, .reg .OUT_NV_WAKE_SPAN, .reg
    .OUT_NV_WAKE_VAL, .reg .OUT_STAGECTL_PREFER, .reg .OUT_STATUS_HIGHZ, .reg .OUT_STATUS_NVM_BAD, .reg .POWER_LIFE_CYCLES_PWRGD, .reg
    .POWER_LIFE_CYCLES_THERMAL, .reg .POWER_LIFE_HOURS_HOURS, .reg .SPARE_CORE_MAP, .reg .SPARE_CORE_STATE_ROLE, .reg .SPARE_ELEM_TRIM_E,
    .reg .SPARE_GO_TRIM_GAIN, .reg .SPARE_GO_TRIM_OFFSET, .reg .SPARE_LADDER_TRIM_L, .reg .SPARE_SKIP_SUSPECT, .reg .SPARE_STAGE_TRIM_GAIN,
    .reg .SPARE_STAGE_TRIM_OFFSET, .reg .SPARE_STATUS_PHASE, .reg .SPARE_STATUS_SPARE_CORE, .reg .SPARE_STATUS_SPARE_FREE, .reg
    .SPARE_STATUS_VISIT_POS, .dev, .presented, .outs, .sec, .pwr, .tiers] m) (a1 : List (Fin 48)) (a2 : List (Fin 60)) : Ends m s0
    (execPowerupNvmLoaded a1 a2 s) := by
  unfold execPowerupNvmLoaded
  try dsimp only
  repeat' first
    | with_reducible assumption
    | exact Within.trans (Eq.refl _) hw
    | (intro _)
    | with_reducible apply nvmLoaded_keeps
    | with_reducible apply Keeps.ite
    | with_reducible apply Ends.ite
    | with_reducible apply Ends.next
    | split

theorem powerupStep_keeps (h : Keeps m s0 s) (hw : Within [.pwr] m) (a1 : Nat) (a2 : State → State) (k2 : ∀ t, Keeps m s0 t → Keeps m s0
    (a2 t)) : Ends m s0 (powerupStep a1 a2 s) := by
  unfold powerupStep
  try dsimp only
  repeat' first
    | with_reducible assumption
    | exact Within.trans (Eq.refl _) hw
    | (intro _)
    | with_reducible apply on_keeps
    | with_reducible apply act_keeps
    | with_reducible apply k2
    | with_reducible apply Ends.ite
    | with_reducible apply Ends.next
    | split
    | (with_reducible apply Keeps.of_fields <;>
        first | with_reducible exact rfl | with_reducible exact Or.inl rfl | exact Or.inr (Within.trans (Eq.refl _) hw) | skip)

theorem wakeCodes_keeps (h : Keeps m s0 s) (hw : Within [.reg .EVT_PEND_PEND, .reg .EVT_RAW_RAW, .reg .OUT_SPANCTL_SPAN, .reg
    .OUT_STATUS_SPAN_NOW, .eff, .presented, .outs] m)  : Keeps m s0 (wakeCodes s) := by
  unfold wakeCodes
  try dsimp only
  repeat' first
    | with_reducible assumption
    | exact Within.trans (Eq.refl _) hw
    | (intro _)
    | with_reducible apply wr_keeps
    | with_reducible apply wrEff_keeps
    | with_reducible apply each_keeps
    | with_reducible apply showVolt_keeps

theorem execPowerupRefSettled_keeps (h : Keeps m s0 s) (hw : Within [.reg .EVT_PEND_PEND, .reg .EVT_RAW_RAW, .reg .OUT_SPANCTL_SPAN,
    .reg .OUT_STATUS_SPAN_NOW, .eff, .presented, .outs, .pwr] m)  : Ends m s0 (execPowerupRefSettled s) := by
  unfold execPowerupRefSettled
  try dsimp only
  repeat' first
    | with_reducible assumption
    | exact Within.trans (Eq.refl _) hw
    | (intro _)
    | with_reducible apply powerupStep_keeps
    | with_reducible apply wakeCodes_keeps
    | with_reducible apply Ends.ite
    | with_reducible apply Ends.next
    | split

theorem execPowerupStageBiased_keeps (h : Keeps m s0 s) (hw : Within [.reg .OUT_STATUS_STAGE, .pwr] m)  : Ends m s0
    (execPowerupStageBiased s) := by
  unfold execPowerupStageBiased
  try dsimp only
  repeat' first
    | with_reducible assumption
    | exact Within.trans (Eq.refl _) hw
    | (intro _)
    | with_reducible apply wr_keeps
    | with_reducible apply each_keeps
    | with_reducible apply powerupStep_keeps
    | with_reducible apply Ends.ite
    | with_reducible apply Ends.next
    | split

theorem execPowerupSwitchClose_keeps (h : Keeps m s0 s) (hw : Within [.reg .EVT_PEND_PEND, .reg .EVT_RAW_RAW, .reg .OUT_STATUS_HIGHZ,
    .presented, .outs, .pwr] m)  : Ends m s0 (execPowerupSwitchClose s) := by
  unfold execPowerupSwitchClose
  try dsimp only
  repeat' first
    | with_reducible assumption
    | exact Within.trans (Eq.refl _) hw
    | (intro _)
    | with_reducible apply wr_keeps
    | with_reducible apply each_keeps
    | with_reducible apply on_keeps
    | with_reducible apply powerupStep_keeps
    | with_reducible apply riseWake_keeps
    | with_reducible apply Ends.ite
    | with_reducible apply Ends.next
    | split

theorem execPowerupWakeReached_keeps (h : Keeps m s0 s) (hw : Within [.pwr] m)  : Ends m s0 (execPowerupWakeReached s) := by
  unfold execPowerupWakeReached
  try dsimp only
  repeat' first
    | with_reducible assumption
    | exact Within.trans (Eq.refl _) hw
    | (intro _)
    | with_reducible apply powerupStep_keeps
    | with_reducible apply Ends.ite
    | with_reducible apply Ends.next
    | split
    | (unfold id; with_reducible assumption)

theorem execTackReady_keeps (h : Keeps m s0 s) (hw : Within [.reg .BENCH_STATUS_READY, .reg .TACK_STATUS_READY, .reg
    .TBASE_TB_STATUS_PLL_LOCKED, .reg .TBASE_TB_STATUS_REF_PRESENT, .pllStarted] m)  : Ends m s0 (execTackReady s) := by
  unfold execTackReady
  try dsimp only
  repeat' first
    | with_reducible assumption
    | exact Within.trans (Eq.refl _) hw
    | (intro _)
    | with_reducible apply wr_keeps
    | with_reducible apply act_keeps
    | with_reducible apply Keeps.ite
    | with_reducible apply Ends.ite
    | with_reducible apply Ends.next
    | split
    | (with_reducible apply Keeps.of_fields <;>
        first | with_reducible exact rfl | with_reducible exact Or.inl rfl | exact Or.inr (Within.trans (Eq.refl _) hw) | skip)

theorem endBist_keeps (h : Keeps m s0 s) (hw : Within [.reg .BENCH_BENCH_HEALTH_HEALTH, .reg .BENCH_BIST_PTR_OFFSET, .reg
    .BENCH_BIST_STAT_PASS, .reg .BENCH_BIST_STAT_PHASE, .reg .BENCH_BPWR_STAT_STATE, .reg .BENCH_ECC_CNT_CE, .reg .BENCH_ECC_CNT_UE, .reg
    .BENCH_STATUS_BIST_BUSY, .reg .BENCH_STATUS_REPLACING, .reg .BENCH_STATUS_SPARE_COVER, .reg .BENCH_STATUS_SPARE_FREE, .reg
    .BENCH_UE_ADDR_IN_SPARE, .reg .BENCH_UE_ADDR_OFFSET, .reg .EVT_PEND_PEND, .reg .EVT_RAW_RAW, .reg .POWER_STATUS_ENTERING, .reg
    .POWER_STATUS_EXITING, .reg .POWER_WAKE_STAT_CLASS, .reg .POWER_WAKE_STAT_FROM, .presented, .holdoff, .poison, .pwr, .ben] m)  : Keeps m
    s0 (endBist s) := by
  unfold endBist
  try dsimp only
  repeat' first
    | with_reducible assumption
    | exact Within.trans (Eq.refl _) hw
    | with_reducible apply wr_keeps
    | with_reducible apply replaceDone_keeps
    | with_reducible apply restoreDone_keeps
    | with_reducible apply setBistPhase_keeps
    | with_reducible apply Keeps.ite
    | split
    | (with_reducible apply Keeps.of_fields <;>
        first | with_reducible exact rfl | with_reducible exact Or.inl rfl | exact Or.inr (Within.trans (Eq.refl _) hw) | skip)

theorem settleBenches_keeps (h : Keeps m s0 s) (hw : Within [.reg .BENCH_BPWR_STAT_STATE] m)  : Keeps m s0 (settleBenches s) := by
  unfold settleBenches
  try dsimp only
  repeat' first
    | with_reducible assumption
    | exact Within.trans (Eq.refl _) hw
    | (intro _)
    | with_reducible apply each_keeps
    | with_reducible apply setBenchState_keeps
    | with_reducible apply Keeps.ite
    | split

theorem clearWarm_keeps (h : Keeps m s0 s) (hw : Whole m) : Keeps m s0 (clearWarm s) := by
  unfold clearWarm
  extract_lets u b s1 s2
  have k_u : Keeps m s0 u := by
    dsimp only [u]
    refine each_keeps (fun x t ht => resetTier_keeps ht (hw.within _) ..) (each_keeps (fun x t ht => resetOut_keeps ht (hw.within _) ..) ?_)
    exact endBist_keeps h (hw.within _)
  clear_value u
  have k_1 : Keeps m s0 s1 :=
    k_u.whole hw rfl (fun hi => ⟨hi.1, hi.2.1, fieldsFit_filter hi.2.2.1 _, fieldsFit_nil, fieldsFit_nil⟩)
  clear_value s1
  have k_2 : Keeps m s0 s2 :=
    each_keeps (fun x t ht => wrEff_keeps (wr_keeps ht (hw.within _) ..) (hw.within _) ..) k_1
  clear_value s2
  exact settleBenches_keeps k_2 (hw.within _)

theorem reportWarm_keeps (h : Keeps m s0 s) (hw : Within [.reg .BURNISH_STATUS_ROTATING, .reg .EVT_PEND_PEND, .reg .EVT_RAW_RAW, .reg
    .OUT_NVM_STAT_ERR, .reg .OUT_NV_FAULT_VAL, .reg .OUT_NV_SAFE_VAL, .reg .OUT_NV_WAKE_SPAN, .reg .OUT_NV_WAKE_VAL, .reg
    .OUT_STAGECTL_PREFER, .reg .OUT_STATUS_HIGHZ, .reg .OUT_STATUS_NVM_BAD, .reg .SPARE_ELEM_TRIM_E, .reg .SPARE_GO_TRIM_GAIN, .reg
    .SPARE_GO_TRIM_OFFSET, .reg .SPARE_LADDER_TRIM_L, .reg .SPARE_STATUS_PHASE, .reg .SPARE_STATUS_VISIT_POS, .reg .XSPI_LD_STAT_STOP,
    .presented, .outs, .tiers] m) (a1 : Bool) : Keeps m s0 (reportWarm a1 s) := by
  unfold reportWarm
  try dsimp only
  repeat' first
    | with_reducible assumption
    | exact Within.trans (Eq.refl _) hw
    | (intro _)
    | with_reducible apply wr_keeps
    | with_reducible apply each_keeps
    | with_reducible apply loadRecord_keeps
    | with_reducible apply raise_keeps
    | with_reducible apply Keeps.ite
    | split

theorem warmReset_keeps (h : Keeps m s0 s) (hw : Whole m) (a1 : Reg) : Keeps m s0 (warmReset a1 s) := by
  unfold warmReset
  refine Keeps.ite (Keeps.upd_pwr h (hw.within _) _) ?_
  extract_lets f j s1
  have k_1 : Keeps m s0 s1 := reportWarm_keeps (clearWarm_keeps h hw) (hw.within _) _
  clear_value s1
  have k_2 : Keeps m s0 (((s1.wr .QUARRY_STATUS_SELF_REFRESH 1).wr a1 1).inc .SYS_RESET_CNT_WARM) :=
    inc_keeps (wr_keeps (wr_keeps k_1 (hw.within _) ..) (hw.within _) ..) (hw.within _) ..
  with_reducible apply Keeps.of_fields <;>
    first | with_reducible exact rfl | with_reducible exact Or.inl rfl | exact Or.inr (hw.within _) | exact k_2

theorem execResetPin_keeps (h : Keeps m s0 s) (hw : Whole m)  : Ends m s0 (execResetPin s) := by
  unfold execResetPin
  try dsimp only
  repeat' first
    | with_reducible assumption
    | exact hw
    | exact hw.within _
    | with_reducible apply warmReset_keeps
    | with_reducible apply Keeps.ite
    | with_reducible apply Ends.ite
    | with_reducible apply Ends.next
    | split

theorem execSysSoftReset_keeps (h : Keeps m s0 s) (hw : Whole m) (a1 : Master) : Ends m s0 (execSysSoftReset a1 s) := by
  unfold execSysSoftReset
  try dsimp only
  repeat' first
    | with_reducible assumption
    | exact hw
    | exact hw.within _
    | (intro _)
    | with_reducible apply act_keeps
    | with_reducible apply gateBy_keeps
    | with_reducible apply warmReset_keeps
    | with_reducible apply Ends.ite
    | with_reducible apply Ends.next
    | split

theorem rstactDevice_keeps (h : Keeps m s0 s) (hw : Whole m) (a1 : Nat) : Keeps m s0 (rstactDevice a1 s) := by
  unfold rstactDevice
  try dsimp only
  repeat' first
    | with_reducible assumption
    | exact hw
    | exact hw.within _
    | with_reducible apply State.setPort_keeps
    | with_reducible apply raise_keeps
    | with_reducible apply resetPort_keeps
    | with_reducible apply warmReset_keeps
    | with_reducible apply Keeps.ite
    | split

theorem execRstactDevice_keeps (h : Keeps m s0 s) (hw : Whole m) (a1 : Fin 2) : Ends m s0 (execRstactDevice a1 s) := by
  unfold execRstactDevice
  try dsimp only
  repeat' first
    | with_reducible assumption
    | exact hw
    | exact hw.within _
    | (intro _)
    | with_reducible apply ccc_keeps
    | with_reducible apply rstactDevice_keeps
    | with_reducible apply Ends.ite
    | with_reducible apply Ends.next
    | split

theorem resetPattern_keeps (h : Keeps m s0 s) (hw : Whole m) (a1 : Nat) : Keeps m s0 (resetPattern a1 s) := by
  unfold resetPattern
  try dsimp only
  repeat' first
    | with_reducible assumption
    | exact hw
    | exact hw.within _
    | with_reducible apply raise_keeps
    | with_reducible apply resetPort_keeps
    | with_reducible apply rstactDevice_keeps
    | split

theorem execTargetResetPattern_keeps (h : Keeps m s0 s) (hw : Whole m) (a1 : Fin 2) : Ends m s0 (execTargetResetPattern a1 s) := by
  unfold execTargetResetPattern
  try dsimp only
  repeat' first
    | with_reducible assumption
    | exact hw
    | exact hw.within _
    | (intro _)
    | with_reducible apply on_keeps
    | with_reducible apply act_keeps
    | with_reducible apply resetPattern_keeps
    | with_reducible apply Ends.ite
    | with_reducible apply Ends.next
    | split

theorem warmEnd_keeps (h : Keeps m s0 s) (hw : Within [.reg .QPHY_STATUS_PLL0_LOCK, .reg .QPHY_STATUS_PLL1_LOCK, .reg
    .QUARRY_STATUS_READY, .reg .QUARRY_STATUS_SELF_REFRESH, .dev, .addrPins, .sec, .qry] m) (a1 : Nat) : Keeps m s0 (warmEnd a1 s) := by
  unfold warmEnd
  try dsimp only
  repeat' first
    | with_reducible assumption
    | exact Within.trans (Eq.refl _) hw
    | with_reducible apply wr_keeps
    | with_reducible apply endSelfRefresh_keeps
    | with_reducible apply Keeps.ite
    | split
    | (with_reducible apply Keeps.of_fields <;>
        first | with_reducible exact rfl | with_reducible exact Or.inl rfl | exact Or.inr (Within.trans (Eq.refl _) hw) | skip)

theorem execWarmResetEnd_keeps (h : Keeps m s0 s) (hw : Within [.reg .QPHY_STATUS_PLL0_LOCK, .reg .QPHY_STATUS_PLL1_LOCK, .reg
    .QUARRY_STATUS_READY, .reg .QUARRY_STATUS_SELF_REFRESH, .dev, .addrPins, .sec, .qry] m) (a1 : BitVec 3) : Ends m s0 (execWarmResetEnd a1
    s) := by
  unfold execWarmResetEnd
  try dsimp only
  repeat' first
    | with_reducible assumption
    | exact Within.trans (Eq.refl _) hw
    | with_reducible apply warmEnd_keeps
    | with_reducible apply Keeps.ite
    | with_reducible apply Ends.ite
    | with_reducible apply Ends.next
    | split

theorem trainFails_keeps (h : Keeps m s0 s) (hw : Within [.reg .EVT_PEND_PEND, .reg .EVT_RAW_RAW, .reg .QUARRY_CAPACITY_N_ACTIVE, .reg
    .QUARRY_LRMAP_MAP, .reg .QUARRY_LRMAP_SPARE, .reg .QUARRY_RANK_STATE_STATE, .reg .QUARRY_STATUS_DEGRADED, .presented] m) (a1 : Nat) :
    Keeps m s0 (trainFails a1 s) := by
  unfold trainFails
  try dsimp only
  repeat' first
    | with_reducible assumption
    | exact Within.trans (Eq.refl _) hw
    | with_reducible apply wr_keeps
    | with_reducible apply raise_keeps
    | with_reducible apply retireRank_keeps
    | with_reducible apply setRank_keeps
    | with_reducible apply Keeps.ite
    | split

theorem train_keeps (h : Keeps m s0 s) (hw : Within [.reg .EVT_PEND_PEND, .reg .EVT_RAW_RAW, .reg .QPHY_STATUS_PLL0_LOCK, .reg
    .QPHY_STATUS_PLL1_LOCK, .reg .QPHY_TSET_CTL_ACTIVE, .reg .QPHY_TSET_CTL_A_OP, .reg .QPHY_TSET_CTL_A_VALID, .reg
    .QUARRY_CAPACITY_N_ACTIVE, .reg .QUARRY_LRMAP_MAP, .reg .QUARRY_LRMAP_SPARE, .reg .QUARRY_RANK_STATE_STATE, .reg
    .QUARRY_STATUS_DEGRADED, .reg .QUARRY_STATUS_READY, .presented, .qry, .free] m) (a1 : List Nat) : Keeps m s0 (train a1 s) := by
  unfold train
  extract_lets s1 s2
  have k_s1 : Keeps m s0 s1 := by
    dsimp only [s1]
    repeat' first
      | with_reducible assumption
      | exact Within.trans (Eq.refl _) hw
      | (intro _)
      | with_reducible apply wr_keeps
      | with_reducible apply each_keeps
      | with_reducible apply State.nextFree_keeps
      | with_reducible apply trainFails_keeps
      | (with_reducible apply Keeps.of_fields <;>
          first | with_reducible exact rfl | with_reducible exact Or.inl rfl | exact Or.inr (Within.trans (Eq.refl _) hw) | skip)
  clear_value s1
  have k_s2 : Keeps m s0 s2 := by
    dsimp only [s2]
    repeat' first
      | with_reducible assumption
      | exact Within.trans (Eq.refl _) hw
      | (intro _)
      | with_reducible apply wr_keeps
      | with_reducible apply each_keeps
      | with_reducible apply State.nextFree_keeps
      | with_reducible apply trainFails_keeps
      | (with_reducible apply Keeps.of_fields <;>
          first | with_reducible exact rfl | with_reducible exact Or.inl rfl | exact Or.inr (Within.trans (Eq.refl _) hw) | skip)
  clear_value s2
  repeat' first
    | with_reducible assumption
    | exact Within.trans (Eq.refl _) hw
    | (intro _)
    | with_reducible apply wr_keeps
    | with_reducible apply each_keeps
    | with_reducible apply State.nextFree_keeps
    | with_reducible apply trainFails_keeps
    | (with_reducible apply Keeps.of_fields <;>
        first | with_reducible exact rfl | with_reducible exact Or.inl rfl | exact Or.inr (Within.trans (Eq.refl _) hw) | skip)

theorem restoreRehomed_keeps (h : Keeps m s0 s) (hw : Within [.reg .ERR_CODE_CODE, .reg .ERR_CODE_MASTER, .reg .ERR_CODE_OVF, .reg
    .ERR_CODE_WORD, .reg .ERR_CODE_WRITE, .reg .QCLK_COVER_QUAD, .reg .QCLK_COVER_VALID, .reg .QCLK_ORIGIN_FRAC_FRAC, .reg
    .QCLK_ORIGIN_HI_ORIGIN_HI, .reg .QCLK_ORIGIN_LO_ORIGIN_LO, .reg .QCLK_QCLK_CFG_USE_SPARE, .reg .QCLK_QCLK_STATUS_LOCKED, .reg
    .QCLK_QCLK_STATUS_READY, .reg .QCLK_QCLK_STATUS_STOPPED, .eff, .clocks] m)  : Keeps m s0 (restoreRehomed s) := by
  unfold restoreRehomed
  try dsimp only
  repeat' first
    | with_reducible assumption
    | exact Within.trans (Eq.refl _) hw
    | with_reducible apply useSpareSet_keeps
    | with_reducible apply writeCover_keeps
    | split

theorem becomeReady_keeps (h : Keeps m s0 s) (hw : Within [.reg .EVT_PEND_PEND, .reg .EVT_RAW_RAW, .reg .SYS_STATUS_READY, .presented,
    .ports] m)  : Keeps m s0 (becomeReady s) := by
  unfold becomeReady
  try dsimp only
  repeat' first
    | with_reducible assumption
    | exact Within.trans (Eq.refl _) hw
    | (intro _)
    | with_reducible apply wr_keeps
    | with_reducible apply each_keeps
    | with_reducible apply State.setPort_keeps
    | with_reducible apply raise_keeps

theorem execReady_keeps (h : Keeps m s0 s) (hw : Within [.reg .ERR_CODE_CODE, .reg .ERR_CODE_MASTER, .reg .ERR_CODE_OVF, .reg
    .ERR_CODE_WORD, .reg .ERR_CODE_WRITE, .reg .EVT_PEND_PEND, .reg .EVT_RAW_RAW, .reg .QCLK_COVER_QUAD, .reg .QCLK_COVER_VALID, .reg
    .QCLK_ORIGIN_FRAC_FRAC, .reg .QCLK_ORIGIN_HI_ORIGIN_HI, .reg .QCLK_ORIGIN_LO_ORIGIN_LO, .reg .QCLK_QCLK_CFG_USE_SPARE, .reg
    .QCLK_QCLK_STATUS_LOCKED, .reg .QCLK_QCLK_STATUS_READY, .reg .QCLK_QCLK_STATUS_STOPPED, .reg .QPHY_STATUS_PLL0_LOCK, .reg
    .QPHY_STATUS_PLL1_LOCK, .reg .QPHY_TSET_CTL_ACTIVE, .reg .QPHY_TSET_CTL_A_OP, .reg .QPHY_TSET_CTL_A_VALID, .reg
    .QUARRY_CAPACITY_N_ACTIVE, .reg .QUARRY_LRMAP_MAP, .reg .QUARRY_LRMAP_SPARE, .reg .QUARRY_RANK_STATE_STATE, .reg
    .QUARRY_STATUS_DEGRADED, .reg .QUARRY_STATUS_READY, .reg .SYS_STATUS_READY, .eff, .presented, .clocks, .ports, .qry, .free] m) (a1 :
    List (Fin 8)) : Ends m s0 (execReady a1 s) := by
  unfold execReady
  try dsimp only
  repeat' first
    | with_reducible assumption
    | exact Within.trans (Eq.refl _) hw
    | (intro _)
    | with_reducible apply on_keeps
    | with_reducible apply act_keeps
    | with_reducible apply becomeReady_keeps
    | with_reducible apply restoreRehomed_keeps
    | with_reducible apply train_keeps
    | with_reducible apply Keeps.ite
    | with_reducible apply Ends.ite
    | with_reducible apply Ends.next
    | split

end Sys2Proof.Machine
end

