-- ==== Sys2Proof/Laws/SecurityKeeps.lean ====
section
/-! SUPPORT. What the operations of Machine/Security.lean keep: the queue, the invariant, and every part outside their footprint. -/

set_option maxRecDepth 4000
set_option linter.unusedTactic false
set_option linter.unreachableTactic false

namespace Sys2Proof.Machine

variable {m : Nat} {s0 s : State}

theorem State.setSec_keeps (h : Keeps m s0 s) (hw : Within [.sec] m) (a1 : Sec) : Keeps m s0 (State.setSec s a1) := by
  unfold State.setSec
  try dsimp only
  repeat' first
    | with_reducible assumption
    | exact Within.trans (Eq.refl _) hw
    | (with_reducible apply Keeps.of_fields <;>
        first | with_reducible exact rfl | with_reducible exact Or.inl rfl | exact Or.inr (Within.trans (Eq.refl _) hw) | skip)

theorem setSlotValid_keeps (h : Keeps m s0 s) (hw : Within [.reg .SEC_STATUS_SLOT_A_VALID, .reg .SEC_STATUS_SLOT_B_VALID] m) (a1 : Nat)
    (a2 : Nat) : Keeps m s0 (setSlotValid a1 a2 s) := by
  unfold setSlotValid
  try dsimp only
  repeat' first
    | with_reducible assumption
    | exact Within.trans (Eq.refl _) hw
    | with_reducible apply wr_keeps
    | with_reducible apply Keeps.ite
    | split

theorem recordSlot_keeps (h : Keeps m s0 s) (hw : Within [.reg .SEC_STATUS_SLOT_A_VALID, .reg .SEC_STATUS_SLOT_B_VALID, .reg
    .SYS_SPARE_SUM_FW, .sec] m) (a1 : Nat) (a2 : Option FwImage) : Keeps m s0 (recordSlot a1 a2 s) := by
  unfold recordSlot
  try dsimp only
  repeat' first
    | with_reducible assumption
    | exact Within.trans (Eq.refl _) hw
    | with_reducible apply wr_keeps
    | with_reducible apply wrIf_keeps
    | with_reducible apply State.setSec_keeps
    | with_reducible apply setSlotValid_keeps
    | with_reducible apply Keeps.ite
    | split

theorem execBootStart_keeps (h : Keeps m s0 s) (hw : Within [.sec] m)  : Ends m s0 (execBootStart s) := by
  unfold execBootStart
  try dsimp only
  repeat' first
    | with_reducible assumption
    | exact Within.trans (Eq.refl _) hw
    | (intro _)
    | with_reducible apply on_keeps
    | with_reducible apply act_keeps
    | with_reducible apply State.setSec_keeps
    | with_reducible apply Ends.ite
    | with_reducible apply Ends.next
    | split

theorem showImage_keeps (h : Keeps m s0 s) (hw : Within [.reg .SEC_FW_VER_VER, .reg .SEC_STATUS_RUN_SRC, .reg .SEC_STATUS_VK_USED, .reg
    .SEC_SVN_RUN_SVN] m) (a1 : FwImage) (a2 : Nat) : Keeps m s0 (showImage a1 a2 s) := by
  unfold showImage
  try dsimp only
  repeat' first
    | with_reducible assumption
    | exact Within.trans (Eq.refl _) hw
    | with_reducible apply wr_keeps

theorem measureImage_keeps (h : Keeps m s0 s) (hw : Within [.reg .SEC_MR_CNT_CNT, .reg .SEC_MR_VALUE] m) (a1 : FwImage) : Keeps m s0
    (measureImage a1 s) := by
  unfold measureImage
  try dsimp only
  repeat' first
    | with_reducible assumption
    | exact Within.trans (Eq.refl _) hw
    | with_reducible apply extendMr_keeps

theorem firstMicrocode_keeps (h : Keeps m s0 s) (hw : Within [.reg .SEC_MR_CNT_CNT, .reg .SEC_MR_VALUE, .reg .STITCH_MC_VER_ACTIVE] m)
    (a1 : FwImage) : Keeps m s0 (firstMicrocode a1 s) := by
  unfold firstMicrocode
  try dsimp only
  repeat' first
    | with_reducible assumption
    | exact Within.trans (Eq.refl _) hw
    | (intro _)
    | with_reducible apply wr_keeps
    | with_reducible apply each_keeps
    | with_reducible apply extendMr_keeps
    | with_reducible apply Keeps.ite
    | split

theorem restoreXspi_keeps (h : Keeps m s0 s) (hw : Within [.reg .XSPI_XSPI_CFG_ADDR4, .reg .XSPI_XSPI_CFG_CLKDIV, .reg
    .XSPI_XSPI_CFG_DEVTYPE, .reg .XSPI_XSPI_CFG_DUMMY, .reg .XSPI_XSPI_CFG_EXT, .reg .XSPI_XSPI_CFG_MODE, .reg .XSPI_XSPI_CFG_RD_OP] m)  :
    Keeps m s0 (restoreXspi s) := by
  unfold restoreXspi
  try dsimp only
  repeat' first
    | with_reducible assumption
    | exact Within.trans (Eq.refl _) hw
    | (intro _)
    | with_reducible apply rst_keeps
    | with_reducible apply eachReg_keeps
    | with_reducible apply each_keeps

theorem startImage_keeps (h : Keeps m s0 s) (hw : Within [.reg .EVT_PEND_PEND, .reg .EVT_RAW_RAW, .reg .SEC_BOOT_TIME_US100, .reg
    .SEC_FW_VER_VER, .reg .SEC_MR_CNT_CNT, .reg .SEC_MR_VALUE, .reg .SEC_STATUS_BOOT_OK, .reg .SEC_STATUS_RECOVERY, .reg
    .SEC_STATUS_RUN_SRC, .reg .SEC_STATUS_VK_USED, .reg .SEC_SVN_RUN_SVN, .reg .STITCH_MC_VER_ACTIVE, .reg .XSPI_XSPI_CFG_ADDR4, .reg
    .XSPI_XSPI_CFG_CLKDIV, .reg .XSPI_XSPI_CFG_DEVTYPE, .reg .XSPI_XSPI_CFG_DUMMY, .reg .XSPI_XSPI_CFG_EXT, .reg .XSPI_XSPI_CFG_MODE, .reg
    .XSPI_XSPI_CFG_RD_OP, .presented, .sec, .fwUp] m) (a1 : FwImage) (a2 : Nat) : Keeps m s0 (startImage a1 a2 s) := by
  unfold startImage
  try dsimp only
  repeat' first
    | with_reducible assumption
    | exact Within.trans (Eq.refl _) hw
    | with_reducible apply wr_keeps
    | with_reducible apply extendMr_keeps
    | with_reducible apply firstMicrocode_keeps
    | with_reducible apply measureImage_keeps
    | with_reducible apply raise_keeps
    | with_reducible apply restoreXspi_keeps
    | with_reducible apply showImage_keeps
    | (with_reducible apply Keeps.of_fields <;>
        first | with_reducible exact rfl | with_reducible exact Or.inl rfl | exact Or.inr (Within.trans (Eq.refl _) hw) | skip)

theorem slotFails_keeps (h : Keeps m s0 s) (hw : Within [.reg .EVT_PEND_PEND, .reg .EVT_RAW_RAW, .reg .SEC_STATUS_RECOVERY, .reg
    .SEC_STATUS_SLOT_A_VALID, .reg .SEC_STATUS_SLOT_B_VALID, .reg .SYS_SPARE_SUM_FW, .reg .XSPI_XSPI_CFG_ADDR4, .reg .XSPI_XSPI_CFG_CLKDIV,
    .reg .XSPI_XSPI_CFG_DEVTYPE, .reg .XSPI_XSPI_CFG_DUMMY, .reg .XSPI_XSPI_CFG_EXT, .reg .XSPI_XSPI_CFG_MODE, .reg .XSPI_XSPI_CFG_RD_OP,
    .presented, .sec] m) (a1 : Nat) : Keeps m s0 (slotFails a1 s) := by
  unfold slotFails
  try dsimp only
  repeat' first
    | with_reducible assumption
    | exact Within.trans (Eq.refl _) hw
    | with_reducible apply wr_keeps
    | with_reducible apply State.setSec_keeps
    | with_reducible apply raise_keeps
    | with_reducible apply recordSlot_keeps
    | with_reducible apply restoreXspi_keeps
    | with_reducible apply Keeps.ite
    | split

theorem execBootDone_keeps (h : Keeps m s0 s) (hw : Within [.reg .EVT_PEND_PEND, .reg .EVT_RAW_RAW, .reg .SEC_BOOT_TIME_US100, .reg
    .SEC_FW_VER_VER, .reg .SEC_MR_CNT_CNT, .reg .SEC_MR_VALUE, .reg .SEC_STATUS_BOOT_OK, .reg .SEC_STATUS_RECOVERY, .reg
    .SEC_STATUS_RUN_SRC, .reg .SEC_STATUS_SLOT_A_VALID, .reg .SEC_STATUS_SLOT_B_VALID, .reg .SEC_STATUS_VK_USED, .reg .SEC_SVN_RUN_SVN, .reg
    .STITCH_MC_VER_ACTIVE, .reg .SYS_SPARE_SUM_FW, .reg .XSPI_XSPI_CFG_ADDR4, .reg .XSPI_XSPI_CFG_CLKDIV, .reg .XSPI_XSPI_CFG_DEVTYPE, .reg
    .XSPI_XSPI_CFG_DUMMY, .reg .XSPI_XSPI_CFG_EXT, .reg .XSPI_XSPI_CFG_MODE, .reg .XSPI_XSPI_CFG_RD_OP, .presented, .sec, .fwUp] m) (a1 :
    List Byte) : Ends m s0 (execBootDone a1 s) := by
  unfold execBootDone
  try dsimp only
  repeat' first
    | with_reducible assumption
    | exact Within.trans (Eq.refl _) hw
    | (intro _)
    | with_reducible apply on_keeps
    | with_reducible apply act_keeps
    | with_reducible apply recordSlot_keeps
    | with_reducible apply setSlotValid_keeps
    | with_reducible apply slotFails_keeps
    | with_reducible apply startImage_keeps
    | with_reducible apply Ends.ite
    | with_reducible apply Ends.next
    | split

theorem execSlotCheck_keeps (h : Keeps m s0 s) (hw : Within [.reg .SEC_STATUS_SLOT_A_VALID, .reg .SEC_STATUS_SLOT_B_VALID, .reg
    .SYS_SPARE_SUM_FW, .sec] m) (a1 : Fin 2) (a2 : List Byte) : Ends m s0 (execSlotCheck a1 a2 s) := by
  unfold execSlotCheck
  try dsimp only
  repeat' first
    | with_reducible assumption
    | exact Within.trans (Eq.refl _) hw
    | (intro _)
    | with_reducible apply on_keeps
    | with_reducible apply act_keeps
    | with_reducible apply recordSlot_keeps
    | with_reducible apply Ends.ite
    | with_reducible apply Ends.next
    | split

theorem writeMbCmd_keeps (h : Keeps m s0 s) (hw : Within [.reg .SEC_MB_CMD_OP, .reg .SEC_MB_CMD_TAG, .reg .SEC_MB_STAT_BUSY, .sec] m)
    (a1 : Nat) (a2 : Nat) : Keeps m s0 (writeMbCmd a1 a2 s) := by
  unfold writeMbCmd
  try dsimp only
  repeat' first
    | with_reducible assumption
    | exact Within.trans (Eq.refl _) hw
    | with_reducible apply wr_keeps
    | with_reducible apply State.setSec_keeps
    | with_reducible apply Keeps.ite
    | split

theorem report_keeps (h : Keeps m s0 s) (hw : Within [.reg .EVT_PEND_PEND, .reg .EVT_RAW_RAW, .reg .SEC_MB_RES_RES, .reg
    .SEC_MB_STAT_BUSY, .reg .SEC_MB_STAT_DONE, .reg .SEC_MB_STAT_RESULT, .reg .SEC_MB_STAT_TAG, .presented] m) (a1 : Nat) (a2 : MbReply) :
    Keeps m s0 (report a1 a2 s) := by
  unfold report
  try dsimp only
  repeat' first
    | with_reducible assumption
    | exact Within.trans (Eq.refl _) hw
    | (intro _)
    | with_reducible apply wr_keeps
    | with_reducible apply each_keeps
    | with_reducible apply raise_keeps

theorem reply_keeps (h : Keeps m s0 s) (hw : Within [.sec] m) (a1 : MbCall) (a2 : Nat) (a3 : List Nat) : Keeps m s0 (reply a1 a2 a3 s)
    := by
  unfold reply
  try dsimp only
  repeat' first
    | with_reducible assumption
    | exact Within.trans (Eq.refl _) hw
    | with_reducible apply State.setSec_keeps

theorem serve_keeps (h : Keeps m s0 s) (hw : Within [.sec] m) (a1 : Nat) (a2 : Nat) (a3 : MbCall → State → State) (k3 : ∀ x t, Keeps m
    s0 t → Keeps m s0 (a3 x t)) : Keeps m s0 (serve a1 a2 a3 s) := by
  unfold serve
  try dsimp only
  repeat' first
    | with_reducible assumption
    | exact Within.trans (Eq.refl _) hw
    | (intro _)
    | with_reducible apply State.setSec_keeps
    | with_reducible apply k3
    | with_reducible apply Keeps.ite
    | split

theorem withBuffer_keeps (h : Keeps m s0 s) (hw : Within [.reg .BENCH_BENCH_HEALTH_HEALTH, .reg .BENCH_BIST_STAT_PHASE, .reg
    .BENCH_BPWR_STAT_STATE, .reg .BENCH_ECC_CNT_CE, .reg .BENCH_ECC_CNT_UE, .reg .BENCH_STATUS_BIST_BUSY, .reg .BENCH_STATUS_SPARE_FREE,
    .reg .BENCH_UE_ADDR_IN_SPARE, .reg .BENCH_UE_ADDR_OFFSET, .reg .EVT_PEND_PEND, .reg .EVT_RAW_RAW, .reg .POWER_STATUS_ENTERING, .reg
    .POWER_STATUS_EXITING, .reg .POWER_WAKE_STAT_CLASS, .reg .POWER_WAKE_STAT_FROM, .reg .QUARRY_CAPACITY_N_ACTIVE, .reg .QUARRY_ECC_CNT_CE,
    .reg .QUARRY_ECC_CNT_UE, .reg .QUARRY_LRMAP_MAP, .reg .QUARRY_LRMAP_SPARE, .reg .QUARRY_RANK_STATE_STATE, .reg .QUARRY_STATUS_DEGRADED,
    .reg .QUARRY_STATUS_MIGRATING, .reg .QUARRY_UE_ADDR_HI_ADDR, .reg .QUARRY_UE_ADDR_HI_BANK, .reg .QUARRY_UE_ADDR_HI_RANK, .reg
    .QUARRY_UE_ADDR_LO_ADDR, .presented, .holdoff, .poison, .sec, .pwr, .qry, .ben, .free] m) (a1 : MbCall) (a2 : Nat) (a3 : Nat) (a4 : List
    Byte → State → State) (k4 : ∀ x t, Keeps m s0 t → Keeps m s0 (a4 x t)) : Keeps m s0 (withBuffer a1 a2 a3 a4 s) := by
  unfold withBuffer
  try dsimp only
  repeat' first
    | with_reducible assumption
    | exact Within.trans (Eq.refl _) hw
    | (intro _)
    | with_reducible apply eccRead_keeps
    | with_reducible apply reply_keeps
    | with_reducible apply touchBench_keeps
    | with_reducible apply k4
    | with_reducible apply Keeps.ite
    | split

theorem getInfo_keeps (h : Keeps m s0 s) (hw : Within [.sec] m) (a1 : MbCall) : Keeps m s0 (getInfo a1 s) := by
  unfold getInfo
  try dsimp only
  repeat' first
    | with_reducible assumption
    | exact Within.trans (Eq.refl _) hw
    | with_reducible apply reply_keeps

theorem execGetInfo_keeps (h : Keeps m s0 s) (hw : Within [.sec] m) (a1 : Fin 2) : Ends m s0 (execGetInfo a1 s) := by
  unfold execGetInfo
  try dsimp only
  repeat' first
    | with_reducible assumption
    | exact Within.trans (Eq.refl _) hw
    | (intro _)
    | with_reducible apply act_keeps
    | with_reducible apply getInfo_keeps
    | with_reducible apply serve_keeps
    | with_reducible apply Ends.ite
    | with_reducible apply Ends.next
    | split

theorem answerBuffer_keeps (h : Keeps m s0 s) (hw : Within [.reg .BENCH_BENCH_HEALTH_HEALTH, .reg .BENCH_BIST_STAT_PHASE, .reg
    .BENCH_BPWR_STAT_STATE, .reg .BENCH_ECC_CNT_CE, .reg .BENCH_ECC_CNT_UE, .reg .BENCH_STATUS_BIST_BUSY, .reg .BENCH_STATUS_SPARE_FREE,
    .reg .BENCH_UE_ADDR_IN_SPARE, .reg .BENCH_UE_ADDR_OFFSET, .reg .ERR_CODE_CODE, .reg .ERR_CODE_MASTER, .reg .ERR_CODE_OVF, .reg
    .ERR_CODE_WORD, .reg .ERR_CODE_WRITE, .reg .EVT_PEND_PEND, .reg .EVT_RAW_RAW, .reg .POWER_STATUS_ENTERING, .reg .POWER_STATUS_EXITING,
    .reg .POWER_WAKE_STAT_CLASS, .reg .POWER_WAKE_STAT_FROM, .reg .QUARRY_CAPACITY_N_ACTIVE, .reg .QUARRY_ECC_CNT_CE, .reg
    .QUARRY_ECC_CNT_UE, .reg .QUARRY_LRMAP_MAP, .reg .QUARRY_LRMAP_SPARE, .reg .QUARRY_RANK_STATE_STATE, .reg .QUARRY_STATUS_DEGRADED, .reg
    .QUARRY_STATUS_MIGRATING, .reg .QUARRY_UE_ADDR_HI_ADDR, .reg .QUARRY_UE_ADDR_HI_BANK, .reg .QUARRY_UE_ADDR_HI_RANK, .reg
    .QUARRY_UE_ADDR_LO_ADDR, .reg .SYS_ERR_ADDR_HI_ADDR, .reg .SYS_ERR_ADDR_HI_MASTER, .reg .SYS_ERR_ADDR_HI_WRITE, .reg
    .SYS_ERR_ADDR_LO_ADDR, .presented, .holdoff, .mem, .poison, .sec, .pwr, .qry, .ben, .free] m) (a1 : MbCall) (a2 : Nat) (a3 : Nat) (a4 :
    List Byte) : Keeps m s0 (answerBuffer a1 a2 a3 a4 s) := by
  unfold answerBuffer
  try dsimp only
  repeat' first
    | with_reducible assumption
    | exact Within.trans (Eq.refl _) hw
    | with_reducible apply memWrite_keeps
    | with_reducible apply reply_keeps
    | with_reducible apply Keeps.ite
    | split

theorem getCert_keeps (h : Keeps m s0 s) (hw : Within [.reg .BENCH_BENCH_HEALTH_HEALTH, .reg .BENCH_BIST_STAT_PHASE, .reg
    .BENCH_BPWR_STAT_STATE, .reg .BENCH_ECC_CNT_CE, .reg .BENCH_ECC_CNT_UE, .reg .BENCH_STATUS_BIST_BUSY, .reg .BENCH_STATUS_SPARE_FREE,
    .reg .BENCH_UE_ADDR_IN_SPARE, .reg .BENCH_UE_ADDR_OFFSET, .reg .ERR_CODE_CODE, .reg .ERR_CODE_MASTER, .reg .ERR_CODE_OVF, .reg
    .ERR_CODE_WORD, .reg .ERR_CODE_WRITE, .reg .EVT_PEND_PEND, .reg .EVT_RAW_RAW, .reg .POWER_STATUS_ENTERING, .reg .POWER_STATUS_EXITING,
    .reg .POWER_WAKE_STAT_CLASS, .reg .POWER_WAKE_STAT_FROM, .reg .QUARRY_CAPACITY_N_ACTIVE, .reg .QUARRY_ECC_CNT_CE, .reg
    .QUARRY_ECC_CNT_UE, .reg .QUARRY_LRMAP_MAP, .reg .QUARRY_LRMAP_SPARE, .reg .QUARRY_RANK_STATE_STATE, .reg .QUARRY_STATUS_DEGRADED, .reg
    .QUARRY_STATUS_MIGRATING, .reg .QUARRY_UE_ADDR_HI_ADDR, .reg .QUARRY_UE_ADDR_HI_BANK, .reg .QUARRY_UE_ADDR_HI_RANK, .reg
    .QUARRY_UE_ADDR_LO_ADDR, .reg .SYS_ERR_ADDR_HI_ADDR, .reg .SYS_ERR_ADDR_HI_MASTER, .reg .SYS_ERR_ADDR_HI_WRITE, .reg
    .SYS_ERR_ADDR_LO_ADDR, .presented, .holdoff, .mem, .poison, .sec, .pwr, .qry, .ben, .free] m) (a1 : MbCall) : Keeps m s0 (getCert a1 s)
    := by
  unfold getCert
  try dsimp only
  repeat' first
    | with_reducible assumption
    | exact Within.trans (Eq.refl _) hw
    | with_reducible apply answerBuffer_keeps
    | with_reducible apply reply_keeps
    | with_reducible apply Keeps.ite
    | split

theorem execGetCert_keeps (h : Keeps m s0 s) (hw : Within [.reg .BENCH_BENCH_HEALTH_HEALTH, .reg .BENCH_BIST_STAT_PHASE, .reg
    .BENCH_BPWR_STAT_STATE, .reg .BENCH_ECC_CNT_CE, .reg .BENCH_ECC_CNT_UE, .reg .BENCH_STATUS_BIST_BUSY, .reg .BENCH_STATUS_SPARE_FREE,
    .reg .BENCH_UE_ADDR_IN_SPARE, .reg .BENCH_UE_ADDR_OFFSET, .reg .ERR_CODE_CODE, .reg .ERR_CODE_MASTER, .reg .ERR_CODE_OVF, .reg
    .ERR_CODE_WORD, .reg .ERR_CODE_WRITE, .reg .EVT_PEND_PEND, .reg .EVT_RAW_RAW, .reg .POWER_STATUS_ENTERING, .reg .POWER_STATUS_EXITING,
    .reg .POWER_WAKE_STAT_CLASS, .reg .POWER_WAKE_STAT_FROM, .reg .QUARRY_CAPACITY_N_ACTIVE, .reg .QUARRY_ECC_CNT_CE, .reg
    .QUARRY_ECC_CNT_UE, .reg .QUARRY_LRMAP_MAP, .reg .QUARRY_LRMAP_SPARE, .reg .QUARRY_RANK_STATE_STATE, .reg .QUARRY_STATUS_DEGRADED, .reg
    .QUARRY_STATUS_MIGRATING, .reg .QUARRY_UE_ADDR_HI_ADDR, .reg .QUARRY_UE_ADDR_HI_BANK, .reg .QUARRY_UE_ADDR_HI_RANK, .reg
    .QUARRY_UE_ADDR_LO_ADDR, .reg .SYS_ERR_ADDR_HI_ADDR, .reg .SYS_ERR_ADDR_HI_MASTER, .reg .SYS_ERR_ADDR_HI_WRITE, .reg
    .SYS_ERR_ADDR_LO_ADDR, .presented, .holdoff, .mem, .poison, .sec, .pwr, .qry, .ben, .free] m) (a1 : Fin 2) : Ends m s0 (execGetCert a1
    s) := by
  unfold execGetCert
  try dsimp only
  repeat' first
    | with_reducible assumption
    | exact Within.trans (Eq.refl _) hw
    | (intro _)
    | with_reducible apply act_keeps
    | with_reducible apply getCert_keeps
    | with_reducible apply serve_keeps
    | with_reducible apply Ends.ite
    | with_reducible apply Ends.next
    | split

theorem quote_keeps (h : Keeps m s0 s) (hw : Within [.reg .BENCH_BENCH_HEALTH_HEALTH, .reg .BENCH_BIST_STAT_PHASE, .reg
    .BENCH_BPWR_STAT_STATE, .reg .BENCH_ECC_CNT_CE, .reg .BENCH_ECC_CNT_UE, .reg .BENCH_STATUS_BIST_BUSY, .reg .BENCH_STATUS_SPARE_FREE,
    .reg .BENCH_UE_ADDR_IN_SPARE, .reg .BENCH_UE_ADDR_OFFSET, .reg .ERR_CODE_CODE, .reg .ERR_CODE_MASTER, .reg .ERR_CODE_OVF, .reg
    .ERR_CODE_WORD, .reg .ERR_CODE_WRITE, .reg .EVT_PEND_PEND, .reg .EVT_RAW_RAW, .reg .POWER_STATUS_ENTERING, .reg .POWER_STATUS_EXITING,
    .reg .POWER_WAKE_STAT_CLASS, .reg .POWER_WAKE_STAT_FROM, .reg .QUARRY_CAPACITY_N_ACTIVE, .reg .QUARRY_ECC_CNT_CE, .reg
    .QUARRY_ECC_CNT_UE, .reg .QUARRY_LRMAP_MAP, .reg .QUARRY_LRMAP_SPARE, .reg .QUARRY_RANK_STATE_STATE, .reg .QUARRY_STATUS_DEGRADED, .reg
    .QUARRY_STATUS_MIGRATING, .reg .QUARRY_UE_ADDR_HI_ADDR, .reg .QUARRY_UE_ADDR_HI_BANK, .reg .QUARRY_UE_ADDR_HI_RANK, .reg
    .QUARRY_UE_ADDR_LO_ADDR, .reg .SYS_ERR_ADDR_HI_ADDR, .reg .SYS_ERR_ADDR_HI_MASTER, .reg .SYS_ERR_ADDR_HI_WRITE, .reg
    .SYS_ERR_ADDR_LO_ADDR, .presented, .holdoff, .mem, .poison, .sec, .pwr, .qry, .ben, .free] m) (a1 : MbCall) : Keeps m s0 (quote a1 s) :=
    by
  unfold quote
  try dsimp only
  repeat' first
    | with_reducible assumption
    | exact Within.trans (Eq.refl _) hw
    | (intro _)
    | with_reducible apply State.nextFree_keeps
    | with_reducible apply answerBuffer_keeps
    | with_reducible apply withBuffer_keeps

theorem execQuote_keeps (h : Keeps m s0 s) (hw : Within [.reg .BENCH_BENCH_HEALTH_HEALTH, .reg .BENCH_BIST_STAT_PHASE, .reg
    .BENCH_BPWR_STAT_STATE, .reg .BENCH_ECC_CNT_CE, .reg .BENCH_ECC_CNT_UE, .reg .BENCH_STATUS_BIST_BUSY, .reg .BENCH_STATUS_SPARE_FREE,
    .reg .BENCH_UE_ADDR_IN_SPARE, .reg .BENCH_UE_ADDR_OFFSET, .reg .ERR_CODE_CODE, .reg .ERR_CODE_MASTER, .reg .ERR_CODE_OVF, .reg
    .ERR_CODE_WORD, .reg .ERR_CODE_WRITE, .reg .EVT_PEND_PEND, .reg .EVT_RAW_RAW, .reg .POWER_STATUS_ENTERING, .reg .POWER_STATUS_EXITING,
    .reg .POWER_WAKE_STAT_CLASS, .reg .POWER_WAKE_STAT_FROM, .reg .QUARRY_CAPACITY_N_ACTIVE, .reg .QUARRY_ECC_CNT_CE, .reg
    .QUARRY_ECC_CNT_UE, .reg .QUARRY_LRMAP_MAP, .reg .QUARRY_LRMAP_SPARE, .reg .QUARRY_RANK_STATE_STATE, .reg .QUARRY_STATUS_DEGRADED, .reg
    .QUARRY_STATUS_MIGRATING, .reg .QUARRY_UE_ADDR_HI_ADDR, .reg .QUARRY_UE_ADDR_HI_BANK, .reg .QUARRY_UE_ADDR_HI_RANK, .reg
    .QUARRY_UE_ADDR_LO_ADDR, .reg .SYS_ERR_ADDR_HI_ADDR, .reg .SYS_ERR_ADDR_HI_MASTER, .reg .SYS_ERR_ADDR_HI_WRITE, .reg
    .SYS_ERR_ADDR_LO_ADDR, .presented, .holdoff, .mem, .poison, .sec, .pwr, .qry, .ben, .free] m) (a1 : Fin 2) : Ends m s0 (execQuote a1 s)
    := by
  unfold execQuote
  try dsimp only
  repeat' first
    | with_reducible assumption
    | exact Within.trans (Eq.refl _) hw
    | (intro _)
    | with_reducible apply on_keeps
    | with_reducible apply act_keeps
    | with_reducible apply quote_keeps
    | with_reducible apply serve_keeps
    | with_reducible apply Ends.ite
    | with_reducible apply Ends.next
    | split

theorem mrExtend_keeps (h : Keeps m s0 s) (hw : Within [.reg .BENCH_BENCH_HEALTH_HEALTH, .reg .BENCH_BIST_STAT_PHASE, .reg
    .BENCH_BPWR_STAT_STATE, .reg .BENCH_ECC_CNT_CE, .reg .BENCH_ECC_CNT_UE, .reg .BENCH_STATUS_BIST_BUSY, .reg .BENCH_STATUS_SPARE_FREE,
    .reg .BENCH_UE_ADDR_IN_SPARE, .reg .BENCH_UE_ADDR_OFFSET, .reg .EVT_PEND_PEND, .reg .EVT_RAW_RAW, .reg .POWER_STATUS_ENTERING, .reg
    .POWER_STATUS_EXITING, .reg .POWER_WAKE_STAT_CLASS, .reg .POWER_WAKE_STAT_FROM, .reg .QUARRY_CAPACITY_N_ACTIVE, .reg .QUARRY_ECC_CNT_CE,
    .reg .QUARRY_ECC_CNT_UE, .reg .QUARRY_LRMAP_MAP, .reg .QUARRY_LRMAP_SPARE, .reg .QUARRY_RANK_STATE_STATE, .reg .QUARRY_STATUS_DEGRADED,
    .reg .QUARRY_STATUS_MIGRATING, .reg .QUARRY_UE_ADDR_HI_ADDR, .reg .QUARRY_UE_ADDR_HI_BANK, .reg .QUARRY_UE_ADDR_HI_RANK, .reg
    .QUARRY_UE_ADDR_LO_ADDR, .reg .SEC_MR_CNT_CNT, .reg .SEC_MR_VALUE, .presented, .holdoff, .poison, .sec, .pwr, .qry, .ben, .free] m) (a1
    : MbCall) : Keeps m s0 (mrExtend a1 s) := by
  unfold mrExtend
  try dsimp only
  repeat' first
    | with_reducible assumption
    | exact Within.trans (Eq.refl _) hw
    | (intro _)
    | with_reducible apply extendMr_keeps
    | with_reducible apply reply_keeps
    | with_reducible apply withBuffer_keeps
    | with_reducible apply Keeps.ite
    | split

theorem execMrExtend_keeps (h : Keeps m s0 s) (hw : Within [.reg .BENCH_BENCH_HEALTH_HEALTH, .reg .BENCH_BIST_STAT_PHASE, .reg
    .BENCH_BPWR_STAT_STATE, .reg .BENCH_ECC_CNT_CE, .reg .BENCH_ECC_CNT_UE, .reg .BENCH_STATUS_BIST_BUSY, .reg .BENCH_STATUS_SPARE_FREE,
    .reg .BENCH_UE_ADDR_IN_SPARE, .reg .BENCH_UE_ADDR_OFFSET, .reg .EVT_PEND_PEND, .reg .EVT_RAW_RAW, .reg .POWER_STATUS_ENTERING, .reg
    .POWER_STATUS_EXITING, .reg .POWER_WAKE_STAT_CLASS, .reg .POWER_WAKE_STAT_FROM, .reg .QUARRY_CAPACITY_N_ACTIVE, .reg .QUARRY_ECC_CNT_CE,
    .reg .QUARRY_ECC_CNT_UE, .reg .QUARRY_LRMAP_MAP, .reg .QUARRY_LRMAP_SPARE, .reg .QUARRY_RANK_STATE_STATE, .reg .QUARRY_STATUS_DEGRADED,
    .reg .QUARRY_STATUS_MIGRATING, .reg .QUARRY_UE_ADDR_HI_ADDR, .reg .QUARRY_UE_ADDR_HI_BANK, .reg .QUARRY_UE_ADDR_HI_RANK, .reg
    .QUARRY_UE_ADDR_LO_ADDR, .reg .SEC_MR_CNT_CNT, .reg .SEC_MR_VALUE, .presented, .holdoff, .poison, .sec, .pwr, .qry, .ben, .free] m) (a1
    : Fin 2) : Ends m s0 (execMrExtend a1 s) := by
  unfold execMrExtend
  try dsimp only
  repeat' first
    | with_reducible assumption
    | exact Within.trans (Eq.refl _) hw
    | (intro _)
    | with_reducible apply act_keeps
    | with_reducible apply mrExtend_keeps
    | with_reducible apply serve_keeps
    | with_reducible apply Ends.ite
    | with_reducible apply Ends.next
    | split

theorem sessionOpen_keeps (h : Keeps m s0 s) (hw : Within [.sec, .free] m) (a1 : MbCall) : Keeps m s0 (sessionOpen a1 s) := by
  unfold sessionOpen
  try dsimp only
  repeat' first
    | with_reducible assumption
    | exact Within.trans (Eq.refl _) hw
    | (intro _)
    | with_reducible apply reply_keeps
    | with_reducible apply Keeps.ite
    | split
    | (with_reducible apply Keeps.of_fields <;>
        first | with_reducible exact rfl | with_reducible exact Or.inl rfl | exact Or.inr (Within.trans (Eq.refl _) hw) | skip)

theorem execSessionOpen_keeps (h : Keeps m s0 s) (hw : Within [.sec, .free] m) (a1 : Fin 2) : Ends m s0 (execSessionOpen a1 s) := by
  unfold execSessionOpen
  try dsimp only
  repeat' first
    | with_reducible assumption
    | exact Within.trans (Eq.refl _) hw
    | (intro _)
    | with_reducible apply act_keeps
    | with_reducible apply serve_keeps
    | with_reducible apply sessionOpen_keeps
    | with_reducible apply Ends.ite
    | with_reducible apply Ends.next
    | split

theorem sessionAuth_keeps (h : Keeps m s0 s) (hw : Within [.reg .BENCH_BENCH_HEALTH_HEALTH, .reg .BENCH_BIST_STAT_PHASE, .reg
    .BENCH_BPWR_STAT_STATE, .reg .BENCH_ECC_CNT_CE, .reg .BENCH_ECC_CNT_UE, .reg .BENCH_STATUS_BIST_BUSY, .reg .BENCH_STATUS_SPARE_FREE,
    .reg .BENCH_UE_ADDR_IN_SPARE, .reg .BENCH_UE_ADDR_OFFSET, .reg .EVT_PEND_PEND, .reg .EVT_RAW_RAW, .reg .I3C_STATUS_SECURE, .reg
    .POWER_STATUS_ENTERING, .reg .POWER_STATUS_EXITING, .reg .POWER_WAKE_STAT_CLASS, .reg .POWER_WAKE_STAT_FROM, .reg
    .QUARRY_CAPACITY_N_ACTIVE, .reg .QUARRY_ECC_CNT_CE, .reg .QUARRY_ECC_CNT_UE, .reg .QUARRY_LRMAP_MAP, .reg .QUARRY_LRMAP_SPARE, .reg
    .QUARRY_RANK_STATE_STATE, .reg .QUARRY_STATUS_DEGRADED, .reg .QUARRY_STATUS_MIGRATING, .reg .QUARRY_UE_ADDR_HI_ADDR, .reg
    .QUARRY_UE_ADDR_HI_BANK, .reg .QUARRY_UE_ADDR_HI_RANK, .reg .QUARRY_UE_ADDR_LO_ADDR, .presented, .holdoff, .poison, .ports, .sec, .pwr,
    .qry, .ben, .free] m) (a1 : MbCall) : Keeps m s0 (sessionAuth a1 s) := by
  unfold sessionAuth
  try dsimp only
  repeat' first
    | with_reducible assumption
    | exact Within.trans (Eq.refl _) hw
    | (intro _)
    | with_reducible apply wr_keeps
    | with_reducible apply State.setPort_keeps
    | with_reducible apply State.setSec_keeps
    | with_reducible apply reply_keeps
    | with_reducible apply withBuffer_keeps
    | with_reducible apply Keeps.ite
    | split

theorem execSessionAuth_keeps (h : Keeps m s0 s) (hw : Within [.reg .BENCH_BENCH_HEALTH_HEALTH, .reg .BENCH_BIST_STAT_PHASE, .reg
    .BENCH_BPWR_STAT_STATE, .reg .BENCH_ECC_CNT_CE, .reg .BENCH_ECC_CNT_UE, .reg .BENCH_STATUS_BIST_BUSY, .reg .BENCH_STATUS_SPARE_FREE,
    .reg .BENCH_UE_ADDR_IN_SPARE, .reg .BENCH_UE_ADDR_OFFSET, .reg .EVT_PEND_PEND, .reg .EVT_RAW_RAW, .reg .I3C_STATUS_SECURE, .reg
    .POWER_STATUS_ENTERING, .reg .POWER_STATUS_EXITING, .reg .POWER_WAKE_STAT_CLASS, .reg .POWER_WAKE_STAT_FROM, .reg
    .QUARRY_CAPACITY_N_ACTIVE, .reg .QUARRY_ECC_CNT_CE, .reg .QUARRY_ECC_CNT_UE, .reg .QUARRY_LRMAP_MAP, .reg .QUARRY_LRMAP_SPARE, .reg
    .QUARRY_RANK_STATE_STATE, .reg .QUARRY_STATUS_DEGRADED, .reg .QUARRY_STATUS_MIGRATING, .reg .QUARRY_UE_ADDR_HI_ADDR, .reg
    .QUARRY_UE_ADDR_HI_BANK, .reg .QUARRY_UE_ADDR_HI_RANK, .reg .QUARRY_UE_ADDR_LO_ADDR, .presented, .holdoff, .poison, .ports, .sec, .pwr,
    .qry, .ben, .free] m) (a1 : Fin 2) : Ends m s0 (execSessionAuth a1 s) := by
  unfold execSessionAuth
  try dsimp only
  repeat' first
    | with_reducible assumption
    | exact Within.trans (Eq.refl _) hw
    | (intro _)
    | with_reducible apply act_keeps
    | with_reducible apply serve_keeps
    | with_reducible apply sessionAuth_keeps
    | with_reducible apply Ends.ite
    | with_reducible apply Ends.next
    | split

theorem execSessionClose_keeps (h : Keeps m s0 s) (hw : Within [.reg .EVT_PEND_PEND, .reg .EVT_RAW_RAW, .reg .I3C_STATUS_SECURE,
    .presented, .sec] m) (a1 : Fin 2) : Ends m s0 (execSessionClose a1 s) := by
  unfold execSessionClose
  try dsimp only
  repeat' first
    | with_reducible assumption
    | exact Within.trans (Eq.refl _) hw
    | (intro _)
    | with_reducible apply act_keeps
    | with_reducible apply endSession_keeps
    | with_reducible apply reply_keeps
    | with_reducible apply serve_keeps
    | with_reducible apply Ends.ite
    | with_reducible apply Ends.next
    | split

theorem execSessionTimeout_keeps (h : Keeps m s0 s) (hw : Within [.reg .EVT_PEND_PEND, .reg .EVT_RAW_RAW, .reg .I3C_STATUS_SECURE,
    .presented] m) (a1 : Fin 2) : Ends m s0 (execSessionTimeout a1 s) := by
  unfold execSessionTimeout
  try dsimp only
  repeat' first
    | with_reducible assumption
    | exact Within.trans (Eq.refl _) hw
    | (intro _)
    | with_reducible apply on_keeps
    | with_reducible apply act_keeps
    | with_reducible apply endSession_keeps
    | with_reducible apply Ends.ite
    | with_reducible apply Ends.next
    | split

theorem unstage_keeps (h : Keeps m s0 s) (hw : Within [.reg .SEC_STATUS_STAGED, .reg .SEC_SVN_STAGED_SVN, .sec] m)  : Keeps m s0
    (unstage s) := by
  unfold unstage
  try dsimp only
  repeat' first
    | with_reducible assumption
    | exact Within.trans (Eq.refl _) hw
    | with_reducible apply wr_keeps
    | with_reducible apply State.setSec_keeps

theorem fwStage_keeps (h : Keeps m s0 s) (hw : Within [.reg .BENCH_BENCH_HEALTH_HEALTH, .reg .BENCH_BIST_STAT_PHASE, .reg
    .BENCH_BPWR_STAT_STATE, .reg .BENCH_ECC_CNT_CE, .reg .BENCH_ECC_CNT_UE, .reg .BENCH_STATUS_BIST_BUSY, .reg .BENCH_STATUS_SPARE_FREE,
    .reg .BENCH_UE_ADDR_IN_SPARE, .reg .BENCH_UE_ADDR_OFFSET, .reg .ERR_CODE_CODE, .reg .ERR_CODE_MASTER, .reg .ERR_CODE_OVF, .reg
    .ERR_CODE_WORD, .reg .ERR_CODE_WRITE, .reg .EVT_PEND_PEND, .reg .EVT_RAW_RAW, .reg .POWER_STATUS_ENTERING, .reg .POWER_STATUS_EXITING,
    .reg .POWER_WAKE_STAT_CLASS, .reg .POWER_WAKE_STAT_FROM, .reg .QUARRY_CAPACITY_N_ACTIVE, .reg .QUARRY_ECC_CNT_CE, .reg
    .QUARRY_ECC_CNT_UE, .reg .QUARRY_LRMAP_MAP, .reg .QUARRY_LRMAP_SPARE, .reg .QUARRY_RANK_STATE_STATE, .reg .QUARRY_STATUS_DEGRADED, .reg
    .QUARRY_STATUS_MIGRATING, .reg .QUARRY_UE_ADDR_HI_ADDR, .reg .QUARRY_UE_ADDR_HI_BANK, .reg .QUARRY_UE_ADDR_HI_RANK, .reg
    .QUARRY_UE_ADDR_LO_ADDR, .reg .SEC_STATUS_STAGED, .reg .SEC_SVN_STAGED_SVN, .reg .SYS_ERR_ADDR_HI_ADDR, .reg .SYS_ERR_ADDR_HI_MASTER,
    .reg .SYS_ERR_ADDR_HI_WRITE, .reg .SYS_ERR_ADDR_LO_ADDR, .presented, .holdoff, .mem, .poison, .sec, .pwr, .qry, .ben, .free] m) (a1 :
    MbCall) : Keeps m s0 (fwStage a1 s) := by
  unfold fwStage
  try dsimp only
  repeat' first
    | with_reducible assumption
    | exact Within.trans (Eq.refl _) hw
    | (intro _)
    | with_reducible apply wr_keeps
    | with_reducible apply State.setSec_keeps
    | with_reducible apply memWrite_keeps
    | with_reducible apply reply_keeps
    | with_reducible apply unstage_keeps
    | with_reducible apply withBuffer_keeps
    | with_reducible apply Keeps.ite
    | split

theorem execFwStage_keeps (h : Keeps m s0 s) (hw : Within [.reg .BENCH_BENCH_HEALTH_HEALTH, .reg .BENCH_BIST_STAT_PHASE, .reg
    .BENCH_BPWR_STAT_STATE, .reg .BENCH_ECC_CNT_CE, .reg .BENCH_ECC_CNT_UE, .reg .BENCH_STATUS_BIST_BUSY, .reg .BENCH_STATUS_SPARE_FREE,
    .reg .BENCH_UE_ADDR_IN_SPARE, .reg .BENCH_UE_ADDR_OFFSET, .reg .ERR_CODE_CODE, .reg .ERR_CODE_MASTER, .reg .ERR_CODE_OVF, .reg
    .ERR_CODE_WORD, .reg .ERR_CODE_WRITE, .reg .EVT_PEND_PEND, .reg .EVT_RAW_RAW, .reg .POWER_STATUS_ENTERING, .reg .POWER_STATUS_EXITING,
    .reg .POWER_WAKE_STAT_CLASS, .reg .POWER_WAKE_STAT_FROM, .reg .QUARRY_CAPACITY_N_ACTIVE, .reg .QUARRY_ECC_CNT_CE, .reg
    .QUARRY_ECC_CNT_UE, .reg .QUARRY_LRMAP_MAP, .reg .QUARRY_LRMAP_SPARE, .reg .QUARRY_RANK_STATE_STATE, .reg .QUARRY_STATUS_DEGRADED, .reg
    .QUARRY_STATUS_MIGRATING, .reg .QUARRY_UE_ADDR_HI_ADDR, .reg .QUARRY_UE_ADDR_HI_BANK, .reg .QUARRY_UE_ADDR_HI_RANK, .reg
    .QUARRY_UE_ADDR_LO_ADDR, .reg .SEC_STATUS_STAGED, .reg .SEC_SVN_STAGED_SVN, .reg .SYS_ERR_ADDR_HI_ADDR, .reg .SYS_ERR_ADDR_HI_MASTER,
    .reg .SYS_ERR_ADDR_HI_WRITE, .reg .SYS_ERR_ADDR_LO_ADDR, .presented, .holdoff, .mem, .poison, .sec, .pwr, .qry, .ben, .free] m) (a1 :
    Fin 2) : Ends m s0 (execFwStage a1 s) := by
  unfold execFwStage
  try dsimp only
  repeat' first
    | with_reducible assumption
    | exact Within.trans (Eq.refl _) hw
    | (intro _)
    | with_reducible apply act_keeps
    | with_reducible apply fwStage_keeps
    | with_reducible apply serve_keeps
    | with_reducible apply Ends.ite
    | with_reducible apply Ends.next
    | split

theorem fwInstall_keeps (h : Keeps m s0 s) (hw : Within [.reg .SEC_STATUS_SLOT_A_VALID, .reg .SEC_STATUS_SLOT_B_VALID, .sec] m) (a1 :
    Bool) (a2 : MbCall) : Keeps m s0 (fwInstall a1 a2 s) := by
  unfold fwInstall
  try dsimp only
  repeat' first
    | with_reducible assumption
    | exact Within.trans (Eq.refl _) hw
    | with_reducible apply State.setSec_keeps
    | with_reducible apply reply_keeps
    | with_reducible apply setSlotValid_keeps
    | with_reducible apply Keeps.ite
    | split

theorem execFwInstall_keeps (h : Keeps m s0 s) (hw : Within [.reg .SEC_STATUS_SLOT_A_VALID, .reg .SEC_STATUS_SLOT_B_VALID, .sec] m) (a1
    : Fin 2) (a2 : Bool) : Ends m s0 (execFwInstall a1 a2 s) := by
  unfold execFwInstall
  try dsimp only
  repeat' first
    | with_reducible assumption
    | exact Within.trans (Eq.refl _) hw
    | (intro _)
    | with_reducible apply on_keeps
    | with_reducible apply act_keeps
    | with_reducible apply fwInstall_keeps
    | with_reducible apply serve_keeps
    | with_reducible apply Ends.ite
    | with_reducible apply Ends.next
    | split

theorem fwActivate_keeps (h : Keeps m s0 s) (hw : Within [.sec] m) (a1 : MbCall) : Keeps m s0 (fwActivate a1 s) := by
  unfold fwActivate
  try dsimp only
  repeat' first
    | with_reducible assumption
    | exact Within.trans (Eq.refl _) hw
    | with_reducible apply State.setSec_keeps
    | with_reducible apply reply_keeps
    | with_reducible apply Keeps.ite
    | split

theorem execFwActivate_keeps (h : Keeps m s0 s) (hw : Within [.sec] m) (a1 : Fin 2) : Ends m s0 (execFwActivate a1 s) := by
  unfold execFwActivate
  try dsimp only
  repeat' first
    | with_reducible assumption
    | exact Within.trans (Eq.refl _) hw
    | (intro _)
    | with_reducible apply act_keeps
    | with_reducible apply fwActivate_keeps
    | with_reducible apply serve_keeps
    | with_reducible apply Ends.ite
    | with_reducible apply Ends.next
    | split

theorem execHandoffPoint_keeps (h : Keeps m s0 s) (hw : Within [.reg .SEC_STATUS_HANDOFF_BUSY, .sec] m)  : Ends m s0 (execHandoffPoint
    s) := by
  unfold execHandoffPoint
  try dsimp only
  repeat' first
    | with_reducible assumption
    | exact Within.trans (Eq.refl _) hw
    | (intro _)
    | with_reducible apply wr_keeps
    | with_reducible apply on_keeps
    | with_reducible apply act_keeps
    | with_reducible apply State.setSec_keeps
    | with_reducible apply Ends.ite
    | with_reducible apply Ends.next
    | split

theorem loadMicrocode_keeps (h : Keeps m s0 s) (hw : Within [.reg .ERR_CODE_CODE, .reg .ERR_CODE_MASTER, .reg .ERR_CODE_OVF, .reg
    .ERR_CODE_WORD, .reg .ERR_CODE_WRITE, .reg .SEC_MR_CNT_CNT, .reg .SEC_MR_VALUE, .reg .STITCH_MC_VER_INACTIVE, .reg
    .STITCH_STATUS_MC_PENDING, .stitchers] m) (a1 : FwImage) : Keeps m s0 (loadMicrocode a1 s).2 := by
  unfold loadMicrocode
  try dsimp only
  repeat' first
    | with_reducible assumption
    | exact Within.trans (Eq.refl _) hw
    | (intro _)
    | with_reducible apply wr_keeps
    | with_reducible apply each_keeps
    | with_reducible apply extendMr_keeps
    | with_reducible apply writeMcCtrl_keeps
    | with_reducible apply Keeps.ite
    | split

theorem execAliveMark_keeps (h : Keeps m s0 s) (hw : Within [.reg .ERR_CODE_CODE, .reg .ERR_CODE_MASTER, .reg .ERR_CODE_OVF, .reg
    .ERR_CODE_WORD, .reg .ERR_CODE_WRITE, .reg .SEC_MR_CNT_CNT, .reg .SEC_MR_VALUE, .reg .STITCH_MC_VER_INACTIVE, .reg
    .STITCH_STATUS_MC_PENDING, .stitchers, .sec] m) : Ends m s0 (execAliveMark s) := by
  refine act_keeps (fun t ht => on_keeps (fun u hu => ?_) ht) h
  split
  · rename_i i _
    exact State.setSec_keeps (loadMicrocode_keeps (measureImage_keeps hu (Within.trans (Eq.refl _) hw) ..)
      (Within.trans (Eq.refl _) hw) ..) (Within.trans (Eq.refl _) hw) _
  · exact hu

theorem endTakeover_keeps (h : Keeps m s0 s) (hw : Within [.reg .EVT_PEND_PEND, .reg .EVT_RAW_RAW, .reg .SEC_FW_VER_VER, .reg
    .SEC_MB_RES_RES, .reg .SEC_MB_STAT_BUSY, .reg .SEC_MB_STAT_DONE, .reg .SEC_MB_STAT_RESULT, .reg .SEC_MB_STAT_TAG, .reg
    .SEC_STATUS_HANDOFF_BUSY, .reg .SEC_STATUS_RUN_SRC, .reg .SEC_STATUS_VK_USED, .reg .SEC_SVN_RUN_SVN, .presented, .sec] m) (a1 : MbCall)
    : Keeps m s0 (endTakeover a1 s) := by
  unfold endTakeover
  try dsimp only
  repeat' first
    | with_reducible assumption
    | exact Within.trans (Eq.refl _) hw
    | with_reducible apply wr_keeps
    | with_reducible apply State.setSec_keeps
    | with_reducible apply raise_keeps
    | with_reducible apply report_keeps
    | with_reducible apply showImage_keeps
    | split

theorem abortMail_keeps (h : Keeps m s0 s) (hw : Within [.reg .EVT_PEND_PEND, .reg .EVT_RAW_RAW, .reg .SEC_MB_RES_RES, .reg
    .SEC_MB_STAT_BUSY, .reg .SEC_MB_STAT_DONE, .reg .SEC_MB_STAT_RESULT, .reg .SEC_MB_STAT_TAG, .presented] m) (a1 : Nat) : Keeps m s0
    (abortMail a1 s) := by
  unfold abortMail
  try dsimp only
  repeat' first
    | with_reducible assumption
    | exact Within.trans (Eq.refl _) hw
    | (intro _)
    | with_reducible apply report_keeps
    | with_reducible apply Keeps.ite
    | split

theorem firmwareRestart_keeps (h : Keeps m s0 s) (hw : Within [.reg .EVT_PEND_PEND, .reg .EVT_RAW_RAW, .reg .I3C_STATUS_SECURE, .reg
    .SEC_MB_RES_RES, .reg .SEC_MB_STAT_BUSY, .reg .SEC_MB_STAT_DONE, .reg .SEC_MB_STAT_RESULT, .reg .SEC_MB_STAT_TAG, .reg
    .SEC_STATUS_BOOT_OK, .reg .SEC_STATUS_HANDOFF_BUSY, .reg .SYS_RESET_CAUSE_FW_FAULT, .reg .SYS_RESET_CAUSE_FW_WDT, .reg
    .SYS_RESET_CNT_FW_RESTART, .presented, .sec, .fwUp] m) (a1 : Reg) (hr : Within [.reg a1] m) :
    Keeps m s0 (firmwareRestart a1 s) := by
  unfold firmwareRestart
  extract_lets s1 s2
  have k_1 : Keeps m s0 s1 := abortMail_keeps (abortMail_keeps (endSession_keeps (endSession_keeps h (Within.trans (Eq.refl _) hw) ..)
    (Within.trans (Eq.refl _) hw) ..) (Within.trans (Eq.refl _) hw) ..) (Within.trans (Eq.refl _) hw) ..
  clear_value s1
  have k_2 : Keeps m s0 s2 := wr_keeps (wr_keeps (inc_keeps (wr_keeps k_1 hr ..) (Within.trans (Eq.refl _) hw) ..)
    (Within.trans (Eq.refl _) hw) ..) (Within.trans (Eq.refl _) hw) ..
  clear_value s2
  with_reducible apply Keeps.of_fields <;>
    first | with_reducible exact rfl | with_reducible exact Or.inl rfl | exact Or.inr (Within.trans (Eq.refl _) hw) | exact k_2

theorem execHandoffRevert_keeps (h : Keeps m s0 s) (hw : Within [.reg .EVT_PEND_PEND, .reg .EVT_RAW_RAW, .reg .I3C_STATUS_SECURE, .reg
    .SEC_MB_RES_RES, .reg .SEC_MB_STAT_BUSY, .reg .SEC_MB_STAT_DONE, .reg .SEC_MB_STAT_RESULT, .reg .SEC_MB_STAT_TAG, .reg
    .SEC_STATUS_BOOT_OK, .reg .SEC_STATUS_HANDOFF_BUSY, .reg .SYS_RESET_CAUSE_FW_FAULT, .reg .SYS_RESET_CAUSE_FW_WDT, .reg
    .SYS_RESET_CNT_FW_RESTART, .presented, .sec, .fwUp] m) (a1 : Bool) : Ends m s0 (execHandoffRevert a1 s) := by
  unfold execHandoffRevert
  try dsimp only
  repeat' first
    | with_reducible assumption
    | exact Within.trans (Eq.refl _) hw
    | (intro _)
    | with_reducible apply wr_keeps
    | with_reducible apply on_keeps
    | with_reducible apply act_keeps
    | with_reducible apply State.setSec_keeps
    | with_reducible apply firmwareRestart_keeps
    | with_reducible apply raise_keeps
    | with_reducible apply reply_keeps
    | with_reducible apply Keeps.ite
    | with_reducible apply Ends.ite
    | with_reducible apply Ends.next
    | split

theorem writeWdtKick_keeps (h : Keeps m s0 s) (hw : Within [.sec] m) (a1 : Nat) : Keeps m s0 (writeWdtKick a1 s) := by
  unfold writeWdtKick
  try dsimp only
  repeat' first
    | with_reducible assumption
    | exact Within.trans (Eq.refl _) hw
    | with_reducible apply State.setSec_keeps
    | with_reducible apply Keeps.ite
    | split

theorem execWdtKick_keeps (h : Keeps m s0 s) (hw : Within [.reg .ERR_CODE_CODE, .reg .ERR_CODE_MASTER, .reg .ERR_CODE_OVF, .reg
    .ERR_CODE_WORD, .reg .ERR_CODE_WRITE, .reg .POWER_STATUS_ENTERING, .reg .POWER_STATUS_EXITING, .reg .POWER_WAKE_STAT_CLASS, .reg
    .POWER_WAKE_STAT_FROM, .sec, .pwr] m) (a1 : Master) (a2 : Word) : Ends m s0 (execWdtKick a1 a2 s) := by
  unfold execWdtKick
  try dsimp only
  repeat' first
    | with_reducible assumption
    | exact Within.trans (Eq.refl _) hw
    | (intro _)
    | with_reducible apply act_keeps
    | with_reducible apply gateBy_keeps
    | with_reducible apply writeWdtKick_keeps
    | with_reducible apply Ends.ite
    | with_reducible apply Ends.next
    | split

theorem wdtExpires_keeps (h : Keeps m s0 s) (hw : Within [.reg .EVT_PEND_PEND, .reg .EVT_RAW_RAW, .reg .I3C_STATUS_SECURE, .reg
    .OUT_FAULT_CTL_WD_EN, .reg .OUT_FAULT_STAT_WATCHDOG, .reg .POWER_STATUS_ENTERING, .reg .POWER_STATUS_EXITING, .reg
    .POWER_WAKE_STAT_CLASS, .reg .POWER_WAKE_STAT_FROM, .reg .SEC_MB_RES_RES, .reg .SEC_MB_STAT_BUSY, .reg .SEC_MB_STAT_DONE, .reg
    .SEC_MB_STAT_RESULT, .reg .SEC_MB_STAT_TAG, .reg .SEC_STATUS_BOOT_OK, .reg .SEC_STATUS_HANDOFF_BUSY, .reg .SYS_RESET_CAUSE_FW_FAULT,
    .reg .SYS_RESET_CAUSE_FW_WDT, .reg .SYS_RESET_CNT_FW_RESTART, .presented, .sec, .pwr, .fwUp] m)  : Keeps m s0 (wdtExpires s) := by
  unfold wdtExpires
  try dsimp only
  repeat' first
    | with_reducible assumption
    | exact Within.trans (Eq.refl _) hw
    | (intro _)
    | with_reducible apply wrIf_keeps
    | with_reducible apply each_keeps
    | with_reducible apply firmwareRestart_keeps
    | with_reducible apply raise_keeps
    | with_reducible apply wake_keeps

theorem execWdtExpired_keeps (h : Keeps m s0 s) (hw : Within [.reg .EVT_PEND_PEND, .reg .EVT_RAW_RAW, .reg .I3C_STATUS_SECURE, .reg
    .OUT_FAULT_CTL_WD_EN, .reg .OUT_FAULT_STAT_WATCHDOG, .reg .POWER_STATUS_ENTERING, .reg .POWER_STATUS_EXITING, .reg
    .POWER_WAKE_STAT_CLASS, .reg .POWER_WAKE_STAT_FROM, .reg .SEC_MB_RES_RES, .reg .SEC_MB_STAT_BUSY, .reg .SEC_MB_STAT_DONE, .reg
    .SEC_MB_STAT_RESULT, .reg .SEC_MB_STAT_TAG, .reg .SEC_STATUS_BOOT_OK, .reg .SEC_STATUS_HANDOFF_BUSY, .reg .SYS_RESET_CAUSE_FW_FAULT,
    .reg .SYS_RESET_CAUSE_FW_WDT, .reg .SYS_RESET_CNT_FW_RESTART, .presented, .sec, .pwr, .fwUp] m)  : Ends m s0 (execWdtExpired s) := by
  unfold execWdtExpired
  try dsimp only
  repeat' first
    | with_reducible assumption
    | exact Within.trans (Eq.refl _) hw
    | (intro _)
    | with_reducible apply on_keeps
    | with_reducible apply act_keeps
    | with_reducible apply wdtExpires_keeps
    | with_reducible apply Ends.ite
    | with_reducible apply Ends.next
    | split

theorem execFirmwareRestart_keeps (h : Keeps m s0 s) (hw : Within [.reg .EVT_PEND_PEND, .reg .EVT_RAW_RAW, .reg .I3C_STATUS_SECURE, .reg
    .SEC_MB_RES_RES, .reg .SEC_MB_STAT_BUSY, .reg .SEC_MB_STAT_DONE, .reg .SEC_MB_STAT_RESULT, .reg .SEC_MB_STAT_TAG, .reg
    .SEC_STATUS_BOOT_OK, .reg .SEC_STATUS_HANDOFF_BUSY, .reg .SYS_RESET_CAUSE_FW_FAULT, .reg .SYS_RESET_CAUSE_FW_WDT, .reg
    .SYS_RESET_CNT_FW_RESTART, .presented, .sec, .fwUp] m)  : Ends m s0 (execFirmwareRestart s) := by
  unfold execFirmwareRestart
  try dsimp only
  repeat' first
    | with_reducible assumption
    | exact Within.trans (Eq.refl _) hw
    | (intro _)
    | with_reducible apply on_keeps
    | with_reducible apply act_keeps
    | with_reducible apply firmwareRestart_keeps
    | with_reducible apply Ends.ite
    | with_reducible apply Ends.next
    | split

theorem judgeSlot_keeps (h : Keeps m s0 s) (hw : Within [.reg .SEC_STATUS_SLOT_A_VALID, .reg .SEC_STATUS_SLOT_B_VALID, .reg
    .SYS_SPARE_SUM_FW, .sec] m) (a1 : Nat) : Keeps m s0 (judgeSlot a1 s) := by
  unfold judgeSlot
  try dsimp only
  repeat' first
    | with_reducible assumption
    | exact Within.trans (Eq.refl _) hw
    | with_reducible apply recordSlot_keeps
    | with_reducible apply Keeps.ite
    | split

theorem svnCommit_keeps (h : Keeps m s0 s) (hw : Within [.reg .EVT_PEND_PEND, .reg .EVT_RAW_RAW, .reg .SEC_STATUS_SLOT_A_VALID, .reg
    .SEC_STATUS_SLOT_B_VALID, .reg .SEC_STATUS_VK_REVOKED, .reg .SEC_STATUS_VK_USED, .reg .SEC_SVN_FUSE_COUNT, .reg .SEC_SVN_RUN_SVN, .reg
    .SYS_SPARE_SUM_FW, .presented, .sec] m) (a1 : MbCall) : Keeps m s0 (svnCommit a1 s) := by
  unfold svnCommit
  try dsimp only
  repeat' first
    | with_reducible assumption
    | exact Within.trans (Eq.refl _) hw
    | (intro _)
    | with_reducible apply wr_keeps
    | with_reducible apply wrIf_keeps
    | with_reducible apply each_keeps
    | with_reducible apply judgeSlot_keeps
    | with_reducible apply raise_keeps
    | with_reducible apply reply_keeps
    | with_reducible apply Keeps.ite
    | split

theorem execSvnCommit_keeps (h : Keeps m s0 s) (hw : Within [.reg .EVT_PEND_PEND, .reg .EVT_RAW_RAW, .reg .SEC_STATUS_SLOT_A_VALID, .reg
    .SEC_STATUS_SLOT_B_VALID, .reg .SEC_STATUS_VK_REVOKED, .reg .SEC_STATUS_VK_USED, .reg .SEC_SVN_FUSE_COUNT, .reg .SEC_SVN_RUN_SVN, .reg
    .SYS_SPARE_SUM_FW, .presented, .sec] m) (a1 : Fin 2) : Ends m s0 (execSvnCommit a1 s) := by
  unfold execSvnCommit
  try dsimp only
  repeat' first
    | with_reducible assumption
    | exact Within.trans (Eq.refl _) hw
    | (intro _)
    | with_reducible apply act_keeps
    | with_reducible apply serve_keeps
    | with_reducible apply svnCommit_keeps
    | with_reducible apply Ends.ite
    | with_reducible apply Ends.next
    | split

theorem slotSelect_keeps (h : Keeps m s0 s) (hw : Within [.reg .SEC_STATUS_PREF_SLOT, .sec] m) (a1 : MbCall) : Keeps m s0 (slotSelect a1
    s) := by
  unfold slotSelect
  try dsimp only
  repeat' first
    | with_reducible assumption
    | exact Within.trans (Eq.refl _) hw
    | with_reducible apply wr_keeps
    | with_reducible apply reply_keeps
    | with_reducible apply Keeps.ite
    | split

theorem execSlotSelect_keeps (h : Keeps m s0 s) (hw : Within [.reg .SEC_STATUS_PREF_SLOT, .sec] m) (a1 : Fin 2) : Ends m s0
    (execSlotSelect a1 s) := by
  unfold execSlotSelect
  try dsimp only
  repeat' first
    | with_reducible assumption
    | exact Within.trans (Eq.refl _) hw
    | (intro _)
    | with_reducible apply act_keeps
    | with_reducible apply serve_keeps
    | with_reducible apply slotSelect_keeps
    | with_reducible apply Ends.ite
    | with_reducible apply Ends.next
    | split

theorem policyChanged_keeps (h : Keeps m s0 s) (hw : Within [.reg .SEC_MR_CNT_CNT, .reg .SEC_MR_VALUE] m)  : Keeps m s0 (policyChanged
    s) := by
  unfold policyChanged
  try dsimp only
  repeat' first
    | with_reducible assumption
    | exact Within.trans (Eq.refl _) hw
    | with_reducible apply extendMr_keeps

theorem policyWrite_keeps (h : Keeps m s0 s) (hw : Within [.sec] m) (a1 : MbCall) (a2 : State → State) (k2 : ∀ t, Keeps m s0 t → Keeps m
    s0 (a2 t)) : Keeps m s0 (policyWrite a1 a2 s) := by
  unfold policyWrite
  try dsimp only
  repeat' first
    | with_reducible assumption
    | exact Within.trans (Eq.refl _) hw
    | (intro _)
    | with_reducible apply reply_keeps
    | with_reducible apply k2
    | with_reducible apply Keeps.ite
    | split

theorem policySet_keeps (h : Keeps m s0 s) (hw : Within [.reg .SEC_LIB_VER_MIN_VER, .reg .SEC_MR_CNT_CNT, .reg .SEC_MR_VALUE, .reg
    .XSPI_LD_CTL_SIG_REQ, .sec] m) (a1 : MbCall) : Keeps m s0 (policySet a1 s) := by
  unfold policySet
  try dsimp only
  repeat' first
    | with_reducible assumption
    | exact Within.trans (Eq.refl _) hw
    | (intro _)
    | with_reducible apply wr_keeps
    | with_reducible apply policyChanged_keeps
    | with_reducible apply policyWrite_keeps
    | with_reducible apply reply_keeps

theorem execPolicySet_keeps (h : Keeps m s0 s) (hw : Within [.reg .SEC_LIB_VER_MIN_VER, .reg .SEC_MR_CNT_CNT, .reg .SEC_MR_VALUE, .reg
    .XSPI_LD_CTL_SIG_REQ, .sec] m) (a1 : Fin 2) : Ends m s0 (execPolicySet a1 s) := by
  unfold execPolicySet
  try dsimp only
  repeat' first
    | with_reducible assumption
    | exact Within.trans (Eq.refl _) hw
    | (intro _)
    | with_reducible apply act_keeps
    | with_reducible apply policySet_keeps
    | with_reducible apply serve_keeps
    | with_reducible apply Ends.ite
    | with_reducible apply Ends.next
    | split

theorem putLibKey_keeps (h : Keeps m s0 s) (hw : Within [.reg .SEC_MR_CNT_CNT, .reg .SEC_MR_VALUE, .sec] m) (a1 : MbCall) (a2 : Nat) (a3
    : Option (List Byte)) : Keeps m s0 (putLibKey a1 a2 a3 s) := by
  unfold putLibKey
  try dsimp only
  repeat' first
    | with_reducible assumption
    | exact Within.trans (Eq.refl _) hw
    | with_reducible apply State.setSec_keeps
    | with_reducible apply policyChanged_keeps
    | with_reducible apply reply_keeps

theorem libkeySet_keeps (h : Keeps m s0 s) (hw : Within [.reg .BENCH_BENCH_HEALTH_HEALTH, .reg .BENCH_BIST_STAT_PHASE, .reg
    .BENCH_BPWR_STAT_STATE, .reg .BENCH_ECC_CNT_CE, .reg .BENCH_ECC_CNT_UE, .reg .BENCH_STATUS_BIST_BUSY, .reg .BENCH_STATUS_SPARE_FREE,
    .reg .BENCH_UE_ADDR_IN_SPARE, .reg .BENCH_UE_ADDR_OFFSET, .reg .EVT_PEND_PEND, .reg .EVT_RAW_RAW, .reg .POWER_STATUS_ENTERING, .reg
    .POWER_STATUS_EXITING, .reg .POWER_WAKE_STAT_CLASS, .reg .POWER_WAKE_STAT_FROM, .reg .QUARRY_CAPACITY_N_ACTIVE, .reg .QUARRY_ECC_CNT_CE,
    .reg .QUARRY_ECC_CNT_UE, .reg .QUARRY_LRMAP_MAP, .reg .QUARRY_LRMAP_SPARE, .reg .QUARRY_RANK_STATE_STATE, .reg .QUARRY_STATUS_DEGRADED,
    .reg .QUARRY_STATUS_MIGRATING, .reg .QUARRY_UE_ADDR_HI_ADDR, .reg .QUARRY_UE_ADDR_HI_BANK, .reg .QUARRY_UE_ADDR_HI_RANK, .reg
    .QUARRY_UE_ADDR_LO_ADDR, .reg .SEC_MR_CNT_CNT, .reg .SEC_MR_VALUE, .presented, .holdoff, .poison, .sec, .pwr, .qry, .ben, .free] m) (a1
    : MbCall) : Keeps m s0 (libkeySet a1 s) := by
  unfold libkeySet
  try dsimp only
  repeat' first
    | with_reducible assumption
    | exact Within.trans (Eq.refl _) hw
    | (intro _)
    | with_reducible apply policyWrite_keeps
    | with_reducible apply putLibKey_keeps
    | with_reducible apply reply_keeps
    | with_reducible apply withBuffer_keeps
    | with_reducible apply Keeps.ite
    | split

theorem execLibkeySet_keeps (h : Keeps m s0 s) (hw : Within [.reg .BENCH_BENCH_HEALTH_HEALTH, .reg .BENCH_BIST_STAT_PHASE, .reg
    .BENCH_BPWR_STAT_STATE, .reg .BENCH_ECC_CNT_CE, .reg .BENCH_ECC_CNT_UE, .reg .BENCH_STATUS_BIST_BUSY, .reg .BENCH_STATUS_SPARE_FREE,
    .reg .BENCH_UE_ADDR_IN_SPARE, .reg .BENCH_UE_ADDR_OFFSET, .reg .EVT_PEND_PEND, .reg .EVT_RAW_RAW, .reg .POWER_STATUS_ENTERING, .reg
    .POWER_STATUS_EXITING, .reg .POWER_WAKE_STAT_CLASS, .reg .POWER_WAKE_STAT_FROM, .reg .QUARRY_CAPACITY_N_ACTIVE, .reg .QUARRY_ECC_CNT_CE,
    .reg .QUARRY_ECC_CNT_UE, .reg .QUARRY_LRMAP_MAP, .reg .QUARRY_LRMAP_SPARE, .reg .QUARRY_RANK_STATE_STATE, .reg .QUARRY_STATUS_DEGRADED,
    .reg .QUARRY_STATUS_MIGRATING, .reg .QUARRY_UE_ADDR_HI_ADDR, .reg .QUARRY_UE_ADDR_HI_BANK, .reg .QUARRY_UE_ADDR_HI_RANK, .reg
    .QUARRY_UE_ADDR_LO_ADDR, .reg .SEC_MR_CNT_CNT, .reg .SEC_MR_VALUE, .presented, .holdoff, .poison, .sec, .pwr, .qry, .ben, .free] m) (a1
    : Fin 2) : Ends m s0 (execLibkeySet a1 s) := by
  unfold execLibkeySet
  try dsimp only
  repeat' first
    | with_reducible assumption
    | exact Within.trans (Eq.refl _) hw
    | (intro _)
    | with_reducible apply act_keeps
    | with_reducible apply libkeySet_keeps
    | with_reducible apply serve_keeps
    | with_reducible apply Ends.ite
    | with_reducible apply Ends.next
    | split

theorem ownerKeySet_keeps (h : Keeps m s0 s) (hw : Within [.reg .BENCH_BENCH_HEALTH_HEALTH, .reg .BENCH_BIST_STAT_PHASE, .reg
    .BENCH_BPWR_STAT_STATE, .reg .BENCH_ECC_CNT_CE, .reg .BENCH_ECC_CNT_UE, .reg .BENCH_STATUS_BIST_BUSY, .reg .BENCH_STATUS_SPARE_FREE,
    .reg .BENCH_UE_ADDR_IN_SPARE, .reg .BENCH_UE_ADDR_OFFSET, .reg .EVT_PEND_PEND, .reg .EVT_RAW_RAW, .reg .POWER_STATUS_ENTERING, .reg
    .POWER_STATUS_EXITING, .reg .POWER_WAKE_STAT_CLASS, .reg .POWER_WAKE_STAT_FROM, .reg .QUARRY_CAPACITY_N_ACTIVE, .reg .QUARRY_ECC_CNT_CE,
    .reg .QUARRY_ECC_CNT_UE, .reg .QUARRY_LRMAP_MAP, .reg .QUARRY_LRMAP_SPARE, .reg .QUARRY_RANK_STATE_STATE, .reg .QUARRY_STATUS_DEGRADED,
    .reg .QUARRY_STATUS_MIGRATING, .reg .QUARRY_UE_ADDR_HI_ADDR, .reg .QUARRY_UE_ADDR_HI_BANK, .reg .QUARRY_UE_ADDR_HI_RANK, .reg
    .QUARRY_UE_ADDR_LO_ADDR, .reg .SEC_MR_CNT_CNT, .reg .SEC_MR_VALUE, .reg .SEC_STATUS_OWNER_SET, .presented, .holdoff, .poison, .sec,
    .pwr, .qry, .ben, .free] m) (a1 : MbCall) : Keeps m s0 (ownerKeySet a1 s) := by
  unfold ownerKeySet
  try dsimp only
  repeat' first
    | with_reducible assumption
    | exact Within.trans (Eq.refl _) hw
    | (intro _)
    | with_reducible apply wr_keeps
    | with_reducible apply State.setSec_keeps
    | with_reducible apply policyChanged_keeps
    | with_reducible apply policyWrite_keeps
    | with_reducible apply reply_keeps
    | with_reducible apply withBuffer_keeps

theorem execOwnerKeySet_keeps (h : Keeps m s0 s) (hw : Within [.reg .BENCH_BENCH_HEALTH_HEALTH, .reg .BENCH_BIST_STAT_PHASE, .reg
    .BENCH_BPWR_STAT_STATE, .reg .BENCH_ECC_CNT_CE, .reg .BENCH_ECC_CNT_UE, .reg .BENCH_STATUS_BIST_BUSY, .reg .BENCH_STATUS_SPARE_FREE,
    .reg .BENCH_UE_ADDR_IN_SPARE, .reg .BENCH_UE_ADDR_OFFSET, .reg .EVT_PEND_PEND, .reg .EVT_RAW_RAW, .reg .POWER_STATUS_ENTERING, .reg
    .POWER_STATUS_EXITING, .reg .POWER_WAKE_STAT_CLASS, .reg .POWER_WAKE_STAT_FROM, .reg .QUARRY_CAPACITY_N_ACTIVE, .reg .QUARRY_ECC_CNT_CE,
    .reg .QUARRY_ECC_CNT_UE, .reg .QUARRY_LRMAP_MAP, .reg .QUARRY_LRMAP_SPARE, .reg .QUARRY_RANK_STATE_STATE, .reg .QUARRY_STATUS_DEGRADED,
    .reg .QUARRY_STATUS_MIGRATING, .reg .QUARRY_UE_ADDR_HI_ADDR, .reg .QUARRY_UE_ADDR_HI_BANK, .reg .QUARRY_UE_ADDR_HI_RANK, .reg
    .QUARRY_UE_ADDR_LO_ADDR, .reg .SEC_MR_CNT_CNT, .reg .SEC_MR_VALUE, .reg .SEC_STATUS_OWNER_SET, .presented, .holdoff, .poison, .sec,
    .pwr, .qry, .ben, .free] m) (a1 : Fin 2) : Ends m s0 (execOwnerKeySet a1 s) := by
  unfold execOwnerKeySet
  try dsimp only
  repeat' first
    | with_reducible assumption
    | exact Within.trans (Eq.refl _) hw
    | (intro _)
    | with_reducible apply act_keeps
    | with_reducible apply ownerKeySet_keeps
    | with_reducible apply serve_keeps
    | with_reducible apply Ends.ite
    | with_reducible apply Ends.next
    | split

theorem policyLock_keeps (h : Keeps m s0 s) (hw : Within [.reg .SEC_STATUS_POLICY_LOCKED, .sec] m) (a1 : MbCall) : Keeps m s0
    (policyLock a1 s) := by
  unfold policyLock
  try dsimp only
  repeat' first
    | with_reducible assumption
    | exact Within.trans (Eq.refl _) hw
    | with_reducible apply wr_keeps
    | with_reducible apply reply_keeps
    | with_reducible apply Keeps.ite
    | split

theorem execPolicyLock_keeps (h : Keeps m s0 s) (hw : Within [.reg .SEC_STATUS_POLICY_LOCKED, .sec] m) (a1 : Fin 2) : Ends m s0
    (execPolicyLock a1 s) := by
  unfold execPolicyLock
  try dsimp only
  repeat' first
    | with_reducible assumption
    | exact Within.trans (Eq.refl _) hw
    | (intro _)
    | with_reducible apply act_keeps
    | with_reducible apply policyLock_keeps
    | with_reducible apply serve_keeps
    | with_reducible apply Ends.ite
    | with_reducible apply Ends.next
    | split

theorem recoveryBoot_keeps (h : Keeps m s0 s) (hw : Within [.reg .BENCH_BENCH_HEALTH_HEALTH, .reg .BENCH_BIST_STAT_PHASE, .reg
    .BENCH_BPWR_STAT_STATE, .reg .BENCH_ECC_CNT_CE, .reg .BENCH_ECC_CNT_UE, .reg .BENCH_STATUS_BIST_BUSY, .reg .BENCH_STATUS_SPARE_FREE,
    .reg .BENCH_UE_ADDR_IN_SPARE, .reg .BENCH_UE_ADDR_OFFSET, .reg .EVT_PEND_PEND, .reg .EVT_RAW_RAW, .reg .POWER_STATUS_ENTERING, .reg
    .POWER_STATUS_EXITING, .reg .POWER_WAKE_STAT_CLASS, .reg .POWER_WAKE_STAT_FROM, .reg .QUARRY_CAPACITY_N_ACTIVE, .reg .QUARRY_ECC_CNT_CE,
    .reg .QUARRY_ECC_CNT_UE, .reg .QUARRY_LRMAP_MAP, .reg .QUARRY_LRMAP_SPARE, .reg .QUARRY_RANK_STATE_STATE, .reg .QUARRY_STATUS_DEGRADED,
    .reg .QUARRY_STATUS_MIGRATING, .reg .QUARRY_UE_ADDR_HI_ADDR, .reg .QUARRY_UE_ADDR_HI_BANK, .reg .QUARRY_UE_ADDR_HI_RANK, .reg
    .QUARRY_UE_ADDR_LO_ADDR, .reg .SEC_BOOT_TIME_US100, .reg .SEC_FW_VER_VER, .reg .SEC_MR_CNT_CNT, .reg .SEC_MR_VALUE, .reg
    .SEC_STATUS_BOOT_OK, .reg .SEC_STATUS_RECOVERY, .reg .SEC_STATUS_RUN_SRC, .reg .SEC_STATUS_VK_USED, .reg .SEC_SVN_RUN_SVN, .reg
    .STITCH_MC_VER_ACTIVE, .reg .XSPI_XSPI_CFG_ADDR4, .reg .XSPI_XSPI_CFG_CLKDIV, .reg .XSPI_XSPI_CFG_DEVTYPE, .reg .XSPI_XSPI_CFG_DUMMY,
    .reg .XSPI_XSPI_CFG_EXT, .reg .XSPI_XSPI_CFG_MODE, .reg .XSPI_XSPI_CFG_RD_OP, .presented, .holdoff, .poison, .sec, .pwr, .qry, .ben,
    .fwUp, .free] m) (a1 : MbCall) : Keeps m s0 (recoveryBoot a1 s) := by
  unfold recoveryBoot
  try dsimp only
  repeat' first
    | with_reducible assumption
    | exact Within.trans (Eq.refl _) hw
    | (intro _)
    | with_reducible apply State.setSec_keeps
    | with_reducible apply reply_keeps
    | with_reducible apply startImage_keeps
    | with_reducible apply withBuffer_keeps
    | with_reducible apply Keeps.ite
    | split

theorem execRecoveryBoot_keeps (h : Keeps m s0 s) (hw : Within [.reg .BENCH_BENCH_HEALTH_HEALTH, .reg .BENCH_BIST_STAT_PHASE, .reg
    .BENCH_BPWR_STAT_STATE, .reg .BENCH_ECC_CNT_CE, .reg .BENCH_ECC_CNT_UE, .reg .BENCH_STATUS_BIST_BUSY, .reg .BENCH_STATUS_SPARE_FREE,
    .reg .BENCH_UE_ADDR_IN_SPARE, .reg .BENCH_UE_ADDR_OFFSET, .reg .EVT_PEND_PEND, .reg .EVT_RAW_RAW, .reg .POWER_STATUS_ENTERING, .reg
    .POWER_STATUS_EXITING, .reg .POWER_WAKE_STAT_CLASS, .reg .POWER_WAKE_STAT_FROM, .reg .QUARRY_CAPACITY_N_ACTIVE, .reg .QUARRY_ECC_CNT_CE,
    .reg .QUARRY_ECC_CNT_UE, .reg .QUARRY_LRMAP_MAP, .reg .QUARRY_LRMAP_SPARE, .reg .QUARRY_RANK_STATE_STATE, .reg .QUARRY_STATUS_DEGRADED,
    .reg .QUARRY_STATUS_MIGRATING, .reg .QUARRY_UE_ADDR_HI_ADDR, .reg .QUARRY_UE_ADDR_HI_BANK, .reg .QUARRY_UE_ADDR_HI_RANK, .reg
    .QUARRY_UE_ADDR_LO_ADDR, .reg .SEC_BOOT_TIME_US100, .reg .SEC_FW_VER_VER, .reg .SEC_MR_CNT_CNT, .reg .SEC_MR_VALUE, .reg
    .SEC_STATUS_BOOT_OK, .reg .SEC_STATUS_RECOVERY, .reg .SEC_STATUS_RUN_SRC, .reg .SEC_STATUS_VK_USED, .reg .SEC_SVN_RUN_SVN, .reg
    .STITCH_MC_VER_ACTIVE, .reg .XSPI_XSPI_CFG_ADDR4, .reg .XSPI_XSPI_CFG_CLKDIV, .reg .XSPI_XSPI_CFG_DEVTYPE, .reg .XSPI_XSPI_CFG_DUMMY,
    .reg .XSPI_XSPI_CFG_EXT, .reg .XSPI_XSPI_CFG_MODE, .reg .XSPI_XSPI_CFG_RD_OP, .presented, .holdoff, .poison, .sec, .pwr, .qry, .ben,
    .fwUp, .free] m) (a1 : Fin 2) : Ends m s0 (execRecoveryBoot a1 s) := by
  unfold execRecoveryBoot
  try dsimp only
  repeat' first
    | with_reducible assumption
    | exact Within.trans (Eq.refl _) hw
    | (intro _)
    | with_reducible apply act_keeps
    | with_reducible apply recoveryBoot_keeps
    | with_reducible apply serve_keeps
    | with_reducible apply Ends.ite
    | with_reducible apply Ends.next
    | split

theorem refuseUnknown_keeps (h : Keeps m s0 s) (hw : Within [.reg .EVT_PEND_PEND, .reg .EVT_RAW_RAW, .reg .SEC_MB_RES_RES, .reg
    .SEC_MB_STAT_BUSY, .reg .SEC_MB_STAT_DONE, .reg .SEC_MB_STAT_RESULT, .reg .SEC_MB_STAT_TAG, .presented, .sec] m) (a1 : Nat) : Keeps m s0
    (refuseUnknown a1 s) := by
  unfold refuseUnknown
  try dsimp only
  repeat' first
    | with_reducible assumption
    | exact Within.trans (Eq.refl _) hw
    | with_reducible apply State.setSec_keeps
    | with_reducible apply report_keeps
    | with_reducible apply Keeps.ite
    | split

theorem installEnds_keeps (h : Keeps m s0 s) (hw : Within [.reg .SEC_STATUS_PREF_SLOT, .sec] m) (a1 : Nat) : Keeps m s0 (installEnds a1
    s) := by
  unfold installEnds
  try dsimp only
  repeat' first
    | with_reducible assumption
    | exact Within.trans (Eq.refl _) hw
    | with_reducible apply wr_keeps
    | with_reducible apply State.setSec_keeps
    | with_reducible apply Keeps.ite
    | split

theorem mbDone_keeps (h : Keeps m s0 s) (hw : Within [.reg .EVT_PEND_PEND, .reg .EVT_RAW_RAW, .reg .SEC_FW_VER_VER, .reg
    .SEC_MB_RES_RES, .reg .SEC_MB_STAT_BUSY, .reg .SEC_MB_STAT_DONE, .reg .SEC_MB_STAT_RESULT, .reg .SEC_MB_STAT_TAG, .reg
    .SEC_STATUS_HANDOFF_BUSY, .reg .SEC_STATUS_PREF_SLOT, .reg .SEC_STATUS_RUN_SRC, .reg .SEC_STATUS_VK_USED, .reg .SEC_SVN_RUN_SVN,
    .presented, .sec] m) (a1 : Nat) : Keeps m s0 (mbDone a1 s) := by
  unfold mbDone
  try dsimp only
  repeat' first
    | with_reducible assumption
    | exact Within.trans (Eq.refl _) hw
    | with_reducible apply State.setSec_keeps
    | with_reducible apply endTakeover_keeps
    | with_reducible apply installEnds_keeps
    | with_reducible apply refuseUnknown_keeps
    | with_reducible apply report_keeps
    | with_reducible apply Keeps.ite
    | split

theorem execMbDone_keeps (h : Keeps m s0 s) (hw : Within [.reg .EVT_PEND_PEND, .reg .EVT_RAW_RAW, .reg .SEC_FW_VER_VER, .reg
    .SEC_MB_RES_RES, .reg .SEC_MB_STAT_BUSY, .reg .SEC_MB_STAT_DONE, .reg .SEC_MB_STAT_RESULT, .reg .SEC_MB_STAT_TAG, .reg
    .SEC_STATUS_HANDOFF_BUSY, .reg .SEC_STATUS_PREF_SLOT, .reg .SEC_STATUS_RUN_SRC, .reg .SEC_STATUS_VK_USED, .reg .SEC_SVN_RUN_SVN,
    .presented, .sec] m) (a1 : Fin 2) : Ends m s0 (execMbDone a1 s) := by
  unfold execMbDone
  try dsimp only
  repeat' first
    | with_reducible assumption
    | exact Within.trans (Eq.refl _) hw
    | (intro _)
    | with_reducible apply act_keeps
    | with_reducible apply mbDone_keeps
    | with_reducible apply Ends.ite
    | with_reducible apply Ends.next
    | split

end Sys2Proof.Machine
end

