-- ==== Sys2Proof/Laws/ShadowKeeps.lean ====
section
/-! SUPPORT. What the operations of Machine/Shadow.lean keep: the queue, the invariant, and every part outside their footprint. -/

set_option maxRecDepth 4000
set_option linter.unusedTactic false
set_option linter.unreachableTactic false

namespace Sys2Proof.Machine

variable {m : Nat} {s0 s : State}

theorem shadowGo_keeps (h : Keeps m s0 s) (hw : Within [.reg .SHADOW_CMD_PENDING, .reg .SHADOW_CMD_REFUSED, .cap, .commits] m) (a1 :
    Page) (a2 : Nat) (a3 : Nat) (a4 : Nat) : Keeps m s0 (shadowGo a1 a2 a3 a4 s) := by
  unfold shadowGo
  try dsimp only
  repeat' first
    | with_reducible assumption
    | exact Within.trans (Eq.refl _) hw
    | with_reducible apply wr_keeps
    | with_reducible apply capturePage_keeps
    | with_reducible apply Keeps.ite
    | split
    | (with_reducible apply Keeps.of_fields <;>
        first | with_reducible exact rfl | with_reducible exact Or.inl rfl | exact Or.inr (Within.trans (Eq.refl _) hw) | skip)

theorem shadowCancel_keeps (h : Keeps m s0 s) (hw : Within [.reg .SHADOW_CMD_PENDING, .cap, .commits] m) (a1 : Page) (a2 : Nat) : Keeps
    m s0 (shadowCancel a1 a2 s) := by
  unfold shadowCancel
  try dsimp only
  repeat' first
    | with_reducible assumption
    | exact Within.trans (Eq.refl _) hw
    | (intro _)
    | with_reducible apply wr_keeps
    | with_reducible apply Keeps.ite
    | split
    | (with_reducible apply Keeps.of_fields <;>
        first | with_reducible exact rfl | with_reducible exact Or.inl rfl | exact Or.inr (Within.trans (Eq.refl _) hw) | skip)

theorem writeShadowCmd_keeps (h : Keeps m s0 s) (hw : Within [.reg .ERR_CODE_CODE, .reg .ERR_CODE_MASTER, .reg .ERR_CODE_OVF, .reg
    .ERR_CODE_WORD, .reg .ERR_CODE_WRITE, .reg .SHADOW_CMD_LATE, .reg .SHADOW_CMD_LC, .reg .SHADOW_CMD_MODE, .reg .SHADOW_CMD_PENDING, .reg
    .SHADOW_CMD_REFUSED, .cap, .commits] m) (a1 : Page) (a2 : Nat) (a3 : Nat) (a4 : Nat) : Keeps m s0 (writeShadowCmd a1 a2 a3 a4 s) := by
  unfold writeShadowCmd
  try dsimp only
  repeat' first
    | with_reducible assumption
    | exact Within.trans (Eq.refl _) hw
    | with_reducible apply wr_keeps
    | with_reducible apply wrIf_keeps
    | with_reducible apply recordErr_keeps
    | with_reducible apply shadowCancel_keeps
    | with_reducible apply shadowGo_keeps
    | with_reducible apply Keeps.ite
    | split

theorem shadowCmd_keeps (h : Keeps m s0 s) (hw : Within [.reg .ERR_CODE_CODE, .reg .ERR_CODE_MASTER, .reg .ERR_CODE_OVF, .reg
    .ERR_CODE_WORD, .reg .ERR_CODE_WRITE, .reg .POWER_STATUS_ENTERING, .reg .POWER_STATUS_EXITING, .reg .POWER_WAKE_STAT_CLASS, .reg
    .POWER_WAKE_STAT_FROM, .reg .SHADOW_CMD_LATE, .reg .SHADOW_CMD_LC, .reg .SHADOW_CMD_MODE, .reg .SHADOW_CMD_PENDING, .reg
    .SHADOW_CMD_REFUSED, .cap, .commits, .pwr] m) (a1 : Page) (a2 : Nat) (a3 : Nat) (a4 : Nat) : Ends m s0 (shadowCmd a1 a2 a3 a4 s) := by
  unfold shadowCmd
  try dsimp only
  repeat' first
    | with_reducible assumption
    | exact Within.trans (Eq.refl _) hw
    | (intro _)
    | with_reducible apply on_keeps
    | with_reducible apply act_keeps
    | with_reducible apply gateBy_keeps
    | with_reducible apply writeShadowCmd_keeps
    | with_reducible apply Ends.ite
    | with_reducible apply Ends.next
    | split

theorem execShadowGo_keeps (h : Keeps m s0 s) (hw : Within [.reg .ERR_CODE_CODE, .reg .ERR_CODE_MASTER, .reg .ERR_CODE_OVF, .reg
    .ERR_CODE_WORD, .reg .ERR_CODE_WRITE, .reg .POWER_STATUS_ENTERING, .reg .POWER_STATUS_EXITING, .reg .POWER_WAKE_STAT_CLASS, .reg
    .POWER_WAKE_STAT_FROM, .reg .SHADOW_CMD_LATE, .reg .SHADOW_CMD_LC, .reg .SHADOW_CMD_MODE, .reg .SHADOW_CMD_PENDING, .reg
    .SHADOW_CMD_REFUSED, .cap, .commits, .pwr] m) (a1 : Master) (a2 : Page) (a3 : Chan) (a4 : Fin 4) (a5 : Lc) : Ends m s0 (execShadowGo a1
    a2 a3 a4 a5 s) := by
  unfold execShadowGo
  try dsimp only
  repeat' first
    | with_reducible assumption
    | exact Within.trans (Eq.refl _) hw
    | with_reducible apply shadowCmd_keeps
    | with_reducible apply Ends.ite
    | with_reducible apply Ends.next
    | split

theorem execShadowCancel_keeps (h : Keeps m s0 s) (hw : Within [.reg .ERR_CODE_CODE, .reg .ERR_CODE_MASTER, .reg .ERR_CODE_OVF, .reg
    .ERR_CODE_WORD, .reg .ERR_CODE_WRITE, .reg .POWER_STATUS_ENTERING, .reg .POWER_STATUS_EXITING, .reg .POWER_WAKE_STAT_CLASS, .reg
    .POWER_WAKE_STAT_FROM, .reg .SHADOW_CMD_LATE, .reg .SHADOW_CMD_LC, .reg .SHADOW_CMD_MODE, .reg .SHADOW_CMD_PENDING, .reg
    .SHADOW_CMD_REFUSED, .cap, .commits, .pwr] m) (a1 : Master) (a2 : Page) (a3 : Chan) : Ends m s0 (execShadowCancel a1 a2 a3 s) := by
  unfold execShadowCancel
  try dsimp only
  repeat' first
    | with_reducible assumption
    | exact Within.trans (Eq.refl _) hw
    | with_reducible apply shadowCmd_keeps
    | with_reducible apply Ends.ite
    | with_reducible apply Ends.next
    | split

theorem execShadowCapture_keeps (h : Keeps m s0 s) (hw : Within [.cap, .commits] m) (a1 : Page) (a2 : Chan) : Ends m s0
    (execShadowCapture a1 a2 s) := by
  unfold execShadowCapture
  try dsimp only
  repeat' first
    | with_reducible assumption
    | exact Within.trans (Eq.refl _) hw
    | (intro _)
    | with_reducible apply act_keeps
    | with_reducible apply capturePage_keeps
    | with_reducible apply Keeps.ite
    | with_reducible apply Ends.ite
    | with_reducible apply Ends.next
    | split
    | (with_reducible apply Keeps.of_fields <;>
        first | with_reducible exact rfl | with_reducible exact Or.inl rfl | exact Or.inr (Within.trans (Eq.refl _) hw) | skip)

theorem applyOut_keeps (h : Keeps m s0 s) (hw : Within [.reg .BURNISH_STATUS_ROTATING, .reg .EVT_PEND_PEND, .reg .EVT_RAW_RAW, .reg
    .OUT_STATUS_GANG_ACTIVE, .reg .OUT_STATUS_SPAN_BUSY, .reg .SPARE_ELEM_TRIM_E, .reg .SPARE_GO_TRIM_GAIN, .reg .SPARE_GO_TRIM_OFFSET, .reg
    .SPARE_LADDER_TRIM_L, .reg .SPARE_STATUS_PHASE, .reg .SPARE_STATUS_VISIT_POS, .eff, .presented, .outs, .tiers] m) (a1 : Nat) : Keeps m
    s0 (applyOut a1 s) := by
  unfold applyOut
  try dsimp only
  repeat' first
    | with_reducible assumption
    | exact Within.trans (Eq.refl _) hw
    | with_reducible apply wrEff_keeps
    | with_reducible apply bindUpdate_keeps
    | with_reducible apply commitSpan_keeps
    | with_reducible apply Keeps.ite
    | split

theorem applyCse_keeps (h : Keeps m s0 s) (hw : Within [.eff] m) (a1 : Nat) : Keeps m s0 (applyCse a1 s) := by
  unfold applyCse
  try dsimp only
  repeat' first
    | with_reducible assumption
    | exact Within.trans (Eq.refl _) hw
    | with_reducible apply wrEff_keeps

theorem applyRate_keeps (h : Keeps m s0 s) (hw : Within [.reg .CSE_ALLOC_EFF_PART_EFF, .reg .CSE_ALLOC_EFF_PLAYERS_EFF, .reg
    .CSE_STATUS_BUDGET_CLAMP, .reg .EVT_PEND_PEND, .reg .EVT_RAW_RAW, .reg .QCLK_ORIGIN_FRAC_FRAC, .reg .QCLK_ORIGIN_HI_ORIGIN_HI, .reg
    .QCLK_ORIGIN_LO_ORIGIN_LO, .reg .QCLK_QCLK_STATUS_LOCKED, .reg .QCLK_QCLK_STATUS_READY, .reg .QCLK_QCLK_STATUS_SETTLING, .eff,
    .presented, .clocks, .wheels, .cses, .outs] m) (a1 : Nat) (a2 : Nat) (a3 : Nat) : Keeps m s0 (applyRate a1 a2 a3 s) := by
  unfold applyRate
  try dsimp only
  repeat' first
    | with_reducible assumption
    | exact Within.trans (Eq.refl _) hw
    | with_reducible apply wr_keeps
    | with_reducible apply wrEff_keeps
    | with_reducible apply State.setClock_keeps
    | with_reducible apply raise_keeps
    | with_reducible apply recomputeAlloc_keeps
    | with_reducible apply rerateWheel_keeps
    | with_reducible apply restartSamples_keeps
    | with_reducible apply setOrigin_keeps
    | with_reducible apply spareFollows_keeps

theorem applyQclk_keeps (h : Keeps m s0 s) (hw : Within [.reg .CSE_ALLOC_EFF_PART_EFF, .reg .CSE_ALLOC_EFF_PLAYERS_EFF, .reg
    .CSE_STATUS_BUDGET_CLAMP, .reg .EVT_PEND_PEND, .reg .EVT_RAW_RAW, .reg .QCLK_ORIGIN_FRAC_FRAC, .reg .QCLK_ORIGIN_HI_ORIGIN_HI, .reg
    .QCLK_ORIGIN_LO_ORIGIN_LO, .reg .QCLK_QCLK_STATUS_LOCKED, .reg .QCLK_QCLK_STATUS_READY, .reg .QCLK_QCLK_STATUS_SETTLING, .eff,
    .presented, .clocks, .wheels, .cses, .outs] m) (a1 : Nat) : Keeps m s0 (applyQclk a1 s) := by
  unfold applyQclk
  try dsimp only
  repeat' first
    | with_reducible assumption
    | exact Within.trans (Eq.refl _) hw
    | with_reducible apply applyRate_keeps
    | with_reducible apply Keeps.ite
    | split

theorem applyGstbN_keeps (h : Keeps m s0 s) (hw : Within [.eff, .gstbs] m) (a1 : Instant) (a2 : Nat) : Keeps m s0 (applyGstbN a1 a2 s)
    := by
  unfold applyGstbN
  try dsimp only
  repeat' first
    | with_reducible assumption
    | exact Within.trans (Eq.refl _) hw
    | with_reducible apply wrEff_keeps
    | with_reducible apply State.setGstb_keeps
    | with_reducible apply Keeps.ite
    | split

theorem applyPage_keeps (h : Keeps m s0 s) (hw : Within [.reg .BURNISH_STATUS_ROTATING, .reg .CSE_ALLOC_EFF_PART_EFF, .reg
    .CSE_ALLOC_EFF_PLAYERS_EFF, .reg .CSE_STATUS_BUDGET_CLAMP, .reg .EVT_PEND_PEND, .reg .EVT_RAW_RAW, .reg .OUT_STATUS_GANG_ACTIVE, .reg
    .OUT_STATUS_SPAN_BUSY, .reg .QCLK_ORIGIN_FRAC_FRAC, .reg .QCLK_ORIGIN_HI_ORIGIN_HI, .reg .QCLK_ORIGIN_LO_ORIGIN_LO, .reg
    .QCLK_QCLK_STATUS_LOCKED, .reg .QCLK_QCLK_STATUS_READY, .reg .QCLK_QCLK_STATUS_SETTLING, .reg .SPARE_ELEM_TRIM_E, .reg
    .SPARE_GO_TRIM_GAIN, .reg .SPARE_GO_TRIM_OFFSET, .reg .SPARE_LADDER_TRIM_L, .reg .SPARE_STATUS_PHASE, .reg .SPARE_STATUS_VISIT_POS,
    .eff, .presented, .clocks, .gstbs, .wheels, .cses, .outs, .tiers] m) (a1 : Commit) : Keeps m s0 (applyPage a1 s) := by
  unfold applyPage
  try dsimp only
  repeat' first
    | with_reducible assumption
    | exact Within.trans (Eq.refl _) hw
    | (intro _)
    | with_reducible apply each_keeps
    | with_reducible apply applyCse_keeps
    | with_reducible apply applyGstbN_keeps
    | with_reducible apply applyOut_keeps
    | with_reducible apply applyQclk_keeps
    | with_reducible apply Keeps.ite
    | split
    | with_reducible apply KeepsOpt.getD

theorem checkGangs_keeps (h : Keeps m s0 s) (hw : Within [.reg .EVT_PEND_PEND, .reg .EVT_RAW_RAW, .reg .OUT_STATUS_GANG_ACTIVE,
    .presented] m) (a1 : Commit) : Keeps m s0 (checkGangs a1 s) := by
  unfold checkGangs
  try dsimp only
  repeat' first
    | with_reducible assumption
    | exact Within.trans (Eq.refl _) hw
    | (intro _)
    | with_reducible apply each_keeps
    | with_reducible apply checkGang_keeps
    | with_reducible apply Keeps.ite
    | split

theorem commitApply_keeps (h : Keeps m s0 s) (hw : Within [.reg .BURNISH_STATUS_ROTATING, .reg .CSE_ALLOC_EFF_PART_EFF, .reg
    .CSE_ALLOC_EFF_PLAYERS_EFF, .reg .CSE_STATUS_BUDGET_CLAMP, .reg .EVT_PEND_PEND, .reg .EVT_RAW_RAW, .reg .OUT_STATUS_GANG_ACTIVE, .reg
    .OUT_STATUS_SPAN_BUSY, .reg .QCLK_ORIGIN_FRAC_FRAC, .reg .QCLK_ORIGIN_HI_ORIGIN_HI, .reg .QCLK_ORIGIN_LO_ORIGIN_LO, .reg
    .QCLK_QCLK_STATUS_LOCKED, .reg .QCLK_QCLK_STATUS_READY, .reg .QCLK_QCLK_STATUS_SETTLING, .reg .SHADOW_CMD_LATE, .reg
    .SHADOW_CMD_PENDING, .reg .SPARE_ELEM_TRIM_E, .reg .SPARE_GO_TRIM_GAIN, .reg .SPARE_GO_TRIM_OFFSET, .reg .SPARE_LADDER_TRIM_L, .reg
    .SPARE_STATUS_PHASE, .reg .SPARE_STATUS_VISIT_POS, .eff, .presented, .commits, .clocks, .gstbs, .wheels, .cses, .outs, .tiers] m) (a1 :
    Commit) : Keeps m s0 (commitApply a1 s) := by
  unfold commitApply
  try dsimp only
  repeat' first
    | with_reducible assumption
    | exact Within.trans (Eq.refl _) hw
    | with_reducible apply wr_keeps
    | with_reducible apply wrIf_keeps
    | with_reducible apply applyPage_keeps
    | with_reducible apply checkGangs_keeps
    | (with_reducible apply Keeps.of_fields <;>
        first | with_reducible exact rfl | with_reducible exact Or.inl rfl | exact Or.inr (Within.trans (Eq.refl _) hw) | skip)

theorem execShadowCommitApply_keeps (h : Keeps m s0 s) (hw : Within [.reg .BURNISH_STATUS_ROTATING, .reg .CSE_ALLOC_EFF_PART_EFF, .reg
    .CSE_ALLOC_EFF_PLAYERS_EFF, .reg .CSE_STATUS_BUDGET_CLAMP, .reg .EVT_PEND_PEND, .reg .EVT_RAW_RAW, .reg .OUT_STATUS_GANG_ACTIVE, .reg
    .OUT_STATUS_SPAN_BUSY, .reg .QCLK_ORIGIN_FRAC_FRAC, .reg .QCLK_ORIGIN_HI_ORIGIN_HI, .reg .QCLK_ORIGIN_LO_ORIGIN_LO, .reg
    .QCLK_QCLK_STATUS_LOCKED, .reg .QCLK_QCLK_STATUS_READY, .reg .QCLK_QCLK_STATUS_SETTLING, .reg .SHADOW_CMD_LATE, .reg
    .SHADOW_CMD_PENDING, .reg .SPARE_ELEM_TRIM_E, .reg .SPARE_GO_TRIM_GAIN, .reg .SPARE_GO_TRIM_OFFSET, .reg .SPARE_LADDER_TRIM_L, .reg
    .SPARE_STATUS_PHASE, .reg .SPARE_STATUS_VISIT_POS, .eff, .presented, .commits, .clocks, .gstbs, .wheels, .cses, .outs, .tiers] m) (a1 :
    Page) (a2 : Chan) : Ends m s0 (execShadowCommitApply a1 a2 s) := by
  unfold execShadowCommitApply
  try dsimp only
  repeat' first
    | with_reducible assumption
    | exact Within.trans (Eq.refl _) hw
    | (intro _)
    | with_reducible apply act_keeps
    | with_reducible apply commitApply_keeps
    | with_reducible apply Keeps.ite
    | with_reducible apply Ends.ite
    | with_reducible apply Ends.next
    | split

end Sys2Proof.Machine
end

