-- ==== Sys2Proof/Laws/ViewsKeeps.lean ====
section
/-! SUPPORT. What the operations of Machine/Views.lean keep: the queue, the invariant, and every part outside their footprint. -/

set_option maxRecDepth 4000
set_option linter.unusedTactic false
set_option linter.unreachableTactic false

namespace Sys2Proof.Machine

variable {m : Nat} {s0 s : State}

/-- The fields that a read clears (R8). -/
theorem Reg.rc_within {r : Reg} (h : r.info.acc = .rc) (hw : Within [.reg .BENCH_ALIAS_STAT_POISON, .reg .BENCH_ALIAS_STAT_VALID, .reg
    .BENCH_COLL_CNT_COUNT, .reg .BENCH_ECC_CNT_CE, .reg .BENCH_ECC_CNT_UE, .reg .CSE_CLIP_CNT_CLIP, .reg .CSE_DISCARD_CNT_DISCARD, .reg
    .CSE_LATE_CNT_LATE, .reg .ERR_CODE_CODE, .reg .ERR_CODE_MASTER, .reg .ERR_CODE_OVF, .reg .ERR_CODE_WORD, .reg .ERR_CODE_WRITE, .reg
    .HARNESS_LCNT_FIRED_FIRED, .reg .HARNESS_LCNT_MERGE_COINCIDENT, .reg .HARNESS_LCNT_MERGE_SUPPRESSED, .reg .HARNESS_LCNT_OVR_OVERRUN,
    .reg .I3C_FRAME_STAT_FRAME_ERR, .reg .I3C_IBI_CNT_NACKS, .reg .I3C_IBI_CNT_SENT, .reg .I3C_TUN_STAT_RETRY_CNT, .reg
    .OUT_SC_CNT_OVERTEMPS, .reg .OUT_SC_CNT_SHORTS, .reg .OUT_SQ_UCNT_COUNT, .reg .PAT_PAT_DROP_COUNT, .reg .POWER_PACE_MIN, .reg
    .POWER_RESIDENCY_MS, .reg .POWER_THERM_STAT_PEAK, .reg .QCLK_MISSED_MISSED, .reg .QPHY_CMP_ERRCNT_COUNT, .reg .QPHY_DRIFT_STAT_MAX_STEP,
    .reg .QUARRY_ECC_CNT_CE, .reg .QUARRY_ECC_CNT_UE, .reg .QUARRY_PORT_LAT_MAX_LAT, .reg .QUARRY_PORT_MISS_COUNT, .reg
    .QUARRY_RD_STAT_EVENTS, .reg .SPARE_FAIL_CNT_FAILOVERS, .reg .SPARE_FAIL_CNT_RETIRES, .reg .STITCH_EVIN_IGNORED_COUNT, .reg
    .STITCH_PUSH_CNT_COUNT, .reg .STITCH_STALL_CNT_COUNT, .reg .TACK_CNT_LINK_CORRECTED, .reg .TACK_CNT_LINK_FAILED, .reg
    .TACK_CNT_POISON_COUNT, .reg .TACK_CNT_TORN_COUNT, .reg .TACK_RING_UCNT_COUNT, .reg .TBASE_TALLY_CNT_CRC_ERR, .reg
    .TBASE_TALLY_CNT_DROPPED, .pwr] m) : Within [.reg r] m := by
  refine Within.of_test (fun p hp => ?_)
  rw [List.mem_singleton.mp hp]
  refine hw.test ?_
  revert h
  cases r <;> decide

theorem clearOnRead_keeps (h : Keeps m s0 s) (hw : Within [.reg .BENCH_ALIAS_STAT_POISON, .reg .BENCH_ALIAS_STAT_VALID, .reg
    .BENCH_COLL_CNT_COUNT, .reg .BENCH_ECC_CNT_CE, .reg .BENCH_ECC_CNT_UE, .reg .CSE_CLIP_CNT_CLIP, .reg .CSE_DISCARD_CNT_DISCARD, .reg
    .CSE_LATE_CNT_LATE, .reg .ERR_CODE_CODE, .reg .ERR_CODE_MASTER, .reg .ERR_CODE_OVF, .reg .ERR_CODE_WORD, .reg .ERR_CODE_WRITE, .reg
    .HARNESS_LCNT_FIRED_FIRED, .reg .HARNESS_LCNT_MERGE_COINCIDENT, .reg .HARNESS_LCNT_MERGE_SUPPRESSED, .reg .HARNESS_LCNT_OVR_OVERRUN,
    .reg .I3C_FRAME_STAT_FRAME_ERR, .reg .I3C_IBI_CNT_NACKS, .reg .I3C_IBI_CNT_SENT, .reg .I3C_TUN_STAT_RETRY_CNT, .reg
    .OUT_SC_CNT_OVERTEMPS, .reg .OUT_SC_CNT_SHORTS, .reg .OUT_SQ_UCNT_COUNT, .reg .PAT_PAT_DROP_COUNT, .reg .POWER_PACE_MIN, .reg
    .POWER_RESIDENCY_MS, .reg .POWER_THERM_STAT_PEAK, .reg .QCLK_MISSED_MISSED, .reg .QPHY_CMP_ERRCNT_COUNT, .reg .QPHY_DRIFT_STAT_MAX_STEP,
    .reg .QUARRY_ECC_CNT_CE, .reg .QUARRY_ECC_CNT_UE, .reg .QUARRY_PORT_LAT_MAX_LAT, .reg .QUARRY_PORT_MISS_COUNT, .reg
    .QUARRY_RD_STAT_EVENTS, .reg .SPARE_FAIL_CNT_FAILOVERS, .reg .SPARE_FAIL_CNT_RETIRES, .reg .STITCH_EVIN_IGNORED_COUNT, .reg
    .STITCH_PUSH_CNT_COUNT, .reg .STITCH_STALL_CNT_COUNT, .reg .TACK_CNT_LINK_CORRECTED, .reg .TACK_CNT_LINK_FAILED, .reg
    .TACK_CNT_POISON_COUNT, .reg .TACK_CNT_TORN_COUNT, .reg .TACK_RING_UCNT_COUNT, .reg .TBASE_TALLY_CNT_CRC_ERR, .reg
    .TBASE_TALLY_CNT_DROPPED, .pwr] m) (a1 : Page) (a2 a3 a4 : Nat) :
    Keeps m s0 (clearOnRead a1 a2 a3 a4 s) := by
  refine Keeps.ite h (each_keeps (fun x t ht => ?_) h)
  dsimp only
  split
  · rename_i hx
    have k := wr_keeps ht (Reg.rc_within hx hw) 0 a2 (x.1.homeIdx t a1 a4 x.2.1) x.2.2
    exact Keeps.ite (restart_keeps k (Within.trans (Eq.refl _) hw) _) (Keeps.ite (restart_keeps k (Within.trans (Eq.refl _) hw) _) k)
  · exact ht

theorem readWord_keeps (h : Keeps m s0 s) (hw : Within [.reg .BENCH_ALIAS_STAT_POISON, .reg .BENCH_ALIAS_STAT_VALID, .reg
    .BENCH_COLL_CNT_COUNT, .reg .BENCH_ECC_CNT_CE, .reg .BENCH_ECC_CNT_UE, .reg .CSE_CLIP_CNT_CLIP, .reg .CSE_DISCARD_CNT_DISCARD, .reg
    .CSE_LATE_CNT_LATE, .reg .ERR_CODE_CODE, .reg .ERR_CODE_MASTER, .reg .ERR_CODE_OVF, .reg .ERR_CODE_WORD, .reg .ERR_CODE_WRITE, .reg
    .HARNESS_CAPU_CFG_LEVEL, .reg .HARNESS_CAPU_TIME_HI_C_HI, .reg .HARNESS_CAPU_TIME_LO_C_LO, .reg .HARNESS_LCNT_FIRED_FIRED, .reg
    .HARNESS_LCNT_MERGE_COINCIDENT, .reg .HARNESS_LCNT_MERGE_SUPPRESSED, .reg .HARNESS_LCNT_OVR_OVERRUN, .reg .I3C_FRAME_STAT_FRAME_ERR,
    .reg .I3C_IBI_CNT_NACKS, .reg .I3C_IBI_CNT_SENT, .reg .I3C_TUN_STAT_RETRY_CNT, .reg .OUT_SC_CNT_OVERTEMPS, .reg .OUT_SC_CNT_SHORTS, .reg
    .OUT_SQ_UCNT_COUNT, .reg .PAT_PAT_DROP_COUNT, .reg .POWER_PACE_MIN, .reg .POWER_RESIDENCY_MS, .reg .POWER_THERM_STAT_PEAK, .reg
    .QCLK_MISSED_MISSED, .reg .QPHY_CMP_ERRCNT_COUNT, .reg .QPHY_DRIFT_STAT_MAX_STEP, .reg .QUARRY_ECC_CNT_CE, .reg .QUARRY_ECC_CNT_UE, .reg
    .QUARRY_PORT_LAT_MAX_LAT, .reg .QUARRY_PORT_MISS_COUNT, .reg .QUARRY_RD_STAT_EVENTS, .reg .SPARE_FAIL_CNT_FAILOVERS, .reg
    .SPARE_FAIL_CNT_RETIRES, .reg .STITCH_EVIN_IGNORED_COUNT, .reg .STITCH_PUSH_CNT_COUNT, .reg .STITCH_STALL_CNT_COUNT, .reg
    .TACK_CNT_LINK_CORRECTED, .reg .TACK_CNT_LINK_FAILED, .reg .TACK_CNT_POISON_COUNT, .reg .TACK_CNT_TORN_COUNT, .reg
    .TACK_RING_UCNT_COUNT, .reg .TBASE_TALLY_CNT_CRC_ERR, .reg .TBASE_TALLY_CNT_DROPPED, .held, .capus, .pwr] m) (a1 : Page) (a2 : Nat) (a3
    : Nat) (a4 : Nat) : Keeps m s0 (readWord a1 a2 a3 a4 s).2 := by
  unfold readWord
  try dsimp only
  repeat' first
    | with_reducible assumption
    | exact Within.trans (Eq.refl _) hw
    | with_reducible apply clearOnRead_keeps
    | with_reducible apply readCapuInfo_keeps
    | with_reducible apply Keeps.ite
    | split
    | with_reducible refine Keeps.of_snd (by assumption) ?_
    | (with_reducible apply Keeps.of_fields <;>
        first | with_reducible exact rfl | with_reducible exact Or.inl rfl | exact Or.inr (Within.trans (Eq.refl _) hw) | skip)

theorem readReg_keeps (h : Keeps m s0 s) (hw : Within [.reg .BENCH_ALIAS_STAT_POISON, .reg .BENCH_ALIAS_STAT_VALID, .reg
    .BENCH_COLL_CNT_COUNT, .reg .BENCH_ECC_CNT_CE, .reg .BENCH_ECC_CNT_UE, .reg .CSE_CLIP_CNT_CLIP, .reg .CSE_DISCARD_CNT_DISCARD, .reg
    .CSE_LATE_CNT_LATE, .reg .ERR_CODE_CODE, .reg .ERR_CODE_MASTER, .reg .ERR_CODE_OVF, .reg .ERR_CODE_WORD, .reg .ERR_CODE_WRITE, .reg
    .HARNESS_CAPU_CFG_LEVEL, .reg .HARNESS_CAPU_TIME_HI_C_HI, .reg .HARNESS_CAPU_TIME_LO_C_LO, .reg .HARNESS_LCNT_FIRED_FIRED, .reg
    .HARNESS_LCNT_MERGE_COINCIDENT, .reg .HARNESS_LCNT_MERGE_SUPPRESSED, .reg .HARNESS_LCNT_OVR_OVERRUN, .reg .I3C_FRAME_STAT_FRAME_ERR,
    .reg .I3C_IBI_CNT_NACKS, .reg .I3C_IBI_CNT_SENT, .reg .I3C_TUN_STAT_RETRY_CNT, .reg .OUT_SC_CNT_OVERTEMPS, .reg .OUT_SC_CNT_SHORTS, .reg
    .OUT_SQ_UCNT_COUNT, .reg .PAT_PAT_DROP_COUNT, .reg .POWER_PACE_MIN, .reg .POWER_RESIDENCY_MS, .reg .POWER_THERM_STAT_PEAK, .reg
    .QCLK_MISSED_MISSED, .reg .QPHY_CMP_ERRCNT_COUNT, .reg .QPHY_DRIFT_STAT_MAX_STEP, .reg .QUARRY_ECC_CNT_CE, .reg .QUARRY_ECC_CNT_UE, .reg
    .QUARRY_PORT_LAT_MAX_LAT, .reg .QUARRY_PORT_MISS_COUNT, .reg .QUARRY_RD_STAT_EVENTS, .reg .SPARE_FAIL_CNT_FAILOVERS, .reg
    .SPARE_FAIL_CNT_RETIRES, .reg .STITCH_EVIN_IGNORED_COUNT, .reg .STITCH_PUSH_CNT_COUNT, .reg .STITCH_STALL_CNT_COUNT, .reg
    .TACK_CNT_LINK_CORRECTED, .reg .TACK_CNT_LINK_FAILED, .reg .TACK_CNT_POISON_COUNT, .reg .TACK_CNT_TORN_COUNT, .reg
    .TACK_RING_UCNT_COUNT, .reg .TBASE_TALLY_CNT_CRC_ERR, .reg .TBASE_TALLY_CNT_DROPPED, .held, .capus, .pwr] m) (a1 : Nat) (a2 : Nat) :
    Keeps m s0 (readReg a1 a2 s).2 := by
  unfold readReg
  try dsimp only
  repeat' first
    | with_reducible assumption
    | exact Within.trans (Eq.refl _) hw
    | with_reducible apply readWord_keeps
    | with_reducible apply recordErr_keeps
    | with_reducible apply Keeps.ite
    | split
    | with_reducible refine Keeps.of_snd (by assumption) ?_

end Sys2Proof.Machine
end

