-- ==== Sys2Proof/Laws/HostAccessKeeps.lean ====
section
/-! SUPPORT. What the operations of Machine/HostAccess.lean keep: the queue, the invariant, and every part outside their footprint. -/

set_option maxRecDepth 4000
set_option linter.unusedTactic false
set_option linter.unreachableTactic false

namespace Sys2Proof.Machine

variable {m : Nat} {s0 s : State}

theorem clearEvents_keeps (h : Keeps m s0 s) (hw : Within [.reg .EVT_PEND_PEND, .reg .EVT_RAW_RAW] m) (a1 : Page) (a2 : Nat) (a3 : Nat)
    : Keeps m s0 (clearEvents a1 a2 a3 s) := by
  unfold clearEvents
  try dsimp only
  repeat' first
    | with_reducible assumption
    | exact Within.trans (Eq.refl _) hw
    | (intro _)
    | with_reducible apply wr_keeps
    | with_reducible apply each_keeps
    | with_reducible apply on_keeps

theorem enableEvent_keeps (h : Keeps m s0 s) (hw : Within [.reg .EVT_EN_EN, .reg .EVT_PEND_PEND, .presented] m) (a1 : Page) (a2 : Nat)
    (a3 : Nat) : Keeps m s0 (enableEvent a1 a2 a3 s) := by
  unfold enableEvent
  try dsimp only
  repeat' first
    | with_reducible assumption
    | exact Within.trans (Eq.refl _) hw
    | with_reducible apply wr_keeps
    | with_reducible apply Keeps.ite
    | split
    | (with_reducible apply Keeps.of_fields <;>
        first | with_reducible exact rfl | with_reducible exact Or.inl rfl | exact Or.inr (Within.trans (Eq.refl _) hw) | skip)

theorem writeEvtEn_keeps (h : Keeps m s0 s) (hw : Within [.reg .EVT_EN_EN, .reg .EVT_PEND_PEND, .presented] m) (a1 : Page) (a2 : Nat)
    (a3 : Nat) : Keeps m s0 (writeEvtEn a1 a2 a3 s) := by
  unfold writeEvtEn
  try dsimp only
  repeat' first
    | with_reducible assumption
    | exact Within.trans (Eq.refl _) hw
    | (intro _)
    | with_reducible apply wr_keeps
    | with_reducible apply each_keeps
    | with_reducible apply enableEvent_keeps
    | with_reducible apply Keeps.ite
    | split

theorem writeOwner_keeps (h : Keeps m s0 s) (hw : Within [.reg .ERR_CODE_CODE, .reg .ERR_CODE_MASTER, .reg .ERR_CODE_OVF, .reg
    .ERR_CODE_WORD, .reg .ERR_CODE_WRITE, .reg .OWNER_LOCK, .reg .OWNER_MASTER, .reg .OWNER_SEC] m) (a1 : Page) (a2 : Nat) (a3 : Nat) (a4 :
    Nat) : Keeps m s0 (writeOwner a1 a2 a3 a4 s) := by
  unfold writeOwner
  try dsimp only
  repeat' first
    | with_reducible assumption
    | exact Within.trans (Eq.refl _) hw
    | with_reducible apply wr_keeps
    | with_reducible apply recordErr_keeps
    | with_reducible apply Keeps.ite
    | split

theorem softReset_keeps (h : Keeps m s0 s) (hw : Whole m) (a1 : Page) (a2 : Nat) (a3 : Nat) : Keeps m s0 (softReset a1 a2 a3 s) := by
  unfold softReset
  try dsimp only
  repeat' first
    | with_reducible assumption
    | exact hw
    | exact hw.within _
    | with_reducible apply dropCommits_keeps
    | with_reducible apply recordErr_keeps
    | with_reducible apply resetCse_keeps
    | with_reducible apply resetOut_keeps
    | with_reducible apply resetStitcher_keeps
    | with_reducible apply tackReset_keeps
    | with_reducible apply warmReset_keeps
    | with_reducible apply Keeps.ite
    | split

theorem writeEnable_keeps (h : Keeps m s0 s) (hw : Within [.reg .BURNISH_STATUS_ROTATING, .reg .CSE_STATUS_RUNNING, .reg .CTRL_ENABLE,
    .reg .EVT_PEND_PEND, .reg .EVT_RAW_RAW, .reg .OUT_STATUS_FALLBACK, .reg .OUT_STATUS_SPAN_BUSY, .reg .QCLK_ORIGIN_FRAC_FRAC, .reg
    .QCLK_ORIGIN_HI_ORIGIN_HI, .reg .QCLK_ORIGIN_LO_ORIGIN_LO, .reg .QCLK_QCLK_STATUS_LOCKED, .reg .QCLK_QCLK_STATUS_READY, .reg
    .QCLK_QCLK_STATUS_STOPPED, .reg .SPARE_ELEM_TRIM_E, .reg .SPARE_GO_TRIM_GAIN, .reg .SPARE_GO_TRIM_OFFSET, .reg .SPARE_LADDER_TRIM_L,
    .reg .SPARE_STATUS_PHASE, .reg .SPARE_STATUS_VISIT_POS, .reg .STITCH_EVIN_LATCHED_LATCHED, .reg .STITCH_GANG_READY_READY, .reg
    .STITCH_STATUS_CREDIT_WAIT, .reg .STITCH_STATUS_FAULTED, .reg .STITCH_STATUS_GANG_WAIT, .reg .STITCH_STATUS_HALTED, .reg
    .STITCH_STATUS_RUNNING, .reg .STITCH_STATUS_WAIT_EVENT, .reg .STITCH_STATUS_WAIT_TIME, .eff, .presented, .clocks, .wheels, .cses,
    .stitchers, .outs, .tiers] m) (a1 : Page) (a2 : Nat) (a3 : Bool) : Keeps m s0 (writeEnable a1 a2 a3 s) := by
  unfold writeEnable
  try dsimp only
  repeat' first
    | with_reducible assumption
    | exact Within.trans (Eq.refl _) hw
    | with_reducible apply qclkStart_keeps
    | with_reducible apply qclkStop_keeps
    | with_reducible apply writeBurnishEnable_keeps
    | with_reducible apply writeCseEnable_keeps
    | with_reducible apply writeOutEnable_keeps
    | with_reducible apply writeStitchEnable_keeps
    | with_reducible apply Keeps.ite
    | split

theorem writePwrReq_keeps (h : Keeps m s0 s) (hw : Within [.reg .CSE_CUR_DESC_KIND, .reg .CSE_CUR_DESC_PRIO, .reg .CSE_CUR_DESC_SEQ,
    .reg .CSE_STATUS_IDLE, .reg .CSE_STATUS_OPEN, .reg .CSE_STATUS_RUNNING, .reg .CTRL_ENABLE, .reg .CTRL_PWR_REQ, .reg .SHADOW_CMD_PENDING,
    .reg .STITCH_EVIN_IGNORED_COUNT, .reg .STITCH_FAULT_CAUSE, .reg .STITCH_FAULT_PC, .reg .STITCH_GANG_READY_READY, .reg
    .STITCH_PUSH_CNT_COUNT, .reg .STITCH_STALL_CNT_COUNT, .reg .STITCH_STATUS_CREDIT_WAIT, .reg .STITCH_STATUS_FAULTED, .reg
    .STITCH_STATUS_GANG_WAIT, .reg .STITCH_STATUS_HALTED, .reg .STITCH_STATUS_MC_BANK, .reg .STITCH_STATUS_MC_PENDING, .reg
    .STITCH_STATUS_RUNNING, .reg .STITCH_STATUS_WAIT_EVENT, .reg .STITCH_STATUS_WAIT_TIME, .commits, .cses, .stitchers, .outs] m) (a1 :
    Page) (a2 : Nat) (a3 : Bool) : Keeps m s0 (writePwrReq a1 a2 a3 s) := by
  unfold writePwrReq
  try dsimp only
  repeat' first
    | with_reducible assumption
    | exact Within.trans (Eq.refl _) hw
    | with_reducible apply writeCsePower_keeps
    | with_reducible apply writeStitchPower_keeps
    | split

theorem writeCtrl_keeps (h : Keeps m s0 s) (hw : Whole m) (a1 : Page) (a2 : Nat) (a3 : Nat) (a4 : Nat) : Keeps m s0 (writeCtrl a1 a2 a3
    a4 s) := by
  unfold writeCtrl
  try dsimp only
  repeat' first
    | with_reducible assumption
    | exact hw
    | exact hw.within _
    | with_reducible apply softReset_keeps
    | with_reducible apply writeEnable_keeps
    | with_reducible apply writePwrReq_keeps
    | with_reducible apply Keeps.ite
    | split

theorem plainWrite_keeps (h : Keeps m s0 s) (hw : Whole m) (a1 : Page) (a2 : Nat) (a3 : Nat) (a4 : Nat) (a5 : Nat) : Keeps m s0
    (plainWrite a1 a2 a3 a4 a5 s) := by
  unfold plainWrite
  try dsimp only
  repeat' first
    | with_reducible assumption
    | exact hw
    | exact hw.within _
    | (intro _)
    | with_reducible apply wr_keeps
    | with_reducible apply each_keeps

theorem writeTbCfg_keeps (h : Keeps m s0 s) (hw : Within [.reg .ERR_CODE_CODE, .reg .ERR_CODE_MASTER, .reg .ERR_CODE_OVF, .reg
    .ERR_CODE_WORD, .reg .ERR_CODE_WRITE, .reg .EVT_PEND_PEND, .reg .EVT_RAW_RAW, .reg .TBASE_TB_CFG_EPOCH_SRC, .reg
    .TBASE_TB_CFG_HOLD_RESYNC, .reg .TBASE_TB_CFG_REF_MODE, .reg .TBASE_TB_CFG_STEP_ALLOW, .reg .TBASE_TB_CFG_TALLY_EN, .reg
    .TBASE_TB_STATUS_EPOCH_ARMED, .reg .TBASE_TB_STATUS_HOLDOVER, .reg .TBASE_TB_STATUS_PLL_LOCKED, .reg .TBASE_TB_STATUS_REF_PRESENT, .reg
    .TBASE_TB_STATUS_SLEWING, .reg .TBASE_TB_STATUS_TALLY_SYNC, .presented] m) (a1 : Nat) (a2 : Nat) : Keeps m s0 (writeTbCfg a1 a2 s) := by
  unfold writeTbCfg
  try dsimp only
  repeat' first
    | with_reducible assumption
    | exact Within.trans (Eq.refl _) hw
    | with_reducible apply wr_keeps
    | with_reducible apply checkArmedSource_keeps
    | with_reducible apply writeRefMode_keeps
    | with_reducible apply writeTallyEn_keeps

theorem writeEpochCmd_keeps (h : Keeps m s0 s) (hw : Within [.reg .ERR_CODE_CODE, .reg .ERR_CODE_MASTER, .reg .ERR_CODE_OVF, .reg
    .ERR_CODE_WORD, .reg .ERR_CODE_WRITE, .reg .TBASE_TB_STATUS_EPOCH_ARMED, .epoch] m) (a1 : Nat) (a2 : Nat) : Keeps m s0 (writeEpochCmd a1
    a2 s) := by
  unfold writeEpochCmd
  try dsimp only
  repeat' first
    | with_reducible assumption
    | exact Within.trans (Eq.refl _) hw
    | with_reducible apply wr_keeps
    | with_reducible apply epochArm_keeps
    | with_reducible apply Keeps.ite
    | split

theorem writeTbase_keeps (h : Keeps m s0 s) (hw : Within [.reg .BURNISH_CAP_CTRL_BUSY, .reg .BURNISH_CAP_CTRL_REFUSED, .reg
    .ERR_CODE_CODE, .reg .ERR_CODE_MASTER, .reg .ERR_CODE_OVF, .reg .ERR_CODE_WORD, .reg .ERR_CODE_WRITE, .reg .EVT_PEND_PEND, .reg
    .EVT_RAW_RAW, .reg .QCLK_QCLK_CFG_ALIGN_ARM, .reg .QUARRY_STATUS_OP_PENDING, .reg .SHADOW_CMD_PENDING, .reg .SHADOW_CMD_REFUSED, .reg
    .STITCH_FAULT_CAUSE, .reg .STITCH_FAULT_PC, .reg .STITCH_GANG_READY_READY, .reg .STITCH_LC_GRANT, .reg .STITCH_STATUS_CREDIT_WAIT, .reg
    .STITCH_STATUS_FAULTED, .reg .STITCH_STATUS_GANG_WAIT, .reg .STITCH_STATUS_RUNNING, .reg .STITCH_STATUS_WAIT_EVENT, .reg
    .STITCH_STATUS_WAIT_TIME, .reg .TBASE_GSTB_CFG_ALIGN_ARM, .reg .TBASE_GSTB_CFG_ALIGN_LC, .reg .TBASE_GSTB_CFG_MODE, .reg
    .TBASE_GSTB_CFG_SINGLE_LC, .reg .TBASE_GSTB_STAT_PENDING, .reg .TBASE_LC_CTRL_ARM, .reg .TBASE_LC_CTRL_CLAIMED, .reg
    .TBASE_LC_CTRL_FRAC, .reg .TBASE_LC_CTRL_OWNER, .reg .TBASE_LC_CTRL_PERIODIC, .reg .TBASE_LC_CTRL_SRC_TALLY, .reg .TBASE_LC_CTRL_TAG,
    .reg .TBASE_LC_LATE, .reg .TBASE_LC_PERIOD_PERIOD, .reg .TBASE_LC_TIME_HI_C_HI, .reg .TBASE_LC_TIME_LO_C_LO, .reg
    .TBASE_TB_CFG_EPOCH_SRC, .reg .TBASE_TB_CFG_HOLD_RESYNC, .reg .TBASE_TB_CFG_REF_MODE, .reg .TBASE_TB_CFG_STEP_ALLOW, .reg
    .TBASE_TB_CFG_TALLY_EN, .reg .TBASE_TB_STATUS_EPOCH_ARMED, .reg .TBASE_TB_STATUS_HOLDOVER, .reg .TBASE_TB_STATUS_PLL_LOCKED, .reg
    .TBASE_TB_STATUS_REF_PRESENT, .reg .TBASE_TB_STATUS_SLEWING, .reg .TBASE_TB_STATUS_TALLY_SYNC, .presented, .commits, .epoch, .lcs,
    .lcGen, .gstbs, .cses, .stitchers, .outs, .lines, .qry, .tiers] m) (a1 : Nat) (a2 : Nat) (a3 : Nat) : KeepsOpt m s0 (writeTbase a1 a2 a3
    s) := by
  unfold writeTbase
  try dsimp only
  repeat' first
    | with_reducible assumption
    | exact Within.trans (Eq.refl _) hw
    | with_reducible apply writeEpochCmd_keeps
    | with_reducible apply writeGstbCfg_keeps
    | with_reducible apply writeLcCtrl_keeps
    | with_reducible apply writeLcTime_keeps
    | with_reducible apply writeTbCfg_keeps
    | with_reducible apply Keeps.ite
    | with_reducible apply KeepsOpt.ite
    | with_reducible apply KeepsOpt.none
    | with_reducible apply KeepsOpt.some
    | split

theorem writeQclkCfg_keeps (h : Keeps m s0 s) (hw : Within [.reg .ERR_CODE_CODE, .reg .ERR_CODE_MASTER, .reg .ERR_CODE_OVF, .reg
    .ERR_CODE_WORD, .reg .ERR_CODE_WRITE, .reg .QCLK_QCLK_CFG_ALIGN_ARM, .reg .QCLK_QCLK_CFG_ALIGN_LC, .reg .QCLK_QCLK_CFG_IF_LOG2, .reg
    .QCLK_QCLK_CFG_USE_SPARE, .clocks] m) (a1 : Nat) (a2 : Nat) (a3 : Nat) : Keeps m s0 (writeQclkCfg a1 a2 a3 s) := by
  unfold writeQclkCfg
  try dsimp only
  repeat' first
    | with_reducible assumption
    | exact Within.trans (Eq.refl _) hw
    | with_reducible apply wr_keeps
    | with_reducible apply recordErr_keeps
    | with_reducible apply useSpareClear_keeps
    | with_reducible apply useSpareSet_keeps
    | with_reducible apply Keeps.ite
    | split

theorem writeQclk_keeps (h : Keeps m s0 s) (hw : Within [.reg .ERR_CODE_CODE, .reg .ERR_CODE_MASTER, .reg .ERR_CODE_OVF, .reg
    .ERR_CODE_WORD, .reg .ERR_CODE_WRITE, .reg .QCLK_COVER_QUAD, .reg .QCLK_COVER_VALID, .reg .QCLK_ORIGIN_FRAC_FRAC, .reg
    .QCLK_ORIGIN_HI_ORIGIN_HI, .reg .QCLK_ORIGIN_LO_ORIGIN_LO, .reg .QCLK_QCLK_CFG_ALIGN_ARM, .reg .QCLK_QCLK_CFG_ALIGN_LC, .reg
    .QCLK_QCLK_CFG_IF_LOG2, .reg .QCLK_QCLK_CFG_USE_SPARE, .reg .QCLK_QCLK_STATUS_LOCKED, .reg .QCLK_QCLK_STATUS_READY, .reg
    .QCLK_QCLK_STATUS_STOPPED, .eff, .clocks] m) (a1 : Nat) (a2 : Nat) (a3 : Nat) (a4 : Nat) : KeepsOpt m s0 (writeQclk a1 a2 a3 a4 s) := by
  unfold writeQclk
  try dsimp only
  repeat' first
    | with_reducible assumption
    | exact Within.trans (Eq.refl _) hw
    | with_reducible apply writeCover_keeps
    | with_reducible apply writeQclkCfg_keeps
    | with_reducible apply Keeps.ite
    | with_reducible apply KeepsOpt.ite
    | with_reducible apply KeepsOpt.none
    | with_reducible apply KeepsOpt.some
    | split

theorem writeStitch_keeps (h : Keeps m s0 s) (hw : Within [.reg .ERR_CODE_CODE, .reg .ERR_CODE_MASTER, .reg .ERR_CODE_OVF, .reg
    .ERR_CODE_WORD, .reg .ERR_CODE_WRITE, .reg .STITCH_EVIN_LATCHED_LATCHED, .reg .STITCH_LC_GRANT, .reg .STITCH_STATUS_MC_PENDING,
    .stitchers] m) (a1 : Nat) (a2 : Nat) (a3 : Nat) (a4 : Nat) : KeepsOpt m s0 (writeStitch a1 a2 a3 a4 s) := by
  unfold writeStitch
  try dsimp only
  repeat' first
    | with_reducible assumption
    | exact Within.trans (Eq.refl _) hw
    | with_reducible apply clearLatches_keeps
    | with_reducible apply writeLcGrant_keeps
    | with_reducible apply writeMcCtrl_keeps
    | with_reducible apply Keeps.ite
    | with_reducible apply KeepsOpt.ite
    | with_reducible apply KeepsOpt.none
    | with_reducible apply KeepsOpt.some
    | split

theorem writePushSel_keeps (h : Keeps m s0 s) (hw : Within [.reg .TACK_PUSH_SEL_CH, .reg .TACK_PUSH_STAT_DISCARDING, .reg
    .TACK_PUSH_STAT_OPEN, .reg .TACK_PUSH_STAT_WORDS_LEFT, .reg .TACK_QLEVEL_FLUSH_BUSY, .staging] m) (a1 : Nat) (a2 : Nat) : Keeps m s0
    (writePushSel a1 a2 s) := by
  unfold writePushSel
  try dsimp only
  repeat' first
    | with_reducible assumption
    | exact Within.trans (Eq.refl _) hw
    | with_reducible apply wr_keeps
    | with_reducible apply pushAbort_keeps
    | with_reducible apply Keeps.ite
    | split

theorem writeTack_keeps (h : Keeps m s0 s) (hw : Within [.reg .ERR_CODE_CODE, .reg .ERR_CODE_MASTER, .reg .ERR_CODE_OVF, .reg
    .ERR_CODE_WORD, .reg .ERR_CODE_WRITE, .reg .EVT_PEND_PEND, .reg .EVT_RAW_RAW, .reg .TACK_PUSH_SEL_CH, .reg .TACK_PUSH_STAT_DISCARDING,
    .reg .TACK_PUSH_STAT_LAST_SEQ, .reg .TACK_PUSH_STAT_OPEN, .reg .TACK_PUSH_STAT_REFUSED, .reg .TACK_PUSH_STAT_WORDS_LEFT, .reg
    .TACK_QCFG_CRED_REG, .reg .TACK_QCFG_CRED_STITCH, .reg .TACK_QCFG_FMODE, .reg .TACK_QLEVEL_FLUSH_BUSY, .reg .TACK_RING_CFG_EN, .reg
    .TACK_RING_CFG_SIZE_LOG, .reg .TACK_RING_CFG_SPLIT, .presented, .cses, .stitchers, .queues, .staging, .rings] m) (a1 : Nat) (a2 : Nat)
    (a3 : Nat) : KeepsOpt m s0 (writeTack a1 a2 a3 s) := by
  unfold writeTack
  try dsimp only
  repeat' first
    | with_reducible assumption
    | exact Within.trans (Eq.refl _) hw
    | (intro _)
    | with_reducible apply pushMaster_keeps
    | with_reducible apply pushWord_keeps
    | with_reducible apply writePushSel_keeps
    | with_reducible apply writeQCmd_keeps
    | with_reducible apply writeQcfg_keeps
    | with_reducible apply writeRingCfg_keeps
    | with_reducible apply Keeps.ite
    | with_reducible apply KeepsOpt.ite
    | with_reducible apply KeepsOpt.none
    | with_reducible apply KeepsOpt.some
    | split

theorem writeFaultCtl_keeps (h : Keeps m s0 s) (hw : Within [.reg .OUT_FAULT_CTL_FORCE, .reg .OUT_FAULT_CTL_WD_EN, .reg
    .OUT_FAULT_STAT_FORCED, .reg .OUT_FAULT_STAT_SQ_UNDERRUN, .reg .OUT_FAULT_STAT_WATCHDOG, .outs] m) (a1 : Nat) (a2 : Nat) : Keeps m s0
    (writeFaultCtl a1 a2 s) := by
  unfold writeFaultCtl
  try dsimp only
  repeat' first
    | with_reducible assumption
    | exact Within.trans (Eq.refl _) hw
    | with_reducible apply wr_keeps
    | with_reducible apply clearFaults_keeps
    | with_reducible apply writeForce_keeps
    | with_reducible apply Keeps.ite
    | split

theorem writeOut_keeps (h : Keeps m s0 s) (hw : Within [.reg .ERR_CODE_CODE, .reg .ERR_CODE_MASTER, .reg .ERR_CODE_OVF, .reg
    .ERR_CODE_WORD, .reg .ERR_CODE_WRITE, .reg .EVT_PEND_PEND, .reg .EVT_RAW_RAW, .reg .OUT_FAULT_CTL_FORCE, .reg .OUT_FAULT_CTL_WD_EN, .reg
    .OUT_FAULT_STAT_FORCED, .reg .OUT_FAULT_STAT_SQ_UNDERRUN, .reg .OUT_FAULT_STAT_WATCHDOG, .reg .OUT_NVM_STAT_BUSY, .reg
    .OUT_NVM_STAT_ERR, .reg .OUT_NV_FAULT_VAL, .reg .OUT_NV_SAFE_VAL, .reg .OUT_NV_WAKE_SPAN, .reg .OUT_NV_WAKE_VAL, .reg
    .OUT_PROTCFG_AUTO_RETRY, .reg .OUT_STAGECTL_AUTO_LOCAL, .reg .OUT_STAGECTL_AUTO_SWITCH, .reg .OUT_STAGECTL_PREFER, .reg
    .OUT_STAGECTL_SENSE_MODE, .reg .OUT_STAGE_STAT_REQ_REFUSED, .reg .OUT_STATUS_SENSE_LOCAL, .presented, .outs, .nvmQueue] m) (a1 : Nat)
    (a2 : Nat) (a3 : Nat) (a4 : Nat) : KeepsOpt m s0 (writeOut a1 a2 a3 a4 s) := by
  unfold writeOut
  try dsimp only
  repeat' first
    | with_reducible assumption
    | exact Within.trans (Eq.refl _) hw
    | with_reducible apply writeFaultCtl_keeps
    | with_reducible apply writeNvValue_keeps
    | with_reducible apply writeNvmCmd_keeps
    | with_reducible apply writeProtCfg_keeps
    | with_reducible apply writeStageCtl_keeps
    | with_reducible apply Keeps.ite
    | with_reducible apply KeepsOpt.ite
    | with_reducible apply KeepsOpt.none
    | with_reducible apply KeepsOpt.some
    | split

theorem writeHarness_keeps (h : Keeps m s0 s) (hw : Within [.reg .ERR_CODE_CODE, .reg .ERR_CODE_MASTER, .reg .ERR_CODE_OVF, .reg
    .ERR_CODE_WORD, .reg .ERR_CODE_WRITE, .reg .EVT_PEND_PEND, .reg .EVT_RAW_RAW, .reg .HARNESS_CAPU_CFG_CLAIMED, .reg
    .HARNESS_CAPU_CFG_LEVEL, .reg .HARNESS_CAPU_CFG_OVR, .reg .HARNESS_CAPU_CFG_OWNER, .reg .HARNESS_GSTB_OVR_OVR, .reg
    .HARNESS_LCNT_OVR_OVERRUN, .reg .HARNESS_LINE_CFG_CLAIMED, .reg .HARNESS_LINE_CFG_DST, .reg .HARNESS_LINE_CFG_EN, .reg
    .HARNESS_LINE_CFG_OWNER, .reg .HARNESS_LINE_CFG_REARM, .reg .HARNESS_LINE_CFG_SEC, .reg .HARNESS_LINE_CFG_SPROF, .reg
    .HARNESS_LINE_CFG_SVC, .reg .HARNESS_LINE_SRC_SLOT, .reg .HARNESS_LINE_STAT_PENDING, .reg .HARNESS_LINE_STAT_STORM, .reg
    .HARNESS_SOVR_OVR, .reg .HARNESS_SVC_CTL_FORCE_HOLD, .reg .PAT_PAT_OVR_OVR, .reg .PAT_PIN_CFG_CH, .reg .PAT_PIN_CFG_CLAIMED, .reg
    .PAT_PIN_CFG_DRIVE, .reg .PAT_PIN_CFG_EDGE, .reg .PAT_PIN_CFG_FILT, .reg .PAT_PIN_CFG_FUNC, .reg .PAT_PIN_CFG_GSTB, .reg
    .PAT_PIN_CFG_INVERT, .reg .PAT_PIN_CFG_ODRAIN, .reg .PAT_PIN_CFG_OMODE, .reg .PAT_PIN_CFG_OWNER, .reg .PAT_PIN_PULSE_PULSE, .presented,
    .lines, .pins, .capus] m) (a1 : Nat) (a2 : Nat) (a3 : Nat) : KeepsOpt m s0 (writeHarness a1 a2 a3 s) := by
  unfold writeHarness
  try dsimp only
  repeat' first
    | with_reducible assumption
    | exact Within.trans (Eq.refl _) hw
    | with_reducible apply hostTrig_keeps
    | with_reducible apply writeCapuCfg_keeps
    | with_reducible apply writeLineCfg_keeps
    | with_reducible apply writeLineSrc_keeps
    | with_reducible apply writeLineStat_keeps
    | with_reducible apply writeSvcCtl_keeps
    | with_reducible apply Keeps.ite
    | with_reducible apply KeepsOpt.ite
    | with_reducible apply KeepsOpt.none
    | with_reducible apply KeepsOpt.some
    | split

theorem writePat_keeps (h : Keeps m s0 s) (hw : Within [.reg .ERR_CODE_CODE, .reg .ERR_CODE_MASTER, .reg .ERR_CODE_OVF, .reg
    .ERR_CODE_WORD, .reg .ERR_CODE_WRITE, .reg .PAT_PIN_CFG_CH, .reg .PAT_PIN_CFG_CLAIMED, .reg .PAT_PIN_CFG_DRIVE, .reg .PAT_PIN_CFG_EDGE,
    .reg .PAT_PIN_CFG_FILT, .reg .PAT_PIN_CFG_FUNC, .reg .PAT_PIN_CFG_GSTB, .reg .PAT_PIN_CFG_INVERT, .reg .PAT_PIN_CFG_ODRAIN, .reg
    .PAT_PIN_CFG_OMODE, .reg .PAT_PIN_CFG_OWNER, .reg .PAT_PIN_PULSE_PULSE, .pins] m) (a1 : Nat) (a2 : Nat) (a3 : Nat) : KeepsOpt m s0
    (writePat a1 a2 a3 s) := by
  unfold writePat
  try dsimp only
  repeat' first
    | with_reducible assumption
    | exact Within.trans (Eq.refl _) hw
    | with_reducible apply writePinCfg_keeps
    | with_reducible apply writePinPulse_keeps
    | with_reducible apply KeepsOpt.ite
    | with_reducible apply KeepsOpt.none
    | with_reducible apply KeepsOpt.some
    | split

theorem writeBurnish_keeps (h : Keeps m s0 s) (hw : Within [.reg .BURNISH_CAP_CTRL_AT_LC, .reg .BURNISH_CAP_CTRL_BUSY, .reg
    .BURNISH_CAP_CTRL_CAP_LC, .reg .BURNISH_CAP_CTRL_CAP_SRC, .reg .BURNISH_CAP_CTRL_REFUSED, .reg .BURNISH_CAP_DONE_COUNT, .reg
    .BURNISH_STATUS_CAPTURING, .reg .BURNISH_STATUS_NVM_SAVING, .reg .BURNISH_STATUS_ROTATING, .reg .ERR_CODE_CODE, .reg .ERR_CODE_MASTER,
    .reg .ERR_CODE_OVF, .reg .ERR_CODE_WORD, .reg .ERR_CODE_WRITE, .reg .SPARE_ELEM_TRIM_E, .reg .SPARE_GO_TRIM_GAIN, .reg
    .SPARE_GO_TRIM_OFFSET, .reg .SPARE_LADDER_TRIM_L, .reg .SPARE_STATUS_PHASE, .reg .SPARE_STATUS_VISIT_POS, .tiers, .trimDue] m) (a1 :
    Nat) (a2 : Nat) (a3 : Nat) : KeepsOpt m s0 (writeBurnish a1 a2 a3 s) := by
  unfold writeBurnish
  try dsimp only
  repeat' first
    | with_reducible assumption
    | exact Within.trans (Eq.refl _) hw
    | with_reducible apply saveNow_keeps
    | with_reducible apply writeCapCtrl_keeps
    | with_reducible apply Keeps.ite
    | with_reducible apply KeepsOpt.ite
    | with_reducible apply KeepsOpt.none
    | with_reducible apply KeepsOpt.some
    | split

theorem writeSpare_keeps (h : Keeps m s0 s) (hw : Within [.reg .BURNISH_STATUS_ROTATING, .reg .ERR_CODE_CODE, .reg .ERR_CODE_MASTER,
    .reg .ERR_CODE_OVF, .reg .ERR_CODE_WORD, .reg .ERR_CODE_WRITE, .reg .OUT_FAULT_STAT_CORE_LOST, .reg .OUT_STATUS_FALLBACK, .reg
    .POWER_STATUS_ENTERING, .reg .POWER_STATUS_EXITING, .reg .POWER_WAKE_STAT_CLASS, .reg .POWER_WAKE_STAT_FROM, .reg .SPARE_ELEM_TRIM_E,
    .reg .SPARE_GO_TRIM_GAIN, .reg .SPARE_GO_TRIM_OFFSET, .reg .SPARE_LADDER_TRIM_L, .reg .SPARE_STATUS_FAILOVER_BUSY, .reg
    .SPARE_STATUS_PHASE, .reg .SPARE_STATUS_VISIT_POS, .outs, .pwr, .tiers] m) (a1 : Nat) (a2 : Nat) (a3 : Nat) (a4 : Nat) : KeepsOpt m s0
    (writeSpare a1 a2 a3 a4 s) := by
  unfold writeSpare
  try dsimp only
  repeat' first
    | with_reducible assumption
    | exact Within.trans (Eq.refl _) hw
    | with_reducible apply hostFailover_keeps
    | with_reducible apply visitRequest_keeps
    | with_reducible apply Keeps.ite
    | with_reducible apply KeepsOpt.ite
    | with_reducible apply KeepsOpt.none
    | with_reducible apply KeepsOpt.some
    | split

theorem writeQuarry_keeps (h : Keeps m s0 s) (hw : Within [.reg .ERR_CODE_CODE, .reg .ERR_CODE_MASTER, .reg .ERR_CODE_OVF, .reg
    .ERR_CODE_WORD, .reg .ERR_CODE_WRITE, .reg .EVT_PEND_PEND, .reg .EVT_RAW_RAW, .reg .QUARRY_CAPACITY_N_ACTIVE, .reg
    .QUARRY_CAPACITY_WAVE_GIB, .reg .QUARRY_GEN_GEN, .reg .QUARRY_INIT_PROG_PERCENT, .reg .QUARRY_LRMAP_MAP, .reg .QUARRY_LRMAP_SPARE, .reg
    .QUARRY_MIG_CTL_RATE, .reg .QUARRY_MIG_PTR_CAUSE, .reg .QUARRY_MIG_PTR_LGRANK, .reg .QUARRY_MIG_PTR_UNIT, .reg .QUARRY_OPCTL_ABORT_MAX,
    .reg .QUARRY_OPCTL_AT_LC, .reg .QUARRY_OPCTL_LC, .reg .QUARRY_OPCTL_TARGET, .reg .QUARRY_OP_STAT_ABORTS, .reg .QUARRY_OP_STAT_FORCED,
    .reg .QUARRY_PORT_STAT_OUTSTANDING, .reg .QUARRY_PORT_STAT_URG, .reg .QUARRY_RANK_STATE_STATE, .reg .QUARRY_STATUS_DEGRADED, .reg
    .QUARRY_STATUS_INIT_DONE, .reg .QUARRY_STATUS_MIGRATING, .reg .QUARRY_STATUS_OP_PENDING, .reg .QUARRY_STATUS_RESHAPING, .presented,
    .mem, .qry] m) (a1 : Nat) (a2 : Nat) (a3 : Nat) : KeepsOpt m s0 (writeQuarry a1 a2 a3 s) := by
  unfold writeQuarry
  try dsimp only
  repeat' first
    | with_reducible assumption
    | exact Within.trans (Eq.refl _) hw
    | with_reducible apply writeMigCtl_keeps
    | with_reducible apply writeOpctl_keeps
    | with_reducible apply writeReshape_keeps
    | with_reducible apply Keeps.ite
    | with_reducible apply KeepsOpt.ite
    | with_reducible apply KeepsOpt.none
    | with_reducible apply KeepsOpt.some
    | split

theorem writeQphy_keeps (h : Keeps m s0 s) (hw : Within [.reg .ERR_CODE_CODE, .reg .ERR_CODE_MASTER, .reg .ERR_CODE_OVF, .reg
    .ERR_CODE_WORD, .reg .ERR_CODE_WRITE, .reg .QPHY_CMP_STAT_BUSY, .reg .QPHY_CMP_STAT_DONE, .reg .QPHY_STATUS_TRAINING, .reg
    .QPHY_TRN_CTL_MODE, .reg .QPHY_TSET_CTL_A_OP, .reg .QPHY_TSET_CTL_A_VALID, .reg .QPHY_TSET_CTL_B_OP, .reg .QPHY_TSET_CTL_B_VALID, .qry]
    m) (a1 : Nat) (a2 : Nat) (a3 : Nat) : KeepsOpt m s0 (writeQphy a1 a2 a3 s) := by
  unfold writeQphy
  try dsimp only
  repeat' first
    | with_reducible assumption
    | exact Within.trans (Eq.refl _) hw
    | with_reducible apply writeDly_keeps
    | with_reducible apply writeTrnCtl_keeps
    | with_reducible apply writeTset_keeps
    | with_reducible apply Keeps.ite
    | with_reducible apply KeepsOpt.ite
    | with_reducible apply KeepsOpt.none
    | with_reducible apply KeepsOpt.some
    | split

theorem writeBench_keeps (h : Keeps m s0 s) (hw : Within [.reg .BENCH_BIST_CTL_AUTO_REPLACE, .reg .BENCH_BIST_CTL_BENCH, .reg
    .BENCH_BIST_PTR_OFFSET, .reg .BENCH_BIST_STAT_FAIL, .reg .BENCH_BIST_STAT_FAIL_WORDS, .reg .BENCH_BIST_STAT_PASS, .reg
    .BENCH_BIST_STAT_PHASE, .reg .BENCH_BPWR_CFG_MODE, .reg .BENCH_BPWR_STAT_STATE, .reg .BENCH_STATUS_BIST_BUSY, .reg
    .BENCH_STATUS_REPLACING, .reg .BENCH_STATUS_SPARE_FREE, .reg .ERR_CODE_CODE, .reg .ERR_CODE_MASTER, .reg .ERR_CODE_OVF, .reg
    .ERR_CODE_WORD, .reg .ERR_CODE_WRITE, .mem, .poison, .ben, .missed] m) (a1 : Nat) (a2 : Nat) (a3 : Nat) : KeepsOpt m s0 (writeBench a1
    a2 a3 s) := by
  unfold writeBench
  try dsimp only
  repeat' first
    | with_reducible assumption
    | exact Within.trans (Eq.refl _) hw
    | with_reducible apply writeBistCtl_keeps
    | with_reducible apply writeBpwr_keeps
    | with_reducible apply Keeps.ite
    | with_reducible apply KeepsOpt.ite
    | with_reducible apply KeepsOpt.none
    | with_reducible apply KeepsOpt.some
    | split

theorem writeI3c_keeps (h : Keeps m s0 s) (hw : Within [.reg .ERR_CODE_CODE, .reg .ERR_CODE_MASTER, .reg .ERR_CODE_OVF, .reg
    .ERR_CODE_WORD, .reg .ERR_CODE_WRITE, .reg .EVT_PEND_PEND, .reg .EVT_RAW_RAW, .reg .I3C_LINK_CFG_ALERT_EN, .reg
    .I3C_LINK_CFG_ALLOW_DEV_RESET, .reg .I3C_LINK_CFG_EN, .reg .I3C_LINK_CFG_WD, .reg .I3C_STATUS_HEALTHY, .reg .I3C_STATUS_SECURE,
    .presented, .ports] m) (a1 : Nat) (a2 : Nat) (a3 : Nat) (a4 : Nat) : KeepsOpt m s0 (writeI3c a1 a2 a3 a4 s) := by
  unfold writeI3c
  try dsimp only
  repeat' first
    | with_reducible assumption
    | exact Within.trans (Eq.refl _) hw
    | with_reducible apply writeLinkCfg_keeps
    | with_reducible apply writeLinkCtl_keeps
    | with_reducible apply Keeps.ite
    | with_reducible apply KeepsOpt.ite
    | with_reducible apply KeepsOpt.none
    | with_reducible apply KeepsOpt.some
    | split

theorem specialWrite_keeps (h : Keeps m s0 s) (hw : Within [.reg .BENCH_ALIAS_LAST_PRIOR, .reg .BENCH_ALIAS_STAT_POISON, .reg
    .BENCH_ALIAS_STAT_VALID, .reg .BENCH_BENCH_HEALTH_HEALTH, .reg .BENCH_BIST_CTL_AUTO_REPLACE, .reg .BENCH_BIST_CTL_BENCH, .reg
    .BENCH_BIST_PTR_OFFSET, .reg .BENCH_BIST_STAT_FAIL, .reg .BENCH_BIST_STAT_FAIL_WORDS, .reg .BENCH_BIST_STAT_PASS, .reg
    .BENCH_BIST_STAT_PHASE, .reg .BENCH_BPWR_CFG_MODE, .reg .BENCH_BPWR_STAT_STATE, .reg .BENCH_COLL_CNT_COUNT, .reg
    .BENCH_COLL_STAT_STREAMER, .reg .BENCH_ECC_CNT_CE, .reg .BENCH_ECC_CNT_UE, .reg .BENCH_STATUS_BIST_BUSY, .reg .BENCH_STATUS_REPLACING,
    .reg .BENCH_STATUS_SPARE_FREE, .reg .BENCH_UE_ADDR_IN_SPARE, .reg .BENCH_UE_ADDR_OFFSET, .reg .BURNISH_CAP_CTRL_AT_LC, .reg
    .BURNISH_CAP_CTRL_BUSY, .reg .BURNISH_CAP_CTRL_CAP_LC, .reg .BURNISH_CAP_CTRL_CAP_SRC, .reg .BURNISH_CAP_CTRL_REFUSED, .reg
    .BURNISH_CAP_DONE_COUNT, .reg .BURNISH_STATUS_CAPTURING, .reg .BURNISH_STATUS_NVM_SAVING, .reg .BURNISH_STATUS_ROTATING, .reg
    .CSE_ALLOC_EFF_PART_EFF, .reg .CSE_ALLOC_EFF_PLAYERS_EFF, .reg .CSE_ALLOC_PART_MAX, .reg .CSE_ALLOC_PLAYERS, .reg
    .CSE_STATUS_BUDGET_CLAMP, .reg .ERR_CODE_CODE, .reg .ERR_CODE_MASTER, .reg .ERR_CODE_OVF, .reg .ERR_CODE_WORD, .reg .ERR_CODE_WRITE,
    .reg .EVT_PEND_PEND, .reg .EVT_RAW_RAW, .reg .HARNESS_CAPU_CFG_CLAIMED, .reg .HARNESS_CAPU_CFG_LEVEL, .reg .HARNESS_CAPU_CFG_OVR, .reg
    .HARNESS_CAPU_CFG_OWNER, .reg .HARNESS_GSTB_OVR_OVR, .reg .HARNESS_LCNT_OVR_OVERRUN, .reg .HARNESS_LINE_CFG_CLAIMED, .reg
    .HARNESS_LINE_CFG_DST, .reg .HARNESS_LINE_CFG_EN, .reg .HARNESS_LINE_CFG_OWNER, .reg .HARNESS_LINE_CFG_REARM, .reg
    .HARNESS_LINE_CFG_SEC, .reg .HARNESS_LINE_CFG_SPROF, .reg .HARNESS_LINE_CFG_SVC, .reg .HARNESS_LINE_SRC_SLOT, .reg
    .HARNESS_LINE_STAT_PENDING, .reg .HARNESS_LINE_STAT_STORM, .reg .HARNESS_SOVR_OVR, .reg .HARNESS_SVC_CTL_FORCE_HOLD, .reg
    .I3C_LINK_CFG_ALERT_EN, .reg .I3C_LINK_CFG_ALLOW_DEV_RESET, .reg .I3C_LINK_CFG_EN, .reg .I3C_LINK_CFG_WD, .reg .I3C_STATUS_HEALTHY, .reg
    .I3C_STATUS_SECURE, .reg .OUT_FAULT_CTL_FORCE, .reg .OUT_FAULT_CTL_WD_EN, .reg .OUT_FAULT_STAT_CORE_LOST, .reg .OUT_FAULT_STAT_FORCED,
    .reg .OUT_FAULT_STAT_SQ_UNDERRUN, .reg .OUT_FAULT_STAT_WATCHDOG, .reg .OUT_NVM_STAT_BUSY, .reg .OUT_NVM_STAT_ERR, .reg
    .OUT_NV_FAULT_VAL, .reg .OUT_NV_SAFE_VAL, .reg .OUT_NV_WAKE_SPAN, .reg .OUT_NV_WAKE_VAL, .reg .OUT_PROTCFG_AUTO_RETRY, .reg
    .OUT_STAGECTL_AUTO_LOCAL, .reg .OUT_STAGECTL_AUTO_SWITCH, .reg .OUT_STAGECTL_PREFER, .reg .OUT_STAGECTL_SENSE_MODE, .reg
    .OUT_STAGE_STAT_REQ_REFUSED, .reg .OUT_STATUS_FALLBACK, .reg .OUT_STATUS_SENSE_LOCAL, .reg .PAT_PAT_OVR_OVR, .reg .PAT_PIN_CFG_CH, .reg
    .PAT_PIN_CFG_CLAIMED, .reg .PAT_PIN_CFG_DRIVE, .reg .PAT_PIN_CFG_EDGE, .reg .PAT_PIN_CFG_FILT, .reg .PAT_PIN_CFG_FUNC, .reg
    .PAT_PIN_CFG_GSTB, .reg .PAT_PIN_CFG_INVERT, .reg .PAT_PIN_CFG_ODRAIN, .reg .PAT_PIN_CFG_OMODE, .reg .PAT_PIN_CFG_OWNER, .reg
    .PAT_PIN_PULSE_PULSE, .reg .POWER_STATUS_ENTERING, .reg .POWER_STATUS_EXITING, .reg .POWER_THERM_CFG_CRIT_ACT, .reg
    .POWER_THERM_CFG_TCRIT, .reg .POWER_THERM_CFG_TLIM, .reg .POWER_THERM_CFG_TWARN, .reg .POWER_WAKE_STAT_CLASS, .reg
    .POWER_WAKE_STAT_FROM, .reg .QCLK_COVER_QUAD, .reg .QCLK_COVER_VALID, .reg .QCLK_ORIGIN_FRAC_FRAC, .reg .QCLK_ORIGIN_HI_ORIGIN_HI, .reg
    .QCLK_ORIGIN_LO_ORIGIN_LO, .reg .QCLK_QCLK_CFG_ALIGN_ARM, .reg .QCLK_QCLK_CFG_ALIGN_LC, .reg .QCLK_QCLK_CFG_IF_LOG2, .reg
    .QCLK_QCLK_CFG_USE_SPARE, .reg .QCLK_QCLK_STATUS_LOCKED, .reg .QCLK_QCLK_STATUS_READY, .reg .QCLK_QCLK_STATUS_STOPPED, .reg
    .QPHY_CMP_STAT_BUSY, .reg .QPHY_CMP_STAT_DONE, .reg .QPHY_STATUS_TRAINING, .reg .QPHY_TRN_CTL_MODE, .reg .QPHY_TSET_CTL_A_OP, .reg
    .QPHY_TSET_CTL_A_VALID, .reg .QPHY_TSET_CTL_B_OP, .reg .QPHY_TSET_CTL_B_VALID, .reg .QUARRY_CAPACITY_N_ACTIVE, .reg
    .QUARRY_CAPACITY_WAVE_GIB, .reg .QUARRY_ECC_CNT_CE, .reg .QUARRY_ECC_CNT_UE, .reg .QUARRY_GEN_GEN, .reg .QUARRY_INIT_PROG_PERCENT, .reg
    .QUARRY_LRMAP_MAP, .reg .QUARRY_LRMAP_SPARE, .reg .QUARRY_MIG_CTL_RATE, .reg .QUARRY_MIG_PTR_CAUSE, .reg .QUARRY_MIG_PTR_LGRANK, .reg
    .QUARRY_MIG_PTR_UNIT, .reg .QUARRY_OPCTL_ABORT_MAX, .reg .QUARRY_OPCTL_AT_LC, .reg .QUARRY_OPCTL_LC, .reg .QUARRY_OPCTL_TARGET, .reg
    .QUARRY_OP_STAT_ABORTS, .reg .QUARRY_OP_STAT_FORCED, .reg .QUARRY_PORT_LAT_MAX_LAT, .reg .QUARRY_PORT_MISS_COUNT, .reg
    .QUARRY_PORT_STAT_OUTSTANDING, .reg .QUARRY_PORT_STAT_URG, .reg .QUARRY_RANK_STATE_STATE, .reg .QUARRY_STATUS_DEGRADED, .reg
    .QUARRY_STATUS_INIT_DONE, .reg .QUARRY_STATUS_MIGRATING, .reg .QUARRY_STATUS_OP_PENDING, .reg .QUARRY_STATUS_RESHAPING, .reg
    .QUARRY_UE_ADDR_HI_ADDR, .reg .QUARRY_UE_ADDR_HI_BANK, .reg .QUARRY_UE_ADDR_HI_RANK, .reg .QUARRY_UE_ADDR_LO_ADDR, .reg .SEC_MB_CMD_OP,
    .reg .SEC_MB_CMD_TAG, .reg .SEC_MB_STAT_BUSY, .reg .SHADOW_CMD_PENDING, .reg .SHADOW_CMD_REFUSED, .reg .SPARE_ELEM_TRIM_E, .reg
    .SPARE_GO_TRIM_GAIN, .reg .SPARE_GO_TRIM_OFFSET, .reg .SPARE_LADDER_TRIM_L, .reg .SPARE_STATUS_FAILOVER_BUSY, .reg .SPARE_STATUS_PHASE,
    .reg .SPARE_STATUS_VISIT_POS, .reg .STITCH_EVIN_LATCHED_LATCHED, .reg .STITCH_FAULT_CAUSE, .reg .STITCH_FAULT_PC, .reg
    .STITCH_GANG_READY_READY, .reg .STITCH_LC_GRANT, .reg .STITCH_STATUS_CREDIT_WAIT, .reg .STITCH_STATUS_FAULTED, .reg
    .STITCH_STATUS_GANG_WAIT, .reg .STITCH_STATUS_MC_PENDING, .reg .STITCH_STATUS_RUNNING, .reg .STITCH_STATUS_WAIT_EVENT, .reg
    .STITCH_STATUS_WAIT_TIME, .reg .SYS_ERR_ADDR_HI_ADDR, .reg .SYS_ERR_ADDR_HI_MASTER, .reg .SYS_ERR_ADDR_HI_WRITE, .reg
    .SYS_ERR_ADDR_LO_ADDR, .reg .TACK_PUSH_SEL_CH, .reg .TACK_PUSH_STAT_DISCARDING, .reg .TACK_PUSH_STAT_LAST_SEQ, .reg
    .TACK_PUSH_STAT_OPEN, .reg .TACK_PUSH_STAT_REFUSED, .reg .TACK_PUSH_STAT_WORDS_LEFT, .reg .TACK_QCFG_CRED_REG, .reg
    .TACK_QCFG_CRED_STITCH, .reg .TACK_QCFG_FMODE, .reg .TACK_QLEVEL_FLUSH_BUSY, .reg .TACK_RING_CFG_EN, .reg .TACK_RING_CFG_SIZE_LOG, .reg
    .TACK_RING_CFG_SPLIT, .reg .TBASE_GSTB_CFG_ALIGN_ARM, .reg .TBASE_GSTB_CFG_ALIGN_LC, .reg .TBASE_GSTB_CFG_MODE, .reg
    .TBASE_GSTB_CFG_SINGLE_LC, .reg .TBASE_GSTB_STAT_PENDING, .reg .TBASE_LC_CTRL_ARM, .reg .TBASE_LC_CTRL_CLAIMED, .reg
    .TBASE_LC_CTRL_FRAC, .reg .TBASE_LC_CTRL_OWNER, .reg .TBASE_LC_CTRL_PERIODIC, .reg .TBASE_LC_CTRL_SRC_TALLY, .reg .TBASE_LC_CTRL_TAG,
    .reg .TBASE_LC_LATE, .reg .TBASE_LC_PERIOD_PERIOD, .reg .TBASE_LC_TIME_HI_C_HI, .reg .TBASE_LC_TIME_LO_C_LO, .reg
    .TBASE_TB_CFG_EPOCH_SRC, .reg .TBASE_TB_CFG_HOLD_RESYNC, .reg .TBASE_TB_CFG_REF_MODE, .reg .TBASE_TB_CFG_STEP_ALLOW, .reg
    .TBASE_TB_CFG_TALLY_EN, .reg .TBASE_TB_STATUS_EPOCH_ARMED, .reg .TBASE_TB_STATUS_HOLDOVER, .reg .TBASE_TB_STATUS_PLL_LOCKED, .reg
    .TBASE_TB_STATUS_REF_PRESENT, .reg .TBASE_TB_STATUS_SLEWING, .reg .TBASE_TB_STATUS_TALLY_SYNC, .reg .XSPI_LD_CTL_IMAGE, .reg
    .XSPI_LD_DONE_BYTES, .reg .XSPI_LD_ENTRIES_COUNT, .reg .XSPI_LD_RESUME_POINT, .reg .XSPI_LD_STAT_BUSY, .reg .XSPI_LD_STAT_ENTRY, .reg
    .XSPI_LD_STAT_REFUSED, .reg .XSPI_LD_STAT_RELEASED, .reg .XSPI_LD_STAT_STOP, .reg .XSPI_RAW_CMD_ALEN, .reg .XSPI_RAW_CMD_DIR, .reg
    .XSPI_RAW_CMD_DLEN, .reg .XSPI_RAW_CMD_DUMMY, .reg .XSPI_RAW_CMD_OP, .reg .XSPI_RAW_CMD_REFUSED, .reg .XSPI_STATUS_RAW_BUSY, .eff,
    .readData, .presented, .commits, .holdoff, .mem, .poison, .epoch, .lcs, .lcGen, .clocks, .gstbs, .cses, .stitchers, .queues, .staging,
    .rings, .outs, .lines, .pins, .capus, .nvmQueue, .ports, .ldr, .sec, .pwr, .qry, .ben, .missed, .tiers, .trimDue, .free] m) (a1 : Page)
    (a2 : Nat) (a3 : Nat) (a4 : Nat) (a5 : Nat) : KeepsOpt m s0 (specialWrite a1 a2 a3 a4 a5 s) := by
  unfold specialWrite
  try dsimp only
  repeat' first
    | with_reducible assumption
    | exact Within.trans (Eq.refl _) hw
    | with_reducible apply writeAlloc_keeps
    | with_reducible apply writeBench_keeps
    | with_reducible apply writeBurnish_keeps
    | with_reducible apply writeHarness_keeps
    | with_reducible apply writeI3c_keeps
    | with_reducible apply writeLdCtl_keeps
    | with_reducible apply writeMbCmd_keeps
    | with_reducible apply writeOut_keeps
    | with_reducible apply writePat_keeps
    | with_reducible apply writeQclk_keeps
    | with_reducible apply writeQphy_keeps
    | with_reducible apply writeQuarry_keeps
    | with_reducible apply writeRawCmd_keeps
    | with_reducible apply writeSpare_keeps
    | with_reducible apply writeStitch_keeps
    | with_reducible apply writeTack_keeps
    | with_reducible apply writeTbase_keeps
    | with_reducible apply writeThermCfg_keeps
    | with_reducible apply writeWdtKick_keeps
    | with_reducible apply Keeps.ite
    | with_reducible apply KeepsOpt.ite
    | with_reducible apply KeepsOpt.none
    | with_reducible apply KeepsOpt.some
    | split

theorem writeWordAt_keeps (h : Keeps m s0 s) (hw : Whole m) (a1 : Page) (a2 : Nat) (a3 : Nat) (a4 : Nat) (a5 : Nat) : Keeps m s0
    (writeWordAt a1 a2 a3 a4 a5 s) := by
  unfold writeWordAt
  try dsimp only
  repeat' first
    | with_reducible assumption
    | exact hw
    | exact hw.within _
    | with_reducible apply clearEvents_keeps
    | with_reducible apply plainWrite_keeps
    | with_reducible apply recordErr_keeps
    | exact (specialWrite_keeps (by with_reducible assumption) (hw.within _) ..).keeps _ (by assumption)
    | with_reducible apply specialWrite_keeps
    | with_reducible apply writeCtrl_keeps
    | with_reducible apply writeEvtEn_keeps
    | with_reducible apply writeOwner_keeps
    | with_reducible apply writeShadowCmd_keeps
    | with_reducible apply Keeps.ite
    | split
    | with_reducible apply KeepsOpt.getD

theorem writeReg_keeps (h : Keeps m s0 s) (hw : Whole m) (a1 : Nat) (a2 : Nat) (a3 : Nat) : Keeps m s0 (writeReg a1 a2 a3 s) := by
  unfold writeReg
  try dsimp only
  repeat' first
    | with_reducible assumption
    | exact hw
    | exact hw.within _
    | (intro _)
    | with_reducible apply gate_keeps
    | with_reducible apply writeWordAt_keeps
    | with_reducible apply Keeps.ite
    | split

theorem execRegisterWrite_keeps (h : Keeps m s0 s) (hw : Whole m) (a1 : Master) (a2 : BitVec 24) (a3 : Word) : Ends m s0
    (execRegisterWrite a1 a2
    a3 s) := by
  unfold execRegisterWrite
  try dsimp only
  repeat' first
    | with_reducible assumption
    | exact hw
    | exact hw.within _
    | (intro _)
    | with_reducible apply act_keeps
    | with_reducible apply writeReg_keeps
    | with_reducible apply Ends.ite
    | with_reducible apply Ends.next
    | split

theorem answerReg_keeps (h : Keeps m s0 s) (hw : Within [.reg .BENCH_ALIAS_STAT_POISON, .reg .BENCH_ALIAS_STAT_VALID, .reg
    .BENCH_COLL_CNT_COUNT, .reg .BENCH_ECC_CNT_CE, .reg .BENCH_ECC_CNT_UE, .reg .CSE_CLIP_CNT_CLIP, .reg .CSE_DISCARD_CNT_DISCARD, .reg
    .CSE_LATE_CNT_LATE, .reg .ERR_CODE_CODE, .reg .ERR_CODE_MASTER, .reg .ERR_CODE_OVF, .reg .ERR_CODE_WORD, .reg .ERR_CODE_WRITE, .reg
    .HARNESS_CAPU_CFG_LEVEL, .reg .HARNESS_CAPU_TIME_HI_C_HI, .reg .HARNESS_CAPU_TIME_LO_C_LO, .reg .HARNESS_LCNT_FIRED_FIRED, .reg
    .HARNESS_LCNT_MERGE_COINCIDENT, .reg .HARNESS_LCNT_MERGE_SUPPRESSED, .reg .HARNESS_LCNT_OVR_OVERRUN, .reg .I3C_FRAME_STAT_FRAME_ERR,
    .reg .I3C_IBI_CNT_NACKS, .reg .I3C_IBI_CNT_SENT, .reg .I3C_TUN_STAT_RETRY_CNT, .reg .OUT_SC_CNT_OVERTEMPS, .reg .OUT_SC_CNT_SHORTS, .reg
    .OUT_SQ_UCNT_COUNT, .reg .PAT_PAT_DROP_COUNT, .reg .POWER_PACE_MIN, .reg .POWER_RESIDENCY_MS, .reg .POWER_THERM_STAT_PEAK, .reg
    .QCLK_MISSED_MISSED, .reg .QPHY_CMP_ERRCNT_COUNT, .reg .QPHY_DRIFT_STAT_MAX_STEP, .reg .QUARRY_ECC_CNT_CE, .reg .QUARRY_ECC_CNT_UE, .reg
    .QUARRY_PORT_LAT_MAX_LAT, .reg .QUARRY_PORT_MISS_COUNT, .reg .QUARRY_RD_STAT_EVENTS, .reg .SPARE_FAIL_CNT_FAILOVERS, .reg
    .SPARE_FAIL_CNT_RETIRES, .reg .STITCH_EVIN_IGNORED_COUNT, .reg .STITCH_PUSH_CNT_COUNT, .reg .STITCH_STALL_CNT_COUNT, .reg
    .TACK_CNT_LINK_CORRECTED, .reg .TACK_CNT_LINK_FAILED, .reg .TACK_CNT_POISON_COUNT, .reg .TACK_CNT_TORN_COUNT, .reg
    .TACK_RING_UCNT_COUNT, .reg .TBASE_TALLY_CNT_CRC_ERR, .reg .TBASE_TALLY_CNT_DROPPED, .held, .readData, .capus, .pwr] m) (a1 : Nat) (a2 :
    Nat) : Keeps m s0 (answerReg a1 a2 s) := by
  unfold answerReg
  try dsimp only
  repeat' first
    | with_reducible assumption
    | exact Within.trans (Eq.refl _) hw
    | with_reducible apply readReg_keeps
    | with_reducible refine Keeps.of_snd (by assumption) ?_
    | (with_reducible apply Keeps.of_fields <;>
        first | with_reducible exact rfl | with_reducible exact Or.inl rfl | exact Or.inr (Within.trans (Eq.refl _) hw) | skip)

theorem execReadClear_keeps (h : Keeps m s0 s) (hw : Within [.reg .BENCH_ALIAS_STAT_POISON, .reg .BENCH_ALIAS_STAT_VALID, .reg
    .BENCH_COLL_CNT_COUNT, .reg .BENCH_ECC_CNT_CE, .reg .BENCH_ECC_CNT_UE, .reg .CSE_CLIP_CNT_CLIP, .reg .CSE_DISCARD_CNT_DISCARD, .reg
    .CSE_LATE_CNT_LATE, .reg .ERR_CODE_CODE, .reg .ERR_CODE_MASTER, .reg .ERR_CODE_OVF, .reg .ERR_CODE_WORD, .reg .ERR_CODE_WRITE, .reg
    .HARNESS_CAPU_CFG_LEVEL, .reg .HARNESS_CAPU_TIME_HI_C_HI, .reg .HARNESS_CAPU_TIME_LO_C_LO, .reg .HARNESS_LCNT_FIRED_FIRED, .reg
    .HARNESS_LCNT_MERGE_COINCIDENT, .reg .HARNESS_LCNT_MERGE_SUPPRESSED, .reg .HARNESS_LCNT_OVR_OVERRUN, .reg .I3C_FRAME_STAT_FRAME_ERR,
    .reg .I3C_IBI_CNT_NACKS, .reg .I3C_IBI_CNT_SENT, .reg .I3C_TUN_STAT_RETRY_CNT, .reg .OUT_SC_CNT_OVERTEMPS, .reg .OUT_SC_CNT_SHORTS, .reg
    .OUT_SQ_UCNT_COUNT, .reg .PAT_PAT_DROP_COUNT, .reg .POWER_PACE_MIN, .reg .POWER_RESIDENCY_MS, .reg .POWER_THERM_STAT_PEAK, .reg
    .QCLK_MISSED_MISSED, .reg .QPHY_CMP_ERRCNT_COUNT, .reg .QPHY_DRIFT_STAT_MAX_STEP, .reg .QUARRY_ECC_CNT_CE, .reg .QUARRY_ECC_CNT_UE, .reg
    .QUARRY_PORT_LAT_MAX_LAT, .reg .QUARRY_PORT_MISS_COUNT, .reg .QUARRY_RD_STAT_EVENTS, .reg .SPARE_FAIL_CNT_FAILOVERS, .reg
    .SPARE_FAIL_CNT_RETIRES, .reg .STITCH_EVIN_IGNORED_COUNT, .reg .STITCH_PUSH_CNT_COUNT, .reg .STITCH_STALL_CNT_COUNT, .reg
    .TACK_CNT_LINK_CORRECTED, .reg .TACK_CNT_LINK_FAILED, .reg .TACK_CNT_POISON_COUNT, .reg .TACK_CNT_TORN_COUNT, .reg
    .TACK_RING_UCNT_COUNT, .reg .TBASE_TALLY_CNT_CRC_ERR, .reg .TBASE_TALLY_CNT_DROPPED, .held, .readData, .capus, .pwr] m) (a1 : Master)
    (a2 : BitVec 24) : Ends m s0 (execReadClear a1 a2 s) := by
  unfold execReadClear
  try dsimp only
  repeat' first
    | with_reducible assumption
    | exact Within.trans (Eq.refl _) hw
    | (intro _)
    | with_reducible apply act_keeps
    | with_reducible apply answerReg_keeps
    | with_reducible apply Ends.ite
    | with_reducible apply Ends.next
    | split

theorem execRead64Low_keeps (h : Keeps m s0 s) (hw : Within [.reg .BENCH_ALIAS_STAT_POISON, .reg .BENCH_ALIAS_STAT_VALID, .reg
    .BENCH_COLL_CNT_COUNT, .reg .BENCH_ECC_CNT_CE, .reg .BENCH_ECC_CNT_UE, .reg .CSE_CLIP_CNT_CLIP, .reg .CSE_DISCARD_CNT_DISCARD, .reg
    .CSE_LATE_CNT_LATE, .reg .ERR_CODE_CODE, .reg .ERR_CODE_MASTER, .reg .ERR_CODE_OVF, .reg .ERR_CODE_WORD, .reg .ERR_CODE_WRITE, .reg
    .HARNESS_CAPU_CFG_LEVEL, .reg .HARNESS_CAPU_TIME_HI_C_HI, .reg .HARNESS_CAPU_TIME_LO_C_LO, .reg .HARNESS_LCNT_FIRED_FIRED, .reg
    .HARNESS_LCNT_MERGE_COINCIDENT, .reg .HARNESS_LCNT_MERGE_SUPPRESSED, .reg .HARNESS_LCNT_OVR_OVERRUN, .reg .I3C_FRAME_STAT_FRAME_ERR,
    .reg .I3C_IBI_CNT_NACKS, .reg .I3C_IBI_CNT_SENT, .reg .I3C_TUN_STAT_RETRY_CNT, .reg .OUT_SC_CNT_OVERTEMPS, .reg .OUT_SC_CNT_SHORTS, .reg
    .OUT_SQ_UCNT_COUNT, .reg .PAT_PAT_DROP_COUNT, .reg .POWER_PACE_MIN, .reg .POWER_RESIDENCY_MS, .reg .POWER_THERM_STAT_PEAK, .reg
    .QCLK_MISSED_MISSED, .reg .QPHY_CMP_ERRCNT_COUNT, .reg .QPHY_DRIFT_STAT_MAX_STEP, .reg .QUARRY_ECC_CNT_CE, .reg .QUARRY_ECC_CNT_UE, .reg
    .QUARRY_PORT_LAT_MAX_LAT, .reg .QUARRY_PORT_MISS_COUNT, .reg .QUARRY_RD_STAT_EVENTS, .reg .SPARE_FAIL_CNT_FAILOVERS, .reg
    .SPARE_FAIL_CNT_RETIRES, .reg .STITCH_EVIN_IGNORED_COUNT, .reg .STITCH_PUSH_CNT_COUNT, .reg .STITCH_STALL_CNT_COUNT, .reg
    .TACK_CNT_LINK_CORRECTED, .reg .TACK_CNT_LINK_FAILED, .reg .TACK_CNT_POISON_COUNT, .reg .TACK_CNT_TORN_COUNT, .reg
    .TACK_RING_UCNT_COUNT, .reg .TBASE_TALLY_CNT_CRC_ERR, .reg .TBASE_TALLY_CNT_DROPPED, .held, .readData, .capus, .pwr] m) (a1 : Master)
    (a2 : BitVec 24) : Ends m s0 (execRead64Low a1 a2 s) := by
  unfold execRead64Low
  try dsimp only
  repeat' first
    | with_reducible assumption
    | exact Within.trans (Eq.refl _) hw
    | (intro _)
    | with_reducible apply on_keeps
    | with_reducible apply act_keeps
    | with_reducible apply answerReg_keeps
    | with_reducible apply Ends.ite
    | with_reducible apply Ends.next
    | split

theorem execRead64High_keeps (h : Keeps m s0 s) (hw : Within [.reg .BENCH_ALIAS_STAT_POISON, .reg .BENCH_ALIAS_STAT_VALID, .reg
    .BENCH_COLL_CNT_COUNT, .reg .BENCH_ECC_CNT_CE, .reg .BENCH_ECC_CNT_UE, .reg .CSE_CLIP_CNT_CLIP, .reg .CSE_DISCARD_CNT_DISCARD, .reg
    .CSE_LATE_CNT_LATE, .reg .ERR_CODE_CODE, .reg .ERR_CODE_MASTER, .reg .ERR_CODE_OVF, .reg .ERR_CODE_WORD, .reg .ERR_CODE_WRITE, .reg
    .HARNESS_CAPU_CFG_LEVEL, .reg .HARNESS_CAPU_TIME_HI_C_HI, .reg .HARNESS_CAPU_TIME_LO_C_LO, .reg .HARNESS_LCNT_FIRED_FIRED, .reg
    .HARNESS_LCNT_MERGE_COINCIDENT, .reg .HARNESS_LCNT_MERGE_SUPPRESSED, .reg .HARNESS_LCNT_OVR_OVERRUN, .reg .I3C_FRAME_STAT_FRAME_ERR,
    .reg .I3C_IBI_CNT_NACKS, .reg .I3C_IBI_CNT_SENT, .reg .I3C_TUN_STAT_RETRY_CNT, .reg .OUT_SC_CNT_OVERTEMPS, .reg .OUT_SC_CNT_SHORTS, .reg
    .OUT_SQ_UCNT_COUNT, .reg .PAT_PAT_DROP_COUNT, .reg .POWER_PACE_MIN, .reg .POWER_RESIDENCY_MS, .reg .POWER_THERM_STAT_PEAK, .reg
    .QCLK_MISSED_MISSED, .reg .QPHY_CMP_ERRCNT_COUNT, .reg .QPHY_DRIFT_STAT_MAX_STEP, .reg .QUARRY_ECC_CNT_CE, .reg .QUARRY_ECC_CNT_UE, .reg
    .QUARRY_PORT_LAT_MAX_LAT, .reg .QUARRY_PORT_MISS_COUNT, .reg .QUARRY_RD_STAT_EVENTS, .reg .SPARE_FAIL_CNT_FAILOVERS, .reg
    .SPARE_FAIL_CNT_RETIRES, .reg .STITCH_EVIN_IGNORED_COUNT, .reg .STITCH_PUSH_CNT_COUNT, .reg .STITCH_STALL_CNT_COUNT, .reg
    .TACK_CNT_LINK_CORRECTED, .reg .TACK_CNT_LINK_FAILED, .reg .TACK_CNT_POISON_COUNT, .reg .TACK_CNT_TORN_COUNT, .reg
    .TACK_RING_UCNT_COUNT, .reg .TBASE_TALLY_CNT_CRC_ERR, .reg .TBASE_TALLY_CNT_DROPPED, .held, .readData, .capus, .pwr] m) (a1 : Master)
    (a2 : BitVec 24) : Ends m s0 (execRead64High a1 a2 s) := by
  unfold execRead64High
  try dsimp only
  repeat' first
    | with_reducible assumption
    | exact Within.trans (Eq.refl _) hw
    | (intro _)
    | with_reducible apply on_keeps
    | with_reducible apply act_keeps
    | with_reducible apply answerReg_keeps
    | with_reducible apply Ends.ite
    | with_reducible apply Ends.next
    | split

theorem readRegs_keeps (h : Keeps m s0 s) (hw : Within [.reg .BENCH_ALIAS_STAT_POISON, .reg .BENCH_ALIAS_STAT_VALID, .reg
    .BENCH_COLL_CNT_COUNT, .reg .BENCH_ECC_CNT_CE, .reg .BENCH_ECC_CNT_UE, .reg .CSE_CLIP_CNT_CLIP, .reg .CSE_DISCARD_CNT_DISCARD, .reg
    .CSE_LATE_CNT_LATE, .reg .ERR_CODE_CODE, .reg .ERR_CODE_MASTER, .reg .ERR_CODE_OVF, .reg .ERR_CODE_WORD, .reg .ERR_CODE_WRITE, .reg
    .HARNESS_CAPU_CFG_LEVEL, .reg .HARNESS_CAPU_TIME_HI_C_HI, .reg .HARNESS_CAPU_TIME_LO_C_LO, .reg .HARNESS_LCNT_FIRED_FIRED, .reg
    .HARNESS_LCNT_MERGE_COINCIDENT, .reg .HARNESS_LCNT_MERGE_SUPPRESSED, .reg .HARNESS_LCNT_OVR_OVERRUN, .reg .I3C_FRAME_STAT_FRAME_ERR,
    .reg .I3C_IBI_CNT_NACKS, .reg .I3C_IBI_CNT_SENT, .reg .I3C_TUN_STAT_RETRY_CNT, .reg .OUT_SC_CNT_OVERTEMPS, .reg .OUT_SC_CNT_SHORTS, .reg
    .OUT_SQ_UCNT_COUNT, .reg .PAT_PAT_DROP_COUNT, .reg .POWER_PACE_MIN, .reg .POWER_RESIDENCY_MS, .reg .POWER_THERM_STAT_PEAK, .reg
    .QCLK_MISSED_MISSED, .reg .QPHY_CMP_ERRCNT_COUNT, .reg .QPHY_DRIFT_STAT_MAX_STEP, .reg .QUARRY_ECC_CNT_CE, .reg .QUARRY_ECC_CNT_UE, .reg
    .QUARRY_PORT_LAT_MAX_LAT, .reg .QUARRY_PORT_MISS_COUNT, .reg .QUARRY_RD_STAT_EVENTS, .reg .SPARE_FAIL_CNT_FAILOVERS, .reg
    .SPARE_FAIL_CNT_RETIRES, .reg .STITCH_EVIN_IGNORED_COUNT, .reg .STITCH_PUSH_CNT_COUNT, .reg .STITCH_STALL_CNT_COUNT, .reg
    .TACK_CNT_LINK_CORRECTED, .reg .TACK_CNT_LINK_FAILED, .reg .TACK_CNT_POISON_COUNT, .reg .TACK_CNT_TORN_COUNT, .reg
    .TACK_RING_UCNT_COUNT, .reg .TBASE_TALLY_CNT_CRC_ERR, .reg .TBASE_TALLY_CNT_DROPPED, .held, .capus, .pwr] m) (a1 a2 a3 : Nat) : Keeps m
    s0 (readRegs a1 a2 a3 s).2 := by
  induction a2 generalizing s a3 with
  | zero => exact h
  | succ n ih => exact ih (readReg_keeps h (Within.trans (Eq.refl _) hw) ..) _

theorem writeLanes_keeps (h : Keeps m s0 s) (hw : Whole m) (a1 : Nat) (a2 : Nat) (a3 : List Byte) : Keeps m s0 (writeLanes a1 a2 a3 s) :=
    by
  unfold writeLanes
  try dsimp only
  repeat' first
    | with_reducible assumption
    | exact hw
    | exact hw.within _
    | (intro _)
    | with_reducible apply writeReg_keeps
    | split

theorem writeRegBytes_keeps (h : Keeps m s0 s) (hw : Whole m) (a1 a2 a3 : Nat) (a4 : List Byte) :
    Keeps m s0 (writeRegBytes a1 a2 a3 a4 s) := by
  induction a2 generalizing s a3 a4 with
  | zero => exact h
  | succ n ih => exact Keeps.ite h (ih (writeLanes_keeps h hw ..) _ _)

theorem accessWrite_keeps (h : Keeps m s0 s) (hw : Whole m) (a1 : Nat) (a2 : Nat) (a3 : List Byte) : Keeps m s0 (accessWrite a1 a2 a3 s) :=
    by
  unfold accessWrite
  try dsimp only
  repeat' first
    | with_reducible assumption
    | exact hw
    | exact hw.within _
    | with_reducible apply busOrWait_keeps
    | with_reducible apply writeRegBytes_keeps
    | with_reducible apply Keeps.ite
    | split
    | with_reducible refine Keeps.of_snd (by assumption) ?_

theorem accessRead_keeps (h : Keeps m s0 s) (hw : Within [.reg .BENCH_ALIAS_LAST_PRIOR, .reg .BENCH_ALIAS_STAT_POISON, .reg
    .BENCH_ALIAS_STAT_VALID, .reg .BENCH_BENCH_HEALTH_HEALTH, .reg .BENCH_BIST_STAT_PHASE, .reg .BENCH_BPWR_STAT_STATE, .reg
    .BENCH_COLL_CNT_COUNT, .reg .BENCH_COLL_STAT_STREAMER, .reg .BENCH_ECC_CNT_CE, .reg .BENCH_ECC_CNT_UE, .reg .BENCH_STATUS_BIST_BUSY,
    .reg .BENCH_STATUS_SPARE_FREE, .reg .BENCH_UE_ADDR_IN_SPARE, .reg .BENCH_UE_ADDR_OFFSET, .reg .CSE_CLIP_CNT_CLIP, .reg
    .CSE_DISCARD_CNT_DISCARD, .reg .CSE_LATE_CNT_LATE, .reg .ERR_CODE_CODE, .reg .ERR_CODE_MASTER, .reg .ERR_CODE_OVF, .reg .ERR_CODE_WORD,
    .reg .ERR_CODE_WRITE, .reg .EVT_PEND_PEND, .reg .EVT_RAW_RAW, .reg .HARNESS_CAPU_CFG_LEVEL, .reg .HARNESS_CAPU_TIME_HI_C_HI, .reg
    .HARNESS_CAPU_TIME_LO_C_LO, .reg .HARNESS_LCNT_FIRED_FIRED, .reg .HARNESS_LCNT_MERGE_COINCIDENT, .reg .HARNESS_LCNT_MERGE_SUPPRESSED,
    .reg .HARNESS_LCNT_OVR_OVERRUN, .reg .I3C_FRAME_STAT_FRAME_ERR, .reg .I3C_IBI_CNT_NACKS, .reg .I3C_IBI_CNT_SENT, .reg
    .I3C_TUN_STAT_RETRY_CNT, .reg .OUT_SC_CNT_OVERTEMPS, .reg .OUT_SC_CNT_SHORTS, .reg .OUT_SQ_UCNT_COUNT, .reg .PAT_PAT_DROP_COUNT, .reg
    .POWER_PACE_MIN, .reg .POWER_RESIDENCY_MS, .reg .POWER_STATUS_ENTERING, .reg .POWER_STATUS_EXITING, .reg .POWER_THERM_STAT_PEAK, .reg
    .POWER_WAKE_STAT_CLASS, .reg .POWER_WAKE_STAT_FROM, .reg .QCLK_MISSED_MISSED, .reg .QPHY_CMP_ERRCNT_COUNT, .reg
    .QPHY_DRIFT_STAT_MAX_STEP, .reg .QUARRY_CAPACITY_N_ACTIVE, .reg .QUARRY_ECC_CNT_CE, .reg .QUARRY_ECC_CNT_UE, .reg .QUARRY_LRMAP_MAP,
    .reg .QUARRY_LRMAP_SPARE, .reg .QUARRY_PORT_LAT_MAX_LAT, .reg .QUARRY_PORT_MISS_COUNT, .reg .QUARRY_PORT_STAT_OUTSTANDING, .reg
    .QUARRY_PORT_STAT_URG, .reg .QUARRY_RANK_STATE_STATE, .reg .QUARRY_RD_STAT_EVENTS, .reg .QUARRY_STATUS_DEGRADED, .reg
    .QUARRY_STATUS_MIGRATING, .reg .QUARRY_UE_ADDR_HI_ADDR, .reg .QUARRY_UE_ADDR_HI_BANK, .reg .QUARRY_UE_ADDR_HI_RANK, .reg
    .QUARRY_UE_ADDR_LO_ADDR, .reg .SPARE_FAIL_CNT_FAILOVERS, .reg .SPARE_FAIL_CNT_RETIRES, .reg .STITCH_EVIN_IGNORED_COUNT, .reg
    .STITCH_PUSH_CNT_COUNT, .reg .STITCH_STALL_CNT_COUNT, .reg .SYS_ERR_ADDR_HI_ADDR, .reg .SYS_ERR_ADDR_HI_MASTER, .reg
    .SYS_ERR_ADDR_HI_WRITE, .reg .SYS_ERR_ADDR_LO_ADDR, .reg .TACK_CNT_LINK_CORRECTED, .reg .TACK_CNT_LINK_FAILED, .reg
    .TACK_CNT_POISON_COUNT, .reg .TACK_CNT_TORN_COUNT, .reg .TACK_RING_UCNT_COUNT, .reg .TBASE_TALLY_CNT_CRC_ERR, .reg
    .TBASE_TALLY_CNT_DROPPED, .held, .readData, .presented, .holdoff, .mem, .poison, .capus, .pwr, .qry, .ben, .missed, .free] m) (a1 : Nat)
    (a2 : Nat) (a3 : Nat) : Keeps m s0 (accessRead a1 a2 a3 s) := by
  unfold accessRead
  try dsimp only
  repeat' first
    | with_reducible assumption
    | exact Within.trans (Eq.refl _) hw
    | with_reducible apply busOrWait_keeps
    | with_reducible apply drawPool_keeps
    | with_reducible apply readRegs_keeps
    | with_reducible apply Keeps.ite
    | split
    | with_reducible refine Keeps.of_snd (by assumption) ?_
    | (with_reducible apply Keeps.of_fields <;>
        first | with_reducible exact rfl | with_reducible exact Or.inl rfl | exact Or.inr (Within.trans (Eq.refl _) hw) | skip)

theorem execMasterAccess_keeps (h : Keeps m s0 s) (hw : Whole m) (a1 : Master) (a2 : Addr) (a3 : Option (List Byte)) (a4 : BitVec 12) :
    Ends m s0 (execMasterAccess a1 a2 a3 a4 s) := by
  unfold execMasterAccess
  try dsimp only
  repeat' first
    | with_reducible assumption
    | exact hw
    | exact hw.within _
    | (intro _)
    | with_reducible apply act_keeps
    | with_reducible apply accessRead_keeps
    | with_reducible apply accessWrite_keeps
    | with_reducible apply Ends.ite
    | with_reducible apply Ends.next
    | split

theorem onPage_keeps (h : Keeps m s0 s) (hw : Within [] m) (a1 : Page) (a2 : Nat) (a3 : State → State) (k3 : ∀ t, Keeps m s0 t → Keeps m
    s0 (a3 t)) : Keeps m s0 (onPage a1 a2 a3 s) := by
  unfold onPage
  try dsimp only
  repeat' first
    | with_reducible assumption
    | exact Within.trans (Eq.refl _) hw
    | (intro _)
    | with_reducible apply on_keeps
    | with_reducible apply k3

theorem execEvtEnWrite_keeps (h : Keeps m s0 s) (hw : Within [.reg .BENCH_ALIAS_LAST_PRIOR, .reg .BENCH_ALIAS_STAT_POISON, .reg
    .BENCH_ALIAS_STAT_VALID, .reg .BENCH_BENCH_HEALTH_HEALTH, .reg .BENCH_BIST_CTL_AUTO_REPLACE, .reg .BENCH_BIST_CTL_BENCH, .reg
    .BENCH_BIST_PTR_OFFSET, .reg .BENCH_BIST_STAT_FAIL, .reg .BENCH_BIST_STAT_FAIL_WORDS, .reg .BENCH_BIST_STAT_PASS, .reg
    .BENCH_BIST_STAT_PHASE, .reg .BENCH_BPWR_CFG_MODE, .reg .BENCH_BPWR_STAT_STATE, .reg .BENCH_COLL_CNT_COUNT, .reg
    .BENCH_COLL_STAT_STREAMER, .reg .BENCH_ECC_CNT_CE, .reg .BENCH_ECC_CNT_UE, .reg .BENCH_STATUS_BIST_BUSY, .reg .BENCH_STATUS_REPLACING,
    .reg .BENCH_STATUS_SPARE_COVER, .reg .BENCH_STATUS_SPARE_FREE, .reg .BENCH_UE_ADDR_IN_SPARE, .reg .BENCH_UE_ADDR_OFFSET, .reg
    .BURNISH_CAP_CTRL_AT_LC, .reg .BURNISH_CAP_CTRL_BUSY, .reg .BURNISH_CAP_CTRL_CAP_LC, .reg .BURNISH_CAP_CTRL_CAP_SRC, .reg
    .BURNISH_CAP_CTRL_REFUSED, .reg .BURNISH_CAP_DONE_COUNT, .reg .BURNISH_STATUS_CAPTURING, .reg .BURNISH_STATUS_NVM_SAVING, .reg
    .BURNISH_STATUS_ROTATING, .reg .CSE_ALLOC_EFF_PART_EFF, .reg .CSE_ALLOC_EFF_PLAYERS_EFF, .reg .CSE_ALLOC_PART_MAX, .reg
    .CSE_ALLOC_PLAYERS, .reg .CSE_CUR_DESC_KIND, .reg .CSE_CUR_DESC_PRIO, .reg .CSE_CUR_DESC_SEQ, .reg .CSE_STATUS_BUDGET_CLAMP, .reg
    .CSE_STATUS_IDLE, .reg .CSE_STATUS_OPEN, .reg .CSE_STATUS_RUNNING, .reg .CTRL_ENABLE, .reg .CTRL_PWR_REQ, .reg .ERR_CODE_CODE, .reg
    .ERR_CODE_MASTER, .reg .ERR_CODE_OVF, .reg .ERR_CODE_WORD, .reg .ERR_CODE_WRITE, .reg .EVT_EN_EN, .reg .EVT_PEND_PEND, .reg
    .EVT_RAW_RAW, .reg .HARNESS_CAPU_CFG_CLAIMED, .reg .HARNESS_CAPU_CFG_LEVEL, .reg .HARNESS_CAPU_CFG_OVR, .reg .HARNESS_CAPU_CFG_OWNER,
    .reg .HARNESS_GSTB_OVR_OVR, .reg .HARNESS_LCNT_OVR_OVERRUN, .reg .HARNESS_LINE_CFG_CLAIMED, .reg .HARNESS_LINE_CFG_DST, .reg
    .HARNESS_LINE_CFG_EN, .reg .HARNESS_LINE_CFG_OWNER, .reg .HARNESS_LINE_CFG_REARM, .reg .HARNESS_LINE_CFG_SEC, .reg
    .HARNESS_LINE_CFG_SPROF, .reg .HARNESS_LINE_CFG_SVC, .reg .HARNESS_LINE_SRC_SLOT, .reg .HARNESS_LINE_STAT_PENDING, .reg
    .HARNESS_LINE_STAT_STORM, .reg .HARNESS_SOVR_OVR, .reg .HARNESS_SVC_CTL_FORCE_HOLD, .reg .I3C_LINK_CFG_ALERT_EN, .reg
    .I3C_LINK_CFG_ALLOW_DEV_RESET, .reg .I3C_LINK_CFG_EN, .reg .I3C_LINK_CFG_WD, .reg .I3C_STATUS_HEALTHY, .reg .I3C_STATUS_SECURE, .reg
    .OUT_FAULT_CTL_FORCE, .reg .OUT_FAULT_CTL_WD_EN, .reg .OUT_FAULT_STAT_CORE_LOST, .reg .OUT_FAULT_STAT_FORCED, .reg
    .OUT_FAULT_STAT_REPEAT_FAIL, .reg .OUT_FAULT_STAT_SQ_UNDERRUN, .reg .OUT_FAULT_STAT_WATCHDOG, .reg .OUT_NVM_STAT_BUSY, .reg
    .OUT_NVM_STAT_ERR, .reg .OUT_NV_FAULT_VAL, .reg .OUT_NV_SAFE_VAL, .reg .OUT_NV_WAKE_SPAN, .reg .OUT_NV_WAKE_VAL, .reg
    .OUT_PROTCFG_AUTO_RETRY, .reg .OUT_SPANCTL_SPAN, .reg .OUT_STAGECTL_AUTO_LOCAL, .reg .OUT_STAGECTL_AUTO_SWITCH, .reg
    .OUT_STAGECTL_PREFER, .reg .OUT_STAGECTL_SENSE_MODE, .reg .OUT_STAGE_STAT_REQ_REFUSED, .reg .OUT_STATUS_CORE_SPARE, .reg
    .OUT_STATUS_FALLBACK, .reg .OUT_STATUS_HIGHZ, .reg .OUT_STATUS_NVM_BAD, .reg .OUT_STATUS_SENSE_LOCAL, .reg .OUT_STATUS_SPAN_BUSY, .reg
    .OWNER_LOCK, .reg .OWNER_MASTER, .reg .OWNER_SEC, .reg .PAT_PAT_OVR_OVR, .reg .PAT_PIN_CFG_CH, .reg .PAT_PIN_CFG_CLAIMED, .reg
    .PAT_PIN_CFG_DRIVE, .reg .PAT_PIN_CFG_EDGE, .reg .PAT_PIN_CFG_FILT, .reg .PAT_PIN_CFG_FUNC, .reg .PAT_PIN_CFG_GSTB, .reg
    .PAT_PIN_CFG_INVERT, .reg .PAT_PIN_CFG_ODRAIN, .reg .PAT_PIN_CFG_OMODE, .reg .PAT_PIN_CFG_OWNER, .reg .PAT_PIN_PULSE_PULSE, .reg
    .POWER_STATUS_DSTATE, .reg .POWER_STATUS_ENTERING, .reg .POWER_STATUS_EXITING, .reg .POWER_THERM_CFG_CRIT_ACT, .reg
    .POWER_THERM_CFG_TCRIT, .reg .POWER_THERM_CFG_TLIM, .reg .POWER_THERM_CFG_TWARN, .reg .POWER_WAKE_STAT_CLASS, .reg
    .POWER_WAKE_STAT_FROM, .reg .QCLK_COVER_QUAD, .reg .QCLK_COVER_VALID, .reg .QCLK_ORIGIN_FRAC_FRAC, .reg .QCLK_ORIGIN_HI_ORIGIN_HI, .reg
    .QCLK_ORIGIN_LO_ORIGIN_LO, .reg .QCLK_QCLK_CFG_ALIGN_ARM, .reg .QCLK_QCLK_CFG_ALIGN_LC, .reg .QCLK_QCLK_CFG_IF_LOG2, .reg
    .QCLK_QCLK_CFG_USE_SPARE, .reg .QCLK_QCLK_STATUS_LOCKED, .reg .QCLK_QCLK_STATUS_READY, .reg .QCLK_QCLK_STATUS_STOPPED, .reg
    .QPHY_CMP_STAT_BUSY, .reg .QPHY_CMP_STAT_DONE, .reg .QPHY_STATUS_TRAINING, .reg .QPHY_TRN_CTL_MODE, .reg .QPHY_TSET_CTL_A_OP, .reg
    .QPHY_TSET_CTL_A_VALID, .reg .QPHY_TSET_CTL_B_OP, .reg .QPHY_TSET_CTL_B_VALID, .reg .QUARRY_CAPACITY_N_ACTIVE, .reg
    .QUARRY_CAPACITY_WAVE_GIB, .reg .QUARRY_ECC_CNT_CE, .reg .QUARRY_ECC_CNT_UE, .reg .QUARRY_GEN_GEN, .reg .QUARRY_INIT_PROG_PERCENT, .reg
    .QUARRY_LRMAP_MAP, .reg .QUARRY_LRMAP_SPARE, .reg .QUARRY_MIG_CTL_RATE, .reg .QUARRY_MIG_PTR_CAUSE, .reg .QUARRY_MIG_PTR_LGRANK, .reg
    .QUARRY_MIG_PTR_UNIT, .reg .QUARRY_OPCTL_ABORT_MAX, .reg .QUARRY_OPCTL_AT_LC, .reg .QUARRY_OPCTL_LC, .reg .QUARRY_OPCTL_TARGET, .reg
    .QUARRY_OP_STAT_ABORTS, .reg .QUARRY_OP_STAT_FORCED, .reg .QUARRY_PORT_LAT_MAX_LAT, .reg .QUARRY_PORT_MISS_COUNT, .reg
    .QUARRY_PORT_STAT_OUTSTANDING, .reg .QUARRY_PORT_STAT_URG, .reg .QUARRY_RANK_STATE_STATE, .reg .QUARRY_STATUS_DEGRADED, .reg
    .QUARRY_STATUS_INIT_DONE, .reg .QUARRY_STATUS_MIGRATING, .reg .QUARRY_STATUS_OP_PENDING, .reg .QUARRY_STATUS_RESHAPING, .reg
    .QUARRY_STATUS_SELF_REFRESH, .reg .QUARRY_UE_ADDR_HI_ADDR, .reg .QUARRY_UE_ADDR_HI_BANK, .reg .QUARRY_UE_ADDR_HI_RANK, .reg
    .QUARRY_UE_ADDR_LO_ADDR, .reg .SEC_MB_CMD_OP, .reg .SEC_MB_CMD_TAG, .reg .SEC_MB_STAT_BUSY, .reg .SHADOW_CMD_LATE, .reg .SHADOW_CMD_LC,
    .reg .SHADOW_CMD_MODE, .reg .SHADOW_CMD_PENDING, .reg .SHADOW_CMD_REFUSED, .reg .SPARE_CORE_STATE_ROLE, .reg .SPARE_ELEM_TRIM_E, .reg
    .SPARE_GO_TRIM_GAIN, .reg .SPARE_GO_TRIM_OFFSET, .reg .SPARE_LADDER_TRIM_L, .reg .SPARE_STATUS_CAL_CORE, .reg
    .SPARE_STATUS_FAILOVER_BUSY, .reg .SPARE_STATUS_PHASE, .reg .SPARE_STATUS_SPARE_CORE, .reg .SPARE_STATUS_SPARE_FREE, .reg
    .SPARE_STATUS_VISIT_POS, .reg .STITCH_EVIN_IGNORED_COUNT, .reg .STITCH_EVIN_LATCHED_LATCHED, .reg .STITCH_FAULT_CAUSE, .reg
    .STITCH_FAULT_PC, .reg .STITCH_GANG_READY_READY, .reg .STITCH_LC_GRANT, .reg .STITCH_PUSH_CNT_COUNT, .reg .STITCH_STALL_CNT_COUNT, .reg
    .STITCH_STATUS_CREDIT_WAIT, .reg .STITCH_STATUS_FAULTED, .reg .STITCH_STATUS_GANG_WAIT, .reg .STITCH_STATUS_HALTED, .reg
    .STITCH_STATUS_MC_BANK, .reg .STITCH_STATUS_MC_PENDING, .reg .STITCH_STATUS_RUNNING, .reg .STITCH_STATUS_WAIT_EVENT, .reg
    .STITCH_STATUS_WAIT_TIME, .reg .SYS_ERR_ADDR_HI_ADDR, .reg .SYS_ERR_ADDR_HI_MASTER, .reg .SYS_ERR_ADDR_HI_WRITE, .reg
    .SYS_ERR_ADDR_LO_ADDR, .reg .SYS_RESET_CNT_WARM, .reg .TACK_PUSH_SEL_CH, .reg .TACK_PUSH_STAT_DISCARDING, .reg .TACK_PUSH_STAT_LAST_SEQ,
    .reg .TACK_PUSH_STAT_OPEN, .reg .TACK_PUSH_STAT_REFUSED, .reg .TACK_PUSH_STAT_WORDS_LEFT, .reg .TACK_QCFG_CRED_REG, .reg
    .TACK_QCFG_CRED_STITCH, .reg .TACK_QCFG_FMODE, .reg .TACK_QLEVEL_BROKEN, .reg .TACK_QLEVEL_FLUSH_BUSY, .reg .TACK_RING_CFG_EN, .reg
    .TACK_RING_CFG_SIZE_LOG, .reg .TACK_RING_CFG_SPLIT, .reg .TACK_STATUS_SWEEP, .reg .TBASE_GSTB_CFG_ALIGN_ARM, .reg
    .TBASE_GSTB_CFG_ALIGN_LC, .reg .TBASE_GSTB_CFG_MODE, .reg .TBASE_GSTB_CFG_SINGLE_LC, .reg .TBASE_GSTB_STAT_PENDING, .reg
    .TBASE_LC_CTRL_ARM, .reg .TBASE_LC_CTRL_CLAIMED, .reg .TBASE_LC_CTRL_FRAC, .reg .TBASE_LC_CTRL_OWNER, .reg .TBASE_LC_CTRL_PERIODIC, .reg
    .TBASE_LC_CTRL_SRC_TALLY, .reg .TBASE_LC_CTRL_TAG, .reg .TBASE_LC_LATE, .reg .TBASE_LC_PERIOD_PERIOD, .reg .TBASE_LC_TIME_HI_C_HI, .reg
    .TBASE_LC_TIME_LO_C_LO, .reg .TBASE_TB_CFG_EPOCH_SRC, .reg .TBASE_TB_CFG_HOLD_RESYNC, .reg .TBASE_TB_CFG_REF_MODE, .reg
    .TBASE_TB_CFG_STEP_ALLOW, .reg .TBASE_TB_CFG_TALLY_EN, .reg .TBASE_TB_STATUS_EPOCH_ARMED, .reg .TBASE_TB_STATUS_HOLDOVER, .reg
    .TBASE_TB_STATUS_PLL_LOCKED, .reg .TBASE_TB_STATUS_REF_PRESENT, .reg .TBASE_TB_STATUS_SLEWING, .reg .TBASE_TB_STATUS_TALLY_SYNC, .reg
    .XSPI_LD_CTL_IMAGE, .reg .XSPI_LD_DONE_BYTES, .reg .XSPI_LD_ENTRIES_COUNT, .reg .XSPI_LD_RESUME_POINT, .reg .XSPI_LD_STAT_BUSY, .reg
    .XSPI_LD_STAT_ENTRY, .reg .XSPI_LD_STAT_REFUSED, .reg .XSPI_LD_STAT_RELEASED, .reg .XSPI_LD_STAT_STOP, .reg .XSPI_RAW_CMD_ALEN, .reg
    .XSPI_RAW_CMD_DIR, .reg .XSPI_RAW_CMD_DLEN, .reg .XSPI_RAW_CMD_DUMMY, .reg .XSPI_RAW_CMD_OP, .reg .XSPI_RAW_CMD_REFUSED, .reg
    .XSPI_STATUS_RAW_BUSY, .dev, .eff, .cap, .held, .readData, .presented, .commits, .holdoff, .mem, .poison, .epoch, .lcs, .lcGen, .clocks,
    .gstbs, .wheels, .cses, .stitchers, .queues, .staging, .rings, .outs, .lines, .pins, .capus, .evin, .nvmQueue, .ports, .ldr, .sec, .pwr,
    .qry, .ben, .missed, .tiers, .trimDue, .fwUp, .free] m) (a1 : Master) (a2 : Page) (a3 : Chan) (a4 : Word) : Ends m s0 (execEvtEnWrite a1
    a2 a3 a4 s) := by
  refine act_keeps (fun t ht => on_keeps (fun u hu => gate_keeps hu (Within.trans (Eq.refl _) hw) _ _ _ _ _ _ (fun v hv => ?_)) ht) h
  show Keeps m s0 (if writerOk v a2 0x10 a1.val = false then recordErr a2 a3.val errOwnerDenied a1.val true (0x10 / 4) v
    else writeEvtEn a2 a3.val a4.toNat v)
  exact Keeps.ite (recordErr_keeps hv (Within.trans (Eq.refl _) hw) ..) (writeEvtEn_keeps hv (Within.trans (Eq.refl _) hw) ..)

theorem execEvtClear_keeps (h : Keeps m s0 s) (hw : Within [.reg .BENCH_ALIAS_LAST_PRIOR, .reg .BENCH_ALIAS_STAT_POISON, .reg
    .BENCH_ALIAS_STAT_VALID, .reg .BENCH_BENCH_HEALTH_HEALTH, .reg .BENCH_BIST_CTL_AUTO_REPLACE, .reg .BENCH_BIST_CTL_BENCH, .reg
    .BENCH_BIST_PTR_OFFSET, .reg .BENCH_BIST_STAT_FAIL, .reg .BENCH_BIST_STAT_FAIL_WORDS, .reg .BENCH_BIST_STAT_PASS, .reg
    .BENCH_BIST_STAT_PHASE, .reg .BENCH_BPWR_CFG_MODE, .reg .BENCH_BPWR_STAT_STATE, .reg .BENCH_COLL_CNT_COUNT, .reg
    .BENCH_COLL_STAT_STREAMER, .reg .BENCH_ECC_CNT_CE, .reg .BENCH_ECC_CNT_UE, .reg .BENCH_STATUS_BIST_BUSY, .reg .BENCH_STATUS_REPLACING,
    .reg .BENCH_STATUS_SPARE_COVER, .reg .BENCH_STATUS_SPARE_FREE, .reg .BENCH_UE_ADDR_IN_SPARE, .reg .BENCH_UE_ADDR_OFFSET, .reg
    .BURNISH_CAP_CTRL_AT_LC, .reg .BURNISH_CAP_CTRL_BUSY, .reg .BURNISH_CAP_CTRL_CAP_LC, .reg .BURNISH_CAP_CTRL_CAP_SRC, .reg
    .BURNISH_CAP_CTRL_REFUSED, .reg .BURNISH_CAP_DONE_COUNT, .reg .BURNISH_STATUS_CAPTURING, .reg .BURNISH_STATUS_NVM_SAVING, .reg
    .BURNISH_STATUS_ROTATING, .reg .CSE_ALLOC_EFF_PART_EFF, .reg .CSE_ALLOC_EFF_PLAYERS_EFF, .reg .CSE_ALLOC_PART_MAX, .reg
    .CSE_ALLOC_PLAYERS, .reg .CSE_CUR_DESC_KIND, .reg .CSE_CUR_DESC_PRIO, .reg .CSE_CUR_DESC_SEQ, .reg .CSE_STATUS_BUDGET_CLAMP, .reg
    .CSE_STATUS_IDLE, .reg .CSE_STATUS_OPEN, .reg .CSE_STATUS_RUNNING, .reg .CTRL_ENABLE, .reg .CTRL_PWR_REQ, .reg .ERR_CODE_CODE, .reg
    .ERR_CODE_MASTER, .reg .ERR_CODE_OVF, .reg .ERR_CODE_WORD, .reg .ERR_CODE_WRITE, .reg .EVT_EN_EN, .reg .EVT_PEND_PEND, .reg
    .EVT_RAW_RAW, .reg .HARNESS_CAPU_CFG_CLAIMED, .reg .HARNESS_CAPU_CFG_LEVEL, .reg .HARNESS_CAPU_CFG_OVR, .reg .HARNESS_CAPU_CFG_OWNER,
    .reg .HARNESS_GSTB_OVR_OVR, .reg .HARNESS_LCNT_OVR_OVERRUN, .reg .HARNESS_LINE_CFG_CLAIMED, .reg .HARNESS_LINE_CFG_DST, .reg
    .HARNESS_LINE_CFG_EN, .reg .HARNESS_LINE_CFG_OWNER, .reg .HARNESS_LINE_CFG_REARM, .reg .HARNESS_LINE_CFG_SEC, .reg
    .HARNESS_LINE_CFG_SPROF, .reg .HARNESS_LINE_CFG_SVC, .reg .HARNESS_LINE_SRC_SLOT, .reg .HARNESS_LINE_STAT_PENDING, .reg
    .HARNESS_LINE_STAT_STORM, .reg .HARNESS_SOVR_OVR, .reg .HARNESS_SVC_CTL_FORCE_HOLD, .reg .I3C_LINK_CFG_ALERT_EN, .reg
    .I3C_LINK_CFG_ALLOW_DEV_RESET, .reg .I3C_LINK_CFG_EN, .reg .I3C_LINK_CFG_WD, .reg .I3C_STATUS_HEALTHY, .reg .I3C_STATUS_SECURE, .reg
    .OUT_FAULT_CTL_FORCE, .reg .OUT_FAULT_CTL_WD_EN, .reg .OUT_FAULT_STAT_CORE_LOST, .reg .OUT_FAULT_STAT_FORCED, .reg
    .OUT_FAULT_STAT_REPEAT_FAIL, .reg .OUT_FAULT_STAT_SQ_UNDERRUN, .reg .OUT_FAULT_STAT_WATCHDOG, .reg .OUT_NVM_STAT_BUSY, .reg
    .OUT_NVM_STAT_ERR, .reg .OUT_NV_FAULT_VAL, .reg .OUT_NV_SAFE_VAL, .reg .OUT_NV_WAKE_SPAN, .reg .OUT_NV_WAKE_VAL, .reg
    .OUT_PROTCFG_AUTO_RETRY, .reg .OUT_SPANCTL_SPAN, .reg .OUT_STAGECTL_AUTO_LOCAL, .reg .OUT_STAGECTL_AUTO_SWITCH, .reg
    .OUT_STAGECTL_PREFER, .reg .OUT_STAGECTL_SENSE_MODE, .reg .OUT_STAGE_STAT_REQ_REFUSED, .reg .OUT_STATUS_CORE_SPARE, .reg
    .OUT_STATUS_FALLBACK, .reg .OUT_STATUS_HIGHZ, .reg .OUT_STATUS_NVM_BAD, .reg .OUT_STATUS_SENSE_LOCAL, .reg .OUT_STATUS_SPAN_BUSY, .reg
    .OWNER_LOCK, .reg .OWNER_MASTER, .reg .OWNER_SEC, .reg .PAT_PAT_OVR_OVR, .reg .PAT_PIN_CFG_CH, .reg .PAT_PIN_CFG_CLAIMED, .reg
    .PAT_PIN_CFG_DRIVE, .reg .PAT_PIN_CFG_EDGE, .reg .PAT_PIN_CFG_FILT, .reg .PAT_PIN_CFG_FUNC, .reg .PAT_PIN_CFG_GSTB, .reg
    .PAT_PIN_CFG_INVERT, .reg .PAT_PIN_CFG_ODRAIN, .reg .PAT_PIN_CFG_OMODE, .reg .PAT_PIN_CFG_OWNER, .reg .PAT_PIN_PULSE_PULSE, .reg
    .POWER_STATUS_DSTATE, .reg .POWER_STATUS_ENTERING, .reg .POWER_STATUS_EXITING, .reg .POWER_THERM_CFG_CRIT_ACT, .reg
    .POWER_THERM_CFG_TCRIT, .reg .POWER_THERM_CFG_TLIM, .reg .POWER_THERM_CFG_TWARN, .reg .POWER_WAKE_STAT_CLASS, .reg
    .POWER_WAKE_STAT_FROM, .reg .QCLK_COVER_QUAD, .reg .QCLK_COVER_VALID, .reg .QCLK_ORIGIN_FRAC_FRAC, .reg .QCLK_ORIGIN_HI_ORIGIN_HI, .reg
    .QCLK_ORIGIN_LO_ORIGIN_LO, .reg .QCLK_QCLK_CFG_ALIGN_ARM, .reg .QCLK_QCLK_CFG_ALIGN_LC, .reg .QCLK_QCLK_CFG_IF_LOG2, .reg
    .QCLK_QCLK_CFG_USE_SPARE, .reg .QCLK_QCLK_STATUS_LOCKED, .reg .QCLK_QCLK_STATUS_READY, .reg .QCLK_QCLK_STATUS_STOPPED, .reg
    .QPHY_CMP_STAT_BUSY, .reg .QPHY_CMP_STAT_DONE, .reg .QPHY_STATUS_TRAINING, .reg .QPHY_TRN_CTL_MODE, .reg .QPHY_TSET_CTL_A_OP, .reg
    .QPHY_TSET_CTL_A_VALID, .reg .QPHY_TSET_CTL_B_OP, .reg .QPHY_TSET_CTL_B_VALID, .reg .QUARRY_CAPACITY_N_ACTIVE, .reg
    .QUARRY_CAPACITY_WAVE_GIB, .reg .QUARRY_ECC_CNT_CE, .reg .QUARRY_ECC_CNT_UE, .reg .QUARRY_GEN_GEN, .reg .QUARRY_INIT_PROG_PERCENT, .reg
    .QUARRY_LRMAP_MAP, .reg .QUARRY_LRMAP_SPARE, .reg .QUARRY_MIG_CTL_RATE, .reg .QUARRY_MIG_PTR_CAUSE, .reg .QUARRY_MIG_PTR_LGRANK, .reg
    .QUARRY_MIG_PTR_UNIT, .reg .QUARRY_OPCTL_ABORT_MAX, .reg .QUARRY_OPCTL_AT_LC, .reg .QUARRY_OPCTL_LC, .reg .QUARRY_OPCTL_TARGET, .reg
    .QUARRY_OP_STAT_ABORTS, .reg .QUARRY_OP_STAT_FORCED, .reg .QUARRY_PORT_LAT_MAX_LAT, .reg .QUARRY_PORT_MISS_COUNT, .reg
    .QUARRY_PORT_STAT_OUTSTANDING, .reg .QUARRY_PORT_STAT_URG, .reg .QUARRY_RANK_STATE_STATE, .reg .QUARRY_STATUS_DEGRADED, .reg
    .QUARRY_STATUS_INIT_DONE, .reg .QUARRY_STATUS_MIGRATING, .reg .QUARRY_STATUS_OP_PENDING, .reg .QUARRY_STATUS_RESHAPING, .reg
    .QUARRY_STATUS_SELF_REFRESH, .reg .QUARRY_UE_ADDR_HI_ADDR, .reg .QUARRY_UE_ADDR_HI_BANK, .reg .QUARRY_UE_ADDR_HI_RANK, .reg
    .QUARRY_UE_ADDR_LO_ADDR, .reg .SEC_MB_CMD_OP, .reg .SEC_MB_CMD_TAG, .reg .SEC_MB_STAT_BUSY, .reg .SHADOW_CMD_LATE, .reg .SHADOW_CMD_LC,
    .reg .SHADOW_CMD_MODE, .reg .SHADOW_CMD_PENDING, .reg .SHADOW_CMD_REFUSED, .reg .SPARE_CORE_STATE_ROLE, .reg .SPARE_ELEM_TRIM_E, .reg
    .SPARE_GO_TRIM_GAIN, .reg .SPARE_GO_TRIM_OFFSET, .reg .SPARE_LADDER_TRIM_L, .reg .SPARE_STATUS_CAL_CORE, .reg
    .SPARE_STATUS_FAILOVER_BUSY, .reg .SPARE_STATUS_PHASE, .reg .SPARE_STATUS_SPARE_CORE, .reg .SPARE_STATUS_SPARE_FREE, .reg
    .SPARE_STATUS_VISIT_POS, .reg .STITCH_EVIN_IGNORED_COUNT, .reg .STITCH_EVIN_LATCHED_LATCHED, .reg .STITCH_FAULT_CAUSE, .reg
    .STITCH_FAULT_PC, .reg .STITCH_GANG_READY_READY, .reg .STITCH_LC_GRANT, .reg .STITCH_PUSH_CNT_COUNT, .reg .STITCH_STALL_CNT_COUNT, .reg
    .STITCH_STATUS_CREDIT_WAIT, .reg .STITCH_STATUS_FAULTED, .reg .STITCH_STATUS_GANG_WAIT, .reg .STITCH_STATUS_HALTED, .reg
    .STITCH_STATUS_MC_BANK, .reg .STITCH_STATUS_MC_PENDING, .reg .STITCH_STATUS_RUNNING, .reg .STITCH_STATUS_WAIT_EVENT, .reg
    .STITCH_STATUS_WAIT_TIME, .reg .SYS_ERR_ADDR_HI_ADDR, .reg .SYS_ERR_ADDR_HI_MASTER, .reg .SYS_ERR_ADDR_HI_WRITE, .reg
    .SYS_ERR_ADDR_LO_ADDR, .reg .SYS_RESET_CNT_WARM, .reg .TACK_PUSH_SEL_CH, .reg .TACK_PUSH_STAT_DISCARDING, .reg .TACK_PUSH_STAT_LAST_SEQ,
    .reg .TACK_PUSH_STAT_OPEN, .reg .TACK_PUSH_STAT_REFUSED, .reg .TACK_PUSH_STAT_WORDS_LEFT, .reg .TACK_QCFG_CRED_REG, .reg
    .TACK_QCFG_CRED_STITCH, .reg .TACK_QCFG_FMODE, .reg .TACK_QLEVEL_BROKEN, .reg .TACK_QLEVEL_FLUSH_BUSY, .reg .TACK_RING_CFG_EN, .reg
    .TACK_RING_CFG_SIZE_LOG, .reg .TACK_RING_CFG_SPLIT, .reg .TACK_STATUS_SWEEP, .reg .TBASE_GSTB_CFG_ALIGN_ARM, .reg
    .TBASE_GSTB_CFG_ALIGN_LC, .reg .TBASE_GSTB_CFG_MODE, .reg .TBASE_GSTB_CFG_SINGLE_LC, .reg .TBASE_GSTB_STAT_PENDING, .reg
    .TBASE_LC_CTRL_ARM, .reg .TBASE_LC_CTRL_CLAIMED, .reg .TBASE_LC_CTRL_FRAC, .reg .TBASE_LC_CTRL_OWNER, .reg .TBASE_LC_CTRL_PERIODIC, .reg
    .TBASE_LC_CTRL_SRC_TALLY, .reg .TBASE_LC_CTRL_TAG, .reg .TBASE_LC_LATE, .reg .TBASE_LC_PERIOD_PERIOD, .reg .TBASE_LC_TIME_HI_C_HI, .reg
    .TBASE_LC_TIME_LO_C_LO, .reg .TBASE_TB_CFG_EPOCH_SRC, .reg .TBASE_TB_CFG_HOLD_RESYNC, .reg .TBASE_TB_CFG_REF_MODE, .reg
    .TBASE_TB_CFG_STEP_ALLOW, .reg .TBASE_TB_CFG_TALLY_EN, .reg .TBASE_TB_STATUS_EPOCH_ARMED, .reg .TBASE_TB_STATUS_HOLDOVER, .reg
    .TBASE_TB_STATUS_PLL_LOCKED, .reg .TBASE_TB_STATUS_REF_PRESENT, .reg .TBASE_TB_STATUS_SLEWING, .reg .TBASE_TB_STATUS_TALLY_SYNC, .reg
    .XSPI_LD_CTL_IMAGE, .reg .XSPI_LD_DONE_BYTES, .reg .XSPI_LD_ENTRIES_COUNT, .reg .XSPI_LD_RESUME_POINT, .reg .XSPI_LD_STAT_BUSY, .reg
    .XSPI_LD_STAT_ENTRY, .reg .XSPI_LD_STAT_REFUSED, .reg .XSPI_LD_STAT_RELEASED, .reg .XSPI_LD_STAT_STOP, .reg .XSPI_RAW_CMD_ALEN, .reg
    .XSPI_RAW_CMD_DIR, .reg .XSPI_RAW_CMD_DLEN, .reg .XSPI_RAW_CMD_DUMMY, .reg .XSPI_RAW_CMD_OP, .reg .XSPI_RAW_CMD_REFUSED, .reg
    .XSPI_STATUS_RAW_BUSY, .dev, .eff, .cap, .held, .readData, .presented, .commits, .holdoff, .mem, .poison, .epoch, .lcs, .lcGen, .clocks,
    .gstbs, .wheels, .cses, .stitchers, .queues, .staging, .rings, .outs, .lines, .pins, .capus, .evin, .nvmQueue, .ports, .ldr, .sec, .pwr,
    .qry, .ben, .missed, .tiers, .trimDue, .fwUp, .free] m) (a1 : Master) (a2 : Page) (a3 : Chan) (a4 : Bool)
    (a5 : Word) : Ends m s0 (execEvtClear a1 a2 a3 a4 a5 s) := by
  refine act_keeps (fun t ht => on_keeps (fun u hu => gate_keeps hu (Within.trans (Eq.refl _) hw) _ _ _ _ _ _ (fun v hv => ?_)) ht) h
  cases a4
  · show Keeps m s0 (if writerOk v a2 0x0C a1.val = false then recordErr a2 a3.val errOwnerDenied a1.val true (0x0C / 4) v
      else clearEvents a2 a3.val a5.toNat v)
    exact Keeps.ite (recordErr_keeps hv (Within.trans (Eq.refl _) hw) ..) (clearEvents_keeps hv (Within.trans (Eq.refl _) hw) ..)
  · show Keeps m s0 (if writerOk v a2 0x14 a1.val = false then recordErr a2 a3.val errOwnerDenied a1.val true (0x14 / 4) v
      else clearEvents a2 a3.val a5.toNat v)
    exact Keeps.ite (recordErr_keeps hv (Within.trans (Eq.refl _) hw) ..) (clearEvents_keeps hv (Within.trans (Eq.refl _) hw) ..)

theorem execOwnerWrite_keeps (h : Keeps m s0 s) (hw : Within [.reg .BENCH_ALIAS_LAST_PRIOR, .reg .BENCH_ALIAS_STAT_POISON, .reg
    .BENCH_ALIAS_STAT_VALID, .reg .BENCH_BENCH_HEALTH_HEALTH, .reg .BENCH_BIST_CTL_AUTO_REPLACE, .reg .BENCH_BIST_CTL_BENCH, .reg
    .BENCH_BIST_PTR_OFFSET, .reg .BENCH_BIST_STAT_FAIL, .reg .BENCH_BIST_STAT_FAIL_WORDS, .reg .BENCH_BIST_STAT_PASS, .reg
    .BENCH_BIST_STAT_PHASE, .reg .BENCH_BPWR_CFG_MODE, .reg .BENCH_BPWR_STAT_STATE, .reg .BENCH_COLL_CNT_COUNT, .reg
    .BENCH_COLL_STAT_STREAMER, .reg .BENCH_ECC_CNT_CE, .reg .BENCH_ECC_CNT_UE, .reg .BENCH_STATUS_BIST_BUSY, .reg .BENCH_STATUS_REPLACING,
    .reg .BENCH_STATUS_SPARE_COVER, .reg .BENCH_STATUS_SPARE_FREE, .reg .BENCH_UE_ADDR_IN_SPARE, .reg .BENCH_UE_ADDR_OFFSET, .reg
    .BURNISH_CAP_CTRL_AT_LC, .reg .BURNISH_CAP_CTRL_BUSY, .reg .BURNISH_CAP_CTRL_CAP_LC, .reg .BURNISH_CAP_CTRL_CAP_SRC, .reg
    .BURNISH_CAP_CTRL_REFUSED, .reg .BURNISH_CAP_DONE_COUNT, .reg .BURNISH_STATUS_CAPTURING, .reg .BURNISH_STATUS_NVM_SAVING, .reg
    .BURNISH_STATUS_ROTATING, .reg .CSE_ALLOC_EFF_PART_EFF, .reg .CSE_ALLOC_EFF_PLAYERS_EFF, .reg .CSE_ALLOC_PART_MAX, .reg
    .CSE_ALLOC_PLAYERS, .reg .CSE_CUR_DESC_KIND, .reg .CSE_CUR_DESC_PRIO, .reg .CSE_CUR_DESC_SEQ, .reg .CSE_STATUS_BUDGET_CLAMP, .reg
    .CSE_STATUS_IDLE, .reg .CSE_STATUS_OPEN, .reg .CSE_STATUS_RUNNING, .reg .CTRL_ENABLE, .reg .CTRL_PWR_REQ, .reg .ERR_CODE_CODE, .reg
    .ERR_CODE_MASTER, .reg .ERR_CODE_OVF, .reg .ERR_CODE_WORD, .reg .ERR_CODE_WRITE, .reg .EVT_EN_EN, .reg .EVT_PEND_PEND, .reg
    .EVT_RAW_RAW, .reg .HARNESS_CAPU_CFG_CLAIMED, .reg .HARNESS_CAPU_CFG_LEVEL, .reg .HARNESS_CAPU_CFG_OVR, .reg .HARNESS_CAPU_CFG_OWNER,
    .reg .HARNESS_GSTB_OVR_OVR, .reg .HARNESS_LCNT_OVR_OVERRUN, .reg .HARNESS_LINE_CFG_CLAIMED, .reg .HARNESS_LINE_CFG_DST, .reg
    .HARNESS_LINE_CFG_EN, .reg .HARNESS_LINE_CFG_OWNER, .reg .HARNESS_LINE_CFG_REARM, .reg .HARNESS_LINE_CFG_SEC, .reg
    .HARNESS_LINE_CFG_SPROF, .reg .HARNESS_LINE_CFG_SVC, .reg .HARNESS_LINE_SRC_SLOT, .reg .HARNESS_LINE_STAT_PENDING, .reg
    .HARNESS_LINE_STAT_STORM, .reg .HARNESS_SOVR_OVR, .reg .HARNESS_SVC_CTL_FORCE_HOLD, .reg .I3C_LINK_CFG_ALERT_EN, .reg
    .I3C_LINK_CFG_ALLOW_DEV_RESET, .reg .I3C_LINK_CFG_EN, .reg .I3C_LINK_CFG_WD, .reg .I3C_STATUS_HEALTHY, .reg .I3C_STATUS_SECURE, .reg
    .OUT_FAULT_CTL_FORCE, .reg .OUT_FAULT_CTL_WD_EN, .reg .OUT_FAULT_STAT_CORE_LOST, .reg .OUT_FAULT_STAT_FORCED, .reg
    .OUT_FAULT_STAT_REPEAT_FAIL, .reg .OUT_FAULT_STAT_SQ_UNDERRUN, .reg .OUT_FAULT_STAT_WATCHDOG, .reg .OUT_NVM_STAT_BUSY, .reg
    .OUT_NVM_STAT_ERR, .reg .OUT_NV_FAULT_VAL, .reg .OUT_NV_SAFE_VAL, .reg .OUT_NV_WAKE_SPAN, .reg .OUT_NV_WAKE_VAL, .reg
    .OUT_PROTCFG_AUTO_RETRY, .reg .OUT_SPANCTL_SPAN, .reg .OUT_STAGECTL_AUTO_LOCAL, .reg .OUT_STAGECTL_AUTO_SWITCH, .reg
    .OUT_STAGECTL_PREFER, .reg .OUT_STAGECTL_SENSE_MODE, .reg .OUT_STAGE_STAT_REQ_REFUSED, .reg .OUT_STATUS_CORE_SPARE, .reg
    .OUT_STATUS_FALLBACK, .reg .OUT_STATUS_HIGHZ, .reg .OUT_STATUS_NVM_BAD, .reg .OUT_STATUS_SENSE_LOCAL, .reg .OUT_STATUS_SPAN_BUSY, .reg
    .OWNER_LOCK, .reg .OWNER_MASTER, .reg .OWNER_SEC, .reg .PAT_PAT_OVR_OVR, .reg .PAT_PIN_CFG_CH, .reg .PAT_PIN_CFG_CLAIMED, .reg
    .PAT_PIN_CFG_DRIVE, .reg .PAT_PIN_CFG_EDGE, .reg .PAT_PIN_CFG_FILT, .reg .PAT_PIN_CFG_FUNC, .reg .PAT_PIN_CFG_GSTB, .reg
    .PAT_PIN_CFG_INVERT, .reg .PAT_PIN_CFG_ODRAIN, .reg .PAT_PIN_CFG_OMODE, .reg .PAT_PIN_CFG_OWNER, .reg .PAT_PIN_PULSE_PULSE, .reg
    .POWER_STATUS_DSTATE, .reg .POWER_STATUS_ENTERING, .reg .POWER_STATUS_EXITING, .reg .POWER_THERM_CFG_CRIT_ACT, .reg
    .POWER_THERM_CFG_TCRIT, .reg .POWER_THERM_CFG_TLIM, .reg .POWER_THERM_CFG_TWARN, .reg .POWER_WAKE_STAT_CLASS, .reg
    .POWER_WAKE_STAT_FROM, .reg .QCLK_COVER_QUAD, .reg .QCLK_COVER_VALID, .reg .QCLK_ORIGIN_FRAC_FRAC, .reg .QCLK_ORIGIN_HI_ORIGIN_HI, .reg
    .QCLK_ORIGIN_LO_ORIGIN_LO, .reg .QCLK_QCLK_CFG_ALIGN_ARM, .reg .QCLK_QCLK_CFG_ALIGN_LC, .reg .QCLK_QCLK_CFG_IF_LOG2, .reg
    .QCLK_QCLK_CFG_USE_SPARE, .reg .QCLK_QCLK_STATUS_LOCKED, .reg .QCLK_QCLK_STATUS_READY, .reg .QCLK_QCLK_STATUS_STOPPED, .reg
    .QPHY_CMP_STAT_BUSY, .reg .QPHY_CMP_STAT_DONE, .reg .QPHY_STATUS_TRAINING, .reg .QPHY_TRN_CTL_MODE, .reg .QPHY_TSET_CTL_A_OP, .reg
    .QPHY_TSET_CTL_A_VALID, .reg .QPHY_TSET_CTL_B_OP, .reg .QPHY_TSET_CTL_B_VALID, .reg .QUARRY_CAPACITY_N_ACTIVE, .reg
    .QUARRY_CAPACITY_WAVE_GIB, .reg .QUARRY_ECC_CNT_CE, .reg .QUARRY_ECC_CNT_UE, .reg .QUARRY_GEN_GEN, .reg .QUARRY_INIT_PROG_PERCENT, .reg
    .QUARRY_LRMAP_MAP, .reg .QUARRY_LRMAP_SPARE, .reg .QUARRY_MIG_CTL_RATE, .reg .QUARRY_MIG_PTR_CAUSE, .reg .QUARRY_MIG_PTR_LGRANK, .reg
    .QUARRY_MIG_PTR_UNIT, .reg .QUARRY_OPCTL_ABORT_MAX, .reg .QUARRY_OPCTL_AT_LC, .reg .QUARRY_OPCTL_LC, .reg .QUARRY_OPCTL_TARGET, .reg
    .QUARRY_OP_STAT_ABORTS, .reg .QUARRY_OP_STAT_FORCED, .reg .QUARRY_PORT_LAT_MAX_LAT, .reg .QUARRY_PORT_MISS_COUNT, .reg
    .QUARRY_PORT_STAT_OUTSTANDING, .reg .QUARRY_PORT_STAT_URG, .reg .QUARRY_RANK_STATE_STATE, .reg .QUARRY_STATUS_DEGRADED, .reg
    .QUARRY_STATUS_INIT_DONE, .reg .QUARRY_STATUS_MIGRATING, .reg .QUARRY_STATUS_OP_PENDING, .reg .QUARRY_STATUS_RESHAPING, .reg
    .QUARRY_STATUS_SELF_REFRESH, .reg .QUARRY_UE_ADDR_HI_ADDR, .reg .QUARRY_UE_ADDR_HI_BANK, .reg .QUARRY_UE_ADDR_HI_RANK, .reg
    .QUARRY_UE_ADDR_LO_ADDR, .reg .SEC_MB_CMD_OP, .reg .SEC_MB_CMD_TAG, .reg .SEC_MB_STAT_BUSY, .reg .SHADOW_CMD_LATE, .reg .SHADOW_CMD_LC,
    .reg .SHADOW_CMD_MODE, .reg .SHADOW_CMD_PENDING, .reg .SHADOW_CMD_REFUSED, .reg .SPARE_CORE_STATE_ROLE, .reg .SPARE_ELEM_TRIM_E, .reg
    .SPARE_GO_TRIM_GAIN, .reg .SPARE_GO_TRIM_OFFSET, .reg .SPARE_LADDER_TRIM_L, .reg .SPARE_STATUS_CAL_CORE, .reg
    .SPARE_STATUS_FAILOVER_BUSY, .reg .SPARE_STATUS_PHASE, .reg .SPARE_STATUS_SPARE_CORE, .reg .SPARE_STATUS_SPARE_FREE, .reg
    .SPARE_STATUS_VISIT_POS, .reg .STITCH_EVIN_IGNORED_COUNT, .reg .STITCH_EVIN_LATCHED_LATCHED, .reg .STITCH_FAULT_CAUSE, .reg
    .STITCH_FAULT_PC, .reg .STITCH_GANG_READY_READY, .reg .STITCH_LC_GRANT, .reg .STITCH_PUSH_CNT_COUNT, .reg .STITCH_STALL_CNT_COUNT, .reg
    .STITCH_STATUS_CREDIT_WAIT, .reg .STITCH_STATUS_FAULTED, .reg .STITCH_STATUS_GANG_WAIT, .reg .STITCH_STATUS_HALTED, .reg
    .STITCH_STATUS_MC_BANK, .reg .STITCH_STATUS_MC_PENDING, .reg .STITCH_STATUS_RUNNING, .reg .STITCH_STATUS_WAIT_EVENT, .reg
    .STITCH_STATUS_WAIT_TIME, .reg .SYS_ERR_ADDR_HI_ADDR, .reg .SYS_ERR_ADDR_HI_MASTER, .reg .SYS_ERR_ADDR_HI_WRITE, .reg
    .SYS_ERR_ADDR_LO_ADDR, .reg .SYS_RESET_CNT_WARM, .reg .TACK_PUSH_SEL_CH, .reg .TACK_PUSH_STAT_DISCARDING, .reg .TACK_PUSH_STAT_LAST_SEQ,
    .reg .TACK_PUSH_STAT_OPEN, .reg .TACK_PUSH_STAT_REFUSED, .reg .TACK_PUSH_STAT_WORDS_LEFT, .reg .TACK_QCFG_CRED_REG, .reg
    .TACK_QCFG_CRED_STITCH, .reg .TACK_QCFG_FMODE, .reg .TACK_QLEVEL_BROKEN, .reg .TACK_QLEVEL_FLUSH_BUSY, .reg .TACK_RING_CFG_EN, .reg
    .TACK_RING_CFG_SIZE_LOG, .reg .TACK_RING_CFG_SPLIT, .reg .TACK_STATUS_SWEEP, .reg .TBASE_GSTB_CFG_ALIGN_ARM, .reg
    .TBASE_GSTB_CFG_ALIGN_LC, .reg .TBASE_GSTB_CFG_MODE, .reg .TBASE_GSTB_CFG_SINGLE_LC, .reg .TBASE_GSTB_STAT_PENDING, .reg
    .TBASE_LC_CTRL_ARM, .reg .TBASE_LC_CTRL_CLAIMED, .reg .TBASE_LC_CTRL_FRAC, .reg .TBASE_LC_CTRL_OWNER, .reg .TBASE_LC_CTRL_PERIODIC, .reg
    .TBASE_LC_CTRL_SRC_TALLY, .reg .TBASE_LC_CTRL_TAG, .reg .TBASE_LC_LATE, .reg .TBASE_LC_PERIOD_PERIOD, .reg .TBASE_LC_TIME_HI_C_HI, .reg
    .TBASE_LC_TIME_LO_C_LO, .reg .TBASE_TB_CFG_EPOCH_SRC, .reg .TBASE_TB_CFG_HOLD_RESYNC, .reg .TBASE_TB_CFG_REF_MODE, .reg
    .TBASE_TB_CFG_STEP_ALLOW, .reg .TBASE_TB_CFG_TALLY_EN, .reg .TBASE_TB_STATUS_EPOCH_ARMED, .reg .TBASE_TB_STATUS_HOLDOVER, .reg
    .TBASE_TB_STATUS_PLL_LOCKED, .reg .TBASE_TB_STATUS_REF_PRESENT, .reg .TBASE_TB_STATUS_SLEWING, .reg .TBASE_TB_STATUS_TALLY_SYNC, .reg
    .XSPI_LD_CTL_IMAGE, .reg .XSPI_LD_DONE_BYTES, .reg .XSPI_LD_ENTRIES_COUNT, .reg .XSPI_LD_RESUME_POINT, .reg .XSPI_LD_STAT_BUSY, .reg
    .XSPI_LD_STAT_ENTRY, .reg .XSPI_LD_STAT_REFUSED, .reg .XSPI_LD_STAT_RELEASED, .reg .XSPI_LD_STAT_STOP, .reg .XSPI_RAW_CMD_ALEN, .reg
    .XSPI_RAW_CMD_DIR, .reg .XSPI_RAW_CMD_DLEN, .reg .XSPI_RAW_CMD_DUMMY, .reg .XSPI_RAW_CMD_OP, .reg .XSPI_RAW_CMD_REFUSED, .reg
    .XSPI_STATUS_RAW_BUSY, .dev, .eff, .cap, .held, .readData, .presented, .commits, .holdoff, .mem, .poison, .epoch, .lcs, .lcGen, .clocks,
    .gstbs, .wheels, .cses, .stitchers, .queues, .staging, .rings, .outs, .lines, .pins, .capus, .evin, .nvmQueue, .ports, .ldr, .sec, .pwr,
    .qry, .ben, .missed, .tiers, .trimDue, .fwUp, .free] m) (a1 : Master) (a2 : Page) (a3 : Chan) (a4 a5 : Bool) : Ends m s0 (execOwnerWrite
    a1 a2 a3 a4 a5 s) := by
  refine act_keeps (fun t ht => on_keeps (fun u hu => gate_keeps hu (Within.trans (Eq.refl _) hw) _ _ _ _ _ _ (fun v hv => ?_)) ht) h
  show Keeps m s0 (if writerOk v a2 0x18 a1.val = false then recordErr a2 a3.val errOwnerDenied a1.val true (0x18 / 4) v
    else writeOwner a2 a3.val a1.val ((if a4 then 0x20 else 0) + (if a5 then 0x40 else 0)) v)
  exact Keeps.ite (recordErr_keeps hv (Within.trans (Eq.refl _) hw) ..) (writeOwner_keeps hv (Within.trans (Eq.refl _) hw) ..)

theorem setPointer_keeps (h : Keeps m s0 s) (hw : Within [.reg .I3C_PTR_HI_ADDR, .reg .I3C_PTR_HI_INC, .reg .I3C_PTR_LO_ADDR] m) (a1 :
    Nat) (a2 : Nat) (a3 : Nat) : Keeps m s0 (setPointer a1 a2 a3 s) := by
  unfold setPointer
  try dsimp only
  repeat' first
    | with_reducible assumption
    | exact Within.trans (Eq.refl _) hw
    | with_reducible apply wr_keeps

theorem frameWord_keeps (h : Keeps m s0 s) (hw : Whole m) (a1 : Nat) (a2 : Nat) (a3 : Nat) : Keeps m s0 (frameWord a1 a2 a3 s) := by
  unfold frameWord
  try dsimp only
  repeat' first
    | with_reducible assumption
    | exact hw
    | exact hw.within _
    | with_reducible apply busWrite_keeps
    | with_reducible apply writeReg_keeps
    | with_reducible apply Keeps.ite
    | split
    | with_reducible refine Keeps.of_snd (by assumption) ?_

theorem frameWords_keeps (h : Keeps m s0 s) (hw : Whole m) (a1 a2 a3 : Nat) (a4 : List Nat) :
    Keeps m s0 (frameWords a1 a2 a3 a4 s) := by
  induction a4 generalizing s a3 with
  | nil => exact h
  | cons v vs ih => exact ih (frameWord_keeps h hw ..) _

theorem regWrite_keeps (h : Keeps m s0 s) (hw : Whole m) (a1 : Nat) (a2 : Frame) : Keeps m s0 (regWrite a1 a2 s) := by
  unfold regWrite
  try dsimp only
  repeat' first
    | with_reducible assumption
    | exact hw
    | exact hw.within _
    | with_reducible apply inc_keeps
    | with_reducible apply State.setPort_keeps
    | with_reducible apply frameWords_keeps
    | with_reducible apply setPointer_keeps
    | with_reducible apply Keeps.ite
    | split
    | with_reducible refine Keeps.of_snd (by assumption) ?_

theorem execRegWrite_keeps (h : Keeps m s0 s) (hw : Whole m) (a1 : Fin 2) (a2 : List Byte) (a3 : Fin 3) : Ends m s0 (execRegWrite a1 a2
    a3 s)
    := by
  unfold execRegWrite
  try dsimp only
  repeat' first
    | with_reducible assumption
    | exact hw
    | exact hw.within _
    | (intro _)
    | with_reducible apply regWrite_keeps
    | with_reducible apply takeFrame_keeps
    | with_reducible apply Ends.ite
    | with_reducible apply Ends.next
    | split

theorem pointerRead_keeps (h : Keeps m s0 s) (hw : Within [.reg .BENCH_ALIAS_LAST_PRIOR, .reg .BENCH_ALIAS_STAT_POISON, .reg
    .BENCH_ALIAS_STAT_VALID, .reg .BENCH_BENCH_HEALTH_HEALTH, .reg .BENCH_BIST_STAT_PHASE, .reg .BENCH_BPWR_STAT_STATE, .reg
    .BENCH_COLL_CNT_COUNT, .reg .BENCH_COLL_STAT_STREAMER, .reg .BENCH_ECC_CNT_CE, .reg .BENCH_ECC_CNT_UE, .reg .BENCH_STATUS_BIST_BUSY,
    .reg .BENCH_STATUS_SPARE_FREE, .reg .BENCH_UE_ADDR_IN_SPARE, .reg .BENCH_UE_ADDR_OFFSET, .reg .CSE_CLIP_CNT_CLIP, .reg
    .CSE_DISCARD_CNT_DISCARD, .reg .CSE_LATE_CNT_LATE, .reg .ERR_CODE_CODE, .reg .ERR_CODE_MASTER, .reg .ERR_CODE_OVF, .reg .ERR_CODE_WORD,
    .reg .ERR_CODE_WRITE, .reg .EVT_PEND_PEND, .reg .EVT_RAW_RAW, .reg .HARNESS_CAPU_CFG_LEVEL, .reg .HARNESS_CAPU_TIME_HI_C_HI, .reg
    .HARNESS_CAPU_TIME_LO_C_LO, .reg .HARNESS_LCNT_FIRED_FIRED, .reg .HARNESS_LCNT_MERGE_COINCIDENT, .reg .HARNESS_LCNT_MERGE_SUPPRESSED,
    .reg .HARNESS_LCNT_OVR_OVERRUN, .reg .I3C_FRAME_STAT_FRAME_ERR, .reg .I3C_IBI_CNT_NACKS, .reg .I3C_IBI_CNT_SENT, .reg
    .I3C_TUN_STAT_RETRY_CNT, .reg .OUT_SC_CNT_OVERTEMPS, .reg .OUT_SC_CNT_SHORTS, .reg .OUT_SQ_UCNT_COUNT, .reg .PAT_PAT_DROP_COUNT, .reg
    .POWER_PACE_MIN, .reg .POWER_RESIDENCY_MS, .reg .POWER_STATUS_ENTERING, .reg .POWER_STATUS_EXITING, .reg .POWER_THERM_STAT_PEAK, .reg
    .POWER_WAKE_STAT_CLASS, .reg .POWER_WAKE_STAT_FROM, .reg .QCLK_MISSED_MISSED, .reg .QPHY_CMP_ERRCNT_COUNT, .reg
    .QPHY_DRIFT_STAT_MAX_STEP, .reg .QUARRY_CAPACITY_N_ACTIVE, .reg .QUARRY_ECC_CNT_CE, .reg .QUARRY_ECC_CNT_UE, .reg .QUARRY_LRMAP_MAP,
    .reg .QUARRY_LRMAP_SPARE, .reg .QUARRY_PORT_LAT_MAX_LAT, .reg .QUARRY_PORT_MISS_COUNT, .reg .QUARRY_PORT_STAT_OUTSTANDING, .reg
    .QUARRY_PORT_STAT_URG, .reg .QUARRY_RANK_STATE_STATE, .reg .QUARRY_RD_STAT_EVENTS, .reg .QUARRY_STATUS_DEGRADED, .reg
    .QUARRY_STATUS_MIGRATING, .reg .QUARRY_UE_ADDR_HI_ADDR, .reg .QUARRY_UE_ADDR_HI_BANK, .reg .QUARRY_UE_ADDR_HI_RANK, .reg
    .QUARRY_UE_ADDR_LO_ADDR, .reg .SPARE_FAIL_CNT_FAILOVERS, .reg .SPARE_FAIL_CNT_RETIRES, .reg .STITCH_EVIN_IGNORED_COUNT, .reg
    .STITCH_PUSH_CNT_COUNT, .reg .STITCH_STALL_CNT_COUNT, .reg .SYS_ERR_ADDR_HI_ADDR, .reg .SYS_ERR_ADDR_HI_MASTER, .reg
    .SYS_ERR_ADDR_HI_WRITE, .reg .SYS_ERR_ADDR_LO_ADDR, .reg .TACK_CNT_LINK_CORRECTED, .reg .TACK_CNT_LINK_FAILED, .reg
    .TACK_CNT_POISON_COUNT, .reg .TACK_CNT_TORN_COUNT, .reg .TACK_RING_UCNT_COUNT, .reg .TBASE_TALLY_CNT_CRC_ERR, .reg
    .TBASE_TALLY_CNT_DROPPED, .held, .readData, .presented, .holdoff, .mem, .poison, .capus, .pwr, .qry, .ben, .missed, .free] m) (a1 : Nat)
    : Keeps m s0 (pointerRead a1 s).2 := by
  unfold pointerRead
  try dsimp only
  repeat' first
    | with_reducible assumption
    | exact Within.trans (Eq.refl _) hw
    | with_reducible apply busRead_keeps
    | with_reducible apply readReg_keeps
    | with_reducible apply Keeps.ite
    | split
    | with_reducible refine Keeps.of_snd (by assumption) ?_

theorem advance_keeps (h : Keeps m s0 s) (hw : Within [.reg .I3C_PTR_HI_ADDR, .reg .I3C_PTR_HI_INC, .reg .I3C_PTR_LO_ADDR] m) (a1 : Nat)
    : Keeps m s0 (advance a1 s) := by
  unfold advance
  try dsimp only
  repeat' first
    | with_reducible assumption
    | exact Within.trans (Eq.refl _) hw
    | with_reducible apply setPointer_keeps
    | with_reducible apply Keeps.ite
    | split

theorem pointerBytes_keeps (h : Keeps m s0 s) (hw : Within [.reg .BENCH_ALIAS_LAST_PRIOR, .reg .BENCH_ALIAS_STAT_POISON, .reg
    .BENCH_ALIAS_STAT_VALID, .reg .BENCH_BENCH_HEALTH_HEALTH, .reg .BENCH_BIST_STAT_PHASE, .reg .BENCH_BPWR_STAT_STATE, .reg
    .BENCH_COLL_CNT_COUNT, .reg .BENCH_COLL_STAT_STREAMER, .reg .BENCH_ECC_CNT_CE, .reg .BENCH_ECC_CNT_UE, .reg .BENCH_STATUS_BIST_BUSY,
    .reg .BENCH_STATUS_SPARE_FREE, .reg .BENCH_UE_ADDR_IN_SPARE, .reg .BENCH_UE_ADDR_OFFSET, .reg .CSE_CLIP_CNT_CLIP, .reg
    .CSE_DISCARD_CNT_DISCARD, .reg .CSE_LATE_CNT_LATE, .reg .ERR_CODE_CODE, .reg .ERR_CODE_MASTER, .reg .ERR_CODE_OVF, .reg .ERR_CODE_WORD,
    .reg .ERR_CODE_WRITE, .reg .EVT_PEND_PEND, .reg .EVT_RAW_RAW, .reg .HARNESS_CAPU_CFG_LEVEL, .reg .HARNESS_CAPU_TIME_HI_C_HI, .reg
    .HARNESS_CAPU_TIME_LO_C_LO, .reg .HARNESS_LCNT_FIRED_FIRED, .reg .HARNESS_LCNT_MERGE_COINCIDENT, .reg .HARNESS_LCNT_MERGE_SUPPRESSED,
    .reg .HARNESS_LCNT_OVR_OVERRUN, .reg .I3C_FRAME_STAT_FRAME_ERR, .reg .I3C_IBI_CNT_NACKS, .reg .I3C_IBI_CNT_SENT, .reg .I3C_PTR_HI_ADDR,
    .reg .I3C_PTR_HI_INC, .reg .I3C_PTR_LO_ADDR, .reg .I3C_TUN_STAT_RETRY_CNT, .reg .OUT_SC_CNT_OVERTEMPS, .reg .OUT_SC_CNT_SHORTS, .reg
    .OUT_SQ_UCNT_COUNT, .reg .PAT_PAT_DROP_COUNT, .reg .POWER_PACE_MIN, .reg .POWER_RESIDENCY_MS, .reg .POWER_STATUS_ENTERING, .reg
    .POWER_STATUS_EXITING, .reg .POWER_THERM_STAT_PEAK, .reg .POWER_WAKE_STAT_CLASS, .reg .POWER_WAKE_STAT_FROM, .reg .QCLK_MISSED_MISSED,
    .reg .QPHY_CMP_ERRCNT_COUNT, .reg .QPHY_DRIFT_STAT_MAX_STEP, .reg .QUARRY_CAPACITY_N_ACTIVE, .reg .QUARRY_ECC_CNT_CE, .reg
    .QUARRY_ECC_CNT_UE, .reg .QUARRY_LRMAP_MAP, .reg .QUARRY_LRMAP_SPARE, .reg .QUARRY_PORT_LAT_MAX_LAT, .reg .QUARRY_PORT_MISS_COUNT, .reg
    .QUARRY_PORT_STAT_OUTSTANDING, .reg .QUARRY_PORT_STAT_URG, .reg .QUARRY_RANK_STATE_STATE, .reg .QUARRY_RD_STAT_EVENTS, .reg
    .QUARRY_STATUS_DEGRADED, .reg .QUARRY_STATUS_MIGRATING, .reg .QUARRY_UE_ADDR_HI_ADDR, .reg .QUARRY_UE_ADDR_HI_BANK, .reg
    .QUARRY_UE_ADDR_HI_RANK, .reg .QUARRY_UE_ADDR_LO_ADDR, .reg .SPARE_FAIL_CNT_FAILOVERS, .reg .SPARE_FAIL_CNT_RETIRES, .reg
    .STITCH_EVIN_IGNORED_COUNT, .reg .STITCH_PUSH_CNT_COUNT, .reg .STITCH_STALL_CNT_COUNT, .reg .SYS_ERR_ADDR_HI_ADDR, .reg
    .SYS_ERR_ADDR_HI_MASTER, .reg .SYS_ERR_ADDR_HI_WRITE, .reg .SYS_ERR_ADDR_LO_ADDR, .reg .TACK_CNT_LINK_CORRECTED, .reg
    .TACK_CNT_LINK_FAILED, .reg .TACK_CNT_POISON_COUNT, .reg .TACK_CNT_TORN_COUNT, .reg .TACK_RING_UCNT_COUNT, .reg
    .TBASE_TALLY_CNT_CRC_ERR, .reg .TBASE_TALLY_CNT_DROPPED, .held, .readData, .presented, .holdoff, .mem, .poison, .capus, .pwr, .qry,
    .ben, .missed, .free] m) (a1 a2 a3 : Nat) : Keeps m s0 (pointerBytes a1 a2 a3 s).2 := by
  induction a2 generalizing s with
  | zero =>
    unfold pointerBytes
    split
    · exact h
    · exact pointerRead_keeps h (Within.trans (Eq.refl _) hw) ..
  | succ n ih => exact ih (advance_keeps (pointerRead_keeps h (Within.trans (Eq.refl _) hw) ..) (Within.trans (Eq.refl _) hw) ..)

theorem execPrivateRead_keeps (h : Keeps m s0 s) (hw : Within [.reg .BENCH_ALIAS_LAST_PRIOR, .reg .BENCH_ALIAS_STAT_POISON, .reg
    .BENCH_ALIAS_STAT_VALID, .reg .BENCH_BENCH_HEALTH_HEALTH, .reg .BENCH_BIST_STAT_PHASE, .reg .BENCH_BPWR_STAT_STATE, .reg
    .BENCH_COLL_CNT_COUNT, .reg .BENCH_COLL_STAT_STREAMER, .reg .BENCH_ECC_CNT_CE, .reg .BENCH_ECC_CNT_UE, .reg .BENCH_STATUS_BIST_BUSY,
    .reg .BENCH_STATUS_SPARE_FREE, .reg .BENCH_UE_ADDR_IN_SPARE, .reg .BENCH_UE_ADDR_OFFSET, .reg .CSE_CLIP_CNT_CLIP, .reg
    .CSE_DISCARD_CNT_DISCARD, .reg .CSE_LATE_CNT_LATE, .reg .ERR_CODE_CODE, .reg .ERR_CODE_MASTER, .reg .ERR_CODE_OVF, .reg .ERR_CODE_WORD,
    .reg .ERR_CODE_WRITE, .reg .EVT_PEND_PEND, .reg .EVT_RAW_RAW, .reg .HARNESS_CAPU_CFG_LEVEL, .reg .HARNESS_CAPU_TIME_HI_C_HI, .reg
    .HARNESS_CAPU_TIME_LO_C_LO, .reg .HARNESS_LCNT_FIRED_FIRED, .reg .HARNESS_LCNT_MERGE_COINCIDENT, .reg .HARNESS_LCNT_MERGE_SUPPRESSED,
    .reg .HARNESS_LCNT_OVR_OVERRUN, .reg .I3C_FRAME_STAT_FRAME_ERR, .reg .I3C_IBI_CNT_NACKS, .reg .I3C_IBI_CNT_SENT, .reg .I3C_PTR_HI_ADDR,
    .reg .I3C_PTR_HI_INC, .reg .I3C_PTR_LO_ADDR, .reg .I3C_TUN_STAT_RETRY_CNT, .reg .OUT_SC_CNT_OVERTEMPS, .reg .OUT_SC_CNT_SHORTS, .reg
    .OUT_SQ_UCNT_COUNT, .reg .PAT_PAT_DROP_COUNT, .reg .POWER_PACE_MIN, .reg .POWER_RESIDENCY_MS, .reg .POWER_STATUS_ENTERING, .reg
    .POWER_STATUS_EXITING, .reg .POWER_THERM_STAT_PEAK, .reg .POWER_WAKE_STAT_CLASS, .reg .POWER_WAKE_STAT_FROM, .reg .QCLK_MISSED_MISSED,
    .reg .QPHY_CMP_ERRCNT_COUNT, .reg .QPHY_DRIFT_STAT_MAX_STEP, .reg .QUARRY_CAPACITY_N_ACTIVE, .reg .QUARRY_ECC_CNT_CE, .reg
    .QUARRY_ECC_CNT_UE, .reg .QUARRY_LRMAP_MAP, .reg .QUARRY_LRMAP_SPARE, .reg .QUARRY_PORT_LAT_MAX_LAT, .reg .QUARRY_PORT_MISS_COUNT, .reg
    .QUARRY_PORT_STAT_OUTSTANDING, .reg .QUARRY_PORT_STAT_URG, .reg .QUARRY_RANK_STATE_STATE, .reg .QUARRY_RD_STAT_EVENTS, .reg
    .QUARRY_STATUS_DEGRADED, .reg .QUARRY_STATUS_MIGRATING, .reg .QUARRY_UE_ADDR_HI_ADDR, .reg .QUARRY_UE_ADDR_HI_BANK, .reg
    .QUARRY_UE_ADDR_HI_RANK, .reg .QUARRY_UE_ADDR_LO_ADDR, .reg .SPARE_FAIL_CNT_FAILOVERS, .reg .SPARE_FAIL_CNT_RETIRES, .reg
    .STITCH_EVIN_IGNORED_COUNT, .reg .STITCH_PUSH_CNT_COUNT, .reg .STITCH_STALL_CNT_COUNT, .reg .SYS_ERR_ADDR_HI_ADDR, .reg
    .SYS_ERR_ADDR_HI_MASTER, .reg .SYS_ERR_ADDR_HI_WRITE, .reg .SYS_ERR_ADDR_LO_ADDR, .reg .TACK_CNT_LINK_CORRECTED, .reg
    .TACK_CNT_LINK_FAILED, .reg .TACK_CNT_POISON_COUNT, .reg .TACK_CNT_TORN_COUNT, .reg .TACK_RING_UCNT_COUNT, .reg
    .TBASE_TALLY_CNT_CRC_ERR, .reg .TBASE_TALLY_CNT_DROPPED, .held, .readData, .presented, .holdoff, .mem, .poison, .capus, .ports, .pwr,
    .qry, .ben, .missed, .free] m) (a1 : Fin 2) (a2 : BitVec 12) : Ends m s0 (execPrivateRead a1 a2 s) := by
  unfold execPrivateRead
  try dsimp only
  repeat' first
    | with_reducible assumption
    | exact Within.trans (Eq.refl _) hw
    | (intro _)
    | with_reducible apply on_keeps
    | with_reducible apply pointerBytes_keeps
    | with_reducible apply transfer_keeps
    | with_reducible apply Ends.ite
    | with_reducible apply Ends.next
    | split
    | with_reducible refine Keeps.of_snd (by assumption) ?_
    | (with_reducible apply Keeps.of_fields <;>
        first | with_reducible exact rfl | with_reducible exact Or.inl rfl | exact Or.inr (Within.trans (Eq.refl _) hw) | skip)

end Sys2Proof.Machine
end

