-- ==== Sys2Proof/Laws/JumpsKeeps.lean ====
section
/-! SUPPORT. What the operations of Machine/Jumps.lean keep: the queue, the invariant, and every part outside their footprint. -/

set_option maxRecDepth 4000
set_option linter.unusedTactic false
set_option linter.unreachableTactic false

namespace Sys2Proof.Machine

variable {m : Nat} {s0 s : State}

theorem aimAlternate_keeps (h : Keeps m s0 s) (hw : Within [.cses] m) (a1 : Nat) (a2 : Descr) : Keeps m s0 (aimAlternate a1 a2 s) := by
  unfold aimAlternate
  try dsimp only
  repeat' first
    | with_reducible assumption
    | exact Within.trans (Eq.refl _) hw
    | with_reducible apply State.setCse_keeps
    | with_reducible apply Keeps.ite
    | split

theorem takeAlternate_keeps (h : Keeps m s0 s) (hw : Within [.reg .BENCH_BENCH_HEALTH_HEALTH, .reg .BENCH_BIST_STAT_PHASE, .reg
    .BENCH_BPWR_STAT_STATE, .reg .BENCH_ECC_CNT_CE, .reg .BENCH_ECC_CNT_UE, .reg .BENCH_STATUS_BIST_BUSY, .reg .BENCH_STATUS_SPARE_FREE,
    .reg .BENCH_UE_ADDR_IN_SPARE, .reg .BENCH_UE_ADDR_OFFSET, .reg .CSE_DISCARD_CNT_DISCARD, .reg .CSE_LATE_CNT_LATE, .reg .ERR_CODE_CODE,
    .reg .ERR_CODE_MASTER, .reg .ERR_CODE_OVF, .reg .ERR_CODE_WORD, .reg .ERR_CODE_WRITE, .reg .EVT_PEND_PEND, .reg .EVT_RAW_RAW, .reg
    .POWER_STATUS_ENTERING, .reg .POWER_STATUS_EXITING, .reg .POWER_WAKE_STAT_CLASS, .reg .POWER_WAKE_STAT_FROM, .reg
    .QUARRY_CAPACITY_N_ACTIVE, .reg .QUARRY_ECC_CNT_CE, .reg .QUARRY_ECC_CNT_UE, .reg .QUARRY_LRMAP_MAP, .reg .QUARRY_LRMAP_SPARE, .reg
    .QUARRY_RANK_STATE_STATE, .reg .QUARRY_STATUS_DEGRADED, .reg .QUARRY_STATUS_MIGRATING, .reg .QUARRY_UE_ADDR_HI_ADDR, .reg
    .QUARRY_UE_ADDR_HI_BANK, .reg .QUARRY_UE_ADDR_HI_RANK, .reg .QUARRY_UE_ADDR_LO_ADDR, .reg .SYS_ERR_ADDR_HI_ADDR, .reg
    .SYS_ERR_ADDR_HI_MASTER, .reg .SYS_ERR_ADDR_HI_WRITE, .reg .SYS_ERR_ADDR_LO_ADDR, .presented, .holdoff, .poison, .cses, .rings, .pwr,
    .qry, .ben, .free] m) (a1 : Nat) : Keeps m s0 (takeAlternate a1 s) := by
  unfold takeAlternate
  try dsimp only
  repeat' first
    | with_reducible assumption
    | exact Within.trans (Eq.refl _) hw
    | with_reducible apply inc_keeps
    | with_reducible apply State.setCse_keeps
    | with_reducible apply State.setRing_keeps
    | with_reducible apply countDiscard_keeps
    | with_reducible apply noteSegment_keeps
    | with_reducible apply raise_keeps
    | with_reducible apply Keeps.ite
    | split

theorem loadAlternate_keeps (h : Keeps m s0 s) (hw : Within [.reg .BENCH_BENCH_HEALTH_HEALTH, .reg .BENCH_BIST_STAT_PHASE, .reg
    .BENCH_BPWR_STAT_STATE, .reg .BENCH_ECC_CNT_CE, .reg .BENCH_ECC_CNT_UE, .reg .BENCH_STATUS_BIST_BUSY, .reg .BENCH_STATUS_SPARE_FREE,
    .reg .BENCH_UE_ADDR_IN_SPARE, .reg .BENCH_UE_ADDR_OFFSET, .reg .CSE_DISCARD_CNT_DISCARD, .reg .CSE_LATE_CNT_LATE, .reg .ERR_CODE_CODE,
    .reg .ERR_CODE_MASTER, .reg .ERR_CODE_OVF, .reg .ERR_CODE_WORD, .reg .ERR_CODE_WRITE, .reg .EVT_PEND_PEND, .reg .EVT_RAW_RAW, .reg
    .POWER_STATUS_ENTERING, .reg .POWER_STATUS_EXITING, .reg .POWER_WAKE_STAT_CLASS, .reg .POWER_WAKE_STAT_FROM, .reg
    .QUARRY_CAPACITY_N_ACTIVE, .reg .QUARRY_ECC_CNT_CE, .reg .QUARRY_ECC_CNT_UE, .reg .QUARRY_LRMAP_MAP, .reg .QUARRY_LRMAP_SPARE, .reg
    .QUARRY_RANK_STATE_STATE, .reg .QUARRY_STATUS_DEGRADED, .reg .QUARRY_STATUS_MIGRATING, .reg .QUARRY_UE_ADDR_HI_ADDR, .reg
    .QUARRY_UE_ADDR_HI_BANK, .reg .QUARRY_UE_ADDR_HI_RANK, .reg .QUARRY_UE_ADDR_LO_ADDR, .reg .SYS_ERR_ADDR_HI_ADDR, .reg
    .SYS_ERR_ADDR_HI_MASTER, .reg .SYS_ERR_ADDR_HI_WRITE, .reg .SYS_ERR_ADDR_LO_ADDR, .presented, .holdoff, .poison, .cses, .rings, .outs,
    .pwr, .qry, .ben, .free] m) (a1 : Nat) (a2 : Nat) (a3 : List Nat) : Keeps m s0 (loadAlternate a1 a2 a3 s) := by
  unfold loadAlternate
  try dsimp only
  repeat' first
    | with_reducible assumption
    | exact Within.trans (Eq.refl _) hw
    | with_reducible apply State.setCse_keeps
    | with_reducible apply aimAlternate_keeps
    | with_reducible apply dropAlternate_keeps
    | with_reducible apply takeAlternate_keeps

theorem unnameChannel_keeps (h : Keeps m s0 s) (hw : Within [.stitchers] m) (a1 : Nat) (a2 : Nat) : Keeps m s0 (unnameChannel a1 a2 s)
    := by
  unfold unnameChannel
  try dsimp only
  repeat' first
    | with_reducible assumption
    | exact Within.trans (Eq.refl _) hw
    | (intro _)
    | with_reducible apply each_keeps
    | with_reducible apply setArmed_keeps
    | split

theorem armInput_keeps (h : Keeps m s0 s) (hw : Within [.reg .BENCH_BENCH_HEALTH_HEALTH, .reg .BENCH_BIST_STAT_PHASE, .reg
    .BENCH_BPWR_STAT_STATE, .reg .BENCH_ECC_CNT_CE, .reg .BENCH_ECC_CNT_UE, .reg .BENCH_STATUS_BIST_BUSY, .reg .BENCH_STATUS_SPARE_FREE,
    .reg .BENCH_UE_ADDR_IN_SPARE, .reg .BENCH_UE_ADDR_OFFSET, .reg .CSE_DISCARD_CNT_DISCARD, .reg .CSE_LATE_CNT_LATE, .reg .ERR_CODE_CODE,
    .reg .ERR_CODE_MASTER, .reg .ERR_CODE_OVF, .reg .ERR_CODE_WORD, .reg .ERR_CODE_WRITE, .reg .EVT_PEND_PEND, .reg .EVT_RAW_RAW, .reg
    .POWER_STATUS_ENTERING, .reg .POWER_STATUS_EXITING, .reg .POWER_WAKE_STAT_CLASS, .reg .POWER_WAKE_STAT_FROM, .reg
    .QUARRY_CAPACITY_N_ACTIVE, .reg .QUARRY_ECC_CNT_CE, .reg .QUARRY_ECC_CNT_UE, .reg .QUARRY_LRMAP_MAP, .reg .QUARRY_LRMAP_SPARE, .reg
    .QUARRY_RANK_STATE_STATE, .reg .QUARRY_STATUS_DEGRADED, .reg .QUARRY_STATUS_MIGRATING, .reg .QUARRY_UE_ADDR_HI_ADDR, .reg
    .QUARRY_UE_ADDR_HI_BANK, .reg .QUARRY_UE_ADDR_HI_RANK, .reg .QUARRY_UE_ADDR_LO_ADDR, .reg .SYS_ERR_ADDR_HI_ADDR, .reg
    .SYS_ERR_ADDR_HI_MASTER, .reg .SYS_ERR_ADDR_HI_WRITE, .reg .SYS_ERR_ADDR_LO_ADDR, .presented, .holdoff, .poison, .cses, .stitchers,
    .rings, .outs, .pwr, .qry, .ben, .free] m) (a1 : Nat) (a2 : Nat) (a3 : List Nat) : Keeps m s0 (armInput a1 a2 a3 s) := by
  unfold armInput
  try dsimp only
  repeat' first
    | with_reducible assumption
    | exact Within.trans (Eq.refl _) hw
    | (intro _)
    | with_reducible apply each_keeps
    | with_reducible apply disarmInput_keeps
    | with_reducible apply loadAlternate_keeps
    | with_reducible apply nextPc_keeps
    | with_reducible apply setArmed_keeps
    | with_reducible apply unnameChannel_keeps

theorem armOp_keeps (h : Keeps m s0 s) (hw : Within [.reg .BENCH_BENCH_HEALTH_HEALTH, .reg .BENCH_BIST_STAT_PHASE, .reg
    .BENCH_BPWR_STAT_STATE, .reg .BENCH_ECC_CNT_CE, .reg .BENCH_ECC_CNT_UE, .reg .BENCH_STATUS_BIST_BUSY, .reg .BENCH_STATUS_SPARE_FREE,
    .reg .BENCH_UE_ADDR_IN_SPARE, .reg .BENCH_UE_ADDR_OFFSET, .reg .CSE_DISCARD_CNT_DISCARD, .reg .CSE_LATE_CNT_LATE, .reg .ERR_CODE_CODE,
    .reg .ERR_CODE_MASTER, .reg .ERR_CODE_OVF, .reg .ERR_CODE_WORD, .reg .ERR_CODE_WRITE, .reg .EVT_PEND_PEND, .reg .EVT_RAW_RAW, .reg
    .POWER_STATUS_ENTERING, .reg .POWER_STATUS_EXITING, .reg .POWER_WAKE_STAT_CLASS, .reg .POWER_WAKE_STAT_FROM, .reg
    .QUARRY_CAPACITY_N_ACTIVE, .reg .QUARRY_ECC_CNT_CE, .reg .QUARRY_ECC_CNT_UE, .reg .QUARRY_LRMAP_MAP, .reg .QUARRY_LRMAP_SPARE, .reg
    .QUARRY_RANK_STATE_STATE, .reg .QUARRY_STATUS_DEGRADED, .reg .QUARRY_STATUS_MIGRATING, .reg .QUARRY_UE_ADDR_HI_ADDR, .reg
    .QUARRY_UE_ADDR_HI_BANK, .reg .QUARRY_UE_ADDR_HI_RANK, .reg .QUARRY_UE_ADDR_LO_ADDR, .reg .STITCH_FAULT_CAUSE, .reg .STITCH_FAULT_PC,
    .reg .STITCH_GANG_READY_READY, .reg .STITCH_STATUS_CREDIT_WAIT, .reg .STITCH_STATUS_FAULTED, .reg .STITCH_STATUS_GANG_WAIT, .reg
    .STITCH_STATUS_RUNNING, .reg .STITCH_STATUS_WAIT_EVENT, .reg .STITCH_STATUS_WAIT_TIME, .reg .SYS_ERR_ADDR_HI_ADDR, .reg
    .SYS_ERR_ADDR_HI_MASTER, .reg .SYS_ERR_ADDR_HI_WRITE, .reg .SYS_ERR_ADDR_LO_ADDR, .presented, .holdoff, .poison, .cses, .stitchers,
    .rings, .outs, .pwr, .qry, .ben, .free] m) (a1 : Nat) (a2 : Nat) : Keeps m s0 (armOp a1 a2 s) := by
  unfold armOp
  try dsimp only
  repeat' first
    | with_reducible assumption
    | exact Within.trans (Eq.refl _) hw
    | with_reducible apply armInput_keeps
    | with_reducible apply noteTemplate_keeps
    | with_reducible apply stitchFault_keeps
    | with_reducible apply Keeps.ite
    | split

theorem execArm_keeps (h : Keeps m s0 s) (hw : Within [.reg .BENCH_BENCH_HEALTH_HEALTH, .reg .BENCH_BIST_STAT_PHASE, .reg
    .BENCH_BPWR_STAT_STATE, .reg .BENCH_ECC_CNT_CE, .reg .BENCH_ECC_CNT_UE, .reg .BENCH_STATUS_BIST_BUSY, .reg .BENCH_STATUS_SPARE_FREE,
    .reg .BENCH_UE_ADDR_IN_SPARE, .reg .BENCH_UE_ADDR_OFFSET, .reg .CSE_DISCARD_CNT_DISCARD, .reg .CSE_LATE_CNT_LATE, .reg .ERR_CODE_CODE,
    .reg .ERR_CODE_MASTER, .reg .ERR_CODE_OVF, .reg .ERR_CODE_WORD, .reg .ERR_CODE_WRITE, .reg .EVT_PEND_PEND, .reg .EVT_RAW_RAW, .reg
    .POWER_STATUS_ENTERING, .reg .POWER_STATUS_EXITING, .reg .POWER_WAKE_STAT_CLASS, .reg .POWER_WAKE_STAT_FROM, .reg
    .QUARRY_CAPACITY_N_ACTIVE, .reg .QUARRY_ECC_CNT_CE, .reg .QUARRY_ECC_CNT_UE, .reg .QUARRY_LRMAP_MAP, .reg .QUARRY_LRMAP_SPARE, .reg
    .QUARRY_RANK_STATE_STATE, .reg .QUARRY_STATUS_DEGRADED, .reg .QUARRY_STATUS_MIGRATING, .reg .QUARRY_UE_ADDR_HI_ADDR, .reg
    .QUARRY_UE_ADDR_HI_BANK, .reg .QUARRY_UE_ADDR_HI_RANK, .reg .QUARRY_UE_ADDR_LO_ADDR, .reg .STITCH_FAULT_CAUSE, .reg .STITCH_FAULT_PC,
    .reg .STITCH_GANG_READY_READY, .reg .STITCH_STATUS_CREDIT_WAIT, .reg .STITCH_STATUS_FAULTED, .reg .STITCH_STATUS_GANG_WAIT, .reg
    .STITCH_STATUS_RUNNING, .reg .STITCH_STATUS_WAIT_EVENT, .reg .STITCH_STATUS_WAIT_TIME, .reg .SYS_ERR_ADDR_HI_ADDR, .reg
    .SYS_ERR_ADDR_HI_MASTER, .reg .SYS_ERR_ADDR_HI_WRITE, .reg .SYS_ERR_ADDR_LO_ADDR, .presented, .holdoff, .poison, .cses, .stitchers,
    .rings, .outs, .pwr, .qry, .ben, .free] m) (a1 : Quad) : Ends m s0 (execArm a1 s) := by
  unfold execArm
  try dsimp only
  repeat' first
    | with_reducible assumption
    | exact Within.trans (Eq.refl _) hw
    | (intro _)
    | with_reducible apply act_keeps
    | with_reducible apply armOp_keeps
    | with_reducible apply runOp_keeps
    | with_reducible apply Keeps.ite
    | with_reducible apply Ends.ite
    | with_reducible apply Ends.next
    | split

theorem execDisarm_keeps (h : Keeps m s0 s) (hw : Within [.cses, .stitchers, .outs] m) (a1 : Quad) : Ends m s0 (execDisarm a1 s) := by
  unfold execDisarm
  try dsimp only
  repeat' first
    | with_reducible assumption
    | exact Within.trans (Eq.refl _) hw
    | (intro _)
    | with_reducible apply act_keeps
    | with_reducible apply disarmInput_keeps
    | with_reducible apply nextPc_keeps
    | with_reducible apply runOp_keeps
    | with_reducible apply Keeps.ite
    | with_reducible apply Ends.ite
    | with_reducible apply Ends.next
    | split

theorem execRingRefill_keeps (h : Keeps m s0 s) (hw : Within [.reg .BENCH_BENCH_HEALTH_HEALTH, .reg .BENCH_BIST_STAT_PHASE, .reg
    .BENCH_BPWR_STAT_STATE, .reg .BENCH_ECC_CNT_CE, .reg .BENCH_ECC_CNT_UE, .reg .BENCH_STATUS_BIST_BUSY, .reg .BENCH_STATUS_SPARE_FREE,
    .reg .BENCH_UE_ADDR_IN_SPARE, .reg .BENCH_UE_ADDR_OFFSET, .reg .CSE_DISCARD_CNT_DISCARD, .reg .CSE_LATE_CNT_LATE, .reg .ERR_CODE_CODE,
    .reg .ERR_CODE_MASTER, .reg .ERR_CODE_OVF, .reg .ERR_CODE_WORD, .reg .ERR_CODE_WRITE, .reg .EVT_PEND_PEND, .reg .EVT_RAW_RAW, .reg
    .POWER_STATUS_ENTERING, .reg .POWER_STATUS_EXITING, .reg .POWER_WAKE_STAT_CLASS, .reg .POWER_WAKE_STAT_FROM, .reg
    .QUARRY_CAPACITY_N_ACTIVE, .reg .QUARRY_ECC_CNT_CE, .reg .QUARRY_ECC_CNT_UE, .reg .QUARRY_LRMAP_MAP, .reg .QUARRY_LRMAP_SPARE, .reg
    .QUARRY_RANK_STATE_STATE, .reg .QUARRY_STATUS_DEGRADED, .reg .QUARRY_STATUS_MIGRATING, .reg .QUARRY_UE_ADDR_HI_ADDR, .reg
    .QUARRY_UE_ADDR_HI_BANK, .reg .QUARRY_UE_ADDR_HI_RANK, .reg .QUARRY_UE_ADDR_LO_ADDR, .reg .SYS_ERR_ADDR_HI_ADDR, .reg
    .SYS_ERR_ADDR_HI_MASTER, .reg .SYS_ERR_ADDR_HI_WRITE, .reg .SYS_ERR_ADDR_LO_ADDR, .reg .TACK_SPILL, .presented, .holdoff, .mem, .poison,
    .cses, .rings, .pwr, .qry, .ben, .missed, .free] m) (a1 : Chan) (a2 : Fin 2) (a3 : Bool) (a4 : BitVec 16) : Ends m s0 (execRingRefill a1
    a2 a3 a4 s) := by
  unfold execRingRefill
  try dsimp only
  repeat' first
    | with_reducible assumption
    | exact Within.trans (Eq.refl _) hw
    | (intro _)
    | with_reducible apply on_keeps
    | with_reducible apply act_keeps
    | with_reducible apply refillAlt_keeps
    | with_reducible apply refillMain_keeps
    | with_reducible apply takeAlternate_keeps
    | with_reducible apply Keeps.ite
    | with_reducible apply Ends.ite
    | with_reducible apply Ends.next
    | split

theorem eventInput_keeps (h : Keeps m s0 s) (hw : Within [.reg .EVT_PEND_PEND, .reg .EVT_RAW_RAW, .reg .HARNESS_CAPU_CFG_OVR, .reg
    .HARNESS_GSTB_OVR_OVR, .reg .HARNESS_LCNT_OVR_OVERRUN, .reg .HARNESS_LINE_STAT_PENDING, .reg .HARNESS_SOVR_OVR, .reg .PAT_PAT_OVR_OVR,
    .reg .STITCH_EVIN_IGNORED_COUNT, .reg .STITCH_EVIN_LATCHED_LATCHED, .reg .STITCH_STATUS_CREDIT_WAIT, .reg .STITCH_STATUS_GANG_WAIT, .reg
    .STITCH_STATUS_WAIT_EVENT, .reg .STITCH_STATUS_WAIT_TIME, .reg .TACK_QLEVEL_FLUSH_BUSY, .presented, .cses, .stitchers, .queues,
    .staging, .lines, .evin] m) (a1 : Nat) (a2 : Nat) : Keeps m s0 (eventInput a1 a2 s) := by
  unfold eventInput
  try dsimp only
  repeat' first
    | with_reducible assumption
    | exact Within.trans (Eq.refl _) hw
    | with_reducible apply wr_keeps
    | with_reducible apply inc_keeps
    | with_reducible apply busyEvent_keeps
    | with_reducible apply endWait_keeps
    | with_reducible apply flushMask_keeps
    | with_reducible apply nextPc_keeps
    | with_reducible apply raise_keeps
    | with_reducible apply setArmed_keeps
    | with_reducible apply Keeps.ite
    | split
    | (with_reducible apply Keeps.of_fields <;>
        first | with_reducible exact rfl | with_reducible exact Or.inl rfl | exact Or.inr (Within.trans (Eq.refl _) hw) | skip)

theorem execStitcherEventInput_keeps (h : Keeps m s0 s) (hw : Within [.reg .EVT_PEND_PEND, .reg .EVT_RAW_RAW, .reg
    .HARNESS_CAPU_CFG_OVR, .reg .HARNESS_GSTB_OVR_OVR, .reg .HARNESS_LCNT_OVR_OVERRUN, .reg .HARNESS_LINE_STAT_PENDING, .reg
    .HARNESS_SOVR_OVR, .reg .PAT_PAT_OVR_OVR, .reg .STITCH_EVIN_IGNORED_COUNT, .reg .STITCH_EVIN_LATCHED_LATCHED, .reg
    .STITCH_STATUS_CREDIT_WAIT, .reg .STITCH_STATUS_GANG_WAIT, .reg .STITCH_STATUS_WAIT_EVENT, .reg .STITCH_STATUS_WAIT_TIME, .reg
    .TACK_QLEVEL_FLUSH_BUSY, .presented, .cses, .stitchers, .queues, .staging, .lines, .evin] m) (a1 : Quad) (a2 : Fin 16) : Ends m s0
    (execStitcherEventInput a1 a2 s) := by
  unfold execStitcherEventInput
  try dsimp only
  repeat' first
    | with_reducible assumption
    | exact Within.trans (Eq.refl _) hw
    | (intro _)
    | with_reducible apply on_keeps
    | with_reducible apply act_keeps
    | with_reducible apply eventInput_keeps
    | with_reducible apply Ends.ite
    | with_reducible apply Ends.next
    | split

theorem promote_keeps (h : Keeps m s0 s) (hw : Within [.reg .CSE_CUR_DESC_KIND, .reg .CSE_CUR_DESC_PRIO, .reg .CSE_CUR_DESC_SEQ, .reg
    .CSE_STATUS_IDLE, .reg .CSE_STATUS_OPEN, .reg .CSE_STATUS_RUNNING, .reg .OUT_FAULT_STAT_REPEAT_FAIL, .cap, .commits, .cses, .rings,
    .outs] m) (a1 : Nat) (a2 : Nat) : Keeps m s0 (promote a1 a2 s) := by
  unfold promote
  try dsimp only
  repeat' first
    | with_reducible assumption
    | exact Within.trans (Eq.refl _) hw
    | (intro _)
    | with_reducible apply wr_keeps
    | with_reducible apply State.setCse_keeps
    | with_reducible apply State.setOut_keeps
    | with_reducible apply State.setRing_keeps
    | with_reducible apply packetCommits_keeps
    | with_reducible apply Keeps.ite
    | split
    | with_reducible apply KeepsOpt.getD

theorem armedProgram_keeps (h : Keeps m s0 s) (hw : Within [.reg .ERR_CODE_CODE, .reg .ERR_CODE_MASTER, .reg .ERR_CODE_OVF, .reg
    .ERR_CODE_WORD, .reg .ERR_CODE_WRITE, .reg .EVT_PEND_PEND, .reg .EVT_RAW_RAW, .reg .STITCH_FAULT_CAUSE, .reg .STITCH_FAULT_PC, .reg
    .STITCH_GANG_READY_READY, .reg .STITCH_GANG_STAT_REASON, .reg .STITCH_STATUS_CREDIT_WAIT, .reg .STITCH_STATUS_FAULTED, .reg
    .STITCH_STATUS_GANG_WAIT, .reg .STITCH_STATUS_HALTED, .reg .STITCH_STATUS_RUNNING, .reg .STITCH_STATUS_WAIT_EVENT, .reg
    .STITCH_STATUS_WAIT_TIME, .reg .TACK_QLEVEL_FLUSH_BUSY, .presented, .cses, .stitchers, .queues, .staging, .outs] m) (a1 : Nat) (a2 :
    ArmedJump) (a3 : Nat) : Keeps m s0 (armedProgram a1 a2 a3 s) := by
  unfold armedProgram
  try dsimp only
  repeat' first
    | with_reducible assumption
    | exact Within.trans (Eq.refl _) hw
    | with_reducible apply wr_keeps
    | with_reducible apply State.setStitcher_keeps
    | with_reducible apply endWait_keeps
    | with_reducible apply flushMask_keeps
    | with_reducible apply goto_keeps
    | with_reducible apply raise_keeps
    | with_reducible apply stitchFault_keeps
    | with_reducible apply Keeps.ite
    | split

theorem armedSwitch_keeps (h : Keeps m s0 s) (hw : Within [.reg .CSE_CUR_DESC_KIND, .reg .CSE_CUR_DESC_PRIO, .reg .CSE_CUR_DESC_SEQ,
    .reg .CSE_STATUS_IDLE, .reg .CSE_STATUS_OPEN, .reg .CSE_STATUS_RUNNING, .reg .ERR_CODE_CODE, .reg .ERR_CODE_MASTER, .reg .ERR_CODE_OVF,
    .reg .ERR_CODE_WORD, .reg .ERR_CODE_WRITE, .reg .EVT_PEND_PEND, .reg .EVT_RAW_RAW, .reg .OUT_FAULT_STAT_REPEAT_FAIL, .reg
    .STITCH_FAULT_CAUSE, .reg .STITCH_FAULT_PC, .reg .STITCH_GANG_READY_READY, .reg .STITCH_GANG_STAT_REASON, .reg
    .STITCH_STATUS_CREDIT_WAIT, .reg .STITCH_STATUS_FAULTED, .reg .STITCH_STATUS_GANG_WAIT, .reg .STITCH_STATUS_HALTED, .reg
    .STITCH_STATUS_RUNNING, .reg .STITCH_STATUS_WAIT_EVENT, .reg .STITCH_STATUS_WAIT_TIME, .reg .TACK_QLEVEL_FLUSH_BUSY, .cap, .presented,
    .commits, .cses, .stitchers, .queues, .staging, .rings, .outs] m) (a1 : Nat) : Keeps m s0 (armedSwitch a1 s) := by
  unfold armedSwitch
  try dsimp only
  repeat' first
    | with_reducible assumption
    | exact Within.trans (Eq.refl _) hw
    | (intro _)
    | with_reducible apply each_keeps
    | with_reducible apply armedProgram_keeps
    | with_reducible apply promote_keeps
    | with_reducible apply raise_keeps
    | with_reducible apply setArmed_keeps
    | with_reducible apply Keeps.ite
    | split

theorem execArmedSwitch_keeps (h : Keeps m s0 s) (hw : Within [.reg .CSE_CUR_DESC_KIND, .reg .CSE_CUR_DESC_PRIO, .reg .CSE_CUR_DESC_SEQ,
    .reg .CSE_STATUS_IDLE, .reg .CSE_STATUS_OPEN, .reg .CSE_STATUS_RUNNING, .reg .ERR_CODE_CODE, .reg .ERR_CODE_MASTER, .reg .ERR_CODE_OVF,
    .reg .ERR_CODE_WORD, .reg .ERR_CODE_WRITE, .reg .EVT_PEND_PEND, .reg .EVT_RAW_RAW, .reg .OUT_FAULT_STAT_REPEAT_FAIL, .reg
    .STITCH_FAULT_CAUSE, .reg .STITCH_FAULT_PC, .reg .STITCH_GANG_READY_READY, .reg .STITCH_GANG_STAT_REASON, .reg
    .STITCH_STATUS_CREDIT_WAIT, .reg .STITCH_STATUS_FAULTED, .reg .STITCH_STATUS_GANG_WAIT, .reg .STITCH_STATUS_HALTED, .reg
    .STITCH_STATUS_RUNNING, .reg .STITCH_STATUS_WAIT_EVENT, .reg .STITCH_STATUS_WAIT_TIME, .reg .TACK_QLEVEL_FLUSH_BUSY, .cap, .presented,
    .commits, .cses, .stitchers, .queues, .staging, .rings, .outs] m) (a1 : Quad) : Ends m s0 (execArmedSwitch a1 s) := by
  unfold execArmedSwitch
  try dsimp only
  repeat' first
    | with_reducible assumption
    | exact Within.trans (Eq.refl _) hw
    | (intro _)
    | with_reducible apply on_keeps
    | with_reducible apply act_keeps
    | with_reducible apply armedSwitch_keeps
    | with_reducible apply Ends.ite
    | with_reducible apply Ends.next
    | split

theorem gangReady_keeps (h : Keeps m s0 s) (hw : Within [.reg .STITCH_GANG_READY_READY, .stitchers] m) (a1 : Nat) (a2 : Nat) : Keeps m
    s0 (gangReady a1 a2 s) := by
  unfold gangReady
  try dsimp only
  repeat' first
    | with_reducible assumption
    | exact Within.trans (Eq.refl _) hw
    | with_reducible apply wr_keeps
    | with_reducible apply State.setStitcher_keeps
    | with_reducible apply nextPc_keeps

theorem runGang_keeps (h : Keeps m s0 s) (hw : Within [] m) (a1 : Nat) (a2 : Nat) (a3 : Nat → State → State) (k3 : ∀ x t, Keeps m s0 t →
    Keeps m s0 (a3 x t)) : Keeps m s0 (runGang a1 a2 a3 s) := by
  unfold runGang
  try dsimp only
  repeat' first
    | with_reducible assumption
    | exact Within.trans (Eq.refl _) hw
    | (intro _)
    | with_reducible apply runOp_keeps
    | with_reducible apply k3
    | with_reducible apply Keeps.ite
    | split

theorem execGangReady_keeps (h : Keeps m s0 s) (hw : Within [.reg .STITCH_GANG_READY_READY, .stitchers] m) (a1 : Quad) : Ends m s0
    (execGangReady a1 s) := by
  unfold execGangReady
  try dsimp only
  repeat' first
    | with_reducible assumption
    | exact Within.trans (Eq.refl _) hw
    | (intro _)
    | with_reducible apply act_keeps
    | with_reducible apply gangReady_keeps
    | with_reducible apply runGang_keeps
    | with_reducible apply Ends.ite
    | with_reducible apply Ends.next
    | split

theorem gangCommit_keeps (h : Keeps m s0 s) (hw : Within [.reg .ERR_CODE_CODE, .reg .ERR_CODE_MASTER, .reg .ERR_CODE_OVF, .reg
    .ERR_CODE_WORD, .reg .ERR_CODE_WRITE, .reg .EVT_PEND_PEND, .reg .EVT_RAW_RAW, .reg .STITCH_FAULT_CAUSE, .reg .STITCH_FAULT_PC, .reg
    .STITCH_GANG_READY_READY, .reg .STITCH_STATUS_CREDIT_WAIT, .reg .STITCH_STATUS_FAULTED, .reg .STITCH_STATUS_GANG_WAIT, .reg
    .STITCH_STATUS_RUNNING, .reg .STITCH_STATUS_WAIT_EVENT, .reg .STITCH_STATUS_WAIT_TIME, .presented, .cses, .stitchers, .outs] m) (a1 :
    Nat) (a2 : Nat) : Keeps m s0 (gangCommit a1 a2 s) := by
  unfold gangCommit
  try dsimp only
  repeat' first
    | with_reducible assumption
    | exact Within.trans (Eq.refl _) hw
    | with_reducible apply wr_keeps
    | with_reducible apply State.setStitcher_keeps
    | with_reducible apply stitchFault_keeps
    | with_reducible apply Keeps.ite
    | split

theorem execGangCommit_keeps (h : Keeps m s0 s) (hw : Within [.reg .ERR_CODE_CODE, .reg .ERR_CODE_MASTER, .reg .ERR_CODE_OVF, .reg
    .ERR_CODE_WORD, .reg .ERR_CODE_WRITE, .reg .EVT_PEND_PEND, .reg .EVT_RAW_RAW, .reg .STITCH_FAULT_CAUSE, .reg .STITCH_FAULT_PC, .reg
    .STITCH_GANG_READY_READY, .reg .STITCH_STATUS_CREDIT_WAIT, .reg .STITCH_STATUS_FAULTED, .reg .STITCH_STATUS_GANG_WAIT, .reg
    .STITCH_STATUS_RUNNING, .reg .STITCH_STATUS_WAIT_EVENT, .reg .STITCH_STATUS_WAIT_TIME, .presented, .cses, .stitchers, .outs] m) (a1 :
    Quad) : Ends m s0 (execGangCommit a1 s) := by
  unfold execGangCommit
  try dsimp only
  repeat' first
    | with_reducible assumption
    | exact Within.trans (Eq.refl _) hw
    | (intro _)
    | with_reducible apply act_keeps
    | with_reducible apply gangCommit_keeps
    | with_reducible apply runGang_keeps
    | with_reducible apply Ends.ite
    | with_reducible apply Ends.next
    | split

theorem mapQueue_keeps (h : Keeps m s0 s) (hw : Within [.queues] m) (a1 : Nat) (a2 : Packet → Packet) : Keeps m s0 (mapQueue a1 a2 s) :=
    by
  unfold mapQueue
  try dsimp only
  repeat' first
    | with_reducible assumption
    | exact Within.trans (Eq.refl _) hw
    | with_reducible apply State.setQueue_keeps

theorem gangOutcome_keeps (h : Keeps m s0 s) (hw : Within [.reg .ERR_CODE_CODE, .reg .ERR_CODE_MASTER, .reg .ERR_CODE_OVF, .reg
    .ERR_CODE_WORD, .reg .ERR_CODE_WRITE, .reg .EVT_PEND_PEND, .reg .EVT_RAW_RAW, .reg .STITCH_FAULT_CAUSE, .reg .STITCH_FAULT_PC, .reg
    .STITCH_GANG_READY_READY, .reg .STITCH_STATUS_CREDIT_WAIT, .reg .STITCH_STATUS_FAULTED, .reg .STITCH_STATUS_GANG_WAIT, .reg
    .STITCH_STATUS_RUNNING, .reg .STITCH_STATUS_WAIT_EVENT, .reg .STITCH_STATUS_WAIT_TIME, .presented, .cses, .stitchers, .outs] m) (a1 :
    Nat) (a2 : Nat) (a3 : Nat) : Keeps m s0 (gangOutcome a1 a2 a3 s) := by
  unfold gangOutcome
  try dsimp only
  repeat' first
    | with_reducible assumption
    | exact Within.trans (Eq.refl _) hw
    | with_reducible apply wr_keeps
    | with_reducible apply State.setStitcher_keeps
    | with_reducible apply endWait_keeps
    | with_reducible apply goto_keeps
    | with_reducible apply nextPc_keeps
    | with_reducible apply Keeps.ite
    | split

theorem commitPoint_keeps (h : Keeps m s0 s) (hw : Within [.reg .ERR_CODE_CODE, .reg .ERR_CODE_MASTER, .reg .ERR_CODE_OVF, .reg
    .ERR_CODE_WORD, .reg .ERR_CODE_WRITE, .reg .EVT_PEND_PEND, .reg .EVT_RAW_RAW, .reg .STITCH_FAULT_CAUSE, .reg .STITCH_FAULT_PC, .reg
    .STITCH_GANG_READY_READY, .reg .STITCH_GANG_STAT_GANG, .reg .STITCH_STATUS_CREDIT_WAIT, .reg .STITCH_STATUS_FAULTED, .reg
    .STITCH_STATUS_GANG_WAIT, .reg .STITCH_STATUS_RUNNING, .reg .STITCH_STATUS_WAIT_EVENT, .reg .STITCH_STATUS_WAIT_TIME, .presented, .cses,
    .stitchers, .queues, .outs] m) (a1 : Nat) : Keeps m s0 (commitPoint a1 s) := by
  unfold commitPoint
  try dsimp only
  repeat' first
    | with_reducible assumption
    | exact Within.trans (Eq.refl _) hw
    | (intro _)
    | with_reducible apply wr_keeps
    | with_reducible apply each_keeps
    | with_reducible apply State.setStitcher_keeps
    | with_reducible apply endWait_keeps
    | with_reducible apply gangOutcome_keeps
    | with_reducible apply mapQueue_keeps
    | with_reducible apply nextPc_keeps
    | with_reducible apply raise_keeps
    | split
    | with_reducible apply KeepsOpt.getD

theorem execGangCommitPoint_keeps (h : Keeps m s0 s) (hw : Within [.reg .ERR_CODE_CODE, .reg .ERR_CODE_MASTER, .reg .ERR_CODE_OVF, .reg
    .ERR_CODE_WORD, .reg .ERR_CODE_WRITE, .reg .EVT_PEND_PEND, .reg .EVT_RAW_RAW, .reg .STITCH_FAULT_CAUSE, .reg .STITCH_FAULT_PC, .reg
    .STITCH_GANG_READY_READY, .reg .STITCH_GANG_STAT_GANG, .reg .STITCH_STATUS_CREDIT_WAIT, .reg .STITCH_STATUS_FAULTED, .reg
    .STITCH_STATUS_GANG_WAIT, .reg .STITCH_STATUS_RUNNING, .reg .STITCH_STATUS_WAIT_EVENT, .reg .STITCH_STATUS_WAIT_TIME, .presented, .cses,
    .stitchers, .queues, .outs] m) (a1 : Quad) : Ends m s0 (execGangCommitPoint a1 s) := by
  unfold execGangCommitPoint
  try dsimp only
  repeat' first
    | with_reducible assumption
    | exact Within.trans (Eq.refl _) hw
    | (intro _)
    | with_reducible apply on_keeps
    | with_reducible apply act_keeps
    | with_reducible apply commitPoint_keeps
    | with_reducible apply Ends.ite
    | with_reducible apply Ends.next
    | split

theorem prepareFails_keeps (h : Keeps m s0 s) (hw : Within [.reg .ERR_CODE_CODE, .reg .ERR_CODE_MASTER, .reg .ERR_CODE_OVF, .reg
    .ERR_CODE_WORD, .reg .ERR_CODE_WRITE, .reg .EVT_PEND_PEND, .reg .EVT_RAW_RAW, .reg .STITCH_FAULT_CAUSE, .reg .STITCH_FAULT_PC, .reg
    .STITCH_GANG_READY_READY, .reg .STITCH_GANG_STAT_FAIL_QUADS, .reg .STITCH_GANG_STAT_GANG, .reg .STITCH_GANG_STAT_REASON, .reg
    .STITCH_STATUS_CREDIT_WAIT, .reg .STITCH_STATUS_FAULTED, .reg .STITCH_STATUS_GANG_WAIT, .reg .STITCH_STATUS_RUNNING, .reg
    .STITCH_STATUS_WAIT_EVENT, .reg .STITCH_STATUS_WAIT_TIME, .presented, .cses, .stitchers, .outs] m) (a1 : Nat) : Keeps m s0 (prepareFails
    a1 s) := by
  unfold prepareFails
  try dsimp only
  repeat' first
    | with_reducible assumption
    | exact Within.trans (Eq.refl _) hw
    | (intro _)
    | with_reducible apply wr_keeps
    | with_reducible apply State.setStitcher_keeps
    | with_reducible apply endWait_keeps
    | with_reducible apply goto_keeps
    | with_reducible apply nextPc_keeps
    | with_reducible apply raise_keeps
    | with_reducible apply recordErr_keeps
    | with_reducible apply Keeps.ite
    | split

theorem execGangPrepareTimeout_keeps (h : Keeps m s0 s) (hw : Within [.reg .ERR_CODE_CODE, .reg .ERR_CODE_MASTER, .reg .ERR_CODE_OVF,
    .reg .ERR_CODE_WORD, .reg .ERR_CODE_WRITE, .reg .EVT_PEND_PEND, .reg .EVT_RAW_RAW, .reg .STITCH_FAULT_CAUSE, .reg .STITCH_FAULT_PC, .reg
    .STITCH_GANG_READY_READY, .reg .STITCH_GANG_STAT_FAIL_QUADS, .reg .STITCH_GANG_STAT_GANG, .reg .STITCH_GANG_STAT_REASON, .reg
    .STITCH_STATUS_CREDIT_WAIT, .reg .STITCH_STATUS_FAULTED, .reg .STITCH_STATUS_GANG_WAIT, .reg .STITCH_STATUS_RUNNING, .reg
    .STITCH_STATUS_WAIT_EVENT, .reg .STITCH_STATUS_WAIT_TIME, .presented, .cses, .stitchers, .outs] m) (a1 : Quad) : Ends m s0
    (execGangPrepareTimeout a1 s) := by
  unfold execGangPrepareTimeout
  try dsimp only
  repeat' first
    | with_reducible assumption
    | exact Within.trans (Eq.refl _) hw
    | (intro _)
    | with_reducible apply on_keeps
    | with_reducible apply act_keeps
    | with_reducible apply prepareFails_keeps
    | with_reducible apply Ends.ite
    | with_reducible apply Ends.next
    | split

theorem dropStaged_keeps (h : Keeps m s0 s) (hw : Within [.cses, .queues] m) (a1 : Nat) (a2 : Nat) : Keeps m s0 (dropStaged a1 a2 s) :=
    by
  unfold dropStaged
  try dsimp only
  repeat' first
    | with_reducible assumption
    | exact Within.trans (Eq.refl _) hw
    | (intro _)
    | with_reducible apply State.setQueue_keeps
    | with_reducible apply endPredecessor_keeps
    | with_reducible apply Keeps.ite
    | split

theorem gangAbort_keeps (h : Keeps m s0 s) (hw : Within [.reg .ERR_CODE_CODE, .reg .ERR_CODE_MASTER, .reg .ERR_CODE_OVF, .reg
    .ERR_CODE_WORD, .reg .ERR_CODE_WRITE, .reg .EVT_PEND_PEND, .reg .EVT_RAW_RAW, .reg .STITCH_FAULT_CAUSE, .reg .STITCH_FAULT_PC, .reg
    .STITCH_GANG_READY_READY, .reg .STITCH_STATUS_CREDIT_WAIT, .reg .STITCH_STATUS_FAULTED, .reg .STITCH_STATUS_GANG_WAIT, .reg
    .STITCH_STATUS_RUNNING, .reg .STITCH_STATUS_WAIT_EVENT, .reg .STITCH_STATUS_WAIT_TIME, .presented, .cses, .stitchers, .queues, .outs] m)
    (a1 : Nat) (a2 : Nat) : Keeps m s0 (gangAbort a1 a2 s) := by
  unfold gangAbort
  try dsimp only
  repeat' first
    | with_reducible assumption
    | exact Within.trans (Eq.refl _) hw
    | (intro _)
    | with_reducible apply each_keeps
    | with_reducible apply dropStaged_keeps
    | with_reducible apply gangOutcome_keeps
    | with_reducible apply nextPc_keeps
    | with_reducible apply Keeps.ite
    | split

theorem execGangAbort_keeps (h : Keeps m s0 s) (hw : Within [.reg .ERR_CODE_CODE, .reg .ERR_CODE_MASTER, .reg .ERR_CODE_OVF, .reg
    .ERR_CODE_WORD, .reg .ERR_CODE_WRITE, .reg .EVT_PEND_PEND, .reg .EVT_RAW_RAW, .reg .STITCH_FAULT_CAUSE, .reg .STITCH_FAULT_PC, .reg
    .STITCH_GANG_READY_READY, .reg .STITCH_STATUS_CREDIT_WAIT, .reg .STITCH_STATUS_FAULTED, .reg .STITCH_STATUS_GANG_WAIT, .reg
    .STITCH_STATUS_RUNNING, .reg .STITCH_STATUS_WAIT_EVENT, .reg .STITCH_STATUS_WAIT_TIME, .presented, .cses, .stitchers, .queues, .outs] m)
    (a1 : Quad) : Ends m s0 (execGangAbort a1 s) := by
  unfold execGangAbort
  try dsimp only
  repeat' first
    | with_reducible assumption
    | exact Within.trans (Eq.refl _) hw
    | (intro _)
    | with_reducible apply act_keeps
    | with_reducible apply gangAbort_keeps
    | with_reducible apply runGang_keeps
    | with_reducible apply Ends.ite
    | with_reducible apply Ends.next
    | split

theorem gangWaitc_keeps (h : Keeps m s0 s) (hw : Within [.reg .ERR_CODE_CODE, .reg .ERR_CODE_MASTER, .reg .ERR_CODE_OVF, .reg
    .ERR_CODE_WORD, .reg .ERR_CODE_WRITE, .reg .EVT_PEND_PEND, .reg .EVT_RAW_RAW, .reg .STITCH_FAULT_CAUSE, .reg .STITCH_FAULT_PC, .reg
    .STITCH_GANG_READY_READY, .reg .STITCH_STATUS_CREDIT_WAIT, .reg .STITCH_STATUS_FAULTED, .reg .STITCH_STATUS_GANG_WAIT, .reg
    .STITCH_STATUS_RUNNING, .reg .STITCH_STATUS_WAIT_EVENT, .reg .STITCH_STATUS_WAIT_TIME, .presented, .cses, .stitchers, .outs] m) (a1 :
    Nat) (a2 : Nat) : Keeps m s0 (gangWaitc a1 a2 s) := by
  unfold gangWaitc
  try dsimp only
  repeat' first
    | with_reducible assumption
    | exact Within.trans (Eq.refl _) hw
    | with_reducible apply wr_keeps
    | with_reducible apply State.setStitcher_keeps
    | with_reducible apply goto_keeps
    | with_reducible apply nextPc_keeps
    | with_reducible apply Keeps.ite
    | split

theorem execGangWaitc_keeps (h : Keeps m s0 s) (hw : Within [.reg .ERR_CODE_CODE, .reg .ERR_CODE_MASTER, .reg .ERR_CODE_OVF, .reg
    .ERR_CODE_WORD, .reg .ERR_CODE_WRITE, .reg .EVT_PEND_PEND, .reg .EVT_RAW_RAW, .reg .STITCH_FAULT_CAUSE, .reg .STITCH_FAULT_PC, .reg
    .STITCH_GANG_READY_READY, .reg .STITCH_STATUS_CREDIT_WAIT, .reg .STITCH_STATUS_FAULTED, .reg .STITCH_STATUS_GANG_WAIT, .reg
    .STITCH_STATUS_RUNNING, .reg .STITCH_STATUS_WAIT_EVENT, .reg .STITCH_STATUS_WAIT_TIME, .presented, .cses, .stitchers, .outs] m) (a1 :
    Quad) : Ends m s0 (execGangWaitc a1 s) := by
  unfold execGangWaitc
  try dsimp only
  repeat' first
    | with_reducible assumption
    | exact Within.trans (Eq.refl _) hw
    | (intro _)
    | with_reducible apply act_keeps
    | with_reducible apply gangWaitc_keeps
    | with_reducible apply runGang_keeps
    | with_reducible apply Ends.ite
    | with_reducible apply Ends.next
    | split

end Sys2Proof.Machine
end

