-- ==== Sys2Proof/Laws/State.lean ====
section
/-! SUPPORT. The small laws of the named updates: one for each field under each update, and what a read gives after a write. -/

namespace Sys2Proof.Machine

variable (s : State)

/-! ### wr -/

@[simp] theorem State.wr_pending (r : Reg) (v i x u : Nat) : (s.wr r v i x u).pending = s.pending := rfl
@[simp] theorem State.wr_dev (r : Reg) (v i x u : Nat) : (s.wr r v i x u).dev = s.dev := rfl
@[simp] theorem State.wr_now (r : Reg) (v i x u : Nat) : (s.wr r v i x u).now = s.now := rfl
@[simp] theorem State.wr_osc (r : Reg) (v i x u : Nat) : (s.wr r v i x u).osc = s.osc := rfl
@[simp] theorem State.wr_eff (r : Reg) (v i x u : Nat) : (s.wr r v i x u).eff = s.eff := rfl
@[simp] theorem State.wr_cap (r : Reg) (v i x u : Nat) : (s.wr r v i x u).cap = s.cap := rfl
@[simp] theorem State.wr_held (r : Reg) (v i x u : Nat) : (s.wr r v i x u).held = s.held := rfl
@[simp] theorem State.wr_readData (r : Reg) (v i x u : Nat) : (s.wr r v i x u).readData = s.readData := rfl
@[simp] theorem State.wr_presented (r : Reg) (v i x u : Nat) : (s.wr r v i x u).presented = s.presented := rfl
@[simp] theorem State.wr_commits (r : Reg) (v i x u : Nat) : (s.wr r v i x u).commits = s.commits := rfl
@[simp] theorem State.wr_holdoff (r : Reg) (v i x u : Nat) : (s.wr r v i x u).holdoff = s.holdoff := rfl
@[simp] theorem State.wr_mem (r : Reg) (v i x u : Nat) : (s.wr r v i x u).mem = s.mem := rfl
@[simp] theorem State.wr_poison (r : Reg) (v i x u : Nat) : (s.wr r v i x u).poison = s.poison := rfl
@[simp] theorem State.wr_epoch (r : Reg) (v i x u : Nat) : (s.wr r v i x u).epoch = s.epoch := rfl
@[simp] theorem State.wr_pllStarted (r : Reg) (v i x u : Nat) : (s.wr r v i x u).pllStarted = s.pllStarted := rfl
@[simp] theorem State.wr_lcs (r : Reg) (v i x u : Nat) : (s.wr r v i x u).lcs = s.lcs := rfl
@[simp] theorem State.wr_lcGen (r : Reg) (v i x u : Nat) : (s.wr r v i x u).lcGen = s.lcGen := rfl
@[simp] theorem State.wr_clocks (r : Reg) (v i x u : Nat) : (s.wr r v i x u).clocks = s.clocks := rfl
@[simp] theorem State.wr_gstbs (r : Reg) (v i x u : Nat) : (s.wr r v i x u).gstbs = s.gstbs := rfl
@[simp] theorem State.wr_wheels (r : Reg) (v i x u : Nat) : (s.wr r v i x u).wheels = s.wheels := rfl
@[simp] theorem State.wr_cses (r : Reg) (v i x u : Nat) : (s.wr r v i x u).cses = s.cses := rfl
@[simp] theorem State.wr_stitchers (r : Reg) (v i x u : Nat) : (s.wr r v i x u).stitchers = s.stitchers := rfl
@[simp] theorem State.wr_queues (r : Reg) (v i x u : Nat) : (s.wr r v i x u).queues = s.queues := rfl
@[simp] theorem State.wr_staging (r : Reg) (v i x u : Nat) : (s.wr r v i x u).staging = s.staging := rfl
@[simp] theorem State.wr_rings (r : Reg) (v i x u : Nat) : (s.wr r v i x u).rings = s.rings := rfl
@[simp] theorem State.wr_outs (r : Reg) (v i x u : Nat) : (s.wr r v i x u).outs = s.outs := rfl
@[simp] theorem State.wr_lines (r : Reg) (v i x u : Nat) : (s.wr r v i x u).lines = s.lines := rfl
@[simp] theorem State.wr_pins (r : Reg) (v i x u : Nat) : (s.wr r v i x u).pins = s.pins := rfl
@[simp] theorem State.wr_capus (r : Reg) (v i x u : Nat) : (s.wr r v i x u).capus = s.capus := rfl
@[simp] theorem State.wr_evin (r : Reg) (v i x u : Nat) : (s.wr r v i x u).evin = s.evin := rfl
@[simp] theorem State.wr_nvmQueue (r : Reg) (v i x u : Nat) : (s.wr r v i x u).nvmQueue = s.nvmQueue := rfl
@[simp] theorem State.wr_ports (r : Reg) (v i x u : Nat) : (s.wr r v i x u).ports = s.ports := rfl
@[simp] theorem State.wr_addrPins (r : Reg) (v i x u : Nat) : (s.wr r v i x u).addrPins = s.addrPins := rfl
@[simp] theorem State.wr_testEn (r : Reg) (v i x u : Nat) : (s.wr r v i x u).testEn = s.testEn := rfl
@[simp] theorem State.wr_ldr (r : Reg) (v i x u : Nat) : (s.wr r v i x u).ldr = s.ldr := rfl
@[simp] theorem State.wr_sec (r : Reg) (v i x u : Nat) : (s.wr r v i x u).sec = s.sec := rfl
@[simp] theorem State.wr_pwr (r : Reg) (v i x u : Nat) : (s.wr r v i x u).pwr = s.pwr := rfl
@[simp] theorem State.wr_qry (r : Reg) (v i x u : Nat) : (s.wr r v i x u).qry = s.qry := rfl
@[simp] theorem State.wr_ben (r : Reg) (v i x u : Nat) : (s.wr r v i x u).ben = s.ben := rfl
@[simp] theorem State.wr_missed (r : Reg) (v i x u : Nat) : (s.wr r v i x u).missed = s.missed := rfl
@[simp] theorem State.wr_tiers (r : Reg) (v i x u : Nat) : (s.wr r v i x u).tiers = s.tiers := rfl
@[simp] theorem State.wr_vref (r : Reg) (v i x u : Nat) : (s.wr r v i x u).vref = s.vref := rfl
@[simp] theorem State.wr_trimSaved (r : Reg) (v i x u : Nat) : (s.wr r v i x u).trimSaved = s.trimSaved := rfl
@[simp] theorem State.wr_trimDue (r : Reg) (v i x u : Nat) : (s.wr r v i x u).trimDue = s.trimDue := rfl
@[simp] theorem State.wr_fwUp (r : Reg) (v i x u : Nat) : (s.wr r v i x u).fwUp = s.fwUp := rfl
@[simp] theorem State.wr_free (r : Reg) (v i x u : Nat) : (s.wr r v i x u).free = s.free := rfl

/-! ### rst -/

@[simp] theorem State.rst_pending (r : Reg) (i x u : Nat) : (s.rst r i x u).pending = s.pending := rfl
@[simp] theorem State.rst_dev (r : Reg) (i x u : Nat) : (s.rst r i x u).dev = s.dev := rfl
@[simp] theorem State.rst_now (r : Reg) (i x u : Nat) : (s.rst r i x u).now = s.now := rfl
@[simp] theorem State.rst_osc (r : Reg) (i x u : Nat) : (s.rst r i x u).osc = s.osc := rfl
@[simp] theorem State.rst_eff (r : Reg) (i x u : Nat) : (s.rst r i x u).eff = s.eff := rfl
@[simp] theorem State.rst_cap (r : Reg) (i x u : Nat) : (s.rst r i x u).cap = s.cap := rfl
@[simp] theorem State.rst_held (r : Reg) (i x u : Nat) : (s.rst r i x u).held = s.held := rfl
@[simp] theorem State.rst_readData (r : Reg) (i x u : Nat) : (s.rst r i x u).readData = s.readData := rfl
@[simp] theorem State.rst_presented (r : Reg) (i x u : Nat) : (s.rst r i x u).presented = s.presented := rfl
@[simp] theorem State.rst_commits (r : Reg) (i x u : Nat) : (s.rst r i x u).commits = s.commits := rfl
@[simp] theorem State.rst_holdoff (r : Reg) (i x u : Nat) : (s.rst r i x u).holdoff = s.holdoff := rfl
@[simp] theorem State.rst_mem (r : Reg) (i x u : Nat) : (s.rst r i x u).mem = s.mem := rfl
@[simp] theorem State.rst_poison (r : Reg) (i x u : Nat) : (s.rst r i x u).poison = s.poison := rfl
@[simp] theorem State.rst_epoch (r : Reg) (i x u : Nat) : (s.rst r i x u).epoch = s.epoch := rfl
@[simp] theorem State.rst_pllStarted (r : Reg) (i x u : Nat) : (s.rst r i x u).pllStarted = s.pllStarted := rfl
@[simp] theorem State.rst_lcs (r : Reg) (i x u : Nat) : (s.rst r i x u).lcs = s.lcs := rfl
@[simp] theorem State.rst_lcGen (r : Reg) (i x u : Nat) : (s.rst r i x u).lcGen = s.lcGen := rfl
@[simp] theorem State.rst_clocks (r : Reg) (i x u : Nat) : (s.rst r i x u).clocks = s.clocks := rfl
@[simp] theorem State.rst_gstbs (r : Reg) (i x u : Nat) : (s.rst r i x u).gstbs = s.gstbs := rfl
@[simp] theorem State.rst_wheels (r : Reg) (i x u : Nat) : (s.rst r i x u).wheels = s.wheels := rfl
@[simp] theorem State.rst_cses (r : Reg) (i x u : Nat) : (s.rst r i x u).cses = s.cses := rfl
@[simp] theorem State.rst_stitchers (r : Reg) (i x u : Nat) : (s.rst r i x u).stitchers = s.stitchers := rfl
@[simp] theorem State.rst_queues (r : Reg) (i x u : Nat) : (s.rst r i x u).queues = s.queues := rfl
@[simp] theorem State.rst_staging (r : Reg) (i x u : Nat) : (s.rst r i x u).staging = s.staging := rfl
@[simp] theorem State.rst_rings (r : Reg) (i x u : Nat) : (s.rst r i x u).rings = s.rings := rfl
@[simp] theorem State.rst_outs (r : Reg) (i x u : Nat) : (s.rst r i x u).outs = s.outs := rfl
@[simp] theorem State.rst_lines (r : Reg) (i x u : Nat) : (s.rst r i x u).lines = s.lines := rfl
@[simp] theorem State.rst_pins (r : Reg) (i x u : Nat) : (s.rst r i x u).pins = s.pins := rfl
@[simp] theorem State.rst_capus (r : Reg) (i x u : Nat) : (s.rst r i x u).capus = s.capus := rfl
@[simp] theorem State.rst_evin (r : Reg) (i x u : Nat) : (s.rst r i x u).evin = s.evin := rfl
@[simp] theorem State.rst_nvmQueue (r : Reg) (i x u : Nat) : (s.rst r i x u).nvmQueue = s.nvmQueue := rfl
@[simp] theorem State.rst_ports (r : Reg) (i x u : Nat) : (s.rst r i x u).ports = s.ports := rfl
@[simp] theorem State.rst_addrPins (r : Reg) (i x u : Nat) : (s.rst r i x u).addrPins = s.addrPins := rfl
@[simp] theorem State.rst_testEn (r : Reg) (i x u : Nat) : (s.rst r i x u).testEn = s.testEn := rfl
@[simp] theorem State.rst_ldr (r : Reg) (i x u : Nat) : (s.rst r i x u).ldr = s.ldr := rfl
@[simp] theorem State.rst_sec (r : Reg) (i x u : Nat) : (s.rst r i x u).sec = s.sec := rfl
@[simp] theorem State.rst_pwr (r : Reg) (i x u : Nat) : (s.rst r i x u).pwr = s.pwr := rfl
@[simp] theorem State.rst_qry (r : Reg) (i x u : Nat) : (s.rst r i x u).qry = s.qry := rfl
@[simp] theorem State.rst_ben (r : Reg) (i x u : Nat) : (s.rst r i x u).ben = s.ben := rfl
@[simp] theorem State.rst_missed (r : Reg) (i x u : Nat) : (s.rst r i x u).missed = s.missed := rfl
@[simp] theorem State.rst_tiers (r : Reg) (i x u : Nat) : (s.rst r i x u).tiers = s.tiers := rfl
@[simp] theorem State.rst_vref (r : Reg) (i x u : Nat) : (s.rst r i x u).vref = s.vref := rfl
@[simp] theorem State.rst_trimSaved (r : Reg) (i x u : Nat) : (s.rst r i x u).trimSaved = s.trimSaved := rfl
@[simp] theorem State.rst_trimDue (r : Reg) (i x u : Nat) : (s.rst r i x u).trimDue = s.trimDue := rfl
@[simp] theorem State.rst_fwUp (r : Reg) (i x u : Nat) : (s.rst r i x u).fwUp = s.fwUp := rfl
@[simp] theorem State.rst_free (r : Reg) (i x u : Nat) : (s.rst r i x u).free = s.free := rfl

/-! ### wrEff -/

@[simp] theorem State.wrEff_pending (r : Reg) (v i x u : Nat) : (s.wrEff r v i x u).pending = s.pending := rfl
@[simp] theorem State.wrEff_dev (r : Reg) (v i x u : Nat) : (s.wrEff r v i x u).dev = s.dev := rfl
@[simp] theorem State.wrEff_now (r : Reg) (v i x u : Nat) : (s.wrEff r v i x u).now = s.now := rfl
@[simp] theorem State.wrEff_osc (r : Reg) (v i x u : Nat) : (s.wrEff r v i x u).osc = s.osc := rfl
@[simp] theorem State.wrEff_regs (r : Reg) (v i x u : Nat) : (s.wrEff r v i x u).regs = s.regs := rfl
@[simp] theorem State.wrEff_cap (r : Reg) (v i x u : Nat) : (s.wrEff r v i x u).cap = s.cap := rfl
@[simp] theorem State.wrEff_held (r : Reg) (v i x u : Nat) : (s.wrEff r v i x u).held = s.held := rfl
@[simp] theorem State.wrEff_readData (r : Reg) (v i x u : Nat) : (s.wrEff r v i x u).readData = s.readData := rfl
@[simp] theorem State.wrEff_presented (r : Reg) (v i x u : Nat) : (s.wrEff r v i x u).presented = s.presented := rfl
@[simp] theorem State.wrEff_commits (r : Reg) (v i x u : Nat) : (s.wrEff r v i x u).commits = s.commits := rfl
@[simp] theorem State.wrEff_holdoff (r : Reg) (v i x u : Nat) : (s.wrEff r v i x u).holdoff = s.holdoff := rfl
@[simp] theorem State.wrEff_mem (r : Reg) (v i x u : Nat) : (s.wrEff r v i x u).mem = s.mem := rfl
@[simp] theorem State.wrEff_poison (r : Reg) (v i x u : Nat) : (s.wrEff r v i x u).poison = s.poison := rfl
@[simp] theorem State.wrEff_epoch (r : Reg) (v i x u : Nat) : (s.wrEff r v i x u).epoch = s.epoch := rfl
@[simp] theorem State.wrEff_pllStarted (r : Reg) (v i x u : Nat) : (s.wrEff r v i x u).pllStarted = s.pllStarted := rfl
@[simp] theorem State.wrEff_lcs (r : Reg) (v i x u : Nat) : (s.wrEff r v i x u).lcs = s.lcs := rfl
@[simp] theorem State.wrEff_lcGen (r : Reg) (v i x u : Nat) : (s.wrEff r v i x u).lcGen = s.lcGen := rfl
@[simp] theorem State.wrEff_clocks (r : Reg) (v i x u : Nat) : (s.wrEff r v i x u).clocks = s.clocks := rfl
@[simp] theorem State.wrEff_gstbs (r : Reg) (v i x u : Nat) : (s.wrEff r v i x u).gstbs = s.gstbs := rfl
@[simp] theorem State.wrEff_wheels (r : Reg) (v i x u : Nat) : (s.wrEff r v i x u).wheels = s.wheels := rfl
@[simp] theorem State.wrEff_cses (r : Reg) (v i x u : Nat) : (s.wrEff r v i x u).cses = s.cses := rfl
@[simp] theorem State.wrEff_stitchers (r : Reg) (v i x u : Nat) : (s.wrEff r v i x u).stitchers = s.stitchers := rfl
@[simp] theorem State.wrEff_queues (r : Reg) (v i x u : Nat) : (s.wrEff r v i x u).queues = s.queues := rfl
@[simp] theorem State.wrEff_staging (r : Reg) (v i x u : Nat) : (s.wrEff r v i x u).staging = s.staging := rfl
@[simp] theorem State.wrEff_rings (r : Reg) (v i x u : Nat) : (s.wrEff r v i x u).rings = s.rings := rfl
@[simp] theorem State.wrEff_outs (r : Reg) (v i x u : Nat) : (s.wrEff r v i x u).outs = s.outs := rfl
@[simp] theorem State.wrEff_lines (r : Reg) (v i x u : Nat) : (s.wrEff r v i x u).lines = s.lines := rfl
@[simp] theorem State.wrEff_pins (r : Reg) (v i x u : Nat) : (s.wrEff r v i x u).pins = s.pins := rfl
@[simp] theorem State.wrEff_capus (r : Reg) (v i x u : Nat) : (s.wrEff r v i x u).capus = s.capus := rfl
@[simp] theorem State.wrEff_evin (r : Reg) (v i x u : Nat) : (s.wrEff r v i x u).evin = s.evin := rfl
@[simp] theorem State.wrEff_nvmQueue (r : Reg) (v i x u : Nat) : (s.wrEff r v i x u).nvmQueue = s.nvmQueue := rfl
@[simp] theorem State.wrEff_ports (r : Reg) (v i x u : Nat) : (s.wrEff r v i x u).ports = s.ports := rfl
@[simp] theorem State.wrEff_addrPins (r : Reg) (v i x u : Nat) : (s.wrEff r v i x u).addrPins = s.addrPins := rfl
@[simp] theorem State.wrEff_testEn (r : Reg) (v i x u : Nat) : (s.wrEff r v i x u).testEn = s.testEn := rfl
@[simp] theorem State.wrEff_ldr (r : Reg) (v i x u : Nat) : (s.wrEff r v i x u).ldr = s.ldr := rfl
@[simp] theorem State.wrEff_sec (r : Reg) (v i x u : Nat) : (s.wrEff r v i x u).sec = s.sec := rfl
@[simp] theorem State.wrEff_pwr (r : Reg) (v i x u : Nat) : (s.wrEff r v i x u).pwr = s.pwr := rfl
@[simp] theorem State.wrEff_qry (r : Reg) (v i x u : Nat) : (s.wrEff r v i x u).qry = s.qry := rfl
@[simp] theorem State.wrEff_ben (r : Reg) (v i x u : Nat) : (s.wrEff r v i x u).ben = s.ben := rfl
@[simp] theorem State.wrEff_missed (r : Reg) (v i x u : Nat) : (s.wrEff r v i x u).missed = s.missed := rfl
@[simp] theorem State.wrEff_tiers (r : Reg) (v i x u : Nat) : (s.wrEff r v i x u).tiers = s.tiers := rfl
@[simp] theorem State.wrEff_vref (r : Reg) (v i x u : Nat) : (s.wrEff r v i x u).vref = s.vref := rfl
@[simp] theorem State.wrEff_trimSaved (r : Reg) (v i x u : Nat) : (s.wrEff r v i x u).trimSaved = s.trimSaved := rfl
@[simp] theorem State.wrEff_trimDue (r : Reg) (v i x u : Nat) : (s.wrEff r v i x u).trimDue = s.trimDue := rfl
@[simp] theorem State.wrEff_fwUp (r : Reg) (v i x u : Nat) : (s.wrEff r v i x u).fwUp = s.fwUp := rfl
@[simp] theorem State.wrEff_free (r : Reg) (v i x u : Nat) : (s.wrEff r v i x u).free = s.free := rfl
@[simp] theorem State.wrEff_rd (r : Reg) (v i x u : Nat) (r' : Reg) (i' x' u' : Nat) : (s.wrEff r v i x u).rd r' i' x' u' = s.rd r' i' x' u' := rfl

/-! ### capture -/

@[simp] theorem State.capture_pending (r : Reg) (i x u : Nat) : (s.capture r i x u).pending = s.pending := rfl
@[simp] theorem State.capture_dev (r : Reg) (i x u : Nat) : (s.capture r i x u).dev = s.dev := rfl
@[simp] theorem State.capture_now (r : Reg) (i x u : Nat) : (s.capture r i x u).now = s.now := rfl
@[simp] theorem State.capture_osc (r : Reg) (i x u : Nat) : (s.capture r i x u).osc = s.osc := rfl
@[simp] theorem State.capture_regs (r : Reg) (i x u : Nat) : (s.capture r i x u).regs = s.regs := rfl
@[simp] theorem State.capture_eff (r : Reg) (i x u : Nat) : (s.capture r i x u).eff = s.eff := rfl
@[simp] theorem State.capture_held (r : Reg) (i x u : Nat) : (s.capture r i x u).held = s.held := rfl
@[simp] theorem State.capture_readData (r : Reg) (i x u : Nat) : (s.capture r i x u).readData = s.readData := rfl
@[simp] theorem State.capture_presented (r : Reg) (i x u : Nat) : (s.capture r i x u).presented = s.presented := rfl
@[simp] theorem State.capture_commits (r : Reg) (i x u : Nat) : (s.capture r i x u).commits = s.commits := rfl
@[simp] theorem State.capture_holdoff (r : Reg) (i x u : Nat) : (s.capture r i x u).holdoff = s.holdoff := rfl
@[simp] theorem State.capture_mem (r : Reg) (i x u : Nat) : (s.capture r i x u).mem = s.mem := rfl
@[simp] theorem State.capture_poison (r : Reg) (i x u : Nat) : (s.capture r i x u).poison = s.poison := rfl
@[simp] theorem State.capture_epoch (r : Reg) (i x u : Nat) : (s.capture r i x u).epoch = s.epoch := rfl
@[simp] theorem State.capture_pllStarted (r : Reg) (i x u : Nat) : (s.capture r i x u).pllStarted = s.pllStarted := rfl
@[simp] theorem State.capture_lcs (r : Reg) (i x u : Nat) : (s.capture r i x u).lcs = s.lcs := rfl
@[simp] theorem State.capture_lcGen (r : Reg) (i x u : Nat) : (s.capture r i x u).lcGen = s.lcGen := rfl
@[simp] theorem State.capture_clocks (r : Reg) (i x u : Nat) : (s.capture r i x u).clocks = s.clocks := rfl
@[simp] theorem State.capture_gstbs (r : Reg) (i x u : Nat) : (s.capture r i x u).gstbs = s.gstbs := rfl
@[simp] theorem State.capture_wheels (r : Reg) (i x u : Nat) : (s.capture r i x u).wheels = s.wheels := rfl
@[simp] theorem State.capture_cses (r : Reg) (i x u : Nat) : (s.capture r i x u).cses = s.cses := rfl
@[simp] theorem State.capture_stitchers (r : Reg) (i x u : Nat) : (s.capture r i x u).stitchers = s.stitchers := rfl
@[simp] theorem State.capture_queues (r : Reg) (i x u : Nat) : (s.capture r i x u).queues = s.queues := rfl
@[simp] theorem State.capture_staging (r : Reg) (i x u : Nat) : (s.capture r i x u).staging = s.staging := rfl
@[simp] theorem State.capture_rings (r : Reg) (i x u : Nat) : (s.capture r i x u).rings = s.rings := rfl
@[simp] theorem State.capture_outs (r : Reg) (i x u : Nat) : (s.capture r i x u).outs = s.outs := rfl
@[simp] theorem State.capture_lines (r : Reg) (i x u : Nat) : (s.capture r i x u).lines = s.lines := rfl
@[simp] theorem State.capture_pins (r : Reg) (i x u : Nat) : (s.capture r i x u).pins = s.pins := rfl
@[simp] theorem State.capture_capus (r : Reg) (i x u : Nat) : (s.capture r i x u).capus = s.capus := rfl
@[simp] theorem State.capture_evin (r : Reg) (i x u : Nat) : (s.capture r i x u).evin = s.evin := rfl
@[simp] theorem State.capture_nvmQueue (r : Reg) (i x u : Nat) : (s.capture r i x u).nvmQueue = s.nvmQueue := rfl
@[simp] theorem State.capture_ports (r : Reg) (i x u : Nat) : (s.capture r i x u).ports = s.ports := rfl
@[simp] theorem State.capture_addrPins (r : Reg) (i x u : Nat) : (s.capture r i x u).addrPins = s.addrPins := rfl
@[simp] theorem State.capture_testEn (r : Reg) (i x u : Nat) : (s.capture r i x u).testEn = s.testEn := rfl
@[simp] theorem State.capture_ldr (r : Reg) (i x u : Nat) : (s.capture r i x u).ldr = s.ldr := rfl
@[simp] theorem State.capture_sec (r : Reg) (i x u : Nat) : (s.capture r i x u).sec = s.sec := rfl
@[simp] theorem State.capture_pwr (r : Reg) (i x u : Nat) : (s.capture r i x u).pwr = s.pwr := rfl
@[simp] theorem State.capture_qry (r : Reg) (i x u : Nat) : (s.capture r i x u).qry = s.qry := rfl
@[simp] theorem State.capture_ben (r : Reg) (i x u : Nat) : (s.capture r i x u).ben = s.ben := rfl
@[simp] theorem State.capture_missed (r : Reg) (i x u : Nat) : (s.capture r i x u).missed = s.missed := rfl
@[simp] theorem State.capture_tiers (r : Reg) (i x u : Nat) : (s.capture r i x u).tiers = s.tiers := rfl
@[simp] theorem State.capture_vref (r : Reg) (i x u : Nat) : (s.capture r i x u).vref = s.vref := rfl
@[simp] theorem State.capture_trimSaved (r : Reg) (i x u : Nat) : (s.capture r i x u).trimSaved = s.trimSaved := rfl
@[simp] theorem State.capture_trimDue (r : Reg) (i x u : Nat) : (s.capture r i x u).trimDue = s.trimDue := rfl
@[simp] theorem State.capture_fwUp (r : Reg) (i x u : Nat) : (s.capture r i x u).fwUp = s.fwUp := rfl
@[simp] theorem State.capture_free (r : Reg) (i x u : Nat) : (s.capture r i x u).free = s.free := rfl
@[simp] theorem State.capture_rd (r : Reg) (i x u : Nat) (r' : Reg) (i' x' u' : Nat) : (s.capture r i x u).rd r' i' x' u' = s.rd r' i' x' u' := rfl

/-! ### setLc -/

@[simp] theorem State.setLc_pending (i : Nat) (v : Comparator) : (s.setLc i v).pending = s.pending := rfl
@[simp] theorem State.setLc_dev (i : Nat) (v : Comparator) : (s.setLc i v).dev = s.dev := rfl
@[simp] theorem State.setLc_now (i : Nat) (v : Comparator) : (s.setLc i v).now = s.now := rfl
@[simp] theorem State.setLc_osc (i : Nat) (v : Comparator) : (s.setLc i v).osc = s.osc := rfl
@[simp] theorem State.setLc_regs (i : Nat) (v : Comparator) : (s.setLc i v).regs = s.regs := rfl
@[simp] theorem State.setLc_eff (i : Nat) (v : Comparator) : (s.setLc i v).eff = s.eff := rfl
@[simp] theorem State.setLc_cap (i : Nat) (v : Comparator) : (s.setLc i v).cap = s.cap := rfl
@[simp] theorem State.setLc_held (i : Nat) (v : Comparator) : (s.setLc i v).held = s.held := rfl
@[simp] theorem State.setLc_readData (i : Nat) (v : Comparator) : (s.setLc i v).readData = s.readData := rfl
@[simp] theorem State.setLc_presented (i : Nat) (v : Comparator) : (s.setLc i v).presented = s.presented := rfl
@[simp] theorem State.setLc_commits (i : Nat) (v : Comparator) : (s.setLc i v).commits = s.commits := rfl
@[simp] theorem State.setLc_holdoff (i : Nat) (v : Comparator) : (s.setLc i v).holdoff = s.holdoff := rfl
@[simp] theorem State.setLc_mem (i : Nat) (v : Comparator) : (s.setLc i v).mem = s.mem := rfl
@[simp] theorem State.setLc_poison (i : Nat) (v : Comparator) : (s.setLc i v).poison = s.poison := rfl
@[simp] theorem State.setLc_epoch (i : Nat) (v : Comparator) : (s.setLc i v).epoch = s.epoch := rfl
@[simp] theorem State.setLc_pllStarted (i : Nat) (v : Comparator) : (s.setLc i v).pllStarted = s.pllStarted := rfl
@[simp] theorem State.setLc_lcGen (i : Nat) (v : Comparator) : (s.setLc i v).lcGen = s.lcGen := rfl
@[simp] theorem State.setLc_clocks (i : Nat) (v : Comparator) : (s.setLc i v).clocks = s.clocks := rfl
@[simp] theorem State.setLc_gstbs (i : Nat) (v : Comparator) : (s.setLc i v).gstbs = s.gstbs := rfl
@[simp] theorem State.setLc_wheels (i : Nat) (v : Comparator) : (s.setLc i v).wheels = s.wheels := rfl
@[simp] theorem State.setLc_cses (i : Nat) (v : Comparator) : (s.setLc i v).cses = s.cses := rfl
@[simp] theorem State.setLc_stitchers (i : Nat) (v : Comparator) : (s.setLc i v).stitchers = s.stitchers := rfl
@[simp] theorem State.setLc_queues (i : Nat) (v : Comparator) : (s.setLc i v).queues = s.queues := rfl
@[simp] theorem State.setLc_staging (i : Nat) (v : Comparator) : (s.setLc i v).staging = s.staging := rfl
@[simp] theorem State.setLc_rings (i : Nat) (v : Comparator) : (s.setLc i v).rings = s.rings := rfl
@[simp] theorem State.setLc_outs (i : Nat) (v : Comparator) : (s.setLc i v).outs = s.outs := rfl
@[simp] theorem State.setLc_lines (i : Nat) (v : Comparator) : (s.setLc i v).lines = s.lines := rfl
@[simp] theorem State.setLc_pins (i : Nat) (v : Comparator) : (s.setLc i v).pins = s.pins := rfl
@[simp] theorem State.setLc_capus (i : Nat) (v : Comparator) : (s.setLc i v).capus = s.capus := rfl
@[simp] theorem State.setLc_evin (i : Nat) (v : Comparator) : (s.setLc i v).evin = s.evin := rfl
@[simp] theorem State.setLc_nvmQueue (i : Nat) (v : Comparator) : (s.setLc i v).nvmQueue = s.nvmQueue := rfl
@[simp] theorem State.setLc_ports (i : Nat) (v : Comparator) : (s.setLc i v).ports = s.ports := rfl
@[simp] theorem State.setLc_addrPins (i : Nat) (v : Comparator) : (s.setLc i v).addrPins = s.addrPins := rfl
@[simp] theorem State.setLc_testEn (i : Nat) (v : Comparator) : (s.setLc i v).testEn = s.testEn := rfl
@[simp] theorem State.setLc_ldr (i : Nat) (v : Comparator) : (s.setLc i v).ldr = s.ldr := rfl
@[simp] theorem State.setLc_sec (i : Nat) (v : Comparator) : (s.setLc i v).sec = s.sec := rfl
@[simp] theorem State.setLc_pwr (i : Nat) (v : Comparator) : (s.setLc i v).pwr = s.pwr := rfl
@[simp] theorem State.setLc_qry (i : Nat) (v : Comparator) : (s.setLc i v).qry = s.qry := rfl
@[simp] theorem State.setLc_ben (i : Nat) (v : Comparator) : (s.setLc i v).ben = s.ben := rfl
@[simp] theorem State.setLc_missed (i : Nat) (v : Comparator) : (s.setLc i v).missed = s.missed := rfl
@[simp] theorem State.setLc_tiers (i : Nat) (v : Comparator) : (s.setLc i v).tiers = s.tiers := rfl
@[simp] theorem State.setLc_vref (i : Nat) (v : Comparator) : (s.setLc i v).vref = s.vref := rfl
@[simp] theorem State.setLc_trimSaved (i : Nat) (v : Comparator) : (s.setLc i v).trimSaved = s.trimSaved := rfl
@[simp] theorem State.setLc_trimDue (i : Nat) (v : Comparator) : (s.setLc i v).trimDue = s.trimDue := rfl
@[simp] theorem State.setLc_fwUp (i : Nat) (v : Comparator) : (s.setLc i v).fwUp = s.fwUp := rfl
@[simp] theorem State.setLc_free (i : Nat) (v : Comparator) : (s.setLc i v).free = s.free := rfl
@[simp] theorem State.setLc_rd (i : Nat) (v : Comparator) (r' : Reg) (i' x' u' : Nat) : (s.setLc i v).rd r' i' x' u' = s.rd r' i' x' u' := rfl

/-! ### setClock -/

@[simp] theorem State.setClock_pending (i : Nat) (v : QuadClock) : (s.setClock i v).pending = s.pending := rfl
@[simp] theorem State.setClock_dev (i : Nat) (v : QuadClock) : (s.setClock i v).dev = s.dev := rfl
@[simp] theorem State.setClock_now (i : Nat) (v : QuadClock) : (s.setClock i v).now = s.now := rfl
@[simp] theorem State.setClock_osc (i : Nat) (v : QuadClock) : (s.setClock i v).osc = s.osc := rfl
@[simp] theorem State.setClock_regs (i : Nat) (v : QuadClock) : (s.setClock i v).regs = s.regs := rfl
@[simp] theorem State.setClock_eff (i : Nat) (v : QuadClock) : (s.setClock i v).eff = s.eff := rfl
@[simp] theorem State.setClock_cap (i : Nat) (v : QuadClock) : (s.setClock i v).cap = s.cap := rfl
@[simp] theorem State.setClock_held (i : Nat) (v : QuadClock) : (s.setClock i v).held = s.held := rfl
@[simp] theorem State.setClock_readData (i : Nat) (v : QuadClock) : (s.setClock i v).readData = s.readData := rfl
@[simp] theorem State.setClock_presented (i : Nat) (v : QuadClock) : (s.setClock i v).presented = s.presented := rfl
@[simp] theorem State.setClock_commits (i : Nat) (v : QuadClock) : (s.setClock i v).commits = s.commits := rfl
@[simp] theorem State.setClock_holdoff (i : Nat) (v : QuadClock) : (s.setClock i v).holdoff = s.holdoff := rfl
@[simp] theorem State.setClock_mem (i : Nat) (v : QuadClock) : (s.setClock i v).mem = s.mem := rfl
@[simp] theorem State.setClock_poison (i : Nat) (v : QuadClock) : (s.setClock i v).poison = s.poison := rfl
@[simp] theorem State.setClock_epoch (i : Nat) (v : QuadClock) : (s.setClock i v).epoch = s.epoch := rfl
@[simp] theorem State.setClock_pllStarted (i : Nat) (v : QuadClock) : (s.setClock i v).pllStarted = s.pllStarted := rfl
@[simp] theorem State.setClock_lcs (i : Nat) (v : QuadClock) : (s.setClock i v).lcs = s.lcs := rfl
@[simp] theorem State.setClock_lcGen (i : Nat) (v : QuadClock) : (s.setClock i v).lcGen = s.lcGen := rfl
@[simp] theorem State.setClock_gstbs (i : Nat) (v : QuadClock) : (s.setClock i v).gstbs = s.gstbs := rfl
@[simp] theorem State.setClock_wheels (i : Nat) (v : QuadClock) : (s.setClock i v).wheels = s.wheels := rfl
@[simp] theorem State.setClock_cses (i : Nat) (v : QuadClock) : (s.setClock i v).cses = s.cses := rfl
@[simp] theorem State.setClock_stitchers (i : Nat) (v : QuadClock) : (s.setClock i v).stitchers = s.stitchers := rfl
@[simp] theorem State.setClock_queues (i : Nat) (v : QuadClock) : (s.setClock i v).queues = s.queues := rfl
@[simp] theorem State.setClock_staging (i : Nat) (v : QuadClock) : (s.setClock i v).staging = s.staging := rfl
@[simp] theorem State.setClock_rings (i : Nat) (v : QuadClock) : (s.setClock i v).rings = s.rings := rfl
@[simp] theorem State.setClock_outs (i : Nat) (v : QuadClock) : (s.setClock i v).outs = s.outs := rfl
@[simp] theorem State.setClock_lines (i : Nat) (v : QuadClock) : (s.setClock i v).lines = s.lines := rfl
@[simp] theorem State.setClock_pins (i : Nat) (v : QuadClock) : (s.setClock i v).pins = s.pins := rfl
@[simp] theorem State.setClock_capus (i : Nat) (v : QuadClock) : (s.setClock i v).capus = s.capus := rfl
@[simp] theorem State.setClock_evin (i : Nat) (v : QuadClock) : (s.setClock i v).evin = s.evin := rfl
@[simp] theorem State.setClock_nvmQueue (i : Nat) (v : QuadClock) : (s.setClock i v).nvmQueue = s.nvmQueue := rfl
@[simp] theorem State.setClock_ports (i : Nat) (v : QuadClock) : (s.setClock i v).ports = s.ports := rfl
@[simp] theorem State.setClock_addrPins (i : Nat) (v : QuadClock) : (s.setClock i v).addrPins = s.addrPins := rfl
@[simp] theorem State.setClock_testEn (i : Nat) (v : QuadClock) : (s.setClock i v).testEn = s.testEn := rfl
@[simp] theorem State.setClock_ldr (i : Nat) (v : QuadClock) : (s.setClock i v).ldr = s.ldr := rfl
@[simp] theorem State.setClock_sec (i : Nat) (v : QuadClock) : (s.setClock i v).sec = s.sec := rfl
@[simp] theorem State.setClock_pwr (i : Nat) (v : QuadClock) : (s.setClock i v).pwr = s.pwr := rfl
@[simp] theorem State.setClock_qry (i : Nat) (v : QuadClock) : (s.setClock i v).qry = s.qry := rfl
@[simp] theorem State.setClock_ben (i : Nat) (v : QuadClock) : (s.setClock i v).ben = s.ben := rfl
@[simp] theorem State.setClock_missed (i : Nat) (v : QuadClock) : (s.setClock i v).missed = s.missed := rfl
@[simp] theorem State.setClock_tiers (i : Nat) (v : QuadClock) : (s.setClock i v).tiers = s.tiers := rfl
@[simp] theorem State.setClock_vref (i : Nat) (v : QuadClock) : (s.setClock i v).vref = s.vref := rfl
@[simp] theorem State.setClock_trimSaved (i : Nat) (v : QuadClock) : (s.setClock i v).trimSaved = s.trimSaved := rfl
@[simp] theorem State.setClock_trimDue (i : Nat) (v : QuadClock) : (s.setClock i v).trimDue = s.trimDue := rfl
@[simp] theorem State.setClock_fwUp (i : Nat) (v : QuadClock) : (s.setClock i v).fwUp = s.fwUp := rfl
@[simp] theorem State.setClock_free (i : Nat) (v : QuadClock) : (s.setClock i v).free = s.free := rfl
@[simp] theorem State.setClock_rd (i : Nat) (v : QuadClock) (r' : Reg) (i' x' u' : Nat) : (s.setClock i v).rd r' i' x' u' = s.rd r' i' x' u' := rfl

/-! ### setGstb -/

@[simp] theorem State.setGstb_pending (i : Nat) (v : Gstb) : (s.setGstb i v).pending = s.pending := rfl
@[simp] theorem State.setGstb_dev (i : Nat) (v : Gstb) : (s.setGstb i v).dev = s.dev := rfl
@[simp] theorem State.setGstb_now (i : Nat) (v : Gstb) : (s.setGstb i v).now = s.now := rfl
@[simp] theorem State.setGstb_osc (i : Nat) (v : Gstb) : (s.setGstb i v).osc = s.osc := rfl
@[simp] theorem State.setGstb_regs (i : Nat) (v : Gstb) : (s.setGstb i v).regs = s.regs := rfl
@[simp] theorem State.setGstb_eff (i : Nat) (v : Gstb) : (s.setGstb i v).eff = s.eff := rfl
@[simp] theorem State.setGstb_cap (i : Nat) (v : Gstb) : (s.setGstb i v).cap = s.cap := rfl
@[simp] theorem State.setGstb_held (i : Nat) (v : Gstb) : (s.setGstb i v).held = s.held := rfl
@[simp] theorem State.setGstb_readData (i : Nat) (v : Gstb) : (s.setGstb i v).readData = s.readData := rfl
@[simp] theorem State.setGstb_presented (i : Nat) (v : Gstb) : (s.setGstb i v).presented = s.presented := rfl
@[simp] theorem State.setGstb_commits (i : Nat) (v : Gstb) : (s.setGstb i v).commits = s.commits := rfl
@[simp] theorem State.setGstb_holdoff (i : Nat) (v : Gstb) : (s.setGstb i v).holdoff = s.holdoff := rfl
@[simp] theorem State.setGstb_mem (i : Nat) (v : Gstb) : (s.setGstb i v).mem = s.mem := rfl
@[simp] theorem State.setGstb_poison (i : Nat) (v : Gstb) : (s.setGstb i v).poison = s.poison := rfl
@[simp] theorem State.setGstb_epoch (i : Nat) (v : Gstb) : (s.setGstb i v).epoch = s.epoch := rfl
@[simp] theorem State.setGstb_pllStarted (i : Nat) (v : Gstb) : (s.setGstb i v).pllStarted = s.pllStarted := rfl
@[simp] theorem State.setGstb_lcs (i : Nat) (v : Gstb) : (s.setGstb i v).lcs = s.lcs := rfl
@[simp] theorem State.setGstb_lcGen (i : Nat) (v : Gstb) : (s.setGstb i v).lcGen = s.lcGen := rfl
@[simp] theorem State.setGstb_clocks (i : Nat) (v : Gstb) : (s.setGstb i v).clocks = s.clocks := rfl
@[simp] theorem State.setGstb_wheels (i : Nat) (v : Gstb) : (s.setGstb i v).wheels = s.wheels := rfl
@[simp] theorem State.setGstb_cses (i : Nat) (v : Gstb) : (s.setGstb i v).cses = s.cses := rfl
@[simp] theorem State.setGstb_stitchers (i : Nat) (v : Gstb) : (s.setGstb i v).stitchers = s.stitchers := rfl
@[simp] theorem State.setGstb_queues (i : Nat) (v : Gstb) : (s.setGstb i v).queues = s.queues := rfl
@[simp] theorem State.setGstb_staging (i : Nat) (v : Gstb) : (s.setGstb i v).staging = s.staging := rfl
@[simp] theorem State.setGstb_rings (i : Nat) (v : Gstb) : (s.setGstb i v).rings = s.rings := rfl
@[simp] theorem State.setGstb_outs (i : Nat) (v : Gstb) : (s.setGstb i v).outs = s.outs := rfl
@[simp] theorem State.setGstb_lines (i : Nat) (v : Gstb) : (s.setGstb i v).lines = s.lines := rfl
@[simp] theorem State.setGstb_pins (i : Nat) (v : Gstb) : (s.setGstb i v).pins = s.pins := rfl
@[simp] theorem State.setGstb_capus (i : Nat) (v : Gstb) : (s.setGstb i v).capus = s.capus := rfl
@[simp] theorem State.setGstb_evin (i : Nat) (v : Gstb) : (s.setGstb i v).evin = s.evin := rfl
@[simp] theorem State.setGstb_nvmQueue (i : Nat) (v : Gstb) : (s.setGstb i v).nvmQueue = s.nvmQueue := rfl
@[simp] theorem State.setGstb_ports (i : Nat) (v : Gstb) : (s.setGstb i v).ports = s.ports := rfl
@[simp] theorem State.setGstb_addrPins (i : Nat) (v : Gstb) : (s.setGstb i v).addrPins = s.addrPins := rfl
@[simp] theorem State.setGstb_testEn (i : Nat) (v : Gstb) : (s.setGstb i v).testEn = s.testEn := rfl
@[simp] theorem State.setGstb_ldr (i : Nat) (v : Gstb) : (s.setGstb i v).ldr = s.ldr := rfl
@[simp] theorem State.setGstb_sec (i : Nat) (v : Gstb) : (s.setGstb i v).sec = s.sec := rfl
@[simp] theorem State.setGstb_pwr (i : Nat) (v : Gstb) : (s.setGstb i v).pwr = s.pwr := rfl
@[simp] theorem State.setGstb_qry (i : Nat) (v : Gstb) : (s.setGstb i v).qry = s.qry := rfl
@[simp] theorem State.setGstb_ben (i : Nat) (v : Gstb) : (s.setGstb i v).ben = s.ben := rfl
@[simp] theorem State.setGstb_missed (i : Nat) (v : Gstb) : (s.setGstb i v).missed = s.missed := rfl
@[simp] theorem State.setGstb_tiers (i : Nat) (v : Gstb) : (s.setGstb i v).tiers = s.tiers := rfl
@[simp] theorem State.setGstb_vref (i : Nat) (v : Gstb) : (s.setGstb i v).vref = s.vref := rfl
@[simp] theorem State.setGstb_trimSaved (i : Nat) (v : Gstb) : (s.setGstb i v).trimSaved = s.trimSaved := rfl
@[simp] theorem State.setGstb_trimDue (i : Nat) (v : Gstb) : (s.setGstb i v).trimDue = s.trimDue := rfl
@[simp] theorem State.setGstb_fwUp (i : Nat) (v : Gstb) : (s.setGstb i v).fwUp = s.fwUp := rfl
@[simp] theorem State.setGstb_free (i : Nat) (v : Gstb) : (s.setGstb i v).free = s.free := rfl
@[simp] theorem State.setGstb_rd (i : Nat) (v : Gstb) (r' : Reg) (i' x' u' : Nat) : (s.setGstb i v).rd r' i' x' u' = s.rd r' i' x' u' := rfl

/-! ### setWheel -/

@[simp] theorem State.setWheel_pending (i : Nat) (v : Wheel) : (s.setWheel i v).pending = s.pending := rfl
@[simp] theorem State.setWheel_dev (i : Nat) (v : Wheel) : (s.setWheel i v).dev = s.dev := rfl
@[simp] theorem State.setWheel_now (i : Nat) (v : Wheel) : (s.setWheel i v).now = s.now := rfl
@[simp] theorem State.setWheel_osc (i : Nat) (v : Wheel) : (s.setWheel i v).osc = s.osc := rfl
@[simp] theorem State.setWheel_regs (i : Nat) (v : Wheel) : (s.setWheel i v).regs = s.regs := rfl
@[simp] theorem State.setWheel_eff (i : Nat) (v : Wheel) : (s.setWheel i v).eff = s.eff := rfl
@[simp] theorem State.setWheel_cap (i : Nat) (v : Wheel) : (s.setWheel i v).cap = s.cap := rfl
@[simp] theorem State.setWheel_held (i : Nat) (v : Wheel) : (s.setWheel i v).held = s.held := rfl
@[simp] theorem State.setWheel_readData (i : Nat) (v : Wheel) : (s.setWheel i v).readData = s.readData := rfl
@[simp] theorem State.setWheel_presented (i : Nat) (v : Wheel) : (s.setWheel i v).presented = s.presented := rfl
@[simp] theorem State.setWheel_commits (i : Nat) (v : Wheel) : (s.setWheel i v).commits = s.commits := rfl
@[simp] theorem State.setWheel_holdoff (i : Nat) (v : Wheel) : (s.setWheel i v).holdoff = s.holdoff := rfl
@[simp] theorem State.setWheel_mem (i : Nat) (v : Wheel) : (s.setWheel i v).mem = s.mem := rfl
@[simp] theorem State.setWheel_poison (i : Nat) (v : Wheel) : (s.setWheel i v).poison = s.poison := rfl
@[simp] theorem State.setWheel_epoch (i : Nat) (v : Wheel) : (s.setWheel i v).epoch = s.epoch := rfl
@[simp] theorem State.setWheel_pllStarted (i : Nat) (v : Wheel) : (s.setWheel i v).pllStarted = s.pllStarted := rfl
@[simp] theorem State.setWheel_lcs (i : Nat) (v : Wheel) : (s.setWheel i v).lcs = s.lcs := rfl
@[simp] theorem State.setWheel_lcGen (i : Nat) (v : Wheel) : (s.setWheel i v).lcGen = s.lcGen := rfl
@[simp] theorem State.setWheel_clocks (i : Nat) (v : Wheel) : (s.setWheel i v).clocks = s.clocks := rfl
@[simp] theorem State.setWheel_gstbs (i : Nat) (v : Wheel) : (s.setWheel i v).gstbs = s.gstbs := rfl
@[simp] theorem State.setWheel_cses (i : Nat) (v : Wheel) : (s.setWheel i v).cses = s.cses := rfl
@[simp] theorem State.setWheel_stitchers (i : Nat) (v : Wheel) : (s.setWheel i v).stitchers = s.stitchers := rfl
@[simp] theorem State.setWheel_queues (i : Nat) (v : Wheel) : (s.setWheel i v).queues = s.queues := rfl
@[simp] theorem State.setWheel_staging (i : Nat) (v : Wheel) : (s.setWheel i v).staging = s.staging := rfl
@[simp] theorem State.setWheel_rings (i : Nat) (v : Wheel) : (s.setWheel i v).rings = s.rings := rfl
@[simp] theorem State.setWheel_outs (i : Nat) (v : Wheel) : (s.setWheel i v).outs = s.outs := rfl
@[simp] theorem State.setWheel_lines (i : Nat) (v : Wheel) : (s.setWheel i v).lines = s.lines := rfl
@[simp] theorem State.setWheel_pins (i : Nat) (v : Wheel) : (s.setWheel i v).pins = s.pins := rfl
@[simp] theorem State.setWheel_capus (i : Nat) (v : Wheel) : (s.setWheel i v).capus = s.capus := rfl
@[simp] theorem State.setWheel_evin (i : Nat) (v : Wheel) : (s.setWheel i v).evin = s.evin := rfl
@[simp] theorem State.setWheel_nvmQueue (i : Nat) (v : Wheel) : (s.setWheel i v).nvmQueue = s.nvmQueue := rfl
@[simp] theorem State.setWheel_ports (i : Nat) (v : Wheel) : (s.setWheel i v).ports = s.ports := rfl
@[simp] theorem State.setWheel_addrPins (i : Nat) (v : Wheel) : (s.setWheel i v).addrPins = s.addrPins := rfl
@[simp] theorem State.setWheel_testEn (i : Nat) (v : Wheel) : (s.setWheel i v).testEn = s.testEn := rfl
@[simp] theorem State.setWheel_ldr (i : Nat) (v : Wheel) : (s.setWheel i v).ldr = s.ldr := rfl
@[simp] theorem State.setWheel_sec (i : Nat) (v : Wheel) : (s.setWheel i v).sec = s.sec := rfl
@[simp] theorem State.setWheel_pwr (i : Nat) (v : Wheel) : (s.setWheel i v).pwr = s.pwr := rfl
@[simp] theorem State.setWheel_qry (i : Nat) (v : Wheel) : (s.setWheel i v).qry = s.qry := rfl
@[simp] theorem State.setWheel_ben (i : Nat) (v : Wheel) : (s.setWheel i v).ben = s.ben := rfl
@[simp] theorem State.setWheel_missed (i : Nat) (v : Wheel) : (s.setWheel i v).missed = s.missed := rfl
@[simp] theorem State.setWheel_tiers (i : Nat) (v : Wheel) : (s.setWheel i v).tiers = s.tiers := rfl
@[simp] theorem State.setWheel_vref (i : Nat) (v : Wheel) : (s.setWheel i v).vref = s.vref := rfl
@[simp] theorem State.setWheel_trimSaved (i : Nat) (v : Wheel) : (s.setWheel i v).trimSaved = s.trimSaved := rfl
@[simp] theorem State.setWheel_trimDue (i : Nat) (v : Wheel) : (s.setWheel i v).trimDue = s.trimDue := rfl
@[simp] theorem State.setWheel_fwUp (i : Nat) (v : Wheel) : (s.setWheel i v).fwUp = s.fwUp := rfl
@[simp] theorem State.setWheel_free (i : Nat) (v : Wheel) : (s.setWheel i v).free = s.free := rfl
@[simp] theorem State.setWheel_rd (i : Nat) (v : Wheel) (r' : Reg) (i' x' u' : Nat) : (s.setWheel i v).rd r' i' x' u' = s.rd r' i' x' u' := rfl

/-! ### setCse -/

@[simp] theorem State.setCse_pending (i : Nat) (v : Cse) : (s.setCse i v).pending = s.pending := rfl
@[simp] theorem State.setCse_dev (i : Nat) (v : Cse) : (s.setCse i v).dev = s.dev := rfl
@[simp] theorem State.setCse_now (i : Nat) (v : Cse) : (s.setCse i v).now = s.now := rfl
@[simp] theorem State.setCse_osc (i : Nat) (v : Cse) : (s.setCse i v).osc = s.osc := rfl
@[simp] theorem State.setCse_regs (i : Nat) (v : Cse) : (s.setCse i v).regs = s.regs := rfl
@[simp] theorem State.setCse_eff (i : Nat) (v : Cse) : (s.setCse i v).eff = s.eff := rfl
@[simp] theorem State.setCse_cap (i : Nat) (v : Cse) : (s.setCse i v).cap = s.cap := rfl
@[simp] theorem State.setCse_held (i : Nat) (v : Cse) : (s.setCse i v).held = s.held := rfl
@[simp] theorem State.setCse_readData (i : Nat) (v : Cse) : (s.setCse i v).readData = s.readData := rfl
@[simp] theorem State.setCse_presented (i : Nat) (v : Cse) : (s.setCse i v).presented = s.presented := rfl
@[simp] theorem State.setCse_commits (i : Nat) (v : Cse) : (s.setCse i v).commits = s.commits := rfl
@[simp] theorem State.setCse_holdoff (i : Nat) (v : Cse) : (s.setCse i v).holdoff = s.holdoff := rfl
@[simp] theorem State.setCse_mem (i : Nat) (v : Cse) : (s.setCse i v).mem = s.mem := rfl
@[simp] theorem State.setCse_poison (i : Nat) (v : Cse) : (s.setCse i v).poison = s.poison := rfl
@[simp] theorem State.setCse_epoch (i : Nat) (v : Cse) : (s.setCse i v).epoch = s.epoch := rfl
@[simp] theorem State.setCse_pllStarted (i : Nat) (v : Cse) : (s.setCse i v).pllStarted = s.pllStarted := rfl
@[simp] theorem State.setCse_lcs (i : Nat) (v : Cse) : (s.setCse i v).lcs = s.lcs := rfl
@[simp] theorem State.setCse_lcGen (i : Nat) (v : Cse) : (s.setCse i v).lcGen = s.lcGen := rfl
@[simp] theorem State.setCse_clocks (i : Nat) (v : Cse) : (s.setCse i v).clocks = s.clocks := rfl
@[simp] theorem State.setCse_gstbs (i : Nat) (v : Cse) : (s.setCse i v).gstbs = s.gstbs := rfl
@[simp] theorem State.setCse_wheels (i : Nat) (v : Cse) : (s.setCse i v).wheels = s.wheels := rfl
@[simp] theorem State.setCse_stitchers (i : Nat) (v : Cse) : (s.setCse i v).stitchers = s.stitchers := rfl
@[simp] theorem State.setCse_queues (i : Nat) (v : Cse) : (s.setCse i v).queues = s.queues := rfl
@[simp] theorem State.setCse_staging (i : Nat) (v : Cse) : (s.setCse i v).staging = s.staging := rfl
@[simp] theorem State.setCse_rings (i : Nat) (v : Cse) : (s.setCse i v).rings = s.rings := rfl
@[simp] theorem State.setCse_outs (i : Nat) (v : Cse) : (s.setCse i v).outs = s.outs := rfl
@[simp] theorem State.setCse_lines (i : Nat) (v : Cse) : (s.setCse i v).lines = s.lines := rfl
@[simp] theorem State.setCse_pins (i : Nat) (v : Cse) : (s.setCse i v).pins = s.pins := rfl
@[simp] theorem State.setCse_capus (i : Nat) (v : Cse) : (s.setCse i v).capus = s.capus := rfl
@[simp] theorem State.setCse_evin (i : Nat) (v : Cse) : (s.setCse i v).evin = s.evin := rfl
@[simp] theorem State.setCse_nvmQueue (i : Nat) (v : Cse) : (s.setCse i v).nvmQueue = s.nvmQueue := rfl
@[simp] theorem State.setCse_ports (i : Nat) (v : Cse) : (s.setCse i v).ports = s.ports := rfl
@[simp] theorem State.setCse_addrPins (i : Nat) (v : Cse) : (s.setCse i v).addrPins = s.addrPins := rfl
@[simp] theorem State.setCse_testEn (i : Nat) (v : Cse) : (s.setCse i v).testEn = s.testEn := rfl
@[simp] theorem State.setCse_ldr (i : Nat) (v : Cse) : (s.setCse i v).ldr = s.ldr := rfl
@[simp] theorem State.setCse_sec (i : Nat) (v : Cse) : (s.setCse i v).sec = s.sec := rfl
@[simp] theorem State.setCse_pwr (i : Nat) (v : Cse) : (s.setCse i v).pwr = s.pwr := rfl
@[simp] theorem State.setCse_qry (i : Nat) (v : Cse) : (s.setCse i v).qry = s.qry := rfl
@[simp] theorem State.setCse_ben (i : Nat) (v : Cse) : (s.setCse i v).ben = s.ben := rfl
@[simp] theorem State.setCse_missed (i : Nat) (v : Cse) : (s.setCse i v).missed = s.missed := rfl
@[simp] theorem State.setCse_tiers (i : Nat) (v : Cse) : (s.setCse i v).tiers = s.tiers := rfl
@[simp] theorem State.setCse_vref (i : Nat) (v : Cse) : (s.setCse i v).vref = s.vref := rfl
@[simp] theorem State.setCse_trimSaved (i : Nat) (v : Cse) : (s.setCse i v).trimSaved = s.trimSaved := rfl
@[simp] theorem State.setCse_trimDue (i : Nat) (v : Cse) : (s.setCse i v).trimDue = s.trimDue := rfl
@[simp] theorem State.setCse_fwUp (i : Nat) (v : Cse) : (s.setCse i v).fwUp = s.fwUp := rfl
@[simp] theorem State.setCse_free (i : Nat) (v : Cse) : (s.setCse i v).free = s.free := rfl
@[simp] theorem State.setCse_rd (i : Nat) (v : Cse) (r' : Reg) (i' x' u' : Nat) : (s.setCse i v).rd r' i' x' u' = s.rd r' i' x' u' := rfl

/-! ### setStitcher -/

@[simp] theorem State.setStitcher_pending (i : Nat) (v : Stitcher) : (s.setStitcher i v).pending = s.pending := rfl
@[simp] theorem State.setStitcher_dev (i : Nat) (v : Stitcher) : (s.setStitcher i v).dev = s.dev := rfl
@[simp] theorem State.setStitcher_now (i : Nat) (v : Stitcher) : (s.setStitcher i v).now = s.now := rfl
@[simp] theorem State.setStitcher_osc (i : Nat) (v : Stitcher) : (s.setStitcher i v).osc = s.osc := rfl
@[simp] theorem State.setStitcher_regs (i : Nat) (v : Stitcher) : (s.setStitcher i v).regs = s.regs := rfl
@[simp] theorem State.setStitcher_eff (i : Nat) (v : Stitcher) : (s.setStitcher i v).eff = s.eff := rfl
@[simp] theorem State.setStitcher_cap (i : Nat) (v : Stitcher) : (s.setStitcher i v).cap = s.cap := rfl
@[simp] theorem State.setStitcher_held (i : Nat) (v : Stitcher) : (s.setStitcher i v).held = s.held := rfl
@[simp] theorem State.setStitcher_readData (i : Nat) (v : Stitcher) : (s.setStitcher i v).readData = s.readData := rfl
@[simp] theorem State.setStitcher_presented (i : Nat) (v : Stitcher) : (s.setStitcher i v).presented = s.presented := rfl
@[simp] theorem State.setStitcher_commits (i : Nat) (v : Stitcher) : (s.setStitcher i v).commits = s.commits := rfl
@[simp] theorem State.setStitcher_holdoff (i : Nat) (v : Stitcher) : (s.setStitcher i v).holdoff = s.holdoff := rfl
@[simp] theorem State.setStitcher_mem (i : Nat) (v : Stitcher) : (s.setStitcher i v).mem = s.mem := rfl
@[simp] theorem State.setStitcher_poison (i : Nat) (v : Stitcher) : (s.setStitcher i v).poison = s.poison := rfl
@[simp] theorem State.setStitcher_epoch (i : Nat) (v : Stitcher) : (s.setStitcher i v).epoch = s.epoch := rfl
@[simp] theorem State.setStitcher_pllStarted (i : Nat) (v : Stitcher) : (s.setStitcher i v).pllStarted = s.pllStarted := rfl
@[simp] theorem State.setStitcher_lcs (i : Nat) (v : Stitcher) : (s.setStitcher i v).lcs = s.lcs := rfl
@[simp] theorem State.setStitcher_lcGen (i : Nat) (v : Stitcher) : (s.setStitcher i v).lcGen = s.lcGen := rfl
@[simp] theorem State.setStitcher_clocks (i : Nat) (v : Stitcher) : (s.setStitcher i v).clocks = s.clocks := rfl
@[simp] theorem State.setStitcher_gstbs (i : Nat) (v : Stitcher) : (s.setStitcher i v).gstbs = s.gstbs := rfl
@[simp] theorem State.setStitcher_wheels (i : Nat) (v : Stitcher) : (s.setStitcher i v).wheels = s.wheels := rfl
@[simp] theorem State.setStitcher_cses (i : Nat) (v : Stitcher) : (s.setStitcher i v).cses = s.cses := rfl
@[simp] theorem State.setStitcher_queues (i : Nat) (v : Stitcher) : (s.setStitcher i v).queues = s.queues := rfl
@[simp] theorem State.setStitcher_staging (i : Nat) (v : Stitcher) : (s.setStitcher i v).staging = s.staging := rfl
@[simp] theorem State.setStitcher_rings (i : Nat) (v : Stitcher) : (s.setStitcher i v).rings = s.rings := rfl
@[simp] theorem State.setStitcher_outs (i : Nat) (v : Stitcher) : (s.setStitcher i v).outs = s.outs := rfl
@[simp] theorem State.setStitcher_lines (i : Nat) (v : Stitcher) : (s.setStitcher i v).lines = s.lines := rfl
@[simp] theorem State.setStitcher_pins (i : Nat) (v : Stitcher) : (s.setStitcher i v).pins = s.pins := rfl
@[simp] theorem State.setStitcher_capus (i : Nat) (v : Stitcher) : (s.setStitcher i v).capus = s.capus := rfl
@[simp] theorem State.setStitcher_evin (i : Nat) (v : Stitcher) : (s.setStitcher i v).evin = s.evin := rfl
@[simp] theorem State.setStitcher_nvmQueue (i : Nat) (v : Stitcher) : (s.setStitcher i v).nvmQueue = s.nvmQueue := rfl
@[simp] theorem State.setStitcher_ports (i : Nat) (v : Stitcher) : (s.setStitcher i v).ports = s.ports := rfl
@[simp] theorem State.setStitcher_addrPins (i : Nat) (v : Stitcher) : (s.setStitcher i v).addrPins = s.addrPins := rfl
@[simp] theorem State.setStitcher_testEn (i : Nat) (v : Stitcher) : (s.setStitcher i v).testEn = s.testEn := rfl
@[simp] theorem State.setStitcher_ldr (i : Nat) (v : Stitcher) : (s.setStitcher i v).ldr = s.ldr := rfl
@[simp] theorem State.setStitcher_sec (i : Nat) (v : Stitcher) : (s.setStitcher i v).sec = s.sec := rfl
@[simp] theorem State.setStitcher_pwr (i : Nat) (v : Stitcher) : (s.setStitcher i v).pwr = s.pwr := rfl
@[simp] theorem State.setStitcher_qry (i : Nat) (v : Stitcher) : (s.setStitcher i v).qry = s.qry := rfl
@[simp] theorem State.setStitcher_ben (i : Nat) (v : Stitcher) : (s.setStitcher i v).ben = s.ben := rfl
@[simp] theorem State.setStitcher_missed (i : Nat) (v : Stitcher) : (s.setStitcher i v).missed = s.missed := rfl
@[simp] theorem State.setStitcher_tiers (i : Nat) (v : Stitcher) : (s.setStitcher i v).tiers = s.tiers := rfl
@[simp] theorem State.setStitcher_vref (i : Nat) (v : Stitcher) : (s.setStitcher i v).vref = s.vref := rfl
@[simp] theorem State.setStitcher_trimSaved (i : Nat) (v : Stitcher) : (s.setStitcher i v).trimSaved = s.trimSaved := rfl
@[simp] theorem State.setStitcher_trimDue (i : Nat) (v : Stitcher) : (s.setStitcher i v).trimDue = s.trimDue := rfl
@[simp] theorem State.setStitcher_fwUp (i : Nat) (v : Stitcher) : (s.setStitcher i v).fwUp = s.fwUp := rfl
@[simp] theorem State.setStitcher_free (i : Nat) (v : Stitcher) : (s.setStitcher i v).free = s.free := rfl
@[simp] theorem State.setStitcher_rd (i : Nat) (v : Stitcher) (r' : Reg) (i' x' u' : Nat) : (s.setStitcher i v).rd r' i' x' u' = s.rd r' i' x' u' := rfl

/-! ### setQueue -/

@[simp] theorem State.setQueue_pending (i : Nat) (v : TackQueue) : (s.setQueue i v).pending = s.pending := rfl
@[simp] theorem State.setQueue_dev (i : Nat) (v : TackQueue) : (s.setQueue i v).dev = s.dev := rfl
@[simp] theorem State.setQueue_now (i : Nat) (v : TackQueue) : (s.setQueue i v).now = s.now := rfl
@[simp] theorem State.setQueue_osc (i : Nat) (v : TackQueue) : (s.setQueue i v).osc = s.osc := rfl
@[simp] theorem State.setQueue_regs (i : Nat) (v : TackQueue) : (s.setQueue i v).regs = s.regs := rfl
@[simp] theorem State.setQueue_eff (i : Nat) (v : TackQueue) : (s.setQueue i v).eff = s.eff := rfl
@[simp] theorem State.setQueue_cap (i : Nat) (v : TackQueue) : (s.setQueue i v).cap = s.cap := rfl
@[simp] theorem State.setQueue_held (i : Nat) (v : TackQueue) : (s.setQueue i v).held = s.held := rfl
@[simp] theorem State.setQueue_readData (i : Nat) (v : TackQueue) : (s.setQueue i v).readData = s.readData := rfl
@[simp] theorem State.setQueue_presented (i : Nat) (v : TackQueue) : (s.setQueue i v).presented = s.presented := rfl
@[simp] theorem State.setQueue_commits (i : Nat) (v : TackQueue) : (s.setQueue i v).commits = s.commits := rfl
@[simp] theorem State.setQueue_holdoff (i : Nat) (v : TackQueue) : (s.setQueue i v).holdoff = s.holdoff := rfl
@[simp] theorem State.setQueue_mem (i : Nat) (v : TackQueue) : (s.setQueue i v).mem = s.mem := rfl
@[simp] theorem State.setQueue_poison (i : Nat) (v : TackQueue) : (s.setQueue i v).poison = s.poison := rfl
@[simp] theorem State.setQueue_epoch (i : Nat) (v : TackQueue) : (s.setQueue i v).epoch = s.epoch := rfl
@[simp] theorem State.setQueue_pllStarted (i : Nat) (v : TackQueue) : (s.setQueue i v).pllStarted = s.pllStarted := rfl
@[simp] theorem State.setQueue_lcs (i : Nat) (v : TackQueue) : (s.setQueue i v).lcs = s.lcs := rfl
@[simp] theorem State.setQueue_lcGen (i : Nat) (v : TackQueue) : (s.setQueue i v).lcGen = s.lcGen := rfl
@[simp] theorem State.setQueue_clocks (i : Nat) (v : TackQueue) : (s.setQueue i v).clocks = s.clocks := rfl
@[simp] theorem State.setQueue_gstbs (i : Nat) (v : TackQueue) : (s.setQueue i v).gstbs = s.gstbs := rfl
@[simp] theorem State.setQueue_wheels (i : Nat) (v : TackQueue) : (s.setQueue i v).wheels = s.wheels := rfl
@[simp] theorem State.setQueue_cses (i : Nat) (v : TackQueue) : (s.setQueue i v).cses = s.cses := rfl
@[simp] theorem State.setQueue_stitchers (i : Nat) (v : TackQueue) : (s.setQueue i v).stitchers = s.stitchers := rfl
@[simp] theorem State.setQueue_staging (i : Nat) (v : TackQueue) : (s.setQueue i v).staging = s.staging := rfl
@[simp] theorem State.setQueue_rings (i : Nat) (v : TackQueue) : (s.setQueue i v).rings = s.rings := rfl
@[simp] theorem State.setQueue_outs (i : Nat) (v : TackQueue) : (s.setQueue i v).outs = s.outs := rfl
@[simp] theorem State.setQueue_lines (i : Nat) (v : TackQueue) : (s.setQueue i v).lines = s.lines := rfl
@[simp] theorem State.setQueue_pins (i : Nat) (v : TackQueue) : (s.setQueue i v).pins = s.pins := rfl
@[simp] theorem State.setQueue_capus (i : Nat) (v : TackQueue) : (s.setQueue i v).capus = s.capus := rfl
@[simp] theorem State.setQueue_evin (i : Nat) (v : TackQueue) : (s.setQueue i v).evin = s.evin := rfl
@[simp] theorem State.setQueue_nvmQueue (i : Nat) (v : TackQueue) : (s.setQueue i v).nvmQueue = s.nvmQueue := rfl
@[simp] theorem State.setQueue_ports (i : Nat) (v : TackQueue) : (s.setQueue i v).ports = s.ports := rfl
@[simp] theorem State.setQueue_addrPins (i : Nat) (v : TackQueue) : (s.setQueue i v).addrPins = s.addrPins := rfl
@[simp] theorem State.setQueue_testEn (i : Nat) (v : TackQueue) : (s.setQueue i v).testEn = s.testEn := rfl
@[simp] theorem State.setQueue_ldr (i : Nat) (v : TackQueue) : (s.setQueue i v).ldr = s.ldr := rfl
@[simp] theorem State.setQueue_sec (i : Nat) (v : TackQueue) : (s.setQueue i v).sec = s.sec := rfl
@[simp] theorem State.setQueue_pwr (i : Nat) (v : TackQueue) : (s.setQueue i v).pwr = s.pwr := rfl
@[simp] theorem State.setQueue_qry (i : Nat) (v : TackQueue) : (s.setQueue i v).qry = s.qry := rfl
@[simp] theorem State.setQueue_ben (i : Nat) (v : TackQueue) : (s.setQueue i v).ben = s.ben := rfl
@[simp] theorem State.setQueue_missed (i : Nat) (v : TackQueue) : (s.setQueue i v).missed = s.missed := rfl
@[simp] theorem State.setQueue_tiers (i : Nat) (v : TackQueue) : (s.setQueue i v).tiers = s.tiers := rfl
@[simp] theorem State.setQueue_vref (i : Nat) (v : TackQueue) : (s.setQueue i v).vref = s.vref := rfl
@[simp] theorem State.setQueue_trimSaved (i : Nat) (v : TackQueue) : (s.setQueue i v).trimSaved = s.trimSaved := rfl
@[simp] theorem State.setQueue_trimDue (i : Nat) (v : TackQueue) : (s.setQueue i v).trimDue = s.trimDue := rfl
@[simp] theorem State.setQueue_fwUp (i : Nat) (v : TackQueue) : (s.setQueue i v).fwUp = s.fwUp := rfl
@[simp] theorem State.setQueue_free (i : Nat) (v : TackQueue) : (s.setQueue i v).free = s.free := rfl
@[simp] theorem State.setQueue_rd (i : Nat) (v : TackQueue) (r' : Reg) (i' x' u' : Nat) : (s.setQueue i v).rd r' i' x' u' = s.rd r' i' x' u' := rfl

/-! ### setStage -/

@[simp] theorem State.setStage_pending (i : Nat) (v : Staging) : (s.setStage i v).pending = s.pending := rfl
@[simp] theorem State.setStage_dev (i : Nat) (v : Staging) : (s.setStage i v).dev = s.dev := rfl
@[simp] theorem State.setStage_now (i : Nat) (v : Staging) : (s.setStage i v).now = s.now := rfl
@[simp] theorem State.setStage_osc (i : Nat) (v : Staging) : (s.setStage i v).osc = s.osc := rfl
@[simp] theorem State.setStage_regs (i : Nat) (v : Staging) : (s.setStage i v).regs = s.regs := rfl
@[simp] theorem State.setStage_eff (i : Nat) (v : Staging) : (s.setStage i v).eff = s.eff := rfl
@[simp] theorem State.setStage_cap (i : Nat) (v : Staging) : (s.setStage i v).cap = s.cap := rfl
@[simp] theorem State.setStage_held (i : Nat) (v : Staging) : (s.setStage i v).held = s.held := rfl
@[simp] theorem State.setStage_readData (i : Nat) (v : Staging) : (s.setStage i v).readData = s.readData := rfl
@[simp] theorem State.setStage_presented (i : Nat) (v : Staging) : (s.setStage i v).presented = s.presented := rfl
@[simp] theorem State.setStage_commits (i : Nat) (v : Staging) : (s.setStage i v).commits = s.commits := rfl
@[simp] theorem State.setStage_holdoff (i : Nat) (v : Staging) : (s.setStage i v).holdoff = s.holdoff := rfl
@[simp] theorem State.setStage_mem (i : Nat) (v : Staging) : (s.setStage i v).mem = s.mem := rfl
@[simp] theorem State.setStage_poison (i : Nat) (v : Staging) : (s.setStage i v).poison = s.poison := rfl
@[simp] theorem State.setStage_epoch (i : Nat) (v : Staging) : (s.setStage i v).epoch = s.epoch := rfl
@[simp] theorem State.setStage_pllStarted (i : Nat) (v : Staging) : (s.setStage i v).pllStarted = s.pllStarted := rfl
@[simp] theorem State.setStage_lcs (i : Nat) (v : Staging) : (s.setStage i v).lcs = s.lcs := rfl
@[simp] theorem State.setStage_lcGen (i : Nat) (v : Staging) : (s.setStage i v).lcGen = s.lcGen := rfl
@[simp] theorem State.setStage_clocks (i : Nat) (v : Staging) : (s.setStage i v).clocks = s.clocks := rfl
@[simp] theorem State.setStage_gstbs (i : Nat) (v : Staging) : (s.setStage i v).gstbs = s.gstbs := rfl
@[simp] theorem State.setStage_wheels (i : Nat) (v : Staging) : (s.setStage i v).wheels = s.wheels := rfl
@[simp] theorem State.setStage_cses (i : Nat) (v : Staging) : (s.setStage i v).cses = s.cses := rfl
@[simp] theorem State.setStage_stitchers (i : Nat) (v : Staging) : (s.setStage i v).stitchers = s.stitchers := rfl
@[simp] theorem State.setStage_queues (i : Nat) (v : Staging) : (s.setStage i v).queues = s.queues := rfl
@[simp] theorem State.setStage_rings (i : Nat) (v : Staging) : (s.setStage i v).rings = s.rings := rfl
@[simp] theorem State.setStage_outs (i : Nat) (v : Staging) : (s.setStage i v).outs = s.outs := rfl
@[simp] theorem State.setStage_lines (i : Nat) (v : Staging) : (s.setStage i v).lines = s.lines := rfl
@[simp] theorem State.setStage_pins (i : Nat) (v : Staging) : (s.setStage i v).pins = s.pins := rfl
@[simp] theorem State.setStage_capus (i : Nat) (v : Staging) : (s.setStage i v).capus = s.capus := rfl
@[simp] theorem State.setStage_evin (i : Nat) (v : Staging) : (s.setStage i v).evin = s.evin := rfl
@[simp] theorem State.setStage_nvmQueue (i : Nat) (v : Staging) : (s.setStage i v).nvmQueue = s.nvmQueue := rfl
@[simp] theorem State.setStage_ports (i : Nat) (v : Staging) : (s.setStage i v).ports = s.ports := rfl
@[simp] theorem State.setStage_addrPins (i : Nat) (v : Staging) : (s.setStage i v).addrPins = s.addrPins := rfl
@[simp] theorem State.setStage_testEn (i : Nat) (v : Staging) : (s.setStage i v).testEn = s.testEn := rfl
@[simp] theorem State.setStage_ldr (i : Nat) (v : Staging) : (s.setStage i v).ldr = s.ldr := rfl
@[simp] theorem State.setStage_sec (i : Nat) (v : Staging) : (s.setStage i v).sec = s.sec := rfl
@[simp] theorem State.setStage_pwr (i : Nat) (v : Staging) : (s.setStage i v).pwr = s.pwr := rfl
@[simp] theorem State.setStage_qry (i : Nat) (v : Staging) : (s.setStage i v).qry = s.qry := rfl
@[simp] theorem State.setStage_ben (i : Nat) (v : Staging) : (s.setStage i v).ben = s.ben := rfl
@[simp] theorem State.setStage_missed (i : Nat) (v : Staging) : (s.setStage i v).missed = s.missed := rfl
@[simp] theorem State.setStage_tiers (i : Nat) (v : Staging) : (s.setStage i v).tiers = s.tiers := rfl
@[simp] theorem State.setStage_vref (i : Nat) (v : Staging) : (s.setStage i v).vref = s.vref := rfl
@[simp] theorem State.setStage_trimSaved (i : Nat) (v : Staging) : (s.setStage i v).trimSaved = s.trimSaved := rfl
@[simp] theorem State.setStage_trimDue (i : Nat) (v : Staging) : (s.setStage i v).trimDue = s.trimDue := rfl
@[simp] theorem State.setStage_fwUp (i : Nat) (v : Staging) : (s.setStage i v).fwUp = s.fwUp := rfl
@[simp] theorem State.setStage_free (i : Nat) (v : Staging) : (s.setStage i v).free = s.free := rfl
@[simp] theorem State.setStage_rd (i : Nat) (v : Staging) (r' : Reg) (i' x' u' : Nat) : (s.setStage i v).rd r' i' x' u' = s.rd r' i' x' u' := rfl

/-! ### setRing -/

@[simp] theorem State.setRing_pending (i : Nat) (v : Ring) : (s.setRing i v).pending = s.pending := rfl
@[simp] theorem State.setRing_dev (i : Nat) (v : Ring) : (s.setRing i v).dev = s.dev := rfl
@[simp] theorem State.setRing_now (i : Nat) (v : Ring) : (s.setRing i v).now = s.now := rfl
@[simp] theorem State.setRing_osc (i : Nat) (v : Ring) : (s.setRing i v).osc = s.osc := rfl
@[simp] theorem State.setRing_regs (i : Nat) (v : Ring) : (s.setRing i v).regs = s.regs := rfl
@[simp] theorem State.setRing_eff (i : Nat) (v : Ring) : (s.setRing i v).eff = s.eff := rfl
@[simp] theorem State.setRing_cap (i : Nat) (v : Ring) : (s.setRing i v).cap = s.cap := rfl
@[simp] theorem State.setRing_held (i : Nat) (v : Ring) : (s.setRing i v).held = s.held := rfl
@[simp] theorem State.setRing_readData (i : Nat) (v : Ring) : (s.setRing i v).readData = s.readData := rfl
@[simp] theorem State.setRing_presented (i : Nat) (v : Ring) : (s.setRing i v).presented = s.presented := rfl
@[simp] theorem State.setRing_commits (i : Nat) (v : Ring) : (s.setRing i v).commits = s.commits := rfl
@[simp] theorem State.setRing_holdoff (i : Nat) (v : Ring) : (s.setRing i v).holdoff = s.holdoff := rfl
@[simp] theorem State.setRing_mem (i : Nat) (v : Ring) : (s.setRing i v).mem = s.mem := rfl
@[simp] theorem State.setRing_poison (i : Nat) (v : Ring) : (s.setRing i v).poison = s.poison := rfl
@[simp] theorem State.setRing_epoch (i : Nat) (v : Ring) : (s.setRing i v).epoch = s.epoch := rfl
@[simp] theorem State.setRing_pllStarted (i : Nat) (v : Ring) : (s.setRing i v).pllStarted = s.pllStarted := rfl
@[simp] theorem State.setRing_lcs (i : Nat) (v : Ring) : (s.setRing i v).lcs = s.lcs := rfl
@[simp] theorem State.setRing_lcGen (i : Nat) (v : Ring) : (s.setRing i v).lcGen = s.lcGen := rfl
@[simp] theorem State.setRing_clocks (i : Nat) (v : Ring) : (s.setRing i v).clocks = s.clocks := rfl
@[simp] theorem State.setRing_gstbs (i : Nat) (v : Ring) : (s.setRing i v).gstbs = s.gstbs := rfl
@[simp] theorem State.setRing_wheels (i : Nat) (v : Ring) : (s.setRing i v).wheels = s.wheels := rfl
@[simp] theorem State.setRing_cses (i : Nat) (v : Ring) : (s.setRing i v).cses = s.cses := rfl
@[simp] theorem State.setRing_stitchers (i : Nat) (v : Ring) : (s.setRing i v).stitchers = s.stitchers := rfl
@[simp] theorem State.setRing_queues (i : Nat) (v : Ring) : (s.setRing i v).queues = s.queues := rfl
@[simp] theorem State.setRing_staging (i : Nat) (v : Ring) : (s.setRing i v).staging = s.staging := rfl
@[simp] theorem State.setRing_outs (i : Nat) (v : Ring) : (s.setRing i v).outs = s.outs := rfl
@[simp] theorem State.setRing_lines (i : Nat) (v : Ring) : (s.setRing i v).lines = s.lines := rfl
@[simp] theorem State.setRing_pins (i : Nat) (v : Ring) : (s.setRing i v).pins = s.pins := rfl
@[simp] theorem State.setRing_capus (i : Nat) (v : Ring) : (s.setRing i v).capus = s.capus := rfl
@[simp] theorem State.setRing_evin (i : Nat) (v : Ring) : (s.setRing i v).evin = s.evin := rfl
@[simp] theorem State.setRing_nvmQueue (i : Nat) (v : Ring) : (s.setRing i v).nvmQueue = s.nvmQueue := rfl
@[simp] theorem State.setRing_ports (i : Nat) (v : Ring) : (s.setRing i v).ports = s.ports := rfl
@[simp] theorem State.setRing_addrPins (i : Nat) (v : Ring) : (s.setRing i v).addrPins = s.addrPins := rfl
@[simp] theorem State.setRing_testEn (i : Nat) (v : Ring) : (s.setRing i v).testEn = s.testEn := rfl
@[simp] theorem State.setRing_ldr (i : Nat) (v : Ring) : (s.setRing i v).ldr = s.ldr := rfl
@[simp] theorem State.setRing_sec (i : Nat) (v : Ring) : (s.setRing i v).sec = s.sec := rfl
@[simp] theorem State.setRing_pwr (i : Nat) (v : Ring) : (s.setRing i v).pwr = s.pwr := rfl
@[simp] theorem State.setRing_qry (i : Nat) (v : Ring) : (s.setRing i v).qry = s.qry := rfl
@[simp] theorem State.setRing_ben (i : Nat) (v : Ring) : (s.setRing i v).ben = s.ben := rfl
@[simp] theorem State.setRing_missed (i : Nat) (v : Ring) : (s.setRing i v).missed = s.missed := rfl
@[simp] theorem State.setRing_tiers (i : Nat) (v : Ring) : (s.setRing i v).tiers = s.tiers := rfl
@[simp] theorem State.setRing_vref (i : Nat) (v : Ring) : (s.setRing i v).vref = s.vref := rfl
@[simp] theorem State.setRing_trimSaved (i : Nat) (v : Ring) : (s.setRing i v).trimSaved = s.trimSaved := rfl
@[simp] theorem State.setRing_trimDue (i : Nat) (v : Ring) : (s.setRing i v).trimDue = s.trimDue := rfl
@[simp] theorem State.setRing_fwUp (i : Nat) (v : Ring) : (s.setRing i v).fwUp = s.fwUp := rfl
@[simp] theorem State.setRing_free (i : Nat) (v : Ring) : (s.setRing i v).free = s.free := rfl
@[simp] theorem State.setRing_rd (i : Nat) (v : Ring) (r' : Reg) (i' x' u' : Nat) : (s.setRing i v).rd r' i' x' u' = s.rd r' i' x' u' := rfl

/-! ### setOut -/

@[simp] theorem State.setOut_pending (i : Nat) (v : OutChan) : (s.setOut i v).pending = s.pending := rfl
@[simp] theorem State.setOut_dev (i : Nat) (v : OutChan) : (s.setOut i v).dev = s.dev := rfl
@[simp] theorem State.setOut_now (i : Nat) (v : OutChan) : (s.setOut i v).now = s.now := rfl
@[simp] theorem State.setOut_osc (i : Nat) (v : OutChan) : (s.setOut i v).osc = s.osc := rfl
@[simp] theorem State.setOut_regs (i : Nat) (v : OutChan) : (s.setOut i v).regs = s.regs := rfl
@[simp] theorem State.setOut_eff (i : Nat) (v : OutChan) : (s.setOut i v).eff = s.eff := rfl
@[simp] theorem State.setOut_cap (i : Nat) (v : OutChan) : (s.setOut i v).cap = s.cap := rfl
@[simp] theorem State.setOut_held (i : Nat) (v : OutChan) : (s.setOut i v).held = s.held := rfl
@[simp] theorem State.setOut_readData (i : Nat) (v : OutChan) : (s.setOut i v).readData = s.readData := rfl
@[simp] theorem State.setOut_presented (i : Nat) (v : OutChan) : (s.setOut i v).presented = s.presented := rfl
@[simp] theorem State.setOut_commits (i : Nat) (v : OutChan) : (s.setOut i v).commits = s.commits := rfl
@[simp] theorem State.setOut_holdoff (i : Nat) (v : OutChan) : (s.setOut i v).holdoff = s.holdoff := rfl
@[simp] theorem State.setOut_mem (i : Nat) (v : OutChan) : (s.setOut i v).mem = s.mem := rfl
@[simp] theorem State.setOut_poison (i : Nat) (v : OutChan) : (s.setOut i v).poison = s.poison := rfl
@[simp] theorem State.setOut_epoch (i : Nat) (v : OutChan) : (s.setOut i v).epoch = s.epoch := rfl
@[simp] theorem State.setOut_pllStarted (i : Nat) (v : OutChan) : (s.setOut i v).pllStarted = s.pllStarted := rfl
@[simp] theorem State.setOut_lcs (i : Nat) (v : OutChan) : (s.setOut i v).lcs = s.lcs := rfl
@[simp] theorem State.setOut_lcGen (i : Nat) (v : OutChan) : (s.setOut i v).lcGen = s.lcGen := rfl
@[simp] theorem State.setOut_clocks (i : Nat) (v : OutChan) : (s.setOut i v).clocks = s.clocks := rfl
@[simp] theorem State.setOut_gstbs (i : Nat) (v : OutChan) : (s.setOut i v).gstbs = s.gstbs := rfl
@[simp] theorem State.setOut_wheels (i : Nat) (v : OutChan) : (s.setOut i v).wheels = s.wheels := rfl
@[simp] theorem State.setOut_cses (i : Nat) (v : OutChan) : (s.setOut i v).cses = s.cses := rfl
@[simp] theorem State.setOut_stitchers (i : Nat) (v : OutChan) : (s.setOut i v).stitchers = s.stitchers := rfl
@[simp] theorem State.setOut_queues (i : Nat) (v : OutChan) : (s.setOut i v).queues = s.queues := rfl
@[simp] theorem State.setOut_staging (i : Nat) (v : OutChan) : (s.setOut i v).staging = s.staging := rfl
@[simp] theorem State.setOut_rings (i : Nat) (v : OutChan) : (s.setOut i v).rings = s.rings := rfl
@[simp] theorem State.setOut_lines (i : Nat) (v : OutChan) : (s.setOut i v).lines = s.lines := rfl
@[simp] theorem State.setOut_pins (i : Nat) (v : OutChan) : (s.setOut i v).pins = s.pins := rfl
@[simp] theorem State.setOut_capus (i : Nat) (v : OutChan) : (s.setOut i v).capus = s.capus := rfl
@[simp] theorem State.setOut_evin (i : Nat) (v : OutChan) : (s.setOut i v).evin = s.evin := rfl
@[simp] theorem State.setOut_nvmQueue (i : Nat) (v : OutChan) : (s.setOut i v).nvmQueue = s.nvmQueue := rfl
@[simp] theorem State.setOut_ports (i : Nat) (v : OutChan) : (s.setOut i v).ports = s.ports := rfl
@[simp] theorem State.setOut_addrPins (i : Nat) (v : OutChan) : (s.setOut i v).addrPins = s.addrPins := rfl
@[simp] theorem State.setOut_testEn (i : Nat) (v : OutChan) : (s.setOut i v).testEn = s.testEn := rfl
@[simp] theorem State.setOut_ldr (i : Nat) (v : OutChan) : (s.setOut i v).ldr = s.ldr := rfl
@[simp] theorem State.setOut_sec (i : Nat) (v : OutChan) : (s.setOut i v).sec = s.sec := rfl
@[simp] theorem State.setOut_pwr (i : Nat) (v : OutChan) : (s.setOut i v).pwr = s.pwr := rfl
@[simp] theorem State.setOut_qry (i : Nat) (v : OutChan) : (s.setOut i v).qry = s.qry := rfl
@[simp] theorem State.setOut_ben (i : Nat) (v : OutChan) : (s.setOut i v).ben = s.ben := rfl
@[simp] theorem State.setOut_missed (i : Nat) (v : OutChan) : (s.setOut i v).missed = s.missed := rfl
@[simp] theorem State.setOut_tiers (i : Nat) (v : OutChan) : (s.setOut i v).tiers = s.tiers := rfl
@[simp] theorem State.setOut_vref (i : Nat) (v : OutChan) : (s.setOut i v).vref = s.vref := rfl
@[simp] theorem State.setOut_trimSaved (i : Nat) (v : OutChan) : (s.setOut i v).trimSaved = s.trimSaved := rfl
@[simp] theorem State.setOut_trimDue (i : Nat) (v : OutChan) : (s.setOut i v).trimDue = s.trimDue := rfl
@[simp] theorem State.setOut_fwUp (i : Nat) (v : OutChan) : (s.setOut i v).fwUp = s.fwUp := rfl
@[simp] theorem State.setOut_free (i : Nat) (v : OutChan) : (s.setOut i v).free = s.free := rfl
@[simp] theorem State.setOut_rd (i : Nat) (v : OutChan) (r' : Reg) (i' x' u' : Nat) : (s.setOut i v).rd r' i' x' u' = s.rd r' i' x' u' := rfl

/-! ### setLine -/

@[simp] theorem State.setLine_pending (i : Nat) (v : HarnessLine) : (s.setLine i v).pending = s.pending := rfl
@[simp] theorem State.setLine_dev (i : Nat) (v : HarnessLine) : (s.setLine i v).dev = s.dev := rfl
@[simp] theorem State.setLine_now (i : Nat) (v : HarnessLine) : (s.setLine i v).now = s.now := rfl
@[simp] theorem State.setLine_osc (i : Nat) (v : HarnessLine) : (s.setLine i v).osc = s.osc := rfl
@[simp] theorem State.setLine_regs (i : Nat) (v : HarnessLine) : (s.setLine i v).regs = s.regs := rfl
@[simp] theorem State.setLine_eff (i : Nat) (v : HarnessLine) : (s.setLine i v).eff = s.eff := rfl
@[simp] theorem State.setLine_cap (i : Nat) (v : HarnessLine) : (s.setLine i v).cap = s.cap := rfl
@[simp] theorem State.setLine_held (i : Nat) (v : HarnessLine) : (s.setLine i v).held = s.held := rfl
@[simp] theorem State.setLine_readData (i : Nat) (v : HarnessLine) : (s.setLine i v).readData = s.readData := rfl
@[simp] theorem State.setLine_presented (i : Nat) (v : HarnessLine) : (s.setLine i v).presented = s.presented := rfl
@[simp] theorem State.setLine_commits (i : Nat) (v : HarnessLine) : (s.setLine i v).commits = s.commits := rfl
@[simp] theorem State.setLine_holdoff (i : Nat) (v : HarnessLine) : (s.setLine i v).holdoff = s.holdoff := rfl
@[simp] theorem State.setLine_mem (i : Nat) (v : HarnessLine) : (s.setLine i v).mem = s.mem := rfl
@[simp] theorem State.setLine_poison (i : Nat) (v : HarnessLine) : (s.setLine i v).poison = s.poison := rfl
@[simp] theorem State.setLine_epoch (i : Nat) (v : HarnessLine) : (s.setLine i v).epoch = s.epoch := rfl
@[simp] theorem State.setLine_pllStarted (i : Nat) (v : HarnessLine) : (s.setLine i v).pllStarted = s.pllStarted := rfl
@[simp] theorem State.setLine_lcs (i : Nat) (v : HarnessLine) : (s.setLine i v).lcs = s.lcs := rfl
@[simp] theorem State.setLine_lcGen (i : Nat) (v : HarnessLine) : (s.setLine i v).lcGen = s.lcGen := rfl
@[simp] theorem State.setLine_clocks (i : Nat) (v : HarnessLine) : (s.setLine i v).clocks = s.clocks := rfl
@[simp] theorem State.setLine_gstbs (i : Nat) (v : HarnessLine) : (s.setLine i v).gstbs = s.gstbs := rfl
@[simp] theorem State.setLine_wheels (i : Nat) (v : HarnessLine) : (s.setLine i v).wheels = s.wheels := rfl
@[simp] theorem State.setLine_cses (i : Nat) (v : HarnessLine) : (s.setLine i v).cses = s.cses := rfl
@[simp] theorem State.setLine_stitchers (i : Nat) (v : HarnessLine) : (s.setLine i v).stitchers = s.stitchers := rfl
@[simp] theorem State.setLine_queues (i : Nat) (v : HarnessLine) : (s.setLine i v).queues = s.queues := rfl
@[simp] theorem State.setLine_staging (i : Nat) (v : HarnessLine) : (s.setLine i v).staging = s.staging := rfl
@[simp] theorem State.setLine_rings (i : Nat) (v : HarnessLine) : (s.setLine i v).rings = s.rings := rfl
@[simp] theorem State.setLine_outs (i : Nat) (v : HarnessLine) : (s.setLine i v).outs = s.outs := rfl
@[simp] theorem State.setLine_pins (i : Nat) (v : HarnessLine) : (s.setLine i v).pins = s.pins := rfl
@[simp] theorem State.setLine_capus (i : Nat) (v : HarnessLine) : (s.setLine i v).capus = s.capus := rfl
@[simp] theorem State.setLine_evin (i : Nat) (v : HarnessLine) : (s.setLine i v).evin = s.evin := rfl
@[simp] theorem State.setLine_nvmQueue (i : Nat) (v : HarnessLine) : (s.setLine i v).nvmQueue = s.nvmQueue := rfl
@[simp] theorem State.setLine_ports (i : Nat) (v : HarnessLine) : (s.setLine i v).ports = s.ports := rfl
@[simp] theorem State.setLine_addrPins (i : Nat) (v : HarnessLine) : (s.setLine i v).addrPins = s.addrPins := rfl
@[simp] theorem State.setLine_testEn (i : Nat) (v : HarnessLine) : (s.setLine i v).testEn = s.testEn := rfl
@[simp] theorem State.setLine_ldr (i : Nat) (v : HarnessLine) : (s.setLine i v).ldr = s.ldr := rfl
@[simp] theorem State.setLine_sec (i : Nat) (v : HarnessLine) : (s.setLine i v).sec = s.sec := rfl
@[simp] theorem State.setLine_pwr (i : Nat) (v : HarnessLine) : (s.setLine i v).pwr = s.pwr := rfl
@[simp] theorem State.setLine_qry (i : Nat) (v : HarnessLine) : (s.setLine i v).qry = s.qry := rfl
@[simp] theorem State.setLine_ben (i : Nat) (v : HarnessLine) : (s.setLine i v).ben = s.ben := rfl
@[simp] theorem State.setLine_missed (i : Nat) (v : HarnessLine) : (s.setLine i v).missed = s.missed := rfl
@[simp] theorem State.setLine_tiers (i : Nat) (v : HarnessLine) : (s.setLine i v).tiers = s.tiers := rfl
@[simp] theorem State.setLine_vref (i : Nat) (v : HarnessLine) : (s.setLine i v).vref = s.vref := rfl
@[simp] theorem State.setLine_trimSaved (i : Nat) (v : HarnessLine) : (s.setLine i v).trimSaved = s.trimSaved := rfl
@[simp] theorem State.setLine_trimDue (i : Nat) (v : HarnessLine) : (s.setLine i v).trimDue = s.trimDue := rfl
@[simp] theorem State.setLine_fwUp (i : Nat) (v : HarnessLine) : (s.setLine i v).fwUp = s.fwUp := rfl
@[simp] theorem State.setLine_free (i : Nat) (v : HarnessLine) : (s.setLine i v).free = s.free := rfl
@[simp] theorem State.setLine_rd (i : Nat) (v : HarnessLine) (r' : Reg) (i' x' u' : Nat) : (s.setLine i v).rd r' i' x' u' = s.rd r' i' x' u' := rfl

/-! ### setPin -/

@[simp] theorem State.setPin_pending (i : Nat) (v : PinState) : (s.setPin i v).pending = s.pending := rfl
@[simp] theorem State.setPin_dev (i : Nat) (v : PinState) : (s.setPin i v).dev = s.dev := rfl
@[simp] theorem State.setPin_now (i : Nat) (v : PinState) : (s.setPin i v).now = s.now := rfl
@[simp] theorem State.setPin_osc (i : Nat) (v : PinState) : (s.setPin i v).osc = s.osc := rfl
@[simp] theorem State.setPin_regs (i : Nat) (v : PinState) : (s.setPin i v).regs = s.regs := rfl
@[simp] theorem State.setPin_eff (i : Nat) (v : PinState) : (s.setPin i v).eff = s.eff := rfl
@[simp] theorem State.setPin_cap (i : Nat) (v : PinState) : (s.setPin i v).cap = s.cap := rfl
@[simp] theorem State.setPin_held (i : Nat) (v : PinState) : (s.setPin i v).held = s.held := rfl
@[simp] theorem State.setPin_readData (i : Nat) (v : PinState) : (s.setPin i v).readData = s.readData := rfl
@[simp] theorem State.setPin_presented (i : Nat) (v : PinState) : (s.setPin i v).presented = s.presented := rfl
@[simp] theorem State.setPin_commits (i : Nat) (v : PinState) : (s.setPin i v).commits = s.commits := rfl
@[simp] theorem State.setPin_holdoff (i : Nat) (v : PinState) : (s.setPin i v).holdoff = s.holdoff := rfl
@[simp] theorem State.setPin_mem (i : Nat) (v : PinState) : (s.setPin i v).mem = s.mem := rfl
@[simp] theorem State.setPin_poison (i : Nat) (v : PinState) : (s.setPin i v).poison = s.poison := rfl
@[simp] theorem State.setPin_epoch (i : Nat) (v : PinState) : (s.setPin i v).epoch = s.epoch := rfl
@[simp] theorem State.setPin_pllStarted (i : Nat) (v : PinState) : (s.setPin i v).pllStarted = s.pllStarted := rfl
@[simp] theorem State.setPin_lcs (i : Nat) (v : PinState) : (s.setPin i v).lcs = s.lcs := rfl
@[simp] theorem State.setPin_lcGen (i : Nat) (v : PinState) : (s.setPin i v).lcGen = s.lcGen := rfl
@[simp] theorem State.setPin_clocks (i : Nat) (v : PinState) : (s.setPin i v).clocks = s.clocks := rfl
@[simp] theorem State.setPin_gstbs (i : Nat) (v : PinState) : (s.setPin i v).gstbs = s.gstbs := rfl
@[simp] theorem State.setPin_wheels (i : Nat) (v : PinState) : (s.setPin i v).wheels = s.wheels := rfl
@[simp] theorem State.setPin_cses (i : Nat) (v : PinState) : (s.setPin i v).cses = s.cses := rfl
@[simp] theorem State.setPin_stitchers (i : Nat) (v : PinState) : (s.setPin i v).stitchers = s.stitchers := rfl
@[simp] theorem State.setPin_queues (i : Nat) (v : PinState) : (s.setPin i v).queues = s.queues := rfl
@[simp] theorem State.setPin_staging (i : Nat) (v : PinState) : (s.setPin i v).staging = s.staging := rfl
@[simp] theorem State.setPin_rings (i : Nat) (v : PinState) : (s.setPin i v).rings = s.rings := rfl
@[simp] theorem State.setPin_outs (i : Nat) (v : PinState) : (s.setPin i v).outs = s.outs := rfl
@[simp] theorem State.setPin_lines (i : Nat) (v : PinState) : (s.setPin i v).lines = s.lines := rfl
@[simp] theorem State.setPin_capus (i : Nat) (v : PinState) : (s.setPin i v).capus = s.capus := rfl
@[simp] theorem State.setPin_evin (i : Nat) (v : PinState) : (s.setPin i v).evin = s.evin := rfl
@[simp] theorem State.setPin_nvmQueue (i : Nat) (v : PinState) : (s.setPin i v).nvmQueue = s.nvmQueue := rfl
@[simp] theorem State.setPin_ports (i : Nat) (v : PinState) : (s.setPin i v).ports = s.ports := rfl
@[simp] theorem State.setPin_addrPins (i : Nat) (v : PinState) : (s.setPin i v).addrPins = s.addrPins := rfl
@[simp] theorem State.setPin_testEn (i : Nat) (v : PinState) : (s.setPin i v).testEn = s.testEn := rfl
@[simp] theorem State.setPin_ldr (i : Nat) (v : PinState) : (s.setPin i v).ldr = s.ldr := rfl
@[simp] theorem State.setPin_sec (i : Nat) (v : PinState) : (s.setPin i v).sec = s.sec := rfl
@[simp] theorem State.setPin_pwr (i : Nat) (v : PinState) : (s.setPin i v).pwr = s.pwr := rfl
@[simp] theorem State.setPin_qry (i : Nat) (v : PinState) : (s.setPin i v).qry = s.qry := rfl
@[simp] theorem State.setPin_ben (i : Nat) (v : PinState) : (s.setPin i v).ben = s.ben := rfl
@[simp] theorem State.setPin_missed (i : Nat) (v : PinState) : (s.setPin i v).missed = s.missed := rfl
@[simp] theorem State.setPin_tiers (i : Nat) (v : PinState) : (s.setPin i v).tiers = s.tiers := rfl
@[simp] theorem State.setPin_vref (i : Nat) (v : PinState) : (s.setPin i v).vref = s.vref := rfl
@[simp] theorem State.setPin_trimSaved (i : Nat) (v : PinState) : (s.setPin i v).trimSaved = s.trimSaved := rfl
@[simp] theorem State.setPin_trimDue (i : Nat) (v : PinState) : (s.setPin i v).trimDue = s.trimDue := rfl
@[simp] theorem State.setPin_fwUp (i : Nat) (v : PinState) : (s.setPin i v).fwUp = s.fwUp := rfl
@[simp] theorem State.setPin_free (i : Nat) (v : PinState) : (s.setPin i v).free = s.free := rfl
@[simp] theorem State.setPin_rd (i : Nat) (v : PinState) (r' : Reg) (i' x' u' : Nat) : (s.setPin i v).rd r' i' x' u' = s.rd r' i' x' u' := rfl

/-! ### setCapu -/

@[simp] theorem State.setCapu_pending (i : Nat) (v : List CapRecord) : (s.setCapu i v).pending = s.pending := rfl
@[simp] theorem State.setCapu_dev (i : Nat) (v : List CapRecord) : (s.setCapu i v).dev = s.dev := rfl
@[simp] theorem State.setCapu_now (i : Nat) (v : List CapRecord) : (s.setCapu i v).now = s.now := rfl
@[simp] theorem State.setCapu_osc (i : Nat) (v : List CapRecord) : (s.setCapu i v).osc = s.osc := rfl
@[simp] theorem State.setCapu_regs (i : Nat) (v : List CapRecord) : (s.setCapu i v).regs = s.regs := rfl
@[simp] theorem State.setCapu_eff (i : Nat) (v : List CapRecord) : (s.setCapu i v).eff = s.eff := rfl
@[simp] theorem State.setCapu_cap (i : Nat) (v : List CapRecord) : (s.setCapu i v).cap = s.cap := rfl
@[simp] theorem State.setCapu_held (i : Nat) (v : List CapRecord) : (s.setCapu i v).held = s.held := rfl
@[simp] theorem State.setCapu_readData (i : Nat) (v : List CapRecord) : (s.setCapu i v).readData = s.readData := rfl
@[simp] theorem State.setCapu_presented (i : Nat) (v : List CapRecord) : (s.setCapu i v).presented = s.presented := rfl
@[simp] theorem State.setCapu_commits (i : Nat) (v : List CapRecord) : (s.setCapu i v).commits = s.commits := rfl
@[simp] theorem State.setCapu_holdoff (i : Nat) (v : List CapRecord) : (s.setCapu i v).holdoff = s.holdoff := rfl
@[simp] theorem State.setCapu_mem (i : Nat) (v : List CapRecord) : (s.setCapu i v).mem = s.mem := rfl
@[simp] theorem State.setCapu_poison (i : Nat) (v : List CapRecord) : (s.setCapu i v).poison = s.poison := rfl
@[simp] theorem State.setCapu_epoch (i : Nat) (v : List CapRecord) : (s.setCapu i v).epoch = s.epoch := rfl
@[simp] theorem State.setCapu_pllStarted (i : Nat) (v : List CapRecord) : (s.setCapu i v).pllStarted = s.pllStarted := rfl
@[simp] theorem State.setCapu_lcs (i : Nat) (v : List CapRecord) : (s.setCapu i v).lcs = s.lcs := rfl
@[simp] theorem State.setCapu_lcGen (i : Nat) (v : List CapRecord) : (s.setCapu i v).lcGen = s.lcGen := rfl
@[simp] theorem State.setCapu_clocks (i : Nat) (v : List CapRecord) : (s.setCapu i v).clocks = s.clocks := rfl
@[simp] theorem State.setCapu_gstbs (i : Nat) (v : List CapRecord) : (s.setCapu i v).gstbs = s.gstbs := rfl
@[simp] theorem State.setCapu_wheels (i : Nat) (v : List CapRecord) : (s.setCapu i v).wheels = s.wheels := rfl
@[simp] theorem State.setCapu_cses (i : Nat) (v : List CapRecord) : (s.setCapu i v).cses = s.cses := rfl
@[simp] theorem State.setCapu_stitchers (i : Nat) (v : List CapRecord) : (s.setCapu i v).stitchers = s.stitchers := rfl
@[simp] theorem State.setCapu_queues (i : Nat) (v : List CapRecord) : (s.setCapu i v).queues = s.queues := rfl
@[simp] theorem State.setCapu_staging (i : Nat) (v : List CapRecord) : (s.setCapu i v).staging = s.staging := rfl
@[simp] theorem State.setCapu_rings (i : Nat) (v : List CapRecord) : (s.setCapu i v).rings = s.rings := rfl
@[simp] theorem State.setCapu_outs (i : Nat) (v : List CapRecord) : (s.setCapu i v).outs = s.outs := rfl
@[simp] theorem State.setCapu_lines (i : Nat) (v : List CapRecord) : (s.setCapu i v).lines = s.lines := rfl
@[simp] theorem State.setCapu_pins (i : Nat) (v : List CapRecord) : (s.setCapu i v).pins = s.pins := rfl
@[simp] theorem State.setCapu_evin (i : Nat) (v : List CapRecord) : (s.setCapu i v).evin = s.evin := rfl
@[simp] theorem State.setCapu_nvmQueue (i : Nat) (v : List CapRecord) : (s.setCapu i v).nvmQueue = s.nvmQueue := rfl
@[simp] theorem State.setCapu_ports (i : Nat) (v : List CapRecord) : (s.setCapu i v).ports = s.ports := rfl
@[simp] theorem State.setCapu_addrPins (i : Nat) (v : List CapRecord) : (s.setCapu i v).addrPins = s.addrPins := rfl
@[simp] theorem State.setCapu_testEn (i : Nat) (v : List CapRecord) : (s.setCapu i v).testEn = s.testEn := rfl
@[simp] theorem State.setCapu_ldr (i : Nat) (v : List CapRecord) : (s.setCapu i v).ldr = s.ldr := rfl
@[simp] theorem State.setCapu_sec (i : Nat) (v : List CapRecord) : (s.setCapu i v).sec = s.sec := rfl
@[simp] theorem State.setCapu_pwr (i : Nat) (v : List CapRecord) : (s.setCapu i v).pwr = s.pwr := rfl
@[simp] theorem State.setCapu_qry (i : Nat) (v : List CapRecord) : (s.setCapu i v).qry = s.qry := rfl
@[simp] theorem State.setCapu_ben (i : Nat) (v : List CapRecord) : (s.setCapu i v).ben = s.ben := rfl
@[simp] theorem State.setCapu_missed (i : Nat) (v : List CapRecord) : (s.setCapu i v).missed = s.missed := rfl
@[simp] theorem State.setCapu_tiers (i : Nat) (v : List CapRecord) : (s.setCapu i v).tiers = s.tiers := rfl
@[simp] theorem State.setCapu_vref (i : Nat) (v : List CapRecord) : (s.setCapu i v).vref = s.vref := rfl
@[simp] theorem State.setCapu_trimSaved (i : Nat) (v : List CapRecord) : (s.setCapu i v).trimSaved = s.trimSaved := rfl
@[simp] theorem State.setCapu_trimDue (i : Nat) (v : List CapRecord) : (s.setCapu i v).trimDue = s.trimDue := rfl
@[simp] theorem State.setCapu_fwUp (i : Nat) (v : List CapRecord) : (s.setCapu i v).fwUp = s.fwUp := rfl
@[simp] theorem State.setCapu_free (i : Nat) (v : List CapRecord) : (s.setCapu i v).free = s.free := rfl
@[simp] theorem State.setCapu_rd (i : Nat) (v : List CapRecord) (r' : Reg) (i' x' u' : Nat) : (s.setCapu i v).rd r' i' x' u' = s.rd r' i' x' u' := rfl

/-! ### setTier -/

@[simp] theorem State.setTier_pending (i : Nat) (v : TierState) : (s.setTier i v).pending = s.pending := rfl
@[simp] theorem State.setTier_dev (i : Nat) (v : TierState) : (s.setTier i v).dev = s.dev := rfl
@[simp] theorem State.setTier_now (i : Nat) (v : TierState) : (s.setTier i v).now = s.now := rfl
@[simp] theorem State.setTier_osc (i : Nat) (v : TierState) : (s.setTier i v).osc = s.osc := rfl
@[simp] theorem State.setTier_regs (i : Nat) (v : TierState) : (s.setTier i v).regs = s.regs := rfl
@[simp] theorem State.setTier_eff (i : Nat) (v : TierState) : (s.setTier i v).eff = s.eff := rfl
@[simp] theorem State.setTier_cap (i : Nat) (v : TierState) : (s.setTier i v).cap = s.cap := rfl
@[simp] theorem State.setTier_held (i : Nat) (v : TierState) : (s.setTier i v).held = s.held := rfl
@[simp] theorem State.setTier_readData (i : Nat) (v : TierState) : (s.setTier i v).readData = s.readData := rfl
@[simp] theorem State.setTier_presented (i : Nat) (v : TierState) : (s.setTier i v).presented = s.presented := rfl
@[simp] theorem State.setTier_commits (i : Nat) (v : TierState) : (s.setTier i v).commits = s.commits := rfl
@[simp] theorem State.setTier_holdoff (i : Nat) (v : TierState) : (s.setTier i v).holdoff = s.holdoff := rfl
@[simp] theorem State.setTier_mem (i : Nat) (v : TierState) : (s.setTier i v).mem = s.mem := rfl
@[simp] theorem State.setTier_poison (i : Nat) (v : TierState) : (s.setTier i v).poison = s.poison := rfl
@[simp] theorem State.setTier_epoch (i : Nat) (v : TierState) : (s.setTier i v).epoch = s.epoch := rfl
@[simp] theorem State.setTier_pllStarted (i : Nat) (v : TierState) : (s.setTier i v).pllStarted = s.pllStarted := rfl
@[simp] theorem State.setTier_lcs (i : Nat) (v : TierState) : (s.setTier i v).lcs = s.lcs := rfl
@[simp] theorem State.setTier_lcGen (i : Nat) (v : TierState) : (s.setTier i v).lcGen = s.lcGen := rfl
@[simp] theorem State.setTier_clocks (i : Nat) (v : TierState) : (s.setTier i v).clocks = s.clocks := rfl
@[simp] theorem State.setTier_gstbs (i : Nat) (v : TierState) : (s.setTier i v).gstbs = s.gstbs := rfl
@[simp] theorem State.setTier_wheels (i : Nat) (v : TierState) : (s.setTier i v).wheels = s.wheels := rfl
@[simp] theorem State.setTier_cses (i : Nat) (v : TierState) : (s.setTier i v).cses = s.cses := rfl
@[simp] theorem State.setTier_stitchers (i : Nat) (v : TierState) : (s.setTier i v).stitchers = s.stitchers := rfl
@[simp] theorem State.setTier_queues (i : Nat) (v : TierState) : (s.setTier i v).queues = s.queues := rfl
@[simp] theorem State.setTier_staging (i : Nat) (v : TierState) : (s.setTier i v).staging = s.staging := rfl
@[simp] theorem State.setTier_rings (i : Nat) (v : TierState) : (s.setTier i v).rings = s.rings := rfl
@[simp] theorem State.setTier_outs (i : Nat) (v : TierState) : (s.setTier i v).outs = s.outs := rfl
@[simp] theorem State.setTier_lines (i : Nat) (v : TierState) : (s.setTier i v).lines = s.lines := rfl
@[simp] theorem State.setTier_pins (i : Nat) (v : TierState) : (s.setTier i v).pins = s.pins := rfl
@[simp] theorem State.setTier_capus (i : Nat) (v : TierState) : (s.setTier i v).capus = s.capus := rfl
@[simp] theorem State.setTier_evin (i : Nat) (v : TierState) : (s.setTier i v).evin = s.evin := rfl
@[simp] theorem State.setTier_nvmQueue (i : Nat) (v : TierState) : (s.setTier i v).nvmQueue = s.nvmQueue := rfl
@[simp] theorem State.setTier_ports (i : Nat) (v : TierState) : (s.setTier i v).ports = s.ports := rfl
@[simp] theorem State.setTier_addrPins (i : Nat) (v : TierState) : (s.setTier i v).addrPins = s.addrPins := rfl
@[simp] theorem State.setTier_testEn (i : Nat) (v : TierState) : (s.setTier i v).testEn = s.testEn := rfl
@[simp] theorem State.setTier_ldr (i : Nat) (v : TierState) : (s.setTier i v).ldr = s.ldr := rfl
@[simp] theorem State.setTier_sec (i : Nat) (v : TierState) : (s.setTier i v).sec = s.sec := rfl
@[simp] theorem State.setTier_pwr (i : Nat) (v : TierState) : (s.setTier i v).pwr = s.pwr := rfl
@[simp] theorem State.setTier_qry (i : Nat) (v : TierState) : (s.setTier i v).qry = s.qry := rfl
@[simp] theorem State.setTier_ben (i : Nat) (v : TierState) : (s.setTier i v).ben = s.ben := rfl
@[simp] theorem State.setTier_missed (i : Nat) (v : TierState) : (s.setTier i v).missed = s.missed := rfl
@[simp] theorem State.setTier_vref (i : Nat) (v : TierState) : (s.setTier i v).vref = s.vref := rfl
@[simp] theorem State.setTier_trimSaved (i : Nat) (v : TierState) : (s.setTier i v).trimSaved = s.trimSaved := rfl
@[simp] theorem State.setTier_trimDue (i : Nat) (v : TierState) : (s.setTier i v).trimDue = s.trimDue := rfl
@[simp] theorem State.setTier_fwUp (i : Nat) (v : TierState) : (s.setTier i v).fwUp = s.fwUp := rfl
@[simp] theorem State.setTier_free (i : Nat) (v : TierState) : (s.setTier i v).free = s.free := rfl
@[simp] theorem State.setTier_rd (i : Nat) (v : TierState) (r' : Reg) (i' x' u' : Nat) : (s.setTier i v).rd r' i' x' u' = s.rd r' i' x' u' := rfl

/-! ### setPort -/

@[simp] theorem State.setPort_pending (i : Nat) (v : Port) : (s.setPort i v).pending = s.pending := rfl
@[simp] theorem State.setPort_dev (i : Nat) (v : Port) : (s.setPort i v).dev = s.dev := rfl
@[simp] theorem State.setPort_now (i : Nat) (v : Port) : (s.setPort i v).now = s.now := rfl
@[simp] theorem State.setPort_osc (i : Nat) (v : Port) : (s.setPort i v).osc = s.osc := rfl
@[simp] theorem State.setPort_regs (i : Nat) (v : Port) : (s.setPort i v).regs = s.regs := rfl
@[simp] theorem State.setPort_eff (i : Nat) (v : Port) : (s.setPort i v).eff = s.eff := rfl
@[simp] theorem State.setPort_cap (i : Nat) (v : Port) : (s.setPort i v).cap = s.cap := rfl
@[simp] theorem State.setPort_held (i : Nat) (v : Port) : (s.setPort i v).held = s.held := rfl
@[simp] theorem State.setPort_readData (i : Nat) (v : Port) : (s.setPort i v).readData = s.readData := rfl
@[simp] theorem State.setPort_presented (i : Nat) (v : Port) : (s.setPort i v).presented = s.presented := rfl
@[simp] theorem State.setPort_commits (i : Nat) (v : Port) : (s.setPort i v).commits = s.commits := rfl
@[simp] theorem State.setPort_holdoff (i : Nat) (v : Port) : (s.setPort i v).holdoff = s.holdoff := rfl
@[simp] theorem State.setPort_mem (i : Nat) (v : Port) : (s.setPort i v).mem = s.mem := rfl
@[simp] theorem State.setPort_poison (i : Nat) (v : Port) : (s.setPort i v).poison = s.poison := rfl
@[simp] theorem State.setPort_epoch (i : Nat) (v : Port) : (s.setPort i v).epoch = s.epoch := rfl
@[simp] theorem State.setPort_pllStarted (i : Nat) (v : Port) : (s.setPort i v).pllStarted = s.pllStarted := rfl
@[simp] theorem State.setPort_lcs (i : Nat) (v : Port) : (s.setPort i v).lcs = s.lcs := rfl
@[simp] theorem State.setPort_lcGen (i : Nat) (v : Port) : (s.setPort i v).lcGen = s.lcGen := rfl
@[simp] theorem State.setPort_clocks (i : Nat) (v : Port) : (s.setPort i v).clocks = s.clocks := rfl
@[simp] theorem State.setPort_gstbs (i : Nat) (v : Port) : (s.setPort i v).gstbs = s.gstbs := rfl
@[simp] theorem State.setPort_wheels (i : Nat) (v : Port) : (s.setPort i v).wheels = s.wheels := rfl
@[simp] theorem State.setPort_cses (i : Nat) (v : Port) : (s.setPort i v).cses = s.cses := rfl
@[simp] theorem State.setPort_stitchers (i : Nat) (v : Port) : (s.setPort i v).stitchers = s.stitchers := rfl
@[simp] theorem State.setPort_queues (i : Nat) (v : Port) : (s.setPort i v).queues = s.queues := rfl
@[simp] theorem State.setPort_staging (i : Nat) (v : Port) : (s.setPort i v).staging = s.staging := rfl
@[simp] theorem State.setPort_rings (i : Nat) (v : Port) : (s.setPort i v).rings = s.rings := rfl
@[simp] theorem State.setPort_outs (i : Nat) (v : Port) : (s.setPort i v).outs = s.outs := rfl
@[simp] theorem State.setPort_lines (i : Nat) (v : Port) : (s.setPort i v).lines = s.lines := rfl
@[simp] theorem State.setPort_pins (i : Nat) (v : Port) : (s.setPort i v).pins = s.pins := rfl
@[simp] theorem State.setPort_capus (i : Nat) (v : Port) : (s.setPort i v).capus = s.capus := rfl
@[simp] theorem State.setPort_evin (i : Nat) (v : Port) : (s.setPort i v).evin = s.evin := rfl
@[simp] theorem State.setPort_nvmQueue (i : Nat) (v : Port) : (s.setPort i v).nvmQueue = s.nvmQueue := rfl
@[simp] theorem State.setPort_addrPins (i : Nat) (v : Port) : (s.setPort i v).addrPins = s.addrPins := rfl
@[simp] theorem State.setPort_testEn (i : Nat) (v : Port) : (s.setPort i v).testEn = s.testEn := rfl
@[simp] theorem State.setPort_ldr (i : Nat) (v : Port) : (s.setPort i v).ldr = s.ldr := rfl
@[simp] theorem State.setPort_sec (i : Nat) (v : Port) : (s.setPort i v).sec = s.sec := rfl
@[simp] theorem State.setPort_pwr (i : Nat) (v : Port) : (s.setPort i v).pwr = s.pwr := rfl
@[simp] theorem State.setPort_qry (i : Nat) (v : Port) : (s.setPort i v).qry = s.qry := rfl
@[simp] theorem State.setPort_ben (i : Nat) (v : Port) : (s.setPort i v).ben = s.ben := rfl
@[simp] theorem State.setPort_missed (i : Nat) (v : Port) : (s.setPort i v).missed = s.missed := rfl
@[simp] theorem State.setPort_tiers (i : Nat) (v : Port) : (s.setPort i v).tiers = s.tiers := rfl
@[simp] theorem State.setPort_vref (i : Nat) (v : Port) : (s.setPort i v).vref = s.vref := rfl
@[simp] theorem State.setPort_trimSaved (i : Nat) (v : Port) : (s.setPort i v).trimSaved = s.trimSaved := rfl
@[simp] theorem State.setPort_trimDue (i : Nat) (v : Port) : (s.setPort i v).trimDue = s.trimDue := rfl
@[simp] theorem State.setPort_fwUp (i : Nat) (v : Port) : (s.setPort i v).fwUp = s.fwUp := rfl
@[simp] theorem State.setPort_free (i : Nat) (v : Port) : (s.setPort i v).free = s.free := rfl
@[simp] theorem State.setPort_rd (i : Nat) (v : Port) (r' : Reg) (i' x' u' : Nat) : (s.setPort i v).rd r' i' x' u' = s.rd r' i' x' u' := rfl

/-! ### setByte -/

@[simp] theorem State.setByte_pending (a : Nat) (b : Byte) : (s.setByte a b).pending = s.pending := rfl
@[simp] theorem State.setByte_dev (a : Nat) (b : Byte) : (s.setByte a b).dev = s.dev := rfl
@[simp] theorem State.setByte_now (a : Nat) (b : Byte) : (s.setByte a b).now = s.now := rfl
@[simp] theorem State.setByte_osc (a : Nat) (b : Byte) : (s.setByte a b).osc = s.osc := rfl
@[simp] theorem State.setByte_regs (a : Nat) (b : Byte) : (s.setByte a b).regs = s.regs := rfl
@[simp] theorem State.setByte_eff (a : Nat) (b : Byte) : (s.setByte a b).eff = s.eff := rfl
@[simp] theorem State.setByte_cap (a : Nat) (b : Byte) : (s.setByte a b).cap = s.cap := rfl
@[simp] theorem State.setByte_held (a : Nat) (b : Byte) : (s.setByte a b).held = s.held := rfl
@[simp] theorem State.setByte_readData (a : Nat) (b : Byte) : (s.setByte a b).readData = s.readData := rfl
@[simp] theorem State.setByte_presented (a : Nat) (b : Byte) : (s.setByte a b).presented = s.presented := rfl
@[simp] theorem State.setByte_commits (a : Nat) (b : Byte) : (s.setByte a b).commits = s.commits := rfl
@[simp] theorem State.setByte_holdoff (a : Nat) (b : Byte) : (s.setByte a b).holdoff = s.holdoff := rfl
@[simp] theorem State.setByte_poison (a : Nat) (b : Byte) : (s.setByte a b).poison = s.poison := rfl
@[simp] theorem State.setByte_epoch (a : Nat) (b : Byte) : (s.setByte a b).epoch = s.epoch := rfl
@[simp] theorem State.setByte_pllStarted (a : Nat) (b : Byte) : (s.setByte a b).pllStarted = s.pllStarted := rfl
@[simp] theorem State.setByte_lcs (a : Nat) (b : Byte) : (s.setByte a b).lcs = s.lcs := rfl
@[simp] theorem State.setByte_lcGen (a : Nat) (b : Byte) : (s.setByte a b).lcGen = s.lcGen := rfl
@[simp] theorem State.setByte_clocks (a : Nat) (b : Byte) : (s.setByte a b).clocks = s.clocks := rfl
@[simp] theorem State.setByte_gstbs (a : Nat) (b : Byte) : (s.setByte a b).gstbs = s.gstbs := rfl
@[simp] theorem State.setByte_wheels (a : Nat) (b : Byte) : (s.setByte a b).wheels = s.wheels := rfl
@[simp] theorem State.setByte_cses (a : Nat) (b : Byte) : (s.setByte a b).cses = s.cses := rfl
@[simp] theorem State.setByte_stitchers (a : Nat) (b : Byte) : (s.setByte a b).stitchers = s.stitchers := rfl
@[simp] theorem State.setByte_queues (a : Nat) (b : Byte) : (s.setByte a b).queues = s.queues := rfl
@[simp] theorem State.setByte_staging (a : Nat) (b : Byte) : (s.setByte a b).staging = s.staging := rfl
@[simp] theorem State.setByte_rings (a : Nat) (b : Byte) : (s.setByte a b).rings = s.rings := rfl
@[simp] theorem State.setByte_outs (a : Nat) (b : Byte) : (s.setByte a b).outs = s.outs := rfl
@[simp] theorem State.setByte_lines (a : Nat) (b : Byte) : (s.setByte a b).lines = s.lines := rfl
@[simp] theorem State.setByte_pins (a : Nat) (b : Byte) : (s.setByte a b).pins = s.pins := rfl
@[simp] theorem State.setByte_capus (a : Nat) (b : Byte) : (s.setByte a b).capus = s.capus := rfl
@[simp] theorem State.setByte_evin (a : Nat) (b : Byte) : (s.setByte a b).evin = s.evin := rfl
@[simp] theorem State.setByte_nvmQueue (a : Nat) (b : Byte) : (s.setByte a b).nvmQueue = s.nvmQueue := rfl
@[simp] theorem State.setByte_ports (a : Nat) (b : Byte) : (s.setByte a b).ports = s.ports := rfl
@[simp] theorem State.setByte_addrPins (a : Nat) (b : Byte) : (s.setByte a b).addrPins = s.addrPins := rfl
@[simp] theorem State.setByte_testEn (a : Nat) (b : Byte) : (s.setByte a b).testEn = s.testEn := rfl
@[simp] theorem State.setByte_ldr (a : Nat) (b : Byte) : (s.setByte a b).ldr = s.ldr := rfl
@[simp] theorem State.setByte_sec (a : Nat) (b : Byte) : (s.setByte a b).sec = s.sec := rfl
@[simp] theorem State.setByte_pwr (a : Nat) (b : Byte) : (s.setByte a b).pwr = s.pwr := rfl
@[simp] theorem State.setByte_qry (a : Nat) (b : Byte) : (s.setByte a b).qry = s.qry := rfl
@[simp] theorem State.setByte_ben (a : Nat) (b : Byte) : (s.setByte a b).ben = s.ben := rfl
@[simp] theorem State.setByte_missed (a : Nat) (b : Byte) : (s.setByte a b).missed = s.missed := rfl
@[simp] theorem State.setByte_tiers (a : Nat) (b : Byte) : (s.setByte a b).tiers = s.tiers := rfl
@[simp] theorem State.setByte_vref (a : Nat) (b : Byte) : (s.setByte a b).vref = s.vref := rfl
@[simp] theorem State.setByte_trimSaved (a : Nat) (b : Byte) : (s.setByte a b).trimSaved = s.trimSaved := rfl
@[simp] theorem State.setByte_trimDue (a : Nat) (b : Byte) : (s.setByte a b).trimDue = s.trimDue := rfl
@[simp] theorem State.setByte_fwUp (a : Nat) (b : Byte) : (s.setByte a b).fwUp = s.fwUp := rfl
@[simp] theorem State.setByte_free (a : Nat) (b : Byte) : (s.setByte a b).free = s.free := rfl
@[simp] theorem State.setByte_rd (a : Nat) (b : Byte) (r' : Reg) (i' x' u' : Nat) : (s.setByte a b).rd r' i' x' u' = s.rd r' i' x' u' := rfl

/-! ### setPoison -/

@[simp] theorem State.setPoison_pending (a : Nat) (b : Bool) : (s.setPoison a b).pending = s.pending := rfl
@[simp] theorem State.setPoison_dev (a : Nat) (b : Bool) : (s.setPoison a b).dev = s.dev := rfl
@[simp] theorem State.setPoison_now (a : Nat) (b : Bool) : (s.setPoison a b).now = s.now := rfl
@[simp] theorem State.setPoison_osc (a : Nat) (b : Bool) : (s.setPoison a b).osc = s.osc := rfl
@[simp] theorem State.setPoison_regs (a : Nat) (b : Bool) : (s.setPoison a b).regs = s.regs := rfl
@[simp] theorem State.setPoison_eff (a : Nat) (b : Bool) : (s.setPoison a b).eff = s.eff := rfl
@[simp] theorem State.setPoison_cap (a : Nat) (b : Bool) : (s.setPoison a b).cap = s.cap := rfl
@[simp] theorem State.setPoison_held (a : Nat) (b : Bool) : (s.setPoison a b).held = s.held := rfl
@[simp] theorem State.setPoison_readData (a : Nat) (b : Bool) : (s.setPoison a b).readData = s.readData := rfl
@[simp] theorem State.setPoison_presented (a : Nat) (b : Bool) : (s.setPoison a b).presented = s.presented := rfl
@[simp] theorem State.setPoison_commits (a : Nat) (b : Bool) : (s.setPoison a b).commits = s.commits := rfl
@[simp] theorem State.setPoison_holdoff (a : Nat) (b : Bool) : (s.setPoison a b).holdoff = s.holdoff := rfl
@[simp] theorem State.setPoison_mem (a : Nat) (b : Bool) : (s.setPoison a b).mem = s.mem := rfl
@[simp] theorem State.setPoison_epoch (a : Nat) (b : Bool) : (s.setPoison a b).epoch = s.epoch := rfl
@[simp] theorem State.setPoison_pllStarted (a : Nat) (b : Bool) : (s.setPoison a b).pllStarted = s.pllStarted := rfl
@[simp] theorem State.setPoison_lcs (a : Nat) (b : Bool) : (s.setPoison a b).lcs = s.lcs := rfl
@[simp] theorem State.setPoison_lcGen (a : Nat) (b : Bool) : (s.setPoison a b).lcGen = s.lcGen := rfl
@[simp] theorem State.setPoison_clocks (a : Nat) (b : Bool) : (s.setPoison a b).clocks = s.clocks := rfl
@[simp] theorem State.setPoison_gstbs (a : Nat) (b : Bool) : (s.setPoison a b).gstbs = s.gstbs := rfl
@[simp] theorem State.setPoison_wheels (a : Nat) (b : Bool) : (s.setPoison a b).wheels = s.wheels := rfl
@[simp] theorem State.setPoison_cses (a : Nat) (b : Bool) : (s.setPoison a b).cses = s.cses := rfl
@[simp] theorem State.setPoison_stitchers (a : Nat) (b : Bool) : (s.setPoison a b).stitchers = s.stitchers := rfl
@[simp] theorem State.setPoison_queues (a : Nat) (b : Bool) : (s.setPoison a b).queues = s.queues := rfl
@[simp] theorem State.setPoison_staging (a : Nat) (b : Bool) : (s.setPoison a b).staging = s.staging := rfl
@[simp] theorem State.setPoison_rings (a : Nat) (b : Bool) : (s.setPoison a b).rings = s.rings := rfl
@[simp] theorem State.setPoison_outs (a : Nat) (b : Bool) : (s.setPoison a b).outs = s.outs := rfl
@[simp] theorem State.setPoison_lines (a : Nat) (b : Bool) : (s.setPoison a b).lines = s.lines := rfl
@[simp] theorem State.setPoison_pins (a : Nat) (b : Bool) : (s.setPoison a b).pins = s.pins := rfl
@[simp] theorem State.setPoison_capus (a : Nat) (b : Bool) : (s.setPoison a b).capus = s.capus := rfl
@[simp] theorem State.setPoison_evin (a : Nat) (b : Bool) : (s.setPoison a b).evin = s.evin := rfl
@[simp] theorem State.setPoison_nvmQueue (a : Nat) (b : Bool) : (s.setPoison a b).nvmQueue = s.nvmQueue := rfl
@[simp] theorem State.setPoison_ports (a : Nat) (b : Bool) : (s.setPoison a b).ports = s.ports := rfl
@[simp] theorem State.setPoison_addrPins (a : Nat) (b : Bool) : (s.setPoison a b).addrPins = s.addrPins := rfl
@[simp] theorem State.setPoison_testEn (a : Nat) (b : Bool) : (s.setPoison a b).testEn = s.testEn := rfl
@[simp] theorem State.setPoison_ldr (a : Nat) (b : Bool) : (s.setPoison a b).ldr = s.ldr := rfl
@[simp] theorem State.setPoison_sec (a : Nat) (b : Bool) : (s.setPoison a b).sec = s.sec := rfl
@[simp] theorem State.setPoison_pwr (a : Nat) (b : Bool) : (s.setPoison a b).pwr = s.pwr := rfl
@[simp] theorem State.setPoison_qry (a : Nat) (b : Bool) : (s.setPoison a b).qry = s.qry := rfl
@[simp] theorem State.setPoison_ben (a : Nat) (b : Bool) : (s.setPoison a b).ben = s.ben := rfl
@[simp] theorem State.setPoison_missed (a : Nat) (b : Bool) : (s.setPoison a b).missed = s.missed := rfl
@[simp] theorem State.setPoison_tiers (a : Nat) (b : Bool) : (s.setPoison a b).tiers = s.tiers := rfl
@[simp] theorem State.setPoison_vref (a : Nat) (b : Bool) : (s.setPoison a b).vref = s.vref := rfl
@[simp] theorem State.setPoison_trimSaved (a : Nat) (b : Bool) : (s.setPoison a b).trimSaved = s.trimSaved := rfl
@[simp] theorem State.setPoison_trimDue (a : Nat) (b : Bool) : (s.setPoison a b).trimDue = s.trimDue := rfl
@[simp] theorem State.setPoison_fwUp (a : Nat) (b : Bool) : (s.setPoison a b).fwUp = s.fwUp := rfl
@[simp] theorem State.setPoison_free (a : Nat) (b : Bool) : (s.setPoison a b).free = s.free := rfl
@[simp] theorem State.setPoison_rd (a : Nat) (b : Bool) (r' : Reg) (i' x' u' : Nat) : (s.setPoison a b).rd r' i' x' u' = s.rd r' i' x' u' := rfl

/-! ### nextFree -/

@[simp] theorem State.nextFree_pending : (s.nextFree).pending = s.pending := rfl
@[simp] theorem State.nextFree_dev : (s.nextFree).dev = s.dev := rfl
@[simp] theorem State.nextFree_now : (s.nextFree).now = s.now := rfl
@[simp] theorem State.nextFree_osc : (s.nextFree).osc = s.osc := rfl
@[simp] theorem State.nextFree_regs : (s.nextFree).regs = s.regs := rfl
@[simp] theorem State.nextFree_eff : (s.nextFree).eff = s.eff := rfl
@[simp] theorem State.nextFree_cap : (s.nextFree).cap = s.cap := rfl
@[simp] theorem State.nextFree_held : (s.nextFree).held = s.held := rfl
@[simp] theorem State.nextFree_readData : (s.nextFree).readData = s.readData := rfl
@[simp] theorem State.nextFree_presented : (s.nextFree).presented = s.presented := rfl
@[simp] theorem State.nextFree_commits : (s.nextFree).commits = s.commits := rfl
@[simp] theorem State.nextFree_holdoff : (s.nextFree).holdoff = s.holdoff := rfl
@[simp] theorem State.nextFree_mem : (s.nextFree).mem = s.mem := rfl
@[simp] theorem State.nextFree_poison : (s.nextFree).poison = s.poison := rfl
@[simp] theorem State.nextFree_epoch : (s.nextFree).epoch = s.epoch := rfl
@[simp] theorem State.nextFree_pllStarted : (s.nextFree).pllStarted = s.pllStarted := rfl
@[simp] theorem State.nextFree_lcs : (s.nextFree).lcs = s.lcs := rfl
@[simp] theorem State.nextFree_lcGen : (s.nextFree).lcGen = s.lcGen := rfl
@[simp] theorem State.nextFree_clocks : (s.nextFree).clocks = s.clocks := rfl
@[simp] theorem State.nextFree_gstbs : (s.nextFree).gstbs = s.gstbs := rfl
@[simp] theorem State.nextFree_wheels : (s.nextFree).wheels = s.wheels := rfl
@[simp] theorem State.nextFree_cses : (s.nextFree).cses = s.cses := rfl
@[simp] theorem State.nextFree_stitchers : (s.nextFree).stitchers = s.stitchers := rfl
@[simp] theorem State.nextFree_queues : (s.nextFree).queues = s.queues := rfl
@[simp] theorem State.nextFree_staging : (s.nextFree).staging = s.staging := rfl
@[simp] theorem State.nextFree_rings : (s.nextFree).rings = s.rings := rfl
@[simp] theorem State.nextFree_outs : (s.nextFree).outs = s.outs := rfl
@[simp] theorem State.nextFree_lines : (s.nextFree).lines = s.lines := rfl
@[simp] theorem State.nextFree_pins : (s.nextFree).pins = s.pins := rfl
@[simp] theorem State.nextFree_capus : (s.nextFree).capus = s.capus := rfl
@[simp] theorem State.nextFree_evin : (s.nextFree).evin = s.evin := rfl
@[simp] theorem State.nextFree_nvmQueue : (s.nextFree).nvmQueue = s.nvmQueue := rfl
@[simp] theorem State.nextFree_ports : (s.nextFree).ports = s.ports := rfl
@[simp] theorem State.nextFree_addrPins : (s.nextFree).addrPins = s.addrPins := rfl
@[simp] theorem State.nextFree_testEn : (s.nextFree).testEn = s.testEn := rfl
@[simp] theorem State.nextFree_ldr : (s.nextFree).ldr = s.ldr := rfl
@[simp] theorem State.nextFree_sec : (s.nextFree).sec = s.sec := rfl
@[simp] theorem State.nextFree_pwr : (s.nextFree).pwr = s.pwr := rfl
@[simp] theorem State.nextFree_qry : (s.nextFree).qry = s.qry := rfl
@[simp] theorem State.nextFree_ben : (s.nextFree).ben = s.ben := rfl
@[simp] theorem State.nextFree_missed : (s.nextFree).missed = s.missed := rfl
@[simp] theorem State.nextFree_tiers : (s.nextFree).tiers = s.tiers := rfl
@[simp] theorem State.nextFree_vref : (s.nextFree).vref = s.vref := rfl
@[simp] theorem State.nextFree_trimSaved : (s.nextFree).trimSaved = s.trimSaved := rfl
@[simp] theorem State.nextFree_trimDue : (s.nextFree).trimDue = s.trimDue := rfl
@[simp] theorem State.nextFree_fwUp : (s.nextFree).fwUp = s.fwUp := rfl
@[simp] theorem State.nextFree_rd (r' : Reg) (i' x' u' : Nat) : (s.nextFree).rd r' i' x' u' = s.rd r' i' x' u' := rfl

/-! ### Reads after writes -/

/-- A field just written holds the value, modulo its width. -/
@[simp] theorem State.rd_wr_same (r : Reg) (v i x u : Nat) : (s.wr r v i x u).rd r i x u = v % 2 ^ r.width := by
  simp [State.rd, State.wr]

/-- A write leaves every other field alone. -/
@[simp] theorem State.rd_wr_reg {r r' : Reg} (h : r ≠ r') (v i x u i' x' u' : Nat) :
    (s.wr r v i x u).rd r' i' x' u' = s.rd r' i' x' u' := by
  simp [State.rd, State.wr, Store.get_set_ne' _ _ _ _ (key_ne h i x u i' x' u')]

/-- A write leaves the other instances of the same field alone. -/
theorem State.rd_wr_place (r : Reg) (v : Nat) {i x u i' x' u' : Nat} (h : ¬(i = i' ∧ x = x' ∧ u = u')) :
    (s.wr r v i x u).rd r i' x' u' = s.rd r i' x' u' := by
  have hk : key r i x u ≠ key r i' x' u' := fun e => h (key_inj e)
  simp [State.rd, State.wr, Store.get_set_ne' _ _ _ _ hk]

/-- A read after a write of the same field, whatever the places. -/
theorem State.rd_wr (r : Reg) (v i x u i' x' u' : Nat) :
    (s.wr r v i x u).rd r i' x' u' = if i = i' ∧ x = x' ∧ u = u' then v % 2 ^ r.width else s.rd r i' x' u' := by
  split
  · rename_i h
    obtain ⟨rfl, rfl, rfl⟩ := h
    exact s.rd_wr_same ..
  · rename_i h
    exact s.rd_wr_place r v h

@[simp] theorem State.rd_rst_same (r : Reg) (i x u : Nat) : (s.rst r i x u).rd r i x u = r.resetVal i x u := by
  simp [State.rd, State.rst]

@[simp] theorem State.rd_rst_reg {r r' : Reg} (h : r ≠ r') (i x u i' x' u' : Nat) :
    (s.rst r i x u).rd r' i' x' u' = s.rd r' i' x' u' := by
  simp [State.rd, State.rst, Store.get_set_ne' _ _ _ _ (key_ne h i x u i' x' u')]

@[simp] theorem State.rdEff_wrEff_same (r : Reg) (v i x u : Nat) : (s.wrEff r v i x u).rdEff r i x u = v % 2 ^ r.width := by
  simp [State.rdEff, State.wrEff]

@[simp] theorem State.lc_setLc (i : Nat) (v : Comparator) : (s.setLc i v).lc i = v := by simp [State.lc, State.setLc]
theorem State.lc_setLc_ne {i j : Nat} (h : i ≠ j) (v : Comparator) : (s.setLc i v).lc j = s.lc j := by
  simp [State.lc, State.setLc, Store.get_set_ne' _ _ _ _ h]
@[simp] theorem State.clock_setClock (i : Nat) (v : QuadClock) : (s.setClock i v).clock i = v := by simp [State.clock, State.setClock]
theorem State.clock_setClock_ne {i j : Nat} (h : i ≠ j) (v : QuadClock) : (s.setClock i v).clock j = s.clock j := by
  simp [State.clock, State.setClock, Store.get_set_ne' _ _ _ _ h]
@[simp] theorem State.gstb_setGstb (i : Nat) (v : Gstb) : (s.setGstb i v).gstb i = v := by simp [State.gstb, State.setGstb]
theorem State.gstb_setGstb_ne {i j : Nat} (h : i ≠ j) (v : Gstb) : (s.setGstb i v).gstb j = s.gstb j := by
  simp [State.gstb, State.setGstb, Store.get_set_ne' _ _ _ _ h]
@[simp] theorem State.wheel_setWheel (i : Nat) (v : Wheel) : (s.setWheel i v).wheel i = v := by simp [State.wheel, State.setWheel]
theorem State.wheel_setWheel_ne {i j : Nat} (h : i ≠ j) (v : Wheel) : (s.setWheel i v).wheel j = s.wheel j := by
  simp [State.wheel, State.setWheel, Store.get_set_ne' _ _ _ _ h]
@[simp] theorem State.cse_setCse (i : Nat) (v : Cse) : (s.setCse i v).cse i = v := by simp [State.cse, State.setCse]
theorem State.cse_setCse_ne {i j : Nat} (h : i ≠ j) (v : Cse) : (s.setCse i v).cse j = s.cse j := by
  simp [State.cse, State.setCse, Store.get_set_ne' _ _ _ _ h]
@[simp] theorem State.stitcher_setStitcher (i : Nat) (v : Stitcher) : (s.setStitcher i v).stitcher i = v := by simp [State.stitcher, State.setStitcher]
theorem State.stitcher_setStitcher_ne {i j : Nat} (h : i ≠ j) (v : Stitcher) : (s.setStitcher i v).stitcher j = s.stitcher j := by
  simp [State.stitcher, State.setStitcher, Store.get_set_ne' _ _ _ _ h]
@[simp] theorem State.queue_setQueue (i : Nat) (v : TackQueue) : (s.setQueue i v).queue i = v := by simp [State.queue, State.setQueue]
theorem State.queue_setQueue_ne {i j : Nat} (h : i ≠ j) (v : TackQueue) : (s.setQueue i v).queue j = s.queue j := by
  simp [State.queue, State.setQueue, Store.get_set_ne' _ _ _ _ h]
@[simp] theorem State.stage_setStage (i : Nat) (v : Staging) : (s.setStage i v).stage i = v := by simp [State.stage, State.setStage]
theorem State.stage_setStage_ne {i j : Nat} (h : i ≠ j) (v : Staging) : (s.setStage i v).stage j = s.stage j := by
  simp [State.stage, State.setStage, Store.get_set_ne' _ _ _ _ h]
@[simp] theorem State.ring_setRing (i : Nat) (v : Ring) : (s.setRing i v).ring i = v := by simp [State.ring, State.setRing]
theorem State.ring_setRing_ne {i j : Nat} (h : i ≠ j) (v : Ring) : (s.setRing i v).ring j = s.ring j := by
  simp [State.ring, State.setRing, Store.get_set_ne' _ _ _ _ h]
@[simp] theorem State.out_setOut (i : Nat) (v : OutChan) : (s.setOut i v).out i = v := by simp [State.out, State.setOut]
theorem State.out_setOut_ne {i j : Nat} (h : i ≠ j) (v : OutChan) : (s.setOut i v).out j = s.out j := by
  simp [State.out, State.setOut, Store.get_set_ne' _ _ _ _ h]
@[simp] theorem State.line_setLine (i : Nat) (v : HarnessLine) : (s.setLine i v).line i = v := by simp [State.line, State.setLine]
theorem State.line_setLine_ne {i j : Nat} (h : i ≠ j) (v : HarnessLine) : (s.setLine i v).line j = s.line j := by
  simp [State.line, State.setLine, Store.get_set_ne' _ _ _ _ h]
@[simp] theorem State.pin_setPin (i : Nat) (v : PinState) : (s.setPin i v).pin i = v := by simp [State.pin, State.setPin]
theorem State.pin_setPin_ne {i j : Nat} (h : i ≠ j) (v : PinState) : (s.setPin i v).pin j = s.pin j := by
  simp [State.pin, State.setPin, Store.get_set_ne' _ _ _ _ h]
@[simp] theorem State.capu_setCapu (i : Nat) (v : List CapRecord) : (s.setCapu i v).capu i = v := by simp [State.capu, State.setCapu]
theorem State.capu_setCapu_ne {i j : Nat} (h : i ≠ j) (v : List CapRecord) : (s.setCapu i v).capu j = s.capu j := by
  simp [State.capu, State.setCapu, Store.get_set_ne' _ _ _ _ h]
@[simp] theorem State.tier_setTier (i : Nat) (v : TierState) : (s.setTier i v).tier i = v := by simp [State.tier, State.setTier]
theorem State.tier_setTier_ne {i j : Nat} (h : i ≠ j) (v : TierState) : (s.setTier i v).tier j = s.tier j := by
  simp [State.tier, State.setTier, Store.get_set_ne' _ _ _ _ h]
@[simp] theorem State.port_setPort (i : Nat) (v : Port) : (s.setPort i v).port i = v := by simp [State.port, State.setPort]
theorem State.port_setPort_ne {i j : Nat} (h : i ≠ j) (v : Port) : (s.setPort i v).port j = s.port j := by
  simp [State.port, State.setPort, Store.get_set_ne' _ _ _ _ h]

/-! ### Events and error records -/

/-- The registers after an event. -/
theorem raiseFor_regs (p : Page) (n b l : Nat) (r : Reg) (i x u : Nat) : (raiseFor p n b l s).rd r i x u =
    (if s.rd .EVT_EN_EN n p.code b == 1 then (s.wr .EVT_RAW_RAW 1 n p.code b).wr .EVT_PEND_PEND 1 n p.code b
      else s.wr .EVT_RAW_RAW 1 n p.code b).rd r i x u := rfl

/-- An event raises its own bits and presents producers, and nothing else. -/
@[simp] theorem raiseFor_rd {r : Reg} (h1 : .EVT_RAW_RAW ≠ r) (h2 : .EVT_PEND_PEND ≠ r) (p : Page) (n b l : Nat) (i x u : Nat) :
    (raiseFor p n b l s).rd r i x u = s.rd r i x u := by
  rw [raiseFor_regs]
  split
  · rw [State.rd_wr_reg _ h2, State.rd_wr_reg _ h1]
  · rw [State.rd_wr_reg _ h1]

@[simp] theorem raise_rd {r : Reg} (h1 : .EVT_RAW_RAW ≠ r) (h2 : .EVT_PEND_PEND ≠ r) (p : Page) (n b : Nat) (i x u : Nat) :
    (raise p n b s).rd r i x u = s.rd r i x u := raiseFor_rd s h1 h2 ..

/-- The event bit is set. -/
@[simp] theorem raiseFor_raw (p : Page) (n b l : Nat) : (raiseFor p n b l s).rd .EVT_RAW_RAW n p.code b = 1 := by
  rw [raiseFor_regs]
  split
  · rw [State.rd_wr_reg _ (by simp), State.rd_wr_same]; rfl
  · rw [State.rd_wr_same]; rfl

@[simp] theorem raise_raw (p : Page) (n b : Nat) : (raise p n b s).rd .EVT_RAW_RAW n p.code b = 1 := raiseFor_raw s ..

/-- An enabled event is pending (R416). -/
theorem raiseFor_pend (p : Page) (n b l : Nat) (h : s.rd .EVT_EN_EN n p.code b = 1) :
    (raiseFor p n b l s).rd .EVT_PEND_PEND n p.code b = 1 := by
  rw [raiseFor_regs, if_pos (by rw [h]; rfl), State.rd_wr_same]; rfl

/-- A first error names its code; a further one sets OVF (R418). -/
@[simp] theorem recordErr_rd {r : Reg} (h1 : .ERR_CODE_CODE ≠ r) (h2 : .ERR_CODE_MASTER ≠ r) (h3 : .ERR_CODE_WRITE ≠ r)
    (h4 : .ERR_CODE_WORD ≠ r) (h5 : .ERR_CODE_OVF ≠ r) (p : Page) (n c m : Nat) (w : Bool) (o i x u : Nat) :
    (recordErr p n c m w o s).rd r i x u = s.rd r i x u := by
  unfold recordErr
  split
  · simp [h1, h2, h3, h4]
  · simp [h5]

theorem recordErr_code (p : Page) (n c m : Nat) (w : Bool) (o : Nat) (h : s.rd .ERR_CODE_CODE n p.code = 0) :
    (recordErr p n c m w o s).rd .ERR_CODE_CODE n p.code = c % 2 ^ Reg.ERR_CODE_CODE.width := by
  unfold recordErr
  rw [if_pos h]
  simp

@[simp] theorem raiseFor_pending (p : Page) (n b l : Nat) : (raiseFor p n b l s).pending = s.pending := by
  unfold raiseFor; dsimp only; split <;> rfl
@[simp] theorem raiseFor_dev (p : Page) (n b l : Nat) : (raiseFor p n b l s).dev = s.dev := by
  unfold raiseFor; dsimp only; split <;> rfl
@[simp] theorem raiseFor_now (p : Page) (n b l : Nat) : (raiseFor p n b l s).now = s.now := by
  unfold raiseFor; dsimp only; split <;> rfl
@[simp] theorem raiseFor_osc (p : Page) (n b l : Nat) : (raiseFor p n b l s).osc = s.osc := by
  unfold raiseFor; dsimp only; split <;> rfl
@[simp] theorem raiseFor_eff (p : Page) (n b l : Nat) : (raiseFor p n b l s).eff = s.eff := by
  unfold raiseFor; dsimp only; split <;> rfl
@[simp] theorem raiseFor_cap (p : Page) (n b l : Nat) : (raiseFor p n b l s).cap = s.cap := by
  unfold raiseFor; dsimp only; split <;> rfl
@[simp] theorem raiseFor_held (p : Page) (n b l : Nat) : (raiseFor p n b l s).held = s.held := by
  unfold raiseFor; dsimp only; split <;> rfl
@[simp] theorem raiseFor_readData (p : Page) (n b l : Nat) : (raiseFor p n b l s).readData = s.readData := by
  unfold raiseFor; dsimp only; split <;> rfl
@[simp] theorem raiseFor_commits (p : Page) (n b l : Nat) : (raiseFor p n b l s).commits = s.commits := by
  unfold raiseFor; dsimp only; split <;> rfl
@[simp] theorem raiseFor_holdoff (p : Page) (n b l : Nat) : (raiseFor p n b l s).holdoff = s.holdoff := by
  unfold raiseFor; dsimp only; split <;> rfl
@[simp] theorem raiseFor_mem (p : Page) (n b l : Nat) : (raiseFor p n b l s).mem = s.mem := by
  unfold raiseFor; dsimp only; split <;> rfl
@[simp] theorem raiseFor_poison (p : Page) (n b l : Nat) : (raiseFor p n b l s).poison = s.poison := by
  unfold raiseFor; dsimp only; split <;> rfl
@[simp] theorem raiseFor_epoch (p : Page) (n b l : Nat) : (raiseFor p n b l s).epoch = s.epoch := by
  unfold raiseFor; dsimp only; split <;> rfl
@[simp] theorem raiseFor_pllStarted (p : Page) (n b l : Nat) : (raiseFor p n b l s).pllStarted = s.pllStarted := by
  unfold raiseFor; dsimp only; split <;> rfl
@[simp] theorem raiseFor_lcs (p : Page) (n b l : Nat) : (raiseFor p n b l s).lcs = s.lcs := by
  unfold raiseFor; dsimp only; split <;> rfl
@[simp] theorem raiseFor_lcGen (p : Page) (n b l : Nat) : (raiseFor p n b l s).lcGen = s.lcGen := by
  unfold raiseFor; dsimp only; split <;> rfl
@[simp] theorem raiseFor_clocks (p : Page) (n b l : Nat) : (raiseFor p n b l s).clocks = s.clocks := by
  unfold raiseFor; dsimp only; split <;> rfl
@[simp] theorem raiseFor_gstbs (p : Page) (n b l : Nat) : (raiseFor p n b l s).gstbs = s.gstbs := by
  unfold raiseFor; dsimp only; split <;> rfl
@[simp] theorem raiseFor_wheels (p : Page) (n b l : Nat) : (raiseFor p n b l s).wheels = s.wheels := by
  unfold raiseFor; dsimp only; split <;> rfl
@[simp] theorem raiseFor_cses (p : Page) (n b l : Nat) : (raiseFor p n b l s).cses = s.cses := by
  unfold raiseFor; dsimp only; split <;> rfl
@[simp] theorem raiseFor_stitchers (p : Page) (n b l : Nat) : (raiseFor p n b l s).stitchers = s.stitchers := by
  unfold raiseFor; dsimp only; split <;> rfl
@[simp] theorem raiseFor_queues (p : Page) (n b l : Nat) : (raiseFor p n b l s).queues = s.queues := by
  unfold raiseFor; dsimp only; split <;> rfl
@[simp] theorem raiseFor_staging (p : Page) (n b l : Nat) : (raiseFor p n b l s).staging = s.staging := by
  unfold raiseFor; dsimp only; split <;> rfl
@[simp] theorem raiseFor_rings (p : Page) (n b l : Nat) : (raiseFor p n b l s).rings = s.rings := by
  unfold raiseFor; dsimp only; split <;> rfl
@[simp] theorem raiseFor_outs (p : Page) (n b l : Nat) : (raiseFor p n b l s).outs = s.outs := by
  unfold raiseFor; dsimp only; split <;> rfl
@[simp] theorem raiseFor_lines (p : Page) (n b l : Nat) : (raiseFor p n b l s).lines = s.lines := by
  unfold raiseFor; dsimp only; split <;> rfl
@[simp] theorem raiseFor_pins (p : Page) (n b l : Nat) : (raiseFor p n b l s).pins = s.pins := by
  unfold raiseFor; dsimp only; split <;> rfl
@[simp] theorem raiseFor_capus (p : Page) (n b l : Nat) : (raiseFor p n b l s).capus = s.capus := by
  unfold raiseFor; dsimp only; split <;> rfl
@[simp] theorem raiseFor_evin (p : Page) (n b l : Nat) : (raiseFor p n b l s).evin = s.evin := by
  unfold raiseFor; dsimp only; split <;> rfl
@[simp] theorem raiseFor_nvmQueue (p : Page) (n b l : Nat) : (raiseFor p n b l s).nvmQueue = s.nvmQueue := by
  unfold raiseFor; dsimp only; split <;> rfl
@[simp] theorem raiseFor_ports (p : Page) (n b l : Nat) : (raiseFor p n b l s).ports = s.ports := by
  unfold raiseFor; dsimp only; split <;> rfl
@[simp] theorem raiseFor_addrPins (p : Page) (n b l : Nat) : (raiseFor p n b l s).addrPins = s.addrPins := by
  unfold raiseFor; dsimp only; split <;> rfl
@[simp] theorem raiseFor_testEn (p : Page) (n b l : Nat) : (raiseFor p n b l s).testEn = s.testEn := by
  unfold raiseFor; dsimp only; split <;> rfl
@[simp] theorem raiseFor_ldr (p : Page) (n b l : Nat) : (raiseFor p n b l s).ldr = s.ldr := by
  unfold raiseFor; dsimp only; split <;> rfl
@[simp] theorem raiseFor_sec (p : Page) (n b l : Nat) : (raiseFor p n b l s).sec = s.sec := by
  unfold raiseFor; dsimp only; split <;> rfl
@[simp] theorem raiseFor_pwr (p : Page) (n b l : Nat) : (raiseFor p n b l s).pwr = s.pwr := by
  unfold raiseFor; dsimp only; split <;> rfl
@[simp] theorem raiseFor_qry (p : Page) (n b l : Nat) : (raiseFor p n b l s).qry = s.qry := by
  unfold raiseFor; dsimp only; split <;> rfl
@[simp] theorem raiseFor_ben (p : Page) (n b l : Nat) : (raiseFor p n b l s).ben = s.ben := by
  unfold raiseFor; dsimp only; split <;> rfl
@[simp] theorem raiseFor_missed (p : Page) (n b l : Nat) : (raiseFor p n b l s).missed = s.missed := by
  unfold raiseFor; dsimp only; split <;> rfl
@[simp] theorem raiseFor_tiers (p : Page) (n b l : Nat) : (raiseFor p n b l s).tiers = s.tiers := by
  unfold raiseFor; dsimp only; split <;> rfl
@[simp] theorem raiseFor_vref (p : Page) (n b l : Nat) : (raiseFor p n b l s).vref = s.vref := by
  unfold raiseFor; dsimp only; split <;> rfl
@[simp] theorem raiseFor_trimSaved (p : Page) (n b l : Nat) : (raiseFor p n b l s).trimSaved = s.trimSaved := by
  unfold raiseFor; dsimp only; split <;> rfl
@[simp] theorem raiseFor_trimDue (p : Page) (n b l : Nat) : (raiseFor p n b l s).trimDue = s.trimDue := by
  unfold raiseFor; dsimp only; split <;> rfl
@[simp] theorem raiseFor_fwUp (p : Page) (n b l : Nat) : (raiseFor p n b l s).fwUp = s.fwUp := by
  unfold raiseFor; dsimp only; split <;> rfl
@[simp] theorem raiseFor_free (p : Page) (n b l : Nat) : (raiseFor p n b l s).free = s.free := by
  unfold raiseFor; dsimp only; split <;> rfl
@[simp] theorem recordErr_pending (p : Page) (n c m : Nat) (w : Bool) (o : Nat) : (recordErr p n c m w o s).pending = s.pending := by
  unfold recordErr; split <;> rfl
@[simp] theorem recordErr_dev (p : Page) (n c m : Nat) (w : Bool) (o : Nat) : (recordErr p n c m w o s).dev = s.dev := by
  unfold recordErr; split <;> rfl
@[simp] theorem recordErr_now (p : Page) (n c m : Nat) (w : Bool) (o : Nat) : (recordErr p n c m w o s).now = s.now := by
  unfold recordErr; split <;> rfl
@[simp] theorem recordErr_osc (p : Page) (n c m : Nat) (w : Bool) (o : Nat) : (recordErr p n c m w o s).osc = s.osc := by
  unfold recordErr; split <;> rfl
@[simp] theorem recordErr_eff (p : Page) (n c m : Nat) (w : Bool) (o : Nat) : (recordErr p n c m w o s).eff = s.eff := by
  unfold recordErr; split <;> rfl
@[simp] theorem recordErr_cap (p : Page) (n c m : Nat) (w : Bool) (o : Nat) : (recordErr p n c m w o s).cap = s.cap := by
  unfold recordErr; split <;> rfl
@[simp] theorem recordErr_held (p : Page) (n c m : Nat) (w : Bool) (o : Nat) : (recordErr p n c m w o s).held = s.held := by
  unfold recordErr; split <;> rfl
@[simp] theorem recordErr_readData (p : Page) (n c m : Nat) (w : Bool) (o : Nat) : (recordErr p n c m w o s).readData = s.readData := by
  unfold recordErr; split <;> rfl
@[simp] theorem recordErr_presented (p : Page) (n c m : Nat) (w : Bool) (o : Nat) : (recordErr p n c m w o s).presented = s.presented := by
  unfold recordErr; split <;> rfl
@[simp] theorem recordErr_commits (p : Page) (n c m : Nat) (w : Bool) (o : Nat) : (recordErr p n c m w o s).commits = s.commits := by
  unfold recordErr; split <;> rfl
@[simp] theorem recordErr_holdoff (p : Page) (n c m : Nat) (w : Bool) (o : Nat) : (recordErr p n c m w o s).holdoff = s.holdoff := by
  unfold recordErr; split <;> rfl
@[simp] theorem recordErr_mem (p : Page) (n c m : Nat) (w : Bool) (o : Nat) : (recordErr p n c m w o s).mem = s.mem := by
  unfold recordErr; split <;> rfl
@[simp] theorem recordErr_poison (p : Page) (n c m : Nat) (w : Bool) (o : Nat) : (recordErr p n c m w o s).poison = s.poison := by
  unfold recordErr; split <;> rfl
@[simp] theorem recordErr_epoch (p : Page) (n c m : Nat) (w : Bool) (o : Nat) : (recordErr p n c m w o s).epoch = s.epoch := by
  unfold recordErr; split <;> rfl
@[simp] theorem recordErr_pllStarted (p : Page) (n c m : Nat) (w : Bool) (o : Nat) : (recordErr p n c m w o s).pllStarted = s.pllStarted := by
  unfold recordErr; split <;> rfl
@[simp] theorem recordErr_lcs (p : Page) (n c m : Nat) (w : Bool) (o : Nat) : (recordErr p n c m w o s).lcs = s.lcs := by
  unfold recordErr; split <;> rfl
@[simp] theorem recordErr_lcGen (p : Page) (n c m : Nat) (w : Bool) (o : Nat) : (recordErr p n c m w o s).lcGen = s.lcGen := by
  unfold recordErr; split <;> rfl
@[simp] theorem recordErr_clocks (p : Page) (n c m : Nat) (w : Bool) (o : Nat) : (recordErr p n c m w o s).clocks = s.clocks := by
  unfold recordErr; split <;> rfl
@[simp] theorem recordErr_gstbs (p : Page) (n c m : Nat) (w : Bool) (o : Nat) : (recordErr p n c m w o s).gstbs = s.gstbs := by
  unfold recordErr; split <;> rfl
@[simp] theorem recordErr_wheels (p : Page) (n c m : Nat) (w : Bool) (o : Nat) : (recordErr p n c m w o s).wheels = s.wheels := by
  unfold recordErr; split <;> rfl
@[simp] theorem recordErr_cses (p : Page) (n c m : Nat) (w : Bool) (o : Nat) : (recordErr p n c m w o s).cses = s.cses := by
  unfold recordErr; split <;> rfl
@[simp] theorem recordErr_stitchers (p : Page) (n c m : Nat) (w : Bool) (o : Nat) : (recordErr p n c m w o s).stitchers = s.stitchers := by
  unfold recordErr; split <;> rfl
@[simp] theorem recordErr_queues (p : Page) (n c m : Nat) (w : Bool) (o : Nat) : (recordErr p n c m w o s).queues = s.queues := by
  unfold recordErr; split <;> rfl
@[simp] theorem recordErr_staging (p : Page) (n c m : Nat) (w : Bool) (o : Nat) : (recordErr p n c m w o s).staging = s.staging := by
  unfold recordErr; split <;> rfl
@[simp] theorem recordErr_rings (p : Page) (n c m : Nat) (w : Bool) (o : Nat) : (recordErr p n c m w o s).rings = s.rings := by
  unfold recordErr; split <;> rfl
@[simp] theorem recordErr_outs (p : Page) (n c m : Nat) (w : Bool) (o : Nat) : (recordErr p n c m w o s).outs = s.outs := by
  unfold recordErr; split <;> rfl
@[simp] theorem recordErr_lines (p : Page) (n c m : Nat) (w : Bool) (o : Nat) : (recordErr p n c m w o s).lines = s.lines := by
  unfold recordErr; split <;> rfl
@[simp] theorem recordErr_pins (p : Page) (n c m : Nat) (w : Bool) (o : Nat) : (recordErr p n c m w o s).pins = s.pins := by
  unfold recordErr; split <;> rfl
@[simp] theorem recordErr_capus (p : Page) (n c m : Nat) (w : Bool) (o : Nat) : (recordErr p n c m w o s).capus = s.capus := by
  unfold recordErr; split <;> rfl
@[simp] theorem recordErr_evin (p : Page) (n c m : Nat) (w : Bool) (o : Nat) : (recordErr p n c m w o s).evin = s.evin := by
  unfold recordErr; split <;> rfl
@[simp] theorem recordErr_nvmQueue (p : Page) (n c m : Nat) (w : Bool) (o : Nat) : (recordErr p n c m w o s).nvmQueue = s.nvmQueue := by
  unfold recordErr; split <;> rfl
@[simp] theorem recordErr_ports (p : Page) (n c m : Nat) (w : Bool) (o : Nat) : (recordErr p n c m w o s).ports = s.ports := by
  unfold recordErr; split <;> rfl
@[simp] theorem recordErr_addrPins (p : Page) (n c m : Nat) (w : Bool) (o : Nat) : (recordErr p n c m w o s).addrPins = s.addrPins := by
  unfold recordErr; split <;> rfl
@[simp] theorem recordErr_testEn (p : Page) (n c m : Nat) (w : Bool) (o : Nat) : (recordErr p n c m w o s).testEn = s.testEn := by
  unfold recordErr; split <;> rfl
@[simp] theorem recordErr_ldr (p : Page) (n c m : Nat) (w : Bool) (o : Nat) : (recordErr p n c m w o s).ldr = s.ldr := by
  unfold recordErr; split <;> rfl
@[simp] theorem recordErr_sec (p : Page) (n c m : Nat) (w : Bool) (o : Nat) : (recordErr p n c m w o s).sec = s.sec := by
  unfold recordErr; split <;> rfl
@[simp] theorem recordErr_pwr (p : Page) (n c m : Nat) (w : Bool) (o : Nat) : (recordErr p n c m w o s).pwr = s.pwr := by
  unfold recordErr; split <;> rfl
@[simp] theorem recordErr_qry (p : Page) (n c m : Nat) (w : Bool) (o : Nat) : (recordErr p n c m w o s).qry = s.qry := by
  unfold recordErr; split <;> rfl
@[simp] theorem recordErr_ben (p : Page) (n c m : Nat) (w : Bool) (o : Nat) : (recordErr p n c m w o s).ben = s.ben := by
  unfold recordErr; split <;> rfl
@[simp] theorem recordErr_missed (p : Page) (n c m : Nat) (w : Bool) (o : Nat) : (recordErr p n c m w o s).missed = s.missed := by
  unfold recordErr; split <;> rfl
@[simp] theorem recordErr_tiers (p : Page) (n c m : Nat) (w : Bool) (o : Nat) : (recordErr p n c m w o s).tiers = s.tiers := by
  unfold recordErr; split <;> rfl
@[simp] theorem recordErr_vref (p : Page) (n c m : Nat) (w : Bool) (o : Nat) : (recordErr p n c m w o s).vref = s.vref := by
  unfold recordErr; split <;> rfl
@[simp] theorem recordErr_trimSaved (p : Page) (n c m : Nat) (w : Bool) (o : Nat) : (recordErr p n c m w o s).trimSaved = s.trimSaved := by
  unfold recordErr; split <;> rfl
@[simp] theorem recordErr_trimDue (p : Page) (n c m : Nat) (w : Bool) (o : Nat) : (recordErr p n c m w o s).trimDue = s.trimDue := by
  unfold recordErr; split <;> rfl
@[simp] theorem recordErr_fwUp (p : Page) (n c m : Nat) (w : Bool) (o : Nat) : (recordErr p n c m w o s).fwUp = s.fwUp := by
  unfold recordErr; split <;> rfl
@[simp] theorem recordErr_free (p : Page) (n c m : Nat) (w : Bool) (o : Nat) : (recordErr p n c m w o s).free = s.free := by
  unfold recordErr; split <;> rfl
@[simp] theorem raise_pending (p : Page) (n b : Nat) : (raise p n b s).pending = s.pending := raiseFor_pending s ..
@[simp] theorem raise_dev (p : Page) (n b : Nat) : (raise p n b s).dev = s.dev := raiseFor_dev s ..
@[simp] theorem raise_now (p : Page) (n b : Nat) : (raise p n b s).now = s.now := raiseFor_now s ..
@[simp] theorem raise_osc (p : Page) (n b : Nat) : (raise p n b s).osc = s.osc := raiseFor_osc s ..
@[simp] theorem raise_eff (p : Page) (n b : Nat) : (raise p n b s).eff = s.eff := raiseFor_eff s ..
@[simp] theorem raise_cap (p : Page) (n b : Nat) : (raise p n b s).cap = s.cap := raiseFor_cap s ..
@[simp] theorem raise_held (p : Page) (n b : Nat) : (raise p n b s).held = s.held := raiseFor_held s ..
@[simp] theorem raise_readData (p : Page) (n b : Nat) : (raise p n b s).readData = s.readData := raiseFor_readData s ..
@[simp] theorem raise_commits (p : Page) (n b : Nat) : (raise p n b s).commits = s.commits := raiseFor_commits s ..
@[simp] theorem raise_holdoff (p : Page) (n b : Nat) : (raise p n b s).holdoff = s.holdoff := raiseFor_holdoff s ..
@[simp] theorem raise_mem (p : Page) (n b : Nat) : (raise p n b s).mem = s.mem := raiseFor_mem s ..
@[simp] theorem raise_poison (p : Page) (n b : Nat) : (raise p n b s).poison = s.poison := raiseFor_poison s ..
@[simp] theorem raise_epoch (p : Page) (n b : Nat) : (raise p n b s).epoch = s.epoch := raiseFor_epoch s ..
@[simp] theorem raise_pllStarted (p : Page) (n b : Nat) : (raise p n b s).pllStarted = s.pllStarted := raiseFor_pllStarted s ..
@[simp] theorem raise_lcs (p : Page) (n b : Nat) : (raise p n b s).lcs = s.lcs := raiseFor_lcs s ..
@[simp] theorem raise_lcGen (p : Page) (n b : Nat) : (raise p n b s).lcGen = s.lcGen := raiseFor_lcGen s ..
@[simp] theorem raise_clocks (p : Page) (n b : Nat) : (raise p n b s).clocks = s.clocks := raiseFor_clocks s ..
@[simp] theorem raise_gstbs (p : Page) (n b : Nat) : (raise p n b s).gstbs = s.gstbs := raiseFor_gstbs s ..
@[simp] theorem raise_wheels (p : Page) (n b : Nat) : (raise p n b s).wheels = s.wheels := raiseFor_wheels s ..
@[simp] theorem raise_cses (p : Page) (n b : Nat) : (raise p n b s).cses = s.cses := raiseFor_cses s ..
@[simp] theorem raise_stitchers (p : Page) (n b : Nat) : (raise p n b s).stitchers = s.stitchers := raiseFor_stitchers s ..
@[simp] theorem raise_queues (p : Page) (n b : Nat) : (raise p n b s).queues = s.queues := raiseFor_queues s ..
@[simp] theorem raise_staging (p : Page) (n b : Nat) : (raise p n b s).staging = s.staging := raiseFor_staging s ..
@[simp] theorem raise_rings (p : Page) (n b : Nat) : (raise p n b s).rings = s.rings := raiseFor_rings s ..
@[simp] theorem raise_outs (p : Page) (n b : Nat) : (raise p n b s).outs = s.outs := raiseFor_outs s ..
@[simp] theorem raise_lines (p : Page) (n b : Nat) : (raise p n b s).lines = s.lines := raiseFor_lines s ..
@[simp] theorem raise_pins (p : Page) (n b : Nat) : (raise p n b s).pins = s.pins := raiseFor_pins s ..
@[simp] theorem raise_capus (p : Page) (n b : Nat) : (raise p n b s).capus = s.capus := raiseFor_capus s ..
@[simp] theorem raise_evin (p : Page) (n b : Nat) : (raise p n b s).evin = s.evin := raiseFor_evin s ..
@[simp] theorem raise_nvmQueue (p : Page) (n b : Nat) : (raise p n b s).nvmQueue = s.nvmQueue := raiseFor_nvmQueue s ..
@[simp] theorem raise_ports (p : Page) (n b : Nat) : (raise p n b s).ports = s.ports := raiseFor_ports s ..
@[simp] theorem raise_addrPins (p : Page) (n b : Nat) : (raise p n b s).addrPins = s.addrPins := raiseFor_addrPins s ..
@[simp] theorem raise_testEn (p : Page) (n b : Nat) : (raise p n b s).testEn = s.testEn := raiseFor_testEn s ..
@[simp] theorem raise_ldr (p : Page) (n b : Nat) : (raise p n b s).ldr = s.ldr := raiseFor_ldr s ..
@[simp] theorem raise_sec (p : Page) (n b : Nat) : (raise p n b s).sec = s.sec := raiseFor_sec s ..
@[simp] theorem raise_pwr (p : Page) (n b : Nat) : (raise p n b s).pwr = s.pwr := raiseFor_pwr s ..
@[simp] theorem raise_qry (p : Page) (n b : Nat) : (raise p n b s).qry = s.qry := raiseFor_qry s ..
@[simp] theorem raise_ben (p : Page) (n b : Nat) : (raise p n b s).ben = s.ben := raiseFor_ben s ..
@[simp] theorem raise_missed (p : Page) (n b : Nat) : (raise p n b s).missed = s.missed := raiseFor_missed s ..
@[simp] theorem raise_tiers (p : Page) (n b : Nat) : (raise p n b s).tiers = s.tiers := raiseFor_tiers s ..
@[simp] theorem raise_vref (p : Page) (n b : Nat) : (raise p n b s).vref = s.vref := raiseFor_vref s ..
@[simp] theorem raise_trimSaved (p : Page) (n b : Nat) : (raise p n b s).trimSaved = s.trimSaved := raiseFor_trimSaved s ..
@[simp] theorem raise_trimDue (p : Page) (n b : Nat) : (raise p n b s).trimDue = s.trimDue := raiseFor_trimDue s ..
@[simp] theorem raise_fwUp (p : Page) (n b : Nat) : (raise p n b s).fwUp = s.fwUp := raiseFor_fwUp s ..
@[simp] theorem raise_free (p : Page) (n b : Nat) : (raise p n b s).free = s.free := raiseFor_free s ..

/-! ### Commands -/

/-- A command on a running device. -/
@[simp] theorem act_up {s : State} (h : s.dev = .up) (f : State → State) : act s f = .next (f s) := by simp [act, h]

/-- A device that is not running keeps its state. -/
theorem act_down {s : State} (h : s.dev ≠ .up) (f : State → State) : act s f = .next s := by simp [act, h]

theorem on_pos {c : Prop} [Decidable c] {s : State} (h : c) (f : State → State) : on c f s = f s := if_pos h
theorem on_neg {c : Prop} [Decidable c] {s : State} (h : ¬c) (f : State → State) : on c f s = s := if_neg h

/-! ### Wake causes (R401) -/

/-- A device in D0 that enters no lower state stays as it is. -/
theorem wake_awake {s : State} (h : s.rd .POWER_STATUS_DSTATE = 0 ∧ s.rd .POWER_STATUS_ENTERING = 0) (c : Nat) : wake c s = s := by
  simp [wake, dstate, h]

/-- So does one that is on its way to D0 already. -/
theorem wake_exiting {s : State} (h : s.rd .POWER_STATUS_EXITING = 1) (c : Nat) : wake c s = s := by simp [wake, h]

/-- A write by a master other than the host ports wakes nothing. -/
@[simp] theorem hostWake_other {s : State} {m : Nat} (h : 1 < m) : hostWake m s = s := if_neg (by omega)

/-- Below D0, or during an entry, the exit begins. -/
theorem wake_begins {s : State} (h0 : s.rd .POWER_STATUS_EXITING = 0) (h : s.rd .POWER_STATUS_DSTATE ≠ 0 ∨ s.rd .POWER_STATUS_ENTERING = 1)
    (c : Nat) : (wake c s).rd .POWER_STATUS_EXITING = 1 ∧ (wake c s).rd .POWER_WAKE_STAT_CLASS = c % 8 := by
  unfold wake
  rw [if_pos ⟨h0, h⟩]
  constructor <;> simp [beginExit, State.rd, State.wr, Store.get_set_ne', key, Reg.ctorIdx, Reg.width, Reg.info]

@[simp] theorem wake_rd {r : Reg} (h1 : .POWER_STATUS_ENTERING ≠ r) (h2 : .POWER_STATUS_EXITING ≠ r) (h3 : .POWER_WAKE_STAT_CLASS ≠ r)
    (h4 : .POWER_WAKE_STAT_FROM ≠ r) (c i x u : Nat) : (wake c s).rd r i x u = s.rd r i x u := by
  unfold wake beginExit
  split
  · show (((s.wr _ _).wr _ _ |>.wr _ _).wr _ _ : State).rd r i x u = _
    rw [State.rd_wr_reg _ h4, State.rd_wr_reg _ h3, State.rd_wr_reg _ h2, State.rd_wr_reg _ h1]
  · rfl

@[simp] theorem hostWake_rd {r : Reg} (h1 : .POWER_STATUS_ENTERING ≠ r) (h2 : .POWER_STATUS_EXITING ≠ r) (h3 : .POWER_WAKE_STAT_CLASS ≠ r)
    (h4 : .POWER_WAKE_STAT_FROM ≠ r) (m i x u : Nat) : (hostWake m s).rd r i x u = s.rd r i x u := by
  unfold hostWake
  split
  · exact wake_rd s h1 h2 h3 h4 ..
  · rfl

@[simp] theorem wake_pending (c : Nat) : (wake c s).pending = s.pending := by
  unfold wake; split <;> rfl
@[simp] theorem hostWake_pending (m : Nat) : (hostWake m s).pending = s.pending := by
  unfold hostWake; split <;> [exact wake_pending s _; rfl]
@[simp] theorem wake_dev (c : Nat) : (wake c s).dev = s.dev := by
  unfold wake; split <;> rfl
@[simp] theorem hostWake_dev (m : Nat) : (hostWake m s).dev = s.dev := by
  unfold hostWake; split <;> [exact wake_dev s _; rfl]
@[simp] theorem wake_now (c : Nat) : (wake c s).now = s.now := by
  unfold wake; split <;> rfl
@[simp] theorem hostWake_now (m : Nat) : (hostWake m s).now = s.now := by
  unfold hostWake; split <;> [exact wake_now s _; rfl]
@[simp] theorem wake_osc (c : Nat) : (wake c s).osc = s.osc := by
  unfold wake; split <;> rfl
@[simp] theorem hostWake_osc (m : Nat) : (hostWake m s).osc = s.osc := by
  unfold hostWake; split <;> [exact wake_osc s _; rfl]
@[simp] theorem wake_eff (c : Nat) : (wake c s).eff = s.eff := by
  unfold wake; split <;> rfl
@[simp] theorem hostWake_eff (m : Nat) : (hostWake m s).eff = s.eff := by
  unfold hostWake; split <;> [exact wake_eff s _; rfl]
@[simp] theorem wake_cap (c : Nat) : (wake c s).cap = s.cap := by
  unfold wake; split <;> rfl
@[simp] theorem hostWake_cap (m : Nat) : (hostWake m s).cap = s.cap := by
  unfold hostWake; split <;> [exact wake_cap s _; rfl]
@[simp] theorem wake_held (c : Nat) : (wake c s).held = s.held := by
  unfold wake; split <;> rfl
@[simp] theorem hostWake_held (m : Nat) : (hostWake m s).held = s.held := by
  unfold hostWake; split <;> [exact wake_held s _; rfl]
@[simp] theorem wake_readData (c : Nat) : (wake c s).readData = s.readData := by
  unfold wake; split <;> rfl
@[simp] theorem hostWake_readData (m : Nat) : (hostWake m s).readData = s.readData := by
  unfold hostWake; split <;> [exact wake_readData s _; rfl]
@[simp] theorem wake_presented (c : Nat) : (wake c s).presented = s.presented := by
  unfold wake; split <;> rfl
@[simp] theorem hostWake_presented (m : Nat) : (hostWake m s).presented = s.presented := by
  unfold hostWake; split <;> [exact wake_presented s _; rfl]
@[simp] theorem wake_commits (c : Nat) : (wake c s).commits = s.commits := by
  unfold wake; split <;> rfl
@[simp] theorem hostWake_commits (m : Nat) : (hostWake m s).commits = s.commits := by
  unfold hostWake; split <;> [exact wake_commits s _; rfl]
@[simp] theorem wake_holdoff (c : Nat) : (wake c s).holdoff = s.holdoff := by
  unfold wake; split <;> rfl
@[simp] theorem hostWake_holdoff (m : Nat) : (hostWake m s).holdoff = s.holdoff := by
  unfold hostWake; split <;> [exact wake_holdoff s _; rfl]
@[simp] theorem wake_mem (c : Nat) : (wake c s).mem = s.mem := by
  unfold wake; split <;> rfl
@[simp] theorem hostWake_mem (m : Nat) : (hostWake m s).mem = s.mem := by
  unfold hostWake; split <;> [exact wake_mem s _; rfl]
@[simp] theorem wake_poison (c : Nat) : (wake c s).poison = s.poison := by
  unfold wake; split <;> rfl
@[simp] theorem hostWake_poison (m : Nat) : (hostWake m s).poison = s.poison := by
  unfold hostWake; split <;> [exact wake_poison s _; rfl]
@[simp] theorem wake_epoch (c : Nat) : (wake c s).epoch = s.epoch := by
  unfold wake; split <;> rfl
@[simp] theorem hostWake_epoch (m : Nat) : (hostWake m s).epoch = s.epoch := by
  unfold hostWake; split <;> [exact wake_epoch s _; rfl]
@[simp] theorem wake_pllStarted (c : Nat) : (wake c s).pllStarted = s.pllStarted := by
  unfold wake; split <;> rfl
@[simp] theorem hostWake_pllStarted (m : Nat) : (hostWake m s).pllStarted = s.pllStarted := by
  unfold hostWake; split <;> [exact wake_pllStarted s _; rfl]
@[simp] theorem wake_lcs (c : Nat) : (wake c s).lcs = s.lcs := by
  unfold wake; split <;> rfl
@[simp] theorem hostWake_lcs (m : Nat) : (hostWake m s).lcs = s.lcs := by
  unfold hostWake; split <;> [exact wake_lcs s _; rfl]
@[simp] theorem wake_lcGen (c : Nat) : (wake c s).lcGen = s.lcGen := by
  unfold wake; split <;> rfl
@[simp] theorem hostWake_lcGen (m : Nat) : (hostWake m s).lcGen = s.lcGen := by
  unfold hostWake; split <;> [exact wake_lcGen s _; rfl]
@[simp] theorem wake_clocks (c : Nat) : (wake c s).clocks = s.clocks := by
  unfold wake; split <;> rfl
@[simp] theorem hostWake_clocks (m : Nat) : (hostWake m s).clocks = s.clocks := by
  unfold hostWake; split <;> [exact wake_clocks s _; rfl]
@[simp] theorem wake_gstbs (c : Nat) : (wake c s).gstbs = s.gstbs := by
  unfold wake; split <;> rfl
@[simp] theorem hostWake_gstbs (m : Nat) : (hostWake m s).gstbs = s.gstbs := by
  unfold hostWake; split <;> [exact wake_gstbs s _; rfl]
@[simp] theorem wake_wheels (c : Nat) : (wake c s).wheels = s.wheels := by
  unfold wake; split <;> rfl
@[simp] theorem hostWake_wheels (m : Nat) : (hostWake m s).wheels = s.wheels := by
  unfold hostWake; split <;> [exact wake_wheels s _; rfl]
@[simp] theorem wake_cses (c : Nat) : (wake c s).cses = s.cses := by
  unfold wake; split <;> rfl
@[simp] theorem hostWake_cses (m : Nat) : (hostWake m s).cses = s.cses := by
  unfold hostWake; split <;> [exact wake_cses s _; rfl]
@[simp] theorem wake_stitchers (c : Nat) : (wake c s).stitchers = s.stitchers := by
  unfold wake; split <;> rfl
@[simp] theorem hostWake_stitchers (m : Nat) : (hostWake m s).stitchers = s.stitchers := by
  unfold hostWake; split <;> [exact wake_stitchers s _; rfl]
@[simp] theorem wake_queues (c : Nat) : (wake c s).queues = s.queues := by
  unfold wake; split <;> rfl
@[simp] theorem hostWake_queues (m : Nat) : (hostWake m s).queues = s.queues := by
  unfold hostWake; split <;> [exact wake_queues s _; rfl]
@[simp] theorem wake_staging (c : Nat) : (wake c s).staging = s.staging := by
  unfold wake; split <;> rfl
@[simp] theorem hostWake_staging (m : Nat) : (hostWake m s).staging = s.staging := by
  unfold hostWake; split <;> [exact wake_staging s _; rfl]
@[simp] theorem wake_rings (c : Nat) : (wake c s).rings = s.rings := by
  unfold wake; split <;> rfl
@[simp] theorem hostWake_rings (m : Nat) : (hostWake m s).rings = s.rings := by
  unfold hostWake; split <;> [exact wake_rings s _; rfl]
@[simp] theorem wake_outs (c : Nat) : (wake c s).outs = s.outs := by
  unfold wake; split <;> rfl
@[simp] theorem hostWake_outs (m : Nat) : (hostWake m s).outs = s.outs := by
  unfold hostWake; split <;> [exact wake_outs s _; rfl]
@[simp] theorem wake_lines (c : Nat) : (wake c s).lines = s.lines := by
  unfold wake; split <;> rfl
@[simp] theorem hostWake_lines (m : Nat) : (hostWake m s).lines = s.lines := by
  unfold hostWake; split <;> [exact wake_lines s _; rfl]
@[simp] theorem wake_pins (c : Nat) : (wake c s).pins = s.pins := by
  unfold wake; split <;> rfl
@[simp] theorem hostWake_pins (m : Nat) : (hostWake m s).pins = s.pins := by
  unfold hostWake; split <;> [exact wake_pins s _; rfl]
@[simp] theorem wake_capus (c : Nat) : (wake c s).capus = s.capus := by
  unfold wake; split <;> rfl
@[simp] theorem hostWake_capus (m : Nat) : (hostWake m s).capus = s.capus := by
  unfold hostWake; split <;> [exact wake_capus s _; rfl]
@[simp] theorem wake_evin (c : Nat) : (wake c s).evin = s.evin := by
  unfold wake; split <;> rfl
@[simp] theorem hostWake_evin (m : Nat) : (hostWake m s).evin = s.evin := by
  unfold hostWake; split <;> [exact wake_evin s _; rfl]
@[simp] theorem wake_nvmQueue (c : Nat) : (wake c s).nvmQueue = s.nvmQueue := by
  unfold wake; split <;> rfl
@[simp] theorem hostWake_nvmQueue (m : Nat) : (hostWake m s).nvmQueue = s.nvmQueue := by
  unfold hostWake; split <;> [exact wake_nvmQueue s _; rfl]
@[simp] theorem wake_ports (c : Nat) : (wake c s).ports = s.ports := by
  unfold wake; split <;> rfl
@[simp] theorem hostWake_ports (m : Nat) : (hostWake m s).ports = s.ports := by
  unfold hostWake; split <;> [exact wake_ports s _; rfl]
@[simp] theorem wake_addrPins (c : Nat) : (wake c s).addrPins = s.addrPins := by
  unfold wake; split <;> rfl
@[simp] theorem hostWake_addrPins (m : Nat) : (hostWake m s).addrPins = s.addrPins := by
  unfold hostWake; split <;> [exact wake_addrPins s _; rfl]
@[simp] theorem wake_testEn (c : Nat) : (wake c s).testEn = s.testEn := by
  unfold wake; split <;> rfl
@[simp] theorem hostWake_testEn (m : Nat) : (hostWake m s).testEn = s.testEn := by
  unfold hostWake; split <;> [exact wake_testEn s _; rfl]
@[simp] theorem wake_ldr (c : Nat) : (wake c s).ldr = s.ldr := by
  unfold wake; split <;> rfl
@[simp] theorem hostWake_ldr (m : Nat) : (hostWake m s).ldr = s.ldr := by
  unfold hostWake; split <;> [exact wake_ldr s _; rfl]
@[simp] theorem wake_sec (c : Nat) : (wake c s).sec = s.sec := by
  unfold wake; split <;> rfl
@[simp] theorem hostWake_sec (m : Nat) : (hostWake m s).sec = s.sec := by
  unfold hostWake; split <;> [exact wake_sec s _; rfl]
@[simp] theorem wake_qry (c : Nat) : (wake c s).qry = s.qry := by
  unfold wake; split <;> rfl
@[simp] theorem hostWake_qry (m : Nat) : (hostWake m s).qry = s.qry := by
  unfold hostWake; split <;> [exact wake_qry s _; rfl]
@[simp] theorem wake_ben (c : Nat) : (wake c s).ben = s.ben := by
  unfold wake; split <;> rfl
@[simp] theorem hostWake_ben (m : Nat) : (hostWake m s).ben = s.ben := by
  unfold hostWake; split <;> [exact wake_ben s _; rfl]
@[simp] theorem wake_missed (c : Nat) : (wake c s).missed = s.missed := by
  unfold wake; split <;> rfl
@[simp] theorem hostWake_missed (m : Nat) : (hostWake m s).missed = s.missed := by
  unfold hostWake; split <;> [exact wake_missed s _; rfl]
@[simp] theorem wake_tiers (c : Nat) : (wake c s).tiers = s.tiers := by
  unfold wake; split <;> rfl
@[simp] theorem hostWake_tiers (m : Nat) : (hostWake m s).tiers = s.tiers := by
  unfold hostWake; split <;> [exact wake_tiers s _; rfl]
@[simp] theorem wake_vref (c : Nat) : (wake c s).vref = s.vref := by
  unfold wake; split <;> rfl
@[simp] theorem hostWake_vref (m : Nat) : (hostWake m s).vref = s.vref := by
  unfold hostWake; split <;> [exact wake_vref s _; rfl]
@[simp] theorem wake_trimSaved (c : Nat) : (wake c s).trimSaved = s.trimSaved := by
  unfold wake; split <;> rfl
@[simp] theorem hostWake_trimSaved (m : Nat) : (hostWake m s).trimSaved = s.trimSaved := by
  unfold hostWake; split <;> [exact wake_trimSaved s _; rfl]
@[simp] theorem wake_trimDue (c : Nat) : (wake c s).trimDue = s.trimDue := by
  unfold wake; split <;> rfl
@[simp] theorem hostWake_trimDue (m : Nat) : (hostWake m s).trimDue = s.trimDue := by
  unfold hostWake; split <;> [exact wake_trimDue s _; rfl]
@[simp] theorem wake_fwUp (c : Nat) : (wake c s).fwUp = s.fwUp := by
  unfold wake; split <;> rfl
@[simp] theorem hostWake_fwUp (m : Nat) : (hostWake m s).fwUp = s.fwUp := by
  unfold hostWake; split <;> [exact wake_fwUp s _; rfl]
@[simp] theorem wake_free (c : Nat) : (wake c s).free = s.free := by
  unfold wake; split <;> rfl
@[simp] theorem hostWake_free (m : Nat) : (hostWake m s).free = s.free := by
  unfold hostWake; split <;> [exact wake_free s _; rfl]

/-! ### Checked writes -/

/-- A register write that R23 lets through. -/
theorem gate_ok {s : State} {p : Page} {n m : Nat} {w : Bool} (h : accessOk s p n m w = true) (o : Nat) (f : State → State) :
    gate p n o m w f s = f (hostWake m s) := by simp [gate, h]

/-- One that it does not is recorded, and does nothing but wake (R24). -/
theorem gate_denied {s : State} {p : Page} {n m : Nat} {w : Bool} (h : accessOk s p n m w = false) (o : Nat) (f : State → State) :
    gate p n o m w f s = recordErr p n errOwnerDenied m w (o / 4) (hostWake m s) := by simp [gate, h]

end Sys2Proof.Machine
end

