-- ==== Sys2Proof/Laws/Memory.lean ====
section
/-! SUPPORT. Laws of memory: when an access is allowed, what it finds, and that a write leaves every byte outside it alone. -/

namespace Sys2Proof.Machine

variable {s : State}

theorem mem_rangeFrom {a n b : Nat} : b ∈ rangeFrom a n ↔ a ≤ b ∧ b < a + n := by
  induction n generalizing a with
  | zero => simp only [rangeFrom, List.not_mem_nil, false_iff]; omega
  | succ n ih => simp only [rangeFrom, List.mem_cons, ih]; omega

/-- An enabled region that holds the whole range grants it, in benches 2 to 15 with none of them OFF (R312, R313, R318). -/
theorem memAllowed_of_region {m a n i : Nat} {k : Kind} (hm : m ≠ 2 ∧ m ≠ 4 ∧ m ≠ 6 ∧ m ≠ 7) (hi : 8 * m ≤ i ∧ i < 8 * m + 8)
    (hlo : benchBase + 0x80000 ≤ a) (hhi : a + n ≤ benchBase + benchSize) (he : s.rd .BENCH_RGN_BASE_EN 0 i = 1)
    (hb : s.rd .BENCH_RGN_BASE_BASE 0 i * 4096 ≤ a) (hl : a + n ≤ s.rd .BENCH_RGN_LIMIT_LIMIT 0 i * 4096 + 4096)
    (hr : s.rd .BENCH_RGN_BASE_RD 0 i = 1) (hw : s.rd .BENCH_RGN_BASE_WR 0 i = 1) (hk : k ≠ .alias_)
    (ho : ∀ b, s.rd .BENCH_BPWR_STAT_STATE 0 0 b ≠ 3) : memAllowed s m k a n = true := by
  refine List.all_eq_true.mpr fun b hx => ?_
  obtain ⟨h1, h2⟩ := mem_rangeFrom.mp hx
  have hin : inBench b 1 = true := by
    simp only [inBench, Bool.and_eq_true, decide_eq_true_eq]; omega
  have hrange : benchBase + 0x80000 ≤ b := by omega
  have hfw : inFirmware b 1 = false := by
    simp only [inFirmware, Bool.and_eq_false_iff, decide_eq_false_iff_not]
    unfold benchBase benchSize quarryEnd at *; omega
  have hg : regionGrants s m k b = true := by
    refine List.any_eq_true.mpr ⟨i, mem_rangeFrom.mpr hi, ?_⟩
    cases k <;> simp_all <;> omega
  have hoff : s.benchOff b = false := by simp [State.benchOff, ho]
  simp only [byteAllowed, hin, hfw, hg, hoff]
  simp [hm, show ¬ (b < benchBase + 0x80000 ∧ benchBase ≤ b) by omega]

/-- With no poison anywhere and no bench offline a bench range is clean (R307, R325). -/
theorem anyPoison_clean {a n : Nat} (hin : benchBase ≤ a ∧ a + n ≤ benchBase + benchSize) (hp : s.poison = [])
    (hh : ∀ b, s.rd .BENCH_BENCH_HEALTH_HEALTH 0 0 b ≠ 3) : s.anyPoison a n = false := by
  refine List.any_eq_false.mpr fun b hx => ?_
  obtain ⟨h1, h2⟩ := mem_rangeFrom.mp hx
  have hb : inBench b 1 = true := by
    simp only [inBench, Bool.and_eq_true, decide_eq_true_eq]; omega
  simp [State.poisoned, State.offline, hb, hh, hp, Store.get]

/-- A write of bytes changes what memory holds at their addresses alone. -/
theorem setBytes_outside (bs : List Byte) {s : State} {a b : Nat} (h : b < a ∨ a + bs.length ≤ b) :
    Store.get 0 (s.setBytes a bs).mem b = Store.get 0 s.mem b := by
  induction bs generalizing s a with
  | nil => rfl
  | cons x xs ih =>
    simp only [List.length_cons] at h
    show Store.get 0 ((s.setByte a x).setBytes (a + 1) xs).mem b = _
    rw [ih (by omega)]
    exact Store.get_set_ne' _ _ _ _ (by omega)

theorem Within.self (l : List Part) : Within l (mask l) := Nat.and_self _

@[simp] theorem eccRead_mem (a n : Nat) (s : State) : (eccRead a n s).mem = s.mem :=
  (eccRead_keeps (Keeps.refl _ s) (Within.self _) a n).same .mem (Eq.refl _)

@[simp] theorem storeEcc_mem (a : Nat) (s : State) : (storeEcc a s).mem = s.mem :=
  (storeEcc_keeps (Keeps.refl _ s) (Within.self _) a).same .mem (Eq.refl _)

@[simp] theorem touchBench_mem (a n : Nat) (s : State) : (touchBench a n s).mem = s.mem :=
  (touchBench_keeps (Keeps.refl _ s) (Within.self _) a n).same .mem (Eq.refl _)

@[simp] theorem denyMem_mem (m a n : Nat) (w : Bool) (s : State) : (denyMem m a n w s).mem = s.mem :=
  (denyMem_keeps (Keeps.refl _ s) (Within.self _) m a n w).same .mem (Eq.refl _)

@[simp] theorem storeBench_mem (a : Nat) (s : State) : (storeBench a s).mem = s.mem := rfl

@[simp] theorem setPoison_mem (a : Nat) (b : Bool) (s : State) : (s.setPoison a b).mem = s.mem := rfl

/-- A write to one word stores within its bytes. -/
theorem writeWord_outside {m a b : Nat} {bs : List Byte} {s : State} (h : b < a ∨ a + bs.length ≤ b) :
    Store.get 0 (writeWord m a bs s).mem b = Store.get 0 s.mem b := by
  unfold writeWord
  extract_lets part s'
  have he : s'.mem = s.mem := by
    show (if part then _ else _ : State).mem = _
    split <;> simp
  split
  · rw [recordErr_mem, he]
  · split
    · rw [storeBench_mem, setPoison_mem, setBytes_outside bs h, he]
    · rw [setBytes_outside bs h, storeEcc_mem, he]

/-- A write word by word stores within its bytes. -/
theorem writeWords_outside {m b : Nat} (fuel : Nat) {a : Nat} {bs : List Byte} {s : State} (h : b < a ∨ a + bs.length ≤ b) :
    Store.get 0 (writeWords m fuel a bs s).mem b = Store.get 0 s.mem b := by
  induction fuel generalizing a bs s with
  | zero => rfl
  | succ k ih =>
    unfold writeWords
    split
    · rfl
    · dsimp only
      rw [ih (by rw [List.length_drop]; omega), writeWord_outside (by rw [List.length_take]; omega)]

/-- A write that the checks admit stores within its bytes. -/
theorem storeMem_outside {m a b : Nat} {bs : List Byte} (h : b < a ∨ a + bs.length ≤ b) :
    Store.get 0 (storeMem m a bs s).mem b = Store.get 0 s.mem b := by
  unfold storeMem
  split
  · rw [recordErr_mem]
  · rw [writeWords_outside _ h, touchBench_mem]

/-- A checked write of a master stores within its bytes. -/
theorem memWrite_outside {m a b : Nat} {bs : List Byte} (h : b < a ∨ a + bs.length ≤ b) :
    Store.get 0 (memWrite m a bs s).mem b = Store.get 0 s.mem b := by
  unfold memWrite
  split
  · exact storeMem_outside h
  · rw [denyMem_mem]

end Sys2Proof.Machine
end

