-- ==== Sys2Proof/Laws/SegmentsKeeps.lean ====
section
/-! SUPPORT. What the operations of Machine/Segments.lean keep: the queue, the invariant, and every part outside their footprint. -/

set_option maxRecDepth 4000
set_option linter.unusedTactic false
set_option linter.unreachableTactic false

namespace Sys2Proof.Machine

variable {m : Nat} {s0 s : State}


end Sys2Proof.Machine
end

