-- ==== Sys2Proof/Machine/Pins.lean ====
section
/-! DEFINITION. What the device drives at its pins (R397): an observation of State that no command changes by itself. JTAG pins are outside
the model (R371), and an unpowered pin is one of a device without PWRGD. -/

namespace Sys2Proof.Machine

/-- The pins of R397 whose state the device decides. -/
inductive PinGroup where
  | out (c : Chan)
  | pat (i : Fin 32)
  | bus (j : Fin 2)
  | alert
  | xspiData
  | xspiSelect
  | xspiReset
deriving DecidableEq, Repr

/-- What a pin does. -/
inductive PinDrive where
  | highZ
  | driven
  | released
  | pulledHigh
  | low
  | high
deriving DecidableEq, Repr

/-- The table of R397, with R215, R217 and R218 for the outputs, R263 for PAT, R347 for ALERT_N and R431 for XSPI_RST_N. -/
def pinDrive (s : State) : PinGroup → PinDrive
  | .out c => if s.dev = .off ∨ s.rd .OUT_STATUS_HIGHZ c.val = 1 then .highZ else .driven
  | .pat i => if s.dev = .up ∧ pinDriven s i.val then .driven else .highZ
  | .bus j => if s.dev = .up ∧ portOn s j.val then .driven else .released
  | .alert => if s.dev = .up ∧ alertLow s then .low else .released
  | .xspiData => if s.dev ≠ .up ∨ dstate s = 4 then .highZ else .driven
  | .xspiSelect => if s.dev = .up then .high else .pulledHigh
  | .xspiReset => if s.dev = .up then .high else .low

end Sys2Proof.Machine
end

