-- ==== Sys2Proof/Machine/Responses.lean ====
section
/-! DEFINITION. The frequency responses that R98 and R109 bind the filter coefficients to. The coefficient values are not in the manual:
they are free constants of Sys2Proof/Config.lean, and these are the properties that every part's values have. No meaning rests on them. -/

namespace Sys2Proof.Machine

/-- A gain within so many decibels of 1. -/
def FlatWithin (db gain : ℝ) : Prop := (10 : ℝ) ^ (-db / 20) ≤ gain ∧ gain ≤ (10 : ℝ) ^ (db / 20)

/-- A gain at least so many decibels below 1. -/
def AttenuatedBy (db gain : ℝ) : Prop := gain ≤ (10 : ℝ) ^ (-db / 20)

/-- Gain of a bank's 256-phase prototype at a frequency, as a fraction of the segment's sample rate (R98): the coefficient of phase φ and
tap t stands at time φ / 256 − t. -/
def PrototypeGain (bank : Nat) (f gain : ℝ) : Prop :=
  gain = ‖∑ φ ∈ Finset.range 256, ∑ i ∈ Finset.range 64,
    ((coeffSet bank φ ((i : Int) - 31) : ℝ) / (2 ^ 23 * 256) : ℂ) *
      Complex.exp (-2 * Real.pi * Complex.I * f * ((φ : ℝ) / 256 - ((i : ℝ) - 31)))‖

/-- R98 with the table of R99: every bank passes 0 to its cutoff within 0.001 dB, and attenuates by 100 dB from its stopband edge up to
128 times the segment's sample rate. -/
def InterpolatorResponse : Prop :=
  ∀ bank : Nat, bank < 3 → ∀ f gain : ℝ, PrototypeGain bank f gain →
    (0 ≤ f → f ≤ 0.45 / 2 ^ bank → FlatWithin 0.001 gain) ∧
    (0.55 / 2 ^ bank ≤ f → f ≤ 128 → AttenuatedBy 100 gain)

/-- Gain of the half-band chain of IF = 2^n at a frequency, as a fraction of FS (R109): the product of its stages' responses, each of
which is real because its filter is symmetric about its centre. -/
def ChainGain (n : Nat) (f gain : ℝ) : Prop :=
  gain = |∏ m ∈ Finset.range n, (1 + 2 * ∑ j ∈ Finset.range 12,
    ((Config.halfBandTap m j : ℚ) : ℝ) * Real.cos (Real.pi * f * (2 * j + 1) / 2 ^ m)) / 2|

/-- R109: over the chain the band from 0 to 0.4 FS is flat within 0.0005 dB, and what lies from 0.6 FS up to FU − 0.6 FS is attenuated by
110 dB. -/
def ChainResponse : Prop :=
  ∀ n : Nat, 1 ≤ n → n ≤ 4 → ∀ f gain : ℝ, ChainGain n f gain →
    (0 ≤ f → f ≤ 0.4 → FlatWithin 0.0005 gain) ∧
    (0.6 ≤ f → f ≤ 2 ^ n - 0.6 → AttenuatedBy 110 gain)

end Sys2Proof.Machine
end

