-- ==== Sys2Proof/WellFormed.lean ====
section
/-! DEFINITION. Which commands the outside world can make. The types of the operands hold most of it; what is left are word addresses
of register accesses (R4), the shape of a memory access (R26, R305), pages that do not exist (R28, R414) and lists that name things once. -/

namespace Sys2Proof

/-- A register address is a multiple of 4 (R4). -/
def wordAligned (a : BitVec 24) : Bool := a.toNat % 4 == 0

/-- An access moves at least one byte and ends inside the 40-bit address space (R4, R26); a write moves as many bytes as it brings. -/
def dataFits (a : Nat) (data : Option (List Byte)) (n : Nat) : Bool :=
  decide (0 < n) && decide (a + n ≤ 2 ^ 40) && (match data with | none => true | some bs => bs.length == n)

/-- An access lies in bench space (R305). -/
def benchFits (off n : Nat) : Bool := decide (0 < n) && decide (off + n ≤ 0x400000)

/-- So does the port A write of the same cycle, where there is one (R311). -/
def otherFits (o : Option (Master × Fin 4 × BitVec 22 × List Byte)) : Bool :=
  match o with
  | none => true
  | some (_, _, off, data) => benchFits off.toNat data.length

/-- Nothing is named twice. -/
def noRepeats {α : Type} [DecidableEq α] (l : List α) : Bool := decide l.Nodup

/-- The page has this instance (R28, R414). -/
def pageHas (p : Machine.Page) (inst : Nat) : Bool := decide (inst < p.count)

/-- The page has a SHADOW_CTRL register (R420). -/
def hasShadow (p : Machine.Page) : Bool := p == .tbase || p == .qclk || p == .cse || p == .out

/-- A command that the outside world can make. -/
def Instr.wellFormed (i : Instr) : Bool :=
  match i with
  | .registerWrite _ a _ => wordAligned a
  | .readClear _ a => wordAligned a
  | .read64Low _ a => wordAligned a
  | .read64High _ a => wordAligned a
  | .masterAccess _ a data n => dataFits a.toNat data n.toNat
  | .quadSampleEdge .. | .sqUnderrunFault .. | .paceWindowEnd .. | .refModeWrite .. | .holdResyncClear ..
  | .tallyEnWrite .. | .refLost .. | .refReturn .. | .pllRelocked .. | .slewDone .. | .pllUnlock .. | .epochArm ..
  | .epochCancel .. | .epochLoad .. | .lcClaim .. | .lcRelease .. | .lcArm .. | .lcDisarm .. | .lcFire ..
  | .qclkStart .. | .qclkStop .. | .qclkLocked .. | .qclkResume .. | .qclkSettleDone .. | .lockLost ..
  | .spareCoverAssign .. | .spareSynthReady .. | .useSpareSet .. | .rehomed .. | .useSpareClear .. | .rehomeBack ..
  | .gstbModeWrite .. | .gstbStrobe .. | .tallySyncAcquire .. | .tallyLos .. | .tallyEpochFrame ..
  | .tallyLaunchFrame .. | .tallySpeedFrame .. | .tallySpeedDeferred .. | .synthesisSample .. | .rampDone ..
  | .slotDisable .. | .patternEntryAdvance .. | .markerPulseEnd .. | .playerFinish .. | .channelIdleEnter ..
  | .playTime .. | .playAngle .. | .partials .. | .noise .. | .level .. | .descRamp .. | .pattern .. | .descSpeed ..
  | .descMark .. | .idle .. | .fence .. | .allocWrite .. | .cseEnableWrite .. | .cseSoftReset .. => true
  | .pwrReqWrite _ stitch c _ => !stitch || decide (c.val < 12)
  | .stitchEnable .. | .stitchDisable .. | .stitchSoftReset .. | .instructionFetch .. | .nop .. | .halt .. | .play ..
  | .playa .. | .hold .. | .mark .. | .speed .. | .ramp .. | .creditWaitEnd .. | .loop .. | .endl .. | .call ..
  | .ret .. | .jev .. | .waitt .. | .waittResume .. | .waite .. | .waiteTimeout .. | .arm .. | .disarm .. | .emit ..
  | .gangReady .. | .gangCommit .. | .gangCommitPoint .. | .gangPrepareTimeout .. | .gangAbort .. | .gangWaitc ..
  | .stitcherEventInput .. | .armedSwitch .. | .lcGrantWrite .. | .evinLatchClear .. | .mcSwitchReq .. | .mcSwitch ..
  | .pushWinWord .. | .pushAbort .. | .qcfgWrite .. | .headSlotFetch .. | .linkSweepDone .. | .queueDrop ..
  | .queueFlush .. | .packetTorn .. | .tackSoftReset .. | .ringEnable .. | .ringDisable .. | .ringRefill ..
  | .outEnableWrite .. | .outSoftReset .. | .stageTrackingFault .. | .stageBiasFault .. | .stageSwitchReq ..
  | .stageSwitchover .. | .senseFault .. | .currentLimitEnter .. | .foldback .. | .scClr .. | .foldbackRetry ..
  | .foldbackEnd .. | .overtemp .. | .overtempClear .. | .nvmProgram .. | .nvmReload .. | .nvmDone ..
  | .nvValueWrite .. | .faultForceWrite .. | .faultClear .. | .faultEnter .. | .faultExit .. | .spanSlewEnd ..
  | .spanHoldEnd .. | .spanSwitchDone .. | .spanSettleEnd .. | .spanRelease .. | .powerGoodRise .. => true
  | .powerupNvmLoaded badOut badCal => noRepeats badOut && noRepeats badCal
  | .powerupRefSettled .. | .powerupStageBiased .. | .powerupSwitchClose .. | .powerupWakeReached ..
  | .powerGoodFall .. => true
  | .rotationStart _ mon => mon.length == 12
  | .visitReq .. | .shadowStart .. | .matchStart .. | .matchDecision .. | .handover .. | .calMeasureDone ..
  | .calSolveDone .. | .calVerifyDone .. => true
  | .referenceFrame f => f.ref.length == 16 && f.agnd.length == 16
  | .coreHealthFault .. | .failoverReq .. | .failoverSwitch .. | .calibrationAbandon .. | .captureStart ..
  | .captureAbort .. | .captureSample .. | .capEnd .. | .burnishSaveNow .. | .coreMapWrite .. | .trimSaveTimer ..
  | .lineFire .. | .lineRearm .. | .stormWindowStart .. | .stormClear .. | .rememberedDeliver .. | .lineClaim ..
  | .lineRelease .. | .lineCfgWrite .. | .lineSrcWrite .. | .loopRecompute .. | .hostTrig .. | .svcModeWrite ..
  | .patInputEdge .. | .pinClaim .. | .pinRelease .. | .pinModeWrite .. | .patPulseEnd .. | .capuClaim ..
  | .capuInfoRead .. => true
  | .quarryRequestAccept _ write addr len data => dataFits addr.toNat (if write then some data else none) len.toNat
  | .quarryCommandSlot .. | .quarryRequestComplete .. | .urgencyRise .. | .rowIdleClose .. | .refresh ..
  | .refreshEnd .. | .rdNeighborRefresh .. | .rdWindowReset .. | .quarryScrub .. | .initPass .. | .initDone ..
  | .migrationStart .. | .migrationUnitCopy .. | .migrationSwitchover .. | .reshape .. | .reshapeDone ..
  | .opChangeRequest .. | .opCommit .. | .opEntryRestart .. | .opDone .. | .trainingRun .. | .trainingRunDone ..
  | .driftUpdate .. => true
  | .benchAccess _ write off len data _ other _ _ => benchFits off.toNat (if write then data.length else len.val) && otherFits other
  | .benchAliasWrite _ _ off data => benchFits off.toNat data.length
  | .benchScrub .. | .benchPortTimeout .. | .benchAutoRetention .. | .benchWake .. | .benchModeWrite ..
  | .bistStart .. | .bistCopyDone .. | .bistTestDone .. | .bistRestoreDone .. | .bistAbort .. | .benchReplace ..
  | .benchReplaceDone .. | .enec .. | .disec .. | .entas .. | .rstdaa .. | .entdaa .. | .setmwl .. | .setmrl ..
  | .enthdr0 .. | .setaasa .. | .setdasa .. | .setnewda .. | .rstactPort .. | .rstactDevice .. | .rstactQuery ..
  | .getmwl .. | .getmrl .. | .getpid .. | .getbcr .. | .getdcr .. | .getstatus .. | .getmxds .. | .getcaps ..
  | .regWrite .. | .memWrite .. | .memFetch .. | .tunnelDone .. | .privateRead .. | .tunnelRead .. | .ibiRequest ..
  | .portHealthLost .. | .adopt .. | .adopted .. | .rawCommand .. | .rawDone .. | .loaderGo .. | .loaderResume ..
  | .loaderAbort .. | .nandStatusPoll .. | .loaderEntryDone .. | .flashTimeout .. | .loaderDone .. | .bootStart ..
  | .bootDone .. | .slotCheck .. | .wdtKick .. | .wdtExpired .. | .firmwareRestart .. | .getInfo .. | .getCert ..
  | .quote .. | .mrExtend .. | .sessionOpen .. | .sessionAuth .. | .sessionClose .. | .sessionTimeout ..
  | .fwStage .. | .fwInstall .. | .fwActivate .. | .handoffPoint .. | .aliveMark .. | .handoffRevert ..
  | .svnCommit .. | .slotSelect .. | .policySet .. | .libkeySet .. | .ownerKeySet .. | .policyLock ..
  | .recoveryBoot .. | .mbDone .. | .railMonitorSample .. | .resetPin .. | .sysSoftReset .. | .warmResetEnd .. => true
  | .ready failed => noRepeats failed
  | .powerStateEntry .. | .dEnter .. | .wake .. | .powerTimeWake .. | .dExit .. | .thermalSample ..
  | .lifeCountSave .. => true
  | .shadowGo _ p inst _ _ => pageHas p inst.val && hasShadow p
  | .shadowCancel _ p inst => pageHas p inst.val && hasShadow p
  | .shadowCapture p inst => pageHas p inst.val && hasShadow p
  | .shadowCommitApply p inst => pageHas p inst.val && hasShadow p
  | .evtEnWrite _ p inst _ => pageHas p inst.val
  | .evtClear _ p inst _ _ => pageHas p inst.val
  | .ownerWrite _ p inst _ _ => pageHas p inst.val
  | .currentLimitExit .. | .portHealthReturn .. | .hdrExit .. | .targetResetPattern .. | .tackReady .. => true

end Sys2Proof
end

