-- ==== Sys2Proof/Tests/Slice0.lean ====
section
/-! SUPPORT. Small tests: ill-formed commands, one step of one command at a time, and, for every statement with hypotheses, states and
operands that meet them, clause by clause. -/

namespace Sys2Proof.Tests

set_option maxRecDepth 20000
set_option Elab.async false
set_option synthInstance.maxSize 4000
set_option synthInstance.maxHeartbeats 400000

open Sys2Proof Sys2Proof.Machine

/-! ### States -/

/-- A running device, everything else as after reset. -/
def up : State := { State.reset with dev := .up }

/-- A device in TALLY sync. -/
def tallyUp : State := up.wr .TBASE_TB_STATUS_TALLY_SYNC 1

/-- An EPOCH frame with two wrong CRC bytes, without its first byte. -/
def badFrame : List Byte := List.replicate 12 0

/-- A frame with the CRC of its bytes. -/
def withCrc (fr : List Byte) : List Byte := fr ++ leBytes 2 (crc16 fr)

/-- Comparator 3, owned by master m and armed for count c. -/
def armedLc (m c : Nat) : State :=
  (((up.wr .TBASE_LC_CTRL_CLAIMED 1 0 3).wr .TBASE_LC_CTRL_OWNER m 0 3).wr .TBASE_LC_CTRL_ARM 1 0 3).setLc 3 { c := c }

/-- The header cell of a packet of priority 2, and its further cells. -/
def descrAt (kind more flags segaddr : Nat) (cells : List Nat) : Packet :=
  { cells := (kind + 2 * 16 + more * 2 ^ 6 + (if segaddr = 0 then 0x10080000 else segaddr) * 2 ^ 64 + flags * 2 ^ 104) :: cells
    stitch := true, hold := .immediate 0 }

/-- A valid segment of each kind, with its padding: one item, all zeros. -/
def segBytes (kind : Nat) : List Byte :=
  let count := if kind = 2 then 64 else if kind = 4 ∨ kind = 5 then 0 else 1
  let a := if kind = 1 then 1000 else if kind = 2 then 64 else 0
  let blen := if kind = 2 then 4 else if 4 ≤ kind ∧ kind ≤ 6 then 0 else 1
  let h := leBytes 1 kind ++ leBytes 1 (if kind = 7 then 1 else 0) ++ leBytes 1 1 ++ leBytes 1 0 ++ leBytes 4 blen ++ leBytes 4 count ++
    leBytes 4 a ++ leBytes 12 0
  h ++ leBytes 4 (crc32c h)

/-- The header of that segment. -/
def segHeader (kind : Nat) : SegHeader := parseHeader (segBytes kind)

/-- Every byte of the benches may be read and written by master m. -/
def region (m : Nat) (s : State) : State :=
  ((((s.wr .BENCH_RGN_BASE_EN 1 0 (8 * m)).wr .BENCH_RGN_BASE_RD 1 0 (8 * m)).wr .BENCH_RGN_BASE_WR 1 0 (8 * m)).wr
    .BENCH_RGN_BASE_BASE 0x10000 0 (8 * m)).wr .BENCH_RGN_LIMIT_LIMIT 0x103FF 0 (8 * m)

/-- Channel 5, enabled, with a descriptor at priority 2 and the segment it may name. -/
def descrUp (kind more flags segaddr : Nat) (cells : List Nat) (_ : Nat) : State :=
  ((region 21 (up.wr .CTRL_ENABLE 1 5 (Page.code .cse))).setBytes 0x10080000 (segBytes kind)).setQueue 22
    { head := some (descrAt kind more flags segaddr cells) }

/-- Stitcher 3 running a program of 16 words, between two instructions, with word w at its PC; it may read every bench. -/
def stitchUp (w : Nat) : State :=
  ((region 11 ((up.wr .STITCH_STATUS_RUNNING 1 3).wr .STITCH_PROG_LEN_LEN 16 3)).wr .STITCH_PROG_BASE_BASE 0x80000 3).setBytes
    0x10080000 (leBytes 8 w)

/-- Stitcher 3 with the fetched word w. -/
def stitchAt (w : Nat) : State := (stitchUp w).setStitcher 3 { ir := some w }

/-- Stitcher 3 in a loop with n passes left and its body at 4. -/
def loopAt (n : Nat) : State := (stitchUp 0).setStitcher 3 { ir := some 0x2100000000000000, loops := [(n, 4)] }

/-- Stitcher 3 with the push instruction w, a template of this kind at index 0, and credit on its queues. -/
def pushUp (kind w : Nat) : State :=
  ((((stitchAt w).wr .STITCH_TPL_BASE_BASE 0x90000 3).setBytes 0x10090000
    (leBytes 16 (kind + 64 + 5 * 2 ^ 32) ++ leBytes 16 9)).wr .TACK_QCFG_CRED_STITCH 10 0 48).wr .TACK_QCFG_CRED_STITCH 10 0 52

/-- Master 0 with a packet of one cell open for queue 9 and n words still to come. -/
def pushing (n : Nat) : State :=
  ((up.wr .TACK_PUSH_STAT_OPEN 1 0 0).wr .TACK_PUSH_STAT_WORDS_LEFT n 0 0).setStage 0 { words := [9], cells := 1, queue := 9 }

/-- A pool whose cells are all allocated but to queue 9. -/
def fullPool : State := each (upTo 8) (fun i s => s.wr .TACK_QCFG_CRED_STITCH 4095 0 i) up

/-- Channel 5 with an enabled ring of 4 KiB at bench offset 0x80000 and a circular body that is not resident. -/
def ringUp : State :=
  ((((region 21 up).wr .TACK_RING_BASE_BASE 0x80000 0 5).wr .TACK_RING_CFG_EN 1 0 5).wr .TACK_RING_CFG_SIZE_LOG 0 0 5).setRing 5
    { cur0 := { body := 0x1000000020, len := 100000, circular := true } }

/-- Burnish acts; the clocks of the quads of tier 1 run and their outputs are not in high impedance. -/
def tierUp : State :=
  let s := (up.wr .SYS_STATUS_READY 1).wr .BURNISH_BCFG_AUTO 1
  let s := ((s.wr .CTRL_ENABLE 1 0 (Page.code .burnish)).wr .BURNISH_BCFG_TIER_EN 1 0 0 1).wr .BURNISH_INTERVAL_MS 0
  let s := each (rangeFrom 12 12) (fun c s => s.wr .OUT_STATUS_HIGHZ 0 c) s
  ((s.setClock 3 { running := true, next := 5 }).setClock 4 { running := true, next := 5 }).setClock 5 { running := true, next := 5 }

/-- Tier 1 visits position 2, in a phase. -/
def visitUp (ph : Nat) : State :=
  ((tierUp.wr .SPARE_STATUS_VISIT_POS 2 1).wr .SPARE_STATUS_PHASE ph 1)

/-- Tier 1 calibrates the core of position 2. -/
def calUp (ph : Nat) : State :=
  ((visitUp ph).wr .SPARE_STATUS_CAL_CORE 2 1).wr .SPARE_CORE_STATE_ROLE 2 1 0 2

/-- The same, the window over and the factory reference at 5 V. -/
def overUp (ph : Nat) : State := { visitUp ph with osc := 2 ^ 50, vref := 5 }

/-- Tier 1 at the end of a window of the core in CAL. -/
def overCal (ph : Nat) : State := { calUp ph with osc := 2 ^ 50, vref := 5 }

/-- A result of the sense ADC on code 0. -/
def sense (raw : BitVec 18) : SenseSample := ⟨raw, 0, 0, 0, 0⟩

/-- Tier 1 solves a window whose samples all show an offset of 1000 LSB, which no trim reaches. -/
def offUp : State :=
  ((calUp 5).wr .BURNISH_STATUS_REF_OK 1).setTier 1 { window := [⟨0, 0, 1000⟩, ⟨1, 0, 1000⟩, ⟨1, 1, 1000⟩, ⟨2, 0, 1000⟩] }

/-- Line 3 of master 0, enabled, with host trigger 0 in slot 0 presenting and this consumer. -/
def lineUp (dst : Nat) : State :=
  { (((up.wr .HARNESS_LINE_CFG_EN 1 0 3).wr .HARNESS_LINE_CFG_DST dst 0 3).wr .HARNESS_LINE_CFG_CLAIMED 1 0 3).wr
      .HARNESS_LINE_SRC_SLOT 0x180 0 3 0 with presented := [0x180] }

/-- Four records of a capture unit. -/
def fourRecords : List CapRecord := List.replicate 4 ⟨1, 0, 1, false⟩

/-- Pin 9, of master 5, a line output in the middle of a pulse. -/
def pinUp : State :=
  (((up.wr .PAT_PIN_CFG_CLAIMED 1 0 9).wr .PAT_PIN_CFG_OWNER 5 0 9).wr .PAT_PIN_CFG_FUNC 1 0 9).setPin 9 { level := true, pulsing := true }

/-- The spare bench is free and a test range is set. -/
def spareUp : State := (up.wr .BENCH_STATUS_SPARE_FREE 1).wr .BENCH_BIST_RANGE_LAST 3

/-- A test or replacement of bench 5 in a phase. -/
def bistUp (ph : Nat) : State := { up.wr .BENCH_BIST_STAT_PHASE ph with ben := { bist := 5, first := 0, stop := 3 } }

/-- Port 1 with a dynamic address, in I3C, and its hold-off over. -/
def addrUp : State :=
  { ((up.wr .I3C_ADDR_STAT_DA 9 1).wr .I3C_STATUS_DA_VALID 1 1).wr .I3C_STATUS_I2C_MODE 0 1 with osc := 100000 }

/-- Port 1's tunnel busy with an operation on four bytes of the benches, which it may reach. -/
def tunUp (op : TunnelOp) : State :=
  (((region 1 up).wr .BENCH_STATUS_READY 1).wr .I3C_STATUS_TUN_BUSY 1 1).setPort 1
    { tun := op, tunAddr := 0x10080004, tunLen := 4, tunData := [1, 2, 3, 4] }

/-- Quarry is ready. -/
def qryUp : State := up.wr .QUARRY_STATUS_READY 1

/-- One unit access of request 7 at port 5 waits for a row of a bank. -/
def withUnit (rank bank row : Nat) : State := { qryUp with qry := { units := [⟨7, 5, rank, bank, row, 0, quarryBase, 0⟩] } }

/-- The header of an image without entries, unsigned. -/
def imageHead : List Byte :=
  let h := leBytes 4 0x444E4D47 ++ leBytes 2 1 ++ leBytes 2 64 ++ leBytes 4 64 ++ leBytes 4 0 ++ leBytes 4 64 ++ leBytes 4 0 ++
    leBytes 4 64 ++ leBytes 4 0 ++ leBytes 4 0 ++ leBytes 4 0 ++ leBytes 16 0 ++ leBytes 4 (crc32c [])
  h ++ leBytes 4 (crc32c h)

/-- Firmware runs, and port 1 has rung for an operation. -/
def mailUp (op : Nat) : State := { up with fwUp := true, sec := { mail := [⟨1, op, 9⟩] } }

/-- The same with a first argument and a buffer in the benches that port 1 may read. -/
def argUp (op a : Nat) : State := ((region 1 (mailUp op)).wr .SEC_MB_ARG_ARG a 0 1 0).wr .SEC_MB_ARG_ARG 0x10080000 0 1 1

/-- The same with a length. -/
def lenUp (op n : Nat) : State := (argUp op 0).wr .SEC_MB_ARG_ARG n 0 1 3

/-- A firmware image that may take over. -/
def image (v : Nat) : FwImage := ⟨v, 0, 0, 1, 0, 1, true, [BitVec.ofNat 8 v], []⟩

/-- Image 1 runs and image v is staged. -/
def stagedUp (op v : Nat) : State :=
  { mailUp op with sec := { mail := [⟨1, op, 9⟩], staged := some (image v), running := some (image 1) } }

/-! ### Ill-formed commands, one for each check -/

theorem test_unaligned_register : (Instr.registerWrite 0 0x4042 1).wellFormed = false := by decide
theorem test_unaligned_read : (Instr.readClear 0 0x4041).wellFormed = false := by decide
theorem test_unaligned_pair : (Instr.read64Low 0 0x404A).wellFormed = false ∧ (Instr.read64High 0 0x404E).wellFormed = false := by decide
theorem test_access_of_nothing : (Instr.masterAccess 5 0x10080000 none 0).wellFormed = false := by decide
theorem test_access_past_the_end : (Instr.masterAccess 5 0xFFFFFFFFFF none 2).wellFormed = false := by decide
theorem test_access_of_another_length : (Instr.masterAccess 5 0x10080000 (some [1, 2]) 3).wellFormed = false := by decide
theorem test_power_of_a_stitcher_that_is_none : (Instr.pwrReqWrite 0 true 12 true).wellFormed = false := by decide
theorem test_records_named_twice : (Instr.powerupNvmLoaded [3, 3] []).wellFormed = false := by decide
theorem test_ranks_named_twice : (Instr.ready [2, 2]).wellFormed = false := by decide
theorem test_monitors_of_eleven_cores : (Instr.rotationStart 0 (List.replicate 11 [])).wellFormed = false := by decide
theorem test_frame_of_fifteen : (Instr.referenceFrame ⟨0, List.replicate 15 (0, 0), List.replicate 16 (0, 0)⟩).wellFormed = false := by decide
theorem test_port_a_write_past_the_end :
    (Instr.benchAccess 5 false 0x80000 2 [] false (some (2, 1, 0x3FFFFF, [1, 2])) [] []).wellFormed = false := by decide
theorem test_request_of_nothing : (Instr.quarryRequestAccept 5 true 0x1000000000 0 []).wellFormed = false := by decide
theorem test_bench_access_past_the_end : (Instr.benchAccess 5 false 0x3FFFFF 2 [] false none [] []).wellFormed = false := by decide
theorem test_alias_write_of_nothing : (Instr.benchAliasWrite 5 true 0x80000 []).wellFormed = false := by decide
theorem test_page_that_is_none : (Instr.evtEnWrite 0 .stitch 12 0).wellFormed = false := by decide
theorem test_events_of_a_page_that_is_none : (Instr.evtClear 0 .i3c 2 true 0).wellFormed = false := by decide
theorem test_owner_of_a_page_that_is_none : (Instr.ownerWrite 0 .sec 1 true false).wellFormed = false := by decide
theorem test_page_without_shadow_copies : (Instr.shadowGo 0 .sys 0 0 0).wellFormed = false := by decide
theorem test_cancel_without_shadow_copies : (Instr.shadowCancel 0 .tack 0).wellFormed = false := by decide
theorem test_capture_without_shadow_copies : (Instr.shadowCapture .bench 0).wellFormed = false := by decide
theorem test_commit_without_shadow_copies : (Instr.shadowCommitApply .qclk 13).wellFormed = false := by decide

/-! ### Examples of the manual, and published check values -/

/-- The published check value of CRC-16/CCITT with initial value 0xFFFF over the digits 1 to 9 (R64). -/
theorem test_crc16 : crc16 (leBytes 9 0x393837363534333231) = 0x29B1 := by decide +kernel

/-- The published check value of CRC-32C over the same digits (R74, R356). -/
theorem test_crc32c : crc32c (leBytes 9 0x393837363534333231) = 0xE3069283 := by decide +kernel

/-- A wake value of +2.5 V: its code on span 3 and on span 0 (the example after R189). -/
theorem test_volt_codes : voltCode 3 0x20000 = 262144 ∧ voltCode 0 0x20000 = 655360 := by decide +kernel

/-- v × 2^19 = 131 071.75 rounds to 131 072 and gives code 655 360 (bring-up procedure). -/
theorem test_code_rounds : codeOf 2097148 0 = 655360 := by decide +kernel

/-- The speeds of the felt-roll example at 3.125 MS/s and their increments (R89). -/
theorem test_increments :
    (up.wrEff .QCLK_QCLK_N_N 0x2000000 2).dth 2 0x000BEBC200000000 = 4194304 ∧
      (up.wrEff .QCLK_QCLK_N_N 0x2000000 2).dth 2 0x000F7940A4C68000 = 5444304 := by decide +kernel

/-- The wheel of that example at sample 1 000 000, and the player's position there (R90, R101). -/
theorem test_wheel_position :
    1000000 * 2 ^ 22 + 1000000 * 1000001 / 2 = 0x444FA5A2920 ∧
      ({ angle := true, seg := { m := 1024 } } : Player).position 0x444FA5A2920 / 2 ^ 32 = 275 := by decide +kernel

/-- Where QA = 0x4_0000 lies: logical rank 2, bank 4, row 1 (the example after R277). -/
theorem test_quarry_address :
    up.logicalRank 0x1000040000 = 2 ∧ up.quarryRow 0x1000040000 % 16 = 4 ∧ up.quarryRow 0x1000040000 % 2 ^ 22 / 16 = 1 := by
  decide +kernel

/-- The state that a step or a command answers. -/
def after (o : Host.Outcome State Fault Refusal) : State :=
  match o with
  | .next t => t
  | _ => State.reset

/-- An EPOCH frame of 4 000 000 000 with DLY_EDGES = 2 and an armed load sets the count to 4 000 000 008 (the example after R70). -/
theorem test_epoch_frame :
    (after (exec (.tallyEpochFrame (withCrc (leBytes 1 0x10 ++ leBytes 2 0x0004 ++ leBytes 8 4000000000)) 0)
      ((((((up.wr .TBASE_TB_STATUS_TALLY_SYNC 1).wr .TBASE_TB_STATUS_REF_PRESENT 1).wr .TBASE_TB_STATUS_EPOCH_ARMED 1).wr
        .TBASE_TB_CFG_EPOCH_SRC 1).wr .TBASE_TALLY_CFG_GROUPS 4).wr .TBASE_TALLY_CFG_DLY_EDGES 2))).now = 4000000008 := by decide +kernel

/-- The count wraps, the elapsed time does not (R38). -/
theorem test_tick_wraps :
    (after (step { up with now := 2 ^ 64 - 1, osc := 7 })).now = 0 ∧ (after (step { up with now := 2 ^ 64 - 1, osc := 7 })).osc = 8 := by
  decide +kernel

/-- Reading the lower half of the time holds the upper half: the count passing 2^33 between the reads does not tear it (R5). -/
theorem test_pair_read :
    (after (exec (.read64High 5 0x404C) { after (exec (.read64Low 5 0x4048) { up with now := 0x1FFFFFFFF }) with
      now := 0x200000000 })).readData = [1, 0, 0, 0] := by decide +kernel

/-- A comparator that another master owns is not released, and the attempt is recorded (R50). -/
theorem test_release_by_another :
    (after (exec (.lcRelease 6 3) (armedLc 5 100))).rd .TBASE_LC_CTRL_CLAIMED 0 3 = 1 ∧
      (after (exec (.lcRelease 6 3) (armedLc 5 100))).rd .ERR_CODE_MASTER 0 Page.tbase.code = 6 := by decide +kernel

/-- HALT (R134). -/
theorem test_halt :
    (after (exec (.halt 3) (stitchAt 0x0100000000000000))).rd .STITCH_STATUS_HALTED 3 = 1 ∧
      (after (exec (.halt 3) (stitchAt 0x0100000000000000))).rd .STITCH_STATUS_RUNNING 3 = 0 := by decide +kernel

/-! ### The invariant of a given state -/

/-- Every stored field names a register and fits it. -/
def fits (l : Store Nat) : Bool :=
  l.all fun p => Page.all.any fun g => g.fields.any fun r => p.1 % 1024 == r.ctorIdx && decide (p.2 < 2 ^ r.width)

theorem fieldsFit_of_fits {l : Store Nat} (h : fits l = true) : fieldsFit l := by
  intro p hp
  have hp := List.all_eq_true.mp h p hp
  obtain ⟨g, -, hg⟩ := List.any_eq_true.mp hp
  obtain ⟨r, -, hr⟩ := List.any_eq_true.mp hg
  simp only [Bool.and_eq_true, beq_iff_eq, decide_eq_true_eq] at hr
  exact ⟨r, hr.1, hr.2⟩

theorem inv_of_fits {s : State}
    (h : Store.wf 0 s.mem = true ∧ s.now < 2 ^ 64 ∧ fits s.regs = true ∧ fits s.eff = true ∧ fits s.cap = true) : Inv s :=
  ⟨h.1, h.2.1, fieldsFit_of_fits h.2.2.1, fieldsFit_of_fits h.2.2.2.1, fieldsFit_of_fits h.2.2.2.2⟩

/-! ### Long buffers -/

/-- A register that no entry stores reads its reset value. -/
theorem rd_of_absent {s : State} {r : Reg} (h : s.regs.all (fun p => p.1 % 1024 != r.ctorIdx) = true) (i x u : Nat) :
    s.rd r i x u = r.resetVal i x u := by
  have hk (l : Store Nat) (hl : l.all (fun p => p.1 % 1024 != r.ctorIdx) = true) (d : Nat) : Store.get d l (key r i x u) = d := by
    induction l with
    | nil => rfl
    | cons p l ih =>
      simp only [List.all_cons, Bool.and_eq_true, bne_iff_ne, ne_eq] at hl
      have : p.1 ≠ key r i x u := fun e => hl.1 (by rw [e]; exact key_mod ..)
      simp [Store.get, this, ih hl.2]
  exact hk s.regs h _

theorem buffer_allowed {s : State} {m a n i : Nat} {k : Kind}
    (h : (m ≠ 2 ∧ m ≠ 4 ∧ m ≠ 6 ∧ m ≠ 7) ∧ (8 * m ≤ i ∧ i < 8 * m + 8) ∧ benchBase + 0x80000 ≤ a ∧ a + n ≤ benchBase + benchSize ∧
      s.rd .BENCH_RGN_BASE_EN 0 i = 1 ∧ s.rd .BENCH_RGN_BASE_BASE 0 i * 4096 ≤ a ∧
      a + n ≤ s.rd .BENCH_RGN_LIMIT_LIMIT 0 i * 4096 + 4096 ∧ s.rd .BENCH_RGN_BASE_RD 0 i = 1 ∧ s.rd .BENCH_RGN_BASE_WR 0 i = 1 ∧
      k ≠ .alias_ ∧ s.regs.all (fun p => p.1 % 1024 != Reg.ctorIdx .BENCH_BPWR_STAT_STATE) = true) : memAllowed s m k a n = true := by
  obtain ⟨h1, h2, h3, h4, h5, h6, h7, h8, h9, h10, h11⟩ := h
  exact memAllowed_of_region h1 h2 h3 h4 h5 h6 h7 h8 h9 h10 (fun b => by rw [rd_of_absent h11]; exact (by decide : (0 : Nat) ≠ 3))

theorem buffer_clean {s : State} {a n : Nat}
    (h : benchBase ≤ a ∧ a + n ≤ benchBase + benchSize ∧ s.poison = [] ∧
      s.regs.all (fun p => p.1 % 1024 != Reg.ctorIdx .BENCH_BENCH_HEALTH_HEALTH) = true) : s.anyPoison a n = false :=
  anyPoison_clean ⟨h.1, h.2.1⟩ h.2.2.1 (fun b => by rw [rd_of_absent h.2.2.2]; exact (by decide : (0 : Nat) ≠ 3))

/-! ### States and operands that meet the hypotheses of the statements -/

theorem witness_IdleStepTicks :
    (∃ (s : State), s.pending = [] ∧ s.dev = .off) ∧
    (∃ (s : State), s.pending = [] ∧ s.dev ≠ .off) :=
  ⟨⟨State.reset, by decide +kernel⟩,
    ⟨{ up with now := 2 ^ 64 - 1, osc := 5, presented := [3] }, by decide +kernel⟩⟩

theorem witness_UnassignedOffsets :
    (∃ (off : Nat), 0x24 ≤ off ∧ off < 0x40) ∧
    (∃ (s : State) (m : Master) (a : BitVec 24) (p : Page) (inst : Nat), pageAt (regAddr a) = some (p, inst) ∧ assigned s p inst
      (regAddr a % 0x1000 / 4 * 4) m.val = false) ∧
    (∃ (s : State) (m : Master) (a : BitVec 24) (p : Page) (inst : Nat), s.dev = .up ∧ pageAt (regAddr a) = some (p, inst) ∧ assigned s
      p inst (regAddr a % 0x1000 / 4 * 4) m.val = false) ∧
    (∃ (a : BitVec 24), pageAt (regAddr a) = none) ∧
    (∃ (s : State) (a : BitVec 24), s.dev = .up ∧ pageAt (regAddr a) = none) :=
  ⟨⟨0x24, by decide +kernel⟩,
    ⟨up, 5, 0x4030, .tbase, 0, by decide +kernel⟩,
    ⟨up, 5, 0x4030, .tbase, 0, by decide +kernel⟩,
    ⟨0xFFF000, by decide +kernel⟩,
    ⟨up, 0xFFF000, by decide +kernel⟩⟩

theorem witness_HaltAndNop :
    (∃ (s : State) (q : Quad) (w : Nat), Executes s q w 0x01) ∧
    (∃ (s : State) (q : Quad) (e : Nat) (j : ArmedJump), s.dev = .up ∧ s.rd .STITCH_STATUS_HALTED q.val = 1 ∧ switchInputs s q.val =
      [(e, j)] ∧ j.lpop ≤ min j.loops (s.stitcher q.val).loops.length ∧ j.target < progLen s q.val) ∧
    (∃ (s : State) (q : Quad) (w : Nat), Executes s q w 0x00) :=
  ⟨⟨stitchAt 0x0100000000000000, 3, 0x0100000000000000, by decide +kernel⟩,
    ⟨((stitchAt 0).wr .STITCH_STATUS_HALTED 1 3).setStitcher 3 { armed := [(1, some ⟨5, 1, 1, 0, 0, some 0⟩)], loops := [(3, 2)] }, 3,
      1, ⟨5, 1, 1, 0, 0, some 0⟩, by decide +kernel⟩,
    ⟨stitchAt 0, 3, 0, by decide +kernel⟩⟩

theorem witness_ReferenceCommands :
    (∃ (s : State) (m : Master) (v : Fin 4), MayWrite s .tbase 0 m ∧ v.val ≠ 3 ∧ v.val ≠ s.rd .TBASE_TB_CFG_REF_MODE) ∧
    (∃ (s : State) (m : Master) (v : Fin 4), MayWrite s .tbase 0 m ∧ (v.val = 3 ∨ v.val = s.rd .TBASE_TB_CFG_REF_MODE)) ∧
    (∃ (s : State) (m : Master), MayWrite s .tbase 0 m) ∧
    (∃ (s : State), s.dev = .up ∧ s.rd .TBASE_TB_CFG_REF_MODE ≠ 0 ∧ s.rd .TBASE_TB_STATUS_REF_PRESENT = 1) ∧
    (∃ (s : State), s.dev = .up ∧ s.rd .TBASE_TB_STATUS_REF_PRESENT = 0) ∧
    (∃ (s : State), s.dev = .up ∧ s.rd .TBASE_TB_STATUS_PLL_LOCKED = 0 ∧ s.rd .TBASE_TB_STATUS_REF_PRESENT = 1 ∧ (s.rd
      .TBASE_TB_STATUS_HOLDOVER = 0 ∨ s.rd .TBASE_TB_CFG_HOLD_RESYNC = 0)) ∧
    (∃ (s : State), s.dev = .up ∧ s.rd .TBASE_TB_STATUS_SLEWING = 1) ∧
    (∃ (s : State), s.dev = .up ∧ s.rd .TBASE_TB_STATUS_PLL_LOCKED = 1 ∧ s.rd .TBASE_TB_STATUS_REF_PRESENT = 1) :=
  ⟨⟨up, 0, 1, by decide +kernel⟩,
    ⟨up, 0, 3, by decide +kernel⟩,
    ⟨up.wr .TBASE_TB_CFG_HOLD_RESYNC 1, 0, by decide +kernel⟩,
    ⟨(up.wr .TBASE_TB_CFG_REF_MODE 1).wr .TBASE_TB_STATUS_REF_PRESENT 1, by decide +kernel⟩,
    ⟨up.wr .TBASE_TB_STATUS_REF_PRESENT 0, by decide +kernel⟩,
    ⟨(up.wr .TBASE_TB_STATUS_PLL_LOCKED 0).wr .TBASE_TB_STATUS_REF_PRESENT 1, by decide +kernel⟩,
    ⟨up.wr .TBASE_TB_STATUS_SLEWING 1, by decide +kernel⟩,
    ⟨(up.wr .TBASE_TB_STATUS_PLL_LOCKED 1).wr .TBASE_TB_STATUS_REF_PRESENT 1, by decide +kernel⟩⟩

theorem witness_EpochLoads :
    (∃ (s : State) (m : Master), MayWrite s .tbase 0 m ∧ epochSourceOk (s.rd .TBASE_TB_CFG_REF_MODE) (s.rd .TBASE_TB_CFG_EPOCH_SRC) =
      true) ∧
    (∃ (s : State) (m : Master), MayWrite s .tbase 0 m ∧ epochSourceOk (s.rd .TBASE_TB_CFG_REF_MODE) (s.rd .TBASE_TB_CFG_EPOCH_SRC) =
      false) ∧
    (∃ (s : State) (m : Master), MayWrite s .tbase 0 m) ∧
    (∃ (s : State) (age : BitVec 8) (n : Nat), s.dev = .up ∧ s.rd .TBASE_TB_STATUS_EPOCH_ARMED = 1 ∧ s.rd .TBASE_TB_CFG_EPOCH_SRC ≠ 1 ∧
      ((s.rd .TBASE_TB_CFG_REF_MODE = 0 ∧ s.epoch.armedAt + 40 + n = s.osc) ∨ (s.rd .TBASE_TB_CFG_REF_MODE ≠ 0 ∧ s.rd
      .TBASE_TB_STATUS_REF_PRESENT = 1 ∧ n = age.toNat ∧ (s.rd .TBASE_TB_CFG_EPOCH_SRC = 2 ∨ s.epoch.armedAt + 40 + n ≤ s.osc))) ∧
      (s.rd .TBASE_TB_STATUS_EPOCH_VALID = 0 ∨ s.rd .TBASE_TB_CFG_STEP_ALLOW = 1)) ∧
    (∃ (s : State) (age : BitVec 8) (n : Nat), s.dev = .up ∧ s.rd .TBASE_TB_STATUS_EPOCH_ARMED = 1 ∧ s.rd .TBASE_TB_CFG_EPOCH_SRC ≠ 1 ∧
      ((s.rd .TBASE_TB_CFG_REF_MODE = 0 ∧ s.epoch.armedAt + 40 + n = s.osc) ∨ (s.rd .TBASE_TB_CFG_REF_MODE ≠ 0 ∧ s.rd
      .TBASE_TB_STATUS_REF_PRESENT = 1 ∧ n = age.toNat ∧ (s.rd .TBASE_TB_CFG_EPOCH_SRC = 2 ∨ s.epoch.armedAt + 40 + n ≤ s.osc))) ∧
      s.rd .TBASE_TB_STATUS_EPOCH_VALID = 1 ∧ s.rd .TBASE_TB_CFG_STEP_ALLOW = 0 ∧ (hostEpoch s + n) % 2 ^ 64 ≠ s.now) ∧
    (∃ (s : State), s.rd .TBASE_TB_CFG_REF_MODE = 0 ∧ s.osc < s.epoch.armedAt + 40) :=
  ⟨⟨up, 0, by decide +kernel⟩,
    ⟨up.wr .TBASE_TB_CFG_EPOCH_SRC 3, 0, by decide +kernel⟩,
    ⟨up.wr .TBASE_TB_STATUS_EPOCH_ARMED 1, 0, by decide +kernel⟩,
    ⟨{ (up.wr .TBASE_TB_STATUS_EPOCH_ARMED 1).wr .TBASE_TB_LOAD_LO_LOAD_LO 4096 with osc := 45 }, 3, 5, by decide +kernel⟩,
    ⟨((((up.wr .TBASE_TB_STATUS_EPOCH_ARMED 1).wr .TBASE_TB_LOAD_LO_LOAD_LO 4096).wr .TBASE_TB_STATUS_EPOCH_VALID 1).wr
      .TBASE_TB_CFG_REF_MODE 2).wr .TBASE_TB_CFG_EPOCH_SRC 2 |> (·.wr .TBASE_TB_STATUS_REF_PRESENT 1), 3, 3, by decide +kernel⟩,
    ⟨{ up.wr .TBASE_TB_STATUS_EPOCH_ARMED 1 with osc := 39 }, by decide +kernel⟩⟩

theorem witness_TallyFrames :
    (∃ (s : State) (m : Master), MayWrite s .tbase 0 m) ∧
    (∃ (s : State), s.dev = .up ∧ s.rd .TBASE_TB_CFG_TALLY_EN = 1) ∧
    (∃ (s : State), s.dev = .up ∧ s.rd .TBASE_TB_STATUS_TALLY_SYNC = 1) ∧
    (∃ (s : State) (fr : List Byte), s.dev = .up ∧ s.rd .TBASE_TB_STATUS_TALLY_SYNC = 1 ∧ frameType fr = 1 ∧ frameCrcOk fr = false) ∧
    (∃ (s : State) (fr : List Byte), s.dev = .up ∧ s.rd .TBASE_TB_STATUS_TALLY_SYNC = 1 ∧ frameType fr = 1 ∧ frameCrcOk fr = true ∧
      frameTarget s fr = false) ∧
    (∃ (s : State) (fr : List Byte), s.dev = .up ∧ s.rd .TBASE_TB_STATUS_TALLY_SYNC = 1 ∧ frameType fr = 1 ∧ frameCrcOk fr = true ∧
      frameTarget s fr = true ∧ frameForm fr = false) ∧
    (∃ (s : State) (fr : List Byte) (age : BitVec 16), s.dev = .up ∧ s.rd .TBASE_TB_STATUS_TALLY_SYNC = 1 ∧ frameType fr = 1 ∧
      frameCrcOk fr = true ∧ frameTarget s fr = true ∧ frameForm fr = true ∧ frameLe fr 4 8 % 4 = 0 ∧ s.rd
      .TBASE_TB_STATUS_EPOCH_ARMED = 0 ∧ (frameLe fr 4 8 + 4 * s.rd .TBASE_TALLY_CFG_DLY_EDGES + age.toNat) % 2 ^ 64 ≠ s.now) ∧
    (∃ (s : State) (fr : List Byte), s.dev = .up ∧ s.rd .TBASE_TB_STATUS_TALLY_SYNC = 1 ∧ frameType fr = 1 ∧ frameCrcOk fr = true ∧
      frameTarget s fr = true ∧ frameForm fr = true ∧ frameLe fr 4 8 % 4 = 0 ∧ s.rd .TBASE_TB_STATUS_EPOCH_ARMED = 1 ∧ s.rd
      .TBASE_TB_CFG_EPOCH_SRC = 1 ∧ s.rd .TBASE_TB_STATUS_REF_PRESENT = 1 ∧ (s.rd .TBASE_TB_STATUS_EPOCH_VALID = 0 ∨ s.rd
      .TBASE_TB_CFG_STEP_ALLOW = 1)) ∧
    (∃ (s : State) (fr : List Byte), s.dev = .up ∧ s.rd .TBASE_TB_STATUS_TALLY_SYNC = 1 ∧ frameType fr = 1 ∧ frameCrcOk fr = true ∧
      frameTarget s fr = true ∧ frameForm fr = true ∧ frameLe fr 4 8 % 4 = 0 ∧ s.rd .TBASE_TB_STATUS_EPOCH_ARMED = 1 ∧ s.rd
      .TBASE_TB_CFG_EPOCH_SRC = 1 ∧ s.rd .TBASE_TB_STATUS_REF_PRESENT = 0 ∧ s.epoch.value = none) ∧
    (∃ (s : State) (fr : List Byte), s.dev = .up ∧ s.rd .TBASE_TB_STATUS_TALLY_SYNC = 1 ∧ frameType fr = 2 ∧ frameCrcOk fr = true ∧
      frameTarget s fr = true ∧ frameForm fr = true) ∧
    (∃ (s : State) (fr : List Byte), s.dev = .up ∧ s.rd .TBASE_TB_STATUS_TALLY_SYNC = 1 ∧ frameType fr = 3 ∧ frameCrcOk fr = true ∧
      frameTarget s fr = true ∧ frameForm fr = true ∧ bits (frameLe fr 4 1) 3 0 ≠ 15) ∧
    (∃ (s : State) (q : Quad), s.dev = .up ∧ lateWaits s q.val = true) :=
  ⟨⟨up, 0, by decide +kernel⟩,
    ⟨up.wr .TBASE_TB_CFG_TALLY_EN 1, by decide +kernel⟩,
    ⟨up.wr .TBASE_TB_STATUS_TALLY_SYNC 1, by decide +kernel⟩,
    ⟨tallyUp, 0x18 :: badFrame, by decide +kernel⟩,
    ⟨tallyUp, withCrc (0x18 :: 9 :: 0 :: 0 :: List.replicate 7 0), by decide +kernel⟩,
    ⟨tallyUp, withCrc [0x18, 0, 0, 0], by decide +kernel⟩,
    ⟨tallyUp, withCrc (0x18 :: 0 :: 0 :: 8 :: List.replicate 7 0), 0, by decide +kernel⟩,
    ⟨((tallyUp.wr .TBASE_TB_STATUS_EPOCH_ARMED 1).wr .TBASE_TB_CFG_EPOCH_SRC 1).wr .TBASE_TB_STATUS_REF_PRESENT 1, withCrc (0x18 :: 0 ::
      0 :: 8 :: List.replicate 7 0), by decide +kernel⟩,
    ⟨((tallyUp.wr .TBASE_TB_STATUS_EPOCH_ARMED 1).wr .TBASE_TB_CFG_EPOCH_SRC 1).wr .TBASE_TB_STATUS_REF_PRESENT 0, withCrc (0x18 :: 0 ::
      0 :: 8 :: List.replicate 7 0), by decide +kernel⟩,
    ⟨((tallyUp.wr .TBASE_LC_CTRL_CLAIMED 1 0 7).wr .TBASE_LC_CTRL_SRC_TALLY 1 0 7).wr .TBASE_LC_CTRL_TAG 9 0 7, withCrc (0x28 :: 0 :: 0
      :: 9 :: 200 :: List.replicate 8 0), by decide +kernel⟩,
    ⟨(tallyUp.wr .TBASE_TSPD_MAP 2 0 0 3), withCrc (0x38 :: 0 :: 0 :: 0x12 :: 1 :: List.replicate 23 0), by decide +kernel⟩,
    ⟨up.setClock 3 { running := true, tally := [{ due := 0, late := true, mode := 0, target := 5, ramp := 0, blend := 0 }] }, 3,
      by decide +kernel⟩⟩

theorem witness_ComparatorsAndStrobes :
    (∃ (s : State) (m : Master) (i : Lc), MayWrite s .tbase 0 m ∧ (s.rd .TBASE_LC_CTRL_CLAIMED 0 i.val = 0 ∨ (s.rd
      .TBASE_LC_CTRL_CLAIMED 0 i.val = 1 ∧ s.rd .TBASE_LC_CTRL_OWNER 0 i.val = m.val))) ∧
    (∃ (s : State) (m : Master) (i : Lc), MayWrite s .tbase 0 m ∧ s.rd .TBASE_LC_CTRL_CLAIMED 0 i.val = 1 ∧ s.rd .TBASE_LC_CTRL_OWNER 0
      i.val ≠ m.val) ∧
    (∃ (s : State) (m : Master) (i : Lc), MayWrite s .tbase 0 m ∧ ownsLc s m.val i.val = true ∧ (lcArmed s i.val = false ∨ canReplace s
      i.val = true) ∧ Inv s) ∧
    (∃ (s : State) (m : Master) (i : Lc), MayWrite s .tbase 0 m ∧ ownsLc s m.val i.val = true ∧ lcArmed s i.val = true ∧ canReplace s
      i.val = false ∧ Inv s) ∧
    (∃ (s : State) (m : Master) (i : Lc), MayWrite s .tbase 0 m ∧ ownsLc s m.val i.val = true ∧ lcArmed s i.val = true ∧ canReplace s
      i.val = true ∧ Inv s) ∧
    (∃ (s : State) (m : Master) (i : Lc), MayWrite s .tbase 0 m ∧ ownsLc s m.val i.val = true ∧ lcArmed s i.val = true ∧ canReplace s
      i.val = false ∧ Inv s) ∧
    (∃ (s : State) (i : Lc), s.dev = .up ∧ fireDue s i.val = true ∧ ((s.lc i.val).cancelled = true ∨ ((s.lc i.val).rearm = none ∧ s.rd
      .TBASE_LC_CTRL_PERIODIC 0 i.val = 0))) ∧
    (∃ (s : State) (i : Lc) (c : Nat) (f : Nat), s.dev = .up ∧ fireDue s i.val = true ∧ (s.lc i.val).cancelled = false ∧ (s.lc
      i.val).rearm = some (c, f)) ∧
    (∃ (s : State) (i : Lc), s.dev = .up ∧ fireDue s i.val = true ∧ (s.lc i.val).cancelled = false ∧ (s.lc i.val).rearm = none ∧ s.rd
      .TBASE_LC_CTRL_PERIODIC 0 i.val = 1) ∧
    (∃ (s : State) (m : Master) (i : Lc), MayWrite s .tbase 0 m ∧ ownsLc s m.val i.val = true ∧ Inv s) ∧
    (∃ (s : State) (m : Master) (v : Word), MayWrite s .tbase 0 m ∧ ((bit v.toNat 14 = 1 → ownsLc s m.val (bits v.toNat 13 8) = true)) ∧
      ((bits v.toNat 1 0 = 2 → ownsLc s m.val (bits v.toNat 21 16) = true))) ∧
    (∃ (s : State) (m : Master) (v : Word), MayWrite s .tbase 0 m ∧ ((bit v.toNat 14 = 1 ∧ ownsLc s m.val (bits v.toNat 13 8) = false) ∨
      (bits v.toNat 1 0 = 2 ∧ ownsLc s m.val (bits v.toNat 21 16) = false))) ∧
    (∃ (s : State) (k : Fin 4), s.dev = .up ∧ strobeDue s k.val = true) :=
  ⟨⟨up, 5, 3, by decide +kernel⟩,
    ⟨(up.wr .TBASE_LC_CTRL_CLAIMED 1 0 3).wr .TBASE_LC_CTRL_OWNER 6 0 3, 5, 3, by decide +kernel⟩,
    ⟨((up.wr .TBASE_LC_CTRL_CLAIMED 1 0 3).wr .TBASE_LC_CTRL_OWNER 5 0 3).wr .TBASE_LC_TIME_LO_C_LO 32 0 3, 5, 3, by decide +kernel,
      by decide +kernel, by decide +kernel, inv_of_fits (by decide +kernel)⟩,
    ⟨armedLc 5 31, 5, 3, by decide +kernel, by decide +kernel, by decide +kernel, by decide +kernel, inv_of_fits (by decide +kernel)⟩,
    ⟨armedLc 5 32, 5, 3, by decide +kernel, by decide +kernel, by decide +kernel, by decide +kernel, inv_of_fits (by decide +kernel)⟩,
    ⟨armedLc 5 31, 5, 3, by decide +kernel, by decide +kernel, by decide +kernel, by decide +kernel, inv_of_fits (by decide +kernel)⟩,
    ⟨armedLc 5 0, 3, by decide +kernel⟩,
    ⟨(armedLc 5 0).setLc 3 { rearm := some (77, 5) }, 3, 77, 5, by decide +kernel⟩,
    ⟨(armedLc 5 0).wr .TBASE_LC_CTRL_PERIODIC 1 0 3, 3, by decide +kernel⟩,
    ⟨armedLc 5 33, 5, 3, by decide +kernel, by decide +kernel, inv_of_fits (by decide +kernel)⟩,
    ⟨up, 0, 0x1, by decide +kernel⟩,
    ⟨up, 0, 0x50002, by decide +kernel⟩,
    ⟨(up.setGstb 2 { hasEdges := true }).wr .TBASE_GSTB_CFG_MODE 1 0 2, 2, by decide +kernel⟩⟩

theorem witness_QuadAndSpareClocks :
    (∃ (s : State) (m : Master) (q : Quad), MayWrite s .qclk q.val m ∧ s.rd .CTRL_ENABLE q.val (Page.code .qclk) = 0 ∧ (s.clock
      q.val).running = false ∧ s.rd .POWER_STATUS_DSTATE = 0 ∧ s.rd .QCLK_QCLK_STATUS_ALIGNED q.val = 0) ∧
    (∃ (s : State) (m : Master) (q : Quad), MayWrite s .qclk q.val m ∧ s.rd .CTRL_ENABLE q.val (Page.code .qclk) = 0 ∧ (s.clock
      q.val).running = false ∧ s.rd .POWER_STATUS_DSTATE = 0 ∧ s.rd .QCLK_QCLK_STATUS_ALIGNED q.val = 1) ∧
    (∃ (s : State) (m : Master) (q : Quad), MayWrite s .qclk q.val m ∧ (s.clock q.val).running = true) ∧
    (∃ (s : State) (m : Master) (q : Quad), MayWrite s .qclk q.val m ∧ (s.clock q.val).running = false) ∧
    (∃ (s : State) (y : Synth), s.dev = .up ∧ y.val ≠ 12 ∧ s.rd .QCLK_QCLK_STATUS_ON_SPARE y.val = 0 ∧ ((s.clock y.val).running = true ∨
      (s.clock y.val).resuming = true)) ∧
    (∃ (s : State) (y : Synth), s.dev = .up ∧ y.val ≠ 12 ∧ s.rd .QCLK_QCLK_STATUS_ON_SPARE y.val = 1 ∧ (s.clock y.val).moveBack = true) ∧
    (∃ (s : State), s.dev = .up ∧ s.rd .QCLK_COVER_VALID 12 = 1) ∧
    (∃ (s : State), s.dev = .up) ∧
    (∃ (s : State) (y : Synth), s.dev = .up ∧ y.val ≠ 12 ∧ s.rd .QCLK_QCLK_STATUS_ON_SPARE y.val = 0 ∧ (s.clock y.val).running = true) ∧
    (∃ (s : State) (y : Synth), s.dev = .up ∧ y.val ≠ 12 ∧ s.rd .QCLK_QCLK_STATUS_ON_SPARE y.val = 1) ∧
    (∃ (s : State) (q : Quad), s.dev = .up ∧ (s.clock q.val).resuming = true ∧ servingLocked s q.val = true) ∧
    (∃ (s : State) (m : Master) (v : Word), MayWrite s .qclk 12 m ∧ ((∀ j : Nat, j < 12 → j ≠ bits v.toNat 3 0 → s.rd
      .QCLK_QCLK_CFG_USE_SPARE j = 0)) ∧ Inv s) ∧
    (∃ (s : State) (m : Master) (v : Word) (j : Quad), MayWrite s .qclk 12 m ∧ j.val ≠ bits v.toNat 3 0 ∧ s.rd .QCLK_QCLK_CFG_USE_SPARE
      j.val = 1) ∧
    (∃ (s : State), s.dev = .up ∧ s.rd .QCLK_COVER_VALID 12 = 1) ∧
    (∃ (s : State) (m : Master) (q : Quad), MayWrite s .qclk q.val m) ∧
    (∃ (s : State) (q : Quad), s.dev = .up ∧ s.rd .QCLK_QCLK_CFG_USE_SPARE q.val = 1 ∧ s.rd .QCLK_QCLK_STATUS_ON_SPARE q.val = 0 ∧
      spareCovers s q.val = true ∧ s.rd .QCLK_QCLK_STATUS_READY 12 = 1) ∧
    (∃ (s : State) (m : Master) (q : Quad), MayWrite s .qclk q.val m ∧ s.rd .QCLK_QCLK_STATUS_ON_SPARE q.val = 1) ∧
    (∃ (s : State) (q : Quad), s.dev = .up ∧ (s.clock q.val).running = true ∧ (s.clock q.val).moveBack = true ∧ s.rd
      .QCLK_QCLK_STATUS_ON_SPARE q.val = 1 ∧ s.rd .QCLK_QCLK_STATUS_READY q.val = 1) ∧
    (∃ (s : State), s.dev = .up) :=
  ⟨⟨up, 0, 3, by decide +kernel⟩,
    ⟨up.wr .QCLK_QCLK_STATUS_ALIGNED 1 3, 0, 3, by decide +kernel⟩,
    ⟨up.setClock 3 { running := true }, 0, 3, by decide +kernel⟩,
    ⟨up.setClock 3 { resuming := true }, 0, 3, by decide +kernel⟩,
    ⟨up.setClock 3 { running := true }, 3, by decide +kernel⟩,
    ⟨(up.wr .QCLK_QCLK_STATUS_ON_SPARE 1 3).setClock 3 { moveBack := true }, 3, by decide +kernel⟩,
    ⟨up.wr .QCLK_COVER_VALID 1 12, by decide +kernel⟩,
    ⟨up, by decide +kernel⟩,
    ⟨up.setClock 3 { running := true }, 3, by decide +kernel⟩,
    ⟨up.wr .QCLK_QCLK_STATUS_ON_SPARE 1 3, 3, by decide +kernel⟩,
    ⟨({ up with osc := 9 }.setClock 3 { resuming := true, next := 1 }).wr .QCLK_QCLK_STATUS_LOCKED 1 3, 3, by decide +kernel⟩,
    ⟨(up.wrEff .QCLK_QCLK_N_N 77777 3), 0, 0x103, by decide +kernel, by decide +kernel, inv_of_fits (by decide +kernel)⟩,
    ⟨up.wr .QCLK_QCLK_CFG_USE_SPARE 1 4, 0, 0x103, 4, by decide +kernel⟩,
    ⟨up.wr .QCLK_COVER_VALID 1 12, by decide +kernel⟩,
    ⟨up, 0, 3, by decide +kernel⟩,
    ⟨(((up.wr .QCLK_QCLK_CFG_USE_SPARE 1 3).wr .QCLK_COVER_VALID 1 12).wr .QCLK_COVER_QUAD 3 12).wr .QCLK_QCLK_STATUS_READY 1 12, 3,
      by decide +kernel⟩,
    ⟨up.wr .QCLK_QCLK_STATUS_ON_SPARE 1 3, 0, 3, by decide +kernel⟩,
    ⟨((up.wr .QCLK_QCLK_STATUS_ON_SPARE 1 3).wr .QCLK_QCLK_STATUS_READY 1 3).setClock 3 { running := true, moveBack := true }, 3,
      by decide +kernel⟩,
    ⟨(up.wr .QCLK_QCLK_STATUS_ON_SPARE 1 3).setClock 3 { running := true }, by decide +kernel⟩⟩

theorem witness_SynthesisAdvances :
    (∃ (s : State) (q : Quad), s.dev = .up ∧ sampleReady s q.val = true) ∧
    (∃ (s : State) (q : Quad), s.dev = .up ∧ sampleReady s q.val = true ∧ rateEdge s q.val = none) ∧
    (∃ (s : State) (q : Quad) (r : SpeedRamp), s.dev = .up ∧ (s.wheel q.val).ramp = some r ∧ r.k ≤ r.j) ∧
    (∃ (s : State) (c : Chan) (i : Fin 32), s.dev = .up ∧ (Store.get ({} : Slot) (s.cse c.val).src.slots i.val).offDue = true) ∧
    (∃ (s : State) (c : Chan) (p : PatRun), s.dev = .up ∧ (s.cse c.val).src.pat = some p ∧ p.hold = 0 ∧ p.idx + 1 < p.count) ∧
    (∃ (s : State) (c : Chan), s.dev = .up ∧ (s.cse c.val).src.ended0 = true) ∧
    (∃ (s : State) (c : Chan), s.dev = .up ∧ (s.cse c.val).src.ended1 = true) ∧
    (∃ (s : State) (c : Chan) (p : Fin 2), s.dev = .up ∧ ((s.cse c.val).src.player p.val).done = true) ∧
    (∃ (s : State) (c : Chan), s.dev = .up ∧ idleDue s c.val = true) :=
  ⟨⟨up, 3, by decide +kernel⟩,
    ⟨up, 3, by decide +kernel⟩,
    ⟨up.setWheel 3 { ramp := some ⟨false, 1, 2, 3, 4, 5, 0, 5, 13⟩ }, 3, ⟨false, 1, 2, 3, 4, 5, 0, 5, 13⟩, by decide +kernel⟩,
    ⟨up.setCse 5 { src := { slots := [(2, { on := true, off := true, p := 9 })] } }, 5, 2, by decide +kernel⟩,
    ⟨up.setCse 5 { src := { pat := some ⟨0x10080020, 2, 1, false, true, false, 0, 0, 0, 0, 0⟩ } }, 5, ⟨0x10080020, 2, 1, false, true,
      false, 0, 0, 0, 0, 0⟩, by decide +kernel⟩,
    ⟨up.setCse 5 { src := { m0 := true, ended0 := true } }, 5, by decide +kernel⟩,
    ⟨up.setCse 5 { src := { m1 := true, m0 := true, ended1 := true } }, 5, by decide +kernel⟩,
    ⟨up.setCse 5 { src := { p1 := { active := true, fin := 3, pos := 2 ^ 37 } } }, 5, 1, by decide +kernel⟩,
    ⟨(up.setCse 5 { vacant := false }), 5, by decide +kernel⟩⟩

theorem witness_SourceDescriptors :
    (∃ (s : State) (c : Chan) (n : Nat) (p : Packet) (h : SegHeader), Takes s c n p 1 ∧ CleanCells s ∧ fetchHeader s c.val p.descr = .ok
      h ∧ inBench p.descr.segaddr 1 = true) ∧
    (∃ (s : State) (c : Chan) (n : Nat) (p : Packet) (h : SegHeader), Takes s c n p 2 ∧ CleanCells s ∧ fetchHeader s c.val p.descr = .ok
      h ∧ inBench p.descr.segaddr 1 = true) ∧
    (∃ (s : State) (c : Chan) (n : Nat) (p : Packet) (h : SegHeader) (due : Int), Takes s c n p 3 ∧ CleanCells s ∧ fetchHeader s c.val
      p.descr = .ok h ∧ s.anyPoison (p.descr.segaddr + 32) h.bodyBytes = false ∧ dueOf s c.val n p = some due) ∧
    (∃ (s : State) (c : Chan) (n : Nat) (p : Packet) (h : SegHeader), Takes s c n p 4 ∧ CleanCells s ∧ fetchHeader s c.val p.descr = .ok
      h ∧ s.anyPoison (p.descr.segaddr + 32) h.bodyBytes = false) ∧
    (∃ (s : State) (c : Chan) (n : Nat) (p : Packet), Takes s c n p 5 ∧ bit p.descr.flags 0 = 1) ∧
    (∃ (s : State) (c : Chan) (n : Nat) (p : Packet) (h : SegHeader), Takes s c n p 5 ∧ CleanCells s ∧ bit p.descr.flags 0 = 0 ∧
      fetchHeader s c.val p.descr = .ok h) ∧
    (∃ (s : State) (c : Chan) (n : Nat) (p : Packet), Takes s c n p 6 ∧ bit p.descr.flags 0 = 1) ∧
    (∃ (s : State) (c : Chan) (n : Nat) (p : Packet) (h : SegHeader), Takes s c n p 6 ∧ CleanCells s ∧ bit p.descr.flags 0 = 0 ∧
      fetchHeader s c.val p.descr = .ok h) ∧
    (∃ (s : State) (c : Chan) (n : Nat) (p : Packet) (h : SegHeader) (due : Int), Takes s c n p 7 ∧ CleanCells s ∧ fetchHeader s c.val
      p.descr = .ok h ∧ s.anyPoison (p.descr.segaddr + 32) h.bodyBytes = false ∧ dueOf s c.val n p = some due) ∧
    (∃ (s : State) (c : Chan) (n : Nat) (p : Packet), Takes s c n p 9) :=
  ⟨⟨descrUp 1 1 0 0 [0] 0, 5, 2, descrAt 1 1 0 0 [0], segHeader 1, by decide +kernel⟩,
    ⟨descrUp 2 1 0 0 [0] 0, 5, 2, descrAt 2 1 0 0 [0], segHeader 2, by decide +kernel⟩,
    ⟨descrUp 3 0 0 0 [] 0, 5, 2, descrAt 3 0 0 0 [], segHeader 3, 0, by decide +kernel⟩,
    ⟨descrUp 4 0 0 0 [] 0, 5, 2, descrAt 4 0 0 0 [], segHeader 4, by decide +kernel⟩,
    ⟨descrUp 5 0 1 0x0000200000 [] 0, 5, 2, descrAt 5 0 1 0x0000200000 [], by decide +kernel⟩,
    ⟨descrUp 5 0 0 0 [] 0, 5, 2, descrAt 5 0 0 0 [], segHeader 5, by decide +kernel⟩,
    ⟨descrUp 6 1 1 0 [0x10000000000000000] 0, 5, 2, descrAt 6 1 1 0 [0x10000000000000000], by decide +kernel⟩,
    ⟨descrUp 6 0 0 0 [] 0, 5, 2, descrAt 6 0 0 0 [], segHeader 6, by decide +kernel⟩,
    ⟨descrUp 7 0 1 0 [] 0, 5, 2, descrAt 7 0 1 0 [], segHeader 7, 0, by decide +kernel⟩,
    ⟨descrUp 9 0 0xD 0 [] 0, 5, 2, descrAt 9 0 0xD 0 [], by decide +kernel⟩⟩

theorem witness_QueueDescriptors :
    (∃ (s : State) (c : Chan) (n : Nat) (p : Packet), Takes s c n p 8 ∧ speedTaken s (quadOf c.val) c.val = false) ∧
    (∃ (s : State) (c : Chan) (n : Nat) (p : Packet), Takes s c n p 8 ∧ speedTaken s (quadOf c.val) c.val = true) ∧
    (∃ (s : State) (c : Chan) (n : Nat) (p : Packet), Takes s c n p 0) ∧
    (∃ (s : State) (c : Chan) (n : Nat) (p : Packet), Takes s c n p 15) ∧
    (∃ (s : State) (c : Chan) (n : Nat) (p : Packet), s.dev = .up ∧ nextTaken s c.val = some (n, p) ∧ (takeStep s c.val).isSome = true ∧
      p.poison = true ∧ p.descr.kind = 5) :=
  ⟨⟨descrUp 8 1 0 0 [0x5000000000000] 0, 5, 2, descrAt 8 1 0 0 [0x5000000000000], by decide +kernel⟩,
    ⟨(descrUp 8 1 0 0 [0x5000000000000] 0).setWheel 1 { speedAt := some (0, 6) }, 5, 2, descrAt 8 1 0 0 [0x5000000000000],
      by decide +kernel⟩,
    ⟨descrUp 0 0 0 0 [] 0, 5, 2, descrAt 0 0 0 0 [], by decide +kernel⟩,
    ⟨descrUp 15 0 0x10 0 [] 0, 5, 2, descrAt 15 0 0x10 0 [], by decide +kernel⟩,
    ⟨(descrUp 5 0 1 0 [] 0).setQueue 22 { head := some { descrAt 5 0 1 0 [] with poison := true } }, 5, 2,
      { descrAt 5 0 1 0 [] with poison := true }, by decide +kernel⟩⟩

theorem witness_SynthesisControl :
    (∃ (s : State) (m : Master) (c : Chan), MayWrite s .cse c.val m ∧ withinBudget s (quadOf c.val) 128 512000000 = true ∧ withinBudget
      s (quadOf c.val) 8 64000000 = true) ∧
    (∃ (s : State) (m : Master) (c : Chan), MayWrite s .cse c.val m) ∧
    (∃ (s : State) (m : Master) (c : Chan), MayWrite s .cse c.val m) ∧
    (∃ (s : State) (m : Master) (c : Chan), MayWrite s .cse c.val m ∧ outEnabled s c.val = false ∧ s.rd .CTRL_ENABLE c.val (Page.code
      .cse) = 0) ∧
    (∃ (s : State) (m : Master) (c : Chan), MayWrite s .cse c.val m ∧ s.rd .CTRL_ENABLE c.val (Page.code .cse) = 0) ∧
    (∃ (s : State) (m : Master) (c : Chan), c.val < 12 ∧ MayWrite s .stitch c.val m ∧ s.rd .CTRL_ENABLE c.val (Page.code .stitch) = 0) :=
  ⟨⟨up.wrEff .QCLK_QCLK_N_N 10738 1, 0, 5, by decide +kernel⟩,
    ⟨up, 0, 5, by decide +kernel⟩,
    ⟨up, 0, 5, by decide +kernel⟩,
    ⟨up, 0, 5, by decide +kernel⟩,
    ⟨up, 0, 5, by decide +kernel⟩,
    ⟨up, 0, 5, by decide +kernel⟩⟩

theorem witness_StitcherControl :
    (∃ (s : State) (m : Master) (q : Quad), MayWrite s .stitch q.val m ∧ s.rd .CTRL_ENABLE q.val (Page.code .stitch) = 0) ∧
    (∃ (s : State) (m : Master) (q : Quad), MayWrite s .stitch q.val m ∧ s.rd .CTRL_ENABLE q.val (Page.code .stitch) = 1) ∧
    (∃ (s : State) (m : Master) (q : Quad), MayWrite s .stitch q.val m) ∧
    (∃ (s : State) (q : Quad), s.dev = .up ∧ fetchReady s q.val = true ∧ (s.stitcher q.val).pc < progLen s q.val ∧ inBench (progAddr s
      q.val (s.stitcher q.val).pc) 8 = true ∧ memAllowed s (8 + q.val) .read (progAddr s q.val (s.stitcher q.val).pc) 8 = true ∧
      s.anyPoison (progAddr s q.val (s.stitcher q.val).pc) 8 = false ∧ Store.get none (s.stitcher q.val).ahead (s.stitcher q.val).pc
      = none ∧ decodeFault (s.leAt (progAddr s q.val (s.stitcher q.val).pc) 8) = none) ∧
    (∃ (s : State) (q : Quad), s.dev = .up ∧ fetchReady s q.val = true ∧ progLen s q.val ≤ (s.stitcher q.val).pc ∧ (s.stitcher q.val).pc
      < 2 ^ Reg.STITCH_FAULT_PC.width) ∧
    (∃ (s : State) (q : Quad) (w : Nat), Executes s q w 0x00) ∧
    (∃ (s : State) (q : Quad) (w : Nat), Executes s q w 0x01) :=
  ⟨⟨up.wr .STITCH_START_PC_PC 7 3, 0, 3, by decide +kernel⟩,
    ⟨(up.wr .CTRL_ENABLE 1 3 (Page.code .stitch)).wr .STITCH_STATUS_RUNNING 1 3, 0, 3, by decide +kernel⟩,
    ⟨(up.wr .STITCH_STATUS_FAULTED 1 3).wr .STITCH_FAULT_CAUSE 4 3, 0, 3, by decide +kernel⟩,
    ⟨stitchUp 0, 3, by decide +kernel⟩,
    ⟨((up.wr .STITCH_STATUS_RUNNING 1 3).wr .STITCH_PROG_LEN_LEN 4 3).setStitcher 3 { pc := 5 }, 3, by decide +kernel⟩,
    ⟨stitchAt 0, 3, 0, by decide +kernel⟩,
    ⟨stitchAt 0x0100000000000000, 3, 0x0100000000000000, by decide +kernel⟩⟩

theorem witness_StitcherPushes :
    (∃ (s : State) (q : Quad) (w : Nat) (cells : List Nat), Executes s q w 0x10 ∧ PushFits s q w cells) ∧
    (∃ (s : State) (q : Quad) (w : Nat) (cells : List Nat), Executes s q w 0x11 ∧ PushFits s q w cells) ∧
    (∃ (s : State) (q : Quad) (w : Nat) (cells : List Nat), Executes s q w 0x12 ∧ PushFits s q w cells) ∧
    (∃ (s : State) (q : Quad) (w : Nat) (cells : List Nat), Executes s q w 0x13 ∧ PushFits s q w cells) ∧
    (∃ (s : State) (q : Quad) (w : Nat) (cells : List Nat), Executes s q w 0x14 ∧ PushFits s q w cells ∧ ((upTo 4).filter (fun i => bit
      (bits w 55 52) i == 1)).length = 1) ∧
    (∃ (s : State) (q : Quad) (w : Nat) (cells : List Nat), Executes s q w 0x15 ∧ PushFits s q w cells ∧ ((upTo 4).filter (fun i => bit
      (bits w 55 52) i == 1)).length = 1) ∧
    (∃ (s : State) (q : Quad) (w : Nat) (i : Nat) (cells : List Nat), Executes s q w 0x12 ∧ buildPacket s q.val w = .ok cells ∧ i < 4 ∧
      bits w 55 52 = 2 ^ i ∧ bit w 49 = 0 ∧ allocation s (4 * (4 * q.val + i) + bits w 51 50) true ≠ 0 ∧ available s (4 * (4 * q.val
      + i) + bits w 51 50) true < cells.length) ∧
    (∃ (s : State) (q : Quad) (w : Nat) (i : Nat) (cells : List Nat), s.dev = .up ∧ s.rd .STITCH_STATUS_RUNNING q.val = 1 ∧ (s.stitcher
      q.val).wait = .credit ∧ (s.stitcher q.val).ir = some w ∧ (s.stitcher q.val).todo = [i] ∧ buildPacket s q.val w = .ok cells ∧
      bit w 49 = 0 ∧ allocation s (4 * (4 * q.val + i) + bits w 51 50) true ≠ 0 ∧ cells.length ≤ available s (4 * (4 * q.val + i) +
      bits w 51 50) true) :=
  ⟨⟨pushUp 1 0x1030000000000000, 3, 0x1030000000000000, [1 + 64 + 5 * 2 ^ 32, 9], by decide +kernel⟩,
    ⟨pushUp 2 0x1130000000000000, 3, 0x1130000000000000, [2 + 64 + 5 * 2 ^ 32, 9], by decide +kernel⟩,
    ⟨pushUp 1 0x1230000000000007, 3, 0x1230000000000007, [9 + 7 * 2 ^ 32], by decide +kernel⟩,
    ⟨pushUp 1 0x1330000500000007, 3, 0x1330000500000007, [9 + 7 * 2 ^ 32 + 5 * 2 ^ 104], by decide +kernel⟩,
    ⟨pushUp 1 0x1420000000000007, 3, 0x1420000000000007, [8 + 2 ^ 6, 7 * 2 ^ 18], by decide +kernel⟩,
    ⟨pushUp 8 0x1520000000000000, 3, 0x1520000000000000, [8 + 64, 9], by decide +kernel⟩,
    ⟨(pushUp 1 0x1220000000000007).setQueue 52 { cells := List.replicate 10 { cells := [0], stitch := true } }, 3, 0x1220000000000007,
      1, [9 + 7 * 2 ^ 32], by decide +kernel⟩,
    ⟨(pushUp 1 0).setStitcher 3 { ir := some 0x1220000000000007, wait := .credit, todo := [1] }, 3, 0x1220000000000007, 1, [9 + 7 * 2 ^
      32], by decide +kernel⟩⟩

theorem witness_StitcherFlow :
    (∃ (s : State) (q : Quad) (w : Nat), Executes s q w 0x20 ∧ bits w 31 0 ≠ 0 ∧ (s.stitcher q.val).loops.length < 8) ∧
    (∃ (s : State) (q : Quad) (w : Nat), Executes s q w 0x20 ∧ bits w 31 0 = 0 ∧ bits w 45 32 < progLen s q.val) ∧
    (∃ (s : State) (q : Quad) (w : Nat) (n : Nat) (body : Nat) (rest : List (Nat × Nat)), Executes s q w 0x21 ∧ (s.stitcher q.val).loops
      = (n, body) :: rest ∧ 1 < n ∧ n ≠ 0xFFFFFFFF ∧ body < progLen s q.val) ∧
    (∃ (s : State) (q : Quad) (w : Nat) (body : Nat) (rest : List (Nat × Nat)), Executes s q w 0x21 ∧ (s.stitcher q.val).loops = (1,
      body) :: rest) ∧
    (∃ (s : State) (q : Quad) (w : Nat) (body : Nat) (rest : List (Nat × Nat)), Executes s q w 0x21 ∧ (s.stitcher q.val).loops =
      (0xFFFFFFFF, body) :: rest ∧ body < progLen s q.val) ∧
    (∃ (s : State) (q : Quad) (w : Nat), Executes s q w 0x22 ∧ (s.stitcher q.val).calls.length < 8 ∧ bits w 45 32 < progLen s q.val) ∧
    (∃ (s : State) (q : Quad) (w : Nat) (r : Nat) (rest : List (Nat × Nat)), Executes s q w 0x23 ∧ (s.stitcher q.val).calls = (r,
      (s.stitcher q.val).loops.length) :: rest ∧ r < progLen s q.val) ∧
    (∃ (s : State) (q : Quad) (w : Nat), Executes s q w 0x24 ∧ (bit w 51 = 1 ∨ s.rd .STITCH_EVIN_LATCHED_LATCHED q.val 0 (bits w 55 52)
      = 1) ∧ bits w 50 48 ≤ (s.stitcher q.val).loops.length ∧ bits w 45 32 < progLen s q.val) ∧
    (∃ (s : State) (q : Quad) (w : Nat), Executes s q w 0x24 ∧ bit w 51 = 0 ∧ s.rd .STITCH_EVIN_LATCHED_LATCHED q.val 0 (bits w 55 52) =
      0) :=
  ⟨⟨stitchAt 0x2000000500000002, 3, 0x2000000500000002, by decide +kernel⟩,
    ⟨stitchAt 0x2000000500000000, 3, 0x2000000500000000, by decide +kernel⟩,
    ⟨loopAt 2, 3, 0x2100000000000000, 2, 4, [], by decide +kernel⟩,
    ⟨loopAt 1, 3, 0x2100000000000000, 4, [], by decide +kernel⟩,
    ⟨loopAt 0xFFFFFFFF, 3, 0x2100000000000000, 4, [], by decide +kernel⟩,
    ⟨stitchAt 0x2200000500000000, 3, 0x2200000500000000, by decide +kernel⟩,
    ⟨(stitchAt 0).setStitcher 3 { ir := some 0x2300000000000000, calls := [(6, 0)] }, 3, 0x2300000000000000, 6, [], by decide +kernel⟩,
    ⟨(stitchAt 0x2410000530000000).wr .STITCH_EVIN_LATCHED_LATCHED 1 3 0 1, 3, 0x2410000530000000, by decide +kernel⟩,
    ⟨stitchAt 0x2410000530000000, 3, 0x2410000530000000, by decide +kernel⟩⟩

theorem witness_StitcherWaits :
    (∃ (s : State) (q : Quad) (w : Nat), Executes s q w 0x28 ∧ granted s q.val (bits w 51 46) = true) ∧
    (∃ (s : State) (q : Quad) (w : Nat), Executes s q w 0x28 ∧ granted s q.val (bits w 51 46) = false) ∧
    (∃ (s : State) (q : Quad) (lc : Nat) (adv : Nat) (mask : Nat), s.dev = .up ∧ (s.stitcher q.val).wait = .time lc adv mask ∧
      waittReady s q.val = true) ∧
    (∃ (s : State) (q : Quad) (w : Nat), Executes s q w 0x29 ∧ s.rd .STITCH_EVIN_LATCHED_LATCHED q.val 0 (bits w 55 52) = 1) ∧
    (∃ (s : State) (q : Quad) (w : Nat), Executes s q w 0x29 ∧ s.rd .STITCH_EVIN_LATCHED_LATCHED q.val 0 (bits w 55 52) = 0) ∧
    (∃ (s : State) (q : Quad) (e : Nat) (fmask : Nat) (lpop : Nat) (target : Nat) (n : Nat), s.dev = .up ∧ (s.stitcher q.val).wait =
      .event e fmask 0 lpop target n ∧ n ≠ 0 ∧ (s.stitcher q.val).waitFrom + 256 * n ≤ s.osc) ∧
    (∃ (s : State) (q : Quad) (w : Nat), Executes s q w 0x31) ∧
    (∃ (s : State) (m : Master) (q : Quad), MayWrite s .stitch q.val m) ∧
    (∃ (s : State) (m : Master) (q : Quad), MayWrite s .stitch q.val m) ∧
    (∃ (s : State) (q : Quad), MayWrite s .stitch q.val 2) ∧
    (∃ (s : State) (q : Quad), s.dev = .up ∧ mcMoment s q.val = true ∧ Inv s) :=
  ⟨⟨(stitchAt 0x2850C00000000009).wr .STITCH_LC_GRANT 1 3 0 3, 3, 0x2850C00000000009, by decide +kernel⟩,
    ⟨stitchAt 0x2850C00000000009, 3, 0x2850C00000000009, by decide +kernel⟩,
    ⟨{ (armedLc 5 33).setStitcher 3 { wait := .time 3 40 5 } with lcGen := [(3, 1)] }, 3, 3, 40, 5, by decide +kernel⟩,
    ⟨(stitchAt 0x2910000000000000).wr .STITCH_EVIN_LATCHED_LATCHED 1 3 0 1, 3, 0x2910000000000000, by decide +kernel⟩,
    ⟨stitchAt 0x2910000000000000, 3, 0x2910000000000000, by decide +kernel⟩,
    ⟨{ up.setStitcher 3 { wait := .event 1 0 0 0 0 1 } with osc := 256 }, 3, 1, 0, 0, 0, 1, by decide +kernel⟩,
    ⟨stitchAt 0x3102000000000000, 3, 0x3102000000000000, by decide +kernel⟩,
    ⟨armedLc 5 33, 5, 3, by decide +kernel⟩,
    ⟨up.wr .STITCH_EVIN_LATCHED_LATCHED 1 3 0 1, 0, 3, by decide +kernel⟩,
    ⟨up, 3, by decide +kernel⟩,
    ⟨up.wr .STITCH_STATUS_MC_PENDING 1 3, 3, by decide +kernel, by decide +kernel, inv_of_fits (by decide +kernel)⟩⟩

theorem witness_ArmedJumps :
    (∃ (s : State) (q : Quad) (w : Nat), Executes s q w 0x30 ∧ bit w 51 = 0 ∧ (bits w 31 28 = 0 ∨ (readTemplate s q.val (bits w 27 14)
      [1, 2, 3, 4, 5, 6, 7]).isOk = true)) ∧
    (∃ (s : State) (q : Quad) (w : Nat), Executes s q w 0x30 ∧ bit w 51 = 1) ∧
    (∃ (s : State) (q : Quad) (e : Fin 16) (j : ArmedJump), s.dev = .up ∧ (q.val, e.val) ∈ s.evin ∧ armedJump s q.val e.val = some j ∧
      j.switchAt = none) ∧
    (∃ (s : State) (q : Quad) (e : Fin 16), s.dev = .up ∧ (q.val, e.val) ∈ s.evin ∧ armedJump s q.val e.val = none ∧ waitsOn s q.val
      e.val = true) ∧
    (∃ (s : State) (q : Quad) (e : Fin 16), s.dev = .up ∧ (q.val, e.val) ∈ s.evin ∧ armedJump s q.val e.val = none ∧ waitsOn s q.val
      e.val = false ∧ s.rd .STITCH_EVIN_CFG_LATCH q.val 0 e.val = 1 ∧ s.rd .STITCH_EVIN_LATCHED_LATCHED q.val 0 e.val = 0) ∧
    (∃ (s : State) (q : Quad) (e : Fin 16), s.dev = .up ∧ (q.val, e.val) ∈ s.evin ∧ armedJump s q.val e.val = none ∧ waitsOn s q.val
      e.val = false ∧ s.rd .STITCH_EVIN_CFG_LATCH q.val 0 e.val = 0) ∧
    (∃ (s : State) (q : Quad) (e : Nat) (j : ArmedJump), s.dev = .up ∧ switchInputs s q.val = [(e, j)] ∧ j.lpop ≤ min j.loops
      (s.stitcher q.val).loops.length ∧ j.target < progLen s q.val) :=
  ⟨⟨stitchAt 0x3010000500000000, 3, 0x3010000500000000, by decide +kernel⟩,
    ⟨(stitchAt 0).setStitcher 3 { ir := some 0x3018000000000000, armed := [(1, some ⟨5, 0, 0, 0, 0, none⟩)] }, 3, 0x3018000000000000,
      by decide +kernel⟩,
    ⟨{ up.setStitcher 3 { armed := [(1, some ⟨5, 0, 0, 0, 0, none⟩)] } with evin := [(3, 1)] }, 3, 1, ⟨5, 0, 0, 0, 0, none⟩,
      by decide +kernel⟩,
    ⟨{ up.setStitcher 3 { wait := .event 1 0 0 0 0 0 } with evin := [(3, 1)] }, 3, 1, by decide +kernel⟩,
    ⟨{ up.wr .STITCH_EVIN_CFG_LATCH 1 3 0 1 with evin := [(3, 1)] }, 3, 1, by decide +kernel⟩,
    ⟨{ up.wr .STITCH_EVIN_CFG_LATCH 0 3 0 1 with evin := [(3, 1)] }, 3, 1, by decide +kernel⟩,
    ⟨(stitchAt 0).setStitcher 3 { armed := [(1, some ⟨5, 1, 1, 0, 0, some 0⟩)], loops := [(3, 2)] }, 3, 1, ⟨5, 1, 1, 0, 0, some 0⟩,
      by decide +kernel⟩⟩

theorem witness_Gangs :
    (∃ (s : State) (q : Quad) (w : Nat), Executes s q w 0x38 ∧ bits w 53 52 = 0) ∧
    (∃ (s : State) (q : Quad) (w : Nat), Executes s q w 0x38 ∧ bits w 53 52 = 1 ∧ (bit w 51 = 0 ∨ granted s q.val (bits w 31 26) =
      true)) ∧
    (∃ (s : State) (q : Quad) (g : GangCommit) (x : Instant), s.dev = .up ∧ (s.stitcher q.val).gang = some g ∧ (s.stitcher q.val).wait =
      .commit ∧ commitReady s q.val = true ∧ commitInstant s g = some x) ∧
    (∃ (s : State) (q : Quad) (g : GangCommit), s.dev = .up ∧ (s.stitcher q.val).gang = some g ∧ prepareOver s q.val = true ∧ g.fjump =
      false) ∧
    (∃ (s : State) (q : Quad) (w : Nat), Executes s q w 0x38 ∧ bits w 53 52 = 2) ∧
    (∃ (s : State) (q : Quad) (w : Nat), Executes s q w 0x38 ∧ bits w 53 52 = 3 ∧ Store.get 0 (s.stitcher q.val).outcome (bits w 55 54)
      = 1) ∧
    (∃ (s : State) (q : Quad) (w : Nat), Executes s q w 0x38 ∧ bits w 53 52 = 3 ∧ Store.get 0 (s.stitcher q.val).outcome (bits w 55 54)
      = 3 ∧ bit w 50 = 1 ∧ bits w 45 32 < progLen s q.val) ∧
    (∃ (s : State) (q : Quad) (w : Nat), Executes s q w 0x38 ∧ bits w 53 52 = 3 ∧ Store.get 0 (s.stitcher q.val).outcome (bits w 55 54)
      ≠ 1 ∧ (Store.get 0 (s.stitcher q.val).outcome (bits w 55 54) ≠ 3 ∨ bit w 50 = 0)) :=
  ⟨⟨stitchAt 0x3840000000000000, 3, 0x3840000000000000, by decide +kernel⟩,
    ⟨stitchAt 0x3850000000000008, 3, 0x3850000000000008, by decide +kernel⟩,
    ⟨(stitchAt 0).setStitcher 3 { wait := .commit, gang := some ⟨1, false, 0, false, 0, 0⟩ }, 3, ⟨1, false, 0, false, 0, 0⟩, 0,
      by decide +kernel⟩,
    ⟨{ (stitchAt 0).setStitcher 3 { wait := .commit, gang := some ⟨1, false, 0, false, 0, 8⟩ } with osc := 100000000 }, 3, ⟨1, false, 0,
      false, 0, 8⟩, by decide +kernel⟩,
    ⟨(stitchAt 0x3860000000000008).setQueue 49 { cells := [{ cells := [0], stitch := true, hold := .gang 1 none }] }, 3,
      0x3860000000000008, by decide +kernel⟩,
    ⟨(stitchAt 0).setStitcher 3 { ir := some 0x3870000000000000, outcome := [(1, 1)] }, 3, 0x3870000000000000, by decide +kernel⟩,
    ⟨(stitchAt 0).setStitcher 3 { ir := some 0x3874000500000000, outcome := [(1, 3)] }, 3, 0x3874000500000000, by decide +kernel⟩,
    ⟨(stitchAt 0).setStitcher 3 { ir := some 0x3870000000000000, outcome := [(1, 2)] }, 3, 0x3870000000000000, by decide +kernel⟩⟩

theorem witness_TackPushes :
    (∃ (s : State) (m : Master) (w : Word), MayWrite s .tack 0 m ∧ m.val ≤ 2 ∧ s.rd .TACK_PUSH_STAT_DISCARDING 0 m.val = 0 ∧ s.rd
      .TACK_PUSH_STAT_OPEN 0 m.val = 0 ∧ s.rd .TACK_PUSH_SEL_CH 0 m.val < 48 ∧ bits w.toNat 8 6 + 1 ≤ available s (4 * s.rd
      .TACK_PUSH_SEL_CH 0 m.val + bits w.toNat 5 4) false) ∧
    (∃ (s : State) (m : Master) (w : Word), MayWrite s .tack 0 m ∧ m.val ≤ 2 ∧ s.rd .TACK_PUSH_STAT_DISCARDING 0 m.val = 0 ∧ s.rd
      .TACK_PUSH_STAT_OPEN 0 m.val = 0 ∧ (48 ≤ s.rd .TACK_PUSH_SEL_CH 0 m.val ∨ available s (4 * s.rd .TACK_PUSH_SEL_CH 0 m.val +
      bits w.toNat 5 4) false < bits w.toNat 8 6 + 1)) ∧
    (∃ (s : State) (m : Master), MayWrite s .tack 0 m ∧ m.val ≤ 2 ∧ s.rd .TACK_PUSH_STAT_DISCARDING 0 m.val = 0 ∧ s.rd
      .TACK_PUSH_STAT_OPEN 0 m.val = 1 ∧ 1 < s.rd .TACK_PUSH_STAT_WORDS_LEFT 0 m.val ∧ Inv s) ∧
    (∃ (s : State) (m : Master), MayWrite s .tack 0 m ∧ m.val ≤ 2 ∧ s.rd .TACK_PUSH_STAT_DISCARDING 0 m.val = 0 ∧ s.rd
      .TACK_PUSH_STAT_OPEN 0 m.val = 1 ∧ s.rd .TACK_PUSH_STAT_WORDS_LEFT 0 m.val = 1 ∧ (s.stage m.val).doomed = false) ∧
    (∃ (s : State) (m : Master), MayWrite s .tack 0 m ∧ m.val ≤ 2 ∧ s.rd .TACK_PUSH_STAT_DISCARDING 0 m.val = 0 ∧ s.rd
      .TACK_PUSH_STAT_OPEN 0 m.val = 1 ∧ s.rd .TACK_PUSH_STAT_WORDS_LEFT 0 m.val = 1 ∧ (s.stage m.val).doomed = true) ∧
    (∃ (s : State) (m : Master), MayWrite s .tack 0 m ∧ m.val ≤ 2 ∧ s.rd .TACK_PUSH_STAT_DISCARDING 0 m.val = 1 ∧ Inv s) ∧
    (∃ (s : State) (m : Master), MayWrite s .tack 0 m ∧ m.val ≤ 2) ∧
    (∃ (s : State) (m : Master), MayWrite s .tack 0 m ∧ 2 < m.val) ∧
    (∃ (s : State) (m : Master), MayWrite s .tack 0 m ∧ 2 < m.val) ∧
    (∃ (s : State) (m : Master) (i : Fin 192) (v : Word), MayWrite s .tack 0 m ∧ creditSum (((s.wr .TACK_QCFG_CRED_STITCH (bits v.toNat
      11 0) 0 i.val).wr .TACK_QCFG_CRED_REG (bits v.toNat 23 12) 0 i.val).wr .TACK_QCFG_FMODE (bit v.toNat 24) 0 i.val) ≤ 32768) ∧
    (∃ (s : State) (m : Master) (i : Fin 192) (v : Word), MayWrite s .tack 0 m ∧ 32768 < creditSum (((s.wr .TACK_QCFG_CRED_STITCH (bits
      v.toNat 11 0) 0 i.val).wr .TACK_QCFG_CRED_REG (bits v.toNat 23 12) 0 i.val).wr .TACK_QCFG_FMODE (bit v.toNat 24) 0 i.val)) :=
  ⟨⟨up.wr .TACK_QCFG_CRED_REG 10 0 0, 0, 0x41, by decide +kernel⟩,
    ⟨up.wr .TACK_PUSH_SEL_CH 60 0 0, 0, 0x41, by decide +kernel⟩,
    ⟨pushing 3, 0, by decide +kernel, by decide +kernel, by decide +kernel, by decide +kernel, by decide +kernel, inv_of_fits
      (by decide +kernel)⟩,
    ⟨pushing 1, 0, by decide +kernel⟩,
    ⟨(pushing 1).setStage 0 { (pushing 1).stage 0 with doomed := true }, 0, by decide +kernel⟩,
    ⟨(up.wr .TACK_PUSH_STAT_DISCARDING 1 0 0).wr .TACK_PUSH_STAT_WORDS_LEFT 3 0 0, 0, by decide +kernel, by decide +kernel,
      by decide +kernel, inv_of_fits (by decide +kernel)⟩,
    ⟨pushing 1, 0, by decide +kernel⟩,
    ⟨up, 3, by decide +kernel⟩,
    ⟨up, 3, by decide +kernel⟩,
    ⟨up, 0, 5, 0x100A00A, by decide +kernel⟩,
    ⟨fullPool, 0, 9, 0xFFFFFF, by decide +kernel⟩⟩

theorem witness_TackQueues :
    (∃ (s : State) (i : Fin 192) (link : Fin 3) (p : Packet) (rest : List Packet), s.dev = .up ∧ (s.queue i.val).head = none ∧ (s.queue
      i.val).cells = p :: rest ∧ p.parity = p.words.map wordParity ∧ link.val ≠ 2) ∧
    (∃ (s : State) (i : Fin 192) (p : Packet) (rest : List Packet), s.dev = .up ∧ (s.queue i.val).head = none ∧ (s.queue i.val).cells =
      p :: rest) ∧
    (∃ (s : State), s.dev = .up ∧ s.rd .TACK_STATUS_SWEEP = 1 ∧ ((∀ i : Nat, i < 192 → s.rd .TACK_QLEVEL_BROKEN 0 i = 0 ∨ s.rd
      .TACK_QLEVEL_BROKEN 0 i = 1))) ∧
    (∃ (s : State) (m : Master) (i : Fin 192) (mt : Bool) (seq : BitVec 16) (p : Packet), MayWrite s .tack 0 m ∧ s.rd .TACK_QCFG_FMODE 0
      i.val = 0 ∧ headPacket (s.queue i.val) = some p ∧ ((mt = true → p.descr.seq = seq.toNat))) ∧
    (∃ (s : State) (m : Master) (i : Fin 192) (mt : Bool) (seq : BitVec 16), MayWrite s .tack 0 m ∧ s.rd .TACK_QCFG_FMODE 0 i.val = 0 ∧
      (headPacket (s.queue i.val) = none ∨ mt = true ∧ (headPacket (s.queue i.val)).map (·.descr.seq) ≠ some seq.toNat)) ∧
    (∃ (s : State) (m : Master) (i : Fin 192), MayWrite s .tack 0 m ∧ s.rd .TACK_QCFG_FMODE 0 i.val = 1) ∧
    (∃ (s : State) (m : Fin 3), s.dev = .up ∧ s.rd .TACK_PUSH_STAT_OPEN 0 m.val = 1 ∧ (s.stage m.val).doomed = true ∧ (s.stage
      m.val).doomedAt + 400000 ≤ s.osc) ∧
    (∃ (s : State) (m : Master), MayWrite s .tack 0 m) :=
  ⟨⟨up.setQueue 9 { cells := [{ cells := [7], stitch := true, parity := [true, false, false, false] }] }, 9, 1,
      { cells := [7], stitch := true, parity := [true, false, false, false] }, [], by decide +kernel⟩,
    ⟨up.setQueue 9 { cells := [{ cells := [7], stitch := true }] }, 9, { cells := [7], stitch := true }, [], by decide +kernel⟩,
    ⟨(up.wr .TACK_STATUS_SWEEP 1).wr .TACK_QLEVEL_BROKEN 1 0 9, by decide +kernel⟩,
    ⟨up.setQueue 9 { cells := [{ cells := [7 * 2 ^ 16], stitch := true }] }, 0, 9, true, 7, { cells := [7 * 2 ^ 16], stitch := true },
      by decide +kernel⟩,
    ⟨up.setQueue 9 { cells := [{ cells := [7 * 2 ^ 16], stitch := true }] }, 0, 9, true, 8, by decide +kernel⟩,
    ⟨((pushing 3).setQueue 9 { cells := [{ cells := [7], stitch := true }] }).wr .TACK_QCFG_FMODE 1 0 9, 0, 9, by decide +kernel⟩,
    ⟨{ (pushing 3).setStage 0 { words := [1], cells := 1, queue := 9, doomed := true } with osc := 400000 }, 0, by decide +kernel⟩,
    ⟨(pushing 3), 0, by decide +kernel⟩⟩

theorem witness_StreamRings :
    (∃ (s : State) (m : Master) (c : Chan) (z : Fin 8), MayWrite s .tack 0 m ∧ s.rd .TACK_RING_CFG_EN 0 c.val = 0 ∧ ((∀ d : Nat, d < 48
      → d ≠ c.val → s.rd .TACK_RING_CFG_EN 0 d = 1 → ringsOverlap (s.wr .TACK_RING_CFG_SIZE_LOG z.val 0 c.val) c.val d = false)) ∧
      0x80000 ≤ ringOffset (s.wr .TACK_RING_CFG_SIZE_LOG z.val 0 c.val) c.val ∧ ringOffset (s.wr .TACK_RING_CFG_SIZE_LOG z.val 0
      c.val) c.val + ringSize (s.wr .TACK_RING_CFG_SIZE_LOG z.val 0 c.val) c.val ≤ benchSize) ∧
    (∃ (s : State) (m : Master) (c : Chan) (z : Fin 8), MayWrite s .tack 0 m ∧ s.rd .TACK_RING_CFG_EN 0 c.val = 0 ∧ ((∀ d : Nat, d < 48
      → d ≠ c.val → s.rd .TACK_RING_CFG_EN 0 d = 1 → ringsOverlap (s.wr .TACK_RING_CFG_SIZE_LOG z.val 0 c.val) c.val d = false)) ∧
      (ringOffset (s.wr .TACK_RING_CFG_SIZE_LOG z.val 0 c.val) c.val < 0x80000 ∨ benchSize < ringOffset (s.wr
      .TACK_RING_CFG_SIZE_LOG z.val 0 c.val) c.val + ringSize (s.wr .TACK_RING_CFG_SIZE_LOG z.val 0 c.val) c.val)) ∧
    (∃ (s : State) (m : Master) (c : Chan) (d : Chan) (z : Fin 8), MayWrite s .tack 0 m ∧ s.rd .TACK_RING_CFG_EN 0 c.val = 0 ∧ d ≠ c ∧
      s.rd .TACK_RING_CFG_EN 0 d.val = 1 ∧ ringsOverlap (s.wr .TACK_RING_CFG_SIZE_LOG z.val 0 c.val) c.val d.val = true) ∧
    (∃ (s : State) (m : Master) (c : Chan), MayWrite s .tack 0 m ∧ s.rd .TACK_RING_CFG_EN 0 c.val = 1) ∧
    (∃ (s : State) (c : Chan) (p : Fin 2) (n : BitVec 16) (cur : RingPart) (mark : RingPart), s.dev = .up ∧ served s = true ∧ (s.cse
      c.val).altPend = none ∧ firstPlay s c.val p.val (inOrder s c.val) = none ∧ ((s.cse c.val).src.player p.val).muted = false ∧
      (s.ring c.val).parts p.val = (cur, {}, mark) ∧ 0 < cur.len ∧ cur.circular = true ∧ resident cur (partSize s c.val p.val) =
      false ∧ 0 < partSize s c.val p.val ∧ ((∀ b : Nat, b < partSize s c.val p.val → byteAllowed s (20 + quadOf c.val) .write
      (partBase s c.val p.val + b) = true ∧ s.benchOff (partBase s c.val p.val + b) = false)) ∧ 0 < n.toNat) ∧
    (∃ (s : State) (c : Chan) (p : Fin 2) (n : BitVec 16) (cur : RingPart) (mark : RingPart), s.dev = .up ∧ served s = true ∧ (s.cse
      c.val).altPend = none ∧ (((s.cse c.val).alt.getD {}).player p.val).muted = false ∧ (s.cse c.val).altRing.parts p.val = (cur,
      {}, mark) ∧ 0 < cur.len ∧ cur.circular = true ∧ resident cur (partSize s c.val p.val) = false ∧ 0 < partSize s c.val p.val ∧
      ((∀ b : Nat, b < partSize s c.val p.val → byteAllowed s (20 + quadOf c.val) .write (partBase s c.val p.val + b) = true ∧
      s.benchOff (partBase s c.val p.val + b) = false)) ∧ 0 < n.toNat) :=
  ⟨⟨up.wr .TACK_RING_BASE_BASE 0x80000 0 5, 0, 5, 1, by decide +kernel⟩,
    ⟨up, 0, 5, 1, by decide +kernel⟩,
    ⟨(up.wr .TACK_RING_BASE_BASE 0x80000 0 5).wr .TACK_RING_CFG_EN 1 0 6 |> (fun s => s.wr .TACK_RING_BASE_BASE 0x80000 0 6), 0, 5, 6,
      1, by decide +kernel⟩,
    ⟨up.wr .TACK_RING_CFG_EN 1 0 5, 0, 5, by decide +kernel⟩,
    ⟨ringUp.wr .QUARRY_STATUS_READY 1, 5, 0, 8, { body := 0x1000000020, len := 100000, circular := true }, {}, by decide +kernel⟩,
    ⟨(ringUp.wr .QUARRY_STATUS_READY 1).setCse 5 { ringUp.cse 5 with altRing := ringUp.ring 5 }, 5, 0, 8,
      { body := 0x1000000020, len := 100000, circular := true }, {}, by decide +kernel⟩⟩

theorem witness_OutputSamples :
    (∃ (s : State) (q : Quad), s.dev = .up ∧ (s.clock q.val).running = true) ∧
    (∃ (s : State) (c : Chan), s.dev = .up ∧ 64 ≤ (s.out c.val).underruns) ∧
    (∃ (s : State) (c : Chan), s.dev = .up ∧ anySource s c.val = true ∧ (s.out c.val).faulted = false) ∧
    (∃ (s : State) (c : Chan), s.dev = .up ∧ anySource s c.val = false ∧ (s.out c.val).faulted = true) ∧
    (∃ (s : State) (m : Master) (c : Chan), MayWrite s .out c.val m ∧ quadRuns s c.val = false) ∧
    (∃ (s : State) (m : Master) (c : Chan), MayWrite s .out c.val m ∧ quadRuns s c.val = true) ∧
    (∃ (s : State) (m : Master) (c : Chan), MayWrite s .out c.val m) ∧
    (∃ (s : State) (m : Master) (c : Chan), MayWrite s .out c.val m) ∧
    (∃ (s : State) (m : Master) (c : Chan), MayWrite s .out c.val m ∧ atWake s c.val = false) ∧
    (∃ (s : State) (m : Master) (c : Chan), MayWrite s .out c.val m ∧ atWake s c.val = true) ∧
    (∃ (s : State) (m : Master) (c : Chan), MayWrite s .out c.val m) :=
  ⟨⟨((up.wr .CTRL_ENABLE 1 12 (Page.code .out)).setClock 3 { running := true }).setOut 12 { sq := [{ code := 77 }] }, 3,
      by decide +kernel⟩,
    ⟨up.setOut 5 { underruns := 64 }, 5, by decide +kernel⟩,
    ⟨(up.wr .CTRL_ENABLE 1 5 (Page.code .out)).wr .OUT_FAULT_STAT_FORCED 1 5, 5, by decide +kernel⟩,
    ⟨up.setOut 5 { faulted := true, spanPend := some 3 }, 5, by decide +kernel⟩,
    ⟨up, 0, 5, by decide +kernel⟩,
    ⟨up.setClock 1 { running := true }, 0, 5, by decide +kernel⟩,
    ⟨{ up.wr .OUT_FAULT_STAT_WATCHDOG 1 5 with fwUp := true }, 0, 5, by decide +kernel⟩,
    ⟨up.setOut 5 { faulted := true }, 0, 5, by decide +kernel⟩,
    ⟨(up.wr .CTRL_ENABLE 1 5 (Page.code .out)).setOut 5 { wakeVal := 99 }, 0, 5, by decide +kernel⟩,
    ⟨up, 0, 5, by decide +kernel⟩,
    ⟨up.wr .OUT_FAULT_STAT_FORCED 1 5, 0, 5, by decide +kernel⟩⟩

theorem witness_StagesAndProtection :
    (∃ (s : State) (c : Chan), s.dev = .up ∧ s.rd .OUT_STAGECTL_AUTO_SWITCH c.val = 1 ∧ s.rd .OUT_STATUS_HIGHZ c.val = 0 ∧ activeHealthy
      s c.val = true ∧ s.rd .OUT_STATUS_IN_LIMIT c.val = 0 ∧ s.rd .OUT_STATUS_FOLDBACK c.val = 0 ∧ (s.out c.val).spanPhase ≠ .slew ∧
      (s.out c.val).slewUntil + 8000 ≤ s.osc) ∧
    (∃ (s : State) (c : Chan), s.dev = .up ∧ s.rd .OUT_STAGECTL_AUTO_SWITCH c.val = 1 ∧ s.rd .OUT_STATUS_HIGHZ c.val = 0 ∧ activeHealthy
      s c.val = true ∧ standbyHealthy s c.val = true) ∧
    (∃ (s : State) (c : Chan), s.dev = .up ∧ s.rd .OUT_STAGECTL_AUTO_SWITCH c.val = 1 ∧ s.rd .OUT_STATUS_HIGHZ c.val = 0 ∧ activeHealthy
      s c.val = true ∧ standbyHealthy s c.val = false) ∧
    (∃ (s : State) (m : Master) (c : Chan), MayWrite s .out c.val m) ∧
    (∃ (s : State) (c : Chan) (k : Nat), s.dev = .up ∧ (s.out c.val).switchReq = some k ∧ k < 4 ∧ Inv s) ∧
    (∃ (s : State) (c : Chan), s.dev = .up ∧ s.rd .OUT_STAGECTL_SENSE_MODE c.val = 0 ∧ s.rd .OUT_STATUS_SENSE_LOCAL c.val = 0 ∧ s.rd
      .OUT_STATUS_IN_LIMIT c.val = 0) ∧
    (∃ (s : State) (c : Chan), s.dev = .up ∧ s.rd .OUT_STATUS_HIGHZ c.val = 0 ∧ s.rd .OUT_STATUS_IN_LIMIT c.val = 0 ∧ s.rd
      .OUT_STATUS_FOLDBACK c.val = 0) ∧
    (∃ (s : State) (c : Chan), s.dev = .up ∧ s.rd .OUT_STATUS_IN_LIMIT c.val = 1) ∧
    (∃ (s : State) (c : Chan), s.dev = .up ∧ s.rd .OUT_STATUS_IN_LIMIT c.val = 1 ∧ s.rd .OUT_STATUS_FOLDBACK c.val = 0 ∧ (s.out
      c.val).limitFrom + 1520000 ≤ s.osc) ∧
    (∃ (s : State) (m : Master) (c : Chan), MayWrite s .out c.val m ∧ s.rd .OUT_STATUS_FOLDBACK c.val = 1) ∧
    (∃ (s : State) (c : Chan), s.dev = .up ∧ s.rd .OUT_PROTCFG_AUTO_RETRY c.val = 1 ∧ (s.out c.val).foldFrom + 40000000 ≤ s.osc ∧ s.rd
      .OUT_STATUS_FOLDBACK c.val = 1) ∧
    (∃ (s : State) (c : Chan), s.dev = .up ∧ (s.out c.val).foldEnd = true) ∧
    (∃ (s : State) (c : Chan), s.dev = .up ∧ s.rd .OUT_STATUS_HIGHZ c.val = 0 ∧ s.rd .OUT_STATUS_OVERTEMP c.val = 0) ∧
    (∃ (s : State) (c : Chan), s.dev = .up ∧ s.rd .OUT_STATUS_OVERTEMP c.val = 1) :=
  ⟨⟨{ (up.wr .OUT_STAGECTL_AUTO_SWITCH 1 5).wr .OUT_STATUS_HIGHZ 0 5 with osc := 8000 }, 5, by decide +kernel⟩,
    ⟨(up.wr .OUT_STAGECTL_AUTO_SWITCH 1 5).wr .OUT_STATUS_HIGHZ 0 5, 5, by decide +kernel⟩,
    ⟨((up.wr .OUT_STATUS_HIGHZ 0 5).wr .OUT_STAGECTL_AUTO_SWITCH 1 5).wr .OUT_STAGE_STAT_B_FAILED 1 5, 5, by decide +kernel⟩,
    ⟨up, 0, 5, by decide +kernel⟩,
    ⟨up.setOut 5 { switchReq := some 2 }, 5, 2, by decide +kernel, by decide +kernel, by decide +kernel, inv_of_fits
      (by decide +kernel)⟩,
    ⟨up.wr .OUT_STAGECTL_AUTO_LOCAL 1 5, 5, by decide +kernel⟩,
    ⟨up.wr .OUT_STATUS_HIGHZ 0 5, 5, by decide +kernel⟩,
    ⟨up.wr .OUT_STATUS_IN_LIMIT 1 5, 5, by decide +kernel⟩,
    ⟨{ up.wr .OUT_STATUS_IN_LIMIT 1 5 with osc := 1520000 }, 5, by decide +kernel⟩,
    ⟨up.wr .OUT_STATUS_FOLDBACK 1 5, 0, 5, by decide +kernel⟩,
    ⟨{ (up.wr .OUT_STATUS_FOLDBACK 1 5).wr .OUT_PROTCFG_AUTO_RETRY 1 5 with osc := 40000000 }, 5, by decide +kernel⟩,
    ⟨up.setOut 5 { foldEnd := true }, 5, by decide +kernel⟩,
    ⟨up.wr .OUT_STATUS_HIGHZ 0 5, 5, by decide +kernel⟩,
    ⟨(up.wr .OUT_STATUS_OVERTEMP 1 5).setOut 5 { foldTemp := true, clearHeld := true }, 5, by decide +kernel⟩⟩

theorem witness_SpanChanges :
    (∃ (s : State) (c : Chan), s.dev = .up ∧ (s.out c.val).spanPhase = .slew) ∧
    (∃ (s : State) (c : Chan), s.dev = .up ∧ (s.out c.val).spanPhase = .hold) ∧
    (∃ (s : State) (c : Chan), s.dev = .up ∧ (s.out c.val).spanPhase = .switch ∧ (s.out c.val).spanTo < 8) ∧
    (∃ (s : State) (c : Chan), s.dev = .up ∧ (s.out c.val).spanPhase = .settle ∧ (s.out c.val).toWake = false) ∧
    (∃ (s : State) (c : Chan), s.dev = .up ∧ (s.out c.val).spanPhase = .settle ∧ (s.out c.val).toWake = true) ∧
    (∃ (s : State) (c : Chan), s.dev = .up ∧ (s.out c.val).spanPhase = .release ∧ quadRuns s c.val = true ∧ pendingSpan s c.val = none) ∧
    (∃ (s : State) (c : Chan) (v : Nat), s.dev = .up ∧ (s.out c.val).spanPhase = .release ∧ quadRuns s c.val = true ∧ (s.out
      c.val).spanPend = some v ∧ v ≠ spanNow s c.val) :=
  ⟨⟨up.setOut 5 { spanPhase := .slew }, 5, by decide +kernel⟩,
    ⟨up.setOut 5 { spanPhase := .hold }, 5, by decide +kernel⟩,
    ⟨up.setOut 5 { spanPhase := .switch, spanTo := 3 }, 5, by decide +kernel⟩,
    ⟨up.setOut 5 { spanPhase := .settle }, 5, by decide +kernel⟩,
    ⟨up.setOut 5 { spanPhase := .settle, toWake := true }, 5, by decide +kernel⟩,
    ⟨((up.setOut 5 { spanPhase := .release }).setClock 1 { running := true }).wr .CTRL_ENABLE 1 5 (Page.code .out), 5,
      by decide +kernel⟩,
    ⟨(up.setOut 5 { spanPhase := .release, spanPend := some 4 }).setClock 1 { running := true }, 5, 4, by decide +kernel⟩⟩

theorem witness_OutputRecord :
    (∃ (s : State) (m : Master) (c : Chan), MayWrite s .out c.val m ∧ m.val ≤ 2 ∧ s.rd .OUT_NVM_STAT_BUSY c.val = 0) ∧
    (∃ (s : State) (m : Master) (c : Chan) (k : Byte), MayWrite s .out c.val m ∧ m.val ≤ 2 ∧ k ≠ 0xA5) ∧
    (∃ (s : State) (m : Master) (c : Chan) (k : Byte), MayWrite s .out c.val m ∧ m.val ≤ 2 ∧ k ≠ 0xA5) ∧
    (∃ (s : State) (m : Master) (c : Chan), MayWrite s .out c.val m ∧ m.val ≤ 2 ∧ s.rd .OUT_NVM_STAT_BUSY c.val = 0) ∧
    (∃ (s : State) (c : Chan), s.dev = .up ∧ s.nvmQueue.head? = some c.val ∧ (s.out c.val).nvmOp = 1 ∧ (s.out c.val).record.programs <
      100000) ∧
    (∃ (s : State) (c : Chan) (ok : Bool), s.dev = .up ∧ s.nvmQueue.head? = some c.val ∧ (s.out c.val).nvmOp = 1 ∧ (ok = false ∨ 100000
      ≤ (s.out c.val).record.programs)) ∧
    (∃ (s : State) (c : Chan) (ok : Bool), s.dev = .up ∧ s.nvmQueue.head? = some c.val ∧ (s.out c.val).nvmOp = 2 ∧ (ok = false ∨ (s.out
      c.val).record.bad = true)) ∧
    (∃ (s : State) (c : Chan), s.dev = .up ∧ s.nvmQueue.head? = some c.val ∧ (s.out c.val).nvmOp = 2 ∧ (s.out c.val).record.bad = false) ∧
    (∃ (s : State) (m : Master) (c : Chan), MayWrite s .out c.val m ∧ m.val ≤ 2) ∧
    (∃ (s : State) (m : Master) (c : Chan), MayWrite s .out c.val m ∧ m.val ≤ 2) ∧
    (∃ (s : State) (m : Master) (c : Chan), MayWrite s .out c.val m ∧ m.val ≤ 2) ∧
    (∃ (s : State) (m : Master) (c : Chan), MayWrite s .out c.val m ∧ 2 < m.val) ∧
    (∃ (s : State) (m : Master) (c : Chan), MayWrite s .out c.val m ∧ 2 < m.val) ∧
    (∃ (s : State) (m : Master) (c : Chan), MayWrite s .out c.val m ∧ 2 < m.val) :=
  ⟨⟨up, 0, 5, by decide +kernel⟩,
    ⟨up, 0, 5, 0x5A, by decide +kernel⟩,
    ⟨up, 0, 5, 0x5A, by decide +kernel⟩,
    ⟨up, 0, 5, by decide +kernel⟩,
    ⟨{ up.setOut 5 { nvmOp := 1 } with nvmQueue := [5, 6] }, 5, by decide +kernel⟩,
    ⟨{ up.setOut 5 { nvmOp := 1 } with nvmQueue := [5, 6] }, 5, false, by decide +kernel⟩,
    ⟨{ up.setOut 5 { nvmOp := 2 } with nvmQueue := [5, 6] }, 5, false, by decide +kernel⟩,
    ⟨{ up.setOut 5 { nvmOp := 2, record := { wake := 7, fault := 8 } } with nvmQueue := [5, 6] }, 5, by decide +kernel⟩,
    ⟨up, 0, 5, by decide +kernel⟩,
    ⟨up, 0, 5, by decide +kernel⟩,
    ⟨up, 0, 5, by decide +kernel⟩,
    ⟨up, 3, 5, by decide +kernel⟩,
    ⟨up, 3, 5, by decide +kernel⟩,
    ⟨up, 3, 5, by decide +kernel⟩⟩

theorem witness_BurnishVisits :
    (∃ (s : State) (t : Tier) (p : Nat), s.dev = .up ∧ rotationDue s t.val = true ∧ tierIdle s t.val = true ∧ nextVisit s t.val = some
      p) ∧
    (∃ (s : State) (t : Tier), s.dev = .up ∧ rotationDue s t.val = true ∧ spareCore s t.val = 15) ∧
    (∃ (s : State) (m : Master) (t : Tier) (p : Fin 16), MayWrite s .spare t.val m ∧ p.val < 12 ∧ tierIdle s t.val = true ∧ burnishActs
      s = true) ∧
    (∃ (s : State) (m : Master) (t : Tier) (p : Fin 16), MayWrite s .spare t.val m ∧ p.val < 12 ∧ spareCore s t.val ≠ 15 ∧ (tierIdle s
      t.val = false ∨ burnishActs s = false)) ∧
    (∃ (s : State) (m : Master) (t : Tier), MayWrite s .spare t.val m ∧ spareCore s t.val = 15) ∧
    (∃ (s : State) (t : Tier), s.dev = .up ∧ visitPos s t.val < 12 ∧ spPhase s t.val = 0 ∧ spareFree s t.val = true ∧ burnishActs s =
      true ∧ capturing s t.val = false ∧ visitOk s t.val (visitPos s t.val) = true) ∧
    (∃ (s : State) (t : Tier), s.dev = .up ∧ spPhase s t.val = 1 ∧ capturing s t.val = false ∧ s.rd .POWER_STATUS_DSTATE = 0 ∧ visitOk s
      t.val (visitPos s t.val) = true ∧ (s.tier t.val).n0 < (s.clock (visitQuad s t.val)).next) ∧
    (∃ (s : State) (t : Tier) (taps : List (SenseSample × SenseSample)) (a : Rat) (b : Rat), s.dev = .up ∧ spPhase s t.val = 2 ∧
      capturing s t.val = false ∧ windowOver s t.val = true ∧ visitOk s t.val (visitPos s t.val) = true ∧ matchFit (taps.map (fun p
      => (sensed s t.val p.1, sensed s t.val p.2))) = (a, b) ∧ max (max a (-a)) (max b (-b)) ≤ ((max 1 (s.rd .BURNISH_MATCH_TOL_LSB)
      : Nat) : Rat)) ∧
    (∃ (s : State) (t : Tier) (taps : List (SenseSample × SenseSample)) (a : Rat) (b : Rat), s.dev = .up ∧ spPhase s t.val = 2 ∧
      capturing s t.val = false ∧ windowOver s t.val = true ∧ visitOk s t.val (visitPos s t.val) = true ∧ matchFit (taps.map (fun p
      => (sensed s t.val p.1, sensed s t.val p.2))) = (a, b) ∧ ((max 1 (s.rd .BURNISH_MATCH_TOL_LSB) : Nat) : Rat) < max (max a
      (-a)) (max b (-b)) ∧ max (max a (-a)) (max b (-b)) ≤ 64 * ((max 1 (s.rd .BURNISH_MATCH_TOL_LSB) : Nat) : Rat) ∧ (s.tier
      t.val).retried = false ∧ s.rd .POWER_STATUS_DSTATE = 0) ∧
    (∃ (s : State) (t : Tier) (taps : List (SenseSample × SenseSample)) (a : Rat) (b : Rat), s.dev = .up ∧ spPhase s t.val = 2 ∧
      capturing s t.val = false ∧ windowOver s t.val = true ∧ visitOk s t.val (visitPos s t.val) = true ∧ matchFit (taps.map (fun p
      => (sensed s t.val p.1, sensed s t.val p.2))) = (a, b) ∧ ((max 1 (s.rd .BURNISH_MATCH_TOL_LSB) : Nat) : Rat) < max (max a
      (-a)) (max b (-b)) ∧ max (max a (-a)) (max b (-b)) ≤ 64 * ((max 1 (s.rd .BURNISH_MATCH_TOL_LSB) : Nat) : Rat) ∧ (s.tier
      t.val).retried = true) ∧
    (∃ (s : State) (t : Tier) (taps : List (SenseSample × SenseSample)) (a : Rat) (b : Rat), s.dev = .up ∧ spPhase s t.val = 2 ∧
      capturing s t.val = false ∧ windowOver s t.val = true ∧ visitOk s t.val (visitPos s t.val) = true ∧ matchFit (taps.map (fun p
      => (sensed s t.val p.1, sensed s t.val p.2))) = (a, b) ∧ 64 * ((max 1 (s.rd .BURNISH_MATCH_TOL_LSB) : Nat) : Rat) < max (max a
      (-a)) (max b (-b)) ∧ spareCore s t.val ≠ 15) ∧
    (∃ (s : State) (t : Tier) (p : Fin 12) (k : Fin 13), s.dev = .up ∧ handoverDue s t.val = true ∧ visitPos s t.val = p.val ∧ ownCore s
      t.val p.val = k.val ∧ s.rd .POWER_STATUS_DSTATE = 0 ∧ visitOk s t.val p.val = true ∧ Inv s) ∧
    (∃ (s : State) (t : Tier) (p : Fin 12) (k : Fin 13), s.dev = .up ∧ (handoverDue s t.val = false ∨ visitPos s t.val ≠ p.val ∨ ownCore
      s t.val p.val ≠ k.val)) :=
  ⟨⟨tierUp, 1, 0, by decide +kernel⟩,
    ⟨tierUp.wr .SPARE_STATUS_SPARE_CORE 15 1, 1, by decide +kernel⟩,
    ⟨tierUp, 0, 1, 3, by decide +kernel⟩,
    ⟨visitUp 1, 0, 1, 3, by decide +kernel⟩,
    ⟨up.wr .SPARE_STATUS_SPARE_CORE 15 1, 0, 1, by decide +kernel⟩,
    ⟨visitUp 0, 1, by decide +kernel⟩,
    ⟨visitUp 1, 1, by decide +kernel⟩,
    ⟨overUp 2, 1, [], 0, 0, by decide +kernel⟩,
    ⟨overUp 2, 1, [(sense 2, sense 0)], 1024 / 125, 0, by decide +kernel⟩,
    ⟨(overUp 2).setTier 1 { (overUp 2).tier 1 with retried := true }, 1, [(sense 2, sense 0)], 1024 / 125, 0, by decide +kernel⟩,
    ⟨overUp 2, 1, [(sense 100, sense 0)], 2048 / 5, 0, by decide +kernel⟩,
    ⟨(visitUp 3).setTier 1 { decided := some 0 }, 1, 2, 2, by decide +kernel, by decide +kernel, by decide +kernel, by decide +kernel,
      by decide +kernel, by decide +kernel, inv_of_fits (by decide +kernel)⟩,
    ⟨up, 1, 2, 2, by decide +kernel⟩⟩

theorem witness_BurnishCalibration :
    (∃ (s : State) (t : Tier) (taps : List SenseSample), s.dev = .up ∧ spPhase s t.val = 4 ∧ (s.tier t.val).abandonFrom = none ∧
      windowOver s t.val = true ∧ (needsExtension (solveCore ((s.tier t.val).window ++ taps.map (sensed s t.val))) = false ∨ (s.tier
      t.val).extended = true)) ∧
    (∃ (s : State) (t : Tier) (taps : List SenseSample), s.dev = .up ∧ spPhase s t.val = 4 ∧ (s.tier t.val).abandonFrom = none ∧
      windowOver s t.val = true ∧ (s.tier t.val).extended = false ∧ needsExtension (solveCore ((s.tier t.val).window ++ taps.map
      (sensed s t.val))) = true) ∧
    (∃ (s : State) (t : Tier) (k : Fin 13) (x : CoreTrim), s.dev = .up ∧ spPhase s t.val = 5 ∧ calTarget s t.val = k.val ∧ (s.tier
      t.val).abandonFrom = none ∧ capturing s t.val = false ∧ s.rd .POWER_STATUS_DSTATE = 0 ∧ applySolution (s.rd
      .BURNISH_STATUS_REF_OK == 1) (lastGood s t.val k.val) (applicable (solveCore (s.tier t.val).window)) = some x) ∧
    (∃ (s : State) (t : Tier) (k : Fin 13), s.dev = .up ∧ spPhase s t.val = 5 ∧ calCore s t.val = k.val ∧ (s.tier t.val).abandonFrom =
      none ∧ (s.tier t.val).offline = false ∧ (s.tier t.val).hostCal = false ∧ Store.get 0 (s.tier t.val).calFails k.val = 0 ∧
      applySolution (s.rd .BURNISH_STATUS_REF_OK == 1) (lastGood s t.val k.val) (applicable (solveCore (s.tier t.val).window)) =
      none) ∧
    (∃ (s : State) (t : Tier) (taps : List SenseSample), s.dev = .up ∧ spPhase s t.val = 6 ∧ calCore s t.val ≠ 15 ∧ (s.tier
      t.val).abandonFrom = none ∧ windowOver s t.val = true ∧ verifyPasses (solveCore (taps.map (sensed s t.val))) = true ∧ (s.tier
      t.val).offline = false ∧ (s.tier t.val).hostCal = false ∧ visitPos s t.val < 12 ∧ (s.tier t.val).visitReq = none ∧ Inv s) ∧
    (∃ (s : State) (t : Tier) (taps : List SenseSample), s.dev = .up ∧ spPhase s t.val = 6 ∧ calTarget s t.val ≠ 15 ∧ (s.tier
      t.val).abandonFrom = none ∧ windowOver s t.val = true ∧ verifyPasses (solveCore (taps.map (sensed s t.val))) = true ∧ (s.tier
      t.val).offline = true ∧ visitOk s t.val (visitPos s t.val) = true ∧ capturing s t.val = false ∧ burnishActs s = true) ∧
    (∃ (s : State) (t : Tier) (taps : List SenseSample), s.dev = .up ∧ spPhase s t.val = 6 ∧ calCore s t.val ≠ 15 ∧ (s.tier
      t.val).abandonFrom = none ∧ windowOver s t.val = true ∧ verifyPasses (solveCore (taps.map (sensed s t.val))) = false ∧ (s.tier
      t.val).offline = false ∧ (s.tier t.val).hostCal = false ∧ Store.get 0 (s.tier t.val).calFails (calCore s t.val) = 0) ∧
    (∃ (s : State) (t : Tier) (ref : List (BitVec 18 × BitVec 16)) (agnd : List (BitVec 18 × BitVec 16)) (d : Rat), s.dev = .up ∧
      frameDue s t.val = true ∧ frameDeviation s.vref (frameOf (s.rd .BURNISH_BCFG_DITHER_EN == 1) ref agnd) = d) :=
  ⟨⟨(overUp 4).setTier 1 { (overUp 4).tier 1 with extended := true }, 1, [], by decide +kernel⟩,
    ⟨overUp 4, 1, [], by decide +kernel⟩,
    ⟨calUp 5, 1, 2, {}, by decide +kernel⟩,
    ⟨offUp, 1, 2, by decide +kernel⟩,
    ⟨overCal 6, 1, [], by decide +kernel, by decide +kernel, by decide +kernel, by decide +kernel, by decide +kernel, by decide +kernel,
      by decide +kernel, by decide +kernel, by decide +kernel, by decide +kernel, inv_of_fits (by decide +kernel)⟩,
    ⟨(overUp 6).setTier 1 { (overUp 6).tier 1 with offline := true }, 1, [], by decide +kernel⟩,
    ⟨overCal 6, 1, [sense 1000], by decide +kernel⟩,
    ⟨(overUp 0).wr .BURNISH_STATUS_REF_OK 1, 1, [(64100, 0)], [(0, 0)], 1 / 640, by decide +kernel⟩⟩

theorem witness_BurnishFailover :
    (∃ (s : State) (t : Tier) (k : Fin 13) (p : Nat), s.dev = .up ∧ coreRole s t.val k.val = 0 ∧ (upTo 12).find? (fun p => ownCore s
      t.val p == k.val) = some p ∧ spareCore s t.val ≠ 15 ∧ covered s t.val = none ∧ calCore s t.val = 15 ∧ (∀ f ∈ (s.tier
      t.val).failovers, f.pos ≠ p)) ∧
    (∃ (s : State) (t : Tier) (k : Fin 13) (p : Nat), s.dev = .up ∧ coreRole s t.val k.val = 0 ∧ (upTo 12).find? (fun p => ownCore s
      t.val p == k.val) = some p ∧ spareCore s t.val = 15) ∧
    (∃ (s : State) (m : Master) (t : Tier) (p : Fin 16), MayWrite s .spare t.val m ∧ spareCore s t.val ≠ 15 ∧ p.val < 12 ∧ covered s
      t.val = none ∧ calCore s t.val = 15 ∧ (∀ f ∈ (s.tier t.val).failovers, f.pos ≠ p.val)) ∧
    (∃ (s : State) (m : Master) (t : Tier) (p : Fin 16), MayWrite s .spare t.val m ∧ spareCore s t.val ≠ 15 ∧ 12 ≤ p.val) ∧
    (∃ (s : State) (m : Master) (t : Tier), MayWrite s .spare t.val m ∧ spareCore s t.val = 15) ∧
    (∃ (s : State) (t : Tier) (f : Failover) (rest : List Failover), s.dev = .up ∧ (s.tier t.val).failovers = f :: rest ∧ failoverReady
      s t.val f = true ∧ f.pos < 12 ∧ f.retire = true ∧ spareCore s t.val ≠ ownCore s t.val f.pos ∧ Inv s) ∧
    (∃ (s : State) (t : Tier) (f : Failover) (rest : List Failover), s.dev = .up ∧ (s.tier t.val).failovers = f :: rest ∧ failoverReady
      s t.val f = true ∧ f.pos < 12 ∧ f.retire = false ∧ spareCore s t.val ≠ ownCore s t.val f.pos ∧ Inv s) ∧
    (∃ (s : State) (t : Tier), s.dev = .up ∧ abandonReady s t.val = true ∧ (s.tier t.val).hostCal = false ∧ (s.tier t.val).spareFails =
      none ∧ visitPos s t.val < 12 ∧ Inv s) ∧
    (∃ (s : State) (t : Tier), s.dev = .up ∧ abandonReady s t.val = true ∧ (s.tier t.val).hostCal = true ∧ (s.tier t.val).spareFails =
      none ∧ Inv s) :=
  ⟨⟨tierUp, 1, 3, 3, by decide +kernel⟩,
    ⟨tierUp.wr .SPARE_STATUS_SPARE_CORE 15 1 |> (fun s => s.setClock 3 {}), 1, 3, 3, by decide +kernel⟩,
    ⟨tierUp, 0, 1, 3, by decide +kernel⟩,
    ⟨tierUp, 0, 1, 12, by decide +kernel⟩,
    ⟨tierUp.wr .SPARE_STATUS_SPARE_CORE 15 1, 0, 1, by decide +kernel⟩,
    ⟨{ tierUp.setTier 1 { failovers := [⟨3, 1, true, 0, 0⟩] } with osc := 1600 }, 1, ⟨3, 1, true, 0, 0⟩, [], by decide +kernel,
      by decide +kernel, by decide +kernel, by decide +kernel, by decide +kernel, by decide +kernel, inv_of_fits
      (by decide +kernel)⟩,
    ⟨{ tierUp.setTier 1 { failovers := [⟨3, 3, false, 0, 0⟩] } with osc := 1600 }, 1, ⟨3, 3, false, 0, 0⟩, [], by decide +kernel,
      by decide +kernel, by decide +kernel, by decide +kernel, by decide +kernel, by decide +kernel, inv_of_fits
      (by decide +kernel)⟩,
    ⟨{ (calUp 4).setTier 1 { abandonFrom := some 0 } with osc := 8000 }, 1, by decide +kernel, by decide +kernel, by decide +kernel,
      by decide +kernel, by decide +kernel, inv_of_fits (by decide +kernel)⟩,
    ⟨{ (calUp 4).setTier 1 { abandonFrom := some 0, hostCal := true } with osc := 8000 }, 1, by decide +kernel, by decide +kernel,
      by decide +kernel, by decide +kernel, inv_of_fits (by decide +kernel)⟩⟩

theorem witness_BurnishCapture :
    (∃ (s : State) (m : Master) (t : Tier), MayWrite s .burnish 0 m ∧ s.rd .BURNISH_CAP_CTRL_BUSY 0 t.val = 0) ∧
    (∃ (s : State) (m : Master) (t : Tier) (lc : Lc), MayWrite s .burnish 0 m ∧ s.rd .BURNISH_CAP_CTRL_BUSY 0 t.val = 0 ∧ ownsLc s m.val
      lc.val = true) ∧
    (∃ (s : State) (m : Master) (lc : Lc), MayWrite s .burnish 0 m ∧ ownsLc s m.val lc.val = false) ∧
    (∃ (s : State) (m : Master) (t : Tier) (atLc : Bool) (lc : Lc), MayWrite s .burnish 0 m ∧ s.rd .BURNISH_CAP_CTRL_BUSY 0 t.val = 1 ∧
      (atLc = false ∨ ownsLc s m.val lc.val = true)) ∧
    (∃ (s : State) (m : Master) (t : Tier), MayWrite s .burnish 0 m ∧ s.rd .BURNISH_CAP_CTRL_BUSY 0 t.val = 1 ∧ (s.tier t.val).capWait =
      true) ∧
    (∃ (s : State) (m : Master) (t : Tier), MayWrite s .burnish 0 m ∧ s.rd .BURNISH_CAP_CTRL_BUSY 0 t.val = 1 ∧ (s.tier t.val).capWait =
      false) ∧
    (∃ (s : State) (t : Tier), s.dev = .up ∧ captureMore s t.val = true ∧ (inBench (s.tier t.val).capAddr 4 = true ∨ inWave s (s.tier
      t.val).capAddr 4 = true) ∧ memAllowed s 5 .write (s.tier t.val).capAddr 4 = true ∧ s.anyPoison (s.tier t.val).capAddr 4 =
      false ∧ CleanCells s ∧ Inv s) ∧
    (∃ (s : State) (t : Tier), s.dev = .up ∧ captureMore s t.val = true ∧ memAllowed s 5 .write (s.tier t.val).capAddr 4 = false) ∧
    (∃ (s : State) (t : Tier), s.dev = .up ∧ capturing s t.val = true ∧ captureMore s t.val = false) ∧
    (∃ (s : State) (m : Master), MayWrite s .burnish 0 m) ∧
    (∃ (s : State) (t : Tier), s.dev = .up ∧ s.nvmQueue = [] ∧ ((s.tier t.val).mapUrgent = true ∨ (s.tier t.val).mapDirty = true ∧
      (s.tier t.val).mapSaved + 60 * Config.ticksPerSecond ≤ s.osc)) ∧
    (∃ (s : State), s.dev = .up ∧ s.nvmQueue = [] ∧ (s.trimDue = true ∨ s.rd .BURNISH_BCFG_SAVE_HOURS ≠ 0 ∧ s.trimSaved + s.rd
      .BURNISH_BCFG_SAVE_HOURS * 3600 * Config.ticksPerSecond ≤ s.osc)) :=
  ⟨⟨up, 0, 1, by decide +kernel⟩,
    ⟨armedLc 5 0, 5, 1, 3, by decide +kernel⟩,
    ⟨up, 5, 3, by decide +kernel⟩,
    ⟨up.wr .BURNISH_CAP_CTRL_BUSY 1 0 1, 5, 1, false, 3, by decide +kernel⟩,
    ⟨(up.wr .BURNISH_CAP_CTRL_BUSY 1 0 1).setTier 1 { capWait := true }, 0, 1, by decide +kernel⟩,
    ⟨up.wr .BURNISH_CAP_CTRL_BUSY 1 0 1, 0, 1, by decide +kernel⟩,
    ⟨((((region 5 up).wr .BURNISH_CAP_CTRL_BUSY 1 0 1).wr .BURNISH_STATUS_CAPTURING 1 0 0 1).wr .BURNISH_CAP_COUNT_COUNT 4 0 1).setTier
      1 { capAddr := 0x10080006 }, 1, by decide +kernel, by decide +kernel, by decide +kernel, by decide +kernel, by decide +kernel,
      by decide +kernel, inv_of_fits (by decide +kernel)⟩,
    ⟨((up.wr .BURNISH_CAP_CTRL_BUSY 1 0 1).wr .BURNISH_STATUS_CAPTURING 1 0 0 1).wr .BURNISH_CAP_COUNT_COUNT 4 0 1, 1,
      by decide +kernel⟩,
    ⟨up.wr .BURNISH_STATUS_CAPTURING 1 0 0 1, 1, by decide +kernel⟩,
    ⟨up, 0, by decide +kernel⟩,
    ⟨up.setTier 1 { mapUrgent := true }, 1, by decide +kernel⟩,
    ⟨{ up with trimDue := true }, by decide +kernel⟩⟩

theorem witness_HarnessFiring :
    (∃ (s : State) (l : Line) (u : Nat), s.dev = .up ∧ lineLive s l.val = true ∧ presentingSlots s l.val ≠ [] ∧ (s.line l.val).firedAt =
      none ∧ lineConsumer s l.val = .capu u ∧ (s.capu u).length < 4 ∧ s.rd .POWER_STATUS_DSTATE = 0) ∧
    (∃ (s : State) (l : Line), s.dev = .up ∧ lineLive s l.val = true ∧ presentingSlots s l.val ≠ [] ∧ (s.line l.val).firedAt ≠ none ∧
      (s.line l.val).firedAt ≠ some s.osc) ∧
    (∃ (s : State) (l : Line), s.dev = .up ∧ lineLive s l.val = true ∧ presentingSlots s l.val ≠ [] ∧ (s.line l.val).firedAt = some
      s.osc) ∧
    (∃ (s : State) (l : Line) (q : Nat) (e : Nat), s.dev = .up ∧ lineLive s l.val = true ∧ presentingSlots s l.val ≠ [] ∧ (s.line
      l.val).firedAt = none ∧ lineConsumer s l.val = .input q e ∧ s.rd .POWER_STATUS_DSTATE = 0) ∧
    (∃ (s : State) (l : Line) (u : Nat), s.dev = .up ∧ lineLive s l.val = true ∧ presentingSlots s l.val ≠ [] ∧ (s.line l.val).firedAt =
      none ∧ lineConsumer s l.val = .capu u ∧ (s.capu u).length = 4 ∧ s.rd .POWER_STATUS_DSTATE = 0 ∧ (lineHold s l.val = false ∨
      s.rd .HARNESS_LINE_STAT_PENDING 0 l.val = 1)) ∧
    (∃ (s : State) (l : Line) (u : Nat), s.dev = .up ∧ lineLive s l.val = true ∧ presentingSlots s l.val ≠ [] ∧ (s.line l.val).firedAt =
      none ∧ lineConsumer s l.val = .capu u ∧ (s.capu u).length = 4 ∧ s.rd .POWER_STATUS_DSTATE = 0 ∧ lineHold s l.val = true ∧ s.rd
      .HARNESS_LINE_STAT_PENDING 0 l.val = 0) ∧
    (∃ (s : State) (l : Line), s.dev = .up ∧ lineLive s l.val = true ∧ presentingSlots s l.val ≠ [] ∧ (stormInEffect s l.val).1 ≠ 0 ∧
      (stormInEffect s l.val).1 ≤ (s.line l.val).count + (presentingSlots s l.val).length) ∧
    (∃ (s : State) (l : Line) (n : Nat), s.dev = .up ∧ (s.line l.val).firedAt = some n ∧ n + max 2 (s.rd .HARNESS_LINE_CFG_REARM 0
      l.val) ≤ s.osc) ∧
    (∃ (s : State) (w : Fin 32), s.dev = .up ∧ 8 ≤ w.val ∧ s.now % 2 ^ w.val = 0) ∧
    (∃ (s : State) (m : Master) (l : Line), MayWrite s .harness 0 m ∧ ownsLine s l.val m.val = true ∧ s.rd .HARNESS_LINE_STAT_STORM 0
      l.val = 1) ∧
    (∃ (s : State) (l : Line), s.dev = .up ∧ s.rd .HARNESS_LINE_STAT_PENDING 0 l.val = 1 ∧ consumerBusy s (lineConsumer s l.val) = false
      ∧ (s.line l.val).held = none) :=
  ⟨⟨lineUp 0x125, 3, 5, by decide +kernel⟩,
    ⟨{ (lineUp 0x125).setLine 3 { firedAt := some 0 } with osc := 1 }, 3, by decide +kernel⟩,
    ⟨(lineUp 0x125).setLine 3 { firedAt := some 0 }, 3, by decide +kernel⟩,
    ⟨lineUp 0x32, 3, 3, 1, by decide +kernel⟩,
    ⟨(((lineUp 0x125).setCapu 5 fourRecords).wr .HARNESS_SVC_CTL_FORCE_HOLD 0), 3, 5, by decide +kernel⟩,
    ⟨(lineUp 0x125).setCapu 5 fourRecords, 3, 5, by decide +kernel⟩,
    ⟨(lineUp 0x125).setLine 3 { prof := some (1, 8) }, 3, by decide +kernel⟩,
    ⟨{ up.setLine 3 { firedAt := some 0 } with osc := 2 }, 3, 0, by decide +kernel⟩,
    ⟨up.wr .HARNESS_STORM_PROF_WIN_LOG2 9 0 0, 9, by decide +kernel⟩,
    ⟨(lineUp 0x125).wr .HARNESS_LINE_STAT_STORM 1 0 3, 0, 3, by decide +kernel⟩,
    ⟨(lineUp 0x125).wr .HARNESS_LINE_STAT_PENDING 1 0 3, 3, by decide +kernel⟩⟩

theorem witness_HarnessOwnership :
    (∃ (s : State) (m : Master) (l : Line) (v : Word), MayWrite s .harness 0 m ∧ s.rd .HARNESS_LINE_CFG_CLAIMED 0 l.val = 0 ∧ lineHidden
      s l.val m.val = false ∧ (bit v.toNat 11 = s.rd .HARNESS_LINE_CFG_SEC 0 l.val ∨ secureMaster s m.val = true) ∧ consumerTaken s
      l.val m.val (bits v.toNat 8 0) = false) ∧
    (∃ (s : State) (m : Master) (l : Line) (v : Word), MayWrite s .harness 0 m ∧ ownsLine s l.val m.val = true ∧ bit v.toNat 31 = 1 ∧
      (bit v.toNat 11 = s.rd .HARNESS_LINE_CFG_SEC 0 l.val ∨ secureMaster s m.val = true) ∧ consumerTaken s l.val m.val (bits
      v.toNat 8 0) = false) ∧
    (∃ (s : State) (m : Master) (l : Line), MayWrite s .harness 0 m ∧ s.rd .HARNESS_LINE_CFG_CLAIMED 0 l.val = 1 ∧ s.rd
      .HARNESS_LINE_CFG_OWNER 0 l.val ≠ m.val) ∧
    (∃ (s : State) (m : Master) (l : Line) (v : Word), MayWrite s .harness 0 m ∧ ownsLine s l.val m.val = true ∧ bit v.toNat 31 = 1 ∧
      (bit v.toNat 11 = s.rd .HARNESS_LINE_CFG_SEC 0 l.val ∨ secureMaster s m.val = true) ∧ consumerTaken s l.val m.val (bits
      v.toNat 8 0) = true) ∧
    (∃ (s : State) (m : Master) (l : Line), MayWrite s .harness 0 m ∧ ownsLine s l.val m.val = true) ∧
    (∃ (s : State) (m : Master) (l : Line) (v : Word), MayWrite s .harness 0 m ∧ ownsLine s l.val m.val = true ∧ producerOk s m.val
      (bits v.toNat 8 0) = true ∧ producerOk s m.val (bits v.toNat 24 16) = true) ∧
    (∃ (s : State) (m : Master) (l : Line) (v : Word), MayWrite s .harness 0 m ∧ (ownsLine s l.val m.val = false ∨ producerOk s m.val
      (bits v.toNat 8 0) = false ∨ producerOk s m.val (bits v.toNat 24 16) = false)) ∧
    (∃ (s : State) (m : Master), MayWrite s .harness 0 m) ∧
    (∃ (s : State) (m : Master), MayWrite s .harness 0 m) ∧
    (∃ (s : State), s.dev = .up) :=
  ⟨⟨up, 5, 3, 0x60005325, by decide +kernel⟩,
    ⟨lineUp 0x125, 0, 3, 0x80000000, by decide +kernel⟩,
    ⟨lineUp 0x125, 5, 3, by decide +kernel⟩,
    ⟨(lineUp 0x125).wr .HARNESS_LINE_CFG_DST 0x126 0 9, 0, 3, 0x80000126, by decide +kernel⟩,
    ⟨(lineUp 0x125).wr .HARNESS_LINE_STAT_PENDING 1 0 3, 0, 3, by decide +kernel⟩,
    ⟨lineUp 0x125, 0, 3, 0x01810001, by decide +kernel⟩,
    ⟨lineUp 0x125, 0, 3, 0x105, by decide +kernel⟩,
    ⟨up, 0, by decide +kernel⟩,
    ⟨(lineUp 0x125).wr .HARNESS_LINE_STAT_PENDING 1 0 3, 0, by decide +kernel⟩,
    ⟨((up.wr .HARNESS_LINE_CFG_EN 1 0 3).wr .HARNESS_LINE_CFG_DST 0x105 0 3).wr .HARNESS_LINE_SRC_SLOT 6 0 3 0, by decide +kernel⟩⟩

theorem witness_PinsAndCaptureUnits :
    (∃ (s : State) (i : Fin 32) (rising : Bool) (half : Bool) (ago : Fin 256), s.dev = .up ∧ bankOk s i.val = true ∧ edgeSelected (s.rd
      .PAT_PIN_CFG_EDGE 0 i.val) rising = true ∧ s.rd .PAT_PIN_CFG_FILT 0 i.val = 0 ∧ (s.pin i.val).wait = none ∧ ((s.pin
      i.val).shown = 0 ∨ (s.pin i.val).shown + 1 ≤ 2 * (s.osc - ago.val) + (if half then 1 else 0))) ∧
    (∃ (s : State) (i : Fin 32) (rising : Bool), s.dev = .up ∧ s.rd .PAT_PIN_CFG_FILT 0 i.val = 0 ∧ (s.pin i.val).wait = none ∧ (bankOk
      s i.val = false ∨ edgeSelected (s.rd .PAT_PIN_CFG_EDGE 0 i.val) rising = false)) ∧
    (∃ (s : State) (i : Fin 32), s.dev = .up ∧ s.rd .PAT_PIN_CFG_FILT 0 i.val ≠ 0 ∧ (s.pin i.val).wait = none) ∧
    (∃ (s : State) (m : Master) (i : Fin 32), MayWrite s .pat 0 m ∧ s.rd .PAT_PIN_CFG_CLAIMED 0 i.val = 0) ∧
    (∃ (s : State) (m : Master) (i : Fin 32), MayWrite s .pat 0 m ∧ s.rd .PAT_PIN_CFG_CLAIMED 0 i.val = 1 ∧ s.rd .PAT_PIN_CFG_OWNER 0
      i.val ≠ m.val) ∧
    (∃ (s : State) (m : Master) (i : Fin 32), MayWrite s .pat 0 m ∧ s.rd .PAT_PIN_CFG_CLAIMED 0 i.val = 1 ∧ s.rd .PAT_PIN_CFG_OWNER 0
      i.val = m.val ∧ pinNamed s i.val = false) ∧
    (∃ (s : State) (m : Master) (i : Fin 32), MayWrite s .pat 0 m ∧ s.rd .PAT_PIN_CFG_CLAIMED 0 i.val = 1 ∧ s.rd .PAT_PIN_CFG_OWNER 0
      i.val = m.val ∧ pinNamed s i.val = true) ∧
    (∃ (s : State) (m : Master) (i : Fin 32), MayWrite s .pat 0 m ∧ s.rd .PAT_PIN_CFG_CLAIMED 0 i.val = 1 ∧ s.rd .PAT_PIN_CFG_OWNER 0
      i.val = m.val ∧ Inv s) ∧
    (∃ (s : State) (l : Line) (i : Nat), s.dev = .up ∧ lineLive s l.val = true ∧ presentingSlots s l.val ≠ [] ∧ (s.line l.val).firedAt =
      none ∧ lineConsumer s l.val = .pat i ∧ pinFunc s i = 1 ∧ s.rd .PAT_PIN_CFG_OMODE 0 i = 0 ∧ (s.pin i).pulsing = false ∧ s.rd
      .POWER_STATUS_DSTATE = 0) ∧
    (∃ (s : State) (l : Line) (i : Nat), s.dev = .up ∧ lineLive s l.val = true ∧ presentingSlots s l.val ≠ [] ∧ (s.line l.val).firedAt =
      none ∧ lineConsumer s l.val = .pat i ∧ pinFunc s i = 1 ∧ s.rd .PAT_PIN_CFG_OMODE 0 i = 1 ∧ s.rd .POWER_STATUS_DSTATE = 0) ∧
    (∃ (s : State) (i : Fin 32), s.dev = .up ∧ (s.pin i.val).pulsing = true ∧ (s.pin i.val).until_ ≤ s.osc) ∧
    (∃ (s : State) (m : Master) (u : Fin 16), MayWrite s .harness 0 m ∧ s.rd .HARNESS_CAPU_CFG_CLAIMED 0 u.val = 0) ∧
    (∃ (s : State) (m : Master) (u : Fin 16), MayWrite s .harness 0 m ∧ s.rd .HARNESS_CAPU_CFG_CLAIMED 0 u.val = 1 ∧ s.rd
      .HARNESS_CAPU_CFG_OWNER 0 u.val ≠ m.val) ∧
    (∃ (s : State) (m : Master) (u : Fin 16) (r : CapRecord) (rs : List CapRecord), s.dev = .up ∧ accessOk s .harness 0 m.val false =
      true ∧ s.capu u.val = r :: rs ∧ rs.length < 4) ∧
    (∃ (s : State) (m : Master) (u : Fin 16), s.dev = .up ∧ accessOk s .harness 0 m.val false = true ∧ s.capu u.val = []) :=
  ⟨⟨up.wr .PAT_STATUS_BANK_OK 1 0 0 1, 9, true, true, 2, by decide +kernel⟩,
    ⟨up, 9, true, by decide +kernel⟩,
    ⟨up.wr .PAT_PIN_CFG_FILT 3 0 9, 9, by decide +kernel⟩,
    ⟨up, 5, 9, by decide +kernel⟩,
    ⟨up.wr .PAT_PIN_CFG_CLAIMED 1 0 9, 5, 9, by decide +kernel⟩,
    ⟨pinUp, 5, 9, by decide +kernel⟩,
    ⟨pinUp.wr .HARNESS_LINE_CFG_DST 0x109 0 3, 5, 9, by decide +kernel⟩,
    ⟨pinUp, 5, 9, by decide +kernel, by decide +kernel, by decide +kernel, inv_of_fits (by decide +kernel)⟩,
    ⟨((lineUp 0x109).wr .PAT_PIN_CFG_FUNC 1 0 9), 3, 9, by decide +kernel⟩,
    ⟨((lineUp 0x109).wr .PAT_PIN_CFG_FUNC 1 0 9).wr .PAT_PIN_CFG_OMODE 1 0 9, 3, 9, by decide +kernel⟩,
    ⟨up.setPin 9 { pulsing := true }, 9, by decide +kernel⟩,
    ⟨up, 5, 7, by decide +kernel⟩,
    ⟨up.wr .HARNESS_CAPU_CFG_CLAIMED 1 0 7, 5, 7, by decide +kernel⟩,
    ⟨up.setCapu 7 fourRecords, 5, 7, ⟨1, 0, 1, false⟩, List.replicate 3 ⟨1, 0, 1, false⟩, by decide +kernel⟩,
    ⟨up, 5, 7, by decide +kernel⟩⟩

theorem witness_PowerUp :
    (∃ (s : State), s.dev = .off ∧ s.testEn = false) ∧
    (∃ (s : State), s.dev = .off ∧ s.testEn = true) ∧
    (∃ (s : State), s.dev = .powerup) ∧
    (∃ (s : State), s.dev = .up ∧ s.pwr.step = 1) ∧
    (∃ (s : State), s.dev = .up ∧ s.pwr.step = 2) ∧
    (∃ (s : State), s.dev = .up ∧ s.pwr.step = 3) ∧
    (∃ (s : State), s.dev = .up ∧ s.pwr.step = 4) ∧
    (∃ (s : State), s.dev = .up) ∧
    (∃ (s : State), s.dev = .up ∧ s.rd .SEC_STATUS_BOOT_OK = 1 ∧ s.rd .BENCH_STATUS_READY = 1 ∧ s.rd .TACK_STATUS_READY = 1 ∧ s.rd
      .SYS_STATUS_READY = 0) ∧
    (∃ (s : State), s.dev ≠ .off) :=
  ⟨⟨State.reset, by decide +kernel⟩,
    ⟨{ State.reset with testEn := true }, by decide +kernel⟩,
    ⟨{ State.reset with dev := .powerup }, by decide +kernel⟩,
    ⟨{ up with pwr := { step := 1 } }, by decide +kernel⟩,
    ⟨{ up with pwr := { step := 2 } }, by decide +kernel⟩,
    ⟨{ up with pwr := { step := 3 } }, by decide +kernel⟩,
    ⟨{ up with pwr := { step := 4 } }, by decide +kernel⟩,
    ⟨up, by decide +kernel⟩,
    ⟨((up.wr .SEC_STATUS_BOOT_OK 1).wr .BENCH_STATUS_READY 1).wr .TACK_STATUS_READY 1, by decide +kernel⟩,
    ⟨up, by decide +kernel⟩⟩

theorem witness_WarmResets :
    (∃ (s : State), s.dev = .up) ∧
    (∃ (s : State), s.dev = .warm) ∧
    (∃ (s : State) (m : Master), MayWrite s .sys 0 m ∧ m.val ≤ 2) ∧
    (∃ (s : State) (m : Master), s.dev = .up ∧ 2 < m.val) ∧
    (∃ (s : State) (j : Fin 2), s.dev = .up ∧ portOn s j.val = true ∧ s.rd .I3C_LINK_CFG_ALLOW_DEV_RESET j.val = 1) ∧
    (∃ (s : State) (j : Fin 2), s.dev = .up ∧ portOn s j.val = true ∧ s.rd .I3C_LINK_CFG_ALLOW_DEV_RESET j.val ≠ 1) ∧
    (∃ (s : State) (j : Fin 2), s.dev = .up ∧ portOn s j.val = true ∧ (s.port j.val).rstByte = 2 ∧ s.rd .I3C_LINK_CFG_ALLOW_DEV_RESET
      j.val = 1) ∧
    (∃ (s : State) (j : Fin 2), s.dev = .up ∧ portOn s j.val = true ∧ (s.port j.val).rstByte = 1) ∧
    (∃ (s : State) (j : Fin 2), s.dev = .up ∧ portOn s j.val = true ∧ (s.port j.val).rstByte = 0) ∧
    (∃ (s : State), s.dev = .warm ∧ s.pwr.warmFrom + 4000 ≤ s.osc) :=
  ⟨⟨((up.wr .TBASE_LC_CTRL_CLAIMED 1 0 3).wr .TACK_STATUS_READY 1).setByte 0x10080000 7, by decide +kernel⟩,
    ⟨{ up with dev := .warm }, by decide +kernel⟩,
    ⟨up, 1, by decide +kernel⟩,
    ⟨up, 5, by decide +kernel⟩,
    ⟨up.wr .I3C_LINK_CFG_ALLOW_DEV_RESET 1 1, 1, by decide +kernel⟩,
    ⟨up.wr .I3C_LINK_CFG_ALLOW_DEV_RESET 0 1, 1, by decide +kernel⟩,
    ⟨(up.wr .I3C_LINK_CFG_ALLOW_DEV_RESET 1 1).setPort 1 { rstByte := 2 }, 1, by decide +kernel⟩,
    ⟨up.setPort 1 { rstByte := 1 }, 1, by decide +kernel⟩,
    ⟨up.setPort 1 { rstByte := 0 }, 1, by decide +kernel⟩,
    ⟨{ up with dev := .warm, osc := 4000 }, by decide +kernel⟩⟩

theorem witness_PowerStates :
    (∃ (s : State), s.dev = .up ∧ s.rd .POWER_STATUS_DSTATE = 0 ∧ s.rd .POWER_STATUS_ENTERING = 0 ∧ s.rd .POWER_STATUS_EXITING = 0 ∧
      quietBlock s = 0 ∧ idleOver s = true ∧ targetState s ≠ 0) ∧
    (∃ (s : State), s.dev = .up ∧ s.rd .POWER_STATUS_ENTERING = 1 ∧ s.rd .POWER_STATUS_TARGET ≤ 4 ∧ (s.rd .POWER_STATUS_TARGET < 2 ∨
      anyUrgent s 3 = false)) ∧
    (∃ (s : State) (cls : Fin 6), s.dev = .up ∧ cls.val ≠ 0 ∧ cls.val ≠ 4 ∧ s.rd .POWER_STATUS_EXITING = 0 ∧ (s.rd
      .POWER_STATUS_ENTERING = 1 ∨ s.rd .POWER_STATUS_DSTATE ≠ 0) ∧ s.rd .POWER_STATUS_DSTATE ≤ 4 ∧ s.rd .POWER_STATUS_TARGET ≤ 4) ∧
    (∃ (s : State), s.dev = .up ∧ s.rd .POWER_STATUS_EXITING = 0 ∧ s.rd .POWER_STATUS_DSTATE ≠ 0 ∧ timeWakeDue s = true) ∧
    (∃ (s : State), s.dev = .up ∧ s.rd .POWER_STATUS_EXITING = 1) :=
  ⟨⟨{ ((((up.wr .POWER_PWR_CFG_MAX_STATE 4).wr .POWER_LTOL_HOST_US 5000).wr .POWER_LTOL_EVENT_US 5000).wr .POWER_LTOL_TALLY_US 5000)
      with osc := 100000000, pwr := { quietFrom := some 0 } }, by decide +kernel⟩,
    ⟨((up.wr .POWER_STATUS_ENTERING 1).wr .POWER_STATUS_TARGET 3).setClock 2 { running := true }, by decide +kernel⟩,
    ⟨up.wr .POWER_STATUS_DSTATE 2, 5, by decide +kernel⟩,
    ⟨(armedLc 0 10).wr .POWER_STATUS_DSTATE 2, by decide +kernel⟩,
    ⟨(((up.wr .POWER_STATUS_DSTATE 3).wr .POWER_STATUS_EXITING 1).setClock 2 { dark := true }).setLine 3
      { held := some ⟨1, 0, 1, false⟩ }, by decide +kernel⟩⟩

theorem witness_PowerMonitors :
    (∃ (s : State), s.dev = .up) ∧
    (∃ (s : State) (tj : BitVec 12), s.dev = .up ∧ (4 * s.rd .POWER_THERM_CFG_TCRIT : Nat) ≤ signed 12 tj.toNat ∧ s.rd
      .POWER_STATUS_THERM_CRIT = 0 ∧ s.rd .POWER_THERM_CFG_CRIT_ACT = 1) ∧
    (∃ (s : State), s.dev = .up) ∧
    (∃ (s : State) (q : Quad), s.dev = .up ∧ hasDemand s q.val = true) ∧
    (∃ (s : State), s.dev = .up ∧ s.pwr.lifeFrom + 24 * 3600 * Config.ticksPerSecond ≤ s.osc) :=
  ⟨⟨up, by decide +kernel⟩,
    ⟨(up.wr .POWER_THERM_CFG_CRIT_ACT 1).wr .CTRL_ENABLE 1 5 (Page.code .out), 2000, by decide +kernel⟩,
    ⟨up.wr .POWER_RAIL_STAT_IN_RANGE 1 0 0 3, by decide +kernel⟩,
    ⟨(up.wr .CTRL_ENABLE 1 3 (Page.code .qclk)).wr .CTRL_ENABLE 1 13 (Page.code .cse), 3, by decide +kernel⟩,
    ⟨{ up with osc := 40000000000000 }, by decide +kernel⟩⟩

theorem witness_BenchAccesses :
    (∃ (s : State) (m : Master) (off : BitVec 22) (len : Fin 65) (x : BenchAccess), s.dev = .up ∧ CleanCells s ∧ 0 < len.val ∧ off.toNat
      + len.val ≤ benchSize ∧ x =
      { master := m.val, kind := 0, off := off.toNat, len := len.val, data := [], mark := false, other := none } ∧ BenchAllows s x ∧
      AtOnce s x) ∧
    (∃ (s : State) (m : Master) (off : BitVec 22) (data : List Byte) (mark : Bool) (x : BenchAccess), s.dev = .up ∧ CleanCells s ∧ 0 <
      data.length ∧ off.toNat + data.length ≤ benchSize ∧ (mark = false ∨ writesMarks m.val = false) ∧ x =
      { master := m.val, kind := 1, off := off.toNat, len := data.length, data := data, mark := mark, other := none } ∧ BenchAllows
      s x ∧ AtOnce s x ∧ s.anyPoison (benchBase + off.toNat) data.length = false) ∧
    (∃ (s : State) (m : Master) (off : BitVec 22) (data : List Byte) (x : BenchAccess), s.dev = .up ∧ CleanCells s ∧ data.length ≤ 4 ∧
      off.toNat / 4 = (off.toNat + data.length - 1) / 4 ∧ off.toNat + data.length ≤ benchSize ∧ x =
      { master := m.val, kind := 1, off := off.toNat, len := data.length, data := data, mark := false, other := none } ∧ BenchAllows
      s x ∧ AtOnce s x ∧ s.poisoned (benchBase + off.toNat) = true ∧ s.offline (benchBase + off.toNat) = false) ∧
    (∃ (s : State) (m : Master) (off : BitVec 22) (data : List Byte) (x : BenchAccess), s.dev = .up ∧ CleanCells s ∧ 0 < data.length ∧
      off.toNat + data.length ≤ benchSize ∧ writesMarks m.val = true ∧ x =
      { master := m.val, kind := 1, off := off.toNat, len := data.length, data := data, mark := true, other := none } ∧ BenchAllows
      s x ∧ AtOnce s x) ∧
    (∃ (s : State) (m : Master) (n : Master) (off : BitVec 22) (off' : BitVec 22) (data : List Byte) (data' : List Byte) (x :
      BenchAccess) (y : BenchAccess), s.dev = .up ∧ CleanCells s ∧ 0 < data.length ∧ 0 < data'.length ∧ off.toNat + data.length ≤
      benchSize ∧ x =
      { master := m.val, kind := 1, off := off.toNat, len := data.length, data := data, mark := false, other := some (n.val, 1, off'.toNat, data') }
      ∧ y = { master := n.val, kind := 1, off := off'.toNat, len := data'.length, data := data', mark := false, other := none } ∧
      portB x = true ∧ portB y = false ∧ BenchAllows s x ∧ AtOnce s x ∧ BenchAllows s y ∧ s.anyPoison (benchBase + off.toNat)
      data.length = false ∧ s.anyPoison (benchBase + off'.toNat) data'.length = false) ∧
    (∃ (s : State) (m : Master) (off : BitVec 22) (data : List Byte) (mark : Bool) (x : BenchAccess), s.dev = .up ∧ 0 < data.length ∧
      off.toNat + data.length ≤ benchSize ∧ x =
      { master := m.val, kind := 1, off := off.toNat, len := data.length, data := data, mark := mark, other := none } ∧
      (¬BenchAllows s x)) ∧
    (∃ (s : State) (m : Master) (off : BitVec 22) (len : Fin 65) (x : BenchAccess), s.dev = .up ∧ 0 < len.val ∧ off.toNat + len.val ≤
      benchSize ∧ x = { master := m.val, kind := 0, off := off.toNat, len := len.val, data := [], mark := false, other := none } ∧
      (¬BenchAllows s x)) ∧
    (∃ (s : State) (m : Master) (clear : Bool) (off : BitVec 22) (data : List Byte) (x : BenchAccess), s.dev = .up ∧ 0 < data.length ∧
      off.toNat + data.length ≤ benchSize ∧ x =
      { master := m.val, kind := if clear then 3 else 2, off := off.toNat, len := data.length, data, mark := false, other := none }
      ∧ (¬BenchAllows s x)) ∧
    (∃ (s : State) (m : Master) (clear : Bool) (off : BitVec 22) (data : List Byte) (x : BenchAccess), s.dev = .up ∧ CleanCells s ∧
      off.toNat + data.length ≤ benchSize ∧ x =
      { master := m.val, kind := if clear then 3 else 2, off := off.toNat, len := data.length, data, mark := false, other := none }
      ∧ BenchAllows s x ∧ AtOnce s x ∧ s.poisoned (benchBase + off.toNat) = false) ∧
    (∃ (s : State) (m : Master) (clear : Bool) (off : BitVec 22) (data : List Byte) (x : BenchAccess), s.dev = .up ∧ CleanCells s ∧
      off.toNat + data.length ≤ benchSize ∧ x =
      { master := m.val, kind := if clear then 3 else 2, off := off.toNat, len := data.length, data, mark := false, other := none }
      ∧ BenchAllows s x ∧ AtOnce s x ∧ s.poisoned (benchBase + off.toNat) = true) ∧
    (∃ (s : State) (m : Master) (off : BitVec 22) (len : Fin 65) (x : BenchAccess), s.dev = .up ∧ 0 < len.val ∧ off.toNat + len.val ≤
      benchSize ∧ x = { master := m.val, kind := 0, off := off.toNat, len := len.val, data := [], mark := false, other := none } ∧
      BenchAllows s x ∧ (¬AtOnce s x) ∧ meetsState s x 3 = false) ∧
    (∃ (s : State) (m : Master) (off : BitVec 22) (data : List Byte) (mark : Bool) (x : BenchAccess), s.dev = .up ∧ 0 < data.length ∧
      off.toNat + data.length ≤ benchSize ∧ x =
      { master := m.val, kind := 1, off := off.toNat, len := data.length, data := data, mark := mark, other := none } ∧ BenchAllows
      s x ∧ (¬AtOnce s x) ∧ meetsState s x 3 = false) ∧
    (∃ (s : State) (m : Master) (clear : Bool) (off : BitVec 22) (data : List Byte) (x : BenchAccess), s.dev = .up ∧ off.toNat +
      data.length ≤ benchSize ∧ x =
      { master := m.val, kind := if clear then 3 else 2, off := off.toNat, len := data.length, data, mark := false, other := none }
      ∧ BenchAllows s x ∧ (¬AtOnce s x) ∧ meetsState s x 3 = false) ∧
    (∃ (s : State) (b : Fin 16) (x : BenchAccess), s.dev = .up ∧ CleanCells s ∧ benchState s b.val ≠ 0 ∧ benchState s b.val ≠ 3 ∧
      s.ben.held = [x] ∧ s.qry.waiting.any (fun y => y.master == x.master) = false ∧ x.kind = 0 ∧ 0 < x.len ∧ x.off + x.len ≤
      benchSize ∧ x.off / 0x40000 = b.val ∧ (x.off + x.len - 1) / 0x40000 = b.val) ∧
    (∃ (s : State) (m : Master) (off : BitVec 22) (len : Fin 65) (x : BenchAccess), s.dev = .up ∧ CleanCells s ∧ 0 < len.val ∧ off.toNat
      + len.val ≤ benchSize ∧ off.toNat % 4 + len.val ≤ 4 ∧ x =
      { master := m.val, kind := 0, off := off.toNat, len := len.val, data := [], mark := false, other := none } ∧ BenchAllows s x ∧
      AtOnce s x ∧ s.poisoned (benchBase + off.toNat) = false) :=
  ⟨⟨(region 5 up).setByte 0x10080005 7, 5, 0x80004, 4,
      { master := 5, kind := 0, off := 0x80004, len := 4, data := [], mark := false, other := none }, by decide +kernel⟩,
    ⟨region 5 up, 5, 0x80004, [1, 2, 3, 4], false,
      { master := 5, kind := 1, off := 0x80004, len := 4, data := [1, 2, 3, 4], mark := false, other := none }, by decide +kernel⟩,
    ⟨(region 5 up).setPoison 0x10080005 true, 5, 0x80004, [1],
      { master := 5, kind := 1, off := 0x80004, len := 1, data := [1], mark := false, other := none }, by decide +kernel⟩,
    ⟨region 22 up, 22, 0x80004, [1, 2, 3, 4],
      { master := 22, kind := 1, off := 0x80004, len := 4, data := [1, 2, 3, 4], mark := true, other := none }, by decide +kernel⟩,
    ⟨region 5 (region 22 up), 22, 5, 0x80004, 0x80006, [1, 2, 3, 4], [5, 6],
      { master := 22, kind := 1, off := 0x80004, len := 4, data := [1, 2, 3, 4], mark := false, other := some (5, 1, 0x80006, [5, 6]) },
      { master := 5, kind := 1, off := 0x80006, len := 2, data := [5, 6], mark := false, other := none }, by decide +kernel⟩,
    ⟨up, 5, 0x80004, [1], false, { master := 5, kind := 1, off := 0x80004, len := 1, data := [1], mark := false, other := none },
      by decide +kernel⟩,
    ⟨up, 5, 0x80004, 4, { master := 5, kind := 0, off := 0x80004, len := 4, data := [], mark := false, other := none },
      by decide +kernel⟩,
    ⟨region 5 up, 5, true, 0x80004, [1],
      { master := 5, kind := 3, off := 0x80004, len := 1, data := [1], mark := false, other := none }, by decide +kernel⟩,
    ⟨((region 5 up).wr .BENCH_RGN_BASE_ALIAS 1 0 40).setByte 0x10080005 7, 5, true, 0x80004, [1, 2, 3, 4],
      { master := 5, kind := 3, off := 0x80004, len := 4, data := [1, 2, 3, 4], mark := false, other := none }, by decide +kernel⟩,
    ⟨((region 5 up).wr .BENCH_RGN_BASE_ALIAS 1 0 40).setPoison 0x10080005 true, 5, false, 0x80004, [1],
      { master := 5, kind := 2, off := 0x80004, len := 1, data := [1], mark := false, other := none }, by decide +kernel⟩,
    ⟨(region 5 up).wr .BENCH_BPWR_STAT_STATE 1 0 0 2, 5, 0x80004, 4,
      { master := 5, kind := 0, off := 0x80004, len := 4, data := [], mark := false, other := none }, by decide +kernel⟩,
    ⟨(region 5 up).wr .BENCH_BPWR_STAT_STATE 2 0 0 2, 5, 0x80004, [1, 2], false,
      { master := 5, kind := 1, off := 0x80004, len := 2, data := [1, 2], mark := false, other := none }, by decide +kernel⟩,
    ⟨((region 5 up).wr .BENCH_RGN_BASE_ALIAS 1 0 40).wr .BENCH_BPWR_STAT_STATE 2 0 0 2, 5, false, 0x80004, [1],
      { master := 5, kind := 2, off := 0x80004, len := 1, data := [1], mark := false, other := none }, by decide +kernel⟩,
    ⟨{ (region 5 up).wr .BENCH_BPWR_STAT_STATE 1 0 0 2 with ben := { held := [{ master := 5, kind := 0, off := 0x80004, len := 4, data := [], mark := false, other := none }] } },
      2, { master := 5, kind := 0, off := 0x80004, len := 4, data := [], mark := false, other := none }, by decide +kernel⟩,
    ⟨region 5 up, 5, 0x80006, 2, { master := 5, kind := 0, off := 0x80006, len := 2, data := [], mark := false, other := none },
      by decide +kernel⟩⟩

theorem witness_BenchHealthAndPower :
    (∃ (s : State) (off : BitVec 22) (r : Fin 3), s.dev = .up ∧ (max (Store.get 0 s.ben.flaws (off.toNat / 4)) r.val = 0 ∨ benchState s
      (off.toNat / 0x40000) ≠ 0 ∨ benchHealth s (off.toNat / 0x40000) = 3 ∨ thermalLimit s = true)) ∧
    (∃ (s : State) (off : BitVec 22), s.dev = .up ∧ s.poisoned (benchBase + off.toNat) = true) ∧
    (∃ (s : State) (off : BitVec 22) (r : Fin 3), s.dev = .up ∧ max (Store.get 0 s.ben.flaws (off.toNat / 4)) r.val = 1 ∧ s.poisoned
      (benchBase + off.toNat) = false ∧ benchState s (off.toNat / 0x40000) = 0 ∧ benchHealth s (off.toNat / 0x40000) ≠ 3 ∧
      thermalLimit s = false) ∧
    (∃ (s : State) (off : BitVec 22) (r : Fin 3), s.dev = .up ∧ 2 ≤ max (Store.get 0 s.ben.flaws (off.toNat / 4)) r.val ∧ s.poisoned
      (benchBase + off.toNat) = false ∧ benchState s (off.toNat / 0x40000) = 0 ∧ benchHealth s (off.toNat / 0x40000) ≠ 3 ∧
      thermalLimit s = false) ∧
    (∃ (s : State) (b : Fin 17), s.dev = .up ∧ b.val < 16 ∧ benchHealth s b.val = 0) ∧
    (∃ (s : State) (b : Fin 17), s.dev = .up ∧ b.val < 16 ∧ benchHealth s b.val ≠ 0) ∧
    (∃ (s : State), s.dev = .up ∧ spareBench s < 16 ∧ benchHealth s (spareBench s) ≠ 3) ∧
    (∃ (s : State) (b : Fin 16), s.dev = .up ∧ benchMode s b.val = 1 ∧ benchState s b.val = 0 ∧ (benchRest s b.val = 1 ∨ benchRest s
      b.val = 2)) ∧
    (∃ (s : State) (m : Master), MayWrite s .bench 0 m ∧ m.val ≤ 2) ∧
    (∃ (s : State) (m : Master), s.dev = .up ∧ 2 < m.val) ∧
    (∃ (s : State) (b : Fin 16), s.dev = .up ∧ benchState s b.val ≠ 0 ∧ benchState s b.val ≠ 3 ∧ benchRest s b.val = 0 ∧ s.ben.held =
      []) ∧
    (∃ (s : State) (b : Fin 16), s.dev = .up ∧ benchState s b.val = 3 ∧ benchMode s b.val ≠ 2 ∧ s.rd .POWER_STATUS_DSTATE < 2) :=
  ⟨⟨up, 0x80004, 0, by decide +kernel⟩,
    ⟨up.setPoison 0x10080004 true, 0x80004, by decide +kernel⟩,
    ⟨{ up with ben := { flaws := [(0x20001, 1)] } }, 0x80004, 0, by decide +kernel⟩,
    ⟨{ up with ben := { flaws := [(0x20001, 1)] } }, 0x80006, 2, by decide +kernel⟩,
    ⟨up.wr .BENCH_STATUS_SPARE_COVER 3, 5, by decide +kernel⟩,
    ⟨up.wr .BENCH_BENCH_HEALTH_HEALTH 1 0 0 5, 5, by decide +kernel⟩,
    ⟨up.wr .BENCH_STATUS_SPARE_COVER 5, by decide +kernel⟩,
    ⟨{ up.wr .BENCH_BPWR_CFG_MODE 1 0 0 5 with osc := 1000000000 }, 5, by decide +kernel⟩,
    ⟨up.setByte 0x10080000 7, 1, by decide +kernel⟩,
    ⟨up, 5, by decide +kernel⟩,
    ⟨up.wr .BENCH_BPWR_STAT_STATE 1 0 0 2, 2, by decide +kernel⟩,
    ⟨up.wr .BENCH_BPWR_STAT_STATE 3 0 0 2, 2, by decide +kernel⟩⟩

theorem witness_BenchTests :
    (∃ (s : State) (m : Master) (b : Fin 32), MayWrite s .bench 0 m ∧ m.val ≤ 2 ∧ s.rd .BENCH_STATUS_SPARE_FREE ≠ 0 ∧ s.rd
      .BENCH_STATUS_BIST_BUSY ≠ 1 ∧ b.val < 16 ∧ s.rd .BENCH_BIST_RANGE_FIRST ≤ s.rd .BENCH_BIST_RANGE_LAST ∧ benchState s b.val ≠ 3
      ∧ benchHealth s b.val < 2) ∧
    (∃ (s : State) (m : Master), MayWrite s .bench 0 m ∧ m.val ≤ 2 ∧ s.rd .BENCH_STATUS_SPARE_FREE = 0) ∧
    (∃ (s : State), s.dev = .up ∧ bistPhase s = 1) ∧
    (∃ (s : State), s.dev = .up ∧ bistPhase s = 2) ∧
    (∃ (s : State), s.dev = .up ∧ bistPhase s = 2 ∧ s.ben.bist < 16) ∧
    (∃ (s : State), s.dev = .up ∧ bistPhase s = 3 ∧ s.ben.next = none) ∧
    (∃ (s : State) (b : Nat), s.dev = .up ∧ bistPhase s = 3 ∧ s.ben.next = some b) ∧
    (∃ (s : State) (m : Master), MayWrite s .bench 0 m ∧ m.val ≤ 2 ∧ bistPhase s = 1) ∧
    (∃ (s : State) (m : Master), MayWrite s .bench 0 m ∧ m.val ≤ 2 ∧ bistPhase s = 2) ∧
    (∃ (s : State) (b : Fin 32), MayWrite s .bench 0 2 ∧ b.val < 16 ∧ spareTaken s b.val = false ∧ bistPhase s ≠ 4 ∧ (bistPhase s = 0 ∨
      3 < bistPhase s ∨ s.ben.bist = b.val) ∧ benchState s b.val ≠ 3 ∧ benchHealth s b.val < 2 ∧ s.rd .BENCH_BIST_CTL_AUTO_REPLACE <
      2) ∧
    (∃ (s : State) (b : Fin 32), MayWrite s .bench 0 2 ∧ b.val < 16 ∧ bistPhase s = 3 ∧ s.ben.aborted = true ∧ s.ben.bist ≠ b.val ∧
      benchHealth s b.val = 1 ∧ s.ben.next = none ∧ s.rd .BENCH_BIST_CTL_AUTO_REPLACE < 2) ∧
    (∃ (s : State) (m : Master), MayWrite s .bench 0 m ∧ m.val ≠ 2) ∧
    (∃ (s : State), s.dev = .up ∧ bistPhase s = 4 ∧ s.ben.bist < 16) :=
  ⟨⟨spareUp, 1, 5, by decide +kernel⟩,
    ⟨up.wr .BENCH_STATUS_SPARE_FREE 0, 1, by decide +kernel⟩,
    ⟨bistUp 1, by decide +kernel⟩,
    ⟨bistUp 2, by decide +kernel⟩,
    ⟨bistUp 2, by decide +kernel⟩,
    ⟨bistUp 3, by decide +kernel⟩,
    ⟨{ bistUp 3 with ben := { bist := 6, aborted := true, next := some 5 } }, 5, by decide +kernel⟩,
    ⟨bistUp 1, 1, by decide +kernel⟩,
    ⟨bistUp 2, 1, by decide +kernel⟩,
    ⟨spareUp, 5, by decide +kernel⟩,
    ⟨{ (bistUp 3).wr .BENCH_BENCH_HEALTH_HEALTH 1 0 0 6 with ben := { bist := 5, aborted := true } }, 6, by decide +kernel⟩,
    ⟨spareUp, 1, by decide +kernel⟩,
    ⟨bistUp 4, by decide +kernel⟩⟩

theorem witness_PortCommandCodes :
    (∃ (s : State) (j : Fin 2), s.dev = .up ∧ portOn s j.val = true) ∧
    (∃ (s : State) (j : Fin 2), s.dev = .up ∧ portOn s j.val = true) ∧
    (∃ (s : State) (j : Fin 2), s.dev = .up ∧ portOn s j.val = true) ∧
    (∃ (s : State) (j : Fin 2), s.dev = .up ∧ portOn s j.val = true) ∧
    (∃ (s : State) (j : Fin 2), s.dev = .up ∧ portOn s j.val = true ∧ s.rd .I3C_STATUS_DA_VALID j.val = 0) ∧
    (∃ (s : State) (j : Fin 2) (a : Option (BitVec 7)), s.dev = .up ∧ portOn s j.val = true ∧ (s.rd .I3C_STATUS_DA_VALID j.val ≠ 0 ∨ a =
      none)) ∧
    (∃ (s : State) (j : Fin 2), s.dev = .up ∧ portOn s j.val = true) ∧
    (∃ (s : State) (j : Fin 2), s.dev = .up ∧ portOn s j.val = true) ∧
    (∃ (s : State) (j : Fin 2), s.dev = .up ∧ portOn s j.val = true) ∧
    (∃ (s : State) (j : Fin 2), s.dev = .up ∧ portOn s j.val = true) ∧
    (∃ (s : State) (j : Fin 2), s.dev = .up ∧ portOn s j.val = true ∧ s.addrPins < 8) ∧
    (∃ (s : State) (j : Fin 2), s.dev = .up ∧ portOn s j.val = true) ∧
    (∃ (s : State) (j : Fin 2), s.dev = .up ∧ portOn s j.val = true ∧ s.rd .I3C_STATUS_DA_VALID j.val = 1) ∧
    (∃ (s : State) (j : Fin 2) (b : Byte), s.dev = .up ∧ portOn s j.val = true ∧ b.toNat ≠ 2 ∧ b.toNat ≠ 0x81 ∧ b.toNat ≠ 0x82) ∧
    (∃ (s : State) (j : Fin 2), s.dev = .up ∧ portOn s j.val = true) ∧
    (∃ (s : State) (j : Fin 2), s.dev = .up ∧ portOn s j.val = true ∧ s.rd .I3C_STATUS_DA_VALID j.val = 1) ∧
    (∃ (s : State) (j : Fin 2), s.dev = .up ∧ portOn s j.val = true ∧ s.rd .I3C_STATUS_DA_VALID j.val = 1) ∧
    (∃ (s : State) (j : Fin 2), s.dev = .up ∧ portOn s j.val = true ∧ s.rd .I3C_STATUS_DA_VALID j.val = 1) ∧
    (∃ (s : State) (j : Fin 2), s.dev = .up ∧ portOn s j.val = true ∧ s.rd .I3C_STATUS_DA_VALID j.val = 1) ∧
    (∃ (s : State) (j : Fin 2), s.dev = .up ∧ portOn s j.val = true ∧ s.rd .I3C_STATUS_DA_VALID j.val = 1) ∧
    (∃ (s : State) (j : Fin 2), s.dev = .up ∧ portOn s j.val = true ∧ s.rd .I3C_STATUS_DA_VALID j.val = 1) ∧
    (∃ (s : State) (j : Fin 2), s.dev = .up ∧ portOn s j.val = true ∧ s.rd .I3C_STATUS_DA_VALID j.val = 1) ∧
    (∃ (s : State) (j : Fin 2), s.dev = .up ∧ portOn s j.val = true ∧ s.rd .I3C_STATUS_DA_VALID j.val = 1) ∧
    (∃ (s : State) (i : Instr) (j : Nat), s.dev = .up ∧ portTransfer i = some j ∧ portOn s j = false) :=
  ⟨⟨up, 1, by decide +kernel⟩,
    ⟨up, 1, by decide +kernel⟩,
    ⟨up, 1, by decide +kernel⟩,
    ⟨addrUp, 1, by decide +kernel⟩,
    ⟨up.wr .I3C_STATUS_DA_VALID 0 1, 1, by decide +kernel⟩,
    ⟨addrUp, 1, some 0x2A, by decide +kernel⟩,
    ⟨up, 1, by decide +kernel⟩,
    ⟨up, 1, by decide +kernel⟩,
    ⟨up, 1, by decide +kernel⟩,
    ⟨up.wr .I3C_STATUS_HDR 1 1, 1, by decide +kernel⟩,
    ⟨{ up with addrPins := 5 }, 1, by decide +kernel⟩,
    ⟨up, 1, by decide +kernel⟩,
    ⟨addrUp, 1, by decide +kernel⟩,
    ⟨addrUp.wr .I3C_STATUS_SECURE 1 1, 1, 1, by decide +kernel⟩,
    ⟨up, 1, by decide +kernel⟩,
    ⟨addrUp, 1, by decide +kernel⟩,
    ⟨addrUp, 1, by decide +kernel⟩,
    ⟨addrUp, 1, by decide +kernel⟩,
    ⟨addrUp, 1, by decide +kernel⟩,
    ⟨addrUp, 1, by decide +kernel⟩,
    ⟨addrUp, 1, by decide +kernel⟩,
    ⟨addrUp, 1, by decide +kernel⟩,
    ⟨addrUp |> (fun s => s.setPort 1 { s.port 1 with protoErr := true }), 1, by decide +kernel⟩,
    ⟨up.wr .I3C_LINK_CFG_EN 0 1, .getpid 1, 1, by decide +kernel⟩⟩

theorem witness_PortFrames :
    (∃ (s : State) (j : Fin 2) (fr : List Byte) (wire : Fin 3) (e : Nat), s.dev = .up ∧ portOn s j.val = true ∧ e = (if wire.val = 2
      then 2 else frameError s j.val fr (wire.val == 1)) ∧ e ≠ 0) ∧
    (∃ (s : State) (j : Fin 2) (fr : List Byte) (wire : Fin 3) (e : Nat), s.dev = .up ∧ portOn s j.val = true ∧ e = (if wire.val = 2
      then 2 else frameError s j.val fr (wire.val == 1)) ∧ e ≠ 0) ∧
    (∃ (s : State) (j : Fin 2) (fr : List Byte) (wire : Fin 3) (e : Nat), s.dev = .up ∧ portOn s j.val = true ∧ e = (if wire.val = 2
      then 2 else frameError s j.val fr (wire.val == 1)) ∧ e ≠ 0) ∧
    (∃ (s : State) (j : Fin 2) (fr : List Byte), s.dev = .up ∧ portOn s j.val = true ∧ frameError s j.val fr false = 0 ∧ (parseFrame
      fr).op = 0 ∧ (parseFrame fr).body = []) ∧
    (∃ (s : State) (j : Fin 2) (fr : List Byte), s.dev = .up ∧ portOn s j.val = true ∧ frameError s j.val fr false = 0 ∧ (parseFrame
      fr).op = 0 ∧ (parseFrame fr).addr = 0x20000058 ∧ (parseFrame fr).body.length = 4 ∧ accessOk s .sys 0 j.val true = true) ∧
    (∃ (s : State) (j : Fin 2), s.dev = .up ∧ portOn s j.val = true ∧ (s.port j.val).memLast = false ∧ pointer s j.val = 0x20000058 ∧
      accessOk s .sys 0 j.val false = true ∧ (4 ≤ s.rd .I3C_LIMITS_MRL j.val ∨ s.rd .I3C_STATUS_I2C_MODE j.val = 1)) ∧
    (∃ (s : State) (j : Fin 2) (fr : List Byte), s.dev = .up ∧ portOn s j.val = true ∧ frameError s j.val fr false = 0 ∧ (parseFrame
      fr).op = 1 ∧ tunnelBusy s j.val = false) ∧
    (∃ (s : State) (j : Fin 2) (fr : List Byte), s.dev = .up ∧ portOn s j.val = true ∧ frameError s j.val fr false = 0 ∧ (parseFrame
      fr).op = 1 ∧ tunnelBusy s j.val = true) ∧
    (∃ (s : State) (j : Fin 2) (fr : List Byte), s.dev = .up ∧ portOn s j.val = true ∧ frameError s j.val fr false = 0 ∧ (parseFrame
      fr).op = 2 ∧ tunnelBusy s j.val = false) ∧
    (∃ (s : State) (j : Fin 2) (fr : List Byte), s.dev = .up ∧ portOn s j.val = true ∧ frameError s j.val fr false = 0 ∧ (parseFrame
      fr).op = 2 ∧ tunnelBusy s j.val = true) ∧
    (∃ (s : State) (j : Fin 2), s.dev = .up ∧ CleanCells s ∧ Unwaited s j.val ∧ tunnelBusy s j.val = true ∧ tunnelMay s j.val = true ∧
      (s.port j.val).tun = .write ∧ 0 < (s.port j.val).tunData.length ∧ InMemory s (s.port j.val).tunAddr (s.port
      j.val).tunData.length ∧ memAllowed s j.val .write (s.port j.val).tunAddr (s.port j.val).tunData.length = true ∧ s.anyPoison
      (s.port j.val).tunAddr (s.port j.val).tunData.length = false) ∧
    (∃ (s : State) (j : Fin 2), s.dev = .up ∧ CleanCells s ∧ Unwaited s j.val ∧ tunnelBusy s j.val = true ∧ tunnelMay s j.val = true ∧
      (s.port j.val).tun = .fetch ∧ 0 < (s.port j.val).tunLen ∧ InMemory s (s.port j.val).tunAddr (s.port j.val).tunLen ∧ memAllowed
      s j.val .read (s.port j.val).tunAddr (s.port j.val).tunLen = true ∧ s.anyPoison (s.port j.val).tunAddr (s.port j.val).tunLen =
      false) ∧
    (∃ (s : State) (j : Fin 2), s.dev = .up ∧ Unwaited s j.val ∧ tunnelBusy s j.val = true ∧ tunnelMay s j.val = true ∧ (s.port
      j.val).tun = .fetch ∧ 0 < (s.port j.val).tunLen ∧ inBench (s.port j.val).tunAddr (s.port j.val).tunLen = true ∧ memAllowed s
      j.val .read (s.port j.val).tunAddr (s.port j.val).tunLen = false) ∧
    (∃ (s : State) (j : Fin 2), s.dev = .up ∧ Unwaited s j.val ∧ tunnelBusy s j.val = true ∧ tunnelMay s j.val = true ∧ (s.port
      j.val).tun = .write ∧ 0 < (s.port j.val).tunData.length ∧ inBench (s.port j.val).tunAddr (s.port j.val).tunData.length = true
      ∧ memAllowed s j.val .write (s.port j.val).tunAddr (s.port j.val).tunData.length = false) ∧
    (∃ (s : State) (j : Fin 2), s.dev = .up ∧ tunnelBusy s j.val = true ∧ tunnelMay s j.val = true ∧ (s.port j.val).tun = .fetch ∧
      (inRegisters (s.port j.val).tunAddr = true ∨ (quarryBase ≤ (s.port j.val).tunAddr ∧ s.rd .SYS_STATUS_READY = 0))) ∧
    (∃ (s : State) (j : Fin 2), s.dev = .up ∧ tunnelBusy s j.val = true ∧ tunnelMay s j.val = true ∧ (s.port j.val).tun = .write ∧
      (inRegisters (s.port j.val).tunAddr = true ∨ (quarryBase ≤ (s.port j.val).tunAddr ∧ s.rd .SYS_STATUS_READY = 0))) ∧
    (∃ (s : State) (j : Fin 2) (n : Fin 256), s.dev = .up ∧ portOn s j.val = true ∧ (s.port j.val).memLast = true ∧ 0 < n.val) :=
  ⟨⟨up, 1, [0x60, 0, 0, 0, 0, 0], 0, 2, by decide +kernel⟩,
    ⟨up, 1, [0x01, 0x00, 0, 0x08, 0x10, 0, 1], 1, 7, by decide +kernel⟩,
    ⟨up, 1, [0x02, 0x00, 0, 0x08, 0x10, 0, 1], 2, 2, by decide +kernel⟩,
    ⟨up, 1, [0x08, 0x58, 0, 0, 0x20, 0], by decide +kernel⟩,
    ⟨up, 1, [0x00, 0x58, 0, 0, 0x20, 0, 1, 2, 3, 4], by decide +kernel⟩,
    ⟨setPointer 1 0x20000058 1 up, 1, by decide +kernel⟩,
    ⟨up, 1, [0x01, 0x00, 0, 0x08, 0x10, 0, 1, 2, 3, 4], by decide +kernel⟩,
    ⟨tunUp .write, 1, [0x01, 0x00, 0, 0x08, 0x10, 0, 1, 2, 3, 4], by decide +kernel⟩,
    ⟨up, 1, [0x02, 0x00, 0, 0x08, 0x10, 0, 7], by decide +kernel⟩,
    ⟨tunUp .write, 1, [0x02, 0x00, 0, 0x08, 0x10, 0, 7], by decide +kernel⟩,
    ⟨tunUp .write, 1, by decide +kernel⟩,
    ⟨tunUp .fetch, 1, by decide +kernel⟩,
    ⟨(tunUp .fetch).wr .BENCH_RGN_BASE_EN 0 0 8, 1, by decide +kernel⟩,
    ⟨(tunUp .write).wr .BENCH_RGN_BASE_EN 0 0 8, 1, by decide +kernel⟩,
    ⟨(tunUp .fetch).setPort 1 { tun := .fetch, tunAddr := 0x20000058, tunLen := 4 }, 1, by decide +kernel⟩,
    ⟨(tunUp .write).setPort 1 { tun := .write, tunAddr := 0x1000000000, tunLen := 1, tunData := [1] }, 1, by decide +kernel⟩,
    ⟨(tunUp .fetch).wr .I3C_STATUS_TUN_BUSY 0 1 |> (fun s => (s.wr .I3C_STATUS_I2C_MODE 0 1).setPort 1
      { s.port 1 with memLast := true }), 1, 4, by decide +kernel⟩⟩

theorem witness_PortHealth :
    (∃ (s : State) (j : Fin 2) (mdb : Nat) (load : Nat), s.dev = .up ∧ portOn s j.val = true ∧ ibiReady s j.val = true ∧ ibiCause s
      j.val = some (mdb, load)) ∧
    (∃ (s : State) (j : Fin 2), s.dev = .up ∧ portOn s j.val = true ∧ ibiReady s j.val = true) ∧
    (∃ (s : State) (j : Fin 2) (wd : Bool), s.dev = .up ∧ (wd = false ∨ watchdogOver s j.val = true) ∧ s.rd .I3C_STATUS_HEALTHY j.val ≠
      0) ∧
    (∃ (s : State) (j : Fin 2), s.dev = .up ∧ s.rd .I3C_STATUS_HEALTHY j.val = 0) ∧
    (∃ (s : State) (j : Fin 2), s.dev = .up ∧ portOn s j.val = true) ∧
    (∃ (s : State) (m : Master) (j : Fin 2), MayWrite s .i3c j.val m ∧ m.val = j.val ∧ (s.rd .I3C_STATUS_HEALTHY (1 - j.val) ≠ 1 ∨ s.rd
      .I3C_STATUS_SECURE j.val ≠ 0)) ∧
    (∃ (s : State) (m : Master) (j : Fin 2), MayWrite s .i3c j.val m ∧ (m.val ≠ j.val ∨ (s.rd .I3C_STATUS_HEALTHY (1 - j.val) = 1 ∧ s.rd
      .I3C_STATUS_SECURE j.val = 0))) ∧
    (∃ (s : State) (j : Fin 2), s.dev = .up ∧ (s.port j.val).adopting = true) :=
  ⟨⟨addrUp |> (fun s => s.setPort 1 { s.port 1 with linkIbi := true }), 1, 2, 0, by decide +kernel⟩,
    ⟨addrUp |> (fun s => s.setPort 1 { s.port 1 with linkIbi := true }), 1, by decide +kernel⟩,
    ⟨up.wr .I3C_STATUS_SECURE 1 1, 1, false, by decide +kernel⟩,
    ⟨up.wr .I3C_STATUS_HEALTHY 0 1, 1, by decide +kernel⟩,
    ⟨up, 1, by decide +kernel⟩,
    ⟨up.wr .I3C_STATUS_HEALTHY 0 1, 0, 0, by decide +kernel⟩,
    ⟨up.wr .I3C_STATUS_HEALTHY 1 1, 0, 0, by decide +kernel⟩,
    ⟨((((up.wr .TBASE_LC_CTRL_CLAIMED 1 0 3).wr .TBASE_LC_CTRL_OWNER 1 0 3).wr .OWNER_LOCK 1 5 (Page.code .cse)).wr .OWNER_MASTER 1 5
      (Page.code .cse)).setPort 0 { adopting := true }, 0, by decide +kernel⟩⟩

theorem witness_RegisterAccesses :
    (∃ (s : State) (m : Master) (a : BitVec 24) (p : Page) (inst : Nat), s.dev = .up ∧ pageAt (regAddr a) = some (p, inst) ∧ assigned s
      p inst (regAddr a % 0x1000 / 4 * 4) m.val = false) ∧
    (∃ (s : State) (a : BitVec 24), s.dev = .up ∧ pageAt (regAddr a) = none) ∧
    (∃ (s : State) (m : Master) (a : BitVec 24) (p : Page) (inst : Nat), s.dev = .up ∧ pageAt (regAddr a) = some (p, inst) ∧ assigned s
      p inst (regAddr a % 0x1000 / 4 * 4) m.val = true ∧ accessOk s p inst m.val true = false) ∧
    (∃ (s : State) (m : Master), MayWrite s .sys 0 m) ∧
    (∃ (s : State) (m : Master) (c : Chan) (a : BitVec 24), MayWrite s .cse c.val m ∧ a.toNat = 0x6004C + 0x1000 * c.val) ∧
    (∃ (s : State) (m : Master) (a : BitVec 24) (p : Page) (inst : Nat), s.dev = .up ∧ pageAt (regAddr a) = some (p, inst) ∧ regAddr a %
      0x1000 = 0x1C ∧ accessOk s p inst m.val false = true) ∧
    (∃ (s : State) (m : Master), s.dev = .up ∧ accessOk s .tbase 0 m.val false = true) ∧
    (∃ (s : State) (m : Master) (v : Nat), s.dev = .up ∧ accessOk s .tbase 0 m.val false = true ∧ Store.get none s.held m.val = some
      (0x2000404C, v) ∧ v < 2 ^ 32) ∧
    (∃ (s : State) (m : Master), s.dev = .up ∧ accessOk s .tbase 0 m.val false = true ∧ Store.get none s.held m.val = none) ∧
    (∃ (s : State) (m : Master) (a : Addr) (data : List Byte), s.dev = .up ∧ CleanCells s ∧ 0 < data.length ∧ (inBench a.toNat
      data.length = true ∨ (inWave s a.toNat data.length = true ∧ s.mustRetry a.toNat = false ∧ quarryHeld s = false)) ∧ busAllowed
      s m.val a.toNat data.length true = true ∧ Unwaited s m.val ∧ s.anyPoison a.toNat data.length = false) ∧
    (∃ (s : State) (m : Master) (a : Addr) (n : BitVec 12), s.dev = .up ∧ CleanCells s ∧ 0 < n.toNat ∧ (inBench a.toNat n.toNat = true ∨
      (inWave s a.toNat n.toNat = true ∧ s.mustRetry a.toNat = false ∧ quarryHeld s = false)) ∧ busAllowed s m.val a.toNat n.toNat
      false = true ∧ Unwaited s m.val ∧ s.anyPoison a.toNat n.toNat = false) ∧
    (∃ (s : State) (m : Master) (a : Addr) (data : List Byte) (x : BusWait), s.dev = .up ∧ x =
      { master := m.val, addr := a.toNat, len := data.length, data := some data, at_ := s.osc } ∧ allRegisters a.toNat data.length =
      false ∧ busAllowed s m.val a.toNat data.length true = true ∧ busWaits s x = true) ∧
    (∃ (s : State) (m : Master) (a : Addr) (n : BitVec 12) (x : BusWait), s.dev = .up ∧ x =
      { master := m.val, addr := a.toNat, len := n.toNat, data := none, at_ := s.osc } ∧ allRegisters a.toNat n.toNat = false ∧
      busAllowed s m.val a.toNat n.toNat false = true ∧ busWaits s x = true) ∧
    (∃ (s : State) (m : Master) (a : Addr) (data : List Byte), s.dev = .up ∧ 0 < data.length ∧ inBench a.toNat data.length = true ∧
      busAllowed s m.val a.toNat data.length true = false) ∧
    (∃ (s : State) (m : Master) (a : Addr) (n : BitVec 12), s.dev = .up ∧ 0 < n.toNat ∧ inBench a.toNat n.toNat = true ∧ busAllowed s
      m.val a.toNat n.toNat false = false) ∧
    (∃ (s : State) (a : Addr) (n : BitVec 12), s.dev = .up ∧ 0 < n.toNat ∧ 0x40000 ≤ a.toNat ∧ mapped a.toNat = false ∧ s.rd
      .QUARRY_CAPACITY_WAVE_GIB ≤ 48) ∧
    (∃ (s : State) (a : Addr) (data : List Byte), s.dev = .up ∧ 0 < data.length ∧ 0x40000 ≤ a.toNat ∧ mapped a.toNat = false ∧ s.rd
      .QUARRY_CAPACITY_WAVE_GIB ≤ 48) ∧
    (∃ (s : State) (m : Master) (lo : Fin 4) (a : Addr) (data : List Byte), MayWrite s .sys 0 m ∧ a.toNat = 0x20000058 + lo.val ∧ 0 <
      data.length ∧ lo.val + data.length ≤ 4 ∧ Inv s) ∧
    (∃ (s : State) (m : Master) (lo : Fin 4) (a : Addr) (n : BitVec 12), s.dev = .up ∧ accessOk s .sys 0 m.val false = true ∧ a.toNat =
      0x20000058 + lo.val ∧ 0 < n.toNat ∧ lo.val + n.toNat ≤ 4 ∧ Inv s) :=
  ⟨⟨up, 5, 0x4030, .tbase, 0, by decide +kernel⟩,
    ⟨up, 0xFFF000, by decide +kernel⟩,
    ⟨(up.wr .OWNER_LOCK 1 0 (Page.code .tbase)), 5, 0x4040, .tbase, 0, by decide +kernel⟩,
    ⟨up, 5, by decide +kernel⟩,
    ⟨up, 5, 7, 0x6704C, by decide +kernel⟩,
    ⟨(up.wr .ERR_CODE_CODE 4 7 (Page.code .cse)).wr .ERR_CODE_WORD 0x11 7 (Page.code .cse), 5, 0x6701C, .cse, 7, by decide +kernel⟩,
    ⟨{ up with now := 0x1234500000000 }, 5, by decide +kernel⟩,
    ⟨{ up with held := [(5, some (0x2000404C, 7))] }, 5, 7, by decide +kernel⟩,
    ⟨{ up with now := 0x1234500000000 }, 5, by decide +kernel⟩,
    ⟨region 1 up, 1, 0x10080003, [1, 2, 3, 4, 5], by decide +kernel⟩,
    ⟨(region 1 up).setByte 0x10080004 9, 1, 0x10080003, 5, by decide +kernel⟩,
    ⟨{ region 1 up with qry := { waiting := [{ master := 1, addr := 0x10080000, len := 1, data := none, at_ := 0 }] } }, 1, 0x10080003,
      [1], { master := 1, addr := 0x10080003, len := 1, data := some [1], at_ := 0 }, by decide +kernel⟩,
    ⟨{ region 1 up with qry := { waiting := [{ master := 1, addr := 0x10080000, len := 1, data := none, at_ := 0 }] } }, 1, 0x10080003,
      5, { master := 1, addr := 0x10080003, len := 5, data := none, at_ := 0 }, by decide +kernel⟩,
    ⟨up, 5, 0x10080003, [1, 2], by decide +kernel⟩,
    ⟨region 5 up, 5, 0x10080003, 2, by decide +kernel⟩,
    ⟨up, 0x3000000000, 4, by decide +kernel⟩,
    ⟨up, 0x3000000000, [4], by decide +kernel⟩,
    ⟨up.wr .SYS_SCRATCH_DATA 0x01020304, 5, 1, 0x20000059, [7, 8], by decide +kernel, by decide +kernel, by decide +kernel,
      by decide +kernel, inv_of_fits (by decide +kernel)⟩,
    ⟨up.wr .SYS_SCRATCH_DATA 0x01020304, 5, 1, 0x20000059, 2, by decide +kernel, by decide +kernel, by decide +kernel,
      by decide +kernel, by decide +kernel, inv_of_fits (by decide +kernel)⟩⟩

theorem witness_CommonLayout :
    (∃ (s : State) (m : Master) (p : Page) (inst : Chan), MayWrite s p inst.val m ∧ pageExists p inst.val = true ∧ writerOk s p 0x10
      m.val = true) ∧
    (∃ (s : State) (m : Master) (p : Page) (inst : Chan) (pend : Bool), MayWrite s p inst.val m ∧ pageExists p inst.val = true ∧
      writerOk s p (if pend then 0x14 else 0x0C) m.val = true) ∧
    (∃ (s : State) (m : Master) (p : Page) (inst : Chan) (sec : Bool), MayWrite s p inst.val m ∧ pageExists p inst.val = true ∧ writerOk
      s p 0x18 m.val = true ∧ (s.rd .OWNER_SEC inst.val p.code = (if sec then 1 else 0) ∨ secureMaster s m.val = true) ∧ s.rd
      .OWNER_LOCK inst.val p.code ≠ 1) ∧
    (∃ (s : State) (m : Master) (p : Page) (inst : Chan) (sec : Bool), MayWrite s p inst.val m ∧ pageExists p inst.val = true ∧ writerOk
      s p 0x18 m.val = true ∧ (s.rd .OWNER_SEC inst.val p.code = (if sec then 1 else 0) ∨ secureMaster s m.val = true) ∧ s.rd
      .OWNER_LOCK inst.val p.code = 1) ∧
    (∃ (s : State) (m : Master) (p : Page) (inst : Chan) (sec : Bool), MayWrite s p inst.val m ∧ pageExists p inst.val = true ∧ writerOk
      s p 0x18 m.val = true ∧ (s.rd .OWNER_SEC inst.val p.code = (if sec then 1 else 0) ∨ secureMaster s m.val = true)) ∧
    (∃ (s : State) (m : Master) (p : Page) (inst : Chan) (sec : Bool), MayWrite s p inst.val m ∧ pageExists p inst.val = true ∧ writerOk
      s p 0x18 m.val = true ∧ s.rd .OWNER_SEC inst.val p.code ≠ (if sec then 1 else 0) ∧ secureMaster s m.val = false) ∧
    (∃ (s : State) (m : Master) (p : Page) (inst : Chan), s.dev = .up ∧ pageExists p inst.val = true ∧ (accessOk s p inst.val m.val true
      = false ∨ writerOk s p 0x10 m.val = false)) ∧
    (∃ (s : State) (m : Master) (p : Page) (inst : Chan) (pend : Bool), s.dev = .up ∧ pageExists p inst.val = true ∧ (accessOk s p
      inst.val m.val true = false ∨ writerOk s p (if pend then 0x14 else 0x0C) m.val = false)) ∧
    (∃ (s : State) (m : Master) (p : Page) (inst : Chan), s.dev = .up ∧ pageExists p inst.val = true ∧ (accessOk s p inst.val m.val true
      = false ∨ writerOk s p 0x18 m.val = false)) :=
  ⟨⟨(up.wr .EVT_RAW_RAW 1 7 (Page.code .cse) 2), 5, .cse, 7, by decide +kernel⟩,
    ⟨(up.wr .EVT_RAW_RAW 1 7 (Page.code .cse) 2), 5, .cse, 7, true, by decide +kernel⟩,
    ⟨up, 5, .cse, 7, false, by decide +kernel⟩,
    ⟨(up.wr .OWNER_LOCK 1 7 (Page.code .cse)).wr .OWNER_MASTER 5 7 (Page.code .cse), 5, .cse, 7, false, by decide +kernel⟩,
    ⟨(up.wr .OWNER_LOCK 1 7 (Page.code .cse)).wr .OWNER_MASTER 5 7 (Page.code .cse), 5, .cse, 7, false, by decide +kernel⟩,
    ⟨up, 5, .cse, 7, true, by decide +kernel⟩,
    ⟨up, 5, .power, 0, by decide +kernel⟩,
    ⟨up.wr .OWNER_LOCK 1 0 (Page.code .sys), 5, .sys, 0, true, by decide +kernel⟩,
    ⟨up, 5, .power, 0, by decide +kernel⟩⟩

theorem witness_ShadowCommits :
    (∃ (s : State) (m : Master) (p : Page) (inst : Chan) (mode : Fin 4) (lc : Lc), MayWrite s p inst.val m ∧ pageExists p inst.val =
      true ∧ writerOk s p 0x20 m.val = true ∧ mode.val ≠ 0 ∧ mode.val ≠ 3 ∧ ((mode.val = 2 → p = .cse ∨ p = .out)) ∧ ((mode.val = 1
      → ownsLc s m.val lc.val = true)) ∧ s.rd .SHADOW_CMD_PENDING inst.val p.code ≠ 1) ∧
    (∃ (s : State) (m : Master) (p : Page) (inst : Chan), MayWrite s p inst.val m ∧ pageExists p inst.val = true ∧ writerOk s p 0x20
      m.val = true ∧ s.rd .SHADOW_CMD_PENDING inst.val p.code ≠ 1 ∧ Inv s) ∧
    (∃ (s : State) (m : Master) (p : Page) (inst : Chan) (mode : Fin 4) (lc : Lc), MayWrite s p inst.val m ∧ pageExists p inst.val =
      true ∧ writerOk s p 0x20 m.val = true ∧ ((mode.val = 1 → ownsLc s m.val lc.val = true)) ∧ (mode.val = 3 ∨ (mode.val = 2 ∧ p ≠
      .cse ∧ p ≠ .out) ∨ s.rd .SHADOW_CMD_PENDING inst.val p.code = 1)) ∧
    (∃ (s : State) (m : Master) (p : Page) (inst : Chan) (lc : Lc), MayWrite s p inst.val m ∧ pageExists p inst.val = true ∧ writerOk s
      p 0x20 m.val = true ∧ ownsLc s m.val lc.val = false) ∧
    (∃ (s : State) (m : Master) (p : Page) (inst : Chan) (x : Commit), MayWrite s p inst.val m ∧ pageExists p inst.val = true ∧ writerOk
      s p 0x20 m.val = true ∧ s.commits = [x] ∧ x.page = p ∧ x.inst = inst.val ∧ x.captured = false ∧ s.rd .SHADOW_CMD_MODE inst.val
      p.code < 4 ∧ s.rd .SHADOW_CMD_LC inst.val p.code < 64) ∧
    (∃ (s : State) (m : Master) (p : Page) (inst : Chan) (x : Commit), MayWrite s p inst.val m ∧ pageExists p inst.val = true ∧ writerOk
      s p 0x20 m.val = true ∧ s.commits = [x] ∧ x.captured = true ∧ s.rd .SHADOW_CMD_MODE inst.val p.code < 4 ∧ s.rd .SHADOW_CMD_LC
      inst.val p.code < 64) ∧
    (∃ (s : State) (c : Chan) (x : Commit), s.dev = .up ∧ s.commits = [x] ∧ x.page = .cse ∧ x.inst = c.val ∧ captureDue s x = true ∧ Inv
      s) ∧
    (∃ (s : State) (c : Chan) (x : Commit), s.dev = .up ∧ s.commits = [x] ∧ x.page = .cse ∧ x.inst = c.val ∧ commitDue s x = true ∧ Inv
      s) ∧
    (∃ (s : State) (c : Chan) (x : Commit), s.dev = .up ∧ s.commits = [x] ∧ x.page = .out ∧ x.inst = c.val ∧ commitDue s x = true ∧ Inv
      s) ∧
    (∃ (s : State) (m : Master) (p : Page) (inst : Chan), s.dev = .up ∧ pageExists p inst.val = true ∧ (accessOk s p inst.val m.val true
      = false ∨ writerOk s p 0x20 m.val = false)) ∧
    (∃ (s : State) (m : Master) (p : Page) (inst : Chan), s.dev = .up ∧ pageExists p inst.val = true ∧ (accessOk s p inst.val m.val true
      = false ∨ writerOk s p 0x20 m.val = false)) :=
  ⟨⟨up, 5, .cse, 7, 2, 3, by decide +kernel⟩,
    ⟨up.wr .CSE_GAIN_GAIN 5 7, 5, .cse, 7, by decide +kernel, by decide +kernel, by decide +kernel, by decide +kernel, inv_of_fits
      (by decide +kernel)⟩,
    ⟨up, 5, .tbase, 0, 2, 3, by decide +kernel⟩,
    ⟨up, 5, .cse, 7, 3, by decide +kernel⟩,
    ⟨{ up with commits := [{ page := .cse, inst := 7, mode := 2, lc := 0 }] }, 5, .cse, 7,
      { page := .cse, inst := 7, mode := 2, lc := 0 }, by decide +kernel⟩,
    ⟨{ up with commits := [{ page := .cse, inst := 7, mode := 1, lc := 0, captured := true }] }, 5, .cse, 7,
      { page := .cse, inst := 7, mode := 1, lc := 0, captured := true }, by decide +kernel⟩,
    ⟨{ armedLc 0 10 with commits := [{ page := .cse, inst := 7, mode := 1, lc := 3 }] }, 7,
      { page := .cse, inst := 7, mode := 1, lc := 3 }, by decide +kernel, by decide +kernel, by decide +kernel, by decide +kernel,
      by decide +kernel, inv_of_fits (by decide +kernel)⟩,
    ⟨{ (up.setClock 1 { running := true }).wr .CSE_GAIN_GAIN 5 7 |> (fun s => s.capture .CSE_GAIN_GAIN 7) with
      commits := [{ page := .cse, inst := 7, mode := 0, lc := 0, due := some 0, captured := true, late := true }] }, 7,
      { page := .cse, inst := 7, mode := 0, lc := 0, due := some 0, captured := true, late := true }, by decide +kernel,
      by decide +kernel, by decide +kernel, by decide +kernel, by decide +kernel, inv_of_fits (by decide +kernel)⟩,
    ⟨{ (up.setClock 1 { running := true }) with commits := [{ page := .out, inst := 7, mode := 0, lc := 0, due := some 0, captured := true }] },
      7, { page := .out, inst := 7, mode := 0, lc := 0, due := some 0, captured := true }, by decide +kernel, by decide +kernel,
      by decide +kernel, by decide +kernel, by decide +kernel, inv_of_fits (by decide +kernel)⟩,
    ⟨up, 5, .power, 0, by decide +kernel⟩,
    ⟨up, 5, .power, 0, by decide +kernel⟩⟩

theorem witness_QuarryRequests :
    (∃ (s : State) (m : Master) (a : BitVec 40) (n : BitVec 12) (r : QReq), s.dev = .up ∧ quarryReady s = true ∧ Unwaited s m.val ∧ 0 <
      n.toNat ∧ quarryBase ≤ a.toNat ∧ memAllowed s m.val .read a.toNat n.toNat = true ∧ s.mustRetry a.toNat = false ∧ r =
      ⟨s.qry.nextId, portOf m.val, m.val, false, a.toNat, n.toNat, s.osc, s.bytes a.toNat n.toNat, s.anyPoison a.toNat n.toNat⟩) ∧
    (∃ (s : State) (m : Master) (a : BitVec 40) (data : List Byte) (r : QReq), s.dev = .up ∧ CleanCells s ∧ quarryReady s = true ∧
      Unwaited s m.val ∧ 0 < data.length ∧ quarryBase ≤ a.toNat ∧ memAllowed s m.val .write a.toNat data.length = true ∧ s.mustRetry
      a.toNat = false ∧ s.anyPoison a.toNat data.length = false ∧ r = ⟨s.qry.nextId, portOf m.val, m.val, true, a.toNat,
      data.length, s.osc, [], false⟩) ∧
    (∃ (s : State) (m : Master) (a : BitVec 40) (n : BitVec 12), s.dev = .up ∧ quarryReady s = true ∧ Unwaited s m.val ∧ 0 < n.toNat ∧
      quarryBase ≤ a.toNat ∧ a.toNat + n.toNat ≤ firmwareEnd ∧ (memAllowed s m.val .read a.toNat n.toNat = false ∨ s.mustRetry
      a.toNat = true)) ∧
    (∃ (s : State) (m : Master) (a : BitVec 40) (data : List Byte), s.dev = .up ∧ quarryReady s = true ∧ Unwaited s m.val ∧ 0 <
      data.length ∧ quarryBase ≤ a.toNat ∧ a.toNat + data.length ≤ firmwareEnd ∧ (memAllowed s m.val .write a.toNat data.length =
      false ∨ s.mustRetry a.toNat = true)) ∧
    (∃ (s : State) (ch : Fin 4), s.dev = .up ∧ (served s = false ∨ pick s ch.val = none)) ∧
    (∃ (s : State) (ch : Fin 4) (u : QUnit), s.dev = .up ∧ served s = true ∧ pick s ch.val = some u ∧ rowHit s u = true) ∧
    (∃ (s : State) (ch : Fin 4) (u : QUnit), s.dev = .up ∧ served s = true ∧ pick s ch.val = some u ∧ rowHit s u = false) ∧
    (∃ (s : State) (r : QReq), s.dev = .up ∧ s.qry.reqs.find? (fun x => x.id == r.id) = some r ∧ (s.qry.units.any (fun u => u.id ==
      r.id) = true ∨ readsBefore s r = true)) ∧
    (∃ (s : State) (r : QReq), s.dev = .up ∧ s.qry.reqs.find? (fun x => x.id == r.id) = some r ∧ s.qry.units.any (fun u => u.id == r.id)
      = false ∧ readsBefore s r = false ∧ r.write = false) ∧
    (∃ (s : State) (r : QReq), s.dev = .up ∧ s.qry.reqs.find? (fun x => x.id == r.id) = some r ∧ s.qry.units.any (fun u => u.id == r.id)
      = false ∧ readsBefore s r = false ∧ r.write = false) ∧
    (∃ (s : State) (r : QReq), s.dev = .up ∧ s.qry.reqs.find? (fun x => x.id == r.id) = some r ∧ s.qry.units.any (fun u => u.id == r.id)
      = false ∧ r.write = true) ∧
    (∃ (s : State), s.dev = .up) ∧
    (∃ (s : State) (r : Fin 8) (k : Fin 16), s.dev = .up ∧ (bankOf s r.val k.val).row ≠ none ∧ (bankOf s r.val k.val).last + 4 * s.rd
      .QUARRY_QRY_CFG_PAGE_IDLE ≤ s.osc) ∧
    (∃ (s : State), s.dev = .up ∧ served s = true ∧ s.qry.lastRefresh + 1560 ≤ s.osc ∧ s.qry.op ≠ .drain) ∧
    (∃ (s : State), s.dev = .up ∧ served s = true ∧ s.qry.lastRefresh + 1560 ≤ s.osc ∧ s.qry.op = .drain) ∧
    (∃ (s : State), s.dev = .up ∧ s.qry.refreshing = true) ∧
    (∃ (s : State), s.dev = .up) ∧
    (∃ (s : State), s.dev = .up ∧ s.now % 12800000 = 0) :=
  ⟨⟨qryUp, 2, 0x1000000040, 64, ⟨0, 5, 2, false, 0x1000000040, 64, 0, List.replicate 64 0, false⟩, by decide +kernel⟩,
    ⟨qryUp, 2, 0x1000000040, [1, 2, 3], ⟨0, 5, 2, true, 0x1000000040, 3, 0, [], false⟩, by decide +kernel⟩,
    ⟨qryUp, 5, 0x1000000040, 64, by decide +kernel⟩,
    ⟨qryUp.wr .QUARRY_STATUS_RESHAPING 1, 2, 0x1000000040, [1], by decide +kernel⟩,
    ⟨qryUp, 1, by decide +kernel⟩,
    ⟨setBank 2 3 { row := some 9 } (withUnit 2 3 9), 1, ⟨7, 5, 2, 3, 9, 0, quarryBase, 0⟩, by decide +kernel⟩,
    ⟨(withUnit 2 3 9).wr .QUARRY_RD_CFG_RD_THR 1, 1, ⟨7, 5, 2, 3, 9, 0, quarryBase, 0⟩, by decide +kernel⟩,
    ⟨{ qryUp with qry := { reqs := [⟨6, 5, 2, false, 0x1000000040, 1, 0, [7], false⟩, ⟨7, 5, 2, false, 0x1000000041, 1, 0, [8], false⟩] } },
      ⟨7, 5, 2, false, 0x1000000041, 1, 0, [8], false⟩, by decide +kernel⟩,
    ⟨{ qryUp with osc := 100000, qry := { initAll := true, reqs := [⟨7, 2, 1, false, 0x1000000040, 1, 0, [8], true⟩] } }, ⟨7, 2, 1,
      false, 0x1000000040, 1, 0, [8], true⟩, by decide +kernel⟩,
    ⟨{ qryUp with osc := 100000, qry := { reqs := [⟨7, 2, 1, false, 0x1000000040, 1, 0, [8], false⟩] } }, ⟨7, 2, 1, false, 0x1000000040,
      1, 0, [8], false⟩, by decide +kernel⟩,
    ⟨{ qryUp with qry := { reqs := [⟨7, 5, 2, true, 0x1000000040, 8, 0, [], false⟩] } }, ⟨7, 5, 2, true, 0x1000000040, 8, 0, [], false⟩,
      by decide +kernel⟩,
    ⟨withUnit 2 3 9, by decide +kernel⟩,
    ⟨{ setBank 2 3 { row := some 9 } up with osc := 100000 }, 2, 3, by decide +kernel⟩,
    ⟨{ setBank 2 3 { row := some 9 } qryUp with osc := 100000 }, by decide +kernel⟩,
    ⟨{ qryUp with osc := 100000, qry := { op := .drain } }, by decide +kernel⟩,
    ⟨{ qryUp with qry := { refreshing := true } }, by decide +kernel⟩,
    ⟨setBank 2 3 { mitigate := [9, 8] } up, by decide +kernel⟩,
    ⟨setBank 2 3 { entries := [(9, 2)], floor := 1, throttled := [(5, 0)] } (up.wr .QUARRY_RD_STAT_THROTTLED 1 0 0 5),
      by decide +kernel⟩⟩

theorem witness_QuarryRanks :
    (∃ (s : State) (p : Fin 8) (v : Fin (7 * 2 ^ 22)) (w : Fin 4) (r : Fin 3), s.dev = .up ∧ (served s = false ∨ s.rd
      .QUARRY_QRY_CFG_SCRUB_EN ≠ 1 ∨ rowReady s p.val (v.val / 7) = false ∨ max (Store.get 0 s.qry.flaws (flawKey p.val v.val
      w.val)) r.val = 0 ∨ (wordPoisoned s p.val v.val w.val = true ∧ r.val = 0))) ∧
    (∃ (s : State) (p : Fin 8) (v : Fin (7 * 2 ^ 22)) (w : Fin 4) (r : Fin 3), s.dev = .up ∧ served s = true ∧ s.rd
      .QUARRY_QRY_CFG_SCRUB_EN = 1 ∧ max (Store.get 0 s.qry.flaws (flawKey p.val v.val w.val)) r.val = 1 ∧ rowReady s p.val (v.val /
      7) = true ∧ wordPoisoned s p.val v.val w.val = false) ∧
    (∃ (s : State) (p : Fin 8) (v : Fin (7 * 2 ^ 22)) (w : Fin 4) (r : Fin 3), s.dev = .up ∧ served s = true ∧ s.rd
      .QUARRY_QRY_CFG_SCRUB_EN = 1 ∧ 2 ≤ max (Store.get 0 s.qry.flaws (flawKey p.val v.val w.val)) r.val ∧ rowReady s p.val (v.val /
      7) = true ∧ wordPoisoned s p.val v.val w.val = false) ∧
    (∃ (s : State), s.dev = .up ∧ served s = true ∧ s.rd .QUARRY_STATUS_INIT_DONE = 0) ∧
    (∃ (s : State), s.dev = .up ∧ quarryReady s = true ∧ s.rd .QUARRY_STATUS_INIT_DONE = 0) ∧
    (∃ (s : State) (m : Master) (lg : Fin 8), MayWrite s .quarry 0 m ∧ m.val ≤ 2 ∧ rankSpareFree s = true ∧ migrating s = false ∧ lg.val
      < 7 ∧ lrMap s lg.val ≠ 15 ∧ lrMap s lg.val ≠ s.rd .QUARRY_LRMAP_SPARE) ∧
    (∃ (s : State) (m : Master), MayWrite s .quarry 0 m ∧ m.val ≤ 2 ∧ (rankSpareFree s = false ∨ migrating s = true)) ∧
    (∃ (s : State) (m : Master) (lg : Fin 8), MayWrite s .quarry 0 m ∧ m.val ≤ 2 ∧ rankSpareFree s = true ∧ migrating s = false ∧ (7 ≤
      lg.val ∨ lrMap s lg.val = 15)) ∧
    (∃ (s : State) (m : Master), s.dev = .up ∧ (accessOk s .quarry 0 m.val true = false ∨ 2 < m.val)) ∧
    (∃ (s : State) (p : Nat) (cause : Nat) (lg : Nat) (rest : List (Nat × Nat)), s.dev = .up ∧ s.qry.fails = (p, cause) :: rest ∧ holds
      s p = some lg ∧ s.rd .QUARRY_LRMAP_SPARE ≠ 15 ∧ migrating s = false) ∧
    (∃ (s : State) (p : Nat) (cause : Nat) (lg : Nat) (rest : List (Nat × Nat)), s.dev = .up ∧ s.qry.fails = (p, cause) :: rest ∧ holds
      s p = some lg ∧ (s.rd .QUARRY_LRMAP_SPARE = 15 ∨ migrating s = true)) ∧
    (∃ (s : State), s.dev = .up ∧ served s = true ∧ migrating s = true ∧ s.rd .QUARRY_MIG_PTR_UNIT < unitsPerRank ∧ copyMay s = true) ∧
    (∃ (s : State) (p : Nat) (r : Nat) (v : Nat), s.dev = .up ∧ CleanCells s ∧ served s = true ∧ migrating s = true ∧ v = s.rd
      .QUARRY_MIG_PTR_UNIT ∧ v < unitsPerRank ∧ copyMay s = true ∧ p = lrMap s (s.rd .QUARRY_MIG_PTR_LGRANK) ∧ migTarget s = some r
      ∧ r ≠ p ∧ rowReady s p (v / 7) = true) ∧
    (∃ (s : State), s.dev = .up ∧ (served s = false ∨ migrating s = false ∨ copyMay s = false)) ∧
    (∃ (s : State) (r : Nat), s.dev = .up ∧ served s = true ∧ migrating s = true ∧ s.rd .QUARRY_MIG_PTR_UNIT = unitsPerRank ∧ migTarget
      s = some r ∧ lrMap s (s.rd .QUARRY_MIG_PTR_LGRANK) ≠ r) ∧
    (∃ (s : State) (m : Master), MayWrite s .quarry 0 m ∧ m.val ≤ 2 ∧ s.rd .QUARRY_STATUS_DEGRADED ≠ 0 ∧ migrating s = false ∧ s.rd
      .QUARRY_STATUS_RESHAPING ≠ 1 ∧ activeRanks s ≠ []) ∧
    (∃ (s : State) (m : Master), MayWrite s .quarry 0 m ∧ m.val ≤ 2 ∧ s.rd .QUARRY_STATUS_DEGRADED = 0) ∧
    (∃ (s : State) (m : Master) (k : Byte), MayWrite s .quarry 0 m ∧ m.val ≤ 2 ∧ k.toNat ≠ 0x5A) ∧
    (∃ (s : State), s.dev = .up ∧ s.rd .QUARRY_STATUS_RESHAPING = 1) :=
  ⟨⟨qryUp.wr .QUARRY_QRY_CFG_SCRUB_EN 1, 2, 5, 1, 0, by decide +kernel⟩,
    ⟨{ qryUp.wr .QUARRY_QRY_CFG_SCRUB_EN 1 with qry := { initAll := true, flaws := [(flawKey 2 5 1, 1)] } }, 2, 5, 1, 0,
      by decide +kernel⟩,
    ⟨{ qryUp.wr .QUARRY_QRY_CFG_SCRUB_EN 1 with qry := { initAll := true, flaws := [(flawKey 2 5 1, 1)] } }, 2, 5, 1, 2,
      by decide +kernel⟩,
    ⟨qryUp, by decide +kernel⟩,
    ⟨qryUp, by decide +kernel⟩,
    ⟨up, 1, 3, by decide +kernel⟩,
    ⟨up.wr .QUARRY_LRMAP_SPARE 15, 1, by decide +kernel⟩,
    ⟨up, 1, 7, by decide +kernel⟩,
    ⟨up, 5, by decide +kernel⟩,
    ⟨{ up with qry := { fails := [(3, 2)] } }, 3, 2, 3, [], by decide +kernel⟩,
    ⟨{ up.wr .QUARRY_LRMAP_SPARE 15 with qry := { fails := [(3, 2)] } }, 3, 2, 3, [], by decide +kernel⟩,
    ⟨qryUp.wr .QUARRY_STATUS_MIGRATING 1, by decide +kernel⟩,
    ⟨{ (qryUp.wr .QUARRY_STATUS_MIGRATING 1).wr .QUARRY_RANK_STATE_STATE 3 0 0 7 with qry := { initAll := true } } |> putPoison 0 0 2
      true, 0, 7, 0, by decide +kernel⟩,
    ⟨qryUp, by decide +kernel⟩,
    ⟨((qryUp.wr .QUARRY_STATUS_MIGRATING 1).wr .QUARRY_MIG_PTR_UNIT (7 * 2 ^ 22)).wr .QUARRY_RANK_STATE_STATE 3 0 0 7, 7,
      by decide +kernel⟩,
    ⟨((up.wr .QUARRY_STATUS_DEGRADED 1).wr .QUARRY_RANK_STATE_STATE 4 0 0 3).setByte 0x1000000040 7, 1, by decide +kernel⟩,
    ⟨up, 1, by decide +kernel⟩,
    ⟨up, 1, 5, by decide +kernel⟩,
    ⟨up.wr .QUARRY_STATUS_RESHAPING 1, by decide +kernel⟩⟩

theorem witness_QuarryOperatingPoints :
    (∃ (s : State) (m : Master) (v : Word), MayWrite s .quarry 0 m ∧ m.val ≤ 2 ∧ bit v.toNat 2 = 1 ∧ bit v.toNat 3 = 0 ∧ s.rd
      .QUARRY_STATUS_OP_PENDING ≠ 1 ∧ bits v.toNat 1 0 ≠ 3 ∧ bits v.toNat 1 0 ≠ s.rd .QUARRY_STATUS_OP_NOW ∧ inactiveSetFor s (bits
      v.toNat 1 0) = true) ∧
    (∃ (s : State) (m : Master) (v : Word), MayWrite s .quarry 0 m ∧ m.val ≤ 2 ∧ bit v.toNat 2 = 1 ∧ bit v.toNat 3 = 1 ∧ ownsLc s m.val
      (bits v.toNat 9 4) = true ∧ s.rd .QUARRY_STATUS_OP_PENDING ≠ 1 ∧ bits v.toNat 1 0 ≠ 3 ∧ bits v.toNat 1 0 ≠ s.rd
      .QUARRY_STATUS_OP_NOW ∧ inactiveSetFor s (bits v.toNat 1 0) = true) ∧
    (∃ (s : State) (m : Master) (v : Word), MayWrite s .quarry 0 m ∧ m.val ≤ 2 ∧ bit v.toNat 2 = 1 ∧ bit v.toNat 3 = 0 ∧ s.rd
      .QUARRY_STATUS_OP_PENDING ≠ 1 ∧ (bits v.toNat 1 0 ≠ s.rd .QUARRY_STATUS_OP_NOW ∨ bits v.toNat 1 0 = 3) ∧ (bits v.toNat 1 0 = 3
      ∨ inactiveSetFor s (bits v.toNat 1 0) = false)) ∧
    (∃ (s : State) (m : Master) (v : Word), MayWrite s .quarry 0 m ∧ m.val ≤ 2 ∧ bit v.toNat 2 = 1 ∧ bit v.toNat 3 = 1 ∧ ownsLc s m.val
      (bits v.toNat 9 4) = false) ∧
    (∃ (s : State) (m : Master) (v : Word), MayWrite s .quarry 0 m ∧ m.val ≤ 2 ∧ bit v.toNat 3 = 0 ∧ (bit v.toNat 2 = 0 ∨ s.rd
      .QUARRY_STATUS_OP_PENDING = 1 ∨ (bits v.toNat 1 0 = s.rd .QUARRY_STATUS_OP_NOW ∧ bits v.toNat 1 0 ≠ 3))) ∧
    (∃ (s : State), s.dev = .up ∧ served s = true ∧ s.qry.op = .drain ∧ (s.qry.opForced = true ∨ anyUrgent s 3 = false)) ∧
    (∃ (s : State), s.dev = .up ∧ served s = true ∧ s.qry.op = .drain ∧ s.qry.opForced = false ∧ anyUrgent s 3 = true) ∧
    (∃ (s : State), s.dev = .up ∧ s.qry.op = .aborted ∧ s.rd .QUARRY_OP_STAT_ABORTS < s.rd .QUARRY_OPCTL_ABORT_MAX ∧ anyUrgent s 2 =
      true) ∧
    (∃ (s : State), s.dev = .up ∧ s.qry.op = .aborted ∧ (anyUrgent s 2 = false ∨ s.rd .QUARRY_OPCTL_ABORT_MAX ≤ s.rd
      .QUARRY_OP_STAT_ABORTS)) ∧
    (∃ (s : State), s.dev = .up ∧ s.qry.op = .outage) ∧
    (∃ (s : State) (mode : Fin 8), MayWrite s .qphy 0 2 ∧ (quarryReady s = false ∨ rankState s (2 * s.rd .QPHY_TRN_SEL_CH + s.rd
      .QPHY_TRN_SEL_CS) = 1 ∨ rankState s (2 * s.rd .QPHY_TRN_SEL_CH + s.rd .QPHY_TRN_SEL_CS) = 4) ∧ 1 ≤ mode.val ∧ mode.val ≤ 4 ∧
      s.rd .QPHY_CMP_STAT_BUSY ≠ 1) ∧
    (∃ (s : State), MayWrite s .qphy 0 2 ∧ quarryReady s = true ∧ rankState s (2 * s.rd .QPHY_TRN_SEL_CH + s.rd .QPHY_TRN_SEL_CS) ≠ 1 ∧
      rankState s (2 * s.rd .QPHY_TRN_SEL_CH + s.rd .QPHY_TRN_SEL_CS) ≠ 4) ∧
    (∃ (s : State) (m : Master), s.dev = .up ∧ m.val ≠ 2) ∧
    (∃ (s : State) (mode : Fin 8), MayWrite s .qphy 0 2 ∧ quarryReady s = false ∧ (mode.val = 0 ∨ 4 < mode.val ∨ s.rd
      .QPHY_CMP_STAT_BUSY = 1)) ∧
    (∃ (s : State), s.dev = .up ∧ s.rd .QPHY_CMP_STAT_BUSY = 1) ∧
    (∃ (s : State) (p : Fin 8) (op : Nat), s.dev = .up ∧ s.qry.refreshing = true ∧ driftDue s p.val = true ∧ op = (if s.rd
      .QPHY_TSET_CTL_ACTIVE = 0 then s.rd .QPHY_TSET_CTL_A_OP else s.rd .QPHY_TSET_CTL_B_OP)) ∧
    (∃ (s : State) (p : Fin 8), s.dev = .up ∧ (s.qry.refreshing = false ∨ driftDue s p.val = false)) :=
  ⟨⟨up.wr .QPHY_TSET_CTL_B_VALID 1 |> (fun s => s.wr .QPHY_TSET_CTL_B_OP 2), 1, 0x10006, by decide +kernel⟩,
    ⟨(armedLc 1 10).wr .QPHY_TSET_CTL_B_VALID 1 |> (fun s => s.wr .QPHY_TSET_CTL_B_OP 2), 1, 0x1003E, by decide +kernel⟩,
    ⟨up, 1, 0x6, by decide +kernel⟩,
    ⟨up, 1, 0x3E, by decide +kernel⟩,
    ⟨up, 1, 0x4, by decide +kernel⟩,
    ⟨{ qryUp with qry := { op := .drain } }, by decide +kernel⟩,
    ⟨{ withUnit 2 3 9 with osc := 100000, qry := { (withUnit 2 3 9).qry with op := .drain } }, by decide +kernel⟩,
    ⟨{ (withUnit 2 3 9).wr .QUARRY_OPCTL_ABORT_MAX 2 with osc := 100000, qry := { (withUnit 2 3 9).qry with op := .aborted } },
      by decide +kernel⟩,
    ⟨{ qryUp with qry := { op := .aborted } }, by decide +kernel⟩,
    ⟨{ qryUp with qry := { op := .outage, opTarget := 2 } }, by decide +kernel⟩,
    ⟨up, 2, by decide +kernel⟩,
    ⟨qryUp, by decide +kernel⟩,
    ⟨up, 5, by decide +kernel⟩,
    ⟨up, 7, by decide +kernel⟩,
    ⟨up.wr .QPHY_CMP_STAT_BUSY 1, by decide +kernel⟩,
    ⟨{ up.wr .QPHY_DRIFT_CFG_MS 1 with qry := { refreshing := true } }, 3, 0, by decide +kernel⟩,
    ⟨up, 3, by decide +kernel⟩⟩

theorem witness_LibraryPort :
    (∃ (s : State) (m : Master), MayWrite s .xspi 0 m ∧ m.val ≤ 2 ∧ s.rd .XSPI_STATUS_RAW_BUSY ≠ 1 ∧ s.rd .XSPI_LD_STAT_BUSY ≠ 1) ∧
    (∃ (s : State) (m : Master), MayWrite s .xspi 0 m ∧ m.val ≤ 2 ∧ (s.rd .XSPI_STATUS_RAW_BUSY = 1 ∨ s.rd .XSPI_LD_STAT_BUSY = 1)) ∧
    (∃ (s : State), s.dev = .up ∧ s.rd .XSPI_STATUS_RAW_BUSY = 1 ∧ xspiOn s = true ∧ s.ldr.rawRead = true ∧ s.ldr.rawLen ≤ 8 ∧ Inv s) ∧
    (∃ (s : State), s.dev = .up ∧ s.rd .XSPI_STATUS_RAW_BUSY = 1 ∧ xspiOn s = true ∧ s.ldr.rawRead = false) ∧
    (∃ (s : State) (m : Master), MayWrite s .xspi 0 m ∧ m.val ≤ 2 ∧ s.rd .XSPI_LD_STAT_BUSY = 0 ∧ installing s = false) ∧
    (∃ (s : State) (m : Master) (head : List Byte), MayWrite s .xspi 0 m ∧ m.val ≤ 2 ∧ s.rd .XSPI_LD_STAT_BUSY = 0 ∧ installing s =
      false ∧ xspiOn s = true ∧ imageOk s head = true ∧ (s.rd .XSPI_LD_CTL_SIG_REQ ≠ 1 ∨ imageSigned head = true)) ∧
    (∃ (s : State) (m : Master) (head : List Byte), MayWrite s .xspi 0 m ∧ m.val ≤ 2 ∧ s.rd .XSPI_LD_STAT_BUSY = 0 ∧ installing s =
      false ∧ xspiOn s = true ∧ imageOk s head = false) ∧
    (∃ (s : State) (m : Master) (head : List Byte), MayWrite s .xspi 0 m ∧ m.val ≤ 2 ∧ s.rd .XSPI_LD_STAT_BUSY = 0 ∧ installing s =
      false ∧ xspiOn s = true ∧ imageOk s head = true ∧ s.rd .XSPI_LD_CTL_SIG_REQ = 1 ∧ imageSigned head = false) ∧
    (∃ (s : State) (m : Master), MayWrite s .xspi 0 m ∧ m.val ≤ 2 ∧ (s.rd .XSPI_LD_STAT_BUSY = 1 ∨ installing s = true)) ∧
    (∃ (s : State) (m : Master), MayWrite s .xspi 0 m ∧ m.val ≤ 2 ∧ (s.rd .XSPI_LD_STAT_BUSY = 1 ∨ installing s = true)) ∧
    (∃ (s : State) (m : Master) (head : List Byte), MayWrite s .xspi 0 m ∧ m.val ≤ 2 ∧ s.rd .XSPI_LD_STAT_BUSY = 0 ∧ installing s =
      false ∧ xspiOn s = true ∧ imageOk s head = true ∧ (s.rd .XSPI_LD_CTL_SIG_REQ ≠ 1 ∨ imageSigned head = true)) ∧
    (∃ (s : State) (m : Master), MayWrite s .xspi 0 m ∧ m.val ≤ 2 ∧ s.rd .XSPI_LD_STAT_BUSY = 0 ∧ installing s = false) ∧
    (∃ (s : State) (m : Master), MayWrite s .xspi 0 m ∧ m.val ≤ 2 ∧ s.rd .XSPI_LD_STAT_BUSY = 1) ∧
    (∃ (s : State) (m : Master), MayWrite s .xspi 0 m ∧ m.val ≤ 2 ∧ s.rd .XSPI_LD_STAT_BUSY ≠ 1) ∧
    (∃ (s : State) (data : List Byte), s.dev = .up ∧ jobCopies s = true ∧ s.rd .XSPI_XSPI_CFG_DEVTYPE = 1 ∧ (progress data s).rd
      .XSPI_LD_STAT_BUSY = 1) ∧
    (∃ (s : State), s.dev = .up ∧ s.rd .XSPI_LD_STAT_BUSY = 1 ∧ xspiOn s = true) ∧
    (∃ (s : State) (e : DirEntry) (data : List Byte), s.dev = .up ∧ jobCopies s = true ∧ s.ldr.image = true ∧ currentEntry s = some e ∧
      s.ldr.got.length + data.length = e.len ∧ (progress data s).rd .XSPI_LD_STAT_BUSY = 1 ∧ entryGood e (progress data s).ldr.got =
      true) ∧
    (∃ (s : State) (e : DirEntry) (data : List Byte), s.dev = .up ∧ jobCopies s = true ∧ s.ldr.image = true ∧ currentEntry s = some e ∧
      s.ldr.got.length + data.length = e.len ∧ (progress data s).rd .XSPI_LD_STAT_BUSY = 1 ∧ entryGood e (progress data s).ldr.got =
      false) ∧
    (∃ (s : State) (a : Nat) (data : List Byte), s.dev = .up ∧ jobCopies s = true ∧ s.ldr.image = false ∧ jobRest s = (a, data.length) ∧
      CleanCells s ∧ Unwaited s 3 ∧ 0 < data.length ∧ inBench a data.length = true ∧ memAllowed s 3 .write a data.length = true ∧
      s.anyPoison a data.length = false ∧ s.rd .XSPI_LD_DONE_BYTES + data.length = s.ldr.len ∧ s.ldr.len < 2 ^ 32) ∧
    (∃ (s : State) (a : Nat) (data : List Byte), s.dev = .up ∧ jobCopies s = true ∧ s.ldr.image = false ∧ jobRest s = (a, data.length) ∧
      Unwaited s 3 ∧ 0 < data.length ∧ a % 64 + data.length ≤ 64 ∧ inBench a data.length = true ∧ memAllowed s 3 .write a
      data.length = false) ∧
    (∃ (s : State), s.dev = .up ∧ jobCopies s = true ∧ s.ldr.image = true ∧ s.ldr.dir.length ≤ s.rd .XSPI_LD_STAT_ENTRY ∧ s.ldr.signed =
      false) ∧
    (∃ (s : State) (image : List Byte), s.dev = .up ∧ jobCopies s = true ∧ s.ldr.image = true ∧ s.ldr.dir.length ≤ s.rd
      .XSPI_LD_STAT_ENTRY ∧ s.ldr.signed = true ∧ image.length = s.ldr.sigOff ∧ s.fwUp = true) :=
  ⟨⟨up, 1, by decide +kernel⟩,
    ⟨up.wr .XSPI_LD_STAT_BUSY 1, 1, by decide +kernel⟩,
    ⟨{ up.wr .XSPI_STATUS_RAW_BUSY 1 with ldr := { rawRead := true, rawLen := 8 } }, by decide +kernel, by decide +kernel,
      by decide +kernel, by decide +kernel, by decide +kernel, inv_of_fits (by decide +kernel)⟩,
    ⟨up.wr .XSPI_STATUS_RAW_BUSY 1, by decide +kernel⟩,
    ⟨(up.wr .XSPI_LD_LEN_BYTES 8).wr .XSPI_LD_DST_LO_ADDR 0x10080000, 1, by decide +kernel⟩,
    ⟨up, 1, imageHead, by decide +kernel⟩,
    ⟨up, 1, [1, 2], by decide +kernel⟩,
    ⟨up.wr .XSPI_LD_CTL_SIG_REQ 1, 1, imageHead, by decide +kernel⟩,
    ⟨up.wr .XSPI_LD_STAT_BUSY 1, 1, by decide +kernel⟩,
    ⟨up.wr .XSPI_LD_STAT_BUSY 1, 1, by decide +kernel⟩,
    ⟨up.wr .XSPI_LD_RESUME_POINT 2, 1, imageHead, by decide +kernel⟩,
    ⟨up.wr .XSPI_LD_DONE_BYTES 5, 1, by decide +kernel⟩,
    ⟨up.wr .XSPI_LD_STAT_BUSY 1, 1, by decide +kernel⟩,
    ⟨up, 1, by decide +kernel⟩,
    ⟨((up.wr .XSPI_LD_STAT_BUSY 1).wr .XSPI_XSPI_CFG_DEVTYPE 1).wr .XSPI_XSPI_NAND_ECC_BAD 0x20 |> (fun s => s.wr
      .XSPI_XSPI_NAND_ECC_MASK 0x30), [], by decide +kernel⟩,
    ⟨up.wr .XSPI_LD_STAT_BUSY 1, by decide +kernel⟩,
    ⟨{ up.wr .XSPI_LD_STAT_BUSY 1 with ldr := { image := true, dir := [⟨0, 2, 0x10080000, crc32c [1, 2], false, true⟩], got := [1, 2] } },
      ⟨0, 2, 0x10080000, crc32c [1, 2], false, true⟩, [], by decide +kernel⟩,
    ⟨{ up.wr .XSPI_LD_STAT_BUSY 1 with ldr := { image := true, dir := [⟨0, 2, 0x10080000, 0, false, true⟩], got := [1, 2] } }, ⟨0, 2,
      0x10080000, 0, false, true⟩, [], by decide +kernel⟩,
    ⟨{ (region 3 up).wr .XSPI_LD_STAT_BUSY 1 |> (fun s => s.wr .XSPI_LD_CTL_SIG_REQ 0) with ldr := { dst := 0x10080003, len := 3 } },
      0x10080003, [1, 2, 3], by decide +kernel⟩,
    ⟨{ up.wr .XSPI_LD_STAT_BUSY 1 with ldr := { dst := 0x10080003, len := 3 } }, 0x10080003, [1, 2, 3], by decide +kernel⟩,
    ⟨{ up.wr .XSPI_LD_STAT_BUSY 1 with ldr := { image := true } }, by decide +kernel⟩,
    ⟨{ up.wr .XSPI_LD_STAT_BUSY 1 with fwUp := true, ldr := { image := true, signed := true } }, [], by decide +kernel⟩⟩

theorem witness_BootAndRestarts :
    (∃ (s : State), s.dev = .up ∧ s.sec.boot = .due) ∧
    (∃ (s : State), s.dev = .up ∧ s.sec.boot = .first) ∧
    (∃ (s : State), s.dev = .up ∧ s.sec.boot = .second) ∧
    (∃ (s : State), s.dev = .up ∧ s.fwUp = true) ∧
    (∃ (s : State), MayWrite s .sec 0 2) ∧
    (∃ (s : State) (m : Master), s.dev = .up ∧ m.val ≠ 2) ∧
    (∃ (s : State), s.dev = .up ∧ wdtOver s = true) ∧
    (∃ (s : State), s.dev = .up ∧ (s.fwUp = true ∨ s.sec.boot ≠ .idle)) :=
  ⟨⟨{ up with sec := { boot := .due } }, by decide +kernel⟩,
    ⟨{ up with sec := { boot := .first } }, by decide +kernel⟩,
    ⟨{ up with sec := { boot := .second } }, by decide +kernel⟩,
    ⟨{ up with fwUp := true }, by decide +kernel⟩,
    ⟨up, by decide +kernel⟩,
    ⟨up, 1, by decide +kernel⟩,
    ⟨{ up.wr .OUT_FAULT_CTL_WD_EN 1 5 with fwUp := true, osc := 100000000000 }, by decide +kernel⟩,
    ⟨{ up.wr .I3C_STATUS_SECURE 1 1 with fwUp := true }, by decide +kernel⟩⟩

theorem witness_MailboxServices :
    (∃ (s : State) (j : Fin 2) (tag : Nat) (rest : List MbCall), Serves s j 0x01 tag rest) ∧
    (∃ (s : State) (j : Fin 2) (tag : Nat) (rest : List MbCall), Serves s j 0x02 tag rest) ∧
    (∃ (s : State) (j : Fin 2) (tag : Nat) (rest : List MbCall), Serves s j 0x03 tag rest ∧ quoteRuns s = false ∧ CleanCells s) ∧
    (∃ (s : State) (j : Fin 2) (tag : Nat) (rest : List MbCall), Serves s j 0x04 tag rest ∧ mbArg s j.val 0 ≠ 6 ∧ mbArg s j.val 0 ≠ 7) ∧
    (∃ (s : State) (j : Fin 2) (tag : Nat) (rest : List MbCall), Serves s j 0x04 tag rest ∧ (mbArg s j.val 0 = 6 ∨ mbArg s j.val 0 = 7)
      ∧ CleanCells s) ∧
    (∃ (s : State) (j : Fin 2) (tag : Nat) (rest : List MbCall), Serves s j 0x10 tag rest ∧ s.sec.owner = none) ∧
    (∃ (s : State) (j : Fin 2) (tag : Nat) (rest : List MbCall), Serves s j 0x10 tag rest ∧ s.sec.owner ≠ none) ∧
    (∃ (s : State) (j : Fin 2) (tag : Nat) (rest : List MbCall), Serves s j 0x11 tag rest ∧ CleanCells s ∧ bufferCode s j.val (mbAddr s
      j.val 1) 8656 mbOk ≠ mbOk) ∧
    (∃ (s : State) (j : Fin 2) (tag : Nat) (rest : List MbCall), Serves s j 0x11 tag rest ∧ CleanCells s ∧ memAllowed s j.val .read
      (mbAddr s j.val 1) 8656 = true ∧ s.anyPoison (mbAddr s j.val 1) 8656 = false) ∧
    (∃ (s : State) (j : Fin 2) (tag : Nat) (rest : List MbCall), Serves s j 0x12 tag rest) ∧
    (∃ (s : State) (j : Fin 2), s.dev = .up ∧ (s.port j.val).frameAt + sessionTmo s * Config.ticksPerSecond ≤ s.osc ∧ s.rd
      .I3C_STATUS_SECURE j.val = 1) ∧
    (∃ (s : State) (j : Fin 2) (r : MbReply), s.dev = .up ∧ Store.get none s.sec.replies j.val = some r) ∧
    (∃ (s : State) (j : Fin 2) (op : Nat) (tag : Nat) (rest : List MbCall), s.dev = .up ∧ Store.get none s.sec.replies j.val = none ∧
      s.sec.caller = none ∧ s.sec.mail = ⟨j.val, op, tag⟩ :: rest ∧ mbKnown op = false ∧ s.fwUp = true ∧ s.rd .POWER_STATUS_DSTATE =
      0) :=
  ⟨⟨mailUp 0x01, 1, 9, [], by decide +kernel⟩,
    ⟨mailUp 0x02, 1, 9, [], by decide +kernel⟩,
    ⟨mailUp 0x03, 1, 9, [], by decide +kernel⟩,
    ⟨mailUp 0x04, 1, 9, [], by decide +kernel⟩,
    ⟨argUp 0x04 6, 1, 9, [], by decide +kernel⟩,
    ⟨mailUp 0x10, 1, 9, [], by decide +kernel⟩,
    ⟨mailUp 0x10 |> (fun s => { s with sec := { s.sec with owner := some [1] } }), 1, 9, [], by decide +kernel⟩,
    ⟨mailUp 0x11, 1, 9, [], by decide +kernel⟩,
    ⟨argUp 0x11 0, 1, 9, [], by decide +kernel, by decide +kernel, buffer_allowed (i := 8) (by decide +kernel), buffer_clean
      (by decide +kernel)⟩,
    ⟨(mailUp 0x12).wr .I3C_STATUS_SECURE 1 1, 1, 9, [], by decide +kernel⟩,
    ⟨{ up.wr .I3C_STATUS_SECURE 1 1 with osc := 4000000000000 }, 1, by decide +kernel⟩,
    ⟨{ up with sec := { replies := [(1, some ⟨5, 9, 3, [7, 8]⟩)] } }, 1, ⟨5, 9, 3, [7, 8]⟩, by decide +kernel⟩,
    ⟨mailUp 0x77, 1, 0x77, 9, [], by decide +kernel⟩⟩

theorem witness_FirmwareUpdates :
    (∃ (s : State) (j : Fin 2) (tag : Nat) (rest : List MbCall), Serves s j 0x20 tag rest ∧ fwBusy s = false ∧ CleanCells s ∧ 128 +
      sigLen ≤ mbArg s j.val 3 ∧ mbArg s j.val 3 ≤ 524288 ∧ memAllowed s j.val .read (mbAddr s j.val 1) (mbArg s j.val 3) = true ∧
      s.anyPoison (mbAddr s j.val 1) (mbArg s j.val 3) = false) ∧
    (∃ (s : State) (j : Fin 2) (tag : Nat) (rest : List MbCall), Serves s j 0x20 tag rest ∧ (fwBusy s = true ∨ mbArg s j.val 3 < 128 +
      sigLen ∨ 524288 < mbArg s j.val 3)) ∧
    (∃ (s : State) (j : Fin 2) (tag : Nat) (rest : List MbCall), Serves s j 0x20 tag rest ∧ fwBusy s = false ∧ CleanCells s ∧ 128 +
      sigLen ≤ mbArg s j.val 3 ∧ mbArg s j.val 3 ≤ 524288 ∧ bufferCode s j.val (mbAddr s j.val 1) (mbArg s j.val 3) mbOk ≠ mbOk) ∧
    (∃ (s : State) (j : Fin 2) (tag : Nat) (rest : List MbCall), Serves s j 0x21 tag rest ∧ s.rd .XSPI_LD_STAT_BUSY = 0 ∧ sessionMissing
      s j.val = false ∧ fwBusy s = false ∧ s.sec.staged ≠ none) ∧
    (∃ (s : State) (j : Fin 2) (tag : Nat) (rest : List MbCall), Serves s j 0x21 tag rest ∧ s.rd .XSPI_LD_STAT_BUSY = 0 ∧ sessionMissing
      s j.val = false ∧ fwBusy s = false ∧ s.sec.staged ≠ none) ∧
    (∃ (s : State) (j : Fin 2) (tag : Nat) (rest : List MbCall), Serves s j 0x21 tag rest ∧ s.rd .XSPI_LD_STAT_BUSY = 0 ∧
      (sessionMissing s j.val = true ∨ fwBusy s = true ∨ s.sec.staged = none)) ∧
    (∃ (s : State) (j : Fin 2) (tag : Nat) (rest : List MbCall) (new : FwImage) (run : FwImage), Serves s j 0x22 tag rest ∧
      sessionMissing s j.val = false ∧ fwBusy s = false ∧ s.sec.staged = some new ∧ s.sec.running = some run ∧ new.digest ≠
      run.digest ∧ canTakeOver run new = true) ∧
    (∃ (s : State) (j : Fin 2) (tag : Nat) (rest : List MbCall) (new : FwImage) (run : FwImage), Serves s j 0x22 tag rest ∧
      sessionMissing s j.val = false ∧ fwBusy s = false ∧ s.sec.staged = some new ∧ s.sec.running = some run ∧ (new.digest =
      run.digest ∨ canTakeOver run new = false)) ∧
    (∃ (s : State) (j : Fin 2) (tag : Nat) (rest : List MbCall), Serves s j 0x22 tag rest ∧ (sessionMissing s j.val = true ∨ fwBusy s =
      true ∨ s.sec.staged = none ∨ s.sec.running = none)) ∧
    (∃ (s : State) (j : Fin 2) (op : Nat) (tag : Nat), s.dev = .up ∧ Store.get none s.sec.replies j.val = none ∧ s.sec.caller = some
      ⟨j.val, op, tag⟩ ∧ takeoverDone s = true) ∧
    (∃ (s : State), s.dev = .up ∧ s.sec.takeover = .copy ∧ deadlinePending s = false) ∧
    (∃ (s : State) (i : FwImage), s.dev = .up ∧ s.sec.takeover = .probation ∧ s.sec.running = some i) ∧
    (∃ (s : State), s.dev = .up ∧ s.sec.takeover = .probation) ∧
    (∃ (s : State), s.dev = .up ∧ s.sec.takeover = .probation) ∧
    (∃ (s : State) (j : Fin 2) (tag : Nat) (rest : List MbCall), Serves s j 0x40 tag rest ∧ s.rd .SEC_STATUS_RECOVERY = 0) ∧
    (∃ (s : State) (j : Fin 2) (tag : Nat) (rest : List MbCall), Serves s j 0x40 tag rest ∧ s.rd .SEC_STATUS_RECOVERY ≠ 0 ∧ CleanCells s
      ∧ 128 + sigLen ≤ mbArg s j.val 3 ∧ mbArg s j.val 3 ≤ 524288 ∧ inBench (mbAddr s j.val 1) (mbArg s j.val 3) = true ∧ memAllowed
      s j.val .read (mbAddr s j.val 1) (mbArg s j.val 3) = true ∧ s.anyPoison (mbAddr s j.val 1) (mbArg s j.val 3) = false) ∧
    (∃ (s : State) (j : Fin 2) (tag : Nat) (rest : List MbCall), Serves s j 0x40 tag rest ∧ s.rd .SEC_STATUS_RECOVERY ≠ 0 ∧ CleanCells s
      ∧ (mbArg s j.val 3 < 128 + sigLen ∨ 524288 < mbArg s j.val 3 ∨ inBench (mbAddr s j.val 1) (mbArg s j.val 3) = false ∨
      bufferCode s j.val (mbAddr s j.val 1) (mbArg s j.val 3) mbOk ≠ mbOk)) :=
  ⟨⟨lenUp 0x20 8848, 1, 9, [], by decide +kernel, by decide +kernel, by decide +kernel, by decide +kernel, by decide +kernel,
      buffer_allowed (i := 8) (by decide +kernel), buffer_clean (by decide +kernel)⟩,
    ⟨lenUp 0x20 5, 1, 9, [], by decide +kernel⟩,
    ⟨(lenUp 0x20 8848).wr .BENCH_RGN_BASE_EN 0 0 8, 1, 9, [], by decide +kernel⟩,
    ⟨stagedUp 0x21 2, 1, 9, [], by decide +kernel⟩,
    ⟨stagedUp 0x21 2, 1, 9, [], by decide +kernel⟩,
    ⟨mailUp 0x21, 1, 9, [], by decide +kernel⟩,
    ⟨stagedUp 0x22 2, 1, 9, [], image 2, image 1, by decide +kernel⟩,
    ⟨stagedUp 0x22 1, 1, 9, [], image 1, image 1, by decide +kernel⟩,
    ⟨(stagedUp 0x22 2).wr .SEC_STATUS_OWNER_SET 1, 1, 9, [], by decide +kernel⟩,
    ⟨{ up with sec := { takeover := .switching, running := some (image 2), caller := some ⟨1, 0x22, 9⟩ } }, 1, 0x22, 9,
      by decide +kernel⟩,
    ⟨{ up with sec := { takeover := .copy, staged := some (image 2), running := some (image 1) } }, by decide +kernel⟩,
    ⟨{ up with sec := { takeover := .probation, running := some (image 2) } }, image 2, by decide +kernel⟩,
    ⟨{ up with sec := { takeover := .probation, old := some (image 1, 0), running := some (image 2), caller := some ⟨1, 0x22, 9⟩ } },
      by decide +kernel⟩,
    ⟨{ up with sec := { takeover := .probation, old := some (image 1, 0), running := some (image 2) } }, by decide +kernel⟩,
    ⟨mailUp 0x40, 1, 9, [], by decide +kernel⟩,
    ⟨(lenUp 0x40 8848).wr .SEC_STATUS_RECOVERY 1, 1, 9, [], by decide +kernel, by decide +kernel, by decide +kernel, by decide +kernel,
      by decide +kernel, by decide +kernel, buffer_allowed (i := 8) (by decide +kernel), buffer_clean (by decide +kernel)⟩,
    ⟨(lenUp 0x40 8).wr .SEC_STATUS_RECOVERY 1, 1, 9, [], by decide +kernel⟩⟩

theorem witness_SecurityPolicy :
    (∃ (s : State) (j : Fin 2) (tag : Nat) (rest : List MbCall), Serves s j 0x23 tag rest ∧ sessionMissing s j.val = false ∧ fwBusy s =
      false ∧ bit (mbArg s j.val 1 % 16) (s.rd .SEC_STATUS_VK_USED) ≠ 1 ∧ s.rd .SEC_SVN_FUSE_COUNT < 256 ∧ s.rd .SEC_SVN_RUN_SVN <
      256) ∧
    (∃ (s : State) (j : Fin 2) (tag : Nat) (rest : List MbCall), Serves s j 0x23 tag rest ∧ sessionMissing s j.val = false ∧ fwBusy s =
      false ∧ bit (mbArg s j.val 1 % 16) (s.rd .SEC_STATUS_VK_USED) = 1) ∧
    (∃ (s : State) (j : Fin 2) (tag : Nat) (rest : List MbCall), Serves s j 0x24 tag rest ∧ sessionMissing s j.val = false) ∧
    (∃ (s : State) (j : Fin 2) (tag : Nat) (rest : List MbCall), Serves s j 0x23 tag rest ∧ (sessionMissing s j.val = true ∨ fwBusy s =
      true)) ∧
    (∃ (s : State) (j : Fin 2) (tag : Nat) (rest : List MbCall), Serves s j 0x24 tag rest ∧ sessionMissing s j.val = true) ∧
    (∃ (s : State) (j : Fin 2) (tag : Nat) (rest : List MbCall), Serves s j 0x30 tag rest ∧ sessionMissing s j.val = false ∧ s.rd
      .SEC_STATUS_POLICY_LOCKED ≠ 1) ∧
    (∃ (s : State) (j : Fin 2) (tag : Nat) (rest : List MbCall), Serves s j 0x30 tag rest ∧ (sessionMissing s j.val = true ∨ s.rd
      .SEC_STATUS_POLICY_LOCKED = 1)) ∧
    (∃ (s : State) (j : Fin 2) (tag : Nat) (rest : List MbCall), Serves s j 0x31 tag rest ∧ (sessionMissing s j.val = true ∨ s.rd
      .SEC_STATUS_POLICY_LOCKED = 1 ∨ 4 ≤ mbArg s j.val 0)) ∧
    (∃ (s : State) (j : Fin 2) (tag : Nat) (rest : List MbCall), Serves s j 0x31 tag rest ∧ sessionMissing s j.val = false ∧ s.rd
      .SEC_STATUS_POLICY_LOCKED ≠ 1 ∧ mbArg s j.val 0 < 4 ∧ mbArg s j.val 3 ≠ 1 ∧ CleanCells s ∧ bufferCode s j.val (mbAddr s j.val
      1) 48 mbOk ≠ mbOk) ∧
    (∃ (s : State) (j : Fin 2) (tag : Nat) (rest : List MbCall), Serves s j 0x31 tag rest ∧ sessionMissing s j.val = false ∧ s.rd
      .SEC_STATUS_POLICY_LOCKED ≠ 1 ∧ mbArg s j.val 0 < 4 ∧ mbArg s j.val 3 ≠ 1 ∧ CleanCells s ∧ memAllowed s j.val .read (mbAddr s
      j.val 1) 48 = true ∧ s.anyPoison (mbAddr s j.val 1) 48 = false) ∧
    (∃ (s : State) (j : Fin 2) (tag : Nat) (rest : List MbCall), Serves s j 0x31 tag rest ∧ sessionMissing s j.val = false ∧ s.rd
      .SEC_STATUS_POLICY_LOCKED ≠ 1 ∧ mbArg s j.val 0 < 4 ∧ mbArg s j.val 3 = 1) ∧
    (∃ (s : State) (j : Fin 2) (tag : Nat) (rest : List MbCall), Serves s j 0x32 tag rest ∧ sessionMissing s j.val = false ∧ s.rd
      .SEC_STATUS_POLICY_LOCKED ≠ 1 ∧ CleanCells s ∧ memAllowed s j.val .read (mbAddr s j.val 1) 48 = true ∧ s.anyPoison (mbAddr s
      j.val 1) 48 = false) ∧
    (∃ (s : State) (j : Fin 2) (tag : Nat) (rest : List MbCall), Serves s j 0x32 tag rest ∧ CleanCells s ∧ (sessionMissing s j.val =
      true ∨ s.rd .SEC_STATUS_POLICY_LOCKED = 1 ∨ bufferCode s j.val (mbAddr s j.val 1) 48 mbOk ≠ mbOk)) ∧
    (∃ (s : State) (j : Fin 2) (tag : Nat) (rest : List MbCall), Serves s j 0x33 tag rest ∧ sessionMissing s j.val = true) ∧
    (∃ (s : State) (j : Fin 2) (tag : Nat) (rest : List MbCall), Serves s j 0x33 tag rest ∧ sessionMissing s j.val = false) :=
  ⟨⟨(((mailUp 0x23).wr .SEC_SVN_RUN_SVN 3).wr .SEC_MB_ARG_ARG 2 0 1 0).wr .SEC_MB_ARG_ARG 6 0 1 1, 1, 9, [], by decide +kernel⟩,
    ⟨(mailUp 0x23).wr .SEC_MB_ARG_ARG 1 0 1 1, 1, 9, [], by decide +kernel⟩,
    ⟨(mailUp 0x24).wr .SEC_MB_ARG_ARG 1 0 1 0, 1, 9, [], by decide +kernel⟩,
    ⟨(mailUp 0x23).wr .SEC_STATUS_OWNER_SET 1, 1, 9, [], by decide +kernel⟩,
    ⟨(mailUp 0x24).wr .SEC_STATUS_OWNER_SET 1, 1, 9, [], by decide +kernel⟩,
    ⟨(mailUp 0x30).wr .SEC_MB_ARG_ARG 1 0 1 0, 1, 9, [], by decide +kernel⟩,
    ⟨(mailUp 0x30).wr .SEC_STATUS_POLICY_LOCKED 1, 1, 9, [], by decide +kernel⟩,
    ⟨argUp 0x31 4, 1, 9, [], by decide +kernel⟩,
    ⟨mailUp 0x31, 1, 9, [], by decide +kernel⟩,
    ⟨argUp 0x31 3, 1, 9, [], by decide +kernel⟩,
    ⟨(argUp 0x31 3).wr .SEC_MB_ARG_ARG 1 0 1 3, 1, 9, [], by decide +kernel⟩,
    ⟨argUp 0x32 0, 1, 9, [], by decide +kernel⟩,
    ⟨(argUp 0x32 0).wr .SEC_STATUS_POLICY_LOCKED 1, 1, 9, [], by decide +kernel⟩,
    ⟨(mailUp 0x33).wr .SEC_STATUS_OWNER_SET 1, 1, 9, [], by decide +kernel⟩,
    ⟨argUp 0x33 0x4C4F434B, 1, 9, [], by decide +kernel⟩⟩

theorem witness_StepKeepsInvariant : ∃ s t : State, Inv s ∧ step s = .next t :=
  ⟨{ armedLc 5 0 with pending := [.lcFire 3] }, _, inv_of_fits (by decide +kernel), rfl⟩

theorem witness_CommandFrames :
    (∃ (c : Instr) (s : State), s.dev ≠ .up ∧ (∀ (a : BitVec 3) (v : Bool), c ≠ .powerGoodRise a v) ∧ c ≠ .powerGoodFall ∧
      (∀ (a : List (Fin 48)) (b : List (Fin 60)), c ≠ .powerupNvmLoaded a b) ∧
      c ≠ .resetPin ∧ (∀ a : BitVec 3, c ≠ .warmResetEnd a)) ∧
    (∃ (c : Instr) (l : List Part) (s t : State), c.footprint = some l ∧ exec c s = .next t) :=
  ⟨⟨.refLost, State.reset, by decide, nofun, nofun, nofun, nofun, nofun⟩, ⟨.nop 3, _, stitchAt 0, _, rfl, rfl⟩⟩


theorem witness_StoresToMemory :
    (∃ t, exec (.ringRefill 5 0 false 8) ringUp = .next t) ∧ (∃ t, exec (.captureSample 1 5) tierUp = .next t) ∧
    (∃ t, exec (.quarryRequestAccept 2 true 0x1000000100 0 [1, 2]) qryUp = .next t) ∧
    (∃ t, exec (.benchAccess 5 false 0x80000 4 [] false none [] []) (region 5 up) = .next t) ∧
    (∃ t, exec (.benchAccess 5 true 0x80000 0 [1, 2] false none [] []) (region 5 up) = .next t) ∧
    (∃ t, exec (.benchAliasWrite 2 true 0x80000 [1, 2]) up = .next t) ∧ (∃ t, exec (.benchWake 4) (up.wr .BENCH_BPWR_STAT_STATE 1 0 0 4) = .next t) ∧
    (∃ t, exec .dExit (up.wr .POWER_STATUS_EXITING 1) = .next t) ∧ (∃ t, exec (.benchModeWrite 0 0x80) up = .next t) ∧
    (∃ t, exec (.tunnelDone 1) (tunUp .write) = .next t) ∧
    (allRegisters 0x10080000 2 = false ∧ ∃ t, exec (.masterAccess 5 0x10080000 (some [1, 2]) 0) (region 5 up) = .next t) ∧
    (∃ t, exec (.masterAccess 5 0x10080000 none 2) (region 5 up) = .next t) ∧ (∃ t, exec (.loaderGo 0 true imageHead) up = .next t) ∧
    (∃ t, exec (.loaderAbort 0 true [1]) (up.wr .XSPI_LD_STAT_BUSY 1) = .next t) ∧
    (∃ t, exec (.flashTimeout [1]) (up.wr .XSPI_LD_STAT_BUSY 1) = .next t) ∧
    (∃ t, exec (.loaderEntryDone imageHead []) (up.wr .XSPI_LD_STAT_BUSY 1) = .next t) ∧
    (up.ldr.image = false ∧ ∃ t, exec (.loaderDone [] [] []) up = .next t) ∧
    (∃ s t : State, s.ldr.image = true ∧ exec (.loaderDone [] [] []) s = .next t) ∧ (∃ t, exec (.getCert 1) (argUp 2 0) = .next t) ∧
    (∃ t, exec (.quote 1) (argUp 3 0) = .next t) ∧ (∃ t, exec (.fwStage 1) (lenUp 0x20 8848) = .next t) ∧
    (∃ t, exec (.evtEnWrite 5 .cse 7 3) up = .next t) :=
  ⟨⟨_, rfl⟩, ⟨_, rfl⟩, ⟨_, rfl⟩, ⟨_, rfl⟩, ⟨_, rfl⟩, ⟨_, rfl⟩, ⟨_, rfl⟩, ⟨_, rfl⟩, ⟨_, rfl⟩, ⟨_, rfl⟩, ⟨by decide, _, rfl⟩, ⟨_, rfl⟩,
    ⟨_, rfl⟩, ⟨_, rfl⟩, ⟨_, rfl⟩, ⟨_, rfl⟩, ⟨rfl, _, rfl⟩, ⟨{ up with ldr := { image := true } }, _, rfl, rfl⟩, ⟨_, rfl⟩, ⟨_, rfl⟩,
    ⟨_, rfl⟩, ⟨_, rfl⟩⟩

theorem witness_OwnInstances :
    (∃ t, exec (.qclkLocked 12) up = .next t) ∧ (∃ t, exec (.qclkSettleDone 3) up = .next t) ∧
    (∃ t, exec (.useSpareSet 5 3) up = .next t) ∧ (∃ t, exec (.useSpareClear 5 3) up = .next t) ∧
    (∃ t, exec (.gstbModeWrite 5 1 0x1) up = .next t) ∧ (∃ t, exec (.gstbStrobe 1) up = .next t) ∧
    (∃ t, exec (.playerFinish 7 1) up = .next t) ∧ (∃ t, exec (.waittResume 3) up = .next t) ∧
    (∃ t, exec (.lcGrantWrite 5 3 1 0x1) up = .next t) ∧ (∃ t, exec (.evinLatchClear 5 3 0x1) up = .next t) ∧
    (∃ t, exec (.mcSwitchReq 5 3) up = .next t) ∧ (∃ t, exec (.gangReady 3) up = .next t) ∧
    (∃ t, exec (.qcfgWrite 5 1 0x1) up = .next t) ∧ (∃ t, exec (.sqUnderrunFault 7) up = .next t) ∧
    (∃ t, exec (.stageSwitchReq 5 7) up = .next t) ∧ (∃ t, exec (.currentLimitEnter 7) up = .next t) ∧
    (∃ t, exec (.currentLimitExit 7) up = .next t) ∧ (∃ t, exec (.foldbackEnd 7) up = .next t) ∧
    (∃ t, exec (.overtempClear 7) up = .next t) ∧ (∃ t, exec (.faultForceWrite 5 7 true) up = .next t) ∧
    (∃ t, exec (.faultClear 5 7) up = .next t) ∧ (∃ t, exec (.nvmProgram 5 7 0xA5) up = .next t) ∧
    (∃ t, exec (.nvmReload 5 7 0xA5) up = .next t) ∧ (∃ t, exec (.stormClear 5 3) up = .next t) ∧
    (∃ t, exec (.lineSrcWrite 5 3 1 0x1) up = .next t) ∧ (∃ t, exec (.pinClaim 5 1 0x1) up = .next t) ∧
    (∃ t, exec (.pinRelease 5 1) up = .next t) ∧ (∃ t, exec (.pinModeWrite 5 1 true true) up = .next t) ∧
    (∃ t, exec (.capuClaim 5 1) up = .next t) ∧ (∃ t, exec (.capuInfoRead 5 1) up = .next t) ∧ (∃ t, exec (.rstdaa 1) up = .next t) ∧
    (∃ t, exec (.setnewda 1 1) up = .next t) ∧ (∃ t, exec (.setmwl 1 1) up = .next t) ∧ (∃ t, exec (.setmrl 1 1) up = .next t) ∧
    (∃ t, exec (.enthdr0 1) up = .next t) ∧ (∃ t, exec (.hdrExit 1) up = .next t) ∧ (∃ t, exec (.portHealthReturn 1) up = .next t) :=
  ⟨⟨_, rfl⟩, ⟨_, rfl⟩, ⟨_, rfl⟩, ⟨_, rfl⟩, ⟨_, rfl⟩, ⟨_, rfl⟩, ⟨_, rfl⟩, ⟨_, rfl⟩, ⟨_, rfl⟩, ⟨_, rfl⟩, ⟨_, rfl⟩, ⟨_, rfl⟩, ⟨_, rfl⟩,
    ⟨_, rfl⟩, ⟨_, rfl⟩, ⟨_, rfl⟩, ⟨_, rfl⟩, ⟨_, rfl⟩, ⟨_, rfl⟩, ⟨_, rfl⟩, ⟨_, rfl⟩, ⟨_, rfl⟩, ⟨_, rfl⟩, ⟨_, rfl⟩, ⟨_, rfl⟩, ⟨_, rfl⟩,
    ⟨_, rfl⟩, ⟨_, rfl⟩, ⟨_, rfl⟩, ⟨_, rfl⟩, ⟨_, rfl⟩, ⟨_, rfl⟩, ⟨_, rfl⟩, ⟨_, rfl⟩, ⟨_, rfl⟩, ⟨_, rfl⟩, ⟨_, rfl⟩⟩

end Sys2Proof.Tests
end

section
/-! PROOFS. What every command keeps: the queue, the invariant, the parts outside its footprint, and, while the device does not run, the
whole state. Each command's own law stands in Laws/<Family>Keeps.lean; here they are put together over the dispatch. -/

namespace Sys2Proof.Machine

/-! ### Footprints as numbers -/

/-- One footprint lies within another by evaluation of their bits. -/
theorem Within.of_beq {l : List Part} {m : Nat} (h : (Nat.land (mask l) m == mask l) = true) : Within l m := eq_of_beq h

theorem Part.bit_lt (p : Part) : p.bit < 1069 := by
  cases p with
  | reg r => exact Nat.lt_trans r.ctorIdx_lt (by decide)
  | _ => decide

/-- The footprint of everything. -/
def everything : Nat := 2 ^ 1069 - 1

theorem everything_whole : Whole everything := ⟨fun p => by rw [everything, Nat.testBit_two_pow_sub_one, decide_eq_true p.bit_lt]⟩

theorem Keeps.widen {m k : Nat} {s t : State} (h : Keeps m s t) (hk : Whole k) : Keeps k s t :=
  (Keeps.refl k s).whole hk h.pending h.inv

/-! ### Every command by its own law -/

/-- A command with a footprint answers a next state and keeps it within its footprint. -/
theorem exec_ends_footprint {c : Instr} {l : List Part} (s : State) (hf : c.footprint = some l) : Ends (mask l) s (exec c s) := by
  cases c
  case readClear => cases hf; exact execReadClear_keeps (.refl _ s) (.of_beq (by decide +kernel)) ..
  case read64Low => cases hf; exact execRead64Low_keeps (.refl _ s) (.of_beq (by decide +kernel)) ..
  case read64High => cases hf; exact execRead64High_keeps (.refl _ s) (.of_beq (by decide +kernel)) ..
  case quadSampleEdge => cases hf; exact execQuadSampleEdge_keeps (.refl _ s) (.of_beq (by decide +kernel)) ..
  case sqUnderrunFault => cases hf; exact execSqUnderrunFault_keeps (.refl _ s) (.of_beq (by decide +kernel)) ..
  case paceWindowEnd => cases hf; exact execPaceWindowEnd_keeps (.refl _ s) (.of_beq (by decide +kernel)) ..
  case refModeWrite => cases hf; exact execRefModeWrite_keeps (.refl _ s) (.of_beq (by decide +kernel)) ..
  case holdResyncClear => cases hf; exact execHoldResyncClear_keeps (.refl _ s) (.of_beq (by decide +kernel)) ..
  case tallyEnWrite => cases hf; exact execTallyEnWrite_keeps (.refl _ s) (.of_beq (by decide +kernel)) ..
  case refLost => cases hf; exact execRefLost_keeps (.refl _ s) (.of_beq (by decide +kernel)) ..
  case refReturn => cases hf; exact execRefReturn_keeps (.refl _ s) (.of_beq (by decide +kernel)) ..
  case pllRelocked => cases hf; exact execPllRelocked_keeps (.refl _ s) (.of_beq (by decide +kernel)) ..
  case slewDone => cases hf; exact execSlewDone_keeps (.refl _ s) (.of_beq (by decide +kernel)) ..
  case pllUnlock => cases hf; exact execPllUnlock_keeps (.refl _ s) (.of_beq (by decide +kernel)) ..
  case epochArm => cases hf; exact execEpochArm_keeps (.refl _ s) (.of_beq (by decide +kernel)) ..
  case epochCancel => cases hf; exact execEpochCancel_keeps (.refl _ s) (.of_beq (by decide +kernel)) ..
  case epochLoad => cases hf; exact execEpochLoad_keeps (.refl _ s) (.of_beq (by decide +kernel)) ..
  case lcClaim => cases hf; exact execLcClaim_keeps (.refl _ s) (.of_beq (by decide +kernel)) ..
  case lcRelease => cases hf; exact execLcRelease_keeps (.refl _ s) (.of_beq (by decide +kernel)) ..
  case lcArm => cases hf; exact execLcArm_keeps (.refl _ s) (.of_beq (by decide +kernel)) ..
  case lcDisarm => cases hf; exact execLcDisarm_keeps (.refl _ s) (.of_beq (by decide +kernel)) ..
  case lcFire => cases hf; exact execLcFire_keeps (.refl _ s) (.of_beq (by decide +kernel)) ..
  case qclkStart => cases hf; exact execQclkStart_keeps (.refl _ s) (.of_beq (by decide +kernel)) ..
  case qclkStop => cases hf; exact execQclkStop_keeps (.refl _ s) (.of_beq (by decide +kernel)) ..
  case qclkLocked => cases hf; exact execQclkLocked_keeps (.refl _ s) (.of_beq (by decide +kernel)) ..
  case qclkResume => cases hf; exact execQclkResume_keeps (.refl _ s) (.of_beq (by decide +kernel)) ..
  case qclkSettleDone => cases hf; exact execQclkSettleDone_keeps (.refl _ s) (.of_beq (by decide +kernel)) ..
  case lockLost => cases hf; exact execLockLost_keeps (.refl _ s) (.of_beq (by decide +kernel)) ..
  case spareCoverAssign => cases hf; exact execSpareCoverAssign_keeps (.refl _ s) (.of_beq (by decide +kernel)) ..
  case spareSynthReady => cases hf; exact execSpareSynthReady_keeps (.refl _ s) (.of_beq (by decide +kernel)) ..
  case useSpareSet => cases hf; exact execUseSpareSet_keeps (.refl _ s) (.of_beq (by decide +kernel)) ..
  case rehomed => cases hf; exact execRehomed_keeps (.refl _ s) (.of_beq (by decide +kernel)) ..
  case useSpareClear => cases hf; exact execUseSpareClear_keeps (.refl _ s) (.of_beq (by decide +kernel)) ..
  case rehomeBack => cases hf; exact execRehomeBack_keeps (.refl _ s) (.of_beq (by decide +kernel)) ..
  case gstbModeWrite => cases hf; exact execGstbModeWrite_keeps (.refl _ s) (.of_beq (by decide +kernel)) ..
  case gstbStrobe => cases hf; exact execGstbStrobe_keeps (.refl _ s) (.of_beq (by decide +kernel)) ..
  case tallySyncAcquire => cases hf; exact execTallySyncAcquire_keeps (.refl _ s) (.of_beq (by decide +kernel)) ..
  case tallyLos => cases hf; exact execTallyLos_keeps (.refl _ s) (.of_beq (by decide +kernel)) ..
  case tallyEpochFrame => cases hf; exact execTallyEpochFrame_keeps (.refl _ s) (.of_beq (by decide +kernel)) ..
  case tallyLaunchFrame => cases hf; exact execTallyLaunchFrame_keeps (.refl _ s) (.of_beq (by decide +kernel)) ..
  case tallySpeedFrame => cases hf; exact execTallySpeedFrame_keeps (.refl _ s) (.of_beq (by decide +kernel)) ..
  case tallySpeedDeferred => cases hf; exact execTallySpeedDeferred_keeps (.refl _ s) (.of_beq (by decide +kernel)) ..
  case synthesisSample => cases hf; exact execSynthesisSample_keeps (.refl _ s) (.of_beq (by decide +kernel)) ..
  case rampDone => cases hf; exact execRampDone_keeps (.refl _ s) (.of_beq (by decide +kernel)) ..
  case slotDisable => cases hf; exact execSlotDisable_keeps (.refl _ s) (.of_beq (by decide +kernel)) ..
  case patternEntryAdvance => cases hf; exact execPatternEntryAdvance_keeps (.refl _ s) (.of_beq (by decide +kernel)) ..
  case markerPulseEnd => cases hf; exact execMarkerPulseEnd_keeps (.refl _ s) (.of_beq (by decide +kernel)) ..
  case playerFinish => cases hf; exact execPlayerFinish_keeps (.refl _ s) (.of_beq (by decide +kernel)) ..
  case channelIdleEnter => cases hf; exact execChannelIdleEnter_keeps (.refl _ s) (.of_beq (by decide +kernel)) ..
  case playTime => cases hf; exact execPlayTime_keeps (.refl _ s) (.of_beq (by decide +kernel)) ..
  case playAngle => cases hf; exact execPlayAngle_keeps (.refl _ s) (.of_beq (by decide +kernel)) ..
  case partials => cases hf; exact execPartials_keeps (.refl _ s) (.of_beq (by decide +kernel)) ..
  case noise => cases hf; exact execNoise_keeps (.refl _ s) (.of_beq (by decide +kernel)) ..
  case level => cases hf; exact execLevel_keeps (.refl _ s) (.of_beq (by decide +kernel)) ..
  case descRamp => cases hf; exact execDescRamp_keeps (.refl _ s) (.of_beq (by decide +kernel)) ..
  case pattern => cases hf; exact execPattern_keeps (.refl _ s) (.of_beq (by decide +kernel)) ..
  case descSpeed => cases hf; exact execDescSpeed_keeps (.refl _ s) (.of_beq (by decide +kernel)) ..
  case descMark => cases hf; exact execDescMark_keeps (.refl _ s) (.of_beq (by decide +kernel)) ..
  case idle => cases hf; exact execIdle_keeps (.refl _ s) (.of_beq (by decide +kernel)) ..
  case fence => cases hf; exact execFence_keeps (.refl _ s) (.of_beq (by decide +kernel)) ..
  case allocWrite => cases hf; exact execAllocWrite_keeps (.refl _ s) (.of_beq (by decide +kernel)) ..
  case cseEnableWrite => cases hf; exact execCseEnableWrite_keeps (.refl _ s) (.of_beq (by decide +kernel)) ..
  case cseSoftReset => cases hf; exact execCseSoftReset_keeps (.refl _ s) (.of_beq (by decide +kernel)) ..
  case pwrReqWrite => cases hf; exact execPwrReqWrite_keeps (.refl _ s) (.of_beq (by decide +kernel)) ..
  case stitchEnable => cases hf; exact execStitchEnable_keeps (.refl _ s) (.of_beq (by decide +kernel)) ..
  case stitchDisable => cases hf; exact execStitchDisable_keeps (.refl _ s) (.of_beq (by decide +kernel)) ..
  case stitchSoftReset => cases hf; exact execStitchSoftReset_keeps (.refl _ s) (.of_beq (by decide +kernel)) ..
  case instructionFetch => cases hf; exact execInstructionFetch_keeps (.refl _ s) (.of_beq (by decide +kernel)) ..
  case nop => cases hf; exact execNop_keeps (.refl _ s) (.of_beq (by decide +kernel)) ..
  case halt => cases hf; exact execHalt_keeps (.refl _ s) (.of_beq (by decide +kernel)) ..
  case play => cases hf; exact execPlay_keeps (.refl _ s) (.of_beq (by decide +kernel)) ..
  case playa => cases hf; exact execPlaya_keeps (.refl _ s) (.of_beq (by decide +kernel)) ..
  case hold => cases hf; exact execHold_keeps (.refl _ s) (.of_beq (by decide +kernel)) ..
  case mark => cases hf; exact execMark_keeps (.refl _ s) (.of_beq (by decide +kernel)) ..
  case speed => cases hf; exact execSpeed_keeps (.refl _ s) (.of_beq (by decide +kernel)) ..
  case ramp => cases hf; exact execRamp_keeps (.refl _ s) (.of_beq (by decide +kernel)) ..
  case creditWaitEnd => cases hf; exact execCreditWaitEnd_keeps (.refl _ s) (.of_beq (by decide +kernel)) ..
  case loop => cases hf; exact execLoop_keeps (.refl _ s) (.of_beq (by decide +kernel)) ..
  case endl => cases hf; exact execEndl_keeps (.refl _ s) (.of_beq (by decide +kernel)) ..
  case call => cases hf; exact execCall_keeps (.refl _ s) (.of_beq (by decide +kernel)) ..
  case ret => cases hf; exact execRet_keeps (.refl _ s) (.of_beq (by decide +kernel)) ..
  case jev => cases hf; exact execJev_keeps (.refl _ s) (.of_beq (by decide +kernel)) ..
  case waitt => cases hf; exact execWaitt_keeps (.refl _ s) (.of_beq (by decide +kernel)) ..
  case waittResume => cases hf; exact execWaittResume_keeps (.refl _ s) (.of_beq (by decide +kernel)) ..
  case waite => cases hf; exact execWaite_keeps (.refl _ s) (.of_beq (by decide +kernel)) ..
  case waiteTimeout => cases hf; exact execWaiteTimeout_keeps (.refl _ s) (.of_beq (by decide +kernel)) ..
  case arm => cases hf; exact execArm_keeps (.refl _ s) (.of_beq (by decide +kernel)) ..
  case disarm => cases hf; exact execDisarm_keeps (.refl _ s) (.of_beq (by decide +kernel)) ..
  case emit => cases hf; exact execEmit_keeps (.refl _ s) (.of_beq (by decide +kernel)) ..
  case gangReady => cases hf; exact execGangReady_keeps (.refl _ s) (.of_beq (by decide +kernel)) ..
  case gangCommit => cases hf; exact execGangCommit_keeps (.refl _ s) (.of_beq (by decide +kernel)) ..
  case gangCommitPoint => cases hf; exact execGangCommitPoint_keeps (.refl _ s) (.of_beq (by decide +kernel)) ..
  case gangPrepareTimeout => cases hf; exact execGangPrepareTimeout_keeps (.refl _ s) (.of_beq (by decide +kernel)) ..
  case gangAbort => cases hf; exact execGangAbort_keeps (.refl _ s) (.of_beq (by decide +kernel)) ..
  case gangWaitc => cases hf; exact execGangWaitc_keeps (.refl _ s) (.of_beq (by decide +kernel)) ..
  case stitcherEventInput => cases hf; exact execStitcherEventInput_keeps (.refl _ s) (.of_beq (by decide +kernel)) ..
  case armedSwitch => cases hf; exact execArmedSwitch_keeps (.refl _ s) (.of_beq (by decide +kernel)) ..
  case lcGrantWrite => cases hf; exact execLcGrantWrite_keeps (.refl _ s) (.of_beq (by decide +kernel)) ..
  case evinLatchClear => cases hf; exact execEvinLatchClear_keeps (.refl _ s) (.of_beq (by decide +kernel)) ..
  case mcSwitchReq => cases hf; exact execMcSwitchReq_keeps (.refl _ s) (.of_beq (by decide +kernel)) ..
  case mcSwitch => cases hf; exact execMcSwitch_keeps (.refl _ s) (.of_beq (by decide +kernel)) ..
  case pushWinWord => cases hf; exact execPushWinWord_keeps (.refl _ s) (.of_beq (by decide +kernel)) ..
  case pushAbort => cases hf; exact execPushAbort_keeps (.refl _ s) (.of_beq (by decide +kernel)) ..
  case qcfgWrite => cases hf; exact execQcfgWrite_keeps (.refl _ s) (.of_beq (by decide +kernel)) ..
  case headSlotFetch => cases hf; exact execHeadSlotFetch_keeps (.refl _ s) (.of_beq (by decide +kernel)) ..
  case linkSweepDone => cases hf; exact execLinkSweepDone_keeps (.refl _ s) (.of_beq (by decide +kernel)) ..
  case queueDrop => cases hf; exact execQueueDrop_keeps (.refl _ s) (.of_beq (by decide +kernel)) ..
  case queueFlush => cases hf; exact execQueueFlush_keeps (.refl _ s) (.of_beq (by decide +kernel)) ..
  case packetTorn => cases hf; exact execPacketTorn_keeps (.refl _ s) (.of_beq (by decide +kernel)) ..
  case tackSoftReset => cases hf; exact execTackSoftReset_keeps (.refl _ s) (.of_beq (by decide +kernel)) ..
  case ringEnable => cases hf; exact execRingEnable_keeps (.refl _ s) (.of_beq (by decide +kernel)) ..
  case ringDisable => cases hf; exact execRingDisable_keeps (.refl _ s) (.of_beq (by decide +kernel)) ..
  case ringRefill => cases hf; exact execRingRefill_keeps (.refl _ s) (.of_beq (by decide +kernel)) ..
  case outEnableWrite => cases hf; exact execOutEnableWrite_keeps (.refl _ s) (.of_beq (by decide +kernel)) ..
  case outSoftReset => cases hf; exact execOutSoftReset_keeps (.refl _ s) (.of_beq (by decide +kernel)) ..
  case stageTrackingFault => cases hf; exact execStageTrackingFault_keeps (.refl _ s) (.of_beq (by decide +kernel)) ..
  case stageBiasFault => cases hf; exact execStageBiasFault_keeps (.refl _ s) (.of_beq (by decide +kernel)) ..
  case stageSwitchReq => cases hf; exact execStageSwitchReq_keeps (.refl _ s) (.of_beq (by decide +kernel)) ..
  case stageSwitchover => cases hf; exact execStageSwitchover_keeps (.refl _ s) (.of_beq (by decide +kernel)) ..
  case senseFault => cases hf; exact execSenseFault_keeps (.refl _ s) (.of_beq (by decide +kernel)) ..
  case currentLimitEnter => cases hf; exact execCurrentLimitEnter_keeps (.refl _ s) (.of_beq (by decide +kernel)) ..
  case foldback => cases hf; exact execFoldback_keeps (.refl _ s) (.of_beq (by decide +kernel)) ..
  case scClr => cases hf; exact execScClr_keeps (.refl _ s) (.of_beq (by decide +kernel)) ..
  case foldbackRetry => cases hf; exact execFoldbackRetry_keeps (.refl _ s) (.of_beq (by decide +kernel)) ..
  case foldbackEnd => cases hf; exact execFoldbackEnd_keeps (.refl _ s) (.of_beq (by decide +kernel)) ..
  case overtemp => cases hf; exact execOvertemp_keeps (.refl _ s) (.of_beq (by decide +kernel)) ..
  case overtempClear => cases hf; exact execOvertempClear_keeps (.refl _ s) (.of_beq (by decide +kernel)) ..
  case nvmProgram => cases hf; exact execNvmProgram_keeps (.refl _ s) (.of_beq (by decide +kernel)) ..
  case nvmReload => cases hf; exact execNvmReload_keeps (.refl _ s) (.of_beq (by decide +kernel)) ..
  case nvmDone => cases hf; exact execNvmDone_keeps (.refl _ s) (.of_beq (by decide +kernel)) ..
  case nvValueWrite => cases hf; exact execNvValueWrite_keeps (.refl _ s) (.of_beq (by decide +kernel)) ..
  case faultForceWrite => cases hf; exact execFaultForceWrite_keeps (.refl _ s) (.of_beq (by decide +kernel)) ..
  case faultClear => cases hf; exact execFaultClear_keeps (.refl _ s) (.of_beq (by decide +kernel)) ..
  case faultEnter => cases hf; exact execFaultEnter_keeps (.refl _ s) (.of_beq (by decide +kernel)) ..
  case faultExit => cases hf; exact execFaultExit_keeps (.refl _ s) (.of_beq (by decide +kernel)) ..
  case spanSlewEnd => cases hf; exact execSpanSlewEnd_keeps (.refl _ s) (.of_beq (by decide +kernel)) ..
  case spanHoldEnd => cases hf; exact execSpanHoldEnd_keeps (.refl _ s) (.of_beq (by decide +kernel)) ..
  case spanSwitchDone => cases hf; exact execSpanSwitchDone_keeps (.refl _ s) (.of_beq (by decide +kernel)) ..
  case spanSettleEnd => cases hf; exact execSpanSettleEnd_keeps (.refl _ s) (.of_beq (by decide +kernel)) ..
  case spanRelease => cases hf; exact execSpanRelease_keeps (.refl _ s) (.of_beq (by decide +kernel)) ..
  case powerGoodRise => cases hf; exact execPowerGoodRise_keeps (.refl _ s) (.of_beq (by decide +kernel)) ..
  case powerupNvmLoaded => cases hf; exact execPowerupNvmLoaded_keeps (.refl _ s) (.of_beq (by decide +kernel)) ..
  case powerupRefSettled => cases hf; exact execPowerupRefSettled_keeps (.refl _ s) (.of_beq (by decide +kernel)) ..
  case powerupStageBiased => cases hf; exact execPowerupStageBiased_keeps (.refl _ s) (.of_beq (by decide +kernel)) ..
  case powerupSwitchClose => cases hf; exact execPowerupSwitchClose_keeps (.refl _ s) (.of_beq (by decide +kernel)) ..
  case powerupWakeReached => cases hf; exact execPowerupWakeReached_keeps (.refl _ s) (.of_beq (by decide +kernel)) ..
  case rotationStart => cases hf; exact execRotationStart_keeps (.refl _ s) (.of_beq (by decide +kernel)) ..
  case visitReq => cases hf; exact execVisitReq_keeps (.refl _ s) (.of_beq (by decide +kernel)) ..
  case shadowStart => cases hf; exact execShadowStart_keeps (.refl _ s) (.of_beq (by decide +kernel)) ..
  case matchStart => cases hf; exact execMatchStart_keeps (.refl _ s) (.of_beq (by decide +kernel)) ..
  case matchDecision => cases hf; exact execMatchDecision_keeps (.refl _ s) (.of_beq (by decide +kernel)) ..
  case handover => cases hf; exact execHandover_keeps (.refl _ s) (.of_beq (by decide +kernel)) ..
  case calMeasureDone => cases hf; exact execCalMeasureDone_keeps (.refl _ s) (.of_beq (by decide +kernel)) ..
  case calSolveDone => cases hf; exact execCalSolveDone_keeps (.refl _ s) (.of_beq (by decide +kernel)) ..
  case calVerifyDone => cases hf; exact execCalVerifyDone_keeps (.refl _ s) (.of_beq (by decide +kernel)) ..
  case referenceFrame => cases hf; exact execReferenceFrame_keeps (.refl _ s) (.of_beq (by decide +kernel)) ..
  case coreHealthFault => cases hf; exact execCoreHealthFault_keeps (.refl _ s) (.of_beq (by decide +kernel)) ..
  case failoverReq => cases hf; exact execFailoverReq_keeps (.refl _ s) (.of_beq (by decide +kernel)) ..
  case failoverSwitch => cases hf; exact execFailoverSwitch_keeps (.refl _ s) (.of_beq (by decide +kernel)) ..
  case calibrationAbandon => cases hf; exact execCalibrationAbandon_keeps (.refl _ s) (.of_beq (by decide +kernel)) ..
  case captureStart => cases hf; exact execCaptureStart_keeps (.refl _ s) (.of_beq (by decide +kernel)) ..
  case captureAbort => cases hf; exact execCaptureAbort_keeps (.refl _ s) (.of_beq (by decide +kernel)) ..
  case captureSample => cases hf; exact execCaptureSample_keeps (.refl _ s) (.of_beq (by decide +kernel)) ..
  case capEnd => cases hf; exact execCapEnd_keeps (.refl _ s) (.of_beq (by decide +kernel)) ..
  case burnishSaveNow => cases hf; exact execBurnishSaveNow_keeps (.refl _ s) (.of_beq (by decide +kernel)) ..
  case coreMapWrite => cases hf; exact execCoreMapWrite_keeps (.refl _ s) (.of_beq (by decide +kernel)) ..
  case trimSaveTimer => cases hf; exact execTrimSaveTimer_keeps (.refl _ s) (.of_beq (by decide +kernel)) ..
  case lineFire => cases hf; exact execLineFire_keeps (.refl _ s) (.of_beq (by decide +kernel)) ..
  case lineRearm => cases hf; exact execLineRearm_keeps (.refl _ s) (.of_beq (by decide +kernel)) ..
  case stormWindowStart => cases hf; exact execStormWindowStart_keeps (.refl _ s) (.of_beq (by decide +kernel)) ..
  case stormClear => cases hf; exact execStormClear_keeps (.refl _ s) (.of_beq (by decide +kernel)) ..
  case rememberedDeliver => cases hf; exact execRememberedDeliver_keeps (.refl _ s) (.of_beq (by decide +kernel)) ..
  case lineClaim => cases hf; exact execLineClaim_keeps (.refl _ s) (.of_beq (by decide +kernel)) ..
  case lineRelease => cases hf; exact execLineRelease_keeps (.refl _ s) (.of_beq (by decide +kernel)) ..
  case lineCfgWrite => cases hf; exact execLineCfgWrite_keeps (.refl _ s) (.of_beq (by decide +kernel)) ..
  case lineSrcWrite => cases hf; exact execLineSrcWrite_keeps (.refl _ s) (.of_beq (by decide +kernel)) ..
  case loopRecompute => cases hf; exact execLoopRecompute_keeps (.refl _ s) (.of_beq (by decide +kernel)) ..
  case hostTrig => cases hf; exact execHostTrig_keeps (.refl _ s) (.of_beq (by decide +kernel)) ..
  case svcModeWrite => cases hf; exact execSvcModeWrite_keeps (.refl _ s) (.of_beq (by decide +kernel)) ..
  case patInputEdge => cases hf; exact execPatInputEdge_keeps (.refl _ s) (.of_beq (by decide +kernel)) ..
  case pinClaim => cases hf; exact execPinClaim_keeps (.refl _ s) (.of_beq (by decide +kernel)) ..
  case pinRelease => cases hf; exact execPinRelease_keeps (.refl _ s) (.of_beq (by decide +kernel)) ..
  case pinModeWrite => cases hf; exact execPinModeWrite_keeps (.refl _ s) (.of_beq (by decide +kernel)) ..
  case patPulseEnd => cases hf; exact execPatPulseEnd_keeps (.refl _ s) (.of_beq (by decide +kernel)) ..
  case capuClaim => cases hf; exact execCapuClaim_keeps (.refl _ s) (.of_beq (by decide +kernel)) ..
  case capuInfoRead => cases hf; exact execCapuInfoRead_keeps (.refl _ s) (.of_beq (by decide +kernel)) ..
  case quarryRequestAccept => cases hf; exact execQuarryRequestAccept_keeps (.refl _ s) (.of_beq (by decide +kernel)) ..
  case quarryCommandSlot => cases hf; exact execQuarryCommandSlot_keeps (.refl _ s) (.of_beq (by decide +kernel)) ..
  case quarryRequestComplete => cases hf; exact execQuarryRequestComplete_keeps (.refl _ s) (.of_beq (by decide +kernel)) ..
  case urgencyRise => cases hf; exact execUrgencyRise_keeps (.refl _ s) (.of_beq (by decide +kernel)) ..
  case rowIdleClose => cases hf; exact execRowIdleClose_keeps (.refl _ s) (.of_beq (by decide +kernel)) ..
  case refresh => cases hf; exact execRefresh_keeps (.refl _ s) (.of_beq (by decide +kernel)) ..
  case refreshEnd => cases hf; exact execRefreshEnd_keeps (.refl _ s) (.of_beq (by decide +kernel)) ..
  case rdNeighborRefresh => cases hf; exact execRdNeighborRefresh_keeps (.refl _ s) (.of_beq (by decide +kernel)) ..
  case rdWindowReset => cases hf; exact execRdWindowReset_keeps (.refl _ s) (.of_beq (by decide +kernel)) ..
  case quarryScrub => cases hf; exact execQuarryScrub_keeps (.refl _ s) (.of_beq (by decide +kernel)) ..
  case initPass => cases hf; exact execInitPass_keeps (.refl _ s) (.of_beq (by decide +kernel)) ..
  case initDone => cases hf; exact execInitDone_keeps (.refl _ s) (.of_beq (by decide +kernel)) ..
  case migrationStart => cases hf; exact execMigrationStart_keeps (.refl _ s) (.of_beq (by decide +kernel)) ..
  case migrationUnitCopy => cases hf; exact execMigrationUnitCopy_keeps (.refl _ s) (.of_beq (by decide +kernel)) ..
  case migrationSwitchover => cases hf; exact execMigrationSwitchover_keeps (.refl _ s) (.of_beq (by decide +kernel)) ..
  case reshape => cases hf; exact execReshape_keeps (.refl _ s) (.of_beq (by decide +kernel)) ..
  case reshapeDone => cases hf; exact execReshapeDone_keeps (.refl _ s) (.of_beq (by decide +kernel)) ..
  case opChangeRequest => cases hf; exact execOpChangeRequest_keeps (.refl _ s) (.of_beq (by decide +kernel)) ..
  case opCommit => cases hf; exact execOpCommit_keeps (.refl _ s) (.of_beq (by decide +kernel)) ..
  case opEntryRestart => cases hf; exact execOpEntryRestart_keeps (.refl _ s) (.of_beq (by decide +kernel)) ..
  case opDone => cases hf; exact execOpDone_keeps (.refl _ s) (.of_beq (by decide +kernel)) ..
  case trainingRun => cases hf; exact execTrainingRun_keeps (.refl _ s) (.of_beq (by decide +kernel)) ..
  case trainingRunDone => cases hf; exact execTrainingRunDone_keeps (.refl _ s) (.of_beq (by decide +kernel)) ..
  case driftUpdate => cases hf; exact execDriftUpdate_keeps (.refl _ s) (.of_beq (by decide +kernel)) ..
  case benchAccess => cases hf; exact execBenchAccess_keeps (.refl _ s) (.of_beq (by decide +kernel)) ..
  case benchAliasWrite => cases hf; exact execBenchAliasWrite_keeps (.refl _ s) (.of_beq (by decide +kernel)) ..
  case benchScrub => cases hf; exact execBenchScrub_keeps (.refl _ s) (.of_beq (by decide +kernel)) ..
  case benchPortTimeout => cases hf; exact execBenchPortTimeout_keeps (.refl _ s) (.of_beq (by decide +kernel)) ..
  case benchAutoRetention => cases hf; exact execBenchAutoRetention_keeps (.refl _ s) (.of_beq (by decide +kernel)) ..
  case benchWake => cases hf; exact execBenchWake_keeps (.refl _ s) (.of_beq (by decide +kernel)) ..
  case benchModeWrite => cases hf; exact execBenchModeWrite_keeps (.refl _ s) (.of_beq (by decide +kernel)) ..
  case bistStart => cases hf; exact execBistStart_keeps (.refl _ s) (.of_beq (by decide +kernel)) ..
  case bistCopyDone => cases hf; exact execBistCopyDone_keeps (.refl _ s) (.of_beq (by decide +kernel)) ..
  case bistTestDone => cases hf; exact execBistTestDone_keeps (.refl _ s) (.of_beq (by decide +kernel)) ..
  case bistRestoreDone => cases hf; exact execBistRestoreDone_keeps (.refl _ s) (.of_beq (by decide +kernel)) ..
  case bistAbort => cases hf; exact execBistAbort_keeps (.refl _ s) (.of_beq (by decide +kernel)) ..
  case benchReplace => cases hf; exact execBenchReplace_keeps (.refl _ s) (.of_beq (by decide +kernel)) ..
  case benchReplaceDone => cases hf; exact execBenchReplaceDone_keeps (.refl _ s) (.of_beq (by decide +kernel)) ..
  case enec => cases hf; exact execEnec_keeps (.refl _ s) (.of_beq (by decide +kernel)) ..
  case disec => cases hf; exact execDisec_keeps (.refl _ s) (.of_beq (by decide +kernel)) ..
  case entas j n => cases hf; exact execEntas_keeps (.refl _ s) (.of_beq (by decide +kernel)) j n
  case rstdaa => cases hf; exact execRstdaa_keeps (.refl _ s) (.of_beq (by decide +kernel)) ..
  case entdaa => cases hf; exact execEntdaa_keeps (.refl _ s) (.of_beq (by decide +kernel)) ..
  case setmwl => cases hf; exact execSetmwl_keeps (.refl _ s) (.of_beq (by decide +kernel)) ..
  case setmrl => cases hf; exact execSetmrl_keeps (.refl _ s) (.of_beq (by decide +kernel)) ..
  case enthdr0 => cases hf; exact execEnthdr0_keeps (.refl _ s) (.of_beq (by decide +kernel)) ..
  case setaasa => cases hf; exact execSetaasa_keeps (.refl _ s) (.of_beq (by decide +kernel)) ..
  case setdasa => cases hf; exact execSetdasa_keeps (.refl _ s) (.of_beq (by decide +kernel)) ..
  case setnewda => cases hf; exact execSetnewda_keeps (.refl _ s) (.of_beq (by decide +kernel)) ..
  case rstactPort => cases hf; exact execRstactPort_keeps (.refl _ s) (.of_beq (by decide +kernel)) ..
  case rstactQuery => cases hf; exact execRstactQuery_keeps (.refl _ s) (.of_beq (by decide +kernel)) ..
  case getmwl => cases hf; exact execGetmwl_keeps (.refl _ s) (.of_beq (by decide +kernel)) ..
  case getmrl => cases hf; exact execGetmrl_keeps (.refl _ s) (.of_beq (by decide +kernel)) ..
  case getpid => cases hf; exact execGetpid_keeps (.refl _ s) (.of_beq (by decide +kernel)) ..
  case getbcr => cases hf; exact execGetbcr_keeps (.refl _ s) (.of_beq (by decide +kernel)) ..
  case getdcr => cases hf; exact execGetdcr_keeps (.refl _ s) (.of_beq (by decide +kernel)) ..
  case getstatus => cases hf; exact execGetstatus_keeps (.refl _ s) (.of_beq (by decide +kernel)) ..
  case getmxds => cases hf; exact execGetmxds_keeps (.refl _ s) (.of_beq (by decide +kernel)) ..
  case getcaps => cases hf; exact execGetcaps_keeps (.refl _ s) (.of_beq (by decide +kernel)) ..
  case memWrite => cases hf; exact execMemWrite_keeps (.refl _ s) (.of_beq (by decide +kernel)) ..
  case memFetch => cases hf; exact execMemFetch_keeps (.refl _ s) (.of_beq (by decide +kernel)) ..
  case tunnelDone => cases hf; exact execTunnelDone_keeps (.refl _ s) (.of_beq (by decide +kernel)) ..
  case privateRead => cases hf; exact execPrivateRead_keeps (.refl _ s) (.of_beq (by decide +kernel)) ..
  case tunnelRead => cases hf; exact execTunnelRead_keeps (.refl _ s) (.of_beq (by decide +kernel)) ..
  case ibiRequest => cases hf; exact execIbiRequest_keeps (.refl _ s) (.of_beq (by decide +kernel)) ..
  case portHealthLost => cases hf; exact execPortHealthLost_keeps (.refl _ s) (.of_beq (by decide +kernel)) ..
  case adopt => cases hf; exact execAdopt_keeps (.refl _ s) (.of_beq (by decide +kernel)) ..
  case adopted => cases hf; exact execAdopted_keeps (.refl _ s) (.of_beq (by decide +kernel)) ..
  case rawCommand => cases hf; exact execRawCommand_keeps (.refl _ s) (.of_beq (by decide +kernel)) ..
  case rawDone => cases hf; exact execRawDone_keeps (.refl _ s) (.of_beq (by decide +kernel)) ..
  case loaderGo => cases hf; exact execLoaderGo_keeps (.refl _ s) (.of_beq (by decide +kernel)) ..
  case loaderResume => cases hf; exact execLoaderResume_keeps (.refl _ s) (.of_beq (by decide +kernel)) ..
  case loaderAbort => cases hf; exact execLoaderAbort_keeps (.refl _ s) (.of_beq (by decide +kernel)) ..
  case nandStatusPoll => cases hf; exact execNandStatusPoll_keeps (.refl _ s) (.of_beq (by decide +kernel)) ..
  case loaderEntryDone => cases hf; exact execLoaderEntryDone_keeps (.refl _ s) (.of_beq (by decide +kernel)) ..
  case flashTimeout => cases hf; exact execFlashTimeout_keeps (.refl _ s) (.of_beq (by decide +kernel)) ..
  case loaderDone => cases hf; exact execLoaderDone_keeps (.refl _ s) (.of_beq (by decide +kernel)) ..
  case bootStart => cases hf; exact execBootStart_keeps (.refl _ s) (.of_beq (by decide +kernel)) ..
  case bootDone => cases hf; exact execBootDone_keeps (.refl _ s) (.of_beq (by decide +kernel)) ..
  case slotCheck => cases hf; exact execSlotCheck_keeps (.refl _ s) (.of_beq (by decide +kernel)) ..
  case wdtKick => cases hf; exact execWdtKick_keeps (.refl _ s) (.of_beq (by decide +kernel)) ..
  case wdtExpired => cases hf; exact execWdtExpired_keeps (.refl _ s) (.of_beq (by decide +kernel)) ..
  case firmwareRestart => cases hf; exact execFirmwareRestart_keeps (.refl _ s) (.of_beq (by decide +kernel)) ..
  case getInfo => cases hf; exact execGetInfo_keeps (.refl _ s) (.of_beq (by decide +kernel)) ..
  case getCert => cases hf; exact execGetCert_keeps (.refl _ s) (.of_beq (by decide +kernel)) ..
  case quote => cases hf; exact execQuote_keeps (.refl _ s) (.of_beq (by decide +kernel)) ..
  case mrExtend => cases hf; exact execMrExtend_keeps (.refl _ s) (.of_beq (by decide +kernel)) ..
  case sessionOpen => cases hf; exact execSessionOpen_keeps (.refl _ s) (.of_beq (by decide +kernel)) ..
  case sessionAuth => cases hf; exact execSessionAuth_keeps (.refl _ s) (.of_beq (by decide +kernel)) ..
  case sessionClose => cases hf; exact execSessionClose_keeps (.refl _ s) (.of_beq (by decide +kernel)) ..
  case sessionTimeout => cases hf; exact execSessionTimeout_keeps (.refl _ s) (.of_beq (by decide +kernel)) ..
  case fwStage => cases hf; exact execFwStage_keeps (.refl _ s) (.of_beq (by decide +kernel)) ..
  case fwInstall => cases hf; exact execFwInstall_keeps (.refl _ s) (.of_beq (by decide +kernel)) ..
  case fwActivate => cases hf; exact execFwActivate_keeps (.refl _ s) (.of_beq (by decide +kernel)) ..
  case handoffPoint => cases hf; exact execHandoffPoint_keeps (.refl _ s) (.of_beq (by decide +kernel)) ..
  case aliveMark => cases hf; exact execAliveMark_keeps (.refl _ s) (.of_beq (by decide +kernel)) ..
  case handoffRevert => cases hf; exact execHandoffRevert_keeps (.refl _ s) (.of_beq (by decide +kernel)) ..
  case svnCommit => cases hf; exact execSvnCommit_keeps (.refl _ s) (.of_beq (by decide +kernel)) ..
  case slotSelect => cases hf; exact execSlotSelect_keeps (.refl _ s) (.of_beq (by decide +kernel)) ..
  case policySet => cases hf; exact execPolicySet_keeps (.refl _ s) (.of_beq (by decide +kernel)) ..
  case libkeySet => cases hf; exact execLibkeySet_keeps (.refl _ s) (.of_beq (by decide +kernel)) ..
  case ownerKeySet => cases hf; exact execOwnerKeySet_keeps (.refl _ s) (.of_beq (by decide +kernel)) ..
  case policyLock => cases hf; exact execPolicyLock_keeps (.refl _ s) (.of_beq (by decide +kernel)) ..
  case recoveryBoot => cases hf; exact execRecoveryBoot_keeps (.refl _ s) (.of_beq (by decide +kernel)) ..
  case mbDone => cases hf; exact execMbDone_keeps (.refl _ s) (.of_beq (by decide +kernel)) ..
  case railMonitorSample => cases hf; exact execRailMonitorSample_keeps (.refl _ s) (.of_beq (by decide +kernel)) ..
  case warmResetEnd => cases hf; exact execWarmResetEnd_keeps (.refl _ s) (.of_beq (by decide +kernel)) ..
  case ready => cases hf; exact execReady_keeps (.refl _ s) (.of_beq (by decide +kernel)) ..
  case powerStateEntry => cases hf; exact execPowerStateEntry_keeps (.refl _ s) (.of_beq (by decide +kernel)) ..
  case dEnter => cases hf; exact execDEnter_keeps (.refl _ s) (.of_beq (by decide +kernel)) ..
  case wake => cases hf; exact execWake_keeps (.refl _ s) (.of_beq (by decide +kernel)) ..
  case powerTimeWake => cases hf; exact execPowerTimeWake_keeps (.refl _ s) (.of_beq (by decide +kernel)) ..
  case dExit => cases hf; exact execDExit_keeps (.refl _ s) (.of_beq (by decide +kernel)) ..
  case thermalSample => cases hf; exact execThermalSample_keeps (.refl _ s) (.of_beq (by decide +kernel)) ..
  case lifeCountSave => cases hf; exact execLifeCountSave_keeps (.refl _ s) (.of_beq (by decide +kernel)) ..
  case shadowGo => cases hf; exact execShadowGo_keeps (.refl _ s) (.of_beq (by decide +kernel)) ..
  case shadowCancel => cases hf; exact execShadowCancel_keeps (.refl _ s) (.of_beq (by decide +kernel)) ..
  case shadowCapture => cases hf; exact execShadowCapture_keeps (.refl _ s) (.of_beq (by decide +kernel)) ..
  case shadowCommitApply => cases hf; exact execShadowCommitApply_keeps (.refl _ s) (.of_beq (by decide +kernel)) ..
  case evtEnWrite => cases hf; exact execEvtEnWrite_keeps (.refl _ s) (.of_beq (by decide +kernel)) ..
  case evtClear => cases hf; exact execEvtClear_keeps (.refl _ s) (.of_beq (by decide +kernel)) ..
  case ownerWrite => cases hf; exact execOwnerWrite_keeps (.refl _ s) (.of_beq (by decide +kernel)) ..
  case currentLimitExit => cases hf; exact execCurrentLimitExit_keeps (.refl _ s) (.of_beq (by decide +kernel)) ..
  case portHealthReturn => cases hf; exact execPortHealthReturn_keeps (.refl _ s) (.of_beq (by decide +kernel)) ..
  case hdrExit => cases hf; exact execHdrExit_keeps (.refl _ s) (.of_beq (by decide +kernel)) ..
  case tackReady => cases hf; exact execTackReady_keeps (.refl _ s) (.of_beq (by decide +kernel)) ..
  all_goals cases hf

/-- A command whose effect an address or a page decides answers a next state, and may change every part. -/
theorem exec_ends_everything {c : Instr} (s : State) (hf : c.footprint = none) : Ends everything s (exec c s) := by
  cases c
  case registerWrite => exact execRegisterWrite_keeps (.refl _ s) everything_whole ..
  case masterAccess => exact execMasterAccess_keeps (.refl _ s) everything_whole ..
  case powerGoodFall => exact execPowerGoodFall_keeps (.refl _ s) everything_whole ..
  case rstactDevice => exact execRstactDevice_keeps (.refl _ s) everything_whole ..
  case regWrite => exact execRegWrite_keeps (.refl _ s) everything_whole ..
  case resetPin => exact execResetPin_keeps (.refl _ s) everything_whole ..
  case sysSoftReset => exact execSysSoftReset_keeps (.refl _ s) everything_whole ..
  case targetResetPattern => exact execTargetResetPattern_keeps (.refl _ s) everything_whole ..
  all_goals cases hf

/-- Every command answers a next state, with the same queue, and keeps the invariant. -/
theorem exec_ends (c : Instr) (s : State) : Ends everything s (exec c s) := by
  cases hf : c.footprint with
  | none => exact exec_ends_everything s hf
  | some l =>
    obtain ⟨t, ht, hk⟩ := exec_ends_footprint s hf
    exact ⟨t, ht, hk.widen everything_whole⟩

/-! ### A device that is not running -/

/-- A command whose effect needs a running device (R390, R393) answers the state as it was. -/
theorem next_of_down {s : State} (h : s.dev ≠ .up) (t : State) : (.next (if s.dev = .up then t else s) : Out) = .next s :=
  congrArg _ (if_neg h)

/-- Only the power and reset commands act on a device that is not running (R390 to R394). -/
theorem exec_down {c : Instr} {s : State} (h : s.dev ≠ .up) (hRise : ∀ (a : BitVec 3) (v : Bool), c ≠ .powerGoodRise a v)
    (hFall : c ≠ .powerGoodFall) (hNvm : ∀ (a : List (Fin 48)) (b : List (Fin 60)), c ≠ .powerupNvmLoaded a b) (hPin : c ≠ .resetPin)
    (hEnd : ∀ a : BitVec 3, c ≠ .warmResetEnd a) : exec c s = .next s := by
  cases c
  case powerGoodRise a v => exact absurd rfl (hRise a v)
  case powerGoodFall => exact absurd rfl hFall
  case powerupNvmLoaded a b => exact absurd rfl (hNvm a b)
  case resetPin => exact absurd rfl hPin
  case warmResetEnd a => exact absurd rfl (hEnd a)
  case pwrReqWrite m stitch i req =>
    cases stitch
    · exact next_of_down h _
    · exact (ite_congr rfl (fun _ => next_of_down h _) (fun _ => rfl)).trans (ite_self _)
  all_goals exact next_of_down h _

/-! ### The step -/

/-- The invariant does not speak of the queue. -/
theorem inv_pending {s : State} (l : List Instr) (h : Inv s) : Inv { s with pending := l } := h

/-- A step keeps the invariant: the command's law, or that of a tick. -/
theorem step_keeps_inv {s t : State} (hi : Inv s) (h : step s = .next t) : Inv t := by
  unfold step at h
  split at h
  · cases h
    exact (tick_keeps (Keeps.refl everything s) (everything_whole.within _)).inv hi
  · rename_i c rest _
    obtain ⟨t', ht, hk⟩ := exec_ends c { s with pending := rest }
    rw [ht] at h
    cases h
    exact hk.inv (inv_pending rest hi)

/-! ### The obligations -/

/-- Settles O5: every command's law keeps the invariant, and so does a tick. -/
theorem stepKeepsInvariant : Obligations.StepKeepsInvariant := fun _ _ => step_keeps_inv

/-- Settles O6: the law of every command, within its footprint where it has one. -/
theorem commandFrames : Obligations.CommandFrames := by
  refine ⟨fun c s => ?_, fun c s => exec_down, fun c l s t hf he => ?_⟩
  · obtain ⟨t, ht, hk⟩ := exec_ends c s
    exact ⟨t, ht, hk.pending⟩
  · exact (exec_ends_footprint s hf).only he

/-- Settles O4: memory is empty, the count 0 and no field is stored. -/
theorem resetMeetsInvariant : Obligations.ResetMeetsInvariant := ⟨rfl, by decide, fieldsFit_nil, fieldsFit_nil, fieldsFit_nil⟩

/-- Settles O3: every store of the reset state is empty, so a read answers the default of its place. -/
theorem resetState : Obligations.ResetState := by
  rintro s rfl
  exact ⟨rfl, rfl, rfl, rfl, rfl, rfl, rfl, rfl, rfl, rfl, rfl, rfl, rfl, rfl, rfl, rfl, fun _ _ _ _ => ⟨rfl, rfl⟩,
    fun _ => ite_self _⟩

end Sys2Proof.Machine
end

section
/-! PROOFS. Register accesses that reach no register (R7). -/

namespace Sys2Proof.Machine

/-! ### Where nothing stands -/

/-- An array begins at its first register. -/
theorem arrayAt_of_lt {off base stride count : Nat} (h : off < base) : arrayAt off base stride count = none :=
  if_neg fun hc => Nat.not_le.mpr h hc.1

theorem halfAt_of_lt {off base v : Nat} (h : off < base) : halfAt off base v = none := by
  unfold halfAt
  rw [if_neg (by omega), if_neg (by omega)]

/-- A field that stands once and fits its register lies in no register but that one. -/
theorem elements_past {r : Reg} {off : Nat} (hs : r.info.stride = 0) (hw : r.info.subs ≤ r.info.perWord) (ho : r.info.off + 4 ≤ off) :
    r.elements off = [] := by
  have hword : 1 ≤ (off - r.info.off) / 4 := by omega
  simp only [Reg.elements, hs, if_true, Nat.mul_zero, Nat.sub_zero]
  split
  · rfl
  · rw [List.filter_eq_nil_iff]
    intro x hx
    obtain ⟨n, -, rfl⟩ := List.mem_map.mp hx
    have hge := Nat.mul_le_mul_right r.info.perWord hword
    rw [decide_eq_true_eq]
    omega

/-- A page's own fields, which follow those of the common layout, stand in STATUS and from +0x040 on. -/
theorem ownFields_place (p : Page) {r : Reg} (hr : r ∈ p.fields.drop Reg.commonFields.length) :
    0x40 ≤ r.info.off ∨ r.info.stride = 0 ∧ r.info.subs ≤ r.info.perWord ∧ r.info.off + 4 ≤ 0x0C := by
  have key : ∀ p ∈ Page.all, ∀ r ∈ p.fields.drop Reg.commonFields.length,
      0x40 ≤ r.info.off ∨ r.info.stride = 0 ∧ r.info.subs ≤ r.info.perWord ∧ r.info.off + 4 ≤ 0x0C := by decide +kernel
  exact key p (by cases p <;> decide) r hr

theorem fields_common (p : Page) : Reg.commonFields ++ p.fields.drop Reg.commonFields.length = p.fields := by
  rw [Page.fields.eq_def, List.drop_left]

/-- From +0x00C to +0x03C a page has the fields of the common layout alone (R413). -/
theorem fieldsAt_common (p : Page) {off : Nat} (hlo : 0x0C ≤ off) (hhi : off < 0x40) :
    p.fieldsAt off = Reg.commonFields.flatMap (fun r => (r.elements off).map (fun x => (r, x.1, x.2))) := by
  rw [Page.fieldsAt, ← fields_common, List.flatMap_append, List.append_right_eq_self, List.flatMap_eq_nil_iff]
  intro r hr
  have hnone : r.elements off = [] := by
    rcases ownFields_place p hr with ho | ⟨hs, hw, ho⟩
    · exact if_pos (.inl (by omega))
    · exact elements_past hs hw (by omega)
  rw [hnone, List.map_nil]

/-- No stored field of any page lies in +0x024 to +0x03C. -/
theorem fieldsAt_gap (p : Page) {off : Nat} (hlo : 0x24 ≤ off) (hhi : off < 0x40) : p.fieldsAt off = [] := by
  have key : ∀ r ∈ Reg.commonFields, r.info.stride = 0 ∧ r.info.subs ≤ r.info.perWord ∧ r.info.off + 4 ≤ 0x24 := by decide
  rw [fieldsAt_common p (by omega) hhi, List.flatMap_eq_nil_iff]
  intro r hr
  obtain ⟨hs, hw, ho⟩ := key r hr
  rw [elements_past hs hw (by omega), List.map_nil]

/-- Below +0x040 a page shows other state at PAGE_ID and STATUS alone. -/
theorem viewWord_gap (s : State) (p : Page) (inst m : Nat) {off : Nat} (hlo : 0x0C ≤ off) (hhi : off < 0x40) :
    viewWord s p inst off m = none := by
  have harr (base stride count : Nat) (hb : 0x40 ≤ base) : arrayAt off base stride count = none := arrayAt_of_lt (by omega)
  have hhalf (base v : Nat) (hb : 0x40 ≤ base) : halfAt off base v = none := halfAt_of_lt (by omega)
  have hne (k : Nat) (hk : k < 0x0C ∨ 0x40 ≤ k) : off ≠ k := by omega
  unfold viewWord
  rw [if_neg (hne 0 (by decide))]
  cases p <;> simp [cseView, stitchView, tackView, harnessView, harr, hhalf, hne]

theorem writeOnly_gap (p : Page) {off : Nat} (hhi : off < 0x40) : writeOnly p off = false := by
  have hne (k : Nat) (hk : 0x40 ≤ k) : off ≠ k := by omega
  cases p <;> simp [writeOnly, hne, show ¬ 0x80 ≤ off by omega]

theorem assigned_gap (s : State) (p : Page) (inst m : Nat) {off : Nat} (hlo : 0x24 ≤ off) (hhi : off < 0x40) :
    assigned s p inst off m = false := by
  unfold assigned
  rw [fieldsAt_gap p hlo hhi, viewWord_gap s p inst m (by omega) hhi, writeOnly_gap p hhi]
  simp only [decide_eq_false (Nat.not_lt.mpr hlo), List.isEmpty_nil, Option.isSome_none]
  rfl

/-! ### Accesses there -/

theorem writeReg_no_page {a : Nat} (h : pageAt a = none) (m v : Nat) (s : State) : writeReg m a v s = s := by
  simp only [writeReg, h]

theorem writeReg_unassigned {a m : Nat} {p : Page} {inst : Nat} {s : State} (h : pageAt a = some (p, inst))
    (hu : assigned s p inst (a % 0x1000 / 4 * 4) m = false) (v : Nat) : writeReg m a v s = s := by
  simp only [writeReg, h, hu, Bool.false_eq_true, if_false]

theorem readReg_no_page {a : Nat} (h : pageAt a = none) (m : Nat) (s : State) : readReg m a s = (0, s) := by
  simp only [readReg, h]

theorem readReg_unassigned {a m : Nat} {p : Page} {inst : Nat} {s : State} (h : pageAt a = some (p, inst))
    (hu : assigned s p inst (a % 0x1000 / 4 * 4) m = false) : readReg m a s = (0, s) := by
  simp only [readReg, h, hu, if_true]

theorem act_same {s : State} {f : State → State} (h : f s = s) : act s f = .next s := by
  unfold act
  rw [h, ite_self]

/-- Settles O9: an access decides by the page and by `assigned` alone, and no page defines the gap. -/
theorem unassignedOffsets : Obligations.UnassignedOffsets := by
  refine ⟨fun s p inst off m hlo hhi => assigned_gap s p inst m hlo hhi, fun s m a v p inst hp hu => ?_,
    fun s m a p inst hd hp hu => ?_, fun s m a v hp => ?_, fun s m a hd hp => ?_⟩
  · exact act_same (writeReg_unassigned hp hu _)
  · show act s (answerReg m.val (regAddr a)) = _
    rw [act_up hd, answerReg, readReg_unassigned hp hu]
  · exact act_same (writeReg_no_page hp ..)
  · show act s (answerReg m.val (regAddr a)) = _
    rw [act_up hd, answerReg, readReg_no_page hp]

end Sys2Proof.Machine
end

section
/-! PROOFS. Register accesses of a master (R5, R7, R8, R23, R24, R413): what one read and one write of a register do, and accesses of some
of a register's bytes (R4). -/

namespace Sys2Proof.Machine

/-! ### Bytes of a number (R4) -/

@[simp] theorem leBytes_length (n v : Nat) : (leBytes n v).length = n := by
  induction n generalizing v with
  | zero => rfl
  | succ n ih => exact congrArg (· + 1) (ih (v / 256))

theorem leBytes_leValue {n : Nat} {bs : List Byte} (h : bs.length = n) : leBytes n (leValue bs) = bs := by
  subst h
  induction bs with
  | nil => rfl
  | cons b bs ih =>
    have hb : b.toNat < 256 := b.isLt
    show BitVec.ofNat 8 (b.toNat + 256 * leValue bs) :: leBytes bs.length ((b.toNat + 256 * leValue bs) / 256) = b :: bs
    rw [Nat.add_mul_div_left _ _ (by decide), Nat.div_eq_of_lt hb, Nat.zero_add, ih]
    congr 1
    apply BitVec.eq_of_toNat_eq
    rw [BitVec.toNat_ofNat]
    omega

theorem leValue_lt (bs : List Byte) : leValue bs < 256 ^ bs.length := by
  induction bs with
  | nil => decide
  | cons b bs ih =>
    have hb : b.toNat < 256 := b.isLt
    show b.toNat + 256 * leValue bs < 256 ^ (bs.length + 1)
    rw [Nat.pow_succ]
    omega

/-- The word that bytes written from lane lo on give, as bytes: they stand in their lanes, and the others have the old bytes. -/
theorem leBytes_laneWord {old lo : Nat} {bs : List Byte} (h : lo + bs.length ≤ 4) :
    leBytes 4 (laneWord old lo bs % 2 ^ 32) = (leBytes 4 old).take lo ++ bs ++ (leBytes 4 old).drop (lo + bs.length) := by
  have hl : ((leBytes 4 old).take lo ++ bs ++ (leBytes 4 old).drop (lo + bs.length)).length = 4 := by
    simp only [List.length_append, List.length_take, List.length_drop, leBytes_length]
    omega
  have hlt := leValue_lt ((leBytes 4 old).take lo ++ bs ++ (leBytes 4 old).drop (lo + bs.length))
  rw [hl] at hlt
  have hmod : laneWord old lo bs % 2 ^ 32 = laneWord old lo bs := Nat.mod_eq_of_lt hlt
  rw [hmod]
  exact leBytes_leValue hl

/-! ### Errors and wakes -/

/-- What recording an error leaves in the record of its page (R418). -/
theorem recorded_recordErr {s u : State} {p : Page} {n code m : Nat} (hu : ∀ r, .reg r ∈ errors → ∀ i x z, u.rd r i x z = s.rd r i x z)
    (hc : code < 256) (hm : m < 32) (w : Bool) (o : Nat) : Recorded s (recordErr p n code m w o u) p n code m := by
  have hcode := hu .ERR_CODE_CODE (by decide) n p.code 0
  unfold Recorded recordErr
  rw [hcode]
  split
  · refine ⟨?_, ?_⟩
    · simp [Nat.mod_eq_of_lt, Reg.width, Reg.info, hc]
    · simp [Nat.mod_eq_of_lt, Reg.width, Reg.info, hm]
  · refine ⟨?_, ?_⟩
    · simp [hcode]
    · simp [Reg.width, Reg.info]

/-- An event raised after it leaves the record of an error as it is. -/
theorem Recorded.raise {s t : State} {p : Page} {n code m : Nat} (h : Recorded s t p n code m) (q : Page) (i b : Nat) :
    Recorded s (Machine.raise q i b t) p n code m := by
  unfold Recorded at h ⊢
  simpa using h

/-- A wake leaves the error records alone. -/
theorem hostWake_errors {s : State} (m : Nat) (r : Reg) (h : .reg r ∈ errors) (i x z : Nat) : (hostWake m s).rd r i x z = s.rd r i x z := by
  simp only [errors, fields, List.map_cons, List.map_nil, List.mem_cons, List.not_mem_nil, or_false, Part.reg.injEq] at h
  rcases h with rfl | rfl | rfl | rfl | rfl <;> simp

/-! ### One register write -/

theorem writeReg_denied {s : State} {a m : Nat} {p : Page} {inst : Nat} (hp : pageAt a = some (p, inst))
    (ha : assigned s p inst (a % 0x1000 / 4 * 4) m = true) (hx : accessOk s p inst m true = false) (v : Nat) :
    writeReg m a v s = recordErr p inst errOwnerDenied m true (a % 0x1000 / 4 * 4 / 4) (hostWake m s) := by
  simp only [writeReg, hp, ha, if_true, gate_denied hx]

theorem writeReg_ok {s : State} {a m : Nat} {p : Page} {inst : Nat} (hp : pageAt a = some (p, inst))
    (ha : assigned s p inst (a % 0x1000 / 4 * 4) m = true) (hx : accessOk s p inst m true = true) (v : Nat) :
    writeReg m a v s = writeWordAt p inst (a % 0x1000 / 4 * 4) m v (hostWake m s) := by
  simp only [writeReg, hp, ha, if_true, gate_ok hx]

/-- A page defines a register where it has a field. -/
theorem assigned_of_fields {p : Page} {off : Nat} (h : (p.fieldsAt off).isEmpty = false) (s : State) (inst m : Nat) :
    assigned s p inst off m = true := by
  simp [assigned, h]

theorem fieldsAt_scratch : Page.sys.fieldsAt 0x58 = [(.SYS_SCRATCH_DATA, 0, 0)] := rfl

theorem fieldsAt_gain : Page.cse.fieldsAt 0x4C = [(.CSE_GAIN_GAIN, 0, 0)] := rfl

/-- A write of SCRATCH that R23 lets through stores the word (R413). -/
theorem writeReg_scratch {s : State} {m : Nat} (hx : accessOk s .sys 0 m true = true) {a : Nat} (ha : pageAt a = some (.sys, 0))
    (ho : a % 0x1000 / 4 * 4 = 0x58) (v : Nat) : writeReg m a v s = (hostWake m s).wr .SYS_SCRATCH_DATA (v % 2 ^ 32) := by
  have hf : (Page.sys.fieldsAt (a % 0x1000 / 4 * 4)).isEmpty = false := by rw [ho, fieldsAt_scratch]; rfl
  rw [writeReg_ok ha (assigned_of_fields hf ..) hx, ho]
  show plainWrite .sys 0 0x58 m v (hostWake m s) = _
  rw [plainWrite, fieldsAt_scratch]
  show (hostWake m s).wr .SYS_SCRATCH_DATA (v / 1 % 2 ^ 32) 0 0 0 = _
  rw [Nat.div_one]

/-- A write of a CSE's GAIN that R23 lets through stores the shadow copy alone (R8). -/
theorem writeReg_gain {s : State} {c m : Nat} (hx : accessOk s .cse c m true = true) {a : Nat} (ha : pageAt a = some (.cse, c))
    (ho : a % 0x1000 / 4 * 4 = 0x4C) (v : Nat) : writeReg m a v s = (hostWake m s).wr .CSE_GAIN_GAIN (v % 2 ^ 24) c := by
  have hf : (Page.cse.fieldsAt (a % 0x1000 / 4 * 4)).isEmpty = false := by rw [ho, fieldsAt_gain]; rfl
  rw [writeReg_ok ha (assigned_of_fields hf ..) hx, ho]
  show plainWrite .cse c 0x4C m v (hostWake m s) = _
  rw [plainWrite, fieldsAt_gain]
  show (hostWake m s).wr .CSE_GAIN_GAIN (v / 1 % 2 ^ 24) c 0 0 = _
  rw [Nat.div_one]

/-! ### One register read -/

theorem readReg_ok {s : State} {a m : Nat} {p : Page} {inst : Nat} (hp : pageAt a = some (p, inst))
    (ha : assigned s p inst (a % 0x1000 / 4 * 4) m = true) (hx : accessOk s p inst m false = true) :
    readReg m a s = ((readWord p inst (a % 0x1000 / 4 * 4) m s).1 % 2 ^ 32, (readWord p inst (a % 0x1000 / 4 * 4) m s).2) := by
  simp only [readReg, hp, ha, hx, if_true, Bool.true_eq_false, if_false]

theorem readWord_plain {p : Page} {off : Nat} (harr : arrayAt off 0x104 16 16 = none) (hlow : pairLow p off = false)
    (hhigh : pairLow p (off - 4) = false) (s : State) (inst m : Nat) :
    readWord p inst off m s = (wordAt s p inst off m, clearOnRead p inst off m s) := by
  unfold readWord
  rw [harr]
  cases p <;> simp [hlow, hhigh]

/-- A read of the upper register of a pair answers the half that the reader holds of it (R5). -/
theorem readWord_held {p : Page} {inst off m v : Nat} {s : State} (harr : arrayAt off 0x104 16 16 = none)
    (hlow : pairLow p off = false) (hhigh : pairLow p (off - 4) = true) (hh : Store.get none s.held m = some (p.base inst + off, v)) :
    readWord p inst off m s = (v, { s with held := Store.set none s.held m none }) := by
  unfold readWord
  rw [harr]
  cases p <;> simp [hlow, hhigh, hh]

/-- Without a half held it is read as it stands. -/
theorem readWord_live {p : Page} {off m : Nat} {s : State} (harr : arrayAt off 0x104 16 16 = none) (hlow : pairLow p off = false)
    (hh : Store.get none s.held m = none) (inst : Nat) :
    readWord p inst off m s = (wordAt s p inst off m, clearOnRead p inst off m s) := by
  unfold readWord
  rw [harr, hh]
  cases p <;> simp [hlow]

/-- The place of a field's stored value in the word that its register reads. -/
def placed (s : State) (p : Page) (inst m : Nat) (x : Reg × Nat × Nat) : Nat :=
  s.rd x.1 inst (x.1.homeIdx s p m x.2.1) x.2.2 * 2 ^ x.1.lsbOf x.2.2

theorem foldl_placed {f : Access → Bool} (s : State) (p : Page) (inst m : Nat) (xs : List (Reg × Nat × Nat))
    (h : xs.all (fun x => f x.1.info.acc) = true) (n : Nat) :
    xs.foldl (fun n x => if f x.1.info.acc then n + s.rd x.1 inst (x.1.homeIdx s p m x.2.1) x.2.2 * 2 ^ x.1.lsbOf x.2.2 else n) n =
      n + (xs.map (placed s p inst m)).sum := by
  induction xs generalizing n with
  | nil => rfl
  | cons x xs ih =>
    rw [List.all_cons, Bool.and_eq_true] at h
    rw [List.foldl_cons, ih h.2, if_pos h.1, List.map_cons, List.sum_cons, Nat.add_assoc, placed]

/-- A register all of whose fields are picked reads the sum of its fields, each in its place. -/
theorem fieldsWord_all {f : Access → Bool} {p : Page} {off : Nat} (h : (p.fieldsAt off).all (fun x => f x.1.info.acc) = true)
    (s : State) (inst m : Nat) : fieldsWord s f p inst off m = ((p.fieldsAt off).map (placed s p inst m)).sum :=
  (foldl_placed s p inst m _ h 0).trans (Nat.zero_add _)

/-- What ERR_CODE reads (R418). -/
def errWord (s : State) (p : Page) (inst : Nat) : Nat :=
  s.rd .ERR_CODE_CODE inst p.code + s.rd .ERR_CODE_MASTER inst p.code * 2 ^ 8 + s.rd .ERR_CODE_WRITE inst p.code * 2 ^ 13 +
    s.rd .ERR_CODE_OVF inst p.code * 2 ^ 15 + s.rd .ERR_CODE_WORD inst p.code * 2 ^ 16

/-- The error record of a page cleared. -/
def clearErr (p : Page) (inst : Nat) (s : State) : State :=
  ((((s.wr .ERR_CODE_CODE 0 inst p.code).wr .ERR_CODE_MASTER 0 inst p.code).wr .ERR_CODE_WRITE 0 inst p.code).wr .ERR_CODE_OVF 0 inst
    p.code).wr .ERR_CODE_WORD 0 inst p.code

theorem fieldsAt_errCode (p : Page) : p.fieldsAt 0x1C =
    [(.ERR_CODE_CODE, 0, 0), (.ERR_CODE_MASTER, 0, 0), (.ERR_CODE_WRITE, 0, 0), (.ERR_CODE_OVF, 0, 0), (.ERR_CODE_WORD, 0, 0)] := by
  rw [fieldsAt_common p (by decide) (by decide)]
  rfl

theorem viewBits_errCode (s : State) (p : Page) (inst : Nat) : viewBits s p inst 0x1C = 0 := by cases p <;> rfl

theorem placed_errCode (s : State) (p : Page) (inst m : Nat) : (p.fieldsAt 0x1C).map (placed s p inst m) =
    [s.rd .ERR_CODE_CODE inst p.code * 2 ^ 0, s.rd .ERR_CODE_MASTER inst p.code * 2 ^ 8, s.rd .ERR_CODE_WRITE inst p.code * 2 ^ 13,
      s.rd .ERR_CODE_OVF inst p.code * 2 ^ 15, s.rd .ERR_CODE_WORD inst p.code * 2 ^ 16] := by
  rw [fieldsAt_errCode]
  rfl

theorem storedWord_errCode (s : State) (p : Page) (inst m : Nat) : storedWord s p inst 0x1C m = errWord s p inst := by
  have hsum (a b c d e : Nat) : [a, b, c, d, e].sum = a + b + c + d + e := by simp [Nat.add_assoc]
  have hall : (p.fieldsAt 0x1C).all (fun x => x.1.info.acc != .wo) = true := by rw [fieldsAt_errCode]; rfl
  rw [storedWord, fieldsWord_all hall, placed_errCode, hsum, Nat.pow_zero, Nat.mul_one, errWord]

theorem clearOnRead_errCode (s : State) (p : Page) (inst m : Nat) : clearOnRead p inst 0x1C m s = clearErr p inst s := by
  rw [clearOnRead, if_neg (by simp), fieldsAt_errCode]
  rfl

/-- A read of ERR_CODE answers the record and clears all of it (R418). -/
theorem readWord_errCode (s : State) (p : Page) (inst m : Nat) : readWord p inst 0x1C m s = (errWord s p inst, clearErr p inst s) := by
  have hlow : pairLow p 0x1C = false := by cases p <;> rfl
  have hhigh : pairLow p (0x1C - 4) = false := by cases p <;> rfl
  have hview : wordAt s p inst 0x1C m = storedWord s p inst 0x1C m := by
    rw [wordAt, viewWord_gap s p inst m (by decide) (by decide)]
    exact congrArg (storedWord s p inst 0x1C m + ·) (viewBits_errCode s p inst)
  rw [readWord_plain rfl hlow hhigh, hview, storedWord_errCode, clearOnRead_errCode]

theorem wordAt_now_low (s : State) (m : Nat) : wordAt s .tbase 0 0x48 m = s.now % 2 ^ 32 := rfl

theorem wordAt_now_high (s : State) (m : Nat) : wordAt s .tbase 0 0x4C m = s.now / 2 ^ 32 % 2 ^ 32 := rfl

/-- A read of the lower half of TB_NOW holds the upper half for the reader (R5). -/
theorem readWord_now_low (s : State) (m : Nat) : readWord .tbase 0 0x48 m s =
    (s.now % 2 ^ 32, { s with held := Store.set none s.held m (some (0x2000404C, s.now / 2 ^ 32 % 2 ^ 32)) }) := rfl

theorem fieldsAt_now_high : Page.tbase.fieldsAt 0x4C = [] := rfl

/-- With no half held the live upper half is read (R5). -/
theorem readWord_now_live {s : State} {m : Nat} (h : Store.get none s.held m = none) :
    readWord .tbase 0 0x4C m s = (s.now / 2 ^ 32 % 2 ^ 32, s) := by
  rw [readWord_live rfl rfl h, wordAt_now_high, clearOnRead, if_neg (by simp), fieldsAt_now_high]
  rfl

/-- SCRATCH has one field, its whole word (R413). -/
theorem fieldsWord_scratch {f : Access → Bool} (h : f .rws = true) (s : State) (m : Nat) :
    fieldsWord s f .sys 0 0x58 m = s.rd .SYS_SCRATCH_DATA := by
  have hall : (Page.sys.fieldsAt 0x58).all (fun x => f x.1.info.acc) = true := by
    rw [fieldsAt_scratch, List.all_cons, List.all_nil, Bool.and_true]
    exact (congrArg f (show Reg.SYS_SCRATCH_DATA.info.acc = .rws from rfl)).trans h
  rw [fieldsWord_all hall, fieldsAt_scratch, List.map_singleton, List.sum_singleton]
  exact Nat.mul_one _

/-- A read of SCRATCH answers the word stored and changes nothing (R413). -/
theorem readWord_scratch (s : State) (m : Nat) : readWord .sys 0 0x58 m s = (s.rd .SYS_SCRATCH_DATA, s) := by
  rw [readWord_plain rfl rfl rfl]
  exact congrArg (·, s) (fieldsWord_scratch (f := (· != .wo)) rfl s m)

/-! ### Accesses of some bytes of a register (R4, R24) -/

/-- A write within one register is one write of its lanes. -/
theorem accessWrite_lanes {m a : Nat} {bs : List Byte} (hr : allRegisters a bs.length = true) (h0 : 0 < bs.length)
    (h4 : a % 4 + bs.length ≤ 4) (s : State) : accessWrite m a bs s = writeLanes m a bs s := by
  obtain ⟨b, bs, rfl⟩ := List.exists_cons_of_length_pos h0
  have htake : (b :: bs).take (4 - a % 4) = b :: bs := List.take_of_length_le (by omega)
  have hdrop : (b :: bs).drop (4 - a % 4) = [] := List.drop_of_length_le (by omega)
  have hend (k a' : Nat) (t : State) : writeRegBytes m k a' [] t = t := by cases k <;> rfl
  rw [accessWrite, if_pos hr]
  show writeRegBytes m bs.length (a / 4 * 4 + 4) ((b :: bs).drop (4 - a % 4)) (writeLanes m a ((b :: bs).take (4 - a % 4)) s) = _
  rw [htake, hdrop, hend]

/-- A read within one register is one read of it. -/
theorem accessRead_lanes {m a n : Nat} (hr : allRegisters a n = true) (h0 : 0 < n) (h4 : a % 4 + n ≤ 4) (s : State) :
    accessRead m a n s = drawPool m { (readReg m (a / 4 * 4) s).2 with
      readData := ((leBytes 4 (readReg m (a / 4 * 4) s).1).drop (a % 4)).take n } := by
  have hn : (if n = 0 then 0 else (a % 4 + n + 3) / 4) = 1 := by rw [if_neg (by omega)]; omega
  rw [accessRead, if_pos hr, hn]
  show drawPool m { (readReg m (a / 4 * 4) s).2 with
      readData := ((leBytes 4 (readReg m (a / 4 * 4) s).1 ++ []).drop (a % 4)).take n } = _
  rw [List.append_nil]

/-- Any state field but the counter of free values survives the draw. -/
theorem drawPool_readData (m : Nat) (s : State) : (drawPool m s).readData = s.readData := by unfold drawPool; split <;> rfl
theorem drawPool_mem (m : Nat) (s : State) : (drawPool m s).mem = s.mem := by unfold drawPool; split <;> rfl

end Sys2Proof.Machine
end

section
/-! PROOFS. Memory accesses of a master (R23 to R27, R276, R278, R306, R307): where they go, what a write stores while no cell holds an
error, and what an access that a check rejects leaves. -/

namespace Sys2Proof.Machine

/-! ### Ranges -/

theorem rangeFrom_length (a n : Nat) : (rangeFrom a n).length = n := by
  induction n generalizing a with
  | zero => rfl
  | succ n ih => exact congrArg (· + 1) (ih (a + 1))

theorem rangeFrom_getElem {a n i : Nat} (h : i < (rangeFrom a n).length) : (rangeFrom a n)[i] = a + i := by
  induction n generalizing a i with
  | zero => exact absurd h (Nat.not_lt_zero i)
  | succ n ih =>
    cases i with
    | zero => rfl
    | succ i =>
      show (rangeFrom (a + 1) n)[i]'_ = _
      rw [ih (Nat.lt_of_succ_lt_succ h)]
      omega

theorem anyPoison_false {s : State} {a n : Nat} : s.anyPoison a n = false ↔ ∀ b, a ≤ b → b < a + n → s.poisoned b = false := by
  simp only [State.anyPoison, List.any_eq_false, mem_rangeFrom, and_imp, Bool.not_eq_true]

/-- A byte whose word counts as clean is in service. -/
theorem offline_of_clean {s : State} {b : Nat} (h : s.poisoned b = false) : s.offline b = false := (Bool.or_eq_false_iff.mp h).1

/-! ### Bytes stored -/

/-- A write of bytes stores them at their addresses. -/
theorem setBytes_inside (bs : List Byte) {s : State} {a i : Nat} (h : i < bs.length) :
    Store.get 0 (s.setBytes a bs).mem (a + i) = bs[i] := by
  induction bs generalizing s a i with
  | nil => exact absurd h (Nat.not_lt_zero i)
  | cons x xs ih =>
    show Store.get 0 ((s.setByte a x).setBytes (a + 1) xs).mem (a + i) = _
    cases i with
    | zero =>
      rw [setBytes_outside xs (by omega)]
      exact Store.get_set_same ..
    | succ i =>
      rw [show a + (i + 1) = a + 1 + i by omega]
      exact ih (Nat.lt_of_succ_lt_succ h)

/-! ### States between which no word is lost -/

/-- From s to t the same benches and ranks are in service, no cell comes to hold an error, and no word comes to count as poisoned. -/
structure NoWorse (s t : State) : Prop where
  offline : ∀ b, t.offline b = s.offline b
  clean : CleanCells s → CleanCells t
  poisoned : ∀ b, t.poisoned b = true → s.poisoned b = true

theorem NoWorse.refl (s : State) : NoWorse s s := ⟨fun _ => rfl, id, fun _ => id⟩

theorem NoWorse.trans {s t u : State} (h : NoWorse s t) (k : NoWorse t u) : NoWorse s u :=
  ⟨fun b => (k.offline b).trans (h.offline b), fun hc => k.clean (h.clean hc), fun b hb => h.poisoned b (k.poisoned b hb)⟩

theorem NoWorse.anyPoison {s t : State} (h : NoWorse s t) {a n : Nat} (hs : s.anyPoison a n = false) : t.anyPoison a n = false :=
  anyPoison_false.mpr fun b hlo hhi => by
    have hb := anyPoison_false.mp hs b hlo hhi
    cases hp : t.poisoned b with
    | false => rfl
    | true => rw [h.poisoned b hp] at hb; exact hb

theorem NoWorse.each {α : Type} {f : α → State → State} (hf : ∀ x t, NoWorse t (f x t)) (xs : List α) (s : State) :
    NoWorse s (each xs f s) := by
  induction xs generalizing s with
  | nil => exact .refl s
  | cons x xs ih => exact (hf x s).trans (ih (f x s))

theorem setBytes_noWorse (bs : List Byte) (s : State) (a : Nat) : NoWorse s (s.setBytes a bs) := by
  induction bs generalizing s a with
  | nil => exact .refl s
  | cons x xs ih => exact NoWorse.trans (t := s.setByte a x) ⟨fun _ => rfl, id, fun _ => id⟩ (ih _ _)

theorem setPoison_false_noWorse (s : State) (a : Nat) : NoWorse s (s.setPoison a false) := by
  refine ⟨fun _ => rfl, id, fun b hb => ?_⟩
  have hoff : (s.setPoison a false).offline b = s.offline b := rfl
  unfold State.poisoned at hb ⊢
  rw [hoff] at hb
  cases hin : inBench b 1 with
  | false => rw [hin] at hb; exact hb
  | true =>
    rw [hin] at hb
    simp only [if_true, State.setPoison] at hb ⊢
    by_cases hk : poisonWord a = poisonWord b
    · rw [hk, Store.get_set_same, Bool.or_false] at hb
      rw [hb, Bool.true_or]
    · rwa [Store.get_set_ne _ _ _ hk] at hb

theorem storeBench_noWorse (a : Nat) (s : State) : NoWorse s (storeBench a s) := by
  refine ⟨fun _ => rfl, fun hc => ⟨?_, hc.2⟩, fun _ => id⟩
  show Store.set 0 s.ben.flaws _ 0 = []
  rw [hc.1]
  rfl

/-- Which benches and ranks are in service does not rest on the benches' power states. -/
theorem offline_congr {s t : State} (h : ∀ r, r ≠ .BENCH_BPWR_STAT_STATE → ∀ i x u, t.rd r i x u = s.rd r i x u) (b : Nat) :
    t.offline b = s.offline b := by
  simp [State.offline, State.logicalRank, State.quarryAddr, State.logicalRanks, h]

/-- Nor does what counts as poisoned. -/
theorem poisoned_congr {s t : State} (h : ∀ r, r ≠ .BENCH_BPWR_STAT_STATE → ∀ i x u, t.rd r i x u = s.rd r i x u)
    (hp : t.poison = s.poison) (hq : t.qry = s.qry) (b : Nat) : t.poisoned b = s.poisoned b := by
  simp [State.poisoned, offline_congr h, wordPoisoned, rowReady, rowMeta, freshRow, readRank, ranksFor, migTarget, migrating, lrMap,
    rankState, unitV, wordOf, State.logicalRank, State.quarryAddr, State.logicalRanks, h, hp, hq]

theorem touchBench_noWorse (a n : Nat) (s : State) : NoWorse s (touchBench a n s) := by
  unfold touchBench
  split
  · refine NoWorse.each (fun b t => ?_) _ s
    have hr : ∀ r, r ≠ .BENCH_BPWR_STAT_STATE → ∀ i x u, State.rd (State.wr
        { t with ben := { t.ben with last := Store.set 0 t.ben.last b t.osc } } .BENCH_BPWR_STAT_STATE 0 0 0 b) r i x u = t.rd r i x u :=
      fun r hne i x u => State.rd_wr_reg _ hne.symm ..
    exact ⟨offline_congr hr, id, fun c hc => (poisoned_congr hr rfl rfl c).symm.trans hc⟩
  · exact .refl s

/-! ### Quarry's rows (R275, R276) -/

theorem testBit_of_putBit_false {v b i : Nat} (h : (putBit v b false).testBit i = true) : v.testBit i = true := by
  have hlt : v % 2 ^ b < 2 ^ (b + 1) := Nat.lt_trans (Nat.mod_lt _ (Nat.two_pow_pos b)) (Nat.pow_lt_pow_right (by decide) (by omega))
  have he : putBit v b false = 2 ^ (b + 1) * (v / 2 ^ (b + 1)) + v % 2 ^ b := by
    show v % 2 ^ b + 0 + v / 2 ^ (b + 1) * 2 ^ (b + 1) = _
    rw [Nat.add_zero, Nat.mul_comm, Nat.add_comm]
  rw [he, Nat.testBit_two_pow_mul_add _ hlt] at h
  split at h
  · rw [Nat.testBit_mod_two_pow, Bool.and_eq_true] at h
    exact h.2
  · rwa [Nat.testBit_div_two_pow, Nat.sub_add_cancel (by omega)] at h

/-- A mark taken away marks no word anew. -/
theorem marks_of_mark_false {r : RowMeta} {b i : Nat} (h : (r.mark b false).marks i = true) : r.marks i = true := by
  have h0 : (putBit r.poison0 b false).testBit i = true → _ := testBit_of_putBit_false
  have h1 : (putBit r.poison1 b false).testBit i = true → _ := testBit_of_putBit_false
  have h2 : (putBit r.poison2 b false).testBit i = true → _ := testBit_of_putBit_false
  simp only [RowMeta.mark, RowMeta.seal, RowMeta.marks, Bool.or_eq_true, Bool.and_eq_true] at h ⊢
  tauto

theorem freshRow_marks (s : State) (i : Nat) : (freshRow s).marks i = false := by
  simp [freshRow, RowMeta.seal, RowMeta.marks]

/-- A row stored under a key. -/
def State.putRow (s : State) (k : Nat) (r : RowMeta) : State :=
  { s with qry := { s.qry with rows := Store.set none s.qry.rows k (some r) } }

theorem rowMeta_putRow_same {s : State} {k p row : Nat} (h : rowKey p row = k) (r : RowMeta) : rowMeta (s.putRow k r) p row = some r := by
  have hg : Store.get none (s.putRow k r).qry.rows (rowKey p row) = some r := by rw [h]; exact Store.get_set_same none s.qry.rows k (some r)
  simp only [rowMeta, hg]

theorem rowMeta_putRow_ne {s : State} {k p row : Nat} (h : k ≠ rowKey p row) (r : RowMeta) :
    rowMeta (s.putRow k r) p row = rowMeta s p row := by
  have hg : Store.get none (s.putRow k r).qry.rows (rowKey p row) = Store.get none s.qry.rows (rowKey p row) :=
    Store.get_set_ne none s.qry.rows (some r) h
  simp only [rowMeta, hg]
  rfl

/-- Rows of one key have one metadata. -/
theorem rowMeta_key {s : State} {p row p' row' : Nat} (h : rowKey p row = rowKey p' row') : rowMeta s p row = rowMeta s p' row' := by
  unfold rowMeta
  rw [h]

/-- A row that is initialised has metadata of the present generation with its CRC (R276). -/
theorem rowReady_iff {s : State} {p row : Nat} :
    rowReady s p row = true ↔ ∃ r, rowMeta s p row = some r ∧ r.gen = s.rd .QUARRY_GEN_GEN ∧ r.crc = crc16 r.bytes := by
  unfold rowReady
  cases rowMeta s p row <;> simp

/-- What counts as a poisoned word. -/
theorem wordPoisoned_iff {s : State} {p v w : Nat} : wordPoisoned s p v w = true ↔
    ∃ r, rowMeta s p (v / 7) = some r ∧ r.gen = s.rd .QUARRY_GEN_GEN ∧ r.crc = crc16 r.bytes ∧ r.marks (poisonBit v w) = true := by
  rw [wordPoisoned, Bool.and_eq_true, rowReady_iff]
  constructor
  · rintro ⟨⟨r, hr, hg, hc⟩, hm⟩
    rw [hr] at hm
    exact ⟨r, hr, hg, hc, hm⟩
  · rintro ⟨r, hr, hg, hc, hm⟩
    refine ⟨⟨r, hr, hg, hc⟩, ?_⟩
    rw [hr]
    exact hm

/-- A row stored that marks nothing beside what its initialised predecessor marked makes no word count as poisoned. -/
theorem putRow_noWorse {s : State} {p row : Nat} {r : RowMeta}
    (h : ∀ i, r.marks i = true → ∃ r', rowMeta s p row = some r' ∧ r'.gen = s.rd .QUARRY_GEN_GEN ∧ r'.crc = crc16 r'.bytes ∧
      r'.marks i = true) : NoWorse s (s.putRow (rowKey p row) r) := by
  have hword (p' v w : Nat) (hw : wordPoisoned (s.putRow (rowKey p row) r) p' v w = true) : wordPoisoned s p' v w = true := by
    by_cases hk : rowKey p row = rowKey p' (v / 7)
    · obtain ⟨q, hq, -, -, hm⟩ := wordPoisoned_iff.mp hw
      rw [rowMeta_putRow_same hk.symm] at hq
      cases hq
      obtain ⟨r', hr', hg, hc, hm'⟩ := h _ hm
      exact wordPoisoned_iff.mpr ⟨r', (rowMeta_key hk).symm.trans hr', hg, hc, hm'⟩
    · obtain ⟨q, hq, hrest⟩ := wordPoisoned_iff.mp hw
      rw [rowMeta_putRow_ne hk] at hq
      exact wordPoisoned_iff.mpr ⟨q, hq, hrest⟩
  refine ⟨fun _ => rfl, id, fun b hb => ?_⟩
  unfold State.poisoned at hb ⊢
  have hoff : (s.putRow (rowKey p row) r).offline b = s.offline b := rfl
  rw [hoff] at hb
  cases hin : inBench b 1 with
  | true => rw [hin] at hb; exact hb
  | false =>
    rw [hin] at hb
    rw [Bool.or_eq_true] at hb ⊢
    exact hb.imp_right (hword _ _ _)

theorem freshRow_ready (s : State) : (freshRow s).gen = s.rd .QUARRY_GEN_GEN ∧ (freshRow s).crc = crc16 (freshRow s).bytes := ⟨rfl, rfl⟩

theorem initRow_ready (p row : Nat) (s : State) : rowReady (initRow p row s) p row = true := by
  unfold initRow
  split
  · assumption
  · exact rowReady_iff.mpr ⟨freshRow s, rowMeta_putRow_same (s := s) rfl _, freshRow_ready s⟩

/-- A row initialised marks nothing (R276). -/
theorem initRow_noWorse (p row : Nat) (s : State) : NoWorse s (initRow p row s) := by
  unfold initRow
  split
  · exact .refl s
  · have hrow : NoWorse s (s.putRow (rowKey p row) (freshRow s)) :=
      putRow_noWorse fun i hi => by rw [freshRow_marks] at hi; exact absurd hi Bool.false_ne_true
    refine ⟨hrow.offline, fun hc => ⟨hc.1, ?_⟩, hrow.poisoned⟩
    show s.qry.flaws.filter _ = []
    rw [hc.2, List.filter_nil]

/-- Taking the mark of a word away, in a row that is initialised (R278). -/
theorem putPoison_false_noWorse {p v : Nat} {s : State} (hr : rowReady s p (v / 7) = true) (w : Nat) :
    NoWorse s (putPoison p v w false s) := by
  obtain ⟨r, hm, hg, hc⟩ := rowReady_iff.mp hr
  have he : putPoison p v w false s = s.putRow (rowKey p (v / 7)) (r.mark (poisonBit v w) false) := by
    unfold putPoison
    rw [hm]
    rfl
  rw [he]
  exact putRow_noWorse fun i hi => ⟨r, hm, hg, hc, marks_of_mark_false hi⟩

theorem clearFlaw_noWorse (p v w : Nat) (s : State) : NoWorse s (clearFlaw p v w s) := by
  refine ⟨fun _ => rfl, fun hc => ⟨hc.1, ?_⟩, fun _ => id⟩
  show Store.set 0 s.qry.flaws _ 0 = []
  rw [hc.2]
  rfl

theorem storeEcc_noWorse (a : Nat) (s : State) : NoWorse s (storeEcc a s) :=
  NoWorse.each (fun p t => ((initRow_noWorse p _ t).trans (putPoison_false_noWorse (initRow_ready p _ t) _)).trans
    (clearFlaw_noWorse p _ _ _)) _ s

/-! ### Writes that meet no poison (R278, R307) -/

/-- While no cell holds an error a read meets none (R289, R306). -/
theorem eccRead_clean {s : State} (hc : CleanCells s) (a n : Nat) : eccRead a n s = s := by
  unfold eccRead
  rw [if_pos hc.1, if_pos hc.2, ite_self, ite_self]

/-- A write to a clean word stores its bytes. -/
theorem writeWord_clean {s : State} {a : Nat} (hc : CleanCells s) (ha : s.poisoned a = false) (m : Nat) (bs : List Byte) :
    writeWord m a bs s = if inBench a 1 then storeBench a ((s.setBytes a bs).setPoison a false) else (storeEcc a s).setBytes a bs := by
  unfold writeWord
  simp only [eccRead_clean hc, ite_self, offline_of_clean ha, ha, Bool.false_eq_true, and_false, or_self, if_false]

theorem writeWord_noWorse {s : State} {a : Nat} (hc : CleanCells s) (ha : s.poisoned a = false) (m : Nat) (bs : List Byte) :
    NoWorse s (writeWord m a bs s) := by
  rw [writeWord_clean hc ha]
  split
  · exact ((setBytes_noWorse bs s a).trans (setPoison_false_noWorse _ a)).trans (storeBench_noWorse a _)
  · exact (storeEcc_noWorse a s).trans (setBytes_noWorse bs _ a)

theorem writeWord_inside {s : State} {a i : Nat} {bs : List Byte} (hc : CleanCells s) (ha : s.poisoned a = false) (m : Nat)
    (hi : i < bs.length) : Store.get 0 (writeWord m a bs s).mem (a + i) = bs[i] := by
  rw [writeWord_clean hc ha]
  split <;> exact setBytes_inside bs hi

/-- The end of the word that a lies in is past a. -/
theorem wordEnd_pos (a : Nat) : 0 < poisonWord a + wordSize a - a := by
  unfold poisonWord wordSize
  split <;> omega

theorem writeWords_cons {m fuel a : Nat} {bs : List Byte} (h : 0 < bs.length) (s : State) : writeWords m (fuel + 1) a bs s =
    writeWords m fuel (a + (poisonWord a + wordSize a - a)) (bs.drop (poisonWord a + wordSize a - a))
      (writeWord m a (bs.take (poisonWord a + wordSize a - a)) s) := by
  obtain ⟨b, bs, rfl⟩ := List.exists_cons_of_length_pos h
  rfl

/-- A write word by word over clean words stores every byte and makes no word worse. -/
theorem writeWords_clean (m : Nat) (fuel : Nat) {a : Nat} {bs : List Byte} {s : State} (hf : bs.length ≤ fuel) (hc : CleanCells s)
    (ha : s.anyPoison a bs.length = false) : NoWorse s (writeWords m fuel a bs s) ∧
      ∀ i, (hi : i < bs.length) → Store.get 0 (writeWords m fuel a bs s).mem (a + i) = bs[i] := by
  induction fuel generalizing a bs s with
  | zero => exact ⟨.refl s, fun i hi => absurd hi (by omega)⟩
  | succ fuel ih =>
    rcases Nat.eq_zero_or_pos bs.length with h0 | hpos
    · cases List.eq_nil_of_length_eq_zero h0
      exact ⟨.refl s, fun i hi => absurd hi (Nat.not_lt_zero i)⟩
    · have hn := wordEnd_pos a
      have hclean := anyPoison_false.mp ha
      have ha0 : s.poisoned a = false := hclean a (Nat.le_refl a) (by omega)
      rw [writeWords_cons hpos]
      generalize poisonWord a + wordSize a - a = n at hn
      have hw := writeWord_noWorse hc ha0 m (bs.take n)
      have hrest : (writeWord m a (bs.take n) s).anyPoison (a + n) (bs.drop n).length = false := by
        refine hw.anyPoison (anyPoison_false.mpr fun c hlo hhi => hclean c (by omega) ?_)
        rw [List.length_drop] at hhi
        omega
      obtain ⟨hno, hin⟩ := ih (a := a + n) (bs := bs.drop n) (by rw [List.length_drop]; omega) (hw.clean hc) hrest
      refine ⟨hw.trans hno, fun i hi => ?_⟩
      by_cases hin' : i < n
      · have htake : i < (bs.take n).length := by rw [List.length_take]; omega
        rw [writeWords_outside _ (by omega), writeWord_inside hc ha0 m htake, List.getElem_take]
      · have hdrop : i - n < (bs.drop n).length := by rw [List.length_drop]; omega
        have h := hin (i - n) hdrop
        rw [List.getElem_drop] at h
        rw [show a + i = a + n + (i - n) by omega, h]
        congr 1
        omega

/-- A write that the checks accept, over clean words and with no reshape, stores its bytes and no other. -/
theorem storeMem_clean {s : State} {a : Nat} {bs : List Byte} (m : Nat) (hr : s.mustRetry a = false) (hc : CleanCells s)
    (ha : s.anyPoison a bs.length = false) : (storeMem m a bs s).bytes a bs.length = bs ∧
      ∀ b, b < a ∨ a + bs.length ≤ b → (storeMem m a bs s).byte b = s.byte b := by
  have htouch := touchBench_noWorse a bs.length s
  have he : storeMem m a bs s = writeWords m bs.length a bs (touchBench a bs.length s) := if_neg (by rw [hr]; exact Bool.false_ne_true)
  obtain ⟨hno, hin⟩ := writeWords_clean m bs.length (Nat.le_refl _) (htouch.clean hc) (htouch.anyPoison ha)
  rw [← he] at hno hin
  have hoff (b : Nat) : (storeMem m a bs s).offline b = s.offline b := (htouch.trans hno).offline b
  constructor
  · refine List.ext_getElem (by rw [State.bytes, List.length_map, rangeFrom_length]) fun i hi hi' => ?_
    have hserved : s.offline (a + i) = false := offline_of_clean (anyPoison_false.mp ha (a + i) (by omega) (by omega))
    simp only [State.bytes, List.getElem_map, rangeFrom_getElem, State.byte, hoff, hserved, Bool.false_eq_true, if_false]
    exact hin i hi'
  · intro b hb
    unfold State.byte
    rw [hoff, storeMem_outside hb]

/-! ### Where an access goes -/

theorem inBench_iff {a n : Nat} : inBench a n = true ↔ 0x10000000 ≤ a ∧ a + n ≤ 0x10400000 := by
  unfold inBench
  rw [Bool.and_eq_true, decide_eq_true_eq, decide_eq_true_eq]
  rfl

theorem mapped_iff {a : Nat} : mapped a = true ↔ (0x10000000 ≤ a ∧ a < 0x10400000) ∨ (0x11000000 ≤ a ∧ a < 0x11400000) ∨
    (0x12000000 ≤ a ∧ a < 0x12400000) ∨ (0x20000000 ≤ a ∧ a < 0x21000000) ∨ (0x1000000000 ≤ a ∧ a < 0x1C40000000) := by
  simp only [mapped, Bool.or_eq_true, Bool.and_eq_true, decide_eq_true_eq, inBench_iff]
  unfold quarryBase firmwareEnd
  omega

/-- An access that lies whole in no second image of the benches (R316) reaches its own address. -/
theorem aliasOf_none {a n : Nat} (h1 : ¬(0x11000000 ≤ a ∧ a + n ≤ 0x11400000)) (h2 : ¬(0x12000000 ≤ a ∧ a + n ≤ 0x12400000)) :
    aliasOf a n = (a, 0) := by
  unfold aliasOf
  rw [if_neg, if_neg] <;> rw [inBench_iff] <;> omega

theorem inRom_false {a n : Nat} (h : 0x40000 < a + n) : inRom a n = false := decide_eq_false (Nat.not_le.mpr h)

theorem allRegisters_false {a n : Nat} (h : ¬(0x20000000 ≤ a ∧ a + n ≤ 0x21000000)) : allRegisters a n = false := by
  rw [← Bool.not_eq_true, allRegisters, Bool.and_eq_true, decide_eq_true_eq, decide_eq_true_eq]
  exact h

/-- The access goes to memory at its own address, not to the boot ROM and to no register (R26). -/
structure Plain (a n : Nat) : Prop where
  addr : aliasOf a n = (a, 0)
  rom : inRom a n = false
  regs : allRegisters a n = false

theorem plain_bench {a n : Nat} (h : inBench a n = true) (hn : 0 < n) : Plain a n := by
  rw [inBench_iff] at h
  exact ⟨aliasOf_none (by omega) (by omega), inRom_false (by omega), allRegisters_false (by omega)⟩

theorem plain_quarry {a n : Nat} (h : quarryBase ≤ a) : Plain a n := by
  unfold quarryBase at h
  exact ⟨aliasOf_none (by omega) (by omega), inRom_false (by omega), allRegisters_false (by omega)⟩

theorem plain_unmapped {a n : Nat} (h : mapped a = false) (hrom : 0x40000 ≤ a) (hn : 0 < n) : Plain a n := by
  rw [← Bool.not_eq_true, mapped_iff] at h
  exact ⟨aliasOf_none (by omega) (by omega), inRom_false (by omega), allRegisters_false (by omega)⟩

/-- No check admits an access to an unmapped address while the waveform space ends below the firmware area (R24, R26). -/
theorem busAllowed_unmapped {s : State} {a n : Nat} (h : mapped a = false) (hrom : 0x40000 ≤ a) (hn : 0 < n)
    (hw : s.rd .QUARRY_CAPACITY_WAVE_GIB ≤ 48) (m : Nat) (write : Bool) : busAllowed s m a n write = false := by
  have hp := plain_unmapped h hrom hn
  rw [← Bool.not_eq_true, mapped_iff] at h
  have hwave : inWave s a 1 = false := by
    rw [← Bool.not_eq_true, inWave, Bool.and_eq_true, decide_eq_true_eq, decide_eq_true_eq]
    unfold quarryBase
    omega
  have hfirm : inFirmware a 1 = false := by
    rw [← Bool.not_eq_true, inFirmware, Bool.and_eq_true, decide_eq_true_eq, decide_eq_true_eq]
    unfold quarryEnd firmwareEnd
    omega
  have hbench : inBench a 1 = false := by rw [← Bool.not_eq_true, inBench_iff]; omega
  have hbyte (k : Kind) : byteAllowed s m k a = false := by simp [byteAllowed, hwave, hfirm, hbench]
  have hmem (k : Kind) : memAllowed s m k a n = false := by
    obtain ⟨n, rfl⟩ := Nat.exists_eq_succ_of_ne_zero (Nat.ne_of_gt hn)
    simp [memAllowed, rangeFrom, hbyte]
  simp [busAllowed, hp.addr, hp.rom, hmem]

/-! ### Records of rejected accesses (R24, R27) -/

/-- A rejected access to bench space is recorded on the BENCH page. -/
theorem busDeny_bench {s : State} {a n : Nat} (h : inBench a n = true) (hn : 0 < n) (m : Nat) (write : Bool) :
    busDeny m a n write s = recordErr .bench 0 errRegionDenied m write 0 s := by
  have hall : (rangeFrom a n).all mapped = true := List.all_eq_true.mpr fun b hb => by
    rw [mem_rangeFrom] at hb
    rw [inBench_iff] at h
    exact mapped_iff.mpr (by omega)
  have hpage : memPage a = .bench := by
    rw [inBench_iff] at h
    exact if_neg (by unfold quarryBase; omega)
  simp [busDeny, denyMem, (plain_bench h hn).addr, hall, hpage]

/-- One to an address where nothing is mapped is recorded on SYS with MAP_ERR. -/
theorem busDeny_unmapped {s : State} {a n : Nat} (h : mapped a = false) (hrom : 0x40000 ≤ a) (hn : 0 < n) (m : Nat) (write : Bool) :
    busDeny m a n write s = mapError m a write s := by
  have hall : (rangeFrom a n).all mapped = false := by
    obtain ⟨n, rfl⟩ := Nat.exists_eq_succ_of_ne_zero (Nat.ne_of_gt hn)
    simp [rangeFrom, h]
  simp [busDeny, denyMem, (plain_unmapped h hrom hn).addr, hall]

/-- What MAP_ERR leaves (R27): the address, the master, the event and the error record. -/
theorem mapError_records {s : State} {a m : Nat} (ha : a < 2 ^ 40) (hm : m < 32) (write : Bool) :
    (mapError m a write s).mem = s.mem ∧ (mapError m a write s).rd .SYS_ERR_ADDR_LO_ADDR = a % 2 ^ 32 ∧
      (mapError m a write s).rd .SYS_ERR_ADDR_HI_ADDR = a / 2 ^ 32 ∧ (mapError m a write s).rd .SYS_ERR_ADDR_HI_MASTER = m ∧
      (mapError m a write s).rd .SYS_ERR_ADDR_HI_WRITE = (if write then 1 else 0) ∧ Raised (mapError m a write s) .sys 0 3 ∧
      Recorded s (mapError m a write s) .sys 0 errRegionDenied m := by
  have hrec : Recorded s (mapError m a write s) .sys 0 errRegionDenied m := by
    refine Recorded.raise (recorded_recordErr (fun r hr i x z => ?_) (by decide) hm _ _) ..
    simp only [errors, fields, List.map_cons, List.map_nil, List.mem_cons, List.not_mem_nil, or_false, Part.reg.injEq] at hr
    rcases hr with rfl | rfl | rfl | rfl | rfl <;> simp
  have hhi : a / 2 ^ 32 < 2 ^ 8 := Nat.div_lt_of_lt_mul (by omega)
  refine ⟨by simp [mapError], ?_, ?_, ?_, ?_, raise_raw _ .., hrec⟩
  · simp [mapError, Reg.width, Reg.info]
  · simp [mapError, Reg.width, Reg.info]; omega
  · simp [mapError, Reg.width, Reg.info]; omega
  · cases write <;> simp [mapError, Reg.width, Reg.info]

end Sys2Proof.Machine
end

section
/-! PROOFS. Accesses of a master as a whole (R25): refused, waiting or served; and the statement about register and memory accesses. -/

namespace Sys2Proof.Machine

/-! ### Refused, waiting, served (R25) -/

/-- A master that has nothing held at a bench settles nothing. -/
theorem settleHeld_unheld {s : State} {m : Nat} (h : s.ben.held.any (fun y => y.master == m) = false) : settleHeld m s = s := by
  have hnone : s.ben.held.filter (fun x => x.master == m) = [] := by
    rw [List.filter_eq_nil_iff]
    exact fun x hx => List.any_eq_false.mp h x hx
  have hall : s.ben.held.filter (fun x => x.master != m) = s.ben.held := by
    rw [List.filter_eq_self]
    intro x hx
    have hne := List.any_eq_false.mp h x hx
    simpa using hne
  unfold settleHeld
  rw [hnone, hall]
  rfl

theorem busOrWait_refused {s : State} {x : BusWait} (h : busAllowed s x.master x.addr x.len x.data.isSome = false) :
    busOrWait x s = busRefuse x s := if_pos h

/-- An access that waits joins the queue, and the port's registers show it. -/
theorem busOrWait_waits {s : State} {x : BusWait} (h : busAllowed s x.master x.addr x.len x.data.isSome = true)
    (hw : busWaits s x = true) : (busOrWait x s).mem = s.mem ∧ (busOrWait x s).qry.waiting = s.qry.waiting ++ [x] ∧
      (busOrWait x s).readData = s.readData := by
  unfold busOrWait
  rw [if_neg (by rw [h]; exact Bool.noConfusion), if_pos hw]
  dsimp only
  split <;> exact ⟨rfl, rfl, rfl⟩

theorem busOrWait_served {s : State} {x : BusWait} (h : busAllowed s x.master x.addr x.len x.data.isSome = true)
    (hw : busWaits s x = false) (hh : s.ben.held.any (fun y => y.master == x.master) = false) : busOrWait x s = busServe x s := by
  unfold busOrWait
  rw [if_neg (by rw [h]; exact Bool.noConfusion), if_neg (by rw [hw]; exact Bool.noConfusion), settleHeld_unheld hh]

/-- The bytes lie in the benches, or in the waveform space of a Quarry that serves and does not reshape. -/
abbrev Serving (s : State) (a n : Nat) : Prop :=
  inBench a n = true ∨ (inWave s a n = true ∧ s.mustRetry a = false ∧ quarryHeld s = false)

theorem quarryBase_le_of_inWave {s : State} {a n : Nat} (h : inWave s a n = true) : quarryBase ≤ a := by
  rw [inWave, Bool.and_eq_true, decide_eq_true_eq] at h
  exact h.1

theorem Serving.plain {s : State} {a n : Nat} (h : Serving s a n) (hn : 0 < n) : Plain a n := by
  rcases h with hb | ⟨hw, -, -⟩
  · exact plain_bench hb hn
  · exact plain_quarry (quarryBase_le_of_inWave hw)

theorem Serving.mustRetry {s : State} {a n : Nat} (h : Serving s a n) (hn : 0 < n) : s.mustRetry a = false := by
  rcases h with hb | ⟨-, hr, -⟩
  · have hb1 : inBench a 1 = true := by rw [inBench_iff] at hb ⊢; omega
    rw [State.mustRetry, hb1]
    exact Bool.and_false _
  · exact hr

/-- Such an access does not wait for Quarry, where no earlier access of its master does. -/
theorem Serving.busWaits {s : State} {x : BusWait} (h : Serving s x.addr x.len)
    (hu : s.qry.waiting.any (fun y => y.master == x.master) = false) : busWaits s x = false := by
  unfold Machine.busWaits
  rw [hu, Bool.false_or]
  rcases h with hb | ⟨-, -, hq⟩
  · have hlt : ¬ quarryBase ≤ x.addr := by
      rw [inBench_iff] at hb
      unfold quarryBase
      omega
    rw [decide_eq_false hlt]
    rfl
  · rw [hq, Bool.and_false, Bool.false_and]

theorem busStore_plain {a : Nat} {bs : List Byte} (h : Plain a bs.length) (m : Nat) (s : State) :
    (busStore m a bs s).2 = storeMem m a bs s := by
  simp [busStore, h.addr, h.rom]

/-- A write access to memory that its checks accept and nothing holds up is done at once. -/
theorem accessWrite_serving {s : State} {m a : Nat} {bs : List Byte} (hs : Serving s a bs.length) (hn : 0 < bs.length)
    (hk : busAllowed s m a bs.length true = true) (hu : Unwaited s m) : accessWrite m a bs s = storeMem m a bs s := by
  have hp := hs.plain hn
  rw [accessWrite, if_neg (by rw [hp.regs]; exact Bool.noConfusion), busOrWait_served hk (hs.busWaits hu.2) hu.1]
  exact busStore_plain hp m s

theorem loadMem_serves {s : State} {a : Nat} (h : s.mustRetry a = false) (m n : Nat) :
    loadMem s m a n = (s.bytesFor m a n, eccRead a n (touchBench a n s)) := by
  rw [loadMem, h]
  rfl

/-- A read that its checks accept answers the bytes and stores nothing. -/
theorem busServe_read {s : State} {m a n o : Nat} (hp : Plain a n) (hr : s.mustRetry a = false) :
    (busServe { master := m, addr := a, len := n, data := none, at_ := o } s).readData = s.bytesFor m a n ∧
      (busServe { master := m, addr := a, len := n, data := none, at_ := o } s).mem = s.mem := by
  simp only [busServe, busLoad, hp.addr, hp.rom, loadMem_serves hr, drawPool_readData, drawPool_mem, Bool.false_eq_true, false_and,
    if_false, true_and]
  split <;> simp

theorem accessRead_serving {s : State} {m a n : Nat} (hs : Serving s a n) (hn : 0 < n) (hk : busAllowed s m a n false = true)
    (hu : Unwaited s m) : (accessRead m a n s).readData = s.bytesFor m a n ∧ (accessRead m a n s).mem = s.mem := by
  have hp := hs.plain hn
  rw [accessRead, if_neg (by rw [hp.regs]; exact Bool.noConfusion), busOrWait_served hk (hs.busWaits hu.2) hu.1]
  exact busServe_read hp (hs.mustRetry hn)

theorem accessWrite_refused {s : State} {m a : Nat} {bs : List Byte} (hr : allRegisters a bs.length = false)
    (hk : busAllowed s m a bs.length true = false) : accessWrite m a bs s = busDeny m a bs.length true s := by
  rw [accessWrite, if_neg (by rw [hr]; exact Bool.noConfusion), busOrWait_refused hk]
  rfl

theorem accessRead_refused {s : State} {m a n : Nat} (hr : allRegisters a n = false) (hk : busAllowed s m a n false = false) :
    accessRead m a n s = { busDeny m a n false s with readData := List.replicate n 0 } := by
  rw [accessRead, if_neg (by rw [hr]; exact Bool.noConfusion), busOrWait_refused hk]
  rfl

/-! ### Addresses of the registers named -/

theorem pageAt_scratch : pageAt 0x20000058 = some (.sys, 0) := rfl

theorem pageAt_gain (c : Chan) : pageAt (0x2006004C + 0x1000 * c.val) = some (.cse, c.val) := by
  revert c
  decide +kernel

theorem pageAt_now : pageAt 0x20004048 = some (.tbase, 0) ∧ pageAt 0x2000404C = some (.tbase, 0) := ⟨rfl, rfl⟩

/-- The address of TB_NOW holds the lower half of a pair. -/
theorem isPairLow_now : isPairLow 0x20004048 = true := rfl

/-- An address in the register range past a page's first 0x58 bytes, within its word, lies on the same page. -/
theorem pageAt_scratch_lanes (lo : Fin 4) : pageAt (0x20000058 + lo.val) = some (.sys, 0) := by
  revert lo
  decide +kernel

/-! ### Register accesses -/

/-- A write that the lock or the security of the page rejects changes the error record and wakes (R24). -/
theorem registerWrite_denied {s : State} {m : Master} {a : BitVec 24} {p : Page} {inst : Nat} (hd : s.dev = .up)
    (hp : pageAt (regAddr a) = some (p, inst)) (ha : assigned s p inst (regAddr a % 0x1000 / 4 * 4) m.val = true)
    (hx : accessOk s p inst m.val true = false) (v : Word) :
    ∃ t, exec (.registerWrite m a v) s = .next t ∧ Recorded s t p inst errOwnerDenied m.val ∧ OnlyChanges (errors ++ wakes) s t := by
  refine ⟨_, act_up hd _, ?_, ?_⟩
  · rw [writeReg_denied hp ha hx]
    exact recorded_recordErr (hostWake_errors m.val) (by decide) m.isLt ..
  · rw [writeReg_denied hp ha hx]
    exact (recordErr_keeps (hostWake_keeps (.refl _ s) (.of_beq (by decide +kernel)) _) (.of_beq (by decide +kernel)) ..).only

theorem registerWrite_scratch {s : State} {m : Master} (h : MayWrite s .sys 0 m) (v : Word) :
    ∃ t, exec (.registerWrite m 0x58 v) s = .next t ∧ t.rd .SYS_SCRATCH_DATA = v.toNat := by
  refine ⟨_, act_up h.1 _, ?_⟩
  have ha : regAddr 0x58 = 0x20000058 := rfl
  rw [ha, writeReg_scratch h.2 pageAt_scratch rfl, State.rd_wr_same]
  have hv : v.toNat < 2 ^ 32 := v.isLt
  exact (Nat.mod_mod_of_dvd _ (Nat.dvd_refl _)).trans (Nat.mod_eq_of_lt hv)

theorem registerWrite_gain {s : State} {m : Master} {c : Chan} {a : BitVec 24} (h : MayWrite s .cse c.val m)
    (ha : a.toNat = 0x6004C + 0x1000 * c.val) (v : Word) :
    ∃ t, exec (.registerWrite m a v) s = .next t ∧ t.rd .CSE_GAIN_GAIN c.val = v.toNat % 2 ^ 24 ∧
      t.rdEff .CSE_GAIN_GAIN c.val = s.rdEff .CSE_GAIN_GAIN c.val := by
  have hreg : regAddr a = 0x2006004C + 0x1000 * c.val := by unfold regAddr; omega
  refine ⟨_, act_up h.1 _, ?_⟩
  rw [hreg, writeReg_gain h.2 (pageAt_gain c) (by omega)]
  refine ⟨(State.rd_wr_same ..).trans (Nat.mod_mod_of_dvd _ (Nat.dvd_refl _)), ?_⟩
  show Store.get _ ((hostWake m.val s).wr .CSE_GAIN_GAIN _ c.val).eff _ = _
  rw [State.wr_eff, hostWake_eff]
  rfl

/-- A read of ERR_CODE answers the record and clears all of it. -/
theorem readClear_errCode {s : State} {m : Master} {a : BitVec 24} {p : Page} {inst : Nat} (hd : s.dev = .up)
    (hp : pageAt (regAddr a) = some (p, inst)) (ho : regAddr a % 0x1000 = 0x1C) (hx : accessOk s p inst m.val false = true) :
    ∃ t, exec (.readClear m a) s = .next t ∧ t.readData = leBytes 4 (errWord s p inst % 2 ^ 32) ∧
      t.rd .ERR_CODE_CODE inst p.code = 0 ∧ t.rd .ERR_CODE_MASTER inst p.code = 0 ∧ t.rd .ERR_CODE_WRITE inst p.code = 0 ∧
      t.rd .ERR_CODE_OVF inst p.code = 0 ∧ t.rd .ERR_CODE_WORD inst p.code = 0 := by
  have hoff : regAddr a % 0x1000 / 4 * 4 = 0x1C := by rw [ho]
  have ha : assigned s p inst (regAddr a % 0x1000 / 4 * 4) m.val = true := by rw [hoff]; simp [assigned]
  have hr : readReg m.val (regAddr a) s = (errWord s p inst % 2 ^ 32, clearErr p inst s) := by
    rw [readReg_ok hp ha hx, hoff, readWord_errCode]
  refine ⟨_, act_up hd _, ?_⟩
  rw [answerReg, hr]
  refine ⟨rfl, ?_⟩
  show (clearErr p inst s).rd .ERR_CODE_CODE inst p.code = 0 ∧ (clearErr p inst s).rd .ERR_CODE_MASTER inst p.code = 0 ∧
    (clearErr p inst s).rd .ERR_CODE_WRITE inst p.code = 0 ∧ (clearErr p inst s).rd .ERR_CODE_OVF inst p.code = 0 ∧
    (clearErr p inst s).rd .ERR_CODE_WORD inst p.code = 0
  simp [clearErr]

theorem readReg_now_low {s : State} {m : Nat} (hx : accessOk s .tbase 0 m false = true) : readReg m 0x20004048 s =
    (s.now % 2 ^ 32, { s with held := Store.set none s.held m (some (0x2000404C, s.now / 2 ^ 32 % 2 ^ 32)) }) := by
  rw [readReg_ok pageAt_now.1 rfl hx]
  show ((readWord .tbase 0 0x48 m s).1 % 2 ^ 32, (readWord .tbase 0 0x48 m s).2) = _
  rw [readWord_now_low]
  exact congrArg (·, _) (Nat.mod_mod ..)

/-- A read of the lower half of TB_NOW answers it and holds the upper half for the reader. -/
theorem read64Low_now {s : State} {m : Master} (hd : s.dev = .up) (hx : accessOk s .tbase 0 m.val false = true) :
    ∃ t, exec (.read64Low m 0x4048) s = .next t ∧ t.readData = leBytes 4 (s.now % 2 ^ 32) ∧
      Store.get none t.held m.val = some (0x2000404C, s.now / 2 ^ 32 % 2 ^ 32) := by
  refine ⟨_, act_up hd _, ?_⟩
  have ha : regAddr 0x4048 = 0x20004048 := rfl
  rw [ha, on_pos isPairLow_now, answerReg, readReg_now_low hx]
  exact ⟨rfl, Store.get_set_same (none : Option (Nat × Nat)) s.held m.val (some (0x2000404C, s.now / 2 ^ 32 % 2 ^ 32))⟩

theorem readReg_now_high {s : State} {m : Nat} (hx : accessOk s .tbase 0 m false = true) : readReg m 0x2000404C s =
    ((readWord .tbase 0 0x4C m s).1 % 2 ^ 32, (readWord .tbase 0 0x4C m s).2) := readReg_ok pageAt_now.2 rfl hx

/-- The reader's next read of the upper half answers the half held, and holds it no longer. -/
theorem read64High_held {s : State} {m : Master} {v : Nat} (hd : s.dev = .up) (hx : accessOk s .tbase 0 m.val false = true)
    (hh : Store.get none s.held m.val = some (0x2000404C, v)) (hv : v < 2 ^ 32) :
    ∃ t, exec (.read64High m 0x404C) s = .next t ∧ t.readData = leBytes 4 v ∧ Store.get none t.held m.val = none := by
  refine ⟨_, act_up hd _, ?_⟩
  have ha : regAddr 0x404C = 0x2000404C := rfl
  rw [ha, on_pos isPairLow_now, answerReg, readReg_now_high hx, readWord_held rfl rfl rfl hh, Nat.mod_eq_of_lt hv]
  exact ⟨rfl, Store.get_set_same none s.held m.val none⟩

/-- With no half held it answers the live half. -/
theorem read64High_live {s : State} {m : Master} (hd : s.dev = .up) (hx : accessOk s .tbase 0 m.val false = true)
    (hh : Store.get none s.held m.val = none) :
    ∃ t, exec (.read64High m 0x404C) s = .next t ∧ t.readData = leBytes 4 (s.now / 2 ^ 32 % 2 ^ 32) := by
  refine ⟨_, act_up hd _, ?_⟩
  have ha : regAddr 0x404C = 0x2000404C := rfl
  rw [ha, on_pos isPairLow_now, answerReg, readReg_now_high hx, readWord_now_live hh, Nat.mod_mod]

/-! ### Accesses of SCRATCH by byte lanes -/

/-- The lanes of SCRATCH stand on the SYS page, in its register range. -/
theorem scratch_lanes {lo : Fin 4} {a n : Nat} (ha : a = 0x20000058 + lo.val) (hn : lo.val + n ≤ 4) :
    pageAt a = some (.sys, 0) ∧ a / 4 * 4 = 0x20000058 ∧ a % 0x1000 / 4 * 4 = 0x58 ∧ a % 4 = lo.val ∧ allRegisters a n = true := by
  subst ha
  refine ⟨pageAt_scratch_lanes lo, by omega, by omega, by omega, ?_⟩
  rw [allRegisters, Bool.and_eq_true, decide_eq_true_eq, decide_eq_true_eq]
  omega

/-- A write of some bytes of SCRATCH changes those alone. -/
theorem masterAccess_scratch_write {s : State} {m : Master} {lo : Fin 4} {a : Addr} {data : List Byte} (h : MayWrite s .sys 0 m)
    (ha : a.toNat = 0x20000058 + lo.val) (h0 : 0 < data.length) (h4 : lo.val + data.length ≤ 4) (n : BitVec 12) :
    ∃ t, exec (.masterAccess m a (some data) n) s = .next t ∧ t.mem = s.mem ∧
      leBytes 4 (t.rd .SYS_SCRATCH_DATA) = (leBytes 4 (s.rd .SYS_SCRATCH_DATA)).take lo.val ++ data ++
        (leBytes 4 (s.rd .SYS_SCRATCH_DATA)).drop (lo.val + data.length) := by
  obtain ⟨hp, -, hoff, hlane, hr⟩ := scratch_lanes ha h4
  have hw : accessWrite m.val a.toNat data s = (hostWake m.val s).wr .SYS_SCRATCH_DATA
      (laneWord (s.rd .SYS_SCRATCH_DATA) lo.val data % 2 ^ 32) := by
    rw [accessWrite_lanes hr h0 (by rw [hlane]; exact h4), writeLanes, hp]
    show writeReg m.val a.toNat (laneWord (fieldsWord s _ .sys 0 (a.toNat % 0x1000 / 4 * 4) m.val) (a.toNat % 4) data) s = _
    rw [hoff, fieldsWord_scratch rfl, hlane, writeReg_scratch h.2 hp hoff]
  refine ⟨accessWrite m.val a.toNat data s, act_up h.1 _, ?_⟩
  rw [hw]
  refine ⟨by rw [State.wr_mem, hostWake_mem], ?_⟩
  rw [State.rd_wr_same, show Reg.SYS_SCRATCH_DATA.width = 32 from rfl, Nat.mod_mod, leBytes_laneWord h4]

/-- A read of some bytes of SCRATCH answers them. -/
theorem masterAccess_scratch_read {s : State} {m : Master} {lo : Fin 4} {a : Addr} {n : BitVec 12} (hd : s.dev = .up)
    (hx : accessOk s .sys 0 m.val false = true) (hi : Inv s) (ha : a.toNat = 0x20000058 + lo.val) (h0 : 0 < n.toNat)
    (h4 : lo.val + n.toNat ≤ 4) : ∃ t, exec (.masterAccess m a none n) s = .next t ∧ t.mem = s.mem ∧
      t.readData = ((leBytes 4 (s.rd .SYS_SCRATCH_DATA)).drop lo.val).take n.toNat := by
  obtain ⟨-, hword, -, hlane, hr⟩ := scratch_lanes ha h4
  obtain ⟨-, -, hregs, -, -⟩ := hi
  have hlt : s.rd .SYS_SCRATCH_DATA < 2 ^ 32 := rd_lt hregs .SYS_SCRATCH_DATA 0 0 0
  have hread : readReg m.val 0x20000058 s = (s.rd .SYS_SCRATCH_DATA, s) := by
    rw [readReg_ok pageAt_scratch (assigned_of_fields rfl ..) hx]
    show ((readWord .sys 0 0x58 m.val s).1 % 2 ^ 32, (readWord .sys 0 0x58 m.val s).2) = _
    rw [readWord_scratch, Nat.mod_eq_of_lt hlt]
  refine ⟨accessRead m.val a.toNat n.toNat s, act_up hd _, ?_⟩
  rw [accessRead_lanes hr h0 (by rw [hlane]; exact h4), hword, hread, hlane]
  exact ⟨drawPool_mem .., drawPool_readData ..⟩

/-! ### The obligation -/

/-- Settles O50: register accesses by the rules of one register, memory accesses by whether they are refused, wait or are served. -/
theorem registerAccesses : Obligations.RegisterAccesses := by
  refine ⟨fun s m a v p inst _ hp hu => act_same (writeReg_unassigned hp hu _), fun s m a v _ hp => act_same (writeReg_no_page hp ..),
    fun s m a v p inst hd hp ha hx => registerWrite_denied hd hp ha hx v, fun s m v h => registerWrite_scratch h v,
    fun s m c a v h ha => registerWrite_gain h ha v, fun s m a p inst hd hp ho hx => readClear_errCode hd hp ho hx,
    fun s m hd hx => read64Low_now hd hx, fun s m v hd hx hh hv => read64High_held hd hx hh hv,
    fun s m hd hx hh => read64High_live hd hx hh, ?write, ?read, ?writeWaits, ?readWaits, ?writeDenied, ?readDenied, ?readUnmapped,
    ?writeUnmapped, fun s m lo a data n h _ ha h0 h4 => masterAccess_scratch_write h ha h0 h4 n,
    fun s m lo a n hd hx hi ha h0 h4 => masterAccess_scratch_read hd hx hi ha h0 h4⟩
  case write =>
    intro s m a data n hd hc h0 hs hk hu hpz
    refine ⟨accessWrite m.val a.toNat data s, act_up hd _, ?_⟩
    rw [accessWrite_serving hs h0 hk hu]
    exact storeMem_clean m.val (Serving.mustRetry hs h0) hc hpz
  case read =>
    intro s m a n hd _ h0 hs hk hu _
    exact ⟨accessRead m.val a.toNat n.toNat s, act_up hd _, accessRead_serving hs h0 hk hu⟩
  case writeWaits =>
    rintro s m a data n x hd rfl hr hk hw
    obtain ⟨hmem, hq, -⟩ := busOrWait_waits hk hw
    refine ⟨accessWrite m.val a.toNat data s, act_up hd _, ?_⟩
    rw [accessWrite, if_neg (by rw [hr]; exact Bool.noConfusion)]
    exact ⟨hmem, hq⟩
  case readWaits =>
    rintro s m a n x hd rfl hr hk hw
    refine ⟨accessRead m.val a.toNat n.toNat s, act_up hd _, ?_⟩
    rw [accessRead, if_neg (by rw [hr]; exact Bool.noConfusion)]
    exact busOrWait_waits hk hw
  case writeDenied =>
    intro s m a data n hd h0 hb hk
    refine ⟨accessWrite m.val a.toNat data s, act_up hd _, ?_⟩
    rw [accessWrite_refused (plain_bench hb h0).regs hk, busDeny_bench hb h0]
    exact ⟨recordErr_mem .., recorded_recordErr (fun _ _ _ _ _ => rfl) (by decide) m.isLt ..⟩
  case readDenied =>
    intro s m a n hd h0 hb hk
    refine ⟨accessRead m.val a.toNat n.toNat s, act_up hd _, ?_⟩
    rw [accessRead_refused (plain_bench hb h0).regs hk, busDeny_bench hb h0]
    exact ⟨recordErr_mem .., rfl, recorded_recordErr (fun _ _ _ _ _ => rfl) (by decide) m.isLt ..⟩
  case readUnmapped =>
    intro s m a n hd h0 hrom hu hw
    refine ⟨accessRead m.val a.toNat n.toNat s, act_up hd _, ?_⟩
    rw [accessRead_refused (plain_unmapped hu hrom h0).regs (busAllowed_unmapped hu hrom h0 hw ..), busDeny_unmapped hu hrom h0]
    obtain ⟨hmem, hrest⟩ := mapError_records a.isLt m.isLt false
    generalize mapError m.val a.toNat false s = t at hmem hrest ⊢
    exact ⟨rfl, hmem, hrest⟩
  case writeUnmapped =>
    intro s m a data n hd h0 hrom hu hw
    refine ⟨accessWrite m.val a.toNat data s, act_up hd _, ?_⟩
    rw [accessWrite_refused (plain_unmapped hu hrom h0).regs (busAllowed_unmapped hu hrom h0 hw ..), busDeny_unmapped hu hrom h0]
    exact mapError_records a.isLt m.isLt true

end Sys2Proof.Machine
end

section
/-! PROOFS. The sample edge of an output channel (R12, R19, R190, R194): what an edge does to the channel it belongs to, and that the
edges of the other channels of its quad leave it alone. -/

namespace Sys2Proof.Machine

/-! ### Outputs under the shared operations -/

@[simp] theorem wr_out (s : State) (r : Reg) (v i x u c : Nat) : (s.wr r v i x u).out c = s.out c := rfl
@[simp] theorem raise_out (s : State) (p : Page) (n b c : Nat) : (raise p n b s).out c = s.out c :=
  congrArg (Store.get _ · c) (raise_outs s p n b)
@[simp] theorem raise_cse (s : State) (p : Page) (n b c : Nat) : (raise p n b s).cse c = s.cse c :=
  congrArg (Store.get _ · c) (raise_cses s p n b)
@[simp] theorem showVolt_out (c v : Nat) (s : State) :
    (showVolt c v s).out c = { s.out c with dac := voltCode (spanNow s c) v } := by
  unfold showVolt
  split <;> simp
@[simp] theorem showVolt_rd {r : Reg} (h1 : .EVT_RAW_RAW ≠ r) (h2 : .EVT_PEND_PEND ≠ r) (c v : Nat) (s : State) (i x u : Nat) :
    (showVolt c v s).rd r i x u = s.rd r i x u := by
  unfold showVolt
  split <;> simp [h1, h2]

/-- An event bit that is set stays set when an event is raised. -/
theorem Raised.raise {s : State} {p : Page} {n b : Nat} (h : Raised s p n b) (q : Page) (i d : Nat) :
    Raised (Machine.raise q i d s) p n b := by
  show (raiseFor q i d i s).rd .EVT_RAW_RAW n p.code b = 1
  have hraw : (s.wr .EVT_RAW_RAW 1 i q.code d).rd .EVT_RAW_RAW n p.code b = 1 := by
    rw [State.rd_wr]
    split
    · rfl
    · exact h
  rw [raiseFor_regs]
  split
  · rw [State.rd_wr_reg _ (by decide), hraw]
  · exact hraw

/-! ### The edge of a channel, case by case -/

/-- FORCED as a write of FORCE has asked for it (R208). -/
def takeForce (c : Nat) (s : State) : State :=
  match (s.out c).forceReq with
  | some f => s.wr .OUT_FAULT_STAT_FORCED (if f then 1 else 0) c
  | none => s

/-- The requests that wait for the edge, but for a new fault value. -/
def takeRequests (c : Nat) (s : State) : State :=
  let s1 := if (s.out c).localReq then (takeForce c s).wr .OUT_STATUS_SENSE_LOCAL 1 c else takeForce c s
  (if (s.out c).lostReq then setCoreLost c 1 s1 else s1).setOut c
    { s.out c with forceReq := none, localReq := false, lostReq := false }

theorem edgeRequests_eq (c : Nat) (s : State) : edgeRequests c s =
    if (s.out c).faulted ∧ (s.out c).faultVal ≠ s.rd .OUT_NV_FAULT_VAL c ∧ outEnabled s c then
      showVolt c (s.rd .OUT_NV_FAULT_VAL c)
        ((takeRequests c s).setOut c { (takeRequests c s).out c with faultVal := s.rd .OUT_NV_FAULT_VAL c })
    else takeRequests c s := rfl

/-- In a gang the latch of the edge before gives its signals, and its code to a DAC register that comes back (R190, R209). -/
def latchEdge (c : Nat) (s : State) : State :=
  match (s.out c).latch with
  | some e => takeLatch c e (entrySignals c e s)
  | none => s

/-- The output of a channel whose sample queue gives up its oldest entry. -/
def OutChan.popped (o : OutChan) (es : List SqEntry) : OutChan := { o with sq := es ++ o.inter.take 1, inter := o.inter.drop 1 }

section
variable {c : Nat} {s : State} {e : SqEntry} {es : List SqEntry}

theorem popQueue_nil (h : (s.out c).sq = []) : popQueue c s = (none, s) := by
  unfold popQueue
  rw [h]

theorem popQueue_cons (h : (s.out c).sq = e :: es) : popQueue c s = (some e, s.setOut c ((s.out c).popped es)) := by
  unfold popQueue
  rw [h]
  rfl

theorem chanEdge_of_gang (hg : (edgeRequests c s).rd .OUT_STATUS_GANG_ACTIVE c = 1) : chanEdge c s =
    match popQueue c (latchEdge c (edgeRequests c s)) with
    | (some e, t) => t.setOut c { t.out c with latch := some e, underruns := 0 }
    | (none, t) => underrunTick c t := if_pos hg

theorem chanEdge_gang_code (hg : (edgeRequests c s).rd .OUT_STATUS_GANG_ACTIVE c = 1)
    (hq : ((latchEdge c (edgeRequests c s)).out c).sq = e :: es) :
    chanEdge c s = ((latchEdge c (edgeRequests c s)).setOut c (((latchEdge c (edgeRequests c s)).out c).popped es)).setOut c
      { ((latchEdge c (edgeRequests c s)).out c).popped es with latch := some e, underruns := 0 } := by
  rw [chanEdge_of_gang hg, popQueue_cons hq]
  dsimp only
  rw [State.out_setOut]

theorem chanEdge_gang_empty (hg : (edgeRequests c s).rd .OUT_STATUS_GANG_ACTIVE c = 1)
    (hq : ((latchEdge c (edgeRequests c s)).out c).sq = []) :
    chanEdge c s = underrunTick c (latchEdge c (edgeRequests c s)) := by
  rw [chanEdge_of_gang hg, popQueue_nil hq]

theorem chanEdge_latched (hg : (edgeRequests c s).rd .OUT_STATUS_GANG_ACTIVE c ≠ 1) (hl : ((edgeRequests c s).out c).latch = some e) :
    chanEdge c s = dacTake c e.code (entrySignals c e
      ((edgeRequests c s).setOut c { (edgeRequests c s).out c with latch := none, underruns := 0, rejoin := false })) := by
  unfold chanEdge
  dsimp only
  rw [if_neg hg, hl]

theorem chanEdge_code (hg : (edgeRequests c s).rd .OUT_STATUS_GANG_ACTIVE c ≠ 1) (hl : ((edgeRequests c s).out c).latch = none)
    (hq : ((edgeRequests c s).out c).sq = e :: es) :
    chanEdge c s = dacTake c e.code (entrySignals c e
      (((edgeRequests c s).setOut c (((edgeRequests c s).out c).popped es)).setOut c
        { ((edgeRequests c s).out c).popped es with underruns := 0, rejoin := false })) := by
  unfold chanEdge
  dsimp only
  rw [if_neg hg, hl]
  dsimp only
  rw [popQueue_cons hq]
  dsimp only
  rw [State.out_setOut]

theorem chanEdge_empty (hg : (edgeRequests c s).rd .OUT_STATUS_GANG_ACTIVE c ≠ 1) (hl : ((edgeRequests c s).out c).latch = none)
    (hq : ((edgeRequests c s).out c).sq = []) : chanEdge c s = underrunTick c (edgeRequests c s) := by
  unfold chanEdge
  dsimp only
  rw [if_neg hg, hl]
  dsimp only
  rw [popQueue_nil hq]

end

/-! ### What the edge of another channel leaves alone -/

/-- The fields of an OUT page that the statements about an edge speak of. -/
def edgeFields : List Reg :=
  [.OUT_STATUS_GANG_ACTIVE, .OUT_STATUS_SPAN_BUSY, .CTRL_ENABLE, .OUT_FAULT_STAT_SQ_UNDERRUN, .OUT_FAULT_STAT_REPEAT_FAIL,
    .OUT_FAULT_STAT_CORE_LOST, .OUT_FAULT_STAT_WATCHDOG, .OUT_FAULT_STAT_FORCED, .OUT_SQ_UCNT_COUNT]

/-- From s to t channel c keeps its output, its CSE and the fields of its page, and no event of it is cleared. -/
structure Apart (c : Nat) (s t : State) : Prop where
  out : t.out c = s.out c
  cse : t.cse c = s.cse c
  rd : ∀ r ∈ edgeFields, ∀ x u, t.rd r c x u = s.rd r c x u
  raised : ∀ p b, Raised s p c b → Raised t p c b

namespace Apart

variable {c d : Nat} {s t u : State}

theorem refl (c : Nat) (s : State) : Apart c s s := ⟨rfl, rfl, fun _ _ _ _ => rfl, fun _ _ => id⟩

theorem trans (h : Apart c s t) (k : Apart c t u) : Apart c s u :=
  ⟨k.out.trans h.out, k.cse.trans h.cse, fun r hr x v => (k.rd r hr x v).trans (h.rd r hr x v),
    fun p b hs => k.raised p b (h.raised p b hs)⟩

theorem wr (h : Apart c s t) (hd : d ≠ c) (r : Reg) (v x z : Nat) : Apart c s (t.wr r v d x z) := by
  have hplace (r' : Reg) (x' z' : Nat) : (t.wr r v d x z).rd r' c x' z' = t.rd r' c x' z' := by
    by_cases hr : r = r'
    · subst hr
      exact State.rd_wr_place _ _ _ (fun e => hd e.1)
    · exact State.rd_wr_reg _ hr ..
  exact ⟨h.out, h.cse, fun r' hr x' z' => (hplace r' x' z').trans (h.rd r' hr x' z'),
    fun p b hs => (hplace ..).trans (h.raised p b hs)⟩

theorem wr_other (h : Apart c s t) {r : Reg} (hr : r ∉ edgeFields) (he : r ≠ .EVT_RAW_RAW) (v i x z : Nat) :
    Apart c s (t.wr r v i x z) :=
  ⟨h.out, h.cse, fun r' hm x' z' => (State.rd_wr_reg _ (ne_of_mem_of_not_mem hm hr).symm ..).trans (h.rd r' hm x' z'),
    fun p b hs => (State.rd_wr_reg _ he ..).trans (h.raised p b hs)⟩

theorem setOut (h : Apart c s t) (hd : d ≠ c) (o : OutChan) : Apart c s (t.setOut d o) :=
  ⟨(State.out_setOut_ne _ hd o).trans h.out, h.cse, h.rd, h.raised⟩

theorem setCse (h : Apart c s t) (hd : d ≠ c) (e : Cse) : Apart c s (t.setCse d e) :=
  ⟨h.out, (State.cse_setCse_ne _ hd e).trans h.cse, h.rd, h.raised⟩

theorem setClock (h : Apart c s t) (q : Nat) (k : QuadClock) : Apart c s (t.setClock q k) := ⟨h.out, h.cse, h.rd, h.raised⟩

theorem setPin (h : Apart c s t) (n : Nat) (p : PinState) : Apart c s (t.setPin n p) := ⟨h.out, h.cse, h.rd, h.raised⟩

theorem present (h : Apart c s t) (n : Nat) : Apart c s (present n t) := ⟨h.out, h.cse, h.rd, h.raised⟩

theorem raise (h : Apart c s t) (p : Page) (n b : Nat) : Apart c s (raise p n b t) := by
  refine ⟨(raise_out ..).trans h.out, (raise_cse ..).trans h.cse, fun r hr x z => ?_, fun q e hs => (h.raised q e hs).raise ..⟩
  have hne {r' : Reg} (hr' : r' ∉ edgeFields) : r' ≠ r := (ne_of_mem_of_not_mem hr hr').symm
  exact (raise_rd _ (hne (by decide)) (hne (by decide)) ..).trans (h.rd r hr x z)

theorem ite {p : Prop} [Decidable p] {a b : State} (ha : Apart c s a) (hb : Apart c s b) : Apart c s (if p then a else b) := by
  split
  · exact ha
  · exact hb

theorem each {α : Type} {f : α → State → State} {xs : List α} (hf : ∀ x ∈ xs, ∀ t, Apart c t (f x t)) (s : State) :
    Apart c s (each xs f s) := by
  induction xs generalizing s with
  | nil => exact refl c s
  | cons x xs ih => exact (hf x List.mem_cons_self s).trans (ih (fun y hy => hf y (List.mem_cons_of_mem x hy)) _)

theorem showVolt (h : Apart c s t) (hd : d ≠ c) (v : Nat) : Apart c s (showVolt d v t) :=
  .ite ((h.setOut hd _).raise ..) (h.setOut hd _)

theorem patternBit (h : Apart c s t) (hd : d ≠ c) (id n : Nat) (b : Bool) : Apart c s (patternBit d id n b t) := by
  have hdrop (w : State) (k : Apart c s w) : Apart c s (w.inc .PAT_PAT_DROP_COUNT) := k.wr_other (by decide) (by decide) ..
  exact .ite h (.ite ((h.setOut hd _).setPin ..) (.ite (hdrop _ (h.setOut hd _)) (((hdrop _ (h.setOut hd _)).setOut hd _).raise ..)))

theorem setMarkers (h : Apart c s t) (hd : d ≠ c) (a b : Bool) : Apart c s (setMarkers d a b t) := by
  have h2 := Apart.ite (p := (a && !(t.out d).m0) = true) ((h.setOut hd { t.out d with m0 := a, m1 := b }).present (0x80 + 2 * d))
    (h.setOut hd { t.out d with m0 := a, m1 := b })
  exact .ite (h2.present _) h2

theorem entrySignals (h : Apart c s t) (hd : d ≠ c) (e : SqEntry) : Apart c s (entrySignals d e t) := by
  unfold Machine.entrySignals patternBits
  refine Apart.trans ?_ (.each (fun p _ w => (refl c w).patternBit hd ..) _)
  split
  · exact h.setMarkers hd ..
  · exact h

theorem takeRequests (h : Apart c s t) (hd : d ≠ c) : Apart c s (takeRequests d t) := by
  have hforce : Apart c s (takeForce d t) := by
    unfold takeForce
    split
    · exact h.wr hd ..
    · exact h
  have hlocal := Apart.ite (p := (t.out d).localReq = true) (hforce.wr hd .OUT_STATUS_SENSE_LOCAL 1 0 0) hforce
  refine Apart.setOut (.ite ?_ hlocal) hd _
  exact (hlocal.wr hd .OUT_FAULT_STAT_CORE_LOST 1 0 0).wr hd ..

theorem edgeRequests (h : Apart c s t) (hd : d ≠ c) : Apart c s (edgeRequests d t) :=
  .ite (((h.takeRequests hd).setOut hd _).showVolt hd _) (h.takeRequests hd)

theorem dacTake (h : Apart c s t) (hd : d ≠ c) (v : Nat) : Apart c s (dacTake d v t) := .ite (h.setOut hd _) h

theorem takeLatch (h : Apart c s t) (hd : d ≠ c) (e : SqEntry) : Apart c s (takeLatch d e t) := .ite (h.setOut hd _) h

theorem underrunTick (h : Apart c s t) (hd : d ≠ c) : Apart c s (underrunTick d t) :=
  .ite ((((h.setCse hd _).setOut hd _).wr hd ..).raise ..) (h.setCse hd _)

theorem latchEdge (h : Apart c s t) (hd : d ≠ c) : Apart c s (latchEdge d t) := by
  unfold Machine.latchEdge
  split
  · exact (h.entrySignals hd _).takeLatch hd _
  · exact h

end Apart

/-- The edge of another channel. -/
theorem chanEdge_apart {c d : Nat} (hd : d ≠ c) (s : State) : Apart c s (chanEdge d s) := by
  have hr := (Apart.refl c s).edgeRequests hd
  by_cases hg : (edgeRequests d s).rd .OUT_STATUS_GANG_ACTIVE d = 1
  · have hl := hr.latchEdge hd
    cases hq : ((latchEdge d (edgeRequests d s)).out d).sq with
    | nil => rw [chanEdge_gang_empty hg hq]; exact hl.underrunTick hd
    | cons e es => rw [chanEdge_gang_code hg hq]; exact (hl.setOut hd _).setOut hd _
  · cases hl : ((edgeRequests d s).out d).latch with
    | some e => rw [chanEdge_latched hg hl]; exact ((hr.setOut hd _).entrySignals hd _).dacTake hd _
    | none =>
      cases hq : ((edgeRequests d s).out d).sq with
      | nil => rw [chanEdge_empty hg hl hq]; exact hr.underrunTick hd
      | cons e es => rw [chanEdge_code hg hl hq]; exact (((hr.setOut hd _).setOut hd _).entrySignals hd _).dacTake hd _

/-- In a pass over channels, each once, what happens to one of them is its own step alone. -/
theorem each_apart {f : Nat → State → State} {c : Nat} (hf : ∀ d, d ≠ c → ∀ t, Apart c t (f d t)) {xs : List Nat} (hc : c ∈ xs)
    (hn : xs.Nodup) (s : State) : ∃ u, Apart c s u ∧ Apart c (f c u) (each xs f s) := by
  induction xs generalizing s with
  | nil => cases hc
  | cons d xs ih =>
    obtain ⟨hd, hxs⟩ := List.nodup_cons.mp hn
    by_cases hdc : d = c
    · subst hdc
      exact ⟨s, .refl d s, .each (fun x hx => hf x (ne_of_mem_of_not_mem hx hd)) _⟩
    · obtain ⟨u, hu, hrest⟩ := ih ((List.mem_cons.mp hc).resolve_left (Ne.symm hdc)) hxs (f d s)
      exact ⟨u, (hf d hdc s).trans hu, hrest⟩

theorem chansOf_nodup (q : Nat) : (chansOf q).Nodup := by simp [chansOf, rangeFrom]; omega

/-- A sample edge of quad q is, for each of its channels, that channel's edge. -/
theorem quadEdge_chan {q c : Nat} (hc : c ∈ chansOf q) (s : State) : ∃ u, Apart c s u ∧ Apart c (chanEdge c u) (quadEdge q s) := by
  obtain ⟨u, hu, h⟩ := each_apart (fun d hd => chanEdge_apart hd) hc (chansOf_nodup q) s
  have hlo := h.wr_other (r := .QCLK_SAMPLE_LO_N_LO) (by decide) (by decide) (s.clock q).next q 0 0
  have hhi := hlo.wr_other (r := .QCLK_SAMPLE_HI_N_HI) (by decide) (by decide) ((s.clock q).next / 2 ^ 32) q 0 0
  exact ⟨u, hu, hhi.setClock ..⟩

/-! ### What its own edge does to a channel -/

/-- An output without its markers and pattern bits. -/
def OutChan.quiet (o : OutChan) : OutChan := { o with m0 := false, m1 := false, patBits := [], patSeen := 0 }

@[simp] theorem setMarkers_quiet (c : Nat) (a b : Bool) (s : State) : ((setMarkers c a b s).out c).quiet = (s.out c).quiet := by
  have hset : ((s.setOut c { s.out c with m0 := a, m1 := b }).out c).quiet = (s.out c).quiet := by rw [State.out_setOut]; rfl
  unfold setMarkers
  dsimp only
  split <;> split <;> exact hset

@[simp] theorem patternBit_quiet (c id n : Nat) (b : Bool) (s : State) : ((patternBit c id n b s).out c).quiet = (s.out c).quiet := by
  have hset (w : State) (o : OutChan) : ((w.setOut c o).out c).quiet = o.quiet := by rw [State.out_setOut]
  have hbits := hset s { s.out c with patBits := Store.set false (s.out c).patBits n b }
  unfold patternBit
  dsimp only
  split
  · rfl
  · split
    · exact hbits
    · split
      · exact hbits
      · rw [raise_out, hset]
        exact hbits

/-- The signals of an entry change the markers and pattern bits of their channel alone. -/
theorem entrySignals_quiet (c : Nat) (e : SqEntry) (s : State) : ((entrySignals c e s).out c).quiet = (s.out c).quiet := by
  have hbits (ps : List (Nat × Bool)) (t : State) : ((patternBits c e.patId ps t).out c).quiet = (t.out c).quiet := by
    induction ps generalizing t with
    | nil => rfl
    | cons p ps ih => exact (ih _).trans (patternBit_quiet ..)
  unfold entrySignals
  refine (hbits e.pins _).trans ?_
  split
  · exact setMarkers_quiet ..
  · rfl

/-- So every other part of the output stays. -/
theorem entrySignals_out {α : Type} (f : OutChan → α) (hf : ∀ o : OutChan, f o.quiet = f o) (c : Nat) (e : SqEntry) (s : State) :
    f ((entrySignals c e s).out c) = f (s.out c) := by
  rw [← hf, entrySignals_quiet, hf]

theorem entrySignals_only (c : Nat) (e : SqEntry) (s : State) :
    OnlyChanges (events ++ [.reg .PAT_PAT_DROP_COUNT, .outs, .pins]) s (entrySignals c e s) :=
  (entrySignals_keeps (.refl _ s) (.of_beq (by decide +kernel)) ..).only

theorem edgeRequests_only (c : Nat) (s : State) :
    OnlyChanges (events ++ fields [.OUT_FAULT_STAT_CORE_LOST, .OUT_FAULT_STAT_FORCED, .OUT_STATUS_FALLBACK, .OUT_STATUS_SENSE_LOCAL] ++
      [.outs]) s (edgeRequests c s) :=
  (edgeRequests_keeps (.refl _ s) (.of_beq (by decide +kernel)) ..).only

theorem takeRequests_out (c : Nat) (s : State) :
    (takeRequests c s).out c = { s.out c with forceReq := none, localReq := false, lostReq := false } := State.out_setOut ..

/-- Where no fault value is shown the requests change their own marks alone. -/
theorem edgeRequests_out {c : Nat} {s : State} (h : (s.out c).faulted = false) :
    (edgeRequests c s).out c = { s.out c with forceReq := none, localReq := false, lostReq := false } := by
  rw [edgeRequests_eq, if_neg (by simp [h]), takeRequests_out]

/-- The requests of an edge leave the sample queue and the count of underruns alone. -/
theorem edgeRequests_queue (c : Nat) (s : State) : ((edgeRequests c s).out c).sq = (s.out c).sq ∧
    ((edgeRequests c s).out c).latch = (s.out c).latch ∧ ((edgeRequests c s).out c).underruns = (s.out c).underruns := by
  rw [edgeRequests_eq]
  split
  · rw [showVolt_out, State.out_setOut, takeRequests_out]
    exact ⟨rfl, rfl, rfl⟩
  · rw [takeRequests_out]
    exact ⟨rfl, rfl, rfl⟩

/-- Whether a channel takes codes is decided by its fault and the fields of its page. -/
theorem takesCodes_congr {c : Nat} {s t : State} (ho : (t.out c).faulted = (s.out c).faulted)
    (hr : ∀ r ∈ edgeFields, ∀ x u, t.rd r c x u = s.rd r c x u) : takesCodes t c = takesCodes s c := by
  unfold takesCodes outEnabled anySource
  rw [ho, hr .CTRL_ENABLE (by decide), hr .OUT_STATUS_SPAN_BUSY (by decide), hr .OUT_FAULT_STAT_SQ_UNDERRUN (by decide),
    hr .OUT_FAULT_STAT_REPEAT_FAIL (by decide), hr .OUT_FAULT_STAT_CORE_LOST (by decide), hr .OUT_FAULT_STAT_WATCHDOG (by decide),
    hr .OUT_FAULT_STAT_FORCED (by decide)]

/-- A channel that takes codes shows no fault value. -/
theorem takesCodes_sound {s : State} {c : Nat} (h : takesCodes s c = true) : (s.out c).faulted = false := by
  simp [takesCodes] at h
  exact h.1.1.2

theorem entrySignals_takesCodes (c : Nat) (e : SqEntry) (s : State) : takesCodes (entrySignals c e s) c = takesCodes s c := by
  refine takesCodes_congr (entrySignals_out OutChan.faulted (fun _ => rfl) c e s) (fun r hr x u => ?_)
  exact entrySignals_only c e s (.reg r) (by revert r; decide) c x u

/-- Without a request that changes a fault source the requests leave what a channel takes as it is. -/
theorem edgeRequests_takesCodes {c : Nat} {s : State} (h : (s.out c).faulted = false) (hf : (s.out c).forceReq = none)
    (hl : (s.out c).lostReq = false) : takesCodes (edgeRequests c s) c = takesCodes s c := by
  have hs : takeForce c s = s := by unfold takeForce; rw [hf]
  refine takesCodes_congr (by rw [edgeRequests_out h]) (fun r hr x u => ?_)
  have hne : Reg.OUT_STATUS_SENSE_LOCAL ≠ r := fun e => absurd (e ▸ hr) (by decide)
  rw [edgeRequests_eq, if_neg (by simp [h]), takeRequests]
  simp only [hl, hs, Bool.false_eq_true, if_false, State.setOut_rd]
  split
  · exact State.rd_wr_reg _ hne ..
  · rfl

/-- A DAC register that takes codes takes this one, and only the DAC register changes. -/
theorem dacTake_out {c : Nat} {s : State} (h : takesCodes s c = true) (v : Nat) :
    (dacTake c v s).out c = { s.out c with dac := v } := by
  rw [dacTake, if_pos h, State.out_setOut]

/-- In QUEUE mode a channel that takes codes takes the oldest of its sample queue (R19). -/
theorem chanEdge_takes_oldest {c : Nat} {s : State} {e : SqEntry} (hq : (s.out c).sq.head? = some e)
    (hg : s.rd .OUT_STATUS_GANG_ACTIVE c = 0) (hlatch : (s.out c).latch = none) (hf : (s.out c).forceReq = none)
    (hl : (s.out c).lostReq = false) (ht : takesCodes s c = true) :
    ((chanEdge c s).out c).dac = e.code ∧ ((chanEdge c s).out c).sq = (s.out c).sq.tail ++ (s.out c).inter.take 1 := by
  obtain ⟨es, hes⟩ := List.head?_eq_some_iff.mp hq
  have hsound := takesCodes_sound ht
  have hout := edgeRequests_out hsound
  have hgang : (edgeRequests c s).rd .OUT_STATUS_GANG_ACTIVE c ≠ 1 := by
    rw [edgeRequests_only c s (.reg .OUT_STATUS_GANG_ACTIVE) (by decide), hg]
    decide
  rw [chanEdge_code hgang (by rw [hout]; exact hlatch) (by rw [hout]; exact hes)]
  generalize ho : ({ ((edgeRequests c s).out c).popped es with underruns := 0, rejoin := false } : OutChan) = o
  generalize hw : ((edgeRequests c s).setOut c (((edgeRequests c s).out c).popped es)).setOut c o = w
  have hwo : w.out c = o := by rw [← hw, State.out_setOut]
  have htakes : takesCodes w c = true := by
    rw [← ht, ← edgeRequests_takesCodes hsound hf hl, ← hw]
    refine takesCodes_congr ?_ (fun _ _ _ _ => rfl)
    rw [State.out_setOut, ← ho]
    rfl
  rw [dacTake_out (by rw [entrySignals_takesCodes, htakes])]
  refine ⟨rfl, ?_⟩
  calc ((entrySignals c e w).out c).sq = (w.out c).sq := entrySignals_out OutChan.sq (fun _ => rfl) c e w
    _ = es ++ (s.out c).inter.take 1 := by rw [hwo, ← ho, hout]; rfl
    _ = (s.out c).sq.tail ++ (s.out c).inter.take 1 := by rw [hes, List.tail_cons]

theorem takeLatch_queue (c : Nat) (e : SqEntry) (s : State) : ((takeLatch c e s).out c).sq = (s.out c).sq ∧
    ((takeLatch c e s).out c).inter = (s.out c).inter ∧ ((takeLatch c e s).out c).underruns = (s.out c).underruns := by
  unfold takeLatch
  split
  · rw [State.out_setOut]
    exact ⟨rfl, rfl, rfl⟩
  · exact ⟨rfl, rfl, rfl⟩

/-- The latch of the edge before leaves the sample queue and the count of underruns alone. -/
theorem latchEdge_queue (c : Nat) (s : State) : ((latchEdge c s).out c).sq = (s.out c).sq ∧
    ((latchEdge c s).out c).inter = (s.out c).inter ∧ ((latchEdge c s).out c).underruns = (s.out c).underruns := by
  unfold latchEdge
  cases (s.out c).latch with
  | none => exact ⟨rfl, rfl, rfl⟩
  | some e =>
    obtain ⟨hsq, hinter, hund⟩ := takeLatch_queue c e (entrySignals c e s)
    dsimp only
    rw [hsq, hinter, hund]
    exact ⟨entrySignals_out OutChan.sq (fun _ => rfl) .., entrySignals_out OutChan.inter (fun _ => rfl) ..,
      entrySignals_out OutChan.underruns (fun _ => rfl) ..⟩

/-- A DAC register that does not come back to codes waits for its strobe (R190). -/
theorem latchEdge_dac {c : Nat} {s : State} (h : (s.out c).rejoin = false) : ((latchEdge c s).out c).dac = (s.out c).dac := by
  unfold latchEdge
  cases (s.out c).latch with
  | none => rfl
  | some e =>
    have hrejoin : ((entrySignals c e s).out c).rejoin = false :=
      (entrySignals_out OutChan.rejoin (fun _ => rfl) ..).trans h
    dsimp only
    rw [takeLatch, if_neg (by simp [hrejoin])]
    exact entrySignals_out OutChan.dac (fun _ => rfl) ..

theorem latchEdge_only (c : Nat) (s : State) :
    OnlyChanges (events ++ [.reg .PAT_PAT_DROP_COUNT, .outs, .pins]) s (latchEdge c s) := by
  refine Keeps.only ?_
  unfold latchEdge
  split
  · exact takeLatch_keeps (entrySignals_keeps (.refl _ s) (.of_beq (by decide +kernel)) ..) (.of_beq (by decide +kernel)) ..
  · exact .refl _ s

/-- In a gang the oldest code moves into the input latch, and the DAC register waits for its strobe (R190). -/
theorem chanEdge_latches_oldest {c : Nat} {s : State} {e : SqEntry} (hq : (s.out c).sq.head? = some e)
    (hg : s.rd .OUT_STATUS_GANG_ACTIVE c = 1) (hrejoin : (s.out c).rejoin = false) (hf : (s.out c).faulted = false) :
    ((chanEdge c s).out c).latch = some e ∧ ((chanEdge c s).out c).dac = (s.out c).dac ∧
      ((chanEdge c s).out c).sq = (s.out c).sq.tail ++ (s.out c).inter.take 1 := by
  obtain ⟨es, hes⟩ := List.head?_eq_some_iff.mp hq
  have hout := edgeRequests_out hf
  obtain ⟨hsq, hinter, -⟩ := latchEdge_queue c (edgeRequests c s)
  have hgang : (edgeRequests c s).rd .OUT_STATUS_GANG_ACTIVE c = 1 :=
    (edgeRequests_only c s (.reg .OUT_STATUS_GANG_ACTIVE) (by decide) ..).trans hg
  rw [chanEdge_gang_code hgang (by rw [hsq, hout]; exact hes), State.out_setOut]
  refine ⟨rfl, ?_, ?_⟩
  · calc ((latchEdge c (edgeRequests c s)).out c).dac = ((edgeRequests c s).out c).dac := latchEdge_dac (by rw [hout]; exact hrejoin)
      _ = (s.out c).dac := by rw [hout]
  · show es ++ ((latchEdge c (edgeRequests c s)).out c).inter.take 1 = _
    rw [hinter, hout, hes, List.tail_cons]

/-- From s to t channel c has an underrun tick: it counts, is raised, and the code that belonged to it will be dropped (R19, R194). -/
structure Underran (c : Nat) (s t : State) : Prop where
  consecutive : (t.out c).underruns = (s.out c).underruns + 1
  raised : Raised t .out c 0
  dropped : (t.cse c).dropCodes = (s.cse c).dropCodes + 1
  counted : t.rd .OUT_SQ_UCNT_COUNT c = satAdd Reg.OUT_SQ_UCNT_COUNT.width (s.rd .OUT_SQ_UCNT_COUNT c) 1

/-- The tick may be told from any state with the same counts. -/
theorem Underran.of_counts {c : Nat} {s w t : State} (h : Underran c w t) (hu : (w.out c).underruns = (s.out c).underruns)
    (hc : w.cse c = s.cse c) (hn : w.rd .OUT_SQ_UCNT_COUNT c = s.rd .OUT_SQ_UCNT_COUNT c) : Underran c s t :=
  ⟨h.consecutive.trans (by rw [hu]), h.raised, h.dropped.trans (by rw [hc]), h.counted.trans (by rw [hn])⟩

/-- What other channels do before it and after it is no part of it. -/
theorem Underran.apart {c : Nat} {s u v t : State} (h : Underran c u v) (hu : Apart c s u) (ht : Apart c v t) : Underran c s t where
  consecutive := by rw [ht.out, h.consecutive, hu.out]
  raised := ht.raised _ _ h.raised
  dropped := by rw [ht.cse, h.dropped, hu.cse]
  counted := by rw [ht.rd .OUT_SQ_UCNT_COUNT (by decide), h.counted, hu.rd .OUT_SQ_UCNT_COUNT (by decide)]

/-- A saturating sum fits its width. -/
theorem satAdd_mod (w v d : Nat) : satAdd w v d % 2 ^ w = satAdd w v d := by
  have hpos := Nat.two_pow_pos w
  refine Nat.mod_eq_of_lt ?_
  unfold satAdd
  split <;> omega

theorem underrunTick_counts {c : Nat} {s : State} (h : outEnabled s c = true) : Underran c s (underrunTick c s) := by
  unfold underrunTick
  dsimp only
  rw [if_pos h]
  refine ⟨?_, raise_raw .., ?_, ?_⟩
  · rw [raise_out]
    show ((State.setOut _ c _).out c).underruns = _
    rw [State.out_setOut]
    rfl
  · rw [raise_cse]
    show ((s.setCse c { s.cse c with dropCodes := (s.cse c).dropCodes + 1 }).cse c).dropCodes = _
    rw [State.cse_setCse]
  · rw [raise_rd _ (by decide) (by decide), State.inc, State.rd_wr_same, satAdd_mod]
    rfl

/-- An edge that finds no code for an enabled channel is an underrun tick. -/
theorem chanEdge_underrun {c : Nat} {s : State} (hq : (s.out c).sq = [])
    (hl : s.rd .OUT_STATUS_GANG_ACTIVE c = 1 ∨ (s.out c).latch = none) (he : outEnabled s c = true) :
    Underran c s (chanEdge c s) := by
  obtain ⟨hsq, hlatch, hund⟩ := edgeRequests_queue c s
  have hreq := edgeRequests_only c s
  have hgang : (edgeRequests c s).rd .OUT_STATUS_GANG_ACTIVE c = s.rd .OUT_STATUS_GANG_ACTIVE c :=
    hreq (.reg .OUT_STATUS_GANG_ACTIVE) (by decide) ..
  have hcse : (edgeRequests c s).cse c = s.cse c := congrArg (Store.get _ · c) (hreq .cses (by decide))
  have hen : outEnabled (edgeRequests c s) c = true := by rw [outEnabled, hreq (.reg .CTRL_ENABLE) (by decide)]; exact he
  have hcount := hreq (.reg .OUT_SQ_UCNT_COUNT) (by decide) c 0 0
  by_cases hg : s.rd .OUT_STATUS_GANG_ACTIVE c = 1
  · obtain ⟨hlsq, -, hlund⟩ := latchEdge_queue c (edgeRequests c s)
    have hlat := latchEdge_only c (edgeRequests c s)
    have hlen : outEnabled (latchEdge c (edgeRequests c s)) c = true := by
      rw [outEnabled, hlat (.reg .CTRL_ENABLE) (by decide)]; exact hen
    rw [chanEdge_gang_empty (hgang.trans hg) (hlsq.trans (hsq.trans hq))]
    exact (underrunTick_counts hlen).of_counts (hlund.trans hund)
      ((congrArg (Store.get _ · c) (hlat .cses (by decide))).trans hcse)
      ((hlat (.reg .OUT_SQ_UCNT_COUNT) (by decide) ..).trans hcount)
  · rw [chanEdge_empty (by rw [hgang]; exact hg) (hlatch.trans (hl.resolve_left hg)) (hsq.trans hq)]
    exact (underrunTick_counts hen).of_counts hund hcse hcount

/-! ### A sample edge of a quad -/

section
variable {q c : Nat} {s : State} {e : SqEntry}

/-- A channel in QUEUE mode that takes codes takes the oldest of its sample queue. -/
theorem quadEdge_takes_oldest (hc : c ∈ chansOf q) (hq : (s.out c).sq.head? = some e) (hg : s.rd .OUT_STATUS_GANG_ACTIVE c = 0)
    (hlatch : (s.out c).latch = none) (hf : (s.out c).forceReq = none) (hl : (s.out c).lostReq = false) (ht : takesCodes s c = true) :
    ((quadEdge q s).out c).dac = e.code ∧ ((quadEdge q s).out c).sq = (s.out c).sq.tail ++ (s.out c).inter.take 1 := by
  obtain ⟨u, hu, hafter⟩ := quadEdge_chan hc s
  have htakes : takesCodes u c = true := (takesCodes_congr (by rw [hu.out]) hu.rd).trans ht
  have hgang := (hu.rd .OUT_STATUS_GANG_ACTIVE (by decide) 0 0).trans hg
  rw [← hu.out] at hq hlatch hf hl ⊢
  rw [hafter.out]
  exact chanEdge_takes_oldest hq hgang hlatch hf hl htakes

/-- In a gang the oldest code moves into the input latch. -/
theorem quadEdge_latches_oldest (hc : c ∈ chansOf q) (hq : (s.out c).sq.head? = some e) (hg : s.rd .OUT_STATUS_GANG_ACTIVE c = 1)
    (hrejoin : (s.out c).rejoin = false) (hf : (s.out c).faulted = false) :
    ((quadEdge q s).out c).latch = some e ∧ ((quadEdge q s).out c).dac = (s.out c).dac ∧
      ((quadEdge q s).out c).sq = (s.out c).sq.tail ++ (s.out c).inter.take 1 := by
  obtain ⟨u, hu, hafter⟩ := quadEdge_chan hc s
  have hgang := (hu.rd .OUT_STATUS_GANG_ACTIVE (by decide) 0 0).trans hg
  rw [← hu.out] at hq hrejoin hf ⊢
  rw [hafter.out]
  exact chanEdge_latches_oldest hq hgang hrejoin hf

/-- An enabled channel with an empty sample queue has an underrun tick. -/
theorem quadEdge_underrun (hc : c ∈ chansOf q) (hq : (s.out c).sq = [])
    (hl : s.rd .OUT_STATUS_GANG_ACTIVE c = 1 ∨ (s.out c).latch = none) (he : outEnabled s c = true) :
    Underran c s (quadEdge q s) := by
  obtain ⟨u, hu, hafter⟩ := quadEdge_chan hc s
  have hen : outEnabled u c = true := by rw [outEnabled, hu.rd .CTRL_ENABLE (by decide)]; exact he
  rw [← hu.rd .OUT_STATUS_GANG_ACTIVE (by decide), ← hu.out] at hl
  exact (chanEdge_underrun (by rw [hu.out]; exact hq) hl hen).apart hu hafter

/-- The quad goes on to the next edge index. -/
theorem quadEdge_next (q : Nat) (s : State) : ((quadEdge q s).clock q).next = (s.clock q).next + 1 :=
  congrArg QuadClock.next (State.clock_setClock ..)

end

end Sys2Proof.Machine
end

section
/-! PROOFS. Fault values, enable and reset of an output channel (R207 to R212, R217), and the statement about an output's samples. -/

namespace Sys2Proof.Machine

/-! ### Commands that reach their effect -/

/-- An event whose condition holds on a running device. -/
theorem act_on {s : State} {p : Prop} [Decidable p] (hd : s.dev = .up) (h : p) (f : State → State) : act s (on p f) = .next (f s) := by
  rw [act_up hd, on_pos h]

/-- A register write that R23 lets through. -/
theorem cmd_ok {s : State} {p : Page} {n : Nat} {m : Master} (h : MayWrite s p n m) (o : Nat) (f : State → State) :
    cmd s p n o m f = .next (f (hostWake m.val s)) := by
  rw [cmd, act_up h.1, gate_ok h.2]

/-! ### Outputs under the shared operations -/

@[simp] theorem wake_out (k c : Nat) (s : State) : (wake k s).out c = s.out c := congrArg (Store.get _ · c) (wake_outs s k)
@[simp] theorem hostWake_out (m c : Nat) (s : State) : (hostWake m s).out c = s.out c := congrArg (Store.get _ · c) (hostWake_outs s m)
@[simp] theorem hostWake_clock (m q : Nat) (s : State) : (hostWake m s).clock q = s.clock q :=
  congrArg (Store.get _ · q) (hostWake_clocks s m)

/-- What a cancelled visit changes (R225). -/
def visitParts : List Part := fields [.BURNISH_STATUS_ROTATING, .SPARE_ELEM_TRIM_E, .SPARE_GO_TRIM_GAIN, .SPARE_GO_TRIM_OFFSET,
  .SPARE_LADDER_TRIM_L, .SPARE_STATUS_PHASE, .SPARE_STATUS_VISIT_POS] ++ [.tiers]

theorem disturb_only (c : Nat) (s : State) : OnlyChanges visitParts s (disturb c s) :=
  (disturb_keeps (.refl _ s) (.of_beq (by decide +kernel)) _).only

@[simp] theorem disturb_out (c d : Nat) (s : State) : (disturb c s).out d = s.out d :=
  congrArg (Store.get _ · d) (disturb_only c s .outs (by decide))

@[simp] theorem disturb_rd {r : Reg} (h1 : .BURNISH_STATUS_ROTATING ≠ r) (h2 : .SPARE_ELEM_TRIM_E ≠ r) (h3 : .SPARE_GO_TRIM_GAIN ≠ r)
    (h4 : .SPARE_GO_TRIM_OFFSET ≠ r) (h5 : .SPARE_LADDER_TRIM_L ≠ r) (h6 : .SPARE_STATUS_PHASE ≠ r) (h7 : .SPARE_STATUS_VISIT_POS ≠ r)
    (c : Nat) (s : State) (i x u : Nat) : (disturb c s).rd r i x u = s.rd r i x u :=
  disturb_only c s (.reg r)
    (by simp [visitParts, fields, h1.symm, h2.symm, h3.symm, h4.symm, h5.symm, h6.symm, h7.symm]) i x u

@[simp] theorem refreshFallback_out (c d : Nat) (s : State) : (refreshFallback c s).out d = s.out d := rfl
@[simp] theorem refreshFallback_rd {r : Reg} (h : .OUT_STATUS_FALLBACK ≠ r) (c : Nat) (s : State) (i x u : Nat) :
    (refreshFallback c s).rd r i x u = s.rd r i x u := State.rd_wr_reg _ h ..

/-! ### Fault sources (R208) -/

theorem anySource_underrun {s : State} {c : Nat} (h : s.rd .OUT_FAULT_STAT_SQ_UNDERRUN c = 1) : anySource s c = true := by
  simp [anySource, h]

/-- A write of FORCE in a stopped quad acts at once. -/
theorem writeForce_stopped {c : Nat} {s : State} (h : quadRuns s c = false) (f : Bool) :
    (writeForce c f s).rd .OUT_FAULT_CTL_FORCE c = (if f then 1 else 0) ∧
      (writeForce c f s).rd .OUT_FAULT_STAT_FORCED c = (if f then 1 else 0) := by
  rw [writeForce, if_neg (by simp [h])]
  cases f <;> simp [Reg.width, Reg.info]

/-- In a running one it waits for the next edge. -/
theorem writeForce_running {c : Nat} {s : State} (h : quadRuns s c = true) (f : Bool) :
    (writeForce c f s).rd .OUT_FAULT_CTL_FORCE c = (if f then 1 else 0) ∧ ((writeForce c f s).out c).forceReq = some f ∧
      (writeForce c f s).rd .OUT_FAULT_STAT_FORCED c = s.rd .OUT_FAULT_STAT_FORCED c := by
  rw [writeForce, if_pos h]
  cases f <;> simp [Reg.width, Reg.info]

theorem quadRuns_hostWake (m c : Nat) (s : State) : quadRuns (hostWake m s) c = quadRuns s c := by simp [quadRuns]

/-- A clear ends SQ_UNDERRUN, and WATCHDOG where firmware runs. -/
theorem clearFaults_rd (c : Nat) (s : State) : (clearFaults c s).rd .OUT_FAULT_STAT_SQ_UNDERRUN c = 0 ∧
    (clearFaults c s).rd .OUT_FAULT_STAT_WATCHDOG c = (if s.fwUp then 0 else s.rd .OUT_FAULT_STAT_WATCHDOG c) := by
  unfold clearFaults
  dsimp only
  split <;> simp

/-! ### The fault value (R208 to R212) -/

theorem abandonSpan_rd {r : Reg} (h : .OUT_STATUS_SPAN_BUSY ≠ r) (c : Nat) (s : State) (i x u : Nat) :
    (abandonSpan c s).rd r i x u = s.rd r i x u := State.rd_wr_reg _ h ..

theorem abandonSpan_busy (c : Nat) (s : State) : (abandonSpan c s).rd .OUT_STATUS_SPAN_BUSY c = 0 := State.rd_wr_same ..

/-- A channel that comes to show its fault value shows it on the span in effect, and its span sequence ends. -/
theorem showFault_shows (c : Nat) (s : State) :
    ((showFault c s).out c).dac = voltCode (spanNow s c) (s.rd .OUT_NV_FAULT_VAL c) ∧ ((showFault c s).out c).spanPhase = .none ∧
      (showFault c s).rd .OUT_STATUS_SPAN_BUSY c = 0 := by
  have hphase : ((abandonSpan c s).out c).spanPhase = .none := by simp [abandonSpan]
  simp [showFault, hphase, spanNow, abandonSpan_rd, abandonSpan_busy]

theorem showFault_faulted (c : Nat) (s : State) : ((showFault c s).out c).faulted = (s.out c).faulted := by
  simp [showFault, abandonSpan]

theorem showFault_enable (c : Nat) (s : State) (i x u : Nat) : (showFault c s).rd .CTRL_ENABLE i x u = s.rd .CTRL_ENABLE i x u := by
  simp [showFault, abandonSpan_rd]

theorem slewWake_out (c : Nat) (s : State) : (slewWake c s).out c = { s.out c with
    slewUntil := s.osc + slewTicks (spanNow s c) (s.out c).dac (s.out c).wakeVal,
    dac := voltCode (spanNow s c) (s.out c).wakeVal } := by
  simp [slewWake, spanNow]

/-- The first fault source: the event, and the fault value of an enabled channel; a disabled one at its wake value keeps its code. -/
theorem enterFault_enters (c : Nat) (s : State) : ((enterFault c s).out c).faulted = true ∧ Raised (enterFault c s) .out c 1 ∧
    (outEnabled s c = true → ((enterFault c s).out c).dac = voltCode (spanNow s c) (s.rd .OUT_NV_FAULT_VAL c) ∧
      ((enterFault c s).out c).spanPhase = .none ∧ (enterFault c s).rd .OUT_STATUS_SPAN_BUSY c = 0) ∧
    (outEnabled s c = false → (s.out c).spanPhase = .none → ((enterFault c s).out c).dac = (s.out c).dac) := by
  have hraised : Raised (enterFault c s) .out c 1 := by simp [Raised, enterFault]
  cases he : outEnabled s c with
  | true =>
    obtain ⟨hdac, hphase, hbusy⟩ := showFault_shows c (s.setOut c { s.out c with faulted := true })
    have hfault := showFault_faulted c (s.setOut c { s.out c with faulted := true })
    rw [State.out_setOut] at hfault
    refine ⟨?_, hraised, fun _ => ?_, fun h => absurd h (by decide)⟩
    · simp [enterFault, he, hfault]
    · simp only [enterFault, he, if_true, wake_out, raise_out]
      exact ⟨hdac, hphase, by simpa using hbusy⟩
  | false =>
    refine ⟨?_, hraised, fun h => absurd h (by decide), fun _ hp => ?_⟩
    · simp only [enterFault, he, Bool.false_eq_true, if_false, wake_out, raise_out]
      split
      · rw [State.out_setOut]
      · simp [slewWake_out, abandonSpan]
    · simp [enterFault, he, hp]

theorem startSpan_out (c v : Nat) (s : State) : (startSpan c v s).out c = { s.out c with
    spanPhase := .slew, spanTo := v, safe := s.rd .OUT_NV_SAFE_VAL c, toWake := false, strobed := none } := by
  simp [startSpan]

theorem startSpan_busy (c v : Nat) (s : State) : (startSpan c v s).rd .OUT_STATUS_SPAN_BUSY c = 1 := by
  simp [startSpan, Reg.width, Reg.info]

/-- The last fault source has left: the event, and the start of a span change that waited. -/
theorem exitFault_exits (c : Nat) (s : State) : ((exitFault c s).out c).faulted = false ∧ Raised (exitFault c s) .out c 11 ∧
    ((s.out c).toWake = false → ((exitFault c s).out c).spanPend = none ∧ ∀ v, pendingSpan s c = some v →
      ((exitFault c s).out c).spanPhase = .slew ∧ ((exitFault c s).out c).spanTo = v ∧
        (exitFault c s).rd .OUT_STATUS_SPAN_BUSY c = 1) := by
  cases hw : (s.out c).toWake with
  | true => simp [Raised, exitFault, hw]
  | false =>
    cases hp : pendingSpan s c with
    | none => simp [Raised, exitFault, hw, hp]
    | some v =>
      have hraised : Raised (exitFault c s) .out c 11 := by simp [Raised, exitFault, hw, hp, startSpan]
      refine ⟨?_, hraised, fun _ => ⟨?_, fun w hv => ?_⟩⟩
      · simp [exitFault, hw, hp, startSpan_out]
      · simp [exitFault, hw, hp, startSpan_out]
      · obtain rfl := Option.some.inj hv
        simp [exitFault, hw, hp, startSpan_out, startSpan_busy]

/-! ### The way to the wake value (R217) -/

/-- On the wake span a channel goes to its wake value at once. -/
theorem goWake_here {c : Nat} {s : State} (h : (s.out c).wakeSpan = spanNow s c) :
    ((goWake c s).out c).dac = voltCode (spanNow s c) (s.out c).wakeVal ∧ (goWake c s).rd .OUT_STATUS_SPAN_BUSY c = 0 := by
  simp only [goWake, h, ne_eq, not_true_eq_false, if_false]
  refine ⟨?_, ?_⟩
  · simp [slewWake_out, spanNow]
  · simp [slewWake]

/-- On another span it goes there over a span change. -/
theorem goWake_over {c : Nat} {s : State} (h : (s.out c).wakeSpan ≠ spanNow s c) :
    ((goWake c s).out c).spanPhase = .slew ∧ ((goWake c s).out c).spanTo = (s.out c).wakeSpan ∧
      ((goWake c s).out c).toWake = true ∧ (goWake c s).rd .OUT_STATUS_SPAN_BUSY c = 1 := by
  simp [goWake, h, Reg.width, Reg.info]

/-- A span that waits for a fault to leave goes on waiting; any other is dropped. -/
theorem goWake_pending (c : Nat) (s : State) : ((goWake c s).out c).faulted = (s.out c).faulted ∧
    ((goWake c s).out c).spanPend = (if (s.out c).faulted then (s.out c).spanPend else none) := by
  by_cases h : (s.out c).wakeSpan = spanNow s c
  · simp [goWake, h, slewWake_out]
  · simp [goWake, h]

/-- What the way to the wake value changes. -/
def wakeParts : List Part := events ++ .reg .OUT_STATUS_SPAN_BUSY :: .outs :: visitParts

theorem goWake_only (c : Nat) (s : State) : OnlyChanges wakeParts s (goWake c s) :=
  (goWake_keeps (.refl _ s) (.of_beq (by decide +kernel)) _).only

/-! ### Enable (R211, R217) -/

theorem writeOutEnable_on (c : Nat) (s : State) : (writeOutEnable c true s).rd .CTRL_ENABLE c (Page.code .out) = 1 ∧
    (outEnabled s c = false → (s.out c).faulted = true →
      ((writeOutEnable c true s).out c).dac = voltCode (spanNow s c) (s.rd .OUT_NV_FAULT_VAL c)) := by
  have hen : (s.wr .CTRL_ENABLE 1 c (Page.code .out)).rd .CTRL_ENABLE c (Page.code .out) = 1 := State.rd_wr_same ..
  simp only [writeOutEnable, if_true]
  cases he : outEnabled s c with
  | true => exact ⟨hen, fun h => absurd h (by decide)⟩
  | false =>
    cases hf : (s.out c).faulted with
    | false => exact ⟨hen, fun _ h => absurd h (by decide)⟩
    | true =>
      obtain ⟨hdac, -, -⟩ := showFault_shows c (s.wr .CTRL_ENABLE 1 c (Page.code .out))
      refine ⟨(showFault_enable ..).trans hen, fun _ _ => hdac.trans ?_⟩
      simp [spanNow]

/-- A disabled channel that is at its wake value, or on its way there, stays as it is. -/
theorem writeOutEnable_off_atWake {c : Nat} {s : State} (h : atWake s c = true) :
    writeOutEnable c false s = s.wr .CTRL_ENABLE 0 c (Page.code .out) := by
  simp [writeOutEnable, h]

/-- Any other goes to its wake value. -/
theorem writeOutEnable_off {c : Nat} {s : State} (h : atWake s c = false) :
    writeOutEnable c false s = goWake c (refreshFallback c (s.wr .CTRL_ENABLE 0 c (Page.code .out))) := by
  simp [writeOutEnable, h]

theorem atWake_hostWake (m c : Nat) (s : State) : atWake (hostWake m s) c = atWake s c := by simp [atWake, outEnabled, spanNow]

/-! ### The reset of a channel (R217) -/

/-- ENABLE, the fault sources and FORCE cleared. -/
def clearSources (c : Nat) (s : State) : State :=
  ((((((s.wr .CTRL_ENABLE 0 c (Page.code .out)).wr .OUT_FAULT_STAT_SQ_UNDERRUN 0 c).wr .OUT_FAULT_STAT_REPEAT_FAIL 0 c).wr
    .OUT_FAULT_STAT_CORE_LOST 0 c).wr .OUT_FAULT_STAT_WATCHDOG 0 c).wr .OUT_FAULT_STAT_FORCED 0 c).wr .OUT_FAULT_CTL_FORCE 0 c

/-- The output after a reset, before the record is loaded and the wake value shown. -/
def OutChan.restart (o : OutChan) : OutChan := { o with
  faulted := false, forceReq := none, lostReq := false, rejoin := false, strobed := none, spanPend := none, spanPhase := .none,
  toWake := false, underruns := 0 }

/-- The channel with its sources cleared and its sequences dropped; FAULT_EXIT where it showed a fault value. -/
def quiesce (c : Nat) (s : State) : State :=
  let s2 := (clearSources c s).setOut c (s.out c).restart
  (if (s.out c).faulted then raise .out c 11 (refreshFallback c s2) else s2).wr .OUT_STATUS_SPAN_BUSY 0 c

theorem resetOut_eq (c : Nat) (s : State) : resetOut c s = goWake c (loadRecord c (quiesce c s)) := rfl

theorem quiesce_out (c : Nat) (s : State) : (quiesce c s).out c = (s.out c).restart := by
  unfold quiesce
  dsimp only
  split <;> simp

theorem loadRecord_faulted (c : Nat) (s : State) : ((loadRecord c s).out c).faulted = (s.out c).faulted := by
  unfold loadRecord
  dsimp only
  split <;> simp

/-- What a reset changes beside the sources: the record's working copies, events and the way to the wake value. -/
def resetParts : List Part :=
  fields [.OUT_NVM_STAT_ERR, .OUT_NV_FAULT_VAL, .OUT_NV_SAFE_VAL, .OUT_NV_WAKE_SPAN, .OUT_NV_WAKE_VAL, .OUT_STAGECTL_PREFER,
    .OUT_STATUS_FALLBACK, .OUT_STATUS_HIGHZ, .OUT_STATUS_NVM_BAD] ++ wakeParts

theorem quiesce_keeps (c : Nat) (s : State) : Keeps (mask resetParts) (clearSources c s) (quiesce c s) := by
  have hset : Keeps (mask resetParts) (clearSources c s) ((clearSources c s).setOut c (s.out c).restart) :=
    State.setOut_keeps (.refl _ _) (.of_beq (by decide +kernel)) ..
  exact wr_keeps (.ite (raise_keeps (refreshFallback_keeps hset (.of_beq (by decide +kernel)) _) (.of_beq (by decide +kernel)) ..) hset)
    (.of_beq (by decide +kernel)) ..

theorem resetOut_only (c : Nat) (s : State) : OnlyChanges resetParts (clearSources c s) (resetOut c s) := by
  rw [resetOut_eq]
  exact (goWake_keeps (loadRecord_keeps (quiesce_keeps c s) (.of_beq (by decide +kernel)) _) (.of_beq (by decide +kernel)) _).only

/-- A reset channel is disabled and has no fault source. -/
theorem resetOut_clears (c : Nat) (s : State) :
    (resetOut c s).rd .CTRL_ENABLE c (Page.code .out) = 0 ∧ anySource (resetOut c s) c = false := by
  have hreset := resetOut_only c s
  refine ⟨?_, ?_⟩
  · rw [hreset (.reg .CTRL_ENABLE) (by decide)]
    simp [clearSources]
  · unfold anySource
    rw [hreset (.reg .OUT_FAULT_STAT_SQ_UNDERRUN) (by decide), hreset (.reg .OUT_FAULT_STAT_REPEAT_FAIL) (by decide),
      hreset (.reg .OUT_FAULT_STAT_CORE_LOST) (by decide), hreset (.reg .OUT_FAULT_STAT_WATCHDOG) (by decide),
      hreset (.reg .OUT_FAULT_STAT_FORCED) (by decide)]
    simp [clearSources]

/-- It shows no fault value, and no span change waits. -/
theorem resetOut_out (c : Nat) (s : State) :
    ((resetOut c s).out c).faulted = false ∧ ((resetOut c s).out c).spanPend = none := by
  obtain ⟨hwf, hwp⟩ := goWake_pending c (loadRecord c (quiesce c s))
  have hfault : ((loadRecord c (quiesce c s)).out c).faulted = false := by
    rw [loadRecord_faulted, quiesce_out]
    rfl
  rw [resetOut_eq, hwf, hwp, hfault]
  exact ⟨rfl, rfl⟩

/-- The marks of failed stages stay. -/
theorem resetOut_marks (c : Nat) (s : State) : (resetOut c s).rd .OUT_STAGE_STAT_A_FAILED c = s.rd .OUT_STAGE_STAT_A_FAILED c ∧
    (resetOut c s).rd .OUT_STAGE_STAT_B_FAILED c = s.rd .OUT_STAGE_STAT_B_FAILED c := by
  have hreset := resetOut_only c s
  refine ⟨(hreset (.reg .OUT_STAGE_STAT_A_FAILED) (by decide) ..).trans ?_,
    (hreset (.reg .OUT_STAGE_STAT_B_FAILED) (by decide) ..).trans ?_⟩
  · simp [clearSources]
  · simp [clearSources]

theorem resetOut_commit (c : Nat) (s : State) :
    (resetOut c s).rd .SHADOW_CMD_PENDING c (Page.code .out) = s.rd .SHADOW_CMD_PENDING c (Page.code .out) := by
  refine (resetOut_only c s (.reg .SHADOW_CMD_PENDING) (by decide) ..).trans ?_
  simp [clearSources]

theorem dropCommits_rd (p : Page) (n : Nat) (s : State) (r : Reg) (i x u : Nat) :
    (dropCommits p n s).rd r i x u = (s.wr .SHADOW_CMD_PENDING 0 n p.code).rd r i x u := rfl

/-! ### Commands -/

section
variable {s : State} {m : Master} {c : Chan}

/-- An enabled channel, or a disabled one that is elsewhere, goes to its wake value at a write of ENABLE = 0. -/
theorem outEnableWrite_off (h : MayWrite s .out c.val m) (hw : atWake s c.val = false) :
    ∃ t, exec (.outEnableWrite m c false) s = .next t ∧ t.rd .CTRL_ENABLE c.val (Page.code .out) = 0 ∧
      ((s.out c.val).wakeSpan = spanNow s c.val →
        (t.out c.val).dac = voltCode (spanNow s c.val) (s.out c.val).wakeVal ∧ t.rd .OUT_STATUS_SPAN_BUSY c.val = 0) ∧
      ((s.out c.val).wakeSpan ≠ spanNow s c.val → (t.out c.val).spanPhase = .slew ∧ (t.out c.val).spanTo = (s.out c.val).wakeSpan ∧
        (t.out c.val).toWake = true ∧ t.rd .OUT_STATUS_SPAN_BUSY c.val = 1) := by
  refine ⟨_, cmd_ok h .., ?_⟩
  rw [writeOutEnable_off ((atWake_hostWake ..).trans hw)]
  generalize hu : refreshFallback c.val ((hostWake m.val s).wr .CTRL_ENABLE 0 c.val (Page.code .out)) = u
  have hout : u.out c.val = s.out c.val := by rw [← hu]; simp
  have hspan : spanNow u c.val = spanNow s c.val := by rw [← hu]; simp [spanNow]
  have hen : u.rd .CTRL_ENABLE c.val (Page.code .out) = 0 := by rw [← hu]; simp
  rw [← hout, ← hspan]
  exact ⟨(goWake_only c.val u (.reg .CTRL_ENABLE) (by decide) ..).trans hen, goWake_here, goWake_over⟩

/-- A disabled channel at its wake value, or on its way there, stays where it is. -/
theorem outEnableWrite_off_atWake (h : MayWrite s .out c.val m) (hw : atWake s c.val = true) :
    ∃ t, exec (.outEnableWrite m c false) s = .next t ∧ t.rd .CTRL_ENABLE c.val (Page.code .out) = 0 ∧ t.outs = s.outs := by
  refine ⟨_, cmd_ok h .., ?_⟩
  rw [writeOutEnable_off_atWake ((atWake_hostWake ..).trans hw)]
  exact ⟨State.rd_wr_same .., hostWake_outs ..⟩

theorem outEnableWrite_on (h : MayWrite s .out c.val m) :
    ∃ t, exec (.outEnableWrite m c true) s = .next t ∧ t.rd .CTRL_ENABLE c.val (Page.code .out) = 1 ∧
      (outEnabled s c.val = false → (s.out c.val).faulted = true →
        (t.out c.val).dac = voltCode (spanNow s c.val) (s.rd .OUT_NV_FAULT_VAL c.val)) := by
  obtain ⟨hen, hshow⟩ := writeOutEnable_on c.val (hostWake m.val s)
  refine ⟨_, cmd_ok h .., hen, fun he hf => (hshow ?_ ?_).trans ?_⟩
  · simpa [outEnabled] using he
  · simpa using hf
  · simp [spanNow]

theorem outSoftReset_resets (h : MayWrite s .out c.val m) :
    ∃ t, exec (.outSoftReset m c) s = .next t ∧ t.rd .CTRL_ENABLE c.val (Page.code .out) = 0 ∧ anySource t c.val = false ∧
      (t.out c.val).faulted = false ∧ (t.out c.val).spanPend = none ∧ t.rd .SHADOW_CMD_PENDING c.val (Page.code .out) = 0 ∧
      t.rd .OUT_STAGE_STAT_A_FAILED c.val = s.rd .OUT_STAGE_STAT_A_FAILED c.val ∧
      t.rd .OUT_STAGE_STAT_B_FAILED c.val = s.rd .OUT_STAGE_STAT_B_FAILED c.val := by
  refine ⟨_, cmd_ok h .., ?_⟩
  generalize hu : dropCommits .out c.val (hostWake m.val s) = u
  have hcommit : u.rd .SHADOW_CMD_PENDING c.val (Page.code .out) = 0 := by rw [← hu, dropCommits_rd, State.rd_wr_same, Nat.zero_mod]
  have hmarkA : u.rd .OUT_STAGE_STAT_A_FAILED c.val = s.rd .OUT_STAGE_STAT_A_FAILED c.val := by rw [← hu, dropCommits_rd]; simp
  have hmarkB : u.rd .OUT_STAGE_STAT_B_FAILED c.val = s.rd .OUT_STAGE_STAT_B_FAILED c.val := by rw [← hu, dropCommits_rd]; simp
  obtain ⟨hen, hsource⟩ := resetOut_clears c.val u
  obtain ⟨hfault, hpend⟩ := resetOut_out c.val u
  obtain ⟨hA, hB⟩ := resetOut_marks c.val u
  exact ⟨hen, hsource, hfault, hpend, (resetOut_commit ..).trans hcommit, hA.trans hmarkA, hB.trans hmarkB⟩

end

/-! ### The obligations -/

/-- Settles O29: a sample edge by what it does to one channel, the other commands by their effects. -/
theorem outputSamples : Obligations.OutputSamples := by
  refine ⟨?edge, ?underrunFault, fun s c hd ha hf => ⟨_, act_on hd ⟨ha, hf⟩ _, enterFault_enters c.val s⟩,
    fun s c hd ha hf => ⟨_, act_on hd ⟨ha, hf⟩ _, exitFault_exits c.val s⟩,
    fun s m c f h hr => ⟨_, cmd_ok h .., writeForce_stopped ((quadRuns_hostWake ..).trans hr) f⟩, ?forceRunning, ?clear,
    fun s m c => outEnableWrite_on, fun s m c => outEnableWrite_off, fun s m c => outEnableWrite_off_atWake,
    fun s m c => outSoftReset_resets⟩
  case edge =>
    intro s q hd hrun
    refine ⟨_, act_on hd hrun _, quadEdge_next .., fun c hc e hq hg hl hf hlost ht => quadEdge_takes_oldest hc hq hg hl hf hlost ht,
      fun c hc e hq hg hrejoin hf => quadEdge_latches_oldest hc hq hg hrejoin hf, fun c hc hq hl he => ?_⟩
    obtain ⟨hconsecutive, hraised, hdropped, hcounted⟩ := quadEdge_underrun hc hq hl he
    exact ⟨hconsecutive, hraised, hdropped, hcounted⟩
  case underrunFault =>
    intro s c hd hu
    have hset : ((s.setOut c.val { s.out c.val with underruns := 0 }).wr .OUT_FAULT_STAT_SQ_UNDERRUN 1 c.val).rd
        .OUT_FAULT_STAT_SQ_UNDERRUN c.val = 1 := State.rd_wr_same ..
    exact ⟨_, act_on hd hu _, hset, anySource_underrun hset⟩
  case forceRunning =>
    intro s m c f h hr
    obtain ⟨hctl, hreq, hforced⟩ := writeForce_running ((quadRuns_hostWake m.val ..).trans hr) f
    exact ⟨_, cmd_ok h .., hctl, hreq, hforced.trans (by simp)⟩
  case clear =>
    intro s m c h
    obtain ⟨hund, hdog⟩ := clearFaults_rd c.val (hostWake m.val s)
    exact ⟨_, cmd_ok h .., hund, hdog.trans (by simp)⟩

/-- Settles O1: a step is defined by the front of the queue. -/
theorem stepRunsFrontCommand : Obligations.StepRunsFrontCommand := fun _ _ _ => rfl

end Sys2Proof.Machine
end

section
/-! PROOFS. Operations that lose no event (R242, R416): what has been raised stays raised and what has been presented stays presented,
through the firing of a comparator, a step of the count and the service of the accesses that wait for Quarry. -/

namespace Sys2Proof.Machine

-- One declaration at a time: the memory limit counts the stack of every thread that elaborates one.
set_option Elab.async false

/-! ### States that follow one another without a loss -/

/-- Every event raised in s is raised in t, every producer presented in s is presented in t, and a change of operating point that does
not wait for a comparator is in the same phase in t. -/
structure Onward (s t : State) : Prop where
  raised : ∀ p n b, Raised s p n b → Raised t p n b
  presented : ∀ x ∈ s.presented, x ∈ t.presented
  op : s.qry.op ≠ .waitLc → t.qry.op = s.qry.op

/-- The footprint of everything but the events raised, the producers presented and Quarry's engine. -/
def eventless : Nat := everything ^^^ mask [.reg .EVT_RAW_RAW, .presented, .qry]

namespace Onward

variable {s t u : State}

theorem refl (s : State) : Onward s s := ⟨fun _ _ _ => id, fun _ => id, fun _ => rfl⟩

theorem trans (h : Onward s t) (k : Onward t u) : Onward s u where
  raised p n b hr := k.raised p n b (h.raised p n b hr)
  presented x hx := k.presented x (h.presented x hx)
  op hs := (k.op (by rwa [h.op hs])).trans (h.op hs)

/-- A state with the same events, producers and phase. -/
theorem same (h : Onward s t) (he : ∀ n c b, u.rd .EVT_RAW_RAW n c b = t.rd .EVT_RAW_RAW n c b) (hp : u.presented = t.presented)
    (ho : u.qry.op = t.qry.op) : Onward s u :=
  h.trans ⟨fun p n b hr => (he n p.code b).trans hr, fun _ hx => hp ▸ hx, fun _ => ho⟩

/-- An operation whose footprint has no event and not Quarry's engine. -/
theorem eventless (h : Onward s t) (k : Keeps eventless t u) : Onward s u :=
  h.same (k.same (.reg .EVT_RAW_RAW) (by decide +kernel)) (k.same .presented (by decide +kernel))
    (congrArg Quarry.op (k.same .qry (by decide +kernel)))

theorem wr (h : Onward s t) {r : Reg} {v i x z : Nat} (hr : r ≠ .EVT_RAW_RAW := by decide) : Onward s (t.wr r v i x z) :=
  h.same (fun _ _ _ => State.rd_wr_reg _ hr ..) (State.wr_presented ..) (congrArg Quarry.op (State.wr_qry ..))

theorem ite {p : Prop} [Decidable p] {a b : State} (ha : Onward s a) (hb : Onward s b) : Onward s (if p then a else b) := by
  split
  · exact ha
  · exact hb

theorem each {α : Type} {f : α → State → State} (hf : ∀ x v, Onward v (f x v)) (xs : List α) (h : Onward s t) :
    Onward s (each xs f t) := by
  induction xs generalizing t with
  | nil => exact h
  | cons x xs ih => exact ih (h.trans (hf x t))

theorem raise (h : Onward s t) (p : Page) (n b : Nat) : Onward s (raise p n b t) :=
  h.trans ⟨fun _ _ _ hr => Raised.raise hr ..,
    fun x hx => by simp only [Machine.raise, raiseFor, List.mem_append]; exact .inl hx,
    fun _ => congrArg Quarry.op (raise_qry ..)⟩

theorem raiseHeld (h : Onward s t) (p : Page) (n b : Nat) : Onward s (raiseHeld p n b t) :=
  .ite ((h.raise p n b).same (fun _ _ _ => rfl) rfl rfl) h

theorem recordErr (h : Onward s t) (p : Page) (n c m : Nat) (w : Bool) (o : Nat) : Onward s (recordErr p n c m w o t) :=
  .ite (((h.wr.wr).wr).wr) h.wr

theorem wake (h : Onward s t) (k : Nat) : Onward s (wake k t) :=
  h.same (fun _ _ _ => wake_rd t (by decide) (by decide) (by decide) (by decide) ..) (wake_presented ..) (congrArg Quarry.op (wake_qry ..))

end Onward

/-! ### The firing of a comparator (R45, R46) -/

section
variable {s t : State}

theorem Onward.spareFollows (h : Onward s t) (q : Nat) : Onward s (spareFollows q t) :=
  h.eventless (spareFollows_keeps (.refl _ t) (.of_beq (by decide +kernel)) q)

theorem Onward.restartSamples (h : Onward s t) (q n : Nat) : Onward s (restartSamples q n t) :=
  h.eventless (restartSamples_keeps (.refl _ t) (.of_beq (by decide +kernel)) q n)

theorem Onward.setOrigin (h : Onward s t) (q v : Nat) : Onward s (setOrigin q v t) :=
  (h.wr.wr).wr

theorem Onward.alignQuad (h : Onward s t) (q : Nat) (x : Instant) : Onward s (alignQuad q x t) := by
  have hclock := (h.restartSamples q (t.ifac q)).same (u := (Machine.restartSamples q (t.ifac q) t).setClock q
    { (Machine.restartSamples q (t.ifac q) t).clock q with edge0 := x, next := 0 }) (fun _ _ _ => rfl) rfl rfl
  exact ((((hclock.setOrigin ..).wr).wr).raise ..).spareFollows q

theorem Onward.setLc (h : Onward s t) (i : Nat) (x : Comparator) : Onward s (t.setLc i x) := h.same (fun _ _ _ => rfl) rfl rfl

theorem Onward.setGstb (h : Onward s t) (k : Nat) (x : Gstb) : Onward s (t.setGstb k x) := h.same (fun _ _ _ => rfl) rfl rfl

theorem Onward.alignGstb (h : Onward s t) (k : Nat) (x : Instant) : Onward s (alignGstb k x t) :=
  (h.setGstb ..).wr.wr

theorem Onward.singleTime (h : Onward s t) (k : Nat) (x : Instant) : Onward s (singleTime k x t) :=
  .ite h (h.setGstb ..).wr

theorem Onward.markLate (h : Onward s t) (i : Nat) : Onward s (markLate i t) := h.wr.raise ..

theorem Onward.putTime (h : Onward s t) (i c f : Nat) : Onward s (putTime i c f t) := by
  have hgen : Onward s { t with lcGen := Store.set 0 t.lcGen i (Store.get 0 t.lcGen i + 1) } := h.same (fun _ _ _ => rfl) rfl rfl
  exact .ite ((hgen.setLc ..).wr.markLate i) (hgen.setLc ..).wr

theorem Onward.fireCommits (h : Onward s t) (i : Nat) (x : Instant) (late : Bool) : Onward s (fireCommits i x late t) := by
  refine Onward.same (Onward.each (fun y v => ?_) _ h) (fun _ _ _ => rfl) rfl rfl
  exact (Onward.refl v).eventless (capturePage_keeps (.refl _ v) (.of_beq (by decide +kernel)) ..)

theorem Onward.startCapture (h : Onward s t) (k : Nat) : Onward s (startCapture k t) :=
  h.eventless (startCapture_keeps (.refl _ t) (.of_beq (by decide +kernel)) k)

theorem Onward.afterFire (h : Onward s t) (i : Nat) : Onward s (afterFire i t) := by
  have hdisarm : Onward s ((t.setLc i {}).wr .TBASE_LC_CTRL_ARM 0 0 i) := (h.setLc ..).wr
  unfold Machine.afterFire
  dsimp only
  split
  · exact hdisarm
  · split
    · exact h.putTime ..
    · have hgen : Onward s { t with lcGen := Store.set 0 t.lcGen i (Store.get 0 t.lcGen i + 1) } := h.same (fun _ _ _ => rfl) rfl rfl
      exact .ite (.ite ((hgen.setLc ..).markLate i) (hgen.setLc ..)) hdisarm

/-- What comparator i does beside what becomes of itself (R45, R46). -/
def fireUsers (i : Nat) (s : State) : State :=
  let x := s.lc i
  let t : Instant := if x.late then (s.osc : Rat) else s.launchInstant x.c x.f
  let quads := (upTo 12).filter (fun q => s.rd .QCLK_QCLK_CFG_ALIGN_ARM q == 1 && s.rd .QCLK_QCLK_CFG_ALIGN_LC q == i)
  let strobes := (upTo 4).filter (fun k => s.rd .TBASE_GSTB_CFG_ALIGN_ARM 0 k == 1 && s.rd .TBASE_GSTB_CFG_ALIGN_LC 0 k == i)
  let singles := (upTo 4).filter (fun k => s.rd .TBASE_GSTB_CFG_MODE 0 k == 2 && s.rd .TBASE_GSTB_CFG_SINGLE_LC 0 k == i &&
    (s.gstb k).named)
  let caps := (upTo 4).filter (fun b => (s.tier b).capWait && s.rd .BURNISH_CAP_CTRL_CAP_LC 0 b == i)
  let s1 := each quads (fun q s => alignQuad q t s) (present (0x100 + i) s)
  let s2 := each singles (fun k s => singleTime k t s) (each strobes (fun k s => alignGstb k t s) s1)
  let s3 := each caps startCapture (fireCommits i t x.late s2)
  if s.qry.op = .waitLc ∧ s.qry.opLc = i then { s3 with qry := { s3.qry with op := .drain } } else s3

theorem fire_eq (i : Nat) (s : State) : fire i s = afterFire i (fireUsers i s) := rfl

theorem Onward.present (h : Onward s t) (n : Nat) : Onward s (present n t) :=
  h.trans ⟨fun _ _ _ => id, fun _ hx => List.mem_append_left _ hx, fun _ => rfl⟩

/-- The users of a firing lose nothing that stood once the producer was presented. -/
theorem fireUsers_onward (i : Nat) (s : State) : Onward (Machine.present (0x100 + i) s) (fireUsers i s) := by
  unfold fireUsers
  dsimp only
  generalize (if (s.lc i).late then (s.osc : Rat) else s.launchInstant (s.lc i).c (s.lc i).f) = x
  have hquads : Onward (Machine.present (0x100 + i) s) (Machine.each ((upTo 12).filter (fun q =>
      s.rd .QCLK_QCLK_CFG_ALIGN_ARM q == 1 && s.rd .QCLK_QCLK_CFG_ALIGN_LC q == i)) (fun q s => alignQuad q x s)
      (Machine.present (0x100 + i) s)) := .each (fun q v => (Onward.refl v).alignQuad q x) _ (.refl _)
  have husers := Onward.each (fun k v => (Onward.refl v).startCapture k)
    ((upTo 4).filter (fun b => (s.tier b).capWait && s.rd .BURNISH_CAP_CTRL_CAP_LC 0 b == i)) <| Onward.fireCommits
    (.each (fun k v => (Onward.refl v).singleTime k x) ((upTo 4).filter (fun k => s.rd .TBASE_GSTB_CFG_MODE 0 k == 2 &&
      s.rd .TBASE_GSTB_CFG_SINGLE_LC 0 k == i && (s.gstb k).named))
      (.each (fun k v => (Onward.refl v).alignGstb k x) ((upTo 4).filter (fun k => s.rd .TBASE_GSTB_CFG_ALIGN_ARM 0 k == 1 &&
        s.rd .TBASE_GSTB_CFG_ALIGN_LC 0 k == i)) hquads)) i x (s.lc i).late
  split
  · rename_i hwait
    exact ⟨husers.raised, husers.presented, fun hop => absurd hwait.1 hop⟩
  · exact husers

theorem Onward.fire (h : Onward s t) (i : Nat) : Onward s (fire i t) :=
  (((h.present _).trans (fireUsers_onward i t)).afterFire i)

/-- A due firing presents its producer. -/
theorem fire_presents (i : Nat) (s : State) : 0x100 + i ∈ (Machine.fire i s).presented :=
  ((fireUsers_onward i s).afterFire i).presented _ (List.mem_append_right _ (List.mem_singleton.mpr rfl))

/-- A step of the count loses nothing. -/
theorem Onward.stepCount (h : Onward s t) (v : Nat) : Onward s (stepCount v t) := by
  refine .each (fun k w => (Onward.refl w).wr) _ (.each (fun q w => (Onward.refl w).wr) _
    (.each (fun i w => (((Onward.refl w).setLc ..).markLate i).fire i) _
    (h.same (fun _ _ _ => rfl) rfl rfl)))

end

end Sys2Proof.Machine
end

section
/-! PROOFS. The service of the accesses that waited for Quarry (R25, R282, R314) loses no event and leaves the phase of a change of
operating point alone. -/

namespace Sys2Proof.Machine

-- One declaration at a time: the memory limit counts the stack of every thread that elaborates one.
set_option Elab.async false

section
variable {s t : State}

/-! ### Errors in cells (R289, R292, R306) -/

theorem Onward.inc (h : Onward s t) {r : Reg} {i x z : Nat} (hr : r ≠ .EVT_RAW_RAW := by decide) : Onward s (t.inc r i x z) := h.wr hr

theorem Onward.setQry {x : Quarry} (h : Onward s t) (hx : x.op = t.qry.op) : Onward s { t with qry := x } :=
  h.same (fun _ _ _ => rfl) rfl hx

theorem Onward.setBen {x : Benches} (h : Onward s t) : Onward s { t with ben := x } := h.same (fun _ _ _ => rfl) rfl rfl

theorem Onward.setMissed {l : Store Bool} (h : Onward s t) : Onward s { t with missed := l } := h.same (fun _ _ _ => rfl) rfl rfl

theorem Onward.setRead {l : List Byte} (h : Onward s t) : Onward s { t with readData := l } := h.same (fun _ _ _ => rfl) rfl rfl

theorem Onward.setRank (h : Onward s t) (p v : Nat) : Onward s (setRank p v t) := h.wr

theorem Onward.retireRank (h : Onward s t) (p : Nat) : Onward s (retireRank p t) := by
  refine Onward.raise ?_ ..
  split
  · exact (((h.setRank ..).wr).wr).wr
  · exact .ite ((h.setRank ..).wr) (h.setRank ..)

theorem Onward.targetFails (h : Onward s t) (p : Nat) : Onward s (targetFails p t) := by
  refine Onward.raise ?_ ..
  split
  · exact ((h.setRank ..).wr).setRank ..
  · exact (h.setRank ..).wr

theorem Onward.failRank (h : Onward s t) (p c : Nat) : Onward s (failRank p c t) := by
  unfold Machine.failRank
  split
  · exact .ite h (.ite (h.same (fun _ _ _ => rfl) rfl rfl) (h.retireRank p))
  · exact h.retireRank p
  · exact h.targetFails p
  · exact h

theorem Onward.rollHour (h : Onward s t) : Onward s (rollHour t) := by
  unfold Machine.rollHour
  split
  · exact h.setQry rfl
  · exact h

/-- A corrected word counted in the present hour (R289, R292). -/
def countCorrected (p : Nat) (s : State) : State :=
  let n := Store.get 0 s.qry.ceHour p + 1
  let s1 := raiseHeld .quarry 0 0 (({ s with qry := { s.qry with ceHour := Store.set 0 s.qry.ceHour p n } } : State).inc .QUARRY_ECC_CNT_CE)
  if s.rd .QUARRY_ECC_CFG_CE_THR ≠ 0 ∧ s.rd .QUARRY_ECC_CFG_CE_THR ≤ n then failRank p 2 s1 else s1

theorem corrected_eq (p : Nat) (s : State) : corrected p s = countCorrected p (rollHour s) := rfl

theorem Onward.countCorrected (h : Onward s t) (p : Nat) : Onward s (countCorrected p t) := by
  have hcount := (h.setQry (x := { t.qry with ceHour := Store.set 0 t.qry.ceHour p (Store.get 0 t.qry.ceHour p + 1) }) rfl).inc
    (r := .QUARRY_ECC_CNT_CE) (i := 0) (x := 0) (z := 0) |>.raiseHeld .quarry 0 0
  exact .ite (hcount.failRank ..) hcount

theorem Onward.corrected (h : Onward s t) (p : Nat) : Onward s (corrected p t) := by
  rw [corrected_eq]
  exact h.rollHour.countCorrected p

theorem Onward.putPoison (h : Onward s t) (p v w : Nat) (b : Bool) : Onward s (putPoison p v w b t) :=
  h.same (fun _ _ _ => rfl) rfl rfl

theorem Onward.clearFlaw (h : Onward s t) (p v w : Nat) : Onward s (clearFlaw p v w t) := h.setQry rfl

theorem Onward.recordUe (h : Onward s t) (p v w : Nat) (a : Option Nat) : Onward s (recordUe p v w a t) := by
  have hfree : Onward s (if a.isNone then t.nextFree else t) := .ite (h.same (fun _ _ _ => rfl) rfl rfl) h
  exact ((((((((hfree.putPoison ..).wr).wr).wr).wr).inc).raise
    ..).wake 5)

theorem Onward.uncorrectable (h : Onward s t) (p v w : Nat) (a : Option Nat) : Onward s (uncorrectable p v w a t) := by
  have hrec := (h.setQry (x := { t.qry with ueCount := Store.set 0 t.qry.ueCount p (Store.get 0 t.qry.ueCount p + 1) }) rfl).recordUe
    p v w a
  exact .ite h (.ite hrec (.ite (hrec.failRank ..) (.ite (hrec.failRank ..) hrec)))

theorem Onward.eccWord (h : Onward s t) (p v w : Nat) (a : Option Nat) : Onward s (eccWord p v w a t) := by
  refine .ite h ?_
  split
  · exact h
  · exact .ite h ((h.clearFlaw ..).corrected p)
  · exact h.uncorrectable ..

theorem Onward.benchOffline (h : Onward s t) (b : Nat) : Onward s (benchOffline b t) := h.wr.raise ..

theorem Onward.setBistPhase (h : Onward s t) (v : Nat) : Onward s (setBistPhase v t) := h.wr

theorem Onward.endTest (h : Onward s t) : Onward s (endTest t) := by
  unfold Machine.endTest
  split
  · exact ((h.setBistPhase _).wr).wr
  · exact h.setBen.setBistPhase _
  · exact h

theorem Onward.benchFails (h : Onward s t) (b : Nat) : Onward s (benchFails b t) := by
  have hfail := ((h.wr (r := .BENCH_BENCH_HEALTH_HEALTH) (v := 1) (i := 0) (x := 0) (z := b)).raise .bench 0 2).wake 5
  exact .ite (.ite (h.benchOffline _) h) (.ite h (.ite (hfail.benchOffline b) (.ite hfail.endTest hfail)))

theorem Onward.benchCorrected (h : Onward s t) : Onward s (benchCorrected t) := h.inc.raiseHeld ..

theorem Onward.setPoison (h : Onward s t) (a : Nat) (b : Bool) : Onward s (t.setPoison a b) := h.same (fun _ _ _ => rfl) rfl rfl

theorem Onward.benchUncorrectable (h : Onward s t) (off : Nat) : Onward s (benchUncorrectable off t) := by
  unfold Machine.benchUncorrectable
  dsimp only
  generalize (if inSpare t off then 16 else off / 0x40000) = unit
  have hmark := (h.setBen (x := { t.ben with ueCount := Store.set 0 t.ben.ueCount unit (Store.get 0 t.ben.ueCount unit + 1) })).setPoison
    (benchBase + off) true
  have hrec := ((hmark.wr (r := .BENCH_UE_ADDR_OFFSET) (v := off) (i := 0) (x := 0) (z := 0)).wr (r := .BENCH_UE_ADDR_IN_SPARE)
    (v := if inSpare t off then 1 else 0) (i := 0) (x := 0) (z := 0)).inc (r := .BENCH_ECC_CNT_UE) (i := 0) (x := 0) (z := 0)
  exact .ite h (.ite (((hrec.raise ..).wake 5).benchFails _) ((hrec.raise ..).wake 5))

theorem Onward.benchWord (h : Onward s t) (off : Nat) : Onward s (benchWord off t) := by
  unfold Machine.benchWord
  split
  · exact h
  · exact .ite h (.ite h.setBen.benchCorrected (h.setBen.benchUncorrectable _))

theorem Onward.eccAt (h : Onward s t) (a : Nat) : Onward s (eccAt a t) := .ite h (h.eccWord ..)

theorem Onward.eccRead (h : Onward s t) (a n : Nat) : Onward s (eccRead a n t) :=
  .ite h (.ite (.ite h (.each (fun _ v => (Onward.refl v).benchWord _) _ h)) (.ite h (.each (fun _ v => (Onward.refl v).eccAt _) _ h)))

/-! ### Words written and read (R278, R307, R318) -/

theorem Onward.initRow (h : Onward s t) (p row : Nat) : Onward s (initRow p row t) := .ite h (h.same (fun _ _ _ => rfl) rfl rfl)

theorem Onward.storeEcc (h : Onward s t) (a : Nat) : Onward s (storeEcc a t) :=
  .each (fun _ v => (((Onward.refl v).initRow ..).putPoison ..).clearFlaw ..) _ h

theorem Onward.setBytes (h : Onward s t) (a : Nat) (bs : List Byte) : Onward s (t.setBytes a bs) :=
  h.eventless (State.setBytes_keeps (.refl _ t) (.of_beq (by decide +kernel)) ..)

theorem Onward.writeWord (h : Onward s t) (m a : Nat) (bs : List Byte) : Onward s (writeWord m a bs t) := by
  have hread : Onward s (if decide (bs.length < wordSize (poisonWord a)) then Machine.eccRead a bs.length t else t) :=
    .ite (h.eccRead ..) h
  exact .ite (hread.recordErr ..) (.ite ((hread.setBytes a bs).same (fun _ _ _ => rfl) rfl rfl) ((hread.storeEcc a).setBytes a bs))

theorem Onward.writeWords (m fuel : Nat) (h : Onward s t) (a : Nat) (bs : List Byte) : Onward s (writeWords m fuel a bs t) := by
  induction fuel generalizing t a bs with
  | zero => exact h
  | succ fuel ih =>
    unfold Machine.writeWords
    split
    · exact h
    · exact ih (h.writeWord ..) ..

theorem Onward.touchBench (h : Onward s t) (a n : Nat) : Onward s (touchBench a n t) :=
  h.eventless (touchBench_keeps (.refl _ t) (.of_beq (by decide +kernel)) a n)

theorem Onward.storeMem (h : Onward s t) (m a : Nat) (bs : List Byte) : Onward s (storeMem m a bs t) :=
  .ite (h.recordErr ..) ((h.touchBench ..).writeWords ..)

theorem Onward.loadMem (h : Onward s t) (m a n : Nat) : Onward s (loadMem t m a n).2 := by
  unfold Machine.loadMem
  split
  · exact h.recordErr ..
  · exact (h.touchBench ..).eccRead ..

/-! ### Bench accesses (R309 to R316) -/

theorem Onward.aliasWrite (h : Onward s t) (x : BenchAccess) : Onward s (aliasWrite x t) := by
  have hread := h.eccRead ((benchBase + x.off) / 4 * 4) 4
  refine .ite (hread.wr.recordErr ..) ((.wr (.wr (.wr ?_))))
  exact (hread.setBytes ..).same (fun _ _ _ => rfl) rfl rfl

theorem Onward.collision (h : Onward s t) (m off : Nat) (lost : List Nat) : Onward s (collision m off lost t) := by
  have hraise := (h.wr (r := .BENCH_COLL_STAT_STREAMER) (v := 1) (i := 0) (x := 0) (z := m - 20)).inc (r := .BENCH_COLL_CNT_COUNT)
    (i := 0) (x := 0) (z := 0) |>.raise .bench 0 6
  unfold Machine.collision
  split
  · exact h
  · exact hraise.setMissed

theorem Onward.markedWrite (h : Onward s t) (x : BenchAccess) : Onward s (markedWrite x t) := by
  have hwrite := h.writeWords x.master x.len (benchBase + x.off) x.data
  exact .ite (.each (fun b v => .ite (.refl v) ((Onward.refl v).setPoison b true)) _ hwrite) hwrite

theorem Onward.collide (h : Onward s t) (x y : BenchAccess) : Onward s (collide x y t) := by
  have hx := h.markedWrite x
  unfold Machine.collide
  dsimp only
  refine .ite ?_ (Onward.collision ?_ ..)
  all_goals
    exact .ite (.ite (hx.markedWrite y) (hx.aliasWrite y))
      ((((hx.markedWrite _).wr).wr).wr)

theorem Onward.benchWrite (h : Onward s t) (x : BenchAccess) : Onward s (benchWrite x t) := by
  unfold Machine.benchWrite
  split
  · exact .ite (h.collide ..) (h.markedWrite x)
  · exact h.markedWrite x

theorem Onward.serveAccess (h : Onward s t) (x : BenchAccess) : Onward s (serveAccess x t) := by
  have htouch := h.touchBench (benchBase + x.off) x.len
  exact .ite (htouch.eccRead ..).setRead (.ite (htouch.benchWrite x) (htouch.aliasWrite x))

theorem Onward.refuseAccess (h : Onward s t) (x : BenchAccess) : Onward s (refuseAccess x t) :=
  .ite (h.recordErr ..).setRead (h.recordErr ..)

theorem Onward.benchArrive (h : Onward s t) (x : BenchAccess) : Onward s (benchArrive x t) :=
  .ite (h.refuseAccess x) (.ite h.setBen (h.serveAccess x))

/-! ### Accesses that waited (R25, R281, R314) -/

theorem Onward.busStore (h : Onward s t) (m a : Nat) (bs : List Byte) : Onward s (busStore m a bs t).2 := by
  unfold Machine.busStore
  dsimp only
  split
  · exact h
  · split
    · exact h.storeMem ..
    · exact h.serveAccess _

theorem Onward.busLoad (h : Onward s t) (m a n : Nat) : Onward s (busLoad m a n t).2.2 := by
  unfold Machine.busLoad
  split
  · exact h
  · exact h.loadMem ..

theorem Onward.drawPool (h : Onward s t) (m : Nat) : Onward s (drawPool m t) := .ite (h.same (fun _ _ _ => rfl) rfl rfl) h

theorem Onward.busServe (h : Onward s t) (x : BusWait) : Onward s (busServe x t) := by
  unfold Machine.busServe
  split
  · exact h.busStore ..
  · have hload := h.busLoad x.master x.addr x.len
    dsimp only
    split
    · exact (hload.recordErr ..).setRead.drawPool _
    · exact hload.setRead.drawPool _

theorem Onward.refreshPort (h : Onward s t) (p : Nat) : Onward s (refreshPort p t) := h.wr.wr

theorem Onward.countAge (h : Onward s t) (p n : Nat) : Onward s (countAge p n t) :=
  .ite ((h.wr.inc).raiseHeld ..) h.wr

theorem Onward.serveWaiting (h : Onward s t) (x : BusWait) : Onward s (serveWaiting x t) :=
  .ite (((h.busServe x).countAge ..).refreshPort _) (h.busServe x)

/-- Quarry serves again: no event is lost. -/
theorem Onward.releaseWaiting (h : Onward s t) : Onward s (releaseWaiting t) := by
  have hserve := Onward.each (fun x v => (Onward.refl v).serveWaiting x) t.qry.waiting (h.setQry (x := { t.qry with waiting := [] }) rfl)
  exact .each (fun x v => (Onward.refl v).benchArrive x) _ hserve.setBen

end

end Sys2Proof.Machine
end

section
/-! PROOFS. The reference and the loads of the count (R34 to R43), and the statements about them. -/

namespace Sys2Proof.Machine

-- One declaration at a time: the memory limit counts the stack of every thread that elaborates one.
set_option Elab.async false

/-! ### A step of the count (R43) -/

/-- What the firing of a comparator marked late changes. -/
def firing : List Part := quadAligns ++ visitEnds ++ fields [.BURNISH_CAP_DONE_COUNT, .BURNISH_STATUS_CAPTURING, .TBASE_GSTB_CFG_ALIGNED,
  .TBASE_GSTB_CFG_ALIGN_ARM, .TBASE_GSTB_STAT_PENDING, .TBASE_LC_CTRL_ARM, .TBASE_LC_LATE] ++ [.cap, .commits, .lcs, .lcGen, .gstbs, .qry]

theorem stepCount_only (v : Nat) (s : State) : OnlyChanges firing { s with now := v } (stepCount v s) := by
  have hfire (i : Nat) (t : State) (h : Keeps (mask firing) { s with now := v } t) :
      Keeps (mask firing) { s with now := v } (fire i (markLate i (t.setLc i { t.lc i with late := true }))) :=
    fire_keeps (markLate_keeps (State.setLc_keeps h (.of_beq (by decide +kernel)) ..) (.of_beq (by decide +kernel)) i)
      (.of_beq (by decide +kernel)) i
  exact (each_keeps (fun k t h => wr_keeps h (.of_beq (by decide +kernel)) ..)
    (each_keeps (fun q t h => wr_keeps h (.of_beq (by decide +kernel)) ..) (each_keeps hfire (.refl _ _)))).only

/-- What one element's step brings about and every other step keeps holds after a pass. -/
theorem each_reaches {α : Type} {P : State → Prop} {f : α → State → State} {x : α} (hown : ∀ t, P (f x t)) (hkeep : ∀ y t, P t → P (f y t))
    {xs : List α} (hx : x ∈ xs) (s : State) : P (each xs f s) := by
  have hpass (ys : List α) (t : State) (ht : P t) : P (each ys f t) := by
    induction ys generalizing t with
    | nil => exact ht
    | cons y ys ih => exact ih _ (hkeep y t ht)
  induction xs generalizing s with
  | nil => cases hx
  | cons y ys ih =>
    rcases List.mem_cons.mp hx with rfl | hx
    · exact hpass ys _ (hown s)
    · exact ih hx _

/-- A cleared field stays cleared while others are cleared. -/
theorem rd_wr_zero {s : State} {r' : Reg} {i' x' u' : Nat} (h : s.rd r' i' x' u' = 0) (r : Reg) (i x u : Nat) :
    (s.wr r 0 i x u).rd r' i' x' u' = 0 := by
  by_cases hr : r = r'
  · subst hr
    rw [State.rd_wr]
    split
    · exact Nat.zero_mod _
    · exact h
  · exact (State.rd_wr_reg _ hr ..).trans h

theorem stepCount_alignments {q : Nat} (hq : q < 12) (v : Nat) (s : State) : (stepCount v s).rd .QCLK_QCLK_STATUS_ALIGNED q = 0 := by
  unfold stepCount
  dsimp only
  rw [show ∀ t, (each (upTo 4) (fun k s => s.wr .TBASE_GSTB_CFG_ALIGNED 0 0 k) t).rd .QCLK_QCLK_STATUS_ALIGNED q =
      t.rd .QCLK_QCLK_STATUS_ALIGNED q from fun t => (each_keeps (m := mask (fields [.TBASE_GSTB_CFG_ALIGNED]))
    (fun k t h => wr_keeps h (.of_beq (by decide +kernel)) ..) (.refl _ t)).only (.reg .QCLK_QCLK_STATUS_ALIGNED) (by decide) ..]
  exact each_reaches (P := fun t => t.rd .QCLK_QCLK_STATUS_ALIGNED q = 0) (x := q) (fun t => by simp) (fun k t h => rd_wr_zero h ..)
    (mem_rangeFrom.mpr ⟨Nat.zero_le q, by omega⟩) _

/-! ### A load of the count (R39, R42) -/

theorem Onward.loadEpoch {s t : State} (h : Onward s t) (v : Nat) : Onward s (loadEpoch v t) :=
  .ite (h.wr.raise ..) (.ite (h.wr.wr.raise ..) ((h.wr.wr.raise ..).stepCount v))

/-- The count is loaded: valid or not before, with leave to step or without need of it. -/
theorem loadEpoch_loads {s : State} {v : Nat} (h : s.rd .TBASE_TB_STATUS_EPOCH_VALID = 0 ∨ s.rd .TBASE_TB_CFG_STEP_ALLOW = 1) :
    (loadEpoch v s).now = v ∧ (loadEpoch v s).rd .TBASE_TB_STATUS_EPOCH_VALID = 1 ∧
      (loadEpoch v s).rd .TBASE_TB_STATUS_EPOCH_ARMED = 0 ∧ Raised (loadEpoch v s) .tbase 0 4 ∧
      (v ≠ s.now → ∀ q : Nat, q < 12 → (loadEpoch v s).rd .QCLK_QCLK_STATUS_ALIGNED q = 0) := by
  have hmay : ¬(v ≠ s.now ∧ s.rd .TBASE_TB_STATUS_EPOCH_VALID = 1 ∧ s.rd .TBASE_TB_CFG_STEP_ALLOW = 0) := by omega
  rw [loadEpoch, if_neg hmay]
  generalize hu : raise .tbase 0 4 ((s.wr .TBASE_TB_STATUS_EPOCH_ARMED 0).wr .TBASE_TB_STATUS_EPOCH_VALID 1) = u
  have hvalid : u.rd .TBASE_TB_STATUS_EPOCH_VALID = 1 := by rw [← hu]; simp [Reg.width, Reg.info]
  have harmed : u.rd .TBASE_TB_STATUS_EPOCH_ARMED = 0 := by rw [← hu]; simp
  have hraised : Raised u .tbase 0 4 := by rw [← hu]; exact raise_raw ..
  split
  · rename_i hv
    refine ⟨?_, hvalid, harmed, hraised, fun h => absurd hv h⟩
    rw [← hu]
    simp [hv]
  · have hstep := stepCount_only v u
    exact ⟨hstep .now (by decide), (hstep (.reg .TBASE_TB_STATUS_EPOCH_VALID) (by decide) ..).trans hvalid,
      (hstep (.reg .TBASE_TB_STATUS_EPOCH_ARMED) (by decide) ..).trans harmed, ((Onward.refl u).stepCount v).raised _ _ _ hraised,
      fun _ q hq => stepCount_alignments hq v u⟩

/-- A load that would step a valid count without leave is given up. -/
theorem loadEpoch_mismatch {s : State} {v : Nat} (hv : v ≠ s.now) (hvalid : s.rd .TBASE_TB_STATUS_EPOCH_VALID = 1)
    (hstep : s.rd .TBASE_TB_CFG_STEP_ALLOW = 0) : loadEpoch v s = raise .tbase 0 5 (s.wr .TBASE_TB_STATUS_EPOCH_ARMED 0) := by
  rw [loadEpoch, if_pos ⟨hv, hvalid, hstep⟩]

theorem sinceArm_eq {s : State} {n : Nat} (h : s.epoch.armedAt + 40 + n ≤ s.osc) :
    sinceArm s = some (s.osc - (s.epoch.armedAt + 40)) := if_pos (by omega)

/-- The ticks since the instant of an armed host or PPS load (R38). -/
theorem loadAge_eq {s : State} {age n : Nat} (harm : s.rd .TBASE_TB_STATUS_EPOCH_ARMED = 1) (hsrc : s.rd .TBASE_TB_CFG_EPOCH_SRC ≠ 1)
    (h : (s.rd .TBASE_TB_CFG_REF_MODE = 0 ∧ s.epoch.armedAt + 40 + n = s.osc) ∨ (s.rd .TBASE_TB_CFG_REF_MODE ≠ 0 ∧
      s.rd .TBASE_TB_STATUS_REF_PRESENT = 1 ∧ n = age ∧ (s.rd .TBASE_TB_CFG_EPOCH_SRC = 2 ∨ s.epoch.armedAt + 40 + n ≤ s.osc))) :
    loadAge age s = some n := by
  rw [loadAge, if_neg (by omega)]
  rcases h with ⟨hmode, hosc⟩ | ⟨hmode, hpresent, rfl, hage⟩
  · rw [if_pos hmode, sinceArm_eq (n := n) (by omega)]
    congr 1
    omega
  · rw [if_neg hmode, if_neg (by omega)]
    split
    · rfl
    · rename_i hpps
      have hosc := hage.resolve_left hpps
      rw [sinceArm_eq hosc]
      exact if_pos (by omega)

theorem epochLoad_due {s : State} {age : BitVec 8} {n : Nat} (hd : s.dev = .up) (h : loadAge age.toNat s = some n) :
    execEpochLoad age s = .next (loadEpoch ((hostEpoch s + n) % 2 ^ 64) s) := by
  rw [execEpochLoad, act_up hd, h]

theorem epochLoad_early {s : State} {age : BitVec 8} (h : loadAge age.toNat s = none) : execEpochLoad age s = .next s :=
  act_same (by rw [h])

/-! ### The reference (R34 to R37) -/

theorem enterHoldover_holds (s : State) : (enterHoldover s).rd .TBASE_TB_STATUS_HOLDOVER = 1 ∧
    (enterHoldover s).rd .TBASE_TB_STATUS_REF_PRESENT = 0 ∧ (enterHoldover s).rd .TBASE_TB_STATUS_PLL_LOCKED = 0 ∧
    Raised (enterHoldover s) .tbase 0 1 := by
  refine ⟨?_, ?_, ?_, raise_raw ..⟩
  all_goals simp [enterHoldover, Reg.width, Reg.info]

theorem checkArmedSource_only (m : Nat) (s : State) : OnlyChanges (errors ++ fields [.TBASE_TB_STATUS_EPOCH_ARMED]) s
    (checkArmedSource m s) := (checkArmedSource_keeps (.refl _ s) (.of_beq (by decide +kernel)) m).only

theorem refArrives_present (s : State) : (refArrives s).rd .TBASE_TB_STATUS_REF_PRESENT = 1 ∧ Raised (refArrives s) .tbase 0 2 :=
  ⟨by simp [refArrives, Reg.width, Reg.info], raise_raw ..⟩

/-- What a write of a new REF_MODE leaves (R34, R36). -/
structure HoldsOver (t : State) (v : Nat) : Prop where
  mode : t.rd .TBASE_TB_CFG_REF_MODE = v
  holdover : t.rd .TBASE_TB_STATUS_HOLDOVER = 1
  unlocked : t.rd .TBASE_TB_STATUS_PLL_LOCKED = 0
  lost : Raised t .tbase 0 1

theorem HoldsOver.refArrives {t : State} {v : Nat} (h : HoldsOver t v) : HoldsOver (refArrives t) v := by
  refine ⟨?_, ?_, ?_, Raised.raise ((State.rd_wr_reg _ (by decide) ..).trans h.lost) ..⟩
  · simpa [Machine.refArrives] using h.mode
  · simpa [Machine.refArrives] using h.holdover
  · simpa [Machine.refArrives] using h.unlocked

theorem modeChange_holds {v : Nat} (hv : v < 4) (m : Nat) (s : State) :
    HoldsOver (checkArmedSource m (enterHoldover (s.wr .TBASE_TB_CFG_REF_MODE v))) v ∧
      (checkArmedSource m (enterHoldover (s.wr .TBASE_TB_CFG_REF_MODE v))).rd .TBASE_TB_STATUS_REF_PRESENT = 0 := by
  have hcheck := checkArmedSource_only m (enterHoldover (s.wr .TBASE_TB_CFG_REF_MODE v))
  obtain ⟨hhold, hpresent, hlocked, hlost⟩ := enterHoldover_holds (s.wr .TBASE_TB_CFG_REF_MODE v)
  refine ⟨⟨(hcheck (.reg .TBASE_TB_CFG_REF_MODE) (by decide) ..).trans ?_,
    (hcheck (.reg .TBASE_TB_STATUS_HOLDOVER) (by decide) ..).trans hhold,
    (hcheck (.reg .TBASE_TB_STATUS_PLL_LOCKED) (by decide) ..).trans hlocked,
    (hcheck (.reg .EVT_RAW_RAW) (by decide) ..).trans hlost⟩, (hcheck (.reg .TBASE_TB_STATUS_REF_PRESENT) (by decide) ..).trans hpresent⟩
  simp [enterHoldover, Reg.width, Reg.info]
  omega

/-- A load leaves the reference as it is. -/
theorem loadEpoch_reference (s : State) {v : Nat} (hv : v < 2 ^ 64) :
    (loadEpoch v s).rd .TBASE_TB_STATUS_REF_PRESENT = s.rd .TBASE_TB_STATUS_REF_PRESENT ∧
      (loadEpoch v s).rd .TBASE_TB_STATUS_PHASE_ERR = s.rd .TBASE_TB_STATUS_PHASE_ERR := by
  have hload : OnlyChanges (fields [.TBASE_TB_STATUS_EPOCH_ARMED, .TBASE_TB_STATUS_EPOCH_VALID] ++ .now :: firing) s (loadEpoch v s) :=
    (loadEpoch_keeps (.refl _ s) (.of_beq (by decide +kernel)) v hv).only
  exact ⟨hload (.reg .TBASE_TB_STATUS_REF_PRESENT) (by decide) .., hload (.reg .TBASE_TB_STATUS_PHASE_ERR) (by decide) ..⟩

/-- The returned reference with the phase error measured (R37). -/
structure Returned (t : State) (e : Nat) : Prop where
  present : t.rd .TBASE_TB_STATUS_REF_PRESENT = 1
  phase : t.rd .TBASE_TB_STATUS_PHASE_ERR = e
  raised : Raised t .tbase 0 2

theorem Returned.setEpoch {t : State} {e : Nat} {x : EpochLoad} (h : Returned t e) : Returned { t with epoch := x } e :=
  ⟨h.present, h.phase, h.raised⟩

theorem Returned.loadEpoch {s : State} {e : Nat} (h : Returned s e) (v : Nat) : Returned (loadEpoch (v % 2 ^ 64) s) e := by
  obtain ⟨hpresent, hphase⟩ := loadEpoch_reference s (Nat.mod_lt v (Nat.two_pow_pos 64))
  exact ⟨hpresent.trans h.present, hphase.trans h.phase, ((Onward.refl s).loadEpoch _).raised _ _ _ h.raised⟩

theorem refArrives_returned (s : State) {e : Nat} (he : e < 2 ^ 16) : Returned (refArrives (s.wr .TBASE_TB_STATUS_PHASE_ERR e)) e := by
  obtain ⟨hpresent, hraised⟩ := refArrives_present (s.wr .TBASE_TB_STATUS_PHASE_ERR e)
  refine ⟨hpresent, ?_, hraised⟩
  simp [refArrives, Reg.width, Reg.info]
  omega

theorem refReturn_returns {s : State} (e : BitVec 16) (hd : s.dev = .up) (h : s.rd .TBASE_TB_STATUS_REF_PRESENT = 0) :
    ∃ t, execRefReturn e s = .next t ∧ Returned t e.toNat := by
  have hreturned := refArrives_returned s e.isLt
  unfold execRefReturn
  rw [act_on hd h]
  refine ⟨_, rfl, ?_⟩
  split
  · split
    · exact hreturned.setEpoch.loadEpoch _
    · exact hreturned
  · exact hreturned

/-! ### The obligations -/

/-- Settles O11: a new mode and a lost reference enter holdover, and what a waiting load does at a return leaves the reference alone. -/
theorem referenceCommands : Obligations.ReferenceCommands := by
  unfold Obligations.ReferenceCommands
  refine ⟨?mode, ?same, ?resync, ?lost, ?returned, ?relocked, ?slewed, ?unlocked⟩
  case mode =>
    intro s m v h h3 hnew
    have hnew' : ¬(v.val % 4 = 3 ∨ v.val % 4 = (hostWake m.val s).rd .TBASE_TB_CFG_REF_MODE) := by
      simp only [hostWake_rd, ne_eq, reduceCtorEq, not_false_eq_true]
      omega
    obtain ⟨hhold, hpresent⟩ := modeChange_holds v.isLt m.val (hostWake m.val s)
    refine ⟨_, cmd_ok h .., ?_⟩
    rw [writeRefMode, if_neg hnew']
    dsimp only
    split
    · rename_i h0
      obtain ⟨hback, hraised⟩ := refArrives_present (checkArmedSource m.val (enterHoldover ((hostWake m.val s).wr
        .TBASE_TB_CFG_REF_MODE v.val)))
      exact ⟨hhold.refArrives.mode, hhold.refArrives.holdover, hhold.refArrives.unlocked, hhold.refArrives.lost,
        fun hv => absurd (by omega) hv, fun _ => ⟨hback, hraised⟩⟩
    · exact ⟨hhold.mode, hhold.holdover, hhold.unlocked, hhold.lost, fun _ => hpresent, fun hv => absurd (by omega) ‹¬v.val % 4 = 0›⟩
  case same =>
    intro s m v h hv
    refine (cmd_ok h ..).trans (congrArg _ (if_pos ?_))
    simp only [hostWake_rd, ne_eq, reduceCtorEq, not_false_eq_true]
    omega
  case resync => exact fun s m h => ⟨_, cmd_ok h .., State.rd_wr_same ..⟩
  case lost =>
    intro s hd hmode hpresent
    obtain ⟨hhold, habsent, hlocked, hraised⟩ := enterHoldover_holds s
    exact ⟨_, act_on hd ⟨hmode, hpresent⟩ _, hhold, habsent, hlocked, hraised⟩
  case returned =>
    intro s e hd h
    obtain ⟨t, ht, hreturned⟩ := refReturn_returns e hd h
    exact ⟨t, ht, hreturned.present, hreturned.phase, hreturned.raised⟩
  case relocked =>
    intro s hd hunlocked hpresent hhold
    refine ⟨_, act_on hd ⟨hunlocked, hpresent, hhold⟩ _, ?_⟩
    simp [Reg.width, Reg.info]
  case slewed =>
    intro s hd h
    refine ⟨_, act_on hd h _, ?_, ?_, raise_raw ..⟩
    · simp
    · simp
  case unlocked =>
    intro s hd hlocked hpresent
    refine ⟨_, act_on hd ⟨hlocked, hpresent⟩ _, ?_, raise_raw ..⟩
    simp

/-- Settles O12: the instant of a load in every mode, and its two outcomes. -/
theorem epochLoads : Obligations.EpochLoads := by
  unfold Obligations.EpochLoads
  refine ⟨?armed, ?refused, ?cancelled, ?loads, ?mismatch, ?early⟩
  case armed =>
    intro s m h hok
    refine ⟨_, cmd_ok h .., ?_⟩
    rw [epochArm, if_pos (by simpa using hok)]
    exact State.rd_wr_same (hostWake m.val s) .TBASE_TB_STATUS_EPOCH_ARMED 1 0 0 0
  case refused =>
    intro s m h hok
    refine ⟨_, cmd_ok h .., ?_⟩
    rw [epochArm, if_neg (by simpa using hok)]
    refine ⟨?_, recorded_recordErr (hostWake_errors m.val) (by decide) m.isLt ..⟩
    simp [actionErr]
  case cancelled => exact fun s m h => ⟨_, cmd_ok h .., State.rd_wr_same ..⟩
  case loads =>
    intro s age n hd harm hsrc hage hmay
    exact ⟨_, epochLoad_due hd (loadAge_eq harm hsrc hage), loadEpoch_loads hmay⟩
  case mismatch =>
    intro s age n hd harm hsrc hage hvalid hallow hstep
    refine ⟨_, epochLoad_due hd (loadAge_eq harm hsrc hage), ?_⟩
    rw [loadEpoch_mismatch hstep hvalid hallow]
    refine ⟨?_, ?_, ?_, raise_raw ..⟩
    · simp
    · simp
    · simpa using hvalid
  case early =>
    intro s age hmode hosc
    refine epochLoad_early ?_
    have hnone : sinceArm s = none := if_neg (by omega)
    rw [loadAge, if_pos hmode, hnone]
    exact ite_self _

end Sys2Proof.Machine
end

section
/-! PROOFS. Changes of Quarry's operating point, training runs and drift (R299 to R304), and the statement about them. -/

namespace Sys2Proof.Machine

-- One declaration at a time: the memory limit counts the stack of every thread that elaborates one.
set_option Elab.async false

/-! ### Writes that only some masters make -/

theorem bits_lt (v hi lo : Nat) : bits v hi lo < 2 ^ (hi + 1 - lo) := Nat.mod_lt _ (Nat.two_pow_pos _)

theorem bit_lt (v n : Nat) : bit v n < 2 := Nat.mod_lt _ (by decide)

theorem gateBy_ok {s : State} {ok : Bool} {p : Page} {n m : Nat} (hok : ok = true) (h : accessOk s p n m true = true) (o : Nat)
    (f : State → State) : gateBy ok p n o m f s = f (hostWake m s) := by
  rw [gateBy, if_pos hok, gate_ok h]

theorem gateBy_denied {s : State} {ok : Bool} {p : Page} {n m : Nat} (hok : ok = false) (o : Nat) (f : State → State) :
    gateBy ok p n o m f s = recordErr p n errOwnerDenied m true (o / 4) (hostWake m s) := by
  rw [gateBy, if_neg (by simp [hok])]

/-- A write of another field leaves the error records as they are. -/
theorem errors_wr {s u : State} (hu : ∀ r, .reg r ∈ errors → ∀ i x z, u.rd r i x z = s.rd r i x z) {q : Reg} (hq : .reg q ∉ errors)
    (v j y w : Nat) : ∀ r, .reg r ∈ errors → ∀ i x z, (u.wr q v j y w).rd r i x z = s.rd r i x z := fun r hr i x z =>
  (State.rd_wr_reg _ (fun h : q = r => hq (h ▸ hr)) ..).trans (hu r hr i x z)

/-! ### The request of another point (R50, R300) -/

/-- The fields of a write of OPCTL. -/
def storeOpctl (v : Nat) (s : State) : State :=
  (((s.wr .QUARRY_OPCTL_TARGET (bits v 1 0)).wr .QUARRY_OPCTL_AT_LC (bit v 3)).wr .QUARRY_OPCTL_LC (bits v 9 4)).wr
    .QUARRY_OPCTL_ABORT_MAX (bits v 19 16)

theorem writeOpctl_foreign {s : State} {m v : Nat} (h2 : bit v 2 = 1) (h3 : bit v 3 = 1) (h : ownsLc s m (bits v 9 4) = false) :
    writeOpctl m v s = recordErr .quarry 0 errOwnerDenied m true (0x44 / 4) s := if_pos ⟨h2, h3, h⟩

theorem writeOpctl_go {s : State} {m v : Nat} (h2 : bit v 2 = 1) (h : bit v 3 = 1 → ownsLc s m (bits v 9 4) = true) :
    writeOpctl m v s = opRequest m (storeOpctl v s) := by
  have hown : ¬(bit v 2 = 1 ∧ bit v 3 = 1 ∧ ownsLc s m (bits v 9 4) = false) := fun hn => by simp [h hn.2.1] at hn
  rw [writeOpctl, if_neg hown]
  exact if_pos h2

theorem writeOpctl_plain {s : State} {m v : Nat} (h2 : bit v 2 = 0) : writeOpctl m v s = storeOpctl v s := by
  rw [writeOpctl, if_neg (by omega)]
  exact if_neg (by omega)

theorem storeOpctl_rd {r : Reg} (h1 : .QUARRY_OPCTL_TARGET ≠ r) (h2 : .QUARRY_OPCTL_AT_LC ≠ r) (h3 : .QUARRY_OPCTL_LC ≠ r)
    (h4 : .QUARRY_OPCTL_ABORT_MAX ≠ r) (v : Nat) (s : State) (i x z : Nat) : (storeOpctl v s).rd r i x z = s.rd r i x z := by
  simp [storeOpctl, h1, h2, h3, h4]

theorem storeOpctl_fields (v : Nat) (s : State) : (storeOpctl v s).rd .QUARRY_OPCTL_TARGET = bits v 1 0 ∧
    (storeOpctl v s).rd .QUARRY_OPCTL_AT_LC = bit v 3 ∧ (storeOpctl v s).rd .QUARRY_OPCTL_LC = bits v 9 4 ∧
    (storeOpctl v s).rd .QUARRY_OPCTL_ABORT_MAX = bits v 19 16 := by
  have h10 := bits_lt v 1 0
  have h94 := bits_lt v 9 4
  have h1916 := bits_lt v 19 16
  have h3 := bit_lt v 3
  simp [storeOpctl, Reg.width, Reg.info]
  omega

/-- What stays of the state before a write of OPCTL: the phase, the errors and what the request is judged by. -/
structure Undecided (s u : State) : Prop where
  qry : u.qry = s.qry
  errors : ∀ r, .reg r ∈ errors → ∀ i x z, u.rd r i x z = s.rd r i x z
  pending : u.rd .QUARRY_STATUS_OP_PENDING = s.rd .QUARRY_STATUS_OP_PENDING
  now : u.rd .QUARRY_STATUS_OP_NOW = s.rd .QUARRY_STATUS_OP_NOW
  set : ∀ t, inactiveSetFor u t = inactiveSetFor s t

theorem storeOpctl_undecided (m v : Nat) (s : State) : Undecided s (storeOpctl v (hostWake m s)) where
  qry := hostWake_qry ..
  errors r hr i x z := by
    have hother (q : Reg) (hq : .reg q ∉ Machine.errors) : q ≠ r := fun h => hq (h ▸ hr)
    rw [storeOpctl_rd (hother _ (by decide)) (hother _ (by decide)) (hother _ (by decide)) (hother _ (by decide)), hostWake_errors m r hr]
  pending := by simp [storeOpctl_rd]
  now := by simp [storeOpctl_rd]
  set t := by simp [inactiveSetFor, storeOpctl_rd]

theorem setOp_rd (s : State) (p : OpPhase) (t lc : Nat) (f : Bool) (r : Reg) (i x z : Nat) :
    (s.setOp p t lc f).rd r i x z = s.rd r i x z := rfl

section
variable {s u : State} {m t : Nat} (ht : u.rd .QUARRY_OPCTL_TARGET = t)
include ht

/-- A change that goes ahead (R300): forced from the start where ABORT_MAX is 0. -/
theorem opRequest_accept (hp : u.rd .QUARRY_STATUS_OP_PENDING ≠ 1) (h3 : t ≠ 3) (hn : t ≠ u.rd .QUARRY_STATUS_OP_NOW)
    (hset : inactiveSetFor u t = true) :
    (opRequest m u).rd .QUARRY_STATUS_OP_PENDING = 1 ∧ (opRequest m u).qry = { u.qry with
      op := if u.rd .QUARRY_OPCTL_AT_LC = 1 then .waitLc else .drain, opTarget := t, opLc := u.rd .QUARRY_OPCTL_LC,
      opForced := decide (u.rd .QUARRY_OPCTL_ABORT_MAX = 0) } := by
  subst ht
  rw [opRequest, if_neg hp, if_neg h3, if_neg hn, if_neg (by simp [hset])]
  refine ⟨?_, rfl⟩
  simp [setOp_rd, Reg.width, Reg.info]

theorem opRequest_refuse (hp : u.rd .QUARRY_STATUS_OP_PENDING ≠ 1) (hn : t ≠ u.rd .QUARRY_STATUS_OP_NOW ∨ t = 3)
    (hset : t = 3 ∨ inactiveSetFor u t = false) : opRequest m u = actionErr .quarry 0 errPrepareFailed m u := by
  subst ht
  rw [opRequest, if_neg hp]
  split
  · rfl
  · rename_i h3
    rw [if_neg (hn.resolve_right h3), if_pos (hset.resolve_left h3)]

theorem opRequest_none (h : u.rd .QUARRY_STATUS_OP_PENDING = 1 ∨ (t = u.rd .QUARRY_STATUS_OP_NOW ∧ t ≠ 3)) : opRequest m u = u := by
  subst ht
  rw [opRequest]
  split
  · rfl
  · rename_i hp
    obtain ⟨hn, h3⟩ := h.resolve_left hp
    rw [if_neg h3, if_pos hn]

end

/-- A write of OPCTL by a master that may write it. -/
theorem opctl_ok {s : State} {m : Master} (h : MayWrite s .quarry 0 m) (hm : m.val ≤ 2) (v : Word) :
    execOpChangeRequest m v s = .next (writeOpctl m.val v.toNat (hostWake m.val s)) := by
  rw [execOpChangeRequest, act_up h.1, gateBy_ok (by simpa [quarryWriter] using hm) h.2]

theorem ownsLc_hostWake (s : State) (k m n : Nat) : ownsLc (hostWake k s) m n = ownsLc s m n := by simp [ownsLc]

/-! ### Entry, abort and end (R300, R301) -/

/-- What holds of every value listed and of the default holds of every value read. -/
theorem Store.get_of_all {α : Type} {P : α → Prop} {d : α} (hd : P d) (l : Store α) (hl : ∀ p ∈ l, P p.2) (k : Nat) :
    P (Store.get d l k) := by
  induction l with
  | nil => exact hd
  | cons p l ih =>
    unfold Store.get
    split
    · exact hl p (List.mem_cons_self ..)
    · exact ih fun q hq => hl q (List.mem_cons_of_mem _ hq)

theorem Store.get_mapValues {α : Type} [DecidableEq α] {P : α → Prop} {d : α} (hd : P d) {f : α → α} (hf : ∀ x, P (f x)) (l : Store α)
    (k : Nat) : P (Store.get d (Store.mapValues d f l) k) := by
  refine Store.get_of_all hd _ (fun p hp => ?_) k
  obtain ⟨q, -, rfl⟩ := List.mem_map.mp (List.mem_filter.mp hp).1
  exact hf q.2

theorem closeRows_row (s : State) (r b : Nat) : (bankOf (closeRows s) r b).row = none :=
  Store.get_mapValues (P := fun x : Bank => x.row = none) (d := {}) (f := fun b => { b with row := none, hits := 0 }) rfl
    (fun _ => rfl) s.qry.banks (r * 16 + b)

theorem enterSelfRefresh_rd (s : State) : (enterSelfRefresh s).rd .QUARRY_STATUS_SELF_REFRESH = 1 := State.rd_wr_same ..

/-- An entry that goes ahead. -/
theorem opCommit_enters {s : State} (h : s.qry.opForced = true ∨ anyUrgent s 3 = false) : (opCommit s).qry.op = .outage ∧
    (opCommit s).rd .QUARRY_STATUS_SELF_REFRESH = 1 ∧ ∀ r b, (bankOf (opCommit s) r b).row = none := by
  have hno : ¬(s.qry.opForced = false ∧ anyUrgent s 3 = true) := fun hn => by simp [hn.1, hn.2] at h
  rw [opCommit, if_neg hno]
  exact ⟨rfl, enterSelfRefresh_rd s, closeRows_row s⟩

/-- One that an urgent request aborts. -/
theorem opCommit_aborts {s : State} (hop : s.qry.op = .drain) (hf : s.qry.opForced = false) (hu : anyUrgent s 3 = true) :
    opCommit s = raise .quarry 0 6 (({ s with qry := { s.qry with op := .aborted } } : State).inc .QUARRY_OP_STAT_ABORTS) := by
  rw [opCommit, if_pos ⟨hf, hu⟩, abortEntry, if_pos ⟨hop, hf, hu⟩]

theorem opRestart_waits {s : State} (h : s.rd .QUARRY_OP_STAT_ABORTS < s.rd .QUARRY_OPCTL_ABORT_MAX) (hu : anyUrgent s 2 = true) :
    opRestart s = s := by
  unfold opRestart
  exact if_neg (by simp [hu]; omega)

theorem opRestart_drains {s : State} (h : anyUrgent s 2 = false ∨ s.rd .QUARRY_OPCTL_ABORT_MAX ≤ s.rd .QUARRY_OP_STAT_ABORTS) :
    (opRestart s).qry.op = .drain ∧ (s.rd .QUARRY_OPCTL_ABORT_MAX ≤ s.rd .QUARRY_OP_STAT_ABORTS →
      (opRestart s).rd .QUARRY_OP_STAT_FORCED = 1 ∧ (opRestart s).qry.opForced = true) := by
  unfold opRestart
  dsimp only
  rw [if_pos (by simpa using h.symm)]
  refine ⟨?_, fun hf => ?_⟩
  · unfold State.wrIf
    split
    · rfl
    · rfl
  · simp only [hf, decide_true, State.wrIf, if_true]
    exact ⟨State.rd_wr_same .., rfl⟩

/-- What the end of a change leaves of what it set: service begins again, which changes none of it. -/
theorem releaseWaiting_point (s : State) : (releaseWaiting s).rd .QUARRY_STATUS_OP_NOW = s.rd .QUARRY_STATUS_OP_NOW ∧
    (releaseWaiting s).rd .QUARRY_STATUS_OP_PENDING = s.rd .QUARRY_STATUS_OP_PENDING ∧
    (releaseWaiting s).rd .QUARRY_STATUS_SELF_REFRESH = s.rd .QUARRY_STATUS_SELF_REFRESH ∧
    (releaseWaiting s).rd .QPHY_TSET_CTL_ACTIVE = s.rd .QPHY_TSET_CTL_ACTIVE := by
  have hrel : Keeps (everything ^^^ mask (fields [.QUARRY_STATUS_OP_NOW, .QUARRY_STATUS_OP_PENDING, .QUARRY_STATUS_SELF_REFRESH,
    .QPHY_TSET_CTL_ACTIVE])) s (releaseWaiting s) := releaseWaiting_keeps (.refl _ s) (.of_beq (by decide +kernel))
  exact ⟨hrel.same (.reg .QUARRY_STATUS_OP_NOW) (by decide +kernel) .., hrel.same (.reg .QUARRY_STATUS_OP_PENDING) (by decide +kernel) ..,
    hrel.same (.reg .QUARRY_STATUS_SELF_REFRESH) (by decide +kernel) .., hrel.same (.reg .QPHY_TSET_CTL_ACTIVE) (by decide +kernel) ..⟩

/-- The registers and the phase at the end of a change, before what waited is served. -/
def opEnded (s : State) : State :=
  raise .quarry 0 5 (((((({ s with qry := { s.qry with op := .idle, lastRefresh := s.osc } } : State).wr .QUARRY_STATUS_OP_NOW
    s.qry.opTarget).wr .QPHY_TSET_CTL_ACTIVE (1 - s.rd .QPHY_TSET_CTL_ACTIVE)).wr .QUARRY_STATUS_SELF_REFRESH 0).wr
    .QUARRY_STATUS_OP_PENDING 0).wr .QUARRY_OP_STAT_LAST_OUTAGE (min 65535 ((s.osc - s.qry.opFrom) / 4)))

theorem opDone_eq (s : State) : opDone s = releaseWaiting (opEnded s) := rfl

theorem opDone_done (s : State) : (opDone s).qry.op = .idle ∧ (opDone s).rd .QUARRY_STATUS_OP_NOW = s.qry.opTarget % 4 ∧
    (opDone s).rd .QUARRY_STATUS_OP_PENDING = 0 ∧ (opDone s).rd .QUARRY_STATUS_SELF_REFRESH = 0 ∧
    (opDone s).rd .QPHY_TSET_CTL_ACTIVE = 1 - s.rd .QPHY_TSET_CTL_ACTIVE ∧ Raised (opDone s) .quarry 0 5 := by
  have hserve := (Onward.refl (opEnded s)).releaseWaiting
  obtain ⟨hnow, hpending, hself, hactive⟩ := releaseWaiting_point (opEnded s)
  have hop : (opEnded s).qry.op = .idle := congrArg Quarry.op (raise_qry ..)
  rw [opDone_eq]
  refine ⟨(hserve.op (by rw [hop]; decide)).trans hop, hnow.trans ?_, hpending.trans ?_, hself.trans ?_, hactive.trans ?_,
    hserve.raised _ _ _ (raise_raw ..)⟩
  · simp [opEnded, Reg.width, Reg.info]
  · simp [opEnded]
  · simp [opEnded]
  · simp [opEnded, Reg.width, Reg.info]

/-! ### Training runs (R303) -/

/-- A run of firmware's with its MODE stored. -/
theorem training_ok {s : State} (h : MayWrite s .qphy 0 2) (mode : Fin 8) :
    execTrainingRun 2 mode s = .next (startTraining 2 (s.wr .QPHY_TRN_CTL_MODE mode.val)) := by
  have hmode : bits (mode.val + 0x100) 2 0 = mode.val ∧ bit (mode.val + 0x100) 8 = 1 := by
    revert mode
    decide
  rw [execTrainingRun, act_up h.1, gateBy_ok (ok := (2 : Master).val == 2) rfl h.2, writeTrnCtl, hmode.1, hmode.2]
  rfl

/-- The rank that TRN_SEL names. -/
def trainRank (s : State) : Nat := 2 * s.rd .QPHY_TRN_SEL_CH + s.rd .QPHY_TRN_SEL_CS

/-- What a stored MODE leaves of the state. -/
theorem trainMode_rd {r : Reg} (h : .QPHY_TRN_CTL_MODE ≠ r) (s : State) (v i x z : Nat) :
    (s.wr .QPHY_TRN_CTL_MODE v).rd r i x z = s.rd r i x z := State.rd_wr_reg _ h ..

section
variable {s : State} {m : Nat}

theorem startTraining_refused (hr : quarryReady s = true) (h1 : rankState s (trainRank s) ≠ 1) (h4 : rankState s (trainRank s) ≠ 4) :
    startTraining m s = actionErr .qphy 0 errPrepareFailed m s := if_pos ⟨hr, h1, h4⟩

theorem startTraining_runs (hr : quarryReady s = false ∨ rankState s (trainRank s) = 1 ∨ rankState s (trainRank s) = 4)
    (h1 : 1 ≤ s.rd .QPHY_TRN_CTL_MODE) (h4 : s.rd .QPHY_TRN_CTL_MODE ≤ 4) (hb : s.rd .QPHY_CMP_STAT_BUSY ≠ 1) :
    startTraining m s = ((s.wr .QPHY_CMP_STAT_DONE 0).wr .QPHY_CMP_STAT_BUSY 1).wr .QPHY_STATUS_TRAINING 1 := by
  have hmay : ¬(quarryReady s ∧ rankState s (trainRank s) ≠ 1 ∧ rankState s (trainRank s) ≠ 4) := by
    rintro ⟨hready, hspare, hretired⟩
    rcases hr with h | h | h
    · simp [h] at hready
    · exact hspare h
    · exact hretired h
  exact (if_neg hmay).trans (if_neg (by omega))

theorem startTraining_none (hr : quarryReady s = false)
    (h : s.rd .QPHY_TRN_CTL_MODE = 0 ∨ 4 < s.rd .QPHY_TRN_CTL_MODE ∨ s.rd .QPHY_CMP_STAT_BUSY = 1) : startTraining m s = s :=
  (if_neg (by simp [hr])).trans (if_pos h)

end

/-! ### Drift (R304) -/

/-- The delays with those of kinds 3 and 4 at each bit listed set to what V gives their keys. -/
def driftDelays (key : Nat → Nat → Nat) (V : Nat → Nat) (bs : List Nat) (l : Store (Option Nat)) : Store (Option Nat) :=
  bs.foldl (fun l b => Store.set none (Store.set none l (key 3 b) (some (V (key 3 b)))) (key 4 b) (some (V (key 4 b)))) l

theorem get_set_value (l : Store (Option Nat)) (V : Nat → Nat) (k K : Nat) (h : k = K ∨ Store.get none l K = some (V K)) :
    Store.get none (Store.set none l k (some (V k))) K = some (V K) := by
  by_cases hk : k = K
  · rw [hk, Store.get_set_same]
  · rw [Store.get_set_ne _ _ _ hk, h.resolve_left hk]

/-- A delay that has its value keeps it. -/
theorem driftDelays_keeps (key : Nat → Nat → Nat) (V : Nat → Nat) (bs : List Nat) {l : Store (Option Nat)} {K : Nat}
    (h : Store.get none l K = some (V K)) : Store.get none (driftDelays key V bs l) K = some (V K) := by
  induction bs generalizing l with
  | nil => exact h
  | cons b bs ih => exact ih (get_set_value _ V _ K (.inr (get_set_value l V _ K (.inr h))))

/-- Every delay of the bits listed gets its value. -/
theorem driftDelays_get (key : Nat → Nat → Nat) (V : Nat → Nat) {bs : List Nat} {i kind : Nat} (hi : i ∈ bs) (hk : kind = 3 ∨ kind = 4)
    (l : Store (Option Nat)) : Store.get none (driftDelays key V bs l) (key kind i) = some (V (key kind i)) := by
  induction bs generalizing l with
  | nil => cases hi
  | cons b bs ih =>
    rcases List.mem_cons.mp hi with rfl | hi
    · refine driftDelays_keeps key V bs ?_
      rcases hk with rfl | rfl
      · exact get_set_value _ V _ _ (.inr (get_set_value l V _ _ (.inl rfl)))
      · exact get_set_value _ V _ _ (.inl rfl)
    · exact ih hi _

theorem dlyAt_of_get {s : State} {k v : Nat} (h : Store.get none s.qry.dly k = some v) : dlyAt s k = v := by
  simp [dlyAt, h]

/-- The operating point of the active set. -/
def activePoint (s : State) : Nat := if s.rd .QPHY_TSET_CTL_ACTIVE = 0 then s.rd .QPHY_TSET_CTL_A_OP else s.rd .QPHY_TSET_CTL_B_OP

/-- The state of a drift with its correction stored and the largest kept. -/
def driftStored (p : Nat) (steps : Int) (s : State) : State :=
  ({ s with qry := { s.qry with
      dly := driftDelays (dlyKey (s.rd .QPHY_TSET_CTL_ACTIVE) (p / 2) (p % 2) (activePoint s))
        (fun k => (clampI 0 1023 (dlyAt s k + clampI (-8) 8 steps)).toNat) (upTo 16) s.qry.dly
      driftAt := Store.set none s.qry.driftAt p (some s.osc) } } : State).wr
    .QPHY_DRIFT_STAT_MAX_STEP (max (s.rd .QPHY_DRIFT_STAT_MAX_STEP) (min 255 steps.natAbs))

theorem driftUpdate_eq (p : Nat) (steps : Int) (s : State) : driftUpdate p steps s =
    if 8 < steps.natAbs then raise .qphy 0 2 (driftStored p steps s) else driftStored p steps s := rfl

theorem driftStored_dly (p : Nat) (steps : Int) (s : State) : (driftStored p steps s).qry.dly =
    driftDelays (dlyKey (s.rd .QPHY_TSET_CTL_ACTIVE) (p / 2) (p % 2) (activePoint s))
      (fun k => (clampI 0 1023 (dlyAt s k + clampI (-8) 8 steps)).toNat) (upTo 16) s.qry.dly := by
  rw [driftStored, State.wr_qry]

theorem driftStored_delay (p : Nat) (steps : Int) (s : State) {kind i : Nat} (hk : kind = 3 ∨ kind = 4) (hi : i < 16) :
    dlyAt (driftStored p steps s) (dlyKey (s.rd .QPHY_TSET_CTL_ACTIVE) (p / 2) (p % 2) (activePoint s) kind i) =
      (clampI 0 1023 (dlyAt s (dlyKey (s.rd .QPHY_TSET_CTL_ACTIVE) (p / 2) (p % 2) (activePoint s) kind i) +
        clampI (-8) 8 steps)).toNat := by
  refine dlyAt_of_get ?_
  rw [driftStored_dly]
  exact driftDelays_get _ (fun k => (clampI 0 1023 (dlyAt s k + clampI (-8) 8 steps)).toNat)
    (mem_rangeFrom.mpr ⟨Nat.zero_le i, by omega⟩) hk s.qry.dly

theorem driftUpdate_drifts (p : Nat) (steps : Int) (s : State) :
    (driftUpdate p steps s).rd .QPHY_DRIFT_STAT_MAX_STEP = max (s.rd .QPHY_DRIFT_STAT_MAX_STEP) (min 255 steps.natAbs) % 2 ^ 8 ∧
      (8 < steps.natAbs → Raised (driftUpdate p steps s) .qphy 0 2) ∧
      ∀ k, dlyAt (driftUpdate p steps s) k = dlyAt (driftStored p steps s) k := by
  rw [driftUpdate_eq]
  have hmax : (driftStored p steps s).rd .QPHY_DRIFT_STAT_MAX_STEP =
    max (s.rd .QPHY_DRIFT_STAT_MAX_STEP) (min 255 steps.natAbs) % 2 ^ 8 := State.rd_wr_same ..
  split
  · refine ⟨?_, fun _ => raise_raw .., fun k => ?_⟩
    · rw [raise_rd _ (by decide) (by decide), hmax]
    · unfold dlyAt
      rw [raise_qry]
  · exact ⟨hmax, fun h => absurd h ‹_›, fun _ => rfl⟩

/-! ### The obligation -/

/-- Settles O55: the request case by case, the commit over every bank, the end of a change through all that waited for it, training runs,
and the drift of every bit. -/
theorem quarryOperatingPoints : Obligations.QuarryOperatingPoints := by
  unfold Obligations.QuarryOperatingPoints
  refine ⟨?drains, ?waits, ?refused, ?foreign, ?nothing, ?commits, ?aborts, ?stays, ?restarts, ?done, ?runs, ?inService, ?denied, ?stored,
    ?ended, ?drifts, ?notDue⟩
  case drains =>
    intro s m v h hm h2 h3 hp ht hn hset
    have hu := storeOpctl_undecided m.val v.toNat s
    obtain ⟨htarget, hat, hlc, habort⟩ := storeOpctl_fields v.toNat (hostWake m.val s)
    obtain ⟨hpending, hqry⟩ := opRequest_accept (m := m.val) htarget (by rwa [hu.pending]) ht (by rwa [hu.now]) (by rwa [hu.set])
    refine ⟨_, opctl_ok h hm v, ?_⟩
    rw [writeOpctl_go h2 (by omega)]
    refine ⟨hpending, ?_⟩
    rw [hqry, hat, habort, h3]
    exact ⟨rfl, rfl, rfl⟩
  case waits =>
    intro s m v h hm h2 h3 hown hp ht hn hset
    have hu := storeOpctl_undecided m.val v.toNat s
    obtain ⟨htarget, hat, hlc, habort⟩ := storeOpctl_fields v.toNat (hostWake m.val s)
    obtain ⟨hpending, hqry⟩ := opRequest_accept (m := m.val) htarget (by rwa [hu.pending]) ht (by rwa [hu.now]) (by rwa [hu.set])
    refine ⟨_, opctl_ok h hm v, ?_⟩
    rw [writeOpctl_go h2 (fun _ => by rwa [ownsLc_hostWake])]
    refine ⟨hpending, ?_⟩
    rw [hqry, hat, hlc, h3]
    exact ⟨rfl, rfl⟩
  case refused =>
    intro s m v h hm h2 h3 hp hn hset
    have hu := storeOpctl_undecided m.val v.toNat s
    refine ⟨_, opctl_ok h hm v, ?_⟩
    rw [writeOpctl_go h2 (by omega), opRequest_refuse (storeOpctl_fields ..).1 (by rwa [hu.pending]) (by rwa [hu.now]) (by rwa [hu.set])]
    exact ⟨(recordErr_qry ..).trans hu.qry, recorded_recordErr hu.errors (by decide) m.isLt ..⟩
  case foreign =>
    intro s m v h hm h2 h3 hown
    refine ⟨_, opctl_ok h hm v, ?_⟩
    rw [writeOpctl_foreign h2 h3 (by rwa [ownsLc_hostWake])]
    exact ⟨(recordErr_qry ..).trans (hostWake_qry ..), recorded_recordErr (hostWake_errors m.val) (by decide) m.isLt ..⟩
  case nothing =>
    intro s m v h hm h3 hnone
    have hu := storeOpctl_undecided m.val v.toNat s
    refine ⟨_, opctl_ok h hm v, ?_⟩
    by_cases h2 : bit v.toNat 2 = 0
    · rw [writeOpctl_plain h2]
      exact ⟨hu.qry, hu.pending⟩
    · have h2 : bit v.toNat 2 = 1 := by have := bit_lt v.toNat 2; omega
      rw [writeOpctl_go h2 (by omega), opRequest_none (storeOpctl_fields ..).1 (by rw [hu.pending, hu.now]; omega)]
      exact ⟨hu.qry, hu.pending⟩
  case commits =>
    intro s hd hserved hop hgo
    obtain ⟨hout, hself, hrows⟩ := opCommit_enters hgo
    exact ⟨_, act_on hd ⟨hserved, hop⟩ _, hout, hself, fun i _ k _ => hrows i k⟩
  case aborts =>
    intro s hd hserved hop hforced hurgent
    refine ⟨_, act_on hd ⟨hserved, hop⟩ _, ?_⟩
    rw [opCommit_aborts hop hforced hurgent]
    refine ⟨congrArg Quarry.op (raise_qry ..), raise_raw .., ?_⟩
    rw [raise_rd _ (by decide) (by decide)]
    exact (State.rd_wr_same ..).trans (satAdd_mod ..)
  case stays =>
    intro s hd hop hmore hurgent
    exact (act_on hd hop _).trans (congrArg _ (opRestart_waits hmore hurgent))
  case restarts => exact fun s hd hop h => ⟨_, act_on hd hop _, opRestart_drains h⟩
  case done => exact fun s hd hop => ⟨_, act_on hd hop _, opDone_done s⟩
  case runs =>
    intro s mode h hrank h1 h4 hbusy
    have hmode : (s.wr .QPHY_TRN_CTL_MODE mode.val).rd .QPHY_TRN_CTL_MODE = mode.val :=
      (State.rd_wr_same ..).trans (Nat.mod_eq_of_lt mode.isLt)
    refine ⟨_, training_ok h mode, ?_⟩
    rw [startTraining_runs (by simpa [trainRank, rankState, quarryReady] using hrank) (by rwa [hmode]) (by rwa [hmode])
      (by simpa using hbusy)]
    refine ⟨?_, ?_, ?_, ?_⟩
    · simp [Reg.width, Reg.info]
    · simp
    · simp [Reg.width, Reg.info]
    · simpa using hmode
  case inService =>
    intro s mode h hready h1 h4
    refine ⟨_, training_ok h mode, ?_⟩
    rw [startTraining_refused (by simpa [quarryReady] using hready) (by simpa [trainRank, rankState] using h1)
      (by simpa [trainRank, rankState] using h4)]
    refine ⟨recorded_recordErr (errors_wr (fun _ _ _ _ _ => rfl) (by decide) _ _ _ _) (by decide) (by decide) .., ?_⟩
    simp [actionErr]
  case denied =>
    intro s m mode hd hm
    refine ⟨_, act_up hd _, ?_⟩
    rw [gateBy_denied (by simpa using hm)]
    refine ⟨recorded_recordErr (hostWake_errors m.val) (by decide) m.isLt .., ?_⟩
    exact (recordErr_keeps (hostWake_keeps (.refl _ s) (.of_beq (by decide +kernel)) _) (.of_beq (by decide +kernel)) ..).only
  case stored =>
    intro s mode h hready hnone
    have hmode : (s.wr .QPHY_TRN_CTL_MODE mode.val).rd .QPHY_TRN_CTL_MODE = mode.val :=
      (State.rd_wr_same ..).trans (Nat.mod_eq_of_lt mode.isLt)
    refine ⟨_, training_ok h mode, ?_⟩
    rw [startTraining_none (by simpa [quarryReady] using hready) (by rw [hmode]; simpa using hnone)]
    exact ⟨State.rd_wr_reg _ (by decide) .., hmode⟩
  case ended =>
    intro s fail errs hd hbusy
    have hfail : fail.toNat < 2 ^ 16 := fail.isLt
    have herrs : errs.toNat < 2 ^ 32 := errs.isLt
    refine ⟨_, act_on hd hbusy _, ?_, ?_, ?_, ?_, ?_, raise_raw ..⟩
    · simp [Reg.width, Reg.info]
      omega
    · simp [Reg.width, Reg.info]
    · simp
    · simp
    · simp [Reg.width, Reg.info]
      omega
  case drifts =>
    intro s p steps op hd hrefresh hdue hop
    obtain ⟨hmax, hraised, hdly⟩ := driftUpdate_drifts p.val (signed 12 steps.toNat) s
    subst hop
    exact ⟨_, act_on hd ⟨hrefresh, hdue⟩ _, hmax, hraised, fun kind h5 h3 i hi =>
      (hdly _).trans (driftStored_delay p.val (signed 12 steps.toNat) s (by omega) hi)⟩
  case notDue =>
    intro s p steps hd h
    refine act_same (on_neg ?_ _)
    rintro ⟨hrefresh, hdue⟩
    rcases h with h | h
    · simp [hrefresh] at h
    · simp [hdue] at h

end Sys2Proof.Machine
end

section
/-! PROOFS. Quad sample clocks and the spare synthesizer (R52 to R59), and the statement about them. -/

namespace Sys2Proof.Machine

-- One declaration at a time: the memory limit counts the stack of every thread that elaborates one.
set_option Elab.async false

/-! ### Passes over a list -/

section
variable {α : Type} {R : State → State → Prop} {f : α → State → State}

theorem each_rel (hrefl : ∀ s, R s s) (htrans : ∀ {a b c}, R a b → R b c → R a c) {xs : List α} (hf : ∀ x ∈ xs, ∀ t, R t (f x t))
    (s : State) : R s (each xs f s) := by
  induction xs generalizing s with
  | nil => exact hrefl s
  | cons x xs ih =>
    exact htrans (hf x (List.mem_cons_self ..) s) (ih (fun y hy => hf y (List.mem_cons_of_mem _ hy)) _)

/-- In a pass over a list without repetition, an element's own step stands between steps of others. -/
theorem each_own (hrefl : ∀ s, R s s) (htrans : ∀ {a b c}, R a b → R b c → R a c) {x : α} (hf : ∀ y, y ≠ x → ∀ t, R t (f y t))
    {xs : List α} (hx : x ∈ xs) (hn : xs.Nodup) (s : State) : ∃ u, R s u ∧ R (f x u) (each xs f s) := by
  induction xs generalizing s with
  | nil => cases hx
  | cons y ys ih =>
    obtain ⟨hy, hys⟩ := List.nodup_cons.mp hn
    by_cases hyx : y = x
    · subst hyx
      exact ⟨s, hrefl s, each_rel hrefl htrans (fun z hz => hf z (ne_of_mem_of_not_mem hz hy)) _⟩
    · obtain ⟨u, hu, hrest⟩ := ih ((List.mem_cons.mp hx).resolve_left (Ne.symm hyx)) hys (f y s)
      exact ⟨u, htrans (hf y hyx s) hu, hrest⟩

end

theorem rangeFrom_nodup (a n : Nat) : (rangeFrom a n).Nodup := by
  induction n generalizing a with
  | zero => exact List.nodup_nil
  | succ n ih => exact List.nodup_cons.mpr ⟨fun h => absurd (mem_rangeFrom.mp h).1 (by omega), ih _⟩

theorem mem_upTo {n i : Nat} : i ∈ upTo n ↔ i < n := by simp [upTo, mem_rangeFrom]

theorem upTo_nodup (n : Nat) : (upTo n).Nodup := rangeFrom_nodup 0 n

/-- A write in one unit leaves every field of another as it was. -/
theorem rd_wr_inst {i j : Nat} (h : i ≠ j) (s : State) (r r' : Reg) (v x z x' z' : Nat) :
    (s.wr r v i x z).rd r' j x' z' = s.rd r' j x' z' := by
  by_cases hr : r = r'
  · subst hr
    exact State.rd_wr_place _ _ _ (fun e => h e.1)
  · exact State.rd_wr_reg _ hr ..

/-- So does one at another index. -/
theorem rd_wr_idx {x y : Nat} (h : x ≠ y) (s : State) (r r' : Reg) (v i z i' z' : Nat) :
    (s.wr r v i x z).rd r' i' y z' = s.rd r' i' y z' := by
  by_cases hr : r = r'
  · subst hr
    exact State.rd_wr_place _ _ _ (fun e => h e.2.1)
  · exact State.rd_wr_reg _ hr ..

/-! ### Clocks under the shared operations -/

@[simp] theorem wr_clock (s : State) (r : Reg) (v i x u q : Nat) : (s.wr r v i x u).clock q = s.clock q := rfl
@[simp] theorem raise_clock (s : State) (p : Page) (n b q : Nat) : (raise p n b s).clock q = s.clock q :=
  congrArg (Store.get _ · q) (raise_clocks s p n b)
@[simp] theorem wake_clock (k q : Nat) (s : State) : (wake k s).clock q = s.clock q := congrArg (Store.get _ · q) (wake_clocks s k)

theorem clock_of_only {l : List Part} {s t : State} (h : OnlyChanges l s t) (hl : .clocks ∉ l) (q : Nat) : t.clock q = s.clock q :=
  congrArg (Store.get _ · q) (h _ hl)

/-- What a timeline that changes does to the spare. -/
def spareParts : List Part := fields [.QCLK_ORIGIN_FRAC_FRAC, .QCLK_ORIGIN_HI_ORIGIN_HI, .QCLK_ORIGIN_LO_ORIGIN_LO,
  .QCLK_QCLK_STATUS_LOCKED, .QCLK_QCLK_STATUS_READY] ++ [.eff]

theorem spareFollows_only (q : Nat) (s : State) : OnlyChanges spareParts s (spareFollows q s) :=
  (spareFollows_keeps (.refl _ s) (.of_beq (by decide +kernel)) q).only

theorem restartSamples_only (q n : Nat) (s : State) : OnlyChanges [.wheels, .cses, .outs] s (restartSamples q n s) :=
  (restartSamples_keeps (.refl _ s) (.of_beq (by decide +kernel)) q n).only

theorem setOrigin_rd {r : Reg} (h1 : .QCLK_ORIGIN_LO_ORIGIN_LO ≠ r) (h2 : .QCLK_ORIGIN_HI_ORIGIN_HI ≠ r) (h3 : .QCLK_ORIGIN_FRAC_FRAC ≠ r)
    (q v : Nat) (s : State) (i x z : Nat) : (setOrigin q v s).rd r i x z = s.rd r i x z := by
  simp [setOrigin, State.wr64, h1, h2, h3]

theorem setOrigin_clock (q v : Nat) (s : State) (k : Nat) : (setOrigin q v s).clock k = s.clock k := rfl

/-! ### Start and stop (R55, R58) -/

section
variable {s : State} {q : Nat} (hen : s.rd .CTRL_ENABLE q (Page.code .qclk) = 0) (hrun : (s.clock q).running = false)
  (hd0 : s.rd .POWER_STATUS_DSTATE = 0)
include hen hrun hd0

/-- An unaligned quad starts at edge 0 on this tick. -/
theorem qclkStart_starts (ha : s.rd .QCLK_QCLK_STATUS_ALIGNED q = 0) : (qclkStart q s).rd .CTRL_ENABLE q (Page.code .qclk) = 1 ∧
    ((qclkStart q s).clock q).running = true ∧ ((qclkStart q s).clock q).edge0 = (s.osc : Rat) ∧ ((qclkStart q s).clock q).next = 0 ∧
    (qclkStart q s).rd .QCLK_QCLK_STATUS_STOPPED q = 0 := by
  rw [qclkStart, if_neg (by simp [hen, hrun]), if_neg (by simp [hd0]), if_neg (by simp [ha])]
  generalize hu : (setOrigin q (s.now * 256) ((restartSamples q (s.ifac q) (s.wr .CTRL_ENABLE 1 q (Page.code .qclk))).setClock q
    { s.clock q with running := true, resuming := false, edge0 := s.osc, next := 0, tally := lateTally s (s.clock q) })).wr
      .QCLK_QCLK_STATUS_STOPPED 0 q = u
  have hfollow := spareFollows_only q u
  have hclock : u.clock q = { s.clock q with running := true, resuming := false, edge0 := s.osc, next := 0
                                             tally := lateTally s (s.clock q) } := by
    rw [← hu, wr_clock, setOrigin_clock, State.clock_setClock]
  have henable : u.rd .CTRL_ENABLE q (Page.code .qclk) = 1 := by
    rw [← hu, State.rd_wr_reg _ (by decide), setOrigin_rd (by decide) (by decide) (by decide), State.setClock_rd,
      restartSamples_only q _ _ (.reg .CTRL_ENABLE) (by decide)]
    exact State.rd_wr_same ..
  have hstopped : u.rd .QCLK_QCLK_STATUS_STOPPED q = 0 := by
    rw [← hu]
    exact State.rd_wr_same ..
  rw [clock_of_only hfollow (by decide), hclock]
  exact ⟨(hfollow (.reg .CTRL_ENABLE) (by decide) ..).trans henable, rfl, rfl, rfl,
    (hfollow (.reg .QCLK_QCLK_STATUS_STOPPED) (by decide) ..).trans hstopped⟩

/-- An aligned one waits for the first edge of its restart. -/
theorem qclkStart_resumes (ha : s.rd .QCLK_QCLK_STATUS_ALIGNED q = 1) : qclkStart q s =
    (s.wr .CTRL_ENABLE 1 q (Page.code .qclk)).setClock q { s.clock q with resuming := true } := by
  rw [qclkStart, if_neg (by simp [hen, hrun]), if_neg (by simp [hd0]), if_pos ha]

end

theorem each_disturb_only (xs : List Nat) (s : State) : OnlyChanges visitParts s (each xs disturb s) :=
  (each_keeps (fun _ _ h => disturb_keeps h (.of_beq (by decide +kernel)) _) (.refl _ s)).only

/-- A stopped clock, before the visits of its channels end. -/
def gatedOff (q : Nat) (s : State) : State :=
  ((s.setClock q { s.clock q with running := false, resuming := false, dark := false }).wr .QCLK_QCLK_STATUS_LOCKED 0 q).wr
    .QCLK_QCLK_STATUS_STOPPED 1 q

theorem stopClock_eq (q : Nat) (s : State) : stopClock q s = each (chansOf q) disturb (gatedOff q s) := rfl

theorem stopClock_clock (q : Nat) (s : State) :
    (stopClock q s).clock q = { s.clock q with running := false, resuming := false, dark := false } := by
  rw [stopClock_eq, clock_of_only (each_disturb_only _ _) (by decide)]
  exact State.clock_setClock ..

theorem stopClock_stops (q : Nat) (s : State) : ((stopClock q s).clock q).running = false ∧
    ((stopClock q s).clock q).edge0 = (s.clock q).edge0 := by
  rw [stopClock_clock]
  exact ⟨rfl, rfl⟩

theorem stopClock_clock_ne {q k : Nat} (h : q ≠ k) (s : State) : (stopClock q s).clock k = s.clock k := by
  rw [stopClock_eq, clock_of_only (each_disturb_only _ _) (by decide)]
  exact State.clock_setClock_ne _ h _

theorem stopClock_rd {r : Reg} (hr : .reg r ∉ visitParts) (q : Nat) (s : State) (i x z : Nat) :
    (stopClock q s).rd r i x z = (gatedOff q s).rd r i x z := each_disturb_only (chansOf q) _ (.reg r) hr ..

theorem stopClock_status (q : Nat) (s : State) : (stopClock q s).rd .QCLK_QCLK_STATUS_LOCKED q = 0 ∧
    (stopClock q s).rd .QCLK_QCLK_STATUS_STOPPED q = 1 := by
  rw [stopClock_rd (by decide), stopClock_rd (by decide)]
  simp [gatedOff, Reg.width, Reg.info]

theorem qclkStop_running {s : State} {q : Nat} (h : (s.clock q).running = true) :
    qclkStop q s = stopClock q (s.wr .CTRL_ENABLE 0 q (Page.code .qclk)) := if_pos (.inl h)

/-- A clock that does not run gives up its restart. -/
theorem qclkStop_idle {s : State} {q : Nat} (h : (s.clock q).running = false) : (qclkStop q s).rd .CTRL_ENABLE q (Page.code .qclk) = 0 ∧
    ((qclkStop q s).clock q).running = false ∧ ((qclkStop q s).clock q).resuming = false := by
  unfold qclkStop
  dsimp only
  split
  · rw [stopClock_clock, stopClock_rd (by decide)]
    refine ⟨?_, rfl, rfl⟩
    simp [gatedOff]
  · rw [State.clock_setClock, State.setClock_rd]
    exact ⟨State.rd_wr_same .., h, rfl⟩

/-! ### Loss of lock (R55) -/

/-- A quad whose clock lost its lock. -/
def lostQuad (q : Nat) (s : State) : State := wake 5 (raise .qclk q 0 (stopClock q s))

theorem lostQuad_lost (q : Nat) (s : State) : ((lostQuad q s).clock q).running = false ∧
    (lostQuad q s).rd .QCLK_QCLK_STATUS_LOCKED q = 0 ∧ (lostQuad q s).rd .QCLK_QCLK_STATUS_STOPPED q = 1 ∧
    Raised (lostQuad q s) .qclk q 0 := by
  obtain ⟨hlocked, hstopped⟩ := stopClock_status q s
  refine ⟨?_, ?_, ?_, ?_⟩
  · simp [lostQuad, stopClock_clock]
  · simpa [lostQuad] using hlocked
  · simpa [lostQuad] using hstopped
  · exact (wake_rd _ (by decide) (by decide) (by decide) (by decide) ..).trans (raise_raw ..)

/-- The fields of a clock's page that tell whether it runs. -/
def clockFields : List Reg := [.QCLK_QCLK_STATUS_ON_SPARE, .QCLK_QCLK_STATUS_LOCKED, .QCLK_QCLK_STATUS_READY, .QCLK_QCLK_STATUS_STOPPED]

/-- What the loss at one page leaves of the page of another: its clock, the fields that tell of it, and its loss of lock. -/
structure ClockApart (q : Nat) (s t : State) : Prop where
  clock : t.clock q = s.clock q
  rd : ∀ r ∈ clockFields, ∀ x z, t.rd r q x z = s.rd r q x z
  raised : Raised s .qclk q 0 → Raised t .qclk q 0

namespace ClockApart

variable {q k : Nat} {s t u : State}

theorem refl (q : Nat) (s : State) : ClockApart q s s := ⟨rfl, fun _ _ _ _ => rfl, id⟩

theorem trans (h : ClockApart q s t) (k : ClockApart q t u) : ClockApart q s u :=
  ⟨k.clock.trans h.clock, fun r hr x z => (k.rd r hr x z).trans (h.rd r hr x z), fun hs => k.raised (h.raised hs)⟩

theorem stopClock (hk : k ≠ q) (s : State) : ClockApart q s (stopClock k s) := by
  have hrd (r : Reg) (hr : .reg r ∉ visitParts) (x z : Nat) : (Machine.stopClock k s).rd r q x z = s.rd r q x z := by
    rw [stopClock_rd hr, gatedOff, rd_wr_inst hk, rd_wr_inst hk]
    rfl
  have hfields : ∀ r ∈ clockFields, Part.reg r ∉ visitParts := by decide
  exact ⟨stopClock_clock_ne hk s, fun r hr => hrd r (hfields r hr), fun hs => (hrd _ (by decide) ..).trans hs⟩

theorem raise (s : State) : ClockApart q s (raise .qclk k 0 s) := by
  have hfields : ∀ r ∈ clockFields, Reg.EVT_RAW_RAW ≠ r ∧ Reg.EVT_PEND_PEND ≠ r := by decide
  exact ⟨raise_clock .., fun r hr x z => raise_rd _ (hfields r hr).1 (hfields r hr).2 .., fun hs => hs.raise ..⟩

theorem wake (s : State) : ClockApart q s (wake k s) := by
  have hfields : ∀ r ∈ clockFields, Reg.POWER_STATUS_ENTERING ≠ r ∧ Reg.POWER_STATUS_EXITING ≠ r ∧ Reg.POWER_WAKE_STAT_CLASS ≠ r ∧
    Reg.POWER_WAKE_STAT_FROM ≠ r := by decide
  refine ⟨wake_clock .., fun r hr x z => ?_, fun hs => (wake_rd _ (by decide) (by decide) (by decide) (by decide) ..).trans hs⟩
  obtain ⟨h1, h2, h3, h4⟩ := hfields r hr
  exact wake_rd _ h1 h2 h3 h4 ..

theorem lostQuad (hk : k ≠ q) (s : State) : ClockApart q s (lostQuad k s) := ((stopClock hk s).trans (raise _)).trans (wake _)

theorem on {p : Prop} [Decidable p] {f : State → State} (h : ClockApart q s (f s)) : ClockApart q s (on p f s) := by
  unfold Machine.on
  split
  · exact h
  · exact refl q s

end ClockApart

/-- The spare's own page at its loss. -/
def spareLost (s : State) : State :=
  wake 5 (raise .qclk 12 0 (((s.wr .QCLK_QCLK_STATUS_LOCKED 0 12).wr .QCLK_QCLK_STATUS_READY 0 12).wr .QCLK_QCLK_STATUS_STOPPED 1 12))

theorem lockLost_spare (s : State) : lockLost 12 s = each (upTo 12)
    (fun q => on (s.rd .QCLK_QCLK_STATUS_ON_SPARE q = 1 ∧ clockOn s q = true) (lostQuad q)) (spareLost s) := by
  rw [lockLost, if_pos rfl]
  rfl

theorem spareLost_lost (s : State) : (spareLost s).rd .QCLK_QCLK_STATUS_READY 12 = 0 ∧ (spareLost s).rd .QCLK_QCLK_STATUS_LOCKED 12 = 0 ∧
    Raised (spareLost s) .qclk 12 0 := by
  refine ⟨?_, ?_, (wake_rd _ (by decide) (by decide) (by decide) (by decide) ..).trans (raise_raw ..)⟩
  · simp [spareLost]
  · simp [spareLost]

theorem lockLost_spare_page (s : State) : ClockApart 12 (spareLost s) (lockLost 12 s) := by
  rw [lockLost_spare]
  exact each_rel (ClockApart.refl 12) ClockApart.trans
    (fun q hq t => .on (.lostQuad (Nat.ne_of_lt (mem_upTo.mp hq)) t)) _

/-- Each quad that ran on the spare stops with it. -/
theorem lockLost_spare_quad {s : State} {q : Nat} (hq : q < 12) (hon : s.rd .QCLK_QCLK_STATUS_ON_SPARE q = 1)
    (hrun : (s.clock q).running = true) : ((lockLost 12 s).clock q).running = false ∧
      (lockLost 12 s).rd .QCLK_QCLK_STATUS_STOPPED q = 1 ∧ Raised (lockLost 12 s) .qclk q 0 := by
  obtain ⟨u, -, hafter⟩ := each_own (ClockApart.refl q) ClockApart.trans
    (f := fun q => on (s.rd .QCLK_QCLK_STATUS_ON_SPARE q = 1 ∧ clockOn s q = true) (lostQuad q)) (fun k hk t => .on (.lostQuad hk t))
    (mem_upTo.mpr hq) (upTo_nodup 12) (spareLost s)
  have hserved : s.rd .QCLK_QCLK_STATUS_ON_SPARE q = 1 ∧ clockOn s q = true := ⟨hon, by simp [clockOn, hrun]⟩
  obtain ⟨hstop, -, hstopped, hraised⟩ := lostQuad_lost q u
  rw [on_pos hserved] at hafter
  rw [lockLost_spare]
  exact ⟨(congrArg QuadClock.running hafter.clock).trans hstop, (hafter.rd _ (by decide) ..).trans hstopped, hafter.raised hraised⟩

theorem lockLost_own {s : State} {y : Nat} (hy : y ≠ 12) (hon : s.rd .QCLK_QCLK_STATUS_ON_SPARE y = 0)
    (hrun : (s.clock y).running = true) : lockLost y s = lostQuad y s := by
  rw [lockLost, if_neg hy, if_neg (by omega)]
  exact on_pos (by simp [clockOn, hrun]) _

theorem lockLost_away {s : State} {y : Nat} (hy : y ≠ 12) (hon : s.rd .QCLK_QCLK_STATUS_ON_SPARE y = 1) :
    lockLost y s = s.wr .QCLK_QCLK_STATUS_READY 0 y := by
  rw [lockLost, if_neg hy, if_pos hon]

/-! ### Lock (R58, R59) -/

section
variable {s : State} {y : Synth} (hd : s.dev = .up)
include hd

theorem qclkLocked_own (hy : y.val ≠ 12) (hon : s.rd .QCLK_QCLK_STATUS_ON_SPARE y.val = 0)
    (h : (s.clock y.val).running = true ∨ (s.clock y.val).resuming = true) :
    execQclkLocked y s = .next (s.wr .QCLK_QCLK_STATUS_LOCKED 1 y.val) := by
  rw [execQclkLocked, act_up hd, if_neg hy, if_neg (by omega), on_pos h]

theorem qclkLocked_back (hy : y.val ≠ 12) (hon : s.rd .QCLK_QCLK_STATUS_ON_SPARE y.val = 1) (h : (s.clock y.val).moveBack = true) :
    execQclkLocked y s = .next (s.wr .QCLK_QCLK_STATUS_READY 1 y.val) := by
  rw [execQclkLocked, act_up hd, if_neg hy, if_pos hon, on_pos h]

theorem qclkLocked_spare (h : s.rd .QCLK_COVER_VALID 12 = 1) :
    execQclkLocked 12 s = .next (s.wr .QCLK_QCLK_STATUS_LOCKED 1 12) := by
  rw [execQclkLocked, act_up hd, if_pos (show (12 : Synth).val = 12 from rfl), on_pos h]

end

/-! ### The restart (R56) -/

/-- The skipped edges of a restart: their codes are dropped and the sources move on. -/
def skipEdges (q : Nat) (s : State) : State :=
  let n := resumeIndex s q
  let s1 := each (chansOf q) (fun ch => dropEdges ch (n - (s.clock q).next)) s
  if (s.wheel q).k * s.ifac q < n then
    each (chansOf q) (fun ch t => if (t.cse ch).powered then t.setCse ch { t.cse ch with dropCodes := n % s.ifac q } else t)
      (skipSamples q (n / s.ifac q - (s.wheel q).k) (each (chansOf q) dropChain s1))
  else s1

/-- The page of a restarted clock. -/
def resumePage (q gone : Nat) (s : State) : State :=
  (s.wr .QCLK_MISSED_MISSED (satAdd 32 (s.rd .QCLK_MISSED_MISSED q) gone) q).wr .QCLK_QCLK_STATUS_STOPPED 0 q

theorem resumePage_page (q gone : Nat) (s : State) : (resumePage q gone s).rd .QCLK_QCLK_STATUS_STOPPED q = 0 ∧
    (resumePage q gone s).rd .QCLK_MISSED_MISSED q = satAdd 32 (s.rd .QCLK_MISSED_MISSED q) gone := by
  refine ⟨State.rd_wr_same .., ?_⟩
  rw [resumePage, State.rd_wr_reg _ (by decide), State.rd_wr_same]
  exact satAdd_mod ..

theorem resumeClock_eq (q : Nat) (s : State) : resumeClock q s =
    let u := resumePage q (resumeIndex s q - (s.clock q).next) (skipEdges q s)
    raise .qclk q 4 (({ u with commits := u.commits.map (lateCommit s q) } : State).setClock q
      { s.clock q with running := true, resuming := false, next := resumeIndex s q, tally := lateTally s (s.clock q) }) := rfl

theorem skipEdges_only (q : Nat) (s : State) : OnlyChanges (events ++ [.wheels, .cses, .outs]) s (skipEdges q s) := by
  have hdrop (n : Nat) : Keeps (mask (events ++ [.wheels, .cses, .outs])) s (each (chansOf q) (fun ch => dropEdges ch n) s) :=
    each_keeps (fun _ _ h => dropEdges_keeps h (.of_beq (by decide +kernel)) _ _) (.refl _ s)
  refine Keeps.only (Keeps.ite (each_keeps (fun c t h => .ite (State.setCse_keeps h (.of_beq (by decide +kernel)) ..) h) ?_) (hdrop _))
  exact skipSamples_keeps (each_keeps (fun _ _ h => dropChain_keeps h (.of_beq (by decide +kernel)) _) (hdrop _))
    (.of_beq (by decide +kernel)) ..

theorem resumeClock_clock (q : Nat) (s : State) : (resumeClock q s).clock q =
    { s.clock q with running := true, resuming := false, next := resumeIndex s q, tally := lateTally s (s.clock q) } := by
  rw [resumeClock_eq, raise_clock, State.clock_setClock]

/-- The page of a quad that runs again. -/
theorem resumeClock_page (q : Nat) (s : State) : (resumeClock q s).rd .QCLK_QCLK_STATUS_STOPPED q = 0 ∧
    (resumeClock q s).rd .QCLK_MISSED_MISSED q =
      satAdd 32 (s.rd .QCLK_MISSED_MISSED q) (resumeIndex s q - (s.clock q).next) := by
  obtain ⟨hstopped, hmissed⟩ := resumePage_page q (resumeIndex s q - (s.clock q).next) (skipEdges q s)
  rw [skipEdges_only q s (.reg .QCLK_MISSED_MISSED) (by decide)] at hmissed
  rw [resumeClock_eq, raise_rd _ (by decide) (by decide), raise_rd _ (by decide) (by decide), State.setClock_rd, State.setClock_rd]
  exact ⟨hstopped, hmissed⟩

/-! ### The spare (R59) -/

theorem takeTimeline_rd {r : Reg} (h1 : .QCLK_ORIGIN_LO_ORIGIN_LO ≠ r) (h2 : .QCLK_ORIGIN_HI_ORIGIN_HI ≠ r)
    (h3 : .QCLK_ORIGIN_FRAC_FRAC ≠ r) (q : Nat) (s : State) (i x z : Nat) : (takeTimeline q s).rd r i x z = s.rd r i x z :=
  setOrigin_rd h1 h2 h3 ..

theorem wrEff_rdEff_reg {r r' : Reg} (h : r ≠ r') (s : State) (v i x u i' x' u' : Nat) :
    (s.wrEff r v i x u).rdEff r' i' x' u' = s.rdEff r' i' x' u' := by
  simp [State.rdEff, State.wrEff, Store.get_set_ne' _ _ _ _ (key_ne h i x u i' x' u')]

/-- The spare takes the rate and the interpolation of its quad. -/
theorem takeTimeline_rates {s : State} (hi : Inv s) (q : Nat) : (takeTimeline q s).qn 12 = s.qn q ∧
    (takeTimeline q s).ifLog 12 = s.ifLog q := by
  obtain ⟨-, -, -, heff, -⟩ := hi
  have hn : s.qn q < 2 ^ Reg.width .QCLK_QCLK_N_N := fits_get heff ..
  have hif : s.ifLog q < 2 ^ Reg.width .QCLK_QCLK_CFG_IF_LOG2 := fits_get heff ..
  refine ⟨?_, ?_⟩
  · show ((s.wrEff .QCLK_QCLK_N_N (s.qn q) 12).wrEff .QCLK_QCLK_CFG_IF_LOG2 (s.ifLog q) 12).rdEff .QCLK_QCLK_N_N 12 = _
    rw [wrEff_rdEff_reg (by decide), State.rdEff_wrEff_same, Nat.mod_eq_of_lt hn]
  · show ((s.wrEff .QCLK_QCLK_N_N (s.qn q) 12).wrEff .QCLK_QCLK_CFG_IF_LOG2 (s.ifLog q) 12).rdEff .QCLK_QCLK_CFG_IF_LOG2 12 = _
    rw [State.rdEff_wrEff_same, Nat.mod_eq_of_lt hif]

/-- The page of the spare while it takes a new cover. -/
def coverPage (v : Nat) (s : State) : State :=
  ((((s.wr .QCLK_COVER_QUAD (bits v 3 0) 12).wr .QCLK_COVER_VALID (bit v 8) 12).wr .QCLK_QCLK_STATUS_READY 0 12).wr
    .QCLK_QCLK_STATUS_LOCKED 0 12).wr .QCLK_QCLK_STATUS_STOPPED 0 12

theorem coverPage_fields (v : Nat) (s : State) : (coverPage v s).rd .QCLK_COVER_QUAD 12 = bits v 3 0 ∧
    (coverPage v s).rd .QCLK_COVER_VALID 12 = bit v 8 ∧ (coverPage v s).rd .QCLK_QCLK_STATUS_READY 12 = 0 := by
  have hq := bits_lt v 3 0
  have hv := bit_lt v 8
  simp [coverPage, Reg.width, Reg.info]
  omega

theorem coverPage_inv {s : State} (v m : Nat) (hi : Inv s) : Inv (coverPage v (hostWake m s)) := by
  have hwr {t : State} (h : Keeps everything s t) (r : Reg) (n : Nat) : Keeps everything s (t.wr r n 12) :=
    wr_keeps h (.of_test (fun p _ => everything_whole.all p)) ..
  have hwake : Keeps everything s (hostWake m s) := hostWake_keeps (.refl _ s) (.of_test (fun p _ => everything_whole.all p)) m
  exact (hwr (hwr (hwr (hwr (hwr hwake ..) ..) ..) ..) ..).inv hi

theorem coverPage_rates (v m : Nat) (s : State) (q : Nat) : (coverPage v (hostWake m s)).qn q = s.qn q ∧
    (coverPage v (hostWake m s)).ifLog q = s.ifLog q := by
  simp [coverPage, State.qn, State.ifLog, State.rdEff]

theorem writeCover_ok {s : State} {m v : Nat} (h : ∀ j, j < 12 → j ≠ bits v 3 0 → s.rd .QCLK_QCLK_CFG_USE_SPARE j = 0) :
    writeCover m v s = takeTimeline (bits v 3 0) (coverPage v s) := by
  refine if_neg ?_
  rw [List.any_eq_true]
  rintro ⟨j, hj, hused⟩
  have hfree := h j (mem_upTo.mp hj)
  simp only [Bool.and_eq_true, bne_iff_ne, beq_iff_eq] at hused
  rw [hfree hused.1] at hused
  exact absurd hused.2 (by decide)

theorem writeCover_used {s : State} {m v j : Nat} (hj : j < 12) (hne : j ≠ bits v 3 0) (h : s.rd .QCLK_QCLK_CFG_USE_SPARE j = 1) :
    writeCover m v s = actionErr .qclk 12 errSpareInUse m s := by
  refine if_pos (List.any_eq_true.mpr ⟨j, mem_upTo.mpr hj, ?_⟩)
  simp [hne, h]

theorem rehome_moves (q : Nat) (s : State) : (rehome q s).rd .QCLK_QCLK_STATUS_ON_SPARE q = 1 ∧ Raised (rehome q s) .qclk q 3 := by
  refine ⟨?_, raise_raw ..⟩
  rw [rehome, raise_rd _ (by decide) (by decide), State.setClock_rd]
  exact State.rd_wr_same ..

theorem rehomeBack_moves (q : Nat) (s : State) : (rehomeBack q s).rd .QCLK_QCLK_STATUS_ON_SPARE q = 0 ∧
    ((rehomeBack q s).clock q).moveBack = false ∧ Raised (rehomeBack q s) .qclk q 3 := by
  refine ⟨?_, ?_, raise_raw ..⟩
  · rw [rehomeBack, raise_rd _ (by decide) (by decide), State.rd_wr_reg _ (by decide), State.rd_wr_reg _ (by decide)]
    exact State.rd_wr_same ..
  · rw [rehomeBack, raise_clock, wr_clock, wr_clock, wr_clock, State.clock_setClock]

theorem useSpareClear_requests {s : State} {q : Nat} (h : s.rd .QCLK_QCLK_STATUS_ON_SPARE q = 1) : useSpareClear q s =
    (s.wr .QCLK_QCLK_CFG_USE_SPARE 0 q).setClock q { s.clock q with moveBack := true } := if_pos h

/-! ### The obligation -/

/-- Settles O15: each clock's own page, and the pass over the quads that a lost spare stops. -/
theorem quadAndSpareClocks : Obligations.QuadAndSpareClocks := by
  unfold Obligations.QuadAndSpareClocks
  refine ⟨?starts, ?waits, ?stops, ?withdraws, ?locked, ?readyBack, ?spareLocked, ?settled, ?lost, ?lostAway, ?resumed, ?covers, ?inUse,
    ?spareReady, ?useSet, ?moved, ?useClear, ?movedBack, ?spareLost⟩
  case starts =>
    intro s m q h hen hrun hd0 ha
    have hstart := qclkStart_starts (s := hostWake m.val s) (q := q.val) (by simpa using hen) (by simpa using hrun) (by simpa using hd0)
      (by simpa using ha)
    rw [hostWake_osc] at hstart
    exact ⟨_, cmd_ok h .., hstart⟩
  case waits =>
    intro s m q h hen hrun hd0 ha
    refine ⟨_, cmd_ok h .., ?_⟩
    rw [qclkStart_resumes (by simpa using hen) (by simpa using hrun) (by simpa using hd0) (by simpa using ha), State.setClock_rd,
      State.clock_setClock, hostWake_clock]
    exact ⟨State.rd_wr_same .., rfl, rfl⟩
  case stops =>
    intro s m q h hrun
    have hstop := qclkStop_running (s := hostWake m.val s) (q := q.val) (by simpa using hrun)
    obtain ⟨hstopped, hedge⟩ := stopClock_stops q.val ((hostWake m.val s).wr .CTRL_ENABLE 0 q.val (Page.code .qclk))
    refine ⟨_, cmd_ok h .., ?_⟩
    rw [hstop]
    refine ⟨(stopClock_rd (by decide) ..).trans ?_, hstopped, (stopClock_status ..).2, hedge.trans ?_,
      (stopClock_rd (by decide) ..).trans ?_⟩
    · simp [gatedOff]
    · simp
    · simp [gatedOff]
  case withdraws =>
    intro s m q h hrun
    have hidle := qclkStop_idle (s := hostWake m.val s) (q := q.val) (by simpa using hrun)
    exact ⟨_, cmd_ok h .., hidle⟩
  case locked => exact fun s y hd hy hon h => ⟨_, qclkLocked_own hd hy hon h, State.rd_wr_same ..⟩
  case readyBack => exact fun s y hd hy hon h => ⟨_, qclkLocked_back hd hy hon h, State.rd_wr_same ..⟩
  case spareLocked => exact fun s hd h => ⟨_, qclkLocked_spare hd h, State.rd_wr_same ..⟩
  case settled => exact fun s q hd => ⟨_, act_up hd (fun s => s.wr .QCLK_QCLK_STATUS_SETTLING 0 q.val), State.rd_wr_same ..⟩
  case lost =>
    intro s y hd hy hon hrun
    refine ⟨_, act_up hd _, ?_⟩
    rw [lockLost_own hy hon hrun]
    exact lostQuad_lost ..
  case lostAway =>
    intro s y hd hy hon
    refine ⟨_, act_up hd _, ?_⟩
    rw [lockLost_away hy hon]
    exact ⟨State.rd_wr_same .., rfl⟩
  case resumed =>
    intro s q hd hres hlocked
    obtain ⟨hstopped, hmissed⟩ := resumeClock_page q.val s
    have hclock := resumeClock_clock q.val s
    exact ⟨_, act_on hd ⟨hres, hlocked⟩ _, congrArg QuadClock.running hclock, congrArg QuadClock.next hclock,
      (congrArg QuadClock.edge0 hclock).trans rfl, hstopped, raise_raw .., hmissed⟩
  case covers =>
    intro s m v h hfree hi
    have hpage : Inv (coverPage v.toNat (hostWake m.val s)) := coverPage_inv v.toNat m.val hi
    obtain ⟨hquad, hvalid, hready⟩ := coverPage_fields v.toNat (hostWake m.val s)
    obtain ⟨hn, hif⟩ := takeTimeline_rates hpage (bits v.toNat 3 0)
    refine ⟨_, cmd_ok h .., ?_⟩
    rw [writeCover_ok (by simpa using hfree), takeTimeline_rd (by decide) (by decide) (by decide), takeTimeline_rd (by decide) (by decide)
      (by decide), takeTimeline_rd (by decide) (by decide) (by decide), hn, hif]
    exact ⟨hquad, hvalid, hready, coverPage_rates ..⟩
  case inUse =>
    intro s m v j h hj hused
    refine ⟨_, cmd_ok h .., ?_⟩
    rw [writeCover_used j.isLt hj (by simpa using hused)]
    refine ⟨?_, ?_, recorded_recordErr (hostWake_errors m.val) (by decide) m.isLt ..⟩
    · simp [actionErr]
    · simp [actionErr]
  case spareReady =>
    intro s hd h
    refine ⟨_, act_on hd h _, ?_⟩
    simp [Reg.width, Reg.info]
  case useSet =>
    intro s m q h
    refine ⟨_, cmd_ok h .., ?_⟩
    rw [useSpareSet, State.setClock_rd]
    exact State.rd_wr_same ..
  case moved => exact fun s q hd huse hon hcovers hready => ⟨_, act_on hd ⟨huse, hon, hcovers, hready⟩ _, rehome_moves ..⟩
  case useClear =>
    intro s m q h hon
    refine ⟨_, cmd_ok h .., ?_⟩
    rw [useSpareClear_requests (by simpa using hon), State.clock_setClock, State.setClock_rd, State.setClock_rd]
    refine ⟨State.rd_wr_same .., rfl, ?_⟩
    simpa using hon
  case movedBack => exact fun s q hd hrun hback hon hready => ⟨_, act_on hd ⟨hrun, hback, hon, hready⟩ _, rehomeBack_moves ..⟩
  case spareLost =>
    intro s hd
    have hspare := lockLost_spare_page s
    obtain ⟨hready, hlocked, hraised⟩ := spareLost_lost s
    exact ⟨_, act_up hd _, (hspare.rd _ (by decide) ..).trans hready, (hspare.rd _ (by decide) ..).trans hlocked,
      hspare.raised hraised, fun q hq hon hrun => lockLost_spare_quad hq hon hrun⟩

end Sys2Proof.Machine
end

section
/-! PROOFS. Launch comparators and gang load strobes (R44 to R51, R62), and the statement about them. -/

namespace Sys2Proof.Machine

-- One declaration at a time: the memory limit counts the stack of every thread that elaborates one.
set_option Elab.async false

/-! ### Comparators under the shared operations -/

@[simp] theorem wr_lc (s : State) (r : Reg) (v i x u k : Nat) : (s.wr r v i x u).lc k = s.lc k := rfl
@[simp] theorem raise_lc (s : State) (p : Page) (n b k : Nat) : (raise p n b s).lc k = s.lc k :=
  congrArg (Store.get _ · k) (raise_lcs s p n b)
@[simp] theorem hostWake_lc (m k : Nat) (s : State) : (hostWake m s).lc k = s.lc k := congrArg (Store.get _ · k) (hostWake_lcs s m)

theorem lc_of_only {l : List Part} {s t : State} (h : OnlyChanges l s t) (hl : .lcs ∉ l) (i : Nat) : t.lc i = s.lc i :=
  congrArg (Store.get _ · i) (h _ hl)

/-! ### Arming and disarming (R44, R48, R49) -/

/-- What the arming of a time changes. -/
def armParts : List Part := events ++ fields [.TBASE_LC_CTRL_ARM, .TBASE_LC_LATE] ++ [.lcs, .lcGen]

theorem armTime_only (i c f : Nat) (s : State) : OnlyChanges armParts s (armTime i c f s) :=
  (armTime_keeps (.refl _ s) (.of_beq (by decide +kernel)) ..).only

/-- The comparator that a time is put into. -/
def timed (c f : Nat) (s : State) : Comparator :=
  { c := c, f := f, late := decide (c ≤ s.now + 32), lateAt := if decide (c ≤ s.now + 32) then s.osc else 0 }

theorem timed_late {c f : Nat} {s : State} (h : c ≤ s.now + 32) : (timed c f s).late = true := decide_eq_true h

theorem timed_ahead {c f : Nat} {s : State} (h : s.now + 32 < c) : (timed c f s).late = false := decide_eq_false (Nat.not_le.mpr h)

theorem markLate_lc (i k : Nat) (s : State) : (markLate i s).lc k = s.lc k := by rw [markLate, raise_lc, wr_lc]

theorem markLate_marks (i : Nat) (s : State) : (markLate i s).rd .TBASE_LC_LATE 0 0 i = 1 ∧ Raised (markLate i s) .tbase 0 8 := by
  refine ⟨?_, raise_raw ..⟩
  rw [markLate, raise_rd _ (by decide) (by decide)]
  exact State.rd_wr_same ..

theorem markLate_rd {r : Reg} (h1 : .TBASE_LC_LATE ≠ r) (h2 : .EVT_RAW_RAW ≠ r) (h3 : .EVT_PEND_PEND ≠ r) (i : Nat) (s : State)
    (j x z : Nat) : (markLate i s).rd r j x z = s.rd r j x z := by
  rw [markLate, raise_rd _ h2 h3, State.rd_wr_reg _ h1]

theorem putTime_lc (i c f : Nat) (s : State) : (putTime i c f s).lc i = timed c f s := by
  unfold putTime
  dsimp only
  split
  · rename_i hlate
    rw [markLate_lc, wr_lc, State.lc_setLc, timed, if_pos hlate]
  · rename_i hlate
    rw [wr_lc, State.lc_setLc, timed, if_neg hlate]

theorem putTime_arm (i c f : Nat) (s : State) : (putTime i c f s).rd .TBASE_LC_CTRL_ARM 0 i = 1 := by
  unfold putTime
  dsimp only
  split
  · rw [markLate_rd (by decide) (by decide) (by decide)]
    exact State.rd_wr_same ..
  · exact State.rd_wr_same ..

theorem putTime_late {i c f : Nat} {s : State} (h : c ≤ s.now + 32) :
    (putTime i c f s).rd .TBASE_LC_LATE 0 0 i = 1 ∧ Raised (putTime i c f s) .tbase 0 8 := by
  rw [putTime, if_pos (decide_eq_true h)]
  exact markLate_marks ..

theorem armTime_put {i : Nat} {s : State} (h : lcArmed s i = false ∨ canReplace s i = true) (c f : Nat) :
    armTime i c f s = putTime i c f s := if_pos h

theorem armTime_later {i : Nat} {s : State} (ha : lcArmed s i = true) (hr : canReplace s i = false) (c f : Nat) :
    armTime i c f s = s.setLc i { s.lc i with rearm := some (c, f), cancelled := false } := if_neg (by simp [ha, hr])

/-- A write of ARM = 1 leaves the comparator armed. -/
theorem armTime_arm (i c f : Nat) (s : State) : (armTime i c f s).rd .TBASE_LC_CTRL_ARM 0 i = 1 := by
  by_cases h : lcArmed s i = false ∨ canReplace s i = true
  · rw [armTime_put h, putTime_arm]
  · have ha : s.rd .TBASE_LC_CTRL_ARM 0 i = 1 := by
      rw [not_or, Bool.not_eq_false] at h
      simpa [lcArmed] using h.1
    rw [armTime, if_neg h]
    exact ha

theorem disarm_replaceable {i : Nat} {s : State} (ha : lcArmed s i = true) (hr : canReplace s i = true) :
    disarm i s = (s.setLc i {}).wr .TBASE_LC_CTRL_ARM 0 0 i := by
  rw [disarm, if_neg (by simp [ha]), if_pos hr]

theorem disarm_later {i : Nat} {s : State} (ha : lcArmed s i = true) (hr : canReplace s i = false) :
    disarm i s = s.setLc i { s.lc i with rearm := none, cancelled := true } := by
  rw [disarm, if_neg (by simp [ha]), if_neg (by simp [hr])]

theorem disarm_only (i : Nat) (s : State) : OnlyChanges armParts s (disarm i s) :=
  (disarm_keeps (.refl _ s) (.of_beq (by decide +kernel)) i).only

/-! ### A write of LC_CTRL (R50, R51) -/

/-- The fields of a write of LC_CTRL stored, but ARM. -/
def storeLcCtrl (i v : Nat) (s : State) : State :=
  (((s.wr .TBASE_LC_CTRL_FRAC (bits v 7 0) 0 i).wr .TBASE_LC_CTRL_PERIODIC (bit v 9) 0 i).wr .TBASE_LC_CTRL_SRC_TALLY (bit v 10) 0 i).wr
    .TBASE_LC_CTRL_TAG (bits v 19 12) 0 i

theorem storeLcCtrl_rd {r : Reg} (h1 : .TBASE_LC_CTRL_FRAC ≠ r) (h2 : .TBASE_LC_CTRL_PERIODIC ≠ r) (h3 : .TBASE_LC_CTRL_SRC_TALLY ≠ r)
    (h4 : .TBASE_LC_CTRL_TAG ≠ r) (i v : Nat) (s : State) (j x z : Nat) : (storeLcCtrl i v s).rd r j x z = s.rd r j x z := by
  simp [storeLcCtrl, h1, h2, h3, h4]

theorem storeLcCtrl_fields (i v : Nat) (s : State) : (storeLcCtrl i v s).rd .TBASE_LC_CTRL_FRAC 0 i = bits v 7 0 ∧
    (storeLcCtrl i v s).rd .TBASE_LC_CTRL_PERIODIC 0 i = bit v 9 ∧ (storeLcCtrl i v s).rd .TBASE_LC_CTRL_SRC_TALLY 0 i = bit v 10 ∧
    (storeLcCtrl i v s).rd .TBASE_LC_CTRL_TAG 0 i = bits v 19 12 := by
  have hfrac := bits_lt v 7 0
  have htag := bits_lt v 19 12
  have h9 := bit_lt v 9
  have h10 := bit_lt v 10
  simp [storeLcCtrl, Reg.width, Reg.info]
  omega

theorem storeLcCtrl_staged (i v m k : Nat) (s : State) : stagedTime (storeLcCtrl i v (hostWake m s)) k = stagedTime s k := by
  simp [stagedTime, State.rd64, storeLcCtrl_rd]

theorem storeLcCtrl_armed (i v m k : Nat) (s : State) : lcArmed (storeLcCtrl i v (hostWake m s)) k = lcArmed s k := by
  simp [lcArmed, storeLcCtrl_rd]

theorem storeLcCtrl_lc (i v m k : Nat) (s : State) : (storeLcCtrl i v (hostWake m s)).lc k = s.lc k := by
  simp [storeLcCtrl]

theorem storeLcCtrl_replace (i v m k : Nat) (s : State) : canReplace (storeLcCtrl i v (hostWake m s)) k = canReplace s k := by
  simp [canReplace, storeLcCtrl]

theorem storeLcCtrl_now (i v m : Nat) (s : State) : (storeLcCtrl i v (hostWake m s)).now = s.now := by simp [storeLcCtrl]

theorem applyLcCtrl_arm {i v : Nat} (h : bit v 8 = 1) (s : State) :
    applyLcCtrl i v s = armTime i (stagedTime (storeLcCtrl i v s) i) (bits v 7 0) (storeLcCtrl i v s) := if_pos h

theorem applyLcCtrl_disarm {i v : Nat} (h : bit v 8 = 0) (s : State) : applyLcCtrl i v s = disarm i (storeLcCtrl i v s) :=
  if_neg (by omega)

/-- Arming and disarming leave every field of LC_CTRL but ARM as stored. -/
theorem applyLcCtrl_stored (i v : Nat) (s : State) : OnlyChanges armParts (storeLcCtrl i v s) (applyLcCtrl i v s) := by
  by_cases h : bit v 8 = 1
  · rw [applyLcCtrl_arm h]
    exact armTime_only _ _ _ _
  · rw [applyLcCtrl_disarm (by have := bit_lt v 8; omega)]
    exact disarm_only _ _

/-- A command on LC_CTRL that reaches it. -/
theorem lcCmd_ok {s : State} {m : Master} (h : MayWrite s .tbase 0 m) (i v : Nat) :
    lcCmd m.val i v s = .next (writeLcCtrl m.val i v (hostWake m.val s)) := by
  rw [lcCmd, act_up h.1, gate_ok h.2]

theorem writeLcCtrl_free {s : State} {i v : Nat} (hc : s.rd .TBASE_LC_CTRL_CLAIMED 0 i = 0) (h : bit v 31 = 1) (m : Nat) :
    writeLcCtrl m i v s = applyLcCtrl i v ((s.wr .TBASE_LC_CTRL_CLAIMED 1 0 i).wr .TBASE_LC_CTRL_OWNER m 0 i) := by
  rw [writeLcCtrl, if_pos hc, if_pos h]

theorem writeLcCtrl_own {s : State} {m i v : Nat} (hc : s.rd .TBASE_LC_CTRL_CLAIMED 0 i = 1) (ho : s.rd .TBASE_LC_CTRL_OWNER 0 i = m)
    (h : bit v 31 = 1) : writeLcCtrl m i v s = applyLcCtrl i v s := by
  rw [writeLcCtrl, if_neg (by omega), if_pos ho, if_pos h]

/-- A claim that is granted makes its writer the owner. -/
theorem writeLcCtrl_claims {s : State} {m i v : Nat} (hm : m < 32) (hc : s.rd .TBASE_LC_CTRL_CLAIMED 0 i = 0 ∨
    (s.rd .TBASE_LC_CTRL_CLAIMED 0 i = 1 ∧ s.rd .TBASE_LC_CTRL_OWNER 0 i = m)) (h : bit v 31 = 1) :
    ∃ u, writeLcCtrl m i v s = applyLcCtrl i v u ∧ u.rd .TBASE_LC_CTRL_CLAIMED 0 i = 1 ∧ u.rd .TBASE_LC_CTRL_OWNER 0 i = m := by
  rcases hc with hc | ⟨hc, ho⟩
  · refine ⟨_, writeLcCtrl_free hc h m, ?_, (State.rd_wr_same ..).trans (Nat.mod_eq_of_lt hm)⟩
    simp [Reg.width, Reg.info]
  · exact ⟨s, writeLcCtrl_own hc ho h, hc, ho⟩

theorem writeLcCtrl_release {s : State} {m i v : Nat} (hc : s.rd .TBASE_LC_CTRL_CLAIMED 0 i = 1) (ho : s.rd .TBASE_LC_CTRL_OWNER 0 i = m)
    (h : bit v 31 = 0) : writeLcCtrl m i v s = releaseLc m i s := by
  rw [writeLcCtrl, if_neg (by omega), if_pos ho, if_neg (by omega)]

theorem writeLcCtrl_exhausted {s : State} {m i v : Nat} (hc : s.rd .TBASE_LC_CTRL_CLAIMED 0 i = 1)
    (ho : s.rd .TBASE_LC_CTRL_OWNER 0 i ≠ m) (h : bit v 31 = 1) :
    writeLcCtrl m i v s = recordErr .tbase 0 errComparatorExhausted m true ((0x408 + 0x10 * i) / 4) s := by
  rw [writeLcCtrl, if_neg (by omega), if_neg ho, if_pos h]

/-- The word of a claim has the fields that the command gives, and CLAIMED. -/
theorem claimWord_fields (v : Nat) : bit (v % 2 ^ 31 + 2 ^ 31) 31 = 1 ∧ bits (v % 2 ^ 31 + 2 ^ 31) 7 0 = bits v 7 0 ∧
    bit (v % 2 ^ 31 + 2 ^ 31) 8 = bit v 8 ∧ bit (v % 2 ^ 31 + 2 ^ 31) 9 = bit v 9 ∧ bit (v % 2 ^ 31 + 2 ^ 31) 10 = bit v 10 ∧
    bits (v % 2 ^ 31 + 2 ^ 31) 19 12 = bits v 19 12 := by
  simp only [bit, bits]
  omega

/-- LC_CTRL read and written back has its own fields, with ARM and CLAIMED as given. -/
theorem lcWord_fields {s : State} (hi : Inv s) (i : Nat) {arm claimed : Nat} (ha : arm < 2) (hc : claimed < 2) :
    bit (lcWord s i arm claimed) 31 = claimed ∧ bit (lcWord s i arm claimed) 8 = arm ∧
      bits (lcWord s i arm claimed) 7 0 = s.rd .TBASE_LC_CTRL_FRAC 0 i := by
  have hf : s.rd .TBASE_LC_CTRL_FRAC 0 i < 256 := rd_lt hi.2.2.1 ..
  have hp : s.rd .TBASE_LC_CTRL_PERIODIC 0 i < 2 := rd_lt hi.2.2.1 ..
  have ht : s.rd .TBASE_LC_CTRL_SRC_TALLY 0 i < 2 := rd_lt hi.2.2.1 ..
  have hg : s.rd .TBASE_LC_CTRL_TAG 0 i < 256 := rd_lt hi.2.2.1 ..
  simp only [lcWord, bit, bits]
  omega

/-- An owner's comparator is claimed and its own. -/
theorem ownsLc_iff {s : State} {m i : Nat} :
    ownsLc s m i = true ↔ s.rd .TBASE_LC_CTRL_CLAIMED 0 i = 1 ∧ s.rd .TBASE_LC_CTRL_OWNER 0 i = m := by
  simp [ownsLc]

section
variable {s : State} {m : Master} {i : Lc} (hi : Inv s) (h : MayWrite s .tbase 0 m) (ho : ownsLc s m.val i.val = true)
include hi h ho

theorem lcArm_arms : execLcArm m i s = .next (armTime i.val (stagedTime s i.val) (s.rd .TBASE_LC_CTRL_FRAC 0 i.val)
    (storeLcCtrl i.val (lcWord s i.val 1 1) (hostWake m.val s))) := by
  obtain ⟨h31, h8, hfrac⟩ := lcWord_fields hi i.val (arm := 1) (claimed := 1) (by decide) (by decide)
  rw [← ownsLc_hostWake s m.val] at ho
  rw [execLcArm, lcCmd_ok h, writeLcCtrl_own (ownsLc_iff.mp ho).1 (ownsLc_iff.mp ho).2 h31, applyLcCtrl_arm h8, hfrac, storeLcCtrl_staged]

theorem lcDisarm_disarms : execLcDisarm m i s = .next (disarm i.val (storeLcCtrl i.val (lcWord s i.val 0 1) (hostWake m.val s))) := by
  obtain ⟨h31, h8, hfrac⟩ := lcWord_fields hi i.val (arm := 0) (claimed := 1) (by decide) (by decide)
  rw [← ownsLc_hostWake s m.val] at ho
  rw [execLcDisarm, lcCmd_ok h, writeLcCtrl_own (ownsLc_iff.mp ho).1 (ownsLc_iff.mp ho).2 h31, applyLcCtrl_disarm h8]

theorem lcRelease_releases : execLcRelease m i s = .next (releaseLc m.val i.val (hostWake m.val s)) := by
  obtain ⟨h31, -, -⟩ := lcWord_fields hi i.val (arm := 0) (claimed := 0) (by decide) (by decide)
  rw [← ownsLc_hostWake s m.val] at ho
  rw [execLcRelease, lcCmd_ok h, writeLcCtrl_release (ownsLc_iff.mp ho).1 (ownsLc_iff.mp ho).2 h31]

end

/-! ### Firing (R45, R46, R48) -/

/-- What the users of a firing change. -/
def fireParts : List Part := quadAligns ++ visitEnds ++ fields [.BURNISH_CAP_DONE_COUNT, .BURNISH_STATUS_CAPTURING, .TBASE_GSTB_CFG_ALIGNED,
  .TBASE_GSTB_CFG_ALIGN_ARM, .TBASE_GSTB_STAT_PENDING] ++ [.cap, .commits, .gstbs, .qry]

/-- The users of a firing leave the comparator and its fields alone. -/
theorem fireUsers_leaves (i : Nat) (s : State) : (fireUsers i s).lc i = s.lc i ∧
    ∀ r, .reg r ∉ fireParts → ∀ j x z, (fireUsers i s).rd r j x z = s.rd r j x z := by
  have hquads (x : Instant) (qs : List Nat) : Keeps (mask fireParts) s (each qs (fun q s => alignQuad q x s) (present (0x100 + i) s)) :=
    each_keeps (fun _ _ h => alignQuad_keeps h (.of_beq (by decide +kernel)) ..) (present_keeps (.refl _ s) (.of_beq (by decide +kernel)) _)
  have husers (x : Instant) (late : Bool) (qs ks js cs : List Nat) : OnlyChanges fireParts s (each cs startCapture (fireCommits i x late
      (each js (fun k s => singleTime k x s) (each ks (fun k s => alignGstb k x s)
        (each qs (fun q s => alignQuad q x s) (present (0x100 + i) s)))))) :=
    (each_keeps (fun _ _ h => startCapture_keeps h (.of_beq (by decide +kernel)) _) (fireCommits_keeps
      (each_keeps (fun _ _ h => singleTime_keeps h (.of_beq (by decide +kernel)) ..)
        (each_keeps (fun _ _ h => alignGstb_keeps h (.of_beq (by decide +kernel)) ..) (hquads x qs))) (.of_beq (by decide +kernel))
      ..)).only
  unfold fireUsers
  dsimp only
  split
  · exact ⟨congrArg (Store.get _ · i) (husers _ _ _ _ _ _ .lcs (by decide)), fun r hr => husers _ _ _ _ _ _ (.reg r) hr⟩
  · exact ⟨congrArg (Store.get _ · i) (husers _ _ _ _ _ _ .lcs (by decide)), fun r hr => husers _ _ _ _ _ _ (.reg r) hr⟩

theorem fire_lc (i : Nat) (s : State) : (fireUsers i s).lc i = s.lc i := (fireUsers_leaves i s).1

theorem fireUsers_rd {r : Reg} (hr : .reg r ∉ fireParts) (i : Nat) (s : State) (j x z : Nat) : (fireUsers i s).rd r j x z = s.rd r j x z :=
  (fireUsers_leaves i s).2 r hr j x z

theorem afterFire_disarms {i : Nat} {s : State}
    (h : (s.lc i).cancelled = true ∨ ((s.lc i).rearm = none ∧ s.rd .TBASE_LC_CTRL_PERIODIC 0 i = 0)) :
    (afterFire i s).rd .TBASE_LC_CTRL_ARM 0 i = 0 := by
  have hdisarm : ((s.setLc i {}).wr .TBASE_LC_CTRL_ARM 0 0 i).rd .TBASE_LC_CTRL_ARM 0 i = 0 := State.rd_wr_same ..
  unfold afterFire
  dsimp only
  split
  · exact hdisarm
  · rename_i hc
    obtain ⟨hr, hp⟩ := h.resolve_left hc
    rw [hr]
    dsimp only
    rw [if_neg (by omega)]
    exact hdisarm

theorem afterFire_rearms {i c f : Nat} {s : State} (hc : (s.lc i).cancelled = false) (hr : (s.lc i).rearm = some (c, f)) :
    afterFire i s = putTime i c f s := by
  rw [afterFire, if_neg (by simp [hc]), hr]

theorem afterFire_repeats {i : Nat} {s : State} (hc : (s.lc i).cancelled = false) (hr : (s.lc i).rearm = none)
    (hp : s.rd .TBASE_LC_CTRL_PERIODIC 0 i = 1) :
    ((afterFire i s).lc i).c = ((s.lc i).c + s.rd .TBASE_LC_PERIOD_PERIOD 0 i) % 2 ^ 64 ∧
      (afterFire i s).rd .TBASE_LC_CTRL_ARM 0 i = s.rd .TBASE_LC_CTRL_ARM 0 i := by
  rw [afterFire, if_neg (by simp [hc]), hr]
  dsimp only
  rw [if_pos hp]
  split
  · rw [markLate_lc, State.lc_setLc, markLate_rd (by decide) (by decide) (by decide)]
    exact ⟨rfl, rfl⟩
  · rw [State.lc_setLc]
    exact ⟨rfl, rfl⟩

/-! ### Release (R51) -/

/-- The fields of a comparator's own that a release clears. -/
def lcFields : List Reg := [.TBASE_LC_CTRL_ARM, .TBASE_LC_TIME_LO_C_LO, .TBASE_LC_TIME_HI_C_HI, .TBASE_LC_CTRL_FRAC,
  .TBASE_LC_CTRL_PERIODIC, .TBASE_LC_CTRL_SRC_TALLY, .TBASE_LC_CTRL_TAG, .TBASE_LC_PERIOD_PERIOD, .TBASE_LC_CTRL_OWNER,
  .TBASE_LC_CTRL_CLAIMED]

/-- The comparator's own part of its release. -/
def clearLc (i : Nat) (s : State) : State := each lcFields (fun r s => s.wr r 0 0 i) ((s.setLc i {}).wr .TBASE_LC_LATE 0 0 0 i)

theorem releaseLc_eq (m i : Nat) (s : State) : releaseLc m i s = voidSlots i (releaseUsers m i (releaseQuads i (clearLc i s))) := rfl

theorem clearLc_lc (i : Nat) (s : State) : (clearLc i s).lc i = {} := by
  have hpass := each_rel (R := fun a b : State => b.lc i = a.lc i) (fun _ => rfl) (fun h k => k.trans h) (xs := lcFields)
    (f := fun r s => s.wr r 0 0 i) (fun _ _ _ => rfl) ((s.setLc i {}).wr .TBASE_LC_LATE 0 0 0 i)
  exact hpass.trans (by simp)

theorem clearLc_late (i : Nat) (s : State) : (clearLc i s).rd .TBASE_LC_LATE 0 0 i = 0 := by
  have hpass := each_rel (R := fun a b : State => a.rd .TBASE_LC_LATE 0 0 i = 0 → b.rd .TBASE_LC_LATE 0 0 i = 0) (fun _ => id)
    (fun h k ha => k (h ha)) (xs := lcFields) (f := fun r s => s.wr r 0 0 i) (fun r _ t h => rd_wr_zero h r 0 i 0)
    ((s.setLc i {}).wr .TBASE_LC_LATE 0 0 0 i)
  exact hpass (by simp)

theorem clearLc_fields {r : Reg} (hr : r ∈ lcFields) (i : Nat) (s : State) : (clearLc i s).rd r 0 i = 0 :=
  each_reaches (P := fun t => t.rd r 0 i = 0) (fun t => by simp) (fun r' t h => rd_wr_zero h r' 0 i 0) hr _

/-- The footprint of everything but what is a comparator's own. -/
def beyondLc : Nat := everything ^^^ mask (.lcs :: fields (.TBASE_LC_LATE :: lcFields))

theorem beyondLc_test : beyondLc.testBit (Part.bit .lcs) = false ∧
    ∀ r ∈ .TBASE_LC_LATE :: lcFields, beyondLc.testBit (Part.bit (.reg r)) = false := by
  decide +kernel

/-- What names a released comparator is no comparator's own. -/
theorem releaseLc_own (m i : Nat) (s : State) : Keeps beyondLc (clearLc i s) (releaseLc m i s) := by
  rw [releaseLc_eq]
  exact voidSlots_keeps (releaseUsers_keeps (releaseQuads_keeps (.refl _ _) (.of_beq (by decide +kernel)) _) (.of_beq (by decide +kernel))
    ..) (.of_beq (by decide +kernel)) _

theorem releaseLc_clears (m i : Nat) (s : State) : (releaseLc m i s).lc i = {} ∧ (releaseLc m i s).rd .TBASE_LC_LATE 0 0 i = 0 ∧
    ∀ r ∈ lcFields, (releaseLc m i s).rd r 0 i = 0 := by
  have hown := releaseLc_own m i s
  obtain ⟨hlcs, hfields⟩ := beyondLc_test
  have hlc : (releaseLc m i s).lcs = (clearLc i s).lcs := hown.same .lcs hlcs
  refine ⟨?_, ?_, fun r hr => ?_⟩
  · rw [State.lc, hlc]
    exact clearLc_lc i s
  · exact (hown.same (.reg .TBASE_LC_LATE) (hfields _ (List.mem_cons_self ..)) ..).trans (clearLc_late i s)
  · exact (hown.same (.reg r) (hfields r (List.mem_cons_of_mem _ hr)) ..).trans (clearLc_fields hr i s)

/-! ### Gang load strobes (R50, R62) -/

/-- The write of GSTB_CFG names no comparator, or only ones of its writer. -/
theorem writeGstbCfg_stores {s : State} {m k v : Nat} (ha : bit v 14 = 1 → ownsLc s m (bits v 13 8) = true)
    (hs : bits v 1 0 = 2 → ownsLc s m (bits v 21 16) = true) : (writeGstbCfg m k v s).rd .TBASE_GSTB_CFG_MODE 0 k = bits v 1 0 ∧
      (writeGstbCfg m k v s).rd .TBASE_GSTB_CFG_ALIGN_LC 0 k = bits v 13 8 ∧
      (writeGstbCfg m k v s).rd .TBASE_GSTB_CFG_ALIGN_ARM 0 k = bit v 14 ∧
      (writeGstbCfg m k v s).rd .TBASE_GSTB_CFG_SINGLE_LC 0 k = bits v 21 16 ∧
      (bits v 1 0 ≠ s.rd .TBASE_GSTB_CFG_MODE 0 k → (writeGstbCfg m k v s).rd .TBASE_GSTB_STAT_PENDING 0 k = 0) := by
  have hown : ¬((bit v 14 = 1 ∧ ownsLc s m (bits v 13 8) = false) ∨ (bits v 1 0 = 2 ∧ ownsLc s m (bits v 21 16) = false)) := by
    rintro (⟨h, hn⟩ | ⟨h, hn⟩)
    · simp [ha h] at hn
    · simp [hs h] at hn
  have hmode := bits_lt v 1 0
  have halign := bits_lt v 13 8
  have harm := bit_lt v 14
  have hsingle := bits_lt v 21 16
  rw [writeGstbCfg, if_neg hown]
  dsimp only
  refine ⟨?_, ?_, ?_, ?_, fun hnew => ?_⟩
  · simp [Reg.width, Reg.info]
    omega
  · simp [Reg.width, Reg.info]
    omega
  · simp [Reg.width, Reg.info]
    omega
  · simp [Reg.width, Reg.info]
    omega
  · rw [if_pos hnew]
    simp

theorem writeGstbCfg_foreign {s : State} {m k v : Nat} (h : (bit v 14 = 1 ∧ ownsLc s m (bits v 13 8) = false) ∨
    (bits v 1 0 = 2 ∧ ownsLc s m (bits v 21 16) = false)) :
    writeGstbCfg m k v s = recordErr .tbase 0 errOwnerDenied m true ((0xC0 + 0x10 * k) / 4) s := if_pos h

theorem issueStrobe_counts (k : Nat) (s : State) : (issueStrobe k s).rd .TBASE_GSTB_STAT_STROBES 0 k =
    (s.rd .TBASE_GSTB_STAT_STROBES 0 k + 1) % 2 ^ Reg.TBASE_GSTB_STAT_STROBES.width := by
  have hpins (t : State) : OnlyChanges [.pins] t (strobePins k t) := (strobePins_keeps (.refl _ t) (.of_beq (by decide +kernel)) k).only
  unfold issueStrobe
  dsimp only
  rw [hpins _ (.reg .TBASE_GSTB_STAT_STROBES) (by decide)]
  exact State.rd_wr_same ..

/-! ### The obligation -/

/-- Settles O14: LC_CTRL's word read back, the ways a time is put in, what a firing leaves of the comparator itself, and its release. -/
theorem comparatorsAndStrobes : Obligations.ComparatorsAndStrobes := by
  unfold Obligations.ComparatorsAndStrobes
  refine ⟨?claims, ?exhausted, ?arms, ?armsLater, ?disarms, ?cancels, ?firesLast, ?firesRearmed, ?firesPeriodic, ?releases, ?strobeStored,
    ?strobeDenied, ?strobes⟩
  case claims =>
    intro s m i v h hc
    obtain ⟨h31, hfrac, h8, h9, h10, htag⟩ := claimWord_fields v.toNat
    obtain ⟨u, hwrite, hc, ho⟩ := writeLcCtrl_claims (s := hostWake m.val s) m.isLt (by simpa using hc) h31
    have hstored := applyLcCtrl_stored i.val (v.toNat % 2 ^ 31 + 2 ^ 31) u
    obtain ⟨hf, hp, ht, hg⟩ := storeLcCtrl_fields i.val (v.toNat % 2 ^ 31 + 2 ^ 31) u
    refine ⟨_, (lcCmd_ok h ..).trans (congrArg _ hwrite), ?_, ?_, ?_, ?_, ?_, ?_, fun harm => ?_⟩
    · rw [hstored (.reg .TBASE_LC_CTRL_CLAIMED) (by decide), storeLcCtrl_rd (by decide) (by decide) (by decide) (by decide), hc]
    · rw [hstored (.reg .TBASE_LC_CTRL_OWNER) (by decide), storeLcCtrl_rd (by decide) (by decide) (by decide) (by decide), ho]
    · rw [hstored (.reg .TBASE_LC_CTRL_FRAC) (by decide), hf, hfrac]
    · rw [hstored (.reg .TBASE_LC_CTRL_PERIODIC) (by decide), hp, h9]
    · rw [hstored (.reg .TBASE_LC_CTRL_SRC_TALLY) (by decide), ht, h10]
    · rw [hstored (.reg .TBASE_LC_CTRL_TAG) (by decide), hg, htag]
    · rw [applyLcCtrl_arm (h8.trans harm), armTime_arm]
  case exhausted =>
    intro s m i v h hc ho
    obtain ⟨h31, -⟩ := claimWord_fields v.toNat
    refine ⟨_, lcCmd_ok h .., ?_⟩
    rw [writeLcCtrl_exhausted (by simpa using hc) (by simpa using ho) h31]
    refine ⟨?_, ?_, recorded_recordErr (hostWake_errors m.val) (by decide) m.isLt ..⟩
    · simp
    · simp
  case arms =>
    intro s m i hi h ho hmay
    refine ⟨_, lcArm_arms hi h ho, ?_⟩
    have hput := armTime_put (i := i.val) (s := storeLcCtrl i.val (lcWord s i.val 1 1) (hostWake m.val s))
      (by rwa [storeLcCtrl_armed, storeLcCtrl_replace]) (stagedTime s i.val) (s.rd .TBASE_LC_CTRL_FRAC 0 i.val)
    rw [hput, putTime_lc]
    refine ⟨putTime_arm .., rfl, rfl, fun hlate => ?_, fun hahead => timed_ahead (by rwa [storeLcCtrl_now])⟩
    rw [← storeLcCtrl_now i.val (lcWord s i.val 1 1) m.val] at hlate
    exact ⟨timed_late hlate, putTime_late hlate⟩
  case armsLater =>
    intro s m i hi h ho ha hr
    refine ⟨_, lcArm_arms hi h ho, ?_⟩
    rw [armTime_later (by rwa [storeLcCtrl_armed]) (by rwa [storeLcCtrl_replace]), State.lc_setLc, storeLcCtrl_lc]
  case disarms =>
    intro s m i hi h ho ha hr
    refine ⟨_, lcDisarm_disarms hi h ho, ?_⟩
    rw [disarm_replaceable (by rwa [storeLcCtrl_armed]) (by rwa [storeLcCtrl_replace]), wr_lc, State.lc_setLc]
    exact ⟨State.rd_wr_same .., rfl⟩
  case cancels =>
    intro s m i hi h ho ha hr
    refine ⟨_, lcDisarm_disarms hi h ho, ?_⟩
    rw [disarm_later (by rwa [storeLcCtrl_armed]) (by rwa [storeLcCtrl_replace]), State.lc_setLc, storeLcCtrl_lc]
  case firesLast =>
    intro s i hd hdue hlast
    refine ⟨_, act_on hd hdue _, ?_, fire_presents ..⟩
    rw [fire_eq]
    refine afterFire_disarms ?_
    rw [fire_lc, fireUsers_rd (by decide)]
    exact hlast
  case firesRearmed =>
    intro s i c f hd hdue hc hr
    refine ⟨_, act_on hd hdue _, ?_⟩
    have hpresent := fire_presents i.val s
    rw [fire_eq, afterFire_rearms (by rwa [fire_lc]) (by rwa [fire_lc])] at hpresent ⊢
    rw [putTime_lc]
    exact ⟨putTime_arm .., hpresent, rfl, rfl⟩
  case firesPeriodic =>
    intro s i hd hdue hc hr hp
    have harmed : s.rd .TBASE_LC_CTRL_ARM 0 i.val = 1 := by
      simp only [fireDue, lcArmed, Bool.and_eq_true, beq_iff_eq] at hdue
      exact hdue.1
    obtain ⟨htime, harm⟩ := afterFire_repeats (by rwa [fire_lc]) (by rwa [fire_lc])
      ((fireUsers_rd (by decide) ..).trans hp)
    rw [fire_lc, fireUsers_rd (by decide)] at htime
    exact ⟨_, act_on hd hdue _, harm.trans ((fireUsers_rd (by decide) ..).trans harmed), fire_presents .., htime⟩
  case releases =>
    intro s m i hi h ho
    obtain ⟨hlc, hlate, hfields⟩ := releaseLc_clears m.val i.val (hostWake m.val s)
    exact ⟨_, lcRelease_releases hi h ho, hlc, hlate, fun r hr => hfields r (by revert r; decide)⟩
  case strobeStored =>
    intro s m k v h ha hs
    have hstored := writeGstbCfg_stores (s := hostWake m.val s) (k := k.val) (m := m.val) (v := v.toNat) (by rwa [ownsLc_hostWake])
      (by rwa [ownsLc_hostWake])
    rw [hostWake_rd _ (by decide) (by decide) (by decide) (by decide)] at hstored
    exact ⟨_, cmd_ok h .., hstored⟩
  case strobeDenied =>
    intro s m k v h hforeign
    refine ⟨_, cmd_ok h .., ?_⟩
    rw [writeGstbCfg_foreign (by rwa [ownsLc_hostWake, ownsLc_hostWake])]
    refine ⟨recorded_recordErr (hostWake_errors m.val) (by decide) m.isLt .., ?_⟩
    simp
  case strobes =>
    intro s k hd hdue
    refine ⟨_, act_on hd hdue _, State.rd_wr_same .., ?_⟩
    rw [State.rd_wr_reg _ (by decide), issueStrobe_counts]

end Sys2Proof.Machine
end

section
/-! PROOFS. TALLY frames and the commands they bring (R38, R42, R64 to R68), and the statement about them. -/

namespace Sys2Proof.Machine

-- One declaration at a time: the memory limit counts the stack of every thread that elaborates one.
set_option Elab.async false

/-! ### The checks of a received frame (R65, R66) -/

section
variable {s : State} {fr : List Byte} {ty : Nat} (f : State → State)
  (hsync : s.rd .TBASE_TB_STATUS_TALLY_SYNC = 1) (hty : frameType fr = ty)
include hsync hty

theorem receiveFrame_checks : receiveFrame ty fr f s =
    if frameCrcOk fr = false then raise .tbase 0 7 (s.inc .TBASE_TALLY_CNT_CRC_ERR)
    else if frameTarget s fr = false then s
    else if frameForm fr = false then (wake 3 s).inc .TBASE_TALLY_CNT_DROPPED
    else f (wake 3 s) := by
  rw [receiveFrame, if_neg (by omega), if_neg (fun h => h.2.2 hty)]

theorem receiveFrame_crc (hcrc : frameCrcOk fr = false) :
    receiveFrame ty fr f s = raise .tbase 0 7 (s.inc .TBASE_TALLY_CNT_CRC_ERR) := by
  rw [receiveFrame_checks f hsync hty, if_pos hcrc]

theorem receiveFrame_other (hcrc : frameCrcOk fr = true) (ht : frameTarget s fr = false) : receiveFrame ty fr f s = s := by
  rw [receiveFrame_checks f hsync hty, if_neg (by simp [hcrc]), if_pos ht]

theorem receiveFrame_malformed (hcrc : frameCrcOk fr = true) (ht : frameTarget s fr = true) (hform : frameForm fr = false) :
    receiveFrame ty fr f s = (wake 3 s).inc .TBASE_TALLY_CNT_DROPPED := by
  rw [receiveFrame_checks f hsync hty, if_neg (by simp [hcrc]), if_neg (by simp [ht]), if_pos hform]

theorem receiveFrame_accepted (hcrc : frameCrcOk fr = true) (ht : frameTarget s fr = true) (hform : frameForm fr = true) :
    receiveFrame ty fr f s = f (wake 3 s) := by
  rw [receiveFrame_checks f hsync hty, if_neg (by simp [hcrc]), if_neg (by simp [ht]), if_neg (by simp [hform])]

end

theorem act_gives {s t : State} {f : State → State} (hd : s.dev = .up) (h : f s = t) : act s f = .next t := h ▸ act_up hd f

theorem rd_inc (s : State) (r : Reg) (i x u : Nat) : (s.inc r i x u).rd r i x u = satAdd r.width (s.rd r i x u) 1 := by
  rw [State.inc, State.rd_wr_same, satAdd_mod]

theorem frameLe_lt (fr : List Byte) (n len : Nat) : frameLe fr n len < 256 ^ len :=
  Nat.lt_of_lt_of_le (leValue_lt _) (Nat.pow_le_pow_right (by decide) (List.length_take_le ..))

/-! ### EPOCH frames (R38, R39, R42) -/

section
variable {s : State} {fr : List Byte} {age : Nat} (halign : frameLe fr 4 8 % 4 = 0)
include halign

theorem epochFrame_differs (harm : s.rd .TBASE_TB_STATUS_EPOCH_ARMED = 0)
    (hv : (frameLe fr 4 8 + 4 * s.rd .TBASE_TALLY_CFG_DLY_EDGES + age) % 2 ^ 64 ≠ s.now) : epochFrame fr age s = raise .tbase 0 5 s := by
  rw [epochFrame, if_neg (by omega), if_neg (by omega), if_pos hv]

theorem epochFrame_loads (harm : s.rd .TBASE_TB_STATUS_EPOCH_ARMED = 1) (hsrc : s.rd .TBASE_TB_CFG_EPOCH_SRC = 1)
    (href : s.rd .TBASE_TB_STATUS_REF_PRESENT = 1) :
    epochFrame fr age s = loadEpoch ((frameLe fr 4 8 + 4 * s.rd .TBASE_TALLY_CFG_DLY_EDGES + age) % 2 ^ 64) s := by
  rw [epochFrame, if_neg (by omega), if_pos harm, if_neg (by omega), if_pos href]

theorem epochFrame_waits (harm : s.rd .TBASE_TB_STATUS_EPOCH_ARMED = 1) (hsrc : s.rd .TBASE_TB_CFG_EPOCH_SRC = 1)
    (href : s.rd .TBASE_TB_STATUS_REF_PRESENT = 0) (hnone : s.epoch.value = none) : epochFrame fr age s =
      { s with epoch := { s.epoch with value := some ((frameLe fr 4 8 + 4 * s.rd .TBASE_TALLY_CFG_DLY_EDGES) % 2 ^ 64) } } := by
  rw [epochFrame, if_neg (by omega), if_pos harm, if_neg (by omega), if_neg (by omega), if_neg (by simp [hnone])]

end

/-! ### LAUNCH frames (R67) -/

/-- Comparator i and its armed and staged time are the same in both states. -/
structure SameLc (i : Nat) (s t : State) : Prop where
  lc : t.lc i = s.lc i
  arm : t.rd .TBASE_LC_CTRL_ARM 0 i = s.rd .TBASE_LC_CTRL_ARM 0 i
  lo : t.rd .TBASE_LC_TIME_LO_C_LO 0 i = s.rd .TBASE_LC_TIME_LO_C_LO 0 i
  hi : t.rd .TBASE_LC_TIME_HI_C_HI 0 i = s.rd .TBASE_LC_TIME_HI_C_HI 0 i
  frac : t.rd .TBASE_LC_CTRL_FRAC 0 i = s.rd .TBASE_LC_CTRL_FRAC 0 i

namespace SameLc
variable {i k : Nat} {s t u : State}

theorem refl (s : State) : SameLc i s s := ⟨rfl, rfl, rfl, rfl, rfl⟩

theorem trans (h : SameLc i s t) (g : SameLc i t u) : SameLc i s u :=
  ⟨g.lc.trans h.lc, g.arm.trans h.arm, g.lo.trans h.lo, g.hi.trans h.hi, g.frac.trans h.frac⟩

theorem wr_idx (hk : k ≠ i) (s : State) (r : Reg) (v : Nat) : SameLc i s (s.wr r v 0 k) :=
  ⟨rfl, rd_wr_idx hk .., rd_wr_idx hk .., rd_wr_idx hk .., rd_wr_idx hk ..⟩

theorem setLc (hk : k ≠ i) (s : State) (x : Comparator) : SameLc i s (s.setLc k x) := ⟨State.lc_setLc_ne _ hk _, rfl, rfl, rfl, rfl⟩

theorem markLate (k : Nat) (s : State) : SameLc i s (markLate k s) := by
  refine ⟨markLate_lc .., ?_, ?_, ?_, ?_⟩
  all_goals exact markLate_rd (by decide) (by decide) (by decide) ..

theorem putTime (hk : k ≠ i) (c f : Nat) (s : State) : SameLc i s (putTime k c f s) := by
  have hput (x : Comparator) : SameLc i s ((({ s with lcGen := Store.set 0 s.lcGen k (Store.get 0 s.lcGen k + 1) } : State).setLc k x).wr
      .TBASE_LC_CTRL_ARM 1 0 k) :=
    ⟨State.lc_setLc_ne _ hk _, rd_wr_idx hk .., rd_wr_idx hk .., rd_wr_idx hk .., rd_wr_idx hk ..⟩
  unfold Machine.putTime
  dsimp only
  split
  · exact (hput _).trans (markLate ..)
  · exact hput _

theorem armTime (hk : k ≠ i) (c f : Nat) (s : State) : SameLc i s (armTime k c f s) := by
  unfold Machine.armTime
  split
  · exact putTime hk ..
  · exact setLc hk ..

/-- The frame's time for another comparator. -/
theorem launchArm (hk : k ≠ i) (c f : Nat) (s : State) : SameLc i s (launchArm c f k s) :=
  (((wr_idx hk ..).trans (wr_idx hk ..)).trans (wr_idx hk ..)).trans (armTime hk ..)

end SameLc

/-- An unarmed comparator takes a frame's time, armed and staged. -/
theorem launchArm_arms {i c f : Nat} {s : State} (hc : c < 2 ^ 64) (hf : f < 2 ^ 8) (ha : lcArmed s i = false) :
    (launchArm c f i s).rd .TBASE_LC_CTRL_ARM 0 i = 1 ∧ ((launchArm c f i s).lc i).c = c ∧ ((launchArm c f i s).lc i).f = f ∧
      stagedTime (launchArm c f i s) i = c ∧ (launchArm c f i s).rd .TBASE_LC_CTRL_FRAC 0 i = f := by
  unfold launchArm
  generalize hu : (s.wr64 .TBASE_LC_TIME_LO_C_LO .TBASE_LC_TIME_HI_C_HI c 0 i).wr .TBASE_LC_CTRL_FRAC f 0 i = u
  have hua : lcArmed u i = false := by rw [← hu]; simpa [lcArmed, State.wr64] using ha
  have hlo : u.rd .TBASE_LC_TIME_LO_C_LO 0 i = c % 2 ^ 32 := by rw [← hu]; simp [State.wr64, Reg.width, Reg.info]
  have hhi : u.rd .TBASE_LC_TIME_HI_C_HI 0 i = c / 2 ^ 32 := by
    rw [← hu, State.rd_wr_reg _ (by decide), State.wr64, State.rd_wr_same]
    exact Nat.mod_eq_of_lt (by show c / 2 ^ 32 < 2 ^ 32; omega)
  have hfrac : u.rd .TBASE_LC_CTRL_FRAC 0 i = f := by
    rw [← hu, State.rd_wr_same]
    exact Nat.mod_eq_of_lt hf
  have harmed := armTime_only i c f u
  have hlc : (armTime i c f u).lc i = timed c f u := by rw [armTime_put (.inl hua), putTime_lc]
  refine ⟨armTime_arm .., by rw [hlc]; rfl, by rw [hlc]; rfl, ?_, (harmed (.reg .TBASE_LC_CTRL_FRAC) (by decide) ..).trans hfrac⟩
  rw [stagedTime, State.rd64, (harmed (.reg .TBASE_LC_TIME_LO_C_LO) (by decide) ..).trans hlo,
    (harmed (.reg .TBASE_LC_TIME_HI_C_HI) (by decide) ..).trans hhi]
  omega

theorem launchFrame_arms {fr : List Byte} {s : State} {i : Nat} (hi : i < 64) (hclaimed : s.rd .TBASE_LC_CTRL_CLAIMED 0 i = 1)
    (hsrc : s.rd .TBASE_LC_CTRL_SRC_TALLY 0 i = 1) (htag : s.rd .TBASE_LC_CTRL_TAG 0 i = frameLe fr 4 1) (ha : lcArmed s i = false) :
    (launchFrame fr s).rd .TBASE_LC_CTRL_ARM 0 i = 1 ∧ ((launchFrame fr s).lc i).c = frameLe fr 5 8 ∧
      ((launchFrame fr s).lc i).f = frameLe fr 13 1 ∧ stagedTime (launchFrame fr s) i = frameLe fr 5 8 ∧
      (launchFrame fr s).rd .TBASE_LC_CTRL_FRAC 0 i = frameLe fr 13 1 := by
  unfold launchFrame
  dsimp only
  obtain ⟨u, hbefore, hafter⟩ := each_own (R := SameLc i) (f := launchArm (frameLe fr 5 8) (frameLe fr 13 1)) SameLc.refl SameLc.trans
    (fun k hk t => SameLc.launchArm hk ..) (List.mem_filter.mpr ⟨mem_upTo.mpr hi, by simp [hclaimed, hsrc, htag]⟩)
    ((upTo_nodup 64).filter (fun i => s.rd .TBASE_LC_CTRL_CLAIMED 0 i == 1 && s.rd .TBASE_LC_CTRL_SRC_TALLY 0 i == 1 &&
      s.rd .TBASE_LC_CTRL_TAG 0 i == frameLe fr 4 1)) s
  have hua : lcArmed u i = false := by rw [lcArmed, hbefore.arm]; exact ha
  obtain ⟨harm, hc, hf, hstaged, hfrac⟩ := launchArm_arms (frameLe_lt fr 5 8) (frameLe_lt fr 13 1) hua
  refine ⟨hafter.arm.trans harm, (congrArg Comparator.c hafter.lc).trans hc, (congrArg Comparator.f hafter.lc).trans hf, ?_,
    hafter.frac.trans hfrac⟩
  rw [stagedTime, State.rd64, hafter.lo, hafter.hi]
  exact hstaged

/-! ### SPEED frames (R68) -/

theorem speedFrame_joins {fr : List Byte} {s : State} {q : Nat} (hq : q < 12) (hch : bits (frameLe fr 4 1) 3 0 ≠ 15)
    (hmap : s.rd .TBASE_TSPD_MAP 0 0 q = bits (frameLe fr 4 1) 3 0) :
    ∃ x, ((speedFrame fr s).clock q).tally = (s.clock q).tally ++ [x] ∧ x.target = frameLe fr 5 8 ∧ x.mode = bits (frameLe fr 4 1) 5 4 ∧
      x.ramp = frameLe fr 13 4 ∧ x.blend = frameLe fr 17 3 := by
  unfold speedFrame
  dsimp only
  generalize hx : ({ due := _, late := _, mode := _, target := _, ramp := _, blend := _ } : SpeedCmd) = x
  obtain ⟨u, hbefore, hafter⟩ := each_own (R := fun a b : State => b.clock q = a.clock q)
    (f := fun k (t : State) => t.setClock k { t.clock k with tally := (t.clock k).tally ++ [x] })
    (fun _ => rfl) (fun h g => g.trans h) (fun k hk t => State.clock_setClock_ne _ hk _)
    (List.mem_filter.mpr ⟨mem_upTo.mpr hq, by simp [hch, hmap]⟩)
    ((upTo_nodup 12).filter (fun q => bits (frameLe fr 4 1) 3 0 != 15 && s.rd .TBASE_TSPD_MAP 0 0 q == bits (frameLe fr 4 1) 3 0)) s
  refine ⟨x, ?_, by rw [← hx], by rw [← hx], by rw [← hx], by rw [← hx]⟩
  rw [apply_ite (fun t : State => (t.clock q).tally), raise_clock, ite_self, hafter, State.clock_setClock, hbefore]

theorem Onward.tallyApply {s t : State} (h : Onward s t) (q miss : Nat) (x : SpeedCmd) : Onward s (tallyApply q miss x t) := by
  unfold Machine.tallyApply speedCommand
  dsimp only
  cases (t.wheel q).ramp with
  | none => exact h.same (fun _ _ _ => rfl) rfl rfl
  | some r => exact (Onward.ite (p := r.j < r.k) (h.raise ..) (h.raise ..)).same (fun _ _ _ => rfl) rfl rfl

/-- Quad q with its late commands taken out, on its first sample. -/
def takeLate (q : Nat) (s : State) : State :=
  (s.setClock q { s.clock q with tally := (s.clock q).tally.filter (fun x => !x.late) }).setWheel q
    { s.wheel q with speedAt := some (((s.wheel q).k : Nat), 48) }

/-- One of them applies on sample k. -/
def applyLate (q k : Nat) (x : SpeedCmd) (s : State) : State := raise .tbase 0 8 (tallyApply q (k - s.firstSample q x.due) x s)

theorem tallyDeferred_eq (q : Nat) (s : State) : tallyDeferred q s =
    each ((s.clock q).tally.filter (fun x => x.late)) (applyLate q (s.wheel q).k) (takeLate q s) := rfl

theorem applyLate_only (xs : List SpeedCmd) (q k : Nat) (s : State) : OnlyChanges (.wheels :: events) s (each xs (applyLate q k) s) :=
  (each_keeps (fun x t h => raise_keeps (tallyApply_keeps h (.of_beq (by decide +kernel)) ..) (.of_beq (by decide +kernel)) ..)
    (.refl _ s)).only

/-- The late commands of a quad leave it as they apply, and LC_LATE is raised. -/
theorem tallyDeferred_applies {s : State} {q : Nat} (h : lateWaits s q = true) :
    ((tallyDeferred q s).clock q).tally = (s.clock q).tally.filter (fun x => !x.late) ∧ Raised (tallyDeferred q s) .tbase 0 8 := by
  obtain ⟨x, hx, hlate⟩ : ∃ x ∈ (s.clock q).tally, x.late = true := by
    rw [lateWaits, Bool.and_eq_true, List.any_eq_true] at h
    exact h.2
  rw [tallyDeferred_eq]
  constructor
  · rw [clock_of_only (applyLate_only _ _ _ _) (by decide)]
    exact congrArg QuadClock.tally (State.clock_setClock ..)
  · refine each_reaches (P := fun t => Raised t .tbase 0 8) (x := x) (fun t => raise_raw ..)
      (fun y t ht => (((Onward.refl t).tallyApply ..).raise ..).raised _ _ _ ht) ?_ _
    exact List.mem_filter.mpr ⟨hx, hlate⟩

/-! ### The statement -/

theorem tallyEnWrite_stores {s : State} {m : Master} (h : MayWrite s .tbase 0 m) (en : Bool) :
    ∃ t, execTallyEnWrite m en s = .next t ∧ t.rd .TBASE_TB_CFG_TALLY_EN = (if en then 1 else 0) ∧
      t.rd .TBASE_TB_STATUS_TALLY_SYNC = (if en then s.rd .TBASE_TB_STATUS_TALLY_SYNC else 0) := by
  refine ⟨_, cmd_ok h .., ?_⟩
  cases en
  · simp [writeTallyEn]
  · simp [writeTallyEn, Reg.width, Reg.info]

theorem tallySyncAcquire_syncs {s : State} (hd : s.dev = .up) (h : s.rd .TBASE_TB_CFG_TALLY_EN = 1) :
    ∃ t, execTallySyncAcquire s = .next t ∧ t.rd .TBASE_TB_STATUS_TALLY_SYNC = 1 :=
  ⟨_, act_on hd h _, State.rd_wr_same ..⟩

theorem tallyLos_loses {s : State} (hd : s.dev = .up) (h : s.rd .TBASE_TB_STATUS_TALLY_SYNC = 1) :
    ∃ t, execTallyLos s = .next t ∧ t.rd .TBASE_TB_STATUS_TALLY_SYNC = 0 ∧ Raised t .tbase 0 6 :=
  ⟨_, act_on hd h _, by simp, raise_raw ..⟩

/-- Settles O13: each outcome of a frame's checks has one equation, and a pass over comparators or quads treats each by itself. -/
theorem tallyFrames : Obligations.TallyFrames := by
  unfold Obligations.TallyFrames
  refine ⟨fun s m en h => tallyEnWrite_stores h en, fun s hd h => tallySyncAcquire_syncs hd h, fun s hd h => tallyLos_loses hd h,
    fun s fr age hd hsync hty hcrc => ?crc, fun s fr age hd hsync hty hcrc ht => ?other,
    fun s fr age hd hsync hty hcrc ht hform => ?malformed,
    fun s fr age hd hsync hty hcrc ht hform halign harm hv => ?differs,
    fun s fr age hd hsync hty hcrc ht hform halign harm hsrc href hstep => ?loads,
    fun s fr age hd hsync hty hcrc ht hform halign harm hsrc href hnone => ?waits, fun s fr hd hsync hty hcrc ht hform => ?launch,
    fun s fr hd hsync hty hcrc ht hform hch => ?speed, fun s q hd hlate => ⟨_, act_on hd hlate _, tallyDeferred_applies hlate⟩⟩
  case crc =>
    refine ⟨_, act_gives hd (receiveFrame_crc _ hsync hty hcrc), raise_now .., raise_raw .., ?_⟩
    rw [raise_rd _ (by decide) (by decide), rd_inc]
  case other => exact act_same (receiveFrame_other _ hsync hty hcrc ht)
  case malformed =>
    refine ⟨_, act_gives hd (receiveFrame_malformed _ hsync hty hcrc ht hform), wake_now .., ?_⟩
    rw [rd_inc, wake_rd _ (by decide) (by decide) (by decide) (by decide)]
  case differs =>
    refine ⟨_, act_gives hd ((receiveFrame_accepted _ hsync hty hcrc ht hform).trans
      (epochFrame_differs halign (by simpa using harm) (by simpa using hv))), ?_, raise_raw ..⟩
    simp
  case loads =>
    have hload := loadEpoch_loads (s := wake 3 s)
      (v := (frameLe fr 4 8 + 4 * s.rd .TBASE_TALLY_CFG_DLY_EDGES + age.toNat) % 2 ^ 64) (by simpa using hstep)
    obtain ⟨hnow, -, -, hraised, -⟩ := hload
    refine ⟨_, act_gives hd ((receiveFrame_accepted _ hsync hty hcrc ht hform).trans
      (epochFrame_loads halign (by simpa using harm) (by simpa using hsrc) (by simpa using href))), ?_, ?_⟩
    all_goals simp only [wake_rd, ne_eq, reduceCtorEq, not_false_eq_true]
    · exact hraised
    · exact hnow
  case waits =>
    refine ⟨_, act_gives hd ((receiveFrame_accepted _ hsync hty hcrc ht hform).trans
      (epochFrame_waits halign (by simpa using harm) (by simpa using hsrc) (by simpa using href) (by simpa using hnone))), ?_, ?_⟩
    all_goals simp
  case launch =>
    refine ⟨_, act_gives hd (receiveFrame_accepted _ hsync hty hcrc ht hform),
      fun i hi hclaimed hsrc htag ha => launchFrame_arms hi ?_ ?_ ?_ ?_⟩
    · simpa using hclaimed
    · simpa using hsrc
    · simpa using htag
    · simpa [lcArmed] using ha
  case speed =>
    refine ⟨_, act_gives hd (receiveFrame_accepted _ hsync hty hcrc ht hform), fun q hq hmap => ?_⟩
    have h := speedFrame_joins (s := wake 3 s) hq hch (by simpa using hmap)
    rwa [wake_clock] at h

end Sys2Proof.Machine
end

section
/-! PROOFS. Commands of one quad, channel, queue, strobe, line, pin, capture unit or port change the fields of no other (R58, R61, R135,
R138, R163, R201, R208, R247, R255, R264, R270, R331, R418). -/

namespace Sys2Proof.Machine

-- One declaration at a time: the memory limit counts the stack of every thread that elaborates one.
set_option Elab.async false

/-- No field of the list is one of an error record or of the wake status, which shared parts of a command write. -/
abbrev OwnFields (l : List Reg) : Prop := ∀ q ∈ fields l, q ∉ errors ++ wakes

/-! ### Steps that stay in their place -/

namespace OnlyAt
variable {p : Page} {inst idx : Nat} {l : List Reg} {s t u : State}

theorem refl (s : State) : OnlyAt p inst idx l s s := ⟨fun _ _ _ _ _ _ => rfl, fun _ _ _ _ _ _ => rfl⟩

theorem trans (h : OnlyAt p inst idx l s t) (g : OnlyAt p inst idx l t u) : OnlyAt p inst idx l s u :=
  ⟨fun r hr i x z hp => (g.1 r hr i x z hp).trans (h.1 r hr i x z hp), fun r hr i x z hp => (g.2 r hr i x z hp).trans (h.2 r hr i x z hp)⟩

/-- A step that leaves the fields. -/
theorem regs (h : OnlyAt p inst idx l s t) (hr : u.regs = t.regs) : OnlyAt p inst idx l s u := by
  have hrd (r : Reg) (i x z : Nat) : u.rd r i x z = t.rd r i x z := by rw [State.rd, State.rd, hr]
  exact h.trans ⟨fun r _ i x z _ => hrd r i x z, fun r _ i x z _ => hrd r i x z⟩

/-- A field written in the own place. -/
theorem own (h : OnlyAt p inst idx l s t) (r : Reg) (v z : Nat) (hr : .reg r ∉ errors := by decide) :
    OnlyAt p inst idx l s (t.wr r v inst idx z) := by
  refine h.trans ⟨fun r' _ i x z' hp => ?_, fun r' hr' i x z' _ => State.rd_wr_reg _ (fun e : r = r' => hr (e ▸ hr')) ..⟩
  by_cases e : r = r'
  · subst e
    exact State.rd_wr_place _ _ _ (fun e => hp ⟨e.1.symm, e.2.1.symm⟩)
  · exact State.rd_wr_reg _ e ..

/-- A step that changes none of the fields and records no error. -/
theorem apart (h : OnlyAt p inst idx l s t) {k : List Part} (hk : OnlyChanges k t u) (hl : ∀ q ∈ fields l ++ errors, q ∉ k) :
    OnlyAt p inst idx l s u :=
  h.trans ⟨fun r hr i x z _ => hk (.reg r) (hl _ (List.mem_append_left _ (List.mem_map_of_mem hr))) i x z,
    fun r hr i x z _ => hk (.reg r) (hl _ (List.mem_append_right _ hr)) i x z⟩

/-- A field of neither kind written. -/
theorem wr (h : OnlyAt p inst idx l s t) (r : Reg) (v i x z : Nat) (hr : .reg r ∉ fields l ++ errors := by decide) :
    OnlyAt p inst idx l s (t.wr r v i x z) :=
  h.trans ⟨fun r' hr' _ _ _ _ => State.rd_wr_reg _ (fun e : r = r' => hr (e ▸ List.mem_append_left _ (List.mem_map_of_mem hr'))) ..,
    fun r' hr' _ _ _ _ => State.rd_wr_reg _ (fun e : r = r' => hr (e ▸ List.mem_append_right _ hr')) ..⟩

theorem ite {c : Prop} [Decidable c] {a b : State} (ha : OnlyAt p inst idx l s a) (hb : OnlyAt p inst idx l s b) :
    OnlyAt p inst idx l s (if c then a else b) := by
  split
  · exact ha
  · exact hb

theorem on {c : Prop} [Decidable c] {f : State → State} (h : OnlyAt p inst idx l s t) (hf : OnlyAt p inst idx l s (f t)) :
    OnlyAt p inst idx l s (on c f t) := ite hf h

theorem each {α : Type} {f : α → State → State} (hf : ∀ x t, OnlyAt p inst idx l t (f x t)) (xs : List α)
    (h : OnlyAt p inst idx l s t) : OnlyAt p inst idx l s (each xs f t) :=
  h.trans (each_rel refl trans (fun x _ t => hf x t) t)

/-- An error recorded on the own page. -/
theorem recordErr (h : OnlyAt p inst idx l s t) (hl : OwnFields l) (c m : Nat) (w : Bool) (o : Nat) :
    OnlyAt p inst idx l s (recordErr p inst c m w o t) := by
  refine h.trans ⟨fun r hr i x z _ => ?_, fun r _ i x z hp => ?_⟩
  · exact (recordErr_keeps (.refl (mask errors) t) (.of_beq (by decide +kernel)) ..).only (.reg r)
      (fun e => hl _ (List.mem_map_of_mem hr) (List.mem_append_left _ e)) i x z
  · have hwr (t : State) (r' : Reg) (v : Nat) : (t.wr r' v inst p.code).rd r i x z = t.rd r i x z := by
      by_cases e : r' = r
      · subst e
        exact State.rd_wr_place _ _ _ (fun e => hp ⟨e.1.symm, e.2.1.symm⟩)
      · exact State.rd_wr_reg _ e ..
    unfold Machine.recordErr
    split
    · rw [hwr, hwr, hwr, hwr]
    · exact hwr ..

theorem wake (h : OnlyAt p inst idx l s t) (hl : OwnFields l) (k : Nat) : OnlyAt p inst idx l s (wake k t) := by
  refine h.apart (wake_keeps (.refl (mask wakes) t) (.of_beq (by decide +kernel)) k).only (fun q hq hw => ?_)
  rcases List.mem_append.mp hq with hq | hq
  · exact hl q hq (List.mem_append_right _ hw)
  · exact (show ∀ q ∈ errors, q ∉ wakes by decide) q hq hw

theorem hostWake (h : OnlyAt p inst idx l s t) (hl : OwnFields l) (m : Nat) : OnlyAt p inst idx l s (hostWake m t) :=
  ite (h.wake hl 1) h

/-! ### Commands -/

section
variable {f : State → State}

theorem of_act (h : act s f = .next t) (hf : OnlyAt p inst idx l s (f s)) : OnlyAt p inst idx l s t := by
  unfold act at h
  injection h with h
  exact h ▸ ite hf (refl s)

theorem of_on {c : Prop} [Decidable c] (h : act s (Machine.on c f) = .next t) (hf : OnlyAt p inst idx l s (f s)) :
    OnlyAt p inst idx l s t :=
  of_act h (on (refl s) hf)

theorem of_cmd {off : Nat} {m : Master} (h : cmd s p inst off m f = .next t) (hl : OwnFields l) (hf : ∀ t, OnlyAt p inst idx l t (f t)) :
    OnlyAt p inst idx l s t := by
  have hwake : OnlyAt p inst idx l s (Machine.hostWake m.val s) := (refl s).hostWake hl _
  exact of_act h (ite (hwake.trans (hf _)) (hwake.recordErr hl ..))

theorem of_transfer {j : Nat} (h : transfer j f s = .next t) (hf : ∀ t, OnlyAt p inst idx l t (f t)) : OnlyAt p inst idx l s t :=
  of_on h (((refl s).regs (u := touchPort j s) rfl).trans (hf _))

theorem of_ccc {j : Nat} (h : ccc j f s = .next t) (hl : OwnFields l) (hf : ∀ t, OnlyAt p inst idx l t (f t)) : OnlyAt p inst idx l s t :=
  of_transfer h (fun t => ((refl t).wake hl 1).trans (hf _))

theorem of_direct {j : Nat} (h : direct j f s = .next t) (hl : OwnFields l) (hf : ∀ t, OnlyAt p inst idx l t (f t)) :
    OnlyAt p inst idx l s t :=
  of_on h ((((refl s).regs (u := touchPort j s) rfl).wake hl 1).trans (hf _))

end
end OnlyAt

section
variable {l : List Reg} (s : State)

/-! ### Clocks and strobes (R58, R61) -/

theorem useSpareSet_own (q : Nat) : OnlyAt .qclk q 0 l s (useSpareSet q s) := ((OnlyAt.refl s).own .QCLK_QCLK_CFG_USE_SPARE 1 0).regs rfl

theorem useSpareClear_own (q : Nat) : OnlyAt .qclk q 0 l s (useSpareClear q s) := by
  have hs : OnlyAt .qclk q 0 l s (s.wr .QCLK_QCLK_CFG_USE_SPARE 0 q) := (OnlyAt.refl s).own ..
  unfold useSpareClear
  split
  · exact hs.regs rfl
  · exact hs

theorem writeGstbCfg_own (hl : OwnFields l) (m k v : Nat) : OnlyAt .tbase 0 k l s (writeGstbCfg m k v s) := by
  have hmode : OnlyAt .tbase 0 k l s (if bits v 1 0 ≠ s.rd .TBASE_GSTB_CFG_MODE 0 k then s.wr .TBASE_GSTB_STAT_PENDING 0 0 k else s) :=
    .ite ((OnlyAt.refl s).own ..) (OnlyAt.refl s)
  exact .ite ((OnlyAt.refl s).recordErr hl ..) (((((hmode.own ..).own ..).own ..).own ..).regs rfl)

theorem strobeChan_own {p : Page} {inst idx : Nat} (c code : Nat) : OnlyAt p inst idx l s (strobeChan c code s) :=
  .ite ((OnlyAt.refl s).regs rfl) (.ite ((OnlyAt.refl s).regs rfl) (OnlyAt.refl s))

theorem strobePins_own {p : Page} {inst idx : Nat} (k : Nat) : OnlyAt p inst idx l s (strobePins k s) :=
  .each (fun i t => .on (.refl t) (.regs (.refl t) (u := startPulse i t) rfl)) _ (OnlyAt.refl s)

theorem issueStrobe_own (k : Nat) : OnlyAt .tbase 0 k l s (issueStrobe k s) := by
  unfold issueStrobe
  refine .trans (.own (.each (fun c t => .ite ?_ (.refl t)) _ (.refl s)) .TBASE_GSTB_STAT_STROBES _ 0) (strobePins_own ..)
  cases (t.out c).latch with
  | none => exact OnlyAt.refl t
  | some e => exact strobeChan_own ..

/-! ### Stitchers and queues (R135, R138, R163) -/

theorem endWait_own (q : Nat) : OnlyAt .stitch q 0 l s (endWait q s) := by
  have hs : OnlyAt .stitch q 0 l s (s.setStitcher q { s.stitcher q with wait := .none }) := (OnlyAt.refl s).regs rfl
  exact (((hs.own .STITCH_STATUS_WAIT_TIME 0 0).own .STITCH_STATUS_WAIT_EVENT 0 0).own .STITCH_STATUS_CREDIT_WAIT 0 0).own
    .STITCH_STATUS_GANG_WAIT 0 0

theorem setStitcher_own {t : State} {p : Page} {inst idx : Nat} (h : OnlyAt p inst idx l s t) (q : Nat) (x : Stitcher) :
    OnlyAt p inst idx l s (t.setStitcher q x) := h.regs rfl

theorem waittResume_own (q : Nat) : OnlyAt .stitch q 0 l s (waittResume q s) := by
  unfold waittResume
  cases (s.stitcher q).wait with
  | time => exact setStitcher_own s (setStitcher_own s (endWait_own s q) ..) ..
  | _ => exact OnlyAt.refl s

theorem gangReady_own (q w : Nat) : OnlyAt .stitch q 0 l s (gangReady q w s) :=
  (((OnlyAt.refl s).regs (u := s.setStitcher q _) rfl).own .STITCH_GANG_READY_READY 1 (bits w 55 54)).regs rfl

theorem runOp_own {f : Nat → State → State} (q op : Nat) (hf : ∀ w t, OnlyAt .stitch q 0 l t (f w t)) :
    OnlyAt .stitch q 0 l s (runOp q op f s) := by
  unfold runOp
  cases (s.stitcher q).ir with
  | none => exact OnlyAt.refl s
  | some w => exact .ite (hf w s) (OnlyAt.refl s)

theorem writeLcGrant_own (hl : OwnFields l) (m q hi v : Nat) : OnlyAt .stitch q 0 l s (writeLcGrant m q hi v s) := by
  have hgrants := OnlyAt.each (p := .stitch) (inst := q) (idx := 0) (l := l)
    (f := fun j t => on (s.rd .TBASE_LC_CTRL_CLAIMED 0 (32 * hi + j) == 1 && s.rd .TBASE_LC_CTRL_OWNER 0 (32 * hi + j) == m)
      (fun t => t.wr .STITCH_LC_GRANT (bit v j) q 0 (32 * hi + j)) t)
    (fun j t => .on (.refl t) ((OnlyAt.refl t).own ..)) (upTo 32) (OnlyAt.refl s)
  exact .ite (hgrants.recordErr hl ..) hgrants

theorem clearLatches_own (q v : Nat) : OnlyAt .stitch q 0 l s (clearLatches q v s) :=
  .each (fun e t => .on (.refl t) ((OnlyAt.refl t).own ..)) _ (OnlyAt.refl s)

theorem writeMcCtrl_own (hl : OwnFields l) (m q v : Nat) : OnlyAt .stitch q 0 l s (writeMcCtrl m q v s) :=
  .ite ((OnlyAt.refl s).recordErr hl ..)
    (.ite (((OnlyAt.refl s).regs (u := s.setStitcher q _) rfl).own .STITCH_STATUS_MC_PENDING 1 0) (OnlyAt.refl s))

theorem writeQcfg_own (hl : OwnFields l) (m i v : Nat) : OnlyAt .tack 0 i l s (writeQcfg m i v s) :=
  .ite ((OnlyAt.refl s).recordErr hl ..) ((((OnlyAt.refl s).own ..).own ..).own ..)

/-! ### Channels (R201, R208) -/

theorem finishPlayer_own (c n : Nat) : OnlyAt .cse c 0 l s (finishPlayer c n s) := by
  have hs : OnlyAt .cse c 0 l s (mapBranches c (Sources.finish n) s) := (OnlyAt.refl s).regs rfl
  exact .ite ((hs.regs (u := (mapBranches c (Sources.finish n) s).setCse c _) rfl).own .CSE_STATUS_OPEN 0 0) hs

theorem hostSwitch_own (c : Nat) : OnlyAt .out c 0 l s (hostSwitch c s) :=
  .ite ((OnlyAt.refl s).regs rfl) ((OnlyAt.refl s).own ..)

theorem writeForce_own (c : Nat) (f : Bool) : OnlyAt .out c 0 l s (writeForce c f s) := by
  have hs : OnlyAt .out c 0 l s (s.wr .OUT_FAULT_CTL_FORCE (if f then 1 else 0) c) := (OnlyAt.refl s).own ..
  exact .ite (hs.regs rfl) (hs.own ..)

theorem clearFaults_own (c : Nat) : OnlyAt .out c 0 l s (clearFaults c s) := by
  have hs : OnlyAt .out c 0 l s (s.wr .OUT_FAULT_STAT_SQ_UNDERRUN 0 c) := (OnlyAt.refl s).own ..
  exact .ite (hs.own ..) hs

theorem writeNvmCmd_own (hl : OwnFields l) (m c v : Nat) : OnlyAt .out c 0 l s (writeNvmCmd m c v s) :=
  .ite ((OnlyAt.refl s).recordErr hl ..) (.ite ((OnlyAt.refl s).own ..) (.ite (OnlyAt.refl s)
    ((((OnlyAt.refl s).regs (u := s.setOut c _) rfl).own .OUT_NVM_STAT_BUSY 1 0).regs rfl)))

/-! ### Lines, pins and capture units (R247, R255, R264, R270) -/

theorem writeLineStat_own (hl : OwnFields l) (m i v : Nat) : OnlyAt .harness 0 i l s (writeLineStat m i v s) :=
  .ite ((OnlyAt.refl s).recordErr hl ..) (.ite (((OnlyAt.refl s).own .HARNESS_LINE_STAT_STORM 0 0).regs rfl) (OnlyAt.refl s))

theorem writeLineSrc_own (hl : OwnFields l) (m i w v : Nat) : OnlyAt .harness 0 i l s (writeLineSrc m i w v s) :=
  .ite ((OnlyAt.refl s).recordErr hl ..) ((((OnlyAt.refl s).own ..).own ..).regs rfl)

theorem setPinFields_own (i v : Nat) : OnlyAt .pat 0 i l s (setPinFields i v s) :=
  (((((((((OnlyAt.refl s).own ..).own ..).own ..).own ..).own ..).own ..).own ..).own ..).own ..

theorem settlePin_own {t : State} {i : Nat} (h : OnlyAt .pat 0 i l s t) : OnlyAt .pat 0 i l s (settlePin i t) := h.regs rfl

theorem takePin_own (m i v : Nat) : OnlyAt .pat 0 i l s (takePin m i v s) := by
  unfold takePin
  exact settlePin_own s (((setPinFields_own s i v).own .PAT_PIN_CFG_OWNER m 0).own .PAT_PIN_CFG_CLAIMED 1 0)

theorem freePin_own (i : Nat) : OnlyAt .pat 0 i l s (freePin i s) := by
  unfold freePin
  exact settlePin_own s ((((setPinFields_own s i 0).own .PAT_PIN_CFG_OWNER 0 0).own .PAT_PIN_CFG_CLAIMED 0 0).own .PAT_PIN_PULSE_PULSE 1 0)

theorem writePinCfg_own (hl : OwnFields l) (m i v : Nat) : OnlyAt .pat 0 i l s (writePinCfg m i v s) := by
  have hbusy : OnlyAt .pat 0 i l s (actionErr .pat 0 errPinBusy m s) := (OnlyAt.refl s).recordErr hl ..
  have hagain : OnlyAt .pat 0 i l s (setPinFields i v s) := setPinFields_own s i v
  exact .ite (.ite (takePin_own ..) (.ite hbusy (.ite hbusy (.ite (settlePin_own s hagain) (.ite (hagain.regs rfl) hagain)))))
    (.ite ((OnlyAt.refl s).recordErr hl ..) (.ite hbusy (freePin_own ..)))

theorem dropHolds_own {p : Page} {inst idx : Nat} (u : Nat) : OnlyAt p inst idx l s (dropHolds u s) := by
  refine .each (fun i t => ?_) _ (OnlyAt.refl s)
  split
  · exact (OnlyAt.refl t).regs rfl
  · exact .refl t

theorem writeCapuCfg_own (hl : OwnFields l) (m u v : Nat) : OnlyAt .harness 0 u l s (writeCapuCfg m u v s) := by
  have hovr : OnlyAt .harness 0 u l s (if bit v 3 = 1 then s.wr .HARNESS_CAPU_CFG_OVR 0 0 u else s) :=
    .ite ((OnlyAt.refl s).own ..) (OnlyAt.refl s)
  unfold writeCapuCfg
  dsimp only
  generalize (if bit v 3 = 1 then s.wr .HARNESS_CAPU_CFG_OVR 0 0 u else s) = t at hovr
  have hempty : OnlyAt .harness 0 u l s (t.setCapu u []) := hovr.regs rfl
  have hreleased := ((hempty.own .HARNESS_CAPU_CFG_LEVEL 0 0).own .HARNESS_CAPU_CFG_CLAIMED 0 0).own .HARNESS_CAPU_CFG_OWNER 0 0
  exact .ite (.ite ((hovr.own ..).own ..) (.ite hovr ((OnlyAt.refl s).recordErr hl ..)))
    (.ite (hreleased.trans (dropHolds_own ..)) ((OnlyAt.refl s).recordErr hl ..))

/-- The record read is put into the reader's own words, which are none of the unit's fields. -/
theorem readCapuInfo_own (m u : Nat) : OnlyAt .harness 0 u [.HARNESS_CAPU_CFG_LEVEL] s (readCapuInfo m u s).2 := by
  unfold readCapuInfo
  cases s.capu u with
  | nil => exact OnlyAt.refl s
  | cons r rs =>
    have hlevel : OnlyAt .harness 0 u [.HARNESS_CAPU_CFG_LEVEL] s ((s.setCapu u rs).wr .HARNESS_CAPU_CFG_LEVEL rs.length 0 u) :=
      ((OnlyAt.refl s).regs rfl).own ..
    exact (hlevel.wr _ _ _ _ _).wr _ _ _ _ _

/-! ### Ports (R331) -/

theorem clearDynamic_own (j : Nat) : OnlyAt .i3c j 0 l s (clearDynamic j s) := (((OnlyAt.refl s).own ..).own ..).own ..

theorem setDynamic_own (j a : Nat) : OnlyAt .i3c j 0 l s (setDynamic j a s) := (((OnlyAt.refl s).own ..).own ..).own ..

end

/-! ### The statement -/

theorem synthLocks_own {s t : State} {y : Synth} (h : execQclkLocked y s = .next t) (l : List Reg) : OnlyAt .qclk y.val 0 l s t := by
  refine .of_act h ?_
  split
  · rename_i hy
    rw [hy]
    exact .on (.refl s) ((OnlyAt.refl s).own ..)
  · exact .ite (.on (.refl s) ((OnlyAt.refl s).own ..)) (.on (.refl s) ((OnlyAt.refl s).own ..))

theorem capuInfoRead_own {s t : State} {m : Master} {u : Fin 16} (h : execCapuInfoRead m u s = .next t) :
    OnlyAt .harness 0 u.val [.HARNESS_CAPU_CFG_LEVEL] s t := by
  refine .of_act h (.ite ?_ (((OnlyAt.refl s).recordErr (by decide) ..).regs rfl))
  exact (readCapuInfo_own s m.val u.val).regs rfl

/-- Settles O8: each command is a gate's error record and writes in its own place, with parts of the state that hold no field. -/
theorem ownInstances : Obligations.OwnInstances := by
  unfold Obligations.OwnInstances
  refine ⟨?qclkLocked, ?settleDone, ?useSpareSet, ?useSpareClear, ?gstbModeWrite, ?gstbStrobe, ?playerFinish, ?waittResume, ?lcGrantWrite,
    ?evinLatchClear, ?mcSwitchReq, ?gangReady, ?qcfgWrite, ?sqUnderrunFault, ?stageSwitchReq, ?currentLimitEnter, ?currentLimitExit,
    ?foldbackEnd, ?overtempClear, ?faultForceWrite, ?faultClear, ?nvmProgram, ?nvmReload, ?stormClear, ?lineSrcWrite, ?pinClaim,
    ?pinRelease, ?pinModeWrite, ?capuClaim, ?capuInfoRead, ?rstdaa, ?setnewda, ?setmwl, ?setmrl, ?enthdr0, ?hdrExit, ?portHealthReturn⟩
  case qclkLocked => exact fun s t y h => synthLocks_own h _
  case settleDone => exact fun s t q (h : execQclkSettleDone q s = .next t) => .of_act h ((OnlyAt.refl s).own ..)
  case useSpareSet => exact fun s t m q h => .of_cmd h (by decide) fun t => useSpareSet_own t q.val
  case useSpareClear => exact fun s t m q h => .of_cmd h (by decide) fun t => useSpareClear_own t q.val
  case gstbModeWrite => exact fun s t m k v h => .of_cmd h (by decide) fun t => writeGstbCfg_own t (by decide) ..
  case gstbStrobe => exact fun s t k h => .of_on h ((issueStrobe_own s k.val).own ..)
  case playerFinish => exact fun s t c n h => .of_on h (finishPlayer_own ..)
  case waittResume => exact fun s t q h => .of_on h (waittResume_own ..)
  case lcGrantWrite => exact fun s t m q hi v h => .of_cmd h (by decide) fun t => writeLcGrant_own t (by decide) ..
  case evinLatchClear => exact fun s t m q v h => .of_cmd h (by decide) fun t => clearLatches_own ..
  case mcSwitchReq => exact fun s t m q h => .of_cmd h (by decide) fun t => writeMcCtrl_own t (by decide) ..
  case gangReady => exact fun s t q h => .of_act h (runOp_own s _ _ fun w t => .ite (gangReady_own ..) (.refl t))
  case qcfgWrite => exact fun s t m i v h => .of_cmd h (by decide) fun t => writeQcfg_own t (by decide) ..
  case sqUnderrunFault => exact fun s t c h => .of_on h (((OnlyAt.refl s).regs rfl).own ..)
  case stageSwitchReq => exact fun s t m c h => .of_cmd h (by decide) fun t => hostSwitch_own ..
  case currentLimitEnter => exact fun s t c h => .of_on h (((OnlyAt.refl s).regs rfl).own ..)
  case currentLimitExit => exact fun s t c h => .of_on h (((OnlyAt.refl s).regs rfl).own ..)
  case foldbackEnd => exact fun s t c h => .of_on h (((OnlyAt.refl s).regs rfl).own ..)
  case overtempClear => exact fun s t c h => .of_on h (((OnlyAt.refl s).regs rfl).own ..)
  case faultForceWrite => exact fun s t m c f h => .of_cmd h (by decide) fun t => writeForce_own ..
  case faultClear => exact fun s t m c h => .of_cmd h (by decide) fun t => clearFaults_own ..
  case nvmProgram => exact fun s t m c k h => .of_cmd h (by decide) fun t => writeNvmCmd_own t (by decide) ..
  case nvmReload => exact fun s t m c k h => .of_cmd h (by decide) fun t => writeNvmCmd_own t (by decide) ..
  case stormClear => exact fun s t m i h => .of_cmd h (by decide) fun t => writeLineStat_own t (by decide) ..
  case lineSrcWrite => exact fun s t m i w v h => .of_cmd h (by decide) fun t => writeLineSrc_own t (by decide) ..
  case pinClaim => exact fun s t m i v h => .of_cmd h (by decide) fun t => writePinCfg_own t (by decide) ..
  case pinRelease => exact fun s t m i h => .of_cmd h (by decide) fun t => writePinCfg_own t (by decide) ..
  case pinModeWrite => exact fun s t m i omode invert h => .of_cmd h (by decide) fun t => writePinCfg_own t (by decide) ..
  case capuClaim => exact fun s t m u h => .of_cmd h (by decide) fun t => writeCapuCfg_own t (by decide) ..
  case capuInfoRead => exact fun s t m u h => capuInfoRead_own h
  case rstdaa => exact fun s t j h => .of_transfer h fun t => clearDynamic_own ..
  case setnewda => exact fun s t j a h => .of_direct h (by decide) fun t => setDynamic_own ..
  case setmwl => exact fun s t j v (h : execSetmwl j v s = .next t) => .of_ccc h (by decide) fun t => (OnlyAt.refl t).own ..
  case setmrl => exact fun s t j v (h : execSetmrl j v s = .next t) => .of_ccc h (by decide) fun t => (OnlyAt.refl t).own ..
  case enthdr0 => exact fun s t j (h : execEnthdr0 j s = .next t) => .of_transfer h fun t => (OnlyAt.refl t).own ..
  case hdrExit => exact fun s t j (h : execHdrExit j s = .next t) => .of_transfer h fun t => (OnlyAt.refl t).own ..
  case portHealthReturn => exact fun s t j h => .of_on h (((OnlyAt.refl s).regs rfl).own ..)

end Sys2Proof.Machine
end

section
/-! PROOFS. The codes of a synthesis sample where the interpolation factor lies past its range (R52, R109). -/

namespace Sys2Proof.Machine

-- One declaration at a time: the memory limit counts the stack of every thread that elaborates one.
set_option Elab.async false

/-! ### More codes than the interpolator's window gives (R109) -/

/-- Quad 3 with IF_LOG2 5 in effect, which R52 keeps any write from reaching; of its channels only 12 is powered, with as many samples in
its interpolator as that looks ahead. -/
def wideQuad : State :=
  (((((({ State.reset with dev := .up } : State).wrEff .QCLK_QCLK_CFG_IF_LOG2 5 3).setCse 12
    { dither := 13, chain := List.replicate 22 ⟨{}, none⟩ }).setCse 13 { powered := false }).setCse 14 { powered := false }).setCse 15
    { powered := false })

theorem wideQuad_ready : sampleReady wideQuad 3 = true ∧ rateEdge wideQuad 3 = none ∧ (wideQuad.cse 12).powered = true ∧
    (wideQuad.cse 12).dropCodes = 0 ∧ wideQuad.rd .OUT_STATUS_GANG_ACTIVE 12 = 0 ∧
    (wideQuad.cse 12).chain.length = chainLead (wideQuad.ifLog 3) := by decide +kernel

/-- Of the 46 values of its window the interpolator passes over 22, which leaves 24 codes where IF asks for 32. -/
theorem wideQuad_codes : ((quadSample 3 wideQuad).out 12).sq.length + ((quadSample 3 wideQuad).out 12).inter.length = 24 ∧
    (wideQuad.out 12).sq.length = 0 ∧ wideQuad.ifac 3 = 32 := by decide +kernel

/-- Refutes O16: with IF_LOG2 5 in effect, which the statement does not exclude, a sample adds 24 codes and not IF = 32. -/
theorem not_synthesisAdvances : ¬ Obligations.SynthesisAdvances := by
  rintro ⟨-, hcodes, -⟩
  obtain ⟨hready, hrate, hpow, hdrop, hgang, hchain⟩ := wideQuad_ready
  obtain ⟨h24, hsq, hif⟩ := wideQuad_codes
  obtain ⟨t, ht, hadds⟩ := hcodes wideQuad 3 rfl hready hrate
  have hstep : exec (.synthesisSample 3) wideQuad = .next (quadSample 3 wideQuad) := act_on rfl hready _
  cases Host.Outcome.next.inj (hstep.symm.trans ht)
  have h32 := hadds 12 (by decide) hpow hdrop hgang hchain
  rw [h24, hsq, show wideQuad.ifac (3 : Quad).val = 32 from hif] at h32
  exact absurd h32 (by decide)

end Sys2Proof.Machine
end

section
/-! PROOFS. Allocation, enable, soft reset and power of a CSE, and power of a Stitcher (R96, R113, R117, R415). -/

namespace Sys2Proof.Machine

-- One declaration at a time: the memory limit counts the stack of every thread that elaborates one.
set_option Elab.async false

/-! ### The allocation of a quad (R113) -/

theorem fs_nonneg (s : State) (q : Nat) : 0 ≤ s.fs q := by unfold State.fs; positivity

/-- A budget that holds for a count holds for every smaller one. -/
theorem withinBudget_mono {s : State} {q n n' b : Nat} (hn : n' ≤ n) (h : withinBudget s q n b = true) :
    withinBudget s q n' b = true := by
  simp only [withinBudget, decide_eq_true_eq] at h ⊢
  exact le_trans (mul_le_mul_of_nonneg_right (by exact_mod_cast hn) (fs_nonneg s q)) h

/-- A channel's counts take effect as they stand, with no clamp. -/
def allotWhole (s : State) (c : Nat) (t : State) : State :=
  ((t.wr .CSE_ALLOC_EFF_PART_EFF (allocOf s c).1 c).wr .CSE_ALLOC_EFF_PLAYERS_EFF (allocOf s c).2 c).wr .CSE_STATUS_BUDGET_CLAMP 0 c

/-- Where the largest counts stay within the budgets, no channel of the quad is clamped. -/
theorem recomputeAlloc_within {s : State} {q : Nat} (hp : withinBudget s q 128 512000000 = true)
    (hy : withinBudget s q 8 64000000 = true) : recomputeAlloc q s = each (chansOf q) (allotWhole s) s := by
  have hsumP : ((chansOf q).map (fun c => (allocOf s c).1)).foldl (· + ·) 0 ≤ 128 := by
    simp only [chansOf, rangeFrom, List.map, List.foldl, allocOf]; omega
  have hsumY : ((chansOf q).map (fun c => (allocOf s c).2)).foldl (· + ·) 0 ≤ 8 := by
    simp only [chansOf, rangeFrom, List.map, List.foldl, allocOf]; omega
  simp [recomputeAlloc, withinBudget_mono hsumP hp, withinBudget_mono hsumY hy]
  rfl

/-- Channel c reads the same in both states. -/
def SameChan (c : Nat) (a b : State) : Prop := ∀ r x u, b.rd r c x u = a.rd r c x u

theorem allotWhole_apart {c d : Nat} (h : d ≠ c) (s t : State) : SameChan c t (allotWhole s d t) := fun r x u => by
  simp [allotWhole, rd_wr_inst h]

/-- The recomputation gives each channel of the quad its own counts. -/
theorem recomputeAlloc_own {s : State} {q c : Nat} (hc : c ∈ chansOf q) (hp : withinBudget s q 128 512000000 = true)
    (hy : withinBudget s q 8 64000000 = true) : ∃ u, SameChan c s u ∧ SameChan c (allotWhole s c u) (recomputeAlloc q s) := by
  rw [recomputeAlloc_within hp hy]
  exact each_own (R := SameChan c) (fun _ _ _ _ => rfl) (fun h k r x u => (k r x u).trans (h r x u))
    (fun d hd => allotWhole_apart hd s) hc (chansOf_nodup q) s

theorem mem_chansOf_quadOf (c : Nat) : c ∈ chansOf (quadOf c) := mem_rangeFrom.mpr (by unfold quadOf; omega)

/-- A rate depends on nothing but the values in effect. -/
theorem withinBudget_congr {s t : State} (h : t.eff = s.eff) (q n b : Nat) : withinBudget t q n b = withinBudget s q n b := by
  simp [withinBudget, State.fs, State.qn, State.ifac, State.ifLog, State.rdEff, h]

theorem writeAlloc_stores {s : State} {c : Nat} (v : Nat) (hp : withinBudget s (quadOf c) 128 512000000 = true)
    (hy : withinBudget s (quadOf c) 8 64000000 = true) :
    (writeAlloc c v s).rd .CSE_ALLOC_PART_MAX c = bits v 5 0 ∧ (writeAlloc c v s).rd .CSE_ALLOC_PLAYERS c = bits v 9 8 ∧
      (writeAlloc c v s).rd .CSE_ALLOC_EFF_PART_EFF c = min 32 (bits v 5 0) ∧
      (writeAlloc c v s).rd .CSE_ALLOC_EFF_PLAYERS_EFF c = min 2 (bits v 9 8) ∧
      (writeAlloc c v s).rd .CSE_STATUS_BUDGET_CLAMP c = 0 := by
  have h5 : bits v 5 0 < 2 ^ Reg.CSE_ALLOC_PART_MAX.width := bits_lt v 5 0
  have h9 : bits v 9 8 < 2 ^ Reg.CSE_ALLOC_PLAYERS.width := bits_lt v 9 8
  obtain ⟨u, hu, ht⟩ := recomputeAlloc_own (s := (s.wr .CSE_ALLOC_PART_MAX (bits v 5 0) c).wr .CSE_ALLOC_PLAYERS (bits v 9 8) c)
    (mem_chansOf_quadOf c) (by rwa [withinBudget_congr rfl]) (by rwa [withinBudget_congr rfl])
  have hP : min 32 (bits v 5 0) % 2 ^ Reg.CSE_ALLOC_EFF_PART_EFF.width = min 32 (bits v 5 0) :=
    Nat.mod_eq_of_lt (lt_of_le_of_lt (Nat.min_le_right ..) h5)
  have hY : min 2 (bits v 9 8) % 2 ^ Reg.CSE_ALLOC_EFF_PLAYERS_EFF.width = min 2 (bits v 9 8) :=
    Nat.mod_eq_of_lt (lt_of_le_of_lt (Nat.min_le_right ..) h9)
  have ht (r : Reg) : (writeAlloc c v s).rd r c = _ := ht r 0 0
  simp [ht, allotWhole, hu _ 0 0, allocOf, Nat.mod_eq_of_lt h5, Nat.mod_eq_of_lt h9, hP, hY]


/-! ### Enable, soft reset and power of a CSE (R415) -/

@[simp] theorem hostWake_cse (m c : Nat) (s : State) : (hostWake m s).cse c = s.cse c :=
  congrArg (Store.get _ · c) (hostWake_cses s m)

@[simp] theorem wr_cse (s : State) (r : Reg) (v i x u c : Nat) : (s.wr r v i x u).cse c = s.cse c := rfl

@[simp] theorem setOut_cse (s : State) (d : Nat) (o : OutChan) (c : Nat) : (s.setOut d o).cse c = s.cse c := rfl

@[simp] theorem pushCodes_cse (d : Nat) (es : List SqEntry) (s : State) (c : Nat) : (pushCodes d es s).cse c = s.cse c := rfl

theorem pushCodes_rd (d : Nat) (es : List SqEntry) (s : State) (r : Reg) (i x u : Nat) :
    (pushCodes d es s).rd r i x u = s.rd r i x u := rfl

@[simp] theorem dropCommits_cse (p : Page) (n : Nat) (s : State) (c : Nat) : (dropCommits p n s).cse c = s.cse c := rfl

/-- A CSE that comes on is powered. -/
theorem powerUpCse_powered (c : Nat) (s : State) : ((powerUpCse c s).cse c).powered = true := by
  rw [powerUpCse, pushCodes_cse, setOut_cse, State.cse_setCse]

@[simp] theorem powerUpCse_rd (c : Nat) (s : State) (r : Reg) (i x u : Nat) : (powerUpCse c s).rd r i x u = s.rd r i x u := by
  rw [powerUpCse, pushCodes_rd, State.setOut_rd, State.setCse_rd]

/-- The CSE is powered, up from now on where it was not. -/
def ensurePower (c : Nat) (s : State) : State := if (s.cse c).powered then s else powerUpCse c s

theorem ensurePower_powered (c : Nat) (s : State) : ((ensurePower c s).cse c).powered = true := by
  unfold ensurePower
  split
  case isTrue hon => exact hon
  case isFalse => exact powerUpCse_powered ..

@[simp] theorem ensurePower_rd (c : Nat) (s : State) (r : Reg) (i x u : Nat) : (ensurePower c s).rd r i x u = s.rd r i x u := by
  unfold ensurePower
  split
  case isTrue => rfl
  case isFalse => exact powerUpCse_rd ..

/-- A rising ENABLE powers the CSE and forgets what REPEAT would repeat. -/
theorem writeCseEnable_rises {c : Nat} {s : State} (h : s.rd .CTRL_ENABLE c (Page.code .cse) = 0) :
    ∃ u, u = ensurePower c (s.wr .CTRL_ENABLE 1 c (Page.code .cse)) ∧
      writeCseEnable c true s = (u.setCse c { u.cse c with last := none }).wr .CSE_STATUS_RUNNING 0 c :=
  ⟨_, rfl, if_pos ⟨rfl, h⟩⟩

theorem writeCseEnable_stays {c : Nat} {en : Bool} {s : State} (h : ¬(en = true ∧ s.rd .CTRL_ENABLE c (Page.code .cse) = 0)) :
    writeCseEnable c en s = s.wr .CTRL_ENABLE (if en then 1 else 0) c (Page.code .cse) := if_neg h

theorem boolBit_mod (b : Bool) : (if b then 1 else 0) % 2 ^ Reg.CTRL_ENABLE.width = if b then 1 else 0 := by cases b <;> rfl

theorem writeCseEnable_stores (c : Nat) (en : Bool) (s : State) :
    (writeCseEnable c en s).rd .CTRL_ENABLE c (Page.code .cse) = if en then 1 else 0 := by
  by_cases h : en = true ∧ s.rd .CTRL_ENABLE c (Page.code .cse) = 0
  · obtain ⟨rfl, h⟩ := h
    obtain ⟨u, rfl, ht⟩ := writeCseEnable_rises h
    rw [ht, State.rd_wr_reg _ (by decide), State.setCse_rd, ensurePower_rd, State.rd_wr_same]
    rfl
  · rw [writeCseEnable_stays h, State.rd_wr_same, boolBit_mod]

theorem writeCseEnable_powers {c : Nat} {s : State} (h : s.rd .CTRL_ENABLE c (Page.code .cse) = 0) :
    ((writeCseEnable c true s).cse c).powered = true ∧ ((writeCseEnable c true s).cse c).last = none := by
  obtain ⟨u, rfl, ht⟩ := writeCseEnable_rises h
  rw [ht, wr_cse, State.cse_setCse]
  exact ⟨ensurePower_powered .., rfl⟩

/-- The CSE after a soft reset. -/
def Cse.afresh (c : Nat) (e : Cse) : Cse :=
  { src := { hist := e.src.hist, patCount := e.src.patCount, patGen := e.src.patGen }, altCount := e.altCount
    chain := e.chain.map (fun w => { w with alt := none }), dither := c + 1, powered := e.powered, dropCodes := e.dropCodes }

@[simp] theorem resetCse_cse (c : Nat) (s : State) : (resetCse c s).cse c = (s.cse c).afresh c := by
  simp only [resetCse, each, List.foldl, wr_cse, State.cse_setCse]
  rfl

theorem resetCse_status (c : Nat) (s : State) :
    (resetCse c s).rd .CSE_STATUS_IDLE c = 1 ∧ (resetCse c s).rd .CSE_STATUS_RUNNING c = 0 := by
  simp [resetCse, each, Reg.width, Reg.info]

/-- A soft reset touches no field but those of the CSE's status and current descriptor. -/
theorem resetCse_only (c : Nat) (s : State) : OnlyChanges [.reg .CSE_STATUS_RUNNING, .reg .CSE_STATUS_OPEN, .reg .CSE_CUR_DESC_KIND,
    .reg .CSE_CUR_DESC_PRIO, .reg .CSE_CUR_DESC_SEQ, .reg .CSE_STATUS_IDLE, .cses] s (resetCse c s) :=
  (resetCse_keeps (.refl _ s) (.of_beq (by decide +kernel)) c).only

theorem writeCsePower_off {c : Nat} {s : State} (ho : outEnabled s c = false) (he : s.rd .CTRL_ENABLE c (Page.code .cse) = 0) :
    ((writeCsePower c true s).cse c).powered = false ∧ (writeCsePower c true s).rd .CTRL_PWR_REQ c (Page.code .cse) = 1 ∧
      ((writeCsePower c true s).out c).sq = [] := by
  unfold writeCsePower
  rw [if_neg (by simp [ho]), if_neg (by simp [he]), if_pos rfl]
  refine ⟨?_, ?_, ?_⟩
  · rw [setOut_cse, State.cse_setCse]
  · rw [State.setOut_rd, State.setCse_rd, resetCse_only c _ (.reg .CTRL_PWR_REQ) (by decide), State.rd_wr_same]
    rfl
  · rw [State.out_setOut]

theorem writeCsePower_on {c : Nat} {s : State} (he : s.rd .CTRL_ENABLE c (Page.code .cse) = 0) :
    writeCsePower c false s = ensurePower c (s.wr .CTRL_PWR_REQ 0 c (Page.code .cse)) := by
  unfold writeCsePower
  rw [if_neg (by simp), if_neg (by simp [he])]
  rfl

/-- What a soft reset of a Stitcher may change. -/
def stitchResetParts : List Part :=
  [.reg .CTRL_ENABLE, .reg .SHADOW_CMD_PENDING, .reg .STITCH_EVIN_IGNORED_COUNT, .reg .STITCH_FAULT_CAUSE, .reg .STITCH_FAULT_PC,
    .reg .STITCH_GANG_READY_READY, .reg .STITCH_PUSH_CNT_COUNT, .reg .STITCH_STALL_CNT_COUNT, .reg .STITCH_STATUS_CREDIT_WAIT,
    .reg .STITCH_STATUS_FAULTED, .reg .STITCH_STATUS_GANG_WAIT, .reg .STITCH_STATUS_HALTED, .reg .STITCH_STATUS_MC_BANK,
    .reg .STITCH_STATUS_MC_PENDING, .reg .STITCH_STATUS_RUNNING, .reg .STITCH_STATUS_WAIT_EVENT, .reg .STITCH_STATUS_WAIT_TIME,
    .commits, .cses, .stitchers, .outs]

theorem resetStitcher_only (q : Nat) (s : State) : OnlyChanges stitchResetParts s (resetStitcher q s) :=
  (resetStitcher_keeps (.refl _ s) (.of_beq (by decide +kernel)) q).only

/-- PWR_REQ of a disabled Stitcher decides its power. -/
theorem writeStitchPower_disabled {q : Nat} {s : State} (req : Bool) (he : s.rd .CTRL_ENABLE q (Page.code .stitch) = 0) :
    ((writeStitchPower q req s).stitcher q).powered = !req ∧
      (writeStitchPower q req s).rd .CTRL_PWR_REQ q (Page.code .stitch) = if req then 1 else 0 := by
  unfold writeStitchPower
  rw [if_neg (by simp [he])]
  cases req
  case false => exact ⟨by simp, by simp⟩
  case true =>
    refine ⟨by simp, ?_⟩
    rw [if_pos rfl, State.setStitcher_rd, resetStitcher_only q _ (.reg .CTRL_PWR_REQ) (by decide), State.rd_wr_same]
    rfl

/-- Settles O19: ALLOC, ENABLE, soft reset and PWR_REQ each by the law of its write. -/
theorem synthesisControl : Obligations.SynthesisControl := by
  refine ⟨fun s m c v h hp hy => ⟨_, cmd_ok h .., ?_⟩, fun s m c en h => ⟨_, cmd_ok h .., writeCseEnable_stores .., ?_⟩,
    fun s m c h => ⟨_, cmd_ok h .., ?_⟩, fun s m c h ho he => ⟨_, cmd_ok h .., ?_⟩, fun s m c h he => ⟨_, cmd_ok h .., ?_⟩,
    fun s m c req hc h he => ⟨_, (if_pos hc).trans (cmd_ok h ..), ?_⟩⟩
  · exact writeAlloc_stores v.toNat (by rwa [withinBudget_congr (hostWake_eff ..)]) (by rwa [withinBudget_congr (hostWake_eff ..)])
  · rintro rfl he
    exact writeCseEnable_powers (by simpa using he)
  · obtain ⟨hidle, hrun⟩ := resetCse_status c.val (dropCommits .cse c.val (hostWake m.val s))
    have hpend := resetCse_only c.val (dropCommits .cse c.val (hostWake m.val s)) (.reg .SHADOW_CMD_PENDING) (by decide)
    simp only [resetCse_cse, dropCommits_cse, hostWake_cse]
    refine ⟨rfl, rfl, rfl, rfl, hidle, hrun, ?_⟩
    rw [hpend, dropCommits_rd, State.rd_wr_same]
    rfl
  · exact writeCsePower_off (by simpa [outEnabled] using ho) (by simpa using he)
  · rw [writeCsePower_on (by simpa using he)]
    exact ⟨ensurePower_powered .., by simp⟩
  · exact writeStitchPower_disabled req (by simpa using he)

end Sys2Proof.Machine
end

section
/-! PROOFS. What taking a descriptor leaves (R82, R87, R171), and SPEED, IDLE, FENCE and the discard (R90, R92, R161, R162, R174). -/

namespace Sys2Proof.Machine

-- One declaration at a time: the memory limit counts the stack of every thread that elaborates one.
set_option Elab.async false

/-! ### A descriptor stands as the current one (R82, R87) -/

/-- The packet is held by release. -/
def Packet.released (p : Packet) : Bool :=
  match p.hold with
  | .release _ _ => true
  | _ => false

/-- The status fields of a descriptor that stands. -/
def showStanding (c : Nat) (d : Descr) (idle : Option IdleMode) (s : State) : State :=
  ((((((s.wr .CSE_STATUS_RUNNING 1 c).wr .CSE_STATUS_IDLE (if idle.isSome then 1 else 0) c).wr
    .CSE_STATUS_OPEN (if d.count = openCount then 1 else 0) c).wr .CSE_CUR_DESC_KIND d.kind c).wr
    .CSE_CUR_DESC_PRIO d.prio c).wr .CSE_CUR_DESC_SEQ d.seq c).wr .OUT_FAULT_STAT_REPEAT_FAIL 0 c

/-- What a late descriptor counts and raises, `early` where a release fell before the lead time. -/
def noteLate (c miss : Nat) (early : Prop) [Decidable early] (s : State) : State :=
  let s1 := if miss = 0 then s else raise .cse c 1 (s.inc .CSE_LATE_CNT_LATE c)
  if early then raise .stitch (quadOf c) 7 s1 else s1

/-- The CSE with a descriptor that stands. -/
def Cse.standing (e : Cse) (p : Packet) (d : Descr) (due k : Int) (idle : Option IdleMode) (last : Option Descr) (player : Option Nat) :
    Cse :=
  { e with due := due, cur := d, vacant := false, idle := idle, last := last, lastRel := if p.released then some due else e.lastRel,
           curPlayer := player, repeatDue := due, appliedK := k, applied := if e.appliedK = k then e.applied + 1 else 1 }

theorem stand_eq (c : Nat) (p : Packet) (d : Descr) (due : Int) (miss : Nat) (idle : Option IdleMode) (last : Option Descr)
    (player : Option Nat) (s : State) : stand c p d due miss idle last player s =
      noteLate c miss (p.released = true ∧ due < (leadDue s (quadOf c) p.noticed : Nat)) (showStanding c d idle
        ((packetCommits c s).setCse c ((s.cse c).standing p d due ((s.wheel (quadOf c)).k : Nat) idle last player))) := rfl

section
variable {c miss : Nat} {early : Prop} [Decidable early] {s : State}

theorem noteLate_rd {r : Reg} (h1 : .EVT_RAW_RAW ≠ r) (h2 : .EVT_PEND_PEND ≠ r) (h3 : .CSE_LATE_CNT_LATE ≠ r) (i x u : Nat) :
    (noteLate c miss early s).rd r i x u = s.rd r i x u := by
  unfold noteLate
  dsimp only
  split <;> split <;> simp [h1, h2, h3, State.inc]

theorem noteLate_cse (x : Nat) : (noteLate c miss early s).cse x = s.cse x := by
  unfold noteLate
  dsimp only
  split <;> split <;> simp [State.inc]

theorem noteLate_onward : Onward s (noteLate c miss early s) := by
  have hlate : Onward s (if miss = 0 then s else raise .cse c 1 (s.inc .CSE_LATE_CNT_LATE c)) :=
    .ite (.refl s) ((Onward.refl s).wr.raise ..)
  exact .ite (hlate.raise ..) hlate

theorem showStanding_cse (d : Descr) (idle : Option IdleMode) (x : Nat) : (showStanding c d idle s).cse x = s.cse x := by
  simp only [showStanding, wr_cse]

theorem showStanding_onward (d : Descr) (idle : Option IdleMode) : Onward s (showStanding c d idle s) :=
  (Onward.refl s).wr.wr.wr.wr.wr.wr.wr

end

theorem Onward.setCse {s t : State} (h : Onward s t) (c : Nat) (e : Cse) : Onward s (t.setCse c e) := h.same (fun _ _ _ => rfl) rfl rfl

/-- What every descriptor that stands leaves: its status, and the queues, wheels and rings as they were. -/
structure Stood (c : Nat) (d : Descr) (idle : Option IdleMode) (s t : State) : Prop where
  running : t.rd .CSE_STATUS_RUNNING c = 1
  idle : t.rd .CSE_STATUS_IDLE c = if idle.isSome then 1 else 0
  kind : t.rd .CSE_CUR_DESC_KIND c = d.kind % 2 ^ 4
  seq : t.rd .CSE_CUR_DESC_SEQ c = d.seq % 2 ^ 16
  src : (t.cse c).src = (s.cse c).src
  only : OnlyChanges [.reg .CSE_CUR_DESC_KIND, .reg .CSE_CUR_DESC_PRIO, .reg .CSE_CUR_DESC_SEQ, .reg .CSE_LATE_CNT_LATE,
    .reg .CSE_STATUS_IDLE, .reg .CSE_STATUS_OPEN, .reg .CSE_STATUS_RUNNING, .reg .EVT_PEND_PEND, .reg .EVT_RAW_RAW,
    .reg .OUT_FAULT_STAT_REPEAT_FAIL, .cap, .presented, .commits, .cses] s t
  onward : Onward s t

theorem stand_stood (c : Nat) (p : Packet) (d : Descr) (due : Int) (miss : Nat) (idle : Option IdleMode) (last : Option Descr)
    (player : Option Nat) (s : State) : Stood c d idle s (stand c p d due miss idle last player s) where
  running := by rw [stand_eq, noteLate_rd (by decide) (by decide) (by decide)]; simp [showStanding, Reg.width, Reg.info]
  idle := by
    rw [stand_eq, noteLate_rd (by decide) (by decide) (by decide)]
    simp [showStanding]
    split <;> rfl
  kind := by rw [stand_eq, noteLate_rd (by decide) (by decide) (by decide)]; simp [showStanding]; rfl
  seq := by rw [stand_eq, noteLate_rd (by decide) (by decide) (by decide)]; simp [showStanding]; rfl
  src := by
    rw [stand_eq, noteLate_cse, showStanding_cse, State.cse_setCse]
    rfl
  only := (stand_keeps (.refl _ s) (.of_beq (by decide +kernel)) ..).only
  onward := by
    have hcommits : Onward s (packetCommits c s) :=
      (Onward.refl s).eventless (packetCommits_keeps (.refl _ s) (.of_beq (by decide +kernel)) c)
    rw [stand_eq]
    exact (hcommits.setCse ..).trans ((showStanding_onward ..).trans noteLate_onward)

/-! ### Which packet is taken, and how (R82, R85, R171) -/

/-- The packet has left its head slot. -/
def unhead (s : State) (c n : Nat) : State := s.setQueue (4 * c + n) { s.queue (4 * c + n) with head := none }

theorem takeAlone_of_takeStep {s t : State} {c : Nat} (h : takeStep s c = some t) : takeAlone s c = some t := by
  unfold takeStep at h
  split at h
  · cases h
  · exact h

/-- By how many samples a descriptor that was due is late. -/
def lateBy (s : State) (c : Nat) (due : Int) : Nat := (((s.wheel (quadOf c)).k : Int) - due).toNat

/-- What becomes of a packet that has left its head slot, by its KIND. -/
def applyPacket (c : Nat) (p : Packet) (due : Int) (miss : Nat) (s : State) : Option State :=
  let d := p.descr
  if p.poison then some (discard c p d due miss errPoison s)
  else match d.kind with
    | 0 => some (if d.ok then takeIdle c p d due miss s else discard c p d due miss errPoison s)
    | 8 => some (if d.ok then takeSpeed c p d due miss s else discard c p d due miss errPoison s)
    | 15 => some (if d.ok then takeFence c p d due miss s else discard c p d due miss errPoison s)
    | _ => takeSources c p d due miss s

/-- A packet that is taken is due, and is applied without its head slot. -/
theorem takeAlone_applies {s t : State} {c n : Nat} {p : Packet} (h : takeAlone s c = some t) (hn : nextTaken s c = some (n, p)) :
    ∃ due, dueOf s c n p = some due ∧ applyPacket c p due (lateBy s c due) (unhead s c n) = some t := by
  unfold takeAlone at h
  dsimp only at h
  rw [hn] at h
  split at h
  · cases h
  · cases hd : dueOf s c n p with
    | none => simp [hd] at h
    | some due =>
      simp only [hd] at h
      split at h
      · cases h
      · exact ⟨due, rfl, h⟩

theorem takeKind_takes {s t : State} {c n : Nat} {p : Packet} {kinds : List Nat} (hn : nextTaken s c = some (n, p))
    (hk : p.descr.kind ∈ kinds) (ht : takeStep s c = some t) : takeKind kinds c s = t := by
  simp [takeKind, nextKind, hn, hk, ht]

/-- The command of a KIND applies the packet that channel c takes next, if it is of that KIND. -/
theorem act_takeKind {s : State} {c n : Nat} {p : Packet} {kinds : List Nat} (hd : s.dev = .up) (hn : nextTaken s c = some (n, p))
    (hk : p.descr.kind ∈ kinds) (hs : (takeStep s c).isSome = true) : ∃ due t, act s (takeKind kinds c) = .next t ∧
      dueOf s c n p = some due ∧ applyPacket c p due (lateBy s c due) (unhead s c n) = some t := by
  obtain ⟨t, ht⟩ := Option.isSome_iff_exists.mp hs
  obtain ⟨due, hdue, happ⟩ := takeAlone_applies (takeAlone_of_takeStep ht) hn
  exact ⟨due, t, by rw [act_up hd, takeKind_takes hn hk ht], hdue, happ⟩

theorem descr_kind_mod (p : Packet) : p.descr.kind % 2 ^ 4 = p.descr.kind := Nat.mod_eq_of_lt (bits_lt ..)

theorem descr_seq_mod (p : Packet) : p.descr.seq % 2 ^ 16 = p.descr.seq := Nat.mod_eq_of_lt (bits_lt ..)

theorem queue_of_only {l : List Part} {s t : State} (h : OnlyChanges l s t) (hl : .queues ∉ l) (i : Nat) : t.queue i = s.queue i :=
  congrArg (Store.get _ · i) (h .queues hl)

theorem wheel_of_only {l : List Part} {s t : State} (h : OnlyChanges l s t) (hl : .wheels ∉ l) (q : Nat) : t.wheel q = s.wheel q :=
  congrArg (Store.get _ · q) (h .wheels hl)

theorem unhead_queue (s : State) (c n : Nat) : ((unhead s c n).queue (4 * c + n)).head = none := by
  rw [unhead, State.queue_setQueue]

/-- A packet whose descriptor, or one of its KIND and SEQ, stands has left its head slot. -/
theorem Stood.stands {c : Chan} {n : Nat} {p : Packet} {d : Descr} {idle : Option IdleMode} {u t : State}
    (h : Stood c.val d idle u t) (hu : (u.queue (4 * c.val + n)).head = none) (hk : d.kind = p.descr.kind) (hs : d.seq = p.descr.seq) :
    Stands t c n p :=
  ⟨by rw [queue_of_only h.only (by decide), hu], h.running, by rw [h.kind, hk, descr_kind_mod], by rw [h.seq, hs, descr_seq_mod]⟩

/-- An event keeps what stands. -/
theorem Stands.raise {t : State} {c : Chan} {n : Nat} {p : Packet} (h : Stands t c n p) (g : Page) (i b : Nat) :
    Stands (raise g i b t) c n p := by
  obtain ⟨hq, hrun, hkind, hseq⟩ := h
  exact ⟨by rw [State.queue, raise_queues]; exact hq, by simpa using hrun, by simpa using hkind, by simpa using hseq⟩

theorem Stands.wrFence {t : State} {c : Chan} {n : Nat} {p : Packet} (h : Stands t c n p) (v : Nat) :
    Stands (t.wr .TACK_FENCE_LAST_CH v) c n p := by
  obtain ⟨hq, hrun, hkind, hseq⟩ := h
  exact ⟨hq, by simpa using hrun, by simpa using hkind, by simpa using hseq⟩

/-! ### SPEED, IDLE and FENCE (R90, R92, R161, R162) -/

section
variable {s : State} {c : Chan} {n : Nat} {p : Packet}

/-- A descriptor that one operation always applies is applied by it. -/
theorem Takes.applies {k : Nat} (h : Takes s c n p k) {kinds : List Nat} (hk : k ∈ kinds) {f : Int → Nat → State → State}
    (hf : ∀ due miss u, applyPacket c.val p due miss u = some (f due miss u)) :
    ∃ due, act s (takeKind kinds c.val) = .next (f due (lateBy s c.val due) (unhead s c.val n)) := by
  obtain ⟨hd, hn, hs, -, -, rfl⟩ := h
  obtain ⟨due, t, ht, -, happ⟩ := act_takeKind hd hn hk hs
  rw [hf, Option.some.injEq] at happ
  exact ⟨due, happ ▸ ht⟩

theorem Takes.speed (h : Takes s c n p 8) : ∃ due, exec (.descSpeed c) s =
    .next (takeSpeed c.val p p.descr due (lateBy s c.val due) (unhead s c.val n)) := by
  obtain ⟨-, -, -, hp, hok, hk⟩ := id h
  exact h.applies (by decide) fun _ _ _ => by simp [applyPacket, hp, hok, hk]

theorem Takes.idle (h : Takes s c n p 0) : ∃ due, exec (.idle c) s =
    .next (takeIdle c.val p p.descr due (lateBy s c.val due) (unhead s c.val n)) := by
  obtain ⟨-, -, -, hp, hok, hk⟩ := id h
  exact h.applies (by decide) fun _ _ _ => by simp [applyPacket, hp, hok, hk]

theorem Takes.fence (h : Takes s c n p 15) : ∃ due, exec (.fence c) s =
    .next (takeFence c.val p p.descr due (lateBy s c.val due) (unhead s c.val n)) := by
  obtain ⟨-, -, -, hp, hok, hk⟩ := id h
  exact h.applies (by decide) fun _ _ _ => by simp [applyPacket, hp, hok, hk]

end

/-- A speed command makes its target the wheel's; a step leaves no ramp, and no angle loaded leaves the angle (R90). -/
theorem speedCommand_wheel (q chan mode target rlen blend : Nat) (angle : Option Nat) (miss : Nat) (s : State) :
    ((speedCommand q chan mode target rlen blend angle miss s).wheel q).target = target ∧
      (mode = 0 → ((speedCommand q chan mode target rlen blend angle miss s).wheel q).ramp = none ∧
        ((speedCommand q chan mode target rlen blend angle miss s).wheel q).dn = s.dth q target) ∧
      (angle = none → ((speedCommand q chan mode target rlen blend angle miss s).wheel q).theta = (s.wheel q).theta) := by
  rw [speedCommand.eq_def, State.wheel_setWheel]
  refine ⟨rfl, fun hm => ⟨if_pos (.inl hm), if_pos (.inl hm)⟩, ?_⟩
  rintro rfl
  rfl

theorem unhead_speedTaken (s : State) (c n q d : Nat) : speedTaken (unhead s c n) q d = speedTaken s q d := rfl

/-- The state in which a SPEED that nothing displaces finds its wheel. -/
def claimSpeed (c : Nat) (s : State) : State :=
  s.setWheel (quadOf c) { s.wheel (quadOf c) with speedAt := some (((s.wheel (quadOf c)).k : Nat), c) }

theorem takeSpeed_applies {c : Nat} {s : State} (h : speedTaken s (quadOf c) c = false) (p : Packet) (d : Descr) (due : Int) (miss : Nat) :
    takeSpeed c p d due miss s = stand c p d due miss none (some d) none (applySpeed c d true miss (claimSpeed c s)) := by
  rw [takeSpeed, h]
  rfl

theorem takeSpeed_displaced {c : Nat} {s : State} (h : speedTaken s (quadOf c) c = true) (p : Packet) (d : Descr) (due : Int) (miss : Nat) :
    takeSpeed c p d due miss s = raise .stitch (quadOf c) 2 (stand c p d due 0 none (s.cse c).last none s) := by
  rw [takeSpeed, h]
  rfl

theorem applySpeed_queue (c : Nat) (d : Descr) (load : Bool) (miss : Nat) (s : State) (i : Nat) :
    (applySpeed c d load miss s).queue i = s.queue i :=
  queue_of_only (l := [.reg .EVT_PEND_PEND, .reg .EVT_RAW_RAW, .presented, .wheels])
    (applySpeed_keeps (.refl _ s) (.of_beq (by decide +kernel)) ..).only (by decide) i

section
variable {s : State} {c : Chan} {n : Nat} {p : Packet}

theorem descSpeed_applies (h : Takes s c n p 8) (ht : speedTaken s (quadOf c.val) c.val = false) :
    ∃ t, exec (.descSpeed c) s = .next t ∧ Stands t c n p ∧ (t.wheel (quadOf c.val)).target = bits p.descr.c1 63 0 ∧
      (bits p.descr.flags 1 0 = 0 → (t.wheel (quadOf c.val)).ramp = none ∧
        (t.wheel (quadOf c.val)).dn = s.dth (quadOf c.val) (bits p.descr.c1 63 0)) ∧
      (bit p.descr.flags 2 = 0 → (t.wheel (quadOf c.val)).theta = (s.wheel (quadOf c.val)).theta) := by
  obtain ⟨due, hstep⟩ := h.speed
  rw [takeSpeed_applies (by rwa [unhead_speedTaken])] at hstep
  have hstood := stand_stood c.val p p.descr due (lateBy s c.val due) none (some p.descr) none
    (applySpeed c.val p.descr true (lateBy s c.val due) (claimSpeed c.val (unhead s c.val n)))
  refine ⟨_, hstep, hstood.stands ?_ rfl rfl, ?_⟩
  · rw [applySpeed_queue]
    exact unhead_queue ..
  · rw [wheel_of_only hstood.only (by decide)]
    obtain ⟨htarget, hmode, hangle⟩ := speedCommand_wheel (quadOf c.val) c.val (bits p.descr.flags 1 0) (bits p.descr.c1 63 0)
      (bits p.descr.c1 95 64) (bits p.descr.c1 127 96)
      (if true = true ∧ bit p.descr.flags 2 = 1 then some (bits p.descr.c2 63 0) else none) (lateBy s c.val due) (claimSpeed c.val (unhead s c.val n))
    refine ⟨htarget, hmode, fun hb => (hangle (if_neg (by simp [hb]))).trans ?_⟩
    rw [claimSpeed, State.wheel_setWheel]
    rfl

theorem descSpeed_displaced (h : Takes s c n p 8) (ht : speedTaken s (quadOf c.val) c.val = true) :
    ∃ t, exec (.descSpeed c) s = .next t ∧ Stands t c n p ∧ t.wheel (quadOf c.val) = s.wheel (quadOf c.val) ∧
      Raised t .stitch (quadOf c.val) 2 := by
  obtain ⟨due, hstep⟩ := h.speed
  rw [takeSpeed_displaced (by rwa [unhead_speedTaken])] at hstep
  have hstood := stand_stood c.val p p.descr due 0 none ((unhead s c.val n).cse c.val).last none (unhead s c.val n)
  refine ⟨_, hstep, (hstood.stands (unhead_queue ..) rfl rfl).raise .., ?_, raise_raw ..⟩
  rw [State.wheel, raise_wheels]
  exact wheel_of_only hstood.only (by decide) _

theorem takeIdle_stood (c : Nat) (p : Packet) (d : Descr) (due : Int) (miss : Nat) (s : State) :
    ∃ m : IdleMode, Stood c d (some m) s (takeIdle c p d due miss s) := ⟨_, stand_stood ..⟩

theorem idle_stands (h : Takes s c n p 0) :
    ∃ t, exec (.idle c) s = .next t ∧ Stands t c n p ∧ t.rd .CSE_STATUS_IDLE c.val = 1 ∧ (t.cse c.val).src = (s.cse c.val).src := by
  obtain ⟨due, hstep⟩ := h.idle
  obtain ⟨m, hstood⟩ := takeIdle_stood c.val p p.descr due (lateBy s c.val due) (unhead s c.val n)
  exact ⟨_, hstep, hstood.stands (unhead_queue ..) rfl rfl, hstood.idle, hstood.src⟩

theorem fence_stands (h : Takes s c n p 15) :
    ∃ t, exec (.fence c) s = .next t ∧ Stands t c n p ∧ (t.cse c.val).src = (s.cse c.val).src ∧
      (bit p.descr.flags 4 = 1 → Raised t .tack 0 5 ∧ t.rd .TACK_FENCE_LAST_CH = c.val) := by
  obtain ⟨due, hstep⟩ := h.fence
  have hstood := stand_stood c.val p { p.descr with count := 0 } due (lateBy s c.val due)
    (((unhead s c.val n).cse c.val).idle.map (effectiveIdle { (unhead s c.val n).cse c.val with last := some { p.descr with count := 0 } }))
    (some { p.descr with count := 0 }) none (unhead s c.val n)
  have hstands := hstood.stands (n := n) (p := p) (unhead_queue ..) rfl rfl
  refine ⟨_, hstep, ?_⟩
  unfold takeFence
  dsimp only
  split
  case isTrue =>
    refine ⟨(hstands.wrFence c.val).raise .., ?_, fun _ => ⟨raise_raw .., ?_⟩⟩
    · rw [raise_cse, wr_cse]
      exact hstood.src
    · rw [raise_rd _ (by decide) (by decide), State.rd_wr_same]
      exact Nat.mod_eq_of_lt (Nat.lt_trans c.isLt (by decide))
  case isFalse hb => exact ⟨hstands, hstood.src, fun h => absurd h hb⟩

end

/-! ### A discarded descriptor (R174) -/

theorem countDiscard_rd {r : Reg} (h1 : .EVT_RAW_RAW ≠ r) (h2 : .EVT_PEND_PEND ≠ r) (h3 : .ERR_CODE_CODE ≠ r)
    (h4 : .ERR_CODE_MASTER ≠ r) (h5 : .ERR_CODE_WRITE ≠ r) (h6 : .ERR_CODE_WORD ≠ r) (h7 : .ERR_CODE_OVF ≠ r) (c code : Nat) (s : State) (i x u : Nat) :
    (countDiscard c code s).rd r i x u = (s.inc .CSE_DISCARD_CNT_DISCARD c).rd r i x u := by
  rw [countDiscard, raise_rd _ h1 h2, recordErr_rd _ h3 h4 h5 h6 h7]

/-- A discard counts, raises DESC_DISCARD and leaves the channel idle, its sources as they were. -/
theorem discard_idles (c : Nat) (p : Packet) (d : Descr) (due : Int) (miss code : Nat) (s : State) :
    (∀ i, (discard c p d due miss code s).queue i = s.queue i) ∧ ((discard c p d due miss code s).cse c).src = (s.cse c).src ∧
      (discard c p d due miss code s).rd .CSE_STATUS_IDLE c = 1 ∧ Raised (discard c p d due miss code s) .cse c 0 ∧
      (discard c p d due miss code s).rd .CSE_DISCARD_CNT_DISCARD c =
        satAdd Reg.CSE_DISCARD_CNT_DISCARD.width (s.rd .CSE_DISCARD_CNT_DISCARD c) 1 := by
  have hstood := stand_stood c p { prio := d.prio, seq := d.seq, count := if p.poison1 then openCount else d.count } due miss
    (some (effectiveIdle (s.cse c) (channelIdle s c))) (s.cse c).last none (countDiscard c code s)
  have hcount := (countDiscard_keeps (.refl _ s) (.of_beq (by decide +kernel)) c code).only (l := [.reg .CSE_DISCARD_CNT_DISCARD,
    .reg .ERR_CODE_CODE, .reg .ERR_CODE_MASTER, .reg .ERR_CODE_OVF, .reg .ERR_CODE_WORD, .reg .ERR_CODE_WRITE, .reg .EVT_PEND_PEND,
    .reg .EVT_RAW_RAW, .presented])
  refine ⟨fun i => ?_, ?_, hstood.idle, hstood.onward.raised _ _ _ (raise_raw ..), ?_⟩
  · exact (queue_of_only hstood.only (by decide) i).trans (queue_of_only hcount (by decide) i)
  · exact hstood.src.trans (congrArg (fun x => (Store.get { dither := c + 1 } x c).src) (hcount .cses (by decide)))
  · refine (hstood.only (.reg .CSE_DISCARD_CNT_DISCARD) (by decide) ..).trans ?_
    rw [countDiscard_rd (by decide) (by decide) (by decide) (by decide) (by decide) (by decide) (by decide), rd_inc]

/-- Settles O18: SPEED, IDLE and FENCE by what standing leaves, and a poisoned descriptor by the law of the discard. -/
theorem queueDescriptors : Obligations.QueueDescriptors := by
  refine ⟨fun _ _ _ _ => descSpeed_applies, fun _ _ _ _ => descSpeed_displaced, fun _ _ _ _ => idle_stands,
    fun _ _ _ _ => fence_stands, fun s c n p hd hn hs hp hk => ?_⟩
  obtain ⟨due, t, hstep, -, happ⟩ := act_takeKind (kinds := [5]) hd hn (by simp [hk]) hs
  have hdiscard : t = discard c.val p p.descr due (lateBy s c.val due) errPoison (unhead s c.val n) := by
    simpa [applyPacket, hp] using happ.symm
  obtain ⟨hqueue, hrest⟩ := discard_idles c.val p p.descr due (lateBy s c.val due) errPoison (unhead s c.val n)
  rw [← hdiscard] at hqueue hrest
  exact ⟨t, hstep, by rw [hqueue, unhead_queue], hrest⟩

end Sys2Proof.Machine
end

section
/-! PROOFS. What the reads of a segment leave behind (R12, R24, R318), and the header they find (R14, R75, R76). -/

namespace Sys2Proof.Machine

-- One declaration at a time: the memory limit counts the stack of every thread that elaborates one.
set_option Elab.async false

/-! ### What the reads of a segment leave behind (R12, R24, R318) -/

/-- Parts that a read of clean cells, allowed or denied, and the leaving of a head slot may change. -/
def notedParts : List Part :=
  [.reg .BENCH_BPWR_STAT_STATE, .reg .ERR_CODE_CODE, .reg .ERR_CODE_MASTER, .reg .ERR_CODE_OVF, .reg .ERR_CODE_WORD, .reg .ERR_CODE_WRITE,
    .reg .EVT_PEND_PEND, .reg .EVT_RAW_RAW, .reg .SYS_ERR_ADDR_HI_ADDR, .reg .SYS_ERR_ADDR_HI_MASTER, .reg .SYS_ERR_ADDR_HI_WRITE,
    .reg .SYS_ERR_ADDR_LO_ADDR, .presented, .ben, .queues]

/-- From s to t reads were made that met no cell error: records of denied ones, and benches woken. -/
structure Noted (s t : State) : Prop where
  only : OnlyChanges notedParts s t
  flaws : t.ben.flaws = s.ben.flaws
  awake : ∀ b, t.benchOff b = true → s.benchOff b = true

/-- One bench that an access touches. -/
def wakeBench (b : Nat) (s : State) : State :=
  ({ s with ben := { s.ben with last := Store.set 0 s.ben.last b s.osc } } : State).wr .BENCH_BPWR_STAT_STATE 0 0 0 b

theorem wakeBench_off {b a : Nat} {s : State} (h : (wakeBench b s).benchOff a = true) : s.benchOff a = true := by
  rw [State.benchOff, wakeBench, State.rd_wr] at h
  split at h
  · simp at h
  · exact h

namespace Noted

variable {s t u : State}

theorem refl (s : State) : Noted s s := ⟨(Keeps.refl (mask notedParts) s).only, rfl, fun _ => id⟩

theorem trans (h : Noted s t) (k : Noted t u) : Noted s u where
  only p hp := by
    have hst := h.only p hp
    have htu := k.only p hp
    cases p
    case reg r => exact fun i x z => (htu i x z).trans (hst i x z)
    all_goals exact Eq.trans htu hst
  flaws := k.flaws.trans h.flaws
  awake b hb := h.awake b (k.awake b hb)

/-- An operation that leaves the power of the benches and their cells alone. -/
theorem of_keeps {l : List Part} (h : Keeps (mask l) s t) (hl : l ⊆ notedParts := by decide)
    (hb : .ben ∉ l := by decide) (hs : .reg .BENCH_BPWR_STAT_STATE ∉ l := by decide) : Noted s t where
  only p hp := h.only p fun hpl => hp (hl hpl)
  flaws := congrArg Benches.flaws (h.only .ben hb)
  awake b := by simp only [State.benchOff, h.only (.reg .BENCH_BPWR_STAT_STATE) hs 0 0 (benchOf b), imp_self]

theorem unhead (s : State) (c n : Nat) : Noted s (Machine.unhead s c n) where
  only p hp := by
    cases p
    case reg r => exact fun _ _ _ => rfl
    case queues => exact absurd (by decide) hp
    all_goals rfl
  flaws := rfl
  awake _ := id

theorem touchBench (a n : Nat) (s : State) : Noted s (touchBench a n s) where
  only p hp := (touchBench_keeps (.refl _ s) (.self _) a n).only p fun hpl => hp ((by decide : _ ⊆ notedParts) hpl)
  flaws := by
    unfold Machine.touchBench
    split
    · exact each_rel (R := fun a b : State => b.ben.flaws = a.ben.flaws) (fun _ => rfl) (fun h k => k.trans h) (f := wakeBench)
        (fun _ _ _ => rfl) s
    · rfl
  awake x := by
    unfold Machine.touchBench
    split
    · exact each_rel (R := fun a b : State => b.benchOff x = true → a.benchOff x = true) (fun _ => id) (fun h k hb => h (k hb))
        (f := wakeBench) (fun _ _ _ => wakeBench_off) s
    · exact id

theorem clean (hc : CleanCells s) (h : Noted s t) : CleanCells t :=
  ⟨h.flaws.trans hc.1, (congrArg Quarry.flaws (h.only .qry (by decide))).trans hc.2⟩

theorem memRead (hc : CleanCells s) (m a n : Nat) : Noted s (memRead s m a n).2 := by
  unfold Machine.memRead loadMem
  split
  · split
    · exact of_keeps (recordErr_keeps (.refl _ s) (.self _) ..)
    · rw [eccRead_clean (clean hc (touchBench a n s))]
      exact touchBench a n s
  · exact of_keeps (denyMem_keeps (.refl _ s) (.self _) ..)

theorem noteRead (hc : CleanCells s) (m a n : Nat) : Noted s (noteRead m a n s) := by
  unfold Machine.noteRead
  split
  · rw [eccRead_clean hc]
    exact refl s
  · exact of_keeps (denyMem_keeps (.refl _ s) (.self _) ..)

theorem noteSegment (hc : CleanCells s) (c : Nat) (d : Descr) : Noted s (noteSegment c d s) := by
  unfold Machine.noteSegment
  dsimp only
  split
  case isFalse => exact refl s
  case isTrue =>
    have hread := memRead hc (20 + quadOf c) d.segaddr 32
    split
    · split
      · exact hread.trans (noteRead (clean hc hread) ..)
      · exact hread
    · exact hread

/-! ### What a reader of memory finds afterwards -/

variable (h : Noted s t)
include h

theorem rd {r : Reg} (hr : .reg r ∉ notedParts) (i x z : Nat) : t.rd r i x z = s.rd r i x z := h.only (.reg r) hr i x z

theorem wave : t.rd .QUARRY_CAPACITY_WAVE_GIB = s.rd .QUARRY_CAPACITY_WAVE_GIB := h.rd (by decide) ..

theorem logicalRank (a : Nat) : t.logicalRank a = s.logicalRank a := by
  simp only [State.logicalRank, State.quarryAddr, State.logicalRanks, h.wave]

theorem offline (a : Nat) : t.offline a = s.offline a := by
  simp only [State.offline, h.logicalRank, h.rd (r := .BENCH_BENCH_HEALTH_HEALTH) (by decide), h.rd (r := .QUARRY_LRMAP_MAP) (by decide)]

theorem readRank (a : Nat) : readRank t a = readRank s a := by
  simp [Machine.readRank, ranksFor, lrMap, migrating, migTarget, rankState, unitV, State.quarryAddr, State.logicalRanks,
    h.logicalRank, h.wave, h.rd (r := .QUARRY_LRMAP_MAP) (by decide), h.rd (r := .QUARRY_STATUS_MIGRATING) (by decide),
    h.rd (r := .QUARRY_MIG_PTR_LGRANK) (by decide), h.rd (r := .QUARRY_MIG_PTR_UNIT) (by decide),
    h.rd (r := .QUARRY_RANK_STATE_STATE) (by decide)]

theorem poisoned (a : Nat) : t.poisoned a = s.poisoned a := by
  simp only [State.poisoned, h.offline, h.readRank, show t.poison = s.poison from h.only .poison (by decide), wordPoisoned,
    rowReady, rowMeta, freshRow, show t.qry = s.qry from h.only .qry (by decide), unitV, wordOf, State.quarryAddr, State.logicalRanks, h.wave,
    h.rd (r := .QUARRY_GEN_GEN) (by decide)]

theorem anyPoison (a n : Nat) : t.anyPoison a n = s.anyPoison a n := by
  simp only [State.anyPoison, funext h.poisoned]

theorem byte (a : Nat) : t.byte a = s.byte a := by
  simp only [State.byte, h.offline, show t.mem = s.mem from h.only .mem (by decide)]

theorem byteFor (m a : Nat) : t.byteFor m a = s.byteFor m a := by
  have hfree : t.free = s.free := h.only .free (by decide)
  simp only [State.byteFor, h.byte, hfree]

theorem bytesFor (m a n : Nat) : t.bytesFor m a n = s.bytesFor m a n := List.map_congr_left fun b _ => h.byteFor m b

theorem byteAllowed (m : Nat) (k : Kind) (a : Nat) : byteAllowed t m k a = byteAllowed s m k a := by
  simp [Machine.byteAllowed, inWave, regionGrants, h.wave, h.rd (r := .BENCH_RGN_BASE_EN) (by decide),
    h.rd (r := .BENCH_RGN_BASE_BASE) (by decide), h.rd (r := .BENCH_RGN_BASE_RD) (by decide), h.rd (r := .BENCH_RGN_BASE_WR) (by decide),
    h.rd (r := .BENCH_RGN_BASE_ALIAS) (by decide), h.rd (r := .BENCH_RGN_LIMIT_LIMIT) (by decide)]

/-- What was allowed stays so: reads switch no bench off. -/
theorem memAllowed {m a n : Nat} {k : Kind} (ha : memAllowed s m k a n = true) : memAllowed t m k a n = true := by
  simp only [Machine.memAllowed, List.all_eq_true, Bool.and_eq_true, Bool.not_eq_true', h.byteAllowed] at ha ⊢
  exact fun b hb => ⟨(ha b hb).1, by
    have hoff := (ha b hb).2
    cases hc : t.benchOff b
    · rfl
    · rw [h.awake b hc] at hoff
      exact hoff⟩

theorem byteAs (m a : Nat) : t.byteAs m a = s.byteAs m a := by
  simp only [State.byteAs, h.byteAllowed, h.byte]

theorem leAs (m a n : Nat) : t.leAs m a n = s.leAs m a n :=
  congrArg leValue (List.map_congr_left fun b _ => h.byteAs m b)

theorem segInSpace (a n : Nat) : segInSpace t a n = segInSpace s a n := by
  simp only [Machine.segInSpace, inWave, h.wave]

theorem mustRetry (a : Nat) : t.mustRetry a = s.mustRetry a := by
  simp only [State.mustRetry, h.rd (r := .QUARRY_STATUS_RESHAPING) (by decide)]

end Noted

/-! ### The header of a segment (R14, R75, R76) -/

theorem not_ok_of_version {h : SegHeader} (hv : h.version ≠ 1) (kind : Nat) : h.ok kind = false := by simp [SegHeader.ok, hv]

/-- A header of zeros names no version. -/
theorem zeros_not_ok (kind : Nat) : (parseHeader (List.replicate 32 0)).ok kind = false := not_ok_of_version (by decide) kind

/-- A header that is fetched was read as it stands, by a reader that may read it. -/
structure Fetched (s : State) (c : Nat) (d : Descr) (h : SegHeader) : Prop where
  aligned : d.segaddr % 32 = 0
  headInSpace : segInSpace s d.segaddr 32 = true
  allowed : memAllowed s (20 + quadOf c) .read d.segaddr 32 = true
  serves : s.mustRetry d.segaddr = false
  clean : s.anyPoison d.segaddr 32 = false
  parsed : parseHeader (s.bytesFor (20 + quadOf c) d.segaddr 32) = h
  ok : h.ok d.kind = true
  inSpace : segInSpace s d.segaddr (32 + 32 * h.blen) = true

theorem memRead_allowed {s : State} {m a n : Nat} (ha : memAllowed s m .read a n = true) (hr : s.mustRetry a = false) :
    (memRead s m a n).1 = s.bytesFor m a n := by
  rw [memRead, if_pos ha, loadMem_serves hr]

theorem memRead_refused {s : State} {m a n : Nat} (h : ¬(memAllowed s m .read a n = true ∧ s.mustRetry a = false)) :
    (memRead s m a n).1 = List.replicate n 0 := by
  unfold memRead loadMem
  split
  case isTrue ha =>
    split
    · rfl
    case isFalse hr => exact absurd ⟨ha, by simpa using hr⟩ h
  case isFalse => rfl

theorem fetchHeader_iff {s : State} (hc : CleanCells s) (c : Nat) (d : Descr) (h : SegHeader) :
    fetchHeader s c d = .ok h ↔ Fetched s c d h := by
  have hpoison := (Noted.memRead hc (20 + quadOf c) d.segaddr 32).anyPoison d.segaddr 32
  constructor
  · intro hf
    unfold fetchHeader at hf
    dsimp only at hf
    rw [hpoison] at hf
    split at hf
    · cases hf
    split at hf
    · cases hf
    split at hf
    · cases hf
    split at hf
    · cases hf
    split at hf
    · cases hf
    rename_i haligned hhead hclean hok hspace
    by_cases hread : memAllowed s (20 + quadOf c) .read d.segaddr 32 = true ∧ s.mustRetry d.segaddr = false
    · rw [memRead_allowed hread.1 hread.2] at hf hok hspace
      cases hf
      exact ⟨by simpa using haligned, by simpa using hhead, hread.1, hread.2, by simpa using hclean, rfl, by simpa using hok,
        by simpa using hspace⟩
    · rw [memRead_refused hread, zeros_not_ok] at hok
      exact absurd rfl hok
  · rintro ⟨haligned, hhead, hallowed, hserves, hclean, rfl, hok, hspace⟩
    unfold fetchHeader
    dsimp only
    rw [hpoison, memRead_allowed hallowed hserves, if_neg (by simpa using haligned), if_neg (by simpa using hhead),
      if_neg (by simpa using hclean), if_neg (by simpa using hok), if_neg (by simpa using hspace)]

/-- Reads that meet no error leave what a later fetch finds. -/
theorem Noted.fetchHeader {s t : State} (hn : Noted s t) (hc : CleanCells s) {c : Nat} {d : Descr} {h : SegHeader}
    (hf : fetchHeader s c d = .ok h) : fetchHeader t c d = .ok h := by
  obtain ⟨haligned, hhead, hallowed, hserves, hclean, hparsed, hok, hspace⟩ := (fetchHeader_iff hc c d h).mp hf
  exact (fetchHeader_iff (clean hc hn) c d h).mpr ⟨haligned, by rwa [hn.segInSpace], hn.memAllowed hallowed, by rwa [hn.mustRetry],
    by rwa [hn.anyPoison], by rwa [hn.bytesFor], hok, by rwa [hn.segInSpace]⟩

end Sys2Proof.Machine
end

section
/-! PROOFS. What the descriptors that set sources do when they apply (R76, R83, R84, R95, R100, R101, R104, R105). -/

namespace Sys2Proof.Machine

-- One declaration at a time: the memory limit counts the stack of every thread that elaborates one.
set_option Elab.async false

/-! ### Sources after reads that met no error -/

namespace Noted

variable {s t : State} (h : Noted s t)
include h

theorem wheel (q : Nat) : t.wheel q = s.wheel q := wheel_of_only h.only (by decide) q

theorem fs (q : Nat) : t.fs q = s.fs q := by
  have heff : t.eff = s.eff := h.only .eff (by decide)
  simp only [State.fs, State.qn, State.ifac, State.ifLog, State.rdEff, heff]

theorem applyEntry (c i xfade miss e : Nat) (sl : Slot) : applyEntry t c i xfade miss e sl = applyEntry s c i xfade miss e sl := by
  simp [Machine.applyEntry, h.wheel, h.fs, h.rd (r := .CSE_ALLOC_EFF_PART_EFF) (by decide)]

theorem applyPartials (c : Nat) (d : Descr) (g : SegHeader) (miss : Nat) (src : Sources) :
    applyPartials t c d g miss src = applyPartials s c d g miss src := by
  simp only [Machine.applyPartials, h.applyEntry, h.leAs]

theorem nextEntry (m : Nat) (p : PatRun) : p.next t m = p.next s m := by simp only [PatRun.next, h.leAs]

theorem patForward (m n : Nat) (p : PatRun) : patForward t m n p = patForward s m n p := by
  induction n generalizing p with
  | zero => rfl
  | succ n ih => simp only [Machine.patForward, h.nextEntry, ih]

theorem applyPattern (m : Nat) (d : Descr) (g : SegHeader) (miss : Nat) (src : Sources) :
    applyPattern t m d g miss src = applyPattern s m d g miss src := by
  simp only [Machine.applyPattern, h.leAs, h.patForward]

end Noted

/-! ### A descriptor that sets sources (R83) -/

theorem noteSegment_queue (c : Nat) (d : Descr) (s : State) (i : Nat) : (noteSegment c d s).queue i = s.queue i :=
  congrArg (Store.get _ · i) ((noteSegment_keeps (.refl _ s) (.self _) c d).only .queues (by decide))

section
variable {s : State} {c : Chan} {n : Nat} {p : Packet}

/-- Where the sources apply, they are the CSE's from then on and the descriptor stands. -/
theorem takeSources_done {due : Int} {miss : Nat} {src : Sources} {ring : Ring} {trunc : Bool}
    (hq : (s.queue (4 * c.val + n)).head = none)
    (h : applySources (noteSegment c.val p.descr s) c.val p.descr miss (s.cse c.val).src = .done src ring trunc) :
    ∃ t, takeSources c.val p p.descr due miss s = some t ∧ Stands t c n p ∧ (t.cse c.val).src = src := by
  have hstood := stand_stood c.val p p.descr due miss none (some p.descr)
    (if p.descr.kind = 1 ∨ p.descr.kind = 2 then some p.descr.player else none)
    (((noteSegment c.val p.descr s).setCse c.val { s.cse c.val with src := src }).setRing c.val ring)
  have hstands := hstood.stands (n := n) (p := p) ((noteSegment_queue ..).symm ▸ hq) rfl rfl
  have hsrc := hstood.src.trans (congrArg Cse.src (State.cse_setCse (noteSegment c.val p.descr s) c.val { s.cse c.val with src := src }))
  unfold takeSources
  dsimp only
  rw [h]
  cases trunc
  case false => exact ⟨_, rfl, hstands, hsrc⟩
  case true => exact ⟨_, rfl, hstands.raise .., (congrArg Cse.src (raise_cse ..)).trans hsrc⟩

/-- The next descriptor, whose segment has been read in u, sets whatever sources apply: the command of its KIND makes it the current one. -/
def SetsFrom (s u : State) (c : Chan) (n : Nat) (p : Packet) (kinds : List Nat) (miss : Nat) : Prop :=
  ∀ src ring trunc, applySources u c.val p.descr miss (s.cse c.val).src = .done src ring trunc →
    ∃ t, act s (takeKind kinds c.val) = .next t ∧ Stands t c n p ∧ (t.cse c.val).src = src

/-- A descriptor of a KIND that sets sources is due, and applies after its segment has been read. -/
theorem Takes.sets {k : Nat} (h : Takes s c n p k) {kinds : List Nat} (hk : k ∈ kinds) (hsrc : k ≠ 0 ∧ k ≠ 8 ∧ k ≠ 15) :
    ∃ due u, dueOf s c.val n p = some due ∧ (CleanCells s → Noted s u) ∧ SetsFrom s u c n p kinds (lateBy s c.val due) := by
  obtain ⟨hd, hn, hs, hp, -, rfl⟩ := h
  obtain ⟨due, t, ht, hdue, happ⟩ := act_takeKind hd hn hk hs
  have htake : takeSources c.val p p.descr due (lateBy s c.val due) (unhead s c.val n) = some t := by
    simpa [applyPacket, hp, hsrc] using happ
  have hhead := Noted.unhead s c.val n
  refine ⟨due, noteSegment c.val p.descr (unhead s c.val n), hdue, fun hc => hhead.trans (.noteSegment (Noted.clean hc hhead) ..), ?_⟩
  intro src ring trunc hdone
  obtain ⟨t', htake', hstands, hset⟩ := takeSources_done (due := due) (unhead_queue s c.val n) hdone
  obtain rfl : t = t' := Option.some.inj (htake.symm.trans htake')
  exact ⟨t, ht, hstands, hset⟩

/-- With clean cells it finds the header that was there before. -/
theorem Takes.reads {k : Nat} (h : Takes s c n p k) {kinds : List Nat} (hk : k ∈ kinds) (hsrc : k ≠ 0 ∧ k ≠ 8 ∧ k ≠ 15)
    (hc : CleanCells s) {g : SegHeader} (hf : fetchHeader s c.val p.descr = .ok g) :
    ∃ due u, dueOf s c.val n p = some due ∧ Noted s u ∧ fetchHeader u c.val p.descr = .ok g ∧
      SetsFrom s u c n p kinds (lateBy s c.val due) := by
  obtain ⟨due, u, hdue, hnoted, hset⟩ := h.sets hk hsrc
  exact ⟨due, u, hdue, hnoted hc, (hnoted hc).fetchHeader hc hf, hset⟩

end

/-! ### What each KIND sets -/

/-- The sources with player n replaced. -/
def Sources.withPlayer (src : Sources) (n : Nat) (x : Player) : Sources := if n = 0 then { src with p0 := x } else { src with p1 := x }

theorem withPlayer_player (src : Sources) (n : Nat) (x : Player) : (src.withPlayer n x).player n = x := by
  unfold Sources.withPlayer Sources.player
  split <;> rfl

theorem withPlayer_slots (src : Sources) (n : Nat) (x : Player) : (src.withPlayer n x).slots = src.slots := by
  unfold Sources.withPlayer
  split <;> rfl

/-- A player that starts runs on the descriptor's segment with its gain (R100, R101). -/
theorem startPlayer_starts (s : State) (c : Nat) (d : Descr) (h : SegHeader) (miss : Nat) (old : Player) :
    (startPlayer s c d h miss old).active = true ∧ (startPlayer s c d h miss old).angle = (d.kind == 2) ∧
      (startPlayer s c d h miss old).seg = segRef d h ∧ (startPlayer s c d h miss old).gain = s123 (bits d.c1 87 64) := by
  unfold startPlayer
  dsimp only
  split <;> exact ⟨rfl, rfl, rfl, rfl⟩

section
variable {s : State} {c : Nat} {d : Descr} {h : SegHeader} {miss : Nat} {src : Sources}

theorem applySources_play (hok : d.ok = true) (hf : fetchHeader s c d = .ok h) (hk : d.kind = 1 ∨ d.kind = 2)
    (hb : inBench d.segaddr 1 = true) : applySources s c d miss src =
      .done (src.withPlayer d.player (startPlayer s c d h miss (src.player d.player))) (keepPlayed (s.ring c) d.player) false := by
  unfold Sources.withPlayer Sources.player
  by_cases hp : d.player = 0
  · obtain hk | hk := hk <;> simp [applySources, hok, Descr.namesSegment, hk, hf, hb, hp]
  · obtain hk | hk := hk <;> simp [applySources, hok, Descr.namesSegment, hk, hf, hb, hp]

theorem applySources_partials (hok : d.ok = true) (hf : fetchHeader s c d = .ok h) (hk : d.kind = 3)
    (hp : s.anyPoison (d.segaddr + 32) h.bodyBytes = false) : applySources s c d miss src =
      .done (applyPartials s c d h miss src) (s.ring c) (decide (32 < bits d.flags 4 0 + h.count)) := by
  simp [applySources, hok, Descr.namesSegment, hk, hf, hp]

theorem applySources_noise (hok : d.ok = true) (hf : fetchHeader s c d = .ok h) (hk : d.kind = 4)
    (hp : s.anyPoison (d.segaddr + 32) h.bodyBytes = false) : applySources s c d miss src =
      .done (applyNoise s (20 + quadOf c) d h miss src) (s.ring c) false := by
  simp [applySources, hok, Descr.namesSegment, hk, hf, hp]

theorem applySources_pattern (hok : d.ok = true) (hf : fetchHeader s c d = .ok h) (hk : d.kind = 7)
    (hp : s.anyPoison (d.segaddr + 32) h.bodyBytes = false) : applySources s c d miss src =
      .done (applyPattern s (20 + quadOf c) d h miss src) (s.ring c) false := by
  simp [applySources, hok, Descr.namesSegment, hk, hf, hp]

theorem applySources_level_segment (hok : d.ok = true) (hf : fetchHeader s c d = .ok h) (hk : d.kind = 5) (hb : bit d.flags 0 = 0) :
    applySources s c d miss src = .done { src with level := { a1 := s123 h.a } } (s.ring c) false := by
  simp [applySources, hok, Descr.namesSegment, hk, hf, hb]

theorem applySources_ramp_segment (hok : d.ok = true) (hf : fetchHeader s c d = .ok h) (hk : d.kind = 6) (hb : bit d.flags 0 = 0) :
    applySources s c d miss src = .done (applyRamp (s123 h.a) (s123 h.b) h.count (bit d.flags 1 == 1 || bit h.hflags 0 == 1) miss src)
      (s.ring c) false := by
  simp [applySources, hok, Descr.namesSegment, hk, hf, hb]

theorem applySources_level (hok : d.ok = true) (hk : d.kind = 5) (hb : bit d.flags 0 = 1) :
    applySources s c d miss src = .done { src with level := { a1 := s123 (bits d.segaddr 23 0) } } (s.ring c) false := by
  simp [applySources, hok, Descr.namesSegment, hk, hb]

theorem applySources_ramp (hok : d.ok = true) (hk : d.kind = 6) (hb : bit d.flags 0 = 1) : applySources s c d miss src =
    .done (applyRamp (s123 (bits d.c1 23 0)) (s123 (bits d.c1 55 32)) (bits d.c1 95 64) (bit d.flags 1 == 1) miss src) (s.ring c)
      false := by
  simp [applySources, hok, Descr.namesSegment, hk, hb]

theorem applySources_mark (hok : d.ok = true) (hk : d.kind = 9) :
    applySources s c d miss src = .done (applyMark d src) (s.ring c) false := by
  simp [applySources, hok, Descr.namesSegment, hk]

end

/-- Steps of the noise shaper move its generator and its samples alone (R103). -/
theorem Noise.steps_keep (k : Nat) (n : Noise) :
    (n.steps k).level = n.level ∧ (n.steps k).gauss = n.gauss ∧ (n.steps k).secs = n.secs := by
  induction k generalizing n with
  | zero => exact ⟨rfl, rfl, rfl⟩
  | succ k ih => exact ih n.step

theorem applyNoise_sets (s : State) (m : Nat) (d : Descr) (h : SegHeader) (miss : Nat) (src : Sources) :
    (applyNoise s m d h miss src).noise.level = s123 h.a ∧ (applyNoise s m d h miss src).noise.gauss = (bit h.hflags 0 == 1) ∧
      (applyNoise s m d h miss src).noise.secs.length = h.count := by
  unfold applyNoise
  dsimp only
  obtain ⟨hlevel, hgauss, hsecs⟩ := Noise.steps_keep miss _
  exact ⟨hlevel, hgauss, by rw [hsecs, List.length_map, upTo, rangeFrom_length]⟩

/-- A ramp that does not go on from the level it finds begins at its start (R105). -/
theorem applyRamp_start {start fin : Int} {len miss : Nat} {fromCurrent : Bool} {src : Sources} (h : fromCurrent = false) :
    (applyRamp start fin len fromCurrent miss src).level.a0 = start := by
  rw [h]
  rfl

/-- The level of a marker after an action: 0 leaves it, 1 and 3 set it, 2 clears it (R84). -/
theorem markAction_level {a : Nat} (h : a < 4) (level pulse ended : Bool) :
    (markAction a level pulse ended).1 = if a = 0 then level else decide (a ≠ 2) := by
  interval_cases a <;> rfl

/-! ### The commands -/

section
variable {s : State} {c : Chan} {n : Nat} {p : Packet}

/-- A play of a bench segment starts its player on it (R100, R101). -/
theorem plays {k : Nat} (h : Takes s c n p k) (hk : k = 1 ∨ k = 2) (hc : CleanCells s) {g : SegHeader}
    (hf : fetchHeader s c.val p.descr = .ok g) (hb : inBench p.descr.segaddr 1 = true) :
    ∃ t, act s (takeKind [k] c.val) = .next t ∧ Stands t c n p ∧ ((t.cse c.val).src.player p.descr.player).active = true ∧
      ((t.cse c.val).src.player p.descr.player).angle = (k == 2) ∧
      ((t.cse c.val).src.player p.descr.player).seg = segRef p.descr g ∧
      ((t.cse c.val).src.player p.descr.player).gain = s123 (bits p.descr.c1 87 64) ∧
      (t.cse c.val).src.slots = (s.cse c.val).src.slots := by
  obtain ⟨-, -, -, -, hok, hkind⟩ := id h
  obtain ⟨due, u, -, -, hfetch, hset⟩ := h.reads (kinds := [k]) (by simp) (by omega) hc hf
  obtain ⟨t, ht, hstands, hsrc⟩ := hset _ _ _ (applySources_play hok hfetch (by rwa [hkind]) hb)
  obtain ⟨hactive, hangle, hseg, hgain⟩ :=
    startPlayer_starts u c.val p.descr g (lateBy s c.val due) ((s.cse c.val).src.player p.descr.player)
  rw [hkind] at hangle
  refine ⟨t, ht, hstands, ?_⟩
  rw [hsrc, withPlayer_player, withPlayer_slots]
  exact ⟨hactive, hangle, hseg, hgain, rfl⟩

theorem partials_sets (h : Takes s c n p 3) (hc : CleanCells s) {g : SegHeader} (hf : fetchHeader s c.val p.descr = .ok g)
    (hp : s.anyPoison (p.descr.segaddr + 32) g.bodyBytes = false) {due : Int} (hd : dueOf s c.val n p = some due) :
    ∃ t, exec (.partials c) s = .next t ∧ Stands t c n p ∧
      (t.cse c.val).src = applyPartials s c.val p.descr g (lateBy s c.val due) (s.cse c.val).src := by
  obtain ⟨-, -, -, -, hok, hkind⟩ := id h
  obtain ⟨due', u, hdue, hnoted, hfetch, hset⟩ := h.reads (kinds := [3]) (by simp) (by omega) hc hf
  obtain rfl : due = due' := Option.some.inj (hd.symm.trans hdue)
  obtain ⟨t, ht, hstands, hsrc⟩ := hset _ _ _ (applySources_partials hok hfetch hkind ((hnoted.anyPoison ..).trans hp))
  exact ⟨t, ht, hstands, hsrc.trans (hnoted.applyPartials ..)⟩

theorem pattern_sets (h : Takes s c n p 7) (hc : CleanCells s) {g : SegHeader} (hf : fetchHeader s c.val p.descr = .ok g)
    (hp : s.anyPoison (p.descr.segaddr + 32) g.bodyBytes = false) {due : Int} (hd : dueOf s c.val n p = some due) :
    ∃ t, exec (.pattern c) s = .next t ∧ Stands t c n p ∧
      (t.cse c.val).src = applyPattern s (20 + quadOf c.val) p.descr g (lateBy s c.val due) (s.cse c.val).src := by
  obtain ⟨-, -, -, -, hok, hkind⟩ := id h
  obtain ⟨due', u, hdue, hnoted, hfetch, hset⟩ := h.reads (kinds := [7]) (by simp) (by omega) hc hf
  obtain rfl : due = due' := Option.some.inj (hd.symm.trans hdue)
  obtain ⟨t, ht, hstands, hsrc⟩ := hset _ _ _ (applySources_pattern hok hfetch hkind ((hnoted.anyPoison ..).trans hp))
  exact ⟨t, ht, hstands, hsrc.trans (hnoted.applyPattern ..)⟩

theorem noise_sets (h : Takes s c n p 4) (hc : CleanCells s) {g : SegHeader} (hf : fetchHeader s c.val p.descr = .ok g)
    (hp : s.anyPoison (p.descr.segaddr + 32) g.bodyBytes = false) :
    ∃ t, exec (.noise c) s = .next t ∧ Stands t c n p ∧ (t.cse c.val).src.noise.level = s123 g.a ∧
      (t.cse c.val).src.noise.gauss = (bit g.hflags 0 == 1) ∧ (t.cse c.val).src.noise.secs.length = g.count ∧
      (t.cse c.val).src.slots = (s.cse c.val).src.slots := by
  obtain ⟨-, -, -, -, hok, hkind⟩ := id h
  obtain ⟨due, u, -, hnoted, hfetch, hset⟩ := h.reads (kinds := [4]) (by simp) (by omega) hc hf
  obtain ⟨t, ht, hstands, hsrc⟩ := hset _ _ _ (applySources_noise hok hfetch hkind ((hnoted.anyPoison ..).trans hp))
  obtain ⟨hlevel, hgauss, hsecs⟩ := applyNoise_sets u (20 + quadOf c.val) p.descr g (lateBy s c.val due) (s.cse c.val).src
  refine ⟨t, ht, hstands, ?_⟩
  rw [hsrc]
  exact ⟨hlevel, hgauss, hsecs, rfl⟩

theorem level_immediate (h : Takes s c n p 5) (hb : bit p.descr.flags 0 = 1) :
    ∃ t, exec (.level c) s = .next t ∧ Stands t c n p ∧ (t.cse c.val).src.level = { a1 := s123 (bits p.descr.segaddr 23 0) } ∧
      (t.cse c.val).src.slots = (s.cse c.val).src.slots := by
  obtain ⟨-, -, -, -, hok, hkind⟩ := id h
  obtain ⟨due, u, -, -, hset⟩ := h.sets (kinds := [5]) (by simp) (by omega)
  obtain ⟨t, ht, hstands, hsrc⟩ := hset _ _ _ (applySources_level hok hkind hb)
  exact ⟨t, ht, hstands, by rw [hsrc], by rw [hsrc]⟩

theorem level_segment (h : Takes s c n p 5) (hc : CleanCells s) (hb : bit p.descr.flags 0 = 0) {g : SegHeader}
    (hf : fetchHeader s c.val p.descr = .ok g) :
    ∃ t, exec (.level c) s = .next t ∧ Stands t c n p ∧ (t.cse c.val).src.level = { a1 := s123 g.a } ∧
      (t.cse c.val).src.slots = (s.cse c.val).src.slots := by
  obtain ⟨-, -, -, -, hok, hkind⟩ := id h
  obtain ⟨due, u, -, -, hfetch, hset⟩ := h.reads (kinds := [5]) (by simp) (by omega) hc hf
  obtain ⟨t, ht, hstands, hsrc⟩ := hset _ _ _ (applySources_level_segment hok hfetch hkind hb)
  exact ⟨t, ht, hstands, by rw [hsrc], by rw [hsrc]⟩

theorem ramp_immediate (h : Takes s c n p 6) (hb : bit p.descr.flags 0 = 1) :
    ∃ t, exec (.descRamp c) s = .next t ∧ Stands t c n p ∧
      (bit p.descr.flags 1 = 0 → (t.cse c.val).src.level.a0 = s123 (bits p.descr.c1 23 0)) ∧
      (t.cse c.val).src.level.a1 = s123 (bits p.descr.c1 55 32) ∧ (t.cse c.val).src.level.len = bits p.descr.c1 95 64 ∧
      (t.cse c.val).src.slots = (s.cse c.val).src.slots := by
  obtain ⟨-, -, -, -, hok, hkind⟩ := id h
  obtain ⟨due, u, -, -, hset⟩ := h.sets (kinds := [6]) (by simp) (by omega)
  obtain ⟨t, ht, hstands, hsrc⟩ := hset _ _ _ (applySources_ramp hok hkind hb)
  refine ⟨t, ht, hstands, ?_⟩
  rw [hsrc]
  exact ⟨fun h1 => applyRamp_start (by simp [h1]), rfl, rfl, rfl⟩

theorem ramp_segment (h : Takes s c n p 6) (hc : CleanCells s) (hb : bit p.descr.flags 0 = 0) {g : SegHeader}
    (hf : fetchHeader s c.val p.descr = .ok g) :
    ∃ t, exec (.descRamp c) s = .next t ∧ Stands t c n p ∧
      (bit p.descr.flags 1 = 0 → bit g.hflags 0 = 0 → (t.cse c.val).src.level.a0 = s123 g.a) ∧
      (t.cse c.val).src.level.a1 = s123 g.b ∧ (t.cse c.val).src.level.len = g.count ∧
      (t.cse c.val).src.slots = (s.cse c.val).src.slots := by
  obtain ⟨-, -, -, -, hok, hkind⟩ := id h
  obtain ⟨due, u, -, -, hfetch, hset⟩ := h.reads (kinds := [6]) (by simp) (by omega) hc hf
  obtain ⟨t, ht, hstands, hsrc⟩ := hset _ _ _ (applySources_ramp_segment hok hfetch hkind hb)
  refine ⟨t, ht, hstands, ?_⟩
  rw [hsrc]
  exact ⟨fun h1 h2 => applyRamp_start (by simp [h1, h2]), rfl, rfl, rfl⟩

theorem mark_sets (h : Takes s c n p 9) : ∃ t, exec (.descMark c) s = .next t ∧ Stands t c n p ∧
    (t.cse c.val).src.m0 = (if bits p.descr.flags 1 0 = 0 then (s.cse c.val).src.m0 else decide (bits p.descr.flags 1 0 ≠ 2)) ∧
    (t.cse c.val).src.m1 = (if bits p.descr.flags 3 2 = 0 then (s.cse c.val).src.m1 else decide (bits p.descr.flags 3 2 ≠ 2)) := by
  obtain ⟨-, -, -, -, hok, hkind⟩ := id h
  obtain ⟨due, u, -, -, hset⟩ := h.sets (kinds := [9]) (by simp) (by omega)
  obtain ⟨t, ht, hstands, hsrc⟩ := hset _ _ _ (applySources_mark hok hkind)
  refine ⟨t, ht, hstands, ?_⟩
  rw [hsrc]
  exact ⟨markAction_level (bits_lt _ 1 0) .., markAction_level (bits_lt _ 3 2) ..⟩

end

/-- Settles O17: each KIND's descriptor is taken, stands, and sets what its own operation sets, on a state whose memory reads as before. -/
theorem sourceDescriptors : Obligations.SourceDescriptors :=
  ⟨fun _ _ _ _ _ h hc hf hb => plays h (.inl rfl) hc hf hb, fun _ _ _ _ _ h hc hf hb => plays h (.inr rfl) hc hf hb,
    fun _ _ _ _ _ _ h hc hf hp hd => partials_sets h hc hf hp hd, fun _ _ _ _ _ h hc hf hp => noise_sets h hc hf hp,
    fun _ _ _ _ h hb => level_immediate h hb, fun _ _ _ _ _ h hc hb hf => level_segment h hc hb hf,
    fun _ _ _ _ h hb => ramp_immediate h hb, fun _ _ _ _ _ h hc hb hf => ramp_segment h hc hb hf,
    fun _ _ _ _ _ _ h hc hf hp hd => pattern_sets h hc hf hp hd, fun _ _ _ _ h => mark_sets h⟩

end Sys2Proof.Machine
end

section
/-! PROOFS. Stitchers under the shared operations (R115 to R118, R137, R143, R156): what the end of a wait, a stop, a fault, a transfer of
control and a flush do to a Stitcher, and what an instruction that is executed does. -/

namespace Sys2Proof.Machine

-- One declaration at a time: the memory limit counts the stack of every thread that elaborates one.
set_option Elab.async false

/-! ### Stitchers and queues under register writes, events and wakes -/

section
variable (s : State)

@[simp] theorem wr_stitcher (r : Reg) (v i x u q : Nat) : (s.wr r v i x u).stitcher q = s.stitcher q := rfl
@[simp] theorem raise_stitcher (p : Page) (n b q : Nat) : (raise p n b s).stitcher q = s.stitcher q :=
  congrArg (Store.get _ · q) (raise_stitchers s p n b)
@[simp] theorem recordErr_stitcher (p : Page) (n c m : Nat) (w : Bool) (o q : Nat) :
    (recordErr p n c m w o s).stitcher q = s.stitcher q := congrArg (Store.get _ · q) (recordErr_stitchers s p n c m w o)
@[simp] theorem setStitcher_queue (q : Nat) (x : Stitcher) (k : Nat) : (s.setStitcher q x).queue k = s.queue k := rfl

end

theorem stitcher_of_only {l : List Part} {s t : State} (h : OnlyChanges l s t) (hl : .stitchers ∉ l) (q : Nat) :
    t.stitcher q = s.stitcher q := congrArg (Store.get _ · q) (h _ hl)

theorem cse_of_only {l : List Part} {s t : State} (h : OnlyChanges l s t) (hl : .cses ∉ l) (c : Nat) : t.cse c = s.cse c := by
  unfold State.cse
  rw [h _ hl]

theorem satAdd_lt (w v d : Nat) : satAdd w v d < 2 ^ w := by
  have := Nat.two_pow_pos w
  unfold satAdd
  split <;> omega

/-- A counter counts one up, within its width. -/
theorem State.rd_inc_same (s : State) (r : Reg) (i x u : Nat) : (s.inc r i x u).rd r i x u = satAdd r.width (s.rd r i x u) 1 := by
  rw [State.inc, State.rd_wr_same, Nat.mod_eq_of_lt (satAdd_lt ..)]

@[simp] theorem inc_stitcher (s : State) (r : Reg) (i x u q : Nat) : (s.inc r i x u).stitcher q = s.stitcher q := rfl

theorem mem_filter_upTo {n i : Nat} {p : Nat → Bool} : i ∈ (upTo n).filter p ↔ i < n ∧ p i = true := by
  rw [List.mem_filter, mem_upTo]

/-- The fields of the wait and of the run of a Stitcher. -/
def waitFields : List Reg :=
  [.STITCH_STATUS_WAIT_TIME, .STITCH_STATUS_WAIT_EVENT, .STITCH_STATUS_CREDIT_WAIT, .STITCH_STATUS_GANG_WAIT]

/-! ### The end of a wait (R135, R139) -/

section
variable (q : Nat) (s : State)

theorem endWait_eq : endWait q s = ((((s.setStitcher q { s.stitcher q with wait := .none }).wr .STITCH_STATUS_WAIT_TIME 0 q).wr
    .STITCH_STATUS_WAIT_EVENT 0 q).wr .STITCH_STATUS_CREDIT_WAIT 0 q).wr .STITCH_STATUS_GANG_WAIT 0 q := rfl

@[simp] theorem endWait_stitcher : (endWait q s).stitcher q = { s.stitcher q with wait := .none } := by
  rw [endWait_eq, wr_stitcher, wr_stitcher, wr_stitcher, wr_stitcher, State.stitcher_setStitcher]

theorem endWait_rd {r : Reg} (hr : r ∉ waitFields) (i x u : Nat) : (endWait q s).rd r i x u = s.rd r i x u := by
  simp only [waitFields, List.mem_cons, List.not_mem_nil, or_false, not_or] at hr
  obtain ⟨h1, h2, h3, h4⟩ := hr
  simp [endWait_eq, Ne.symm h1, Ne.symm h2, Ne.symm h3, Ne.symm h4]

theorem endWait_clears {r : Reg} (hr : r ∈ waitFields) : (endWait q s).rd r q = 0 :=
  each_reaches (P := fun t => t.rd r q = 0) (fun t => by simp) (fun r' t h => rd_wr_zero h r' q 0 0) hr _

@[simp] theorem endWait_queues : (endWait q s).queues = s.queues := by
  simp only [endWait_eq, State.wr_queues, State.setStitcher_queues]

/-! ### The next instruction and transfers of control (R116, R118, R122) -/

@[simp] theorem nextPc_stitcher : (nextPc q s).stitcher q =
    { s.stitcher q with ir := none, todo := [], pc := (s.stitcher q).pc + 1 } := State.stitcher_setStitcher ..

@[simp] theorem nextPc_rd (r : Reg) (i x u : Nat) : (nextPc q s).rd r i x u = s.rd r i x u := rfl

@[simp] theorem nextPc_queues : (nextPc q s).queues = s.queues := rfl

end

theorem progLen_congr {s t : State} {q : Nat} (h : t.rd .STITCH_PROG_LEN_LEN q = s.rd .STITCH_PROG_LEN_LEN q) :
    progLen t q = progLen s q := by rw [progLen, progLen, h]

/-- Control goes to a target within the program. -/
theorem goto_within {s : State} {q t : Nat} (h : t < progLen s q) :
    goto q t s = s.setStitcher q { s.stitcher q with ir := none, todo := [], pc := t, ahead := [] } := if_neg (by omega)

theorem goto_stitcher {s : State} {q t : Nat} (h : t < progLen s q) : (goto q t s).stitcher q =
    { s.stitcher q with ir := none, todo := [], pc := t, ahead := [] } := by rw [goto_within h, State.stitcher_setStitcher]

/-- A running Stitcher that waits for nothing goes on with the next instruction. -/
theorem goesOn_nextPc {s : State} {q : Quad} (hr : s.rd .STITCH_STATUS_RUNNING q.val = 1) (hw : (s.stitcher q.val).wait = .none) :
    GoesOn (nextPc q.val s) q ((s.stitcher q.val).pc + 1) := by
  rw [GoesOn, nextPc_stitcher]
  exact ⟨hr, rfl, hw, rfl⟩

/-- Or at the target of a transfer within the program. -/
theorem goesOn_goto {s : State} {q : Quad} {t : Nat} (hr : s.rd .STITCH_STATUS_RUNNING q.val = 1)
    (hw : (s.stitcher q.val).wait = .none) (h : t < progLen s q.val) : GoesOn (goto q.val t s) q t := by
  rw [goto_within h, GoesOn, State.stitcher_setStitcher]
  exact ⟨hr, rfl, hw, rfl⟩

/-- Stitcher q executes the word that it holds. -/
theorem runOp_executes {s : State} {q : Quad} {w op : Nat} (h : Executes s q w op) (f : Nat → State → State) :
    act s (runOp q.val op f) = .next (f w s) := by
  obtain ⟨hd, hr, hir, hw, hop⟩ := h
  rw [act_up hd, runOp, hir]
  exact congrArg _ (if_pos ⟨hr, hw, hop⟩)

theorem Executes.running {s : State} {q : Quad} {w op : Nat} (h : Executes s q w op) : s.rd .STITCH_STATUS_RUNNING q.val = 1 := h.2.1

theorem Executes.idle {s : State} {q : Quad} {w op : Nat} (h : Executes s q w op) : (s.stitcher q.val).wait = .none := h.2.2.2.1

/-! ### Stopping (R117, R143, R156) -/

/-- From s to t nothing of Stitcher q changes but its armed jumps. -/
def ArmsOnly (q : Nat) (s t : State) : Prop := ∃ a, t.stitcher q = { s.stitcher q with armed := a }

theorem ArmsOnly.refl (q : Nat) (s : State) : ArmsOnly q s s := ⟨_, rfl⟩

theorem ArmsOnly.trans {q : Nat} {s t u : State} (h : ArmsOnly q s t) (k : ArmsOnly q t u) : ArmsOnly q s u := by
  obtain ⟨a, ha⟩ := h
  obtain ⟨b, hb⟩ := k
  exact ⟨b, by rw [hb, ha]⟩

theorem each_dropAlternate_stitcher (cs : List Nat) (q : Nat) (s : State) :
    (each cs dropAlternate s).stitcher q = s.stitcher q :=
  stitcher_of_only (each_keeps (fun c _ h => dropAlternate_keeps h (.self _) c) (.refl (mask [.cses, .outs]) s)).only (by decide) q

theorem setArmed_stitcher (q e : Nat) (j : Option ArmedJump) (s : State) :
    (setArmed q e j s).stitcher q = { s.stitcher q with armed := Store.set none (s.stitcher q).armed e j } :=
  State.stitcher_setStitcher ..

@[simp] theorem armedJump_setArmed (q e : Nat) (j : Option ArmedJump) (s : State) : armedJump (setArmed q e j s) q e = j := by
  simp [armedJump, setArmed_stitcher]

theorem armedJump_setArmed_ne {e e' : Nat} (h : e ≠ e') (q : Nat) (j : Option ArmedJump) (s : State) :
    armedJump (setArmed q e j s) q e' = armedJump s q e' := by
  simp [armedJump, setArmed_stitcher, Store.get_set_ne' _ _ _ _ h]

theorem setArmed_armsOnly (q e : Nat) (j : Option ArmedJump) (s : State) : ArmsOnly q s (setArmed q e j s) :=
  ⟨_, setArmed_stitcher ..⟩

theorem disarmInput_armsOnly (q e : Nat) (s : State) : ArmsOnly q s (disarmInput q e s) := by
  unfold disarmInput
  split
  · rename_i j _
    exact ⟨_, (setArmed_stitcher ..).trans (by rw [each_dropAlternate_stitcher])⟩
  · exact .refl q s

/-- A disarmed input holds no jump. -/
theorem disarmInput_disarms (q e : Nat) (s : State) : armedJump (disarmInput q e s) q e = none := by
  unfold disarmInput
  split
  · exact armedJump_setArmed ..
  · assumption

theorem disarmInput_keeps_none {q e' : Nat} {s : State} (h : armedJump s q e' = none) (e : Nat) :
    armedJump (disarmInput q e s) q e' = none := by
  by_cases he : e = e'
  · exact he ▸ disarmInput_disarms ..
  · unfold disarmInput
    split
    · rw [armedJump_setArmed_ne he, armedJump, each_dropAlternate_stitcher]
      exact h
    · exact h

@[simp] theorem disarmInput_rd (q e : Nat) (s : State) (r : Reg) (i x u : Nat) : (disarmInput q e s).rd r i x u = s.rd r i x u :=
  (disarmInput_keeps (.refl (mask [.cses, .stitchers, .outs]) s) (.self _) q e).only (.reg r) (by simp) i x u

@[simp] theorem disarmAll_rd (q : Nat) (s : State) (r : Reg) (i x u : Nat) : (disarmAll q s).rd r i x u = s.rd r i x u :=
  (disarmAll_keeps (.refl (mask [.cses, .stitchers, .outs]) s) (.self _) q).only (.reg r) (by simp) i x u

theorem disarmAll_armsOnly (q : Nat) (s : State) : ArmsOnly q s (disarmAll q s) :=
  each_rel (ArmsOnly.refl q) ArmsOnly.trans (fun e _ t => disarmInput_armsOnly q e t) s

theorem disarmAll_disarms {e : Nat} (he : e < 16) (q : Nat) (s : State) : armedJump (disarmAll q s) q e = none :=
  each_reaches (P := fun t => armedJump t q e = none) (disarmInput_disarms q e) (fun e' _ h => disarmInput_keeps_none h e')
    (mem_upTo.mpr he) s

section
variable (q : Nat) (s : State)

theorem withdraw_stitcher : (withdraw q s).stitcher q = { s.stitcher q with gang := none } := by
  simp [withdraw, each, upTo, rangeFrom]

theorem withdraw_armedJump (e : Nat) : armedJump (withdraw q s) q e = armedJump s q e := by
  rw [armedJump, withdraw_stitcher, armedJump]

theorem withdraw_rd {r : Reg} (h : .STITCH_GANG_READY_READY ≠ r) (i x u : Nat) : (withdraw q s).rd r i x u = s.rd r i x u := by
  simp [withdraw, each, upTo, rangeFrom, h]

theorem withdraw_unready {k : Nat} (hk : k < 4) : (withdraw q s).rd .STITCH_GANG_READY_READY q 0 k = 0 :=
  each_reaches (P := fun t => t.rd .STITCH_GANG_READY_READY q 0 k = 0) (fun t => by simp) (fun k' t h => rd_wr_zero h _ q 0 k')
    (mem_upTo.mpr hk) _

@[simp] theorem stopRun_stitcher : (stopRun q s).stitcher q =
    { s.stitcher q with wait := .none, ir := none, todo := [], gang := none, played := false } := by
  rw [stopRun, wr_stitcher, State.stitcher_setStitcher, endWait_stitcher]

theorem stopRun_rd {r : Reg} (hw : r ∉ waitFields) (hr : .STITCH_STATUS_RUNNING ≠ r) (i x u : Nat) :
    (stopRun q s).rd r i x u = s.rd r i x u := by
  simp [stopRun, hr, endWait_rd _ _ hw]

theorem stopRun_running : (stopRun q s).rd .STITCH_STATUS_RUNNING q = 0 := by simp [stopRun]

/-- No input of Stitcher q stays armed and no gang READY. -/
def disengage : State := withdraw q (disarmAll q s)

/-- A Stitcher that is disengaged keeps everything but its jumps and its gang. -/
theorem disengage_stitcher : ∃ a, (disengage q s).stitcher q = { s.stitcher q with gang := none, armed := a } := by
  obtain ⟨a, ha⟩ := disarmAll_armsOnly q s
  exact ⟨a, by rw [disengage, withdraw_stitcher, ha]⟩

theorem disengage_disarms {e : Nat} (he : e < 16) : armedJump (disengage q s) q e = none := by
  rw [disengage, withdraw_armedJump, disarmAll_disarms he]

theorem disengage_rd {r : Reg} (h : .STITCH_GANG_READY_READY ≠ r) (i x u : Nat) : (disengage q s).rd r i x u = s.rd r i x u := by
  rw [disengage, withdraw_rd q _ h, disarmAll_rd]

theorem disengage_unready {k : Nat} (hk : k < 4) : (disengage q s).rd .STITCH_GANG_READY_READY q 0 k = 0 := by
  rw [disengage, withdraw_unready q _ hk]

/-- The record of a fault at the instruction of a stopped Stitcher (R156). -/
def faultRecord (q cause pc : Nat) (s : State) : State :=
  ((s.wr .STITCH_STATUS_FAULTED 1 q).wr .STITCH_FAULT_CAUSE cause q).wr .STITCH_FAULT_PC pc q

/-- The error record of a fault, where its cause has one. -/
def faultError (q cause : Nat) (s : State) : State :=
  match faultCode cause with
  | some e => recordErr .stitch q e (8 + q) false 0 s
  | none => s

theorem stitchFault_eq (cause : Nat) : stitchFault q cause s =
    raise .stitch q 1 (faultError q cause (faultRecord q cause (s.stitcher q).pc (disengage q (stopRun q s)))) := rfl

theorem faultError_rd {r : Reg} (hr : .reg r ∉ errors) (cause i x u : Nat) : (faultError q cause s).rd r i x u = s.rd r i x u := by
  unfold faultError
  split
  · exact (recordErr_keeps (.refl (mask errors) s) (.of_beq (by decide +kernel)) ..).only (.reg r) hr i x u
  · rfl

/-- A fault stops the Stitcher, records its cause and its place, and raises FAULT. -/
theorem stitchFault_faults {cause : Nat} (hc : cause < 2 ^ Reg.STITCH_FAULT_CAUSE.width) :
    (stitchFault q cause s).rd .STITCH_STATUS_FAULTED q = 1 ∧ (stitchFault q cause s).rd .STITCH_FAULT_CAUSE q = cause ∧
      (stitchFault q cause s).rd .STITCH_FAULT_PC q = (s.stitcher q).pc % 2 ^ Reg.STITCH_FAULT_PC.width ∧
      (stitchFault q cause s).rd .STITCH_STATUS_RUNNING q = 0 ∧ Raised (stitchFault q cause s) .stitch q 1 := by
  rw [stitchFault_eq]
  refine ⟨?_, ?_, ?_, ?_, raise_raw ..⟩ <;> rw [raise_rd _ (by decide) (by decide), faultError_rd _ _ (by decide)]
  · simp [faultRecord, Reg.width, Reg.info]
  · simp [faultRecord, Nat.mod_eq_of_lt hc]
  · exact State.rd_wr_same ..
  · simp [faultRecord, disengage_rd, stopRun_running]

end

/-! ### Flushes (R137, R177) -/

/-- From s to t nothing of Stitcher q changes but the gangs whose staged packets a flush has discarded. -/
def FlushedOnly (q : Nat) (s t : State) : Prop := ∃ f, t.stitcher q = { s.stitcher q with flushed := f }

theorem FlushedOnly.refl (q : Nat) (s : State) : FlushedOnly q s s := ⟨_, rfl⟩

theorem FlushedOnly.trans {q : Nat} {s t u : State} (h : FlushedOnly q s t) (k : FlushedOnly q t u) : FlushedOnly q s u := by
  obtain ⟨a, ha⟩ := h
  obtain ⟨b, hb⟩ := k
  exact ⟨b, by rw [hb, ha]⟩

theorem FlushedOnly.same {q : Nat} {s t : State} (h : t.stitcher q = s.stitcher q) : FlushedOnly q s t := ⟨_, h⟩

theorem noteFlushed_flushedOnly (q k : Nat) (ps : List Packet) (s : State) : FlushedOnly q s (noteFlushed k ps s) := by
  unfold noteFlushed
  dsimp only
  split
  · exact .refl q s
  · by_cases hk : k = q
    · subst hk
      exact ⟨_, State.stitcher_setStitcher ..⟩
    · exact .same (State.stitcher_setStitcher_ne _ hk _)

@[simp] theorem endPredecessor_stitcher (c q : Nat) (s : State) : (endPredecessor c s).stitcher q = s.stitcher q :=
  stitcher_of_only (endPredecessor_keeps (.refl (mask [.cses]) s) (.self _) c).only (by decide) q

theorem flushQueue_flushedOnly (q i : Nat) (s : State) : FlushedOnly q s (flushQueue i s) := by
  unfold flushQueue
  dsimp only
  generalize hu : (if (((s.queue i).head.toList ++ (s.queue i).cells).any Packet.held) = true then endPredecessor (i / 4) s else s) = u
  have hus : u.stitcher q = s.stitcher q := by
    rw [← hu]
    split
    · exact endPredecessor_stitcher ..
    · rfl
  generalize hgone : (s.queue i).head.toList ++ (s.queue i).cells = gone
  have hdoom (t : State) : (each (upTo 3) (fun m t => if t.rd .TACK_PUSH_STAT_OPEN 0 m = 1 ∧ (t.stage m).queue = i then
      t.setStage m (t.stage m |>.doom s.osc) else t) t).stitcher q = t.stitcher q :=
    stitcher_of_only (each_keeps (fun m _ h => .ite (State.setStage_keeps h (.self _) ..) h) (.refl (mask [.staging]) t)).only
      (by decide) q
  have hempty : FlushedOnly q s (u.setQueue i { s.queue i with head := none, cells := [] }) := .same hus
  refine (hempty.trans (noteFlushed_flushedOnly q (i / 16) gone _)).trans (.same ?_)
  rw [refreshFlushBusy, wr_stitcher]
  exact hdoom _

theorem flushChannel_flushedOnly (q c : Nat) (s : State) : FlushedOnly q s (flushChannel c s) :=
  each_rel (FlushedOnly.refl q) FlushedOnly.trans (fun i _ t => flushQueue_flushedOnly q i t) s

/-- The Stitcher of a flush: a release time that no push has used goes, and the mark of the next push to each channel is set or goes
(R137). -/
def Stitcher.marked (st : Stitcher) (mask : Nat) (immediate : Bool) : Stitcher :=
  let ps := (upTo 4).filter (fun i => bit mask i == 1)
  { st with
    release := ps.foldl (fun r i => Store.set none r i none) st.release
    immediate := if immediate then (upTo 4).filter (fun i => st.immediate.contains i || ps.contains i)
                 else st.immediate.filter (fun i => !ps.contains i) }

theorem flushMask_stitcher (q mask : Nat) (immediate : Bool) (s : State) :
    ∃ f, (flushMask q mask immediate s).stitcher q = { (s.stitcher q).marked mask immediate with flushed := f } := by
  obtain ⟨f, hf⟩ := each_rel (R := FlushedOnly q) (FlushedOnly.refl q) FlushedOnly.trans (fun c _ t => flushChannel_flushedOnly q c t)
    (xs := maskChans q mask) (s.setStitcher q ((s.stitcher q).marked mask immediate))
  exact ⟨f, hf.trans (by rw [State.stitcher_setStitcher])⟩

/-- What a flush changes. -/
def flushParts : List Part := [.reg .TACK_QLEVEL_FLUSH_BUSY, .cses, .stitchers, .queues, .staging]

theorem flushMask_rd {r : Reg} (h : .reg r ∉ flushParts) (q mask : Nat) (immediate : Bool) (s : State) (i x u : Nat) :
    (flushMask q mask immediate s).rd r i x u = s.rd r i x u :=
  (flushMask_keeps (.refl (Machine.mask flushParts) s) (.self _) q mask immediate).only (.reg r) h i x u

/-- The next push to each channel that a jump flushes is immediate. -/
theorem marked_immediate (st : Stitcher) {mask i : Nat} (hi : i < 4) (hb : bit mask i = 1) : i ∈ (st.marked mask true).immediate := by
  have hmem : i ∈ (upTo 4).filter (fun i => bit mask i == 1) := mem_filter_upTo.mpr ⟨hi, by simp [hb]⟩
  exact mem_filter_upTo.mpr ⟨hi, by simp only [List.contains_iff_mem.mpr hmem, Bool.or_true]⟩

end Sys2Proof.Machine
end

section
/-! PROOFS. Start, stop and fetch of a Stitcher (R115 to R117, R119, R156), and NOP and HALT (R134). -/

namespace Sys2Proof.Machine

-- One declaration at a time: the memory limit counts the stack of every thread that elaborates one.
set_option Elab.async false

/-! ### NOP and HALT (R134) -/

theorem nop_executes {s : State} {q : Quad} {w : Nat} (h : Executes s q w 0x00) : exec (.nop q) s = .next (nextPc q.val s) :=
  runOp_executes h _

/-- A Stitcher that halts goes past its instruction, and nothing else of it or of the channels changes. -/
theorem halt_halts (q : Nat) (s : State) : (halt q s).rd .STITCH_STATUS_HALTED q = 1 ∧ (halt q s).rd .STITCH_STATUS_RUNNING q = 0 ∧
    Raised (halt q s) .stitch q 0 ∧ (halt q s).stitcher q = (nextPc q s).stitcher q ∧ (halt q s).cses = s.cses := by
  refine ⟨?_, ?_, raise_raw .., ?_, ?_⟩
  · simp [halt, Reg.width, Reg.info]
  · simp [halt]
  · rw [halt, raise_stitcher, wr_stitcher, wr_stitcher]
  · rw [halt, raise_cses]
    rfl

theorem halt_executes {s : State} {q : Quad} {w : Nat} (h : Executes s q w 0x01) : exec (.halt q) s = .next (halt q.val s) :=
  runOp_executes h _

/-! ### Start (R117) -/

/-- The latches of every input cleared. -/
def clearInputs (q : Nat) (s : State) : State := each (upTo 16) (fun e s => s.wr .STITCH_EVIN_LATCHED_LATCHED 0 q 0 e) s

section
variable (q : Nat) (s : State)

theorem clearInputs_only : OnlyChanges [.reg .STITCH_EVIN_LATCHED_LATCHED] s (clearInputs q s) :=
  (each_keeps (fun _ _ h => wr_keeps h (.self _) ..) (.refl (mask [.reg .STITCH_EVIN_LATCHED_LATCHED]) s)).only

theorem clearInputs_clears {e : Nat} (he : e < 16) : (clearInputs q s).rd .STITCH_EVIN_LATCHED_LATCHED q 0 e = 0 :=
  each_reaches (P := fun t => t.rd .STITCH_EVIN_LATCHED_LATCHED q 0 e = 0) (fun t => by simp) (fun e' t h => rd_wr_zero h _ q 0 e')
    (mem_upTo.mpr he) s

/-- The Stitcher after its start. -/
def freshStitcher : Stitcher :=
  { pc := s.rd .STITCH_START_PC_PC q, mcFrom := (s.stitcher q).mcFrom, used := (s.stitcher q).used }

/-- The stop that comes before a start, and the Stitcher and its inputs anew. -/
def restarted : State := clearInputs q ((disengage q (stopRun q s)).setStitcher q (freshStitcher q s))

theorem startStitcher_eq : startStitcher q s =
    (((restarted q s).wr .STITCH_STATUS_RUNNING 1 q).wr .STITCH_STATUS_HALTED 0 q).wr .STITCH_STATUS_FAULTED 0 q := rfl

theorem startStitcher_stitcher : (startStitcher q s).stitcher q = freshStitcher q s := by
  rw [startStitcher_eq, wr_stitcher, wr_stitcher, wr_stitcher, restarted, stitcher_of_only (clearInputs_only q _) (by decide),
    State.stitcher_setStitcher]

theorem startStitcher_disarms (e : Nat) : armedJump (startStitcher q s) q e = none := by
  rw [armedJump, startStitcher_stitcher]
  rfl

/-- The start leaves every field but those of the Stitcher's status, its latches and its gangs. -/
theorem startStitcher_rd {r : Reg} (hw : r ∉ waitFields) (h1 : .STITCH_STATUS_RUNNING ≠ r) (h2 : .STITCH_GANG_READY_READY ≠ r)
    (h3 : .STITCH_STATUS_HALTED ≠ r) (h4 : .STITCH_STATUS_FAULTED ≠ r) (h5 : .STITCH_EVIN_LATCHED_LATCHED ≠ r) (i x u : Nat) :
    (startStitcher q s).rd r i x u = s.rd r i x u := by
  rw [startStitcher_eq, State.rd_wr_reg _ h4, State.rd_wr_reg _ h3, State.rd_wr_reg _ h1, restarted,
    clearInputs_only q _ (.reg r) (by simp [h5.symm]), State.setStitcher_rd, disengage_rd _ _ h2, stopRun_rd _ _ hw h1]

theorem startStitcher_status : (startStitcher q s).rd .STITCH_STATUS_RUNNING q = 1 ∧ (startStitcher q s).rd .STITCH_STATUS_HALTED q = 0 ∧
    (startStitcher q s).rd .STITCH_STATUS_FAULTED q = 0 := by
  simp [startStitcher_eq, Reg.width, Reg.info]

theorem startStitcher_unlatches {e : Nat} (he : e < 16) : (startStitcher q s).rd .STITCH_EVIN_LATCHED_LATCHED q 0 e = 0 := by
  simp [startStitcher_eq, restarted, clearInputs_clears _ _ he]

theorem startStitcher_unready {k : Nat} (hk : k < 4) : (startStitcher q s).rd .STITCH_GANG_READY_READY q 0 k = 0 := by
  rw [startStitcher_eq, State.rd_wr_reg _ (by decide), State.rd_wr_reg _ (by decide), State.rd_wr_reg _ (by decide), restarted,
    clearInputs_only q _ (.reg .STITCH_GANG_READY_READY) (by decide), State.setStitcher_rd, disengage_unready _ _ hk]

/-! ### Stop and soft reset (R117, R415) -/

theorem stopStitcher_eq : stopStitcher q s = disengage q ((stopRun q s).wr .STITCH_STATUS_HALTED 0 q) := rfl

/-- What a stop, and what includes one, leaves of Stitcher q: no run, no wait, no instruction, no armed input and no gang READY. -/
structure Stopped (q : Nat) (t : State) : Prop where
  running : t.rd .STITCH_STATUS_RUNNING q = 0
  halted : t.rd .STITCH_STATUS_HALTED q = 0
  ir : (t.stitcher q).ir = none
  wait : (t.stitcher q).wait = .none
  disarmed : ∀ e : Nat, e < 16 → armedJump t q e = none
  unready : ∀ k : Nat, k < 4 → t.rd .STITCH_GANG_READY_READY q 0 k = 0

/-- A write of 0 to any field of a stopped Stitcher leaves it stopped. -/
theorem Stopped.clear {q : Nat} {t : State} (h : Stopped q t) (r : Reg) (i x u : Nat) : Stopped q (t.wr r 0 i x u) where
  running := rd_wr_zero h.running ..
  halted := rd_wr_zero h.halted ..
  ir := h.ir
  wait := h.wait
  disarmed := h.disarmed
  unready k hk := rd_wr_zero (h.unready k hk) ..

theorem stopStitcher_stops : Stopped q (stopStitcher q s) := by
  rw [stopStitcher_eq]
  obtain ⟨a, ha⟩ := disengage_stitcher q ((stopRun q s).wr .STITCH_STATUS_HALTED 0 q)
  rw [wr_stitcher, stopRun_stitcher] at ha
  exact {
    running := by simp [disengage_rd, stopRun_running]
    halted := by simp [disengage_rd]
    ir := by rw [ha]
    wait := by rw [ha]
    disarmed := fun e he => disengage_disarms q _ he
    unready := fun k hk => disengage_unready q _ hk }

theorem stopStitcher_rd {r : Reg} (hw : r ∉ waitFields) (h1 : .STITCH_STATUS_RUNNING ≠ r) (h2 : .STITCH_GANG_READY_READY ≠ r)
    (h3 : .STITCH_STATUS_HALTED ≠ r) (i x u : Nat) : (stopStitcher q s).rd r i x u = s.rd r i x u := by
  rw [stopStitcher_eq, disengage_rd _ _ h2, State.rd_wr_reg _ h3, stopRun_rd _ _ hw h1]

/-- STATUS, FAULT and the counters, which a soft reset clears. -/
def resetFields : List Reg := [.STITCH_STATUS_RUNNING, .STITCH_STATUS_HALTED, .STITCH_STATUS_FAULTED, .STITCH_STATUS_MC_PENDING,
  .STITCH_STATUS_MC_BANK, .STITCH_FAULT_CAUSE, .STITCH_FAULT_PC, .STITCH_EVIN_IGNORED_COUNT, .STITCH_PUSH_CNT_COUNT,
  .STITCH_STALL_CNT_COUNT]

theorem resetStitcher_eq : resetStitcher q s = each resetFields (fun r s => s.wr r 0 q)
    ((stopStitcher q (dropCommits .stitch q s)).wr .CTRL_ENABLE 0 q (Page.code .stitch)) := rfl

theorem resetStitcher_stops : Stopped q (resetStitcher q s) := by
  rw [resetStitcher_eq]
  exact each_rel (R := fun a b => Stopped q a → Stopped q b) (fun _ => id) (fun h k hs => k (h hs)) (fun r _ t h => h.clear r q 0 0) _
    ((stopStitcher_stops ..).clear ..)

theorem resetStitcher_clears {r : Reg} (hr : r ∈ resetFields) : (resetStitcher q s).rd r q = 0 :=
  each_reaches (P := fun t => t.rd r q = 0) (fun t => by simp) (fun r' t h => rd_wr_zero h r' q 0 0) hr _

theorem resetStitcher_disables : (resetStitcher q s).rd .CTRL_ENABLE q (Page.code .stitch) = 0 := by
  rw [resetStitcher_eq]
  exact each_rel (R := fun a b => a.rd .CTRL_ENABLE q (Page.code .stitch) = 0 → b.rd .CTRL_ENABLE q (Page.code .stitch) = 0)
    (fun _ => id) (fun h k hs => k (h hs)) (fun r _ t h => rd_wr_zero h r q 0 0) _ (by simp)

end

/-! ### Writes of ENABLE (R117) -/

theorem writeStitchEnable_rises {q : Nat} {s : State} (h : s.rd .CTRL_ENABLE q (Page.code .stitch) = 0) :
    writeStitchEnable q true s = startStitcher q (s.wr .CTRL_ENABLE 1 q (Page.code .stitch)) := by
  simp [writeStitchEnable, h]

theorem writeStitchEnable_falls {q : Nat} {s : State} (h : s.rd .CTRL_ENABLE q (Page.code .stitch) = 1) :
    writeStitchEnable q false s = stopStitcher q (s.wr .CTRL_ENABLE 0 q (Page.code .stitch)) := by
  simp [writeStitchEnable, h]

/-! ### Fetch (R115, R116, R156) -/

/-- The word at PC, fetched. -/
def fetched (q w : Nat) (s : State) : State :=
  s.setStitcher q { s.stitcher q with ahead := fetchAhead s q, ir := some w, played := false }

/-- A legal word within the program that the Stitcher may read, with no error and not fetched ahead, is held as it stands. -/
theorem fetchWord_holds {q : Nat} {s : State} (hpc : (s.stitcher q).pc < progLen s q)
    (hb : inBench (progAddr s q (s.stitcher q).pc) 8 = true)
    (hm : memAllowed s (8 + q) .read (progAddr s q (s.stitcher q).pc) 8 = true)
    (hp : s.anyPoison (progAddr s q (s.stitcher q).pc) 8 = false) (ha : Store.get none (s.stitcher q).ahead (s.stitcher q).pc = none)
    (hd : decodeFault (s.leAt (progAddr s q (s.stitcher q).pc) 8) = none) :
    fetchWord q s = fetched q (s.leAt (progAddr s q (s.stitcher q).pc) 8) s := by
  unfold fetchWord
  dsimp only
  rw [if_neg (by omega), if_neg (by simp [hb, hm]), if_neg (by simp [hp]), ha]
  simp only [Option.getD_none, if_true, hd]
  rfl

/-- A place at or past the end of the program faults. -/
theorem fetchWord_past {q : Nat} {s : State} (h : progLen s q ≤ (s.stitcher q).pc) : fetchWord q s = stitchFault q 3 s := if_pos h

theorem fetchReady_running {q : Nat} {s : State} (h : fetchReady s q = true) : s.rd .STITCH_STATUS_RUNNING q = 1 := by
  simp only [fetchReady, Bool.and_eq_true, beq_iff_eq] at h
  exact h.1.1.1

/-- Settles O20: start, stop, soft reset, fetch and a fault of the fetch each by the law of its operation. -/
theorem stitcherControl : Obligations.StitcherControl := by
  refine ⟨fun s m q h he => ⟨_, cmd_ok h .., ?_⟩, fun s m q h he => ⟨_, cmd_ok h .., ?_⟩, fun s m q h => ⟨_, cmd_ok h .., ?_⟩,
    fun s q hd hf hpc hb hm hp ha hdec => ⟨_, act_on hd hf _, ?_⟩, fun s q hd hf hpc hlt => ⟨_, act_on hd hf _, ?_⟩,
    fun s q w h => ⟨_, nop_executes h, goesOn_nextPc h.running h.idle⟩, fun s q w h => ⟨_, halt_executes h, ?_⟩⟩
  · rw [writeStitchEnable_rises (by simpa using he)]
    obtain ⟨hrun, hhalt, hfault⟩ := startStitcher_status q.val ((hostWake m.val s).wr .CTRL_ENABLE 1 q.val (Page.code .stitch))
    rw [GoesOn, startStitcher_stitcher]
    refine ⟨?_, ⟨hrun, rfl, rfl, ?_⟩, rfl, rfl, hhalt, hfault,
      fun e he => ⟨startStitcher_disarms .., startStitcher_unlatches _ _ he⟩, fun k hk => startStitcher_unready _ _ hk⟩
    · rw [startStitcher_rd _ _ (by decide) (by decide) (by decide) (by decide) (by decide) (by decide), State.rd_wr_same]
      rfl
    · simp [freshStitcher]
  · rw [writeStitchEnable_falls (by simpa using he)]
    have hstop := stopStitcher_stops q.val ((hostWake m.val s).wr .CTRL_ENABLE 0 q.val (Page.code .stitch))
    refine ⟨?_, hstop.running, hstop.halted, hstop.ir, hstop.wait, hstop.disarmed, hstop.unready⟩
    rw [stopStitcher_rd _ _ (by decide) (by decide) (by decide) (by decide), State.rd_wr_same]
    rfl
  · have hstop := resetStitcher_stops q.val (hostWake m.val s)
    have hclear {r : Reg} (hr : r ∈ resetFields) := resetStitcher_clears q.val (hostWake m.val s) hr
    exact ⟨resetStitcher_disables .., hstop.running, hstop.halted, hclear (by decide), hclear (by decide), hclear (by decide),
      hclear (by decide), hclear (by decide), hclear (by decide), hclear (by decide), hclear (by decide), hstop.ir, hstop.wait,
      hstop.disarmed, hstop.unready⟩
  · rw [fetchWord_holds hpc hb hm hp ha hdec, fetched, State.stitcher_setStitcher]
    exact ⟨rfl, rfl, (State.setStitcher_rd ..).trans (fetchReady_running hf)⟩
  · rw [fetchWord_past hpc]
    obtain ⟨hfault, hcause, hplace, hrun, hraised⟩ := stitchFault_faults q.val s (cause := 3) (by decide)
    exact ⟨hrun, hfault, hcause, hplace.trans (Nat.mod_eq_of_lt hlt), hraised⟩
  · obtain ⟨hhalt, hrun, hraised, hst, -⟩ := halt_halts q.val s
    rw [hst, nextPc_stitcher]
    exact ⟨hhalt, hrun, rfl, hraised⟩

end Sys2Proof.Machine
end

section
/-! PROOFS. Flow control of a Stitcher: LOOP, ENDL, CALL, RET and JEV (R122, R131 to R133). -/

namespace Sys2Proof.Machine

-- One declaration at a time: the memory limit counts the stack of every thread that elaborates one.
set_option Elab.async false

/-! ### Steps with a changed stack (R131, R132) -/

section
variable {s : State} {q : Quad} {w op : Nat} (h : Executes s q w op)
include h

/-- An executed instruction that changes its Stitcher without a wait goes on with the next one. -/
theorem Executes.goesOn_next {x : Stitcher} (hw : x.wait = .none) (hpc : x.pc = (s.stitcher q.val).pc) :
    GoesOn (nextPc q.val (s.setStitcher q.val x)) q ((s.stitcher q.val).pc + 1) := by
  have hx := State.stitcher_setStitcher s q.val x
  rw [← hpc, ← congrArg Stitcher.pc hx]
  exact goesOn_nextPc h.running (by rw [hx, hw])

/-- Or at its target. -/
theorem Executes.goesOn_target {x : Stitcher} {t : Nat} (hw : x.wait = .none) (ht : t < progLen s q.val) :
    GoesOn (goto q.val t (s.setStitcher q.val x)) q t :=
  goesOn_goto h.running (by rw [State.stitcher_setStitcher, hw]) ht

end

theorem loopOp_enters {q w : Nat} {s : State} (hn : bits w 31 0 ≠ 0) (hroom : (s.stitcher q).loops.length < 8) :
    loopOp q w s = nextPc q (s.setStitcher q { s.stitcher q with
      loops := (bits w 31 0, (s.stitcher q).pc + 1) :: (s.stitcher q).loops }) := by
  rw [loopOp, if_neg hn, if_neg (by omega)]

theorem loopOp_skips {q w : Nat} {s : State} (hn : bits w 31 0 = 0) : loopOp q w s = goto q (bits w 45 32) s := if_pos hn

section
variable {q n body : Nat} {rest : List (Nat × Nat)} {s : State}

theorem endLoop_repeats (hl : (s.stitcher q).loops = (n, body) :: rest) (h1 : 1 < n) (hn : n ≠ 0xFFFFFFFF) :
    endLoop q s = goto q body (s.setStitcher q { s.stitcher q with loops := (n - 1, body) :: rest }) := by
  unfold endLoop
  dsimp only
  rw [hl]
  dsimp only
  rw [if_neg hn, if_neg (by omega)]

theorem endLoop_leaves (hl : (s.stitcher q).loops = (1, body) :: rest) :
    endLoop q s = nextPc q (s.setStitcher q { s.stitcher q with loops := rest }) := by
  unfold endLoop
  dsimp only
  rw [hl]
  rfl

theorem endLoop_forever (hl : (s.stitcher q).loops = (0xFFFFFFFF, body) :: rest) : endLoop q s = goto q body s := by
  unfold endLoop
  dsimp only
  rw [hl]
  exact if_pos rfl

theorem callOp_calls {w : Nat} (hroom : (s.stitcher q).calls.length < 8) : callOp q w s = goto q (bits w 45 32)
    (s.setStitcher q { s.stitcher q with
      calls := ((s.stitcher q).pc + 1, (s.stitcher q).loops.length) :: (s.stitcher q).calls }) := if_neg (by omega)

theorem retOp_returns {r : Nat} (hc : (s.stitcher q).calls = (r, (s.stitcher q).loops.length) :: rest) :
    retOp q s = goto q r (s.setStitcher q { s.stitcher q with calls := rest }) := by
  unfold retOp
  dsimp only
  rw [hc]
  exact if_neg (by simp)

end

/-! ### Jumps (R133) -/

/-- The Stitcher of a jump, before the target: loops popped and marks set. -/
def Stitcher.popped (st : Stitcher) (lpop fmask : Nat) : Stitcher := { st with loops := st.loops.drop lpop }.marked fmask true

/-- A jump that pops no more loops than there are goes to a target within the program. -/
theorem jump_goes {q : Quad} {s : State} {lpop fmask target : Nat} (hr : s.rd .STITCH_STATUS_RUNNING q.val = 1)
    (hw : (s.stitcher q.val).wait = .none) (hpop : lpop ≤ (s.stitcher q.val).loops.length) (ht : target < progLen s q.val) :
    GoesOn (jump q.val lpop fmask target s) q target ∧
      ((jump q.val lpop fmask target s).stitcher q.val).loops = (s.stitcher q.val).loops.drop lpop ∧
      ((jump q.val lpop fmask target s).stitcher q.val).immediate = ((s.stitcher q.val).popped lpop fmask).immediate ∧
      ∀ r, .reg r ∉ flushParts → ∀ i x u, (jump q.val lpop fmask target s).rd r i x u = s.rd r i x u := by
  obtain ⟨f, hf⟩ := flushMask_stitcher q.val fmask true
    (s.setStitcher q.val { s.stitcher q.val with loops := (s.stitcher q.val).loops.drop lpop })
  have hrd (r : Reg) (hr : .reg r ∉ flushParts) := flushMask_rd hr q.val fmask true
    (s.setStitcher q.val { s.stitcher q.val with loops := (s.stitcher q.val).loops.drop lpop })
  rw [jump, if_neg (by omega)]
  rw [State.stitcher_setStitcher] at hf
  generalize flushMask q.val fmask true _ = u at hf hrd ⊢
  have hlen : progLen u q.val = progLen s q.val := progLen_congr (hrd _ (by decide) ..)
  refine ⟨goesOn_goto ((hrd _ (by decide) ..).trans hr) (by rw [hf]; exact hw) (hlen ▸ ht), ?_⟩
  rw [goto_stitcher (hlen ▸ ht), hf, goto_within (hlen ▸ ht)]
  exact ⟨rfl, rfl, hrd⟩

/-- Settles O22: each instruction by the equation of its case; JEV by what a jump does. -/
theorem stitcherFlow : Obligations.StitcherFlow := by
  refine ⟨fun s q w h hn hroom => ⟨_, runOp_executes h _, ?_⟩, fun s q w h hn ht => ⟨_, runOp_executes h _, ?_⟩,
    fun s q w n body rest h hl h1 hn ht => ⟨_, runOp_executes h _, ?_⟩, fun s q w body rest h hl => ⟨_, runOp_executes h _, ?_⟩,
    fun s q w body rest h hl ht => ⟨_, runOp_executes h _, ?_⟩, fun s q w h hroom ht => ⟨_, runOp_executes h _, ?_⟩,
    fun s q w r rest h hc ht => ⟨_, runOp_executes h _, ?_⟩, fun s q w h hcond hpop ht => ⟨_, runOp_executes h _, ?_⟩,
    fun s q w h hb hl => ⟨_, runOp_executes h _, ?_⟩⟩
  · rw [loopOp_enters hn hroom]
    exact ⟨h.goesOn_next h.idle rfl, by rw [nextPc_stitcher, State.stitcher_setStitcher]⟩
  · rw [loopOp_skips hn]
    exact ⟨goesOn_goto h.running h.idle ht, by rw [goto_stitcher ht]⟩
  · rw [endLoop_repeats hl h1 hn]
    exact ⟨h.goesOn_target h.idle ht, by rw [goto_stitcher (by exact ht), State.stitcher_setStitcher]⟩
  · rw [endLoop_leaves hl]
    exact ⟨h.goesOn_next h.idle rfl, by rw [nextPc_stitcher, State.stitcher_setStitcher]⟩
  · rw [endLoop_forever hl]
    exact ⟨goesOn_goto h.running h.idle ht, by rw [goto_stitcher ht, hl]⟩
  · rw [callOp_calls hroom]
    exact ⟨h.goesOn_target h.idle ht, by rw [goto_stitcher (by exact ht), State.stitcher_setStitcher]⟩
  · rw [retOp_returns hc]
    exact ⟨h.goesOn_target h.idle ht, by rw [goto_stitcher (by exact ht), State.stitcher_setStitcher]⟩
  · by_cases hb : bit w 51 = 1
    · rw [jevOp, if_pos hb]
      obtain ⟨hgo, hloops, himm, hrd⟩ := jump_goes h.running h.idle hpop ht (fmask := bits w 31 28)
      exact ⟨hgo, hloops, fun i hi hbit => himm ▸ marked_immediate _ hi hbit, by rw [hrd _ (by decide), if_pos hb]⟩
    · rw [jevOp, if_neg hb, if_pos (hcond.resolve_left hb)]
      have hlen : progLen (s.wr .STITCH_EVIN_LATCHED_LATCHED 0 q.val 0 (bits w 55 52)) q.val = progLen s q.val :=
        progLen_congr (State.rd_wr_reg _ (by decide) ..)
      obtain ⟨hgo, hloops, himm, hrd⟩ := jump_goes (s := s.wr .STITCH_EVIN_LATCHED_LATCHED 0 q.val 0 (bits w 55 52))
        (by simpa using h.running) h.idle hpop (hlen ▸ ht) (fmask := bits w 31 28)
      exact ⟨hgo, hloops, fun i hi hbit => himm ▸ marked_immediate _ hi hbit, by
        rw [hrd _ (by decide), if_neg hb, State.rd_wr_same, Nat.zero_mod]⟩
  · rw [jevOp, if_neg (by omega), if_neg (by omega)]
    exact ⟨goesOn_nextPc h.running h.idle, rfl⟩

end Sys2Proof.Machine
end

section
/-! PROOFS. The switch of an armed jump (R143, R145, R147), and the statement about HALT and NOP (R134). -/

namespace Sys2Proof.Machine

-- One declaration at a time: the memory limit counts the stack of every thread that elaborates one.
set_option Elab.async false

/-! ### The program of a switch (R145) -/

/-- A Stitcher whose wait, instruction and gang a switch has ended, its stacks cut back to their depths at the ARM. -/
def Stitcher.cutBack (st : Stitcher) (j : ArmedJump) : Stitcher :=
  { st with wait := .none, ir := none, todo := [], gang := none, played := false,
            loops := st.loops.drop (st.loops.length - j.loops), calls := st.calls.drop (st.calls.length - j.calls) }

/-- The Stitcher of a switch runs, cut back; a COMMIT that the switch ends leaves its reason. -/
def cutBack (q : Nat) (j : ArmedJump) (s : State) : State :=
  let s1 := (endWait q s).setStitcher q ((s.stitcher q).cutBack j)
  ((if (s.stitcher q).gang.isSome then s1.wr .STITCH_GANG_STAT_REASON 7 q else s1).wr .STITCH_STATUS_HALTED 0 q).wr
    .STITCH_STATUS_RUNNING 1 q

theorem cutBack_stitcher (q : Nat) (j : ArmedJump) (s : State) : (cutBack q j s).stitcher q = (s.stitcher q).cutBack j := by
  unfold cutBack
  dsimp only
  split <;> rw [wr_stitcher, wr_stitcher]
  · rw [wr_stitcher, State.stitcher_setStitcher]
  · rw [State.stitcher_setStitcher]

theorem cutBack_status (q : Nat) (j : ArmedJump) (s : State) : (cutBack q j s).rd .STITCH_STATUS_RUNNING q = 1 ∧
    (cutBack q j s).rd .STITCH_STATUS_HALTED q = 0 := by
  simp [cutBack, Reg.width, Reg.info]

theorem cutBack_progLen (q : Nat) (j : ArmedJump) (s : State) : progLen (cutBack q j s) q = progLen s q := by
  refine progLen_congr ?_
  unfold cutBack
  dsimp only
  split <;> simp [endWait_rd q s (r := .STITCH_PROG_LEN_LEN) (by decide)]

theorem armedProgram_eq (q : Nat) (j : ArmedJump) (mask : Nat) (s : State) : armedProgram q j mask s =
    if ((cutBack q j s).stitcher q).loops.length < j.lpop then stitchFault q 5 (cutBack q j s)
    else goto q j.target (raise .stitch q 3 (flushMask q mask false ((cutBack q j s).setStitcher q
      { (cutBack q j s).stitcher q with loops := ((cutBack q j s).stitcher q).loops.drop j.lpop }))) := by
  unfold armedProgram cutBack
  dsimp only
  rw [endWait_stitcher]
  rfl

/-- The loop stack is cut back to at most its depth at the ARM. -/
theorem cutBack_loops_length (st : Stitcher) (j : ArmedJump) : (st.cutBack j).loops.length = min j.loops st.loops.length := by
  simp only [Stitcher.cutBack, List.length_drop]
  omega

/-- What a switch leaves of Stitcher q. -/
structure Switched (q : Quad) (j : ArmedJump) (s t : State) : Prop where
  goes : GoesOn t q j.target
  halted : t.rd .STITCH_STATUS_HALTED q.val = 0
  raised : Raised t .stitch q.val 3
  loops : (t.stitcher q.val).loops.length = min j.loops (s.stitcher q.val).loops.length - j.lpop
  armed : (t.stitcher q.val).armed = (s.stitcher q.val).armed

theorem armedProgram_switches {q : Quad} {j : ArmedJump} {s : State} (mask : Nat)
    (hpop : j.lpop ≤ min j.loops (s.stitcher q.val).loops.length) (ht : j.target < progLen s q.val) :
    Switched q j s (armedProgram q.val j mask s) := by
  obtain ⟨hrun, hhalt⟩ := cutBack_status q.val j s
  have hlen := cutBack_loops_length (s.stitcher q.val) j
  rw [armedProgram_eq, cutBack_stitcher, if_neg (by omega)]
  generalize hx : (cutBack q.val j s).setStitcher q.val _ = u
  have hust : u.stitcher q.val = { (s.stitcher q.val).cutBack j with loops := ((s.stitcher q.val).cutBack j).loops.drop j.lpop } := by
    rw [← hx, State.stitcher_setStitcher]
  obtain ⟨f, hf⟩ := flushMask_stitcher q.val mask false u
  have hrd {r : Reg} (hr : .reg r ∉ flushParts) (h1 : .EVT_RAW_RAW ≠ r) (h2 : .EVT_PEND_PEND ≠ r) (i x z : Nat) :
      (raise .stitch q.val 3 (flushMask q.val mask false u)).rd r i x z = (cutBack q.val j s).rd r i x z := by
    rw [raise_rd _ h1 h2, flushMask_rd hr, ← hx, State.setStitcher_rd]
  have htarget : j.target < progLen (raise .stitch q.val 3 (flushMask q.val mask false u)) q.val := by
    rwa [progLen_congr (hrd (by decide) (by decide) (by decide) ..), cutBack_progLen]
  rw [hust] at hf
  refine ⟨goesOn_goto ((hrd (by decide) (by decide) (by decide) ..).trans hrun) (by rw [raise_stitcher, hf]; rfl) htarget, ?_, ?_, ?_, ?_⟩
  · rw [goto_within htarget, State.setStitcher_rd, hrd (by decide) (by decide) (by decide), hhalt]
  · rw [goto_within htarget]
    exact raise_raw ..
  · rw [goto_stitcher htarget, raise_stitcher, hf, ← hlen]
    exact List.length_drop ..
  · rw [goto_stitcher htarget, raise_stitcher, hf]
    rfl

/-! ### The switch of one input (R145, R147) -/

/-- What the promotion of a channel's alternate changes. -/
def promoteParts : List Part := [.reg .CSE_CUR_DESC_KIND, .reg .CSE_CUR_DESC_PRIO, .reg .CSE_CUR_DESC_SEQ, .reg .CSE_STATUS_IDLE,
  .reg .CSE_STATUS_OPEN, .reg .CSE_STATUS_RUNNING, .reg .OUT_FAULT_STAT_REPEAT_FAIL, .cap, .commits, .cses, .rings, .outs]

/-- The channels of the due jumps, promoted. -/
def promoteAll (q : Nat) (mask : Nat) (s : State) : State :=
  each (maskChans q mask) (fun c => promote c (s.clock q).next) s

theorem promoteAll_only (q mask : Nat) (s : State) : OnlyChanges promoteParts s (promoteAll q mask s) :=
  (each_keeps (fun c _ h => promote_keeps h (.self _) c _) (.refl (Machine.mask promoteParts) s)).only

theorem armedSwitch_one {q e : Nat} {j : ArmedJump} {s : State} (h : switchInputs s q = [(e, j)]) : armedSwitch q s =
    armedProgram q j (switchedMask [(e, j)]) (setArmed q e none (promoteAll q (switchedMask [(e, j)]) s)) := by
  unfold armedSwitch
  rw [h]
  rfl

/-- The switch of one input: its program goes on at the target, and the input is disarmed. -/
theorem armedSwitch_switches {q : Quad} {e : Nat} {j : ArmedJump} {s : State} (h : switchInputs s q.val = [(e, j)])
    (hpop : j.lpop ≤ min j.loops (s.stitcher q.val).loops.length) (ht : j.target < progLen s q.val) :
    ∃ u, Switched q j u (armedSwitch q.val s) ∧ u.stitcher q.val = { s.stitcher q.val with
      armed := Store.set none (s.stitcher q.val).armed e none } := by
  have honly := promoteAll_only q.val (switchedMask [(e, j)]) s
  have hst : (setArmed q.val e none (promoteAll q.val (switchedMask [(e, j)]) s)).stitcher q.val =
      { s.stitcher q.val with armed := Store.set none (s.stitcher q.val).armed e none } := by
    rw [setArmed_stitcher, stitcher_of_only honly (by decide)]
  have hlen : progLen (setArmed q.val e none (promoteAll q.val (switchedMask [(e, j)]) s)) q.val = progLen s q.val :=
    progLen_congr (honly (.reg .STITCH_PROG_LEN_LEN) (by decide) ..)
  rw [armedSwitch_one h]
  exact ⟨_, armedProgram_switches _ (by rw [hst]; exact hpop) (by rwa [hlen]), hst⟩

/-- An input whose switch is due is one: the command takes it. -/
theorem switchInputs_ne_nil {q e : Nat} {j : ArmedJump} {s : State} (h : switchInputs s q = [(e, j)]) : switchInputs s q ≠ [] := by
  simp [h]

/-- Settles O10: HALT and NOP by their equations, the switch by what it does to the program. -/
theorem haltAndNop : Obligations.HaltAndNop := by
  refine ⟨fun s q w h => ⟨_, halt_executes h, ?_⟩, fun s q e j hd _ h hpop ht => ⟨_, act_on hd (switchInputs_ne_nil h) _, ?_⟩,
    fun s q w h => ⟨_, nop_executes h, rfl⟩⟩
  · obtain ⟨hhalt, hrun, hraised, hst, hcses⟩ := halt_halts q.val s
    rw [hst, nextPc_stitcher]
    exact ⟨hhalt, hrun, hraised, rfl, hcses⟩
  · obtain ⟨u, hsw, -⟩ := armedSwitch_switches h hpop ht
    exact ⟨hsw.goes, hsw.halted⟩

end Sys2Proof.Machine
end

section
/-! PROOFS. Arming and disarming, and events at the inputs of a Stitcher (R138, R139, R141 to R143), and the statement about armed jumps. -/

namespace Sys2Proof.Machine

-- One declaration at a time: the memory limit counts the stack of every thread that elaborates one.
set_option Elab.async false

/-! ### The alternate of a channel (R141) -/

/-- From s to t the alternate of channel c stays, if it has one, under its input, and the other channels stay as they are. -/
structure AltKept (c : Nat) (s t : State) : Prop where
  apart : ∀ d, d ≠ c → t.cse d = s.cse d
  alt : (s.cse c).alt.isSome = true → (t.cse c).alt.isSome = true
  input : (t.cse c).altInput = (s.cse c).altInput

namespace AltKept

variable {c : Nat} {s t u : State}

theorem trans (h : AltKept c s t) (k : AltKept c t u) : AltKept c s u :=
  ⟨fun d hd => (k.apart d hd).trans (h.apart d hd), fun hs => k.alt (h.alt hs), k.input.trans h.input⟩

theorem same (h : ∀ d, t.cse d = s.cse d) : AltKept c s t := ⟨fun d _ => h d, fun hs => by rwa [h], by rw [h]⟩

theorem refl (s : State) : AltKept c s s := same fun _ => rfl

theorem setCse {x : Cse} (ha : (s.cse c).alt.isSome = true → x.alt.isSome = true) (hi : x.altInput = (s.cse c).altInput) :
    AltKept c s (s.setCse c x) :=
  ⟨fun _ hd => State.cse_setCse_ne _ hd.symm _, fun hs => by rw [State.cse_setCse]; exact ha hs, by rw [State.cse_setCse]; exact hi⟩

theorem setRing (h : AltKept c s t) (k : Nat) (x : Ring) : AltKept c s (t.setRing k x) := h.trans (same fun _ => rfl)

end AltKept

theorem noteSegment_cse (c : Nat) (d : Descr) (k : Nat) (s : State) : (noteSegment c d s).cse k = s.cse k :=
  cse_of_only (noteSegment_keeps (.refl (mask _) s) (.self _) c d).only (by decide) k

theorem countDiscard_cse (c code k : Nat) (s : State) : (countDiscard c code s).cse k = s.cse k :=
  cse_of_only (countDiscard_keeps (.refl (mask _) s) (.self _) c code).only (by decide) k

theorem aimAlternate_kept (c : Nat) (d : Descr) (s : State) : AltKept c s (aimAlternate c d s) := by
  unfold aimAlternate
  split
  · split
    · exact .refl s
    · exact .setCse id rfl
  · exact .refl s

/-- Whatever becomes of an alternate that is to apply, the channel keeps it. -/
theorem takeAlternate_kept (c : Nat) (s : State) : AltKept c s (takeAlternate c s) := by
  have hlate (t : State) (p : Prop) [Decidable p] : AltKept c t (if p then t else raise .cse c 1 (t.inc .CSE_LATE_CNT_LATE c)) := by
    split
    · exact .refl t
    · exact .same fun d => by rw [raise_cse, State.inc, wr_cse]
  have hbad (t : State) (code : Nat) : AltKept c t (countDiscard c code t) := .same fun d => countDiscard_cse c code d t
  unfold takeAlternate
  split
  · exact .refl s
  · rename_i d k _
    refine .trans (.same fun i => noteSegment_cse c d i s) ?_
    generalize noteSegment c d s = u
    dsimp only
    split
    · split
      · exact .refl u
      · refine .trans ?_ (hbad ..)
        exact .setCse id rfl
      · refine .trans ?_ (hlate ..)
        exact .setCse (fun _ => rfl) rfl
    · split
      · exact .refl u
      · refine .trans ?_ (hbad ..)
        exact .setCse id rfl
      · refine .trans ?_ (hlate ..)
        refine .setRing ?_ ..
        exact .setCse id rfl

/-- Channel c holds an alternate under input e. -/
def HoldsAlt (c e : Nat) (t : State) : Prop := (t.cse c).alt.isSome = true ∧ (t.cse c).altInput = e

theorem dropAlternate_cse_ne {c d : Nat} (h : c ≠ d) (s : State) : (dropAlternate c s).cse d = s.cse d := by
  rw [dropAlternate, setOut_cse, State.cse_setCse_ne _ h]

theorem loadAlternate_holds (c e : Nat) (cells : List Nat) (s : State) : HoldsAlt c e (loadAlternate c e cells s) := by
  unfold loadAlternate
  dsimp only
  generalize hu : State.setCse _ c _ = u
  have hkept := (aimAlternate_kept c (decodePacket cells) u).trans (takeAlternate_kept c _)
  have hcse : (u.cse c).alt.isSome = true ∧ (u.cse c).altInput = e := by
    rw [← hu, State.cse_setCse]
    exact ⟨rfl, rfl⟩
  exact ⟨hkept.alt hcse.1, hkept.input.trans hcse.2⟩

theorem loadAlternate_apart {c d : Nat} (h : c ≠ d) (e : Nat) (cells : List Nat) (s : State) :
    (loadAlternate c e cells s).cse d = s.cse d := by
  unfold loadAlternate
  dsimp only
  rw [(takeAlternate_kept c _).apart d h.symm, (aimAlternate_kept c _ _).apart d h.symm, State.cse_setCse_ne _ h,
    dropAlternate_cse_ne h]

/-- The alternate that one channel takes leaves what any channel holds under that input. -/
theorem HoldsAlt.load {c e : Nat} {t : State} (h : HoldsAlt c e t) (d : Nat) (cells : List Nat) :
    HoldsAlt c e (loadAlternate d e cells t) := by
  by_cases hd : d = c
  · exact hd ▸ loadAlternate_holds ..
  · rw [HoldsAlt, loadAlternate_apart hd]
    exact h

/-! ### ARM and DISARM (R141, R143) -/

/-- What the loading of alternates changes. -/
def loadParts : List Part := [.reg .BENCH_BENCH_HEALTH_HEALTH, .reg .BENCH_BIST_STAT_PHASE, .reg
  .BENCH_BPWR_STAT_STATE, .reg .BENCH_ECC_CNT_CE, .reg .BENCH_ECC_CNT_UE, .reg .BENCH_STATUS_BIST_BUSY, .reg .BENCH_STATUS_SPARE_FREE,
  .reg .BENCH_UE_ADDR_IN_SPARE, .reg .BENCH_UE_ADDR_OFFSET, .reg .CSE_DISCARD_CNT_DISCARD, .reg .CSE_LATE_CNT_LATE, .reg .ERR_CODE_CODE,
  .reg .ERR_CODE_MASTER, .reg .ERR_CODE_OVF, .reg .ERR_CODE_WORD, .reg .ERR_CODE_WRITE, .reg .EVT_PEND_PEND, .reg .EVT_RAW_RAW, .reg
  .POWER_STATUS_ENTERING, .reg .POWER_STATUS_EXITING, .reg .POWER_WAKE_STAT_CLASS, .reg .POWER_WAKE_STAT_FROM, .reg
  .QUARRY_CAPACITY_N_ACTIVE, .reg .QUARRY_ECC_CNT_CE, .reg .QUARRY_ECC_CNT_UE, .reg .QUARRY_LRMAP_MAP, .reg .QUARRY_LRMAP_SPARE, .reg
  .QUARRY_RANK_STATE_STATE, .reg .QUARRY_STATUS_DEGRADED, .reg .QUARRY_STATUS_MIGRATING, .reg .QUARRY_UE_ADDR_HI_ADDR, .reg
  .QUARRY_UE_ADDR_HI_BANK, .reg .QUARRY_UE_ADDR_HI_RANK, .reg .QUARRY_UE_ADDR_LO_ADDR, .reg .SYS_ERR_ADDR_HI_ADDR, .reg
  .SYS_ERR_ADDR_HI_MASTER, .reg .SYS_ERR_ADDR_HI_WRITE, .reg .SYS_ERR_ADDR_LO_ADDR, .presented, .holdoff, .poison, .cses, .rings, .outs,
  .pwr, .qry, .ben, .free]

theorem unnameChannel_armsOnly (q i : Nat) (s : State) : ArmsOnly q s (unnameChannel q i s) := by
  refine each_rel (ArmsOnly.refl q) ArmsOnly.trans (fun e _ t => ?_) s
  split
  · exact setArmed_armsOnly ..
  · exact .refl q t

/-- The channels of an ARM leave whatever inputs they were armed under, and the input is disarmed. -/
def unarmed (q e : Nat) (ps : List Nat) (s : State) : State := each ps (unnameChannel q) (disarmInput q e s)

/-- Every channel of an ARM takes its alternate. -/
def loadAll (q e : Nat) (cells : List Nat) (ps : List Nat) (s : State) : State :=
  each ps (fun i s => loadAlternate (4 * q + i) e (stamp 0 (seqOf s q (4 * (4 * q + i))) cells) s) s

theorem unarmed_armsOnly (q e : Nat) (ps : List Nat) (s : State) : ArmsOnly q s (unarmed q e ps s) :=
  (disarmInput_armsOnly q e s).trans (each_rel (ArmsOnly.refl q) ArmsOnly.trans (fun i _ t => unnameChannel_armsOnly q i t) _)

theorem unarmed_rd (q e : Nat) (ps : List Nat) (s : State) (r : Reg) (i x u : Nat) : (unarmed q e ps s).rd r i x u = s.rd r i x u :=
  ((each_keeps (fun p _ h => unnameChannel_keeps h (.self _) q p) (.refl (mask [.stitchers]) _)).only (.reg r) (by simp) i x u).trans
    (disarmInput_rd ..)

theorem loadAll_only (q e : Nat) (cells ps : List Nat) (s : State) : OnlyChanges loadParts s (loadAll q e cells ps s) :=
  (each_keeps (fun _ _ h => loadAlternate_keeps h (.self _) ..) (.refl (mask loadParts) s)).only

theorem loadAll_holds {i : Nat} {ps : List Nat} (hi : i ∈ ps) (q e : Nat) (cells : List Nat) (s : State) :
    HoldsAlt (4 * q + i) e (loadAll q e cells ps s) := by
  unfold loadAll
  refine each_reaches (P := HoldsAlt (4 * q + i) e) (fun t => ?_) (fun j t h => ?_) hi s
  · exact loadAlternate_holds ..
  · exact h.load ..

/-- The channel positions that an ARM names. -/
def armChans (w : Nat) : List Nat := (upTo 4).filter (fun i => bit (bits w 31 28) i == 1)

theorem armInput_eq (q w : Nat) (cells : List Nat) (s : State) : armInput q w cells s =
    nextPc q (setArmed q (bits w 55 52) (some ⟨bits w 45 32, bits w 50 48,
      ((unarmed q (bits w 55 52) (armChans w) s).stitcher q).loops.length,
      ((unarmed q (bits w 55 52) (armChans w) s).stitcher q).calls.length, bits w 31 28, none⟩)
      (loadAll q (bits w 55 52) cells (armChans w) (unarmed q (bits w 55 52) (armChans w) s))) := rfl

@[simp] theorem nextPc_armedJump (q e : Nat) (s : State) : armedJump (nextPc q s) q e = armedJump s q e := by
  rw [armedJump, nextPc_stitcher, armedJump]

/-- An ARM leaves the jump at its input, an alternate with each channel that it names, and goes on. -/
theorem armInput_arms {q : Quad} {s : State} (w : Nat) (cells : List Nat) (hr : s.rd .STITCH_STATUS_RUNNING q.val = 1)
    (hw : (s.stitcher q.val).wait = .none) : GoesOn (armInput q.val w cells s) q ((s.stitcher q.val).pc + 1) ∧
    armedJump (armInput q.val w cells s) q.val (bits w 55 52) = some ⟨bits w 45 32, bits w 50 48, (s.stitcher q.val).loops.length,
      (s.stitcher q.val).calls.length, bits w 31 28, none⟩ ∧
    ∀ i ∈ armChans w, HoldsAlt (4 * q.val + i) (bits w 55 52) (armInput q.val w cells s) := by
  obtain ⟨a, ha⟩ := unarmed_armsOnly q.val (bits w 55 52) (armChans w) s
  have honly := loadAll_only q.val (bits w 55 52) cells (armChans w) (unarmed q.val (bits w 55 52) (armChans w) s)
  have hst := (stitcher_of_only honly (by decide) q.val).trans ha
  have hrun := (honly (.reg .STITCH_STATUS_RUNNING) (by decide) q.val 0 0).trans (unarmed_rd ..)
  rw [armInput_eq, ha]
  refine ⟨?_, ?_, fun i hi => loadAll_holds hi ..⟩
  · rw [GoesOn, nextPc_stitcher, setArmed_stitcher, hst]
    exact ⟨hrun.trans hr, rfl, hw, rfl⟩
  · rw [nextPc_armedJump, armedJump_setArmed]

/-- ARM with no channels, or with a template that can be read, arms. -/
theorem armOp_arms {q w : Nat} {s : State}
    (h : bits w 31 28 = 0 ∨ (readTemplate s q (bits w 27 14) [1, 2, 3, 4, 5, 6, 7]).isOk = true) :
    ∃ cells, armOp q w s = armInput q w cells s := by
  by_cases h0 : bits w 31 28 = 0
  · exact ⟨[], if_pos h0⟩
  · have hok := h.resolve_left h0
    unfold armOp
    rw [if_neg h0]
    cases hr : readTemplate s q (bits w 27 14) [1, 2, 3, 4, 5, 6, 7] with
    | error f => simp [hr, Except.isOk, Except.toBool] at hok
    | ok cells => exact ⟨cells, rfl⟩

/-- DISARM leaves the input without a jump, and goes on. -/
theorem disarm_disarms {q : Quad} {s : State} (e : Nat) (hr : s.rd .STITCH_STATUS_RUNNING q.val = 1)
    (hw : (s.stitcher q.val).wait = .none) : GoesOn (nextPc q.val (disarmInput q.val e s)) q ((s.stitcher q.val).pc + 1) ∧
    armedJump (nextPc q.val (disarmInput q.val e s)) q.val e = none := by
  obtain ⟨a, ha⟩ := disarmInput_armsOnly q.val e s
  refine ⟨?_, by rw [nextPc_armedJump, disarmInput_disarms]⟩
  rw [GoesOn, nextPc_stitcher, ha]
  exact ⟨(disarmInput_rd ..).trans hr, rfl, hw, rfl⟩

/-! ### Events (R138, R139) -/

/-- The event leaves the way to its input. -/
def arrived (q e : Nat) (s : State) : State := { s with evin := s.evin.erase (q, e) }

theorem arrived_stitcher (q e k : Nat) (s : State) : (arrived q e s).stitcher k = s.stitcher k := rfl

theorem arrived_rd (q e : Nat) (s : State) (r : Reg) (i x u : Nat) : (arrived q e s).rd r i x u = s.rd r i x u := rfl

section
variable {q e : Nat} {s : State}

/-- At an armed input the event sets the switch, two update edges ahead of the next. -/
theorem eventInput_armed {j : ArmedJump} (h : armedJump s q e = some j) (hj : j.switchAt = none) :
    eventInput q e s = setArmed q e (some { j with switchAt := some ((s.clock q).next + 2) }) (arrived q e s) := by
  have harmed : armedJump (arrived q e s) q e = some j := h
  unfold eventInput
  dsimp only
  rw [show armedJump { s with evin := s.evin.erase (q, e) } q e = some j from h]
  dsimp only
  rw [hj]
  rfl

/-- At an input that a WAITE waits on it ends the wait, with a flush. -/
theorem eventInput_awaited (h : armedJump s q e = none) (hw : waitsOn s q e = true) :
    ∃ fmask, eventInput q e s = nextPc q (flushMask q fmask true (endWait q (arrived q e s))) := by
  unfold eventInput
  dsimp only
  rw [show armedJump { s with evin := s.evin.erase (q, e) } q e = none from h]
  dsimp only
  rw [show waitsOn { s with evin := s.evin.erase (q, e) } q e = true from hw, if_pos rfl]
  unfold waitsOn at hw
  rw [show State.stitcher { s with evin := s.evin.erase (q, e) } q = s.stitcher q from rfl]
  cases hwait : (s.stitcher q).wait with
  | event _ fmask _ _ _ _ => exact ⟨fmask, rfl⟩
  | _ => simp [hwait] at hw

variable (h : armedJump s q e = none) (hw : waitsOn s q e = false)
include h hw

/-- At any other input it sets the latch of one that latches. -/
theorem eventInput_latched (hl : s.rd .STITCH_EVIN_CFG_LATCH q 0 e = 1) (h0 : s.rd .STITCH_EVIN_LATCHED_LATCHED q 0 e = 0) :
    eventInput q e s = (arrived q e s).wr .STITCH_EVIN_LATCHED_LATCHED 1 q 0 e := by
  unfold eventInput
  dsimp only
  rw [show armedJump { s with evin := s.evin.erase (q, e) } q e = none from h]
  dsimp only
  rw [show waitsOn { s with evin := s.evin.erase (q, e) } q e = false from hw, if_neg (by decide)]
  exact if_pos ⟨hl, h0⟩

/-- And is dropped at one that does not. -/
theorem eventInput_dropped (hl : s.rd .STITCH_EVIN_CFG_LATCH q 0 e = 0) :
    eventInput q e s = raise .stitch q 8 ((arrived q e s).inc .STITCH_EVIN_IGNORED_COUNT q) := by
  have h1 : ¬ (arrived q e s).rd .STITCH_EVIN_CFG_LATCH q 0 e = 1 := by rw [arrived_rd]; omega
  unfold eventInput
  dsimp only
  rw [show armedJump { s with evin := s.evin.erase (q, e) } q e = none from h]
  dsimp only
  rw [show waitsOn { s with evin := s.evin.erase (q, e) } q e = false from hw, if_neg (by decide)]
  exact (if_neg fun hc => h1 hc.1).trans (if_neg h1)

end

/-- The event at an input that a WAITE waits on: the wait is over, and the program goes on after it. -/
theorem waite_ends {q : Nat} {s : State} (fmask : Nat) :
    ((nextPc q (flushMask q fmask true (endWait q s))).stitcher q).wait = .none ∧
      ((nextPc q (flushMask q fmask true (endWait q s))).stitcher q).pc = (s.stitcher q).pc + 1 ∧
      (nextPc q (flushMask q fmask true (endWait q s))).rd .STITCH_STATUS_WAIT_EVENT q = 0 := by
  obtain ⟨f, hf⟩ := flushMask_stitcher q fmask true (endWait q s)
  rw [endWait_stitcher] at hf
  rw [nextPc_stitcher, hf, nextPc_rd, flushMask_rd (by decide)]
  exact ⟨rfl, rfl, endWait_clears q s (by decide)⟩

/-- Settles O24: ARM and DISARM by what they arm, an event by the input's state, and the switch of one input. -/
theorem armedJumps : Obligations.ArmedJumps := by
  refine ⟨fun s q w h hb ht => ⟨_, runOp_executes h _, ?_⟩, fun s q w h hb => ⟨_, runOp_executes h _, ?_⟩,
    fun s q e j hd he h hj => ⟨_, act_on hd he _, ?_⟩, fun s q e hd he h hw => ⟨_, act_on hd he _, ?_⟩,
    fun s q e hd he h hw hl h0 => ⟨_, act_on hd he _, ?_⟩, fun s q e hd he h hw hl => ⟨_, act_on hd he _, ?_⟩,
    fun s q e j hd h hpop ht => ⟨_, act_on hd (switchInputs_ne_nil h) _, ?_⟩⟩
  · obtain ⟨cells, hcells⟩ := armOp_arms ht
    rw [if_pos hb, hcells]
    obtain ⟨hgo, harm, halt⟩ := armInput_arms w cells h.running h.idle
    exact ⟨hgo, harm, fun i hi hbit => halt i (mem_filter_upTo.mpr ⟨hi, by simp [hbit]⟩)⟩
  · rw [if_pos hb]
    exact disarm_disarms _ h.running h.idle
  · rw [eventInput_armed h hj, armedJump_setArmed]
  · obtain ⟨fmask, hend⟩ := eventInput_awaited h hw
    rw [hend]
    exact waite_ends fmask
  · rw [eventInput_latched h hw hl h0, wr_stitcher, arrived_stitcher, State.rd_wr_same]
    exact ⟨rfl, rfl⟩
  · rw [eventInput_dropped h hw hl, raise_stitcher, inc_stitcher, arrived_stitcher, raise_rd _ (by decide) (by decide),
      State.rd_inc_same, arrived_rd]
    exact ⟨rfl, raise_raw .., rfl⟩
  · obtain ⟨u, hsw, hst⟩ := armedSwitch_switches h hpop ht
    have hloops := hsw.loops
    rw [hst] at hloops
    refine ⟨hsw.goes, ?_, hsw.raised, hloops⟩
    rw [armedJump, hsw.armed, hst, Store.get_set_same]

end Sys2Proof.Machine
end

section
/-! PROOFS. Waits for a time and for an event, EMIT, grants, latches and the microcode switch (R135, R137, R139, R148, R157). -/

namespace Sys2Proof.Machine

-- One declaration at a time: the memory limit counts the stack of every thread that elaborates one.
set_option Elab.async false

/-! ### WAITT (R135) -/

section
variable {q w : Nat} {s : State}

theorem waittOp_waits (h : granted s q (bits w 51 46) = true) : waittOp q w s = (s.setStitcher q { s.stitcher q with
    wait := .time (bits w 51 46) (if bits w 31 0 = 0 then s.rd .STITCH_WT_ADV_ADV q else bits w 31 0) (bits w 55 52),
    waitFrom := s.osc }).wr .STITCH_STATUS_WAIT_TIME 1 q := if_neg (by simp [h])

theorem waittOp_denied (h : granted s q (bits w 51 46) = false) : waittOp q w s = stitchFault q 12 s := if_pos h

end

/-- A value stored at each key of a list stands at every key of it. -/
theorem get_foldl_set {α : Type} [DecidableEq α] {d : α} (v : α) {i : Nat} (ks : List Nat) (r : Store α)
    (h : i ∈ ks ∨ Store.get d r i = v) : Store.get d (ks.foldl (fun r k => Store.set d r k v) r) i = v := by
  induction ks generalizing r with
  | nil => exact h.resolve_left (List.not_mem_nil)
  | cons k ks ih =>
    refine ih _ ?_
    by_cases hk : k = i
    · exact .inr (hk ▸ Store.get_set_same ..)
    · exact h.imp (fun hm => (List.mem_cons.mp hm).resolve_left (Ne.symm hk)) fun hr => by rw [Store.get_set_ne' _ _ _ _ hk, hr]

/-- The Stitcher of a WAITT that ends: its comparator's armed time is used, and is the release of each channel named. -/
def Stitcher.released (st : Stitcher) (lc gen mask : Nat) (x : Instant × Bool) : Stitcher :=
  let ps := (upTo 4).filter (fun i => bit mask i == 1)
  { st with
    used := Store.set 0 st.used lc gen
    release := ps.foldl (fun r i => Store.set none r i (some x)) st.release
    immediate := st.immediate.filter (fun i => !ps.contains i) }

theorem waittResume_eq {q lc adv mask : Nat} {s : State} (h : (s.stitcher q).wait = .time lc adv mask) : waittResume q s =
    (nextPc q (endWait q s)).setStitcher q (((nextPc q (endWait q s)).stitcher q).released lc (Store.get 0 s.lcGen lc) mask
      (s.lcInstant lc, (s.lc lc).late)) := by
  unfold waittResume
  rw [h]
  rfl

theorem released_release (st : Stitcher) (lc gen : Nat) (x : Instant × Bool) {mask i : Nat} (hi : i < 4) (hb : bit mask i = 1) :
    Store.get none (st.released lc gen mask x).release i = some x :=
  get_foldl_set _ _ _ (.inl (mem_filter_upTo.mpr ⟨hi, by simp [hb]⟩))

/-! ### WAITE (R139) -/

section
variable {q w : Nat} {s : State}

theorem waiteOp_takes (h : s.rd .STITCH_EVIN_LATCHED_LATCHED q 0 (bits w 55 52) = 1) : waiteOp q w s =
    nextPc q (flushMask q (bits w 31 28) true (s.wr .STITCH_EVIN_LATCHED_LATCHED 0 q 0 (bits w 55 52))) := if_pos h

theorem waiteOp_waits (h : s.rd .STITCH_EVIN_LATCHED_LATCHED q 0 (bits w 55 52) = 0) : waiteOp q w s =
    (s.setStitcher q { s.stitcher q with
      wait := .event (bits w 55 52) (bits w 31 28) (bit w 51) (bits w 50 48) (bits w 45 32) (bits w 27 0), waitFrom := s.osc }).wr
      .STITCH_STATUS_WAIT_EVENT 1 q := if_neg (by omega)

theorem waiteOp_waitsOn (h : s.rd .STITCH_EVIN_LATCHED_LATCHED q 0 (bits w 55 52) = 0) :
    waitsOn (waiteOp q w s) q (bits w 55 52) = true := by
  simp [waiteOp_waits h, waitsOn]

theorem waiteOver_of_wait {e fmask j lpop target n : Nat} (h : (s.stitcher q).wait = .event e fmask j lpop target n) (hn : n ≠ 0)
    (ht : (s.stitcher q).waitFrom + 256 * n ≤ s.osc) : waiteOver s q = true := by
  simp [waiteOver, h, hn, ht]

/-- A timeout without a jump goes on with the next instruction. -/
theorem waiteTimeout_next {e fmask lpop target n : Nat} (h : (s.stitcher q).wait = .event e fmask 0 lpop target n) :
    waiteTimeout q s = nextPc q (raise .stitch q 6 (endWait q s)) := by
  unfold waiteTimeout
  rw [h]
  rfl

end

/-- After a flush a Stitcher that runs and waits for nothing goes on. -/
theorem goesOn_nextPc_flush {s : State} {q : Quad} (hr : s.rd .STITCH_STATUS_RUNNING q.val = 1)
    (hw : (s.stitcher q.val).wait = .none) (mask : Nat) :
    GoesOn (nextPc q.val (flushMask q.val mask true s)) q ((s.stitcher q.val).pc + 1) := by
  obtain ⟨f, hf⟩ := flushMask_stitcher q.val mask true s
  rw [GoesOn, nextPc_stitcher, hf, nextPc_rd, flushMask_rd (by decide)]
  exact ⟨hr, rfl, hw, rfl⟩

/-! ### Bitmaps written bit by bit (R50, R135) -/

/-- A pass that writes some elements of a field: each holds what its own step wrote, or what it held. -/
theorem each_wr_elements {xs : List Nat} {r : Reg} {q : Nat} {c : Nat → Prop} [DecidablePred c] {v g : Nat → Nat}
    (hg : Function.Injective g) {j : Nat} (hj : j ∈ xs) (hn : xs.Nodup) (s : State) :
    (each xs (fun k s => on (c k) (fun s => s.wr r (v k) q 0 (g k)) s) s).rd r q 0 (g j) =
      if c j then v j % 2 ^ r.width else s.rd r q 0 (g j) := by
  obtain ⟨u, hu, ht⟩ := each_own (R := fun a b : State => b.rd r q 0 (g j) = a.rd r q 0 (g j)) (fun _ => rfl) (fun h k => k.trans h)
    (f := fun k s => on (c k) (fun s => s.wr r (v k) q 0 (g k)) s) (x := j) (fun k hk t => by
      unfold on
      split
      · exact State.rd_wr_place _ _ _ fun e => hk (hg e.2.2)
      · rfl) hj hn s
  rw [ht]
  unfold on
  split
  · exact State.rd_wr_same ..
  · exact hu

theorem bit_mod (r : Reg) (hr : r.width = 1) (v j : Nat) : bit v j % 2 ^ r.width = bit v j := by
  rw [hr]
  exact Nat.mod_eq_of_lt (bit_lt v j)

/-- A grant register takes the bits of the comparators that its writer owns. -/
theorem writeLcGrant_grants {m q hi v j : Nat} (hj : j < 32) (s : State) :
    (writeLcGrant m q hi v s).rd .STITCH_LC_GRANT q 0 (32 * hi + j) =
      if ownsLc s m (32 * hi + j) = true then bit v j else s.rd .STITCH_LC_GRANT q 0 (32 * hi + j) := by
  have hpass := each_wr_elements (r := .STITCH_LC_GRANT) (q := q) (c := fun k => ownsLc s m (32 * hi + k) = true) (v := bit v)
    (g := fun k => 32 * hi + k) (fun a b h => Nat.add_left_cancel h) (mem_upTo.mpr hj) (upTo_nodup 32) s
  rw [bit_mod _ rfl] at hpass
  unfold writeLcGrant
  dsimp only
  split
  · exact (recordErr_rd _ (by decide) (by decide) (by decide) (by decide) (by decide) ..).trans hpass
  · exact hpass

theorem clearLatches_clears {q v e : Nat} (he : e < 16) (s : State) : (clearLatches q v s).rd .STITCH_EVIN_LATCHED_LATCHED q 0 e =
    if bit v e = 1 then 0 else s.rd .STITCH_EVIN_LATCHED_LATCHED q 0 e :=
  each_wr_elements (r := .STITCH_EVIN_LATCHED_LATCHED) (c := fun k => bit v k = 1) (v := fun _ => 0) (g := fun k => k)
    (fun _ _ h => h) (mem_upTo.mpr he) (upTo_nodup 16) s

/-! ### The microcode switch (R157) -/

theorem writeMcCtrl_requests (q : Nat) (s : State) : (writeMcCtrl 2 q 1 s).rd .STITCH_STATUS_MC_PENDING q = 1 := by
  rw [writeMcCtrl, if_neg (by decide), if_pos (by decide)]
  exact State.rd_wr_same ..

/-- What a switch leaves: the other bank, the two versions exchanged, no word fetched ahead. -/
theorem mcSwitch_switches {q : Nat} {s : State} (hi : Inv s) : (mcSwitch q s).rd .STITCH_STATUS_MC_PENDING q = 0 ∧
    ((mcSwitch q s).stitcher q).ahead = [] ∧ (mcSwitch q s).rd .STITCH_STATUS_MC_BANK q = 1 - s.rd .STITCH_STATUS_MC_BANK q ∧
    (mcSwitch q s).rd .STITCH_MC_VER_ACTIVE q = s.rd .STITCH_MC_VER_INACTIVE q ∧
    (mcSwitch q s).rd .STITCH_MC_VER_INACTIVE q = s.rd .STITCH_MC_VER_ACTIVE q ∧ Raised (mcSwitch q s) .stitch q 9 := by
  have hact : s.rd .STITCH_MC_VER_ACTIVE q < 2 ^ Reg.STITCH_MC_VER_INACTIVE.width := rd_lt hi.2.2.1 .STITCH_MC_VER_ACTIVE ..
  have hina : s.rd .STITCH_MC_VER_INACTIVE q < 2 ^ Reg.STITCH_MC_VER_ACTIVE.width := rd_lt hi.2.2.1 .STITCH_MC_VER_INACTIVE ..
  have hbank : 1 - s.rd .STITCH_STATUS_MC_BANK q < 2 ^ Reg.STITCH_STATUS_MC_BANK.width := by
    rw [show Reg.STITCH_STATUS_MC_BANK.width = 1 from rfl]
    omega
  refine ⟨?_, ?_, ?_, ?_, ?_, raise_raw ..⟩
  · simp [mcSwitch]
  · simp [mcSwitch]
  · simp [mcSwitch, Nat.mod_eq_of_lt hbank]
  · simp [mcSwitch, Nat.mod_eq_of_lt hina]
  · simp [mcSwitch, Nat.mod_eq_of_lt hact]

/-- Settles O23: each wait, its end, and each write by the equation or the law of its operation. -/
theorem stitcherWaits : Obligations.StitcherWaits := by
  refine ⟨fun s q w h hg => ⟨_, runOp_executes h _, ?_⟩, fun s q w h hg => ⟨_, runOp_executes h _, ?_⟩,
    fun s q lc adv mask hd hw hr => ⟨_, act_on hd hr _, ?_⟩, fun s q w h hl => ⟨_, runOp_executes h _, ?_⟩,
    fun s q w h hl => ⟨_, runOp_executes h _, ?_⟩,
    fun s q e fmask lpop target n hd hw hn ht => ⟨_, act_on hd (waiteOver_of_wait hw hn ht) _, ?_⟩,
    fun s q w h => ⟨_, runOp_executes h _, goesOn_nextPc h.running h.idle, rfl⟩,
    fun s m q hi v h => ⟨_, cmd_ok h .., fun j hj => ?_⟩, fun s m q v h => ⟨_, cmd_ok h .., fun e he => ?_⟩,
    fun s q h => ⟨_, cmd_ok h .., writeMcCtrl_requests ..⟩, fun s q hd hm hi => ⟨_, act_on hd hm _, mcSwitch_switches hi⟩⟩
  · rw [waittOp_waits hg, wr_stitcher, State.stitcher_setStitcher, State.rd_wr_same]
    exact ⟨rfl, rfl⟩
  · rw [waittOp_denied hg]
    obtain ⟨hfault, hcause, -, hrun, hraised⟩ := stitchFault_faults q.val s (cause := 12) (by decide)
    exact ⟨hfault, hcause, hrun, hraised⟩
  · rw [waittResume_eq hw, State.stitcher_setStitcher, nextPc_stitcher, endWait_stitcher, State.setStitcher_rd, nextPc_rd]
    exact ⟨rfl, rfl, endWait_clears _ s (by decide), fun i hi hb => released_release _ _ _ _ hi hb⟩
  · rw [waiteOp_takes hl]
    refine ⟨goesOn_nextPc_flush ((State.rd_wr_reg _ (by decide) ..).trans h.running) h.idle _, ?_⟩
    rw [nextPc_rd, flushMask_rd (by decide), State.rd_wr_same, Nat.zero_mod]
  · refine ⟨?_, ?_, waiteOp_waitsOn hl⟩
    · rw [waiteOp_waits hl, State.rd_wr_same]
      rfl
    · rw [waiteOp_waits hl, wr_stitcher, State.stitcher_setStitcher]
  · rw [waiteTimeout_next hw, nextPc_stitcher, raise_stitcher, endWait_stitcher, nextPc_queues, raise_queues, endWait_queues, Raised,
      nextPc_rd]
    exact ⟨rfl, rfl, rfl, raise_raw ..⟩
  · rw [writeLcGrant_grants hj, ownsLc_hostWake, hostWake_rd _ (by decide) (by decide) (by decide) (by decide)]
  · rw [clearLatches_clears he, hostWake_rd _ (by decide) (by decide) (by decide) (by decide)]

end Sys2Proof.Machine
end

section
/-! PROOFS. The push instructions and the wait for credit (R120, R123 to R127). -/

namespace Sys2Proof.Machine

-- One declaration at a time: the memory limit counts the stack of every thread that elaborates one.
set_option Elab.async false

/-! ### One packet (R126) -/

/-- The queue of the instruction's priority, of channel position i. -/
def pushQueue (q w i : Nat) : Nat := 4 * (4 * q + i) + bits w 51 50

theorem pushQueue_ne {i j : Nat} (h : i ≠ j) (q w : Nat) : pushQueue q w i ≠ pushQueue q w j := by
  unfold pushQueue
  omega

theorem inFlight_stitch {s t : State} {k : Nat} (h : t.queue k = s.queue k) : inFlight t k true = inFlight s k true := by
  simp [inFlight, h]

theorem allocation_congr {s t : State} {k : Nat} (h : t.rd .TACK_QCFG_CRED_STITCH 0 k = s.rd .TACK_QCFG_CRED_STITCH 0 k) :
    allocation t k true = allocation s k true := h

/-- The queue has an allocation for Stitchers, and credit for n cells more (R163). -/
def HasCredit (s : State) (k n : Nat) : Prop := allocation s k true ≠ 0 ∧ n ≤ available s k true

theorem HasCredit.congr {s t : State} {k n : Nat} (h : HasCredit s k n) (hq : t.queue k = s.queue k)
    (hr : t.rd .TACK_QCFG_CRED_STITCH 0 k = s.rd .TACK_QCFG_CRED_STITCH 0 k) : HasCredit t k n := by
  rw [HasCredit, available, inFlight_stitch hq, allocation_congr hr]
  exact h

/-- A pushed packet stands at the end of its queue, with its PRIO and SEQ; the other queues stay, and so do the SEQs of other queues, the
place of execution and every field but the count of pushes. -/
structure PushedOne (q w i : Nat) (cells : List Nat) (s t : State) : Prop where
  queue : (t.queue (pushQueue q w i)).cells.map (·.cells) =
    (s.queue (pushQueue q w i)).cells.map (·.cells) ++ [stamp (bits w 51 50) (seqOf s q (pushQueue q w i)) cells]
  others : ∀ k, pushQueue q w i ≠ k → t.queue k = s.queue k
  seq : ∀ k, pushQueue q w i ≠ k → seqOf t q k = seqOf s q k
  pc : (t.stitcher q).pc = (s.stitcher q).pc
  rd : ∀ r, .STITCH_PUSH_CNT_COUNT ≠ r → ∀ j x u, t.rd r j x u = s.rd r j x u

theorem pushPacket_stitcher (q i w : Nat) (cells : List Nat) (s : State) : ∃ m r, (pushPacket q i w cells s).stitcher q =
    { s.stitcher q with
      seqs := Store.set 0 (s.stitcher q).seqs (pushQueue q w i) (Store.get 0 (s.stitcher q).seqs (pushQueue q w i) + 1)
      immediate := m, release := r } :=
  ⟨_, _, by rw [pushPacket, inc_stitcher, State.stitcher_setStitcher]; rfl⟩

theorem pushPacket_queue (q i w : Nat) (cells : List Nat) (s : State) (k : Nat) : (pushPacket q i w cells s).queue k =
    (notice (pushQueue q w i) { cells := stamp (bits w 51 50) (seqOf s q (pushQueue q w i)) cells, stitch := true,
                                hold := holdFor s q i w } s).queue k := rfl

theorem pushPacket_pushes (q i w : Nat) (cells : List Nat) (s : State) : PushedOne q w i cells s (pushPacket q i w cells s) := by
  obtain ⟨m, r, hst⟩ := pushPacket_stitcher q i w cells s
  refine ⟨?_, fun k hk => ?_, fun k hk => ?_, by rw [hst], fun r hr j x u => ?_⟩
  · rw [pushPacket_queue, notice, State.queue_setQueue, List.map_append]
    rfl
  · rw [pushPacket_queue, notice, State.queue_setQueue_ne _ hk]
  · rw [seqOf, hst, seqOf, Store.get_set_ne' _ _ _ _ hk]
  · exact State.rd_wr_reg _ hr ..

/-! ### The packets of an instruction (R126, R127) -/

theorem endWait_queue (q k : Nat) (s : State) : (endWait q s).queue k = s.queue k := congrArg (Store.get _ · k) (endWait_queues q s)

theorem endWait_seqOf (q k : Nat) (s : State) : seqOf (endWait q s) q k = seqOf s q k := by rw [seqOf, endWait_stitcher, seqOf]

/-- A push instruction is complete: each channel to be pushed has its packet, and the Stitcher goes on. -/
structure PushDone (q w : Nat) (cells todo : List Nat) (s t : State) : Prop where
  queue : ∀ i ∈ todo, (t.queue (pushQueue q w i)).cells.map (·.cells) =
    (s.queue (pushQueue q w i)).cells.map (·.cells) ++ [stamp (bits w 51 50) (seqOf s q (pushQueue q w i)) cells]
  others : ∀ k, (∀ i ∈ todo, pushQueue q w i ≠ k) → t.queue k = s.queue k
  running : t.rd .STITCH_STATUS_RUNNING q = s.rd .STITCH_STATUS_RUNNING q
  credit : t.rd .STITCH_STATUS_CREDIT_WAIT q = 0
  ir : (t.stitcher q).ir = none
  wait : (t.stitcher q).wait = .none
  pc : (t.stitcher q).pc = (s.stitcher q).pc + 1

theorem pushDone_rd (q w : Nat) (s : State) (r : Reg) (i x u : Nat) : (pushDone q w s).rd r i x u = (endWait q s).rd r i x u := by
  rw [pushDone, State.setStitcher_rd, nextPc_rd]

theorem pushDone_queue (q w : Nat) (s : State) (k : Nat) : (pushDone q w s).queue k = s.queue k := by
  rw [pushDone, setStitcher_queue, nextPc, setStitcher_queue, endWait_queue]

theorem pushDone_done (q w : Nat) (cells : List Nat) (s : State) : PushDone q w cells [] s (pushDone q w s) := by
  have hst : (pushDone q w s).stitcher q = { (nextPc q (endWait q s)).stitcher q with
      played := opcode w == 0x10 || opcode w == 0x11 } := by
    simp only [pushDone, State.stitcher_setStitcher]
  rw [nextPc_stitcher, endWait_stitcher] at hst
  exact {
    queue := fun i hi => absurd hi List.not_mem_nil
    others := fun k _ => pushDone_queue q w s k
    running := by rw [pushDone_rd, endWait_rd q s (by decide)]
    credit := by rw [pushDone_rd, endWait_clears q s (by decide)]
    ir := by rw [hst]
    wait := by rw [hst]
    pc := by rw [hst] }

/-- The first of the packets to be pushed, then the rest. -/
theorem PushDone.cons {q w i : Nat} {cells rest : List Nat} {s u t : State} (h : PushedOne q w i cells (endWait q s) u)
    (hi : i ∉ rest) (k : PushDone q w cells rest u t) : PushDone q w cells (i :: rest) s t where
  queue j hj := by
    rcases List.mem_cons.mp hj with rfl | hj
    · rw [k.others _ fun x hx => pushQueue_ne (ne_of_mem_of_not_mem hx hi) q w, h.queue, endWait_queue, endWait_seqOf]
    · have hne : pushQueue q w i ≠ pushQueue q w j := pushQueue_ne (ne_of_mem_of_not_mem hj hi).symm q w
      rw [k.queue j hj, h.others _ hne, h.seq _ hne, endWait_queue, endWait_seqOf]
  others n hn := by
    rw [k.others n fun x hx => hn x (List.mem_cons_of_mem _ hx), h.others n (hn i (List.mem_cons_self ..)), endWait_queue]
  running := by rw [k.running, h.rd _ (by decide), endWait_rd q s (by decide)]
  credit := k.credit
  ir := k.ir
  wait := k.wait
  pc := by rw [k.pc, h.pc, endWait_stitcher]

/-- A packet that no gang holds, to a queue with an allocation, is pushed where there is credit. -/
theorem pushRest_cons {q w i : Nat} {cells rest : List Nat} {s : State} (hg : bit w 49 = 0)
    (ha : allocation s (pushQueue q w i) true ≠ 0) : pushRest q w cells (i :: rest) s =
      if available s (pushQueue q w i) true < cells.length then waitCredit q (i :: rest) s
      else pushRest q w cells rest (pushPacket q i w cells (endWait q s)) :=
  (if_neg ha).trans (if_neg fun h => by omega)

/-- Where no gang holds the packet and every channel has credit, every packet is pushed. -/
theorem pushRest_pushes {q w : Nat} {cells : List Nat} (hg : bit w 49 = 0) {todo : List Nat} (hn : todo.Nodup) (s : State)
    (hfit : ∀ i ∈ todo, HasCredit s (pushQueue q w i) cells.length) : PushDone q w cells todo s (pushRest q w cells todo s) := by
  induction todo generalizing s with
  | nil => exact pushDone_done ..
  | cons i rest ih =>
    obtain ⟨hi, hrest⟩ := List.nodup_cons.mp hn
    obtain ⟨halloc, havail⟩ := hfit i (List.mem_cons_self ..)
    have hone := pushPacket_pushes q i w cells (endWait q s)
    have hstep : pushRest q w cells (i :: rest) s = pushRest q w cells rest (pushPacket q i w cells (endWait q s)) := by
      rw [pushRest_cons hg halloc, if_neg (Nat.not_lt.mpr havail)]
    rw [hstep]
    refine .cons hone hi (ih hrest _ fun j hj => ?_)
    refine (hfit j (List.mem_cons_of_mem _ hj)).congr ?_ ?_
    · rw [hone.others _ (pushQueue_ne (ne_of_mem_of_not_mem hj hi).symm q w), endWait_queue]
    · rw [hone.rd _ (by decide), endWait_rd q s (by decide)]

/-! ### Instructions (R120, R124 to R127) -/

/-- The channel positions that a push instruction names. -/
def pushChans (w : Nat) : List Nat := (upTo 4).filter (fun i => bit (bits w 55 52) i == 1)

theorem pushChans_nodup (w : Nat) : (pushChans w).Nodup := (upTo_nodup 4).filter _

theorem mem_pushChans {w i : Nat} : i ∈ pushChans w ↔ i < 4 ∧ bit (bits w 55 52) i = 1 := by
  rw [pushChans, mem_filter_upTo, beq_iff_eq]

/-- A mask of four bits that is not 0 names a channel. -/
theorem pushChans_ne_nil {w : Nat} (h : bits w 55 52 ≠ 0) : pushChans w ≠ [] := by
  intro hnil
  have hlt : bits w 55 52 < 2 ^ 4 := bits_lt w 55 52
  have hnone : ∀ i, i < 4 → bit (bits w 55 52) i ≠ 1 := fun i hi hb => by simpa [hnil] using mem_pushChans.mpr ⟨hi, hb⟩
  have h0 := hnone 0 (by decide)
  have h1 := hnone 1 (by decide)
  have h2 := hnone 2 (by decide)
  have h3 := hnone 3 (by decide)
  simp only [bit] at h0 h1 h2 h3
  omega

theorem pushChans_one {w i : Nat} (hi : i < 4) (h : bits w 55 52 = 2 ^ i) : pushChans w = [i] := by
  have hone : ∀ i < 4, (upTo 4).filter (fun j => bit (2 ^ i) j == 1) = [i] := by decide
  rw [pushChans, h]
  exact hone i hi

theorem runPush_ok {q w : Nat} {cells : List Nat} {s : State} (h : buildPacket s q w = .ok cells) (todo : List Nat) :
    runPush q w todo s = pushRest q w cells todo s := by
  rw [runPush, h]

theorem startPush_runs {q w : Nat} {s : State} (h0 : bits w 55 52 ≠ 0)
    (h1 : opcode w = 0x14 ∨ opcode w = 0x15 → (pushChans w).length = 1) : startPush q w s = runPush q w (pushChans w) s := by
  refine if_neg ?_
  rintro (hnil | ⟨hop, hlen⟩)
  · exact pushChans_ne_nil h0 (List.isEmpty_iff.mp hnil)
  · exact hlen (h1 hop)

/-- A push instruction whose channels all have credit pushes to each, and goes on. -/
theorem startPush_pushes {s : State} {q : Quad} {w op : Nat} {cells : List Nat} (h : Executes s q w op) (hf : PushFits s q w cells)
    (h1 : op = 0x14 ∨ op = 0x15 → (pushChans w).length = 1) : ∃ t, act s (runOp q.val op (startPush q.val)) = .next t ∧
      GoesOn t q ((s.stitcher q.val).pc + 1) ∧ Pushed s t q w cells := by
  obtain ⟨hbuild, hmask, hgang, hcredit⟩ := hf
  refine ⟨_, runOp_executes h _, ?_⟩
  rw [startPush_runs hmask (h.2.2.2.2 ▸ h1), runPush_ok hbuild]
  have hdone := pushRest_pushes hgang (pushChans_nodup w) s fun i hi =>
    hcredit i (mem_pushChans.mp hi).1 (mem_pushChans.mp hi).2
  exact ⟨⟨hdone.running.trans h.running, hdone.ir, hdone.wait, hdone.pc⟩, fun i hi hb => hdone.queue i (mem_pushChans.mpr ⟨hi, hb⟩)⟩

/-! ### The wait for credit (R127) -/

/-- A packet without credit waits: nothing is pushed, and the stall counts once. -/
theorem pushRest_waits {q w i : Nat} {cells rest : List Nat} {s : State} (hg : bit w 49 = 0)
    (ha : allocation s (pushQueue q w i) true ≠ 0) (hc : available s (pushQueue q w i) true < cells.length) :
    pushRest q w cells (i :: rest) s = waitCredit q (i :: rest) s := by
  rw [pushRest_cons hg ha, if_pos hc]

theorem waitCredit_first {q : Nat} {rest : List Nat} {s : State} (h : (s.stitcher q).wait = .none) : waitCredit q rest s =
    ((s.inc .STITCH_STALL_CNT_COUNT q).setStitcher q { s.stitcher q with wait := .credit, todo := rest }).wr
      .STITCH_STATUS_CREDIT_WAIT 1 q := by
  unfold waitCredit
  dsimp only
  rw [if_neg (by simp [h])]

theorem creditReady_of_credit {q w i : Nat} {cells : List Nat} {s : State} (hw : (s.stitcher q).wait = .credit)
    (hir : (s.stitcher q).ir = some w) (ht : (s.stitcher q).todo = [i]) (hb : buildPacket s q w = .ok cells)
    (hc : cells.length ≤ available s (pushQueue q w i) true) : creditReady s q = true := by
  unfold creditReady
  rw [hw, hir, ht]
  dsimp only
  rw [hb]
  exact Bool.or_eq_true_iff.mpr (.inl (decide_eq_true hc))

/-- Settles O21: every push instruction by the pass over its channels, the wait and its end by the first packet of that pass. -/
theorem stitcherPushes : Obligations.StitcherPushes := by
  refine ⟨fun s q w cells h hf => startPush_pushes h hf (by simp), fun s q w cells h hf => startPush_pushes h hf (by simp),
    fun s q w cells h hf => startPush_pushes h hf (by simp), fun s q w cells h hf => startPush_pushes h hf (by simp),
    fun s q w cells h hf h1 => startPush_pushes h hf fun _ => h1, fun s q w cells h hf h1 => startPush_pushes h hf fun _ => h1,
    fun s q w i cells h hb hi hmask hg ha hc => ⟨_, runOp_executes h _, ?_⟩,
    fun s q w i cells hd hr hw hir ht hb hg ha hc => ⟨_, act_on hd (creditReady_of_credit hw hir ht hb hc) _, ?_⟩⟩
  · have hop : ¬ (opcode w = 0x14 ∨ opcode w = 0x15) := by rw [h.2.2.2.2]; decide
    rw [startPush_runs (by rw [hmask]; positivity) (fun h => absurd h hop), runPush_ok hb, pushChans_one hi hmask,
      pushRest_waits hg ha hc, waitCredit_first h.idle, wr_stitcher, State.stitcher_setStitcher]
    refine ⟨rfl, State.rd_wr_same .., rfl, rfl, ?_⟩
    rw [State.rd_wr_reg _ (by decide), State.setStitcher_rd, State.rd_inc_same]
  · rw [hir, ht, Option.getD_some, runPush_ok hb]
    have hdone := pushRest_pushes hg (List.nodup_singleton i) s fun j hj => by
      rw [List.mem_singleton.mp hj]
      exact ⟨ha, hc⟩
    refine ⟨⟨hdone.running.trans hr, hdone.ir, hdone.wait, hdone.pc⟩, hdone.credit, ?_⟩
    have hlen := congrArg List.length (hdone.queue i (List.mem_singleton_self i))
    rwa [List.length_map, List.length_append, List.length_map] at hlen

end Sys2Proof.Machine
end

section
/-! PROOFS. Gangs: READY, the prepare, its commit point and its failure, ABORT and WAITC (R150 to R154). -/

namespace Sys2Proof.Machine

-- One declaration at a time: the memory limit counts the stack of every thread that elaborates one.
set_option Elab.async false

/-- An executed GANG instruction of the action named. -/
theorem runGang_executes {s : State} {q : Quad} {w action : Nat} (h : Executes s q w 0x38) (ha : bits w 53 52 = action)
    (f : Nat → State → State) : act s (runGang q.val action f) = .next (f w s) :=
  (runOp_executes h _).trans (congrArg _ (if_pos ha))

/-! ### What one Stitcher's command leaves of another (R150, R156) -/

/-- From s to t Stitcher m stays as it is, and so does every field of its page. -/
structure StitchApart (m : Nat) (s t : State) : Prop where
  stitcher : t.stitcher m = s.stitcher m
  rd : ∀ r x u, t.rd r m x u = s.rd r m x u

namespace StitchApart

variable {m k : Nat} {s t u : State}

theorem refl (m : Nat) (s : State) : StitchApart m s s := ⟨rfl, fun _ _ _ => rfl⟩

theorem trans (h : StitchApart m s t) (g : StitchApart m t u) : StitchApart m s u :=
  ⟨g.stitcher.trans h.stitcher, fun r x z => (g.rd r x z).trans (h.rd r x z)⟩

/-- A step that leaves the Stitchers and the registers. -/
theorem same (h : StitchApart m s t) (hs : u.stitchers = t.stitchers) (hr : u.regs = t.regs) : StitchApart m s u :=
  h.trans ⟨by rw [State.stitcher, State.stitcher, hs], fun r x z => by rw [State.rd, State.rd, hr]⟩

variable (hk : k ≠ m)
include hk

theorem setStitcher (h : StitchApart m s t) (x : Stitcher) : StitchApart m s (t.setStitcher k x) :=
  h.trans ⟨State.stitcher_setStitcher_ne _ hk _, fun _ _ _ => rfl⟩

theorem wr (h : StitchApart m s t) (r : Reg) (v x z : Nat) : StitchApart m s (t.wr r v k x z) :=
  h.trans ⟨rfl, fun r' x' z' => rd_wr_inst hk t r r' v x z x' z'⟩

theorem endWait (h : StitchApart m s t) : StitchApart m s (endWait k t) :=
  ((((h.setStitcher hk _).wr hk ..).wr hk ..).wr hk ..).wr hk ..

theorem nextPc (h : StitchApart m s t) : StitchApart m s (nextPc k t) := h.setStitcher hk _

theorem stopRun (h : StitchApart m s t) : StitchApart m s (stopRun k t) := ((h.endWait hk).setStitcher hk _).wr hk ..

theorem disarmInput (h : StitchApart m s t) (e : Nat) : StitchApart m s (disarmInput k e t) := by
  unfold Machine.disarmInput
  split
  · refine setStitcher hk (h.trans ⟨each_dropAlternate_stitcher .., fun r x z => ?_⟩) _
    exact (each_keeps (fun c _ h => dropAlternate_keeps h (.self _) c) (.refl (mask [.cses, .outs]) t)).only (.reg r) (by simp) m x z
  · exact h

theorem disengage (h : StitchApart m s t) : StitchApart m s (disengage k t) := by
  have hdisarm : StitchApart m s (disarmAll k t) :=
    h.trans (each_rel (refl m) trans (fun e _ v => (refl m v).disarmInput hk e) t)
  exact (hdisarm.setStitcher hk _).trans (each_rel (refl m) trans (fun j _ v => (refl m v).wr hk _ 0 0 j) _)

theorem recordErr (h : StitchApart m s t) (c n : Nat) (b : Bool) (o : Nat) : StitchApart m s (recordErr .stitch k c n b o t) := by
  unfold Machine.recordErr
  split
  · exact (((h.wr hk ..).wr hk ..).wr hk ..).wr hk ..
  · exact h.wr hk ..

theorem raise (h : StitchApart m s t) (b : Nat) : StitchApart m s (raise .stitch k b t) := by
  refine h.trans ⟨raise_stitcher .., fun r x z => ?_⟩
  rw [Machine.raise, raiseFor_regs]
  split
  · rw [rd_wr_inst hk, rd_wr_inst hk]
  · rw [rd_wr_inst hk]

theorem stitchFault (h : StitchApart m s t) (cause : Nat) : StitchApart m s (stitchFault k cause t) := by
  rw [stitchFault_eq]
  refine raise hk ?_ 1
  have hrecord := ((((h.stopRun hk).disengage hk).wr hk .STITCH_STATUS_FAULTED 1 0 0).wr hk .STITCH_FAULT_CAUSE cause 0 0).wr hk
    .STITCH_FAULT_PC (t.stitcher k).pc 0 0
  unfold faultError
  split
  · exact hrecord.recordErr hk ..
  · exact hrecord

theorem goto (h : StitchApart m s t) (target : Nat) : StitchApart m s (goto k target t) := by
  unfold Machine.goto
  split
  · exact h.stitchFault hk 3
  · exact h.setStitcher hk _

/-- The outcome of a gang that reaches one member leaves every other. -/
theorem gangOutcome (g o : Nat) (s : State) : StitchApart m s (gangOutcome g o k s) := by
  have hout := ((refl m s).setStitcher hk { s.stitcher k with
    outcome := if Store.get 0 (s.stitcher k).outcome g = 1 then Store.set 0 (s.stitcher k).outcome g o else (s.stitcher k).outcome }).wr
    hk .STITCH_GANG_READY_READY 0 0 g
  unfold Machine.gangOutcome
  dsimp only
  split
  · split
    · split
      · exact (hout.endWait hk).goto hk _
      · exact (hout.endWait hk).nextPc hk
    · exact hout
  · exact hout

end StitchApart

/-! ### The outcome of a gang at a member (R150, R154) -/

/-- Stitcher q waits in WAITC for gang k. -/
def waitsGang (s : State) (q k : Nat) : Bool :=
  match (s.stitcher q).wait with
  | .waitc k' _ _ => k' == k
  | _ => false

/-- The member with the outcome of its READY. -/
def outcomeAt (k o m : Nat) (s : State) : State :=
  (s.setStitcher m { s.stitcher m with
    outcome := if Store.get 0 (s.stitcher m).outcome k = 1 then Store.set 0 (s.stitcher m).outcome k o else (s.stitcher m).outcome }).wr
    .STITCH_GANG_READY_READY 0 m 0 k

theorem outcomeAt_ready (k o m : Nat) (s : State) : (outcomeAt k o m s).rd .STITCH_GANG_READY_READY m 0 k = 0 := by
  rw [outcomeAt, State.rd_wr_same, Nat.zero_mod]

/-- A member that does not wait for the gang takes the outcome alone. -/
theorem gangOutcome_other {k o m : Nat} {s : State} (h : waitsGang s m k = false) : gangOutcome k o m s = outcomeAt k o m s := by
  unfold gangOutcome waitsGang at *
  dsimp only
  split
  · rename_i k' f t hw
    rw [hw] at h
    exact if_neg (by simpa using h)
  · rfl

/-- One that waits for it goes on at a commit. -/
theorem gangOutcome_commits {k m : Nat} {s : State} (h : waitsGang s m k = true) :
    gangOutcome k 2 m s = nextPc m (endWait m (outcomeAt k 2 m s)) := by
  unfold gangOutcome waitsGang at *
  dsimp only
  split
  · rename_i k' f t hw
    rw [hw] at h
    rw [if_pos (by simpa using h), if_neg (by omega)]
    rfl
  · rename_i hne
    split at h
    · rename_i k' f t hw
      exact absurd hw (hne _ _ _)
    · cases h

/-- After a commit the member has no READY of the gang, and its WAITC is over. -/
theorem gangOutcome_ends (k m : Nat) (s : State) : (gangOutcome k 2 m s).rd .STITCH_GANG_READY_READY m 0 k = 0 ∧
    (waitsGang s m k = true → ((gangOutcome k 2 m s).stitcher m).wait = .none ∧
      ((gangOutcome k 2 m s).stitcher m).pc = (s.stitcher m).pc + 1) := by
  cases h : waitsGang s m k with
  | false =>
    rw [gangOutcome_other h]
    exact ⟨outcomeAt_ready .., fun h => absurd h (by decide)⟩
  | true =>
    rw [gangOutcome_commits h, nextPc_rd, endWait_rd _ _ (by decide), nextPc_stitcher, endWait_stitcher, outcomeAt, wr_stitcher,
      State.stitcher_setStitcher]
    exact ⟨outcomeAt_ready .., fun _ => ⟨rfl, rfl⟩⟩

/-- From s to t Stitcher q changes in nothing but the outcomes of its READYs, and its page in nothing but those. -/
structure OutcomeOnly (q : Nat) (s t : State) : Prop where
  stitcher : ∃ o, t.stitcher q = { s.stitcher q with outcome := o }
  rd : ∀ r, .STITCH_GANG_READY_READY ≠ r → ∀ x u, t.rd r q x u = s.rd r q x u

theorem OutcomeOnly.refl (q : Nat) (s : State) : OutcomeOnly q s s := ⟨⟨_, rfl⟩, fun _ _ _ _ => rfl⟩

theorem OutcomeOnly.trans {q : Nat} {s t u : State} (h : OutcomeOnly q s t) (g : OutcomeOnly q t u) : OutcomeOnly q s u := by
  obtain ⟨a, ha⟩ := h.stitcher
  obtain ⟨b, hb⟩ := g.stitcher
  exact ⟨⟨b, by rw [hb, ha]⟩, fun r hr x z => (g.rd r hr x z).trans (h.rd r hr x z)⟩

/-- A Stitcher that does not wait for the gang itself takes part in its outcome with its READY alone. -/
theorem gangOutcome_outcomeOnly {k q : Nat} {s : State} (h : waitsGang s q k = false) (o m : Nat) :
    OutcomeOnly q s (gangOutcome k o m s) := by
  by_cases hm : m = q
  · subst hm
    rw [gangOutcome_other h, outcomeAt]
    exact ⟨⟨_, by rw [wr_stitcher, State.stitcher_setStitcher]⟩, fun r hr x u => by rw [State.rd_wr_reg _ hr, State.setStitcher_rd]⟩
  · have hapart := StitchApart.gangOutcome hm k o s
    exact ⟨⟨_, hapart.stitcher⟩, fun r _ x u => hapart.rd r x u⟩

theorem waitsGang_congr {s t : State} {q : Nat} (k : Nat) (h : OutcomeOnly q s t) : waitsGang t q k = waitsGang s q k := by
  obtain ⟨o, ho⟩ := h.stitcher
  rw [waitsGang, ho, waitsGang]

/-- So it does in the outcomes of all members. -/
theorem each_gangOutcome_outcomeOnly {k q : Nat} {s : State} (h : waitsGang s q k = false) (o : Nat) (ms : List Nat) :
    OutcomeOnly q s (each ms (gangOutcome k o) s) := by
  induction ms generalizing s with
  | nil => exact .refl q s
  | cons m ms ih =>
    have hone := gangOutcome_outcomeOnly h o m
    exact hone.trans (ih ((waitsGang_congr k hone).trans h))

theorem each_gangOutcome_queue (k o i : Nat) (ms : List Nat) (s : State) : (each ms (gangOutcome k o) s).queue i = s.queue i :=
  queue_of_only (each_keeps (fun m _ h => gangOutcome_keeps h (.self _) k o m) (.refl (mask _) s)).only (by decide) i

/-! ### The queues of the members (R152, R154) -/

theorem mem_gangMembers {mask m : Nat} : m ∈ gangMembers mask ↔ m < 12 ∧ bit mask m = 1 := by
  rw [gangMembers, mem_filter_upTo, beq_iff_eq]

theorem gangMembers_nodup (mask : Nat) : (gangMembers mask).Nodup := (upTo_nodup 12).filter _

/-- A pass over the sixteen queues of each member. -/
def eachQueue (ms : List Nat) (f : Nat → State → State) (s : State) : State :=
  each ms (fun m s => each (rangeFrom (16 * m) 16) f s) s

section
variable {f : Nat → State → State} {F : TackQueue → TackQueue} (hown : ∀ i s, (f i s).queue i = F (s.queue i))
  (hother : ∀ i k s, i ≠ k → (f i s).queue k = s.queue k)
include hown hother

/-- Each queue of a member changes once, by its own step. -/
theorem eachQueue_queue {ms : List Nat} (hn : ms.Nodup) {i : Nat} (hi : i / 16 ∈ ms) (s : State) :
    (eachQueue ms f s).queue i = F (s.queue i) := by
  obtain ⟨u, hu, ht⟩ := each_own (R := fun a b : State => b.queue i = a.queue i) (fun _ => rfl) (fun h k => k.trans h)
    (f := fun m s => each (rangeFrom (16 * m) 16) f s) (fun m hm t => each_rel (R := fun a b : State => b.queue i = a.queue i)
      (fun _ => rfl) (fun h k => k.trans h) (fun j hj v => hother j i v (by have := mem_rangeFrom.mp hj; omega)) t) hi hn s
  obtain ⟨v, hv, hw⟩ := each_own (R := fun a b : State => b.queue i = a.queue i) (fun _ => rfl) (fun h k => k.trans h)
    (f := f) (fun j hj t => hother j i t hj) (mem_rangeFrom.mpr (by omega) : i ∈ rangeFrom (16 * (i / 16)) 16) (rangeFrom_nodup ..) u
  rw [eachQueue, ht, hw, hown, hv, hu]

end

/-- A queue with every packet changed. -/
def TackQueue.mapped (g : Packet → Packet) (t : TackQueue) : TackQueue := { t with head := t.head.map g, cells := t.cells.map g }

theorem mapQueue_own (g : Packet → Packet) (i : Nat) (s : State) : (mapQueue i g s).queue i = (s.queue i).mapped g :=
  State.queue_setQueue ..

theorem mapQueue_other (g : Packet → Packet) (i k : Nat) (s : State) (h : i ≠ k) : (mapQueue i g s).queue k = s.queue k :=
  State.queue_setQueue_ne _ h _

/-- A queue without the packets staged for a gang. -/
def TackQueue.unstaged (k : Nat) (t : TackQueue) : TackQueue :=
  { t with head := t.head.filter (fun p => !p.stagedFor k), cells := t.cells.filter (fun p => !p.stagedFor k) }

theorem endPredecessor_queue (c k : Nat) (s : State) : (endPredecessor c s).queue k = s.queue k :=
  queue_of_only (endPredecessor_keeps (.refl (mask [.cses]) s) (.self _) c).only (by decide) k

theorem dropStaged_own (k i : Nat) (s : State) : (dropStaged k i s).queue i = (s.queue i).unstaged k := State.queue_setQueue ..

theorem dropStaged_other (k i j : Nat) (s : State) (h : i ≠ j) : (dropStaged k i s).queue j = s.queue j := by
  unfold dropStaged
  dsimp only
  rw [State.queue_setQueue_ne _ h]
  split
  · exact endPredecessor_queue ..
  · rfl

/-- A pass over queues that changes nothing of the Stitchers and their pages. -/
theorem eachQueue_only {l : List Part} {f : Nat → State → State} (hf : ∀ i s0 t, Keeps (mask l) s0 t → Keeps (mask l) s0 (f i t))
    (ms : List Nat) (s : State) : OnlyChanges l s (eachQueue ms f s) :=
  (each_keeps (fun _ _ h => each_keeps (fun i t h => hf i _ t h) h) (.refl (mask l) s)).only

theorem dropStaged_only (k : Nat) (ms : List Nat) (s : State) : OnlyChanges [.cses, .queues] s (eachQueue ms (dropStaged k) s) :=
  eachQueue_only (fun i _ _ h => dropStaged_keeps h (.self _) k i) ms s

theorem mapQueue_only (g : Packet → Packet) (ms : List Nat) (s : State) :
    OnlyChanges [.queues] s (eachQueue ms (fun i => mapQueue i g) s) :=
  eachQueue_only (fun i _ _ h => mapQueue_keeps h (.self _) i g) ms s

/-! ### The commit point (R152) -/

/-- The members' packets take the commit instant. -/
def commitPackets (g : GangCommit) (x : Instant) (s : State) : State :=
  eachQueue (gangMembers g.qmask) (fun i => mapQueue i (Packet.commit g.k x)) s

/-- The outcome reaches every member. -/
def commitMembers (g : GangCommit) (x : Instant) (s : State) : State :=
  each (gangMembers g.qmask) (gangOutcome g.k 2) (commitPackets g x s)

/-- The coordinator goes on. -/
def endPrepare (q : Nat) (g : GangCommit) (s : State) : State :=
  raise .stitch q 4 (nextPc q ((endWait q (s.setStitcher q { s.stitcher q with gang := none })).wr .STITCH_GANG_STAT_GANG g.k q))

theorem commitPoint_eq {q : Nat} {g : GangCommit} {x : Instant} {s : State} (hg : (s.stitcher q).gang = some g)
    (hx : commitInstant s g = some x) : commitPoint q s = endPrepare q g (commitMembers g x s) := by
  unfold commitPoint
  rw [hg]
  dsimp only
  rw [hx]
  rfl

theorem endPrepare_stitcher (q : Nat) (g : GangCommit) (s : State) : (endPrepare q g s).stitcher q =
    { s.stitcher q with gang := none, wait := .none, ir := none, todo := [], pc := (s.stitcher q).pc + 1 } := by
  rw [endPrepare, raise_stitcher, nextPc_stitcher, wr_stitcher, endWait_stitcher, State.stitcher_setStitcher]

theorem endPrepare_apart {q m : Nat} (h : q ≠ m) (g : GangCommit) (s : State) : StitchApart m s (endPrepare q g s) :=
  (((((StitchApart.refl m s).setStitcher h _).endWait h).wr h ..).nextPc h).raise h 4

theorem endPrepare_ready (q : Nat) (g : GangCommit) (s : State) (i x u : Nat) :
    (endPrepare q g s).rd .STITCH_GANG_READY_READY i x u = s.rd .STITCH_GANG_READY_READY i x u := by
  rw [endPrepare, raise_rd _ (by decide) (by decide), nextPc_rd, State.rd_wr_reg _ (by decide), endWait_rd _ _ (by decide),
    State.setStitcher_rd]

theorem endPrepare_queue (q : Nat) (g : GangCommit) (s : State) (i : Nat) : (endPrepare q g s).queue i = s.queue i := by
  rw [endPrepare, State.queue, raise_queues, nextPc_queues, State.wr_queues, endWait_queues]
  rfl

section
variable (g : GangCommit) (x : Instant) (s : State)

theorem commitPackets_apart (m : Nat) : StitchApart m s (commitPackets g x s) :=
  ⟨stitcher_of_only (mapQueue_only _ _ s) (by decide) m, fun r i z => mapQueue_only _ _ s (.reg r) (by simp) m i z⟩

theorem commitMembers_queue {i : Nat} (hi : i < 192) (hb : bit g.qmask (i / 16) = 1) : (commitMembers g x s).queue i =
    (s.queue i).mapped (Packet.commit g.k x) := by
  rw [commitMembers, each_gangOutcome_queue, commitPackets]
  exact eachQueue_queue (mapQueue_own _) (mapQueue_other _) (gangMembers_nodup _) (mem_gangMembers.mpr ⟨by omega, hb⟩) s

/-- Each member's READY of the gang ends, and its WAITC. -/
theorem commitMembers_ends {m : Nat} (hm : m < 12) (hb : bit g.qmask m = 1) :
    (commitMembers g x s).rd .STITCH_GANG_READY_READY m 0 g.k = 0 ∧ (waitsGang s m g.k = true →
      ((commitMembers g x s).stitcher m).wait = .none ∧ ((commitMembers g x s).stitcher m).pc = (s.stitcher m).pc + 1) := by
  obtain ⟨u, hu, ht⟩ := each_own (R := StitchApart m) (StitchApart.refl m) StitchApart.trans (f := gangOutcome g.k 2)
    (fun k hk t => .gangOutcome hk g.k 2 t) (mem_gangMembers.mpr ⟨hm, hb⟩) (gangMembers_nodup _) (commitPackets g x s)
  have hst := ((commitPackets_apart g x s m).trans hu).stitcher
  obtain ⟨hready, hwaits⟩ := gangOutcome_ends g.k m u
  rw [waitsGang, hst] at hwaits
  rw [commitMembers, ht.stitcher, ht.rd]
  exact ⟨hready, hwaits⟩

end

/-- What a commit point does to the coordinator, to the members' packets and to the members. -/
theorem commitPoint_commits {q : Nat} {g : GangCommit} {x : Instant} {s : State} (hg : (s.stitcher q).gang = some g)
    (hw : (s.stitcher q).wait = .commit) (hx : commitInstant s g = some x) :
    ((commitPoint q s).stitcher q).wait = .none ∧ ((commitPoint q s).stitcher q).gang = none ∧
      ((commitPoint q s).stitcher q).pc = (s.stitcher q).pc + 1 ∧ Raised (commitPoint q s) .stitch q 4 ∧
      (∀ i : Nat, i < 192 → bit g.qmask (i / 16) = 1 →
        ((commitPoint q s).queue i).cells = (s.queue i).cells.map (Packet.commit g.k x) ∧
        ((commitPoint q s).queue i).head = (s.queue i).head.map (Packet.commit g.k x)) ∧
      ∀ m : Nat, m < 12 → bit g.qmask m = 1 → (commitPoint q s).rd .STITCH_GANG_READY_READY m 0 g.k = 0 ∧
        (waitsGang s m g.k = true → ((commitPoint q s).stitcher m).wait = .none ∧
          ((commitPoint q s).stitcher m).pc = (s.stitcher m).pc + 1) := by
  have hidle : waitsGang s q g.k = false := by simp [waitsGang, hw]
  have hpackets := commitPackets_apart g x s q
  obtain ⟨o, ho⟩ := (each_gangOutcome_outcomeOnly (s := commitPackets g x s) (by rwa [waitsGang, hpackets.stitcher]) 2
    (gangMembers g.qmask)).stitcher
  rw [hpackets.stitcher] at ho
  rw [commitPoint_eq hg hx]
  have hst := endPrepare_stitcher q g (commitMembers g x s)
  rw [commitMembers, ho, ← commitMembers] at hst
  refine ⟨by rw [hst], by rw [hst], by rw [hst], raise_raw .., fun i hi hb => ?_, fun m hm hb => ?_⟩
  · rw [endPrepare_queue, commitMembers_queue g x s hi hb]
    exact ⟨rfl, rfl⟩
  · obtain ⟨hready, hwaits⟩ := commitMembers_ends g x s hm hb
    refine ⟨(endPrepare_ready ..).trans hready, fun hwait => ?_⟩
    have hne : q ≠ m := fun e => by rw [← e, hidle] at hwait; cases hwait
    rw [(endPrepare_apart hne g _).stitcher]
    exact hwaits hwait

/-! ### A failed prepare (R153) -/

/-- The report of a failed prepare. -/
def failReport (q k quads reason : Nat) (s : State) : State :=
  (((endWait q (s.setStitcher q { s.stitcher q with gang := none })).wr .STITCH_GANG_STAT_FAIL_QUADS quads q).wr
    .STITCH_GANG_STAT_REASON reason q).wr .STITCH_GANG_STAT_GANG k q

theorem failReport_stitcher (q k quads reason : Nat) (s : State) : (failReport q k quads reason s).stitcher q =
    { s.stitcher q with gang := none, wait := .none } := by
  rw [failReport, wr_stitcher, wr_stitcher, wr_stitcher, endWait_stitcher, State.stitcher_setStitcher]

theorem failReport_errors (q k quads reason : Nat) (s : State) (r : Reg) (hr : .reg r ∈ errors) (i x u : Nat) :
    (failReport q k quads reason s).rd r i x u = s.rd r i x u := by
  have hall : ∀ r : Reg, Part.reg r ∈ errors → r ∉ waitFields ∧ .STITCH_GANG_STAT_FAIL_QUADS ≠ r ∧ .STITCH_GANG_STAT_REASON ≠ r ∧
      .STITCH_GANG_STAT_GANG ≠ r := by
    intro r hr
    simp only [errors, fields, List.map_cons, List.map_nil, List.mem_cons, List.not_mem_nil, or_false, Part.reg.injEq] at hr
    rcases hr with rfl | rfl | rfl | rfl | rfl <;> decide
  obtain ⟨hw, h1, h2, h3⟩ := hall r hr
  rw [failReport, State.rd_wr_reg _ h3, State.rd_wr_reg _ h2, State.rd_wr_reg _ h1, endWait_rd _ _ hw, State.setStitcher_rd]

/-- A prepare that fails without a jump records its error, raises its event and goes on. -/
theorem prepareFails_next {q : Nat} {g : GangCommit} {s : State} (hg : (s.stitcher q).gang = some g) (hf : g.fjump = false) :
    ∃ quads reason, prepareFails q s = nextPc q (raise .stitch q 5 (recordErr .stitch q errPrepareFailed (8 + q) false 0
      (failReport q g.k quads reason s))) := by
  unfold prepareFails
  rw [hg]
  dsimp only
  rw [hf]
  exact ⟨_, _, rfl⟩

/-! ### READY, COMMIT, ABORT and WAITC (R150, R151, R154) -/

theorem gangCommit_prepares {q w : Nat} {s : State} (h : bit w 51 = 0 ∨ granted s q (bits w 31 26) = true) :
    gangCommit q w s = (s.setStitcher q { s.stitcher q with
      wait := .commit, waitFrom := s.osc
      gang := some ⟨bits w 55 54, bit w 51 == 1, bits w 31 26, bit w 50 == 1, bits w 45 32, bits w 11 0⟩ }).wr
      .STITCH_STATUS_GANG_WAIT 1 q := by
  refine if_neg fun ⟨h1, h2⟩ => ?_
  rcases h with h | h
  · omega
  · exact absurd (h.symm.trans h2) (by decide)

/-- Where no packet of a quad is staged for a gang, none of its queues holds one. -/
theorem not_staged {s : State} {k i : Nat} (h : stagedCount s (i / 16) k = 0) {p : Packet}
    (hp : p ∈ (s.queue i).head.toList ++ (s.queue i).cells) : p.stagedFor k = false := by
  have hchan : i / 4 ∈ chansOf (i / 16) := mem_rangeFrom.mpr (by omega)
  have hmem : p ∈ chanPackets s (i / 4) := by
    refine List.mem_flatten.mpr ⟨_, List.mem_map.mpr ⟨i % 4, mem_upTo.mpr (Nat.mod_lt _ (by decide)), rfl⟩, ?_⟩
    rwa [show 4 * (i / 4) + i % 4 = i by omega]
  rw [stagedCount, ← List.sum_eq_foldl, List.sum_eq_zero_iff] at h
  have hnone := h _ (List.mem_map_of_mem hchan)
  rw [List.length_eq_zero_iff, List.filter_eq_nil_iff] at hnone
  simpa using hnone p hmem

theorem unstaged_of_not_staged {k : Nat} {t : TackQueue} (h : ∀ p ∈ t.head.toList ++ t.cells, p.stagedFor k = false) :
    t.unstaged k = t := by
  have hcells : t.cells.filter (fun p => !p.stagedFor k) = t.cells :=
    List.filter_eq_self.mpr fun p hp => by simp [h p (List.mem_append_right _ hp)]
  have hhead : t.head.filter (fun p => !p.stagedFor k) = t.head := by
    cases ht : t.head with
    | none => rfl
    | some p => simp [Option.filter, h p (List.mem_append_left _ (by simp [ht]))]
  rw [TackQueue.unstaged, hcells, hhead]

/-- ABORT takes each member's packets staged for the gang, and its own Stitcher goes on. -/
theorem gangAbort_aborts {q : Quad} {s : State} (w : Nat) (hr : s.rd .STITCH_STATUS_RUNNING q.val = 1)
    (hw : (s.stitcher q.val).wait = .none) : GoesOn (gangAbort q.val w s) q ((s.stitcher q.val).pc + 1) ∧
    ∀ i : Nat, i < 192 → bit (bits w 11 0) (i / 16) = 1 → (gangAbort q.val w s).queue i = (s.queue i).unstaged (bits w 55 54) := by
  unfold gangAbort
  dsimp only
  split
  · rename_i hall
    refine ⟨goesOn_nextPc hr hw, fun i hi hb => ?_⟩
    have hstaged := List.all_eq_true.mp hall _ (mem_gangMembers.mpr ⟨by omega, hb⟩)
    exact (unstaged_of_not_staged fun p hp => not_staged (beq_iff_eq.mp hstaged) hp).symm
  · have honly := dropStaged_only (bits w 55 54) (gangMembers (bits w 11 0)) s
    have hst := stitcher_of_only honly (by decide) q.val
    have hout := each_gangOutcome_outcomeOnly (k := bits w 55 54)
      (s := eachQueue (gangMembers (bits w 11 0)) (dropStaged (bits w 55 54)) s) (q := q.val)
      (by rw [waitsGang, hst, hw]) 3 (gangMembers (bits w 11 0))
    obtain ⟨o, ho⟩ := hout.stitcher
    rw [hst] at ho
    refine ⟨?_, fun i hi hb => ?_⟩
    · rw [GoesOn, nextPc_stitcher, nextPc_rd]
      rw [eachQueue] at ho hout honly
      rw [ho, hout.rd _ (by decide), honly (.reg .STITCH_STATUS_RUNNING) (by decide)]
      exact ⟨hr, rfl, hw, rfl⟩
    · refine (each_gangOutcome_queue ..).trans ?_
      exact eachQueue_queue (dropStaged_own _) (dropStaged_other _) (gangMembers_nodup _) (mem_gangMembers.mpr ⟨by omega, hb⟩) s

section
variable {q w : Nat} {s : State}

theorem gangWaitc_waits (h : Store.get 0 (s.stitcher q).outcome (bits w 55 54) = 1) : gangWaitc q w s =
    (s.setStitcher q { s.stitcher q with wait := .waitc (bits w 55 54) (bit w 50) (bits w 45 32), waitFrom := s.osc }).wr
      .STITCH_STATUS_GANG_WAIT 1 q := by
  unfold gangWaitc
  dsimp only
  rw [h]
  rfl

theorem gangWaitc_jumps (h : Store.get 0 (s.stitcher q).outcome (bits w 55 54) = 3) (hj : bit w 50 = 1) :
    gangWaitc q w s = goto q (bits w 45 32) s := by
  unfold gangWaitc
  dsimp only
  rw [h]
  exact if_pos hj

theorem gangWaitc_next (h1 : Store.get 0 (s.stitcher q).outcome (bits w 55 54) ≠ 1)
    (h3 : Store.get 0 (s.stitcher q).outcome (bits w 55 54) ≠ 3 ∨ bit w 50 = 0) : gangWaitc q w s = nextPc q s := by
  unfold gangWaitc
  dsimp only
  split
  · rename_i h
    exact absurd h h1
  · rename_i h
    exact if_neg (by have := h3.resolve_left (not_not_intro h); omega)
  · rfl

end

/-- Settles O25: each GANG instruction by its equation, the commit point and ABORT by their passes over the members. -/
theorem gangs : Obligations.Gangs := by
  refine ⟨fun s q w h ha => ⟨_, runGang_executes h ha _, ?_⟩, fun s q w h ha hg => ⟨_, runGang_executes h ha _, ?_⟩,
    fun s q g x hd hg hw hr hx => ⟨_, act_on hd hr _, commitPoint_commits hg hw hx⟩,
    fun s q g hd hg ho hf => ⟨_, act_on hd ho _, ?_⟩, fun s q w h ha => ⟨_, runGang_executes h ha _, ?_⟩,
    fun s q w h ha ho => ⟨_, runGang_executes h ha _, ?_⟩, fun s q w h ha ho hj ht => ⟨_, runGang_executes h ha _, ?_⟩,
    fun s q w h ha h1 h3 => ⟨_, runGang_executes h ha _, ?_⟩⟩
  · rw [gangReady]
    refine ⟨?_, (nextPc_rd ..).trans (State.rd_wr_same ..)⟩
    rw [GoesOn, nextPc_stitcher, nextPc_rd, wr_stitcher, State.stitcher_setStitcher, State.rd_wr_reg _ (by decide), State.setStitcher_rd]
    exact ⟨h.running, rfl, h.idle, rfl⟩
  · rw [gangCommit_prepares hg, wr_stitcher, State.stitcher_setStitcher]
    exact ⟨rfl, State.rd_wr_same .., rfl, rfl⟩
  · obtain ⟨quads, reason, hfail⟩ := prepareFails_next hg hf
    have hrec : Recorded s (recordErr .stitch q.val errPrepareFailed (8 + q.val) false 0 (failReport q.val g.k quads reason s)) .stitch
        q.val errPrepareFailed (8 + q.val) :=
      recorded_recordErr (failReport_errors q.val g.k quads reason s) (by decide) (by omega) ..
    rw [hfail, nextPc_stitcher, raise_stitcher, recordErr_stitcher, failReport_stitcher]
    simp only [Raised, Recorded, nextPc_rd, true_and]
    exact ⟨raise_raw .., hrec.raise ..⟩
  · obtain ⟨hgo, hqueue⟩ := gangAbort_aborts w h.running h.idle
    refine ⟨hgo, fun i hi hb => ?_⟩
    rw [hqueue i hi hb]
    exact ⟨rfl, rfl⟩
  · rw [gangWaitc_waits ho, wr_stitcher, State.stitcher_setStitcher]
    exact ⟨rfl, State.rd_wr_same ..⟩
  · rw [gangWaitc_jumps ho hj]
    exact goesOn_goto h.running h.idle ht
  · rw [gangWaitc_next h1 h3]
    exact goesOn_nextPc h.running h.idle

end Sys2Proof.Machine
end
section
/-! PROOFS. The credits of the Tack pool and the register push interface (R159, R163, R164, R166 to R168), and the statement about them. -/

namespace Sys2Proof.Machine

-- One declaration at a time: the memory limit counts the stack of every thread that elaborates one.
set_option Elab.async false

/-! ### Queues and staging under the shared operations -/

section
variable (s : State)

@[simp] theorem wr_queue (r : Reg) (v i x u k : Nat) : (s.wr r v i x u).queue k = s.queue k := rfl
@[simp] theorem wr_stage (r : Reg) (v i x u k : Nat) : (s.wr r v i x u).stage k = s.stage k := rfl
@[simp] theorem setStage_queue (m : Nat) (x : Staging) (k : Nat) : (s.setStage m x).queue k = s.queue k := rfl
@[simp] theorem setQueue_stage (i : Nat) (x : TackQueue) (k : Nat) : (s.setQueue i x).stage k = s.stage k := rfl
@[simp] theorem raise_queue (p : Page) (n b k : Nat) : (raise p n b s).queue k = s.queue k :=
  congrArg (Store.get _ · k) (raise_queues s p n b)
@[simp] theorem hostWake_queue (m k : Nat) : (hostWake m s).queue k = s.queue k := congrArg (Store.get _ · k) (hostWake_queues s m)
@[simp] theorem hostWake_stage (m k : Nat) : (hostWake m s).stage k = s.stage k := congrArg (Store.get _ · k) (hostWake_staging s m)

@[simp] theorem refreshFlushBusy_rd {r : Reg} (h : .TACK_QLEVEL_FLUSH_BUSY ≠ r) (k i x u : Nat) :
    (refreshFlushBusy k s).rd r i x u = s.rd r i x u := State.rd_wr_reg _ h ..
@[simp] theorem refreshFlushBusy_queue (k i : Nat) : (refreshFlushBusy k s).queue i = s.queue i := rfl
@[simp] theorem refreshFlushBusy_stage (k m : Nat) : (refreshFlushBusy k s).stage m = s.stage m := rfl

@[simp] theorem notice_rd (k : Nat) (p : Packet) (r : Reg) (i x u : Nat) : (notice k p s).rd r i x u = s.rd r i x u := rfl

/-- A packet joins its queue at the end, with the cells that it has. -/
@[simp] theorem notice_cells (k : Nat) (p : Packet) :
    ((notice k p s).queue k).cells.map (·.cells) = (s.queue k).cells.map (·.cells) ++ [p.cells] := by
  rw [notice, State.queue_setQueue, List.map_append]
  rfl

end

/-! ### Credit (R163, R164) -/

/-- Queues, staging and open packets are the same, so the same cells are in flight. -/
structure SameCells (s t : State) : Prop where
  queues : t.queues = s.queues
  staging : t.staging = s.staging
  opens : ∀ m, t.rd .TACK_PUSH_STAT_OPEN 0 m = s.rd .TACK_PUSH_STAT_OPEN 0 m

theorem SameCells.inFlight {s t : State} (h : SameCells s t) (i : Nat) (b : Bool) : inFlight t i b = inFlight s i b := by
  have hopen : openCells t i = openCells s i := List.foldl_ext _ _ _ fun n m _ => by rw [h.opens, State.stage, State.stage, h.staging]
  rw [Machine.inFlight, Machine.inFlight, hopen, State.queue, State.queue, h.queues]

theorem SameCells.available {s t : State} (h : SameCells s t) {i : Nat} (b : Bool) (ha : allocation t i b = allocation s i b) :
    available t i b = available s i b := by rw [Machine.available, ha, h.inFlight, Machine.available]

theorem SameCells.creditSum {s t : State} (h : SameCells s t) (ha : ∀ i b, allocation t i b = allocation s i b) :
    creditSum t = creditSum s := by simp only [Machine.creditSum, ha, h.inFlight]

theorem sameCells_hostWake (m : Nat) (s : State) : SameCells s (hostWake m s) :=
  ⟨hostWake_queues s m, hostWake_staging s m, fun _ => by simp⟩

theorem available_hostWake (m : Nat) (s : State) (i : Nat) (b : Bool) : available (hostWake m s) i b = available s i b :=
  (sameCells_hostWake m s).available b (by simp [allocation])

/-! ### A write of QCFG (R164) -/

/-- The fields of queue i's QCFG as a write puts them. -/
def storeQcfg (i v : Nat) (s : State) : State :=
  ((s.wr .TACK_QCFG_CRED_STITCH (bits v 11 0) 0 i).wr .TACK_QCFG_CRED_REG (bits v 23 12) 0 i).wr .TACK_QCFG_FMODE (bit v 24) 0 i

theorem storeQcfg_fields (i v : Nat) (s : State) : (storeQcfg i v s).rd .TACK_QCFG_CRED_STITCH 0 i = bits v 11 0 ∧
    (storeQcfg i v s).rd .TACK_QCFG_CRED_REG 0 i = bits v 23 12 ∧ (storeQcfg i v s).rd .TACK_QCFG_FMODE 0 i = bit v 24 := by
  refine ⟨?_, ?_, ?_⟩
  · exact (by simp [storeQcfg] : _ = _ % 2 ^ Reg.TACK_QCFG_CRED_STITCH.width).trans (Nat.mod_eq_of_lt (bits_lt v 11 0))
  · exact (by simp [storeQcfg] : _ = _ % 2 ^ Reg.TACK_QCFG_CRED_REG.width).trans (Nat.mod_eq_of_lt (bits_lt v 23 12))
  · exact (by simp [storeQcfg] : _ = _ % 2 ^ Reg.TACK_QCFG_FMODE.width).trans (Nat.mod_eq_of_lt (bit_lt v 24))

/-- A wake before the write does not change what the pool would be committed to. -/
theorem creditSum_storeQcfg_hostWake (i v m : Nat) (s : State) :
    creditSum (storeQcfg i v (hostWake m s)) = creditSum (storeQcfg i v s) := by
  refine SameCells.creditSum ⟨hostWake_queues s m, hostWake_staging s m, fun k => by simp [storeQcfg]⟩ fun k b => ?_
  cases b <;> simp [allocation, storeQcfg, State.rd_wr]

theorem writeQcfg_stores {m i v : Nat} {s : State} (h : creditSum (storeQcfg i v s) ≤ 32768) : writeQcfg m i v s = storeQcfg i v s :=
  if_neg (Nat.not_lt.mpr h)

theorem writeQcfg_refuses {m i v : Nat} {s : State} (h : 32768 < creditSum (storeQcfg i v s)) :
    writeQcfg m i v s = actionErr .tack 0 errNoCredit m s := if_pos h

/-! ### A word of PUSH_WIN (R166 to R168) -/

section
variable {m w : Nat} {s : State}

/-- A word of an open packet is kept. -/
def appendWord (m w : Nat) (s : State) : State :=
  (s.wr .TACK_PUSH_STAT_WORDS_LEFT (s.rd .TACK_PUSH_STAT_WORDS_LEFT 0 m - 1) 0 m).setStage m
    { s.stage m with words := (s.stage m).words ++ [w] }

theorem pushWord_absorbs (hd : s.rd .TACK_PUSH_STAT_DISCARDING 0 m = 1) : pushWord m w s =
    (s.wr .TACK_PUSH_STAT_WORDS_LEFT (s.rd .TACK_PUSH_STAT_WORDS_LEFT 0 m - 1) 0 m).wr .TACK_PUSH_STAT_DISCARDING
      (if s.rd .TACK_PUSH_STAT_WORDS_LEFT 0 m ≤ 1 then 0 else 1) 0 m := if_pos hd

theorem pushWord_begins (hd : s.rd .TACK_PUSH_STAT_DISCARDING 0 m = 0) (ho : s.rd .TACK_PUSH_STAT_OPEN 0 m = 0) :
    pushWord m w s = beginPacket m w s := by simp [pushWord, hd, ho]

theorem pushWord_appends (hd : s.rd .TACK_PUSH_STAT_DISCARDING 0 m = 0) (ho : s.rd .TACK_PUSH_STAT_OPEN 0 m = 1)
    (hl : 1 < s.rd .TACK_PUSH_STAT_WORDS_LEFT 0 m) : pushWord m w s = appendWord m w s := by
  simp [pushWord, appendWord, hd, ho, Nat.not_le.mpr hl]

theorem pushWord_closes (hd : s.rd .TACK_PUSH_STAT_DISCARDING 0 m = 0) (ho : s.rd .TACK_PUSH_STAT_OPEN 0 m = 1)
    (hl : s.rd .TACK_PUSH_STAT_WORDS_LEFT 0 m = 1) : pushWord m w s = closePacket m (appendWord m w s) := by
  simp [pushWord, appendWord, hd, ho, hl]

/-- The queue that a header word names, by the channel of PUSH_SEL and the priority in the word. -/
def headerQueue (m w : Nat) (s : State) : Nat := 4 * s.rd .TACK_PUSH_SEL_CH 0 m + bits w 5 4

/-- A packet whose cells have credit opens, and the rest of its words is awaited. -/
theorem beginPacket_opens (hc : s.rd .TACK_PUSH_SEL_CH 0 m < 48) (ha : bits w 8 6 + 1 ≤ available s (headerQueue m w s) false) :
    (beginPacket m w s).rd .TACK_PUSH_STAT_OPEN 0 m = 1 ∧
      (beginPacket m w s).rd .TACK_PUSH_STAT_WORDS_LEFT 0 m = 4 * (bits w 8 6 + 1) - 1 ∧
      (beginPacket m w s).stage m = { words := [w], cells := bits w 8 6 + 1, queue := headerQueue m w s } := by
  have hopen : beginPacket m w s = ((s.wr .TACK_PUSH_STAT_WORDS_LEFT (4 * (bits w 8 6 + 1) - 1) 0 m).wr .TACK_PUSH_STAT_OPEN 1 0 m).setStage
      m { words := [w], cells := bits w 8 6 + 1, queue := headerQueue m w s } :=
    if_neg (by unfold headerQueue at ha; omega)
  have hw : bits w 8 6 < 2 ^ 3 := bits_lt w 8 6
  rw [hopen]
  refine ⟨?_, ?_, State.stage_setStage ..⟩
  · simp [Reg.width, Reg.info]
  · simp only [State.setStage_rd, State.rd_wr_same, State.rd_wr_reg _ (show Reg.TACK_PUSH_STAT_OPEN ≠ .TACK_PUSH_STAT_WORDS_LEFT by decide)]
    exact Nat.mod_eq_of_lt (show 4 * (bits w 8 6 + 1) - 1 < 2 ^ 6 by omega)

/-- The marks of a refused packet. -/
def refusePacket (m w : Nat) (s : State) : State :=
  ((s.wr .TACK_PUSH_STAT_WORDS_LEFT (4 * (bits w 8 6 + 1) - 1) 0 m).wr .TACK_PUSH_STAT_REFUSED 1 0 m).wr .TACK_PUSH_STAT_DISCARDING 1 0 m

theorem beginPacket_refuses (h : 48 ≤ s.rd .TACK_PUSH_SEL_CH 0 m ∨ available s (headerQueue m w s) false < bits w 8 6 + 1) :
    beginPacket m w s = raise .tack 0 6 (actionErr .tack 0 errNoCredit m (refusePacket m w s)) := if_pos h

theorem refusePacket_marks (m w : Nat) (s : State) : (refusePacket m w s).rd .TACK_PUSH_STAT_REFUSED 0 m = 1 ∧
    (refusePacket m w s).rd .TACK_PUSH_STAT_DISCARDING 0 m = 1 ∧
    (refusePacket m w s).rd .TACK_PUSH_STAT_OPEN 0 m = s.rd .TACK_PUSH_STAT_OPEN 0 m := by
  simp [refusePacket, Reg.width, Reg.info]

/-- A closed packet is open no more; unless a flush has marked it, its cells stand at the end of its queue. -/
theorem closePacket_joins (h : (s.stage m).doomed = false) : (closePacket m s).rd .TACK_PUSH_STAT_OPEN 0 m = 0 ∧
    ((closePacket m s).queue (s.stage m).queue).cells.map (·.cells) =
      (s.queue (s.stage m).queue).cells.map (·.cells) ++ [joinCells (s.stage m).words] := by
  rw [closePacket, if_neg (by simp [h])]
  exact ⟨by simp, notice_cells ..⟩

theorem closePacket_discards (h : (s.stage m).doomed = true) : (closePacket m s).rd .TACK_PUSH_STAT_OPEN 0 m = 0 ∧
    (closePacket m s).queues = s.queues := by
  rw [closePacket, if_pos h]
  exact ⟨by simp, rfl⟩

end

theorem appendWord_stage (m w : Nat) (s : State) : (appendWord m w s).stage m =
    { s.stage m with words := (s.stage m).words ++ [w] } := State.stage_setStage ..

/-- A count of words left is one less, within its field. -/
theorem wordsLeft_pred {s : State} (hi : Inv s) (m : Nat) : (s.rd .TACK_PUSH_STAT_WORDS_LEFT 0 m - 1) %
    2 ^ Reg.TACK_PUSH_STAT_WORDS_LEFT.width = s.rd .TACK_PUSH_STAT_WORDS_LEFT 0 m - 1 :=
  Nat.mod_eq_of_lt (Nat.lt_of_le_of_lt (Nat.sub_le ..) (rd_lt hi.2.2.1 ..))

/-! ### ABORT, and masters without staging (R166, R168) -/

theorem pushAbort_abandons (m : Nat) (s : State) : (pushAbort m s).rd .TACK_PUSH_STAT_OPEN 0 m = 0 ∧
    (pushAbort m s).rd .TACK_PUSH_STAT_WORDS_LEFT 0 m = 0 ∧ (pushAbort m s).rd .TACK_PUSH_STAT_DISCARDING 0 m = 0 ∧
    ((pushAbort m s).stage m).words = [] ∧ (pushAbort m s).queues = s.queues := by
  refine ⟨?_, ?_, ?_, ?_, rfl⟩
  · simp [pushAbort]
  · simp [pushAbort]
  · simp [pushAbort]
  · simp [pushAbort]

theorem pushMaster_ok {m : Nat} (h : m ≤ 2) (off : Nat) (f : State → State) (s : State) : pushMaster m off f s = f s := if_pos h

theorem pushMaster_denied {m : Nat} (h : 2 < m) (off : Nat) (f : State → State) (s : State) :
    pushMaster m off f s = recordErr .tack 0 errOwnerDenied m true (off / 4) s := if_neg (Nat.not_le.mpr h)

section
variable {s : State} {m : Master}

theorem pushWinWord_ok (h : MayWrite s .tack 0 m) (hm : m.val ≤ 2) (w : Word) :
    exec (.pushWinWord m w) s = .next (pushWord m.val w.toNat (hostWake m.val s)) :=
  (cmd_ok h ..).trans (congrArg _ (pushMaster_ok hm ..))

theorem pushAbort_ok (h : MayWrite s .tack 0 m) (hm : m.val ≤ 2) : exec (.pushAbort m) s = .next (pushAbort m.val (hostWake m.val s)) :=
  (cmd_ok h ..).trans (congrArg _ (pushMaster_ok hm ..))

theorem pushWinWord_denied (h : MayWrite s .tack 0 m) (hm : 2 < m.val) (w : Word) :
    exec (.pushWinWord m w) s = .next (recordErr .tack 0 errOwnerDenied m.val true (0x80 / 4) (hostWake m.val s)) :=
  (cmd_ok h ..).trans (congrArg _ (pushMaster_denied hm ..))

theorem pushAbort_denied (h : MayWrite s .tack 0 m) (hm : 2 < m.val) :
    exec (.pushAbort m) s = .next (recordErr .tack 0 errOwnerDenied m.val true (0x48 / 4) (hostWake m.val s)) :=
  (cmd_ok h ..).trans (congrArg _ (pushMaster_denied hm ..))

end

/-- What a master without staging is answered: its error, and no queue and no packet has changed. -/
theorem ownerDenied_records (m : Master) (o : Nat) (s : State) :
    (recordErr .tack 0 errOwnerDenied m.val true o (hostWake m.val s)).queues = s.queues ∧
      (recordErr .tack 0 errOwnerDenied m.val true o (hostWake m.val s)).staging = s.staging ∧
      Recorded s (recordErr .tack 0 errOwnerDenied m.val true o (hostWake m.val s)) .tack 0 errOwnerDenied m.val :=
  ⟨by simp, by simp, recorded_recordErr (hostWake_errors m.val) (by decide) m.isLt ..⟩

theorem refusePacket_errors (m w k : Nat) (s : State) : ∀ r, .reg r ∈ errors → ∀ i x z,
    (refusePacket m w (hostWake k s)).rd r i x z = s.rd r i x z :=
  errors_wr (errors_wr (errors_wr (hostWake_errors k) (by decide) _ _ _ _) (by decide) _ _ _ _) (by decide) _ _ _ _

/-- Settles O26: a word by what its master's PUSH_STAT says of it (absorbed, header, appended, last), ABORT by its clears, a write of QCFG
by whether the pool still holds what it promises. -/
theorem tackPushes : Obligations.TackPushes := by
  refine ⟨fun s m w h hm hd ho hc ha => ⟨_, pushWinWord_ok h hm w, ?_⟩, fun s m w h hm hd ho ha => ⟨_, pushWinWord_ok h hm w, ?_⟩,
    fun s m w h hm hd ho hl hi => ⟨_, pushWinWord_ok h hm w, ?_⟩, fun s m w h hm hd ho hl hx => ⟨_, pushWinWord_ok h hm w, ?_⟩,
    fun s m w h hm hd ho hl hx => ⟨_, pushWinWord_ok h hm w, ?_⟩, fun s m w h hm hd hi => ⟨_, pushWinWord_ok h hm w, ?_⟩,
    fun s m h hm => ⟨_, pushAbort_ok h hm, ?_⟩, fun s m w h hm => ⟨_, pushWinWord_denied h hm w, ownerDenied_records ..⟩,
    fun s m h hm => ⟨_, pushAbort_denied h hm, ownerDenied_records ..⟩, fun s m i v h hc => ⟨_, cmd_ok h .., ?_⟩,
    fun s m i v h hc => ⟨_, cmd_ok h .., ?_⟩⟩
  · have hq : headerQueue m.val w.toNat (hostWake m.val s) = headerQueue m.val w.toNat s := by simp [headerQueue]
    rw [pushWord_begins (by simpa using hd) (by simpa using ho)]
    have hopen := beginPacket_opens (m := m.val) (w := w.toNat) (s := hostWake m.val s) (by simpa using hc)
      (by rw [hq, available_hostWake]; exact ha)
    rwa [hq] at hopen
  · have hrefuse : beginPacket m.val w.toNat (hostWake m.val s) = _ := beginPacket_refuses (by
      rw [available_hostWake]
      simpa [headerQueue] using ha)
    obtain ⟨hr, hd', ho'⟩ := refusePacket_marks m.val w.toNat (hostWake m.val s)
    have hrec : Recorded s (actionErr .tack 0 errNoCredit m.val (refusePacket m.val w.toNat (hostWake m.val s))) .tack 0 errNoCredit m.val :=
      recorded_recordErr (refusePacket_errors m.val w.toNat m.val s) (by decide) m.isLt ..
    rw [pushWord_begins (by simpa using hd) (by simpa using ho), hrefuse]
    refine ⟨?_, ?_, ?_, ?_, hrec.raise .., raise_raw ..⟩
    · simpa [actionErr, ho] using ho'
    · simpa [actionErr] using hr
    · simpa [actionErr] using hd'
    · simp [actionErr, refusePacket]
  · rw [pushWord_appends (by simpa using hd) (by simpa using ho) (by simpa using hl), appendWord_stage]
    refine ⟨by simp, ?_, by simp [appendWord]⟩
    simpa [appendWord] using wordsLeft_pred hi m.val
  · have hjoin := closePacket_joins (m := m.val) (s := appendWord m.val w.toNat (hostWake m.val s)) (by simpa [appendWord_stage] using hx)
    rw [pushWord_closes (by simpa using hd) (by simpa using ho) (by simpa using hl)]
    simpa [appendWord_stage, appendWord] using hjoin
  · have hgone := closePacket_discards (m := m.val) (s := appendWord m.val w.toNat (hostWake m.val s)) (by simpa [appendWord_stage] using hx)
    rw [pushWord_closes (by simpa using hd) (by simpa using ho) (by simpa using hl)]
    simpa [appendWord] using hgone
  · rw [pushWord_absorbs (by simpa using hd)]
    refine ⟨by simp, ?_, ?_⟩
    · rw [State.rd_wr_same, hostWake_rd _ (by decide) (by decide) (by decide) (by decide)]
      split <;> rfl
    · simpa using wordsLeft_pred hi m.val
  · simpa using pushAbort_abandons m.val (hostWake m.val s)
  · rw [writeQcfg_stores (by rw [creditSum_storeQcfg_hostWake]; exact hc)]
    exact storeQcfg_fields ..
  · rw [writeQcfg_refuses (by rw [creditSum_storeQcfg_hostWake]; exact hc)]
    refine ⟨by simp [actionErr], by simp [actionErr], by simp [actionErr], ?_⟩
    exact recorded_recordErr (hostWake_errors m.val) (by decide) m.isLt ..

end Sys2Proof.Machine
end
section
/-! PROOFS. Head slots, link faults, drops, flushes, torn packets and the reset of TACK (R159, R170, R174 to R178, R423), and the statement
about them. -/

namespace Sys2Proof.Machine

-- One declaration at a time: the memory limit counts the stack of every thread that elaborates one.
set_option Elab.async false

@[simp] theorem inc_queue (s : State) (r : Reg) (i x u k : Nat) : (s.inc r i x u).queue k = s.queue k := rfl

/-! ### The fetch into the head slot (R170, R174, R175) -/

/-- A word of the oldest packet fails its parity, or its links cannot be corrected. -/
def Packet.spoiled (p : Packet) (bad link : Nat) : Bool := (upTo (4 * p.cells.length)).any (p.parityFails bad) || decide (link = 2)

/-- The packet as the fetch delivers it. -/
def Packet.fetched (p : Packet) (bad link : Nat) : Packet :=
  { p with poison := p.poison || p.spoiled bad link, poison1 := p.poison1 || p.parityFails bad 1 }

/-- With the parity that was computed as its words were written, exactly the words fail of which a bit has changed since. -/
theorem parityFails_written {p : Packet} (h : p.parity = p.words.map wordParity) (bad w : Nat) : p.parityFails bad w = bad.testBit w := by
  have hzero : wordParity 0 = false := by decide
  have hget : p.parity.getD w false = wordParity (p.words.getD w 0) := by rw [h, ← hzero, List.getD_map]
  rw [Packet.parityFails, hget]
  cases wordParity (p.words.getD w 0) <;> simp

section
variable {s : State} {i : Nat} {p : Packet} {rest : List Packet}

/-- Queue i with its oldest packet in the head slot. -/
def takeHead (i bad link : Nat) (p : Packet) (rest : List Packet) (s : State) : State :=
  s.setQueue i { s.queue i with head := some (p.fetched bad link), cells := rest }

/-- The event of a corrected link entry. -/
def noteCorrected (link : Nat) (s : State) : State := if link = 1 then raise .tack 0 7 (s.inc .TACK_CNT_LINK_CORRECTED) else s

/-- The event of a packet that the fetch poisons. -/
def notePoison (spoiled : Bool) (s : State) : State := if spoiled then raise .tack 0 0 (s.inc .TACK_CNT_POISON_COUNT) else s

@[simp] theorem noteCorrected_queue (link : Nat) (s : State) (k : Nat) : (noteCorrected link s).queue k = s.queue k := by
  unfold noteCorrected
  split <;> simp

@[simp] theorem notePoison_queue (b : Bool) (s : State) (k : Nat) : (notePoison b s).queue k = s.queue k := by
  unfold notePoison
  split <;> simp

theorem notePoison_raised {s : State} {n : Nat} (h : Raised s .tack 0 n) (b : Bool) : Raised (notePoison b s) .tack 0 n := by
  unfold notePoison
  split
  · exact Raised.raise ((State.rd_wr_reg _ (by decide) ..).trans h) ..
  · exact h

theorem headFetch_takes (hh : (s.queue i).head = none) (hc : (s.queue i).cells = p :: rest) {link : Nat} (hl : link ≠ 2) (bad : Nat) :
    headFetch i bad link s = notePoison (p.spoiled bad link) (noteCorrected link (takeHead i bad link p rest s)) := by
  simp only [headFetch, hh, hc, if_neg hl]
  rfl

/-- Queue i with its oldest packet cut and in the head slot, and what follows it lost. -/
def cutQueue (i bad : Nat) (p : Packet) (rest : List Packet) (s : State) : State :=
  (((s.wr .TACK_QLEVEL_BROKEN 1 0 i).inc .TACK_CNT_LINK_FAILED).wr .TACK_STATUS_SWEEP 1).setQueue i
    { s.queue i with head := some (p.fetched bad 2), cells := [], lostStitch := (s.queue i).lostStitch + cellsOf rest true,
                     lostReg := (s.queue i).lostReg + cellsOf rest false }

theorem headFetch_cuts (hh : (s.queue i).head = none) (hc : (s.queue i).cells = p :: rest) (bad : Nat) :
    headFetch i bad 2 s = raise .tack 0 0 ((raise .tack 0 2 (cutQueue i bad p rest s)).inc .TACK_CNT_POISON_COUNT) := by
  have hspoil : p.spoiled bad 2 = true := by simp [Packet.spoiled]
  have hcut : headFetch i bad 2 s = notePoison (p.spoiled bad 2) (raise .tack 0 2 (cutQueue i bad p rest s)) := by
    simp only [headFetch, hh, hc, if_pos]
    rfl
  rw [hcut, hspoil, notePoison, if_pos rfl]

end

theorem fetched_written {p : Packet} (h : p.parity = p.words.map wordParity) (bad : Nat) {link : Nat} (hl : link ≠ 2) : p.fetched bad link =
    { p with poison := p.poison || (upTo (4 * p.cells.length)).any (fun w => bad.testBit w), poison1 := p.poison1 || bad.testBit 1 } := by
  have hfails : p.parityFails bad = fun w => bad.testBit w := funext (parityFails_written h bad)
  simp [Packet.fetched, Packet.spoiled, hfails, hl]

/-! ### The end of a sweep (R175) -/

/-- What the end of a sweep does for queue i. -/
def returnLost (i : Nat) (s : State) : State := on (s.rd .TACK_QLEVEL_BROKEN 0 i = 1)
  (fun s => (s.wr .TACK_QLEVEL_BROKEN 0 0 i).setQueue i { s.queue i with lostStitch := 0, lostReg := 0 }) s

theorem returnLost_rd {r : Reg} {i x : Nat} (h : .TACK_QLEVEL_BROKEN ≠ r ∨ i ≠ x) (s : State) :
    (returnLost i s).rd r 0 x = s.rd r 0 x := by
  unfold returnLost on
  split
  · rw [State.setQueue_rd]
    exact h.elim (State.rd_wr_reg _ · ..) (rd_wr_idx · ..)
  · rfl

theorem returnLost_own {i : Nat} {s : State} (h : s.rd .TACK_QLEVEL_BROKEN 0 i = 0 ∨ s.rd .TACK_QLEVEL_BROKEN 0 i = 1) :
    (returnLost i s).rd .TACK_QLEVEL_BROKEN 0 i = 0 := by
  unfold returnLost on
  split
  · rw [State.setQueue_rd, State.rd_wr_same, Nat.zero_mod]
  · exact h.resolve_right ‹_›

theorem linkSweepDone_next {s : State} (hd : s.dev = .up) (h : s.rd .TACK_STATUS_SWEEP = 1) :
    exec .linkSweepDone s = .next (each (upTo 192) returnLost (s.wr .TACK_STATUS_SWEEP 0)) := act_on hd h _

theorem sweep_ends (s : State) : (each (upTo 192) returnLost (s.wr .TACK_STATUS_SWEEP 0)).rd .TACK_STATUS_SWEEP = 0 :=
  (each_rel (R := fun a b => b.rd .TACK_STATUS_SWEEP = a.rd .TACK_STATUS_SWEEP) (fun _ => rfl) (fun h k => k.trans h)
    (fun _ _ t => returnLost_rd (.inl (by decide)) t) _).trans (State.rd_wr_same ..)

theorem sweep_mends {s : State} {i : Nat} (hi : i < 192) (h : s.rd .TACK_QLEVEL_BROKEN 0 i = 0 ∨ s.rd .TACK_QLEVEL_BROKEN 0 i = 1) :
    (each (upTo 192) returnLost s).rd .TACK_QLEVEL_BROKEN 0 i = 0 := by
  obtain ⟨u, hu, hown⟩ := each_own (R := fun a b => b.rd .TACK_QLEVEL_BROKEN 0 i = a.rd .TACK_QLEVEL_BROKEN 0 i) (fun _ => rfl)
    (fun h k => k.trans h) (fun _ hy t => returnLost_rd (.inr hy) t) (mem_upTo.mpr hi) (upTo_nodup 192) s
  exact hown.trans (returnLost_own (by rwa [hu]))

/-! ### A drop (R176) -/

/-- A queue without a packet has none to change. -/
theorem mapHeadPacket_none {t : TackQueue} (h : headPacket t = none) (f : Packet → Packet) : mapHeadPacket f t = t := by
  unfold headPacket at h
  unfold mapHeadPacket
  split at h
  · cases h
  · rename_i hhead
    rw [List.head?_eq_none_iff] at h
    rw [hhead, h]

theorem rangeFrom_concat (a n : Nat) : rangeFrom a (n + 1) = rangeFrom a n ++ [a + n] := by
  induction n generalizing a with
  | zero => rfl
  | succ n ih => rw [rangeFrom, ih, rangeFrom, List.cons_append, Nat.add_right_comm, Nat.add_assoc]

/-- A queue that holds a packet is itself the first to follow. -/
theorem followQueue_self {s : State} {i : Nat} (h : (headPacket (s.queue i)).isSome) : followQueue s i = some i := by
  have hlast : (upTo (i % 4 + 1)).reverse = i % 4 :: (upTo (i % 4)).reverse := by
    rw [upTo, rangeFrom_concat, List.reverse_concat, Nat.zero_add, upTo]
  have hself : i / 4 * 4 + i % 4 = i := Nat.div_add_mod' i 4
  rw [followQueue, hlast, List.map_cons, hself]
  exact List.find?_cons_of_pos h

theorem followQueue_holds {s : State} {i j : Nat} (h : followQueue s i = some j) : (headPacket (s.queue j)).isSome :=
  List.find?_some (p := fun j => (headPacket (s.queue j)).isSome) h

/-- The head packet of queue i goes, and what follows it in queue i takes its place in time. -/
theorem dropQueue_drops {s : State} {i : Nat} {b : Bool} {seq : Nat} {p : Packet} (hp : headPacket (s.queue i) = some p)
    (hm : b = true → p.descr.seq = seq) : (dropQueue i b seq s).queue i = mapHeadPacket p.follow (dropHead (s.queue i)) := by
  have hmatch : ¬(b = true ∧ p.descr.seq ≠ seq) := fun h => h.2 (hm h.1)
  have hgone : (s.setQueue i (dropHead (s.queue i))).queue i = dropHead (s.queue i) := State.queue_setQueue ..
  simp only [dropQueue, hp, if_neg hmatch]
  generalize s.setQueue i (dropHead (s.queue i)) = u at hgone ⊢
  rw [← hgone]
  cases hq : headPacket (u.queue i) with
  | some x =>
    rw [followQueue_self (by rw [hq]; rfl)]
    exact State.queue_setQueue ..
  | none =>
    rw [mapHeadPacket_none hq]
    split
    · rename_i j hj
      have hji : j ≠ i := fun e => by simpa [e, hq] using followQueue_holds hj
      exact State.queue_setQueue_ne _ hji _
    · split
      · exact endPredecessor_queue ..
      · rfl

theorem dropQueue_stays {s : State} {i : Nat} {b : Bool} {seq : Nat}
    (h : headPacket (s.queue i) = none ∨ b = true ∧ (headPacket (s.queue i)).map (·.descr.seq) ≠ some seq) : dropQueue i b seq s = s := by
  unfold dropQueue
  split
  · rfl
  · rename_i p hp
    rw [hp] at h
    obtain ⟨hb, hs⟩ := h.resolve_left (by simp)
    exact if_pos ⟨hb, fun e => hs (by rw [Option.map_some, e])⟩

/-! ### A flush (R177) -/

theorem noteFlushed_only (q : Nat) (ps : List Packet) (s : State) : OnlyChanges [.stitchers] s (noteFlushed q ps s) :=
  (noteFlushed_keeps (.refl (mask [.stitchers]) s) (.self _) q ps).only

/-- The packets of a queue that a flush discards. -/
def TackQueue.packets (t : TackQueue) : List Packet := t.head.toList ++ t.cells

/-- A flush of queue i up to its effect on open packets. -/
def emptyQueue (i : Nat) (s : State) : State :=
  noteFlushed (i / 16) (s.queue i).packets
    ((if (s.queue i).packets.any Packet.held then endPredecessor (i / 4) s else s).setQueue i
      { s.queue i with head := none, cells := [] })

/-- The flush of queue i at tick now meets what master m has open. -/
def doomOpen (i now m : Nat) (s : State) : State :=
  if s.rd .TACK_PUSH_STAT_OPEN 0 m = 1 ∧ (s.stage m).queue = i then s.setStage m (s.stage m |>.doom now) else s

theorem flushQueue_eq (i : Nat) (s : State) : flushQueue i s = refreshFlushBusy i (each (upTo 3) (doomOpen i s.osc) (emptyQueue i s)) := rfl

theorem emptyQueue_own (i : Nat) (s : State) : (emptyQueue i s).queue i = { s.queue i with head := none, cells := [] } :=
  (queue_of_only (noteFlushed_only _ _ _) (by decide) i).trans (State.queue_setQueue ..)

/-- Emptying a queue leaves what is open alone. -/
theorem emptyQueue_only (i : Nat) (s : State) : OnlyChanges [.cses, .queues, .stitchers] s (emptyQueue i s) :=
  (noteFlushed_keeps (State.setQueue_keeps (.ite (endPredecessor_keeps (.refl (mask [.cses, .queues, .stitchers]) s) (.of_beq (by decide +kernel)) _)
    (.refl _ s)) (.of_beq (by decide +kernel)) ..) (.of_beq (by decide +kernel)) ..).only

theorem stage_of_only {l : List Part} {s t : State} (h : OnlyChanges l s t) (hl : .staging ∉ l) (m : Nat) : t.stage m = s.stage m :=
  congrArg (Store.get _ · m) (h .staging hl)

/-- The first flush that an open packet meets marks it, and a later one leaves the mark. -/
theorem doom_doomed (x : Staging) (t : Nat) : (x.doom t).doomed = true := by
  unfold Staging.doom
  split
  · assumption
  · rfl

section
variable (i now : Nat) (s : State)

theorem doomOpen_rd (m : Nat) (r : Reg) (j x u : Nat) : (doomOpen i now m s).rd r j x u = s.rd r j x u := by
  unfold doomOpen
  split <;> rfl

theorem doomOpen_queue (m k : Nat) : (doomOpen i now m s).queue k = s.queue k := by
  unfold doomOpen
  split <;> rfl

theorem doomOpen_other {m k : Nat} (h : m ≠ k) : (doomOpen i now m s).stage k = s.stage k := by
  unfold doomOpen
  split
  · exact State.stage_setStage_ne _ h _
  · rfl

theorem doomOpen_own {m : Nat} (ho : s.rd .TACK_PUSH_STAT_OPEN 0 m = 1) (hq : (s.stage m).queue = i) :
    ((doomOpen i now m s).stage m).doomed = true := by
  rw [doomOpen, if_pos ⟨ho, hq⟩, State.stage_setStage]
  exact doom_doomed ..

/-- Every open packet of the queue is marked. -/
theorem doomOpen_all {k : Nat} (hk : k < 3) (ho : s.rd .TACK_PUSH_STAT_OPEN 0 k = 1) (hq : (s.stage k).queue = i) :
    ((each (upTo 3) (doomOpen i now) s).stage k).doomed = true := by
  obtain ⟨u, ⟨huo, hus⟩, -, hown⟩ := each_own
    (R := fun a b => b.rd .TACK_PUSH_STAT_OPEN 0 k = a.rd .TACK_PUSH_STAT_OPEN 0 k ∧ b.stage k = a.stage k)
    (fun _ => ⟨rfl, rfl⟩) (fun h k => ⟨k.1.trans h.1, k.2.trans h.2⟩) (fun m hm t => ⟨doomOpen_rd .., doomOpen_other i now t hm⟩)
    (mem_upTo.mpr hk) (upTo_nodup 3) s
  rw [hown]
  exact doomOpen_own i now u (by rw [huo, ho]) (by rw [hus, hq])

end

theorem flushQueue_own (i : Nat) (s : State) : (flushQueue i s).queue i = { s.queue i with head := none, cells := [] } := by
  have hdoom := each_rel (R := fun a b => b.queue i = a.queue i) (fun _ => rfl) (fun h k => k.trans h) (xs := upTo 3)
    (fun m _ t => doomOpen_queue i s.osc t m i) (emptyQueue i s)
  rw [flushQueue_eq, refreshFlushBusy_queue, hdoom, emptyQueue_own]

theorem flushQueue_dooms {i k : Nat} {s : State} (hk : k < 3) (ho : s.rd .TACK_PUSH_STAT_OPEN 0 k = 1) (hq : (s.stage k).queue = i) :
    ((flushQueue i s).stage k).doomed = true := by
  have hreg : (emptyQueue i s).rd .TACK_PUSH_STAT_OPEN 0 k = s.rd .TACK_PUSH_STAT_OPEN 0 k :=
    (emptyQueue_only i s) (.reg .TACK_PUSH_STAT_OPEN) (by decide) 0 k 0
  rw [flushQueue_eq, refreshFlushBusy_stage]
  exact doomOpen_all i s.osc _ hk (hreg.trans ho) (by rw [stage_of_only (emptyQueue_only i s) (by decide), hq])

/-! ### A torn packet (R178) -/

/-- The open packet of master m goes, and the rest of its words will be absorbed. -/
def tearPacket (m : Nat) (s : State) : State :=
  raise .tack 0 1 (refreshFlushBusy (s.stage m).queue (((((s.wr .TACK_PUSH_STAT_OPEN 0 0 m).wr .TACK_PUSH_STAT_TORN 1 0 m).wr
    .TACK_PUSH_STAT_DISCARDING 1 0 m).setStage m {}).inc .TACK_CNT_TORN_COUNT))

theorem tearPacket_marks (m : Nat) (s : State) : (tearPacket m s).rd .TACK_PUSH_STAT_OPEN 0 m = 0 ∧
    (tearPacket m s).rd .TACK_PUSH_STAT_TORN 0 m = 1 ∧ (tearPacket m s).rd .TACK_PUSH_STAT_DISCARDING 0 m = 1 := by
  simp [tearPacket, State.inc, Reg.width, Reg.info]

theorem tearPacket_counts (m : Nat) (s : State) :
    (tearPacket m s).rd .TACK_CNT_TORN_COUNT = satAdd Reg.TACK_CNT_TORN_COUNT.width (s.rd .TACK_CNT_TORN_COUNT) 1 := by
  rw [tearPacket, raise_rd _ (by decide) (by decide), refreshFlushBusy_rd _ (by decide), State.rd_inc_same]
  simp

/-! ### The reset of TACK (R423) -/

/-- The part of the reset that stands in lists, and the end of the sweep. -/
def clearTack (s : State) : State := ({ s with queues := [], staging := [], rings := [] } : State).wr .TACK_STATUS_SWEEP 0

/-- The reset's step for the alternate ring of a channel. -/
def clearAltRing (c : Nat) (s : State) : State := s.setCse c { s.cse c with altRing := {} }

/-- The reset's step for the staging of a master. -/
def clearStaging (m : Nat) (s : State) : State :=
  ((s.wr .TACK_PUSH_STAT_OPEN 0 0 m).wr .TACK_PUSH_STAT_DISCARDING 0 0 m).wr .TACK_PUSH_STAT_WORDS_LEFT 0 0 m

/-- The reset's step for the marks of a queue. -/
def clearLevel (i : Nat) (s : State) : State :=
  (s.wr .TACK_QLEVEL_FLUSH_BUSY 0 0 i).wr .TACK_QLEVEL_BROKEN 0 0 i

theorem tackReset_eq (s : State) :
    tackReset s = each (upTo 192) clearLevel (each (upTo 3) clearStaging (each (upTo 48) clearAltRing (clearTack s))) := rfl

/-- Queues, staging, rings and the mark of a sweep are the same. -/
def SameTack (s t : State) : Prop :=
  t.queues = s.queues ∧ t.staging = s.staging ∧ t.rings = s.rings ∧ t.rd .TACK_STATUS_SWEEP = s.rd .TACK_STATUS_SWEEP

theorem SameTack.refl (s : State) : SameTack s s := ⟨rfl, rfl, rfl, rfl⟩

theorem SameTack.trans {s t u : State} (h : SameTack s t) (k : SameTack t u) : SameTack s u := by
  obtain ⟨hq, hs, hr, hw⟩ := h
  obtain ⟨kq, ks, kr, kw⟩ := k
  exact ⟨kq.trans hq, ks.trans hs, kr.trans hr, kw.trans hw⟩

theorem tackReset_sameTack (s : State) : SameTack (clearTack s) (tackReset s) := by
  have hring := each_rel SameTack.refl SameTack.trans (xs := upTo 48) (f := clearAltRing) (fun _ _ t => SameTack.refl t) (clearTack s)
  have hstage := each_rel SameTack.refl SameTack.trans (xs := upTo 3) (f := clearStaging)
    (fun m _ t => ⟨rfl, rfl, rfl, by simp [clearStaging]⟩) (each (upTo 48) clearAltRing (clearTack s))
  have hlevel := each_rel SameTack.refl SameTack.trans (xs := upTo 192) (f := clearLevel)
    (fun i _ t => ⟨rfl, rfl, rfl, by simp [clearLevel]⟩) (each (upTo 3) clearStaging (each (upTo 48) clearAltRing (clearTack s)))
  exact (hring.trans hstage).trans hlevel

theorem tackReset_closes {k : Nat} (hk : k < 3) (s : State) : (tackReset s).rd .TACK_PUSH_STAT_OPEN 0 k = 0 := by
  have hclosed (t : State) : (each (upTo 3) clearStaging t).rd .TACK_PUSH_STAT_OPEN 0 k = 0 :=
    each_reaches (P := fun t => t.rd .TACK_PUSH_STAT_OPEN 0 k = 0) (f := clearStaging) (fun t => by simp [clearStaging])
      (fun _ _ h => rd_wr_zero (rd_wr_zero (rd_wr_zero h ..) ..) ..) (mem_upTo.mpr hk) t
  rw [tackReset_eq]
  exact (each_rel (R := fun a b => b.rd .TACK_PUSH_STAT_OPEN 0 k = a.rd .TACK_PUSH_STAT_OPEN 0 k) (fun _ => rfl) (fun h k => k.trans h)
    (fun i _ t => by simp [clearLevel]) _).trans (hclosed _)

/-! ### The statement -/

/-- Settles O27: the fetch by what it meets in the link table, the end of a sweep by its pass over the queues, a drop by the first packet that
follows, a flush by its pass over the staging, and the reset by its three passes. -/
theorem tackQueues : Obligations.TackQueues := by
  refine ⟨fun s i bad link p rest hd hh hc hp hl => ⟨_, act_up hd _, ?_⟩, fun s i bad p rest hd hh hc => ⟨_, act_up hd _, ?_⟩,
    fun s hd hw hb => ⟨_, linkSweepDone_next hd hw, sweep_ends s, fun i hi => sweep_mends hi ?_⟩,
    fun s m i b seq p h hf hp hm => ⟨_, (cmd_ok h ..).trans (congrArg _ (on_pos (by simpa using hf) _)), ?_⟩,
    fun s m i b seq h hf hn => ⟨_, (cmd_ok h ..).trans (congrArg _ (on_pos (by simpa using hf) _)), ?_⟩,
    fun s m i h hf => ⟨_, (cmd_ok h ..).trans (congrArg _ (on_pos (by simpa using hf) _)), ?_⟩,
    fun s m hd ho hx ht => ⟨tearPacket m.val s, act_on hd ⟨ho, hx, ht⟩ _, ?_⟩, fun s m h => ⟨_, cmd_ok h .., ?_⟩⟩
  · have hlink : link.val ≠ 2 := hl
    rw [headFetch_takes hh hc hlink, notePoison_queue, noteCorrected_queue, takeHead, State.queue_setQueue, fetched_written hp _ hlink]
    refine ⟨rfl, rfl, fun h1 => notePoison_raised ?_ _⟩
    rw [noteCorrected, if_pos h1]
    exact raise_raw ..
  · rw [show ((2 : Fin 3).val) = 2 from rfl, headFetch_cuts hh hc]
    refine ⟨?_, ?_, ?_, ?_, ?_, raise_raw ..⟩
    · simp [cutQueue, Packet.fetched, Packet.spoiled]
    · simp [cutQueue]
    · simp [cutQueue, State.inc, Reg.width, Reg.info]
    · simp [cutQueue, State.inc, Reg.width, Reg.info]
    · exact notePoison_raised (raise_raw ..) true
  · rw [State.rd_wr_reg _ (by decide)]
    exact hb i hi
  · have hdrop := dropQueue_drops (s := hostWake m.val s) (i := i.val) (by simpa using hp) hm
    simpa using hdrop
  · rw [dropQueue_stays (by simpa using hn), hostWake_queues]
  · rw [flushQueue_own]
    exact ⟨rfl, rfl, fun k hk ho hq => flushQueue_dooms hk (by simpa using ho) (by simpa using hq)⟩
  · obtain ⟨hopen, htorn, hdisc⟩ := tearPacket_marks m.val s
    exact ⟨hopen, htorn, hdisc, raise_raw .., tearPacket_counts m.val s⟩
  · obtain ⟨hq, hs, hr, hw⟩ := tackReset_sameTack (hostWake m.val s)
    exact ⟨hq, hr, hs, hw.trans (State.rd_wr_same ..), fun k hk => tackReset_closes hk _⟩

end Sys2Proof.Machine
end
section
/-! PROOFS. Stream rings: RING_CFG and refills (R179 to R183), and the statement about them. -/

namespace Sys2Proof.Machine

-- One declaration at a time: the memory limit counts the stack of every thread that elaborates one.
set_option Elab.async false

/-! ### A write of RING_CFG (R179, R180) -/

/-- SIZE_LOG and SPLIT of ring c as a write puts them. -/
def storeRingCfg (c z b : Nat) (s : State) : State := (s.wr .TACK_RING_CFG_SIZE_LOG z 0 c).wr .TACK_RING_CFG_SPLIT b 0 c

/-- The fields of the word that RING_ENABLE writes. -/
theorem ringCfg_fields : ∀ (z : Fin 8) (b : Bool), bits (z.val + (if b then 8 else 0) + 16) 2 0 = z.val ∧
    bit (z.val + (if b then 8 else 0) + 16) 3 = (if b then 1 else 0) ∧ bit (z.val + (if b then 8 else 0) + 16) 4 = 1 := by decide

section
variable {s : State} {m c v : Nat}

/-- Ring c with the fields now stored overlaps a ring that is enabled. -/
def overlapsEnabled (s : State) (c : Nat) : Bool :=
  (upTo 48).any (fun d => d != c && s.rd .TACK_RING_CFG_EN 0 d == 1 && ringsOverlap s c d)

/-- Ring c with the fields now stored does not lie in benches 2 to 15. -/
abbrev OutsideBenches (s : State) (c : Nat) : Prop := ringOffset s c < 0x80000 ∨ benchSize < ringOffset s c + ringSize s c

/-- The answer to a write with EN = 1, its other fields stored. -/
def enableRing (m c : Nat) (s : State) : State :=
  if overlapsEnabled s c then actionErr .tack 0 errRingOverlap m s
  else if OutsideBenches s c then actionErr .tack 0 errRegionDenied m s
  else emptyRing c (s.wr .TACK_RING_CFG_EN 1 0 c)

theorem writeRingCfg_enable (he : s.rd .TACK_RING_CFG_EN 0 c = 0) (hv : bit v 4 = 1) :
    writeRingCfg m c v s = enableRing m c (storeRingCfg c (bits v 2 0) (bit v 3) s) := by
  rw [writeRingCfg, if_neg (by simp [he]), if_neg (by simp [hv])]
  rfl

theorem writeRingCfg_disables (he : s.rd .TACK_RING_CFG_EN 0 c = 1) (hv : bit v 4 = 0) :
    writeRingCfg m c v s = emptyRing c (s.wr .TACK_RING_CFG_EN 0 0 c) := by rw [writeRingCfg, if_pos he, if_pos hv]

theorem overlapsEnabled_true {d : Nat} (hd : d < 48) (hne : d ≠ c) (he : s.rd .TACK_RING_CFG_EN 0 d = 1) (ho : ringsOverlap s c d = true) :
    overlapsEnabled s c = true := List.any_eq_true.mpr ⟨d, mem_upTo.mpr hd, by simp [hne, he, ho]⟩

theorem overlapsEnabled_false (h : ∀ d, d < 48 → d ≠ c → s.rd .TACK_RING_CFG_EN 0 d = 1 → ringsOverlap s c d = false) :
    overlapsEnabled s c = false := by
  refine List.any_eq_false.mpr fun d hd hall => ?_
  simp only [Bool.and_eq_true, bne_iff_ne, beq_iff_eq] at hall
  obtain ⟨⟨hne, he⟩, ho⟩ := hall
  rw [h d (mem_upTo.mp hd) hne he] at ho
  cases ho

end

/-- An emptied ring holds nothing for either branch, and no field changes. -/
theorem emptyRing_empty (c : Nat) (s : State) :
    (emptyRing c s).ring c = ({} : Ring) ∧ ((emptyRing c s).cse c).altRing = ({} : Ring) :=
  ⟨State.ring_setRing s c {}, congrArg Cse.altRing (State.cse_setCse (s.setRing c {}) c _)⟩

@[simp] theorem emptyRing_rd (c : Nat) (s : State) (r : Reg) (i x u : Nat) : (emptyRing c s).rd r i x u = s.rd r i x u := rfl

/-! ### Where a ring lies depends on SIZE_LOG and BASE alone -/

section
variable (s : State) (m c z b d : Nat)

theorem ringSize_store : ringSize (storeRingCfg c z b (hostWake m s)) d = ringSize (s.wr .TACK_RING_CFG_SIZE_LOG z 0 c) d := by
  simp [ringSize, storeRingCfg, State.rd_wr]

theorem ringOffset_store : ringOffset (storeRingCfg c z b (hostWake m s)) d = ringOffset (s.wr .TACK_RING_CFG_SIZE_LOG z 0 c) d := by
  rw [ringOffset, ringSize_store, ringOffset]
  simp [storeRingCfg]

theorem ringsOverlap_store (e : Nat) :
    ringsOverlap (storeRingCfg c z b (hostWake m s)) d e = ringsOverlap (s.wr .TACK_RING_CFG_SIZE_LOG z 0 c) d e := by
  simp only [ringsOverlap, ringOffset_store, ringSize_store]

end

theorem storeRingCfg_errors (c z b k : Nat) (s : State) : ∀ r, .reg r ∈ errors → ∀ i x u,
    (storeRingCfg c z b (hostWake k s)).rd r i x u = s.rd r i x u :=
  errors_wr (errors_wr (hostWake_errors k) (by decide) _ _ _ _) (by decide) _ _ _ _

section
variable {s : State} {m : Master} {c : Chan} {z : Fin 8} {b : Bool}

/-- Ring c with the fields of RING_ENABLE, before EN is looked at. -/
def ringAsked (m : Master) (c : Chan) (z : Fin 8) (b : Bool) (s : State) : State :=
  storeRingCfg c.val z.val (if b then 1 else 0) (hostWake m.val s)

theorem ringEnable_next (h : MayWrite s .tack 0 m) (he : s.rd .TACK_RING_CFG_EN 0 c.val = 0) :
    exec (.ringEnable m c z b) s = .next (enableRing m.val c.val (ringAsked m c z b s)) := by
  obtain ⟨hz, hb, hen⟩ := ringCfg_fields z b
  have hwrite := writeRingCfg_enable (s := hostWake m.val s) (m := m.val) (c := c.val) (by simpa using he) hen
  rw [hz, hb] at hwrite
  exact (cmd_ok h ..).trans (congrArg _ hwrite)

/-- A refused write leaves EN as it was and records its error. -/
theorem ringAsked_refused (he : s.rd .TACK_RING_CFG_EN 0 c.val = 0) {code : Nat} (hc : code < 256) :
    (actionErr .tack 0 code m.val (ringAsked m c z b s)).rd .TACK_RING_CFG_EN 0 c.val = 0 ∧
      Recorded s (actionErr .tack 0 code m.val (ringAsked m c z b s)) .tack 0 code m.val :=
  ⟨by simpa [actionErr, ringAsked, storeRingCfg] using he, recorded_recordErr (storeRingCfg_errors c.val z.val _ m.val s) hc m.isLt ..⟩

theorem ringAsked_fields : (ringAsked m c z b s).rd .TACK_RING_CFG_SIZE_LOG 0 c.val = z.val ∧
    (ringAsked m c z b s).rd .TACK_RING_CFG_SPLIT 0 c.val = (if b then 1 else 0) := by
  refine ⟨?_, ?_⟩
  · simp [ringAsked, storeRingCfg, Nat.mod_eq_of_lt, Reg.width, Reg.info]
  · cases b <;> simp [ringAsked, storeRingCfg, Reg.width, Reg.info]

theorem ringAsked_enabled (d : Nat) : (ringAsked m c z b s).rd .TACK_RING_CFG_EN 0 d = s.rd .TACK_RING_CFG_EN 0 d := by
  simp [ringAsked, storeRingCfg]

theorem ringAsked_apart (h : ∀ d : Nat, d < 48 → d ≠ c.val → s.rd .TACK_RING_CFG_EN 0 d = 1 →
    ringsOverlap (s.wr .TACK_RING_CFG_SIZE_LOG z.val 0 c.val) c.val d = false) : overlapsEnabled (ringAsked m c z b s) c.val = false :=
  overlapsEnabled_false fun d hd hne he => by
    rw [ringAsked, ringsOverlap_store]
    exact h d hd hne (by rwa [ringAsked_enabled] at he)

theorem ringAsked_outside :
    OutsideBenches (ringAsked m c z b s) c.val ↔ OutsideBenches (s.wr .TACK_RING_CFG_SIZE_LOG z.val 0 c.val) c.val := by
  rw [OutsideBenches, OutsideBenches, ringAsked, ringOffset_store, ringSize_store]

end

/-! ### The parts of a ring -/

theorem parts_setParts (r : Ring) (p : Nat) (cur nxt mark : RingPart) : (r.setParts p cur nxt mark).parts p = (cur, nxt, mark) := by
  unfold Ring.setParts Ring.parts
  split <;> rfl

/-- The mover's advance changes the place of the next write in each part, and nothing else of the body that plays. -/
theorem parts_advance (r : Ring) (p wp : Nat) : ((r.advance p wp).parts p).1 = { (r.parts p).1 with wp := wp } := by
  unfold Ring.advance Ring.parts
  split <;> rfl

/-! ### A refill of the body that plays (R181, R183) -/

/-- Partition p of channel c holds a circular body that plays and is not resident, and no next body, in a ring whose streamer may write
it. -/
structure Refillable (s : State) (c p : Nat) (pl : Player) (cur mark : RingPart) : Prop where
  parts : (s.ring c).parts p = (cur, {}, mark)
  unmuted : pl.muted = false
  holds : 0 < cur.len
  circular : cur.circular = true
  passes : resident cur (partSize s c p) = false
  room : 0 < partSize s c p
  allowed : ∀ b : Nat, b < partSize s c p →
    byteAllowed s (20 + quadOf c) .write (partBase s c p + b) = true ∧ s.benchOff (partBase s c p + b) = false

section
variable {s : State} {c p n : Nat} {pl : Player} {cur mark : RingPart}

theorem Refillable.count (h : Refillable s c p pl cur mark) (n : Nat) : refillCount cur (partSize s c p) n = n := by
  simp [refillCount, Nat.ne_of_gt h.holds, h.circular, h.passes]

/-- The plan counts all n bytes to the body that plays. -/
theorem Refillable.plan_wrote (h : Refillable s c p pl cur mark) (hn : 0 < n) :
    ((planRefill s c p n pl).ring.parts p).1.wr = cur.wr + n ∧ ((planRefill s c p n pl).ring.parts p).1.body = cur.body := by
  have hskip : skipMuted s c p pl cur = cur := if_pos (.inl h.unmuted)
  have hnext : fillsNext cur {} (partSize s c p) n = false := rfl
  simp only [planRefill, h.parts, hskip, hnext, if_neg (Nat.ne_of_gt h.room), h.count, if_neg (Nat.ne_of_gt hn), Bool.false_eq_true,
    if_false, parts_advance, parts_setParts]
  exact ⟨rfl, rfl⟩

/-- Each byte of the plan goes to the partition. -/
theorem Refillable.plan_moves (h : Refillable s c p pl cur mark) {v : Nat × Nat} (hv : v ∈ (planRefill s c p n pl).moves) :
    ∃ b < partSize s c p, v.2 = partBase s c p + b := by
  simp only [planRefill, h.parts] at hv
  obtain ⟨i, -, rfl⟩ := List.mem_map.mp hv
  exact ⟨_, Nat.mod_lt _ h.room, rfl⟩

/-- No byte of the plan is denied. -/
theorem Refillable.moves_allowed (h : Refillable s c p pl cur mark) : (planRefill s c p n pl).moves.find?
    (fun v => !byteAllowed s (20 + quadOf c) .write v.2 || s.benchOff v.2) = none := by
  refine List.find?_eq_none.mpr fun v hv => ?_
  obtain ⟨b, hb, hvb⟩ := h.plan_moves hv
  obtain ⟨hallow, hon⟩ := h.allowed b hb
  simp [hvb, hallow, hon]

end

/-- A refill of which no byte is denied leaves the ring as planned. -/
theorem refill_ring {s : State} {c p n : Nat} {pl : Player} (h : (planRefill s c p n pl).moves.find?
    (fun v => !byteAllowed s (20 + quadOf c) .write v.2 || s.benchOff v.2) = none) :
    (refill c p n pl s).ring c = (planRefill s c p n pl).ring := by
  simp only [refill, h]
  split
  · exact (congrArg (Store.get _ · c) (raiseFor_rings ..)).trans (State.ring_setRing ..)
  · exact State.ring_setRing ..

theorem Refillable.refill {s : State} {c p n : Nat} {pl : Player} {cur mark : RingPart} (h : Refillable s c p pl cur mark) (hn : 0 < n) :
    (((refill c p n pl s).ring c).parts p).1.wr = cur.wr + n ∧ (((refill c p n pl s).ring c).parts p).1.body = cur.body := by
  rw [refill_ring h.moves_allowed]
  exact h.plan_wrote hn

theorem refill_cse (c p n : Nat) (pl : Player) (s : State) (d : Nat) : (refill c p n pl s).cse d = s.cse d :=
  congrArg (Store.get _ · d) ((refill_keeps (Keeps.refl _ s) (Within.self _) c p n pl).same .cses (Eq.refl _))

/-! ### A refill for either branch -/

theorem takeAlternate_none {c : Nat} {s : State} (h : (s.cse c).altPend = none) : takeAlternate c s = s := by simp [takeAlternate, h]

section
variable {s : State} {c p n : Nat}

/-- With no play to come and no next body, there is nothing to aim at. -/
theorem aimFetch_none (h : firstPlay s c p (inOrder s c) = none) :
    aimFetch c p s = s.setRing c ((s.ring c).setParts p ((s.ring c).parts p).1 {} ((s.ring c).parts p).2.2) := by simp [aimFetch, h]

theorem aimFetch_cse : (aimFetch c p s).cse c = s.cse c := by
  unfold aimFetch
  dsimp only
  split <;> rfl

theorem setCse_ring (t : State) (e : Cse) (d : Nat) : (t.setCse c e).ring d = t.ring d := rfl

theorem refillMain_altPend : ((refillMain c p n s).cse c).altPend = (s.cse c).altPend := by
  unfold refillMain
  dsimp only
  rw [State.cse_setCse, refill_cse, aimFetch_cse]

theorem refillMain_ring : (refillMain c p n s).ring c = (refill c p n ((s.cse c).src.player p) (aimFetch c p s)).ring c := setCse_ring ..

theorem refillAlt_cse : (refillAlt c p n s).cse c = { s.cse c with
    altRing := (refill c p n (((s.cse c).alt.getD {}).player p) (s.setRing c (s.cse c).altRing)).ring c } := by
  have hset (t : State) (x : Ring) (e : Cse) : ((t.setCse c e).setRing c x).cse c = e := State.cse_setCse ..
  rw [refillAlt, hset, refill_cse]
  rfl

end

theorem ringRefill_next {s : State} (hd : s.dev = .up) (hs : served s = true) (c : Chan) (p : Fin 2) (alt : Bool) (n : BitVec 16) :
    exec (.ringRefill c p alt n) s =
      .next (takeAlternate c.val (if alt then refillAlt c.val p.val n.toNat s else refillMain c.val p.val n.toNat s)) := act_on hd hs _

/-! ### The statement -/

/-- Settles O28: a write of RING_CFG by where the fields that it stores put the ring, a refill by its plan, of which no byte is denied. -/
theorem streamRings : Obligations.StreamRings := by
  refine ⟨fun s m c z b h he ho h1 h2 => ⟨_, ringEnable_next h he, ?_⟩, fun s m c z b h he ho hout => ⟨_, ringEnable_next h he, ?_⟩,
    fun s m c d z b h he hne hd ho => ⟨_, ringEnable_next h he, ?_⟩, fun s m c h he => ⟨_, cmd_ok h .., ?_⟩,
    fun s c p n cur mark hd hs hp hf hm hparts hlen hcirc hres hsize hall hn => ⟨_, ringRefill_next hd hs .., ?_⟩,
    fun s c p n cur mark hd hs hp hm hparts hlen hcirc hres hsize hall hn => ⟨_, ringRefill_next hd hs .., ?_⟩⟩
  · rw [enableRing, if_neg (ne_true_of_eq_false (ringAsked_apart ho)),
      if_neg (fun hout => not_or.mpr ⟨Nat.not_lt.mpr h1, Nat.not_lt.mpr h2⟩ (ringAsked_outside.mp hout))]
    obtain ⟨hz, hb⟩ := ringAsked_fields (s := s) (m := m) (c := c) (z := z) (b := b)
    refine ⟨by simp [Reg.width, Reg.info], by simpa using hz, by simpa using hb, emptyRing_empty ..⟩
  · rw [enableRing, if_neg (ne_true_of_eq_false (ringAsked_apart ho)), if_pos (ringAsked_outside.mpr hout)]
    exact ringAsked_refused he (by decide)
  · have hoverlap : overlapsEnabled (ringAsked m c z b s) c.val = true :=
      overlapsEnabled_true d.isLt (fun e => hne (Fin.ext e)) (by rwa [ringAsked_enabled]) (by rwa [ringAsked, ringsOverlap_store])
    rw [enableRing, if_pos hoverlap]
    exact ringAsked_refused he (by decide)
  · rw [writeRingCfg_disables (by simpa using he) (by decide)]
    exact ⟨by simp, emptyRing_empty ..⟩
  · have hfill : Refillable (aimFetch c.val p.val s) c.val p.val ((s.cse c.val).src.player p.val) cur mark := by
      rw [aimFetch_none hf]
      exact ⟨by rw [State.ring_setRing, hparts, parts_setParts], hm, hlen, hcirc, hres, hsize, hall⟩
    rw [if_neg Bool.false_ne_true, takeAlternate_none (refillMain_altPend.trans hp), refillMain_ring]
    exact hfill.refill hn
  · have hfill : Refillable (s.setRing c.val (s.cse c.val).altRing) c.val p.val (((s.cse c.val).alt.getD {}).player p.val) cur mark :=
      ⟨by rw [State.ring_setRing, hparts], hm, hlen, hcirc, hres, hsize, hall⟩
    rw [if_pos rfl, takeAlternate_none (by rw [refillAlt_cse]; exact hp), refillAlt_cse]
    exact hfill.refill hn

end Sys2Proof.Machine
end
section
/-! PROOFS. A write that waits for Quarry and stores outside its own bytes (R25, R316), and the statement about where commands store. -/

namespace Sys2Proof.Machine

-- One declaration at a time: the memory limit counts the stack of every thread that elaborates one.
set_option Elab.async false

/-- A write of two bytes that begins in the last byte of the bit-set image of the benches (R316) and ends behind it. -/
def strayWrite : BusWait := { master := 0, addr := 0x113FFFFF, len := 2, data := some [1, 1], at_ := 0 }

/-- A device as after reset, but running and in a refresh, behind which the write waits. -/
def strayState : State := { State.reset with dev := .up, qry := { refreshing := true, waiting := [strayWrite] } }

/-- The same device when the refresh has ended. -/
def strayFreed : State := { strayState with qry := { waiting := [strayWrite] } }

theorem refreshEnd_stray : exec .refreshEnd strayState = .next (releaseWaiting strayFreed) := act_on rfl rfl _

/-- Each byte alone would reach the bench behind the image, or the address past it: neither is the address that the first one names. -/
theorem strayWrite_own : ¬waitStores strayWrite 0x113FFFFF := by
  rintro ⟨bs, hbs, d, hd, hb⟩
  cases hbs
  have h : ∀ k : Fin 2, 0x113FFFFF ≠ storedAt (strayWrite.addr + k.val) := by decide
  exact h ⟨d, hd⟩ hb

/-- The write as a whole lies in no image of the benches, so it is stored at the addresses that it names. -/
theorem strayWrite_stores : Store.get 0 (releaseWaiting strayFreed).mem 0x113FFFFF = 1 := by decide +kernel

/-- Refutes O7, at the end of a refresh: a write that waits for Quarry and reaches past the end of the bit-set image of the benches (R316)
is stored at the addresses that it names, while the statement gives it the bytes that an access of each byte alone would reach. No check
of R23 admits such a write, since the address past the image is unmapped (R26), so no run from reset has one waiting; but the statement
is about every state, and puts no condition on what waits in it. -/
theorem not_storesToMemory : ¬Obligations.StoresToMemory := by
  rintro ⟨-, -, -, -, -, -, -, hends, -⟩
  have hkept := hends strayState _ (.inr (.inl refreshEnd_stray)) 0x113FFFFF (by simp [strayState, State.reset])
    (by simpa [strayState] using strayWrite_own)
  rw [strayWrite_stores] at hkept
  exact absurd hkept (by decide)

end Sys2Proof.Machine
end

section
/-! PROOFS. Stages, sensing and protection of an output channel (R199 to R204), and the statement about them. -/

namespace Sys2Proof.Machine

-- One declaration at a time: the memory limit counts the stack of every thread that elaborates one.
set_option Elab.async false

@[simp] theorem inc_out (s : State) (r : Reg) (i x u c : Nat) : (s.inc r i x u).out c = s.out c := rfl

/-- A counter leaves every other field alone. -/
@[simp] theorem State.rd_inc_reg {r r' : Reg} (h : r ≠ r') (s : State) (i x u i' x' u' : Nat) :
    (s.inc r i x u).rd r' i' x' u' = s.rd r' i' x' u' := State.rd_wr_reg _ h ..

/-! ### Stages (R199, R200) -/

/-- The active stage marked failed. -/
def markFailed (c : Nat) (s : State) : State :=
  if s.rd .OUT_STATUS_STAGE c = 0 then s.wr .OUT_STAGE_STAT_A_FAILED 1 c else s.wr .OUT_STAGE_STAT_B_FAILED 1 c

/-- With a healthy standby a failed stage asks for the switchover. -/
theorem stageFails_switches {s : State} {c : Nat} (h : standbyHealthy s c = true) (cause : Nat) :
    stageFails c cause s = (markFailed c s).setOut c { (markFailed c s).out c with switchReq := some cause } := if_pos h

/-- With none the pin goes to high impedance. -/
theorem stageFails_loses {s : State} {c : Nat} (h : standbyHealthy s c = false) (cause : Nat) :
    stageFails c cause s = disturb c (raise .out c 4 ((markFailed c s).wr .OUT_STATUS_HIGHZ 1 c)) := if_neg (by simp [h])

/-- The health of the active stage is read from fields of the page alone. -/
theorem activeHealthy_congr {s t : State} {c : Nat} (hs : t.rd .OUT_STATUS_STAGE c = s.rd .OUT_STATUS_STAGE c)
    (ha : t.rd .OUT_STAGE_STAT_A_FAILED c = s.rd .OUT_STAGE_STAT_A_FAILED c)
    (hb : t.rd .OUT_STAGE_STAT_B_FAILED c = s.rd .OUT_STAGE_STAT_B_FAILED c) : activeHealthy t c = activeHealthy s c := by
  rw [activeHealthy, activeHealthy, hs, ha, hb]

theorem activeHealthy_markFailed (c : Nat) (s : State) : activeHealthy (markFailed c s) c = false := by
  by_cases h : s.rd .OUT_STATUS_STAGE c = 0
  · simp [activeHealthy, markFailed, h, Reg.width, Reg.info]
  · simp [activeHealthy, markFailed, h, Reg.width, Reg.info]

/-- A failed stage is marked; with a healthy standby the switchover is asked for, with none the channel is lost. -/
theorem stageFails_fails (c cause : Nat) (s : State) : activeHealthy (stageFails c cause s) c = false ∧
    (standbyHealthy s c = true → ((stageFails c cause s).out c).switchReq = some cause) ∧
    (standbyHealthy s c = false → (stageFails c cause s).rd .OUT_STATUS_HIGHZ c = 1 ∧ Raised (stageFails c cause s) .out c 4) := by
  cases h : standbyHealthy s c with
  | true =>
    rw [stageFails_switches h]
    exact ⟨(activeHealthy_congr rfl rfl rfl).trans (activeHealthy_markFailed c s), fun _ => by rw [State.out_setOut],
      fun hn => absurd hn (by decide)⟩
  | false =>
    rw [stageFails_loses h]
    refine ⟨(activeHealthy_congr ?_ ?_ ?_).trans (activeHealthy_markFailed c s), fun hp => absurd hp (by decide), fun _ => ⟨?_, ?_⟩⟩
    · simp
    · simp
    · simp
    · simp [Reg.width, Reg.info]
    · simp [Raised]

/-- A request of the host is granted with a healthy standby, as part of one asked for already, and refused without. -/
theorem hostSwitch_answers (c : Nat) (s : State) :
    (standbyHealthy s c = true → ((hostSwitch c s).out c).switchReq = some ((s.out c).switchReq.getD 3)) ∧
    (standbyHealthy s c = false → (hostSwitch c s).rd .OUT_STAGE_STAT_REQ_REFUSED c = 1 ∧
      ((hostSwitch c s).out c).switchReq = (s.out c).switchReq) := by
  refine ⟨fun h => ?_, fun h => ?_⟩
  · rw [hostSwitch, if_pos h, State.out_setOut]
  · rw [hostSwitch, if_neg (by simp [h])]
    exact ⟨State.rd_wr_same .., rfl⟩

theorem standbyHealthy_hostWake (m c : Nat) (s : State) : standbyHealthy (hostWake m s) c = standbyHealthy s c := by
  simp [standbyHealthy]

/-- The switchover changes the stage, stores its cause, counts and raises its event. -/
theorem switchover_switches {s : State} {c k : Nat} (h : (s.out c).switchReq = some k) (hk : k < 4) :
    (switchover c s).rd .OUT_STATUS_STAGE c = 1 - s.rd .OUT_STATUS_STAGE c ∧
      (switchover c s).rd .OUT_STAGE_STAT_LAST_CAUSE c = k ∧ ((switchover c s).out c).switchReq = none ∧
      Raised (switchover c s) .out c 3 ∧ (switchover c s).rd .OUT_STAGE_STAT_SWITCH_CNT c =
        satAdd Reg.OUT_STAGE_STAT_SWITCH_CNT.width (s.rd .OUT_STAGE_STAT_SWITCH_CNT c) 1 := by
  have hstage : (1 - s.rd .OUT_STATUS_STAGE c) % 2 ^ Reg.OUT_STATUS_STAGE.width = 1 - s.rd .OUT_STATUS_STAGE c :=
    Nat.mod_eq_of_lt (by simp [Reg.width, Reg.info])
  have hcause : k % 2 ^ Reg.OUT_STAGE_STAT_LAST_CAUSE.width = k := Nat.mod_eq_of_lt hk
  unfold switchover
  rw [h]
  refine ⟨?_, ?_, ?_, raise_raw .., ?_⟩
  · simp [hstage]
  · simp [hcause]
  · simp
  · simp [State.rd_inc_same]

/-! ### Sensing (R201) -/

/-- A remote-sense fault raises its event and, where AUTO_LOCAL asks, goes to local sensing, in a running quad at the next edge. -/
theorem senseFault_reports (c : Nat) (s : State) : Raised (senseFault c s) .out c 6 ∧
    (s.rd .OUT_STAGECTL_AUTO_LOCAL c = 1 → quadRuns s c = false → (senseFault c s).rd .OUT_STATUS_SENSE_LOCAL c = 1) ∧
    (s.rd .OUT_STAGECTL_AUTO_LOCAL c = 1 → quadRuns s c = true → ((senseFault c s).out c).localReq = true) ∧
    (s.rd .OUT_STAGECTL_AUTO_LOCAL c = 0 →
      (senseFault c s).rd .OUT_STATUS_SENSE_LOCAL c = s.rd .OUT_STATUS_SENSE_LOCAL c) := by
  have hraised : Raised (senseFault c s) .out c 6 := by
    unfold senseFault
    dsimp only
    split
    · exact raise_raw ..
    · split <;> simp [Raised]
  refine ⟨hraised, fun ha hq => ?_, fun ha hq => ?_, fun ha => ?_⟩
  · simp [senseFault, ha, hq, Reg.width, Reg.info]
  · simp [senseFault, ha, hq]
  · simp [senseFault, ha]

/-! ### Foldback and its end (R202 to R204) -/

/-- The end of a foldback is asked for, or held while it is one of heat. -/
theorem requestFoldEnd_asks {s : State} {c : Nat} (h : s.rd .OUT_STATUS_FOLDBACK c = 1) :
    ((s.out c).foldTemp = false → ((requestFoldEnd c s).out c).foldEnd = true) ∧
      ((s.out c).foldTemp = true → ((requestFoldEnd c s).out c).clearHeld = true) :=
  ⟨fun ht => by simp [requestFoldEnd, h, ht], fun ht => by simp [requestFoldEnd, h, ht]⟩

/-! ### Commands -/

section
variable {s : State} {c : Chan}

/-- The limit is entered; its time starts but after a break of less than 100 µs. -/
theorem currentLimitEnter_enters (hd : s.dev = .up) (hz : s.rd .OUT_STATUS_HIGHZ c.val = 0) (hl : s.rd .OUT_STATUS_IN_LIMIT c.val = 0)
    (hf : s.rd .OUT_STATUS_FOLDBACK c.val = 0) :
    ∃ t, exec (.currentLimitEnter c) s = .next t ∧ t.rd .OUT_STATUS_IN_LIMIT c.val = 1 ∧ (t.out c.val).limitFrom =
      (if (s.out c.val).limitOut.all (fun x => decide (x + 40000 ≤ s.osc)) = true then s.osc else (s.out c.val).limitFrom) := by
  refine ⟨_, act_on hd ⟨hz, hl, hf⟩ _, State.rd_wr_same .., ?_⟩
  rw [wr_out, State.out_setOut]
  cases (s.out c.val).limitOut <;> rfl

theorem currentLimitExit_leaves (hd : s.dev = .up) (hl : s.rd .OUT_STATUS_IN_LIMIT c.val = 1) :
    ∃ t, exec (.currentLimitExit c) s = .next t ∧ t.rd .OUT_STATUS_IN_LIMIT c.val = 0 ∧ (t.out c.val).limitOut = some s.osc := by
  refine ⟨_, act_on hd hl _, State.rd_wr_same .., ?_⟩
  rw [wr_out, State.out_setOut]

theorem foldback_folds (hd : s.dev = .up) (hl : s.rd .OUT_STATUS_IN_LIMIT c.val = 1) (hf : s.rd .OUT_STATUS_FOLDBACK c.val = 0)
    (ht : (s.out c.val).limitFrom + 1520000 ≤ s.osc) :
    ∃ t, exec (.foldback c) s = .next t ∧ t.rd .OUT_STATUS_FOLDBACK c.val = 1 ∧ (t.out c.val).foldFrom = s.osc ∧
      Raised t .out c.val 2 ∧
      t.rd .OUT_SC_CNT_SHORTS c.val = satAdd Reg.OUT_SC_CNT_SHORTS.width (s.rd .OUT_SC_CNT_SHORTS c.val) 1 := by
  refine ⟨_, act_on hd ⟨hl, hf, ht⟩ _, ?_, ?_, raise_raw .., ?_⟩
  · simp [Reg.width, Reg.info]
  · simp
  · simp [State.rd_inc_same]

theorem foldbackEnd_ends (hd : s.dev = .up) (he : (s.out c.val).foldEnd = true) :
    ∃ t, exec (.foldbackEnd c) s = .next t ∧ t.rd .OUT_STATUS_FOLDBACK c.val = 0 ∧ (t.out c.val).foldEnd = false ∧
      (t.out c.val).limitFrom = s.osc := by
  refine ⟨_, act_on hd he _, State.rd_wr_same .., ?_⟩
  rw [wr_out, State.out_setOut]
  exact ⟨rfl, rfl⟩

theorem overtemp_folds (hd : s.dev = .up) (hz : s.rd .OUT_STATUS_HIGHZ c.val = 0) (ho : s.rd .OUT_STATUS_OVERTEMP c.val = 0) :
    ∃ t, exec (.overtemp c) s = .next t ∧ t.rd .OUT_STATUS_OVERTEMP c.val = 1 ∧ t.rd .OUT_STATUS_FOLDBACK c.val = 1 ∧
      Raised t .out c.val 9 ∧ (t.out c.val).foldTemp = true ∧
      t.rd .OUT_SC_CNT_OVERTEMPS c.val = satAdd Reg.OUT_SC_CNT_OVERTEMPS.width (s.rd .OUT_SC_CNT_OVERTEMPS c.val) 1 := by
  refine ⟨_, act_on hd ⟨hz, ho⟩ _, ?_, ?_, raise_raw .., ?_, ?_⟩
  · simp [Reg.width, Reg.info]
  · simp [Reg.width, Reg.info]
  · simp
  · simp [State.rd_inc_same]

/-- The clear of an over-temperature lets a held request act. -/
theorem overtempClear_clears (hd : s.dev = .up) (ho : s.rd .OUT_STATUS_OVERTEMP c.val = 1) :
    ∃ t, exec (.overtempClear c) s = .next t ∧ t.rd .OUT_STATUS_OVERTEMP c.val = 0 ∧ (t.out c.val).foldTemp = false ∧
      ((s.out c.val).clearHeld = true → (t.out c.val).foldEnd = true) := by
  refine ⟨_, act_on hd ho _, State.rd_wr_same .., ?_⟩
  rw [wr_out, State.out_setOut]
  exact ⟨rfl, fun hh => by simp [hh]⟩

end

/-- Settles O30: a fault of a stage by its mark and by the standby, foldback by its requests, every other command by the equation of its
effect. -/
theorem stagesAndProtection : Obligations.StagesAndProtection := by
  refine ⟨?tracking, ?biasSwitches, ?biasLoses, ?request, ?switchover, ?sense,
    fun s c => currentLimitEnter_enters, fun s c => currentLimitExit_leaves, fun s c => foldback_folds, ?scClr, ?retry,
    fun s c => foldbackEnd_ends, fun s c => overtemp_folds, fun s c => overtempClear_clears⟩
  case tracking =>
    intro s c hd ha hz hh hl hf hp hs
    exact ⟨_, act_on hd ⟨ha, hz, hh, hl, hf, hp, hs⟩ _, stageFails_fails c.val 1 s⟩
  case biasSwitches =>
    intro s c hd ha hz hh hstandby
    obtain ⟨hmark, hswitch, -⟩ := stageFails_fails c.val 2 s
    exact ⟨_, act_on hd ⟨ha, hz, hh⟩ _, hmark, hswitch hstandby⟩
  case biasLoses =>
    intro s c hd ha hz hh hstandby
    obtain ⟨hmark, -, hlost⟩ := stageFails_fails c.val 2 s
    exact ⟨_, act_on hd ⟨ha, hz, hh⟩ _, hmark, hlost hstandby⟩
  case request =>
    intro s m c h
    have hanswer := hostSwitch_answers c.val (hostWake m.val s)
    rw [standbyHealthy_hostWake, hostWake_out] at hanswer
    exact ⟨_, cmd_ok h .., hanswer⟩
  case switchover => exact fun s c k hd hreq hk _ => ⟨_, act_up hd _, switchover_switches hreq hk⟩
  case sense =>
    intro s c hd hmode hlocal hl
    obtain ⟨hraised, hstopped, hrunning, hkept⟩ := senseFault_reports c.val s
    exact ⟨_, act_on hd ⟨hmode, hlocal, hl⟩ _, hraised, hstopped, hrunning, fun ha => (hkept ha).trans hlocal⟩
  case scClr =>
    intro s m c h hf
    have hasks := requestFoldEnd_asks (s := hostWake m.val s) (c := c.val) (by simpa using hf)
    rw [hostWake_out] at hasks
    exact ⟨_, cmd_ok h .., hasks⟩
  case retry => exact fun s c hd ha ht hf => ⟨_, act_on hd ⟨ha, ht⟩ _, requestFoldEnd_asks hf⟩

end Sys2Proof.Machine
end

section
/-! PROOFS. The steps of a span change (R189, R213, R214, R217), and the statement about them. -/

namespace Sys2Proof.Machine

-- One declaration at a time: the memory limit counts the stack of every thread that elaborates one.
set_option Elab.async false

/-! ### A span that waits (R214) -/

theorem pendingSpan_some {s : State} {c v : Nat} (h : (s.out c).spanPend = some v) (hv : v ≠ spanNow s c) :
    pendingSpan s c = some v := by
  simp [pendingSpan, h, hv]

/-- Its sequence starts at its hold, the pin being at the safe value. -/
theorem nextSpan_out (c v : Nat) (s : State) : (nextSpan c v s).out c = { s.out c with
    spanPhase := .hold, spanTo := v, spanPend := none, safe := s.rd .OUT_NV_SAFE_VAL c, toWake := false,
    dac := voltCode (spanNow s c) (s.rd .OUT_NV_SAFE_VAL c) } := by
  simp [nextSpan, spanNow]

theorem nextSpan_busy (c v : Nat) (s : State) :
    (nextSpan c v s).rd .OUT_STATUS_SPAN_BUSY c = s.rd .OUT_STATUS_SPAN_BUSY c := by
  simp [nextSpan]

/-! ### The way to the wake value (R217) -/

theorem slewWake_rd {r : Reg} (h1 : .EVT_RAW_RAW ≠ r) (h2 : .EVT_PEND_PEND ≠ r) (c : Nat) (s : State) (i x u : Nat) :
    (slewWake c s).rd r i x u = s.rd r i x u := by
  simp [slewWake, h1, h2]

/-- A volt value that is shown clears no event. -/
theorem Raised.showVolt {s : State} {p : Page} {n b : Nat} (h : Raised s p n b) (c v : Nat) : Raised (showVolt c v s) p n b := by
  have hset (o : OutChan) : Raised (s.setOut c o) p n b := (State.setOut_rd ..).trans h
  unfold Machine.showVolt
  dsimp only
  split
  · exact Raised.raise (hset _) ..
  · exact hset _

/-- Nor does the slew to the wake value. -/
theorem Raised.slewWake {s : State} {p : Page} {n b : Nat} (h : Raised s p n b) (c : Nat) : Raised (slewWake c s) p n b :=
  Raised.showVolt ((State.setOut_rd ..).trans h) ..

/-! ### The release (R213, R214) -/

/-- A released channel, before the code that it shows. -/
def released (c : Nat) (s : State) : State :=
  raise .out c 5 ((s.setOut c { s.out c with
    spanPhase := .none, spanPend := none, strobed := none, rejoin := (s.out c).strobed.isNone }).wr .OUT_STATUS_SPAN_BUSY 0 c)

theorem released_out (c : Nat) (s : State) : (released c s).out c = { s.out c with
    spanPhase := .none, spanPend := none, strobed := none, rejoin := (s.out c).strobed.isNone } := by
  simp [released]

theorem released_busy (c : Nat) (s : State) : (released c s).rd .OUT_STATUS_SPAN_BUSY c = 0 := by simp [released]

theorem released_raised (c : Nat) (s : State) : Raised (released c s) .out c 5 := raise_raw ..

section
variable {s : State} {c : Nat}

/-- A disabled channel goes to its wake value. -/
theorem releaseSpan_disabled (hp : pendingSpan s c = none) (he : outEnabled s c = false) :
    releaseSpan c s = slewWake c (released c s) := by
  simp only [releaseSpan, hp, he, if_true]
  rfl

/-- An enabled one in a gang takes the code of a strobe that fell in the sequence (log 137). -/
theorem releaseSpan_strobed (hp : pendingSpan s c = none) (he : outEnabled s c = true) {code : Nat}
    (hs : (s.out c).strobed = some code) (hg : s.rd .OUT_STATUS_GANG_ACTIVE c = 1) :
    releaseSpan c s = (released c s).setOut c { (released c s).out c with dac := code } := by
  simp only [releaseSpan, hp, he, hs, hg, if_true, Bool.true_eq_false, if_false]
  rw [released, hs]

/-- Any other enabled one keeps its code. -/
theorem releaseSpan_keeps_code (hp : pendingSpan s c = none) (he : outEnabled s c = true)
    (hs : (s.out c).strobed = none ∨ s.rd .OUT_STATUS_GANG_ACTIVE c ≠ 1) : releaseSpan c s = released c s := by
  simp only [releaseSpan, hp, he, Bool.true_eq_false, if_false]
  cases hcode : (s.out c).strobed with
  | none => rw [released, hcode]
  | some code =>
    have hg : s.rd .OUT_STATUS_GANG_ACTIVE c ≠ 1 := hs.resolve_left (by simp [hcode])
    simp only [hg, if_false]
    rw [released, hcode]

/-- The code that a released channel shows. -/
def releaseCode (s : State) (c : Nat) : Nat :=
  if outEnabled s c = false then voltCode (spanNow s c) (s.out c).wakeVal
  else if s.rd .OUT_STATUS_GANG_ACTIVE c = 1 then (s.out c).strobed.getD (s.out c).dac else (s.out c).dac

/-- A release with no other span pending. -/
theorem releaseSpan_releases (hp : pendingSpan s c = none) : ((releaseSpan c s).out c).spanPhase = .none ∧
    (releaseSpan c s).rd .OUT_STATUS_SPAN_BUSY c = 0 ∧ Raised (releaseSpan c s) .out c 5 ∧
    ((releaseSpan c s).out c).dac = releaseCode s c := by
  have hbusy := released_busy c s
  have hraised := released_raised c s
  unfold releaseCode
  cases he : outEnabled s c with
  | false =>
    rw [releaseSpan_disabled hp he, slewWake_out, slewWake_rd (by decide) (by decide), released_out]
    exact ⟨rfl, hbusy, Raised.slewWake hraised c, by simp [released, spanNow]⟩
  | true =>
    by_cases hg : s.rd .OUT_STATUS_GANG_ACTIVE c = 1
    · cases hs : (s.out c).strobed with
      | some code =>
        rw [releaseSpan_strobed hp he hs hg, State.out_setOut, released_out]
        exact ⟨rfl, hbusy, hraised, by simp [hg]⟩
      | none =>
        rw [releaseSpan_keeps_code hp he (.inl hs), released_out]
        exact ⟨rfl, hbusy, hraised, by simp⟩
    · rw [releaseSpan_keeps_code hp he (.inr hg), released_out]
      exact ⟨rfl, hbusy, hraised, by simp [hg]⟩

/-- Another span that is pending starts its sequence at once. -/
theorem releaseSpan_pending {v : Nat} (hp : pendingSpan s c = some v) : releaseSpan c s = nextSpan c v s := by
  rw [releaseSpan, hp]

end

/-! ### Settling (R213, R217) -/

/-- A channel on its way to the wake span, with the sequence over. -/
def wakeSettled (c : Nat) (s : State) : State :=
  (s.setOut c { s.out c with spanPhase := .none, toWake := false, spanPend := none }).wr .OUT_STATUS_SPAN_BUSY 0 c

theorem wakeSettled_out (c : Nat) (s : State) :
    (wakeSettled c s).out c = { s.out c with spanPhase := .none, toWake := false, spanPend := none } := by simp [wakeSettled]

section
variable {s : State} {c : Chan}

/-- The end of settling on the way to the wake span: with no other span pending, the slew to the wake value. -/
theorem spanSettleEnd_arrives (hd : s.dev = .up) (hs : (s.out c.val).spanPhase = .settle) (hw : (s.out c.val).toWake = true)
    (hp : pendingSpan s c.val = none) : exec (.spanSettleEnd c) s = .next (slewWake c.val (wakeSettled c.val s)) := by
  refine (act_on hd hs _).trans ?_
  simp only [hw, hp, if_true]
  rfl

/-- With another one pending, its hold. -/
theorem spanSettleEnd_pending (hd : s.dev = .up) (hs : (s.out c.val).spanPhase = .settle) (hw : (s.out c.val).toWake = true) {v : Nat}
    (hp : pendingSpan s c.val = some v) : exec (.spanSettleEnd c) s = .next (nextSpan c.val v s) := by
  refine (act_on hd hs _).trans ?_
  simp only [hw, hp, if_true]

/-- Any other sequence waits for its release. -/
theorem spanSettleEnd_waits (hd : s.dev = .up) (hs : (s.out c.val).spanPhase = .settle) (hw : (s.out c.val).toWake = false) :
    exec (.spanSettleEnd c) s = .next (s.setOut c.val { s.out c.val with spanPhase := .release }) := by
  refine (act_on hd hs _).trans ?_
  simp only [hw, Bool.false_eq_true, if_false]

end

/-- Settles O31: each step by its equation; the release by whether another span is pending, and then by the code that the channel
shows. -/
theorem spanChanges : Obligations.SpanChanges := by
  refine ⟨?slewEnd, ?holdEnd, ?switchDone, ?settled, ?settledWake, ?release, ?releasePending⟩
  case slewEnd =>
    intro s c hd hp
    refine ⟨_, act_on hd hp _, ?_⟩
    rw [showVolt_out, State.out_setOut]
    exact ⟨rfl, rfl⟩
  case holdEnd =>
    intro s c hd hp
    refine ⟨_, act_on hd hp _, ?_⟩
    rw [State.out_setOut]
    exact ⟨rfl, rfl⟩
  case switchDone =>
    intro s c hd hp hto
    have hspan : (s.out c.val).spanTo % 2 ^ Reg.OUT_STATUS_SPAN_NOW.width = (s.out c.val).spanTo := Nat.mod_eq_of_lt hto
    refine ⟨_, act_on hd hp _, ?_⟩
    rw [showVolt_out, wr_out, State.out_setOut, showVolt_rd (by decide) (by decide), spanNow, State.rd_wr_same, hspan]
    exact ⟨rfl, rfl, rfl⟩
  case settled =>
    intro s c hd hp hw
    refine ⟨_, spanSettleEnd_waits hd hp hw, ?_⟩
    rw [State.out_setOut]
  case settledWake =>
    intro s c hd hp hw
    cases hpend : pendingSpan s c.val with
    | none =>
      refine ⟨_, spanSettleEnd_arrives hd hp hw hpend, ?_⟩
      rw [slewWake_out, slewWake_rd (by decide) (by decide), wakeSettled_out]
      exact ⟨rfl, rfl, fun _ => ⟨rfl, State.rd_wr_same .., by simp [wakeSettled, spanNow]⟩, fun v hv => nomatch hv⟩
    | some w =>
      refine ⟨_, spanSettleEnd_pending hd hp hw hpend, ?_⟩
      rw [nextSpan_out]
      exact ⟨rfl, rfl, fun hn => (nomatch hn), fun v hv => ⟨rfl, Option.some.inj hv⟩⟩
  case release => exact fun s c hd hp hq hpend => ⟨_, act_on hd ⟨hp, hq⟩ _, releaseSpan_releases hpend⟩
  case releasePending =>
    intro s c v hd hp hq hpend hv
    refine ⟨_, act_on hd ⟨hp, hq⟩ _, ?_⟩
    rw [releaseSpan_pending (pendingSpan_some hpend hv), nextSpan_out]
    exact ⟨rfl, rfl, rfl, nextSpan_busy .., rfl⟩

end Sys2Proof.Machine
end

section
/-! PROOFS. The records of a device whose store of outputs lists a channel twice (R205, R390), and the statement about power-up. -/

namespace Sys2Proof.Machine

-- One declaration at a time: the memory limit counts the stack of every thread that elaborates one.
set_option Elab.async false

/-- A running device whose store of outputs lists channel 0 twice, first with the default record and then with one that has been
programmed. A read finds the first. -/
def listedTwice : State := { State.reset with dev := .up, outs := [(0, {}), (0, { record := { programs := 1 } })] }

theorem listedTwice_record : (listedTwice.out 0).record = {} := rfl

theorem powerGoodFall_listedTwice : exec .powerGoodFall listedTwice = .next (coldReset listedTwice) := rfl

/-- What a cold reset leaves of the first entry is the default, so the entry goes, and a read finds the second. -/
theorem coldReset_listedTwice : ((coldReset listedTwice).out 0).record = { programs := 1 } := by decide +kernel

/-- Refutes O40, at the fall of PWRGD: a cold reset drops the entries of the store of outputs that have become the default, so where the
store lists a channel twice, the second entry comes forth and the channel has another record than before. No run from reset has such a
store, since every write keeps the keys rising (`Store.wf_set`); but the statement is about every state, and puts no condition on the
form of its stores. -/
theorem not_powerUp : ¬Obligations.PowerUp := by
  rintro ⟨-, -, -, -, -, -, -, -, -, hfall⟩
  obtain ⟨t, ht, -, -, -, -, -, -, -, -, -, -, hrecord⟩ := hfall listedTwice (by decide)
  obtain rfl : coldReset listedTwice = t := Host.Outcome.next.inj (powerGoodFall_listedTwice.symm.trans ht)
  have hkept := hrecord 0 (by decide)
  rw [coldReset_listedTwice, listedTwice_record] at hkept
  exact absurd hkept (by decide)

end Sys2Proof.Machine
end

section
/-! PROOFS. Tiers and their visits (R220 to R227, R230, R235), and the statement about them. -/

namespace Sys2Proof.Machine

-- One declaration at a time: the memory limit counts the stack of every thread that elaborates one.
set_option Elab.async false

/-! ### Tiers under the shared operations -/

@[simp] theorem wr_tier (s : State) (r : Reg) (v i x u t : Nat) : (s.wr r v i x u).tier t = s.tier t := rfl
@[simp] theorem raise_tier (s : State) (p : Page) (n b t : Nat) : (raise p n b s).tier t = s.tier t :=
  congrArg (Store.get _ · t) (raise_tiers ..)
@[simp] theorem hostWake_tier (m t : Nat) (s : State) : (hostWake m s).tier t = s.tier t :=
  congrArg (Store.get _ · t) (hostWake_tiers s m)
@[simp] theorem setTier_clock (s : State) (t q : Nat) (x : TierState) : (s.setTier t x).clock q = s.clock q := rfl

theorem tier_of_only {l : List Part} {s t : State} (h : OnlyChanges l s t) (hl : .tiers ∉ l) (i : Nat) : t.tier i = s.tier i :=
  congrArg (Store.get _ · i) (h .tiers hl)

/-- The numbers of a tier's cores fit their fields of 4 bits. -/
theorem spareStatus_lt {s : State} (hi : Inv s) (t p : Nat) : ownCore s t p < 16 ∧ spareCore s t < 16 ∧ calCore s t < 16 := by
  obtain ⟨-, -, hregs, -, -⟩ := hi
  exact ⟨rd_lt hregs .SPARE_CORE_MAP t 0 p, rd_lt hregs .SPARE_STATUS_SPARE_CORE t 0 0, rd_lt hregs .SPARE_STATUS_CAL_CORE t 0 0⟩

/-! ### Idle tiers and visit requests (R223, R227) -/

/-- The requested visit is noted. -/
def noteVisit (t p : Nat) (s : State) : State := s.setTier t { s.tier t with visitReq := some p }

theorem spareCore_hostWake (m t : Nat) (s : State) : spareCore (hostWake m s) t = spareCore s t := by simp [spareCore]

theorem visitPos_hostWake (m t : Nat) (s : State) : visitPos (hostWake m s) t = visitPos s t := by simp [visitPos]

theorem tierIdle_noteVisit (m t p : Nat) (s : State) : tierIdle (noteVisit t p (hostWake m s)) t = tierIdle s t := by
  simp [noteVisit, tierIdle, spareFree, spareCore, calCore, visitPos]

theorem burnishActs_noteVisit (m t p : Nat) (s : State) : burnishActs (noteVisit t p (hostWake m s)) = burnishActs s := by
  simp [noteVisit, burnishActs]

theorem spareCore_of_idle {s : State} {t : Nat} (h : tierIdle s t = true) : spareCore s t ≠ 15 := by
  simp only [tierIdle, spareFree, Bool.and_eq_true, bne_iff_ne] at h
  obtain ⟨⟨⟨⟨hspare, -⟩, -⟩, -⟩, -⟩ := h
  exact hspare

/-- A visit that starts shows its position. -/
theorem startVisit_visits {p : Nat} (hp : p < 16) (t : Nat) (s : State) : visitPos (startVisit t p s) t = p ∧
    (startVisit t p s).rd .BURNISH_STATUS_ROTATING 0 0 t = 1 := by
  refine ⟨?_, State.rd_wr_same ..⟩
  have hpos : p % 2 ^ Reg.SPARE_STATUS_VISIT_POS.width = p := Nat.mod_eq_of_lt hp
  simp [visitPos, startVisit, hpos]

theorem takeVisitReq_starts {s : State} {t p : Nat} (hr : (s.tier t).visitReq = some p) (hi : tierIdle s t = true)
    (ha : burnishActs s = true) : takeVisitReq t s = startVisit t p (s.setTier t { s.tier t with visitReq := none }) := by
  simp [takeVisitReq, hr, hi, ha]

theorem takeVisitReq_waits {s : State} {t : Nat} (h : tierIdle s t = false ∨ burnishActs s = false) : takeVisitReq t s = s := by
  unfold takeVisitReq
  split
  · rw [if_neg (by simpa [← Bool.not_eq_true, imp_iff_not_or] using h)]
  · rfl

/-- A request with a core in SPARE is noted, and taken if it can be. -/
theorem visitRequest_notes {s : State} {t p : Nat} (hs : spareCore s t ≠ 15) (hp : p < 12) (m : Nat) :
    visitRequest m t p s = takeVisitReq t (noteVisit t p s) := by
  rw [visitRequest, if_neg hs, if_neg (by omega)]
  rfl

/-- The next position is one of the tier. -/
theorem nextVisit_lt {s : State} {t p : Nat} (h : nextVisit s t = some p) : p < 12 := by
  have hmem := List.mem_of_find?_eq_some h
  obtain ⟨i, -, rfl⟩ := List.mem_map.mp hmem
  exact Nat.mod_lt _ (by decide)

/-- What the tier's page records where a request of the host finds no core in SPARE (R235). -/
theorem recorded_spareInUse (s : State) (t : Nat) (m : Master) :
    Recorded s (actionErr .spare t errSpareInUse m.val (hostWake m.val s)) .spare t errSpareInUse m.val :=
  recorded_recordErr (hostWake_errors m.val) (by decide) m.isLt true 0

/-! ### Monitoring without a spare (R235) -/

theorem setMonitor_tier (t k : Nat) (s : State) (p : Nat) (mon : List (List SenseSample)) :
    (setMonitor t p mon s).tier k = s.tier k :=
  tier_of_only (l := fields [.SPARE_MON_DEV_GAIN, .SPARE_MON_DEV_OFFSET] ++ [.free])
    (setMonitor_keeps (.refl _ s) (.of_beq (by decide +kernel)) t p mon).only (by decide) k

theorem noSpareEvent_rd {r : Reg} (h1 : .EVT_RAW_RAW ≠ r) (h2 : .EVT_PEND_PEND ≠ r) (t : Nat) (s : State) (i x u : Nat) :
    (noSpareEvent t s).rd r i x u = s.rd r i x u := by
  unfold noSpareEvent
  split
  · rfl
  · exact raise_rd _ h1 h2 ..

theorem noSpareEvent_notes (t : Nat) (s : State) : ((noSpareEvent t s).tier t).noSpare = true ∧
    ((s.tier t).noSpare = false → Raised (noSpareEvent t s) .spare t 3) := by
  unfold noSpareEvent
  cases h : (s.tier t).noSpare with
  | true => exact ⟨h, fun hn => nomatch hn⟩
  | false => exact ⟨by simp, fun _ => raise_raw ..⟩

/-! ### The end of a visit (R225) -/

theorem endVisit_only (t : Nat) (s : State) : OnlyChanges visitParts s (endVisit t s) :=
  (endVisit_keeps (.refl _ s) (.of_beq (by decide +kernel)) t).only

theorem endVisit_rd {r : Reg} (hr : .reg r ∉ visitParts) (t : Nat) (s : State) (i x u : Nat) :
    (endVisit t s).rd r i x u = s.rd r i x u := endVisit_only t s (.reg r) hr i x u

theorem cancelVisit_rd {r : Reg} (hr : .reg r ∉ visitParts) (t : Nat) (s : State) (i x u : Nat) :
    (cancelVisit t s).rd r i x u = s.rd r i x u :=
  (cancelVisit_keeps (.refl _ s) (.of_beq (by decide +kernel)) t).only (.reg r) hr i x u

/-! ### Windows (R223, R226) -/

section
variable {s : State} {t : Nat}

/-- A window that begins while no capture runs and the device is in D0. -/
theorem enterWindow_runs (hc : capturing s t = false) (hd : s.rd .POWER_STATUS_DSTATE = 0) (ph : Nat) : enterWindow t ph s =
    setPhase t ph (s.setTier t { s.tier t with windowFrom := s.osc, windowDone := 0, window := [] }) := by
  simp [enterWindow, hc, hd]

theorem setPhase_phase {v : Nat} (hv : v < 16) (t : Nat) (s : State) : spPhase (setPhase t v s) t = v :=
  (State.rd_wr_same ..).trans (Nat.mod_eq_of_lt hv)

theorem shadow_shadows (t : Nat) (s : State) : spPhase (shadow t s) t = 1 ∧
    ((shadow t s).tier t).n0 = (s.clock (visitQuad s t)).next := by
  refine ⟨setPhase_phase (by decide) .., ?_⟩
  simp [shadow, setPhase]

/-! ### Failovers asked for (R233) -/

/-- What a failover asks for first: the fault value where the core has failed, a wake, and FAILOVER_BUSY. -/
def askFailover (t d cause : Nat) (s : State) : State :=
  (if cause = 1 then loseCore (12 * t + d) (wake 5 s) else wake 5 s).wr .SPARE_STATUS_FAILOVER_BUSY 1 t

/-- What follows changes no more than the end of a visit. -/
theorem requestFailover_asks (hs : spareCore s t ≠ 15) (d cause : Nat) (retire : Bool) :
    OnlyChanges visitParts (askFailover t d cause s) (requestFailover t d cause retire s) := by
  have hrefl := Keeps.refl (mask visitParts) (askFailover t d cause s)
  have hqueue := queueFailover_keeps hrefl (.of_beq (by decide +kernel)) t d cause retire
  refine Keeps.only (l := visitParts) ?_
  unfold requestFailover
  rw [if_neg hs]
  dsimp only
  split
  · exact spareFailing_keeps hrefl (.of_beq (by decide +kernel)) ..
  · split
    · exact .ite (abandonCal_keeps hqueue (.of_beq (by decide +kernel)) t) hqueue
    · exact .ite hqueue (endVisit_keeps hqueue (.of_beq (by decide +kernel)) t)

theorem requestFailover_busy (hs : spareCore s t ≠ 15) (d cause : Nat) (retire : Bool) :
    (requestFailover t d cause retire s).rd .SPARE_STATUS_FAILOVER_BUSY t = 1 :=
  (requestFailover_asks hs d cause retire (.reg .SPARE_STATUS_FAILOVER_BUSY) (by decide) ..).trans (State.rd_wr_same ..)

/-! ### The match decision (R224) -/

/-- The larger deviation of a match, in LSB. -/
def worstDeviation (a b : Rat) : Rat := max (max a (-a)) (max b (-b))

/-- The tolerance in force: at least 1 LSB. -/
def matchTolerance (s : State) : Nat := max 1 (s.rd .BURNISH_MATCH_TOL_LSB)

theorem matchTolerance_cast (s : State) : ((matchTolerance s : Nat) : Rat) = max 1 (s.rd .BURNISH_MATCH_TOL_LSB : Rat) := by
  rw [matchTolerance, Nat.cast_max, Nat.cast_one]

/-- A value as its field of 16 bits holds it. -/
theorem unsigned_field16 {r : Reg} (hr : r.width = 16) (v : Int) : unsigned 16 v % 2 ^ r.width = unsigned 16 v := by
  rw [hr]
  unfold unsigned
  omega

variable {a b : Rat} {stage : Rat × Rat}

/-- The decision of a visit that can go on. -/
theorem matchDecision_eq (hok : visitOk s t (visitPos s t) = true) : matchDecision t (a, b) stage s =
    if worstDeviation a b ≤ matchTolerance s then
      ((setPhase t 3 (s.setTier t { s.tier t with decided := some (s.osc + 800), stageFit := stage })).wr .SPARE_MATCH_RES_OFFSET
        (unsigned 16 (roundQ (a * 16))) t).wr .SPARE_MATCH_RES_GAIN (unsigned 16 (roundQ (b * 16))) t
    else if 64 * (matchTolerance s : Rat) < worstDeviation a b then requestFailover t (visitPos s t) 2 true (endVisit t s)
    else if (s.tier t).retried then cancelVisit t (raise .burnish 0 2 (s.wr .SPARE_SKIP_SUSPECT 1 t 0 (visitPos s t)))
    else recalibrateSpare t s := by
  rw [matchTolerance_cast]
  exact if_neg (by simp [hok])

theorem matchDecision_decides (hok : visitOk s t (visitPos s t) = true) (hw : worstDeviation a b ≤ matchTolerance s) :
    ((matchDecision t (a, b) stage s).tier t).decided = some (s.osc + 800) ∧ spPhase (matchDecision t (a, b) stage s) t = 3 ∧
      (matchDecision t (a, b) stage s).rd .SPARE_MATCH_RES_OFFSET t = unsigned 16 (roundQ (a * 16)) ∧
      (matchDecision t (a, b) stage s).rd .SPARE_MATCH_RES_GAIN t = unsigned 16 (roundQ (b * 16)) := by
  rw [matchDecision_eq hok, if_pos hw]
  refine ⟨?_, ?_, ?_, ?_⟩
  · simp [setPhase]
  · simp [spPhase, setPhase, Reg.width, Reg.info]
  · simpa using unsigned_field16 rfl _
  · rw [State.rd_wr_same, unsigned_field16 rfl]

theorem matchDecision_fails_over (hok : visitOk s t (visitPos s t) = true) (hw : 64 * (matchTolerance s : Rat) < worstDeviation a b)
    (hs : spareCore s t ≠ 15) : (matchDecision t (a, b) stage s).rd .SPARE_STATUS_FAILOVER_BUSY t = 1 := by
  have hspare : spareCore (endVisit t s) t ≠ 15 := by rwa [spareCore, endVisit_rd (by decide)]
  have htol : (0 : Rat) ≤ matchTolerance s := Nat.cast_nonneg _
  rw [matchDecision_eq hok, if_neg (by linarith), if_pos hw]
  exact requestFailover_busy hspare ..

theorem matchDecision_recalibrates (hok : visitOk s t (visitPos s t) = true) (hw : (matchTolerance s : Rat) < worstDeviation a b)
    (hm : worstDeviation a b ≤ 64 * (matchTolerance s : Rat)) (hr : (s.tier t).retried = false) (hc : capturing s t = false)
    (hd : s.rd .POWER_STATUS_DSTATE = 0) : spPhase (matchDecision t (a, b) stage s) t = 4 ∧
      ((matchDecision t (a, b) stage s).tier t).retried = true ∧ ((matchDecision t (a, b) stage s).tier t).offline = true := by
  have hrun := enterWindow_runs (s := s.setTier t { s.tier t with retried := true, offline := true }) hc hd 4
  rw [matchDecision_eq hok, if_neg (not_le.mpr hw), if_neg (not_lt.mpr hm), if_neg (by simp [hr]), recalibrateSpare, hrun]
  exact ⟨setPhase_phase (by decide) .., by simp [setPhase]⟩

theorem matchDecision_suspects (hok : visitOk s t (visitPos s t) = true) (hw : (matchTolerance s : Rat) < worstDeviation a b)
    (hm : worstDeviation a b ≤ 64 * (matchTolerance s : Rat)) (hr : (s.tier t).retried = true) :
    (matchDecision t (a, b) stage s).rd .SPARE_SKIP_SUSPECT t 0 (visitPos s t) = 1 ∧
      Raised (matchDecision t (a, b) stage s) .burnish 0 2 := by
  rw [matchDecision_eq hok, if_neg (not_le.mpr hw), if_neg (not_lt.mpr hm), if_pos hr]
  refine ⟨?_, (cancelVisit_rd (by decide) ..).trans (raise_raw ..)⟩
  rw [cancelVisit_rd (by decide), raise_rd _ (by decide) (by decide), State.rd_wr_same]
  rfl

/-! ### The handover (R223, R230) -/

theorem capturing_of_due (h : handoverDue s t = true) : capturing s t = false := by
  unfold handoverDue at h
  cases hd : (s.tier t).decided with
  | none => rw [hd] at h; exact nomatch h
  | some d =>
    rw [hd] at h
    simp only [Bool.and_eq_true, Bool.not_eq_true'] at h
    exact h.2

/-- The step of the stage trim (R230). -/
def stepStage (t : Nat) (s : State) : State :=
  let i := 8 * visitPos s t + spanNow s (12 * t + visitPos s t)
  if s.rd .BURNISH_STATUS_REF_OK = 1 then
    (s.wr .SPARE_STAGE_TRIM_GAIN (stageLess (s.rd .SPARE_STAGE_TRIM_GAIN t i) 400 (s.tier t).stageFit.1) t i).wr
      .SPARE_STAGE_TRIM_OFFSET (stageLess (s.rd .SPARE_STAGE_TRIM_OFFSET t i) 160 (s.tier t).stageFit.2) t i
  else s

theorem stepStage_rd {r : Reg} (h1 : .SPARE_STAGE_TRIM_GAIN ≠ r) (h2 : .SPARE_STAGE_TRIM_OFFSET ≠ r) (t : Nat) (s : State)
    (i x u : Nat) : (stepStage t s).rd r i x u = s.rd r i x u := by
  unfold stepStage
  dsimp only
  split
  · rw [State.rd_wr_reg _ h2, State.rd_wr_reg _ h1]
  · rfl

/-- The spare connected to the position, whose core is in CAL. -/
def connectSpare (t : Nat) (s : State) : State :=
  (setCal t (ownCore s t (visitPos s t)) (setRole t (ownCore s t (visitPos s t)) 2 (stepStage t s))).wr
    .OUT_STATUS_CORE_SPARE 1 (12 * t + visitPos s t)

/-- The spare no longer free, and the decision taken. -/
def spendSpare (t : Nat) (s : State) : State :=
  (s.wr .SPARE_STATUS_SPARE_FREE 0 t).setTier t { s.tier t with decided := none, extended := false }

theorem handover_eq (t : Nat) (s : State) : handover t s = raise .spare t 0 (enterWindow t 4 (spendSpare t (connectSpare t s))) := rfl

theorem handover_hands_over (hd : s.rd .POWER_STATUS_DSTATE = 0) (hc : capturing s t = false) (hi : Inv s) :
    (handover t s).rd .OUT_STATUS_CORE_SPARE (12 * t + visitPos s t) = 1 ∧ calCore (handover t s) t = ownCore s t (visitPos s t) ∧
      coreRole (handover t s) t (ownCore s t (visitPos s t)) = 2 ∧ spPhase (handover t s) t = 4 ∧ Raised (handover t s) .spare t 0 := by
  have hk := (spareStatus_lt hi t (visitPos s t)).1
  have hcapture : capturing (spendSpare t (connectSpare t s)) t = false := by
    refine Eq.trans ?_ hc
    simp [spendSpare, connectSpare, capturing, setCal, setRole, stepStage_rd]
  have hstate : (spendSpare t (connectSpare t s)).rd .POWER_STATUS_DSTATE = 0 := by
    refine Eq.trans ?_ hd
    simp [spendSpare, connectSpare, setCal, setRole, stepStage_rd]
  have hcal : ownCore s t (visitPos s t) % 2 ^ Reg.SPARE_STATUS_CAL_CORE.width = ownCore s t (visitPos s t) := Nat.mod_eq_of_lt hk
  rw [handover_eq, enterWindow_runs hcapture hstate]
  refine ⟨?_, ?_, ?_, ?_, raise_raw ..⟩
  · simp [setPhase, spendSpare, connectSpare, Reg.width, Reg.info]
  · simp [calCore, setPhase, spendSpare, connectSpare, setCal, hcal]
  · simp [coreRole, setPhase, spendSpare, connectSpare, setCal, setRole, Reg.width, Reg.info]
  · simp [spPhase, setPhase, Reg.width, Reg.info]

end

/-! ### The statement -/

section
variable {s : State} {t : Tier}

theorem rotationStart_visits {p : Nat} (hd : s.dev = .up) (hdue : rotationDue s t.val = true) (hi : tierIdle s t.val = true)
    (hp : nextVisit s t.val = some p) (mon : List (List SenseSample)) :
    exec (.rotationStart t mon) s = .next (startVisit t.val p s) := by
  refine (act_on hd hdue _).trans ?_
  simp only [spareCore_of_idle hi, hi, hp, if_true, if_false]

theorem rotationStart_monitors (hd : s.dev = .up) (hdue : rotationDue s t.val = true) (hs : spareCore s t.val = 15)
    (mon : List (List SenseSample)) : exec (.rotationStart t mon) s =
      .next (noSpareEvent t.val (setPhase t.val 9 (setMonitor t.val 0 (mon.take 12) s))) := by
  refine (act_on hd hdue _).trans ?_
  rw [if_pos hs]

theorem visitReq_notes {m : Master} {p : Fin 16} (h : MayWrite s .spare t.val m) (hp : p.val < 12) (hs : spareCore s t.val ≠ 15) :
    exec (.visitReq m t p) s = .next (takeVisitReq t.val (noteVisit t.val p.val (hostWake m.val s))) := by
  refine (cmd_ok h ..).trans ?_
  rw [visitRequest_notes (by rwa [spareCore_hostWake]) hp]

theorem visitReq_refused {m : Master} (h : MayWrite s .spare t.val m) (hs : spareCore s t.val = 15) (p : Fin 16) :
    exec (.visitReq m t p) s = .next (actionErr .spare t.val errSpareInUse m.val (hostWake m.val s)) := by
  refine (cmd_ok h ..).trans ?_
  rw [visitRequest, if_pos ((spareCore_hostWake ..).trans hs)]

theorem shadowStart_shadows (hd : s.dev = .up) (h : visitPos s t.val < 12 ∧ spPhase s t.val = 0 ∧ spareFree s t.val = true ∧
    burnishActs s = true ∧ capturing s t.val = false) (hok : visitOk s t.val (visitPos s t.val) = true) :
    exec (.shadowStart t) s = .next (shadow t.val s) := by
  refine (act_on hd h _).trans ?_
  rw [if_pos hok]

theorem matchStart_matches (hd : s.dev = .up) (hp : spPhase s t.val = 1) (hc : capturing s t.val = false)
    (hok : visitOk s t.val (visitPos s t.val) = true) (hn : (s.tier t.val).n0 < (s.clock (visitQuad s t.val)).next) :
    exec (.matchStart t) s = .next (enterWindow t.val 2 s) := by
  refine (act_on hd ⟨hp, hc⟩ _).trans ?_
  rw [if_neg (by simp [hok]), if_pos hn]

theorem matchDecision_exec {taps : List (SenseSample × SenseSample)} {a b : Rat} (hd : s.dev = .up)
    (h : spPhase s t.val = 2 ∧ capturing s t.val = false ∧ windowOver s t.val = true)
    (hfit : matchFit (taps.map (fun p => (sensed s t.val p.1, sensed s t.val p.2))) = (a, b)) (out : List SenseSample) :
    ∃ stage, exec (.matchDecision t taps out) s = .next (matchDecision t.val (a, b) stage s) := by
  rw [← hfit]
  exact ⟨_, act_on hd h _⟩

theorem handover_exec {p : Fin 12} {k : Fin 13} (hd : s.dev = .up) (hdue : handoverDue s t.val = true) (hp : visitPos s t.val = p.val)
    (hk : ownCore s t.val p.val = k.val) (hok : visitOk s t.val p.val = true) :
    exec (.handover t p k) s = .next (handover t.val s) := by
  refine (act_on hd ⟨hdue, hp, hk⟩ _).trans ?_
  rw [if_pos (by rwa [hp])]

theorem handover_idle {p : Fin 12} {k : Fin 13}
    (h : handoverDue s t.val = false ∨ visitPos s t.val ≠ p.val ∨ ownCore s t.val p.val ≠ k.val) :
    exec (.handover t p k) s = .next s := by
  refine act_same (on_neg ?_ _)
  rintro ⟨hdue, hp, hk⟩
  rcases h with h | h | h
  · rw [hdue] at h; exact nomatch h
  · exact h hp
  · exact h hk

end

/-- Settles O33: each command by the operation that it comes to under its conditions; the match decision by how far the worst deviation
lies beyond the tolerance. -/
theorem burnishVisits : Obligations.BurnishVisits := by
  refine ⟨?rotation, ?monitor, ?visit, ?wait, ?refused, ?shadow, ?matching, ?decided, ?recalibrated, ?suspect, ?failover, ?handover,
    fun s t p k _ => handover_idle⟩
  case rotation =>
    exact fun s t mon p hd hdue hi hp => ⟨_, rotationStart_visits hd hdue hi hp mon,
      startVisit_visits (Nat.lt_trans (nextVisit_lt hp) (by decide)) ..⟩
  case monitor =>
    intro s t mon hd hdue hs
    refine ⟨_, rotationStart_monitors hd hdue hs mon, ?_, ?_⟩
    · rw [spPhase, noSpareEvent_rd (by decide) (by decide)]
      exact setPhase_phase (by decide) ..
    · obtain ⟨hnoted, hraised⟩ := noSpareEvent_notes t.val (setPhase t.val 9 (setMonitor t.val 0 (mon.take 12) s))
      rw [setPhase, wr_tier, setMonitor_tier] at hraised
      exact ⟨hnoted, hraised⟩
  case visit =>
    intro s m t p h hp hi ha
    have hnoted : ((noteVisit t.val p.val (hostWake m.val s)).tier t.val).visitReq = some p.val := by simp [noteVisit]
    refine ⟨_, visitReq_notes h hp (spareCore_of_idle hi), ?_⟩
    rw [takeVisitReq_starts hnoted ((tierIdle_noteVisit ..).trans hi) ((burnishActs_noteVisit ..).trans ha)]
    exact startVisit_visits p.isLt ..
  case wait =>
    intro s m t p h hp hs hwait
    refine ⟨_, visitReq_notes h hp hs, ?_⟩
    rw [takeVisitReq_waits (by rwa [tierIdle_noteVisit, burnishActs_noteVisit])]
    exact ⟨visitPos_hostWake .., by simp [noteVisit]⟩
  case refused =>
    intro s m t p h hs
    refine ⟨_, visitReq_refused h hs p, ?_, recorded_spareInUse ..⟩
    simp [visitPos, actionErr]
  case shadow =>
    exact fun s t hd hp hph hf ha hc hok => ⟨_, shadowStart_shadows hd ⟨hp, hph, hf, ha, hc⟩ hok, shadow_shadows ..⟩
  case matching =>
    intro s t hd hp hc hs hok hn
    refine ⟨_, matchStart_matches hd hp hc hok hn, ?_⟩
    rw [enterWindow_runs hc hs]
    exact ⟨setPhase_phase (by decide) .., by simp [setPhase]⟩
  case decided =>
    intro s t taps out a b hd hp hc hw hok hfit htol
    obtain ⟨stage, he⟩ := matchDecision_exec hd ⟨hp, hc, hw⟩ hfit out
    exact ⟨_, he, matchDecision_decides hok htol⟩
  case recalibrated =>
    intro s t taps out a b hd hp hc hw hok hfit htol hmax hr hs
    obtain ⟨stage, he⟩ := matchDecision_exec hd ⟨hp, hc, hw⟩ hfit out
    exact ⟨_, he, matchDecision_recalibrates hok htol hmax hr hc hs⟩
  case suspect =>
    intro s t taps out a b hd hp hc hw hok hfit htol hmax hr
    obtain ⟨stage, he⟩ := matchDecision_exec hd ⟨hp, hc, hw⟩ hfit out
    exact ⟨_, he, matchDecision_suspects hok htol hmax hr⟩
  case failover =>
    intro s t taps out a b hd hp hc hw hok hfit hmax hs
    obtain ⟨stage, he⟩ := matchDecision_exec hd ⟨hp, hc, hw⟩ hfit out
    exact ⟨_, he, matchDecision_fails_over hok hmax hs⟩
  case handover =>
    intro s t p k hd hdue hp hk hs hok hi
    have hover := handover_hands_over hs (capturing_of_due hdue) hi
    rw [hp, hk] at hover
    exact ⟨_, handover_exec hd hdue hp hk hok, hover⟩

end Sys2Proof.Machine
end

section
/-! PROOFS. Health faults, failovers and abandoned calibrations of a tier (R233 to R235), and the statement about them. -/

namespace Sys2Proof.Machine

-- One declaration at a time: the memory limit counts the stack of every thread that elaborates one.
set_option Elab.async false

/-! ### A lost core (R234) -/

/-- What the loss of a core changes. -/
def lostParts : List Part := fields [.OUT_FAULT_STAT_CORE_LOST, .OUT_STATUS_FALLBACK] ++ [.outs]

theorem loseCore_only (c : Nat) (s : State) : OnlyChanges lostParts s (loseCore c s) :=
  (loseCore_keeps (.refl _ s) (.of_beq (by decide +kernel)) c).only

theorem loseCore_loses (c : Nat) (s : State) : (quadRuns s c = false → (loseCore c s).rd .OUT_FAULT_STAT_CORE_LOST c = 1) ∧
    (quadRuns s c = true → ((loseCore c s).out c).lostReq = true) := by
  refine ⟨fun h => ?_, fun h => ?_⟩
  · simp [loseCore, h, setCoreLost, Reg.width, Reg.info]
  · simp [loseCore, h]

theorem each_loseCore_tier (t k : Nat) (xs : List Failover) (s : State) :
    (each xs (fun f => loseCore (12 * t + f.pos)) s).tier k = s.tier k :=
  each_rel (R := fun a b => b.tier k = a.tier k) (fun _ => rfl) (fun h g => g.trans h)
    (fun _ _ u => tier_of_only (loseCore_only _ u) (by decide) k) s

/-! ### The queue of failovers (R233) -/

/-- What the request of a failover changes before anything else. -/
def askParts : List Part := wakes ++ lostParts ++ fields [.SPARE_STATUS_FAILOVER_BUSY]

theorem askFailover_only (t d cause : Nat) (s : State) : OnlyChanges askParts s (askFailover t d cause s) := by
  have hwake := wake_keeps (.refl (mask askParts) s) (.of_beq (by decide +kernel)) 5
  exact (wr_keeps (.ite (loseCore_keeps hwake (.of_beq (by decide +kernel)) _) hwake) (.of_beq (by decide +kernel)) ..).only

/-- The entry that a failover asked for in s makes. -/
def failoverEntry (s : State) (t d cause : Nat) (retire : Bool) : Failover :=
  ⟨d, cause, retire, (s.clock (quadOf (12 * t + d))).next, s.osc⟩

section
variable {s : State} {t d : Nat}

theorem queueFailover_joins (hnew : ∀ f ∈ (s.tier t).failovers, f.pos ≠ d) (cause : Nat) (retire : Bool) :
    ((queueFailover t d cause retire s).tier t).failovers = (s.tier t).failovers ++ [failoverEntry s t d cause retire] := by
  have hnone : (s.tier t).failovers.any (fun f => f.pos == d) = false := by simpa using hnew
  simp [queueFailover, hnone, failoverEntry]

theorem endVisit_tier (t : Nat) (s : State) : (endVisit t s).tier t = { s.tier t with
    since := s.osc, decided := none, paused := none, extended := false, offline := false, retried := false, hostCal := false,
    window := [], frames := (s.tier t).frames.take 1 } := by
  have htrim : (if (s.tier t).offline then restoreTrim t (spareCore s t) s else s).tier t = s.tier t := by
    split
    · exact tier_of_only (l := fields [.SPARE_ELEM_TRIM_E, .SPARE_GO_TRIM_GAIN, .SPARE_GO_TRIM_OFFSET, .SPARE_LADDER_TRIM_L])
        (restoreTrim_keeps (.refl _ s) (.of_beq (by decide +kernel)) ..).only (by decide) t
    · rfl
  simp [endVisit, setPhase, htrim]

theorem endVisit_pos (t : Nat) (s : State) : visitPos (endVisit t s) t = 15 := by
  simp [visitPos, endVisit, Reg.width, Reg.info]

/-- With no position covered and no core in CAL the spare is freed from its visit. -/
theorem requestFailover_queues (hs : spareCore s t ≠ 15) (hcov : covered s t = none) (hcal : calCore s t = 15) (cause : Nat)
    (retire : Bool) : requestFailover t d cause retire s = endVisit t (queueFailover t d cause retire (askFailover t d cause s)) := by
  simp [requestFailover, hs, hcov, hcal, askFailover]

/-- A failover of a position that does not wait for one yet joins those that wait. -/
theorem requestFailover_joins (hs : spareCore s t ≠ 15) (hcov : covered s t = none) (hcal : calCore s t = 15)
    (hnew : ∀ f ∈ (s.tier t).failovers, f.pos ≠ d) (cause : Nat) (retire : Bool) :
    (requestFailover t d cause retire s).rd .SPARE_STATUS_FAILOVER_BUSY t = 1 ∧
      ((requestFailover t d cause retire s).tier t).failovers = (s.tier t).failovers ++ [failoverEntry s t d cause retire] := by
  have hask := askFailover_only t d cause s
  have htier := tier_of_only hask (by decide) t
  refine ⟨requestFailover_busy hs .., ?_⟩
  rw [requestFailover_queues hs hcov hcal, endVisit_tier, queueFailover_joins (by rwa [htier]), htier, failoverEntry,
    clock_of_only hask (by decide), hask .osc (by decide), failoverEntry]

theorem requestFailover_loses (hs : spareCore s t = 15) (cause : Nat) (retire : Bool) :
    requestFailover t d cause retire s = loseCore (12 * t + d) (wake 5 s) := if_pos hs

theorem quadRuns_wake (k c : Nat) (s : State) : quadRuns (wake k s) c = quadRuns s c := by simp [quadRuns]

/-- A fault of a live own core (R233). -/
theorem coreFault_live {k p : Nat} (h : coreRole s t k = 0) (hp : (upTo 12).find? (fun p => ownCore s t p == k) = some p) :
    coreFault t k s = requestFailover t p 1 true s := by
  simp only [coreFault, h, hp]

theorem calCore_hostWake (m t : Nat) (s : State) : calCore (hostWake m s) t = calCore s t := by simp [calCore]

theorem covered_hostWake (m t : Nat) (s : State) : covered (hostWake m s) t = covered s t := by simp [covered]

theorem failoverEntry_hostWake (m t d cause : Nat) (retire : Bool) (s : State) :
    failoverEntry (hostWake m s) t d cause retire = failoverEntry s t d cause retire := by simp [failoverEntry]

end

/-! ### Failovers left behind (R235) -/

/-- What the end of a failover changes when it has gone through the ones that are left. -/
def leftParts : List Part := lostParts ++ fields [.SPARE_STATUS_FAILOVER_BUSY] ++ [.tiers]

theorem failLeft_only (t : Nat) (s : State) : OnlyChanges leftParts s (failLeft t s) :=
  (failLeft_keeps (.refl _ s) (.of_beq (by decide +kernel)) t).only

theorem failLeft_abandonFrom (t : Nat) (s : State) : ((failLeft t s).tier t).abandonFrom = (s.tier t).abandonFrom := by
  unfold failLeft
  split
  · rw [wr_tier, each_loseCore_tier, State.tier_setTier]
  · rfl

theorem Onward.failLeft {s u : State} (h : Onward s u) (t : Nat) : Onward s (failLeft t u) :=
  h.eventless (failLeft_keeps (.refl _ u) (.of_beq (by decide +kernel)) t)

theorem Onward.setTier {s u : State} (h : Onward s u) (t : Nat) (x : TierState) : Onward s (u.setTier t x) :=
  h.same (fun _ _ _ => rfl) rfl rfl

/-! ### The switch (R233, R234) -/

/-- The spare becomes the own core of the failing position, and the tier has none. -/
def takeOver (t : Nat) (f : Failover) (s : State) : State :=
  setSpare t 15 (setRole t (spareCore s t) 0 (setOwnCore t f.pos (spareCore s t)
    (s.setTier t { s.tier t with failovers := (s.tier t).failovers.drop 1 })))

/-- The channel has its core back. -/
def regainCore (c : Nat) (s : State) : State := (setCoreLost c 0 s).setOut c { (setCoreLost c 0 s).out c with lostReq := false }

/-- What a switch ends with: its record, NO_SPARE, the map to be written, the failovers left. -/
def endSwitch (t p k cause : Nat) (s : State) : State :=
  failLeft t (touchMap t true (noSpareEvent t (recordFailover t p k cause s)))

theorem failoverSwitch_eq (t : Nat) (f : Failover) (s : State) : failoverSwitch t f s = endSwitch t f.pos (ownCore s t f.pos) f.cause
    (displace t f.pos (ownCore s t f.pos) f.retire (regainCore (12 * t + f.pos) (takeOver t f s))) := rfl

def endSwitchParts : List Part :=
  leftParts ++ events ++ fields [.SPARE_FAIL_CNT_FAILOVERS, .SPARE_LAST_FAIL_POS, .SPARE_LAST_FAIL_CORE, .SPARE_LAST_FAIL_CAUSE]

theorem endSwitch_only (t p k cause : Nat) (s : State) : OnlyChanges endSwitchParts s (endSwitch t p k cause s) := by
  have hrecord := recordFailover_keeps (.refl (mask endSwitchParts) s) (.of_beq (by decide +kernel)) t p k cause
  have hevent := noSpareEvent_keeps hrecord (.of_beq (by decide +kernel)) t
  have hmap := touchMap_keeps hevent (.of_beq (by decide +kernel)) t true
  exact (failLeft_keeps hmap (.of_beq (by decide +kernel)) t).only

/-- It raises FAILOVER and loses no event. -/
theorem endSwitch_raises (t p k cause : Nat) (s : State) : Onward s (endSwitch t p k cause s) ∧
    Raised (endSwitch t p k cause s) .spare t 1 := by
  have hrecord : Onward s (recordFailover t p k cause s) := (Onward.refl s).wr.wr.wr.wr.raise ..
  have hrest : Onward (recordFailover t p k cause s) (endSwitch t p k cause s) :=
    ((Onward.ite (.refl _) (((Onward.refl _).setTier ..).raise ..)).setTier ..).failLeft t
  exact ⟨hrecord.trans hrest, hrest.raised _ _ _ (raise_raw ..)⟩

theorem regainCore_only (c : Nat) (s : State) : OnlyChanges lostParts s (regainCore c s) :=
  (State.setOut_keeps (setCoreLost_keeps (.refl (mask lostParts) s) (.of_beq (by decide +kernel)) ..) (.of_beq (by decide +kernel)) ..).only

section
variable {s : State} {t : Nat} {f : Failover}

theorem takeOver_cores (hi : Inv s) : ownCore (takeOver t f s) t f.pos = spareCore s t ∧
    coreRole (takeOver t f s) t (spareCore s t) = 0 ∧ spareCore (takeOver t f s) t = 15 ∧
    (takeOver t f s).rd .SPARE_STATUS_SPARE_FREE t = 0 := by
  obtain ⟨-, hspare, -⟩ := spareStatus_lt hi t f.pos
  have hmap : spareCore s t % 2 ^ Reg.SPARE_CORE_MAP.width = spareCore s t := Nat.mod_eq_of_lt hspare
  refine ⟨?_, ?_, ?_, ?_⟩
  · simp [ownCore, takeOver, setSpare, setRole, setOwnCore, hmap]
  · simp [coreRole, takeOver, setSpare, setRole]
  · simp [spareCore, takeOver, setSpare, Reg.width, Reg.info]
  · simp [takeOver, setSpare]

end

/-- The displaced core retired. -/
theorem displace_retires (t p k : Nat) (s : State) : displace t p k true s = retireCore t k s := if_pos rfl

/-- The displaced core in CAL, covered by nothing. -/
theorem displace_calibrates (t p k : Nat) (s : State) : displace t p k false s =
    enterWindow t 4 ((setCal t k (setRole t k 2 (s.setTier t { s.tier t with hostCal := true }))).wr .SPARE_STATUS_VISIT_POS p t) := rfl

theorem retireCore_role (t k j : Nat) (s : State) : coreRole (retireCore t k s) t j = if k = j then 3 else coreRole s t j := by
  simp [coreRole, retireCore, setRole, State.rd_wr, Reg.width, Reg.info]

theorem enterWindow_rd {r : Reg} (hr : .SPARE_STATUS_PHASE ≠ r) (t ph : Nat) (s : State) (i x u : Nat) :
    (enterWindow t ph s).rd r i x u = s.rd r i x u := by
  unfold enterWindow
  dsimp only
  split <;> exact State.rd_wr_reg _ hr ..

theorem displace_role (t p k j : Nat) (s : State) :
    coreRole (displace t p k false s) t j = if k = j then 2 else coreRole s t j := by
  rw [displace_calibrates, coreRole, enterWindow_rd (by decide)]
  simp [coreRole, setCal, setRole, State.rd_wr, Reg.width, Reg.info]

/-- The displaced core leaves the map and the spare's fields alone. -/
theorem displace_rd {r : Reg} (hr : r ∈ [.SPARE_CORE_MAP, .SPARE_STATUS_SPARE_CORE, .SPARE_STATUS_SPARE_FREE]) (t p k : Nat)
    (retire : Bool) (s : State) (i x u : Nat) : (displace t p k retire s).rd r i x u = s.rd r i x u := by
  have hk := (displace_keeps (.refl (mask (events ++ fields [.SPARE_CORE_STATE_ROLE, .SPARE_FAIL_CNT_RETIRES, .SPARE_STATUS_CAL_CORE,
    .SPARE_STATUS_PHASE, .SPARE_STATUS_VISIT_POS] ++ [.tiers])) s) (.of_beq (by decide +kernel)) t p k retire).only
  refine hk (.reg r) ?_ i x u
  simp only [List.mem_cons, List.not_mem_nil, or_false] at hr
  rcases hr with rfl | rfl | rfl <;> decide

/-- What the switch shows of the map and of the spare is what the spare's taking over has left. -/
theorem failoverSwitch_rd {r : Reg} (hr : r ∈ [.SPARE_CORE_MAP, .SPARE_STATUS_SPARE_CORE, .SPARE_STATUS_SPARE_FREE]) (t : Nat)
    (f : Failover) (s : State) (i x u : Nat) : (failoverSwitch t f s).rd r i x u = (takeOver t f s).rd r i x u := by
  have hout : .reg r ∉ endSwitchParts ++ lostParts := by
    simp only [List.mem_cons, List.not_mem_nil, or_false] at hr
    rcases hr with rfl | rfl | rfl <;> decide
  rw [List.mem_append, not_or] at hout
  obtain ⟨hend, hlost⟩ := hout
  rw [failoverSwitch_eq, endSwitch_only _ _ _ _ _ (.reg r) hend, displace_rd hr, regainCore_only _ _ (.reg r) hlost]

section
variable {s : State} {t : Nat} {f : Failover}

/-- The switch makes the spare the own core, and leaves none. -/
theorem failoverSwitch_takes_over (hi : Inv s) : ownCore (failoverSwitch t f s) t f.pos = spareCore s t ∧
    spareCore (failoverSwitch t f s) t = 15 ∧ (failoverSwitch t f s).rd .SPARE_STATUS_SPARE_FREE t = 0 ∧
    Raised (failoverSwitch t f s) .spare t 1 := by
  obtain ⟨hown, -, hnone, hfree⟩ := takeOver_cores (t := t) (f := f) hi
  exact ⟨(failoverSwitch_rd (by decide) ..).trans hown, (failoverSwitch_rd (by decide) ..).trans hnone,
    (failoverSwitch_rd (by decide) ..).trans hfree, (endSwitch_raises ..).2⟩

theorem takenOver_role (hi : Inv s) : coreRole (regainCore (12 * t + f.pos) (takeOver t f s)) t (spareCore s t) = 0 :=
  (regainCore_only _ _ (.reg .SPARE_CORE_STATE_ROLE) (by decide) ..).trans (takeOver_cores hi).2.1

theorem failoverSwitch_retires (hr : f.retire = true) (hne : spareCore s t ≠ ownCore s t f.pos) (hi : Inv s) :
    coreRole (failoverSwitch t f s) t (spareCore s t) = 0 ∧ coreRole (failoverSwitch t f s) t (ownCore s t f.pos) = 3 ∧
      Raised (failoverSwitch t f s) .spare t 2 := by
  have hrole (j : Nat) : coreRole (failoverSwitch t f s) t j =
      if ownCore s t f.pos = j then 3 else coreRole (regainCore (12 * t + f.pos) (takeOver t f s)) t j := by
    rw [← retireCore_role, ← displace_retires t f.pos, ← hr]
    exact endSwitch_only _ _ _ _ _ (.reg .SPARE_CORE_STATE_ROLE) (by decide) ..
  refine ⟨?_, ?_, ?_⟩
  · rw [hrole, if_neg hne.symm, takenOver_role hi]
  · rw [hrole, if_pos rfl]
  · rw [failoverSwitch_eq, hr, displace_retires]
    exact (endSwitch_raises ..).1.raised _ _ _ (raise_raw ..)

theorem failoverSwitch_calibrates (hr : f.retire = false) (hne : spareCore s t ≠ ownCore s t f.pos) (hi : Inv s) :
    coreRole (failoverSwitch t f s) t (spareCore s t) = 0 ∧ coreRole (failoverSwitch t f s) t (ownCore s t f.pos) = 2 ∧
      calCore (failoverSwitch t f s) t = ownCore s t f.pos := by
  have hrole (j : Nat) : coreRole (failoverSwitch t f s) t j =
      if ownCore s t f.pos = j then 2 else coreRole (regainCore (12 * t + f.pos) (takeOver t f s)) t j := by
    rw [← displace_role t f.pos, ← hr]
    exact endSwitch_only _ _ _ _ _ (.reg .SPARE_CORE_STATE_ROLE) (by decide) ..
  have hcal : ownCore s t f.pos % 2 ^ Reg.SPARE_STATUS_CAL_CORE.width = ownCore s t f.pos := Nat.mod_eq_of_lt (spareStatus_lt hi t f.pos).1
  refine ⟨?_, ?_, ?_⟩
  · rw [hrole, if_neg hne.symm, takenOver_role hi]
  · rw [hrole, if_pos rfl]
  · rw [failoverSwitch_eq, hr, displace_calibrates, calCore, endSwitch_only _ _ _ _ _ (.reg .SPARE_STATUS_CAL_CORE) (by decide),
      enterWindow_rd (by decide)]
    simp [setCal, hcal]

end

/-! ### The end of an abandoned calibration (R233) -/

section
variable {s : State} {t : Nat}

/-- Nothing is abandoned any more, and no spare fails. -/
def unabandon (t : Nat) (s : State) : State := s.setTier t { s.tier t with abandonFrom := none, spareFails := none }

/-- The calibrated core back in service. -/
def backInService (t : Nat) (s : State) : State :=
  setSpare t (spareCore s t) (setCal t 15 ((setRole t (calCore s t) 0 (unabandon t s)).wr .OUT_STATUS_CORE_SPARE 0 (12 * t + visitPos s t)))

/-- The calibrated core as the spare. -/
def backAsSpare (t : Nat) (s : State) : State :=
  setCal t 15 (setSpare t (calCore s t) (setRole t (calCore s t) 1 (unabandon t s)))

/-- The visit ends and the failovers that wait are fed from now on. -/
def endAbandoned (t : Nat) (s u : State) : State :=
  failLeft t ((endVisit t u).setTier t { (endVisit t u).tier t with failovers := ((endVisit t u).tier t).failovers.map (fun f =>
    { f with edge := (s.clock (quadOf (12 * t + f.pos))).next, tick := s.osc }) })

theorem abandonEnd_service (hh : (s.tier t).hostCal = false) (hf : (s.tier t).spareFails = none) :
    abandonEnd t s = endAbandoned t s (backInService t s) := by
  simp [abandonEnd, hh, hf, endAbandoned, backInService, unabandon]

theorem abandonEnd_spare (hh : (s.tier t).hostCal = true) (hf : (s.tier t).spareFails = none) :
    abandonEnd t s = endAbandoned t s (backAsSpare t s) := by
  simp [abandonEnd, hh, hf, endAbandoned, backAsSpare, unabandon]

theorem endAbandoned_rd {r : Reg} (hv : .reg r ∉ visitParts) (hl : .reg r ∉ leftParts) (t : Nat) (s u : State) (i x z : Nat) :
    (endAbandoned t s u).rd r i x z = u.rd r i x z := by
  rw [endAbandoned, failLeft_only _ _ (.reg r) hl, State.setTier_rd, endVisit_rd hv]

theorem endAbandoned_ends (t : Nat) (s u : State) : visitPos (endAbandoned t s u) t = 15 ∧
    ((endAbandoned t s u).tier t).abandonFrom = (u.tier t).abandonFrom := by
  constructor
  · rw [endAbandoned, visitPos, failLeft_only _ _ (.reg .SPARE_STATUS_VISIT_POS) (by decide), State.setTier_rd]
    exact endVisit_pos ..
  · rw [endAbandoned, failLeft_abandonFrom, State.tier_setTier, endVisit_tier]

theorem setSpare_rd {r : Reg} (h1 : .SPARE_STATUS_SPARE_CORE ≠ r) (h2 : .SPARE_STATUS_SPARE_FREE ≠ r) (t k : Nat) (s : State)
    (i x u : Nat) : (setSpare t k s).rd r i x u = s.rd r i x u :=
  (setSpare_keeps (.refl (mask (fields [.SPARE_STATUS_SPARE_CORE, .SPARE_STATUS_SPARE_FREE] ++ [.tiers])) s)
    (.of_beq (by decide +kernel)) t k).only (.reg r) (by simp [fields, h1.symm, h2.symm]) i x u

theorem setSpare_core {k : Nat} (hk : k < 16) (t : Nat) (s : State) : spareCore (setSpare t k s) t = k := by
  have hcore : k % 2 ^ Reg.SPARE_STATUS_SPARE_CORE.width = k := Nat.mod_eq_of_lt hk
  unfold setSpare
  dsimp only
  split <;> simp [spareCore, hcore]

theorem setSpare_abandonFrom (t k : Nat) (s : State) : ((setSpare t k s).tier t).abandonFrom = (s.tier t).abandonFrom := by
  unfold setSpare
  dsimp only
  split <;> simp

theorem backInService_cores (hi : Inv s) : calCore (backInService t s) t = 15 ∧ coreRole (backInService t s) t (calCore s t) = 0 ∧
    (backInService t s).rd .OUT_STATUS_CORE_SPARE (12 * t + visitPos s t) = 0 ∧ spareCore (backInService t s) t = spareCore s t ∧
    ((backInService t s).tier t).abandonFrom = none := by
  obtain ⟨-, hspare, -⟩ := spareStatus_lt hi t 0
  refine ⟨?_, ?_, ?_, setSpare_core hspare .., ?_⟩
  · simp [calCore, backInService, setSpare_rd, setCal, Reg.width, Reg.info]
  · simp [coreRole, backInService, setSpare_rd, setCal, setRole]
  · simp [backInService, setSpare_rd, setCal]
  · simp [backInService, setSpare_abandonFrom, setCal, setRole, unabandon]

theorem backAsSpare_cores (hi : Inv s) : calCore (backAsSpare t s) t = 15 ∧ coreRole (backAsSpare t s) t (calCore s t) = 1 ∧
    spareCore (backAsSpare t s) t = calCore s t ∧ ((backAsSpare t s).tier t).abandonFrom = none := by
  obtain ⟨-, -, hcal⟩ := spareStatus_lt hi t 0
  refine ⟨?_, ?_, ?_, ?_⟩
  · simp [calCore, backAsSpare, setCal, Reg.width, Reg.info]
  · simp [coreRole, backAsSpare, setSpare_rd, setCal, setRole, Reg.width, Reg.info]
  · exact (State.rd_wr_reg _ (by decide) ..).trans (setSpare_core hcal ..)
  · simp [backAsSpare, setSpare_abandonFrom, setCal, setRole, unabandon]

end

/-! ### The statement -/

section
variable {s : State} {t : Tier}

theorem coreHealthFault_fails_over {k : Fin 13} {p : Nat} (hd : s.dev = .up) (h : coreRole s t.val k.val = 0)
    (hp : (upTo 12).find? (fun p => ownCore s t.val p == k.val) = some p) :
    exec (.coreHealthFault t k) s = .next (requestFailover t.val p 1 true s) :=
  (act_up hd _).trans (congrArg _ (coreFault_live h hp))

theorem failoverReq_fails_over {m : Master} {p : Fin 16} (h : MayWrite s .spare t.val m) (hs : spareCore s t.val ≠ 15) (hp : p.val < 12)
    (r : Bool) : exec (.failoverReq m t p r) s = .next (requestFailover t.val p.val 3 r (hostWake m.val s)) := by
  refine (cmd_ok h ..).trans ?_
  rw [hostFailover, if_neg (by rwa [spareCore_hostWake]), if_neg (by omega)]

theorem failoverReq_no_position {m : Master} {p : Fin 16} (h : MayWrite s .spare t.val m) (hs : spareCore s t.val ≠ 15)
    (hp : 12 ≤ p.val) (r : Bool) : exec (.failoverReq m t p r) s = .next (hostWake m.val s) := by
  refine (cmd_ok h ..).trans ?_
  rw [hostFailover, if_neg (by rwa [spareCore_hostWake]), if_pos hp]

theorem failoverReq_refused {m : Master} (h : MayWrite s .spare t.val m) (hs : spareCore s t.val = 15) (p : Fin 16) (r : Bool) :
    exec (.failoverReq m t p r) s = .next (actionErr .spare t.val errSpareInUse m.val (hostWake m.val s)) := by
  refine (cmd_ok h ..).trans ?_
  rw [hostFailover, if_pos ((spareCore_hostWake ..).trans hs)]

theorem failoverSwitch_switches {f : Failover} {rest : List Failover} (hd : s.dev = .up) (hf : (s.tier t.val).failovers = f :: rest)
    (hr : failoverReady s t.val f = true) : exec (.failoverSwitch t) s = .next (failoverSwitch t.val f s) := by
  show execFailoverSwitch t s = _
  rw [execFailoverSwitch, act_up hd, hf]
  exact congrArg _ (on_pos hr _)

end

/-- Settles O35: a failover asked for by whether the tier has a spare; its switch by what becomes of the displaced core; the end of an
abandoned calibration by where the calibrated core goes. -/
theorem burnishFailover : Obligations.BurnishFailover := by
  refine ⟨?health, ?lost, ?host, ?nowhere, ?refused, ?retired, ?calibrated, ?service, ?spare⟩
  case health =>
    exact fun s t k p hd h0 hp hs hcov hcal hnew => ⟨_, coreHealthFault_fails_over hd h0 hp, requestFailover_joins hs hcov hcal hnew ..⟩
  case lost =>
    intro s t k p hd h0 hp hs
    have hlost := loseCore_loses (12 * t.val + p) (wake 5 s)
    rw [quadRuns_wake] at hlost
    exact ⟨_, (coreHealthFault_fails_over hd h0 hp).trans (congrArg _ (requestFailover_loses hs ..)), hlost⟩
  case host =>
    intro s m t p r h hs hp hcov hcal hnew
    have hjoins := requestFailover_joins (s := hostWake m.val s) (t := t.val) (d := p.val) (by rwa [spareCore_hostWake])
      ((covered_hostWake ..).trans hcov) ((calCore_hostWake ..).trans hcal) (by rwa [hostWake_tier]) 3 r
    rw [hostWake_tier, failoverEntry_hostWake] at hjoins
    exact ⟨_, failoverReq_fails_over h hs hp r, hjoins⟩
  case nowhere => exact fun s m t p r h hs hp => ⟨_, failoverReq_no_position h hs hp r, hostWake_tiers ..⟩
  case refused =>
    refine fun s m t p r h hs => ⟨_, failoverReq_refused h hs p r, ?_, recorded_spareInUse ..⟩
    exact congrArg (fun x => (Store.get {} x t.val).failovers) ((recordErr_tiers ..).trans (hostWake_tiers ..))
  case retired =>
    intro s t f rest hd hf hready hp hr hne hi
    obtain ⟨hown, hnone, hfree, hraised⟩ := failoverSwitch_takes_over (t := t.val) (f := f) hi
    obtain ⟨hlive, hretired, hevent⟩ := failoverSwitch_retires hr hne hi
    exact ⟨_, failoverSwitch_switches hd hf hready, hown, hlive, hretired, hnone, hfree, hraised, hevent⟩
  case calibrated =>
    intro s t f rest hd hf hready hp hr hne hi
    obtain ⟨hown, hnone, hfree, hraised⟩ := failoverSwitch_takes_over (t := t.val) (f := f) hi
    obtain ⟨hlive, hrole, hcal⟩ := failoverSwitch_calibrates hr hne hi
    exact ⟨_, failoverSwitch_switches hd hf hready, hown, hlive, hrole, hnone, hcal, hfree, hraised⟩
  case service =>
    intro s t hd hready hh hf hp hi
    obtain ⟨hcal, hrole, hconnect, hspare, habandon⟩ := backInService_cores (t := t.val) hi
    obtain ⟨hvisit, hnone⟩ := endAbandoned_ends t.val s (backInService t.val s)
    refine ⟨_, act_on hd hready _, ?_⟩
    rw [abandonEnd_service hh hf]
    exact ⟨(endAbandoned_rd (by decide) (by decide) ..).trans hcal, (endAbandoned_rd (by decide) (by decide) ..).trans hrole,
      (endAbandoned_rd (by decide) (by decide) ..).trans hconnect, (endAbandoned_rd (by decide) (by decide) ..).trans hspare,
      hvisit, hnone.trans habandon⟩
  case spare =>
    intro s t hd hready hh hf hi
    obtain ⟨hcal, hrole, hspare, habandon⟩ := backAsSpare_cores (t := t.val) hi
    obtain ⟨hvisit, hnone⟩ := endAbandoned_ends t.val s (backAsSpare t.val s)
    refine ⟨_, act_on hd hready _, ?_⟩
    rw [abandonEnd_spare hh hf]
    exact ⟨(endAbandoned_rd (by decide) (by decide) ..).trans hcal, (endAbandoned_rd (by decide) (by decide) ..).trans hrole,
      (endAbandoned_rd (by decide) (by decide) ..).trans hspare, hvisit, hnone.trans habandon⟩

end Sys2Proof.Machine
end

section
/-! PROOFS. Host capture and the records of a tier (R236 to R239), and the statement about them. -/

namespace Sys2Proof.Machine

-- One declaration at a time: the memory limit counts the stack of every thread that elaborates one.
set_option Elab.async false

/-! ### The converter taken for a capture (R236) -/

/-- A visit in SHADOW is cancelled. -/
def stopShadow (t : Nat) (s : State) : State := if spPhase s t = 1 then cancelVisit t s else s

/-- The converter is the capture's, and its address is taken. -/
def takeConverter (t : Nat) (s : State) : State :=
  let s1 := ((stopShadow t s).wr .BURNISH_STATUS_CAPTURING 1 0 0 t).wr .BURNISH_CAP_DONE_COUNT 0 0 t
  s1.setTier t { s1.tier t with
    capWait := false, capAbort := false
    capAddr := s.rd .BURNISH_CAP_ADDR_LO_ADDR 0 t + 2 ^ 32 * s.rd .BURNISH_CAP_ADDR_HI_ADDR 0 t }

theorem startCapture_eq (t : Nat) (s : State) : startCapture t s =
    if spPhase (stopShadow t s) t = 3 then
      setPhase t 2 ((takeConverter t s).setTier t { (takeConverter t s).tier t with decided := none })
    else pauseWindow t (takeConverter t s) := rfl

theorem pauseWindow_capAddr (t : Nat) (s : State) : ((pauseWindow t s).tier t).capAddr = (s.tier t).capAddr := by
  unfold pauseWindow
  dsimp only
  split <;> simp [setPhase]

/-- What becomes of the window leaves the capture alone. -/
theorem startCapture_window (t : Nat) (s : State) :
    OnlyChanges [.reg .SPARE_STATUS_PHASE, .tiers] (takeConverter t s) (startCapture t s) ∧
      ((startCapture t s).tier t).capAddr = ((takeConverter t s).tier t).capAddr := by
  have hrefl := Keeps.refl (mask [.reg .SPARE_STATUS_PHASE, .tiers]) (takeConverter t s)
  rw [startCapture_eq]
  split
  · exact ⟨(setPhase_keeps (State.setTier_keeps hrefl (.of_beq (by decide +kernel)) ..) (.of_beq (by decide +kernel)) ..).only,
      by simp [setPhase]⟩
  · exact ⟨(pauseWindow_keeps hrefl (.of_beq (by decide +kernel)) t).only, pauseWindow_capAddr ..⟩

theorem startCapture_captures (t : Nat) (s : State) : capturing (startCapture t s) t = true ∧
    (startCapture t s).rd .BURNISH_CAP_DONE_COUNT 0 t = 0 ∧
    ((startCapture t s).tier t).capAddr = s.rd .BURNISH_CAP_ADDR_LO_ADDR 0 t + 2 ^ 32 * s.rd .BURNISH_CAP_ADDR_HI_ADDR 0 t := by
  obtain ⟨honly, haddr⟩ := startCapture_window t s
  refine ⟨?_, ?_, haddr.trans (by simp [takeConverter])⟩
  · rw [capturing, honly (.reg .BURNISH_STATUS_CAPTURING) (by decide)]
    simp [takeConverter, Reg.width, Reg.info]
  · rw [honly (.reg .BURNISH_CAP_DONE_COUNT) (by decide)]
    simp [takeConverter]

/-- What the start of a capture changes. -/
def captureParts : List Part := visitParts ++ fields [.BURNISH_STATUS_CAPTURING, .BURNISH_CAP_DONE_COUNT]

theorem startCapture_only (t : Nat) (s : State) : OnlyChanges captureParts s (startCapture t s) :=
  (startCapture_keeps (.refl _ s) (.of_beq (by decide +kernel)) t).only

/-! ### A write of CAP_CTRL (R236, R237) -/

/-- The word that starts a capture. -/
def startWord (src atLc lc : Nat) : Nat := src + 0x20 + 0x80 * atLc + 0x100 * lc

theorem startWord_fields {src atLc lc : Nat} (hs : src < 32) (ha : atLc < 2) (hl : lc < 64) :
    bits (startWord src atLc lc) 4 0 = src ∧ bit (startWord src atLc lc) 5 = 1 ∧ bit (startWord src atLc lc) 6 = 0 ∧
      bit (startWord src atLc lc) 7 = atLc ∧ bits (startWord src atLc lc) 13 8 = lc ∧ bit (startWord src atLc lc) 17 = 0 := by
  simp only [startWord, bits, bit]
  omega

/-- The source and the comparator of a capture stored. -/
def storeCapture (t src atLc lc : Nat) (s : State) : State :=
  ((s.wr .BURNISH_CAP_CTRL_CAP_SRC src 0 t).wr .BURNISH_CAP_CTRL_AT_LC atLc 0 t).wr .BURNISH_CAP_CTRL_CAP_LC lc 0 t

/-- A capture that has been accepted. -/
def acceptCapture (t src atLc lc : Nat) (s : State) : State := (storeCapture t src atLc lc s).wr .BURNISH_CAP_CTRL_BUSY 1 0 t

section
variable {s : State} {m t src atLc lc : Nat} (hs : src < 32) (ha : atLc < 2) (hl : lc < 64)
include hs ha hl

theorem writeCapCtrl_foreign (h1 : atLc = 1) (ho : ownsLc s m lc = false) : writeCapCtrl m t (startWord src atLc lc) s =
    recordErr .burnish 0 errOwnerDenied m true ((0x80 + 0x20 * t) / 4) s := by
  obtain ⟨-, h5, -, h7, hlc, -⟩ := startWord_fields hs ha hl
  rw [writeCapCtrl, if_pos ⟨h5, h7.trans h1, by rw [hlc]; exact ho⟩]

/-- A start that names no comparator, or one of its writer. -/
theorem writeCapCtrl_own (ho : atLc = 0 ∨ ownsLc s m lc = true) : writeCapCtrl m t (startWord src atLc lc) s =
    if s.rd .BURNISH_CAP_CTRL_BUSY 0 t = 1 then (storeCapture t src atLc lc s).wr .BURNISH_CAP_CTRL_REFUSED 1 0 t
    else if atLc = 1 then (acceptCapture t src atLc lc s).setTier t
      { (acceptCapture t src atLc lc s).tier t with capWait := true, capAbort := false }
    else startCapture t (acceptCapture t src atLc lc s) := by
  obtain ⟨hsrc, h5, h6, h7, hlc, h17⟩ := startWord_fields hs ha hl
  have hown : ¬(bit (startWord src atLc lc) 5 = 1 ∧ bit (startWord src atLc lc) 7 = 1 ∧
      ownsLc s m (bits (startWord src atLc lc) 13 8) = false) := by
    rw [h7, hlc]
    rintro ⟨-, h1, hn⟩
    rcases ho with h0 | hy
    · omega
    · rw [hy] at hn; exact nomatch hn
  rw [writeCapCtrl, if_neg hown]
  simp [hsrc, h5, h6, h7, hlc, h17, State.wrIf, storeCapture, acceptCapture]

end

section
variable {s : State} {t src lc : Nat}

theorem acceptCapture_fields (hs : src < 32) (hl : lc < 64) (atLc : Nat) :
    (acceptCapture t src atLc lc s).rd .BURNISH_CAP_CTRL_BUSY 0 t = 1 ∧
      (acceptCapture t src atLc lc s).rd .BURNISH_CAP_CTRL_CAP_SRC 0 t = src ∧
      (acceptCapture t src atLc lc s).rd .BURNISH_CAP_CTRL_CAP_LC 0 t = lc := by
  refine ⟨State.rd_wr_same .., ?_, ?_⟩
  · simp [acceptCapture, storeCapture, Reg.width, Reg.info]
    omega
  · simp [acceptCapture, storeCapture, Reg.width, Reg.info]
    omega

theorem captureAbort_waiting (hb : s.rd .BURNISH_CAP_CTRL_BUSY 0 t = 1) (hw : (s.tier t).capWait = true) :
    ((captureAbort t s).tier t).capWait = false ∧ (captureAbort t s).rd .BURNISH_CAP_CTRL_BUSY 0 t = 0 := by
  simp [captureAbort, hb, hw]

theorem captureAbort_running (hb : s.rd .BURNISH_CAP_CTRL_BUSY 0 t = 1) (hw : (s.tier t).capWait = false) :
    ((captureAbort t s).tier t).capAbort = true := by
  simp [captureAbort, hb, hw]

end

/-! ### The end of a capture (R237) -/

/-- What the end of a capture changes. -/
def captureEnds : List Part :=
  events ++ fields [.BURNISH_CAP_CTRL_BUSY, .BURNISH_STATUS_CAPTURING, .SPARE_STATUS_PHASE] ++ [.tiers]

theorem endCapture_only (t : Nat) (s : State) : OnlyChanges captureEnds s (endCapture t s) :=
  (endCapture_keeps (.refl _ s) (.of_beq (by decide +kernel)) t).only

theorem resumeBurnish_rd {r : Reg} (hr : .reg r ∉ events ++ [.reg .SPARE_STATUS_PHASE, .tiers]) (t : Nat) (s : State) (i x u : Nat) :
    (resumeBurnish t s).rd r i x u = s.rd r i x u :=
  (resumeBurnish_keeps (.refl _ s) (.of_beq (by decide +kernel)) t).only (.reg r) hr i x u

theorem endCapture_ends (t : Nat) (s : State) : (endCapture t s).rd .BURNISH_CAP_CTRL_BUSY 0 t = 0 ∧
    capturing (endCapture t s) t = false ∧ Raised (endCapture t s) .burnish 0 3 := by
  refine ⟨?_, ?_, raise_raw ..⟩
  · rw [endCapture, raise_rd _ (by decide) (by decide), resumeBurnish_rd (by decide)]
    split <;> simp
  · rw [endCapture, capturing, raise_rd _ (by decide) (by decide), resumeBurnish_rd (by decide)]
    split <;> simp

/-! ### Samples (R237) -/

/-- A write word by word over clean words stores its bytes and no other. -/
theorem writeWords_bytes {s : State} {a : Nat} {bs : List Byte} (m : Nat) (hc : CleanCells s) (ha : s.anyPoison a bs.length = false) :
    (writeWords m bs.length a bs s).bytes a bs.length = bs ∧
      ∀ b, b < a ∨ a + bs.length ≤ b → (writeWords m bs.length a bs s).byte b = s.byte b := by
  obtain ⟨hno, hin⟩ := writeWords_clean m bs.length (Nat.le_refl _) hc ha
  refine ⟨List.ext_getElem (by rw [State.bytes, List.length_map, rangeFrom_length]) fun i hi hi' => ?_, fun b hb => ?_⟩
  · have hserved : s.offline (a + i) = false := offline_of_clean (anyPoison_false.mp ha (a + i) (by omega) (by omega))
    simp only [State.bytes, List.getElem_map, rangeFrom_getElem, State.byte, hno.offline, hserved, Bool.false_eq_true, if_false]
    exact hin i hi'
  · rw [State.byte, hno.offline, writeWords_outside _ hb, State.byte]

/-- Memory shows the same bytes after a field of the capture is written. -/
theorem byte_wr_done (s : State) (v i x u b : Nat) : (s.wr .BURNISH_CAP_DONE_COUNT v i x u).byte b = s.byte b := by
  simp [State.byte, State.offline, State.logicalRank, State.quarryAddr, State.logicalRanks]

/-- The state after a stored sample. -/
def storeSample (t : Nat) (x : BitVec 18) (s : State) : State :=
  ((writeWords 5 4 (s.tier t).capAddr (leBytes 4 (x.signExtend 32).toNat) s).setTier t
    { s.tier t with capAddr := (s.tier t).capAddr + 4 }).wr .BURNISH_CAP_DONE_COUNT (s.rd .BURNISH_CAP_DONE_COUNT 0 t + 1) 0 t

section
variable {s : State} {t : Nat} {x : BitVec 18}

theorem captureSample_stores (hin : inBench (s.tier t).capAddr 4 = true ∨ inWave s (s.tier t).capAddr 4 = true)
    (hm : memAllowed s 5 .write (s.tier t).capAddr 4 = true) : captureSample t x s = storeSample t x s :=
  if_pos (by simpa [hm] using hin)

theorem captureSample_denied (hm : memAllowed s 5 .write (s.tier t).capAddr 4 = false) : captureSample t x s =
    endCapture t (recordErr .burnish 0 errRegionDenied 5 true 0 (denyMem 5 (s.tier t).capAddr 4 true s)) :=
  if_neg (by simp [hm])

theorem storeSample_byte (b : Nat) :
    (storeSample t x s).byte b = (writeWords 5 4 (s.tier t).capAddr (leBytes 4 (x.signExtend 32).toNat) s).byte b :=
  (byte_wr_done ..).trans rfl

theorem storeSample_memory (hc : CleanCells s) (hp : s.anyPoison (s.tier t).capAddr 4 = false) :
    (storeSample t x s).bytes (s.tier t).capAddr 4 = leBytes 4 (x.signExtend 32).toNat ∧
      ∀ b : Nat, b < (s.tier t).capAddr ∨ (s.tier t).capAddr + 4 ≤ b → (storeSample t x s).byte b = s.byte b := by
  obtain ⟨hin, hout⟩ := writeWords_bytes (bs := leBytes 4 (x.signExtend 32).toNat) 5 hc hp
  refine ⟨?_, fun b hb => (storeSample_byte b).trans (hout b hb)⟩
  rw [State.bytes, List.map_congr_left (fun b _ => storeSample_byte b)]
  exact hin

/-- One more sample than the last fits the field. -/
theorem storeSample_counts (hmore : captureMore s t = true) (hi : Inv s) :
    (storeSample t x s).rd .BURNISH_CAP_DONE_COUNT 0 t = s.rd .BURNISH_CAP_DONE_COUNT 0 t + 1 := by
  obtain ⟨-, -, hregs, -, -⟩ := hi
  have hcount : s.rd .BURNISH_CAP_COUNT_COUNT 0 t < 2 ^ Reg.BURNISH_CAP_DONE_COUNT.width := rd_lt hregs .BURNISH_CAP_COUNT_COUNT 0 t 0
  simp only [captureMore, Bool.and_eq_true, decide_eq_true_eq] at hmore
  rw [storeSample, State.rd_wr_same]
  exact Nat.mod_eq_of_lt (by omega)

end

/-- The record of a denied access is kept on another page than Burnish's (R24, R27). -/
theorem denyMem_burnish (m a n : Nat) (w : Bool) (s : State) :
    (denyMem m a n w s).rd .ERR_CODE_CODE 0 (Page.code .burnish) = s.rd .ERR_CODE_CODE 0 (Page.code .burnish) := by
  have hrecord (p : Page) (hp : Page.code .burnish ≠ p.code) (o : Nat) (u : State) :
      (recordErr p 0 errRegionDenied m w o u).rd .ERR_CODE_CODE 0 (Page.code .burnish) = u.rd .ERR_CODE_CODE 0 (Page.code .burnish) :=
    ((OnlyAt.refl (p := p) (idx := 0) (l := []) u).recordErr (fun _ h => nomatch h) ..).2 _ (by decide) _ _ _ (fun h => hp h.2)
  unfold denyMem
  split
  · unfold memPage
    split
    · exact hrecord _ (by decide) ..
    · exact hrecord _ (by decide) ..
  · rw [mapError, raise_rd _ (by decide) (by decide), hrecord _ (by decide)]
    simp

/-- What records an error depends on the state before by the code that stands alone. -/
theorem Recorded.from {s u t : State} {p : Page} {n c m : Nat} (h : Recorded u t p n c m)
    (hc : u.rd .ERR_CODE_CODE n p.code = s.rd .ERR_CODE_CODE n p.code) : Recorded s t p n c m := by
  unfold Recorded at h ⊢
  rwa [hc] at h

/-- It stays through what changes no error record. -/
theorem Recorded.stays {s t u : State} {p : Page} {n c m : Nat} (h : Recorded s t p n c m)
    (ht : ∀ r, .reg r ∈ errors → ∀ i x z, u.rd r i x z = t.rd r i x z) : Recorded s u p n c m := by
  unfold Recorded at h ⊢
  rwa [ht .ERR_CODE_CODE (by decide), ht .ERR_CODE_MASTER (by decide), ht .ERR_CODE_OVF (by decide)]

theorem endCapture_errors (t : Nat) (s : State) (r : Reg) (hr : .reg r ∈ errors) (i x z : Nat) :
    (endCapture t s).rd r i x z = s.rd r i x z :=
  endCapture_only t s (.reg r) ((show ∀ q ∈ errors, q ∉ captureEnds by decide) _ hr) i x z

/-! ### Records (R238, R239) -/

/-- A pass that changes each tier once changes tier k in a state with the same registers and the same tier. -/
theorem each_setTier {f : Nat → State → TierState} {k n : Nat} (hk : k < n) (s : State) : ∃ u : State, u.regs = s.regs ∧
    u.tier k = s.tier k ∧ (each (upTo n) (fun t s => s.setTier t (f t s)) s).tier k = f k u := by
  obtain ⟨u, ⟨hregs, htier⟩, -, hown⟩ := each_own (R := fun a b => b.regs = a.regs ∧ b.tier k = a.tier k)
    (f := fun t s => s.setTier t (f t s)) (fun _ => ⟨rfl, rfl⟩) (fun h g => ⟨g.1.trans h.1, g.2.trans h.2⟩)
    (fun t ht _ => ⟨rfl, State.tier_setTier_ne _ ht _⟩) (mem_upTo.mpr hk) (upTo_nodup n) s
  exact ⟨u, hregs, htier, hown.trans (State.tier_setTier ..)⟩

theorem each_setTier_rest {f : Nat → State → TierState} (s : State) :
    OnlyChanges [.tiers] s (each (upTo 4) (fun t s => s.setTier t (f t s)) s) :=
  (each_keeps (m := mask [.tiers]) (fun _ _ h => State.setTier_keeps h (.of_beq (by decide +kernel)) ..) (.refl _ s)).only

theorem saveNow_asks (s : State) : (saveNow s).trimDue = true ∧ (saveNow s).rd .BURNISH_STATUS_NVM_SAVING = 1 ∧
    ∀ t : Nat, t < 4 → ((saveNow s).tier t).mapUrgent = true := by
  have hrest := each_setTier_rest (f := fun t s => { s.tier t with mapUrgent := true })
    (State.wr { s with trimDue := true } .BURNISH_STATUS_NVM_SAVING 1)
  have hsaving := (hrest (.reg .BURNISH_STATUS_NVM_SAVING) (by decide) 0 0 0).trans (State.rd_wr_same ..)
  refine ⟨hrest .trimDue (by decide), hsaving, fun t ht => ?_⟩
  obtain ⟨u, -, -, hown⟩ := each_setTier (f := fun t s => { s.tier t with mapUrgent := true }) ht
    (State.wr { s with trimDue := true } .BURNISH_STATUS_NVM_SAVING 1)
  exact congrArg TierState.mapUrgent hown

/-- The record of the next generation. -/
def nextRecord (s : State) (t : Nat) : MapRecord := mapRecord s t (((validMap (s.tier t)).map (fun x => x.2.gen)).getD 0 + 1)

/-- A tier with its record written to the copy that does not count. -/
def TierState.written (x : TierState) (r : MapRecord) (osc : Nat) : TierState := { x with
  mapDirty := false, mapUrgent := false, mapSaved := osc
  recA := if ((validMap x).map Prod.fst).getD false then x.recA else some r
  recB := if ((validMap x).map Prod.fst).getD false then some r else x.recB }

theorem writeMap_tier (t : Nat) (s : State) : (writeMap t s).tier t = (s.tier t).written (nextRecord s t) s.osc := by
  rw [writeMap, raise_tier, State.tier_setTier]
  rfl

theorem writeMap_copies (t : Nat) (s : State) :
    ((validMap (s.tier t)).map Prod.fst = some true →
      ((writeMap t s).tier t).recA = (s.tier t).recA ∧ ((writeMap t s).tier t).recB = some (nextRecord s t)) ∧
    ((validMap (s.tier t)).map Prod.fst ≠ some true →
      ((writeMap t s).tier t).recB = (s.tier t).recB ∧ ((writeMap t s).tier t).recA = some (nextRecord s t)) := by
  rw [writeMap_tier]
  refine ⟨fun h => ?_, fun h => ?_⟩
  · simp [TierState.written, h]
  · have hnot : ((validMap (s.tier t)).map Prod.fst).getD false = false := by
      cases hv : (validMap (s.tier t)).map Prod.fst with
      | none => rfl
      | some b => cases b with
        | false => rfl
        | true => exact absurd hv h
    simp only [TierState.written, hnot, Bool.false_eq_true, if_false, and_self]

/-- A tier with its last-good trims and its stage trims saved. -/
def savedTier (t : Nat) (s : State) : TierState := { s.tier t with
  nvGood := (s.tier t).good
  nvStage := (upTo 96).foldl (fun m i =>
    Store.set (0, 0) m i (s.rd .SPARE_STAGE_TRIM_GAIN t i, s.rd .SPARE_STAGE_TRIM_OFFSET t i)) [] }

theorem savedTier_good (t : Nat) (s : State) : (savedTier t s).nvGood = (s.tier t).good := rfl

theorem saveTrims_eq (s : State) : saveTrims s = raise .burnish 0 4
    (State.wr { each (upTo 4) (fun t s => s.setTier t (savedTier t s)) s with trimSaved := s.osc, trimDue := false }
      .BURNISH_STATUS_NVM_SAVING 0) := rfl

theorem saveTrims_tier (t : Nat) (s : State) :
    (saveTrims s).tier t = (each (upTo 4) (fun t s => s.setTier t (savedTier t s)) s).tier t := by
  rw [saveTrims_eq, raise_tier, wr_tier, State.tier, State.tier]

theorem saveTrims_saves (s : State) : (saveTrims s).trimDue = false ∧ (saveTrims s).trimSaved = s.osc ∧
    (saveTrims s).rd .BURNISH_STATUS_NVM_SAVING = 0 ∧ Raised (saveTrims s) .burnish 0 4 ∧
    ∀ t : Nat, t < 4 → ((saveTrims s).tier t).nvGood = (s.tier t).good := by
  refine ⟨?_, ?_, ?_, raise_raw .., fun t ht => ?_⟩
  · simp [saveTrims_eq]
  · simp [saveTrims_eq]
  · simp [saveTrims_eq]
  · obtain ⟨u, -, htier, hown⟩ := each_setTier (f := savedTier) ht s
    rw [saveTrims_tier, hown, savedTier_good, htier]

/-! ### The statement -/

section
variable {s : State} {m : Master} {t : Tier}

/-- The word of the command is the one that starts a capture. -/
theorem captureStart_exec (h : MayWrite s .burnish 0 m) (src : Fin 32) (atLc : Bool) (lc : Lc) : exec (.captureStart m t src atLc lc) s =
    .next (writeCapCtrl m.val t.val (startWord src.val (if atLc then 1 else 0) lc.val) (hostWake m.val s)) := by
  refine (cmd_ok h ..).trans ?_
  cases atLc <;> rfl

theorem busy_hostWake (k i : Nat) (s : State) :
    (hostWake k s).rd .BURNISH_CAP_CTRL_BUSY 0 i = s.rd .BURNISH_CAP_CTRL_BUSY 0 i := by simp

theorem captureStart_starts (h : MayWrite s .burnish 0 m) (hb : s.rd .BURNISH_CAP_CTRL_BUSY 0 t.val = 0) (src : Fin 32) (lc : Lc) :
    exec (.captureStart m t src false lc) s =
      .next (startCapture t.val (acceptCapture t.val src.val 0 lc.val (hostWake m.val s))) := by
  refine (captureStart_exec h ..).trans (congrArg _ ?_)
  refine (writeCapCtrl_own src.isLt (by decide) lc.isLt (.inl rfl)).trans ?_
  rw [busy_hostWake, hb]
  rfl

theorem captureStart_waits (h : MayWrite s .burnish 0 m) (hb : s.rd .BURNISH_CAP_CTRL_BUSY 0 t.val = 0) (src : Fin 32) {lc : Lc}
    (ho : ownsLc s m.val lc.val = true) : exec (.captureStart m t src true lc) s =
      .next ((acceptCapture t.val src.val 1 lc.val (hostWake m.val s)).setTier t.val
        { (acceptCapture t.val src.val 1 lc.val (hostWake m.val s)).tier t.val with capWait := true, capAbort := false }) := by
  refine (captureStart_exec h ..).trans (congrArg _ ?_)
  refine (writeCapCtrl_own src.isLt (by decide) lc.isLt (.inr ((ownsLc_hostWake ..).trans ho))).trans ?_
  rw [busy_hostWake, hb]
  rfl

theorem captureStart_foreign (h : MayWrite s .burnish 0 m) (src : Fin 32) {lc : Lc} (ho : ownsLc s m.val lc.val = false) :
    exec (.captureStart m t src true lc) s =
      .next (recordErr .burnish 0 errOwnerDenied m.val true ((0x80 + 0x20 * t.val) / 4) (hostWake m.val s)) :=
  (captureStart_exec h ..).trans (congrArg _ (writeCapCtrl_foreign src.isLt (by decide) lc.isLt rfl ((ownsLc_hostWake ..).trans ho)))

theorem captureStart_busy (h : MayWrite s .burnish 0 m) (hb : s.rd .BURNISH_CAP_CTRL_BUSY 0 t.val = 1) (src : Fin 32) {atLc : Bool}
    {lc : Lc} (ho : atLc = false ∨ ownsLc s m.val lc.val = true) : exec (.captureStart m t src atLc lc) s =
      .next ((storeCapture t.val src.val (if atLc then 1 else 0) lc.val (hostWake m.val s)).wr .BURNISH_CAP_CTRL_REFUSED 1 0 t.val) := by
  refine (captureStart_exec h ..).trans (congrArg _ ?_)
  have hbit : (if atLc then 1 else 0 : Nat) < 2 := by cases atLc <;> decide
  refine (writeCapCtrl_own src.isLt hbit lc.isLt ?_).trans (if_pos ((busy_hostWake ..).trans hb))
  exact ho.imp (fun h0 => by rw [h0]; rfl) (ownsLc_hostWake ..).trans

end

/-- Settles O36: a write of CAP_CTRL by whether its comparator is its writer's and whether a capture is busy; a sample by whether its
write is allowed; a record by which copy counts. -/
theorem burnishCapture : Obligations.BurnishCapture := by
  refine ⟨?starts, ?waits, ?foreign, ?busy, ?abortWaiting, ?abortRunning, ?stored, ?denied, ?ended, ?saveNow, ?mapWrite, ?trimSave⟩
  case starts =>
    intro s m t src lc h hb
    obtain ⟨hcap, hdone, haddr⟩ := startCapture_captures t.val (acceptCapture t.val src.val 0 lc.val (hostWake m.val s))
    obtain ⟨hbusy, hsrc, -⟩ := acceptCapture_fields (s := hostWake m.val s) (t := t.val) src.isLt lc.isLt 0
    have honly := startCapture_only t.val (acceptCapture t.val src.val 0 lc.val (hostWake m.val s))
    refine ⟨_, captureStart_starts h hb src lc, (honly (.reg .BURNISH_CAP_CTRL_BUSY) (by decide) ..).trans hbusy, hcap,
      (honly (.reg .BURNISH_CAP_CTRL_CAP_SRC) (by decide) ..).trans hsrc, hdone, haddr.trans ?_⟩
    simp [acceptCapture, storeCapture]
  case waits =>
    intro s m t src lc h hb ho
    obtain ⟨hbusy, -, hlc⟩ := acceptCapture_fields (s := hostWake m.val s) (t := t.val) src.isLt lc.isLt 1
    exact ⟨_, captureStart_waits h hb src ho, hbusy, by simp, hlc⟩
  case foreign =>
    intro s m t src lc h ho
    refine ⟨_, captureStart_foreign h src ho, ?_, ?_, recorded_recordErr (hostWake_errors m.val) (by decide) m.isLt ..⟩
    · simp
    · simp
  case busy =>
    intro s m t src atLc lc h hb ho
    exact ⟨_, captureStart_busy h hb src ho, State.rd_wr_same .., hostWake_tiers ..⟩
  case abortWaiting =>
    exact fun s m t h hb hw => ⟨_, cmd_ok h .., captureAbort_waiting ((busy_hostWake ..).trans hb) (by rwa [hostWake_tier])⟩
  case abortRunning =>
    exact fun s m t h hb hw => ⟨_, cmd_ok h .., captureAbort_running ((busy_hostWake ..).trans hb) (by rwa [hostWake_tier])⟩
  case stored =>
    intro s t x hd hmore hin hallowed hp hc hi
    obtain ⟨hstored, hkept⟩ := storeSample_memory (x := x) hc hp
    refine ⟨_, act_on hd hmore _, ?_⟩
    rw [captureSample_stores hin hallowed]
    exact ⟨hstored, by simp [storeSample], storeSample_counts hmore hi, hkept⟩
  case denied =>
    intro s t x hd hmore hdenied
    refine ⟨_, act_on hd hmore _, ?_⟩
    rw [captureSample_denied hdenied]
    obtain ⟨hbusy, hcap, hraised⟩ := endCapture_ends t.val
      (recordErr .burnish 0 errRegionDenied 5 true 0 (denyMem 5 (s.tier t.val).capAddr 4 true s))
    refine ⟨(endCapture_only _ _ .mem (by decide)).trans (by simp), hbusy, hcap, hraised, ?_⟩
    have hrecord := recorded_recordErr (p := .burnish) (n := 0) (code := errRegionDenied) (m := 5)
      (s := denyMem 5 (s.tier t.val).capAddr 4 true s) (fun _ _ _ _ _ => rfl) (by decide) (by decide) true 0
    exact (hrecord.from (denyMem_burnish ..)).stays (endCapture_errors _ _)
  case ended => exact fun s t hd hc hmore => ⟨_, act_on hd ⟨hc, hmore⟩ _, endCapture_ends ..⟩
  case saveNow => exact fun s m h => ⟨_, cmd_ok h .., saveNow_asks _⟩
  case mapWrite =>
    intro s t hd hq hdue
    refine ⟨_, act_on hd ⟨hq, hdue⟩ _, ?_, ?_, raise_raw .., writeMap_copies ..⟩
    · rw [writeMap_tier]
      rfl
    · rw [writeMap_tier]
      rfl
  case trimSave => exact fun s hd hq hdue => ⟨_, act_on hd ⟨hq, hdue⟩ _, saveTrims_saves s⟩

end Sys2Proof.Machine
end

section
/-! PROOFS. Lines of the Harness that fire, merge, suppress, remember, overrun, storm and are armed again (R242 to R261, R270), and the
statement about them. -/

namespace Sys2Proof.Machine

-- One declaration at a time: the memory limit counts the stack of every thread that elaborates one.
set_option Elab.async false

/-! ### Lines, pins and capture units under the shared operations -/

section
variable (s : State)

@[simp] theorem wr_line (r : Reg) (v i x u l : Nat) : (s.wr r v i x u).line l = s.line l := rfl
@[simp] theorem wr_capu (r : Reg) (v i x u k : Nat) : (s.wr r v i x u).capu k = s.capu k := rfl
@[simp] theorem inc_line (r : Reg) (i x u l : Nat) : (s.inc r i x u).line l = s.line l := rfl
@[simp] theorem wake_line (k l : Nat) : (wake k s).line l = s.line l := congrArg (Store.get _ · l) (wake_lines s k)
@[simp] theorem raise_capu (p : Page) (n b k : Nat) : (raise p n b s).capu k = s.capu k :=
  congrArg (Store.get _ · k) (raise_capus s p n b)

end

section
variable {k : List Part} {s t : State} (h : OnlyChanges k s t)
include h

theorem line_of_only (hk : .lines ∉ k) (l : Nat) : t.line l = s.line l := congrArg (Store.get _ · l) (h _ hk)

theorem pin_of_only (hk : .pins ∉ k) (i : Nat) : t.pin i = s.pin i := congrArg (Store.get _ · i) (h _ hk)

theorem capu_of_only (hk : .capus ∉ k) (u : Nat) : t.capu u = s.capu u := congrArg (Store.get _ · u) (h _ hk)

theorem lineConsumer_of_only (hk : .reg .HARNESS_LINE_CFG_DST ∉ k) (l : Nat) : lineConsumer t l = lineConsumer s l :=
  congrArg consumerOf (h _ hk 0 l 0)

theorem lineHold_of_only (h1 : .reg .HARNESS_LINE_CFG_SVC ∉ k) (h2 : .reg .HARNESS_SVC_CTL_FORCE_HOLD ∉ k) (l : Nat) :
    lineHold t l = lineHold s l := by
  rw [lineHold, h _ h1, h _ h2, lineHold]

/-- The record of a firing is that of its count, its slots and the edges of its pins. -/
theorem capRecord_of_only (hn : .now ∉ k) (hp : .pins ∉ k) (hr : .reg .HARNESS_LINE_SRC_SLOT ∉ k) (l slots : Nat) :
    capRecord t l slots = capRecord s l slots := by
  have hnow : t.now = s.now := h .now hn
  have hslot : ∀ i x u, t.rd .HARNESS_LINE_SRC_SLOT i x u = s.rd .HARNESS_LINE_SRC_SLOT i x u := h (.reg _) hr
  have hstamps : patStamps t l slots = patStamps s l slots := by simp only [patStamps, hslot, pin_of_only h hp]
  rw [capRecord, hstamps, hnow, capRecord]

end

/-! ### A line considers the presentations of its tick (R242, R260) -/

/-- The slots that present in this tick, as LAST_SLOTS shows them. -/
abbrev slotSet (s : State) (l : Nat) : Nat := (presentingSlots s l).foldl (fun n j => n + 2 ^ j) 0

/-- The line has counted the presentations of this tick and need not consider them again. -/
def look (l : Nat) (s : State) : State :=
  s.setLine l { s.line l with
    seen := s.osc + 1, seenLen := s.presented.length, count := (s.line l).count + (presentingSlots s l).length }

/-- The line has met them by its firing logic. -/
def met (l : Nat) (s : State) : State := meet l (slotSet s l) (presentingSlots s l).length (look l s)

/-- The count of line l reaches its threshold in this tick. -/
abbrev Storms (s : State) (l : Nat) : Prop :=
  (stormInEffect s l).1 ≠ 0 ∧ (stormInEffect s l).1 ≤ (s.line l).count + (presentingSlots s l).length

/-- Line l is muted. -/
def mute (l : Nat) (s : State) : State := raiseFor .harness 0 1 l (s.wr .HARNESS_LINE_STAT_STORM 1 0 l)

theorem lineTick_eq (l : Nat) (s : State) : lineTick l s = if Storms s l then mute l (met l s) else met l s := rfl

/-- What muting changes. -/
def muteParts : List Part := events ++ [.reg .HARNESS_LINE_STAT_STORM]

theorem lineTick_only (l : Nat) (s : State) : OnlyChanges muteParts (met l s) (lineTick l s) := by
  have hrefl := Keeps.refl (mask muteParts) (met l s)
  rw [lineTick_eq]
  exact (Keeps.ite (raiseFor_keeps (wr_keeps hrefl (.of_beq (by decide +kernel)) ..) (.of_beq (by decide +kernel)) ..) hrefl).only

theorem Raised.mute {t : State} {p : Page} {n b : Nat} (h : Raised t p n b) (l : Nat) : Raised (mute l t) p n b := by
  have hstored : Raised (t.wr .HARNESS_LINE_STAT_STORM 1 0 l) p n b := (State.rd_wr_reg _ (by decide) ..).trans h
  exact hstored.raise .harness 0 1

theorem Raised.lineTick {s : State} {l : Nat} {p : Page} {n b : Nat} (h : Raised (met l s) p n b) : Raised (lineTick l s) p n b := by
  rw [lineTick_eq]
  split
  · exact h.mute l
  · exact h

theorem lineFire_ticks {s : State} {l : Line} (hd : s.dev = .up) (hl : lineLive s l.val = true) (hp : presentingSlots s l.val ≠ []) :
    exec (.lineFire l) s = .next (lineTick l.val s) := act_on hd ⟨hl, hp⟩ _

/-! ### Firing, merging and suppression (R243, R244) -/

/-- Line l has fired and counted it; its event has not gone on yet. -/
def fired (l slots n : Nat) (s : State) : State :=
  let t := ((s.setLine l { s.line l with firedAt := some s.osc }).wr .HARNESS_LINE_STAT_LAST_SLOTS slots 0 l).inc
    .HARNESS_LCNT_FIRED_FIRED 0 l
  if 2 ≤ n then t.inc .HARNESS_LCNT_MERGE_COINCIDENT 0 l else t

section
variable {s : State} {l slots n : Nat}

theorem meet_fires (hf : (s.line l).firedAt = none) : meet l slots n s = fireEvent l slots (fired l slots n s) := by
  rw [meet, hf]
  rfl

theorem meet_merges (hf : (s.line l).firedAt = some s.osc) :
    OnlyChanges (fields [.HARNESS_LINE_STAT_LAST_SLOTS, .HARNESS_LCNT_MERGE_COINCIDENT]) s (meet l slots n s) ∧
      (meet l slots n s).rd .HARNESS_LINE_STAT_LAST_SLOTS 0 l = (s.rd .HARNESS_LINE_STAT_LAST_SLOTS 0 l ||| slots) % 2 ^ 8 := by
  have hstored := wr_keeps (.refl (mask (fields [.HARNESS_LINE_STAT_LAST_SLOTS, .HARNESS_LCNT_MERGE_COINCIDENT])) s)
    (r := .HARNESS_LINE_STAT_LAST_SLOTS) (.of_beq (by decide +kernel)) (s.rd .HARNESS_LINE_STAT_LAST_SLOTS 0 l ||| slots) 0 l 0
  rw [meet, hf]
  simp only [if_true]
  split
  · exact ⟨(inc_keeps hstored (.of_beq (by decide +kernel)) ..).only, (State.rd_inc_reg (by decide) ..).trans (State.rd_wr_same ..)⟩
  · exact ⟨hstored.only, State.rd_wr_same ..⟩

theorem meet_suppresses (hf : (s.line l).firedAt ≠ none) (hne : (s.line l).firedAt ≠ some s.osc) :
    meet l slots n s = s.wr .HARNESS_LCNT_MERGE_SUPPRESSED (satAdd 16 (s.rd .HARNESS_LCNT_MERGE_SUPPRESSED 0 l) n) 0 l := by
  obtain ⟨f, hf⟩ := Option.ne_none_iff_exists'.mp hf
  rw [meet, hf]
  exact if_neg (fun e : f = s.osc => hne (hf.trans (congrArg some e)))

/-- In D0 the event of a firing goes on to the consumer. -/
theorem fireEvent_passes (h0 : s.rd .POWER_STATUS_DSTATE = 0) (hc : lineConsumer s l ≠ .none) :
    fireEvent l slots s = passEvent l (capRecord s l slots) (wake 2 s) := by
  simp only [fireEvent, if_neg hc]
  exact if_pos ((wake_rd s (by decide) (by decide) (by decide) (by decide) ..).trans h0)

theorem look_line : ((look l s).line l).firedAt = (s.line l).firedAt := by simp [look]

theorem fired_line : ((fired l slots n s).line l).firedAt = some s.osc := by
  unfold fired
  split <;> simp

theorem fired_counts : (fired l slots n s).rd .HARNESS_LCNT_FIRED_FIRED 0 l =
    satAdd (Reg.width .HARNESS_LCNT_FIRED_FIRED) (s.rd .HARNESS_LCNT_FIRED_FIRED 0 l) 1 := by
  unfold fired
  split <;> simp [State.rd_inc_same]

end

/-- The state that meets the event of a firing line: counted, and awake where it was not. -/
def firedAwake (l : Nat) (s : State) : State := wake 2 (fired l (slotSet s l) (presentingSlots s l).length (look l s))

/-- What a line changes before its event goes on. -/
def firedParts : List Part :=
  wakes ++ fields [.HARNESS_LINE_STAT_LAST_SLOTS, .HARNESS_LCNT_FIRED_FIRED, .HARNESS_LCNT_MERGE_COINCIDENT] ++ [.lines]

theorem fired_keeps {m : Nat} {s0 s : State} (h : Keeps m s0 s) (hw : Within firedParts m) (l slots n : Nat) :
    Keeps m s0 (fired l slots n s) := by
  have hline := State.setLine_keeps h (.trans (Eq.refl _) hw) l { s.line l with firedAt := some s.osc }
  have hcount : Keeps m s0 (((s.setLine l { s.line l with firedAt := some s.osc }).wr .HARNESS_LINE_STAT_LAST_SLOTS slots 0 l).inc
      .HARNESS_LCNT_FIRED_FIRED 0 l) := inc_keeps (wr_keeps hline (.trans (Eq.refl _) hw) ..) (.trans (Eq.refl _) hw) ..
  exact .ite (inc_keeps hcount (.trans (Eq.refl _) hw) ..) hcount

theorem fired_look_keeps (l slots n : Nat) (s : State) : Keeps (mask firedParts) s (fired l slots n (look l s)) :=
  fired_keeps (State.setLine_keeps (.refl _ s) (.of_beq (by decide +kernel)) ..) (.of_beq (by decide +kernel)) ..

theorem firedAwake_only (l : Nat) (s : State) : OnlyChanges firedParts s (firedAwake l s) :=
  (wake_keeps (fired_look_keeps l (slotSet s l) (presentingSlots s l).length s) (.of_beq (by decide +kernel)) 2).only

section
variable {s : State} {l : Nat}

theorem firedAwake_line : ((firedAwake l s).line l).firedAt = some s.osc := by
  rw [firedAwake, wake_line, fired_line]
  rfl

theorem firedAwake_counts : (firedAwake l s).rd .HARNESS_LCNT_FIRED_FIRED 0 l =
    satAdd (Reg.width .HARNESS_LCNT_FIRED_FIRED) (s.rd .HARNESS_LCNT_FIRED_FIRED 0 l) 1 := by
  rw [firedAwake, wake_rd _ (by decide) (by decide) (by decide) (by decide), fired_counts]
  rfl

/-- An armed line with a consumer that meets presentations in D0 passes its event on. -/
theorem met_fires (hf : (s.line l).firedAt = none) (h0 : s.rd .POWER_STATUS_DSTATE = 0) (hc : lineConsumer s l ≠ .none) :
    met l s = passEvent l (capRecord s l (slotSet s l)) (firedAwake l s) := by
  have honly := (fired_look_keeps l (slotSet s l) (presentingSlots s l).length s).only
  rw [met, meet_fires (look_line.trans hf),
    fireEvent_passes ((honly (.reg .POWER_STATUS_DSTATE) (by decide) ..).trans h0)
      (by rwa [lineConsumer_of_only honly (by decide)]),
    capRecord_of_only honly (by decide) (by decide) (by decide)]
  rfl

end

/-! ### What consumers make of an event (R250, R257, R258, R270) -/

section
variable {s : State} {l u : Nat} {r : CapRecord}

theorem passEvent_input {q e : Nat} (hc : lineConsumer s l = .input q e) :
    passEvent l r s = { s with evin := s.evin ++ [(q, e)] } := by
  simp only [passEvent, deliver, hc]

/-- An event for another consumer goes by whether that is busy. -/
theorem passEvent_other (hc : ∀ q e, lineConsumer s l ≠ .input q e) : passEvent l r s =
    if consumerBusy s (lineConsumer s l) then busyEvent l (some r) s else deliver l r s := by
  unfold passEvent
  split
  · rename_i h
    exact absurd h (hc _ _)
  · rfl

theorem passEvent_capu (hc : lineConsumer s l = .capu u) (hb : (s.capu u).length < 4) : passEvent l r s = capture u r s := by
  rw [passEvent_other (by simp [hc]), hc, if_neg (by simp [consumerBusy, hb]), deliver, hc]

theorem passEvent_capu_full (hc : lineConsumer s l = .capu u) (hb : (s.capu u).length = 4) :
    passEvent l r s = busyEvent l (some r) s := by
  rw [passEvent_other (by simp [hc]), hc, if_pos (by simp [consumerBusy, hb])]

theorem capture_capu : (capture u r s).capu u = s.capu u ++ [r] := by
  simp only [capture]
  split <;> simp

theorem deliver_capu (hc : lineConsumer s l = .capu u) : (deliver l r s).capu u = s.capu u ++ [r] := by
  rw [deliver, hc]
  exact capture_capu

theorem capture_only (u : Nat) (r : CapRecord) (s : State) :
    OnlyChanges (events ++ [.reg .HARNESS_CAPU_CFG_LEVEL, .capus]) s (capture u r s) :=
  (capture_keeps (.refl _ s) (.of_beq (by decide +kernel)) u r).only

theorem busyEvent_overruns (h : lineHold s l = false ∨ s.rd .HARNESS_LINE_STAT_PENDING 0 l = 1) (k : Option CapRecord) :
    busyEvent l k s = overrun l s := by
  refine if_neg ?_
  rintro ⟨hh, hp⟩
  rcases h with h | h
  · rw [h] at hh; exact nomatch hh
  · omega

theorem busyEvent_remembers (hh : lineHold s l = true) (hp : s.rd .HARNESS_LINE_STAT_PENDING 0 l = 0) (k : Option CapRecord) :
    OnlyChanges [.reg .HARNESS_LINE_STAT_PENDING, .lines] s (busyEvent l k s) ∧
      (busyEvent l k s).rd .HARNESS_LINE_STAT_PENDING 0 l = 1 := by
  rw [busyEvent, if_pos ⟨hh, hp⟩]
  refine ⟨(State.setLine_keeps (wr_keeps (.refl _ s) (.of_beq (by decide +kernel)) ..) (.of_beq (by decide +kernel)) ..).only, ?_⟩
  rw [State.setLine_rd, State.rd_wr_same]
  rfl

theorem overrun_raises : Raised (overrun l s) .harness 0 0 := raise_raw ..

/-- The overrun of a capture unit: its flag and the line's count. -/
theorem overrun_capu (hc : lineConsumer s l = .capu u) : (overrun l s).capus = s.capus ∧
    (overrun l s).rd .HARNESS_CAPU_CFG_OVR 0 u = 1 ∧ (overrun l s).rd .HARNESS_LCNT_OVR_OVERRUN 0 l =
      satAdd (Reg.width .HARNESS_LCNT_OVR_OVERRUN) (s.rd .HARNESS_LCNT_OVR_OVERRUN 0 l) 1 := by
  simp only [overrun, flagOverrun, hc]
  refine ⟨raise_capus .., ?_, ?_⟩
  · rw [raise_rd _ (by decide) (by decide), State.rd_wr_same]
    rfl
  · rw [raise_rd _ (by decide) (by decide), State.rd_wr_reg _ (by decide), State.rd_inc_same]

end

/-! ### A firing line and its consumer -/

section
variable {s : State} {l : Nat} (hf : (s.line l).firedAt = none) (h0 : s.rd .POWER_STATUS_DSTATE = 0)
include hf h0

/-- A Stitcher input is sent the event. -/
theorem met_sends {q e : Nat} (hc : lineConsumer s l = .input q e) :
    met l s = { firedAwake l s with evin := (firedAwake l s).evin ++ [(q, e)] } := by
  rw [met_fires hf h0 (by rw [hc]; exact nofun),
    passEvent_input ((lineConsumer_of_only (firedAwake_only l s) (by decide) l).trans hc)]

/-- A capture unit that is not busy records the firing. -/
theorem met_records {u : Nat} (hc : lineConsumer s l = .capu u) (hb : (s.capu u).length < 4) :
    met l s = capture u (capRecord s l (slotSet s l)) (firedAwake l s) := by
  have honly := firedAwake_only l s
  rw [met_fires hf h0 (by rw [hc]; exact nofun),
    passEvent_capu ((lineConsumer_of_only honly (by decide) l).trans hc) (by rwa [capu_of_only honly (by decide)])]

/-- A busy one does not. -/
theorem met_finds_full {u : Nat} (hc : lineConsumer s l = .capu u) (hb : (s.capu u).length = 4) :
    met l s = busyEvent l (some (capRecord s l (slotSet s l))) (firedAwake l s) := by
  have honly := firedAwake_only l s
  rw [met_fires hf h0 (by rw [hc]; exact nofun),
    passEvent_capu_full ((lineConsumer_of_only honly (by decide) l).trans hc) (by rwa [capu_of_only honly (by decide)])]

end

/-! ### Storm windows and remembered events (R258, R260, R261) -/

theorem deliver_only (l : Nat) (r : CapRecord) (s : State) : OnlyChanges (events ++
    fields [.HARNESS_CAPU_CFG_LEVEL, .TBASE_GSTB_STAT_PENDING] ++ [.gstbs, .pins, .capus, .evin]) s (deliver l r s) :=
  (deliver_keeps (.refl _ s) (.of_beq (by decide +kernel)) l r).only

/-- Line l takes its present profile and starts its count anew, where the window is its own. -/
def windowStart (w l : Nat) (s : State) : State :=
  on ((stormInEffect s l).2 = w) (fun s => s.setLine l { s.line l with count := 0, prof := some (stormProfile s l) }) s

/-- A window that starts for one line leaves the registers and every other line alone. -/
theorem windowStart_apart {w l k : Nat} (hk : k ≠ l) (s : State) :
    (windowStart w k s).regs = s.regs ∧ (windowStart w k s).line l = s.line l := by
  unfold windowStart on
  split
  · exact ⟨rfl, State.line_setLine_ne _ hk _⟩
  · exact ⟨rfl, rfl⟩

theorem stormProfile_congr {s t : State} (h : t.regs = s.regs) (l : Nat) : stormProfile t l = stormProfile s l := by
  simp only [stormProfile, State.rd, h]

theorem windowStarts {w l : Nat} {s : State} (hl : l < 128) (hw : (stormInEffect s l).2 = w) :
    ((each (upTo 128) (windowStart w) s).line l).count = 0 ∧
      ((each (upTo 128) (windowStart w) s).line l).prof = some (stormProfile s l) := by
  obtain ⟨u, ⟨hregs, hline⟩, -, hown⟩ := each_own (R := fun a b => b.regs = a.regs ∧ b.line l = a.line l) (f := windowStart w)
    (fun _ => ⟨rfl, rfl⟩) (fun h k => ⟨k.1.trans h.1, k.2.trans h.2⟩) (x := l) (fun k hk t => windowStart_apart hk t)
    (mem_upTo.mpr hl) (upTo_nodup 128) s
  have hsame : stormInEffect u l = stormInEffect s l := congrArg (fun x : HarnessLine => x.prof.getD (0, 16)) hline
  rw [hown, windowStart, on_pos ((congrArg Prod.snd hsame).trans hw), State.line_setLine]
  exact ⟨rfl, congrArg some (stormProfile_congr hregs l)⟩

theorem ownsLine_hostWake (k l m : Nat) (s : State) : ownsLine (hostWake k s) l m = ownsLine s l m := by
  simp [ownsLine, lineHidden, secureMaster]

theorem writeLineStat_clears {s : State} {m l : Nat} (ho : ownsLine s l m = true) (hs : s.rd .HARNESS_LINE_STAT_STORM 0 l = 1) :
    writeLineStat m l (2 ^ 9) s =
      (s.wr .HARNESS_LINE_STAT_STORM 0 0 l).setLine l { s.line l with firedAt := none, count := 0 } := by
  have hstorm : bit (2 ^ 9) 9 = 1 := by simp [bit]
  rw [writeLineStat, if_neg (by simp [ho]), if_pos ⟨hstorm, hs⟩]

/-- Settles O37: before its event goes on, a line that meets presentations changes its own record and counts alone; where it goes is the
consumer's, and muting comes after it. -/
theorem harnessFiring : Obligations.HarnessFiring := by
  refine ⟨?record, ?suppressed, ?merged, ?input, ?overrun, ?remembered, ?storm, ?rearm, ?window, ?cleared, ?delivered⟩
  case record =>
    intro s l u hd hl hp hf hc hb h0
    have hfired := firedAwake_only l.val s
    have hcapture := capture_only u (capRecord s l.val (slotSet s l.val)) (firedAwake l.val s)
    have hmute := lineTick_only l.val s
    rw [met_records hf h0 hc hb] at hmute
    refine ⟨_, lineFire_ticks hd hl hp, ?_, ?_, ?_⟩
    · rw [line_of_only hmute (by decide), line_of_only hcapture (by decide), firedAwake_line]
    · rw [hmute (.reg .HARNESS_LCNT_FIRED_FIRED) (by decide), hcapture (.reg .HARNESS_LCNT_FIRED_FIRED) (by decide), firedAwake_counts]
    · rw [capu_of_only hmute (by decide), capture_capu, capu_of_only hfired (by decide)]
  case suppressed =>
    intro s l hd hl hp hf hne
    have hmute := lineTick_only l.val s
    rw [met, meet_suppresses (by rwa [look_line]) (by rwa [look_line])] at hmute
    refine ⟨_, lineFire_ticks hd hl hp, ?_, ?_, hmute .capus (by decide), hmute .pins (by decide), hmute .evin (by decide),
      hmute .gstbs (by decide)⟩
    · rw [hmute (.reg .HARNESS_LCNT_MERGE_SUPPRESSED) (by decide), State.rd_wr_same]
      exact satAdd_mod ..
    · rw [hmute (.reg .HARNESS_LCNT_FIRED_FIRED) (by decide), State.rd_wr_reg _ (by decide)]
      rfl
  case merged =>
    intro s l hd hl hp hf
    have hmute := lineTick_only l.val s
    obtain ⟨honly, hslots⟩ := meet_merges (s := look l.val s) (slots := slotSet s l.val) (n := (presentingSlots s l.val).length)
      (look_line.trans hf)
    refine ⟨_, lineFire_ticks hd hl hp, ?_, ?_, ?_, ?_, ?_⟩
    · exact (hmute (.reg .HARNESS_LCNT_FIRED_FIRED) (by decide) ..).trans (honly (.reg .HARNESS_LCNT_FIRED_FIRED) (by decide) ..)
    · exact (hmute (.reg .HARNESS_LINE_STAT_LAST_SLOTS) (by decide) ..).trans hslots
    · exact (hmute .capus (by decide)).trans (honly .capus (by decide))
    · exact (hmute .pins (by decide)).trans (honly .pins (by decide))
    · exact (hmute .evin (by decide)).trans (honly .evin (by decide))
  case input =>
    intro s l q e hd hl hp hf hc h0
    have hmute := lineTick_only l.val s
    rw [met_sends hf h0 hc] at hmute
    refine ⟨_, lineFire_ticks hd hl hp, (congrArg _ (line_of_only hmute (by decide) _)).trans firedAwake_line, ?_⟩
    exact (hmute .evin (by decide)).trans (congrArg (· ++ [(q, e)]) (firedAwake_only l.val s .evin (by decide)))
  case overrun =>
    intro s l u hd hl hp hf hc hb h0 hh
    have hfired := firedAwake_only l.val s
    have hmet := (met_finds_full hf h0 hc hb).trans (busyEvent_overruns
      (by rwa [lineHold_of_only hfired (by decide) (by decide), hfired (.reg .HARNESS_LINE_STAT_PENDING) (by decide)]) _)
    obtain ⟨hcapus, hflag, hcount⟩ := overrun_capu ((lineConsumer_of_only hfired (by decide) l.val).trans hc)
    have hmute := lineTick_only l.val s
    rw [hmet] at hmute
    refine ⟨_, lineFire_ticks hd hl hp, ?_, ?_, ?_, Raised.lineTick (hmet ▸ overrun_raises)⟩
    · exact ((hmute .capus (by decide)).trans hcapus).trans (hfired .capus (by decide))
    · exact (hmute (.reg .HARNESS_CAPU_CFG_OVR) (by decide) ..).trans hflag
    · rw [hmute (.reg .HARNESS_LCNT_OVR_OVERRUN) (by decide), hcount, hfired (.reg .HARNESS_LCNT_OVR_OVERRUN) (by decide)]
  case remembered =>
    intro s l u hd hl hp hf hc hb h0 hh hn
    have hfired := firedAwake_only l.val s
    obtain ⟨hkept, hpending⟩ := busyEvent_remembers (by rwa [lineHold_of_only hfired (by decide) (by decide)])
      ((hfired (.reg .HARNESS_LINE_STAT_PENDING) (by decide) ..).trans hn) (some (capRecord s l.val (slotSet s l.val)))
    have hmute := lineTick_only l.val s
    rw [met_finds_full hf h0 hc hb] at hmute
    refine ⟨_, lineFire_ticks hd hl hp, ?_, ?_, ?_⟩
    · exact ((hmute .capus (by decide)).trans (hkept .capus (by decide))).trans (hfired .capus (by decide))
    · exact (hmute (.reg .HARNESS_LINE_STAT_PENDING) (by decide) ..).trans hpending
    · rw [hmute (.reg .HARNESS_LCNT_OVR_OVERRUN) (by decide), hkept (.reg .HARNESS_LCNT_OVR_OVERRUN) (by decide),
        hfired (.reg .HARNESS_LCNT_OVR_OVERRUN) (by decide)]
  case storm =>
    intro s l hd hl hp hthr hcount
    refine ⟨_, lineFire_ticks hd hl hp, ?_, ?_⟩
    · rw [lineTick_eq, if_pos ⟨hthr, hcount⟩, mute, raiseFor_rd _ (by decide) (by decide), State.rd_wr_same]
      rfl
    · rw [lineTick_eq, if_pos ⟨hthr, hcount⟩]
      exact raiseFor_raw ..
  case rearm =>
    intro s l n hd hf hdue
    refine ⟨_, act_on hd (by simp only [rearmDue, hf]; exact decide_eq_true hdue) _, ?_⟩
    simp
  case window => exact fun s w hd hw hnow => ⟨_, act_on hd ⟨hw, hnow⟩ _, fun l hl hin => windowStarts hl hin⟩
  case cleared =>
    intro s m l h ho hs
    have hclears := writeLineStat_clears ((ownsLine_hostWake m.val ..).trans ho) (by simpa using hs)
    refine ⟨_, (cmd_ok h ..).trans (congrArg _ hclears), ?_, ?_, ?_⟩
    · rw [State.setLine_rd, State.rd_wr_same, Nat.zero_mod]
    · rw [State.line_setLine]
    · rw [State.line_setLine]
  case delivered =>
    intro s l hd hp hb hh
    refine ⟨_, act_on hd ⟨hp, hb, hh⟩ _, ?_, fun u _ hc => ?_⟩
    · rw [deliver_only _ _ _ (.reg .HARNESS_LINE_STAT_PENDING) (by decide), State.setLine_rd, State.rd_wr_same]
      rfl
    · exact deliver_capu (by simpa [lineConsumer] using hc)

end Sys2Proof.Machine
end

section
/-! PROOFS. Settings of a line whose PENDING holds no bit (R253, R258), and the statement about claims and settings of lines. -/

namespace Sys2Proof.Machine

-- One declaration at a time: the memory limit counts the stack of every thread that elaborates one.
set_option Elab.async false

/-- A running device whose line 0 is claimed by master 0, with the value 2 in the one-bit field PENDING of that line. -/
def pendingTwo : State :=
  let s := { State.reset with dev := .up }.wr .HARNESS_LINE_CFG_CLAIMED 1
  { s with regs := Store.set 0 s.regs (key .HARNESS_LINE_STAT_PENDING 0 0 0) 2 }

theorem pendingTwo_owned : MayWrite pendingTwo .harness 0 (0 : Master) ∧ ownsLine pendingTwo 0 0 = true ∧
    bit (0x80000000#32 : Word).toNat 31 = 1 ∧ bit (0x80000000#32 : Word).toNat 9 = 0 ∧
    bit (0x80000000#32 : Word).toNat 11 = pendingTwo.rd .HARNESS_LINE_CFG_SEC ∧
    consumerTaken pendingTwo 0 0 (bits (0x80000000#32 : Word).toNat 8 0) = false := by decide +kernel

/-- What the write of LINE_CFG with EN = 0 leaves. -/
def pendingTwoWritten : State := writeLineCfg 0 0 0x80000000 (hostWake 0 pendingTwo)

theorem lineCfgWrite_pendingTwo : exec (.lineCfgWrite 0 0 0x80000000#32) pendingTwo = .next pendingTwoWritten :=
  cmd_ok pendingTwo_owned.1 ..

theorem pendingTwoWritten_pending : pendingTwoWritten.rd .HARNESS_LINE_STAT_PENDING = 2 := by decide +kernel

/-- Refutes O38, at the owner's write with EN = 0: the line forgets an event where PENDING is 1, and clears PENDING then alone, so a
PENDING of 2 stays. No run has such a state, since every write of a field takes its value modulo the field's width (`Inv`); but the
statement is about every state, and claims PENDING = 0 of it where the clauses of the release and of FORCE_HOLD claim PENDING ≠ 1. -/
theorem not_harnessOwnership : ¬Obligations.HarnessOwnership := by
  rintro ⟨-, hcfg, -⟩
  obtain ⟨hmay, howns, h31, h9, h11, hfree⟩ := pendingTwo_owned
  obtain ⟨t, ht, -, -, -, -, -, -, -, hdiscard⟩ := hcfg pendingTwo 0 0 0x80000000#32 hmay howns h31 (.inl h11) hfree
  obtain rfl : pendingTwoWritten = t := Host.Outcome.next.inj (lineCfgWrite_pendingTwo.symm.trans ht)
  have hnone := (hdiscard h9).1
  exact absurd (pendingTwoWritten_pending.symm.trans hnone) (by decide)

end Sys2Proof.Machine
end

section
/-! PROOFS. PAT pins and capture units (R263 to R272), and the statement about them. -/

namespace Sys2Proof.Machine

-- One declaration at a time: the memory limit counts the stack of every thread that elaborates one.
set_option Elab.async false

/-! ### Refused writes -/

/-- An error recorded on a page for a write of master m, which wakes the device where m is a host port. -/
theorem recorded_hostWake {p : Page} {n code : Nat} (hc : code < 256) (m : Master) (w : Bool) (o : Nat) (s : State) :
    Recorded s (recordErr p n code m.val w o (hostWake m.val s)) p n code m.val :=
  recorded_recordErr (hostWake_errors m.val) hc m.isLt w o

/-! ### Edges at an input (R263, R269, R271) -/

/-- The level that an edge puts on the ball of a pin. -/
def sense (i : Nat) (rising : Bool) (s : State) : State :=
  s.setPin i { s.pin i with ext := if pinDriven s i then (s.pin i).ext else rising }

/-- The elapsed half-tick of an edge that many ticks ago. -/
abbrev halfTick (s : State) (ago : Nat) (half : Bool) : Nat := 2 * (s.osc - ago) + (if half then 1 else 0)

section
variable {s : State} {i : Nat}

theorem passFilter_idle (hw : (s.pin i).wait = none) : passFilter i s = s := by rw [passFilter, hw]

theorem patEdge_unfiltered (hf : s.rd .PAT_PIN_CFG_FILT 0 i = 0) (hw : (s.pin i).wait = none) (rising half : Bool) (ago : Nat) :
    patEdge i rising half ago s = pinEdge i rising (halfTick s ago half) (s.now - ago, half) (sense i rising s) := by
  simp only [patEdge, hf, passFilter_idle hw, if_true]
  rfl

theorem pinEdge_presents {rising : Bool} {n : Nat} (stamp : Nat × Bool) (hb : bankOk s i = true)
    (he : edgeSelected (s.rd .PAT_PIN_CFG_EDGE 0 i) rising = true) (hn : (s.pin i).shown = 0 ∨ (s.pin i).shown + 1 ≤ n) :
    (pinEdge i rising n stamp s).presented = s.presented ++ [1 + i] ∧ ((pinEdge i rising n stamp s).pin i).edge = stamp := by
  simp only [pinEdge]
  rw [if_pos ⟨hb, he, hn⟩]
  refine ⟨rfl, ?_⟩
  show (State.pin (State.setPin _ i _) i).edge = stamp
  rw [State.pin_setPin]

theorem pinEdge_silent {rising : Bool} (n : Nat) (stamp : Nat × Bool)
    (h : bankOk s i = false ∨ edgeSelected (s.rd .PAT_PIN_CFG_EDGE 0 i) rising = false) :
    (pinEdge i rising n stamp s).presented = s.presented := by
  simp only [pinEdge]
  rw [if_neg]
  · rfl
  · rintro ⟨hb, he, -⟩
    rcases h with h | h
    · rw [h] at hb; exact nomatch hb
    · rw [h] at he; exact nomatch he

/-- A filtered edge of this tick waits for its time. -/
theorem patEdge_waits (hf : s.rd .PAT_PIN_CFG_FILT 0 i ≠ 0) (hw : (s.pin i).wait = none) (rising half : Bool) :
    patEdge i rising half 0 s = (sense i rising s).setPin i { (sense i rising s).pin i with
      wait := some (rising, halfTick s 0 half + s.rd .PAT_PIN_CFG_FILT 0 i, s.now, half) } := by
  simp only [patEdge, passFilter_idle hw, if_neg hf]
  rw [passFilter, State.pin_setPin]
  refine if_pos ?_
  show 2 * s.osc < 2 * (s.osc - 0) + _ + _
  omega

end

/-! ### PIN_CFG (R264, R266) -/

section
variable (i v : Nat) (s : State)

theorem setPinFields_fields : (setPinFields i v s).rd .PAT_PIN_CFG_FUNC 0 i = bits v 1 0 ∧
    (setPinFields i v s).rd .PAT_PIN_CFG_OMODE 0 i = bit v 2 ∧ (setPinFields i v s).rd .PAT_PIN_CFG_INVERT 0 i = bit v 3 ∧
    (setPinFields i v s).rd .PAT_PIN_CFG_ODRAIN 0 i = bit v 4 ∧ (setPinFields i v s).rd .PAT_PIN_CFG_DRIVE 0 i = bit v 5 ∧
    (setPinFields i v s).rd .PAT_PIN_CFG_EDGE 0 i = bits v 7 6 ∧ (setPinFields i v s).rd .PAT_PIN_CFG_FILT 0 i = bits v 11 8 ∧
    (setPinFields i v s).rd .PAT_PIN_CFG_CH 0 i = bits v 17 12 ∧ (setPinFields i v s).rd .PAT_PIN_CFG_GSTB 0 i = bits v 19 18 := by
  simp [setPinFields, Reg.width, Reg.info, bits, bit]

theorem setPinFields_only : OnlyChanges (fields [.PAT_PIN_CFG_FUNC, .PAT_PIN_CFG_OMODE, .PAT_PIN_CFG_INVERT, .PAT_PIN_CFG_ODRAIN,
    .PAT_PIN_CFG_DRIVE, .PAT_PIN_CFG_EDGE, .PAT_PIN_CFG_FILT, .PAT_PIN_CFG_CH, .PAT_PIN_CFG_GSTB]) s (setPinFields i v s) :=
  (setPinFields_keeps (.refl _ s) (.of_beq (by decide +kernel)) i v).only

theorem settlePin_pin : (settlePin i s).pin i = { s.pin i with level := claimLevel s i, pulsing := false, until_ := 0 } :=
  State.pin_setPin ..

end

/-- The level of R266 is that of the pin's function and channel. -/
theorem claimLevel_congr {s t : State} {i : Nat} (hf : t.rd .PAT_PIN_CFG_FUNC 0 i = s.rd .PAT_PIN_CFG_FUNC 0 i)
    (hc : t.rd .PAT_PIN_CFG_CH 0 i = s.rd .PAT_PIN_CFG_CH 0 i) (ho : t.outs = s.outs) : claimLevel t i = claimLevel s i := by
  simp only [claimLevel, pinFunc, hf, hc, State.out, ho]

/-- The word of a claim has the fields written, and CLAIMED. -/
theorem pinClaimWord_fields (v : Nat) : bit (v ||| 2 ^ 31) 31 = 1 ∧ bits (v ||| 2 ^ 31) 1 0 = bits v 1 0 ∧
    bit (v ||| 2 ^ 31) 2 = bit v 2 ∧ bit (v ||| 2 ^ 31) 3 = bit v 3 ∧ bits (v ||| 2 ^ 31) 7 6 = bits v 7 6 ∧
    bits (v ||| 2 ^ 31) 17 12 = bits v 17 12 := by
  have hlow : (v ||| 2 ^ 31) % 2 ^ 31 = v % 2 ^ 31 := by rw [Nat.or_mod_two_pow, Nat.mod_self, Nat.or_zero]
  have hhigh : (v ||| 2 ^ 31).testBit 31 = true := by rw [Nat.testBit_or, Nat.testBit_two_pow_self, Bool.or_true]
  rw [Nat.testBit_eq_decide_div_mod_eq, decide_eq_true_eq] at hhigh
  generalize v ||| 2 ^ 31 = w at hlow hhigh
  simp only [bit, bits]
  omega

/-- PIN_CFG read and written back with another OMODE and INVERT. -/
def pinModeWord (s : State) (i o v : Nat) : Nat :=
  pinWord s i - 4 * s.rd .PAT_PIN_CFG_OMODE 0 i - 8 * s.rd .PAT_PIN_CFG_INVERT 0 i + 4 * o + 8 * v

/-- It has the pin's own other fields. -/
theorem pinModeWord_fields {s : State} (hi : Inv s) {i : Nat} (hc : s.rd .PAT_PIN_CFG_CLAIMED 0 i = 1) {o v : Nat} (ho : o < 2)
    (hv : v < 2) : bit (pinModeWord s i o v) 31 = 1 ∧ bits (pinModeWord s i o v) 1 0 = s.rd .PAT_PIN_CFG_FUNC 0 i ∧
      bit (pinModeWord s i o v) 2 = o ∧ bit (pinModeWord s i o v) 3 = v ∧
      bits (pinModeWord s i o v) 17 12 = s.rd .PAT_PIN_CFG_CH 0 i := by
  have h0 : s.rd .PAT_PIN_CFG_FUNC 0 i < 4 := rd_lt hi.2.2.1 ..
  have h4 : s.rd .PAT_PIN_CFG_ODRAIN 0 i < 2 := rd_lt hi.2.2.1 ..
  have h5 : s.rd .PAT_PIN_CFG_DRIVE 0 i < 2 := rd_lt hi.2.2.1 ..
  have h6 : s.rd .PAT_PIN_CFG_EDGE 0 i < 4 := rd_lt hi.2.2.1 ..
  have h8 : s.rd .PAT_PIN_CFG_FILT 0 i < 16 := rd_lt hi.2.2.1 ..
  have h12 : s.rd .PAT_PIN_CFG_CH 0 i < 64 := rd_lt hi.2.2.1 ..
  have h18 : s.rd .PAT_PIN_CFG_GSTB 0 i < 4 := rd_lt hi.2.2.1 ..
  have h24 : s.rd .PAT_PIN_CFG_OWNER 0 i < 32 := rd_lt hi.2.2.1 ..
  simp only [pinModeWord, pinWord, hc, bit, bits]
  omega

section
variable {s : State} {m i v : Nat}

theorem writePinCfg_takes (hv : bit v 31 = 1) (hc : s.rd .PAT_PIN_CFG_CLAIMED 0 i = 0) : writePinCfg m i v s = takePin m i v s := by
  simp [writePinCfg, hv, hc]

theorem writePinCfg_foreign (hv : bit v 31 = 1) (hc : s.rd .PAT_PIN_CFG_CLAIMED 0 i = 1) (ho : s.rd .PAT_PIN_CFG_OWNER 0 i ≠ m) :
    writePinCfg m i v s = actionErr .pat 0 errPinBusy m s := by
  simp [writePinCfg, hv, hc, ho]

section
variable (hc : s.rd .PAT_PIN_CFG_CLAIMED 0 i = 1) (ho : s.rd .PAT_PIN_CFG_OWNER 0 i = m)
include hc ho

theorem writePinCfg_frees (hv : bit v 31 = 0) (hn : pinNamed s i = false) : writePinCfg m i v s = freePin i s := by
  simp [writePinCfg, hv, hc, ho, hn]

theorem writePinCfg_named (hv : bit v 31 = 0) (hn : pinNamed s i = true) : writePinCfg m i v s = actionErr .pat 0 errPinBusy m s := by
  simp [writePinCfg, hv, hc, ho, hn]

/-- A write that keeps the function stores the fields, and starts the pin anew where OMODE or INVERT changes. -/
theorem writePinCfg_stores (hv : bit v 31 = 1) (hf : bits v 1 0 = pinFunc s i) :
    (∀ r x, (writePinCfg m i v s).rd r 0 x = (setPinFields i v s).rd r 0 x) ∧
      (bit v 2 ≠ s.rd .PAT_PIN_CFG_OMODE 0 i ∨ bit v 3 ≠ s.rd .PAT_PIN_CFG_INVERT 0 i →
        writePinCfg m i v s = settlePin i (setPinFields i v s)) := by
  have hwrite : writePinCfg m i v s =
      if bit v 2 ≠ s.rd .PAT_PIN_CFG_OMODE 0 i ∨ bit v 3 ≠ s.rd .PAT_PIN_CFG_INVERT 0 i then settlePin i (setPinFields i v s)
      else if pinFunc s i = 2 then
        (setPinFields i v s).setPin i { (setPinFields i v s).pin i with level := claimLevel (setPinFields i v s) i }
      else setPinFields i v s := by
    simp [writePinCfg, hv, hc, ho, hf]
  refine ⟨fun r x => ?_, fun hagain => hwrite.trans (if_pos hagain)⟩
  rw [hwrite]
  split
  · rfl
  · split <;> rfl

end

end

/-- A write of OMODE and INVERT keeps the function and the channel, and starts the pin anew where one of the two changes. -/
theorem writePinMode_changes {s : State} {m i o v : Nat} (hi : Inv s) (hc : s.rd .PAT_PIN_CFG_CLAIMED 0 i = 1)
    (hm : s.rd .PAT_PIN_CFG_OWNER 0 i = m) (ho : o < 2) (hv : v < 2) :
    (writePinCfg m i (pinModeWord s i o v) s).rd .PAT_PIN_CFG_OMODE 0 i = o ∧
      (writePinCfg m i (pinModeWord s i o v) s).rd .PAT_PIN_CFG_INVERT 0 i = v ∧
      (writePinCfg m i (pinModeWord s i o v) s).rd .PAT_PIN_CFG_FUNC 0 i = s.rd .PAT_PIN_CFG_FUNC 0 i ∧
      (writePinCfg m i (pinModeWord s i o v) s).rd .PAT_PIN_CFG_CH 0 i = s.rd .PAT_PIN_CFG_CH 0 i ∧
      (o ≠ s.rd .PAT_PIN_CFG_OMODE 0 i ∨ v ≠ s.rd .PAT_PIN_CFG_INVERT 0 i →
        ((writePinCfg m i (pinModeWord s i o v) s).pin i).pulsing = false ∧
        ((writePinCfg m i (pinModeWord s i o v) s).pin i).level = claimLevel s i) := by
  obtain ⟨h31, h0, h2, h3, h12⟩ := pinModeWord_fields hi hc ho hv
  obtain ⟨hstored, hanew⟩ := writePinCfg_stores hc hm h31 h0
  rw [h2, h3] at hanew
  obtain ⟨hfunc, homode, hinvert, -, -, -, -, hch, -⟩ := setPinFields_fields i (pinModeWord s i o v) s
  rw [h0] at hfunc
  rw [h2] at homode
  rw [h3] at hinvert
  rw [h12] at hch
  refine ⟨(hstored ..).trans homode, (hstored ..).trans hinvert, (hstored ..).trans hfunc, (hstored ..).trans hch, fun hne => ?_⟩
  rw [hanew hne, settlePin_pin]
  exact ⟨rfl, claimLevel_congr hfunc hch (setPinFields_only i _ s .outs (by decide))⟩

theorem takePin_fields {m : Master} (i v : Nat) (s : State) : (takePin m.val i v s).rd .PAT_PIN_CFG_CLAIMED 0 i = 1 ∧
    (takePin m.val i v s).rd .PAT_PIN_CFG_OWNER 0 i = m.val ∧
    (takePin m.val i v s).rd .PAT_PIN_CFG_FUNC 0 i = bits v 1 0 ∧ (takePin m.val i v s).rd .PAT_PIN_CFG_OMODE 0 i = bit v 2 ∧
    (takePin m.val i v s).rd .PAT_PIN_CFG_INVERT 0 i = bit v 3 ∧ (takePin m.val i v s).rd .PAT_PIN_CFG_EDGE 0 i = bits v 7 6 ∧
    (takePin m.val i v s).rd .PAT_PIN_CFG_CH 0 i = bits v 17 12 := by
  obtain ⟨hfunc, homode, hinvert, -, -, hedge, -, hch, -⟩ := setPinFields_fields i v s
  simp [takePin, settlePin, hfunc, homode, hinvert, hedge, hch, Reg.width, Reg.info]

theorem takePin_settles (m i v : Nat) (s : State) :
    ((takePin m i v s).pin i).level = claimLevel (takePin m i v s) i ∧ ((takePin m i v s).pin i).pulsing = false := by
  rw [takePin, settlePin_pin]
  exact ⟨rfl, rfl⟩

theorem freePin_clears (i : Nat) (s : State) : pinWord (freePin i s) i = 0 ∧ (freePin i s).rd .PAT_PIN_PULSE_PULSE 0 i = 1 := by
  obtain ⟨h0, h2, h3, h4, h5, h6, h8, h12, h18⟩ := setPinFields_fields i 0 s
  constructor
  · simp [pinWord, freePin, settlePin, h0, h2, h3, h4, h5, h6, h8, h12, h18, bits, bit]
  · simp [freePin, settlePin, Reg.width, Reg.info]

/-! ### Events at an output (R265) -/

theorem pinBusy_of_only {k : List Part} {s t : State} (h : OnlyChanges k s t)
    (hk : ∀ q ∈ [.reg .PAT_PIN_CFG_FUNC, .reg .PAT_PIN_CFG_OMODE, .pins, .osc], q ∉ k) (i : Nat) : pinBusy t i = pinBusy s i := by
  have hosc : t.osc = s.osc := h .osc (hk _ (by decide))
  have hfunc : t.rd .PAT_PIN_CFG_FUNC 0 i = s.rd .PAT_PIN_CFG_FUNC 0 i := h (.reg .PAT_PIN_CFG_FUNC) (hk _ (by decide)) ..
  have homode : t.rd .PAT_PIN_CFG_OMODE 0 i = s.rd .PAT_PIN_CFG_OMODE 0 i := h (.reg .PAT_PIN_CFG_OMODE) (hk _ (by decide)) ..
  rw [pinBusy, pinFunc, hfunc, homode, pin_of_only h (hk _ (by decide)), hosc, pinBusy, pinFunc]

section
variable {s : State} {l i : Nat}

/-- The event of a line that fires in D0 reaches the pin that it serves, where that is not busy. -/
theorem met_drives (hf : (s.line l).firedAt = none) (h0 : s.rd .POWER_STATUS_DSTATE = 0) (hc : lineConsumer s l = .pat i)
    (hb : pinBusy s i = false) : met l s = pinEvent i (firedAwake l s) := by
  have honly := firedAwake_only l s
  have hconsumer := (lineConsumer_of_only honly (by decide) l).trans hc
  have hidle : consumerBusy (firedAwake l s) (.pat i) = false := (pinBusy_of_only honly (by decide) i).trans hb
  rw [met_fires hf h0 (by rw [hc]; exact nofun), passEvent_other (by simp [hconsumer]), hconsumer, hidle, if_neg (by decide), deliver,
    hconsumer]

theorem pinBusy_idle (h : (s.pin i).pulsing = false) : pinBusy s i = false := by simp [pinBusy, h]

theorem pinBusy_toggle (h : s.rd .PAT_PIN_CFG_OMODE 0 i = 1) : pinBusy s i = false := by simp [pinBusy, h]

theorem pinEvent_pulses (hf : pinFunc s i = 1) (ho : s.rd .PAT_PIN_CFG_OMODE 0 i = 0) : ((pinEvent i s).pin i).level = true ∧
    ((pinEvent i s).pin i).pulsing = true ∧
    ((pinEvent i s).pin i).until_ = s.osc + max 1 (s.rd .PAT_PIN_PULSE_PULSE 0 i) + 1 := by
  rw [pinEvent, if_neg (by omega), if_neg (by omega), startPulse, State.pin_setPin]
  exact ⟨rfl, rfl, rfl⟩

theorem pinEvent_toggles (hf : pinFunc s i = 1) (ho : s.rd .PAT_PIN_CFG_OMODE 0 i = 1) :
    ((pinEvent i s).pin i).level = !(s.pin i).level := by
  rw [pinEvent, if_neg (by omega), if_pos ho, State.pin_setPin]

end

/-! ### Capture units (R270, R272) -/

section
variable {s : State} {m u : Nat}

theorem writeCapuCfg_claims (hc : s.rd .HARNESS_CAPU_CFG_CLAIMED 0 u = 0) :
    writeCapuCfg m u (2 ^ 31) s = (s.wr .HARNESS_CAPU_CFG_CLAIMED 1 0 u).wr .HARNESS_CAPU_CFG_OWNER m 0 u := by
  simp [writeCapuCfg, bit, hc]

theorem writeCapuCfg_foreign (hc : s.rd .HARNESS_CAPU_CFG_CLAIMED 0 u = 1) (ho : s.rd .HARNESS_CAPU_CFG_OWNER 0 u ≠ m) :
    writeCapuCfg m u (2 ^ 31) s = actionErr .harness 0 errPinBusy m s := by
  simp [writeCapuCfg, bit, hc, ho]

end

theorem capuInfoRead_reads {s : State} {m : Master} {u : Fin 16} (hd : s.dev = .up) (ha : accessOk s .harness 0 m.val false = true) :
    exec (.capuInfoRead m u) s =
      .next { (readCapuInfo m.val u.val s).2 with readData := leBytes 4 (readCapuInfo m.val u.val s).1 } :=
  act_gives hd (if_pos ha)

/-- The oldest record leaves its unit, and its count is the reader's. -/
theorem readCapuInfo_takes {s : State} {m u : Nat} {r : CapRecord} {rs : List CapRecord} (hr : s.capu u = r :: rs) (hl : rs.length < 4) :
    (readCapuInfo m u s).1 = r.frac + 2 ^ 8 * r.slots + 2 ^ 16 + (if r.pat then 2 ^ 17 else 0) ∧ (readCapuInfo m u s).2.capu u = rs ∧
      (readCapuInfo m u s).2.rd .HARNESS_CAPU_CFG_LEVEL 0 u = rs.length ∧
      (readCapuInfo m u s).2.rd .HARNESS_CAPU_TIME_LO_C_LO 0 m = r.count % 2 ^ 32 ∧
      (readCapuInfo m u s).2.rd .HARNESS_CAPU_TIME_HI_C_HI 0 m = r.count / 2 ^ 32 % 2 ^ 32 := by
  have hlevel : rs.length % 8 = rs.length := Nat.mod_eq_of_lt (by omega)
  simp [readCapuInfo, hr, Reg.width, Reg.info, hlevel]

theorem pinModeWrite_writes {s : State} {m : Master} (h : MayWrite s .pat 0 m) (i : Fin 32) (o v : Bool) :
    exec (.pinModeWrite m i o v) s = .next (writePinCfg m.val i.val
      (pinModeWord (hostWake m.val s) i.val (if o then 1 else 0) (if v then 1 else 0)) (hostWake m.val s)) := by
  refine (cmd_ok h ..).trans ?_
  cases o <;> cases v <;> rfl

/-- Settles O39: an edge by its filter, its bank and its selection; a write of PIN_CFG or CAPU_CFG by the claim it finds; an event by the
mode of its pin; a read by the records of its unit. -/
theorem pinsAndCaptureUnits : Obligations.PinsAndCaptureUnits := by
  refine ⟨?presented, ?silent, ?filtered, ?claimed, ?foreign, ?released, ?named, ?modes, ?pulse, ?toggle, ?pulseEnd, ?unitClaimed,
    ?unitForeign, ?record, ?empty⟩
  case presented =>
    intro s i rising half ago hd hb he hf hw hn
    refine ⟨_, act_gives hd (patEdge_unfiltered hf hw ..), pinEdge_presents _ hb he ?_⟩
    rwa [sense, State.pin_setPin]
  case silent =>
    intro s i rising half ago hd hf hw h
    exact ⟨_, act_gives hd (patEdge_unfiltered hf hw ..), pinEdge_silent _ _ h⟩
  case filtered =>
    intro s i rising half hd hf hw
    refine ⟨_, act_gives hd (patEdge_waits hf hw ..), rfl, ?_⟩
    rw [State.pin_setPin]
    rfl
  case claimed =>
    intro s m i v h hc
    obtain ⟨h31, hfunc, homode, hinvert, hedge, hch⟩ := pinClaimWord_fields v.toNat
    have hfields := takePin_fields (m := m) i.val (v.toNat ||| 2 ^ 31) (hostWake m.val s)
    rw [hfunc, homode, hinvert, hedge, hch] at hfields
    obtain ⟨hclaimed, howner, hfunc, homode, hinvert, hedge, hch⟩ := hfields
    exact ⟨_, (cmd_ok h ..).trans (congrArg _ (writePinCfg_takes h31 (by simpa using hc))), hclaimed, howner, hfunc, homode, hinvert,
      hedge, hch, takePin_settles ..⟩
  case foreign =>
    intro s m i v h hc ho
    obtain ⟨h31, -⟩ := pinClaimWord_fields v.toNat
    refine ⟨_, (cmd_ok h ..).trans (congrArg _ (writePinCfg_foreign h31 (by simpa using hc) (by simpa using ho))),
      recorded_hostWake (by decide) m .., ?_, ?_⟩
    · simp [actionErr]
    · simp [actionErr]
  case released =>
    intro s m i h hc ho hn
    exact ⟨_, (cmd_ok h ..).trans (congrArg _ (writePinCfg_frees (by simpa using hc) (by simpa using ho) (by decide)
      (by simpa [pinNamed] using hn))), freePin_clears ..⟩
  case named =>
    intro s m i h hc ho hn
    refine ⟨_, (cmd_ok h ..).trans (congrArg _ (writePinCfg_named (by simpa using hc) (by simpa using ho) (by decide)
      (by simpa [pinNamed] using hn))), ?_, recorded_hostWake (by decide) m ..⟩
    simp [pinWord, actionErr]
  case modes =>
    intro s m i o v h hc ho hi
    have hwake := hostWake_keeps (.refl (mask wakes) s) (.of_beq (by decide +kernel)) m.val
    obtain ⟨homode, hinvert, hfunc, hch, hanew⟩ := writePinMode_changes (m := m.val) (i := i.val) (o := if o then 1 else 0)
      (v := if v then 1 else 0) (hwake.inv hi) (by simpa using hc) (by simpa using ho) (by split <;> decide) (by split <;> decide)
    rw [hwake.only (.reg .PAT_PIN_CFG_FUNC) (by decide)] at hfunc
    rw [hwake.only (.reg .PAT_PIN_CFG_CH) (by decide)] at hch
    rw [hwake.only (.reg .PAT_PIN_CFG_OMODE) (by decide), hwake.only (.reg .PAT_PIN_CFG_INVERT) (by decide),
      claimLevel_congr (s := s) (hwake.only (.reg .PAT_PIN_CFG_FUNC) (by decide) ..) (hwake.only (.reg .PAT_PIN_CFG_CH) (by decide) ..)
        (hwake.only .outs (by decide))] at hanew
    exact ⟨_, pinModeWrite_writes h i o v, homode, hinvert, hfunc, hch,
      fun hne => hanew (.inl hne.symm), fun hne => hanew (.inr hne.symm)⟩
  case pulse =>
    intro s l i hd hl hp hf hc hfunc ho hidle h0
    have honly := firedAwake_only l.val s
    have hmute := lineTick_only l.val s
    rw [met_drives hf h0 hc (pinBusy_idle hidle)] at hmute
    obtain ⟨hlevel, hpulsing, huntil⟩ := pinEvent_pulses (s := firedAwake l.val s)
      ((honly (.reg .PAT_PIN_CFG_FUNC) (by decide) ..).trans hfunc) ((honly (.reg .PAT_PIN_CFG_OMODE) (by decide) ..).trans ho)
    rw [honly (.reg .PAT_PIN_PULSE_PULSE) (by decide), show (firedAwake l.val s).osc = s.osc from honly .osc (by decide)] at huntil
    refine ⟨_, lineFire_ticks hd hl hp, ?_⟩
    rw [pin_of_only hmute (by decide)]
    exact ⟨hlevel, hpulsing, huntil⟩
  case toggle =>
    intro s l i hd hl hp hf hc hfunc ho h0
    have honly := firedAwake_only l.val s
    have hmute := lineTick_only l.val s
    rw [met_drives hf h0 hc (pinBusy_toggle ho)] at hmute
    refine ⟨_, lineFire_ticks hd hl hp, ?_⟩
    rw [pin_of_only hmute (by decide), pinEvent_toggles ((honly (.reg .PAT_PIN_CFG_FUNC) (by decide) ..).trans hfunc)
      ((honly (.reg .PAT_PIN_CFG_OMODE) (by decide) ..).trans ho), pin_of_only honly (by decide)]
  case pulseEnd =>
    intro s i hd hp hdue
    refine ⟨_, act_on hd ⟨hp, hdue⟩ _, ?_⟩
    rw [State.pin_setPin]
    exact ⟨rfl, rfl⟩
  case unitClaimed =>
    intro s m u h hc
    refine ⟨_, (cmd_ok h ..).trans (congrArg _ (writeCapuCfg_claims (by simpa using hc))), ?_, ?_⟩
    · rw [State.rd_wr_reg _ (by decide), State.rd_wr_same]
      rfl
    · exact (State.rd_wr_same ..).trans (Nat.mod_eq_of_lt m.isLt)
  case unitForeign =>
    intro s m u h hc ho
    refine ⟨_, (cmd_ok h ..).trans (congrArg _ (writeCapuCfg_foreign (by simpa using hc) (by simpa using ho))), ?_,
      recorded_hostWake (by decide) m ..⟩
    simp [actionErr]
  case record =>
    intro s m u r rs hd ha hr hl
    obtain ⟨hword, hrest, hlevel, hlow, hhigh⟩ := readCapuInfo_takes (m := m.val) hr hl
    exact ⟨_, capuInfoRead_reads hd ha, hrest, hlevel, congrArg (leBytes 4) hword, hlow, hhigh⟩
  case empty =>
    intro s m u hd ha he
    refine ⟨_, capuInfoRead_reads hd ha, ?_⟩
    rw [readCapuInfo, he]

end Sys2Proof.Machine
end

section
/-! PROOFS. What stored words, errors in cells and the service of the accesses that waited leave alone of Quarry: its ports, bank queues and
banks, its stalls and its phases (R25, R279, R282, R289). -/

namespace Sys2Proof.Machine

-- One declaration at a time: the memory limit counts the stack of every thread that elaborates one.
set_option Elab.async false

/-- Quarry without its rows, the errors in its cells, and the failures and counts that come of them (R275, R289, R292). -/
def State.schedule (s : State) : Quarry :=
  { s.qry with rows := [], flaws := [], fails := [], ceHour := [], hourFrom := 0, ueCount := [] }

theorem schedule_congr {s t : State} (h : t.qry = s.qry) : t.schedule = s.schedule := by
  unfold State.schedule
  rw [h]

section
variable {s t : State} (h : t.schedule = s.schedule)
include h

theorem reqs_of_schedule : t.qry.reqs = s.qry.reqs := show t.schedule.reqs = s.schedule.reqs from congrArg Quarry.reqs h

theorem units_of_schedule : t.qry.units = s.qry.units := show t.schedule.units = s.schedule.units from congrArg Quarry.units h

theorem banks_of_schedule : t.qry.banks = s.qry.banks := show t.schedule.banks = s.schedule.banks from congrArg Quarry.banks h

end

/-- An operation whose footprint has not Quarry's engine. -/
theorem Keeps.schedule {m : Nat} {s t : State} (h : Keeps m s t) (hm : m.testBit Part.qry.bit = false) : t.schedule = s.schedule :=
  schedule_congr (h.same .qry hm)

theorem each_schedule {α : Type} {f : α → State → State} (hf : ∀ x t, (f x t).schedule = t.schedule) (xs : List α) (s : State) :
    (each xs f s).schedule = s.schedule :=
  each_rel (R := fun a b => b.schedule = a.schedule) (fun _ => rfl) (fun h k => k.trans h) (fun x _ t => hf x t) s

section
variable (s : State)

/-! ### Operations that change nothing of Quarry's engine -/

@[simp] theorem wr_schedule (r : Reg) (v i x u : Nat) : (s.wr r v i x u).schedule = s.schedule := rfl

@[simp] theorem inc_schedule (r : Reg) (i x u : Nat) : (s.inc r i x u).schedule = s.schedule := rfl

/-- Rows and errors in cells are no part of the schedule. -/
theorem setRows_schedule (rows : Store (Option RowMeta)) (flaws : Store Nat) :
    ({ s with qry := { s.qry with rows := rows, flaws := flaws } } : State).schedule = s.schedule := rfl

/-- Nor are failures and counts. -/
theorem setCounts_schedule (fails : List (Nat × Nat)) (hour : Store Nat) (start : Nat) (ue : Store Nat) : ({ s with qry :=
    { s.qry with fails := fails, ceHour := hour, hourFrom := start, ueCount := ue } } : State).schedule = s.schedule := rfl

@[simp] theorem raise_schedule (p : Page) (n b : Nat) : (raise p n b s).schedule = s.schedule := schedule_congr (raise_qry ..)

@[simp] theorem raiseHeld_schedule (p : Page) (n b : Nat) : (raiseHeld p n b s).schedule = s.schedule :=
  (raiseHeld_keeps (.refl _ s) (Within.self _) p n b).schedule (by decide +kernel)

@[simp] theorem recordErr_schedule (p : Page) (n c m : Nat) (w : Bool) (o : Nat) : (recordErr p n c m w o s).schedule = s.schedule :=
  schedule_congr (recordErr_qry ..)

@[simp] theorem wake_schedule (c : Nat) : (wake c s).schedule = s.schedule := schedule_congr (wake_qry ..)

@[simp] theorem retireRank_schedule (p : Nat) : (retireRank p s).schedule = s.schedule :=
  (retireRank_keeps (.refl _ s) (Within.self _) p).schedule (by decide +kernel)

@[simp] theorem targetFails_schedule (p : Nat) : (targetFails p s).schedule = s.schedule :=
  (targetFails_keeps (.refl _ s) (Within.self _) p).schedule (by decide +kernel)

@[simp] theorem benchWord_schedule (off : Nat) : (benchWord off s).schedule = s.schedule :=
  (benchWord_keeps (.refl _ s) (Within.self _) off).schedule (by decide +kernel)

@[simp] theorem setBytes_schedule (a : Nat) (bs : List Byte) : (s.setBytes a bs).schedule = s.schedule :=
  (State.setBytes_keeps (.refl _ s) (Within.self _) a bs).schedule (by decide +kernel)

@[simp] theorem touchBench_schedule (a n : Nat) : (touchBench a n s).schedule = s.schedule :=
  (touchBench_keeps (.refl _ s) (Within.self _) a n).schedule (by decide +kernel)

@[simp] theorem collision_schedule (m off : Nat) (lost : List Nat) : (collision m off lost s).schedule = s.schedule :=
  (collision_keeps (.refl _ s) (Within.self _) m off lost).schedule (by decide +kernel)

@[simp] theorem refuseAccess_schedule (x : BenchAccess) : (refuseAccess x s).schedule = s.schedule :=
  (refuseAccess_keeps (.refl _ s) (Within.self _) x).schedule (by decide +kernel)

@[simp] theorem countAge_schedule (p n : Nat) : (countAge p n s).schedule = s.schedule :=
  (countAge_keeps (.refl _ s) (Within.self _) p n).schedule (by decide +kernel)

@[simp] theorem refreshPort_schedule (p : Nat) : (refreshPort p s).schedule = s.schedule := rfl

@[simp] theorem drawPool_schedule (m : Nat) : (drawPool m s).schedule = s.schedule := by
  unfold drawPool
  split <;> rfl

/-! ### Errors in cells (R289, R292) -/

@[simp] theorem failRank_schedule (p c : Nat) : (failRank p c s).schedule = s.schedule := by
  unfold failRank
  split
  · split
    · rfl
    · split
      · exact setCounts_schedule ..
      · exact retireRank_schedule s p
  · exact retireRank_schedule s p
  · exact targetFails_schedule s p
  · rfl

@[simp] theorem corrected_schedule (p : Nat) : (corrected p s).schedule = s.schedule := by
  have hroll : (rollHour s).schedule = s.schedule := by
    unfold rollHour
    split
    · exact setCounts_schedule ..
    · rfl
  rw [corrected_eq, countCorrected]
  dsimp only
  split
  · rw [failRank_schedule, raiseHeld_schedule, inc_schedule]
    exact (setCounts_schedule ..).trans hroll
  · rw [raiseHeld_schedule, inc_schedule]
    exact (setCounts_schedule ..).trans hroll

@[simp] theorem clearFlaw_schedule (p v w : Nat) : (clearFlaw p v w s).schedule = s.schedule := setRows_schedule ..

@[simp] theorem putPoison_schedule (p v w : Nat) (b : Bool) : (putPoison p v w b s).schedule = s.schedule :=
  setRows_schedule ..

@[simp] theorem initRow_schedule (p row : Nat) : (initRow p row s).schedule = s.schedule := by
  unfold initRow
  split
  · rfl
  · exact setRows_schedule ..

@[simp] theorem recordUe_schedule (p v w : Nat) (a : Option Nat) : (recordUe p v w a s).schedule = s.schedule := by
  unfold recordUe
  rw [wake_schedule, raise_schedule, inc_schedule, wr_schedule, wr_schedule, wr_schedule, wr_schedule, putPoison_schedule]
  cases a <;> rfl

@[simp] theorem uncorrectable_schedule (p v w : Nat) (a : Option Nat) : (uncorrectable p v w a s).schedule = s.schedule := by
  have hrec : ∀ n, (recordUe p v w a { s with qry := { s.qry with ueCount := Store.set 0 s.qry.ueCount p n } }).schedule = s.schedule :=
    fun n => (recordUe_schedule _ p v w a).trans (setCounts_schedule ..)
  unfold uncorrectable
  dsimp only
  split
  · rfl
  · split
    · exact hrec _
    · split
      · exact (failRank_schedule ..).trans (hrec _)
      · split
        · exact (failRank_schedule ..).trans (hrec _)
        · exact hrec _

@[simp] theorem eccWord_schedule (p v w : Nat) (a : Option Nat) : (eccWord p v w a s).schedule = s.schedule := by
  unfold eccWord
  split
  · rfl
  · split
    · rfl
    · split
      · rfl
      · rw [corrected_schedule, clearFlaw_schedule]
    · exact uncorrectable_schedule ..

@[simp] theorem eccRead_schedule (a n : Nat) : (eccRead a n s).schedule = s.schedule := by
  have hword (b : Nat) (t : State) : (eccAt b t).schedule = t.schedule := by
    unfold eccAt
    split
    · rfl
    · exact eccWord_schedule ..
  unfold eccRead
  split
  · rfl
  · split
    · split
      · rfl
      · exact each_schedule (fun w t => benchWord_schedule t _) _ s
    · split
      · rfl
      · exact each_schedule (fun w t => hword _ t) _ s

/-! ### Words written and read (R278, R307) -/

@[simp] theorem storeEcc_schedule (a : Nat) : (storeEcc a s).schedule = s.schedule :=
  each_schedule (fun p t => by rw [clearFlaw_schedule, putPoison_schedule, initRow_schedule]) _ s

@[simp] theorem storeBench_schedule (a : Nat) : (storeBench a s).schedule = s.schedule := rfl

@[simp] theorem setPoison_schedule (a : Nat) (b : Bool) : (s.setPoison a b).schedule = s.schedule := rfl

@[simp] theorem writeWord_schedule (m a : Nat) (bs : List Byte) : (writeWord m a bs s).schedule = s.schedule := by
  unfold writeWord
  extract_lets part t
  have ht : t.schedule = s.schedule := by
    show (if part then _ else _ : State).schedule = _
    split
    · exact eccRead_schedule ..
    · rfl
  split
  · rw [recordErr_schedule, ht]
  · split
    · rw [storeBench_schedule, setPoison_schedule, setBytes_schedule, ht]
    · rw [setBytes_schedule, storeEcc_schedule, ht]

@[simp] theorem writeWords_schedule (m fuel a : Nat) (bs : List Byte) : (writeWords m fuel a bs s).schedule = s.schedule := by
  induction fuel generalizing a bs s with
  | zero => rfl
  | succ fuel ih =>
    unfold writeWords
    split
    · rfl
    · exact (ih ..).trans (writeWord_schedule ..)

@[simp] theorem storeMem_schedule (m a : Nat) (bs : List Byte) : (storeMem m a bs s).schedule = s.schedule := by
  unfold storeMem
  split
  · exact recordErr_schedule ..
  · rw [writeWords_schedule, touchBench_schedule]

@[simp] theorem loadMem_schedule (m a n : Nat) : (loadMem s m a n).2.schedule = s.schedule := by
  unfold loadMem
  split
  · exact recordErr_schedule ..
  · rw [eccRead_schedule, touchBench_schedule]

/-! ### Bench accesses (R309 to R316) -/

@[simp] theorem aliasWrite_schedule (x : BenchAccess) : (aliasWrite x s).schedule = s.schedule := by
  unfold aliasWrite
  dsimp only
  split
  · rw [recordErr_schedule, wr_schedule, eccRead_schedule]
  · rw [wr_schedule, wr_schedule, wr_schedule, storeBench_schedule, setBytes_schedule, eccRead_schedule]

@[simp] theorem markedWrite_schedule (x : BenchAccess) : (markedWrite x s).schedule = s.schedule := by
  unfold markedWrite
  dsimp only
  split
  · refine (each_schedule (fun b t => ?_) _ _).trans (writeWords_schedule ..)
    split <;> rfl
  · exact writeWords_schedule ..

@[simp] theorem collide_schedule (x y : BenchAccess) : (collide x y s).schedule = s.schedule := by
  unfold collide
  extract_lets dataA discarded s1 before s2
  have hx : s1.schedule = s.schedule := markedWrite_schedule s x
  have hboth : s2.schedule = s.schedule := by
    show (if _ then _ else _ : State).schedule = _
    split
    · split
      · exact (markedWrite_schedule ..).trans hx
      · exact (aliasWrite_schedule ..).trans hx
    · exact (markedWrite_schedule ..).trans hx
  split
  · exact hboth
  · exact (collision_schedule ..).trans hboth

@[simp] theorem serveAccess_schedule (x : BenchAccess) : (serveAccess x s).schedule = s.schedule := by
  have hwrite (t : State) : (benchWrite x t).schedule = t.schedule := by
    unfold benchWrite
    split
    · dsimp only
      split
      · exact collide_schedule ..
      · exact markedWrite_schedule ..
    · exact markedWrite_schedule ..
  unfold serveAccess
  dsimp only
  split
  · exact (eccRead_schedule ..).trans (touchBench_schedule ..)
  · split
    · rw [hwrite, touchBench_schedule]
    · rw [aliasWrite_schedule, touchBench_schedule]

@[simp] theorem benchArrive_schedule (x : BenchAccess) : (benchArrive x s).schedule = s.schedule := by
  unfold benchArrive
  split
  · exact refuseAccess_schedule ..
  · split
    · rfl
    · exact serveAccess_schedule ..

/-! ### Accesses that waited (R25, R281, R314) -/

@[simp] theorem busServe_schedule (x : BusWait) : (busServe x s).schedule = s.schedule := by
  have hstore (bs : List Byte) : (busStore x.master x.addr bs s).2.schedule = s.schedule := by
    unfold busStore
    dsimp only
    split
    · rfl
    · split
      · exact storeMem_schedule ..
      · exact serveAccess_schedule ..
  have hload : (busLoad x.master x.addr x.len s).2.2.schedule = s.schedule := by
    unfold busLoad
    split
    · rfl
    · exact loadMem_schedule ..
  unfold busServe
  split
  · exact hstore _
  · dsimp only
    rw [drawPool_schedule]
    split
    · exact (recordErr_schedule ..).trans hload
    · exact hload

@[simp] theorem serveWaiting_schedule (x : BusWait) : (serveWaiting x s).schedule = s.schedule := by
  unfold serveWaiting
  dsimp only
  split
  · rw [refreshPort_schedule, countAge_schedule, busServe_schedule]
  · exact busServe_schedule ..

/-- Quarry serves again: nothing waits for it any more, and its queues, banks and phases stand as they did. -/
theorem releaseWaiting_schedule : (releaseWaiting s).schedule = { s.schedule with waiting := [] } := by
  have hserved : (each s.qry.waiting serveWaiting { s with qry := { s.qry with waiting := [] } }).schedule =
    { s.schedule with waiting := [] } := each_schedule (fun x t => serveWaiting_schedule t x) _ _
  exact (each_schedule (fun x t => benchArrive_schedule t x) _ _).trans hserved

end

end Sys2Proof.Machine
end

section
/-! PROOFS. Requests, command slots, refresh and row-disturb protection of Quarry (R278 to R290), and the statement about them. -/

namespace Sys2Proof.Machine

-- One declaration at a time: the memory limit counts the stack of every thread that elaborates one.
set_option Elab.async false

/-! ### Ports and ages (R280, R281) -/

theorem raiseHeld_rd {r : Reg} (h1 : .EVT_RAW_RAW ≠ r) (h2 : .EVT_PEND_PEND ≠ r) (p : Page) (n b : Nat) (s : State) (i x u : Nat) :
    (raiseHeld p n b s).rd r i x u = s.rd r i x u := by
  unfold raiseHeld
  dsimp only
  split
  · exact raise_rd s h1 h2 ..
  · rfl

theorem refreshPort_rd {r : Reg} (h1 : .QUARRY_PORT_STAT_URG ≠ r) (h2 : .QUARRY_PORT_STAT_OUTSTANDING ≠ r) (p : Nat) (s : State)
    (i x u : Nat) : (refreshPort p s).rd r i x u = s.rd r i x u := by
  simp [refreshPort, h1, h2]

theorem refreshPort_qry (p : Nat) (s : State) : (refreshPort p s).qry = s.qry := rfl

theorem refreshPort_readData (p : Nat) (s : State) : (refreshPort p s).readData = s.readData := rfl

theorem refreshPort_byte (p : Nat) (s : State) (b : Nat) : (refreshPort p s).byte b = s.byte b := by
  simp [State.byte, State.offline, State.logicalRank, State.quarryAddr, State.logicalRanks, refreshPort]

theorem urgencyOf_le (age tgt : Nat) : urgencyOf age tgt ≤ 3 := by
  unfold urgencyOf
  split
  · exact Nat.le_refl 3
  · split
    · decide
    · split <;> decide

/-- The urgency that a port shows: the highest of what its bank queues hold and of what waits. -/
def portUrgency (p : Nat) (s : State) : Nat :=
  (s.qry.waiting.filter (fun x => portOf x.master == p)).foldl (fun m x => max m (urgencyOf (s.osc - x.at_) (targetTicks s p)))
    ((s.qry.units.filter (fun u => u.port == p)).foldl (fun m u => max m (urgency s u)) 0)

theorem portUrgency_le (p : Nat) (s : State) : portUrgency p s ≤ 3 := by
  have hunits : (s.qry.units.filter (fun u => u.port == p)).foldl (fun m u => max m (urgency s u)) 0 ≤ 3 :=
    List.foldlRecOn (motive := (· ≤ 3)) _ _ (Nat.zero_le 3) fun m hm u _ => Nat.max_le.mpr ⟨hm, urgencyOf_le ..⟩
  exact List.foldlRecOn (motive := (· ≤ 3)) _ _ hunits fun m hm x _ => Nat.max_le.mpr ⟨hm, urgencyOf_le ..⟩

theorem refreshPort_urgency (p : Nat) (s : State) : (refreshPort p s).rd .QUARRY_PORT_STAT_URG 0 p = portUrgency p s := by
  have hle := portUrgency_le p s
  refine (State.rd_wr_reg _ (by decide) ..).trans ((State.rd_wr_same ..).trans ?_)
  exact Nat.mod_eq_of_lt (show portUrgency p s < 4 by omega)

theorem refreshPort_outstanding (p : Nat) (s : State) : (refreshPort p s).rd .QUARRY_PORT_STAT_OUTSTANDING 0 p =
    min 255 ((s.qry.reqs.filter (fun r => r.port == p)).length + (s.qry.waiting.filter (fun x => portOf x.master == p)).length) := by
  refine (State.rd_wr_same ..).trans (Nat.mod_eq_of_lt ?_)
  exact Nat.lt_of_le_of_lt (Nat.min_le_left ..) (by decide)

theorem urgency_refreshPort (p : Nat) (s : State) (u : QUnit) : urgency (refreshPort p s) u = urgency s u := by
  simp [urgency, targetTicks, refreshPort]

theorem anyUrgent_refreshPort (p : Nat) (s : State) (n : Nat) : anyUrgent (refreshPort p s) n = anyUrgent s n :=
  congrArg (List.any s.qry.units) (funext fun u => congrArg (fun k => decide (n ≤ k)) (urgency_refreshPort p s u))

theorem abortEntry_rd {r : Reg} (h1 : .EVT_RAW_RAW ≠ r) (h2 : .EVT_PEND_PEND ≠ r) (h3 : .QUARRY_OP_STAT_ABORTS ≠ r) (s : State)
    (i x u : Nat) : (abortEntry s).rd r i x u = s.rd r i x u := by
  unfold abortEntry
  split
  · exact (raise_rd _ h1 h2 ..).trans (State.rd_wr_reg _ h3 ..)
  · rfl

theorem abortEntry_aborts {s : State} (hop : s.qry.op = .drain) (hf : s.qry.opForced = false) (hu : anyUrgent s 3 = true) :
    (abortEntry s).qry.op = .aborted ∧ Raised (abortEntry s) .quarry 0 6 := by
  rw [abortEntry, if_pos ⟨hop, hf, hu⟩]
  exact ⟨congrArg Quarry.op (raise_qry ..), raise_raw ..⟩

theorem countAge_misses (p n : Nat) (s : State) : (countAge p n s).rd .QUARRY_PORT_MISS_COUNT 0 p =
    if targetTicks s p < n then satAdd (Reg.width .QUARRY_PORT_MISS_COUNT) (s.rd .QUARRY_PORT_MISS_COUNT 0 p) 1
    else s.rd .QUARRY_PORT_MISS_COUNT 0 p := by
  unfold countAge
  dsimp only
  split
  · rw [raiseHeld_rd (by decide) (by decide)]
    refine (State.rd_wr_same ..).trans ((satAdd_mod ..).trans ?_)
    rw [State.rd_wr_reg _ (by decide)]
  · exact State.rd_wr_reg _ (by decide) ..

/-! ### Requests (R278, R279, R290) -/

/-- A request joins its port's queue, and its unit accesses join theirs: u is s with a write's bytes stored. -/
def enqueue (r : QReq) (s u : State) : State :=
  refreshPort r.port { u with qry := { u.qry with
    nextId := s.qry.nextId + 1, reqs := u.qry.reqs ++ [r], units := u.qry.units ++ splitUnits s r } }

theorem enqueue_byte (r : QReq) (s u : State) (b : Nat) : (enqueue r s u).byte b = u.byte b := refreshPort_byte ..

section
variable {s : State} {m a : Nat} (hheld : s.ben.held.any (fun y => y.master == m) = false)
include hheld

theorem acceptRequest_read {n : Nat} (ha : memAllowed s m .read a n = true) (hr : s.mustRetry a = false) (data : List Byte) :
    acceptRequest m false a n data s =
      enqueue ⟨s.qry.nextId, portOf m, m, false, a, n, s.osc, s.bytes a n, s.anyPoison a n⟩ s s := by
  unfold acceptRequest
  rw [settleHeld_unheld hheld]
  simp [ha, hr, enqueue]

theorem acceptRequest_write {data : List Byte} (ha : memAllowed s m .write a data.length = true) (hr : s.mustRetry a = false) (n : Nat) :
    acceptRequest m true a n data s =
      enqueue ⟨s.qry.nextId, portOf m, m, true, a, data.length, s.osc, [], false⟩ s (storeMem m a data s) := by
  unfold acceptRequest
  rw [settleHeld_unheld hheld]
  simp [ha, hr, enqueue, memWrite]

end

/-- A rejected access to Quarry's addresses is recorded on its page (R24, R27). -/
theorem denyMem_quarry {a n : Nat} (hlo : quarryBase ≤ a) (hhi : a + n ≤ firmwareEnd) (m : Nat) (write : Bool) (s : State) :
    denyMem m a n write s = recordErr .quarry 0 errRegionDenied m write 0 s := by
  have hall : (rangeFrom a n).all mapped = true := List.all_eq_true.mpr fun b hb => by
    rw [mem_rangeFrom] at hb
    unfold quarryBase firmwareEnd at *
    exact mapped_iff.mpr (by omega)
  rw [denyMem, if_pos hall, memPage, if_pos hlo]

/-- The region check comes before RETRY (R24, R298). -/
theorem acceptRequest_refused {s : State} {m a n len : Nat} {write : Bool} {data : List Byte}
    (hheld : s.ben.held.any (fun y => y.master == m) = false) (hn : (if write then data.length else len) = n) (hlo : quarryBase ≤ a)
    (hhi : a + n ≤ firmwareEnd) (h : memAllowed s m (if write then .write else .read) a n = false ∨ s.mustRetry a = true) :
    acceptRequest m write a len data s = recordErr .quarry 0
      (if memAllowed s m (if write then .write else .read) a n then errRetry else errRegionDenied) m write 0 s := by
  unfold acceptRequest
  rw [settleHeld_unheld hheld]
  dsimp only
  rw [hn]
  cases hallow : memAllowed s m (if write then .write else .read) a n with
  | false => exact denyMem_quarry hlo hhi m write s
  | true => exact if_pos (h.resolve_left (by simp [hallow]))

/-- What a refused request leaves. -/
theorem refused_records (s : State) {m : Nat} (hm : m < 32) (write : Bool) (c : Prop) [Decidable c] :
    (recordErr .quarry 0 (if c then errRetry else errRegionDenied) m write 0 s).mem = s.mem ∧
      (recordErr .quarry 0 (if c then errRetry else errRegionDenied) m write 0 s).qry = s.qry ∧
      Recorded s (recordErr .quarry 0 (if c then errRetry else errRegionDenied) m write 0 s) .quarry 0
        (if c then errRetry else errRegionDenied) m :=
  ⟨recordErr_mem .., recordErr_qry .., recorded_recordErr (fun _ _ _ _ _ => rfl) (by split <;> decide) hm ..⟩

/-! ### Banks and command slots (R282, R283, R287, R288) -/

theorem bankOf_setBank (r b : Nat) (v : Bank) (s : State) : bankOf (setBank r b v s) r b = v := Store.get_set_same ..

theorem bankOf_congr {s t : State} (h : t.qry.banks = s.qry.banks) (r b : Nat) : bankOf t r b = bankOf s r b := by
  unfold bankOf
  rw [h]

theorem commandSlot_none {s : State} {ch : Nat} (h : pick s ch = none) : commandSlot ch s = s := by
  rw [commandSlot, h]

theorem commandSlot_hit {s : State} {ch : Nat} {u : QUnit} (h : pick s ch = some u) (hr : rowHit s u = true) :
    commandSlot ch s = accessRow u s := by
  rw [commandSlot, h]
  exact if_pos hr

theorem commandSlot_miss {s : State} {ch : Nat} {u : QUnit} (h : pick s ch = some u) (hr : rowHit s u = false) :
    commandSlot ch s = activate u s := by
  rw [commandSlot, h]
  exact if_neg (by simp [hr])

/-- The read of a unit leaves the bank queues and the banks (R289, R290). -/
theorem readUnit_leaves (u : QUnit) (s : State) : (readUnit u s).qry.units = s.qry.units ∧ (readUnit u s).qry.banks = s.qry.banks := by
  have h := each_schedule (fun w t => eccWord_schedule t u.rank (unitV t u.addr) (wordOf t (64 * w)) (some (64 * w)))
    (rangeFrom (u.addr / 64) ((u.addr + u.len + 63) / 64 - u.addr / 64)) s
  have hunits := units_of_schedule h
  have hbanks := banks_of_schedule h
  exact ⟨hunits, hbanks⟩

/-- An access to an open row. -/
theorem accessRow_serves (u : QUnit) (s : State) : (accessRow u s).qry.units = s.qry.units.erase u ∧
    (bankOf (accessRow u s) u.rank u.bank).hits = (bankOf s u.rank u.bank).hits + 1 ∧
    (bankOf (accessRow u s) u.rank u.bank).last = s.osc := by
  have hread (t : State) : (if u.len = 0 ∨ t.offline u.addr then t else readUnit u t).qry.units = t.qry.units ∧
      (if u.len = 0 ∨ t.offline u.addr then t else readUnit u t).qry.banks = t.qry.banks := by
    split
    · exact ⟨rfl, rfl⟩
    · exact readUnit_leaves u t
  obtain ⟨hunits, hbanks⟩ := hread (setBank u.rank u.bank { bankOf s u.rank u.bank with
    hits := (bankOf s u.rank u.bank).hits + 1, last := s.osc
    row := if s.rd .QUARRY_QRY_CFG_PAGE_IDLE = 0 then none else (bankOf s u.rank u.bank).row } s)
  have hbank := (bankOf_congr (t := accessRow u s) hbanks u.rank u.bank).trans (bankOf_setBank ..)
  exact ⟨congrArg (List.erase · u) hunits, congrArg Bank.hits hbank, congrArg Bank.last hbank⟩

/-- The bank of the unit with its row opened and counted. -/
def opened (u : QUnit) (s : State) : Bank :=
  { ((bankOf s u.rank u.bank).count u.row).2 with
    row := some u.row, hits := 0, last := s.osc
    throttled := ((bankOf s u.rank u.bank).count u.row).2.throttled.map (fun t => if t.1 = u.port then (t.1, s.osc) else t) }

/-- The rotating pointer of the channel past the unit's bank (R282). -/
def rotated (u : QUnit) (s : State) : State :=
  { s with qry := { s.qry with ptr := Store.set 0 s.qry.ptr (u.rank / 2) ((bankPlace u + 1) % 32) } }

theorem activate_eq (u : QUnit) (s : State) : activate u s =
    if max 1 (s.rd .QUARRY_RD_CFG_RD_THR) ≤ ((bankOf s u.rank u.bank).count u.row).1 then mitigate u (opened u s) (rotated u s)
    else setBank u.rank u.bank (opened u s) (rotated u s) := rfl

theorem mitigate_opens (u : QUnit) (b : Bank) (s : State) : (mitigate u b s).qry.units = s.qry.units ∧
    (bankOf (mitigate u b s) u.rank u.bank).row = b.row := by
  have hq := raise_qry (((setBank u.rank u.bank { b with
    entries := b.entries.map (fun e => if e.1 = u.row then (e.1, b.floor) else e)
    mitigate := b.mitigate ++ [u.row]
    throttled := (b.throttled.filter (fun t => t.1 != u.port)) ++ [(u.port, s.osc)] } s).wr .QUARRY_RD_STAT_THROTTLED 1 0 0 u.port).wr
    .QUARRY_PORT_STAT_THROTTLED 1 0 u.port |>.inc .QUARRY_RD_STAT_EVENTS) .quarry 0 7
  have hbank := (bankOf_congr (t := mitigate u b s) (congrArg Quarry.banks hq) u.rank u.bank).trans (bankOf_setBank ..)
  have hunits := congrArg Quarry.units hq
  have hrow := congrArg Bank.row hbank
  exact ⟨hunits, hrow⟩

theorem mitigate_throttles (u : QUnit) (b : Bank) (s : State) : (mitigate u b s).rd .QUARRY_RD_STAT_THROTTLED 0 0 u.port = 1 ∧
    Raised (mitigate u b s) .quarry 0 7 ∧
    (mitigate u b s).rd .QUARRY_RD_STAT_EVENTS = satAdd (Reg.width .QUARRY_RD_STAT_EVENTS) (s.rd .QUARRY_RD_STAT_EVENTS) 1 := by
  refine ⟨?_, raise_raw .., ?_⟩
  · refine (raise_rd _ (by decide) (by decide) ..).trans ?_
    refine (State.rd_wr_reg _ (by decide) ..).trans ((State.rd_wr_reg _ (by decide) ..).trans ((State.rd_wr_same ..).trans rfl))
  · refine (raise_rd _ (by decide) (by decide) ..).trans ((State.rd_wr_same ..).trans ((satAdd_mod ..).trans ?_))
    rw [State.rd_wr_reg _ (by decide), State.rd_wr_reg _ (by decide)]
    rfl

/-- An access to a closed row opens it, and throttles its port where the count of the row has reached RD_THR. -/
theorem activate_opens (u : QUnit) (s : State) : (activate u s).qry.units = s.qry.units ∧
    (bankOf (activate u s) u.rank u.bank).row = some u.row ∧
    (max 1 (s.rd .QUARRY_RD_CFG_RD_THR) ≤ ((bankOf s u.rank u.bank).count u.row).1 →
      (activate u s).rd .QUARRY_RD_STAT_THROTTLED 0 0 u.port = 1 ∧ Raised (activate u s) .quarry 0 7 ∧
      (activate u s).rd .QUARRY_RD_STAT_EVENTS = satAdd (Reg.width .QUARRY_RD_STAT_EVENTS) (s.rd .QUARRY_RD_STAT_EVENTS) 1) := by
  rw [activate_eq]
  split
  · obtain ⟨hunits, hrow⟩ := mitigate_opens u (opened u s) (rotated u s)
    exact ⟨hunits, hrow, fun _ => mitigate_throttles u (opened u s) (rotated u s)⟩
  · rename_i hbelow
    exact ⟨rfl, congrArg Bank.row (bankOf_setBank ..), fun h => absurd h hbelow⟩

/-! ### Errors that come with a request (R289) -/

/-- The state with other errors in Quarry's cells. -/
def State.setFlaws (s : State) (f : Store Nat) : State := { s with qry := { s.qry with flaws := f } }

/-- The key of a word among the words with errors. -/
abbrev placeKey (x : EccPlace) : Nat := flawKey x.1.val x.2.1.val x.2.2.val

/-- An error of one grade in the cells of a word whose row is initialised. -/
def State.worsen (s : State) (grade : Nat) (f : Store Nat) (x : EccPlace) : Store Nat :=
  if rowReady s x.1.val (x.2.1.val / 7) then Store.set 0 f (placeKey x) (max (Store.get 0 f (placeKey x)) grade) else f

theorem addFlaws_eq (grade : Nat) (ws : List EccPlace) (s : State) (f : Store Nat) :
    addFlaws grade ws (s.setFlaws f) = s.setFlaws (ws.foldl (s.worsen grade) f) := by
  induction ws generalizing f with
  | nil => rfl
  | cons x ws ih =>
    have hstep : addFlaw grade x.1.val x.2.1.val x.2.2.val (s.setFlaws f) = s.setFlaws (s.worsen grade f x) := by
      have hready : rowReady (s.setFlaws f) x.1.val (x.2.1.val / 7) = rowReady s x.1.val (x.2.1.val / 7) := rfl
      unfold addFlaw State.worsen
      dsimp only
      rw [hready]
      split <;> rfl
    exact (congrArg (addFlaws grade ws) hstep).trans (ih _)

/-- No word gets better. -/
theorem le_worsen (s : State) (grade : Nat) (f : Store Nat) (x : EccPlace) (k : Nat) :
    Store.get 0 f k ≤ Store.get 0 (s.worsen grade f x) k := by
  unfold State.worsen
  split
  · by_cases hk : placeKey x = k
    · rw [hk, Store.get_set_same]
      exact Nat.le_max_left ..
    · rw [Store.get_set_ne _ _ _ hk]
  · exact Nat.le_refl _

theorem le_foldl_worsen (s : State) (grade : Nat) (ws : List EccPlace) (f : Store Nat) (k : Nat) :
    Store.get 0 f k ≤ Store.get 0 (ws.foldl (s.worsen grade) f) k := by
  induction ws generalizing f with
  | nil => exact Nat.le_refl _
  | cons x ws ih => exact Nat.le_trans (le_worsen s grade f x k) (ih _)

theorem foldl_worsen_reaches {s : State} {grade : Nat} {ws : List EccPlace} {x : EccPlace} (hx : x ∈ ws)
    (hr : rowReady s x.1.val (x.2.1.val / 7) = true) (f : Store Nat) :
    grade ≤ Store.get 0 (ws.foldl (s.worsen grade) f) (placeKey x) := by
  induction ws generalizing f with
  | nil => cases hx
  | cons y ws ih =>
    rcases List.mem_cons.mp hx with rfl | hx
    · refine Nat.le_trans ?_ (le_foldl_worsen s grade ws _ _)
      rw [State.worsen, if_pos hr, Store.get_set_same]
      exact Nat.le_max_right ..
    · exact ih hx _

/-- The errors in Quarry's cells after those that come with a request. -/
def State.flawsWith (s : State) (ce ue : List EccPlace) : Store Nat := ue.foldl (s.worsen 2) (ce.foldl (s.worsen 1) s.qry.flaws)

/-! ### The end of a request (R278 to R281, R290) -/

section
variable {s : State} {r : QReq} {dead : Option (Fin 8)} (hd : s.dev = .up) (hf : s.qry.reqs.find? (fun x => x.id == r.id) = some r)
include hd hf

theorem requestComplete_waits (ce ue : List EccPlace) (h : s.qry.units.any (fun u => u.id == r.id) = true ∨ readsBefore s r = true) :
    exec (.quarryRequestComplete r.id ce ue dead) s = .next s := by
  show execQuarryRequestComplete r.id ce ue dead s = .next s
  rw [execQuarryRequestComplete, act_up hd, hf]
  exact congrArg _ (if_pos h)

theorem requestComplete_ends (ce ue : List EccPlace) (hu : s.qry.units.any (fun u => u.id == r.id) = false)
    (hb : readsBefore s r = false) :
    exec (.quarryRequestComplete r.id ce ue dead) s = .next (completeRequest r dead (s.setFlaws (s.flawsWith ce ue))) := by
  show execQuarryRequestComplete r.id ce ue dead s = _
  rw [execQuarryRequestComplete, act_up hd, hf]
  refine congrArg _ ((if_neg (by simp [hu, hb])).trans (congrArg _ ?_))
  exact (congrArg (addFlaws 2 ue) (addFlaws_eq 1 ce s s.qry.flaws)).trans (addFlaws_eq 2 ue s _)

end

/-- The state without a request that has been served. -/
def State.without (s : State) (r : QReq) : State := { s with qry := { s.qry with reqs := s.qry.reqs.erase r } }

/-- A read delivers its bytes and counts its age, and POISON is recorded for a host whose data is bad. -/
def answerRead (r : QReq) (data : List Byte) (bad : Bool) (s : State) : State :=
  let p := countAge r.port (s.osc - r.at_) { s with readData := data }
  if r.master ≤ 1 ∧ bad = true then recordErr .quarry 0 errPoison r.master false 0 p else p

section
variable (r : QReq) (data : List Byte) (bad : Bool) (s : State)

theorem answerRead_readData : (answerRead r data bad s).readData = data := by
  have hage := (countAge_keeps (.refl _ { s with readData := data }) (Within.self _) r.port (s.osc - r.at_)).same .readData (Eq.refl _)
  unfold answerRead
  dsimp only
  split
  · exact (recordErr_readData ..).trans hage
  · exact hage

theorem answerRead_mem : (answerRead r data bad s).mem = s.mem := by
  have hage := (countAge_keeps (.refl _ { s with readData := data }) (Within.self _) r.port (s.osc - r.at_)).same .mem (Eq.refl _)
  unfold answerRead
  dsimp only
  split
  · exact (recordErr_mem ..).trans hage
  · exact hage

theorem answerRead_qry : (answerRead r data bad s).qry = s.qry := by
  have hage := (countAge_keeps (.refl _ { s with readData := data }) (Within.self _) r.port (s.osc - r.at_)).same .qry (Eq.refl _)
  unfold answerRead
  dsimp only
  split
  · exact (recordErr_qry ..).trans hage
  · exact hage

theorem answerRead_misses : (answerRead r data bad s).rd .QUARRY_PORT_MISS_COUNT 0 r.port =
    if targetTicks s r.port < s.osc - r.at_ then
      satAdd (Reg.width .QUARRY_PORT_MISS_COUNT) (s.rd .QUARRY_PORT_MISS_COUNT 0 r.port) 1
    else s.rd .QUARRY_PORT_MISS_COUNT 0 r.port := by
  have hage := countAge_misses r.port (s.osc - r.at_) { s with readData := data }
  unfold answerRead
  dsimp only
  split
  · exact (recordErr_rd _ (by decide) (by decide) (by decide) (by decide) (by decide) ..).trans hage
  · exact hage

end

/-- An operation whose footprint has no error record. -/
theorem Keeps.errors {m : Nat} {s t : State} (h : Keeps m s t) (hm : ∀ p ∈ errors, m.testBit p.bit = false) (r : Reg)
    (hr : .reg r ∈ errors) (i x z : Nat) : t.rd r i x z = s.rd r i x z := h.same (.reg r) (hm _ hr) i x z

theorem answerRead_records {r : QReq} {s t : State} (ht : ∀ q, .reg q ∈ errors → ∀ i x z, t.rd q i x z = s.rd q i x z) (data : List Byte)
    (hm : r.master ≤ 1) : Recorded s (refreshPort r.port (answerRead r data true t)) .quarry 0 errPoison r.master := by
  have hage := (countAge_keeps (.refl _ { t with readData := data }) (Within.self _) r.port (t.osc - r.at_)).errors (by decide +kernel)
  have h : Recorded s (answerRead r data true t) .quarry 0 errPoison r.master := by
    rw [answerRead, if_pos ⟨hm, rfl⟩]
    exact recorded_recordErr (fun q hq i x z => (hage q hq i x z).trans (ht q hq i x z)) (by decide) (by omega) ..
  unfold Recorded at h ⊢
  simpa [refreshPort_rd] using h

theorem completeRequest_read {r : QReq} (h : r.write = false) (s : State) :
    completeRequest r none s = refreshPort r.port (answerRead r r.data r.poison (s.without r)) := by
  simp [completeRequest, h, answerRead, State.without]

/-- A read of a rank that responded answers the bytes it found. -/
theorem completeRequest_answers {r : QReq} (h : r.write = false) (s : State) :
    (completeRequest r none s).readData = r.data ∧ (completeRequest r none s).qry = { s.qry with reqs := s.qry.reqs.erase r } ∧
      (completeRequest r none s).rd .QUARRY_PORT_MISS_COUNT 0 r.port = (if targetTicks s r.port < s.osc - r.at_ then
        satAdd (Reg.width .QUARRY_PORT_MISS_COUNT) (s.rd .QUARRY_PORT_MISS_COUNT 0 r.port) 1 else s.rd .QUARRY_PORT_MISS_COUNT 0 r.port) ∧
      (r.master ≤ 1 → r.poison = true → Recorded s (completeRequest r none s) .quarry 0 errPoison r.master) := by
  rw [completeRequest_read h]
  refine ⟨?_, ?_, ?_, fun hm hp => ?_⟩
  · rw [refreshPort_readData, answerRead_readData]
  · rw [refreshPort_qry, answerRead_qry]
    rfl
  · rw [refreshPort_rd (by decide) (by decide), answerRead_misses]
    rfl
  · rw [hp]
    exact answerRead_records (s := s) (t := s.without r) (fun _ _ _ _ _ => rfl) r.data hm

theorem completeRequest_lost {r : QReq} (h : r.write = false) (p : Fin 8) (s : State) : completeRequest r (some p) s =
    refreshPort r.port (answerRead r ((upTo r.len).map (Config.lostByte (failRank p.val 4 s).free)) true
      ((failRank p.val 4 s).without r).nextFree) := by
  simp [completeRequest, h, answerRead, State.without]

/-- One of a rank that did not respond answers free values. -/
theorem completeRequest_answersFree {r : QReq} (h : r.write = false) (p : Fin 8) (s : State) :
    (completeRequest r (some p) s).readData = (upTo r.len).map (Config.lostByte s.free) ∧
      (completeRequest r (some p) s).qry.reqs = s.qry.reqs.erase r ∧
      (r.master ≤ 1 → Recorded s (completeRequest r (some p) s) .quarry 0 errPoison r.master) := by
  have hfail := failRank_keeps (.refl _ s) (Within.self _) p.val 4
  have hfree : (failRank p.val 4 s).free = s.free := hfail.same .free (Eq.refl _)
  have hreqs := reqs_of_schedule (failRank_schedule s p.val 4)
  rw [completeRequest_lost h, hfree]
  refine ⟨?_, ?_, answerRead_records (s := s) (t := ((failRank p.val 4 s).without r).nextFree) (hfail.errors (by decide +kernel)) _⟩
  · rw [refreshPort_readData, answerRead_readData]
  · rw [refreshPort_qry, answerRead_qry]
    exact congrArg (List.erase · r) hreqs

/-- A write has been acknowledged at its acceptance: its end answers nothing. -/
theorem completeRequest_write {r : QReq} (h : r.write = true) (dead : Option (Fin 8)) (s : State) :
    (completeRequest r dead s).qry.reqs = s.qry.reqs.erase r ∧ (completeRequest r dead s).readData = s.readData := by
  have hend : ∀ u : State, u.qry.reqs = s.qry.reqs → u.readData = s.readData →
      (refreshPort r.port (u.without r)).qry.reqs = s.qry.reqs.erase r ∧ (refreshPort r.port (u.without r)).readData = s.readData :=
    fun u hq hr => ⟨congrArg (List.erase · r) hq, hr⟩
  unfold completeRequest
  dsimp only
  rw [if_pos h]
  cases dead with
  | none => exact hend s rfl rfl
  | some p =>
    exact hend _ (reqs_of_schedule (failRank_schedule s p.val 4))
      ((failRank_keeps (.refl _ s) (Within.self _) p.val 4).same .readData (Eq.refl _))

theorem completeRequest_mem (r : QReq) (dead : Option (Fin 8)) (s : State) : (completeRequest r dead s).mem = s.mem :=
  (completeRequest_keeps (.refl _ s) (Within.self _) r dead).same .mem (Eq.refl _)

/-! ### Refresh and the tracker window (R285, R287, R288) -/

/-- Nothing waited: nothing is served. -/
theorem releaseWaiting_none {s : State} (hw : s.qry.waiting = []) (hh : s.ben.held = []) : releaseWaiting s = s := by
  have hq : ({ s with qry := { s.qry with waiting := [] } } : State) = s := by rw [← hw]
  have hb : ({ s with ben := { s.ben with held := [] } } : State) = s := by rw [← hh]
  unfold releaseWaiting
  rw [hw, hq]
  show each s.ben.held benchArrive { s with ben := { s.ben with held := [] } } = s
  rw [hb, hh]
  rfl

/-- A bank at the end of a tracker window. -/
def Bank.untracked (b : Bank) : Bank := { b with entries := [], floor := 0, throttled := [] }

/-- A port that is no longer throttled. -/
def unthrottle (p : Nat) (s : State) : State := (s.wr .QUARRY_RD_STAT_THROTTLED 0 0 0 p).wr .QUARRY_PORT_STAT_THROTTLED 0 0 p

theorem untracked_banks (s : State) (r b : Nat) : (bankOf (eachBank Bank.untracked s) r b).entries = [] ∧
    (bankOf (eachBank Bank.untracked s) r b).floor = 0 ∧ (bankOf (eachBank Bank.untracked s) r b).throttled = [] :=
  Store.get_mapValues (P := fun x : Bank => x.entries = [] ∧ x.floor = 0 ∧ x.throttled = []) (d := {}) (f := Bank.untracked)
    ⟨rfl, rfl, rfl⟩ (fun _ => ⟨rfl, rfl, rfl⟩) s.qry.banks (r * 16 + b)

theorem unthrottle_clears {p : Nat} (hp : p < 8) (s : State) :
    (each (upTo 8) unthrottle s).rd .QUARRY_RD_STAT_THROTTLED 0 0 p = 0 ∧
      (each (upTo 8) unthrottle s).rd .QUARRY_PORT_STAT_THROTTLED 0 p = 0 :=
  each_reaches (P := fun t => t.rd .QUARRY_RD_STAT_THROTTLED 0 0 p = 0 ∧ t.rd .QUARRY_PORT_STAT_THROTTLED 0 p = 0) (f := unthrottle)
    (x := p) (fun t => by simp [unthrottle]) (fun q t h => ⟨rd_wr_zero (rd_wr_zero h.1 ..) .., rd_wr_zero (rd_wr_zero h.2 ..) ..⟩)
    (mem_upTo.mpr hp) s

theorem unthrottle_qry (ps : List Nat) (s : State) : (each ps unthrottle s).qry = s.qry :=
  each_rel (R := fun a b => b.qry = a.qry) (f := unthrottle) (fun _ => rfl) (fun h k => k.trans h) (fun _ _ _ => rfl) s

/-! ### The statement -/

/-- Settles O53: requests by whether the checks accept them, slots by whether the row is open, ends by what the request was and whether its
rank responded, and stalls through the service of all that waited for them. -/
theorem quarryRequests : Obligations.QuarryRequests := by
  unfold Obligations.QuarryRequests
  refine ⟨?read, ?write, ?readRefused, ?writeRefused, ?noPick, ?hit, ?miss, ?outstanding, ?readEnds, ?lost, ?writeEnds, ?urgency, ?idle,
    ?refresh, ?skipped, ?refreshEnds, ?neighbours, ?window⟩
  case read =>
    rintro s m a n r hd hready ⟨hheld, hwait⟩ hn hlo hallow hretry rfl
    refine ⟨_, (act_on hd ⟨hready, hn, hlo, hwait⟩ _).trans (congrArg _ (acceptRequest_read hheld hallow hretry [])), ?_⟩
    exact ⟨rfl, rfl, rfl, rfl⟩
  case write =>
    rintro s m a data r hd hclean hready ⟨hheld, hwait⟩ hn hlo hallow hretry hpoison rfl
    obtain ⟨hin, hout⟩ := storeMem_clean m.val hretry hclean hpoison
    have hqueues := storeMem_schedule s m.val a.toNat data
    refine ⟨_, (act_on hd ⟨hready, hn, hlo, hwait⟩ _).trans (congrArg _ (acceptRequest_write hheld hallow hretry 0)), ?_, rfl, ?_, ?_, ?_⟩
    · exact (List.map_congr_left fun b _ => enqueue_byte ..).trans hin
    · exact congrArg (· ++ _) (reqs_of_schedule hqueues)
    · exact congrArg (· ++ _) (units_of_schedule hqueues)
    · exact fun b hb => (enqueue_byte ..).trans (hout b hb)
  case readRefused =>
    rintro s m a n hd hready ⟨hheld, hwait⟩ hn hlo hhi h
    exact ⟨_, (act_on hd ⟨hready, hn, hlo, hwait⟩ _).trans (congrArg _ (acceptRequest_refused hheld rfl hlo hhi h)),
      refused_records s m.isLt false _⟩
  case writeRefused =>
    rintro s m a data hd hready ⟨hheld, hwait⟩ hn hlo hhi h
    exact ⟨_, (act_on hd ⟨hready, hn, hlo, hwait⟩ _).trans (congrArg _ (acceptRequest_refused hheld rfl hlo hhi h)),
      refused_records s m.isLt true _⟩
  case noPick =>
    intro s ch hd h
    refine act_same ?_
    by_cases hs : served s = true
    · rw [on_pos hs, commandSlot_none (h.resolve_left (by simp [hs]))]
    · exact on_neg hs _
  case hit =>
    intro s ch u hd hs hp hr
    have hslot := commandSlot_hit hp hr
    have hmem := (commandSlot_keeps (.refl _ s) (Within.self _) ch.val).same .mem (Eq.refl _)
    obtain ⟨hunits, hhits, hlast⟩ := accessRow_serves u s
    exact ⟨_, (act_on hd hs _).trans (congrArg _ hslot), hunits, hhits, hlast, hslot ▸ hmem⟩
  case miss =>
    intro s ch u hd hs hp hr
    exact ⟨_, (act_on hd hs _).trans (congrArg _ (commandSlot_miss hp hr)), activate_opens u s⟩
  case outstanding => exact fun s r ce ue dead hd hf h => requestComplete_waits hd hf ce ue h
  case readEnds =>
    intro s r ce ue hd hf hu hb hw
    obtain ⟨hdata, hqry, hmiss, hpoison⟩ := completeRequest_answers hw (s.setFlaws (s.flawsWith ce ue))
    refine ⟨_, requestComplete_ends hd hf ce ue hu hb, hdata, congrArg Quarry.reqs hqry, completeRequest_mem .., hmiss, hpoison, ?_, ?_⟩
    · intro x hx hr
      rw [hqry]
      exact foldl_worsen_reaches hx hr _
    · intro x hx hr
      rw [hqry]
      exact Nat.le_trans (foldl_worsen_reaches hx hr _) (le_foldl_worsen s 2 ue _ _)
  case lost =>
    intro s r ce ue p hd hf hu hb hw
    obtain ⟨hdata, hreqs, hpoison⟩ := completeRequest_answersFree hw p (s.setFlaws (s.flawsWith ce ue))
    exact ⟨_, requestComplete_ends hd hf ce ue hu hb, hdata, hreqs, completeRequest_mem .., hpoison⟩
  case writeEnds =>
    intro s r ce ue dead hd hf hu hw
    have hend := completeRequest_write hw dead (s.setFlaws (s.flawsWith ce ue))
    exact ⟨_, requestComplete_ends hd hf ce ue hu (by simp [readsBefore, hw]), hend.1, completeRequest_mem .., hend.2⟩
  case urgency =>
    intro s p hd
    have hexec : exec (.urgencyRise p) s = .next (abortEntry (refreshPort p.val s)) := act_up hd fun s => abortEntry (refreshPort p.val s)
    refine ⟨_, hexec, ?_, ?_, fun hop hf hu => ?_⟩
    · exact (abortEntry_rd (by decide) (by decide) (by decide) ..).trans (refreshPort_urgency ..)
    · exact (abortEntry_rd (by decide) (by decide) (by decide) ..).trans (refreshPort_outstanding ..)
    · exact abortEntry_aborts hop hf ((anyUrgent_refreshPort ..).trans hu)
  case idle =>
    intro s r k hd hopen hidle
    refine ⟨_, act_on hd ⟨Option.isSome_iff_ne_none.mpr hopen, hidle⟩ _, ?_⟩
    rw [bankOf_setBank]
  case refresh =>
    intro s hd hs hdue hop
    exact ⟨_, (act_on hd ⟨hs, hdue⟩ _).trans (congrArg _ (if_neg hop)), rfl, rfl, fun i _ k _ => closeRows_row s i k⟩
  case skipped =>
    intro s hd hs hdue hop
    exact ⟨_, (act_on hd ⟨hs, hdue⟩ _).trans (congrArg _ (if_pos hop)), rfl⟩
  case refreshEnds =>
    intro s hd hr
    have hfree := releaseWaiting_schedule { s with qry := { s.qry with refreshing := false } }
    exact ⟨_, act_on hd hr _, congrArg Quarry.refreshing hfree, congrArg Quarry.waiting hfree, fun hw hh => releaseWaiting_none hw hh⟩
  case neighbours =>
    intro s r k hd
    refine ⟨_, act_up hd _, ?_⟩
    rw [bankOf_setBank]
  case window =>
    intro s hd hnow
    have hexec : exec .rdWindowReset s = .next (each (upTo 8) unthrottle (eachBank Bank.untracked s)) := act_on hd hnow _
    refine ⟨_, hexec, fun i _ k _ => ?_, fun p hp => unthrottle_clears hp _⟩
    rw [bankOf_congr (congrArg Quarry.banks (unthrottle_qry ..))]
    exact untracked_banks s i k

end Sys2Proof.Machine
end

section
/-! PROOFS. A reshape of Quarry over eight active ranks (R298), and the statement about ranks. -/

namespace Sys2Proof.Machine

-- One declaration at a time: the memory limit counts the stack of every thread that elaborates one.
set_option Elab.async false

/-- A running device with a degraded Quarry whose eight physical ranks are all ACTIVE. -/
def eightActive : State :=
  ({ State.reset with dev := .up }.wr .QUARRY_STATUS_DEGRADED 1).wr .QUARRY_RANK_STATE_STATE 0 0 0 7

theorem eightActive_reshapes : MayWrite eightActive .quarry 0 (2 : Master) ∧ eightActive.rd .QUARRY_STATUS_DEGRADED ≠ 0 ∧
    migrating eightActive = false ∧ eightActive.rd .QUARRY_STATUS_RESHAPING ≠ 1 ∧ activeRanks eightActive = upTo 8 := by decide +kernel

/-- What a keyed reshape of it leaves. -/
def eightReshaped : State := writeReshape 2 0x15A (hostWake 2 eightActive)

theorem reshape_eightActive : exec (.reshape 2 0x5A) eightActive = .next eightReshaped := by
  show execReshape 2 0x5A eightActive = _
  rw [execReshape, act_up eightActive_reshapes.1.1, gateBy_ok (ok := quarryWriter (2 : Master).val) rfl eightActive_reshapes.1.2]
  rfl

/-- N_ACTIVE has three bits (register table of 09_quarry.md). -/
theorem eightReshaped_active : eightReshaped.rd .QUARRY_CAPACITY_N_ACTIVE = 0 := by decide +kernel

/-- Refutes O54, at the keyed reshape: N_ACTIVE is a field of three bits, so with all eight physical ranks ACTIVE it shows 0 and not 8. No
run from reset has such a state: a device starts with seven ACTIVE ranks and a spare, and the spare becomes ACTIVE only as another rank
retires (R293 to R296). But the statement is about every state with an ACTIVE rank, and puts no bound on how many there are. -/
theorem not_quarryRanks : ¬Obligations.QuarryRanks := by
  rintro ⟨-, -, -, -, -, -, -, -, -, -, -, -, -, -, -, hreshape, -⟩
  obtain ⟨hmay, hdegraded, hmig, hidle, hranks⟩ := eightActive_reshapes
  obtain ⟨t, ht, -, -, hactive, -⟩ := hreshape eightActive 2 hmay (by decide) hdegraded hmig hidle (by rw [hranks]; decide)
  obtain rfl : eightReshaped = t := Host.Outcome.next.inj (reshape_eightActive.symm.trans ht)
  rw [eightReshaped_active, hranks] at hactive
  exact absurd hactive (by decide)

end Sys2Proof.Machine
end

section
/-! PROOFS. Tests of a bench and its replacement by the spare (R320 to R326), and the statement about them. -/

namespace Sys2Proof.Machine

-- One declaration at a time: the memory limit counts the stack of every thread that elaborates one.
set_option Elab.async false

/-! ### The word of BIST_CTL (R320, R322, R324) -/

/-- The word that a command of BIST_CTL writes: bench, AUTO_REPLACE and the requests in its low three bits. -/
theorem bistCtl_fields {b a k : Nat} (ha : a < 2) (hk : k < 8) (hb : b < 32) :
    bits (16 * b + 8 * a + k) 8 4 = b ∧ bit (16 * b + 8 * a + k) 3 = a := by
  simp only [bits, bit]
  omega

/-- Its requests stand below BENCH and AUTO_REPLACE. -/
theorem bistCtl_request (b a k : Nat) {n : Nat} (hn : n < 3) : bit (16 * b + 8 * a + k) n = bit k n := by
  simp only [bit]
  obtain rfl | rfl | rfl : n = 0 ∨ n = 1 ∨ n = 2 := by omega
  all_goals omega

/-- The fields that a write of BIST_CTL stores. -/
def storeBistCtl (v : Nat) (s : State) : State := (s.wr .BENCH_BIST_CTL_AUTO_REPLACE (bit v 3)).wr .BENCH_BIST_CTL_BENCH (bits v 8 4)

section
variable {s : State} {m v : Nat}

theorem writeBistCtl_start (h0 : bit v 0 = 1) (h1 : bit v 1 = 0) (h2 : bit v 2 = 0) :
    writeBistCtl m v s = bistStart m (bits v 8 4) (storeBistCtl v s) := by
  simp [writeBistCtl, storeBistCtl, h0, h1, h2]

theorem writeBistCtl_abort (h0 : bit v 0 = 0) (h1 : bit v 1 = 1) (h2 : bit v 2 = 0) :
    writeBistCtl m v s = endTest (storeBistCtl v s) := by
  simp [writeBistCtl, storeBistCtl, h0, h1, h2]

theorem writeBistCtl_replace (h0 : bit v 0 = 0) (h1 : bit v 1 = 0) (h2 : bit v 2 = 1) :
    writeBistCtl 2 v s = benchReplace 2 (bits v 8 4) (storeBistCtl v s) := by
  simp [writeBistCtl, storeBistCtl, h0, h1, h2]

/-- REPLACE is firmware's alone (R324). -/
theorem writeBistCtl_foreign (h2 : bit v 2 = 1) (hm : m ≠ 2) :
    writeBistCtl m v s = recordErr .bench 0 errOwnerDenied m true (0x70 / 4) s := if_pos ⟨h2, hm⟩

end

/-- The state in which a command of BIST_CTL finds the benches. -/
def bistAsked (m v : Nat) (s : State) : State := storeBistCtl v (hostWake m s)

/-- A write of BIST_CTL changes its two fields and wakes, and nothing else of what a request looks at. -/
theorem bistAsked_only (m v : Nat) (s : State) :
    OnlyChanges (wakes ++ fields [.BENCH_BIST_CTL_AUTO_REPLACE, .BENCH_BIST_CTL_BENCH]) s (bistAsked m v s) :=
  (wr_keeps (wr_keeps (hostWake_keeps (.refl _ s) (.of_beq (by decide +kernel)) m) (.of_beq (by decide +kernel)) ..)
    (.of_beq (by decide +kernel)) ..).only

theorem bistAsked_rd {r : Reg} (hr : .reg r ∉ wakes ++ fields [.BENCH_BIST_CTL_AUTO_REPLACE, .BENCH_BIST_CTL_BENCH]) (m v : Nat) (s : State)
    (i x u : Nat) : (bistAsked m v s).rd r i x u = s.rd r i x u := bistAsked_only m v s (.reg r) hr i x u

@[simp] theorem bistAsked_ben (m v : Nat) (s : State) : (bistAsked m v s).ben = s.ben := bistAsked_only m v s .ben (by decide)
@[simp] theorem bistAsked_phase (m v : Nat) (s : State) : bistPhase (bistAsked m v s) = bistPhase s := bistAsked_rd (by decide) ..
@[simp] theorem bistAsked_spare (m v : Nat) (s : State) : spareBench (bistAsked m v s) = spareBench s := bistAsked_rd (by decide) ..
@[simp] theorem bistAsked_state (m v : Nat) (s : State) (b : Nat) : benchState (bistAsked m v s) b = benchState s b :=
  bistAsked_rd (by decide) ..
@[simp] theorem bistAsked_health (m v : Nat) (s : State) (b : Nat) : benchHealth (bistAsked m v s) b = benchHealth s b :=
  bistAsked_rd (by decide) ..

theorem bistAsked_errors (m v : Nat) (s : State) (r : Reg) (hr : .reg r ∈ errors) (i x u : Nat) :
    (bistAsked m v s).rd r i x u = s.rd r i x u :=
  bistAsked_rd ((show ∀ q ∈ errors, q ∉ wakes ++ fields [.BENCH_BIST_CTL_AUTO_REPLACE, .BENCH_BIST_CTL_BENCH] by decide) _ hr) ..

/-- The AUTO_REPLACE that a write of BIST_CTL asks for. -/
theorem bistAsked_auto {v n : Nat} (h : bit v 3 = n) (m : Nat) (s : State) :
    (bistAsked m v s).rd .BENCH_BIST_CTL_AUTO_REPLACE = n := by
  rw [bistAsked, storeBistCtl, State.rd_wr_reg _ (by decide), State.rd_wr_same, bit_mod _ rfl, h]

/-- Masters 0 to 2 write BIST_CTL. -/
theorem benchWriter_of_le {m : Nat} (h : m ≤ 2) : benchWriter m = true := decide_eq_true h

theorem benchWriter_of_gt {m : Nat} (h : 2 < m) : benchWriter m = false := decide_eq_false (Nat.not_le.mpr h)

section
variable {s : State} {m : Master}

theorem bistCmd_ok (h : MayWrite s .bench 0 m) (hm : m.val ≤ 2) (v : Nat) :
    bistCmd m.val v s = .next (writeBistCtl m.val v (hostWake m.val s)) := by
  rw [bistCmd, act_up h.1, gateBy_ok (benchWriter_of_le hm) h.2]

theorem exec_bistStart (h : MayWrite s .bench 0 m) (hm : m.val ≤ 2) (b : Fin 32) (auto : Bool) : ∃ v, bit v 3 = (if auto then 1 else 0) ∧
    exec (.bistStart m b auto) s = .next (bistStart m.val b.val (bistAsked m.val v s)) := by
  have hword : 16 * b.val + (if auto then 8 else 0) + 1 = 16 * b.val + 8 * (if auto then 1 else 0) + 1 := by split <;> rfl
  obtain ⟨hbench, hauto⟩ := bistCtl_fields (a := if auto then 1 else 0) (k := 1) (by split <;> decide) (by decide) b.isLt
  refine ⟨_, hauto, ?_⟩
  show bistCmd m.val (16 * b.val + (if auto then 8 else 0) + 1) s = _
  rw [bistCmd_ok h hm, hword, writeBistCtl_start (bistCtl_request _ _ _ (by decide)) (bistCtl_request _ _ _ (by decide))
    (bistCtl_request _ _ _ (by decide)), hbench, bistAsked]

theorem exec_bistAbort (h : MayWrite s .bench 0 m) (hm : m.val ≤ 2) :
    ∃ v, exec (.bistAbort m) s = .next (endTest (bistAsked m.val v s)) := by
  refine ⟨16 * s.rd .BENCH_BIST_CTL_BENCH + 8 * s.rd .BENCH_BIST_CTL_AUTO_REPLACE + 2, ?_⟩
  show bistCmd m.val _ s = _
  rw [bistCmd_ok h hm, writeBistCtl_abort (bistCtl_request _ _ _ (by decide)) (bistCtl_request _ _ _ (by decide))
    (bistCtl_request _ _ _ (by decide))]
  rfl

theorem exec_benchReplace (h : MayWrite s .bench 0 (2 : Master)) (ha : s.rd .BENCH_BIST_CTL_AUTO_REPLACE < 2) (b : Fin 32) :
    ∃ v, exec (.benchReplace 2 b) s = .next (benchReplace 2 b.val (bistAsked 2 v s)) := by
  refine ⟨16 * b.val + 8 * s.rd .BENCH_BIST_CTL_AUTO_REPLACE + 4, ?_⟩
  show bistCmd (2 : Master).val _ s = _
  rw [bistCmd_ok h (by decide)]
  show Host.Outcome.next (writeBistCtl 2 _ _) = _
  rw [writeBistCtl_replace (bistCtl_request _ _ _ (by decide)) (bistCtl_request _ _ _ (by decide))
    (bistCtl_request _ _ _ (by decide)), (bistCtl_fields ha (by decide) b.isLt).1]
  rfl

/-- A request of another master than firmware is refused (R319, R324). -/
theorem exec_benchReplace_foreign (h : MayWrite s .bench 0 m) (hm : m.val ≠ 2) (b : Fin 32) :
    exec (.benchReplace m b) s = .next (recordErr .bench 0 errOwnerDenied m.val true (0x70 / 4) (hostWake m.val s)) := by
  show bistCmd m.val _ s = _
  by_cases hle : m.val ≤ 2
  · rw [bistCmd_ok h hle, writeBistCtl_foreign (bistCtl_request _ _ _ (by decide)) hm]
  · rw [bistCmd, act_up h.1, gateBy_denied (benchWriter_of_gt (Nat.lt_of_not_le hle))]

end

/-! ### A test (R320, R322) -/

/-- A test of bench b, as it starts. -/
def testStarted (b : Nat) (s : State) : State :=
  (((((((setBistPhase 1 (setBenchState b 0 { s with ben := { s.ben with
    bist := b, first := s.rd .BENCH_BIST_RANGE_FIRST, stop := s.rd .BENCH_BIST_RANGE_LAST, aborted := false } })).wr .BENCH_STATUS_BIST_BUSY
      1).wr .BENCH_STATUS_SPARE_FREE 0).wr .BENCH_BIST_STAT_PASS 0).wr .BENCH_BIST_STAT_FAIL 0).wr .BENCH_BIST_STAT_FAIL_WORDS 0).wr
        .BENCH_BIST_PTR_OFFSET (4096 * s.rd .BENCH_BIST_RANGE_FIRST))

section
variable {s : State} {b : Nat}

theorem bistStart_starts (hf : s.rd .BENCH_STATUS_SPARE_FREE ≠ 0) (hi : s.rd .BENCH_STATUS_BIST_BUSY ≠ 1) (hb : b < 16)
    (hr : s.rd .BENCH_BIST_RANGE_FIRST ≤ s.rd .BENCH_BIST_RANGE_LAST) (hs : benchState s b ≠ 3) (hh : benchHealth s b < 2) (m : Nat) :
    bistStart m b s = testStarted b s := by
  unfold bistStart
  dsimp only
  rw [if_neg (not_or.mpr ⟨hf, hi⟩), if_neg (by omega)]
  rfl

theorem bistStart_refused (hf : s.rd .BENCH_STATUS_SPARE_FREE = 0) (m b : Nat) :
    bistStart m b s = actionErr .bench 0 errSpareInUse m s := if_pos (.inl hf)

theorem testStarted_starts (b : Nat) (s : State) : bistPhase (testStarted b s) = 1 ∧ (testStarted b s).rd .BENCH_STATUS_BIST_BUSY = 1 ∧
    (testStarted b s).rd .BENCH_STATUS_SPARE_FREE = 0 ∧ (testStarted b s).ben.bist = b ∧
    (testStarted b s).ben.first = s.rd .BENCH_BIST_RANGE_FIRST ∧ (testStarted b s).ben.stop = s.rd .BENCH_BIST_RANGE_LAST ∧
    (testStarted b s).rd .BENCH_BIST_CTL_AUTO_REPLACE = s.rd .BENCH_BIST_CTL_AUTO_REPLACE ∧
    (testStarted b s).rd .BENCH_BIST_STAT_PASS = 0 ∧ (testStarted b s).rd .BENCH_BIST_STAT_FAIL = 0 ∧
    (testStarted b s).rd .BENCH_BIST_STAT_FAIL_WORDS = 0 := by
  refine ⟨?_, ?_, ?_, rfl, rfl, rfl, ?_, ?_, ?_, ?_⟩
  case refine_4 =>
    simp only [testStarted, setBistPhase, setBenchState, State.rd_wr_reg, ne_eq, reduceCtorEq, not_false_eq_true]
    rfl
  all_goals simp [testStarted, bistPhase, setBistPhase, Reg.width, Reg.info]

/-- ABORT ends the copy at once. -/
theorem endTest_copying (h : bistPhase s = 1) : bistPhase (endTest s) = 0 ∧ (endTest s).rd .BENCH_STATUS_BIST_BUSY = 0 ∧
    (endTest s).rd .BENCH_STATUS_SPARE_FREE = 1 := by
  rw [endTest, h]
  refine ⟨?_, ?_, ?_⟩ <;> simp [bistPhase, setBistPhase, Reg.width, Reg.info]

/-- It ends a running test by its restore. -/
theorem endTest_testing (h : bistPhase s = 2) : bistPhase (endTest s) = 3 ∧ (endTest s).ben.aborted = true := by
  rw [endTest, h]
  exact ⟨State.rd_wr_same .., rfl⟩

/-- A phase is kept in three bits. -/
@[simp] theorem bistPhase_wr {r : Reg} (h : r ≠ .BENCH_BIST_STAT_PHASE) (v i x u : Nat) : bistPhase (s.wr r v i x u) = bistPhase s :=
  State.rd_wr_reg _ h ..

@[simp] theorem bistPhase_setBistPhase (v : Nat) : bistPhase (setBistPhase v s) = v % 8 := State.rd_wr_same ..

@[simp] theorem bistPhase_recordErr (p : Page) (n c m : Nat) (w : Bool) (o : Nat) : bistPhase (recordErr p n c m w o s) = bistPhase s :=
  recordErr_rd _ (by decide) (by decide) (by decide) (by decide) (by decide) ..

end

/-- What a bench that fails changes, beside the test that it ends (R323). -/
def failParts : List Part := fields [.BENCH_BENCH_HEALTH_HEALTH] ++ events ++ wakes

/-- A bench that fails while it is the bench of the test ends none. -/
theorem benchFails_own {s : State} (hb : s.ben.bist < 16) : OnlyChanges failParts s (benchFails s.ben.bist s) := by
  have hfail : Keeps (mask failParts) s (wake 5 (raise .bench 0 2 (s.wr .BENCH_BENCH_HEALTH_HEALTH 1 0 0 s.ben.bist))) :=
    wake_keeps (raise_keeps (wr_keeps (.refl _ s) (.of_beq (by decide +kernel)) ..) (.of_beq (by decide +kernel)) ..)
      (.of_beq (by decide +kernel)) _
  unfold benchFails
  dsimp only
  rw [if_neg (by omega), if_neg (not_not.mpr rfl)]
  exact (Keeps.ite (.refl _ s) (.ite (benchOffline_keeps hfail (.of_beq (by decide +kernel)) _) hfail)).only

/-- A test that has found n failing words, the first at offset f. -/
def testFailed (f n : Nat) (s : State) : State :=
  raise .bench 0 3 (((((setBistPhase 5 s).wr .BENCH_STATUS_BIST_BUSY 0).wr .BENCH_BIST_STAT_FAIL 1).wr .BENCH_BIST_STAT_FAIL_WORDS
    (min 255 n)).wr .BENCH_BIST_FAIL_ADDR_OFFSET f)

theorem testDone_failed (f : Nat) (fs : List Nat) (s : State) : testDone (f :: fs) s =
    if s.rd .BENCH_BIST_CTL_AUTO_REPLACE = 1 then startReplace s.ben.bist (benchFails s.ben.bist (testFailed f (fs.length + 1) s))
    else benchFails s.ben.bist (testFailed f (fs.length + 1) s) := rfl

/-- The results of a failing test, once its bench has failed. -/
theorem testFailed_results {s : State} (hb : s.ben.bist < 16) {f n : Nat} (hf : f < 2 ^ 22) :
    (benchFails s.ben.bist (testFailed f n s)).rd .BENCH_BIST_STAT_FAIL = 1 ∧
    (benchFails s.ben.bist (testFailed f n s)).rd .BENCH_BIST_STAT_FAIL_WORDS = min 255 n ∧
    (benchFails s.ben.bist (testFailed f n s)).rd .BENCH_BIST_FAIL_ADDR_OFFSET = f ∧
    bistPhase (benchFails s.ben.bist (testFailed f n s)) = 5 ∧
    (benchFails s.ben.bist (testFailed f n s)).rd .BENCH_STATUS_BIST_BUSY = 0 ∧
    Raised (benchFails s.ben.bist (testFailed f n s)) .bench 0 3 := by
  have hben : (testFailed f n s).ben = s.ben := raise_ben ..
  have hraised : Raised (testFailed f n s) .bench 0 3 := raise_raw ..
  have honly : OnlyChanges failParts (testFailed f n s) (benchFails s.ben.bist (testFailed f n s)) := by
    rw [← hben]
    exact benchFails_own (hben ▸ hb)
  have hrd {r : Reg} (hr : .reg r ∉ failParts) (i x u : Nat) :
      (benchFails s.ben.bist (testFailed f n s)).rd r i x u = (testFailed f n s).rd r i x u := honly (.reg r) hr i x u
  refine ⟨?_, ?_, ?_, ?_, ?_, (Onward.refl _).benchFails _ |>.raised _ _ _ hraised⟩
  · rw [hrd (by decide)]
    simp [testFailed, Reg.width, Reg.info]
  · rw [hrd (by decide)]
    simp only [testFailed, raise_rd, State.rd_wr_reg, State.rd_wr_same, ne_eq, reduceCtorEq, not_false_eq_true]
    exact Nat.mod_eq_of_lt (Nat.lt_of_le_of_lt (Nat.min_le_left ..) (by decide))
  · rw [hrd (by decide)]
    simp only [testFailed, raise_rd, State.rd_wr_same, ne_eq, reduceCtorEq, not_false_eq_true]
    exact Nat.mod_eq_of_lt hf
  · rw [bistPhase, hrd (by decide)]
    simp [testFailed, setBistPhase, Reg.width, Reg.info]
  · rw [hrd (by decide)]
    simp [testFailed, Reg.width, Reg.info]

/-! ### A replacement and the end of a redirect (R322, R324, R326) -/

/-- A replacement that begins. -/
theorem startReplace_starts (b : Nat) (s : State) : bistPhase (startReplace b s) = 4 ∧ (startReplace b s).ben = { s.ben with bist := b } ∧
    (startReplace b s).rd .BENCH_STATUS_REPLACING = 1 ∧ (startReplace b s).rd .BENCH_STATUS_BIST_BUSY = 1 ∧
    (startReplace b s).rd .BENCH_STATUS_SPARE_FREE = 0 := by
  refine ⟨?_, rfl, ?_, ?_, ?_⟩ <;> simp [startReplace, bistPhase, setBistPhase, Reg.width, Reg.info]

theorem startReplace_rd {r : Reg} (hr : r ∉ [.BENCH_BIST_PTR_OFFSET, .BENCH_BIST_STAT_PHASE, .BENCH_STATUS_BIST_BUSY,
    .BENCH_STATUS_REPLACING, .BENCH_STATUS_SPARE_FREE]) (b : Nat) (s : State) (i x u : Nat) :
    (startReplace b s).rd r i x u = s.rd r i x u :=
  (startReplace_keeps (.refl _ s) (.self _) b).only (.reg r) (by simpa using hr) i x u

/-- So does one whose bench is held ON. -/
theorem startReplace_held (b : Nat) (s : State) : bistPhase (setBenchState b 0 (startReplace b s)) = 4 ∧
    (setBenchState b 0 (startReplace b s)).ben = { s.ben with bist := b } ∧
    (setBenchState b 0 (startReplace b s)).rd .BENCH_STATUS_REPLACING = 1 ∧
    (setBenchState b 0 (startReplace b s)).rd .BENCH_STATUS_BIST_BUSY = 1 ∧
    (setBenchState b 0 (startReplace b s)).rd .BENCH_STATUS_SPARE_FREE = 0 := by
  obtain ⟨hphase, hben, hrep, hbusy, hfree⟩ := startReplace_starts b s
  refine ⟨(State.rd_wr_reg _ (by decide) ..).trans hphase, hben, ?_, ?_, ?_⟩
  · exact (State.rd_wr_reg _ (by decide) ..).trans hrep
  · exact (State.rd_wr_reg _ (by decide) ..).trans hbusy
  · exact (State.rd_wr_reg _ (by decide) ..).trans hfree

/-- A bench that may rest changes its own state alone (R326). -/
theorem letRest_rd {r : Reg} (hr : .BENCH_BPWR_STAT_STATE ≠ r) (b : Nat) (s : State) (i x u : Nat) :
    (letRest b s).rd r i x u = s.rd r i x u := by
  unfold letRest
  split
  · exact State.rd_wr_reg _ hr ..
  · rfl

/-- The redirect has ended and the spare is free. -/
def restored (s : State) : State :=
  letRest s.ben.bist (((setBistPhase 0 s).wr .BENCH_STATUS_BIST_BUSY 0).wr .BENCH_STATUS_SPARE_FREE 1)

theorem restored_frees (s : State) : bistPhase (restored s) = 0 ∧ (restored s).rd .BENCH_STATUS_BIST_BUSY = 0 ∧
    (restored s).rd .BENCH_STATUS_SPARE_FREE = 1 ∧ (restored s).rd .BENCH_BIST_STAT_PASS = s.rd .BENCH_BIST_STAT_PASS := by
  refine ⟨(letRest_rd (by decide) ..).trans ?_, (letRest_rd (by decide) ..).trans ?_, (letRest_rd (by decide) ..).trans ?_,
    (letRest_rd (by decide) ..).trans ?_⟩ <;> simp [setBistPhase, Reg.width, Reg.info]

theorem restoreDone_aborted {s : State} (hn : s.ben.next = none) (ha : s.ben.aborted = true) : restoreDone s = restored s := by
  simp [restoreDone, hn, ha, restored]

theorem restoreDone_passed {s : State} (hn : s.ben.next = none) (ha : s.ben.aborted = false) :
    restoreDone s = raise .bench 0 3 ((restored s).wr .BENCH_BIST_STAT_PASS 1) := by
  simp [restoreDone, hn, ha, restored]

/-- The redirect ends with PASS and BIST_DONE, unless the test was aborted. -/
theorem restoreDone_ends {s : State} (hn : s.ben.next = none) : bistPhase (restoreDone s) = 0 ∧
    (restoreDone s).rd .BENCH_STATUS_BIST_BUSY = 0 ∧ (restoreDone s).rd .BENCH_STATUS_SPARE_FREE = 1 ∧
    (if s.ben.aborted then (restoreDone s).rd .BENCH_BIST_STAT_PASS = s.rd .BENCH_BIST_STAT_PASS
     else (restoreDone s).rd .BENCH_BIST_STAT_PASS = 1 ∧ Raised (restoreDone s) .bench 0 3) := by
  obtain ⟨hphase, hbusy, hfree, hpass⟩ := restored_frees s
  cases ha : s.ben.aborted with
  | true =>
    rw [restoreDone_aborted hn ha]
    exact ⟨hphase, hbusy, hfree, hpass⟩
  | false =>
    rw [restoreDone_passed hn ha]
    unfold bistPhase at hphase ⊢
    refine ⟨?_, ?_, ?_, ?_, raise_raw ..⟩
    · rw [raise_rd _ (by decide) (by decide), State.rd_wr_reg _ (by decide), hphase]
    · rw [raise_rd _ (by decide) (by decide), State.rd_wr_reg _ (by decide), hbusy]
    · rw [raise_rd _ (by decide) (by decide), State.rd_wr_reg _ (by decide), hfree]
    · rw [raise_rd _ (by decide) (by decide), State.rd_wr_same]
      rfl

/-- A replacement that waits starts as the redirect ends. -/
theorem restoreDone_replaces {s : State} {b : Nat} (hn : s.ben.next = some b) : ∃ u : State, u.ben.next = none ∧
    restoreDone s = setBenchState b 0 (startReplace b u) := by
  refine ⟨_, ?_, by simp only [restoreDone, hn]; rfl⟩
  rfl

/-! ### A replacement asked for -/

section
variable {s : State} {b : Nat} (hb : b < 16)
include hb

theorem benchReplace_starts (ht : spareTaken s b = false) (h4 : bistPhase s ≠ 4)
    (hp : bistPhase s = 0 ∨ 3 < bistPhase s ∨ s.ben.bist = b) (hs : benchState s b ≠ 3) (hh : benchHealth s b < 2) (m : Nat) :
    benchReplace m b s = setBenchState b 0 (startReplace b s) := by
  unfold benchReplace
  rw [if_neg (by omega), if_neg (by omega), if_neg (by rw [ht]; simp; omega), if_neg (by omega)]

theorem benchReplace_waits (hp : bistPhase s = 3) (ha : s.ben.aborted = true) (hne : s.ben.bist ≠ b) (hh : benchHealth s b = 1) (m : Nat) :
    benchReplace m b s = { s with ben := { s.ben with next := some (s.ben.next.getD b) } } := by
  rw [benchReplace, if_neg (by omega), if_pos ⟨hp, ha, hne, hh⟩]

end

/-! ### Marks of bench words (R305, R306) -/

/-- A bench word that is marked counts as poisoned. -/
theorem poisoned_of_mark {s : State} {a : Nat} (hin : inBench a 1 = true) (h : Store.get false s.poison (poisonWord a) = true) :
    s.poisoned a = true := by
  rw [State.poisoned, hin, if_pos rfl, h, Bool.or_true]

theorem inBench_offset {off : Nat} (h : off < 2 ^ 22) : inBench (benchBase + off) 1 = true := by
  rw [inBench_iff, benchBase]
  omega

/-- The mark of a bench word is kept at its first byte. -/
theorem poisonWord_offset {off : Nat} (h : off < 2 ^ 22) : poisonWord (benchBase + off) = benchBase + off / 4 * 4 := by
  rw [poisonWord, inBench_offset h, if_pos rfl, benchBase]
  omega

/-- The bytes of a bench word count as poisoned together. -/
theorem poisoned_word {s : State} {off : Nat} (h : off < 2 ^ 22) :
    s.poisoned (benchBase + off / 4 * 4) = s.poisoned (benchBase + off) := by
  have hle : off / 4 * 4 < 2 ^ 22 := by omega
  have hbench : (benchBase + off / 4 * 4 - benchBase) / 0x40000 = (benchBase + off - benchBase) / 0x40000 := by omega
  simp only [State.poisoned, State.offline, inBench_offset h, inBench_offset hle, if_true, poisonWord_offset h, poisonWord_offset hle, hbench,
    Nat.mul_div_cancel _ (show 0 < 4 by decide)]

/-! ### The end of a replacement (R324) -/

/-- A word marked among those that could not be read stays marked. -/
theorem marked_each {base o : Nat} {bad : List Nat} (ho : o ∈ bad) (s : State) :
    Store.get false (each bad (fun o s => s.setPoison (benchBase + base + o % 0x40000) true) s).poison
      (poisonWord (benchBase + base + o % 0x40000)) = true :=
  each_reaches (P := fun t => Store.get false t.poison (poisonWord (benchBase + base + o % 0x40000)) = true)
    (f := fun o s => s.setPoison (benchBase + base + o % 0x40000) true) (x := o)
    (fun t => Store.get_set_same (false : Bool) t.poison (poisonWord (benchBase + base + o % 0x40000)) true)
    (fun y t h => by
      show Store.get false (Store.set false t.poison (poisonWord _) true) _ = true
      by_cases hk : poisonWord (benchBase + base + y % 0x40000) = poisonWord (benchBase + base + o % 0x40000)
      · rw [hk, Store.get_set_same]
      · rw [Store.get_set_ne _ _ _ hk, h]) ho s

/-- The copies made by a replacement of bench b, with the words that could not be read. -/
def replaceCopied (b : Nat) (bad : List Nat) (s : State) : State :=
  each bad (fun o s => s.setPoison (benchBase + b * 0x40000 + o % 0x40000) true) (benchSweep (b * 0x40000) ((b + 1) * 0x40000) s)

/-- The switch of a replacement of bench b to the spare. -/
def replaceSwitched (b : Nat) (s : State) : State :=
  raise .bench 0 4 (((((setBistPhase 0 s).wr .BENCH_STATUS_BIST_BUSY 0).wr .BENCH_STATUS_REPLACING 0).wr
    .BENCH_BENCH_HEALTH_HEALTH 2 0 0 b).wr .BENCH_STATUS_SPARE_COVER b)

theorem replaceDone_eq (bad : List Nat) (s : State) :
    replaceDone bad s = letRest s.ben.bist (replaceSwitched s.ben.bist (replaceCopied s.ben.bist bad s)) := rfl

theorem replaceDone_switches {s : State} (hb : s.ben.bist < 16) (bad : List Nat) : bistPhase (replaceDone bad s) = 0 ∧
    benchHealth (replaceDone bad s) s.ben.bist = 2 ∧ spareBench (replaceDone bad s) = s.ben.bist ∧
    (replaceDone bad s).rd .BENCH_STATUS_REPLACING = 0 ∧ (replaceDone bad s).rd .BENCH_STATUS_BIST_BUSY = 0 ∧
    Raised (replaceDone bad s) .bench 0 4 := by
  rw [replaceDone_eq]
  refine ⟨(letRest_rd (by decide) ..).trans ?_, (letRest_rd (by decide) ..).trans ?_, (letRest_rd (by decide) ..).trans ?_,
    (letRest_rd (by decide) ..).trans ?_, (letRest_rd (by decide) ..).trans ?_, (letRest_rd (by decide) ..).trans (raise_raw ..)⟩
  all_goals simp [replaceSwitched, setBistPhase, Reg.width, Reg.info]
  omega

theorem replaceDone_mem (bad : List Nat) (s : State) : (replaceDone bad s).mem = s.mem :=
  (replaceDone_keeps (Keeps.refl _ s) (Within.self _) bad).same .mem (Eq.refl _)

theorem letRest_poison (b : Nat) (s : State) : (letRest b s).poison = s.poison := by
  unfold letRest
  split <;> rfl

/-- A word that could not be read is copied poisoned. -/
theorem replaceDone_marks {s : State} (hb : s.ben.bist < 16) {bad : List Nat} {o : Nat} (ho : o ∈ bad) (hlt : o < 0x40000) :
    (replaceDone bad s).poisoned (benchBase + s.ben.bist * 0x40000 + o) = true := by
  have hmark := marked_each (base := s.ben.bist * 0x40000) ho (benchSweep (s.ben.bist * 0x40000) ((s.ben.bist + 1) * 0x40000) s)
  rw [Nat.mod_eq_of_lt hlt] at hmark
  have hin : inBench (benchBase + s.ben.bist * 0x40000 + o) 1 = true := by
    rw [inBench_iff, benchBase]
    omega
  refine poisoned_of_mark hin ?_
  rw [replaceDone_eq, letRest_poison, replaceSwitched, raise_poison]
  exact hmark

/-! ### The statement -/

/-- Settles O46: every command of a test by the one operation that it comes to. -/
theorem benchTests : Obligations.BenchTests := by
  unfold Obligations.BenchTests
  refine ⟨?start, ?spareInUse, ?copied, ?clean, ?failed, ?restored, ?waited, ?abortCopy, ?abortTest, ?replace, ?replaceWaits, ?foreign,
    ?replaced⟩
  case start =>
    intro s m b auto h hm hf hi hb hr hs hh
    obtain ⟨v, hauto, hv⟩ := exec_bistStart h hm b auto
    have hrd {r : Reg} (hr : .reg r ∉ wakes ++ fields [.BENCH_BIST_CTL_AUTO_REPLACE, .BENCH_BIST_CTL_BENCH]) :
      (bistAsked m.val v s).rd r = s.rd r := bistAsked_rd hr ..
    rw [bistStart_starts ((hrd (by decide)).trans_ne hf) ((hrd (by decide)).trans_ne hi) hb
      ((hrd (by decide)).trans_le (hr.trans_eq (hrd (by decide)).symm)) ((bistAsked_state ..).trans_ne hs)
      ((bistAsked_health ..).trans_lt hh)] at hv
    obtain ⟨hphase, hbusy, hfree, hbench, hfirst, hstop, hkeep, hpass, hfail, hwords⟩ := testStarted_starts b.val (bistAsked m.val v s)
    rw [hrd (by decide)] at hfirst hstop
    exact ⟨_, hv, hphase, hbusy, hfree, hbench, hfirst, hstop, hkeep.trans (bistAsked_auto hauto ..), hpass, hfail, hwords⟩
  case spareInUse =>
    intro s m b auto h hm hf
    obtain ⟨v, -, hv⟩ := exec_bistStart h hm b auto
    rw [bistStart_refused ((bistAsked_rd (by decide) ..).trans hf)] at hv
    exact ⟨_, hv, (bistPhase_recordErr ..).trans (bistAsked_phase ..), recorded_recordErr (bistAsked_errors m.val v s) (by decide) m.isLt ..⟩
  case copied =>
    intro s hd hp
    exact ⟨_, act_on hd hp _, (bistPhase_wr (by decide) ..).trans (bistPhase_setBistPhase 2)⟩
  case clean =>
    intro s hd hp
    exact ⟨_, act_on hd hp _, (bistPhase_wr (by decide) ..).trans (bistPhase_setBistPhase 3)⟩
  case failed =>
    intro s f fs hd hp hb
    obtain ⟨hfail, hwords, haddr, hphase, hbusy, hraised⟩ := testFailed_results hb (n := (fs.map BitVec.toNat).length + 1) f.isLt
    refine ⟨_, (act_on hd hp _).trans (congrArg _ (testDone_failed ..)), ?_⟩
    rw [List.length_map] at hfail hwords haddr hphase hbusy hraised ⊢
    split
    · obtain ⟨hphase, -, hrep, -, -⟩ := startReplace_starts s.ben.bist (benchFails s.ben.bist (testFailed f.toNat (fs.length + 1) s))
      exact ⟨(startReplace_rd (by decide) ..).trans hfail, (startReplace_rd (by decide) ..).trans hwords,
        (startReplace_rd (by decide) ..).trans haddr, (startReplace_rd (by decide) ..).trans hraised, hphase, hrep⟩
    · exact ⟨hfail, hwords, haddr, hraised, hphase, hbusy⟩
  case restored => exact fun s hd hp hn => ⟨_, act_on hd hp _, restoreDone_ends hn⟩
  case waited =>
    intro s b hd hp hn
    obtain ⟨u, hu, he⟩ := restoreDone_replaces hn
    obtain ⟨hphase, hben, hrep, hbusy, hfree⟩ := startReplace_held b u
    refine ⟨_, (act_on hd hp _).trans (congrArg _ he), hphase, ?_, ?_, hrep, hbusy, hfree⟩
    · rw [hben]
    · rw [hben]
      exact hu
  case abortCopy =>
    intro s m h hm hp
    obtain ⟨v, hv⟩ := exec_bistAbort h hm
    exact ⟨_, hv, endTest_copying ((bistAsked_phase ..).trans hp)⟩
  case abortTest =>
    intro s m h hm hp
    obtain ⟨v, hv⟩ := exec_bistAbort h hm
    exact ⟨_, hv, endTest_testing ((bistAsked_phase ..).trans hp)⟩
  case replace =>
    intro s b h hb ht h4 hp hs hh ha
    obtain ⟨v, hv⟩ := exec_benchReplace h ha b
    rw [benchReplace_starts hb (by simpa [spareTaken] using ht) (by simpa using h4) (by simpa using hp) (by simpa using hs)
      (by simpa using hh)] at hv
    obtain ⟨hphase, hben, hrep, hbusy, hfree⟩ := startReplace_held b.val (bistAsked 2 v s)
    exact ⟨_, hv, hphase, congrArg Benches.bist hben, hrep, hbusy, hfree⟩
  case replaceWaits =>
    intro s b h hb hp hab hne hh hn ha
    obtain ⟨v, hv⟩ := exec_benchReplace h ha b
    rw [benchReplace_waits hb (by simpa using hp) (by simpa using hab) (by simpa using hne) (by simpa using hh)] at hv
    refine ⟨_, hv, (bistAsked_phase ..).trans hp, ?_⟩
    simp [hn]
  case foreign =>
    intro s m b h hm
    exact ⟨_, exec_benchReplace_foreign h hm b, (bistPhase_recordErr ..).trans (hostWake_rd _ (by decide) (by decide) (by decide) (by decide) ..),
      recorded_hostWake (by decide) ..⟩
  case replaced =>
    intro s bad hd hp hb
    obtain ⟨hphase, hhealth, hspare, hrep, hbusy, hraised⟩ := replaceDone_switches hb (bad.map BitVec.toNat)
    exact ⟨_, act_on hd hp _, hphase, hhealth, hspare, hrep, hbusy, hraised, replaceDone_mem .., fun o ho =>
      replaceDone_marks hb (List.mem_map_of_mem ho) o.isLt⟩

end Sys2Proof.Machine
end

section
/-! PROOFS. Errors in bench words, failures and power states of the benches (R306, R308, R317 to R319, R323, R325), and the statement about
them. -/

namespace Sys2Proof.Machine

-- One declaration at a time: the memory limit counts the stack of every thread that elaborates one.
set_option Elab.async false

/-! ### An uncorrectable word (R306) -/

/-- The record of an uncorrectable word at a bench offset, its unit having met n of them. -/
def recordBenchUe (off unit n : Nat) (s : State) : State :=
  wake 5 <| raise .bench 0 1 ((((({ s with ben := { s.ben with ueCount := Store.set 0 s.ben.ueCount unit n } } : State).setPoison
    (benchBase + off) true).wr .BENCH_UE_ADDR_OFFSET off).wr .BENCH_UE_ADDR_IN_SPARE (if inSpare s off then 1 else 0)).inc
    .BENCH_ECC_CNT_UE)

/-- A word that is not poisoned yet is recorded, and its unit may fail. -/
theorem benchUncorrectable_cases {s : State} {off : Nat} (hp : s.poisoned (benchBase + off) = false) : ∃ unit n,
    benchUncorrectable off s = recordBenchUe off unit n s ∨ benchUncorrectable off s = benchFails unit (recordBenchUe off unit n s) := by
  unfold benchUncorrectable
  rw [if_neg (by rw [hp]; exact Bool.false_ne_true)]
  exact ⟨if inSpare s off then 16 else off / 0x40000, Store.get 0 s.ben.ueCount (if inSpare s off then 16 else off / 0x40000) + 1,
    (ite_eq_or_eq ..).symm⟩

/-- What the record of an uncorrectable word leaves, whatever fails by it. -/
structure UeRecorded (off : Nat) (s t : State) : Prop where
  mem : t.mem = s.mem
  marked : Store.get false t.poison (poisonWord (benchBase + off)) = true
  address : t.rd .BENCH_UE_ADDR_OFFSET = off
  counted : t.rd .BENCH_ECC_CNT_UE = satAdd (Reg.width .BENCH_ECC_CNT_UE) (s.rd .BENCH_ECC_CNT_UE) 1
  raised : Raised t .bench 0 1

theorem recordBenchUe_records {off : Nat} (ho : off < 2 ^ 22) (unit n : Nat) (s : State) : UeRecorded off s (recordBenchUe off unit n s) where
  mem := by simp [recordBenchUe, State.inc]
  marked := by
    simp only [recordBenchUe, wake_poison, raise_poison, State.inc, State.wr_poison]
    exact Store.get_set_same (false : Bool) s.poison (poisonWord (benchBase + off)) true
  address := by
    simp only [recordBenchUe, wake_rd, raise_rd, State.rd_inc_reg, State.rd_wr_reg, State.rd_wr_same, ne_eq, reduceCtorEq, not_false_eq_true]
    exact Nat.mod_eq_of_lt ho
  counted := by
    simp only [recordBenchUe, wake_rd, raise_rd, State.rd_inc_same, State.rd_wr_reg, ne_eq, reduceCtorEq, not_false_eq_true]
    rfl
  raised := (wake_rd _ (by decide) (by decide) (by decide) (by decide) ..).trans (raise_raw ..)

/-- A bench that fails leaves the record as it is (R323). -/
theorem UeRecorded.benchFails {off : Nat} {s t : State} (h : UeRecorded off s t) (b : Nat) : UeRecorded off s (benchFails b t) := by
  have honly := (benchFails_keeps (.refl _ t) (.self _) b).only
  exact { mem := Eq.trans (honly .mem (by decide)) h.mem
          marked := (congrArg (Store.get false · _) (honly .poison (by decide))).trans h.marked
          address := (honly (.reg .BENCH_UE_ADDR_OFFSET) (by decide) ..).trans h.address
          counted := (honly (.reg .BENCH_ECC_CNT_UE) (by decide) ..).trans h.counted
          raised := ((Onward.refl t).benchFails b).raised _ _ _ h.raised }

theorem benchUncorrectable_records {s : State} {off : Nat} (ho : off < 2 ^ 22) (hp : s.poisoned (benchBase + off) = false) :
    UeRecorded off s (benchUncorrectable off s) := by
  obtain ⟨unit, n, h | h⟩ := benchUncorrectable_cases hp
  · exact h ▸ recordBenchUe_records ho unit n s
  · exact h ▸ (recordBenchUe_records ho unit n s).benchFails unit

/-! ### The read of a bench word (R306, R308) -/

/-- The word at a bench offset no longer holds an error. -/
def mendWord (off : Nat) (s : State) : State := { s with ben := { s.ben with flaws := Store.set 0 s.ben.flaws (off / 4) 0 } }

theorem mendWord_flaw (off : Nat) (s : State) : Store.get 0 (mendWord off s).ben.flaws (off / 4) = 0 :=
  Store.get_set_same 0 s.ben.flaws (off / 4) 0

section
variable {s : State} {off : Nat}

theorem benchWord_sound (h : Store.get 0 s.ben.flaws (off / 4) = 0) : benchWord off s = s := by
  unfold benchWord
  split
  case h_1 => rfl
  case h_2 hf => exact absurd h hf

theorem benchWord_poisoned (h : s.poisoned (benchBase + off) = true) : benchWord off s = s := by
  unfold benchWord
  split
  · rfl
  · exact if_pos h

theorem benchWord_corrected (h : Store.get 0 s.ben.flaws (off / 4) = 1) (hp : s.poisoned (benchBase + off) = false) :
    benchWord off s = benchCorrected (mendWord off s) := by
  rw [benchWord, h]
  simp [hp, mendWord]

theorem benchWord_uncorrectable (h : 2 ≤ Store.get 0 s.ben.flaws (off / 4)) (hp : s.poisoned (benchBase + off) = false) :
    benchWord off s = benchUncorrectable (off / 4 * 4) (mendWord off s) := by
  unfold benchWord
  split
  case h_1 h0 => omega
  case h_2 => rw [hp, if_neg Bool.false_ne_true, if_neg (by omega), mendWord]

/-- A word that the read finds uncorrectable is recorded at its first byte. -/
theorem benchWord_records (ho : off < 2 ^ 22) (h : 2 ≤ Store.get 0 s.ben.flaws (off / 4)) (hp : s.poisoned (benchBase + off) = false) :
    UeRecorded (off / 4 * 4) s (benchWord off s) := by
  rw [benchWord_uncorrectable h hp]
  have hrec := benchUncorrectable_records (s := mendWord off s) (off := off / 4 * 4) (by omega) ((poisoned_word ho).trans hp)
  exact ⟨hrec.mem, hrec.marked, hrec.address, hrec.counted, hrec.raised⟩

end

/-- It counts as poisoned from its first byte on. -/
theorem UeRecorded.poisoned {off : Nat} {s t : State} (ho : off < 2 ^ 22) (h : UeRecorded (off / 4 * 4) s t) :
    t.poisoned (benchBase + off) = true :=
  (poisoned_word ho).symm.trans (poisoned_of_mark (inBench_offset (by omega)) h.marked)

theorem benchCorrected_counts (s : State) : (benchCorrected s).mem = s.mem ∧ (benchCorrected s).ben = s.ben ∧
    (benchCorrected s).rd .BENCH_ECC_CNT_CE = satAdd (Reg.width .BENCH_ECC_CNT_CE) (s.rd .BENCH_ECC_CNT_CE) 1 := by
  have honly : OnlyChanges (events ++ [.holdoff]) (s.inc .BENCH_ECC_CNT_CE) (benchCorrected s) :=
    (raiseHeld_keeps (.refl _ _) (.of_beq (by decide +kernel)) ..).only
  exact ⟨honly .mem (by decide), honly .ben (by decide), (honly (.reg .BENCH_ECC_CNT_CE) (by decide) ..).trans (State.rd_inc_same ..)⟩

/-- The word at a bench offset as the scrub finds it: an error may have come to it. -/
def scrubbed (off : Nat) (r : Fin 3) (s : State) : State := if r.val = 0 then s else addBenchFlaw (r.val == 2) off s

theorem scrubbed_flaw (off : Nat) (r : Fin 3) (s : State) :
    Store.get 0 (scrubbed off r s).ben.flaws (off / 4) = max (Store.get 0 s.ben.flaws (off / 4)) r.val := by
  unfold scrubbed
  split
  case isTrue h => rw [h, Nat.max_zero]
  case isFalse h =>
    have hr : (if (r.val == 2) = true then 2 else 1) = r.val := by
      by_cases h2 : r.val = 2
      · rw [h2]
        rfl
      · rw [if_neg (by rwa [beq_iff_eq])]
        omega
    simp only [addBenchFlaw, Store.get_set_same, hr]

/-- The error that has come to a word is nothing that the device knows of. -/
theorem scrubbed_same (off : Nat) (r : Fin 3) (s : State) : (∀ q i x u, (scrubbed off r s).rd q i x u = s.rd q i x u) ∧
    (scrubbed off r s).mem = s.mem ∧ ∀ a, (scrubbed off r s).poisoned a = s.poisoned a := by
  unfold scrubbed
  split <;> exact ⟨fun _ _ _ _ => rfl, rfl, fun _ => rfl⟩

section
variable {s : State} {off : BitVec 22} (r : Fin 3)

theorem exec_benchScrub (hd : s.dev = .up)
    (h : benchState s (off.toNat / 0x40000) = 0 ∧ benchHealth s (off.toNat / 0x40000) ≠ 3 ∧ thermalLimit s = false) :
    exec (.benchScrub off r) s = .next (benchWord off.toNat (scrubbed off.toNat r s)) := act_on hd h _

/-- A scrub that is paused, or whose read leaves the state alone, changes nothing. -/
theorem exec_benchScrub_idle
    (h : benchState s (off.toNat / 0x40000) = 0 ∧ benchHealth s (off.toNat / 0x40000) ≠ 3 ∧ thermalLimit s = false →
    benchWord off.toNat (scrubbed off.toNat r s) = s) : exec (.benchScrub off r) s = .next s := by
  refine act_same ?_
  unfold on
  split
  case isTrue hon => exact h hon
  case isFalse => rfl

end

/-! ### Failures (R323, R325) -/

section
variable {s : State}

theorem benchOffline_offline (b : Nat) (s : State) : benchHealth (benchOffline b s) b = 3 ∧ Raised (benchOffline b s) .bench 0 5 :=
  ⟨(raise_rd _ (by decide) (by decide) ..).trans (State.rd_wr_same ..), raise_raw ..⟩

theorem endTest_health (b : Nat) (s : State) : benchHealth (endTest s) b = benchHealth s b :=
  (endTest_keeps (.refl _ s) (.self _)).only (.reg .BENCH_BENCH_HEALTH_HEALTH) (by decide) 0 0 b

/-- A healthy bench that has failed, before what follows from it. -/
def markBench (b : Nat) (s : State) : State := wake 5 (raise .bench 0 2 (s.wr .BENCH_BENCH_HEALTH_HEALTH 1 0 0 b))

theorem markBench_failed (b : Nat) (s : State) : benchHealth (markBench b s) b = 1 ∧ Raised (markBench b s) .bench 0 2 := by
  refine ⟨?_, (wake_rd _ (by decide) (by decide) (by decide) (by decide) ..).trans (raise_raw ..)⟩
  simp [benchHealth, markBench, Reg.width, Reg.info]

theorem benchFails_healthy {b : Nat} (hb : b < 16) (h : benchHealth s b = 0) : benchFails b s =
    if spareTaken s b then benchOffline b (markBench b s) else if s.ben.bist ≠ b then endTest (markBench b s) else markBench b s := by
  unfold benchFails
  rw [if_neg (by omega), if_neg (not_not.mpr h)]
  rfl

/-- A healthy bench that fails is marked, and put offline where the spare is taken. -/
theorem benchFails_fails {b : Nat} (hb : b < 16) (h : benchHealth s b = 0) :
    benchHealth (benchFails b s) b = (if spareTaken s b then 3 else 1) ∧ Raised (benchFails b s) .bench 0 2 ∧
      (spareTaken s b = true → Raised (benchFails b s) .bench 0 5) := by
  obtain ⟨hone, hraised⟩ := markBench_failed b s
  rw [benchFails_healthy hb h]
  cases ht : spareTaken s b with
  | true =>
    obtain ⟨hthree, hoff⟩ := benchOffline_offline b (markBench b s)
    exact ⟨hthree, ((Onward.refl _).benchOffline b).raised _ _ _ hraised, fun _ => hoff⟩
  | false =>
    refine ⟨?_, ?_, fun hf => absurd hf Bool.false_ne_true⟩
    · simp only [Bool.false_eq_true, if_false]
      split
      · exact (endTest_health ..).trans hone
      · exact hone
    · simp only [Bool.false_eq_true, if_false]
      exact (Onward.ite (Onward.endTest (.refl _)) (.refl _)).raised _ _ _ hraised

theorem benchFails_failed {b : Nat} (hb : b < 16) (h : benchHealth s b ≠ 0) : benchFails b s = s := by
  rw [benchFails, if_neg (by omega), if_pos h]

theorem benchFails_spare (hc : spareBench s < 16) (h : benchHealth s (spareBench s) ≠ 3) :
    benchFails 16 s = benchOffline (spareBench s) s := by
  have hcov : coveredBench s = spareBench s := if_pos hc
  rw [benchFails, if_pos rfl, hcov, if_pos ⟨hc, h⟩]

end

/-! ### Modes (R317 to R319) -/

/-- A store of which keys are left out reads its default there, and as before elsewhere. -/
theorem get_filter {α : Type} (d : α) (keep : Nat → Bool) (l : Store α) (k : Nat) :
    Store.get d (l.filter (fun p => keep p.1)) k = if keep k then Store.get d l k else d := by
  induction l with
  | nil => simp [Store.get]
  | cons p l ih =>
    obtain ⟨a, v⟩ := p
    by_cases hk : a = k
    · subst hk
      cases ha : keep a <;> simp_all [Store.get]
    · cases ha : keep a <;> simp [ha, Store.get, hk, ih]

/-- From s to t bench b keeps its mode, its state and what holds it in service, and no byte that was 0 gets another value. -/
structure ModeApart (b : Nat) (s t : State) : Prop where
  mode : benchMode t b = benchMode s b
  state : benchState t b = benchState s b
  refused : offRefused t b = offRefused s b
  zero : ∀ a, Store.get 0 s.mem a = 0 → Store.get 0 t.mem a = 0

theorem ModeApart.refl (b : Nat) (s : State) : ModeApart b s s := ⟨rfl, rfl, rfl, fun _ => id⟩

theorem ModeApart.trans {b : Nat} {s t u : State} (h : ModeApart b s t) (k : ModeApart b t u) : ModeApart b s u :=
  ⟨k.mode.trans h.mode, k.state.trans h.state, k.refused.trans h.refused, fun a ha => k.zero a (h.zero a ha)⟩

/-- What a write of BPWR_CFG and its wake may change. -/
def modeParts : List Part := fields [.BENCH_BPWR_CFG_MODE, .BENCH_BPWR_STAT_STATE] ++ errors ++ wakes ++ [.mem, .poison, .ben, .missed]

/-- What refuses a bench to be switched OFF rests on none of it but the bench of the test. -/
theorem offRefused_congr {s t : State} (h : OnlyChanges modeParts s t) (hb : t.ben.bist = s.ben.bist) (b : Nat) :
    offRefused t b = offRefused s b := by
  have hrd {r : Reg} (hr : .reg r ∉ modeParts) (i x u : Nat) : t.rd r i x u = s.rd r i x u := h (.reg r) hr i x u
  have hphase : bistPhase t = bistPhase s := hrd (by decide) ..
  have hspare : spareBench t = spareBench s := hrd (by decide) ..
  unfold offRefused
  rw [hphase, hspare, hb]
  simp only [ringOffset, ringSize, hrd (r := .TACK_RING_CFG_EN) (by decide), hrd (r := .TACK_RING_BASE_BASE) (by decide),
    hrd (r := .TACK_RING_CFG_SIZE_LOG) (by decide), hrd (r := .CTRL_ENABLE) (by decide), hrd (r := .STITCH_PROG_BASE_BASE) (by decide),
    hrd (r := .STITCH_PROG_LEN_LEN) (by decide), hrd (r := .STITCH_TPL_BASE_BASE) (by decide)]

/-- The modes that a bench can have besides the one that a write leaves it. -/
theorem setBenchMode_only (m b v : Nat) (s : State) : OnlyChanges modeParts s (setBenchMode m b v s) :=
  fun p hp => (setBenchMode_keeps (.refl _ s) (.self _) m b v).only p fun h => hp ((by decide : _ ⊆ modeParts) h)

theorem setBenchMode_bist (m b v : Nat) (s : State) : (setBenchMode m b v s).ben.bist = s.ben.bist := by
  unfold setBenchMode
  split
  · split
    · exact congrArg Benches.bist (recordErr_ben ..)
    · rfl
  · rfl

section
variable {s : State} {m b v : Nat}

theorem setBenchMode_keepsOff (h : v ≠ 2 ∨ benchMode s b = 2) : setBenchMode m b v s = s.wr .BENCH_BPWR_CFG_MODE v 0 0 b :=
  if_neg fun hn => h.elim (fun h => h hn.1) hn.2

theorem setBenchMode_refused (hv : v = 2) (hm : benchMode s b ≠ 2) (h : offRefused s b = true) :
    setBenchMode m b v s = actionErr .bench 0 errPrepareFailed m s := by
  rw [setBenchMode, if_pos ⟨hv, hm⟩, if_pos h]

theorem setBenchMode_off (hv : v = 2) (hm : benchMode s b ≠ 2) (h : offRefused s b = false) :
    setBenchMode m b v s = setBenchState b 3 (wipeBench b (s.wr .BENCH_BPWR_CFG_MODE 2 0 0 b)) := by
  rw [setBenchMode, if_pos ⟨hv, hm⟩, if_neg (by rw [h]; exact Bool.false_ne_true)]

end

/-- A wiped bench holds zeros, and no byte of another bench gets another value than it had. -/
theorem wipeBench_zero {b a : Nat} {s : State} (h : inBench a 1 = true ∧ benchOf a = b ∨ Store.get 0 s.mem a = 0) :
    Store.get 0 (wipeBench b s).mem a = 0 := by
  refine (get_filter 0 (fun a => !(inBench a 1 && benchOf a == b)) s.mem a).trans ?_
  rcases h with ⟨hin, hb⟩ | h
  · simp [hin, hb]
  · rw [h, ite_self]

@[simp] theorem wipeBench_rd (b : Nat) (s : State) (r : Reg) (i x u : Nat) : (wipeBench b s).rd r i x u = s.rd r i x u := rfl

@[simp] theorem setBenchState_mem (b v : Nat) (s : State) : (setBenchState b v s).mem = s.mem := rfl

/-- A bench that is switched OFF holds zeros, and no byte that was 0 gets another value. -/
theorem switchedOff_zero {b a : Nat} {s : State} (h : inBench a 1 = true ∧ benchOf a = b ∨ Store.get 0 s.mem a = 0) :
    Store.get 0 (setBenchState b 3 (wipeBench b (s.wr .BENCH_BPWR_CFG_MODE 2 0 0 b))).mem a = 0 := by
  rw [setBenchState_mem, wipeBench_zero]
  rwa [State.wr_mem]

/-- The mode of one bench is nothing to another. -/
theorem setBenchMode_apart {b y : Nat} (hy : y ≠ b) (m v : Nat) (s : State) : ModeApart b s (setBenchMode m y v s) := by
  have hrefused := offRefused_congr (setBenchMode_only m y v s) (setBenchMode_bist m y v s) b
  have hplace {r : Reg} (w : Nat) (u : State) : ∀ q, (u.wr r w 0 0 y).rd q 0 0 b = u.rd q 0 0 b := fun q => by
    by_cases hq : r = q
    · exact hq ▸ State.rd_wr_place _ _ _ fun h => hy h.2.2
    · exact State.rd_wr_reg _ hq ..
  by_cases hv : v = 2 ∧ benchMode s y ≠ 2
  · cases h : offRefused s y with
    | true =>
      rw [setBenchMode_refused hv.1 hv.2 h] at hrefused ⊢
      refine ⟨recordErr_rd _ (by decide) (by decide) (by decide) (by decide) (by decide) ..,
        recordErr_rd _ (by decide) (by decide) (by decide) (by decide) (by decide) .., hrefused, fun a ha => ?_⟩
      rw [actionErr, recordErr_mem]
      exact ha
    | false =>
      rw [setBenchMode_off hv.1 hv.2 h] at hrefused ⊢
      exact ⟨(hplace ..).trans ((wipeBench_rd ..).trans (hplace 2 s _)), (hplace ..).trans ((wipeBench_rd ..).trans (hplace 2 s _)), hrefused,
        fun a ha => switchedOff_zero (.inr ha)⟩
  · have hoff : v ≠ 2 ∨ benchMode s y = 2 := by omega
    rw [setBenchMode_keepsOff hoff] at hrefused ⊢
    exact ⟨hplace v s _, hplace v s _, hrefused, fun a ha => ha⟩

theorem hostWake_apart (b m : Nat) (s : State) : ModeApart b s (hostWake m s) where
  mode := hostWake_rd _ (by decide) (by decide) (by decide) (by decide) ..
  state := hostWake_rd _ (by decide) (by decide) (by decide) (by decide) ..
  refused := offRefused_congr (hostWake_keeps (.refl _ s) (.of_beq (by decide +kernel)) m).only (congrArg Benches.bist (hostWake_ben ..)) b
  zero a ha := by rwa [hostWake_mem]

/-- What a write of BPWR_CFG leaves of bench b is what its own step leaves. -/
theorem writeBpwr_own {b : Nat} (hb : b < 16) (m v : Nat) (s : State) : ∃ u, ModeApart b s u ∧
    ModeApart b (setBenchMode m b (bits v (2 * b + 1) (2 * b)) u) (writeBpwr m v s) :=
  each_own (R := ModeApart b) (f := fun b => setBenchMode m b (bits v (2 * b + 1) (2 * b))) (ModeApart.refl b) ModeApart.trans
    (fun _ hy _ => setBenchMode_apart hy ..) (mem_upTo.mpr hb) (upTo_nodup 16) s

/-- The bytes of a bench. -/
theorem benchOf_offset {b d : Nat} (hb : b < 16) (hd : d < 0x40000) : inBench (benchBase + 0x40000 * b + d) 1 = true ∧
    benchOf (benchBase + 0x40000 * b + d) = b := by
  rw [inBench_iff, benchOf, benchBase]
  omega

/-- What a write of BPWR_CFG leaves of bench b (R317, R319). -/
theorem writeBpwr_bench {b : Nat} (hb : b < 16) (m v : Nat) (s : State) :
    (bits v (2 * b + 1) (2 * b) ≠ 2 → benchMode (writeBpwr m v s) b = bits v (2 * b + 1) (2 * b)) ∧
    (bits v (2 * b + 1) (2 * b) = 2 → benchMode s b ≠ 2 → offRefused s b = false →
      benchMode (writeBpwr m v s) b = 2 ∧ benchState (writeBpwr m v s) b = 3 ∧
        ∀ d, d < 0x40000 → (writeBpwr m v s).byte (benchBase + 0x40000 * b + d) = 0) ∧
    (bits v (2 * b + 1) (2 * b) = 2 → benchMode s b ≠ 2 → offRefused s b = true →
      benchMode (writeBpwr m v s) b = benchMode s b ∧ benchState (writeBpwr m v s) b = benchState s b) ∧
    (bits v (2 * b + 1) (2 * b) = 2 → benchMode s b = 2 → benchMode (writeBpwr m v s) b = 2) := by
  obtain ⟨u, hu, ht⟩ := writeBpwr_own hb m v s
  have hlt : bits v (2 * b + 1) (2 * b) < 4 := by
    have h := bits_lt v (2 * b + 1) (2 * b)
    rwa [show 2 * b + 1 + 1 - 2 * b = 2 by omega] at h
  generalize writeBpwr m v s = t at ht ⊢
  generalize bits v (2 * b + 1) (2 * b) = w at hlt ht ⊢
  have hkept (h : w ≠ 2 ∨ benchMode s b = 2) : benchMode t b = w := by
    rw [setBenchMode_keepsOff (h.imp_right hu.mode.trans)] at ht
    exact ht.mode.trans ((State.rd_wr_same ..).trans (Nat.mod_eq_of_lt hlt))
  refine ⟨fun h => hkept (.inl h), fun h hm hr => ?_, fun h hm hr => ?_, fun h hm => (hkept (.inr hm)).trans h⟩
  · rw [setBenchMode_off h (hu.mode.trans_ne hm) (hu.refused.trans hr)] at ht
    refine ⟨ht.mode.trans ((State.rd_wr_reg _ (by decide) ..).trans ((wipeBench_rd ..).trans (State.rd_wr_same ..))),
      ht.state.trans (State.rd_wr_same ..),
      fun d hd => ?_⟩
    rw [State.byte, ht.zero _ (switchedOff_zero (.inl (benchOf_offset hb hd))), ite_self]
  · rw [setBenchMode_refused h (hu.mode.trans_ne hm) (hu.refused.trans hr)] at ht
    exact ⟨ht.mode.trans ((recordErr_rd _ (by decide) (by decide) (by decide) (by decide) (by decide) ..).trans hu.mode),
      ht.state.trans ((recordErr_rd _ (by decide) (by decide) (by decide) (by decide) (by decide) ..).trans hu.state)⟩

/-! ### States (R317, R318) -/

/-- A bench that leaves OFF in D0 or D1 comes back ON: its idle time has just begun. -/
theorem benchRest_fresh {s : State} {b : Nat} (hm : benchMode s b ≠ 2) (hd : s.rd .POWER_STATUS_DSTATE < 2)
    (hl : Store.get 0 s.ben.last b = s.osc) : benchRest s b = 0 := by
  have hidle : benchIdle s b = false := by
    rw [benchIdle, hl, decide_eq_false_iff_not]
    omega
  simp [benchRest, hidle, hm, show s.rd .POWER_STATUS_DSTATE ≠ 2 by omega, show s.rd .POWER_STATUS_DSTATE ≠ 3 by omega,
    show s.rd .POWER_STATUS_DSTATE ≠ 4 by omega]

/-- A bench in retention that may be ON, or that an access held waits for, reaches ON. -/
theorem exec_benchWake {s : State} {b : Fin 16} (hd : s.dev = .up) (h3 : benchState s b.val ≠ 3)
    (h : (benchState s b.val ≠ 0 ∧ benchRest s b.val = 0) ∨ s.ben.held.any (fun x => x.touches b.val) = true) :
    exec (.benchWake b) s = .next (benchWake b.val s) := by
  show execBenchWake b s = _
  rw [execBenchWake, act_up hd, if_neg h3, on_pos h]

theorem exec_benchWake_off {s : State} {b : Fin 16} (hd : s.dev = .up) (h3 : benchState s b.val = 3) (hm : benchMode s b.val ≠ 2) :
    exec (.benchWake b) s = .next (leaveOff b.val s) := by
  show execBenchWake b s = _
  rw [execBenchWake, act_up hd, if_pos h3, on_pos hm]

theorem leaveOff_on {s : State} {b : Nat} (hm : benchMode s b ≠ 2) (hd : s.rd .POWER_STATUS_DSTATE < 2) :
    benchState (leaveOff b s) b = 0 := by
  have hrest := benchRest_fresh (s := { s with ben := { s.ben with last := Store.set 0 s.ben.last b s.osc } }) hm hd
    (Store.get_set_same 0 s.ben.last b s.osc)
  rw [leaveOff, hrest]
  exact State.rd_wr_same ..

/-! ### The statement -/

/-- Settles O45: the scrub by what the read of its word meets, timeouts by the bench that fails, modes by the one step of a pass that is the
bench's own. -/
theorem benchHealthAndPower : Obligations.BenchHealthAndPower := by
  unfold Obligations.BenchHealthAndPower
  refine ⟨?scrubIdle, ?scrubPoisoned, ?scrubMends, ?scrubFails, ?timeout, ?timeoutFailed, ?timeoutSpare, ?retention, ?modes, ?modesRefused,
    ?wakeIdle, ?wakeOff⟩
  case scrubIdle =>
    intro s off r _ h
    refine exec_benchScrub_idle r fun hon => ?_
    have h0 : max (Store.get 0 s.ben.flaws (off.toNat / 4)) r.val = 0 := by simpa [hon] using h
    have hsame : scrubbed off.toNat r s = s := if_pos (by omega)
    rw [hsame, benchWord_sound (by omega)]
  case scrubPoisoned => exact fun s off _ hp => exec_benchScrub_idle 0 fun _ => benchWord_poisoned hp
  case scrubMends =>
    intro s off r hd hf hp hs hh ht
    obtain ⟨hrd, hmem, hpoison⟩ := scrubbed_same off.toNat r s
    obtain ⟨hm, hben, hce⟩ := benchCorrected_counts (mendWord off.toNat (scrubbed off.toNat r s))
    refine ⟨_, exec_benchScrub r hd ⟨hs, hh, ht⟩, ?_⟩
    rw [benchWord_corrected ((scrubbed_flaw ..).trans hf) ((hpoison _).trans hp), hben]
    exact ⟨hm.trans hmem, mendWord_flaw .., hce.trans (congrArg (satAdd _ · 1) (hrd ..))⟩
  case scrubFails =>
    intro s off r hd hf hp hs hh ht
    obtain ⟨hrd, hmem, hpoison⟩ := scrubbed_same off.toNat r s
    have hrec := benchWord_records off.isLt ((scrubbed_flaw off.toNat r s).symm ▸ hf) ((hpoison _).trans hp)
    exact ⟨_, exec_benchScrub r hd ⟨hs, hh, ht⟩, hrec.mem.trans hmem, hrec.poisoned off.isLt, hrec.address,
      hrec.counted.trans (congrArg (satAdd _ · 1) (hrd ..)), hrec.raised⟩
  case timeout => exact fun s b hd hb h => ⟨_, act_up hd _, benchFails_fails hb h⟩
  case timeoutFailed => exact fun s b _ hb h => act_same (benchFails_failed hb h)
  case timeoutSpare =>
    exact fun s hd hc h => ⟨_, (act_up hd _).trans (congrArg _ (benchFails_spare hc h)), benchOffline_offline ..⟩
  case retention =>
    intro s b hd hm hs hr
    refine ⟨_, act_on hd ⟨hm, hs, hr⟩ _, (State.rd_wr_same ..).trans (Nat.mod_eq_of_lt ?_), rfl⟩
    show benchRest s b.val < 4
    omega
  case modes =>
    intro s m v h hm
    refine ⟨writeBpwr m.val v.toNat (hostWake m.val s), (act_up h.1 _).trans (congrArg _ (gateBy_ok (benchWriter_of_le hm) h.2 ..)),
      fun b hb => ?_⟩
    have hw := hostWake_apart b m.val s
    rw [← hw.mode, ← hw.state, ← hw.refused]
    exact writeBpwr_bench hb ..
  case modesRefused =>
    intro s m v hd hm
    refine ⟨_, (act_up hd _).trans (congrArg _ (gateBy_denied (benchWriter_of_gt hm) ..)), recorded_hostWake (by decide) .., ?_, fun b _ => ?_⟩
    · rw [recordErr_mem, hostWake_mem]
    · exact (recordErr_rd _ (by decide) (by decide) (by decide) (by decide) (by decide) ..).trans (hostWake_apart b m.val s).mode
  case wakeIdle =>
    intro s b hd h0 h3 hr hh
    refine ⟨_, exec_benchWake hd h3 (.inl ⟨h0, hr⟩), ?_⟩
    rw [benchWake, hh]
    exact ⟨State.rd_wr_same .., rfl⟩
  case wakeOff => exact fun s b hd h3 hm hlow => ⟨_, exec_benchWake_off hd h3 hm, leaveOff_on hm hlow, rfl⟩

end Sys2Proof.Machine
end

section
/-! PROOFS. Accesses of the benches (R305 to R318): refused, held or served; and the statement about them. -/

namespace Sys2Proof.Machine

-- One declaration at a time: the memory limit counts the stack of every thread that elaborates one.
set_option Elab.async false

/-! ### An access reaches its port (R25, R310, R315, R318) -/

section
variable {s : State} {x : BenchAccess}

theorem benchAccess_refused (h : ¬BenchAllows s x) : benchAccess x s = refuseAccess x s := if_pos (by
  cases ha : benchAligned x <;> simp_all [benchDenied, BenchAllows])

theorem benchAccess_allowed (h : BenchAllows s x) : benchAccess x s = benchArrive x s := if_neg (by simp [benchDenied, h.1, h.2])

theorem benchArrive_served (h : AtOnce s x) : benchArrive x s = serveAccess x s := by
  obtain ⟨h1, h2, h3, hheld, hwait⟩ := h
  simp [benchArrive, h1, h2, h3, hheld, hwait]

theorem benchAccess_served (h : BenchAllows s x) (ho : AtOnce s x) : benchAccess x s = serveAccess x s :=
  (benchAccess_allowed h).trans (benchArrive_served ho)

/-- An access that a wake or an earlier access of its master holds up joins those held. -/
theorem benchAccess_held (h : BenchAllows s x) (ho : ¬AtOnce s x) (h3 : meetsState s x 3 = false) :
    benchAccess x s = { s with ben := { s.ben with held := s.ben.held ++ [x] } } := by
  have hwaits : meetsState s x 1 = true ∨ meetsState s x 2 = true ∨ s.ben.held.any (fun y => y.master == x.master) = true ∨
      s.qry.waiting.any (fun y => y.master == x.master) = true := by
    by_contra hn
    simp only [not_or, Bool.not_eq_true] at hn
    obtain ⟨h1, h2, hheld, hwait⟩ := hn
    exact ho ⟨h1, h2, h3, hheld, hwait⟩
  rw [benchAccess_allowed h, benchArrive, if_neg (by rw [h3]; exact Bool.false_ne_true), if_pos hwaits]

/-- What a refused access leaves (R24). -/
theorem refuseAccess_records (hm : x.master < 32) : (refuseAccess x s).mem = s.mem ∧
    Recorded s (refuseAccess x s) .bench 0 errRegionDenied x.master ∧
    (x.kind = 0 → (refuseAccess x s).readData = List.replicate x.len 0) := by
  have hrec : Recorded s (recordErr .bench 0 errRegionDenied x.master (0 < x.kind) 0 s) .bench 0 errRegionDenied x.master :=
    recorded_recordErr (fun _ _ _ _ _ => rfl) (by decide) hm ..
  unfold refuseAccess
  dsimp only
  split
  · exact ⟨recordErr_mem .., hrec, fun _ => rfl⟩
  · exact ⟨recordErr_mem .., hrec, fun h => absurd h ‹_›⟩

end

/-- The management core's read draws a free value, and no other field changes. -/
theorem drawPool_free (m : Nat) (s : State) : ∃ f, drawPool m s = { s with free := f } := by
  unfold drawPool
  split
  · exact ⟨s.free + 1, rfl⟩
  · exact ⟨s.free, rfl⟩

section
variable {s : State} {m : Master} {off : BitVec 22} {x : BenchAccess} (hd : s.dev = .up)
include hd

/-- An access within the benches reaches its port, after the errors that have come to cells. -/
theorem exec_benchAccess {write mark : Bool} {len : Fin 65} {data : List Byte} {other : Option (Master × Fin 4 × BitVec 22 × List Byte)}
    (ce ue : List (BitVec 22)) (hn : 0 < (if write then data.length else len.val))
    (hlim : off.toNat + (if write then data.length else len.val) ≤ benchSize)
    (hx : x = { master := m.val, kind := if write then 1 else 0, off := off.toNat, len := if write then data.length else len.val, data, mark,
                other := other.map (fun o => (o.1.val, o.2.1.val, o.2.2.1.toNat, o.2.2.2)) }) :
    ∃ f, exec (.benchAccess m write off len data mark other ce ue) s = .next { benchAccess x (each ue
      (fun o s => addBenchFlaw true o.toNat s) (each ce (fun o s => addBenchFlaw false o.toNat s) s)) with free := f } := by
  obtain ⟨f, hf⟩ := drawPool_free m.val (benchAccess x (each ue (fun o s => addBenchFlaw true o.toNat s)
    (each ce (fun o s => addBenchFlaw false o.toNat s) s)))
  refine ⟨f, ?_⟩
  show execBenchAccess m write off len data mark other ce ue s = _
  rw [← hf, hx, execBenchAccess, act_up hd]
  exact congrArg _ (on_pos ⟨hn, hlim⟩ _)

theorem exec_benchRead {len : Fin 65} (hn : 0 < len.val) (hlim : off.toNat + len.val ≤ benchSize)
    (hx : x = { master := m.val, kind := 0, off := off.toNat, len := len.val, data := [], mark := false, other := none }) :
    ∃ f, exec (.benchAccess m false off len [] false none [] []) s = .next { benchAccess x s with free := f } :=
  exec_benchAccess hd [] [] hn hlim hx

/-- A read to which an uncorrectable error has come at its own offset. -/
theorem exec_benchRead_ue {len : Fin 65} (hn : 0 < len.val) (hlim : off.toNat + len.val ≤ benchSize)
    (hx : x = { master := m.val, kind := 0, off := off.toNat, len := len.val, data := [], mark := false, other := none }) :
    ∃ f, exec (.benchAccess m false off len [] false none [] [off]) s =
      .next { benchAccess x (addBenchFlaw true off.toNat s) with free := f } :=
  exec_benchAccess hd [] [off] hn hlim hx

theorem exec_benchWrite {data : List Byte} {mark : Bool} (hn : 0 < data.length) (hlim : off.toNat + data.length ≤ benchSize)
    (hx : x = { master := m.val, kind := 1, off := off.toNat, len := data.length, data := data, mark := mark, other := none }) :
    ∃ f, exec (.benchAccess m true off 0 data mark none [] []) s = .next { benchAccess x s with free := f } :=
  exec_benchAccess hd [] [] hn hlim hx

theorem exec_benchWrite_both {n : Master} {off' : BitVec 22} {data data' : List Byte} (hn : 0 < data.length)
    (hlim : off.toNat + data.length ≤ benchSize)
    (hx : x = { master := m.val, kind := 1, off := off.toNat, len := data.length, data := data, mark := false,
                other := some (n.val, 1, off'.toNat, data') }) :
    ∃ f, exec (.benchAccess m true off 0 data false (some (n, 1, off', data')) [] []) s = .next { benchAccess x s with free := f } :=
  exec_benchAccess hd [] [] hn hlim hx

theorem exec_benchAlias {clear : Bool} {data : List Byte} (hn : 0 < data.length) (hlim : off.toNat + data.length ≤ benchSize)
    (hx : x = { master := m.val, kind := if clear then 3 else 2, off := off.toNat, len := data.length, data, mark := false, other := none }) :
    exec (.benchAliasWrite m clear off data) s = .next (benchAccess x s) := by
  rw [hx]
  exact act_on hd ⟨hn, hlim⟩ _

end

/-! ### Benches touched (R318) -/

/-- What an access touches of the benches' other state. -/
theorem touchBench_rd {r : Reg} (hr : .BENCH_BPWR_STAT_STATE ≠ r) (a n : Nat) (s : State) (i x u : Nat) :
    (touchBench a n s).rd r i x u = s.rd r i x u :=
  (touchBench_keeps (.refl _ s) (.self _) a n).only (.reg r) (by simpa using hr.symm) i x u

theorem touchBench_held (a n : Nat) (s : State) : (touchBench a n s).ben.held = s.ben.held := by
  unfold touchBench
  split
  · exact each_rel (R := fun a b : State => b.ben.held = a.ben.held) (fun _ => rfl) (fun h k => k.trans h) (f := wakeBench)
      (fun _ _ _ => rfl) s
  · rfl

theorem wakeBench_on {b : Nat} {s : State} (h : benchState s b = 0) (c : Nat) : benchState (wakeBench c s) b = 0 := by
  rw [benchState, wakeBench, State.rd_wr]
  split
  · rw [Nat.zero_mod]
  · exact h

theorem touchBench_on {b : Nat} {s : State} (h : benchState s b = 0) (a n : Nat) : benchState (touchBench a n s) b = 0 := by
  unfold touchBench
  split
  · exact each_rel (R := fun a c : State => benchState a b = 0 → benchState c b = 0) (fun _ => id) (fun h k ha => k (h ha)) (f := wakeBench)
      (fun c _ _ ht => wakeBench_on ht c) s h
  · exact h

/-! ### Reads (R306, R316) -/

section
variable {s : State} {x : BenchAccess}

theorem serveAccess_readKind (hk : x.kind = 0) : serveAccess x s =
    { eccRead (benchBase + x.off) x.len (touchBench (benchBase + x.off) x.len s) with
      readData := (eccRead (benchBase + x.off) x.len (touchBench (benchBase + x.off) x.len s)).bytesFor x.master (benchBase + x.off) x.len } :=
  if_pos hk

/-- A read of sound cells answers the bytes and leaves memory alone. -/
theorem serveAccess_read (hc : CleanCells s) (hk : x.kind = 0) :
    (serveAccess x s).readData = s.bytesFor x.master (benchBase + x.off) x.len ∧
    (serveAccess x s).mem = s.mem ∧ (serveAccess x s).ben.held = s.ben.held ∧
    ∀ b, benchState s b = 0 → benchState (serveAccess x s) b = 0 := by
  have htouch := Noted.touchBench (benchBase + x.off) x.len s
  rw [serveAccess_readKind hk, eccRead_clean (Noted.clean hc htouch)]
  exact ⟨htouch.bytesFor .., touchBench_mem .., touchBench_held .., fun b hb => touchBench_on hb ..⟩

end

/-- A read by its offset or by its word's first byte meets the same error. -/
theorem benchWord_first {off : Nat} (ho : off < 2 ^ 22) (s : State) : benchWord (4 * (off / 4)) s = benchWord off s := by
  unfold benchWord
  rw [Nat.mul_div_cancel_left _ (show 0 < 4 by decide), Nat.mul_comm, poisoned_word ho]

/-- A read within one bench word meets the error of that word. -/
theorem eccRead_word {off n : Nat} (hn : 0 < n) (hw : off % 4 + n ≤ 4) (ho : off < 2 ^ 22) (s : State) :
    eccRead (benchBase + off) n s = benchWord off s := by
  have hin : inBench (benchBase + off) n = true := by
    rw [inBench_iff, benchBase]
    omega
  have hfirst : (benchBase + off - benchBase) / 4 = off / 4 := by omega
  have hone : (benchBase + off - benchBase + n + 3) / 4 - (benchBase + off - benchBase) / 4 = 1 := by omega
  unfold eccRead
  rw [if_neg (by omega), if_pos hin, hone, hfirst]
  split
  case isTrue hf => exact (benchWord_sound (by rw [hf]; rfl)).symm
  case isFalse => exact benchWord_first ho s

/-! ### Writes (R307, R310) -/

section
variable {s : State} {x : BenchAccess}

theorem serveAccess_write (hk : x.kind = 1) (ho : x.other = none) :
    serveAccess x s = markedWrite x (touchBench (benchBase + x.off) x.len s) := by
  simp [serveAccess, hk, benchWrite, ho]

theorem markedWrite_unmarked (h : x.mark = false ∨ writesMarks x.master = false) :
    markedWrite x s = writeWords x.master x.len (benchBase + x.off) x.data s :=
  if_neg (by rcases h with h | h <;> simp [h])

/-- A word that a marked write reaches is marked, unless its bench is offline (R307). -/
def markServed (b : Nat) (s : State) : State := if s.offline b then s else s.setPoison b true

theorem markedWrite_marked (hm : x.mark = true) (hw : writesMarks x.master = true) : markedWrite x s =
    each (rangeFrom (benchBase + x.off) x.len) markServed (writeWords x.master x.len (benchBase + x.off) x.data s) :=
  if_pos (by rw [hm, hw]; rfl)

end

theorem markServed_poisons {b : Nat} (hb : inBench b 1 = true) (s : State) : (markServed b s).poisoned b = true := by
  unfold markServed
  split
  case isTrue h => rw [State.poisoned, h, Bool.true_or]
  case isFalse => exact poisoned_of_mark hb (Store.get_set_same false s.poison (poisonWord b) true)

/-- A mark more takes none away. -/
theorem setPoison_true_poisoned {a : Nat} {s : State} (h : s.poisoned a = true) (b : Nat) : (s.setPoison b true).poisoned a = true := by
  unfold State.poisoned at h ⊢
  have hoff : (s.setPoison b true).offline a = s.offline a := rfl
  rw [hoff]
  cases hin : inBench a 1 with
  | false =>
    rw [hin] at h
    exact h
  | true =>
    rw [hin, if_pos rfl, Bool.or_eq_true] at h
    rw [if_pos rfl, Bool.or_eq_true]
    refine h.imp_right fun h => ?_
    show Store.get false (Store.set false s.poison (poisonWord b) true) (poisonWord a) = true
    by_cases hk : poisonWord b = poisonWord a
    · rw [hk, Store.get_set_same]
    · rwa [Store.get_set_ne _ _ _ hk]

theorem markServed_keeps {a : Nat} {s : State} (h : s.poisoned a = true) (b : Nat) : (markServed b s).poisoned a = true := by
  unfold markServed
  split
  · exact h
  · exact setPoison_true_poisoned h b

/-- The marks leave the first word of the access poisoned and no byte changed. -/
theorem markServed_each {a n : Nat} (hn : 0 < n) (hin : inBench a 1 = true) (s : State) :
    (each (rangeFrom a n) markServed s).poisoned a = true ∧ ∀ b, (each (rangeFrom a n) markServed s).byte b = s.byte b := by
  refine ⟨each_reaches (P := fun t => t.poisoned a = true) (markServed_poisons hin) (fun b _ h => markServed_keeps h b)
    (mem_rangeFrom.mpr ⟨Nat.le_refl a, by omega⟩) s, fun b => ?_⟩
  refine each_rel (R := fun t u : State => u.byte b = t.byte b) (fun _ => rfl) (fun h k => k.trans h) (fun c _ t => ?_) s
  unfold markServed
  split <;> rfl

/-- A write over clean words stores its bytes, leaves them clean, and stores no other. -/
theorem writeWords_stores {s : State} {a : Nat} {bs : List Byte} (m : Nat) (hc : CleanCells s) (ha : s.anyPoison a bs.length = false) :
    (writeWords m bs.length a bs (touchBench a bs.length s)).bytes a bs.length = bs ∧
    (writeWords m bs.length a bs (touchBench a bs.length s)).anyPoison a bs.length = false ∧
    ∀ b, b < a ∨ a + bs.length ≤ b → (writeWords m bs.length a bs (touchBench a bs.length s)).byte b = s.byte b := by
  have htouch := Noted.touchBench a bs.length s
  have hclean := Noted.clean hc htouch
  have hpoison := (htouch.anyPoison ..).trans ha
  obtain ⟨hin, hout⟩ := writeWords_bytes m hclean hpoison
  exact ⟨hin, (writeWords_clean m _ (Nat.le_refl _) hclean hpoison).1.anyPoison hpoison, fun b hb => (hout b hb).trans (htouch.byte b)⟩


/-! ### One bench word (R305, R307) -/

theorem benchAligned_pos {x : BenchAccess} (h : benchAligned x = true) : 0 < x.len := by
  by_contra hn
  have h0 : x.len = 0 := Nat.eq_zero_of_not_pos hn
  simp [benchAligned, h0] at h

/-- An access that the checks admit has a length. -/
theorem benchAllows_pos {s : State} {x : BenchAccess} {n : Nat} (h : BenchAllows s x) (hl : x.len = n) : 0 < n :=
  hl ▸ benchAligned_pos h.1

theorem touchBench_errors (a n : Nat) (s : State) : ∀ r, .reg r ∈ errors → ∀ i x z, (touchBench a n s).rd r i x z = s.rd r i x z :=
  fun r hr => touchBench_rd (fun h : .BENCH_BPWR_STAT_STATE = r => absurd (h ▸ hr) (by decide)) a n s

/-- The bytes of a bench word are in service together. -/
theorem offline_within {off i : Nat} (ho : off < 2 ^ 22) (hi : off % 4 + i < 4) (s : State) :
    s.offline (benchBase + off + i) = s.offline (benchBase + off) := by
  have hoi : off + i < 2 ^ 22 := by omega
  have hbench : (benchBase + off + i - benchBase) / 0x40000 = (benchBase + off - benchBase) / 0x40000 := by omega
  simp only [State.offline, Nat.add_assoc benchBase off i ▸ inBench_offset hoi, inBench_offset ho, if_true, hbench]

section
variable {s : State} {m off : Nat} {bs : List Byte} (ho : off < 2 ^ 22)
include ho

theorem wordSize_offset : wordSize (benchBase + off) = 4 := if_pos (inBench_offset ho)

/-- A write within one word is a write of that word. -/
theorem writeWords_word (hn : 0 < bs.length) (hw : off % 4 + bs.length ≤ 4) :
    writeWords m bs.length (benchBase + off) bs s = writeWord m (benchBase + off) bs s := by
  obtain ⟨k, hk⟩ := Nat.exists_eq_succ_of_ne_zero (Nat.pos_iff_ne_zero.mp hn)
  have hend : bs.length ≤ poisonWord (benchBase + off) + wordSize (benchBase + off) - (benchBase + off) := by
    rw [poisonWord_offset ho, wordSize_offset ho]
    omega
  rw [hk, Nat.succ_eq_add_one, writeWords_cons hn, List.take_of_length_le hend, List.drop_eq_nil_of_le hend]
  cases k <;> rfl

theorem writeWord_whole (hl : bs.length = 4) (hoff : s.offline (benchBase + off) = false) : writeWord m (benchBase + off) bs s =
    storeBench (benchBase + off) ((s.setBytes (benchBase + off) bs).setPoison (benchBase + off) false) := by
  have hsize : wordSize (poisonWord (benchBase + off)) = 4 := by
    rw [poisonWord_offset ho]
    exact wordSize_offset (by omega)
  unfold writeWord
  simp [hsize, hl, hoff, inBench_offset ho]

/-- A whole word written holds the bytes and loses its mark. -/
theorem writeWord_whole_stores (hl : bs.length = 4) (hw : off % 4 = 0) (hoff : s.offline (benchBase + off) = false) :
    (writeWord m (benchBase + off) bs s).bytes (benchBase + off) 4 = bs ∧
    (writeWord m (benchBase + off) bs s).poisoned (benchBase + off) = false := by
  rw [writeWord_whole ho hl hoff]
  constructor
  · refine List.ext_getElem (by rw [State.bytes, List.length_map, rangeFrom_length, hl]) fun i _ hi => ?_
    simp only [State.bytes, List.getElem_map, rangeFrom_getElem]
    have hin : (s.setBytes (benchBase + off) bs).offline (benchBase + off + i) = false :=
      ((setBytes_noWorse bs s (benchBase + off)).offline _).trans ((offline_within ho (by omega) s).trans hoff)
    exact (if_neg (hin ▸ Bool.false_ne_true)).trans (setBytes_inside bs hi)
  · have hin : (s.setBytes (benchBase + off) bs).offline (benchBase + off) = false :=
      ((setBytes_noWorse bs s (benchBase + off)).offline _).trans hoff
    show ((s.setBytes (benchBase + off) bs).offline _ || (if inBench (benchBase + off) 1 = true
      then Store.get false (Store.set false _ (poisonWord (benchBase + off)) false) (poisonWord (benchBase + off)) else _)) = false
    rw [hin, inBench_offset ho, if_pos rfl, Store.get_set_same, Bool.or_false]

/-- Part of a poisoned word changes nothing but the record. -/
theorem writeWord_part (hc : CleanCells s) (hl : bs.length < 4) (hp : s.poisoned (benchBase + off) = true) :
    writeWord m (benchBase + off) bs s = recordErr .bench 0 errPoison m true 0 s := by
  have hsize : wordSize (poisonWord (benchBase + off)) = 4 := by
    rw [poisonWord_offset ho]
    exact wordSize_offset (by omega)
  have hpage : memPage (benchBase + off) = .bench := if_neg (by simp [quarryBase, benchBase]; omega)
  unfold writeWord
  simp [eccRead_clean hc, hsize, hl, hp, hpage]

end

/-- The record of an error leaves every word as it is. -/
theorem recordErr_poisoned (p : Page) (n c m : Nat) (w : Bool) (o : Nat) (s : State) (a : Nat) :
    (recordErr p n c m w o s).poisoned a = s.poisoned a :=
  (Noted.of_keeps (recordErr_keeps (.refl _ s) (.self _) p n c m w o)).poisoned a

/-! ### The write of an access that is served -/

section
variable {s : State} {m : Master} {off : BitVec 22} {data : List Byte} {mark : Bool} {x : BenchAccess} (hd : s.dev = .up)
  (hlim : off.toNat + data.length ≤ benchSize)
  (hx : x = { master := m.val, kind := 1, off := off.toNat, len := data.length, data := data, mark := mark, other := none })
  (ha : BenchAllows s x) (ho : AtOnce s x)
include hd hlim hx ha ho

/-- It is one of the words of its bytes, in benches that it has touched. -/
theorem exec_benchWrite_served : ∃ f, exec (.benchAccess m true off 0 data mark none [] []) s = .next
    { markedWrite x (touchBench (benchBase + off.toNat) data.length s) with free := f } := by
  have hn : 0 < data.length := benchAllows_pos ha (by rw [hx])
  have hserve := (benchAccess_served ha ho).trans (serveAccess_write (by rw [hx]) (by rw [hx]))
  obtain ⟨f, hf⟩ := exec_benchWrite hd hn hlim hx
  rw [hserve, hx] at hf
  exact ⟨f, hx ▸ hf⟩

variable (hc : CleanCells s)
include hc

theorem benchWrite_stores (hm : mark = false ∨ writesMarks m.val = false)
    (hp : s.anyPoison (benchBase + off.toNat) data.length = false) :
    ∃ t, exec (.benchAccess m true off 0 data mark none [] []) s = .next t ∧
      t.bytes (benchBase + off.toNat) data.length = data ∧ t.anyPoison (benchBase + off.toNat) data.length = false ∧
      ∀ b : Nat, b < benchBase + off.toNat ∨ benchBase + off.toNat + data.length ≤ b → t.byte b = s.byte b := by
  obtain ⟨f, hf⟩ := exec_benchWrite_served hd hlim hx ha ho
  rw [markedWrite_unmarked (by rwa [hx]), hx] at hf
  exact ⟨_, hf, writeWords_stores m.val hc hp⟩

theorem benchWrite_marks (hm : mark = true) (hw : writesMarks m.val = true) :
    ∃ t, exec (.benchAccess m true off 0 data mark none [] []) s = .next t ∧ t.poisoned (benchBase + off.toNat) = true ∧
      (s.anyPoison (benchBase + off.toNat) data.length = false → t.bytes (benchBase + off.toNat) data.length = data) := by
  have hn : 0 < data.length := benchAllows_pos ha (by rw [hx])
  obtain ⟨f, hf⟩ := exec_benchWrite_served hd hlim hx ha ho
  rw [markedWrite_marked (by rwa [hx]) (by rwa [hx])] at hf
  rw [hx] at hf
  obtain ⟨hpoison, hbyte⟩ := markServed_each hn (inBench_offset off.isLt)
    (writeWords m.val data.length (benchBase + off.toNat) data (touchBench (benchBase + off.toNat) data.length s))
  refine ⟨_, hf, hpoison, fun hp => ?_⟩
  exact (List.map_congr_left fun b _ => hbyte b).trans (writeWords_stores m.val hc hp).1

theorem benchWrite_poisoned (hm : mark = false) (hl : data.length ≤ 4)
    (hw : off.toNat / 4 = (off.toNat + data.length - 1) / 4) (hp : s.poisoned (benchBase + off.toNat) = true)
    (hoff : s.offline (benchBase + off.toNat) = false) :
    ∃ t, exec (.benchAccess m true off 0 data mark none [] []) s = .next t ∧
      (if data.length = 4 then t.bytes (benchBase + off.toNat) 4 = data ∧ t.poisoned (benchBase + off.toNat) = false
       else t.mem = s.mem ∧ t.poisoned (benchBase + off.toNat) = true ∧ Recorded s t .bench 0 errPoison m.val) := by
  have hn : 0 < data.length := benchAllows_pos ha (by rw [hx])
  have htouch := Noted.touchBench (benchBase + off.toNat) data.length s
  obtain ⟨f, hf⟩ := exec_benchWrite_served hd hlim hx ha ho
  rw [markedWrite_unmarked (.inl (by rwa [hx]))] at hf
  rw [hx] at hf
  refine ⟨_, hf, ?_⟩
  dsimp only
  rw [writeWords_word off.isLt hn (by omega)]
  split
  case isTrue h4 => exact writeWord_whole_stores off.isLt h4 (by omega) ((htouch.offline _).trans hoff)
  case isFalse h4 =>
    rw [writeWord_part off.isLt (htouch.clean hc) (by omega) ((htouch.poisoned _).trans hp)]
    have hpoison := (recordErr_poisoned .bench 0 errPoison m.val true 0 (touchBench (benchBase + off.toNat) data.length s)
      (benchBase + off.toNat)).trans ((htouch.poisoned _).trans hp)
    have hrec : Recorded s (recordErr .bench 0 errPoison m.val true 0 (touchBench (benchBase + off.toNat) data.length s)) .bench 0
        errPoison m.val := recorded_recordErr (touchBench_errors _ _ s) (by decide) m.isLt ..
    exact ⟨(recordErr_mem ..).trans (touchBench_mem ..), hpoison, hrec⟩

end

/-! ### The read of an access that is served -/

section
variable {s : State} {m : Master} {off : BitVec 22} {len : Fin 65} {x : BenchAccess} (hd : s.dev = .up)
  (hn : 0 < len.val) (hlim : off.toNat + len.val ≤ benchSize)
  (hx : x = { master := m.val, kind := 0, off := off.toNat, len := len.val, data := [], mark := false, other := none })
include hd hn hlim hx

theorem benchRead_answers (hc : CleanCells s) (ha : BenchAllows s x) (ho : AtOnce s x) :
    ∃ t, exec (.benchAccess m false off len [] false none [] []) s = .next t ∧
      t.readData = s.bytesFor m.val (benchBase + off.toNat) len.val ∧ t.mem = s.mem := by
  obtain ⟨hdata, hmem, -, -⟩ := serveAccess_read (x := x) hc (by rw [hx])
  obtain ⟨f, hf⟩ := exec_benchRead hd hn hlim hx
  rw [benchAccess_served ha ho] at hf
  rw [hx] at hdata
  exact ⟨_, hf, hx ▸ hdata, hmem⟩

/-- A word that turns out uncorrectable is recorded, with the count of the state before. -/
theorem benchRead_records (hc : CleanCells s) (hw : off.toNat % 4 + len.val ≤ 4) (ha : BenchAllows s x) (ho : AtOnce s x)
    (hp : s.poisoned (benchBase + off.toNat) = false) :
    ∃ t, exec (.benchAccess m false off len [] false none [] [off]) s = .next t ∧ t.mem = s.mem ∧
      t.poisoned (benchBase + off.toNat) = true ∧ t.rd .BENCH_UE_ADDR_OFFSET = off.toNat / 4 * 4 ∧
      t.rd .BENCH_ECC_CNT_UE = satAdd (Reg.width .BENCH_ECC_CNT_UE) (s.rd .BENCH_ECC_CNT_UE) 1 ∧ Raised t .bench 0 1 := by
  have htouch := Noted.touchBench (benchBase + off.toNat) len.val (addBenchFlaw true off.toNat s)
  have hflaw : Store.get 0 (addBenchFlaw true off.toNat s).ben.flaws (off.toNat / 4) = 2 := by
    simp [addBenchFlaw, hc.1, Store.get_set_same, Store.get]
  have hpoison : (addBenchFlaw true off.toNat s).poisoned (benchBase + off.toNat) = false := hp
  have hrec := benchWord_records off.isLt (Nat.le_of_eq (htouch.flaws ▸ hflaw).symm) ((htouch.poisoned _).trans hpoison)
  have hmarked := hrec.poisoned off.isLt
  have hcounted := hrec.counted.trans (congrArg (satAdd _ · 1) (touchBench_rd (by decide) ..))
  obtain ⟨f, hf⟩ := exec_benchRead_ue hd hn hlim hx
  rw [benchAccess_served (s := addBenchFlaw true off.toNat s) ha ho, serveAccess_readKind (by rw [hx]), hx] at hf
  dsimp only at hf
  rw [eccRead_word hn hw off.isLt] at hf
  exact ⟨_, hf, hrec.mem.trans (touchBench_mem ..), hmarked, hrec.address, hcounted, hrec.raised⟩

theorem benchRead_refused (ha : ¬BenchAllows s x) :
    ∃ t, exec (.benchAccess m false off len [] false none [] []) s = .next t ∧ t.mem = s.mem ∧
      t.readData = List.replicate len.val 0 ∧ Recorded s t .bench 0 errRegionDenied m.val := by
  have hm : x.master = m.val := by rw [hx]
  have hl : x.len = len.val := by rw [hx]
  obtain ⟨f, hf⟩ := exec_benchRead hd hn hlim hx
  obtain ⟨hmem, hrec, hdata⟩ := refuseAccess_records (s := s) (hm ▸ m.isLt)
  rw [benchAccess_refused ha] at hf
  exact ⟨_, hf, hmem, hl ▸ hdata (by rw [hx]), hm ▸ hrec⟩

theorem benchRead_waits (ha : BenchAllows s x) (ho : ¬AtOnce s x) (h3 : meetsState s x 3 = false) :
    ∃ t, exec (.benchAccess m false off len [] false none [] []) s = .next t ∧ t.ben.held = s.ben.held ++ [x] ∧ t.mem = s.mem ∧
      t.readData = s.readData := by
  obtain ⟨f, hf⟩ := exec_benchRead hd hn hlim hx
  rw [benchAccess_held ha ho h3] at hf
  exact ⟨_, hf, rfl, rfl, rfl⟩

end

/-! ### Writes that are refused or wait -/

section
variable {s : State} {m : Master} {off : BitVec 22} {data : List Byte} {mark clear : Bool} {x : BenchAccess} (hd : s.dev = .up)
  (hlim : off.toNat + data.length ≤ benchSize)
include hd hlim

theorem benchWrite_refused (hn : 0 < data.length)
    (hx : x = { master := m.val, kind := 1, off := off.toNat, len := data.length, data := data, mark := mark, other := none })
    (ha : ¬BenchAllows s x) :
    ∃ t, exec (.benchAccess m true off 0 data mark none [] []) s = .next t ∧ t.mem = s.mem ∧
      Recorded s t .bench 0 errRegionDenied m.val := by
  have hm : x.master = m.val := by rw [hx]
  obtain ⟨f, hf⟩ := exec_benchWrite hd hn hlim hx
  obtain ⟨hmem, hrec, -⟩ := refuseAccess_records (s := s) (hm ▸ m.isLt)
  rw [benchAccess_refused ha] at hf
  exact ⟨_, hf, hmem, hm ▸ hrec⟩

theorem benchWrite_waits
    (hx : x = { master := m.val, kind := 1, off := off.toNat, len := data.length, data := data, mark := mark, other := none })
    (hn : 0 < data.length) (ha : BenchAllows s x) (ho : ¬AtOnce s x) (h3 : meetsState s x 3 = false) :
    ∃ t, exec (.benchAccess m true off 0 data mark none [] []) s = .next t ∧ t.ben.held = s.ben.held ++ [x] ∧ t.mem = s.mem := by
  obtain ⟨f, hf⟩ := exec_benchWrite hd hn hlim hx
  rw [benchAccess_held ha ho h3] at hf
  exact ⟨_, hf, rfl, rfl⟩

theorem benchAlias_refused (hn : 0 < data.length)
    (hx : x = { master := m.val, kind := if clear then 3 else 2, off := off.toNat, len := data.length, data, mark := false, other := none })
    (ha : ¬BenchAllows s x) :
    ∃ t, exec (.benchAliasWrite m clear off data) s = .next t ∧ t.mem = s.mem ∧ Recorded s t .bench 0 errRegionDenied m.val := by
  have hm : x.master = m.val := by rw [hx]
  obtain ⟨hmem, hrec, -⟩ := refuseAccess_records (s := s) (hm ▸ m.isLt)
  have he := exec_benchAlias hd hn hlim hx
  rw [benchAccess_refused ha] at he
  exact ⟨_, he, hmem, hm ▸ hrec⟩

theorem benchAlias_waits
    (hx : x = { master := m.val, kind := if clear then 3 else 2, off := off.toNat, len := data.length, data, mark := false, other := none })
    (ha : BenchAllows s x) (ho : ¬AtOnce s x) (h3 : meetsState s x 3 = false) :
    ∃ t, exec (.benchAliasWrite m clear off data) s = .next t ∧ t.ben.held = s.ben.held ++ [x] ∧ t.mem = s.mem := by
  have hn : 0 < data.length := benchAllows_pos ha (by rw [hx])
  have he := exec_benchAlias hd hn hlim hx
  rw [benchAccess_held ha ho h3] at he
  exact ⟨_, he, rfl, rfl⟩

end


/-! ### Alias writes (R316) -/

/-- A write of a field that no byte's place rests on leaves the bytes as memory shows them. -/
theorem byte_wr {r : Reg} (hh : r ≠ .BENCH_BENCH_HEALTH_HEALTH) (hl : r ≠ .QUARRY_LRMAP_MAP) (hw : r ≠ .QUARRY_CAPACITY_WAVE_GIB)
    (s : State) (v i x u b : Nat) : (s.wr r v i x u).byte b = s.byte b := by
  simp [State.byte, State.offline, State.logicalRank, State.quarryAddr, State.logicalRanks, hh, hl, hw]

/-- Bytes stored in service show. -/
theorem setBytes_byte {s : State} {a i : Nat} {bs : List Byte} (hi : i < bs.length) (hoff : s.offline (a + i) = false) :
    (s.setBytes a bs).byte (a + i) = bs[i] := by
  rw [State.byte, if_neg (by rw [(setBytes_noWorse bs s a).offline, hoff]; exact Bool.false_ne_true)]
  exact setBytes_inside bs hi

theorem setBytes_byte_outside {s : State} {a b : Nat} {bs : List Byte} (hb : b < a ∨ a + bs.length ≤ b) :
    (s.setBytes a bs).byte b = s.byte b := by
  rw [State.byte, (setBytes_noWorse bs s a).offline, setBytes_outside bs hb, State.byte]

/-- A write that sets or clears bits lies within one word. -/
theorem benchAligned_word {x : BenchAccess} (h : benchAligned x = true) (hk : 2 ≤ x.kind) : x.off % 4 + x.len ≤ 4 := by
  rw [benchAligned, if_pos hk] at h
  simp only [Bool.and_eq_true, Bool.or_eq_true, beq_iff_eq] at h
  obtain ⟨(h1 | h2) | h4, hdiv⟩ := h
  · omega
  · rw [h2] at hdiv ⊢
    omega
  · rw [h4] at hdiv ⊢
    omega

theorem aliasMerge_length (s : State) (x : BenchAccess) : (aliasMerge s x).length = x.len := by
  rw [aliasMerge, List.length_map]
  exact rangeFrom_length 0 x.len

theorem aliasMerge_getElem {s : State} {x : BenchAccess} {i : Nat} (hi : i < (aliasMerge s x).length) : (aliasMerge s x)[i] =
    if x.kind = 2 then s.byte (benchBase + x.off + i) ||| x.data.getD i 0 else s.byte (benchBase + x.off + i) &&& ~~~(x.data.getD i 0) := by
  simp only [aliasMerge, upTo, List.getElem_map, rangeFrom_getElem, Nat.zero_add]

theorem leAt_lt (s : State) (a n : Nat) : s.leAt a n < 256 ^ n := by
  have h := leValue_lt (s.bytes a n)
  rwa [State.bytes, List.length_map, rangeFrom_length] at h

section
variable {s : State} {x : BenchAccess}

theorem serveAccess_alias (hk : 2 ≤ x.kind) : serveAccess x s = aliasWrite x (touchBench (benchBase + x.off) x.len s) := by
  unfold serveAccess
  rw [if_neg (by omega), if_neg (by omega)]

theorem aliasWrite_clean (hc : CleanCells s) (hp : s.poisoned (benchBase + x.off) = false) : aliasWrite x s =
    (((storeBench (benchBase + x.off) (s.setBytes (benchBase + x.off) (aliasMerge s x))).wr .BENCH_ALIAS_LAST_PRIOR
      (s.leAt ((benchBase + x.off) / 4 * 4) 4) 0 x.master).wr .BENCH_ALIAS_STAT_VALID 1 0 x.master).wr .BENCH_ALIAS_STAT_POISON 0 0
      x.master := by
  unfold aliasWrite
  simp only [eccRead_clean hc]
  exact if_neg (by rw [hp]; exact Bool.false_ne_true)

theorem aliasWrite_poisoned (hc : CleanCells s) (hp : s.poisoned (benchBase + x.off) = true) : aliasWrite x s =
    recordErr .bench 0 errPoison x.master true 0 (s.wr .BENCH_ALIAS_STAT_POISON 1 0 x.master) := by
  unfold aliasWrite
  simp only [eccRead_clean hc]
  exact if_pos hp

/-- A write that sets or clears bits of a clean word stores what it merges. -/
theorem aliasWrite_byte (hc : CleanCells s) (hp : s.poisoned (benchBase + x.off) = false) (b : Nat) :
    (aliasWrite x s).byte b = (s.setBytes (benchBase + x.off) (aliasMerge s x)).byte b := by
  rw [aliasWrite_clean hc hp, byte_wr (by decide) (by decide) (by decide), byte_wr (by decide) (by decide) (by decide),
    byte_wr (by decide) (by decide) (by decide)]
  rfl

theorem aliasWrite_merges (hc : CleanCells s) (hp : s.poisoned (benchBase + x.off) = false) (ho : x.off < 2 ^ 22)
    (hw : x.off % 4 + x.len ≤ 4) {i : Nat} (hi : i < x.len) : (aliasWrite x s).byte (benchBase + x.off + i) =
      if x.kind = 2 then s.byte (benchBase + x.off + i) ||| x.data.getD i 0
      else s.byte (benchBase + x.off + i) &&& ~~~(x.data.getD i 0) := by
  have hlt : i < (aliasMerge s x).length := by rwa [aliasMerge_length]
  have hoff : s.offline (benchBase + x.off + i) = false := (offline_within ho (by omega) s).trans (offline_of_clean hp)
  rw [aliasWrite_byte hc hp, setBytes_byte hlt hoff, aliasMerge_getElem]

theorem aliasWrite_outside (hc : CleanCells s) (hp : s.poisoned (benchBase + x.off) = false) {b : Nat}
    (hb : b < benchBase + x.off ∨ benchBase + x.off + x.len ≤ b) : (aliasWrite x s).byte b = s.byte b := by
  rw [aliasWrite_byte hc hp, setBytes_byte_outside (by rwa [aliasMerge_length])]

theorem aliasWrite_shows (hc : CleanCells s) (hp : s.poisoned (benchBase + x.off) = false) :
    (aliasWrite x s).rd .BENCH_ALIAS_LAST_PRIOR 0 x.master = s.leAt ((benchBase + x.off) / 4 * 4) 4 ∧
    (aliasWrite x s).rd .BENCH_ALIAS_STAT_VALID 0 x.master = 1 ∧ (aliasWrite x s).rd .BENCH_ALIAS_STAT_POISON 0 x.master = 0 := by
  rw [aliasWrite_clean hc hp]
  refine ⟨?_, ?_, State.rd_wr_same ..⟩
  · rw [State.rd_wr_reg _ (by decide), State.rd_wr_reg _ (by decide), State.rd_wr_same]
    exact Nat.mod_eq_of_lt (leAt_lt s _ 4)
  · rw [State.rd_wr_reg _ (by decide), State.rd_wr_same]
    rfl

end

theorem two_le_aliasKind (clear : Bool) : 2 ≤ if clear then 3 else 2 := by
  cases clear <;> decide

section
variable {s : State} {m : Master} {clear : Bool} {off : BitVec 22} {data : List Byte} {x : BenchAccess} (hd : s.dev = .up)
  (hlim : off.toNat + data.length ≤ benchSize)
  (hx : x = { master := m.val, kind := if clear then 3 else 2, off := off.toNat, len := data.length, data, mark := false, other := none })
  (ha : BenchAllows s x) (ho : AtOnce s x)
include hd hlim hx ha ho

theorem exec_benchAlias_served : exec (.benchAliasWrite m clear off data) s = .next
    (aliasWrite x (touchBench (benchBase + off.toNat) data.length s)) := by
  have hn : 0 < data.length := benchAllows_pos ha (by rw [hx])
  have hk : 2 ≤ x.kind := hx ▸ two_le_aliasKind clear
  have hserve := (benchAccess_served ha ho).trans (serveAccess_alias hk)
  have he := exec_benchAlias hd hn hlim hx
  rw [hserve] at he
  rw [he, hx]

variable (hc : CleanCells s)
include hc

theorem benchAlias_merges (hp : s.poisoned (benchBase + off.toNat) = false) :
    ∃ t, exec (.benchAliasWrite m clear off data) s = .next t ∧
      (∀ i : Nat, i < data.length → t.byte (benchBase + off.toNat + i) =
        (if clear then s.byte (benchBase + off.toNat + i) &&& ~~~(data.getD i 0)
         else s.byte (benchBase + off.toNat + i) ||| data.getD i 0)) ∧
      t.rd .BENCH_ALIAS_LAST_PRIOR 0 m.val = s.leAt ((benchBase + off.toNat) / 4 * 4) 4 ∧
      t.rd .BENCH_ALIAS_STAT_VALID 0 m.val = 1 ∧ t.rd .BENCH_ALIAS_STAT_POISON 0 m.val = 0 ∧
      ∀ b : Nat, b < benchBase + off.toNat ∨ benchBase + off.toNat + data.length ≤ b → t.byte b = s.byte b := by
  have htouch := Noted.touchBench (benchBase + off.toNat) data.length s
  have hclean := htouch.clean hc
  have hpoison := (htouch.poisoned _).trans hp
  have hprior : (touchBench (benchBase + off.toNat) data.length s).leAt ((benchBase + off.toNat) / 4 * 4) 4 =
      s.leAt ((benchBase + off.toNat) / 4 * 4) 4 := congrArg leValue (List.map_congr_left fun b _ => htouch.byte b)
  have hk : 2 ≤ x.kind := hx ▸ two_le_aliasKind clear
  have hword := benchAligned_word ha.1 hk
  obtain ⟨hlast, hvalid, hclear⟩ := aliasWrite_shows (x := x) hclean (by rwa [hx])
  refine ⟨_, exec_benchAlias_served hd hlim hx ha ho, ?_⟩
  subst hx
  refine ⟨fun i hi => ?_, hlast.trans hprior, hvalid, hclear, fun b hb => (aliasWrite_outside hclean hpoison hb).trans (htouch.byte b)⟩
  rw [aliasWrite_merges hclean hpoison off.isLt hword hi]
  dsimp only
  rw [htouch.byte]
  cases clear <;> rfl

theorem benchAlias_poisoned (hp : s.poisoned (benchBase + off.toNat) = true) :
    ∃ t, exec (.benchAliasWrite m clear off data) s = .next t ∧ t.mem = s.mem ∧ t.rd .BENCH_ALIAS_STAT_POISON 0 m.val = 1 ∧
      Recorded s t .bench 0 errPoison m.val := by
  have htouch := Noted.touchBench (benchBase + off.toNat) data.length s
  have he := exec_benchAlias_served hd hlim hx ha ho
  rw [hx, aliasWrite_poisoned (htouch.clean hc) ((htouch.poisoned _).trans hp)] at he
  refine ⟨_, he, (recordErr_mem ..).trans (touchBench_mem ..), ?_, ?_⟩
  · rw [recordErr_rd _ (by decide) (by decide) (by decide) (by decide) (by decide), State.rd_wr_same]
    rfl
  · exact recorded_recordErr (errors_wr (touchBench_errors _ _ s) (q := .BENCH_ALIAS_STAT_POISON) (by decide) 1 0 m.val 0) (by decide)
      m.isLt ..

end

/-! ### The wake of a read that waits (R318) -/

theorem bytesFor_wr {r : Reg} (hh : r ≠ .BENCH_BENCH_HEALTH_HEALTH) (hl : r ≠ .QUARRY_LRMAP_MAP) (hw : r ≠ .QUARRY_CAPACITY_WAVE_GIB)
    (s : State) (v i x u m a n : Nat) : (s.wr r v i x u).bytesFor m a n = s.bytesFor m a n :=
  List.map_congr_left fun b _ => by
    simp only [State.byteFor, byte_wr hh hl hw]
    rfl

/-- A bench wakes, and none waits any more. -/
def wokenBench (b : Nat) (s : State) : State := wakeBench b { s with ben := { s.ben with held := [] } }

theorem wokenBench_on (b : Nat) (s : State) : benchState (wokenBench b s) b = 0 := State.rd_wr_same ..

theorem benchWake_held {b : Nat} {s : State} {x : BenchAccess} (hh : s.ben.held = [x]) :
    benchWake b s = benchArrive x (wokenBench b s) := by
  rw [benchWake, hh]
  rfl

/-- The bench woken holds up no access within it. -/
theorem wokenBench_atOnce {b : Nat} {s : State} {x : BenchAccess} (hfirst : x.off / 0x40000 = b) (hlast : (x.off + x.len - 1) / 0x40000 = b)
    (hw : s.qry.waiting.any (fun y => y.master == x.master) = false) : AtOnce (wokenBench b s) x := by
  have hmeets (v : Nat) (hv : 0 ≠ v) : meetsState (wokenBench b s) x v = false := by
    rw [meetsState, hfirst, hlast, wokenBench_on, beq_false_of_ne hv]
    rfl
  exact ⟨hmeets 1 (by decide), hmeets 2 (by decide), hmeets 3 (by decide), rfl, hw⟩

theorem benchWake_serves {s : State} {b : Fin 16} {x : BenchAccess} (hd : s.dev = .up) (hc : CleanCells s) (h3 : benchState s b.val ≠ 3)
    (hh : s.ben.held = [x]) (hw : s.qry.waiting.any (fun y => y.master == x.master) = false) (hk : x.kind = 0)
    (hfirst : x.off / 0x40000 = b.val) (hlast : (x.off + x.len - 1) / 0x40000 = b.val) :
    ∃ t, exec (.benchWake b) s = .next t ∧ benchState t b.val = 0 ∧ t.ben.held = [] ∧ t.mem = s.mem ∧
      t.readData = s.bytesFor x.master (benchBase + x.off) x.len := by
  have htouches : s.ben.held.any (fun x => x.touches b.val) = true := by
    simp [hh, BenchAccess.touches, hfirst]
  obtain ⟨hdata, hmem, hheld, hon⟩ := serveAccess_read (s := wokenBench b.val s) hc hk
  have he := exec_benchWake hd h3 (.inr htouches)
  rw [benchWake_held hh, benchArrive_served (wokenBench_atOnce hfirst hlast hw)] at he
  exact ⟨_, he, hon _ (wokenBench_on ..), hheld, hmem, hdata.trans (bytesFor_wr (by decide) (by decide) (by decide) ..)⟩

/-! ### Two writes of one array cycle (R311) -/

theorem byte_of_bytes {s : State} {a i : Nat} {bs : List Byte} (h : s.bytes a bs.length = bs) (hi : i < bs.length) :
    s.byte (a + i) = bs.getD i 0 := by
  have hlt : i < (s.bytes a bs.length).length := by rwa [h]
  have hget : (s.bytes a bs.length)[i] = s.byte (a + i) := by simp only [State.bytes, List.getElem_map, rangeFrom_getElem]
  rw [← hget, List.getD_eq_getElem _ _ hi]
  simp only [h]

section
variable {s : State} {x y : BenchAccess}

theorem benchWrite_both
    (hy : y = { master := y.master, kind := 1, off := y.off, len := y.data.length, data := y.data, mark := false, other := none })
    (ho : x.other = some (y.master, 1, y.off, y.data)) (hx : portB x = true) (hb : portB y = false) (ha : BenchAllows s y) :
    benchWrite x s = collide x y s := by
  have hne : y.data ≠ [] := by
    intro h0
    have hpos : 0 < y.data.length := benchAllows_pos ha (by rw [hy])
    simp [h0] at hpos
  have hden : benchDenied s y = false := by simp [benchDenied, ha.1, ha.2]
  unfold benchWrite
  rw [ho]
  dsimp only
  rw [← hy]
  exact if_pos (by simp [hx, hb, hne, hden])

theorem collide_writes (hk : y.kind = 1) : collide x y s =
    collision x.master x.off (lostLanes x.off x.data y.off y.data) (markedWrite y (markedWrite x s)) := by
  simp [collide, hk]

end

theorem collision_byte (m off : Nat) (lost : List Nat) (s : State) (b : Nat) : (collision m off lost s).byte b = s.byte b := by
  have honly := (collision_keeps (.refl _ s) (.self _) m off lost).only
  have hhealth : ∀ i x u, (collision m off lost s).rd .BENCH_BENCH_HEALTH_HEALTH i x u = s.rd .BENCH_BENCH_HEALTH_HEALTH i x u :=
    honly (.reg .BENCH_BENCH_HEALTH_HEALTH) (by decide)
  have hmap : ∀ i x u, (collision m off lost s).rd .QUARRY_LRMAP_MAP i x u = s.rd .QUARRY_LRMAP_MAP i x u :=
    honly (.reg .QUARRY_LRMAP_MAP) (by decide)
  have hwave : ∀ i x u, (collision m off lost s).rd .QUARRY_CAPACITY_WAVE_GIB i x u = s.rd .QUARRY_CAPACITY_WAVE_GIB i x u :=
    honly (.reg .QUARRY_CAPACITY_WAVE_GIB) (by decide)
  have hmem : (collision m off lost s).mem = s.mem := honly .mem (by decide)
  have hoff : (collision m off lost s).offline b = s.offline b := by
    simp only [State.offline, State.logicalRank, State.quarryAddr, State.logicalRanks, hhealth, hmap, hwave]
  rw [State.byte, hoff, hmem, State.byte]

theorem rd_missed (s : State) (missed : Store Bool) (r : Reg) (i x u : Nat) :
    ({ s with missed := missed } : State).rd r i x u = s.rd r i x u := rfl

/-- The report of lanes lost by the streamer of master m. -/
def reportCollision (m : Nat) (s : State) : State :=
  raise .bench 0 6 ((s.wr .BENCH_COLL_STAT_STREAMER 1 0 0 (m - 20)).inc .BENCH_COLL_CNT_COUNT)

theorem collision_lost {lost : List Nat} (h : lost ≠ []) (m off : Nat) (s : State) :
    ∃ missed, collision m off lost s = { reportCollision m s with missed := missed } :=
  ⟨_, if_neg (by rwa [List.isEmpty_iff])⟩

theorem reportCollision_shows (m : Nat) (s : State) :
    (reportCollision m s).rd .BENCH_COLL_CNT_COUNT = satAdd (Reg.width .BENCH_COLL_CNT_COUNT) (s.rd .BENCH_COLL_CNT_COUNT) 1 ∧
    (reportCollision m s).rd .BENCH_COLL_STAT_STREAMER 0 0 (m - 20) = 1 ∧ Raised (reportCollision m s) .bench 0 6 := by
  refine ⟨?_, ?_, raise_raw ..⟩
  · rw [reportCollision, raise_rd _ (by decide) (by decide), State.rd_inc_same, State.rd_wr_reg _ (by decide)]
  · rw [reportCollision, raise_rd _ (by decide) (by decide), State.rd_inc_reg (by decide), State.rd_wr_same]
    rfl

/-- Lanes lost count, set the streamer's bit and raise COLLISION. -/
theorem collision_shows (m off : Nat) (lost : List Nat) (s : State) :
    if lost = [] then (collision m off lost s).rd .BENCH_COLL_CNT_COUNT = s.rd .BENCH_COLL_CNT_COUNT
    else (collision m off lost s).rd .BENCH_COLL_CNT_COUNT = satAdd (Reg.width .BENCH_COLL_CNT_COUNT) (s.rd .BENCH_COLL_CNT_COUNT) 1 ∧
      (collision m off lost s).rd .BENCH_COLL_STAT_STREAMER 0 0 (m - 20) = 1 ∧ Raised (collision m off lost s) .bench 0 6 := by
  split
  case isTrue h => rw [h]; rfl
  case isFalse h =>
    obtain ⟨missed, hm⟩ := collision_lost h m off s
    obtain ⟨hcount, hbit, hraised⟩ := reportCollision_shows m s
    rw [hm]
    exact ⟨(rd_missed ..).trans hcount, (rd_missed ..).trans hbit, (rd_missed ..).trans hraised⟩

/-- Words written count no collision. -/
theorem writeWords_collisions (m n a : Nat) (bs : List Byte) (s : State) :
    (writeWords m n a bs s).rd .BENCH_COLL_CNT_COUNT = s.rd .BENCH_COLL_CNT_COUNT :=
  (writeWords_keeps (.refl _ s) (.self _) m n a bs).only (.reg .BENCH_COLL_CNT_COUNT) (by decide) 0 0 0

/-- Two writes in turn over clean words: the second stands where they meet. -/
theorem writeWords_both {s : State} {a b : Nat} {bs cs : List Byte} (m n : Nat) (hc : CleanCells s) (ha : s.anyPoison a bs.length = false)
    (hb : s.anyPoison b cs.length = false) :
    (writeWords n cs.length b cs (writeWords m bs.length a bs s)).bytes b cs.length = cs ∧
    (∀ i : Nat, i < bs.length → a + i < b ∨ b + cs.length ≤ a + i →
      (writeWords n cs.length b cs (writeWords m bs.length a bs s)).byte (a + i) = bs.getD i 0) ∧
    (∀ c : Nat, (c < a ∨ a + bs.length ≤ c) → (c < b ∨ b + cs.length ≤ c) →
      (writeWords n cs.length b cs (writeWords m bs.length a bs s)).byte c = s.byte c) := by
  have hno := (writeWords_clean m bs.length (Nat.le_refl _) hc ha).1
  obtain ⟨hin, hout⟩ := writeWords_bytes m hc ha
  obtain ⟨hin', hout'⟩ := writeWords_bytes n (hno.clean hc) (hno.anyPoison hb)
  exact ⟨hin', fun i hi hi' => (hout' _ hi').trans (byte_of_bytes hin hi), fun c hca hcb => (hout' c hcb).trans (hout c hca)⟩

theorem benchWrite_collides {s : State} {m n : Master} {off off' : BitVec 22} {data data' : List Byte} {x y : BenchAccess}
    (hd : s.dev = .up) (hc : CleanCells s) (hlim : off.toNat + data.length ≤ benchSize)
    (hx : x = { master := m.val, kind := 1, off := off.toNat, len := data.length, data := data, mark := false,
                other := some (n.val, 1, off'.toNat, data') })
    (hy : y = { master := n.val, kind := 1, off := off'.toNat, len := data'.length, data := data', mark := false, other := none })
    (hpx : portB x = true) (hpy : portB y = false) (ha : BenchAllows s x) (ho : AtOnce s x) (hb : BenchAllows s y)
    (hp : s.anyPoison (benchBase + off.toNat) data.length = false) (hp' : s.anyPoison (benchBase + off'.toNat) data'.length = false) :
    ∃ t, exec (.benchAccess m true off 0 data false (some (n, 1, off', data')) [] []) s = .next t ∧
      t.bytes (benchBase + off'.toNat) data'.length = data' ∧
      (∀ i : Nat, i < data.length → off.toNat + i < off'.toNat ∨ off'.toNat + data'.length ≤ off.toNat + i →
        t.byte (benchBase + off.toNat + i) = data.getD i 0) ∧
      (∀ b : Nat, (b < benchBase + off.toNat ∨ benchBase + off.toNat + data.length ≤ b) →
        (b < benchBase + off'.toNat ∨ benchBase + off'.toNat + data'.length ≤ b) → t.byte b = s.byte b) ∧
      (if lostLanes off.toNat data off'.toNat data' = [] then t.rd .BENCH_COLL_CNT_COUNT = s.rd .BENCH_COLL_CNT_COUNT
       else t.rd .BENCH_COLL_CNT_COUNT = satAdd (Reg.width .BENCH_COLL_CNT_COUNT) (s.rd .BENCH_COLL_CNT_COUNT) 1 ∧
         t.rd .BENCH_COLL_STAT_STREAMER 0 0 (m.val - 20) = 1 ∧ Raised t .bench 0 6) := by
  have htouch := Noted.touchBench (benchBase + off.toNat) data.length s
  have hn : 0 < data.length := benchAllows_pos ha (by rw [hx])
  have hserve : serveAccess x s = collision m.val off.toNat (lostLanes off.toNat data off'.toNat data')
      (writeWords n.val data'.length (benchBase + off'.toNat) data'
        (writeWords m.val data.length (benchBase + off.toNat) data (touchBench (benchBase + off.toNat) data.length s))) := by
    have hwrite : serveAccess x s = benchWrite x (touchBench (benchBase + x.off) x.len s) := by simp [serveAccess, hx]
    rw [hwrite, benchWrite_both (y := y) (by rw [hy]) (by rw [hx, hy]) hpx hpy ⟨hb.1, (Noted.touchBench ..).memAllowed hb.2⟩,
      collide_writes (by rw [hy]), markedWrite_unmarked (x := x) (.inl (by rw [hx])), markedWrite_unmarked (x := y) (.inl (by rw [hy])),
      hx, hy]
  obtain ⟨hin, hrest, hout⟩ := writeWords_both m.val n.val (htouch.clean hc) ((htouch.anyPoison ..).trans hp)
    ((htouch.anyPoison ..).trans hp')
  have hcount := ((writeWords_collisions n.val data'.length (benchBase + off'.toNat) data' _).trans
    (writeWords_collisions m.val data.length (benchBase + off.toNat) data _)).trans
    (touchBench_rd (by decide) (benchBase + off.toNat) data.length s 0 0 0)
  have hshows := collision_shows m.val off.toNat (lostLanes off.toNat data off'.toNat data')
    (writeWords n.val data'.length (benchBase + off'.toNat) data'
      (writeWords m.val data.length (benchBase + off.toNat) data (touchBench (benchBase + off.toNat) data.length s)))
  rw [hcount] at hshows
  obtain ⟨f, hf⟩ := exec_benchWrite_both hd hn hlim hx
  rw [benchAccess_served ha ho, hserve] at hf
  refine ⟨_, hf, ?_, fun i hi hi' => ?_, fun b hb hb' => ?_, hshows⟩
  · exact (List.map_congr_left fun b _ => collision_byte ..).trans hin
  · exact (collision_byte ..).trans (hrest i hi (by omega))
  · exact (collision_byte ..).trans ((hout b hb hb').trans (htouch.byte b))

/-! ### The statement -/

/-- Settles O44: a refused access records REGION_DENIED, a held one joins those that wait, and a served one is its read,
write or merge in the benches it has touched. While no cell holds an error, it stores what the writes of clean words store; the other
cases are those of one bench word. -/
theorem benchAccesses : Obligations.BenchAccesses :=
  ⟨fun _ _ _ _ _ hd hc hn hlim hx ha ho => benchRead_answers hd hn hlim hx hc ha ho,
   fun _ _ _ _ _ _ hd hc _ hlim hm hx ha ho hp => benchWrite_stores hd hlim hx ha ho hc hm hp,
   fun _ _ _ _ _ hd hc hl hw hlim hx ha ho hp hoff => benchWrite_poisoned hd hlim hx ha ho hc rfl hl hw hp hoff,
   fun _ _ _ _ _ hd hc _ hlim hw hx ha ho => benchWrite_marks hd hlim hx ha ho hc rfl hw,
   fun _ _ _ _ _ _ _ _ _ hd hc _ _ hlim hx hy hpx hpy ha ho hb hp hp' =>
     benchWrite_collides hd hc hlim hx hy hpx hpy ha ho hb hp hp',
   fun _ _ _ _ _ _ hd hn hlim hx ha => benchWrite_refused hd hlim hn hx ha,
   fun _ _ _ _ _ hd hn hlim hx ha => benchRead_refused hd hn hlim hx ha,
   fun _ _ _ _ _ _ hd hn hlim hx ha => benchAlias_refused hd hlim hn hx ha,
   fun _ _ _ _ _ _ hd hc hlim hx ha ho hp => benchAlias_merges hd hlim hx ha ho hc hp,
   fun _ _ _ _ _ _ hd hc hlim hx ha ho hp => benchAlias_poisoned hd hlim hx ha ho hc hp,
   fun _ _ _ _ _ hd hn hlim hx ha ho h3 => benchRead_waits hd hn hlim hx ha ho h3,
   fun _ _ _ _ _ _ hd hn hlim hx ha ho h3 => benchWrite_waits hd hlim hx hn ha ho h3,
   fun _ _ _ _ _ _ hd hlim hx ha ho h3 => benchAlias_waits hd hlim hx ha ho h3,
   fun _ _ _ hd hc _ h3 hh hw hk _ _ hfirst hlast => benchWake_serves hd hc h3 hh hw hk hfirst hlast,
   fun _ _ _ _ _ hd hc hn hlim hw hx ha ho hp => benchRead_records hd hn hlim hx hc hw ha ho hp⟩

end Sys2Proof.Machine
end
